-- ==== Sys2Proof/Word.lean ====
section
/-! DEFINITION. The word types of the LJ-4824, the numbered resources of R2 and the table after R7, and the
plainest arithmetic on counters. -/

namespace Sys2Proof

/-- A register or packet word: 32 bits, little-endian in memory (R10, 00_scope.md). -/
abbrev Word := BitVec 32
/-- A byte. -/
abbrev Byte := BitVec 8

/-- Actuator engine number, 0–3 (R2). -/
abbrev Eng := Fin 4
/-- Global head number, 0–23 (R3). -/
abbrev Head := Fin 24
/-- Local head number inside one engine, 0–11 (R23). -/
abbrev LHead := Fin 12
/-- Sample slice number, 0–47 (R4). -/
abbrev SliceIx := Fin 48
/-- Detector lane number, 0–23 (R5). -/
abbrev LaneIx := Fin 24
/-- Codeword slot of a lane's buffer, 0–3. -/
abbrev SlotIx := Fin 4
/-- Angle-stamp comparator number, 0–63. -/
abbrev CmpIx := Fin 64
/-- Arm link of an engine, 0–1 (one per AFE-6). -/
abbrev LinkIx := Fin 2
/-- Decoder engine: 0–35 standard, 36–39 deep. -/
abbrev DecIx := Fin 40
/-- Requester of the decoder pool: 0–23 lanes, 24–27 recovery of engines 0–3. -/
abbrev ReqIx := Fin 28
/-- Recovery job of an engine, 0–15. -/
abbrev JobIx := Fin 16
/-- Loop slot, 0–127. -/
abbrev LoopIx := Fin 128
/-- Loop pipeline, 0–7. -/
abbrev PipeIx := Fin 8
/-- NVMe function: 0 the PF, 1–15 the VFs (R7). -/
abbrev Fn := Fin 16
/-- Command context, 0–4 095 (4 096 commands in flight). -/
abbrev CtxIx := Fin 4096
/-- Service contract, 0–255. -/
abbrev ContractIx := Fin 256
/-- Recorder stream: 0–3 the actuator engines, 4 the module (R614). -/
abbrev StreamIx := Fin 5
/-- SPDM responder, 0–16. -/
abbrev SpdmIx := Fin 17
/-- Zone number, up to 131 072 zones. -/
abbrev ZoneNo := Nat
/-- A shaft angle linearised, in FRAC units, modulo 2^32 revolutions (R65). -/
abbrev Angle := Nat
/-- Module time, datapath clocks, a 64-bit WRAP counter (R71). -/
abbrev MTime := Nat

/-- A SAT counter of w bits: it stays at all-ones (R15). -/
def satAdd (w n k : Nat) : Nat := min (n + k) (2 ^ w - 1)
/-- A WRAP counter of w bits: it wraps to zero (R15). -/
def wrapAdd (w n k : Nat) : Nat := (n + k) % 2 ^ w

/-- One angle stamp (R8): REV, WEDGE 0–719, FRAC. -/
structure Stamp where
  /-- REV 63:32, WRAP. -/
  rev : Nat := 0
  /-- WEDGE 31:16, 0–719. -/
  wedge : Nat := 0
  /-- FRAC 15:0, in 1/65 536 wedge. -/
  frac : Nat := 0
  deriving DecidableEq, Repr

/-- FRAC units of one revolution. -/
def revUnits : Nat := 720 * 65536
/-- FRAC units of 2^32 revolutions, the modulus of R65. -/
def angleModulus : Nat := 2 ^ 32 * revUnits

/-- The linear angle of R65. -/
def Stamp.linear (t : Stamp) : Angle := t.rev * revUnits + t.wedge * 65536 + t.frac
/-- The stamp of a linear angle (R65 read backwards). -/
def Stamp.ofLinear (x : Angle) : Stamp :=
  { rev := (x / revUnits) % 2 ^ 32, wedge := (x / 65536) % 720, frac := x % 65536 }

end Sys2Proof
end

