-- ==== Sys2Proof/Machine/StateReel.lean ====
section
/-! DEFINITION. The state of the angle timeline (Reel) of one actuator engine, and the builds and layouts it depends on
(spec/02_angle_timeline.md, spec/01_architecture.md). A field's default is its value at power-on reset. -/

namespace Sys2Proof.Machine
open Sys2Proof

/-- Timeline states, codes as in R57. -/
inductive TState where
  | stopped | spindle | acquire | locked | flywheel
  deriving DecidableEq, Repr

/-- STATE code of R57. -/
def TState.code : TState → Nat
  | .stopped => 0 | .spindle => 1 | .acquire => 2 | .locked => 3 | .flywheel => 4

/-- Where an engine in ACQUIRE stands (R681): continuous search for the first mark, or the search window. -/
inductive AcqPhase where
  | search | window
  deriving DecidableEq, Repr

/-- A pending slip correction of R56. -/
inductive SlipFix where
  | none
  /-- Step forward k wedges at the next mark. -/
  | step (k : Nat)
  /-- Hold at the wedge boundary for the given number of marks. -/
  | hold (k : Nat)
  /-- Carried out on this datapath clock: the slip condition clears on the next one (R56). -/
  | done
  deriving DecidableEq, Repr

/-- One angle-stamp comparator (R65–R69, CMP_CTL to CMP_LATE). Its OWNER is fixed by its number (R69). -/
structure Comparator where
  armed : Bool := false
  late : Bool := false
  /-- ACTION, SEQ comparators only: 0 trigger, 1/2 read gate on/off, 3/4 write gate on/off. -/
  action : Nat := 0
  headMask : BitVec 12 := 0
  /-- REPEAT in 1/256 wedge, 0 = one-shot. -/
  repeat_ : BitVec 16 := 0
  /-- CMP_TGT_HI and CMP_TGT_LO: the target it holds. -/
  target : Stamp := {}
  /-- CMP_TGT_LO / CMP_TGT_HI written since the last firing or disarm (R79), and the values written. -/
  loWritten : Bool := false
  hiWritten : Bool := false
  newLo : Word := 0
  newHi : Word := 0
  /-- CMP_LATE, SAT: lateness of the last late firing in FRAC units. -/
  lateness : Nat := 0
  /-- MTIME of its last arming or re-arming: it is compared from the datapath clock after (R66, R67). -/
  armedAt : Option MTime := none
  deriving DecidableEq, Repr

/-- The timeline of one engine. -/
structure Reel where
  state : TState := .stopped
  stamp : Stamp := {}
  /-- The low 16 bits of the 32-bit fraction accumulator below FRAC. -/
  accLow : Nat := 0
  /-- FRAC_INC in 2^−32 wedge. -/
  fracInc : Nat := 0
  /-- The last measured wedge periods in datapath clocks, newest first, at most 8 (R47). -/
  periods : List Nat := []
  /-- WPER: last measured wedge period. -/
  wper : Nat := 0
  /-- Module time of the last accepted mark, when the mark of the next wedge would yield a measurement (R47). -/
  lastMark : Option MTime := none
  /-- The wedge boundary of the last accepted mark, in wedges of the linear angle (R47, R681). -/
  lastWedge : Nat := 0
  /-- Signed MARK_ERR of the last accepted mark (R50). -/
  markErr : Int := 0
  /-- Hold of R49: FRAC-unit advance still to be held in 2^−32 wedge units, none when not holding. -/
  hold : Option Nat := none
  /-- Clocks' worth of hold already spent, in 2^−32 wedge (MARK_ERR of a mark accepted in the hold, R50). -/
  heldFor : Nat := 0
  flyRun : Nat := 0
  /-- ACQUIRE: phase, wedges in a row without a mark, agreeing marks in a row (R58, R681). -/
  acq : AcqPhase := .search
  acqMissed : Nat := 0
  acqGood : Nat := 0
  /-- Signed offsets of the last consecutive disagreeing marks, newest first, at most 3 (R55, R56). -/
  offsets : List Int := []
  /-- Slip correction still to be carried out (R56); while it is pending the slip condition of R242 stands. -/
  slipFix : SlipFix := .none
  /-- A hold in ACQUIRE (R61): how far the stamp is ahead of the position the marks indicate, in 2^−32 wedge. -/
  behind : Nat := 0
  /-- The stamp's linear angle before the forward step of a clock, and that clock's MTIME (R53). -/
  step : Option (Angle × MTime) := none
  /-- Wedge 0 phase learned while LOCKED, against the commutation angle (R60). -/
  phase : Option Nat := none
  /-- SKEW, signed, FRAC units (R63). -/
  skew : Int := 0
  /-- Sequencer debt D, DEBT_MAX and DEBT_EVT (R74, R75, R77). -/
  debt : Nat := 0
  debtMax : Nat := 0
  debtEvt : Bool := false
  /-- ANG_CFG: MARK_WIN and LATE_TOL. -/
  markWin : BitVec 16 := 0x0800
  lateTol : BitVec 16 := 0x0010
  lateCnt : Nat := 0
  flyCnt : Nat := 0
  earlyCnt : Nat := 0
  mismCnt : Nat := 0
  slipCnt : Nat := 0
  /-- The comparator whose action is being taken: strobes due at once go in rising comparator number (R83); 0 for none. -/
  firing : Nat := 0
  /-- Word 2 bit 0 of the reel.marker that armed comparator 63: false raise event, true trigger trace (R80). -/
  markerTrace : Bool := false
  cmp : Vector Comparator 64 := Vector.replicate 64 {}
  deriving DecidableEq, Repr

/-- An actuator layout of R22 with the per-engine head counts of R23, as stored in the NOR configuration area (R24). -/
structure Layout where
  /-- Engines present: 2, 3 or 4. -/
  engines : Nat := 4
  heads : Vector Nat 4 := Vector.replicate 4 6
  deriving DecidableEq, Repr

/-- The actuator core pair of an engine (R26, R27). -/
structure ActCore where
  /-- Power-on time (1/1 024 h) of the mismatches of the current power-on hour (R27). -/
  mismatches : List Nat := []
  /-- The engine is marked failed (R27). -/
  failed : Bool := false
  deriving DecidableEq, Repr

/-- The binding of a detector lane to a head (R5, R19–R21). -/
structure LaneBind where
  /-- The head the lane is bound to. -/
  head : Option Head := none
  /-- A change requested while a gate was on or a codeword remained (R20). -/
  pendingHead : Option (Option Head) := none
  /-- The lane failed its power-on self-test and is never bound (R21). -/
  failed : Bool := false
  deriving DecidableEq, Repr

end Sys2Proof.Machine
end

