-- ==== Sys2Proof/Machine/StateChannel.lean ====
section
/-! DEFINITION. The state of the arm links (spec/03_arm_link.md), the sample slices (spec/04_sample_slices.md) and the
detector lanes (spec/05_detection_sector_format.md). A field's default is its value at power-on reset; a default where the
spec says "cal" is the stated default, else the lower limit of the range (DESIGN CHOICE, log 4). -/

namespace Sys2Proof.Machine
open Sys2Proof

/-! ### Arm link -/

/-- LINK of ALK_STATUS. -/
inductive LinkState where
  | down | training | up | failed
  deriving DecidableEq, Repr

/-- Who holds an auxiliary slot (R92). -/
inductive AuxOwner where
  | seq | recovery (j : JobIx) | core
  deriving DecidableEq, Repr

/-- A request for, or the content of, an auxiliary slot (R92): HEAD 0–5, 7 = all; ADDR; VALUE. -/
structure AuxSlot where
  owner : AuxOwner
  head : BitVec 3
  addr : Byte
  value : BitVec 16
  deriving DecidableEq, Repr

/-- A configuration frame (R93): TYPE 0x02 read or 0x03 write. -/
structure CfgFrame where
  write : Bool
  head : BitVec 3
  addr : Byte
  value : BitVec 16
  deriving DecidableEq, Repr

/-- One head block of a set-point frame (R84). -/
structure HeadBlock where
  mode : BitVec 2 := 0
  rdaEn : Bool := false
  rdbEn : Bool := false
  heater : BitVec 12 := 0
  assist : BitVec 12 := 0
  writeI : Byte := 0
  overshoot : Byte := 0
  deriving DecidableEq, Repr

/-- What a frame in flight carries: the two auxiliary slots in their places. -/
inductive FrameBody where
  | setPoint (wedge : Nat) (heads : Vector HeadBlock 6) (aux : Vector (Option AuxSlot) 2)
  | config (c : CfgFrame)
  deriving DecidableEq, Repr

/-- A downlink frame still waiting for its answer: SEQ, attempts made (1–4), body (R87). -/
structure Frame where
  seq : Byte
  attempts : Nat
  body : FrameBody
  deriving DecidableEq, Repr

/-- A symbol of an arm-link lane (R82). -/
inductive ArmSym where
  /-- K28.5, idle and comma. -/
  | idle
  /-- K27.7 and K29.7. -/
  | sof | eof
  /-- K28.0, K28.2, K28.3, K23.7: a head mask byte follows. -/
  | writeOn | writeOff | preheat | safe
  /-- K28.4, K28.6: a SEQ byte follows; K30.7: a head mask byte follows. -/
  | ack | nak | fault
  | data (b : Byte)
  deriving DecidableEq, Repr

/-- A strobe that waits for its symbol boundary (R83): its symbol, head mask, the clock it became due and the comparator that
fired, 0 where no comparator did. -/
structure DueStrobe where
  sym : ArmSym
  mask : BitVec 6
  at_ : MTime
  cmp : Nat
  deriving DecidableEq, Repr

/-- The training phase of a link (R97): which of the three frames have been acknowledged. -/
inductive TrainPhase where
  /-- K28.5 sent, no aligned commas yet. -/
  | commas
  | readId | setWdt | setSafe
  deriving DecidableEq, Repr

/-- One arm link (R81–R99). -/
structure ArmLink where
  state : LinkState := .down
  stale : Bool := false
  afeSafe : Bool := false
  /-- TRAIN_ATT: failed attempts in the current series. -/
  trainAtt : Nat := 0
  lastAck : Byte := 0
  /-- FAULT_MASK: heads with a FLT bit set in the last status frame. -/
  faultMask : BitVec 6 := 0
  /-- FLT bytes of the last good status frame, per AFE head. -/
  flt : Vector Byte 6 := Vector.replicate 6 0
  /-- HTR_SENSE and ASSIST_MON of the last good status frame. -/
  htrSense : Vector (BitVec 12) 6 := Vector.replicate 6 0
  assistMon : Vector (BitVec 12) 6 := Vector.replicate 6 0
  /-- AFE_TEMP of the last good status frame, 0.5 °C units. -/
  afeTemp : Byte := 0
  /-- No good status frame has arrived since the heater and assist loops last sampled (R95, R322). -/
  sampleLost : Bool := true
  /-- SEQ of the last good status frame. -/
  statSeq : Byte := 0
  /-- The fault condition of R96, per AFE head: set by a FAULT strobe, cleared by a status frame all clear for that head. -/
  faultCond : BitVec 6 := 0
  /-- ALK_CFG. -/
  afeWdt : Byte := 0x28
  ackTmo : Byte := 0x10
  /-- ALK_SAFE.SAFE_HTR, cal. -/
  safeHtr : BitVec 12 := 0
  nakCnt : Nat := 0
  crcUpCnt : Nat := 0
  ackTmoCnt : Nat := 0
  seqErrCnt : Nat := 0
  symErrCnt : Nat := 0
  staleCnt : Nat := 0
  faultCnt : Nat := 0
  trainCnt : Nat := 0
  /-- SEQ of the last frame sent (R84). -/
  seq : Byte := 0
  /-- The set-point frame that waits for its answer. -/
  frame : Option Frame := none
  /-- The last set-point frame after its last attempt failed, while it is the frame just sent (R89). -/
  last : Option Frame := none
  /-- The configuration frame that waits for its answer, and whether it is to be sent again (R93). -/
  cfg : Option Frame := none
  cfgDue : Bool := false
  /-- The downlink lane: the symbol on it, the symbols of the frame being sent that are still to come, whether that is a
  configuration frame, the strobes that wait, and the mask byte of the strobe being sent (R82, R83). -/
  lane : ArmSym := .idle
  tx : List ArmSym := []
  txConfig : Bool := false
  strobeQ : List DueStrobe := []
  strobeMask : Option (BitVec 6) := none
  /-- Comparator 2 fired while a configuration frame was being sent: the set-point frame starts at its end (R84). -/
  launchDue : Bool := false
  aux : Vector (Option AuxSlot) 2 := Vector.replicate 2 none
  auxQueue : List AuxSlot := []
  /-- Auxiliary slots granted since the last launch: two per wedge at most (R92). -/
  auxGrants : Nat := 0
  cfgQueue : List CfgFrame := []
  phase : TrainPhase := .commas
  /-- Value of the last configuration read (TYPE 0x82). -/
  cfgReply : Option CfgFrame := none
  /-- The AFE's boot commas were received in this training attempt. -/
  aligned : Bool := false
  deriving DecidableEq, Repr

/-! ### The detector part of a band entry -/

/-- A tap set of R158: nine taps of each reader, signed Q1.10 in 12 bits. -/
structure TapSet where
  wa : Vector (BitVec 12) 9 := Vector.replicate 9 0
  wb : Vector (BitVec 12) 9 := Vector.replicate 9 0
  deriving DecidableEq, Repr

/-- The detector part of a band entry (R182). -/
structure DetBand where
  /-- GLOB_MAX 4, LOC_ITER 4, SW_ABORT 400, MIS_THR 1 500. -/
  iter : Word := 0x441905DC
  tgt : Word := 0
  /-- ADAPT_EN 0, MU_SH 8, EXT_SC 0x60. -/
  adapt : Word := 0x00080060
  taps : Vector TapSet 3 := Vector.replicate 3 {}
  /-- NP_PRED and NP_NOISE of conditions 0–31. -/
  npPred : Vector Word 32 := Vector.replicate 32 0
  npNoise : Vector Word 32 := Vector.replicate 32 0
  deriving DecidableEq, Repr

/-! ### Codewords of a lane -/

/-- Codeword outcomes, codes as in R175. -/
inductive CwOutcome where
  | converged | crcFail | noConv | misalign | addrErr | budgetCut | noSlot | dropped | streamErr
  deriving DecidableEq, Repr

/-- Outcome code of R175. -/
def CwOutcome.code : CwOutcome → Nat
  | .converged => 0 | .crcFail => 1 | .noConv => 2 | .misalign => 3 | .addrErr => 4
  | .budgetCut => 5 | .noSlot => 6 | .dropped => 7 | .streamErr => 8

/-- A physical sector of one engine: local head, track, sector index (ADDR_TAG, R150). -/
structure SectorAt where
  head : LHead := 0
  track : Nat := 0
  sector : Nat := 0
  deriving DecidableEq, Repr

/-- Slot states of a lane (codeword slots of 05_detection_sector_format.md). -/
inductive SlotState where
  | free | stream | wait | decode | done
  deriving DecidableEq, Repr

/-- SLOT code of LANE_STATUS. -/
def SlotState.code : SlotState → Nat
  | .free => 0 | .stream => 1 | .wait => 2 | .decode => 3 | .done => 4

/-- One bit instant of a packet as a slice delivers it (R138): z; whether a sample of it was flagged by an underrun (R160); whether it
precedes the first streamed sample of a packet opened late (R123, R177). -/
structure ReadBit where
  z : Int := 0
  erased : Bool := false
  absent : Bool := false
  deriving DecidableEq, Repr

/-- One equalised bit instant (R156): u, whether the bit is erased or absent (R160, R177), and whether a fragment begins here
(R149). -/
structure EqBit where
  u : Int := 0
  lost : Bool := false
  frag : Bool := false
  deriving DecidableEq, Repr

/-- A survivor of the streaming detector: the metric of its state, and its bits, newest first (R163). -/
structure Survivor where
  metric : Int := 0
  bits : List Bool := []
  deriving DecidableEq, Repr

/-- A codeword slot of a lane with the codeword's record. -/
structure Slot where
  state : SlotState := .free
  /-- MTIME at which the slot entered WAIT (R166). -/
  since : MTime := 0
  /-- Pool engine granted. -/
  engine : Option DecIx := none
  /-- Global iterations done or in progress; local iterations done in the current one. -/
  glob : Nat := 0
  loc : Nat := 0
  u1 : Nat := 0
  uEnd : Nat := 0
  /-- The first detector pass is done: the exchange of global iteration 1 is ready. -/
  passed : Bool := false
  /-- Sync record (R180). -/
  syncQ : Int := 0
  syncDist : Nat := 0
  fly : Bool := false
  synced : Bool := false
  outcome : Option CwOutcome := none
  /-- Expected ADDR_TAG and ZGEN (R153). -/
  tag : Word := 0
  zgen : Word := 0
  /-- The packet's bit instants from reader A and reader B, newest first, counted from the read-gate-on edge (R138, R176). -/
  za : List ReadBit := []
  zb : List ReadBit := []
  /-- Bits before which a fragment after a split begins (R149). -/
  frags : List Nat := []
  /-- Equalised bit instants, newest first (R156). -/
  us : List EqBit := []
  /-- The sixteen survivors of the streaming detector, and how many bits its recursion has taken since it last started (R163,
  R165). -/
  surv : List Survivor := List.replicate 16 {}
  sinceStart : Nat := 0
  /-- Tentative decisions released, newest first (R163). -/
  dec : List Bool := []
  /-- The band values of the packet, kept from its end (R122, R182). -/
  det : DetBand := {}
  /-- The exchange of the global iteration: 36 864 LLRs in codeword order (R162, R169). -/
  chan : List Int := []
  /-- The engine's posteriors, and its check messages by block row, row of the circulant and edge (R170). -/
  post : List Int := []
  msgs : List (List (List Int)) := []
  /-- Block rows done in the current local iteration, and MTIME at which its first one began (R169, R170). -/
  layer : Nat := 0
  layerFrom : MTime := 0
  /-- Information part, descrambled, once converged. -/
  info : BitVec 32928 := 0
  /-- The command the sector belongs to and its block number there. -/
  ctx : Option CtxIx := none
  block : Nat := 0
  /-- Told to end under R166 or R168 while in DECODE: its outcome, the block row after whose layer it ends (0 where its engine runs
  none), and MTIME of that layer's or beat's end. -/
  reclaim : Option CwOutcome := none
  cutRow : Nat := 0
  cutAt : MTime := 0
  /-- The recovery job whose ladder made the read has ended: its codeword is passed to no one (R202, R214). -/
  void : Bool := false
  /-- A verify read: data is not transferred. -/
  discard : Bool := false
  /-- The packet has ended and the first pass is due (R163). -/
  ended : Bool := false
  /-- U was zero: the check of R153 is due (R171). -/
  checking : Bool := false
  /-- The sector read; its class (R192); the recovery job whose ladder reads it (R202). -/
  at_ : SectorAt := {}
  cls : Nat := 4
  job : Option JobIx := none
  /-- GLOB_MAX of this codeword where the ladder sets it (R203 step 2), 0: the band's. -/
  globMax : Nat := 0
  deriving DecidableEq, Repr

/-! ### Sample slices -/

/-- Slice states, codes as in R114. -/
inductive SliceState where
  | off | wake | idle | acq | track | coast | fault | failed
  deriving DecidableEq, Repr

/-- STATE code of R114. -/
def SliceState.code : SliceState → Nat
  | .off => 0 | .wake => 1 | .idle => 2 | .acq => 3 | .track => 4 | .coast => 5 | .fault => 6 | .failed => 7

/-- The head-unit slice registers SLC_FE to SLC_FIFO of one reader (R140); also a reader's part of a band entry. -/
structure SliceRegs where
  fe : Word := 0
  base : Word := 0
  asym : Word := 0
  /-- KG_ACQ_SH 6, KG_TRK_SH 0, AGC_TGT 128. -/
  agc : Word := 0x00006080
  /-- KP_ACQ_SH 7, KP_TRK_SH 9, KF_ACQ_SH 14, KF_TRK_SH 18, F_LIM_SH 13, ACQ_BITS 12 (96 bits). -/
  tl : Word := 0x79748DC0
  /-- BPW in 1/256 bit; 18 230 bits per wedge is the lower limit. -/
  bpw : Word := 0x00473600
  phofs : Word := 0
  /-- TMO 64, START_LVL 8. -/
  fifo : Word := 0x00004008
  deriving DecidableEq, Repr

/-- A word of the sample FIFO (R104): WSEQ, and four codes with the earliest in bits 7:0. -/
structure FifoWord where
  wseq : BitVec 2
  codes : Word
  deriving DecidableEq, Repr

/-- A corrected sample (R124, R126) in 1/16 code step, and its underrun flag (R108). -/
structure Sample where
  x : Int := 0
  flag : Bool := false
  deriving DecidableEq, Repr

/-- One bit instant at a slice: y of R127 as the sum before the division by 2 048, in 1/16 code step; z of R138; and whether it is
erased or absent. -/
structure LoopBit where
  y : Int := 0
  z : Int := 0
  lost : Bool := false
  deriving DecidableEq, Repr

/-- A read gate came on in WAKE (R123): p at the edge (R134), the packet bit of the edge, and the codeword the packet is to
carry. -/
structure WakeOpen where
  pos : Int
  base : Nat := 0
  cw : Slot
  deriving DecidableEq, Repr

/-- One sample slice (R100–R144). -/
structure Slice where
  state : SliceState := .off
  underrun : Bool := false
  overrun : Bool := false
  tmo : Bool := false
  fLimit : Bool := false
  wakeLate : Bool := false
  seedLim : Bool := false
  /-- The FIFO's words, oldest first (R104). -/
  fifo : List FifoWord := []
  /-- Its write and read pointers, 6-bit Gray codes, and their two-stage synchronisers on the other side (R104). -/
  wrPtr : BitVec 6 := 0
  rdPtr : BitVec 6 := 0
  wrSync : BitVec 6 × BitVec 6 := (0, 0)
  rdSync : BitVec 6 × BitVec 6 := (0, 0)
  /-- WSEQ of the next word written; sample index of its first sample (R103, R104). -/
  wrSeq : BitVec 2 := 0
  wrIx : Nat := 0
  /-- Names the stretch of signal the ADC converts since the stream began (log 64). -/
  epoch : Nat := 0
  /-- Delivered samples, newest first, and the sample index after the newest; sample index of the stream's first sample; the last
  code delivered (R105, R108). -/
  line : List Sample := []
  lineEnd : Nat := 0
  first : Nat := 0
  lastCode : Int := 0
  /-- Words delivered before their pop was due, at a gate edge or by an underrun's command: so many pops are skipped (log 64). -/
  popAhead : Nat := 0
  /-- Corrected samples delivered to the servo demodulator since the servo gate opened, newest first (R118). -/
  demod : List Int := []
  /-- SRV_DC: analogue stages duty-cycled to the servo fields (R547). -/
  srvDc : Bool := false
  band : Nat := 0
  /-- Seed, U4.28 samples per bit. -/
  seed : Nat := 0
  /-- A recomputed seed and the position from which it applies (R130). -/
  seedNext : Option (Nat × Int) := none
  /-- g, U2.14. -/
  gain : Nat := 0
  /-- b in 2^−20 code step (R124). -/
  bias : Int := 0
  /-- p on the slice's sample index, 32 fraction bits (R127). -/
  pos : Int := 0
  /-- Bits this slice has delivered of the open packet, and the packet bit its first one was. -/
  bits : Nat := 0
  base : Nat := 0
  /-- Its last bit instants, newest first (R132, R135). -/
  hist : List LoopBit := []
  /-- The zero-phase start has been made (R135). -/
  zeroDone : Bool := false
  /-- Its bits so far when TRACK began, and those whose tentative decisions the loop has used (R132, R133). -/
  trackFrom : Option Nat := none
  used : Nat := 0
  /-- A packet is open at the slice. -/
  packet : Bool := false
  /-- A servo gate holds the packet in COAST (R118). -/
  servoCoast : Bool := false
  /-- The read gate is on while the slice is in WAKE: the packet opens at the first streamed sample (R123). -/
  wake : Option WakeOpen := none
  /-- SLC_LAT, 1/8 datapath clock. -/
  lat : Nat := 0
  /-- Run of stream faults with no packet completed between them (R112). -/
  faultRun : Nat := 0
  /-- WSEQ values of words an underrun replaced and that are still to arrive (R109). -/
  missing : List (BitVec 2) := []
  /-- WSEQ of the next word due at the read side (R104), and the modulo-10 accumulator of the pop schedule (R105). -/
  rdSeq : BitVec 2 := 0
  popAcc : Nat := 0
  underrunCnt : Nat := 0
  clipCnt : Nat := 0
  satCnt : Nat := 0
  dropCnt : Nat := 0
  tmoCnt : Nat := 0
  overrunCnt : Nat := 0
  flimCnt : Nat := 0
  wakeLateCnt : Nat := 0
  deriving DecidableEq, Repr

/-! ### Detector lanes -/

/-- One detector lane (R156–R184). -/
structure Lane where
  bind : LaneBind := {}
  slots : Vector Slot 4 := Vector.replicate 4 {}
  /-- The codeword whose first samples the input buffer holds while a slot is freed (R166). -/
  inBuf : Option Slot := none
  /-- Codewords that hold no slot and wait for recovery: reclaimed, or NO_SLOT (R166, R167), oldest first. -/
  cut : List Slot := []
  lastGlob : Nat := 0
  lastOut : Nat := 0
  lastSync : Word := 0
  lastSw : Word := 0
  cw : Nat := 0
  conv : Vector Nat 6 := Vector.replicate 6 0
  flysyncCnt : Nat := 0
  crcFailCnt : Nat := 0
  noconvCnt : Nat := 0
  misalCnt : Nat := 0
  addrErrCnt : Nat := 0
  cutCnt : Nat := 0
  noslotCnt : Nat := 0
  eraseCnt : Nat := 0
  deriving DecidableEq, Repr

/-- The detector registers of a head unit: the band loaded, the active taps and DET_SCALE. -/
structure DetRegs where
  band : DetBand := {}
  active : TapSet := {}
  /-- SA 0x80, SB 0x80, TAP_SET 0. -/
  scale : Word := 0x80800000
  deriving DecidableEq, Repr

end Sys2Proof.Machine
end

