-- ==== Sys2Proof/Machine/StateRecovery.lean ====
section
/-! DEFINITION. The state of the decoder pool and the recovery ladder (spec/06_decoder_pool_recovery.md) and of the write
path (spec/07_write_path_assist.md). A field's default is its value at power-on reset. -/

namespace Sys2Proof.Machine
open Sys2Proof

/-! ### Decoder pool -/

/-- ENG_STATUS.STATE. -/
inductive EngState where
  | idle | held | finalBeat | failed
  deriving DecidableEq, Repr

/-- STATE code of ENG_STATUS. -/
def EngState.code : EngState → Nat
  | .idle => 0 | .held => 1 | .finalBeat => 2 | .failed => 3

/-- What a pool request is for: a lane's slot, or a recovery job (R186). -/
inductive ReqFor where
  | slot (k : SlotIx)
  | job (j : JobIx)
  deriving DecidableEq, Repr

/-- A pending request of the pool (R186, R189). -/
structure PoolReq where
  at_ : MTime
  /-- Class: 0 urgent, 1 high, 2 medium, 3 low, 4 internal, 5 recovery on a standard engine, 6 deep (R192). -/
  cls : Nat
  /-- Least level management firmware has given it (R192). -/
  raised : Nat := 0
  deep : Bool
  for_ : ReqFor
  deriving DecidableEq, Repr

/-- One engine of the pool: 0–35 standard, 36–39 deep (R185). -/
structure PoolEngine where
  state : EngState := .idle
  parked : Bool := false
  /-- Power-gated (R543): a standard engine beyond the powered count, while idle. -/
  gated : Bool := true
  owner : Nat := 0
  ownPrio : Nat := 0
  glob : Nat := 0
  /-- The request the engine holds. -/
  job : Option PoolReq := none
  /-- MTIME since which the engine is idle (R190: idle longest first). -/
  idleSince : MTime := 0
  /-- MTIME at which the hold began (ENG_BUSY). -/
  heldSince : MTime := 0
  /-- Its owner has let go (R210, R215, R225): MTIME at which it stops, the end of its current layer or beat. -/
  stopAt : Option MTime := none
  /-- A decision made in the final beat: the next owner (R188). -/
  next : Option (ReqIx × PoolReq) := none
  cw : Nat := 0
  /-- ENG_BUSY in datapath clocks (the register shows units of 1 024). -/
  busy : Nat := 0
  deriving DecidableEq, Repr

/-- One requester of the pool: 0–23 lanes, 24–27 recovery sequencers (R185). -/
structure PoolRequester where
  /-- Pending requests, oldest first. -/
  pending : List PoolReq := []
  loss : Nat := 0
  /-- MTIME of the promotion to effective level 4 (R194). -/
  promoted : Option MTime := none
  grantCnt : Nat := 0
  starveCnt : Nat := 0
  waitMax : Nat := 0
  deriving DecidableEq, Repr

/-- The decoder pool. -/
structure Pool where
  engines : Vector PoolEngine 40 := Vector.replicate 40 {}
  reqs : Vector PoolRequester 28 := Vector.replicate 28 {}
  /-- POOL_CFG: STARVE_THR0–3. -/
  cfg : Word := 0x30180C00
  /-- PRIO_CFG. -/
  prio : Word := 0xE5211000
  guardCnt : Nat := 0
  /-- GUARD_VICT. -/
  guardVict : Word := 0
  deriving DecidableEq, Repr

/-! ### Recovery -/

/-- What a recovery job waits for, by the ladder's step tables. -/
inductive JobWait where
  /-- Waits for DRAM staging or the copy of the retained stream (R200). -/
  | copy
  /-- A try is to be made. -/
  | ready
  /-- A try runs: an offline decode holds or awaits a standard engine, or a read passes. -/
  | try_
  /-- Waits for a capture buffer (steps 6 and 7). -/
  | capture
  /-- A capture pass is running. -/
  | capturing
  /-- Waits for a deep decoder while holding a capture buffer. -/
  | deep
  /-- A deep decode runs. -/
  | decoding
  /-- The timeline is STOPPED: waits at the start of its step (R226). -/
  | stopped
  deriving DecidableEq, Repr

/-- A recovery job (R199–R216). -/
structure RecJob where
  at_ : SectorAt
  /-- The commands of the job (R199), with the block number of the sector in each, and Limited Retry. -/
  cmds : List (CtxIx × Nat × Bool)
  outcome : CwOutcome
  fly : Bool
  syncQ : Int
  syncDist : Nat := 0
  /-- U after the first local iteration and at the end of the failed codeword (R175, R201). -/
  u1 : Nat := 0
  uEnd : Nat := 0
  /-- A usable retained stream is held (R201): the bit instants of both readers, oldest first, from 8 bits before the placed codeword,
  the bits in it before which a fragment begins, and how many of its first bits lie before the packet. -/
  stream : Bool
  za : List ReadBit := []
  zb : List ReadBit := []
  frags : List Nat := []
  lane : LaneIx
  slot : SlotIx
  /-- The slot still holds the codeword whose stream is copied (R200). -/
  inSlot : Bool := false
  /-- Expected ADDR_TAG and ZGEN. -/
  tag : Word
  zgen : Word
  /-- Class of the commands' reads (R216). -/
  cls : Nat := 4
  step : Nat
  try_ : Nat := 0
  /-- REC_CFG and REC_FH as they were when the step started (R227). -/
  cfg : Word := 0x20244200
  fh : Word := 0x08C00A00
  wait : JobWait
  /-- REV of the engine's timeline when the job opened; revolutions spent (R212). -/
  revOpen : Nat
  /-- Capture buffers held, and the captures complete: slice, sample index and raw code, newest first; and the one being taken
  (R113, R209, R211). -/
  caps : Nat := 0
  capsHeld : List (List (Nat × Nat × Byte)) := []
  cap : List (Nat × Nat × Byte) := []
  deepEng : Option DecIx := none
  /-- DRAM staging units held (40). -/
  staging : Nat := 0
  /-- Acquisition stamp: linear angle of the reference engine at which the oldest held resource was acquired (R224). -/
  acquired : Option Angle := none
  /-- Wait-for timer: the linear angle of the engine at which it fires (R223). -/
  timer : Option Angle := none
  /-- Scale pair of step 3 with the lowest U, and that U (R206). -/
  best : Option (Nat × Nat × Nat) := none
  /-- DET_SCALE of the head holds this job's scale pair (R206). -/
  biased : Bool := false
  /-- A head-contact event ended the rest of step 4 (R207). -/
  contact : Bool := false
  /-- The decode in progress, offline or deep. -/
  cw : Slot := {}
  /-- Sync offsets still to be tried on the retained stream (R203 step 1, R202). -/
  offs : List Int := []
  /-- Recovered information part and the step it succeeded at. -/
  info : Option (BitVec 32928) := none
  deriving DecidableEq, Repr

/-- Entry of an engine's defect list (R370): a sector, grown or primary, and its kind. -/
inductive DefectKind where
  | grown | unreadable | weak
  deriving DecidableEq, Repr

/-- A reallocation under way (R217, R220). -/
structure Realloc where
  orig : SectorAt
  dest : SectorAt
  zone : ZoneNo
  info : BitVec 32928
  /-- Counted by WRELOC_CNT (a suspect sector, R250) rather than REALLOC_CNT. -/
  suspect : Bool
  /-- The spare write has been made (R217). -/
  placed : Bool := false
  deriving DecidableEq, Repr

/-- The recovery sequencer of an engine. -/
structure Recovery where
  jobs : Vector (Option RecJob) 16 := Vector.replicate 16 none
  /-- Failures that found no free job or no staging and wait (R200): lane and slot. -/
  waiting : List (LaneIx × SlotIx) := []
  /-- REC_CFG, REC_FH. -/
  cfg : Word := 0x20244200
  fh : Word := 0x08C00A00
  stepOk : Vector Nat 7 := Vector.replicate 7 0
  unrecCnt : Nat := 0
  reallocCnt : Nat := 0
  revsCnt : Nat := 0
  spareTotal : Nat := 0
  spareUsed : Nat := 0
  spareWarn : Bool := false
  spareFull : Bool := false
  /-- Next free spare sector of each head's band in each of the 8 regions, and the band's size (R218). -/
  spareNext : Vector (Vector Nat 8) 12 := Vector.replicate 12 (Vector.replicate 8 0)
  spareSize : Vector (Vector Nat 8) 12 := Vector.replicate 12 (Vector.replicate 8 0)
  reallocs : List Realloc := []
  deriving DecidableEq, Repr

/-! ### Writing -/

/-- Head-unit write registers of a band entry (R257). -/
structure WriteBand where
  cfg : Word := 0
  pre0 : Word := 0
  pre1 : Word := 0
  htr : Word := 0
  asst0 : Word := 0
  asst1 : Word := 0
  asst2 : Word := 0
  deriving DecidableEq, Repr

/-- A suspect sector (R248): its place, the command and block it belongs to, rewrites tried (R249, R250). -/
structure Suspect where
  at_ : SectorAt
  ctx : Option CtxIx
  block : Nat
  tries : Nat := 0
  /-- Linear angle of the end of a whole rewrite, while a guard may still find it spoilt. -/
  written : Option Angle := none
  deriving DecidableEq, Repr

/-- A run of a head (R230): its sectors, the sector in progress, and its first write-gate-on angle. -/
structure WriteRun where
  sectors : List (SectorAt × Option (CtxIx × Nat))
  /-- Sectors written whole so far with their write angles. -/
  done : List (SectorAt × Option (CtxIx × Nat) × Angle) := []
  rewrite : Bool := false
  /-- The run's pre-bias angle on its engine's stamp (R237, R253). -/
  preBias : Angle := 0
  /-- First bit boundary of each fragment of the sector in progress that its write gate opened, oldest first, in 2^−32 datapath clock
  (R232). -/
  starts : List Int := []
  /-- SEQ of the last frame sent when the run's first write gate went on (R246), none before. -/
  gateSeq : Option Byte := none
  /-- A later arm of the run was refused while its gate was on: the run ends as the gate closes (R380). -/
  ending : Bool := false
  deriving DecidableEq, Repr

/-- Write state of one head. -/
structure HeadWrite where
  band : WriteBand := {}
  /-- A band load or write-register write during a run takes effect when the run ends (R257). -/
  pendingBand : Option WriteBand := none
  /-- WR_LEAD: HTR_LEAD 120, ASST_LEAD 200. ASM_CFG: ASM_WIN 15, ASM_STRIKES 3. -/
  lead : Word := 0x007800C8
  asm : Word := 0x0F300000
  /-- Values of WR_LEAD and ASM_CFG that apply from the next run (R259). -/
  pendingLead : Option (Word × Word) := none
  /-- Serialiser held. -/
  slot : Option (Fin 12) := none
  /-- The serialiser's bit period, 2^−32 datapath clock (R231). -/
  period : Nat := 0
  wrDis : Bool := false
  preheated : Bool := false
  /-- Linear angle at which PREHEAT was sent. -/
  preheatAt : Option Angle := none
  /-- A frame with MODE 0b10 has been acknowledged (R240). -/
  modeAcked : Bool := false
  /-- MODE 0b10 is in the head's block. -/
  writeReady : Bool := false
  /-- REV of the assist-guard trips of the last 16 revolutions. -/
  strikes : List Nat := []
  /-- Consecutive lost status frames while writing (R246). -/
  lostFrames : Nat := 0
  run : Option WriteRun := none
  suspects : List Suspect := []
  /-- Linear angle of the last clear servo sample (R248). -/
  lastClear : Angle := 0
  /-- Linear angle of the assist guard's last clear check, or of the run's first gate (R248). -/
  lastAsm : Angle := 0
  otwTrip : Bool := false
  asmTrip : Bool := false
  /-- WRITE_EN as last sent, and the gates of the head. -/
  writeEn : Bool := false
  writeGate : Bool := false
  readGate : Bool := false
  servoGate : Bool := false
  /-- DATA_OUT pair idle. -/
  pairIdle : Bool := true
  /-- MTIME of the head's last read-gate and write-gate off edges: an on edge of the same clock leaves the gate off (R68, R386). -/
  rdOff : Option MTime := none
  wrOff : Option MTime := none
  suspCnt : Nat := 0
  rewrCnt : Nat := 0
  wrelocCnt : Nat := 0
  otwCnt : Nat := 0
  asmCnt : Nat := 0
  deriving DecidableEq, Repr

/-- The guard block WRG of an engine. -/
structure WriteGuard where
  shock : Bool := false
  rv : Bool := false
  /-- MEMS samples (200 kS/s) in a row below both thresholds, towards HOLD. -/
  calm : Nat := 0
  /-- Linear angle of the last clear MEMS sample (R248). -/
  lastCalm : Angle := 0
  cfg : Word := 0x1E140300
  shockCfg : Word := 0x04003C0A
  shockCnt : Nat := 0
  rvCnt : Nat := 0
  frzCnt : Nat := 0
  /-- The engine's wedge is missing or invalid (R242, R287). -/
  wedgeMissing : Bool := false
  trapMask : BitVec 12 := 0
  /-- Last valid wedge, as a linear angle (R248). -/
  lastWedge : Angle := 0
  deriving DecidableEq, Repr

/-- The MEMS die of the module (R244, R245). -/
structure Mems where
  /-- Last sample: three linear axes, two rotational axes. -/
  last : List Int := []
  same : Nat := 0
  changed : Nat := 0
  frozen : Bool := false
  /-- Rotational acceleration samples since each engine's last loop sample: sum and count (R284). -/
  rotSum : Vector Int 4 := Vector.replicate 4 0
  rotN : Vector Nat 4 := Vector.replicate 4 0
  deriving DecidableEq, Repr

/-- The writer slots of the module (R252–R256). -/
structure WriterSlots where
  /-- WSL_CFG.WR_MAX. -/
  max : Nat := 12
  held : Vector (Option Head) 12 := Vector.replicate 12 none
  /-- Pending requests: head and its pre-bias linear angle on the reference stamp. -/
  pending : List (Head × Angle) := []
  /-- Grants of the last revolution of the reference engine in which one was made, that revolution, and those of the one before it
  (R609). -/
  grants : Nat := 0
  grantRev : Nat := 0
  grantsBefore : Nat := 0
  deriving DecidableEq, Repr

end Sys2Proof.Machine
end

