-- ==== Sys2Proof/Machine/StateServo.lean ====
section
/-! DEFINITION. The state of the servo positioning of one engine and its heads (spec/08_servo_positioning.md). A field's
default is its value at power-on reset. -/

namespace Sys2Proof.Machine
open Sys2Proof

/-- Voice-coil motor modes, codes as in R276. -/
inductive VcmMode where
  | unloaded | loading | seek | settle | minuet | blend | hold | unload
  deriving DecidableEq, Repr

/-- MODE code of R276. -/
def VcmMode.code : VcmMode → Nat
  | .unloaded => 0 | .loading => 1 | .seek => 2 | .settle => 3
  | .minuet => 4 | .blend => 5 | .hold => 6 | .unload => 7

/-- The position model of R285, in the accumulator format of R306: 2^−30 track, 2^−30 track per wedge, 2^−30 of full scale. -/
structure PosModel where
  x : Int := 0
  v : Int := 0
  bias : Int := 0
  deriving DecidableEq, Repr

/-- Burst history of one reader for the freeze check of R272. -/
structure BurstHist where
  a : Nat := 0
  b : Nat := 0
  c : Nat := 0
  d : Nat := 0
  /-- Wedges in a row with the four values identical. -/
  run : Nat := 0
  frozen : Bool := false
  deriving DecidableEq, Repr

/-- Servo state and registers of one head. -/
structure HeadServo where
  valid : Bool := false
  lost : Bool := false
  wrReady : Bool := false
  rdReady : Bool := false
  hloss : Nat := 0
  active : Bool := false
  notchOff : BitVec 2 := 0
  rdrUsed : Nat := 0
  /-- Last head position error, 1/256 track. -/
  pe : Int := 0
  /-- HEAD_POS, HEAD_TGT in 1/256 track. -/
  pos : Nat := 0
  tgt : Nat := 0
  /-- Off-track offset of the recovery ladder (R208), 1/256 track. -/
  ladderOfs : Int := 0
  /-- Heater bias of the recovery ladder (R207), 25 µW units. -/
  ladderBias : Nat := 0
  /-- HEAD_XOFS, RDR_XOFS, PES_GAIN, MA_CFG and their not-yet-applied values (R296). -/
  xofs : Word := 0
  rdrXofs : Word := 0
  /-- MARK_OFS 0, PES_GAIN 1.0. -/
  pesGain : Word := 0x00000000
  maCfg : Word := 0x00020000
  pendingCfg : Option (Word × Word × Word × Word) := none
  /-- MA_OUT, signed 12-bit drive. -/
  maOut : Int := 0
  maNotch : Vector Word 2 := Vector.replicate 2 0x00000108
  /-- MA_NOTCH written and not yet in the loop's bank (R294). -/
  notchDue : Bool := false
  /-- Samples in a row within RD_RDY and WR_RDY (R282). -/
  rdRun : Nat := 0
  wrRun : Nat := 0
  /-- Valid fields in a row while SRV_LOST (R289). -/
  validRun : Nat := 0
  /-- Power-on time of the losses of the last power-on hour (R290). -/
  losses : List Nat := []
  burst : Vector BurstHist 2 := Vector.replicate 2 {}
  invalCnt : Nat := 0
  frzCnt : Nat := 0
  grayFixCnt : Nat := 0
  grayErrCnt : Nat := 0
  xdisCnt : Nat := 0
  lostCnt : Nat := 0
  deriving DecidableEq, Repr

/-- Servo state and registers of one engine. -/
structure Servo where
  mode : VcmMode := .unloaded
  lossRun : Nat := 0
  timingHead : Nat := 0
  qdRvOff : Bool := false
  galopSet : Nat := 3
  notchOff : BitVec 4 := 0
  /-- SRV_CFG, SRV_RDY, SRV_HO. AMP_MIN is cal. -/
  cfg : Word := 0x30302001
  rdy : Word := 0x10428200
  ho : Word := 0x400D0010
  /-- VCM_OUT, signed, 45.78 µA. -/
  out : Int := 0
  armPos : Nat := 0
  armTgt : Nat := 0
  armValid : Bool := false
  model : PosModel := {}
  /-- BLEND sample number 1–4 (R280). -/
  blendK : Nat := 0
  /-- A hand-over in progress restarts from held output (R288). -/
  fromHold : Bool := false
  /-- Seek waiting for the next sample (R283). -/
  seekDue : Bool := false
  /-- Notches written and waiting for a bank swap or hand-over (R294). -/
  notchDue : Bool := false
  lossCnt : Nat := 0
  unloadCnt : Nat := 0
  hoBlendCnt : Nat := 0
  seekCnt : Nat := 0
  markAltCnt : Nat := 0
  idxErrCnt : Nat := 0
  /-- QD_K and QD_RV, signed Q2.30; 0 until calibrated. -/
  qdK : Vector Word 4 := Vector.replicate 4 0
  qdRv : Word := 0
  notch : Vector Word 4 := Vector.replicate 4 0x00000108
  deriving DecidableEq, Repr

end Sys2Proof.Machine
end

