-- ==== Sys2Proof/Machine/StateLoop.lean ====
section
/-! DEFINITION. The state of the loop engine array and the trace buffers (spec/09_loop_engines.md), and of the spindle
drive (spec/10_spindle.md). A field's default is its value at power-on reset. -/

namespace Sys2Proof.Machine
open Sys2Proof

/-! ### Loop engine array -/

/-- Laws of a slot, codes as in R312. -/
inductive LMode where
  | off | open_ | ramp | closed | table | blend | hold | fallback
  deriving DecidableEq, Repr

/-- LMODE code of R312. -/
def LMode.code : LMode → Nat
  | .off => 0 | .open_ => 1 | .ramp => 2 | .closed => 3 | .table => 4 | .blend => 5 | .hold => 6 | .fallback => 7

/-- A sparse table of words: (index, word), indices strictly rising, no word 0; an unlisted index reads 0. -/
abbrev WordMap := List (Nat × Word)

/-- One set of coefficients in the NOR configuration area (R313): its version and words 0–191. -/
structure CoefSet where
  version : BitVec 13 := 0
  words : WordMap := []
  deriving DecidableEq, Repr

/-- The law a slot leaves during a hand-over (R279, R320): a value of its own, or R308 on another set-point with its states. -/
inductive OldLaw where
  | value (u : Int)
  | pid (sp i df ePrev : Int)
  deriving DecidableEq, Repr

/-- What a slot latched at a sample point S (R302): the measurement, whether it was lost, whether the sample is a hand-over or
transition sample, S, E and P in the slot's unit of debt (R299), S's clock, and for a voice-coil motor the sum and number of the
rotational accelerations since its previous sample (R284). -/
structure LoopSample where
  value : Int := 0
  lost : Bool := false
  hand : Bool := false
  at_ : Nat := 0
  due : Nat := 0
  period : Nat := 65536
  clock : MTime := 0
  rotSum : Int := 0
  rotN : Nat := 0
  deriving DecidableEq, Repr

/-- One loop slot (R297–R327). Signals and state words are in the accumulator format, 2^−30. -/
structure LoopSlot where
  en : Bool := false
  lmode : LMode := .off
  actBank : Fin 2 := 0
  /-- The two SRAM banks of R313; word 0x048 / 4 holds the TAG. -/
  banks : Vector WordMap 2 := Vector.replicate 2 []
  swapPend : Bool := false
  /-- The angle from which a group swap applies (R316), none: at the next compute. -/
  swapAngle : Option Angle := none
  debtEvt : Bool := false
  frozen : Bool := false
  oClamp : Bool := false
  iClamp : Bool := false
  blendK : Nat := 0
  lostRun : Nat := 0
  frzRun : Nat := 0
  /-- LP_CTL: FRZ_N (cal; lower limit 4) and LOST_N (default 2). -/
  frzN : Nat := 4
  lostN : Nat := 2
  spTgt : Int := 0
  spEff : Int := 0
  meas : Int := 0
  /-- The raw measurement of the last sample, for the freeze count. -/
  raw : Int := 0
  out : Int := 0
  uff : Int := 0
  integ : Int := 0
  deriv : Int := 0
  ePrev : Int := 0
  err : Int := 0
  lawW : Int := 0
  notchW : Int := 0
  /-- Notch states s1, s2 of notches 0–3. -/
  notchS : Vector (Int × Int) 4 := Vector.replicate 4 (0, 0)
  /-- u_old of a hand-over or the open-loop value (R312, R320). -/
  openVal : Int := 0
  debt : Nat := 0
  debtMax : Nat := 0
  /-- A compute is running on a pipeline. -/
  pipe : Option PipeIx := none
  /-- Output computed and held until E, and E (R303). -/
  pendingOut : Option (Int × Nat) := none
  /-- Latched samples not yet computed, oldest first (R302, R304). -/
  latched : List LoopSample := []
  /-- Advance of the running compute's start (R74). -/
  advance : Nat := 0
  /-- The clock on which the last compute started. -/
  startAt : MTime := 0
  /-- The clock on which the last compute was completed, its output, and the output of the one before (R302). -/
  doneAt : MTime := 0
  lastU : Int := 0
  prevU : Int := 0
  /-- The running compute waits for a bank word's replacement, so that it completes late (R327). -/
  slow : Bool := false
  /-- The law left by the hand-over in progress (R279, R320). -/
  old : Option OldLaw := none
  /-- HEATER: the loop works on the write set-point (R320). -/
  wrSp : Bool := false
  /-- An uncorrectable word of the slot's table: true a bank word, false a state word (R327). -/
  bad : Option Bool := none
  /-- MTIME of the last sample (SPINDLE, THERMAL). -/
  lastSample : MTime := 0
  lateCnt : Nat := 0
  fbCnt : Nat := 0
  clampCnt : Nat := 0
  swapCnt : Nat := 0
  deriving DecidableEq, Repr

/-- The loop engine array. -/
structure LoopArray where
  slots : Vector LoopSlot 128 := Vector.replicate 128 {}
  /-- THERM_PER, 10 µs units. -/
  thermPer : Nat := 0x64
  /-- The slot each pipeline computes, and whether its compute runs late of E. -/
  pipes : Vector (Option LoopIx) 8 := Vector.replicate 8 none
  /-- Temperatures of the eight thermal zones, 1/16 °C. -/
  temps : Vector Int 8 := Vector.replicate 8 0
  /-- A calibration procedure runs on slots 85–127 (R297). -/
  calRunning : Bool := false
  deriving DecidableEq, Repr

/-! ### Trace -/

/-- TSTATE of TRC_STATUS. -/
inductive TraceState where
  | idle | armed | triggered | done
  deriving DecidableEq, Repr

/-- One trace sample: value and stamp (R328). -/
structure TraceSample where
  value : Word := 0
  stamp : Word := 0
  deriving DecidableEq, Repr

/-- One trace channel: its ring of 8 192 samples as the list of samples written, newest first. -/
structure TraceChan where
  /-- TRC_SRC. -/
  src : Word := 0
  /-- Samples written since the arm (not more than the newest 8 192 are kept) and their count. -/
  samples : List TraceSample := []
  count : Nat := 0
  trigIdx : Nat := 0
  firstIdx : Nat := 0
  /-- Samples still to write after the trigger (R329). -/
  left : Nat := 0
  stopped : Bool := false
  deriving DecidableEq, Repr

/-- The trace buffers TRC. -/
structure Trace where
  state : TraceState := .idle
  /-- Sources of the trigger: bit 2 packet, 1 event, 0 angle. -/
  src : BitVec 3 := 0
  short : BitVec 16 := 0
  pre : Nat := 0x1000
  tPkt : Bool := true
  tEvt : Bool := false
  tAng : Bool := false
  trigType : BitVec 16 := 0xFFFF
  trigAt : MTime := 0
  missCnt : Nat := 0
  saveCnt : Nat := 0
  chans : Vector TraceChan 16 := Vector.replicate 16 {}
  /-- Captures copied to DDR4, newest first, at most 32 (R331): TRC_SAVE value, MTIME of the trigger, samples. -/
  captures : List (Nat × MTime × List (List TraceSample)) := []
  deriving DecidableEq, Repr

/-! ### Spindle -/

/-- SSTATE of SPN_STATUS. -/
inductive SpnState where
  | stopped | detect | brake | align | open_ | run | predict | coast | catch_ | fault
  deriving DecidableEq, Repr

/-- SSTATE code. -/
def SpnState.code : SpnState → Nat
  | .stopped => 0 | .detect => 1 | .brake => 2 | .align => 3 | .open_ => 4
  | .run => 5 | .predict => 6 | .coast => 7 | .catch_ => 8 | .fault => 9

/-- BRK_MODE. -/
inductive BrkMode where
  | none | regen | short | float
  deriving DecidableEq, Repr

/-- BRK_MODE code. -/
def BrkMode.code : BrkMode → Nat
  | .none => 0 | .regen => 1 | .short => 2 | .float => 3

/-- What follows the BRAKE in progress (R346, R347, R350, R352, R371). -/
inductive AfterBrake where
  /-- A normal start from ALIGN. -/
  | start
  /-- STOPPED, after spindle.run 0. -/
  | stop
  deriving DecidableEq, Repr

/-- Phase of BRAKE (R351). -/
inductive BrakePhase where
  | short | observe | extended | settle
  deriving DecidableEq, Repr

/-- The ramp at START_ACC that follows a start or a catch (R347, R350, R352): to TARGET, or back to the n_ref then held. -/
inductive StartRamp where
  | none | target
  | ref (n : Nat)
  deriving DecidableEq, Repr

/-- TARGET, BOL_EN, the range, the rates, the gains and the set-points of Bolero (SPN_TGT to BOL_SET). -/
structure BoleroSet where
  tgt : Nat := 7200
  bolEn : Bool := true
  bolMax : Nat := 9600
  bolMin : Nat := 4800
  accLim : Nat := 400
  decLim : Nat := 600
  dead : Nat := 4
  idleLim : Nat := 8
  kr : Nat := 0x0100
  kw : Nat := 0x0100
  frSet : Nat := 256
  fwSet : Nat := 512
  deriving DecidableEq, Repr

/-- What Bolero sums over a revolution (R358), in bytes: read data transferred to the host, read sectors staged from media, write
data accepted from the host, write data written to media. -/
structure BoleroSums where
  rh : Nat := 0
  rm : Nat := 0
  wh : Nat := 0
  wm : Nat := 0
  deriving DecidableEq, Repr

/-- The spindle drive SPN. Speeds in 1/16 rpm where the register has them so. -/
structure Spindle where
  state : SpnState := .stopped
  band : Nat := 0
  limPwr : Bool := false
  chopFault : Bool := false
  chopHot : Bool := false
  ov : Bool := false
  brkStop : Bool := false
  swapWait : Bool := false
  skipRun : Nat := 0
  predSteps : Nat := 0
  pavLim : Bool := false
  /-- SPN_CFG: POLE_PAIRS 2 (cal, lower limit), PWM_F 0x30, BLANK_T 4, PWM_BLANK 6, ZC_TOL 4, ADV_K 0 (cal). -/
  cfg : Word := 0x23046400
  /-- SPN_CFG and SPN_START as stored, applied at the next start or attempt (R370). -/
  cfgStored : Word := 0x23046400
  startStored : Word := 0x19146430
  /-- Bolero's values as stored, and those that apply (R370). -/
  set : BoleroSet := {}
  eff : BoleroSet := {}
  /-- SPN_START: ALIGN_T 0x19, ALIGN_I 20 (cal, lower limit), START_ACC 0x64, START_TRIES 3. -/
  start : Word := 0x19146430
  /-- SPN_PAV: J 20 (cal, lower limit), P_DRAG 0 (cal), PAV_E 0x28. N_PAV is what these give (R368). -/
  inertia : Nat := 20
  pDrag : Nat := 0
  pavE : Nat := 0x28
  nPav : Nat := 5586
  /-- Measured speed and n_ref in 1/16 rpm; n_ref also keeps a fraction in 2^−32 of that unit. -/
  speed : Nat := 0
  nRef : Nat := 0
  nRefFrac : Nat := 0
  nCmd : Nat := 7200
  icmd : Int := 0
  vbus : Nat := 0
  chopOn : Bool := false
  /-- Chopper bucket, 1/50 J. -/
  bucket : Nat := 0
  chopI : Nat := 0
  /-- RAMP as published in SLC_RAMP (R360). -/
  ramp : Int := 0
  skipCnt : Nat := 0
  forceCnt : Nat := 0
  predCnt : Nat := 0
  lockLossCnt : Nat := 0
  catchCnt : Nat := 0
  startCnt : Nat := 0
  startFailCnt : Nat := 0
  chopFaultCnt : Nat := 0
  chopHotCnt : Nat := 0
  ovCnt : Nat := 0
  ovStopCnt : Nat := 0
  bandSwCnt : Nat := 0
  /-- Last step intervals in datapath clocks, newest first: at most 6 while the drive commutates (R339), 12 in COAST (R346). -/
  steps : List Nat := []
  /-- The last crossing, accepted or predicted (R339, R341). -/
  lastCross : MTime := 0
  /-- The accepted crossing of PREDICT that its successor is timed from (R344). -/
  caught : MTime := 0
  /-- The steps of the last mechanical revolution, newest first: the interval of an accepted crossing, none for a prediction. -/
  cross : List (Option Nat) := []
  /-- The interval of the crossing accepted since the last commutation. -/
  got : Option Nat := none
  /-- Commutations since the last spindle sample (R354). -/
  commCount : Nat := 0
  /-- Commutation angle: steps of 1 / (6 × POLE_PAIRS) revolution. -/
  commAngle : Nat := 0
  /-- The next window is to be made under R342. -/
  makeWindow : Bool := false
  /-- Consecutive accepted crossings in PREDICT (2 return to RUN), in DETECT and COAST (12 give the speed), in OPEN (12 enter RUN). -/
  goodRun : Nat := 0
  /-- The sequence of the crossings of DETECT, COAST and CATCH is the reverse one. -/
  reverse : Bool := false
  /-- Power-on time of the losses of lock of the last power-on hour (R348). -/
  lockLosses : List Nat := []
  brakePhase : BrakePhase := .short
  afterBrake : AfterBrake := .start
  /-- Attempts failed in this start series, and the phase pair of the next alignment. -/
  tries : Nat := 0
  phasePair : Nat := 0
  /-- Open-loop steps of this attempt. -/
  openSteps : Nat := 0
  startRamp : StartRamp := .none
  /-- n_ref fell at the last reference wedge: the drive brakes (R363). -/
  slowing : Bool := false
  /-- spindle.run 0 is ramping the speed to zero. -/
  stopping : Bool := false
  /-- A shutdown stops the spindle once every arm is parked; the spindle was stopped by a shutdown (R649). -/
  stopAfter : Bool := false
  shutStop : Bool := false
  /-- Last two samples of the speed, older first, and the interval between them in clocks, for R366. -/
  lastSpeeds : Nat × Nat := (0, 0)
  lastInterval : Nat := 0
  lastSampleAt : MTime := 0
  /-- The sums since the last evaluation (R358). -/
  sums : BoleroSums := {}
  /-- Revolutions in a row without media work (R358). -/
  idleRevs : Nat := 0
  /-- Samples in a row within 0.5 % of n_ref, and within 0.5 % of TARGET (R349, R633). -/
  settleRun : Nat := 0
  tgtRun : Nat := 0
  deriving DecidableEq, Repr

end Sys2Proof.Machine
end

