-- ==== Sys2Proof/Machine/StateSeq.lean ====
section
/-! DEFINITION. The state of the microcoded track sequencer of one engine (spec/11_track_sequencer.md). A field's default
is its value at power-on reset. -/

namespace Sys2Proof.Machine
open Sys2Proof

/-- SSTATE of SEQ_STATUS. -/
inductive SeqState where
  | off | run | trap | hold | mchk | failed
  deriving DecidableEq, Repr

/-- SSTATE code. -/
def SeqState.code : SeqState → Nat
  | .off => 0 | .run => 1 | .trap => 2 | .hold => 3 | .mchk => 4 | .failed => 5

/-- A fragment (R374). -/
structure Fragment where
  start : Stamp := {}
  len : Nat := 0
  hmask : BitVec 12 := 0
  /-- OP: false read (0x1), true write (0x2). -/
  write : Bool := false
  first : Bool := false
  final : Bool := false
  chain : Bool := false
  cont : Bool := false
  cls : Nat := 0
  ctx : Nat := 0
  sidx : Nat := 0
  deriving DecidableEq, Repr

/-- STB tag of a trigger (R379). -/
inductive Strobe where
  | none | on | off
  deriving DecidableEq, Repr

/-- The tags the sequencer holds for one of its comparators 16–47 (R379), and its FIRED latch. -/
structure SeqTag where
  fired : Bool := false
  stb : Strobe := .none
  final : Bool := false
  sstart : Bool := false
  /-- The fragment register as it stood at the arm. -/
  frag : Fragment := {}
  deriving DecidableEq, Repr

/-- An arm the sequencer makes (R379, R387): target, ACTION, local heads, tags, the fragment register. -/
structure SeqArm where
  target : Stamp := {}
  action : Nat := 0
  mask : BitVec 12 := 0
  stb : Strobe := .none
  final : Bool := false
  sstart : Bool := false
  frag : Fragment := {}
  deriving DecidableEq, Repr

/-- One register bank of the sequencer (R391). -/
structure SeqBank where
  a : Vector Stamp 8 := Vector.replicate 8 {}
  frag : Fragment := {}
  stack : List Nat := []
  deriving DecidableEq, Repr

/-- A control store word: the microword and its four parity bits (R394). -/
structure StoreWord where
  word : BitVec 128 := 0
  parity : BitVec 4 := 0
  deriving DecidableEq, Repr

/-- The track sequencer of one engine. -/
structure Sequencer where
  state : SeqState := .off
  bank : Fin 2 := 0
  trapPend : BitVec 4 := 0
  jobPend : Nat := 0
  upc : Nat := 0
  storeVer : Nat := 0
  patchLvl : Nat := 0
  jobE : Nat := 0x9000
  jobS : Nat := 0x1000
  /-- JOB_S that comparator 16's target was placed with: a change applies from the next job (R67, R399). -/
  jobArmed : Nat := 0x1000
  waitMax : Nat := 0x10
  rdTail : Nat := 0x10
  wenLead : Nat := 0x258
  fq : List Fragment := []
  jobwin : Stamp := {}
  banks : Vector SeqBank 2 := Vector.replicate 2 {}
  lc : Vector (BitVec 16) 4 := Vector.replicate 4 0
  late : Bool := false
  runEnd : Bool := false
  /-- Tags and FIRED latches of comparators 16–47. -/
  tags : Vector SeqTag 32 := Vector.replicate 32 {}
  /-- Trap save registers TSV0–TSV7 (R391). -/
  tsv : Vector Word 8 := Vector.replicate 8 0
  /-- Comparators disarmed by the entry of the trap being served (R393 step 3). -/
  trapDisarmed : List Nat := []
  /-- Comparators fired since trap entry (R393 step 3). -/
  trapFired : List Nat := []
  /-- Heads of the routine: their micro-trap condition holds until RTT (R390). -/
  trapHeads : BitVec 12 := 0
  mcAddr : Word := 0
  mcCnt : Nat := 0
  trapCnt : Vector Nat 4 := Vector.replicate 4 0
  lateArmCnt : Nat := 0
  notrdyCnt : Nat := 0
  stallCnt : Nat := 0
  /-- The control store of 8 192 words: listed words; an unlisted word is all zero with parity 0. -/
  store : List (Nat × StoreWord) := []
  coreFlag : Bool := false
  /-- Mailbox values posted by NOTE, newest first. -/
  mailbox : List (BitVec 16) := []
  /-- Fragments reported to the core: armed, or skipped (R387 FOP). -/
  armed : List Fragment := []
  skipped : List Fragment := []
  /-- Contexts marked aborted (R385). -/
  aborted : List Nat := []
  /-- An ARMF waits for a free comparator (R381): what it arms, and where a whole word stalled, the conditions sampled at its start,
  its operations from FOP on being still to do. -/
  stall : Option (SeqArm × Option (BitVec 16)) := none
  /-- The interrupted or current word is a WAIT whose operations have been performed (R388). -/
  waitDone : Bool := false
  /-- The same of the word a trap interrupted (R388). -/
  savedWait : Bool := false
  /-- A per-wedge job is in progress (R377). -/
  inJob : Bool := false
  /-- JOB_E as the job in progress uses it (R399). -/
  eNow : Nat := 0x9000
  /-- Linear angle at which the WAIT began, for WAIT_TMO (R389). -/
  waitSince : Angle := 0
  /-- Power-on time and address of machine checks of the last hour (R396). -/
  mcHist : List (Nat × Nat) := []
  /-- A hold is requested (R398). -/
  holdReq : Bool := false
  /-- Words the core writes in the hold: STORE_VER, PATCH_LVL and the words. -/
  holdImage : Option (Nat × Nat × List (Nat × BitVec 128)) := none
  /-- RD gates and WR gates forced off by a machine check. -/
  gatesForced : Bool := false
  deriving DecidableEq, Repr

end Sys2Proof.Machine
end

