-- ==== Sys2Proof/Machine/StateZones.lean ====
section
/-! DEFINITION. The state of the zones, the media map and the zone descriptor cache (spec/12_zones_media_map.md). A field's
default is its value at power-on reset. -/

namespace Sys2Proof.Machine
open Sys2Proof

/-- Zone states, codes as in the zone state table after R410. -/
inductive ZState where
  | none | empty | impOpen | expOpen | closed | log | readOnly | full | offline
  deriving DecidableEq, Repr

/-- ZS code. -/
def ZState.code : ZState → Nat
  | .none => 0x0 | .empty => 0x1 | .impOpen => 0x2 | .expOpen => 0x3 | .closed => 0x4
  | .log => 0x8 | .readOnly => 0xD | .full => 0xE | .offline => 0xF

/-- A zone descriptor (R410). -/
structure ZoneDesc where
  zs : ZState := .none
  engine : Eng := 0
  region : Fin 8 := 0
  conv : Bool := false
  zfr : Bool := false
  holes : Bool := false
  ver : BitVec 16 := 0
  wp : Nat := 0
  zcap : Nat := 0
  zgen : Word := 0
  rows : Nat := 1
  firstTrk : Nat := 0
  w0 : Nat := 0
  hmask : BitVec 12 := 0
  remapN : Nat := 0
  suspN : Nat := 0
  deriving DecidableEq, Repr

/-- A radial region record of an engine (R401). -/
structure RegionRec where
  firstTrk : Nat := 0
  lastTrk : Nat := 0
  skewW : Nat := 40
  guard_ : Nat := 2
  spb : Nat := 0
  zbase : Nat := 0
  deriving DecidableEq, Repr

/-- The geometry part of a band entry (R403, R404) with its heater set-points. -/
structure BandGeom where
  firstTrk : Nat := 0
  /-- map.band has given the band its tracks (R403). -/
  mapped : Bool := true
  dfStart : Nat := 0x0C00
  dfEnd : Nat := 0xF000
  trkGap : Nat := 2048
  htrRd : Nat := 0
  htrWr : Nat := 0
  deriving DecidableEq, Repr

/-- A whole band entry of a head (R403). -/
structure BandEntry where
  geom : BandGeom := {}
  sliceA : SliceRegs := {}
  sliceB : SliceRegs := {}
  det : DetBand := {}
  wr : WriteBand := {}
  deriving DecidableEq, Repr

/-- An entry of a head's defect list (R412); manufacture defects have kind none of R213/R221. -/
structure Defect where
  /-- KIND: 0 manufacture, 1 grown, 2 unreadable, 3 weak. -/
  kind : Nat
  at_ : SectorAt
  deriving DecidableEq, Repr

/-- A remap entry (R413). -/
structure Remap where
  orig : SectorAt
  spare : SectorAt
  active : Bool
  zone : ZoneNo
  zgen : Word
  deriving DecidableEq, Repr

/-- An indirection entry of one conventional block (R416), with the start number of the write that set it (R485). -/
structure Indir where
  valid : Bool := false
  lost : Bool := false
  engine : Eng := 0
  zone : ZoneNo := 0
  ofs : Nat := 0
  startNo : Nat := 0
  deriving DecidableEq, Repr

/-- A log group being filled or closed on an engine (R417). -/
structure LogGroup where
  seq : Word := 0
  zone : ZoneNo := 0
  /-- Logical block, offset in the log zone, start number, and whether it is a compaction's copy with its old place. -/
  blocks : List (Nat × Nat × Nat × Option (ZoneNo × Nat)) := []
  /-- REV and WEDGE linear angle of its first block. -/
  openedAt : Angle := 0
  closed : Bool := false
  /-- Every block of it, the summary included, is durable: the group lies on the medium (R417, R646). -/
  summary : Bool := false
  deriving DecidableEq, Repr

/-- Line states of the cache (R419). -/
inductive LineState where
  | invalid | fill | clean | dirty
  deriving DecidableEq, Repr

/-- LSTATE code of LINE_TAG. -/
def LineState.code : LineState → Nat
  | .invalid => 0 | .fill => 1 | .clean => 2 | .dirty => 3

/-- What an access to a descriptor does: read it, or replace it by an updated one. -/
inductive DescAccess where
  | read
  | update (d : ZoneDesc)
  deriving DecidableEq, Repr

/-- A line of the zone descriptor cache. -/
structure ZdcLine where
  state : LineState := .invalid
  pins : Nat := 0
  zone : ZoneNo := 0
  desc : ZoneDesc := {}
  /-- Order of use: larger is more recent (R421). -/
  used : Nat := 0
  /-- Accesses waiting for the fill, oldest first (R421). -/
  waiters : List DescAccess := []
  /-- Dirty shadow of R427: WP, ZS, ZGEN, VER. -/
  shadow : Option (Nat × ZState × Word × BitVec 16) := none
  /-- A restored DIRTY line whose old write-back is in progress, not updated since (R423). -/
  restored : Bool := false
  /-- The line, its dirty shadow, holds an uncorrectable word (R427); found by an SRAM scrub (R572). -/
  bad : Bool := false
  shadowBad : Bool := false
  /-- A flush or an invalidate waits for the fill or the unpin (R425). -/
  flushWait : Bool := false
  invWait : Bool := false
  deriving DecidableEq, Repr

/-- VSTATE of VIC_TAG. -/
inductive VicState where
  | free | queued | begun
  deriving DecidableEq, Repr

/-- VSTATE code. -/
def VicState.code : VicState → Nat
  | .free => 0 | .queued => 1 | .begun => 2

/-- An entry of the victim buffer (R422). -/
structure Victim where
  state : VicState := .free
  dirty : Bool := false
  zone : ZoneNo := 0
  desc : ZoneDesc := {}
  /-- Eviction order. -/
  order : Nat := 0
  deriving DecidableEq, Repr

/-- The zone descriptor cache of an engine. -/
structure Zdc where
  lines : Vector ZdcLine 48 := Vector.replicate 48 {}
  victims : Vector Victim 4 := Vector.replicate 4 {}
  /-- PIN_MAX and DEP_KEEP of ZDC_CFG. -/
  pinMax : Nat := 0x28
  depKeep : Bool := false
  rbase : Vector Word 8 := Vector.replicate 8 0
  rlim : Vector Word 8 := Vector.replicate 8 0
  /-- Use and eviction clock. -/
  clock : Nat := 0
  /-- Misses and pin requests that wait (R419, R421, R422), oldest first. -/
  missWait : List (ZoneNo × DescAccess) := []
  pinWait : List ZoneNo := []
  /-- Zones under an invalidate whose copy is still in the victim buffer (R424, R425). -/
  invVictims : List ZoneNo := []
  hitCnt : Nat := 0
  missCnt : Nat := 0
  evictCnt : Nat := 0
  wbCnt : Nat := 0
  declineCnt : Nat := 0
  vhitCnt : Nat := 0
  mwaitCnt : Nat := 0
  lerrCnt : Nat := 0
  deriving DecidableEq, Repr

/-- Map state of one head (HMAP). -/
structure HeadMap where
  depop : Bool := false
  band : Nat := 0
  track : Nat := 0
  bandTrk : Nat := 0
  dfStart : Nat := 0x0C00
  dfEnd : Nat := 0xF000
  trkGap : Nat := 2048
  spt : Nat := 0
  grownCnt : Nat := 0
  /-- The band entry was rewritten by a packet: a band load is due before the next run (R140). -/
  reloadDue : Bool := false
  /-- A band load requested while a packet was open (R122). -/
  bandDue : Option Nat := none
  /-- Writes of slice and detector registers made while a packet was open, by offset in the head unit (R122, R182). -/
  regsDue : List (Nat × Word) := []
  htrRd : Nat := 0
  htrWr : Nat := 0
  deriving DecidableEq, Repr

/-- The zone and media tables of DDR4 (R29) and what they say of the medium. -/
structure MediaMap where
  /-- Descriptors in the DRAM table, by zone number, rising; an unlisted zone is NONE. -/
  zones : List (ZoneNo × ZoneDesc) := []
  regions : Vector (Vector RegionRec 8) 4 := Vector.replicate 4 (Vector.replicate 8 {})
  /-- Defect lists of the engines (entries name the local head). -/
  defects : Vector (List Defect) 4 := Vector.replicate 4 []
  remaps : Vector (List Remap) 4 := Vector.replicate 4 []
  /-- CONV_PCT in force and as set for the next power-on reset, 0.1 % units. -/
  convPct : Nat := 0
  convNext : Nat := 0
  /-- Indirection entries by conventional block; an unlisted block is not VALID. -/
  indir : List (Nat × Indir) := []
  /-- Start number at which a conventional namespace's indirection was last cleared: no write started before it sets an entry again
  (R485, R608). -/
  cleared : List (Nat × Nat) := []
  /-- Log groups by engine, oldest first; durable ones stay while their zone is not reset. -/
  groups : Vector (List LogGroup) 4 := Vector.replicate 4 []
  /-- Sequence number of the next log group. -/
  groupSeq : Word := 0
  /-- A compaction's zone, per engine (R418). -/
  compacting : Vector (Option ZoneNo) 4 := Vector.replicate 4 none
  deriving DecidableEq, Repr

end Sys2Proof.Machine
end

