-- ==== Sys2Proof/Machine/StateHost.lean ====
section
/-! DEFINITION. The state of the host link and NVMe functions (spec/13_host_link_nvme.md) and of the queues, contexts and
service contracts (spec/14_queues_ordering.md). A field's default is its value at power-on reset. -/

namespace Sys2Proof.Machine
open Sys2Proof

/-! ### Queues and contexts -/

/-- An I/O or admin submission queue. -/
structure SubQueue where
  id : Nat
  cq : Nat
  size : Nat
  head : Nat := 0
  tail : Nat := 0
  /-- QPRIO: 0 urgent, 1 high, 2 medium, 3 low. -/
  prio : Nat := 2
  /-- A Delete I/O Submission Queue that waits for the queue's started commands (R503): its command identifier. -/
  deleting : Option (BitVec 16) := none
  deriving DecidableEq, Repr

/-- A completion queue: head as the host's doorbell gave it, tail as posted, phase tag, vector. -/
structure CompQueue where
  id : Nat
  size : Nat
  head : Nat := 0
  tail : Nat := 0
  phase : Bool := true
  vector : Nat := 0
  irqEn : Bool := false
  deriving DecidableEq, Repr

/-- A status of a command: SCT, SC, DNR (R498). -/
structure NvStatus where
  sct : Nat := 0
  sc : Nat := 0
  dnr : Bool := false
  deriving DecidableEq, Repr

/-- One block of host data: 4 096 bytes and 8 bytes of protection information, each as one little-endian number. -/
structure Block where
  data : BitVec 32768 := 0
  pi : BitVec 64 := 0
  deriving DecidableEq, Repr

/-- Zone Send action of the Zoned Namespace command set. -/
inductive ZoneAct where
  | close | finish | open_ | reset | offline | setExt
  deriving DecidableEq, Repr

/-- What a submission queue entry asks. -/
structure Sqe where
  opcode : Byte
  cid : BitVec 16
  nsid : Word
  slba : Nat
  /-- Blocks of the command (not zero-based). -/
  nlb : Nat
  fua : Bool
  limitedRetry : Bool
  /-- PRACT and PRCHK guard, application tag, reference tag; PIREMAP of Zone Append. -/
  pract : Bool
  prchk : BitVec 3
  piremap : Bool
  /-- Expected reference, application tag and mask. -/
  refTag : Word
  appTag : BitVec 16
  appMask : BitVec 16
  /-- Zone Management Send: action and Select All. -/
  act : ZoneAct
  selectAll : Bool
  /-- Zone Management Receive: reporting option (ZRASF), partial report, most descriptors. -/
  zrasf : Nat
  partialReport : Bool
  maxDescs : Nat
  /-- Write Zeroes: Deallocate. Dataset Management: AD and the ranges. -/
  deac : Bool
  ranges : List (Nat × Nat)
  reservedSet : Bool
  /-- The entry, or the command's data, PRP or SGL list, lies in words of the controller memory buffer that are unwritten or
  poisoned (R462). -/
  badEntry : Bool
  badData : Bool
  /-- What host memory holds at the command's data pointers. -/
  data : List Block
  deriving DecidableEq, Repr

/-- Where a read's block comes from (R484). -/
inductive BlockSource where
  /-- The started write of this context and block, whose data is in the host data buffers. -/
  | buffer (startNo : Nat) (block : Nat)
  | media (zone : ZoneNo) (ofs : Nat)
  | zeroes
  deriving DecidableEq, Repr

/-- Progress of one block of a read or write. -/
structure BlockState where
  source : BlockSource := .zeroes
  /-- Read: the data is in staging or buffers, and transferred to host. Write: the data is in DRAM. -/
  here : Bool := false
  sent : Bool := false
  /-- Write: the sector is on media; durable. -/
  onMedia : Bool := false
  durable : Bool := false
  failed : Option NvStatus := none
  data : Block := {}
  /-- Write: the sector a block whose zone was reset before it was durable still goes to, and the ZGEN it is written with (R33, log 17). -/
  old : Option (SectorAt × Word) := none
  /-- Write: the codeword in DRAM media staging (R228). -/
  codeword : Option (BitVec 36864) := none
  /-- Write: a word of its data was lost in the buffers (R576): its sector is written so that it fails its CRC. -/
  spoiled : Bool := false
  deriving DecidableEq, Repr

/-- A command in a context (R474–R506). -/
structure Ctx where
  fn : Fn
  sq : Nat
  sqe : Sqe
  admin : Bool := false
  /-- MTIME of the fetch and order of fetch. -/
  fetchAt : MTime := 0
  fetchNo : Nat := 0
  /-- Class: 0 urgent, 1 high, 2 medium, 3 low, 4 internal (R477). -/
  cls : Nat := 2
  /-- The checks of the fetch and start (R481). -/
  needCredits : Nat := 0
  credits : Nat := 0
  creditWaited : Bool := false
  started : Bool := false
  startNo : Nat := 0
  /-- REV of the reference engine at the start (tier 3 of R489). -/
  startRev : Nat := 0
  blocks : List BlockState := []
  /-- Zone and first offset assigned (R482). -/
  zone : Option ZoneNo := none
  zofs : Nat := 0
  /-- Finished with this status, completion not yet posted. -/
  finished : Option NvStatus := none
  result : List Word := []
  held : Bool := false
  /-- All data has moved to or from host memory. -/
  transferred : Bool := false
  /-- A completed write still in the host data buffers (R32, R33). -/
  posted : Bool := false
  discarded : Bool := false
  /-- Due under a latency contract (R490), ladder entered, activation pause overlapped (R497). -/
  due : Bool := false
  ladder : Bool := false
  activation : Bool := false
  missed : Bool := false
  overRate : Bool := false
  deferredBy : Option Nat := none
  /-- Flush: the writes it covers, by start number (R501). -/
  covers : List Nat := []
  /-- Flush: the zones of those writes and the offsets their media pointers must reach (R638). -/
  ends : List (ZoneNo × Nat) := []
  deriving DecidableEq, Repr

/-- A write of the host data buffers whose command has completed without FUA: kept until durable (R33). -/
structure BufferedWrite where
  /-- The context it had, by which commands name it. -/
  ctx : CtxIx
  fn : Fn
  nsid : Nat
  startNo : Nat
  slba : Nat
  zone : Option ZoneNo
  zofs : Nat
  blocks : List BlockState
  credits : Nat
  /-- It met a Write Fault: the next Flush covering it reports it (R500). -/
  fault : Bool := false
  /-- A word of its data was lost (R576): the next Flush covering it reports Internal Error. -/
  lost : Bool := false
  deriving DecidableEq, Repr

/-- A service contract (R491). -/
structure Contract where
  /-- KIND: false latency, true bandwidth floor. -/
  floor : Bool
  dir : BitVec 2
  fn : Fn
  sq : Nat
  latMs : Nat
  /-- RATE or MBPS. -/
  rate : Nat
  adm : Nat
  /-- Share of each engine as (numerator, denominator). -/
  shares : Vector (Nat × Nat) 4
  done : Nat := 0
  /-- MB transferred remainder in bytes. -/
  doneBytes : Nat := 0
  yieldCnt : Nat := 0
  overCnt : Nat := 0
  recCnt : Nat := 0
  actCnt : Nat := 0
  exclCnt : Nat := 0
  worst : Nat := 0
  /-- Floor: MTIME at which the window began, bytes in it, work waiting throughout. -/
  winAt : MTime := 0
  winBytes : Nat := 0
  waiting : Bool := true
  /-- MTIME of fetches of the last second. -/
  fetches : List MTime := []
  /-- A yield in progress (R46). -/
  yielding : Bool := false
  /-- What deferred one of its commands last (R556): 3 the power ceiling, 0x100 + n contract n. -/
  deferredBy : Option Nat := none
  deriving DecidableEq, Repr

/-- Blocks of a conventional region of n in 0.1 % of the nominal capacity of 50 TB (R415). -/
def convRegion (n : Nat) : Nat := n * 12207031

/-- Host buffer credits (R29, R39): the 8 192 MiB region, and the indirection space that a region below 2 % leaves unused, in 4 KiB. -/
def bufferCredits (n : Nat) : Nat := 2097152 + if n < 20 then (3072 * 2 ^ 20 - 8 * convRegion n) / 4096 else 0

/-- The queue pool, contexts, credits and contracts. -/
structure Queues where
  ctxs : List (Nat × Ctx) := []
  buffered : List BufferedWrite := []
  fetchNo : Nat := 0
  /-- The turn of fetching in progress (R476): function, submission queue, fetches left; the function served last. -/
  turn : Option (Fn × Nat × Nat) := none
  lastFn : Fn := 0
  startNo : Nat := 0
  creditsFree : Nat := bufferCredits 0
  /-- Host buffer credits there are, free or held (R29, R39). -/
  creditsAll : Nat := bufferCredits 0
  contracts : List (Nat × Contract) := []
  ctxMin : Nat := 0x40
  ctxMax : Nat := 0x400
  ageMax : Nat := 8
  latGuard : Nat := 0x14
  wbHigh : Nat := 0x4B
  floorWin : Nat := 0x0A
  admBwPct : Nat := 0x46
  admIops : Nat := 0x78
  holdCnt : Nat := 0
  agedCnt : Nat := 0
  creditWaitCnt : Nat := 0
  ctRefuseCnt : Nat := 0
  /-- Items chosen by the scheduler and not yet armed, per engine: context or internal (R487). -/
  chosen : Vector (List (Nat × Nat)) 4 := Vector.replicate 4 []
  /-- DRAM media staging units held (R39), of 688 128 (2 688 MiB / 4 KiB). -/
  staging : Nat := 0
  /-- Capture buffers held module-wide (R209). -/
  captures : Nat := 0
  /-- Credits of discarded writes whose sectors are still in transfer (R504): head, sector. -/
  draining : List (Nat × List (Head × SectorAt)) := []
  deriving DecidableEq, Repr

/-! ### Host interface -/

/-- A namespace (R448–R451). -/
structure Namespace where
  nsid : Nat
  zoned : Bool
  nvmset : Nat
  /-- Blocks. -/
  size : Nat
  lbaf : Nat
  /-- Protection information type 0, 1 or 3; PI in the first bytes; extended LBA. -/
  piType : Nat
  piFirst : Bool
  extended : Bool
  shared : Bool
  /-- Module zone of each namespace zone (R449). -/
  zones : List ZoneNo
  attached : BitVec 16 := 0
  /-- Media key generation, 0 after the creation (R452). -/
  keyGen : Nat := 0
  format : Option Nat := none
  deriving DecidableEq, Repr

/-- An asynchronous event waiting for, or answered to, an Asynchronous Event Request. -/
structure AsyncEvent where
  type : Nat
  info : Nat
  logPage : Nat
  deriving DecidableEq, Repr

/-- An entry of log page 0xC0 (R460). -/
structure VendorEvent where
  code : Nat
  level : Nat
  index : Nat
  fn : Nat
  qid : Nat
  poh : Nat
  deriving DecidableEq, Repr

/-- An Error Information log entry. -/
structure ErrorEntry where
  count : Nat
  sq : Nat
  cid : Nat
  status : NvStatus
  lba : Nat
  nsid : Nat
  deriving DecidableEq, Repr

/-- A completion posted, or (for admin and I/O) its record in the model's output. -/
structure Completion where
  fn : Fn
  sq : Nat
  cq : Nat
  cid : BitVec 16
  status : NvStatus
  dw0 : Word := 0
  /-- SQ head at posting. -/
  sqHead : Nat := 0
  /-- Data transferred to host memory with the command. -/
  words : List Word := []
  deriving DecidableEq, Repr

/-- One NVMe function. -/
structure FnState where
  present : Bool := false
  en : Bool := false
  rdy : Bool := false
  cfs : Bool := false
  vwcOn : Bool := true
  ps : Nat := 0
  /-- CSTS.SHST: 0 normal, 1 in progress, 2 complete. -/
  shst : Nat := 0
  /-- Arbitration: weighted round robin. -/
  wrr : Bool := false
  /-- CMBMSC: CRE in bit 0, CMSE in bit 1 (R461). -/
  cmbmsc : BitVec 64 := 0
  /-- Submission queue fetched from last, and what is left of the weights of high, medium and low (R476). -/
  lastSq : Nat := 0
  weights : Vector Nat 3 := Vector.replicate 3 0
  /-- The shutdown in progress is an abrupt one (R506). -/
  abrupt : Bool := false
  /-- Features kept by the controller: feature identifier → current value, and saved value. -/
  features : List (Nat × Word) := []
  saved : List (Nat × Word) := []
  sqs : List SubQueue := []
  cqs : List CompQueue := []
  pairs : Nat := 0
  vectors : Nat := 2048
  /-- The VF is online (virtualisation management). -/
  online : Bool := true
  /-- Asynchronous Event Requests outstanding (command identifiers), and events not yet reported. -/
  aers : List (BitVec 16) := []
  events : List AsyncEvent := []
  masked : List (Nat × Nat) := []
  vendorLog : List VendorEvent := []
  changedZones : List (Nat × ZoneNo) := []
  changedNs : List Nat := []
  errLog : List ErrorEntry := []
  errCount : Nat := 0
  /-- Keep-alive time in 100 ms units (0 off) and the MTIME of the last one. -/
  kato : Nat := 0
  kaLast : MTime := 0
  dbRegCnt : Nat := 0
  dbValCnt : Nat := 0
  urCnt : Nat := 0
  malCnt : Nat := 0
  ctoCnt : Nat := 0
  poisCnt : Nat := 0
  roWrCnt : Nat := 0
  unasgCnt : Nat := 0
  cmdErrCnt : Nat := 0
  cmbPoisCnt : Nat := 0
  flrCnt : Nat := 0
  abortCnt : Nat := 0
  sqdelCnt : Nat := 0
  discCnt : Nat := 0
  deriving DecidableEq, Repr

/-- Counters of R467 a summary is kept for (R468). -/
inductive Violation where
  | mal | ur | cto | pois | dbReg | dbVal | cmdErr | roWr | unasg | pec | smb | mctp | cmbPois
  deriving DecidableEq, Repr

/-- The host link and its functions. -/
structure HostLink where
  gen : Nat := 0
  width : Nat := 0
  dlUp : Bool := false
  ari : Bool := false
  l1 : Bool := false
  perst : Bool := true
  numVf : Nat := 0
  eid : Byte := 0
  vfCmb : Bool := false
  /-- VF_CMB as stored for the next power-on reset (R464). -/
  vfCmbNext : Bool := false
  miAddr : Nat := 0x1D
  zfrl : Nat := 0
  vfRead : BitVec 15 := 0
  linkRecovCnt : Nat := 0
  linkCerrCnt : Nat := 0
  linkDownCnt : Nat := 0
  pecErrCnt : Nat := 0
  smbTmoCnt : Nat := 0
  mctpMalCnt : Nat := 0
  fns : Vector FnState 16 := Vector.replicate 16 {}
  namespaces : List Namespace := []
  /-- Violations already recorded in this power-on hour, with the number that followed (R468). -/
  violations : List (Violation × Nat × Nat) := []
  /-- Available Spare Threshold. -/
  spareThr : Nat := 10
  /-- MTIME of the last write or state entry of open or closed zones (R455). -/
  zoneTimes : List (ZoneNo × MTime) := []
  /-- Results of device self-tests, newest first: code, result and the power-on hours (log page 0x06). -/
  selfTestLog : List (Nat × Nat × Nat) := []
  /-- Health state changes since the last poll with clear (NVMe-MI composite controller status). -/
  healthFlags : BitVec 16 := 0
  /-- MCTP message errors etc. are counted above; NVMe-MI configuration values: SMBus frequency, MTU, health clear mask. -/
  miConfig : List (Nat × Word) := []
  deriving DecidableEq, Repr

end Sys2Proof.Machine
end

