-- ==== Sys2Proof/Machine/StateModule.lean ====
section
/-! DEFINITION. The state of the Hetos packet path (spec/15_hetos_packets.md), the power arbiter (spec/16_power_arbiter.md),
the memories (spec/17_memory_ecc.md), security and firmware (spec/18_security_firmware.md), the event recorder
(spec/19_event_recorder.md), start, resets and power loss (spec/20_start_reset_powerloss.md) and the electrical and
identity data (spec/21_signals_electrical.md). A field's default is its value at power-on reset. -/

namespace Sys2Proof.Machine
open Sys2Proof

/-! ### Hetos -/

/-- Who sends a Hetos packet, with the transport (R525): a function's exchange command, MCTP over SMBus, MCTP over VDM. -/
inductive Sender where
  | nvme (f : Fn)
  | smbus
  | vdm
  deriving DecidableEq, Repr

/-- One command packet (R509) with its sender and the exchange it stands in. -/
structure Packet where
  /-- Number of the exchange the packet belongs to (R519); an exchange that is not listed has this packet alone. -/
  xid : Nat
  src : Sender
  tag : BitVec 16
  flags : Byte
  /-- Byte 5: 7:3 reserved, 2:0 target level. -/
  level : Byte
  index : BitVec 16
  words : Vector Word 14
  deriving DecidableEq, Repr

/-- One reply (R510). -/
structure Reply where
  opcode : BitVec 16
  status : BitVec 16
  tag : BitVec 16
  clamp : BitVec 16
  result : Vector Word 6
  deriving DecidableEq, Repr

/-- An exchange in progress or waiting (R519, R520). -/
structure Exchange where
  xid : Nat
  src : Sender
  /-- Requester of an MCTP exchange: EID and message tag (R528). -/
  eid : Byte := 0
  mtag : Nat := 0
  /-- Admin command identifier of an NVMe exchange. -/
  cid : BitVec 16 := 0
  /-- Host address of the reply buffer of an NVMe exchange (R526). -/
  buf : Nat := 0
  /-- Opcodes of the packets not yet run, in order, with the packets. -/
  todo : List (BitVec 16 × Packet)
  replies : List Reply := []
  running : Bool := false
  stopped : Bool := false
  /-- A function reset struck: no reply and no completion (R524). -/
  dropped : Bool := false
  /-- The reply buffer cannot be written (R527). -/
  writeFails : Bool := false
  deriving DecidableEq, Repr

/-- Counters of one transport (R536). -/
structure HetosCounters where
  pkt : Nat := 0
  fail : Nat := 0
  deny : Nat := 0
  clamp : Nat := 0
  deriving DecidableEq, Repr

/-- The Hetos path. -/
structure Hetos where
  exchanges : List Exchange := []
  lastOp : BitVec 16 := 0
  cnt : Vector HetosCounters 3 := Vector.replicate 3 {}
  /-- Packets waiting under their subject's rule (R522), with the opcode. -/
  waiting : List (BitVec 16 × Packet) := []
  deriving DecidableEq, Repr

/-! ### Power arbiter -/

/-- Power state of one engine island (ENG_PWR, ENG_REQ). -/
structure EngPower where
  k : Nat := 4
  vsup : Nat := 0x2D0
  thr : Nat := 0
  galop : Nat := 3
  seekReq : Nat := 0
  holdReq : Nat := 0
  /-- Clock divisor asked for: the change is made at the next job boundary (R551). -/
  kWant : Nat := 4
  /-- A load's draw is granted. -/
  loadGnt : Bool := false
  /-- Committed VCM_SEEK draw. -/
  seekDraw : Nat := 0
  deriving DecidableEq, Repr

/-- Power state of one head (HD_PWR, HD_REQ, HD_REF_CNT). -/
structure HeadPower where
  rdGnt : Bool := false
  wrGnt : Bool := false
  slcOn : Bool := false
  commit : Bool := false
  idleRun : Nat := 0
  rdReq : Nat := 0
  wrReq : Nat := 0
  refCnt : Nat := 0
  deriving DecidableEq, Repr

/-- Kinds of refusable request (R542, R544). -/
inductive ReqKind where
  | load (a : Eng) | read (g : Head) | write (g : Head) | seek (a : Eng) | deep (e : DecIx) | spinAcc
  deriving DecidableEq, Repr

/-- A request of the arbiter: its kind, order of R544 (1–6), rank within the order, the command it belongs to. -/
structure PowerReq where
  kind : ReqKind
  order : Nat
  rank : Nat
  /-- Seek needed with the move (R548), and the command context, if any. -/
  seek : Option Eng
  ctx : Option CtxIx
  deriving DecidableEq, Repr

/-- The central power arbiter PWR. -/
structure Power where
  overSet : Bool := false
  yield3 : Bool := false
  timed : Bool := true
  accGnt : Bool := false
  hot : Bool := false
  decOn : Nat := 0
  budget : Nat := 25000
  cfg : Word := 0x32402F00
  cost1 : Word := 0x20162850
  /-- BASE_MW 0 (cal), WR_MW 45, ASST_V 5 (cal, lower limit). -/
  cost2 : Word := 0x00002D05
  galopMw : Word := 0x301E120A
  rCoil : Nat := 1000
  /-- The settings the present epoch works with (R537, R557): the words of budget.set as the epoch found them, and CEIL. -/
  force : Vector Word 6 := #v[25000, 0x32402F00, 0x20162850, 0x00002D05, 0x301E120A, 1000]
  ceilNow : Nat := 25000
  /-- The requests latched by an epoch whose grants have not arrived (R541). -/
  late : Option (List PowerReq) := none
  committed : Nat := 0
  granted : Nat := 0
  meas12 : Nat := 0
  meas3 : Nat := 0
  estOfs : Int := 0
  /-- Sums of measured and estimated power of the current 64 epochs, and their count (R539). -/
  sumMeas : Nat := 0
  sumEst : Nat := 0
  sumN : Nat := 0
  nCap : Nat := 9600
  nOpt : Nat := 0
  /-- Throttle steps: engines 0–3, datapath, control, host, memory; and whether the excursion has been counted. -/
  thrStep : Vector Nat 8 := Vector.replicate 8 0
  thrExc : Vector Bool 8 := Vector.replicate 8 false
  epoch : Nat := 0
  accRefCnt : Nat := 0
  headRefCnt : Nat := 0
  seekDegCnt : Nat := 0
  yield3Cnt : Nat := 0
  overCnt : Nat := 0
  thrCnt : Nat := 0
  arbLateCnt : Nat := 0
  zoneAllow : Vector Nat 8 := Vector.replicate 8 40000
  zoneUsed : Vector Nat 8 := Vector.replicate 8 0
  eng : Vector EngPower 4 := Vector.replicate 4 {}
  head : Vector HeadPower 24 := Vector.replicate 24 {}
  /-- Deep decodes granted in this epoch and not yet begun (R542). -/
  deepGnt : Nat := 0
  /-- The head requests of the last epoch, in the order of R544 (R550). -/
  lastReqs : List PowerReq := []
  /-- Epochs of this revolution, those with a head refusal; revolutions in a row without one (R550). -/
  revEpochs : Nat := 0
  revRefused : Nat := 0
  cleanRevs : Nat := 0
  /-- SPIN_ACC draw committed until the next Bolero evaluation. -/
  accDraw : Nat := 0
  /-- Comparator 8 of the reference engine has fired and its epoch has not run (R69, R70). -/
  epochDue : Bool := false
  /-- MTIME of the last epoch (R70). -/
  epochAt : MTime := 0
  deriving DecidableEq, Repr

/-! ### Memory -/

/-- Error regions 0–14 of R571. -/
abbrev MemRegion := Fin 15

/-- One leaky bucket (R571). -/
structure Bucket where
  depth : Nat := 0x10
  leakMin : Nat := 0x3C
  level : Nat := 0
  ovf : Bool := false
  ceCnt : Nat := 0
  ueCnt : Nat := 0
  deriving DecidableEq, Repr

/-- One stored word of DDR4 or SRAM: 64 data bits and 8 check bits. -/
structure EccWord where
  data : BitVec 64 := 0
  check : Byte := 0
  deriving DecidableEq, Repr

/-- Kinds of a syndrome (R563). -/
inductive EccKind where
  | none | ce | ue | poison
  deriving DecidableEq, Repr

/-- KIND code of a log entry. -/
def EccKind.code : EccKind → Nat
  | .none => 0 | .ce => 1 | .ue => 2 | .poison => 3

/-- An entry of the UE log or LAST_CE. -/
structure EccLog where
  memid : Nat := 0
  region : Nat := 0
  synd : Byte := 0
  kind : EccKind := .none
  waddr : Nat := 0
  deriving DecidableEq, Repr

/-- A request of a DRAM channel's arbiter (R561). -/
structure DramReq where
  /-- Requester 0–9. -/
  who : Nat
  at_ : MTime
  addr : Nat
  /-- Of a write: the place of its bytes in the burst, and the bytes. -/
  data : Option (Nat × List Byte) := none
  deriving DecidableEq, Repr

/-- One DDR4 channel. -/
structure Channel where
  trained : Bool := false
  refresh2x : Bool := false
  pprUsed : Nat := 0
  busy : Nat := 0
  pending : List DramReq := []
  owner : Nat := 0
  loss : Vector Nat 10 := Vector.replicate 10 0
  promoted : Vector (Option MTime) 10 := Vector.replicate 10 none
  /-- Write-backs of corrected words waiting (R565): module word address and corrected word. -/
  writebacks : List (Nat × EccWord) := []
  refreshes : Nat := 0
  /-- Rows marked for repair: die and row address (R573). -/
  marked : List (Nat × Nat) := []
  /-- Row being repaired. -/
  repairing : Option (Nat × Nat) := none
  deriving DecidableEq, Repr

/-- The memory block MEM, with the words of DDR4. -/
structure MemBlock where
  initDone : Bool := false
  cmbFill : Bool := false
  repairBusy : Bool := false
  repairFull : Bool := false
  cfg : Word := 0x180A3000
  starve : Word := 0x30180C00
  prio : Word := 0x000167BA
  chan : Vector Channel 2 := Vector.replicate 2 {}
  scrubPos : Nat := 0
  scrubPass : Nat := 0
  poisonCnt : Nat := 0
  repairCnt : Nat := 0
  bkt : Vector Bucket 15 := Vector.replicate 15 {}
  ueLog : Vector EccLog 16 := Vector.replicate 16 {}
  ueHead : Nat := 0
  lastCe : EccLog := {}
  /-- Words corrected, with the number of corrections (R573): memory id and word address. -/
  history : List ((Nat × Nat) × Nat) := []
  /-- Words that read UE once, and whether a full write has followed. -/
  ueHist : List ((Nat × Nat) × Bool) := []
  /-- SRAM macro rows marked for the next power-on reset. -/
  sramMarked : List Nat := []
  /-- The memory interrupt to the management cores (R571), regions that raise it. -/
  irq : BitVec 15 := 0
  /-- Stored words, by word address (bytes / 8), strictly rising; an unlisted word of the controller memory buffer is a
  poisoned zero, any other unlisted word a zero with valid check bits (R569). Both kinds are never listed. -/
  dram : List (Nat × EccWord) := []
  /-- The last 4 KiB of processor local memory that mem.diag reaches, by word index, as `dram`. -/
  local_ : List (Nat × EccWord) := []
  /-- Functions whose buffer is being refilled, with the words written during the refill (R570). -/
  refill : List Fn := []
  /-- Host writes received during a refill: function, offset, bytes, oldest first (R570). -/
  deferred : List (Fn × Nat × List Byte) := []
  deriving DecidableEq, Repr

/-! ### Security and firmware -/

/-- Signed object types (R582). -/
inductive ObjType where
  | image | patch | token | rollback
  deriving DecidableEq, Repr

/-- OTYPE code. -/
def ObjType.code : ObjType → Nat
  | .image => 1 | .patch => 2 | .token => 3 | .rollback => 4

/-- A signed object (R582): its header's fields and what the checks read. `body` stands for the content, whose digest
and signatures are checked through Config. -/
structure SignedObj where
  magic : Word := 0
  hdrVer : Nat := 0
  otype : Nat := 0
  keyIdx : Fin 4 := 0
  len : Nat := 0
  version : Word := 0
  svn : Nat := 0
  raiseSvn : Bool := false
  stepMin : Nat := 0
  storeVer : Nat := 0
  patchLvl : Nat := 0
  scope : Nat := 0
  serial : BitVec 64 := 0
  nonce : BitVec 128 := 0
  expiry : Nat := 0
  digest : BitVec 384 := 0
  /-- Header bytes 0–511 as one number, signatures, public keys, content. -/
  header : Nat := 0
  sigEd : Nat := 0
  sigMl : Nat := 0
  pkEd : Nat := 0
  pkMl : Nat := 0
  content : Nat := 0
  /-- From the section table: key pairs it revokes, and the sequencer store it carries, or a patch's words. -/
  revokes : BitVec 4 := 0
  words : List (Nat × BitVec 128) := []
  deriving DecidableEq, Repr

/-- ACT_STATE of FW_STATE. -/
inductive ActState where
  | idle | programming | loading | pause
  deriving DecidableEq, Repr

/-- Phases of an SPDM connection. -/
inductive SpdmPhase where
  | start | version | capabilities | negotiated
  deriving DecidableEq, Repr

/-- An SPDM session. -/
structure SpdmSession where
  id : BitVec 16
  finished : Bool
  /-- Secret of the session's Diffie-Hellman exchange, and key updates made. -/
  secret : Nat := 0
  keyGen : Nat := 0
  deriving DecidableEq, Repr

/-- An SPDM responder (R589): `lastSigned` is the certificate slot and the message of the last signed response, while no other
request has followed it (R590). -/
structure SpdmResp where
  phase : SpdmPhase := .start
  sessions : List SpdmSession := []
  resynch : Bool := false
  lastSigned : Option (Nat × Nat) := none
  nextSession : Nat := 1
  /-- Transcript of the connection, as a number over which responses are signed. -/
  transcript : Nat := 0
  deriving DecidableEq, Repr

/-- A response of an SPDM responder. -/
structure SpdmResponse where
  /-- Response code, 0x7F for ERROR. -/
  code : Nat
  param1 : Nat := 0
  param2 : Nat := 0
  payload : Nat := 0
  deriving DecidableEq, Repr

/-- Opal authorities (R604). -/
inductive OpalAuth where
  | sid | psid | admin (n : Fin 4) | user (n : Fin 16) | anybody
  deriving DecidableEq, Repr

/-- Opal security providers. -/
inductive OpalSp where
  | admin | locking
  deriving DecidableEq, Repr

/-- Locking range 0 (global) to 16 (R604). -/
structure OpalRange where
  rdLockEn : Bool := false
  wrLockEn : Bool := false
  rdLocked : Bool := false
  wrLocked : Bool := false
  lockOnReset : Bool := true
  deriving DecidableEq, Repr

/-- An open Opal session. -/
structure OpalSession where
  fn : Fn
  sp : OpalSp
  auths : List OpalAuth
  deriving DecidableEq, Repr

/-- Opal tables. -/
structure Opal where
  activated : Bool := false
  pins : List (OpalAuth × Nat) := []
  ranges : Vector OpalRange 17 := Vector.replicate 17 {}
  sessions : List OpalSession := []
  dataStore : List (Nat × Byte) := []
  deriving DecidableEq, Repr

/-- A sanitise in progress: its kind, the zones it is through with, and the track and slot each head's block erase writes next (R606,
R609); none where it writes nothing more. -/
structure Sanitise where
  block : Bool
  ause : Bool
  zonesDone : Nat := 0
  zonesTotal : Nat := 0
  next : Vector (Option (Nat × Nat)) 24 := Vector.replicate 24 none
  deriving DecidableEq, Repr

/-- A Firmware Commit in progress with the action it ends in. -/
structure Commit where
  obj : SignedObj
  /-- NOR slot 0 or 1. -/
  slot : Nat
  action : Nat
  fn : Fn
  cid : BitVec 16
  /-- Message tag, where NVMe-MI tunnelled the command (R466). -/
  mi : Option Nat := none
  /-- A reset of the function discarded the command (R504): no completion is returned. -/
  orphan : Bool := false
  deriving DecidableEq, Repr

/-- The security block SEC. -/
structure Security where
  dbgUnlock : Bool := false
  dbgScope : Nat := 0
  raisePend : Option Nat := none
  sanFail : Bool := false
  sanitise : Option Sanitise := none
  sanStatus : Nat := 0
  sanUnrestricted : Bool := false
  sanProg : Nat := 0
  fmtProg : Nat := 0
  /-- Format commands in progress, oldest first: function, command identifier, NVMe-MI tag, namespaces (R466, R608). -/
  fmtCmds : List (Fn × BitVec 16 × Option Nat × List Nat) := []
  staged : Option SignedObj := none
  /-- Highest end of the downloads, bytes. -/
  stagedLen : Nat := 0
  aliasGen : Nat := 0
  /-- Measurement of the alias generation, its digest; the last 8 generations, newest first (R587). -/
  aliasGens : List (Nat × BitVec 384) := []
  fallback : Bool := false
  runSlot : Nat := 0
  running : SignedObj := {}
  /-- Content of the image whose first-stage loader ran at the last start (R584, R591). -/
  loader : Nat := 0
  actState : ActState := .idle
  commit : Option Commit := none
  /-- The replaced image is not retired yet (R505, R599): start number at the switch of images, up to which contexts keep the old
  one, and the old image's header, from which the keys of the alias generation in force are formed. -/
  retiring : Option (Nat × Nat) := none
  pausing : Bool := false
  nonce : BitVec 128 := 0
  sigFailCnt : Nat := 0
  rollRejCnt : Nat := 0
  measCnt : Nat := 0
  unlockCnt : Nat := 0
  dbgExp : Nat := 0
  spdm : Vector SpdmResp 17 := Vector.replicate 17 {}
  opal : Opal := {}
  /-- Answers of Set methods that wait until writes are durable (R605): function, status, values, start numbers of the writes. -/
  opalWait : List (Fn × Nat × List Nat × List Nat) := []
  /-- Media keys by namespace: 512 bits, current (R601). -/
  mediaKeys : List (Nat × BitVec 512) := []
  /-- DRBG calls made. -/
  drbg : Nat := 0
  deriving DecidableEq, Repr

/-! ### Event recorder -/

/-- An event record's body, short of its bytes: the common body's fields and the words that follow. -/
structure Event where
  type : BitVec 16
  level : Nat
  index : Nat
  trace : Bool := false
  poh : Nat := 0
  pcyc : Nat := 0
  rseq : Nat := 0
  /-- REG and VALUE of the common body. -/
  reg : Nat := 0
  value : Word := 0
  stamp : Stamp := {}
  mtime : MTime := 0
  /-- Body words after the common body (for SUBSYS 0x00: the whole body). -/
  words : List Word := []
  /-- Record length in bytes (R616). -/
  len : Nat := 0
  deriving DecidableEq, Repr

/-- A stream's open block (R614). -/
structure OpenBlock where
  pair : Nat
  bseq : Nat
  used : Nat
  rseqFirst : Nat := 0
  rseqLast : Nat := 0
  aliasGen : Nat := 0
  pcyc : Nat := 0
  poh : Nat := 0
  /-- MTIME at which SEAL_T has passed, by the SEAL_T in force when it was opened (R620, R630). -/
  sealAt : MTime := 0
  events : List Event := []
  deriving DecidableEq, Repr

/-- A sealed block in NOR. -/
structure SealedBlock where
  pair : Nat
  bseq : Nat
  stream : StreamIx
  used : Nat
  flags : Nat
  aliasGen : Nat
  poh : Nat
  pcyc : Nat
  /-- POH and ALIAS_GEN of the record block's header. -/
  headPoh : Nat := 0
  headGen : Nat := 0
  rseqFirst : Nat
  rseqLast : Nat
  digest : BitVec 384
  prev : BitVec 384
  /-- Both halves of the signature (R621). -/
  sigEd : Nat := 0
  sigMl : Nat := 0
  events : List Event
  deriving DecidableEq, Repr

/-- State of one NOR segment of the recorder (R613, R627, R628). -/
structure Segment where
  erased : Bool := true
  retired : Bool := false
  erases : Nat := 0
  deriving DecidableEq, Repr

/-- The event recorder EVR. -/
structure Recorder where
  frzDepth : Nat := 0
  qFull : Bool := false
  erasing : Option (Fin 384) := none
  worn : Bool := false
  sealT : Nat := 3600
  frzMax : Nat := 600
  /-- MTIME at which FRZ_MAX of the last freeze has passed (R626, R630). -/
  frzEnd : MTime := 0
  nextRseq : Nat := 0
  nextBseq : Nat := 0
  queue : List Event := []
  lostCnt : Nat := 0
  /-- First lost RSEQ and number lost since the last LOST record (R624). -/
  lost : Nat × Nat := (0, 0)
  recCnt : Nat := 0
  sealCnt : Nat := 0
  open_ : Vector (Option OpenBlock) 5 := Vector.replicate 5 none
  /-- Next free pair in ring order. -/
  nextPair : Nat := 0
  deriving DecidableEq, Repr

/-! ### NOR, fuses and start -/

/-- A durable zone record (R639). -/
structure ZoneRecord where
  zs : ZState := .none
  holes : Bool := false
  zfr : Bool := false
  conv : Bool := false
  zgen : Word := 0
  mpCk : Nat := 0
  zcap : Nat := 0
  deriving DecidableEq, Repr

/-- The journal (R640). -/
structure Journal where
  pcyc : Nat
  poh : Nat
  entries : List (ZoneNo × Nat × BitVec 28)
  valid : Bool
  deriving DecidableEq, Repr

/-- The indirection image (R645). -/
structure IndirImage where
  entries : List (Nat × Indir)
  mps : List (ZoneNo × Nat)
  deriving DecidableEq, Repr

/-- Per-head configuration kept in NOR. -/
structure HeadNor where
  lead : Word := 0x007800C8
  asm : Word := 0x0F300000
  xofs : Word := 0
  rdrXofs : Word := 0
  pesGain : Word := 0
  maCfg : Word := 0x00020000
  maNotch : Vector Word 2 := Vector.replicate 2 0x00000108
  depop : Bool := false
  /-- Calibrated on-track burst pair sum of readers A and B (AMP_MIN's unit is 1/16 of it). -/
  onTrack : Vector Nat 2 := Vector.replicate 2 0
  /-- SKEW of readers A and B: calibrated aperture delay, 1/16 datapath clock (R103). -/
  skew : Vector Int 2 := Vector.replicate 2 0
  deriving DecidableEq, Repr

/-- Per-engine configuration kept in NOR. -/
structure EngNor where
  afeWdt : Vector Byte 2 := Vector.replicate 2 0x28
  ackTmo : Vector Byte 2 := Vector.replicate 2 0x10
  safeHtr : Vector (BitVec 12) 2 := Vector.replicate 2 0
  ampMin : Nat := 1
  vcmNotch : Vector Word 4 := Vector.replicate 4 0x00000108
  seqJob : Word := 0x90001000
  seqCfg : Word := 0x10800258
  actCfg : Word := 0x78961430
  regions : Vector RegionRec 8 := Vector.replicate 8 {}
  /-- Region records stored by map.region and not yet formatted (R435). -/
  regionsPending : List (Fin 8 × RegionRec) := []
  deriving DecidableEq, Repr

/-- The NOR die (R594) beside the recorder's region: configuration area, slots, durable zone table, journal. -/
structure Nor where
  layout : Layout := {}
  /-- Band entries by head and band; an unlisted entry has its default values. -/
  bands : List ((Head × Fin 64) × BandEntry) := []
  /-- Band geometry stored by map.band and not yet formatted (R435). -/
  bandsPending : List ((Head × Fin 64) × BandGeom) := []
  heads : Vector HeadNor 24 := Vector.replicate 24 {}
  engs : Vector EngNor 4 := Vector.replicate 4 {}
  coefs : List ((LoopIx × Fin 8) × CoefSet) := []
  loopLim : Vector (Nat × Nat) 128 := Vector.replicate 128 (4, 2)
  /-- Spindle words: SPN_CFG, SPN_TGT, SPN_BOLR, SPN_START, SPN_PAV. -/
  spn : Vector Word 5 := #v[0x23046400, 0x1C200001, 0x258012C0, 0x19146430, 0x00140028]
  hif : Word := 0x1D000000
  queue : Vector Word 3 := #v[0x40400000, 0x08144B0A, 0x46078000]
  /-- BUDGET and the five words of budget.set. -/
  power : Vector Word 6 := #v[25000, 0x32402F00, 0x20162850, 0x00002D05, 0x301E120A, 1000]
  mem : Vector Word 3 := #v[0x180A3000, 0x30180C00, 0x000167BA]
  bktCfg : Vector Word 15 := Vector.replicate 15 0x1000003C
  evrCfg : Word := 0x0E100258
  rstCfg : Word := 0x000A3C00
  convPct : Nat := 0
  slots : Vector (Option SignedObj) 2 := Vector.replicate 2 none
  actSlot : Nat := 0
  raisePend : Option Nat := none
  aliasGens : List (Nat × BitVec 384) := []
  zones : List (ZoneNo × ZoneRecord) := []
  zoneDescs : List (ZoneNo × ZoneDesc) := []
  /-- Image zones of the conventional indirection (R645). -/
  imageZones : List ZoneNo := []
  journal : Option Journal := none
  image : Option IndirImage := none
  /-- The set of image zones the next image goes to (R645). -/
  imageSet : Bool := false
  pcyc : Nat := 0
  poh : Nat := 0
  /-- A power-loss sequence has begun and its result is not in PL_LAST yet (R651); UNL_OK and UNL_MS of it. -/
  lossPend : Bool := false
  unlOk : Bool := false
  unlMs : Nat := 0
  defects : Vector (List Defect) 4 := Vector.replicate 4 []
  remaps : Vector (List Remap) 4 := Vector.replicate 4 []
  namespaces : List Namespace := []
  /-- Flexible queue pairs of each function (R471). -/
  pairs : Vector Nat 16 := (Vector.replicate 16 4096).set 0 3072
  /-- The wrapped media keys: the two key sectors (R594, R603). -/
  mediaKeys : List (Nat × BitVec 512) := []
  keyCopy : List (Nat × BitVec 512) := []
  opal : Opal := {}
  sanitise : Option Sanitise := none
  /-- Progress records of formats: namespace and zones done (R609). -/
  formats : List (Nat × Nat) := []
  patches : List SignedObj := []
  repairs : List (Nat × Nat × Nat) := []
  sramRepairs : List Nat := []
  vpd : List (Nat × Byte) := []
  saved : List ((Fn × Nat) × Word) := []
  /-- Recorder region: sealed blocks, segments. -/
  blocks : List SealedBlock := []
  segs : Vector Segment 384 := Vector.replicate 384 {}
  /-- Record blocks that had no seal when power was lost, sealed at start (R622). -/
  unsealed : List (StreamIx × OpenBlock) := []
  deriving DecidableEq, Repr

/-- The fuse map (log 5). -/
structure Fuses where
  serial : BitVec 64 := 0
  stepping : BitVec 16 := 0x4230
  assistSto : Bool := false
  /-- KEYHASH[0–3], revoke bits, rollback count, UDS, fused k = 2 supply in mV. -/
  keyHash : Vector (BitVec 384) 4 := Vector.replicate 4 0
  revoked : BitVec 4 := 0
  rollCtr : Nat := 0
  uds : BitVec 256 := 0
  vsup2 : Nat := 840
  deriving DecidableEq, Repr

/-- Start phases (table before R633). -/
inductive StartPhase where
  | bootRom | loader | firmware | tables | ready
  deriving DecidableEq, Repr

/-- The phases before the main firmware has sealed the open blocks (R622). -/
def StartPhase.early : StartPhase → Bool
  | .bootRom | .loader | .firmware => true
  | .tables | .ready => false

/-- LSTATE of ACT_STATUS. -/
inductive LoadState where
  | unloaded | loading | loaded | unloading | pavane | failed
  deriving DecidableEq, Repr

/-- LSTATE code. -/
def LoadState.code : LoadState → Nat
  | .unloaded => 0 | .loading => 1 | .loaded => 2 | .unloading => 3 | .pavane => 4 | .failed => 5

/-- Load state of one engine (R647–R650). -/
structure Actuator where
  state : LoadState := .unloaded
  tries : Nat := 0
  held : Bool := false
  loadV : Nat := 0x78
  unloadV : Nat := 0x96
  loadTmo : Nat := 0x14
  loadTries : Nat := 3
  loadCnt : Nat := 0
  loadFailCnt : Nat := 0
  /-- The arm is parked and the retract bias of 30 mA holds (R650). -/
  biasing : Bool := false
  /-- MTIME at which the unload began and at which LOADING was entered. -/
  unloadAt : MTime := 0
  loadingAt : MTime := 0
  /-- MTIME at which LOAD_TMO of the attempt has passed (R648, R657) and at which the retract bias has held for 50 ms (R650). -/
  loadEnd : MTime := 0
  biasEnd : MTime := 0
  /-- A controlled unload waits for the runs in a sector to reach their sector boundaries (R649). -/
  parkDue : Bool := false
  /-- A load is asked of the arbiter; an engine reset reloads afterwards. -/
  loadReq : Bool := false
  reloadAfter : Bool := false
  deriving DecidableEq, Repr

/-- Start, reset and power-loss state. -/
structure ResetBlock where
  phase : StartPhase := .bootRom
  cause : Nat := 0
  recovery : Bool := false
  tblReady : Bool := false
  convReady : Bool := false
  jrnlUsed : Bool := false
  rdfwdPend : List ZoneNo := []
  pcyc : Nat := 0
  mpCkptS : Nat := 0x0A
  imgMin : Nat := 0x3C
  poh : Nat := 0
  /-- MTIME from which the next MP checkpoint and the next indirection image are due (R639, R645). -/
  ckptAt : MTime := 0
  imgAt : MTime := 0
  plLast : Word := 0
  plCnt : Nat := 0
  jrnlFailCnt : Nat := 0
  rdfwdCnt : Nat := 0
  act : Vector Actuator 4 := Vector.replicate 4 {}
  /-- A power-loss sequence is running. -/
  powerLoss : Bool := false
  journalDone : Bool := false
  /-- 12 V present at P-HOST. -/
  rail12 : Bool := true
  /-- reset.request kind 1 is under way: fetching has stopped (R655). -/
  moduleReset : Bool := false
  /-- A power-on reset waits: its CAUSE. -/
  resetDue : Option Nat := none
  deriving DecidableEq, Repr

/-! ### Outputs -/

/-- A sector as the serialisers write it (R145, R231 to R233): its 37 072 channel bits, bit 0 in the low place; the bits whose boundary
carries a transition, each with its delay in 1/64 bit; the bit period in 2^−32 datapath clock; and the first bit boundary of each
fragment that its write gate opened, in 2^−32 datapath clock. -/
structure SectorOut where
  eng : Eng
  at_ : SectorAt
  bits : BitVec 37072
  edges : List (Nat × Int)
  period : Nat
  starts : List Int
  deriving DecidableEq, Repr

/-- What the module gives to the outside (the model's own record of it, newest first in each list). -/
structure Outputs where
  completions : List Completion := []
  replies : List (Sender × Reply) := []
  /-- Exchanges that have ended: Dword 0 of R527. -/
  exchanges : List (Nat × Word) := []
  /-- Replies written to reply buffers: function, host address, bytes (R526). -/
  replyWrites : List (Fn × Nat × List Nat) := []
  /-- Hetos MCTP responses: requester EID, message tag, bytes of the message body (R528). -/
  messages : List (Byte × Nat × List Nat) := []
  spdm : List (SpdmIx × SpdmResponse) := []
  mi : List (Nat × Nat × List Word) := []
  opal : List (Fn × Nat × List Nat) := []
  /-- TLPs: 0 Unsupported Request, 1 completion with EP set, 2 completion with its words, 3 error message (AER). -/
  tlps : List (Fn × Nat × List Word) := []
  /-- Arm-link strobes in the order sent: engine, link, control symbol, mask. -/
  strobes : List (Eng × LinkIx × ArmSym × BitVec 6) := []
  /-- Frames put on a downlink. -/
  frames : List (Eng × LinkIx × Byte × FrameBody) := []
  /-- TAP output: IDCODE or BYPASS register shifted. -/
  tap : List (Nat × Word) := []
  /-- Sectors the serialisers have written. -/
  written : List SectorOut := []
  /-- Interrupts raised by completion queues: function and vector. -/
  irqs : List (Fn × Nat) := []
  deriving DecidableEq, Repr

end Sys2Proof.Machine
end

