-- ==== Sys2Proof/Syntax.lean ====
section
/-! DEFINITION. The commands of the LJ-4824: the operands they carry and ONE inductive with one constructor per row of
spec/opcode_table.json. What reaches the module from outside (a decoded mark, a sensor's sample, what a host's memory
holds) is an operand of the command that brings it in. -/

namespace Sys2Proof
open Sys2Proof.Machine

/-- One block met by a read-forward (R642): it converged with the zone's ZGEN; if not, whether the next slot of the same
head in the zone's block order did. -/
structure RdFwd where
  ok : Bool
  nextOk : Bool
  deriving DecidableEq, Repr

/-- Who writes a register: a function through BAR2, or an engine's actuator core (R13, R78). -/
inductive Writer where
  | host (f : Fn)
  | core (a : Eng)
  deriving DecidableEq, Repr

/-- A BAR2 access (R14): direction, byte address, words touched, every byte enable set. -/
structure Bar2Access where
  write : Bool
  addr : BitVec 24
  words : Nat
  full : Bool
  deriving DecidableEq, Repr

/-- What the demodulator made of one reader's servo field (R261 to R268): the sixteen sliced servo bits that match the SAM best, the
mean sample value of each servo bit of TRACK in the order read, and the samples of the bursts. -/
structure ReaderField where
  sam : BitVec 16
  track : Vector Int 44
  /-- The samples of the middle 16 servo bits of bursts A to D. -/
  bursts : Vector (List Int) 4
  deriving DecidableEq, Repr

/-- One head's servo field of a wedge: both readers. -/
structure HeadField where
  head : LHead
  ra : ReaderField
  rb : ReaderField
  deriving DecidableEq, Repr

/-- What the outside gives at a comparator's firing: the servo fields of the wedge (comparator 3, R275). -/
structure FireData where
  fields : List HeadField
  deriving DecidableEq, Repr

/-- An address mark the demodulator reports (R261, R264, R265): its head, and the mean sample value of each servo bit of INDEX in the
order read. -/
structure MarkInfo where
  head : LHead
  means : Vector Int 22
  deriving DecidableEq, Repr

/-- An uplink status frame (R94): CRC checks, SEQ, six head records, temperature, SAFE flag. -/
structure StatusFrame where
  seq : Byte
  recs : Vector Word 6
  temp : Byte
  /-- FLAGS: bit 0 is SAFE. -/
  flags : Byte
  /-- The two CRC bytes received, the first in bits 7:0. -/
  crc : BitVec 16
  /-- Code and disparity errors on the uplink since the last frame that did not make four in a row (R99). -/
  symErrs : Nat := 0
  deriving DecidableEq, Repr

/-- An uplink frame that answers a configuration read (R93), without its CRC: TYPE 0x82, SEQ, HEAD, ADDR and VALUE. -/
structure ConfigReply where
  seq : Byte
  head : BitVec 3
  addr : Byte
  value : BitVec 16
  deriving DecidableEq, Repr

/-- A request for an auxiliary slot (R92). -/
abbrev AuxReq := AuxSlot

/-- Why a link goes down (R97): 4 code or disparity errors in a row, loss of comma alignment, silence. -/
inductive LinkDownCause where
  | codeErrors | commaLoss | silence
  deriving DecidableEq, Repr

/-- A request to the decoder pool (R186, R192): kind of engine, what it is for, the sector's class, and the level management firmware
raises a job to. -/
structure DecoderAsk where
  deep : Bool
  for_ : ReqFor
  cls : Fin 5
  raised : Fin 4
  deriving DecidableEq, Repr

/-- An angle of a run (R253). -/
abbrev AngleStamp := Stamp

/-- One output sample of the MEMS die (R244): linear axes in 1/16 g, rotational axes in rad/s². -/
structure MemsSample where
  x : Int
  y : Int
  z : Int
  r1 : Int
  r2 : Int
  deriving DecidableEq, Repr

/-- A zero crossing of the floating phase (R338, R339): its instant, in datapath clocks before the command, and its sequence. -/
structure Crossing where
  ago : Nat
  reverse : Bool
  deriving DecidableEq, Repr

/-- What a DETECT observation found (R350): crossings seen, direction, speed in rpm. -/
structure Rotation where
  crossings : Nat
  reverse : Bool
  rpm : Nat
  deriving DecidableEq, Repr

/-- The fields of an arm operation (R387): CSEL, CACT, CAREG, STB, CFIN, CSST, HSRC, HMASK. -/
structure ArmOp where
  csel : Fin 32
  cact : Fin 8
  careg : Fin 8
  stb : Strobe
  cfin : Bool
  csst : Bool
  hsrc : Bool
  hmask : BitVec 12
  deriving DecidableEq, Repr

/-- The three link resets of R439. -/
inductive LinkResetKind where
  | perst | hotReset | linkDown
  deriving DecidableEq, Repr

/-- A doorbell write: submission or completion queue, identifier, value. -/
structure Doorbell where
  cq : Bool
  q : Nat
  v : Word
  deriving DecidableEq, Repr

/-- An admin command: its function and command identifier; one that NVMe-MI tunnels to the controller has its request's message tag
(R465, R466). -/
structure AdmReq where
  fn : Fn
  cid : BitVec 16
  mi : Option Nat := none
  deriving DecidableEq, Repr

/-- Create I/O Submission Queue. -/
structure NewSq where
  id : BitVec 16
  cq : BitVec 16
  /-- Entries less one. -/
  size : BitVec 16
  prio : BitVec 2
  deriving DecidableEq, Repr

/-- Create I/O Completion Queue. -/
structure NewCq where
  id : BitVec 16
  size : BitVec 16
  vector : BitVec 16
  irqEn : Bool
  deriving DecidableEq, Repr

/-- Get Log Page: identifier, namespace, log specific identifier, offset and length in bytes, Retain Asynchronous Event. -/
structure LogReq where
  lid : Byte
  nsid : Word
  lsi : BitVec 16
  off : Nat
  len : Nat
  rae : Bool
  deriving DecidableEq, Repr

/-- Identify. -/
structure IdentifyReq where
  cns : Byte
  nsid : Word
  cntid : BitVec 16
  csi : Byte
  deriving DecidableEq, Repr

/-- Format NVM: format, protection information type and place, extended LBA, secure erase setting. -/
structure FormatReq where
  nsid : Word
  lbaf : BitVec 4
  pi : BitVec 3
  piFirst : Bool
  extended : Bool
  ses : BitVec 3
  deriving DecidableEq, Repr

/-- Namespace Management, create. -/
structure NsCreate where
  csi : Byte
  size : Nat
  lbaf : BitVec 4
  pi : BitVec 3
  piFirst : Bool
  extended : Bool
  nvmset : BitVec 16
  shared : Bool
  deriving DecidableEq, Repr

/-- Firmware Image Download: offset and length in bytes, and the object the staging buffer then holds from offset 0. -/
structure Download where
  off : Nat
  len : Nat
  obj : SignedObj
  deriving DecidableEq, Repr

/-- Virtualization Management: action (1 primary flexible, 7 offline, 8 assign, 9 online), interrupt resources or queue
pairs, controller identifier, number. -/
structure VirtReq where
  act : BitVec 4
  interrupt : Bool
  cntlid : BitVec 16
  n : BitVec 16
  deriving DecidableEq, Repr

/-- The Hetos exchange command (R526): NUMP, CDW12, CDW13, whether the packet buffer reads and the reply buffer writes, and the bytes
of the packet buffer; each of its packets runs as a command of its own that names `xid`. -/
structure HetosCmd where
  xid : Nat
  nump : BitVec 7
  cdw12 : Word
  cdw13 : Word
  readOk : Bool
  writeOk : Bool
  buffer : List Byte
  deriving DecidableEq, Repr

/-- A Hetos MCTP request (R528): binding, requester EID and tag, and the bytes of the message from its type byte to its MIC. -/
structure MctpReq where
  xid : Nat
  vdm : Bool
  eid : Byte
  mtag : Fin 8
  msg : List Byte
  deriving DecidableEq, Repr

/-- An NVMe-MI request: in band through the PF, or over MCTP; controller and message tag. -/
structure MiReq where
  inBand : Bool
  ctlr : Fn
  mtag : Nat
  deriving DecidableEq, Repr

/-- A word an SRAM scrub pass found in error: word address and the word as stored. -/
structure ScrubFind where
  waddr : Nat
  word : EccWord
  deriving DecidableEq, Repr

/-- A burst that a requester asks a DDR4 channel for (R561): requester, byte address, and of a write the bytes with their place in the
burst. -/
structure DramAsk where
  who : Fin 10
  addr : Nat
  data : Option (Fin 64 × List Byte)
  deriving DecidableEq, Repr

/-- Bits of a word that have changed in the dies since it was written (R563): the word of the burst, data bits, check bits. -/
structure BitErrors where
  word : Fin 8
  data : BitVec 64
  check : Byte
  deriving DecidableEq, Repr

/-- A decision of a channel's arbiter (R561): the channel, the requests that have come since the last one, and what has changed in the
dies under the burst it grants. -/
structure DramTurn where
  chan : Fin 2
  asks : List DramAsk
  errs : List BitErrors
  deriving DecidableEq, Repr

/-- What a host sets up as it enables a controller (R476, R461, R636): weighted round robin with urgent class (CC.AMS), and CMBMSC. -/
structure ControllerSetup where
  wrr : Bool
  cmbmsc : BitVec 64
  deriving DecidableEq, Repr

/-- What an epoch brings from outside: measured input power of both rails in mW (negative counts as zero), and whether
the grants were ready within 1 µs (R539, R541). -/
structure EpochIn where
  p12 : Int
  p3 : Int
  ready : Bool
  deriving DecidableEq, Repr

/-- NEGOTIATE_ALGORITHMS: what the requester offers. -/
structure SpdmAlgs where
  ed25519 : Bool
  sha384 : Bool
  secp384r1 : Bool
  aes256gcm : Bool
  deriving DecidableEq, Repr

/-- KEY_EXCHANGE: requester's random data, exchange data, measurement summary type, session identifier half. -/
structure SpdmKex where
  random : BitVec 256
  exchange : Nat
  meas : BitVec 8
  reqSession : BitVec 16
  deriving DecidableEq, Repr

/-- A method of the Opal protocol: the function it arrives on. -/
structure OpalReq where
  fn : Fn
  deriving DecidableEq, Repr

/-- The objects of Get and Set. -/
inductive OpalObj where
  | rdLockEn (n : Fin 17) | wrLockEn (n : Fin 17) | rdLocked (n : Fin 17) | wrLocked (n : Fin 17)
  | lockOnReset (n : Fin 17) | rangeStart (n : Fin 17) | rangeLength (n : Fin 17)
  | pin (a : OpalAuth) | dataStore (off : Nat)
  deriving DecidableEq, Repr

/-- The commands of the module: one constructor per row of spec/opcode_table.json. -/
inductive Instr where
  /-- POWER_ON_RESET (R631): Power-on reset is released after the 12 V rail has stayed at or above 10.8 V for 10 ms, and the module restarts everything through the start phases. -/
  | powerOnReset
  /-- BOOT_ROM_DONE (R595): The boot ROM phase ends: the firmware slot is chosen and verified, with fallback to the other slot or recovery mode. -/
  | bootRomDone
  /-- FIRST_STAGE_LOADER_DONE (R633): The first-stage loader ends: DDR4 is trained and written, any pending rollback raise is completed, and the main image is loaded. -/
  | firstStageLoaderDone (ch0 ch1 : Bool)
  /-- MAIN_FIRMWARE_DONE (R633): The main firmware phase ends: the layout is applied, functions are presented, recorder blocks are sealed, POWER_ON is recorded and spindle start begins. -/
  | mainFirmwareDone (laneFail : BitVec 24)
  /-- TABLES_DONE (R641): The durable zone table and journal are applied, open zones become CLOSED and write pointers are set, and TBL_READY is set. -/
  | tablesDone
  /-- READ_FORWARD (R642): Once the engine's heads are loaded, a zone without a journal entry is read forward from MP_CK to find its write pointer. -/
  | readForward (z : ZoneNo) (r : List RdFwd)
  /-- INDIRECTION_REPLAY (R646): The newest current indirection image is loaded and log groups are replayed, after which CONV_READY is set. -/
  | indirectionReplay (imageOk : Bool)
  /-- POWER_FAIL (R651): The 12 V rail stays below 10.2 V for 4 µs, PWR_FAIL is asserted and the power-loss sequence starts. -/
  | powerFail
  /-- JOURNAL_PROGRAM (R640): During power loss, one journal entry is programmed for each zone whose MP differs from its checkpoint, then the header, with VALID last. -/
  | journalProgram
  /-- POWER_LOSS_END (R651): The electronics stop at the end of the power-loss sequence, the phases float and the spindle coasts. -/
  | powerLossEnd
  /-- RAIL_FAULT (R672): An internal rail leaves its window by more than 5 % for 2 µs and forces a power-on reset. -/
  | railFault
  /-- POH_STORE (R635): Power-on hours are stored to the configuration area every 64 units. -/
  | pohStore
  /-- MP_CHECKPOINT (R639): Every MP_CKPT_S seconds, a durable zone record is appended for each zone whose MP has changed. -/
  | mpCheckpoint
  /-- INDIRECTION_IMAGE (R645): An image of the conventional indirection is written to image zones every IMG_MIN minutes or at shutdown. -/
  | indirectionImage
  /-- HEAD_LOAD (R647): Once LOAD is granted, an engine's heads are loaded off the ramp, ACQUIRE and SEEK follow, and the load completes when the first head is read-ready. -/
  | headLoad (a : Eng)
  /-- LOAD_TIMEOUT (R648): No valid arm position forms within LOAD_TMO, so the engine unloads and retries, or fails after LOAD_TRIES attempts. -/
  | loadTimeout (a : Eng)
  /-- PARK_DONE (R650): Velocity has stayed below 10 % of UNLOAD_V at the current clamp for 2 ms, parking is taken as done and the retract bias is applied. -/
  | parkDone (a : Eng)
  /-- RETRACT_BIAS_END (R650): After 50 ms of retract bias, the drive turns off, the slots are disabled, the slices are gated, k is set to 4 and the timeline goes to SPINDLE. -/
  | retractBiasEnd (a : Eng)
  /-- UNLOAD_TIMEOUT (R650): The arm is not parked within 300 ms, UNL_OK clears, and the engine fails if 12 V was present. -/
  | unloadTimeout (a : Eng)
  /-- LOCKSTEP_MISMATCH (R26): An actuator core lockstep mismatch forces the engine's write gates off and resets and reloads the core pair. -/
  | lockstepMismatch (a : Eng)
  /-- MGMT_WATCHDOG_EXPIRY (R28): A management core's watchdog expires, the core is reset and its commands pass to the other cores. -/
  | mgmtWatchdogExpiry (c : Fin 4)
  /-- SRST_ASSERT (R669): SRST# low on P-DBG acts as reset.request kind 1 only while P-DBG is unlocked. -/
  | srstAssert
  /-- TAP_IDCODE (R669): The TAP executes IDCODE. -/
  | tapIdcode
  /-- TAP_BYPASS (R669): The TAP executes BYPASS, which is also what every other instruction does while P-DBG is locked. -/
  | tapBypass
  /-- REGISTER_WRITE (R13): A write to a BAR2 register that has no behaviour of its own; writes to RO, SNAP or locked fields have no effect and are counted. -/
  | registerWrite (w : Writer) (addr : BitVec 24) (v : Word)
  /-- INVALID_REGISTER_ACCESS (R14): An access to an unassigned address, or one that is not exactly one aligned 32-bit word, reads zero, writes nothing and is counted in UNASG_CNT. -/
  | invalidRegisterAccess (f : Fn) (acc : Bar2Access)
  /-- SNAPSHOT_WRITE (R16): A write to a block's snapshot register latches every SNAP field of the block in one clock. -/
  | snapshotWrite (addr : BitVec 24)
  /-- COMPARATOR_ARM (R79): A write of ARMED to CMP_CTL arms a comparator with its target, once both target words have been written. -/
  | comparatorArm (a : Eng) (c : CmpIx) (ctl : Word)
  /-- COMPARATOR_FIRE (R66): A comparator reaches its target and fires its owner's action, disarming or advancing by REPEAT, with lateness recorded. -/
  | comparatorFire (a : Eng) (c : CmpIx) (d : FireData)
  /-- SERVO_MARK_ACCEPT (R50): An accepted servo address mark moves the stamp to the next wedge boundary, records MARK_ERR, updates FRAC_INC and checks the wedge index. -/
  | servoMarkAccept (a : Eng) (m : MarkInfo)
  /-- MARK_HOLD_EXPIRY (R51): The hold ends without a mark, so the engine flywheels and FLY_CNT and FLY_RUN count. -/
  | markHoldExpiry (a : Eng)
  /-- REEL_STATUS (R521): Returns the stamp, MTIME, ANG_STATUS and WPER taken in one snapshot. -/
  | reelStatus (p : Packet)
  /-- REEL_MARKER (R80): Arms comparator 63 as a marker that raises an event or triggers a trace. -/
  | reelMarker (p : Packet)
  /-- REEL_CONFIG (R515): Stores MARK_WIN and LATE_TOL after clamping. -/
  | reelConfig (p : Packet)
  /-- REEL_CLEAR (R78): Clears the selected timeline counters and returns their previous values. -/
  | reelClear (p : Packet)
  /-- ARM_ACK_RECEIVE (R89): An ACK from the AFE completes a frame, releases AUX and writer slots, and clears STALE. -/
  | armAckReceive (a : Eng) (l : LinkIx) (seq : BitVec 8)
  /-- ARM_NAK_RECEIVE (R87): A NAK, or an ACK carrying a wrong SEQ, causes a retransmission, or makes the set-points stale after the fourth attempt. -/
  | armNakReceive (a : Eng) (l : LinkIx) (isAck : Bool) (seq : BitVec 8)
  /-- ARM_ACK_TIMEOUT (R87): No answer arrives within ACK_TMO symbols, so the frame is retransmitted or the set-points go stale. -/
  | armAckTimeout (a : Eng) (l : LinkIx)
  /-- ARM_STATUS_FRAME (R94): An uplink status frame is received, checked by CRC and fed to the loops and the assist guard. -/
  | armStatusFrame (a : Eng) (l : LinkIx) (fr : StatusFrame)
  /-- AFE_FAULT_STROBE (R96): A FAULT strobe forces the masked heads' write gates off within 2 symbol times. -/
  | afeFaultStrobe (a : Eng) (l : LinkIx) (mask : BitVec 6)
  /-- AUX_SLOT_REQUEST (R92): A request for an auxiliary set-point slot is granted in order of request, at most two per wedge. -/
  | auxSlotRequest (a : Eng) (l : LinkIx) (r : AuxReq)
  /-- CONFIG_FRAME_SEND (R93): A configuration frame is sent between set-point frames. -/
  | configFrameSend (a : Eng) (l : LinkIx) (c : CfgFrame)
  /-- ARM_CONFIG_REPLY (R93): An uplink configuration reply frame of TYPE 0x82 is received. -/
  | armConfigReply (a : Eng) (l : LinkIx) (r : ConfigReply) (crc : BitVec 16)
  /-- ARM_LINK_DOWN (R97): Symbol errors, a loss of alignment or 32 silent symbols take the link down and write-inhibit its heads. -/
  | armLinkDown (a : Eng) (l : LinkIx) (why : LinkDownCause)
  /-- ARM_TRAIN_ATTEMPT (R98): A training attempt starts, 100 µs after the previous one. -/
  | armTrainAttempt (a : Eng) (l : LinkIx)
  /-- ARM_TRAIN_TIMEOUT (R98): A training attempt fails after 64 µs, and the eighth failure in a row marks the AFE failed. -/
  | armTrainTimeout (a : Eng) (l : LinkIx)
  /-- ARM_STATUS (R521): Returns the link state and counters taken in one snapshot. -/
  | armStatus (p : Packet)
  /-- ARM_CLEAR (R99): Clears the selected arm-link counters. -/
  | armClear (p : Packet)
  /-- ARM_CONFIG (R97): Stores AFE_WDT, ACK_TMO and SAFE_HTR in the registers and in NOR. -/
  | armConfig (p : Packet)
  /-- ARM_RETRAIN (R98): Starts a new training series on a link. -/
  | armRetrain (p : Packet)
  /-- SLICE_ENABLE (R105): An enabled slice enters WAKE and powers its input stage and ADC. -/
  | sliceEnable (n : SliceIx)
  /-- SLICE_STREAM_START (R105): The FIFO level reaches START_LVL, the read side starts popping and the sample age is measured. -/
  | sliceStreamStart (n : SliceIx) (level : Nat) (epoch : Nat)
  /-- SLICE_UNDERRUN (R108): A pop finds the FIFO empty, so the last sample is repeated and marked, and the underrun is counted. -/
  | sliceUnderrun (n : SliceIx)
  /-- SLICE_LATE_WORD_DISCARD (R109): A word that an underrun replaced arrives late and is discarded by WSEQ. -/
  | sliceLateWordDiscard (n : SliceIx) (wseq : BitVec 2)
  /-- SLICE_FIFO_TIMEOUT (R110): The FIFO stays empty for TMO clocks, so the packet ends in error, the slice goes to FAULT and the stream restarts. -/
  | sliceFifoTimeout (n : SliceIx)
  /-- SLICE_OVERRUN (R111): The write side finds the FIFO full and discards the word. -/
  | sliceOverrun (n : SliceIx)
  /-- DROP_COMMAND (R120): A drop command ends the open packet with a dropped end-of-packet and counts DROP_CNT. -/
  | dropCommand (n : SliceIx)
  /-- ZERO_PHASE_START (R135): After 16 bits, each slice moves p by the measured phase of the preamble. -/
  | zeroPhaseStart (g : Head) (r : Fin 2)
  /-- SLICE_ACQ_TO_TRACK (R133): After ACQ_BITS bits, the packet moves from ACQ to TRACK gains. -/
  | sliceAcqToTrack (g : Head) (r : Fin 2)
  /-- BAND_LOAD (R140): The actuator core loads a head's band entry registers once no packet is open. -/
  | bandLoad (g : Head) (track : BitVec 22)
  /-- SLICE_CONFIG (R143): Writes a slice band entry to the NOR calibration table. -/
  | sliceConfig (p : Packet)
  /-- SLICE_STATUS (R521): Returns the slice state and counters taken in one snapshot. -/
  | sliceStatus (p : Packet)
  /-- SLICE_CLEAR (R142): Clears the selected slice counters and flags. -/
  | sliceClear (p : Packet)
  /-- SLICE_RESTART (R144): Returns a FAILED slice to WAKE. -/
  | sliceRestart (p : Packet)
  /-- SYNC_DECISION (R178): After the +64 candidate is evaluated, the best sync candidate is accepted or a flywheel sync is made. -/
  | syncDecision (g : Head) (l : LaneIx) (k : SlotIx)
  /-- FIRST_PASS_DONE (R163): The streaming detector delivers the first-pass LLRs, and the slot enters WAIT and requests an engine. -/
  | firstPassDone (l : LaneIx) (k : SlotIx)
  /-- ITERATION_DETECTOR_PASS_DONE (R164): An iteration detector pass completes and the exchange goes to the engine. -/
  | iterationDetectorPassDone (l : LaneIx) (k : SlotIx)
  /-- LOCAL_ITERATION_END (R171): An engine counts unsatisfied checks at the end of a local iteration and stops on convergence, MISALIGN or NO_CONV. -/
  | localIterationEnd (e : DecIx) (q : ReqFor)
  /-- CODEWORD_CHECK_DONE (R153): The CRC, tag and generation check completes, the outcome is fixed and the engine is released. -/
  | codewordCheckDone (e : DecIx) (q : ReqFor)
  /-- STAGING_ACCEPT (R30): SRAM staging accepts a converged sector for cut-through or DRAM staging. -/
  | stagingAccept (l : LaneIx) (k : SlotIx)
  /-- DET_CONFIG (R184): Writes a band's detector limits to NOR. -/
  | detConfig (p : Packet)
  /-- DET_TAPS (R184): Writes a band's equaliser tap set to NOR. -/
  | detTaps (p : Packet)
  /-- DET_NP (R184): Writes noise-prediction entries of a band to NOR. -/
  | detNp (p : Packet)
  /-- DET_STATUS (R521): Returns lane status and counters taken in one snapshot. -/
  | detStatus (p : Packet)
  /-- DET_CLEAR (R17): Clears the selected lane counters. -/
  | detClear (p : Packet)
  /-- DECODER_REQUEST (R190): A requester asks for an engine, and is granted an idle engine on the next clock. -/
  | decoderRequest (r : ReqIx) (q : DecoderAsk)
  /-- DECODER_ARBITRATION (R188): At clock 48 of an engine's final beat, the arbiter picks the next owner by priority, age and requester, with starvation promotion. -/
  | decoderArbitration (e : DecIx)
  /-- DECODER_ENGINE_FAIL (R197): An engine whose working memory returns an uncorrectable word is marked FAILED and its request returns to pending. -/
  | decoderEngineFail (e : DecIx)
  /-- RECOVERY_JOB_OPEN (R200): A failed codeword opens a recovery job once a job and staging are free, and copying of the retained stream begins. -/
  | recoveryJobOpen (l : LaneIx) (k : SlotIx)
  /-- RETAINED_STREAM_COPY_DONE (R200): The retained stream is copied, so the lane slot becomes FREE and the ladder begins. -/
  | retainedStreamCopyDone (a : Eng) (j : JobIx)
  /-- LADDER_TRY (R203): The recovery sequencer starts the next try of the current ladder step. -/
  | ladderTry (a : Eng) (j : JobIx)
  /-- CAPTURE_COMPLETE (R209): A capture buffer completes one pass of raw codes for a deep decode. -/
  | captureComplete (a : Eng) (j : JobIx)
  /-- DEEP_DECODE_DONE (R210): A deep decode ends within 1 ms with an outcome. -/
  | deepDecodeDone (e : DecIx) (a : Eng) (j : JobIx) (p : SectorAt)
  /-- GUARD_TIMER_EXPIRY (R224): A guarded wait's two-revolution timer fires and the younger of waiter and holder becomes the victim. -/
  | guardTimerExpiry (a : Eng) (j : JobIx)
  /-- REALLOCATE (R217): After recovery at step 4 or deeper, the sector is written to a spare sector and a remap is entered. -/
  | reallocate (a : Eng)
  /-- REMAP_ACTIVATE (R220): The spare write becomes durable and the remap takes effect. -/
  | remapActivate (a : Eng) (n : Nat)
  /-- POOL_STATUS (R521): Returns pool occupancy and configuration taken in one snapshot. -/
  | poolStatus (p : Packet)
  /-- POOL_CONFIG (R196): Stores starvation thresholds and priority levels, with ordering clamps. -/
  | poolConfig (p : Packet)
  /-- POOL_ENGINE (R521): Returns one engine's status and counters. -/
  | poolEngine (p : Packet)
  /-- POOL_REQUESTER (R521): Returns one requester's status and counters. -/
  | poolRequester (p : Packet)
  /-- POOL_CLEAR (R17): Clears the selected pool counters. -/
  | poolClear (p : Packet)
  /-- REC_CONFIG (R227): Stores ladder limits and steps for steps that start afterwards. -/
  | recConfig (p : Packet)
  /-- REC_STATUS (R521): Returns recovery job and spare state taken in one snapshot. -/
  | recStatus (p : Packet)
  /-- REC_CLEAR (R17): Clears the selected recovery counters. -/
  | recClear (p : Packet)
  /-- WRITE_ENCODE (R228): The engine's write encoder turns a block into a codeword in DRAM media staging. -/
  | writeEncode (x : CtxIx) (k : Nat)
  /-- WRITER_SLOT_REQUEST (R253): A run requests a writer slot and is granted by pre-bias angle, or moves to the next pass. -/
  | writerSlotRequest (g : Head) (preBias : AngleStamp)
  /-- MEMS_SAMPLE (R244): A MEMS sample is compared with the shock and vibration thresholds, tripping or clearing the guard. -/
  | memsSample (m : MemsSample)
  /-- MEMS_SAMPLE_TIMEOUT (R245): No MEMS sample arrives for 50 µs, the sensor is frozen and OTW_RED is used. -/
  | memsSampleTimeout
  /-- SUSPECT_REWRITE (R249): A suspect sector is rewritten whole from DRAM at its next pass. -/
  | suspectRewrite (g : Head)
  /-- SUSPECT_SPARE_WRITE (R250): A sector still suspect after SUSP_TRIES rewrites is written to spare and remapped. -/
  | suspectSpareWrite (g : Head)
  /-- WRT_CONFIG (R259): Writes a band's write registers to NOR. -/
  | wrtConfig (p : Packet)
  /-- WRT_HEAD (R259): Writes WR_LEAD and ASM_CFG, and optionally clears WR_DIS. -/
  | wrtHead (p : Packet)
  /-- WRT_GUARD (R258): Stores the off-track and shock guard settings. -/
  | wrtGuard (p : Packet)
  /-- WRT_STATUS (R521): Returns guard state and head counters taken in one snapshot. -/
  | wrtStatus (p : Packet)
  /-- WRT_CLEAR (R17): Clears the selected write counters. -/
  | wrtClear (p : Packet)
  /-- WRT_SLOTS (R256): Stores WR_MAX for new slot grants. -/
  | wrtSlots (p : Packet)
  /-- SEEK_REQUEST (R283): A new seek is requested, re-planning in Galop or entering SEEK from MINUET. -/
  | seekRequest (a : Eng) (h : LHead) (tgt : BitVec 30)
  /-- SRV_STATUS (R521): Returns servo mode, arm state and counters taken in one snapshot. -/
  | srvStatus (p : Packet)
  /-- SRV_CONFIG (R295): Stores loss, readiness and hand-over settings. -/
  | srvConfig (p : Packet)
  /-- SRV_QUADRILLE (R284): Stores the Quadrille feed-forward gains. -/
  | srvQuadrille (p : Packet)
  /-- SRV_NOTCH (R294): Stores notch settings, which apply at the next bank swap. -/
  | srvNotch (p : Packet)
  /-- SRV_HEAD (R296): Stores a head's offsets and gains. -/
  | srvHead (p : Packet)
  /-- SRV_HSTATUS (R521): Returns head servo status taken in one snapshot. -/
  | srvHstatus (p : Packet)
  /-- SRV_CLEAR (R17): Clears the selected servo counters. -/
  | srvClear (p : Packet)
  /-- LOOP_COMPUTE_START (R301): A free pipeline takes the ready loop compute with the earliest deadline. -/
  | loopComputeStart (n : PipeIx)
  /-- LOOP_COMPUTE_DONE (R303): A loop compute completes, updating mode, blend, fallback and debt. -/
  | loopComputeDone (n : PipeIx)
  /-- LOOP_OUTPUT_RELEASE (R303): A held loop output is released at its deadline E. -/
  | loopOutputRelease (n : LoopIx)
  /-- THERMAL_SAMPLE (R299): At each multiple of THERM_PER, the thermal slots sample and become due. -/
  | thermalSample (t : List Int)
  /-- TRACE_TIMEOUT (R330): 2^30 clocks after the trigger, the trace enters DONE with short channels marked. -/
  | traceTimeout
  /-- TRACE_COPY_DONE (R331): The capture copy to DDR4 ends and TRC_SAVE counts. -/
  | traceCopyDone
  /-- LOOP_STATUS (R521): Returns slot state taken in one snapshot. -/
  | loopStatus (p : Packet)
  /-- LOOP_COEF (R334): Writes a coefficient set and optionally commits and swaps it in. -/
  | loopCoef (p : Packet)
  /-- LOOP_BANK_SWAP (R335): Reloads the shadow bank and swaps it in. -/
  | loopBankSwap (p : Packet)
  /-- LOOP_CONFIG (R335): Stores FRZ_N and LOST_N for a slot. -/
  | loopConfig (p : Packet)
  /-- LOOP_CLEAR (R17): Clears the selected slot counters. -/
  | loopClear (p : Packet)
  /-- TRACE_CONFIG (R330): Stores channel sources and PRE while the trace is not armed. -/
  | traceConfig (p : Packet)
  /-- TRACE_ARM (R329): Clears the channels and enters ARMED with the chosen trigger enables. -/
  | traceArm (p : Packet)
  /-- TRACE_TRIGGER (R329): A packet trigger of the trace. -/
  | traceTrigger (p : Packet)
  /-- TRACE_STATUS (R521): Returns trace state taken in one snapshot. -/
  | traceStatus (p : Packet)
  /-- ZERO_CROSSING (R339): A back-EMF crossing is accepted on the floating phase, retiming commutation, catching or starting the spindle. -/
  | zeroCrossing (x : Crossing)
  /-- COMMUTATION (R340): The drive commutates at the crossing plus half a step less the advance, and the spindle angle advances. -/
  | commutation (window : Nat) (demagDone : Bool)
  /-- CROSSING_MISSED (R343): No crossing is accepted within ZC_TOL of a usable window, and the spindle enters PREDICT. -/
  | crossingMissed
  /-- ROTOR_LOCK_LOSS (R345): Six electrical periods pass in PREDICT, so heads are unloaded, phases float and the spindle enters COAST. -/
  | rotorLockLoss
  /-- COAST_TIMEOUT (R346): No two periods of crossings are found within 100 ms of COAST, so the spindle goes to BRAKE. -/
  | coastTimeout
  /-- DETECT_TIMEOUT (R350): The 100 ms DETECT observation ends and the spindle proceeds by the rotation found. -/
  | detectTimeout (r : Rotation)
  /-- BRAKE_SHORT_END (R351): A 20 ms winding short ends and a 2 ms observation starts. -/
  | brakeShortEnd
  /-- BRAKE_OBSERVE_END (R351): A brake observation ends, leading to more shorting, an extension or standstill. -/
  | brakeObserveEnd (crossings : Nat)
  /-- BRAKE_SETTLE_END (R351): The 200 ms floating wait after standstill ends. -/
  | brakeSettleEnd
  /-- ALIGN_END (R352): ALIGN_T ends and open-loop commutation begins. -/
  | alignEnd
  /-- OPEN_LOOP_STEP (R352): An open-loop commutation step is taken at the rising step rate. -/
  | openLoopStep (reverse : Bool)
  /-- START_ATTEMPT_TIMEOUT (R352): Two seconds in OPEN without RUN fail the attempt, leading to a retry or FAULT. -/
  | startAttemptTimeout
  /-- SPINDLE_SAMPLE (R354): Every sixth commutation, the speed is measured and the SPINDLE slot becomes due. -/
  | spindleSample
  /-- BOLERO_EVALUATION (R358): At wedge 0 of the reference engine, Bolero computes n_cmd, with the N_OPT search when heads were refused. -/
  | boleroEvaluation (a : Eng)
  /-- NREF_UPDATE (R359): At each reference wedge, n_ref moves toward n_cmd within the limits and grants, and RAMP is published. -/
  | nrefUpdate
  /-- CHOPPER_SWITCH (R364): The rail reaches 13.2 V or falls to 13.0 V, switching the brake chopper. -/
  | chopperSwitch (mv : Nat)
  /-- CHOPPER_BUCKET_THRESHOLD (R364): The chopper bucket reaches 4.0 J, setting CHOP_HOT, or falls to 2.0 J, clearing it. -/
  | chopperBucketThreshold (level : Nat)
  /-- CHOPPER_FAULT (R365): The shunt current disagrees for 16 µs, so the chopper is disabled and braking becomes winding-short. -/
  | chopperFault (senseMa : Nat)
  /-- RAIL_OVERVOLTAGE (R366): The rail crosses 14.0, 13.6 or 14.4 V, setting or clearing OV and BRK_STOP. -/
  | railOvervoltage (mv : Nat)
  /-- SPINDLE_STATUS (R521): Returns spindle state taken in one snapshot. -/
  | spindleStatus (p : Packet)
  /-- SPINDLE_TARGET (R362): Stores TARGET and BOL_EN after clamping. -/
  | spindleTarget (p : Packet)
  /-- SPINDLE_BOLERO (R362): Stores the Bolero range, rates, gains and set-points. -/
  | spindleBolero (p : Packet)
  /-- SPINDLE_CONFIG (R370): Stores commutation, start and Pavane inputs and recomputes N_PAV. -/
  | spindleConfig (p : Packet)
  /-- SPINDLE_RUN_STOP (R371): Ramps the spindle down and brakes it to STOPPED when no head is loaded. -/
  | spindleRunStop (p : Packet)
  /-- SPINDLE_RUN_START (R371): Starts the spindle from DETECT when it is STOPPED or FAULT. -/
  | spindleRunStart (p : Packet)
  /-- SPINDLE_CHOPPER_TEST (R372): Pulses the chopper for 100 µs and clears CHOP_FAULT on a pass. -/
  | spindleChopperTest (p : Packet)
  /-- SPINDLE_CLEAR (R17): Clears the selected spindle counters and the loss history. -/
  | spindleClear (p : Packet)
  /-- FRAGMENT_ENQUEUE (R374): The actuator core writes a fragment entry into the engine's queue. -/
  | fragmentEnqueue (a : Eng) (e : BitVec 128)
  /-- INC (R388): The next microword is PC + 1. -/
  | inc (a : Eng)
  /-- BR (R388): Conditional branch to TGT. -/
  | br (a : Eng)
  /-- LOOP (R388): Decrements a loop counter and branches while it is not zero. -/
  | loop (a : Eng)
  /-- CALL (R388): Pushes the return address and goes to TGT. -/
  | call (a : Eng)
  /-- RET (R388): Pops the return stack. -/
  | ret (a : Eng)
  /-- WAIT (R388): Performs its operations once and repeats until its condition holds. -/
  | wait (a : Eng)
  /-- WAIT_COMPLETE (R376): A WAIT's condition holds; on comparator 16 it consumes JOB_PEND and advances JOBWIN. -/
  | waitComplete (a : Eng)
  /-- RTT (R393): Returns from a trap routine, restoring state and re-arming the pending comparator. -/
  | rtt (a : Eng)
  /-- LDS (R388): Loads the current stamp into an angle register. -/
  | lds (a : Eng) (dst : Fin 8)
  /-- ADD (R388): Adds IMM32 FRAC units to an angle register. -/
  | add (a : Eng) (dst src : Fin 8) (imm : Word)
  /-- LDF (R388): Loads the fragment START. -/
  | ldf (a : Eng) (dst : Fin 8)
  /-- LDE (R388): Loads the fragment START + LEN. -/
  | lde (a : Eng) (dst : Fin 8)
  /-- LEAD (R388): Subtracts a lead in clocks converted to an angle. -/
  | lead (a : Eng) (dst src : Fin 8) (imm : BitVec 16)
  /-- WIN (R388): Loads the start of the following wedge. -/
  | win (a : Eng) (dst src : Fin 8)
  /-- MOV (R388): Copies an angle register. -/
  | mov (a : Eng) (dst src : Fin 8)
  /-- LDW (R388): Loads JOBWIN. -/
  | ldw (a : Eng) (dst : Fin 8)
  /-- ARM (R380): Arms a one-shot sequencer comparator, refusing it if it is already late. -/
  | arm (a : Eng) (x : ArmOp)
  /-- ARMR (R380): Arms a sequencer comparator with a repeat period. -/
  | armr (a : Eng) (x : ArmOp) (rep : BitVec 16)
  /-- ARMF (R381): Arms the lowest free comparator from 17 to 47, stalling if none is free. -/
  | armf (a : Eng) (x : ArmOp)
  /-- ARMF_STALL_END (R381): A stalled ARMF completes once a comparator fires and becomes free. -/
  | armfStallEnd (a : Eng)
  /-- DIS (R388): Disarms one sequencer comparator. -/
  | dis (a : Eng) (csel : Fin 32)
  /-- DISM (R388): Disarms comparators 17–47 that match the head mask. -/
  | dism (a : Eng) (hsrc : Bool) (hmask : BitVec 12)
  /-- POP (R388): Moves the queue head entry into the fragment register. -/
  | pop (a : Eng)
  /-- ARMED (R388): Reports the fragment to the core as armed. -/
  | armed (a : Eng)
  /-- SKIP (R388): Reports the fragment as not armed, so its sectors pass to a later pass. -/
  | skip (a : Eng)
  /-- NOTE (R388): Posts IMM16 to the core mailbox and clears CORE_FLAG. -/
  | note (a : Eng) (imm : BitVec 16)
  /-- DROP (R388): Issues the drop command to the slices of the mask. -/
  | drop (a : Eng) (hsrc : Bool) (hmask : BitVec 12)
  /-- CLRF (R388): Clears the LATE and RUN_END latches. -/
  | clrf (a : Eng) (imm : BitVec 16)
  /-- SET (R388): Sets a loop counter to IMM16. -/
  | set (a : Eng) (lc : Fin 4) (imm : BitVec 16)
  /-- DEC (R388): Decrements a loop counter, stopping at zero. -/
  | dec (a : Eng) (lc : Fin 4)
  /-- FCNT (R388): Loads the number of queue entries into a loop counter. -/
  | fcnt (a : Eng) (lc : Fin 4)
  /-- CORE_TRAP_REQUEST (R389): The actuator core raises the CORE trap cause. -/
  | coreTrapRequest (a : Eng)
  /-- WAIT_TIMEOUT (R389): A WAIT other than on comparator 16 lasts more than WAIT_MAX wedges and raises WAIT_TMO. -/
  | waitTimeout (a : Eng)
  /-- TRAP_ENTRY (R390): The sequencer takes a pending trap, saves state, forces write gates off and goes to the vector. -/
  | trapEntry (a : Eng)
  /-- SEQUENCER_RESTART (R395): After the store is reloaded, the sequencer restarts at 0x0004 and drops open packets. -/
  | sequencerRestart (a : Eng)
  /-- SEQ_HOLD_ENTRY (R398): The sequencer enters HOLD at a qualifying comparator 16 WAIT for a patch or new store. -/
  | seqHoldEntry (a : Eng)
  /-- SEQ_HOLD_RESUME (R398): The core finishes writing the store, SEQ_VER is updated and the sequencer resumes at 0x0008. -/
  | seqHoldResume (a : Eng)
  /-- SEQ_STATUS (R521): Returns sequencer state and counters taken in one snapshot. -/
  | seqStatus (p : Packet)
  /-- SEQ_CONFIG (R399): Stores SEQ_JOB and SEQ_CFG. -/
  | seqConfig (p : Packet)
  /-- SEQ_TRAPSAVE (R391): Returns the saved trap state. -/
  | seqTrapsave (p : Packet)
  /-- SEQ_WORD (R400): Returns one control store word and its parity. -/
  | seqWord (p : Packet)
  /-- SEQ_CLEAR (R17): Clears the selected sequencer counters. -/
  | seqClear (p : Packet)
  /-- ZONE_RESET (R411): Zone Management Send Reset advances ZGEN, clears WP and remaps, recomputes ZCAP and clears ZFR. -/
  | zoneReset (x : CtxIx)
  /-- ZONE_OPEN (R453): Zone Management Send Open. -/
  | zoneOpen (x : CtxIx)
  /-- ZONE_CLOSE (R453): Zone Management Send Close. -/
  | zoneClose (x : CtxIx)
  /-- ZONE_FINISH (R453): Zone Management Send Finish. -/
  | zoneFinish (x : CtxIx)
  /-- ZONE_OFFLINE (R453): Zone Management Send Offline. -/
  | zoneOffline (x : CtxIx)
  /-- REPORT_ZONES (R642): Zone Management Receive Report Zones, which waits for the read-forward of the zones it covers. -/
  | reportZones (x : CtxIx)
  /-- LOG_GROUP_CLOSE (R417): A conventional log group closes at 63 blocks, FUA, a Flush or one revolution, and its summary block is written. -/
  | logGroupClose (a : Eng)
  /-- INDIRECTION_UPDATE (R485): A log group becomes durable and indirection entries are updated by start number. -/
  | indirectionUpdate (a : Eng)
  /-- COMPACTION (R418): An engine with fewer than 2 EMPTY log zones compacts the one with the fewest valid blocks. -/
  | compaction (a : Eng)
  /-- ZDC_ACCESS (R420): A descriptor access hits or misses the zone descriptor cache, allocating and evicting under its policy. -/
  | zdcAccess (a : Eng) (z : ZoneNo) (u : DescAccess)
  /-- ZDC_FILL_DONE (R421): A FILL line receives its 64 bytes and waiting accesses are served. -/
  | zdcFillDone (a : Eng) (z : ZoneNo) (bad : Bool)
  /-- ZDC_WRITEBACK_DONE (R422): A victim write-back is acknowledged and its entry is freed. -/
  | zdcWritebackDone (a : Eng) (v : Fin 4)
  /-- ZDC_PIN (R419): The actuator core pins a line, waiting if PIN_MAX lines are pinned. -/
  | zdcPin (a : Eng) (z : ZoneNo)
  /-- ZONE_STATUS (R521): Returns descriptor words 0–5 of a zone. -/
  | zoneStatus (p : Packet)
  /-- ZONE_CACHE_STATUS (R521): Returns cache occupancy and counters taken in one snapshot. -/
  | zoneCacheStatus (p : Packet)
  /-- ZONE_CACHE_CONFIG (R426): Stores PIN_MAX, DEP_KEEP and attribute regions, flushing the affected lines. -/
  | zoneCacheConfig (p : Packet)
  /-- ZONE_CACHE_FLUSH (R424): Writes back a dirty line, or every line when ALL is set. -/
  | zoneCacheFlush (p : Packet)
  /-- ZONE_CACHE_INVALIDATE (R425): Writes back and invalidates a line, or every line when ALL is set. -/
  | zoneCacheInvalidate (p : Packet)
  /-- ZONE_CACHE_CLEAR (R17): Clears the selected cache counters. -/
  | zoneCacheClear (p : Packet)
  /-- MAP_BAND (R435): Writes a band's geometry and heater set-points to NOR for the next format. -/
  | mapBand (p : Packet)
  /-- MAP_REGION (R435): Writes a radial region record to NOR for the next format. -/
  | mapRegion (p : Packet)
  /-- MAP_CONV (R415): Sets CONV_PCT for the next power-on reset. -/
  | mapConv (p : Packet)
  /-- HEAD_DEPOPULATE (R436): Depopulates a head when the confirmation word matches. -/
  | headDepopulate (p : Packet)
  /-- LINK_RESET (R439): PERST#, a hot reset or a link-down resets the host island and acts as a function-level reset on every function. -/
  | linkReset (k : LinkResetKind)
  /-- FUNCTION_LEVEL_RESET (R504): An FLR discards the function's commands, stops its writes, deletes its queues and ends its contracts. -/
  | functionLevelReset (f : Fn)
  /-- VF_DISABLE (R463): A VF is disabled, which acts as its function-level reset and poisons its buffer. -/
  | vfDisable (f : Fn)
  /-- CONTROLLER_RESET (R504): CC.EN going from 1 to 0 resets the controller as R504 defines. -/
  | controllerReset (f : Fn)
  /-- CONTROLLER_ENABLE (R636): CC.EN is set, and CSTS.RDY sets once the tables phase is complete. -/
  | controllerEnable (f : Fn) (c : ControllerSetup)
  /-- SHUTDOWN_NORMAL (R506): CC.SHN 0b01 stops fetching, completes started commands and makes writes durable. -/
  | shutdownNormal (f : Fn)
  /-- SHUTDOWN_ABRUPT (R506): CC.SHN 0b10 abandons reads but makes completed writes durable. -/
  | shutdownAbrupt (f : Fn)
  /-- DOORBELL_WRITE (R467): A doorbell write updates a queue, or is ignored and counted when invalid. -/
  | doorbellWrite (f : Fn) (d : Doorbell)
  /-- CMB_WRITE (R462): A host write to the controller memory buffer is merged into its words. -/
  | cmbWrite (f : Fn) (off : Nat) (bytes : List Byte)
  /-- CMB_READ (R462): A host read of the buffer returns EP for an unwritten or poisoned word. -/
  | cmbRead (f : Fn) (off : Nat) (len : Nat)
  /-- TLP_MALFORMED (R467): A malformed, ECRC-failing or poisoned TLP is dropped and reported by AER. -/
  | tlpMalformed (f : Fn) (hdr : BitVec 128)
  /-- UNSUPPORTED_REQUEST (R467): A request to no implemented address gets Unsupported Request. -/
  | unsupportedRequest (f : Fn) (hdr : BitVec 128)
  /-- COMPLETION_TIMEOUT (R467): A module read gets no completion in time, so its command completes with Data Transfer Error. -/
  | completionTimeout (x : CtxIx) (hdr : BitVec 128)
  /-- POISONED_COMPLETION (R467): A poisoned completion fails its command with Data Transfer Error. -/
  | poisonedCompletion (x : CtxIx) (hdr : BitVec 128)
  /-- SMBUS_PEC_ERROR (R467): An SMBus packet with a PEC error is dropped. -/
  | smbusPecError (hdr : BitVec 128)
  /-- SMBUS_CLOCK_TIMEOUT (R467): The clock is held low for more than 25 ms, so the bus is released and the transaction abandoned. -/
  | smbusClockTimeout
  /-- MCTP_MALFORMED (R467): A malformed MCTP packet or message is dropped. -/
  | mctpMalformed (hdr : BitVec 128)
  /-- VIOLATION_HOUR_SUMMARY (R468): At the end of a power-on hour, one summary record counts further violations. -/
  | violationHourSummary
  /-- COMMAND_FETCH (R476): A command is fetched round robin into a free context. -/
  | commandFetch (f : Fn) (sq : BitVec 16) (c : Sqe)
  /-- CREDIT_GRANT (R479): Host buffer credits are granted to a waiting command. -/
  | creditGrant (x : CtxIx)
  /-- COMMAND_START (R480): A media command starts, receives a start number and is checked against namespace and zone state. -/
  | commandStart (x : CtxIx)
  /-- HOST_TRANSFER_DONE (R31): A command's data transfer between host and DRAM ends. -/
  | hostTransferDone (x : CtxIx)
  /-- WRITE_DURABLE (R32): All sectors of a write are on media with none suspect, and its credits and DRAM copy are released. -/
  | writeDurable (x : CtxIx)
  /-- COMPLETION_POST (R483): A completion is posted in submission order, held behind earlier media commands. -/
  | completionPost (x : CtxIx)
  /-- SCHEDULER_DECISION (R487): At every wedge of an engine, the rotational scheduler picks items by tier and reach angle. -/
  | schedulerDecision (a : Eng)
  /-- CONTRACT_DUE (R496): A covered command's deadline comes within LAT_GUARD and the command becomes tier 1. -/
  | contractDue (x : CtxIx)
  /-- LATENCY_DEADLINE_MISS (R497): A covered command passes its deadline, and the miss is classed and possibly yielded. -/
  | latencyDeadlineMiss (x : CtxIx)
  /-- FLOOR_WINDOW_END (R497): A FLOOR_WIN ends, and a missed floor is classed. -/
  | floorWindowEnd (n : ContractIx)
  /-- ZONE_FINISH_RECOMMENDED (R455): An open or closed zone reaches FRL without a write, so ZFR is set and the change is reported. -/
  | zoneFinishRecommended (z : ZoneNo)
  /-- DELETE_IO_SQ (R503): Deletes an I/O submission queue, aborting its unstarted commands. -/
  | deleteIoSq (q : AdmReq) (id : BitVec 16)
  /-- CREATE_IO_SQ (R473): Creates an I/O submission queue. -/
  | createIoSq (q : AdmReq) (n : NewSq)
  /-- DELETE_IO_CQ (R446): Deletes an I/O completion queue. -/
  | deleteIoCq (q : AdmReq) (id : BitVec 16)
  /-- CREATE_IO_CQ (R473): Creates an I/O completion queue. -/
  | createIoCq (q : AdmReq) (n : NewCq)
  /-- GET_LOG_PAGE (R446): Returns a log page, including the vendor pages 0xC0 and 0xC1. -/
  | getLogPage (q : AdmReq) (g : LogReq)
  /-- IDENTIFY (R443): Returns identify data. -/
  | identify (q : AdmReq) (ir : IdentifyReq)
  /-- ABORT (R502): Aborts a target only if it has not started. -/
  | abort (q : AdmReq) (sq cid : BitVec 16)
  /-- SET_FEATURES (R445): Sets a feature, such as the power state or the write cache. -/
  | setFeatures (q : AdmReq) (fid : BitVec 8) (save : Bool) (v : Word)
  /-- GET_FEATURES (R473): Returns a feature value. -/
  | getFeatures (q : AdmReq) (fid : BitVec 8)
  /-- ASYNCHRONOUS_EVENT_REQUEST (R460): Posts a request for asynchronous events. -/
  | asynchronousEventRequest (q : AdmReq)
  /-- KEEP_ALIVE (R443): A keep-alive command. -/
  | keepAlive (q : AdmReq)
  /-- FORMAT_NVM (R608): Applies a format, resets zones, performs the crypto erase of R607 where requested, and applies pending map changes. -/
  | formatNvm (q : AdmReq) (n : FormatReq)
  /-- SECURITY_RECEIVE (R604): Returns TCG discovery and method responses. -/
  | securityReceive (q : AdmReq) (nsid : Word) (protocol : BitVec 8) (comId : BitVec 16)
  /-- NAMESPACE_CREATE (R450): Creates a conventional or zoned namespace with its own media key. -/
  | namespaceCreate (q : AdmReq) (n : NsCreate)
  /-- NAMESPACE_DELETE (R680): Deletes a namespace, resetting its zones and destroying its key. -/
  | namespaceDelete (q : AdmReq) (nsid : Word)
  /-- NAMESPACE_ATTACH (R448): Attaches a namespace to controllers. -/
  | namespaceAttach (q : AdmReq) (nsid : Word) (fns : BitVec 16)
  /-- NAMESPACE_DETACH (R495): Detaches a namespace, ending the contracts that reach it. -/
  | namespaceDetach (q : AdmReq) (nsid : Word) (fns : BitVec 16)
  /-- FIRMWARE_IMAGE_DOWNLOAD (R597): Writes a piece of an object into the staging buffer. -/
  | firmwareImageDownload (q : AdmReq) (d : Download)
  /-- FW_COMMIT_WRITE_SLOT (R598): Commit action 0b000: verifies and writes the slot. -/
  | fwCommitWriteSlot (q : AdmReq) (slot : Fin 8)
  /-- FW_COMMIT_WRITE_ACTIVATE_NEXT (R598): Commit action 0b001: writes the slot and sets ACT_SLOT for the next start. -/
  | fwCommitWriteActivateNext (q : AdmReq) (slot : Fin 8)
  /-- FW_COMMIT_ACTIVATE_SLOT (R598): Commit action 0b010: verifies the named slot and sets ACT_SLOT. -/
  | fwCommitActivateSlot (q : AdmReq) (slot : Fin 8)
  /-- FW_COMMIT_ACTIVATE_NOW (R599): Commit action 0b011: writes and activates an image without reset, or applies a patch. -/
  | fwCommitActivateNow (q : AdmReq) (slot : Fin 8)
  /-- FW_ACTIVATION_PAUSE_END (R599): The stores are replaced and the cores switched, so the activation pause ends and the commit completes. -/
  | fwActivationPauseEnd
  /-- IMAGE_RETIRE (R599): The last context under the old image completes, the image is retired and ALIAS_GEN advances. -/
  | imageRetire
  /-- DEVICE_SELF_TEST (R446): A device self-test command on the PF. -/
  | deviceSelfTest (q : AdmReq) (nsid : Word) (stc : Fin 16)
  /-- VIRTUALIZATION_MANAGEMENT (R471): Moves flexible queue resources between the PF and offline VFs. -/
  | virtualizationManagement (q : AdmReq) (v : VirtReq)
  /-- SANITIZE_CRYPTO_ERASE (R606): Replaces every media key, resets every zone and clears the tables. -/
  | sanitizeCryptoErase (q : AdmReq) (ause : Bool)
  /-- SANITIZE_BLOCK_ERASE (R606): Performs crypto erase, then writes every track with the writer on. -/
  | sanitizeBlockErase (q : AdmReq) (ause : Bool)
  /-- SANITIZE_EXIT_FAILURE_MODE (R610): The exit-failure-mode action after a failed sanitise. -/
  | sanitizeExitFailureMode (q : AdmReq)
  /-- SANITIZE_OVERWRITE (R606): Overwrite completes with Invalid Field in Command. -/
  | sanitizeOverwrite (q : AdmReq)
  /-- INVALID_OPCODE (R446): An unlisted or excluded command completes with Invalid Command Opcode. -/
  | invalidOpcode (q : AdmReq) (opc : BitVec 8)
  /-- HETOS_EXCHANGE (R527): Admin command 0xC1 carries 1–64 Hetos packets and completes with a summary Dword 0. -/
  | hetosExchange (q : AdmReq) (h : HetosCmd)
  /-- HETOS_MCTP_REQUEST (R529): A Hetos MCTP request message is checked and either run or dropped. -/
  | hetosMctpRequest (m : MctpReq)
  /-- EXCHANGE_START (R520): A waiting exchange starts when fewer than 8 are running. -/
  | exchangeStart
  /-- FLUSH (R501): Makes every write completed before the Flush was fetched durable. -/
  | flush (x : CtxIx)
  /-- WRITE (R482): A write starts against the zone write pointer or the conventional region. -/
  | write (x : CtxIx)
  /-- READ (R484): A read fixes its block sources at its start and transfers its blocks. -/
  | read (x : CtxIx)
  /-- WRITE_ZEROES (R447): Writes zeroes, with Deallocate on conventional namespaces. -/
  | writeZeroes (x : CtxIx)
  /-- DATASET_MANAGEMENT (R447): Deallocates blocks of a conventional namespace. -/
  | datasetManagement (x : CtxIx)
  /-- VERIFY (R447): Verifies blocks. -/
  | verify (x : CtxIx)
  /-- ZONE_APPEND (R482): Appends at the advanced write pointer, taking its address at its start. -/
  | zoneAppend (x : CtxIx)
  /-- READ_NVME_MI_DATA_STRUCTURE (R465): The NVMe-MI command Read NVMe-MI Data Structure. -/
  | readNvmeMiDataStructure (m : MiReq) (dtyp : BitVec 8)
  /-- NVM_SUBSYSTEM_HEALTH_STATUS_POLL (R465): The NVMe-MI subsystem health poll. -/
  | nvmSubsystemHealthStatusPoll (m : MiReq) (clear : Bool)
  /-- CONTROLLER_HEALTH_STATUS_POLL (R465): The NVMe-MI controller health poll. -/
  | controllerHealthStatusPoll (m : MiReq) (clear : Bool)
  /-- CONFIGURATION_SET (R465): The NVMe-MI Configuration Set command. -/
  | configurationSet (m : MiReq) (id : BitVec 8) (v : Word)
  /-- CONFIGURATION_GET (R465): The NVMe-MI Configuration Get command. -/
  | configurationGet (m : MiReq) (id : BitVec 8)
  /-- VPD_READ (R465): Reads the VPD from NOR. -/
  | vpdRead (m : MiReq) (off len : Nat)
  /-- VPD_WRITE (R465): Writes the VPD to NOR. -/
  | vpdWrite (m : MiReq) (off : Nat) (bytes : List Byte)
  /-- HOST_STATUS (R521): Returns link state and counters taken in one snapshot. -/
  | hostStatus (p : Packet)
  /-- HOST_CONFIG (R469): Stores HIF_CFG in the register and in NOR. -/
  | hostConfig (p : Packet)
  /-- HOST_PERMIT (R469): Stores the VF Hetos read permissions. -/
  | hostPermit (p : Packet)
  /-- HOST_FUNCTION (R521): Returns a function's status and counters. -/
  | hostFunction (p : Packet)
  /-- HOST_CLEAR (R17): Clears the selected link or function counters. -/
  | hostClear (p : Packet)
  /-- QUEUE_STATUS (R521): Returns pool occupancy and configuration. -/
  | queueStatus (p : Packet)
  /-- QUEUE_CONFIG (R508): Stores context, scheduling and admission settings. -/
  | queueConfig (p : Packet)
  /-- QUEUE_FUNCTION (R521): Returns a function's queue and context use. -/
  | queueFunction (p : Packet)
  /-- QOS_ADMIT (R493): Admits a latency or bandwidth contract if the admission sums allow it. -/
  | qosAdmit (p : Packet)
  /-- QOS_REVOKE (R495): Ends a contract. -/
  | qosRevoke (p : Packet)
  /-- QOS_STATUS (R508): Returns a contract's state. -/
  | qosStatus (p : Packet)
  /-- QUEUE_CLEAR (R17): Clears the selected queue and contract counters. -/
  | queueClear (p : Packet)
  /-- MOD_IDENTIFY (R532): Returns identity, stepping, layout in effect and version. -/
  | modIdentify (p : Packet)
  /-- MOD_ECHO (R533): Returns its words unchanged. -/
  | modEcho (p : Packet)
  /-- MOD_LAYOUT (R534): Stores a new layout for the next power-on reset. -/
  | modLayout (p : Packet)
  /-- HETOS_STATUS (R536): Returns a transport's Hetos counters. -/
  | hetosStatus (p : Packet)
  /-- HETOS_CLEAR (R536): Clears the selected Hetos counters. -/
  | hetosClear (p : Packet)
  /-- POWER_EPOCH (R544): At each epoch, the arbiter latches requests and grants refusable draws in order within the ceiling and zone allowances. -/
  | powerEpoch (e : EpochIn)
  /-- EST_OFS_UPDATE (R539): Every 64 epochs, EST_OFS is corrected from measured power and OVER is evaluated. -/
  | estOfsUpdate
  /-- ISLAND_CLOCK_CHANGE (R551): An actuator island's k and supply change at a job boundary in 10 µs steps. -/
  | islandClockChange (a : Eng)
  /-- BUDGET_SET (R557): Stores budget, reserve and costs from the next epoch. -/
  | budgetSet (p : Packet)
  /-- BUDGET_STATUS (R521): Returns the arbiter state taken in one snapshot. -/
  | budgetStatus (p : Packet)
  /-- BUDGET_CONSUMER (R558): Returns a head's, engine's or the module's power registers. -/
  | budgetConsumer (p : Packet)
  /-- BUDGET_CLEAR (R17): Clears the selected arbiter counters. -/
  | budgetClear (p : Packet)
  /-- DRAM_ARBITRATION (R561): A channel arbiter grants the next 64-byte burst. -/
  | dramArbitration (x : DramTurn)
  /-- ECC_WRITEBACK (R565): A corrected word is written back with fresh check bits as a requester-9 burst. -/
  | eccWriteback (c : Fin 2)
  /-- DRAM_REFRESH (R560): Each channel is refreshed at the temperature-dependent interval. -/
  | dramRefresh (c : Fin 2)
  /-- BUCKET_LEAK (R571): An error bucket drains by one every LEAK_MIN minutes, and OVF clears at half depth. -/
  | bucketLeak (r : MemRegion)
  /-- SCRUB_BURST (R572): The patrol scrubber reads the next DDR4 burst at its pace. -/
  | scrubBurst (c : Fin 2)
  /-- SRAM_SCRUB_PASS (R572): An SRAM scrub pass runs every SRAM_SCRUB_M minutes. -/
  | sramScrubPass (r : MemRegion) (found : List ScrubFind)
  /-- DRAM_ROW_REPAIR (R574): A row marked for a hard fault is copied out, repaired by soft PPR and written back. -/
  | dramRowRepair (c : Fin 2)
  /-- MEM_STATUS (R521): Returns memory state and the newest UE log entry. -/
  | memStatus (p : Packet)
  /-- MEM_CONFIG (R578): Stores scrub, arbiter and bucket settings. -/
  | memConfig (p : Packet)
  /-- MEM_SCRUB_RESTART (R572): Restarts the DDR4 scrub pass from address 0. -/
  | memScrubRestart (p : Packet)
  /-- MEM_SCRUB_SRAM (R572): Runs an SRAM scrub pass now. -/
  | memScrubSram (p : Packet)
  /-- MEM_REPAIR (R579): Repairs a named word's row as a hard fault. -/
  | memRepair (p : Packet)
  /-- MEM_DIAG_READ (R577): Reads raw data, check bits and syndrome in a diagnostic window. -/
  | memDiagRead (p : Packet)
  /-- MEM_DIAG_WRITE (R577): Writes data and check bits independently in a diagnostic window. -/
  | memDiagWrite (p : Packet)
  /-- MEM_CLEAR (R17): Clears the selected memory counters. -/
  | memClear (p : Packet)
  /-- GET_VERSION (R589): The SPDM GET_VERSION request. -/
  | getVersion (r : SpdmIx)
  /-- GET_CAPABILITIES (R589): The SPDM GET_CAPABILITIES request. -/
  | getCapabilities (r : SpdmIx)
  /-- NEGOTIATE_ALGORITHMS (R589): The SPDM NEGOTIATE_ALGORITHMS request. -/
  | negotiateAlgorithms (r : SpdmIx) (n : SpdmAlgs)
  /-- GET_DIGESTS (R589): The SPDM GET_DIGESTS request. -/
  | getDigests (r : SpdmIx)
  /-- GET_CERTIFICATE (R589): Returns the Ed25519 certificate chain of a slot. -/
  | getCertificate (r : SpdmIx) (slot : Fin 8) (off len : BitVec 16)
  /-- CHALLENGE (R589): The SPDM CHALLENGE request, signed with the presented identity. -/
  | challenge (r : SpdmIx) (slot : Fin 8) (meas : BitVec 8) (nonce : BitVec 256)
  /-- GET_MEASUREMENTS (R591): Returns the measurement blocks, signed if requested. -/
  | getMeasurements (r : SpdmIx) (op : BitVec 8) (sign : Bool) (slot : Fin 8) (nonce : BitVec 256)
  /-- KEY_EXCHANGE (R589): The SPDM KEY_EXCHANGE request, which opens a session. -/
  | keyExchange (r : SpdmIx) (slot : Fin 8) (x : SpdmKex)
  /-- FINISH (R589): The SPDM FINISH request. -/
  | finish (r : SpdmIx) (sid : BitVec 16) (hmac : BitVec 384)
  /-- HEARTBEAT (R589): The SPDM HEARTBEAT request. -/
  | heartbeat (r : SpdmIx) (sid : BitVec 16)
  /-- KEY_UPDATE (R589): The SPDM KEY_UPDATE request. -/
  | keyUpdate (r : SpdmIx) (sid : BitVec 16) (op : BitVec 8)
  /-- END_SESSION (R589): The SPDM END_SESSION request. -/
  | endSession (r : SpdmIx) (sid : BitVec 16)
  /-- GET_PQ_CHAIN (R590): Returns part of the ML-DSA-65 certificate chain. -/
  | getPqChain (r : SpdmIx) (slot : Fin 8) (off len : BitVec 16)
  /-- GET_PQ_SIG (R590): Returns the ML-DSA-65 half of the last signed response. -/
  | getPqSig (r : SpdmIx)
  /-- START_SESSION (R604): The Opal StartSession method. -/
  | startSession (o : OpalReq) (sp : OpalSp) (auth : OpalAuth) (pin : Nat)
  /-- PROPERTIES (R604): The Opal Properties method. -/
  | properties (o : OpalReq)
  /-- OPAL_GET (R604): The Opal Get method. -/
  | opalGet (o : OpalReq) (obj : OpalObj)
  /-- OPAL_SET (R605): The Opal Set method, which can change locks once earlier writes are durable. -/
  | opalSet (o : OpalReq) (obj : OpalObj) (v : Nat)
  /-- AUTHENTICATE (R604): The Opal Authenticate method. -/
  | authenticate (o : OpalReq) (auth : OpalAuth) (pin : Nat)
  /-- GENKEY (R605): The Opal GenKey method, a crypto erase of namespace n. -/
  | genkey (o : OpalReq) (n : Fin 17)
  /-- ACTIVATE (R604): The Opal Activate method. -/
  | activate (o : OpalReq)
  /-- REVERT (R605): The Opal Revert method, with PSID a crypto erase of every namespace. -/
  | revert (o : OpalReq) (sp : OpalSp)
  /-- REVERT_SP (R604): The Opal RevertSP method. -/
  | revertSp (o : OpalReq) (sp : OpalSp)
  /-- RANDOM (R604): The Opal Random method. -/
  | random (o : OpalReq) (len : Nat)
  /-- DEBUG_UNLOCK_EXPIRY (R611): The unlock reaches EXPIRY and P-DBG locks. -/
  | debugUnlockExpiry
  /-- SEC_STATUS (R521): Returns security state taken in one snapshot. -/
  | secStatus (p : Packet)
  /-- SEC_CERT (R612): Returns a chunk of a certificate. -/
  | secCert (p : Packet)
  /-- SEC_LOCK (R611): sec.unlock with word 0 equal to 0 locks P-DBG. -/
  | secLock (p : Packet)
  /-- SEC_UNLOCK (R611): Opens P-DBG with a staged unlock token. -/
  | secUnlock (p : Packet)
  /-- SEC_ROLLBACK (R612): Raises ROLL_CTR with a staged rollback authorisation. -/
  | secRollback (p : Packet)
  /-- RECORD_PROGRAM (R616): A queued record is programmed into its stream's open block, with VALID last. -/
  | recordProgram (ok : Bool)
  /-- SEAL_TIMEOUT (R620): An open block reaches SEAL_T seconds and is sealed. -/
  | sealTimeout (t : StreamIx)
  /-- SEGMENT_ERASE (R627): Fewer than two erased segments remain, so the oldest segment is sealed and erased. -/
  | segmentErase
  /-- SEGMENT_ERASE_DONE (R628): A segment erase ends, and a failure or the erase limit retires the segment. -/
  | segmentEraseDone (ok : Bool)
  /-- FREEZE_TIMEOUT (R626): FRZ_MAX seconds after the last freeze, FRZ_DEPTH returns to zero and programming resumes. -/
  | freezeTimeout
  /-- RECORDER_STATUS (R521): Returns recorder state taken in one snapshot. -/
  | recorderStatus (p : Packet)
  /-- RECORDER_FREEZE (R625): Freezes the region after programming the queue and sealing open blocks. -/
  | recorderFreeze (p : Packet)
  /-- RECORDER_THAW (R626): Clears the selected counters and lowers FRZ_DEPTH. -/
  | recorderThaw (p : Packet)
  /-- RECORDER_READ (R629): Returns 24 bytes of the region. -/
  | recorderRead (p : Packet)
  /-- RECORDER_NOTE (R630): Queues a NOTE record of text. -/
  | recorderNote (p : Packet)
  /-- RESET_STATUS (R521): Returns start and power-loss state. -/
  | resetStatus (p : Packet)
  /-- RESET_CLEAR (R657): reset.request kind 0 clears the selected reset counters. -/
  | resetClear (p : Packet)
  /-- RESET_MODULE (R655): reset.request kind 1 drains, unloads and performs a power-on reset with CAUSE 1. -/
  | resetModule (p : Packet)
  /-- RESET_ENGINE (R656): reset.request kind 2 unloads, resets and reloads one actuator engine. -/
  | resetEngine (p : Packet)
  /-- RESET_CONFIGURE (R657): reset.request kind 3 stores RST_CFG. -/
  | resetConfigure (p : Packet)
  /-- ACTUATOR_LOAD (R658): Clears HELD and loads the engine's heads. -/
  | actuatorLoad (p : Packet)
  /-- ACTUATOR_UNLOAD (R658): Unloads the engine's heads and sets HELD. -/
  | actuatorUnload (p : Packet)
  /-- AFE_COMMA_ALIGNMENT (R97): During training the AFE returns aligned commas, and the module then reads AFE_ID and sends the AFE_WDT and SAFE_HTR configuration frames. -/
  | afeCommaAlignment (a : Eng) (l : LinkIx)
  /-- PERST_DEASSERTION (R634): PERST# is deasserted and the host island starts link training within 20 ms. -/
  | perstDeassertion
  /-- DATA_LINK_UP (R437): PCI Express link training completes and the data link comes up at the width and rate trained, setting DL_UP, GEN and WIDTH. -/
  | dataLinkUp (gen : Fin 6) (lanes : Fin 5) (ari : Bool)
  /-- ASPM_L1_CHANGE (R438): The link enters or leaves ASPM L1, changing the L1 flag and the LINK draw counted by the power arbiter. -/
  | aspmL1Change (enter : Bool)
  /-- VF_ENABLE (R440): The host enables VFs through the SR-IOV capability, with NumVFs limited to 7 when ARI Capable Hierarchy is clear. -/
  | vfEnable (n : Fin 16)
  /-- MCTP_SET_ENDPOINT_ID (R465): The bus owner's MCTP control message assigns the module's endpoint ID, shown in HIF_STATUS EID. -/
  | mctpSetEndpointId (eid : BitVec 8)
  /-- KEEP_ALIVE_TIMEOUT (R70): The keep-alive timer kept on module time expires with no Keep Alive command received. -/
  | keepAliveTimeout (f : Fn)
  /-- CMB_REFILL_DONE (R570): The poison refill of a function's controller memory buffer completes within 30 ms, CMB_FILL clears and deferred host writes take effect. -/
  | cmbRefillDone (f : Fn)
  /-- FIRMWARE_SLOT_PROGRAMMED (R599): Programming and read-back of a firmware slot ends; plain writes complete, and an activation goes on to load, self-test, key formation, ACT_SLOT and the start of the pause. -/
  | firmwareSlotProgrammed (readBackOk selfTestOk : Bool)
  /-- SANITIZE_COMPLETE (R609): A sanitise operation finishes, writes its progress record at completion and clears SAN_ACTIVE. -/
  | sanitizeComplete (ok : Bool)
  /-- FORMAT_COMPLETE (R609): A format operation finishes, writes its progress record at completion and clears FMT_ACTIVE. -/
  | formatComplete
  deriving DecidableEq, Repr

end Sys2Proof
end

