-- ==== Sys2Proof/Config.lean ====
section
/-! DEFINITION. What an implementation fixes and the spec leaves open: opaque constants with no body, of which nothing can
be proved beyond their type. Each is named in the assumption log. -/

namespace Sys2Proof.Config

/-- A fresh unstated value: the counter `State.free` picks it (log 2). -/
opaque freeValue : Nat → BitVec 64

/-- SHA-384 of a sequence of numbers (the bytes a rule names, each part as one number) (log 6). -/
opaque sha384 : List Nat → BitVec 384
/-- HKDF-SHA-384 of input key material and an info string (R584) (log 6). -/
opaque hkdf : Nat → Nat → BitVec 384
/-- Ed25519 verification: public key, message, signature (R581) (log 6). -/
opaque edVerify : Nat → Nat → Nat → Bool
/-- ML-DSA-65 verification: public key, message, signature (R581) (log 6). -/
opaque mlVerify : Nat → Nat → Nat → Bool
/-- Ed25519 signature by a key over a message (R581) (log 6). -/
opaque edSign : Nat → Nat → Nat
/-- ML-DSA-65 signature by a key over a message; the last argument is the random input rnd (R585) (log 6). -/
opaque mlSign : Nat → Nat → Nat → Nat
/-- HMAC-SHA-384 of a key over a message (R589) (log 6). -/
opaque hmac : Nat → Nat → BitVec 384
/-- Public point of a secp384r1 private key, and the secret it shares with a peer's point (R589) (log 6). -/
opaque dhePublic : Nat → Nat
/-- See `dhePublic`. -/
opaque dheShared : Nat → Nat → Nat
/-- Output n of the CTR_DRBG (R601) (log 6). -/
opaque drbg : Nat → BitVec 512
/-- AES-256-XTS encryption of one block under a 512-bit key with the namespace LBA as tweak (R601) (log 6). -/
opaque xtsEncrypt : BitVec 512 → BitVec 128 → BitVec 32768 → BitVec 32768
/-- AES-256-XTS decryption of one block (R601) (log 6). -/
opaque xtsDecrypt : BitVec 512 → BitVec 128 → BitVec 32768 → BitVec 32768
/-- Byte n of a certificate: which certificate, half, generation's measurement (R585) (log 6). -/
opaque certByte : Nat → Bool → BitVec 384 → Nat → BitVec 8
/-- Length of a certificate in bytes (R585) (log 6). -/
opaque certLen : Nat → Bool → BitVec 384 → Nat
/-- Digest of the boot ROM and of the first-stage loader that ran (R591) (log 6). -/
opaque romDigest : BitVec 384
opaque loaderDigest : Nat → BitVec 384

/-- The IDCODE value of the TAP: not in the manual (log 7). -/
opaque idcode : BitVec 32

/-- Velocity profile p of R277 at distance point j (64 points), 2^−16 track per wedge: calibrated content (log 8). -/
opaque profile : Fin 4 → Fin 64 → Nat
/-- Distance in tracks of the profile's point j (log 8). -/
opaque profileDist : Fin 4 → Fin 64 → Nat
/-- Wedges a seek and its settle are predicted to take: velocity profile in use and distance in tracks, for the reach angle of
R488 (log 8). -/
opaque seekWedges : Fin 4 → Nat → Nat

/-- The contact margin a head was calibrated with (R207), 25 µW units (log 8). -/
opaque contactMargin : Fin 24 → Nat

/-- The bank group of a row of a DDR4 die: channel, die, row (R574) (log 20). -/
opaque bankGroup : Nat → Nat → Nat → Fin 4
/-- The macro row a word of the SRAM lies in, and the macro of a row (R573, R575) (log 20). -/
opaque sramRow : Nat → Nat
/-- See `sramRow`. -/
opaque sramMacro : Nat → Nat
/-- What an SRAM word belongs to in its region: the number of a sector, engine, function, core, slot, line or record (R576)
(log 20). -/
opaque sramOwner : Nat → Nat

/-- The same for a word of DDR4: what lies there, by region (R576) (log 20). -/
opaque dramOwner : Nat → Nat
/-- The word of the verified image that a word of the firmware region holds (R576) (log 20). -/
opaque imageWord : Nat → BitVec 64

/-- CRC-32C etc. are defined in Machine/Bits.lean; the message bytes an NVMe or SPDM standard lays out are numbered here:
word n of an Identify structure the manual does not give, by CNS and word number (log 9). -/
opaque identifyWord : Nat → Nat → BitVec 32
/-- Word n of a log page whose layout is the standard's and whose content the manual does not give (log 9). -/
opaque logWord : Nat → Nat → BitVec 32

/-- The code the ADC of a slice gives for a sample: slice, stretch of signal, sample index (R102, R103) (log 64). -/
opaque adcCode : Nat → Nat → Nat → BitVec 8
/-- Tap −4 to 4 of a phase 1 to 127 of the coefficient table (R128) (log 64). -/
opaque tap : Nat → Nat → BitVec 12
/-- The Mueller–Müller detector (R132): the last two outputs z and their reference levels; timing error in 2^−16 sample (log 64). -/
opaque timingError : Int → Int → Int → Int → Int
/-- The value a lane's decisions predict for a bit's interpolated sample (R125): the slice and the decisions up to that bit, newest
first; in the unit of `LoopBit.y` (log 64). -/
opaque predicted : Nat → List Bool → Int
/-- The phase of a correlation's cosine and sine sums, in 2^−32 turn (R135) (log 64). -/
opaque phase : Int → Int → Nat
/-- The 36 864 hard decisions a deep decode ends with: DEEP_GLOB and its captures (slice, sample index, code) (R210, R211) (log 65). -/
opaque deepBits : Nat → List (List (Nat × Nat × BitVec 8)) → List Bool
/-- The unit of a burst's amplitude (R267) (log 70). -/
opaque burstScale : Nat
/-- A head's HTR_SENSE shows head contact (R94, R207) (log 65). -/
opaque headContact : Fin 24 → BitVec 12 → Bool
/-- Estimated seconds of a block erase for the zones left and the writer grants of a revolution (R609) (log 9). -/
opaque eraseSeconds : Nat → Nat → Nat

end Sys2Proof.Config
end

