-- ==== Sys2Proof/Machine/State.lean ====
section
/-! DEFINITION. The whole state of the LJ-4824, its faults and refusals, and the state after reset. The parts are declared
in the files StateReel to StateModule; a field's default is its value at power-on reset. -/

namespace Sys2Proof.Machine
open Sys2Proof

/-- One actuator engine (level 4). -/
structure Engine where
  reel : Reel := {}
  links : Vector ArmLink 2 := Vector.replicate 2 {}
  recv : Recovery := {}
  wrg : WriteGuard := {}
  srv : Servo := {}
  seq : Sequencer := {}
  zdc : Zdc := {}
  core : ActCore := {}
  deriving DecidableEq, Repr

/-- One head unit (level 3), by global head number. -/
structure HeadUnit where
  /-- Slice registers of readers A and B (R140). -/
  rd : Vector SliceRegs 2 := Vector.replicate 2 {}
  det : DetRegs := {}
  wr : HeadWrite := {}
  srv : HeadServo := {}
  map : HeadMap := {}
  /-- f, the frequency state both slices of the head share, 2^−28 samples per bit (R132). -/
  freq : Int := 0
  deriving DecidableEq, Repr

/-- The module. -/
structure State where
  /-- Commands waiting, first in first out. -/
  pending : List Instr := []
  /-- The model's own counter of free values (log 2). -/
  free : Nat := 0
  /-- MTIME (R71). -/
  mtime : MTime := 0
  /-- The layout in effect since power-on reset (R24). -/
  layout : Layout := {}
  eng : Vector Engine 4 := Vector.replicate 4 {}
  head : Vector HeadUnit 24 := Vector.replicate 24 {}
  slice : Vector Slice 48 := Vector.replicate 48 {}
  lane : Vector Lane 24 := Vector.replicate 24 {}
  pool : Pool := {}
  mems : Mems := {}
  wsl : WriterSlots := {}
  lpe : LoopArray := {}
  trc : Trace := {}
  spn : Spindle := {}
  media : MediaMap := {}
  host : HostLink := {}
  q : Queues := {}
  het : Hetos := {}
  pwr : Power := {}
  mem : MemBlock := {}
  sec : Security := {}
  evr : Recorder := {}
  nor : Nor := {}
  fuse : Fuses := {}
  rst : ResetBlock := {}
  out : Outputs := {}
  /-- SNAP latches by BAR2 address, rising; an unlisted one holds its field's Reset value (R679). -/
  snaps : List (Nat × Word) := []
  deriving DecidableEq, Repr

/-- Why a step stops with a fault. -/
inductive Fault where
  /-- Stress beyond an absolute maximum rating (R673): the manual says the module may be damaged and gives no behaviour.
  Raised by RAIL_OVERVOLTAGE and CHOPPER_SWITCH above 16.0 V. Safe: the model stops where the manual says nothing. -/
  | overstress
  deriving DecidableEq, Repr

/-- Why a step has no meaning. -/
inductive Refusal where
  /-- A command that is not modelled, by its mnemonic. Raised by an arm of exec that has no meaning yet. Safe. -/
  | notModelled (mnemonic : String)
  deriving DecidableEq, Repr

/-- What a meaning answers. -/
abbrev Out := Host.Outcome State Fault Refusal

/-- The module right after reset: every field at its Reset value (R679) or at the value the assumption log names
(logs 3, 4 and 5); the queue is empty. -/
def State.reset : State := {}

end Sys2Proof.Machine
end

