-- ==== Sys2Proof/Machine/Bits.lean ====
section
/-! DEFINITION. Bit fields of a word, sign conversions, and the check codes of the manual (CRC-16 of R85, CRC-32C of
R151, CRC-8 of the durable zone record, PRBS31 of R152). -/

namespace Sys2Proof.Machine
open Sys2Proof

/-- Bits hi:lo of a word. -/
def fld (w : Word) (hi lo : Nat) : Nat := (w.toNat / 2 ^ lo) % 2 ^ (hi + 1 - lo)

/-- A number of w bits read as two's complement. -/
def signedOf (w n : Nat) : Int := if n % 2 ^ w < 2 ^ (w - 1) then ((n % 2 ^ w : Nat) : Int) else ((n % 2 ^ w : Nat) : Int) - 2 ^ w

/-- Bits hi:lo of a word as a signed number. -/
def sfld (w : Word) (hi lo : Nat) : Int := signedOf (hi + 1 - lo) (fld w hi lo)

/-- A number placed in bits hi:lo. -/
def bf (hi lo v : Nat) : Nat := (v % 2 ^ (hi + 1 - lo)) * 2 ^ lo

/-- A signed number placed in bits hi:lo. -/
def bfi (hi lo : Nat) (v : Int) : Nat := (v % (2 ^ (hi + 1 - lo) : Nat)).toNat * 2 ^ lo

/-- A flag placed at bit i. -/
def bb (i : Nat) (b : Bool) : Nat := if b then 2 ^ i else 0

/-- The word made of fields placed by `bf`, `bfi` and `bb`. -/
def mkw (parts : List Nat) : Word := BitVec.ofNat 32 parts.sum

/-- A number as a word. -/
def nw (n : Nat) : Word := BitVec.ofNat 32 n
/-- A signed number as a word, two's complement. -/
def iw (n : Int) : Word := BitVec.ofInt 32 n
/-- A flag as a word. -/
def boolw (b : Bool) : Word := if b then 1 else 0

/-- A word with bits hi:lo replaced. -/
def setFld (w : Word) (hi lo v : Nat) : Word :=
  nw (w.toNat - fld w hi lo * 2 ^ lo + bf hi lo v)

/-- Low and high halves of a 64-bit quantity, low word first. -/
def lohi (n : Nat) : List Word := [nw n, nw (n / 2 ^ 32)]

/-- A signed number kept to a width by saturation. -/
def satInt (w : Nat) (n : Int) : Int := max (-(2 ^ (w - 1) : Nat)) (min n ((2 ^ (w - 1) : Nat) - 1))

/-- Clamp of a number to a range. -/
def clampNat (lo hi n : Nat) : Nat := max lo (min n hi)
/-- Clamp of a signed number to a range. -/
def clampInt (lo hi n : Int) : Int := max lo (min n hi)

/-- Division with rounding half up, for a positive divisor. -/
def roundDiv (n : Int) (d : Nat) : Int := (2 * n + d) / (2 * d)

/-- Bytes of a number, least significant first. -/
def leBytes : Nat → Nat → List Nat
  | 0, _ => []
  | k + 1, n => n % 256 :: leBytes k (n / 256)

/-- The bytes of words, each little-endian (R10). -/
def wordBytes (l : List Word) : List Nat := l.flatMap fun w => leBytes 4 w.toNat

/-- Bytes as a little-endian number. -/
def leNat (l : List Nat) : Nat := l.foldr (fun b n => b % 256 + 256 * n) 0

/-- Number of set bits among the low w. -/
def popcount : Nat → Nat → Nat
  | 0, _ => 0
  | k + 1, n => n % 2 + popcount k (n / 2)

/-- The numbers of the set bits among the low w, rising. -/
def bitsSet (w n : Nat) : List Nat := (List.range w).filter (fun i => n.testBit i)

/-- k steps of a bitwise CRC of width w, most significant bit first. -/
def crcStep (w poly : Nat) : Nat → Nat → Nat
  | 0, c => c
  | k + 1, c => crcStep w poly k (if c.testBit (w - 1) then ((c * 2) % 2 ^ w) ^^^ poly else (c * 2) % 2 ^ w)

/-- CRC-16, polynomial 0x1021, start 0xFFFF, MSB first, no inversion (R85). -/
def crc16 (bytes : List Nat) : Nat :=
  bytes.foldl (fun c b => crcStep 16 0x1021 8 (c ^^^ (b * 256))) 0xFFFF

/-- CRC-8, polynomial 0x07, start 0x00 (durable zone record, R639). -/
def crc8 (bytes : List Nat) : Nat :=
  bytes.foldl (fun c b => crcStep 8 0x07 8 (c ^^^ b)) 0

/-- k steps of a reflected bitwise CRC. -/
def crcStepR (poly : Nat) : Nat → Nat → Nat
  | 0, c => c
  | k + 1, c => crcStepR poly k (if c % 2 = 1 then (c / 2) ^^^ poly else c / 2)

/-- CRC-32C, polynomial 0x1EDC6F41 reflected (0x82F63B78), start and final XOR all ones (R151). -/
def crc32c (bytes : List Nat) : Nat :=
  (bytes.foldl (fun c b => crcStepR 0x82F63B78 8 (c ^^^ b)) 0xFFFFFFFF) ^^^ 0xFFFFFFFF

/-- The PRBS31 sequence of x^31 + x^28 + 1 as a list of bits, first output first: the register holds the last 31 outputs,
bit 0 the oldest (R152). -/
def prbsBits : Nat → Nat → List Bool
  | 0, _ => []
  | k + 1, r =>
    let out := r % 2
    let fb := (r % 2) ^^^ ((r / 8) % 2)
    (out == 1) :: prbsBits k (r / 2 + fb * 2 ^ 30)

/-- The seed of R152: ADDR_TAG bits 30:0 with bit 0 forced to 1. -/
def prbsSeed (tag : Word) : Nat := (tag.toNat % 2 ^ 31) ||| 1

/-- A list of bits as a number, first bit least significant. -/
def bitsToNat : List Bool → Nat
  | [] => 0
  | b :: t => (if b then 1 else 0) + 2 * bitsToNat t

/-! ### Gray codes (R104, R260) and servo bits (R261) -/

/-- A 6-bit count as a Gray code. -/
def gray (n : BitVec 6) : BitVec 6 := n ^^^ (n >>> 1)

/-- The count of a Gray code. -/
def ungray (g : BitVec 6) : BitVec 6 := g ^^^ (g >>> 1) ^^^ (g >>> 2) ^^^ (g >>> 3) ^^^ (g >>> 4) ^^^ (g >>> 5)

/-- A number from its bits, most significant first. -/
def bitsNat (l : List Bool) : Nat := l.foldl (fun n b => 2 * n + b.toNat) 0

/-- A number from the bits of its Gray code, most significant first. -/
def ungrayBits (l : List Bool) : Nat := (l.foldl (fun (p : Nat × Bool) b => (2 * p.1 + (xor p.2 b).toNat, xor p.2 b)) (0, false)).1

/-- The bits of a field of TRACK or INDEX (R261), two servo bits each: the sign of the difference of their mean sample values. -/
def servoBits : List Int → List Bool
  | x :: y :: l => decide (y < x) :: servoBits l
  | _ => []

end Sys2Proof.Machine
end

