-- ==== Sys2Proof/Machine/Codec.lean ====
section
/-! DEFINITION. The codeword (R150 to R155): its information part, CRC, scrambling, parity, and the check of R153. Bit i of a
bit vector is bit i of the codeword. -/

namespace Sys2Proof.Machine
open Sys2Proof

/-- A byte with its bits in the opposite order. -/
def flipByte (b : Nat) : Nat := ((List.range 8).map fun i => if b.testBit i then 2 ^ (7 - i) else 0).sum

/-- Byte n of an information part: bytes in rising order, most significant bit first (R150). -/
def infoByte (x : BitVec 32928) (n : Nat) : Nat := flipByte ((x.toNat / 2 ^ (8 * n)) % 256)

/-- Bytes n to n + k − 1 as one little-endian number. -/
def infoLe (x : BitVec 32928) (n : Nat) : Nat → Nat
  | 0 => 0
  | k + 1 => infoByte x n + 256 * infoLe x (n + 1) k

/-- An information part from its bytes. -/
def infoOf (bytes : List Nat) : BitVec 32928 :=
  BitVec.ofNat 32928 (bytes.foldr (fun b acc => flipByte (b % 256) + 256 * acc) 0)

/-- The PRBS31 mask of R152 for an ADDR_TAG. -/
def prbsMask (tag : Word) : BitVec 32928 := BitVec.ofNat 32928 (bitsToNat (prbsBits 32928 (prbsSeed tag)))

/-- Scrambling and descrambling (R152). -/
def scramble (tag : Word) (x : BitVec 32928) : BitVec 32928 := x ^^^ prbsMask tag

/-- The information part of a block before scrambling (R150, R151): user data as stored, protection information, tag,
generation and CRC. -/
def makeInfo (user : BitVec 32768) (pi : BitVec 64) (tag zgen : Word) : BitVec 32928 :=
  let body := leBytes 4096 user.toNat ++ leBytes 8 pi.toNat ++ leBytes 4 tag.toNat ++ leBytes 4 zgen.toNat
  infoOf (body ++ leBytes 4 (crc32c body))

/-- CRC, ADDR_TAG and ZGEN of a descrambled information part against those expected (R153). -/
def crcChecks (x : BitVec 32928) : Bool := crc32c ((List.range 4112).map (infoByte x)) == infoLe x 4112 4
/-- See `crcChecks`. -/
def tagChecks (x : BitVec 32928) (tag zgen : Word) : Bool := infoLe x 4104 4 == tag.toNat && infoLe x 4108 4 == zgen.toNat

/-- USER and PI of an information part. -/
def infoUser (x : BitVec 32928) : BitVec 32768 := BitVec.ofNat 32768 (infoLe x 0 4096)
/-- See `infoUser`. -/
def infoPi (x : BitVec 32928) : BitVec 64 := BitVec.ofNat 64 (infoLe x 4096 8)
/-- ZGEN of an information part. -/
def infoZgen (x : BitVec 32928) : Word := BitVec.ofNat 32 (infoLe x 4108 4)

/-- The three block rows of information block column j (R155). -/
def ldpcRows (j : Nat) : List Nat := [j % 41, (j % 41 + 1 + j % 13) % 41, (j % 41 + 15 + j % 11) % 41]

/-- Block column j of an information part. -/
def infoCol (x : BitVec 32928) (j : Nat) : BitVec 96 := BitVec.ofNat 96 (x.toNat / 2 ^ (96 * j))

/-- The sum of block row i over the information columns below n (R155): a circulant of shift s takes bit (t + s) mod 96. -/
def ldpcSum (x : BitVec 32928) (i : Nat) : Nat → BitVec 96
  | 0 => 0
  | j + 1 =>
    let acc := ldpcSum x i j
    if (ldpcRows j).contains i then acc ^^^ (infoCol x j).rotateRight ((i * (2 * j + 1) + 5 * j) % 96) else acc

/-- Parity block k (R155). -/
def ldpcParity (x : BitVec 32928) : Nat → BitVec 96
  | 0 => ldpcSum x 0 343
  | k + 1 => ldpcSum x (k + 1) 343 ^^^ ldpcParity x k

/-- The codeword of a scrambled information part (R154, R155). -/
def ldpcEncode (x : BitVec 32928) : BitVec 36864 :=
  BitVec.ofNat 36864 (x.toNat + 2 ^ 32928 * ((List.range 41).map fun k => (ldpcParity x k).toNat * 2 ^ (96 * k)).sum)

end Sys2Proof.Machine
end

