-- ==== Sys2Proof/Machine/Access.lean ====
section
/-! DEFINITION. Access to the parts of the state: the layout's numbering of heads (R3, R22 to R25), one modifier per part,
and the counters of R15. -/

namespace Sys2Proof.Machine
open Sys2Proof

/-! ### Vectors -/

/-- A vector with one element changed. -/
def vmod {α : Type} {n : Nat} (v : Vector α n) (i : Fin n) (f : α → α) : Vector α n := v.set i (f v[i])

/-- A vector with one element replaced. -/
def vset {α : Type} {n : Nat} (v : Vector α n) (i : Fin n) (x : α) : Vector α n := v.set i x

/-- Element at a number, the given default outside. -/
def vget {α : Type} {n : Nat} (v : Vector α n) (i : Nat) (d : α) : α := if h : i < n then v[i] else d

/-- A number as an index, if it is one. -/
def fin? (n i : Nat) : Option (Fin n) := if h : i < n then some ⟨i, h⟩ else none

/-- A number as an index of a non-empty range, wrapped. -/
def finMod (n : Nat) (h : 0 < n) (i : Nat) : Fin n := ⟨i % n, Nat.mod_lt _ h⟩

/-- Every index of a range. -/
def fins (n : Nat) : List (Fin n) := List.finRange n

/-! ### Layout -/

/-- Heads configured for an engine, zero for one beyond the layout (R23, R25). -/
def Layout.count (l : Layout) (a : Nat) : Nat := if a < l.engines then vget l.heads a 0 else 0

/-- Heads configured in all. -/
def Layout.total (l : Layout) : Nat := ((List.range 4).map l.count).sum

/-- Global number of the first head of an engine (R3). -/
def Layout.base (l : Layout) (a : Nat) : Nat := ((List.range a).map l.count).sum

/-- The engine is in the layout (R22). -/
def State.enginePresent (s : State) (a : Eng) : Bool := decide (a.val < s.layout.engines)

/-- Global number of head a.h (R3), none where the head is not configured. -/
def State.globalHead (s : State) (a : Eng) (h : Nat) : Option Head :=
  if h < s.layout.count a then fin? 24 (s.layout.base a + h) else none

/-- The engine a global head belongs to and its local number, none where it is not configured. -/
def State.localHead (s : State) (g : Head) : Option (Eng × LHead) :=
  (fins 4).findSome? fun (a : Eng) =>
    let b := s.layout.base a
    if b ≤ g.val ∧ g.val < b + s.layout.count a then (fin? 12 (g.val - b)).map fun h => (a, h) else none

/-- The head lies within the configured layout (R513). -/
def State.headPresent (s : State) (g : Head) : Bool := decide (g.val < s.layout.total)

/-- The engine of a head; engine 0 for a head outside the layout. -/
def State.engineOf (s : State) (g : Head) : Eng := ((s.localHead g).map (·.1)).getD 0

/-- The local number of a head; 0 for a head outside the layout. -/
def State.localOf (s : State) (g : Head) : LHead := ((s.localHead g).map (·.2)).getD 0

/-- The global heads of an engine, in order of local number. -/
def State.headsOf (s : State) (a : Eng) : List Head := (fins 12).filterMap fun (h : LHead) => s.globalHead a h.val

/-- The global heads of an engine whose bit is set in a local-head mask. -/
def State.headsIn (s : State) (a : Eng) (m : BitVec 12) : List Head :=
  (fins 12).filterMap fun (h : LHead) => if m.getLsbD h.val then s.globalHead a h.val else none

/-- The mask bit of a local head. -/
def lbit (h : LHead) : BitVec 12 := 1 <<< h.val

/-- Reader A (slice 2g) and reader B (slice 2g + 1) of a head (R4). -/
def sliceA (g : Head) : SliceIx := ⟨2 * g.val, by omega⟩
/-- See `sliceA`. -/
def sliceB (g : Head) : SliceIx := ⟨2 * g.val + 1, by omega⟩
/-- The slice of a head's reader: 0 reader A, 1 reader B. -/
def sliceOf (g : Head) (r : Fin 2) : SliceIx := ⟨2 * g.val + r.val, by omega⟩
/-- The head a slice samples (R4). -/
def sliceHead (n : SliceIx) : Head := ⟨n.val / 2, by omega⟩
/-- The reader of a slice: 0 reader A, 1 reader B. -/
def sliceReader (n : SliceIx) : Fin 2 := ⟨n.val % 2, by omega⟩

/-- The link of a local head: link 0 serves 0–5, link 1 serves 6–11 (R81). -/
def linkOf (h : LHead) : LinkIx := if h.val < 6 then 0 else 1
/-- The head number at its AFE. -/
def afeHead (h : LHead) : Fin 6 := ⟨h.val % 6, by omega⟩

/-- Links the layout gives an engine: a second AFE for more than six heads (R22). -/
def State.linkPresent (s : State) (a : Eng) (l : LinkIx) : Bool :=
  decide (6 * l.val < s.layout.count a)

/-- The global head of an AFE's head. -/
def State.afeGlobal (s : State) (a : Eng) (l : LinkIx) (j : Fin 6) : Option Head := s.globalHead a (6 * l.val + j.val)

/-! ### Modifiers -/

/-- Change one engine. -/
def State.modEng (s : State) (a : Eng) (f : Engine → Engine) : State := { s with eng := vmod s.eng a f }
/-- Change one engine's timeline. -/
def State.modReel (s : State) (a : Eng) (f : Reel → Reel) : State := s.modEng a fun e => { e with reel := f e.reel }
/-- Change one comparator. -/
def State.modCmp (s : State) (a : Eng) (c : CmpIx) (f : Comparator → Comparator) : State :=
  s.modReel a fun r => { r with cmp := vmod r.cmp c f }
/-- Change one arm link. -/
def State.modLink (s : State) (a : Eng) (l : LinkIx) (f : ArmLink → ArmLink) : State :=
  s.modEng a fun e => { e with links := vmod e.links l f }
/-- Change one engine's recovery sequencer. -/
def State.modRec (s : State) (a : Eng) (f : Recovery → Recovery) : State := s.modEng a fun e => { e with recv := f e.recv }
/-- Change one engine's guard block. -/
def State.modWrg (s : State) (a : Eng) (f : WriteGuard → WriteGuard) : State := s.modEng a fun e => { e with wrg := f e.wrg }
/-- Change one engine's servo. -/
def State.modSrv (s : State) (a : Eng) (f : Servo → Servo) : State := s.modEng a fun e => { e with srv := f e.srv }
/-- Change one engine's sequencer. -/
def State.modSeq (s : State) (a : Eng) (f : Sequencer → Sequencer) : State := s.modEng a fun e => { e with seq := f e.seq }
/-- Change one engine's descriptor cache. -/
def State.modZdc (s : State) (a : Eng) (f : Zdc → Zdc) : State := s.modEng a fun e => { e with zdc := f e.zdc }
/-- Change one engine's core pair. -/
def State.modCore (s : State) (a : Eng) (f : ActCore → ActCore) : State := s.modEng a fun e => { e with core := f e.core }
/-- Change one head unit. -/
def State.modHead (s : State) (g : Head) (f : HeadUnit → HeadUnit) : State := { s with head := vmod s.head g f }
/-- Change one head's write state. -/
def State.modWr (s : State) (g : Head) (f : HeadWrite → HeadWrite) : State := s.modHead g fun h => { h with wr := f h.wr }
/-- Change one head's servo state. -/
def State.modHs (s : State) (g : Head) (f : HeadServo → HeadServo) : State := s.modHead g fun h => { h with srv := f h.srv }
/-- Change one head's detector registers. -/
def State.modDet (s : State) (g : Head) (f : DetRegs → DetRegs) : State := s.modHead g fun h => { h with det := f h.det }
/-- Change one head's map state. -/
def State.modMap (s : State) (g : Head) (f : HeadMap → HeadMap) : State := s.modHead g fun h => { h with map := f h.map }
/-- Change one slice. -/
def State.modSlice (s : State) (n : SliceIx) (f : Slice → Slice) : State := { s with slice := vmod s.slice n f }
/-- Change one lane. -/
def State.modLane (s : State) (l : LaneIx) (f : Lane → Lane) : State := { s with lane := vmod s.lane l f }
/-- Change one codeword slot. -/
def State.modSlot (s : State) (l : LaneIx) (k : SlotIx) (f : Slot → Slot) : State :=
  s.modLane l fun x => { x with slots := vmod x.slots k f }
/-- Change the decoder pool. -/
def State.modPool (s : State) (f : Pool → Pool) : State := { s with pool := f s.pool }
/-- Change the writer slots. -/
def State.modWsl (s : State) (f : WriterSlots → WriterSlots) : State := { s with wsl := f s.wsl }
/-- Change the loop array. -/
def State.modLpe (s : State) (f : LoopArray → LoopArray) : State := { s with lpe := f s.lpe }
/-- Change one loop slot. -/
def State.modLoop (s : State) (n : LoopIx) (f : LoopSlot → LoopSlot) : State :=
  s.modLpe fun l => { l with slots := vmod l.slots n f }
/-- Change the trace buffers. -/
def State.modTrc (s : State) (f : Trace → Trace) : State := { s with trc := f s.trc }
/-- Change the spindle drive. -/
def State.modSpn (s : State) (f : Spindle → Spindle) : State := { s with spn := f s.spn }
/-- Change the media map. -/
def State.modMedia (s : State) (f : MediaMap → MediaMap) : State := { s with media := f s.media }
/-- Change the host link. -/
def State.modHost (s : State) (f : HostLink → HostLink) : State := { s with host := f s.host }
/-- Change one function. -/
def State.modFn (s : State) (n : Fn) (f : FnState → FnState) : State :=
  s.modHost fun h => { h with fns := vmod h.fns n f }
/-- Change queues and contexts. -/
def State.modQ (s : State) (f : Queues → Queues) : State := { s with q := f s.q }
/-- Change the Hetos path. -/
def State.modHet (s : State) (f : Hetos → Hetos) : State := { s with het := f s.het }
/-- Change the power arbiter. -/
def State.modPwr (s : State) (f : Power → Power) : State := { s with pwr := f s.pwr }
/-- Change the memory block. -/
def State.modMem (s : State) (f : MemBlock → MemBlock) : State := { s with mem := f s.mem }
/-- Change the security block. -/
def State.modSec (s : State) (f : Security → Security) : State := { s with sec := f s.sec }
/-- Change the recorder. -/
def State.modEvr (s : State) (f : Recorder → Recorder) : State := { s with evr := f s.evr }
/-- Change the NOR die. -/
def State.modNor (s : State) (f : Nor → Nor) : State := { s with nor := f s.nor }
/-- Change the reset block. -/
def State.modRst (s : State) (f : ResetBlock → ResetBlock) : State := { s with rst := f s.rst }
/-- Change one engine's load state. -/
def State.modAct (s : State) (a : Eng) (f : Actuator → Actuator) : State :=
  s.modRst fun r => { r with act := vmod r.act a f }
/-- Change one engine's power state. -/
def State.modEpw (s : State) (a : Eng) (f : EngPower → EngPower) : State :=
  s.modPwr fun p => { p with eng := vmod p.eng a f }
/-- Change one head's power state. -/
def State.modHpw (s : State) (g : Head) (f : HeadPower → HeadPower) : State :=
  s.modPwr fun p => { p with head := vmod p.head g f }
/-- Change the outputs. -/
def State.modOut (s : State) (f : Outputs → Outputs) : State := { s with out := f s.out }

/-! ### Tables kept as lists -/

/-- Value of a key in an association list. -/
def alookup {α β : Type} [DecidableEq α] (l : List (α × β)) (k : α) : Option β := (l.find? fun p => p.1 = k).map (·.2)

/-- An association list with a key set, the key's old place removed. -/
def aset {α β : Type} [DecidableEq α] (l : List (α × β)) (k : α) (v : β) : List (α × β) :=
  (k, v) :: l.filter fun p => p.1 ≠ k

/-- An association list without a key. -/
def aerase {α β : Type} [DecidableEq α] (l : List (α × β)) (k : α) : List (α × β) := l.filter fun p => p.1 ≠ k

/-- Keys set in a list kept with strictly rising keys. -/
def oset {β : Type} : List (Nat × β) → Nat → β → List (Nat × β)
  | [], k, v => [(k, v)]
  | (j, w) :: t, k, v => if k < j then (k, v) :: (j, w) :: t else if k = j then (k, v) :: t else (j, w) :: oset t k v

/-- A key removed from a list kept with strictly rising keys. -/
def oerase {β : Type} (l : List (Nat × β)) (k : Nat) : List (Nat × β) := l.filter fun p => p.1 ≠ k

/-- Word of a sparse table, 0 where unlisted. -/
def wget (m : WordMap) (i : Nat) : Word := (alookup m i).getD 0
/-- A sparse table of words with one word set, kept canonical: no word 0 is listed. -/
def wset (m : WordMap) (i : Nat) (v : Word) : WordMap := if v = 0 then oerase m i else oset m i v

/-! ### Free values -/

/-- The next free value and the state that has used it (log 2). -/
def State.fresh (s : State) : Nat × State := ((Config.freeValue s.free).toNat, { s with free := s.free + 1 })

/-! ### Counters (R15) -/

/-- An EVT counter of w bits, one more: it stays at all-ones. -/
def inc (w n : Nat) : Nat := satAdd w n 1

/-- The increment reaches all-ones: an EVT counter raises its event. -/
def reaches (w n : Nat) : Bool := decide (n + 1 = 2 ^ w - 1)

end Sys2Proof.Machine
end

