-- ==== Sys2Proof/Machine/Operands.lean ====
section
/-! DEFINITION. The parameter words of packets: fields, their ranges, and clamping (R512, R515, R516). -/

namespace Sys2Proof.Machine
open Sys2Proof

/-- The range of a field (R515). -/
inductive FieldRange where
  /-- Every value of its bits. -/
  | any
  /-- lo to hi. -/
  | within (lo hi : Int)
  /-- "0, or lo to hi": 0 turns the function off. -/
  | zeroOr (lo hi : Int)
  /-- Enumerated: these codes; a reserved code keeps the old value. -/
  | codes (l : List Nat)
  deriving DecidableEq, Repr

/-- A field of a parameter word. -/
structure Field where
  hi : Nat
  lo : Nat
  signed : Bool := false
  range : FieldRange := .any
  deriving DecidableEq, Repr

/-- A field with any value. -/
def fAny (hi lo : Nat) : Field := { hi, lo }
/-- An unsigned field with a range. -/
def fIn (hi lo : Nat) (a b : Int) : Field := { hi, lo, range := .within a b }
/-- A signed field with a range. -/
def fSg (hi lo : Nat) (a b : Int) : Field := { hi, lo, signed := true, range := .within a b }
/-- A field "0, or a to b". -/
def fZero (hi lo : Nat) (a b : Int) : Field := { hi, lo, range := .zeroOr a b }
/-- An enumerated field. -/
def fEnum (hi lo : Nat) (l : List Nat) : Field := { hi, lo, range := .codes l }

/-- The value of a field as sent. -/
def Field.value (f : Field) (w : Word) : Int := if f.signed then sfld w f.hi f.lo else (fld w f.hi f.lo : Int)

/-- The value a field stores (R515). -/
def Field.stored (f : Field) (old sent : Word) : Int :=
  let v := f.value sent
  match f.range with
  | .any => v
  | .within a b => clampInt a b v
  | .zeroOr a b => if v = 0 then 0 else clampInt a b v
  | .codes l => if l.contains v.toNat then v else f.value old

/-- A parameter word with every field clamped and every bit outside the fields cleared (R512, R515). -/
def clampWord (fs : List Field) (old sent : Word) : Word :=
  mkw (fs.map fun f => bfi f.hi f.lo (f.stored old sent))

/-- CLAMP: bit n set where word n stored differs from the word sent (R516). -/
def clampBits (l : List (Nat × Word × Word)) : Nat :=
  (l.map fun (n, sent, stored) => if sent = stored then 0 else 2 ^ n).sum

/-! ### Packets and replies as bytes (R10, R509, R510) -/

/-- The 64 bytes of a command packet (R509): every field of more than one byte is little-endian (R10). -/
def Packet.bytes (op : BitVec 16) (p : Packet) : List Nat :=
  leBytes 2 op.toNat ++ leBytes 2 p.tag.toNat ++ [p.flags.toNat, p.level.toNat] ++ leBytes 2 p.index.toNat ++ wordBytes p.words.toList

/-- A field of n bytes from a byte on. -/
def bytesAt (b : List Nat) (i n : Nat) : Nat := leNat ((b.drop i).take n)

/-- The opcode and the packet that 64 bytes spell (R509), in an exchange of a sender. -/
def packetOf (xid : Nat) (src : Sender) (b : List Nat) : BitVec 16 × Packet :=
  (BitVec.ofNat 16 (bytesAt b 0 2),
    { xid := xid, src := src, tag := BitVec.ofNat 16 (bytesAt b 2 2), flags := BitVec.ofNat 8 (bytesAt b 4 1)
      level := BitVec.ofNat 8 (bytesAt b 5 1), index := BitVec.ofNat 16 (bytesAt b 6 2)
      words := Vector.ofFn fun (i : Fin 14) => nw (bytesAt b (8 + 4 * i.val) 4) })

/-- The n packets that stand one after another in a packet buffer or message (R526, R528). -/
def packetsOf (xid : Nat) (src : Sender) (n : Nat) (b : List Nat) : List (BitVec 16 × Packet) :=
  (List.range n).map fun i => packetOf xid src (b.drop (64 * i))

/-- The 32 bytes of a reply (R510). -/
def Reply.bytes (r : Reply) : List Nat :=
  leBytes 2 r.opcode.toNat ++ leBytes 2 r.status.toNat ++ leBytes 2 r.tag.toNat ++ leBytes 2 r.clamp.toNat ++ wordBytes r.result.toList

/-- Parameter word n. -/
def Packet.w (p : Packet) (n : Nat) : Word := vget p.words n 0

/-- Parameter words of a list of numbers. -/
def Packet.ws (p : Packet) (l : List Nat) : List Word := l.map p.w

end Sys2Proof.Machine
end

