-- ==== Sys2Proof/Machine/RegsEngine.lean ====
section
/-! DEFINITION. The registers of an actuator engine's block as words of the state: ANG (02), ALK (03), REC (06), WRG (07),
SRV (08), SEQ (11), ZDC (12); and the results of their status packets. -/

namespace Sys2Proof.Machine
open Sys2Proof

/-- How a register answers accesses (R12). -/
inductive RegKind where
  | ro | snap | rw | w1c | wo
  deriving DecidableEq, Repr

/-- One register of BAR2: address, kind, live value. -/
structure Reg where
  addr : Nat
  kind : RegKind
  val : Word
  deriving DecidableEq, Repr

/-- BAR2 address of an engine's block. -/
def engBase (a : Nat) : Nat := 0x100000 + a * 0x100000

/-- The engine is marked failed (R27, R648, R650). -/
def State.engineFailed (s : State) (a : Eng) : Bool := s.eng[a].core.failed || s.rst.act[a].state == .failed

/-- The heads of an engine have left the ramp: a loaded or loading engine. -/
def State.engineLoaded (s : State) (a : Eng) : Bool := s.rst.act[a].state == .loaded

/-- The reference engine (R62): the lowest-numbered engine present in LOCKED or FLYWHEEL, else in ACQUIRE or SPINDLE, else the
lowest-numbered present. -/
def State.refEngine (s : State) : Eng :=
  let p := (fins 4).filter s.enginePresent
  ((p.find? fun a => s.eng[a].reel.state == .locked || s.eng[a].reel.state == .flywheel).orElse fun _ =>
    (p.find? fun a => s.eng[a].reel.state == .acquire || s.eng[a].reel.state == .spindle).orElse fun _ =>
      p.head?).getD 0

/-! ### ANG -/

/-- ANG_STATUS. -/
def rAngStatus (s : State) (a : Eng) : Word :=
  let r := s.eng[a].reel
  mkw [bf 31 29 r.state.code, bb 28 (s.refEngine == a), bb 27 r.debtEvt, bf 20 16 r.flyRun, bfi 15 0 r.markErr]

/-- STAMP_LO, STAMP_HI of a stamp. -/
def stampLo (t : Stamp) : Word := mkw [bf 31 16 t.wedge, bf 15 0 t.frac]
/-- See `stampLo`. -/
def stampHi (t : Stamp) : Word := nw t.rev

/-- Owner of a comparator (R69). -/
def cmpOwner (c : CmpIx) : Nat :=
  if c.val < 2 then 0 else if c.val = 2 then 2 else if c.val < 5 then 1 else if c.val < 8 then 0
  else if c.val = 8 then 6 else if c.val < 16 then 0xF else if c.val < 48 then 3
  else if c.val < 60 then 4 else if c.val < 63 then 5 else 7

/-- CMP_CTL. -/
def rCmpCtl (c : CmpIx) (x : Comparator) : Word :=
  mkw [bb 31 x.armed, bb 30 x.late, bf 27 24 (cmpOwner c), bf 23 20 (if cmpOwner c = 3 then x.action else 0),
    bf 11 0 x.headMask.toNat]

/-- MARK_CNT. -/
def rMarkCnt (r : Reel) : Word := mkw [bf 31 16 r.earlyCnt, bf 15 0 r.mismCnt]

/-- ANG_CFG. -/
def rAngCfg (r : Reel) : Word := mkw [bf 31 16 r.markWin.toNat, bf 15 0 r.lateTol.toNat]

/-- Results of reel.status. -/
def stReel (s : State) (a : Eng) : List Word :=
  let r := s.eng[a].reel
  [stampLo r.stamp, stampHi r.stamp] ++ lohi s.mtime ++ [rAngStatus s a, nw r.wper]

/-- The ANG registers. CMP_TGT reads the target held, also between a write and the arming that takes it (log 62). -/
def regsAng (s : State) (a : Eng) : List Reg :=
  let r := s.eng[a].reel
  let b := engBase a
  [⟨b, .ro, rAngStatus s a⟩, ⟨b + 0x4, .wo, 0⟩, ⟨b + 0x8, .snap, stampLo r.stamp⟩, ⟨b + 0xC, .snap, stampHi r.stamp⟩,
    ⟨b + 0x10, .snap, nw s.mtime⟩, ⟨b + 0x14, .snap, nw (s.mtime / 2 ^ 32)⟩, ⟨b + 0x18, .snap, nw r.wper⟩,
    ⟨b + 0x1C, .ro, nw r.fracInc⟩, ⟨b + 0x20, .snap, iw r.skew⟩, ⟨b + 0x24, .rw, rAngCfg r⟩,
    ⟨b + 0x28, .snap, nw r.lateCnt⟩, ⟨b + 0x2C, .snap, nw r.flyCnt⟩, ⟨b + 0x30, .snap, rMarkCnt r⟩,
    ⟨b + 0x34, .snap, nw r.slipCnt⟩, ⟨b + 0x38, .snap, nw r.debt⟩, ⟨b + 0x3C, .snap, nw r.debtMax⟩] ++
  (fins 64).flatMap fun (c : CmpIx) =>
    let x := r.cmp[c]
    let o := b + 0x100 + c.val * 0x20
    [⟨o, .w1c, rCmpCtl c x⟩, ⟨o + 0x4, .rw, nw x.repeat_.toNat⟩, ⟨o + 0x8, .rw, stampLo x.target⟩,
      ⟨o + 0xC, .rw, stampHi x.target⟩, ⟨o + 0x10, .ro, nw x.lateness⟩]

/-! ### ALK -/

/-- LINK code. -/
def LinkState.num : LinkState → Nat
  | .down => 0 | .training => 1 | .up => 2 | .failed => 3

/-- ALK_STATUS. -/
def rAlkStatus (l : ArmLink) : Word :=
  mkw [bf 31 30 l.state.num, bb 29 l.stale, bb 28 l.afeSafe, bf 27 24 l.trainAtt, bf 23 16 l.lastAck.toNat,
    bf 5 0 l.faultMask.toNat]

/-- ALK_CFG. -/
def rAlkCfg (l : ArmLink) : Word := mkw [bf 23 16 l.afeWdt.toNat, bf 7 0 l.ackTmo.toNat]

/-- The eight arm-link counters, in register order. -/
def alkCounters (l : ArmLink) : List Nat :=
  [l.nakCnt, l.crcUpCnt, l.ackTmoCnt, l.seqErrCnt, l.symErrCnt, l.staleCnt, l.faultCnt, l.trainCnt]

/-- Results of arm.status. -/
def stArm (s : State) (a : Eng) (l : LinkIx) : List Word :=
  let k := s.eng[a].links[l]
  [rAlkStatus k, rAlkCfg k, nw k.nakCnt, nw k.crcUpCnt, nw k.ackTmoCnt, nw k.staleCnt]

/-- The ALK registers of one link; the snapshot register is link 0's. -/
def regsAlk (s : State) (a : Eng) (l : LinkIx) : List Reg :=
  let k := s.eng[a].links[l]
  let b := engBase a + 0x40000 + l.val * 0x100
  [⟨b, .ro, rAlkStatus k⟩, ⟨b + 0x4, .rw, rAlkCfg k⟩] ++ (if l.val = 0 then [⟨b + 0x8, .wo, 0⟩] else []) ++
    [⟨b + 0xC, .rw, nw k.safeHtr.toNat⟩] ++
    (alkCounters k).zipIdx.map fun (v, i) => ⟨b + 0x10 + 4 * i, .snap, nw v⟩

/-! ### REC -/

/-- Jobs open on an engine. -/
def Recovery.open_ (r : Recovery) : Nat := (r.jobs.toList.filter Option.isSome).length
/-- Capture buffers held by an engine's jobs. -/
def Recovery.captures (r : Recovery) : Nat := (r.jobs.toList.map fun j => (j.map (·.caps)).getD 0).sum
/-- Deep decoders held by an engine's jobs. -/
def Recovery.deepHeld (r : Recovery) : Nat := (r.jobs.toList.filter fun j => ((j.bind (·.deepEng)).isSome)).length

/-- REC_STATUS. -/
def rRecStatus (r : Recovery) : Word :=
  mkw [bf 31 27 r.open_, bf 26 18 r.captures, bf 17 15 r.deepHeld, bb 14 r.spareWarn, bb 13 r.spareFull]

/-- Results of rec.status. -/
def stRec (s : State) (a : Eng) : List Word :=
  let r := s.eng[a].recv
  [rRecStatus r, nw r.unrecCnt, nw r.reallocCnt, nw r.revsCnt, nw r.spareTotal, nw r.spareUsed]

/-- The REC registers. -/
def regsRec (s : State) (a : Eng) : List Reg :=
  let r := s.eng[a].recv
  let b := engBase a + 0x50000
  [⟨b, .ro, rRecStatus r⟩, ⟨b + 0x4, .rw, r.cfg⟩, ⟨b + 0x8, .rw, r.fh⟩, ⟨b + 0xC, .wo, 0⟩] ++
  (r.stepOk.toList.zipIdx.map fun (v, i) => ⟨b + 0x10 + 4 * i, .snap, nw v⟩) ++
  [⟨b + 0x2C, .snap, nw r.unrecCnt⟩, ⟨b + 0x30, .snap, nw r.reallocCnt⟩, ⟨b + 0x34, .snap, nw r.revsCnt⟩,
    ⟨b + 0x38, .ro, nw r.spareTotal⟩, ⟨b + 0x3C, .snap, nw r.spareUsed⟩]

/-! ### WRG -/

/-- The off-track limit in force (R243, R245): OTW_RED while the sensor is frozen. -/
def State.offTrackLimit (s : State) (a : Eng) : Nat :=
  if s.mems.frozen then fld s.eng[a].wrg.cfg 23 16 else fld s.eng[a].wrg.cfg 31 24

/-- The conditions of R242 that force every write gate of an engine off. -/
def State.engineWriteInhibit (s : State) (a : Eng) : Bool :=
  let e := s.eng[a]
  e.wrg.wedgeMissing || e.wrg.shock || e.wrg.rv || e.reel.state != .locked || e.reel.slipFix != .none ||
    e.seq.gatesForced

/-- The conditions of R242 that force one head's write gate off. -/
def State.writeInhibit (s : State) (g : Head) : Bool :=
  match s.localHead g with
  | none => true
  | some (a, h) =>
    let e := s.eng[a]
    let k := e.links[linkOf h]
    let w := s.head[g].wr
    s.engineWriteInhibit a || w.otwTrip || w.asmTrip || w.wrDis || k.faultCond.getLsbD (afeHead h) || k.stale ||
      k.state != .up || e.wrg.trapMask.getLsbD h

/-- Mask of the local heads for which a test of the global head holds. -/
def State.maskOf (s : State) (a : Eng) (f : Head → Bool) : Nat :=
  ((fins 12).map fun (h : LHead) =>
    match s.globalHead a h.val with
    | some g => if f g then 2 ^ h.val else 0
    | none => 0).sum

/-- WRG_STATUS. -/
def rWrgStatus (s : State) (a : Eng) : Word :=
  let w := s.eng[a].wrg
  mkw [bb 31 w.shock, bb 30 w.rv, bb 29 s.mems.frozen, bf 27 16 (s.maskOf a s.writeInhibit),
    bf 11 0 (s.maskOf a fun g => s.head[g].wr.slot.isSome)]

/-- Results of wrt.status for a local head. -/
def stWrt (s : State) (a : Eng) (h : Nat) : List Word :=
  let w := s.eng[a].wrg
  let hw := match s.globalHead a h with
    | some g => s.head[g].wr
    | none => {}
  [rWrgStatus s a, nw w.shockCnt, nw w.rvCnt, nw hw.suspCnt, nw hw.rewrCnt, nw hw.wrelocCnt]

/-- The WRG registers. -/
def regsWrg (s : State) (a : Eng) : List Reg :=
  let w := s.eng[a].wrg
  let b := engBase a + 0x60000
  [⟨b, .ro, rWrgStatus s a⟩, ⟨b + 0x4, .rw, w.cfg⟩, ⟨b + 0x8, .rw, w.shockCfg⟩, ⟨b + 0xC, .wo, 0⟩,
    ⟨b + 0x10, .snap, nw w.shockCnt⟩, ⟨b + 0x14, .snap, nw w.rvCnt⟩, ⟨b + 0x18, .snap, nw w.frzCnt⟩] ++
  (fins 12).flatMap fun (h : LHead) =>
    match s.globalHead a h.val with
    | none => []
    | some g =>
      let x := s.head[g].wr
      let o := b + 0x100 + h.val * 0x10
      [⟨o, .snap, nw x.suspCnt⟩, ⟨o + 4, .snap, nw x.rewrCnt⟩, ⟨o + 8, .snap, nw x.wrelocCnt⟩,
        ⟨o + 0xC, .snap, mkw [bf 31 16 x.otwCnt, bf 15 0 x.asmCnt]⟩]

/-! ### SRV -/

/-- SRV_STATUS. -/
def rSrvStatus (s : State) (a : Eng) : Word :=
  let v := s.eng[a].srv
  mkw [bf 31 29 v.mode.code, bf 28 24 v.lossRun, bf 23 20 v.timingHead, bb 19 v.qdRvOff, bf 18 16 v.galopSet,
    bf 15 12 v.notchOff.toNat, bf 11 0 (s.maskOf a fun g => s.head[g].srv.wrReady)]

/-- VCM_OUT. -/
def rVcmOut (v : Servo) : Word := mkw [bfi 15 0 v.out]
/-- ARM_VEL: the model's velocity in 1/256 track per wedge. -/
def rArmVel (v : Servo) : Word := iw (v.model.v / 2 ^ 22)
/-- MARK_CNT2. -/
def rMarkCnt2 (v : Servo) : Word := mkw [bf 31 16 v.markAltCnt, bf 15 0 v.idxErrCnt]

/-- Results of srv.status. -/
def stSrv (s : State) (a : Eng) : List Word :=
  let v := s.eng[a].srv
  [rSrvStatus s a, rVcmOut v, mkw [bf 29 0 v.armPos], rArmVel v, nw v.lossCnt, nw v.unloadCnt]

/-- The SRV registers. -/
def regsSrv (s : State) (a : Eng) : List Reg :=
  let v := s.eng[a].srv
  let b := engBase a + 0x30000
  [⟨b, .ro, rSrvStatus s a⟩, ⟨b + 0x4, .wo, 0⟩, ⟨b + 0x8, .rw, v.cfg⟩, ⟨b + 0xC, .rw, v.rdy⟩, ⟨b + 0x10, .rw, v.ho⟩,
    ⟨b + 0x14, .snap, rVcmOut v⟩, ⟨b + 0x18, .snap, mkw [bf 29 0 v.armPos]⟩, ⟨b + 0x1C, .ro, mkw [bf 29 0 v.armTgt]⟩,
    ⟨b + 0x20, .snap, rArmVel v⟩, ⟨b + 0x24, .snap, nw v.lossCnt⟩, ⟨b + 0x28, .snap, nw v.unloadCnt⟩,
    ⟨b + 0x2C, .snap, nw v.hoBlendCnt⟩, ⟨b + 0x30, .snap, nw v.seekCnt⟩, ⟨b + 0x34, .snap, rMarkCnt2 v⟩] ++
  ((fins 4).map fun (k : Eng) => ⟨b + 0x40 + 4 * k.val, .rw, if k = a then 0 else v.qdK[k]⟩) ++
  [⟨b + 0x50, .rw, v.qdRv⟩] ++ (v.notch.toList.zipIdx.map fun (w, i) => ⟨b + 0x60 + 4 * i, .rw, w⟩)

/-! ### SEQ -/

/-- SEQ_STATUS. -/
def rSeqStatus (q : Sequencer) : Word :=
  mkw [bf 31 29 q.state.code, bf 28 28 q.bank.val, bf 27 24 q.trapPend.toNat, bf 23 20 q.jobPend, bf 12 0 q.upc]
/-- SEQ_VER. -/
def rSeqVer (q : Sequencer) : Word := mkw [bf 31 16 q.storeVer, bf 15 8 q.patchLvl]
/-- SEQ_JOB. -/
def rSeqJob (q : Sequencer) : Word := mkw [bf 31 16 q.jobE, bf 15 0 q.jobS]
/-- SEQ_CFG. -/
def rSeqCfg (q : Sequencer) : Word := mkw [bf 31 24 q.waitMax, bf 23 19 q.rdTail, bf 11 0 q.wenLead]
/-- SEQ_GATES. -/
def rSeqGates (s : State) (a : Eng) : Word :=
  mkw [bf 27 16 (s.maskOf a fun g => s.head[g].wr.writeGate), bf 11 0 (s.maskOf a fun g => s.head[g].wr.readGate)]
/-- TRAP_CNT: SLIP, UNLOCK, WAIT_TMO, CORE. -/
def rTrapCnt (q : Sequencer) : Word :=
  mkw [bf 31 24 q.trapCnt[0], bf 23 16 q.trapCnt[1], bf 15 8 q.trapCnt[2], bf 7 0 q.trapCnt[3]]

/-- Results of seq.status. -/
def stSeq (s : State) (a : Eng) : List Word :=
  let q := s.eng[a].seq
  [rSeqStatus q, rSeqVer q, nw q.fq.length, nw q.mcCnt, rTrapCnt q, nw q.lateArmCnt]

/-- The SEQ registers. -/
def regsSeq (s : State) (a : Eng) : List Reg :=
  let q := s.eng[a].seq
  let b := engBase a + 0x10000
  [⟨b, .ro, rSeqStatus q⟩, ⟨b + 0x4, .wo, 0⟩, ⟨b + 0x8, .ro, rSeqVer q⟩, ⟨b + 0xC, .rw, rSeqJob q⟩,
    ⟨b + 0x10, .rw, rSeqCfg q⟩, ⟨b + 0x14, .ro, rSeqGates s a⟩, ⟨b + 0x18, .ro, nw q.fq.length⟩] ++
  (q.tsv.toList.zipIdx.map fun (w, i) => ⟨b + 0x20 + 4 * i, .ro, w⟩) ++
  [⟨b + 0x40, .ro, q.mcAddr⟩, ⟨b + 0x44, .snap, nw q.mcCnt⟩, ⟨b + 0x48, .snap, rTrapCnt q⟩,
    ⟨b + 0x4C, .snap, nw q.lateArmCnt⟩, ⟨b + 0x50, .snap, nw q.notrdyCnt⟩, ⟨b + 0x54, .snap, nw q.stallCnt⟩]

/-! ### ZDC -/

/-- The line is CLEAN or DIRTY. -/
def ZdcLine.held (l : ZdcLine) : Bool := l.state == .clean || l.state == .dirty
/-- Maintenance is in progress: a flush or invalidate waits on a line. -/
def Zdc.maint (z : Zdc) : Bool := !z.invVictims.isEmpty || z.lines.toList.any fun l => l.flushWait || l.invWait
/-- Lines that are pinned. -/
def Zdc.pinned (z : Zdc) : Nat := (z.lines.toList.filter fun l => 0 < l.pins).length

/-- ZDC_STATUS. -/
def rZdcStatus (z : Zdc) : Word :=
  let l := z.lines.toList
  mkw [bf 31 26 (l.filter ZdcLine.held).length, bf 25 20 (l.filter fun x => x.state == .dirty).length,
    bf 19 14 z.pinned, bf 13 11 (z.victims.toList.filter fun v => v.state != .free).length, bb 10 z.maint]
/-- ZDC_CFG. -/
def rZdcCfg (z : Zdc) : Word := mkw [bf 31 26 z.pinMax, bb 0 z.depKeep]
/-- LINE_TAG. -/
def rLineTag (l : ZdcLine) : Word := mkw [bf 31 29 l.state.code, bf 28 24 (min l.pins 31), bf 16 0 l.zone]
/-- VIC_TAG. -/
def rVicTag (v : Victim) : Word := mkw [bf 31 30 v.state.code, bb 29 v.dirty, bf 16 0 v.zone]

/-- Results of zone.cache_status. -/
def stZdc (s : State) (a : Eng) : List Word :=
  let z := s.eng[a].zdc
  [rZdcStatus z, nw z.hitCnt, nw z.missCnt, nw z.evictCnt, nw z.vhitCnt, nw z.lerrCnt]

/-- The ZDC registers. -/
def regsZdc (s : State) (a : Eng) : List Reg :=
  let z := s.eng[a].zdc
  let b := engBase a + 0x20000
  [⟨b, .ro, rZdcStatus z⟩, ⟨b + 0x4, .wo, 0⟩, ⟨b + 0x8, .rw, rZdcCfg z⟩] ++
  ((fins 8).flatMap fun (n : Fin 8) =>
    [⟨b + 0x20 + 8 * n.val, .rw, z.rbase[n]⟩, ⟨b + 0x24 + 8 * n.val, .rw, z.rlim[n]⟩]) ++
  ([z.hitCnt, z.missCnt, z.evictCnt, z.wbCnt, z.declineCnt, z.vhitCnt, z.mwaitCnt, z.lerrCnt].zipIdx.map fun (v, i) =>
    ⟨b + 0x60 + 4 * i, .snap, nw v⟩) ++
  (z.lines.toList.zipIdx.map fun (l, i) => ⟨b + 0x100 + 4 * i, .ro, rLineTag l⟩) ++
  (z.victims.toList.zipIdx.map fun (v, i) => ⟨b + 0x200 + 4 * i, .ro, rVicTag v⟩)

end Sys2Proof.Machine
end

