-- ==== Sys2Proof/Machine/RegsHead.lean ====
section
/-! DEFINITION. The registers of the head units, of the SLC and DEC status blocks and of the decoder pool as words of the
state (04, 05, 06, 07, 08, 12); and the results of their status packets. -/

namespace Sys2Proof.Machine
open Sys2Proof

/-- BAR2 address of a head unit's block. -/
def hdBase (s : State) (g : Head) : Nat := engBase (s.engineOf g) + 0x80000 + (s.localOf g).val * 0x8000

/-! ### SLC -/

/-- FIFO_LVL: the level the read side sees (R104). -/
def Slice.fifoLvl (x : Slice) : Nat := (ungray x.wrSync.2 - ungray x.rdPtr).toNat

/-- SLC_STATUS. -/
def rSlcStatus (x : Slice) : Word :=
  mkw [bf 31 29 x.state.code, bb 28 x.underrun, bb 27 x.overrun, bb 26 x.tmo, bb 25 x.fLimit, bb 24 x.wakeLate,
    bb 23 x.seedLim, bf 22 16 x.fifoLvl, bb 15 x.srvDc, bf 5 0 x.band]
/-- SLC_GB. -/
def rSlcGb (x : Slice) : Word := mkw [bf 31 16 x.gain, bfi 15 0 (x.bias / 65536)]
/-- FLT_CNT. -/
def rFltCnt (x : Slice) : Word := mkw [bf 31 16 x.tmoCnt, bf 15 0 x.overrunCnt]
/-- MISC_CNT. -/
def rMiscCnt (x : Slice) : Word := mkw [bf 31 16 x.flimCnt, bf 15 0 x.wakeLateCnt]

/-- Results of slice.status for one reader. -/
def stSlice (s : State) (n : SliceIx) : List Word :=
  let x := s.slice[n]
  [rSlcStatus x, nw x.seed, iw s.head[sliceHead n].freq, rSlcGb x, nw x.underrunCnt, rFltCnt x]

/-- The SLC block. -/
def regsSlc (s : State) : List Reg :=
  let flt := fun lo n => mkw ((List.range n).map fun i =>
    match s.slice[lo + i]? with
    | some x => bb i (x.state == .fault || x.state == .failed)
    | none => 0)
  let b := 0x700000
  [⟨b, .ro, flt 0 32⟩, ⟨b + 0x4, .ro, flt 32 16⟩, ⟨b + 0x8, .wo, 0⟩, ⟨b + 0x10, .ro, iw s.spn.ramp⟩] ++
  (fins 48).flatMap fun (n : SliceIx) =>
    let x := s.slice[n]
    let o := b + 0x100 + n.val * 0x40
    [⟨o, .ro, rSlcStatus x⟩, ⟨o + 0x4, .snap, nw x.seed⟩, ⟨o + 0x8, .snap, iw s.head[sliceHead n].freq⟩,
      ⟨o + 0xC, .snap, rSlcGb x⟩, ⟨o + 0x10, .ro, mkw [bf 15 0 x.lat]⟩, ⟨o + 0x14, .snap, nw x.underrunCnt⟩,
      ⟨o + 0x18, .snap, nw x.clipCnt⟩, ⟨o + 0x1C, .snap, nw x.satCnt⟩, ⟨o + 0x20, .snap, nw x.dropCnt⟩,
      ⟨o + 0x24, .snap, rFltCnt x⟩, ⟨o + 0x28, .snap, rMiscCnt x⟩]

/-! ### DEC lanes -/

/-- The lane bound to a head (R5). -/
def State.laneOf (s : State) (g : Head) : Option LaneIx :=
  (fins 24).find? fun (l : LaneIx) => s.lane[l].bind.head == some g

/-- LANE_STATUS. -/
def rLaneStatus (x : Lane) : Word :=
  mkw [bb 31 x.bind.head.isSome, bf 28 24 ((x.bind.head.map (·.val)).getD 0),
    bf 23 12 (x.slots[0].state.code + 8 * x.slots[1].state.code + 64 * x.slots[2].state.code +
      512 * x.slots[3].state.code), bf 11 8 x.lastGlob, bf 3 0 x.lastOut]
/-- FAIL_A, FAIL_B, FAIL_C. -/
def rFail (x : Lane) : List Word :=
  [mkw [bf 31 16 x.crcFailCnt, bf 15 0 x.noconvCnt], mkw [bf 31 16 x.misalCnt, bf 15 0 x.addrErrCnt],
    mkw [bf 31 16 x.cutCnt, bf 15 0 x.noslotCnt]]

/-- The lane of a head, or an unbound one. -/
def State.headLane (s : State) (g : Head) : Lane :=
  match s.laneOf g with
  | some l => s.lane[l]
  | none => {}

/-- Results of det.status. -/
def stDet (s : State) (g : Head) : List Word :=
  let x := s.headLane g
  [rLaneStatus x, x.lastSync, x.lastSw] ++ lohi x.cw ++ [nw x.flysyncCnt]

/-- The lane registers of the DEC block. -/
def regsLane (s : State) : List Reg :=
  ⟨0x600008, .wo, 0⟩ :: (fins 24).flatMap fun (l : LaneIx) =>
    let x := s.lane[l]
    let o := 0x600100 + l.val * 0x80
    [⟨o, .ro, rLaneStatus x⟩, ⟨o + 0x4, .ro, x.lastSync⟩, ⟨o + 0x8, .ro, x.lastSw⟩, ⟨o + 0xC, .snap, nw x.cw⟩,
      ⟨o + 0x10, .snap, nw (x.cw / 2 ^ 32)⟩] ++
    (x.conv.toList.zipIdx.map fun (v, i) => ⟨o + 0x14 + 4 * i, .snap, nw v⟩) ++
    [⟨o + 0x2C, .snap, nw x.flysyncCnt⟩] ++
    ((rFail x).zipIdx.map fun (v, i) => ⟨o + 0x30 + 4 * i, .snap, v⟩) ++ [⟨o + 0x3C, .snap, nw x.eraseCnt⟩]

/-! ### Decoder pool -/

/-- The level PRIO_CFG gives a request's class (R192). -/
def Pool.classLevel (p : Pool) (cls : Nat) : Nat :=
  match cls with
  | 0 => fld p.prio 31 30
  | 1 => fld p.prio 29 28
  | 2 => fld p.prio 27 26
  | 3 => fld p.prio 25 24
  | 4 => fld p.prio 23 22
  | 5 => fld p.prio 19 18
  | _ => fld p.prio 17 16

/-- The current level of a request (R192, R193): PRIO_PRESS at least for a lane without a FREE slot. -/
def State.reqLevel (s : State) (r : ReqIx) (q : PoolReq) : Nat :=
  let press := match fin? 24 r.val with
    | some l => if s.lane[l].slots.toList.any fun k => k.state == .free then 0 else fld s.pool.prio 21 20
    | none => 0
  max (max (s.pool.classLevel q.cls) q.raised) press

/-- Effective level of a request: 4 once its requester is promoted (R194). -/
def State.effLevel (s : State) (r : ReqIx) (q : PoolReq) : Nat :=
  if s.pool.reqs[r].promoted.isSome then 4 else s.reqLevel r q

/-- POOL_STATUS. -/
def rPoolStatus (p : Pool) : Word :=
  let e := p.engines.toList
  let busy := fun (x : PoolEngine) => x.state == .held || x.state == .finalBeat
  mkw [bf 31 26 ((e.take 36).filter busy).length, bf 25 23 ((e.drop 36).filter busy).length,
    bf 22 16 (min 127 (p.reqs.toList.map fun r => r.pending.length).sum),
    bf 15 11 (p.reqs.toList.filter fun r => r.promoted.isSome).length]
/-- ENG_STATUS. -/
def rEngStatus (e : PoolEngine) : Word :=
  mkw [bf 31 30 e.state.code, bb 29 e.parked, bf 28 24 e.owner, bf 23 21 e.ownPrio, bf 17 12 e.glob]
/-- ENG_BUSY, in units of 1 024 clocks, SAT. -/
def rEngBusy (e : PoolEngine) : Word := nw (min (e.busy / 1024) (2 ^ 32 - 1))
/-- REQ_STATUS. -/
def rReqStatus (s : State) (r : ReqIx) : Word :=
  let p := s.pool
  let x := p.reqs[r]
  mkw [bf 31 29 (match x.pending with
      | q :: _ => s.effLevel r q
      | [] => 0), bf 23 16 x.loss, bf 15 8 x.pending.length,
    bf 7 0 (p.engines.toList.filter fun e => (e.state == .held || e.state == .finalBeat) && e.owner == r.val).length]

/-- Results of pool.status. -/
def stPool (s : State) : List Word :=
  [rPoolStatus s.pool, s.pool.cfg, s.pool.prio, nw s.pool.guardCnt, s.pool.guardVict]

/-- The pool registers of the DEC block. -/
def regsPool (s : State) : List Reg :=
  let p := s.pool
  let b := 0x600000
  [⟨b + 0x1000, .ro, rPoolStatus p⟩, ⟨b + 0x1004, .ro, p.cfg⟩, ⟨b + 0x1008, .ro, p.prio⟩,
    ⟨b + 0x100C, .snap, nw p.guardCnt⟩, ⟨b + 0x1010, .ro, p.guardVict⟩] ++
  ((fins 40).flatMap fun (e : DecIx) =>
    let x := p.engines[e]
    let o := b + 0x1100 + e.val * 0x10
    [⟨o, .ro, rEngStatus x⟩, ⟨o + 4, .snap, nw x.cw⟩, ⟨o + 8, .snap, rEngBusy x⟩]) ++
  (fins 28).flatMap fun (r : ReqIx) =>
    let x := p.reqs[r]
    let o := b + 0x1400 + r.val * 0x10
    [⟨o, .ro, rReqStatus s r⟩, ⟨o + 4, .snap, nw x.grantCnt⟩, ⟨o + 8, .snap, nw x.starveCnt⟩,
      ⟨o + 0xC, .snap, nw x.waitMax⟩]

/-! ### Head units -/

/-- The slice registers of one reader as stored words. -/
def SliceRegs.words (r : SliceRegs) : List Word := [r.fe, r.base, r.asym, r.agc, r.tl, r.bpw, r.phofs, r.fifo]

/-- WR_STATUS. -/
def rWrStatus (w : HeadWrite) : Word :=
  mkw [bb 31 w.slot.isSome, bb 30 w.wrDis, bb 29 w.preheated, bf 23 16 (min 255 (w.suspects.filter fun x => x.written.isNone).length),
    bf 15 12 (min 15 w.strikes.length), bf 3 0 ((w.slot.map (·.val)).getD 0)]

/-- The write registers of a band, in register order. -/
def WriteBand.words (w : WriteBand) : List Word := [w.cfg, w.pre0, w.pre1, w.htr, w.asst0, w.asst1, w.asst2]

/-- SRV_HSTAT. -/
def rSrvHstat (h : HeadServo) : Word :=
  mkw [bb 31 h.valid, bb 30 h.lost, bb 29 h.wrReady, bb 28 h.rdReady, bf 27 23 h.hloss, bb 22 h.active,
    bf 21 20 h.notchOff.toNat, bf 19 18 h.rdrUsed, bfi 15 0 h.pe]
/-- FLD_CNT. -/
def rFldCnt (h : HeadServo) : Word := mkw [bf 31 16 h.frzCnt, bf 15 0 h.grayFixCnt]
/-- ERR_CNT. -/
def rErrCnt (h : HeadServo) : Word := mkw [bf 31 16 h.grayErrCnt, bf 15 0 h.xdisCnt]
/-- MA_OUT. -/
def rMaOut (h : HeadServo) : Word := mkw [bfi 11 0 h.maOut]

/-- Results of srv.hstatus. -/
def stSrvH (s : State) (g : Head) : List Word :=
  let h := s.head[g].srv
  [rSrvHstat h, mkw [bf 29 0 h.pos], rMaOut h, nw h.invalCnt, rFldCnt h, nw h.lostCnt]

/-- HMAP_STATUS. -/
def rHmap (m : HeadMap) : Word := mkw [bb 31 m.depop, bf 29 24 m.band, bf 21 0 m.track]

/-- The registers of one head unit. -/
def regsHead (s : State) (g : Head) : List Reg :=
  let u := s.head[g]
  let b := hdBase s g
  ((fins 2).flatMap fun (r : Fin 2) => (u.rd[r].words.zipIdx.map fun (w, i) => ⟨b + 0x400 + r.val * 0x40 + 4 * i, .rw, w⟩)) ++
  [⟨b + 0x500, .rw, u.det.band.iter⟩, ⟨b + 0x504, .rw, u.det.band.tgt⟩, ⟨b + 0x508, .rw, u.det.band.adapt⟩,
    ⟨b + 0x50C, .rw, u.det.scale⟩] ++
  (u.det.active.wa.toList.zipIdx.map fun (w, i) => ⟨b + 0x540 + 4 * i, .rw, mkw [bf 11 0 w.toNat]⟩) ++
  (u.det.active.wb.toList.zipIdx.map fun (w, i) => ⟨b + 0x564 + 4 * i, .rw, mkw [bf 11 0 w.toNat]⟩) ++
  (u.det.band.npPred.toList.zipIdx.map fun (w, i) => ⟨b + 0x600 + 8 * i, .rw, w⟩) ++
  (u.det.band.npNoise.toList.zipIdx.map fun (w, i) => ⟨b + 0x604 + 8 * i, .rw, w⟩) ++
  (u.wr.band.words.zipIdx.map fun (w, i) => ⟨b + 0x600 + 4 * i, .rw, w⟩) ++
  [⟨b + 0x61C, .rw, u.wr.lead⟩, ⟨b + 0x620, .rw, u.wr.asm⟩, ⟨b + 0x624, .ro, rWrStatus u.wr⟩] ++
  [⟨b + 0x800, .ro, rSrvHstat u.srv⟩, ⟨b + 0x804, .snap, mkw [bf 29 0 u.srv.pos]⟩, ⟨b + 0x808, .ro, mkw [bf 29 0 u.srv.tgt]⟩,
    ⟨b + 0x80C, .rw, u.srv.xofs⟩, ⟨b + 0x810, .rw, u.srv.rdrXofs⟩, ⟨b + 0x814, .rw, u.srv.pesGain⟩,
    ⟨b + 0x818, .rw, u.srv.maCfg⟩, ⟨b + 0x81C, .snap, rMaOut u.srv⟩, ⟨b + 0x820, .rw, u.srv.maNotch[0]⟩,
    ⟨b + 0x824, .rw, u.srv.maNotch[1]⟩, ⟨b + 0x828, .snap, nw u.srv.invalCnt⟩, ⟨b + 0x82C, .snap, rFldCnt u.srv⟩,
    ⟨b + 0x830, .snap, rErrCnt u.srv⟩, ⟨b + 0x834, .snap, nw u.srv.lostCnt⟩] ++
  [⟨b + 0xA00, .ro, rHmap u.map⟩, ⟨b + 0xA04, .ro, mkw [bf 21 0 u.map.bandTrk]⟩,
    ⟨b + 0xA08, .ro, mkw [bf 31 16 u.map.dfStart, bf 15 0 u.map.dfEnd]⟩,
    ⟨b + 0xA0C, .ro, mkw [bf 31 16 u.map.trkGap, bf 10 0 u.map.spt]⟩, ⟨b + 0xA10, .snap, nw u.map.grownCnt⟩]

end Sys2Proof.Machine
end

