-- ==== Sys2Proof/Machine/RegsLoop.lean ====
section
/-! DEFINITION. The registers of the loop engine array and the trace buffers (09) and of the spindle drive (10) as words of
the state; and the results of their status packets. -/

namespace Sys2Proof.Machine
open Sys2Proof

/-! ### Loop slots -/

/-- KIND of a slot (R297): 1 VCM, 2 MA, 3 HEATER, 4 ASSIST, 5 SPINDLE, 6 THERMAL; slots 85–127 are 7 (CAL) only while a
calibration procedure runs, else 0. -/
def loopKind (s : State) (n : LoopIx) : Nat :=
  if n.val < 4 then 1 else if n.val < 28 then 2 else if n.val < 52 then 3 else if n.val < 76 then 4
  else if n.val = 76 then 5 else if n.val < 85 then 6 else if s.lpe.calRunning then 7 else 0

/-- TGT_IDX of a slot (R297): engine, global head or thermal zone served. -/
def loopTarget (n : LoopIx) : Nat :=
  if n.val < 4 then n.val else if n.val < 28 then n.val - 4 else if n.val < 52 then n.val - 28
  else if n.val < 76 then n.val - 52 else if n.val = 76 then 0 else if n.val < 85 then n.val - 77 else 0

/-- The head a slot serves: MA, HEATER and ASSIST slots. -/
def loopHead (n : LoopIx) : Option Head :=
  if 4 ≤ n.val ∧ n.val < 76 then fin? 24 (loopTarget n) else none

/-- The engine a slot serves. -/
def State.loopEngine (s : State) (n : LoopIx) : Option Eng :=
  if n.val < 4 then fin? 4 n.val else (loopHead n).map s.engineOf

/-- Slots of an engine's voice-coil motor and of a head's microactuator, heater and assist. -/
def vcmSlot (a : Eng) : LoopIx := ⟨a.val, by omega⟩
/-- See `vcmSlot`. -/
def maSlot (g : Head) : LoopIx := ⟨4 + g.val, by omega⟩
/-- See `vcmSlot`. -/
def htrSlot (g : Head) : LoopIx := ⟨28 + g.val, by omega⟩
/-- See `vcmSlot`. -/
def asstSlot (g : Head) : LoopIx := ⟨52 + g.val, by omega⟩
/-- The spindle speed slot. -/
def spnSlot : LoopIx := 76
/-- The slot of thermal zone z. -/
def thermSlot (z : Fin 8) : LoopIx := ⟨77 + z.val, by omega⟩

/-- BAR2 address of a slot's block. -/
def lpBase (n : LoopIx) : Nat := 0x510000 + n.val * 0x800

/-- A signal in the accumulator format 2^−30 as a Q2.30 word, saturated. -/
def q230 (x : Int) : Word := iw (satInt 32 x)

/-- LP_CTL. -/
def rLpCtl (s : State) (n : LoopIx) : Word :=
  let x := s.lpe.slots[n]
  mkw [bf 31 28 (loopKind s n), bf 23 16 (loopTarget n), bf 15 8 x.frzN, bf 7 4 x.lostN, bf 1 1 x.actBank.val,
    bb 0 x.en]
/-- LP_STATUS. -/
def rLpStatus (x : LoopSlot) : Word :=
  mkw [bf 31 28 x.lmode.code, bb 27 x.swapPend, bb 26 x.debtEvt, bb 25 x.frozen, bb 24 x.oClamp, bb 23 x.iClamp,
    bf 22 20 x.blendK, bf 19 16 x.lostRun, bf 15 8 x.frzRun]
/-- BANK_TAG: the tags of bank 1 and bank 0. -/
def rBankTag (x : LoopSlot) : Word :=
  mkw [bf 31 16 (wget x.banks[1] 18).toNat, bf 15 0 (wget x.banks[0] 18).toNat]

/-- Results of loop.status. -/
def stLoop (s : State) (n : LoopIx) : List Word :=
  let x := s.lpe.slots[n]
  [rLpCtl s n, rLpStatus x, q230 x.spEff, q230 x.meas, q230 x.out, nw x.debt]

/-- LPE_STATUS. -/
def rLpeStatus (l : LoopArray) : Word :=
  let c := fun (f : LoopSlot → Bool) => (l.slots.toList.filter f).length
  mkw [bf 31 24 ((l.pipes.toList.zipIdx.map fun (p, i) => bb i p.isSome).sum), bf 23 16 (c (·.en)),
    bf 15 8 (c fun x => x.en && x.lmode == .fallback), bf 7 0 (c fun x => decide (0 < x.debt))]

/-- The LPE block. -/
def regsLpe (s : State) : List Reg :=
  let l := s.lpe
  let b := 0x500000
  let mask := fun (k : Nat) (f : LoopSlot → Bool) => mkw ((List.range 32).map fun j =>
    match l.slots[32 * k + j]? with
    | some x => bb j (f x)
    | none => 0)
  [⟨b, .ro, rLpeStatus l⟩, ⟨b + 0x4, .wo, 0⟩, ⟨b + 0x8, .rw, nw l.thermPer⟩] ++
  ((List.range 4).map fun k => ⟨b + 0x10 + 4 * k, .ro, mask k (·.en)⟩) ++
  ((List.range 4).map fun k => ⟨b + 0x20 + 4 * k, .ro, mask k fun x => x.lmode == .fallback⟩) ++
  (fins 128).flatMap fun (n : LoopIx) =>
    let x := l.slots[n]
    let o := lpBase n
    [⟨o, .rw, rLpCtl s n⟩, ⟨o + 0x4, .ro, rLpStatus x⟩, ⟨o + 0x8, .ro, q230 x.spTgt⟩, ⟨o + 0xC, .snap, q230 x.spEff⟩,
      ⟨o + 0x10, .snap, q230 x.meas⟩, ⟨o + 0x14, .snap, q230 x.out⟩, ⟨o + 0x18, .snap, q230 x.uff⟩,
      ⟨o + 0x1C, .snap, q230 x.integ⟩, ⟨o + 0x20, .snap, nw x.debt⟩, ⟨o + 0x24, .snap, nw x.debtMax⟩,
      ⟨o + 0x28, .snap, nw x.lateCnt⟩, ⟨o + 0x2C, .snap, nw x.fbCnt⟩, ⟨o + 0x30, .snap, nw x.clampCnt⟩,
      ⟨o + 0x34, .snap, nw x.swapCnt⟩, ⟨o + 0x38, .ro, rBankTag x⟩] ++
    ((List.range 192).map fun i => ⟨o + 0x100 + 4 * i, .ro, wget x.banks[0] i⟩) ++
    (List.range 192).map fun i => ⟨o + 0x400 + 4 * i, .ro, wget x.banks[1] i⟩

/-! ### Trace -/

/-- TSTATE code. -/
def TraceState.code : TraceState → Nat
  | .idle => 0 | .armed => 1 | .triggered => 2 | .done => 3

/-- TRC_STATUS. -/
def rTrcStatus (t : Trace) : Word := mkw [bf 31 30 t.state.code, bf 29 27 t.src.toNat, bf 15 0 t.short.toNat]
/-- TRC_CFG. -/
def rTrcCfg (t : Trace) : Word := mkw [bf 28 16 t.pre, bb 2 t.tPkt, bb 1 t.tEvt, bb 0 t.tAng]

/-- Results of trace.status. -/
def stTrc (s : State) : List Word :=
  let t := s.trc
  [rTrcStatus t, rTrcCfg t] ++ lohi t.trigAt ++ [nw t.missCnt, nw (t.saveCnt % 65536)]

/-- The TRC block. -/
def regsTrc (s : State) : List Reg :=
  let t := s.trc
  let b := 0x800000
  [⟨b, .ro, rTrcStatus t⟩, ⟨b + 0x4, .wo, 0⟩, ⟨b + 0x8, .rw, rTrcCfg t⟩, ⟨b + 0xC, .rw, mkw [bf 15 0 t.trigType.toNat]⟩,
    ⟨b + 0x10, .snap, nw t.trigAt⟩, ⟨b + 0x14, .snap, nw (t.trigAt / 2 ^ 32)⟩, ⟨b + 0x18, .ro, nw t.missCnt⟩,
    ⟨b + 0x1C, .ro, nw (t.saveCnt % 65536)⟩] ++
  (fins 16).flatMap fun (c : Fin 16) =>
    [⟨b + 0x100 + 8 * c.val, .rw, t.chans[c].src⟩,
      ⟨b + 0x104 + 8 * c.val, .ro, mkw [bf 28 16 t.chans[c].trigIdx, bf 12 0 t.chans[c].firstIdx]⟩]

/-! ### Spindle -/

/-- Some engine's timeline is LOCKED. -/
def State.anyLocked (s : State) : Bool := (fins 4).any fun (a : Eng) => s.enginePresent a && s.eng[a].reel.state == .locked

/-- Bolero runs (R358): BOL_ON. -/
def State.bolOn (s : State) : Bool := s.spn.state == .run && s.spn.eff.bolEn && !s.spn.stopping && s.anyLocked

/-- The braking in force (R363, R364, R366): BRK_MODE. -/
def Spindle.brkMode (p : Spindle) : BrkMode :=
  if p.brkStop then .float
  else match p.state with
    | .detect | .coast | .catch_ => .float
    | .brake => if p.brakePhase = .short then .short else .float
    | .run => if p.slowing then (if p.nRef < 9600 ∨ p.chopFault ∨ p.chopHot then .short else .regen) else .none
    | _ => .none

/-- SPN_STATUS. -/
def rSpnStatus (s : State) : Word :=
  let p := s.spn
  mkw [bf 31 28 p.state.code, bf 27 25 p.band, bb 24 s.bolOn, bb 23 p.limPwr, bb 22 p.chopFault, bb 21 p.chopHot,
    bb 20 p.ov, bb 19 p.brkStop, bf 18 17 p.brkMode.code, bb 16 p.swapWait, bf 15 14 p.skipRun, bf 13 8 p.predSteps,
    bb 7 p.pavLim]
/-- SPN_TGT. -/
def rSpnTgt (p : BoleroSet) : Word := mkw [bf 31 16 p.tgt, bb 0 p.bolEn]
/-- SPN_BOLR. -/
def rSpnBolr (p : BoleroSet) : Word := mkw [bf 31 16 p.bolMax, bf 15 0 p.bolMin]
/-- BOL_CFG. -/
def rBolCfg (p : BoleroSet) : Word := mkw [bf 31 22 p.accLim, bf 21 12 p.decLim, bf 11 4 p.dead, bf 3 0 p.idleLim]
/-- BOL_GAIN. -/
def rBolGain (p : BoleroSet) : Word := mkw [bf 31 16 p.kr, bf 15 0 p.kw]
/-- BOL_SET. -/
def rBolSet (p : BoleroSet) : Word := mkw [bf 31 16 p.frSet, bf 15 0 p.fwSet]
/-- SPN_PAV. -/
def rSpnPav (p : Spindle) : Word := mkw [bf 31 16 p.inertia, bf 15 8 p.pDrag, bf 7 0 p.pavE]
/-- SPN_CMD. -/
def rSpnCmd (p : Spindle) : Word := mkw [bf 31 16 p.nPav, bf 15 0 p.nCmd]
/-- SPN_BRK. -/
def rSpnBrk (p : Spindle) : Word := mkw [bb 31 p.chopOn, bf 23 16 p.bucket, bf 15 0 p.chopI]

/-- Results of spindle.status. -/
def stSpn (s : State) : List Word :=
  let p := s.spn
  [rSpnStatus s, nw p.speed, nw p.nRef, rSpnCmd p, mkw [bf 15 0 p.vbus], rSpnBrk p]

/-- The SPN block. -/
def regsSpn (s : State) : List Reg :=
  let p := s.spn
  let b := 0x20000
  [⟨b, .ro, rSpnStatus s⟩, ⟨b + 0x4, .wo, 0⟩, ⟨b + 0x8, .rw, p.cfgStored⟩, ⟨b + 0xC, .rw, rSpnTgt p.set⟩,
    ⟨b + 0x10, .rw, rSpnBolr p.set⟩, ⟨b + 0x14, .rw, rBolCfg p.set⟩, ⟨b + 0x18, .rw, rBolGain p.set⟩, ⟨b + 0x1C, .rw, rBolSet p.set⟩,
    ⟨b + 0x20, .rw, p.startStored⟩, ⟨b + 0x24, .rw, rSpnPav p⟩, ⟨b + 0x28, .snap, nw p.speed⟩, ⟨b + 0x2C, .snap, nw p.nRef⟩,
    ⟨b + 0x30, .snap, rSpnCmd p⟩, ⟨b + 0x34, .snap, mkw [bfi 15 0 p.icmd]⟩, ⟨b + 0x38, .snap, mkw [bf 15 0 p.vbus]⟩,
    ⟨b + 0x3C, .ro, rSpnBrk p⟩] ++
  ([p.skipCnt, p.forceCnt, p.predCnt, p.lockLossCnt, p.catchCnt, p.startCnt, p.startFailCnt].zipIdx.map fun (v, i) =>
    ⟨b + 0x40 + 4 * i, .snap, nw v⟩) ++
  [⟨b + 0x5C, .snap, mkw [bf 31 16 p.chopFaultCnt, bf 15 0 p.chopHotCnt]⟩,
    ⟨b + 0x60, .snap, mkw [bf 31 16 p.ovCnt, bf 15 0 p.ovStopCnt]⟩, ⟨b + 0x64, .snap, nw p.bandSwCnt⟩]

end Sys2Proof.Machine
end

