-- ==== Sys2Proof/Machine/Media.lean ====
section
/-! DEFINITION. The layout of the medium (12_zones_media_map.md, 05_detection_sector_format.md): bands, sector slots on a
track, good slots, zone capacity, and the place of a block (R401 to R414). -/

namespace Sys2Proof.Machine
open Sys2Proof

/-- Channel bits of a sector (R145). -/
def sectorBits : Nat := 37072

/-! ### Bands -/

/-- A head's entry for a band in the NOR configuration area. -/
def State.bandEntry (s : State) (g : Head) (b : Fin 64) : BandEntry :=
  (alookup s.nor.bands (g, b)).getD (if b = 0 then {} else { geom := { mapped := false } })

/-- BPW in force for a band of a head (R143): that loaded while the band is the one loaded, else its entry's. -/
def State.bandBpw (s : State) (g : Head) (b : Fin 64) : Nat :=
  if s.head[g].map.band = b.val then s.head[g].rd[(0 : Fin 2)].bpw.toNat else (s.bandEntry g b).sliceA.bpw.toNat

/-- The band a track of a head lies in (R403): the highest band with tracks whose first track is not beyond it; band 0 otherwise. -/
def State.bandOf (s : State) (g : Head) (track : Nat) : Fin 64 :=
  (s.nor.bands.foldl (fun (acc : Fin 64) p =>
    if p.1.1 = g ∧ p.2.geom.mapped ∧ p.2.geom.firstTrk ≤ track ∧ acc < p.1.2 ∧ p.1.2 ≠ 0 then p.1.2 else acc) 0)

/-! ### Sector slots (R148, R149, R405) -/

/-- One place on a track: wedges from the wedge of the start angle, and position in that wedge in 2^−24 bit. -/
structure TrackPos where
  wedge : Nat
  pos : Nat
  deriving DecidableEq, Repr

/-- 2^−24 bits of one wedge: BPW is in 1/256 bit. -/
def wedgeUnits (bpw : Nat) : Nat := bpw * 65536

/-- Start of a band's data field in a wedge, 2^−24 bit. -/
def fieldStart (g : BandGeom) (bpw : Nat) : Nat := g.dfStart * bpw
/-- End of a band's data field in a wedge, 2^−24 bit. -/
def fieldEnd (g : BandGeom) (bpw : Nat) : Nat := g.dfEnd * bpw

/-- Whole bits left in the data field at a place. -/
def bitsLeft (g : BandGeom) (bpw : Nat) (p : TrackPos) : Nat := (fieldEnd g bpw - p.pos) / 2 ^ 24

/-- The place n bits on, the split at a servo field counted in whole bits (R149). -/
def advanceBits (g : BandGeom) (bpw : Nat) : Nat → TrackPos → Nat → TrackPos
  | 0, p, _ => p
  | fuel + 1, p, n =>
    let left := bitsLeft g bpw p
    if n ≤ left then { p with pos := p.pos + n * 2 ^ 24 }
    else advanceBits g bpw fuel { wedge := p.wedge + 1, pos := fieldStart g bpw } (n - left)

/-- Where a sector may start at or after a place: fewer than 177 bits left in the field are left unused (R149). -/
def sectorStart (g : BandGeom) (bpw : Nat) (p : TrackPos) : TrackPos :=
  if bitsLeft g bpw p < 177 then { wedge := p.wedge + 1, pos := fieldStart g bpw } else p

/-- The starts of the slots placed from a place on, while a slot ends at least TRK_GAP bits before the start angle one
revolution later (R405). -/
def placeSlots (g : BandGeom) (bpw : Nat) : Nat → TrackPos → List TrackPos
  | 0, _ => []
  | fuel + 1, p =>
    let a := sectorStart g bpw p
    let e := advanceBits g bpw 16 a sectorBits
    let limit := 720 * wedgeUnits bpw + fieldStart g bpw
    if e.wedge * wedgeUnits bpw + e.pos + g.trkGap * 2 ^ 24 ≤ limit then a :: placeSlots g bpw fuel e else []

/-- The slots of a track of a band, by slot number, from the wedge of the track's start angle (R405). -/
def trackSlots (e : BandEntry) (bpw : Nat) : List TrackPos :=
  placeSlots e.geom bpw 2048 { wedge := 0, pos := fieldStart e.geom bpw }

/-- SPT of a band. -/
def bandSpt (e : BandEntry) (bpw : Nat) : Nat := (trackSlots e bpw).length

/-- The angle of a place in FRAC units from the wedge boundary of the track's start, rounded down (R405). -/
def placeFrac (bpw : Nat) (p : TrackPos) : Nat := p.wedge * 65536 + (if bpw = 0 then 0 else p.pos / bpw)

/-! ### Good slots and capacity (R406, R408) -/

/-- Defect kinds that leave a slot without a sector: manufacture (0) and grown (1) (R406). -/
def Defect.bad (d : Defect) : Bool := d.kind == 0 || d.kind == 1

/-- The slot of a track holds a sector (R406). The original of a remap keeps its place in the order of R409 until the zone's
remaps are cleared, though it is listed as a grown defect (R220, R250). -/
def State.goodSlot (s : State) (a : Eng) (p : SectorAt) : Bool :=
  !(s.media.defects[a].any fun d => d.at_ == p && d.bad) || s.media.remaps[a].any fun m => m.orig == p

/-- SPT of a local head at a track. -/
def State.sptAt (s : State) (a : Eng) (h : LHead) (track : Nat) : Nat :=
  match s.globalHead a h.val with
  | none => 0
  | some g => bandSpt (s.bandEntry g (s.bandOf g track)) (s.bandBpw g (s.bandOf g track))

/-- Good slots of one track of a head, rising. -/
def State.goodSlots (s : State) (a : Eng) (h : LHead) (track : Nat) : List Nat :=
  (List.range (s.sptAt a h track)).filter fun k => s.goodSlot a { head := h, track := track, sector := k }

/-- The local heads of a mask, rising. -/
def maskHeads (m : BitVec 12) : List LHead := (fins 12).filter fun (h : LHead) => m.getLsbD h.val

/-- Good slots of row r of a run of rows on the heads of a mask. -/
def State.rowGood (s : State) (a : Eng) (firstTrk : Nat) (m : BitVec 12) (r : Nat) : Nat :=
  ((maskHeads m).map fun h => (s.goodSlots a h (firstTrk + r)).length).sum

/-- ZCAP of a run of rows (R408). -/
def State.capacity (s : State) (a : Eng) (firstTrk rows : Nat) (m : BitVec 12) : Nat :=
  ((List.range rows).map (s.rowGood a firstTrk m)).sum

/-- The largest row count whose good slots do not exceed 262 144 (R408), at most the given limit. -/
def State.rowsFor (s : State) (a : Eng) (firstTrk : Nat) (m : BitVec 12) (limit : Nat) : Nat :=
  ((List.range limit).foldl (fun (acc : Nat × Nat × Bool) r =>
    let (n, sum, stop) := acc
    let sum' := sum + s.rowGood a firstTrk m r
    if stop || 262144 < sum' then (n, sum, true) else (n + 1, sum', false)) (0, 0, false)).1

/-! ### The place of a block (R409) -/

/-- Start of a slot of a track in FRAC units from its start wedge. -/
def State.slotFrac (s : State) (a : Eng) (p : SectorAt) : Nat :=
  match s.globalHead a p.head.val with
  | none => 0
  | some g =>
    let b := s.bandOf g p.track
    let bpw := s.bandBpw g b
    match (trackSlots (s.bandEntry g b) bpw)[p.sector]? with
    | some t => placeFrac bpw t
    | none => 0

/-- FRAC units from a slot's start to its end, servo fields between its fragments included (R149). -/
def State.slotLength (s : State) (a : Eng) (p : SectorAt) : Nat :=
  match s.globalHead a p.head.val with
  | none => 0
  | some g =>
    let b := s.bandOf g p.track
    let e := s.bandEntry g b
    let bpw := s.bandBpw g b
    match (trackSlots e bpw)[p.sector]? with
    | some t => placeFrac bpw (advanceBits e.geom bpw 16 t sectorBits) - placeFrac bpw t
    | none => 0

/-- The good slots of row r of a zone in the order of R409. -/
def State.rowList (s : State) (z : ZoneDesc) (r : Nat) : List SectorAt :=
  let track := z.firstTrk + r
  let all := (maskHeads z.hmask).flatMap fun h =>
    (s.goodSlots z.engine h track).map fun k => (s.slotFrac z.engine ⟨h, track, k⟩, (⟨h, track, k⟩ : SectorAt))
  (all.mergeSort fun x y => decide (x.1 < y.1 ∨ (x.1 = y.1 ∧ x.2.head ≤ y.2.head))).map (·.2)

/-- The row and the place in it of block offset k. -/
def State.rowOfBlock (s : State) (z : ZoneDesc) : Nat → Nat → Nat → Option (Nat × Nat)
  | 0, _, _ => none
  | fuel + 1, r, k =>
    let n := s.rowGood z.engine z.firstTrk z.hmask r
    if k < n then some (r, k) else s.rowOfBlock z fuel (r + 1) (k - n)

/-- The sector of block offset k of a zone (R409), none at or above ZCAP. -/
def State.blockSector (s : State) (z : ZoneDesc) (k : Nat) : Option SectorAt :=
  if z.zcap ≤ k then none
  else (s.rowOfBlock z z.rows 0 k).bind fun (r, j) => (s.rowList z r)[j]?

/-- The start angle of a row: wedge (W0 + r × SKEW_W) mod 720 (R407). -/
def State.rowWedge (s : State) (z : ZoneDesc) (r : Nat) : Nat :=
  (z.w0 + r * s.media.regions[z.engine][z.region].skewW) % 720

/-- The sector a block of an engine is read from or written to: its remap's spare sector where one is ACTIVE (R220, R414). -/
def State.remapped (s : State) (a : Eng) (z : ZoneDesc) (p : SectorAt) : SectorAt :=
  if z.remapN = 0 then p
  else ((s.media.remaps[a].find? fun m => m.active && m.orig == p).map (·.spare)).getD p

/-- ADDR_TAG of a sector (R150). -/
def addrTag (p : SectorAt) : Word := mkw [bf 31 11 p.track, bf 10 0 p.sector]

/-! ### Zone descriptors -/

/-- The descriptor an access leaves, the newest of a list. -/
def lastUpdate (l : List DescAccess) : Option ZoneDesc :=
  l.reverse.findSome? fun a =>
    match a with
    | .read => none
    | .update d => some d

/-- A zone's descriptor in one engine's cache, newest first: an update that waits, the line, the victim buffer. -/
def Zdc.newest (c : Zdc) (z : ZoneNo) : Option ZoneDesc :=
  (lastUpdate ((c.missWait.filter fun w => w.1 == z).map (·.2))).orElse fun _ =>
    (c.lines.toList.findSome? fun l => if l.state == .fill && l.zone == z then lastUpdate l.waiters else none).orElse fun _ =>
      ((c.lines.toList.find? fun l => l.held && l.zone == z).map (·.desc)).orElse fun _ =>
        (c.victims.toList.find? fun v => v.state != .free && v.dirty && v.zone == z).map (·.desc)

/-- The newest descriptor of a zone: in its engine's cache, else in the table (R410). -/
def State.zoneDesc (s : State) (z : ZoneNo) : ZoneDesc :=
  ((fins 4).findSome? fun (a : Eng) => s.eng[a].zdc.newest z).getD ((alookup s.media.zones z).getD {})

/-- Descriptor words 0–6 (R410). -/
def ZoneDesc.words (d : ZoneDesc) : List Word :=
  [mkw [bf 31 28 d.zs.code, bf 27 26 d.engine.val, bf 25 23 d.region.val, bb 22 d.conv, bb 21 d.zfr, bb 20 d.holes,
      bf 15 0 d.ver.toNat],
    mkw [bf 18 0 d.wp], mkw [bf 18 0 d.zcap], d.zgen, mkw [bf 31 22 d.rows, bf 21 0 d.firstTrk],
    mkw [bf 31 22 d.w0, bf 11 0 d.hmask.toNat], mkw [bf 31 16 d.remapN, bf 15 0 d.suspN]]

/-- Zones of an engine in the format, with their descriptors. -/
def State.zonesOf (s : State) (a : Eng) : List (ZoneNo × ZoneDesc) :=
  (s.media.zones.map fun p => (p.1, s.zoneDesc p.1)).filter fun p => p.2.engine == a && p.2.zs != .none

/-- ENG_BW of R493: the sequential read rate at BOL_MIN in region 7 over the heads not depopulated, row skew included, MB/s. -/
def State.engBw (s : State) (a : Eng) : Nat :=
  let reg := s.media.regions[a][7]
  let spt := ((fins 12).map fun (h : LHead) =>
    match s.globalHead a h.val with
    | none => 0
    | some g => if s.head[g].map.depop then 0 else s.sptAt a h reg.firstTrk).sum
  spt * 4096 * s.spn.set.bolMin * 720 / (60 * (720 + reg.skewW) * 1000000)

/-- LINK_BW of R493, MB/s. -/
def State.linkBw (s : State) : Nat :=
  if s.host.gen = 0 then 0 else 14200 * s.host.width / 4 / 2 ^ (5 - s.host.gen)

end Sys2Proof.Machine
end

