-- ==== Sys2Proof/Machine/RegsModule.lean ====
section
/-! DEFINITION. The registers of the module's blocks as words of the state: MOD (21), RST (20), HTS (15), PWR and WSL (16, 07),
MEM (17), SEC (18), EVR (19), HIF and QPL (13, 14); the results of their status packets; and the checks of a signed object
(R583), on which the firmware registers rest. -/

namespace Sys2Proof.Machine
open Sys2Proof

/-! ### The NOR die (R594) -/

/-- Areas of the NOR die: address and size of firmware slots 0 and 1, the event recorder and the configuration area. -/
def norAreas : List (Nat × Nat) := [(0x0000000, 0x1000000), (0x1000000, 0x1000000), (0x2000000, 0x1800000), (0x3800000, 0x800000)]

/-- Size of a firmware slot, and of the staging buffer (R594, R597). -/
def slotBytes : Nat := 0x1000000

/-- Size of each of the two key sectors of the configuration area (R594). -/
def keySectorBytes : Nat := 65536

/-- Clocks of MTIME in a millisecond and in a second. -/
def msClocks : Nat := 3000000
/-- See `msClocks`. -/
def secClocks : Nat := 3000000000

/-! ### Signed objects -/

/-- The signed message of an object: "CLQ-LJ4824" then header bytes 0–511 (R582), as one number (log 6). -/
def SignedObj.message (o : SignedObj) : Nat := 0x434C512D4C4A34383234 * 2 ^ 4096 + o.header

/-- Check 1 of R583: the header's form, for the object type an operation expects. -/
def SignedObj.formOk (o : SignedObj) (t : ObjType) (staged : Nat) : Bool :=
  o.magic == 0x34324A4C && o.hdrVer == 1 && o.otype == t.code && decide (o.len ≤ slotBytes - 8192) &&
    decide (o.len + 8192 ≤ staged)

/-- Checks 2 to 5 of R583: key pair, digest and both signature halves. -/
def SignedObj.signatureOk (o : SignedObj) (f : Fuses) : Bool :=
  !f.revoked.getLsbD o.keyIdx && !o.revokes.getLsbD o.keyIdx && Config.sha384 [o.pkEd, o.pkMl] == f.keyHash[o.keyIdx] &&
    Config.sha384 [o.content] == o.digest && Config.edVerify o.pkEd o.message o.sigEd &&
    Config.mlVerify o.pkMl o.message o.sigMl

/-- Check 6 of R583. -/
def SignedObj.rollOk (o : SignedObj) (t : ObjType) (f : Fuses) : Bool :=
  if t = .rollback then decide (f.rollCtr < o.svn) else decide (f.rollCtr ≤ o.svn)

/-- Check 7 of R583: the binding. -/
def SignedObj.boundOk (o : SignedObj) (t : ObjType) (s : State) : Bool :=
  decide (o.stepMin ≤ s.fuse.stepping.toNat) &&
  (t != .patch || (fins 4).all fun (a : Eng) => !s.enginePresent a || s.eng[a].seq.storeVer == o.storeVer) &&
  (!(t == .token || t == .rollback) || o.serial == s.fuse.serial) &&
  (t != .token || (o.nonce == s.sec.nonce && decide (s.rst.poh / 1024 ≤ o.expiry)))

/-- The first failing check of R583 as its Hetos status, none when every check passes. -/
def State.objCheck (s : State) (o : SignedObj) (t : ObjType) (staged : Nat) : Option Nat :=
  if !o.formOk t staged then some 0x0105
  else if !o.signatureOk s.fuse then some 0x0402
  else if !o.rollOk t s.fuse then some 0x0404
  else if !o.boundOk t s then some 0x0105
  else none

/-- SLOTn_OK: the slot verifies and its SVN is at least ROLL_CTR. -/
def State.slotOk (s : State) (n : Nat) : Bool :=
  match vget s.nor.slots n none with
  | none => false
  | some o => (s.objCheck o .image slotBytes).isNone

/-- The slot's image passes the checks but the rollback one: it verifies (FW_SLOTn). -/
def State.slotVersion (s : State) (n : Nat) : Word :=
  match vget s.nor.slots n none with
  | none => 0
  | some o => if o.formOk .image slotBytes && o.signatureOk s.fuse && o.boundOk .image s then o.version else 0

/-- SVN of the image in a slot. -/
def State.slotSvn (s : State) (n : Nat) : Nat := ((vget s.nor.slots n none).map (·.svn)).getD 0

/-! ### MOD, RST, HTS -/

/-- The layout in effect, word 2 of mod.identify (R532). -/
def rLayout (l : Layout) : Word :=
  mkw [bf 1 0 (l.engines - 2), bf 11 8 (l.count 0), bf 15 12 (l.count 1), bf 19 16 (l.count 2), bf 23 20 (l.count 3),
    bf 31 24 l.total]

/-- MOD_STEP. -/
def rModStep (s : State) : Word := mkw [bf 15 0 s.fuse.stepping.toNat]

/-- RST_STATUS. -/
def rRstStatus (s : State) : Word :=
  let r := s.rst
  mkw [bf 31 28 r.cause, bb 27 r.recovery, bb 26 r.tblReady, bb 25 r.convReady, bb 24 r.jrnlUsed,
    bf 16 0 r.rdfwdPend.length]
/-- RST_CFG. -/
def rRstCfg (r : ResetBlock) : Word := mkw [bf 31 16 r.mpCkptS, bf 15 8 r.imgMin]
/-- ACT_STATUS. -/
def rActStatus (x : Actuator) : Word := mkw [bf 31 29 x.state.code, bf 28 26 x.tries, bb 25 x.held]
/-- ACT_CFG. -/
def rActCfg (x : Actuator) : Word := mkw [bf 31 24 x.loadV, bf 23 16 x.unloadV, bf 15 8 x.loadTmo, bf 7 4 x.loadTries]
/-- Exchanges in progress (R520): those that run, and each waiting packet that is alone in its exchange. -/
def Hetos.active (h : Hetos) : Nat :=
  (h.exchanges.filter (·.running)).length + (h.waiting.filter fun w => !h.exchanges.any fun x => x.xid == w.2.xid).length
/-- HTS_STATUS. -/
def rHtsStatus (h : Hetos) : Word :=
  mkw [bf 31 28 h.active, bf 27 24 (min 15 (h.exchanges.filter fun x => !x.running).length), bf 15 0 h.lastOp.toNat]

/-- Results of reset.status. -/
def stRst (s : State) : List Word :=
  [rRstStatus s, nw s.rst.pcyc] ++ lohi s.rst.poh ++ [s.rst.plLast, nw s.rst.plCnt]
/-- Results of hetos.status for a transport. -/
def stHts (s : State) (t : Fin 3) : List Word :=
  let c := s.het.cnt[t]
  [rHtsStatus s.het, nw c.pkt, nw c.fail, nw c.deny, nw c.clamp]

/-- The identity registers (R678). -/
def regsMod (s : State) : List Reg :=
  [⟨0x000, .ro, 0x00004824⟩, ⟨0x004, .ro, rModStep s⟩, ⟨0x008, .ro, nw s.fuse.serial.toNat⟩,
    ⟨0x00C, .ro, nw (s.fuse.serial.toNat / 2 ^ 32)⟩, ⟨0x010, .ro, 0x1F4C1F4C⟩, ⟨0x014, .ro, mkw [bb 1 s.fuse.assistSto]⟩]

/-- The reset registers. -/
def regsRst (s : State) : List Reg :=
  let r := s.rst
  [⟨0x300, .ro, rRstStatus s⟩, ⟨0x304, .wo, 0⟩, ⟨0x308, .ro, nw r.pcyc⟩, ⟨0x30C, .rw, rRstCfg r⟩,
    ⟨0x310, .snap, nw r.poh⟩, ⟨0x314, .snap, nw (r.poh / 2 ^ 32)⟩, ⟨0x318, .ro, r.plLast⟩, ⟨0x31C, .snap, nw r.plCnt⟩,
    ⟨0x320, .snap, nw r.jrnlFailCnt⟩, ⟨0x324, .snap, nw r.rdfwdCnt⟩] ++
  (fins 4).flatMap fun (a : Eng) =>
    let x := r.act[a]
    let o := 0x340 + a.val * 0x10
    [⟨o, .ro, rActStatus x⟩, ⟨o + 4, .rw, rActCfg x⟩, ⟨o + 8, .snap, nw x.loadCnt⟩, ⟨o + 0xC, .snap, nw x.loadFailCnt⟩]

/-- The Hetos registers. -/
def regsHts (s : State) : List Reg :=
  [⟨0x400, .ro, rHtsStatus s.het⟩, ⟨0x404, .wo, 0⟩] ++ (fins 3).flatMap fun (t : Fin 3) =>
    let c := s.het.cnt[t]
    let o := 0x410 + t.val * 0x10
    [⟨o, .snap, nw c.pkt⟩, ⟨o + 4, .snap, nw c.fail⟩, ⟨o + 8, .snap, nw c.deny⟩, ⟨o + 0xC, .snap, nw c.clamp⟩]

/-! ### PWR and writer slots -/

/-- Maximum power of a power state, mW (R445). -/
def psPower (ps : Nat) : Nat := if ps = 0 then 35000 else if ps = 1 then 15000 else 10000

/-- CEIL (R537). -/
def State.ceil (s : State) : Nat := min s.pwr.budget (psPower s.host.fns[0].ps)

/-- A refusable draw of a head may begin: a read, granted in this epoch, its grants not late (R541, R545). -/
def Power.mayRead (p : Power) (g : Head) : Bool := p.head[g].rdGnt && p.late.isNone
/-- See `Power.mayRead`: a write. -/
def Power.mayWrite (p : Power) (g : Head) : Bool := p.head[g].wrGnt && p.late.isNone
/-- See `Power.mayRead`: deep decodes granted and not yet begun. -/
def Power.deepFree (p : Power) : Nat := if p.late.isNone then p.deepGnt else 0

/-- PWR_STATUS. -/
def rPwrStatus (p : Power) : Word :=
  let h := p.head.toList
  mkw [bb 31 p.overSet, bb 30 p.yield3, bb 29 p.timed, bb 28 p.accGnt, bb 27 p.hot, bf 26 21 (h.filter (·.rdGnt)).length,
    bf 20 17 (h.filter (·.wrGnt)).length, bf 16 11 p.decOn]
/-- PWR_BUDGET. -/
def rPwrBudget (s : State) : Word := mkw [bf 31 16 s.ceil, bf 15 0 s.pwr.budget]
/-- PWR_EST. -/
def rPwrEst (p : Power) : Word := mkw [bf 31 16 p.committed, bf 15 0 p.granted]
/-- PWR_MEAS. -/
def rPwrMeas (p : Power) : Word := mkw [bf 31 16 p.meas12, bf 15 0 p.meas3]
/-- EST_OFS. -/
def rEstOfs (p : Power) : Word := mkw [bfi 15 0 p.estOfs]
/-- SPN_CAP. -/
def rSpnCap (p : Power) : Word := mkw [bf 31 16 p.nCap, bf 15 0 p.nOpt]
/-- THR_STEP: memory, host, control, datapath, engines 3 to 0. -/
def rThrStep (p : Power) : Word :=
  mkw [bf 15 14 p.thrStep[7], bf 13 12 p.thrStep[6], bf 11 10 p.thrStep[5], bf 9 8 p.thrStep[4], bf 7 6 p.thrStep[3],
    bf 5 4 p.thrStep[2], bf 3 2 p.thrStep[1], bf 1 0 p.thrStep[0]]
/-- ENG_PWR. -/
def rEngPwr (e : EngPower) : Word := mkw [bf 31 28 e.k, bf 27 16 e.vsup, bf 15 14 e.thr, bf 13 12 e.galop]
/-- ENG_REQ. -/
def rEngReq (e : EngPower) : Word := mkw [bf 31 16 e.seekReq, bf 15 0 e.holdReq]
/-- HD_PWR. -/
def rHdPwr (h : HeadPower) : Word :=
  mkw [bb 31 h.rdGnt, bb 30 h.wrGnt, bb 29 h.slcOn, bb 28 h.commit, bf 27 20 h.idleRun]
/-- HD_REQ. -/
def rHdReq (h : HeadPower) : Word := mkw [bf 31 16 h.rdReq, bf 15 0 h.wrReq]
/-- ZONE_ALLOW. -/
def rZoneAllow (p : Power) (z : Fin 8) : Word := mkw [bf 31 16 p.zoneAllow[z], bf 15 0 p.zoneUsed[z]]

/-- Writer slots held. -/
def WriterSlots.used (w : WriterSlots) : Nat := (w.held.toList.filter Option.isSome).length
/-- WSL_STATUS. -/
def rWslStatus (w : WriterSlots) : Word :=
  mkw ([bf 31 28 w.max, bf 27 24 w.used] ++ w.held.toList.map fun h => (h.map fun g => 2 ^ g.val).getD 0)

/-- Results of budget.status. -/
def stPwr (s : State) : List Word :=
  [rPwrStatus s.pwr, rPwrBudget s, rPwrEst s.pwr, rPwrMeas s.pwr, rSpnCap s.pwr, rThrStep s.pwr]

/-- The PWR block with the writer slot registers. -/
def regsPwr (s : State) : List Reg :=
  let p := s.pwr
  let b := 0x10000
  [⟨b, .ro, rPwrStatus p⟩, ⟨b + 0x4, .wo, 0⟩, ⟨b + 0x8, .rw, rPwrBudget s⟩, ⟨b + 0xC, .rw, p.cfg⟩, ⟨b + 0x10, .rw, p.cost1⟩,
    ⟨b + 0x14, .rw, p.cost2⟩, ⟨b + 0x18, .rw, p.galopMw⟩, ⟨b + 0x1C, .rw, nw p.rCoil⟩, ⟨b + 0x20, .snap, rPwrEst p⟩,
    ⟨b + 0x24, .snap, rPwrMeas p⟩, ⟨b + 0x28, .ro, rEstOfs p⟩, ⟨b + 0x2C, .ro, rSpnCap p⟩, ⟨b + 0x30, .ro, rThrStep p⟩,
    ⟨b + 0x34, .snap, nw p.epoch⟩, ⟨b + 0x38, .snap, nw (p.epoch / 2 ^ 32)⟩] ++
  ([p.accRefCnt, p.headRefCnt, p.seekDegCnt, p.yield3Cnt, p.overCnt, p.thrCnt, p.arbLateCnt].zipIdx.map fun (v, i) =>
    ⟨b + 0x3C + 4 * i, .snap, nw v⟩) ++
  ((fins 8).map fun (z : Fin 8) => ⟨b + 0x60 + 4 * z.val, .snap, rZoneAllow p z⟩) ++
  [⟨b + 0x400, .ro, rWslStatus s.wsl⟩, ⟨b + 0x404, .rw, nw s.wsl.max⟩] ++
  ((fins 4).flatMap fun (a : Eng) =>
    [⟨b + 0x600 + a.val * 0x10, .ro, rEngPwr p.eng[a]⟩, ⟨b + 0x604 + a.val * 0x10, .snap, rEngReq p.eng[a]⟩]) ++
  (fins 24).flatMap fun (g : Head) =>
    let o := b + 0x800 + g.val * 0x10
    [⟨o, .ro, rHdPwr p.head[g]⟩, ⟨o + 4, .snap, rHdReq p.head[g]⟩, ⟨o + 8, .snap, nw p.head[g].refCnt⟩]

/-! ### MEM -/

/-- MEM_STATUS. -/
def rMemStatus (m : MemBlock) : Word :=
  mkw ([bb 31 m.initDone, bb 30 (!m.refill.isEmpty || m.cmbFill), bb 29 m.repairBusy, bb 28 m.repairFull] ++
    m.bkt.toList.zipIdx.map fun (x, i) => bb i x.ovf)
/-- CH_STATUS: TEMP is zone 7's temperature in °C. -/
def rChStatus (s : State) (c : Fin 2) : Word :=
  let x := s.mem.chan[c]
  mkw [bb 31 x.trained, bb 30 x.refresh2x, bf 23 16 x.pprUsed, bfi 7 0 (s.lpe.temps[7] / 16)]
/-- The two words of a log entry. -/
def EccLog.words (e : EccLog) : List Word :=
  [mkw [bf 31 28 e.memid, bf 27 24 e.region, bf 23 16 e.synd.toNat, bf 15 14 e.kind.code], nw e.waddr]
/-- BKT_CFG. -/
def rBktCfg (b : Bucket) : Word := mkw [bf 31 24 b.depth, bf 15 0 b.leakMin]

/-- Results of mem.status. -/
def stMem (s : State) : List Word :=
  [rMemStatus s.mem, rChStatus s 0, rChStatus s 1, nw s.mem.scrubPos] ++ (vget s.mem.ueLog s.mem.ueHead {}).words

/-- The MEM block. The spec gives offsets 0x030 and 0x034 both to channel 1 and to SCRUB_POS and SCRUB_PASS: channel 1's registers
answer there (log 62). -/
def regsMem (s : State) : List Reg :=
  let m := s.mem
  let b := 0x30000
  [⟨b, .ro, rMemStatus m⟩, ⟨b + 0x4, .wo, 0⟩, ⟨b + 0x8, .rw, m.cfg⟩, ⟨b + 0xC, .rw, m.starve⟩, ⟨b + 0x10, .rw, m.prio⟩] ++
  ((fins 2).flatMap fun (c : Fin 2) =>
    [⟨b + 0x20 + c.val * 0x10, .ro, rChStatus s c⟩, ⟨b + 0x24 + c.val * 0x10, .snap, nw m.chan[c].busy⟩]) ++
  ([m.scrubPos, m.scrubPass, m.poisonCnt, m.repairCnt].zipIdx.map fun (v, i) => ⟨b + 0x30 + 4 * i, .snap, nw v⟩) ++
  ((fins 15).flatMap fun (r : MemRegion) =>
    let o := b + 0x100 + r.val * 0x10
    [⟨o, .rw, rBktCfg m.bkt[r]⟩, ⟨o + 4, .snap, nw m.bkt[r].level⟩, ⟨o + 8, .snap, nw m.bkt[r].ceCnt⟩,
      ⟨o + 0xC, .snap, nw m.bkt[r].ueCnt⟩]) ++
  ((fins 16).flatMap fun (n : Fin 16) => (m.ueLog[n].words.zipIdx.map fun (w, i) => ⟨b + 0x300 + 8 * n.val + 4 * i, .ro, w⟩)) ++
  [⟨b + 0x380, .ro, nw m.ueHead⟩] ++ (m.lastCe.words.zipIdx.map fun (w, i) => ⟨b + 0x388 + 4 * i, .snap, w⟩)

/-! ### SEC -/

/-- Namespaces whose format is in progress. -/
def State.formatting (s : State) : Nat := (s.host.namespaces.filter fun n => n.format.isSome).length

/-- SEC_STATUS. -/
def rSecStatus (s : State) : Word :=
  let x := s.sec
  mkw [bb 31 x.dbgUnlock, bf 30 29 x.dbgScope, bb 28 x.raisePend.isSome, bb 27 x.sanitise.isSome, bb 26 x.sanFail,
    bb 25 (decide (0 < s.formatting)), bb 24 x.staged.isSome, bf 19 16 ((x.staged.map (·.otype)).getD 0),
    bf 15 8 x.aliasGen, bb 0 x.fallback]
/-- ACT_STATE code. -/
def ActState.num : ActState → Nat
  | .idle => 0 | .programming => 1 | .loading => 2 | .pause => 3
/-- FW_STATE. -/
def rFwState (s : State) : Word :=
  mkw [bf 31 31 s.sec.runSlot, bf 30 30 s.nor.actSlot, bf 29 28 s.sec.actState.num, bb 27 (s.slotOk 0), bb 26 (s.slotOk 1),
    bf 23 16 (s.slotSvn 0), bf 15 8 (s.slotSvn 1), bf 7 0 s.sec.running.svn]

/-- Results of sec.status. -/
def stSec (s : State) : List Word :=
  [rSecStatus s, nw s.fuse.rollCtr, s.sec.running.version, rFwState s, nw s.sec.sigFailCnt, nw s.sec.dbgExp]

/-- The SEC block. -/
def regsSec (s : State) : List Reg :=
  let x := s.sec
  let b := 0x40000
  [⟨b, .ro, rSecStatus s⟩, ⟨b + 0x4, .wo, 0⟩, ⟨b + 0x8, .ro, nw s.fuse.rollCtr⟩, ⟨b + 0xC, .ro, x.running.version⟩,
    ⟨b + 0x10, .ro, s.slotVersion 0⟩, ⟨b + 0x14, .ro, s.slotVersion 1⟩, ⟨b + 0x18, .ro, rFwState s⟩,
    ⟨b + 0x1C, .ro, mkw [bf 15 0 x.sanProg]⟩, ⟨b + 0x20, .ro, mkw [bf 20 16 s.formatting, bf 15 0 x.fmtProg]⟩,
    ⟨b + 0x24, .ro, mkw [bf 3 0 s.fuse.revoked.toNat]⟩] ++
  ((List.range 4).map fun i => ⟨b + 0x30 + 4 * i, .ro, nw (x.nonce.toNat / 2 ^ (32 * i))⟩) ++
  [⟨b + 0x40, .snap, nw x.sigFailCnt⟩, ⟨b + 0x44, .snap, nw x.rollRejCnt⟩, ⟨b + 0x48, .snap, nw x.measCnt⟩,
    ⟨b + 0x4C, .snap, nw x.unlockCnt⟩, ⟨b + 0x50, .ro, nw x.dbgExp⟩]

/-! ### EVR -/

/-- Bytes held in the holding queue (R623). -/
def Recorder.level (e : Recorder) : Nat := (e.queue.map (·.len)).sum
/-- EVR_STATUS. -/
def rEvrStatus (e : Recorder) : Word :=
  mkw [bb 31 (decide (0 < e.frzDepth)), bf 30 28 e.frzDepth, bb 27 e.qFull, bb 26 e.erasing.isSome, bb 25 e.worn]
/-- EVR_CFG. -/
def rEvrCfg (e : Recorder) : Word := mkw [bf 31 16 e.sealT, bf 15 0 e.frzMax]
/-- a lies before b in wrap order of 32 bits (R65 applied to BSEQ, R615). -/
def seqBefore (a b : Nat) : Bool := decide (0 < (b + 2 ^ 32 - a) % 2 ^ 32 ∧ (b + 2 ^ 32 - a) % 2 ^ 32 < 2 ^ 31)
/-- BSEQ of every block in the region. -/
def State.bseqs (s : State) : List Nat :=
  s.nor.blocks.map (·.bseq) ++ s.evr.open_.toList.filterMap fun o => o.map (·.bseq)
/-- Newest BSEQ in the region. -/
def State.headBseq (s : State) : Nat :=
  match s.bseqs with
  | [] => 0
  | x :: t => t.foldl (fun a b => if seqBefore a b then b else a) x
/-- Oldest BSEQ in the region. -/
def State.tailBseq (s : State) : Nat :=
  match s.bseqs with
  | [] => 0
  | x :: t => t.foldl (fun a b => if seqBefore b a then b else a) x
/-- OPEN_BLK. -/
def rOpenBlk (o : Option OpenBlock) : Word :=
  match o with
  | none => 0
  | some b => mkw [bb 31 true, bf 27 16 b.pair, bf 12 0 b.used]

/-- Results of recorder.status. -/
def stEvr (s : State) : List Word :=
  [rEvrStatus s.evr, nw s.headBseq, nw s.tailBseq, nw s.evr.level, nw s.evr.recCnt, nw s.evr.lostCnt]

/-- The EVR block. -/
def regsEvr (s : State) : List Reg :=
  let e := s.evr
  let b := 0x50000
  let segs := s.nor.segs.toList
  [⟨b, .ro, rEvrStatus e⟩, ⟨b + 0x4, .wo, 0⟩, ⟨b + 0x8, .rw, rEvrCfg e⟩, ⟨b + 0xC, .snap, nw s.headBseq⟩,
    ⟨b + 0x10, .snap, nw s.tailBseq⟩, ⟨b + 0x14, .snap, nw e.nextRseq⟩, ⟨b + 0x18, .snap, mkw [bf 16 0 e.level]⟩,
    ⟨b + 0x1C, .snap, nw e.recCnt⟩, ⟨b + 0x20, .snap, nw e.lostCnt⟩, ⟨b + 0x24, .snap, nw e.sealCnt⟩,
    ⟨b + 0x28, .ro, mkw [bf 31 16 (segs.filter (·.retired)).length, bf 15 0 (segs.filter fun x => x.erased && !x.retired).length]⟩,
    ⟨b + 0x2C, .ro, nw ((segs.map (·.erases)).foldl max 0)⟩] ++
  (e.open_.toList.zipIdx.map fun (o, i) => ⟨b + 0x30 + 4 * i, .ro, rOpenBlk o⟩)

/-! ### HIF and QPL -/

/-- HIF_STATUS. -/
def rHifStatus (h : HostLink) : Word :=
  mkw [bf 31 28 (if h.dlUp then h.gen else 0), bf 27 24 h.width, bb 23 h.dlUp, bb 22 h.ari, bb 21 h.l1, bf 19 16 h.numVf,
    bf 15 8 h.eid.toNat]
/-- HIF_CFG. -/
def rHifCfg (h : HostLink) : Word := mkw [bb 31 h.vfCmbNext, bf 30 24 h.miAddr, bf 23 16 h.zfrl]
/-- HIF_HPERM. -/
def rHperm (h : HostLink) : Word := mkw [bf 15 1 h.vfRead.toNat, bb 0 true]
/-- Namespaces attached to a function. -/
def State.nsAttached (s : State) (f : Fn) : List Namespace := s.host.namespaces.filter fun n => n.attached.getLsbD f.val
/-- FN_STATUS. -/
def rFnStatus (s : State) (f : Fn) : Word :=
  let x := s.host.fns[f]
  mkw [bb 31 x.en, bb 30 x.rdy, bb 29 x.cfs, bb 28 x.vwcOn, bf 27 26 x.ps, bf 20 16 (s.nsAttached f).length]
/-- DB_CNT, TLP_CNT, DMA_CNT, BAR2_CNT, CMD_CNT. -/
def fnCounters (x : FnState) : List Word :=
  [mkw [bf 31 16 x.dbRegCnt, bf 15 0 x.dbValCnt], mkw [bf 31 16 x.urCnt, bf 15 0 x.malCnt],
    mkw [bf 31 16 x.ctoCnt, bf 15 0 x.poisCnt], mkw [bf 31 16 x.roWrCnt, bf 15 0 x.unasgCnt],
    mkw [bf 31 16 x.cmdErrCnt, bf 15 0 x.cmbPoisCnt]]

/-- Results of host.status. -/
def stHif (s : State) : List Word :=
  let h := s.host
  [rHifStatus h, rHifCfg h, rHperm h, nw h.linkRecovCnt, nw h.linkCerrCnt, nw h.linkDownCnt]
/-- Results of host.function. -/
def stFn (s : State) (f : Fn) : List Word := rFnStatus s f :: fnCounters s.host.fns[f]

/-- SMB_CNT. -/
def rSmbCnt (h : HostLink) : Word := mkw [bf 31 16 h.pecErrCnt, bf 15 0 h.smbTmoCnt]
/-- MCTP_CNT. -/
def rMctpCnt (h : HostLink) : Word := mkw [bf 31 16 h.mctpMalCnt]

/-- The HIF block. -/
def regsHif (s : State) : List Reg :=
  let h := s.host
  let b := 0x60000
  [⟨b, .ro, rHifStatus h⟩, ⟨b + 0x4, .wo, 0⟩, ⟨b + 0x8, .rw, rHifCfg h⟩, ⟨b + 0xC, .rw, rHperm h⟩,
    ⟨b + 0x10, .snap, nw h.linkRecovCnt⟩, ⟨b + 0x14, .snap, nw h.linkCerrCnt⟩, ⟨b + 0x18, .snap, nw h.linkDownCnt⟩,
    ⟨b + 0x1C, .snap, rSmbCnt h⟩, ⟨b + 0x20, .snap, rMctpCnt h⟩] ++
  (fins 16).flatMap fun (f : Fn) =>
    let o := b + 0x100 + f.val * 0x20
    ⟨o, .ro, rFnStatus s f⟩ :: ((fnCounters h.fns[f]).zipIdx.map fun (w, i) => ⟨o + 4 + 4 * i, .snap, w⟩) ++
      [⟨o + 0x18, .snap, nw h.fns[f].flrCnt⟩]

/-- Queue pairs in use of a function. -/
def FnState.pairsUsed (x : FnState) : Nat := x.sqs.length
/-- Contexts of a function: I/O commands. -/
def State.ioCtx (s : State) (f : Fn) : Nat := (s.q.ctxs.filter fun c => c.2.fn == f && !c.2.admin).length
/-- Credits held by completed writes. -/
def Queues.creditsWb (q : Queues) : Nat := (q.buffered.map (·.credits)).sum

/-- QPL_STATUS. -/
def rQplStatus (s : State) : Word :=
  mkw [bf 31 19 s.q.ctxs.length, bf 16 0 (s.host.fns.toList.map FnState.pairsUsed).sum]
/-- CTX_CFG. -/
def rCtxCfg (q : Queues) : Word := mkw [bf 31 24 q.ctxMin, bf 23 12 q.ctxMax]
/-- SCH_CFG. -/
def rSchCfg (q : Queues) : Word := mkw [bf 31 24 q.ageMax, bf 23 16 q.latGuard, bf 15 8 q.wbHigh, bf 7 0 q.floorWin]
/-- ADM_CFG. -/
def rAdmCfg (q : Queues) : Word := mkw [bf 31 24 q.admBwPct, bf 23 12 q.admIops]
/-- Sum of RATE × share admitted on an engine: latency contracts (R493). -/
def Queues.rateOn (q : Queues) (a : Eng) : Nat :=
  (q.contracts.map fun c => if c.2.floor then 0 else c.2.rate * c.2.shares[a].1 / max 1 c.2.shares[a].2).sum
/-- Sum of MBPS × share of the floors on an engine (R493). -/
def Queues.mbpsOn (q : Queues) (a : Eng) : Nat :=
  (q.contracts.map fun c => if c.2.floor then c.2.rate * c.2.shares[a].1 / max 1 c.2.shares[a].2 else 0).sum
/-- ENG_BW register. -/
def rEngBw (s : State) (a : Eng) : Word := mkw [bf 31 16 (s.q.rateOn a), bf 15 0 (s.engBw a)]
/-- CT_CTL. -/
def rCtCtl (c : Contract) : Word :=
  mkw [bb 31 true, bb 30 c.floor, bf 29 28 c.dir.toNat, bf 27 24 c.fn.val, bf 15 0 c.sq]
/-- CT_PARAM. -/
def rCtParam (c : Contract) : Word := mkw [bf 31 16 c.latMs, bf 15 0 c.rate]
/-- CT_EXC. -/
def rCtExc (c : Contract) : Word := mkw [bf 31 16 c.overCnt, bf 15 0 c.recCnt]
/-- CT_MISC. -/
def rCtMisc (c : Contract) : Word := mkw [bf 31 16 c.actCnt, bf 15 0 c.exclCnt]

/-- Results of queue.status. -/
def stQpl (s : State) : List Word :=
  [rQplStatus s, rCtxCfg s.q, rSchCfg s.q, rAdmCfg s.q, nw s.q.creditsFree, nw s.q.creditsWb]
/-- Results of queue.function. -/
def stQfn (s : State) (f : Fn) : List Word :=
  let x := s.host.fns[f]
  [mkw [bf 31 16 x.pairs, bf 15 0 x.pairsUsed], mkw [bf 12 0 (s.ioCtx f)], mkw [bf 31 16 x.abortCnt, bf 15 0 x.sqdelCnt],
    nw x.discCnt]
/-- Results of qos.status: a contract not in force reads zero. -/
def stQos (s : State) (c : Nat) : List Word :=
  match alookup s.q.contracts c with
  | none => [0, 0, 0, 0, 0, 0]
  | some k => [rCtCtl k, rCtParam k, nw k.adm, nw k.done, nw k.yieldCnt, nw k.worst]

/-- The queue registers. -/
def regsQpl (s : State) : List Reg :=
  let q := s.q
  let b := 0x60000
  [⟨b + 0x1000, .ro, rQplStatus s⟩, ⟨b + 0x1004, .wo, 0⟩, ⟨b + 0x1008, .rw, rCtxCfg q⟩, ⟨b + 0x100C, .rw, rSchCfg q⟩,
    ⟨b + 0x1010, .rw, rAdmCfg q⟩, ⟨b + 0x1014, .snap, nw q.creditsFree⟩, ⟨b + 0x1018, .snap, nw q.creditsWb⟩,
    ⟨b + 0x101C, .ro, nw s.linkBw⟩] ++
  ((fins 4).map fun (a : Eng) => ⟨b + 0x1020 + 4 * a.val, .ro, rEngBw s a⟩) ++
  ([q.holdCnt, q.agedCnt, q.creditWaitCnt, q.ctRefuseCnt].zipIdx.map fun (v, i) => ⟨b + 0x1030 + 4 * i, .snap, nw v⟩) ++
  ((fins 16).flatMap fun (f : Fn) =>
    let o := b + 0x1100 + f.val * 0x10
    match stQfn s f with
    | [w0, w1, w2, w3] => [⟨o, .ro, w0⟩, ⟨o + 4, .ro, w1⟩, ⟨o + 8, .snap, w2⟩, ⟨o + 0xC, .snap, w3⟩]
    | _ => []) ++
  (List.range 256).flatMap fun c =>
    let o := b + 0x2000 + c * 0x20
    let w : List Word := match alookup q.contracts c with
      | none => [0, 0, 0, 0, 0, 0, 0, 0]
      | some k => [rCtCtl k, rCtParam k, nw k.adm, nw k.done, nw k.yieldCnt, rCtExc k, rCtMisc k, nw k.worst]
    w.zipIdx.map fun (v, i) => ⟨o + 4 * i, if i < 3 then .ro else .snap, v⟩

/-! ### The whole of BAR2 -/

/-- A word of the trace window (R332): sample n of channel c at c × 0x1_0000 + n × 8, value then stamp. -/
def traceWord (s : State) (o : Nat) : Word :=
  match fin? 16 (o / 0x10000) with
  | none => 0
  | some c =>
    let ch := s.trc.chans[c]
    match ch.samples[(ch.count + 8192 * 1048576 - 1 - o % 0x10000 / 8) % 8192]? with
    | none => 0
    | some x => if o % 8 = 0 then x.value else x.stamp

/-- The block of registers an address lies in, with the live values; an absent engine's block and the head units beyond an
engine's count hold none (R25). Addresses name blocks as in the register map of the manual. -/
def regBlock (s : State) (addr : Nat) : List Reg :=
  if addr < 0x300 then regsMod s
  else if addr < 0x400 then regsRst s
  else if addr < 0x10000 then regsHts s
  else if addr < 0x20000 then regsPwr s
  else if addr < 0x30000 then regsSpn s
  else if addr < 0x40000 then regsMem s
  else if addr < 0x50000 then regsSec s
  else if addr < 0x60000 then regsEvr s
  else if addr < 0x61000 then regsHif s
  else if addr < 0x70000 then regsQpl s
  else if addr < 0x100000 then []
  else if addr < 0x500000 then
    match fin? 4 (addr / 0x100000 - 1) with
    | none => []
    | some a =>
      if s.enginePresent a then
        let o := addr % 0x100000
        if o < 0x10000 then regsAng s a
        else if o < 0x20000 then regsSeq s a
        else if o < 0x30000 then regsZdc s a
        else if o < 0x40000 then regsSrv s a
        else if o < 0x50000 then (fins 2).flatMap fun (l : LinkIx) => if s.linkPresent a l then regsAlk s a l else []
        else if o < 0x60000 then regsRec s a
        else if o < 0x70000 then regsWrg s a
        else if o < 0x80000 then []
        else match s.globalHead a ((o - 0x80000) / 0x8000) with
          | some g => regsHead s g
          | none => []
      else []
  else if addr < 0x600000 then regsLpe s
  else if addr < 0x601000 then regsLane s
  else if addr < 0x700000 then regsPool s
  else if addr < 0x800000 then regsSlc s
  else if addr < 0x900000 then regsTrc s
  else if addr < 0xA00000 then (if addr % 4 = 0 then [⟨addr, .ro, traceWord s (addr - 0x900000)⟩] else [])
  else []

/-- The register at an address, if one is assigned (R14). -/
def findReg (s : State) (addr : Nat) : Option Reg := (regBlock s addr).find? fun r => r.addr == addr

/-- The SNAP fields a snapshot register latches (R16): those of its block; DEC_SNAP also takes the pool's (R183), SRV_SNAP the
engine's head units' servo fields and GROWN_CNT, ALK_SNAP both links. -/
def snapSet (s : State) (addr : Nat) : List Reg :=
  let own := regBlock s addr
  let more :=
    if addr = 0x600008 then regsPool s
    else if 0x100000 ≤ addr ∧ addr < 0x500000 ∧ addr % 0x100000 = 0x30004 then
      match fin? 4 (addr / 0x100000 - 1) with
      | some a => (s.headsOf a).flatMap (regsHead s)
      | none => []
    else []
  (own ++ more).filter fun r => r.kind == .snap

/-- Bits of a register with SNAP fields that are not latched: N_PAV of SPN_CMD is RO (R12). -/
def liveBits (addr : Nat) : Word := if addr = 0x20030 then 0xFFFF0000 else 0

/-- The value of a SNAP latch: what the last write of its snapshot register took, else its Reset value, which is zero for every SNAP
field of the spec (R679). -/
def State.latchAt (s : State) (addr : Nat) : Word := (alookup s.snaps addr).getD 0

/-- What a read of an assigned register returns, by its access code (R11, R12, R16). -/
def State.regRead (s : State) (r : Reg) : Word :=
  match r.kind with
  | .wo => 0
  | .snap => (s.latchAt r.addr &&& ~~~(liveBits r.addr)) ||| (r.val &&& liveBits r.addr)
  | .ro | .rw | .w1c => r.val

end Sys2Proof.Machine
end

