-- ==== Sys2Proof/Machine/Record.lean ====
section
/-! DEFINITION. Raising an event (R617, R623, R624): its record enters the holding queue, or is lost; and the event trigger of
the trace buffers (R329, R618). One function per subject for a CONDITION record, whose body is the subject's status packet
(R619). -/

namespace Sys2Proof.Machine
open Sys2Proof

/-! ### Trace trigger -/

/-- Every enabled channel has stopped: the trace is DONE (R330). -/
def Trace.settle (t : Trace) : Trace :=
  if t.state = .triggered ∧ t.chans.toList.all fun c => !c.src.getLsbD 31 || c.stopped then { t with state := .done } else t

/-- A trigger of the trace buffers (R329, R330): source bit 2 packet, 1 event, 0 angle. In ARMED it enters TRIGGERED; one more
on the same clock adds its source; any other counts TRIG_MISS. -/
def State.traceTrigger (s : State) (src : BitVec 3) : State :=
  s.modTrc fun t =>
    if t.state = .armed then
      ({ t with
        state := .triggered, src := src, trigAt := s.mtime
        chans := t.chans.map fun c =>
          { c with
            trigIdx := c.count % 8192
            firstIdx := (c.count - min c.count t.pre) % 8192
            left := 8192 - t.pre
            stopped := false } } : Trace).settle
    else if t.state = .triggered ∧ t.trigAt = s.mtime then { t with src := t.src ||| src }
    else { t with missCnt := inc 32 t.missCnt }

/-- The event trigger takes events of this type. -/
def Trace.wants (t : Trace) (type : Nat) : Bool := t.tEvt && (t.trigType == 0xFFFF || t.trigType.toNat == type)

/-! ### Records -/

/-- The record is one the recorder keeps in the queue's reserve: LOST, FREEZE, THAW (R623). -/
def Event.reserved (e : Event) : Bool := e.type == 0x0002 || e.type == 0x0003 || e.type == 0x0004

/-- A number of bytes padded to a multiple of 8. -/
def pad8 (n : Nat) : Nat := (n + 7) / 8 * 8

/-- Length of a record (R616, R618, R619): header of 24 bytes and body; SUBSYS 0x00 has no common body; a TRACE record ends
in 4 bytes that carry TRC_SAVE. -/
def recordLen (type : Nat) (words : Nat) (trace : Bool) : Nat :=
  24 + pad8 ((if type < 0x100 then 0 else 24) + 4 * words + (if trace then 4 else 0))

/-- Bytes of the queue used outside the reserve, and in it (R623). -/
def Recorder.used (e : Recorder) : Nat := ((e.queue.filter fun x => !x.reserved).map (·.len)).sum
/-- See `Recorder.used`. -/
def Recorder.reserveUsed (e : Recorder) : Nat := ((e.queue.filter Event.reserved).map (·.len)).sum

/-- The stamp a record carries: that of the originating engine, or of the reference engine (R619). -/
def State.originStamp (s : State) (level index : Nat) : Stamp :=
  if level = 3 then
    match fin? 24 index with
    | some g => s.eng[s.engineOf g].reel.stamp
    | none => {}
  else if level = 4 then
    match fin? 4 index with
    | some a => s.eng[a].reel.stamp
    | none => {}
  else s.eng[s.refEngine].reel.stamp

/-- The LOST record of R624, with the next RSEQ. -/
def State.lostRecord (s : State) : Event :=
  { type := 0x0002, level := 5, index := 0, poh := s.rst.poh, pcyc := s.rst.pcyc, rseq := s.evr.nextRseq, mtime := s.mtime
    words := [nw s.evr.lost.1, nw s.evr.lost.2], len := 32 }

/-- The LOST record enters the queue, and Q_FULL clears (R624, R626). -/
def State.pushLost (s : State) : State :=
  s.modEvr fun e =>
    { e with queue := e.queue ++ [s.lostRecord], qFull := false, lost := (0, 0), nextRseq := wrapAdd 32 e.nextRseq 1 }

/-- A record that finds no space is lost: it uses up its RSEQ (R617), LOST_CNT counts one and Q_FULL sets (R624). The event of
LOST_CNT reaching all-ones finds no space either and is lost in its turn. -/
def State.loseRecord (s : State) : State :=
  s.modEvr fun e =>
    let n := if reaches 32 e.lostCnt then 2 else 1
    { e with
      lostCnt := satAdd 32 e.lostCnt n, qFull := true, nextRseq := wrapAdd 32 e.nextRseq n
      lost := if e.lost.2 = 0 then (e.nextRseq, n) else (e.lost.1, e.lost.2 + n) }

/-- A record enters the queue with the next RSEQ, or is lost (R617, R623, R624). -/
def State.pushRecord (s : State) (e : Event) : State :=
  let fits := decide (s.evr.used + e.len ≤ 65408) && (!s.evr.qFull || decide (s.evr.reserveUsed + 32 ≤ 128))
  if fits then
    let s := if s.evr.qFull then s.pushLost else s
    s.modEvr fun r => { r with queue := r.queue ++ [{ e with rseq := r.nextRseq }], nextRseq := wrapAdd 32 r.nextRseq 1 }
  else s.loseRecord

/-- An event is raised (EVENT_RAISE, R617): type, origin, REG and VALUE of the common body, the words after it. It may trigger
the trace buffers (R329); the record that does carries TRC_SAVE + 1 in its last word (R618). -/
def State.record (s : State) (type level index reg : Nat) (value : Word) (words : List Word) : State :=
  let hit := s.trc.wants type
  let trace := hit && s.trc.state == .armed
  let e : Event :=
    { type := BitVec.ofNat 16 type, level := level, index := index, trace := trace, poh := s.rst.poh, pcyc := s.rst.pcyc
      reg := if type < 0x100 then 0 else reg, value := if type < 0x100 then 0 else value
      stamp := s.originStamp level index, mtime := s.mtime
      words := if trace then words ++ [nw ((s.trc.saveCnt + 1) % 65536)] else words
      len := recordLen type words.length trace }
  (if hit then s.traceTrigger 0b010 else s).pushRecord e

/-- A CONDITION record (KIND 0x01). -/
def State.condition (s : State) (subsys level index reg : Nat) (value : Word) (words : List Word) : State :=
  s.record (subsys * 256 + 1) level index reg value words

/-- A VIOLATION record (KIND 0x04): REG and VALUE name the counter, the body holds 16 bytes (R619). -/
def State.violation (s : State) (subsys level index reg : Nat) (value : Word) (words : List Word) : State :=
  s.record (subsys * 256 + 4) level index reg value words

/-- A SATURATED record (KIND 0x02), where an EVT counter has reached all-ones (R15). -/
def State.saturated (s : State) (reached : Bool) (subsys level index reg : Nat) (value : Word) : State :=
  if reached then s.record (subsys * 256 + 2) level index reg value [] else s

/-! ### CONDITION records by subject -/

/-- Timeline of an engine. -/
def State.condReel (s : State) (a : Eng) : State := s.condition 0x02 4 a.val (engBase a) (rAngStatus s a) (stReel s a)
/-- Arm link. -/
def State.condLink (s : State) (a : Eng) (l : LinkIx) : State :=
  s.condition 0x03 4 a.val (engBase a + 0x40000 + l.val * 0x100) (rAlkStatus s.eng[a].links[l]) (stArm s a l)
/-- Sample slice: the head's event, the status of its reader. -/
def State.condSlice (s : State) (n : SliceIx) : State :=
  s.condition 0x04 3 (sliceHead n).val (0x700100 + n.val * 0x40) (rSlcStatus s.slice[n]) (stSlice s n)
/-- Detection, for a head. -/
def State.condDet (s : State) (g : Head) : State :=
  s.condition 0x05 3 g.val (match s.laneOf g with | some l => 0x600100 + l.val * 0x80 | none => 0)
    (rLaneStatus (s.headLane g)) (stDet s g)
/-- Decoder pool. -/
def State.condPool (s : State) : State := s.condition 0x06 5 0 0x601000 (rPoolStatus s.pool) (stPool s)
/-- Recovery of an engine. -/
def State.condRec (s : State) (a : Eng) : State :=
  s.condition 0x06 4 a.val (engBase a + 0x50000) (rRecStatus s.eng[a].recv) (stRec s a)
/-- Writing: an engine's guards, with a local head's counters. -/
def State.condWrg (s : State) (a : Eng) (h : Nat) : State :=
  s.condition 0x07 4 a.val (engBase a + 0x60000) (rWrgStatus s a) (stWrt s a h)
/-- Writing: a head. -/
def State.condWr (s : State) (g : Head) : State :=
  s.condition 0x07 3 g.val (hdBase s g + 0x624) (rWrStatus s.head[g].wr) (stWrt s (s.engineOf g) (s.localOf g).val)
/-- Servo of an engine. -/
def State.condSrv (s : State) (a : Eng) : State :=
  s.condition 0x08 4 a.val (engBase a + 0x30000) (rSrvStatus s a) (stSrv s a)
/-- Servo of a head. -/
def State.condSrvH (s : State) (g : Head) : State :=
  s.condition 0x08 3 g.val (hdBase s g + 0x800) (rSrvHstat s.head[g].srv) (stSrvH s g)
/-- Level and index of what a loop slot serves (R614). -/
def loopOrigin (n : LoopIx) : Nat × Nat :=
  if n.val < 4 then (4, n.val) else if n.val < 76 then (3, loopTarget n) else (5, 0)
/-- Loop slot. -/
def State.condLoop (s : State) (n : LoopIx) : State :=
  s.condition 0x09 (loopOrigin n).1 (loopOrigin n).2 (lpBase n + 0x4) (rLpStatus s.lpe.slots[n]) (stLoop s n)
/-- Spindle. -/
def State.condSpn (s : State) : State := s.condition 0x0A 5 0 0x20000 (rSpnStatus s) (stSpn s)
/-- Sequencer. -/
def State.condSeq (s : State) (a : Eng) : State :=
  s.condition 0x0B 4 a.val (engBase a + 0x10000) (rSeqStatus s.eng[a].seq) (stSeq s a)
/-- Zones of an engine. -/
def State.condZdc (s : State) (a : Eng) : State :=
  s.condition 0x0C 4 a.val (engBase a + 0x20000) (rZdcStatus s.eng[a].zdc) (stZdc s a)
/-- Media map of a head. -/
def State.condMap (s : State) (g : Head) : State :=
  s.condition 0x0C 3 g.val (hdBase s g + 0xA00) (rHmap s.head[g].map) (stZdc s (s.engineOf g))
/-- Host link. -/
def State.condHif (s : State) : State := s.condition 0x0D 5 0 0x60000 (rHifStatus s.host) (stHif s)
/-- Queues. -/
def State.condQpl (s : State) : State := s.condition 0x0E 5 0 0x61000 (rQplStatus s) (stQpl s)
/-- Power arbiter. -/
def State.condPwr (s : State) : State := s.condition 0x0F 5 0 0x10000 (rPwrStatus s.pwr) (stPwr s)
/-- Power arbiter, about an engine island. -/
def State.condPwrEng (s : State) (a : Eng) : State :=
  s.condition 0x0F 4 a.val (0x10600 + a.val * 0x10) (rEngPwr s.pwr.eng[a]) (stPwr s)
/-- Memory. -/
def State.condMem (s : State) : State := s.condition 0x10 5 0 0x30000 (rMemStatus s.mem) (stMem s)
/-- Security and firmware. -/
def State.condSec (s : State) : State := s.condition 0x11 5 0 0x40000 (rSecStatus s) (stSec s)
/-- Start, resets and power loss: the module. -/
def State.condRst (s : State) : State := s.condition 0x12 5 0 0x300 (rRstStatus s) (stRst s)
/-- Start, resets and power loss: an engine's load. -/
def State.condAct (s : State) (a : Eng) : State :=
  s.condition 0x12 4 a.val (0x340 + a.val * 0x10) (rActStatus s.rst.act[a]) (stRst s)
/-- Module and processors. -/
def State.condMod (s : State) (level index : Nat) : State := s.condition 0x01 level index 0x400 (rHtsStatus s.het) (stHts s 0)

end Sys2Proof.Machine
end

