-- ==== Sys2Proof/Machine/Hetos.lean ====
section
/-! DEFINITION. The Hetos path shared by every packet (15_hetos_packets.md): header checks, permission, dry runs, counters,
replies, and the exchange a packet stands in. -/

namespace Sys2Proof.Machine
open Sys2Proof

/-! ### Completions of commands -/

/-- Success. -/
def stOk : NvStatus := {}
/-- A generic command status. -/
def stGen (sc : Nat) (dnr : Bool) : NvStatus := { sct := 0, sc, dnr }
/-- A command-specific status. -/
def stCmd (sc : Nat) : NvStatus := { sct := 1, sc, dnr := true }
/-- Internal Error. -/
def stInternal : NvStatus := stGen 0x06 false
/-- Invalid Field in Command. -/
def stInvalidField : NvStatus := stGen 0x02 true
/-- Invalid Command Opcode. -/
def stInvalidOpcode : NvStatus := stGen 0x01 true

/-- One entry more in a completion queue: the tail moves on, the phase tag turns at the wrap. -/
def CompQueue.post (c : CompQueue) : CompQueue :=
  if c.tail + 1 < c.size then { c with tail := c.tail + 1 } else { c with tail := 0, phase := !c.phase }

/-- The completion queue cannot take an entry. -/
def CompQueue.full (c : CompQueue) : Bool := decide (0 < c.size ∧ (c.tail + 1) % c.size = c.head)

/-- A partner's violation at a function or interface (R467, R468): the first of each power-on hour is recorded in full, the
others are counted for the summary. -/
def State.violated (s : State) (v : Violation) (f : Nat) (level index reg : Nat) (value : Word) (words : List Word) : State :=
  let same := fun (x : Violation × Nat × Nat) => x.1 == v && x.2.1 == f
  if s.host.violations.any same then
    s.modHost fun h => { h with violations := h.violations.map fun x => if same x then (x.1, x.2.1, x.2.2 + 1) else x }
  else (s.modHost fun h => { h with violations := h.violations ++ [(v, f, 0)] }).violation 0x0D level index reg value words

/-- A status that says a command failed a standard check (R467): not one of media, of a transfer, of an abort or of an operation in
progress. -/
def NvStatus.check (st : NvStatus) : Bool :=
  decide (st.sct = 1) || (decide (st.sct = 0) && !([0x00, 0x04, 0x06, 0x07, 0x08, 0x1D, 0x84].contains st.sc))

/-- A completion entry posted in its queue, with its interrupt; a command that failed a standard check is counted (R467). -/
def State.post (s : State) (c : Completion) : State :=
  let f := s.host.fns[c.fn]
  let irq := (f.cqs.find? fun q => q.id == c.cq).filter (·.irqEn)
  let s := s.modFn c.fn fun x => { x with cqs := x.cqs.map fun q => if q.id = c.cq then q.post else q }
  let s := if c.status.check then
      let s := s.modFn c.fn fun x => { x with cmdErrCnt := satAdd 16 x.cmdErrCnt 1 }
      s.violated .cmdErr c.fn.val 7 c.fn.val (0x60114 + 0x20 * c.fn.val)
        (mkw [bf 31 16 s.host.fns[c.fn].cmdErrCnt, bf 15 0 s.host.fns[c.fn].cmbPoisCnt])
        [mkw [bf 31 16 c.sq, bf 15 0 c.cid.toNat], mkw [bf 10 8 c.status.sct, bf 7 0 c.status.sc, bb 14 c.status.dnr], 0, 0]
    else s
  s.modOut fun o =>
    { o with
      completions := c :: o.completions
      irqs := match irq with
        | some q => (c.fn, q.vector) :: o.irqs
        | none => o.irqs }

/-- Completion of an admin command. -/
def State.postAdmin (s : State) (f : Fn) (cid : BitVec 16) (st : NvStatus) (dw0 : Word) (words : List Word) : State :=
  s.post { fn := f, sq := 0, cq := 0, cid := cid, status := st, dw0 := dw0
           sqHead := ((s.host.fns[f].sqs.find? fun q => q.id == 0).map (·.head)).getD 0, words := words }

/-- Bits 31:17 of a completion's last word: its status. -/
def NvStatus.word (x : NvStatus) : Word := mkw [bb 31 x.dnr, bf 27 25 x.sct, bf 24 17 x.sc]

/-- An admin command's completion: on its admin queue, or, tunnelled, as the answer to its NVMe-MI request, which carries the
completion's words 0, 1 and 3 and the data (R466, log 68). -/
def State.answerAdmin (s : State) (q : AdmReq) (st : NvStatus) (dw0 : Word) (words : List Word) : State :=
  match q.mi with
  | none => s.postAdmin q.fn q.cid st dw0 words
  | some tag => s.modOut fun o => { o with mi := (tag, 0, [dw0, 0, st.word] ++ words) :: o.mi }

/-- An NVMe-MI request that names no controller of the module, or a command it does not tunnel, ends with the status of NVMe-MI
(log 68). -/
def State.refuseMi (s : State) (q : AdmReq) (st : Nat) : State := s.modOut fun o => { o with mi := (q.mi.getD 0, st, []) :: o.mi }

/-! ### Packets -/

/-- Class of a packet (R518). -/
inductive OpClass where
  | read | config | action
  deriving DecidableEq, Repr

/-- A row of the master opcode table (R531): code, levels, class. -/
structure OpInfo where
  code : Nat
  levels : List Nat
  cls : OpClass
  deriving DecidableEq, Repr

/-- What a packet's own rule makes of it: the state after it, STATUS, CLAMP and the result words; or a wait under its
subject's rule, the reply coming later (R522). -/
structure PktRes where
  state : State
  status : Nat := 0
  clamp : Nat := 0
  result : List Word := []
  wait : Bool := false

/-- A packet that completes with a status and no effect. -/
def PktRes.fail (s : State) (status : Nat) : PktRes := { state := s, status := status }
/-- A packet that only reports. -/
def PktRes.report (s : State) (result : List Word) : PktRes := { state := s, result := result }

/-- Target level of a packet. -/
def Packet.lvl (p : Packet) : Nat := p.level.toNat % 8
/-- Target index of a packet. -/
def Packet.idx (p : Packet) : Nat := p.index.toNat
/-- STOP. -/
def Packet.stop (p : Packet) : Bool := p.flags.getLsbD 0
/-- DRY. -/
def Packet.dry (p : Packet) : Bool := p.flags.getLsbD 1

/-- Transport of a sender (R525): 0 NVMe, 1 SMBus, 2 PCIe VDM. -/
def Sender.transport : Sender → Fin 3
  | .nvme _ => 0 | .smbus => 1 | .vdm => 2

/-- The index lies within the range of its level (R513). -/
def indexInRange (lvl idx : Nat) : Bool :=
  match lvl with
  | 3 => decide (idx < 24)
  | 4 => decide (idx < 4)
  | 5 => idx == 0
  | 6 => decide (idx < 128)
  | 7 => decide (idx < 16)
  | _ => false

/-- The sender may send the packet (R442, R525): a VF only read-class packets, while its bit of HIF_HPERM is set, and at
level 7 only about itself. -/
def permitted (s : State) (src : Sender) (cls : OpClass) (lvl idx : Nat) : Bool :=
  match src with
  | .smbus => true
  | .vdm => true
  | .nvme f =>
    f.val == 0 || (cls == .read && s.host.vfRead.getLsbD (f.val - 1) && (lvl != 7 || idx == f.val))

/-- The target is present (R513). -/
def targetPresent (s : State) (lvl idx : Nat) : Bool :=
  match lvl with
  | 3 => decide (idx < s.layout.total)
  | 4 => decide (idx < s.layout.engines)
  | 7 => match fin? 16 idx with
    | some f => s.host.fns[f].present
    | none => false
  | _ => true

/-- The target is a failed actuator engine or a head of one (check 8 of R514). -/
def targetFailed (s : State) (lvl idx : Nat) : Bool :=
  match lvl with
  | 3 => match fin? 24 idx with
    | some g => s.engineFailed (s.engineOf g)
    | none => false
  | 4 => match fin? 4 idx with
    | some a => s.engineFailed a
    | none => false
  | _ => false

/-- The header checks of R514 after the first, in order: the status of the first that fails, 0 when all pass. -/
def headerCheck (o : OpInfo) (p : Packet) (s : State) : Nat :=
  if !o.levels.contains p.lvl then 0x0102
  else if !indexInRange p.lvl p.idx then 0x0103
  else if p.flags.toNat / 4 ≠ 0 ∨ p.level.toNat / 8 ≠ 0 then 0x0104
  else if p.dry && o.cls != .config then 0x0104
  else if !permitted s p.src o.cls p.lvl p.idx then 0x0401
  else if !targetPresent s p.lvl p.idx then 0x0201
  else if o.cls != .read && targetFailed s p.lvl p.idx then 0x0202
  else 0

/-- The counters of R536 after a packet that was run. -/
def HetosCounters.ran (c : HetosCounters) (status clamp : Nat) : HetosCounters :=
  { pkt := inc 32 c.pkt
    fail := if status = 0 then c.fail else inc 32 c.fail
    deny := if status = 0x0401 ∨ status = 0x0403 then inc 32 c.deny else c.deny
    clamp := if clamp = 0 then c.clamp else inc 32 c.clamp }

/-- A reply (R510, R511): results and CLAMP are zero unless STATUS is 0x0000. -/
def mkReply (code : Nat) (tag : BitVec 16) (status clamp : Nat) (result : List Word) : Reply :=
  { opcode := BitVec.ofNat 16 code, status := BitVec.ofNat 16 status, tag := tag
    clamp := if status = 0 then BitVec.ofNat 16 clamp else 0
    result := Vector.ofFn fun (i : Fin 6) => if status = 0 then (result[i.val]?).getD 0 else 0 }

/-- Count a packet that was run on its transport; DENY_CNT is EVT. -/
def State.countPacket (s : State) (src : Sender) (status clamp : Nat) : State :=
  let t := src.transport
  let full := (status == 0x0401 || status == 0x0403) && reaches 32 s.het.cnt[t].deny
  let s := s.modHet fun h => { h with cnt := vmod h.cnt t fun c => c.ran status clamp }
  s.saturated full 0x01 5 0 (0x418 + t.val * 0x10) (nw s.het.cnt[t].deny)

/-- Opcodes of R531 below 0x8000 that have no packet are answered 0x0101; those from 0x8000 are production test: 0x0403 unless
P-DBG is unlocked with SCOPE 0x02, and none is described (R514, R531). In recovery mode every packet but three is refused (R637). -/
def assignedOps : List Nat :=
  [0x0100, 0x0101, 0x0102, 0x0103, 0x0104, 0x0120, 0x0121, 0x0122, 0x0123, 0x0130, 0x0131, 0x0132, 0x0133] ++
  [0x0140, 0x0141, 0x0142, 0x0143, 0x0150, 0x0151, 0x0152, 0x0153, 0x0154, 0x0160, 0x0161, 0x0162, 0x0163, 0x0164, 0x0165,
    0x0166, 0x0167] ++
  [0x0170, 0x0171, 0x0172, 0x0173, 0x0174, 0x0175, 0x0180, 0x0181, 0x0182, 0x0183, 0x0184, 0x0185, 0x0186] ++
  [0x0190, 0x0191, 0x0192, 0x0193, 0x0194, 0x01A0, 0x01A1, 0x01A2, 0x01A3, 0x01B0, 0x01B1, 0x01B2, 0x01B3, 0x01B4, 0x01B5,
    0x01B6] ++
  [0x01C0, 0x01C1, 0x01C2, 0x01C3, 0x01C4, 0x01D0, 0x01D1, 0x01D2, 0x01D3, 0x01D4, 0x01D5, 0x01D6, 0x01D7, 0x01D8, 0x01D9] ++
  [0x01E0, 0x01E1, 0x01E2, 0x01E3, 0x01E4, 0x01F0, 0x01F1, 0x01F2, 0x01F3, 0x01F4, 0x01F5, 0x01F6] ++
  [0x0200, 0x0201, 0x0202, 0x0203, 0x0210, 0x0211, 0x0212, 0x0213, 0x0214, 0x0215, 0x0220, 0x0221, 0x0222, 0x0223] ++
  [0x0230, 0x0231, 0x0232, 0x0233, 0x0234, 0x0240, 0x0241, 0x0242, 0x0243]

/-- Status of a packet whose opcode is not assigned (check 1 of R514). -/
def badOpStatus (s : State) (op : Nat) : Nat :=
  if s.rst.recovery then 0x0203
  else if 0x8000 ≤ op ∧ !(s.sec.dbgUnlock && s.sec.dbgScope == 2) then 0x0403 else 0x0101

/-- The packets of an exchange that are answered without a command of their own: every one after a STOP (0x0205, R519), and
those whose opcode is not assigned, as far as they stand next. Answers the state and the exchange. -/
def answerIdle (s : State) (ex : Exchange) : List (BitVec 16 × Packet) → State × Exchange
  | [] => (s, { ex with todo := [] })
  | (op, p) :: rest =>
    if ex.stopped then
      let r := mkReply op.toNat p.tag 0x0205 0 []
      answerIdle (s.modOut fun o => { o with replies := (ex.src, r) :: o.replies })
        { ex with replies := ex.replies ++ [r] } rest
    else if assignedOps.contains op.toNat then (s, { ex with todo := (op, p) :: rest })
    else
      let st := badOpStatus s op.toNat
      let r := mkReply op.toNat p.tag st 0 []
      let s := s.modHet fun h => { h with lastOp := op }
      let s := (s.countPacket ex.src st 0).modOut fun o => { o with replies := (ex.src, r) :: o.replies }
      answerIdle s { ex with replies := ex.replies ++ [r], stopped := p.stop } rest

/-- Dword 0 of the completion of a Hetos exchange (R527). -/
def exchangeDword (replies : List Reply) : Word :=
  let bad := replies.findIdx? fun r => r.status != 0
  mkw [bb 23 bad.isSome, bf 22 16 (bad.getD 0x7F), bf 6 0 (replies.filter fun r => r.status != 0x0205).length]

/-- The body of the response message of an exchange (R528): header, replies, and their message integrity check. -/
def responseBytes (replies : List Reply) : List Nat :=
  let body := [0xFE] ++ leBytes 2 0x1F4C ++ [0x02, replies.length, 0, 0, 0] ++ replies.flatMap Reply.bytes
  body ++ leBytes 4 (crc32c body)

/-- An exchange that has ended is answered: its replies in the reply buffer, reply n at its address plus 32n, and the completion of its
admin command (R526, R527), or its response message (R528); one dropped by a function reset gets neither (R524). -/
def State.endExchange (s : State) (ex : Exchange) : State :=
  let s := s.modHet fun h => { h with exchanges := h.exchanges.filter fun x => x.xid ≠ ex.xid }
  if ex.dropped then s
  else
    let s := s.modOut fun o => { o with exchanges := (ex.xid, exchangeDword ex.replies) :: o.exchanges }
    match ex.src with
    | .nvme f =>
      let s := if ex.writeFails then s else s.modOut fun o =>
        { o with replyWrites := (ex.replies.zipIdx.map fun r => (f, ex.buf + 32 * r.2, r.1.bytes)).reverse ++ o.replyWrites }
      s.postAdmin f ex.cid (if ex.writeFails then stGen 0x04 false else stOk) (exchangeDword ex.replies) []
    | _ => s.modOut fun o => { o with messages := (ex.eid, ex.mtag, responseBytes ex.replies) :: o.messages }

/-- An exchange after one of its packets has replied, or at its start: what needs no command of its own is answered, and the
exchange ends when nothing is left. -/
def State.advanceExchange (s : State) (ex : Exchange) : State :=
  let (s, ex) := answerIdle s ex ex.todo
  if ex.todo.isEmpty || ex.dropped then s.endExchange ex
  else s.modHet fun h => { h with exchanges := h.exchanges.map fun x => if x.xid = ex.xid then ex else x }

/-- A packet's reply is formed (R510, R519, R536). -/
def State.reply (s : State) (code : Nat) (p : Packet) (status clamp : Nat) (result : List Word) : State :=
  let r := mkReply code p.tag status clamp result
  let s := s.countPacket p.src status (if status = 0 then clamp else 0)
  match s.het.exchanges.find? fun x => x.xid = p.xid with
  | none => s.modOut fun o => { o with replies := (p.src, r) :: o.replies }
  | some ex =>
    let s := if ex.dropped then s else s.modOut fun o => { o with replies := (p.src, r) :: o.replies }
    s.advanceExchange { ex with replies := ex.replies ++ [r], stopped := p.stop && status != 0 }

/-- The packet may start now: its exchange runs, the packet before it has replied and it stands next (R519), or it is alone in
an exchange and fewer than 8 run (R520); no activation pause is on (R524); 12 V is present and no power loss under way (R631,
R651); and no earlier class C or A packet to its target still waits for its reply (R521). -/
def mayStart (o : OpInfo) (p : Packet) (s : State) : Bool :=
  !s.sec.pausing && s.rst.rail12 && !s.rst.powerLoss &&
  (match s.het.exchanges.find? fun x => x.xid = p.xid with
    | none => decide (s.het.active < 8)
    | some ex => ex.running && !(s.het.waiting.any fun w => w.2.xid == p.xid) && (match ex.todo with
      | (op, q) :: _ => op.toNat == o.code && q == p
      | [] => false)) &&
  (o.cls == .read || !s.het.waiting.any fun w => w.2.level == p.level && w.2.index == p.index)

/-- The packet is the one at the head of its exchange: it leaves the list as it starts. -/
def State.startPacket (s : State) (o : OpInfo) (p : Packet) : State :=
  s.modHet fun h =>
    { h with
      lastOp := BitVec.ofNat 16 o.code
      exchanges := h.exchanges.map fun x => if x.xid = p.xid then { x with todo := x.todo.drop 1 } else x }

/-- One packet: it starts, its header is checked, its rule runs, and its reply is formed or it waits under its subject's rule
(R514 to R522); in recovery mode only three opcodes run (R637). A class C packet with DRY set changes nothing but its counters
and reply, and does not wait (R517). A packet that may not start yet leaves the state as it is (log 11). -/
def runPacket (o : OpInfo) (p : Packet) (s : State) (body : State → PktRes) : State :=
  if mayStart o p s then
    let s := s.startPacket o p
    let h := if s.rst.recovery ∧ !([0x0100, 0x0220, 0x0240] : List Nat).contains o.code then 0x0203 else headerCheck o p s
    if h ≠ 0 then s.reply o.code p h 0 []
    else
      let r := body s
      if r.wait && !p.dry then r.state.modHet fun x => { x with waiting := x.waiting ++ [(BitVec.ofNat 16 o.code, p)] }
      else
        let s' := if p.dry then s else r.state
        s'.reply o.code p r.status r.clamp r.result
  else s

/-- The waiting packets of an opcode that a test selects reply now (R522). -/
def State.replyWaiting (s : State) (code : Nat) (sel : Packet → Bool) (status : Nat) (result : State → Packet → List Word)
    (clamp : Packet → Nat := fun _ => 0) : State :=
  let hit := fun (w : BitVec 16 × Packet) => w.1.toNat == code && sel w.2
  let ws := s.het.waiting.filter hit
  let s := s.modHet fun h => { h with waiting := h.waiting.filter fun w => !hit w }
  ws.foldl (fun s w => s.reply code w.2 status (clamp w.2) (result s w.2)) s

/-- The values selected by a mask, in the order of the bits, at most six words. -/
def selected (mask : Nat) (vals : List (List Word)) : List Word :=
  ((vals.zipIdx.map fun (v, i) => if mask.testBit i then v else []).flatten).take 6

/-- A counter cleared where its bit is set. -/
def clr (mask i n : Nat) : Nat := if mask.testBit i then 0 else n

end Sys2Proof.Machine
end

