-- ==== Sys2Proof/Machine/Pool.lean ====
section
/-! DEFINITION. The decoder pool's arbiter (R185 to R197): requests, grants, decisions, starvation, and an engine that becomes
free. -/

namespace Sys2Proof.Machine
open Sys2Proof

/-- The requester a lane is. -/
def laneReq (l : LaneIx) : ReqIx := ⟨l.val, by omega⟩
/-- The requester an engine's recovery sequencer is. -/
def recReq (a : Eng) : ReqIx := ⟨24 + a.val, by omega⟩
/-- The lane a requester is, if it is one. -/
def reqLane (r : ReqIx) : Option LaneIx := fin? 24 r.val
/-- The actuator engine whose recovery sequencer a requester is. -/
def reqEng (r : ReqIx) : Eng := finMod 4 (by decide) (r.val - 24)

/-- An engine of the pool is a deep decoder. -/
def deepEngine (e : DecIx) : Bool := decide (36 ≤ e.val)

/-! ### Layers and beats (R169, R187) -/

/-- The layers an engine has begun of a codeword's current local iteration (R169, R170): 0 while it runs none. -/
def Slot.rowsBegun (c : Slot) (t : MTime) : Nat :=
  if !c.passed || c.checking || decide (t < c.layerFrom) then 0 else min 41 ((t - c.layerFrom) * 41 / 1152 + 1)

/-- MTIME at which the current beat of an engine held since h ends (R187). -/
def beatEnd (h t : MTime) : MTime := h + ((t - h) / 64 + 1) * 64

/-- MTIME at which an engine held since h that is told to stop at a clock t stops (R166, R168, R210): at the end of its current layer, or
of its current beat while it runs none. -/
def Slot.stopTime (c : Slot) (h t : MTime) : MTime :=
  if c.rowsBegun t = 0 then beatEnd h t else c.layerFrom + (1152 * c.rowsBegun t + 40) / 41

/-! ### Requests -/

/-- A slot's or job's pending request leaves the pool. -/
def State.dropRequest (s : State) (r : ReqIx) (f : ReqFor) : State :=
  s.modPool fun p => { p with reqs := vmod p.reqs r fun q =>
    let pending := q.pending.filter fun x => x.for_ ≠ f
    if pending.head? = q.pending.head? then { q with pending := pending }
    else { q with pending := pending, loss := 0, promoted := none } }

/-- A requester's oldest pending request of a kind. -/
def PoolRequester.candidate (r : PoolRequester) (deep : Bool) : Option PoolReq := r.pending.find? fun q => q.deep == deep

/-- Requester x with request q goes before requester y with request p (R189, R194). -/
def State.before (s : State) (x : ReqIx) (q : PoolReq) (y : ReqIx) (p : PoolReq) : Bool :=
  let lx := s.effLevel x q
  let ly := s.effLevel y p
  let tx := if lx = 4 then (s.pool.reqs[x].promoted).getD 0 else q.at_
  let ty := if ly = 4 then (s.pool.reqs[y].promoted).getD 0 else p.at_
  decide (ly < lx ∨ (lx = ly ∧ (tx < ty ∨ (tx = ty ∧ x < y))))

/-- The best pending request for an engine kind. -/
def State.bestRequest (s : State) (deep : Bool) : Option (ReqIx × PoolReq) :=
  (fins 28).foldl (fun (acc : Option (ReqIx × PoolReq)) (r : ReqIx) =>
    match s.pool.reqs[r].candidate deep with
    | none => acc
    | some q => match acc with
      | none => some (r, q)
      | some (y, p) => if s.before r q y p then some (r, q) else acc) none

/-- STARVE_THR of a level (R194). -/
def Pool.starveThr (p : Pool) (level : Nat) : Nat :=
  match level with
  | 0 => fld p.cfg 31 24
  | 1 => fld p.cfg 23 16
  | 2 => fld p.cfg 15 8
  | _ => fld p.cfg 7 0

/-- A requester loses a decision for the kind of its oldest pending request (R194). -/
def State.lose (s : State) (r : ReqIx) : State :=
  let x := s.pool.reqs[r]
  match x.pending with
  | [] => s
  | q :: _ =>
    let loss := satAdd 8 x.loss 1
    let thr := s.pool.starveThr (s.reqLevel r q)
    let promote := x.promoted.isNone && decide (0 < thr ∧ thr ≤ loss)
    let s := s.modPool fun p => { p with reqs := vmod p.reqs r fun x =>
      { x with loss := loss
               promoted := if promote then some s.mtime else x.promoted
               starveCnt := if promote then inc 32 x.starveCnt else x.starveCnt } }
    s.saturated (promote && reaches 32 x.starveCnt) 0x06 5 0 (0x601408 + r.val * 0x10) (nw (x.starveCnt + 1))

/-- The request of a requester leaves the pending list as it is chosen; its wait ends (R194). -/
def State.chosen (s : State) (r : ReqIx) (q : PoolReq) : State :=
  s.modPool fun p => { p with reqs := vmod p.reqs r fun x =>
    let oldest := x.pending.head? == some q
    { x with
      pending := x.pending.erase q, grantCnt := inc 32 x.grantCnt, waitMax := max x.waitMax (min (s.mtime - q.at_) (2 ^ 32 - 1))
      loss := if oldest then 0 else x.loss, promoted := if oldest then none else x.promoted } }

/-- A decision for an engine kind goes to a request (R194): the other requesters whose oldest pending request is of the kind lose. -/
def State.award (s : State) (deep : Bool) (r : ReqIx) (q : PoolReq) : State :=
  ((fins 28).foldl (fun (x : State) (y : ReqIx) =>
    if y ≠ r ∧ ((s.pool.reqs[y].pending.head?).map (·.deep)) = some deep then x.lose y else x) s).chosen r q

/-- A decision for an engine kind (R188, R189, R194): the best request is chosen. -/
def State.decide_ (s : State) (deep : Bool) : State × Option (ReqIx × PoolReq × Nat) :=
  match s.bestRequest deep with
  | none => (s, none)
  | some (r, q) => (s.award deep r q, some (r, q, s.effLevel r q))

/-- An engine is bound to a request (R186), a deep one under a grant of the power arbiter (R542): the slot is in
DECODE, or the job decodes, at the start of global iteration 1. -/
def State.bindEngine (s : State) (e : DecIx) (r : ReqIx) (q : PoolReq) (lvl : Nat) : State :=
  let s := if q.deep then s.modPwr fun p => { p with deepGnt := p.deepGnt - 1 } else s
  let s := s.modPool fun p => { p with engines := vmod p.engines e fun x =>
    { x with
      state := .held, parked := false, owner := r.val, ownPrio := lvl, glob := 1, job := some q, heldSince := s.mtime, next := none
      stopAt := none, cw := inc 32 x.cw } }
  let start := fun (k : Slot) =>
    { k with
      state := .decode, engine := some e, glob := 1, loc := 0, u1 := 0, uEnd := 0, passed := true, checking := false
      post := k.chan, msgs := [], layer := 0, layerFrom := s.mtime + 2304 }
  match q.for_ with
  | .slot k => match reqLane r with
    | some l => s.modSlot l k start
    | none => s
  | .job j => s.modRec (reqEng r) fun x =>
      { x with jobs := vmod x.jobs j fun o => o.map fun o =>
        if q.deep then { o with wait := .decoding, deepEng := some e, timer := none
                                acquired := some (o.acquired.getD (s.eng[s.refEngine].reel.stamp.linear)) }
        else { o with cw := start o.cw } }

/-- A pending request that is still wanted: its slot waits, or its job has it open. -/
def State.wanted (s : State) (r : ReqIx) (q : PoolReq) : Bool :=
  match q.for_ with
  | .slot k => match reqLane r with
    | some l => s.lane[l].slots[k].state == .wait
    | none => false
  | .job j => s.eng[reqEng r].recv.jobs[j].isSome

/-- The arbiter decides on the clock an engine becomes free (R188, R190, R543): a standard engine beyond the powered count is gated, and
a deep one waits for the power arbiter's grant; with no request pending the engine stays parked on its last owner. -/
def State.decideFree (s : State) (e : DecIx) : State :=
  let on := ((fins 36).filter fun (i : Fin 36) => !s.pool.engines[(⟨i.val, by omega⟩ : DecIx)].gated).length
  if deepEngine e && s.pwr.deepFree = 0 then s
  else if !deepEngine e && decide (s.pwr.decOn < on) then
    s.modPool fun p => { p with engines := vmod p.engines e fun x => { x with gated := true } }
  else
    match s.decide_ (deepEngine e) with
    | (s, some (r, q, lvl)) => s.bindEngine e r q lvl
    | (s, none) => s

/-- An engine becomes free (R187, R188): the decision made in its final beat takes effect; without one, or where the request decided for
is no longer wanted, the arbiter decides now. -/
def State.releaseEngine (s : State) (e : DecIx) : State :=
  let x := s.pool.engines[e]
  if x.state = .failed then
    s.modPool fun p => { p with engines := vmod p.engines e fun x => { x with job := none, next := none, stopAt := none } }
  else if x.state = .idle then s
  else
    let s := s.modPool fun p => { p with engines := vmod p.engines e fun x =>
      { x with state := .idle, parked := true, job := none, next := none, stopAt := none, idleSince := s.mtime, glob := 0
               busy := x.busy + (s.mtime - x.heldSince) } }
    match x.next with
    | some (r, q) => if s.wanted r q then s.bindEngine e r q x.ownPrio else s.decideFree e
    | none => s.decideFree e

/-- The idle engine of a kind a request finds (R190): one parked on the requester, else the one idle longest, ties to the lowest
number. -/
def State.idleEngine (s : State) (r : ReqIx) (deep : Bool) : Option DecIx :=
  let idle := fun (e : DecIx) => s.pool.engines[e].state == .idle && deepEngine e == deep &&
    (if deep then decide (0 < s.pwr.deepFree) else !s.pool.engines[e].gated)
  ((fins 40).find? fun (e : DecIx) => idle e && s.pool.engines[e].parked && s.pool.engines[e].owner == r.val).orElse fun _ =>
    (fins 40).foldl (fun (acc : Option DecIx) (e : DecIx) =>
      if idle e then
        match acc with
        | none => some e
        | some f => if s.pool.engines[e].idleSince < s.pool.engines[f].idleSince then some e else acc
      else acc) none

/-- Pending requests of a kind take the idle engines of that kind (R190), in the order of R189. -/
def State.serveIdle (s : State) (deep : Bool) : Nat → State
  | 0 => s
  | n + 1 =>
    match s.bestRequest deep with
    | none => s
    | some (r, q) =>
      match s.idleEngine r deep with
      | none => s
      | some e => ((s.award deep r q).bindEngine e r q (s.effLevel r q)).serveIdle deep n

/-- Pending requests take idle engines (R190). -/
def State.servePool (s : State) : State := (s.serveIdle false 36).serveIdle true 4

/-- A request is made (R186, R190): granted an idle engine of its kind, else pending. A request already pending is not made again; its
level is raised (R192). -/
def State.request (s : State) (r : ReqIx) (q : PoolReq) : State :=
  if s.pool.reqs[r].pending.any fun p => p.for_ == q.for_ && p.deep == q.deep then
    s.modPool fun p => { p with reqs := vmod p.reqs r fun x => { x with pending := x.pending.map fun y =>
      if y.for_ == q.for_ && y.deep == q.deep then { y with raised := max y.raised q.raised } else y } }
  else
    let s := s.modPool fun p => { p with reqs := vmod p.reqs r fun x => { x with pending := x.pending ++ [q] } }
    match s.idleEngine r q.deep with
    | some e => (s.chosen r q).bindEngine e r q (s.effLevel r q)
    | none => s

end Sys2Proof.Machine
end

