-- ==== Sys2Proof/Machine/Gates.lean ====
section
/-! DEFINITION. Operations the families share: angles, gates forced off, strobes, suspect sectors, packets and codewords that
end, comparators disarmed, and the timeline entering a state without gates (R49 to R59, R82, R116 to R122, R166, R175, R234,
R242, R248). -/

namespace Sys2Proof.Machine
open Sys2Proof

/-! ### Angles (R65) -/

/-- x minus y as linear angles modulo 2^32 revolutions, the nearer way round. -/
def angleDiff (x y : Angle) : Int :=
  let d := (x % angleModulus + (angleModulus - y % angleModulus)) % angleModulus
  if d < angleModulus / 2 then (d : Int) else (d : Int) - angleModulus

/-- A stamp has reached a target (R65): the difference is less than 2^31 revolutions. -/
def reached (x y : Angle) : Bool := decide (0 ≤ angleDiff x y)

/-- A linear angle moved by a signed number of FRAC units. -/
def angleAdd (x : Angle) (n : Int) : Angle := ((x : Int) + n).emod angleModulus |>.toNat

/-- The linear angle of an engine's stamp. -/
def State.angle (s : State) (a : Eng) : Angle := s.eng[a].reel.stamp.linear

/-- Mean wedge period as (clocks, periods): the mean of the listed periods, or one wedge at the measured spindle speed (R47). -/
def State.wedgeClocks (s : State) (a : Eng) : Nat × Nat :=
  let p := s.eng[a].reel.periods
  if p.isEmpty then (if s.spn.speed = 0 then (0, 1) else (3000000000 * 60 * 16, 720 * s.spn.speed)) else (p.sum, p.length)

/-- FRAC_INC from the mean wedge period: round(2^32 / T) (R47); 0 while the spindle's speed is zero. -/
def State.newInc (s : State) (a : Eng) : Nat :=
  let (n, k) := s.wedgeClocks a
  if n = 0 then 0 else (roundDiv (2 ^ 32 * k : Nat) n).toNat

/-- A lead in datapath clocks as an angle (R236): ceil(lead × FRAC_INC / 2^16). -/
def State.leadAngle (s : State) (a : Eng) (clocks : Nat) : Nat := (clocks * s.eng[a].reel.fracInc + 65535) / 65536

/-- The stamp set to a linear angle at its start of a FRAC unit. -/
def Reel.setAngle (r : Reel) (x : Angle) : Reel := { r with stamp := Stamp.ofLinear x, accLow := 0 }

/-! ### Head and arm targets (R273) -/

/-- HEAD_XOFS. -/
def HeadServo.ofs (h : HeadServo) : Int := h.xofs.toInt

/-- Positions are 30 bits. -/
def pos30 (x : Int) : Nat := (clampInt 0 (2 ^ 30 - 1) x).toNat

/-- The least and greatest (head target − HEAD_XOFS) over the active heads and one more head (R273). -/
def State.targetSpan (s : State) (a : Eng) (more : List (Head × Int)) : Option (Int × Int) :=
  let l := ((s.headsOf a).filterMap fun g =>
    let h := s.head[g].srv
    if h.active && !more.any (fun m => m.1 == g) then some ((h.tgt : Int) - h.ofs) else none) ++ more.map (·.2)
  match l with
  | [] => none
  | x :: t => some (t.foldl min x, t.foldl max x)

/-- The arm target follows the active heads (R273). -/
def State.retarget (s : State) (a : Eng) : State :=
  match s.targetSpan a [] with
  | some (lo, hi) => s.modSrv a fun v => { v with armTgt := pos30 ((lo + hi) / 2) }
  | none => s

/-- A head's run has ended: it is no longer active, unless the core takes its next item (R273). -/
def State.deactivate (s : State) (g : Head) : State := (s.modHs g fun h => { h with active := false }).retarget (s.engineOf g)

/-! ### Strobes (R82, R83) -/

/-- An off-type strobe: K28.2 or K23.7 (R83). -/
def DueStrobe.off (x : DueStrobe) : Bool := x.sym == .writeOff || x.sym == .safe

/-- Strobe x is sent before strobe y of the same clock (R83): off-type before on-type, then rising comparator number. -/
def DueStrobe.before (x y : DueStrobe) : Bool := (x.off && !y.off) || (x.off == y.off && decide (x.cmp < y.cmp))

/-- A strobe takes its place among those that wait (R83): behind those of earlier clocks. -/
def placeStrobe (x : DueStrobe) : List DueStrobe → List DueStrobe
  | [] => [x]
  | y :: l => if y.at_ = x.at_ ∧ x.before y then x :: y :: l else y :: placeStrobe x l

/-- A strobe due on every link of an engine that is up and serves a head of the mask (R83). -/
def State.strobe (s : State) (a : Eng) (sym : ArmSym) (m : BitVec 12) : State :=
  (fins 2).foldl (fun s (l : LinkIx) =>
    let sub : BitVec 6 := (m >>> (6 * l.val)).setWidth 6
    if sub ≠ 0 ∧ s.eng[a].links[l].state = .up then
      s.modLink a l fun k => { k with strobeQ := placeStrobe ⟨sym, sub, s.mtime, s.eng[a].reel.firing⟩ k.strobeQ }
    else s) s

/-- A strobe for one head. -/
def State.strobeHead (s : State) (g : Head) (sym : ArmSym) : State :=
  match s.localHead g with
  | some (a, h) => s.strobe a sym (lbit h)
  | none => s

/-! ### Suspect sectors (R248) -/

/-- The sectors of a run of which a bit was written after the guard's last clear sample. -/
def WriteRun.after (r : WriteRun) (clear : Angle) : List (SectorAt × Option (CtxIx × Nat)) :=
  ((r.done.filter fun d => decide (0 < angleDiff d.2.2 clear)).map fun d => (d.1, d.2.1)) ++ r.sectors

/-- Sectors become suspect; SUSP_CNT counts each once. A rewrite that a guard finds spoilt leaves its sector suspect. -/
def HeadWrite.suspect (w : HeadWrite) (l : List (SectorAt × Option (CtxIx × Nat))) : HeadWrite :=
  let fresh := l.filter fun x => !w.suspects.any fun p => p.at_ == x.1
  { w with
    suspects := (w.suspects.map fun p => if l.any fun x => x.1 == p.at_ then { p with written := none } else p) ++ fresh.map fun x => { at_ := x.1, ctx := x.2.map (·.1), block := (x.2.map (·.2)).getD 0 }
    suspCnt := satAdd 32 w.suspCnt fresh.length }

/-- The sector a head's block erase writes next (R606). -/
def State.eraseAt (s : State) (g : Head) : Option SectorAt :=
  (s.sec.sanitise.bind fun x => x.next[g]).map fun p => { head := s.localOf g, track := p.1, sector := p.2 }

/-- Sectors of a head become suspect, with the event of SUSP_CNT; one that a block erase fails to write is written again by it. -/
def State.suspect (s : State) (g : Head) (l : List (SectorAt × Option (CtxIx × Nat))) : State :=
  let l := l.filter fun t => s.eraseAt g != some t.1
  let before := s.head[g].wr.suspCnt
  let s := s.modWr g fun w => w.suspect l
  let after := s.head[g].wr.suspCnt
  s.saturated (decide (before ≠ after ∧ after = 2 ^ 32 - 1)) 0x07 4 (s.engineOf g).val
    (engBase (s.engineOf g) + 0x60100 + (s.localOf g).val * 0x10) (nw after)

/-! ### Write gates (R234, R242) -/

/-- RUN_END is set in the engine's sequencer where the fragment register names the head (COND 0xA). -/
def State.runEnded (s : State) (g : Head) : State :=
  match s.localHead g with
  | none => s
  | some (a, h) =>
    if s.eng[a].seq.banks[s.eng[a].seq.bank].frag.hmask.getLsbD h.val then s.modSeq a fun q => { q with runEnd := true }
    else s

/-- The run of a head has ended: its remaining sectors go to a new run (R241, R242), and values written during it take effect
(R257, R259). The next launch decides its MODE (R241). -/
def HeadWrite.endRun (w : HeadWrite) : HeadWrite :=
  { w with run := none, band := w.pendingBand.getD w.band, pendingBand := none, pendingLead := none }

/-- A head's drivers leave the pre-heated state: a new PREHEAT is due (R239, R240). -/
def HeadWrite.cool (w : HeadWrite) : HeadWrite := { w with preheated := false, preheatAt := none }

/-- A write gate is forced off: the pair goes idle, WRITE_EN off is sent, the sectors written since the guard's last clear
sample become suspect; the run ends, with SAFE, where the guard table says so (R234, R242, R248). -/
def State.forceWriteOff (s : State) (g : Head) (clear : Angle) (ends safe : Bool) : State :=
  let w := s.head[g].wr
  let sus := (w.run.map fun r => r.after clear).getD []
  let s := if w.writeGate then s.strobeHead g .writeOff else s
  let s := if safe && (w.writeGate || w.run.isSome) then (s.strobeHead g .safe).modWr g HeadWrite.cool else s
  let s := s.modWr g fun w =>
    { w with
      writeGate := false, pairIdle := true, writeEn := false, wrOff := some s.mtime
      run := w.run.map fun r => { r with sectors := [], done := r.done.filter fun d => !decide (0 < angleDiff d.2.2 clear) } }
  let s := s.suspect g sus
  if ends && w.run.isSome then ((s.modWr g HeadWrite.endRun).runEnded g).deactivate g else s

/-- Every write gate of a set of heads forced off by a condition that acts on a single event: its check sample is every
datapath clock. -/
def State.forceWritesOff (s : State) (a : Eng) (gs : List Head) (ends safe : Bool) : State :=
  gs.foldl (fun s g => s.forceWriteOff g (s.angle a) ends safe) s

/-! ### Codewords (R175) -/

/-- The counters and last-codeword fields of a lane after a codeword with an outcome, global iterations used, sync record, U
after the first local iteration and at the end. -/
def Lane.ended (x : Lane) (o : CwOutcome) (k : Slot) : Lane :=
  { x with
    cw := inc 64 x.cw
    lastOut := o.code, lastGlob := k.glob
    lastSync := mkw [bfi 15 8 k.syncQ, bb 7 k.fly, bf 6 0 k.syncDist]
    lastSw := mkw [bf 31 16 k.u1, bf 15 0 k.uEnd]
    conv := if o = .converged then (if h : k.glob - 1 < 6 then vmod x.conv ⟨k.glob - 1, h⟩ (inc 32) else x.conv) else x.conv
    crcFailCnt := if o = .crcFail then inc 16 x.crcFailCnt else x.crcFailCnt
    noconvCnt := if o = .noConv then inc 16 x.noconvCnt else x.noconvCnt
    misalCnt := if o = .misalign then inc 16 x.misalCnt else x.misalCnt
    addrErrCnt := if o = .addrErr then inc 16 x.addrErrCnt else x.addrErrCnt
    cutCnt := if o = .budgetCut then inc 16 x.cutCnt else x.cutCnt
    noslotCnt := if o = .noSlot then inc 16 x.noslotCnt else x.noslotCnt }

/-- The EVT counter an outcome counts in: its place among FAIL_A, FAIL_B, FAIL_C and its value. -/
def Lane.failCount (x : Lane) (o : CwOutcome) : Option (Nat × Nat) :=
  match o with
  | .crcFail => some (0x30, x.crcFailCnt)
  | .noConv => some (0x30, x.noconvCnt)
  | .misalign => some (0x34, x.misalCnt)
  | .addrErr => some (0x34, x.addrErrCnt)
  | .budgetCut => some (0x38, x.cutCnt)
  | .noSlot => some (0x38, x.noslotCnt)
  | _ => none

/-- A lane counts an ended codeword, with the event of a counter that fills (R15). -/
def State.countCodeword (s : State) (l : LaneIx) (o : CwOutcome) (k : Slot) : State :=
  let full := match s.lane[l].failCount o with
    | some (_, n) => reaches 16 n
    | none => false
  let reg := 0x600100 + l.val * 0x80 + ((s.lane[l].failCount o).map (·.1)).getD 0
  let s := s.modLane l fun x => x.ended o k
  let val := match s.lane[l].failCount o with
    | some (_, n) => nw n
    | none => 0
  s.saturated full 0x05 3 ((s.lane[l].bind.head.map (·.val)).getD 0) reg val

/-- No gate of a head is on. -/
def HeadWrite.gatesOff (w : HeadWrite) : Bool := !w.readGate && !w.writeGate

/-- No slot of a lane holds a codeword. -/
def Lane.empty (x : Lane) : Bool := x.slots.toList.all fun k => k.state == .free

/-- A change of a lane's binding that waits is made once its gates are off and no codeword remains (R20). -/
def State.settleBind (s : State) (l : LaneIx) : State :=
  let x := s.lane[l]
  match x.bind.pendingHead with
  | none => s
  | some h =>
    let off := match x.bind.head with
      | some g => s.head[g].wr.gatesOff
      | none => true
    if off && x.empty then s.modLane l fun x => { x with bind := { x.bind with head := h, pendingHead := none } } else s

/-- The input buffer's codeword takes a slot that is FREE (R166). -/
def State.settleLane (s : State) (l : LaneIx) : State :=
  let x := s.lane[l]
  match x.inBuf, (fins 4).find? fun (k : SlotIx) => x.slots[k].state == .free with
  | some c, some k => s.modLane l fun x => { x with inBuf := none, slots := vset x.slots k c }
  | _, _ => s

/-- A slot's codeword leaves it with the given content: what waits for it proceeds (R20, R166). -/
def State.freeSlot (s : State) (l : LaneIx) (k : SlotIx) (next : Slot) : State :=
  ((s.modSlot l k fun _ => next).settleLane l).settleBind l

/-- A recovery job whose read was dropped makes its try again. -/
def State.retryJob (s : State) (a : Eng) (j : JobIx) : State :=
  s.modRec a fun r => { r with jobs := vmod r.jobs j fun x => x.map fun x => { x with wait := .ready } }

/-- The engine of the head a lane is bound to. -/
def State.laneEngine (s : State) (l : LaneIx) : Eng := s.engineOf (s.lane[l].bind.head.getD 0)

/-- A codeword of a slot ends with an outcome (R175): its engine is released, its request leaves. The slot is DONE until
staging or recovery takes it; it is FREE where the codeword is passed to no one (DROPPED), and where it was reclaimed, the
codeword then waiting for recovery without it (R166, log 14). -/
def State.endCodeword (s : State) (l : LaneIx) (k : SlotIx) (o : CwOutcome) : State :=
  let x := s.lane[l].slots[k]
  let s := s.dropRequest (laneReq l) (.slot k)
  let s := s.countCodeword l o x
  let y := { x with state := .done, outcome := some o, engine := none, reclaim := none, checking := false }
  let s := if o = .dropped then
      (match x.job with
        | some j => (s.retryJob (s.laneEngine l) j).freeSlot l k {}
        | none => s.freeSlot l k {})
    else if x.reclaim = some .budgetCut ∧ o = .budgetCut then
      (s.modLane l fun z => { z with cut := z.cut ++ [y] }).freeSlot l k {}
    else s.freeSlot l k y
  match x.engine with
  | some e => s.releaseEngine e
  | none => s

/-- The slot of a lane whose packet streams. -/
def Lane.streaming (x : Lane) : Option SlotIx :=
  (fins 4).find? fun (k : SlotIx) => x.slots[k].state == .stream && !x.slots[k].ended

/-- The packet of a lane is dropped (R120): its codeword, in a slot or in the input buffer, ends as DROPPED. -/
def State.dropStream (s : State) (l : LaneIx) : State :=
  match s.lane[l].streaming with
  | some k => s.endCodeword l k .dropped
  | none =>
    match s.lane[l].inBuf with
    | some c =>
      let s := (s.modLane l fun x => { x with inBuf := none }).countCodeword l .dropped c
      match c.job with
      | some j => s.retryJob (s.laneEngine l) j
      | none => s
    | none => s

/-! ### Packets (R116 to R122) -/

/-- A slice has an open packet, or one that opens at its stream's start (R123). -/
def Slice.open_ (x : Slice) : Bool := x.packet || x.wake.isSome
/-- A head has an open packet. -/
def State.packetOpen (s : State) (g : Head) : Bool := s.slice[sliceA g].open_ || s.slice[sliceB g].open_

/-- The fields of the eight slice register images (R140), for reader r. -/
def sliceFields (r : Fin 2) : List (List Field) :=
  [[fIn 21 16 0 36, fAny 11 8, fAny 1 0], [fSg 31 16 (-512) 511, fZero 4 0 6 16], [fAny 11 0],
    [fAny 31 16, fIn 15 12 4 12, fZero 11 8 8 15, fIn 7 0 32 255],
    [fIn 31 28 4 10, fIn 27 24 6 12, fIn 23 19 10 20, fIn 18 14 12 24, fIn 11 8 8 15, fIn 7 4 4 15, fAny 0 0],
    [fIn 31 0 4666880 13333248], if r = 0 then [] else [fAny 15 0], [fIn 15 8 16 255, fIn 4 0 4 24]]

/-- Slice registers from their eight words. -/
def sliceOfWords (w : List Word) : SliceRegs :=
  { fe := w.getD 0 0, base := w.getD 1 0, asym := w.getD 2 0, agc := w.getD 3 0, tl := w.getD 4 0, bpw := w.getD 5 0
    phofs := w.getD 6 0, fifo := w.getD 7 0 }

/-- The fields of DET_ITER, DET_TGT and DET_ADAPT. -/
def detFields : List (List Field) :=
  [[fIn 31 28 1 6, fIn 27 24 1 6, fZero 23 12 1 4095, fZero 11 0 1000 3936], [fAny 29 20, fAny 19 10, fAny 9 0],
    [fAny 31 31, fIn 19 16 8 15, fIn 7 0 0x20 0xFF]]

/-- A slice or detector register of a head unit written, by offset in the head unit (R140, R182). -/
def State.putChannelReg (s : State) (g : Head) (off : Nat) (v : Word) : State :=
  let i := off % 0x40 / 4
  if 0x400 ≤ off ∧ off < 0x480 ∧ i < 8 then
    let r : Fin 2 := if off < 0x440 then 0 else 1
    let old := s.head[g].rd[r].words
    let w := clampWord ((sliceFields r).getD i []) (old.getD i 0) v
    s.modHead g fun h => { h with rd := vset h.rd r (sliceOfWords (old.set i w)) }
  else if 0x500 ≤ off ∧ off < 0x50C then
    let w := clampWord (detFields.getD (off % 0x10 / 4) []) 0 v
    s.modDet g fun d => { d with band := match off with
      | 0x500 => { d.band with iter := w }
      | 0x504 => { d.band with tgt := w }
      | _ => { d.band with adapt := w } }
  else if off = 0x50C then s.modDet g fun d => { d with scale := setFld (clampWord [fAny 31 24, fAny 23 16] d.scale v) 1 0 (fld d.scale 1 0) }
  else if 0x540 ≤ off ∧ off < 0x564 then
    s.modDet g fun d => { d with active := { d.active with wa := vmod d.active.wa (finMod 9 (by decide) ((off - 0x540) / 4)) fun _ => v.setWidth 12 } }
  else if 0x564 ≤ off ∧ off < 0x588 then
    s.modDet g fun d => { d with active := { d.active with wb := vmod d.active.wb (finMod 9 (by decide) ((off - 0x564) / 4)) fun _ => v.setWidth 12 } }
  else if 0x600 ≤ off ∧ off < 0x700 then
    let k : Fin 32 := finMod 32 (by decide) ((off - 0x600) / 8)
    s.modDet g fun d => { d with band :=
      if off % 8 = 0 then { d.band with npPred := vset d.band.npPred k v } else { d.band with npNoise := vset d.band.npNoise k v } }
  else s

/-- A write of a slice or detector register by the actuator core: while a packet is open it waits for the packet's end (R122,
R182). -/
def State.writeChannelReg (s : State) (g : Head) (off : Nat) (v : Word) : State :=
  if s.packetOpen g then s.modMap g fun m => { m with regsDue := m.regsDue ++ [(off, v)] } else s.putChannelReg g off v

/-- DET_SCALE outside recovery under a tap set (R158, R206): 1.0 for each reader that serves, zero for a failed one. -/
def homeScale (set : Nat) : Word := mkw [bf 31 24 (if set = 2 then 0 else 0x80), bf 23 16 (if set = 1 then 0 else 0x80), bf 1 0 set]

/-- The active taps a tap set gives (R158). -/
def DetBand.tapSet (b : DetBand) (n : Nat) : TapSet := vget b.taps n {}

/-- A head's registers loaded with a band's entry (R140, R182, R257); f starts from zero when the band changes (R136); the write
registers wait for the end of a run. -/
def State.loadEntry (s : State) (g : Head) (b : Fin 64) (track : Nat) : State :=
  let e := s.bandEntry g b
  let same := s.head[g].map.band == b.val
  let s := s.modHead g fun h =>
    { h with
      rd := #v[e.sliceA, e.sliceB]
      det := { h.det with band := e.det, active := e.det.tapSet (fld h.det.scale 1 0) }
      wr := if h.wr.run.isSome then { h.wr with pendingBand := some e.wr } else { h.wr with band := e.wr }
      freq := if same then h.freq else 0
      map := { h.map with
        band := b.val, track := track, bandTrk := e.geom.firstTrk, dfStart := e.geom.dfStart, dfEnd := e.geom.dfEnd
        trkGap := e.geom.trkGap, spt := bandSpt e e.sliceA.bpw.toNat, htrRd := e.geom.htrRd, htrWr := e.geom.htrWr
        reloadDue := false, bandDue := none } }
  (s.modSlice (sliceA g) fun x => { x with band := b.val }).modSlice (sliceB g) fun x => { x with band := b.val }

/-- A head's registers loaded with the entry of the band a track lies in (R140). -/
def State.loadBand (s : State) (g : Head) (track : Nat) : State := s.loadEntry g (s.bandOf g track) track

/-- What waited for the end of a head's packet takes place (R122, R182): a band load, register writes, and the power-gating of a
depopulated head. -/
def State.packetSettled (s : State) (g : Head) : State :=
  if s.packetOpen g then s
  else
    let s := match s.head[g].map.bandDue with
      | some t => s.loadBand g t
      | none => s
    let due := s.head[g].map.regsDue
    let s := due.foldl (fun s p => s.putChannelReg g p.1 p.2) (s.modMap g fun m => { m with regsDue := [] })
    if s.head[g].map.depop then
      (s.modSlice (sliceA g) fun x => { x with state := .off }).modSlice (sliceB g) fun x => { x with state := .off }
    else s

/-- A slice's packet is over. -/
def Slice.closed (x : Slice) (next : SliceState) : Slice :=
  { x with
    state := next, packet := false, wake := none, servoCoast := false, bits := 0, base := 0, hist := [], zeroDone := false
    trackFrom := none, used := 0 }

/-- A drop command to one slice (R120): no effect without an open packet, as in WAKE before the first streamed sample (R123). -/
def Slice.drop (x : Slice) : Slice := if x.packet then { x.closed .idle with dropCnt := inc 32 x.dropCnt } else x

/-- A packet streams at a slice of a head. -/
def State.streaming (s : State) (g : Head) : Bool := s.slice[sliceA g].packet || s.slice[sliceB g].packet

/-- A drop command to both slices of a head (R120): the codeword that streams ends as DROPPED. -/
def State.dropHead (s : State) (g : Head) : State :=
  if s.streaming g then
    let s := (s.modSlice (sliceA g) Slice.drop).modSlice (sliceB g) Slice.drop
    let s := match s.laneOf g with
      | some l => s.dropStream l
      | none => s
    s.packetSettled g
  else s

/-- A read-gate-off edge at a slice (R117): the packet ends where the codeword is complete, else it coasts. In WAKE, before the first
streamed sample, the edge takes back the packet that was to open (log 64). -/
def Slice.gateOff (x : Slice) (complete : Bool) : Slice :=
  if !x.packet then { x with wake := none }
  else if complete then { x.closed .idle with faultRun := 0 }
  else { x with state := .coast, servoCoast := false }

/-- Read gates of a set of heads closed, their packets dropped (R55, R57, R120). -/
def State.dropReads (s : State) (gs : List Head) : State :=
  gs.foldl (fun s g =>
    let s := (s.dropHead g).modWr g fun w => { w with readGate := false, rdOff := some s.mtime }
    let s := (s.modSlice (sliceA g) fun x => { x with wake := none }).modSlice (sliceB g) fun x => { x with wake := none }
    match s.laneOf g with
    | some l => s.settleBind l
    | none => s) s

/-! ### Comparators -/

/-- A comparator disarmed; a fresh target must be written before it takes a new one (R79). -/
def Comparator.disarm (c : Comparator) : Comparator := { c with armed := false, loWritten := false, hiWritten := false }

/-- Every comparator of an engine that a test selects disarmed. -/
def State.disarmWhere (s : State) (a : Eng) (f : CmpIx → Bool) : State :=
  s.modReel a fun r => { r with cmp := Vector.ofFn fun (i : CmpIx) => if f i then r.cmp[i].disarm else r.cmp[i] }

/-- OWNER is SEQ. -/
def cmpSeq (c : CmpIx) : Bool := cmpOwner c == 3
/-- OWNER is ASSIST. -/
def cmpAssist (c : CmpIx) : Bool := cmpOwner c == 4

/-- A comparator armed by the hardware with a target, a REPEAT in 1/256 wedge and every configured head of the engine in its
HEAD_MASK (log 62). -/
def State.armFixed (s : State) (a : Eng) (c : CmpIx) (target : Angle) (rep : Nat) : State :=
  s.modCmp a c fun x =>
    { x with
      armed := true, target := Stamp.ofLinear target, repeat_ := BitVec.ofNat 16 rep, loWritten := false, hiWritten := false
      headMask := BitVec.ofNat 12 (s.maskOf a fun _ => true), armedAt := some s.mtime }

/-! ### Timeline states (R56 to R59) -/

/-- A micro-trap cause becomes pending: 1 SLIP, 2 UNLOCK, 3 WAIT_TMO, 4 CORE (R389). -/
def State.trapCause (s : State) (a : Eng) (code : Nat) : State :=
  s.modSeq a fun q =>
    if q.state = .run ∨ q.state = .trap ∨ q.state = .hold then { q with trapPend := q.trapPend ||| (1 <<< (code - 1)) } else q

/-- Every gate of an engine forced off (R57): write runs end, open packets are dropped. -/
def State.allGatesOff (s : State) (a : Eng) : State :=
  (s.forceWritesOff a (s.headsOf a) true false).dropReads (s.headsOf a)

/-- The servo gates of an engine's heads set. -/
def State.servoGates (s : State) (a : Eng) (on : Bool) : State :=
  (s.headsOf a).foldl (fun s g => s.modWr g fun w => { w with servoGate := on && !s.head[g].map.depop }) s

/-- ACQUIRE begins with the continuous search for a mark (R47, R681): the list of periods is cleared and comparator 5 holds the
servo gates on. -/
def State.beginSearch (s : State) (a : Eng) : State :=
  let s := s.modReel a fun r =>
    { r with
      acq := .search, acqMissed := 0, acqGood := 0, offsets := [], hold := none, heldFor := 0, lastMark := none, behind := 0
      slipFix := .none }
  let s := (s.modCmp a 6 Comparator.disarm).modCmp a 7 Comparator.disarm
  (s.armFixed a 5 (s.angle a) 0).servoGates a true

/-- The engine's timeline enters ACQUIRE (R56, R57, R58, R389). -/
def State.enterAcquire (s : State) (a : Eng) : State :=
  let s := s.allGatesOff a
  let s := s.modReel a fun r => { r with state := .acquire, periods := [] }
  (s.beginSearch a).trapCause a 2

/-- The engine's timeline enters SPINDLE or STOPPED (R57, R58, R59): comparators of SEQ and ASSIST disarm, those of the other
owners stay armed; the list of periods and FLY_RUN stay (R47, R51). -/
def State.enterIdle (s : State) (a : Eng) (st : TState) : State :=
  let s := s.allGatesOff a
  let s := s.modReel a fun r =>
    { r with
      state := st, acq := .search, acqMissed := 0, acqGood := 0, offsets := [], hold := none
      heldFor := 0, lastMark := none, behind := 0, slipFix := .none }
  let s := s.disarmWhere a fun c => cmpSeq c || cmpAssist c
  (s.servoGates a false).trapCause a 2

end Sys2Proof.Machine
end

