-- ==== Sys2Proof/Machine/Cache.lean ====
section
/-! DEFINITION. Asynchronous events and zone notices to the host (R456, R460), a zone's MP (R638), the zone descriptor cache (R419 to
R427) and the changes of a zone's descriptor that go through it, with the
durable zone record of R639. -/

namespace Sys2Proof.Machine
open Sys2Proof

/-! ### Asynchronous events -/

/-- Dword 0 of an Asynchronous Event Request's completion. -/
def AsyncEvent.dword (e : AsyncEvent) : Word := mkw [bf 23 16 e.logPage, bf 15 8 e.info, bf 2 0 e.type]

/-- The first event not masked is answered to the oldest outstanding request, and masked until its log page is read. -/
def State.deliverAsync (s : State) (f : Fn) : State :=
  let x := s.host.fns[f]
  match x.aers, x.events.find? fun e => !x.masked.contains (e.type, e.logPage) with
  | cid :: rest, some e =>
    let s := s.modFn f fun x => { x with aers := rest, events := x.events.erase e, masked := (e.type, e.logPage) :: x.masked }
    s.postAdmin f cid stOk e.dword []
  | _, _ => s

/-- An asynchronous event is raised on a function: kept once until it is answered. -/
def State.raiseAsync (s : State) (f : Fn) (e : AsyncEvent) : State :=
  if s.host.fns[f].present then
    (s.modFn f fun x => { x with events := if x.events.contains e then x.events else x.events ++ [e] }).deliverAsync f
  else s

/-- A vendor event (R460) on a list of functions: an entry in log page 0xC0 of each, the oldest of 64 overwritten. -/
def State.vendorEvent (s : State) (fns : List Fn) (code level index : Nat) (owner : Fn) (qid : Nat) : State :=
  fns.foldl (fun s f =>
    let s := s.modFn f fun x =>
      { x with vendorLog := (⟨code, level, index, owner.val, qid, s.rst.poh⟩ :: x.vendorLog).take 64 }
    s.raiseAsync f ⟨7, code, 0xC0⟩) s

/-- The namespace has blocks on an engine: a conventional one spans all engines (R449). -/
def State.nsOnEngine (s : State) (n : Namespace) (a : Eng) : Bool :=
  !n.zoned || n.zones.any fun z => (s.zoneDesc z).engine == a

/-- The PF, and every function with a namespace on the engine (R460). -/
def State.fnsOnEngine (s : State) (a : Eng) : List Fn :=
  (fins 16).filter fun (f : Fn) =>
    f.val == 0 || s.host.namespaces.any fun n => n.attached.getLsbD f.val && s.nsOnEngine n a

/-- Zone Descriptor Changed notices are enabled (feature 0x0B bit 27). -/
def FnState.zoneNotices (f : FnState) : Bool := ((alookup f.features 0x0B).getD 0).getLsbD 27

/-- A zone change the host did not ask for (R456): the zone enters page 0xBF of every controller its namespace is attached
to, with the notice where it is enabled. -/
def State.zoneNotice (s : State) (z : ZoneNo) : State :=
  match s.host.namespaces.find? fun n => n.zoned && n.zones.contains z with
  | none => s
  | some n =>
    (fins 16).foldl (fun s (f : Fn) =>
      if n.attached.getLsbD f.val then
        let s := s.modFn f fun x =>
          { x with changedZones := if x.changedZones.contains (n.nsid, z) then x.changedZones else x.changedZones ++ [(n.nsid, z)] }
        if s.host.fns[f].zoneNotices then s.raiseAsync f ⟨2, 0xEF, 0xBF⟩ else s
      else s) s

/-! ### Lines and victims -/

/-- Policies of R420. -/
inductive Policy where
  | wb | wt | na
  deriving DecidableEq, Repr

/-- The policy of a zone: that of the lowest-numbered attribute region that contains it, else WB (R420). -/
def Zdc.policy (c : Zdc) (z : ZoneNo) : Policy :=
  match (fins 8).find? fun (n : Fin 8) =>
    (c.rbase[n]).getLsbD 29 && decide (fld c.rbase[n] 16 0 ≤ z) && decide (z ≤ fld c.rlim[n] 16 0) with
  | none => .wb
  | some n => match fld c.rbase[n] 31 30 with
    | 0 => .wb
    | 1 => .wt
    | _ => .na

/-- The line that holds a zone: CLEAN or DIRTY. -/
def Zdc.lineOf (c : Zdc) (z : ZoneNo) : Option (Fin 48) := (fins 48).find? fun (i : Fin 48) => c.lines[i].held && c.lines[i].zone == z
/-- The line that fills with a zone. -/
def Zdc.fillOf (c : Zdc) (z : ZoneNo) : Option (Fin 48) :=
  (fins 48).find? fun (i : Fin 48) => c.lines[i].state == .fill && c.lines[i].zone == z
/-- The victim entry of a zone. -/
def Zdc.victimOf (c : Zdc) (z : ZoneNo) : Option (Fin 4) :=
  (fins 4).find? fun (v : Fin 4) => c.victims[v].state != .free && c.victims[v].zone == z

/-- The line a miss takes (R421): an INVALID one, else the least recently used that is CLEAN or DIRTY and not pinned. -/
def Zdc.pick (c : Zdc) : Option (Fin 48) :=
  ((fins 48).find? fun (i : Fin 48) => c.lines[i].state == .invalid).orElse fun _ =>
    (fins 48).foldl (fun (acc : Option (Fin 48)) (i : Fin 48) =>
      if c.lines[i].held && c.lines[i].pins == 0 && !c.lines[i].invWait then
        match acc with
        | none => some i
        | some j => if c.lines[i].used < c.lines[j].used then some i else acc
      else acc) none

/-- A free victim entry (R422). -/
def Zdc.freeVictim (c : Zdc) : Option (Fin 4) := (fins 4).find? fun (v : Fin 4) => c.victims[v].state == .free

/-- The victim entry evicted first. -/
def Zdc.oldest (c : Zdc) : Option (Fin 4) :=
  (fins 4).foldl (fun (acc : Option (Fin 4)) (v : Fin 4) =>
    if c.victims[v].state == .free then acc
    else match acc with
      | none => some v
      | some w => if c.victims[v].order < c.victims[w].order then some v else acc) none

/-- The victim buffer is served in eviction order (R422): a CLEAN entry is declined at once, a DIRTY one begins its
write-back and is served when that is acknowledged. -/
def Zdc.serve (c : Zdc) : Nat → Zdc
  | 0 => c
  | n + 1 =>
    match c.oldest with
    | none => c
    | some v =>
      if c.victims[v].dirty then { c with victims := vmod c.victims v fun x => { x with state := .begun } }
      else Zdc.serve { c with victims := vset c.victims v {}, declineCnt := inc 32 c.declineCnt } n

/-- A line's content moves to the victim buffer, where it has one; none where the buffer is full (R422). -/
def Zdc.evict (c : Zdc) (i : Fin 48) : Option Zdc :=
  if c.lines[i].state = .invalid then some c
  else match c.freeVictim with
    | none => none
    | some v =>
      let l := c.lines[i]
      some { c with
        victims := vset c.victims v
          { state := .queued, dirty := l.state == .dirty, zone := l.zone, desc := l.desc, order := c.clock }
        lines := vset c.lines i {}, clock := c.clock + 1, evictCnt := inc 32 c.evictCnt }

/-- The dirty shadow of a descriptor (R427). -/
def ZoneDesc.shadow (d : ZoneDesc) : Nat × ZState × Word × BitVec 16 := (d.wp, d.zs, d.zgen, d.ver)

/-- An access to a held line: what it leaves in the line under a policy, and what it writes to the table (R420). -/
def ZdcLine.access (l : ZdcLine) (p : Policy) (now : Nat) (a : DescAccess) : ZdcLine × Option ZoneDesc :=
  match a with
  | .read => ({ l with used := now }, none)
  | .update d =>
    match p with
    | .wb => ({ l with desc := d, state := .dirty, shadow := some d.shadow, used := now, restored := false }, none)
    | _ => ({ l with desc := d, state := .clean, shadow := none, used := now, restored := false }, some d)

/-! ### Accesses -/

/-- The DRAM table takes a descriptor. -/
def State.tableWrite (s : State) (z : ZoneNo) (d : ZoneDesc) : State :=
  s.modMedia fun m => { m with zones := oset m.zones z d }

/-- An access to a line that holds the zone. -/
def State.lineAccess (s : State) (a : Eng) (i : Fin 48) (acc : DescAccess) : State :=
  let c := s.eng[a].zdc
  let z := c.lines[i].zone
  let (l, w) := c.lines[i].access (c.policy z) c.clock acc
  let s := s.modZdc a fun c => { c with lines := vset c.lines i l, clock := c.clock + 1 }
  match w with
  | some d => s.tableWrite z d
  | none => s

/-- The durable zone record of a descriptor (R639), with its MP checkpoint. -/
def ZoneDesc.record (d : ZoneDesc) (mp : Nat) : ZoneRecord :=
  { zs := d.zs, holes := d.holes, zfr := d.zfr, conv := d.conv, zgen := d.zgen, mpCk := mp, zcap := d.zcap }

/-- A durable zone record as its 16 bytes in the configuration area (R639): byte 11 is the CRC-8 over the other 15. -/
def ZoneRecord.bytes (r : ZoneRecord) (z : ZoneNo) : List Nat :=
  let head := leBytes 4 (mkw [bf 31 28 r.zs.code, bb 27 r.holes, bb 26 r.zfr, bb 25 r.conv, bf 16 0 z]).toNat ++ leBytes 4 r.zgen.toNat ++
    leBytes 3 (mkw [bf 18 0 r.mpCk]).toNat
  let tail := leBytes 4 (mkw [bf 18 0 r.zcap]).toNat
  head ++ [crc8 (head ++ tail)] ++ tail

/-- A journal as the bytes of its sector (R640). -/
def Journal.bytes (j : Journal) : List Nat :=
  let entries := j.entries.flatMap fun e => leBytes 8 (e.1 % 2 ^ 17 * 2 ^ 47 + e.2.1 % 2 ^ 19 * 2 ^ 28 + e.2.2.toNat)
  leBytes 4 0x4C4E524A ++ leBytes 4 j.pcyc ++ leBytes 8 j.poh ++ leBytes 4 j.entries.length ++ leBytes 4 (crc32c entries) ++
    List.replicate 7 0 ++ [if j.valid then 0xA5 else 0xFF] ++ entries

/-- A zone's newest durable record. -/
def State.zoneRecord (s : State) (z : ZoneNo) : ZoneRecord := (alookup s.nor.zones z).getD {}

/-- A durable zone record appended: the newest is the one in force (R639). -/
def State.putRecord (s : State) (z : ZoneNo) (r : ZoneRecord) : State := s.modNor fun n => { n with zones := oset n.zones z r }

/-- A block at an offset of a zone is on media with no suspect sector (R32): its sector is neither suspect nor waits for a spare. -/
def State.blockSafe (s : State) (d : ZoneDesc) (ofs : Nat) (b : BlockState) : Bool :=
  b.durable || (b.onMedia && match (b.old.map (·.1)).orElse fun _ => s.blockSector d ofs with
    | none => true
    | some p =>
      let a := d.engine
      !(s.eng[a].recv.reallocs.any fun x => x.orig == p) &&
        match s.globalHead a p.head.val with
        | some g => !(s.head[g].wr.suspects.any fun x => x.at_ == p)
        | none => true)

/-- The number a conventional block has in the indirection: its namespace's identifier and its address (log 16). -/
def convBlock (nsid lba : Nat) : Nat := nsid * 2 ^ 40 + lba

/-- Opcodes that write zones or blocks: Write, Write Zeroes, Zone Append. -/
def Ctx.writes (c : Ctx) : Bool := !c.admin && (c.sqe.opcode == 0x01 || c.sqe.opcode == 0x08 || c.sqe.opcode == 0x7D)

/-- A zone's MP (R638): the largest offset below which every block is on media with no suspect sector; blocks of writes in
progress and suspect sectors hold it back. -/
def State.mediaPointer (s : State) (z : ZoneNo) : Nat :=
  let d := s.zoneDesc z
  let places := (s.media.groups[d.engine].filter fun g => g.zone == z && !g.summary).flatMap (·.blocks)
  let pend := fun (zone : Option ZoneNo) (ofs : Nat) (no first : Nat) (bs : List BlockState) =>
    (bs.zipIdx.filter fun x => x.1.old.isNone).filterMap fun (b, i) =>
      let at_ : Option Nat :=
        if zone = some z then some (ofs + i)
        else if zone.isNone then (places.find? fun x => x.2.2.1 == no && x.1 == first + i).map (·.2.1)
        else none
      at_.filter fun o => !s.blockSafe d o b
  let fromCtx := s.q.ctxs.flatMap fun p =>
    if p.2.writes && p.2.started then pend p.2.zone p.2.zofs p.2.startNo (convBlock p.2.sqe.nsid.toNat p.2.sqe.slba) p.2.blocks else []
  let fromBuf := s.q.buffered.flatMap fun b => pend b.zone b.zofs b.startNo (convBlock b.nsid b.slba) b.blocks
  (fromCtx ++ fromBuf).foldl min d.wp

/-- WP of a zone whose dirty shadow is lost (R427): the first slot from the table's WP on that does not decode with the zone's ZGEN; what
the medium gives back is a free value, no further than the blocks that are on media (log 72). -/
def State.readForwardWp (s : State) (z : ZoneNo) (from_ : Nat) : Nat × State :=
  let (f, t) := s.fresh
  (from_ + f % (s.mediaPointer z - from_ + 1), t)

/-- Words of a line that cannot be corrected (R427): a CLEAN line is refilled, a DIRTY one rebuilt from the DRAM copy and its
shadow; without the shadow the zone becomes READ_ONLY, which is recorded and reported as any change of it (R456, R639). -/
def State.lineError (s : State) (a : Eng) (i : Fin 48) : State :=
  let l := s.eng[a].zdc.lines[i]
  let full := reaches 32 s.eng[a].zdc.lerrCnt
  let table := (alookup s.media.zones l.zone).getD {}
  let lost := l.state == .dirty && l.shadowBad
  let (wp, s) := if lost then s.readForwardWp l.zone table.wp else (0, s)
  let found := { table with zs := .readOnly, wp := wp, ver := table.ver + 1 }
  let s := if lost then (s.putRecord l.zone (found.record (s.zoneRecord l.zone).mpCk)).zoneNotice l.zone else s
  let s := s.modZdc a fun c =>
    { c with
      lerrCnt := inc 32 c.lerrCnt
      lines := vmod c.lines i fun l =>
        if l.state = .dirty then
          if l.shadowBad then { l with desc := found, bad := false, shadowBad := false, shadow := some found.shadow }
          else match l.shadow with
            | some (wp, zs, zgen, ver) => { l with desc := { table with wp := wp, zs := zs, zgen := zgen, ver := ver }, bad := false }
            | none => { l with bad := false }
        else { l with state := .fill, bad := false, shadowBad := false, desc := {} } }
  (s.condZdc a).saturated full 0x0C 4 a.val (engBase a + 0x2007C) (nw s.eng[a].zdc.lerrCnt)

/-- An access that found no line of its zone (R421, R423): a victim-buffer hit, a bypass under NA, or a fill; none where it
must wait. -/
def State.missAccess (s : State) (a : Eng) (z : ZoneNo) (acc : DescAccess) : Option State :=
  let c := s.eng[a].zdc
  match c.victimOf z with
  | some v =>
    match c.pick with
    | none => none
    | some i =>
      -- the entry leaves first where it is freed at once, so that the line displaced finds room (R423)
      let x := c.victims[v]
      let c0 := if x.state = .begun then c else { c with victims := vset c.victims v {} }
      match c0.evict i with
      | none => none
      | some c1 =>
        let l : ZdcLine :=
          { state := if x.dirty then .dirty else .clean, zone := x.zone, desc := x.desc, used := c1.clock
            shadow := if x.dirty then some x.desc.shadow else none, restored := x.state == .begun }
        let c2 := { c1 with lines := vset c1.lines i l, clock := c1.clock + 1, vhitCnt := inc 32 c1.vhitCnt }
        some ((s.modZdc a fun _ => c2.serve 4).lineAccess a i acc)
  | none =>
    match c.policy z with
    | .na =>
      let s := s.modZdc a fun c => { c with missCnt := inc 32 c.missCnt }
      match acc with
      | .read => some s
      | .update d => some (s.tableWrite z d)
    | _ =>
      match c.pick with
      | none => none
      | some i =>
        match c.evict i with
        | none => none
        | some c1 =>
          let l : ZdcLine := { state := .fill, zone := z, waiters := [acc], used := c1.clock }
          some (s.modZdc a fun _ =>
            ({ c1 with lines := vset c1.lines i l, clock := c1.clock + 1, missCnt := inc 32 c1.missCnt }).serve 4)

/-- A zone's accesses wait for an invalidate that has been received (R425). -/
def Zdc.invalidating (c : Zdc) (z : ZoneNo) : Bool :=
  c.invVictims.contains z || c.lines.toList.any fun l => l.state != .invalid && l.zone == z && l.invWait

/-- An access to a zone's descriptor (R420, R421, R423, R427). -/
def State.zdcAccess (s : State) (a : Eng) (z : ZoneNo) (acc : DescAccess) : State :=
  let c := s.eng[a].zdc
  let wait := s.modZdc a fun c => { c with missWait := c.missWait ++ [(z, acc)] }
  if c.invalidating z || c.missWait.any fun w => w.1 == z then wait
  else match c.fillOf z with
    | some i => s.modZdc a fun c => { c with lines := vmod c.lines i fun l => { l with waiters := l.waiters ++ [acc] } }
    | none =>
      match c.lineOf z with
      | some i =>
        if c.lines[i].bad then
          let s := s.lineError a i
          match s.eng[a].zdc.fillOf z with
          | some j => s.modZdc a fun c => { c with lines := vmod c.lines j fun l => { l with waiters := l.waiters ++ [acc] } }
          | none => s.lineAccess a i acc
        else
          (s.modZdc a fun c => { c with hitCnt := inc 32 c.hitCnt }).lineAccess a i acc
      | none => (s.missAccess a z acc).getD wait

/-- The accesses that wait are tried again, oldest first, until one must still wait (R421). -/
def State.retryMisses (s : State) (a : Eng) : State :=
  let ws := s.eng[a].zdc.missWait
  ws.foldl (fun s w => s.zdcAccess a w.1 w.2) (s.modZdc a fun c => { c with missWait := [] })

/-- Pins asked for and not yet given (R419). -/
def State.retryPins (s : State) (a : Eng) : State :=
  let ws := s.eng[a].zdc.pinWait
  ws.foldl (fun s z =>
    let c := s.eng[a].zdc
    match c.lineOf z with
    | some i =>
      if 0 < c.lines[i].pins || c.pinned < c.pinMax then
        s.modZdc a fun c => { c with lines := vmod c.lines i fun l => { l with pins := inc 5 l.pins } }
      else s.modZdc a fun c => { c with pinWait := c.pinWait ++ [z] }
    | none => s.modZdc a fun c => { c with pinWait := c.pinWait ++ [z] }) (s.modZdc a fun c => { c with pinWait := [] })

/-- A line written back to the table and left CLEAN (R424). -/
def State.flushLine (s : State) (a : Eng) (i : Fin 48) : State :=
  let l := s.eng[a].zdc.lines[i]
  if l.state = .dirty then
    (s.tableWrite l.zone l.desc).modZdc a fun c =>
      { c with lines := vmod c.lines i fun l => { l with state := .clean, shadow := none, restored := false }
               wbCnt := inc 32 c.wbCnt }
  else s

/-- Maintenance that waits on a line takes effect where it now can (R425): a flush after the fill, an invalidate after the fill
and the last pin. -/
def State.maintain (s : State) (a : Eng) : State :=
  let s := s.modZdc a fun c => { c with invVictims := c.invVictims.filter fun z => (c.victimOf z).isSome }
  (fins 48).foldl (fun s (i : Fin 48) =>
    let l := s.eng[a].zdc.lines[i]
    if l.held && l.flushWait then
      (s.flushLine a i).modZdc a fun c => { c with lines := vmod c.lines i fun l => { l with flushWait := false } }
    else if l.held && l.invWait && l.pins == 0 then
      (s.flushLine a i).modZdc a fun c => { c with lines := vset c.lines i {} }
    else s) s

/-- Maintenance packets whose operation has taken effect are answered (R425, R522). -/
def State.answerMaintenance (s : State) (a : Eng) : State :=
  let mine := fun (p : Packet) (z : ZoneNo) => (p.w 0).getLsbD 31 || fld (p.w 0) 16 0 == z
  let lines := s.eng[a].zdc.lines.toList
  let flushed := fun (p : Packet) => p.idx == a.val && !lines.any fun l => l.flushWait && mine p l.zone
  let gone := fun (p : Packet) =>
    p.idx == a.val && !(lines.any fun l => l.invWait && mine p l.zone) && !s.eng[a].zdc.invVictims.any (mine p)
  let res := fun (s : State) (_ : Packet) => [rZdcStatus s.eng[a].zdc]
  (s.replyWaiting 0x01D3 flushed 0 res).replyWaiting 0x01D4 gone 0 res

/-- What a change of a line's state lets proceed. -/
def State.zdcSettle (s : State) (a : Eng) : State := (((s.maintain a).retryMisses a).retryPins a).answerMaintenance a

/-! ### Changes of a descriptor -/

/-- A zone's descriptor changed through its engine's cache: VER advances; where ZS, ZGEN, ZCAP, ZFR or HOLES change, a durable
record is appended first (R410, R639); the zone's heads are kept with it (log 25). -/
def State.setZone (s : State) (z : ZoneNo) (f : ZoneDesc → ZoneDesc) : State :=
  let d := s.zoneDesc z
  let e := f d
  if e = d then s
  else
    let e := { e with ver := d.ver + 1 }
    let r := s.zoneRecord z
    let r' := e.record (if e.zgen = d.zgen then r.mpCk else 0)
    let s := if r' = r then s else s.putRecord z r'
    let s : State := if e.hmask = d.hmask then s else s.modNor fun n => { n with zoneDescs := oset n.zoneDescs z { e with suspN := 0 } }
    s.zdcAccess e.engine z (.update e)

end Sys2Proof.Machine
end

