-- ==== Sys2Proof/Machine/Fail.lean ====
section
/-! DEFINITION. Recovery jobs that end, and what fails as a whole: a head (R428), an actuator engine (R27), an unload by Pavane (R650), with the zone states that follow (R430). -/

namespace Sys2Proof.Machine
open Sys2Proof

/-! ### Contexts -/

/-- A context changed. -/
def State.modCtx (s : State) (x : CtxIx) (f : Ctx → Ctx) : State :=
  s.modQ fun q => { q with ctxs := q.ctxs.map fun p => if p.1 = x.val then (p.1, f p.2) else p }

/-- A context in use. -/
def State.ctx (s : State) (x : CtxIx) : Option Ctx := alookup s.q.ctxs x.val

/-- A command finishes with a status; the first status stands. -/
def Ctx.finish (c : Ctx) (st : NvStatus) : Ctx := { c with finished := some (c.finished.getD st) }

/-- Commands that write to a zone end with a zone-state error, at the next sector boundary (R251, R433): their contexts are aborted and
their fragments withdrawn. -/
def State.failWrites (s : State) (z : ZoneNo) (st : NvStatus) : State :=
  let mine := (s.q.ctxs.filter fun p => p.2.writes && p.2.started && p.2.zone == some z).map (·.1)
  let s := s.modSeq (s.zoneDesc z).engine fun q =>
    { q with fq := q.fq.filter fun f => !mine.contains f.ctx, aborted := (q.aborted ++ mine).eraseDups }
  s.modQ fun q =>
    { q with ctxs := q.ctxs.map fun p => if p.2.writes && p.2.started && p.2.zone == some z then (p.1, p.2.finish st) else p }

/-- Opcode Verify: its blocks are read and checked and go nowhere. -/
def Ctx.verify (c : Ctx) : Bool := !c.admin && c.sqe.opcode == 0x0C

/-- A read ends once every block has been transferred or has failed, with the status of the failing block of lowest address
(R31, R499). -/
def Ctx.settleRead (c : Ctx) : Ctx :=
  if !c.writes && c.blocks.all fun b => b.sent || b.failed.isSome then c.finish ((c.blocks.findSome? (·.failed)).getD {}) else c

/-- One block of a read ends with a status (R213, R499). -/
def Ctx.failBlock (c : Ctx) (k : Nat) (st : NvStatus) : Ctx :=
  ({ c with blocks := c.blocks.zipIdx.map fun (b, i) => if i = k then { b with failed := some st } else b } : Ctx).settleRead

/-! ### Recovery jobs (R214, R215, R225) -/

/-- Every engine of the pool a job holds is told to stop (R210, R215, R225): at the end of its current layer or beat. -/
def State.releaseJobEngines (s : State) (a : Eng) (j : JobIx) : State :=
  let cw := ((s.eng[a].recv.jobs[j]).map (·.cw)).getD {}
  s.modPool fun p => { p with engines := Vector.ofFn fun (e : DecIx) =>
    let x := p.engines[e]
    if x.state != .idle && x.state != .failed && x.owner == (recReq a).val && ((x.job.map (·.for_)) == some (.job j)) then
      { x with job := none, stopAt := some ((if deepEngine e then {} else cw).stopTime x.heldSince s.mtime) }
    else x }

/-- A slot's codeword belongs to a job of an engine no more (R202, R214). -/
def Slot.leaveJob (j : JobIx) (c : Slot) : Slot := if c.job = some j then { c with job := none, void := true } else c

/-- The reads a job's ladder has made are passed to no one (R202, R214). -/
def State.voidReads (s : State) (a : Eng) (j : JobIx) : State :=
  { s with
    lane := s.lane.map fun x =>
      if (x.bind.head.map s.engineOf) = some a then
        { x with slots := x.slots.map (Slot.leaveJob j), inBuf := x.inBuf.map (Slot.leaveJob j), cut := x.cut.map (Slot.leaveJob j) }
      else x
    slice := Vector.ofFn fun (n : SliceIx) =>
      let x := s.slice[n]
      if s.engineOf (sliceHead n) = a then { x with wake := x.wake.map fun w => { w with cw := w.cw.leaveJob j } } else x }

/-- Every resource of a job is released: pool engines and requests, capture buffers; the job's record stays (R225, R226). -/
def State.releaseJob (s : State) (a : Eng) (j : JobIx) : State :=
  match s.eng[a].recv.jobs[j] with
  | none => s
  | some job =>
    let s := (s.releaseJobEngines a j).dropRequest (recReq a) (.job j)
    let s := s.modQ fun q => { q with captures := q.captures - job.caps }
    s.modRec a fun r =>
      { r with jobs := vset r.jobs j (some { job with caps := 0, capsHeld := [], cap := [], deepEng := none, acquired := none, timer := none }) }

/-- What a job's read of step 4 or 5 set at its head is taken back (R206, R207, R208). -/
def State.restoreHead (s : State) (a : Eng) (job : RecJob) : State :=
  match s.globalHead a job.at_.head.val with
  | some g =>
    if job.biased then
      s.modHead g fun h =>
        { h with det := { h.det with scale := homeScale (fld h.det.scale 1 0) }, srv := { h.srv with ladderOfs := 0, ladderBias := 0 } }
    else s
  | none => s

/-- A job ends: its resources and its recovery record are released (R200, R214, R215). -/
def State.closeJob (s : State) (a : Eng) (j : JobIx) : State :=
  match s.eng[a].recv.jobs[j] with
  | none => s
  | some job =>
    let s := ((s.releaseJob a j).restoreHead a job).voidReads a j
    let s := s.modQ fun q => { q with staging := q.staging - job.staging }
    let revs := (s.eng[a].reel.stamp.rev + 2 ^ 32 - job.revOpen) % 2 ^ 32
    s.modRec a fun r => { r with jobs := vset r.jobs j none, revsCnt := satAdd 32 r.revsCnt revs }

/-- The jobs of an engine that a test selects end with neither recovery nor reallocation (R214). -/
def State.closeJobs (s : State) (a : Eng) (f : RecJob → Bool) : State :=
  (fins 16).foldl (fun s (j : JobIx) =>
    match s.eng[a].recv.jobs[j] with
    | some job => if f job then s.closeJob a j else s
    | none => s) s

/-! ### Loop slots (R298) -/

/-- A slot disabled: its output is zero. -/
def LoopSlot.disable (x : LoopSlot) : LoopSlot :=
  { x with en := false, lmode := .off, out := 0, uff := 0, integ := 0, deriv := 0, pendingOut := none, latched := [], old := none
           frozen := false, lostRun := 0, frzRun := 0, blendK := 0, pipe := none }

/-- A slot disabled, its pipeline freed. -/
def State.disableSlot (s : State) (n : LoopIx) : State :=
  (s.modLoop n LoopSlot.disable).modLpe fun l =>
    { l with pipes := l.pipes.map fun p => if p = some n then none else p }

/-- The loops of a head stop (R298). -/
def State.disableHeadLoops (s : State) (g : Head) : State := ((s.disableSlot (maSlot g)).disableSlot (htrSlot g)).disableSlot (asstSlot g)

/-- The loops of an engine and its heads stop. -/
def State.disableEngineLoops (s : State) (a : Eng) : State :=
  (s.headsOf a).foldl State.disableHeadLoops (s.disableSlot (vcmSlot a))

/-! ### Zone states (R429 to R432) -/

/-- Conditions of the table of R430. -/
inductive ZoneCond where
  | writeDisabled | headFailed | engineFailed
  deriving DecidableEq, Repr

/-- Heads of an engine a zone may be written on: configured, neither depopulated nor write-disabled. -/
def State.usableMask (s : State) (a : Eng) : BitVec 12 :=
  BitVec.ofNat 12 (s.maskOf a fun g => !s.head[g].map.depop && !s.head[g].wr.wrDis)

/-- An EMPTY zone's capacity recomputed over the usable heads with its ROWS and FIRST_TRK (R408, R411, R430). -/
def State.recompute (s : State) (d : ZoneDesc) : ZoneDesc :=
  let m := s.usableMask d.engine
  { d with hmask := m, zcap := s.capacity d.engine d.firstTrk d.rows m }

/-- A zone's descriptor after a condition (R430). -/
def State.zoneAfter (s : State) (a : Eng) (c : ZoneCond) (d : ZoneDesc) : ZoneDesc :=
  let keep := s.eng[a].zdc.depKeep
  match c with
  | .engineFailed => if d.zs = .log ∨ d.zs = .none then d else { d with zs := .offline }
  | .writeDisabled =>
    match d.zs with
    | .empty => s.recompute d
    | .impOpen | .expOpen | .closed => { d with zs := .readOnly }
    | _ => d
  | .headFailed =>
    match d.zs with
    | .empty => s.recompute d
    | .impOpen | .expOpen | .closed | .full | .readOnly =>
      if keep then { d with zs := .readOnly, holes := true } else { d with zs := .offline }
    | _ => d

/-- The zone rules applied to the zones of an engine (R428 step 6, R430, R433, R456): an engine condition takes every zone, a
head condition those whose HMASK includes the head. -/
def State.applyZoneRule (s : State) (a : Eng) (c : ZoneCond) (h : Option LHead) : State :=
  (s.zonesOf a).foldl (fun s (z, d) =>
    let takes := match h with
      | none => true
      | some h => d.hmask.getLsbD h.val
    if takes then
      let e := s.zoneAfter a c d
      let s := s.setZone z fun _ => e
      let s := if e.zs ≠ d.zs ∧ e.zs = .readOnly then s.failWrites z (stCmd 0xBA)
        else if e.zs ≠ d.zs ∧ e.zs = .offline then s.failWrites z (stCmd 0xBB) else s
      if e.zs ≠ d.zs ∨ e.zcap ≠ d.zcap then s.zoneNotice z else s
    else s) s

/-- WR_DIS of a head clears (R431): the EMPTY zones of its engine have ZCAP recomputed with it; a change is reported (R456). -/
def State.writeEnabled (s : State) (g : Head) : State :=
  (s.zonesOf (s.engineOf g)).foldl (fun s (z, d) =>
    if d.zs = .empty then
      let e := s.recompute d
      let s := s.setZone z fun _ => e
      if e.zcap ≠ d.zcap then s.zoneNotice z else s
    else s) s

/-- Numbers of zones that would become OFFLINE, READ_ONLY, and have their capacity recomputed (head.depopulate's results). -/
def State.zoneRuleCounts (s s' : State) (a : Eng) (h : LHead) : Nat × Nat × Nat :=
  (s.zonesOf a).foldl (fun (n : Nat × Nat × Nat) (z, d) =>
    if d.hmask.getLsbD h.val then
      let e := s'.zoneDesc z
      (n.1 + (if e.zs = .offline ∧ d.zs ≠ .offline then 1 else 0),
        n.2.1 + (if e.zs = .readOnly ∧ d.zs ≠ .readOnly then 1 else 0), n.2.2 + (if d.zs = .empty then 1 else 0))
    else n) (0, 0, 0)

/-- Conventional blocks on a failed head become LOST (R432). -/
def State.markLost (s : State) (a : Eng) (h : LHead) : State :=
  s.modMedia fun m =>
    { m with indir := m.indir.map fun p =>
      if p.2.valid && p.2.engine == a then
        let d := s.zoneDesc p.2.zone
        match s.blockSector d p.2.ofs with
        | some at_ =>
          if (s.remapped a d at_).head = h ∨ at_.head = h ∧ s.remapped a d at_ = at_ then (p.1, { p.2 with lost := true }) else p
        | none => p
      else p }

/-- Affected SPDM responders answer their next request with RequestResynch (R593). -/
def State.resynch (s : State) (f : SpdmIx → Bool) : State :=
  s.modSec fun x => { x with spdm := Vector.ofFn fun (i : SpdmIx) => if f i then { x.spdm[i] with resynch := true, sessions := [] } else x.spdm[i] }

/-- A head fails (HEAD_FAILURE, R428): its six actions in order, the event, the vendor event (R460). -/
def State.headFail (s : State) (g : Head) : State :=
  match s.localHead g with
  | none => s
  | some (a, h) =>
    if s.head[g].map.depop then s
    else
      let s := s.forceWriteOff g (s.angle a) true false
      let s := s.closeJobs a fun j => j.at_.head == h
      let s := s.modMap g fun m => { m with depop := true }
      let s := s.modNor fun n => { n with heads := vmod n.heads g fun x => { x with depop := true } }
      let s := (s.dropReads [g]).packetSettled g
      let s := s.disableHeadLoops g
      let s := s.modHs g fun x => { x with valid := false, active := false, rdReady := false, wrReady := false, maOut := 0 }
      let s := s.modWr g fun w => { w with servoGate := false, slot := none, writeReady := false, modeAcked := false, preheated := false }
      let s := s.modWsl fun w =>
        { w with held := w.held.map fun x => if x = some g then none else x, pending := w.pending.filter fun x => x.1 ≠ g }
      let s := match s.laneOf g with
        | some l => (s.modLane l fun x => { x with bind := { x.bind with pendingHead := some none } }).settleBind l
        | none => s
      let s := s.applyZoneRule a .headFailed (some h)
      let s := s.markLost a h
      let s := (s.condMap g).resynch fun _ => true
      s.vendorEvent (s.fnsOnEngine a) 0x02 3 g.val 0 0

/-! ### Unloads (R649, R650) -/

/-- The engine's arm is on the disks or moving: an unload has something to do. -/
def Actuator.offRamp (x : Actuator) : Bool := x.state == .loading || x.state == .loaded || x.state == .unloading

/-- The motor enters UNLOAD; write gates are off, SAFE is sent; microactuators go to zero (R650 steps 1 and 2). -/
def State.beginPark (s : State) (a : Eng) (st : LoadState) : State :=
  let s := s.forceWritesOff a (s.headsOf a) true true
  let s := s.strobe a .safe (BitVec.ofNat 12 (s.maskOf a fun _ => true))
  let s := s.modSrv a fun v => { v with mode := .unload, blendK := 0, fromHold := false, seekDue := false }
  let s := (s.headsOf a).foldl (fun s g => s.modHs g fun h => { h with maOut := 0, rdReady := false, wrReady := false, rdRun := 0, wrRun := 0 }) s
  s.modAct a fun x => { x with state := st, unloadAt := s.mtime, biasing := false, loadReq := false, parkDue := false }

/-- PAVANE (R650): a load attempt under way is abandoned (R648). -/
def State.pavane (s : State) (a : Eng) : State :=
  if s.rst.act[a].offRamp then
    (s.beginPark a .pavane).modAct a fun x => { x with tries := 0 }
  else if s.rst.act[a].loadReq then s.modAct a fun x => { x with loadReq := false, tries := 0 }
  else s

/-- The indirection entry of a conventional block (R416); an unlisted one is not VALID, as of the last clearing of its namespace. -/
def MediaMap.entry (m : MediaMap) (b : Nat) : Indir :=
  (alookup m.indir b).getD { startNo := (alookup m.cleared (b / 2 ^ 40)).getD 0 }

/-- MP checkpoints of the zones a test selects whose MP has changed (R639). -/
def State.checkpoint (s : State) (f : ZoneDesc → Bool) : State :=
  s.media.zones.foldl (fun s p =>
    let d := s.zoneDesc p.1
    let r := s.zoneRecord p.1
    let mp := s.mediaPointer p.1
    if f d && d.zs != .none && r.mpCk != mp then s.putRecord p.1 (d.record mp) else s) s

/-- A head's run is within a sector. -/
def HeadWrite.inSector (w : HeadWrite) : Bool := w.writeGate || ((w.run.map fun r => !r.sectors.isEmpty).getD false)

/-- Local heads of an engine within a sector. -/
def State.sectorMask (s : State) (a : Eng) : BitVec 12 :=
  (s.headsOf a).foldl (fun m g => if s.head[g].wr.inSector then m ||| lbit (s.localOf g) else m) 0

/-- The queued fragments that the sectors in progress of a mask of heads still need, up to the next sector's first one, and those that
pass to a later pass. -/
def splitQueue (m : BitVec 12) : List Fragment → List Fragment × List Fragment
  | [] => ([], [])
  | f :: t =>
    let own := f.hmask &&& m
    let (keep, rest) := splitQueue (if f.first then m &&& ~~~f.hmask else m) t
    if own = 0 ∨ !f.write then (keep, f :: rest)
    else ({ f with hmask := own } :: keep, if f.hmask = own then rest else { f with hmask := f.hmask &&& ~~~own } :: rest)

/-- The armed runs of an engine end (R255, R649): those within a sector at their next sector boundary, for which their fragments and
comparators stay, the others at once; every other fragment passes to a later pass. -/
def State.endRuns (s : State) (a : Eng) : State :=
  let m := s.sectorMask a
  let s := (s.headsOf a).foldl (fun s g =>
    let w := s.head[g].wr
    if w.run.isSome && !w.inSector then (s.modWr g fun w => { w.endRun with writeEn := false, pairIdle := true }).runEnded g else s) s
  let s := s.modReel a fun r =>
    { r with cmp := Vector.ofFn fun (c : CmpIx) =>
        let k := r.cmp[c]
        if cmpSeq c && decide (c.val ≠ 16) then
          if k.headMask &&& m = 0 then k.disarm else { k with headMask := k.headMask &&& m }
        else k }
  s.modSeq a fun q => { q with skipped := (splitQueue m q.fq).2 ++ q.skipped, fq := (splitQueue m q.fq).1 }

/-- A controlled unload whose runs have ended goes on (R649 steps 2 and 3): the engine's zones are checkpointed, then the steps of
Pavane. -/
def State.settlePark (s : State) (a : Eng) : State :=
  if s.rst.act[a].parkDue && s.sectorMask a == 0 then
    let s := (s.disarmWhere a fun c => cmpSeq c && decide (c.val ≠ 16)).checkpoint fun d => d.engine == a
    s.beginPark a .unloading
  else s

/-- CONTROLLED_UNLOAD (R649): runs end, the engine's zones are checkpointed, then the steps of Pavane. -/
def State.controlledUnload (s : State) (a : Eng) : State :=
  if s.rst.act[a].state = .loading ∨ s.rst.act[a].state = .loaded then
    ((s.endRuns a).modAct a fun x => { x with parkDue := true, tries := 0 }).settlePark a
  else if s.rst.act[a].loadReq then s.modAct a fun x => { x with loadReq := false, tries := 0 }
  else s

/-- A sequencer is still to take words in a hold (R398). -/
def State.holdsPending (s : State) : Bool :=
  (fins 4).any fun (a : Eng) => s.enginePresent a && s.eng[a].seq.holdReq && s.eng[a].seq.state != .off && s.eng[a].seq.state != .failed

/-- The commit of a patch ends once every sequencer has taken it (R398, R598): measurement index 6 has changed. -/
def State.patchApplied (s : State) : State :=
  match s.sec.commit with
  | some c =>
    if c.obj.otype = ObjType.patch.code ∧ !s.holdsPending then
      let s := (s.modSec fun x => { x with commit := none }).resynch fun _ => true
      if c.orphan then s else s.answerAdmin { fn := c.fn, cid := c.cid, mi := c.mi } stOk 0 []
    else s
  | none => s

/-- ENGINE_FAILURE (R27, R396, R648, R650): the engine is unloaded by Pavane and marked failed; its jobs end, its zones change
state, its slots stay disabled; the event and the vendor event. -/
def State.engineFail (s : State) (a : Eng) : State :=
  if s.eng[a].core.failed then s
  else
    let s := s.pavane a
    let s := s.modCore a fun c => { c with failed := true }
    let s := s.modSeq a fun q => { q with state := .failed }
    let s := s.modAct a fun x => if x.offRamp || x.state == .pavane then x else { x with state := .failed }
    let s := s.closeJobs a fun _ => true
    let s := s.applyZoneRule a .engineFailed none
    let s := (s.condAct a).resynch fun _ => true
    let s := s.replyWaiting 0x0242 (fun p => p.idx == a.val) 0 fun s _ => [rActStatus s.rst.act[a], rSrvStatus s a, nw s.rst.act[a].loadCnt]
    let s := s.modAct a fun x => { x with reloadAfter := false }
    let s := s.replyWaiting 0x0241 (fun p => p.w 0 == 2 && p.w 1 == nw a.val) 0 fun s _ => [rActStatus s.rst.act[a]]
    (s.vendorEvent (s.fnsOnEngine a) 0x03 4 a.val 0 0).patchApplied

/-- A head becomes write-disabled (R247): WR_DIS, the event, the zone rules of R430. -/
def State.writeDisable (s : State) (g : Head) : State :=
  match s.localHead g with
  | none => s
  | some (a, h) =>
    let s := (s.modWr g fun w => { w with wrDis := true }).condWr g
    (s.forceWriteOff g (s.angle a) true true).applyZoneRule a .writeDisabled (some h)

end Sys2Proof.Machine
end

