-- ==== Sys2Proof/Machine/Deliver.lean ====
section
/-! DEFINITION. Blocks of host data on their way (R30, R31, R229, R601): protection information, media encryption, and a
recovered sector that enters SRAM staging. -/

namespace Sys2Proof.Machine
open Sys2Proof

/-! ### Protection information (13_host_link_nvme.md, R229) -/

/-- The 16-bit guard: CRC-16 with polynomial 0x8BB7 of the block's 4 096 bytes. -/
def piGuard (d : BitVec 32768) : Nat := (leBytes 4096 d.toNat).foldl (fun c b => crcStep 16 0x8BB7 8 (c ^^^ (b * 256))) 0

/-- Bytes a to a + k − 1 of the protection information, the first most significant. -/
def piBytes (pi : BitVec 64) (a : Nat) : Nat → Nat
  | 0 => 0
  | k + 1 => piBytes pi a k * 256 + (pi.toNat / 2 ^ (8 * (a + k))) % 256

/-- Protection information from guard, application tag and reference tag. -/
def makePi (guard app ref : Nat) : BitVec 64 :=
  let b := fun (n i : Nat) => (n / 2 ^ (8 * i)) % 256
  BitVec.ofNat 64 (b guard 1 + b guard 0 * 2 ^ 8 + b app 1 * 2 ^ 16 + b app 0 * 2 ^ 24 + b ref 3 * 2 ^ 32 + b ref 2 * 2 ^ 40 +
    b ref 1 * 2 ^ 48 + b ref 0 * 2 ^ 56)

/-- Media and data integrity statuses (SCT 0x2), DNR set. -/
def stMedia (sc : Nat) : NvStatus := { sct := 2, sc := sc, dnr := true }

/-- The namespace a command names, attached to its function. -/
def State.nsOf (s : State) (f : Fn) (nsid : Nat) : Option Namespace :=
  s.host.namespaces.find? fun n => n.nsid == nsid && n.attached.getLsbD f.val

/-- The check of one block's protection information under a command's PRCHK (type 1 and type 3): the first that fails, in the
order guard, application tag, reference tag. All-ones tags turn the checks off as NVMe Base 2.0 has it. -/
def piCheck (n : Namespace) (q : Sqe) (k : Nat) (b : Block) : Option NvStatus :=
  let app := piBytes b.pi 2 2
  let ref := piBytes b.pi 4 4
  let skip := decide (app = 0xFFFF) && (n.piType == 1 || decide (ref = 0xFFFFFFFF))
  if n.piType = 0 ∨ skip then none
  else if q.prchk.getLsbD 2 && piBytes b.pi 0 2 != piGuard b.data then some (stMedia 0x82)
  else if q.prchk.getLsbD 1 && (app &&& q.appMask.toNat) != (q.appTag.toNat &&& q.appMask.toNat) then some (stMedia 0x83)
  else if q.prchk.getLsbD 0 && n.piType == 1 && ref != (q.refTag.toNat + k) % 2 ^ 32 then some (stMedia 0x84)
  else none

/-! ### Media encryption (R601) -/

/-- The media key of a namespace. -/
def State.mediaKey (s : State) (nsid : Nat) : BitVec 512 := (alookup s.sec.mediaKeys nsid).getD 0

/-- The namespace LBA of block k of a command. -/
def Ctx.lba (c : Ctx) (k : Nat) : Nat := c.sqe.slba + k

/-- The block an information part holds for block k of a command: USER decrypted, PI in clear. -/
def State.blockOf (s : State) (c : Ctx) (k : Nat) (info : BitVec 32928) : Block :=
  { data := Config.xtsDecrypt (s.mediaKey c.sqe.nsid.toNat) (BitVec.ofNat 128 (c.lba k)) (infoUser info), pi := infoPi info }

/-! ### Staging (R30) -/

/-- A block read from the medium that holds a unit of DRAM media staging. -/
def BlockState.staged (b : BlockState) : Bool :=
  (match b.source with
    | .media _ _ => true
    | _ => false) && b.here && !b.sent && b.failed.isNone

/-- Blocks of a read that hold a unit of DRAM media staging. -/
def Ctx.staged (c : Ctx) : Nat := if c.writes then 0 else (c.blocks.filter BlockState.staged).length

/-- Units of DRAM media staging in the module. -/
def stagingUnits : Nat := 688128

/-- Bytes counted towards Bolero's evaluation of the revolution (R358). -/
def State.sumBolero (s : State) (x : BoleroSums) : State :=
  s.modSpn fun p =>
    { p with sums := { rh := p.sums.rh + x.rh, rm := p.sums.rm + x.rm, wh := p.sums.wh + x.wh, wm := p.sums.wm + x.wm } }

/-- A corrected sector of block k of a read enters SRAM staging (R30): straight to the host when every earlier block of the
command has been transferred and its protection information checks, else to DRAM media staging. A block whose protection
information fails its check ends with that status. -/
def State.deliver (s : State) (x : CtxIx) (k : Nat) (info : BitVec 32928) : State :=
  match s.ctx x with
  | none => s
  | some c =>
    match c.blocks[k]? with
    | none => s
    | some b =>
      if b.here || b.failed.isSome then s
      else
        let blk := s.blockOf c k info
        let bad := (s.nsOf c.fn c.sqe.nsid.toNat).bind fun n => piCheck n c.sqe k blk
        match bad with
        | some st => s.modCtx x fun c => c.failBlock k st
        | none =>
          let through := c.verify || (c.blocks.take k).all (·.sent)
          let s := s.modCtx x fun c => ({ c with blocks := c.blocks.zipIdx.map fun (b, i) =>
            if i = k then { b with here := true, sent := through, data := blk } else b } : Ctx).settleRead
          let s := s.sumBolero { rm := 4096, rh := if through && !c.verify then 4096 else 0 }
          if through then s else s.modQ fun q => { q with staging := q.staging + 1 }

/-- A block of a read is under way: its sector streams, decodes, or is in recovery (R31). -/
def State.blockUnderWay (s : State) (x : CtxIx) (k : Nat) : Bool :=
  let mine := fun (c : Slot) => c.ctx == some x && c.block == k
  (s.lane.toList.any fun l => (l.slots.toList.any fun c => c.state != .free && mine c) || l.inBuf.any mine || l.cut.any mine) ||
    (s.slice.toList.any fun n => n.wake.any fun w => mine w.cw) ||
    s.eng.toList.any fun e => e.recv.jobs.toList.any fun j => j.any fun y => y.cmds.any fun c => c.1 == x && c.2.1 == k

/-- A transfer of a command has failed (R462, R467, R498): Data Transfer Error. A read's blocks in recovery or under way go on and are
transferred (R31, R499). -/
def State.transferFailed (s : State) (x : CtxIx) : State :=
  let st := stGen 0x04 false
  let held := ((s.ctx x).map Ctx.staged).getD 0
  (s.modQ fun q => { q with staging := q.staging - held }).modCtx x fun c =>
    if c.writes || !c.started || c.admin || c.blocks.isEmpty then c.finish st
    else ({ c with blocks := c.blocks.zipIdx.map fun (b, k) =>
      if b.sent || b.failed.isSome || (!b.here && s.blockUnderWay x k) then b else { b with failed := some st } } : Ctx).settleRead

/-! ### Defect lists (R412) -/

/-- An entry in an engine's defect list and its durable copy; a grown or unreadable or weak entry replaces an earlier one of
the same sector. -/
def State.addDefect (s : State) (a : Eng) (kind : Nat) (p : SectorAt) : State :=
  let put := fun (v : Vector (List Defect) 4) =>
    vmod v a fun l => ⟨kind, p⟩ :: l.filter fun d => d.at_ != p || d.kind == 0
  let s := (s.modMedia fun m => { m with defects := put m.defects }).modNor fun n => { n with defects := put n.defects }
  match s.globalHead a p.head.val with
  | some g =>
    if kind = 1 then
      let n := s.head[g].map.grownCnt
      (s.modMap g fun m => { m with grownCnt := inc 32 m.grownCnt }).saturated (reaches 32 n) 0x0C 3 g.val (hdBase s g + 0xA10) (nw (n + 1))
    else s
  | none => s

/-- A sector in the defect list with a kind. -/
def State.defectKind (s : State) (a : Eng) (p : SectorAt) (kind : Nat) : Bool :=
  s.media.defects[a].any fun d => d.at_ == p && d.kind == kind

end Sys2Proof.Machine
end

