-- ==== Sys2Proof/Machine/Ldpc.lean ====
section
/-! DEFINITION. The layered min-sum decoder of a standard engine (R154, R155, R170, R171): check messages, posteriors, the count of
unsatisfied checks, and what goes back to the lane. -/

namespace Sys2Proof.Machine
open Sys2Proof

/-- The nonzero blocks of block row i of H (R155): block column and shift, in rising column. -/
def ldpcBlocks (i : Nat) : List (Nat × Nat) :=
  (((List.range 343).filter fun j => (ldpcRows j).contains i).map fun j => (j, (i * (2 * j + 1) + 5 * j) % 96)) ++
    (if i = 0 then [] else [(342 + i, 0)]) ++ [(343 + i, 0)]

/-- The codeword bits of row t of a block row (R154). -/
def rowBits (blocks : List (Nat × Nat)) (t : Nat) : List Nat := blocks.map fun p => 96 * p.1 + (t + p.2) % 96

/-- The least and the second least magnitude of a row's inputs, and the place of the least. -/
def leastTwo (l : List Int) : Nat × Nat × Nat :=
  l.zipIdx.foldl (fun (p : Nat × Nat × Nat) x =>
    let m := x.1.natAbs
    if m < p.1 then (m, p.1, x.2) else if m < p.2.1 then (p.1, m, p.2.2) else p) (31, 31, 0)

/-- The messages of a check to its bits (R170), from the bits' values as messages of 6 bits: a positive value favours 1; 0.75 is
rounded down in magnitude (log 64). -/
def checkMessages (l : List Int) : List Int :=
  let (m1, m2, i1) := leastTwo l
  let odd := l.foldl (fun b q => xor b (decide (0 < q))) false
  l.zipIdx.map fun (q, i) =>
    let m : Int := (((if i = i1 then m2 else m1) * 3 / 4 : Nat) : Int)
    if xor odd (decide (0 < q)) then m else -m

/-- One row of a layer: the messages of the last pass are taken off the posteriors, the new ones added (R170). -/
def ldpcRow (bits : List Nat) (post : Array Int) (old : List Int) : Array Int × List Int :=
  let q := bits.zipIdx.map fun (b, i) => clampInt (-255) 255 (post.getD b 0 - old.getD i 0)
  let new := checkMessages (q.map (clampInt (-31) 31))
  ((bits.zip (q.zip new)).foldl (fun p x => p.setIfInBounds x.1 (clampInt (-255) 255 (x.2.1 + x.2.2))) post, new)

/-- One block row (R170): its 96 rows, whose bits are disjoint within a block. -/
def ldpcLayer (i : Nat) (post : Array Int) (old : List (List Int)) : Array Int × List (List Int) :=
  let blocks := ldpcBlocks i
  (List.range 96).foldl (fun (p : Array Int × List (List Int)) t =>
    let (post, new) := ldpcRow (rowBits blocks t) p.1 (old.getD t [])
    (post, p.2 ++ [new])) (post, [])

/-- The messages of block row i put in their place. -/
def putLayer (m : List (List (List Int))) (i : Nat) (row : List (List Int)) : List (List (List Int)) :=
  (List.range 41).map fun k => if k = i then row else m.getD k []

/-- n block rows from row i on. -/
def ldpcRun : Nat → Nat → Array Int → List (List (List Int)) → Array Int × List (List (List Int))
  | 0, _, p, m => (p, m)
  | n + 1, i, p, m =>
    let (p', row) := ldpcLayer i p (m.getD i [])
    ldpcRun n (i + 1) p' (putLayer m i row)

/-- The block rows of a codeword's current local iteration up to row n (R170); those already done stay. -/
def Slot.layersTo (c : Slot) (n : Nat) : Slot :=
  if n ≤ c.layer then c
  else
    let (p, m) := ldpcRun (n - c.layer) c.layer c.post.toArray c.msgs
    { c with post := p.toList, msgs := m, layer := n }

/-- The hard decisions of a codeword: 1 where the posterior is above zero (log 64). -/
def Slot.hardBits (c : Slot) : Array Bool := (c.post.map fun x => decide (0 < x)).toArray

/-- The checks that hard decisions leave unsatisfied (R171). -/
def unsatisfied (h : Array Bool) : Nat :=
  ((List.range 41).map fun i =>
    let blocks := ldpcBlocks i
    ((List.range 96).filter fun t => (rowBits blocks t).foldl (fun b k => xor b (h.getD k false)) false).length).sum

/-- U of a codeword (R171). -/
def Slot.unsat (c : Slot) : Nat := unsatisfied c.hardBits

/-- A codeword from hard decisions, bit 0 first. -/
def codewordOf (h : List Bool) : BitVec 36864 := BitVec.ofNat 36864 (bitsToNat h)

/-- The codeword as decoded. -/
def Slot.decoded (c : Slot) : BitVec 36864 := codewordOf c.hardBits.toList

/-- What the engine returns to the lane after a global iteration (R170): for each bit the posterior minus the exchange, clamped. -/
def Slot.extrinsic (c : Slot) : List Int := List.zipWith (fun p x => clampInt (-31) 31 (p - x)) c.post c.chan

/-- A new exchange enters an engine (R162, R170): the check messages kept from the last global iteration are added. -/
def Slot.exchange (c : Slot) (chan : List Int) : Slot :=
  let post := c.msgs.zipIdx.foldl (fun (p : Array Int) (rows, i) =>
    let blocks := ldpcBlocks i
    rows.zipIdx.foldl (fun (p : Array Int) (row, t) =>
      ((rowBits blocks t).zip row).foldl (fun p x => p.setIfInBounds x.1 (clampInt (-255) 255 (p.getD x.1 0 + x.2))) p) p) chan.toArray
  { c with chan := chan, post := post.toList, layer := 0 }

end Sys2Proof.Machine
end

