-- ==== Sys2Proof/Machine/Detect.lean ====
section
/-! DEFINITION. What a detector lane computes from the bit instants of a packet (spec/05_detection_sector_format.md): the equalised
stream (R156 to R159), the branch metric and the recursions of the noise-predictive detector (R161 to R165), tentative decisions
(R163), and the sync mark's distances (R147, R176 to R178). -/

namespace Sys2Proof.Machine
open Sys2Proof

/-! ### The sector's fixed fields (R145 to R147) -/

/-- Channel bit n of a stretch of preamble or postamble: 0b1100 repeated (R145). -/
def preambleBit (n : Nat) : Bool := decide (n % 4 < 2)

/-- The sync mark, most significant bit first (R147). -/
def syncMark : Nat := 0xA73C5E09D1B6

/-- Bit n of the sync mark as written: bit 47 of the pattern is the first. -/
def syncBit (n : Nat) : Bool := syncMark.testBit (47 - n)

/-- The polarity of a channel bit, written and read: 1 is positive (R146). -/
def polarity (b : Bool) : Int := if b then 1 else -1

/-- First codeword bit of a sector (R145). -/
def codewordAt : Nat := 176
/-- Codeword bits. -/
def codewordBits : Nat := 36864

/-- The 37 072 channel bits of a physical sector, bit 0 first (R145): preamble, sync mark, codeword and postamble. -/
def sectorBit (c : BitVec 36864) (n : Nat) : Bool :=
  if n < 128 then preambleBit n
  else if n < 176 then syncBit (n - 128)
  else if n < 37040 then c.getLsbD (n - 176)
  else preambleBit n

/-- The channel bits of a sector as one word, bit 0 in the low place. -/
def channelWord (c : BitVec 36864) : BitVec 37072 := BitVec.ofNat 37072 (bitsToNat ((List.range 37072).map (sectorBit c)))

/-! ### The servo field (R260 to R262) -/

/-- The servo address mark, most significant bit first (R260). -/
def servoAddressMark : BitVec 16 := 0xE4B1

/-- The bits of a number, most significant first. -/
def bitsDown (w n : Nat) : List Bool := (List.range w).map fun i => n.testBit (w - 1 - i)

/-- Each bit as its two servo bits (R261): 1 is (+, −), 0 is (−, +). -/
def twoServoBits (l : List Bool) : List (Option Bool) := l.flatMap fun b => [some b, some !b]

/-- Burst b of A to D covers the half track that begins at position x / 2 (R262). -/
def burstCovers (b : Fin 4) (x : Int) : Bool :=
  let q := x % 4
  match b.val with
  | 0 => q == 0 || q == 1
  | 1 => q == 2 || q == 3
  | 2 => q == 3 || q == 0
  | _ => q == 1 || q == 2

/-- The 448 servo bits of the servo field of a wedge on a half track (R260, R262), from wedge W − 1 + 0xF000 on; none is erased. -/
def servoFieldBits (w : Fin 720) (x : Int) : List (Option Bool) :=
  let erased := fun (n : Nat) => List.replicate n (none : Option Bool)
  let period := fun (n : Nat) => (List.range n).map fun i => some (preambleBit i)
  let t := (x / 2).toNat
  let ix := bitsDown 10 w.val
  erased 32 ++ period 208 ++ (bitsDown 16 servoAddressMark.toNat).map some ++ twoServoBits (bitsDown 22 (t ^^^ (t / 2))) ++
    twoServoBits (ix ++ [ix.foldl xor false]) ++ erased 6 ++
    ((fins 4).flatMap fun b => if burstCovers b x then period 24 else erased 24) ++ erased 24

/-! ### Precompensation (R233) -/

/-- The level of the write-data pair at channel bit k of a sector (R146, R233): high for 1; before bit 0 stands the postamble of the
sector before (log 67). -/
def writeLevel (c : BitVec 36864) (k : Int) : Bool := if k < 0 then preambleBit (k % 4).toNat else sectorBit c k.toNat

/-- The boundary of bit k carries a transition (R233). -/
def transition (c : BitVec 36864) (k : Int) : Bool := writeLevel c k != writeLevel c (k - 1)

/-- PRE[j] of WR_PRE0 and WR_PRE1 (R257). -/
def preShift (pre0 pre1 : Word) (j : Nat) : Int :=
  let w := if j < 4 then pre0 else pre1
  sfld w (8 * (j % 4) + 7) (8 * (j % 4))

/-- The delay of the transition at bit k, 1/64 bit (R233). -/
def edgeDelay (pre0 pre1 : Word) (c : BitVec 36864) (k : Int) : Int :=
  preShift pre0 pre1 (4 * (writeLevel c k).toNat + 2 * (transition c (k - 1)).toNat + (transition c (k - 2)).toNat)

/-- The transitions of a sector, each with its delay (R233). -/
def writeEdges (pre0 pre1 : Word) (c : BitVec 36864) : List (Nat × Int) :=
  ((List.range 37072).filter fun (k : Nat) => transition c k).map fun (k : Nat) => (k, edgeDelay pre0 pre1 c k)

/-! ### Equalising (R156 to R158) -/

/-- z of a bit instant kept in a list, newest first; 0 where none has been delivered. -/
def zAt (l : List ReadBit) (k : Int) : Int :=
  if k < 0 ∨ (l.length : Int) ≤ k then 0 else (l.getD (l.length - 1 - k.toNat) {}).z

/-- One reader's sum of R156 about bit k. -/
def tapSum (w : Vector (BitVec 12) 9) (l : List ReadBit) (k : Nat) : Int :=
  ((fins 9).map fun (i : Fin 9) => w[i].toInt * zAt l ((k : Int) + i.val - 4)).sum

/-- u of bit k (R156), in the units of the slice output. -/
def equalise (t : TapSet) (scale : Word) (za zb : List ReadBit) (k : Nat) : Int :=
  satInt 12 ((fld scale 31 24 * tapSum t.wa za k + fld scale 23 16 * tapSum t.wb zb k) / 2 ^ 17)

/-- The ideal equalised value for three bits (R157). -/
def targetLevel (tgt : Word) (a0 a1 a2 : Bool) : Int :=
  sfld tgt 29 20 * polarity a0 + sfld tgt 19 10 * polarity a1 + sfld tgt 9 0 * polarity a2

/-- A reader's flags at bit k: erased by an underrun, and absent (R160, R177); a bit not delivered is absent. -/
def flagsAt (l : List ReadBit) (k : Nat) : Bool × Bool :=
  if l.length ≤ k then (false, true) else
    let b := l.getD (l.length - 1 - k) {}
    (b.erased, b.absent)

/-- Bit k of a packet is erased: a reader that delivered it had a flagged sample (R160). -/
def erasedAt (za zb : List ReadBit) (k : Nat) : Bool := (flagsAt za k).1 || (flagsAt zb k).1

/-- Bit k of a packet is erased, or no reader delivered it (R160, R177). -/
def lostAt (za zb : List ReadBit) (k : Nat) : Bool := erasedAt za zb k || ((flagsAt za k).2 && (flagsAt zb k).2)

/-- One tap after a bit's sign-data step (R159): the error in Q1.10, rounded down (log 64). -/
def adaptTap (mu : Nat) (err : Int) (w : BitVec 12) (z : Int) : BitVec 12 :=
  BitVec.ofInt 12 (satInt 12 (w.toInt - err * 1024 * z.sign / (2 ^ mu : Nat)))

/-- One reader's taps after bit k's step (R159). -/
def adaptTaps (mu : Nat) (err : Int) (w : Vector (BitVec 12) 9) (l : List ReadBit) (k : Nat) : Vector (BitVec 12) 9 :=
  Vector.ofFn fun (i : Fin 9) => adaptTap mu err w[i] (zAt l ((k : Int) + i.val - 4))

/-! ### The trellis (R161) -/

/-- Bit a_(k−j) of a branch condition: a_k is its most significant bit. -/
def condBit (c j : Nat) : Bool := c.testBit (4 - j)

/-- The branch metric of R161 for condition c, in 2^−36 of the natural logarithm's unit; la is the a priori LLR in LLR units (R162).
A bit before the recursion's start gives no noise to predict from (log 64). -/
def branchMetric (b : DetBand) (u0 : Int) (u1 u2 : Option Int) (la : Int) (c : Nat) : Int :=
  let pred := vget b.npPred c 0
  let noise := vget b.npNoise c 0
  let d := fun (j : Nat) => targetLevel b.tgt (condBit c j) (condBit c (j + 1)) (condBit c (j + 2))
  let n := fun (u : Option Int) (j : Nat) => (u.map fun v => v - d j).getD 0
  let e := 2 ^ 14 * (u0 - d 0) - sfld pred 31 16 * n u1 1 - sfld pred 15 0 * n u2 2 - 2 ^ 14 * sfld noise 31 20
  (fld noise 19 8 : Int) * e * e + (fld noise 7 0 : Int) * 2 ^ 35 - polarity (condBit c 0) * la * 2 ^ 34

/-- The less of two metrics. -/
def minI (x y : Int) : Int := if y < x then y else x

/-- One forward step of the recursion: a state is the last four bits, the newest most significant. -/
def forwardStep (m : Nat → Int) (alpha : List Int) : List Int :=
  (List.range 16).map fun t => minI (alpha.getD ((2 * t) % 16) 0 + m (2 * t)) (alpha.getD ((2 * t + 1) % 16) 0 + m (2 * t + 1))

/-- One backward step. -/
def backwardStep (m : Nat → Int) (beta : List Int) : List Int :=
  (List.range 16).map fun t => minI (m t + beta.getD (t / 2) 0) (m (16 + t) + beta.getD ((16 + t) / 2) 0)

/-- Every state equally likely (R165). -/
def equalStates : List Int := List.replicate 16 0

/-- The least of a list of metrics. -/
def leastOf : List Int → Int
  | [] => 0
  | x :: l => l.foldl minI x

/-- ln P(+1) − ln P(−1) of a bit in 2^−36: the best branch of either sign. -/
def bitRatio (m : Nat → Int) (alpha beta : List Int) : Int :=
  let of := fun (c : Nat) => alpha.getD (c % 16) 0 + m c + beta.getD (c / 2) 0
  leastOf ((List.range 16).map of) - leastOf ((List.range 16).map fun c => of (16 + c))

/-- The detector's output for a bit (R162): posterior less a priori, scaled by EXT_SC, rounded and clamped to ±31. -/
def softOut (extSc : Nat) (ratio la : Int) : Int := clampInt (-31) 31 (roundDiv ((2 * ratio - la * 2 ^ 36) * extSc) (2 ^ 43))

/-! ### Soft passes (R163 to R165) -/

/-- The runs of bits from one recursion start to the next (R165): cut at fragments and at lost bits; each a first bit and the bit
after its last. -/
def runsOf : List EqBit → Nat → Option Nat → List (Nat × Nat)
  | [], k, open_ => (open_.map fun b => (b, k)).toList
  | x :: l, k, open_ =>
    if x.lost then (open_.map fun b => (b, k)).toList ++ runsOf l (k + 1) none
    else match open_ with
      | none => runsOf l (k + 1) (some k)
      | some b => if x.frag then (b, k) :: runsOf l (k + 1) (some k) else runsOf l (k + 1) (some b)

/-- The metric of bit k of a stream in a run that begins at bit b. -/
def metricAt (d : DetBand) (us : List EqBit) (la : Nat → Int) (b k c : Nat) : Int :=
  let u := fun (j : Nat) => if b + j ≤ k then some (us.getD (k - j) {}).u else none
  branchMetric d (us.getD k {}).u (u 1) (u 2) (la k) c

/-- Forward states of n bits from bit k on. -/
def forwardStates (m : Nat → Nat → Int) : Nat → Nat → List Int → List (List Int)
  | 0, _, _ => []
  | n + 1, k, alpha => alpha :: forwardStates m n (k + 1) (forwardStep (m k) alpha)

/-- Backward states after each of n bits from bit k on, equal after the last. -/
def backwardStates (m : Nat → Nat → Int) : Nat → Nat → List (List Int)
  | 0, _ => []
  | n + 1, k =>
    match backwardStates m n (k + 1) with
    | [] => [equalStates]
    | beta :: l => backwardStep (m (k + 1)) beta :: beta :: l

/-- One window of a soft pass: bits lo to hi − 1, the forward recursion from bit f, the backward one from bit t. -/
def softWindow (d : DetBand) (us : List EqBit) (la : Nat → Int) (b f lo hi t : Nat) : List (Nat × Int) :=
  let m := metricAt d us la b
  let alphas := (forwardStates m (hi - f) f equalStates).drop (lo - f)
  let betas := (backwardStates m (t - lo) lo).take (hi - lo)
  (alphas.zip betas).zipIdx.map fun (p, i) => (lo + i, softOut (fld d.adapt 7 0) (bitRatio (m (lo + i)) p.1 p.2) (la (lo + i)))

/-- A pass over a run in windows of len bits counted from bit o: the forward recursion starts warm bits before a window, or at the
run's start where warm is none; the backward one 48 bits after it (R163, R164). -/
def softRun (d : DetBand) (us : List EqBit) (la : Nat → Int) (o len : Nat) (warm : Option Nat) (run : Nat × Nat) : List (Nat × Int) :=
  (List.range ((run.2 + len - o) / len)).flatMap fun i =>
    let lo := max run.1 (o + i * len)
    let hi := min run.2 (o + (i + 1) * len)
    if hi ≤ lo then []
    else softWindow d us la run.1 (match warm with
      | none => run.1
      | some w => max run.1 (lo - w)) lo hi (min run.2 (hi + 48))

/-- The LLRs of n bits from bit o on, 0 where none was computed (R160, R181). -/
def denseFrom (o : Nat) (l : List (Nat × Int)) (n : Nat) : List Int :=
  let a := l.foldl (fun (a : Array Int) p => if p.1 < o then a else a.setIfInBounds (p.1 - o) p.2) (Array.replicate n 0)
  a.toList

/-- The first pass (R163): the LLRs of the codeword placed at bit o of a stream, in windows of 64 bits of the packet. -/
def firstPass (d : DetBand) (us : List EqBit) (o : Nat) : List Int :=
  denseFrom o ((runsOf us 0 none).flatMap (softRun d us (fun _ => 0) 0 64 none)) codewordBits

/-- A pass of the iteration detector (R164): 8 segments of 4 608 bits, 48 bits of warm-up into the neighbours inside the codeword. -/
def iterationPass (d : DetBand) (us : List EqBit) (o : Nat) (ext : List Int) : List Int :=
  let in_ := ((us.drop o).take codewordBits).zipIdx.map fun (x, i) => if i = 0 then { x with frag := false } else x
  denseFrom 0 ((runsOf in_ 0 none).flatMap (softRun d in_ (fun k => ext.getD k 0) 0 4608 (some 48))) codewordBits

/-! ### The streaming detector's decisions (R163) -/

/-- The best survivor. -/
def bestSurvivor : List Survivor → Survivor
  | [] => {}
  | x :: l => l.foldl (fun b y => if y.metric < b.metric then y else b) x

/-- The recursion starts again with every state equally likely: what was decided so far stays (R165). -/
def restartSurvivors (l : List Survivor) : List Survivor :=
  List.replicate 16 { metric := 0, bits := (bestSurvivor l).bits }

/-- One bit of the streaming detector: each state keeps the better of its two branches; metrics are kept relative to the least. -/
def stepSurvivors (m : Nat → Int) (l : List Survivor) : List Survivor :=
  let next := (List.range 16).map fun t =>
    let x := l.getD ((2 * t) % 16) {}
    let y := l.getD ((2 * t + 1) % 16) {}
    let bit := decide (8 ≤ t)
    if y.metric + m (2 * t + 1) < x.metric + m (2 * t) then
      { metric := y.metric + m (2 * t + 1), bits := (bit :: y.bits).take 24 : Survivor }
    else { metric := x.metric + m (2 * t), bits := (bit :: x.bits).take 24 }
  let least := (bestSurvivor next).metric
  next.map fun x => { x with metric := x.metric - least }

/-- Bits of look-ahead of a tentative decision inside the detector: u of a bit needs the four bit instants after it, and its
decision is released 24 bits after it (R156, R163). -/
def decisionLag : Nat := 20

/-- The tentative decision of packet bit j, once released. -/
def Slot.decision (c : Slot) (j : Nat) : Option Bool :=
  if j < c.dec.length then c.dec[c.dec.length - 1 - j]? else none

/-- The next equalised bit of a codeword (R156, R163): its u, the survivors after it, and the decision it releases. -/
def Slot.nextBit (d : DetRegs) (c : Slot) : Slot :=
  let k := c.us.length
  let u := equalise d.active d.scale c.za c.zb k
  let lost := lostAt c.za c.zb k
  let frag := c.frags.contains k
  let from_ := if frag then 0 else c.sinceStart
  let prev := fun (j : Nat) => if j ≤ from_ then (c.us[j - 1]?).map (·.u) else none
  let surv := if frag then restartSurvivors c.surv else c.surv
  let surv := if lost then (restartSurvivors surv).map fun x => { x with bits := (false :: x.bits).take 24 }
    else stepSurvivors (branchMetric d.band u (prev 1) (prev 2) 0) surv
  let dec := match (bestSurvivor surv).bits[decisionLag]? with
    | some b => if decisionLag ≤ k then b :: c.dec else c.dec
    | none => c.dec
  { c with us := ⟨u, lost, frag⟩ :: c.us, surv := surv, sinceStart := if lost then 0 else from_ + 1, dec := dec }

/-- The active taps after the bit whose decision has just been released (R159): reader A's and reader B's while their slices are in
TRACK; erased and absent bits are left out. -/
def Slot.adaptActive (d : DetRegs) (trackA trackB : Bool) (before c : Slot) : TapSet :=
  let n := c.dec.length
  if n = before.dec.length ∨ n < 3 ∨ !d.band.adapt.getLsbD 31 then d.active
  else
    let j := n - 1
    let lost := (List.range 3).any fun i => lostAt c.za c.zb (j - i)
    if lost then d.active
    else
      let a := fun (i : Nat) => (c.decision (j - i)).getD false
      let err := (c.us.getD (c.us.length - 1 - j) {}).u - targetLevel d.band.tgt (a 0) (a 1) (a 2)
      let mu := fld d.band.adapt 19 16
      { wa := if trackA then adaptTaps mu err d.active.wa c.za j else d.active.wa
        wb := if trackB then adaptTaps mu err d.active.wb c.zb j else d.active.wb }

/-! ### The sync search (R176 to R178) -/

/-- The distance of the candidate at offset q (R176): a bit that is erased, absent or not decided counts as differing (R177). -/
def syncDistance (c : Slot) (q : Int) : Nat :=
  ((List.range 48).filter fun (i : Nat) =>
    let k := (128 + q + (i : Int)).toNat
    lostAt c.za c.zb k || c.decision k != some (syncBit i)).length

/-- The candidate of R178 among the offsets −64 to +64: lowest distance, ties nearest 0, then negative. -/
def bestCandidate (dist : Int → Nat) : Int × Nat :=
  (List.range 129).foldl (fun (acc : Int × Nat) (i : Nat) =>
    let q : Int := (i : Int) - 64
    let d := dist q
    if d < acc.2 ∨ (d = acc.2 ∧ (q.natAbs < acc.1.natAbs ∨ (q.natAbs = acc.1.natAbs ∧ q < acc.1))) then (q, d) else acc) (200, 49)

/-- First codeword bit of a placed codeword (R180). -/
def Slot.placed (c : Slot) (n : Int) : Nat := ((codewordAt : Int) + c.syncQ + n).toNat

/-- Bit instants delivered by both, or by the readers that serve. -/
def Slot.delivered (c : Slot) (aOpen bOpen : Bool) : Nat :=
  match aOpen, bOpen with
  | true, true => min c.za.length c.zb.length
  | true, false => c.za.length
  | false, true => c.zb.length
  | false, false => max c.za.length c.zb.length

end Sys2Proof.Machine
end

