-- ==== Sys2Proof/Machine/Signal.lean ====
section
/-! DEFINITION. What a sample slice computes (spec/04_sample_slices.md): the instants of samples (R103), the FIFO (R104 to R111), the
corrections (R124, R126), interpolation (R127, R128), the timing loop and the gain (R129 to R139). -/

namespace Sys2Proof.Machine
open Sys2Proof

/-! ### Instants (R103) -/

/-- The position on a slice's sample index of a clock of MTIME, 32 fraction bits; SKEW in 1/16 clock. -/
def samplePos (skew : Int) (t : MTime) : Int := (16 * (t : Int) - skew) * 7 * 2 ^ 32 / 40

/-- Samples a slice has taken by a clock. -/
def samplesBy (skew : Int) (t : MTime) : Nat := (samplePos skew t / 2 ^ 32 + 1).toNat

/-- The age of sample n at a clock (R107), 1/8 clock. -/
def sampleAge (skew : Int) (t : MTime) (n : Nat) : Nat := ((8 * (t : Int) - (40 * (n : Int) / 14 + skew / 2)) % 65536).toNat

/-! ### The FIFO (R104) -/

/-- A Gray pointer moved on by one word. -/
def grayNext (g : BitVec 6) : BitVec 6 := gray (ungray g + 1)

/-- The full flag of the write side. -/
def Slice.full (x : Slice) : Bool := decide (32 ≤ (ungray x.wrPtr - ungray x.rdSync.2).toNat)

/-- The pointers cross by one stage on a clock of the side that reads them (R104). -/
def Slice.cross (x : Slice) : Slice := { x with wrSync := (x.wrPtr, x.wrSync.1), rdSync := (x.rdPtr, x.rdSync.1) }

/-- The code of sample n at a slice. -/
def adcCode (k : SliceIx) (x : Slice) (n : Nat) : Byte := Config.adcCode k.val x.epoch n

/-- The codes of the word that begins with sample n. -/
def wordCodes (k : SliceIx) (x : Slice) (n : Nat) : Word :=
  adcCode k x (n + 3) ++ adcCode k x (n + 2) ++ adcCode k x (n + 1) ++ adcCode k x n

/-- Sample i of a word. -/
def codeOf (w : Word) (i : Nat) : Int := ((w >>> (8 * i)).setWidth 8).toInt

/-- Clip codes in a word (R102). -/
def clipsIn (w : Word) : Nat := ((List.range 4).filter fun i => codeOf w i == -128 || codeOf w i == 127).length

/-- The ADC gives the next word, its clip codes counted (R102). -/
def Slice.nextWord (k : SliceIx) (x : Slice) : Slice × FifoWord :=
  let w := wordCodes k x x.wrIx
  ({ x with wrIx := x.wrIx + 4, wrSeq := x.wrSeq + 1, clipCnt := satAdd 32 x.clipCnt (clipsIn w) }, ⟨x.wrSeq, w⟩)

/-- The write side discards the next word (R111). -/
def Slice.loseWord (k : SliceIx) (x : Slice) : Slice :=
  { (x.nextWord k).1 with overrun := true, overrunCnt := inc 16 x.overrunCnt }

/-- The next word enters the FIFO, or is discarded where the write side sees the FIFO full (R104, R111). -/
def Slice.writeWord (k : SliceIx) (x : Slice) : Slice :=
  if x.full then x.loseWord k
  else { (x.nextWord k).1 with fifo := x.fifo ++ [(x.nextWord k).2], wrPtr := grayNext x.wrPtr }

/-- The words whose last sample has been taken are written. -/
def Slice.writeDue (k : SliceIx) (taken : Nat) : Nat → Slice → Slice
  | 0, x => x
  | n + 1, x => if x.wrIx + 4 ≤ taken then Slice.writeDue k taken n (x.writeWord k) else x

/-- The stream starts (R105, R107): the FIFO holds the last words taken, as many as the read side sees. -/
def Slice.startStream (k : SliceIx) (skew : Int) (t : MTime) (epoch level : Nat) (x : Slice) : Slice :=
  let end_ := samplesBy skew t / 4 * 4
  let first := end_ - 4 * level
  let x := { x with
    epoch := epoch, fifo := [], wrPtr := 0, rdPtr := 0, wrSync := (0, 0), rdSync := (0, 0), wrSeq := 0, rdSeq := 0, wrIx := first
    line := [], lineEnd := first, first := first, lastCode := 0, popAhead := 0, popAcc := 0, missing := []
    lat := sampleAge skew t first, state := .idle }
  let x := Slice.writeDue k end_ level x
  { x with wrSync := (x.wrPtr, x.wrPtr) }

/-! ### Corrections (R124, R126) -/

/-- x_b of a raw code, in 1/16 code step. -/
def baseCorrected (r : SliceRegs) (bias x : Int) : Int := clampInt (-4096) 4095 (16 * x - sfld r.base 31 16 - bias / 2 ^ 16)

/-- x_a of x_b, in 1/16 code step. -/
def asymCorrected (r : SliceRegs) (xb : Int) : Int := clampInt (-4096) 4095 (xb - sfld r.asym 11 0 * xb * xb / 2 ^ 23)

/-- One sample delivered at the FIFO read port, corrected. -/
def Slice.deliver (r : SliceRegs) (flag : Bool) (x : Slice) (code : Int) : Slice :=
  let v := asymCorrected r (baseCorrected r x.bias code)
  { x with line := (⟨v, flag⟩ :: x.line).take 64, lineEnd := x.lineEnd + 1, lastCode := code }

/-- The four samples of a word delivered. -/
def Slice.deliverWord (r : SliceRegs) (flag : Bool) (codes : List Int) (x : Slice) : Slice := codes.foldl (Slice.deliver r flag) x

/-- A missing word (R108): the last sample value stands for its four samples, flagged. -/
def Slice.repeatWord (r : SliceRegs) (x : Slice) : Slice :=
  let y := x.deliverWord r true (List.replicate 4 x.lastCode)
  { y with underrun := true, underrunCnt := inc 32 x.underrunCnt, rdSeq := x.rdSeq + 1 }

/-- The oldest word leaves the FIFO. -/
def Slice.takeWord (x : Slice) : Slice := { x with fifo := x.fifo.drop 1, rdPtr := grayNext x.rdPtr }

/-- Words an underrun replaced that have arrived late are discarded (R109). -/
def Slice.discardLate : Nat → Slice → Slice
  | 0, x => x
  | n + 1, x =>
    match x.fifo with
    | w :: _ =>
      if x.missing.contains w.wseq ∧ w.wseq ≠ x.rdSeq ∧ 0 < x.fifoLvl then
        Slice.discardLate n { x.takeWord with missing := x.missing.erase w.wseq }
      else x
    | [] => x

/-- An underrun (R108, R109): the word due is replaced, and remembered by its WSEQ where it is only late. -/
def Slice.underrunWord (r : SliceRegs) (x : Slice) : Slice := { x.repeatWord r with missing := x.missing ++ [x.rdSeq] }

/-- A pop (R105, R108, R109, R111): the word due and its codes, or an underrun where the FIFO is empty in the read side's view or the
word due was discarded on the write side. -/
def Slice.pop (r : SliceRegs) (x : Slice) : Slice × List Byte :=
  let x := x.discardLate 4
  match x.fifo with
  | w :: _ =>
    if x.fifoLvl = 0 then (x.underrunWord r, [])
    else if w.wseq ≠ x.rdSeq then (x.repeatWord r, [])
    else
      ({ x.takeWord.deliverWord r false ((List.range 4).map (codeOf w.codes)) with rdSeq := x.rdSeq + 1 }
      , (List.range 4).map fun i => (w.codes >>> (8 * i)).setWidth 8)
  | [] => (x.underrunWord r, [])

/-! ### Interpolation (R127, R128) -/

/-- Tap i − 4 of a phase of the coefficient table: each phase sums to 2 048, phase 0 is the unit impulse. -/
def coefficient (phi i : Nat) : Int :=
  if phi = 0 then (if i = 4 then 2048 else 0)
  else if i < 9 then (Config.tap phi i).toInt
  else 2048 - ((List.range 9).map fun j => (Config.tap phi j).toInt).sum

/-- The sample and the phase a position rounds to (R127). -/
def phaseOf (p : Int) : Int × Nat :=
  let phi := ((128 * (p % 2 ^ 32) + 2 ^ 31) / 2 ^ 32).toNat
  if phi = 128 then (p / 2 ^ 32 + 1, 0) else (p / 2 ^ 32, phi)

/-- y at position p before its division by 2 048. -/
def interpolate (xa : Int → Int) (p : Int) : Int :=
  ((List.range 10).map fun (i : Nat) => coefficient (phaseOf p).2 i * xa ((phaseOf p).1 + i - 4)).sum

/-- A delivered sample by its index. -/
def Slice.sampleAt (x : Slice) (n : Int) : Sample :=
  let back := (x.lineEnd : Int) - 1 - n
  if back < 0 then {} else x.line.getD back.toNat {}

/-- Every sample a bit instant needs has been delivered. -/
def Slice.hasBit (x : Slice) : Bool := decide (x.pos / 2 ^ 32 + 7 ≤ x.lineEnd)

/-! ### The timing loop (R129 to R137) -/

/-- Least and greatest spacing of bit instants (R129): 1.4 and 8.0 samples, 32 fraction bits. -/
def spacingMin : Int := 6012954215
/-- See `spacingMin`. -/
def spacingMax : Int := 34359738368

/-- A recomputed seed applies from its position on (R130). -/
def Slice.takeSeed (x : Slice) (at_ : Int) : Slice :=
  match x.seedNext with
  | some (v, p) => if p ≤ at_ then { x with seed := v, seedNext := none } else x
  | none => x

/-- The position moved by one bit's spacing and a correction (R129, R132). -/
def Slice.stepPos (x : Slice) (freq corr : Int) : Slice :=
  { x with pos := x.pos + clampInt spacingMin spacingMax (((x.seed : Int) + freq) * 16 + corr) }

/-- One bit instant of COAST (R137). -/
def Slice.coastBit (freq : Int) (x : Slice) : Slice := (x.takeSeed x.pos).stepPos freq 0

/-- COAST's bit instants before a position. -/
def Slice.coastTo (freq limit : Int) : Nat → Slice → Slice
  | 0, x => x
  | n + 1, x => if x.pos < limit then Slice.coastTo freq limit n (x.coastBit freq) else x

/-- The bit of this slice whose tentative decision is the newest released and still unused, in TRACK (R132): of the n decisions
released, counted from packet bit 0. -/
def Slice.newest (x : Slice) (n : Nat) : Option Nat :=
  let j := n - 1 - x.base
  if x.state = .track ∧ x.base < n ∧ x.trackFrom.getD 0 ≤ j ∧ x.used ≤ j ∧ j < x.bits then some j else none

/-- The bit of this slice whose timing error becomes available at its next bit instant, with four reference bits, newest first
(R132): two bits ago from the preamble in ACQ, 24 bits ago from tentative decisions in TRACK. -/
def Slice.reference (x : Slice) (c : Slot) : Option (Nat × List Bool) :=
  if 3 ≤ x.bits ∧ x.bits - 2 < x.trackFrom.getD x.bits then
    let j := x.bits - 2
    some (j, [preambleBit j, preambleBit (j + 3), preambleBit (j + 2), preambleBit (j + 1)])
  else match x.newest c.dec.length with
    | some j => some (j, (List.range 4).map fun i => (c.decision (x.base + j - i)).getD false)
    | none => none

/-- A bit of this slice's recent past. -/
def Slice.past (x : Slice) (j : Nat) : LoopBit := if j < x.bits then x.hist.getD (x.bits - 1 - j) { lost := true } else { lost := true }

/-- e at this bit instant in 2^−16 sample, clamped to ±0.5; 0 where no new error is available (R132). -/
def Slice.timingErr (tgt : Word) (x : Slice) (c : Slot) : Int :=
  match x.reference c with
  | some (j, [a0, a1, a2, a3]) =>
    let p := x.past j
    let q := x.past (j - 1)
    if p.lost || q.lost then 0
    else clampInt (-32768) 32768 (Config.timingError p.z q.z (targetLevel tgt a0 a1 a2) (targetLevel tgt a1 a2 a3))
  | _ => 0

/-- The residual r of the bit newly decided, in `LoopBit.y`'s unit (R125); erased and absent bits are left out (R160). -/
def Slice.residual (k : SliceIx) (x : Slice) (c : Slot) : Option Int :=
  match x.newest c.dec.length with
  | some j => if (x.past j).lost then none else some ((x.past j).y - Config.predicted k.val (c.dec.take 24))
  | none => none

/-- f after an error at one slice (R132, R136): half the change where both slices have an open packet; f and whether it was
clamped. -/
def stepFreq (r : SliceRegs) (shift share seed : Nat) (e freq : Int) : Int × Bool :=
  let f := freq + e * 4096 / ((share * 2 ^ shift : Nat) : Int)
  let lim : Int := (seed / 2 ^ fld r.tl 11 8 : Nat)
  (clampInt (-lim) lim f, decide (clampInt (-lim) lim f ≠ f))

/-- g after a bit of output z (R139). -/
def stepGain (r : SliceRegs) (shift gain : Nat) (z : Int) : Nat :=
  let tgt : Int := (2 * fld r.agc 7 0 : Nat)
  let den : Int := tgt * (2 ^ shift : Nat)
  if den = 0 then gain else (clampInt 0 65535 ((gain : Int) + (gain : Int) * (tgt - z.natAbs) / den)).toNat

/-- One bit instant of ACQ or TRACK at a slice (R125, R127, R132, R133, R136, R138, R139): the slice after it, f, and what goes to
the lane. -/
def Slice.bitInstant (k : SliceIx) (r : SliceRegs) (tgt : Word) (c : Slot) (share : Nat) (freq : Int) (x : Slice) :
    Slice × Int × ReadBit :=
  let x := x.takeSeed x.pos
  let track := x.state == .track
  let absent := decide ((phaseOf x.pos).1 - 4 < x.first)
  let erased := !absent && (List.range 10).any fun (i : Nat) => (x.sampleAt ((phaseOf x.pos).1 + i - 4)).flag
  let lost := absent || erased
  let y := if absent then 0 else interpolate (fun n => (x.sampleAt n).x) x.pos
  let raw := y * x.gain / 2 ^ 27
  let z := clampInt (-512) 511 raw
  let e := x.timingErr tgt c
  let (f, limited) := stepFreq r (if track then fld r.tl 18 14 else fld r.tl 23 19) share x.seed e freq
  let shift := if track then fld r.agc 11 8 else fld r.agc 15 12
  let x' := { x with
    hist := (({ y := y, z := z, lost := lost } : LoopBit) :: x.hist).take 64
    used := match x.newest c.dec.length with
      | some j => j + 1
      | none => x.used
    gain := if lost || (track && shift == 0) then x.gain else stepGain r shift x.gain z
    satCnt := if raw = z then x.satCnt else inc 32 x.satCnt
    fLimit := x.fLimit || limited, flimCnt := if limited then inc 16 x.flimCnt else x.flimCnt
    bias := if track && fld r.base 4 0 != 0 then
        match x.residual k c with
        | some v => clampInt (-33554432) 33554432 (x.bias + v * 32 / (2 ^ fld r.base 4 0 : Nat))
        | none => x.bias
      else x.bias
    bits := x.bits + 1 }
  (x'.stepPos freq (e * 65536 / (2 ^ (if track then fld r.tl 27 24 else fld r.tl 31 28) : Nat)), f, ⟨z, erased, absent⟩)

/-! ### Acquisition (R133 to R135) -/

/-- The phase of the first 16 interpolated values against a period of 4 bits (R135): cosine and sine sums. -/
def zeroPhaseSums (hist : List LoopBit) : Int × Int :=
  let y := fun (k : Nat) => (hist.getD (15 - k) {}).y
  (((List.range 4).map fun i => y (4 * i) - y (4 * i + 2)).sum, ((List.range 4).map fun i => y (4 * i + 1) - y (4 * i + 3)).sum)

/-- The zero-phase start (R135): p moves by (θ − π/4) × 4 / 2π bits, wrapped into −2 to +2. -/
def Slice.zeroPhase (x : Slice) : Slice :=
  let (c, s) := zeroPhaseSums x.hist
  let w := signedOf 32 (((Config.phase c s : Int) - 2 ^ 29) % 2 ^ 32).toNat
  { x with zeroDone := true, pos := x.pos + w * 4 * (x.seed : Int) / 2 ^ 28 }

/-- The zero-phase start is due: 16 bits are in and ACQ goes on. -/
def Slice.zeroDue (x : Slice) : Bool := x.packet && x.state == .acq && x.bits == 16 && !x.zeroDone

/-- The stream of a slice runs. -/
def SliceState.streaming : SliceState → Bool
  | .idle => true
  | .acq => true
  | .track => true
  | .coast => true
  | .off | .wake | .fault | .failed => false

/-- TRACK begins (R133, R116). -/
def Slice.toTrack (x : Slice) : Slice := { x with state := .track, servoCoast := false, trackFrom := some (x.trackFrom.getD x.bits) }

/-- ACQ_BITS bits are in (R133). -/
def Slice.trackDue (r : SliceRegs) (x : Slice) : Bool := x.packet && x.state == .acq && x.bits == 8 * fld r.tl 7 4

end Sys2Proof.Machine
end

