-- ==== Sys2Proof/Machine/Reel.lean ====
section
/-! DEFINITION. The meanings of the timeline's commands (spec/02_angle_timeline.md): servo marks, the mark hold, comparators
armed, and the four timeline packets. -/

namespace Sys2Proof.Machine
open Sys2Proof

/-! ### Comparators armed (R66, R69, R79) -/

/-- What a write of CMP_CTL does to comparator c: LATE clears where 1 is written; ARMED 1 arms with the target both of whose
words were written since the last firing or disarm, else with the one held; ARMED 0 disarms; reserved comparators never arm. -/
def Comparator.writeCtl (c : CmpIx) (x : Comparator) (now : MTime) (v : Word) : Comparator :=
  let x := { x with
    late := x.late && !v.getLsbD 30
    headMask := BitVec.ofNat 12 (fld v 11 0)
    action := if cmpSeq c && decide (fld v 23 20 ≤ 4) then fld v 23 20 else x.action }
  if v.getLsbD 31 then
    if cmpOwner c = 0xF then x
    else
      let fresh := x.loWritten && x.hiWritten
      { x with
        armed := true, armedAt := some now
        target := if fresh then { rev := x.newHi.toNat, wedge := min (fld x.newLo 31 16) 719, frac := fld x.newLo 15 0 }
          else x.target }
  else x.disarm

/-- COMPARATOR_ARM (R66, R79): the owner writes CMP_CTL of a comparator. -/
def execComparatorArm (a : Eng) (c : CmpIx) (ctl : Word) (s : State) : Out :=
  .next (if s.enginePresent a then s.modCmp a c fun x => x.writeCtl c s.mtime ctl else s)

/-! ### Servo marks (R47 to R64, R265, R681) -/

/-- The wedge index of a mark: ten bits, most significant first, and even parity over them; none where the parity fails, or where no
wedge has the index (R260, R266). -/
def markIndex (m : MarkInfo) : Option (Fin 720) :=
  let l := servoBits m.means.toList
  if l.foldl xor false then none else fin? 720 (bitsNat (l.take 10))

/-- The timing head of an engine (R265): the lowest local head loaded, not depopulated and not SRV_LOST. -/
def State.timingHead (s : State) (a : Eng) : Option LHead :=
  (fins 12).find? fun (h : LHead) =>
    match s.globalHead a h.val with
    | some g => !s.head[g].map.depop && !s.head[g].srv.lost
    | none => false

/-- The signed distance of two wedge indices, −359 to 360. -/
def wedgeDiff (x y : Nat) : Int :=
  let d := (x + 720 - y % 720) % 720
  if d ≤ 360 then (d : Int) else (d : Int) - 720

/-- The mark yields a measured period when the wedge before it was accepted; WPER and FRAC_INC follow, FRAC_INC only while the list
holds a period (R47). -/
def State.measure (s : State) (a : Eng) : State :=
  let s := s.modReel a fun r =>
    match r.lastMark with
    | some t => { r with periods := ((s.mtime - t) :: r.periods).take 8, wper := (s.mtime - t) % 2 ^ 24, lastMark := some s.mtime }
    | none => { r with lastMark := some s.mtime }
  if s.eng[a].reel.periods.isEmpty then s else s.modReel a fun r => { r with fracInc := s.newInc a }

/-- SKEW latched by every other engine at an accepted mark of the reference engine (R63). -/
def State.latchSkew (s : State) (a : Eng) : State :=
  if s.refEngine = a then
    (fins 4).foldl (fun s (b : Eng) =>
      if b ≠ a ∧ s.enginePresent b then s.modReel b fun r => { r with skew := angleDiff (s.angle b) (s.angle a) } else s) s
  else s

/-- The seed of a slice: 2.8 × T × (1 − 4.5 × RAMP / 2^32) / BPW in U4.28, and whether it was clamped to 1.4 to 8.0 (R129, R130). -/
def State.seedOf (s : State) (a : Eng) (bpw : Nat) : Nat × Bool :=
  let (n, k) := s.wedgeClocks a
  if k = 0 ∨ bpw = 0 then (375809638, true)
  else
    let num : Int := 28 * n * (2 ^ 33 - 9 * s.spn.ramp) * 256 * 2 ^ 28
    let seed := num / ((10 * k * bpw : Nat) * 2 ^ 33)
    let c := clampInt 375809638 2147483648 seed
    (c.toNat, decide (c ≠ seed))

/-- The bit period of a serialiser, T × (1 − 4.5 × RAMP / 2^32) / BPW in 2^−32 datapath clock (R231); it is rounded down (log 67). -/
def State.bitPeriod (s : State) (a : Eng) (bpw : Nat) : Nat :=
  let (n, k) := s.wedgeClocks a
  if k = 0 ∨ bpw = 0 then 0 else (((n : Int) * (2 ^ 33 - 9 * s.spn.ramp) * 128) / ((k * bpw : Nat) : Int)).toNat

/-- A seed recomputed at a clock t (R130, R137): it applies from the first bit instant 32 clocks or more later, at once in COAST. -/
def Slice.newSeed (skew : Int) (t : MTime) (x : Slice) (v : Nat) (lim : Bool) : Slice :=
  if x.packet && x.state == .coast then { x with seed := v, seedNext := none, seedLim := x.seedLim || lim }
  else { x with seedNext := some (v, samplePos skew (t + 32)), seedLim := x.seedLim || lim }

/-- The seeds of an engine's slices and the bit periods of its heads' serialisers recomputed at an accepted mark (R130, R231). -/
def State.reseed (s : State) (a : Eng) : State :=
  (s.headsOf a).foldl (fun s g =>
    let s := s.modWr g fun w => { w with period := s.bitPeriod a s.head[g].rd[(0 : Fin 2)].bpw.toNat }
    [(sliceA g, (0 : Fin 2)), (sliceB g, 1)].foldl (fun s p =>
      let (v, lim) := s.seedOf a s.head[g].rd[p.2].bpw.toNat
      s.modSlice p.1 fun x => x.newSeed s.nor.heads[g].skew[p.2] s.mtime v lim) s) s

/-- The comparison engine of R64: the lowest-numbered other engine in LOCKED or FLYWHEEL. -/
def State.comparisonEngine (s : State) (a : Eng) : Option Eng :=
  (fins 4).find? fun (b : Eng) =>
    b ≠ a && s.enginePresent b && (s.eng[b].reel.state == .locked || s.eng[b].reel.state == .flywheel)

/-- Whole revolutions that bring a skew in FRAC units into (−360, 360] wedges (R64). -/
def revAdjust (skew : Int) : Int := -((skew - 360 * 65536 - 1) / revUnits + 1)

/-- REV moved by whole revolutions. -/
def stampAddRev (t : Stamp) (n : Int) : Stamp := { t with rev := (((t.rev : Int) + n) % 2 ^ 32).toNat }

/-- A count of wedges of the linear angle moved by a signed number. -/
def wedgesAdd (w : Nat) (n : Int) : Nat := (((w : Int) + n) % (720 * 2 ^ 32)).toNat

/-- The engine enters LOCKED, with the revolution adjustment of R64; the forward step of this clock moves with it (R53). -/
def State.lock (s : State) (a : Eng) : State :=
  let n := match s.comparisonEngine a with
    | some b => revAdjust (angleDiff (s.angle a) (s.angle b))
    | none => 0
  let s := s.modReel a fun r =>
    { r with
      state := .locked, stamp := stampAddRev r.stamp n, slipFix := .none, lastWedge := wedgesAdd r.lastWedge (720 * n)
      step := r.step.map fun p => (angleAdd p.1 (revUnits * n), p.2)
      cmp := r.cmp.map fun c => if c.armed then { c with target := stampAddRev c.target n } else c }
  s.modSeq a fun q => { q with jobwin := stampAddRev q.jobwin n }

/-- A slip of k wedges (R55, R56): gates off, SEQ and ASSIST comparators disarmed, the trap delivered, the event recorded. In ACQUIRE
a slip backward is held at once as R61 holds (log 62). -/
def State.slip (s : State) (a : Eng) (k : Int) : State :=
  let s := (s.forceWritesOff a (s.headsOf a) true false).dropReads (s.headsOf a)
  let s := s.disarmWhere a fun c => cmpSeq c || cmpAssist c
  let full := reaches 16 s.eng[a].reel.slipCnt
  let s := s.modReel a fun r =>
    { r with
      slipCnt := inc 16 r.slipCnt, offsets := []
      slipFix := if 0 < k then .step k.toNat else if r.state = .acquire then .none else .hold (-k).toNat
      behind := if k < 0 ∧ r.state = .acquire then r.behind + (-k).toNat * 2 ^ 32 else r.behind }
  let s := (s.trapCause a 1).condReel a
  s.saturated full 0x02 4 a.val (engBase a + 0x34) (nw s.eng[a].reel.slipCnt)

/-- The decoded index against the wedge the timeline expects (R54, R55, R56, R266): none after a parity failure, which leaves the run
of disagreeing marks as it is (log 62). -/
def State.checkIndex (s : State) (a : Eng) (index : Option (Fin 720)) (expect : Nat) : State :=
  match index with
  | none => s.modSrv a fun v => { v with idxErrCnt := inc 16 v.idxErrCnt }
  | some i =>
    let d := wedgeDiff i.val expect
    if d = 0 then s.modReel a fun r => { r with offsets := [] }
    else
      let full := reaches 16 s.eng[a].reel.mismCnt
      let s := s.modReel a fun r => { r with mismCnt := inc 16 r.mismCnt, offsets := (d :: r.offsets).take 3 }
      let s := s.saturated full 0x02 4 a.val (engBase a + 0x30) (rMarkCnt s.eng[a].reel)
      match s.eng[a].reel.offsets with
      | [x, y, z] => if x = y ∧ y = z ∧ -8 ≤ x ∧ x ≤ 8 then s.slip a x else s.enterAcquire a
      | _ => s

/-- What a mark does to the stamp and to a pending slip correction, the expected index of the mark, and MARK_ERR (R49, R50,
R56): the stamp becomes the next boundary, k wedges on for a step, or stays for a mark of a hold, which leaves MARK_ERR as it is
(log 62). -/
def Reel.markStep (r : Reel) : Reel × Nat :=
  let w := r.stamp.rev * 720 + r.stamp.wedge
  let err : Int := match r.hold with
    | some _ => (r.heldFor / 65536 : Nat)
    | none => (r.stamp.frac : Int) - 65536
  let go := fun (n : Nat) (r : Reel) =>
    { r.setAngle (((w + n) * 65536) % angleModulus) with hold := none, heldFor := 0, markErr := err, flyRun := 0 }
  match r.slipFix with
  | .none | .done => (go 1 r, (w + 1) % 720)
  | .step k => ({ go (1 + k) r with slipFix := .done }, (w + 1 + k) % 720)
  | .hold k =>
    ({ r with slipFix := if k ≤ 1 then .done else .hold (k - 1), hold := none, heldFor := 0, flyRun := 0 }, (w + 721 - k) % 720)

/-- A mark accepted in LOCKED or FLYWHEEL (R50 to R56). -/
def State.acceptLocked (s : State) (a : Eng) (m : MarkInfo) : State :=
  let before := s.angle a
  let (r, expect) := s.eng[a].reel.markStep
  let s := s.modReel a fun _ => { r with state := .locked, step := some (before, s.mtime), lastWedge := r.stamp.linear / 65536 }
  (((s.measure a).latchSkew a).reseed a).checkIndex a (markIndex m) expect

/-- The stamp brought to a boundary in ACQUIRE (R61): stepped forward when the boundary is ahead, held when it is behind. -/
def State.bringTo (s : State) (a : Eng) (d : Int) : State :=
  let before := s.angle a
  s.modReel a fun r =>
    if 0 ≤ d then { r.setAngle (angleAdd before d) with step := some (before, s.mtime), behind := 0, markErr := -d, flyRun := 0 }
    else { r with behind := (-d).toNat * 65536 + r.accLow, markErr := -d, flyRun := 0 }

/-- The wedge of a position moved by a signed distance. -/
def wedgeAt (x : Angle) (d : Int) : Nat := (angleAdd x d / 65536) % 720

/-- The search window opens: comparators 6 and 7 repeat every wedge about the predicted boundary, comparator 5 rests (R681). -/
def State.beginWindow (s : State) (a : Eng) : State :=
  let win : Int := 4 * (s.eng[a].reel.markWin.toNat : Int)
  let next : Int := 65536 - ((s.angle a % 65536 : Nat) : Int)
  let s := s.modCmp a 5 Comparator.disarm
  let s := s.armFixed a 6 (angleAdd (s.angle a) (next - win)) 256
  let s := s.armFixed a 7 (angleAdd (s.angle a) (next + win)) 256
  (s.modReel a fun r => { r with acq := .window, acqMissed := 0 }).servoGates a false

/-- The boundary a mark stands for noted: a mark that does not follow that of the wedge before it yields no period (R47). -/
def State.noteWedge (s : State) (a : Eng) (w : Nat) : State :=
  s.modReel a fun r =>
    { r with lastWedge := w, lastMark := if wedgesAdd r.lastWedge 1 = w then r.lastMark else none }

/-- The first mark of a search (R681): its index, whose parity must check, gives the wedge whose boundary it marks; the stamp goes the
nearer way round to it, half a revolution forward (log 62). -/
def State.acceptFirst (s : State) (a : Eng) (m : MarkInfo) : State :=
  match markIndex m with
  | none => s.modSrv a fun v => { v with idxErrCnt := inc 16 v.idxErrCnt }
  | some i =>
    let pos := s.angle a % revUnits
    let d0 := (i.val * 65536 + revUnits - pos) % revUnits
    let d : Int := if d0 ≤ revUnits / 2 then (d0 : Int) else (d0 : Int) - revUnits
    let w := angleAdd (s.angle a) d / 65536
    let s := s.bringTo a d
    let s := s.modReel a fun r => { r with acqGood := 1, offsets := [], lastWedge := w }
    (((s.measure a).latchSkew a).reseed a).beginWindow a

/-- How far an engine's stamp is ahead of the position the marks indicate, in whole FRAC units: what a hold of R61 has still to
spend. -/
def Reel.ahead (r : Reel) : Nat := (r.behind + 65535 - r.accLow) / 65536

/-- The position the marks indicate (R61): the stamp, less what it still has to hold. -/
def State.markAngle (s : State) (a : Eng) : Angle := angleAdd (s.angle a) (-(s.eng[a].reel.ahead : Int))

/-- A mark inside the search window (R58, R61, R681): d is the signed distance from the position the marks indicate to the boundary
it marks. A slip declared in ACQUIRE steps the stamp forward at this mark (R56). -/
def State.acceptWindow (s : State) (a : Eng) (m : MarkInfo) (d : Int) : State :=
  let r := s.eng[a].reel
  let step : Int := match r.slipFix with
    | .step k => 65536 * k
    | _ => 0
  let w := angleAdd (s.markAngle a) d / 65536
  let expect := wedgesAdd w (step / 65536)
  let s := s.noteWedge a w
  let s := s.bringTo a (d + step - r.ahead)
  let s := s.modReel a fun r => { r with lastWedge := expect, slipFix := .none }
  let s := ((s.measure a).latchSkew a).reseed a
  let good := decide (r.ahead = 0) && ((markIndex m).map (·.val) == some (expect % 720))
  let s := s.modReel a fun r => { r with acqMissed := 0, acqGood := if good then r.acqGood + 1 else 0 }
  let s := s.checkIndex a (markIndex m) (expect % 720)
  if s.eng[a].reel.state = .acquire ∧ 16 ≤ s.eng[a].reel.acqGood then
    (((s.modCmp a 6 Comparator.disarm).modCmp a 7 Comparator.disarm).servoGates a false).lock a
  else s

/-- The mark of another head than the timing head counts MARK_ALT_CNT; TIMING_HEAD shows the timing head (R265). -/
def State.noteTimingHead (s : State) (a : Eng) (m : MarkInfo) : State :=
  match s.timingHead a with
  | none => s
  | some h =>
    s.modSrv a fun v =>
      { v with timingHead := h.val, markAltCnt := if m.head = h then v.markAltCnt else inc 16 v.markAltCnt }

/-- A mark of an engine with loaded heads, by timeline state (R48, R681). -/
def State.mark (s : State) (a : Eng) (m : MarkInfo) : State :=
  let r := s.eng[a].reel
  let early := s.modReel a fun r => { r with earlyCnt := inc 16 r.earlyCnt }
  match r.state with
  | .stopped => s
  | .spindle => s
  | .locked | .flywheel =>
    let held := match r.slipFix with
      | .hold _ => true
      | .none | .step _ | .done => false
    if held || decide (65536 - r.markWin.toNat ≤ r.stamp.frac) then (s.noteTimingHead a m).acceptLocked a m else early
  | .acquire =>
    match r.acq with
    | .search => (s.noteTimingHead a m).acceptFirst a m
    | .window =>
      let win := 4 * r.markWin.toNat
      let x := s.markAngle a
      let f := x % 65536
      let taken := r.lastMark.isSome && r.lastWedge == x / 65536
      if 65536 - win ≤ f then (s.noteTimingHead a m).acceptWindow a m (65536 - (f : Int))
      else if taken then early
      else if f ≤ win then (s.noteTimingHead a m).acceptWindow a m (-(f : Int))
      else s

/-- SERVO_MARK_ACCEPT (R50): the demodulator reports an address mark of a loaded head. A mark that arrives before the window is
ignored and counted (R48); in STOPPED and SPINDLE none is accepted. -/
def execServoMarkAccept (a : Eng) (m : MarkInfo) (s : State) : Out :=
  .next (match s.globalHead a m.head.val with
    | none => s
    | some g => if s.enginePresent a && !s.head[g].map.depop && !s.head[g].srv.lost then s.mark a m else s)

/-- MARK_HOLD_EXPIRY (R51): the hold of R49 has been spent without a mark; the engine flywheels. -/
def execMarkHoldExpiry (a : Eng) (s : State) : Out :=
  .next (
    let r := s.eng[a].reel
    if s.enginePresent a ∧ (r.state = .locked ∨ r.state = .flywheel) ∧ r.hold = some 0 then
      let before := s.angle a
      let w := r.stamp.rev * 720 + r.stamp.wedge
      let full := reaches 32 r.flyCnt
      let s := s.forceWritesOff a (s.headsOf a) true false
      let s := s.modReel a fun r =>
        { r.setAngle ((w + 1) * 65536 + r.markWin.toNat) with
          state := .flywheel, hold := none, heldFor := 0, lastMark := none, flyCnt := inc 32 r.flyCnt, flyRun := inc 5 r.flyRun
          step := some (before, s.mtime) }
      s.saturated full 0x02 4 a.val (engBase a + 0x2C) (nw s.eng[a].reel.flyCnt)
    else s)

/-! ### Packets (0x0120 to 0x0123) -/

/-- The engine a level 4 packet names. -/
def Packet.eng (p : Packet) : Eng := finMod 4 (by decide) p.idx
/-- The head a level 3 packet names. -/
def Packet.hd (p : Packet) : Head := finMod 24 (by decide) p.idx

/-- reel.status. -/
def execReelStatus (p : Packet) (s : State) : Out :=
  .next (runPacket ⟨0x0120, [4], .read⟩ p s fun s => .report s (stReel s p.eng))

/-- reel.marker (R80): comparator 63 armed REV_AHEAD revolutions after the current one. -/
def opReelMarker (p : Packet) (s : State) : PktRes :=
  let a := p.eng
  let lo := clampWord [fIn 31 16 0 719, fAny 15 0] 0 (p.w 0)
  let ahead := clampWord [fIn 31 0 0 65535] 0 (p.w 1)
  let kind := clampWord [fAny 0 0] 0 (p.w 2)
  let t : Stamp := { rev := (s.eng[a].reel.stamp.rev + ahead.toNat) % 2 ^ 32, wedge := fld lo 31 16, frac := fld lo 15 0 }
  let s := s.modReel a fun r => { r with markerTrace := kind.getLsbD 0 }
  let s := s.modCmp a 63 fun c =>
    { c with armed := true, target := t, repeat_ := 0, loWritten := false, hiWritten := false, armedAt := some s.mtime }
  { state := s, clamp := clampBits [(0, p.w 0, lo), (1, p.w 1, ahead), (2, p.w 2, kind)], result := [stampLo t, stampHi t] }
/-- reel.marker. -/
def execReelMarker (p : Packet) (s : State) : Out := .next (runPacket ⟨0x0121, [4], .action⟩ p s (opReelMarker p))

/-- reel.config. -/
def opReelConfig (p : Packet) (s : State) : PktRes :=
  let w := clampWord [fIn 31 0 0x0100 0x2000] 0 (p.w 0)
  let t := clampWord [fIn 31 0 0x0004 0x0400] 0 (p.w 1)
  let s := s.modReel p.eng fun r => { r with markWin := w.setWidth 16, lateTol := t.setWidth 16 }
  { state := s, clamp := clampBits [(0, p.w 0, w), (1, p.w 1, t)], result := [w, t] }
/-- reel.config. -/
def execReelConfig (p : Packet) (s : State) : Out := .next (runPacket ⟨0x0122, [4], .config⟩ p s (opReelConfig p))

/-- reel.clear (R78): result word n is the value before clearing of the counter of bit n. -/
def opReelClear (p : Packet) (s : State) : PktRes :=
  let m := fld (p.w 0) 5 0
  let r := s.eng[p.eng].reel
  let vals := [r.lateCnt, r.flyCnt, r.earlyCnt, r.mismCnt, r.slipCnt, r.debtMax]
  let s := s.modReel p.eng fun r =>
    { r with
      lateCnt := clr m 0 r.lateCnt, flyCnt := clr m 1 r.flyCnt, earlyCnt := clr m 2 r.earlyCnt
      mismCnt := clr m 3 r.mismCnt, slipCnt := clr m 4 r.slipCnt, debtMax := clr m 5 r.debtMax }
  { state := s, clamp := clampBits [(0, p.w 0, nw m)]
    result := vals.zipIdx.map fun (v, i) => if m.testBit i then nw v else 0 }
/-- reel.clear. -/
def execReelClear (p : Packet) (s : State) : Out := .next (runPacket ⟨0x0123, [4], .action⟩ p s (opReelClear p))

end Sys2Proof.Machine
end

