-- ==== Sys2Proof/Machine/Stream.lean ====
section
/-! DEFINITION. Samples on their way from a slice's FIFO to its lane (R105 to R118, R156 to R160, R163, R176 to R180): pops, bit
instants, equalised bits, the sync decision, and a slice brought up to a gate edge. -/

namespace Sys2Proof.Machine
open Sys2Proof

/-! ### The codeword that streams into a lane -/

/-- The codeword that streams into a lane: in a slot, or in the input buffer (R166). -/
def Lane.current (x : Lane) : Option Slot :=
  match x.streaming with
  | some k => some x.slots[k]
  | none => x.inBuf

/-- A change of that codeword. -/
def Lane.modCurrent (x : Lane) (f : Slot → Slot) : Lane :=
  match x.streaming with
  | some k => { x with slots := vmod x.slots k f }
  | none => { x with inBuf := x.inBuf.map f }

/-- The codeword that streams into the lane of a head. -/
def State.codewordAt (s : State) (g : Head) : Option Slot := (s.laneOf g).bind fun l => s.lane[l].current

/-- A change of the codeword that streams into the lane of a head. -/
def State.modCodeword (s : State) (g : Head) (f : Slot → Slot) : State :=
  match s.laneOf g with
  | some l => s.modLane l fun x => x.modCurrent f
  | none => s

/-- The sync decision (R178, R179, R180): the best candidate, or a flywheel sync. -/
def State.decideSync (s : State) (l : LaneIx) : State :=
  match s.lane[l].current with
  | none => s
  | some c =>
    if c.synced then s
    else
      let (q, d) := bestCandidate (syncDistance c)
      if d ≤ 6 then s.modLane l fun x => x.modCurrent fun c => { c with synced := true, syncQ := q, syncDist := d, fly := false }
      else
        let n := s.lane[l].flysyncCnt
        let s := s.modLane l fun x =>
          { x.modCurrent fun c => { c with synced := true, syncQ := 0, syncDist := d, fly := true } with flysyncCnt := inc 32 n }
        s.saturated (reaches 32 n) 0x05 3 ((s.lane[l].bind.head.map (·.val)).getD 0) (0x60012C + l.val * 0x80) (nw (n + 1))

/-- The candidate at +64 has been evaluated: its last bit is decided (R176, R178). -/
def Slot.syncDue (c : Slot) : Bool := !c.synced && decide (240 ≤ c.dec.length)

/-- One equalised bit of the codeword that streams into a head's lane (R156, R159, R160, R163); a sync decision that is due is made
before it. -/
def State.laneBit (s : State) (g : Head) (l : LaneIx) : State :=
  let s := if (s.lane[l].current.map Slot.syncDue) = some true then s.decideSync l else s
  match s.lane[l].current with
  | none => s
  | some c =>
    let d := s.head[g].det
    let c' := c.nextBit d
    let track := fun (n : SliceIx) => s.slice[n].packet && s.slice[n].state == .track
    let active := c'.adaptActive d (track (sliceA g)) (track (sliceB g)) c
    let s := s.modLane l fun x =>
      { x.modCurrent fun _ => c' with eraseCnt := if erasedAt c.za c.zb c.us.length then satAdd 32 x.eraseCnt 1 else x.eraseCnt }
    s.modDet g fun d => { d with active := active }

/-- Equalised bits up to a count. -/
def State.laneBits (s : State) (g : Head) (l : LaneIx) (limit : Nat) : Nat → State
  | 0 => s
  | n + 1 =>
    match s.lane[l].current with
    | none => s
    | some c => if c.us.length < limit then (s.laneBit g l).laneBits g l limit n else s

/-- The bits a lane can equalise: four bit instants after each have been delivered (R156). -/
def State.laneReady (s : State) (g : Head) (c : Slot) : Nat := c.delivered s.slice[sliceA g].packet s.slice[sliceB g].packet - 4

/-! ### Pops and bit instants -/

/-- Raw codes of a word go to the capture armed on the head (R113, R209): of the pass of the sector that its job's codeword reads. -/
def State.captureWord (s : State) (n : SliceIx) (ix : Nat) (codes : List Byte) : State :=
  let g := sliceHead n
  match s.localHead g, (s.codewordAt g).bind (·.job) with
  | some (a, _), some j =>
    if s.slice[n].packet then
      s.modRec a fun r => { r with jobs := vmod r.jobs j fun x => x.map fun x =>
        if x.wait = .capturing then { x with cap := (codes.zipIdx.map fun (b, i) => (n.val, ix + i, b)).reverse ++ x.cap } else x }
    else s
  | _, _ => s

/-- Corrected samples go to the head's servo demodulator while its servo gate is on (R118). -/
def State.demodWord (s : State) (n : SliceIx) : State :=
  if s.head[sliceHead n].wr.servoGate then s.modSlice n fun x => { x with demod := (x.line.take 4).map (·.x) ++ x.demod } else s

/-- A pop of a slice's FIFO (R105, R108, R113, R118). -/
def State.popSlice (s : State) (n : SliceIx) : State :=
  let g := sliceHead n
  let x := s.slice[n]
  let (y, codes) := x.pop s.head[g].rd[sliceReader n]
  let s := (s.modSlice n fun _ => y).demodWord n
  let s := if codes.isEmpty then s else s.captureWord n x.lineEnd codes
  s.saturated (reaches 32 x.underrunCnt && codes.isEmpty) 0x04 3 g.val (0x700114 + n.val * 0x40) (nw y.underrunCnt)

/-- A word delivered before its pop is due (log 64): it is written where it has not been, the read side sees it, and one pop of the
schedule is skipped. -/
def State.pullWord (s : State) (n : SliceIx) : State :=
  let x := s.slice[n]
  let x := if x.fifo.isEmpty then x.writeWord n else x
  (s.modSlice n fun _ => { x with wrSync := (x.wrPtr, x.wrPtr), popAhead := x.popAhead + 1 }).popSlice n

/-- One bit instant of an open packet in ACQ or TRACK, and the lane's bits it makes ready (R114, R127 to R139). A zero-phase start or
a change to TRACK that is due is made before it. -/
def State.sliceBit (s : State) (n : SliceIx) : State :=
  let g := sliceHead n
  let r := s.head[g].rd[sliceReader n]
  let x := s.slice[n]
  let x := if x.zeroDue then x.zeroPhase else x
  let x := if x.trackDue r then x.toTrack else x
  let share := if s.slice[sliceA g].packet && s.slice[sliceB g].packet then 2 else 1
  let (y, f, b) := x.bitInstant n r s.head[g].det.band.tgt ((s.codewordAt g).getD {}) share s.head[g].freq
  let s := (s.modSlice n fun _ => y).modHead g fun h => { h with freq := f }
  let s := s.saturated (decide (x.flimCnt < 65535 ∧ y.flimCnt = 65535)) 0x04 3 g.val (0x700128 + n.val * 0x40) (rMiscCnt y)
  match s.laneOf g with
  | none => s
  | some l =>
    let s := s.modLane l fun z => z.modCurrent fun c => if sliceReader n = 0 then { c with za := b :: c.za } else { c with zb := b :: c.zb }
    s.laneBits g l (((s.lane[l].current).map (s.laneReady g)).getD 0) 64

/-- Bit instants of a slice before a position, as far as its samples have been delivered; with `pull`, its samples are delivered. -/
def State.bitsTo (s : State) (n : SliceIx) (limit : Int) (pull : Bool) : Nat → State
  | 0 => s
  | k + 1 =>
    let x := s.slice[n]
    if x.packet && (x.state == .acq || x.state == .track) && decide (x.pos < limit) then
      if x.hasBit then (s.sliceBit n).bitsTo n limit pull k
      else if pull then (s.pullWord n).bitsTo n limit pull k
      else s
    else s

/-- The skew of a slice (R103). -/
def State.skewOf (s : State) (n : SliceIx) : Int := s.nor.heads[sliceHead n].skew[sliceReader n]

/-- The position now on a slice's sample index (R103). -/
def State.nowPos (s : State) (n : SliceIx) : Int := samplePos (s.skewOf n) s.mtime

/-- A slice brought up to a gate edge (R115): every bit instant before it is delivered, or passes in COAST (R137). -/
def State.catchUp (s : State) (n : SliceIx) : State :=
  let x := s.slice[n]
  if x.packet && x.state == .coast then s.modSlice n fun x => x.coastTo s.head[sliceHead n].freq (s.nowPos n) 8192
  else s.bitsTo n (s.nowPos n) true 8192

/-! ### The slice's clock -/

/-- The write side writes the words whose samples are complete, with the event of OVERRUN_CNT (R104, R111). -/
def State.writeSide (s : State) (n : SliceIx) : State :=
  let x := s.slice[n]
  let y := x.writeDue n (samplesBy (s.skewOf n) s.mtime) 4
  (s.modSlice n fun _ => y).saturated (decide (x.overrunCnt < 65535 ∧ y.overrunCnt = 65535)) 0x04 3 (sliceHead n).val
    (0x700124 + n.val * 0x40) (rFltCnt y)

/-- The pop schedule (R105): a modulo-10 accumulator gains 7 on every clock, and a wrap pops a word that has not been delivered
ahead of it. -/
def State.popClock (s : State) (n : SliceIx) : State :=
  let x := s.slice[n]
  if 10 ≤ x.popAcc + 7 then
    let s := s.modSlice n fun x => { x with popAcc := x.popAcc - 3, popAhead := x.popAhead - 1 }
    if x.popAhead = 0 then s.popSlice n else s
  else s.modSlice n fun x => { x with popAcc := x.popAcc + 7 }

/-- One datapath clock of a slice whose stream runs (R104, R105, R130, R137): pointers cross, words are written and popped, and bit
instants follow. -/
def State.sliceClock (s : State) (n : SliceIx) : State :=
  if s.slice[n].state.streaming then
    let s := ((s.modSlice n Slice.cross).writeSide n).popClock n
    let x := s.slice[n]
    if !x.packet then s.modSlice n fun x => x.takeSeed (s.nowPos n)
    else if x.state == .coast then s.modSlice n fun x => x.coastTo s.head[sliceHead n].freq (s.nowPos n) 8
    else s.bitsTo n (s.nowPos n) false 16
  else s

end Sys2Proof.Machine
end

