-- ==== Sys2Proof/Machine/Slice.lean ====
section
/-! DEFINITION. The meanings of the sample slices' commands (spec/04_sample_slices.md): streams, stream faults, drops, the timing
loop's acquisition, band loads, and the four slice packets. -/

namespace Sys2Proof.Machine
open Sys2Proof

/-! ### Slots (R166 to R168) -/

/-- A codeword in DECODE is told to end with an outcome (R166, R168): at the end of its engine's current layer, or of the current beat
while it runs none. -/
def State.stopSlot (s : State) (l : LaneIx) (k : SlotIx) (o : CwOutcome) : State :=
  let c := s.lane[l].slots[k]
  let held := match c.engine with
    | some e => s.pool.engines[e].heldSince
    | none => s.mtime
  s.modSlot l k fun c =>
    { c with reclaim := some o, cutRow := c.rowsBegun s.mtime, cutAt := c.stopTime held s.mtime }

/-- One lane slot is reclaimed for the packet whose first samples the input buffer holds (R166): at once in WAIT. -/
def State.reclaimSlot (s : State) (l : LaneIx) (k : SlotIx) : State :=
  if s.lane[l].slots[k].state = .wait then (s.modSlot l k fun x => { x with reclaim := some .budgetCut }).endCodeword l k .budgetCut
  else s.stopSlot l k .budgetCut

/-- The slot a lane reclaims: the oldest in WAIT or DECODE. -/
def Lane.oldest (x : Lane) : Option SlotIx :=
  (fins 4).foldl (fun (b : Option SlotIx) (k : SlotIx) =>
    let y := x.slots[k]
    if (y.state == .wait || y.state == .decode) && y.reclaim.isNone then
      match b with
      | some j => if y.since < x.slots[j].since then some k else b
      | none => some k
    else b) none

/-- A codeword ends without a slot (R167): NO_SLOT; it waits for recovery. -/
def State.noSlot (s : State) (l : LaneIx) (c : Slot) : State :=
  (s.modLane l fun x => { x with cut := x.cut ++ [{ c with state := .done, outcome := some .noSlot }] }).countCodeword l .noSlot c

/-- A packet opening takes a slot of its lane (R166, R167). -/
def State.takeSlot (s : State) (g : Head) (l : LaneIx) (c : Slot) : State :=
  let x := s.lane[l]
  match (fins 4).find? fun (k : SlotIx) => x.slots[k].state == .free with
  | some k => s.modSlot l k fun _ => c
  | none =>
    let hold := s.modLane l fun x => { x with inBuf := some c }
    if (fins 4).any fun (k : SlotIx) => x.slots[k].reclaim.isSome then hold
    else match x.oldest with
      | some k => hold.reclaimSlot l k
      | none =>
        let s := s.noSlot l c
        (s.modSlice (sliceA g) Slice.drop).modSlice (sliceB g) Slice.drop

/-! ### Packets open (R116, R118, R123, R134, R136, R139) -/

/-- The other slice of a head. -/
def otherSlice (n : SliceIx) : SliceIx := if sliceReader n = 0 then sliceB (sliceHead n) else sliceA (sliceHead n)

/-- p of a packet that opens at a slice now (R134): the position of the edge on the slice's own sample index; reader B's is later by
RDB_OFS. -/
def State.gatePos (s : State) (n : SliceIx) : Int :=
  let r := s.head[sliceHead n].rd[sliceReader n]
  let pos := s.nowPos n
  pos + (if sliceReader n = 1 then sfld r.phofs 15 0 * ((s.slice[n].takeSeed pos).seed : Int) * 16 / 256 else 0)

/-- The packet bit that begins now at a head: bits the slices have delivered of the packet in flight. -/
def State.packetBit (s : State) (g : Head) : Nat :=
  match s.codewordAt g with
  | some c => if s.streaming g then max c.za.length c.zb.length else 0
  | none => 0

/-- A packet opens at a slice (R116, R118, R134, R136, R139): in ACQ, or in COAST while the servo gate is on; b is zero, g is G_INIT; f
starts from zero unless F_KEEP is 1 in the same band or the other slice's packet is open (log 64). -/
def State.openPacket (s : State) (n : SliceIx) (pos : Int) (base : Nat) : State :=
  let g := sliceHead n
  let r := s.head[g].rd[sliceReader n]
  let servo := s.head[g].wr.servoGate
  let keep := r.tl.getLsbD 0 || s.slice[otherSlice n].packet
  let s := s.modSlice n fun x =>
    { x.takeSeed pos with
      state := if servo then .coast else .acq, packet := true, wake := none, servoCoast := servo, bits := 0, base := base, bias := 0
      gain := fld r.agc 31 16, pos := pos, hist := [], zeroDone := false, trackFrom := none, used := 0 }
  s.modHead g fun h => { h with freq := if keep then h.freq else 0 }

/-- The bits of a packet that a slice which opened it late has not delivered. -/
def State.padPacket (s : State) (n : SliceIx) (base : Nat) : State :=
  let pad := List.replicate base ({ absent := true } : ReadBit)
  if base = 0 then s
  else s.modCodeword (sliceHead n) fun c => if sliceReader n = 0 then { c with za := pad } else { c with zb := pad }

/-- A packet resumes at a slice in TRACK (R116, R118, R137): a fragment begins at the next bit of the packet (R149). -/
def State.resume (s : State) (n : SliceIx) : State :=
  let g := sliceHead n
  let s := (s.catchUp n).modCodeword g fun c =>
    let k := max c.za.length c.zb.length
    { c with frags := if c.frags.contains k then c.frags else k :: c.frags }
  s.modSlice n Slice.toTrack

/-! ### Streams (R105 to R112) -/

/-- SLICE_ENABLE (R105): an OFF slice of a head that is not depopulated enters WAKE. -/
def execSliceEnable (n : SliceIx) (s : State) : Out :=
  .next (
    let g := sliceHead n
    if s.slice[n].state = .off ∧ s.headPresent g ∧ !s.head[g].map.depop then
      (s.modSlice n fun x => { x with state := .wake, srvDc := false }).modHpw g fun h => { h with slcOn := true }
    else s)

/-- Restarts of a slice that wait for its stream to start or fault again answer with SLC_STATUS (R144). -/
def State.sliceRestarted (s : State) (n : SliceIx) : State :=
  s.replyWaiting 0x0143 (fun p => p.idx == (sliceHead n).val && (p.w 0).getLsbD 0 == (n.val % 2 == 1)) 0
    (fun s _ => [rSlcStatus s.slice[n]]) fun p => clampBits [(0, p.w 0, clampWord [fAny 0 0] 0 (p.w 0))]

/-- The packet whose read gate came on in WAKE opens at the first streamed sample (R123): its bits before that sample are absent. -/
def State.openLate (s : State) (n : SliceIx) (w : WakeOpen) : State :=
  let g := sliceHead n
  let joins := s.slice[otherSlice n].packet
  let s := s.modSlice n fun x => { x with wakeLate := true, wakeLateCnt := inc 16 x.wakeLateCnt, wake := none }
  let s := s.openPacket n w.pos w.base
  let s := match s.laneOf g with
    | some l => if joins then s else s.takeSlot g l w.cw
    | none => s
  (s.padPacket n w.base).bitsTo n (s.slice[n].first * 2 ^ 32 : Nat) false 16384

/-- SLICE_STREAM_START (R105, R107, R123): the read side starts with the words it sees; a slice in FAULT restarts its stream so and
is IDLE at once (log 64). `epoch` names the stretch of signal the ADC converts from here on. -/
def execSliceStreamStart (n : SliceIx) (level epoch : Nat) (s : State) : Out :=
  .next (
    let x := s.slice[n]
    let start := fld s.head[sliceHead n].rd[sliceReader n].fifo 4 0
    if (x.state = .wake ∨ x.state = .fault) ∧ start ≤ level ∧ level ≤ 32 then
      let s := s.modSlice n fun x => x.startStream n (s.skewOf n) s.mtime epoch level
      let s := match x.wake with
        | some w => s.openLate n w
        | none => s
      s.sliceRestarted n
    else s)

/-- SLICE_UNDERRUN (R108): the FIFO is empty in the read side's view when a pop is due. -/
def execSliceUnderrun (n : SliceIx) (s : State) : Out :=
  .next (
    let x := s.slice[n]
    let g := sliceHead n
    if x.state.streaming then
      let s := s.modSlice n fun x =>
        let y := x.underrunWord s.head[g].rd[sliceReader n]
        { y with wrSync := (y.wrSync.1, y.rdPtr), popAhead := x.popAhead + 1 }
      (s.demodWord n).saturated (reaches 32 x.underrunCnt) 0x04 3 g.val (0x700114 + n.val * 0x40) (nw (x.underrunCnt + 1))
    else s)

/-- SLICE_LATE_WORD_DISCARD (R109): a word an underrun replaced arrives and is discarded. -/
def execSliceLateWordDiscard (n : SliceIx) (wseq : BitVec 2) (s : State) : Out :=
  .next (s.modSlice n fun x =>
    if x.missing.contains wseq then
      let y := if (x.fifo.head?.map (·.wseq)) = some wseq then x.takeWord else x
      { y with missing := x.missing.erase wseq }
    else x)

/-- The codeword of a lane whose packet ended in error (R110, R175): the other reader's packet, if open, carries it on (R112). -/
def State.streamError (s : State) (g : Head) : State :=
  if s.packetOpen g then s
  else match s.laneOf g with
    | none => s
    | some l =>
      let s := match s.lane[l].streaming with
        | some k => s.endCodeword l k .streamErr
        | none => match s.lane[l].inBuf with
          | some c => (s.modLane l fun x => { x with inBuf := none, cut := x.cut ++ [{ c with state := .done, outcome := some .streamErr }] }).countCodeword
              l .streamErr c
          | none => s
      s.packetSettled g

/-- The head of a slice whose readers have both failed is a failed head (R112, R428). -/
def State.readersFailed (s : State) (g : Head) : State :=
  if s.slice[sliceA g].state = .failed ∧ s.slice[sliceB g].state = .failed then s.headFail g else s

/-- SLICE_FIFO_TIMEOUT (R110, R112, R144): the packet ends in error, the slice is in FAULT; the third fault in a row with no packet
completed between makes it FAILED. A restarted slice may fault before its stream has started. -/
def execSliceFifoTimeout (n : SliceIx) (s : State) : Out :=
  .next (
    let x := s.slice[n]
    let g := sliceHead n
    if x.state.streaming || x.state == .wake then
      let run := x.faultRun + 1
      let s := s.modSlice n fun x =>
        { x.closed (if 3 ≤ run then .failed else .fault) with
          tmo := true, tmoCnt := inc 16 x.tmoCnt, faultRun := run, fifo := [], wrPtr := 0, rdPtr := 0, wrSync := (0, 0), rdSync := (0, 0) }
      let s := s.condSlice n
      let s := s.saturated (reaches 16 x.tmoCnt) 0x04 3 g.val (0x700124 + n.val * 0x40) (rFltCnt s.slice[n])
      let s := if x.packet then s.streamError g else s
      (s.sliceRestarted n).readersFailed g
    else s)

/-- SLICE_OVERRUN (R111): the write side finds the FIFO full and discards the next word; the read side finds the gap through WSEQ. -/
def execSliceOverrun (n : SliceIx) (s : State) : Out :=
  .next (
    let x := s.slice[n]
    if x.state.streaming then
      let s := s.modSlice n fun x => x.loseWord n
      s.saturated (reaches 16 x.overrunCnt) 0x04 3 (sliceHead n).val (0x700124 + n.val * 0x40) (rFltCnt s.slice[n])
    else s)

/-! ### Packets (R114 to R139) -/

/-- DROP_COMMAND (R120): one slice's open packet is dropped; the codeword is dropped once neither reader carries it. -/
def execDropCommand (n : SliceIx) (s : State) : Out :=
  .next (
    let g := sliceHead n
    if s.slice[n].packet then
      let s := s.modSlice n Slice.drop
      if s.streaming g then s
      else
        let s := match s.laneOf g with
          | some l => s.dropStream l
          | none => s
        s.packetSettled g
    else s)

/-- ZERO_PHASE_START (R135): the first sixteen values of a packet are in at a head's reader; p moves by their phase. -/
def execZeroPhaseStart (g : Head) (r : Fin 2) (s : State) : Out :=
  .next (
    let n := sliceOf g r
    if s.slice[n].zeroDue then s.modSlice n Slice.zeroPhase else s)

/-- SLICE_ACQ_TO_TRACK (R133): ACQ_BITS bits of the packet are in at a head's reader; TRACK begins. -/
def execSliceAcqToTrack (g : Head) (r : Fin 2) (s : State) : Out :=
  .next (
    let n := sliceOf g r
    if s.slice[n].trackDue s.head[g].rd[r] then s.modSlice n Slice.toTrack else s)

/-- A head is to serve a track (R140): another band, or one whose entry a packet has rewritten, is loaded once no packet is
open (R122). -/
def State.serveTrack (s : State) (g : Head) (track : Nat) : State :=
  let m := s.head[g].map
  if m.depop then s
  else if (s.bandOf g track).val ≠ m.band ∨ m.reloadDue then
    if s.packetOpen g then s.modMap g fun m => { m with bandDue := some track, regsDue := m.regsDue.filter fun p => p.1 == 0x50C } else s.loadBand g track
  else s.modMap g fun m => { m with track := track, bandDue := none }

/-- BAND_LOAD (R140): the actuator core loads the entry of the band a track lies in. -/
def execBandLoad (g : Head) (track : BitVec 22) (s : State) : Out :=
  .next (if s.headPresent g then s.serveTrack g track.toNat else s)

/-! ### Packets (0x0140 to 0x0143) -/

/-- The reader word 0 names. -/
def Packet.reader (p : Packet) : Fin 2 := if (p.w 0).getLsbD 0 then 1 else 0
/-- The slice a slice packet names. -/
def Packet.slice (p : Packet) : SliceIx := if (p.w 0).getLsbD 0 then sliceB p.hd else sliceA p.hd
/-- The band of bits 13:8 of word 0. -/
def Packet.band (p : Packet) : Fin 64 := finMod 64 (by decide) (fld (p.w 0) 13 8)

/-- A head's band entry in the NOR configuration area changed; a rewrite of the band loaded makes a band load due (R140,
R143). -/
def State.putBand (s : State) (g : Head) (b : Fin 64) (f : BandEntry → BandEntry) : State :=
  let e := f (s.bandEntry g b)
  let s := s.modNor fun n => { n with bands := aset n.bands (g, b) e }
  if s.head[g].map.band = b.val then s.modMap g fun m => { m with reloadDue := true } else s

/-- Parameter words from word n on, each clamped by its fields against the words stored before. -/
def clampWords (p : Packet) (n : Nat) (fields : List (List Field)) (old : List Word) : List Word :=
  fields.zipIdx.map fun (f, i) => clampWord f (old.getD i 0) (p.w (n + i))

/-- CLAMP bits of a run of parameter words from word n on. -/
def clampRun (p : Packet) (n : Nat) (stored : List Word) : List (Nat × Word × Word) :=
  stored.zipIdx.map fun (v, i) => (n + i, p.w (n + i), v)

/-- slice.config (R143). -/
def opSliceConfig (p : Packet) (s : State) : PktRes :=
  let g := p.hd
  let r := p.reader
  let e := s.bandEntry g p.band
  let new := clampWords p 1 (sliceFields r) (if r = 0 then e.sliceA else e.sliceB).words
  let s := s.putBand g p.band fun e =>
    if r = 0 then { e with sliceA := sliceOfWords new } else { e with sliceB := sliceOfWords new }
  { state := s, result := new.take 6
    clamp := clampBits ((0, p.w 0, clampWord [fAny 13 8, fAny 0 0] 0 (p.w 0)) :: clampRun p 1 new) }
/-- slice.config. -/
def execSliceConfig (p : Packet) (s : State) : Out := .next (runPacket ⟨0x0140, [3], .config⟩ p s (opSliceConfig p))

/-- slice.status. -/
def execSliceStatus (p : Packet) (s : State) : Out :=
  .next (runPacket ⟨0x0141, [3], .read⟩ p s fun s =>
    { state := s, clamp := clampBits [(0, p.w 0, clampWord [fAny 0 0] 0 (p.w 0))], result := stSlice s p.slice })

/-- slice.clear (R142). -/
def opSliceClear (p : Packet) (s : State) : PktRes :=
  let m := fld (p.w 1) 8 0
  let x := s.slice[p.slice]
  let vals := [x.underrunCnt, x.clipCnt, x.satCnt, x.dropCnt, x.tmoCnt, x.overrunCnt, x.flimCnt, x.wakeLateCnt]
  let s := s.modSlice p.slice fun x =>
    let keep := fun (b : Bool) => b && !m.testBit 8
    { x with
      underrunCnt := clr m 0 x.underrunCnt, clipCnt := clr m 1 x.clipCnt, satCnt := clr m 2 x.satCnt, dropCnt := clr m 3 x.dropCnt
      tmoCnt := clr m 4 x.tmoCnt, overrunCnt := clr m 5 x.overrunCnt, flimCnt := clr m 6 x.flimCnt
      wakeLateCnt := clr m 7 x.wakeLateCnt
      underrun := keep x.underrun, overrun := keep x.overrun, tmo := keep x.tmo, fLimit := keep x.fLimit
      wakeLate := keep x.wakeLate, seedLim := keep x.seedLim }
  { state := s, clamp := clampBits [(0, p.w 0, clampWord [fAny 0 0] 0 (p.w 0)), (1, p.w 1, nw m)]
    result := selected m (vals.map fun v => [nw v]) }
/-- slice.clear. -/
def execSliceClear (p : Packet) (s : State) : Out := .next (runPacket ⟨0x0142, [3], .action⟩ p s (opSliceClear p))

/-- slice.restart (R144). -/
def opSliceRestart (p : Packet) (s : State) : PktRes :=
  if s.head[p.hd].map.depop then .fail s 0x0202
  else if s.slice[p.slice].state = .failed then
    { state := s.modSlice p.slice fun x => { x with state := .wake, faultRun := 0 }, wait := true }
  else { state := s, clamp := clampBits [(0, p.w 0, clampWord [fAny 0 0] 0 (p.w 0))], result := [rSlcStatus s.slice[p.slice]] }
/-- slice.restart. -/
def execSliceRestart (p : Packet) (s : State) : Out := .next (runPacket ⟨0x0143, [3], .action⟩ p s (opSliceRestart p))

end Sys2Proof.Machine
end

