-- ==== Sys2Proof/Machine/Ladder.lean ====
section
/-! DEFINITION. Recovery jobs and the ladder (R199 to R226), reallocation (R217 to R221), the circular-wait guard (R222 to R225),
and the meanings of the pool's and the recovery's commands and packets (spec/06_decoder_pool_recovery.md). -/

namespace Sys2Proof.Machine
open Sys2Proof

/-! ### Jobs -/

/-- Change one job of an engine. -/
def State.modJob (s : State) (a : Eng) (j : JobIx) (f : RecJob → RecJob) : State :=
  s.modRec a fun r => { r with jobs := vmod r.jobs j fun x => x.map f }

/-- A try of the ladder is a read of the sector at its next pass: of steps 2, 4 and 5, or a capture's pass of steps 6 and 7 (R202,
R209). -/
def RecJob.reading (x : RecJob) : Bool :=
  (x.wait == .try_ && x.offs.isEmpty && (x.step == 2 || x.step == 4 || x.step == 5)) || x.wait == .capturing

/-- The open job of a sector (R199). -/
def State.jobAt (s : State) (a : Eng) (p : SectorAt) : Option JobIx :=
  (fins 16).find? fun (j : JobIx) => (s.eng[a].recv.jobs[j].map (·.at_)) == some p

/-- The eight sync offsets of step 1. -/
def syncOffsets : List Int := [-1, 1, -2, 2, -3, 3, -4, 4]

/-- The entry of a job into the ladder (R204): step and sync offsets to try; without a usable stream, step 2. -/
def ladderEntry (o : CwOutcome) (fly stream : Bool) : Nat × List Int :=
  if !stream then (2, [])
  else match o, fly with
    | .misalign, _ => (1, syncOffsets)
    | .crcFail, true => (1, syncOffsets)
    | .noConv, true => (1, syncOffsets)
    | .budgetCut, false => (1, [0])
    | .budgetCut, true => (1, 0 :: syncOffsets)
    | _, _ => (2, [])

/-- An outcome leaves a usable retained stream (R201). -/
def CwOutcome.usable (o : CwOutcome) : Bool := o != .noSlot && o != .streamErr

/-! ### The retained stream (R201, R205) -/

/-- Bits retained before and after a placed codeword. -/
def retainMargin : Nat := 8

/-- A list kept newest first cut to its items from number a on, n at most, oldest first. -/
def cutStream (l : List ReadBit) (a n : Nat) : List ReadBit := (l.reverse.drop a).take n

/-- The record of a failed codeword (R175, R201): outcome, sync record, both values of U and, where it is usable, the stream. -/
def RecJob.keep (x : RecJob) (c : Slot) : RecJob :=
  let o := c.outcome.getD .noConv
  let a := c.placed 0 - retainMargin
  let n := codewordBits + 2 * retainMargin
  let x := { x with outcome := o, fly := c.fly, syncQ := c.syncQ, syncDist := c.syncDist, u1 := c.u1, uEnd := c.uEnd }
  if o.usable then
    { x with
      stream := true, za := cutStream c.za a n, zb := cutStream c.zb a n
      frags := (c.frags.filter fun k => decide (a < k)).map fun k => k - a }
  else x

/-- The first bit in the retained stream of a codeword placed at a sync offset. -/
def RecJob.placedAt (n : Int) : Nat := ((retainMargin : Int) + n).toNat

/-- The stream holds every bit of the codeword at a sync offset (R205). -/
def RecJob.covers (x : RecJob) (n : Int) : Bool := decide (RecJob.placedAt n + codewordBits ≤ max x.za.length x.zb.length)

/-- The entry of a job into the ladder, without the offsets whose codeword the stream does not hold (R204, R205). -/
def RecJob.entry (x : RecJob) (o : CwOutcome) : Nat × List Int :=
  let p := ladderEntry o x.fly o.usable
  let offs := p.2.filter x.covers
  if p.1 = 1 ∧ offs.isEmpty then (2, []) else (p.1, offs)

/-- The equalised stream of a record, oldest first (R156, R160). -/
def RecJob.equalised (x : RecJob) (d : DetRegs) : List EqBit :=
  let za := x.za.reverse
  let zb := x.zb.reverse
  (List.range (max za.length zb.length)).map fun k => ⟨equalise d.active d.scale za zb k, lostAt za zb k, x.frags.contains k⟩

/-- The codeword that an offline decode takes at a sync offset (R199, R205): equalised, its first pass done. -/
def RecJob.codeword (x : RecJob) (d : DetRegs) (n : Int) : Slot :=
  let us := x.equalised d
  { us := us.reverse, det := d.band, chan := firstPass d.band us (RecJob.placedAt n)
    syncQ := (RecJob.placedAt n : Int) - (codewordAt : Int), synced := true, tag := x.tag, zgen := x.zgen, at_ := x.at_ }

/-- Tries of a step (R203). -/
def Recovery.tries (r : Recovery) (step : Nat) : Nat :=
  match step with
  | 2 => fld r.cfg 23 20
  | 3 => 4
  | 4 => fld r.fh 23 22
  | 5 => 4
  | 6 => 1
  | 7 => 1
  | _ => 0

/-- AVG_REVS. -/
def Recovery.avgRevs (r : Recovery) : Nat := fld r.cfg 19 16

/-- The recovery registers a job's step runs under (R227). -/
def RecJob.under (x : RecJob) (r : Recovery) : Recovery := { r with cfg := x.cfg, fh := x.fh }

/-- A step starts (R227). -/
def RecJob.enter (x : RecJob) (r : Recovery) (step : Nat) : RecJob := { x with step := step, try_ := 0, cfg := r.cfg, fh := r.fh }

/-- The current try of a job can be made: step 3 needs a stream; a heater bias beyond the contact margin less one step is skipped
(R203, R207). -/
def RecJob.possible (x : RecJob) (r : Recovery) (margin : Nat) : Bool :=
  let r := x.under r
  if x.step = 1 then !x.offs.isEmpty
  else if x.step = 3 then x.stream && decide (x.try_ < 4)
  else if x.step = 4 then
    !x.contact && decide (x.try_ < r.tries 4) && decide ((x.try_ + 1) * fld r.fh 31 24 + fld r.fh 31 24 ≤ margin)
  else decide (x.try_ < r.tries x.step)

/-- A job moved to its next possible try: within a step, then to the next step; step 8 is the end of the ladder (R203). -/
def RecJob.settle (x : RecJob) (r : Recovery) (margin : Nat) : Nat → RecJob
  | 0 => x
  | n + 1 =>
    if 7 < x.step || !x.offs.isEmpty || x.possible r margin then x
    else if x.step = 4 ∧ !x.contact ∧ x.try_ + 1 < (x.under r).tries 4 then RecJob.settle { x with try_ := x.try_ + 1 } r margin n
    else RecJob.settle (x.enter r (x.step + 1)) r margin n

/-- A try of a job has failed (R202, R203): the next sync offset, or the next try or step. -/
def RecJob.failTry (x : RecJob) (r : Recovery) (margin : Nat) : RecJob :=
  let y := { x with wait := .ready, cw := {} }
  match x.offs with
  | _ :: rest =>
    if rest.isEmpty then
      if x.step = 1 then RecJob.settle { y.enter r 2 with offs := [] } r margin 64
      else RecJob.settle { y with offs := [], try_ := x.try_ + 1 } r margin 64
    else { y with offs := rest }
  | [] => RecJob.settle { y with try_ := x.try_ + 1 } r margin 64

/-- The contact margin of a job's head. -/
def State.jobMargin (s : State) (a : Eng) (x : RecJob) : Nat :=
  match s.globalHead a x.at_.head.val with
  | some g => Config.contactMargin g
  | none => 0

/-- What a job's read set at its head is taken back after the read (R206). -/
def State.unbias (s : State) (a : Eng) (j : JobIx) : State :=
  match s.eng[a].recv.jobs[j] with
  | none => s
  | some x => (s.restoreHead a x).modJob a j fun x => { x with biased := false }

/-! ### Ends of a job -/

/-- The blocks a sector serves in a job's commands end with a status. -/
def State.failBlocks (s : State) (cmds : List (CtxIx × Nat × Bool)) (st : NvStatus) : State :=
  cmds.foldl (fun s (x, k, _) => s.modCtx x fun c => c.failBlock k st) s

/-- A job ends unrecovered (R213). -/
def State.unrecovered (s : State) (a : Eng) (j : JobIx) : State :=
  match s.eng[a].recv.jobs[j] with
  | none => s
  | some x =>
    let n := s.eng[a].recv.unrecCnt
    let s := s.failBlocks x.cmds (stMedia 0x81)
    let s := s.addDefect a 2 x.at_
    let s := s.modRec a fun r => { r with unrecCnt := inc 32 r.unrecCnt }
    let s := (s.condRec a).saturated (reaches 32 n) 0x06 4 a.val (engBase a + 0x5002C) (nw (n + 1))
    s.closeJob a j

/-- A sector recovered at step 4 or later is to be reallocated, or marked weak once no spare is left (R217, R221). -/
def State.queueRealloc (s : State) (a : Eng) (p : SectorAt) (zone : ZoneNo) (info : BitVec 32928) (suspect : Bool) : State :=
  s.modRec a fun r =>
    if r.reallocs.any fun y => y.orig == p then r
    else { r with reallocs := r.reallocs ++ [{ orig := p, dest := p, zone := zone, info := info, suspect := suspect }] }

/-- The zone of the commands of a job. -/
def State.jobZone (s : State) (x : RecJob) : ZoneNo :=
  ((x.cmds.findSome? fun c => (s.ctx c.1).bind fun q =>
    match q.blocks[c.2.1]? with
    | some b => match b.source with
      | .media z _ => some z
      | _ => q.zone
    | none => q.zone)).getD 0

/-- A job ends with success (R40, R202, R217): STEP_OK counts, what it holds is released, the sector goes to SRAM staging for every
command. -/
def State.recovered (s : State) (a : Eng) (j : JobIx) (info : BitVec 32928) : State :=
  match s.eng[a].recv.jobs[j] with
  | none => s
  | some x =>
    let s := s.modRec a fun r => { r with stepOk := match fin? 7 (x.step - 1) with
      | some i => vmod r.stepOk i (inc 32)
      | none => r.stepOk }
    let s := if 4 ≤ x.step then
        if s.eng[a].recv.spareFull then s.addDefect a 3 x.at_ else s.queueRealloc a x.at_ (s.jobZone x) info false
      else s
    x.cmds.foldl (fun s (c, k, _) => s.deliver c k info) (s.closeJob a j)

/-- Commands with Limited Retry leave a job whose step 3 has ended without success (R212); the job ends when none is left. -/
def State.limitRetry (s : State) (a : Eng) (j : JobIx) : State :=
  match s.eng[a].recv.jobs[j] with
  | none => s
  | some x =>
    let out := x.cmds.filter fun c => c.2.2
    if 4 ≤ x.step ∧ !out.isEmpty then
      let s := s.failBlocks out (stMedia 0x81)
      let s := s.modJob a j fun y => { y with cmds := y.cmds.filter fun c => !c.2.2 }
      if x.cmds.all fun c => c.2.2 then s.closeJob a j else s
    else s

/-- The scale pair of a read or decode of a job outside step 3 (R206): step 3's best in steps 4 and 5. -/
def RecJob.pairWord (x : RecJob) (set : Nat) : Word :=
  match x.best with
  | some (p, q, _) => if x.step = 4 ∨ x.step = 5 then mkw [bf 31 24 p, bf 23 16 q, bf 1 0 set] else homeScale set
  | none => homeScale set

/-- The scale pair of try n of step 3. -/
def scalePair (n : Nat) : Nat × Nat := ([(0xC0, 0x40), (0x40, 0xC0), (0xE0, 0x20), (0x20, 0xE0)].getD n (0x80, 0x80))

/-- The values the sequencer's own equaliser and detector take (R199, R203): the head's, or those of the sector's band where the head
has another one loaded; step 3's scale pair (log 66). -/
def State.jobDet (s : State) (a : Eng) (x : RecJob) : DetRegs :=
  match s.globalHead a x.at_.head.val with
  | none => {}
  | some g =>
    let d := s.head[g].det
    let b := s.bandOf g x.at_.track
    let set := fld d.scale 1 0
    let d := if s.head[g].map.band = b.val then d
      else { d with band := (s.bandEntry g b).det, active := (s.bandEntry g b).det.tapSet set }
    let (p, q) := scalePair x.try_
    { d with scale := if x.step = 3 ∧ x.offs.isEmpty then mkw [bf 31 24 p, bf 23 16 q, bf 1 0 set] else x.pairWord set }

/-- The codeword of a job's next offline decode (R199, R205): at its next sync offset, or at offset 0. -/
def State.prepare (s : State) (a : Eng) (j : JobIx) : State :=
  s.modJob a j fun x => { x with cw := x.codeword (s.jobDet a x) (x.offs.head?.getD 0) }

/-- A decode of the retained stream asked of a standard engine (R205); a capture's pass goes on meanwhile. -/
def State.askStandard (s : State) (a : Eng) (j : JobIx) : State :=
  ((s.prepare a j).modJob a j fun x => { x with wait := if x.step < 6 then .try_ else x.wait }).request (recReq a)
    { at_ := s.mtime, cls := 5, deep := false, for_ := .job j }

/-- What follows a failed try: limited retries, the end of the ladder, or the next try. The decodes of a capture's pass are no tries
of their step (R202). -/
def State.tryFailed (s : State) (a : Eng) (j : JobIx) : State :=
  match s.eng[a].recv.jobs[j] with
  | none => s
  | some x =>
    if 6 ≤ x.step ∧ !x.offs.isEmpty then
      let s := s.modJob a j fun x => { x with offs := x.offs.drop 1, cw := {} }
      if x.offs.length ≤ 1 then s else s.askStandard a j
    else
      let s := s.unbias a j
      let y := { x with biased := false }.failTry s.eng[a].recv (s.jobMargin a x)
      let s := s.modJob a j fun _ => y
      if 7 < y.step then s.unrecovered a j else s.limitRetry a j

/-- The sync offsets a job's step starts with again (R225, R226): those of step 1, or none. -/
def RecJob.stepStart (x : RecJob) : List Int := if x.step = 1 then (x.entry x.outcome).2 else []

/-- A job's resources are released and it waits at the start of its step until the timeline locks (R226); a copy goes on. -/
def State.stopJobs (s : State) (a : Eng) : State :=
  (fins 16).foldl (fun s (j : JobIx) =>
    match s.eng[a].recv.jobs[j] with
    | none => s
    | some x =>
      if x.wait = .copy then s
      else ((s.unbias a j).releaseJob a j).modJob a j fun x => { x with wait := .stopped, try_ := 0, cw := {}, offs := x.stepStart }) s

/-- The timeline enters STOPPED, its jobs with it (R57, R226). -/
def State.stopTimeline (s : State) (a : Eng) : State := (s.enterIdle a .stopped).stopJobs a

/-! ### Opening a job (R199, R200, R202, R214) -/

/-- ZGEN x is newer than y (WRAP). -/
def zgenNewer (x y : Word) : Bool := decide (x ≠ y ∧ (x - y).toNat < 2 ^ 31)

/-- A read of the ladder has failed (R202, R206, R214): a newer generation ends the job; an outcome that qualifies goes through step 1
on its own stream first. A capture's pass goes on meanwhile. -/
def State.ladderReadFailed (s : State) (a : Eng) (j : JobIx) (c : Slot) : State :=
  match s.eng[a].recv.jobs[j] with
  | none => s
  | some x =>
    let o := c.outcome.getD .noConv
    if o = .addrErr ∧ zgenNewer (infoZgen c.info) c.zgen then s.closeJob a j
    else if !x.reading && decide (x.step < 6) then s
    else
      let s := (s.unbias a j).modJob a j fun x => x.keep c
      let (step, offs) := (x.keep c).entry o
      if 6 ≤ x.step then
        if step = 1 ∧ x.offs.isEmpty then (s.modJob a j fun x => { x with offs := offs }).askStandard a j else s
      else if step = 1 then s.modJob a j fun x => { x with offs := offs, wait := .ready }
      else s.tryFailed a j

/-- The record of a failed codeword that recovery takes next from a slot: the slot's own, else one that holds no slot. -/
def State.failedRecord (s : State) (l : LaneIx) (k : SlotIx) : Option (Slot × Bool) :=
  let x := s.lane[l]
  if x.slots[k].state = .done ∧ x.slots[k].outcome ≠ some .converged then some (x.slots[k], true)
  else x.cut.head?.map fun c => (c, false)

/-- A job copies the retained stream out of a slot. -/
def State.copying (s : State) (a : Eng) (j : JobIx) (l : LaneIx) (k : SlotIx) : Bool :=
  match s.eng[a].recv.jobs[j] with
  | some x => x.inSlot && x.lane == l && x.slot == k
  | none => false

/-- The record leaves its slot or the list. -/
def State.takeRecord (s : State) (l : LaneIx) (k : SlotIx) (held : Bool) : State :=
  if held then s.freeSlot l k {} else s.modLane l fun x => { x with cut := x.cut.drop 1 }

/-- RECOVERY_JOB_OPEN (R199, R200, R202): a failed read of the ladder goes back to its job; a failure in a sector with an open job
joins it; else a job opens once one of JOBS_MAX and 40 units of staging are free, and copying begins. -/
def execRecoveryJobOpen (l : LaneIx) (k : SlotIx) (s : State) : Out :=
  .next (
    let a := s.laneEngine l
    match s.failedRecord l k with
    | none => s
    | some (c, held) =>
      if c.void then s.takeRecord l k held
      else match c.job with
      | some j => (s.takeRecord l k held).ladderReadFailed a j c
      | none =>
        let cmd := match c.ctx with
          | some x => [(x, c.block, ((s.ctx x).map (·.sqe.limitedRetry)).getD false)]
          | none => []
        if (s.jobAt a c.at_).any fun j => held && s.copying a j l k then s
        else
        let s : State := match c.ctx with
          | some x => s.modCtx x fun q => { q with ladder := true }
          | none => s
        match s.jobAt a c.at_ with
        | some j => (s.takeRecord l k held).modJob a j fun x => { x with cmds := x.cmds ++ cmd }
        | none =>
          let r := s.eng[a].recv
          match (fins 16).find? fun (j : JobIx) => r.jobs[j].isNone with
          | some j =>
            if r.open_ < fld r.cfg 9 5 ∧ s.q.staging + 40 ≤ stagingUnits then
              let o := c.outcome.getD .noConv
              let job : RecJob := RecJob.keep
                { at_ := c.at_, cmds := cmd, outcome := o, fly := c.fly, syncQ := c.syncQ, stream := false, lane := l, slot := k
                  tag := c.tag, zgen := c.zgen, cls := c.cls, step := 1, staging := 40
                  wait := if o.usable then .copy else if s.eng[a].reel.state = .stopped then .stopped else .ready
                  revOpen := s.eng[a].reel.stamp.rev } c
              let job := { job.enter r (job.entry o).1 with offs := (job.entry o).2, inSlot := held && o.usable }
              let s := s.modQ fun q => { q with staging := q.staging + 40 }
              let s := s.modRec a fun r =>
                { r with jobs := vset r.jobs j (some job), waiting := r.waiting.filter fun w => w != (l, k) }
              if job.inSlot then s else s.takeRecord l k held
            else s.modRec a fun r => { r with waiting := if r.waiting.contains (l, k) then r.waiting else r.waiting ++ [(l, k)] }
          | none => s.modRec a fun r => { r with waiting := if r.waiting.contains (l, k) then r.waiting else r.waiting ++ [(l, k)] })

/-- RETAINED_STREAM_COPY_DONE (R200): the slot that still holds the codeword becomes FREE and the ladder begins. -/
def execRetainedStreamCopyDone (a : Eng) (j : JobIx) (s : State) : Out :=
  .next (
    match s.eng[a].recv.jobs[j] with
    | none => s
    | some x =>
      if x.wait = .copy then
        let s := s.modJob a j fun y => { y with wait := if s.eng[a].reel.state = .stopped then .stopped else .ready, inSlot := false }
        if x.inSlot then s.freeSlot x.lane x.slot {} else s
      else s)

/-! ### Tries (R203 to R211) -/

/-- CAP_REC. -/
def Pool.capRec (p : Pool) : Nat := fld p.prio 15 7

/-- The linear angle of the reference engine's stamp. -/
def State.refAngle (s : State) : Angle := s.angle s.refEngine

/-- A guarded wait begins, or goes on with its timer (R41, R222, R223): only while the job holds a capture buffer or a deep decoder. -/
def State.guardWait (s : State) (a : Eng) (j : JobIx) (w : JobWait) : State :=
  s.modJob a j fun x =>
    { x with wait := w
             timer := if 0 < x.caps ∨ x.deepEng.isSome then
                 (if x.wait = w ∧ x.timer.isSome then x.timer else some (angleAdd (s.angle a) (1440 * 65536)))
               else none }

/-- A capture buffer asked for (R209, R211). -/
def State.takeCapture (s : State) (a : Eng) (j : JobIx) : State :=
  if s.q.captures < s.pool.capRec then
    let s := s.modQ fun q => { q with captures := q.captures + 1 }
    s.modJob a j fun x =>
      { x with caps := x.caps + 1, wait := .capturing, cap := [], timer := none, acquired := some (x.acquired.getD s.refAngle) }
  else s.guardWait a j .capture

/-- A deep decoder asked for (R209). -/
def State.askDeep (s : State) (a : Eng) (j : JobIx) : State :=
  (s.guardWait a j .deep).request (recReq a) { at_ := s.mtime, cls := 6, deep := true, for_ := .job j }

/-- The scale pair of a read of step 4 or 5 written to DET_SCALE (R206). -/
def State.biasHead (s : State) (a : Eng) (x : RecJob) : State :=
  match s.globalHead a x.at_.head.val with
  | none => s
  | some g => s.modHead g fun h => { h with det := { h.det with scale := x.pairWord (fld h.det.scale 1 0) } }

/-- The heater bias of a read of step 4, 25 µW units (R207). -/
def RecJob.heaterBias (x : RecJob) (r : Recovery) : Nat := if x.step = 4 then (x.try_ + 1) * fld (x.under r).fh 31 24 else 0

/-- The microactuator offset of a read of step 5, 1/256 track (R208). -/
def RecJob.trackOffset (x : RecJob) (r : Recovery) : Int :=
  let ot : Int := (fld (x.under r).fh 15 8 : Nat)
  if x.step = 5 then [ot, -ot, 2 * ot, -2 * ot].getD x.try_ 0 else 0

/-- The next try of a job's current step begins. -/
def State.startTry (s : State) (a : Eng) (j : JobIx) (x : RecJob) : State :=
  if !x.offs.isEmpty then s.askStandard a j
  else match x.step with
    | 2 => s.modJob a j fun x => { x with wait := .try_ }
    | 3 => s.askStandard a j
    | 4 => (s.biasHead a x).modJob a j fun x => { x with wait := .try_, biased := true }
    | 5 => (s.biasHead a x).modJob a j fun x => { x with wait := .try_, biased := true }
    | 6 => s.takeCapture a j
    | 7 =>
      if x.capsHeld.length < (x.under s.eng[a].recv).avgRevs then
        if x.deepEng.isNone ∧ !x.capsHeld.isEmpty then s.askDeep a j else s.takeCapture a j
      else if x.deepEng.isSome then s.modJob a j fun x => { x with wait := .decoding } else s.askDeep a j
    | _ => s

/-- LADDER_TRY (R203, R212, R226): at a try boundary the revolution limit and limited retries are checked, then the next try
starts. A job stopped with its timeline starts its step again once the timeline is LOCKED. -/
def execLadderTry (a : Eng) (j : JobIx) (s : State) : Out :=
  .next (
    match s.eng[a].recv.jobs[j] with
    | none => s
    | some x =>
      let go := x.wait == .ready || x.wait == .capture || (x.wait == .stopped && s.eng[a].reel.state == .locked)
      if go then
        let spent := (s.eng[a].reel.stamp.rev + 2 ^ 32 - x.revOpen) % 2 ^ 32
        let x := if x.wait = .stopped then x.enter s.eng[a].recv x.step else x
        if x.wait ≠ .capture ∧ fld x.cfg 31 24 ≤ spent then s.unrecovered a j
        else
          let y := x.settle s.eng[a].recv (s.jobMargin a x) 64
          if 7 < y.step then s.unrecovered a j
          else
            let s := (s.modJob a j fun _ => y).limitRetry a j
            if s.eng[a].recv.jobs[j].isSome then s.startTry a j y else s
      else s)

/-- CAPTURE_COMPLETE (R209, R211): a pass of raw codes is held; step 6 asks for a deep decoder, step 7 captures until AVG_REVS
passes are held. -/
def execCaptureComplete (a : Eng) (j : JobIx) (s : State) : Out :=
  .next (
    match s.eng[a].recv.jobs[j] with
    | none => s
    | some x =>
      if x.wait = .capturing then
        let s := s.modJob a j fun x => { x with capsHeld := x.capsHeld ++ [x.cap], cap := [], wait := .ready }
        if x.step = 6 then s.askDeep a j
        else if x.deepEng.isNone then s.askDeep a j
        else if (x.under s.eng[a].recv).avgRevs ≤ x.capsHeld.length + 1 then s.modJob a j fun x => { x with wait := .decoding }
        else s
      else s)

/-- The check of R153 on a descrambled information part: CONVERGED, CRC_FAIL or ADDR_ERR. -/
def checkOutcome (info : BitVec 32928) (tag zgen : Word) : CwOutcome :=
  if !crcChecks info then .crcFail else if !tagChecks info tag zgen then .addrErr else .converged

/-- The hard decisions a job's deep decode ends with, under DEEP_GLOB (R210, R211). -/
def RecJob.deepResult (x : RecJob) (r : Recovery) : List Bool := Config.deepBits (fld r.cfg 15 10) x.capsHeld

/-- DEEP_DECODE_DONE (R210, R211, R212): a deep decoder has ended its decode of a sector for a job, which is recovered where no check is
unsatisfied and the codeword checks. -/
def execDeepDecodeDone (e : DecIx) (a : Eng) (j : JobIx) (p : SectorAt) (s : State) : Out :=
  .next (
    match s.eng[a].recv.jobs[j] with
    | none => s
    | some x =>
      if x.wait = .decoding ∧ x.deepEng = some e ∧ x.at_ = p then
        let bits := x.deepResult (x.under s.eng[a].recv)
        let plain := scramble x.tag ((codewordOf bits).setWidth 32928)
        if unsatisfied bits.toArray = 0 ∧ checkOutcome plain x.tag x.zgen = .converged then s.recovered a j plain
        else if x.step = 6 then s.modJob a j fun y => { y.enter s.eng[a].recv 7 with wait := .ready, cw := {} }
        else s.unrecovered a j
      else s)

/-! ### Offline decodes -/

/-- An offline decode of a job has ended with an outcome (R202, R205, R206). -/
def State.offlineEnded (s : State) (e : DecIx) (a : Eng) (j : JobIx) (o : CwOutcome) (info : BitVec 32928) : State :=
  let s := s.releaseEngine e
  match s.eng[a].recv.jobs[j] with
  | none => s
  | some x =>
    if o = .converged then s.recovered a j info
    else
      let s := if x.step = 3 ∧ x.offs = [] then
          s.modJob a j fun y =>
            let (p, q) := scalePair x.try_
            { y with best := match y.best with
              | some (p', q', u) => if x.cw.uEnd < u then some (p, q, x.cw.uEnd) else some (p', q', u)
              | none => some (p, q, x.cw.uEnd) }
        else s
      s.tryFailed a j

/-! ### The guard (R222 to R225) -/

/-- A job waits for a unit of a kind: false a capture buffer, true a deep decoder. -/
def RecJob.waitsFor (x : RecJob) : Option Bool :=
  match x.wait with
  | .capture => some false
  | .deep => some true
  | _ => none

/-- Job (a, j) is younger than (b, k): its oldest held resource was acquired later; on a tie the higher engine, then the higher
job. -/
def State.younger (s : State) (a : Eng) (j : JobIx) (b : Eng) (k : JobIx) : Bool :=
  match s.eng[a].recv.jobs[j], s.eng[b].recv.jobs[k] with
  | some x, some y =>
    let d := angleDiff (x.acquired.getD 0) (y.acquired.getD 0)
    decide (0 < d ∨ (d = 0 ∧ (b < a ∨ (a = b ∧ k < j))))
  | _, _ => false

/-- The youngest job that holds a unit of a kind (R224). -/
def State.youngestHolder (s : State) (deep : Bool) : Option (Eng × JobIx) :=
  (fins 4).foldl (fun (acc : Option (Eng × JobIx)) (a : Eng) =>
    (fins 16).foldl (fun (acc : Option (Eng × JobIx)) (j : JobIx) =>
      match s.eng[a].recv.jobs[j] with
      | none => acc
      | some x =>
        if (if deep then x.deepEng.isSome else decide (0 < x.caps)) then
          match acc with
          | none => some (a, j)
          | some (b, k) => if s.younger a j b k then some (a, j) else acc
        else acc) acc) none

/-- W's request is the next decision for the deep decoder of the victim (R188, R194, R225); a decision already made for it stands. -/
def State.reserveDeep (s : State) (e : DecIx) (a : Eng) (j : JobIx) : State :=
  match s.pool.reqs[recReq a].pending.find? fun q => q.deep && q.for_ == .job j with
  | none => s
  | some q =>
    if s.pool.engines[e].next.isSome then s
    else
      (s.award true (recReq a) q).modPool fun p => { p with engines := vmod p.engines e fun x =>
        { x with next := some (recReq a, q), ownPrio := s.effLevel (recReq a) q } }

/-- A job releases every resource it holds and starts its step again (R225, R576). -/
def State.requeueStep (s : State) (a : Eng) (j : JobIx) : State :=
  (s.releaseJob a j).modJob a j fun x => { x.enter s.eng[a].recv x.step with wait := .ready, cw := {}, offs := [] }

/-- GUARD_TIMER_EXPIRY (R224, R225): the younger of the waiting job and the youngest holder of what it waits for is the victim; it
releases what it holds and starts its step again. -/
def execGuardTimerExpiry (a : Eng) (j : JobIx) (s : State) : Out :=
  .next (
    match s.eng[a].recv.jobs[j] with
    | none => s
    | some w =>
      match w.waitsFor, w.timer with
      | some deep, some t =>
        if reached (s.angle a) t then
          let h := s.youngestHolder deep
          let (va, vj) := match h with
            | some (b, k) => if s.younger a j b k ∨ (b = a ∧ k = j) then (a, j) else (b, k)
            | none => (a, j)
          let holder := h.getD (a, j)
          let vic := s.eng[va].recv.jobs[vj]
          let s := match vic.bind (·.deepEng) with
            | some e => if (va, vj) ≠ (a, j) ∧ deep then s.reserveDeep e a j else s
            | none => s
          let s := s.requeueStep va vj
          let s := if (va, vj) ≠ (a, j) ∧ !deep then s.takeCapture a j else s
          let step := (vic.map (·.step)).getD 0
          let full := reaches 32 s.pool.guardCnt
          let s := s.modPool fun p =>
            { p with guardCnt := inc 32 p.guardCnt, guardVict := mkw [bf 31 30 va.val, bf 29 26 vj.val, bf 25 23 step] }
          let s := s.condition 0x06 5 0 0x601010 s.pool.guardVict
            (stPool s ++ [mkw [bf 31 30 a.val, bf 29 26 j.val, bf 25 23 w.step, bf 15 14 holder.1.val, bf 13 10 holder.2.val]])
          s.saturated full 0x06 5 0 0x60100C (nw s.pool.guardCnt)
        else s
      | _, _ => s)

/-! ### Engines of the pool -/

/-- DECODER_REQUEST (R186, R190): a lane asks for a slot in WAIT, a sequencer for a job that needs an engine. -/
def execDecoderRequest (r : ReqIx) (q : DecoderAsk) (s : State) : Out :=
  .next (
    match q.for_ with
    | .slot k => match reqLane r with
      | some l =>
        if s.lane[l].slots[k].state = .wait ∧ !q.deep ∧ s.lane[l].bind.head.isSome then
          s.request r { at_ := s.mtime, cls := q.cls.val, raised := q.raised.val, deep := false, for_ := .slot k }
        else s
      | none => s
    | .job j =>
      if 24 ≤ r.val ∧ s.enginePresent (reqEng r) then
        match s.eng[reqEng r].recv.jobs[j] with
        | none => s
        | some x =>
          if q.deep then
            if x.wait = .deep then s.request r { at_ := s.mtime, cls := 6, raised := q.raised.val, deep := true, for_ := .job j } else s
          else if (x.wait = .try_ ∨ 6 ≤ x.step) ∧ (!x.offs.isEmpty ∨ x.step = 3) ∧ x.cw.engine.isNone ∧ x.cw.synced then
            s.request r { at_ := s.mtime, cls := 5, raised := q.raised.val, deep := false, for_ := .job j }
          else s
      else s)

/-- DECODER_ARBITRATION (R188, R189, R193, R194): at clock 48 of an engine's final beat its next owner is decided. -/
def execDecoderArbitration (e : DecIx) (s : State) : Out :=
  .next (
    let x := s.pool.engines[e]
    if x.state = .held ∧ x.next.isSome then
      s.modPool fun p => { p with engines := vmod p.engines e fun x => { x with state := .finalBeat } }
    else if x.state = .held then
      match s.decide_ (deepEngine e) with
      | (s, some (r, q, lvl)) => s.modPool fun p => { p with engines := vmod p.engines e fun x =>
          { x with state := .finalBeat, next := some (r, q), ownPrio := lvl } }
      | (s, none) => s.modPool fun p => { p with engines := vmod p.engines e fun x => { x with state := .finalBeat } }
    else s)

/-- The codeword of a slot whose engine failed waits again (R197), with its first pass as it was; one told to end ends now. -/
def State.returnSlot (s : State) (l : LaneIx) (k : SlotIx) : State :=
  let c := s.lane[l].slots[k]
  let s := s.modSlot l k fun y =>
    { y with
      state := .wait, engine := none, glob := 0, loc := 0, checking := false
      chan := if 1 < y.glob then firstPass y.det y.us.reverse (y.placed 0) else y.chan }
  match c.reclaim with
  | some o => s.endCodeword l k o
  | none => s

/-- An engine of the pool fails (R197): it leaves the pool; its request returns to pending with its own MTIME, its slot to WAIT. -/
def State.failDecoder (s : State) (e : DecIx) : State :=
  let x := s.pool.engines[e]
  if x.state = .failed then s
  else
    let s := s.modPool fun p => { p with engines := vmod p.engines e fun x =>
      { x with
        state := .failed, job := none, next := none, stopAt := none, parked := false, glob := 0
        busy := if x.state = .idle then x.busy else x.busy + (s.mtime - x.heldSince) } }
    let s := s.condition 0x06 5 0 (0x601100 + e.val * 0x10) (rEngStatus s.pool.engines[e]) (stPool s)
    let back := fun (s : State) (r : ReqIx) (q : PoolReq) =>
      s.modPool fun p => { p with reqs := vmod p.reqs r fun y =>
        { y with pending := y.pending.filter (fun z => z.at_ ≤ q.at_) ++ [q] ++ y.pending.filter fun z => q.at_ < z.at_ } }
    let s := match x.next with
      | some (r, q) => back s r q
      | none => s
    let s := match x.job with
    | none => s
    | some q =>
      let r : ReqIx := finMod 28 (by decide) x.owner
      let s := back s r q
      match q.for_ with
      | .slot k => match reqLane r with
        | some l => s.returnSlot l k
        | none => s
      | .job j =>
        if q.deep then (s.modJob (reqEng r) j fun y => { y with deepEng := none }).guardWait (reqEng r) j .deep
        else s.prepare (reqEng r) j
    s.servePool

/-- DECODER_ENGINE_FAIL (R197). -/
def execDecoderEngineFail (e : DecIx) (s : State) : Out := .next (s.failDecoder e)

/-! ### Reallocation (R217 to R221) -/

/-- Heads of an engine that can write: neither depopulated nor write-disabled. -/
def State.canWrite (s : State) (a : Eng) (h : LHead) : Bool :=
  match s.globalHead a h.val with
  | some g => !s.head[g].map.depop && !s.head[g].wr.wrDis
  | none => false

/-- Free spare sectors of a band. -/
def Recovery.spareFree (r : Recovery) (h : LHead) (n : Fin 8) : Nat := r.spareSize[h][n] - r.spareNext[h][n]

/-- The region of a track of an engine. -/
def State.regionOf (s : State) (a : Eng) (track : Nat) : Option (Fin 8) :=
  (fins 8).find? fun (n : Fin 8) => decide (s.media.regions[a][n].firstTrk ≤ track ∧ track ≤ s.media.regions[a][n].lastTrk)

/-- Rank of a region by distance from another: nearer first, inner side (the higher number) first on ties (R219). -/
def regionRank (from_ n : Fin 8) : Nat :=
  let d := if from_ ≤ n then n.val - from_.val else from_.val - n.val
  2 * d + (if from_ ≤ n then 0 else 1)

/-- The spare band of a reallocation (R219). -/
def State.spareBand (s : State) (a : Eng) (h : LHead) (from_ : Fin 8) : Option (LHead × Fin 8) :=
  let r := s.eng[a].recv
  let own := (fins 8).foldl (fun (acc : Option (Fin 8)) (n : Fin 8) =>
    if r.spareFree h n = 0 then acc
    else match acc with
      | none => some n
      | some m => if regionRank from_ n < regionRank from_ m then some n else acc) none
  match s.canWrite a h, own with
  | true, some n => some (h, n)
  | _, _ =>
    (fins 12).foldl (fun (acc : Option (LHead × Fin 8)) (k : LHead) =>
      if k = h || !s.canWrite a k then acc
      else (fins 8).foldl (fun (acc : Option (LHead × Fin 8)) (n : Fin 8) =>
        if r.spareFree k n = 0 then acc
        else match acc with
          | none => some (k, n)
          | some (k', m) =>
            if r.spareFree k' m < r.spareFree k n ∨
                (r.spareFree k' m = r.spareFree k n ∧ regionRank from_ n < regionRank from_ m) then some (k, n) else acc) acc) none

/-- The sector of a spare band's n-th good slot, from a track on (R414): the band lies before the region's last guard tracks
(R401). -/
def State.spareWalk (s : State) (a : Eng) (h : LHead) : Nat → Nat → Nat → Option SectorAt
  | 0, _, _ => none
  | fuel + 1, track, n =>
    let good := s.goodSlots a h track
    if n < good.length then (good[n]?).map fun k => { head := h, track := track, sector := k }
    else s.spareWalk a h fuel (track + 1) (n - good.length)

/-- See `spareWalk`. -/
def State.spareSector (s : State) (a : Eng) (h : LHead) (r : Fin 8) (n : Nat) : Option SectorAt :=
  let g := s.media.regions[a][r]
  s.spareWalk a h g.spb (g.lastTrk + 1 - g.guard_ - g.spb) n

/-- SPARE_WARN and SPARE_FULL with their events (R221). -/
def State.spareState (s : State) (a : Eng) : State :=
  let r := s.eng[a].recv
  let warn := decide (9 * r.spareTotal ≤ 10 * r.spareUsed)
  let full := decide (r.spareTotal ≤ r.spareUsed)
  let s' := s.modRec a fun r => { r with spareWarn := r.spareWarn || warn, spareFull := full }
  let s' := if warn && !r.spareWarn then s'.condRec a else s'
  if full && !r.spareFull then s'.condRec a else s'

/-- A codeword written to a spare sector, under the write values of that sector's band (R217, R233). -/
def State.emitSpare (s : State) (a : Eng) (p : SectorAt) (c : BitVec 36864) : State :=
  let e : BandEntry := match s.globalHead a p.head.val with
    | some g => s.bandEntry g (s.bandOf g p.track)
    | none => {}
  s.modOut fun o => { o with written :=
    { eng := a, at_ := p, bits := channelWord c, edges := writeEdges e.wr.pre0 e.wr.pre1 c, period := s.bitPeriod a e.sliceA.bpw.toNat, starts := [] } ::
      o.written }

/-- REALLOCATE (R217, R219, R250): the oldest reallocation of an engine not yet written goes to the next sector of its spare band
with that sector's own ADDR_TAG; a remap entry is made, PENDING. With no spare left the sector is marked weak. -/
def execReallocate (a : Eng) (s : State) : Out :=
  .next (
    match s.eng[a].recv.reallocs.find? fun x => !x.placed with
    | none => s
    | some x =>
      let place := (s.regionOf a x.orig.track).bind fun from_ => s.spareBand a x.orig.head from_
      match place with
      | none => (s.modRec a fun r => { r with reallocs := r.reallocs.erase x }).addDefect a 3 x.orig
      | some (h, n) =>
        match s.spareSector a h n s.eng[a].recv.spareNext[h][n] with
        | none => (s.modRec a fun r => { r with reallocs := r.reallocs.erase x }).addDefect a 3 x.orig
        | some dest =>
          let d := s.zoneDesc x.zone
          let info := makeInfo (infoUser x.info) (infoPi x.info) (addrTag dest) (infoZgen x.info)
          let s := s.emitSpare a dest (ldpcEncode (scramble (addrTag dest) info))
          let cnt := s.eng[a].recv.reallocCnt
          let s := s.modRec a fun r =>
            { r with
              reallocs := r.reallocs.map fun y => if y = x then { y with dest := dest, placed := true } else y
              spareNext := vmod r.spareNext h fun v => vmod v n fun k => k + 1
              spareUsed := r.spareUsed + 1
              reallocCnt := if x.suspect then r.reallocCnt else inc 32 r.reallocCnt }
          let s := if x.suspect then
              match s.globalHead a x.orig.head.val with
              | some g =>
                let m := s.head[g].wr.wrelocCnt
                (s.modWr g fun w => { w with wrelocCnt := inc 32 w.wrelocCnt }).saturated (reaches 32 m) 0x07 4 a.val
                  (engBase a + 0x60108 + x.orig.head.val * 0x10) (nw (m + 1))
              | none => s
            else s.saturated (reaches 32 cnt) 0x06 4 a.val (engBase a + 0x50030) (nw (cnt + 1))
          let put := fun (v : Vector (List Remap) 4) =>
            vmod v a fun l => l ++ [{ orig := x.orig, spare := dest, active := false, zone := x.zone, zgen := d.zgen }]
          let s := (s.modMedia fun m => { m with remaps := put m.remaps }).modNor fun m => { m with remaps := put m.remaps }
          s.spareState a)

/-- REMAP_ACTIVATE (R220): the spare write of the n-th placed reallocation is durable; the remap takes effect and the original
sector is a grown defect. -/
def execRemapActivate (a : Eng) (n : Nat) (s : State) : Out :=
  .next (
    match (s.eng[a].recv.reallocs.filter (·.placed))[n]? with
    | none => s
    | some x =>
      let on := fun (v : Vector (List Remap) 4) =>
        vmod v a fun l => l.map fun m => if m.orig = x.orig ∧ m.spare = x.dest then { m with active := true } else m
      let s := s.modRec a fun r => { r with reallocs := r.reallocs.erase x }
      let s := (s.modMedia fun m => { m with remaps := on m.remaps }).modNor fun m => { m with remaps := on m.remaps }
      let s := s.setZone x.zone fun d => { d with remapN := d.remapN + 1, suspN := if x.suspect then d.suspN - 1 else d.suspN }
      s.addDefect a 1 x.orig)

/-! ### Packets (0x0160 to 0x0167) -/

/-- pool.status. -/
def execPoolStatus (p : Packet) (s : State) : Out :=
  .next (runPacket ⟨0x0160, [5], .read⟩ p s fun s => .report s (stPool s))

/-- POOL_CFG after clamping and the ordering of R196. -/
def poolCfgWord (old sent : Word) : Word :=
  let w := clampWord [fIn 31 24 4 255, fIn 23 16 4 255, fIn 15 8 4 255, fZero 7 0 4 255] old sent
  let t1 := max (fld w 23 16) (fld w 15 8)
  let t0 := max (fld w 31 24) t1
  mkw [bf 31 24 t0, bf 23 16 t1, bf 15 0 (fld w 15 0)]

/-- PRIO_CFG after clamping. -/
def prioCfgWord (old sent : Word) : Word :=
  clampWord [fAny 31 30, fAny 29 28, fAny 27 26, fAny 25 24, fAny 23 22, fAny 21 20, fAny 19 18, fAny 17 16, fIn 15 7 8 448] old sent

/-- pool.config (R196, R227). -/
def opPoolConfig (p : Packet) (s : State) : PktRes :=
  let c := poolCfgWord s.pool.cfg (p.w 0)
  let q := prioCfgWord s.pool.prio (p.w 1)
  { state := s.modPool fun x => { x with cfg := c, prio := q }
    clamp := clampBits [(0, p.w 0, c), (1, p.w 1, q)], result := [c, q] }
/-- pool.config. -/
def execPoolConfig (p : Packet) (s : State) : Out := .next (runPacket ⟨0x0161, [5], .config⟩ p s (opPoolConfig p))

/-- pool.engine. -/
def execPoolEngine (p : Packet) (s : State) : Out :=
  .next (runPacket ⟨0x0162, [5], .read⟩ p s fun s =>
    let w := clampWord [fIn 31 0 0 39] 0 (p.w 0)
    let x := s.pool.engines[finMod 40 (by decide) w.toNat]
    { state := s, clamp := clampBits [(0, p.w 0, w)], result := [rEngStatus x, nw x.cw, rEngBusy x] })

/-- pool.requester. -/
def execPoolRequester (p : Packet) (s : State) : Out :=
  .next (runPacket ⟨0x0163, [5], .read⟩ p s fun s =>
    let w := clampWord [fIn 31 0 0 27] 0 (p.w 0)
    let r : ReqIx := finMod 28 (by decide) w.toNat
    let x := s.pool.reqs[r]
    { state := s, clamp := clampBits [(0, p.w 0, w)], result := [rReqStatus s r, nw x.grantCnt, nw x.starveCnt, nw x.waitMax] })

/-- pool.clear. -/
def opPoolClear (p : Packet) (s : State) : PktRes :=
  let m := fld (p.w 0) 5 0
  let we := clampWord [fIn 31 0 0 39] 0 (p.w 1)
  let wr := clampWord [fIn 31 0 0 27] 0 (p.w 2)
  let e : DecIx := finMod 40 (by decide) we.toNat
  let r : ReqIx := finMod 28 (by decide) wr.toNat
  let x := s.pool.engines[e]
  let y := s.pool.reqs[r]
  let vals := [nw s.pool.guardCnt, nw x.cw, rEngBusy x, nw y.grantCnt, nw y.starveCnt, nw y.waitMax]
  let s := s.modPool fun p =>
    { p with
      guardCnt := clr m 0 p.guardCnt
      engines := vmod p.engines e fun x => { x with cw := clr m 1 x.cw, busy := clr m 2 x.busy }
      reqs := vmod p.reqs r fun y =>
        { y with grantCnt := clr m 3 y.grantCnt, starveCnt := clr m 4 y.starveCnt, waitMax := clr m 5 y.waitMax } }
  { state := s, clamp := clampBits [(0, p.w 0, nw m), (1, p.w 1, we), (2, p.w 2, wr)]
    result := selected m (vals.map fun v => [v]) }
/-- pool.clear. -/
def execPoolClear (p : Packet) (s : State) : Out := .next (runPacket ⟨0x0164, [5], .action⟩ p s (opPoolClear p))

/-- rec.config (R227). -/
def opRecConfig (p : Packet) (s : State) : PktRes :=
  let r := s.eng[p.eng].recv
  let c := clampWord [fIn 31 24 8 255, fIn 23 20 1 4, fIn 19 16 2 8, fIn 15 10 8 32, fIn 9 5 1 16] r.cfg (p.w 0)
  let f := clampWord [fIn 31 24 1 40, fIn 23 22 1 3, fIn 15 8 4 32] r.fh (p.w 1)
  { state := s.modRec p.eng fun x => { x with cfg := c, fh := f }
    clamp := clampBits [(0, p.w 0, c), (1, p.w 1, f)], result := [c, f] }
/-- rec.config. -/
def execRecConfig (p : Packet) (s : State) : Out := .next (runPacket ⟨0x0165, [4], .config⟩ p s (opRecConfig p))

/-- rec.status. -/
def execRecStatus (p : Packet) (s : State) : Out :=
  .next (runPacket ⟨0x0166, [4], .read⟩ p s fun s => .report s (stRec s p.eng))

/-- rec.clear. -/
def opRecClear (p : Packet) (s : State) : PktRes :=
  let m := fld (p.w 0) 9 0
  let r := s.eng[p.eng].recv
  let vals := r.stepOk.toList ++ [r.unrecCnt, r.reallocCnt, r.revsCnt]
  let s := s.modRec p.eng fun r =>
    { r with
      stepOk := Vector.ofFn fun (i : Fin 7) => clr m i.val r.stepOk[i]
      unrecCnt := clr m 7 r.unrecCnt, reallocCnt := clr m 8 r.reallocCnt, revsCnt := clr m 9 r.revsCnt }
  { state := s, clamp := clampBits [(0, p.w 0, nw m)], result := selected m (vals.map fun v => [nw v]) }
/-- rec.clear. -/
def execRecClear (p : Packet) (s : State) : Out := .next (runPacket ⟨0x0167, [4], .action⟩ p s (opRecClear p))

end Sys2Proof.Machine
end

