-- ==== Sys2Proof/Machine/Lane.lean ====
section
/-! DEFINITION. The meanings of the detector lanes' commands (spec/05_detection_sector_format.md): sync, the first pass,
iterations, the check of a codeword, staging, and the five detection packets. -/

namespace Sys2Proof.Machine
open Sys2Proof

/-! ### Sync (R176 to R180) -/

/-- SYNC_DECISION (R178, R179, R180): of the codeword that streams from a head, once the candidate at +64 has been evaluated. -/
def execSyncDecision (g : Head) (l : LaneIx) (k : SlotIx) (s : State) : Out :=
  .next (if s.laneOf g = some l ∧ s.lane[l].streaming = some k ∧ s.lane[l].slots[k].syncDue then s.decideSync l else s)

/-! ### Decoding (R163, R164, R169 to R175) -/

/-- FIRST_PASS_DONE (R163, R166, R186): the first-pass LLRs of the placed codeword; the slot enters WAIT and asks for an engine. -/
def execFirstPassDone (l : LaneIx) (k : SlotIx) (s : State) : Out :=
  .next (
    let c := s.lane[l].slots[k]
    if c.state = .stream ∧ c.ended then
      (s.modSlot l k fun c =>
        { c with
          state := .wait, since := s.mtime, ended := false, passed := true
          chan := firstPass c.det c.us.reverse (c.placed 0) }).request (laneReq l)
        { at_ := s.mtime, cls := c.cls, deep := false, for_ := .slot k }
    else s)

/-- A codeword of the lane waits for the iteration detector: the oldest of them (R164). -/
def Lane.passDue (x : Lane) : Option SlotIx :=
  (fins 4).foldl (fun (b : Option SlotIx) (k : SlotIx) =>
    let y := x.slots[k]
    if y.state == .decode && !y.passed && y.reclaim.isNone then
      match b with
      | some j => if y.since < x.slots[j].since then some k else b
      | none => some k
    else b) none

/-- A codeword after a pass of the iteration detector (R162, R164, R170): the engine's extrinsic values are its a priori input, its output
the exchange of the next global iteration, whose layers begin now. -/
def Slot.nextExchange (c : Slot) (t : MTime) : Slot :=
  { c.exchange (iterationPass c.det c.us.reverse (c.placed 0) c.extrinsic) with passed := true, layerFrom := t }

/-- ITERATION_DETECTOR_PASS_DONE (R164): the older codeword of the lane goes first. -/
def execIterationDetectorPassDone (l : LaneIx) (k : SlotIx) (s : State) : Out :=
  .next (if s.lane[l].passDue = some k then s.modSlot l k fun c => c.nextExchange s.mtime else s)

/-- The end of a local iteration with U unsatisfied checks (R171 to R175), under DET_ITER and a limit of global iterations: the
codeword's record and the outcome that ends it, if one does; of two that do, the one that stands first in R175's table. -/
def iterationEnd (iter : Word) (gmax : Nat) (c : Slot) (u : Nat) : Slot × Option CwOutcome :=
  let first := decide (c.glob = 1 ∧ c.loc = 0)
  let c' := { c with loc := c.loc + 1, u1 := if first then u else c.u1, uEnd := u, layer := 0, layerFrom := c.layerFrom + 1152 }
  let sw := fld iter 23 12
  let mis := fld iter 11 0
  let last := decide (fld iter 27 24 ≤ c'.loc)
  if u = 0 then ({ c' with checking := true }, none)
  else if first && decide (0 < mis ∧ mis ≤ u) then (c', some .misalign)
  else if last && (decide (2 ≤ c.glob ∧ 0 < sw ∧ sw < u) || decide (gmax ≤ c.glob)) then (c', some .noConv)
  else if c.reclaim.isSome then (c', c.reclaim)
  else if last then ({ c' with glob := c.glob + 1, loc := 0, passed := false }, none)
  else (c', none)

/-- What an engine of the pool decodes: a lane's slot, or a job of an engine. -/
def State.decoding (s : State) (e : DecIx) : Option ((LaneIx × SlotIx) ⊕ (Eng × JobIx)) :=
  let x := s.pool.engines[e]
  if x.state = .held ∨ x.state = .finalBeat then
    match x.job with
    | none => none
    | some q => match q.for_ with
      | .slot k => (fin? 24 x.owner).map fun l => .inl (l, k)
      | .job j => if q.deep then none else some (.inr (reqEng (finMod 28 (by decide) x.owner), j))
  else none

/-- The same, where it is the slot or the job of its owner that a command names. -/
def State.decodingOf (s : State) (e : DecIx) (q : ReqFor) : Option ((LaneIx × SlotIx) ⊕ (Eng × JobIx)) :=
  (s.decoding e).filter fun x => match x with
    | .inl p => q == .slot p.2
    | .inr p => q == .job p.2

/-- GLOB of an engine. -/
def State.showGlob (s : State) (e : DecIx) (n : Nat) : State :=
  s.modPool fun p => { p with engines := vmod p.engines e fun x => { x with glob := n } }

/-- A codeword in DECODE at the end of a local iteration (R171 to R175). -/
def State.slotIteration (s : State) (e : DecIx) (l : LaneIx) (k : SlotIx) (c : Slot) : State :=
  let iter := c.det.iter
  let (c', o) := iterationEnd iter (if c.globMax = 0 then fld iter 31 28 else c.globMax) c c.unsat
  let s := (s.modSlot l k fun _ => c').showGlob e c'.glob
  match o with
  | some o => s.endCodeword l k o
  | none => s

/-- A codeword told to end does so (R166, R168): its current layer is finished; one that has converged in it is checked first; where the
layer is the last of a local iteration, the rules of that end hold as well. While its engine runs no layer the beat ends it. -/
def State.endCut (s : State) (e : DecIx) (l : LaneIx) (k : SlotIx) : State :=
  let c := s.lane[l].slots[k]
  let c' := c.layersTo c.cutRow
  if c.cutRow = 0 then s.endCodeword l k (c.reclaim.getD .budgetCut)
  else if c.cutRow = 41 then s.slotIteration e l k c'
  else if c'.unsat = 0 then s.modSlot l k fun _ => { c' with checking := true }
  else (s.modSlot l k fun _ => c').endCodeword l k (c.reclaim.getD .budgetCut)

/-- LOCAL_ITERATION_END (R169 to R174): the rest of the 41 layers, then U. A codeword told to end does so in its layer. A job's own
iteration detector makes its exchange ready (R199). -/
def execLocalIterationEnd (e : DecIx) (q : ReqFor) (s : State) : Out :=
  .next (
    match s.decodingOf e q with
    | none => s
    | some (.inl (l, k)) =>
      let c := s.lane[l].slots[k]
      if c.state = .decode ∧ c.passed ∧ !c.checking then
        if c.reclaim.isSome then s.endCut e l k else s.slotIteration e l k (c.layersTo 41)
      else s
    | some (.inr (a, j)) =>
      match s.eng[a].recv.jobs[j] with
      | none => s
      | some x =>
        if x.cw.checking then s
        else
          let c := x.cw.layersTo 41
          let (c, o) := iterationEnd c.det.iter (fld c.det.iter 31 28) c c.unsat
          let c := if c.passed then c else c.nextExchange (s.mtime + 2304)
          let s := (s.modJob a j fun x => { x with cw := c }).showGlob e c.glob
          match o with
          | some o => s.offlineEnded e a j o 0
          | none => s)

/-- What waits for the end of an engine's layer or beat (R166, R168, R187, R210): a codeword told to end, an engine its owner let go. -/
def State.engineClock (s : State) (e : DecIx) : State :=
  let x := s.pool.engines[e]
  if x.stopAt.any fun t => decide (t ≤ s.mtime) then s.releaseEngine e
  else match s.decoding e with
    | some (.inl (l, k)) =>
      let c := s.lane[l].slots[k]
      if c.state == .decode && c.reclaim.isSome && !c.checking && decide (c.cutAt ≤ s.mtime) then s.endCut e l k else s
    | _ => s

/-- CODEWORD_CHECK_DONE (R152, R153, R166, R168, R171): the lane removes the sequence of the ADDR_TAG it expects from the information part
as decoded and checks it. -/
def execCodewordCheckDone (e : DecIx) (q : ReqFor) (s : State) : Out :=
  .next (
    match s.decodingOf e q with
    | none => s
    | some (.inl (l, k)) =>
      let c := s.lane[l].slots[k]
      if c.state = .decode ∧ c.checking then
        let plain := scramble c.tag (c.decoded.setWidth 32928)
        let o := checkOutcome plain c.tag c.zgen
        let o := match c.reclaim with
          | some .dropped => .dropped
          | some r => if o = .converged then o else r
          | none => o
        (s.modSlot l k fun c => { c with info := plain }).endCodeword l k o
      else s
    | some (.inr (a, j)) =>
      match s.eng[a].recv.jobs[j] with
      | none => s
      | some x =>
        if x.cw.checking then
          let plain := scramble x.tag (x.cw.decoded.setWidth 32928)
          s.offlineEnded e a j (checkOutcome plain x.tag x.zgen) plain
        else s)

/-- STAGING_ACCEPT (R30, R40, R202): SRAM staging takes a converged sector and the slot becomes FREE; a read of the ladder ends its job
with success, whose own staging is released first. Another sector waits while DRAM media staging is full. -/
def execStagingAccept (l : LaneIx) (k : SlotIx) (s : State) : Out :=
  .next (
    let c := s.lane[l].slots[k]
    if c.state = .done ∧ c.outcome = some .converged ∧ (s.q.staging < stagingUnits ∨ c.job.isSome ∨ c.void) then
      let s := s.freeSlot l k {}
      if c.void then s
      else match c.job with
      | some j => s.recovered (s.laneEngine l) j c.info
      | none =>
        if c.discard then
          match c.ctx with
          | some x => s.modCtx x fun q => { q with blocks := q.blocks.zipIdx.map fun (b, i) =>
              if i = c.block then { b with here := true, sent := true } else b }
          | none => s
        else match c.ctx with
          | some x => s.deliver x c.block c.info
          | none => s
    else s)

/-! ### Packets (0x0150 to 0x0154) -/

/-- det.config (R184). -/
def opDetConfig (p : Packet) (s : State) : PktRes :=
  if s.head[p.hd].map.depop then .fail s 0x0202
  else
    let d := (s.bandEntry p.hd p.band).det
    let new := clampWords p 1 detFields [d.iter, d.tgt, d.adapt]
    let s := s.putBand p.hd p.band fun e =>
      { e with det := { e.det with iter := new.getD 0 0, tgt := new.getD 1 0, adapt := new.getD 2 0 } }
    { state := s, result := new, clamp := clampBits ((0, p.w 0, clampWord [fAny 13 8] 0 (p.w 0)) :: clampRun p 1 new) }
/-- det.config. -/
def execDetConfig (p : Packet) (s : State) : Out := .next (runPacket ⟨0x0150, [3], .config⟩ p s (opDetConfig p))

/-- Tap n of the eighteen a det.taps packet carries. -/
def tapOf (w : List Word) (n : Nat) : BitVec 12 := BitVec.ofNat 12 (if n % 2 = 0 then fld (w.getD (n / 2) 0) 11 0 else fld (w.getD (n / 2) 0) 27 16)

/-- A tap word as stored: A_ONLY keeps reader B's taps at zero, B_ONLY reader A's (R158). -/
def tapWord (set : Nat) (n : Nat) (w : Word) : Word :=
  let keep := fun (t : Nat) => !((set == 1 && decide (9 ≤ t)) || (set == 2 && decide (t < 9)))
  mkw [if keep (2 * n) then bf 11 0 (fld w 11 0) else 0, if keep (2 * n + 1) then bf 27 16 (fld w 27 16) else 0]

/-- det.taps (R184). -/
def opDetTaps (p : Packet) (s : State) : PktRes :=
  if s.head[p.hd].map.depop then .fail s 0x0202
  else
    let w0 := clampWord [fAny 13 8, fIn 1 0 0 2] 0 (p.w 0)
    let set := fld w0 1 0
    let new := (List.range 9).map fun n => tapWord set n (p.w (n + 1))
    let t : TapSet :=
      { wa := Vector.ofFn fun (i : Fin 9) => tapOf new i.val, wb := Vector.ofFn fun (i : Fin 9) => tapOf new (9 + i.val) }
    let s := s.putBand p.hd p.band fun e =>
      { e with det := { e.det with taps := vmod e.det.taps (finMod 3 (by decide) set) fun _ => t } }
    { state := s, result := new.take 6, clamp := clampBits ((0, p.w 0, w0) :: clampRun p 1 new) }
/-- det.taps. -/
def execDetTaps (p : Packet) (s : State) : Out := .next (runPacket ⟨0x0151, [3], .config⟩ p s (opDetTaps p))

/-- det.np (R184). -/
def opDetNp (p : Packet) (s : State) : PktRes :=
  if s.head[p.hd].map.depop then .fail s 0x0202
  else
    let w0 := clampWord [fAny 13 8, fIn 4 0 0 26] 0 (p.w 0)
    let e0 := fld w0 4 0
    let new := (List.range 12).map fun n => p.w (n + 1)
    let put := fun (v : Vector Word 32) (odd : Nat) =>
      Vector.ofFn fun (i : Fin 32) => if e0 ≤ i.val ∧ i.val < e0 + 6 then new.getD (2 * (i.val - e0) + odd) 0 else v[i]
    let s := s.putBand p.hd p.band fun e =>
      { e with det := { e.det with npPred := put e.det.npPred 0, npNoise := put e.det.npNoise 1 } }
    { state := s, result := new.take 6, clamp := clampBits [(0, p.w 0, w0)] }
/-- det.np. -/
def execDetNp (p : Packet) (s : State) : Out := .next (runPacket ⟨0x0152, [3], .config⟩ p s (opDetNp p))

/-- det.status. -/
def execDetStatus (p : Packet) (s : State) : Out :=
  .next (runPacket ⟨0x0153, [3], .read⟩ p s fun s => .report s (stDet s p.hd))

/-- A lane with the counters of a mask cleared. -/
def Lane.clear (x : Lane) (m : Nat) : Lane :=
  { x with
    cw := clr m 0 x.cw, conv := Vector.ofFn fun (i : Fin 6) => clr m (i.val + 1) x.conv[i]
    flysyncCnt := clr m 7 x.flysyncCnt, crcFailCnt := clr m 8 x.crcFailCnt, noconvCnt := clr m 8 x.noconvCnt
    misalCnt := clr m 9 x.misalCnt, addrErrCnt := clr m 9 x.addrErrCnt, cutCnt := clr m 10 x.cutCnt
    noslotCnt := clr m 10 x.noslotCnt, eraseCnt := clr m 11 x.eraseCnt }

/-- det.clear. -/
def opDetClear (p : Packet) (s : State) : PktRes :=
  let m := fld (p.w 0) 11 0
  let x := s.headLane p.hd
  let vals := [lohi x.cw] ++ x.conv.toList.map (fun v => [nw v]) ++ [[nw x.flysyncCnt]] ++ (rFail x).map (fun v => [v]) ++ [[nw x.eraseCnt]]
  let s := match s.laneOf p.hd with
    | some l => s.modLane l fun x => x.clear m
    | none => s
  { state := s, clamp := clampBits [(0, p.w 0, nw m)], result := selected m vals }
/-- det.clear. -/
def execDetClear (p : Packet) (s : State) : Out := .next (runPacket ⟨0x0154, [3], .action⟩ p s (opDetClear p))

end Sys2Proof.Machine
end

