-- ==== Sys2Proof/Machine/Frames.lean ====
section
/-! DEFINITION. What the arm links carry (R84 to R93): head blocks, set-point frames launched, configuration frames sent,
auxiliary slots granted; and the writer slots (R235, R237, R241, R252 to R256). -/

namespace Sys2Proof.Machine
open Sys2Proof

/-! ### Writer slots (R252 to R256) -/

/-- SKEW of an engine against the reference engine, by the two stamps (R63). -/
def State.toRef (s : State) (a : Eng) (x : Angle) : Angle := angleAdd x (-s.eng[a].reel.skew)
/-- A linear angle of the reference engine's stamp on an engine's own stamp. -/
def State.ofRef (s : State) (a : Eng) (x : Angle) : Angle := angleAdd x s.eng[a].reel.skew

/-- Requests whose pre-bias angle has been reached without a grant move to the head's next pass (R253). -/
def State.postponeRuns (s : State) : State :=
  let now := s.angle s.refEngine
  s.modWsl fun w =>
    { w with pending := w.pending.map fun p =>
        if s.head[p.1].wr.slot.isNone && reached now p.2 && decide (p.2 % angleModulus ≠ now % angleModulus)
        then (p.1, angleAdd p.2 revUnits) else p }

/-- The pending request granted next: the earliest pre-bias angle, ties to the lower head (R253); a head that holds a slot waits
for its own (R241). -/
def State.nextRun (s : State) : Option (Head × Angle) :=
  s.wsl.pending.foldl (fun (acc : Option (Head × Angle)) p =>
    if s.head[p.1].wr.slot.isSome then acc
    else match acc with
      | none => some p
      | some q =>
        if angleDiff p.2 q.2 < 0 ∨ (angleDiff p.2 q.2 = 0 ∧ p.1 < q.1) then some p else acc) none

/-- A grant counts in its revolution of the reference engine. -/
def WriterSlots.count (w : WriterSlots) (rev : Nat) : WriterSlots :=
  if rev = w.grantRev then { w with grants := w.grants + 1 }
  else { w with grants := 1, grantRev := rev, grantsBefore := if rev = (w.grantRev + 1) % 2 ^ 32 then w.grants else 0 }

/-- The writer grants of the revolution before this one (R609). -/
def WriterSlots.lastRev (w : WriterSlots) (rev : Nat) : Nat :=
  if rev = w.grantRev then w.grantsBefore else if rev = (w.grantRev + 1) % 2 ^ 32 then w.grants else 0

/-- Slots granted while fewer than WR_MAX are held (R252, R253, R256). -/
def State.grantRuns (s : State) : Nat → State
  | 0 => s
  | n + 1 =>
    if s.wsl.max ≤ s.wsl.used then s
    else match s.nextRun, (fins 12).find? fun (k : Fin 12) => s.wsl.held[k].isNone with
      | some (g, x), some k =>
        let s := { s with
          wsl := { s.wsl.count s.eng[s.refEngine].reel.stamp.rev with held := vset s.wsl.held k (some g), pending := s.wsl.pending.erase (g, x) } }
        let s := s.modWr g fun w => { w with slot := some k, run := some { sectors := [], preBias := s.ofRef (s.engineOf g) x } }
        s.grantRuns n
      | _, _ => s

/-- Requests moved on or granted, as far as slots are free. -/
def State.grantSlots (s : State) : State := s.postponeRuns.grantRuns 12

/-- A head's slot is released (R254) and the next requests are granted. -/
def State.releaseSlot (s : State) (g : Head) : State :=
  if s.head[g].wr.slot.isSome then
    let s := s.modWsl fun w => { w with held := w.held.map fun x => if x = some g then none else x }
    (s.modWr g fun w => { w with slot := none }).grantSlots
  else s

/-! ### Head blocks (R84, R235, R237, R241) -/

/-- ASSIST_WR (R235) for a mean wedge period of n / k clocks and the table of a band. -/
def assistWr (tbl : Vector Nat 5) (n k : Nat) : Nat :=
  let num := 250000000 * k
  let (num, den) := if num < 4800 * n ∨ n = 0 then (4800, 1) else if 9600 * n < num then (9600, 1) else (num, n)
  let i := min ((num - 4800 * den) / (1200 * den)) 3
  let lo := vget tbl i 0
  let hi := vget tbl (i + 1) 0
  (roundDiv ((lo * 1200 * den : Nat) + ((num - (4800 + 1200 * i) * den : Nat) : Int) * ((hi : Int) - lo)) (1200 * den)).toNat

/-- The assist table of a band. -/
def WriteBand.table (w : WriteBand) : Vector Nat 5 :=
  #v[fld w.asst0 27 16, fld w.asst0 11 0, fld w.asst1 27 16, fld w.asst1 11 0, fld w.asst2 27 16]
/-- HTR_PRE. -/
def WriteBand.htrPre (w : WriteBand) : Nat := fld w.htr 27 16
/-- ASST_IDLE. -/
def WriteBand.asstIdle (w : WriteBand) : Nat := fld w.htr 11 0

/-- ASSIST_WR of a head now. -/
def State.assistWr (s : State) (g : Head) : Nat :=
  let (n, k) := s.wedgeClocks (s.engineOf g)
  Sys2Proof.Machine.assistWr s.head[g].wr.band.table n k

/-- A loop output in units of full scale 4 096. -/
def outUnits (x : Int) : BitVec 12 := BitVec.ofNat 12 (clampInt 0 4095 (roundDiv x (2 ^ 18))).toNat
/-- Units of full scale 4 096 as a loop output. -/
def unitsOut (n : Nat) : Int := (n : Int) * 2 ^ 18

/-- A loop drives its output by a sample-by-sample law. -/
def LMode.driven : LMode → Bool
  | .off => false
  | .open_ => false
  | _ => true

/-- A reader of a head is biased: its slice is on. -/
def Slice.on (x : Slice) : Bool := x.state != .off && x.state != .failed

/-- A head's block (R84, R237, R239, R241). -/
def State.headBlock (s : State) (g : Head) : HeadBlock :=
  if s.head[g].map.depop then {}
  else
    let w := s.head[g].wr
    let ra := s.slice[sliceA g].on
    let rb := s.slice[sliceB g].on
    let h := s.lpe.slots[htrSlot g]
    let t := s.lpe.slots[asstSlot g]
    { mode := if w.writeReady then 2 else if ra || rb then 1 else 0
      rdaEn := ra, rdbEn := rb
      heater := if w.writeReady && !h.lmode.driven then BitVec.ofNat 12 w.band.htrPre else outUnits h.out
      assist :=
        if w.writeReady then (if t.lmode.driven then outUnits t.out else BitVec.ofNat 12 (s.assistWr g))
        else BitVec.ofNat 12 w.band.asstIdle
      writeI := BitVec.ofNat 8 (fld w.band.cfg 31 24)
      overshoot := BitVec.ofNat 8 (fld w.band.cfg 23 16) }

/-- MODE of a head decided at a launch at angle x (R237, R241): 0b10 from the latest launch at or before the pre-bias angle,
for as long as the run lasts; after it only where the head's next run has its pre-bias angle before this launch, which then
takes over the slot. -/
def State.decideMode (s : State) (g : Head) (x : Angle) : State :=
  let w := s.head[g].wr
  let start := fun (s : State) =>
    let w := s.head[g].wr
    if w.writeReady then s
    else
      (s.modWr g fun w => { w.cool with writeReady := true, modeAcked := false }).modLoop (htrSlot g) fun l =>
        if l.en then { l with lmode := .open_, blendK := 0, openVal := unitsOut w.band.htrPre, out := unitsOut w.band.htrPre } else l
  match w.run with
  | some r => if w.slot.isSome && decide (angleDiff r.preBias x < 65536) then start s else s
  | none =>
    if w.writeReady then
      let a := s.engineOf g
      match s.wsl.pending.find? fun p => p.1 == g && w.slot.isSome && reached x (s.ofRef a p.2) with
      | some p =>
        let s := s.modWsl fun w => { w with pending := w.pending.erase p }
        s.modWr g fun w => { w with run := some { sectors := [], preBias := s.ofRef a p.2 } }
      | none =>
        let s := s.modWr g fun w => { w.cool with writeReady := false, modeAcked := false }
        s.modLoop (asstSlot g) fun l =>
          if l.en then { l with lmode := .off, out := unitsOut w.band.asstIdle, integ := 0, deriv := 0, blendK := 0 } else l
    else s

/-! ### Auxiliary slots (R92) -/

/-- Auxiliary slots granted in order of request, two per wedge at most. -/
def ArmLink.grantAux (l : ArmLink) : Nat → ArmLink
  | 0 => l
  | n + 1 =>
    if 2 ≤ l.auxGrants then l
    else match l.auxQueue, (fins 2).find? fun (i : Fin 2) => l.aux[i].isNone with
      | r :: rest, some i =>
        ArmLink.grantAux { l with aux := vset l.aux i (some r), auxQueue := rest, auxGrants := l.auxGrants + 1 } n
      | _, _ => l

/-! ### Symbols (R82, R84, R85, R92, R93) -/

/-- The 8 bytes of a head block (R84). -/
def HeadBlock.bytes (b : HeadBlock) : List Nat :=
  [b.mode.toNat * 64 + b.rdaEn.toNat * 32 + b.rdbEn.toNat * 16] ++ leBytes 2 b.heater.toNat ++ leBytes 2 b.assist.toNat ++
    [b.writeI.toNat, b.overshoot.toNat, 0]

/-- The 4 bytes of an auxiliary slot (R92); an empty slot has VALID 0. -/
def auxBytes : Option AuxSlot → List Nat
  | none => [0, 0, 0, 0]
  | some x => [0x80 + x.head.toNat * 16, x.addr.toNat] ++ leBytes 2 x.value.toNat

/-- The bytes of a frame between K27.7 and its CRC, from TYPE on (R84, R93). -/
def FrameBody.bytes (seq : Byte) : FrameBody → List Nat
  | .setPoint wedge heads aux =>
    [0x01, seq.toNat] ++ leBytes 2 wedge ++ heads.toList.flatMap HeadBlock.bytes ++ aux.toList.flatMap auxBytes
  | .config c => [if c.write then 0x03 else 0x02, seq.toNat, c.head.toNat, c.addr.toNat] ++ leBytes 2 c.value.toNat

/-- The symbols of a frame (R84, R85, R93): 64 for a set-point frame, 11 for a configuration frame with its padding. -/
def FrameBody.symbols (seq : Byte) (b : FrameBody) : List ArmSym :=
  let l := b.bytes seq
  [.sof] ++ (l ++ leBytes 2 (crc16 l)).map (fun x => .data (BitVec.ofNat 8 x)) ++ [.eof] ++
    match b with
    | .config _ => [.idle]
    | .setPoint .. => []

/-! ### Frames (R84, R87, R90, R93) -/

/-- A frame goes onto the downlink from the next symbol boundary on; a frame still being sent is cut off (R87, R90). -/
def State.putFrame (s : State) (a : Eng) (l : LinkIx) (seq : Byte) (b : FrameBody) : State :=
  let isCfg := match b with
    | .config _ => true
    | .setPoint .. => false
  (s.modLink a l fun k => { k with tx := b.symbols seq, txConfig := isCfg }).modOut fun o =>
    { o with frames := (a, l, seq, b) :: o.frames }

/-- A new frame with the next SEQ, its first attempt. -/
def State.sendFrame (s : State) (a : Eng) (l : LinkIx) (b : FrameBody) : State :=
  let seq := s.eng[a].links[l].seq + 1
  let f : Frame := { seq := seq, attempts := 1, body := b }
  let s := s.modLink a l fun k =>
    match b with
    | .config _ => { k with seq := seq, cfg := some f, cfgDue := false, last := none }
    | .setPoint .. => { k with seq := seq, frame := some f, last := none }
  s.putFrame a l seq b

/-- A set-point frame launched on a link that is up (R84): MODE of each head is decided, and the blocks are those of the
launch. A set-point frame without its answer is abandoned, also one in its fourth attempt (R90, log 63). -/
def State.launch (s : State) (a : Eng) (l : LinkIx) : State :=
  if s.eng[a].links[l].state = .up then
    let gs := (fins 6).filterMap fun (j : Fin 6) => s.afeGlobal a l j
    let s := gs.foldl (fun s g => s.decideMode g (s.angle a)) s
    let s := s.modLink a l fun k => ({ k with auxGrants := 0, launchDue := false } : ArmLink).grantAux 2
    let heads : Vector HeadBlock 6 := Vector.ofFn fun (j : Fin 6) =>
      match s.afeGlobal a l j with
      | some g => s.headBlock g
      | none => {}
    s.sendFrame a l (.setPoint s.eng[a].reel.stamp.wedge heads s.eng[a].links[l].aux)
  else s

/-- A configuration frame is being sent on a link. -/
def ArmLink.configuring (k : ArmLink) : Bool := k.txConfig && !k.tx.isEmpty

/-- Comparator 2's launch on one link (R84, R90): while a configuration frame is being sent it waits for that frame's end. -/
def State.launchOrWait (s : State) (a : Eng) (l : LinkIx) : State :=
  if s.eng[a].links[l].state = .up && s.eng[a].links[l].configuring then s.modLink a l fun k => { k with launchDue := true }
  else s.launch a l

/-- What a link sends between set-point frames (R84, R93): the launch that waited for a configuration frame's end, else a
configuration frame that is to be sent again, else the next one. -/
def State.nextFrame (s : State) (a : Eng) (l : LinkIx) : State :=
  let k := s.eng[a].links[l]
  if k.state ≠ .up ∨ !k.tx.isEmpty then s
  else if k.launchDue then s.launch a l
  else if k.frame.isSome then s
  else match k.cfg with
    | some f => if k.cfgDue then (s.modLink a l fun k => { k with cfgDue := false }).putFrame a l f.seq f.body else s
    | none =>
      match k.cfgQueue with
      | c :: rest => (s.modLink a l fun k => { k with cfgQueue := rest }).sendFrame a l (.config c)
      | [] => s

/-- A configuration frame asked for: sent when the link is up and between set-point frames (R93). -/
def State.queueConfig (s : State) (a : Eng) (l : LinkIx) (c : CfgFrame) : State :=
  (s.modLink a l fun k => { k with cfgQueue := k.cfgQueue ++ [c] }).nextFrame a l

/-! ### The downlink lane (R81 to R83) -/

/-- Datapath clocks of one symbol (R81). -/
def symbolClocks : Nat := 20

/-- The next symbol of a lane (R82, R83): the mask byte of the strobe being sent, else a strobe that waits, else the frame's next
symbol, else K28.5. -/
def ArmLink.sendSymbol (k : ArmLink) : ArmLink :=
  match k.strobeMask, k.strobeQ, k.tx with
  | some m, _, _ => { k with lane := .data (m.setWidth 8), strobeMask := none }
  | none, x :: rest, _ => { k with lane := x.sym, strobeQ := rest, strobeMask := some x.mask }
  | none, [], y :: rest => { k with lane := y, tx := rest }
  | none, [], [] => { k with lane := .idle }

/-- A symbol boundary on one link: the next symbol goes out, and what waited for the end of a frame follows it (R82 to R84, R93). -/
def State.symbol (s : State) (a : Eng) (l : LinkIx) : State :=
  let k := s.eng[a].links[l]
  let s := match k.strobeMask, k.strobeQ with
    | none, x :: _ => s.modOut fun o => { o with strobes := (a, l, x.sym, x.mask) :: o.strobes }
    | _, _ => s
  (s.modLink a l ArmLink.sendSymbol).nextFrame a l

/-- The symbol boundaries of a clock on every link of the engines present (R81). -/
def State.symbols (s : State) : State :=
  if s.mtime % symbolClocks = 0 then
    (fins 4).foldl (fun s (a : Eng) =>
      if s.enginePresent a then (fins 2).foldl (fun s (l : LinkIx) => s.symbol a l) s else s) s
  else s

end Sys2Proof.Machine
end

