-- ==== Sys2Proof/Machine/Arm.lean ====
section
/-! DEFINITION. The meanings of the arm link's commands (spec/03_arm_link.md): answers of the AFE, status frames, faults,
auxiliary slots, configuration frames, link loss and training, and the four arm-link packets. -/

namespace Sys2Proof.Machine
open Sys2Proof

/-! ### Shared -/

/-- The global heads of a link. -/
def State.linkHeads (s : State) (a : Eng) (l : LinkIx) : List Head := (fins 6).filterMap fun (j : Fin 6) => s.afeGlobal a l j

/-- The global heads of a link's mask byte. -/
def State.linkMask (s : State) (a : Eng) (l : LinkIx) (m : BitVec 6) : List Head :=
  (fins 6).filterMap fun (j : Fin 6) => if m.getLsbD j.val then s.afeGlobal a l j else none

/-- Address of counter i of a link. -/
def alkReg (a : Eng) (l : LinkIx) (i : Nat) : Nat := engBase a + 0x40010 + l.val * 0x100 + 4 * i

/-- The event of an arm-link counter that reached all-ones with one more (R15). -/
def State.alkFull (s : State) (a : Eng) (l : LinkIx) (i before : Nat) : State :=
  s.saturated (reaches 32 before) 0x03 4 a.val (alkReg a l i) (nw (before + 1))

/-- A protocol violation of the AFE, counted, is recorded with the offending bytes (R99, log 12). -/
def State.alkViolation (s : State) (a : Eng) (l : LinkIx) (i : Nat) (bytes : List Word) : State :=
  let n := (alkCounters s.eng[a].links[l]).getD i 0
  s.violation 0x03 4 a.val (alkReg a l i) (nw n) (bytes ++ List.replicate (4 - bytes.length) 0)

/-- The set-points of a link go stale (R88). -/
def State.stale (s : State) (a : Eng) (l : LinkIx) : State :=
  let n := s.eng[a].links[l].staleCnt
  let s := s.forceWritesOff a (s.linkHeads a l) true false
  let s := s.modLink a l fun k => { k with stale := true, staleCnt := inc 32 k.staleCnt }
  (s.condLink a l).alkFull a l 5 n

/-- An attempt of the configuration frame has failed (R87, R93): it is sent again when no set-point frame is under way, at once in
training; after the fourth attempt it raises an event. -/
def State.configFailed (s : State) (a : Eng) (l : LinkIx) (f : Frame) : State :=
  if f.attempts < 4 then
    let s := s.modLink a l fun k => { k with cfg := some { f with attempts := f.attempts + 1 }, cfgDue := true }
    let k := s.eng[a].links[l]
    if k.frame.isNone && !k.launchDue then (s.modLink a l fun k => { k with cfgDue := false }).putFrame a l f.seq f.body else s
  else ((s.modLink a l fun k => { k with cfg := none, cfgDue := false }).condLink a l).nextFrame a l

/-- An attempt of the outstanding frame has failed (R87, R88, R93): a set-point frame is sent again unchanged, or after the fourth
attempt the set-points go stale; with no set-point frame outstanding it is the configuration frame's. -/
def State.attemptFailed (s : State) (a : Eng) (l : LinkIx) : State :=
  match s.eng[a].links[l].frame with
  | none =>
    match s.eng[a].links[l].cfg with
    | none => s
    | some f => s.configFailed a l f
  | some f =>
    if f.attempts < 4 then
      (s.modLink a l fun k => { k with frame := some { f with attempts := f.attempts + 1 } }).putFrame a l f.seq f.body
    else ((s.modLink a l fun k => { k with frame := none, last := some f }).stale a l).nextFrame a l

/-- An ACK or NAK with a SEQ other than that of the outstanding frame (R87, R99). -/
def State.wrongSeq (s : State) (a : Eng) (l : LinkIx) (seq : Byte) : State :=
  let n := s.eng[a].links[l].seqErrCnt
  let s := s.modLink a l fun k => { k with seqErrCnt := inc 32 k.seqErrCnt }
  ((s.alkViolation a l 3 [nw seq.toNat]).alkFull a l 3 n).attemptFailed a l

/-! ### Training (R97, R98) -/

/-- The training frame of a phase. -/
def ArmLink.trainFrame (k : ArmLink) : TrainPhase → Option CfgFrame
  | .commas => none
  | .readId => some { write := false, head := 0, addr := 0x00, value := 0 }
  | .setWdt => some { write := true, head := 7, addr := 0x30, value := k.afeWdt.setWidth 16 }
  | .setSafe => some { write := true, head := 7, addr := 0x31, value := k.safeHtr.setWidth 16 }

/-- A training phase entered: its frame is sent. -/
def State.trainPhase (s : State) (a : Eng) (l : LinkIx) (p : TrainPhase) : State :=
  let s := s.modLink a l fun k => { k with phase := p }
  match s.eng[a].links[l].trainFrame p with
  | some c => s.sendFrame a l (.config c)
  | none => s

/-- Word 0 as stored: the link. -/
def linkWord (p : Packet) : Word := clampWord [fAny 0 0] 0 (p.w 0)

/-- Retrains that wait for the end of a series answer with LINK. -/
def State.retrained (s : State) (a : Eng) (l : LinkIx) : State :=
  s.replyWaiting 0x0133 (fun p => p.idx == a.val && (p.w 0).getLsbD 0 == (l.val == 1)) 0
    (fun s _ => [nw s.eng[a].links[l].state.num]) fun p => clampBits [(0, p.w 0, linkWord p)]

/-- All three training frames are acknowledged: the link is up. -/
def State.linkUp (s : State) (a : Eng) (l : LinkIx) : State :=
  let s := s.modLink a l fun k => { k with state := .up, trainAtt := 0, phase := .commas, launchDue := false }
  (s.retrained a l).nextFrame a l

/-- The configuration frame has been acknowledged (R93, R97). -/
def State.configAcked (s : State) (a : Eng) (l : LinkIx) (f : Frame) : State :=
  let s := s.modLink a l fun k => { k with cfg := none, cfgDue := false, lastAck := f.seq }
  let k := s.eng[a].links[l]
  if k.state = .training then
    match k.phase with
    | .commas => s
    | .readId => s.trainPhase a l .setWdt
    | .setWdt => s.trainPhase a l .setSafe
    | .setSafe => s.linkUp a l
  else s.nextFrame a l

/-! ### Answers of the AFE (R86 to R89) -/

/-- What the ACK of a set-point frame does for one head (R240, R254): MODE 0b10 is acknowledged; another MODE after the run
releases the writer slot. -/
def State.modeAck (s : State) (g : Head) (b : HeadBlock) : State :=
  if b.mode = 2 then s.modWr g fun w => { w with modeAcked := w.writeReady }
  else if s.head[g].wr.run.isNone then s.releaseSlot g
  else s

/-- The set-point frame just sent is acknowledged: auxiliary slots that rode in it are released (R92), STALE clears (R89). -/
def State.acked (s : State) (a : Eng) (l : LinkIx) (f : Frame) : State :=
  match f.body with
  | .config _ => s.configAcked a l f
  | .setPoint _ heads aux =>
    let s := s.modLink a l fun k =>
      ({ k with
        frame := none, last := none, lastAck := f.seq, stale := false
        aux := Vector.ofFn fun (i : Fin 2) => if k.aux[i] = aux[i] then none else k.aux[i] } : ArmLink).grantAux 2
    let s := (fins 6).foldl (fun s (j : Fin 6) =>
      match s.afeGlobal a l j with
      | some g => s.modeAck g heads[j]
      | none => s) s
    s.nextFrame a l

/-- ARM_ACK_RECEIVE (R86, R87, R89, R92, R254): of the frame outstanding, or late of the set-point frame just sent; an ACK repeated for
a frame already acknowledged changes LAST_ACK alone. -/
def execArmAckReceive (a : Eng) (l : LinkIx) (seq : BitVec 8) (s : State) : Out :=
  .next (
    let k := s.eng[a].links[l]
    if k.state = .up ∨ k.state = .training then
      match [k.frame, k.cfg, k.last].findSome? fun x => x.filter fun f => f.seq == seq with
      | some f => s.acked a l f
      | none =>
        let s := s.modLink a l fun k => { k with lastAck := seq }
        if k.frame.isNone && k.cfg.isNone && seq == k.seq then s else s.wrongSeq a l seq
    else s)

/-- ARM_NAK_RECEIVE (R86, R87): a NAK, or an ACK whose SEQ differs. -/
def execArmNakReceive (a : Eng) (l : LinkIx) (isAck : Bool) (seq : BitVec 8) (s : State) : Out :=
  .next (
    let k := s.eng[a].links[l]
    if k.state = .up ∨ k.state = .training then
      let own := (k.frame.map (·.seq)) == some seq
      if isAck then
        if own || (k.cfg.map (·.seq)) == some seq then s else (s.modLink a l fun k => { k with lastAck := seq }).wrongSeq a l seq
      else
        let s := (s.modLink a l fun k => { k with nakCnt := inc 32 k.nakCnt }).alkFull a l 0 k.nakCnt
        if own then s.attemptFailed a l
        else match k.cfg.filter fun f => f.seq == seq with
          | some f => s.configFailed a l f
          | none => s.wrongSeq a l seq
    else s)

/-- ARM_ACK_TIMEOUT (R87): no answer by ACK_TMO symbol times after the frame's end. -/
def execArmAckTimeout (a : Eng) (l : LinkIx) (s : State) : Out :=
  .next (
    let k := s.eng[a].links[l]
    match k.frame.orElse fun _ => k.cfg with
    | none => s
    | some f =>
      let s := s.modLink a l fun k => { k with ackTmoCnt := inc 32 k.ackTmoCnt }
      ((s.alkViolation a l 2 [nw f.seq.toNat]).alkFull a l 2 k.ackTmoCnt).attemptFailed a l)

/-! ### Status frames (R94 to R96, R246, R247) -/

/-- SEQ x follows SEQ y (8 bits, WRAP). -/
def seqAfter (x y : Byte) : Bool := decide (x ≠ y ∧ (x - y).toNat < 128)

/-- ASM_CFG in force for a head's run (R259). -/
def HeadWrite.asmNow (w : HeadWrite) : Word := (w.pendingLead.map (·.2)).getD w.asm

/-- The assist monitor differs from ASM_TGT by more than ASM_WIN percent of it (R246). -/
def HeadWrite.monitorOut (w : HeadWrite) (mon : Nat) : Bool :=
  let tgt := fld w.band.asst2 11 0
  let win := fld w.asmNow 31 24
  decide (tgt * win < 100 * ((mon : Int) - tgt).natAbs)

/-- The assist guard trips for a head (R246, R247, R248): the gate is forced off, the run ends with SAFE, the strike is
counted; enough strikes within 16 revolutions write-disable the head. -/
def State.assistTrip (s : State) (g : Head) : State :=
  let a := s.engineOf g
  let w := s.head[g].wr
  let rev := s.eng[a].reel.stamp.rev
  let strikes := rev :: w.strikes.filter fun r => decide ((rev + 2 ^ 32 - r) % 2 ^ 32 < 16)
  let s := s.forceWriteOff g w.lastAsm true true
  let s := s.modWr g fun w => { w with asmTrip := true, lostFrames := 0, asmCnt := inc 16 w.asmCnt, strikes := strikes }
  let s := s.saturated (reaches 16 w.asmCnt) 0x07 4 a.val (engBase a + 0x6010C + (s.localOf g).val * 0x10)
    (mkw [bf 31 16 s.head[g].wr.otwCnt, bf 15 0 s.head[g].wr.asmCnt])
  if fld w.asmNow 23 20 ≤ strikes.length ∧ !w.wrDis then s.writeDisable g else s

/-- A status frame at the assist guard of a head (R246). -/
def State.assistGuard (s : State) (g : Head) (seq : Byte) (mon : Nat) : State :=
  let w := s.head[g].wr
  let s := s.modWr g fun w => { w with asmTrip := false, lostFrames := 0 }
  match w.run.bind (·.gateSeq) with
  | none => s
  | some q =>
    if seqAfter seq q then
      if w.monitorOut mon then s.assistTrip g else s.modWr g fun w => { w with lastAsm := s.angle (s.engineOf g) }
    else s

/-- A status frame lost while a head writes: the second in a row trips the guard (R246). -/
def State.assistLost (s : State) (g : Head) : State :=
  let w := s.head[g].wr
  if (w.run.bind (·.gateSeq)).isSome then
    if 1 ≤ w.lostFrames then s.assistTrip g else s.modWr g fun w => { w with lostFrames := w.lostFrames + 1 }
  else s

/-- A head record's FLT, HTR_SENSE and ASSIST_MON (R94). -/
def recFlt (w : Word) : Byte := BitVec.ofNat 8 (fld w 7 0)

/-- A good status frame (R94, R96). -/
def State.statusGood (s : State) (a : Eng) (l : LinkIx) (fr : StatusFrame) : State :=
  let mask : BitVec 6 := BitVec.ofNat 6 (((fins 6).map fun (j : Fin 6) => if recFlt fr.recs[j] = 0 then 0 else 2 ^ j.val).sum)
  let s := s.modLink a l fun k =>
    { k with
      flt := fr.recs.map recFlt, htrSense := fr.recs.map fun w => BitVec.ofNat 12 (fld w 19 8)
      assistMon := fr.recs.map fun w => BitVec.ofNat 12 (fld w 31 20)
      afeTemp := fr.temp, afeSafe := fr.flags.getLsbD 0, sampleLost := false, statSeq := fr.seq, faultMask := mask
      faultCond := k.faultCond &&& mask }
  (fins 6).foldl (fun s (j : Fin 6) =>
    match s.afeGlobal a l j with
    | some g => s.assistGuard g fr.seq (fld fr.recs[j] 31 20)
    | none => s) s

/-- The bytes of a status frame between K27.7 and its CRC (R94), head records little-endian (log 63). -/
def statusBytes (fr : StatusFrame) : List Nat :=
  [0x81, fr.seq.toNat] ++ fr.recs.toList.flatMap (fun w => leBytes 2 w.toNat ++ leBytes 2 (w.toNat / 65536)) ++ [fr.temp.toNat, fr.flags.toNat]

/-- The CRC of a status frame checks (R85, R95). -/
def statusOk (fr : StatusFrame) : Bool := crc16 (statusBytes fr) == fr.crc.toNat

/-- The bytes of a configuration reply between K27.7 and its CRC (R93). -/
def replyBytes (r : ConfigReply) : List Nat :=
  [0x82, r.seq.toNat, r.head.toNat, r.addr.toNat] ++ leBytes 2 r.value.toNat

/-- The CRC received with a configuration reply checks (R85). -/
def replyOk (r : ConfigReply) (crc : BitVec 16) : Bool := crc16 (replyBytes r) == crc.toNat

/-- The first 16 bytes of a frame as recorded (R99). -/
def frameWords (l : List Nat) : List Word := (List.range 4).map fun i => nw (leNat ((l.drop (4 * i)).take 4))

/-- Code and disparity errors counted and recorded (R99). -/
def State.symErrors (s : State) (a : Eng) (l : LinkIx) (n : Nat) : State :=
  if n = 0 then s
  else
    let before := s.eng[a].links[l].symErrCnt
    let s := s.modLink a l fun k => { k with symErrCnt := satAdd 32 k.symErrCnt n }
    (s.alkViolation a l 4 []).saturated (decide (before < 2 ^ 32 - 1 ∧ 2 ^ 32 - 1 ≤ before + n)) 0x03 4 a.val (alkReg a l 4)
      (nw (2 ^ 32 - 1))

/-- An uplink frame whose CRC fails (R95, R99). -/
def State.crcBad (s : State) (a : Eng) (l : LinkIx) (bytes : List Word) : State :=
  let n := s.eng[a].links[l].crcUpCnt
  let s := s.modLink a l fun k => { k with crcUpCnt := inc 32 k.crcUpCnt }
  (s.alkViolation a l 1 bytes).alkFull a l 1 n

/-- ARM_STATUS_FRAME (R85, R94, R95, R96, R99, R246). -/
def execArmStatusFrame (a : Eng) (l : LinkIx) (fr : StatusFrame) (s : State) : Out :=
  .next (
    if s.eng[a].links[l].state = .up then
      let s := s.symErrors a l fr.symErrs
      if statusOk fr then s.statusGood a l fr
      else (s.linkHeads a l).foldl State.assistLost (s.crcBad a l (frameWords (statusBytes fr)))
    else s)

/-- AFE_FAULT_STROBE (R96, R242, R248): write gates of the masked heads off, FAULT_CNT, the fault condition; also on a link in
training, whose uplink carries symbols. -/
def execAfeFaultStrobe (a : Eng) (l : LinkIx) (mask : BitVec 6) (s : State) : Out :=
  .next (
    if s.eng[a].links[l].state = .up ∨ s.eng[a].links[l].state = .training then
      let n := s.eng[a].links[l].faultCnt
      let s := s.forceWritesOff a (s.linkMask a l mask) true true
      let s := s.modLink a l fun k => { k with faultCnt := inc 32 k.faultCnt, faultCond := k.faultCond ||| mask }
      s.alkFull a l 6 n
    else s)

/-! ### Slots and configuration frames (R92, R93) -/

/-- AUX_SLOT_REQUEST (R92). -/
def execAuxSlotRequest (a : Eng) (l : LinkIx) (r : AuxReq) (s : State) : Out :=
  .next (s.modLink a l fun k => ({ k with auxQueue := k.auxQueue ++ [r] } : ArmLink).grantAux 2)

/-- CONFIG_FRAME_SEND (R93). -/
def execConfigFrameSend (a : Eng) (l : LinkIx) (c : CfgFrame) (s : State) : Out := .next (s.queueConfig a l c)

/-- ARM_CONFIG_REPLY (R85, R93). -/
def execArmConfigReply (a : Eng) (l : LinkIx) (r : ConfigReply) (crc : BitVec 16) (s : State) : Out :=
  .next (
    let k := s.eng[a].links[l]
    if k.state = .up ∨ k.state = .training then
      if replyOk r crc then s.modLink a l fun k => { k with cfgReply := some ⟨false, r.head, r.addr, r.value⟩ }
      else s.crcBad a l (frameWords (replyBytes r))
    else s)

/-! ### Link loss and training (R97, R98) -/

/-- A training attempt has failed (R98): the eighth in a row marks the AFE failed and its heads fail (R428). -/
def State.trainFailed (s : State) (a : Eng) (l : LinkIx) (next : LinkState) : State :=
  let n := s.eng[a].links[l].trainAtt + 1
  let s := s.modLink a l fun k =>
    { k with trainAtt := n, phase := .commas, aligned := false, frame := none, cfg := none, cfgDue := false, tx := [], state := next }
  if n < 8 then s
  else
    let s := s.modLink a l fun k => { k with state := .failed }
    ((s.linkHeads a l).foldl State.headFail s).retrained a l

/-- ARM_LINK_DOWN (R97, R98, R242, R254): write gates of the link's heads off, their slots released at once; in training, the attempt
has failed. -/
def execArmLinkDown (a : Eng) (l : LinkIx) (why : LinkDownCause) (s : State) : Out :=
  .next (
    let k := s.eng[a].links[l]
    if k.state = .up ∨ k.state = .training then
      let s := s.forceWritesOff a (s.linkHeads a l) true false
      let s := s.modLink a l fun k =>
        { k with
          state := .down, frame := none, last := none, cfg := none, cfgDue := false, tx := [], strobeQ := [], strobeMask := none
          launchDue := false, phase := .commas, aligned := false, trainAtt := if k.state = .up then 0 else k.trainAtt }
      let s := match why with
        | .codeErrors => s.symErrors a l 4
        | .commaLoss => s.condLink a l
        | .silence => s.condLink a l
      let s := (s.linkHeads a l).foldl (fun s g =>
        let s := if s.head[g].wr.run.isSome then s.deactivate g else s
        (s.modWr g fun w => { w.cool with run := none, writeReady := false, modeAcked := false }).releaseSlot g) s
      if k.state = .training then s.trainFailed a l .down else s
    else s)

/-- ARM_TRAIN_ATTEMPT (R97, R98): an attempt begins with K28.5. -/
def execArmTrainAttempt (a : Eng) (l : LinkIx) (s : State) : Out :=
  .next (
    let k := s.eng[a].links[l]
    if s.linkPresent a l && (k.state == .down || k.state == .training) then
      let s := s.modLink a l fun k =>
        { k with
          state := .training, phase := .commas, aligned := false, frame := none, last := none, cfg := none, cfgDue := false, tx := []
          trainCnt := inc 32 k.trainCnt }
      s.alkFull a l 7 k.trainCnt
    else s)

/-- AFE_COMMA_ALIGNMENT (R97): the AFE returns aligned commas; AFE_ID is read first. -/
def execAfeCommaAlignment (a : Eng) (l : LinkIx) (s : State) : Out :=
  .next (
    let k := s.eng[a].links[l]
    if k.state = .training ∧ k.phase = .commas then (s.modLink a l fun k => { k with aligned := true }).trainPhase a l .readId
    else s)

/-- ARM_TRAIN_TIMEOUT (R98): the attempt has failed. -/
def execArmTrainTimeout (a : Eng) (l : LinkIx) (s : State) : Out :=
  .next (if s.eng[a].links[l].state = .training then s.trainFailed a l .training else s)

/-! ### Packets (0x0130 to 0x0133) -/

/-- The link word 0 names. -/
def Packet.link (p : Packet) : LinkIx := if (p.w 0).getLsbD 0 then 1 else 0
/-- arm.status. -/
def execArmStatus (p : Packet) (s : State) : Out :=
  .next (runPacket ⟨0x0130, [4], .read⟩ p s fun s =>
    { state := s, clamp := clampBits [(0, p.w 0, linkWord p)], result := stArm s p.eng p.link })

/-- arm.clear. -/
def opArmClear (p : Packet) (s : State) : PktRes :=
  let m := fld (p.w 1) 7 0
  let k := s.eng[p.eng].links[p.link]
  let s := s.modLink p.eng p.link fun k =>
    { k with
      nakCnt := clr m 0 k.nakCnt, crcUpCnt := clr m 1 k.crcUpCnt, ackTmoCnt := clr m 2 k.ackTmoCnt
      seqErrCnt := clr m 3 k.seqErrCnt, symErrCnt := clr m 4 k.symErrCnt, staleCnt := clr m 5 k.staleCnt
      faultCnt := clr m 6 k.faultCnt, trainCnt := clr m 7 k.trainCnt }
  { state := s, clamp := clampBits [(0, p.w 0, linkWord p), (1, p.w 1, nw m)]
    result := selected m ((alkCounters k).map fun v => [nw v]) }
/-- arm.clear. -/
def execArmClear (p : Packet) (s : State) : Out := .next (runPacket ⟨0x0131, [4], .action⟩ p s (opArmClear p))

/-- arm.config: the registers and the NOR configuration area; a changed AFE_WDT or SAFE_HTR is written to the AFE (R97). -/
def opArmConfig (p : Packet) (s : State) : PktRes :=
  let a := p.eng
  let l := p.link
  let w1 := clampWord [fIn 31 0 24 100] 0 (p.w 1)
  let w2 := clampWord [fIn 31 0 8 64] 0 (p.w 2)
  let w3 := clampWord [fIn 31 0 0 4095] 0 (p.w 3)
  let k := s.eng[a].links[l]
  let s := s.modLink a l fun k => { k with afeWdt := w1.setWidth 8, ackTmo := w2.setWidth 8, safeHtr := w3.setWidth 12 }
  let s := s.modNor fun n => { n with engs := vmod n.engs a fun e =>
    { e with afeWdt := vset e.afeWdt l (w1.setWidth 8), ackTmo := vset e.ackTmo l (w2.setWidth 8)
             safeHtr := vset e.safeHtr l (w3.setWidth 12) } }
  let s := if k.state = .up ∧ k.afeWdt ≠ w1.setWidth 8 then s.queueConfig a l ⟨true, 7, 0x30, w1.setWidth 16⟩ else s
  let s := if k.state = .up ∧ k.safeHtr ≠ w3.setWidth 12 then s.queueConfig a l ⟨true, 7, 0x31, w3.setWidth 16⟩ else s
  { state := s, clamp := clampBits [(0, p.w 0, linkWord p), (1, p.w 1, w1), (2, p.w 2, w2), (3, p.w 3, w3)]
    result := [w1, w2, w3] }
/-- arm.config. -/
def execArmConfig (p : Packet) (s : State) : Out := .next (runPacket ⟨0x0132, [4], .config⟩ p s (opArmConfig p))

/-- arm.retrain (R98): a new series on a failed AFE; the reply comes when a series under way has ended. -/
def opArmRetrain (p : Packet) (s : State) : PktRes :=
  let a := p.eng
  let l := p.link
  let k := s.eng[a].links[l]
  if k.state = .failed then
    { state := s.modLink a l fun k =>
        { k with
          state := .training, trainAtt := 0, phase := .commas, aligned := false, frame := none, cfg := none, cfgDue := false, tx := [] }
      wait := true }
  else if k.state = .up then
    { state := s, clamp := clampBits [(0, p.w 0, linkWord p)], result := [nw k.state.num] }
  else { state := s, wait := true }
/-- arm.retrain. -/
def execArmRetrain (p : Packet) (s : State) : Out := .next (runPacket ⟨0x0133, [4], .action⟩ p s (opArmRetrain p))

end Sys2Proof.Machine
end

