-- ==== Sys2Proof/Machine/Notch.lean ====
section
/-! DEFINITION. Arithmetic of the loop engine array (R306), the speed bands of the spindle (R356), and the notch coefficients the
module computes (R292, R293). Sines and powers are formed in fixed point with 60 fraction bits before the rounding to Q2.30. -/

namespace Sys2Proof.Machine
open Sys2Proof

/-! ### Number formats (R306) -/

/-- Division by a positive number, to nearest, ties away from zero. -/
def roundAway (n : Int) (d : Nat) : Int :=
  if 0 ≤ n then (2 * n + d) / (2 * d) else -((2 * (-n) + d) / (2 * d))

/-- A product of two values of 30 fraction bits. -/
def qmul (x y : Int) : Int := roundAway (x * y) (2 ^ 30)

/-- A scaling by 2^−k. -/
def qshr (x : Int) (k : Nat) : Int := roundAway x (2 ^ k)

/-- The 48-bit accumulator saturates. -/
def sat48 (x : Int) : Int := satInt 48 x

/-- 1.0. -/
def qOne : Int := 2 ^ 30

/-- A Q2.30 word as a signal. -/
def qword (w : Word) : Int := w.toInt

/-- A native quantity times 2^−E_SH as a signal (R307). -/
def normal (native : Int) (esh : Nat) : Int := if esh ≤ 30 then native * 2 ^ (30 - esh) else qshr native (esh - 30)

/-! ### Speed bands (R356) -/

/-- Centre of a speed band, rpm. -/
def bandCentre (k : Nat) : Nat := 4800 + 600 * k
/-- Lowest speed of a band. -/
def bandLow (k : Nat) : Nat := max 4800 (bandCentre k - 600)

/-! ### Notches (R292, R293) -/

/-- Product in 60 fraction bits. -/
def fxMul (x y : Int) : Int := x * y / 2 ^ 60
/-- 1 in 60 fraction bits. -/
def fxOne : Int := 2 ^ 60

/-- Terms of a sine or cosine series from term k on: each next one is −term × sq / ((k + 1)(k + 2)). -/
def trigSeries (sq : Int) : Nat → Nat → Int → Int
  | 0, _, _ => 0
  | n + 1, k, t => t + trigSeries sq n (k + 2) (-(fxMul t sq) / ((k + 1) * (k + 2) : Nat))

/-- Terms of an exponential series from term k on. -/
def expSeries (x : Int) : Nat → Nat → Int → Int
  | 0, _, _ => 0
  | n + 1, k, t => t + expSeries x n (k + 1) (fxMul t x / ((k + 1 : Nat) : Int))

/-- Sine and cosine of w, in 60 fraction bits. -/
def fxSin (w : Int) : Int := trigSeries (fxMul w w) 20 1 w
/-- See `fxSin`. -/
def fxCos (w : Int) : Int := trigSeries (fxMul w w) 20 0 fxOne

/-- 10^(−DEPTH / 40): ln 10 in 60 fraction bits is 2 654 699 869 899 991 814. -/
def notchA (depth : Nat) : Int := expSeries (-((depth : Int) * LN10 / 40)) 48 0 fxOne
where
  /-- ln 10 in 60 fraction bits. -/
  LN10 : Int := 2654699869899991814

/-- F, DEPTH, WIDTH of a notch register. -/
def notchF (w : Word) : Nat := fld w 31 16

/-- The notch is left out in a speed band (R293). -/
def notchOut (w : Word) (band : Nat) : Bool := decide (540 * bandLow band < 100 * notchF w)

/-- The five coefficient words B0, B1, B2, A1, A2 of a notch in a speed band (R292, R310). -/
def notchWords (w : Word) (band : Nat) : List Word :=
  if notchF w = 0 ∨ notchOut w band then [iw qOne, 0, 0, 0, 0]
  else
    let om : Int := 2 * 3622009729038561421 * (notchF w : Int) / (12 * bandCentre band : Nat)
    let al := fxSin om * 8 / (max 1 (fld w 7 0) : Nat)
    let A := notchA (fld w 15 8)
    let aA := fxMul al A
    let adA := if A = 0 then 0 else al * fxOne / A
    let a0 := fxOne + adA
    let q := fun (x : Int) => iw (satInt 32 (if a0 ≤ 0 then 0 else roundAway (x * qOne) a0.toNat))
    [q (fxOne + aA), q (-2 * fxCos om), q (fxOne - aA), q (-2 * fxCos om), q (fxOne - adA)]

/-- NOTCH_OFF of a list of notches in a band. -/
def notchOffMask (l : List Word) (band : Nat) : Nat :=
  (l.zipIdx.map fun (w, i) => if notchF w ≠ 0 ∧ notchOut w band then 2 ^ i else 0).sum

end Sys2Proof.Machine
end

