-- ==== Sys2Proof/Machine/Loop.lean ====
section
/-! DEFINITION. The loop engine array (spec/09_loop_engines.md): coefficient banks and swaps, samples, control laws, computes and
their debt, lost and frozen sensors; the trace buffers; and their packets. -/

namespace Sys2Proof.Machine
open Sys2Proof

/-! ### Banks (R313 to R317) -/

/-- A slot's coefficient set of a speed band. -/
def State.coefSet (s : State) (n : LoopIx) (band : Fin 8) : CoefSet := (alookup s.nor.coefs (n, band)).getD {}

/-- BANK_TAG of a set. -/
def coefTag (band : Fin 8) (c : CoefSet) : Word := mkw [bf 15 13 band.val, bf 12 0 c.version.toNat]

/-- The notch registers of what a slot serves. -/
def State.slotNotches (s : State) (n : LoopIx) : List Word :=
  if n.val < 4 then s.eng[finMod 4 (by decide) n.val].srv.notch.toList
  else if n.val < 28 then s.head[finMod 24 (by decide) (n.val - 4)].srv.maNotch.toList
  else []

/-- A bank's words with the notch range of a speed band (R292, R310) and the TAG of its set. -/
def State.bankWords (s : State) (n : LoopIx) (band : Fin 8) : WordMap :=
  let c := s.coefSet n band
  let base := c.words.filter fun p => !(decide (20 ≤ p.1 ∧ p.1 < 40)) && p.1 != 18
  let ns := (List.range 4).flatMap fun i => ((s.slotNotches n)[i]?.map fun w => notchWords w band.val).getD [iw qOne, 0, 0, 0, 0]
  wset (ns.zipIdx.foldl (fun m (w, i) => wset m (20 + i) w) base) 18 (coefTag band c)

/-- The band in use (R356). -/
def State.bandInUse (s : State) : Fin 8 := finMod 8 (by decide) s.spn.band

/-- The shadow bank loaded with the set of a band. -/
def State.loadShadow (s : State) (n : LoopIx) (band : Fin 8) : State :=
  let w := s.bankWords n band
  s.modLoop n fun x => { x with banks := vset x.banks (1 - x.actBank) w }

/-- Word 0 of loop.coef as stored: COMMIT, first word, band. -/
def coefWord0 (p : Packet) : Word := clampWord [fAny 31 31, fIn 15 8 0 191, fAny 2 0] 0 (p.w 0)

/-- The words of a coefficient set that loop.coef wrote, with their numbers in the packet. -/
def State.coefStored (s : State) (n : LoopIx) (p : Packet) : List (Nat × Word) :=
  let first := fld (coefWord0 p) 15 8
  let words := (s.coefSet n (finMod 8 (by decide) (fld (coefWord0 p) 2 0))).words
  ((List.range 12).filter fun i => decide (first + i < 192)).map fun i => (i + 1, wget words (first + i))

/-- CLAMP of loop.coef. -/
def State.coefClamp (s : State) (n : LoopIx) (p : Packet) : Nat :=
  clampBits ((0, p.w 0, coefWord0 p) :: (s.coefStored n p).map fun (i, v) => (i, p.w i, v))

/-- Requests that wait for a swap of the slot reply (R334, R335). -/
def State.swapReplies (s : State) (n : LoopIx) : State :=
  let s := s.replyWaiting 0x0191 (fun p => p.idx == n.val) 0 (fun s p => ((s.coefStored n p).map (·.2)).take 6) (s.coefClamp n)
  s.replyWaiting 0x0192 (fun p => p.idx == n.val) 0 fun s _ =>
    [rLpStatus s.lpe.slots[n], rBankTag s.lpe.slots[n], nw s.lpe.slots[n].swapCnt]

/-- NOTCH_OFF of what a slot serves, for the band it now runs (R293). -/
def State.noteNotches (s : State) (n : LoopIx) (band : Nat) : State :=
  let m := notchOffMask (s.slotNotches n) band
  if n.val < 4 then s.modSrv (finMod 4 (by decide) n.val) fun v => { v with notchOff := BitVec.ofNat 4 m, notchDue := false }
  else if n.val < 28 then s.modHs (finMod 24 (by decide) (n.val - 4)) fun h => { h with notchOff := BitVec.ofNat 2 m, notchDue := false }
  else s

/-- SWAP_WAIT clears once every slot has swapped (R357). -/
def State.settleSwapWait (s : State) : State :=
  if s.lpe.slots.toList.any (·.swapPend) then s else s.modSpn fun p => { p with swapWait := false }

/-- A swap takes place (R314, R317): the shadow bank becomes active; one whose tag matches no set is refused. -/
def State.swapBank (s : State) (n : LoopIx) : State :=
  let x := s.lpe.slots[n]
  let tag := wget x.banks[1 - x.actBank] 18
  let band := finMod 8 (by decide) (fld tag 15 13)
  if tag = coefTag band (s.coefSet n band) then
    -- the notches are those in force at the swap (R292, R294)
    let w := s.bankWords n band
    let s := s.modLoop n fun x =>
      { x with
        banks := vset x.banks (1 - x.actBank) w, actBank := 1 - x.actBank, swapPend := false, swapAngle := none
        swapCnt := satAdd 32 x.swapCnt 1 }
    ((s.noteNotches n band.val).swapReplies n).settleSwapWait
  else
    ((((s.modLoop n fun x => { x with swapPend := false, swapAngle := none }).condLoop n).swapReplies n).settleSwapWait)

/-- A swap asked for (R314, R316): merged with one that is pending. -/
def State.requestSwap (s : State) (n : LoopIx) (band : Fin 8) (at_ : Option Angle) : State :=
  (s.loadShadow n band).modLoop n fun x => { x with swapPend := true, swapAngle := at_ }

/-- Samples of a blend of a slot (R280, R320). -/
def blendLen (n : LoopIx) : Nat := if n.val < 28 then 4 else 2

/-- A swap that waits may take place at a sample: none while the slot blends or hands over (R315), nor before its angle (R316). -/
def LoopSlot.swapReady (x : LoopSlot) (len : Nat) (smp : Option LoopSample) (angle : Angle) : Bool :=
  x.swapPend && (x.lmode != .blend || decide (len ≤ x.blendK)) && !((smp.map (·.hand)).getD false) &&
    match x.swapAngle with
    | none => true
    | some t => reached ((smp.map (·.at_)).getD angle) t

/-! ### Samples (R299, R302) -/

/-- The active bank of a slot. -/
def LoopSlot.bank (x : LoopSlot) : WordMap := x.banks[x.actBank]
/-- Word i of the active bank as a signal. -/
def LoopSlot.coef (x : LoopSlot) (i : Nat) : Int := qword (wget x.bank i)
/-- E_SH and TSTEP_SH. -/
def LoopSlot.eSh (x : LoopSlot) : Nat := fld (wget x.bank 5) 28 24
/-- See `eSh`. -/
def LoopSlot.tstepSh (x : LoopSlot) : Nat := fld (wget x.bank 5) 20 16

/-- The trigger's S, E and P in the slot's unit of debt for a sample at x (R299). -/
def State.sampleTimes (s : State) (n : LoopIx) (x : Nat) : Nat × Nat × Nat :=
  if n.val < 28 then (x, angleAdd x 0x1000, 65536)
  else if n.val < 76 then (x, angleAdd x 0x4000, 65536)
  else if n.val = 76 then
    let p := x - s.lpe.slots[n].lastSample
    (x, x + p / 4, p)
  else (x, x + s.lpe.thermPer * 30000 / 4, s.lpe.thermPer * 30000)

/-- A measurement latched at S (R302, R304): it waits behind a compute that still runs. -/
def State.latch (s : State) (n : LoopIx) (x : Nat) (value : Int) (lost hand : Bool) : State :=
  if s.lpe.slots[n].en then
    let (t, e, p) := s.sampleTimes n x
    let a : Eng := finMod 4 (by decide) n.val
    let vcm := decide (n.val < 4)
    let s := s.modLoop n fun y =>
      { y with
        latched := y.latched ++ [
          { value := value, lost := lost, hand := hand, at_ := t, due := e, period := p, clock := s.mtime
            rotSum := if vcm then s.mems.rotSum[a] else 0, rotN := if vcm then s.mems.rotN[a] else 0 }]
        lastSample := if 76 ≤ n.val then x else y.lastSample }
    if vcm then { s with mems := { s.mems with rotSum := vset s.mems.rotSum a 0, rotN := vset s.mems.rotN a 0 } } else s
  else s

/-- A sensor's sample counted for loss and freezing (R322 to R325), in every law: the slot's flags, and whether the sample is lost
or part of the frozen run. -/
def LoopSlot.sense (x : LoopSlot) (raw : Int) (lost : Bool) : LoopSlot × Bool :=
  if lost then ({ x with lostRun := min 15 (x.lostRun + 1) }, true)
  else
    let run := if raw = x.raw then min 255 (x.frzRun + 1) else 1
    let frozen := decide (x.frzN ≤ run)
    ({ x with raw := raw, lostRun := 0, frzRun := run, frozen := frozen }, frozen)

/-! ### Control laws (R308 to R311) -/

/-- One step of R308 on an error: p, and the new i and df. -/
def pidStep (x : LoopSlot) (e ePrev i df : Int) : Int × Int × Int :=
  let p := qmul (x.coef 0) e
  let df' := sat48 (df + qmul (x.coef 3) (sat48 (qmul (x.coef 2) (e - ePrev) - df)))
  let inc := qmul (x.coef 1) e
  let try_ := min (max (sat48 (i + inc)) (x.coef 8)) (x.coef 9)
  let w := p + try_ + df'
  let i' := if (x.coef 7 < w ∧ 0 < inc) ∨ (w < x.coef 6 ∧ inc < 0) then i else try_
  (p, i', df')

/-- R308 applied to the slot's own states. -/
def LoopSlot.pid (x : LoopSlot) (e : Int) : LoopSlot × Int :=
  let (p, i, df) := pidStep x e x.ePrev x.integ x.deriv
  ({ x with integ := i, deriv := df, ePrev := e, iClamp := i == x.coef 8 || i == x.coef 9 }, sat48 (p + i + df))

/-- R308 with its integrator preloaded to u_old − (p + df), limited (R279, R320). -/
def LoopSlot.preload (x : LoopSlot) (e uOld : Int) : LoopSlot × Int :=
  let p := qmul (x.coef 0) e
  let df := sat48 (x.deriv + qmul (x.coef 3) (sat48 (qmul (x.coef 2) (e - x.ePrev) - x.deriv)))
  let i := min (max (uOld - (p + df)) (x.coef 8)) (x.coef 9)
  ({ x with integ := i, deriv := df, ePrev := e, iClamp := i == x.coef 8 || i == x.coef 9 }, sat48 (p + i + df))

/-- The gain-table law (R309) with the table at word `base` of the bank; `damp` is kv × vel in SETTLE, else zero. -/
def LoopSlot.table (x : LoopSlot) (base : Nat) (e bias damp : Int) : Int :=
  let a := (e.natAbs : Int) * 2 ^ x.tstepSh
  let j := min (a / qOne) 62
  let f := min (a - j * qOne) qOne
  let g0 := x.coef (base + j.toNat)
  let g1 := x.coef (base + j.toNat + 1)
  sat48 (qmul (sat48 (g0 + qmul f (g1 - g0))) e + bias - damp)

/-- The notches of a slot's kind run on the law's output (R310). -/
def LoopSlot.notches (x : LoopSlot) (count : Nat) (w : Int) : LoopSlot × Int :=
  (List.range count).foldl (fun (x, w) n =>
    let c := fun (k : Nat) => x.coef (20 + 5 * n + k)
    let (s1, s2) := vget x.notchS n (0, 0)
    let o := sat48 (qmul (c 0) w + s1)
    let s1' := sat48 (qmul (c 1) w - qmul (c 3) o + s2)
    let s2' := sat48 (qmul (c 2) w - qmul (c 4) o)
    ({ x with notchS := Vector.ofFn fun (k : Fin 4) => if k.val = n then (s1', s2') else x.notchS[k] }, o)) (x, w)

/-- The output is formed (R311). -/
def LoopSlot.form (x : LoopSlot) (w uff : Int) (limited : Bool) : LoopSlot × Int :=
  let u := sat48 (w + uff)
  let r := x.coef 11
  let u := if limited && decide (0 < r) then min (max u (x.out - r)) (x.out + r) else u
  let v := min (max u (x.coef 6)) (x.coef 7)
  ({ x with uff := uff, oClamp := v != u, clampCnt := if v = u then x.clampCnt else satAdd 32 x.clampCnt 1 }, v)

/-- SP_EFF follows SP_TGT at SP_RATE (R318). -/
def LoopSlot.ramp (x : LoopSlot) : LoopSlot :=
  let r := x.coef 10
  let sp := if r ≤ 0 then x.spTgt else clampInt (x.spEff - r) (x.spEff + r) x.spTgt
  { x with spEff := sp, lmode := if sp = x.spTgt then .closed else .ramp }

/-- The hand-over test at a transition sample (R279, R320): |u_old − u_new| at most 1 / den of full scale starts the new law at
once; otherwise u_old is applied and a blend follows. -/
def LoopSlot.handOver (x : LoopSlot) (e uOld : Int) (den : Nat) (old : OldLaw) : LoopSlot × Int :=
  let (y, uNew) := x.preload e uOld
  if (den : Int) * ((uOld - uNew).natAbs : Int) ≤ qOne then ({ y with lmode := .closed, blendK := 0, old := none }, uNew)
  else ({ y with lmode := .blend, blendK := 0, old := some old }, uOld)

/-- A sample of a blend of `len` samples (R280, R320): its first preloads again; past its last the new law applies alone. -/
def LoopSlot.blend (x : LoopSlot) (e uOld : Int) (len : Nat) : LoopSlot × Int :=
  let k := x.blendK + 1
  if len < k then
    let (y, w) := x.pid e
    ({ y with lmode := .closed, blendK := 0, old := none }, w)
  else
    let (y, uNew) := if k = 1 then x.preload e uOld else x.pid e
    ({ y with blendK := k }, roundAway ((len + 1 - k : Nat) * uOld + (k : Int) * uNew) (len + 1))

/-- What a law left behind gives at a sample, and its states after it. -/
def LoopSlot.oldOutput (x : LoopSlot) (meas : Int) : Int × Option OldLaw :=
  match x.old with
  | none => (x.out, none)
  | some (.value u) => (u, x.old)
  | some (.pid sp i df ep) =>
    let (p, i', df') := pidStep x (sp - meas) ep i df
    (sat48 (p + i' + df'), some (.pid sp i' df' (sp - meas)))

/-! ### The laws by kind -/

/-- Signed distance to go of an engine, 1/256 track: arm target less arm position. -/
def Servo.toGo (v : Servo) : Int := (v.armTgt : Int) - v.armPos

/-- v_ref of R277 for a distance to go in 1/256 track, 2^−16 track per wedge: the profile, piecewise linear, with the sign of d. -/
def velocityRef (set : Fin 4) (d : Int) : Int :=
  let x := d.natAbs
  let pt := fun (j : Nat) => (256 * Config.profileDist set (finMod 64 (by decide) j), Config.profile set (finMod 64 (by decide) j))
  let j := ((List.range 63).filter fun j => decide ((pt j).1 ≤ x)).length - 1
  let (d0, v0) := pt j
  let (d1, v1) := pt (j + 1)
  let v : Int := if x ≤ d0 ∨ d1 ≤ d0 then v0 else if d1 ≤ x then v1
    else v0 + ((v1 : Int) - v0) * ((x - d0 : Nat) : Int) / ((d1 - d0 : Nat) : Int)
  if d < 0 then -v else v

/-- Cost of a compute in pipeline clocks (R300): pre-part and post-part. -/
def computeCost (n : LoopIx) : Nat × Nat :=
  if n.val < 4 then (240, 80) else if n.val < 28 then (112, 48) else if n.val = 76 then (96, 32) else (64, 32)

/-- The clock on which the post-part of a slot's running compute starts (R300, R302): after its pre-part, not before S. A pipeline clock
is two datapath clocks (log 71). -/
def LoopSlot.postStart (x : LoopSlot) (n : LoopIx) (smp : LoopSample) : MTime := max smp.clock (x.startAt + 2 * (computeCost n).1)

/-- i_b of R284: the output of an engine's latest compute completed before a clock (R302), or in HOLD and UNLOAD and outside the laws
the current it drives (R286). -/
def State.currentOf (s : State) (b : Eng) (t : MTime) : Int :=
  let x := s.lpe.slots[vcmSlot b]
  match s.eng[b].srv.mode with
  | .loading | .seek | .settle | .minuet | .blend => if x.doneAt < t then x.lastU else x.prevU
  | .unloaded | .hold | .unload => s.eng[b].srv.out * 2 ^ 15

/-- Feed-forward of R284 and R286: the other engines' commanded currents and the mean rotational acceleration. -/
def State.quadrille (s : State) (a : Eng) (smp : LoopSample) : Int :=
  let t := s.lpe.slots[vcmSlot a].postStart (vcmSlot a) smp
  let cur := (fins 4).foldl (fun (acc : Int) (b : Eng) =>
    if b = a ∨ !s.enginePresent b then acc else acc + qmul (qword s.eng[a].srv.qdK[b]) (s.currentOf b t)) 0
  let r := if s.mems.frozen ∨ smp.rotN = 0 then 0 else smp.rotSum * 2 ^ 20 / (smp.rotN : Int)
  sat48 (cur + qmul (qword s.eng[a].srv.qdRv) r)

/-- The hold with decay of R287: one sample. -/
def decayed (v : Servo) (x : Int) : Int := x - qshr x (fld v.cfg 31 28)

/-- The voice-coil motor's law at a sample (R276 to R280, R287, R288). -/
def vcmLaw (v : Servo) (x : LoopSlot) (smp : LoopSample) : LoopSlot × Servo × Int × Bool :=
  let meas := normal smp.value x.eSh
  let x := { x with meas := meas }
  let e := x.spTgt - meas
  let galop := fun (x : LoopSlot) => x.table 128 e v.model.bias (qmul (x.coef 4) v.model.v)
  match v.mode with
  | .unloaded | .unload => ({ x with lmode := .off, err := 0 }, v, 0, false)
  | .loading => ({ x with lmode := .open_, err := e }, v, x.openVal, true)
  | .hold =>
    let h := decayed v x.openVal
    ({ x with lmode := .hold, openVal := h, err := e }, v, h, false)
  | .seek =>
    let vm := qshr v.model.v 14
    let ev := (velocityRef (finMod 4 (by decide) v.galopSet) v.toGo - vm)
    let es := if x.eSh ≤ 22 then ev * 2 ^ (22 - x.eSh) else qshr ev (x.eSh - 22)
    ({ x with lmode := .table, spEff := x.spTgt, err := es, ePrev := e }, v, x.table 64 es v.model.bias 0, false)
  | .settle =>
    let x := { x with spEff := x.spTgt, err := e }
    if smp.hand then
      let uG := galop x
      let (y, w) := ({ x with deriv := 0 } : LoopSlot).handOver e uG 5 (.value uG)
      (y, if y.lmode = .closed then { v with mode := .minuet } else { v with mode := .blend, hoBlendCnt := satAdd 32 v.hoBlendCnt 1 }, w, false)
    else ({ x with lmode := .table, ePrev := e }, v, galop x, false)
  | .blend =>
    let uG := if v.fromHold then (x.oldOutput meas).1 else galop x
    let (y, w) := ({ x with spEff := x.spTgt, err := e } : LoopSlot).blend e uG 4
    (y, v, w, false)
  | .minuet =>
    let x := if smp.hand then x else x.ramp
    let e := x.spEff - meas
    if smp.hand then
      let (y, w) := ({ x with deriv := 0, err := e } : LoopSlot).handOver e x.out 5 (.value x.out)
      (y, if y.lmode = .closed then { v with mode := .minuet } else { v with mode := .blend, hoBlendCnt := satAdd 32 v.hoBlendCnt 1 }, w, false)
    else
      let (y, w) := ({ x with err := e } : LoopSlot).pid e
      (y, { v with fromHold := false }, w, false)

/-- A head's microactuator law at a sample (R281, R287 to R289, R291): the more advanced count governs; `loss` is that count. -/
def maLaw (v : Servo) (loss : Nat) (x : LoopSlot) (smp : LoopSample) : LoopSlot × Int × Bool :=
  let meas := normal smp.value x.eSh
  let x := { x with meas := meas }
  let e := x.spTgt - meas
  if 24 ≤ loss then
    let k := 28 - min loss 27
    let h := x.openVal - roundAway x.openVal k
    ({ x with lmode := .hold, openVal := h, err := e }, h, false)
  else if 5 ≤ loss then
    let h := decayed v (if x.lmode = .hold then x.openVal else x.out)
    ({ x with lmode := .hold, openVal := h, err := e }, h, false)
  else
    match x.lmode with
    | .blend =>
      let (uOld, old) := x.oldOutput meas
      let (y, w) := ({ x with spEff := x.spTgt, err := e, old := old } : LoopSlot).blend e uOld 4
      (y, w, false)
    | .closed | .ramp =>
      let x := x.ramp
      let (y, w) := ({ x with err := x.spEff - meas } : LoopSlot).pid (x.spEff - meas)
      (y, w, false)
    | _ =>
      if smp.hand then
        let uOld := if x.lmode = .hold then x.out else x.openVal
        let (y, w) := ({ x with spEff := x.spTgt, err := e, deriv := 0 } : LoopSlot).handOver e uOld 5 (.value uOld)
        (y, w, false)
      else ({ x with lmode := .open_, err := e, ePrev := e }, x.openVal, true)

/-- The law of a heater, assist or thermal slot at a sample (R318, R320 to R325), with its fallback value. -/
def heatLaw (fb : Int) (x : LoopSlot) (smp : LoopSample) (good : Bool) : LoopSlot × Int × Bool :=
  let x := if good then { x with meas := normal smp.value x.eSh } else x
  let meas := x.meas
  let e := x.spTgt - meas
  let acts := x.lmode == .ramp || x.lmode == .closed || x.lmode == .blend || x.lmode == .hold
  if acts && (x.frozen || decide (x.lostN ≤ x.lostRun)) then
    ({ x with lmode := .fallback, blendK := 0, old := none }, fb, true)
  else if acts && smp.lost then ({ x with lmode := .hold }, x.out, false)
  else
    match x.lmode with
    | .off => (x, x.out, false)
    | .fallback =>
      if good then
        let (y, w) := ({ x with spEff := x.spTgt, err := e } : LoopSlot).handOver e x.out 10 (.value x.out)
        (y, w, false)
      else (x, fb, true)
    | .blend =>
      let (uOld, old) := x.oldOutput meas
      let x := x.ramp
      let e := x.spEff - meas
      let (y, w) := ({ x with lmode := .blend, err := e, old := old } : LoopSlot).blend e uOld 2
      (y, w, false)
    | .open_ =>
      if smp.hand then
        let (y, w) := ({ x with spEff := x.spTgt, err := e, deriv := 0, ePrev := e } : LoopSlot).handOver e x.openVal 10 (.value x.openVal)
        (y, w, false)
      else ({ x with err := e, ePrev := e }, x.openVal, true)
    | _ =>
      if smp.hand then
        -- CLOSED to CLOSED on another set-point: the old law is R308 on the set-point it worked on
        let sp := x.spEff
        let (p, i, df) := pidStep x (sp - meas) x.ePrev x.integ x.deriv
        let uOld := sat48 (p + i + df)
        let (y, w) := ({ x with spEff := x.spTgt, err := e } : LoopSlot).handOver e uOld 10 (.pid sp i df (sp - meas))
        (y, w, false)
      else if x.lmode = .hold ∧ 0 < x.blendK then
        let (uOld, old) := x.oldOutput meas
        let (y, w) := ({ x with lmode := .blend, err := e, old := old } : LoopSlot).blend e uOld 2
        (y, w, false)
      else
        let x := x.ramp
        let (y, w) := ({ x with err := x.spEff - meas } : LoopSlot).pid (x.spEff - meas)
        (y, w, false)

/-- The fallback value of a heater, assist or thermal slot (R324). -/
def State.fallbackValue (s : State) (n : LoopIx) : Int :=
  let x := s.lpe.slots[n]
  match loopHead n with
  | some g =>
    if 52 ≤ n.val then unitsOut (s.assistWr g)
    else if x.wrSp then unitsOut s.head[g].wr.band.htrPre else x.coef 12
  | none => x.coef 12

/-- The spindle speed loop at a sample (R354, R355). -/
def spindleLaw (p : Spindle) (x : LoopSlot) (smp : LoopSample) : LoopSlot × Int × Bool :=
  let x := if smp.lost then x else { x with meas := normal smp.value x.eSh }
  if smp.lost ∨ p.state ≠ .run then ({ x with lmode := .hold }, x.out, false)
  else
    let x := { x with spEff := x.spTgt, lmode := .closed, err := x.spTgt - x.meas }
    let (y, w) := x.pid x.err
    (y, w, false)

/-- ACC_FF × the rate of change of n_ref (R355): its change per wedge as RAMP gives it, as a signal. -/
def State.spindleFf (s : State) : Int :=
  let x := s.lpe.slots[spnSlot]
  qmul (x.coef 4) (qshr (normal ((s.spn.nRef : Int) * s.spn.ramp) x.eSh) 32)

/-! ### Computes (R300 to R305) -/

/-- Clocks of an angle advance on an engine, at its FRAC_INC; zero while it is zero. -/
def State.clocksOf (s : State) (a : Eng) (x : Int) : Int :=
  if s.eng[a].reel.fracInc = 0 then 0 else x * 65536 / (s.eng[a].reel.fracInc : Int)

/-- The slot's next sample point that has not been latched, in its unit of debt; the SPINDLE slot's is expected one interval after
the last (R299, log 62). -/
def State.nextSample (s : State) (n : LoopIx) : Option Nat :=
  match s.loopEngine n with
  | some a =>
    let c := s.eng[a].reel.cmp[if n.val < 28 then (3 : CmpIx) else 4]
    if c.armed then some c.target.linear else none
  | none => if 77 ≤ n.val ∧ n.val < 85 then
      let p := s.lpe.thermPer * 30000
      some ((s.mtime / p + 1) * p)
    else if n = spnSlot ∧ 0 < s.spn.lastInterval then some (s.spn.lastSampleAt + s.spn.lastInterval)
    else none

/-- The compute of a slot that is ready (R301): at S − advance, or waiting with its measurement; and clocks to its E. -/
def State.readyIn (s : State) (n : LoopIx) : Option Int :=
  let x := s.lpe.slots[n]
  if !x.en || x.pipe.isSome then none
  else
    let toE := fun (e : Nat) => match s.loopEngine n with
      | some a => s.clocksOf a (angleDiff e (s.angle a))
      | none => (e : Int) - s.mtime
    match x.latched with
    | smp :: _ => some (toE smp.due)
    | [] =>
      match s.nextSample n with
      | none => none
      | some t =>
        let (_, e, p) := s.sampleTimes n t
        let adv := min x.debt (p / 4)
        let due := match s.loopEngine n with
          | some a => reached (s.angle a) (angleAdd t (-(adv : Int)))
          | none => decide (t ≤ s.mtime + adv)
        if due then some (toE e) else none

/-- The ready compute with the earliest E, ties to the lower slot (R301). -/
def State.nextCompute (s : State) : Option LoopIx :=
  ((fins 128).foldl (fun (acc : Option (LoopIx × Int)) (n : LoopIx) =>
    match s.readyIn n with
    | none => acc
    | some t => match acc with
      | none => some (n, t)
      | some (_, u) => if t < u then some (n, t) else acc) none).map (·.1)

/-- An uncorrectable word of a slot's table met by a compute (R327). -/
def State.tableError (s : State) (n : LoopIx) : State :=
  match s.lpe.slots[n].bad with
  | none => s
  | some true =>
    let x := s.lpe.slots[n]
    let w := s.bankWords n (finMod 8 (by decide) (fld (wget x.bank 18) 15 13))
    (s.modLoop n fun x => { x with banks := vset x.banks x.actBank w, bad := none, slow := true }).condLoop n
  | some false =>
    let s := s.modLoop n fun x =>
      { x with
        integ := min (max x.out (x.coef 8)) (x.coef 9), deriv := 0, notchS := Vector.replicate 4 (0, 0), bad := none }
    let s := if n.val < 4 then
        s.modSrv (finMod 4 (by decide) n.val) fun v => { v with model := { v.model with x := (v.armPos : Int) * 2 ^ 22, v := 0 } }
      else s
    s.condLoop n

/-- LOOP_COMPUTE_START (R301, R314, R327): a free pipeline takes the ready compute with the earliest E; a pending swap takes effect
at its start. -/
def execLoopComputeStart (n : PipeIx) (s : State) : Out :=
  .next (
    if s.lpe.pipes[n].isSome then s
    else match s.nextCompute with
      | none => s
      | some k =>
        let x := s.lpe.slots[k]
        let smp := x.latched.head?
        let (_, _, p) := s.sampleTimes k ((s.nextSample k).getD 0)
        let p := (smp.map (·.period)).getD p
        let s := if x.swapReady (blendLen k) smp ((s.nextSample k).getD 0) then s.swapBank k else s
        let s := (s.modLoop k fun x => { x with slow := false }).tableError k
        let s := s.modLoop k fun x => { x with pipe := some n, advance := min x.debt (p / 4), startAt := s.mtime }
        s.modLpe fun l => { l with pipes := vset l.pipes n (some k) })

/-- A feed-forward input of a slot's kind (R311). -/
def State.feedForward (s : State) (n : LoopIx) (smp : LoopSample) : Int :=
  if n.val < 4 then s.quadrille (finMod 4 (by decide) n.val) smp else if n.val = 76 then s.spindleFf else 0

/-- Notches of a slot's kind (R310). -/
def notchCount (n : LoopIx) : Nat := if n.val < 4 then 4 else if n.val < 28 then 2 else 0

/-- A slot enters FALLBACK (R324): FB_CNT and one event. -/
def State.enterFallback (s : State) (n : LoopIx) : State :=
  let c := s.lpe.slots[n].fbCnt
  ((s.modLoop n fun x => { x with fbCnt := inc 32 x.fbCnt }).condLoop n).saturated (reaches 32 c) 0x09 (loopOrigin n).1
    (loopOrigin n).2 (lpBase n + 0x2C) (nw (c + 1))

/-- The law of a slot runs on a sample: the state with the slot's new states, w, and whether R311 limits the rate. -/
def State.runLaw (s : State) (n : LoopIx) (smp : LoopSample) : State × Int × Bool :=
  let x := s.lpe.slots[n]
  if h : n.val < 4 then
    let a : Eng := ⟨n.val, h⟩
    let (y, v, w, lim) := vcmLaw s.eng[a].srv x smp
    let s := (s.modLoop n fun _ => y).modSrv a fun _ => v
    (if smp.hand && y.lmode == .closed && v.notchDue then s.requestSwap n s.bandInUse none else s, w, lim)
  else if n.val < 28 then
    let g : Head := finMod 24 (by decide) (n.val - 4)
    let a := s.engineOf g
    let v := s.eng[a].srv
    let h := s.head[g].srv
    let (y, w, lim) := maLaw v (if h.lost then 31 else max v.lossRun h.hloss) x smp
    let s := s.modLoop n fun _ => y
    (if smp.hand && y.lmode == .closed && h.notchDue then s.requestSwap n s.bandInUse none else s, w, lim)
  else if n.val = 76 then
    let (y, w, lim) := spindleLaw s.spn x smp
    (s.modLoop n fun _ => y, w, lim)
  else
    let (x, bad) := x.sense smp.value smp.lost
    let (y, w, lim) := heatLaw (s.fallbackValue n) x smp !bad
    let enters := decide (x.lmode ≠ .fallback ∧ y.lmode = .fallback)
    let s := s.modLoop n fun _ => y
    (if enters then s.enterFallback n else s, w, lim)

/-! ### Trace (R328 to R332) -/

/-- The signal a trace channel takes of a slot (R328): the law's output, notch output and u of the compute are given. -/
def State.traceSignal (s : State) (n : LoopIx) (sig : Nat) (u : Int) : Word :=
  let x := s.lpe.slots[n]
  let m : PosModel := if n.val < 4 then s.eng[finMod 4 (by decide) n.val].srv.model else {}
  match sig with
  | 0x0 => q230 x.meas | 0x1 => q230 x.spEff | 0x2 => q230 x.err | 0x3 => q230 x.lawW | 0x4 => q230 x.notchW
  | 0x5 => q230 x.uff | 0x6 => q230 u | 0x7 => q230 x.integ | 0x8 => q230 x.deriv | 0x9 => q230 m.x | 0xA => q230 m.v
  | 0xB => q230 m.bias | 0xC => rLpStatus x | 0xD => nw x.debt | _ => 0

/-- One sample more in a channel: the ring of the newest 8 192, and the samples left after the trigger (R329). -/
def TraceChan.put (c : TraceChan) (x : TraceSample) (triggered : Bool) : TraceChan :=
  if triggered && c.left == 0 then { c with stopped := true }
  else
    let left := if triggered then c.left - 1 else c.left
    { c with
      samples := (x :: c.samples).take 8192, count := c.count + 1, left := left, stopped := triggered && left == 0 }

/-- The channels of a slot take their sample at the end of its compute (R328). -/
def State.traceSlot (s : State) (n : LoopIx) (u : Int) : State :=
  if s.trc.state ≠ .armed ∧ s.trc.state ≠ .triggered then s
  else
    let stamp := match s.loopEngine n with
      | some a => stampLo s.eng[a].reel.stamp
      | none => nw s.mtime
    s.modTrc fun t =>
      ({ t with chans := t.chans.map fun c =>
          if c.src.getLsbD 31 && fld c.src 30 24 == n.val && !c.stopped then
            c.put { value := s.traceSignal n (fld c.src 23 20) u, stamp := stamp } (t.state == .triggered)
          else c } : Trace).settle

/-! ### Delivery (R303, R307) -/

/-- An output delivered to its destination, rounded to its steps and saturated. -/
def State.applyOutput (s : State) (n : LoopIx) (u : Int) : State :=
  let s := s.modLoop n fun x => { x with out := u, pendingOut := none }
  if h : n.val < 4 then s.modSrv ⟨n.val, h⟩ fun v => { v with out := clampInt (-32768) 32767 (qshr u 15) }
  else if n.val < 28 then s.modHs (finMod 24 (by decide) (n.val - 4)) fun x => { x with maOut := clampInt (-2048) 2047 (qshr u 19) }
  else if n.val < 76 then s
  else if n.val = 76 then s.modSpn fun p => { p with icmd := clampInt (-32768) 32767 (qshr u 15) }
  else if h : n.val < 85 then
    s.modPwr fun p => { p with zoneAllow := vset p.zoneAllow ⟨n.val - 77, by omega⟩ (clampInt 0 65535 (qshr (u * 40000) 30)).toNat }
  else s

/-- Lateness of a compute that ends now, in the slot's unit of debt (R74). -/
def State.lateness (s : State) (n : LoopIx) (due : Nat) : Nat :=
  match s.loopEngine n with
  | some a => (angleDiff (s.angle a) due).toNat
  | none => s.mtime - due

/-- The debt of a slot after a compute (R74 to R77, R304). -/
def State.loopDebt (s : State) (n : LoopIx) (late period : Nat) : State :=
  let x := s.lpe.slots[n]
  let d := min (x.debt - x.advance + late) (2 ^ 32 - 1)
  let fire := decide (period < d) && !x.debtEvt
  let s := s.modLoop n fun x =>
    { x with debt := d, debtMax := max x.debtMax d, debtEvt := (x.debtEvt || fire) && d != 0, advance := 0 }
  if fire then s.condLoop n else s

/-- LOOP_COMPUTE_DONE (R303, R304, R308 to R327): the compute of a pipeline ends, its post-part on the measurement latched at S; one that
waits for a bank word's replacement ends after E. -/
def execLoopComputeDone (n : PipeIx) (s : State) : Out :=
  .next (
    match s.lpe.pipes[n] with
    | none => s
    | some k =>
      match s.lpe.slots[k].latched with
      | [] => s
      | smp :: rest =>
        if s.lpe.slots[k].slow && s.lateness k smp.due == 0 then s
        else
        let was := s.lpe.slots[k].lmode
        let (s, w, lim) := s.runLaw k smp
        let x := s.lpe.slots[k]
        let (x, o) := x.notches (notchCount k) w
        let (x, u) := if x.lmode = .off then (x, x.out) else x.form o (s.feedForward k smp) lim
        let s := s.modLoop k fun _ => { x with
          lawW := w, notchW := o, latched := rest, pipe := none, doneAt := s.mtime, lastU := u, prevU := x.lastU }
        let s := s.modLpe fun l => { l with pipes := vset l.pipes n none }
        let late := s.lateness k smp.due
        let s := s.loopDebt k late smp.period
        let s := s.traceSlot k u
        let s := if was = .off ∧ x.lmode = .off then s
          else if late = 0 then s.modLoop k fun x => { x with pendingOut := some (u, smp.due) }
          else
            let c := s.lpe.slots[k].lateCnt
            ((s.modLoop k fun x => { x with lateCnt := inc 32 x.lateCnt }).applyOutput k u).saturated (reaches 32 c) 0x09
              (loopOrigin k).1 (loopOrigin k).2 (lpBase k + 0x28) (nw (c + 1))
        s)

/-- LOOP_OUTPUT_RELEASE (R303): at E the output held is applied. -/
def execLoopOutputRelease (n : LoopIx) (s : State) : Out :=
  .next (
    match s.lpe.slots[n].pendingOut with
    | none => s
    | some (u, e) =>
      let due := match s.loopEngine n with
        | some a => reached (s.angle a) e
        | none => decide (e ≤ s.mtime)
      if due then s.applyOutput n u else s)

/-! ### Slots enabled (R298, R318) -/

/-- A slot enabled: a PID slot's SP_EFF takes its measurement, its integrator the output it holds, its derivative zero. -/
def State.enableSlot (s : State) (n : LoopIx) (law : LMode) : State :=
  if s.lpe.slots[n].en then s
  else
    let s := (s.loadShadow n s.bandInUse).modLoop n fun x =>
      { x with actBank := 1 - x.actBank, en := true, lmode := law, frozen := false, lostRun := 0, frzRun := 0, blendK := 0, old := none }
    let s := s.noteNotches n s.bandInUse.val
    s.modLoop n fun x =>
      { x with
        spEff := x.meas, integ := min (max x.out (x.coef 8)) (x.coef 9), deriv := 0
        frzN := (s.nor.loopLim[n]).1, lostN := (s.nor.loopLim[n]).2 }

/-! ### Trace commands -/

/-- TRACE_TIMEOUT (R330): 2^30 clocks after the trigger the trace is DONE; channels that have not stopped are cut short. -/
def execTraceTimeout (s : State) : Out :=
  .next (
    if s.trc.state = .triggered then
      s.modTrc fun t =>
        { t with
          state := .done
          short := BitVec.ofNat 16 ((t.chans.toList.zipIdx.map fun (c, i) => bb i (c.src.getLsbD 31 && !c.stopped)).sum) }
    else s)

/-- TRACE_COPY_DONE (R331): the capture is in the trace region, one of the newest 32. -/
def execTraceCopyDone (s : State) : Out :=
  .next (
    if s.trc.state = .done ∧ (s.trc.captures.head?.map (·.2.1)) ≠ some s.trc.trigAt then
      s.modTrc fun t =>
        let n := (t.saveCnt + 1) % 65536
        { t with saveCnt := n, captures := ((n, t.trigAt, t.chans.toList.map (·.samples)) :: t.captures).take 32 }
    else s)

/-! ### Packets (0x0190 to 0x0194, 0x01A0 to 0x01A3) -/

/-- The slot a level 6 packet names. -/
def Packet.slot (p : Packet) : LoopIx := finMod 128 (by decide) p.idx

/-- What refuses a loop packet (R335): a slot of KIND 0, or a disabled slot of an absent or depopulated head. -/
def State.loopRefused (s : State) (n : LoopIx) : Option Nat :=
  if loopKind s n = 0 then some 0x0203
  else match loopHead n with
    | some g =>
      if s.lpe.slots[n].en then none
      else if !s.headPresent g then some 0x0201
      else if s.head[g].map.depop then some 0x0202 else none
    | none => none

/-- A loop packet's rule behind its refusals. -/
def onLoop (p : Packet) (s : State) (body : State → PktRes) : PktRes :=
  match s.loopRefused p.slot with
  | some st => .fail s st
  | none => body s

/-- loop.status. -/
def execLoopStatus (p : Packet) (s : State) : Out :=
  .next (runPacket ⟨0x0190, [6], .read⟩ p s fun s => onLoop p s fun s => .report s (stLoop s p.slot))

/-- The words of a coefficient set after clamping under R333, with the indices it changed. -/
def clampCoefs (kind : Nat) (m : WordMap) : WordMap :=
  let low := fun (m : WordMap) (lo hi : Nat) => if (wget m hi).toInt < (wget m lo).toInt then wset m lo (wget m hi) else m
  let m := low (low m 6 7) 8 9
  if (kind = 3 ∨ kind = 4 ∨ kind = 6) ∧ (wget m 6).toInt < 0 then wset m 6 0 else m

/-- The first index of a loop.coef packet and the twelve indices it carries that exist (R333). -/
def coefFirst (p : Packet) : Nat := fld (coefWord0 p) 15 8
/-- See `coefFirst`. -/
def coefIndices (p : Packet) : List Nat := (List.range 12).filter fun i => decide (coefFirst p + i < 192)
/-- The band of a loop.coef packet. -/
def coefBand (p : Packet) : Fin 8 := finMod 8 (by decide) (fld (coefWord0 p) 2 0)

/-- A coefficient word as stored over the old one: KN runs from 0 to 1; SCALE holds its two shifts; the TAG word is the module's
(R334). -/
def coefStored1 (old : WordMap) (k : Nat) (v : Word) : Word :=
  if k = 3 then clampWord [fSg 31 0 0 (2 ^ 30)] 0 v
  else if k = 5 then clampWord [fIn 31 24 0 31, fIn 23 16 0 31] 0 v
  else if k = 18 then wget old 18 else v

/-- The words of a set after a loop.coef packet. -/
def coefWords (kind : Nat) (old : WordMap) (p : Packet) : WordMap :=
  clampCoefs kind ((coefIndices p).foldl (fun m i => wset m (coefFirst p + i) (coefStored1 old (coefFirst p + i) (p.w (i + 1)))) old)

/-- The set a loop.coef packet names replaced in the configuration area, its version raised where the packet commits. -/
def State.storeCoefs (s : State) (p : Packet) : State :=
  let old := s.coefSet p.slot (coefBand p)
  s.modNor fun x =>
    { x with
      coefs := aset x.coefs (p.slot, coefBand p)
        { version := if (coefWord0 p).getLsbD 31 then old.version + 1 else old.version
          words := coefWords (loopKind s p.slot) old.words p } }

/-- The set a loop.coef packet has written is taken over by a swap where the packet commits the band in use of an enabled slot, and the
reply waits for the swap (R334). -/
def State.commitCoefs (s : State) (p : Packet) : PktRes :=
  if (coefWord0 p).getLsbD 31 && coefBand p == s.bandInUse && s.lpe.slots[p.slot].en then
    { state := s.requestSwap p.slot (coefBand p) none, wait := true, clamp := s.coefClamp p.slot p
      result := ((s.coefStored p.slot p).map (·.2)).take 6 }
  else { state := s, clamp := s.coefClamp p.slot p, result := ((s.coefStored p.slot p).map (·.2)).take 6 }

/-- What loop.coef does where the slot is served: the reserved words 20 to 39 are refused. -/
def coefBody (p : Packet) (s : State) : PktRes :=
  if (coefIndices p).any fun i => decide (20 ≤ coefFirst p + i ∧ coefFirst p + i < 40) then .fail s 0x0105
  else (s.storeCoefs p).commitCoefs p

/-- loop.coef (R333, R334). -/
def opLoopCoef (p : Packet) (s : State) : PktRes := onLoop p s (coefBody p)
/-- loop.coef. -/
def execLoopCoef (p : Packet) (s : State) : Out := .next (runPacket ⟨0x0191, [6], .config⟩ p s (opLoopCoef p))

/-- loop.bank_swap (R335): the reply comes when the swap has taken effect or been refused; a slot that runs no computes answers
at once. -/
def opLoopBankSwap (p : Packet) (s : State) : PktRes :=
  onLoop p s fun s =>
    let s := s.requestSwap p.slot s.bandInUse none
    if s.lpe.slots[p.slot].en then { state := s, wait := true }
    else
      let s := s.swapBank p.slot
      let x := s.lpe.slots[p.slot]
      .report s [rLpStatus x, rBankTag x, nw x.swapCnt]
/-- loop.bank_swap. -/
def execLoopBankSwap (p : Packet) (s : State) : Out := .next (runPacket ⟨0x0192, [6], .action⟩ p s (opLoopBankSwap p))

/-- loop.config (R335). -/
def opLoopConfig (p : Packet) (s : State) : PktRes :=
  onLoop p s fun s =>
    let n := p.slot
    let w := clampWord [fIn 15 8 4 255, fIn 7 4 1 15] (rLpCtl s n) (p.w 0)
    let s := s.modLoop n fun x => { x with frzN := fld w 15 8, lostN := fld w 7 4 }
    let s := s.modNor fun x => { x with loopLim := vset x.loopLim n (fld w 15 8, fld w 7 4) }
    { state := s, clamp := clampBits [(0, p.w 0, w)], result := [w] }
/-- loop.config. -/
def execLoopConfig (p : Packet) (s : State) : Out := .next (runPacket ⟨0x0193, [6], .config⟩ p s (opLoopConfig p))

/-- loop.clear. -/
def opLoopClear (p : Packet) (s : State) : PktRes :=
  onLoop p s fun s =>
    let m := fld (p.w 0) 4 0
    let x := s.lpe.slots[p.slot]
    let s := s.modLoop p.slot fun x =>
      { x with
        debtMax := clr m 0 x.debtMax, lateCnt := clr m 1 x.lateCnt, fbCnt := clr m 2 x.fbCnt, clampCnt := clr m 3 x.clampCnt
        swapCnt := clr m 4 x.swapCnt }
    { state := s, clamp := clampBits [(0, p.w 0, nw m)]
      result := selected m [[nw x.debtMax], [nw x.lateCnt], [nw x.fbCnt], [nw x.clampCnt], [nw x.swapCnt]] }
/-- loop.clear. -/
def execLoopClear (p : Packet) (s : State) : Out := .next (runPacket ⟨0x0194, [6], .action⟩ p s (opLoopClear p))

/-- trace.config (R330): refused while ARMED or TRIGGERED. -/
def opTraceConfig (p : Packet) (s : State) : PktRes :=
  if s.trc.state = .armed ∨ s.trc.state = .triggered then .fail s 0x0203
  else
    let w0 := clampWord [fIn 28 16 0 8191, fAny 3 0] 0 (p.w 0)
    let c := fld w0 3 0
    let idx := (List.range 12).filter fun i => decide (c + i < 16)
    let new := idx.map fun i => clampWord [fAny 31 31, fAny 30 24, fAny 23 20] 0 (p.w (i + 1))
    let s := s.modTrc fun t =>
      { t with
        pre := fld w0 28 16
        chans := Vector.ofFn fun (i : Fin 16) =>
          if c ≤ i.val ∧ i.val < c + idx.length then { t.chans[i] with src := new.getD (i.val - c) 0 } else t.chans[i] }
    { state := s, clamp := clampBits ((0, p.w 0, w0) :: clampRun p 1 new), result := w0 :: new.take 5 }
/-- trace.config. -/
def execTraceConfig (p : Packet) (s : State) : Out := .next (runPacket ⟨0x01A0, [5], .config⟩ p s (opTraceConfig p))

/-- trace.arm (R329): the channels are cleared; ARMED. -/
def opTraceArm (p : Packet) (s : State) : PktRes :=
  let w0 := clampWord [fAny 2 0] 0 (p.w 0)
  let w1 := clampWord [fAny 15 0] 0 (p.w 1)
  let s := s.modTrc fun t =>
    { t with
      state := .armed, src := 0, short := 0, tPkt := w0.getLsbD 2, tEvt := w0.getLsbD 1, tAng := w0.getLsbD 0
      trigType := BitVec.ofNat 16 (fld w1 15 0)
      chans := t.chans.map fun c => { c with samples := [], count := 0, trigIdx := 0, firstIdx := 0, left := 0, stopped := false } }
  { state := s, clamp := clampBits [(0, p.w 0, w0), (1, p.w 1, w1)], result := [rTrcStatus s.trc] }
/-- trace.arm. -/
def execTraceArm (p : Packet) (s : State) : Out := .next (runPacket ⟨0x01A1, [5], .action⟩ p s (opTraceArm p))

/-- trace.trigger (R329): a trigger only while its enable bit is set. -/
def opTraceTrigger (p : Packet) (s : State) : PktRes :=
  let _ := p
  let s := if s.trc.tPkt then s.traceTrigger 0b100 else s
  .report s (rTrcStatus s.trc :: lohi s.trc.trigAt)
/-- trace.trigger. -/
def execTraceTrigger (p : Packet) (s : State) : Out := .next (runPacket ⟨0x01A2, [5], .action⟩ p s (opTraceTrigger p))

/-- trace.status. -/
def execTraceStatus (p : Packet) (s : State) : Out := .next (runPacket ⟨0x01A3, [5], .read⟩ p s fun s => .report s (stTrc s))

end Sys2Proof.Machine
end

