-- ==== Sys2Proof/Machine/Servo.lean ====
section
/-! DEFINITION. Servo positioning (spec/08_servo_positioning.md): demodulated positions, the servo sample of comparator 3 with its
modes, loss rules, guard and readiness, the heater and assist samples of comparator 4 (R299, R320 to R322), seeks, head activation,
and the servo packets. -/

namespace Sys2Proof.Machine
open Sys2Proof

/-! ### Demodulation (R264 to R272) -/

/-- The fine offset of R268 in 2^−30 track, and the parity of the nearest track (true odd). -/
def fineOffset (a b c d gain : Nat) : Int × Bool :=
  let n := if a + b = 0 then 0 else roundAway (((a : Int) - b) * qOne) (a + b)
  let q := if c + d = 0 then 0 else roundAway (((c : Int) - d) * qOne) (c + d)
  let odd := decide (q ≤ 0)
  let x := if n.natAbs ≤ q.natAbs then n / 2 else n.sign * (qOne - (q.natAbs : Int)) / 2
  let x := if odd then -x else x
  (roundAway (x * gain) (2 ^ 14), odd)

/-- The position of a reader in 1/256 track, and whether the decoded track was corrected (R269). -/
def readerPosition (t : Nat) (x : Int) (odd : Bool) (ofs : Int) : Int × Bool :=
  let fix := (t % 2 == 1) != odd
  let t' : Int := if fix then (if 0 < x then (t : Int) - 1 else t + 1) else t
  (t' * 256 + qshr x 22 - ofs, fix)

/-- What a reader's servo field gives: its position, whether the field is valid, whether it failed only the tolerance, whether the
track was corrected, and the reader's burst history. -/
structure ReaderResult where
  y : Int
  valid : Bool
  tol : Bool
  fix : Bool
  hist : BurstHist
  froze : Bool

/-- The burst history after a field with a SAM (R272). -/
def BurstHist.next (h : BurstHist) (a b c d : Nat) : BurstHist :=
  if h.run ≠ 0 ∧ h.a = a ∧ h.b = b ∧ h.c = c ∧ h.d = d then
    let n := min (h.run + 1) 255
    { h with run := n, frozen := decide (16 ≤ n) }
  else { a := a, b := b, c := c, d := d, run := 1, frozen := false }

/-- The tolerance of R270 on the predicted position in a mode, 1/256 track, with the predicted velocity in 2^−30 track per wedge: none
where no tolerance applies. -/
def Servo.tolerance (v : Servo) (vel : Int) : Option Int :=
  let tol : Int := (16 * fld v.cfg 15 8 : Nat)
  match v.mode with
  | .settle | .minuet | .blend => some tol
  | .seek => some (tol + ((qshr vel 22).natAbs : Int))
  | _ => none

/-- A reader's SAM is found: the sliced servo bits match the servo address mark at Hamming distance 2 or less (R264). -/
def samFound (f : ReaderField) : Bool :=
  decide (((List.range 16).filter fun i => (f.sam ^^^ servoAddressMark).getLsbD i).length ≤ 2)

/-- The upper bits of the root of n, found from bit 47 down: the first k of 48 bits. -/
def squareRoot (n : Nat) : Nat → Nat
  | 0 => 0
  | k + 1 =>
    let r := squareRoot n k
    if (r + 2 ^ (47 - k)) ^ 2 ≤ n then r + 2 ^ (47 - k) else r

/-- A burst's amplitude (R267): the magnitude of the single-bin discrete Fourier transform of its samples at a period given in 2^−28
sample, in the unit of `Config.burstScale`, as an unsigned 16-bit value. -/
def burstAmplitude (period : Nat) (l : List Int) : Nat :=
  let sums := l.zipIdx.foldl (fun (acc : Int × Int) (x, i) =>
    let w : Int := if period = 0 then 0 else 2 * 3622009729038561421 * ((i * 2 ^ 28 % period : Nat) : Int) / (period : Int)
    (acc.1 + x * fxCos w / 2 ^ 40, acc.2 + x * fxSin w / 2 ^ 40)) (0, 0)
  min 65535 (squareRoot ((sums.1 ^ 2 + sums.2 ^ 2).toNat) 48 * Config.burstScale / 2 ^ 20)

/-- The period of a burst, 4 servo bits, in 2^−28 sample: a reader's seed scaled by its BPW (R130, R267). -/
def burstPeriod (seed : Nat) (bpw : Nat) : Nat := seed * bpw / 2 ^ 18

/-- One reader's servo field (R264, R267 to R272), against the predicted head position in 1/256 track and the predicted velocity. -/
def readerField (h : HeadServo) (v : Servo) (r : Fin 2) (onTrack period : Nat) (failed : Bool) (pred vel : Int) (f : ReaderField) :
    ReaderResult :=
  let old := h.burst[r]
  if !samFound f then { y := 0, valid := false, tol := false, fix := false, hist := old, froze := false }
  else
    let (a, b) := (burstAmplitude period f.bursts[0], burstAmplitude period f.bursts[1])
    let (c, d) := (burstAmplitude period f.bursts[2], burstAmplitude period f.bursts[3])
    let hist := old.next a b c d
    let (x, odd) := fineOffset a b c d (fld h.pesGain 15 0)
    let ofs := if r = 0 then sfld h.rdrXofs 31 16 else sfld h.rdrXofs 15 0
    let (y, fix) := readerPosition (ungrayBits (servoBits f.track.toList)) x odd ofs
    let amp := fld v.cfg 7 0 * onTrack
    let other := decide (amp ≤ 16 * (a + b) ∧ amp ≤ 16 * (c + d)) && !hist.frozen && !failed
    let near := match v.tolerance vel with
      | some t => decide (((y - pred).natAbs : Int) ≤ t)
      | none => true
    { y := y, valid := other && near, tol := other && !near, fix := fix, hist := hist, froze := hist.frozen && !old.frozen }

/-! ### Head quantities (R273) -/

/-- MA_GAIN, 1/256 track. -/
def HeadServo.maGain (h : HeadServo) : Nat := fld h.maCfg 19 8
/-- MA_DISP: the displacement MA_OUT gives, 1/256 track. -/
def HeadServo.maDisp (h : HeadServo) : Int := qshr (h.maOut * (h.maGain : Int)) 11
/-- The head target with the ladder's off-track offset, which the microactuator's set-point takes and the arm's target does not (R208). -/
def HeadServo.target (h : HeadServo) : Int := (h.tgt : Int) + h.ladderOfs
/-- MA_USE, 1/256 track. -/
def Servo.maUse (v : Servo) : Nat := 16 * fld v.cfg 23 16

/-- The test of R274 for a head with a target: with it included, every active head's set-point is within MA_USE. -/
def State.activationFits (s : State) (g : Head) (tgt : Int) : Bool :=
  let a := s.engineOf g
  match s.targetSpan a [(g, tgt - s.head[g].srv.ofs)] with
  | some (lo, hi) => decide (hi - (lo + hi) / 2 ≤ (s.eng[a].srv.maUse : Int) ∧ (lo + hi) / 2 - lo ≤ (s.eng[a].srv.maUse : Int))
  | none => true

/-- HEAD_ACTIVATE (R273, R274): the head takes a target and becomes active, where the test allows it. -/
def State.activate (s : State) (g : Head) (tgt : Nat) : State :=
  if s.activationFits g tgt then
    (s.modHs g fun h => { h with tgt := tgt, active := true }).retarget (s.engineOf g)
  else s

/-! ### The servo sample (R275) -/

/-- The prediction of R285 for a sample, in 2^−30. -/
def State.predict (s : State) (a : Eng) : PosModel :=
  let m := s.eng[a].srv.model
  let x := s.lpe.slots[vcmSlot a]
  let acc := qmul (x.coef 13) (sat48 (x.notchW + x.uff - m.bias))
  { m with x := m.x + m.v + acc / 2, v := m.v + acc }

/-- One head's field of a wedge (R270 to R272, R289): its position, validity and counters; a freeze looks back to the wedge before
the identical run (R248). -/
def State.headSample (s : State) (a : Eng) (g : Head) (pred vel : Int) (f : Option HeadField) : State :=
  let v := s.eng[a].srv
  let h := s.head[g].srv
  let n := s.nor.heads[g]
  let none_ : ReaderField := { sam := 0, track := Vector.replicate 44 0, bursts := Vector.replicate 4 [] }
  let read := fun (r : Fin 2) (k : SliceIx) (f : ReaderField) =>
    readerField h v r n.onTrack[r] (burstPeriod s.slice[k].seed s.head[g].rd[r].bpw.toNat) (s.slice[k].state == .failed) pred vel f
  let ra := read 0 (sliceA g) ((f.map (·.ra)).getD none_)
  let rb := read 1 (sliceB g) ((f.map (·.rb)).getD none_)
  let valid := ra.valid || rb.valid
  let apart := ra.valid && rb.valid && decide (64 < (ra.y - rb.y).natAbs)
  let y :=
    if apart then (if (ra.y - pred).natAbs ≤ (rb.y - pred).natAbs then ra.y else rb.y)
    else if ra.valid && rb.valid then (ra.y + rb.y) / 2
    else if ra.valid then ra.y else rb.y
  let used := if apart then (if (ra.y - pred).natAbs ≤ (rb.y - pred).natAbs then 1 else 2)
    else (if ra.valid then 1 else 0) + (if rb.valid then 2 else 0)
  let k := fun (b c : Bool) => (if b then 1 else 0) + (if c then 1 else 0)
  let nf := k ra.froze rb.froze
  let ng := k ra.tol rb.tol
  let run := if valid then 0 else min 31 (h.hloss + 1)
  let vrun := if valid then h.validRun + 1 else 0
  let loses := decide (run = 24) && !h.lost
  let s := s.modHs g fun h =>
    { h with
      burst := #v[ra.hist, rb.hist], valid := valid, rdrUsed := used, hloss := run
      pos := if valid then pos30 y else h.pos
      pe := if valid then satInt 16 (y - h.target) else h.pe
      invalCnt := if valid then h.invalCnt else inc 32 h.invalCnt
      frzCnt := satAdd 16 h.frzCnt nf, grayErrCnt := satAdd 16 h.grayErrCnt ng
      grayFixCnt := satAdd 16 h.grayFixCnt (k ra.fix rb.fix)
      xdisCnt := if apart then inc 16 h.xdisCnt else h.xdisCnt
      validRun := if h.lost then vrun else 0
      lost := (h.lost && decide (vrun < 16)) || loses
      lostCnt := if loses then inc 32 h.lostCnt else h.lostCnt
      losses := if loses then s.rst.poh :: h.losses.filter (fun t => decide (s.rst.poh < t + 1024)) else h.losses }
  let b := hdBase s g
  let h' := s.head[g].srv
  let s := s.saturated (!valid && reaches 32 h.invalCnt) 0x08 3 g.val (b + 0x828) (nw h'.invalCnt)
  let s := s.saturated (decide (h.frzCnt < 65535 ∧ 65535 ≤ h.frzCnt + nf)) 0x08 3 g.val (b + 0x82C) (rFldCnt h')
  let s := s.saturated (decide (h.grayErrCnt < 65535 ∧ 65535 ≤ h.grayErrCnt + ng)) 0x08 3 g.val (b + 0x830) (rErrCnt h')
  let s := s.saturated (loses && reaches 32 h.lostCnt) 0x08 3 g.val (b + 0x834) (nw h'.lostCnt)
  let s := if nf = 0 then s
    else s.modWr g fun w => { w with lastClear := angleAdd (s.angle a) (-(16 * 65536 : Nat)) }
  if loses && decide (3 ≤ h'.losses.length) then s.headFail g else s

/-- The off-track guard at a sample (R243, R248, R289): a head without a valid field counts as beyond the limit. -/
def State.offTrack (s : State) (a : Eng) (g : Head) : State :=
  let h := s.head[g].srv
  let w := s.head[g].wr
  let out := !h.valid || decide (s.offTrackLimit a < h.pe.natAbs)
  if out then
    if w.otwTrip then s
    else
      let s := s.modWr g fun w => { w with otwTrip := true, otwCnt := if w.run.isSome then inc 16 w.otwCnt else w.otwCnt }
      let s := s.saturated (w.run.isSome && reaches 16 w.otwCnt) 0x07 4 a.val (engBase a + 0x6010C + (s.localOf g).val * 0x10)
        (mkw [bf 31 16 s.head[g].wr.otwCnt, bf 15 0 s.head[g].wr.asmCnt])
      s.forceWriteOff g w.lastClear false false
  else
    s.modWr g fun w =>
      { w with
        otwTrip := false, lastClear := s.angle a
        suspects := w.suspects.filter fun x => match x.written with
          | some t => decide (0 < angleDiff t (s.angle a))
          | none => true }

/-- Readiness of R282 at a sample. -/
def HeadServo.ready (h : HeadServo) (rdy : Word) (counts : Bool) : HeadServo :=
  let ok := counts && h.valid && !h.lost
  let w := if ok && decide (h.pe.natAbs ≤ fld rdy 31 24) then min 15 (h.wrRun + 1) else 0
  let r := if ok && decide (h.pe.natAbs ≤ fld rdy 19 12) then min 15 (h.rdRun + 1) else 0
  { h with wrRun := w, rdRun := r, wrReady := decide (0 < w ∧ fld rdy 23 20 ≤ w), rdReady := decide (0 < r ∧ fld rdy 11 8 ≤ r) }

/-- The hand-over test of R279. -/
def Servo.handOk (v : Servo) : Bool :=
  decide (v.toGo.natAbs ≤ fld v.ho 31 24 ∧ (qshr v.model.v 22).natAbs ≤ fld v.ho 23 16)

/-- SETTLE_D in 1/256 track. -/
def Servo.settleD (v : Servo) : Nat := 256 * fld v.ho 15 0

/-- What a sample with an arm position makes of the mode (R276 to R283, R288, R647), and whether it is a hand-over sample. -/
def Servo.advance (v : Servo) (blendK : Nat) (middle : Nat) (anyActive : Bool) : Servo × Bool :=
  let v0 := { v with lossRun := 0 }
  let seekOrSettle := fun (v : Servo) =>
    if v.toGo.natAbs ≤ v.settleD then { v with mode := .settle } else { v with mode := .seek }
  match v.mode with
  | .loading =>
    let v := { v0 with armTgt := if anyActive then v.armTgt else middle, seekCnt := satAdd 32 v.seekCnt 1, fromHold := false }
    ({ v with mode := .seek }, false)
  | .hold =>
    let v := { v0 with seekDue := false }
    if v.seekDue then ({ v with mode := .seek, fromHold := false }, false)
    else if v.toGo.natAbs ≤ v.settleD ∧ v.handOk then ({ v with mode := .minuet, fromHold := true }, true)
    else ({ seekOrSettle v with fromHold := false }, false)
  | .seek => ({ seekOrSettle v0 with fromHold := false }, false)
  | .settle => ({ v0 with fromHold := false }, v0.handOk)
  | .minuet => if v.seekDue then ({ v0 with mode := .seek, seekDue := false, fromHold := false }, false) else (v0, false)
  | .blend =>
    if v.seekDue then ({ v0 with mode := .seek, seekDue := false, fromHold := false }, false)
    else if 4 ≤ blendK then ({ v0 with mode := .minuet }, false) else (v0, false)
  | _ => (v0, false)

/-- The load of an engine is complete (R647): a packet that waits for it replies. -/
def State.loadDone (s : State) (a : Eng) : State :=
  if s.rst.act[a].state = .loading then
    let s := s.modAct a fun x => { x with state := .loaded, tries := 0, loadCnt := satAdd 32 x.loadCnt 1 }
    let s := s.replyWaiting 0x0242 (fun p => p.idx == a.val) 0
      (fun s _ => [rActStatus s.rst.act[a], rSrvStatus s a, nw s.rst.act[a].loadCnt])
      fun p => clampBits [(0, p.w 0, clampWord [fAny 0 0] 0 (p.w 0))]
    if s.rst.act[a].reloadAfter then
      let s := s.modAct a fun x => { x with reloadAfter := false }
      s.replyWaiting 0x0241 (fun p => p.w 0 == 2 && p.w 1 == nw a.val) 0 fun s _ => [rActStatus s.rst.act[a]]
    else s
  else s

/-- Microactuator of a head at a sample (R281, R287, R289): its open-loop value, set-point and measurement. -/
def State.maSample (s : State) (a : Eng) (g : Head) (at_ : Angle) (pred : Int) : State :=
  let n := maSlot g
  let h := s.head[g].srv
  let v := s.eng[a].srv
  let sp := h.target - h.ofs - v.armTgt
  let track := v.mode == .minuet || v.mode == .blend
  let s := s.modLoop n fun x =>
    { x with
      spTgt := normal h.target x.eSh
      openVal := if x.lmode = .hold then x.openVal else if h.maGain = 0 then 0 else roundAway (sp * qOne) h.maGain
      lmode := if !track && !(x.lmode == .hold && (h.lost || decide (5 ≤ max v.lossRun h.hloss))) && x.lmode != .off then .open_ else x.lmode
      blendK := if track then x.blendK else 0 }
  let x := s.lpe.slots[n]
  let hand := track && !h.lost && decide (h.hloss < 5 ∧ v.lossRun < 5) && (x.lmode == .open_ || x.lmode == .hold)
  let s := if h.notchDue && x.lmode == .blend && x.blendK == 4 then s.requestSwap n s.bandInUse none else s
  s.latch n at_ (if h.valid then (h.pos : Int) else pred + h.ofs + h.maDisp) false hand

/-- Values of srv.head that wait take effect at a sample at which the head is not active (R296). -/
def HeadServo.settleCfg (h : HeadServo) : HeadServo :=
  match h.pendingCfg with
  | some (x, r, g, m) => if h.active then h else { h with xofs := x, rdrXofs := r, pesGain := g, maCfg := m, pendingCfg := none }
  | none => h

/-- A wedge without an arm position (R287, R291): LOSS_RUN, the write inhibit, HOLD from the fifth, UNLOAD at the twenty-fourth. -/
def State.armLost (s : State) (a : Eng) : State :=
  let v := s.eng[a].srv
  let n := min 31 (v.lossRun + 1)
  let s := (s.headsOf a).foldl (fun s g => s.forceWriteOff g s.eng[a].wrg.lastWedge false false)
    (s.modWrg a fun w => { w with wedgeMissing := true })
  let s := s.modSrv a fun v =>
    { v with
      armValid := false, lossRun := n, lossCnt := inc 32 v.lossCnt
      mode := if v.mode = .blend then .minuet else v.mode }
  let s := s.modLoop (vcmSlot a) fun x => if x.lmode = .blend then { x with lmode := .closed, blendK := 0, old := none } else x
  let s := s.saturated (reaches 32 v.lossCnt) 0x08 4 a.val (engBase a + 0x30024) (nw s.eng[a].srv.lossCnt)
  let s := if n = 5 then
      let s := s.modSrv a fun v => { v with mode := .hold }
      s.modLoop (vcmSlot a) fun x => { x with lmode := .hold, openVal := x.out - x.uff }
    else s
  if n = 24 then
    let s := s.modSrv a fun v => { v with unloadCnt := inc 32 v.unloadCnt }
    (s.pavane a).saturated (reaches 32 v.unloadCnt) 0x08 4 a.val (engBase a + 0x30028) (nw s.eng[a].srv.unloadCnt)
  else s

/-- The modes in which the loss rules of R287 act. -/
def VcmMode.tracking (m : VcmMode) : Bool :=
  match m with
  | .seek => true
  | .settle => true
  | .minuet => true
  | .blend => true
  | .hold => true
  | _ => false

/-- The arm position: the mean over the heads with a valid field that are not SRV_LOST (R273, R289). -/
def State.armPosition (s : State) (a : Eng) : Option Int :=
  let l := (s.headsOf a).filterMap fun g =>
    let h := s.head[g].srv
    if h.valid && !h.lost && !s.head[g].map.depop then some ((h.pos : Int) - h.ofs - h.maDisp) else none
  if l.isEmpty then none else some (roundAway l.sum l.length)

/-- The servo sample of a wedge (R275 to R291, R649): fields, arm position, model, mode, guards, readiness; the loops latch at S. Comparator 3's
HEAD_MASK selects the heads (R69). -/
def State.servoSample (s : State) (a : Eng) (fields : List HeadField) (at_ : Angle) : State :=
  let mode := s.eng[a].srv.mode
  if mode = .unloaded then s
  else
    let m := s.predict a
    let armPred := qshr m.x 22
    let s := (s.headsOf a).foldl (fun s g => s.modHs g HeadServo.settleCfg) s
    let s := (s.headsIn a s.eng[a].reel.cmp[(3 : CmpIx)].headMask).foldl (fun s g =>
      if s.head[g].map.depop then s
      else
        let h := s.head[g].srv
        s.headSample a g (armPred + h.ofs + h.maDisp) m.v (fields.find? fun f => s.globalHead a f.head.val == some g)) s
    let s := s.retarget a
    let s : State := match s.armPosition a with
      | some y =>
        let e := y * 2 ^ 22 - m.x
        let x := s.lpe.slots[vcmSlot a]
        let fresh := mode == .loading
        let s := s.modSrv a fun v =>
          { v with
            armPos := pos30 y, armValid := true
            model := if fresh then { x := y * 2 ^ 22, v := 0, bias := 0 }
              else { x := m.x + qmul (x.coef 14) e, v := m.v + qmul (x.coef 15) e, bias := sat48 (m.bias - qmul (x.coef 16) e) } }
        let s := s.modWrg a fun w => { w with wedgeMissing := false, lastWedge := s.angle a }
        let reg := s.media.regions[a][0]
        let anyActive := (s.headsOf a).any fun g => s.head[g].srv.active
        let (v, hand) := s.eng[a].srv.advance x.blendK (128 * (reg.firstTrk + reg.lastTrk)) anyActive
        let s := s.modSrv a fun _ => v
        let s : State := if mode = .blend ∧ v.mode = .minuet ∧ v.notchDue then s.requestSwap (vcmSlot a) s.bandInUse none else s
        let s := s.modLoop (vcmSlot a) fun x =>
          { x with spTgt := normal v.armTgt x.eSh, blendK := if v.mode = .blend ∨ v.mode = .minuet then x.blendK else 0 }
        s.latch (vcmSlot a) at_ y false hand
      | none =>
        let s := s.modSrv a fun v => { v with model := m }
        let s := if mode.tracking then s.armLost a else s.modSrv a fun v => { v with armValid := false }
        let (f, s) := s.fresh
        -- the current of the load and unload procedures follows the back-EMF, which no command carries (log 15)
        let s : State := match s.eng[a].srv.mode with
          | .loading => s.modLoop (vcmSlot a) fun x => { x with openVal := signedOf 31 f }
          | .unload => s.modSrv a fun v => { v with out := clampInt (-10922) 10922 (signedOf 16 f) }
          | _ => s
        s.latch (vcmSlot a) at_ armPred false false
    let v := s.eng[a].srv
    let s := (s.headsIn a s.eng[a].reel.cmp[(3 : CmpIx)].headMask).foldl (fun s g =>
      if s.head[g].map.depop then s
      else
        let s := s.offTrack a g
        let s := s.modHs g fun h => h.ready v.rdy (v.mode == .minuet && v.lossRun == 0)
        s.maSample a g at_ armPred) s
    (if (s.headsOf a).any fun g => s.head[g].srv.rdReady then s.loadDone a else s).settlePark a

/-! ### Heater and assist samples (R299, R320 to R322) -/

/-- The first write gate of the head's run has gone on. -/
def HeadWrite.gated (w : HeadWrite) : Bool := (w.run.bind (·.gateSeq)).isSome

/-- The heater sample of a head (R320): the set-point and the transition it is. -/
def State.heaterSample (s : State) (a : Eng) (g : Head) (at_ : Angle) : State :=
  let n := htrSlot g
  let w := s.head[g].wr
  let m := s.head[g].map
  let k := s.eng[a].links[linkOf (s.localOf g)]
  let x := s.lpe.slots[n]
  let (hand, wr) :=
    if w.writeReady ∧ w.gated ∧ !x.wrSp then (true, true)
    else if !w.writeReady ∧ (x.wrSp || x.lmode == .open_) then (true, false)
    else (false, x.wrSp)
  let rd := m.htrRd + s.head[g].srv.ladderBias
  let s := s.modLoop n fun x => { x with wrSp := wr, spTgt := normal ((if wr then m.htrWr else rd : Nat) : Int) x.eSh }
  s.latch n at_ (k.htrSense[afeHead (s.localOf g)].toNat : Int) k.sampleLost hand

/-- The assist sample of a head (R320): its loop closes on ASM_TGT at the first sample that reads a status frame after the run's
first write gate. -/
def State.assistSample (s : State) (a : Eng) (g : Head) (at_ : Angle) : State :=
  let n := asstSlot g
  let w := s.head[g].wr
  let k := s.eng[a].links[linkOf (s.localOf g)]
  let x := s.lpe.slots[n]
  let hand := x.lmode == .open_ && !k.sampleLost && (match w.run.bind (·.gateSeq) with
    | some q => seqAfter k.statSeq q
    | none => false)
  let s := s.modLoop n fun x =>
    { x with spTgt := normal (fld w.band.asst2 11 0 : Int) x.eSh, openVal := unitsOut (s.assistWr g) }
  s.latch n at_ (k.assistMon[afeHead (s.localOf g)].toNat : Int) k.sampleLost hand

/-- The samples of comparator 4 on an engine, of the heads of its HEAD_MASK (R69). -/
def State.heatSamples (s : State) (a : Eng) (at_ : Angle) : State :=
  let s := (s.headsIn a s.eng[a].reel.cmp[(4 : CmpIx)].headMask).foldl (fun s g =>
    if s.head[g].map.depop then s else (s.heaterSample a g at_).assistSample a g at_) s
  (fins 2).foldl (fun s (l : LinkIx) => s.modLink a l fun k => { k with sampleLost := true }) s

/-! ### Seeks (R283) -/

/-- SEEK_REQUEST (R273, R283): a head's target, and the seek of its arm. UNLOAD overrides it, and an engine whose arm is parked or
leaving the ramp does not seek. -/
def execSeekRequest (a : Eng) (h : LHead) (tgt : BitVec 30) (s : State) : Out :=
  .next (
    let v := s.eng[a].srv
    match s.globalHead a h.val with
    | none => s
    | some g =>
      if v.mode.tracking && !s.head[g].map.depop && s.pwr.eng[a].seekDraw != 0 && s.pwr.late.isNone then
        let s := (s.modHs g fun x => { x with tgt := tgt.toNat }).retarget a
        s.modSrv a fun v =>
          let v := { v with seekCnt := satAdd 32 v.seekCnt 1, galopSet := s.pwr.eng[a].galop }
          match v.mode with
          | .seek | .settle => if v.toGo.natAbs ≤ v.settleD then v else { v with mode := .seek }
          | _ => { v with seekDue := true }
      else s)

/-! ### Packets (0x0180 to 0x0186) -/

/-- srv.status. -/
def execSrvStatus (p : Packet) (s : State) : Out :=
  .next (runPacket ⟨0x0180, [4], .read⟩ p s fun s => .report s (stSrv s p.eng))

/-- SRV_RDY after clamping and R295. -/
def srvRdyWord (old sent : Word) : Word :=
  let w := clampWord [fIn 31 24 4 30, fIn 23 20 1 15, fIn 19 12 8 64, fIn 11 8 1 15] old sent
  setFld w 31 24 (min (fld w 31 24) (fld w 19 12))

/-- srv.config (R295). -/
def opSrvConfig (p : Packet) (s : State) : PktRes :=
  let v := s.eng[p.eng].srv
  let c := clampWord [fIn 31 28 2 6, fIn 23 16 16 56, fIn 15 8 8 64, fIn 7 0 1 15] v.cfg (p.w 0)
  let r := srvRdyWord v.rdy (p.w 1)
  let h := clampWord [fIn 31 24 16 255, fIn 23 16 4 255, fIn 15 0 4 1024] v.ho (p.w 2)
  { state := s.modSrv p.eng fun v => { v with cfg := c, rdy := r, ho := h }
    result := [c, r, h], clamp := clampBits [(0, p.w 0, c), (1, p.w 1, r), (2, p.w 2, h)] }
/-- srv.config. -/
def execSrvConfig (p : Packet) (s : State) : Out := .next (runPacket ⟨0x0181, [4], .config⟩ p s (opSrvConfig p))

/-- srv.quadrille: the entry of the engine itself reads zero and ignores writes. -/
def opSrvQuadrille (p : Packet) (s : State) : PktRes :=
  let k : Vector Word 4 := Vector.ofFn fun (b : Fin 4) => if b = p.eng then 0 else p.w b.val
  { state := s.modSrv p.eng fun v => { v with qdK := k, qdRv := p.w 4 }
    result := k.toList ++ [p.w 4], clamp := clampBits (k.toList.zipIdx.map fun (v, i) => (i, p.w i, v)) }
/-- srv.quadrille. -/
def execSrvQuadrille (p : Packet) (s : State) : Out := .next (runPacket ⟨0x0182, [4], .config⟩ p s (opSrvQuadrille p))

/-- The fields of a notch register. -/
def notchFields : List Field := [fAny 31 16, fIn 15 8 1 60, fIn 7 0 8 255]

/-- srv.notch (R294, R296). -/
def opSrvNotch (p : Packet) (s : State) : PktRes :=
  if p.lvl = 4 then
    let v := s.eng[p.eng].srv
    let n : Vector Word 4 := Vector.ofFn fun (i : Fin 4) => clampWord notchFields v.notch[i] (p.w i.val)
    let s := s.modSrv p.eng fun v => { v with notch := n, notchDue := true }
    let s := s.modNor fun x => { x with engs := vmod x.engs p.eng fun e => { e with vcmNotch := n } }
    { state := s, result := n.toList, clamp := clampBits (n.toList.zipIdx.map fun (v, i) => (i, p.w i, v)) }
  else if s.head[p.hd].map.depop then .fail s 0x0202
  else
    let h := s.head[p.hd].srv
    let n : Vector Word 2 := Vector.ofFn fun (i : Fin 2) => clampWord notchFields h.maNotch[i] (p.w i.val)
    let s := s.modHs p.hd fun h => { h with maNotch := n, notchDue := true }
    let s := s.modNor fun x => { x with heads := vmod x.heads p.hd fun e => { e with maNotch := n } }
    { state := s, result := n.toList, clamp := clampBits (n.toList.zipIdx.map fun (v, i) => (i, p.w i, v)) }
/-- srv.notch. -/
def execSrvNotch (p : Packet) (s : State) : Out := .next (runPacket ⟨0x0183, [3, 4], .config⟩ p s (opSrvNotch p))

/-- srv.head (R296): stored at once in the NOR configuration area; the head's registers follow at the next sample at which it is
not active. -/
def opSrvHead (p : Packet) (s : State) : PktRes :=
  if s.head[p.hd].map.depop then .fail s 0x0202
  else
    let g := clampWord [fAny 31 16, fAny 15 0] 0 (p.w 2)
    let m := clampWord [fIn 19 8 512 1536] s.head[p.hd].srv.maCfg (p.w 3)
    let s := s.modHs p.hd fun h => { h with pendingCfg := some (p.w 0, p.w 1, g, m) }
    let s := s.modNor fun x =>
      { x with heads := vmod x.heads p.hd fun e => { e with xofs := p.w 0, rdrXofs := p.w 1, pesGain := g, maCfg := m } }
    { state := s, result := [p.w 0, p.w 1, g, m], clamp := clampBits [(2, p.w 2, g), (3, p.w 3, m)] }
/-- srv.head. -/
def execSrvHead (p : Packet) (s : State) : Out := .next (runPacket ⟨0x0184, [3], .config⟩ p s (opSrvHead p))

/-- srv.hstatus. -/
def execSrvHstatus (p : Packet) (s : State) : Out :=
  .next (runPacket ⟨0x0185, [3], .read⟩ p s fun s => .report s (stSrvH s p.hd))

/-- srv.clear. -/
def opSrvClear (p : Packet) (s : State) : PktRes :=
  let m := fld (p.w 0) 5 0
  let lh := clampWord [fIn 3 0 0 11] 0 (p.w 1)
  let k := fld (p.w 2) 6 0
  let v := s.eng[p.eng].srv
  let g := s.globalHead p.eng lh.toNat
  let h : HeadServo := match g with
    | some g => s.head[g].srv
    | none => {}
  let vals := [v.lossCnt, v.unloadCnt, v.hoBlendCnt, v.seekCnt, v.markAltCnt, v.idxErrCnt, h.invalCnt, h.frzCnt, h.grayFixCnt,
    h.grayErrCnt, h.xdisCnt, h.lostCnt, h.losses.length]
  let s := s.modSrv p.eng fun v =>
    { v with
      lossCnt := clr m 0 v.lossCnt, unloadCnt := clr m 1 v.unloadCnt, hoBlendCnt := clr m 2 v.hoBlendCnt, seekCnt := clr m 3 v.seekCnt
      markAltCnt := clr m 4 v.markAltCnt, idxErrCnt := clr m 5 v.idxErrCnt }
  let s := match g with
    | some g => s.modHs g fun h =>
        { h with
          invalCnt := clr k 0 h.invalCnt, frzCnt := clr k 1 h.frzCnt, grayFixCnt := clr k 2 h.grayFixCnt
          grayErrCnt := clr k 3 h.grayErrCnt, xdisCnt := clr k 4 h.xdisCnt, lostCnt := clr k 5 h.lostCnt
          losses := if k.testBit 6 then [] else h.losses }
    | none => s
  { state := s, clamp := clampBits [(0, p.w 0, nw m), (1, p.w 1, lh), (2, p.w 2, nw k)]
    result := selected (m + 64 * k) (vals.map fun v => [nw v]) }
/-- srv.clear. -/
def execSrvClear (p : Packet) (s : State) : Out := .next (runPacket ⟨0x0186, [4], .action⟩ p s (opSrvClear p))

end Sys2Proof.Machine
end

