-- ==== Sys2Proof/Machine/Spindle.lean ====
section
/-! DEFINITION. The meanings of the spindle drive's commands (spec/10_spindle.md): commutation, skip and predict, loss of lock,
start, speed, n_ref and RAMP, Bolero's evaluation, braking, and the spindle packets. -/

namespace Sys2Proof.Machine
open Sys2Proof

/-! ### Parameters in force -/

/-- POLE_PAIRS. -/
def Spindle.polePairs (p : Spindle) : Nat := max 1 (fld p.cfg 31 28)
/-- Steps of one mechanical revolution. -/
def Spindle.revSteps (p : Spindle) : Nat := 6 * p.polePairs

/-- The integer square root, the bits from the k-th down still to be tried. -/
def isqrtFrom (n : Nat) : Nat → Nat → Nat
  | 0, r => r
  | k + 1, r => if (r + 2 ^ k) * (r + 2 ^ k) ≤ n then isqrtFrom n k (r + 2 ^ k) else isqrtFrom n k r

/-- The integer square root of a number below 2^80. -/
def isqrt (n : Nat) : Nat := isqrtFrom n 40 0

/-- N_PAV (R368): 30 / π × sqrt(377² + 2 × (PAV_E + 0.4 × P_DRAG) / J) rounded up, J in 10^−6 kg m², P_DRAG in 0.1 W, PAV_E in
0.05 J; π² as 9.869604401089358618834491. -/
def pavaneSpeed (j pDrag pavE : Nat) : Nat :=
  let num := 900 * (142129 * j + 100000 * pavE + 80000 * pDrag) * 10 ^ 24
  let den := 9869604401089358618834491 * j
  let q := (num + den - 1) / den
  let r := isqrt q
  if r * r = q then r else r + 1

/-- The least PAV_E of R367 for a number of engines, in 0.05 J: 1.2 × (0.25 J × engines + 0.60 J), rounded up. -/
def pavaneEnergy (engines : Nat) : Nat := 6 * engines + 15

/-- n_ref in 2^−32 of 1/16 rpm. -/
def Spindle.refUnits (p : Spindle) : Nat := p.nRef * 2 ^ 32 + p.nRefFrac
/-- n_ref set in those units. -/
def Spindle.setRef (p : Spindle) (n : Nat) : Spindle := { p with nRef := n / 2 ^ 32, nRefFrac := n % 2 ^ 32 }

/-- Speed in 1/16 rpm of a number of steps that took a number of clocks (R354). -/
def Spindle.speedOf (p : Spindle) (steps clocks : Nat) : Nat :=
  if clocks = 0 then 0 else (roundDiv (16 * 60 * 3000000000 * steps : Nat) (p.revSteps * clocks)).toNat

/-! ### Entering states (R345 to R353) -/

/-- The repeating comparators of the owners SRV, ARM, LOOP and PWR armed where they are not (R69): servo gates, set-point frames,
loop samples and the epoch, each at its angle of a wedge and one wedge apart. -/
def State.armRepeating (s : State) (a : Eng) : State :=
  let l := [((0 : CmpIx), 0xF100), (1, 0x0B00), (2, 0x0400), (3, 0x0B00), (4, 0x8000), (8, 0x0000)]
  l.foldl (fun s (c, f) =>
    if s.eng[a].reel.cmp[c].armed then s
    else
      let d := (f + 65536 - s.angle a % 65536) % 65536
      s.armFixed a c ((s.angle a + d) % angleModulus) 256) s

/-- Timelines in STOPPED enter SPINDLE as the drive reports commutation (R58, R59, R353). -/
def State.reportCommutation (s : State) : State :=
  (fins 4).foldl (fun s (a : Eng) =>
    if s.enginePresent a && s.eng[a].reel.state == .stopped then
      let s := s.enterIdle a .spindle
      (s.modReel a fun r => { r with fracInc := s.newInc a }).armRepeating a
    else s) s

/-- Every timeline enters STOPPED as the drive reports standstill (R57 to R59, R226, R353). -/
def State.reportStandstill (s : State) : State :=
  (fins 4).foldl (fun s (a : Eng) =>
    if s.enginePresent a then (s.stopTimeline a).modReel a fun r => { r with fracInc := 0 } else s) s

/-- STOPPED: the drive is off (R351, R353, R371). -/
def State.enterStopped (s : State) : State :=
  let s := s.modSpn fun p =>
    { p with
      state := .stopped, stopping := false, slowing := false, startRamp := .none, icmd := 0, speed := 0, nRef := 0, nRefFrac := 0
      ramp := 0, goodRun := 0, got := none, cross := [], steps := [], settleRun := 0, tgtRun := 0 }
  (s.disableSlot spnSlot).reportStandstill

/-- Every actuator still off its ramp unloads by Pavane (R345, R353). -/
def State.pavaneAll (s : State) : State :=
  (fins 4).foldl (fun s (a : Eng) => if s.enginePresent a then s.pavane a else s) s

/-- BRAKE (R351, R353): it begins with 20 ms of winding short; n_ref and RAMP rest. -/
def State.enterBrake (s : State) (after : AfterBrake) : State :=
  s.pavaneAll.modSpn fun p =>
    { p with
      state := .brake, brakePhase := .short, afterBrake := if p.stopping then .stop else after, icmd := 0, goodRun := 0, ramp := 0
      slowing := false, got := none, cross := [], steps := [], skipRun := 0, makeWindow := false, predSteps := 0, settleRun := 0
      tgtRun := 0 }

/-- ALIGN (R352, R370): an attempt begins; ALIGN_I through one phase pair for ALIGN_T. SPN_START applies. -/
def State.enterAlign (s : State) : State :=
  s.modSpn fun p =>
    { p with
      state := .align, start := p.startStored, startCnt := satAdd 32 p.startCnt 1, goodRun := 0, speed := 0
      icmd := (roundDiv (fld p.startStored 23 16 * 32768 : Nat) 250).toNat }

/-- DETECT (R350, R370): a start series begins; SPN_CFG applies. -/
def State.spindleStart (s : State) : State :=
  s.modSpn fun p =>
    { p with
      state := .detect, cfg := p.cfgStored, tries := 0, phasePair := 0, goodRun := 0, steps := [], cross := [], got := none
      startRamp := .target, stopping := false, stopAfter := false, shutStop := false, reverse := false, icmd := 0 }

/-- The spindle angle begins again from the position RUN starts with, while the stamps have advanced by prediction (R349): a learned
phase of an engine in SPINDLE is taken against the new angle, so that the stamp goes on from where it stands (R60). -/
def State.keepPhase (s : State) : State :=
  let comm := s.spn.commAngle * revUnits / s.spn.revSteps
  (fins 4).foldl (fun s (a : Eng) =>
    let r := s.eng[a].reel
    if r.state = .spindle ∧ r.phase.isSome then
      s.modReel a fun r => { r with phase := some ((r.stamp.linear % revUnits + revUnits - comm % revUnits) % revUnits) }
    else s) s

/-- RUN at a speed (R347, R352, R353): n_ref starts from the measured speed and the SPINDLE slot runs (R298). -/
def State.enterRun (s : State) (speed : Nat) : State :=
  let s := s.modSpn fun p =>
    { p with
      state := .run, speed := speed, nRef := speed, nRefFrac := 0, skipRun := 0, predSteps := 0, goodRun := 0, makeWindow := false
      commCount := 0, got := none, cross := [], steps := p.steps.take 6, lastSampleAt := s.mtime, tries := 0 }
  ((s.enableSlot spnSlot .closed).keepPhase).reportCommutation

/-- A start attempt fails (R352): BRAKE and the next phase pair, or FAULT after START_TRIES. -/
def State.startFailed (s : State) : State :=
  let s := s.modSpn fun p => { p with tries := p.tries + 1, phasePair := (p.phasePair + 1) % 3 }
  if fld s.spn.start 7 4 ≤ s.spn.tries then
    let full := reaches 32 s.spn.startFailCnt
    let s := s.modSpn fun p =>
      { p with state := .fault, startFailCnt := inc 32 p.startFailCnt, icmd := 0, goodRun := 0, startRamp := .none, steps := [] }
    let s := s.condSpn
    s.saturated full 0x0A 5 0 0x20058 (nw s.spn.startFailCnt)
  else s.enterBrake .start

/-- Losses of lock within the power-on hour that ends now (R348). -/
def State.recentLosses (s : State) : Nat := (s.spn.lockLosses.filter fun t => decide (s.rst.poh - t < 1024)).length

/-- Re-synchronisation in CATCH (R347, R348). -/
def State.resync (s : State) : State :=
  let p := s.spn
  let n := p.speedOf p.steps.length p.steps.sum
  if !p.reverse && decide (3600 * 16 ≤ n) && decide (s.recentLosses < 3) && !(p.stopping && p.startRamp == .target) then
    let full := reaches 32 p.catchCnt
    let s := (s.enterRun n).modSpn fun p => { p with catchCnt := inc 32 p.catchCnt }
    s.saturated full 0x0A 5 0 0x20050 (nw s.spn.catchCnt)
  else (s.modSpn fun p => { p with tries := 0, phasePair := 0, startRamp := .target }).enterBrake .start

/-- What DETECT found (R350): crossings, direction, speed in 1/16 rpm. -/
def State.detected (s : State) (crossings : Nat) (reverse : Bool) (speed : Nat) : State :=
  if s.spn.stopping then (if crossings < 3 then s.enterStopped else s.enterBrake .stop)
  else if crossings < 3 then s.enterAlign
  else if !reverse ∧ 3600 * 16 < speed then s.modSpn fun p => { p with state := .catch_, reverse := false }
  else s.enterBrake .start

/-! ### Crossings (R338 to R347, R350, R352) -/

/-- One step in datapath clocks (R339): the mean of the last six step intervals, corrected for the change of n_ref over the coming
step, a step being 720 / (6 × POLE_PAIRS) wedges of RAMP (log 71). -/
def Spindle.step (p : Spindle) : Nat :=
  let l := p.steps.take 6
  let unit : Nat := 2 ^ 32 * p.revSteps
  (roundDiv ((l.sum : Int) * ((unit : Int) - 720 * p.ramp)) (unit * max 1 l.length)).toNat

/-- The predicted crossing: the last crossing plus one step (R339). -/
def Spindle.predicted (p : Spindle) : MTime := p.lastCross + p.step

/-- A crossing lies within ±ZC_TOL of the prediction (R339), ZC_TOL in 1/16 of a step; without a step interval each one does. -/
def Spindle.accepts (p : Spindle) (at_ : MTime) : Bool :=
  p.steps.isEmpty || decide (16 * ((at_ : Int) - p.predicted).natAbs ≤ fld p.cfg 11 8 * p.step)

/-- The crossing the drive commutates on (R340, R341, R344): the accepted one in RUN, else the predicted one. -/
def Spindle.commFrom (p : Spindle) : MTime := if p.state = .run ∧ p.got.isSome then p.lastCross else p.predicted

/-- The commutation instant (R340): the crossing plus half a step, less ADV_K × 2 × n / 9 600 electrical degrees, 60 of them a step. -/
def Spindle.commDue (p : Spindle) : MTime :=
  p.commFrom + p.step / 2 - p.step * (fld p.cfg 7 4 * 2 * p.speed) / (16 * 9600 * 60)

/-- The window of the crossing due has passed without an accepted crossing (R343). -/
def Spindle.missDue (p : Spindle) (now : MTime) : Bool :=
  p.got.isNone && decide (16 * p.predicted + fld p.cfg 11 8 * p.step < 16 * now)

/-- The interval of a crossing noted, the last k kept. -/
def Spindle.note (p : Spindle) (k interval : Nat) : Spindle := { p with steps := (interval :: p.steps).take k }

/-- A made window is used (R342): FORCE_CNT. -/
def Spindle.useWindow (p : Spindle) : Spindle :=
  if p.makeWindow then { p with makeWindow := false, forceCnt := satAdd 32 p.forceCnt 1 } else p

/-- A crossing accepted in RUN (R339, R341). -/
def Spindle.runCrossing (p : Spindle) (at_ : MTime) : Spindle :=
  { p.useWindow.note 6 (at_ - p.lastCross) with got := some (at_ - p.lastCross), lastCross := at_, skipRun := 0 }

/-- A crossing accepted in PREDICT (R344): the second in a row returns to RUN with commutation timed from the two. -/
def Spindle.predictCrossing (p : Spindle) (at_ : MTime) : Spindle :=
  if p.goodRun = 0 then { p.useWindow with got := some (at_ - p.lastCross), caught := at_, skipRun := 0, goodRun := 1 }
  else
    { p.useWindow.note 6 (at_ - p.caught) with
      got := some (at_ - p.caught), lastCross := at_, skipRun := 0, state := .run, predSteps := 0, goodRun := 0 }

/-- A crossing of a run of consecutive ones in one sequence with all phases floating (R346, R350). -/
def Spindle.floatCrossing (p : Spindle) (reverse : Bool) (at_ : MTime) : Spindle :=
  let q := if p.goodRun = 0 ∨ p.reverse ≠ reverse then { p with goodRun := 1, reverse := reverse, steps := [] }
    else ({ p with goodRun := p.goodRun + 1 } : Spindle).note 12 (at_ - p.lastCross)
  { q with lastCross := at_ }

/-- A crossing of OPEN (R352): a run of consecutive accepted ones, the first of the attempt without an interval. -/
def Spindle.openCrossing (p : Spindle) (at_ : MTime) : Spindle :=
  let q := if p.steps.isEmpty ∧ p.goodRun = 0 then p else p.note 12 (at_ - p.lastCross)
  { q with goodRun := if p.accepts at_ then p.goodRun + 1 else 0, lastCross := at_ }

/-- ZERO_CROSSING (R339, R344, R346, R347, R350, R352): a crossing on the floating phase, by the drive's state. -/
def execZeroCrossing (x : Crossing) (s : State) : Out :=
  .next (
    let c := s.mtime - x.ago
    match s.spn.state with
    | .run => if !x.reverse && s.spn.accepts c then s.modSpn fun p => p.runCrossing c else s
    | .predict => if !x.reverse && s.spn.accepts c then s.modSpn fun p => p.predictCrossing c else s
    | .coast =>
      let s := s.modSpn fun p => p.floatCrossing x.reverse c
      if 12 ≤ s.spn.goodRun then s.modSpn fun p => { p with state := .catch_ } else s
    | .catch_ => (s.modSpn fun p => { p with lastCross := c }).resync
    | .detect =>
      let s := s.modSpn fun p => p.floatCrossing x.reverse c
      if 12 ≤ s.spn.goodRun then s.detected 12 s.spn.reverse (s.spn.speedOf s.spn.steps.length s.spn.steps.sum) else s
    | .open_ =>
      if x.reverse then s.startFailed
      else
        let s := s.modSpn fun p => p.openCrossing c
        if 12 ≤ s.spn.goodRun then s.enterRun (s.spn.speedOf s.spn.steps.length s.spn.steps.sum) else s
    | _ => s)

/-- The drive goes from RUN into PREDICT (R343, R344): n_ref holds with RAMP at zero, and the SPINDLE slot holds its output. -/
def State.enterPredict (s : State) : State :=
  let full := reaches 32 s.spn.predCnt
  let s := s.modSpn fun p => { p with state := .predict, predSteps := 0, goodRun := 0, ramp := 0, predCnt := inc 32 p.predCnt }
  let s := s.modLoop spnSlot fun x => { x with lmode := if x.en then .hold else x.lmode }
  s.saturated full 0x0A 5 0 0x20048 (nw s.spn.predCnt)

/-- A crossing is missed (R343): RUN goes to PREDICT; a run of accepted crossings is broken. -/
def State.missCrossing (s : State) : State :=
  match s.spn.state with
  | .run => s.enterPredict
  | .predict | .open_ | .coast => s.modSpn fun p => { p with goodRun := 0 }
  | _ => s

/-- CROSSING_MISSED (R343): the window was 1.5 µs or longer, or was made under R342, and no crossing was accepted within ZC_TOL. -/
def execCrossingMissed (s : State) : Out :=
  .next (
    if s.spn.state = .run ∨ s.spn.state = .predict then
      if s.spn.missDue s.mtime then (s.modSpn Spindle.useWindow).missCrossing else s
    else s.missCrossing)

/-- The stamps of engines in SPINDLE follow the commutation angle (R60), forward by a step or by a hold (R52); an engine in LOCKED
learns its wedge 0 phase. An engine without a phase takes its present stamp's at its first commutation (log 62). -/
def State.followCommutation (s : State) : State :=
  let comm := s.spn.commAngle * revUnits / s.spn.revSteps
  (fins 4).foldl (fun s (a : Eng) =>
    let r := s.eng[a].reel
    let here := r.stamp.linear % revUnits
    let learned := (here + revUnits - comm % revUnits) % revUnits
    match r.state with
    | .locked => s.modReel a fun r => { r with phase := some learned }
    | .spindle =>
      match r.phase with
      | none => s.modReel a fun r => { r with phase := some learned }
      | some ph =>
        let d := ((comm + ph) % revUnits + revUnits - here) % revUnits
        let before := s.angle a
        s.modReel a fun r =>
          if d ≤ revUnits / 2 then
            (if d = 0 then r else { r.setAngle (angleAdd before d) with step := some (before, s.mtime), behind := 0 })
          else { r with behind := (revUnits - d) * 65536 + r.accLow }
    | _ => s) s

/-- One step of the drive: the spindle angle advances by 1 / (6 × POLE_PAIRS) revolution (R340). -/
def Spindle.commutate (p : Spindle) : Spindle :=
  { p with
    lastCross := p.commFrom
    commAngle := (p.commAngle + 1) % p.revSteps, commCount := p.commCount + 1, got := none
    cross := (p.got :: p.cross).take p.revSteps
    predSteps := if p.state = .predict then min 63 (p.predSteps + 1) else p.predSteps }

/-- A crossing is skipped (R341, R342): after three in a row the next window is made. -/
def Spindle.skip (p : Spindle) : Spindle :=
  { p with
    skipCnt := satAdd 32 p.skipCnt 1, skipRun := min 3 (p.skipRun + 1), makeWindow := decide (3 ≤ p.skipRun + 1), goodRun := 0 }

/-- COMMUTATION (R340 to R343): once its instant has come the drive commutates on an accepted or a predicted crossing. `window` is the
window of R341 in datapath clocks (1.5 µs is 4 500), `demagDone` whether demagnetisation ended by the predicted crossing. -/
def execCommutation (window : Nat) (demagDone : Bool) (s : State) : Out :=
  .next (
    let p := s.spn
    if (p.state = .run ∨ p.state = .predict) ∧ p.commDue ≤ s.mtime then
      let s := if p.got.isSome then s
        else if p.makeWindow then
          (s.modSpn fun p => if demagDone then p.useWindow else { p with makeWindow := false }).missCrossing
        else if window < 4500 then s.modSpn Spindle.skip else s.missCrossing
      (s.modSpn Spindle.commutate).followCommutation
    else s)

/-! ### Loss of rotor lock (R345, R346) -/

/-- ROTOR_LOCK_LOSS (R345): after 36 steps in PREDICT, Pavane of every loaded actuator, floating phases, COAST. -/
def execRotorLockLoss (s : State) : Out :=
  .next (
    if s.spn.state = .predict ∧ 36 ≤ s.spn.predSteps then
      let full := reaches 32 s.spn.lockLossCnt
      let s := s.pavaneAll
      let s := s.modSpn fun p =>
        { p with
          state := .coast, icmd := 0, ramp := 0, goodRun := 0, steps := [], cross := [], got := none, skipRun := 0, makeWindow := false
          lockLossCnt := inc 32 p.lockLossCnt, slowing := false, predSteps := 0, settleRun := 0, tgtRun := 0
          lockLosses := s.rst.poh :: p.lockLosses.filter fun t => decide (s.rst.poh - t < 1024)
          startRamp := if p.startRamp = .target then .target else .ref p.nRef }
      let s := s.condSpn
      s.saturated full 0x0A 5 0 0x2004C (nw s.spn.lockLossCnt)
    else s)

/-- COAST_TIMEOUT (R346): no two periods of crossings within 100 ms. -/
def execCoastTimeout (s : State) : Out :=
  .next (if s.spn.state = .coast then
      (s.modSpn fun p => { p with tries := 0, phasePair := 0, startRamp := .target }).enterBrake .start
    else s)

/-! ### Start and brake (R350 to R352) -/

/-- DETECT_TIMEOUT (R350): the 100 ms observation has ended. -/
def execDetectTimeout (r : Rotation) (s : State) : Out :=
  .next (if s.spn.state = .detect then
      (s.modSpn fun p =>
        { p with
          reverse := r.reverse
          steps := if r.rpm = 0 then [] else [(roundDiv (60 * 3000000000 : Nat) (p.revSteps * r.rpm)).toNat] }).detected
        r.crossings r.reverse (16 * r.rpm)
    else s)

/-- BRAKE_SHORT_END (R351): 20 ms of shorting have ended; a 2 ms observation starts. -/
def execBrakeShortEnd (s : State) : Out :=
  .next (if s.spn.state = .brake ∧ s.spn.brakePhase = .short then s.modSpn fun p => { p with brakePhase := .observe } else s)

/-- BRAKE_OBSERVE_END (R351, R353): 3 crossings or more bring another short; fewer extend a 2 ms observation to 100 ms, and after
100 ms mean standstill. -/
def execBrakeObserveEnd (crossings : Nat) (s : State) : Out :=
  .next (
    if s.spn.state ≠ .brake then s
    else match s.spn.brakePhase with
      | .observe => s.modSpn fun p => { p with brakePhase := if crossings < 3 then .extended else .short }
      | .extended =>
        if 3 ≤ crossings then s.modSpn fun p => { p with brakePhase := .short }
        else if s.spn.afterBrake = .stop then s.enterStopped
        else s.modSpn fun p => { p with brakePhase := .settle, speed := 0, nRef := 0, nRefFrac := 0 }
      | _ => s)

/-- BRAKE_SETTLE_END (R351): 200 ms after standstill, ALIGN. -/
def execBrakeSettleEnd (s : State) : Out :=
  .next (if s.spn.state = .brake ∧ s.spn.brakePhase = .settle then s.enterAlign else s)

/-- ALIGN_END (R352): ALIGN_T has ended; open-loop commutation begins. -/
def execAlignEnd (s : State) : Out :=
  .next (if s.spn.state = .align then
      s.modSpn fun p => { p with state := .open_, openSteps := 0, goodRun := 0, steps := [], reverse := false }
    else s)

/-- The step rate of OPEN in rpm after n steps: from 5 rpm at 300 rpm/s, its square grows by 6 000 / POLE_PAIRS a step (R352). -/
def Spindle.openRate (p : Spindle) : Nat := isqrt (25 + 6000 * p.openSteps / p.polePairs)

/-- OPEN_LOOP_STEP (R352): a step of OPEN; a reverse crossing, or 600 rpm without 12 accepted crossings, fails the attempt. -/
def execOpenLoopStep (reverse : Bool) (s : State) : Out :=
  .next (
    if s.spn.state ≠ .open_ then s
    else if reverse then s.startFailed
    else
      let s := s.modSpn fun p => { p with openSteps := p.openSteps + 1, commAngle := (p.commAngle + 1) % p.revSteps }
      if 600 ≤ s.spn.openRate then s.startFailed else s)

/-- START_ATTEMPT_TIMEOUT (R352): 2 s in OPEN without RUN. -/
def execStartAttemptTimeout (s : State) : Out := .next (if s.spn.state = .open_ then s.startFailed else s)

/-! ### Speed (R354, R355) -/

/-- Within 0.5 % of a speed. -/
def within (n target : Nat) : Bool := decide (200 * ((n : Int) - target).natAbs ≤ target)

/-- FRAC_INC of every engine whose list of periods is empty follows the measured speed (R47). -/
def State.speedInc (s : State) : State :=
  (fins 4).foldl (fun s (a : Eng) =>
    if s.eng[a].reel.periods.isEmpty && s.eng[a].reel.state != .stopped then s.modReel a fun r => { r with fracInc := s.newInc a } else s) s

/-- SPINDLE_SAMPLE (R354, R355, R366): every sixth commutation the speed is measured over the accepted crossings of the last
revolution and the SPINDLE slot latches it; with fewer than 4 × POLE_PAIRS of them the sample is lost. -/
def execSpindleSample (s : State) : Out :=
  .next (
    let p := s.spn
    if (p.state = .run ∨ p.state = .predict) ∧ 6 ≤ p.commCount then
      let ok := p.cross.filterMap id
      let lost := decide (ok.length < 4 * p.polePairs)
      let n := p.speedOf ok.length ok.sum
      let s := s.modSpn fun p => { p with commCount := 0 }
      let s := if lost then s
        else
          let s := s.modSpn fun p =>
            let p := if p.brkStop ∧ p.state = .run then { p with nRef := n, nRefFrac := 0 } else p
            { p with
              speed := n, lastSpeeds := (p.lastSpeeds.2, n), lastInterval := s.mtime - p.lastSampleAt, lastSampleAt := s.mtime
              settleRun := if within n p.nRef then p.settleRun + 1 else 0
              tgtRun := if within n (16 * p.set.tgt) then p.tgtRun + 1 else 0 }
          s.speedInc
      let s := s.modLoop spnSlot fun x => { x with spTgt := normal (s.spn.nRef : Int) x.eSh }
      s.latch spnSlot s.mtime (s.spn.speed : Int) lost false
    else s)

/-- The speed has stayed within 0.5 % of n_ref for one revolution (R349). -/
def Spindle.settled (p : Spindle) : Bool := p.state == .run && decide (p.polePairs ≤ p.settleRun)

/-- Heads may load (R349, R368, R369). -/
def Spindle.mayLoad (p : Spindle) : Bool :=
  p.settled && !p.stopping && !p.pavLim && decide (16 * p.nPav ≤ p.speed) && decide (16 * p.nPav ≤ p.nRef)

/-! ### Bolero (R356 to R361) -/

/-- Bolero's stored values apply (R370); without BOL_EN n_cmd is TARGET (R361). -/
def Spindle.apply (p : Spindle) : Spindle := { p with eff := p.set, nCmd := if p.set.bolEn then p.nCmd else p.set.tgt }

/-- The evaluation of n_cmd (R358), in 1/4 096 rpm, with fr and fw in bytes; BOL_MAX is capped by N_CAP (R550). -/
def Spindle.evaluate (p : Spindle) (fr fw nCap : Nat) : Spindle :=
  let n : Int := p.nRef * 256
  let e := p.eff
  let q := p.sums
  let excess := fun (gain used set : Nat) => ((gain : Int) * 16 * ((used : Int) - set * 2 ^ 20)) / 2 ^ 20
  let rd : Int := if 0 < q.rm then n * q.rh / q.rm - excess e.kr fr e.frSet else 0
  let wr : Int := if 0 < q.wm ∨ e.fwSet * 2 ^ 20 < fw then n * q.wh / (max q.wm 1 : Nat) + excess e.kw fw e.fwSet else 0
  let want := max 0 (max rd wr)
  let idle := if want = 0 ∧ q.rm = 0 ∧ q.wm = 0 then p.idleRevs + 1 else 0
  let want : Int := if want = 0 then (if 16 * e.idleLim ≤ idle then e.tgt * 4096 else p.nCmd * 4096) else want
  let lo : Int := max e.bolMin p.nPav * 4096
  let hi : Int := min e.bolMax nCap * 4096
  let want := min (max want lo) hi
  { p with
    idleRevs := idle, sums := {}
    nCmd := if (e.dead : Int) * 4096 ≤ (want - p.nCmd * 4096).natAbs then (roundDiv want 4096).toNat else p.nCmd }

/-- Wedge period of the reference engine as (clocks, periods). -/
def State.refWedge (s : State) : Nat × Nat := s.wedgeClocks s.refEngine

/-- What a rate in rpm/s, times 4, moves n_ref by in one wedge, in 2^−32 of 1/16 rpm. -/
def rateStep (rate4 : Nat) (w : Nat × Nat) : Nat := rate4 * 4 * 2 ^ 32 * w.1 / (w.2 * 3000000000)

/-- n_ref one wedge on (R352, R359, R366, R549), and whether an acceleration is refused. -/
def State.nextRef (s : State) : Nat × Bool :=
  let p := s.spn
  let r := p.refUnits
  let w := s.refWedge
  let goal := (if p.stopping then 0 else match p.startRamp with
    | .target => 16 * p.eff.tgt
    | .ref n => n
    | .none => 16 * p.nCmd) * 2 ^ 32
  if p.brkStop ∨ w.1 = 0 then (r, false)
  else if r < goal then
    let acc := if p.startRamp = .none then p.eff.accLim else 10 * fld p.start 15 8
    if s.pwr.accGnt then (min goal (r + rateStep (4 * acc) w), false) else (r, true)
  else
    let dec := if p.chopFault ∨ p.chopHot then p.eff.decLim else 4 * p.eff.decLim
    (max goal (r - rateStep dec w), false)

/-- A speed band change (R316, R357): the shadow bank of every enabled slot is loaded and a group swap is asked for, at the next
wedge boundary of the slot's engine. -/
def State.changeBand (s : State) (band : Nat) : State :=
  let s := s.modSpn fun p => { p with band := band, bandSwCnt := satAdd 32 p.bandSwCnt 1, swapWait := true }
  let b := s.bandInUse
  let s := (fins 128).foldl (fun s (n : LoopIx) =>
    if s.lpe.slots[n].en then
      s.requestSwap n b ((s.loopEngine n).map fun a => (s.angle a / 65536 + 1) * 65536 % angleModulus)
    else s) s
  s.settleSwapWait

/-- The band that n_ref asks for (R356): the next one at its centre, the one below at its centre. -/
def Spindle.bandNow (p : Spindle) : Nat :=
  if p.band < 7 ∧ 16 * bandCentre (p.band + 1) ≤ p.nRef then p.band + 1
  else if 0 < p.band ∧ p.nRef ≤ 16 * bandCentre (p.band - 1) then p.band - 1 else p.band

/-- RAMP (R360, R366). -/
def State.rampNow (s : State) : Int :=
  let p := s.spn
  if p.state ≠ .run ∨ p.nRef = 0 ∨ !s.anyLocked then 0
  else if p.brkStop then
    let (s0, s1) := p.lastSpeeds
    if s1 = 0 ∨ p.lastInterval = 0 then 0
    else roundDiv (2 ^ 32 * ((s1 : Int) - s0) * s.eng[s.refEngine].reel.wper) (s1 * p.lastInterval)
  else roundDiv (2 ^ 32 * ((s.nextRef.1 : Int) - p.refUnits)) p.refUnits

/-- NREF_UPDATE (R344, R352, R356, R357, R359, R360, R366): at a wedge of the reference engine n_ref moves, the speed band follows and
RAMP is published; n_ref at zero after spindle.run 0 brakes to standstill. -/
def execNrefUpdate (s : State) : Out :=
  .next (
    if s.spn.state ≠ .run ∨ s.eng[s.refEngine].reel.state = .stopped then s.modSpn fun p => { p with ramp := 0 }
    else
      let (r, refused) := s.nextRef
      let s := s.modSpn fun p =>
        let q := p.setRef r
        { q with
          limPwr := refused, slowing := decide (r < p.refUnits)
          startRamp := match p.startRamp with
            | .none => .none
            | .target => if 16 * p.eff.tgt * 2 ^ 32 ≤ r then .none else .target
            | .ref n => if n * 2 ^ 32 ≤ r then .none else .ref n }
      let s := if !s.spn.swapWait ∧ s.spn.bandNow ≠ s.spn.band then s.changeBand s.spn.bandNow else s
      let s := s.modSpn fun p => { p with ramp := s.rampNow }
      if s.spn.stopping ∧ s.spn.refUnits = 0 then (s.disableSlot spnSlot).enterBrake .stop else s)

/-! ### Chopper and rail (R364 to R366, R372) -/

/-- The current the chopper's command implies, mA: 20 W at the rail. -/
def Spindle.impliedMa (p : Spindle) : Nat := if p.chopOn && decide (0 < p.vbus) then 20000000 / p.vbus else 0

/-- A sensed shunt current differs from the implied one by more than 25 % (R365). -/
def Spindle.shuntBad (p : Spindle) (ma : Nat) : Bool := decide (p.impliedMa < 4 * ((ma : Int) - p.impliedMa).natAbs)

/-- The chopper's command by the rail and its availability (R364, R365): on from 13.2 V, off at 13.0 V. -/
def Spindle.chopper (p : Spindle) : Spindle :=
  { p with chopOn := !p.chopHot && !p.chopFault && (decide (13200 ≤ p.vbus) || (p.chopOn && decide (13000 < p.vbus))) }

/-- The 12 V rail takes a value: OV, BRK_STOP and the chopper follow (R364, R366). The shunt's reading is a free value (log 13). -/
def State.setRail (s : State) (mv : Nat) : State :=
  let p := s.spn
  let above := decide (14000 ≤ mv)
  let stop := decide (14400 ≤ mv)
  let s := s.modSpn fun p =>
    ({ p with
      vbus := mv
      ov := above || (p.ov && decide (13600 ≤ mv))
      ovCnt := if above && !p.ov then inc 16 p.ovCnt else p.ovCnt
      brkStop := stop || (p.brkStop && decide (13200 ≤ mv))
      ovStopCnt := if stop && !p.brkStop then inc 16 p.ovStopCnt else p.ovStopCnt } : Spindle).chopper
  let (f, s) := s.fresh
  let s := s.modSpn fun p => { p with chopI := f % 65536 }
  let cnts := mkw [bf 31 16 s.spn.ovCnt, bf 15 0 s.spn.ovStopCnt]
  let s := if above && !p.ov then s.condSpn.saturated (reaches 16 p.ovCnt) 0x0A 5 0 0x20060 cnts else s
  if stop && !p.brkStop then s.saturated (reaches 16 p.ovStopCnt) 0x0A 5 0 0x20060 cnts else s

/-- CHOPPER_SWITCH (R364): the rail reaches 13.2 V or falls to 13.0 V. Above 16 V the stress is beyond the absolute maximum. -/
def execChopperSwitch (mv : Nat) (s : State) : Out := if 16000 < mv then .fault .overstress else .next (s.setRail mv)

/-- RAIL_OVERVOLTAGE (R366, R673): the rail crosses 14.0, 13.6 or 14.4 V. -/
def execRailOvervoltage (mv : Nat) (s : State) : Out := if 16000 < mv then .fault .overstress else .next (s.setRail mv)

/-- CHOPPER_BUCKET_THRESHOLD (R364): the bucket, in 1/50 J, reaches 4.0 J (200) or falls to 2.0 J (100). -/
def execChopperBucketThreshold (level : Nat) (s : State) : Out :=
  .next (
    let p := s.spn
    let hot := decide (200 ≤ level) || (p.chopHot && decide (100 < level))
    let rise := hot && !p.chopHot
    let s := s.modSpn fun p =>
      ({ p with
        bucket := min 200 level, chopHot := hot
        chopHotCnt := if rise then inc 16 p.chopHotCnt else p.chopHotCnt } : Spindle).chopper
    if rise then
      s.saturated (reaches 16 p.chopHotCnt) 0x0A 5 0 0x2005C (mkw [bf 31 16 s.spn.chopFaultCnt, bf 15 0 s.spn.chopHotCnt])
    else s)

/-- The chopper is found faulty (R365): CHOP_FAULT, its gate drive off, one event. -/
def State.chopperFault (s : State) (ma : Nat) : State :=
  let full := reaches 16 s.spn.chopFaultCnt
  let s := s.modSpn fun p => { p with chopFault := true, chopOn := false, chopI := ma, chopFaultCnt := inc 16 p.chopFaultCnt }
  s.condSpn.saturated full 0x0A 5 0 0x2005C (mkw [bf 31 16 s.spn.chopFaultCnt, bf 15 0 s.spn.chopHotCnt])

/-- CHOPPER_FAULT (R365): the sensed shunt current has disagreed with the command for 16 µs in a row. -/
def execChopperFault (senseMa : Nat) (s : State) : Out :=
  .next (if !s.spn.chopFault && s.spn.shuntBad senseMa then s.chopperFault senseMa else s)

/-! ### Packets (0x01B0 to 0x01B6) -/

/-- R362: TARGET, BOL_MIN and BOL_MAX limited to 4 800–9 600 and raised to N_PAV, BOL_MIN not above BOL_MAX, TARGET between them. -/
def limitSpeeds (nPav : Nat) (b : BoleroSet) : BoleroSet :=
  let f := fun (n : Nat) => max (clampNat 4800 9600 n) (min nPav 9600)
  let hi := f b.bolMax
  let lo := min (f b.bolMin) hi
  { b with bolMin := lo, bolMax := hi, tgt := clampNat lo hi (f b.tgt) }

/-- Values stored apply at once while Bolero is not running, else at its next evaluation (R370). -/
def State.storeBolero (s : State) (b : BoleroSet) : State :=
  let on := s.bolOn
  s.modSpn fun p => if on then { p with set := b } else ({ p with set := b } : Spindle).apply

/-- spindle.status. -/
def execSpindleStatus (p : Packet) (s : State) : Out :=
  .next (runPacket ⟨0x01B0, [5], .read⟩ p s fun s => .report s (stSpn s))

/-- spindle.target (R362, R370). -/
def opSpindleTarget (p : Packet) (s : State) : PktRes :=
  let en := clampWord [fAny 0 0] 0 (p.w 1)
  let b := limitSpeeds s.spn.nPav { s.spn.set with tgt := (p.w 0).toNat, bolEn := en.getLsbD 0 }
  { state := s.storeBolero b, clamp := clampBits [(0, p.w 0, nw b.tgt), (1, p.w 1, en)]
    result := [nw b.tgt, en, nw s.spn.nPav] }
/-- spindle.target. -/
def execSpindleTarget (p : Packet) (s : State) : Out := .next (runPacket ⟨0x01B1, [5], .config⟩ p s (opSpindleTarget p))

/-- spindle.bolero (R362, R370). -/
def opSpindleBolero (p : Packet) (s : State) : PktRes :=
  let w1 := clampWord [fIn 31 22 10 400, fIn 21 12 10 600, fAny 11 4, fIn 3 0 1 15] 0 (p.w 1)
  let w2 := p.w 2
  let w3 := clampWord [fIn 31 16 16 2048, fIn 15 0 16 4096] 0 (p.w 3)
  let b := limitSpeeds s.spn.nPav
    { s.spn.set with
      bolMax := fld (p.w 0) 31 16, bolMin := fld (p.w 0) 15 0, accLim := fld w1 31 22, decLim := fld w1 21 12, dead := fld w1 11 4
      idleLim := fld w1 3 0, kr := fld w2 31 16, kw := fld w2 15 0, frSet := fld w3 31 16, fwSet := fld w3 15 0 }
  let w0 := rSpnBolr b
  { state := s.storeBolero b, clamp := clampBits [(0, p.w 0, w0), (1, p.w 1, w1), (3, p.w 3, w3)], result := [w0, w1, w2, w3] }
/-- spindle.bolero. -/
def execSpindleBolero (p : Packet) (s : State) : Out := .next (runPacket ⟨0x01B2, [5], .config⟩ p s (opSpindleBolero p))

/-- SPN_PAV takes effect at once (R367 to R370): N_PAV, PAV_LIM with its event, the speeds limited again, n_cmd raised. -/
def State.setPavane (s : State) (j pDrag pavE : Nat) : State :=
  let n := pavaneSpeed j pDrag pavE
  let lim := decide (9600 < n)
  let rise := lim && !s.spn.pavLim
  let s := s.modSpn fun p =>
    let b := limitSpeeds n p.set
    { p with
      inertia := j, pDrag := pDrag, pavE := pavE, nPav := n, pavLim := lim, set := b
      eff := { p.eff with tgt := b.tgt, bolMin := b.bolMin, bolMax := b.bolMax }
      nCmd := max p.nCmd (min n 9600) }
  if rise then s.condSpn else s

/-- The words of the spindle in the NOR configuration area (R370): of SPN_TGT, TARGET is stored, BOL_EN keeps its reset value. -/
def spindleWords (cfg : Word) (b : BoleroSet) (start pav : Word) : Vector Word 5 := #v[cfg, rSpnTgt { b with bolEn := true }, rSpnBolr b, start, pav]

/-- spindle.config (R370): the registers and the NOR configuration area. -/
def opSpindleConfig (p : Packet) (s : State) : PktRes :=
  let w0 := clampWord [fIn 31 28 2 8, fIn 27 20 25 100, fIn 19 16 1 15, fIn 15 12 2 15, fIn 11 8 2 8, fAny 7 4] 0 (p.w 0)
  let w1 := clampWord [fIn 31 24 5 100, fIn 23 16 20 250, fIn 15 8 10 150, fIn 7 4 1 8] 0 (p.w 1)
  let least := max 10 (pavaneEnergy s.layout.engines)
  let w2 := clampWord [fIn 31 16 20 2000, fAny 15 8, fIn 7 0 least 200] 0 (p.w 2)
  let s := s.modSpn fun q => { q with cfgStored := w0, startStored := w1 }
  let s := s.setPavane (fld w2 31 16) (fld w2 15 8) (fld w2 7 0)
  let b := s.spn.set
  let s := s.modNor fun n => { n with spn := spindleWords w0 b w1 w2 }
  { state := s, clamp := clampBits [(0, p.w 0, w0), (1, p.w 1, w1), (2, p.w 2, w2)], result := [w0, w1, w2] }
/-- spindle.config. -/
def execSpindleConfig (p : Packet) (s : State) : Out := .next (runPacket ⟨0x01B3, [5], .config⟩ p s (opSpindleConfig p))

/-- The spindle stops (R371): from RUN and PREDICT n_ref ramps to zero; elsewhere it brakes to standstill. -/
def State.spindleStop (s : State) : State :=
  let s := (fins 4).foldl (fun s (a : Eng) => if s.enginePresent a then s.controlledUnload a else s) s
  let mark := s.modSpn fun p => { p with stopping := true, startRamp := .none }
  match s.spn.state with
  | .stopped => s
  | .fault => s.enterStopped
  | .run | .predict => mark
  | .brake => s.modSpn fun p => { p with afterBrake := .stop }
  | .detect => mark
  | .align | .open_ | .coast | .catch_ => mark.enterBrake .stop

/-- spindle.run (R371): bit 0 alone counts. -/
def opSpindleRun (p : Packet) (s : State) : PktRes :=
  let w := clampWord [fAny 0 0] 0 (p.w 0)
  let clamp := clampBits [(0, p.w 0, w)]
  if w = 0 then
    if (fins 4).any fun (a : Eng) => s.enginePresent a && s.engineLoaded a then .fail s 0x0203
    else
      let s := s.spindleStop
      { state := s, clamp, result := [rSpnStatus s] }
  else
    let s := if s.spn.state = .stopped ∨ s.spn.state = .fault then s.spindleStart else s
    { state := s, clamp, result := [rSpnStatus s] }
/-- spindle.run with 0. -/
def execSpindleRunStop (p : Packet) (s : State) : Out := .next (runPacket ⟨0x01B4, [5], .action⟩ p s (opSpindleRun p))
/-- spindle.run with 1. -/
def execSpindleRunStart (p : Packet) (s : State) : Out := .next (runPacket ⟨0x01B4, [5], .action⟩ p s (opSpindleRun p))

/-- spindle.chopper_test (R372): the shunt's reading, and so the result, is a free value (log 13). -/
def opSpindleChopperTest (s : State) : PktRes :=
  if (s.spn.brkMode ≠ .none ∧ s.spn.brkMode ≠ .float) ∨ 13000 ≤ s.spn.vbus then .fail s 0x0203
  else
    let (f, s) := s.fresh
    let ma := f % 65536
    let bad := ({ s.spn with chopOn := true } : Spindle).shuntBad ma
    let s := if bad then (if s.spn.chopFault then s else s.chopperFault ma)
      else s.modSpn fun p => { p with chopFault := false, chopI := ma }
    .report s [rSpnBrk s.spn, boolw !bad]
/-- spindle.chopper_test. -/
def execSpindleChopperTest (p : Packet) (s : State) : Out :=
  .next (runPacket ⟨0x01B5, [5], .action⟩ p s opSpindleChopperTest)

/-- spindle.clear. -/
def opSpindleClear (p : Packet) (s : State) : PktRes :=
  let m := fld (p.w 0) 12 0
  let x := s.spn
  let vals := [x.skipCnt, x.forceCnt, x.predCnt, x.lockLossCnt, x.catchCnt, x.startCnt, x.startFailCnt, x.chopFaultCnt,
    x.chopHotCnt, x.ovCnt, x.ovStopCnt, x.bandSwCnt]
  let s := s.modSpn fun x =>
    { x with
      skipCnt := clr m 0 x.skipCnt, forceCnt := clr m 1 x.forceCnt, predCnt := clr m 2 x.predCnt, lockLossCnt := clr m 3 x.lockLossCnt
      catchCnt := clr m 4 x.catchCnt, startCnt := clr m 5 x.startCnt, startFailCnt := clr m 6 x.startFailCnt
      chopFaultCnt := clr m 7 x.chopFaultCnt, chopHotCnt := clr m 8 x.chopHotCnt, ovCnt := clr m 9 x.ovCnt
      ovStopCnt := clr m 10 x.ovStopCnt, bandSwCnt := clr m 11 x.bandSwCnt
      lockLosses := if m.testBit 12 then [] else x.lockLosses }
  { state := s, clamp := clampBits [(0, p.w 0, nw m)], result := selected m (vals.map fun v => [nw v]) }
/-- spindle.clear. -/
def execSpindleClear (p : Packet) (s : State) : Out := .next (runPacket ⟨0x01B6, [5], .action⟩ p s (opSpindleClear p))

end Sys2Proof.Machine
end

