-- ==== Sys2Proof/Machine/Buffers.lean ====
section
/-! DEFINITION. The writes of the host data buffers (R30 to R33, R228, R500): the started commands and the completed writes that
are not durable yet, seen as one list; the sector each of their blocks goes to. -/

namespace Sys2Proof.Machine
open Sys2Proof

/-- A write of the host data buffers: its start number, namespace and first block, its zone and first offset, its blocks. -/
structure WriteView where
  startNo : Nat
  fn : Fn
  nsid : Nat
  slba : Nat
  zone : Option ZoneNo
  zofs : Nat
  blocks : List BlockState
  deriving DecidableEq, Repr

/-- The write of a context. -/
def Ctx.view (c : Ctx) : WriteView :=
  { startNo := c.startNo, fn := c.fn, nsid := c.sqe.nsid.toNat, slba := c.sqe.slba, zone := c.zone, zofs := c.zofs, blocks := c.blocks }

/-- The write of a completed command. -/
def BufferedWrite.view (b : BufferedWrite) : WriteView :=
  { startNo := b.startNo, fn := b.fn, nsid := b.nsid, slba := b.slba, zone := b.zone, zofs := b.zofs, blocks := b.blocks }

/-- Every write in the buffers, completed ones first. -/
def State.views (s : State) : List WriteView :=
  s.q.buffered.map BufferedWrite.view ++ s.q.ctxs.filterMap fun p => if p.2.writes && p.2.started then some p.2.view else none

/-- The writes a context number names: a completed one that had it, the module's own (summary blocks and compaction's copies,
which stand in the buffers under namespace 0), and the one that holds it. -/
def State.viewsOf (s : State) (x : CtxIx) : List WriteView :=
  ((s.q.buffered.filter fun b => b.ctx == x || b.nsid == 0).map BufferedWrite.view) ++
    match s.ctx x with
    | some c => if c.writes && c.started then [c.view] else []
    | none => []

/-- The blocks of the write with a start number changed. -/
def State.modView (s : State) (startNo : Nat) (f : List BlockState → List BlockState) : State :=
  s.modQ fun q =>
    { q with
      ctxs := q.ctxs.map fun p =>
        if p.2.writes && p.2.started && p.2.startNo == startNo then (p.1, { p.2 with blocks := f p.2.blocks }) else p
      buffered := q.buffered.map fun b => if b.startNo = startNo then { b with blocks := f b.blocks } else b }

/-- The zone and offset of block k of a write: its zone's, or the place a log group gives it (R417). -/
def State.viewPlace (s : State) (v : WriteView) (k : Nat) : Option (ZoneNo × Nat) :=
  match v.zone with
  | some z => some (z, v.zofs + k)
  | none => (fins 4).findSome? fun (a : Eng) => s.media.groups[a].findSome? fun g =>
      (g.blocks.find? fun b => b.2.2.1 == v.startNo && b.1 == convBlock v.nsid (v.slba + k)).map fun b => (g.zone, b.2.1)

/-- The sector of block k of a write as its zone lays it out (R409), with the zone's descriptor; after a reset of its zone, its sector of
before, with the ZGEN of before (R33). -/
def State.viewSector (s : State) (v : WriteView) (k : Nat) : Option (ZoneNo × ZoneDesc × SectorAt) :=
  (s.viewPlace v k).bind fun (z, o) =>
    let d := s.zoneDesc z
    match v.blocks[k]?.bind (·.old) with
    | some (p, g) => some (z, { d with zgen := g }, p)
    | none => (s.blockSector d o).map fun p => (z, d, p)

/-- The block of the oldest write in the buffers that is not durable and whose place on an engine is a sector: the write and the
block's number. A block of before a reset of its zone that is safely on media has done with its sector. -/
def State.blockAt (s : State) (a : Eng) (p : SectorAt) : Option (WriteView × Nat) :=
  let l := s.views.filterMap fun v =>
    (v.blocks.zipIdx.findSome? fun (b, k) =>
      if b.durable || b.failed.isSome then none
      else match s.viewSector v k with
        | some (_, d, q) =>
          if d.engine = a ∧ (q = p ∨ s.remapped a d q = p) ∧ !(b.old.isSome && s.blockSafe d 0 b) then some k else none
        | none => none).map fun k => (v, k)
  l.foldl (fun (b : Option (WriteView × Nat)) x =>
    match b with
    | some y => if x.1.startNo < y.1.startNo then some x else b
    | none => some x) none

/-- A sector waits for a block of before a reset of its zone: what follows it there is written after it (R33, log 17). -/
def State.oldFirst (s : State) (a : Eng) (p : SectorAt) (v : WriteView) : Bool :=
  match s.blockAt a p with
  | some (w, k) => decide (w.startNo < v.startNo) && (w.blocks[k]?.bind (·.old)).isSome
  | none => false

/-- A write to a zone, of before a reset of it, is not durable yet. -/
def State.oldPending (s : State) (f : ZoneNo → Bool) : Bool :=
  s.views.any fun v => (v.zone.map f).getD false && v.blocks.any fun b => b.old.isSome && !b.durable

/-- One block of a list changed. -/
def modAt (l : List BlockState) (k : Nat) (f : BlockState → BlockState) : List BlockState :=
  l.zipIdx.map fun (b, i) => if i = k then f b else b

/-- The block whose place is a sector changed. -/
def State.modBlockAt (s : State) (a : Eng) (p : SectorAt) (f : BlockState → BlockState) : State :=
  match s.blockAt a p with
  | some (v, k) => s.modView v.startNo fun l => modAt l k f
  | none => s

/-- The information part of block k of a write for a sector (R150, R151, R228, R601). The module's own blocks hold stored bytes
already (R602). -/
def State.encodeInfo (s : State) (v : WriteView) (k : Nat) (b : Block) (p : SectorAt) (zgen : Word) : BitVec 32928 :=
  makeInfo (if v.nsid = 0 then b.data else Config.xtsEncrypt (s.mediaKey v.nsid) (BitVec.ofNat 128 (v.slba + k)) b.data)
    b.pi (addrTag p) zgen

/-- Block k of a write is encoded for its sector (R228): scrambled under the sector's ADDR_TAG, with its parity; the codeword
enters DRAM media staging. -/
def State.encodeBlock (s : State) (v : WriteView) (k : Nat) : State :=
  match v.blocks[k]?, s.viewSector v k with
  | some b, some (_, d, p) =>
    if b.here && b.codeword.isNone && !b.durable && b.failed.isNone && decide (s.q.staging < stagingUnits) then
      let at_ := s.remapped d.engine d p
      let info := s.encodeInfo v k b.data at_ d.zgen
      -- R576: a block with a lost word is written with a CRC that fails
      let info := if b.spoiled then info ^^^ BitVec.ofNat 32928 (2 ^ (8 * 4112)) else info
      let w := ldpcEncode (scramble (addrTag at_) info)
      let s := s.modView v.startNo fun l => modAt l k fun b => { b with codeword := some w }
      s.modQ fun q => { q with staging := q.staging + 1 }
    else s
  | _, _ => s

/-- Blocks whose codeword is held give up their unit of staging (R33: once the write is durable, or with its Write Fault). -/
def stagedCodewords (l : List BlockState) : Nat := (l.filter fun b => b.codeword.isSome).length

/-- Write Fault. -/
def stWriteFault : NvStatus := stMedia 0x80

/-- A sector that can be written neither in place nor to spare (R500): its write fails, the DRAM copy is released, the block is
unreadable, the zone becomes READ_ONLY. -/
def State.writeFault (s : State) (a : Eng) (p : SectorAt) : State :=
  let s : State := match s.blockAt a p with
    | none => s
    | some (v, k) =>
      let held := (v.blocks[k]?.bind (·.codeword)).isSome
      let s := s.modView v.startNo fun l => modAt l k fun b =>
        { b with failed := some stWriteFault, codeword := none, data := {}, durable := true }
      let s := s.modQ fun q =>
        { q with
          staging := q.staging - (if held then 1 else 0)
          ctxs := q.ctxs.map fun c =>
            if c.2.writes && c.2.started && c.2.startNo == v.startNo then (c.1, c.2.finish stWriteFault) else c
          buffered := q.buffered.map fun b => if b.startNo = v.startNo then { b with fault := true } else b }
      match v.zone with
      | some z => (s.setZone z fun d => if d.zs = .log then d else { d with zs := .readOnly }).zoneNotice z
      | none => s
  s.addDefect a 2 p

end Sys2Proof.Machine
end

