-- ==== Sys2Proof/Machine/Write.lean ====
section
/-! DEFINITION. The meanings of the write path's commands (spec/07_write_path_assist.md): encoding, writer slots, the shock guard
and its sensor, suspect sectors, and the six write packets. -/

namespace Sys2Proof.Machine
open Sys2Proof

/-- WRITE_ENCODE (R228): block k of the write a context names is encoded into DRAM media staging. -/
def execWriteEncode (x : CtxIx) (k : Nat) (s : State) : Out :=
  .next (
    match (s.viewsOf x).find? fun v => (v.blocks[k]?.map fun b => b.here && b.codeword.isNone && !b.durable) == some true with
    | some v => s.encodeBlock v k
    | none => s)

/-- The sectors of an engine a write's encoded blocks still have to go to. -/
def State.writeSectors (s : State) (a : Eng) (v : WriteView) : List (Head × SectorAt) :=
  v.blocks.zipIdx.filterMap fun (b, k) =>
    if b.codeword.isNone || b.onMedia || b.durable then none
    else (s.viewSector v k).bind fun (_, d, p) =>
      if d.engine = a then
        let q := s.remapped a d p
        if s.oldFirst a q v then none else (s.globalHead a q.head.val).map fun g => (g, q)
      else none

/-- The codeword of a sector in DRAM media staging. -/
def State.stagedCodeword (s : State) (a : Eng) (p : SectorAt) : Option (BitVec 36864) :=
  (s.blockAt a p).bind fun (v, k) => v.blocks[k]?.bind (·.codeword)

/-- A head has a run whose codewords are in DRAM media staging (R230): suspect sectors to rewrite, or encoded blocks. -/
def State.runStaged (s : State) (g : Head) : Bool :=
  let a := s.engineOf g
  (s.head[g].wr.suspects.any fun x => x.written.isNone && (s.stagedCodeword a x.at_).isSome) ||
    s.views.any fun v => (s.writeSectors a v).any fun p => p.1 == g

/-- WRITER_SLOT_REQUEST (R230, R252, R253): a slot asked for a head's run with its pre-bias angle on the engine's stamp; not before the
run's codewords are staged. -/
def execWriterSlotRequest (g : Head) (preBias : AngleStamp) (s : State) : Out :=
  .next (
    let w := s.head[g].wr
    if s.headPresent g ∧ !s.head[g].map.depop ∧ !w.wrDis ∧ s.runStaged g ∧ !(s.wsl.pending.any fun p => p.1 == g) then
      (s.modWsl fun w => { w with pending := w.pending ++ [(g, s.toRef (s.engineOf g) preBias.linear)] }).grantSlots
    else s)

/-! ### The shock guard (R244, R245) -/

/-- The largest absolute values of the linear and of the rotational axes. -/
def peaks (m : MemsSample) : Nat × Nat :=
  (max m.x.natAbs (max m.y.natAbs m.z.natAbs), max m.r1.natAbs m.r2.natAbs)

/-- The axes of a sample. -/
def axes (m : MemsSample) : List Int := [m.x, m.y, m.z, m.r1, m.r2]

/-- A sample at one engine's guard (R244, R248): a trip forces every write gate of the engine off and ends its runs with SAFE; the
guard clears once every sample over HOLD has stayed below both thresholds. -/
def State.shockGuard (s : State) (a : Eng) (m : MemsSample) : State :=
  let w := s.eng[a].wrg
  let (lin, rot) := peaks m
  let ts := fld w.shockCfg 31 20
  let tr := fld w.shockCfg 19 8
  let below := decide (lin < ts ∧ rot < tr)
  let calm := if below then w.calm + 1 else 0
  let hit := decide (ts < lin)
  let hitR := decide (tr < rot)
  let newS := hit && !w.shock
  let newR := hitR && !w.rv
  let done := decide (10 * fld w.shockCfg 7 0 ≤ calm)
  let shock := (w.shock || hit) && !done
  let rv := (w.rv || hitR) && !done
  let s := s.modWrg a fun w =>
    { w with
      shock := shock, rv := rv, calm := calm
      shockCnt := if newS then inc 32 w.shockCnt else w.shockCnt, rvCnt := if newR then inc 32 w.rvCnt else w.rvCnt }
  let s := s.saturated (newS && reaches 32 w.shockCnt) 0x07 4 a.val (engBase a + 0x60010) (nw s.eng[a].wrg.shockCnt)
  let s := s.saturated (newR && reaches 32 w.rvCnt) 0x07 4 a.val (engBase a + 0x60014) (nw s.eng[a].wrg.rvCnt)
  if newS || newR then
    (s.headsOf a).foldl (fun s g => s.forceWriteOff g w.lastCalm true true) s
  else if shock || rv then s
  else s.modWrg a fun w => { w with lastCalm := s.angle a }

/-- The engines of the layout. -/
def State.engines (s : State) : List Eng := (fins 4).filter fun (a : Eng) => s.enginePresent a

/-- The sensor is frozen (R245): SENS_FRZ, FRZ_CNT and the event of every engine; the shock guard is not used. -/
def State.sensorFrozen (s : State) : State :=
  if s.mems.frozen then s
  else
    let s := { s with mems := { s.mems with frozen := true, changed := 0 } }
    s.engines.foldl (fun s a =>
      let n := s.eng[a].wrg.frzCnt
      let s := s.modWrg a fun w => { w with shock := false, rv := false, calm := 0, frzCnt := inc 32 w.frzCnt }
      let s := s.modSrv a fun v => { v with qdRvOff := true }
      (s.condWrg a 0).saturated (reaches 32 n) 0x07 4 a.val (engBase a + 0x60018) (nw (n + 1))) s

/-- MEMS_SAMPLE (R244, R245, R284). -/
def execMemsSample (m : MemsSample) (s : State) : Out :=
  .next (
    let same := decide (s.mems.last = axes m)
    let n := if same then s.mems.same + 1 else 1
    let c := if same ∨ s.mems.last = [] then 0 else s.mems.changed + 1
    let s : State := { s with mems := { s.mems with last := axes m, same := n, changed := c } }
    let s := if 64 ≤ n then s.sensorFrozen else s
    let s := if s.mems.frozen ∧ 64 ≤ c then
        s.engines.foldl (fun s a => s.modSrv a fun v => { v with qdRvOff := false })
          ({ s with mems := { s.mems with frozen := false } } : State)
      else s
    if s.mems.frozen then s
    else
      let s : State := { s with mems := { s.mems with rotSum := s.mems.rotSum.map (· + m.r1), rotN := s.mems.rotN.map (· + 1) } }
      s.engines.foldl (fun s a => s.shockGuard a m) s)

/-- MEMS_SAMPLE_TIMEOUT (R245): no sample for 50 µs. -/
def execMemsSampleTimeout (s : State) : Out := .next s.sensorFrozen

/-! ### Suspect sectors (R249, R250) -/

/-- SUSP_TRIES. -/
def WriteGuard.tries (w : WriteGuard) : Nat := fld w.cfg 15 8

/-- SUSPECT_REWRITE (R249): the suspect sectors of the head's track are tried again in the run that passes there; REWR_CNT counts
each. -/
def execSuspectRewrite (g : Head) (s : State) : Out :=
  .next (
    let w := s.head[g].wr
    let lim := s.eng[s.engineOf g].wrg.tries
    let due := fun (x : Suspect) => x.written.isNone && decide (x.tries < lim)
    match w.suspects.find? due with
    | some f =>
      if w.run.isSome ∧ w.slot.isSome ∧ !w.wrDis ∧ !s.head[g].map.depop then
        let hit := fun (x : Suspect) => due x && x.at_.track == f.at_.track
        s.modWr g fun w =>
          { w with
            run := w.run.map fun r => { r with rewrite := true }
            rewrCnt := satAdd 32 w.rewrCnt (w.suspects.filter hit).length
            suspects := w.suspects.map fun x => if hit x then { x with tries := x.tries + 1 } else x }
      else s
    | none => s)

/-- SUSPECT_SPARE_WRITE (R250, R500): a sector that is still suspect after SUSP_TRIES rewrites, or whose head is write-disabled or
depopulated, is to be reallocated; without a spare sector its write fails. -/
def execSuspectSpareWrite (g : Head) (s : State) : Out :=
  .next (
    match s.localHead g with
    | none => s
    | some (a, h) =>
      let w := s.head[g].wr
      let lim := s.eng[a].wrg.tries
      match w.suspects.find? fun x => x.written.isNone && (decide (lim ≤ x.tries) || w.wrDis || s.head[g].map.depop) with
      | none => s
      | some x =>
        let s := s.modWr g fun w => { w with suspects := w.suspects.erase x }
        match (s.regionOf a x.at_.track).bind fun r => s.spareBand a h r with
        | none => s.writeFault a x.at_
        | some _ =>
          match s.blockAt a x.at_ with
          | none => s
          | some (v, k) =>
            let zgen := (v.zone.map fun z => (s.zoneDesc z).zgen).getD 0
            let info := s.encodeInfo v k ((v.blocks[k]?.map (·.data)).getD {}) x.at_ zgen
            s.queueRealloc a x.at_ (v.zone.getD 0) info true)

/-! ### Packets (0x0170 to 0x0175) -/

/-- The fields of WR_CFG, WR_PRE0, WR_PRE1, WR_HTR and ASST_T0 to ASST_T2. -/
def writeFields : List (List Field) :=
  let pre := [fSg 31 24 (-16) 15, fSg 23 16 (-16) 15, fSg 15 8 (-16) 15, fSg 7 0 (-16) 15]
  [[fAny 31 24, fAny 23 16, fAny 15 0], pre, pre, [fAny 27 16, fAny 11 0], [fAny 27 16, fAny 11 0], [fAny 27 16, fAny 11 0],
    [fAny 27 16, fAny 11 0]]

/-- Write registers from their seven words. -/
def writeOfWords (w : List Word) : WriteBand :=
  { cfg := w.getD 0 0, pre0 := w.getD 1 0, pre1 := w.getD 2 0, htr := w.getD 3 0, asst0 := w.getD 4 0, asst1 := w.getD 5 0
    asst2 := w.getD 6 0 }

/-- wrt.config (R257, R259): the band entry; the loaded band's registers take the values at once, or when the run ends. -/
def opWrtConfig (p : Packet) (s : State) : PktRes :=
  if s.head[p.hd].map.depop then .fail s 0x0202
  else
    let new := clampWords p 1 writeFields (s.bandEntry p.hd p.band).wr.words
    let b := writeOfWords new
    let s := s.modNor fun n => { n with bands := aset n.bands (p.hd, p.band) { s.bandEntry p.hd p.band with wr := b } }
    let s := if s.head[p.hd].map.band = p.band.val then
        (s.modWr p.hd fun w => if w.run.isSome then { w with pendingBand := some b } else { w with band := b }).modMap p.hd fun m =>
          { m with reloadDue := true }
      else s
    { state := s, result := new.take 6, clamp := clampBits ((0, p.w 0, clampWord [fAny 13 8] 0 (p.w 0)) :: clampRun p 1 new) }
/-- wrt.config. -/
def execWrtConfig (p : Packet) (s : State) : Out := .next (runPacket ⟨0x0170, [3], .config⟩ p s (opWrtConfig p))

/-- wrt.head (R259): WR_LEAD and ASM_CFG, from the next run on; WR_DIS cleared with its strikes. -/
def opWrtHead (p : Packet) (s : State) : PktRes :=
  if s.head[p.hd].map.depop then .fail s 0x0202
  else
    let old := s.head[p.hd].wr
    let lead := clampWord [fIn 31 16 20 500, fIn 15 0 10 1000] old.lead (p.w 1)
    let asm := clampWord [fIn 31 24 2 50, fIn 23 20 1 8] old.asm (p.w 2)
    let c := clampWord [fAny 0 0] 0 (p.w 3)
    let s := s.modWr p.hd fun w =>
      { w with
        lead := lead, asm := asm
        pendingLead := if w.run.isSome then some (w.pendingLead.getD (w.lead, w.asm)) else none
        wrDis := w.wrDis && c == 0, strikes := if c = 0 then w.strikes else [] }
    let s := if old.wrDis && c != 0 then s.writeEnabled p.hd else s
    let s := s.modNor fun n => { n with heads := vmod n.heads p.hd fun x => { x with lead := lead, asm := asm } }
    { state := s, result := [lead, asm, rWrStatus s.head[p.hd].wr]
      clamp := clampBits [(1, p.w 1, lead), (2, p.w 2, asm), (3, p.w 3, c)] }
/-- wrt.head. -/
def execWrtHead (p : Packet) (s : State) : Out := .next (runPacket ⟨0x0171, [3], .config⟩ p s (opWrtHead p))

/-- WRG_CFG after clamping and R258. -/
def wrgCfgWord (old sent : Word) : Word :=
  let w := clampWord [fIn 31 24 8 30, fIn 23 16 8 30, fIn 15 8 1 8] old sent
  setFld w 23 16 (min (fld w 23 16) (fld w 31 24))

/-- wrt.guard (R258). -/
def opWrtGuard (p : Packet) (s : State) : PktRes :=
  let w := s.eng[p.eng].wrg
  let c := wrgCfgWord w.cfg (p.w 0)
  let k := clampWord [fIn 31 20 16 256, fIn 19 8 5 800, fIn 7 0 1 100] w.shockCfg (p.w 1)
  { state := s.modWrg p.eng fun w => { w with cfg := c, shockCfg := k }
    result := [c, k], clamp := clampBits [(0, p.w 0, c), (1, p.w 1, k)] }
/-- wrt.guard. -/
def execWrtGuard (p : Packet) (s : State) : Out := .next (runPacket ⟨0x0172, [4], .config⟩ p s (opWrtGuard p))

/-- The local head word n of a packet names, clamped to 0–11. -/
def Packet.lhWord (p : Packet) (n : Nat) : Word := clampWord [fIn 3 0 0 11] 0 (p.w n)

/-- wrt.status. -/
def execWrtStatus (p : Packet) (s : State) : Out :=
  .next (runPacket ⟨0x0173, [4], .read⟩ p s fun s =>
    { state := s, clamp := clampBits [(0, p.w 0, p.lhWord 0)], result := stWrt s p.eng (p.lhWord 0).toNat })

/-- wrt.clear. -/
def opWrtClear (p : Packet) (s : State) : PktRes :=
  let m := fld (p.w 1) 7 0
  let g := s.globalHead p.eng (p.lhWord 0).toNat
  let w := s.eng[p.eng].wrg
  let h : HeadWrite := match g with
    | some g => s.head[g].wr
    | none => {}
  let vals := [w.shockCnt, w.rvCnt, w.frzCnt, h.suspCnt, h.rewrCnt, h.wrelocCnt, h.otwCnt, h.asmCnt]
  let s := s.modWrg p.eng fun w =>
    { w with shockCnt := clr m 0 w.shockCnt, rvCnt := clr m 1 w.rvCnt, frzCnt := clr m 2 w.frzCnt }
  let s := match g with
    | some g => s.modWr g fun h =>
        { h with
          suspCnt := clr m 3 h.suspCnt, rewrCnt := clr m 4 h.rewrCnt, wrelocCnt := clr m 5 h.wrelocCnt, otwCnt := clr m 6 h.otwCnt
          asmCnt := clr m 7 h.asmCnt }
    | none => s
  { state := s, clamp := clampBits [(0, p.w 0, p.lhWord 0), (1, p.w 1, nw m)], result := selected m (vals.map fun v => [nw v]) }
/-- wrt.clear. -/
def execWrtClear (p : Packet) (s : State) : Out := .next (runPacket ⟨0x0174, [4], .action⟩ p s (opWrtClear p))

/-- wrt.slots (R252, R256). -/
def opWrtSlots (p : Packet) (s : State) : PktRes :=
  let w := clampWord [fIn 3 0 1 12] 0 (p.w 0)
  let s := (s.modWsl fun x => { x with max := w.toNat }).grantSlots
  { state := s, clamp := clampBits [(0, p.w 0, w)], result := [w, rWslStatus s.wsl] }
/-- wrt.slots. -/
def execWrtSlots (p : Packet) (s : State) : Out := .next (runPacket ⟨0x0175, [5], .config⟩ p s (opWrtSlots p))

end Sys2Proof.Machine
end

