-- ==== Sys2Proof/Machine/Edges.lean ====
section
/-! DEFINITION. What gate edges do at a head (R82, R116 to R123, R158, R166, R167, R181, R240 to R255, R381 to R386): the sector an
edge belongs to, read gates, write gates, sector starts and WRITE_EN strobes. -/

namespace Sys2Proof.Machine
open Sys2Proof

/-! ### Sectors by angle (R149, R405, R407) -/

/-- Distance of two angles of a revolution. -/
def revDist (x y : Nat) : Nat :=
  let d := (x % revUnits + revUnits - y % revUnits) % revUnits
  min d (revUnits - d)

/-- The zone of an engine whose rows take in a track. -/
def State.zoneOfTrack (s : State) (a : Eng) (t : Nat) : Option (ZoneNo × ZoneDesc) :=
  (s.zonesOf a).find? fun p => decide (p.2.firstTrk ≤ t ∧ t < p.2.firstTrk + p.2.rows)

/-- The start angle of a sector in its revolution: its row's start wedge and its slot; a track of no zone starts at wedge 0. -/
def State.slotAngle (s : State) (a : Eng) (p : SectorAt) : Nat :=
  let w := match s.zoneOfTrack a p.track with
    | some (_, d) => s.rowWedge d (p.track - d.firstTrk)
    | none => 0
  (w * 65536 + s.slotFrac a p) % revUnits

/-- The sector of a head's track that starts nearest to an angle; sector 0 of a track without one. -/
def State.sectorAtAngle (s : State) (a : Eng) (h : LHead) (track : Nat) (x : Angle) : SectorAt :=
  let best := (s.goodSlots a h track).foldl (fun (b : Option (Nat × Nat)) k =>
    let d := revDist (s.slotAngle a ⟨h, track, k⟩) x
    match b with
    | some (_, e) => if d < e then some (k, d) else b
    | none => some (k, d)) none
  ⟨h, track, (best.map (·.1)).getD 0⟩

/-- The slot of a track whose start is nearest an angle, defective ones included: a block erase writes every slot (R606). -/
def State.slotAtAngle (s : State) (a : Eng) (h : LHead) (track : Nat) (x : Angle) : Nat :=
  ((List.range (s.sptAt a h track)).foldl (fun (b : Nat × Nat) k =>
    let d := revDist (s.slotAngle a ⟨h, track, k⟩) x
    if d < b.2 then (k, d) else b) (0, revUnits)).1

/-- ZGEN expected of a sector: its zone's. -/
def State.zgenAt (s : State) (a : Eng) (p : SectorAt) : Word :=
  ((s.zoneOfTrack a p.track).map (·.2.zgen)).getD 0

/-- The block of a read that a sector serves, still to be read: its number, and the ZGEN of its zone. -/
def State.readBlock (s : State) (a : Eng) (x : CtxIx) (p : SectorAt) : Option (Nat × Word × Bool) :=
  match s.ctx x with
  | none => none
  | some c =>
    if c.admin || c.writes then none
    else c.blocks.zipIdx.findSome? fun (b, k) =>
      if b.here || b.failed.isSome then none
      else match b.source with
        | .media z ofs =>
          let d := s.zoneDesc z
          match s.blockSector d ofs with
          | some q => if d.engine = a ∧ s.remapped a d q = p then some (k, d.zgen, c.sqe.opcode == 0x0C) else none
          | none => none
        | _ => none

/-- A job of an engine whose ladder reads a sector now (R202, R203). -/
def State.readingJob (s : State) (a : Eng) (p : SectorAt) : Option (JobIx × RecJob) :=
  (fins 16).findSome? fun (j : JobIx) =>
    match s.eng[a].recv.jobs[j] with
    | some x => if x.reading && x.at_ == p then some (j, x) else none
    | none => none

/-- The codeword that a packet opened by a fragment at an angle carries: the ladder's read, a command's block, or neither. -/
def State.packetCodeword (s : State) (a : Eng) (g : Head) (f : Fragment) (x : Angle) : Slot :=
  let p := s.sectorAtAngle a (s.localOf g) s.head[g].map.track x
  let c : Slot := { state := .stream, at_ := p, cls := f.cls, tag := addrTag p, zgen := s.zgenAt a p }
  match s.readingJob a p with
  | some (j, y) => { c with job := some j, tag := y.tag, zgen := y.zgen, globMax := if y.step = 2 then 6 else 0 }
  | none =>
    match (fin? 4096 f.ctx).bind fun (x : CtxIx) => (s.readBlock a x p).map fun b => (x, b) with
    | some (x, k, zgen, verify) => { c with ctx := some x, block := k, zgen := zgen, discard := verify }
    | none => c

/-! ### Read gates -/

/-- The tap set in use follows the readers that serve, and the scale of one that has failed is zero (R158), at a packet's opening. -/
def State.chooseTaps (s : State) (g : Head) : State :=
  let fa := s.slice[sliceA g].state == .failed
  let fb := s.slice[sliceB g].state == .failed
  let n := if fa then 2 else if fb then 1 else 0
  let d := s.head[g].det
  let w := if fld d.scale 1 0 = n then mkw [bf 31 24 (if fa then 0 else fld d.scale 31 24), bf 23 16 (if fb then 0 else fld d.scale 23 16), bf 1 0 n]
    else homeScale n
  s.modDet g fun d => { d with scale := w, active := if fld d.scale 1 0 = n then d.active else d.band.tapSet n }

/-- A read-gate-on edge at one slice (R116, R118, R123): an IDLE slice opens a packet at its sector's first fragment, or joins the one
the other slice has open; in WAKE the packet waits for the stream; in COAST it resumes. -/
def State.sliceGateOn (s : State) (n : SliceIx) (first : Bool) (c : Slot) (base : Nat) : State :=
  let x := s.slice[n]
  let opens := first || s.slice[otherSlice n].packet
  match x.state with
  | .idle => if opens then (s.openPacket n (s.gatePos n) base).padPacket n base else s
  | .wake => if opens then s.modSlice n fun x => { x with wake := some { pos := s.gatePos n, base := base, cw := c } } else s
  | .coast =>
    if x.packet then
      if s.head[sliceHead n].wr.servoGate then s.modSlice n fun x => { x with servoCoast := true } else s.resume n
    else s
  | _ => s

/-- The sectors of some heads of a fragment pass to a later pass: reported to the core. -/
def State.passOver (s : State) (a : Eng) (f : Fragment) (m : BitVec 12) : State :=
  s.modSeq a fun q => { q with skipped := { f with hmask := m } :: q.skipped }

/-- A read gate-on edge at a head (R116, R119, R382, R545) for a fragment that starts at an angle. -/
def State.readOn (s : State) (a : Eng) (g : Head) (f : Fragment) (x : Angle) : State :=
  let h := lbit (s.localOf g)
  let open_ := s.packetOpen g
  if s.head[g].wr.rdOff = some s.mtime then s
  else if s.head[g].map.depop || !s.head[g].srv.rdReady || (!f.first && !open_) then
    (s.modSeq a fun q => { q with notrdyCnt := satAdd 32 q.notrdyCnt 1 }).passOver a f h
  else if f.first && !s.pwr.mayRead g then
    (s.modHpw g fun p => { p with refCnt := satAdd 32 p.refCnt 1 }).passOver a f h
  else
    let s := s.modWr g fun w => { w with readGate := true }
    if s.head[g].wr.writeGate then s
    else
      let s := if open_ then s else s.chooseTaps g
      let c := s.packetCodeword a g f x
      let base := s.packetBit g
      let s := (s.sliceGateOn (sliceA g) f.first c base).sliceGateOn (sliceB g) f.first c base
      if open_ || !s.packetOpen g then s
      else
        let s := s.modHpw g fun p => { p with commit := true }
        match s.laneOf g with
        | some l => if s.streaming g then s.takeSlot g l c else s
        | none => s

/-- The packet that streams into a lane is complete (R117, R181): what has been delivered is equalised to its end, sync is decided,
the codeword bits that have not been delivered stay erased, and the first pass is due; one that found no slot meanwhile has none. -/
def State.endStream (s : State) (g : Head) (l : LaneIx) : State :=
  match s.lane[l].current with
  | none => s
  | some c =>
    let s := (s.laneBits g l (max c.za.length c.zb.length) 8192).decideSync l
    let d := s.head[g].det.band
    match s.lane[l].streaming, s.lane[l].inBuf with
    | some k, _ => s.modSlot l k fun x => { x with ended := true, det := d }
    | none, some c => (s.modLane l fun x => { x with inBuf := none }).noSlot l c
    | none, none => s

/-- The lane reports the codeword complete at a read-gate-off edge (R117, R181): its last bit, as placed, has been delivered. -/
def State.codewordComplete (s : State) (g : Head) : Bool :=
  match s.codewordAt g with
  | some c => c.synced && decide (c.placed 0 + codewordBits ≤ c.delivered s.slice[sliceA g].packet s.slice[sliceB g].packet)
  | none => false

/-- A fragment of a head is queued or armed: another gate-on edge or sector start is to come. -/
def State.workArmed (s : State) (a : Eng) (g : Head) : Bool :=
  let h := s.localOf g
  let q := s.eng[a].seq
  (q.fq.any fun f => f.hmask.getLsbD h) || (fins 32).any fun (c : Fin 32) =>
    let k := s.eng[a].reel.cmp[(⟨16 + c.val, by omega⟩ : CmpIx)]
    k.armed && k.headMask.getLsbD h && (k.action == 1 || k.action == 3 || q.tags[c].sstart)

/-- The closing edge of the last fragment of a head's reads ends its run (R273). -/
def State.settleReads (s : State) (g : Head) : State :=
  if s.head[g].srv.active && s.head[g].wr.run.isNone && !s.workArmed (s.engineOf g) g then s.deactivate g else s

/-- A read gate-off edge at a head (R115, R117, R181, R273): every bit before it is delivered; a complete codeword or a FINAL edge ends
the packet, else it coasts. -/
def State.readOff (s : State) (g : Head) (final : Bool) : State :=
  let s := (s.catchUp (sliceA g)).catchUp (sliceB g)
  let done := final || s.codewordComplete g
  let s := match s.laneOf g with
    | some l => if done && s.streaming g then s.endStream g l else s
    | none => s
  let s := (s.modSlice (sliceA g) fun x => x.gateOff done).modSlice (sliceB g) fun x => x.gateOff done
  let s := (s.modWr g fun w => { w with readGate := false, rdOff := some s.mtime }).settleReads g
  match s.laneOf g with
  | some l => (s.packetSettled g).settleBind l
  | none => s.packetSettled g

/-- The servo gate of a head (R118): an open packet coasts while it is on, and tracks again when it closes with the read gate on; what
the demodulator has taken begins anew with the gate. -/
def State.servoGate (s : State) (g : Head) (on : Bool) : State :=
  if s.head[g].map.depop then s
  else
    let s := s.modWr g fun w => { w with servoGate := on }
    let rd := s.head[g].wr.readGate
    [sliceA g, sliceB g].foldl (fun s n =>
      if on then
        (s.catchUp n).modSlice n fun x =>
          if x.packet && (x.state == .acq || x.state == .track) then { x with state := .coast, servoCoast := true, demod := [] }
          else { x with demod := [] }
      else if s.slice[n].servoCoast then (if rd then s.resume n else s.modSlice n fun x => { x with servoCoast := false })
      else s) s

/-! ### Write gates -/

/-- The lead words of a head's run in force (R259). -/
def HeadWrite.leadNow (w : HeadWrite) : Word := (w.pendingLead.map (·.1)).getD w.lead

/-- A head's writer is prepared for a sector start (R240): MODE 0b10 acknowledged, and PREHEAT sent ASST_LEAD / 2 before. -/
def State.prepared (s : State) (a : Eng) (g : Head) (start : Angle) : Bool :=
  let w := s.head[g].wr
  w.modeAcked && (match w.preheatAt with
    | some p => reached start (angleAdd p (s.leadAngle a (15 * fld w.leadNow 15 0)))
    | none => false)

/-- The sector a write fragment starts: the one a block erase writes next, a suspect sector under rewrite or a block of the fragment's
context. -/
def State.writeTarget (s : State) (a : Eng) (g : Head) (f : Fragment) (x : Angle) : SectorAt × Option (CtxIx × Nat) :=
  let h := s.localOf g
  let t := s.head[g].map.track
  let p := s.sectorAtAngle a h t x
  let e : SectorAt := ⟨h, t, s.slotAtAngle a h t x⟩
  if s.eraseAt g = some e then (e, none)
  else match s.head[g].wr.suspects.find? fun y => y.at_ == p && decide (0 < y.tries) && y.written.isNone with
  | some y => (p, y.ctx.map fun c => (c, y.block))
  | none =>
    (p, (fin? 4096 f.ctx).bind fun (c : CtxIx) => (s.viewsOf c).findSome? fun v =>
      (v.blocks.zipIdx.findSome? fun (b, k) =>
        if b.onMedia || b.durable || b.codeword.isNone then none
        else match s.viewSector v k with
          | some (_, d, q) => if d.engine = a ∧ s.remapped a d q = p ∧ !s.oldFirst a p v then some k else none
          | none => none).map fun k => (c, k))

/-- A head's run ends at a sector boundary (R242, R252, R255, R383). -/
def State.endRunOf (s : State) (g : Head) : State := ((s.modWr g HeadWrite.endRun).runEnded g).deactivate g

/-- Suspect sectors of a head on an earlier track of a track's zone wait to be rewritten: it writes nothing on the track (R249). -/
def State.shingleHeld (s : State) (a : Eng) (g : Head) (track : Nat) : Bool :=
  s.head[g].wr.suspects.any fun x =>
    x.written.isNone && decide (x.at_.track < track) &&
      (s.zoneOfTrack a x.at_.track).map (·.1) == (s.zoneOfTrack a track).map (·.1)

/-- A write gate-on edge at a head (R240, R242, R249, R252, R383, R385, R386) for a fragment of a sector that starts at an angle. -/
def State.writeOn (s : State) (a : Eng) (g : Head) (f : Fragment) (x : Angle) : State :=
  let w := s.head[g].wr
  match w.run with
  | none => s
  | some r =>
    if w.writeGate || w.wrOff == some s.mtime then s
    else if f.first && s.eng[a].seq.aborted.contains f.ctx then s
    else if !f.first && r.sectors.isEmpty then s
    else
      let t := s.writeTarget a g f x
      if s.writeInhibit g || (f.first && !s.prepared a g x) then (if f.first then s.suspect g [t] else s)
      else if w.slot.isNone || (f.first && !s.pwr.mayWrite g) || !s.head[g].srv.wrReady ||
          (f.first && s.shingleHeld a g t.1.track) then s.endRunOf g
      else
        let seq := s.eng[a].links[linkOf (s.localOf g)].seq
        let now := s.angle a
        let s := s.modWr g fun w =>
          { w with
            writeGate := true, pairIdle := false
            lastAsm := if r.gateSeq.isNone then now else w.lastAsm
            run := some { r with
              sectors := if f.first then [t] else r.sectors, gateSeq := some (r.gateSeq.getD seq)
              starts := (if f.first then [] else r.starts) ++ [(s.mtime * 2 ^ 32 : Nat) + sfld w.band.cfg 15 0 * (w.period : Int) / 256] } }
        s.modHpw g fun p => { p with commit := true }

/-! ### Block erase (R606, R609) -/

/-- The first track from one on that a block erase writes: within a region, with a slot (R401, R606). -/
def State.eraseTrack (s : State) (a : Eng) (h : LHead) : Nat → Nat → Option Nat
  | 0, _ => none
  | fuel + 1, t =>
    if (s.regionOf a t).isSome then if 0 < s.sptAt a h t then some t else s.eraseTrack a h fuel (t + 1)
    else match ((s.media.regions[a].toList.map (·.firstTrk)).filter (t < ·)).min? with
      | some u => s.eraseTrack a h fuel u
      | none => none

/-- See `eraseTrack`: over all the tracks a head can have. -/
def State.eraseFrom (s : State) (a : Eng) (h : LHead) (t : Nat) : Option (Nat × Nat) :=
  (s.eraseTrack a h 4194304 t).map fun u => (u, 0)

/-- What a head's block erase writes after a slot of a track. -/
def State.eraseAfter (s : State) (a : Eng) (h : LHead) (p : Nat × Nat) : Option (Nat × Nat) :=
  if p.2 + 1 < s.sptAt a h p.1 then some (p.1, p.2 + 1) else s.eraseFrom a h (p.1 + 1)

/-- Zones all of whose tracks a block erase has written. -/
def State.erasedZones (s : State) (x : Sanitise) : Nat :=
  (s.media.zones.filter fun p =>
    let d := s.zoneDesc p.1
    (s.headsOf d.engine).all fun g => match x.next[g] with
      | some q => decide (d.firstTrk + d.rows ≤ q.1)
      | none => true).length

/-- SAN_PROG of a sanitise: its share of the zones in 1/65 536 (R609). -/
def Sanitise.share (x : Sanitise) : Nat := if x.zonesTotal = 0 then 0 else min 65535 (x.zonesDone * 65536 / x.zonesTotal)

/-- A head's block erase has written its sector and goes on; its record is written after every 64 zones (R609). -/
def State.eraseWritten (s : State) (a : Eng) (g : Head) : State :=
  match s.sec.sanitise, s.sec.sanitise.bind fun x => x.next[g] with
  | some x, some p =>
    let y := { x with next := vset x.next g (s.eraseAfter a (s.localOf g) p) }
    let y := { y with zonesDone := s.erasedZones y }
    let s := s.modSec fun c => { c with sanitise := some y, sanProg := y.share }
    if y.zonesDone / 64 = x.zonesDone / 64 then s else s.modNor fun n => { n with sanitise := some y }
  | _, _ => s

/-- A sector in progress as the serialisers have written it: a block erase writes no data, a sector without a staged codeword is not
written. -/
def State.putSector (s : State) (a : Eng) (g : Head) (p : SectorAt) (starts : List Int) : State :=
  let w := s.head[g].wr
  let out := fun (s : State) (bits : BitVec 37072) (edges : List (Nat × Int)) =>
    s.modOut fun o => { o with written := { eng := a, at_ := p, bits := bits, edges := edges, period := w.period, starts := starts } :: o.written }
  if s.eraseAt g = some p then (out s 0 []).eraseWritten a g
  else match s.stagedCodeword a p with
    | some c => out s (channelWord c) (writeEdges w.band.pre0 w.band.pre1 c)
    | none => s

/-- The sector in progress of a head has been written whole. -/
def State.sectorWritten (s : State) (a : Eng) (g : Head) : State :=
  match s.head[g].wr.run with
  | none => s
  | some r =>
    let now := s.angle a
    let s := s.sumBolero { wm := 4096 * (r.sectors.filter fun t => (s.stagedCodeword a t.1).isSome).length }
    let s := r.sectors.foldl (fun s t =>
      let s := s.putSector a g t.1 r.starts
      if t.2.isSome then s.modBlockAt a t.1 fun b => { b with onMedia := true } else s) s
    s.modWr g fun w =>
      { w with
        run := some { r with sectors := [], starts := [], done := r.done ++ r.sectors.map fun t => (t.1, t.2, now) }
        suspects := w.suspects.map fun x => if r.sectors.any fun t => t.1 == x.at_ then { x with written := some now } else x }

/-- A sector of a discarded write is still in transfer (R504). -/
def State.inTransfer (s : State) (p : Head × SectorAt) : Bool :=
  let w := s.head[p.1].wr
  w.writeGate && (match w.run with
    | some r => r.sectors.any fun t => t.1 == p.2 && t.2.isNone
    | none => false)

/-- Credits of discarded writes come back once none of their sectors is in transfer (R504). -/
def State.reapCredits (s : State) : State :=
  s.modQ fun q =>
    { q with
      creditsFree := q.creditsFree + ((q.draining.filter fun d => !d.2.any s.inTransfer).map (·.1)).sum
      draining := q.draining.filter fun d => d.2.any s.inTransfer }

/-- A write gate closes. -/
def State.closeGate (s : State) (g : Head) : State :=
  s.modWr g fun w => { w with writeGate := false, pairIdle := true, wrOff := some s.mtime }

/-- A write gate closes at an edge; the sector is whole where the fragment ends it. A run that a refused arm ends is over, its sector in
progress suspect (R248, R380); one that an unload ends is over with its sector (R649). -/
def State.writeOff (s : State) (a : Eng) (g : Head) (final : Bool) : State :=
  let s := (if s.head[g].wr.writeGate && final then s.sectorWritten a g else s).closeGate g
  match s.head[g].wr.run with
  | some r =>
    if r.ending then (s.suspect g r.sectors).endRunOf g
    else if final && s.rst.act[a].parkDue then (s.endRunOf g).settlePark a
    else s
  | none => s

/-- Nothing more of a head's run is armed or queued: no write gate-on, no sector start, no write fragment. -/
def State.runOver (s : State) (a : Eng) (g : Head) : Bool :=
  let h := s.localOf g
  let q := s.eng[a].seq
  !(q.fq.any fun f => f.write && f.hmask.getLsbD h) &&
    !((fins 32).any fun (c : Fin 32) =>
      let k := s.eng[a].reel.cmp[(⟨16 + c.val, by omega⟩ : CmpIx)]
      k.armed && k.headMask.getLsbD h && (k.action == 3 || q.tags[c].sstart))

/-- A run ends when the write gate has closed on its last sector (R241). -/
def State.settleRun (s : State) (a : Eng) (g : Head) : State :=
  match s.head[g].wr.run with
  | some r => if r.sectors.isEmpty && !r.done.isEmpty && s.runOver a g then s.endRunOf g else s
  | none => s

/-- A sector start trigger at a head (R255, R384): the sector before it is whole; an aborted context closes the gate, a hold that
has cleared opens it; a write grant withdrawn, or an unload (R649), ends the run at this boundary. -/
def State.sectorStart (s : State) (a : Eng) (g : Head) (f : Fragment) (x : Angle) : State :=
  let s := if s.head[g].wr.writeGate then s.sectorWritten a g else s
  let w := s.head[g].wr
  if s.eng[a].seq.aborted.contains f.ctx then (s.writeOff a g false).settleRun a g
  else if w.writeGate then
    if s.pwr.head[g].wrGnt && !s.rst.act[a].parkDue then
      let t := s.writeTarget a g f x
      s.modWr g fun w => { w with run := w.run.map fun r => { r with sectors := [t] } }
    else (((s.writeOff a g false).strobeHead g .writeOff).endRunOf g).settlePark a
  else s.writeOn a g { f with first := true } x

/-- A WRITE_EN trigger (R83, R379): K28.0 or K28.2 for the heads of its mask. -/
def State.writeEnable (s : State) (a : Eng) (m : BitVec 12) (on : Bool) : State :=
  (s.headsIn a m).foldl (fun s g => s.modWr g fun w => { w with writeEn := on }) (s.strobe a (if on then .writeOn else .writeOff) m)

end Sys2Proof.Machine
end

