-- ==== Sys2Proof/Machine/Sequencer.lean ====
section
/-! DEFINITION. The meanings of the track sequencer's commands (spec/11_track_sequencer.md): fragments, the microword and its
operations, arms, the per-wedge job, micro-traps, machine checks, holds, and the five sequencer packets. A row named after a
next-address operation executes the whole word at the micro-PC; a row named after another operation does that one operation. -/

namespace Sys2Proof.Machine
open Sys2Proof

/-! ### The microword (R387) -/

/-- Bits hi:lo of a microword. -/
def mfld (w : BitVec 128) (hi lo : Nat) : Nat := (w.toNat / 2 ^ lo) % 2 ^ (hi + 1 - lo)

/-- The even parity bits of a word's four quarters (R394). -/
def microParity (w : BitVec 128) : BitVec 4 :=
  BitVec.ofNat 4 (((List.range 4).map fun (q : Nat) => (popcount 32 (mfld w (32 * q + 31) (32 * q)) % 2) * 2 ^ q).sum)

/-- The word of the control store at an address. -/
def Sequencer.wordAt (q : Sequencer) (i : Nat) : StoreWord := (alookup q.store i).getD {}

/-- The word at the micro-PC. -/
def Sequencer.current (q : Sequencer) : BitVec 128 := (q.wordAt q.upc).word

/-- A word whose field holds a reserved encoding (R387): NA 0b111, AOP 0x9 and above, CMPOP, CACT, STB, FOP, LOP and DOP beyond
their tables. -/
def microReserved (w : BitVec 128) : Bool :=
  decide (mfld w 127 125 = 7) || decide (9 ≤ mfld w 104 101) || decide (6 ≤ mfld w 94 92) || decide (5 ≤ mfld w 86 84) ||
    decide (mfld w 80 79 = 3) || decide (5 ≤ mfld w 76 73) || decide (3 ≤ mfld w 72 69) || decide (4 ≤ mfld w 68 65)

/-- What a fetch finds wrong (R394): the kind of machine check, and the quarters that fail parity. -/
def Sequencer.fetchCheck (q : Sequencer) : Option (Nat × Nat) :=
  let w := q.wordAt q.upc
  let bad := (microParity w.word ^^^ w.parity).toNat
  if bad ≠ 0 then some (0, bad) else if microReserved w.word then some (1, 0) else none

/-- STB of a word. -/
def strobeOf : Nat → Strobe
  | 1 => .on
  | 2 => .off
  | _ => .none

/-- The comparator 16 + CSEL. -/
def seqCmp (c : Fin 32) : CmpIx := ⟨16 + c.val, by omega⟩

/-- The bank in use. -/
def Sequencer.regs (q : Sequencer) : SeqBank := q.banks[q.bank]
/-- The fragment register. -/
def Sequencer.frag (q : Sequencer) : Fragment := q.regs.frag
/-- The bank in use changed. -/
def Sequencer.modRegs (q : Sequencer) (f : SeqBank → SeqBank) : Sequencer := { q with banks := vmod q.banks q.bank f }
/-- An angle register of the bank in use. -/
def Sequencer.a (q : Sequencer) (i : Fin 8) : Stamp := q.regs.a[i]
/-- An angle register set. -/
def Sequencer.setA (q : Sequencer) (i : Fin 8) (x : Angle) : Sequencer :=
  q.modRegs fun b => { b with a := vset b.a i (Stamp.ofLinear (x % angleModulus)) }
/-- The mask of an operation: the HMASK field, or the fragment register's. -/
def Sequencer.mask (q : Sequencer) (hsrc : Bool) (m : BitVec 12) : BitVec 12 := if hsrc then q.frag.hmask else m
/-- A loop counter set. -/
def Sequencer.setLc (q : Sequencer) (i : Fin 4) (v : BitVec 16) : Sequencer := { q with lc := vset q.lc i v }

/-- The engine's sequencer runs (RUN or TRAP) and no ARMF holds its word up. -/
def State.seqRuns (s : State) (a : Eng) : Bool :=
  let q := s.eng[a].seq
  s.enginePresent a && (q.state == .run || q.state == .trap) && q.stall.isNone

/-- The next word may execute: no trap is due before it (R390). -/
def State.seqReady (s : State) (a : Eng) : Bool :=
  s.seqRuns a && (s.eng[a].seq.state == .trap || s.eng[a].seq.trapPend == 0)

/-! ### Fragments (R373, R374) -/

/-- An entry of 128 bits read as a fragment; none with a reserved OP. -/
def fragmentOf (e : BitVec 128) : Option Fragment :=
  let op := mfld e 35 32
  if op = 1 ∨ op = 2 then
    some
      { start := { rev := mfld e 127 96, wedge := min (mfld e 95 80) 719, frac := mfld e 79 64 }, len := mfld e 63 48
        hmask := BitVec.ofNat 12 (mfld e 47 36), write := op == 2, first := e.getLsbD 31, final := e.getLsbD 30
        chain := e.getLsbD 29, cont := e.getLsbD 28, cls := mfld e 27 25, ctx := mfld e 24 13, sidx := mfld e 12 0 }
  else none

/-- A fragment placed in the queue by its START, behind those with the same START. -/
def insertFragment (f : Fragment) : List Fragment → List Fragment
  | [] => [f]
  | g :: t => if angleDiff f.start.linear g.start.linear < 0 then f :: g :: t else g :: insertFragment f t

/-- FRAGMENT_ENQUEUE (R374): the core writes an entry into the queue of 512. A context the core queues work for again is no longer
aborted (R385). -/
def execFragmentEnqueue (a : Eng) (e : BitVec 128) (s : State) : Out :=
  .next (
    match fragmentOf e with
    | some f =>
      if s.enginePresent a ∧ s.eng[a].seq.fq.length < 512 then
        s.modSeq a fun q => { q with fq := insertFragment f q.fq, aborted := q.aborted.filter fun x => x != f.ctx }
      else s
    | none => s)

/-! ### Conditions (R388) -/

/-- A condition of the table, for the CSEL, LCSEL and ASRC of a word. -/
def State.seqCond (s : State) (a : Eng) (w : BitVec 128) (c : Nat) : Bool :=
  let q := s.eng[a].seq
  let f := q.frag
  let csel := finMod 32 (by decide) (mfld w 91 87)
  let heads := s.headsIn a f.hmask
  match c with
  | 0 => true
  | 1 => q.lc[finMod 4 (by decide) (mfld w 106 105)] == 0
  | 2 => if csel = 0 then decide (0 < q.jobPend) else q.tags[csel].fired
  | 3 => f.first
  | 4 => f.chain
  | 5 => f.cont
  | 6 => f.write
  | 7 => q.fq.isEmpty
  | 8 =>
    match q.fq with
    | [] => true
    | g :: _ => reached g.start.linear (q.a (finMod 8 (by decide) (mfld w 97 95))).linear
  | 9 => q.late
  | 10 => q.runEnd
  | 11 => q.aborted.contains f.ctx
  | 12 => heads.all fun g => s.head[g].wr.slot.isSome
  | 13 => heads.all fun g => s.head[g].srv.rdReady
  | 14 => heads.all fun g => s.head[g].srv.wrReady
  | _ => q.coreFlag

/-- The 16 conditions for a word. -/
def State.seqConds (s : State) (a : Eng) (w : BitVec 128) : BitVec 16 :=
  BitVec.ofNat 16 (((List.range 16).map fun (c : Nat) => if s.seqCond a w c then 2 ^ c else 0).sum)

/-- A word's condition after CPOL, from the sampled conditions. -/
def microHolds (w : BitVec 128) (cs : BitVec 16) : Bool := (cs.getLsbD (mfld w 124 121)) != w.getLsbD 120

/-- A word is a WAIT on a comparator's FIRED: its CSEL. -/
def waitsOn (w : BitVec 128) : Option (Fin 32) :=
  if mfld w 127 125 = 5 ∧ mfld w 124 121 = 2 ∧ w.getLsbD 120 = false then some (finMod 32 (by decide) (mfld w 91 87)) else none

/-! ### Machine checks (R394 to R396) -/

/-- A machine check: the sequencer stops, gates close, comparators 16–47 disarm, traps are dropped; a second one at the address
within a power-on hour marks the engine failed. -/
def State.machineCheck (s : State) (a : Eng) (kind qtr : Nat) : State :=
  let q := s.eng[a].seq
  let again := q.mcHist.any fun h => h.1 == q.upc && decide (s.rst.poh - h.2 < 1024)
  let s := s.forceWritesOff a (s.headsOf a) true false
  let s := (s.headsOf a).foldl (fun s g => if s.head[g].wr.readGate then s.readOff g false else s) s
  let s := s.disarmWhere a cmpSeq
  let s := s.modSeq a fun q =>
    { q with
      state := .mchk, mcAddr := mkw [bf 31 30 kind, bf 19 16 qtr, bf 12 0 q.upc], mcCnt := inc 32 q.mcCnt, gatesForced := true
      trapPend := if q.state = .trap then 0 else q.trapPend, stall := none, waitDone := false, inJob := false, tsv := vset q.tsv 0 (setFld q.tsv[0] 31 31 0)
      mcHist := (q.upc, s.rst.poh) :: q.mcHist.filter fun h => decide (s.rst.poh - h.2 < 1024) }
  let s := s.modWrg a fun w => { w with trapMask := 0 }
  let s := (s.condSeq a).saturated (reaches 32 q.mcCnt) 0x0B 4 a.val (engBase a + 0x10044) (nw (q.mcCnt + 1))
  if again then s.engineFail a else s

/-! ### Angle operations -/

/-- A row of one operation: it acts while the sequencer runs. -/
def State.seqOp (s : State) (a : Eng) (f : State → State) : State := if s.seqRuns a then f s else s

/-- An angle register takes a linear angle. -/
def State.putAngle (s : State) (a : Eng) (d : Fin 8) (x : Angle) : State := s.modSeq a fun q => q.setA d x

/-- LDS: the engine's current stamp. -/
def State.aopLds (s : State) (a : Eng) (d : Fin 8) : State := s.putAngle a d (s.angle a)
/-- ADD: A[ASRC] and a signed immediate. -/
def State.aopAdd (s : State) (a : Eng) (d r : Fin 8) (imm : Word) : State :=
  s.putAngle a d (angleAdd (s.eng[a].seq.a r).linear imm.toInt)
/-- LDF: START of the fragment register. -/
def State.aopLdf (s : State) (a : Eng) (d : Fin 8) : State := s.putAngle a d s.eng[a].seq.frag.start.linear
/-- LDE: START + LEN of the fragment register. -/
def State.aopLde (s : State) (a : Eng) (d : Fin 8) : State :=
  s.putAngle a d (angleAdd s.eng[a].seq.frag.start.linear s.eng[a].seq.frag.len)
/-- LEAD: A[ASRC] less a number of clocks, WEN_LEAD for zero, as an angle (R236). -/
def State.aopLead (s : State) (a : Eng) (d r : Fin 8) (imm : BitVec 16) : State :=
  let n := if imm = 0 then s.eng[a].seq.wenLead else imm.toNat
  s.putAngle a d (angleAdd (s.eng[a].seq.a r).linear (-(s.leadAngle a n : Int)))
/-- WIN: the start of the wedge after A[ASRC]. -/
def State.aopWin (s : State) (a : Eng) (d r : Fin 8) : State :=
  s.putAngle a d (((s.eng[a].seq.a r).linear / 65536 + 1) * 65536)
/-- MOV. -/
def State.aopMov (s : State) (a : Eng) (d r : Fin 8) : State := s.putAngle a d (s.eng[a].seq.a r).linear
/-- LDW: JOBWIN. -/
def State.aopLdw (s : State) (a : Eng) (d : Fin 8) : State := s.putAngle a d s.eng[a].seq.jobwin.linear

/-- LDS. -/
def execLds (a : Eng) (dst : Fin 8) (s : State) : Out := .next (s.seqOp a fun s => s.aopLds a dst)
/-- ADD. -/
def execAdd (a : Eng) (dst src : Fin 8) (imm : Word) (s : State) : Out := .next (s.seqOp a fun s => s.aopAdd a dst src imm)
/-- LDF. -/
def execLdf (a : Eng) (dst : Fin 8) (s : State) : Out := .next (s.seqOp a fun s => s.aopLdf a dst)
/-- LDE. -/
def execLde (a : Eng) (dst : Fin 8) (s : State) : Out := .next (s.seqOp a fun s => s.aopLde a dst)
/-- LEAD. -/
def execLead (a : Eng) (dst src : Fin 8) (imm : BitVec 16) (s : State) : Out :=
  .next (s.seqOp a fun s => s.aopLead a dst src imm)
/-- WIN. -/
def execWin (a : Eng) (dst src : Fin 8) (s : State) : Out := .next (s.seqOp a fun s => s.aopWin a dst src)
/-- MOV. -/
def execMov (a : Eng) (dst src : Fin 8) (s : State) : Out := .next (s.seqOp a fun s => s.aopMov a dst src)
/-- LDW. -/
def execLdw (a : Eng) (dst : Fin 8) (s : State) : Out := .next (s.seqOp a fun s => s.aopLdw a dst)

/-- AOP of a word. -/
def State.microAop (s : State) (a : Eng) (w : BitVec 128) : State :=
  let d : Fin 8 := finMod 8 (by decide) (mfld w 100 98)
  let r : Fin 8 := finMod 8 (by decide) (mfld w 97 95)
  match mfld w 104 101 with
  | 1 => s.aopLds a d
  | 2 => s.aopAdd a d r (BitVec.ofNat 32 (mfld w 31 0))
  | 3 => s.aopLdf a d
  | 4 => s.aopLde a d
  | 5 => s.aopLead a d r (BitVec.ofNat 16 (mfld w 47 32))
  | 6 => s.aopWin a d r
  | 7 => s.aopMov a d r
  | 8 => s.aopLdw a d
  | _ => s

/-! ### Arms (R379 to R381) -/

/-- An edge whose arm is refused once its target has been reached (R380). -/
def SeqArm.refusable (x : SeqArm) : Bool :=
  x.action == 1 || x.action == 3 || (x.action == 0 && (x.stb == .on || x.sstart))

/-- A refused arm of a write fragment (R380): the run of each head ends at that sector. A refused sector start closes the gate still
open from the previous fragment, and what it has written of the sector makes that suspect; a gate open for a fragment whose own closing
edge is armed stays on to that edge. -/
def State.refuseWrite (s : State) (a : Eng) (x : SeqArm) : State :=
  (s.headsIn a x.mask).foldl (fun s g =>
    if s.head[g].wr.run.isNone then s
    else if s.head[g].wr.writeGate then
      if x.sstart then
        let s := s.sectorWritten a g
        let t := s.writeTarget a g x.frag x.target.linear
        ((((s.closeGate g).writeEnable a (lbit (s.localOf g)) false).suspect g [t])).endRunOf g
      else s.modWr g fun w => { w with run := w.run.map fun r => { r with ending := true } }
    else (s.suspect g ((s.head[g].wr.run.map (·.sectors)).getD [])).endRunOf g) s

/-- An arm takes place on comparator 16 + c (R380): refused, or armed with its tags; its FIRED latch clears. -/
def State.armSeq (s : State) (a : Eng) (c : Fin 32) (x : SeqArm) (rep : BitVec 16) : State :=
  if x.refusable && reached (s.angle a) x.target.linear then
    let n := s.eng[a].seq.lateArmCnt
    let s := s.modSeq a fun q => { q with late := true, lateArmCnt := inc 32 q.lateArmCnt }
    let s := s.saturated (reaches 32 n) 0x0B 4 a.val (engBase a + 0x1004C) (nw (n + 1))
    if x.frag.write && x.action != 1 then s.refuseWrite a x else s
  else
    let s := s.modCmp a (seqCmp c) fun k =>
      { k with
        armed := true, action := x.action, headMask := x.mask, repeat_ := rep, target := x.target, loWritten := false
        hiWritten := false, armedAt := some s.mtime }
    s.modSeq a fun q =>
      { q with
        jobArmed := if c = 0 then q.jobS else q.jobArmed
        tags := vset q.tags c { fired := false, stb := x.stb, final := x.final, sstart := x.sstart, frag := x.frag } }

/-- The arm of an operand set. -/
def Sequencer.arm (q : Sequencer) (x : ArmOp) : SeqArm :=
  { target := q.a x.careg, action := x.cact.val, mask := q.mask x.hsrc x.hmask, stb := x.stb, final := x.cfin && q.frag.final
    sstart := x.csst, frag := q.frag }

/-- The operands of a word's arm. -/
def microArm (w : BitVec 128) : ArmOp :=
  { csel := finMod 32 (by decide) (mfld w 91 87), cact := finMod 8 (by decide) (mfld w 86 84)
    careg := finMod 8 (by decide) (mfld w 83 81), stb := strobeOf (mfld w 80 79), cfin := w.getLsbD 78, csst := w.getLsbD 77
    hsrc := w.getLsbD 64, hmask := BitVec.ofNat 12 (mfld w 63 52) }

/-- The free comparator ARMF takes: the lowest from 17 to 47. -/
def State.freeCmp (s : State) (a : Eng) : Option (Fin 32) :=
  (fins 32).find? fun (c : Fin 32) => c.val != 0 && !s.eng[a].reel.cmp[seqCmp c].armed

/-- ARMF: on the free comparator, or the word stalls (R381). -/
def State.armFree (s : State) (a : Eng) (x : SeqArm) (cs : Option (BitVec 16)) : State :=
  match s.freeCmp a with
  | some c => s.armSeq a c x 0
  | none => s.modSeq a fun q => { q with stall := some (x, cs), stallCnt := satAdd 32 q.stallCnt 1 }

/-- DIS: one comparator disarmed. -/
def State.disarmSeq (s : State) (a : Eng) (c : Fin 32) : State := s.modCmp a (seqCmp c) Comparator.disarm
/-- DISM: every comparator from 17 to 47 whose mask meets a mask disarmed. -/
def State.disarmMask (s : State) (a : Eng) (m : BitVec 12) : State :=
  s.disarmWhere a fun c => cmpSeq c && decide (c.val ≠ 16) && decide (s.eng[a].reel.cmp[c].headMask &&& m ≠ 0)

/-- ARM: comparator 16 + CSEL armed, one-shot; a reserved CACT is a machine check (R387). -/
def execArm (a : Eng) (x : ArmOp) (s : State) : Out :=
  .next (s.seqOp a fun s =>
    if 4 < x.cact.val then s.machineCheck a 1 0 else s.armSeq a x.csel (s.eng[a].seq.arm x) 0)
/-- ARMR: as ARM, with a REPEAT. -/
def execArmr (a : Eng) (x : ArmOp) (rep : BitVec 16) (s : State) : Out :=
  .next (s.seqOp a fun s =>
    if 4 < x.cact.val then s.machineCheck a 1 0 else s.armSeq a x.csel (s.eng[a].seq.arm x) rep)
/-- ARMF (R381). -/
def execArmf (a : Eng) (x : ArmOp) (s : State) : Out :=
  .next (s.seqOp a fun s =>
    if 4 < x.cact.val then s.machineCheck a 1 0 else s.armFree a (s.eng[a].seq.arm x) none)
/-- DIS. -/
def execDis (a : Eng) (csel : Fin 32) (s : State) : Out := .next (s.seqOp a fun s => s.disarmSeq a csel)
/-- DISM. -/
def execDism (a : Eng) (hsrc : Bool) (hmask : BitVec 12) (s : State) : Out :=
  .next (s.seqOp a fun s => s.disarmMask a (s.eng[a].seq.mask hsrc hmask))

/-- CMPOP of a word; `cs` are the conditions sampled, kept if the word stalls. -/
def State.microCmp (s : State) (a : Eng) (w : BitVec 128) (cs : BitVec 16) : State :=
  let x := microArm w
  let q := s.eng[a].seq
  match mfld w 94 92 with
  | 1 => s.armSeq a x.csel (q.arm x) 0
  | 2 => s.armSeq a x.csel (q.arm x) (BitVec.ofNat 16 (mfld w 47 32))
  | 3 => s.armFree a (q.arm x) (some cs)
  | 4 => s.disarmSeq a x.csel
  | 5 => s.disarmMask a (q.mask x.hsrc x.hmask)
  | _ => s

/-! ### Fragment, lane and counter operations -/

/-- POP: the queue's head entry enters the fragment register; an empty queue leaves it. -/
def Sequencer.pop (q : Sequencer) : Sequencer :=
  match q.fq with
  | f :: t => ({ q with fq := t } : Sequencer).modRegs fun b => { b with frag := f }
  | [] => q
/-- ARMED: the fragment register reported as armed. -/
def Sequencer.reportArmed (q : Sequencer) : Sequencer := { q with armed := q.frag :: q.armed }
/-- SKIP: reported as not armed. -/
def Sequencer.reportSkip (q : Sequencer) : Sequencer := { q with skipped := q.frag :: q.skipped }
/-- NOTE: a value for the core's mailbox; CORE_FLAG clears. -/
def Sequencer.note (q : Sequencer) (v : BitVec 16) : Sequencer := { q with mailbox := v :: q.mailbox, coreFlag := false }
/-- CLRF: LATE and RUN_END cleared as the immediate says. -/
def Sequencer.clrf (q : Sequencer) (v : BitVec 16) : Sequencer :=
  { q with late := q.late && !v.getLsbD 0, runEnd := q.runEnd && !v.getLsbD 1 }
/-- DEC: a loop counter less one, stopping at zero. -/
def Sequencer.dec (q : Sequencer) (i : Fin 4) : Sequencer := q.setLc i (if q.lc[i] = 0 then 0 else q.lc[i] - 1)
/-- FCNT: the number of queue entries. -/
def Sequencer.fcnt (q : Sequencer) (i : Fin 4) : Sequencer := q.setLc i (BitVec.ofNat 16 q.fq.length)
/-- DROP: the drop command of R120 to the slices of a mask. -/
def State.dropMask (s : State) (a : Eng) (m : BitVec 12) : State := (s.headsIn a m).foldl State.dropHead s

/-- POP. -/
def execPop (a : Eng) (s : State) : Out := .next (s.seqOp a fun s => s.modSeq a Sequencer.pop)
/-- ARMED. -/
def execArmed (a : Eng) (s : State) : Out := .next (s.seqOp a fun s => s.modSeq a Sequencer.reportArmed)
/-- SKIP. -/
def execSkip (a : Eng) (s : State) : Out := .next (s.seqOp a fun s => s.modSeq a Sequencer.reportSkip)
/-- NOTE. -/
def execNote (a : Eng) (imm : BitVec 16) (s : State) : Out := .next (s.seqOp a fun s => s.modSeq a fun q => q.note imm)
/-- DROP. -/
def execDrop (a : Eng) (hsrc : Bool) (hmask : BitVec 12) (s : State) : Out :=
  .next (s.seqOp a fun s => s.dropMask a (s.eng[a].seq.mask hsrc hmask))
/-- CLRF. -/
def execClrf (a : Eng) (imm : BitVec 16) (s : State) : Out := .next (s.seqOp a fun s => s.modSeq a fun q => q.clrf imm)
/-- SET. -/
def execSet (a : Eng) (lc : Fin 4) (imm : BitVec 16) (s : State) : Out :=
  .next (s.seqOp a fun s => s.modSeq a fun q => q.setLc lc imm)
/-- DEC. -/
def execDec (a : Eng) (lc : Fin 4) (s : State) : Out := .next (s.seqOp a fun s => s.modSeq a fun q => q.dec lc)
/-- FCNT. -/
def execFcnt (a : Eng) (lc : Fin 4) (s : State) : Out := .next (s.seqOp a fun s => s.modSeq a fun q => q.fcnt lc)

/-- FOP, LOP and DOP of a word. -/
def State.microOps (s : State) (a : Eng) (w : BitVec 128) : State :=
  let imm : BitVec 16 := BitVec.ofNat 16 (mfld w 47 32)
  let lc : Fin 4 := finMod 4 (by decide) (mfld w 106 105)
  let s : State := match mfld w 76 73 with
    | 1 => s.modSeq a Sequencer.pop
    | 2 => s.modSeq a Sequencer.reportArmed
    | 3 => s.modSeq a Sequencer.reportSkip
    | 4 => s.modSeq a fun q => q.note imm
    | _ => s
  let s : State := match mfld w 72 69 with
    | 1 => s.dropMask a (s.eng[a].seq.mask (w.getLsbD 64) (BitVec.ofNat 12 (mfld w 63 52)))
    | 2 => s.modSeq a fun q => q.clrf imm
    | _ => s
  match mfld w 68 65 with
  | 1 => s.modSeq a fun q => q.setLc lc imm
  | 2 => s.modSeq a fun q => q.dec lc
  | 3 => s.modSeq a fun q => q.fcnt lc
  | _ => s

/-! ### The per-wedge job (R376, R377, R74 to R77) -/

/-- The advance of comparator 16 while SEQ_DEBT is above zero: a quarter wedge at most. -/
def Reel.advance (r : Reel) : Nat := min r.debt 0x4000

/-- The job in progress completes at the WAIT on comparator 16: the debt takes its lateness. -/
def State.jobDone (s : State) (a : Eng) : State :=
  let q := s.eng[a].seq
  if q.inJob then
    let e : Angle := angleAdd q.jobwin.linear ((q.eNow : Int) - 65536)
    let late := (max 0 (angleDiff (s.angle a) e)).toNat
    let r := s.eng[a].reel
    let d := min (r.debt - r.advance + late) (2 ^ 32 - 1)
    let fire := decide (65536 < d) && !r.debtEvt
    let s := s.modReel a fun r => { r with debt := d, debtMax := max r.debtMax d, debtEvt := (r.debtEvt || fire) && d != 0 }
    let s := s.modSeq a fun q => { q with inJob := false }
    if fire then s.condReel a else s
  else s

/-- A WAIT completes: on comparator 16 JOB_PEND loses one and JOBWIN moves on a wedge; on another its FIRED latch clears. -/
def Sequencer.endWait (q : Sequencer) (w : BitVec 128) : Sequencer :=
  let q := { q with upc := (q.upc + 1) % 8192, waitDone := false }
  match waitsOn w with
  | some c =>
    if c = 0 then
      { q with
        jobPend := q.jobPend - 1, jobwin := Stamp.ofLinear ((q.jobwin.linear + 65536) % angleModulus), inJob := true
        eNow := q.jobE }
    else { q with tags := vmod q.tags c fun t => { t with fired := false } }
  | none => q

/-- Comparator 16 armed as the sequencer enters RUN from OFF or MCHK (R376). -/
def State.startJobs (s : State) (a : Eng) : State :=
  let js := s.eng[a].seq.jobS
  let now := s.angle a
  let w := now / 65536
  let w := if now % 65536 < js then w else w + 1
  let s := s.armFixed a 16 ((w * 65536 + js) % angleModulus) 256
  s.modSeq a fun q => { q with jobPend := 0, jobArmed := js, jobwin := Stamp.ofLinear ((w * 65536) % angleModulus), inJob := false }

/-! ### Micro-traps (R389 to R393) -/

/-- Heads whose write gate is open, and those for which a write gate-on, WRITE_EN-on or sector start comparator is armed. -/
def State.trapHeads (s : State) (a : Eng) : BitVec 12 :=
  (fins 32).foldl (fun (m : BitVec 12) (c : Fin 32) =>
    let k := s.eng[a].reel.cmp[seqCmp c]
    let t := s.eng[a].seq.tags[c]
    if k.armed && c.val != 0 && (k.action == 3 || (k.action == 0 && (t.stb == .on || t.sstart))) then m ||| k.headMask else m)
    (BitVec.ofNat 12 (s.maskOf a fun g => s.head[g].wr.writeGate))

/-- The comparators a trap entry disarms (R390). -/
def State.trapDisarms (s : State) (a : Eng) (m : BitVec 12) : List (Fin 32) :=
  (fins 32).filter fun (c : Fin 32) =>
    let k := s.eng[a].reel.cmp[seqCmp c]
    let t := s.eng[a].seq.tags[c]
    c.val != 0 && k.armed && decide (k.headMask &&& m ≠ 0) && (k.action == 3 || (k.action == 0 && (t.stb == .on || t.sstart)))

/-- TSV0 to TSV7 (R391). -/
def State.savedTrap (s : State) (a : Eng) (code : Nat) : Vector Word 8 :=
  let q := s.eng[a].seq
  let w := q.current
  let pend := if q.waitDone then waitsOn w else none
  let t : Stamp := match pend with
    | some c => s.eng[a].reel.cmp[seqCmp c].target
    | none => {}
  #v[mkw [bb 31 true, bf 27 24 code, bf 12 0 q.upc], mkw [bf 31 16 q.lc[1].toNat, bf 15 0 q.lc[0].toNat],
    mkw [bf 31 16 q.lc[3].toNat, bf 15 0 q.lc[2].toNat], (s.seqConds a w).setWidth 32, rSeqGates s a,
    match pend with
      | some c => mkw [bb 31 true, bf 5 0 (16 + c.val)]
      | none => 0,
    stampLo t, stampHi t]

/-- The pending cause of the lowest code. -/
def Sequencer.nextTrap (q : Sequencer) : Option (Fin 4) := (fins 4).find? fun (i : Fin 4) => q.trapPend.getLsbD i.val

/-- A trap routine is entered for a pending cause (R389, R390); the state is saved unless a routine was running (R393). -/
def State.enterTrap (s : State) (a : Eng) (i : Fin 4) (save : Bool) : State :=
  let code := i.val + 1
  let m := s.trapHeads a
  let out := s.trapDisarms a m
  let tsv := if save then s.savedTrap a code
    else vset s.eng[a].seq.tsv 0 (setFld s.eng[a].seq.tsv[0] 27 24 code)
  let s := s.modSeq a fun q =>
    { q with tsv := tsv, savedWait := if save then q.waitDone else q.savedWait, trapFired := if save then [] else q.trapFired }
  let s := (s.headsIn a m).foldl (fun s g => s.forceWriteOff g (s.angle a) true false) s
  let s := out.foldl (fun s c => s.disarmSeq a c) s
  let s := s.modWrg a fun w => { w with trapMask := m }
  s.modSeq a fun q =>
    let flush := decide (code = 2)
    { q with
      state := .trap, bank := 1, upc := 0x10 + 4 * code, waitDone := false, runEnd := true, trapHeads := m
      trapPend := q.trapPend &&& ~~~((1 : BitVec 4) <<< i.val), trapCnt := vmod q.trapCnt i fun n => satAdd 8 n 1
      trapDisarmed := (if save then [] else q.trapDisarmed) ++ out.map fun c => 16 + c.val
      skipped := if flush then q.fq ++ q.skipped else q.skipped, fq := if flush then [] else q.fq }

/-- RTT in a trap routine (R393). -/
def State.returnTrap (s : State) (a : Eng) : State :=
  let s := s.modWrg a fun w => { w with trapMask := 0 }
  match s.eng[a].seq.nextTrap with
  | some i => s.enterTrap a i false
  | none =>
    let q := s.eng[a].seq
    let t := q.tsv
    let half := fun (w : Word) (hi lo : Nat) => BitVec.ofNat 16 (fld w hi lo)
    let s := s.modSeq a fun q =>
      { q with
        state := .run, bank := 0, upc := fld t[0] 12 0, waitDone := q.savedWait, savedWait := false, trapHeads := 0
        lc := #v[half t[1] 15 0, half t[1] 31 16, half t[2] 15 0, half t[2] 31 16]
        late := q.late || t[3].getLsbD 9, runEnd := q.runEnd || t[3].getLsbD 10, tsv := vset t 0 (setFld t[0] 31 31 0) }
    let c : Fin 32 := finMod 32 (by decide) (fld t[5] 5 0 - 16)
    let k := s.eng[a].reel.cmp[seqCmp c]
    if t[5].getLsbD 31 && !k.armed && !q.trapFired.contains (16 + c.val) && !q.trapDisarmed.contains (16 + c.val) then
      let g := q.tags[c]
      s.armSeq a c
        { target := { rev := t[7].toNat, wedge := fld t[6] 31 16, frac := fld t[6] 15 0 }, action := k.action, mask := k.headMask
          stb := g.stb, final := g.final, sstart := g.sstart, frag := g.frag } k.repeat_
    else s

/-- TRAP_ENTRY (R389 to R391): the pending cause of the lowest code is taken at the end of the current microword, or at once in a
WAIT; a word that an ARMF holds up has not ended. -/
def execTrapEntry (a : Eng) (s : State) : Out :=
  .next (
    let q := s.eng[a].seq
    if s.enginePresent a ∧ q.state = .run ∧ q.stall = none then
      match q.nextTrap with
      | some i => s.enterTrap a i true
      | none => s
    else s)

/-- CORE_TRAP_REQUEST (R389): cause 0x4. -/
def execCoreTrapRequest (a : Eng) (s : State) : Out := .next (if s.enginePresent a then s.trapCause a 4 else s)

/-- WAIT_TIMEOUT (R389): a WAIT, other than on comparator 16, has lasted more than WAIT_MAX wedges. -/
def execWaitTimeout (a : Eng) (s : State) : Out :=
  .next (
    let q := s.eng[a].seq
    if s.seqRuns a && q.waitDone && waitsOn q.current != some 0 &&
        decide ((q.waitMax * 65536 : Nat) < angleDiff (s.angle a) q.waitSince) then s.trapCause a 3
    else s)

/-! ### Execution of a word (R388) -/

/-- The next address, from the sampled conditions. -/
def State.microNext (s : State) (a : Eng) (w : BitVec 128) (cs : BitVec 16) : State :=
  let q := s.eng[a].seq
  let inc := (q.upc + 1) % 8192
  let tgt := mfld w 119 107
  match mfld w 127 125 with
  | 0 => s.modSeq a fun q => { q with upc := inc }
  | 1 => s.modSeq a fun q => { q with upc := if microHolds w cs then tgt else inc }
  | 2 =>
    let i : Fin 4 := finMod 4 (by decide) (mfld w 106 105)
    let v := q.lc[i] - 1
    s.modSeq a fun q => { q.setLc i v with upc := if v = 0 then inc else tgt }
  | 3 =>
    if 4 ≤ q.regs.stack.length then s.machineCheck a 2 0
    else s.modSeq a fun q => { q.modRegs fun b => { b with stack := inc :: b.stack } with upc := tgt }
  | 4 =>
    match q.regs.stack with
    | r :: t => s.modSeq a fun q => { q.modRegs fun b => { b with stack := t } with upc := r }
    | [] => s.machineCheck a 2 0
  | 5 =>
    let s := if waitsOn w = some 0 then s.jobDone a else s
    if microHolds w cs then s.modSeq a fun q => q.endWait w
    else s.modSeq a fun q => { q with waitDone := true, waitSince := s.angle a }
  | 6 => if q.state = .trap then s.returnTrap a else s.machineCheck a 3 0
  | _ => s

/-- The word at the micro-PC executes (R388): AOP, CMPOP, FOP, LOP, DOP in that order, then the next address. -/
def State.execWord (s : State) (a : Eng) : State :=
  let w := s.eng[a].seq.current
  let cs := s.seqConds a w
  let s := (s.microAop a w).microCmp a w cs
  if s.eng[a].seq.stall.isSome then s else (s.microOps a w).microNext a w cs

/-- One word, where it is one of a next-address operation. A fetch that fails its check is a machine check whatever it holds. -/
def State.wordOf (s : State) (a : Eng) (na : Nat) : State :=
  if s.seqReady a && !s.eng[a].seq.waitDone then
    match s.eng[a].seq.fetchCheck with
    | some (kind, qtr) => s.machineCheck a kind qtr
    | none => if mfld s.eng[a].seq.current 127 125 = na then s.execWord a else s
  else s

/-- INC: a word whose next address is PC + 1. -/
def execInc (a : Eng) (s : State) : Out := .next (s.wordOf a 0)
/-- BR: to TGT if the condition holds. -/
def execBr (a : Eng) (s : State) : Out := .next (s.wordOf a 1)
/-- LOOP: one less in the loop counter; to TGT while it is not zero. -/
def execLoop (a : Eng) (s : State) : Out := .next (s.wordOf a 2)
/-- CALL: PC + 1 on the return stack. -/
def execCall (a : Eng) (s : State) : Out := .next (s.wordOf a 3)
/-- RET: the return stack popped. -/
def execRet (a : Eng) (s : State) : Out := .next (s.wordOf a 4)
/-- WAIT: its operations on the first cycle; it ends at once where its condition holds. -/
def execWait (a : Eng) (s : State) : Out := .next (s.wordOf a 5)
/-- RTT: the return from a trap. -/
def execRtt (a : Eng) (s : State) : Out := .next (s.wordOf a 6)

/-- WAIT_COMPLETE (R376, R388): the condition of a WAIT holds. -/
def execWaitComplete (a : Eng) (s : State) : Out :=
  .next (
    let q := s.eng[a].seq
    let w := q.current
    if s.seqReady a && q.waitDone && microHolds w (s.seqConds a w) then s.modSeq a fun q => q.endWait w else s)

/-- ARMF_STALL_END (R381): a comparator is free; the arm takes place, and the rest of the word follows. -/
def execArmfStallEnd (a : Eng) (s : State) : Out :=
  .next (
    match s.eng[a].seq.stall, s.freeCmp a with
    | some (x, cs), some c =>
      let w := s.eng[a].seq.current
      let s := (s.modSeq a fun q => { q with stall := none }).armSeq a c x 0
      match cs with
      | some cs => (s.microOps a w).microNext a w cs
      | none => s
    | _, _ => s)

/-! ### Store, restart and hold (R395 to R398) -/

/-- Words written into a store, each with its parity formed. -/
def writeStore (st : List (Nat × StoreWord)) (l : List (Nat × BitVec 128)) : List (Nat × StoreWord) :=
  l.foldl (fun st p => oset st (p.1 % 8192) { word := p.2, parity := microParity p.2 }) st

/-- The patches that apply to the running image's store, in the order they were taken. -/
def State.storePatches (s : State) : List SignedObj :=
  s.nor.patches.filter fun (p : SignedObj) => p.storeVer == s.sec.running.storeVer

/-- The store of the running firmware image with its patches: the DRAM copy (R395, R397). -/
def State.storeCopy (s : State) : List (Nat × StoreWord) :=
  s.storePatches.foldl (fun st p => writeStore st p.words) (writeStore [] s.sec.running.words)

/-- The patch level of that store. -/
def State.storeLevel (s : State) : Nat := s.storePatches.foldl (fun _ p => p.patchLvl) 0

/-- The store loaded from the copy, which holds everything a hold was to write. -/
def State.loadStore (s : State) (a : Eng) : State :=
  s.modSeq a fun q =>
    { q with store := s.storeCopy, storeVer := s.sec.running.storeVer, patchLvl := s.storeLevel, holdReq := false, holdImage := none }

/-- The sequencer starts at an address of the store (R395, R397): RUN, with its jobs. -/
def State.startSeq (s : State) (a : Eng) (pc : Nat) : State :=
  (s.modSeq a fun q => { q with state := .run, bank := 0, upc := pc, waitDone := false, stall := none, gatesForced := false }).startJobs a

/-- SEQUENCER_RESTART (R395): after a machine check the core reloads the store, empties the queue and restarts at 0x0004; open packets
are dropped. -/
def execSequencerRestart (a : Eng) (s : State) : Out :=
  .next (if s.enginePresent a ∧ s.eng[a].seq.state = .mchk then
      let s := (s.loadStore a).modSeq a fun q => { q with skipped := q.fq ++ q.skipped, fq := [] }
      (((s.headsOf a).foldl State.dropHead s).startSeq a 4).patchApplied
    else s)

/-- Clocks until comparator 16 fires next, as the stamp and FRAC_INC show, are at least 6 µs (R398). -/
def State.holdFits (s : State) (a : Eng) : Bool :=
  let r := s.eng[a].reel
  let k := r.cmp[(16 : CmpIx)]
  let d := angleDiff (angleAdd k.target.linear (-(r.advance : Int))) (s.angle a)
  !k.armed || r.fracInc == 0 || decide ((18000 * r.fracInc : Nat) ≤ d * 65536)

/-- SEQ_HOLD_ENTRY (R398): at a WAIT on comparator 16 with JOB_PEND at zero and no trap pending or running. -/
def execSeqHoldEntry (a : Eng) (s : State) : Out :=
  .next (
    let q := s.eng[a].seq
    if s.enginePresent a && q.holdReq && q.state == .run && q.waitDone && waitsOn q.current == some 0 && q.jobPend == 0 &&
        q.trapPend == 0 && s.holdFits a then s.modSeq a fun q => { q with state := .hold }
    else s)

/-- SEQ_HOLD_RESUME (R398): the core has written the words; the sequencer resumes at 0x0008. A patch's commit ends with the last one. -/
def execSeqHoldResume (a : Eng) (s : State) : Out :=
  .next (if s.enginePresent a ∧ s.eng[a].seq.state = .hold then
      (s.modSeq a fun q =>
        let q := match q.holdImage with
          | some (ver, lvl, words) => { q with store := writeStore q.store words, storeVer := ver, patchLvl := lvl }
          | none => q
        { q with state := .run, upc := 8, waitDone := false, holdReq := false, holdImage := none }).patchApplied
    else s)

/-! ### Packets (0x01C0 to 0x01C4) -/

/-- seq.status. -/
def execSeqStatus (p : Packet) (s : State) : Out :=
  .next (runPacket ⟨0x01C0, [4], .read⟩ p s fun s => .report s (stSeq s p.eng))

/-- SEQ_JOB after clamping and R399. -/
def seqJobWord (old sent : Word) : Word :=
  let w := clampWord [fAny 31 16, fIn 15 0 0x0B00 0x4000] old sent
  setFld w 31 16 (min 0xC000 (max (fld w 31 16) (fld w 15 0 + 0x1000)))

/-- seq.config (R399, R400). -/
def opSeqConfig (p : Packet) (s : State) : PktRes :=
  let q := s.eng[p.eng].seq
  let j := seqJobWord (rSeqJob q) (p.w 0)
  let c := clampWord [fIn 31 24 1 255, fIn 23 19 8 24, fIn 11 0 150 3000] (rSeqCfg q) (p.w 1)
  let s := s.modSeq p.eng fun q =>
    { q with jobE := fld j 31 16, jobS := fld j 15 0, waitMax := fld c 31 24, rdTail := fld c 23 19, wenLead := fld c 11 0 }
  let s := s.modNor fun n => { n with engs := vmod n.engs p.eng fun e => { e with seqJob := j, seqCfg := c } }
  { state := s, clamp := clampBits [(0, p.w 0, j), (1, p.w 1, c)], result := [j, c] }
/-- seq.config. -/
def execSeqConfig (p : Packet) (s : State) : Out := .next (runPacket ⟨0x01C1, [4], .config⟩ p s (opSeqConfig p))

/-- seq.trapsave. -/
def execSeqTrapsave (p : Packet) (s : State) : Out :=
  .next (runPacket ⟨0x01C2, [4], .read⟩ p s fun s => .report s (s.eng[p.eng].seq.tsv.toList.take 6))

/-- seq.word (R400): the word as the sequencer would fetch it, with its parity bits. -/
def opSeqWord (p : Packet) (s : State) : PktRes :=
  let n := clampWord [fIn 31 0 0 8191] 0 (p.w 0)
  let w := s.eng[p.eng].seq.wordAt n.toNat
  { state := s, clamp := clampBits [(0, p.w 0, n)]
    result := ((List.range 4).map fun (i : Nat) => nw (mfld w.word (32 * i + 31) (32 * i))) ++ [w.parity.setWidth 32] }
/-- seq.word. -/
def execSeqWord (p : Packet) (s : State) : Out := .next (runPacket ⟨0x01C3, [4], .read⟩ p s (opSeqWord p))

/-- seq.clear. -/
def opSeqClear (p : Packet) (s : State) : PktRes :=
  let m := fld (p.w 0) 4 0
  let q := s.eng[p.eng].seq
  let vals := [nw q.mcCnt, rTrapCnt q, nw q.lateArmCnt, nw q.notrdyCnt, nw q.stallCnt]
  let s := s.modSeq p.eng fun q =>
    { q with
      mcCnt := clr m 0 q.mcCnt, trapCnt := if m.testBit 1 then Vector.replicate 4 0 else q.trapCnt
      lateArmCnt := clr m 2 q.lateArmCnt, notrdyCnt := clr m 3 q.notrdyCnt, stallCnt := clr m 4 q.stallCnt }
  { state := s, clamp := clampBits [(0, p.w 0, nw m)], result := selected m (vals.map fun v => [v]) }
/-- seq.clear. -/
def execSeqClear (p : Packet) (s : State) : Out := .next (runPacket ⟨0x01C4, [4], .action⟩ p s (opSeqClear p))

end Sys2Proof.Machine
end

