-- ==== Sys2Proof/Machine/Fire.lean ====
section
/-! DEFINITION. COMPARATOR_FIRE (spec/02_angle_timeline.md, R53, R57, R65 to R69): a comparator reaches its target and does what its
owner has it do. -/

namespace Sys2Proof.Machine
open Sys2Proof

/-- The owners whose comparators fire in a timeline state (R57). -/
def ownerFires (t : TState) (owner : Nat) : Bool :=
  match t with
  | .stopped => false
  | .spindle => owner == 0 || owner == 6 || owner == 5 || owner == 7
  | .acquire => owner == 0 || owner == 1 || owner == 2 || owner == 6 || owner == 5 || owner == 7
  | .locked | .flywheel => owner != 0xF

/-- What a comparator's firing is compared with: comparator 16 fires earlier by the advance of R74 (R377). -/
def State.fireTarget (s : State) (a : Eng) (c : CmpIx) : Angle :=
  let t := s.eng[a].reel.cmp[c].target.linear
  if c.val = 16 then angleAdd t (-(s.eng[a].reel.advance : Int)) else t

/-- Lateness of a firing (R66): none for a target inside the forward step of this clock (R53). -/
def State.fireLateness (s : State) (a : Eng) (c : CmpIx) : Nat :=
  let t := s.eng[a].reel.cmp[c].target.linear
  let late := (max 0 (angleDiff (s.angle a) t)).toNat
  match s.eng[a].reel.step with
  | some (before, at_) => if at_ = s.mtime ∧ 0 < angleDiff t before then 0 else late
  | none => late

/-- A firing whose lateness exceeds LATE_TOL counts, and sets LATE and CMP_LATE (R66). -/
def State.noteLate (s : State) (a : Eng) (c : CmpIx) (late : Nat) : State :=
  let r := s.eng[a].reel
  if r.lateTol.toNat < late then
    ((s.modReel a fun r => { r with lateCnt := inc 32 r.lateCnt }).modCmp a c fun k =>
      { k with late := true, lateness := min late (2 ^ 32 - 1) }).saturated (reaches 32 r.lateCnt) 0x02 4 a.val
      (engBase a + 0x28) (nw (r.lateCnt + 1))
  else s

/-- The comparator after its firing (R67): disarmed, or its target one period on, compared from the next clock. Comparator 16's
target moves with JOB_S where that has changed since it was placed (R399). -/
def State.rearm (s : State) (a : Eng) (c : CmpIx) : State :=
  let q := s.eng[a].seq
  let move : Int := if c.val = 16 then (q.jobS : Int) - q.jobArmed else 0
  let s := s.modCmp a c fun k =>
    if k.repeat_ = 0 then k.disarm
    else { k with
      target := Stamp.ofLinear (angleAdd k.target.linear ((k.repeat_.toNat * 256 : Nat) + move))
      loWritten := false, hiWritten := false, armedAt := some s.mtime }
  if c.val = 16 then s.modSeq a fun q => { q with jobArmed := q.jobS } else s

/-- A comparator fires on this clock (R57, R65, R66): armed before it, its owner acting, its target reached. -/
def State.cmpDue (s : State) (a : Eng) (c : CmpIx) : Bool :=
  let r := s.eng[a].reel
  s.enginePresent a && r.cmp[c].armed && r.cmp[c].armedAt != some s.mtime && ownerFires r.state (cmpOwner c) &&
    reached (s.angle a) (s.fireTarget a c)

/-- The heads whose gate an off edge due on this clock closes too: off wins (R68). -/
def State.offDue (s : State) (a : Eng) (off : Nat) : BitVec 12 :=
  (fins 64).foldl (fun (m : BitVec 12) (c : CmpIx) =>
    if cmpSeq c && s.eng[a].reel.cmp[c].action == off && s.cmpDue a c then m ||| s.eng[a].reel.cmp[c].headMask else m) 0

/-- A trigger waits for a trigger of a lower number that fires on the same clock (R68). -/
def State.triggerWaits (s : State) (a : Eng) (c : CmpIx) : Bool :=
  cmpSeq c && s.eng[a].reel.cmp[c].action == 0 &&
    (fins 64).any fun (d : CmpIx) => decide (d < c) && cmpSeq d && s.eng[a].reel.cmp[d].action == 0 && s.cmpDue a d

/-- The heads of an engine. -/
def State.eachHead (s : State) (a : Eng) (f : State → Head → State) : State := (s.headsOf a).foldl f s

/-- The stamp of an engine in ACQUIRE lies in the search window, or in the servo field comparators 0 and 1 hold open (R681). -/
def Reel.inWindow (r : Reel) : Bool :=
  r.acq == .window && (decide (r.stamp.frac ≤ 4 * r.markWin.toNat) || decide (65536 - 4 * r.markWin.toNat ≤ r.stamp.frac))
/-- See `Reel.inWindow`. -/
def Reel.inField (r : Reel) : Bool := decide (r.stamp.frac < 0x0B00) || decide (0xF100 ≤ r.stamp.frac)

/-- Comparators 0, 1, 5, 6 and 7: servo gates (R69, R118, R681). -/
def State.fireServo (s : State) (a : Eng) (c : CmpIx) : State :=
  let r := s.eng[a].reel
  let all := fun (on : Bool) => s.eachHead a fun s g => s.servoGate g on
  if r.state = .spindle then s
  else match c.val with
    | 0 => if r.state = .acquire ∧ r.acq = .search then s else all true
    | 1 => if r.state = .acquire ∧ (r.acq = .search ∨ r.inWindow) then s else all false
    | 5 => all true
    | 6 => (all true).modReel a fun r => { r with acqMissed := r.acqMissed + 1 }
    | _ =>
      let s := if r.inField then s else all false
      if r.state = .acquire ∧ 1 ≤ r.acqMissed then
        if 8 ≤ r.acqMissed then s.beginSearch a else s.modReel a fun r => { r with acqGood := 0, lastMark := none }
      else s

/-- Comparators 48 to 59: PREHEAT for one head (R82, R238, R239, R320): its assist loop drives open from the strobe on. -/
def State.firePreheat (s : State) (a : Eng) (h : LHead) : State :=
  match s.globalHead a h.val with
  | none => s
  | some g =>
    if !s.eng[a].reel.cmp[(⟨48 + h.val, by omega⟩ : CmpIx)].headMask.getLsbD h.val then s
    else
    let s := s.strobeHead g .preheat
    if s.head[g].wr.writeReady then
      let s := s.modWr g fun w => { w with preheated := true, preheatAt := some (s.angle a) }
      let v := unitsOut (s.assistWr g)
      s.modLoop (asstSlot g) fun x => if x.en then { x with lmode := .open_, blendK := 0, openVal := v, out := v } else x
    else s

/-- Lines whose zones no longer have a run armed are unpinned (R419). -/
def State.unpinIdle (s : State) (a : Eng) : State :=
  let tracks := (s.headsOf a).filterMap fun g => if s.head[g].wr.run.isSome || s.packetOpen g then some s.head[g].map.track else none
  let busy := s.eng[a].seq.fq.isEmpty && !(s.eng[a].reel.cmp.toList.zipIdx.any fun (k, i) => k.armed && decide (17 ≤ i ∧ i < 48))
  if busy then
    let s := s.modZdc a fun z =>
      { z with lines := z.lines.map fun l =>
          if 0 < l.pins ∧ !(tracks.any fun t => decide (l.desc.firstTrk ≤ t ∧ t < l.desc.firstTrk + l.desc.rows)) then
            { l with pins := 0 } else l }
    s.zdcSettle a
  else s

/-! ### The ladder's reads at the samples of the loops (R207, R208) -/

/-- An angle lies from one wedge before a sector to its end. -/
def State.nearSector (s : State) (a : Eng) (p : SectorAt) (x : Angle) : Bool :=
  decide ((x % revUnits + 65536 + revUnits - s.slotAngle a p) % revUnits ≤ 65536 + s.slotLength a p)

/-- The job whose read of step 4 or 5 a head is passing: it follows the sector's track and lies over the sector or one wedge before it. -/
def State.biasedJob (s : State) (a : Eng) (g : Head) (x : Angle) : Option (JobIx × RecJob) :=
  (fins 16).findSome? fun (j : JobIx) =>
    match s.eng[a].recv.jobs[j] with
    | some y =>
      if y.biased && y.wait == .try_ && y.offs.isEmpty && s.globalHead a y.at_.head.val == some g &&
          s.head[g].map.track == y.at_.track && s.nearSector a y.at_ x then some (j, y) else none
    | none => none

/-- The offset and the bias the ladder gives a head at a sample (R207, R208). -/
def State.ladderSet (s : State) (a : Eng) (g : Head) (x : Angle) : State :=
  let r := s.eng[a].recv
  let y := (s.biasedJob a g x).map (·.2)
  s.modHs g fun h =>
    { h with ladderOfs := (y.map fun y => y.trackOffset r).getD 0, ladderBias := (y.map fun y => y.heaterBias r).getD 0 }

/-- Head contact at a heater sample of a try of step 4 ends the try and the rest of the step; the read in progress is no read of the
job any more (R207, log 65). -/
def State.ladderContact (s : State) (a : Eng) (g : Head) (x : Angle) : State :=
  match s.biasedJob a g x with
  | some (j, y) =>
    let k := s.eng[a].links[linkOf (s.localOf g)]
    if y.step = 4 ∧ Config.headContact g k.htrSense[afeHead (s.localOf g)] then
      ((s.voidReads a j).modJob a j fun y => { y with contact := true }).tryFailed a j
    else s
  | none => s

/-- The servo sample, with the ladder's offsets (R208). -/
def State.servoFire (s : State) (a : Eng) (fields : List HeadField) (x : Angle) : State :=
  ((s.headsIn a s.eng[a].reel.cmp[(3 : CmpIx)].headMask).foldl (fun s g => s.ladderSet a g x) s).servoSample a fields x

/-- The heater and assist samples, with the ladder's biases (R207). -/
def State.heatFire (s : State) (a : Eng) (x : Angle) : State :=
  let gs := s.headsIn a s.eng[a].reel.cmp[(4 : CmpIx)].headMask
  let s := gs.foldl (fun s g => (s.ladderSet a g x).ladderContact a g x) s
  s.heatSamples a x

/-- Comparators 16 to 47: the sequencer's triggers and gate edges (R376, R379 to R386, R392). -/
def State.fireSeq (s : State) (a : Eng) (c : CmpIx) (at_ : Angle) : State :=
  let n : Fin 32 := finMod 32 (by decide) (c.val - 16)
  let t := s.eng[a].seq.tags[n]
  let k := s.eng[a].reel.cmp[c]
  let s := s.modSeq a fun q =>
    let q := { q with trapFired := if q.state = SeqState.trap then c.val :: q.trapFired else q.trapFired }
    if n = 0 then { q with jobPend := min 15 (q.jobPend + 1) }
    else { q with tags := vmod q.tags n fun t => { t with fired := true } }
  let on := fun (off : Nat) => s.headsIn a (k.headMask &&& ~~~(s.offDue a off))
  let gs := s.headsIn a k.headMask
  match k.action with
  | 0 =>
    let s := match t.stb with
      | .on => s.writeEnable a k.headMask true
      | .off => s.writeEnable a k.headMask false
      | .none => s
    if t.sstart then gs.foldl (fun s g => s.sectorStart a g t.frag at_) s else s
  | 1 => (on 2).foldl (fun s g => s.readOn a g t.frag at_) s
  | 2 =>
    let s := gs.foldl (fun s g => s.readOff g t.final) s
    if t.final then s.unpinIdle a else s
  | 3 => (on 4).foldl (fun s g => s.writeOn a g t.frag at_) s
  | 4 =>
    let s := gs.foldl (fun s g => (s.writeOff a g t.frag.final).settleRun a g) s
    let s := if t.stb = .off then s.writeEnable a k.headMask false else s
    if t.frag.final then s.unpinIdle a else s
  | _ => s

/-- What a comparator's owner has it do, for the heads of its HEAD_MASK (R69); comparator 2 launches on the links that serve one. -/
def State.fireAction (s : State) (a : Eng) (c : CmpIx) (d : FireData) (at_ : Angle) : State :=
  match cmpOwner c with
  | 0 => s.fireServo a c
  | 1 => if c.val = 3 then s.servoFire a d.fields at_ else s.heatFire a at_
  | 2 => (fins 2).foldl (fun s (l : LinkIx) =>
      if (s.eng[a].reel.cmp[c].headMask >>> (6 * l.val)).setWidth 6 = (0 : BitVec 6) then s else s.launchOrWait a l) s
  | 3 => s.fireSeq a c at_
  | 4 => s.firePreheat a (finMod 12 (by decide) (c.val - 48))
  | 6 => s.modPwr fun p => { p with epochDue := true }
  | 7 => if s.eng[a].reel.markerTrace then (if s.trc.tAng then s.traceTrigger 0b001 else s) else s.condReel a
  | _ => s

/-- COMPARATOR_FIRE (R53, R57, R59, R65 to R69): a comparator that is due takes its action at its angle, late or not. Comparator 8
acts on the reference engine only: elsewhere its target moves on and nothing is counted (log 62). -/
def execComparatorFire (a : Eng) (c : CmpIx) (d : FireData) (s : State) : Out :=
  .next (
    if !s.cmpDue a c || s.triggerWaits a c then s
    else if c = 8 ∧ s.refEngine ≠ a then s.rearm a c
    else
      let at_ := s.eng[a].reel.cmp[c].target.linear
      let s := (s.noteLate a c (s.fireLateness a c)).rearm a c
      let s := (s.modReel a fun r => { r with firing := c.val }).fireAction a c d at_
      (s.modReel a fun r => { r with firing := 0 }).reapCredits)

end Sys2Proof.Machine
end

