-- ==== Sys2Proof/Machine/Zones.lean ====
section
/-! DEFINITION. The meanings of the zones' commands (spec/12_zones_media_map.md): zone resets and states, the conventional region
with its log groups and compaction, the zone descriptor cache, and the ten zone and map packets. -/

namespace Sys2Proof.Machine
open Sys2Proof

/-! ### Zone resets and states (R411, R220, R453) -/

/-- Open or closed: the states in which R455 counts. -/
def ZState.openOrClosed (x : ZState) : Bool := x == .impOpen || x == .expOpen || x == .closed

/-- A zone enters a state; the time of R455 runs from its entry into an open or closed state from another one. -/
def State.enterZState (s : State) (z : ZoneNo) (zs : ZState) : State :=
  let d := s.zoneDesc z
  let s := s.setZone z fun d => { d with zs := zs, zfr := d.zfr && zs.openOrClosed }
  if zs.openOrClosed then
    if d.zs.openOrClosed then s else s.modHost fun h => { h with zoneTimes := aset h.zoneTimes z s.mtime }
  else s.modHost fun h => { h with zoneTimes := aerase h.zoneTimes z }

/-- The track lies in a zone's rows. -/
def ZoneDesc.hasTrack (d : ZoneDesc) (t : Nat) : Bool := decide (d.firstTrk ≤ t ∧ t < d.firstTrk + d.rows)

/-- The bands of an engine all of whose spare sectors are free are reset for reuse (R220). -/
def State.reuseSpares (s : State) (a : Eng) : State :=
  let held := fun (h : LHead) (n : Fin 8) => s.media.remaps[a].any fun m => m.spare.head == h && s.regionOf a m.spare.track == some n
  s.modRec a fun r =>
    { r with spareNext := Vector.ofFn fun (h : LHead) => Vector.ofFn fun (n : Fin 8) => if held h n then r.spareNext[h][n] else 0 }

/-- A zone's remaps are cleared (R220): their spare sectors become free, their originals stay grown defects; a reallocation that is
not durable is dropped. -/
def State.clearRemaps (s : State) (a : Eng) (z : ZoneNo) : State :=
  let gone := s.media.remaps[a].filter fun m => m.zone == z
  let s := gone.foldl (fun s m => if s.defectKind a m.orig 1 then s else s.addDefect a 1 m.orig) s
  let keep := fun (v : Vector (List Remap) 4) => vmod v a fun l => l.filter fun m => m.zone != z
  let s := (s.modMedia fun m => { m with remaps := keep m.remaps }).modNor fun n => { n with remaps := keep n.remaps }
  let s := s.modRec a fun r =>
    { r with reallocs := r.reallocs.filter fun x => x.zone != z, spareUsed := r.spareUsed - gone.length }
  let s := s.modRec a fun r => { r with spareFull := r.spareFull && decide (r.spareTotal ≤ r.spareUsed) }
  s.reuseSpares a

/-- The unreadable and weak entries of a zone's tracks become grown defects (R411). -/
def State.growDefects (s : State) (a : Eng) (d : ZoneDesc) : State :=
  (s.media.defects[a].filter fun x => (x.kind == 2 || x.kind == 3) && d.hasTrack x.at_.track).foldl (fun s x => s.addDefect a 1 x.at_) s

/-- The blocks of a zone about to be reset that are not durable keep their DRAM copies and still go to their sectors, as of before the
reset (R33, log 17). -/
def State.keepZoneWrites (s : State) (z : ZoneNo) : State :=
  let d := s.zoneDesc z
  s.views.foldl (fun t v =>
    if v.zone = some z then
      t.modView v.startNo fun l => l.zipIdx.map fun (b, k) =>
        if s.blockSafe d (v.zofs + k) b || b.failed.isSome || b.old.isSome then b
        else match s.viewSector v k with
          | some (_, _, p) => { b with old := some (s.remapped d.engine d p, d.zgen), onMedia := false }
          | none => b
    else t) s

/-- Blocks of reads whose job a reset of their zone ended are read again against its state: as zeroes (R214, R484). -/
def State.zeroBlocks (s : State) (l : List (CtxIx × Nat × Bool)) : State :=
  l.foldl (fun s (x, k, _) => s.modCtx x fun c => ({ c with blocks := c.blocks.zipIdx.map fun (b, i) =>
    if i = k && !b.here && b.failed.isNone then { b with source := .zeroes, here := true, sent := c.verify, data := {} } else b } : Ctx).settleRead) s

/-- A zone reset (R411), of a zone already EMPTY as well: its jobs end (R214), its suspect sectors and remaps go. A log zone stays
LOG (R418). -/
def State.resetZone (s : State) (z : ZoneNo) : State :=
  let d := s.zoneDesc z
  let a := d.engine
  let cmds := s.eng[a].recv.jobs.toList.flatMap fun j => match j with
    | some x => if d.hasTrack x.at_.track then x.cmds else []
    | none => []
  let s := ((s.keepZoneWrites z).closeJobs a fun j => d.hasTrack j.at_.track).zeroBlocks cmds
  let s := (s.headsOf a).foldl (fun s g => s.modWr g fun w => { w with suspects := w.suspects.filter fun x => !d.hasTrack x.at_.track }) s
  let s := (s.clearRemaps a z).growDefects a d
  let s := s.setZone z fun d =>
    { s.recompute { d with zgen := d.zgen + 1, wp := 0, remapN := 0, suspN := 0, zfr := false, holes := false } with
      zs := if d.zs = .log then .log else .empty }
  let s := s.modMedia fun m => { m with groups := vmod m.groups a fun l => l.filter fun g => g.zone != z }
  s.modHost fun h => { h with zoneTimes := aerase h.zoneTimes z }

/-- The action of a Zone Management Send is valid from a zone's state (R453): the Zoned Namespace command set's transitions. -/
def zoneActOk (act : ZoneAct) (zs : ZState) : Bool :=
  match act with
  | .open_ => zs == .empty || zs == .impOpen || zs == .expOpen || zs == .closed
  | .close => zs.openOrClosed
  | .finish => zs == .empty || zs.openOrClosed || zs == .full
  | .reset => zs == .empty || zs.openOrClosed || zs == .full
  | .offline => zs == .readOnly || zs == .offline
  | .setExt => false

/-- The states a Select All acts on. -/
def zoneActAll (act : ZoneAct) (zs : ZState) : Bool :=
  match act with
  | .open_ => zs == .closed
  | .close => zs == .impOpen || zs == .expOpen
  | .finish => zs.openOrClosed
  | .reset => zs.openOrClosed || zs == .full
  | .offline => zs == .readOnly
  | .setExt => false

/-- An action applied to one zone. -/
def State.zoneAct (s : State) (act : ZoneAct) (z : ZoneNo) : State :=
  let d := s.zoneDesc z
  match act with
  | .open_ => s.enterZState z .expOpen
  | .close => if d.zs = .closed then s else s.enterZState z .closed
  | .finish => if d.zs = .full then s else s.enterZState z .full
  | .reset => s.resetZone z
  | .offline => s.enterZState z .offline
  | .setExt => s

/-- Open zones of a namespace, and active ones (open or closed). -/
def State.openZones (s : State) (n : Namespace) : Nat :=
  (n.zones.filter fun z => (s.zoneDesc z).zs == .impOpen || (s.zoneDesc z).zs == .expOpen).length
/-- See `openZones`. -/
def State.activeZones (s : State) (n : Namespace) : Nat := (n.zones.filter fun z => (s.zoneDesc z).zs.openOrClosed).length

/-- The limits of R453 allow a zone to open: 256 active and 256 open zones. -/
def State.openLimit (s : State) (n : Namespace) (zs : ZState) : Option NvStatus :=
  if zs = .impOpen ∨ zs = .expOpen then none
  else if zs = .empty ∧ 256 ≤ s.activeZones n then some (stCmd 0xBD)
  else if 256 ≤ s.openZones n then some (stCmd 0xBE)
  else none

/-! ### Log zones (R415 to R418, R644) -/

/-- Log zones of an engine, image zones apart. -/
def State.logZones (s : State) (a : Eng) : List (ZoneNo × ZoneDesc) :=
  (s.zonesOf a).filter fun p => p.2.zs == .log && !s.nor.imageZones.contains p.1

/-- A log zone takes another group: room for a block and a summary, every head of it usable (R430), not being compacted. -/
def State.logRoom (s : State) (a : Eng) (p : ZoneNo × ZoneDesc) : Bool :=
  decide (p.2.wp + 2 ≤ p.2.zcap) && (p.2.hmask &&& ~~~(s.usableMask a)) == 0 && s.media.compacting[a] != some p.1

/-- The log zone an engine appends to: one begun, else an EMPTY one. -/
def State.logTarget (s : State) (a : Eng) : Option ZoneNo :=
  if s.engineFailed a then none
  else
    let l := (s.logZones a).filter (s.logRoom a)
    ((l.find? fun p => 0 < p.2.wp).orElse fun _ => l.head?).map (·.1)

/-- The open group of an engine. -/
def State.openGroup (s : State) (a : Eng) : Option LogGroup := s.media.groups[a].find? fun g => !g.closed

/-- A group of an engine changed. -/
def State.modGroup (s : State) (a : Eng) (seq : Word) (f : LogGroup → LogGroup) : State :=
  s.modMedia fun m => { m with groups := vmod m.groups a fun l => l.map fun g => if g.seq = seq then f g else g }

/-- A field of a block's content at a byte offset. -/
def at8 (byte v : Nat) : Nat := v * 2 ^ (8 * byte)

/-- The summary block of a group (R644). -/
def LogGroup.summaryBlock (g : LogGroup) : Block :=
  let lba := (g.blocks.zipIdx.map fun (b, i) => at8 (16 + 8 * i) (b.1 % 2 ^ 64)).sum
  let no := (g.blocks.zipIdx.map fun (b, i) => at8 (520 + 8 * i) (b.2.2.1 % 2 ^ 64)).sum
  { data := BitVec.ofNat 32768 (0x4D555347 + at8 4 g.seq.toNat + at8 8 g.blocks.length + lba + no) }

/-- A block of the module's own enters the buffers for an offset of a zone: no function, no credit, a number of its own beyond the
start numbers. -/
def State.ownWrite (s : State) (z : ZoneNo) (ofs : Nat) (b : Block) : State :=
  let s := s.modQ fun q =>
    { q with buffered := q.buffered ++ [{ ctx := 0, fn := 0, nsid := 0, startNo := 2 ^ 64 + s.free, slba := 0, zone := some z
                                          zofs := ofs, blocks := [{ here := true, data := b }], credits := 0 }] }
  { s with free := s.free + 1 }

/-- The open group of an engine closes: its summary block is written after its last block (R417, R644). -/
def State.closeGroup (s : State) (a : Eng) : State :=
  match s.openGroup a with
  | none => s
  | some g =>
    let d := s.zoneDesc g.zone
    let s := s.modGroup a g.seq fun g => { g with closed := true }
    (s.ownWrite g.zone d.wp g.summaryBlock).setZone g.zone fun d => { d with wp := d.wp + 1 }

/-- One block appended to an engine's open group, or to a new one (R417): a group takes 63 blocks. None where no log zone of the
engine has room. -/
def State.appendBlock (s : State) (a : Eng) (lba startNo : Nat) (copy : Option (ZoneNo × Nat)) : Option (State × ZoneNo × Nat) :=
  let s := match s.openGroup a with
    | some g => if (s.zoneDesc g.zone).wp + 2 ≤ (s.zoneDesc g.zone).zcap then s else s.closeGroup a
    | none => s
  let target := match s.openGroup a with
    | some g => some g.zone
    | none => s.logTarget a
  match target with
  | none => none
  | some z =>
    let ofs := (s.zoneDesc z).wp
    let s : State := match s.openGroup a with
      | some _ => s
      | none => s.modMedia fun m =>
          { m with groupSeq := m.groupSeq + 1
                   groups := vmod m.groups a fun l => l ++ [{ seq := m.groupSeq, zone := z, openedAt := s.angle a }] }
    match s.openGroup a with
    | none => none
    | some g =>
      let s := s.modGroup a g.seq fun g => { g with blocks := g.blocks ++ [(lba, ofs, startNo, copy)] }
      let s := s.setZone z fun d => { d with wp := d.wp + 1 }
      some (if 63 ≤ g.blocks.length + 1 then s.closeGroup a else s, z, ofs)

/-- A write completes only when durable: FUA, or the function's volatile write cache is off (R444). -/
def State.durableFirst (s : State) (c : Ctx) : Bool := c.sqe.fua || !s.host.fns[c.fn].vwcOn

/-- A group is due to close (R417): full, a FUA write in it, a Flush that covers it, or one revolution after its first block. -/
def State.groupDue (s : State) (a : Eng) (g : LogGroup) : Bool :=
  decide (63 ≤ g.blocks.length) || reached (s.angle a) (angleAdd g.openedAt revUnits) ||
    g.blocks.any fun b => s.q.ctxs.any fun p =>
      (p.2.writes && p.2.started && p.2.startNo == b.2.2.1 && s.durableFirst p.2) || p.2.covers.contains b.2.2.1

/-- LOG_GROUP_CLOSE (R417). -/
def execLogGroupClose (a : Eng) (s : State) : Out :=
  .next (match s.openGroup a with
    | some g => if s.groupDue a g then s.closeGroup a else s
    | none => s)

/-- The place lies in a group: its blocks and its summary. -/
def LogGroup.holds (g : LogGroup) (z : ZoneNo) (ofs : Nat) : Bool :=
  z == g.zone && match g.blocks.head? with
    | some b => decide (b.2.1 ≤ ofs ∧ ofs ≤ b.2.1 + g.blocks.length)
    | none => false

/-- Every block of a group is on media with no suspect sector (R32, R417). -/
def State.groupSafe (s : State) (a : Eng) (g : LogGroup) : Bool :=
  s.views.all fun v => v.blocks.zipIdx.all fun (b, k) =>
    match s.viewPlace v k with
    | some (z, o) => !(g.holds z o) || s.blockSafe (s.zoneDesc z) o b
    | none => true

/-- The indirection after a group becomes durable (R418, R485): a write's entry changes only for a higher start number, a copy's
only while it points at the old place. -/
def MediaMap.updateIndir (m : MediaMap) (a : Eng) (g : LogGroup) : MediaMap :=
  g.blocks.foldl (fun m (lba, ofs, no, copy) =>
    let e := m.entry lba
    match copy with
    | none =>
      if e.startNo < no then
        { m with indir := oset m.indir lba { valid := true, lost := false, engine := a, zone := g.zone, ofs := ofs, startNo := no } }
      else m
    | some (z, o) =>
      if e.valid ∧ e.zone = z ∧ e.ofs = o then { m with indir := oset m.indir lba { e with engine := a, zone := g.zone, ofs := ofs } } else m) m

/-- Entries a compaction of a zone has to move: VALID, not LOST, in the zone. -/
def State.liveIn (s : State) (z : ZoneNo) : List (Nat × Indir) :=
  s.media.indir.filter fun p => p.2.valid && !p.2.lost && p.2.zone == z

/-- A compacted zone whose blocks have all moved is reset (R418). -/
def State.endCompaction (s : State) : State :=
  (fins 4).foldl (fun s (b : Eng) =>
    match s.media.compacting[b] with
    | some z =>
      if (s.liveIn z).isEmpty then (s.resetZone z).modMedia fun m => { m with compacting := vset m.compacting b none } else s
    | none => s) s

/-- INDIRECTION_UPDATE (R417, R418, R485): the oldest closed group of an engine whose blocks are all on media becomes durable; its
entries change and its writes' copies in DRAM go. -/
def execIndirectionUpdate (a : Eng) (s : State) : Out :=
  .next (
    match s.media.groups[a].find? fun g => g.closed && !g.summary with
    | none => s
    | some g =>
      if s.groupSafe a g then
        let s := s.modMedia fun m => m.updateIndir a g
        let s := s.modGroup a g.seq fun g => { g with summary := true }
        let s := s.views.foldl (fun s v =>
          let mine := fun (k : Nat) => match s.viewPlace v k with
            | some (z, o) => g.holds z o
            | none => false
          let n := (v.blocks.zipIdx.filter fun (b, k) => mine k && b.codeword.isSome).length
          let s := s.modQ fun q => { q with staging := q.staging - n }
          s.modView v.startNo fun l => l.zipIdx.map fun (b, k) => if mine k then { b with durable := true, codeword := none } else b) s
        let s := s.modQ fun q => { q with buffered := q.buffered.filter fun b => b.nsid ≠ 0 || !b.blocks.all (·.durable) }
        s.endCompaction
      else s)

/-- The stored bytes of a block that compaction moves: they come from the medium, outside the model (log 18). -/
def State.storedBytes (s : State) : Block × State :=
  ({ data := BitVec.ofNat 32768 ((List.range 512).foldl (fun n i => n * 2 ^ 64 + (Config.freeValue (s.free + i)).toNat) 0)
     pi := Config.freeValue (s.free + 512) }, { s with free := s.free + 513 })

/-- One block's copy is appended, on the engine itself or on another one with room (R418, R430). -/
def State.appendCopy (s : State) (a : Eng) (z : ZoneNo) (lba : Nat) (e : Indir) : State :=
  match (a :: fins 4).findSome? fun b => if s.enginePresent b then s.appendBlock b lba e.startNo (some (z, e.ofs)) else none with
  | none => s
  | some (s, z', ofs') =>
    let (b, s) := s.storedBytes
    s.ownWrite z' ofs' b

/-- COMPACTION (R418): an engine with fewer than two EMPTY log zones compacts the one with the fewest valid blocks: every valid
block is appended again with its start number. -/
def execCompaction (a : Eng) (s : State) : Out :=
  .next (
    let zs := s.logZones a
    let busy := fun (z : ZoneNo) => s.media.groups[a].any fun g => g.zone == z && !g.summary
    let cand := (zs.filter fun p => decide (0 < p.2.wp) && !busy p.1).foldl (fun (b : Option (ZoneNo × Nat)) p =>
      let n := (s.liveIn p.1).length
      match b with
      | some (_, m) => if n < m then some (p.1, n) else b
      | none => some (p.1, n)) none
    if s.enginePresent a && !s.engineFailed a && s.media.compacting[a].isNone &&
        decide ((zs.filter fun p => p.2.wp == 0).length < 2) then
      match cand with
      | none => s
      | some (z, _) =>
        let s := s.modMedia fun m => { m with compacting := vset m.compacting a (some z) }
        let s := (s.liveIn z).foldl (fun s p => s.appendCopy a z p.1 p.2) s
        s.endCompaction
    else s)

/-! ### The cache (R419 to R427) -/

/-- The zone is one of an engine's. -/
def State.zoneOf (s : State) (a : Eng) (z : ZoneNo) : Bool :=
  (s.media.zones.any fun p => p.1 == z) && (s.zoneDesc z).engine == a && (s.zoneDesc z).zs != .none

/-- ZDC_ACCESS (R410, R420, R421, R423, R427): a read, or an update by the actuator core, which advances VER. -/
def execZdcAccess (a : Eng) (z : ZoneNo) (u : DescAccess) (s : State) : Out :=
  .next (
    if s.enginePresent a && s.zoneOf a z then
      match u with
      | .read => s.zdcAccess a z .read
      | .update d =>
        let d := { d with engine := a, ver := (s.zoneDesc z).ver }
        if d = s.zoneDesc z then s.zdcAccess a z (.update d) else s.setZone z fun _ => d
    else s)

/-- The descriptor reloaded from the durable zone table (R427, R639): its geometry is the format's; WP is the checkpoint, or the
end of the zone's writes in the buffers. -/
def State.reloadDesc (s : State) (z : ZoneNo) : ZoneDesc :=
  let r := s.zoneRecord z
  let g := (alookup s.nor.zoneDescs z).getD {}
  let a := g.engine
  let last := s.views.foldl (fun n v => if v.zone = some z ∧ !(v.blocks.any fun b => b.old.isSome) then max n (v.zofs + v.blocks.length) else n) 0
  { g with
    zs := r.zs, holes := r.holes, zfr := r.zfr, conv := r.conv, zgen := r.zgen, zcap := r.zcap, wp := max r.mpCk last
    ver := ((alookup s.media.zones z).getD {}).ver + 1
    remapN := (s.media.remaps[a].filter fun m => m.active && m.zone == z).length }

/-- ZDC_FILL_DONE (R421, R425, R427): the 64 bytes arrive and the accesses that wait are served in order. -/
def execZdcFillDone (a : Eng) (z : ZoneNo) (bad : Bool) (s : State) : Out :=
  .next (
    match s.eng[a].zdc.fillOf z with
    | none => s
    | some i =>
      let ws := s.eng[a].zdc.lines[i].waiters
      let d := if bad then s.reloadDesc z else (alookup s.media.zones z).getD {}
      let s := if bad then
          let full := reaches 32 s.eng[a].zdc.lerrCnt
          let s := (s.tableWrite z d).modZdc a fun c => { c with lerrCnt := inc 32 c.lerrCnt }
          (s.condZdc a).saturated full 0x0C 4 a.val (engBase a + 0x2007C) (nw s.eng[a].zdc.lerrCnt)
        else s
      let s := s.modZdc a fun c => { c with lines := vmod c.lines i fun l => { l with state := .clean, desc := d, waiters := [] } }
      (ws.foldl (fun s w => s.lineAccess a i w) s).zdcSettle a)

/-- ZDC_WRITEBACK_DONE (R422, R423): the write-back of a victim entry is acknowledged. -/
def execZdcWritebackDone (a : Eng) (v : Fin 4) (s : State) : Out :=
  .next (
    let x := s.eng[a].zdc.victims[v]
    if x.state = .begun then
      let s := s.tableWrite x.zone x.desc
      let s := s.modZdc a fun c =>
        { c with
          victims := vset c.victims v {}, wbCnt := inc 32 c.wbCnt
          lines := c.lines.map fun l =>
            if l.state == .dirty && l.zone == x.zone && l.restored then { l with state := .clean, shadow := none, restored := false } else l }
      (s.modZdc a fun c => c.serve 4).zdcSettle a
    else s)

/-- ZDC_PIN (R419): the line of a zone whose run is to be armed is pinned, once it is held and PIN_MAX allows it. -/
def execZdcPin (a : Eng) (z : ZoneNo) (s : State) : Out :=
  .next (
    if s.enginePresent a && s.zoneOf a z then
      let c := s.eng[a].zdc
      let s := if (c.lineOf z).isNone && (c.fillOf z).isNone then s.zdcAccess a z .read else s
      (s.modZdc a fun c => { c with pinWait := c.pinWait ++ [z] }).retryPins a
    else s)

/-! ### Packets (0x01D0 to 0x01D9) -/

/-- The zone word 0 of a packet carries. -/
def Packet.zone (p : Packet) : ZoneNo := fld (p.w 0) 16 0

/-- zone.status. -/
def execZoneStatus (p : Packet) (s : State) : Out :=
  .next (runPacket ⟨0x01D0, [4], .read⟩ p s fun s =>
    if s.zoneOf p.eng p.zone then
      { state := s, clamp := clampBits [(0, p.w 0, clampWord [fAny 16 0] 0 (p.w 0))], result := (s.zoneDesc p.zone).words.take 6 }
    else .fail s 0x0105)

/-- zone.cache_status. -/
def execZoneCacheStatus (p : Packet) (s : State) : Out :=
  .next (runPacket ⟨0x01D1, [4], .read⟩ p s fun s => .report s (stZdc s p.eng))

/-- ZDC_RBASE after clamping: POLICY 0b11 becomes 0b10. -/
def rbaseWord (sent : Word) : Word :=
  let w := clampWord [fAny 31 30, fAny 29 29, fAny 16 0] 0 sent
  if fld w 31 30 = 3 then setFld w 31 30 2 else w

/-- Lines of the zones of attribute regions are written back (R426). -/
def State.flushRegions (s : State) (a : Eng) (rs : List (Fin 8)) : State :=
  let c := s.eng[a].zdc
  (fins 48).foldl (fun s (i : Fin 48) =>
    let l := s.eng[a].zdc.lines[i]
    if rs.any fun n => decide (fld c.rbase[n] 16 0 ≤ l.zone ∧ l.zone ≤ fld c.rlim[n] 16 0) then s.flushLine a i else s) s

/-- zone.cache_config (R426, R434): ZDC_CFG, and the attribute regions from the first one named on. -/
def opZoneCacheConfig (p : Packet) (s : State) : PktRes :=
  let a := p.eng
  let cfg := clampWord [fIn 31 26 8 44, fAny 0 0] (rZdcCfg s.eng[a].zdc) (p.w 0)
  let first := fld (p.w 13) 2 0
  let sel := (List.range 6).filterMap fun i => (fin? 8 (first + i)).map fun n => (i, n)
  let vals := sel.map fun (i, n) =>
    let b := rbaseWord (p.w (1 + 2 * i))
    let l := clampWord [fAny 16 0] 0 (p.w (2 + 2 * i))
    (i, n, b, if fld l 16 0 < fld b 16 0 then nw (fld b 16 0) else l)
  let rs := sel.map (·.2)
  let s := (s.flushRegions a rs).modZdc a fun c =>
    vals.foldl (fun (c : Zdc) (_, n, b, l) => { c with rbase := vset c.rbase n b, rlim := vset c.rlim n l })
      { c with pinMax := fld cfg 31 26, depKeep := cfg.getLsbD 0 }
  let s := ((s.flushRegions a rs).retryPins a)
  let w := vals.flatMap fun (_, _, b, l) => [b, l]
  { state := s, result := (cfg :: w).take 6
    clamp := clampBits ((0, p.w 0, cfg) :: (13, p.w 13, nw first) ::
      vals.flatMap fun (i, _, b, l) => [(1 + 2 * i, p.w (1 + 2 * i), b), (2 + 2 * i, p.w (2 + 2 * i), l)]) }
/-- zone.cache_config. -/
def execZoneCacheConfig (p : Packet) (s : State) : Out := .next (runPacket ⟨0x01D2, [4], .config⟩ p s (opZoneCacheConfig p))

/-- Maintenance of the lines and victim entries a packet names (R424, R425): what cannot be done at once waits, with the packet. -/
def opMaintain (inv : Bool) (p : Packet) (s : State) : PktRes :=
  let a := p.eng
  let all := (p.w 0).getLsbD 31
  if !all && !s.zoneOf a p.zone then .fail s 0x0105
  else
    let mine := fun (z : ZoneNo) => all || z == p.zone
    let fills := (s.eng[a].zdc.lines.toList.filter fun l => l.state == .fill && mine l.zone).length
    let s := s.modZdc a fun c =>
      { c with
        mwaitCnt := satAdd 32 c.mwaitCnt fills
        lines := c.lines.map fun l =>
          if l.state != .invalid && mine l.zone then
            if inv then { l with invWait := true } else { l with flushWait := l.flushWait || l.state == .dirty || l.state == .fill }
          else l
        invVictims := if inv then c.invVictims ++ (c.victims.toList.filter fun v => v.state != .free && mine v.zone).map (·.zone)
          else c.invVictims }
    let s := s.maintain a
    let c := s.eng[a].zdc
    let left := if inv then c.invVictims.any mine || c.lines.toList.any fun l => l.invWait && mine l.zone
      else c.lines.toList.any fun l => l.flushWait && mine l.zone
    let s := if left then s else s.zdcSettle a
    { state := s, result := [rZdcStatus s.eng[a].zdc], wait := left
      clamp := clampBits [(0, p.w 0, clampWord [fAny 31 31, fAny 16 0] 0 (p.w 0))] }

/-- zone.cache_flush. -/
def execZoneCacheFlush (p : Packet) (s : State) : Out := .next (runPacket ⟨0x01D3, [4], .action⟩ p s (opMaintain false p))
/-- zone.cache_invalidate. -/
def execZoneCacheInvalidate (p : Packet) (s : State) : Out := .next (runPacket ⟨0x01D4, [4], .action⟩ p s (opMaintain true p))

/-- zone.cache_clear. -/
def opZoneCacheClear (p : Packet) (s : State) : PktRes :=
  let m := fld (p.w 0) 7 0
  let c := s.eng[p.eng].zdc
  let vals := [c.hitCnt, c.missCnt, c.evictCnt, c.wbCnt, c.declineCnt, c.vhitCnt, c.mwaitCnt, c.lerrCnt]
  let s := s.modZdc p.eng fun c =>
    { c with
      hitCnt := clr m 0 c.hitCnt, missCnt := clr m 1 c.missCnt, evictCnt := clr m 2 c.evictCnt, wbCnt := clr m 3 c.wbCnt
      declineCnt := clr m 4 c.declineCnt, vhitCnt := clr m 5 c.vhitCnt, mwaitCnt := clr m 6 c.mwaitCnt, lerrCnt := clr m 7 c.lerrCnt }
  { state := s, clamp := clampBits [(0, p.w 0, nw m)], result := selected m (vals.map fun v => [nw v]) }
/-- zone.cache_clear. -/
def execZoneCacheClear (p : Packet) (s : State) : Out := .next (runPacket ⟨0x01D5, [4], .action⟩ p s (opZoneCacheClear p))

/-- The geometry a head's band has in the configuration area: stored and not yet formatted, else in force. -/
def State.bandStored (s : State) (g : Head) (b : Fin 64) : BandGeom :=
  (alookup s.nor.bandsPending (g, b)).getD (s.bandEntry g b).geom

/-- map.band (R403, R404, R435): the configuration area only, for the next format. -/
def opMapBand (p : Packet) (s : State) : PktRes :=
  if s.head[p.hd].map.depop then .fail s 0x0202
  else
    let o := s.bandStored p.hd p.band
    let first := if p.band = 0 then 0 else clampWord [fAny 21 0] 0 (p.w 1)
    let w := [first] ++ clampWords p 2 [[fIn 15 0 0x0C00 0x2000], [fIn 15 0 0xE000 0xF000], [fIn 15 0 512 8192], [fAny 11 0], [fAny 11 0]]
      [nw o.dfStart, nw o.dfEnd, nw o.trkGap, nw o.htrRd, nw o.htrWr]
    let n := fun (i : Nat) => (w.getD i 0).toNat
    let g : BandGeom := { firstTrk := n 0, dfStart := n 1, dfEnd := n 2, trkGap := n 3, htrRd := n 4, htrWr := n 5 }
    { state := s.modNor fun x => { x with bandsPending := aset x.bandsPending (p.hd, p.band) g }
      result := w, clamp := clampBits ((0, p.w 0, clampWord [fAny 13 8] 0 (p.w 0)) :: clampRun p 1 w) }
/-- map.band. -/
def execMapBand (p : Packet) (s : State) : Out := .next (runPacket ⟨0x01D6, [3], .config⟩ p s (opMapBand p))

/-- Word 2 of a region record. -/
def RegionRec.word2 (r : RegionRec) : Word := mkw [bf 31 24 r.skewW, bf 23 20 r.guard_, bf 15 0 r.spb]

/-- map.region (R401, R435): the configuration area only, for the next format. -/
def opMapRegion (p : Packet) (s : State) : PktRes :=
  let a := p.eng
  let k : Fin 8 := finMod 8 (by decide) (fld (p.w 0) 2 0)
  let now := s.media.regions[a][k]
  let w := clampWords p 1 [[fAny 21 0], [fAny 21 0], [fIn 31 24 8 120, fIn 23 20 1 4]] [0, 0, 0]
  let n := fun (i hi lo : Nat) => fld (w.getD i 0) hi lo
  let r : RegionRec := { firstTrk := n 0 21 0, lastTrk := n 1 21 0, skewW := n 2 31 24, guard_ := n 2 23 20, spb := now.spb, zbase := now.zbase }
  { state := s.modNor fun x => { x with engs := vmod x.engs a fun e => { e with regionsPending := aset e.regionsPending k r } }
    result := w ++ [nw now.spb, nw now.zbase]
    clamp := clampBits ((0, p.w 0, clampWord [fAny 2 0] 0 (p.w 0)) :: clampRun p 1 w) }
/-- map.region. -/
def execMapRegion (p : Packet) (s : State) : Out := .next (runPacket ⟨0x01D7, [4], .config⟩ p s (opMapRegion p))

/-- map.conv (R415): at the next power-on reset. -/
def opMapConv (p : Packet) (s : State) : PktRes :=
  let w := clampWord [fIn 31 0 0 20] 0 (p.w 0)
  let s := s.modNor fun n => { n with convPct := w.toNat }
  { state := s.modMedia fun m => { m with convNext := w.toNat }, result := [w], clamp := clampBits [(0, p.w 0, w)] }
/-- map.conv. -/
def execMapConv (p : Packet) (s : State) : Out := .next (runPacket ⟨0x01D8, [5], .config⟩ p s (opMapConv p))

/-- head.depopulate (R428, R436). -/
def opHeadDepopulate (p : Packet) (s : State) : PktRes :=
  let g := p.hd
  if p.w 0 ≠ 0x4445504F || s.head[g].map.depop then .fail s 0x0105
  else
    let s' := s.headFail g
    let n := s.zoneRuleCounts s' (s.engineOf g) (s.localOf g)
    { state := s', result := [rHmap s'.head[g].map, nw n.1, nw n.2.1, nw n.2.2] }
/-- head.depopulate. -/
def execHeadDepopulate (p : Packet) (s : State) : Out := .next (runPacket ⟨0x01D9, [3], .action⟩ p s (opHeadDepopulate p))

/-- ZONE_FINISH_RECOMMENDED (R455, R456): an open or closed zone has had no write for FRL. -/
def execZoneFinishRecommended (z : ZoneNo) (s : State) : Out :=
  .next (
    let d := s.zoneDesc z
    match alookup s.host.zoneTimes z with
    | some t =>
      if d.zs.openOrClosed && !d.zfr && decide (0 < s.host.zfrl ∧ t + s.host.zfrl * 3600 * 3000000000 ≤ s.mtime) then
        (s.setZone z fun d => { d with zfr := true }).zoneNotice z
      else s
    | none => s)

end Sys2Proof.Machine
end

