-- ==== Sys2Proof/Machine/Queues.lean ====
section
/-! DEFINITION. Contexts and commands (spec/14_queues_ordering.md): fetching, credits, the start of a command with its checks, reads'
sources, transfers, durability, completions in order, and the I/O commands. -/

namespace Sys2Proof.Machine
open Sys2Proof

/-! ### Namespaces and their blocks -/

/-- Blocks of a zone of a namespace. -/
def zoneSize : Nat := 262144

/-- The module's zone and the offset of an address of a zoned namespace (R449). -/
def Namespace.place (n : Namespace) (lba : Nat) : Option (ZoneNo × Nat) := (n.zones[lba / zoneSize]?).map fun z => (z, lba % zoneSize)

/-- Bytes a block moves between host and module: data, and metadata where it is transferred with it. -/
def Namespace.blockBytes (n : Namespace) (q : Sqe) : Nat :=
  if n.lbaf = 1 ∧ n.extended ∧ !(q.pract && n.piType != 0) then 4104 else 4096

/-- The opcode is one the namespace takes (R447). -/
def Namespace.takes (n : Namespace) (op : Byte) : Bool :=
  if n.zoned then op != 0x09 else !(op == 0x79 || op == 0x7A || op == 0x7D)

/-- The namespace is locked against a command (R605): its locking range. -/
def State.locked (s : State) (nsid : Nat) (write : Bool) : Bool :=
  s.sec.opal.activated &&
    match fin? 17 nsid with
    | some i => let r := s.sec.opal.ranges[i]
      if write then r.wrLockEn && r.wrLocked else r.rdLockEn && r.rdLocked
    | none => false

/-- The first status of a list whose condition holds. -/
def firstOf (l : List (Bool × NvStatus)) : Option NvStatus := (l.find? (·.1)).map (·.2)

/-- Checks every command of a namespace meets (R481, R498): namespace, format, sanitise. -/
def State.nsStatus (s : State) (c : Ctx) : Option NvStatus :=
  match s.nsOf c.fn c.sqe.nsid.toNat with
  | none => some (stGen 0x0B true)
  | some n => firstOf
      [(n.format.isSome, stGen 0x84 false), (s.sec.sanitise.isSome, stGen 0x1D false), (s.sec.sanFail, stGen 0x1C true),
        (!n.takes c.sqe.opcode, stInvalidOpcode)]

/-! ### Fetching (R474 to R477) -/

/-- The function's controller takes commands: enabled, ready, not shutting down. -/
def State.fnUp (s : State) (f : Fn) : Bool :=
  let x := s.host.fns[f]
  x.present && x.en && x.rdy && x.shst == 0 && !s.rst.moduleReset

/-- Enabled functions. -/
def State.enabledFns (s : State) : List Fn := (fins 16).filter fun (f : Fn) => s.host.fns[f].present && s.host.fns[f].en

/-- An I/O context is available to a function (R474): fewer than CTX_MAX held, and one of its own CTX_MIN or of the shared ones. -/
def State.ctxFree (s : State) (f : Fn) : Bool :=
  let q := s.q
  let shared := ((fins 16).map fun (g : Fn) => s.ioCtx g - q.ctxMin).sum
  decide (s.ioCtx f < q.ctxMax) && (decide (s.ioCtx f < q.ctxMin) || decide (shared + q.ctxMin * s.enabledFns.length < 4064))

/-- A submission queue that holds commands. -/
def SubQueue.waiting (q : SubQueue) : Bool := q.head != q.tail && q.deleting.isNone

/-- A queue holds a latency contract (R476). -/
def State.hasLatency (s : State) (f : Fn) (sq : Nat) : Bool := s.q.contracts.any fun c => !c.2.floor && c.2.fn == f && c.2.sq == sq

/-- The queue after another in round robin. -/
def nextOf (l : List SubQueue) (last : Nat) : Option SubQueue :=
  let pick := fun (b : Option SubQueue) (q : SubQueue) => match b with
    | none => some q
    | some x => if q.id < x.id then some q else b
  ((l.filter fun q => last < q.id).foldl pick none).orElse fun _ => l.foldl pick none

/-- Weights of high, medium and low from the Arbitration feature. -/
def FnState.fullWeights (x : FnState) : Vector Nat 3 :=
  let w := (alookup x.features 0x01).getD 0
  #v[fld w 31 24 + 1, fld w 23 16 + 1, fld w 15 8 + 1]

/-- Arbitration Burst (R476): bits 2:0 of the Arbitration feature as a power of two, 7 for no limit. -/
def FnState.burst (x : FnState) : Nat :=
  let n := fld ((alookup x.features 0x01).getD 0) 2 0
  if n = 7 then 65536 else 2 ^ n

/-- The queue a function's arbitration chooses (R476), with the weights left: urgent queues first, then round robin, or the classes
by their weights, each turn spending one. -/
def State.arbitrate (s : State) (f : Fn) : Option (SubQueue × Vector Nat 3) :=
  let x := s.host.fns[f]
  let l := x.sqs.filter fun q => 0 < q.id && q.waiting
  let urgent := l.filter fun q => (x.wrr && q.prio == 0) || s.hasLatency f q.id
  let cls := fun (c : Fin 3) => l.filter fun q => q.prio == c.val + 1
  match nextOf urgent x.lastSq with
  | some q => some (q, x.weights)
  | none =>
    if !x.wrr then (nextOf l x.lastSq).map fun q => (q, x.weights)
    else
      let try_ := fun (w : Vector Nat 3) => (fins 3).findSome? fun (c : Fin 3) =>
        if 0 < w[c] then (nextOf (cls c) x.lastSq).map fun q => (q, vmod w c fun n => n - 1) else none
      (try_ x.weights).orElse fun _ => try_ x.fullWeights

/-- The admin queue of a function holds a command. -/
def State.adminWaiting (s : State) (f : Fn) : Bool := s.host.fns[f].sqs.any fun q => q.id == 0 && q.waiting

/-- The function has an I/O command to fetch and a context for it, and no admin command waits. -/
def State.fetchable (s : State) (f : Fn) : Bool :=
  s.fnUp f && s.ctxFree f && !s.adminWaiting f && s.host.fns[f].sqs.any fun q => decide (0 < q.id) && q.waiting

/-- The next fetch (R476): the turn in progress while its queue holds commands and its burst lasts, else the next function in round
robin and the queue its arbitration chooses. Answers function, queue, fetches left after this one, weights. -/
def State.nextFetch (s : State) : Option (Fn × Nat × Nat × Vector Nat 3) :=
  let on := match s.q.turn with
    | some (f, sq, n) =>
      if 0 < n && s.fetchable f && s.host.fns[f].sqs.any fun q => q.id == sq && q.waiting then
        some (f, sq, n - 1, s.host.fns[f].weights) else none
    | none => none
  on.orElse fun _ =>
    (((List.range 16).map fun i => finMod 16 (by decide) (s.q.lastFn.val + 1 + i)).find? s.fetchable).bind fun f =>
      (s.arbitrate f).map fun (q, w) => (f, q.id, s.host.fns[f].burst - 1, w)

/-- Media commands (R478). -/
def mediaOps : List Byte := [0x01, 0x02, 0x08, 0x09, 0x0C, 0x79, 0x7D]
/-- A context holds a media command. -/
def Ctx.media (c : Ctx) : Bool := !c.admin && mediaOps.contains c.sqe.opcode

/-- Credits a command needs (R479). -/
def Sqe.credits (q : Sqe) : Nat := if q.opcode == 0x01 || q.opcode == 0x02 || q.opcode == 0x7D then q.nlb else 0

/-- A contract covers a command (R491): its queue, its direction, and at most 128 KiB for a latency contract. -/
def Contract.covers (k : Contract) (c : Ctx) : Bool :=
  let read := c.sqe.opcode == 0x02
  let write := c.sqe.opcode == 0x01 || c.sqe.opcode == 0x7D
  !c.admin && k.fn == c.fn && k.sq == c.sq && ((read && k.dir.getLsbD 0) || (write && k.dir.getLsbD 1))
/-- A covered command of at most 128 KiB. -/
def Contract.short (k : Contract) (c : Ctx) : Bool := k.covers c && decide (c.sqe.nlb ≤ 32)


/-- Error Information log: an entry with the next count, newest first, at most 256 kept. -/
def State.logError (s : State) (f : Fn) (sq cid : Nat) (st : NvStatus) (lba nsid : Nat) : State :=
  s.modFn f fun x =>
    { x with errCount := x.errCount + 1, errLog := (⟨x.errCount + 1, sq, cid, st, lba, nsid⟩ :: x.errLog).take 256 }

/-- The lowest free context number. -/
def State.freeCtx (s : State) : Option CtxIx := (fins 4096).find? fun (x : CtxIx) => !s.q.ctxs.any fun p => p.1 == x.val

/-- Namespaces a Flush covers (R501). -/
def State.flushNs (s : State) (f : Fn) (nsid : Word) : List Nat :=
  if nsid = 0xFFFFFFFF then (s.nsAttached f).map (·.nsid) else [nsid.toNat]

/-- A fetched command enters its context (R474 to R477); a Flush notes the writes it covers (R501), and a latency contract the
fetches of its queue (R491, R497). -/
def State.enterCtx (s : State) (x : CtxIx) (f : Fn) (sq : SubQueue) (e : Sqe) : State :=
  let ns := s.flushNs f e.nsid
  let cov := if e.opcode == 0x00 then s.q.buffered.filter fun b => ns.contains b.nsid && b.nsid != 0 else []
  let known := mediaOps.contains e.opcode || e.opcode == 0x00 || e.opcode == 0x7A
  let c : Ctx :=
    { fn := f, sq := sq.id, sqe := e, fetchAt := s.mtime, fetchNo := s.q.fetchNo, cls := if s.host.fns[f].wrr then sq.prio else 2
      needCredits := e.credits, covers := cov.map (·.startNo), activation := s.sec.pausing
      ends := cov.filterMap fun b => b.zone.map fun z => (z, b.zofs + b.blocks.length)
      finished := if known then none else some stInvalidOpcode }
  let c := if e.opcode == 0x00 && e.nsid != 0xFFFFFFFF then { c with finished := s.nsStatus c } else c
  let since := s.mtime - secClocks
  let fast := s.q.contracts.any fun k => !k.2.floor && k.2.short c && decide (k.2.rate < (k.2.fetches.filter fun t => since < t).length)
  s.modQ fun q =>
    { q with
      ctxs := oset q.ctxs x.val { c with overRate := fast }, fetchNo := q.fetchNo + 1
      contracts := q.contracts.map fun k =>
        if !k.2.floor && k.2.short c then (k.1, { k.2 with fetches := (k.2.fetches.filter fun t => since < t) ++ [s.mtime] })
        else if k.2.covers c && !k.2.floor then (k.1, { k.2 with exclCnt := satAdd 16 k.2.exclCnt 1 }) else k }

/-- COMMAND_FETCH (R474 to R477): the entry at the head of the queue whose turn it is enters a context. An entry in poisoned buffer
words is discarded with an Error Information entry (R462). -/
def execCommandFetch (f : Fn) (sq : BitVec 16) (c : Sqe) (s : State) : Out :=
  .next (
    match s.nextFetch with
    | none => s
    | some (g, id, n, w) =>
      if g = f ∧ id = sq.toNat then
        match s.host.fns[f].sqs.find? fun q => q.id == id with
        | none => s
        | some q =>
          let s := s.modFn f fun x =>
            { x with
              lastSq := id, weights := w
              sqs := x.sqs.map fun y => if y.id = id then { y with head := if y.head + 1 < y.size then y.head + 1 else 0 } else y }
          let s := s.modQ fun q => { q with turn := some (f, id, n), lastFn := f }
          if c.badEntry then s.logError f id 0xFFFF (stGen 0x04 false) 0 0
          else match s.freeCtx with
            | some x => s.enterCtx x f q c
            | none => s
      else s)

/-! ### Credits (R479) -/

/-- Commands that wait for credits. -/
def Ctx.wantsCredits (c : Ctx) : Bool := !c.admin && !c.started && c.finished.isNone && decide (c.credits < c.needCredits)

/-- The waiting command fetched earliest. -/
def State.firstWaiting (s : State) : Option Ctx :=
  s.q.ctxs.foldl (fun (b : Option Ctx) p =>
    if p.2.wantsCredits then
      match b with
      | some c => if p.2.fetchNo < c.fetchNo then some p.2 else b
      | none => some p.2
    else b) none

/-- CREDIT_GRANT (R479). -/
def execCreditGrant (x : CtxIx) (s : State) : Out :=
  .next (
    match s.ctx x, s.firstWaiting with
    | some c, some e =>
      if c.wantsCredits then
        let spare := if c.fetchNo = e.fetchNo then 0 else e.needCredits
        if c.needCredits + spare ≤ s.q.creditsFree then
          (s.modCtx x fun c => { c with credits := c.needCredits }).modQ fun q => { q with creditsFree := q.creditsFree - c.needCredits }
        else if c.creditWaited then s
        else (s.modCtx x fun c => { c with creditWaited := true }).modQ fun q => { q with creditWaitCnt := satAdd 32 q.creditWaitCnt 1 }
      else s
    | _, _ => s)

/-! ### The checks of a start (R481, R498) -/

/-- Protection information of block k of a write as it will be stored (R229, R451): made with PRACT, else as sent. -/
def Ctx.writeBlock (c : Ctx) (n : Namespace) (k : Nat) : Block :=
  let b := (c.sqe.data[k]?).getD {}
  let ref := if n.piType = 1 then (c.sqe.refTag.toNat + k) % 2 ^ 32 else c.sqe.refTag.toNat
  if n.lbaf = 0 then { b with pi := 0 }
  else if n.piType ≠ 0 ∧ c.sqe.pract then { b with pi := makePi (piGuard b.data) c.sqe.appTag.toNat ref }
  else b

/-- The first block of a write whose protection information fails (R229). -/
def Ctx.piStatus (c : Ctx) (n : Namespace) : Option NvStatus :=
  if n.lbaf = 0 ∨ n.piType = 0 ∨ c.sqe.pract then none
  else (List.range c.sqe.nlb).findSome? fun k => piCheck n c.sqe k ((c.sqe.data[k]?).getD {})

/-- The zone state a write meets, with its statuses (R482, R498): state, boundary, write pointer, limits. -/
def State.zoneWriteStatus (s : State) (n : Namespace) (c : Ctx) (z : ZoneNo) (ofs : Nat) (append : Bool) : Option NvStatus :=
  let d := s.zoneDesc z
  let at_ := if append then d.wp else ofs
  (firstOf
    [(d.zs == .full, stCmd 0xB9), (d.zs == .readOnly, stCmd 0xBA), (d.zs == .offline || d.zs == .none || d.zs == .log, stCmd 0xBB),
      (decide (d.zcap < at_ + c.sqe.nlb), stCmd 0xB8), (at_ != d.wp, stCmd 0xBC)]).orElse fun _ => s.openLimit n d.zs

/-- The status with which a command of a namespace fails at its start, none where its checks pass (R481). -/
def State.startStatus (s : State) (c : Ctx) : Option NvStatus :=
  (s.nsStatus c).orElse fun _ =>
    match s.nsOf c.fn c.sqe.nsid.toNat with
    | none => none
    | some n =>
      let q := c.sqe
      let op := q.opcode
      let moves := op == 0x01 || op == 0x02 || op == 0x7D
      let ranged := moves || op == 0x08 || op == 0x0C
      let write := op == 0x01 || op == 0x08 || op == 0x7D
      let zstart := q.slba % zoneSize != 0
      (firstOf
        [(q.reservedSet || (moves && decide (2 ^ 21 < q.nlb * n.blockBytes q)), stInvalidField),
          (op == 0x7D && zstart, stInvalidField), (op == 0x79 && !q.selectAll && zstart, stInvalidField),
          (op == 0x79 && q.act == .setExt, stInvalidField),
          (op == 0x7D && n.piType == 1 && n.lbaf == 1 && !q.piremap, stCmd 0x81),
          (if op == 0x79 then !q.selectAll && decide (n.size ≤ q.slba)
            else if op == 0x09 then q.ranges.any fun r => decide (n.size < r.1 + r.2)
            else ranged && decide (n.size < q.slba + q.nlb), stGen 0x80 true),
          (s.locked n.nsid (write || op == 0x79 || op == 0x09) && (ranged || op == 0x79 || op == 0x09),
            ({ sct := 2, sc := 0x86, dnr := true } : NvStatus))]).orElse fun _ =>
      (if moves && op != 0x02 then c.piStatus n else none).orElse fun _ =>
      if n.zoned then
        match n.place q.slba with
        | none => none
        | some (z, o) =>
          if op == 0x7D then s.zoneWriteStatus n c z o true
          else if write then s.zoneWriteStatus n c z o false
          else if op == 0x79 then
            if q.selectAll then none
            else (firstOf [(!zoneActOk q.act (s.zoneDesc z).zs, stCmd 0xBF)]).orElse fun _ =>
              if q.act = .open_ then s.openLimit n (s.zoneDesc z).zs
              else if q.act = .finish then
                if (s.zoneDesc z).zs = .empty ∧ 256 ≤ s.activeZones n then some (stCmd 0xBD) else none
              else none
          else if (List.range q.nlb).any fun k => match n.place (q.slba + k) with
              | some (z, _) => (s.zoneDesc z).zs == .offline
              | none => false then some (stCmd 0xBB)
          else none
      else none

/-! ### Sources of a read (R432, R484) -/

/-- The block at an offset of a zone cannot be read: its sector is marked unreadable, or it or the spare sector that stands for it
lies on a failed head (R213, R432, R500). -/
def State.unreadable (s : State) (z : ZoneNo) (ofs : Nat) : Bool :=
  let d := s.zoneDesc z
  match s.blockSector d ofs with
  | none => true
  | some p =>
    let q := s.remapped d.engine d p
    s.defectKind d.engine q 2 || match s.globalHead d.engine q.head.val with
      | some g => s.head[g].map.depop
      | none => true

/-- The latest started write of a block whose data are still in the host data buffers, with the block's number in it. -/
def State.bufferedBlock (s : State) (nsid lba : Nat) : Option (WriteView × Nat) :=
  s.views.foldl (fun (b : Option (WriteView × Nat)) v =>
    let k := lba - v.slba
    if v.nsid = nsid ∧ v.slba ≤ lba ∧ k < v.blocks.length ∧ ((v.blocks[k]?.map fun x => !x.durable && x.failed.isNone && x.old.isNone) == some true) then
      match b with
      | some (w, _) => if w.startNo < v.startNo then some (v, k) else b
      | none => some (v, k)
    else b) none

/-- A block of a read as its start fixes it (R484): from a buffer, from the medium, zeroes, or failing at once. -/
def State.readSource (s : State) (n : Namespace) (lba : Nat) : BlockState :=
  let zero : BlockState := { source := .zeroes, here := true }
  let media := fun (z : ZoneNo) (o : Nat) =>
    ({ source := .media z o, failed := if s.unreadable z o then some (stMedia 0x81) else none } : BlockState)
  let buf := s.bufferedBlock n.nsid lba
  let fromBuf := fun (v : WriteView) (k : Nat) =>
    let b := (v.blocks[k]?).getD {}
    ({ source := .buffer v.startNo k, here := b.here, data := if b.here then b.data else {}
       failed := if b.spoiled then some stInternal else none } : BlockState)
  if n.zoned then
    match buf, n.place lba with
    | some (v, k), _ => fromBuf v k
    | none, some (z, o) => if o < min (s.zoneDesc z).wp (s.zoneDesc z).zcap then media z o else zero
    | none, none => zero
  else
    let e := s.media.entry (convBlock n.nsid lba)
    match buf with
    | some (v, k) => if e.startNo < v.startNo then fromBuf v k else if !e.valid then zero else media e.zone e.ofs
    | none =>
      if !e.valid then zero
      else if e.lost then { source := .media e.zone e.ofs, failed := some (stMedia 0x81) }
      else media e.zone e.ofs

/-! ### Starts (R480 to R482) -/

/-- Zones an address range of a namespace touches. -/
def Namespace.zonesOfRange (n : Namespace) (q : Sqe) : List ZoneNo :=
  if !n.zoned then []
  else if q.selectAll && q.opcode == 0x79 then n.zones
  else ((List.range ((q.slba % zoneSize + max 1 q.nlb - 1) / zoneSize + 1)).filterMap fun i => n.zones[q.slba / zoneSize + i]?)

/-- Nothing holds a media command back from its start (R480, R505, R636, R642): credits, the earlier media commands of its queue, no
activation pause, indirection ready, no read-forward of a zone it touches. -/
def State.mayStartCmd (s : State) (c : Ctx) : Bool :=
  c.media && !c.started && c.finished.isNone && c.credits == c.needCredits && !s.sec.pausing && !s.rst.moduleReset &&
    (s.q.ctxs.all fun p => !(p.2.media && p.2.fn == c.fn && p.2.sq == c.sq && decide (p.2.fetchNo < c.fetchNo)) || p.2.started ||
      p.2.finished.isSome) &&
    match s.nsOf c.fn c.sqe.nsid.toNat with
    | some n => (n.zoned || s.rst.convReady) && !(n.zonesOfRange c.sqe).any s.rst.rdfwdPend.contains
    | none => true

/-- A write takes its place in its zone (R482): the zone opens, WP advances, the zone fills. -/
def State.advanceZone (s : State) (z : ZoneNo) (nlb : Nat) : State :=
  let s := if (s.zoneDesc z).zs = .empty ∨ (s.zoneDesc z).zs = .closed then s.enterZState z .impOpen else s
  let s := s.setZone z fun d => { d with wp := d.wp + nlb }
  let s := s.modHost fun h => { h with zoneTimes := aset h.zoneTimes z s.mtime }
  if (s.zoneDesc z).zcap ≤ (s.zoneDesc z).wp then s.enterZState z .full else s

/-- Blocks of a conventional namespace are deallocated (R447, R484): they read as zeroes, until a later write. -/
def State.deallocate (s : State) (nsid no : Nat) (ranges : List (Nat × Nat)) : State :=
  s.modMedia fun m =>
    { m with
      indir := (ranges.flatMap fun r => (List.range r.2).map fun i => convBlock nsid (r.1 + i)).foldl
        (fun l b => oset l b { (MediaMap.entry { m with indir := l } b) with valid := false, lost := false, startNo := no }) m.indir }

/-- The blocks of a write as it starts: as they are to be stored, not yet received; zeroes of a Write Zeroes are there at once. -/
def Ctx.newBlocks (c : Ctx) (n : Namespace) (zeroes : Bool) (shift : Nat) : List BlockState :=
  (List.range c.sqe.nlb).map fun k =>
    if zeroes then
      let ref := if n.piType = 1 then (c.sqe.refTag.toNat + k) % 2 ^ 32 else c.sqe.refTag.toNat
      { here := true, data := { data := 0, pi :=
          if n.lbaf = 0 ∨ n.piType = 0 then 0
          else if c.sqe.pract then makePi (piGuard 0) c.sqe.appTag.toNat ref else BitVec.allOnes 64 } }
    else
      let b := c.writeBlock n k
      { data := if shift = 0 ∨ n.piType ≠ 1 then b
          else { b with pi := makePi (piBytes b.pi 0 2) (piBytes b.pi 2 2) ((piBytes b.pi 4 4 + shift) % 2 ^ 32) } }

/-- The effect of a command at its start, its checks passed (R482, R484). -/
def State.beginCmd (s : State) (x : CtxIx) (c : Ctx) (n : Namespace) (no : Nat) : State :=
  let q := c.sqe
  let op := q.opcode
  if op == 0x02 || op == 0x0C then
    let bs := (List.range q.nlb).map fun k => s.readSource n (q.slba + k)
    let bs := if op == 0x0C then bs.map (fun (b : BlockState) => if b.here then { b with sent := true } else b) else bs
    s.modCtx x fun c => ({ c with blocks := bs } : Ctx).settleRead
  else if op == 0x79 then
    let zs := if q.selectAll then n.zones.filter fun z => zoneActAll q.act (s.zoneDesc z).zs else ((n.place q.slba).map (·.1)).toList
    let s := zs.foldl (fun s z =>
      if q.act = .open_ ∧ (s.openLimit n (s.zoneDesc z).zs).isSome then s else s.zoneAct q.act z) s
    s.modCtx x fun c => c.finish stOk
  else if op == 0x09 then
    let s := if q.deac then s.deallocate n.nsid no q.ranges else s
    s.modCtx x fun c => c.finish stOk
  else if op == 0x08 ∧ q.deac ∧ !n.zoned then (s.deallocate n.nsid no [(q.slba, q.nlb)]).modCtx x fun c => c.finish stOk
  else
    let zeroes := op == 0x08
    let place := n.place q.slba
    let zofs := match place with
      | some (z, o) => if op == 0x7D then (s.zoneDesc z).wp else o
      | none => 0
    let lba := if op == 0x7D then q.slba + zofs else q.slba
    let s := s.modCtx x fun c =>
      { c with
        sqe := { c.sqe with slba := lba }, zone := if n.zoned then place.map (·.1) else none, zofs := zofs
        blocks := c.newBlocks n zeroes (if op == 0x7D && q.piremap then zofs else 0)
        result := if op == 0x7D then lohi lba else [] }
    let s := if zeroes && !s.durableFirst c then s.modCtx x fun c => c.finish stOk else s
    match place with
    | some (z, _) => if n.zoned then s.advanceZone z q.nlb else s
    | none => s

/-- A media command starts (R480, R481): it takes the next start number; failing a check, it ends with the status and touches no
media. -/
def State.startCmd (s : State) (x : CtxIx) : State :=
  match s.ctx x with
  | none => s
  | some c =>
    if s.mayStartCmd c then
      let no := (s.q.startNo + 1) % 2 ^ 64
      let s := s.modQ fun q => { q with startNo := no }
      let s := s.modCtx x fun c => { c with started := true, startNo := no, startRev := s.eng[s.refEngine].reel.stamp.rev }
      match s.startStatus c, s.nsOf c.fn c.sqe.nsid.toNat with
      | some st, _ => s.modCtx x fun c => c.finish st
      | none, some n => s.beginCmd x c n no
      | none, none => s
    else s

/-- The command of a context starts, where its opcode is the one named. -/
def State.startOp (s : State) (x : CtxIx) (ok : Sqe → Bool) : State :=
  match s.ctx x with
  | some c => if ok c.sqe then s.startCmd x else s
  | none => s

/-- COMMAND_START (R480, R481). -/
def execCommandStart (x : CtxIx) (s : State) : Out := .next (s.startCmd x)
/-- WRITE (R482): a Write starts against the write pointer of its zone, or the conventional region. -/
def execWrite (x : CtxIx) (s : State) : Out := .next (s.startOp x fun q => q.opcode == 0x01)
/-- READ (R484): a Read starts and the sources of its blocks are fixed. -/
def execRead (x : CtxIx) (s : State) : Out := .next (s.startOp x fun q => q.opcode == 0x02)
/-- WRITE_ZEROES (R447). -/
def execWriteZeroes (x : CtxIx) (s : State) : Out := .next (s.startOp x fun q => q.opcode == 0x08)
/-- DATASET_MANAGEMENT (R447): Deallocate on a conventional namespace. -/
def execDatasetManagement (x : CtxIx) (s : State) : Out := .next (s.startOp x fun q => q.opcode == 0x09)
/-- VERIFY (R447): the blocks are read and checked, and go nowhere. -/
def execVerify (x : CtxIx) (s : State) : Out := .next (s.startOp x fun q => q.opcode == 0x0C)
/-- ZONE_APPEND (R482). -/
def execZoneAppend (x : CtxIx) (s : State) : Out := .next (s.startOp x fun q => q.opcode == 0x7D)
/-- ZONE_RESET (R411, R453): Zone Management Send, Reset. -/
def execZoneReset (x : CtxIx) (s : State) : Out := .next (s.startOp x fun q => q.opcode == 0x79 && q.act == .reset)
/-- ZONE_OPEN (R453): Zone Management Send, Open. -/
def execZoneOpen (x : CtxIx) (s : State) : Out := .next (s.startOp x fun q => q.opcode == 0x79 && q.act == .open_)
/-- ZONE_CLOSE (R453): Zone Management Send, Close. -/
def execZoneClose (x : CtxIx) (s : State) : Out := .next (s.startOp x fun q => q.opcode == 0x79 && q.act == .close)
/-- ZONE_FINISH (R453, R455): Zone Management Send, Finish. -/
def execZoneFinish (x : CtxIx) (s : State) : Out := .next (s.startOp x fun q => q.opcode == 0x79 && q.act == .finish)
/-- ZONE_OFFLINE (R453): Zone Management Send, Offline. -/
def execZoneOffline (x : CtxIx) (s : State) : Out := .next (s.startOp x fun q => q.opcode == 0x79 && q.act == .offline)

/-! ### Report Zones (R453, R642) -/

/-- A zone is one the reporting option selects. -/
def zrasfTakes (o : Nat) (zs : ZState) : Bool :=
  match o with
  | 0 => true
  | 1 => zs == .empty
  | 2 => zs == .impOpen
  | 3 => zs == .expOpen
  | 4 => zs == .closed
  | 5 => zs == .full
  | 6 => zs == .readOnly
  | 7 => zs == .offline
  | _ => false

/-- A zone descriptor of the report, 64 bytes: type and state, attributes, capacity, start, write pointer. -/
def ZoneDesc.reported (d : ZoneDesc) (start : Nat) : List Word :=
  [mkw [bf 3 0 2, bf 15 12 d.zs.code, bb 17 d.zfr], 0] ++ lohi d.zcap ++ lohi start ++ lohi (start + d.wp) ++ List.replicate 8 0

/-- REPORT_ZONES (R453, R642): it waits for the read-forward of every zone it covers. -/
def execReportZones (x : CtxIx) (s : State) : Out :=
  .next (
    match s.ctx x with
    | none => s
    | some c =>
      if c.admin || c.sqe.opcode != 0x7A || c.finished.isSome then s
      else match s.nsStatus c, s.nsOf c.fn c.sqe.nsid.toNat with
        | some st, _ => s.modCtx x fun c => c.finish st
        | none, none => s
        | none, some n =>
          if c.sqe.reservedSet then s.modCtx x fun c => c.finish stInvalidField
          else if n.size ≤ c.sqe.slba then s.modCtx x fun c => c.finish (stGen 0x80 true)
          else
            let all := (n.zones.zipIdx.drop (c.sqe.slba / zoneSize)).filter fun p => zrasfTakes c.sqe.zrasf (s.zoneDesc p.1).zs
            if all.any fun p => s.rst.rdfwdPend.contains p.1 then s
            else
              let shown := all.take c.sqe.maxDescs
              let count := if c.sqe.partialReport then shown.length else all.length
              let words := lohi count ++ List.replicate 14 0 ++ shown.flatMap fun p => (s.zoneDesc p.1).reported (p.2 * zoneSize)
              s.modCtx x fun c => { c.finish stOk with result := words })

/-! ### Transfers, durability, completion (R30 to R33, R483, R499 to R501) -/

/-- Blocks that take their data from a write whose data have arrived. -/
def BlockState.feed (b : BlockState) (v : WriteView) : BlockState :=
  match b.source with
  | .buffer no k => if no = v.startNo && !b.here then { b with here := true, data := ((v.blocks[k]?).map (·.data)).getD {} } else b
  | _ => b

/-- Reads that wait for a write's data get them (R484). -/
def State.feedReads (s : State) (v : WriteView) : State :=
  s.modQ fun q => { q with ctxs := q.ctxs.map fun p =>
    if p.2.writes || !p.2.started then p
    else
      let bs := p.2.blocks.map fun b => b.feed v
      (p.1, { p.2 with blocks := if p.2.verify then bs.map (fun (b : BlockState) => if b.here then { b with sent := true } else b) else bs }.settleRead) }

/-- Bytes a command has moved count for its queue's floors (R491, R496). -/
def State.countBytes (s : State) (c : Ctx) (n : Nat) : State :=
  s.modQ fun q => { q with contracts := q.contracts.map fun k =>
    if k.2.floor && k.2.covers c then
      let t := k.2.doneBytes + n
      (k.1, { k.2 with winBytes := k.2.winBytes + n, doneBytes := t % 1000000, done := satAdd 32 k.2.done (t / 1000000) })
    else k }

/-- HOST_TRANSFER_DONE (R30, R31, R484): a write's data are in DRAM, or a read's blocks that were there are in host memory. -/
def execHostTransferDone (x : CtxIx) (s : State) : Out :=
  .next (
    match s.ctx x with
    | none => s
    | some c =>
      if !c.started || c.finished.isSome then s
      else if c.writes then
        if c.blocks.all (·.here) then s
        else if c.sqe.badData then
          s.modCtx x fun c =>
            ({ c with blocks := c.blocks.map fun b => { b with failed := some (stGen 0x04 false), durable := true } } : Ctx).finish (stGen 0x04 false)
        else
          let s := s.modCtx x fun c =>
            { c with blocks := c.blocks.map fun b => { b with here := true }, transferred := true }
          let s := (s.countBytes c (4096 * c.blocks.length)).sumBolero { wh := 4096 * c.blocks.length }
          let s := match s.ctx x with
            | some c => s.feedReads c.view
            | none => s
          if s.durableFirst c then s else s.modCtx x fun c => c.finish stOk
      else if c.sqe.badData then s.transferFailed x
      else
        let go := fun (b : BlockState) => b.here && !b.sent && b.failed.isNone
        let n := (c.blocks.filter go).length
        let s := s.modQ fun q => { q with staging := q.staging - c.staged }
        let s := (s.countBytes c (4096 * n)).sumBolero { rh := if c.verify then 0 else 4096 * n }
        s.modCtx x fun c => ({ c with blocks := c.blocks.map fun b => if go b then { b with sent := true } else b } : Ctx).settleRead)

/-- Every block of a write is durable or on media with no suspect sector (R32); a conventional one's by its group (R417). -/
def State.viewSafe (s : State) (v : WriteView) : Bool :=
  v.blocks.zipIdx.all fun (b, k) => b.durable || match v.zone with
    | some z => s.blockSafe (s.zoneDesc z) (v.zofs + k) b
    | none => false

/-- MP of a write's zone has passed its end (R638). -/
def State.mpPast (s : State) (v : WriteView) : Bool :=
  match v.zone with
  | some z => decide (v.zofs + v.blocks.length ≤ s.mediaPointer z) || (s.zoneDesc z).wp == 0 || v.blocks.any fun b => b.old.isSome
  | none => true

/-- A completed write whose blocks are durable or failed stays only for the next Flush that covers it (R500, R576). -/
def BufferedWrite.settled (b : BufferedWrite) : Bool := b.fault || (b.lost && b.blocks.isEmpty)

/-- Flushes whose writes are all durable, MP past each, finish (R500, R501, R576, R638): with Write Fault where one of them failed, with
Internal Error where a word of one was lost. -/
def State.settleFlushes (s : State) : State :=
  s.q.ctxs.foldl (fun s p =>
    let c := p.2
    if !c.admin && c.sqe.opcode == 0x00 && c.finished.isNone then
      let mine := s.q.buffered.filter fun b => c.covers.contains b.startNo
      let passed := c.ends.all fun e => decide (e.2 ≤ s.mediaPointer e.1) || decide ((s.zoneDesc e.1).wp < e.2)
      if mine.all (·.settled) && passed then
        let st := if mine.isEmpty then stOk else if mine.any (·.fault) then stWriteFault else stInternal
        (s.modQ fun q => { q with buffered := q.buffered.filter fun b => !c.covers.contains b.startNo }).modCtx
          (finMod 4096 (by decide) p.1) fun c => c.finish st
      else s
    else s) s

/-- Every actuator of the layout is parked. -/
def State.allParked (s : State) : Bool :=
  (fins 4).all fun (a : Eng) => !s.enginePresent a || s.rst.act[a].state == .unloaded || s.rst.act[a].state == .failed

/-- Every enabled controller has completed a normal shutdown (R649): the heads unload, and the spindle stops once they are parked. -/
def State.shutdownUnload (s : State) : State :=
  let s := (fins 4).foldl (fun s (a : Eng) => if s.enginePresent a then s.controlledUnload a else s) s
  if s.allParked then s.spindleStop.modSpn fun p => { p with shutStop := true }
  else s.modSpn fun p => { p with stopAfter := true, shutStop := true }

/-- A shutdown that has nothing left to do reports complete (R506): the started commands have completed and every completed write of
the function's namespaces is durable. -/
def State.settleShutdown (s : State) (f : Fn) : State :=
  let x := s.host.fns[f]
  let busy := !x.abrupt && s.q.ctxs.any fun p => p.2.fn == f && p.2.started
  let dirty := s.q.buffered.any fun b => b.nsid != 0 && !b.settled && (s.nsOf f b.nsid).isSome
  if x.shst = 1 && !busy && !dirty then
    let s := s.modFn f fun x => { x with shst := 2 }
    if s.enabledFns.all fun g => s.host.fns[g].shst == 2 && !s.host.fns[g].abrupt then s.shutdownUnload else s
  else s

/-- The first part of a module reset is over (R655): no started command is left and every completed write is durable, so every
engine unloads. -/
def State.settleReset (s : State) : State :=
  if s.rst.moduleReset && !(s.q.ctxs.any fun p => !p.2.admin && p.2.started) && !(s.q.buffered.any fun b => b.nsid != 0 && !b.settled) then
    (fins 4).foldl (fun s (a : Eng) =>
      if s.enginePresent a && (s.rst.act[a].state == .loaded || s.rst.act[a].state == .loading || s.rst.act[a].loadReq) then
        s.controlledUnload a else s) s
  else s

/-- Set methods of locks answer once the writes completed before them are durable (R605). -/
def State.settleOpal (s : State) : State :=
  let ready := fun (w : Fn × Nat × List Nat × List Nat) => !(s.q.buffered.any fun b => w.2.2.2.contains b.startNo && !b.settled)
  let done := s.sec.opalWait.filter ready
  let s := s.modSec fun x => { x with opalWait := x.opalWait.filter fun w => !ready w }
  s.modOut fun o => { o with opal := (done.map fun w => (w.1, w.2.1, w.2.2.1)).reverse ++ o.opal }

/-- What the durability of a write lets proceed: flushes, shutdowns, a module reset and answers of Set methods. -/
def State.settleWrites (s : State) : State := ((fins 16).foldl State.settleShutdown s.settleFlushes).settleReset.settleOpal

/-- Codewords of a write in media staging are released. -/
def State.unstage (s : State) (v : WriteView) : State :=
  let s := s.modQ fun q => { q with staging := q.staging - stagedCodewords v.blocks }
  s.modView v.startNo fun l => l.map fun b => { b with durable := true, codeword := none }

/-- WRITE_DURABLE (R32, R33, R500, R638): every sector of the write a context holds, or of the oldest completed one it names, is on
media with none suspect: the DRAM copy and the credits go, and a command that waited for it finishes. -/
def execWriteDurable (x : CtxIx) (s : State) : Out :=
  .next (
    match (s.ctx x).filter fun c =>
        c.writes && c.started && !c.blocks.isEmpty && s.viewSafe c.view && s.mpPast c.view &&
          (!c.blocks.all (·.durable) || (s.durableFirst c && c.finished.isNone)) with
    | some c =>
      let s := s.unstage c.view
      (if s.durableFirst c then s.modCtx x fun c => c.finish stOk else s).settleWrites
    | none =>
      match s.q.buffered.find? fun b => b.ctx == x && b.nsid != 0 && 0 < b.blocks.length && s.viewSafe b.view with
      | none => s
      | some b =>
        let s := s.unstage b.view
        let s := s.modQ fun q =>
          { q with
            creditsFree := q.creditsFree + b.credits
            buffered := q.buffered.filterMap fun y =>
              if y.startNo = b.startNo then if b.fault || b.lost then some { y with blocks := [], credits := 0 } else none else some y }
        s.settleWrites)

/-- FLUSH (R501): it completes once every write it covers is durable. -/
def execFlush (x : CtxIx) (s : State) : Out :=
  .next (
    match s.ctx x with
    | none => s
    | some c => if c.admin || c.sqe.opcode != 0x00 || c.finished.isSome then s else s.settleFlushes)

/-- What a contract notes of a command that completes (R491, CT_DONE, CT_WORST). -/
def Contract.completed (k : Contract) (c : Ctx) (now : MTime) : Contract :=
  if !k.floor && k.short c then
    { k with done := satAdd 32 k.done 1, worst := max k.worst ((now - c.fetchAt + msClocks - 1) / msClocks) }
  else k

/-- Words of the data a read moved. -/
def Block.dataWords (b : Block) : List Word := (List.range 1024).map fun i => nw (b.data.toNat / 2 ^ (32 * i))

/-- A contract ends (R495): removed, with one event. -/
def State.endContracts (s : State) (sel : Contract → Bool) : State :=
  s.q.contracts.foldl (fun s p =>
    if sel p.2 then
      let s := s.condition 0x0E 7 p.2.fn.val (0x62000 + p.1 * 0x20) (rCtCtl p.2) (stQos s p.1)
      s.modQ fun q => { q with contracts := oerase q.contracts p.1 }
    else s) s

/-- Submission queues being deleted whose started commands have completed are deleted (R495, R503): their contracts end and the
Delete I/O Submission Queue completes. -/
def State.settleDeletes (s : State) (f : Fn) : State :=
  s.host.fns[f].sqs.foldl (fun s q =>
    match q.deleting with
    | none => s
    | some cid =>
      if s.q.ctxs.any fun p => p.2.fn == f && p.2.sq == q.id && !p.2.admin then s
      else
        let s := s.modFn f fun x => { x with sqs := x.sqs.filter fun y => y.id != q.id }
        (s.endContracts fun k => k.fn == f && k.sq == q.id).postAdmin f cid stOk 0 []) s

/-- The completion of a finished command is posted, and its context, credits and staging are given back; a write completed before it
is durable stays in the buffers (R31, R33, R475). -/
def State.postCtx (s : State) (x : CtxIx) (c : Ctx) (st : NvStatus) : State :=
  let sq := s.host.fns[c.fn].sqs.find? fun q => q.id == c.sq
  let bad := (c.blocks.zipIdx.find? fun p => p.1.failed.isSome).map (·.2)
  let s := if st = stOk then s else s.logError c.fn c.sq c.sqe.cid.toNat st (c.sqe.slba + bad.getD 0) c.sqe.nsid.toNat
  let data := if c.sqe.opcode == 0x02 then c.blocks.flatMap fun b => if b.sent then b.data.dataWords else [] else c.result
  let s := s.post
    { fn := c.fn, sq := c.sq, cq := (sq.map (·.cq)).getD 0, cid := c.sqe.cid, status := st, dw0 := (c.result[0]?).getD 0
      sqHead := (sq.map (·.head)).getD 0, words := data }
  let keep := c.writes && st == stOk && c.started && !c.blocks.all (·.durable) && !c.blocks.isEmpty
  let s := s.modQ fun q =>
    { q with
      ctxs := oerase q.ctxs x.val
      contracts := q.contracts.map fun k => (k.1, k.2.completed c s.mtime)
      creditsFree := if keep then q.creditsFree else q.creditsFree + c.credits
      staging := q.staging - (if keep then 0 else if c.writes then stagedCodewords c.blocks else c.staged)
      buffered := if keep then
          q.buffered ++ [{ ctx := x, fn := c.fn, nsid := c.sqe.nsid.toNat, startNo := c.startNo, slba := c.sqe.slba, zone := c.zone
                           zofs := c.zofs, blocks := c.blocks, credits := c.credits }]
        else q.buffered }
  let s := s.modQ fun q => { q with contracts := q.contracts.map fun k =>
    if k.2.floor && (k.2.covers c && !(q.ctxs.any (fun p => k.2.covers p.2))) then (k.1, { k.2 with waiting := false }) else k }
  ((s.settleDeletes c.fn).settleShutdown c.fn).settleReset

/-- COMPLETION_POST (R483): media commands of one submission queue complete in order; others as they are done. -/
def execCompletionPost (x : CtxIx) (s : State) : Out :=
  .next (
    match s.ctx x with
    | none => s
    | some c =>
      match c.finished with
      | none => s
      | some st =>
        -- R31: no read completes while a block is neither in host memory nor failed
        let open_ := !c.writes && c.media && !c.blocks.all fun b => b.sent || b.failed.isSome
        let earlier := c.media && c.started && s.q.ctxs.any fun p =>
          p.2.media && p.2.fn == c.fn && p.2.sq == c.sq && decide (p.2.fetchNo < c.fetchNo)
        let cq := (s.host.fns[c.fn].sqs.find? fun q => q.id == c.sq).bind fun q => s.host.fns[c.fn].cqs.find? fun y => y.id == q.cq
        if open_ then s
        else if earlier then
          if c.held then s
          else (s.modCtx x fun c => { c with held := true }).modQ fun q => { q with holdCnt := satAdd 32 q.holdCnt 1 }
        else if (cq.map CompQueue.full).getD true then s
        else s.postCtx x c st)

end Sys2Proof.Machine
end

