-- ==== Sys2Proof/Machine/Sched.lean ====
section
/-! DEFINITION. The rotational scheduler and the service contracts (spec/14_queues_ordering.md, R487 to R497, R507, R508) with the
queue and contract packets. -/

namespace Sys2Proof.Machine
open Sys2Proof

/-! ### Items (R487 to R490) -/

/-- A read or write run not yet armed: its command, or internal work; its head and first sector. -/
structure Item where
  ctx : Option CtxIx
  head : Head
  write : Bool
  at_ : SectorAt
  startNo : Nat
  /-- Class: 0 urgent to 3 low, 4 internal. -/
  cls : Nat
  tier : Nat
  deadline : Nat
  /-- Distance of the reach angle from the engine's angle (R488). -/
  reach : Nat
  deriving DecidableEq, Repr

/-- A fragment of a context for a head is queued or armed. -/
def State.armedFor (s : State) (a : Eng) (g : Head) (x : Nat) : Bool :=
  let h := s.localOf g
  let q := s.eng[a].seq
  (q.fq.any fun f => f.ctx == x && f.hmask.getLsbD h) || (fins 32).any fun (c : Fin 32) =>
    let k := s.eng[a].reel.cmp[(⟨16 + c.val, by omega⟩ : CmpIx)]
    k.armed && k.headMask.getLsbD h && q.tags[c].frag.ctx == x

/-- The reach angle of a sector (R488), as the distance from the engine's present angle: the next pass after the predicted seek and
settle. -/
def State.reachOf (s : State) (a : Eng) (g : Head) (p : SectorAt) : Nat :=
  let h := s.head[g].srv
  let dist := (h.pos - p.track * 256) / 256 + (p.track * 256 - h.pos) / 256
  let wait := if dist = 0 then 0 else Config.seekWedges (finMod 4 (by decide) s.eng[a].srv.galopSet) dist * 65536
  let from_ := (s.angle a + wait) % revUnits
  wait + (s.slotAngle a p + revUnits - from_) % revUnits

/-- Latency contract of a command, and whether its queue is behind a floor (R496). -/
def State.latencyOf (s : State) (c : Ctx) : Option (Nat × Contract) := s.q.contracts.find? fun k => !k.2.floor && k.2.short c
/-- A floor's queue has moved fewer bytes in its window than MBPS × the time elapsed (R496). -/
def Contract.behind (k : Contract) (now : MTime) : Bool := decide (k.winBytes * 3000 < k.rate * (now - k.winAt))
/-- See `latencyOf`. -/
def State.floorBehind (s : State) (c : Ctx) : Bool := s.q.contracts.any fun k => k.2.floor && k.2.covers c && k.2.behind s.mtime

/-- The deadline of a command under its latency contract. -/
def State.deadlineOf (s : State) (c : Ctx) : Nat := ((s.latencyOf c).map fun k => c.fetchAt + k.2.latMs * msClocks).getD 0

/-- Completed writes hold more than WB_HIGH % of all credits. -/
def State.wbHighNow (s : State) : Bool := decide (s.q.creditsAll * s.q.wbHigh < 100 * s.q.creditsWb)

/-- The tier of a command's items (R489). -/
def State.tierOf (s : State) (c : Ctx) : Nat :=
  if c.due then 1
  else if c.cls = 0 then 2
  else if s.q.ageMax < (s.eng[s.refEngine].reel.stamp.rev + 2 ^ 32 - c.startRev) % 2 ^ 32 then 3
  else if s.floorBehind c then 4
  else 5

/-- The first of an engine's sectors in a list for each head. -/
def firstPerHead (l : List (Head × SectorAt)) : List (Head × SectorAt) :=
  l.foldl (fun acc p => if acc.any fun q => q.1 == p.1 then acc else acc ++ [p]) []

/-- The sectors of an engine a read still has to read. -/
def State.readSectors (s : State) (a : Eng) (c : Ctx) : List (Head × SectorAt) :=
  c.blocks.filterMap fun b =>
    if b.here || b.failed.isSome then none
    else match b.source with
      | .media z o =>
        let d := s.zoneDesc z
        if d.engine = a then
          (s.blockSector d o).bind fun p =>
            let q := s.remapped a d p
            if (s.jobAt a q).isSome then none else (s.globalHead a q.head.val).map fun g => (g, q)
        else none
      | _ => none

/-- All work of an engine, armed or not (R487, R489, R490, R541): reads and writes of started commands, writes already completed, the module's own
writes, suspect rewrites, the block erase of a sanitise (R606), and reads of recovery jobs, placed as their oldest command's (R216). -/
def State.workOf (s : State) (a : Eng) : List Item :=
  let mk := fun (x : Option CtxIx) (w : Bool) (no cls tier dl : Nat) (p : Head × SectorAt) =>
    ({ ctx := x, head := p.1, write := w, at_ := p.2, startNo := no, cls := cls, tier := tier, deadline := dl
       reach := s.reachOf a p.1 p.2 } : Item)
  let cmds := s.q.ctxs.flatMap fun p =>
    let c := p.2
    let x := finMod 4096 (by decide) p.1
    if c.admin || !c.started then []
    else
      let l := if c.writes then s.writeSectors a c.view else s.readSectors a c
      (firstPerHead l).map (mk (some x) c.writes c.startNo c.cls (s.tierOf c) (s.deadlineOf c))
  let bufs := s.q.buffered.flatMap fun b =>
    let own := b.nsid == 0
    (firstPerHead (s.writeSectors a b.view)).map
      (mk (if own then none else some b.ctx) true b.startNo (if own then 4 else 2) (if s.wbHighNow && !own then 3 else 5) 0)
  let susp := (s.headsOf a).filterMap fun g =>
    (s.head[g].wr.suspects.find? fun x => x.written.isNone).map fun x => mk none true 0 4 5 0 (g, x.at_)
  let erase := (s.headsOf a).filterMap fun g => (s.eraseAt g).map fun p => mk none true 0 4 5 0 (g, p)
  let jobs := (fins 16).filterMap fun (j : JobIx) =>
    match s.eng[a].recv.jobs[j] with
    | some x =>
      if x.reading then
        (s.globalHead a x.at_.head.val).map fun g =>
          match x.cmds.head?.bind fun c => (s.ctx c.1).map fun k => (c.1, k) with
          | some (i, c) => mk (some i) false c.startNo c.cls (s.tierOf c) (s.deadlineOf c) (g, x.at_)
          | none => mk none false 0 4 5 0 (g, x.at_)
      else none
    | none => none
  (cmds ++ bufs ++ susp ++ erase ++ jobs).filter fun i => !s.head[i.head].map.depop

/-- Every item of an engine (R487): its work not yet armed. -/
def State.itemsOf (s : State) (a : Eng) : List Item :=
  (s.workOf a).filter fun i => match i.ctx with
    | some x => !s.armedFor a i.head x.val
    | none => true

/-- Item x goes before item y (R489): by tier, then by the order of the tier. -/
def Item.before (x y : Item) : Bool :=
  let key := fun (i : Item) => match i.tier with
    | 1 => [1, i.deadline, i.reach, 0]
    | 2 => [2, i.reach, 0, 0]
    | 3 => [3, i.startNo, 0, 0]
    | 4 => [4, i.reach, 0, 0]
    | t => [t, i.reach, i.cls, i.startNo]
  decide (key x ≤ key y)

/-- The items of an engine in the order they are served. -/
def State.servedItems (s : State) (a : Eng) : List Item := (s.itemsOf a).mergeSort Item.before

/-- What R487 asks of an item's head beside the range of its microactuator: grants, a writer slot, readiness; and R249 of a write, that
no suspect sector of an earlier track of its zone waits. -/
def State.itemPermitted (s : State) (a : Eng) (i : Item) : Bool :=
  let p := s.pwr.head[i.head]
  let h := s.head[i.head]
  if i.write then
    p.wrGnt && h.srv.wrReady && !h.wr.wrDis && !s.shingleHeld a i.head i.at_.track && (h.wr.slot.isSome || decide (s.wsl.used < s.wsl.max))
  else p.rdGnt && h.srv.rdReady

/-- Conventional writes take their places on the engine the scheduler reaches first (R417). -/
def State.placeConv (s : State) (a : Eng) : State :=
  s.q.ctxs.foldl (fun s p =>
    let c := p.2
    if c.writes && c.started && c.zone.isNone then
      (List.range c.blocks.length).foldl (fun s k =>
        if (s.viewPlace c.view k).isSome || ((c.blocks[k]?.map (·.durable)).getD true) then s
        else match s.appendBlock a (convBlock c.sqe.nsid.toNat (c.sqe.slba + k)) c.startNo none with
          | some (s', _, _) => s'
          | none => s) s
    else s) s

/-- The same for completed writes that found no room before. -/
def State.placeBuffered (s : State) (a : Eng) : State :=
  s.q.buffered.foldl (fun s b =>
    if b.zone.isNone then
      (List.range b.blocks.length).foldl (fun s k =>
        if (s.viewPlace b.view k).isSome || ((b.blocks[k]?.map (·.durable)).getD true) then s
        else match s.appendBlock a (convBlock b.nsid (b.slba + k)) b.startNo none with
          | some (s', _, _) => s'
          | none => s) s
    else s) s

/-- A command of a contract is deferred (R497, R556): its context notes by what, and so does a floor that covers it. -/
def State.deferCmd (s : State) (x : CtxIx) (by_ : Nat) : State :=
  match s.ctx x with
  | none => s
  | some c =>
    (s.modCtx x fun c => { c with deferredBy := some by_ }).modQ fun q =>
      { q with contracts := q.contracts.map fun k =>
          if k.2.floor && k.2.covers c then (k.1, { k.2 with deferredBy := some by_ }) else k }

/-- The contract of a command, by rank: its queue's latency contract, else a floor. -/
def State.contractOf (s : State) (c : Ctx) : Option (Nat × Contract) :=
  (s.latencyOf c).orElse fun _ => s.q.contracts.find? fun k => k.2.floor && k.2.covers c

/-- A contract's command passed over notes what deferred it (R497): 3 the power ceiling, else 0x100 + the contract admitted earlier
whose command took the head. -/
def State.noteDeferral (s : State) (l : List Item) (taken : List Item) : State :=
  l.foldl (fun s i =>
    match i.ctx.bind fun x => (s.ctx x).bind fun c => (s.contractOf c).map fun k => (x, k) with
    | none => s
    | some (x, (_, k)) =>
      if taken.any fun t => t == i then s
      else if i.write && !s.pwr.head[i.head].wrGnt || !i.write && !s.pwr.head[i.head].rdGnt then
        s.deferCmd x 3
      else match taken.findSome? fun t => if t.head == i.head then t.ctx.bind fun y => (s.ctx y).bind s.contractOf else none with
        | some (n, k') => if k'.adm ≤ k.adm || k.floor && !k'.floor then s.deferCmd x (0x100 + n) else s
        | none => s) s

/-- SCHEDULER_DECISION (R274, R417, R487 to R490): the items that may run are chosen in the order of the tiers, one per head; a head
becomes active as its item is taken. -/
def execSchedulerDecision (a : Eng) (s : State) : Out :=
  .next (
    if s.enginePresent a && !s.engineFailed a then
      let s := (s.placeConv a).placeBuffered a
      let all := s.servedItems a
      let ok := all.filter (s.itemPermitted a)
      let (s, taken) := ok.foldl (fun (acc : State × List Item) i =>
        let (s, l) := acc
        if l.any fun t => t.head == i.head then acc
        else if s.activationFits i.head (i.at_.track * 256) then (s.activate i.head (i.at_.track * 256), l ++ [i])
        else acc) (s, [])
      let s := s.modQ fun q =>
        { q with
          agedCnt := satAdd 32 q.agedCnt (taken.filter fun i => i.tier == 3).length
          chosen := vset q.chosen a (taken.map fun i => (((i.ctx.map fun x => x.val).getD 4096), i.head.val)) }
      s.noteDeferral all taken
    else s)

/-! ### Contracts (R491 to R497) -/

/-- CONTRACT_DUE (R490, R496): a covered command's deadline lies within LAT_GUARD. -/
def execContractDue (x : CtxIx) (s : State) : Out :=
  .next (
    match s.ctx x with
    | none => s
    | some c =>
      if (s.latencyOf c).isSome && c.finished.isNone && decide (s.deadlineOf c ≤ s.mtime + s.q.latGuard * msClocks) then
        s.modCtx x fun c => { c with due := true }
      else s)

/-- A yield of a contract (R45, R497): CT_YIELD, the YIELD record with the queue and what deferred it, the vendor event. -/
def State.contractYields (s : State) (n : Nat) (k : Contract) (by_ : Option Nat) : State :=
  let reg := 0x62000 + n * 0x20 + 0x10
  let s := s.modQ fun q => { q with contracts := q.contracts.map fun p =>
    if p.1 = n then (p.1, { p.2 with yieldCnt := inc 32 p.2.yieldCnt, yielding := true }) else p }
  let cause := match by_ with
    | none => [bf 23 16 0]
    | some c =>
      if c < 0x100 then [bf 23 16 c]
      else match alookup s.q.contracts (c - 0x100) with
        | some x => [bf 23 16 (if x.floor then 5 else 4), bf 31 24 x.fn.val]
        | none => []
  let causeQ := match by_ with
    | some c => if c < 0x100 then 0 else ((alookup s.q.contracts (c - 0x100)).map (·.sq)).getD 0
    | none => 0
  let s := s.record 0x0E03 7 k.fn.val reg (nw (k.yieldCnt + 1))
    [mkw ([bf 7 0 (if k.floor then 5 else 4), bf 15 8 k.fn.val] ++ cause), mkw [bf 15 0 k.sq, bf 31 16 causeQ]]
  let s := s.saturated (reaches 32 k.yieldCnt) 0x0E 7 k.fn.val reg (nw (k.yieldCnt + 1))
  s.vendorEvent (if k.fn.val = 0 then [0] else [0, k.fn]) 0x00 0 0 k.fn k.sq

/-- A counter of a contract changed. -/
def State.modContract (s : State) (n : Nat) (f : Contract → Contract) : State :=
  s.modQ fun q => { q with contracts := q.contracts.map fun p => if p.1 = n then (p.1, f p.2) else p }

/-- LATENCY_DEADLINE_MISS (R497): a covered command passes its deadline; the miss is classed. -/
def execLatencyDeadlineMiss (x : CtxIx) (s : State) : Out :=
  .next (
    match s.ctx x with
    | none => s
    | some c =>
      match s.latencyOf c with
      | none => s
      | some (n, k) =>
        if c.missed || decide (s.mtime ≤ s.deadlineOf c) then s
        else
          let s := s.modCtx x fun c => { c with missed := true }
          if c.overRate then s.modContract n fun k => { k with overCnt := satAdd 16 k.overCnt 1 }
          else if c.ladder then s.modContract n fun k => { k with recCnt := satAdd 16 k.recCnt 1 }
          else if c.activation then s.modContract n fun k => { k with actCnt := satAdd 16 k.actCnt 1 }
          else s.contractYields n k c.deferredBy)

/-- FLOOR_WINDOW_END (R496, R497): a window ends; a queue with work waiting throughout that moved less than MBPS has missed it. -/
def execFloorWindowEnd (n : ContractIx) (s : State) : Out :=
  .next (
    match alookup s.q.contracts n.val with
    | none => s
    | some k =>
      let len := s.q.floorWin * 10 * msClocks
      if k.floor && decide (k.winAt + len ≤ s.mtime) then
        let mb := k.winBytes / (s.q.floorWin * 10 * 1000)
        let now := s.q.ctxs.any fun p => k.covers p.2
        let miss := k.waiting && decide (k.winBytes < k.rate * s.q.floorWin * 10 * 1000)
        let s := s.modContract n.val fun k =>
          { k with
            winAt := s.mtime, winBytes := 0, waiting := now
            worst := if k.waiting then (if k.worst = 0 then mb else min k.worst mb) else k.worst }
        if miss then s.contractYields n.val k k.deferredBy else s
      else s)

/-- Shares of a namespace on the engines (R493). -/
def State.nsShares (s : State) (n : Namespace) : Vector (Nat × Nat) 4 :=
  Vector.ofFn fun (a : Eng) =>
    if n.zoned then ((n.zones.filter fun z => (s.zoneDesc z).engine == a).length, max 1 n.zones.length)
    else (if s.enginePresent a then 1 else 0, max 1 s.layout.engines)

/-- The larger of two shares. -/
def maxShare (x y : Nat × Nat) : Nat × Nat := if x.1 * y.2 < y.1 * x.2 then y else x

/-- Shares of a queue: each engine's largest among the namespaces its function reaches. -/
def State.queueShares (s : State) (f : Fn) : Vector (Nat × Nat) 4 :=
  (s.nsAttached f).foldl (fun v n => Vector.ofFn fun (a : Eng) => maxShare v[a] (s.nsShares n)[a]) (Vector.replicate 4 (0, 1))

/-- The engine with the largest share. -/
def topEngine (v : Vector (Nat × Nat) 4) : Eng :=
  (fins 4).foldl (fun (b : Eng) (a : Eng) => if v[b].1 * v[a].2 < v[a].1 * v[b].2 then a else b) 0

/-! ### Packets (0x01F0 to 0x01F6) -/

/-- The function a level 7 packet names. -/
def Packet.fnOf (p : Packet) : Fn := finMod 16 (by decide) p.idx

/-- queue.status. -/
def execQueueStatus (p : Packet) (s : State) : Out :=
  .next (runPacket ⟨0x01F0, [5], .read⟩ p s fun s => .report s (stQpl s))

/-- queue.config (R507, R508). -/
def opQueueConfig (p : Packet) (s : State) : PktRes :=
  let w0 := clampWord [fIn 31 24 0 254, fIn 23 12 64 4064] 0 (p.w 0)
  let w0 := setFld w0 23 12 (max (fld w0 23 12) (fld w0 31 24))
  let w1 := clampWord [fIn 31 24 2 64, fIn 23 16 2 255, fIn 15 8 50 95, fIn 7 0 5 100] 0 (p.w 1)
  let w2 := clampWord [fIn 31 24 10 90, fIn 23 12 20 400] 0 (p.w 2)
  let s := s.modQ fun q =>
    { q with
      ctxMin := fld w0 31 24, ctxMax := fld w0 23 12, ageMax := fld w1 31 24, latGuard := fld w1 23 16, wbHigh := fld w1 15 8
      floorWin := fld w1 7 0, admBwPct := fld w2 31 24, admIops := fld w2 23 12 }
  { state := s.modNor fun n => { n with queue := vset (vset (vset n.queue 0 w0) 1 w1) 2 w2 }
    result := [w0, w1, w2], clamp := clampBits [(0, p.w 0, w0), (1, p.w 1, w1), (2, p.w 2, w2)] }
/-- queue.config. -/
def execQueueConfig (p : Packet) (s : State) : Out := .next (runPacket ⟨0x01F1, [5], .config⟩ p s (opQueueConfig p))

/-- queue.function. -/
def execQueueFunction (p : Packet) (s : State) : Out :=
  .next (runPacket ⟨0x01F2, [7], .read⟩ p s fun s => .report s (stQfn s p.fnOf))

/-- L_MIN (R492). -/
def State.lMin (s : State) : Nat := (240000 + s.spn.set.bolMin - 1) / max 1 s.spn.set.bolMin

/-- Sum of rate × share over contracts on an engine, as a fraction (R493). -/
def shareSum (a : Eng) (l : List (Nat × Contract)) : Nat × Nat :=
  l.foldl (fun (n, d) c =>
    let e := max 1 c.2.shares[a].2
    (n * e + c.2.rate * c.2.shares[a].1 * d, d * e)) (0, 1)

/-- The totals of R493 stay within limits with a contract included. -/
def State.admits (s : State) (k : Contract) : Bool :=
  let l := (s.q.contracts ++ [(256, k)]).filter fun c => c.2.floor == k.floor
  let ok := fun (m : Eng → Nat) => (fins 4).all fun (a : Eng) =>
    !s.enginePresent a || decide ((shareSum a l).1 ≤ m a * (shareSum a l).2)
  if k.floor then
    let pct := s.q.admBwPct
    ((fins 4).all fun (a : Eng) => !s.enginePresent a || decide (100 * (shareSum a l).1 ≤ pct * s.engBw a * (shareSum a l).2)) &&
      decide (100 * (l.map fun c => c.2.rate).sum ≤ pct * s.linkBw)
  else ok fun _ => s.q.admIops

/-- qos.admit (R491 to R494, R508). -/
def opQosAdmit (p : Packet) (s : State) : PktRes :=
  let f := p.fnOf
  let w0 := clampWord [fAny 5 4, fAny 0 0] 0 (p.w 0)
  let floor := w0.getLsbD 0
  let w1 := clampWord [fAny 15 0] 0 (p.w 1)
  let sq := w1.toNat
  let lat := if floor then 0 else clampWord [fIn 31 0 s.lMin 10000] 0 (p.w 2)
  let rate := if floor then clampWord [fIn 31 0 1 14200] 0 (p.w 3) else clampWord [fIn 31 0 1 4000] 0 (p.w 3)
  if sq = 0 || !(s.host.fns[f].sqs.any fun q => q.id == sq) ||
      s.q.contracts.any fun c => c.2.fn == f && c.2.sq == sq && c.2.floor == floor then .fail s 0x0203
  else
    let k : Contract :=
      { floor := floor, dir := BitVec.ofNat 2 (fld w0 5 4), fn := f, sq := sq, latMs := lat.toNat, rate := rate.toNat, adm := s.rst.poh
        shares := s.queueShares f, winAt := s.mtime }
    match (List.range 256).find? fun n => !s.q.contracts.any fun c => c.1 == n with
    | some n =>
      if s.admits k then
        let s := s.modQ fun q => { q with contracts := oset q.contracts n k }
        { state := s, result := [nw n, rCtCtl k, rCtParam k, nw k.adm, nw s.linkBw, rEngBw s (topEngine k.shares)]
          clamp := clampBits [(0, p.w 0, w0), (1, p.w 1, w1), (2, p.w 2, lat), (3, p.w 3, rate)] }
      else .fail (s.modQ fun q => { q with ctRefuseCnt := satAdd 32 q.ctRefuseCnt 1 }) 0x0301
    | none => .fail (s.modQ fun q => { q with ctRefuseCnt := satAdd 32 q.ctRefuseCnt 1 }) 0x0301
/-- qos.admit. -/
def execQosAdmit (p : Packet) (s : State) : Out := .next (runPacket ⟨0x01F3, [7], .action⟩ p s (opQosAdmit p))

/-- qos.revoke (R495, R508). -/
def opQosRevoke (p : Packet) (s : State) : PktRes :=
  let n := fld (p.w 0) 7 0
  match alookup s.q.contracts n with
  | none => .fail s 0x0105
  | some k =>
    if k.fn ≠ p.fnOf then .fail s 0x0401
    else
      { state := s.endContracts fun c => c == k, clamp := clampBits [(0, p.w 0, nw n)]
        result := [nw k.done, nw k.yieldCnt, rCtExc k, rCtMisc k, nw k.worst] }
/-- qos.revoke. -/
def execQosRevoke (p : Packet) (s : State) : Out := .next (runPacket ⟨0x01F4, [7], .action⟩ p s (opQosRevoke p))

/-- qos.status (R508): from a VF only about its own contracts. -/
def opQosStatus (p : Packet) (s : State) : PktRes :=
  let n := fld (p.w 0) 7 0
  let own := match p.src, alookup s.q.contracts n with
    | .nvme f, some k => f.val == 0 || k.fn == f
    | _, _ => true
  if own then { state := s, clamp := clampBits [(0, p.w 0, nw n)], result := stQos s n } else .fail s 0x0401
/-- qos.status. -/
def execQosStatus (p : Packet) (s : State) : Out := .next (runPacket ⟨0x01F5, [5], .read⟩ p s (opQosStatus p))

/-- queue.clear. -/
def opQueueClear (p : Packet) (s : State) : PktRes :=
  let m := fld (p.w 0) 3 0
  let c := fld (p.w 1) 5 0
  let n := fld (p.w 2) 7 0
  let q := s.q
  let kv : List Nat := match alookup q.contracts n with
    | some k => [k.done, k.yieldCnt, k.overCnt, k.recCnt, k.actCnt, k.exclCnt]
    | none => [0, 0, 0, 0, 0, 0]
  let vals := [q.holdCnt, q.agedCnt, q.creditWaitCnt, q.ctRefuseCnt] ++ kv
  let s := s.modQ fun q =>
    { q with
      holdCnt := clr m 0 q.holdCnt, agedCnt := clr m 1 q.agedCnt, creditWaitCnt := clr m 2 q.creditWaitCnt
      ctRefuseCnt := clr m 3 q.ctRefuseCnt }
  let s := s.modContract n fun k =>
    { k with
      done := clr c 0 k.done, yieldCnt := clr c 1 k.yieldCnt, overCnt := clr c 2 k.overCnt, recCnt := clr c 3 k.recCnt
      actCnt := clr c 4 k.actCnt, exclCnt := clr c 5 k.exclCnt }
  { state := s, clamp := clampBits [(0, p.w 0, nw m), (1, p.w 1, nw c), (2, p.w 2, nw n)]
    result := selected (m + 16 * c) (vals.map fun v => [nw v]) }
/-- queue.clear. -/
def execQueueClear (p : Packet) (s : State) : Out := .next (runPacket ⟨0x01F6, [5], .action⟩ p s (opQueueClear p))

end Sys2Proof.Machine
end

