-- ==== Sys2Proof/Machine/Cores.lean ====
section
/-! DEFINITION. The processors' own resets (01_architecture.md R26 to R28, R600). -/

namespace Sys2Proof.Machine
open Sys2Proof

/-- A lockstep mismatch of an actuator core (R26, R27): every write gate of the engine goes off, the pair is reset and reloads its
image; the third within one power-on hour fails the engine. -/
def State.lockstep (s : State) (a : Eng) : State :=
  let s := s.forceWritesOff a (s.headsOf a) true false
  let s := s.modCore a fun c => { c with mismatches := s.rst.poh :: c.mismatches.filter fun t => decide (s.rst.poh < t + 1024) }
  if 3 ≤ s.eng[a].core.mismatches.length then s.engineFail a else s

/-- LOCKSTEP_MISMATCH (R26, R27). -/
def execLockstepMismatch (a : Eng) (s : State) : Out := .next (if s.enginePresent a then s.lockstep a else s)

/-- A management core is reset (R28): its commands pass to the other cores, so that none is lost or completed twice; the event is
recorded. -/
def State.mgmtReset (s : State) (_core : Fin 4) : State := s.condMod 5 0

/-- MGMT_WATCHDOG_EXPIRY (R28). -/
def execMgmtWatchdogExpiry (c : Fin 4) (s : State) : Out := .next (s.mgmtReset c)

end Sys2Proof.Machine
end

