-- ==== Sys2Proof/Machine/Memory.lean ====
section
/-! DEFINITION. DDR4 and SRAM (17_memory_ecc.md): the (72,64) code, the stored words, reads and writes through the code, the
leaky buckets, hard faults and repair, the DRAM arbiter, the scrubbers, and the packets 0x0210 to 0x0215. -/

namespace Sys2Proof.Machine
open Sys2Proof

/-! ### The code (R562 to R564) -/

/-- Columns of the data bits (R562). -/
def eccColumns : List Nat :=
  ((List.range 256).filter fun n => popcount 8 n == 3) ++ [0x1F, 0x2F, 0x37, 0x3B, 0x3D, 0x3E, 0x4F, 0x57]

/-- Check bits of a data word: the XOR of the columns of its set bits (R562). -/
def eccCheck (d : BitVec 64) : Byte :=
  BitVec.ofNat 8 (eccColumns.zipIdx.foldl (fun a (c, j) => if d.getLsbD j then a ^^^ c else a) 0)

/-- A word with the check bits of its data. -/
def EccWord.fresh (d : BitVec 64) : EccWord := { data := d, check := eccCheck d }
/-- A poisoned word (R564). -/
def EccWord.poison (d : BitVec 64) : EccWord := { data := d, check := eccCheck d ^^^ 0xFF }
/-- The syndrome (R563). -/
def EccWord.syndrome (w : EccWord) : Byte := w.check ^^^ eccCheck w.data

/-- The kind of a syndrome (R563). -/
def eccKind (x : Byte) : EccKind :=
  if x = 0 then .none
  else if x = 0xFF then .poison
  else if popcount 8 x.toNat = 1 ∨ eccColumns.contains x.toNat then .ce
  else .ue

/-- Kind of a stored word. -/
def EccWord.kind (w : EccWord) : EccKind := eccKind w.syndrome

/-- The data a read returns (R563): the bit of the syndrome's column inverted where the error is correctable. -/
def EccWord.value (w : EccWord) : BitVec 64 :=
  match w.kind, eccColumns.findIdx? fun c => c == w.syndrome.toNat with
  | .ce, some j => w.data ^^^ (BitVec.ofNat 64 (2 ^ j))
  | _, _ => w.data

/-- The word cannot be corrected. -/
def EccKind.bad (k : EccKind) : Bool := k == .ue || k == .poison

/-! ### The stored words (R29, R559, R569) -/

/-- First word and number of words of each DDR4 partition, in the order of R29 (log 21). -/
def partitions : List (Nat × Nat) :=
  let mib := 131072
  [(0, 512 * mib), (512 * mib, 256 * mib), (768 * mib, 1024 * mib), (1792 * mib, 3072 * mib), (4864 * mib, 512 * mib),
    (5376 * mib, 128 * mib), (5504 * mib, 2688 * mib), (8192 * mib, 8192 * mib)]

/-- The DDR4 error region of a word: its partition (R571). -/
def dramRegion (w : Nat) : MemRegion :=
  finMod 15 (by decide) ((partitions.findIdx? fun p => decide (p.1 ≤ w ∧ w < p.1 + p.2)).getD 0)

/-- First word of the controller memory buffer partition. -/
def cmbBase : Nat := 512 * 131072
/-- A word lies in the controller memory buffer. -/
def inCmb (w : Nat) : Bool := decide (cmbBase ≤ w ∧ w < cmbBase + 256 * 131072)

/-- What an unlisted word of DDR4 holds (R569). -/
def Memory.default (w : Nat) : EccWord := if inCmb w then EccWord.poison 0 else EccWord.fresh 0
/-- The word stored at a word address. -/
def Memory.read (m : List (Nat × EccWord)) (w : Nat) : EccWord := (alookup m w).getD (Memory.default w)
/-- A word stored at a word address; the list stays canonical. -/
def Memory.write (m : List (Nat × EccWord)) (w : Nat) (v : EccWord) : List (Nat × EccWord) :=
  if v = Memory.default w then oerase m w else oset m w v
/-- The canonical form: word addresses strictly rising, no entry equal to what an unlisted word holds. -/
def Memory.wf (m : List (Nat × EccWord)) : Bool :=
  decide (m.Pairwise fun x y => x.1 < y.1) && m.all fun x => x.2 != Memory.default x.1

/-- The channel of a module word address (R559): bits 8, 12 and 16 of the byte address. -/
def wordChan (w : Nat) : Fin 2 :=
  finMod 2 (by decide) ((w.testBit 5).toNat + (w.testBit 9).toNat + (w.testBit 13).toNat)
/-- The word address within its channel: the byte address without bit 8 (log 21). -/
def chanWord (w : Nat) : Nat := w / 64 * 32 + w % 32
/-- The module word address of a word of a channel (R559). -/
def moduleWord (c : Fin 2) (w : Nat) : Nat :=
  let hi := w / 32 * 64 + w % 32
  hi + (if (c.val + (hi.testBit 9).toNat + (hi.testBit 13).toNat) % 2 = 1 then 32 else 0)

/-- Words of one channel. -/
def chanWords : Nat := 2 ^ 30

/-- First word in SRAM of each SRAM error region 8 to 14, in the order of R571 (log 21). -/
def sramBase (r : Nat) : Nat :=
  let kib := 128
  if r ≤ 8 then 0 else if r = 9 then 32768 * kib else if r = 10 then 43008 * kib else if r = 11 then 45056 * kib
  else if r = 12 then 48256 * kib else if r = 13 then 48512 * kib else 48576 * kib

/-- The SRAM diagnostic window: the last 4 KiB of processor local memory (R577, log 21). -/
def sramWindow : Nat := sramBase 12 - 512
/-- The diagnostic window of each DDR4 channel: the last 1 MiB of the raw-sample capture partition on it (R577). -/
def dramWindow : Nat := (5376 - 2) * 131072 / 2
/-- A module word lies in a diagnostic window: left out of counters, buckets, logs and events, and skipped by the scrubber. -/
def inWindow (w : Nat) : Bool := decide (dramWindow ≤ chanWord w ∧ chanWord w < dramWindow + 131072)

/-- A channel changed. -/
def State.modChan (s : State) (c : Fin 2) (f : Channel → Channel) : State := s.modMem fun m => { m with chan := vmod m.chan c f }
/-- A word written by anyone: a write-back that waits for it is cancelled (R565), and a full write is noted (R573). -/
def State.putWord (s : State) (w : Nat) (v : EccWord) (full : Bool) : State :=
  let key := ((wordChan w).val, chanWord w)
  let s := s.modMem fun m =>
    { m with
      dram := Memory.write m.dram w v
      ueHist := if full then m.ueHist.map fun p => if p.1 = key then (key, true) else p else m.ueHist }
  s.modChan (wordChan w) fun c => { c with writebacks := c.writebacks.filter fun p => p.1 ≠ w }

/-! ### Errors: counters, buckets, logs (R565, R566, R571, R573) -/

/-- A region's bucket changed. -/
def State.modBkt (s : State) (r : MemRegion) (f : Bucket → Bucket) : State := s.modMem fun m => { m with bkt := vmod m.bkt r f }

/-- A bucket takes a level (R571): at DEPTH it holds, OVF sets with the interrupt and one event where it was clear. -/
def State.fillBucket (s : State) (r : MemRegion) (n : Nat) : State :=
  let b := s.mem.bkt[r]
  let s := s.modBkt r fun b => { b with level := min n b.depth }
  if b.depth ≤ n ∧ !b.ovf then
    let s := (s.modBkt r fun b => { b with ovf := true }).modMem fun m => { m with irq := m.irq ||| (1 <<< r.val) }
    s.condMem
  else s

/-- A correctable error in a region (R565, R571). -/
def State.countCe (s : State) (r : MemRegion) (log : EccLog) : State :=
  let s := (s.modBkt r fun b => { b with ceCnt := satAdd 32 b.ceCnt 1 }).modMem fun m => { m with lastCe := log }
  s.fillBucket r (s.mem.bkt[r].level + 1)

/-- An uncorrectable read in a region (R566): UE_CNT, the log, and one event unless a partial write met poison (R567). -/
def State.countUe (s : State) (r : MemRegion) (log : EccLog) (event : Bool) : State :=
  let n := s.mem.bkt[r].ueCnt
  let s := (s.modBkt r fun b => { b with ueCnt := inc 32 b.ueCnt }).modMem fun m =>
    let h := (m.ueHead + 1) % 16
    { m with ueHead := h, ueLog := vset m.ueLog (finMod 16 (by decide) h) log }
  let s := s.saturated (reaches 32 n) 0x10 5 0 (0x3010C + r.val * 0x10) (nw (n + 1))
  if event then s.condMem else s

/-- The die that a syndrome names: four dies of 16 data bits, the fifth of the check bits (R559, R573). -/
def dieOf (x : Byte) : Option Nat :=
  if popcount 8 x.toNat = 1 then some 4 else (eccColumns.findIdx? fun c => c == x.toNat).map fun j => j / 16

/-- Row of a channel word: 8 KiB of data (R574). -/
def rowOf (w : Nat) : Nat := w / 1024

/-- A DDR4 row marked for repair in dies (R573); a repair is in progress until DRAM_ROW_REPAIR has served every mark (log 22). -/
def State.markRow (s : State) (c : Fin 2) (w : Nat) (dies : List Nat) : State :=
  let l := dies.map fun d => (d, rowOf w)
  (s.modChan c fun x => { x with marked := x.marked ++ l.filter fun y => !x.marked.contains y }).modMem fun m => { m with repairBusy := true }

/-- An SRAM macro row marked (R573, R575): recorded in the NOR configuration area, switched to a spare at the next power-on reset; a
row that finds no spare is recorded in an event. -/
def State.markSram (s : State) (w : Nat) : State :=
  let r := Config.sramRow w
  if s.mem.sramMarked.contains r || s.nor.sramRepairs.contains r then s
  else if 2 ≤ (s.nor.sramRepairs.filter fun x => Config.sramMacro x == Config.sramMacro r).length then
    (s.modMem fun m => { m with sramMarked := r :: m.sramMarked }).condMem
  else (s.modMem fun m => { m with sramMarked := r :: m.sramMarked }).modNor fun n => { n with sramRepairs := r :: n.sramRepairs }

/-- HARD_THR. -/
def MemBlock.hardThr (m : MemBlock) : Nat := fld m.cfg 15 12

/-- A correction counts towards a hard fault (R573): the corrections before it that were each followed by a write-back. -/
def State.hardCe (s : State) (key : Nat × Nat) (synd : Byte) : State :=
  let n := (alookup s.mem.history key).getD 0
  if s.mem.hardThr ≤ n + 1 then
    let s := s.modMem fun m => { m with history := aerase m.history key }
    match fin? 2 key.1 with
    | some c => s.markRow c key.2 ((dieOf synd).toList)
    | none => s.markSram key.2
  else s

/-- An uncorrectable read counts towards a hard fault (R573): the second with a full write between them marks the row. -/
def State.hardUe (s : State) (key : Nat × Nat) : State :=
  if alookup s.mem.ueHist key = some true then
    let s := s.modMem fun m => { m with ueHist := aerase m.ueHist key }
    match fin? 2 key.1 with
    | some c => s.markRow c key.2 [0, 1, 2, 3, 4]
    | none => s.markSram key.2
  else s.modMem fun m => { m with ueHist := aset m.ueHist key false }

/-- A write-back of a corrected word has been made (R565, R573). -/
def State.notedBack (s : State) (key : Nat × Nat) : State :=
  s.modMem fun m => { m with history := aset m.history key (((alookup m.history key).getD 0) + 1) }

/-- A read of a DDR4 word through the code (R563, R565, R566): what it returns and the state it leaves. A correctable error is
counted and its write-back queued; in a partial write the write itself corrects (R567). -/
def State.readWord (s : State) (w : Nat) (partial_ : Bool) : EccWord × State :=
  let v := Memory.read s.mem.dram w
  if inWindow w then (v, s)
  else
    let c := wordChan w
    let key := (c.val, chanWord w)
    let r := dramRegion w
    let log : EccLog := { memid := c.val, region := r.val, synd := v.syndrome, kind := v.kind, waddr := chanWord w }
    match v.kind with
    | .none => (v, s)
    | .ce =>
      let waiting := s.mem.chan[c].writebacks.any fun p => p.1 = w
      let s := s.countCe r log
      let s := if partial_ || waiting then s
        else (s.hardCe key v.syndrome).modChan c fun x => { x with writebacks := x.writebacks ++ [(w, EccWord.fresh v.value)] }
      (v, s)
    | .ue => (v, (s.countUe r log true).hardUe key)
    | .poison => (v, (s.countUe r log (!partial_)).hardUe key)

/-- Bytes merged into a word at a byte offset. -/
def mergeBytes (d : BitVec 64) (off : Nat) (bytes : List Byte) : BitVec 64 :=
  bytes.zipIdx.foldl (fun (d : BitVec 64) (b, i) =>
    let k := 8 * (off + i)
    (d &&& ~~~(BitVec.ofNat 64 (255 * 2 ^ k))) ||| BitVec.ofNat 64 (b.toNat * 2 ^ k)) d

/-- Some bytes of one word written (R567). -/
def State.writeBytes (s : State) (w off : Nat) (bytes : List Byte) : State :=
  if bytes.length = 8 then s.putWord w (EccWord.fresh (mergeBytes 0 0 bytes)) true
  else
    let (v, s) := s.readWord w true
    let d := mergeBytes v.value off bytes
    if v.kind.bad then
      (s.putWord w (EccWord.poison d) false).modMem fun m => { m with poisonCnt := satAdd 32 m.poisonCnt 1 }
    else s.putWord w (EccWord.fresh d) false

/-- Bytes written from a byte address on, word by word. -/
def State.writeRange (s : State) (addr : Nat) : List Byte → Nat → State
  | _, 0 => s
  | bytes, n + 1 =>
    if bytes.isEmpty then s
    else
      let off := addr % 8
      let now := bytes.take (8 - off)
      (s.writeBytes (addr / 8) off now).writeRange (addr + now.length) (bytes.drop (8 - off)) n

/-! ### The controller memory buffer (R441, R462, R463, R570) -/

/-- First byte and size of a function's buffer in DDR4 (R441): none where it has no BAR4. -/
def State.cmbOf (s : State) (f : Fn) : Option (Nat × Nat) :=
  if s.host.vfCmb then some (8 * cmbBase + f.val * 16777216, 16777216)
  else if f = 0 then some (8 * cmbBase, 268435456) else none

/-- A function's buffer is enabled (R461): CRE and CMSE of its CMBMSC (log 69). -/
def State.cmbOn (s : State) (f : Fn) : Bool := (s.cmbOf f).isSome && s.host.fns[f].cmbmsc.getLsbD 0 && s.host.fns[f].cmbmsc.getLsbD 1

/-- CMBSZ (R461): submission queues, PRP and SGL lists, read and write data, no completion queues; the size of R441 in units of 1 MiB.
Zero while CRE is clear (log 69). -/
def State.cmbsz (s : State) (f : Fn) : Word :=
  match s.cmbOf f with
  | some (_, n) => if s.host.fns[f].cmbmsc.getLsbD 0 then mkw [bf 31 12 (n / 1048576), bf 11 8 2, bb 4 true, bb 3 true, bb 2 true, bb 0 true] else 0
  | none => 0

/-- CMBLOC (R461): BIR 4 at offset 0. -/
def State.cmbloc (s : State) (f : Fn) : Word :=
  if (s.cmbOf f).isSome && s.host.fns[f].cmbmsc.getLsbD 0 then mkw [bf 31 12 0, bf 2 0 4] else 0

/-- CSTS of a function: ready, fatal status, shutdown status. -/
def FnState.csts (x : FnState) : Nat := (if x.rdy then 1 else 0) + (if x.cfs then 2 else 0) + 4 * x.shst

/-- A controller property of a function by its offset in BAR0 (R443, R461), where the manual gives it: CAP with MQES, CQR, AMS, TO, CSS,
MPSMIN, MPSMAX and CMBS, then VS, CSTS, CMBLOC, CMBSZ and CMBMSC. Places of the bits as in NVMe Base 2.0 (log 9). -/
def State.property (s : State) (f : Fn) (off : Nat) : Option Word :=
  match off with
  | 0x00 => some (mkw [bf 15 0 0x3FFF, bb 16 true, bb 17 true, bf 31 24 0x14])
  | 0x04 => some (mkw [bb 5 true, bb 11 true, bf 19 16 0, bf 23 20 4, bb 25 (s.cmbOf f).isSome])
  | 0x08 => some 0x00020000
  | 0x1C => some (nw s.host.fns[f].csts)
  | 0x38 => some (s.cmbloc f)
  | 0x3C => some (s.cmbsz f)
  | 0x50 => some (nw s.host.fns[f].cmbmsc.toNat)
  | 0x54 => some (nw (s.host.fns[f].cmbmsc.toNat / 2 ^ 32))
  | _ => none

/-- Device ID of a function (R440): the PF's and the VFs'. -/
def deviceId (f : Fn) : Nat := if f = 0 then 0x4824 else 0x4825

/-- A word of a function's configuration header that the manual gives (R440): Vendor and Device ID, class code, Subsystem Vendor ID;
the Revision ID and the Subsystem ID are not in it (log 9). -/
def configHeader (f : Fn) (off : Nat) : Option Word :=
  match off with
  | 0x00 => some (mkw [bf 31 16 (deviceId f), bf 15 0 0x1F4C])
  | 0x08 => some (mkw [bf 31 8 0x010802, bf 7 0 (Config.logWord 0x103 2).toNat])
  | 0x2C => some (mkw [bf 31 16 (Config.logWord 0x103 11).toNat, bf 15 0 0x1F4C])
  | _ => none

/-- CMB_POISON_REFILL (R463, R570): a function's buffer becomes unwritten and its refill begins. -/
def State.refillCmb (s : State) (f : Fn) : State :=
  match s.cmbOf f with
  | none => s
  | some (b, n) =>
    s.modMem fun m =>
      { m with
        dram := m.dram.filter fun p => !decide (b ≤ 8 * p.1 ∧ 8 * p.1 < b + n)
        refill := if m.refill.contains f then m.refill else m.refill ++ [f]
        deferred := m.deferred.filter fun d => d.1 ≠ f }

/-- A burst served by a channel: CH_BUSY. -/
def State.burst (s : State) (c : Fin 2) : State := s.modChan c fun x => { x with busy := wrapAdd 32 x.busy 1 }

/-- CMB_WRITE (R461, R462, R567, R570): during a refill the write waits until the refill has passed; a buffer not enabled takes none
(log 69). -/
def execCmbWrite (f : Fn) (off : Nat) (bytes : List Byte) (s : State) : Out :=
  .next (
    match s.cmbOf f with
    | none => s
    | some (b, n) =>
      if !s.host.fns[f].present || !s.cmbOn f || decide (n < off + bytes.length) then s
      else if s.mem.refill.contains f then s.modMem fun m => { m with deferred := m.deferred ++ [(f, off, bytes)] }
      else (s.writeRange (b + off) bytes (bytes.length + 1)).burst (wordChan ((b + off) / 8)))

/-- CMB_READ (R461, R462, R566, R570): a completion with EP where a word is unwritten, poisoned or uncorrectable, or a refill is in progress;
else the bytes, as the words that hold them. -/
def execCmbRead (f : Fn) (off len : Nat) (s : State) : Out :=
  .next (
    match s.cmbOf f with
    | none => s
    | some (b, n) =>
      if !s.host.fns[f].present || !s.cmbOn f || decide (n < off + len) || len = 0 then s
      else
        let first := (b + off) / 8
        let words := (List.range ((b + off + len - 1) / 8 + 1 - first)).map fun i => first + i
        let (s, bad, l) := words.foldl (fun (x : State × Bool × List Word) w =>
          let (v, s') := x.1.readWord w false
          (s', x.2.1 || v.kind.bad, x.2.2 ++ lohi v.value.toNat)) (s.burst (wordChan first), s.mem.refill.contains f, [])
        let cnt := s.host.fns[f].cmbPoisCnt
        if bad then
          let s := s.modFn f fun x => { x with cmbPoisCnt := inc 16 x.cmbPoisCnt }
          let v := mkw [bf 31 16 s.host.fns[f].cmdErrCnt, bf 15 0 s.host.fns[f].cmbPoisCnt]
          let s := s.saturated (reaches 16 cnt) 0x0D 7 f.val (0x60114 + 0x20 * f.val) v
          let s := s.violated .cmbPois f.val 7 f.val (0x60114 + 0x20 * f.val) v [nw off, nw len, 0, 0]
          s.modOut fun o => { o with tlps := (f, 3, []) :: (f, 1, []) :: o.tlps }
        else s.modOut fun o => { o with tlps := (f, 2, l) :: o.tlps })

/-- CMB_REFILL_DONE (R570): the refill has passed; the deferred writes of the function take effect in order. -/
def execCmbRefillDone (f : Fn) (s : State) : Out :=
  .next (
    if s.mem.refill.contains f then
      let l := s.mem.deferred.filter fun d => d.1 = f
      let s := s.modMem fun m => { m with refill := m.refill.filter (· ≠ f), deferred := m.deferred.filter fun d => d.1 ≠ f }
      match s.cmbOf f with
      | none => s
      | some (b, _) => l.foldl (fun s d => s.writeRange (b + d.2.1) d.2.2 (d.2.2.length + 1)) s
    else s)

/-! ### The arbiter (R560, R561) -/

/-- Level of a requester: DRAM_PRIO. -/
def MemBlock.level (m : MemBlock) (who : Nat) : Nat := fld m.prio (2 * who + 1) (2 * who)
/-- DSTARVE_THR of a level (R194, R561). -/
def MemBlock.starveThr (m : MemBlock) (level : Nat) : Nat := fld m.starve (31 - 8 * level) (24 - 8 * level)

/-- Key of a request in the order of R561: a promoted requester goes first by its promotion, then the levels from 3 down; MTIME;
requester number. Lower goes first. -/
def MemBlock.reqKey (m : MemBlock) (c : Fin 2) (q : DramReq) : Nat × Nat × Nat :=
  match vget m.chan[c].promoted q.who none with
  | some t => (0, t, q.who)
  | none => (4 - m.level q.who, q.at_, q.who)

/-- A key goes before another. -/
def keyBefore (x y : Nat × Nat × Nat) : Bool :=
  decide (x.1 < y.1) || (x.1 == y.1 && (decide (x.2.1 < y.2.1) || (x.2.1 == y.2.1 && decide (x.2.2 < y.2.2))))

/-- A channel's best pending request; a requester's own are served oldest first. -/
def MemBlock.best (m : MemBlock) (c : Fin 2) : Option DramReq :=
  m.chan[c].pending.foldl (fun b q => match b with
    | none => some q
    | some x => if keyBefore (m.reqKey c q) (m.reqKey c x) then some q else b) none

/-! ### What a requester does when a word is lost (R576) -/

/-- A sector in media staging is lost: it is read again at its next pass. -/
def State.rereadStaged (s : State) (i : Nat) : State :=
  let x : CtxIx := finMod 4096 (by decide) i
  match (s.ctx x).bind fun c => if c.writes then none else (c.blocks[i / 4096]?).filter BlockState.staged with
  | none => s
  | some _ => (s.modCtx x fun c => { c with blocks := modAt c.blocks (i / 4096) fun b => { b with here := false, data := {} } }).modQ
      fun q => { q with staging := q.staging - 1 }

/-- A record of the holding queue, or staged for its block, is discarded and counted as lost. -/
def State.loseQueued (s : State) (i : Nat) : State :=
  match s.evr.queue[i]? with
  | none => s
  | some e => s.modEvr fun q =>
    { q with queue := q.queue.eraseIdx i, lostCnt := inc 32 q.lostCnt
             lost := if q.lost.2 = 0 then (e.rseq, 1) else (q.lost.1, q.lost.2 + 1) }

/-- The core that owns a lost word is reset (R26, R28): a management core, or an actuator core pair. -/
def State.resetCore (s : State) (i : Nat) : State :=
  if i % 8 < 4 then s.mgmtReset (finMod 4 (by decide) i)
  else
    let a : Eng := finMod 4 (by decide) i
    if s.enginePresent a then s.lockstep a else s

/-- A trace sample or a staged record is discarded and counted as lost (log 20). -/
def State.loseStaged (s : State) (i : Nat) : State :=
  if i % 2 = 0 then s.loseQueued (i / 2)
  else
    match s.trc.captures with
    | [] => s
    | (k, t, l) :: rest =>
      let s := s.modTrc fun x => { x with captures := (k, t, l.map fun c => c.eraseIdx (i / 2)) :: rest }
      s.modEvr fun q => { q with lostCnt := inc 32 q.lostCnt }

/-- Blocks of reads that take their data from block k of a write end with Internal Error (R484, R576). -/
def State.failFed (s : State) (startNo k : Nat) : State :=
  s.modQ fun q => { q with ctxs := q.ctxs.map fun p =>
    if p.2.writes || !p.2.started then p
    else (p.1, ({ p.2 with blocks := p.2.blocks.map fun (b : BlockState) =>
      if b.source == BlockSource.buffer startNo k && !b.sent && b.failed.isNone then { b with failed := some stInternal } else b } : Ctx).settleRead) }

/-- A word of write data in the host data buffers is lost: a write not yet completed completes with Internal Error; a completed one is
written as a sector that fails its CRC and is reported by the next Flush that covers it. Reads of it end with Internal Error. -/
def State.loseWriteData (s : State) (i : Nat) : State :=
  let x : CtxIx := finMod 4096 (by decide) i
  let k := i / 4096
  match (s.ctx x).filter fun c => c.writes && c.started && c.finished.isNone && decide (k < c.blocks.length) with
  | some c => (s.modCtx x fun c => c.finish stInternal).failFed c.startNo k
  | none =>
    match s.q.buffered.find? fun b => b.ctx == x && b.nsid != 0 && decide (k < b.blocks.length) with
    | none => s
    | some b =>
      let spoil := fun (y : BufferedWrite) => { y with lost := true, blocks := modAt y.blocks k fun z => { z with spoiled := true, codeword := none } }
      let held := ((b.blocks[k]?).bind (·.codeword)).isSome
      (s.modQ fun q =>
        { q with
          staging := q.staging - (if held then 1 else 0)
          buffered := q.buffered.map fun y => if y.startNo = b.startNo then spoil y else y }).failFed b.startNo k

/-- What the requester of an uncorrectable word of DDR4 does, by its region (R427, R462, R576); what the word belongs to is the
implementation's (log 20). A fill of a descriptor cache and the use of a buffer word report theirs in ZDC_FILL_DONE and in the command;
a page of the indirection rebuilt from the summary blocks holds what it held. -/
def State.dramLost (s : State) (w : Nat) : State :=
  let i := Config.dramOwner w
  match (dramRegion w).val with
  | 0 => if i % 2 = 0 then s.putWord w (EccWord.fresh (Config.imageWord w)) true else s.resetCore (i / 2)
  | 3 => s.putWord w (EccWord.fresh (Memory.read s.mem.dram w).data) true
  | 4 =>
    let a : Eng := finMod 4 (by decide) i
    let j : JobIx := finMod 16 (by decide) (i / 4)
    match s.eng[a].recv.jobs[j] with
    | some x => if 0 < x.caps then s.requeueStep a j else s
    | none => s
  | 5 => s.loseStaged i
  | 6 => s.rereadStaged i
  | 7 => s.loseWriteData i
  | _ => s

/-- A word as a burst finds it: bits may have changed in the dies since it was written (R563). -/
def State.disturb (s : State) (w : Nat) (e : BitErrors) : State :=
  let v := Memory.read s.mem.dram w
  s.modMem fun m => { m with dram := Memory.write m.dram w { data := v.data ^^^ e.data, check := v.check ^^^ e.check } }

/-- One burst (R563, R565 to R568, R576): a read passes its eight words through the code, and the requester acts on one that is lost; the
scrubber only reads; a write merges its bytes word by word. -/
def State.serveBurst (s : State) (q : DramReq) (errs : List BitErrors) : State :=
  let s := errs.foldl (fun s e => s.disturb (q.addr / 8 + e.word.val) e) s
  match q.data with
  | some (off, bytes) => s.writeRange (q.addr + off) bytes (bytes.length + 1)
  | none =>
    (List.range 8).foldl (fun s i =>
      let w := q.addr / 8 + i
      let (v, s') := s.readWord w false
      if v.kind.bad && q.who != 9 && !inWindow w then s'.dramLost w else s') s

/-- The requests that have come since the last decision join those that wait (R561). -/
def State.askDram (s : State) (c : Fin 2) (asks : List DramAsk) : State :=
  s.modChan c fun x =>
    { x with pending := x.pending ++ (asks.filter fun q => wordChan (q.addr / 8) == c).map fun q =>
        { who := q.who.val, at_ := s.mtime, addr := q.addr / 64 * 64, data := q.data.map fun d => (d.1.val, d.2.take (64 - d.1.val)) } }

/-- DRAM_ARBITRATION (R194, R561, R563 to R573, R576): of the requests that have come by now the best gets the next burst; the other
requesters that wait lose, and are promoted at their level's threshold. -/
def execDramArbitration (x : DramTurn) (s : State) : Out :=
  .next (
    let c := x.chan
    let s := s.askDram c x.asks
    match s.mem.best c with
    | none => s
    | some q =>
      let y := s.mem.chan[c]
      let rest := y.pending.erase q
      let m := s.mem
      let lost := fun (r : Nat) => r != q.who && rest.any fun y => y.who == r
      let loss := fun (r : Fin 10) => if r.val = q.who then 0 else if lost r.val then satAdd 8 y.loss[r] 1 else y.loss[r]
      let s := s.modChan c fun x =>
        { x with
          pending := rest, owner := q.who, busy := wrapAdd 32 x.busy 1
          loss := Vector.ofFn loss
          promoted := Vector.ofFn fun (r : Fin 10) =>
            if r.val = q.who then none
            else
              let thr := m.starveThr (m.level r.val)
              if x.promoted[r].isNone && lost r.val && decide (0 < thr ∧ thr ≤ loss r) then some s.mtime else x.promoted[r] }
      s.serveBurst q x.errs)

/-- ECC_WRITEBACK (R565): the oldest corrected word that waits is written back with fresh check bits, as a requester-9 burst. -/
def execEccWriteback (c : Fin 2) (s : State) : Out :=
  .next (
    match s.mem.chan[c].writebacks with
    | [] => s
    | (w, v) :: _ => ((s.putWord w v false).notedBack (c.val, chanWord w)).burst c)

/-- DRAM_REFRESH (R560): the interval halves above 85 °C and returns below 82 °C (zone 7, in 1/16 °C). -/
def execDramRefresh (c : Fin 2) (s : State) : Out :=
  .next (
    let t := s.lpe.temps[7]
    s.modChan c fun x =>
      { x with refreshes := x.refreshes + 1, refresh2x := if 85 * 16 < t then true else if t < 82 * 16 then false else x.refresh2x })

/-- BUCKET_LEAK (R571). -/
def execBucketLeak (r : MemRegion) (s : State) : Out :=
  .next (
    let s := s.modBkt r fun b => { b with level := b.level - 1, ovf := b.ovf && decide (b.depth / 2 < b.level - 1) }
    if s.mem.bkt[r].ovf then s else s.modMem fun m => { m with irq := m.irq &&& ~~~((1 : BitVec 15) <<< r.val) })

/-! ### Scrubbing (R572, R576) -/

/-- The burst of a channel that holds a channel word address, as a module byte address. -/
def burstAddr (c : Fin 2) (w : Nat) : Nat := 8 * moduleWord c (w / 8 * 8)

/-- SCRUB_BURST (R572): the scrubber asks for the next burst of the channel, by rising address; the windows are skipped. SCRUB_POS is the
address the pass has reached; a pass ends as channel 1 reaches the top (log 23). -/
def execScrubBurst (c : Fin 2) (s : State) : Out :=
  .next (
    let p := s.mem.scrubPos
    let w := if dramWindow ≤ p ∧ p < dramWindow + 131072 then dramWindow + 131072 else p
    let s := s.modChan c fun x => { x with pending := x.pending ++ [{ who := 9, at_ := s.mtime, addr := burstAddr c w }] }
    if c = 0 then s
    else if w + 8 < chanWords then s.modMem fun m => { m with scrubPos := w + 8 }
    else s.modMem fun m => { m with scrubPos := 0, scrubPass := satAdd 32 m.scrubPass 1 })

/-- What the requester of an uncorrectable SRAM word does (R576); what the word belongs to is the implementation's (log 20). -/
def State.sramLost (s : State) (r : MemRegion) (w : Nat) : State :=
  let i := Config.sramOwner w
  match r.val with
  | 8 => s.rereadStaged i
  | 9 => s.failDecoder (finMod 40 (by decide) i)
  | 10 => s.modFn (finMod 16 (by decide) i) fun x => { x with cfs := true }
  | 11 => s.resetCore i
  | 12 => s.modLoop (finMod 128 (by decide) i) fun x => { x with bad := some (decide (i / 128 % 2 = 0)) }
  | 13 =>
    let l : Fin 48 := finMod 48 (by decide) (i / 8)
    s.modZdc (finMod 4 (by decide) i) fun z =>
      { z with lines := vmod z.lines l fun x => if i / 4 % 2 = 0 then { x with bad := true } else { x with shadowBad := true } }
  | 14 => s.loseQueued i
  | _ => s

/-- A word of SRAM that reads with an error (R565, R566, R573, R576): a correctable one is counted and written back at once. -/
def State.sramWord (s : State) (r : MemRegion) (x : ScrubFind) : State :=
  let log : EccLog := { memid := 2, region := r.val, synd := x.word.syndrome, kind := x.word.kind, waddr := x.waddr }
  match x.word.kind with
  | .none => s
  | .ce => ((s.countCe r log).hardCe (2, x.waddr) x.word.syndrome).notedBack (2, x.waddr)
  | _ => ((s.countUe r log true).hardUe (2, x.waddr)).sramLost r x.waddr

/-- SRAM_SCRUB_PASS (R572): the pass over a region finds words in error. -/
def execSramScrubPass (r : MemRegion) (found : List ScrubFind) (s : State) : Out :=
  .next (if 8 ≤ r.val then found.foldl (fun s x => s.sramWord r x) s else s)

/-! ### Repair (R573 to R575) -/

/-- A die has a repair left for a row (R574): one in the row's bank group, of which a ×16 die has two and the ×8 die four. -/
def State.repairLeft (s : State) (c : Fin 2) (d row : Nat) : Bool :=
  let g := fun (r : Nat) => (Config.bankGroup c.val d r).val % (if d = 4 then 4 else 2)
  !s.nor.repairs.any fun x => x.1 == c.val && x.2.1 == d && g x.2.2 == g row

/-- DRAM_ROW_REPAIR (R574): the row of the oldest mark is copied out through the code, repaired, and written back, words that read
uncorrectable as poisoned; a die without a repair left keeps the row, with REPAIR_FULL and one event. -/
def execDramRowRepair (c : Fin 2) (s : State) : Out :=
  .next (
    match s.mem.chan[c].marked with
    | [] => s
    | (d, row) :: rest =>
      let s := s.modChan c fun x => { x with marked := rest }
      let s := if s.repairLeft c d row then
          let n := s.mem.repairCnt
          let s := s.modMem fun m =>
            { m with
              repairCnt := inc 32 m.repairCnt
              history := m.history.filter fun h => !(h.1.1 == c.val && rowOf h.1.2 == row)
              ueHist := m.ueHist.filter fun h => !(h.1.1 == c.val && rowOf h.1.2 == row) }
          let s := s.saturated (reaches 32 n) 0x10 5 0 0x3003C (nw (n + 1))
          let s := s.modNor fun x => { x with repairs := x.repairs ++ [(c.val, d, row)] }
          let s := s.modChan c fun x => { x with pprUsed := x.pprUsed + 1 }
          (s.mem.dram.filter fun p => wordChan p.1 == c && rowOf (chanWord p.1) == row).foldl (fun s p =>
            s.putWord p.1 (if p.2.kind.bad then EccWord.poison p.2.data else EccWord.fresh p.2.value) false) s
        else if s.mem.repairFull then s
        else (s.modMem fun m => { m with repairFull := true }).condMem
      let s := s.modMem fun m => { m with repairBusy := m.chan.toList.any fun x => !x.marked.isEmpty }
      if s.mem.repairBusy then s
      else s.replyWaiting 0x0213 (fun _ => true) 0 fun s p =>
        [rMemStatus s.mem, nw (((fin? 2 (p.w 0).toNat).map fun (k : Fin 2) => s.mem.chan[k].pprUsed).getD 0), nw s.mem.repairCnt])

/-! ### Packets (0x0210 to 0x0215) -/

/-- mem.status. -/
def execMemStatus (p : Packet) (s : State) : Out := .next (runPacket ⟨0x0210, [5], .read⟩ p s fun s => .report s (stMem s))

/-- DRAM_STARVE after clamping and the ordering of R196. -/
def dramStarveWord (sent : Word) : Word := poolCfgWord 0 sent

/-- mem.config (R578). -/
def opMemConfig (p : Packet) (s : State) : PktRes :=
  let w0 := clampWord [fIn 31 24 1 168, fIn 23 16 1 255, fIn 15 12 2 15] 0 (p.w 0)
  let w1 := dramStarveWord (p.w 1)
  let w2 := clampWord [fAny 19 0] 0 (p.w 2)
  let w3 := clampWord [fAny 31 31, fIn 3 0 0 14] 0 (p.w 3)
  let w4 := clampWord [fIn 31 24 2 255, fIn 15 0 1 65535] 0 (p.w 4)
  let s := s.modMem fun m => { m with cfg := w0, starve := w1, prio := w2 }
  let s := s.modNor fun n => { n with mem := vset (vset (vset n.mem 0 w0) 1 w1) 2 w2 }
  let apply := w3.getLsbD 31
  let r : MemRegion := finMod 15 (by decide) (fld w3 3 0)
  let s := if apply then
      let s := s.modBkt r fun b => { b with depth := fld w4 31 24, leakMin := fld w4 15 0 }
      let s := s.modNor fun n => { n with bktCfg := vset n.bktCfg r w4 }
      if fld w4 31 24 < s.mem.bkt[r].level then s.fillBucket r s.mem.bkt[r].level else s
    else s
  let kept := if apply then w4 else p.w 4
  { state := s, result := [w0, w1, w2, w3, kept]
    clamp := clampBits [(0, p.w 0, w0), (1, p.w 1, w1), (2, p.w 2, w2), (3, p.w 3, w3), (4, p.w 4, kept)] }
/-- mem.config. -/
def execMemConfig (p : Packet) (s : State) : Out := .next (runPacket ⟨0x0211, [5], .config⟩ p s (opMemConfig p))

/-- mem.scrub (R572): bit 0 restarts the DDR4 pass; an SRAM pass asked for by bit 1 reports what it finds by SRAM_SCRUB_PASS. -/
def opMemScrub (p : Packet) (s : State) : PktRes :=
  let s := if (p.w 0).getLsbD 0 then s.modMem fun m => { m with scrubPos := 0 } else s
  { state := s, result := [nw s.mem.scrubPos, nw s.mem.scrubPass], clamp := clampBits [(0, p.w 0, nw (fld (p.w 0) 1 0))] }
/-- mem.scrub with bit 0. -/
def execMemScrubRestart (p : Packet) (s : State) : Out := .next (runPacket ⟨0x0212, [5], .action⟩ p s (opMemScrub p))
/-- mem.scrub with bit 1. -/
def execMemScrubSram (p : Packet) (s : State) : Out := .next (runPacket ⟨0x0212, [5], .action⟩ p s (opMemScrub p))

/-- mem.repair (R579): the reply waits for DRAM_ROW_REPAIR; a row of SRAM is recorded at once. -/
def opMemRepair (p : Packet) (s : State) : PktRes :=
  let id := (clampWord [fIn 31 0 0 2] 0 (p.w 0)).toNat
  let w := (p.w 1).toNat
  if p.w 2 ≠ 0x52455052 ∨ w ≥ (if id = 2 then 6291456 else chanWords) then .fail s 0x0105
  else if s.mem.repairBusy then .fail s 0x0302
  else match fin? 2 id with
    | some c => { state := s.markRow c w [0, 1, 2, 3, 4], wait := true }
    | none =>
      let s := s.markSram w
      { state := s, result := [rMemStatus s.mem, 0, nw s.mem.repairCnt], clamp := clampBits [(0, p.w 0, nw id)] }
/-- mem.repair. -/
def execMemRepair (p : Packet) (s : State) : Out := .next (runPacket ⟨0x0213, [5], .action⟩ p s (opMemRepair p))

/-- mem.diag (R577, R580): data and check bits of a word of a window, raw, nothing counted. -/
def opMemDiag (p : Packet) (s : State) : PktRes :=
  let w0 := clampWord [fIn 9 8 0 2, fAny 0 0] 0 (p.w 0)
  let id := fld w0 9 8
  let a := (p.w 1).toNat
  let given := (p.w 5).getLsbD 0
  let d : BitVec 64 := BitVec.ofNat 64 ((p.w 2).toNat + 2 ^ 32 * (p.w 3).toNat)
  let v : EccWord := if given then { data := d, check := BitVec.ofNat 8 (p.w 4).toNat } else EccWord.fresh d
  let out := fun (s : State) (x : EccWord) =>
    ({ state := s
       result := lohi x.data.toNat ++ [nw x.check.toNat, nw x.syndrome.toNat, nw x.kind.code]
       clamp := clampBits [(0, p.w 0, w0), (4, p.w 4, nw (fld (p.w 4) 7 0)), (5, p.w 5, nw (fld (p.w 5) 0 0))] } : PktRes)
  match fin? 2 id with
  | some c =>
    if dramWindow ≤ a ∧ a < dramWindow + 131072 then
      let w := moduleWord c a
      if w0.getLsbD 0 then out (s.putWord w v false) v else out s (Memory.read s.mem.dram w)
    else .fail s 0x0105
  | none =>
    if sramWindow ≤ a ∧ a < sramWindow + 512 then
      let i := a - sramWindow
      if w0.getLsbD 0 then
        out (s.modMem fun m => { m with local_ := if v = EccWord.fresh 0 then oerase m.local_ i else oset m.local_ i v }) v
      else out s ((alookup s.mem.local_ i).getD (EccWord.fresh 0))
    else .fail s 0x0105
/-- mem.diag, a read. -/
def execMemDiagRead (p : Packet) (s : State) : Out := .next (runPacket ⟨0x0214, [5], .action⟩ p s (opMemDiag p))
/-- mem.diag, a write. -/
def execMemDiagWrite (p : Packet) (s : State) : Out := .next (runPacket ⟨0x0214, [5], .action⟩ p s (opMemDiag p))

/-- mem.clear. -/
def opMemClear (p : Packet) (s : State) : PktRes :=
  let m := fld (p.w 0) 4 0
  let w1 := clampWord [fIn 31 0 0 14] 0 (p.w 1)
  let r : MemRegion := finMod 15 (by decide) w1.toNat
  let x := s.mem
  let vals := [x.bkt[r].ceCnt, x.bkt[r].ueCnt, x.poisonCnt, x.repairCnt, x.scrubPass]
  let s := s.modBkt r fun b => { b with ceCnt := clr m 0 b.ceCnt, ueCnt := clr m 1 b.ueCnt }
  let s := s.modMem fun y =>
    { y with poisonCnt := clr m 2 y.poisonCnt, repairCnt := clr m 3 y.repairCnt, scrubPass := clr m 4 y.scrubPass }
  { state := s, result := selected m (vals.map fun v => [nw v]), clamp := clampBits [(0, p.w 0, nw m), (1, p.w 1, w1)] }
/-- mem.clear. -/
def execMemClear (p : Packet) (s : State) : Out := .next (runPacket ⟨0x0215, [5], .action⟩ p s (opMemClear p))

end Sys2Proof.Machine
end

