-- ==== Sys2Proof/Machine/Host.lean ====
section
/-! DEFINITION. The host link (13_host_link_nvme.md) and what resets of a function do to its commands (R504, R506): link events,
virtual functions, controllers, doorbells, the partner violations of R467, and the packets 0x01E0 to 0x01E4. -/

namespace Sys2Proof.Machine
open Sys2Proof

/-! ### Commands discarded (R168, R215, R251, R504) -/

/-- The codewords of abandoned reads leave the lanes (R168): one that streams is dropped with its packet, one that waits ends at once,
one in DECODE at the end of the current layer. -/
def State.abandonSlots (s : State) (gone : CtxIx → Bool) : State :=
  let hit := fun (c : Slot) => (c.ctx.map gone).getD false && c.job.isNone
  let s : State := { s with slice := s.slice.map fun x => { x with wake := x.wake.filter fun w => !hit w.cw } }
  (fins 24).foldl (fun s (l : LaneIx) =>
    let s := s.modLane l fun x => { x with cut := x.cut.filter fun c => !hit c }
    let s := match s.lane[l].inBuf, s.lane[l].bind.head with
      | some c, some g => if hit c then s.dropHead g else s
      | _, _ => s
    (fins 4).foldl (fun s (k : SlotIx) =>
      let c := s.lane[l].slots[k]
      if !hit c then s
      else match c.state with
        | .free => s
        | .stream =>
          if c.ended then s.endCodeword l k .dropped
          else match s.lane[l].bind.head with
            | some g => s.dropHead g
            | none => s.endCodeword l k .dropped
        | .wait => s.endCodeword l k .dropped
        | .decode => s.stopSlot l k .dropped
        | .done => s.freeSlot l k {}) s) s

/-- Recovery jobs all of whose commands are abandoned end (R215); the others lose the abandoned ones. -/
def State.abandonJobs (s : State) (gone : CtxIx → Bool) : State :=
  (fins 4).foldl (fun s (a : Eng) =>
    let s := s.closeJobs a fun j => !j.cmds.isEmpty && j.cmds.all fun c => gone c.1
    s.modRec a fun r => { r with jobs := r.jobs.map fun j => j.map fun j => { j with cmds := j.cmds.filter fun c => !gone c.1 } }) s

/-- The heads and sectors the blocks of a write go to. -/
def State.writePlaces (s : State) (v : WriteView) : List (Head × SectorAt) :=
  (List.range v.blocks.length).filterMap fun k =>
    (s.viewSector v k).bind fun (_, d, p) =>
      let q := s.remapped d.engine d p
      (s.globalHead d.engine q.head.val).map fun g => (g, q)

/-- Sectors that no longer belong to a command: in runs in progress they are written to their end and forgotten, and they are no
longer suspect (R251). -/
def State.orphanSectors (s : State) (l : List (Head × SectorAt)) : State :=
  (fins 24).foldl (fun s (g : Head) =>
    let mine := fun (p : SectorAt) => l.any fun x => x.1 == g && x.2 == p
    s.modWr g fun w =>
      { w with
        run := w.run.map fun r => { r with sectors := r.sectors.map fun t => if mine t.1 then (t.1, none) else t }
        suspects := w.suspects.filter fun x => !mine x.at_ }) s

/-- The write pointer of a zone that lost writes goes back to MP as it stood, or to the end of the last write of the zone that
goes on (R504, log 19); a zone that had become FULL is CLOSED. -/
def State.drawBack (s : State) (z : ZoneNo) (mp : Nat) : State :=
  let ends := s.views.filterMap fun v => if v.zone = some z ∧ !v.blocks.all (fun b => b.durable || b.old.isSome) then some (v.zofs + v.blocks.length) else none
  let wp := ends.foldl max mp
  if wp < (s.zoneDesc z).wp then s.setZone z fun d => { d with wp := wp, zs := if d.zs = .full then .closed else d.zs } else s

/-- A block of a read whose source was a discarded write and had not arrived takes the source a start now would fix (R484). -/
def State.resource (s : State) (lost : List Nat) : State :=
  s.q.ctxs.foldl (fun s p =>
    let c := p.2
    let bad := fun (b : BlockState) => match b.source with
      | .buffer no _ => lost.contains no && !b.here
      | _ => false
    match s.host.namespaces.find? fun n => n.nsid == c.sqe.nsid.toNat with
    | none => s
    | some n =>
      if c.started && c.blocks.any bad then
        s.modCtx (finMod 4096 (by decide) p.1) fun c =>
          { c with blocks := c.blocks.zipIdx.map fun (b, i) => if bad b then s.readSource n (c.sqe.slba + i) else b }
      else s) s

/-- Commands discarded, started or not, with no completion (R504): media writes stop at the next sector boundary, reads are
abandoned, credits return once no sector of theirs is in transfer. -/
def State.discard (s : State) (sel : Ctx → Bool) : State :=
  let gone := s.q.ctxs.filter fun p => sel p.2
  let isGone := fun (x : CtxIx) => gone.any fun p => p.1 == x.val
  let views := gone.filterMap fun p => if p.2.writes && p.2.started then some p.2.view else none
  let lost := views.map (·.startNo)
  let mps := ((views.filterMap (·.zone)).eraseDups).map fun z => (z, s.mediaPointer z)
  let s := (s.abandonSlots isGone).abandonJobs isGone
  let places := views.flatMap s.writePlaces
  let s := s.orphanSectors places
  let s := (fins 4).foldl (fun s (a : Eng) => s.modSeq a fun q =>
    { q with
      fq := q.fq.filter fun f => !gone.any fun p => p.1 == f.ctx
      aborted := (q.aborted ++ (gone.filter fun p => p.2.writes && p.2.started).map (·.1)).eraseDups }) s
  let moving := fun (c : Ctx) => if c.writes && c.started then (s.writePlaces c.view).filter s.inTransfer else []
  let drain := gone.filterMap fun p => if (moving p.2).isEmpty then none else some (p.2.credits, moving p.2)
  let free := (gone.map fun p => if (moving p.2).isEmpty then p.2.credits else 0).sum
  let held := (gone.map fun p => if p.2.writes then stagedCodewords p.2.blocks else p.2.staged).sum
  let s := s.modQ fun q =>
    { q with
      ctxs := q.ctxs.filter fun p => !sel p.2
      creditsFree := q.creditsFree + free
      draining := q.draining ++ drain
      staging := q.staging - held
      chosen := q.chosen.map fun l => l.filter fun x => !gone.any fun p => p.1 == x.1 }
  let s := s.modMedia fun m =>
    { m with groups := m.groups.map fun l => l.map fun g =>
        if g.summary || g.closed then g else { g with blocks := g.blocks.filter fun b => !lost.contains b.2.2.1 } }
  let s := mps.foldl (fun s p => s.drawBack p.1 p.2) s
  s.resource lost

/-! ### Resets of a function -/

/-- A function's exchanges and packets are discarded (R504, R524): a packet that runs goes on, its reply is not sent. -/
def State.dropExchanges (s : State) (f : Fn) : State :=
  let mine := fun (x : Exchange) => x.src == .nvme f
  s.modHet fun h =>
    let runs := fun (xid : Nat) => h.waiting.any fun w => w.2.xid == xid
    let lone := (h.waiting.filter fun w => w.2.src == .nvme f && !h.exchanges.any fun x => x.xid == w.2.xid).map fun w =>
      ({ xid := w.2.xid, src := .nvme f, todo := [], running := true, dropped := true } : Exchange)
    { h with
      exchanges := (h.exchanges.filter fun x => !mine x || runs x.xid).map (fun x =>
        if mine x then { x with dropped := true, todo := [] } else x) ++ lone }

/-- Open zones of a namespace attached only to a function are closed (R504): the Zoned Namespace command set's transitions of a
controller reset. -/
def State.closeOpenZones (s : State) (f : Fn) : State :=
  let only := s.host.namespaces.filter fun n => n.zoned && n.attached == (1 : BitVec 16) <<< f.val
  (only.flatMap (·.zones)).foldl (fun s z =>
    let zs := (s.zoneDesc z).zs
    if zs = .impOpen ∨ zs = .expOpen then s.enterZState z .closed else s) s

/-- What a controller or function-level reset discards of a function beside its I/O commands: outstanding event requests, waiting
queue deletions, exchanges, a format, a commit, an Opal answer (R504). -/
def State.pendingAdmin (s : State) (f : Fn) : Nat :=
  let x := s.host.fns[f]
  x.aers.length + (x.sqs.filter fun q => q.deleting.isSome).length + (s.het.exchanges.filter fun e => e.src == .nvme f && !e.dropped).length +
    (s.sec.fmtCmds.filter fun c => c.1 = f).length + (s.sec.opalWait.filter fun c => c.1 = f).length +
    (match s.sec.commit with
      | some c => if c.fn = f ∧ !c.orphan then 1 else 0
      | none => 0)

/-- The registers of a function's controller at their reset values (R444, R654), its queues gone. -/
def FnState.cleared (x : FnState) : FnState :=
  { x with
    en := false, rdy := false, cfs := false, vwcOn := true, ps := (((alookup x.saved 0x02).getD 0).toNat % 4), shst := 0, abrupt := false
    wrr := false, features := x.saved, sqs := [], cqs := [], aers := [], events := [], masked := [], kato := 0, lastSq := 0
    weights := Vector.replicate 3 0 }

/-- A change the composite controller status of NVMe-MI reports (R465): bit 5 controller enable, 6 namespaces, 7 firmware activated. -/
def State.healthChange (s : State) (bit : Nat) : State :=
  s.modHost fun h => { h with healthFlags := h.healthFlags ||| BitVec.ofNat 16 (2 ^ bit) }

/-- A controller or function-level reset of a function (R504); the PF's flexible queue pairs are those stored (R471). -/
def State.resetFn (s : State) (f : Fn) : State :=
  let n := (s.q.ctxs.filter fun p => p.2.fn == f).length + s.pendingAdmin f
  let s := s.discard fun c => c.fn == f
  let s := s.modFn f fun x => { x with discCnt := satAdd 32 x.discCnt n }
  let s := s.endContracts fun k => k.fn == f
  let s := s.dropExchanges f
  let s := s.modSec fun x =>
    { x with
      opalWait := x.opalWait.filter fun c => c.1 ≠ f
      fmtCmds := x.fmtCmds.filter fun c => c.1 ≠ f
      commit := x.commit.map fun c => if c.fn = f then { c with orphan := true } else c }
  let s := s.closeOpenZones f
  let s := s.modQ fun q => { q with turn := if (q.turn.map fun t => t.1) = some f then none else q.turn }
  let s := s.modFn f FnState.cleared
  let s := if f = 0 then s.modFn 0 fun x => { x with pairs := 1024 + s.nor.pairs[0] } else s
  (s.healthChange 5).settleWrites

/-- A function-level reset (R439, R463, R504): also the function's controller memory buffer, counted in FLR_CNT. -/
def State.flr (s : State) (f : Fn) : State :=
  ((s.resetFn f).refillCmb f).modFn f fun x => { x with flrCnt := satAdd 32 x.flrCnt 1, cmbmsc := 0 }

/-- FUNCTION_LEVEL_RESET (R504). -/
def execFunctionLevelReset (f : Fn) (s : State) : Out := .next (if s.host.fns[f].present then s.flr f else s)

/-- Functions present, the PF among them. -/
def State.vfCount (s : State) : Nat := ((fins 16).filter fun (f : Fn) => f.val != 0 && s.host.fns[f].present).length

/-- VF_DISABLE (R463, R654): a function-level reset; the function goes. -/
def execVfDisable (f : Fn) (s : State) : Out :=
  .next (
    if f = 0 ∨ !s.host.fns[f].present then s
    else
      let s := (s.flr f).modFn f fun x => { x with present := false }
      s.modHost fun h => { h with numVf := s.vfCount })

/-- VF_ENABLE (R440): NumVFs is at most 7 without an ARI Capable Hierarchy. -/
def execVfEnable (n : Fin 16) (s : State) : Out :=
  .next (
    if !s.host.fns[0].present || s.rst.recovery || s.host.numVf != 0 then s
    else
      let k := if s.host.ari then n.val else min n.val 7
      (fins 16).foldl (fun s (f : Fn) => if 0 < f.val ∧ f.val ≤ k then s.modFn f fun x => { x with present := true } else s)
        (s.modHost fun h => { h with numVf := k }))

/-- CONTROLLER_RESET (R504, R654): CC.EN from 1 to 0. -/
def execControllerReset (f : Fn) (s : State) : Out := .next (if s.host.fns[f].en then s.resetFn f else s)

/-- The spindle restarts when a controller is enabled after a shutdown stopped it (R649). -/
def State.wakeSpindle (s : State) : State :=
  if !s.spn.shutStop || s.rst.recovery then s
  else if s.spn.stopAfter then s.modSpn fun p => { p with stopAfter := false, shutStop := false }
  else if s.spn.state = .stopped then s.spindleStart.modSpn fun p => { p with shutStop := false }
  else s

/-- CONTROLLER_ENABLE (R636): CC.EN set, with the arbitration of CC.AMS. The admin queues have 4 096 entries. -/
def execControllerEnable (f : Fn) (c : ControllerSetup) (s : State) : Out :=
  .next (
    let x := s.host.fns[f]
    if !x.present || !x.online || x.en then s
    else (s.modFn f fun x =>
      { x with
        en := true, rdy := s.rst.tblReady || s.rst.recovery, wrr := c.wrr, cmbmsc := c.cmbmsc
        sqs := [{ id := 0, cq := 0, size := 4096 }], cqs := [{ id := 0, size := 4096, irqEn := true }]
        kaLast := s.mtime }).wakeSpindle.healthChange 5)

/-- SHUTDOWN_NORMAL (R506): fetching stops; it completes once the started commands have and completed writes are durable. -/
def execShutdownNormal (f : Fn) (s : State) : Out :=
  .next (
    let x := s.host.fns[f]
    if !x.en || x.shst != 0 then s else (s.modFn f fun x => { x with shst := 1, abrupt := false }).settleShutdown f)

/-- SHUTDOWN_ABRUPT (R506): reads in progress are abandoned and no further command completes; completed writes are made durable. -/
def execShutdownAbrupt (f : Fn) (s : State) : Out :=
  .next (
    if !s.host.fns[f].en || s.host.fns[f].shst == 2 then s
    else ((s.discard fun c => c.fn == f).modFn f fun x => { x with shst := 1, abrupt := true }).settleShutdown f)

/-! ### The link (R437 to R440) -/

/-- LINK_RESET (R439, R654): every function as by its function-level reset, with its configuration space; nothing outside the host
island restarts. -/
def execLinkReset (k : LinkResetKind) (s : State) : Out :=
  .next (
    let down := s.host.linkDownCnt
    let s := (fins 16).foldl (fun s (f : Fn) =>
      if s.host.fns[f].present then (s.flr f).modFn f fun x => { x with present := f = 0 } else s) s
    let s := s.modHost fun h =>
      { h with numVf := 0, ari := false, dlUp := false, l1 := false, gen := 0, width := 0, perst := h.perst || k == .perst }
    if k = .linkDown then
      let s := s.modHost fun h => { h with linkDownCnt := inc 32 down }
      s.saturated (reaches 32 down) 0x0D 5 0 0x60018 (nw (inc 32 down))
    else s)

/-- PERST_DEASSERTION (R634). -/
def execPerstDeassertion (s : State) : Out := .next (s.modHost fun h => { h with perst := false })

/-- DATA_LINK_UP (R437, R634): generation 1 to 5 and 1, 2 or 4 lanes, once PERST# is deasserted and the host island runs. -/
def execDataLinkUp (gen : Fin 6) (lanes : Fin 5) (ari : Bool) (s : State) : Out :=
  .next (
    if s.host.perst || s.rst.phase == .bootRom || gen = 0 || lanes = 0 || lanes = 3 then s
    else s.modHost fun h => { h with dlUp := true, gen := gen.val, width := lanes.val, ari := ari, l1 := false })

/-- ASPM_L1_CHANGE (R438). -/
def execAspmL1Change (enter : Bool) (s : State) : Out :=
  .next (if s.host.dlUp then s.modHost fun h => { h with l1 := enter } else s)

/-- MCTP_SET_ENDPOINT_ID (R465): the bus owner assigns the endpoint identifier; 0x00 and 0xFF are not endpoints. -/
def execMctpSetEndpointId (eid : BitVec 8) (s : State) : Out :=
  .next (if eid = 0 ∨ eid = 0xFF then s else s.modHost fun h => { h with eid := eid })

/-- KEEP_ALIVE_TIMEOUT (R70, R443): the timer has run out on module time; the controller stops with CFS, as NVMe has it. -/
def execKeepAliveTimeout (f : Fn) (s : State) : Out :=
  .next (
    let x := s.host.fns[f]
    if x.en && decide (0 < x.kato ∧ x.kaLast + x.kato * 300000000 ≤ s.mtime) then
      (s.logError f 0 0xFFFF (stGen 0x19 false) 0 0).modFn f fun x => { x with cfs := true, rdy := false, kato := 0 }
    else s)

/-! ### Partner violations (R467, R468) -/

/-- A violation at a function, its counter already advanced: cell n of DB_CNT to CMD_CNT holds it. An EVT counter that fills raises
its event. -/
def State.fnViolated (s : State) (v : Violation) (f : Fn) (cell : Nat) (full : Bool) (words : List Word) : State :=
  let reg := 0x60104 + 0x20 * f.val + 4 * cell
  let val := ((fnCounters s.host.fns[f])[cell]?).getD 0
  (s.saturated full 0x0D 7 f.val reg val).violated v f.val 7 f.val reg val words

/-- The words of a header, lowest first. -/
def hdrWords (h : BitVec 128) : List Word := (List.range 4).map fun i => nw (h.toNat / 2 ^ (32 * i))

/-- DOORBELL_WRITE (R467): the tail of a submission queue or the head of a completion queue. -/
def execDoorbellWrite (f : Fn) (d : Doorbell) (s : State) : Out :=
  .next (
    let x := s.host.fns[f]
    let v := d.v.toNat
    let words := [nw (0x1000 + 8 * d.q + if d.cq then 4 else 0), d.v, 0, 0]
    let bad := fun (_ : Unit) =>
      let s := (s.modFn f fun x => { x with dbValCnt := inc 16 x.dbValCnt }).raiseAsync f ⟨0, 1, 1⟩
      s.fnViolated .dbVal f 0 (reaches 16 x.dbValCnt) words
    let none' := fun (_ : Unit) =>
      let s := (s.modFn f fun x => { x with dbRegCnt := inc 16 x.dbRegCnt }).raiseAsync f ⟨0, 0, 1⟩
      s.fnViolated .dbReg f 0 (reaches 16 x.dbRegCnt) words
    if !x.present then s
    else if d.cq then
      match x.cqs.find? fun q => q.id == d.q with
      | none => none' ()
      | some q =>
        if q.size ≤ v ∨ (q.tail + q.size - q.head) % q.size < (v + q.size - q.head) % q.size then bad ()
        else s.modFn f fun x => { x with cqs := x.cqs.map fun q => if q.id = d.q then { q with head := v } else q }
    else
      match x.sqs.find? fun q => q.id == d.q with
      | none => none' ()
      | some q =>
        if q.size ≤ v then bad ()
        else s.modFn f fun x => { x with sqs := x.sqs.map fun q => if q.id = d.q then { q with tail := v } else q })

/-- TLP_MALFORMED (R467): a malformed TLP, an ECRC error or a poisoned write; the TLP is dropped and reported through AER. -/
def execTlpMalformed (f : Fn) (hdr : BitVec 128) (s : State) : Out :=
  .next (
    let n := s.host.fns[f].malCnt
    let s := (s.modFn f fun x => { x with malCnt := inc 16 x.malCnt }).modOut fun o => { o with tlps := (f, 3, []) :: o.tlps }
    s.fnViolated .mal f 1 (reaches 16 n) (hdrWords hdr))

/-- UNSUPPORTED_REQUEST (R467): a request to no implemented address. -/
def execUnsupportedRequest (f : Fn) (hdr : BitVec 128) (s : State) : Out :=
  .next (
    let n := s.host.fns[f].urCnt
    let s := (s.modFn f fun x => { x with urCnt := inc 16 x.urCnt }).modOut fun o => { o with tlps := (f, 0, []) :: o.tlps }
    s.fnViolated .ur f 1 (reaches 16 n) (hdrWords hdr))


/-- COMPLETION_TIMEOUT (R467). -/
def execCompletionTimeout (x : CtxIx) (hdr : BitVec 128) (s : State) : Out :=
  .next (
    match s.ctx x with
    | none => s
    | some c =>
      let n := s.host.fns[c.fn].ctoCnt
      let s := (s.transferFailed x).modFn c.fn fun y => { y with ctoCnt := inc 16 y.ctoCnt }
      s.fnViolated .cto c.fn 2 (reaches 16 n) (hdrWords hdr))

/-- POISONED_COMPLETION (R467). -/
def execPoisonedCompletion (x : CtxIx) (hdr : BitVec 128) (s : State) : Out :=
  .next (
    match s.ctx x with
    | none => s
    | some c =>
      let n := s.host.fns[c.fn].poisCnt
      let s := (s.transferFailed x).modFn c.fn fun y => { y with poisCnt := inc 16 y.poisCnt }
      s.fnViolated .pois c.fn 2 (reaches 16 n) (hdrWords hdr))

/-- SMBUS_PEC_ERROR (R467): the packet is dropped. -/
def execSmbusPecError (hdr : BitVec 128) (s : State) : Out :=
  .next (
    let n := s.host.pecErrCnt
    let s := s.modHost fun h => { h with pecErrCnt := inc 16 n }
    let v := rSmbCnt s.host
    (s.saturated (reaches 16 n) 0x0D 5 0 0x6001C v).violated .pec 16 5 0 0x6001C v (hdrWords hdr))

/-- SMBUS_CLOCK_TIMEOUT (R467): the clock was held low for more than 25 ms; the bus is released. -/
def execSmbusClockTimeout (s : State) : Out :=
  .next (
    let n := s.host.smbTmoCnt
    let s := s.modHost fun h => { h with smbTmoCnt := inc 16 n }
    let v := rSmbCnt s.host
    (s.saturated (reaches 16 n) 0x0D 5 0 0x6001C v).violated .smb 16 5 0 0x6001C v [0, 0, 0, 0])

/-- A malformed MCTP packet or message at the sideband (R467, R529): dropped and counted. -/
def State.mctpBad (s : State) (words : List Word) : State :=
  let n := s.host.mctpMalCnt
  let s := s.modHost fun h => { h with mctpMalCnt := inc 16 n }
  let v := rMctpCnt s.host
  (s.saturated (reaches 16 n) 0x0D 5 0 0x60020 v).violated .mctp 16 5 0 0x60020 v words

/-- MCTP_MALFORMED (R467). -/
def execMctpMalformed (hdr : BitVec 128) (s : State) : Out := .next (s.mctpBad (hdrWords hdr))

/-- Register that holds a violation's counter: cell of the function's block, or the sideband's. -/
def Violation.reg (v : Violation) (f : Nat) : Nat :=
  let fn := fun (cell : Nat) => 0x60104 + 0x20 * f + 4 * cell
  match v with
  | .dbReg | .dbVal => fn 0
  | .mal | .ur => fn 1
  | .cto | .pois => fn 2
  | .roWr | .unasg => fn 3
  | .cmdErr | .cmbPois => fn 4
  | .pec | .smb => 0x6001C
  | .mctp => 0x60020

/-- VIOLATION_HOUR_SUMMARY (R468): at the end of a power-on hour one summary record per counter and function that saw more than one. -/
def execViolationHourSummary (s : State) : Out :=
  .next (
    let l := s.host.violations
    let s := s.modHost fun h => { h with violations := [] }
    l.foldl (fun s v =>
      if v.2.2 = 0 then s
      else s.record 0x0D05 (if v.2.1 < 16 then 7 else 5) (if v.2.1 < 16 then v.2.1 else 0) (v.1.reg v.2.1) (nw v.2.2) []) s)

/-! ### Packets (0x01E0 to 0x01E4) -/

/-- host.status. -/
def execHostStatus (p : Packet) (s : State) : Out := .next (runPacket ⟨0x01E0, [5], .read⟩ p s fun s => .report s (stHif s))

/-- host.config (R469): to the NOR configuration area as well; VF_CMB waits for power-on reset. -/
def opHostConfig (p : Packet) (s : State) : PktRes :=
  let w := clampWord [fAny 31 31, fIn 30 24 0x08 0x77, fAny 23 16] 0 (p.w 0)
  let s := s.modHost fun h => { h with vfCmbNext := w.getLsbD 31, miAddr := fld w 30 24, zfrl := fld w 23 16 }
  { state := s.modNor fun n => { n with hif := w }, result := [w], clamp := clampBits [(0, p.w 0, w)] }
/-- host.config. -/
def execHostConfig (p : Packet) (s : State) : Out := .next (runPacket ⟨0x01E1, [5], .config⟩ p s (opHostConfig p))

/-- host.permit. -/
def opHostPermit (p : Packet) (s : State) : PktRes :=
  let s := s.modHost fun h => { h with vfRead := BitVec.ofNat 15 (fld (p.w 0) 15 1) }
  { state := s, result := [rHperm s.host], clamp := clampBits [(0, p.w 0, rHperm s.host)] }
/-- host.permit. -/
def execHostPermit (p : Packet) (s : State) : Out := .next (runPacket ⟨0x01E2, [5], .config⟩ p s (opHostPermit p))

/-- host.function. -/
def execHostFunction (p : Packet) (s : State) : Out :=
  .next (runPacket ⟨0x01E3, [7], .read⟩ p s fun s => .report s (stFn s p.fnOf))

/-- host.clear: the link's counters at level 5, a function's at level 7. -/
def opHostClear (p : Packet) (s : State) : PktRes :=
  if p.lvl = 5 then
    let m := fld (p.w 0) 5 0
    let h := s.host
    let vals := [h.linkRecovCnt, h.linkCerrCnt, h.linkDownCnt, h.pecErrCnt, h.smbTmoCnt, h.mctpMalCnt]
    let s := s.modHost fun h =>
      { h with
        linkRecovCnt := clr m 0 h.linkRecovCnt, linkCerrCnt := clr m 1 h.linkCerrCnt, linkDownCnt := clr m 2 h.linkDownCnt
        pecErrCnt := clr m 3 h.pecErrCnt, smbTmoCnt := clr m 4 h.smbTmoCnt, mctpMalCnt := clr m 5 h.mctpMalCnt }
    { state := s, result := selected m (vals.map fun v => [nw v]), clamp := clampBits [(0, p.w 0, nw m)] }
  else
    let m := fld (p.w 0) 10 0
    let x := s.host.fns[p.fnOf]
    let vals := [x.dbRegCnt, x.dbValCnt, x.urCnt, x.malCnt, x.ctoCnt, x.poisCnt, x.roWrCnt, x.unasgCnt, x.cmdErrCnt, x.cmbPoisCnt, x.flrCnt]
    let s := s.modFn p.fnOf fun x =>
      { x with
        dbRegCnt := clr m 0 x.dbRegCnt, dbValCnt := clr m 1 x.dbValCnt, urCnt := clr m 2 x.urCnt, malCnt := clr m 3 x.malCnt
        ctoCnt := clr m 4 x.ctoCnt, poisCnt := clr m 5 x.poisCnt, roWrCnt := clr m 6 x.roWrCnt, unasgCnt := clr m 7 x.unasgCnt
        cmdErrCnt := clr m 8 x.cmdErrCnt, cmbPoisCnt := clr m 9 x.cmbPoisCnt, flrCnt := clr m 10 x.flrCnt }
    { state := s, result := selected m (vals.map fun v => [nw v]), clamp := clampBits [(0, p.w 0, nw m)] }
/-- host.clear. -/
def execHostClear (p : Packet) (s : State) : Out := .next (runPacket ⟨0x01E4, [5, 7], .action⟩ p s (opHostClear p))

end Sys2Proof.Machine
end

