-- ==== Sys2Proof/Machine/Bar2.lean ====
section
/-! DEFINITION. Writes and invalid accesses of the module register space (00_scope.md R11 to R16, 01_architecture.md R25). -/

namespace Sys2Proof.Machine
open Sys2Proof

/-- Every SNAP latch of the block of a snapshot register takes its live value (R14, R16). -/
def State.snapshot (s : State) (addr : Nat) : State :=
  { s with snaps := (snapSet s addr).foldl (fun l r => oset l r.addr r.val) s.snaps }

/-- SNAPSHOT_WRITE (R14, R16, R183): a write to a block's snapshot register; it reads as zero (WO). -/
def execSnapshotWrite (addr : BitVec 24) (s : State) : Out :=
  .next (
    match findReg s addr.toNat with
    | some r => if r.kind = .wo then s.snapshot addr.toNat else s
    | none => s)

/-- An access counted in UNASG_CNT (R14, R467). -/
def State.unassigned (s : State) (f : Fn) (addr : Nat) (words : Nat) (write : Bool) : State :=
  let s := s.modFn f fun x => { x with unasgCnt := satAdd 16 x.unasgCnt 1 }
  s.fnViolated .unasg f 3 false [nw addr, nw words, boolw write, 0]

/-- A word that BAR2 completes a read with. -/
def State.readWords (s : State) (f : Fn) (ws : List Word) : State := s.modOut fun o => { o with tlps := (f, 2, ws) :: o.tlps }

/-- INVALID_REGISTER_ACCESS (R12, R14, R16, R25): an unassigned address, or an access that is not exactly one aligned 32-bit word.
Each word read is zero, a write changes nothing. A read that is valid after all returns the register (log 62). -/
def execInvalidRegisterAccess (f : Fn) (acc : Bar2Access) (s : State) : Out :=
  .next (
    let a := acc.addr.toNat
    let valid := a % 4 == 0 && acc.words == 1 && acc.full && (findReg s a).isSome
    if !s.host.fns[f].present then s
    else if valid then
      (if acc.write then s else match findReg s a with
        | some r => s.readWords f [s.regRead r]
        | none => s)
    else
      let s := s.unassigned f a acc.words acc.write
      if acc.write then s else s.readWords f (List.replicate acc.words 0))

/-! ### Writes of an actuator core -/

/-- A write of the core to its engine's timeline and comparators (R66, R79). -/
def State.coreWriteAng (s : State) (a : Eng) (off : Nat) (v : Word) : State :=
  if off = 0x24 then
    let w := clampWord [fIn 31 16 0x0100 0x2000, fIn 15 0 0x0004 0x0400] (rAngCfg s.eng[a].reel) v
    s.modReel a fun r => { r with markWin := BitVec.ofNat 16 (fld w 31 16), lateTol := BitVec.ofNat 16 (fld w 15 0) }
  else if 0x100 ≤ off ∧ off < 0x900 then
    let c : CmpIx := finMod 64 (by decide) ((off - 0x100) / 0x20)
    match (off - 0x100) % 0x20 with
    | 0x0 => s.modCmp a c fun x => x.writeCtl c s.mtime v
    | 0x4 => s.modCmp a c fun x => { x with repeat_ := BitVec.ofNat 16 (fld v 15 0) }
    | 0x8 => s.modCmp a c fun x => { x with newLo := v, loWritten := true }
    | 0xC => s.modCmp a c fun x => { x with newHi := v, hiWritten := true }
    | _ => s
  else s

/-- A write of the core to a head unit's registers, by offset in the head unit; a band's write registers change as R257 and R259 say,
head settings as R296. Where two tables give one address, each takes the write. -/
def State.coreWriteHead (s : State) (g : Head) (off : Nat) (v : Word) : State :=
  let u := s.head[g]
  let i := off % 0x40 / 4
  if (0x400 ≤ off ∧ off < 0x480 ∧ i < 8) ∨ (0x500 ≤ off ∧ off < 0x588) then s.writeChannelReg g off v
  else if 0x600 ≤ off ∧ off < 0x700 then
    let s := s.writeChannelReg g off v
    let j := (off - 0x600) / 4
    if j < 7 then
      let old := (u.wr.pendingBand.getD u.wr.band).words
      let b := writeOfWords (old.set j (clampWord (writeFields.getD j []) (old.getD j 0) v))
      s.modWr g fun w => if w.run.isSome then { w with pendingBand := some b } else { w with band := b }
    else if j = 7 ∨ j = 8 then
      s.modWr g fun w =>
        let keep := if w.run.isSome then some (w.pendingLead.getD (w.lead, w.asm)) else none
        if j = 7 then { w with lead := clampWord [fIn 31 16 20 500, fIn 15 0 10 1000] w.lead v, pendingLead := keep }
        else { w with asm := clampWord [fIn 31 24 2 50, fIn 23 20 1 8] w.asm v, pendingLead := keep }
    else s
  else if 0x80C ≤ off ∧ off < 0x81C then
    s.modHs g fun h =>
      let (x, r, k, m) := h.pendingCfg.getD (h.xofs, h.rdrXofs, h.pesGain, h.maCfg)
      { h with pendingCfg := some (match off with
        | 0x80C => (v, r, k, m)
        | 0x810 => (x, v, k, m)
        | 0x814 => (x, r, v, m)
        | _ => (x, r, k, clampWord [fIn 19 8 512 1536] m v)) }
  else if off = 0x820 ∨ off = 0x824 then
    let n : Fin 2 := if off = 0x820 then 0 else 1
    s.modHs g fun h => { h with maNotch := vset h.maNotch n (clampWord notchFields h.maNotch[n] v), notchDue := true }
  else s

/-- A write of the core to the servo, sequencer, recovery, link and cache registers of its engine. -/
def State.coreWriteEng (s : State) (a : Eng) (off : Nat) (v : Word) : State :=
  match off with
  | 0x1000C =>
    let j := seqJobWord (rSeqJob s.eng[a].seq) v
    s.modSeq a fun q => { q with jobE := fld j 31 16, jobS := fld j 15 0 }
  | 0x10010 =>
    let c := clampWord [fIn 31 24 1 255, fIn 23 19 8 24, fIn 11 0 150 3000] (rSeqCfg s.eng[a].seq) v
    s.modSeq a fun q => { q with waitMax := fld c 31 24, rdTail := fld c 23 19, wenLead := fld c 11 0 }
  | 0x20008 =>
    let c := clampWord [fIn 31 26 8 44, fAny 0 0] (rZdcCfg s.eng[a].zdc) v
    s.modZdc a fun z => { z with pinMax := fld c 31 26, depKeep := c.getLsbD 0 }
  | 0x30008 => s.modSrv a fun x => { x with cfg := clampWord [fIn 31 28 2 6, fIn 23 16 16 56, fIn 15 8 8 64, fIn 7 0 1 15] x.cfg v }
  | 0x3000C => s.modSrv a fun x => { x with rdy := srvRdyWord x.rdy v }
  | 0x30010 => s.modSrv a fun x => { x with ho := clampWord [fIn 31 24 16 255, fIn 23 16 4 255, fIn 15 0 4 1024] x.ho v }
  | 0x30050 => s.modSrv a fun x => { x with qdRv := v }
  | 0x50004 =>
    s.modRec a fun x => { x with cfg := clampWord [fIn 31 24 8 255, fIn 23 20 1 4, fIn 19 16 2 8, fIn 15 10 8 32, fIn 9 5 1 16] x.cfg v }
  | 0x50008 => s.modRec a fun x => { x with fh := clampWord [fIn 31 24 1 40, fIn 23 22 1 3, fIn 15 8 4 32] x.fh v }
  | _ =>
    if 0x20020 ≤ off ∧ off < 0x20060 then
      let n : Fin 8 := finMod 8 (by decide) ((off - 0x20020) / 8)
      s.modZdc a fun z =>
        if off % 8 = 0 then { z with rbase := vset z.rbase n (rbaseWord v) } else { z with rlim := vset z.rlim n (clampWord [fAny 16 0] 0 v) }
    else if 0x30040 ≤ off ∧ off < 0x30050 then
      let k : Eng := finMod 4 (by decide) ((off - 0x30040) / 4)
      if k = a then s else s.modSrv a fun x => { x with qdK := vset x.qdK k v }
    else if 0x30060 ≤ off ∧ off < 0x30070 then
      let n : Fin 4 := finMod 4 (by decide) ((off - 0x30060) / 4)
      s.modSrv a fun x => { x with notch := vset x.notch n (clampWord notchFields x.notch[n] v), notchDue := true }
    else if off = 0x40004 ∨ off = 0x40104 then
      let l : LinkIx := if off = 0x40004 then 0 else 1
      let c := clampWord [fIn 23 16 24 100, fIn 7 0 8 64] (rAlkCfg s.eng[a].links[l]) v
      let k := s.eng[a].links[l]
      let w : Byte := BitVec.ofNat 8 (fld c 23 16)
      let s := s.modLink a l fun k => { k with afeWdt := w, ackTmo := BitVec.ofNat 8 (fld c 7 0) }
      if k.state = .up ∧ k.afeWdt ≠ w then s.queueConfig a l ⟨true, 7, 0x30, w.setWidth 16⟩ else s
    else if off = 0x4000C ∨ off = 0x4010C then
      let l : LinkIx := if off = 0x4000C then 0 else 1
      let k := s.eng[a].links[l]
      let w : BitVec 12 := v.setWidth 12
      let s := s.modLink a l fun k => { k with safeHtr := w }
      if k.state = .up ∧ k.safeHtr ≠ w then s.queueConfig a l ⟨true, 7, 0x31, w.setWidth 16⟩ else s
    else s

/-- A write of an actuator core to a register of its own engine's block or head units (R13, R78); elsewhere it has no effect. -/
def State.coreWrite (s : State) (a : Eng) (addr : Nat) (v : Word) : State :=
  let off := addr - engBase a.val
  if !s.enginePresent a || addr < engBase a.val || 0x100000 ≤ off || addr % 4 ≠ 0 then s
  else if off < 0x10000 then s.coreWriteAng a off v
  else if off < 0x80000 then s.coreWriteEng a off v
  else match s.globalHead a ((off - 0x80000) / 0x8000) with
    | some g => s.coreWriteHead g ((off - 0x80000) % 0x8000) v
    | none => s

/-- REGISTER_WRITE (R11, R13, R14): a write by a function through BAR2, where every RW field is locked in production: it changes
nothing but a W1C bit, and it is counted in RO_WR_CNT; or by an actuator core. -/
def execRegisterWrite (w : Writer) (addr : BitVec 24) (v : Word) (s : State) : Out :=
  .next (
    match w with
    | .core a => s.coreWrite a addr.toNat v
    | .host f =>
      if !s.host.fns[f].present then s
      else match findReg s addr.toNat with
        | none => s.unassigned f addr.toNat 1 true
        | some r =>
          if r.kind = .wo then s.snapshot addr.toNat
          else
            let s := if r.kind = .w1c ∧ v.getLsbD 30 then
                (match fin? 4 (addr.toNat / 0x100000 - 1), fin? 64 (addr.toNat % 0x100000 / 0x20 - 8) with
                  | some a, some c => s.modCmp a c fun x => { x with late := false }
                  | _, _ => s)
              else s
            let s := s.modFn f fun x => { x with roWrCnt := satAdd 16 x.roWrCnt 1 }
            s.fnViolated .roWr f 3 false [nw addr.toNat, v, 0, 0])

end Sys2Proof.Machine
end

