-- ==== Sys2Proof/Machine/Format.lean ====
section
/-! DEFINITION. The format's layout of the medium (spec/12_zones_media_map.md, R402, R403, R408, R435): zones of a region, spare
bands, zone numbers, and the application of a pending map.band or map.region change by a Format (R608). -/

namespace Sys2Proof.Machine
open Sys2Proof

/-- Every configured local head of an engine. -/
def State.headMask (s : State) (a : Eng) : BitVec 12 := BitVec.ofNat 12 (s.maskOf a fun _ => true)

/-- The zones of a run of tracks up to an end, each followed by guard tracks: first track and rows (R401, R408). At most `fuel`
zones. -/
def State.fillZones (s : State) (a : Eng) (guard_ end_ : Nat) : Nat → Nat → List (Nat × Nat)
  | 0, _ => []
  | fuel + 1, t =>
    let rows := s.rowsFor a t (s.headMask a) (min 1023 (end_ - guard_ - t))
    if rows = 0 then [] else (t, rows) :: s.fillZones a guard_ end_ fuel (t + rows + guard_)

/-- The zones a region has with a spare band of a size. -/
def State.regionZones (s : State) (a : Eng) (r : RegionRec) (spb : Nat) : List (Nat × Nat) :=
  s.fillZones a r.guard_ (r.lastTrk + 1 - r.guard_ - spb) 131072 r.firstTrk

/-- Good slots of a run of tracks of a local head. -/
def State.runGood (s : State) (a : Eng) (h : LHead) (first n : Nat) : Nat :=
  ((List.range n).map fun i => (s.goodSlots a h (first + i)).length).sum

/-- Spare sectors of a local head's band in a region (R401, R402). -/
def State.spareOf (s : State) (a : Eng) (h : LHead) (r : RegionRec) : Nat :=
  s.runGood a h (r.lastTrk + 1 - r.guard_ - r.spb) r.spb

/-- A spare band of a size reaches 0.5 % of the capacity of the region's zones (R402). -/
def State.spareEnough (s : State) (a : Eng) (r : RegionRec) (spb : Nat) : Bool :=
  let cap := ((s.regionZones a r spb).map fun z => s.capacity a z.1 z.2 (s.headMask a)).sum
  let spare := ((maskHeads (s.headMask a)).map fun h => s.spareOf a h { r with spb := spb }).sum
  decide (cap ≤ 200 * spare)

/-- SPB of a region (R402): the smallest track count that suffices, up to the region's own tracks. -/
def State.spbOf (s : State) (a : Eng) (r : RegionRec) : Nat :=
  ((List.range (r.lastTrk + 1 - r.firstTrk)).find? (s.spareEnough a r)).getD (r.lastTrk + 1 - r.firstTrk - r.guard_)

/-- A zone as the format makes it (R408): EMPTY, over the usable heads, W0 0. -/
def State.newZone (s : State) (a : Eng) (k : Fin 8) (z : Nat × Nat) (zgen : Word) : ZoneDesc :=
  s.recompute { zs := .empty, engine := a, region := k, zgen := zgen, rows := z.2, firstTrk := z.1, w0 := 0 }

/-- The tracks a band's stored entry governs or comes to govern (R403): from its first track, old or new, up to the first track of a
band of a higher number. -/
def State.bandSpan (s : State) (g : Head) (b : Fin 64) (n : BandGeom) : Nat × Nat :=
  let lo := min (s.bandEntry g b).geom.firstTrk n.firstTrk
  (lo, s.nor.bands.foldl (fun m p => if p.1.1 = g ∧ b < p.1.2 then min m p.2.geom.firstTrk else m) (2 ^ 22))

/-- A change waiting for a format (R435). -/
inductive MapChange where
  | band (g : Head) (b : Fin 64) (n : BandGeom)
  | region (a : Eng) (k : Fin 8) (r : RegionRec)
  deriving DecidableEq, Repr

/-- The regions whose layout a change redoes. -/
def State.changeTouches (s : State) (c : MapChange) (a : Eng) (k : Fin 8) : Bool :=
  match c with
  | .region b j _ => a == b && k == j
  | .band g b n =>
    let r := s.media.regions[a][k]
    let span := s.bandSpan g b n
    s.engineOf g == a && decide (r.firstTrk < span.2 ∧ span.1 ≤ r.lastTrk)

/-- A zone's tracks are among those a change changes. -/
def State.changeCovers (s : State) (c : MapChange) (d : ZoneDesc) : Bool :=
  match c with
  | .region a k _ => d.engine == a && d.region == k
  | .band g b n =>
    let span := s.bandSpan g b n
    s.engineOf g == d.engine && decide (d.firstTrk < span.2 ∧ span.1 < d.firstTrk + d.rows)

/-- The configuration with a change stored in force, its layout not yet redone. -/
def State.storeChange (s : State) (c : MapChange) : State :=
  match c with
  | .region a k r => s.modMedia fun m => { m with regions := vmod m.regions a fun v => vset v k r }
  | .band g b n =>
    let s := s.modNor fun x => { x with bands := aset x.bands (g, b) { (s.bandEntry g b) with geom := n } }
    if s.head[g].map.band = b.val then s.modMap g fun m => { m with reloadDue := true } else s

/-- One region's records and zones after a change: redone where it is touched, else as they stand. -/
def State.regionLayout (s' s : State) (c : MapChange) (a : Eng) (k : Fin 8) : RegionRec × List ZoneDesc :=
  let r := s'.media.regions[a][k]
  if s.changeTouches c a k then
    let r := { r with spb := s'.spbOf a r }
    (r, (s'.regionZones a r r.spb).map fun z => s'.newZone a k z 0)
  else (r, ((s.zonesOf a).filter fun p => p.2.region == k).map (·.2))

/-- The whole layout after a change, zones numbered engine by engine, region by region, by rising track (R402). -/
def State.layoutAfter (s' s : State) (c : MapChange) : Vector (Vector RegionRec 8) 4 × List ZoneDesc :=
  let l := (fins 4).map fun (a : Eng) =>
    if s.enginePresent a then (fins 8).map fun (k : Fin 8) => s'.regionLayout s c a k
    else (fins 8).map fun (k : Fin 8) => (s'.media.regions[a][k], [])
  let flat := l.flatten
  let base := fun (i : Nat) => ((flat.take i).map fun p => p.2.length).sum
  (Vector.ofFn fun (a : Eng) => Vector.ofFn fun (k : Fin 8) =>
      { (((flat[a.val * 8 + k.val]?).map (·.1)).getD {}) with zbase := base (a.val * 8 + k.val) },
    flat.flatMap (·.2))

/-- A zone no namespace, log or image holds, and EMPTY. -/
def State.zoneFree (s : State) (z : ZoneNo) : Bool :=
  let d := s.zoneDesc z
  d.zs == .empty && !d.conv && !(s.host.namespaces.any fun n => n.zoned && n.zones.contains z) && !s.nor.imageZones.contains z

/-- Two descriptors are of the same zone of the format. -/
def ZoneDesc.sameLayout (x y : ZoneDesc) : Bool :=
  x.engine == y.engine && x.region == y.region && x.firstTrk == y.firstTrk && x.rows == y.rows

/-- Zone numbers a change alters: those on its tracks, and those whose zone becomes another one. -/
def State.alteredZones (s : State) (c : MapChange) (zs : List ZoneDesc) : List ZoneNo :=
  ((s.media.zones.map (·.1)).filter fun z =>
    let d := s.zoneDesc z
    d.zs != .none && (s.changeCovers c d || !((zs[z]?).map d.sameLayout).getD false))

/-- Spare band sizes of an engine from its regions (R219, R402). -/
def State.measureSpares (s : State) (a : Eng) : State :=
  let size : Vector (Vector Nat 8) 12 := Vector.ofFn fun (h : LHead) => Vector.ofFn fun (k : Fin 8) =>
    if (s.globalHead a h.val).isSome then s.spareOf a h s.media.regions[a][k] else 0
  s.modRec a fun r =>
    { r with spareSize := size, spareTotal := (size.toList.map fun v => v.toList.sum).sum }

/-- The lines and victim entries of a zone leave an engine's cache. -/
def Zdc.dropZone (c : Zdc) (gone : ZoneNo → Bool) : Zdc :=
  { c with
    lines := c.lines.map fun l => if l.state != .invalid && gone l.zone then {} else l
    victims := c.victims.map fun v => if v.state != .free && gone v.zone then {} else v
    missWait := c.missWait.filter fun w => !gone w.1, pinWait := c.pinWait.filter fun z => !gone z
    invVictims := c.invVictims.filter fun z => !gone z }

/-- A pending change applied (R435, R608): the layout is redone, the zones it alters are made new with the next write generation of
their number, the spare bands it touches are empty. -/
def State.applyChange (s : State) (c : MapChange) : State :=
  let s' := s.storeChange c
  let (regions, zs) := s'.layoutAfter s c
  let altered := s.alteredZones c zs
  let made := zs.zipIdx.map fun (d, i) =>
    let old := s.zoneDesc i
    if altered.contains i || old.zs == .none then
      (i, { d with zs := .empty, conv := false, wp := 0, zgen := old.zgen + 1, ver := old.ver + 1 })
    else (i, old)
  let gone := fun (z : ZoneNo) => altered.contains z || ((alookup made z).map fun d => !d.sameLayout (s.zoneDesc z)).getD true
  let s' := s'.modMedia fun m => { m with regions := regions, zones := made }
  let s' := (fins 4).foldl (fun s (a : Eng) => s.modZdc a fun z => z.dropZone gone) s'
  let s' := (fins 4).foldl (fun s (a : Eng) =>
    (s.modRec a fun r =>
      { r with spareNext := Vector.ofFn fun (h : LHead) => Vector.ofFn fun (k : Fin 8) =>
          if s.changeTouches c a k then 0 else r.spareNext[h][k] }).measureSpares a) s'
  s'.modNor fun n =>
    { n with
      zoneDescs := made
      zones := made.map fun p => (p.1, p.2.record (if gone p.1 then 0 else (s.zoneRecord p.1).mpCk))
      engs := Vector.ofFn fun (a : Eng) => { n.engs[a] with regions := regions[a] } }

/-- A change may be applied by a format of some namespaces (R608): every zone it alters is in one of them, or free and EMPTY, and no
write of before a reset still goes to it (R33). -/
def State.mayChange (s : State) (c : MapChange) (nsids : List Nat) : Bool :=
  let zs := ((s.storeChange c).layoutAfter s c).2
  (s.alteredZones c zs).all fun z =>
    !s.oldPending (· == z) && (s.zoneFree z || s.host.namespaces.any fun n => nsids.contains n.nsid && n.zoned && n.zones.contains z)

/-- The changes that wait, regions first. -/
def State.pendingChanges (s : State) : List MapChange :=
  ((fins 4).flatMap fun (a : Eng) => s.nor.engs[a].regionsPending.map fun p => .region a p.1 p.2) ++
    s.nor.bandsPending.map fun p => .band p.1.1 p.1.2 p.2

/-- A change is no longer pending. -/
def State.settleChange (s : State) (c : MapChange) : State :=
  s.modNor fun n =>
    match c with
    | .region a k _ => { n with engs := vmod n.engs a fun e => { e with regionsPending := aerase e.regionsPending k } }
    | .band g b _ => { n with bandsPending := aerase n.bandsPending (g, b) }

/-- A format of some namespaces applies the pending changes it may (R608); the others stay pending. -/
def State.applyChanges (s : State) (nsids : List Nat) : State :=
  s.pendingChanges.foldl (fun s c => if s.mayChange c nsids then (s.settleChange c).applyChange c else s) s

end Sys2Proof.Machine
end

