-- ==== Sys2Proof/Machine/Recorder.lean ====
section
/-! DEFINITION. The module's keys (spec/18_security_firmware.md, R584) and the event recorder (spec/19_event_recorder.md): blocks,
records as bytes, seals, freeze and thaw, wear, and the five recorder packets. -/

namespace Sys2Proof.Machine
open Sys2Proof

/-! ### Keys (R581, R584, R601) -/

/-- The next output of the DRBG (R601). -/
def State.drbgNext (s : State) : BitVec 512 × State := (Config.drbg s.sec.drbg, s.modSec fun x => { x with drbg := x.drbg + 1 })

/-- CDI_L1: from UDS and the digest of the first-stage loader that ran. -/
def State.cdi1 (s : State) : Nat := (Config.hkdf s.fuse.uds.toNat (Config.loaderDigest s.sec.loader).toNat).toNat
/-- Header of the image whose keys are in force: the running one, or the replaced one until it is retired (R599, R621). -/
def State.keyHeader (s : State) : Nat := ((s.sec.retiring.map (·.2)).getD s.sec.running.header)
/-- CDI_L2: from CDI_L1 and the digest of header bytes 0–511 of that image. -/
def State.cdi2 (s : State) : Nat := (Config.hkdf s.cdi1 (Config.sha384 [s.keyHeader]).toNat).toNat

/-- Which identity signs: DeviceID, layer-1 alias, module alias, actuator engine a. -/
inductive Identity where
  | device | layer1 | module | engine (a : Eng)
  deriving DecidableEq, Repr

/-- The seed of an identity's key pair half: "ED" or "ML" followed by the pair's label, as one number (R584). -/
def State.keySeed (s : State) (i : Identity) (ml : Bool) : Nat :=
  let pre := if ml then 0x4D4C else 0x4544
  let k := fun (ikm bytes label : Nat) => (Config.hkdf ikm (pre * 2 ^ (8 * bytes) + label)).toNat
  match i with
  | .device => k s.fuse.uds.toNat 5 0x4445564944
  | .layer1 => k s.cdi1 2 0x4C31
  | .module => k s.cdi2 3 0x4D4F44
  | .engine a => k s.cdi2 4 (0x454E4700 + a.val)

/-- A signature pair over a message (R581, R585): the ML-DSA-65 half is hedged. -/
def State.signPair (s : State) (i : Identity) (msg : Nat) : Nat × Nat × State :=
  let (rnd, s') := s.drbgNext
  (Config.edSign (s.keySeed i false) msg, Config.mlSign (s.keySeed i true) msg rnd.toNat, s')

/-! ### Records and blocks as bytes (R615, R616, R619, R620) -/

/-- Bytes padded with zeros, or cut, to a length. -/
def padBytes (n : Nat) (l : List Nat) : List Nat := (l ++ List.replicate n 0).take n

/-- A record as programmed (R616, R618, R619). -/
def Event.bytes (e : Event) : List Nat :=
  let head := leBytes 2 e.len ++ leBytes 2 e.type.toNat ++ [e.level % 256, e.index % 256, if e.trace then 1 else 0, 0xA5] ++
    leBytes 8 e.poh ++ leBytes 4 e.pcyc ++ leBytes 4 e.rseq
  let common := if e.type.toNat < 0x100 then [] else
    leBytes 4 e.reg ++ leBytes 4 e.value.toNat ++ leBytes 2 e.stamp.frac ++ leBytes 2 e.stamp.wedge ++ leBytes 4 e.stamp.rev ++ leBytes 8 e.mtime
  if e.trace then padBytes (e.len - 4) (head ++ common ++ wordBytes e.words.dropLast) ++ wordBytes [e.words.getLastD 0]
  else padBytes e.len (head ++ common ++ wordBytes e.words)

/-- A record block's header and records, up to USED (R615). -/
def blockBytes (bseq stream gen pcyc poh : Nat) (events : List Event) : List Nat :=
  leBytes 4 0x4B4C4245 ++ leBytes 4 bseq ++ [stream % 256, gen % 256, 0, 0] ++ leBytes 4 pcyc ++ leBytes 8 poh ++
    [0, 0, 0, 0, 0, 0, 0, 0xA5] ++ events.flatMap Event.bytes

/-- Bytes of a sealed block's record block. -/
def SealedBlock.bytes (b : SealedBlock) : List Nat := blockBytes b.bseq b.stream.val b.headGen b.pcyc b.headPoh b.events
/-- Bytes of a stream's open block. -/
def OpenBlock.bytes (b : OpenBlock) (t : StreamIx) : List Nat := blockBytes b.bseq t.val b.aliasGen b.pcyc b.poh b.events

/-- Seal bytes 0–127 (R620). -/
def SealedBlock.sealBody (b : SealedBlock) : List Nat :=
  leBytes 4 0x41455345 ++ leBytes 4 b.bseq ++ [b.stream.val, b.aliasGen % 256, b.flags, 0] ++ leBytes 4 b.used ++ leBytes 8 b.poh ++
    leBytes 4 b.rseqFirst ++ leBytes 4 b.rseqLast ++ leBytes 48 b.digest.toNat ++ leBytes 48 b.prev.toNat
/-- A seal block (R620). -/
def SealedBlock.sealBytes (b : SealedBlock) : List Nat :=
  padBytes 4095 (b.sealBody ++ leBytes 64 b.sigEd ++ leBytes 3309 b.sigMl) ++ [0xA5]

/-- Bytes as one number, the first least significant. -/
def bytesNat (l : List Nat) : Nat := l.foldr (fun b n => b + 256 * n) 0

/-- One byte of the recorder's region as NOR holds it (R613, R629): what is not programmed reads 0xFF. -/
def State.regionByte (s : State) (i : Nat) : Nat :=
  let pair := i / 8192
  let k := i % 8192
  match s.nor.blocks.find? fun b => b.pair == pair with
  | some b => if k < 4096 then b.bytes.getD k 0xFF else b.sealBytes.getD (k - 4096) 0xFF
  | none =>
    match (fins 5).findSome? fun (t : StreamIx) => (s.evr.open_[t].filter fun b => b.pair == pair).map fun b => b.bytes t with
    | some l => if k < 4096 then l.getD k 0xFF else 0xFF
    | none => 0xFF

/-- A word of the region. -/
def State.regionWord (s : State) (i : Nat) : Word := nw (bytesNat ((List.range 4).map fun k => s.regionByte (i + k)))

/-! ### Sealing (R620, R621) -/

/-- The signer of a stream (R614). -/
def streamSigner (t : StreamIx) : Identity := if h : t.val < 4 then .engine ⟨t.val, h⟩ else .module

/-- The newest seal of a stream in the region. -/
def State.lastSeal (s : State) (t : StreamIx) : Option SealedBlock :=
  (s.nor.blocks.filter fun b => b.stream == t).foldl (fun (m : Option SealedBlock) b =>
    match m with
    | none => some b
    | some x => if seqBefore x.bseq b.bseq then some b else m) none

/-- BLOCK_SEAL (R620, R621): a block's seal is programmed, signed by the stream's signer; flags bit 0 LATE, bit 1 EARLY. -/
def State.sealBlock (s : State) (t : StreamIx) (b : OpenBlock) (flags : Nat) : State :=
  let prev := match s.lastSeal t with
    | some x => Config.sha384 x.sealBody
    | none => 0
  let x : SealedBlock :=
    { pair := b.pair, bseq := b.bseq, stream := t, used := b.used, flags := flags, aliasGen := s.sec.aliasGen % 256, poh := s.rst.poh
      pcyc := b.pcyc, headPoh := b.poh, headGen := b.aliasGen, rseqFirst := b.rseqFirst, rseqLast := b.rseqLast
      digest := Config.sha384 (b.bytes t), prev := prev, events := b.events }
  let (ed, ml, s) := s.signPair (streamSigner t) (0x434C512D4556522D5345414C * 2 ^ 1024 + bytesNat x.sealBody)
  (s.modNor fun n => { n with blocks := n.blocks ++ [{ x with sigEd := ed, sigMl := ml }] }).modEvr fun e =>
    { e with sealCnt := satAdd 32 e.sealCnt 1 }

/-- A stream's open block closes (R620). -/
def State.closeStream (s : State) (t : StreamIx) (flags : Nat) : State :=
  match s.evr.open_[t] with
  | none => s
  | some b => (s.sealBlock t b flags).modEvr fun e => { e with open_ := vset e.open_ t none }

/-! ### Ring and wear (R615, R627, R628) -/

/-- The next free pair in ring order (R615): further on in the segment begun, else the next segment erased and not retired. -/
def State.freePair (s : State) : Option Nat :=
  let n := s.evr.nextPair % 3072
  let ok := fun (k : Nat) => let g := vget s.nor.segs k {}; !g.retired
  if n % 8 ≠ 0 ∧ ok (n / 8) then some n
  else
    let from_ := if n % 8 = 0 then n / 8 else n / 8 + 1
    ((List.range 384).map fun i => (from_ + i) % 384).findSome? fun k =>
      if ok k && (vget s.nor.segs k {}).erased then some (8 * k) else none

/-- A stream's block is opened in the next free pair (R615). -/
def State.openStream (s : State) (t : StreamIx) : Option State :=
  s.freePair.map fun p =>
    let s := s.modNor fun n =>
      { n with segs := match fin? 384 (p / 8) with
          | some k => vmod n.segs k fun g => { g with erased := false }
          | none => n.segs }
    s.modEvr fun e =>
      { e with
        nextPair := (p + 1) % 3072, nextBseq := wrapAdd 32 e.nextBseq 1
        open_ := vset e.open_ t (some
          { pair := p, bseq := e.nextBseq, used := 32, aliasGen := s.sec.aliasGen % 256, pcyc := s.rst.pcyc, poh := s.rst.poh
            sealAt := s.mtime + e.sealT * secClocks }) }

/-- A segment is retired (R628): SEG_RETIRED with its cause; at the 32nd WORN sets with one event. -/
def State.retireSegment (s : State) (k : Fin 384) (cause : Nat) : State :=
  if s.nor.segs[k].retired then s
  else
    let s := s.modNor fun n => { n with segs := vmod n.segs k fun g => { g with retired := true, erased := false } }
    let s := s.record 0x0006 5 0 0 0 [nw k.val, nw cause]
    let count := (s.nor.segs.toList.filter (·.retired)).length
    if 32 ≤ count ∧ !s.evr.worn then
      let s := s.modEvr fun e => { e with worn := true }
      s.condition 0x01 5 0 0x50000 (rEvrStatus s.evr) (stEvr s)
    else s

/-! ### Programming (R614, R616, R620, R623) -/

/-- The stream of a record (R614). -/
def State.streamOf (s : State) (e : Event) : StreamIx :=
  let eng := fun (a : Eng) => (⟨a.val, by omega⟩ : StreamIx)
  if e.level = 3 then
    match fin? 24 e.index with
    | some g => eng (s.engineOf g)
    | none => 4
  else if e.level = 4 then
    match fin? 4 e.index with
    | some a => eng a
    | none => 4
  else 4

/-- The open block a record goes to, made ready (R620): a full one is sealed and the next one opened. None while no pair is free. -/
def State.readyBlock (s : State) (e : Event) : Option State :=
  let t := s.streamOf e
  match s.evr.open_[t] with
  | some b => if b.used + e.len ≤ 4096 then some s else (s.closeStream t 0).openStream t
  | none => s.openStream t

/-- The record at the head of the queue is programmed into its stream's open block, ready for it. -/
def State.programInto (s : State) (e : Event) : State :=
  let t := s.streamOf e
  s.modEvr fun r =>
    { r with
      queue := r.queue.drop 1, recCnt := satAdd 32 r.recCnt 1
      open_ := vset r.open_ t (r.open_[t].map fun b =>
        { b with
          used := b.used + e.len, events := b.events ++ [e], rseqLast := e.rseq
          rseqFirst := if b.events.isEmpty then e.rseq else b.rseqFirst }) }

/-- The records in the queue are programmed in order, as far as blocks are free (R625). -/
def State.programAll (s : State) : Nat → State
  | 0 => s
  | fuel + 1 =>
    match s.evr.queue with
    | [] => s
    | e :: _ =>
      match s.readyBlock e with
      | none => s
      | some s => (s.programInto e).programAll fuel

/-- RECORD_PROGRAM (R616, R623, R628): the oldest queued record is programmed while the recorder is not frozen and the main firmware
has sealed the open blocks and raised POWER_ON (R622, R637); `ok` is the verify
of the programming. A failure retires the segment, and the record waits for a new block. -/
def execRecordProgram (ok : Bool) (s : State) : Out :=
  .next (
    match s.evr.queue with
    | [] => s
    | e :: _ =>
      if 0 < s.evr.frzDepth ∨ s.rst.phase.early ∨ s.rst.recovery then s
      else match s.readyBlock e with
        | none => s
        | some s =>
          if ok then s.programInto e
          else
            let t := s.streamOf e
            match s.evr.open_[t] with
            | none => s
            | some b => (s.closeStream t 2).retireSegment (finMod 384 (by decide) (b.pair / 8)) 1)

/-- SEAL_TIMEOUT (R620, R630): SEAL_T after it was opened, a stream's block closes. -/
def execSealTimeout (t : StreamIx) (s : State) : Out :=
  .next (
    match s.evr.open_[t] with
    | some b => if 0 < s.evr.frzDepth ∨ s.mtime < b.sealAt then s else s.closeStream t 2
    | none => s)

/-- The pair with the oldest BSEQ in the segments of the ring, retired ones left out (R627, R628). -/
def State.oldestPair (s : State) : Option Nat :=
  let all := s.nor.blocks.map (fun b => (b.bseq, b.pair)) ++ s.evr.open_.toList.filterMap fun o => o.map fun b => (b.bseq, b.pair)
  let ring := all.filter fun p => !(vget s.nor.segs (p.2 / 8) {}).retired
  (ring.foldl (fun (m : Option (Nat × Nat)) p =>
    match m with
    | none => some p
    | some x => if seqBefore p.1 x.1 then some p else m) none).map (·.2)

/-- SEGMENT_ERASE (R627): with fewer than two erased segments ahead, the segment holding the oldest BSEQ is erased, its open blocks
sealed first; not while frozen. -/
def execSegmentErase (s : State) : Out :=
  .next (
    let ahead := (s.nor.segs.toList.filter fun g => g.erased && !g.retired).length
    if 0 < s.evr.frzDepth ∨ s.evr.erasing.isSome ∨ 2 ≤ ahead then s
    else match s.oldestPair with
      | none => s
      | some p =>
        let k : Fin 384 := finMod 384 (by decide) (p / 8)
        let s := (fins 5).foldl (fun s (t : StreamIx) =>
          match s.evr.open_[t] with
          | some b => if b.pair / 8 = k.val then s.closeStream t 2 else s
          | none => s) s
        s.modEvr fun e => { e with erasing := some k })

/-- EVR_CFG of recorder.freeze after clamping, and CLAMP. -/
def freezeCfg (p : Packet) : Word := clampWord [fIn 31 16 10 65535, fIn 15 0 10 3600] 0 (p.w 1)
/-- See `freezeCfg`. -/
def freezeClamp (p : Packet) : Nat :=
  clampBits ((0, p.w 0, clampWord [fAny 0 0] 0 (p.w 0)) :: (if (p.w 0).getLsbD 0 then [(1, p.w 1, freezeCfg p)] else []))

/-- Results of recorder.freeze. -/
def stFreeze (s : State) : List Word := [rEvrStatus s.evr, rEvrCfg s.evr, nw s.headBseq]

/-- SEGMENT_ERASE_DONE (R627, R628): the erase has ended; a failed one, or the 100 000th, retires the segment. A freeze that waited
for it replies (R625). -/
def execSegmentEraseDone (ok : Bool) (s : State) : Out :=
  .next (
    match s.evr.erasing with
    | none => s
    | some k =>
      let s := s.modEvr fun e => { e with erasing := none }
      let s := s.modNor fun n =>
        { n with
          blocks := n.blocks.filter fun b => b.pair / 8 != k.val
          segs := vmod n.segs k fun g => { g with erased := true, erases := g.erases + 1 } }
      let s := if !ok then s.retireSegment k 0 else if 100000 ≤ s.nor.segs[k].erases then s.retireSegment k 2 else s
      s.replyWaiting 0x0231 (fun _ => true) 0 (fun s _ => stFreeze s) freezeClamp)

/-! ### Freeze and thaw (R625, R626, R630) -/

/-- A FREEZE or THAW record enters the queue in the reserve (R623). -/
def State.pushOwn (s : State) (type : BitVec 16) (words : List Word) : State :=
  s.modEvr fun e =>
    { e with
      nextRseq := wrapAdd 32 e.nextRseq 1
      queue := e.queue ++ [{ type := type, level := 5, index := 0, poh := s.rst.poh, pcyc := s.rst.pcyc, rseq := e.nextRseq
                             mtime := s.mtime, words := words, len := 24 + pad8 (4 * words.length) }] }

/-- The depth of freezes has reached zero (R626): THAW, then LOST where records were lost. -/
def State.thawed (s : State) (cause : Nat) : State :=
  let held := s.evr.level
  let s := (s.modEvr fun e => { e with frzDepth := 0 }).pushOwn 0x0004 [0, nw cause, nw held, 0]
  if s.evr.qFull then s.pushLost else s

/-- FREEZE_TIMEOUT (R626, R630): FRZ_MAX after the last freeze the depth becomes zero. -/
def execFreezeTimeout (s : State) : Out := .next (if 0 < s.evr.frzDepth ∧ s.evr.frzEnd ≤ s.mtime then s.thawed 1 else s)

/-- recorder.status. -/
def execRecorderStatus (p : Packet) (s : State) : Out := .next (runPacket ⟨0x0230, [5], .read⟩ p s fun s => .report s (stEvr s))

/-- recorder.freeze (R625, R630): at the first freeze the queue and a FREEZE record are programmed and every open block is sealed.
The reply waits for an erase in progress; a new EVR_CFG applies to what follows it. -/
def opRecorderFreeze (p : Packet) (s : State) : PktRes :=
  if 7 ≤ s.evr.frzDepth then .fail s 0x0301
  else
    let apply := (p.w 0).getLsbD 0
    let w1 := freezeCfg p
    let first := s.evr.frzDepth == 0
    let s := s.modEvr fun e => { e with frzDepth := e.frzDepth + 1, frzEnd := s.mtime + e.frzMax * secClocks }
    let s := if first then
        let s := s.pushOwn 0x0003 [nw s.evr.frzDepth, 0]
        let s := s.programAll (s.evr.queue.length + 1)
        (fins 5).foldl (fun s (t : StreamIx) => s.closeStream t 2) s
      else s
    let s := if apply then
        (s.modEvr fun e => { e with sealT := fld w1 31 16, frzMax := fld w1 15 0 }).modNor fun n => { n with evrCfg := w1 }
      else s
    { state := s, result := stFreeze s, wait := s.evr.erasing.isSome, clamp := freezeClamp p }
/-- recorder.freeze. -/
def execRecorderFreeze (p : Packet) (s : State) : Out := .next (runPacket ⟨0x0231, [5], .action⟩ p s (opRecorderFreeze p))

/-- recorder.thaw (R626, R630): the selected counters are read and cleared first. -/
def opRecorderThaw (p : Packet) (s : State) : PktRes :=
  let m := fld (p.w 0) 2 0
  let e := s.evr
  let s := s.modEvr fun e => { e with recCnt := clr m 0 e.recCnt, lostCnt := clr m 1 e.lostCnt, sealCnt := clr m 2 e.sealCnt }
  let s := if e.frzDepth = 0 then s
    else if e.frzDepth = 1 then s.thawed 0
    else s.modEvr fun e => { e with frzDepth := e.frzDepth - 1 }
  { state := s, result := rEvrStatus s.evr :: selected m [[nw e.recCnt], [nw e.lostCnt], [nw e.sealCnt]]
    clamp := clampBits [(0, p.w 0, nw m)] }
/-- recorder.thaw. -/
def execRecorderThaw (p : Packet) (s : State) : Out := .next (runPacket ⟨0x0232, [5], .action⟩ p s (opRecorderThaw p))

/-- recorder.read (R629). -/
def opRecorderRead (p : Packet) (s : State) : PktRes :=
  let w := clampWord [fIn 31 0 0 0x2FFFFD] 0 (p.w 0)
  { state := s, result := (List.range 6).map fun i => s.regionWord (8 * w.toNat + 4 * i), clamp := clampBits [(0, p.w 0, w)] }
/-- recorder.read. -/
def execRecorderRead (p : Packet) (s : State) : Out := .next (runPacket ⟨0x0233, [5], .read⟩ p s (opRecorderRead p))

/-- recorder.note (R630): a NOTE record of the text's bytes. -/
def opRecorderNote (p : Packet) (s : State) : PktRes :=
  let w := clampWord [fIn 31 0 1 52] 0 (p.w 13)
  let n := w.toNat
  let text := (List.range ((n + 3) / 4)).map fun i => nw ((p.w i).toNat % 2 ^ (8 * min 4 (n - 4 * i)))
  let s := s.record 0x0005 5 0 0 0 text
  { state := s, result := [nw ((s.evr.nextRseq + 2 ^ 32 - 1) % 2 ^ 32)], clamp := clampBits [(13, p.w 13, w)] }
/-- recorder.note. -/
def execRecorderNote (p : Packet) (s : State) : Out := .next (runPacket ⟨0x0234, [5], .action⟩ p s (opRecorderNote p))

end Sys2Proof.Machine
end

