-- ==== Sys2Proof/Machine/Admin.lean ====
section
/-! DEFINITION. Admin commands of NVMe (spec/13_host_link_nvme.md, R443 to R460; spec/14_queues_ordering.md, R470 to R473, R502,
R503): the admission of an admin command, queues, Abort, features, Identify, Get Log Page, namespaces, virtualisation. -/

namespace Sys2Proof.Machine
open Sys2Proof

/-! ### Admission and completion -/

/-- What an admin command makes: the state after it, its status (none: it completes later), Dword 0 and the data returned. -/
structure AdmRes where
  state : State
  status : Option NvStatus := some stOk
  dw0 : Word := 0
  words : List Word := []

/-- A command that fails with a status and no effect. -/
def AdmRes.fail (s : State) (st : NvStatus) : AdmRes := { state := s, status := some st }

/-- Admin contexts a function holds (R474): Asynchronous Event Requests take none. -/
def State.adminCtxs (s : State) (f : Fn) : Nat := s.pendingAdmin f - s.host.fns[f].aers.length

/-- The entry at the head of a function's admin queue is taken, where one waits. -/
def State.takeAdmin (s : State) (f : Fn) : State :=
  s.modFn f fun x => { x with sqs := x.sqs.map fun q => if q.id = 0 ∧ q.waiting then { q with head := (q.head + 1) % max 1 q.size } else q }

/-- An admin command's completion, with its Error Information entry where it fails. -/
def State.finishAdmin (s : State) (q : AdmReq) (st : NvStatus) (dw0 : Word) (words : List Word) : State :=
  let s := if st = stOk then s else s.logError q.fn 0 q.cid.toNat st 0 0
  s.answerAdmin q st dw0 words

/-- An admin command of a function, from its queue or tunnelled to it, in the order they arrive (R446, R466, R474, R637): the controller takes commands and has a context for it; in recovery mode only
the named commands run, and what only the PF has fails on a VF. A command that may not run yet leaves the state as it is (log 11). -/
def State.admin (s : State) (q : AdmReq) (noCtx pfOnly recOk : Bool) (body : State → AdmRes) : Out :=
  let x := s.host.fns[q.fn]
  if q.mi.isSome && !x.present then .next (s.refuseMi q 0x04)
  else if !x.present || !x.en || !x.rdy || x.shst != 0 || (!noCtx && decide (2 ≤ s.adminCtxs q.fn)) then .next s
  else
    let s := if q.mi.isSome then s else s.takeAdmin q.fn
    if (pfOnly && decide (q.fn ≠ 0)) || (s.rst.recovery && !recOk) then .next (s.finishAdmin q stInvalidOpcode 0 [])
    else
      let r := body s
      .next (match r.status with
        | some st => r.state.finishAdmin q st r.dw0 (if st = stOk then r.words else [])
        | none => r.state)

/-- An admin command that NVMe-MI does not tunnel (R465): only a queue brings it. -/
def State.adminOwn (s : State) (q : AdmReq) (noCtx pfOnly recOk : Bool) (body : State → AdmRes) : Out :=
  if q.mi.isSome then .next (s.refuseMi q 0x03) else s.admin q noCtx pfOnly recOk body

/-- INVALID_OPCODE (R446). -/
def execInvalidOpcode (q : AdmReq) (_opc : BitVec 8) (s : State) : Out := s.adminOwn q false false true fun s => .fail s stInvalidOpcode

/-! ### Queues (R470, R473, R503) -/

/-- Statuses of queue management. -/
def stInvalidQueue : NvStatus := stCmd 0x01
/-- See `stInvalidQueue`. -/
def stQueueSize : NvStatus := stCmd 0x02

/-- CREATE_IO_CQ (R443, R473). -/
def execCreateIoCq (q : AdmReq) (n : NewCq) (s : State) : Out :=
  s.adminOwn q false false false fun s =>
    let x := s.host.fns[q.fn]
    let id := n.id.toNat
    if id = 0 ∨ x.pairs ≤ id ∨ (x.cqs.any fun c => c.id == id) then .fail s stInvalidQueue
    else if n.size.toNat = 0 ∨ 0x3FFF < n.size.toNat then .fail s stQueueSize
    else if x.vectors ≤ n.vector.toNat then .fail s (stCmd 0x08)
    else
      { state := s.modFn q.fn fun x =>
          { x with cqs := x.cqs ++ [{ id := id, size := n.size.toNat + 1, vector := n.vector.toNat, irqEn := n.irqEn }] } }

/-- CREATE_IO_SQ (R443, R470, R473). -/
def execCreateIoSq (q : AdmReq) (n : NewSq) (s : State) : Out :=
  s.adminOwn q false false false fun s =>
    let x := s.host.fns[q.fn]
    let id := n.id.toNat
    if id = 0 ∨ x.pairs ≤ id ∨ (x.sqs.any fun c => c.id == id) then .fail s stInvalidQueue
    else if n.cq = 0 ∨ !(x.cqs.any fun c => c.id == n.cq.toNat) then .fail s (stCmd 0x00)
    else if n.size.toNat = 0 ∨ 0x3FFF < n.size.toNat then .fail s stQueueSize
    else
      { state := s.modFn q.fn fun x =>
          { x with sqs := x.sqs ++ [{ id := id, cq := n.cq.toNat, size := n.size.toNat + 1, prio := n.prio.toNat }] } }

/-- DELETE_IO_CQ (R446): not while a submission queue uses it. -/
def execDeleteIoCq (q : AdmReq) (id : BitVec 16) (s : State) : Out :=
  s.adminOwn q false false false fun s =>
    let x := s.host.fns[q.fn]
    if id = 0 ∨ !(x.cqs.any fun c => c.id == id.toNat) then .fail s stInvalidQueue
    else if x.sqs.any fun c => c.cq == id.toNat then .fail s (stCmd 0x0C)
    else { state := s.modFn q.fn fun x => { x with cqs := x.cqs.filter fun c => c.id != id.toNat } }

/-- A command that has not started is aborted with a status (R502, R503): its context, with its credits, goes as the completion is
posted. -/
def State.abortCtx (s : State) (x : Nat) (st : NvStatus) : State := s.modCtx (finMod 4096 (by decide) x) fun c => c.finish st

/-- DELETE_IO_SQ (R495, R503): commands that have not started complete as aborted; the deletion completes after the started ones. -/
def execDeleteIoSq (q : AdmReq) (id : BitVec 16) (s : State) : Out :=
  s.adminOwn q false false false fun s =>
    let x := s.host.fns[q.fn]
    match x.sqs.find? fun c => c.id == id.toNat with
    | none => .fail s stInvalidQueue
    | some sq =>
      if id = 0 ∨ sq.deleting.isSome then .fail s stInvalidQueue
      else
        let idle := s.q.ctxs.filter fun p => p.2.fn == q.fn && p.2.sq == sq.id && !p.2.admin && !p.2.started && p.2.finished.isNone
        let s := idle.foldl (fun s p =>
          (s.abortCtx p.1 (stGen 0x08 true)).modFn q.fn fun x => { x with sqdelCnt := satAdd 16 x.sqdelCnt 1 }) s
        let s := s.modFn q.fn fun x =>
          { x with sqs := x.sqs.map fun y => if y.id = sq.id then { y with deleting := some q.cid } else y }
        { state := s.settleDeletes q.fn, status := none }

/-- ABORT (R502): a target that has not started completes as aborted; else Dword 0 bit 0 is set. -/
def execAbort (q : AdmReq) (sq cid : BitVec 16) (s : State) : Out :=
  s.adminOwn q false false false fun s =>
    if sq = 0 ∧ s.host.fns[q.fn].aers.contains cid then
      let s := s.modFn q.fn fun x => { x with aers := x.aers.erase cid, abortCnt := satAdd 16 x.abortCnt 1 }
      { state := s.postAdmin q.fn cid (stGen 0x07 true) 0 [] }
    else
      match s.q.ctxs.find? fun p => p.2.fn == q.fn && p.2.sq == sq.toNat && p.2.sqe.cid == cid && !p.2.started && p.2.finished.isNone with
      | none => { state := s, dw0 := 1 }
      | some p =>
        { state := (s.abortCtx p.1 (stGen 0x07 true)).modFn q.fn fun x =>
            { x with abortCnt := satAdd 16 x.abortCnt 1 } }

/-- ASYNCHRONOUS_EVENT_REQUEST (R443, R460): up to eight are outstanding. -/
def execAsynchronousEventRequest (q : AdmReq) (s : State) : Out :=
  s.adminOwn q true false false fun s =>
    if 8 ≤ s.host.fns[q.fn].aers.length then .fail s (stCmd 0x05)
    else { state := (s.modFn q.fn fun x => { x with aers := x.aers ++ [q.cid] }).deliverAsync q.fn, status := none }

/-- KEEP_ALIVE (R443): the timer restarts. -/
def execKeepAlive (q : AdmReq) (s : State) : Out :=
  s.adminOwn q true false false fun s => { state := s.modFn q.fn fun x => { x with kaLast := s.mtime } }

/-! ### Features (R443 to R445, R473) -/

/-- Features of NVMe that the module keeps. -/
def keptFeatures : List Nat := [0x01, 0x02, 0x04, 0x05, 0x06, 0x07, 0x08, 0x09, 0x0A, 0x0B, 0x0F, 0x16, 0x17, 0x19]

/-- Number of Queues (R473): Q − 2 in both halves. -/
def FnState.queuesWord (x : FnState) : Word := mkw [bf 31 16 (x.pairs - 2), bf 15 0 (x.pairs - 2)]

/-- The value of a feature. -/
def FnState.feature (x : FnState) (fid : Nat) : Word :=
  if fid = 0x02 then nw x.ps
  else if fid = 0x04 then (alookup x.features 0x04).getD 373
  else if fid = 0x06 then boolw x.vwcOn
  else if fid = 0x07 then x.queuesWord
  else if fid = 0x0F then nw (x.kato * 100)
  else (alookup x.features fid).getD 0

/-- SET_FEATURES (R443 to R445, R473). -/
def execSetFeatures (q : AdmReq) (fid : BitVec 8) (save : Bool) (v : Word) (s : State) : Out :=
  s.admin q false false false fun s =>
    let n := fid.toNat
    let x := s.host.fns[q.fn]
    if !keptFeatures.contains n then .fail s stInvalidField
    else if save ∧ (n = 0x07 ∨ n = 0x0F) then .fail s (stCmd 0x0D)
    else if n = 0x02 ∧ (q.fn ≠ 0 ∨ 2 < fld v 4 0) then .fail s stInvalidField
    else if n = 0x07 ∧ (1 < x.sqs.length ∨ 1 < x.cqs.length) then .fail s (stGen 0x0C true)
    else
      let s := s.modFn q.fn fun x =>
        { x with
          ps := if n = 0x02 then fld v 4 0 else x.ps
          vwcOn := if n = 0x06 then v.getLsbD 0 else x.vwcOn
          kato := if n = 0x0F then (v.toNat + 99) / 100 else x.kato
          kaLast := if n = 0x0F then s.mtime else x.kaLast
          features := if n = 0x07 ∨ n = 0x0F then x.features else aset x.features n v
          saved := if save then aset x.saved n v else x.saved }
      let s := if save then s.modNor fun y => { y with saved := aset y.saved (q.fn, n) v } else s
      { state := s, dw0 := if n = 0x07 then x.queuesWord else 0 }

/-- GET_FEATURES (R473). -/
def execGetFeatures (q : AdmReq) (fid : BitVec 8) (s : State) : Out :=
  s.admin q false false false fun s =>
    if keptFeatures.contains fid.toNat then { state := s, dw0 := s.host.fns[q.fn].feature fid.toNat } else .fail s stInvalidField

/-! ### Identify (R443, R448 to R453, R471) -/

/-- A word of a data structure of a standard: the fields the manual gives, over what it does not (log 9). -/
def overWord (base : Word) (l : List (Nat × Nat × Nat)) : Word := l.foldl (fun w f => setFld w f.1 f.2.1 f.2.2) base

/-- A page of words: those a table gives with their fields, the others as the implementation has them. -/
def page (base : Nat → Word) (n : Nat) (t : List (Nat × List (Nat × Nat × Nat))) : List Word :=
  (List.range n).map fun i => overWord (base i) ((t.filter fun e => e.1 == i).flatMap (·.2))

/-- A whole word. -/
def whole (v : Nat) : List (Nat × Nat × Nat) := [(31, 0, v)]

/-- Identify Controller (R443, R445, R458, R597, R598), words by number. -/
def State.idController (s : State) (f : Fn) : List Word :=
  page (Config.identifyWord 0x01) 1024
    [(0, whole 0x1F4C1F4C), (19, [(7, 0, 6), (15, 8, 9), (31, 16, f.val + 1)]), (20, whole 0x00020000), (24, whole 0x14),
      (64, [(15, 0, if f = 0 then 0xDF else 0x03), (23, 16, 3), (31, 24, 7)]), (65, [(7, 0, 0x14), (23, 16, 255), (31, 24, 2)]),
      (66, [(15, 8, 0), (31, 16, 373)]), (67, [(15, 0, 378), (31, 16, 1)]), (68, whole 0), (69, whole 0), (79, [(31, 24, 1)]),
      (80, [(15, 0, 1)]), (82, whole 3), (84, [(31, 16, 4)]), (85, [(15, 0, 4)]), (128, [(7, 0, 0x66), (15, 8, 0x44), (31, 16, 4096)]),
      (129, whole (if s.rst.recovery then 0 else 16)), (130, [(15, 0, 0x9C), (31, 16, 0)]), (131, [(15, 8, 1)]), (134, whole 0x00090001),
      (512, [(15, 0, 3500)]), (513, whole 0), (514, whole 0), (520, [(15, 0, 1500)]), (521, whole 0), (522, whole 0),
      (528, [(15, 0, 1000)]), (529, whole 0), (530, whole 0)]

/-- Identify Namespace (R448 to R451). -/
def Namespace.identify (n : Namespace) : List Word :=
  page (Config.identifyWord 0x00) 1024
    [(0, whole n.size), (1, whole (n.size / 2 ^ 32)), (2, whole n.size), (3, whole (n.size / 2 ^ 32)),
      (6, [(15, 8, 1), (20, 16, n.lbaf + (if n.extended then 16 else 0)), (31, 24, 3)]),
      (7, [(7, 0, 0x1D), (15, 8, n.piType + (if n.piFirst then 8 else 0)), (23, 16, if n.shared then 1 else 0)]),
      (25, [(15, 0, n.nvmset), (31, 16, n.nvmset)]), (32, whole 0x000C0000), (33, whole 0x000C0008)]

/-- Identify Namespace of the Zoned Namespace command set (R453). -/
def State.identifyZns (s : State) : List Word :=
  page (Config.identifyWord 0x05) 1024
    [(0, [(0, 0, 1), (1, 1, 0), (16, 16, 1)]), (1, whole 255), (2, whole 255), (3, whole 0), (4, whole (s.host.zfrl * 3600)),
      (704, whole zoneSize), (705, whole 0), (706, [(7, 0, 0)]), (708, whole zoneSize), (709, whole 0), (710, [(7, 0, 0)])]

/-- Flexible queue pairs assigned to the VFs. -/
def State.vfPairs (s : State) : Nat := ((List.range 15).map fun i => vget s.nor.pairs (i + 1) 0).sum

/-- Primary Controller Capabilities (R471). -/
def State.identifyPrimary (s : State) : List Word :=
  page (Config.identifyWord 0x14) 1024
    [(0, [(15, 0, 1)]), (1, [(1, 0, 3)]), (8, whole 64512), (9, whole s.vfPairs), (10, [(15, 0, s.nor.pairs[0]), (31, 16, 1024)]),
      (11, [(15, 0, 32768), (31, 16, 1)]), (16, whole 30720), (17, whole 30720), (18, [(15, 0, 0), (31, 16, 2048)]),
      (19, [(15, 0, 2048), (31, 16, 2048)])]

/-- Secondary Controller List (R471, R472), from a controller identifier on. -/
def State.identifySecondary (s : State) (from_ : Nat) : List Word :=
  let l := (fins 16).filter fun (f : Fn) => f.val != 0 && decide (from_ ≤ f.val + 1)
  let body := l.flatMap fun (f : Fn) =>
    let x := s.host.fns[f]
    [mkw [bf 15 0 (f.val + 1), bf 31 16 1], mkw [bb 0 x.online], mkw [bf 15 0 f.val, bf 31 16 x.pairs], mkw [bf 15 0 x.vectors], 0, 0, 0, 0]
  ([mkw [bf 7 0 l.length], 0, 0, 0, 0, 0, 0, 0] ++ body ++ List.replicate 1024 0).take 1024

/-- A list of namespace identifiers above one, as 1 024 words. -/
def nsList (l : List Nat) (above : Nat) : List Word :=
  (((l.filter fun n => above < n).mergeSort (· ≤ ·)).map nw ++ List.replicate 1024 0).take 1024

/-- A list of controller identifiers, 16 bits each after their count. -/
def ctrlList (l : List Nat) : List Word :=
  let h := l.length :: l
  (List.range 1024).map fun i => mkw [bf 15 0 (h.getD (2 * i) 0), bf 31 16 (h.getD (2 * i + 1) 0)]

/-- Identifiers of the NVM Sets or Endurance Groups (R449): the engines present, from one on. -/
def State.setList (s : State) (from_ : Nat) : List Nat :=
  (((fins 4).filter fun (a : Eng) => s.enginePresent a).map fun a => a.val + 1).filter fun n => from_ ≤ n

/-- IDENTIFY (R443, R448 to R453, R471). -/
def execIdentify (q : AdmReq) (i : IdentifyReq) (s : State) : Out :=
  s.admin q false false true fun s =>
    let nsid := i.nsid.toNat
    let mine := (s.nsAttached q.fn).map (·.nsid)
    let all := s.host.namespaces.map (·.nsid)
    let ns := s.host.namespaces.find? fun n => n.nsid == nsid
    let attached := ns.filter fun n => n.attached.getLsbD q.fn.val
    let nsPage := fun (o : Option Namespace) (f : Namespace → List Word) =>
      if nsid = 0 ∨ (16 < nsid ∧ nsid ≠ 0xFFFFFFFF) then AdmRes.fail s (stGen 0x0B true)
      else match o with
        | some n => { state := s, words := f n }
        | none => { state := s, words := List.replicate 1024 0 }
    match i.cns.toNat with
    | 0x00 => nsPage attached Namespace.identify
    | 0x01 => { state := s, words := s.idController q.fn }
    | 0x02 => { state := s, words := nsList mine nsid }
    | 0x03 => nsPage attached fun _ => page (Config.identifyWord 0x03) 1024 []
    | 0x04 => { state := s, words := (page (Config.identifyWord 0x04) 1024
        ([(0, [(7, 0, (s.setList i.cntid.toNat).length)])] ++ (s.setList i.cntid.toNat).zipIdx.map fun (n, k) =>
          (32 + 32 * k, [(15, 0, n), (31, 16, n)]))) }
    | 0x05 => nsPage attached fun n => if n.zoned && i.csi == 2 then s.identifyZns else page (Config.identifyWord 0x05) 1024 []
    | 0x06 => { state := s, words := if i.csi = 2 then page (fun _ => 0) 1024 [] else page (Config.identifyWord 0x06) 1024 [] }
    | 0x07 => { state := s, words := nsList (((s.nsAttached q.fn).filter fun n => n.zoned == (i.csi == 2)).map (·.nsid)) nsid }
    | 0x10 => { state := s, words := nsList all nsid }
    | 0x11 => nsPage ns Namespace.identify
    | 0x12 => nsPage ns fun n => ctrlList ((bitsSet 16 n.attached.toNat).filterMap fun f => if i.cntid.toNat ≤ f + 1 then some (f + 1) else none)
    | 0x13 => { state := s, words := ctrlList (((fins 16).filter fun (f : Fn) => s.host.fns[f].present && decide (i.cntid.toNat ≤ f.val + 1)).map
        fun f => f.val + 1) }
    | 0x14 => { state := s, words := s.identifyPrimary }
    | 0x15 => { state := s, words := s.identifySecondary i.cntid.toNat }
    | 0x19 => { state := s, words := ctrlList (s.setList i.cntid.toNat) }
    | 0x1C => { state := s, words := page (Config.identifyWord 0x1C) 1024 [] }
    | _ => .fail s stInvalidField

/-! ### Log pages (R455 to R460, R609, R629) -/

/-- SPARE_TOTAL and SPARE_USED of the engine with the lowest fraction left, among the engines present and not failed (R457). -/
def State.worstSpare (s : State) : Option (Nat × Nat) :=
  (fins 4).foldl (fun (m : Option (Nat × Nat)) (a : Eng) =>
    let r := s.eng[a].recv
    if !s.enginePresent a || s.engineFailed a || r.spareTotal == 0 then m
    else match m with
      | none => some (r.spareTotal, r.spareUsed)
      | some (t, u) => if (r.spareTotal - r.spareUsed) * t < (t - u) * r.spareTotal then some (r.spareTotal, r.spareUsed) else m) none

/-- Available Spare (R457); without a spare sector anywhere the manual gives no value. -/
def State.availableSpare (s : State) : Nat :=
  match s.worstSpare with
  | some (t, u) => 100 * (t - u) / t
  | none => fld (Config.logWord 0x02 0) 31 24

/-- The composite temperature in kelvin (R458): the highest of thermal zones 0 to 6. -/
def State.compositeK (s : State) : Nat := ((List.range 7).foldl (fun m z => max m ((vget s.lpe.temps z 0) / 16 + 273)) 0).toNat

/-- Critical Warning (R458). -/
def State.criticalWarning (s : State) (f : Fn) : Nat :=
  let present := (fins 4).filter fun (a : Eng) => s.enginePresent a
  let dead := fun (a : Eng) => s.engineFailed a || (s.headsOf a).all fun g => s.head[g].wr.wrDis
  let hurt := (present.any fun a => s.engineFailed a || s.eng[a].recv.spareFull) ||
    (fins 24).any fun (g : Head) => s.headPresent g && s.head[g].map.depop
  bb 0 (decide (s.availableSpare < s.host.spareThr)) + bb 1 (decide (fld (s.host.fns[f].feature 0x04) 15 0 ≤ s.compositeK)) +
    bb 2 hurt + bb 3 (!present.isEmpty && present.all dead)

/-- Log page 0x01: Error Information, newest first. -/
def FnState.errorPage (x : FnState) : List Word :=
  let one := fun (e : ErrorEntry) =>
    lohi e.count ++ [mkw [bf 15 0 e.sq, bf 31 16 e.cid], mkw [bb 15 e.status.dnr, bf 11 9 e.status.sct, bf 8 1 e.status.sc, bf 31 16 0xFFFF]] ++
      lohi e.lba ++ [nw e.nsid] ++ List.replicate 9 (0 : Word)
  ((x.errLog.take 256).flatMap one ++ List.replicate 4096 (0 : Word)).take 4096

/-- Log page 0x02: SMART / Health Information. -/
def State.smartPage (s : State) (f : Fn) : List Word :=
  page (Config.logWord 0x02) 128
    [(0, [(7, 0, s.criticalWarning f), (23, 8, s.compositeK), (31, 24, s.availableSpare)]), (1, [(7, 0, s.host.spareThr)]),
      (28, whole s.rst.pcyc), (29, whole 0), (32, whole (s.rst.poh / 1024)), (33, whole 0)]

/-- Log page 0x03: Firmware Slot Information (R594, R598). -/
def State.slotPage (s : State) : List Word :=
  let next := if s.nor.actSlot = s.sec.runSlot then 0 else s.nor.actSlot + 1
  page (fun _ => 0) 128 [(0, [(2, 0, s.sec.runSlot + 1), (6, 4, next)]), (2, whole (s.slotVersion 0).toNat), (4, whole (s.slotVersion 1).toNat)]

/-- Admin and I/O opcodes of R446 and R447, for log page 0x05. -/
def adminOpcodes (pf : Bool) : List Nat :=
  [0x00, 0x01, 0x02, 0x04, 0x05, 0x06, 0x08, 0x09, 0x0A, 0x0C, 0x18, 0x80, 0x81, 0x82, 0xC1] ++
    if pf then [0x0D, 0x10, 0x11, 0x14, 0x15, 0x1C, 0x1D, 0x1E, 0x84] else []

/-- Log page 0x05: Commands Supported and Effects. -/
def commandsPage (pf : Bool) : List Word :=
  page (Config.logWord 0x05) 1024 ((List.range 512).map fun i =>
    (i, [(0, 0, if i < 256 then (if (adminOpcodes pf).contains i then 1 else 0)
      else if [0x00, 0x01, 0x02, 0x08, 0x09, 0x0C, 0x79, 0x7A, 0x7D].contains (i - 256) then 1 else 0)]))

/-- Log page 0x06: Device Self-test, newest result first. -/
def State.selfTestPage (s : State) : List Word :=
  page (Config.logWord 0x06) 141 ((0, whole 0) :: ((List.range 20).map fun i =>
    match s.host.selfTestLog[i]? with
    | some (code, res, poh) => [(1 + 7 * i, [(3, 0, res), (7, 4, code)]), (2 + 7 * i, whole poh), (3 + 7 * i, whole (poh / 2 ^ 32))]
    | none => [(1 + 7 * i, [(3, 0, 0xF)])]).flatten)

/-- Log page 0x09: Endurance Group Information. -/
def State.endurancePage (s : State) (a : Eng) : List Word :=
  let r := s.eng[a].recv
  page (Config.logWord 0x09) 128
    [(0, [(2, 2, if s.engineFailed a then 1 else 0), (31, 24, if r.spareTotal = 0 then 0 else 100 * (r.spareTotal - r.spareUsed) / r.spareTotal)]),
      (1, [(7, 0, s.host.spareThr)])]

/-- Log page 0x16: Rotational Media Information of an Endurance Group (R459). -/
def State.rotationalPage (s : State) (a : Eng) : List Word :=
  page (Config.logWord 0x16) 128
    [(0, [(15, 0, a.val + 1), (31, 16, 1)]), (2, whole s.spn.startCnt), (3, whole s.spn.startFailCnt), (4, whole s.rst.act[a].loadCnt),
      (5, whole s.rst.act[a].loadFailCnt)]

/-- Seconds a block erase needs for the zones left, at the writer grants of the last revolution (R609); the manual gives no formula
(log 9). -/
def State.eraseTime (s : State) : Nat :=
  let left := ((s.sec.sanitise.filter fun x => x.block).map fun x => x.zonesTotal - x.zonesDone).getD s.media.zones.length
  Config.eraseSeconds left (s.wsl.lastRev s.eng[s.refEngine].reel.stamp.rev)

/-- Log page 0x81: Sanitize Status (R609, R610), with the estimates for block erase and crypto erase. -/
def State.sanitizePage (s : State) : List Word :=
  let sprog := if s.sec.sanitise.isSome then s.sec.sanProg else 0xFFFF
  page (Config.logWord 0x81) 128
    [(0, [(15, 0, sprog), (18, 16, if s.sec.sanitise.isSome then 2 else if s.sec.sanFail then 3 else s.sec.sanStatus)]),
      (3, whole s.eraseTime), (4, whole 60)]

/-- Log page 0x04: Changed Namespace List. -/
def FnState.changedNsPage (x : FnState) : List Word := (x.changedNs.map nw ++ List.replicate 1024 0).take 1024

/-- Log page 0xBF: Changed Zone List of a namespace, with the standard's overflow rule beyond 511 zones (R456). -/
def State.changedZonesPage (s : State) (f : Fn) (nsid : Nat) : List Word :=
  let l := s.host.fns[f].changedZones.filter fun p => p.1 == nsid
  let at_ := fun (z : ZoneNo) =>
    (((s.host.namespaces.find? fun n => n.nsid == nsid).bind fun n => n.zones.findIdx? (· == z)).getD 0) * zoneSize
  if 511 < l.length then (0xFFFF : Word) :: List.replicate 1023 0
  else ([nw l.length, 0] ++ l.flatMap (fun (p : Nat × ZoneNo) => lohi (at_ p.2)) ++ List.replicate 1024 (0 : Word)).take 1024

/-- Log page 0xC0: vendor events (R460); a VF sees only its own. -/
def FnState.vendorPage (x : FnState) (f : Fn) : List Word :=
  let l := x.vendorLog.filter fun e => f.val == 0 || e.fn == f.val
  ((l.flatMap fun (e : VendorEvent) => [mkw [bf 7 0 e.code, bf 15 8 e.level, bf 23 16 e.index, bf 31 24 e.fn], mkw [bf 15 0 e.qid]] ++ lohi e.poh) ++
    List.replicate 256 0).take 256

/-- Pages the module has. -/
def logPages (pf : Bool) : List Nat := [0x00, 0x01, 0x02, 0x03, 0x04, 0x05, 0x06, 0x09, 0x16, 0x81, 0xBF, 0xC0] ++ if pf then [0xC1] else []

/-- The words of a log page; none where the identifier names none. -/
def State.logPage (s : State) (f : Fn) (g : LogReq) : Option (List Word) :=
  let group := (fin? 4 (g.lsi.toNat - 1)).filter fun (a : Eng) => decide (0 < g.lsi.toNat) && s.enginePresent a
  match g.lid.toNat with
  | 0x00 => some (page (fun _ => 0) 256 ((logPages (f.val == 0)).map fun p => (p, [(0, 0, 1)])))
  | 0x01 => some s.host.fns[f].errorPage
  | 0x02 => some (s.smartPage f)
  | 0x03 => some s.slotPage
  | 0x04 => some s.host.fns[f].changedNsPage
  | 0x05 => some (commandsPage (f.val == 0))
  | 0x06 => some s.selfTestPage
  | 0x09 => group.map s.endurancePage
  | 0x16 => group.map s.rotationalPage
  | 0x81 => some s.sanitizePage
  | 0xBF => some (s.changedZonesPage f g.nsid.toNat)
  | 0xC0 => some (s.host.fns[f].vendorPage f)
  | _ => none

/-- A log page has been read without Retain Asynchronous Event: its events are unmasked, the lists of changes clear. -/
def State.logRead (s : State) (f : Fn) (lid nsid : Nat) : State :=
  (s.modFn f fun x =>
    { x with
      masked := x.masked.filter fun m => m.2 != lid
      changedNs := if lid = 0x04 then [] else x.changedNs
      changedZones := if lid = 0xBF then x.changedZones.filter fun p => p.1 != nsid else x.changedZones }).deliverAsync f

/-- GET_LOG_PAGE (R446, R457 to R460, R466, R609, R629, R637). -/
def execGetLogPage (q : AdmReq) (g : LogReq) (s : State) : Out :=
  s.admin q false false (decide (1 ≤ g.lid.toNat ∧ g.lid.toNat ≤ 3)) fun s =>
    if g.off % 4 ≠ 0 ∨ g.len % 4 ≠ 0 then .fail s stInvalidField
    else if g.lid = 0xC1 ∧ (q.fn = 0 ∨ q.mi.isSome) then
      if 24 * 1024 * 1024 < g.off then .fail s stInvalidField
      else { state := s, words := (List.range (g.len / 4)).map fun i => s.regionWord (g.off + 4 * i) }
    else if (g.lid = 0x09 ∨ g.lid = 0x16) ∧ (s.logPage q.fn g).isNone then .fail s stInvalidField
    else match s.logPage q.fn g with
      | none => .fail s (stCmd 0x09)
      | some l =>
        if 4 * l.length < g.off then .fail s stInvalidField
        else
          { state := if g.rae then s else s.logRead q.fn g.lid.toNat g.nsid.toNat
            words := (l.drop (g.off / 4)).take (g.len / 4) }

/-! ### Namespaces (R448 to R452, R588, R591, R593, R680) -/

/-- The namespaces changed, in the registers and in their durable copy. -/
def State.setNamespaces (s : State) (f : List Namespace → List Namespace) : State :=
  let l := f s.host.namespaces
  (s.modHost fun h => { h with namespaces := l }).modNor fun n => { n with namespaces := l }

/-- A media key set or removed, with its wrapped copies in both key sectors (R603). -/
def State.setKey (s : State) (nsid : Nat) (k : Option (BitVec 512)) : State :=
  let f := fun (l : List (Nat × BitVec 512)) => match k with
    | some k => oset l nsid k
    | none => oerase l nsid
  (s.modSec fun x => { x with mediaKeys := f x.mediaKeys }).modNor fun n => { n with mediaKeys := f n.mediaKeys, keyCopy := f n.keyCopy }

/-- A new media key made by the DRBG (R601, R603). -/
def State.newKey (s : State) (nsid : Nat) : State :=
  let (k, s) := s.drbgNext
  (s.setKey nsid (some k)).setNamespaces fun l => l.map fun n => if n.nsid = nsid then { n with keyGen := n.keyGen + 1 } else n

/-- The engine whose identity a function presents (R588). -/
def State.presents (s : State) (f : Fn) : Option Eng :=
  match s.nsAttached f with
  | [] => none
  | n :: t => if n.nvmset ≠ 0 ∧ t.all fun m => m.nvmset == n.nvmset then fin? 4 (n.nvmset - 1) else none

/-- The namespace inventory of some functions has changed: measurement index 9 and their presented identity (R588, R591, R593), and
the Changed Namespace List with its notice where it is enabled. -/
def State.nsChanged (s : State) (fns : BitVec 16) (nsid : Nat) : State :=
  (fins 16).foldl (fun s (f : Fn) =>
    if fns.getLsbD f.val && s.host.fns[f].present then
      let s := s.resynch fun r => r.val == f.val
      let s := s.modFn f fun x => { x with changedNs := if x.changedNs.contains nsid then x.changedNs else x.changedNs ++ [nsid] }
      if (s.host.fns[f].feature 0x0B).getLsbD 8 then s.raiseAsync f ⟨2, 0, 0x04⟩ else s
    else s) (s.healthChange 6)

/-- The contracts of queues that reach a namespace through some functions end (R495). -/
def State.endReaching (s : State) (fns : BitVec 16) : State := s.endContracts fun k => fns.getLsbD k.fn.val

/-- Blocks of the conventional region (R415): CONV_PCT, in 0.1 %, of 50 TB. -/
def State.convBlocks (s : State) : Nat := convRegion s.media.convPct
/-- Those no conventional namespace has. -/
def State.convFree (s : State) : Nat := s.convBlocks - ((s.host.namespaces.filter fun n => !n.zoned).map (·.size)).sum

/-- The free zones of an engine, lowest number first. -/
def State.freeZones (s : State) (a : Eng) : List ZoneNo := ((s.zonesOf a).map (·.1)).filter s.zoneFree

/-- The zones a new zoned namespace takes (R449); none where they do not suffice. -/
def State.takeZones (s : State) (nvmset count : Nat) : Option (List ZoneNo) :=
  let e := max 1 s.layout.engines
  let free := (fins 4).map fun (a : Eng) => s.freeZones a
  (List.range count).mapM fun i =>
    if nvmset = 0 then (free.getD (i % e) [])[i / e]? else (free.getD (nvmset - 1) [])[i]?

/-- The format a request asks for is one the module has (R451). -/
def formatOk (lbaf : BitVec 4) (pi : BitVec 3) : Bool :=
  decide (lbaf.toNat ≤ 1) && (pi == 0 || (lbaf == 1 && (pi == 1 || pi == 3)))

/-- Sanitize in progress or failed: what it keeps from running (R609, R610). -/
def State.sanBlocks (s : State) : Option NvStatus :=
  if s.sec.sanitise.isSome then some (stGen 0x1D false) else if s.sec.sanFail then some (stGen 0x1C true) else none

/-- NAMESPACE_CREATE (R448 to R452, R603). -/
def execNamespaceCreate (q : AdmReq) (n : NsCreate) (s : State) : Out :=
  s.adminOwn q false true false fun s =>
    let zoned := n.csi == 2
    let count := (n.size + zoneSize - 1) / zoneSize
    let set_ := n.nvmset.toNat
    match s.sanBlocks, (List.range 16).find? fun i => !(s.host.namespaces.any fun m => m.nsid == i + 1) with
    | some st, _ => .fail s st
    | none, none => .fail s (stCmd 0x16)
    | none, some i =>
      if !zoned ∧ n.csi ≠ 0 then .fail s (stCmd 0x29)
      else if !formatOk n.lbaf n.pi then .fail s (stCmd 0x0A)
      else if n.size = 0 ∨ (zoned ∧ (4 < set_ ∨ (set_ ≠ 0 ∧ s.layout.engines < set_))) then .fail s stInvalidField
      else
        let base : Namespace :=
          { nsid := i + 1, zoned := zoned, nvmset := if zoned then set_ else 0, size := if zoned then count * zoneSize else n.size
            lbaf := n.lbaf.toNat, piType := n.pi.toNat, piFirst := n.piFirst, extended := n.extended, shared := n.shared, zones := [] }
        let made : Option Namespace :=
          if zoned then (s.takeZones set_ count).map fun zs => { base with zones := zs }
          else if s.convFree < n.size then none else some base
        match made with
        | none => .fail s (stCmd 0x15)
        | some m =>
          let (k, s) := s.drbgNext
          { state := (s.setNamespaces fun l => l ++ [m]).setKey m.nsid (some k), dw0 := nw m.nsid }

/-- The indirection entries of a conventional namespace are cleared: the writes started before keep their copies until they are durable
and set no entry (R33, R485, R608). -/
def State.clearIndir (s : State) (nsid : Nat) : State :=
  s.modMedia fun m => { m with indir := m.indir.filter fun p => p.1 / 2 ^ 40 != nsid, cleared := oset m.cleared nsid s.q.startNo }

/-- A namespace's writes in the buffers go as a sanitise zeroes them (R606). -/
def State.dropWrites (s : State) (nsid : Nat) : State :=
  s.views.foldl (fun s v =>
    if v.nsid = nsid then
      let s := s.modQ fun q => { q with staging := q.staging - stagedCodewords v.blocks }
      s.modView v.startNo fun l => l.map fun b => { b with durable := true, codeword := none }
    else s) s

/-- The content of a namespace goes: its zones that are not OFFLINE are reset, or its indirection is cleared (R411, R607, R608,
R680). -/
def State.emptyNamespace (s : State) (n : Namespace) : State :=
  if n.zoned then n.zones.foldl (fun s z => if (s.zoneDesc z).zs = .offline then s else s.resetZone z) s
  else s.clearIndir n.nsid

/-- A namespace is deleted (R452, R495, R680). -/
def State.deleteNamespace (s : State) (n : Namespace) : State :=
  let s := s.endReaching n.attached
  let s := s.emptyNamespace n
  let s := (s.setKey n.nsid none).setNamespaces fun l => l.filter fun m => m.nsid != n.nsid
  s.nsChanged n.attached n.nsid

/-- NAMESPACE_DELETE (R452, R680). -/
def execNamespaceDelete (q : AdmReq) (nsid : Word) (s : State) : Out :=
  s.adminOwn q false true false fun s =>
    match s.sanBlocks with
    | some st => .fail s st
    | none =>
      if nsid = 0xFFFFFFFF then { state := s.host.namespaces.foldl (fun s n => s.deleteNamespace n) s }
      else match s.host.namespaces.find? fun n => n.nsid == nsid.toNat with
        | none => .fail s (stGen 0x0B true)
        | some n => if n.format.isSome then .fail s (stGen 0x84 false) else { state := s.deleteNamespace n }

/-- The controllers of a list that exist. -/
def State.controllersOk (s : State) (fns : BitVec 16) : Bool :=
  fns != 0 && (fins 16).all fun (f : Fn) => !fns.getLsbD f.val || s.host.fns[f].present

/-- NAMESPACE_ATTACH (R448, R588). -/
def execNamespaceAttach (q : AdmReq) (nsid : Word) (fns : BitVec 16) (s : State) : Out :=
  s.adminOwn q false true false fun s =>
    match s.host.namespaces.find? fun n => n.nsid == nsid.toNat with
    | none => .fail s (stGen 0x0B true)
    | some n =>
      if !s.controllersOk fns then .fail s (stCmd 0x1C)
      else if n.attached &&& fns ≠ 0 then .fail s (stCmd 0x18)
      else if !n.shared ∧ 1 < popcount 16 (n.attached ||| fns).toNat then .fail s (stCmd 0x19)
      else
        let s := s.setNamespaces fun l => l.map fun m => if m.nsid = n.nsid then { m with attached := m.attached ||| fns } else m
        { state := s.nsChanged fns n.nsid }

/-- NAMESPACE_DETACH (R448, R495). -/
def execNamespaceDetach (q : AdmReq) (nsid : Word) (fns : BitVec 16) (s : State) : Out :=
  s.adminOwn q false true false fun s =>
    match s.host.namespaces.find? fun n => n.nsid == nsid.toNat with
    | none => .fail s (stGen 0x0B true)
    | some n =>
      if !s.controllersOk fns then .fail s (stCmd 0x1C)
      else if n.attached &&& fns ≠ fns then .fail s (stCmd 0x1A)
      else
        let s := s.endReaching fns
        let s := s.setNamespaces fun l => l.map fun m => if m.nsid = n.nsid then { m with attached := m.attached &&& ~~~fns } else m
        { state := s.nsChanged fns n.nsid }

/-! ### Format NVM (R446, R451, R607 to R609) -/

/-- The namespaces a Format names: one, or every one attached to the controller. -/
def State.formatTargets (s : State) (f : Fn) (nsid : Word) : List Namespace :=
  if nsid = 0xFFFFFFFF then s.nsAttached f else (s.host.namespaces.filter fun n => n.nsid == nsid.toNat && (f.val == 0 || n.attached.getLsbD f.val))

/-- A VF formats and secures only namespaces attached to it alone (R446). -/
def State.aloneOk (s : State) (f : Fn) (l : List Namespace) : Bool := f.val == 0 || l.all fun n => n.attached == (1 : BitVec 16) <<< f.val

/-- One namespace is formatted (R607, R608): SES 1 and 2 replace its key; its content goes, the new format applies. -/
def State.formatOne (s : State) (n : FormatReq) (m : Namespace) : State :=
  let s := if n.ses = 0 then s else s.newKey m.nsid
  let s := s.emptyNamespace m
  s.setNamespaces fun l => l.map fun y =>
    if y.nsid = m.nsid then
      { y with lbaf := n.lbaf.toNat, piType := n.pi.toNat, piFirst := n.piFirst, extended := n.extended, format := some 0 }
    else y

/-- FORMAT_NVM (R446, R451, R607 to R609): the operation starts, with its record in the configuration area; FORMAT_COMPLETE ends it. -/
def execFormatNvm (q : AdmReq) (n : FormatReq) (s : State) : Out :=
  s.admin q false false false fun s =>
    let l := s.formatTargets q.fn n.nsid
    match s.sanBlocks with
    | some st => .fail s st
    | none =>
      if n.nsid ≠ 0xFFFFFFFF ∧ l.isEmpty then .fail s (stGen 0x0B true)
      else if !s.aloneOk q.fn l then .fail s stInvalidOpcode
      else if !formatOk n.lbaf n.pi then .fail s (stCmd 0x0A)
      else if 2 < n.ses.toNat then .fail s stInvalidField
      else if l.any fun m => m.format.isSome then .fail s (stGen 0x84 false)
      else
        let ids := l.map (·.nsid)
        let s := l.foldl (fun s m => s.formatOne n m) s
        let s := s.applyChanges ids
        let s := s.modNor fun x => { x with formats := l.foldl (fun f m => oset f m.nsid (m.zones.length / 64 * 64)) x.formats }
        { state := s.modSec fun x => { x with fmtCmds := x.fmtCmds ++ [(q.fn, q.cid, q.mi, ids)], fmtProg := 65535 }, status := none }

/-- A format of some namespaces has ended: their records and marks go. -/
def State.endFormat (s : State) (ids : List Nat) : State :=
  let s := s.setNamespaces fun l => l.map fun m => if ids.contains m.nsid then { m with format := none } else m
  let s := s.modNor fun x => { x with formats := x.formats.filter fun p => !ids.contains p.1 }
  s.modSec fun x => { x with fmtProg := 0 }

/-- FORMAT_COMPLETE (R608, R609): the oldest format in progress ends and its command completes; one whose command a reset discarded,
or that was resumed at start, ends in silence. It ends once the writes its zones had before are durable (R33, log 17). -/
def execFormatComplete (s : State) : Out :=
  .next (
    let ids := match s.sec.fmtCmds with
      | (_, _, _, ids) :: _ => ids
      | [] => (s.host.namespaces.filter fun n => n.format.isSome).map (·.nsid)
    if s.oldPending fun z => s.host.namespaces.any fun n => ids.contains n.nsid && n.zones.contains z then s
    else match s.sec.fmtCmds with
      | (f, cid, mi, ids) :: t =>
        (((s.modSec fun x => { x with fmtCmds := t }).applyChanges ids).endFormat ids).answerAdmin { fn := f, cid := cid, mi := mi } stOk 0 []
      | [] => (s.applyChanges ids).endFormat ids)

/-! ### Sanitize (R606, R609, R610) -/

/-- Every raw sample, retained stream and decode of a recovery job with zeros (R606). -/
def RecJob.zeroed (x : RecJob) : RecJob :=
  { x with
    za := x.za.map fun b => { b with z := 0 }, zb := x.zb.map fun b => { b with z := 0 }, cap := x.cap.map fun p => (p.1, p.2.1, 0)
    capsHeld := x.capsHeld.map fun l => l.map fun p => (p.1, p.2.1, 0) }

/-- Whole-module crypto erase (R606): every key is replaced, every zone reset, remaps and indirection cleared; the host data buffers, the
media staging, the raw-sample captures and the trace staging are written with zeros. -/
def State.cryptoErase (s : State) : State :=
  let s := (s.host.namespaces.foldl (fun s n => (s.newKey n.nsid).dropWrites n.nsid) s).dropWrites 0
  let s := s.media.zones.foldl (fun s p =>
    let zs := (s.zoneDesc p.1).zs
    if zs = .none ∨ zs = .offline then s else s.resetZone p.1) s
  let none4 : Vector (List Remap) 4 := Vector.replicate 4 []
  let s := (s.modMedia fun m => { m with indir := [], remaps := none4, groups := Vector.replicate 4 [] }).modNor fun n =>
    { n with remaps := none4, image := none }
  let zero := fun (l : List BlockState) => l.map fun x => { x with data := {}, codeword := x.codeword.map fun _ => 0 }
  let s := (fins 4).foldl (fun s (a : Eng) => s.modRec a fun r => { r with jobs := r.jobs.map fun j => j.map RecJob.zeroed }) s
  (s.modTrc fun t => { t with captures := [] }).modQ fun q =>
    { q with
      buffered := q.buffered.map fun b => { b with blocks := zero b.blocks }
      ctxs := q.ctxs.map fun p => (p.1, { p.2 with blocks := zero p.2.blocks }) }

/-- Where each head's block erase begins: its engine's first track; a head that is not there or depopulated writes nothing (R606). -/
def State.eraseStart (s : State) : Vector (Option (Nat × Nat)) 24 :=
  Vector.ofFn fun (g : Head) => match s.localHead g with
    | some (a, h) => if s.head[g].map.depop then none else s.eraseFrom a h 0
    | none => none

/-- A sanitise starts (R606, R609, R610): its record is written, the crypto erase done, the block erase begins; SAN_FAIL clears. -/
def State.startSanitise (s : State) (block ause : Bool) : State :=
  let n := s.media.zones.length
  let x : Sanitise :=
    if block then { block := true, ause := ause, zonesTotal := n, next := s.eraseStart } else { block := false, ause := ause, zonesTotal := n, zonesDone := n }
  let s := s.cryptoErase
  (s.modSec fun y => { y with sanitise := some x, sanProg := x.share, sanFail := false, sanUnrestricted := ause, sanStatus := 0 }).modNor fun n =>
    { n with sanitise := some x }

/-- A Sanitize is accepted: none and no format is in progress. -/
def State.sanitize (s : State) (q : AdmReq) (block ause : Bool) : Out :=
  s.admin q false true false fun s =>
    if s.sec.sanitise.isSome then .fail s (stGen 0x1D false)
    else if 0 < s.formatting then .fail s (stGen 0x84 false)
    else if s.sec.commit.isSome then .fail s (stCmd 0x13)
    else if s.sec.sanFail ∧ !s.sec.sanUnrestricted ∧ ause then .fail s (stGen 0x1C true)
    else { state := s.startSanitise block ause }

/-- SANITIZE_CRYPTO_ERASE (R606). -/
def execSanitizeCryptoErase (q : AdmReq) (ause : Bool) (s : State) : Out := s.sanitize q false ause
/-- SANITIZE_BLOCK_ERASE (R606). -/
def execSanitizeBlockErase (q : AdmReq) (ause : Bool) (s : State) : Out := s.sanitize q true ause

/-- SANITIZE_EXIT_FAILURE_MODE (R610): leaves the failed state, where the failed Sanitize allowed an unrestricted exit. -/
def execSanitizeExitFailureMode (q : AdmReq) (s : State) : Out :=
  s.admin q false true false fun s =>
    if s.sec.sanitise.isSome then .fail s (stGen 0x1D false)
    else if s.sec.sanFail ∧ !s.sec.sanUnrestricted then .fail s (stGen 0x1C true)
    else { state := s.modSec fun x => { x with sanFail := false } }

/-- SANITIZE_OVERWRITE (R606). -/
def execSanitizeOverwrite (q : AdmReq) (s : State) : Out := s.admin q false true false fun s => .fail s stInvalidField

/-- SANITIZE_COMPLETE (R609, R610): the sanitise ends; a block erase once it has written every track, or, `ok` false, where it could not
write one. -/
def execSanitizeComplete (ok : Bool) (s : State) : Out :=
  .next (
    match s.sec.sanitise with
    | none => s
    | some x =>
      let good := ok || !x.block
      if x.block && ok && x.next.toList.any (·.isSome) then s else
      let s := s.modSec fun y => { y with sanitise := none, sanFail := !good, sanProg := 0, sanStatus := if good then 1 else 3 }
      let s := s.modNor fun n => { n with sanitise := none }
      s.raiseAsync 0 ⟨6, 1, 0x81⟩)

/-! ### Device self-test and virtualisation (R446, R471, R472) -/

/-- DEVICE_SELF_TEST (R446): a test ends within its command and passes (log 24). -/
def execDeviceSelfTest (q : AdmReq) (nsid : Word) (stc : Fin 16) (s : State) : Out :=
  s.adminOwn q false true false fun s =>
    if nsid ≠ 0 ∧ nsid ≠ 0xFFFFFFFF ∧ !(s.host.namespaces.any fun n => n.nsid == nsid.toNat) then .fail s (stGen 0x0B true)
    else if stc.val = 0xF then { state := s }
    else if stc.val = 1 ∨ stc.val = 2 then
      { state := s.modHost fun h => { h with selfTestLog := ((stc.val, 0, s.rst.poh / 1024) :: h.selfTestLog).take 20 } }
    else .fail s stInvalidField

/-- Flexible queue pairs not assigned, one function's own left out. -/
def State.pairsLeft (s : State) (f : Fn) : Nat := 64512 - ((fins 16).map fun (g : Fn) => if g = f then 0 else s.nor.pairs[g]).sum

/-- VIRTUALIZATION_MANAGEMENT (R471, R472): 1 primary flexible allocation, 7 secondary offline, 8 secondary assignment, 9 secondary
online. -/
def execVirtualizationManagement (q : AdmReq) (v : VirtReq) (s : State) : Out :=
  s.adminOwn q false true false fun s =>
    let n := v.n.toNat
    match v.act.toNat, fin? 16 (v.cntlid.toNat - 1) with
    | 1, some f =>
      if f ≠ 0 ∨ v.cntlid = 0 then .fail s (stCmd 0x1F)
      else if v.interrupt then if n = 0 then { state := s } else .fail s (stCmd 0x21)
      else if s.pairsLeft 0 < n then .fail s (stCmd 0x21)
      else { state := s.modNor fun x => { x with pairs := vset x.pairs 0 n }, dw0 := nw n }
    | a, some f =>
      if f = 0 then .fail s (if v.cntlid = 0 ∨ a = 7 ∨ a = 8 ∨ a = 9 then stCmd 0x1F else stInvalidField)
      else if a = 7 then
        let s := if s.host.fns[f].present then s.resetFn f else s
        { state := s.modFn f fun x => { x with online := false } }
      else if a = 8 then
        if v.interrupt ∧ n ≠ 2048 then .fail s stInvalidField
        else if s.host.fns[f].online then .fail s (stCmd 0x20)
        else if v.interrupt then { state := s, dw0 := nw n }
        else if 32768 < n ∨ s.pairsLeft f < n then .fail s (stCmd 0x21)
        else { state := (s.modNor fun x => { x with pairs := vset x.pairs f n }).modFn f fun x => { x with pairs := n }, dw0 := nw n }
      else if a = 9 then
        if s.host.fns[f].pairs < 2 then .fail s (stCmd 0x20)
        else { state := s.modFn f fun x => { x with online := true } }
      else .fail s stInvalidField
    | _, none => .fail s (stCmd 0x1F)

end Sys2Proof.Machine
end

