-- ==== Sys2Proof/Machine/Security.lean ====
section
/-! DEFINITION. Identity, attestation and firmware (spec/18_security_firmware.md): firmware download, commit and hitless activation,
rollback, SPDM, Opal, debug unlock, and the five security packets. -/

namespace Sys2Proof.Machine
open Sys2Proof

/-! ### Checks and rollback (R583, R596) -/

/-- A signed object has failed its checks (R583): counted, with one event. -/
def State.objFailed (s : State) (status : Nat) : State :=
  let reg := if status = 0x0404 then 0x40044 else 0x40040
  let old := if status = 0x0404 then s.sec.rollRejCnt else s.sec.sigFailCnt
  let s := s.modSec fun x =>
    if status = 0x0404 then { x with rollRejCnt := inc 32 x.rollRejCnt } else { x with sigFailCnt := inc 32 x.sigFailCnt }
  (s.saturated (reaches 32 old) 0x11 5 0 reg (nw (inc 32 old))).condSec

/-- Firmware Commit status of a failing check (R583). -/
def commitStatus (status : Nat) : NvStatus := if status = 0x0404 then stCmd 0x13 else stCmd 0x07

/-- ROLLBACK_RAISE (R596): to a target no higher than the SVN of the running image and of the image in the ACT_SLOT slot. The target is
written to RAISE_PEND, the fuses are blown one at a time, and RAISE_PEND clears; a lower target changes nothing. -/
def State.raiseRoll (s : State) (target : Nat) : State :=
  if s.fuse.rollCtr < target ∧ target ≤ 128 then
    let s := { s with fuse := { s.fuse with rollCtr := target } }
    (s.modNor fun n => { n with raisePend := none }).modSec fun x => { x with raisePend := none }
  else s

/-- A target the module never exceeds (R596). -/
def State.raiseAllowed (s : State) (target : Nat) : Bool :=
  decide (target ≤ s.sec.running.svn) && decide (target ≤ s.slotSvn s.nor.actSlot)

/-- What a module-alias generation certifies (R584, R587): the loader and the image its key comes from. -/
def State.aliasMeasure (s : State) : BitVec 384 :=
  Config.sha384 [(Config.loaderDigest s.sec.loader).toNat, (Config.sha384 [s.keyHeader]).toNat]

/-- ALIAS_GEN advances (R587): the certificates of the last 8 generations are kept; one equal to the one before it is not stored
again. -/
def State.advanceAlias (s : State) : State :=
  let g := (s.sec.aliasGen + 1) % 256
  let m := s.aliasMeasure
  let l := match s.sec.aliasGens with
    | (h, d) :: t => if d = m then (g, d) :: t else (g, m) :: (h, d) :: t
    | [] => [(g, m)]
  (s.modSec fun x => { x with aliasGen := g, aliasGens := l.take 8 }).modNor fun n => { n with aliasGens := l.take 8 }

/-! ### Download and commit (R597 to R599) -/

/-- FIRMWARE_IMAGE_DOWNLOAD (R597): 4 KiB pieces into the 16 MiB staging buffer; it waits while a commit is in progress. -/
def execFirmwareImageDownload (q : AdmReq) (d : Download) (s : State) : Out :=
  if s.sec.commit.isSome then .next s
  else
    s.admin q false true true fun s =>
      if d.off % 4096 ≠ 0 ∨ d.len % 4096 ≠ 0 ∨ slotBytes < d.off + d.len then .fail s stInvalidField
      else { state := s.modSec fun x => { x with staged := some d.obj, stagedLen := max x.stagedLen (d.off + d.len) } }

/-- The NOR slot a commit names (R598): slot 0 of the command is the one not running; none for a slot the module does not have. -/
def State.namedSlot (s : State) (slot : Fin 8) : Option Nat :=
  if slot.val = 0 then some (1 - s.sec.runSlot) else if slot.val ≤ 2 then some (slot.val - 1) else none

/-- The first check of R583 that the staged object fails; with nothing staged the form check. -/
def State.stagedCheck (s : State) (t : ObjType) : Option Nat :=
  match s.sec.staged with
  | some o => s.objCheck o t s.sec.stagedLen
  | none => some 0x0105

/-- An image commit that passed its checks starts (R599 step 2): the slot is erased and programmed; FIRMWARE_SLOT_PROGRAMMED ends it. -/
def State.startCommit (s : State) (q : AdmReq) (slot action : Nat) (o : SignedObj) : State :=
  (s.modSec fun x => { x with commit := some { obj := o, slot := slot, action := action, fn := q.fn, cid := q.cid, mi := q.mi }, actState := .programming }).modNor
    fun n => { n with slots := if h : slot < 2 then n.slots.set slot none else n.slots }

/-- A commit whose action writes a slot with the staged image (R598). -/
def State.commitImage (s : State) (q : AdmReq) (slot : Fin 8) (action : Nat) : AdmRes :=
  match s.namedSlot slot with
  | none => .fail s (stCmd 0x06)
  | some n =>
    if n = s.sec.runSlot ∧ !s.rst.recovery then .fail s (stCmd 0x06)
    else
      match s.stagedCheck .image, s.sec.staged with
      | none, some o => { state := s.startCommit q n action o, status := none }
      | some st, _ => .fail (s.objFailed st) (commitStatus st)
      | none, none => .fail s (stCmd 0x07)

/-- A patch that passed its checks (R398, R598): it joins the patch store, and every sequencer is asked to take its words in a hold;
the commit ends with the last of them. -/
def State.commitPatch (s : State) (q : AdmReq) (o : SignedObj) : State :=
  let s := s.modNor fun n => { n with patches := n.patches ++ [o] }
  let s := (fins 4).foldl (fun s (a : Eng) =>
    if s.enginePresent a && s.eng[a].seq.state != .off && s.eng[a].seq.state != .failed then
      s.modSeq a fun x =>
        let before := ((x.holdImage.map fun p => p.2.2).getD [])
        { x with holdReq := true, holdImage := some (o.storeVer, o.patchLvl, before ++ o.words) }
    else s) s
  (s.modSec fun x => { x with commit := some { obj := o, slot := 2, action := 3, fn := q.fn, cid := q.cid, mi := q.mi } }).patchApplied

/-- FW_COMMIT_WRITE_SLOT (R598, CA 0b000). -/
def execFwCommitWriteSlot (q : AdmReq) (slot : Fin 8) (s : State) : Out :=
  if s.sec.commit.isSome then .next s else s.admin q false true false fun s => s.commitImage q slot 0

/-- FW_COMMIT_WRITE_ACTIVATE_NEXT (R598, CA 0b001). -/
def execFwCommitWriteActivateNext (q : AdmReq) (slot : Fin 8) (s : State) : Out :=
  if s.sec.commit.isSome then .next s else s.admin q false true true fun s => s.commitImage q slot 1

/-- In recovery mode a commit that ends with success is followed by a power-on reset with CAUSE 3 (R637). -/
def State.afterCommit (s : State) : State := if s.rst.recovery then s.modRst fun r => { r with resetDue := some 3 } else s

/-- FW_COMMIT_ACTIVATE_SLOT (R598, CA 0b010): the named slot is verified and starts next. -/
def execFwCommitActivateSlot (q : AdmReq) (slot : Fin 8) (s : State) : Out :=
  if s.sec.commit.isSome then .next s
  else
    s.admin q false true true fun s =>
      match s.namedSlot slot with
      | none => .fail s (stCmd 0x06)
      | some n =>
        let bad := match vget s.nor.slots n none with
          | some o => s.objCheck o .image slotBytes
          | none => some 0x0105
        match bad with
        | some st => .fail (s.objFailed st) (commitStatus st)
        | none => { state := (s.modNor fun x => { x with actSlot := n }).afterCommit }

/-- FW_COMMIT_ACTIVATE_NOW (R598, R599, CA 0b011): not while a sanitise or format is in progress; a patch is applied under R398. -/
def execFwCommitActivateNow (q : AdmReq) (slot : Fin 8) (s : State) : Out :=
  if s.sec.commit.isSome then .next s
  else
    s.admin q false true false fun s =>
      if s.sec.sanitise.isSome ∨ 0 < s.formatting then .fail s (stCmd 0x13)
      else
        match s.sec.staged with
        | some o =>
          if o.otype = ObjType.patch.code then
            match s.stagedCheck .patch with
            | some st => .fail (s.objFailed st) (commitStatus st)
            | none => { state := s.commitPatch q o, status := none }
          else s.commitImage q slot 3
        | none => s.commitImage q slot 3

/-- The commit in progress ends with a status (R598); a reset of its function took its completion away (R504). -/
def State.endCommit (s : State) (c : Commit) (st : NvStatus) : State :=
  let s := s.modSec fun x => { x with commit := none }
  let s := if c.orphan then s else s.finishAdmin { fn := c.fn, cid := c.cid, mi := c.mi } st 0 []
  if st = stOk then s.afterCommit else s

/-- The pause of a hitless activation begins (R599 steps 5 and 6, R505): ACT_SLOT is durable, command starts stop, Firmware Activation
Starting is sent where enabled, each sequencer is asked to take a store of another version, and the cores switch. -/
def State.switchImage (s : State) (c : Commit) : State :=
  let old := s.sec.running
  let s := s.modNor fun n => { n with actSlot := c.slot }
  let s := s.modSec fun x =>
    { x with
      running := c.obj, runSlot := c.slot, pausing := true, actState := .pause
      retiring := some (s.q.startNo, (x.retiring.map (·.2)).getD old.header) }
  let s := s.modQ fun q => { q with ctxs := q.ctxs.map fun p => (p.1, { p.2 with activation := true }) }
  let s := (fins 16).foldl (fun s (f : Fn) =>
    if s.host.fns[f].present && (s.host.fns[f].feature 0x0B).getLsbD 9 then s.raiseAsync f ⟨2, 1, 0x03⟩ else s) s
  let s := if old.storeVer = c.obj.storeVer then s else (fins 4).foldl (fun s (a : Eng) =>
    if s.enginePresent a && s.eng[a].seq.state != .off && s.eng[a].seq.state != .failed then
      s.modSeq a fun x =>
        { x with holdReq := true, holdImage := some (c.obj.storeVer, s.storeLevel, s.storeCopy.map fun p => (p.1, p.2.word)) }
    else s) s
  s.resynch fun _ => true

/-- FIRMWARE_SLOT_PROGRAMMED (R598, R599): the slot is programmed; whether its read-back checks and, for CA 0b011, the new image
passes its self-test. A failure ends the commit with Invalid Firmware Image. -/
def execFirmwareSlotProgrammed (readBackOk selfTestOk : Bool) (s : State) : Out :=
  .next (
    match s.sec.commit with
    | none => s
    | some c =>
      if c.obj.otype ≠ ObjType.image.code ∨ s.sec.actState ≠ .programming then s
      else if !readBackOk ∨ (c.action = 3 ∧ !selfTestOk) then
        (s.modSec fun x => { x with actState := if x.retiring.isSome then .pause else .idle }).endCommit c (stCmd 0x07)
      else
        let s := s.modNor fun n => { n with slots := if h : c.slot < 2 then n.slots.set c.slot (some c.obj) else n.slots }
        if c.action = 3 then s.switchImage c
        else
          let s := if c.action = 1 then s.modNor fun n => { n with actSlot := c.slot } else s
          (s.modSec fun x => { x with actState := if x.retiring.isSome then .pause else .idle }).endCommit c stOk)

/-- FW_ACTIVATION_PAUSE_END (R599 step 7): CSTS.PP clears and the commit completes. -/
def execFwActivationPauseEnd (s : State) : Out :=
  .next (if s.sec.pausing then
      let s := (s.modSec fun x => { x with pausing := false }).healthChange 7
      match s.sec.commit with
      | some c => if c.action = 3 ∧ c.obj.otype = ObjType.image.code then s.endCommit c stOk else s
      | none => s
    else s)

/-- IMAGE_RETIRE (R599 step 8): the last context under the old image has completed. ALIAS_GEN advances, connections resynchronise,
the revocations the new image names are blown, and RAISE_SVN raises ROLL_CTR. -/
def execImageRetire (s : State) : Out :=
  .next (
    match s.sec.retiring with
    | none => s
    | some (n, _) =>
      if s.sec.pausing ∨ s.q.ctxs.any (fun p => p.2.started && decide (p.2.startNo ≤ n)) then s
      else
        let s := (s.modSec fun x => { x with retiring := none, actState := if x.commit.isSome then x.actState else .idle }).advanceAlias
        let s := s.resynch fun _ => true
        let o := s.sec.running
        let s := { s with fuse := { s.fuse with revoked := s.fuse.revoked ||| o.revokes } }
        if o.raiseSvn && s.raiseAllowed o.svn then s.raiseRoll o.svn else s)

/-! ### SPDM (R588 to R593) -/

/-- SPDM response codes. -/
def spdmError : Nat := 0x7F

/-- An ERROR response. -/
def SpdmResponse.error (code : Nat) : SpdmResponse := { code := spdmError, param1 := code }

/-- The responder answers: functions present, and the MCTP endpoint once the main firmware runs, outside recovery mode (R637). -/
def State.responder (s : State) (r : SpdmIx) : Bool :=
  match fin? 16 r.val with
  | some f => s.host.fns[f].present
  | none => !s.rst.phase.early && !s.rst.recovery

/-- The engine whose identity a responder presents (R588). -/
def State.presentedEngine (s : State) (r : SpdmIx) : Option Eng := (fin? 16 r.val).bind s.presents

/-- The identity of a responder's certificate slot (R589): slot 1 only where an engine is presented. -/
def State.slotIdentity (s : State) (r : SpdmIx) (slot : Nat) : Option Identity :=
  match slot, s.presentedEngine r with
  | 0, some a => some (.engine a)
  | 0, none => some .module
  | 1, some _ => some .module
  | _, _ => none

/-- The certificates from the Celquemar root to an identity, by their numbers in Config, with what they certify (R584, R589). -/
def State.chainOf (s : State) (i : Identity) : List (Nat × BitVec 384) :=
  let l1 := Config.sha384 [(Config.loaderDigest s.sec.loader).toNat]
  let m := s.aliasMeasure
  let up := [(7, 0), (0, 0), (1, l1)]
  match i with
  | .device => up.take 2
  | .layer1 => up
  | .module => up ++ [(2, m)]
  | .engine a => up ++ [(2, m), (3 + a.val, m)]

/-- The bytes of a certificate. -/
def certBytes (which : Nat) (ml : Bool) (m : BitVec 384) : List Nat :=
  (List.range (Config.certLen which ml m)).map fun n => (Config.certByte which ml m n).toNat

/-- A chain as SPDM carries it: length, the root's digest, the certificates. -/
def State.chainBytes (s : State) (i : Identity) (ml : Bool) : List Nat :=
  let certs := (s.chainOf i).map fun c => certBytes c.1 ml c.2
  let body := certs.flatten
  leBytes 2 (52 + body.length) ++ [0, 0] ++ leBytes 48 (Config.sha384 (certs.headD [])).toNat ++ body

/-- A message as the one number its signature covers. -/
def messageOf (l : List Nat) : Nat := (Config.sha384 l).toNat

/-- A request of a responder (R589, R593): after a change the connection is told to resynchronise; out of its place in the
connection a request is unexpected. The body answers with the response and, when signed, the slot and message signed (R590). -/
def State.spdm (s : State) (r : SpdmIx) (code : Nat) (place : SpdmPhase → Bool) (body : State → State × SpdmResponse × Option (Nat × Nat)) :
    Out :=
  if !s.responder r then .next s
  else
    let mod := fun (s : State) (f : SpdmResp → SpdmResp) => s.modSec fun x => { x with spdm := vmod x.spdm r f }
    let x := s.sec.spdm[r]
    let answer := fun (s : State) (p : SpdmResponse) => s.modOut fun o => { o with spdm := (r, p) :: o.spdm }
    if x.resynch && x.phase != .start then
      .next (answer (mod s fun y => { y with phase := .start, resynch := false, sessions := [], lastSigned := none }) (.error 0x43))
    else if !place x.phase then .next (answer (mod s fun y => { y with lastSigned := none }) (.error 0x04))
    else
      let (s, p, signed) := body (mod s fun y => { y with resynch := false })
      .next (answer (mod s fun y =>
        { y with
          lastSigned := signed
          transcript := messageOf [y.transcript, code, p.code, p.param1, p.param2, p.payload] }) p)

/-- Change a responder. -/
def State.modSpdm (s : State) (r : SpdmIx) (f : SpdmResp → SpdmResp) : State := s.modSec fun x => { x with spdm := vmod x.spdm r f }

/-- The place of the requests that need a negotiated connection. -/
def negotiated (p : SpdmPhase) : Bool := p == .negotiated

/-- GET_VERSION (R589): 1.2 only; a new connection. -/
def execGetVersion (r : SpdmIx) (s : State) : Out :=
  s.spdm r 0x84 (fun _ => true) fun s =>
    (s.modSpdm r fun x => { x with phase := .version, sessions := [], transcript := 0 }, { code := 0x04, payload := 0x1200 }, none)

/-- GET_CAPABILITIES (R589): certificates, challenge, signed measurements, encryption, message authentication, key exchange,
heartbeat and key update. -/
def execGetCapabilities (r : SpdmIx) (s : State) : Out :=
  s.spdm r 0xE1 (· == .version) fun s =>
    (s.modSpdm r fun x => { x with phase := .capabilities }, { code := 0x61, payload := 0x62F6 }, none)

/-- NEGOTIATE_ALGORITHMS (R589): the four algorithms the responders have. -/
def execNegotiateAlgorithms (r : SpdmIx) (n : SpdmAlgs) (s : State) : Out :=
  s.spdm r 0xE3 (· == .capabilities) fun s =>
    if n.ed25519 && n.sha384 && n.secp384r1 && n.aes256gcm then
      (s.modSpdm r fun x => { x with phase := .negotiated }, { code := 0x63 }, none)
    else (s, .error 0x01, none)

/-- GET_DIGESTS (R589): the slots present and the digest of each chain. -/
def execGetDigests (r : SpdmIx) (s : State) : Out :=
  s.spdm r 0x81 negotiated fun s =>
    let ids := [0, 1].filterMap fun n => s.slotIdentity r n
    let digs := ids.map fun i => (Config.sha384 (s.chainBytes i false)).toNat
    (s, { code := 0x01, param2 := 2 ^ ids.length - 1, payload := bytesNat (digs.flatMap (leBytes 48)) }, none)

/-- A part of a chain: what is left after it, and its bytes; none beyond the end. -/
def chainPart (l : List Nat) (off len : Nat) : Option (Nat × List Nat) :=
  if l.length ≤ off then none else some (l.length - (off + len), (l.drop off).take len)

/-- GET_CERTIFICATE (R589). -/
def execGetCertificate (r : SpdmIx) (slot : Fin 8) (off len : BitVec 16) (s : State) : Out :=
  s.spdm r 0x82 negotiated fun s =>
    match (s.slotIdentity r slot.val).bind fun i => chainPart (s.chainBytes i false) off.toNat len.toNat with
    | some (left, l) => (s, { code := 0x02, param1 := slot.val, payload := bytesNat (leBytes 2 l.length ++ leBytes 2 left ++ l) }, none)
    | none => (s, .error 0x01, none)

/-- The digest of an engine's sequencer store as patched. -/
def State.storeDigest (s : State) (a : Eng) : Nat :=
  (Config.sha384 (s.eng[a].seq.store.flatMap fun p => [p.1, p.2.word.toNat])).toNat

/-- The value of a measurement block (R591), as bytes. -/
def State.measureValue (s : State) (r : SpdmIx) (i : Nat) : List Nat :=
  match i with
  | 1 => leBytes 48 Config.romDigest.toNat
  | 2 => leBytes 48 (Config.loaderDigest s.sec.loader).toNat
  | 3 => leBytes 48 (Config.sha384 [s.sec.running.header]).toNat
  | 4 => leBytes 4 s.sec.running.version.toNat
  | 5 => leBytes 8 s.sec.running.svn ++ leBytes 8 s.fuse.rollCtr
  | 6 => match s.presentedEngine r with
    | some a => leBytes 2 s.eng[a].seq.storeVer ++ leBytes 1 s.eng[a].seq.patchLvl ++ leBytes 48 (s.storeDigest a)
    | none => leBytes 48 (Config.sha384 (((fins 4).filter s.enginePresent).map s.storeDigest)).toNat
  | 7 =>
    let on := s.sec.dbgUnlock
    leBytes 4 0x04 ++ leBytes 4 0x04 ++ leBytes 4 0x02 ++ leBytes 4 (if on then 0x02 else 0) ++ [if on then s.sec.dbgScope else 0]
  | 8 =>
    let depop := ((fins 24).map fun (g : Head) => if s.head[g].map.depop then 2 ^ g.val else 0).sum
    let failed := ((fins 4).map fun (a : Eng) => if s.eng[a].core.failed then 2 ^ a.val else 0).sum
    [s.layout.engines - 2] ++ ((List.range 4).map s.layout.count) ++ leBytes 3 depop ++ [failed] ++ leBytes 2 s.fuse.stepping.toNat
  | _ =>
    (((fin? 16 r.val).map s.nsAttached).getD []).flatMap fun n =>
      leBytes 4 n.nsid ++ [n.nvmset, (if s.locked n.nsid false then 1 else 0) + (if s.locked n.nsid true then 2 else 0)]

/-- The DMTF value types of the blocks. -/
def measureType (i : Nat) : Nat := ([0x00, 0x01, 0x01, 0x86, 0x87, 0x83, 0x85, 0x82, 0x83] : List Nat).getD (i - 1) 0

/-- A measurement block with its headers. -/
def State.measureBlock (s : State) (r : SpdmIx) (i : Nat) : List Nat :=
  let v := s.measureValue r i
  [i, 1] ++ leBytes 2 (v.length + 3) ++ [measureType i] ++ leBytes 2 v.length ++ v

/-- The measurement summary a signed exchange asks for: none, or every block. -/
def State.measureSummary (s : State) (r : SpdmIx) (kind : Nat) : Option (List Nat) :=
  if kind = 0 then some []
  else if kind = 1 ∨ kind = 0xFF then
    some (leBytes 48 (Config.sha384 ((List.range 9).flatMap fun i => s.measureBlock r (i + 1))).toNat)
  else none

/-- A signed response (R581, R589): the Ed25519 half over the connection's transcript and the response's content. -/
def State.signedResponse (s : State) (r : SpdmIx) (slot : Nat) (i : Identity) (code : Nat) (nonce : Nat) (content : List Nat) :
    State × SpdmResponse × Option (Nat × Nat) :=
  let (own, s) := s.drbgNext
  let body := leBytes 32 own.toNat ++ content
  let msg := messageOf ([s.sec.spdm[r].transcript, code, nonce] ++ body)
  (s, { code := code, param1 := slot, payload := bytesNat (body ++ leBytes 64 (Config.edSign (s.keySeed i false) msg)) }, some (slot, msg))

/-- CHALLENGE (R589): signed with the presented identity. -/
def execChallenge (r : SpdmIx) (slot : Fin 8) (meas : BitVec 8) (nonce : BitVec 256) (s : State) : Out :=
  s.spdm r 0x83 negotiated fun s =>
    match s.slotIdentity r slot.val, s.measureSummary r meas.toNat with
    | some i, some m =>
      s.signedResponse r slot.val i 0x03 nonce.toNat (leBytes 48 (Config.sha384 (s.chainBytes i false)).toNat ++ m)
    | _, _ => (s, .error 0x01, none)

/-- GET_MEASUREMENTS (R591): 0 their number, 0xFF all, else one block; signed ones count in MEAS_CNT. -/
def execGetMeasurements (r : SpdmIx) (op : BitVec 8) (sign : Bool) (slot : Fin 8) (nonce : BitVec 256) (s : State) : Out :=
  s.spdm r 0xE0 negotiated fun s =>
    let n := op.toNat
    if 9 < n ∧ n ≠ 0xFF then (s, .error 0x01, none)
    else
      let idx := if n = 0 then [] else if n = 0xFF then (List.range 9).map (· + 1) else [n]
      let l := idx.flatMap fun i => s.measureBlock r i
      let content := [idx.length] ++ leBytes 3 l.length ++ l
      if !sign then (s, { code := 0x60, param1 := if n = 0 then 9 else 0, payload := bytesNat content }, none)
      else
        match s.slotIdentity r slot.val with
        | none => (s, .error 0x01, none)
        | some i =>
          let (s, p, m) := s.signedResponse r slot.val i 0x60 nonce.toNat content
          (s.modSec fun x => { x with measCnt := satAdd 32 x.measCnt 1 }, { p with param1 := if n = 0 then 9 else 0, param2 := slot.val }, m)

/-- KEY_EXCHANGE (R589): a session opens; its key comes of the Diffie-Hellman secret. -/
def execKeyExchange (r : SpdmIx) (slot : Fin 8) (x : SpdmKex) (s : State) : Out :=
  s.spdm r 0xE4 negotiated fun s =>
    match s.slotIdentity r slot.val, s.measureSummary r x.meas.toNat with
    | some i, some m =>
      let (d, s) := s.drbgNext
      let id : BitVec 16 := BitVec.ofNat 16 s.sec.spdm[r].nextSession
      let secret := Config.dheShared d.toNat x.exchange
      let s := s.modSpdm r fun y =>
        { y with nextSession := y.nextSession + 1, sessions := y.sessions ++ [{ id := id, finished := false, secret := secret }] }
      let (s, p, g) := s.signedResponse r slot.val i 0x64 x.random.toNat
        (leBytes 2 id.toNat ++ leBytes 2 x.reqSession.toNat ++ leBytes 96 (Config.dhePublic d.toNat) ++ m)
      (s, p, g)
    | _, _ => (s, .error 0x01, none)

/-- A request within a session of the connection. -/
def State.inSession (s : State) (r : SpdmIx) (sid : BitVec 16) (finished : Bool) : Option SpdmSession :=
  s.sec.spdm[r].sessions.find? fun x => x.id == sid && x.finished == finished

/-- Change a session. -/
def State.modSession (s : State) (r : SpdmIx) (sid : BitVec 16) (f : SpdmSession → SpdmSession) : State :=
  s.modSpdm r fun y => { y with sessions := y.sessions.map fun x => if x.id = sid then f x else x }

/-- FINISH (R589): the requester's HMAC over the transcript with the session's key. -/
def execFinish (r : SpdmIx) (sid : BitVec 16) (hmac : BitVec 384) (s : State) : Out :=
  s.spdm r 0xE5 negotiated fun s =>
    match s.inSession r sid false with
    | none => (s, .error 0x02, none)
    | some x =>
      if Config.hmac x.secret s.sec.spdm[r].transcript = hmac then
        (s.modSession r sid fun y => { y with finished := true }, { code := 0x65 }, none)
      else (s.modSpdm r fun y => { y with sessions := y.sessions.filter fun z => z.id ≠ sid }, .error 0x06, none)

/-- HEARTBEAT (R589). -/
def execHeartbeat (r : SpdmIx) (sid : BitVec 16) (s : State) : Out :=
  s.spdm r 0xE8 negotiated fun s =>
    match s.inSession r sid true with
    | none => (s, .error 0x02, none)
    | some _ => (s, { code := 0x68 }, none)

/-- KEY_UPDATE (R589): 1 the requester's key, 2 all keys, 3 verify the new key. -/
def execKeyUpdate (r : SpdmIx) (sid : BitVec 16) (op : BitVec 8) (s : State) : Out :=
  s.spdm r 0xE9 negotiated fun s =>
    match s.inSession r sid true with
    | none => (s, .error 0x02, none)
    | some _ =>
      if op = 0 ∨ 3 < op.toNat then (s, .error 0x01, none)
      else
        let s := if op = 3 then s else s.modSession r sid fun y => { y with keyGen := y.keyGen + 1 }
        (s, { code := 0x69, param1 := op.toNat }, none)

/-- END_SESSION (R589). -/
def execEndSession (r : SpdmIx) (sid : BitVec 16) (s : State) : Out :=
  s.spdm r 0xEC negotiated fun s =>
    match s.inSession r sid true with
    | none => (s, .error 0x02, none)
    | some _ => (s.modSpdm r fun y => { y with sessions := y.sessions.filter fun z => z.id ≠ sid }, { code := 0x6C }, none)

/-- GET_PQ_CHAIN (R590): at most 1 024 bytes of the ML-DSA-65 chain of a slot. -/
def execGetPqChain (r : SpdmIx) (slot : Fin 8) (off len : BitVec 16) (s : State) : Out :=
  s.spdm r 0xFE negotiated fun s =>
    if 1024 < len.toNat then (s, .error 0x01, none)
    else
      match (s.slotIdentity r slot.val).bind fun i => chainPart (s.chainBytes i true) off.toNat len.toNat with
      | some (_, l) => (s, { code := 0x7E, payload := bytesNat l }, none)
      | none => (s, .error 0x01, none)

/-- GET_PQ_SIG (R590): the ML-DSA-65 half over what the Ed25519 half of the last signed response signed, hedged (R585); it must follow
that response. -/
def execGetPqSig (r : SpdmIx) (s : State) : Out :=
  s.spdm r 0xFE negotiated fun s =>
    match s.sec.spdm[r].lastSigned with
    | none => (s, .error 0x04, none)
    | some (slot, msg) =>
      match s.slotIdentity r slot with
      | none => (s, .error 0x04, none)
      | some i =>
        let (rnd, s) := s.drbgNext
        (s, { code := 0x7E, payload := Config.mlSign (s.keySeed i true) msg rnd.toNat }, none)

/-! ### Opal (R604, R605) -/

/-- Statuses of a method. -/
def opOk : Nat := 0x00
/-- See `opOk`. -/
def opNotAuthorized : Nat := 0x01
/-- See `opOk`. -/
def opBusy : Nat := 0x03
/-- See `opOk`. -/
def opInvalid : Nat := 0x0C

/-- A method's answer, on the function it came on. -/
def State.opal (s : State) (o : OpalReq) (st : Nat) (vals : List Nat) : State := s.modOut fun x => { x with opal := (o.fn, st, vals) :: x.opal }

/-- A method: the controller takes commands. -/
def State.method (s : State) (o : OpalReq) (body : State → State) : Out :=
  let x := s.host.fns[o.fn]
  .next (if x.present && x.en && x.rdy && !s.rst.recovery then body s else s)

/-- The Opal tables changed, in the registers and in the configuration area; sessions are not kept there. -/
def State.setOpal (s : State) (f : Opal → Opal) : State :=
  let t := f s.sec.opal
  (s.modSec fun x => { x with opal := t }).modNor fun n => { n with opal := { t with sessions := [] } }

/-- The PIN of an authority (R604); none where it is not enabled. SID and PSID have one from manufacture, Admin1 the SID's from the
activation. -/
def State.opalPin (s : State) (a : OpalAuth) : Option Nat :=
  match alookup s.sec.opal.pins a with
  | some p => some p
  | none =>
    match a with
    | .sid => some (Config.hkdf s.fuse.uds.toNat 0x4D534944).toNat
    | .psid => some (Config.hkdf s.fuse.uds.toNat 0x50534944).toNat
    | _ => none

/-- The authority belongs to a provider. -/
def OpalAuth.inSp (a : OpalAuth) (sp : OpalSp) : Bool :=
  match a, sp with
  | .anybody, _ => true
  | .sid, .admin | .psid, .admin => true
  | .admin _, .locking | .user _, .locking => true
  | _, _ => false

/-- The session of a function. -/
def State.opalSession (s : State) (o : OpalReq) : Option OpalSession := s.sec.opal.sessions.find? fun x => x.fn == o.fn

/-- One of an administrator's authorities is authenticated in the session. -/
def OpalSession.isAdmin (x : OpalSession) : Bool :=
  x.sp == .locking && x.auths.any fun a => match a with
    | .admin _ => true
    | _ => false

/-- START_SESSION (R604): one session at a time on a function. -/
def execStartSession (o : OpalReq) (sp : OpalSp) (auth : OpalAuth) (pin : Nat) (s : State) : Out :=
  s.method o fun s =>
    if (s.opalSession o).isSome then s.opal o opBusy []
    else if !auth.inSp sp ∨ (sp = .locking ∧ !s.sec.opal.activated) then s.opal o opInvalid []
    else if auth ≠ .anybody ∧ s.opalPin auth ≠ some pin then s.opal o opNotAuthorized []
    else
      (s.modSec fun x =>
        { x with opal := { x.opal with sessions := x.opal.sessions ++ [{ fn := o.fn, sp := sp, auths := if auth = .anybody then [] else [auth] }] } }).opal
        o opOk []

/-- PROPERTIES (R604): the communication properties; the manual gives no values (log 9). -/
def execProperties (o : OpalReq) (s : State) : Out :=
  s.method o fun s => s.opal o opOk ((List.range 8).map fun i => (Config.logWord 0x101 i).toNat)

/-- AUTHENTICATE (R604): answers whether the authority is authenticated. -/
def execAuthenticate (o : OpalReq) (auth : OpalAuth) (pin : Nat) (s : State) : Out :=
  s.method o fun s =>
    match s.opalSession o with
    | none => s.opal o opNotAuthorized []
    | some x =>
      if !auth.inSp x.sp then s.opal o opInvalid []
      else if auth ≠ .anybody ∧ s.opalPin auth ≠ some pin then s.opal o opOk [0]
      else
        let s := s.modSec fun y =>
          { y with
            opal := { y.opal with
              sessions := y.opal.sessions.map fun z => if z.fn = o.fn ∧ auth ≠ .anybody ∧ !z.auths.contains auth then { z with auths := z.auths ++ [auth] } else z } }
        s.opal o opOk [1]

/-- The value of an object a session may read: none where it may not. -/
def State.opalValue (s : State) (x : OpalSession) (obj : OpalObj) : Option Nat :=
  let t := s.sec.opal
  let flag := fun (b : Bool) => if x.sp = .locking ∧ !x.auths.isEmpty then some (if b then 1 else 0) else none
  match obj with
  | .rdLockEn n => flag t.ranges[n].rdLockEn
  | .wrLockEn n => flag t.ranges[n].wrLockEn
  | .rdLocked n => flag t.ranges[n].rdLocked
  | .wrLocked n => flag t.ranges[n].wrLocked
  | .lockOnReset n => flag t.ranges[n].lockOnReset
  | .rangeStart _ => if x.sp = .locking ∧ !x.auths.isEmpty then some 0 else none
  | .rangeLength n =>
    if x.sp = .locking ∧ !x.auths.isEmpty then
      some (((s.host.namespaces.find? fun m => m.nsid == n.val).map (·.size)).getD 0)
    else none
  | .pin _ => none
  | .dataStore off => if x.sp = .locking ∧ !x.auths.isEmpty then some (((alookup t.dataStore off).map (·.toNat)).getD 0) else none

/-- OPAL_GET (R604): range columns and the DataStore for authenticated sessions of the Locking SP; PINs are never read. -/
def execOpalGet (o : OpalReq) (obj : OpalObj) (s : State) : Out :=
  s.method o fun s =>
    match s.opalSession o with
    | none => s.opal o opNotAuthorized []
    | some x =>
      match obj with
      | .dataStore off =>
        if 128 * 1024 ≤ off then s.opal o opInvalid []
        else
          match s.opalValue x obj with
          | some v => s.opal o opOk [v]
          | none => s.opal o opNotAuthorized []
      | _ =>
        match s.opalValue x obj with
        | some v => s.opal o opOk [v]
        | none => s.opal o opNotAuthorized []

/-- A range with a column set. -/
def rangeColumn (obj : OpalObj) (b : Bool) : Option (Fin 17 × (OpalRange → OpalRange)) :=
  match obj with
  | .rdLockEn n => some (n, fun r => { r with rdLockEn := b })
  | .wrLockEn n => some (n, fun r => { r with wrLockEn := b })
  | .rdLocked n => some (n, fun r => { r with rdLocked := b })
  | .wrLocked n => some (n, fun r => { r with wrLocked := b })
  | .lockOnReset n => some (n, fun r => { r with lockOnReset := b })
  | _ => none

/-- A column of a range is set (R605): measurement index 9 of the functions it is attached to changes with its lock state, and the
answer waits until the writes completed before are durable. -/
def State.setRange (s : State) (o : OpalReq) (n : Fin 17) (f : OpalRange → OpalRange) : State :=
  let was := (s.locked n.val false, s.locked n.val true)
  let s := s.setOpal fun t => { t with ranges := vmod t.ranges n f }
  let now := (s.locked n.val false, s.locked n.val true)
  let att := ((s.host.namespaces.find? fun m => m.nsid == n.val).map (·.attached)).getD 0
  let s := if was = now then s else s.resynch fun r => att.getLsbD r.val
  if (now.1 && !was.1) || (now.2 && !was.2) then
    let waits := (s.q.buffered.filter fun b => b.nsid == n.val && b.nsid != 0).map (·.startNo)
    (s.modSec fun x => { x with opalWait := x.opalWait ++ [(o.fn, opOk, [], waits)] }).settleOpal
  else s.opal o opOk []

/-- A session may set a PIN: SID its own in the Admin SP, an administrator any of the Locking SP, a user its own. -/
def OpalSession.maySetPin (x : OpalSession) (a : OpalAuth) : Bool :=
  match a with
  | .sid => x.sp == .admin && x.auths.contains .sid
  | .admin _ => x.isAdmin
  | .user _ => x.isAdmin || (x.sp == .locking && x.auths.contains a)
  | _ => false

/-- OPAL_SET (R604, R605): range columns and the DataStore by an administrator; RangeStart and RangeLength are not settable, and
LockOnReset stays Power Cycle. -/
def execOpalSet (o : OpalReq) (obj : OpalObj) (v : Nat) (s : State) : Out :=
  s.method o fun s =>
    match s.opalSession o with
    | none => s.opal o opNotAuthorized []
    | some x =>
      match obj with
      | .rangeStart _ | .rangeLength _ => s.opal o opInvalid []
      | .pin a =>
        if x.maySetPin a then (s.setOpal fun t => { t with pins := aset t.pins a v }).opal o opOk [] else s.opal o opNotAuthorized []
      | .dataStore off =>
        if !x.isAdmin then s.opal o opNotAuthorized []
        else if 128 * 1024 ≤ off then s.opal o opInvalid []
        else
          (s.setOpal fun t =>
            { t with dataStore := if v % 256 = 0 then oerase t.dataStore off else oset t.dataStore off (BitVec.ofNat 8 v) }).opal o opOk []
      | _ =>
        if !x.isAdmin then s.opal o opNotAuthorized []
        else if 1 < v then s.opal o opInvalid []
        else
          match rangeColumn obj (decide (v = 1)) with
          | some (n, f) => s.setRange o n f
          | none => s.opal o opInvalid []

/-- GENKEY (R605, R607): a crypto erase of namespace n by an administrator. -/
def execGenkey (o : OpalReq) (n : Fin 17) (s : State) : Out :=
  s.method o fun s =>
    match s.opalSession o with
    | none => s.opal o opNotAuthorized []
    | some x =>
      if !x.isAdmin then s.opal o opNotAuthorized []
      else
        match s.host.namespaces.find? fun m => m.nsid == n.val with
        | none => s.opal o opInvalid []
        | some m => ((s.newKey m.nsid).emptyNamespace m).opal o opOk []

/-- ACTIVATE (R604): SID activates the Locking SP; Admin1 takes SID's PIN. -/
def execActivate (o : OpalReq) (s : State) : Out :=
  s.method o fun s =>
    match s.opalSession o with
    | none => s.opal o opNotAuthorized []
    | some x =>
      if !(x.sp == .admin && x.auths.contains .sid) then s.opal o opNotAuthorized []
      else if s.sec.opal.activated then s.opal o opOk []
      else
        let pin := (s.opalPin .sid).getD 0
        (s.setOpal fun t => { t with activated := true, pins := aset t.pins (.admin 0) pin }).opal o opOk []

/-- Every namespace is erased cryptographically and the Opal tables return to their manufactured state (R605); `keepSid` leaves SID's
PIN, where only the Locking SP is reverted. -/
def State.revertOpal (s : State) (keepSid : Bool) : State :=
  let locked := ((s.host.namespaces.filter fun n => s.locked n.nsid false || s.locked n.nsid true).map (·.attached)).foldl (· ||| ·) 0
  let s := s.host.namespaces.foldl (fun s n => (s.newKey n.nsid).emptyNamespace n) s
  let s := s.setOpal fun t => { pins := if keepSid then t.pins.filter fun p => p.1 == .sid else [] }
  s.resynch fun r => locked.getLsbD r.val

/-- REVERT (R605): with PSID, or SID, in a session of the Admin SP. -/
def execRevert (o : OpalReq) (sp : OpalSp) (s : State) : Out :=
  s.method o fun s =>
    match s.opalSession o with
    | none => s.opal o opNotAuthorized []
    | some x =>
      if x.sp == .admin && (x.auths.contains .sid || x.auths.contains .psid) then
        if sp = .locking ∧ !s.sec.opal.activated then s.opal o opInvalid [] else (s.revertOpal (decide (sp = .locking))).opal o opOk []
      else s.opal o opNotAuthorized []

/-- REVERT_SP (R604): the session's own provider, by SID or by Admin1. -/
def execRevertSp (o : OpalReq) (sp : OpalSp) (s : State) : Out :=
  s.method o fun s =>
    match s.opalSession o with
    | none => s.opal o opNotAuthorized []
    | some x =>
      if x.sp ≠ sp then s.opal o opInvalid []
      else if x.auths.contains (if sp = .admin then .sid else .admin 0) then (s.revertOpal (decide (sp = .locking))).opal o opOk []
      else s.opal o opNotAuthorized []

/-- RANDOM (R601, R604): up to 32 bytes of the DRBG. -/
def execRandom (o : OpalReq) (len : Nat) (s : State) : Out :=
  s.method o fun s =>
    if (s.opalSession o).isNone then s.opal o opNotAuthorized []
    else if 32 < len then s.opal o opInvalid []
    else
      let (d, s) := s.drbgNext
      s.opal o opOk (leBytes len d.toNat)

/-- Bytes of a number, most significant first. -/
def beBytes (n v : Nat) : List Nat := (leBytes n v).reverse

/-- A feature descriptor of level 0 discovery. -/
def opalFeature (code ver : Nat) (data : List Nat) : List Nat := beBytes 2 code ++ [ver * 16, data.length] ++ data

/-- Level 0 discovery (R604): the feature descriptors of the table. -/
def State.discovery (s : State) : List Nat :=
  let t := s.sec.opal
  let anyLocked := (fins 17).any fun (n : Fin 17) => s.locked n.val false || s.locked n.val true
  let sidSet := (alookup t.pins .sid).isSome
  let l := opalFeature 0x0001 1 (padBytes 12 [0x11]) ++
    opalFeature 0x0002 1 (padBytes 12 [0x49 + (if t.activated then 2 else 0) + (if anyLocked then 4 else 0)]) ++
    opalFeature 0x0003 1 (padBytes 8 [1] ++ beBytes 4 4096 ++ beBytes 8 1 ++ beBytes 8 0) ++
    opalFeature 0x0203 1 (padBytes 16 (beBytes 2 0x1000 ++ beBytes 2 1 ++ [0] ++ beBytes 2 4 ++ beBytes 2 16 ++ [0, 0])) ++
    opalFeature 0x0202 1 ([0, 0] ++ beBytes 2 1 ++ beBytes 4 (128 * 1024) ++ beBytes 4 1) ++
    opalFeature 0x0402 1 (padBytes 12 [if sidSet then 1 else 0])
  beBytes 4 (44 + l.length) ++ beBytes 4 1 ++ List.replicate 40 0 ++ l

/-- Bytes as words, four to a word, the first least significant. -/
def packWords (l : List Nat) : List Word :=
  (List.range ((l.length + 3) / 4)).map fun i => nw (bytesNat ((l.drop (4 * i)).take 4))

/-- SECURITY_RECEIVE (R446, R604): protocol 0x00 lists the protocols, 0x01 gives level 0 discovery on ComID 1 and the newest answer on
ComID 0x1000, 0x02 manages the ComID. -/
def execSecurityReceive (q : AdmReq) (nsid : Word) (protocol : BitVec 8) (comId : BitVec 16) (s : State) : Out :=
  s.admin q false false false fun s =>
    let named := s.host.namespaces.filter fun n => n.nsid == nsid.toNat
    if !s.aloneOk q.fn (if nsid = 0 ∨ nsid = 0xFFFFFFFF then s.nsAttached q.fn else named) then .fail s stInvalidOpcode
    else if protocol = 0 then { state := s, words := packWords ([0, 0, 0, 0, 0, 0, 0, 3, 0, 1, 2]) }
    else if protocol = 1 ∧ comId = 1 then { state := s, words := packWords s.discovery }
    else if protocol = 1 ∧ comId = 0x1000 then
      match s.out.opal.find? fun a => a.1 == q.fn with
      | some (_, st, vals) => { state := s, words := nw st :: vals.map nw }
      | none => { state := s }
    else if protocol = 2 ∧ (comId = 0 ∨ comId = 0x1000) then { state := s, words := packWords (beBytes 2 0x1000 ++ [0, 0]) }
    else .fail s stInvalidField

/-! ### Debug unlock and packets (R611, R612) -/

/-- SEC_NONCE is renewed (R611). -/
def State.newNonce (s : State) : State :=
  let (d, s) := s.drbgNext
  s.modSec fun x => { x with nonce := d.setWidth 128 }

/-- P-DBG locks (R611): measurement index 7 changes. -/
def State.lockDebug (s : State) : State :=
  if s.sec.dbgUnlock then
    (s.modSec fun x => { x with dbgUnlock := false, dbgScope := 0, dbgExp := 0 }).resynch fun _ => true
  else s

/-- DEBUG_UNLOCK_EXPIRY (R583, R611): POH has passed EXPIRY. -/
def execDebugUnlockExpiry (s : State) : Out := .next (if s.sec.dbgExp < s.rst.poh / 1024 then s.lockDebug else s)

/-- sec.status. -/
def execSecStatus (p : Packet) (s : State) : Out := .next (runPacket ⟨0x0220, [5], .read⟩ p s fun s => .report s (stSec s))

/-- What a certificate of sec.cert certifies, by its number and the generation's measurement; none where the packet names none. -/
def State.certOf (s : State) (p : Packet) (which back : Nat) : Option (Nat × BitVec 384) :=
  match s.sec.aliasGens[back]? with
  | none => none
  | some (_, m) =>
    match which with
    | 0 => some (0, 0)
    | 1 => some (1, Config.sha384 [(Config.loaderDigest s.sec.loader).toNat])
    | 2 => some (2, m)
    | 3 => if p.lvl = 4 then some (3 + p.idx, m) else none
    | _ => none

/-- sec.cert (R587, R612): 20 bytes of a certificate of a stored generation. -/
def opSecCert (p : Packet) (s : State) : PktRes :=
  let w := p.w 0 &&& 0x00070107
  match s.certOf p (fld w 2 0) (fld w 18 16) with
  | none => .fail s 0x0105
  | some (which, m) =>
    let ml := w.getLsbD 8
    let n := Config.certLen which ml m
    let byte := fun (i : Nat) => if i < n then (Config.certByte which ml m i).toNat else 0
    let chunk := (p.w 1).toNat
    { state := s, clamp := clampBits [(0, p.w 0, w)]
      result := nw n :: (List.range 5).map fun j => nw (bytesNat ((List.range 4).map fun k => byte (20 * chunk + 4 * j + k))) }
/-- sec.cert. -/
def execSecCert (p : Packet) (s : State) : Out := .next (runPacket ⟨0x0221, [4, 5], .read⟩ p s (opSecCert p))

/-- sec.unlock (R611, R612): word 0 gives lock or unlock with the staged token; the nonce is renewed whatever comes of it. -/
def opSecUnlock (p : Packet) (s : State) : PktRes :=
  let done := fun (s : State) => ({ state := s, result := [rSecStatus s, nw s.sec.dbgExp] } : PktRes)
  if p.w 0 = 0 then done s.lockDebug.newNonce
  else if p.w 0 ≠ 1 then .fail s.newNonce 0x0105
  else
    match s.sec.staged.filter fun o => o.otype == ObjType.token.code with
    | none => .fail s.newNonce 0x0203
    | some o =>
      match s.objCheck o .token s.sec.stagedLen with
      | some st => .fail (s.objFailed st).newNonce st
      | none =>
        let old := s.sec.unlockCnt
        let s := s.modSec fun x => { x with dbgUnlock := true, dbgScope := o.scope, dbgExp := o.expiry, unlockCnt := inc 32 x.unlockCnt }
        let s := (s.saturated (reaches 32 old) 0x11 5 0 0x4004C (nw (inc 32 old))).condSec
        done (s.resynch fun _ => true).newNonce
/-- sec.unlock with word 0 equal to 0. -/
def execSecLock (p : Packet) (s : State) : Out := .next (runPacket ⟨0x0222, [5], .action⟩ p s (opSecUnlock p))
/-- sec.unlock with the staged token. -/
def execSecUnlock (p : Packet) (s : State) : Out := .next (runPacket ⟨0x0222, [5], .action⟩ p s (opSecUnlock p))

/-- sec.rollback (R596, R612). -/
def opSecRollback (p : Packet) (s : State) : PktRes :=
  if p.w 0 ≠ 0x524F4C4C then .fail s 0x0105
  else
    match s.sec.staged.filter fun o => o.otype == ObjType.rollback.code with
    | none => .fail s 0x0203
    | some o =>
      match s.objCheck o .rollback s.sec.stagedLen with
      | some st => .fail (s.objFailed st) st
      | none =>
        if !s.raiseAllowed o.svn then .fail s 0x0404
        else
          let old := s.fuse.rollCtr
          let s := s.raiseRoll o.svn
          { state := s.resynch fun _ => true, result := [nw old, nw s.fuse.rollCtr] }
/-- sec.rollback. -/
def execSecRollback (p : Packet) (s : State) : Out := .next (runPacket ⟨0x0223, [5], .action⟩ p s (opSecRollback p))

end Sys2Proof.Machine
end

