-- ==== Sys2Proof/Machine/Mod.lean ====
section
/-! DEFINITION. The module and Hetos packets, Hetos exchanges over the three transports (spec/15_hetos_packets.md), and the NVMe-MI
commands (spec/13_host_link_nvme.md, R465, R466). -/

namespace Sys2Proof.Machine
open Sys2Proof

/-! ### Module packets (0x0100 to 0x0104) -/

/-- mod.identify (R532). -/
def execModIdentify (p : Packet) (s : State) : Out :=
  .next (runPacket ⟨0x0100, [5], .read⟩ p s fun s =>
    .report s [0x00004824, rModStep s, rLayout s.layout, s.sec.running.version, nw s.fuse.serial.toNat, nw (s.fuse.serial.toNat / 2 ^ 32)])

/-- mod.echo (R533). -/
def execModEcho (p : Packet) (s : State) : Out := .next (runPacket ⟨0x0101, [5], .read⟩ p s fun s => .report s (p.ws [0, 1, 2, 3, 4, 5]))

/-- Most heads of an engine for a number of engines (R22, R534). -/
def headLimit (engines : Nat) : Nat := if engines = 2 then 12 else if engines = 3 then 8 else 6

/-- mod.layout (R534, R535): the stored layout; it takes effect at the next power-on reset. -/
def opModLayout (p : Packet) (s : State) : PktRes :=
  if p.w 5 ≠ 0x4C41594F then .fail s 0x0105
  else
    let l := s.nor.layout
    let c := clampWord [fEnum 1 0 [0, 1, 2]] (nw (l.engines - 2)) (p.w 0)
    let n := fld c 1 0 + 2
    let count := fun (a : Nat) => if a < n then clampWord [fIn 31 0 1 (headLimit n)] 0 (p.w (a + 1)) else 0
    let heads : List Word := (List.range 4).map count
    let new : Layout := { engines := n, heads := Vector.ofFn fun (a : Fin 4) => (count a.val).toNat }
    { state := s.modNor fun x => { x with layout := new }
      clamp := clampBits ((0, p.w 0, c) :: (List.range 4).map fun a => (a + 1, p.w (a + 1), count a))
      result := c :: heads ++ [rLayout s.layout] }
/-- mod.layout. -/
def execModLayout (p : Packet) (s : State) : Out := .next (runPacket ⟨0x0102, [5], .config⟩ p s (opModLayout p))

/-- hetos.status (R536): a transport that does not exist is a bad parameter. -/
def execHetosStatus (p : Packet) (s : State) : Out :=
  .next (runPacket ⟨0x0103, [5], .read⟩ p s fun s =>
    match fin? 3 (p.w 0).toNat with
    | some t => .report s (stHts s t)
    | none => .fail s 0x0105)

/-- hetos.clear. -/
def opHetosClear (p : Packet) (s : State) : PktRes :=
  match fin? 3 (p.w 0).toNat with
  | none => .fail s 0x0105
  | some t =>
    let m := fld (p.w 1) 3 0
    let c := s.het.cnt[t]
    { state := s.modHet fun h =>
        { h with cnt := vset h.cnt t { pkt := clr m 0 c.pkt, fail := clr m 1 c.fail, deny := clr m 2 c.deny, clamp := clr m 3 c.clamp } }
      clamp := clampBits [(1, p.w 1, nw m)]
      result := selected m [[nw c.pkt], [nw c.fail], [nw c.deny], [nw c.clamp]] }
/-- hetos.clear. -/
def execHetosClear (p : Packet) (s : State) : Out := .next (runPacket ⟨0x0104, [5], .action⟩ p s (opHetosClear p))

/-! ### Exchanges (R519, R520, R526 to R529) -/

/-- A new exchange: it runs at once while fewer than 8 run, else it waits (R520). -/
def State.newExchange (s : State) (x : Exchange) : State :=
  let go := decide (s.het.active < 8)
  let x := { x with running := go }
  let s := s.modHet fun h => { h with exchanges := h.exchanges ++ [x] }
  if go then s.advanceExchange x else s

/-- HETOS_EXCHANGE (R526, R527): an exchange number in use leaves the state as it is (log 11). -/
def execHetosExchange (q : AdmReq) (h : HetosCmd) (s : State) : Out :=
  if s.het.exchanges.any fun x => x.xid == h.xid then .next s
  else
    s.adminOwn q false false false fun s =>
      let n := h.nump.toNat
      if n = 0 ∨ 64 < n ∨ h.cdw12.toNat % 32 ≠ 0 ∨ 4096 < h.cdw12.toNat % 4096 + 32 * n then .fail s stInvalidField
      else if !h.readOk then .fail s (stGen 0x04 false)
      else
        { state := s.newExchange
            { xid := h.xid, src := .nvme q.fn, cid := q.cid, buf := h.cdw12.toNat + 2 ^ 32 * h.cdw13.toNat
              todo := packetsOf h.xid (.nvme q.fn) n (h.buffer.map (·.toNat)), writeFails := !h.writeOk }
          status := none }

/-- The message as bytes, from its type byte to its MIC. -/
def requestBytes (m : MctpReq) : List Nat := m.msg.map (·.toNat)
/-- Transport of a request's binding (R525). -/
def requestSrc (m : MctpReq) : Sender := if m.vdm then .vdm else .smbus
/-- COUNT. -/
def requestCount (m : MctpReq) : Nat := bytesAt (requestBytes m) 4 1
/-- The message integrity check holds: the last four bytes are the CRC-32C of those before them (R528). -/
def requestMicOk (m : MctpReq) : Bool :=
  crc32c ((requestBytes m).take ((requestBytes m).length - 4)) == bytesAt (requestBytes m) ((requestBytes m).length - 4) 4
/-- No check of R529 on the message itself drops the request: type, vendor, HKIND, COUNT, length and MIC. -/
def requestSound (m : MctpReq) : Bool :=
  bytesAt (requestBytes m) 0 1 == 0xFE && bytesAt (requestBytes m) 1 2 == 0x1F4C && bytesAt (requestBytes m) 3 1 == 1 &&
    decide (1 ≤ requestCount m ∧ requestCount m ≤ 8 ∧ (requestBytes m).length = 12 + 64 * requestCount m) && requestMicOk m
/-- Another request of the same requester EID and message tag is in progress (R529). -/
def requestTaken (m : MctpReq) (s : State) : Bool :=
  s.het.exchanges.any fun x => (x.src == .smbus || x.src == .vdm) && x.eid == m.eid && x.mtag == m.mtag.val

/-- The first 16 bytes of a Hetos MCTP request's first packet: the transport header, and the message body's first 12 bytes (R528). -/
def requestWords (m : MctpReq) (dest : Byte) : List Word :=
  mkw [bf 7 0 1, bf 15 8 dest.toNat, bf 23 16 m.eid.toNat, bf 26 24 m.mtag.val, bb 27 true, bb 30 (decide (m.msg.length ≤ 64)), bb 31 true] ::
    (List.range 3).map fun i => nw (bytesAt (requestBytes m) (4 * i) 4)

/-- HETOS_MCTP_REQUEST (R528, R529): a request that fails a check is dropped and counted in MCTP_MAL_CNT; without 12 V the
bus stays idle (R631). -/
def execHetosMctpRequest (m : MctpReq) (s : State) : Out :=
  .next (
    if !s.rst.rail12 || s.het.exchanges.any fun x => x.xid == m.xid then s
    else if !requestSound m || requestTaken m s then s.mctpBad (requestWords m s.host.eid)
    else s.newExchange
      { xid := m.xid, src := requestSrc m, eid := m.eid, mtag := m.mtag.val, todo := packetsOf m.xid (requestSrc m) (requestCount m) ((requestBytes m).drop 8) })

/-- EXCHANGE_START (R520): the oldest waiting exchange starts while fewer than 8 run. -/
def execExchangeStart (s : State) : Out :=
  .next (
    match s.het.exchanges.find? fun x => !x.running with
    | none => s
    | some x =>
      if s.het.active < 8 then
        let x := { x with running := true }
        (s.modHet fun h => { h with exchanges := h.exchanges.map fun y => if y.xid = x.xid then x else y }).advanceExchange x
      else s)

/-! ### NVMe-MI (R465) -/

/-- An NVMe-MI command over its path: in band through the PF's admin queue, or over MCTP; a controller that does not exist is an
invalid parameter (0x04). Without 12 V nothing answers (R631). -/
def State.mi (s : State) (m : MiReq) (body : State → State × Nat × List Word) : Out :=
  let pf := s.host.fns[(0 : Fn)]
  if !s.rst.rail12 || (m.inBand && !(pf.present && pf.en && pf.rdy)) then .next s
  else
    let (s, st, words) := if s.host.fns[m.ctlr].present then body s else (s, 0x04, [])
    .next (s.modOut fun o => { o with mi := (m.mtag, st, if st = 0 then words else []) :: o.mi })

/-- READ_NVME_MI_DATA_STRUCTURE (R465): 0 subsystem, 1 ports, 2 controllers, 3 a controller, 4 commands supported. -/
def execReadNvmeMiDataStructure (m : MiReq) (dtyp : BitVec 8) (s : State) : Out :=
  s.mi m fun s =>
    match dtyp.toNat with
    | 0 => (s, 0, [mkw [bf 7 0 1, bf 15 8 1, bf 23 16 2]])
    | 1 =>
      let freq := ((alookup s.host.miConfig 0x01).getD 1).toNat
      (s, 0, [mkw [bf 7 0 1, bf 31 16 64], mkw [bf 7 0 5, bf 15 8 s.host.width], mkw [bf 7 0 2, bf 31 16 64],
        mkw [bf 7 0 0x6A, bf 15 8 freq, bf 23 16 s.host.miAddr, bf 31 24 3]])
    | 2 =>
      let l := ((fins 16).filter fun (f : Fn) => s.host.fns[f].present).map (·.val + 1)
      (s, 0, nw l.length :: l.map nw)
    | 3 => (s, 0, [0, mkw [bb 8 true, bf 31 16 m.ctlr.val], (configHeader m.ctlr 0x00).getD 0, (configHeader m.ctlr 0x2C).getD 0])
    | 4 =>
      let ops : List Nat := [0x02, 0x06, 0x09, 0x0A, 0x10, 0x11, 0x80, 0x81, 0x82, 0x84]
      (s, 0, nw ops.length :: ops.map fun o => mkw [bf 7 0 0x10, bf 15 8 o])
    | _ => (s, 0x04, [])

/-- NVM_SUBSYSTEM_HEALTH_STATUS_POLL (R465): status, warnings, composite temperature and the changes since the last poll that cleared
them. -/
def execNvmSubsystemHealthStatusPoll (m : MiReq) (clear : Bool) (s : State) : Out :=
  s.mi m fun s =>
    let ok := !((fins 4).any fun (a : Eng) => s.enginePresent a && s.engineFailed a)
    let ready := (fins 16).any fun (f : Fn) => s.host.fns[f].rdy
    let w := mkw [bb 5 ok, bb 3 s.host.dlUp, bf 15 8 (255 - s.criticalWarning 0), bf 23 16 ((s.compositeK : Int) - 273).toNat]
    let ccs := mkw [bb 0 ready, bf 15 0 (s.host.healthFlags.toNat - s.host.healthFlags.toNat % 2)]
    (if clear then s.modHost fun h => { h with healthFlags := 0 } else s, 0, [w, ccs])

/-- CONTROLLER_HEALTH_STATUS_POLL (R465): the controllers from one on. -/
def execControllerHealthStatusPoll (m : MiReq) (clear : Bool) (s : State) : Out :=
  s.mi m fun s =>
    let l := (fins 16).filter fun (f : Fn) => s.host.fns[f].present && decide (m.ctlr ≤ f)
    let words := l.flatMap fun (f : Fn) =>
      [mkw [bf 15 0 (f.val + 1), bf 31 16 s.host.fns[f].csts],
        mkw [bf 15 0 s.compositeK, bf 31 24 s.availableSpare], mkw [bf 7 0 (s.criticalWarning f)]]
    (if clear then s.modHost fun h => { h with healthFlags := 0 } else s, 0, nw l.length :: words)

/-- CONFIGURATION_SET (R465): 1 SMBus frequency (1 to 3), 2 health status change, which clears the changes named, 3 MCTP transmission
unit (64 bytes). -/
def execConfigurationSet (m : MiReq) (id : BitVec 8) (v : Word) (s : State) : Out :=
  s.mi m fun s =>
    match id.toNat with
    | 1 => if v = 0 ∨ 3 < v.toNat then (s, 0x04, []) else (s.modHost fun h => { h with miConfig := aset h.miConfig 0x01 v }, 0, [])
    | 2 => (s.modHost fun h => { h with healthFlags := h.healthFlags &&& ~~~(v.setWidth 16) }, 0, [])
    | 3 => if v = 64 then (s.modHost fun h => { h with miConfig := aset h.miConfig 0x03 v }, 0, []) else (s, 0x04, [])
    | _ => (s, 0x04, [])

/-- CONFIGURATION_GET (R465). -/
def execConfigurationGet (m : MiReq) (id : BitVec 8) (s : State) : Out :=
  s.mi m fun s =>
    match id.toNat with
    | 1 => (s, 0, [(alookup s.host.miConfig 0x01).getD 1])
    | 2 => (s, 0, [0])
    | 3 => (s, 0, [(alookup s.host.miConfig 0x03).getD 64])
    | _ => (s, 0x04, [])

/-- A byte of the VPD (R465): what it holds from manufacture is not in the manual (log 9). -/
def State.vpdByte (s : State) (i : Nat) : Nat := ((alookup s.nor.vpd i).map (·.toNat)).getD ((Config.logWord 0x102 i).toNat % 256)

/-- VPD_READ (R465): within the 256 bytes. -/
def execVpdRead (m : MiReq) (off len : Nat) (s : State) : Out :=
  s.mi m fun s => if 256 < off + len then (s, 0x04, []) else (s, 0, packWords ((List.range len).map fun i => s.vpdByte (off + i)))

/-- VPD_WRITE (R465): within the 256 bytes. -/
def execVpdWrite (m : MiReq) (off : Nat) (bytes : List Byte) (s : State) : Out :=
  s.mi m fun s =>
    if 256 < off + bytes.length then (s, 0x04, [])
    else (s.modNor fun n => { n with vpd := bytes.zipIdx.foldl (fun l b => oset l (off + b.2) b.1) n.vpd }, 0, [])

end Sys2Proof.Machine
end

