-- ==== Sys2Proof/Machine/Power.lean ====
section
/-! DEFINITION. The central power arbiter (spec/16_power_arbiter.md): draws, epochs and grants, the measured offset, island clocks,
thermal throttling, the Bolero evaluation with its search for a speed, and the four budget packets. -/

namespace Sys2Proof.Machine
open Sys2Proof

/-! ### Draws (R542, R543) -/

/-- RESERVE of the present epoch, mW. -/
def Power.reserve (p : Power) : Nat := 10 * fld p.force[1] 31 24
/-- SLC_IDLE, DEC_SPARE, N_LIFT. -/
def Power.slcIdle (p : Power) : Nat := fld p.force[1] 23 16
/-- See `Power.slcIdle`. -/
def Power.decSpare (p : Power) : Nat := fld p.force[1] 15 12
/-- See `Power.slcIdle`. -/
def Power.nLift (p : Power) : Nat := fld p.force[1] 11 8
/-- Request costs in mW: a read, a standard engine, a deep decoder, a load or unload. -/
def Power.rdMw (p : Power) : Nat := 10 * fld p.force[2] 31 24
/-- See `Power.rdMw`. -/
def Power.decMw (p : Power) : Nat := 5 * fld p.force[2] 23 16
/-- See `Power.rdMw`. -/
def Power.deepMw (p : Power) : Nat := 10 * fld p.force[2] 15 8
/-- See `Power.rdMw`. -/
def Power.loadMw (p : Power) : Nat := 10 * fld p.force[2] 7 0
/-- GALOP_MW of a profile, mW. -/
def Power.galopCost (p : Power) (i : Nat) : Nat := 50 * fld p.force[4] (8 * i + 7) (8 * i)

/-- HEAD_WRITE of a head, mW: WR_MW + ASSIST_WR × 10 µA × ASST_V, rounded up. -/
def State.writeMw (s : State) (g : Head) : Nat :=
  10 * fld s.pwr.force[3] 15 8 + (s.assistWr g * fld s.pwr.force[3] 7 0 + 999) / 1000

/-- The engine share of a head at a speed in 1/16 rpm (R198, R543), as a numerator over `shareDen`. -/
def State.shareAt (s : State) (g : Head) (speed : Nat) : Nat :=
  let it := s.head[g].det.band.iter
  (2304 + 1152 * fld it 27 24) * fld it 31 28 * s.head[g].rd[(0 : Fin 2)].bpw.toNat * speed * 3
/-- Denominator of `State.shareAt`: 37 072 bits, 3.0 GHz, and the units of BPW and speed. -/
def shareDen : Nat := 37072 * 3000000000 * 1024

/-- Standard engines powered for a sum of shares (R543). -/
def Power.engines (p : Power) (share : Nat) : Nat := min 36 ((share + shareDen - 1) / shareDen + p.decSpare)

/-- J × ω × α in mW for a speed in rpm and a rate in rpm/s: (2π/60)² is 0.010 966 227 11. -/
def Spindle.accMw (p : Spindle) (rpm rate : Nat) : Nat := p.inertia * rpm * rate * 1096622711 / 10 ^ 14

/-- SPIN_RUN at a speed in rpm: P_DRAG × (n / 4 800)², P_DRAG in 0.1 W. -/
def Spindle.runMw (p : Spindle) (rpm : Nat) : Nat := 100 * p.pDrag * rpm * rpm / (4800 * 4800)

/-- LINK: per lane by generation, 30 mW in L1. -/
def HostLink.mw (h : HostLink) : Nat :=
  h.width * (if h.l1 then 30 else if h.gen = 5 then 300 else if h.gen = 4 then 220 else 150)

/-- ISLAND of an engine. -/
def EngPower.islandMw (e : EngPower) : Nat := if e.k = 2 then 150 else if e.k = 3 then 110 else 90

/-- VCM_HOLD of an engine: VCM_OUT² × R_COIL at the last sample, while loaded. -/
def State.holdMw (s : State) (a : Eng) : Nat :=
  if s.rst.act[a].state = .loaded then s.eng[a].srv.out.natAbs ^ 2 * 9 * s.pwr.force[5].toNat / 2 ^ 32 else 0

/-- Draws added up: their sum without the decoders, the sums by thermal zone, and the shares of the reads in force. -/
structure Tally where
  used : Nat := 0
  zone : Vector Nat 8 := Vector.replicate 8 0
  share : Nat := 0
  deriving DecidableEq, Repr

/-- A draw counted in its zones. -/
def Tally.add (t : Tally) (mw : Nat) (zones : List Nat) : Tally :=
  { t with used := t.used + mw, zone := Vector.ofFn fun (z : Fin 8) => t.zone[z] + if zones.contains z.val then mw else 0 }

/-- The sum with the decoders (R543), before EST_OFS. -/
def Tally.total (t : Tally) (p : Power) : Nat := t.used + p.decMw * p.engines t.share
/-- A zone's sum: the decoders count in zones 4 and 7. -/
def Tally.zoneSum (t : Tally) (p : Power) (z : Fin 8) : Nat := t.zone[z] + if z.val = 4 ∨ z.val = 7 then p.decMw * p.engines t.share else 0
/-- A part of the total with its share of EST_OFS (R538). -/
def Tally.est (t : Tally) (p : Power) (part : Nat) : Int := part + p.estOfs * part / (max 1 (t.total p) : Nat)

/-- The draws that are never refused (R546): base, link, islands, the spindle at a speed in rpm, holds, unloads. -/
def State.fixedDraws (s : State) (rpm : Nat) : Tally :=
  let p := s.pwr
  let t := (({} : Tally).add (fld p.force[3] 31 16) [5, 7]).add s.host.mw [7]
  let t := t.add (s.spn.runMw rpm) [6]
  (fins 4).foldl (fun t (a : Eng) =>
    if s.enginePresent a then
      let t := (t.add p.eng[a].islandMw [a.val, 7]).add (s.holdMw a) [6]
      if s.rst.act[a].state = .unloading ∨ s.rst.act[a].state = .pavane then t.add p.loadMw [6] else t
    else t) t

/-- A head's committed draw is a read: a packet is open; or a write: its gate is on. -/
def State.readCommitted (s : State) (g : Head) : Bool := s.pwr.head[g].commit && s.packetOpen g
/-- See `State.readCommitted`. -/
def State.writeCommitted (s : State) (g : Head) : Bool := s.pwr.head[g].commit && s.head[g].wr.writeGate

/-- The engine's seek in progress, or due, holds its draw until MINUET (R542). -/
def State.seekCommitted (s : State) (a : Eng) : Bool :=
  s.pwr.eng[a].seekDraw != 0 && (s.eng[a].srv.seekDue || s.eng[a].srv.mode == .seek || s.eng[a].srv.mode == .settle)

/-- Deep decodes in progress. -/
def State.deepHeld (s : State) : Nat :=
  ((fins 40).filter fun (e : DecIx) => deepEngine e && s.pool.engines[e].state != .idle && s.pool.engines[e].state != .failed).length

/-- The committed draws beside those: loads in progress, seeks, reads, writes, deep decodes, spindle acceleration (R542). -/
def State.committedDraws (s : State) (t : Tally) : Tally :=
  let p := s.pwr
  let t := (fins 4).foldl (fun t (a : Eng) =>
    let t := if s.rst.act[a].state = .loading then t.add p.loadMw [6] else t
    if s.seekCommitted a then t.add p.eng[a].seekDraw [6] else t) t
  let t := (fins 24).foldl (fun t (g : Head) =>
    if s.readCommitted g then { t.add p.rdMw [4, 7] with share := t.share + s.shareAt g s.spn.speed }
    else if s.writeCommitted g then t.add (s.writeMw g) [4, 7]
    else t) t
  let t := (fins 4).foldl (fun t (a : Eng) =>
    (fins 16).foldl (fun t (j : JobIx) =>
      match s.eng[a].recv.jobs[j] with
      | some x => if x.wait = .try_ then
          match s.globalHead a x.at_.head.val with
          | some g => { t with share := t.share + s.shareAt g s.spn.speed }
          | none => t
        else t
      | none => t) t) t
  let t := t.add (s.deepHeld * p.deepMw) [4, 7]
  let open_ := if s.spn.state = .open_ then s.spn.accMw s.spn.openRate (10 * fld s.spn.start 15 8) else 0
  t.add (p.accDraw + open_) [6]

/-! ### Requests (R541, R544) -/

/-- An engine asks for a load (R544, R647): present, unloaded, not failed or held, the spindle ready, nothing under way that unloads. -/
def State.wantsLoad (s : State) (a : Eng) : Bool :=
  s.enginePresent a && !s.engineFailed a && s.rst.act[a].state == .unloaded && !s.rst.act[a].held && !s.rst.act[a].biasing && s.spn.mayLoad &&
    !s.spn.shutStop && !s.spn.stopAfter && !s.rst.moduleReset && !s.rst.powerLoss && !s.rst.recovery

/-- A move of the arm that a head's work at a track needs (R548): its target cannot be held where the arm stands. -/
def State.needsSeek (s : State) (a : Eng) (g : Head) (tgt : Int) : Bool :=
  let v := s.eng[a].srv
  if s.activationFits g tgt then
    match s.targetSpan a [(g, tgt - s.head[g].srv.ofs)] with
    | some (lo, hi) => decide (v.settleD < ((lo + hi) / 2 - v.armPos).natAbs)
    | none => false
  else true

/-- Admission stamp of an item's contract, for tiers 1 and 4 (R494, R544). -/
def State.itemAdm (s : State) (i : Item) : Nat :=
  if i.tier = 1 ∨ i.tier = 4 then
    ((i.ctx.bind fun x => (s.ctx x).bind fun c => s.contractOf c).map fun k => k.2.adm).getD 0
  else 0

/-- Order of R544 of a tier. -/
def tierOrder (t : Nat) : Nat := if t ≤ 1 then 2 else if t ≤ 3 then 3 else if t = 4 then 4 else 5

/-- The requests of the epoch in the order they are tested. -/
def State.powerRequests (s : State) : List PowerReq :=
  let loads := ((fins 4).filter s.wantsLoad).map fun (a : Eng) => ({ kind := .load a, order := 1, rank := 0, seek := none, ctx := none } : PowerReq)
  let items := ((fins 4).flatMap fun (a : Eng) => if s.enginePresent a && !s.engineFailed a then s.workOf a else []).map fun i => (i, s.itemAdm i)
  let items := items.mergeSort fun x y =>
    let k := fun (p : Item × Nat) => (tierOrder p.1.tier, p.2)
    if k x = k y then x.1.before y.1 else decide ((k x).1 < (k y).1 ∨ (k x).1 = (k y).1 ∧ (k x).2 < (k y).2)
  let heads := items.map fun p =>
    let i := p.1
    let a := s.engineOf i.head
    ({ kind := if i.write then .write i.head else .read i.head, order := tierOrder i.tier, rank := p.2
       seek := if s.needsSeek a i.head (i.at_.track * 256) then some a else none, ctx := i.ctx } : PowerReq)
  let deep := (fins 28).flatMap fun (r : ReqIx) =>
    (s.pool.reqs[r].pending.filter (·.deep)).map fun _ => ({ kind := .deep 36, order := 5, rank := 0, seek := none, ctx := none } : PowerReq)
  let acc := if s.spn.state = .run ∧ s.nextRef.1 ≠ s.spn.refUnits ∧ s.spn.refUnits < s.nextRef.1 ∨ s.nextRef.2 then
      [({ kind := .spinAcc, order := 6, rank := 0, seek := none, ctx := none } : PowerReq)] else []
  loads ++ heads ++ deep ++ if 0 < s.pwr.accDraw then [] else acc

/-! ### Grants (R544, R548, R552 to R554) -/

/-- The grants of an epoch as they are made. -/
structure Grants where
  t : Tally
  /-- Order of the first tier 1 or tier 4 item refused. -/
  barred : Option Nat := none
  loads : List Eng := []
  reads : List Head := []
  writes : List Head := []
  /-- Engines whose seek is granted, with the profile. -/
  seeks : List (Eng × Nat) := []
  deep : Nat := 0
  acc : Option Nat := none
  accRefused : Bool := false
  granted : List PowerReq := []
  refused : List PowerReq := []
  deriving DecidableEq, Repr

/-- A zone is hot while HOT is set and it is not below 100 °C (R553). -/
def State.zoneHot (s : State) (z : Fin 8) : Bool := s.pwr.hot && decide (1600 ≤ s.lpe.temps[z])

/-- Sums within the usable ceiling and every zone's allowance, no hot zone among those the request counts against. -/
def State.holds (s : State) (t : Tally) (zones : List Nat) : Bool :=
  let p := s.pwr
  decide (t.est p (t.total p) + p.reserve ≤ p.ceilNow) && (fins 8).all fun (z : Fin 8) =>
    !zones.contains z.val || (decide (t.est p (t.zoneSum p z) ≤ p.zoneAllow[z]) && !s.zoneHot z)

/-- Heads granted HEAD_READ at most, by the datapath's throttle step (R554). -/
def Power.readLimit (p : Power) : Nat := ([24, 18, 12, 6] : List Nat).getD p.thrStep[4] 6

/-- The throttle steps leave room for one more head (R554). -/
def State.throttleAllows (s : State) (g : Grants) (h : Head) (read : Bool) : Bool :=
  let a := s.engineOf h
  let others := (g.reads ++ g.writes.filter fun x => !g.reads.contains x).filter fun x => s.engineOf x == a && x != h
  (s.pwr.thrStep[(⟨a.val, by omega⟩ : Fin 8)] != 3 || decide (others.length < 3)) &&
    (!read || g.reads.contains h || decide (g.reads.length < s.pwr.readLimit))

/-- A head item is granted with its draw, the rise in DECODER and its seek at the highest profile that fits, or not at all. -/
def State.tryHead (s : State) (g : Grants) (r : PowerReq) (h : Head) (read : Bool) : Option Grants :=
  let p := s.pwr
  let counted := if read then s.readCommitted h || g.reads.contains h else s.writeCommitted h || g.writes.contains h
  let t := if counted then g.t
    else if read then { g.t.add p.rdMw [4, 7] with share := g.t.share + s.shareAt h s.spn.speed }
    else g.t.add (s.writeMw h) [4, 7]
  let done := fun (t : Tally) (seeks : List (Eng × Nat)) =>
    { g with
      t := t, seeks := seeks, granted := r :: g.granted
      reads := if read && !g.reads.contains h then h :: g.reads else g.reads
      writes := if !read && !g.writes.contains h then h :: g.writes else g.writes }
  if !s.throttleAllows g h read then none
  else
    match r.seek with
    | some a =>
      if s.seekCommitted a || g.seeks.any fun x => x.1 == a then none
      else
        ([3, 2, 1, 0] : List Nat).findSome? fun i =>
          let t' := t.add (p.galopCost i) [6]
          if s.holds t' [4, 6, 7] then some (done t' ((a, i) :: g.seeks)) else none
    | none => if s.holds t [4, 7] then some (done t g.seeks) else none

/-- One request is tested (R544). -/
def State.testRequest (s : State) (g : Grants) (r : PowerReq) : Grants :=
  let p := s.pwr
  let refuse := { g with
    refused := r :: g.refused
    accRefused := g.accRefused || (match r.kind with
      | .spinAcc => true
      | _ => false)
    barred := if (r.order = 2 ∨ r.order = 4) ∧ g.barred.isNone then some r.order else g.barred }
  if (g.barred.map fun b => decide (b < r.order)) = some true then refuse
  else
    match r.kind with
    | .load a =>
      let t := g.t.add p.loadMw [6]
      if s.holds t [6] then { g with t := t, loads := a :: g.loads, granted := r :: g.granted } else refuse
    | .read h => (s.tryHead g r h true).getD refuse
    | .write h => (s.tryHead g r h false).getD refuse
    | .seek _ => refuse
    | .deep _ =>
      let t := g.t.add p.deepMw [4, 7]
      if s.holds t [4, 7] then { g with t := t, deep := g.deep + 1, granted := r :: g.granted } else refuse
    | .spinAcc =>
      let rate := if s.spn.startRamp = .none then s.spn.eff.accLim else 10 * fld s.spn.start 15 8
      let mw := s.spn.accMw (s.spn.speed / 16) rate
      let t := g.t.add mw [6]
      if s.holds t [6] then { g with t := t, acc := some (max 1 mw), granted := r :: g.granted } else refuse

/-- The grants of an epoch for the requests it latched (R544). -/
def State.grants (s : State) (reqs : List PowerReq) : Grants :=
  let t := s.committedDraws (s.fixedDraws (s.spn.speed / 16))
  reqs.foldl s.testRequest { t := t }

/-! ### What an epoch does (R539 to R549, R555, R556) -/

/-- Committed draws that have ended are given up: a seek not begun or in MINUET, a head with no packet open and no sector in progress,
an acceleration that has reached its goal. -/
def State.endCommits (s : State) : State :=
  let s := (fins 4).foldl (fun s (a : Eng) => if s.seekCommitted a then s else s.modEpw a fun e => { e with seekDraw := 0 }) s
  let s := (fins 24).foldl (fun s (g : Head) =>
    if s.packetOpen g || s.head[g].wr.writeGate then s else s.modHpw g fun h => { h with commit := false }) s
  if s.spn.state ≠ .run ∨ s.nextRef.1 ≤ s.spn.refUnits ∧ !s.nextRef.2 then s.modPwr fun p => { p with accDraw := 0 } else s

/-- The power ceiling yields to safety while the draws never refused exceed the usable ceiling (R43, R45, R46, R546): once per
excursion counted, recorded and reported to the PF. -/
def State.checkYield (s : State) : State :=
  let t := s.fixedDraws (s.spn.speed / 16)
  let above := decide ((s.pwr.ceilNow : Int) < t.est s.pwr t.used + s.pwr.reserve)
  if above && !s.pwr.yield3 then
    let n := s.pwr.yield3Cnt
    let s := s.modPwr fun p => { p with yield3 := true, yield3Cnt := inc 32 n }
    let s := s.record 0x0F03 5 0 0x10048 (nw (inc 32 n)) [mkw [bf 7 0 3, bf 23 16 2], 0]
    (s.saturated (reaches 32 n) 0x0F 5 0 0x10048 (nw (inc 32 n))).vendorEvent [0] 0x01 5 0 0 0
  else s.modPwr fun p => { p with yield3 := above }

/-- The slices of a head follow its grants (R122, R547): duty-cycled after SLC_IDLE epochs without one, streaming again with the
next. -/
def State.dutySlices (s : State) (g : Head) : State :=
  let h := s.pwr.head[g]
  let set := fun (s : State) (f : Slice → Slice) => (s.modSlice (sliceA g) f).modSlice (sliceB g) f
  if h.rdGnt then
    if s.slice[sliceA g].srvDc || s.slice[sliceB g].srvDc then
      (set s fun x => if x.srvDc then { x with srvDc := false, state := if x.state = .idle then .wake else x.state } else x).modHpw g fun h =>
        { h with slcOn := true }
    else s
  else if s.pwr.slcIdle ≤ h.idleRun ∧ h.slcOn ∧ !s.packetOpen g then
    (set s fun x => if x.state = .idle then { x with srvDc := true } else x).modHpw g fun h => { h with slcOn := false }
  else s

/-- Standard engines are ungated, lowest first, or gated while idle, highest first, to the number powered (R543). -/
def State.gateEngines (s : State) (n : Nat) : State :=
  let std := (fins 40).filter fun (e : DecIx) => !deepEngine e && s.pool.engines[e].state != .failed
  let on := (std.filter fun e => !s.pool.engines[e].gated).length
  let set := fun (l : List DecIx) (b : Bool) =>
    l.foldl (fun s e => s.modPool fun p => { p with engines := vmod p.engines e fun x => { x with gated := b } }) s
  let s' := if on < n then set ((std.filter fun e => s.pool.engines[e].gated).take (n - on)) false
    else set ((std.reverse.filter fun e => !s.pool.engines[e].gated && s.pool.engines[e].state == .idle).take (on - n)) true
  s'.modPwr fun p => { p with decOn := n }

/-- Refused items of contracts note what deferred them (R556): the earlier-admitted contract of the same rank whose item was granted,
else the power ceiling. A yield ends in the first epoch that refuses nothing of its contract (R46). -/
def State.noteRefusals (s : State) (g : Grants) : State :=
  let con := fun (r : PowerReq) => r.ctx.bind fun x => (s.ctx x).bind s.contractOf
  let hit := g.refused.filterMap fun r => (con r).map (·.1)
  let s := g.refused.foldl (fun (s : State) (r : PowerReq) =>
    match r.ctx, con r with
    | some x, some (_, k) =>
      let other := g.granted.findSome? fun y => (con y).filter fun c => c.2.floor == k.floor && decide (c.2.adm < k.adm)
      s.deferCmd x ((other.map fun c => 0x100 + c.1).getD 3)
    | _, _ => s) s
  s.modQ fun q => { q with contracts := q.contracts.map fun p => if hit.contains p.1 then p else (p.1, { p.2 with yielding := false }) }

/-- The requests of a head are in the epoch's list. -/
def asked (l : List PowerReq) (k : ReqKind) : Bool := l.any fun r => r.kind == k

/-- The grants for the latched requests come into force. -/
def State.deliverGrants (s : State) (reqs : List PowerReq) : State :=
  let g := s.grants reqs
  let p := s.pwr
  let s := (fins 24).foldl (fun s (h : Head) =>
    let rd := g.reads.contains h
    s.modHpw h fun x =>
      { x with
        rdGnt := rd, wrGnt := g.writes.contains h, idleRun := if rd then 0 else satAdd 8 x.idleRun 1
        rdReq := if asked reqs (.read h) then p.rdMw else 0, wrReq := if asked reqs (.write h) then s.writeMw h else 0 }) s
  let s := (fins 4).foldl (fun s (a : Eng) =>
    let want := (reqs.any fun r => r.seek == some a)
    let s := s.modAct a fun x => { x with loadReq := asked reqs (.load a) }
    let s := s.modEpw a fun e => { e with loadGnt := g.loads.contains a, holdReq := if s.engineFailed a then 0 else s.holdMw a }
    match g.seeks.find? fun x => x.1 == a with
    | some (_, i) =>
      let s := s.modEpw a fun e => { e with seekDraw := p.galopCost i, seekReq := p.galopCost i, galop := i }
      let s := s.modSrv a fun v => { v with galopSet := i }
      if i < 3 then s.modPwr fun p => { p with seekDegCnt := satAdd 32 p.seekDegCnt 1 } else s
    | none => if want then s.modEpw a fun e => { e with seekReq := p.galopCost 0 } else if s.engineFailed a then s.modEpw a fun e => { e with seekReq := 0 } else s) s
  let heads := g.refused.filter fun r => match r.kind with
    | .read _ | .write _ => true
    | _ => false
  let all := reqs.filter fun r => match r.kind with
    | .read _ | .write _ => true
    | _ => false
  let raw := (s.committedDraws (s.fixedDraws (s.spn.speed / 16)))
  let s := s.modPwr fun p =>
    { p with
      headRefCnt := satAdd 32 p.headRefCnt heads.length, deepGnt := g.deep, lastReqs := all, late := none
      revEpochs := p.revEpochs + 1, revRefused := p.revRefused + (if heads.isEmpty then 0 else 1)
      accGnt := g.acc.isSome || decide (0 < p.accDraw), accDraw := g.acc.getD p.accDraw
      accRefCnt := if g.accRefused then satAdd 32 p.accRefCnt 1 else p.accRefCnt
      committed := (raw.est p (raw.total p)).toNat, granted := (g.t.est p (g.t.total p)).toNat
      zoneUsed := Vector.ofFn fun (z : Fin 8) => (g.t.est p (g.t.zoneSum p z)).toNat }
  let s := (s.gateEngines (s.pwr.engines g.t.share)).servePool
  ((fins 24).foldl State.dutySlices s).noteRefusals g

/-- An epoch begins (R70): at comparator 8's firing on the reference engine, or every 20 µs while that engine's timeline is
STOPPED. -/
def State.epochBegins (s : State) : Bool :=
  s.pwr.epochDue || (s.eng[s.refEngine].reel.state == .stopped && decide (s.pwr.epochAt + 60000 ≤ s.mtime))

/-- The grants of the epoch are ready, or late (R541): late ones count in ARB_LATE_CNT, those of the previous epoch stay in force, and no
refusable draw begins until they arrive. -/
def State.answerEpoch (s : State) (reqs : List PowerReq) (ready : Bool) : State :=
  if ready then s.deliverGrants reqs
  else
    let n := s.pwr.arbLateCnt
    (s.modPwr fun p => { p with late := some reqs, arbLateCnt := inc 32 n }).saturated (reaches 32 n) 0x0F 5 0 0x10054 (nw (inc 32 n))

/-- POWER_EPOCH (R70, R537 to R549, R552, R555 to R557): the settings come into force, measurements are added up, the requests made by
now are latched and the grants delivered; between epochs the command brings the grants that were late. -/
def execPowerEpoch (e : EpochIn) (s : State) : Out :=
  .next (
    if !s.epochBegins then
      match s.pwr.late with
      | some reqs => if e.ready then s.deliverGrants reqs else s
      | none => s
    else
    let s := s.modPwr fun p =>
      let m12 := e.p12.toNat
      let m3 := e.p3.toNat
      let sum := decide (p.sumN < 64)
      { p with
        epoch := (p.epoch + 1) % 2 ^ 64, meas12 := m12, meas3 := m3
        timed := s.eng[s.refEngine].reel.state == .stopped, epochDue := false, epochAt := s.mtime
        force := #v[nw p.budget, p.cfg, p.cost1, p.cost2, p.galopMw, nw p.rCoil], ceilNow := s.ceil
        sumMeas := if sum then p.sumMeas + m12 + m3 else p.sumMeas, sumEst := if sum then p.sumEst + p.granted else p.sumEst
        sumN := if sum then p.sumN + 1 else p.sumN }
    let s := s.endCommits.checkYield
    s.answerEpoch s.powerRequests e.ready)

/-- EST_OFS_UPDATE (R539): after 64 epochs the offset follows the mean difference, and OVER the mean measured power. -/
def execEstOfsUpdate (s : State) : Out :=
  .next (
    let p := s.pwr
    if p.sumN < 64 then s
    else
      let m := p.sumMeas / 64
      let d : Int := ((p.sumMeas : Int) - p.sumEst) / 64
      let above := decide (102 * p.ceilNow < 100 * m)
      let n := p.overCnt
      let first := above && !p.overSet
      let s := s.modPwr fun p =>
        { p with
          estOfs := clampInt (-500) 2000 (p.estOfs + d / 8), sumMeas := 0, sumEst := 0, sumN := 0
          overSet := above || (p.overSet && decide (p.ceilNow < m)), overCnt := if first then inc 32 n else n }
      if first then (s.saturated (reaches 32 n) 0x0F 5 0 0x1004C (nw (inc 32 n))).condPwr else s)

/-! ### Island clocks and temperature (R551 to R554) -/

/-- Supply of an island at k, mV. -/
def State.vsupOf (s : State) (k : Nat) : Nat := if k = 2 then s.fuse.vsup2 else if k = 3 then 780 else 720

/-- The clock divisor the arbiter wants of an engine (R551, R554): 4 with every head unloaded, else by the throttle step. -/
def State.kTarget (s : State) (a : Eng) : Nat :=
  let t := s.pwr.thrStep[(⟨a.val, by omega⟩ : Fin 8)]
  if !s.rst.act[a].offRamp && s.rst.act[a].state != .pavane then 4 else if t = 0 then 2 else if t = 1 then 3 else 4

/-- The divisor is asked for. -/
def State.askClock (s : State) (a : Eng) : State := s.modEpw a fun e => { e with kWant := s.kTarget a }

/-- The divisor and its supply take effect. -/
def State.setClock (s : State) (a : Eng) (k : Nat) : State := s.modEpw a fun e => { e with k := k, kWant := k, vsup := s.vsupOf k }

/-- ISLAND_CLOCK_CHANGE (R551): the divisor asked for takes effect between two per-wedge jobs. -/
def execIslandClockChange (a : Eng) (s : State) : Out :=
  .next (
    let e := s.pwr.eng[a]
    if s.enginePresent a && e.k != e.kWant && s.eng[a].seq.jobPend == 0 then s.setClock a e.kWant else s)

/-- The islands of R37: engines 0 to 3, datapath 4, control 5, host 6, memory 7; the neighbours of one. -/
def State.neighbours (s : State) (i : Nat) : List Nat :=
  let eng := fun (n : Nat) => decide (n < s.layout.engines)
  if i < 4 then (if eng i then 4 :: ([i + 1] ++ (if 0 < i then [i - 1] else [])).filter (fun n => n < 4 && eng n) else [])
  else if i = 4 then (List.range 4).filter eng ++ [5, 6, 7]
  else [4]

/-- The throttle step of an island after a thermal sample (R554), and whether an excursion begins. -/
def State.throttle (s : State) (t : List Int) (i : Fin 8) : Nat × Bool × Bool :=
  let temp := fun (n : Nat) => (t[if n < 6 then n else n + 2]?).getD 0
  let n := s.pwr.thrStep[i]
  let pairs := s.neighbours i.val
  let hot := pairs.any fun j => decide (400 < temp i.val - temp j)
  let calm := pairs.all fun j => decide ((temp i.val - temp j).natAbs < 320)
  let exc := s.pwr.thrExc[i]
  if hot then (min 3 (n + 1), true, !exc) else if calm then (n - 1, false, false) else (n, exc, false)

/-- THERMAL_SAMPLE (R299, R552 to R554): ten sensors in 1/16 °C, the eight zones, then the host and memory islands. The thermal loops
latch their measurement, HOT and the throttle steps follow. -/
def execThermalSample (t : List Int) (s : State) : Out :=
  .next (
    let s := s.modLpe fun l => { l with temps := Vector.ofFn fun (z : Fin 8) => (t[z.val]?).getD 0 }
    let s := (fins 8).foldl (fun s (z : Fin 8) => s.latch (thermSlot z) s.mtime s.lpe.temps[z] false false) s
    let anyHot := (fins 8).any fun (z : Fin 8) => decide (1680 ≤ s.lpe.temps[z])
    let cool := (fins 8).all fun (z : Fin 8) => decide (s.lpe.temps[z] < 1600)
    let s := if anyHot && !s.pwr.hot then (s.modPwr fun p => { p with hot := true }).condPwr
      else if cool then s.modPwr fun p => { p with hot := false } else s
    let r := (fins 8).map fun (i : Fin 8) => (i, s.throttle t i)
    let s := r.foldl (fun s (i, n, e, first) =>
      let s := s.modPwr fun p => { p with thrStep := vset p.thrStep i n, thrExc := vset p.thrExc i e }
      let s := match fin? 4 i.val with
        | some a => (s.modEpw a fun x => { x with thr := n }).askClock a
        | none => s
      if first then
        let c := s.pwr.thrCnt
        let s := s.modPwr fun p => { p with thrCnt := inc 32 c }
        let s := s.saturated (reaches 32 c) 0x0F 5 0 0x10050 (nw (inc 32 c))
        match fin? 4 i.val with
        | some a => s.condPwrEng a
        | none => s.condPwr
      else s) s
    s)

/-! ### Bolero with the search for a speed (R358, R550) -/

/-- Head requests of the last epoch that fit at a speed in rpm (R550). -/
def State.headsAt (s : State) (rpm : Nat) : Nat :=
  let p := s.pwr
  let cost := fun (t : Tally) (r : PowerReq) =>
    match r.kind with
    | .read h => some { t with used := t.used + p.rdMw, share := t.share + s.shareAt h (16 * rpm) }
    | .write h => some { t with used := t.used + s.writeMw h }
    | _ => none
  (p.lastReqs.foldl (fun (acc : Tally × Nat) r =>
    match cost acc.1 r with
    | some t => if t.est p (t.total p) + p.reserve ≤ (p.ceilNow : Int) then (t, acc.2 + 1) else acc
    | none => acc) (s.fixedDraws rpm, 0)).2

/-- The candidate speed with the greatest H(n) × n, the higher one of a tie (R550). -/
def State.searchSpeed (s : State) : Nat :=
  let lo := max s.spn.eff.bolMin s.spn.nPav
  let hi := s.spn.eff.bolMax
  ((List.range ((hi - lo) / 120 + 1)).foldl (fun (best : Nat × Nat) i =>
    let n := lo + 120 * i
    let v := s.headsAt n * n
    if best.2 ≤ v then (n, v) else best) (lo, 0)).1

/-- DRAM media staging that holds read data awaiting the host, in bytes (R358). -/
def State.readStaged (s : State) : Nat := 4096 * (s.q.ctxs.map fun c => c.2.staged).sum

/-- The host data buffers that hold write data awaiting media, in bytes (R358). -/
def State.writeWaiting (s : State) : Nat :=
  4096 * (s.views.map fun v => (v.blocks.filter fun b => b.here && !b.onMedia && !b.durable && b.failed.isNone).length).sum

/-- BOLERO_EVALUATION (R358, R361, R370, R550), at wedge 0 of the reference engine: while the spindle runs with BOL_EN and an engine LOCKED, the stored values apply, N_CAP
follows the refusals of the revolution, and n_cmd its demands. -/
def execBoleroEvaluation (a : Eng) (s : State) : Out :=
  .next (
    if a ≠ s.refEngine then s
    else if s.spn.state = .run ∧ s.spn.set.bolEn ∧ s.anyLocked then
      let s := s.modSpn Spindle.apply
      let p := s.pwr
      let many := decide (p.revEpochs < 2 * p.revRefused)
      let clean := if p.revRefused = 0 then p.cleanRevs + 1 else 0
      let s := if many then
          let n := s.searchSpeed
          s.modPwr fun p => { p with nOpt := n, nCap := n }
        else if p.nLift ≤ clean then s.modPwr fun p => { p with nCap := s.spn.eff.bolMax } else s
      let s := s.modPwr fun p => { p with cleanRevs := clean, revEpochs := 0, revRefused := 0, accDraw := 0 }
      s.modSpn fun x => x.evaluate s.readStaged s.writeWaiting s.pwr.nCap
    else s.modSpn fun p => { p with sums := {} })

/-! ### Packets (0x0200 to 0x0203) -/

/-- budget.set (R557): the registers and the NOR configuration area; the arbiter uses them from the next epoch. -/
def opBudgetSet (p : Packet) (s : State) : PktRes :=
  let x := s.pwr
  let w : List Word :=
    [clampWord [fIn 31 0 10000 35000] (nw x.budget) (p.w 0),
      clampWord [fIn 31 24 0 200, fIn 23 16 8 255, fIn 15 12 0 8, fIn 11 8 1 15] x.cfg (p.w 1),
      clampWord [fIn 31 24 10 100, fIn 23 16 5 100, fIn 15 8 10 150, fIn 7 0 20 250] x.cost1 (p.w 2),
      clampWord [fAny 31 16, fIn 15 8 10 255, fIn 7 0 5 60] x.cost2 (p.w 3),
      clampWord [fIn 31 24 1 255, fIn 23 16 1 255, fIn 15 8 1 255, fIn 7 0 1 255] x.galopMw (p.w 4),
      clampWord [fIn 15 0 1000 20000] (nw x.rCoil) (p.w 5)]
  let v := fun (i : Nat) => (w[i]?).getD 0
  let s := s.modPwr fun y => { y with budget := (v 0).toNat, cfg := v 1, cost1 := v 2, cost2 := v 3, galopMw := v 4, rCoil := (v 5).toNat }
  { state := s.modNor fun n => { n with power := Vector.ofFn fun (i : Fin 6) => v i.val }
    clamp := clampBits ((List.range 6).map fun i => (i, p.w i, v i)), result := w }
/-- budget.set. -/
def execBudgetSet (p : Packet) (s : State) : Out := .next (runPacket ⟨0x0200, [5], .config⟩ p s (opBudgetSet p))

/-- budget.status. -/
def execBudgetStatus (p : Packet) (s : State) : Out := .next (runPacket ⟨0x0201, [5], .read⟩ p s fun s => .report s (stPwr s))

/-- budget.consumer (R558). -/
def opBudgetConsumer (p : Packet) (s : State) : PktRes :=
  let x := s.pwr
  .report s (
    if p.lvl = 3 then
      match fin? 24 p.idx with
      | some g => if s.head[g].map.depop then [0, 0, nw x.head[g].refCnt] else [rHdPwr x.head[g], rHdReq x.head[g], nw x.head[g].refCnt]
      | none => []
    else if p.lvl = 4 then
      match fin? 4 p.idx with
      | some a => [rEngPwr x.eng[a], if s.engineFailed a then 0 else rEngReq x.eng[a], rZoneAllow x ⟨a.val, by omega⟩]
      | none => []
    else [rZoneAllow x 4, rZoneAllow x 5, rZoneAllow x 6, rZoneAllow x 7, rEstOfs x, nw x.arbLateCnt])
/-- budget.consumer. -/
def execBudgetConsumer (p : Packet) (s : State) : Out := .next (runPacket ⟨0x0202, [3, 4, 5], .read⟩ p s (opBudgetConsumer p))

/-- budget.clear: a head that does not exist is a bad parameter where its counter is selected. -/
def opBudgetClear (p : Packet) (s : State) : PktRes :=
  let m := fld (p.w 0) 7 0
  let x := s.pwr
  let g := if (p.w 1).toNat < s.layout.total then fin? 24 (p.w 1).toNat else none
  if m.testBit 7 && g.isNone then .fail s 0x0105
  else
    let ref := (g.map fun h => x.head[h].refCnt).getD 0
    let vals := [x.accRefCnt, x.headRefCnt, x.seekDegCnt, x.yield3Cnt, x.overCnt, x.thrCnt, x.arbLateCnt, ref]
    let s := s.modPwr fun y =>
      { y with
        accRefCnt := clr m 0 y.accRefCnt, headRefCnt := clr m 1 y.headRefCnt, seekDegCnt := clr m 2 y.seekDegCnt
        yield3Cnt := clr m 3 y.yield3Cnt, overCnt := clr m 4 y.overCnt, thrCnt := clr m 5 y.thrCnt, arbLateCnt := clr m 6 y.arbLateCnt }
    let s := match g with
      | some h => s.modHpw h fun y => { y with refCnt := clr m 7 y.refCnt }
      | none => s
    { state := s, clamp := clampBits [(0, p.w 0, nw m)], result := selected m (vals.map fun v => [nw v]) }
/-- budget.clear. -/
def execBudgetClear (p : Packet) (s : State) : Out := .next (runPacket ⟨0x0203, [5], .action⟩ p s (opBudgetClear p))

end Sys2Proof.Machine
end

