-- ==== Sys2Proof/Machine/Start.lean ====
section
/-! DEFINITION. Start, resets and power loss (spec/20_start_reset_powerloss.md): power-on reset and the start phases, the durable zone
table, journal and indirection image, loading and unloading, the power-loss sequence, the four reset and actuator packets; and the
debug port's commands (R669). -/

namespace Sys2Proof.Machine
open Sys2Proof

/-! ### Power-on reset (R631, R652, R654, R672) -/

/-- RSEQ of the newest record programmed into the recorder's region. -/
def Nor.lastRseq (n : Nor) : Option Nat :=
  let l := (n.blocks.filter fun b => !b.events.isEmpty).map (·.rseqLast) ++ (n.unsealed.filter fun b => !b.2.events.isEmpty).map (·.2.rseqLast)
  l.foldl (fun (m : Option Nat) x =>
    match m with
    | none => some x
    | some y => if seqBefore y x then some x else m) none

/-- Power-on reset (R29, R654): the DDR4 partition is sized, and everything restarts but NOR, fuses and media; the command queue, the outputs and the pins of the outside stay
as they are. What the medium and the configuration area hold of a field is named in log 26. -/
def State.powerOn (s : State) (cause : Nat) : State :=
  let nor := { s.nor with unsealed := s.nor.unsealed ++ (fins 5).filterMap fun (t : StreamIx) => s.evr.open_[t].map fun b => (t, b) }
  ({ State.reset with
      pending := s.pending, free := s.free, out := s.out, nor := nor, fuse := s.fuse, layout := s.layout
      host := { State.reset.host with perst := s.host.perst }
      q := { State.reset.q with creditsFree := bufferCredits nor.convPct, creditsAll := bufferCredits nor.convPct }
      media := { State.reset.media with convPct := s.media.convPct, groups := s.media.groups.map fun l => l.filter (·.summary) }
      sec := { State.reset.sec with
        drbg := s.sec.drbg, sanFail := s.sec.sanFail, sanStatus := s.sec.sanStatus, sanUnrestricted := s.sec.sanUnrestricted }
      evr := { State.reset.evr with
        nextBseq := s.evr.nextBseq, nextPair := s.evr.nextPair, nextRseq := (nor.lastRseq.map fun n => wrapAdd 32 n 1).getD 0 }
      rst := { State.reset.rst with cause := cause, poh := nor.poh } } : State).newNonce

/-- POWER_ON_RESET (R631, R637, R652, R655): the supply meets R631. During a power-loss sequence the return of 12 V is only noted. -/
def execPowerOnReset (s : State) : Out :=
  .next (if s.rst.powerLoss then s.modRst fun r => { r with rail12 := true } else s.powerOn (s.rst.resetDue.getD 0))

/-- RAIL_FAULT (R672): a power-on reset; the power-loss sequence once begun runs to its end (R652). -/
def execRailFault (s : State) : Out := .next (if s.rst.powerLoss then s else s.powerOn 0)

/-! ### Boot ROM and first-stage loader (R574, R584, R587, R595, R596, R637) -/

/-- The image of a slot is the one that starts. -/
def State.startImage (s : State) (n : Nat) : State :=
  match vget s.nor.slots n none with
  | none => s
  | some o => (s.modSec fun x => { x with running := o, runSlot := n, loader := o.content }).modRst fun r => { r with phase := .loader }

/-- The PF is presented, with its queue pairs and its saved features. -/
def State.presentFn (s : State) (f : Fn) : State :=
  let saved := (s.nor.saved.filter fun p => p.1.1 = f).map fun p => (p.1.2, p.2)
  s.modFn f fun x =>
    { x with
      pairs := if f = 0 then 1024 + s.nor.pairs[0] else s.nor.pairs[f], saved := saved, features := saved
      ps := (((alookup saved 0x02).getD 0).toNat % 4), present := x.present || f == 0 }

/-- BOOT_ROM_DONE (R595, R637): the ACT_SLOT slot, else the other one with FALLBACK and an event, else recovery mode. -/
def execBootRomDone (s : State) : Out :=
  .next (
    if s.rst.phase ≠ .bootRom then s
    else if s.slotOk s.nor.actSlot then s.startImage s.nor.actSlot
    else
      let s := (s.modSec fun x => { x with fallback := true }).condSec
      if s.slotOk (1 - s.nor.actSlot) then s.startImage (1 - s.nor.actSlot)
      else (s.modRst fun r => { r with recovery := true, phase := .ready }).presentFn 0)

/-- FIRST_STAGE_LOADER_DONE (R569, R574, R584, R587, R596): the channels trained, the recorded repairs, a pending or due raise of
ROLL_CTR, the module-alias generation. -/
def execFirstStageLoaderDone (ch0 ch1 : Bool) (s : State) : Out :=
  .next (
    if s.rst.phase ≠ .loader then s
    else
      let s := s.modMem fun m =>
        { m with
          initDone := true
          chan := Vector.ofFn fun (c : Fin 2) =>
            { m.chan[c] with
              trained := if c = 0 then ch0 else ch1, pprUsed := (s.nor.repairs.filter fun x => x.1 == c.val).length } }
      let s : State := match s.nor.raisePend with
        | some t => s.raiseRoll t
        | none =>
          if s.sec.running.raiseSvn && s.raiseAllowed s.sec.running.svn then s.raiseRoll s.sec.running.svn else s
      let s := s.modSec fun x => { x with aliasGens := s.nor.aliasGens, aliasGen := ((s.nor.aliasGens.head?).map (·.1)).getD 0 }
      let newest : Option (BitVec 384) := s.sec.aliasGens.head?.map fun g => g.2
      let s : State := if newest = some s.aliasMeasure then s else s.advanceAlias
      s.modRst fun r => { r with phase := .firmware })

/-! ### Main firmware (R24, R21, R535, R622, R633 to R635) -/

/-- The stored layout in effect (R24): where it differs from the former one, no namespace, no zone and no DEPOP mark stays (R535). -/
def State.applyLayout (s : State) : State :=
  if s.layout = s.nor.layout then s
  else
    let s := { s with layout := s.nor.layout }
    let none4 : Vector (List Remap) 4 := Vector.replicate 4 []
    (s.modNor fun n =>
      { n with
        namespaces := [], mediaKeys := [], keyCopy := [], formats := [], zones := [], zoneDescs := [], journal := none, image := none, imageZones := []
        remaps := none4, heads := n.heads.map fun h => { h with depop := false } }).modMedia fun m =>
      { m with groups := Vector.replicate 4 [] }

/-- An engine's registers from the configuration area. -/
def State.loadEngine (s : State) (a : Eng) : State :=
  let n := s.nor.engs[a]
  let s := (fins 2).foldl (fun s (l : LinkIx) =>
    s.modLink a l fun k => { k with afeWdt := n.afeWdt[l], ackTmo := n.ackTmo[l], safeHtr := n.safeHtr[l] }) s
  let s := s.modSrv a fun v => { v with notch := n.vcmNotch, cfg := setFld v.cfg 7 0 n.ampMin }
  let s := s.modSeq a fun q =>
    { q with
      jobE := fld n.seqJob 31 16, eNow := fld n.seqJob 31 16, jobS := fld n.seqJob 15 0
      waitMax := fld n.seqCfg 31 24, rdTail := fld n.seqCfg 23 19, wenLead := fld n.seqCfg 11 0 }
  s.modAct a fun x =>
    { x with
      loadV := fld n.actCfg 31 24, unloadV := fld n.actCfg 23 16, loadTmo := fld n.actCfg 15 8, loadTries := fld n.actCfg 7 4 }

/-- A head's registers from the configuration area, band 0 loaded. -/
def State.loadHead (s : State) (g : Head) : State :=
  let n := s.nor.heads[g]
  let s := s.modWr g fun w => { w with lead := n.lead, asm := n.asm }
  let s := s.modHs g fun h =>
    { h with xofs := n.xofs, rdrXofs := n.rdrXofs, pesGain := n.pesGain, maCfg := n.maCfg, maNotch := n.maNotch }
  (s.modMap g fun m => { m with depop := n.depop }).loadEntry g 0 0

/-- The spindle's registers from the configuration area (R370). -/
def State.loadSpindle (s : State) : State :=
  let w := s.nor.spn
  let s := s.modSpn fun p =>
    let b := { p.set with tgt := fld w[1] 31 16, bolMax := fld w[2] 31 16, bolMin := fld w[2] 15 0 }
    { p with cfg := w[0], cfgStored := w[0], set := b, eff := b, start := w[3], startStored := w[3], nCmd := b.tgt }
  s.setPavane (fld w[4] 31 16) (fld w[4] 15 8) (fld w[4] 7 0)

/-- The registers of the module's own blocks from the configuration area. -/
def State.loadModule (s : State) : State :=
  let n := s.nor
  let h := n.hif
  let s := s.modHost fun x =>
    { x with
      vfCmb := h.getLsbD 31, vfCmbNext := h.getLsbD 31, miAddr := fld h 30 24, zfrl := fld h 23 16, namespaces := n.namespaces }
  let q := n.queue
  let s := s.modQ fun x =>
    { x with
      ctxMin := fld q[0] 31 24, ctxMax := fld q[0] 23 12, ageMax := fld q[1] 31 24, latGuard := fld q[1] 23 16, wbHigh := fld q[1] 15 8
      floorWin := fld q[1] 7 0, admBwPct := fld q[2] 31 24, admIops := fld q[2] 23 12 }
  let p := n.power
  let s := s.modPwr fun x =>
    { x with budget := p[0].toNat, cfg := p[1], cost1 := p[2], cost2 := p[3], galopMw := p[4], rCoil := p[5].toNat }
  let s := s.modMem fun x =>
    { x with
      cfg := n.mem[0], starve := n.mem[1], prio := n.mem[2]
      bkt := Vector.ofFn fun (r : MemRegion) => { x.bkt[r] with depth := fld n.bktCfg[r] 31 24, leakMin := fld n.bktCfg[r] 15 0 } }
  let s := s.modEvr fun x =>
    { x with
      sealT := fld n.evrCfg 31 16, frzMax := fld n.evrCfg 15 0
      worn := decide (32 ≤ (n.segs.toList.filter (·.retired)).length) }
  let s := s.modRst fun x => { x with mpCkptS := fld n.rstCfg 31 16, imgMin := fld n.rstCfg 15 8 }
  let s := s.modMedia fun x =>
    { x with
      regions := n.engs.map (·.regions), defects := n.defects, remaps := n.remaps.map fun l => l.filter (·.active)
      convNext := n.convPct }
  let done := (n.sanitise.map (·.share)).getD 0
  s.modSec fun x =>
    { x with
      mediaKeys := n.mediaKeys, sanitise := n.sanitise, sanProg := done
      opal := { n.opal with
        sessions := []
        ranges := n.opal.ranges.map fun r => { r with rdLocked := r.rdLocked || r.lockOnReset, wrLocked := r.wrLocked || r.lockOnReset } } }

/-- The loops' limits from the configuration area; the THERMAL slots run (R298). -/
def State.loadLoops (s : State) : State :=
  let s := s.modLpe fun l => { l with
    slots := Vector.ofFn fun (n : LoopIx) => { l.slots[n] with frzN := (s.nor.loopLim[n]).1, lostN := (s.nor.loopLim[n]).2 } }
  (fins 8).foldl (fun s (z : Fin 8) => s.enableSlot (thermSlot z) .closed) s

/-- Lanes bound to heads (R5, R19, R21): head g has lane g, or where that failed its self-test the lowest spare lane that passed. -/
def State.bindLanes (s : State) (fail : BitVec 24) : State :=
  let s := (fins 24).foldl (fun s (l : LaneIx) =>
    s.modLane l fun x => { x with bind := { x.bind with failed := fail.getLsbD l.val, head := none, pendingHead := none } }) s
  let need := (fins 24).filter fun (g : Head) => s.headPresent g && !s.head[g].map.depop
  let s := need.foldl (fun s g => if fail.getLsbD g.val then s else s.modLane g fun x => { x with bind := { x.bind with head := some g } }) s
  need.foldl (fun s g =>
    if fail.getLsbD g.val then
      match (fins 24).find? fun (l : LaneIx) => !fail.getLsbD l.val && s.lane[l].bind.head.isNone with
      | some l => s.modLane l fun x => { x with bind := { x.bind with head := some g } }
      | none => s
    else s) s

/-- The blocks that had no seal are sealed, LATE (R622). -/
def State.sealLate (s : State) : State :=
  (s.nor.unsealed.foldl (fun s b => s.sealBlock b.1 b.2 1) s).modNor fun n => { n with unsealed := [] }

/-- MAIN_FIRMWARE_DONE (R24, R535, R622, R633 to R635): `laneFail` holds the lanes that failed the power-on self-test. -/
def execMainFirmwareDone (laneFail : BitVec 24) (s : State) : Out :=
  .next (
    if s.rst.phase ≠ .firmware then s
    else
      let s := s.applyLayout.loadModule
      let s := (fins 4).foldl (fun s (a : Eng) => s.loadEngine a) s
      let s := (fins 24).foldl (fun s (g : Head) => s.loadHead g) s
      let s := s.loadSpindle.loadLoops.bindLanes laneFail
      let s := (fins 16).foldl (fun s (f : Fn) => s.presentFn f) s
      let s := s.modNor fun n => { n with pcyc := satAdd 32 n.pcyc 1 }
      let s := (s.modRst fun r => { r with pcyc := s.nor.pcyc, phase := .tables }).sealLate
      let s := s.record 0x0001 5 0 0 0 [s.sec.running.version, rFwState s, nw s.fuse.rollCtr, 0]
      let s := (fins 4).foldl (fun s (a : Eng) => if s.enginePresent a then (s.loadStore a).startSeq a 0 else s) s
      s.spindleStart)

/-! ### Tables (R415, R639 to R643) -/

/-- The journal is the last power-on's, whole (R640): the count stored has been advanced since. -/
def State.journalOk (s : State) : Bool :=
  match s.nor.journal with
  | some j => j.valid && j.pcyc + 1 == s.nor.pcyc
  | none => false

/-- MP of a zone's journal entry, where the journal is valid and the entry's ZGEN matches (R641). -/
def State.journalMp (s : State) (z : ZoneNo) (r : ZoneRecord) : Option Nat :=
  match s.nor.journal with
  | some j =>
    if s.journalOk then (j.entries.find? fun e => e.1 == z && e.2.2 == r.zgen.setWidth 28).map (·.2.1) else none
  | none => none

/-- A zone as its newest durable record and the format's geometry give it (R410, R639, R641, R643). -/
def State.startZone (s : State) (z : ZoneNo) (g : ZoneDesc) : ZoneDesc :=
  let r := s.zoneRecord z
  let mp := s.journalMp z r
  let zs := if r.zs = .impOpen ∨ r.zs = .expOpen then .closed else r.zs
  let ends := (s.media.groups[g.engine].filter fun x => x.zone == z).map fun x => ((x.blocks.map fun b => b.2.1 + 1).foldl max 0) + 1
  let wp :=
    if zs = .empty ∨ zs = .none ∨ zs = .offline then 0
    else if zs = .log then ends.foldl max (mp.getD r.mpCk)
    else if zs = .closed then mp.getD r.mpCk
    else mp.getD (if s.journalOk ∨ s.rst.cause = 1 then r.mpCk else r.zcap)
  { g with
    zs := zs, holes := r.holes, zfr := r.zfr, conv := r.conv, zgen := r.zgen, zcap := r.zcap, ver := 0, suspN := 0, wp := wp
    remapN := (s.media.remaps[g.engine].filter fun m => m.zone == z).length }

/-- Every zone of the format from the durable table (R641): a CLOSED zone without a journal entry waits for its read-forward. -/
def State.startZones (s : State) : State :=
  let zs := s.nor.zoneDescs.map fun p => (p.1, s.startZone p.1 p.2)
  let fwd := (zs.filter fun p => p.2.zs == .closed && (s.journalMp p.1 (s.zoneRecord p.1)).isNone).map (·.1)
  let named := zs.filter fun p => p.2.zs != .none && ((s.journalMp p.1 (s.zoneRecord p.1)).isSome || p.2.zs != (s.zoneRecord p.1).zs)
  let s' := (s.modMedia fun m => { m with zones := zs }).modRst fun r =>
    { r with rdfwdPend := fwd, rdfwdCnt := satAdd 32 r.rdfwdCnt fwd.length, jrnlUsed := s.journalOk }
  let s' := named.foldl (fun t p => t.putRecord p.1 (p.2.record ((s.journalMp p.1 (s.zoneRecord p.1)).getD (s.zoneRecord p.1).mpCk))) s'
  let s' := s'.modNor fun n => { n with journal := none }
  s'.modHost fun h => { h with zoneTimes := (zs.filter fun p => p.2.zs == .closed).map fun p => (p.1, s.mtime) }

/-- PL_LAST and JRNL_FAIL_CNT after a power loss (R651). -/
def State.noteLoss (s : State) (ok : Bool) : State :=
  if s.nor.lossPend then
    let w := mkw [bb 31 ok, bb 30 s.nor.unlOk, bf 15 0 s.nor.unlMs]
    let n := s.rst.jrnlFailCnt
    let s := (s.modNor fun x => { x with lossPend := false }).modRst fun r =>
      { r with plLast := w, jrnlFailCnt := if ok then n else inc 32 n }
    if ok then s else s.saturated (reaches 32 n) 0x12 5 0 0x320 (nw (inc 32 n))
  else s

/-- Place of a spare sector in its band: good slots before it. -/
def State.spareIndex (s : State) (a : Eng) (p : SectorAt) (r : RegionRec) : Nat :=
  let first := r.lastTrk + 1 - r.guard_ - r.spb
  s.runGood a p.head first (p.track - first) + ((s.goodSlots a p.head p.track).filter fun k => decide (k < p.sector)).length

/-- Spare bands of an engine, and how far each is used by the remaps in force (R219, R220). -/
def State.startSpares (s : State) (a : Eng) : State :=
  let s := s.measureSpares a
  let used := s.media.remaps[a].filterMap fun m =>
    (s.regionOf a m.spare.track).map fun k => (m.spare.head, k, s.spareIndex a m.spare s.media.regions[a][k] + 1)
  (s.modRec a fun r =>
    { r with
      spareUsed := used.length
      spareNext := Vector.ofFn fun (h : LHead) => Vector.ofFn fun (k : Fin 8) =>
        ((used.filter fun u => u.1 == h && u.2.1 == k).map (·.2.2)).foldl max 0 }).spareState a

/-- A changed CONV_PCT takes effect (R415): the region's contents go, its zones become EMPTY. -/
def State.applyConv (s : State) : State :=
  if s.media.convPct = s.nor.convPct then s
  else
    let s := (s.media.zones.filter fun p => p.2.zs == .log).foldl (fun s p =>
      s.setZone p.1 fun d => { d with zs := .empty, conv := false, wp := 0, zgen := d.zgen + 1 }) s
    let s := s.modMedia fun m => { m with convPct := s.nor.convPct, indir := [], groups := Vector.replicate 4 [] }
    s.modNor fun n => { n with image := none, imageZones := [] }

/-- Zones of an engine become log zones, lowest free one first, until their capacity reaches an amount. -/
def State.reserveLog (s : State) (a : Eng) (least : Nat) : Nat → State
  | 0 => s
  | fuel + 1 =>
    if least ≤ ((s.logZones a).map (·.2.zcap)).sum then s
    else match (s.freeZones a).head? with
      | some z => (s.setZone z fun d => { d with zs := .log, conv := true }).reserveLog a least fuel
      | none => s

/-- Image zones of an engine beyond its log zones (R645): two, one for each set. -/
def State.reserveImages (s : State) (a : Eng) : State :=
  let have_ := (s.nor.imageZones.filter fun z => (s.zoneDesc z).engine == a).length
  ((s.freeZones a).take (2 - have_)).foldl (fun s z =>
    (s.setZone z fun d => { d with zs := .log, conv := true }).modNor fun n => { n with imageZones := z :: n.imageZones }) s

/-- Log and image zones of the conventional region (R415, R645). -/
def State.reserveConv (s : State) : State :=
  let e := max 1 s.layout.engines
  if s.convBlocks = 0 then s
  else (fins 4).foldl (fun s (a : Eng) =>
    if s.enginePresent a then (s.reserveLog a ((5 * s.convBlocks + 4 * e - 1) / (4 * e)) 131072).reserveImages a else s) s

/-- TABLES_DONE (R636, R641): the durable table and journal are applied, TBL_READY sets and enabled controllers become ready. A head
that no lane serves fails (R21). -/
def execTablesDone (s : State) : Out :=
  .next (
    if s.rst.phase ≠ .tables then s
    else
      let s := (s.noteLoss s.journalOk).startZones
      let s := (fins 4).foldl (fun s (a : Eng) => if s.enginePresent a then s.startSpares a else s) s
      let s := s.applyConv.reserveConv
      let s := s.modRst fun r => { r with tblReady := true, phase := .ready }
      let s := s.modHost fun h => { h with fns := h.fns.map fun x => if x.en then { x with rdy := true } else x }
      ((fins 24).filter fun (g : Head) => s.headPresent g && (s.laneOf g).isNone).foldl (fun s g => s.headFail g) s)

/-! ### Read-forward and replay (R642, R646) -/

/-- WP and unreadable sectors of a read-forward from an offset on (R642): for each block in the order of R409 whether it converges with
the zone's ZGEN, and else whether the next slot of its head does. -/
def State.readForward (s : State) (d : ZoneDesc) : Nat → List RdFwd → Nat × List SectorAt
  | k, [] => (k, [])
  | k, r :: t =>
    if d.zcap ≤ k then (k, [])
    else if r.ok then s.readForward d (k + 1) t
    else if r.nextOk then
      let (e, l) := s.readForward d (k + 1) t
      (e, (s.blockSector d k).toList ++ l)
    else (k, [])

/-- READ_FORWARD (R642): a zone that waits for it, once its engine's heads are loaded. -/
def execReadForward (z : ZoneNo) (r : List RdFwd) (s : State) : Out :=
  .next (
    let d := s.zoneDesc z
    if s.rst.rdfwdPend.contains z && s.rst.tblReady && s.engineLoaded d.engine then
      let (wp, bad) := s.readForward d d.wp r
      let s := bad.foldl (fun s p => s.addDefect d.engine 2 p) s
      (s.setZone z fun d => { d with wp := wp }).modRst fun x => { x with rdfwdPend := x.rdfwdPend.filter fun y => y != z }
    else s)

/-- A group's summary applied at start (R646): an entry is replaced for a higher start number; a copy of the write an entry holds is
followed to its new place (R418). -/
def replayGroup (a : Eng) (g : LogGroup) (m : List (Nat × Indir)) : List (Nat × Indir) :=
  g.blocks.foldl (fun m (lba, ofs, no, copy) =>
    let e := (alookup m lba).getD {}
    let new : Indir := { valid := true, lost := false, engine := a, zone := g.zone, ofs := ofs, startNo := no }
    if !e.valid ∨ e.startNo < no then oset m lba new
    else match copy with
      | some (z, o) => if e.zone = z ∧ e.ofs = o ∧ e.startNo = no then oset m lba { e with engine := a, zone := g.zone, ofs := ofs } else m
      | none => m) m

/-- Every engine of the layout that has not failed is loaded. -/
def State.allLoaded (s : State) : Bool :=
  (fins 4).all fun (a : Eng) => !s.enginePresent a || s.engineFailed a || s.engineLoaded a

/-- Groups to be replayed on an image, or without one every group (R646). -/
def State.replayGroups (s : State) (image : Option IndirImage) : List (Eng × LogGroup) :=
  (fins 4).flatMap fun (a : Eng) => (s.media.groups[a].filter fun g =>
    match image with
    | none => true
    | some i => decide ((alookup i.mps g.zone).getD 0 ≤ ((g.blocks.head?).map fun b => b.2.1).getD 0)).map fun g => (a, g)

/-- INDIRECTION_REPLAY (R646): `imageOk` is whether the newest image could be read whole. -/
def execIndirectionReplay (imageOk : Bool) (s : State) : Out :=
  .next (
    if !s.rst.tblReady || s.rst.convReady || !s.allLoaded then s
    else
      let image := if imageOk then s.nor.image else none
      let groups := s.replayGroups image
      let m := groups.foldl (fun m g => replayGroup g.1 g.2 m) ((image.map (·.entries)).getD [])
      let seq := (((fins 4).flatMap fun (a : Eng) => s.media.groups[a].map fun g => g.seq.toNat).foldl (fun (n : Option Nat) x =>
        match n with
        | none => some x
        | some y => if seqBefore y x then some x else n) none)
      let s := s.modMedia fun x => { x with indir := m, groupSeq := (seq.map fun n => nw (n + 1)).getD 0 }
      let s := s.modQ fun q => { q with startNo := (m.map fun p => p.2.startNo).foldl max q.startNo }
      let s := ((fins 24).filter fun (g : Head) => s.headPresent g && s.head[g].map.depop).foldl (fun s g =>
        s.markLost (s.engineOf g) (s.localOf g)) s
      s.modRst fun r => { r with convReady := true })

/-! ### Checkpoints and images (R635, R639, R645, R655) -/

/-- POH_STORE (R635): POH is stored every 64 units. -/
def execPohStore (s : State) : Out :=
  .next (if s.nor.poh / 64 < s.rst.poh / 64 then s.modNor fun n => { n with poh := s.rst.poh } else s)

/-- MP_CHECKPOINT (R639): every MP_CKPT_S. -/
def execMpCheckpoint (s : State) : Out :=
  .next (if s.rst.tblReady ∧ s.rst.ckptAt ≤ s.mtime then
      (s.checkpoint fun _ => true).modRst fun r => { r with ckptAt := s.mtime + r.mpCkptS * secClocks }
    else s)

/-- The last part of a module reset (R655): with every engine parked the image is written, the packet is answered, and power-on reset
with CAUSE 1 is due. -/
def State.endModuleReset (s : State) : State :=
  if s.rst.moduleReset && s.allParked && !(s.q.ctxs.any fun p => !p.2.admin && p.2.started) &&
      !(s.q.buffered.any fun b => b.nsid != 0 && !b.settled) then
    (s.replyWaiting 0x0241 (fun p => p.w 0 == 1) 0 fun s _ => [rRstStatus s]).modRst fun r => { r with resetDue := some 1 }
  else s

/-- An image of the indirection is due (R645, R655): every IMG_MIN minutes, at a module reset, and at a shutdown that leaves no
controller enabled. -/
def State.imageDue (s : State) : Bool :=
  decide (s.rst.imgAt ≤ s.mtime) || s.rst.moduleReset || s.enabledFns.all fun f => s.host.fns[f].shst == 2

/-- INDIRECTION_IMAGE (R645, R655): every entry with its start number, and MP of every log zone, into the other set of image zones. -/
def execIndirectionImage (s : State) : Out :=
  .next (
    let mps := (fins 4).flatMap fun (a : Eng) => (s.logZones a).map fun p => (p.1, s.mediaPointer p.1)
    let s := if s.rst.convReady && s.imageDue then
        (s.modNor fun n => { n with image := some { entries := s.media.indir, mps := mps }, imageSet := !n.imageSet }).modRst fun r =>
          { r with imgAt := s.mtime + r.imgMin * 60 * secClocks }
      else s
    s.endModuleReset)

/-! ### Loading (R647, R648) -/

/-- HEAD_LOAD (R647 steps 1 to 3): the load is granted; k = 2, the AFE read state, LOADING, ACQUIRE. Reader velocity, the coil current
and the arm's position are measured from outside; the first valid position starts the seek. -/
def execHeadLoad (a : Eng) (s : State) : Out :=
  .next (
    if s.wantsLoad a && s.pwr.eng[a].loadGnt && s.pwr.late.isNone then
      let s := (s.setClock a 2).modEpw a fun e => { e with loadGnt := false }
      let heads := (s.headsOf a).filter fun g => !s.head[g].map.depop
      let wake := fun (s : State) (n : SliceIx) => s.modSlice n fun x => if x.state = .off then { x with state := .wake, srvDc := false } else x
      let s := heads.foldl (fun s g => (wake (wake s (sliceA g)) (sliceB g)).modHpw g fun h => { h with slcOn := true }) s
      let s := s.enableSlot (vcmSlot a) .open_
      let s := heads.foldl (fun s g =>
        let s := ((s.enableSlot (maSlot g) .open_).enableSlot (htrSlot g) .open_).enableSlot (asstSlot g) .off
        let v := s.fallbackValue (htrSlot g)
        s.modLoop (htrSlot g) fun x => { x with openVal := v, out := v }) s
      let s := s.modSrv a fun v => { v with mode := .loading, lossRun := 0, armValid := false, model := {}, blendK := 0, fromHold := false }
      let s := s.modAct a fun x => { x with state := .loading, tries := x.tries + 1, loadingAt := s.mtime, loadEnd := s.mtime + x.loadTmo * msClocks, loadReq := false }
      s.enterAcquire a
    else s)

/-- LOAD_TIMEOUT (R648): no valid arm position within LOAD_TMO of LOADING: the attempt fails, the engine unloads and retries, or fails
after the last attempt. -/
def execLoadTimeout (a : Eng) (s : State) : Out :=
  .next (
    let x := s.rst.act[a]
    if x.state = .loading ∧ s.eng[a].srv.mode = .loading ∧ x.loadEnd ≤ s.mtime then
      let n := x.loadFailCnt
      let s := s.modAct a fun y => { y with loadFailCnt := inc 32 n }
      let s := (s.saturated (reaches 32 n) 0x12 4 a.val (0x34C + a.val * 0x10) (nw (inc 32 n))).condAct a
      if x.tries < x.loadTries then (s.controlledUnload a).modAct a fun y => { y with tries := x.tries } else s.engineFail a
    else s)

/-! ### Unloading (R649, R650, R656) -/

/-- PARK_DONE (R650 step 3): the arm is parked and the retract bias of 30 mA holds; its sign is the drive's (log 2). -/
def execParkDone (a : Eng) (s : State) : Out :=
  .next (
    let x := s.rst.act[a]
    if x.state = .unloading ∨ x.state = .pavane then
      let (v, s) := s.fresh
      let s := s.modSrv a fun y => { y with mode := .unloaded, out := if v % 2 = 0 then 655 else -655 }
      let s := s.modAct a fun y => { y with state := if s.engineFailed a then .failed else .unloaded, biasing := true, biasEnd := s.mtime + 50 * msClocks }
      let ms := min 65535 ((s.mtime - x.unloadAt) / 3000000)
      let s := if s.rst.powerLoss then s.modNor fun n => { n with unlMs := max n.unlMs ms } else s
      s.replyWaiting 0x0243 (fun p => p.idx == a.val) 0 fun s _ => [rActStatus s.rst.act[a], rSrvStatus s a]
    else s)

/-- The engine's island restarts while its heads are unloaded (R656 steps 2 to 4): the cache is flushed and invalidated, its jobs'
steps are re-queued, the control store reloaded. A held engine stays unloaded, and the packet is answered at once. -/
def State.restartEngine (s : State) (a : Eng) : State :=
  let s := s.modZdc a fun c =>
    { c with
      lines := c.lines.map fun l => if l.state != .invalid then { l with invWait := true } else l
      invVictims := c.invVictims ++ (c.victims.toList.filter fun v => v.state != .free).map (·.zone) }
  let s := s.zdcSettle a
  let s := (fins 16).foldl (fun s (j : JobIx) =>
    match s.eng[a].recv.jobs[j] with
    | none => s
    | some x =>
      if x.wait = .copy then s
      else ((s.unbias a j).releaseJob a j).modJob a j fun y => { y with wait := if y.wait = .stopped then .stopped else .ready, try_ := 0, cw := {}, offs := y.stepStart }) s
  let s := if s.eng[a].seq.state = .off ∨ s.eng[a].seq.state = .failed then s
    else
      let s := (s.loadStore a).modSeq a fun q => { q with skipped := q.fq ++ q.skipped, fq := [] }
      (((s.headsOf a).foldl State.dropHead s).startSeq a 4).patchApplied
  if s.rst.act[a].held then
    (s.modAct a fun x => { x with reloadAfter := false }).replyWaiting 0x0241 (fun p => p.w 0 == 2 && p.w 1 == nw a.val) 0
      fun s _ => [rActStatus s.rst.act[a]]
  else s

/-- RETRACT_BIAS_END (R650 steps 3 and 4): the drive is off, the loops stop, the slices are gated, k is 4, the timeline enters SPINDLE.
What waited for the unload goes on: an engine reset, a spindle stop after a shutdown. -/
def execRetractBiasEnd (a : Eng) (s : State) : Out :=
  .next (
    if s.rst.act[a].biasing && decide (s.rst.act[a].biasEnd ≤ s.mtime) then
      let s := (s.modAct a fun x => { x with biasing := false }).modSrv a fun v => { v with out := 0 }
      let s := s.disableEngineLoops a
      let s := (s.headsOf a).foldl (fun s g =>
        let off := fun (s : State) (n : SliceIx) => s.modSlice n fun x => { x with state := .off, srvDc := false }
        (off (off s (sliceA g)) (sliceB g)).modHpw g fun h => { h with slcOn := false }) s
      let s := s.setClock a 4
      let s := if s.eng[a].reel.state = .spindle ∨ s.eng[a].reel.state = .stopped then s else s.enterIdle a .spindle
      let s := if s.rst.act[a].reloadAfter then s.restartEngine a else s
      if s.spn.stopAfter ∧ s.allParked then s.spindleStop.modSpn fun p => { p with stopAfter := false } else s
    else s)

/-- UNLOAD_TIMEOUT (R650): 300 ms without parking: UNL_OK clears with one event; with 12 V present the engine fails. -/
def execUnloadTimeout (a : Eng) (s : State) : Out :=
  .next (
    if (s.rst.act[a].state = .unloading ∨ s.rst.act[a].state = .pavane) ∧ s.rst.act[a].unloadAt + 300 * msClocks ≤ s.mtime then
      let s := (s.modNor fun n => { n with unlOk := false }).modRst fun r => { r with plLast := setFld r.plLast 30 30 0 }
      let s := s.condAct a
      if s.rst.rail12 then s.engineFail a else s
    else s)

/-! ### Power loss (R632, R640, R651, R652) -/

/-- Host, memory, slice and lane islands and the decoders lose power (R651): what they held is gone. -/
def State.gateIslands (s : State) : State :=
  let s := s.modHost fun h =>
    { h with dlUp := false, gen := 0, width := 0, fns := h.fns.map fun (x : FnState) => { x with present := false, rdy := false } }
  { s with
    slice := s.slice.map fun (x : Slice) => { x with state := SliceState.off }
    pool := State.reset.pool
    mem := { s.mem with dram := [] }
    lane := s.lane.map fun (l : Lane) => { l with slots := Vector.replicate 4 {}, inBuf := none } }

/-- POWER_FAIL (R632, R651): every write gate goes off, SAFE, Pavane of every loaded engine; the other islands are power-gated. -/
def execPowerFail (s : State) : Out :=
  .next (
    if s.rst.powerLoss then s.modRst fun r => { r with rail12 := false }
    else
      let n := s.rst.plCnt
      let s := s.modRst fun r => { r with rail12 := false, powerLoss := true, journalDone := false, plCnt := inc 32 n }
      let s := s.saturated (reaches 32 n) 0x12 5 0 0x31C (nw (inc 32 n))
      let s := s.modNor fun x => { x with lossPend := true, unlOk := true, unlMs := 0 }
      let s := (fins 4).foldl (fun s (a : Eng) =>
        if s.enginePresent a then s.forceWritesOff a (s.headsOf a) true true else s) s
      s.pavaneAll.gateIslands)

/-- JOURNAL_PROGRAM (R640): one entry for each zone whose MP differs from its checkpoint, in rising number, 8 188 at most; POH with
it. -/
def execJournalProgram (s : State) : Out :=
  .next (
    if s.rst.powerLoss && !s.rst.journalDone then
      let entries := (s.media.zones.filter fun p =>
        (s.zoneDesc p.1).zs != .none && s.mediaPointer p.1 != (s.zoneRecord p.1).mpCk && !s.rst.rdfwdPend.contains p.1).map fun p =>
          (p.1, s.mediaPointer p.1, (s.zoneDesc p.1).zgen.setWidth 28)
      let s := s.modRst fun r => { r with journalDone := true }
      if s.rst.tblReady then
        s.modNor fun n =>
          { n with poh := s.rst.poh, journal := some { pcyc := n.pcyc, poh := s.rst.poh, entries := entries.take 8188, valid := true } }
      else s
    else s)

/-- POWER_LOSS_END (R651, R652): the electronics stop and the spindle coasts; an arm not parked clears UNL_OK. With 12 V back, a
power-on reset with CAUSE 2 is due. -/
def execPowerLossEnd (s : State) : Out :=
  .next (
    if s.rst.powerLoss then
      let s := s.modRst fun r => { r with powerLoss := false, resetDue := if r.rail12 then some 2 else none }
      let s := if s.allParked then s else s.modNor fun n => { n with unlOk := false }
      s.modSpn fun p => if p.state = .stopped then p else { p with state := .coast, icmd := 0, goodRun := 0, steps := [] }
    else s)

/-! ### Packets (0x0240 to 0x0243) -/

/-- reset.status. -/
def execResetStatus (p : Packet) (s : State) : Out := .next (runPacket ⟨0x0240, [5], .read⟩ p s fun s => .report s (stRst s))

/-- A module reset begins (R655): fetching stops on every function. -/
def State.beginModuleReset (s : State) : State := (s.modRst fun r => { r with moduleReset := true }).settleReset

/-- reset.request kind 0: the selected counters are read and cleared; LOAD_CNT and LOAD_FAIL_CNT are those of the engine of word 2. -/
def State.resetClear (s : State) (p : Packet) : PktRes :=
  let m := fld (p.w 1) 4 0
  let e := fin? 4 (p.w 2).toNat
  if 8 ≤ m ∧ e.isNone then .fail s 0x0105
  else
    let a := e.getD 0
    let r := s.rst
    let x := r.act[a]
    let s := s.modRst fun r =>
      { r with plCnt := clr m 0 r.plCnt, jrnlFailCnt := clr m 1 r.jrnlFailCnt, rdfwdCnt := clr m 2 r.rdfwdCnt }
    { state := s.modAct a fun x => { x with loadCnt := clr m 3 x.loadCnt, loadFailCnt := clr m 4 x.loadFailCnt }
      result := selected m [[nw r.plCnt], [nw r.jrnlFailCnt], [nw r.rdfwdCnt], [nw x.loadCnt], [nw x.loadFailCnt]]
      clamp := clampBits [(1, p.w 1, nw m)] }

/-- reset.request kind 1 (R655, R657). -/
def State.resetModule (s : State) (p : Packet) : PktRes :=
  if p.w 3 ≠ 0x52455354 then .fail s 0x0105
  else { state := s.beginModuleReset, wait := true }

/-- reset.request kind 2 (R656, R657): the engine unloads; the rest follows once it is parked. -/
def State.resetEngine (s : State) (p : Packet) : PktRes :=
  if p.w 3 ≠ 0x52455354 then .fail s 0x0105
  else
    match fin? 4 (p.w 1).toNat with
    | none => .fail s 0x0201
    | some a =>
      if !s.enginePresent a then .fail s 0x0201
      else if s.engineFailed a then .fail s 0x0202
      else
        let s := (s.controlledUnload a).modAct a fun x => { x with reloadAfter := true, tries := 0 }
        let x := s.rst.act[a]
        if x.state = .unloaded ∧ !x.biasing then
          let s := s.restartEngine a
          { state := s, wait := s.rst.act[a].reloadAfter, result := [rActStatus s.rst.act[a]] }
        else { state := s, wait := true }

/-- reset.request kind 3: RST_CFG, to the NOR configuration area as well (R657). -/
def State.resetConfigure (s : State) (p : Packet) : PktRes :=
  let w := clampWord [fIn 31 16 1 3600, fIn 15 8 5 240] 0 (p.w 1)
  { state := (s.modRst fun r => { r with mpCkptS := fld w 31 16, imgMin := fld w 15 8 }).modNor fun n => { n with rstCfg := w }
    result := [w], clamp := clampBits [(1, p.w 1, w)] }

/-- reset.request by its kind. -/
def opResetRequest (p : Packet) (s : State) : PktRes :=
  match (p.w 0).toNat with
  | 0 => s.resetClear p
  | 1 => s.resetModule p
  | 2 => s.resetEngine p
  | 3 => s.resetConfigure p
  | _ => .fail s 0x0105

/-- reset.request, kind 0. -/
def execResetClear (p : Packet) (s : State) : Out := .next (runPacket ⟨0x0241, [5], .action⟩ p s (opResetRequest p))
/-- reset.request, kind 1. -/
def execResetModule (p : Packet) (s : State) : Out := .next (runPacket ⟨0x0241, [5], .action⟩ p s (opResetRequest p))
/-- reset.request, kind 2. -/
def execResetEngine (p : Packet) (s : State) : Out := .next (runPacket ⟨0x0241, [5], .action⟩ p s (opResetRequest p))
/-- reset.request, kind 3. -/
def execResetConfigure (p : Packet) (s : State) : Out := .next (runPacket ⟨0x0241, [5], .action⟩ p s (opResetRequest p))

/-- ACT_CFG after clamping. -/
def actCfgWord (sent : Word) : Word := clampWord [fIn 31 24 50 250, fIn 23 16 50 250, fIn 15 8 5 100, fIn 7 4 1 8] 0 sent

/-- actuator.load (R657, R658): HELD clears and a new series starts; the reply comes when the load completes or the engine fails. While
an engine reset is under way the packet is refused. -/
def opActuatorLoad (p : Packet) (s : State) : PktRes :=
  let a := p.eng
  if s.rst.act[a].reloadAfter then .fail s 0x0302
  else
    let w0 := clampWord [fAny 0 0] 0 (p.w 0)
    let apply := w0.getLsbD 0
    let w1 := actCfgWord (p.w 1)
    let s := if apply then
        (s.modAct a fun x =>
          { x with loadV := fld w1 31 24, unloadV := fld w1 23 16, loadTmo := fld w1 15 8, loadTries := fld w1 7 4 }).modNor fun n =>
          { n with engs := vmod n.engs a fun e => { e with actCfg := w1 } }
      else s
    let loaded := s.rst.act[a].state == .loaded
    let s := if loaded then s
      else s.modAct a fun x => { x with held := false, tries := if x.state = .loading then x.tries else 0 }
    { state := s, wait := !loaded, result := [rActStatus s.rst.act[a], rSrvStatus s a, nw s.rst.act[a].loadCnt]
      clamp := clampBits ((0, p.w 0, w0) :: if apply then [(1, p.w 1, w1)] else []) }
/-- actuator.load. -/
def execActuatorLoad (p : Packet) (s : State) : Out := .next (runPacket ⟨0x0242, [4], .action⟩ p s (opActuatorLoad p))

/-- actuator.unload (R658): HELD sets, the engine unloads under R649, and the reply comes when the arm is parked; on an engine already
unloaded it has no effect. -/
def opActuatorUnload (p : Packet) (s : State) : PktRes :=
  let a := p.eng
  let idle := s.rst.act[a].state == .unloaded && !s.rst.act[a].loadReq
  let s := if idle then s else (s.controlledUnload a).modAct a fun x => { x with held := true, tries := 0 }
  { state := s, wait := !idle && s.rst.act[a].state != .unloaded, result := [rActStatus s.rst.act[a], rSrvStatus s a] }
/-- actuator.unload. -/
def execActuatorUnload (p : Packet) (s : State) : Out := .next (runPacket ⟨0x0243, [4], .action⟩ p s (opActuatorUnload p))

/-! ### P-DBG (R669) -/

/-- SRST_ASSERT (R669): as reset.request kind 1 while P-DBG is unlocked, else nothing. -/
def execSrstAssert (s : State) : Out := .next (if s.sec.dbgUnlock then s.beginModuleReset else s)

/-- TAP_IDCODE (R669): the 32-bit IDCODE is shifted out; its value is not in the manual (log 7). -/
def execTapIdcode (s : State) : Out := .next (s.modOut fun o => { o with tap := (32, Config.idcode) :: o.tap })

/-- TAP_BYPASS (R669): the 1-bit bypass register is shifted. -/
def execTapBypass (s : State) : Out := .next (s.modOut fun o => { o with tap := (1, 0) :: o.tap })

end Sys2Proof.Machine
end

