-- ==== Sys2Proof/Machine/Dispatch.lean ====
section
/-! DEFINITION. Machine/Dispatch.lean: one arm per command. -/

namespace Sys2Proof.Machine
open Sys2Proof

/-- The effect of a command on everything but the queue. -/
def exec (i : Instr) (s : State) : Host.Outcome State Fault Refusal :=
  match i with
  | .powerOnReset => Sys2Proof.Machine.execPowerOnReset s
  | .bootRomDone => Sys2Proof.Machine.execBootRomDone s
  | .firstStageLoaderDone ch0 ch1 => Sys2Proof.Machine.execFirstStageLoaderDone ch0 ch1 s
  | .mainFirmwareDone laneFail => Sys2Proof.Machine.execMainFirmwareDone laneFail s
  | .tablesDone => Sys2Proof.Machine.execTablesDone s
  | .readForward z r => Sys2Proof.Machine.execReadForward z r s
  | .indirectionReplay imageOk => Sys2Proof.Machine.execIndirectionReplay imageOk s
  | .powerFail => Sys2Proof.Machine.execPowerFail s
  | .journalProgram => Sys2Proof.Machine.execJournalProgram s
  | .powerLossEnd => Sys2Proof.Machine.execPowerLossEnd s
  | .railFault => Sys2Proof.Machine.execRailFault s
  | .pohStore => Sys2Proof.Machine.execPohStore s
  | .mpCheckpoint => Sys2Proof.Machine.execMpCheckpoint s
  | .indirectionImage => Sys2Proof.Machine.execIndirectionImage s
  | .headLoad a => Sys2Proof.Machine.execHeadLoad a s
  | .loadTimeout a => Sys2Proof.Machine.execLoadTimeout a s
  | .parkDone a => Sys2Proof.Machine.execParkDone a s
  | .retractBiasEnd a => Sys2Proof.Machine.execRetractBiasEnd a s
  | .unloadTimeout a => Sys2Proof.Machine.execUnloadTimeout a s
  | .lockstepMismatch a => Sys2Proof.Machine.execLockstepMismatch a s
  | .mgmtWatchdogExpiry c => Sys2Proof.Machine.execMgmtWatchdogExpiry c s
  | .srstAssert => Sys2Proof.Machine.execSrstAssert s
  | .tapIdcode => Sys2Proof.Machine.execTapIdcode s
  | .tapBypass => Sys2Proof.Machine.execTapBypass s
  | .registerWrite w addr v => Sys2Proof.Machine.execRegisterWrite w addr v s
  | .invalidRegisterAccess f acc => Sys2Proof.Machine.execInvalidRegisterAccess f acc s
  | .snapshotWrite addr => Sys2Proof.Machine.execSnapshotWrite addr s
  | .comparatorArm a c ctl => Sys2Proof.Machine.execComparatorArm a c ctl s
  | .comparatorFire a c d => Sys2Proof.Machine.execComparatorFire a c d s
  | .servoMarkAccept a m => Sys2Proof.Machine.execServoMarkAccept a m s
  | .markHoldExpiry a => Sys2Proof.Machine.execMarkHoldExpiry a s
  | .reelStatus p => Sys2Proof.Machine.execReelStatus p s
  | .reelMarker p => Sys2Proof.Machine.execReelMarker p s
  | .reelConfig p => Sys2Proof.Machine.execReelConfig p s
  | .reelClear p => Sys2Proof.Machine.execReelClear p s
  | .armAckReceive a l seq => Sys2Proof.Machine.execArmAckReceive a l seq s
  | .armNakReceive a l isAck seq => Sys2Proof.Machine.execArmNakReceive a l isAck seq s
  | .armAckTimeout a l => Sys2Proof.Machine.execArmAckTimeout a l s
  | .armStatusFrame a l fr => Sys2Proof.Machine.execArmStatusFrame a l fr s
  | .afeFaultStrobe a l mask => Sys2Proof.Machine.execAfeFaultStrobe a l mask s
  | .auxSlotRequest a l r => Sys2Proof.Machine.execAuxSlotRequest a l r s
  | .configFrameSend a l c => Sys2Proof.Machine.execConfigFrameSend a l c s
  | .armConfigReply a l r crc => Sys2Proof.Machine.execArmConfigReply a l r crc s
  | .armLinkDown a l why => Sys2Proof.Machine.execArmLinkDown a l why s
  | .armTrainAttempt a l => Sys2Proof.Machine.execArmTrainAttempt a l s
  | .armTrainTimeout a l => Sys2Proof.Machine.execArmTrainTimeout a l s
  | .armStatus p => Sys2Proof.Machine.execArmStatus p s
  | .armClear p => Sys2Proof.Machine.execArmClear p s
  | .armConfig p => Sys2Proof.Machine.execArmConfig p s
  | .armRetrain p => Sys2Proof.Machine.execArmRetrain p s
  | .sliceEnable n => Sys2Proof.Machine.execSliceEnable n s
  | .sliceStreamStart n level epoch => Sys2Proof.Machine.execSliceStreamStart n level epoch s
  | .sliceUnderrun n => Sys2Proof.Machine.execSliceUnderrun n s
  | .sliceLateWordDiscard n wseq => Sys2Proof.Machine.execSliceLateWordDiscard n wseq s
  | .sliceFifoTimeout n => Sys2Proof.Machine.execSliceFifoTimeout n s
  | .sliceOverrun n => Sys2Proof.Machine.execSliceOverrun n s
  | .dropCommand n => Sys2Proof.Machine.execDropCommand n s
  | .zeroPhaseStart g r => Sys2Proof.Machine.execZeroPhaseStart g r s
  | .sliceAcqToTrack g r => Sys2Proof.Machine.execSliceAcqToTrack g r s
  | .bandLoad g track => Sys2Proof.Machine.execBandLoad g track s
  | .sliceConfig p => Sys2Proof.Machine.execSliceConfig p s
  | .sliceStatus p => Sys2Proof.Machine.execSliceStatus p s
  | .sliceClear p => Sys2Proof.Machine.execSliceClear p s
  | .sliceRestart p => Sys2Proof.Machine.execSliceRestart p s
  | .syncDecision g l k => Sys2Proof.Machine.execSyncDecision g l k s
  | .firstPassDone l k => Sys2Proof.Machine.execFirstPassDone l k s
  | .iterationDetectorPassDone l k => Sys2Proof.Machine.execIterationDetectorPassDone l k s
  | .localIterationEnd e q => Sys2Proof.Machine.execLocalIterationEnd e q s
  | .codewordCheckDone e q => Sys2Proof.Machine.execCodewordCheckDone e q s
  | .stagingAccept l k => Sys2Proof.Machine.execStagingAccept l k s
  | .detConfig p => Sys2Proof.Machine.execDetConfig p s
  | .detTaps p => Sys2Proof.Machine.execDetTaps p s
  | .detNp p => Sys2Proof.Machine.execDetNp p s
  | .detStatus p => Sys2Proof.Machine.execDetStatus p s
  | .detClear p => Sys2Proof.Machine.execDetClear p s
  | .decoderRequest r q => Sys2Proof.Machine.execDecoderRequest r q s
  | .decoderArbitration e => Sys2Proof.Machine.execDecoderArbitration e s
  | .decoderEngineFail e => Sys2Proof.Machine.execDecoderEngineFail e s
  | .recoveryJobOpen l k => Sys2Proof.Machine.execRecoveryJobOpen l k s
  | .retainedStreamCopyDone a j => Sys2Proof.Machine.execRetainedStreamCopyDone a j s
  | .ladderTry a j => Sys2Proof.Machine.execLadderTry a j s
  | .captureComplete a j => Sys2Proof.Machine.execCaptureComplete a j s
  | .deepDecodeDone e a j p => Sys2Proof.Machine.execDeepDecodeDone e a j p s
  | .guardTimerExpiry a j => Sys2Proof.Machine.execGuardTimerExpiry a j s
  | .reallocate a => Sys2Proof.Machine.execReallocate a s
  | .remapActivate a n => Sys2Proof.Machine.execRemapActivate a n s
  | .poolStatus p => Sys2Proof.Machine.execPoolStatus p s
  | .poolConfig p => Sys2Proof.Machine.execPoolConfig p s
  | .poolEngine p => Sys2Proof.Machine.execPoolEngine p s
  | .poolRequester p => Sys2Proof.Machine.execPoolRequester p s
  | .poolClear p => Sys2Proof.Machine.execPoolClear p s
  | .recConfig p => Sys2Proof.Machine.execRecConfig p s
  | .recStatus p => Sys2Proof.Machine.execRecStatus p s
  | .recClear p => Sys2Proof.Machine.execRecClear p s
  | .writeEncode x k => Sys2Proof.Machine.execWriteEncode x k s
  | .writerSlotRequest g preBias => Sys2Proof.Machine.execWriterSlotRequest g preBias s
  | .memsSample m => Sys2Proof.Machine.execMemsSample m s
  | .memsSampleTimeout => Sys2Proof.Machine.execMemsSampleTimeout s
  | .suspectRewrite g => Sys2Proof.Machine.execSuspectRewrite g s
  | .suspectSpareWrite g => Sys2Proof.Machine.execSuspectSpareWrite g s
  | .wrtConfig p => Sys2Proof.Machine.execWrtConfig p s
  | .wrtHead p => Sys2Proof.Machine.execWrtHead p s
  | .wrtGuard p => Sys2Proof.Machine.execWrtGuard p s
  | .wrtStatus p => Sys2Proof.Machine.execWrtStatus p s
  | .wrtClear p => Sys2Proof.Machine.execWrtClear p s
  | .wrtSlots p => Sys2Proof.Machine.execWrtSlots p s
  | .seekRequest a h tgt => Sys2Proof.Machine.execSeekRequest a h tgt s
  | .srvStatus p => Sys2Proof.Machine.execSrvStatus p s
  | .srvConfig p => Sys2Proof.Machine.execSrvConfig p s
  | .srvQuadrille p => Sys2Proof.Machine.execSrvQuadrille p s
  | .srvNotch p => Sys2Proof.Machine.execSrvNotch p s
  | .srvHead p => Sys2Proof.Machine.execSrvHead p s
  | .srvHstatus p => Sys2Proof.Machine.execSrvHstatus p s
  | .srvClear p => Sys2Proof.Machine.execSrvClear p s
  | .loopComputeStart n => Sys2Proof.Machine.execLoopComputeStart n s
  | .loopComputeDone n => Sys2Proof.Machine.execLoopComputeDone n s
  | .loopOutputRelease n => Sys2Proof.Machine.execLoopOutputRelease n s
  | .thermalSample t => Sys2Proof.Machine.execThermalSample t s
  | .traceTimeout => Sys2Proof.Machine.execTraceTimeout s
  | .traceCopyDone => Sys2Proof.Machine.execTraceCopyDone s
  | .loopStatus p => Sys2Proof.Machine.execLoopStatus p s
  | .loopCoef p => Sys2Proof.Machine.execLoopCoef p s
  | .loopBankSwap p => Sys2Proof.Machine.execLoopBankSwap p s
  | .loopConfig p => Sys2Proof.Machine.execLoopConfig p s
  | .loopClear p => Sys2Proof.Machine.execLoopClear p s
  | .traceConfig p => Sys2Proof.Machine.execTraceConfig p s
  | .traceArm p => Sys2Proof.Machine.execTraceArm p s
  | .traceTrigger p => Sys2Proof.Machine.execTraceTrigger p s
  | .traceStatus p => Sys2Proof.Machine.execTraceStatus p s
  | .zeroCrossing x => Sys2Proof.Machine.execZeroCrossing x s
  | .commutation window demagDone => Sys2Proof.Machine.execCommutation window demagDone s
  | .crossingMissed => Sys2Proof.Machine.execCrossingMissed s
  | .rotorLockLoss => Sys2Proof.Machine.execRotorLockLoss s
  | .coastTimeout => Sys2Proof.Machine.execCoastTimeout s
  | .detectTimeout r => Sys2Proof.Machine.execDetectTimeout r s
  | .brakeShortEnd => Sys2Proof.Machine.execBrakeShortEnd s
  | .brakeObserveEnd crossings => Sys2Proof.Machine.execBrakeObserveEnd crossings s
  | .brakeSettleEnd => Sys2Proof.Machine.execBrakeSettleEnd s
  | .alignEnd => Sys2Proof.Machine.execAlignEnd s
  | .openLoopStep reverse => Sys2Proof.Machine.execOpenLoopStep reverse s
  | .startAttemptTimeout => Sys2Proof.Machine.execStartAttemptTimeout s
  | .spindleSample => Sys2Proof.Machine.execSpindleSample s
  | .boleroEvaluation a => Sys2Proof.Machine.execBoleroEvaluation a s
  | .nrefUpdate => Sys2Proof.Machine.execNrefUpdate s
  | .chopperSwitch mv => Sys2Proof.Machine.execChopperSwitch mv s
  | .chopperBucketThreshold level => Sys2Proof.Machine.execChopperBucketThreshold level s
  | .chopperFault senseMa => Sys2Proof.Machine.execChopperFault senseMa s
  | .railOvervoltage mv => Sys2Proof.Machine.execRailOvervoltage mv s
  | .spindleStatus p => Sys2Proof.Machine.execSpindleStatus p s
  | .spindleTarget p => Sys2Proof.Machine.execSpindleTarget p s
  | .spindleBolero p => Sys2Proof.Machine.execSpindleBolero p s
  | .spindleConfig p => Sys2Proof.Machine.execSpindleConfig p s
  | .spindleRunStop p => Sys2Proof.Machine.execSpindleRunStop p s
  | .spindleRunStart p => Sys2Proof.Machine.execSpindleRunStart p s
  | .spindleChopperTest p => Sys2Proof.Machine.execSpindleChopperTest p s
  | .spindleClear p => Sys2Proof.Machine.execSpindleClear p s
  | .fragmentEnqueue a e => Sys2Proof.Machine.execFragmentEnqueue a e s
  | .inc a => Sys2Proof.Machine.execInc a s
  | .br a => Sys2Proof.Machine.execBr a s
  | .loop a => Sys2Proof.Machine.execLoop a s
  | .call a => Sys2Proof.Machine.execCall a s
  | .ret a => Sys2Proof.Machine.execRet a s
  | .wait a => Sys2Proof.Machine.execWait a s
  | .waitComplete a => Sys2Proof.Machine.execWaitComplete a s
  | .rtt a => Sys2Proof.Machine.execRtt a s
  | .lds a dst => Sys2Proof.Machine.execLds a dst s
  | .add a dst src imm => Sys2Proof.Machine.execAdd a dst src imm s
  | .ldf a dst => Sys2Proof.Machine.execLdf a dst s
  | .lde a dst => Sys2Proof.Machine.execLde a dst s
  | .lead a dst src imm => Sys2Proof.Machine.execLead a dst src imm s
  | .win a dst src => Sys2Proof.Machine.execWin a dst src s
  | .mov a dst src => Sys2Proof.Machine.execMov a dst src s
  | .ldw a dst => Sys2Proof.Machine.execLdw a dst s
  | .arm a x => Sys2Proof.Machine.execArm a x s
  | .armr a x rep => Sys2Proof.Machine.execArmr a x rep s
  | .armf a x => Sys2Proof.Machine.execArmf a x s
  | .armfStallEnd a => Sys2Proof.Machine.execArmfStallEnd a s
  | .dis a csel => Sys2Proof.Machine.execDis a csel s
  | .dism a hsrc hmask => Sys2Proof.Machine.execDism a hsrc hmask s
  | .pop a => Sys2Proof.Machine.execPop a s
  | .armed a => Sys2Proof.Machine.execArmed a s
  | .skip a => Sys2Proof.Machine.execSkip a s
  | .note a imm => Sys2Proof.Machine.execNote a imm s
  | .drop a hsrc hmask => Sys2Proof.Machine.execDrop a hsrc hmask s
  | .clrf a imm => Sys2Proof.Machine.execClrf a imm s
  | .set a lc imm => Sys2Proof.Machine.execSet a lc imm s
  | .dec a lc => Sys2Proof.Machine.execDec a lc s
  | .fcnt a lc => Sys2Proof.Machine.execFcnt a lc s
  | .coreTrapRequest a => Sys2Proof.Machine.execCoreTrapRequest a s
  | .waitTimeout a => Sys2Proof.Machine.execWaitTimeout a s
  | .trapEntry a => Sys2Proof.Machine.execTrapEntry a s
  | .sequencerRestart a => Sys2Proof.Machine.execSequencerRestart a s
  | .seqHoldEntry a => Sys2Proof.Machine.execSeqHoldEntry a s
  | .seqHoldResume a => Sys2Proof.Machine.execSeqHoldResume a s
  | .seqStatus p => Sys2Proof.Machine.execSeqStatus p s
  | .seqConfig p => Sys2Proof.Machine.execSeqConfig p s
  | .seqTrapsave p => Sys2Proof.Machine.execSeqTrapsave p s
  | .seqWord p => Sys2Proof.Machine.execSeqWord p s
  | .seqClear p => Sys2Proof.Machine.execSeqClear p s
  | .zoneReset x => Sys2Proof.Machine.execZoneReset x s
  | .zoneOpen x => Sys2Proof.Machine.execZoneOpen x s
  | .zoneClose x => Sys2Proof.Machine.execZoneClose x s
  | .zoneFinish x => Sys2Proof.Machine.execZoneFinish x s
  | .zoneOffline x => Sys2Proof.Machine.execZoneOffline x s
  | .reportZones x => Sys2Proof.Machine.execReportZones x s
  | .logGroupClose a => Sys2Proof.Machine.execLogGroupClose a s
  | .indirectionUpdate a => Sys2Proof.Machine.execIndirectionUpdate a s
  | .compaction a => Sys2Proof.Machine.execCompaction a s
  | .zdcAccess a z u => Sys2Proof.Machine.execZdcAccess a z u s
  | .zdcFillDone a z bad => Sys2Proof.Machine.execZdcFillDone a z bad s
  | .zdcWritebackDone a v => Sys2Proof.Machine.execZdcWritebackDone a v s
  | .zdcPin a z => Sys2Proof.Machine.execZdcPin a z s
  | .zoneStatus p => Sys2Proof.Machine.execZoneStatus p s
  | .zoneCacheStatus p => Sys2Proof.Machine.execZoneCacheStatus p s
  | .zoneCacheConfig p => Sys2Proof.Machine.execZoneCacheConfig p s
  | .zoneCacheFlush p => Sys2Proof.Machine.execZoneCacheFlush p s
  | .zoneCacheInvalidate p => Sys2Proof.Machine.execZoneCacheInvalidate p s
  | .zoneCacheClear p => Sys2Proof.Machine.execZoneCacheClear p s
  | .mapBand p => Sys2Proof.Machine.execMapBand p s
  | .mapRegion p => Sys2Proof.Machine.execMapRegion p s
  | .mapConv p => Sys2Proof.Machine.execMapConv p s
  | .headDepopulate p => Sys2Proof.Machine.execHeadDepopulate p s
  | .linkReset k => Sys2Proof.Machine.execLinkReset k s
  | .functionLevelReset f => Sys2Proof.Machine.execFunctionLevelReset f s
  | .vfDisable f => Sys2Proof.Machine.execVfDisable f s
  | .controllerReset f => Sys2Proof.Machine.execControllerReset f s
  | .controllerEnable f c => Sys2Proof.Machine.execControllerEnable f c s
  | .shutdownNormal f => Sys2Proof.Machine.execShutdownNormal f s
  | .shutdownAbrupt f => Sys2Proof.Machine.execShutdownAbrupt f s
  | .doorbellWrite f d => Sys2Proof.Machine.execDoorbellWrite f d s
  | .cmbWrite f off bytes => Sys2Proof.Machine.execCmbWrite f off bytes s
  | .cmbRead f off len => Sys2Proof.Machine.execCmbRead f off len s
  | .tlpMalformed f hdr => Sys2Proof.Machine.execTlpMalformed f hdr s
  | .unsupportedRequest f hdr => Sys2Proof.Machine.execUnsupportedRequest f hdr s
  | .completionTimeout x hdr => Sys2Proof.Machine.execCompletionTimeout x hdr s
  | .poisonedCompletion x hdr => Sys2Proof.Machine.execPoisonedCompletion x hdr s
  | .smbusPecError hdr => Sys2Proof.Machine.execSmbusPecError hdr s
  | .smbusClockTimeout => Sys2Proof.Machine.execSmbusClockTimeout s
  | .mctpMalformed hdr => Sys2Proof.Machine.execMctpMalformed hdr s
  | .violationHourSummary => Sys2Proof.Machine.execViolationHourSummary s
  | .commandFetch f sq c => Sys2Proof.Machine.execCommandFetch f sq c s
  | .creditGrant x => Sys2Proof.Machine.execCreditGrant x s
  | .commandStart x => Sys2Proof.Machine.execCommandStart x s
  | .hostTransferDone x => Sys2Proof.Machine.execHostTransferDone x s
  | .writeDurable x => Sys2Proof.Machine.execWriteDurable x s
  | .completionPost x => Sys2Proof.Machine.execCompletionPost x s
  | .schedulerDecision a => Sys2Proof.Machine.execSchedulerDecision a s
  | .contractDue x => Sys2Proof.Machine.execContractDue x s
  | .latencyDeadlineMiss x => Sys2Proof.Machine.execLatencyDeadlineMiss x s
  | .floorWindowEnd n => Sys2Proof.Machine.execFloorWindowEnd n s
  | .zoneFinishRecommended z => Sys2Proof.Machine.execZoneFinishRecommended z s
  | .deleteIoSq q id => Sys2Proof.Machine.execDeleteIoSq q id s
  | .createIoSq q n => Sys2Proof.Machine.execCreateIoSq q n s
  | .deleteIoCq q id => Sys2Proof.Machine.execDeleteIoCq q id s
  | .createIoCq q n => Sys2Proof.Machine.execCreateIoCq q n s
  | .getLogPage q g => Sys2Proof.Machine.execGetLogPage q g s
  | .identify q ir => Sys2Proof.Machine.execIdentify q ir s
  | .abort q sq cid => Sys2Proof.Machine.execAbort q sq cid s
  | .setFeatures q fid save v => Sys2Proof.Machine.execSetFeatures q fid save v s
  | .getFeatures q fid => Sys2Proof.Machine.execGetFeatures q fid s
  | .asynchronousEventRequest q => Sys2Proof.Machine.execAsynchronousEventRequest q s
  | .keepAlive q => Sys2Proof.Machine.execKeepAlive q s
  | .formatNvm q n => Sys2Proof.Machine.execFormatNvm q n s
  | .securityReceive q nsid protocol comId => Sys2Proof.Machine.execSecurityReceive q nsid protocol comId s
  | .namespaceCreate q n => Sys2Proof.Machine.execNamespaceCreate q n s
  | .namespaceDelete q nsid => Sys2Proof.Machine.execNamespaceDelete q nsid s
  | .namespaceAttach q nsid fns => Sys2Proof.Machine.execNamespaceAttach q nsid fns s
  | .namespaceDetach q nsid fns => Sys2Proof.Machine.execNamespaceDetach q nsid fns s
  | .firmwareImageDownload q d => Sys2Proof.Machine.execFirmwareImageDownload q d s
  | .fwCommitWriteSlot q slot => Sys2Proof.Machine.execFwCommitWriteSlot q slot s
  | .fwCommitWriteActivateNext q slot => Sys2Proof.Machine.execFwCommitWriteActivateNext q slot s
  | .fwCommitActivateSlot q slot => Sys2Proof.Machine.execFwCommitActivateSlot q slot s
  | .fwCommitActivateNow q slot => Sys2Proof.Machine.execFwCommitActivateNow q slot s
  | .fwActivationPauseEnd => Sys2Proof.Machine.execFwActivationPauseEnd s
  | .imageRetire => Sys2Proof.Machine.execImageRetire s
  | .deviceSelfTest q nsid stc => Sys2Proof.Machine.execDeviceSelfTest q nsid stc s
  | .virtualizationManagement q v => Sys2Proof.Machine.execVirtualizationManagement q v s
  | .sanitizeCryptoErase q ause => Sys2Proof.Machine.execSanitizeCryptoErase q ause s
  | .sanitizeBlockErase q ause => Sys2Proof.Machine.execSanitizeBlockErase q ause s
  | .sanitizeExitFailureMode q => Sys2Proof.Machine.execSanitizeExitFailureMode q s
  | .sanitizeOverwrite q => Sys2Proof.Machine.execSanitizeOverwrite q s
  | .invalidOpcode q opc => Sys2Proof.Machine.execInvalidOpcode q opc s
  | .hetosExchange q h => Sys2Proof.Machine.execHetosExchange q h s
  | .hetosMctpRequest m => Sys2Proof.Machine.execHetosMctpRequest m s
  | .exchangeStart => Sys2Proof.Machine.execExchangeStart s
  | .flush x => Sys2Proof.Machine.execFlush x s
  | .write x => Sys2Proof.Machine.execWrite x s
  | .read x => Sys2Proof.Machine.execRead x s
  | .writeZeroes x => Sys2Proof.Machine.execWriteZeroes x s
  | .datasetManagement x => Sys2Proof.Machine.execDatasetManagement x s
  | .verify x => Sys2Proof.Machine.execVerify x s
  | .zoneAppend x => Sys2Proof.Machine.execZoneAppend x s
  | .readNvmeMiDataStructure m dtyp => Sys2Proof.Machine.execReadNvmeMiDataStructure m dtyp s
  | .nvmSubsystemHealthStatusPoll m clear => Sys2Proof.Machine.execNvmSubsystemHealthStatusPoll m clear s
  | .controllerHealthStatusPoll m clear => Sys2Proof.Machine.execControllerHealthStatusPoll m clear s
  | .configurationSet m id v => Sys2Proof.Machine.execConfigurationSet m id v s
  | .configurationGet m id => Sys2Proof.Machine.execConfigurationGet m id s
  | .vpdRead m off len => Sys2Proof.Machine.execVpdRead m off len s
  | .vpdWrite m off bytes => Sys2Proof.Machine.execVpdWrite m off bytes s
  | .hostStatus p => Sys2Proof.Machine.execHostStatus p s
  | .hostConfig p => Sys2Proof.Machine.execHostConfig p s
  | .hostPermit p => Sys2Proof.Machine.execHostPermit p s
  | .hostFunction p => Sys2Proof.Machine.execHostFunction p s
  | .hostClear p => Sys2Proof.Machine.execHostClear p s
  | .queueStatus p => Sys2Proof.Machine.execQueueStatus p s
  | .queueConfig p => Sys2Proof.Machine.execQueueConfig p s
  | .queueFunction p => Sys2Proof.Machine.execQueueFunction p s
  | .qosAdmit p => Sys2Proof.Machine.execQosAdmit p s
  | .qosRevoke p => Sys2Proof.Machine.execQosRevoke p s
  | .qosStatus p => Sys2Proof.Machine.execQosStatus p s
  | .queueClear p => Sys2Proof.Machine.execQueueClear p s
  | .modIdentify p => Sys2Proof.Machine.execModIdentify p s
  | .modEcho p => Sys2Proof.Machine.execModEcho p s
  | .modLayout p => Sys2Proof.Machine.execModLayout p s
  | .hetosStatus p => Sys2Proof.Machine.execHetosStatus p s
  | .hetosClear p => Sys2Proof.Machine.execHetosClear p s
  | .powerEpoch e => Sys2Proof.Machine.execPowerEpoch e s
  | .estOfsUpdate => Sys2Proof.Machine.execEstOfsUpdate s
  | .islandClockChange a => Sys2Proof.Machine.execIslandClockChange a s
  | .budgetSet p => Sys2Proof.Machine.execBudgetSet p s
  | .budgetStatus p => Sys2Proof.Machine.execBudgetStatus p s
  | .budgetConsumer p => Sys2Proof.Machine.execBudgetConsumer p s
  | .budgetClear p => Sys2Proof.Machine.execBudgetClear p s
  | .dramArbitration x => Sys2Proof.Machine.execDramArbitration x s
  | .eccWriteback c => Sys2Proof.Machine.execEccWriteback c s
  | .dramRefresh c => Sys2Proof.Machine.execDramRefresh c s
  | .bucketLeak r => Sys2Proof.Machine.execBucketLeak r s
  | .scrubBurst c => Sys2Proof.Machine.execScrubBurst c s
  | .sramScrubPass r found => Sys2Proof.Machine.execSramScrubPass r found s
  | .dramRowRepair c => Sys2Proof.Machine.execDramRowRepair c s
  | .memStatus p => Sys2Proof.Machine.execMemStatus p s
  | .memConfig p => Sys2Proof.Machine.execMemConfig p s
  | .memScrubRestart p => Sys2Proof.Machine.execMemScrubRestart p s
  | .memScrubSram p => Sys2Proof.Machine.execMemScrubSram p s
  | .memRepair p => Sys2Proof.Machine.execMemRepair p s
  | .memDiagRead p => Sys2Proof.Machine.execMemDiagRead p s
  | .memDiagWrite p => Sys2Proof.Machine.execMemDiagWrite p s
  | .memClear p => Sys2Proof.Machine.execMemClear p s
  | .getVersion r => Sys2Proof.Machine.execGetVersion r s
  | .getCapabilities r => Sys2Proof.Machine.execGetCapabilities r s
  | .negotiateAlgorithms r n => Sys2Proof.Machine.execNegotiateAlgorithms r n s
  | .getDigests r => Sys2Proof.Machine.execGetDigests r s
  | .getCertificate r slot off len => Sys2Proof.Machine.execGetCertificate r slot off len s
  | .challenge r slot meas nonce => Sys2Proof.Machine.execChallenge r slot meas nonce s
  | .getMeasurements r op sign slot nonce => Sys2Proof.Machine.execGetMeasurements r op sign slot nonce s
  | .keyExchange r slot x => Sys2Proof.Machine.execKeyExchange r slot x s
  | .finish r sid hmac => Sys2Proof.Machine.execFinish r sid hmac s
  | .heartbeat r sid => Sys2Proof.Machine.execHeartbeat r sid s
  | .keyUpdate r sid op => Sys2Proof.Machine.execKeyUpdate r sid op s
  | .endSession r sid => Sys2Proof.Machine.execEndSession r sid s
  | .getPqChain r slot off len => Sys2Proof.Machine.execGetPqChain r slot off len s
  | .getPqSig r => Sys2Proof.Machine.execGetPqSig r s
  | .startSession o sp auth pin => Sys2Proof.Machine.execStartSession o sp auth pin s
  | .properties o => Sys2Proof.Machine.execProperties o s
  | .opalGet o obj => Sys2Proof.Machine.execOpalGet o obj s
  | .opalSet o obj v => Sys2Proof.Machine.execOpalSet o obj v s
  | .authenticate o auth pin => Sys2Proof.Machine.execAuthenticate o auth pin s
  | .genkey o n => Sys2Proof.Machine.execGenkey o n s
  | .activate o => Sys2Proof.Machine.execActivate o s
  | .revert o sp => Sys2Proof.Machine.execRevert o sp s
  | .revertSp o sp => Sys2Proof.Machine.execRevertSp o sp s
  | .random o len => Sys2Proof.Machine.execRandom o len s
  | .debugUnlockExpiry => Sys2Proof.Machine.execDebugUnlockExpiry s
  | .secStatus p => Sys2Proof.Machine.execSecStatus p s
  | .secCert p => Sys2Proof.Machine.execSecCert p s
  | .secLock p => Sys2Proof.Machine.execSecLock p s
  | .secUnlock p => Sys2Proof.Machine.execSecUnlock p s
  | .secRollback p => Sys2Proof.Machine.execSecRollback p s
  | .recordProgram ok => Sys2Proof.Machine.execRecordProgram ok s
  | .sealTimeout t => Sys2Proof.Machine.execSealTimeout t s
  | .segmentErase => Sys2Proof.Machine.execSegmentErase s
  | .segmentEraseDone ok => Sys2Proof.Machine.execSegmentEraseDone ok s
  | .freezeTimeout => Sys2Proof.Machine.execFreezeTimeout s
  | .recorderStatus p => Sys2Proof.Machine.execRecorderStatus p s
  | .recorderFreeze p => Sys2Proof.Machine.execRecorderFreeze p s
  | .recorderThaw p => Sys2Proof.Machine.execRecorderThaw p s
  | .recorderRead p => Sys2Proof.Machine.execRecorderRead p s
  | .recorderNote p => Sys2Proof.Machine.execRecorderNote p s
  | .resetStatus p => Sys2Proof.Machine.execResetStatus p s
  | .resetClear p => Sys2Proof.Machine.execResetClear p s
  | .resetModule p => Sys2Proof.Machine.execResetModule p s
  | .resetEngine p => Sys2Proof.Machine.execResetEngine p s
  | .resetConfigure p => Sys2Proof.Machine.execResetConfigure p s
  | .actuatorLoad p => Sys2Proof.Machine.execActuatorLoad p s
  | .actuatorUnload p => Sys2Proof.Machine.execActuatorUnload p s
  | .afeCommaAlignment a l => Sys2Proof.Machine.execAfeCommaAlignment a l s
  | .perstDeassertion => Sys2Proof.Machine.execPerstDeassertion s
  | .dataLinkUp gen lanes ari => Sys2Proof.Machine.execDataLinkUp gen lanes ari s
  | .aspmL1Change enter => Sys2Proof.Machine.execAspmL1Change enter s
  | .vfEnable n => Sys2Proof.Machine.execVfEnable n s
  | .mctpSetEndpointId eid => Sys2Proof.Machine.execMctpSetEndpointId eid s
  | .keepAliveTimeout f => Sys2Proof.Machine.execKeepAliveTimeout f s
  | .cmbRefillDone f => Sys2Proof.Machine.execCmbRefillDone f s
  | .firmwareSlotProgrammed readBackOk selfTestOk => Sys2Proof.Machine.execFirmwareSlotProgrammed readBackOk selfTestOk s
  | .sanitizeComplete ok => Sys2Proof.Machine.execSanitizeComplete ok s
  | .formatComplete => Sys2Proof.Machine.execFormatComplete s

end Sys2Proof.Machine
end

