-- ==== Sys2Proof/Machine/Tick.lean ====
section
/-! DEFINITION. One datapath clock (log 1): module time, the timelines' stamps, the slices' pop schedule, power-on hours, and what
waits for nothing but time. -/

namespace Sys2Proof.Machine
open Sys2Proof

/-- The stamp moved on by a number of 2^−32 wedges. -/
def Reel.advanceBy (r : Reel) (n : Nat) : Reel :=
  let x := r.stamp.linear * 65536 + r.accLow + n
  { r with stamp := Stamp.ofLinear ((x / 65536) % angleModulus), accLow := x % 65536 }

/-- The stamp of an engine in ACQUIRE or SPINDLE: it advances at FRAC_INC, or holds what it is ahead (R52, R60, R61). -/
def Reel.runFree (r : Reel) : Reel :=
  if r.fracInc ≤ r.behind then { r with behind := r.behind - r.fracInc }
  else ({ r with behind := 0 } : Reel).advanceBy (r.fracInc - r.behind)

/-- The stamp of an engine in LOCKED or FLYWHEEL (R47, R49, R56): FRAC advances to 0xFFFF and holds there for MARK_WIN; a slip's
hold keeps the stamp at the boundary, and a wedge of that hold without a mark neither ends it nor flywheels (log 62). -/
def Reel.runLocked (r : Reel) : Reel :=
  match r.hold, r.slipFix with
  | some h, _ => { r with hold := some (h - r.fracInc), heldFor := r.heldFor + min h r.fracInc }
  | none, .hold _ => r
  | none, _ =>
    if 0xFFFF * 65536 ≤ r.stamp.frac * 65536 + r.accLow + r.fracInc then
      { r with stamp := { r.stamp with frac := 0xFFFF }, accLow := 0, hold := some (r.markWin.toNat * 65536), heldFor := 0 }
    else r.advanceBy r.fracInc

/-- The slip condition clears on the clock after the step or the last mark of the hold (R56). -/
def Reel.clearSlip (r : Reel) : Reel := { r with slipFix := if r.slipFix = .done then .none else r.slipFix }

/-- One clock of a timeline (R57). -/
def Reel.tick (r : Reel) : Reel :=
  let r := r.clearSlip
  match r.state with
  | .stopped => r
  | .spindle | .acquire => r.runFree
  | .locked | .flywheel => r.runLocked

/-- Clocks in one unit of POH, 1/1024 h. -/
def pohClocks : Nat := 10546875000

/-- Time passes by one datapath clock (R71, R81, R105, R187, R635): MTIME, POH, stamps, the arm links' symbols, slices, and decoder engines
that stop. -/
def State.clock (s : State) : State :=
  let t := (s.mtime + 1) % 2 ^ 64
  let s : State := { s with
    mtime := t
    eng := s.eng.map fun e => { e with reel := e.reel.tick } }
  let s := (fins 40).foldl State.engineClock ((fins 48).foldl State.sliceClock s.symbols)
  if t % pohClocks = 0 then s.modRst fun r => { r with poh := satAdd 64 r.poh 1 } else s

/-- One datapath clock on an empty command queue (log 1): nothing passes while the module has no supply. Credits of sectors whose
transfer has ended come back (R504), and the spindle stopped by a shutdown restarts where a controller is enabled (R649). -/
def tick (s : State) : State :=
  if !s.rst.rail12 && !s.rst.powerLoss then s
  else
    let s := s.clock.reapCredits
    if s.spn.state = .stopped ∧ s.spn.shutStop ∧ s.enabledFns.any fun f => s.host.fns[f].shst == 0 then s.wakeSpindle else s

end Sys2Proof.Machine
end

