-- ==== Sys2Proof/Safety.lean ====
section
/-! DEFINITION. The terms the statements use: a command that completes, a packet that runs at once and its reply, and the states
whose numbers lie in the ranges the manual gives them. -/

namespace Sys2Proof.Machine
open Sys2Proof

/-- The command completes: its outcome is a next state, of which P holds. -/
def Completes (o : Out) (P : State → Prop) : Prop := ∃ t, o = .next t ∧ P t

/-- The packet runs at once and passes its header checks (R514, R519 to R522, R524, R637), and its effect is not held back by DRY
(R517): it may start, the module is not in recovery mode, every header check passes, and its exchange has not been dropped by a
function reset. -/
def ready (o : OpInfo) (p : Packet) (s : State) : Bool :=
  mayStart o p s && !s.rst.recovery && headerCheck o p s == 0 && !p.dry &&
    s.het.exchanges.all fun x => x.xid != p.xid || !x.dropped

/-- The reply of a packet that ran stands among the replies given since s (R510, R511): only replies of the packets after it in its
exchange can have followed. -/
def Replied (s t : State) (code : Nat) (p : Packet) (status clamp : Nat) (words : List Word) : Prop :=
  ∃ later, t.out.replies = later ++ (p.src, mkReply code p.tag status clamp words) :: s.out.replies

/-- The packet was answered with STATUS 0x0000 and these result words. -/
def Answered (s t : State) (code : Nat) (p : Packet) (words : List Word) : Prop := ∃ clamp, Replied s t code p 0 clamp words

/-- s with what a reply touches taken from t: the packet block, the outputs, the host link (the completion of a packet's exchange),
the trace buffers and the recorder. -/
def State.afterReply (s t : State) : State := { s with het := t.het, out := t.out, host := t.host, trc := t.trc, evr := t.evr }

/-- s with what an event touches taken from t: the trace buffers and the recorder. -/
def State.afterEvent (s t : State) : State := { s with trc := t.trc, evr := t.evr }

/-- The state in which the checks of a command that starts are made (R480, R481): the next start number is taken and the command of
the context is marked started with it. -/
def State.begun (s : State) (x : CtxIx) : State :=
  (s.modQ fun q => { q with startNo := (s.q.startNo + 1) % 2 ^ 64 }).modCtx x fun c =>
    { c with started := true, startNo := (s.q.startNo + 1) % 2 ^ 64, startRev := s.eng[s.refEngine].reel.stamp.rev }

/-- A zone's descriptor stands in line i of its engine's cache (R419, R420): no access of a zone waits, no maintenance and no fill of
this zone is in progress, the line is without error, and no other engine's cache holds the zone. -/
def State.lineHeld (s : State) (z : ZoneNo) (i : Fin 48) : Bool :=
  let a := (s.zoneDesc z).engine
  let c := s.eng[a].zdc
  c.lineOf z == some i && !c.lines[i].bad && c.missWait.isEmpty && !c.invalidating z && (c.fillOf z).isNone &&
    (fins 4).all fun (b : Eng) => b == a || (s.eng[b].zdc.newest z).isNone

/-- An admin command of a function's own admin queue runs at once (R446, R474, R637): the function is present, enabled and ready, no shutdown is in
progress, it has a context for the command (or the command takes none), the command is one its function may give, and the module is
not in recovery mode. -/
def adminReady (q : AdmReq) (noCtx pfOnly : Bool) (s : State) : Bool :=
  let x := s.host.fns[q.fn]
  q.mi.isNone && x.present && x.en && x.rdy && x.shst == 0 && (noCtx || decide (s.adminCtxs q.fn < 2)) && (!pfOnly || q.fn == 0) && !s.rst.recovery

/-- The completion of an admin command stands among the completions posted since s, with this status, Dword 0 and data (R446). -/
def Concluded (s t : State) (q : AdmReq) (st : NvStatus) (dw0 : Word) (words : List Word) : Prop :=
  ∃ l c, t.out.completions = l ++ s.out.completions ∧ c ∈ l ∧ c.fn = q.fn ∧ c.sq = 0 ∧ c.cq = 0 ∧ c.cid = q.cid ∧ c.status = st ∧
    c.dw0 = dw0 ∧ c.words = words

/-- s with what the completion of an admin command touches taken from t: the functions, the outputs, and what a violation records. -/
def State.afterAdmin (s t : State) : State :=
  { s with host := { s.host with fns := t.host.fns, violations := t.host.violations }, out := t.out, trc := t.trc, evr := t.evr }

/-- A request of an SPDM responder finds its connection in a phase (R588, R589, R593): the responder answers and no
resynchronisation is due. -/
def spdmReady (r : SpdmIx) (ph : SpdmPhase) (s : State) : Bool :=
  s.responder r && !s.sec.spdm[r].resynch && s.sec.spdm[r].phase == ph

/-- The responder gave this response, and nothing but its connection, the security block and the outputs is touched. -/
def Responded (s t : State) (r : SpdmIx) (p : SpdmResponse) : Prop :=
  t.out = { s.out with spdm := (r, p) :: s.out.spdm } ∧ t = { s with sec := t.sec, out := t.out } ∧
    ∀ x : SpdmIx, r ≠ x → t.sec.spdm[x] = s.sec.spdm[x]

/-- A method of Opal is served (R604): the function's controller takes commands and the module is not in recovery mode. -/
def opalReady (o : OpalReq) (s : State) : Bool :=
  s.host.fns[o.fn].present && s.host.fns[o.fn].en && s.host.fns[o.fn].rdy && !s.rst.recovery

/-- A method of Opal answered with a status and values. -/
def OpalAnswered (s t : State) (o : OpalReq) (st : Nat) (vals : List Nat) : Prop :=
  t.out = { s.out with opal := (o.fn, st, vals) :: s.out.opal }

/-- A layout the module may have (R22, R23): 2 to 4 engines, each with 1 head up to the limit, none beyond. -/
def Layout.legal (l : Layout) : Bool :=
  decide (2 ≤ l.engines ∧ l.engines ≤ 4) && (fins 4).all fun (a : Fin 4) =>
    if a.val < l.engines then decide (1 ≤ l.heads[a] ∧ l.heads[a] ≤ headLimit l.engines) else l.heads[a] == 0

/-- The canonical form of the diagnostic window of processor local memory: word indices strictly rising, no entry equal to what an
unlisted word holds. -/
def Memory.localWf (m : List (Nat × EccWord)) : Bool :=
  decide (m.Pairwise fun x y => x.1 < y.1) && m.all fun x => x.2 != EccWord.fresh 0

/-- The state is sound: both stored layouts are legal (R22, R23, R535), both memories are in canonical form, and the rollback counter
counts at most the 128 fuses there are (R596). -/
def State.Sound (s : State) : Prop :=
  s.layout.legal = true ∧ s.nor.layout.legal = true ∧ Memory.wf s.mem.dram = true ∧ Memory.localWf s.mem.local_ = true ∧
    s.fuse.rollCtr ≤ 128

/-- One bit of a stored word turned over: data bits 0 to 63, check bits 64 to 71. -/
def EccWord.flipped (w : EccWord) (x : Fin 72) : EccWord :=
  if x.val < 64 then { w with data := w.data ^^^ BitVec.ofNat 64 (2 ^ x.val) }
  else { w with check := w.check ^^^ BitVec.ofNat 8 (2 ^ (x.val - 64)) }

/-- The byte of DDR4 at a byte address, as a read through the code returns it (R563). -/
def State.dramByte (s : State) (addr : Nat) : Byte :=
  BitVec.ofNat 8 ((Memory.read s.mem.dram (addr / 8)).value.toNat / 2 ^ (8 * (addr % 8)))

/-- A part of the state: a field, or one block of every engine or of every head. -/
inductive Part where
  | free | mtime | layout | slice | lane | pool | mems | wsl | lpe | trc | spn | media | host
  | q | het | pwr | mem | sec | evr | nor | fuse | rst | out | snaps | reel | links
  | recv | wrg | engSrv | seq | zdc | core | rd | det | wr | headSrv | map | freq
  deriving DecidableEq, Repr

/-- A part is the same in two states. -/
def Part.same (s t : State) : Part → Prop
  | .free => t.free = s.free
  | .mtime => t.mtime = s.mtime
  | .layout => t.layout = s.layout
  | .slice => t.slice = s.slice
  | .lane => t.lane = s.lane
  | .pool => t.pool = s.pool
  | .mems => t.mems = s.mems
  | .wsl => t.wsl = s.wsl
  | .lpe => t.lpe = s.lpe
  | .trc => t.trc = s.trc
  | .spn => t.spn = s.spn
  | .media => t.media = s.media
  | .host => t.host = s.host
  | .q => t.q = s.q
  | .het => t.het = s.het
  | .pwr => t.pwr = s.pwr
  | .mem => t.mem = s.mem
  | .sec => t.sec = s.sec
  | .evr => t.evr = s.evr
  | .nor => t.nor = s.nor
  | .fuse => t.fuse = s.fuse
  | .rst => t.rst = s.rst
  | .out => t.out = s.out
  | .snaps => t.snaps = s.snaps
  | .reel => ∀ a : Eng, t.eng[a].reel = s.eng[a].reel
  | .links => ∀ a : Eng, t.eng[a].links = s.eng[a].links
  | .recv => ∀ a : Eng, t.eng[a].recv = s.eng[a].recv
  | .wrg => ∀ a : Eng, t.eng[a].wrg = s.eng[a].wrg
  | .engSrv => ∀ a : Eng, t.eng[a].srv = s.eng[a].srv
  | .seq => ∀ a : Eng, t.eng[a].seq = s.eng[a].seq
  | .zdc => ∀ a : Eng, t.eng[a].zdc = s.eng[a].zdc
  | .core => ∀ a : Eng, t.eng[a].core = s.eng[a].core
  | .rd => ∀ g : Head, t.head[g].rd = s.head[g].rd
  | .det => ∀ g : Head, t.head[g].det = s.head[g].det
  | .wr => ∀ g : Head, t.head[g].wr = s.head[g].wr
  | .headSrv => ∀ g : Head, t.head[g].srv = s.head[g].srv
  | .map => ∀ g : Head, t.head[g].map = s.head[g].map
  | .freq => ∀ g : Head, t.head[g].freq = s.head[g].freq

/-- t differs from s at most in the parts of the list, and the queue of waiting commands is kept. -/
def Within (l : List Part) (s t : State) : Prop :=
  t.pending = s.pending ∧ ∀ x : Part, l.contains x = false → x.same s t

/-- The parts of the state a command may touch, by the rules that give its effect and those of what follows from it: the event it
records, the packet it answers, the unload or shutdown it completes. -/
def touches : Instr → List Part
  | .powerOnReset .. | .railFault .. =>
    [.free, .mtime, .layout, .slice, .lane, .pool, .mems, .wsl, .lpe, .trc, .spn, .media, .host, .q, .het, .pwr, .mem, .sec,
    .evr, .nor, .fuse, .rst, .out, .snaps, .reel, .links, .recv, .wrg, .engSrv, .seq, .zdc, .core, .rd, .det, .wr, .headSrv,
    .map, .freq]
  | .bootRomDone .. =>
    [.trc, .host, .sec, .evr, .rst]
  | .firstStageLoaderDone .. =>
    [.mem, .sec, .nor, .fuse, .rst]
  | .mainFirmwareDone .. =>
    [.layout, .slice, .lane, .lpe, .trc, .spn, .media, .host, .q, .pwr, .mem, .sec, .evr, .nor, .rst, .reel, .links, .engSrv,
    .seq, .rd, .det, .wr, .headSrv, .map, .freq]
  | .tablesDone .. =>
    [.free, .slice, .lane, .pool, .wsl, .lpe, .trc, .media, .host, .q, .pwr, .sec, .evr, .nor, .rst, .out, .links, .recv,
    .engSrv, .seq, .zdc, .rd, .det, .wr, .headSrv, .map, .freq]
  | .readForward .. =>
    [.free, .trc, .media, .host, .evr, .nor, .rst, .out, .zdc, .map]
  | .indirectionReplay .. =>
    [.media, .q, .rst]
  | .powerFail .. =>
    [.slice, .lane, .pool, .trc, .host, .mem, .evr, .nor, .rst, .links, .engSrv, .seq, .wr, .headSrv]
  | .journalProgram .. | .mpCheckpoint .. =>
    [.nor, .rst]
  | .powerLossEnd .. =>
    [.spn, .nor, .rst]
  | .pohStore .. =>
    [.nor]
  | .indirectionImage .. | .actuatorLoad .. =>
    [.trc, .host, .het, .evr, .nor, .rst, .out]
  | .headLoad .. =>
    [.slice, .lane, .pool, .lpe, .trc, .pwr, .evr, .rst, .reel, .links, .recv, .engSrv, .seq, .rd, .det, .wr, .headSrv, .map,
    .freq]
  | .loadTimeout .. =>
    [.free, .slice, .lane, .pool, .trc, .media, .host, .q, .het, .sec, .evr, .nor, .rst, .out, .reel, .links, .recv, .engSrv,
    .seq, .zdc, .core, .det, .wr, .headSrv]
  | .parkDone .. =>
    [.free, .trc, .host, .het, .evr, .nor, .rst, .out, .links, .engSrv, .seq, .wr, .headSrv]
  | .retractBiasEnd .. | .controllerReset .. | .virtualizationManagement .. =>
    [.free, .slice, .lane, .pool, .lpe, .trc, .spn, .media, .host, .q, .het, .pwr, .sec, .evr, .nor, .rst, .out, .reel, .links,
    .recv, .engSrv, .seq, .zdc, .rd, .det, .wr, .headSrv, .map, .freq]
  | .unloadTimeout .. | .lockstepMismatch .. =>
    [.free, .slice, .lane, .pool, .trc, .media, .host, .q, .het, .sec, .evr, .nor, .rst, .out, .links, .recv, .engSrv, .seq,
    .zdc, .core, .det, .wr, .headSrv]
  | .mgmtWatchdogExpiry .. =>
    [.trc, .evr]
  | .srstAssert .. =>
    [.trc, .evr, .nor, .rst, .reel, .links, .engSrv, .seq, .wr, .headSrv]
  | .tapIdcode .. | .tapBypass .. | .readNvmeMiDataStructure .. | .configurationGet .. | .vpdRead .. | .properties ..
  | .opalGet .. =>
    [.out]
  | .registerWrite .. =>
    [.wsl, .lpe, .trc, .host, .evr, .out, .snaps, .reel, .links, .recv, .engSrv, .seq, .zdc, .rd, .det, .wr, .headSrv, .map]
  | .invalidRegisterAccess .. | .doorbellWrite .. | .tlpMalformed .. | .unsupportedRequest .. | .createIoSq ..
  | .deleteIoCq .. | .createIoCq .. | .getLogPage .. | .identify .. | .getFeatures .. | .asynchronousEventRequest ..
  | .keepAlive .. | .securityReceive .. | .deviceSelfTest .. | .sanitizeOverwrite .. | .invalidOpcode .. =>
    [.trc, .host, .evr, .out]
  | .snapshotWrite .. =>
    [.snaps]
  | .comparatorArm .. | .dis .. | .dism .. =>
    [.reel]
  | .comparatorFire .. =>
    [.free, .slice, .lane, .pool, .mems, .wsl, .lpe, .trc, .spn, .media, .host, .q, .het, .pwr, .sec, .evr, .nor, .rst, .out,
    .reel, .links, .recv, .wrg, .engSrv, .seq, .zdc, .rd, .det, .wr, .headSrv, .map, .freq]
  | .servoMarkAccept .. =>
    [.slice, .lane, .pool, .trc, .pwr, .evr, .reel, .links, .recv, .engSrv, .seq, .rd, .det, .wr, .headSrv, .map, .freq]
  | .markHoldExpiry .. =>
    [.trc, .evr, .reel, .links, .engSrv, .seq, .wr, .headSrv]
  | .reelStatus .. | .armStatus .. | .sliceStatus .. | .detStatus .. | .poolStatus .. | .poolEngine .. | .poolRequester ..
  | .recStatus .. | .wrtStatus .. | .srvStatus .. | .srvHstatus .. | .loopStatus .. | .traceConfig .. | .traceArm ..
  | .traceTrigger .. | .traceStatus .. | .spindleStatus .. | .seqStatus .. | .seqTrapsave .. | .seqWord .. | .zoneStatus ..
  | .zoneCacheStatus .. | .hetosExchange .. | .hetosMctpRequest .. | .exchangeStart .. | .hostStatus .. | .hostPermit ..
  | .hostFunction .. | .hostClear .. | .queueStatus .. | .queueFunction .. | .qosStatus .. | .modIdentify .. | .modEcho ..
  | .hetosStatus .. | .hetosClear .. | .budgetStatus .. | .budgetConsumer .. | .memStatus .. | .secStatus .. | .secCert ..
  | .recorderStatus .. | .recorderThaw .. | .recorderRead .. | .recorderNote .. | .resetStatus .. =>
    [.trc, .host, .het, .evr, .out]
  | .reelMarker .. | .reelConfig .. | .reelClear .. =>
    [.trc, .host, .het, .evr, .out, .reel]
  | .armAckReceive .. =>
    [.wsl, .lpe, .trc, .host, .het, .evr, .out, .links, .engSrv, .seq, .wr, .headSrv]
  | .armNakReceive .. | .armAckTimeout .. =>
    [.wsl, .lpe, .trc, .evr, .out, .links, .engSrv, .seq, .wr, .headSrv]
  | .armStatusFrame .. =>
    [.free, .trc, .media, .host, .q, .evr, .nor, .out, .links, .engSrv, .seq, .zdc, .wr, .headSrv]
  | .afeFaultStrobe .. =>
    [.trc, .evr, .links, .engSrv, .seq, .wr, .headSrv]
  | .auxSlotRequest .. =>
    [.links]
  | .configFrameSend .. =>
    [.wsl, .lpe, .out, .links, .wr]
  | .armConfigReply .. | .armTrainAttempt .. =>
    [.trc, .evr, .links]
  | .armLinkDown .. | .armTrainTimeout .. | .sliceFifoTimeout .. | .headDepopulate .. =>
    [.free, .slice, .lane, .pool, .wsl, .lpe, .trc, .media, .host, .q, .het, .pwr, .sec, .evr, .nor, .out, .links, .recv,
    .engSrv, .seq, .zdc, .rd, .det, .wr, .headSrv, .map, .freq]
  | .armClear .. | .armRetrain .. =>
    [.trc, .host, .het, .evr, .out, .links]
  | .armConfig .. =>
    [.wsl, .lpe, .trc, .host, .het, .evr, .nor, .out, .links, .wr]
  | .sliceEnable .. =>
    [.slice, .pwr]
  | .sliceStreamStart .. =>
    [.slice, .lane, .pool, .trc, .host, .het, .pwr, .evr, .out, .recv, .det, .freq]
  | .sliceUnderrun .. | .sliceOverrun .. =>
    [.slice, .trc, .evr]
  | .sliceLateWordDiscard .. | .zeroPhaseStart .. | .sliceAcqToTrack .. =>
    [.slice]
  | .dropCommand .. | .drop .. =>
    [.slice, .lane, .pool, .trc, .pwr, .evr, .recv, .rd, .det, .wr, .map, .freq]
  | .bandLoad .. =>
    [.slice, .rd, .det, .wr, .map, .freq]
  | .sliceConfig .. | .detConfig .. | .detTaps .. | .detNp .. =>
    [.trc, .host, .het, .evr, .nor, .out, .map]
  | .sliceClear .. | .sliceRestart .. =>
    [.slice, .trc, .host, .het, .evr, .out]
  | .syncDecision .. =>
    [.lane, .trc, .evr]
  | .firstPassDone .. | .decoderRequest .. | .captureComplete .. =>
    [.lane, .pool, .pwr, .recv]
  | .iterationDetectorPassDone .. =>
    [.lane]
  | .localIterationEnd .. | .codewordCheckDone .. =>
    [.slice, .lane, .pool, .trc, .spn, .media, .q, .pwr, .evr, .nor, .recv, .det, .headSrv, .map]
  | .stagingAccept .. | .deepDecodeDone .. =>
    [.slice, .lane, .pool, .trc, .spn, .media, .q, .evr, .nor, .recv, .det, .headSrv, .map]
  | .detClear .. =>
    [.lane, .trc, .host, .het, .evr, .out]
  | .decoderArbitration .. =>
    [.pool, .trc, .evr]
  | .decoderEngineFail .. =>
    [.lane, .pool, .trc, .pwr, .evr, .recv]
  | .recoveryJobOpen .. | .ladderTry .. =>
    [.slice, .lane, .pool, .trc, .media, .q, .pwr, .evr, .nor, .recv, .det, .headSrv, .map]
  | .retainedStreamCopyDone .. =>
    [.lane, .recv]
  | .guardTimerExpiry .. =>
    [.pool, .trc, .q, .evr, .recv]
  | .reallocate .. =>
    [.trc, .media, .evr, .nor, .out, .recv, .wr, .map]
  | .remapActivate .. =>
    [.free, .trc, .media, .host, .evr, .nor, .out, .recv, .zdc, .map]
  | .poolConfig .. | .poolClear .. =>
    [.pool, .trc, .host, .het, .evr, .out]
  | .recConfig .. | .recClear .. =>
    [.trc, .host, .het, .evr, .out, .recv]
  | .writeEncode .. | .reportZones .. | .creditGrant .. | .contractDue .. | .flush .. =>
    [.q]
  | .writerSlotRequest .. =>
    [.wsl, .wr]
  | .memsSample .. =>
    [.mems, .trc, .evr, .links, .wrg, .engSrv, .seq, .wr, .headSrv]
  | .memsSampleTimeout .. =>
    [.mems, .trc, .evr, .wrg, .engSrv]
  | .suspectRewrite .. =>
    [.wr]
  | .suspectSpareWrite .. =>
    [.free, .trc, .media, .host, .q, .evr, .nor, .out, .recv, .zdc, .wr, .map]
  | .wrtConfig .. =>
    [.trc, .host, .het, .evr, .nor, .out, .wr, .map]
  | .wrtHead .. =>
    [.free, .trc, .media, .host, .het, .evr, .nor, .out, .zdc, .wr]
  | .wrtGuard .. =>
    [.trc, .host, .het, .evr, .out, .wrg]
  | .wrtClear .. =>
    [.trc, .host, .het, .evr, .out, .wrg, .wr]
  | .wrtSlots .. =>
    [.wsl, .trc, .host, .het, .evr, .out, .wr]
  | .seekRequest .. =>
    [.engSrv, .headSrv]
  | .srvConfig .. | .srvQuadrille .. =>
    [.trc, .host, .het, .evr, .out, .engSrv]
  | .srvNotch .. =>
    [.trc, .host, .het, .evr, .nor, .out, .engSrv, .headSrv]
  | .srvHead .. =>
    [.trc, .host, .het, .evr, .nor, .out, .headSrv]
  | .srvClear .. =>
    [.trc, .host, .het, .evr, .out, .engSrv, .headSrv]
  | .loopComputeStart .. | .loopBankSwap .. =>
    [.lpe, .trc, .spn, .host, .het, .evr, .out, .engSrv, .headSrv]
  | .loopComputeDone .. =>
    [.lpe, .trc, .spn, .pwr, .evr, .engSrv, .headSrv]
  | .loopOutputRelease .. =>
    [.lpe, .spn, .pwr, .engSrv, .headSrv]
  | .thermalSample .. =>
    [.mems, .lpe, .trc, .pwr, .evr]
  | .traceTimeout .. | .traceCopyDone .. =>
    [.trc]
  | .loopCoef .. | .loopConfig .. =>
    [.lpe, .trc, .host, .het, .evr, .nor, .out]
  | .loopClear .. =>
    [.lpe, .trc, .host, .het, .evr, .out]
  | .zeroCrossing .. | .detectTimeout .. =>
    [.slice, .lane, .pool, .lpe, .trc, .spn, .q, .pwr, .evr, .rst, .reel, .links, .recv, .engSrv, .seq, .rd, .det, .wr,
    .headSrv, .map, .freq]
  | .commutation .. =>
    [.lpe, .trc, .spn, .evr, .reel]
  | .crossingMissed .. =>
    [.lpe, .trc, .spn, .evr]
  | .rotorLockLoss .. | .coastTimeout .. | .openLoopStep .. | .startAttemptTimeout .. =>
    [.trc, .spn, .evr, .rst, .links, .engSrv, .seq, .wr, .headSrv]
  | .brakeShortEnd .. | .brakeSettleEnd .. | .alignEnd .. =>
    [.spn]
  | .brakeObserveEnd .. =>
    [.slice, .lane, .pool, .lpe, .trc, .spn, .q, .pwr, .evr, .reel, .links, .recv, .engSrv, .seq, .rd, .det, .wr, .headSrv,
    .map, .freq]
  | .spindleSample .. =>
    [.mems, .lpe, .spn, .reel]
  | .boleroEvaluation .. =>
    [.spn, .pwr]
  | .nrefUpdate .. =>
    [.lpe, .trc, .spn, .evr, .rst, .links, .engSrv, .seq, .wr, .headSrv]
  | .chopperSwitch .. | .railOvervoltage .. =>
    [.free, .trc, .spn, .evr]
  | .chopperBucketThreshold .. | .chopperFault .. =>
    [.trc, .spn, .evr]
  | .spindleTarget .. | .spindleBolero .. | .spindleClear .. =>
    [.trc, .spn, .host, .het, .evr, .out]
  | .spindleConfig .. =>
    [.trc, .spn, .host, .het, .evr, .nor, .out]
  | .spindleRunStop .. | .spindleRunStart .. =>
    [.slice, .lane, .pool, .lpe, .trc, .spn, .host, .q, .het, .pwr, .evr, .nor, .rst, .out, .reel, .links, .recv, .engSrv, .seq,
    .rd, .det, .wr, .headSrv, .map, .freq]
  | .spindleChopperTest .. =>
    [.free, .trc, .spn, .host, .het, .evr, .out]
  | .fragmentEnqueue .. | .waitComplete .. | .lds .. | .add .. | .ldf .. | .lde .. | .lead .. | .win .. | .mov .. | .ldw ..
  | .pop .. | .armed .. | .skip .. | .note .. | .clrf .. | .set .. | .dec .. | .fcnt .. | .coreTrapRequest .. | .waitTimeout ..
  | .seqHoldEntry .. =>
    [.seq]
  | .inc .. | .br .. | .loop .. | .call .. | .ret .. | .wait .. | .rtt .. | .arm .. | .armr .. | .armf .. | .armfStallEnd .. =>
    [.free, .slice, .lane, .pool, .trc, .spn, .media, .host, .q, .het, .pwr, .sec, .evr, .nor, .rst, .out, .reel, .links, .recv,
    .wrg, .engSrv, .seq, .zdc, .core, .rd, .det, .wr, .headSrv, .map, .freq]
  | .trapEntry .. =>
    [.trc, .evr, .reel, .links, .wrg, .engSrv, .seq, .wr, .headSrv]
  | .sequencerRestart .. =>
    [.slice, .lane, .pool, .trc, .host, .pwr, .sec, .evr, .out, .reel, .recv, .seq, .rd, .det, .wr, .map, .freq]
  | .seqHoldResume .. =>
    [.trc, .host, .sec, .evr, .out, .seq]
  | .seqConfig .. =>
    [.trc, .host, .het, .evr, .nor, .out, .seq]
  | .seqClear .. =>
    [.trc, .host, .het, .evr, .out, .seq]
  | .zoneReset .. | .zoneOpen .. | .zoneClose .. | .zoneFinish .. | .zoneOffline .. | .indirectionUpdate .. | .compaction ..
  | .commandStart .. | .write .. | .read .. | .writeZeroes .. | .datasetManagement .. | .verify .. | .zoneAppend .. =>
    [.free, .slice, .lane, .pool, .trc, .media, .host, .q, .evr, .nor, .out, .recv, .zdc, .det, .wr, .headSrv, .map]
  | .logGroupClose .. =>
    [.free, .trc, .media, .host, .q, .evr, .nor, .out, .zdc]
  | .zdcAccess .. | .zdcPin .. | .zoneFinishRecommended .. =>
    [.free, .trc, .media, .host, .evr, .nor, .out, .zdc]
  | .zdcFillDone .. | .zdcWritebackDone .. | .zoneCacheFlush .. | .zoneCacheInvalidate .. =>
    [.free, .trc, .media, .host, .het, .evr, .nor, .out, .zdc]
  | .zoneCacheConfig .. =>
    [.trc, .media, .host, .het, .evr, .out, .zdc]
  | .zoneCacheClear .. =>
    [.trc, .host, .het, .evr, .out, .zdc]
  | .mapBand .. | .mapRegion .. | .hostConfig .. | .modLayout .. | .segmentEraseDone .. =>
    [.trc, .host, .het, .evr, .nor, .out]
  | .mapConv .. =>
    [.trc, .media, .host, .het, .evr, .nor, .out]
  | .linkReset .. | .functionLevelReset .. | .vfDisable .. =>
    [.free, .slice, .lane, .pool, .lpe, .trc, .spn, .media, .host, .q, .het, .pwr, .mem, .sec, .evr, .nor, .rst, .out, .reel,
    .links, .recv, .engSrv, .seq, .zdc, .rd, .det, .wr, .headSrv, .map, .freq]
  | .controllerEnable .. =>
    [.spn, .host]
  | .shutdownNormal .. =>
    [.slice, .lane, .pool, .lpe, .trc, .spn, .host, .q, .pwr, .evr, .nor, .rst, .reel, .links, .recv, .engSrv, .seq, .rd, .det,
    .wr, .headSrv, .map, .freq]
  | .shutdownAbrupt .. =>
    [.free, .slice, .lane, .pool, .lpe, .trc, .spn, .media, .host, .q, .pwr, .evr, .nor, .rst, .out, .reel, .links, .recv,
    .engSrv, .seq, .zdc, .rd, .det, .wr, .headSrv, .map, .freq]
  | .cmbWrite .. | .cmbRefillDone .. =>
    [.trc, .mem, .evr, .nor]
  | .cmbRead .. =>
    [.trc, .host, .mem, .evr, .nor, .out]
  | .completionTimeout .. | .poisonedCompletion .. =>
    [.trc, .host, .q, .evr]
  | .smbusPecError .. | .smbusClockTimeout .. | .mctpMalformed .. | .violationHourSummary .. =>
    [.trc, .host, .evr]
  | .commandFetch .. =>
    [.host, .q]
  | .hostTransferDone .. =>
    [.spn, .q]
  | .writeDurable .. =>
    [.slice, .lane, .pool, .lpe, .trc, .spn, .host, .q, .pwr, .sec, .evr, .nor, .rst, .out, .reel, .links, .recv, .engSrv, .seq,
    .rd, .det, .wr, .headSrv, .map, .freq]
  | .completionPost .. =>
    [.slice, .lane, .pool, .lpe, .trc, .spn, .host, .q, .pwr, .evr, .nor, .rst, .out, .reel, .links, .recv, .engSrv, .seq, .rd,
    .det, .wr, .headSrv, .map, .freq]
  | .schedulerDecision .. =>
    [.free, .pool, .trc, .media, .host, .q, .evr, .nor, .out, .engSrv, .zdc, .headSrv]
  | .latencyDeadlineMiss .. | .floorWindowEnd .. | .deleteIoSq .. | .abort .. =>
    [.trc, .host, .q, .evr, .out]
  | .setFeatures .. =>
    [.trc, .host, .evr, .nor, .out]
  | .formatNvm .. | .namespaceDelete .. | .sanitizeCryptoErase .. | .sanitizeBlockErase .. | .genkey .. | .revert ..
  | .revertSp .. =>
    [.free, .slice, .lane, .pool, .trc, .media, .host, .q, .pwr, .sec, .evr, .nor, .out, .recv, .zdc, .det, .wr, .headSrv, .map]
  | .namespaceCreate .. | .namespaceAttach .. | .fwCommitWriteSlot .. | .fwCommitWriteActivateNext .. | .activate ..
  | .sanitizeComplete .. =>
    [.trc, .host, .sec, .evr, .nor, .out]
  | .namespaceDetach .. =>
    [.trc, .host, .q, .sec, .evr, .nor, .out]
  | .firmwareImageDownload .. | .sanitizeExitFailureMode .. =>
    [.trc, .host, .sec, .evr, .out]
  | .fwCommitActivateSlot .. =>
    [.trc, .host, .sec, .evr, .nor, .rst, .out]
  | .fwCommitActivateNow .. =>
    [.trc, .host, .sec, .evr, .nor, .out, .seq]
  | .fwActivationPauseEnd .. =>
    [.trc, .host, .sec, .evr, .rst, .out]
  | .imageRetire .. =>
    [.sec, .nor, .fuse]
  | .nvmSubsystemHealthStatusPoll .. | .controllerHealthStatusPoll .. | .configurationSet .. =>
    [.host, .out]
  | .vpdWrite .. =>
    [.nor, .out]
  | .queueConfig .. =>
    [.trc, .host, .q, .het, .evr, .nor, .out]
  | .qosAdmit .. | .qosRevoke .. | .queueClear .. =>
    [.trc, .host, .q, .het, .evr, .out]
  | .powerEpoch .. =>
    [.slice, .lane, .pool, .trc, .host, .q, .pwr, .evr, .rst, .out, .recv, .engSrv]
  | .estOfsUpdate .. =>
    [.trc, .pwr, .evr]
  | .islandClockChange .. =>
    [.pwr]
  | .budgetSet .. =>
    [.trc, .host, .het, .pwr, .evr, .nor, .out]
  | .budgetClear .. =>
    [.trc, .host, .het, .pwr, .evr, .out]
  | .dramArbitration .. =>
    [.free, .slice, .lane, .pool, .trc, .media, .host, .q, .het, .mem, .sec, .evr, .nor, .rst, .out, .links, .recv, .engSrv,
    .seq, .zdc, .core, .det, .wr, .headSrv]
  | .eccWriteback .. | .dramRefresh .. | .bucketLeak .. | .scrubBurst .. =>
    [.mem]
  | .sramScrubPass .. =>
    [.free, .slice, .lane, .pool, .lpe, .trc, .media, .host, .q, .het, .pwr, .mem, .sec, .evr, .nor, .rst, .out, .links, .recv,
    .engSrv, .seq, .zdc, .core, .det, .wr, .headSrv]
  | .dramRowRepair .. | .memConfig .. | .memRepair .. =>
    [.trc, .host, .het, .mem, .evr, .nor, .out]
  | .memScrubRestart .. | .memScrubSram .. | .memDiagRead .. | .memDiagWrite .. | .memClear .. =>
    [.trc, .host, .het, .mem, .evr, .out]
  | .getVersion .. | .getCapabilities .. | .negotiateAlgorithms .. | .getDigests .. | .getCertificate .. | .challenge ..
  | .getMeasurements .. | .keyExchange .. | .finish .. | .heartbeat .. | .keyUpdate .. | .endSession .. | .getPqChain ..
  | .getPqSig .. | .startSession .. | .authenticate .. | .random .. =>
    [.sec, .out]
  | .opalSet .. =>
    [.sec, .nor, .out]
  | .debugUnlockExpiry .. =>
    [.sec]
  | .secLock .. | .secUnlock .. =>
    [.trc, .host, .het, .sec, .evr, .out]
  | .secRollback .. =>
    [.trc, .host, .het, .sec, .evr, .nor, .fuse, .out]
  | .recordProgram .. =>
    [.trc, .sec, .evr, .nor]
  | .sealTimeout .. | .segmentErase .. =>
    [.sec, .evr, .nor]
  | .freezeTimeout .. =>
    [.evr]
  | .recorderFreeze .. =>
    [.trc, .host, .het, .sec, .evr, .nor, .out]
  | .resetClear .. | .resetModule .. | .resetEngine .. | .resetConfigure .. =>
    [.free, .slice, .lane, .pool, .trc, .media, .host, .q, .het, .pwr, .sec, .evr, .nor, .rst, .out, .reel, .links, .recv,
    .engSrv, .seq, .zdc, .rd, .det, .wr, .headSrv, .map, .freq]
  | .actuatorUnload .. =>
    [.trc, .host, .het, .evr, .nor, .rst, .out, .reel, .links, .engSrv, .seq, .wr, .headSrv]
  | .afeCommaAlignment .. =>
    [.out, .links]
  | .perstDeassertion .. | .dataLinkUp .. | .aspmL1Change .. | .vfEnable .. | .mctpSetEndpointId .. | .keepAliveTimeout .. =>
    [.host]
  | .firmwareSlotProgrammed .. =>
    [.trc, .host, .q, .sec, .evr, .nor, .rst, .out, .seq]
  | .formatComplete .. =>
    [.trc, .media, .host, .sec, .evr, .nor, .out, .recv, .zdc, .map]

/-- The row of a packet command in the master opcode table (R531): its code, its levels and its class, with the packet; none for a
command that is no packet. -/
def packetRow : Instr → Option (OpInfo × Packet)
  | .reelStatus p => some (⟨0x0120, [4], .read⟩, p)
  | .reelMarker p => some (⟨0x0121, [4], .action⟩, p)
  | .reelConfig p => some (⟨0x0122, [4], .config⟩, p)
  | .reelClear p => some (⟨0x0123, [4], .action⟩, p)
  | .armStatus p => some (⟨0x0130, [4], .read⟩, p)
  | .armClear p => some (⟨0x0131, [4], .action⟩, p)
  | .armConfig p => some (⟨0x0132, [4], .config⟩, p)
  | .armRetrain p => some (⟨0x0133, [4], .action⟩, p)
  | .sliceConfig p => some (⟨0x0140, [3], .config⟩, p)
  | .sliceStatus p => some (⟨0x0141, [3], .read⟩, p)
  | .sliceClear p => some (⟨0x0142, [3], .action⟩, p)
  | .sliceRestart p => some (⟨0x0143, [3], .action⟩, p)
  | .detConfig p => some (⟨0x0150, [3], .config⟩, p)
  | .detTaps p => some (⟨0x0151, [3], .config⟩, p)
  | .detNp p => some (⟨0x0152, [3], .config⟩, p)
  | .detStatus p => some (⟨0x0153, [3], .read⟩, p)
  | .detClear p => some (⟨0x0154, [3], .action⟩, p)
  | .poolStatus p => some (⟨0x0160, [5], .read⟩, p)
  | .poolConfig p => some (⟨0x0161, [5], .config⟩, p)
  | .poolEngine p => some (⟨0x0162, [5], .read⟩, p)
  | .poolRequester p => some (⟨0x0163, [5], .read⟩, p)
  | .poolClear p => some (⟨0x0164, [5], .action⟩, p)
  | .recConfig p => some (⟨0x0165, [4], .config⟩, p)
  | .recStatus p => some (⟨0x0166, [4], .read⟩, p)
  | .recClear p => some (⟨0x0167, [4], .action⟩, p)
  | .wrtConfig p => some (⟨0x0170, [3], .config⟩, p)
  | .wrtHead p => some (⟨0x0171, [3], .config⟩, p)
  | .wrtGuard p => some (⟨0x0172, [4], .config⟩, p)
  | .wrtStatus p => some (⟨0x0173, [4], .read⟩, p)
  | .wrtClear p => some (⟨0x0174, [4], .action⟩, p)
  | .wrtSlots p => some (⟨0x0175, [5], .config⟩, p)
  | .srvStatus p => some (⟨0x0180, [4], .read⟩, p)
  | .srvConfig p => some (⟨0x0181, [4], .config⟩, p)
  | .srvQuadrille p => some (⟨0x0182, [4], .config⟩, p)
  | .srvNotch p => some (⟨0x0183, [3, 4], .config⟩, p)
  | .srvHead p => some (⟨0x0184, [3], .config⟩, p)
  | .srvHstatus p => some (⟨0x0185, [3], .read⟩, p)
  | .srvClear p => some (⟨0x0186, [4], .action⟩, p)
  | .loopStatus p => some (⟨0x0190, [6], .read⟩, p)
  | .loopCoef p => some (⟨0x0191, [6], .config⟩, p)
  | .loopBankSwap p => some (⟨0x0192, [6], .action⟩, p)
  | .loopConfig p => some (⟨0x0193, [6], .config⟩, p)
  | .loopClear p => some (⟨0x0194, [6], .action⟩, p)
  | .traceConfig p => some (⟨0x01A0, [5], .config⟩, p)
  | .traceArm p => some (⟨0x01A1, [5], .action⟩, p)
  | .traceTrigger p => some (⟨0x01A2, [5], .action⟩, p)
  | .traceStatus p => some (⟨0x01A3, [5], .read⟩, p)
  | .spindleStatus p => some (⟨0x01B0, [5], .read⟩, p)
  | .spindleTarget p => some (⟨0x01B1, [5], .config⟩, p)
  | .spindleBolero p => some (⟨0x01B2, [5], .config⟩, p)
  | .spindleConfig p => some (⟨0x01B3, [5], .config⟩, p)
  | .spindleRunStop p => some (⟨0x01B4, [5], .action⟩, p)
  | .spindleRunStart p => some (⟨0x01B4, [5], .action⟩, p)
  | .spindleChopperTest p => some (⟨0x01B5, [5], .action⟩, p)
  | .spindleClear p => some (⟨0x01B6, [5], .action⟩, p)
  | .seqStatus p => some (⟨0x01C0, [4], .read⟩, p)
  | .seqConfig p => some (⟨0x01C1, [4], .config⟩, p)
  | .seqTrapsave p => some (⟨0x01C2, [4], .read⟩, p)
  | .seqWord p => some (⟨0x01C3, [4], .read⟩, p)
  | .seqClear p => some (⟨0x01C4, [4], .action⟩, p)
  | .zoneStatus p => some (⟨0x01D0, [4], .read⟩, p)
  | .zoneCacheStatus p => some (⟨0x01D1, [4], .read⟩, p)
  | .zoneCacheConfig p => some (⟨0x01D2, [4], .config⟩, p)
  | .zoneCacheFlush p => some (⟨0x01D3, [4], .action⟩, p)
  | .zoneCacheInvalidate p => some (⟨0x01D4, [4], .action⟩, p)
  | .zoneCacheClear p => some (⟨0x01D5, [4], .action⟩, p)
  | .mapBand p => some (⟨0x01D6, [3], .config⟩, p)
  | .mapRegion p => some (⟨0x01D7, [4], .config⟩, p)
  | .mapConv p => some (⟨0x01D8, [5], .config⟩, p)
  | .headDepopulate p => some (⟨0x01D9, [3], .action⟩, p)
  | .hostStatus p => some (⟨0x01E0, [5], .read⟩, p)
  | .hostConfig p => some (⟨0x01E1, [5], .config⟩, p)
  | .hostPermit p => some (⟨0x01E2, [5], .config⟩, p)
  | .hostFunction p => some (⟨0x01E3, [7], .read⟩, p)
  | .hostClear p => some (⟨0x01E4, [5, 7], .action⟩, p)
  | .queueStatus p => some (⟨0x01F0, [5], .read⟩, p)
  | .queueConfig p => some (⟨0x01F1, [5], .config⟩, p)
  | .queueFunction p => some (⟨0x01F2, [7], .read⟩, p)
  | .qosAdmit p => some (⟨0x01F3, [7], .action⟩, p)
  | .qosRevoke p => some (⟨0x01F4, [7], .action⟩, p)
  | .qosStatus p => some (⟨0x01F5, [5], .read⟩, p)
  | .queueClear p => some (⟨0x01F6, [5], .action⟩, p)
  | .modIdentify p => some (⟨0x0100, [5], .read⟩, p)
  | .modEcho p => some (⟨0x0101, [5], .read⟩, p)
  | .modLayout p => some (⟨0x0102, [5], .config⟩, p)
  | .hetosStatus p => some (⟨0x0103, [5], .read⟩, p)
  | .hetosClear p => some (⟨0x0104, [5], .action⟩, p)
  | .budgetSet p => some (⟨0x0200, [5], .config⟩, p)
  | .budgetStatus p => some (⟨0x0201, [5], .read⟩, p)
  | .budgetConsumer p => some (⟨0x0202, [3, 4, 5], .read⟩, p)
  | .budgetClear p => some (⟨0x0203, [5], .action⟩, p)
  | .memStatus p => some (⟨0x0210, [5], .read⟩, p)
  | .memConfig p => some (⟨0x0211, [5], .config⟩, p)
  | .memScrubRestart p => some (⟨0x0212, [5], .action⟩, p)
  | .memScrubSram p => some (⟨0x0212, [5], .action⟩, p)
  | .memRepair p => some (⟨0x0213, [5], .action⟩, p)
  | .memDiagRead p => some (⟨0x0214, [5], .action⟩, p)
  | .memDiagWrite p => some (⟨0x0214, [5], .action⟩, p)
  | .memClear p => some (⟨0x0215, [5], .action⟩, p)
  | .secStatus p => some (⟨0x0220, [5], .read⟩, p)
  | .secCert p => some (⟨0x0221, [4, 5], .read⟩, p)
  | .secLock p => some (⟨0x0222, [5], .action⟩, p)
  | .secUnlock p => some (⟨0x0222, [5], .action⟩, p)
  | .secRollback p => some (⟨0x0223, [5], .action⟩, p)
  | .recorderStatus p => some (⟨0x0230, [5], .read⟩, p)
  | .recorderFreeze p => some (⟨0x0231, [5], .action⟩, p)
  | .recorderThaw p => some (⟨0x0232, [5], .action⟩, p)
  | .recorderRead p => some (⟨0x0233, [5], .read⟩, p)
  | .recorderNote p => some (⟨0x0234, [5], .action⟩, p)
  | .resetStatus p => some (⟨0x0240, [5], .read⟩, p)
  | .resetClear p => some (⟨0x0241, [5], .action⟩, p)
  | .resetModule p => some (⟨0x0241, [5], .action⟩, p)
  | .resetEngine p => some (⟨0x0241, [5], .action⟩, p)
  | .resetConfigure p => some (⟨0x0241, [5], .action⟩, p)
  | .actuatorLoad p => some (⟨0x0242, [4], .action⟩, p)
  | .actuatorUnload p => some (⟨0x0243, [4], .action⟩, p)
  | .powerOnReset .. | .bootRomDone .. | .firstStageLoaderDone .. | .mainFirmwareDone .. | .tablesDone .. | .readForward ..
  | .indirectionReplay .. | .powerFail .. | .journalProgram .. | .powerLossEnd .. | .railFault .. | .pohStore ..
  | .mpCheckpoint .. | .indirectionImage .. | .headLoad .. | .loadTimeout .. | .parkDone .. | .retractBiasEnd ..
  | .unloadTimeout .. | .lockstepMismatch .. | .mgmtWatchdogExpiry .. | .srstAssert .. | .tapIdcode .. | .tapBypass ..
  | .registerWrite .. | .invalidRegisterAccess .. | .snapshotWrite .. | .comparatorArm .. | .comparatorFire ..
  | .servoMarkAccept .. | .markHoldExpiry .. | .armAckReceive .. | .armNakReceive .. | .armAckTimeout ..
  | .armStatusFrame .. | .afeFaultStrobe .. | .auxSlotRequest .. | .configFrameSend .. | .armConfigReply ..
  | .armLinkDown .. | .armTrainAttempt .. | .armTrainTimeout .. | .sliceEnable .. | .sliceStreamStart ..
  | .sliceUnderrun .. | .sliceLateWordDiscard .. | .sliceFifoTimeout .. | .sliceOverrun .. | .dropCommand ..
  | .zeroPhaseStart .. | .sliceAcqToTrack .. | .bandLoad .. | .syncDecision .. | .firstPassDone ..
  | .iterationDetectorPassDone .. | .localIterationEnd .. | .codewordCheckDone .. | .stagingAccept .. | .decoderRequest ..
  | .decoderArbitration .. | .decoderEngineFail .. | .recoveryJobOpen .. | .retainedStreamCopyDone .. | .ladderTry ..
  | .captureComplete .. | .deepDecodeDone .. | .guardTimerExpiry .. | .reallocate .. | .remapActivate .. | .writeEncode ..
  | .writerSlotRequest .. | .memsSample .. | .memsSampleTimeout .. | .suspectRewrite .. | .suspectSpareWrite ..
  | .seekRequest .. | .loopComputeStart .. | .loopComputeDone .. | .loopOutputRelease .. | .thermalSample ..
  | .traceTimeout .. | .traceCopyDone .. | .zeroCrossing .. | .commutation .. | .crossingMissed .. | .rotorLockLoss ..
  | .coastTimeout .. | .detectTimeout .. | .brakeShortEnd .. | .brakeObserveEnd .. | .brakeSettleEnd .. | .alignEnd ..
  | .openLoopStep .. | .startAttemptTimeout .. | .spindleSample .. | .boleroEvaluation .. | .nrefUpdate ..
  | .chopperSwitch .. | .chopperBucketThreshold .. | .chopperFault .. | .railOvervoltage .. | .fragmentEnqueue .. | .inc ..
  | .br .. | .loop .. | .call .. | .ret .. | .wait .. | .waitComplete .. | .rtt .. | .lds .. | .add .. | .ldf .. | .lde ..
  | .lead .. | .win .. | .mov .. | .ldw .. | .arm .. | .armr .. | .armf .. | .armfStallEnd .. | .dis .. | .dism ..
  | .pop .. | .armed .. | .skip .. | .note .. | .drop .. | .clrf .. | .set .. | .dec .. | .fcnt .. | .coreTrapRequest ..
  | .waitTimeout .. | .trapEntry .. | .sequencerRestart .. | .seqHoldEntry .. | .seqHoldResume .. | .zoneReset ..
  | .zoneOpen .. | .zoneClose .. | .zoneFinish .. | .zoneOffline .. | .reportZones .. | .logGroupClose ..
  | .indirectionUpdate .. | .compaction .. | .zdcAccess .. | .zdcFillDone .. | .zdcWritebackDone .. | .zdcPin ..
  | .linkReset .. | .functionLevelReset .. | .vfDisable .. | .controllerReset .. | .controllerEnable ..
  | .shutdownNormal .. | .shutdownAbrupt .. | .doorbellWrite .. | .cmbWrite .. | .cmbRead .. | .tlpMalformed ..
  | .unsupportedRequest .. | .completionTimeout .. | .poisonedCompletion .. | .smbusPecError .. | .smbusClockTimeout ..
  | .mctpMalformed .. | .violationHourSummary .. | .commandFetch .. | .creditGrant .. | .commandStart ..
  | .hostTransferDone .. | .writeDurable .. | .completionPost .. | .schedulerDecision .. | .contractDue ..
  | .latencyDeadlineMiss .. | .floorWindowEnd .. | .zoneFinishRecommended .. | .deleteIoSq .. | .createIoSq ..
  | .deleteIoCq .. | .createIoCq .. | .getLogPage .. | .identify .. | .abort .. | .setFeatures .. | .getFeatures ..
  | .asynchronousEventRequest .. | .keepAlive .. | .formatNvm .. | .securityReceive .. | .namespaceCreate ..
  | .namespaceDelete .. | .namespaceAttach .. | .namespaceDetach .. | .firmwareImageDownload .. | .fwCommitWriteSlot ..
  | .fwCommitWriteActivateNext .. | .fwCommitActivateSlot .. | .fwCommitActivateNow .. | .fwActivationPauseEnd ..
  | .imageRetire .. | .deviceSelfTest .. | .virtualizationManagement .. | .sanitizeCryptoErase .. | .sanitizeBlockErase ..
  | .sanitizeExitFailureMode .. | .sanitizeOverwrite .. | .invalidOpcode .. | .hetosExchange .. | .hetosMctpRequest ..
  | .exchangeStart .. | .flush .. | .write .. | .read .. | .writeZeroes .. | .datasetManagement .. | .verify ..
  | .zoneAppend .. | .readNvmeMiDataStructure .. | .nvmSubsystemHealthStatusPoll .. | .controllerHealthStatusPoll ..
  | .configurationSet .. | .configurationGet .. | .vpdRead .. | .vpdWrite .. | .powerEpoch .. | .estOfsUpdate ..
  | .islandClockChange .. | .dramArbitration .. | .eccWriteback .. | .dramRefresh .. | .bucketLeak .. | .scrubBurst ..
  | .sramScrubPass .. | .dramRowRepair .. | .getVersion .. | .getCapabilities .. | .negotiateAlgorithms .. | .getDigests ..
  | .getCertificate .. | .challenge .. | .getMeasurements .. | .keyExchange .. | .finish .. | .heartbeat .. | .keyUpdate ..
  | .endSession .. | .getPqChain .. | .getPqSig .. | .startSession .. | .properties .. | .opalGet .. | .opalSet ..
  | .authenticate .. | .genkey .. | .activate .. | .revert .. | .revertSp .. | .random .. | .debugUnlockExpiry ..
  | .recordProgram .. | .sealTimeout .. | .segmentErase .. | .segmentEraseDone .. | .freezeTimeout ..
  | .afeCommaAlignment .. | .perstDeassertion .. | .dataLinkUp .. | .aspmL1Change .. | .vfEnable .. | .mctpSetEndpointId ..
  | .keepAliveTimeout .. | .cmbRefillDone .. | .firmwareSlotProgrammed .. | .sanitizeComplete .. | .formatComplete .. => none

end Sys2Proof.Machine
end

