-- ==== Sys2Proof/Certificates/Slice0/Obligations.lean ====
section
/-! DEFINITION. The statements for the provers. The first group is about every command or about a shared operation; the others are, family by
family, what each command of the opcode table does where it completes: one clause or more for each constructor of Instr. -/

section
open Sys2Proof Sys2Proof.Machine

/-- For every command c and every state s, a step of s with c put at the front of its queue is exec of c on s with the rest
of the queue. -/
def Obligations.StepRunsFront : Prop :=
  -- The queue of commands is the model's way in; a step runs the one at its front.
  ∀ (c : Instr) (s : State), step { s with pending := c :: s.pending } = exec c s

/-- With no command waiting, a step passes one datapath clock: module time advances by one while the module has its supply
or a power-loss sequence runs, nothing at all changes otherwise, and only what runs by itself can change: module time and power-on hours, the
timelines, the arm links, the slices, lanes and decoder engines with what their codewords lead to, the spindle, and what
an event or an answer touches. That an empty queue stands for a clock is the model's choice (log 1). -/
def Obligations.IdleTick : Prop :=
  -- The model's choice (log 1), not a rule of the manual.
  ∀ (s : State), s.pending = [] → Completes (step s) fun t =>
    Within [.mtime, .slice, .lane, .pool, .wsl, .lpe, .trc, .spn, .q, .pwr, .evr, .rst, .out, .reel, .links, .recv, .det, .wr, .freq]
      s t ∧
    (s.rst.rail12 = true ∨ s.rst.powerLoss = true → t.mtime = (s.mtime + 1) % 2 ^ 64) ∧
    (s.rst.rail12 = false → s.rst.powerLoss = false → t = s)

/-- For every command but a rail above 16 V and for every state, exec answers a next state, the queue is kept, and every
part of the state outside the command's list (touches) is as it was. A rail above the absolute maximum of 16 V, of which
the manual says nothing further, stops by name (the model's choice, log 27). -/
def Obligations.EveryCommandWithinItsParts : Prop :=
  -- The lists of `touches` are the model's reading of the manual's rules; the stop above 16 V is the model's choice (log 27).
  (∀ (c : Instr) (s : State), (∀ mv : Nat, 16000 < mv → c ≠ .chopperSwitch mv ∧ c ≠ .railOvervoltage mv) →
    Completes (exec c s) fun t => Within (touches c) s t) ∧
  (∀ (mv : Nat) (s : State), 16000 < mv →
    exec (.chopperSwitch mv) s = .fault .overstress ∧ exec (.railOvervoltage mv) s = .fault .overstress)

/-- For every sound state s, if a step answers next t, then t is sound: the layout in effect and the stored layout are ones
the module may have, DDR4 and the diagnostic window are in canonical form, and the rollback counter is at most 128. -/
def Obligations.StepKeepsSound : Prop :=
  -- Layouts of R22 and R23, the memory's canonical form, and the 128 rollback fuses of R596.
  ∀ (s t : State), s.Sound → step s = .next t → t.Sound

/-- State.reset is sound, and its queue of commands is empty. -/
def Obligations.ResetSound : Prop :=
  -- The invariant of StepKeepsSound holds at reset.
  State.reset.Sound ∧ State.reset.pending = []

/-- For every state s, if a step answers next t: the rollback counter of t is at least that of s, every key revocation blown
in s is blown in t, and the serial number, the stepping, the key hash and the device secret are the same. -/
def Obligations.FusesOnlyBlown : Prop :=
  -- A blown fuse stays blown, and the identity fuses are written in manufacture only.
  ∀ (s t : State), step s = .next t →
    s.fuse.rollCtr ≤ t.fuse.rollCtr ∧ s.fuse.revoked &&& ~~~t.fuse.revoked = 0 ∧ t.fuse.serial = s.fuse.serial ∧
      t.fuse.stepping = s.fuse.stepping ∧ t.fuse.keyHash = s.fuse.keyHash ∧ t.fuse.uds = s.fuse.uds

/-- For every state s, if a step answers next t and the layout in effect differs, then the command was MAIN_FIRMWARE_DONE in
the firmware phase of a start, and the layout of t is the one stored in the NOR configuration area in s. -/
def Obligations.LayoutOnlyAtStart : Prop :=
  -- The start phase in which the stored layout takes effect is the model's reading of R24.
  ∀ (s t : State), step s = .next t → t.layout ≠ s.layout →
    (∃ (laneFail : BitVec 24) (rest : List Instr), s.pending = .mainFirmwareDone laneFail :: rest) ∧
      s.rst.phase = .firmware ∧ t.layout = s.nor.layout

/-- For every packet command, if the packet may start, the module is not in recovery mode, its exchange has not been dropped
and a header check fails, then exec completes, the reply carries the status of the first check that fails and no
results, and nothing changes but what a reply touches. -/
def Obligations.PacketRefused : Prop :=
  -- `headerCheck` makes the checks 2 to 8 of R514 in their order; check 1 is made where the exchange is run.
  ∀ (c : Instr) (o : OpInfo) (p : Packet) (s : State), packetRow c = some (o, p) → mayStart o p s = true → s.rst.recovery = false →
    headerCheck o p s ≠ 0 → (s.het.exchanges.all fun x => x.xid != p.xid || !x.dropped) = true →
    Completes (exec c s) fun t => t = s.afterReply t ∧ Replied s t o.code p (headerCheck o p s) 0 []

/-- For every packet command whose packet may not start in s (its exchange does not run or it is not next in it, eight
exchanges run, an activation pause, no supply, a power loss, or an earlier packet to its target has not replied), exec
leaves the state as it is. That such a command is dropped unrun rather than held is the model's choice (log 11). -/
def Obligations.PacketWaitsTurn : Prop :=
  -- The model's choice (log 11), not a rule of the manual.
  ∀ (c : Instr) (o : OpInfo) (p : Packet) (s : State), packetRow c = some (o, p) → mayStart o p s = false → exec c s = .next s

/-- For every packet command whose packet has DRY set, and for every state, exec completes, and the next state differs from
s in nothing but the packet block, the outputs, the host link, the trace buffers and the recorder, which a reply
touches: no register of its subject, no NOR content and no state. -/
def Obligations.DryPacketChangesNothing : Prop :=
  -- The second half of R517; what the reply carries is stated of each packet with its other clauses.
  ∀ (c : Instr) (o : OpInfo) (p : Packet) (s : State), packetRow c = some (o, p) → p.dry = true →
    Completes (exec c s) fun t => t = s.afterReply t

/-- The reply formed with a STATUS that is not 0x0000 has CLAMP and all six RESULT words zero; one formed with STATUS 0x0000
has every RESULT word its opcode does not define zero. -/
def Obligations.ReplyZeros : Prop :=
  -- R511.
  ∀ (code status clamp : Nat) (tag : BitVec 16) (words : List Word),
    (BitVec.ofNat 16 status ≠ 0 → (mkReply code tag status clamp words).clamp = 0 ∧
      ∀ i : Fin 6, (mkReply code tag status clamp words).result[i] = 0) ∧
    (status = 0 → ∀ i : Fin 6, words.length ≤ i.val → (mkReply code tag status clamp words).result[i] = 0)

/-- For every opcode and packet: the packet's bytes are 64, they spell the opcode and the packet again, in whatever exchange, and
so does each packet where several stand one after another; the bytes of a reply are 32. -/
def Obligations.PacketBytesRoundTrip : Prop :=
  -- The layouts of R509 and R510, with R10's byte order; a packet's exchange and sender come from outside its bytes.
  (∀ (op : BitVec 16) (p : Packet), (p.bytes op).length = 64 ∧ packetOf p.xid p.src (p.bytes op) = (op, p)) ∧
  (∀ (xid : Nat) (src : Sender) (l : List (BitVec 16 × Packet)), (∀ x ∈ l, x.2.xid = xid ∧ x.2.src = src) →
    packetsOf xid src l.length (l.flatMap fun x => x.2.bytes x.1) = l) ∧
  (∀ r : Reply, r.bytes.length = 32)

/-- In every legal layout: head a.h has the global number that is the sum of the head counts of engines 0 to a − 1 plus h;
numbers rise by engine, and by local head within one engine; every number below the total is some head's, so that they
run consecutively; and the number leads back to the engine and the local head. -/
def Obligations.HeadNumbers : Prop :=
  -- R3.
  ∀ (s : State), s.layout.legal = true →
    (∀ (a : Eng) (h : LHead), h.val < s.layout.count a → ∃ g : Head, s.globalHead a h.val = some g ∧
      g.val = ((List.range a.val).map s.layout.count).sum + h.val ∧ s.localHead g = some (a, h)) ∧
    (∀ (a b : Eng) (h k : LHead) (g i : Head), s.globalHead a h.val = some g → s.globalHead b k.val = some i →
      (a < b ∨ a = b ∧ h < k) → g < i) ∧
    (∀ g : Head, g.val < s.layout.total → ∃ (a : Eng) (h : LHead), s.globalHead a h.val = some g)

/-- For every engine and every state, taking a pending micro-trap completes, and every slice and every head's read block,
with its read gate, is as it was. -/
def Obligations.MicroTrapKeepsSlices : Prop :=
  -- R121.
  ∀ (a : Eng) (s : State), Completes (exec (.trapEntry a) s) fun t =>
    t.slice = s.slice ∧ ∀ g : Head, t.head[g].rd = s.head[g].rd

/-- For every stored word: the syndrome is the stored check bits XOR those recomputed from the data; zero means no error and
the data as stored; 0xFF means poison; a syndrome equal to the column of a data bit means a correctable error, and the
data with that bit inverted; one equal to the column of a check bit means a correctable error, and the data as stored;
any other value means an uncorrectable error. Poison and uncorrectable errors are the uncorrectable kinds. -/
def Obligations.EccSyndrome : Prop :=
  -- R563.
  (∀ w : EccWord, w.syndrome = w.check ^^^ eccCheck w.data ∧ (w.syndrome = 0 → w.kind = .none ∧ w.value = w.data) ∧
      (w.syndrome = 0xFF → w.kind = .poison) ∧
      (∀ j : Fin 64, w.syndrome = BitVec.ofNat 8 (eccColumns.getD j.val 0) →
        w.kind = .ce ∧ w.value = w.data ^^^ BitVec.ofNat 64 (2 ^ j.val)) ∧
      (∀ i : Fin 8, w.syndrome = BitVec.ofNat 8 (2 ^ i.val) → w.kind = .ce ∧ w.value = w.data) ∧
      (w.syndrome ≠ 0 → w.syndrome ≠ 0xFF → (∀ j : Fin 64, w.syndrome ≠ BitVec.ofNat 8 (eccColumns.getD j.val 0)) →
        (∀ i : Fin 8, w.syndrome ≠ BitVec.ofNat 8 (2 ^ i.val)) → w.kind = .ue)) ∧
  (∀ k : EccKind, k.bad = true ↔ k = .ue ∨ k = .poison)

/-- For every data word: stored with its check bits it reads without error; with any one of its 72 bits turned over it reads
as a correctable error that returns the data; with any two different bits turned over it reads as uncorrectable; and
written poisoned it reads as poison with its data. -/
def Obligations.EccCorrects : Prop :=
  -- What R562 to R564 make of the code.
  (∀ d : BitVec 64, (EccWord.fresh d).kind = .none ∧ (EccWord.fresh d).value = d) ∧
  (∀ (d : BitVec 64) (x : Fin 72), ((EccWord.fresh d).flipped x).kind = .ce ∧ ((EccWord.fresh d).flipped x).value = d) ∧
  (∀ (d : BitVec 64) (x y : Fin 72), x ≠ y → (((EccWord.fresh d).flipped x).flipped y).kind.bad = true) ∧
  (∀ d : BitVec 64, (EccWord.poison d).kind = .poison ∧ (EccWord.poison d).value = d)

/-- For a function whose buffer is enabled, a write inside it while no refill of it runs completes; afterwards every byte it wrote
reads as written, every other byte of DDR4 reads as before, and every word the write does not reach is stored as before. -/
def Obligations.BufferWriteReadsBack : Prop :=
  -- Full and partial writes of R567 over the words the write reaches.
  ∀ (f : Fn) (off : Nat) (bytes : List Byte) (s : State) (base size : Nat), s.cmbOf f = some (base, size) →
    s.host.fns[f].present = true → s.cmbOn f = true → off + bytes.length ≤ size → s.mem.refill.contains f = false → Memory.wf s.mem.dram = true →
    Completes (exec (.cmbWrite f off bytes) s) fun t =>
      (∀ addr : Nat, t.dramByte addr =
        if base + off ≤ addr ∧ addr < base + off + bytes.length then bytes.getD (addr - (base + off)) 0 else s.dramByte addr) ∧
      (∀ w : Nat, 8 * w + 8 ≤ base + off ∨ base + off + bytes.length ≤ 8 * w →
        Memory.read t.mem.dram w = Memory.read s.mem.dram w)

/-- After reset the module is in the boot ROM phase with module time 0 and no recovery mode; every timeline is stopped with
every comparator disarmed, every arm link is down, every sequencer off, every slice off, every decoder engine idle, the
spindle stopped, every actuator unloaded; no context, exchange or waiting packet exists and the recorder is not frozen;
the configuration registers named hold their Reset values; and DDR4 reads as R569 leaves it. -/
def Obligations.ResetValues : Prop :=
  -- The Reset column of the register tables, and R569 for DDR4.
  (let s := State.reset
  s.rst.phase = .bootRom ∧ s.rst.recovery = false ∧ s.mtime = 0 ∧ s.spn.state = .stopped ∧ s.q.ctxs = [] ∧ s.het.exchanges = [] ∧
    s.het.waiting = [] ∧ s.evr.frzDepth = 0 ∧
    (∀ a : Eng, s.eng[a].reel.state = .stopped ∧ (∀ c : CmpIx, s.eng[a].reel.cmp[c].armed = false) ∧
      (∀ l : LinkIx, s.eng[a].links[l].state = .down) ∧ s.eng[a].seq.state = .off ∧ s.rst.act[a].state = .unloaded ∧
      rAngCfg s.eng[a].reel = 0x08000010) ∧
    (∀ n : SliceIx, s.slice[n].state = .off) ∧ (∀ e : Fin 40, s.pool.engines[e].state = .idle) ∧
    rSpnTgt s.spn.set = 0x1C200001 ∧ rSpnBolr s.spn.set = 0x258012C0 ∧ rCtxCfg s.q = 0x40400000 ∧ rSchCfg s.q = 0x08144B0A ∧
    rAdmCfg s.q = 0x46078000 ∧ (∀ r : MemRegion, rBktCfg s.mem.bkt[r] = 0x1000003C) ∧ rEvrCfg s.evr = 0x0E100258 ∧
    rRstCfg s.rst = 0x000A3C00 ∧
    (∀ w : Nat, Memory.read s.mem.dram w = if inCmb w then EccWord.poison 0 else EccWord.fresh 0))

/-- The start phases from the release of reset to the tables and the read-forward: POWER_ON_RESET, RAIL_FAULT,
BOOT_ROM_DONE, FIRST_STAGE_LOADER_DONE, MAIN_FIRMWARE_DONE, TABLES_DONE, READ_FORWARD and INDIRECTION_REPLAY complete on
the states their clauses name, each with the next state its clause gives. The rules each clause rests on stand before
it. -/
def Obligations.StartPhases : Prop :=
  -- POWER_ON_RESET: R631, R637, R652, R655
  (∀ (s : State), s.rst.powerLoss = false → Completes (exec .powerOnReset s) fun t =>
       t.rst = { State.reset.rst with cause := s.rst.resetDue.getD 0, poh := s.nor.poh } ∧ t.eng = State.reset.eng ∧
       t.head = State.reset.head ∧ t.slice = State.reset.slice ∧ t.lane = State.reset.lane ∧ t.pool = State.reset.pool ∧
       t.spn = State.reset.spn ∧
       t.q = { State.reset.q with creditsFree := bufferCredits s.nor.convPct, creditsAll := bufferCredits s.nor.convPct } ∧ t.mem = State.reset.mem ∧ t.pwr = State.reset.pwr ∧
       t.het = State.reset.het ∧ t.fuse = s.fuse ∧ t.layout = s.layout ∧ t.pending = s.pending ∧ t.mtime = 0) ∧
  -- RAIL_FAULT: R672, R652
  (∀ (s : State), s.rst.powerLoss = false → Completes (exec .railFault s) fun t =>
       t.rst = { State.reset.rst with cause := 0, poh := s.nor.poh } ∧ t.eng = State.reset.eng ∧
       t.q = { State.reset.q with creditsFree := bufferCredits s.nor.convPct, creditsAll := bufferCredits s.nor.convPct } ∧
       t.mem = State.reset.mem ∧ t.fuse = s.fuse ∧ t.layout = s.layout ∧ t.pending = s.pending) ∧
  -- BOOT_ROM_DONE: R595, R637
  (∀ (s : State), (s.rst.phase = .bootRom) → Completes (exec .bootRomDone s) fun t =>
       (s.slotOk s.nor.actSlot = true →
         t.rst = { s.rst with phase := .loader } ∧ t.sec.runSlot = s.nor.actSlot ∧
           vget s.nor.slots s.nor.actSlot none = some t.sec.running) ∧
       (s.slotOk s.nor.actSlot = false → t.sec.fallback = true) ∧
       (s.slotOk s.nor.actSlot = false → s.slotOk (1 - s.nor.actSlot) = true →
         t.rst = { s.rst with phase := .loader } ∧ t.sec.runSlot = 1 - s.nor.actSlot) ∧
       (s.slotOk s.nor.actSlot = false → s.slotOk (1 - s.nor.actSlot) = false →
         t.rst = { s.rst with recovery := true, phase := .ready } ∧ t.host.fns[(0 : Fn)].present = true)) ∧
  -- FIRST_STAGE_LOADER_DONE: R569, R574, R584, R587, R596, R633
  (∀ (s : State) (ch0 ch1 : Bool), (s.rst.phase = .loader) → Completes (exec (.firstStageLoaderDone ch0 ch1) s) fun t =>
       t.rst = { s.rst with phase := .firmware } ∧ t.mem.initDone = true ∧ t.mem.chan[(0 : Fin 2)].trained = ch0 ∧
       t.mem.chan[(1 : Fin 2)].trained = ch1) ∧
  -- MAIN_FIRMWARE_DONE: R24, R535, R622, R633, R635
  (∀ (s : State) (laneFail : BitVec 24), (s.rst.phase = .firmware) →
     Completes (exec (.mainFirmwareDone laneFail) s) fun t =>
       t.rst.phase = .tables ∧ t.rst.pcyc = t.nor.pcyc ∧ t.nor.pcyc = satAdd 32 s.nor.pcyc 1 ∧ t.nor.unsealed = [] ∧
       t.layout = s.nor.layout) ∧
  -- TABLES_DONE: R636, R641, R21
  (∀ (s : State), (s.rst.phase = .tables) →
     Completes (exec .tablesDone s) fun t => t.rst.tblReady = true ∧ t.rst.phase = .ready ∧ t.nor.journal = none) ∧
  -- READ_FORWARD: R642
  (∀ (s : State) (z : ZoneNo) (r : List RdFwd), s.rst.rdfwdPend.contains z = true → s.rst.tblReady = true →
     s.engineLoaded (s.zoneDesc z).engine = true →
     Completes (exec (.readForward z r) s) fun t =>
       t.rst = { s.rst with rdfwdPend := s.rst.rdfwdPend.filter fun y => y != z }) ∧
  -- INDIRECTION_REPLAY: R646
  (∀ (s : State) (imageOk : Bool), s.rst.tblReady = true → s.rst.convReady = false → s.allLoaded = true →
     Completes (exec (.indirectionReplay imageOk) s) fun t => t.rst = { s.rst with convReady := true })

/-- Power loss, its journal, the periodic stores, SRST# and the test access port: POWER_FAIL, JOURNAL_PROGRAM,
POWER_LOSS_END, POH_STORE, MP_CHECKPOINT, INDIRECTION_IMAGE, SRST_ASSERT, TAP_IDCODE and TAP_BYPASS complete on the
states their clauses name, each with the next state its clause gives. The rules each clause rests on stand before it. -/
def Obligations.PowerLossAndStores : Prop :=
  -- POWER_FAIL: R632, R651
  (∀ (s : State), s.rst.powerLoss = false → Completes (exec .powerFail s) fun t =>
       t.rst.rail12 = false ∧ t.rst.powerLoss = true ∧ t.rst.journalDone = false ∧ t.rst.plCnt = inc 32 s.rst.plCnt ∧
       t.nor.lossPend = true ∧ t.host.dlUp = false ∧ (∀ n : SliceIx, t.slice[n].state = .off) ∧ t.pool = State.reset.pool ∧ (t.mem.dram = [])) ∧
  -- JOURNAL_PROGRAM: R640
  (∀ (s : State), s.rst.powerLoss = true → s.rst.journalDone = false → s.rst.tblReady = true →
     Completes (exec .journalProgram s) fun t =>
       t.rst = { s.rst with journalDone := true } ∧ t.nor.poh = s.rst.poh ∧
       (∃ e, t.nor.journal = some { pcyc := s.nor.pcyc, poh := s.rst.poh, entries := e, valid := true } ∧ e.length ≤ 8188) ∧
       t = { s with rst := t.rst, nor := t.nor }) ∧
  -- POWER_LOSS_END: R651, R652
  (∀ (s : State), s.rst.powerLoss = true → Completes (exec .powerLossEnd s) fun t =>
       t.rst = { s.rst with powerLoss := false, resetDue := if s.rst.rail12 then some 2 else none } ∧
       (s.spn.state ≠ .stopped → t.spn.state = .coast ∧ t.spn.icmd = 0) ∧ t = { s with rst := t.rst, spn := t.spn, nor := t.nor }) ∧
  -- POH_STORE: R635
  (∀ (s : State), (s.nor.poh / 64 < s.rst.poh / 64) →
     Completes (exec .pohStore s) fun t => t = { s with nor := { s.nor with poh := s.rst.poh } }) ∧
  -- POH_STORE (early): R635
  (∀ (s : State), (s.rst.poh / 64 ≤ s.nor.poh / 64) → Completes (exec .pohStore s) fun t => t = s) ∧
  -- MP_CHECKPOINT: R639
  (∀ (s : State), s.rst.tblReady = true → (s.rst.ckptAt ≤ s.mtime) →
     Completes (exec .mpCheckpoint s) fun t =>
       t = (s.checkpoint fun _ => true).modRst fun r => { r with ckptAt := s.mtime + r.mpCkptS * secClocks }) ∧
  -- INDIRECTION_IMAGE: R645, R655
  (∀ (s : State), s.rst.convReady = true → s.imageDue = true →
     Completes (exec .indirectionImage s) fun t =>
       ∃ mps, t.nor.image = some { entries := s.media.indir, mps := mps }) ∧
  -- SRST_ASSERT: R669
  (∀ (s : State), s.sec.dbgUnlock = true → Completes (exec .srstAssert s) fun t => t.rst.moduleReset = true) ∧
  -- SRST_ASSERT (locked): R669
  (∀ (s : State), s.sec.dbgUnlock = false → Completes (exec .srstAssert s) fun t => t = s) ∧
  -- TAP_IDCODE: R669
  (∀ (s : State),
     Completes (exec .tapIdcode s) fun t => t = { s with out := { s.out with tap := (32, Config.idcode) :: s.out.tap } }) ∧
  -- TAP_BYPASS: R669
  (∀ (s : State), Completes (exec .tapBypass s) fun t => t = { s with out := { s.out with tap := (1, 0) :: s.out.tap } })

/-- Loading and unloading the actuators, and the reset and actuator packets: HEAD_LOAD, LOAD_TIMEOUT, PARK_DONE,
RETRACT_BIAS_END, UNLOAD_TIMEOUT, RESET_STATUS, RESET_CLEAR, RESET_MODULE, RESET_ENGINE, RESET_CONFIGURE, ACTUATOR_LOAD
and ACTUATOR_UNLOAD complete on the states their clauses name, each with the next state its clause gives. The rules each
clause rests on stand before it. -/
def Obligations.LoadUnloadAndResets : Prop :=
  -- HEAD_LOAD: R647
  (∀ (s : State) (a : Eng), s.wantsLoad a = true → s.pwr.eng[a].loadGnt = true → (s.pwr.late = none) →
     Completes (exec (.headLoad a) s) fun t =>
       t.rst.act[a].state = .loading ∧ t.rst.act[a].tries = s.rst.act[a].tries + 1 ∧ t.rst.act[a].loadReq = false ∧
       t.rst.act[a].loadEnd = s.mtime + s.rst.act[a].loadTmo * msClocks ∧
       t.eng[a].srv.mode = .loading ∧ t.eng[a].reel.state = .acquire) ∧
  -- LOAD_TIMEOUT: R648
  (∀ (s : State) (a : Eng), (s.rst.act[a].state = .loading) → (s.eng[a].srv.mode = .loading) →
     (s.rst.act[a].loadTries ≤ s.rst.act[a].tries) → (s.rst.act[a].loadEnd ≤ s.mtime) →
     Completes (exec (.loadTimeout a) s) fun t =>
       t.rst.act[a].loadFailCnt = inc 32 s.rst.act[a].loadFailCnt ∧ t.eng[a].core.failed = true) ∧
  -- PARK_DONE: R650
  (∀ (s : State) (a : Eng), (s.rst.act[a].state = .unloading) → s.engineFailed a = false →
     Completes (exec (.parkDone a) s) fun t =>
       t.rst.act[a] = { s.rst.act[a] with state := .unloaded, biasing := true, biasEnd := s.mtime + 50 * msClocks } ∧ t.eng[a].srv.mode = .unloaded ∧
       (t.eng[a].srv.out = 655 ∨ t.eng[a].srv.out = -655)) ∧
  -- RETRACT_BIAS_END: R650
  (∀ (s : State) (a : Eng), s.rst.act[a].biasing = true → (s.rst.act[a].biasEnd ≤ s.mtime) →
     Completes (exec (.retractBiasEnd a) s) fun t => t.rst.act[a].biasing = false ∧ t.eng[a].srv.out = 0) ∧
  -- UNLOAD_TIMEOUT: R650
  (∀ (s : State) (a : Eng), (s.rst.act[a].state = .unloading) → (s.rst.act[a].unloadAt + 300 * msClocks ≤ s.mtime) →
     Completes (exec (.unloadTimeout a) s) fun t => t.nor.unlOk = false ∧ t.rst.plLast = setFld s.rst.plLast 30 30 0) ∧
  -- RESET_STATUS: R521
  (∀ (s : State) (p : Packet), ready ⟨0x0240, [5], .read⟩ p s = true →
     Completes (exec (.resetStatus p) s) fun t => Answered s t 0x0240 p (stRst s) ∧ t = s.afterReply t) ∧
  -- RESET_CLEAR: R657
  (∀ (s : State) (p : Packet), ready ⟨0x0241, [5], .action⟩ p s = true → p.w 0 = 0 → (fld (p.w 1) 4 0 < 8) →
     Completes (exec (.resetClear p) s) fun t =>
       t.rst.plCnt = clr (fld (p.w 1) 4 0) 0 s.rst.plCnt ∧ t.rst.jrnlFailCnt = clr (fld (p.w 1) 4 0) 1 s.rst.jrnlFailCnt ∧
       t.rst.rdfwdCnt = clr (fld (p.w 1) 4 0) 2 s.rst.rdfwdCnt ∧ t = ({ s with rst := t.rst } : State).afterReply t) ∧
  -- RESET_MODULE: R655
  (∀ (s : State) (p : Packet), ready ⟨0x0241, [5], .action⟩ p s = true → p.w 0 = 1 → p.w 3 = 0x52455354 →
     Completes (exec (.resetModule p) s) fun t => t.rst.moduleReset = true) ∧
  -- RESET_ENGINE: R656
  (∀ (s : State) (p : Packet) (a : Eng), ready ⟨0x0241, [5], .action⟩ p s = true → p.w 0 = 2 → p.w 3 = 0x52455354 →
   (fin? 4 (p.w 1).toNat = some a) → s.enginePresent a = true → s.engineFailed a = false →
     (s.rst.act[a].state = .loaded) →
     Completes (exec (.resetEngine p) s) fun t => t.rst.act[a].reloadAfter = true ∧ t.rst.act[a].tries = 0) ∧
  -- RESET_CONFIGURE: R657
  (∀ (s : State) (p : Packet), ready ⟨0x0241, [5], .action⟩ p s = true → p.w 0 = 3 →
     Completes (exec (.resetConfigure p) s) fun t =>
       t.nor = { s.nor with rstCfg := clampWord [fIn 31 16 1 3600, fIn 15 8 5 240] 0 (p.w 1) } ∧
       t.rst = { s.rst with
         mpCkptS := fld (clampWord [fIn 31 16 1 3600, fIn 15 8 5 240] 0 (p.w 1)) 31 16
         imgMin := fld (clampWord [fIn 31 16 1 3600, fIn 15 8 5 240] 0 (p.w 1)) 15 8 } ∧
       Answered s t 0x0241 p [clampWord [fIn 31 16 1 3600, fIn 15 8 5 240] 0 (p.w 1)] ∧
       t = ({ s with rst := t.rst, nor := t.nor } : State).afterReply t) ∧
  -- ACTUATOR_LOAD: R657, R658
  (∀ (s : State) (p : Packet), ready ⟨0x0242, [4], .action⟩ p s = true → s.rst.act[p.eng].reloadAfter = false →
     (s.rst.act[p.eng].state = .unloaded) →
     Completes (exec (.actuatorLoad p) s) fun t =>
       t.rst.act[p.eng].held = false ∧ t.rst.act[p.eng].tries = 0 ∧ (0x0242, p) ∈ t.het.waiting ∧
       ((p.w 0).getLsbD 0 = true → t.nor.engs[p.eng].actCfg = actCfgWord (p.w 1))) ∧
  -- ACTUATOR_UNLOAD: R658, R649
  (∀ (s : State) (p : Packet), ready ⟨0x0243, [4], .action⟩ p s = true → (s.rst.act[p.eng].state = .loaded) →
     Completes (exec (.actuatorUnload p) s) fun t => t.rst.act[p.eng].held = true ∧ t.rst.act[p.eng].tries = 0) ∧
  -- ACTUATOR_UNLOAD (idle): R658, R649
  (∀ (s : State) (p : Packet), ready ⟨0x0243, [4], .action⟩ p s = true → (s.rst.act[p.eng].state = .unloaded) →
     s.rst.act[p.eng].loadReq = false →
     Completes (exec (.actuatorUnload p) s) fun t =>
       Answered s t 0x0243 p [rActStatus s.rst.act[p.eng], rSrvStatus s p.eng] ∧ t = s.afterReply t)

/-- The angle timeline: marks, comparators, holds and the Reel packets: COMPARATOR_ARM, COMPARATOR_FIRE, SERVO_MARK_ACCEPT,
MARK_HOLD_EXPIRY, REEL_STATUS, REEL_MARKER, REEL_CONFIG and REEL_CLEAR complete on the states their clauses name, each
with the next state its clause gives. The rules each clause rests on stand before it. -/
def Obligations.AngleTimeline : Prop :=
  -- COMPARATOR_ARM: R66, R79
  (∀ (s : State) (a : Eng) (c : CmpIx) (ctl : Word), s.enginePresent a = true →
     Completes (exec (.comparatorArm a c ctl) s) fun t =>
       t.eng[a].reel.cmp[c].armed = (ctl.getLsbD 31 && (cmpOwner c != 0xF || s.eng[a].reel.cmp[c].armed)) ∧
       (ctl.getLsbD 30 = true → t.eng[a].reel.cmp[c].late = false) ∧
       (∀ d, c ≠ d → t.eng[a].reel.cmp[d] = s.eng[a].reel.cmp[d]) ∧ (∀ b, a ≠ b → t.eng[b] = s.eng[b]) ∧ t = { s with eng := t.eng }) ∧
  -- COMPARATOR_FIRE: R53, R57, R59, R65, R69, R66
  (∀ (s : State) (a : Eng) (h : LHead) (g : Head) (d : FireData), s.enginePresent a = true →
   (s.eng[a].reel.state = .locked) → (s.eng[a].reel.cmp[(⟨48 + h.val, by omega⟩ : CmpIx)].armed = true) →
   (s.eng[a].reel.cmp[(⟨48 + h.val, by omega⟩ : CmpIx)].headMask.getLsbD h.val = true) →
   (s.eng[a].reel.cmp[(⟨48 + h.val, by omega⟩ : CmpIx)].armedAt ≠ some s.mtime) →
   (reached (s.angle a) (s.fireTarget a ⟨48 + h.val, by omega⟩) = true) → (s.globalHead a h.val = some g) →
     s.head[g].wr.writeReady = true →
     Completes (exec (.comparatorFire a ⟨48 + h.val, by omega⟩ d) s) fun t => t.head[g].wr.preheated = true) ∧
  -- COMPARATOR_FIRE (late): R53, R57, R59, R65, R69, R66
  (∀ (s : State) (a : Eng) (d : FireData), s.enginePresent a = true → (s.eng[a].reel.state = .locked) →
   (s.eng[a].reel.cmp[(63 : CmpIx)].armed = true) → (s.eng[a].reel.cmp[(63 : CmpIx)].armedAt ≠ some s.mtime) →
   reached (s.angle a) (s.fireTarget a 63) = true →
   (s.eng[a].reel.cmp[(63 : CmpIx)].repeat_ = 0) → (s.eng[a].reel.lateTol.toNat < s.fireLateness a 63) →
     s.eng[a].reel.markerTrace = false →
     Completes (exec (.comparatorFire a 63 d) s) fun t =>
       t.eng[a].reel.lateCnt = inc 32 s.eng[a].reel.lateCnt ∧ t.eng[a].reel.cmp[(63 : CmpIx)].armed = false ∧
       t.eng[a].reel.cmp[(63 : CmpIx)].late = true) ∧
  -- SERVO_MARK_ACCEPT: R50, R48
  (∀ (s : State) (a : Eng) (m : MarkInfo) (g : Head) (i : Fin 720), s.enginePresent a = true →
   (s.globalHead a m.head.val = some g) → s.head[g].map.depop = false → s.head[g].srv.lost = false →
   (s.eng[a].reel.state = .locked) → (s.eng[a].reel.slipFix = .none) →
   (65536 - s.eng[a].reel.markWin.toNat ≤ s.eng[a].reel.stamp.frac) → (markIndex m = some i) →
     (i.val = (s.eng[a].reel.stamp.rev * 720 + s.eng[a].reel.stamp.wedge + 1) % 720) →
     Completes (exec (.servoMarkAccept a m) s) fun t =>
       t.eng[a].reel.state = .locked ∧
       t.eng[a].reel.stamp =
         Stamp.ofLinear (((s.eng[a].reel.stamp.rev * 720 + s.eng[a].reel.stamp.wedge + 1) * 65536) % angleModulus) ∧
       t.eng[a].reel.hold = none ∧ t.eng[a].reel.lastMark = some s.mtime ∧ t.eng[a].reel.flyRun = 0) ∧
  -- MARK_HOLD_EXPIRY: R51, R49
  (∀ (s : State) (a : Eng), s.enginePresent a = true →
   (s.eng[a].reel.state = .locked ∨ s.eng[a].reel.state = .flywheel) → (s.eng[a].reel.hold = some 0) →
     Completes (exec (.markHoldExpiry a) s) fun t =>
       t.eng[a].reel.state = .flywheel ∧ t.eng[a].reel.hold = none ∧ t.eng[a].reel.lastMark = none ∧
       t.eng[a].reel.stamp = Stamp.ofLinear ((s.eng[a].reel.stamp.rev * 720 + s.eng[a].reel.stamp.wedge + 1) * 65536 +
         s.eng[a].reel.markWin.toNat)) ∧
  -- REEL_STATUS: R521
  (∀ (s : State) (p : Packet), ready ⟨0x0120, [4], .read⟩ p s = true →
     Completes (exec (.reelStatus p) s) fun t => Replied s t 0x0120 p 0 0 (stReel s p.eng) ∧ t = s.afterReply t) ∧
  -- REEL_MARKER: R80
  (∀ (s : State) (p : Packet), ready ⟨0x0121, [4], .action⟩ p s = true → (fld (p.w 0) 31 16 ≤ 719) →
     ((p.w 1).toNat ≤ 65535) →
     Completes (exec (.reelMarker p) s) fun t =>
       t.eng[p.eng].reel.cmp[(63 : CmpIx)].armed = true ∧
       t.eng[p.eng].reel.cmp[(63 : CmpIx)].target.rev =
         (s.eng[p.eng].reel.stamp.rev + (clampWord [fIn 31 0 0 65535] 0 (p.w 1)).toNat) % 2 ^ 32 ∧
       (∀ b, p.eng ≠ b → t.eng[b] = s.eng[b]) ∧ t = ({ s with eng := t.eng } : State).afterReply t) ∧
  -- REEL_CONFIG: R515
  (∀ (s : State) (p : Packet), ready ⟨0x0122, [4], .config⟩ p s = true → Completes (exec (.reelConfig p) s) fun t =>
       t.eng[p.eng].reel.markWin = (clampWord [fIn 31 0 0x0100 0x2000] 0 (p.w 0)).setWidth 16 ∧
       t.eng[p.eng].reel.lateTol = (clampWord [fIn 31 0 0x0004 0x0400] 0 (p.w 1)).setWidth 16 ∧
       (Answered s t 0x0122 p
         [clampWord [fIn 31 0 0x0100 0x2000] 0 (p.w 0), clampWord [fIn 31 0 0x0004 0x0400] 0 (p.w 1)]) ∧
       (∀ b, p.eng ≠ b → t.eng[b] = s.eng[b]) ∧ t = ({ s with eng := t.eng } : State).afterReply t) ∧
  -- REEL_CLEAR: R78
  (∀ (s : State) (p : Packet), ready ⟨0x0123, [4], .action⟩ p s = true → Completes (exec (.reelClear p) s) fun t =>
       t.eng[p.eng].reel = { s.eng[p.eng].reel with
         lateCnt := clr (fld (p.w 0) 5 0) 0 s.eng[p.eng].reel.lateCnt, flyCnt := clr (fld (p.w 0) 5 0) 1 s.eng[p.eng].reel.flyCnt
         earlyCnt := clr (fld (p.w 0) 5 0) 2 s.eng[p.eng].reel.earlyCnt, mismCnt := clr (fld (p.w 0) 5 0) 3 s.eng[p.eng].reel.mismCnt
         slipCnt := clr (fld (p.w 0) 5 0) 4 s.eng[p.eng].reel.slipCnt, debtMax := clr (fld (p.w 0) 5 0) 5 s.eng[p.eng].reel.debtMax } ∧
       (∀ b, p.eng ≠ b → t.eng[b] = s.eng[b]) ∧ t = ({ s with eng := t.eng } : State).afterReply t)

/-- Register accesses, snapshots, lockstep mismatches and watchdogs: LOCKSTEP_MISMATCH, MGMT_WATCHDOG_EXPIRY,
REGISTER_WRITE, INVALID_REGISTER_ACCESS and SNAPSHOT_WRITE complete on the states their clauses name, each with the next
state its clause gives. The rules each clause rests on stand before it. -/
def Obligations.RegistersAndCores : Prop :=
  -- LOCKSTEP_MISMATCH: R26, R27
  (∀ (s : State) (a : Eng), s.enginePresent a = true → (s.eng[a].core.mismatches = []) →
     Completes (exec (.lockstepMismatch a) s) fun t => t.eng[a].core = { s.eng[a].core with mismatches := [s.rst.poh] }) ∧
  -- LOCKSTEP_MISMATCH (third): R26, R27
  (∀ (s : State) (a : Eng) (m1 m2 : Nat), s.enginePresent a = true → (s.eng[a].core.mismatches = [m1, m2]) →
   (s.rst.poh < m1 + 1024) → (s.rst.poh < m2 + 1024) →
     Completes (exec (.lockstepMismatch a) s) fun t => t.eng[a].core.failed = true) ∧
  -- MGMT_WATCHDOG_EXPIRY: R28
  (∀ (s : State) (c : Fin 4), Completes (exec (.mgmtWatchdogExpiry c) s) fun t => t = s.condMod 5 0 ∧ t = s.afterEvent t) ∧
  -- REGISTER_WRITE: R11, R13, R14, R2
  (∀ (s : State) (f : Fn) (addr : BitVec 24) (v : Word) (r : Reg), s.host.fns[f].present = true →
   (findReg s addr.toNat = some r) → (r.kind = .rw) →
     Completes (exec (.registerWrite (.host f) addr v) s) fun t =>
       t.host.fns[f].roWrCnt = satAdd 16 s.host.fns[f].roWrCnt 1 ∧ t = ({ s with host := t.host } : State).afterEvent t) ∧
  -- REGISTER_WRITE (core): R11, R13, R14, R2
  (∀ (s : State) (a : Eng) (v : Word), s.enginePresent a = true →
     Completes (exec (.registerWrite (.core a) (BitVec.ofNat 24 (engBase a.val + 0x104)) v) s) fun t =>
       t.eng[a].reel.cmp[(0 : CmpIx)].repeat_ = v.setWidth 16 ∧ t = { s with eng := t.eng }) ∧
  -- INVALID_REGISTER_ACCESS: R14, R25
  (∀ (s : State) (f : Fn) (acc : Bar2Access), s.host.fns[f].present = true → (acc.addr.toNat % 4 ≠ 0) →
     acc.write = false →
     Completes (exec (.invalidRegisterAccess f acc) s) fun t =>
       t.host.fns[f].unasgCnt = satAdd 16 s.host.fns[f].unasgCnt 1 ∧
       t.out.tlps = (f, 2, List.replicate acc.words 0) :: s.out.tlps) ∧
  -- INVALID_REGISTER_ACCESS (valid read): R12, R16, R679
  (∀ (s : State) (f : Fn) (acc : Bar2Access) (r : Reg), s.host.fns[f].present = true → (acc.addr.toNat % 4 = 0) →
     (acc.words = 1) → acc.full = true → acc.write = false → (findReg s acc.addr.toNat = some r) →
     Completes (exec (.invalidRegisterAccess f acc) s) fun t =>
       t = { s with out := t.out } ∧ t.out.tlps = (f, 2, [s.regRead r]) :: s.out.tlps) ∧
  -- SNAPSHOT_WRITE: R14, R16, R183
  (∀ (s : State) (addr : BitVec 24) (r : Reg), (findReg s addr.toNat = some r) → (r.kind = .wo) →
     Completes (exec (.snapshotWrite addr) s) fun t =>
       t = { s with snaps := (snapSet s addr.toNat).foldl (fun l x => oset l x.addr x.val) s.snaps })

/-- The arm link: frames, acknowledgements, training and strobes: ARM_ACK_RECEIVE, ARM_NAK_RECEIVE, ARM_ACK_TIMEOUT,
ARM_STATUS_FRAME, AFE_FAULT_STROBE, AUX_SLOT_REQUEST, CONFIG_FRAME_SEND, ARM_CONFIG_REPLY, ARM_LINK_DOWN,
ARM_TRAIN_ATTEMPT, ARM_TRAIN_TIMEOUT and AFE_COMMA_ALIGNMENT complete on the states their clauses name, each with the
next state its clause gives. The rules each clause rests on stand before it. -/
def Obligations.ArmLinkFrames : Prop :=
  -- ARM_ACK_RECEIVE: R86, R87, R89, R92, R254
  (∀ (s : State) (a : Eng) (l : LinkIx) (seq : BitVec 8), (s.eng[a].links[l].state = .up) →
   s.eng[a].links[l].frame = none → s.eng[a].links[l].cfg = none → s.eng[a].links[l].last = none →
   (seq = s.eng[a].links[l].seq) →
     Completes (exec (.armAckReceive a l seq) s) fun t =>
       t.eng[a].links[l] = { s.eng[a].links[l] with lastAck := seq } ∧ t = { s with eng := t.eng }) ∧
  -- ARM_ACK_RECEIVE (late): R86, R89
  (∀ (s : State) (a : Eng) (l : LinkIx) (f : Frame) (w : Nat) (h : Vector HeadBlock 6) (x : Vector (Option AuxSlot) 2),
   (s.eng[a].links[l].state = .up) → s.eng[a].links[l].frame = none → s.eng[a].links[l].cfg = none →
   (s.eng[a].links[l].last = some f) → (f.body = .setPoint w h x) →
     Completes (exec (.armAckReceive a l f.seq) s) fun t =>
       t.eng[a].links[l].lastAck = f.seq ∧ t.eng[a].links[l].stale = false) ∧
  -- ARM_ACK_RECEIVE (setPoint): R86, R87, R89, R92, R254
  (∀ (s : State) (a : Eng) (l : LinkIx) (seq : BitVec 8) (f : Frame), (s.eng[a].links[l].state = .up) →
   (s.eng[a].links[l].frame = some f) → f.seq = seq →
     Completes (exec (.armAckReceive a l seq) s) fun t => t.eng[a].links[l].lastAck = seq) ∧
  -- ARM_NAK_RECEIVE: R86, R87
  (∀ (s : State) (a : Eng) (l : LinkIx) (seq : BitVec 8) (f : Frame), (s.eng[a].links[l].state = .up) →
   (s.eng[a].links[l].frame = some f) → f.seq = seq → (f.attempts < 4) →
     Completes (exec (.armNakReceive a l false seq) s) fun t =>
       t.eng[a].links[l].nakCnt = inc 32 s.eng[a].links[l].nakCnt ∧
       t.eng[a].links[l].frame = some { f with attempts := f.attempts + 1 } ∧ t.out.frames = (a, l, f.seq, f.body) :: s.out.frames) ∧
  -- ARM_ACK_TIMEOUT: R87
  (∀ (s : State) (a : Eng) (l : LinkIx) (f : Frame), (s.eng[a].links[l].frame = some f) → (f.attempts < 4) →
     Completes (exec (.armAckTimeout a l) s) fun t =>
       t.eng[a].links[l].ackTmoCnt = inc 32 s.eng[a].links[l].ackTmoCnt ∧
       t.eng[a].links[l].frame = some { f with attempts := f.attempts + 1 } ∧ t.out.frames = (a, l, f.seq, f.body) :: s.out.frames) ∧
  -- ARM_STATUS_FRAME: R94, R95, R96, R246
  (∀ (s : State) (a : Eng) (l : LinkIx) (fr : StatusFrame), (s.eng[a].links[l].state = .up) → statusOk fr = true →
     Completes (exec (.armStatusFrame a l fr) s) fun t =>
       t.eng[a].links[l].statSeq = fr.seq ∧ t.eng[a].links[l].afeTemp = fr.temp ∧
       t.eng[a].links[l].afeSafe = fr.flags.getLsbD 0 ∧ t.eng[a].links[l].sampleLost = false ∧
       t.eng[a].links[l].flt = fr.recs.map recFlt ∧
       (fr.symErrs ≠ 0 → t.eng[a].links[l].symErrCnt = satAdd 32 s.eng[a].links[l].symErrCnt fr.symErrs)) ∧
  -- AFE_FAULT_STROBE: R96, R242, R248
  (∀ (s : State) (a : Eng) (l : LinkIx) (mask : BitVec 6),
   (s.eng[a].links[l].state = .up ∨ s.eng[a].links[l].state = .training) →
     Completes (exec (.afeFaultStrobe a l mask) s) fun t =>
       t.eng[a].links[l].faultCnt = inc 32 s.eng[a].links[l].faultCnt ∧
       t.eng[a].links[l].faultCond = s.eng[a].links[l].faultCond ||| mask) ∧
  -- AUX_SLOT_REQUEST: R92
  (∀ (s : State) (a : Eng) (l : LinkIx) (r : AuxReq), Completes (exec (.auxSlotRequest a l r) s) fun t =>
       t.eng[a].links[l] = ({ s.eng[a].links[l] with auxQueue := s.eng[a].links[l].auxQueue ++ [r] } : ArmLink).grantAux 2 ∧
       (∀ b, a ≠ b → t.eng[b] = s.eng[b]) ∧ t = { s with eng := t.eng }) ∧
  -- CONFIG_FRAME_SEND: R93
  (∀ (s : State) (a : Eng) (l : LinkIx) (c : CfgFrame), (s.eng[a].links[l].state = .up) →
   s.eng[a].links[l].frame = none → s.eng[a].links[l].cfg = none → s.eng[a].links[l].launchDue = false →
   (s.eng[a].links[l].tx = []) → (s.eng[a].links[l].cfgQueue = []) →
     Completes (exec (.configFrameSend a l c) s) fun t =>
       t.eng[a].links[l].cfg = some { seq := s.eng[a].links[l].seq + 1, attempts := 1, body := .config c } ∧
       t.eng[a].links[l].tx = (FrameBody.config c).symbols (s.eng[a].links[l].seq + 1) ∧
       t.eng[a].links[l].seq = s.eng[a].links[l].seq + 1 ∧ t.eng[a].links[l].cfgQueue = []) ∧
  -- ARM_CONFIG_REPLY: R93
  (∀ (s : State) (a : Eng) (l : LinkIx) (r : ConfigReply) (crc : BitVec 16),
     (s.eng[a].links[l].state = .up ∨ s.eng[a].links[l].state = .training) → replyOk r crc = true →
     Completes (exec (.armConfigReply a l r crc) s) fun t =>
       t.eng[a].links[l] = { s.eng[a].links[l] with cfgReply := some ⟨false, r.head, r.addr, r.value⟩ } ∧ t = { s with eng := t.eng }) ∧
  -- ARM_LINK_DOWN: R97, R242, R254
  (∀ (s : State) (a : Eng) (l : LinkIx), (s.eng[a].links[l].state = .up) →
     Completes (exec (.armLinkDown a l .commaLoss) s) fun t =>
       t.eng[a].links[l].state = .down ∧ t.eng[a].links[l].frame = none ∧ t.eng[a].links[l].cfg = none ∧
       t.eng[a].links[l].trainAtt = 0) ∧
  -- ARM_LINK_DOWN (training): R98
  (∀ (s : State) (a : Eng) (l : LinkIx), (s.eng[a].links[l].state = .training) → (s.eng[a].links[l].trainAtt + 1 < 8) →
     Completes (exec (.armLinkDown a l .commaLoss) s) fun t =>
       t.eng[a].links[l].state = .down ∧ t.eng[a].links[l].trainAtt = s.eng[a].links[l].trainAtt + 1) ∧
  -- ARM_TRAIN_ATTEMPT: R97, R98
  (∀ (s : State) (a : Eng) (l : LinkIx), s.linkPresent a l = true → (s.eng[a].links[l].state = .down) →
     Completes (exec (.armTrainAttempt a l) s) fun t =>
       t.eng[a].links[l].state = .training ∧ t.eng[a].links[l].phase = .commas ∧ t.eng[a].links[l].frame = none ∧
       t.eng[a].links[l].trainCnt = inc 32 s.eng[a].links[l].trainCnt ∧ t = ({ s with eng := t.eng } : State).afterEvent t) ∧
  -- ARM_TRAIN_TIMEOUT: R98, R428
  (∀ (s : State) (a : Eng) (l : LinkIx), (s.eng[a].links[l].state = .training) → (s.eng[a].links[l].trainAtt + 1 < 8) →
     Completes (exec (.armTrainTimeout a l) s) fun t =>
       t.eng[a].links[l].trainAtt = s.eng[a].links[l].trainAtt + 1 ∧ t.eng[a].links[l].state = .training ∧
       t.eng[a].links[l].phase = .commas ∧ t.eng[a].links[l].frame = none ∧ t = { s with eng := t.eng }) ∧
  -- AFE_COMMA_ALIGNMENT: R97
  (∀ (s : State) (a : Eng) (l : LinkIx), (s.eng[a].links[l].state = .training) → (s.eng[a].links[l].phase = .commas) →
     Completes (exec (.afeCommaAlignment a l) s) fun t =>
       t.eng[a].links[l].aligned = true ∧ t.eng[a].links[l].phase = .readId)

/-- The packets of the arm link and of the sample slices: ARM_STATUS, ARM_CLEAR, ARM_CONFIG, ARM_RETRAIN, SLICE_CONFIG,
SLICE_STATUS, SLICE_CLEAR and SLICE_RESTART complete on the states their clauses name, each with the next state its
clause gives. The rules each clause rests on stand before it. -/
def Obligations.ArmAndSlicePackets : Prop :=
  -- ARM_STATUS: R521
  (∀ (s : State) (p : Packet), ready ⟨0x0130, [4], .read⟩ p s = true → Completes (exec (.armStatus p) s) fun t =>
       (Answered s t 0x0130 p (stArm s p.eng p.link)) ∧ t = s.afterReply t) ∧
  -- ARM_CLEAR: R99
  (∀ (s : State) (p : Packet), ready ⟨0x0131, [4], .action⟩ p s = true → Completes (exec (.armClear p) s) fun t =>
       t.eng[p.eng].links[p.link] = { s.eng[p.eng].links[p.link] with
         nakCnt := clr (fld (p.w 1) 7 0) 0 s.eng[p.eng].links[p.link].nakCnt
         crcUpCnt := clr (fld (p.w 1) 7 0) 1 s.eng[p.eng].links[p.link].crcUpCnt
         ackTmoCnt := clr (fld (p.w 1) 7 0) 2 s.eng[p.eng].links[p.link].ackTmoCnt
         seqErrCnt := clr (fld (p.w 1) 7 0) 3 s.eng[p.eng].links[p.link].seqErrCnt
         symErrCnt := clr (fld (p.w 1) 7 0) 4 s.eng[p.eng].links[p.link].symErrCnt
         staleCnt := clr (fld (p.w 1) 7 0) 5 s.eng[p.eng].links[p.link].staleCnt
         faultCnt := clr (fld (p.w 1) 7 0) 6 s.eng[p.eng].links[p.link].faultCnt
         trainCnt := clr (fld (p.w 1) 7 0) 7 s.eng[p.eng].links[p.link].trainCnt } ∧
       (Answered s t 0x0131 p
         (selected (fld (p.w 1) 7 0) ((alkCounters s.eng[p.eng].links[p.link]).map fun v => [nw v]))) ∧
       (∀ b, p.eng ≠ b → t.eng[b] = s.eng[b]) ∧ t = ({ s with eng := t.eng } : State).afterReply t) ∧
  -- ARM_CONFIG: R97
  (∀ (s : State) (p : Packet), ready ⟨0x0132, [4], .config⟩ p s = true → (s.eng[p.eng].links[p.link].state = .down) →
     Completes (exec (.armConfig p) s) fun t =>
       t.eng[p.eng].links[p.link] = { s.eng[p.eng].links[p.link] with
         afeWdt := (clampWord [fIn 31 0 24 100] 0 (p.w 1)).setWidth 8
         ackTmo := (clampWord [fIn 31 0 8 64] 0 (p.w 2)).setWidth 8
         safeHtr := (clampWord [fIn 31 0 0 4095] 0 (p.w 3)).setWidth 12 } ∧
       t.nor.engs[p.eng].afeWdt[p.link] = (clampWord [fIn 31 0 24 100] 0 (p.w 1)).setWidth 8 ∧
       (∀ b, p.eng ≠ b → t.eng[b] = s.eng[b]) ∧ t = ({ s with eng := t.eng, nor := t.nor } : State).afterReply t) ∧
  -- ARM_RETRAIN: R98
  (∀ (s : State) (p : Packet), ready ⟨0x0133, [4], .action⟩ p s = true → (s.eng[p.eng].links[p.link].state = .failed) →
     Completes (exec (.armRetrain p) s) fun t =>
       t.eng[p.eng].links[p.link].state = .training ∧ t.eng[p.eng].links[p.link].trainAtt = 0 ∧
       t.eng[p.eng].links[p.link].phase = .commas ∧ (0x0133, p) ∈ t.het.waiting ∧ (∀ b, p.eng ≠ b → t.eng[b] = s.eng[b]) ∧
       t = { s with eng := t.eng, het := t.het }) ∧
  -- ARM_RETRAIN (up): R98
  (∀ (s : State) (p : Packet), ready ⟨0x0133, [4], .action⟩ p s = true → (s.eng[p.eng].links[p.link].state = .up) →
     Completes (exec (.armRetrain p) s) fun t =>
       (Answered s t 0x0133 p [nw s.eng[p.eng].links[p.link].state.num]) ∧ t = s.afterReply t) ∧
  -- SLICE_CONFIG: R143
  (∀ (s : State) (p : Packet), ready ⟨0x0140, [3], .config⟩ p s = true → Completes (exec (.sliceConfig p) s) fun t =>
       (let e := s.bandEntry p.hd p.band
        let new := clampWords p 1 (sliceFields p.reader) (if p.reader = 0 then e.sliceA else e.sliceB).words
        (Answered s t 0x0140 p (new.take 6)) ∧
        t.bandEntry p.hd p.band =
          (if p.reader = 0 then { e with sliceA := sliceOfWords new } else { e with sliceB := sliceOfWords new })) ∧
       t = ({ s with head := t.head, nor := t.nor } : State).afterReply t) ∧
  -- SLICE_STATUS: R521
  (∀ (s : State) (p : Packet), ready ⟨0x0141, [3], .read⟩ p s = true → Completes (exec (.sliceStatus p) s) fun t =>
       (Answered s t 0x0141 p (stSlice s p.slice)) ∧ t = s.afterReply t) ∧
  -- SLICE_CLEAR: R142
  (∀ (s : State) (p : Packet), ready ⟨0x0142, [3], .action⟩ p s = true → Completes (exec (.sliceClear p) s) fun t =>
       t.slice[p.slice].underrunCnt = clr (fld (p.w 1) 8 0) 0 s.slice[p.slice].underrunCnt ∧
       t.slice[p.slice].clipCnt = clr (fld (p.w 1) 8 0) 1 s.slice[p.slice].clipCnt ∧
       t.slice[p.slice].satCnt = clr (fld (p.w 1) 8 0) 2 s.slice[p.slice].satCnt ∧
       t.slice[p.slice].dropCnt = clr (fld (p.w 1) 8 0) 3 s.slice[p.slice].dropCnt ∧
       t.slice[p.slice].tmoCnt = clr (fld (p.w 1) 8 0) 4 s.slice[p.slice].tmoCnt ∧
       t.slice[p.slice].overrunCnt = clr (fld (p.w 1) 8 0) 5 s.slice[p.slice].overrunCnt ∧
       t.slice[p.slice].underrun = (s.slice[p.slice].underrun && !(fld (p.w 1) 8 0).testBit 8) ∧
       t.slice[p.slice].state = s.slice[p.slice].state ∧ (∀ m, p.slice ≠ m → t.slice[m] = s.slice[m]) ∧
       t = ({ s with slice := t.slice } : State).afterReply t) ∧
  -- SLICE_RESTART: R144
  (∀ (s : State) (p : Packet), ready ⟨0x0143, [3], .action⟩ p s = true → s.head[p.hd].map.depop = false →
     (s.slice[p.slice].state = .failed) →
     Completes (exec (.sliceRestart p) s) fun t =>
       t.slice[p.slice] = { s.slice[p.slice] with state := .wake, faultRun := 0 } ∧ (0x0143, p) ∈ t.het.waiting ∧
       (∀ m, p.slice ≠ m → t.slice[m] = s.slice[m]) ∧ t = { s with slice := t.slice, het := t.het })

/-- The sample slices: enabling, streaming, underrun, overrun, drops and acquisition: SLICE_ENABLE, SLICE_STREAM_START,
SLICE_UNDERRUN, SLICE_LATE_WORD_DISCARD, SLICE_FIFO_TIMEOUT, SLICE_OVERRUN, DROP_COMMAND, ZERO_PHASE_START,
SLICE_ACQ_TO_TRACK and BAND_LOAD complete on the states their clauses name, each with the next state its clause gives.
The rules each clause rests on stand before it. -/
def Obligations.SliceEvents : Prop :=
  -- SLICE_ENABLE: R105
  (∀ (s : State) (n : SliceIx), (s.slice[n].state = .off) → s.headPresent (sliceHead n) = true →
     s.head[sliceHead n].map.depop = false →
     Completes (exec (.sliceEnable n) s) fun t =>
       t.slice[n] = { s.slice[n] with state := .wake, srvDc := false } ∧ (∀ m, n ≠ m → t.slice[m] = s.slice[m]) ∧
       t = { s with slice := t.slice, pwr := t.pwr }) ∧
  -- SLICE_STREAM_START: R105, R107, R123
  (∀ (s : State) (n : SliceIx) (level epoch : Nat), (s.slice[n].state = .wake ∨ s.slice[n].state = .fault) →
   s.slice[n].wake = none → (fld s.head[sliceHead n].rd[sliceReader n].fifo 4 0 ≤ level) → (level ≤ 32) →
     Completes (exec (.sliceStreamStart n level epoch) s) fun t =>
       t.slice[n] = s.slice[n].startStream n (s.skewOf n) s.mtime epoch level ∧ t.slice[n].state = .idle ∧
       t.slice[n].popAcc = 0 ∧ t.slice[n].missing = [] ∧
       t.slice[n].lat = sampleAge (s.skewOf n) s.mtime (samplesBy (s.skewOf n) s.mtime / 4 * 4 - 4 * level) ∧
       ∀ m, n ≠ m → t.slice[m] = s.slice[m]) ∧
  -- SLICE_UNDERRUN: R108, R160
  (∀ (s : State) (n : SliceIx), s.slice[n].state.streaming = true → Completes (exec (.sliceUnderrun n) s) fun t =>
       t.slice[n].underrun = true ∧ t.slice[n].underrunCnt = inc 32 s.slice[n].underrunCnt ∧
       t.slice[n].missing = s.slice[n].missing ++ [s.slice[n].rdSeq] ∧ t.slice[n].rdSeq = s.slice[n].rdSeq + 1 ∧
       t.slice[n].lineEnd = s.slice[n].lineEnd + 4 ∧ t.slice[n].lastCode = s.slice[n].lastCode ∧
       ((t.slice[n].line.take 4).map (·.flag) = [true, true, true, true]) ∧ (∀ m, n ≠ m → t.slice[m] = s.slice[m]) ∧
       t = ({ s with slice := t.slice } : State).afterEvent t) ∧
  -- SLICE_LATE_WORD_DISCARD: R109
  (∀ (s : State) (n : SliceIx) (wseq : BitVec 2), s.slice[n].missing.contains wseq = true →
   (s.slice[n].fifo.head?.map (·.wseq) = some wseq) →
     Completes (exec (.sliceLateWordDiscard n wseq) s) fun t =>
       t.slice[n] = { s.slice[n] with
         fifo := s.slice[n].fifo.drop 1, rdPtr := grayNext s.slice[n].rdPtr, missing := s.slice[n].missing.erase wseq } ∧
       (∀ m, n ≠ m → t.slice[m] = s.slice[m]) ∧ t = { s with slice := t.slice }) ∧
  -- SLICE_LATE_WORD_DISCARD (other): R109
  (∀ (s : State) (n : SliceIx) (wseq : BitVec 2), s.slice[n].missing.contains wseq = false →
     Completes (exec (.sliceLateWordDiscard n wseq) s) fun t => t = s) ∧
  -- SLICE_FIFO_TIMEOUT: R110, R112
  (∀ (s : State) (n : SliceIx), (s.slice[n].state = .idle ∨ s.slice[n].state = .wake) → s.slice[n].packet = false →
     (s.slice[n].faultRun < 2) →
     Completes (exec (.sliceFifoTimeout n) s) fun t =>
       t.slice[n].state = .fault ∧ t.slice[n].tmo = true ∧ t.slice[n].fifo = [] ∧
       t.slice[n].tmoCnt = inc 16 s.slice[n].tmoCnt ∧ t.slice[n].faultRun = s.slice[n].faultRun + 1) ∧
  -- SLICE_OVERRUN: R111
  (∀ (s : State) (n : SliceIx), s.slice[n].state.streaming = true → Completes (exec (.sliceOverrun n) s) fun t =>
       t.slice[n].overrun = true ∧ t.slice[n].overrunCnt = inc 16 s.slice[n].overrunCnt ∧ t.slice[n].fifo = s.slice[n].fifo ∧
       t.slice[n].wrSeq = s.slice[n].wrSeq + 1 ∧ t.slice[n].wrPtr = s.slice[n].wrPtr ∧ (∀ m, n ≠ m → t.slice[m] = s.slice[m]) ∧ t = ({ s with slice := t.slice } : State).afterEvent t) ∧
  -- DROP_COMMAND: R120
  (∀ (s : State) (n : SliceIx), (s.slice[n].state = .acq) → s.slice[n].packet = true →
     Completes (exec (.dropCommand n) s) fun t => t.slice[n].packet = false ∧ t.slice[n].dropCnt = inc 32 s.slice[n].dropCnt) ∧
  -- ZERO_PHASE_START: R135
  (∀ (s : State) (g : Head) (r : Fin 2) (n : SliceIx), n = sliceOf g r → (s.slice[n].state = .acq) → s.slice[n].packet = true →
   (s.slice[n].bits = 16) → s.slice[n].zeroDone = false →
     Completes (exec (.zeroPhaseStart g r) s) fun t =>
       t.slice[n] = { s.slice[n] with
         zeroDone := true
         pos := s.slice[n].pos + signedOf 32 (((Config.phase (zeroPhaseSums s.slice[n].hist).1 (zeroPhaseSums s.slice[n].hist).2 : Int) -
           2 ^ 29) % 2 ^ 32).toNat * 4 * (s.slice[n].seed : Int) / 2 ^ 28 } ∧
       (∀ m, n ≠ m → t.slice[m] = s.slice[m]) ∧ t = { s with slice := t.slice }) ∧
  -- SLICE_ACQ_TO_TRACK: R133
  (∀ (s : State) (g : Head) (r : Fin 2) (n : SliceIx), n = sliceOf g r → (s.slice[n].state = .acq) → s.slice[n].packet = true →
     (s.slice[n].bits = 8 * fld s.head[g].rd[r].tl 7 4) →
     Completes (exec (.sliceAcqToTrack g r) s) fun t =>
       t.slice[n] = s.slice[n].toTrack ∧ t.slice[n].state = .track ∧ (∀ m, n ≠ m → t.slice[m] = s.slice[m]) ∧
       t = { s with slice := t.slice }) ∧
  -- BAND_LOAD: R140
  (∀ (s : State) (g : Head) (track : BitVec 22), s.headPresent g = true → s.head[g].map.depop = false →
   s.packetOpen g = true → ((s.bandOf g track.toNat).val ≠ s.head[g].map.band) →
     Completes (exec (.bandLoad g track) s) fun t =>
       t.head[g].map.bandDue = some track.toNat ∧ t.head[g].map.band = s.head[g].map.band ∧ (∀ k, g ≠ k → t.head[k] = s.head[k]) ∧
       t = { s with head := t.head }) ∧
  -- BAND_LOAD (load): R140
  (∀ (s : State) (g : Head) (track : BitVec 22), s.headPresent g = true → s.head[g].map.depop = false →
   s.packetOpen g = false → ((s.bandOf g track.toNat).val ≠ s.head[g].map.band) →
     Completes (exec (.bandLoad g track) s) fun t => t = s.loadBand g track.toNat)

/-- The detector lanes: sync, passes, decoding, staging and the DET packets: SYNC_DECISION, FIRST_PASS_DONE,
ITERATION_DETECTOR_PASS_DONE, LOCAL_ITERATION_END, CODEWORD_CHECK_DONE, STAGING_ACCEPT, DET_CONFIG, DET_TAPS, DET_NP,
DET_STATUS and DET_CLEAR complete on the states their clauses name, each with the next state its clause gives. The rules
each clause rests on stand before it. -/
def Obligations.LaneCommands : Prop :=
  -- SYNC_DECISION: R178, R179, R180
  (∀ (s : State) (g : Head) (l : LaneIx) (k : SlotIx), (s.laneOf g = some l) → (s.lane[l].streaming = some k) →
   s.lane[l].slots[k].syncDue = true → ((bestCandidate (syncDistance s.lane[l].slots[k])).2 ≤ 6) →
     Completes (exec (.syncDecision g l k) s) fun t =>
       t.lane[l].slots[k] = { s.lane[l].slots[k] with
         synced := true, syncQ := (bestCandidate (syncDistance s.lane[l].slots[k])).1
         syncDist := (bestCandidate (syncDistance s.lane[l].slots[k])).2, fly := false } ∧
       (∀ j, k ≠ j → t.lane[l].slots[j] = s.lane[l].slots[j]) ∧ t = { s with lane := t.lane }) ∧
  -- SYNC_DECISION (fly): R178, R179, R180
  (∀ (s : State) (g : Head) (l : LaneIx) (k : SlotIx), (s.laneOf g = some l) → (s.lane[l].streaming = some k) →
   s.lane[l].slots[k].syncDue = true → (6 < (bestCandidate (syncDistance s.lane[l].slots[k])).2) →
     Completes (exec (.syncDecision g l k) s) fun t =>
       t.lane[l].slots[k].synced = true ∧ t.lane[l].slots[k].fly = true ∧ t.lane[l].slots[k].syncQ = 0 ∧
       t.lane[l].flysyncCnt = inc 32 s.lane[l].flysyncCnt ∧ t = ({ s with lane := t.lane } : State).afterEvent t) ∧
  -- FIRST_PASS_DONE: R163, R166, R186
  (∀ (s : State) (l : LaneIx) (k : SlotIx), (s.lane[l].slots[k].state = .stream) → s.lane[l].slots[k].ended = true →
     Completes (exec (.firstPassDone l k) s) fun t =>
       t = (s.modSlot l k fun c => { c with
           state := .wait, since := s.mtime, ended := false, passed := true
           chan := firstPass c.det c.us.reverse (c.placed 0) }).request (laneReq l)
         { at_ := s.mtime, cls := s.lane[l].slots[k].cls, deep := false, for_ := .slot k }) ∧
  -- ITERATION_DETECTOR_PASS_DONE: R164
  (∀ (s : State) (l : LaneIx) (k : SlotIx), (s.lane[l].passDue = some k) →
     Completes (exec (.iterationDetectorPassDone l k) s) fun t =>
       t.lane[l].slots[k] = s.lane[l].slots[k].nextExchange s.mtime ∧ t.lane[l].slots[k].passed = true ∧
       t.lane[l].slots[k].layerFrom = s.mtime ∧ t.lane[l].slots[k].layer = 0 ∧
       (∀ j, k ≠ j → t.lane[l].slots[j] = s.lane[l].slots[j]) ∧ t = { s with lane := t.lane }) ∧
  -- LOCAL_ITERATION_END: R171, R174, R199
  (∀ (s : State) (e : DecIx) (l : LaneIx) (k : SlotIx), (s.decoding e = some (.inl (l, k))) →
   (s.lane[l].slots[k].state = .decode) → s.lane[l].slots[k].passed = true → s.lane[l].slots[k].checking = false →
   s.lane[l].slots[k].reclaim = none → ((s.lane[l].slots[k].layersTo 41).unsat = 0) →
     Completes (exec (.localIterationEnd e (.slot k)) s) fun t =>
       t.lane[l].slots[k].checking = true ∧ t.lane[l].slots[k].uEnd = 0 ∧
       t.lane[l].slots[k].loc = s.lane[l].slots[k].loc + 1 ∧ t = { s with lane := t.lane, pool := t.pool }) ∧
  -- CODEWORD_CHECK_DONE: R152, R153, R166, R168, R171
  (∀ (s : State) (e : DecIx) (l : LaneIx) (k : SlotIx), (s.decoding e = some (.inl (l, k))) →
   (s.lane[l].slots[k].state = .decode) → s.lane[l].slots[k].checking = true → s.lane[l].slots[k].reclaim = none →
     Completes (exec (.codewordCheckDone e (.slot k)) s) fun t =>
       (let plain := scramble s.lane[l].slots[k].tag (s.lane[l].slots[k].decoded.setWidth 32928)
        t = (s.modSlot l k fun c => { c with info := plain }).endCodeword l k
          (checkOutcome plain s.lane[l].slots[k].tag s.lane[l].slots[k].zgen))) ∧
  -- STAGING_ACCEPT: R30, R202
  (∀ (s : State) (l : LaneIx) (k : SlotIx) (x : CtxIx), (s.lane[l].slots[k].state = .done) →
   (s.lane[l].slots[k].outcome = some .converged) → (s.q.staging < stagingUnits) → s.lane[l].slots[k].job = none →
   s.lane[l].slots[k].void = false → s.lane[l].slots[k].discard = false → (s.lane[l].slots[k].ctx = some x) →
     Completes (exec (.stagingAccept l k) s) fun t =>
       t = (s.freeSlot l k {}).deliver x s.lane[l].slots[k].block s.lane[l].slots[k].info) ∧
  -- DET_CONFIG: R184
  (∀ (s : State) (p : Packet), ready ⟨0x0150, [3], .config⟩ p s = true → s.head[p.hd].map.depop = false →
     Completes (exec (.detConfig p) s) fun t =>
       (let d := (s.bandEntry p.hd p.band).det
        let new := clampWords p 1 detFields [d.iter, d.tgt, d.adapt]
        (Answered s t 0x0150 p new) ∧
        (t.bandEntry p.hd p.band).det = { d with iter := new.getD 0 0, tgt := new.getD 1 0, adapt := new.getD 2 0 }) ∧
       t = ({ s with head := t.head, nor := t.nor } : State).afterReply t) ∧
  -- DET_TAPS: R184
  (∀ (s : State) (p : Packet), ready ⟨0x0151, [3], .config⟩ p s = true → s.head[p.hd].map.depop = false →
     Completes (exec (.detTaps p) s) fun t =>
       (let set := fld (clampWord [fAny 13 8, fIn 1 0 0 2] 0 (p.w 0)) 1 0
        Answered s t 0x0151 p (((List.range 9).map fun n => tapWord set n (p.w (n + 1))).take 6)) ∧
       t = ({ s with head := t.head, nor := t.nor } : State).afterReply t) ∧
  -- DET_NP: R184
  (∀ (s : State) (p : Packet), ready ⟨0x0152, [3], .config⟩ p s = true → s.head[p.hd].map.depop = false →
     Completes (exec (.detNp p) s) fun t =>
       (Answered s t 0x0152 p [p.w 1, p.w 2, p.w 3, p.w 4, p.w 5, p.w 6]) ∧
       (let e0 := fld (clampWord [fAny 13 8, fIn 4 0 0 26] 0 (p.w 0)) 4 0
        ∀ i : Fin 32, (t.bandEntry p.hd p.band).det.npPred[i] =
          if e0 ≤ i.val ∧ i.val < e0 + 6 then p.w (2 * (i.val - e0) + 1) else (s.bandEntry p.hd p.band).det.npPred[i]) ∧
       t = ({ s with head := t.head, nor := t.nor } : State).afterReply t) ∧
  -- DET_STATUS: R521
  (∀ (s : State) (p : Packet), ready ⟨0x0153, [3], .read⟩ p s = true →
     Completes (exec (.detStatus p) s) fun t => Replied s t 0x0153 p 0 0 (stDet s p.hd) ∧ t = s.afterReply t) ∧
  -- DET_CLEAR: R17
  (∀ (s : State) (p : Packet) (l : LaneIx), ready ⟨0x0154, [3], .action⟩ p s = true → (s.laneOf p.hd = some l) →
     Completes (exec (.detClear p) s) fun t =>
       t.lane[l] = s.lane[l].clear (fld (p.w 0) 11 0) ∧ (∀ j, l ≠ j → t.lane[j] = s.lane[j]) ∧
       t = ({ s with lane := t.lane } : State).afterReply t)

/-- The decoder pool, the recovery ladder and reallocation: DECODER_REQUEST, DECODER_ARBITRATION, DECODER_ENGINE_FAIL,
RECOVERY_JOB_OPEN, RETAINED_STREAM_COPY_DONE, LADDER_TRY, CAPTURE_COMPLETE, DEEP_DECODE_DONE, GUARD_TIMER_EXPIRY,
REALLOCATE and REMAP_ACTIVATE complete on the states their clauses name, each with the next state its clause gives. The
rules each clause rests on stand before it. -/
def Obligations.PoolAndLadder : Prop :=
  -- DECODER_REQUEST: R186, R190
  (∀ (s : State) (r : ReqIx) (l : LaneIx) (k : SlotIx) (c : Fin 5) (u : Fin 4) (e : DecIx), (reqLane r = some l) →
   (s.lane[l].slots[k].state = .wait) → s.lane[l].bind.head.isSome = true → (s.pool.reqs[r].pending = []) →
     (s.idleEngine r false = some e) →
     Completes (exec (.decoderRequest r { deep := false, for_ := .slot k, cls := c, raised := u }) s) fun t =>
       t.pool.engines[e].state = .held ∧ t.pool.engines[e].owner = r.val ∧ t.pool.reqs[r].pending = [] ∧
       t.lane[l].slots[k].state = .decode ∧ t.lane[l].slots[k].engine = some e ∧ t.lane[l].slots[k].glob = 1) ∧
  -- DECODER_ARBITRATION: R188, R189, R193, R194
  (∀ (s : State) (e : DecIx) (r : ReqIx) (q : PoolReq), (s.pool.engines[e].state = .held) → s.pool.engines[e].next = none →
     (s.bestRequest (deepEngine e) = some (r, q)) →
     Completes (exec (.decoderArbitration e) s) fun t =>
       t.pool.engines[e] = { s.pool.engines[e] with state := .finalBeat, next := some (r, q), ownPrio := s.effLevel r q }) ∧
  -- DECODER_ARBITRATION (none): R188, R189, R193, R194
  (∀ (s : State) (e : DecIx), (s.pool.engines[e].state = .held) → s.bestRequest (deepEngine e) = none →
     Completes (exec (.decoderArbitration e) s) fun t => t.pool.engines[e] = { s.pool.engines[e] with state := .finalBeat }) ∧
  -- DECODER_ARBITRATION (reserved): R188
  (∀ (s : State) (e : DecIx), (s.pool.engines[e].state = .held) → s.pool.engines[e].next.isSome = true →
     Completes (exec (.decoderArbitration e) s) fun t =>
       t.pool.engines[e] = { s.pool.engines[e] with state := .finalBeat } ∧ t = { s with pool := t.pool }) ∧
  -- DECODER_ENGINE_FAIL: R197
  (∀ (s : State) (e : DecIx), (s.pool.engines[e].state ≠ .failed) → Completes (exec (.decoderEngineFail e) s) fun t =>
       t.pool.engines[e].state = .failed ∧ t.pool.engines[e].job = none ∧ t.pool.engines[e].next = none) ∧
  -- RECOVERY_JOB_OPEN: R199, R200, R202
  (∀ (s : State) (l : LaneIx) (k : SlotIx) (c : Slot) (j : JobIx), (s.failedRecord l k = some (c, false)) →
   c.void = false → c.job = none → c.ctx = none → s.jobAt (s.laneEngine l) c.at_ = none →
     ((fins 16).find? (fun (i : JobIx) => s.eng[s.laneEngine l].recv.jobs[i].isNone) = some j) →
   (s.eng[s.laneEngine l].recv.open_ < fld s.eng[s.laneEngine l].recv.cfg 9 5) → (s.q.staging + 40 ≤ stagingUnits) →
     Completes (exec (.recoveryJobOpen l k) s) fun t =>
       (∃ x, t.eng[s.laneEngine l].recv.jobs[j] = some x ∧ x.at_ = c.at_ ∧ x.outcome = c.outcome.getD .noConv ∧ x.fly = c.fly ∧
         x.syncQ = c.syncQ ∧ x.syncDist = c.syncDist ∧ x.u1 = c.u1 ∧ x.uEnd = c.uEnd ∧
         x.stream = (c.outcome.getD .noConv).usable ∧ (x.step, x.offs) = x.entry (c.outcome.getD .noConv) ∧ x.staging = 40 ∧
         x.revOpen = s.eng[s.laneEngine l].reel.stamp.rev) ∧
       t.q.staging = s.q.staging + 40 ∧ t.lane[l].cut = s.lane[l].cut.drop 1) ∧
  -- RETAINED_STREAM_COPY_DONE: R200
  (∀ (s : State) (a : Eng) (j : JobIx) (x : RecJob), (s.eng[a].recv.jobs[j] = some x) → (x.wait = .copy) →
     (s.eng[a].reel.state ≠ .stopped) →
     Completes (exec (.retainedStreamCopyDone a j) s) fun t =>
       t.eng[a].recv.jobs[j] = some { x with wait := .ready, inSlot := false } ∧ t = { s with eng := t.eng, lane := t.lane }) ∧
  -- LADDER_TRY: R203, R212, R226
  (∀ (s : State) (a : Eng) (j : JobIx) (x : RecJob), (s.eng[a].recv.jobs[j] = some x) → (x.wait = .ready) →
   ((s.eng[a].reel.stamp.rev + 2 ^ 32 - x.revOpen) % 2 ^ 32 < fld x.cfg 31 24) → x.step = 2 → (x.offs = []) →
     x.possible s.eng[a].recv (s.jobMargin a x) = true →
     Completes (exec (.ladderTry a j) s) fun t => t.eng[a].recv.jobs[j] = some { x with wait := .try_ }) ∧
  -- CAPTURE_COMPLETE: R209, R211
  (∀ (s : State) (a : Eng) (j : JobIx) (x : RecJob), (s.eng[a].recv.jobs[j] = some x) → (x.wait = .capturing) →
   x.step = 7 → x.deepEng.isSome = true → ((x.under s.eng[a].recv).avgRevs ≤ x.capsHeld.length + 1) →
     Completes (exec (.captureComplete a j) s) fun t =>
       t.eng[a].recv.jobs[j] = some { x with capsHeld := x.capsHeld ++ [x.cap], cap := [], wait := .decoding }) ∧
  -- DEEP_DECODE_DONE: R210, R211, R212
  (∀ (s : State) (e : DecIx) (a : Eng) (j : JobIx) (x : RecJob), (s.eng[a].recv.jobs[j] = some x) → (x.wait = .decoding) →
   (x.deepEng = some e) → x.step = 6 →
     Completes (exec (.deepDecodeDone e a j x.at_) s) fun t =>
       unsatisfied (x.deepResult (x.under s.eng[a].recv)).toArray ≠ 0 →
         t.eng[a].recv.jobs[j] = some { x.enter s.eng[a].recv 7 with wait := .ready, cw := {} } ∧ t = { s with eng := t.eng }) ∧
  -- GUARD_TIMER_EXPIRY: R224, R225
  (∀ (s : State) (a : Eng) (j : JobIx) (x : RecJob) (d : Bool) (g : Angle), (s.eng[a].recv.jobs[j] = some x) →
   (x.waitsFor = some d) → (x.timer = some g) → reached (s.angle a) g = true →
     Completes (exec (.guardTimerExpiry a j) s) fun t => t.pool.guardCnt = inc 32 s.pool.guardCnt) ∧
  -- REALLOCATE: R217, R219, R250
  (∀ (s : State) (a : Eng) (x : Realloc) (f n : Fin 8) (h : LHead) (dest : SectorAt),
   (s.eng[a].recv.reallocs.find? (fun y => !y.placed) = some x) → (s.regionOf a x.orig.track = some f) →
   (s.spareBand a x.orig.head f = some (h, n)) → (s.spareSector a h n s.eng[a].recv.spareNext[h][n] = some dest) →
     x.suspect = false →
     Completes (exec (.reallocate a) s) fun t =>
       t.eng[a].recv.spareUsed = s.eng[a].recv.spareUsed + 1 ∧ t.eng[a].recv.reallocCnt = inc 32 s.eng[a].recv.reallocCnt ∧
       t.eng[a].recv.spareNext[h][n] = s.eng[a].recv.spareNext[h][n] + 1 ∧
       t.media.remaps[a] = s.media.remaps[a] ++ [{ orig := x.orig, spare := dest, active := false, zone := x.zone, zgen := (s.zoneDesc x.zone).zgen }] ∧
       (∃ w, t.out.written = w :: s.out.written ∧ w.eng = a ∧ w.at_ = dest ∧ w.bits = channelWord (ldpcEncode (scramble (addrTag dest)
         (makeInfo (infoUser x.info) (infoPi x.info) (addrTag dest) (infoZgen x.info)))))) ∧
  -- REMAP_ACTIVATE: R220
  (∀ (s : State) (a : Eng) (n : Nat) (x : Realloc), ((s.eng[a].recv.reallocs.filter (·.placed))[n]? = some x) →
     Completes (exec (.remapActivate a n) s) fun t =>
       t.eng[a].recv.reallocs = s.eng[a].recv.reallocs.erase x ∧
       t.nor.remaps[a] = s.nor.remaps[a].map (fun m => if m.orig = x.orig ∧ m.spare = x.dest then { m with active := true } else m))

/-- The packets of the decoder pool and of recovery: POOL_STATUS, POOL_CONFIG, POOL_ENGINE, POOL_REQUESTER, POOL_CLEAR,
REC_CONFIG, REC_STATUS and REC_CLEAR complete on the states their clauses name, each with the next state its clause
gives. The rules each clause rests on stand before it. -/
def Obligations.PoolAndRecoveryPackets : Prop :=
  -- POOL_STATUS: R521
  (∀ (s : State) (p : Packet), ready ⟨0x0160, [5], .read⟩ p s = true →
     Completes (exec (.poolStatus p) s) fun t => Answered s t 0x0160 p (stPool s) ∧ t = s.afterReply t) ∧
  -- POOL_CONFIG: R196, R227
  (∀ (s : State) (p : Packet), ready ⟨0x0161, [5], .config⟩ p s = true → Completes (exec (.poolConfig p) s) fun t =>
       t.pool = { s.pool with cfg := poolCfgWord s.pool.cfg (p.w 0), prio := prioCfgWord s.pool.prio (p.w 1) } ∧
       Answered s t 0x0161 p [poolCfgWord s.pool.cfg (p.w 0), prioCfgWord s.pool.prio (p.w 1)] ∧
       t = ({ s with pool := t.pool } : State).afterReply t) ∧
  -- POOL_ENGINE: R521
  (∀ (s : State) (p : Packet), ready ⟨0x0162, [5], .read⟩ p s = true → ((p.w 0).toNat < 40) →
     Completes (exec (.poolEngine p) s) fun t =>
       (let x := s.pool.engines[(finMod 40 (by decide) (clampWord [fIn 31 0 0 39] 0 (p.w 0)).toNat : DecIx)]
        Answered s t 0x0162 p [rEngStatus x, nw x.cw, rEngBusy x]) ∧ t = s.afterReply t) ∧
  -- POOL_REQUESTER: R521
  (∀ (s : State) (p : Packet), ready ⟨0x0163, [5], .read⟩ p s = true → Completes (exec (.poolRequester p) s) fun t =>
       (let r : ReqIx := finMod 28 (by decide) (clampWord [fIn 31 0 0 27] 0 (p.w 0)).toNat
        Answered s t 0x0163 p [rReqStatus s r, nw s.pool.reqs[r].grantCnt, nw s.pool.reqs[r].starveCnt, nw s.pool.reqs[r].waitMax]) ∧
       t = s.afterReply t) ∧
  -- POOL_CLEAR: R17
  (∀ (s : State) (p : Packet), ready ⟨0x0164, [5], .action⟩ p s = true → Completes (exec (.poolClear p) s) fun t =>
       (let e : DecIx := finMod 40 (by decide) (clampWord [fIn 31 0 0 39] 0 (p.w 1)).toNat
        let r : ReqIx := finMod 28 (by decide) (clampWord [fIn 31 0 0 27] 0 (p.w 2)).toNat
        t.pool.guardCnt = clr (fld (p.w 0) 5 0) 0 s.pool.guardCnt ∧
        t.pool.engines[e] = { s.pool.engines[e] with
          cw := clr (fld (p.w 0) 5 0) 1 s.pool.engines[e].cw, busy := clr (fld (p.w 0) 5 0) 2 s.pool.engines[e].busy } ∧
        t.pool.reqs[r] = { s.pool.reqs[r] with
          grantCnt := clr (fld (p.w 0) 5 0) 3 s.pool.reqs[r].grantCnt, starveCnt := clr (fld (p.w 0) 5 0) 4 s.pool.reqs[r].starveCnt
          waitMax := clr (fld (p.w 0) 5 0) 5 s.pool.reqs[r].waitMax }) ∧ t = ({ s with pool := t.pool } : State).afterReply t) ∧
  -- REC_CONFIG: R227
  (∀ (s : State) (p : Packet), ready ⟨0x0165, [4], .config⟩ p s = true → Completes (exec (.recConfig p) s) fun t =>
       (let c := clampWord [fIn 31 24 8 255, fIn 23 20 1 4, fIn 19 16 2 8, fIn 15 10 8 32, fIn 9 5 1 16] s.eng[p.eng].recv.cfg (p.w 0)
        let f := clampWord [fIn 31 24 1 40, fIn 23 22 1 3, fIn 15 8 4 32] s.eng[p.eng].recv.fh (p.w 1)
        t.eng[p.eng].recv = { s.eng[p.eng].recv with cfg := c, fh := f } ∧ Answered s t 0x0165 p [c, f]) ∧
       (∀ b, p.eng ≠ b → t.eng[b] = s.eng[b]) ∧ t = ({ s with eng := t.eng } : State).afterReply t) ∧
  -- REC_STATUS: R521
  (∀ (s : State) (p : Packet), ready ⟨0x0166, [4], .read⟩ p s = true →
     Completes (exec (.recStatus p) s) fun t => Answered s t 0x0166 p (stRec s p.eng) ∧ t = s.afterReply t) ∧
  -- REC_CLEAR: R17
  (∀ (s : State) (p : Packet), ready ⟨0x0167, [4], .action⟩ p s = true → Completes (exec (.recClear p) s) fun t =>
       t.eng[p.eng].recv.unrecCnt = clr (fld (p.w 0) 9 0) 7 s.eng[p.eng].recv.unrecCnt ∧
       t.eng[p.eng].recv.reallocCnt = clr (fld (p.w 0) 9 0) 8 s.eng[p.eng].recv.reallocCnt ∧
       t.eng[p.eng].recv.revsCnt = clr (fld (p.w 0) 9 0) 9 s.eng[p.eng].recv.revsCnt ∧
       (∀ i : Fin 7, t.eng[p.eng].recv.stepOk[i] = clr (fld (p.w 0) 9 0) i.val s.eng[p.eng].recv.stepOk[i]) ∧
       (∀ b, p.eng ≠ b → t.eng[b] = s.eng[b]) ∧ t = ({ s with eng := t.eng } : State).afterReply t)

/-- The write path: encoding, writer slots, the shock sensor, suspects and the WRT packets: WRITE_ENCODE,
WRITER_SLOT_REQUEST, MEMS_SAMPLE, MEMS_SAMPLE_TIMEOUT, SUSPECT_REWRITE, SUSPECT_SPARE_WRITE, WRT_CONFIG, WRT_HEAD,
WRT_GUARD, WRT_STATUS, WRT_CLEAR and WRT_SLOTS complete on the states their clauses name, each with the next state its
clause gives. The rules each clause rests on stand before it. -/
def Obligations.WritePath : Prop :=
  -- WRITE_ENCODE: R228
  (∀ (s : State) (x : CtxIx) (k : Nat) (v : WriteView) (b : BlockState) (z : ZoneNo) (d : ZoneDesc) (p : SectorAt),
     ((s.viewsOf x).find? (fun v => (v.blocks[k]?.map fun b => b.here && b.codeword.isNone && !b.durable) == some true) = some v) →
   (v.blocks[k]? = some b) → b.failed = none → (s.viewSector v k = some (z, d, p)) → (s.q.staging < stagingUnits) →
     Completes (exec (.writeEncode x k) s) fun t =>
       t = (s.modView v.startNo fun l => modAt l k fun y => { y with codeword := some (ldpcEncode (scramble
         (addrTag (s.remapped d.engine d p)) (s.encodeInfo v k b.data (s.remapped d.engine d p) d.zgen))) }).modQ fun q =>
           { q with staging := q.staging + 1 }) ∧
  -- WRITER_SLOT_REQUEST: R230, R252, R253
  (∀ (s : State) (g : Head) (preBias : AngleStamp), s.headPresent g = true → s.head[g].map.depop = false →
   s.head[g].wr.wrDis = false → s.runStaged g = true → (s.wsl.pending.any (fun p => p.1 == g) = false) →
     Completes (exec (.writerSlotRequest g preBias) s) fun t =>
       t = ({ s with wsl := { s.wsl with
         pending := s.wsl.pending ++ [(g, s.toRef (s.engineOf g) preBias.linear)] } } : State).grantSlots) ∧
  -- MEMS_SAMPLE: R244, R245, R284
  (∀ (s : State) (m : MemsSample), s.mems.frozen = false → (s.mems.last ≠ axes m) → (s.mems.last ≠ []) →
     Completes (exec (.memsSample m) s) fun t =>
       t.mems = { s.mems with
         last := axes m, same := 1, changed := s.mems.changed + 1
         rotSum := s.mems.rotSum.map (· + m.r1), rotN := s.mems.rotN.map (· + 1) } ∧ t.pool = s.pool) ∧
  -- MEMS_SAMPLE_TIMEOUT: R245
  (∀ (s : State), s.mems.frozen = false →
     Completes (exec .memsSampleTimeout s) fun t => t = s.sensorFrozen ∧ t.mems.frozen = true) ∧
  -- SUSPECT_REWRITE: R249
  (∀ (s : State) (g : Head) (f : Suspect),
     (s.head[g].wr.suspects.find? (fun x => x.written.isNone && decide (x.tries < s.eng[s.engineOf g].wrg.tries)) = some f) →
   s.head[g].wr.run.isSome = true → s.head[g].wr.slot.isSome = true → s.head[g].wr.wrDis = false →
     s.head[g].map.depop = false →
     Completes (exec (.suspectRewrite g) s) fun t =>
       t.head[g].wr.suspects = s.head[g].wr.suspects.map (fun x =>
         if (x.written.isNone && decide (x.tries < s.eng[s.engineOf g].wrg.tries)) && x.at_.track == f.at_.track then
           { x with tries := x.tries + 1 } else x) ∧
       t.head[g].wr.run = s.head[g].wr.run.map (fun r => { r with rewrite := true }) ∧
       (∀ k, g ≠ k → t.head[k] = s.head[k]) ∧ t = { s with head := t.head }) ∧
  -- SUSPECT_SPARE_WRITE: R250, R500
  (∀ (s : State) (g : Head) (a : Eng) (h : LHead) (x : Suspect) (v : WriteView) (k : Nat) (b : BlockState) (z : ZoneNo) (r : Fin 8) (y : LHead × Fin 8),
     (s.localHead g = some (a, h)) →
     (s.head[g].wr.suspects.find? (fun x => x.written.isNone && (decide (s.eng[a].wrg.tries ≤ x.tries) || s.head[g].wr.wrDis || s.head[g].map.depop)) = some x) →
   (s.regionOf a x.at_.track = some r) → (s.spareBand a h r = some y) → (s.blockAt a x.at_ = some (v, k)) →
   (v.blocks[k]? = some b) → (v.zone = some z) →
     Completes (exec (.suspectSpareWrite g) s) fun t =>
       t = (s.modWr g fun w => { w with suspects := w.suspects.erase x }).queueRealloc a x.at_ z
         (s.encodeInfo v k b.data x.at_ (s.zoneDesc z).zgen) true) ∧
  -- SUSPECT_SPARE_WRITE (fail): R250, R500
  (∀ (s : State) (g : Head) (a : Eng) (h : LHead) (x : Suspect), (s.localHead g = some (a, h)) →
     (s.head[g].wr.suspects.find? (fun x => x.written.isNone && (decide (s.eng[a].wrg.tries ≤ x.tries) || s.head[g].wr.wrDis || s.head[g].map.depop)) = some x) →
     ((s.regionOf a x.at_.track).bind (fun r => s.spareBand a h r) = none) →
     Completes (exec (.suspectSpareWrite g) s) fun t =>
       t = (s.modWr g fun w => { w with suspects := w.suspects.erase x }).writeFault a x.at_) ∧
  -- WRT_CONFIG: R257, R259
  (∀ (s : State) (p : Packet), ready ⟨0x0170, [3], .config⟩ p s = true → s.head[p.hd].map.depop = false →
     Completes (exec (.wrtConfig p) s) fun t =>
       (let new := clampWords p 1 writeFields (s.bandEntry p.hd p.band).wr.words
        Answered s t 0x0170 p (new.take 6) ∧ t.bandEntry p.hd p.band = { s.bandEntry p.hd p.band with wr := writeOfWords new } ∧
        (s.head[p.hd].map.band = p.band.val → s.head[p.hd].wr.run.isSome = false → t.head[p.hd].wr.band = writeOfWords new) ∧
        (s.head[p.hd].map.band = p.band.val → s.head[p.hd].wr.run.isSome = true →
          t.head[p.hd].wr = { s.head[p.hd].wr with pendingBand := some (writeOfWords new) }) ∧
        (s.head[p.hd].map.band = p.band.val → t.head[p.hd].map = { s.head[p.hd].map with reloadDue := true }) ∧
        (s.head[p.hd].map.band ≠ p.band.val → t.head = s.head)) ∧
       (∀ g, p.hd ≠ g → t.head[g] = s.head[g]) ∧ t = ({ s with head := t.head, nor := t.nor } : State).afterReply t) ∧
  -- WRT_HEAD: R259
  (∀ (s : State) (p : Packet), ready ⟨0x0171, [3], .config⟩ p s = true → s.head[p.hd].map.depop = false →
     Completes (exec (.wrtHead p) s) fun t =>
       t.head[p.hd].wr.lead = clampWord [fIn 31 16 20 500, fIn 15 0 10 1000] s.head[p.hd].wr.lead (p.w 1) ∧
       t.head[p.hd].wr.asm = clampWord [fIn 31 24 2 50, fIn 23 20 1 8] s.head[p.hd].wr.asm (p.w 2) ∧
       ((p.w 3).getLsbD 0 = true → t.head[p.hd].wr.wrDis = false ∧ t.head[p.hd].wr.strikes = []) ∧
       ((p.w 3).getLsbD 0 = false → t.head[p.hd].wr.wrDis = s.head[p.hd].wr.wrDis ∧ t.head[p.hd].wr.strikes = s.head[p.hd].wr.strikes) ∧
       (∀ g, p.hd ≠ g → t.head[g] = s.head[g]) ∧
       ((s.head[p.hd].wr.wrDis && (p.w 3).getLsbD 0) = false → t = ({ s with head := t.head, nor := t.nor } : State).afterReply t) ∧
       ((s.head[p.hd].wr.wrDis && (p.w 3).getLsbD 0) = true →
         t = ({ ({ s with head := t.head } : State).writeEnabled p.hd with nor := t.nor } : State).afterReply t)) ∧
  -- WRT_GUARD: R258
  (∀ (s : State) (p : Packet), ready ⟨0x0172, [4], .config⟩ p s = true → Completes (exec (.wrtGuard p) s) fun t =>
       (let c := wrgCfgWord s.eng[p.eng].wrg.cfg (p.w 0)
        let k := clampWord [fIn 31 20 16 256, fIn 19 8 5 800, fIn 7 0 1 100] s.eng[p.eng].wrg.shockCfg (p.w 1)
        t.eng[p.eng].wrg = { s.eng[p.eng].wrg with cfg := c, shockCfg := k } ∧ Answered s t 0x0172 p [c, k]) ∧
       (∀ b, p.eng ≠ b → t.eng[b] = s.eng[b]) ∧ t = ({ s with eng := t.eng } : State).afterReply t) ∧
  -- WRT_STATUS: R521
  (∀ (s : State) (p : Packet), ready ⟨0x0173, [4], .read⟩ p s = true →
     Completes (exec (.wrtStatus p) s) fun t => Answered s t 0x0173 p (stWrt s p.eng (p.lhWord 0).toNat) ∧ t = s.afterReply t) ∧
  -- WRT_CLEAR: R17
  (∀ (s : State) (p : Packet) (g : Head), ready ⟨0x0174, [4], .action⟩ p s = true →
     (s.globalHead p.eng (p.lhWord 0).toNat = some g) →
     Completes (exec (.wrtClear p) s) fun t =>
       t.eng[p.eng].wrg = { s.eng[p.eng].wrg with
         shockCnt := clr (fld (p.w 1) 7 0) 0 s.eng[p.eng].wrg.shockCnt, rvCnt := clr (fld (p.w 1) 7 0) 1 s.eng[p.eng].wrg.rvCnt
         frzCnt := clr (fld (p.w 1) 7 0) 2 s.eng[p.eng].wrg.frzCnt } ∧
       t.head[g].wr = { s.head[g].wr with
         suspCnt := clr (fld (p.w 1) 7 0) 3 s.head[g].wr.suspCnt, rewrCnt := clr (fld (p.w 1) 7 0) 4 s.head[g].wr.rewrCnt
         wrelocCnt := clr (fld (p.w 1) 7 0) 5 s.head[g].wr.wrelocCnt, otwCnt := clr (fld (p.w 1) 7 0) 6 s.head[g].wr.otwCnt
         asmCnt := clr (fld (p.w 1) 7 0) 7 s.head[g].wr.asmCnt } ∧
       (∀ b, p.eng ≠ b → t.eng[b] = s.eng[b]) ∧ (∀ k, g ≠ k → t.head[k] = s.head[k]) ∧
       t = ({ s with eng := t.eng, head := t.head } : State).afterReply t) ∧
  -- WRT_SLOTS: R252, R256
  (∀ (s : State) (p : Packet), ready ⟨0x0175, [5], .config⟩ p s = true → Completes (exec (.wrtSlots p) s) fun t =>
       t.wsl.max = (clampWord [fIn 3 0 1 12] 0 (p.w 0)).toNat ∧ 1 ≤ t.wsl.max ∧ t.wsl.max ≤ 12)

/-- Seeks and the SRV packets: SEEK_REQUEST, SRV_STATUS, SRV_CONFIG, SRV_QUADRILLE, SRV_NOTCH, SRV_HEAD, SRV_HSTATUS and
SRV_CLEAR complete on the states their clauses name, each with the next state its clause gives. The rules each clause
rests on stand before it. -/
def Obligations.ServoCommands : Prop :=
  -- SEEK_REQUEST: R273, R283
  (∀ (s : State) (a : Eng) (h : LHead) (tgt : BitVec 30) (g : Head), (s.globalHead a h.val = some g) →
   (s.eng[a].srv.mode = .minuet) → s.head[g].map.depop = false → (s.pwr.eng[a].seekDraw ≠ 0) → (s.pwr.late = none) →
     Completes (exec (.seekRequest a h tgt) s) fun t =>
       t.head[g].srv.tgt = tgt.toNat ∧ t.eng[a].srv.seekCnt = satAdd 32 s.eng[a].srv.seekCnt 1 ∧
       t.eng[a].srv.galopSet = s.pwr.eng[a].galop ∧ t.eng[a].srv.seekDue = true ∧ t.eng[a].srv.mode = .minuet ∧
       (∀ b, a ≠ b → t.eng[b] = s.eng[b]) ∧ (∀ k, g ≠ k → t.head[k] = s.head[k]) ∧ t = { s with eng := t.eng, head := t.head }) ∧
  -- SRV_STATUS: R521
  (∀ (s : State) (p : Packet), ready ⟨0x0180, [4], .read⟩ p s = true →
     Completes (exec (.srvStatus p) s) fun t => Answered s t 0x0180 p (stSrv s p.eng) ∧ t = s.afterReply t) ∧
  -- SRV_CONFIG: R295
  (∀ (s : State) (p : Packet), ready ⟨0x0181, [4], .config⟩ p s = true → Completes (exec (.srvConfig p) s) fun t =>
       (let c := clampWord [fIn 31 28 2 6, fIn 23 16 16 56, fIn 15 8 8 64, fIn 7 0 1 15] s.eng[p.eng].srv.cfg (p.w 0)
        let r := srvRdyWord s.eng[p.eng].srv.rdy (p.w 1)
        let h := clampWord [fIn 31 24 16 255, fIn 23 16 4 255, fIn 15 0 4 1024] s.eng[p.eng].srv.ho (p.w 2)
        t.eng[p.eng].srv = { s.eng[p.eng].srv with cfg := c, rdy := r, ho := h } ∧ Answered s t 0x0181 p [c, r, h]) ∧
       (∀ b, p.eng ≠ b → t.eng[b] = s.eng[b]) ∧ t = ({ s with eng := t.eng } : State).afterReply t) ∧
  -- SRV_QUADRILLE: R284
  (∀ (s : State) (p : Packet), ready ⟨0x0182, [4], .config⟩ p s = true → Completes (exec (.srvQuadrille p) s) fun t =>
       t.eng[p.eng].srv.qdK[p.eng] = 0 ∧ (∀ b, p.eng ≠ b → t.eng[p.eng].srv.qdK[b] = p.w b.val) ∧ t.eng[p.eng].srv.qdRv = p.w 4 ∧
       t.eng[p.eng].srv = { s.eng[p.eng].srv with qdK := t.eng[p.eng].srv.qdK, qdRv := p.w 4 } ∧
       (∀ b, p.eng ≠ b → t.eng[b] = s.eng[b]) ∧ t = ({ s with eng := t.eng } : State).afterReply t) ∧
  -- SRV_NOTCH: R294, R296
  (∀ (s : State) (p : Packet), ready ⟨0x0183, [3, 4], .config⟩ p s = true → p.lvl = 4 →
     Completes (exec (.srvNotch p) s) fun t =>
       (∀ i : Fin 4, t.eng[p.eng].srv.notch[i] = clampWord notchFields s.eng[p.eng].srv.notch[i] (p.w i.val)) ∧
       t.eng[p.eng].srv = { s.eng[p.eng].srv with notch := t.eng[p.eng].srv.notch, notchDue := true } ∧
       (∀ b, p.eng ≠ b → t.eng[b] = s.eng[b]) ∧ t = ({ s with eng := t.eng, nor := t.nor } : State).afterReply t) ∧
  -- SRV_NOTCH (head): R294, R296
  (∀ (s : State) (p : Packet), ready ⟨0x0183, [3, 4], .config⟩ p s = true → p.lvl = 3 → s.head[p.hd].map.depop = false →
     Completes (exec (.srvNotch p) s) fun t =>
       (∀ i : Fin 2, t.head[p.hd].srv.maNotch[i] = clampWord notchFields s.head[p.hd].srv.maNotch[i] (p.w i.val)) ∧
       t.head[p.hd].srv = { s.head[p.hd].srv with maNotch := t.head[p.hd].srv.maNotch, notchDue := true } ∧
       (∀ g, p.hd ≠ g → t.head[g] = s.head[g]) ∧ t = ({ s with head := t.head, nor := t.nor } : State).afterReply t) ∧
  -- SRV_HEAD: R296
  (∀ (s : State) (p : Packet), ready ⟨0x0184, [3], .config⟩ p s = true → s.head[p.hd].map.depop = false →
     Completes (exec (.srvHead p) s) fun t =>
       (let m := clampWord [fIn 19 8 512 1536] s.head[p.hd].srv.maCfg (p.w 3)
        let g := clampWord [fAny 31 16, fAny 15 0] 0 (p.w 2)
        t.head[p.hd].srv = { s.head[p.hd].srv with pendingCfg := some (p.w 0, p.w 1, g, m) } ∧ Answered s t 0x0184 p [p.w 0, p.w 1, g, m]) ∧
       (∀ g, p.hd ≠ g → t.head[g] = s.head[g]) ∧ t = ({ s with head := t.head, nor := t.nor } : State).afterReply t) ∧
  -- SRV_HSTATUS: R521
  (∀ (s : State) (p : Packet), ready ⟨0x0185, [3], .read⟩ p s = true →
     Completes (exec (.srvHstatus p) s) fun t => Answered s t 0x0185 p (stSrvH s p.hd) ∧ t = s.afterReply t) ∧
  -- SRV_CLEAR: R17
  (∀ (s : State) (p : Packet) (g : Head), ready ⟨0x0186, [4], .action⟩ p s = true →
     (s.globalHead p.eng (clampWord [fIn 3 0 0 11] 0 (p.w 1)).toNat = some g) →
     Completes (exec (.srvClear p) s) fun t =>
       t.eng[p.eng].srv = { s.eng[p.eng].srv with
         lossCnt := clr (fld (p.w 0) 5 0) 0 s.eng[p.eng].srv.lossCnt, unloadCnt := clr (fld (p.w 0) 5 0) 1 s.eng[p.eng].srv.unloadCnt
         hoBlendCnt := clr (fld (p.w 0) 5 0) 2 s.eng[p.eng].srv.hoBlendCnt, seekCnt := clr (fld (p.w 0) 5 0) 3 s.eng[p.eng].srv.seekCnt
         markAltCnt := clr (fld (p.w 0) 5 0) 4 s.eng[p.eng].srv.markAltCnt, idxErrCnt := clr (fld (p.w 0) 5 0) 5 s.eng[p.eng].srv.idxErrCnt } ∧
       t.head[g].srv = { s.head[g].srv with
         invalCnt := clr (fld (p.w 2) 6 0) 0 s.head[g].srv.invalCnt, frzCnt := clr (fld (p.w 2) 6 0) 1 s.head[g].srv.frzCnt
         grayFixCnt := clr (fld (p.w 2) 6 0) 2 s.head[g].srv.grayFixCnt, grayErrCnt := clr (fld (p.w 2) 6 0) 3 s.head[g].srv.grayErrCnt
         xdisCnt := clr (fld (p.w 2) 6 0) 4 s.head[g].srv.xdisCnt, lostCnt := clr (fld (p.w 2) 6 0) 5 s.head[g].srv.lostCnt
         losses := if (fld (p.w 2) 6 0).testBit 6 then [] else s.head[g].srv.losses } ∧
       (∀ b, p.eng ≠ b → t.eng[b] = s.eng[b]) ∧ (∀ k, g ≠ k → t.head[k] = s.head[k]) ∧
       t = ({ s with eng := t.eng, head := t.head } : State).afterReply t)

/-- The loop engines: computation, release and the trace buffers: LOOP_COMPUTE_START, LOOP_COMPUTE_DONE,
LOOP_OUTPUT_RELEASE, TRACE_TIMEOUT and TRACE_COPY_DONE complete on the states their clauses name, each with the next
state its clause gives. The rules each clause rests on stand before it. -/
def Obligations.LoopEngines : Prop :=
  -- LOOP_COMPUTE_START: R301, R314, R327
  (∀ (s : State) (n : PipeIx) (k : LoopIx) (x : LoopSample) (l : List LoopSample), s.lpe.pipes[n] = none →
   (s.nextCompute = some k) → (s.lpe.slots[k].latched = x :: l) → s.lpe.slots[k].swapPend = false →
     s.lpe.slots[k].bad = none →
     Completes (exec (.loopComputeStart n) s) fun t =>
       t.lpe.pipes[n] = some k ∧
       t.lpe.slots[k] = { s.lpe.slots[k] with
         pipe := some n, advance := min s.lpe.slots[k].debt (x.period / 4), slow := false, startAt := s.mtime } ∧
       (∀ j, k ≠ j → t.lpe.slots[j] = s.lpe.slots[j]) ∧ (∀ m, n ≠ m → t.lpe.pipes[m] = s.lpe.pipes[m]) ∧ t = { s with lpe := t.lpe }) ∧
  -- LOOP_COMPUTE_DONE: R303, R304, R308, R327
  (∀ (s : State) (n : PipeIx) (k : LoopIx) (x : LoopSample) (l : List LoopSample), (s.lpe.pipes[n] = some k) →
     (s.lpe.slots[k].latched = x :: l) → (s.lpe.slots[k].slow = true → s.lateness k x.due ≠ 0) →
     Completes (exec (.loopComputeDone n) s) fun t =>
       t.lpe.pipes[n] = none ∧ t.lpe.slots[k].pipe = none ∧ t.lpe.slots[k].latched = l ∧ t.lpe.slots[k].doneAt = s.mtime ∧
       t.lpe.slots[k].prevU = s.lpe.slots[k].lastU ∧
       t.lpe.slots[k].lawW = (s.runLaw k x).2.1 ∧
       t.lpe.slots[k].notchW = ((s.runLaw k x).1.lpe.slots[k].notches (notchCount k) (s.runLaw k x).2.1).2 ∧
       t.lpe.slots[k].debt = min (s.lpe.slots[k].debt - s.lpe.slots[k].advance + s.lateness k x.due) (2 ^ 32 - 1)) ∧
  -- LOOP_OUTPUT_RELEASE: R303
  (∀ (s : State) (a : Eng) (u : Int) (e : Nat), (s.lpe.slots[vcmSlot a].pendingOut = some (u, e)) →
     reached (s.angle a) e = true →
     Completes (exec (.loopOutputRelease (vcmSlot a)) s) fun t =>
       t.eng[a].srv.out = clampInt (-32768) 32767 (qshr u 15) ∧ t.lpe.slots[vcmSlot a].out = u ∧
       t.lpe.slots[vcmSlot a].pendingOut = none ∧ (∀ b, a ≠ b → t.eng[b] = s.eng[b]) ∧ t = { s with eng := t.eng, lpe := t.lpe }) ∧
  -- LOOP_OUTPUT_RELEASE (clock): R303
  (∀ (s : State) (n : LoopIx) (u : Int) (e : Nat), s.loopEngine n = none → (s.lpe.slots[n].pendingOut = some (u, e)) →
     (e ≤ s.mtime) →
     Completes (exec (.loopOutputRelease n) s) fun t => t = s.applyOutput n u) ∧
  -- TRACE_TIMEOUT: R330
  (∀ (s : State), (s.trc.state = .triggered) → Completes (exec .traceTimeout s) fun t =>
       t.trc.state = .done ∧ t.trc.chans = s.trc.chans ∧ t.trc.captures = s.trc.captures ∧
       (∀ i : Fin 16, t.trc.short.getLsbD i.val = (s.trc.chans[i].src.getLsbD 31 && !s.trc.chans[i].stopped)) ∧ t = { s with trc := t.trc }) ∧
  -- TRACE_COPY_DONE: R331
  (∀ (s : State), (s.trc.state = .done) → (s.trc.captures.head?.map (·.2.1) ≠ some s.trc.trigAt) →
     Completes (exec .traceCopyDone s) fun t =>
       t.trc = { s.trc with
         saveCnt := (s.trc.saveCnt + 1) % 65536
         captures := (((s.trc.saveCnt + 1) % 65536, s.trc.trigAt, s.trc.chans.toList.map (·.samples)) :: s.trc.captures).take 32 } ∧
       t = { s with trc := t.trc })

/-- The packets of the loop engines and of the trace buffers: LOOP_STATUS, LOOP_COEF, LOOP_BANK_SWAP, LOOP_CONFIG,
LOOP_CLEAR, TRACE_CONFIG, TRACE_ARM, TRACE_TRIGGER and TRACE_STATUS complete on the states their clauses name, each with
the next state its clause gives. The rules each clause rests on stand before it. -/
def Obligations.LoopAndTracePackets : Prop :=
  -- LOOP_STATUS: R521
  (∀ (s : State) (p : Packet), ready ⟨0x0190, [6], .read⟩ p s = true → s.loopRefused p.slot = none →
     Completes (exec (.loopStatus p) s) fun t => Answered s t 0x0190 p (stLoop s p.slot) ∧ t = s.afterReply t) ∧
  -- LOOP_COEF: R333, R334
  (∀ (s : State) (p : Packet), ready ⟨0x0191, [6], .config⟩ p s = true → s.loopRefused p.slot = none →
     ((coefIndices p).any (fun i => decide (20 ≤ coefFirst p + i ∧ coefFirst p + i < 40)) = false) →
     (coefWord0 p).getLsbD 31 = false →
     Completes (exec (.loopCoef p) s) fun t =>
       (t.coefSet p.slot (coefBand p) =
         { s.coefSet p.slot (coefBand p) with
           words := coefWords (loopKind s p.slot) (s.coefSet p.slot (coefBand p)).words p }) ∧
       t = ({ s with nor := t.nor } : State).afterReply t) ∧
  -- LOOP_BANK_SWAP: R335
  (∀ (s : State) (p : Packet), ready ⟨0x0192, [6], .action⟩ p s = true → s.loopRefused p.slot = none →
     s.lpe.slots[p.slot].en = true →
     Completes (exec (.loopBankSwap p) s) fun t =>
       t.lpe.slots[p.slot].swapPend = true ∧ (0x0192, p) ∈ t.het.waiting ∧ (∀ j, p.slot ≠ j → t.lpe.slots[j] = s.lpe.slots[j])) ∧
  -- LOOP_CONFIG: R335
  (∀ (s : State) (p : Packet), ready ⟨0x0193, [6], .config⟩ p s = true → s.loopRefused p.slot = none →
     Completes (exec (.loopConfig p) s) fun t =>
       (let w := clampWord [fIn 15 8 4 255, fIn 7 4 1 15] (rLpCtl s p.slot) (p.w 0)
        t.lpe.slots[p.slot] = { s.lpe.slots[p.slot] with frzN := fld w 15 8, lostN := fld w 7 4 } ∧ Answered s t 0x0193 p [w]) ∧
       (∀ j, p.slot ≠ j → t.lpe.slots[j] = s.lpe.slots[j]) ∧ t = ({ s with lpe := t.lpe, nor := t.nor } : State).afterReply t) ∧
  -- LOOP_CLEAR: R17
  (∀ (s : State) (p : Packet), ready ⟨0x0194, [6], .action⟩ p s = true → s.loopRefused p.slot = none →
     Completes (exec (.loopClear p) s) fun t =>
       t.lpe.slots[p.slot] = { s.lpe.slots[p.slot] with
         debtMax := clr (fld (p.w 0) 4 0) 0 s.lpe.slots[p.slot].debtMax, lateCnt := clr (fld (p.w 0) 4 0) 1 s.lpe.slots[p.slot].lateCnt
         fbCnt := clr (fld (p.w 0) 4 0) 2 s.lpe.slots[p.slot].fbCnt, clampCnt := clr (fld (p.w 0) 4 0) 3 s.lpe.slots[p.slot].clampCnt
         swapCnt := clr (fld (p.w 0) 4 0) 4 s.lpe.slots[p.slot].swapCnt } ∧
       (∀ j, p.slot ≠ j → t.lpe.slots[j] = s.lpe.slots[j]) ∧ t = ({ s with lpe := t.lpe } : State).afterReply t) ∧
  -- TRACE_CONFIG: R330
  (∀ (s : State) (p : Packet), ready ⟨0x01A0, [5], .config⟩ p s = true → (s.trc.state ≠ .armed) →
     (s.trc.state ≠ .triggered) →
     Completes (exec (.traceConfig p) s) fun t =>
       (let w0 := clampWord [fIn 28 16 0 8191, fAny 3 0] 0 (p.w 0)
        t.trc.pre = fld w0 28 16 ∧
        ∀ i : Fin 12, fld w0 3 0 + i.val < 16 → ∀ j : Fin 16, j.val = fld w0 3 0 + i.val →
          t.trc.chans[j].src = clampWord [fAny 31 31, fAny 30 24, fAny 23 20] 0 (p.w (i.val + 1))) ∧
       t.trc.state = s.trc.state ∧ t = s.afterReply t) ∧
  -- TRACE_ARM: R329
  (∀ (s : State) (p : Packet), ready ⟨0x01A1, [5], .action⟩ p s = true → Completes (exec (.traceArm p) s) fun t =>
       t.trc.short = 0 ∧ t.trc.tPkt = (p.w 0).getLsbD 2 ∧ t.trc.tEvt = (p.w 0).getLsbD 1 ∧
       t.trc.tAng = (p.w 0).getLsbD 0 ∧ t.trc.trigType = (p.w 1).setWidth 16 ∧
       ((p.w 0).getLsbD 1 = false → t.trc.state = .armed ∧ t.trc.src = 0 ∧ ∀ i : Fin 16, t.trc.chans[i] = { s.trc.chans[i] with
         samples := [], count := 0, trigIdx := 0, firstIdx := 0, left := 0, stopped := false }) ∧ t = s.afterReply t) ∧
  -- TRACE_TRIGGER: R329
  (∀ (s : State) (p : Packet), ready ⟨0x01A2, [5], .action⟩ p s = true → s.trc.tPkt = false →
     Completes (exec (.traceTrigger p) s) fun t => Answered s t 0x01A2 p (rTrcStatus s.trc :: lohi s.trc.trigAt) ∧ t = s.afterReply t) ∧
  -- TRACE_TRIGGER (armed): R329
  (∀ (s : State) (p : Packet), ready ⟨0x01A2, [5], .action⟩ p s = true → s.trc.tPkt = true → (s.trc.state = .armed) →
     Completes (exec (.traceTrigger p) s) fun t =>
       t.trc.trigAt = s.mtime ∧ t.trc.src.getLsbD 2 = true ∧ (t.trc.state = .triggered ∨ t.trc.state = .done) ∧ t = s.afterReply t) ∧
  -- TRACE_STATUS: R521
  (∀ (s : State) (p : Packet), ready ⟨0x01A3, [5], .read⟩ p s = true →
     Completes (exec (.traceStatus p) s) fun t => Answered s t 0x01A3 p (stTrc s) ∧ t = s.afterReply t)

/-- The spindle: crossings, commutation, catching, braking and starting: ZERO_CROSSING, COMMUTATION, CROSSING_MISSED,
ROTOR_LOCK_LOSS, COAST_TIMEOUT, DETECT_TIMEOUT, BRAKE_SHORT_END, BRAKE_OBSERVE_END, BRAKE_SETTLE_END, ALIGN_END,
OPEN_LOOP_STEP and START_ATTEMPT_TIMEOUT complete on the states their clauses name, each with the next state its clause
gives. The rules each clause rests on stand before it. -/
def Obligations.SpindleStarting : Prop :=
  -- ZERO_CROSSING: R339, R344, R346, R347, R350, R352
  (∀ (s : State) (x : Crossing), (s.spn.state = .run) → x.reverse = false → s.spn.accepts (s.mtime - x.ago) = true →
     Completes (exec (.zeroCrossing x) s) fun t =>
       t.spn.steps = ((s.mtime - x.ago - s.spn.lastCross) :: s.spn.steps).take 6 ∧
       t.spn.got = some (s.mtime - x.ago - s.spn.lastCross) ∧ t.spn.lastCross = s.mtime - x.ago ∧ t.spn.skipRun = 0 ∧
       t.spn.makeWindow = false ∧ t.spn.state = .run ∧ t = { s with spn := t.spn }) ∧
  -- ZERO_CROSSING (predict): R339, R344, R346, R347, R350, R352
  (∀ (s : State) (x : Crossing), (s.spn.state = .predict) → x.reverse = false → s.spn.accepts (s.mtime - x.ago) = true →
     (1 ≤ s.spn.goodRun) →
     Completes (exec (.zeroCrossing x) s) fun t =>
       t.spn.state = .run ∧ t.spn.lastCross = s.mtime - x.ago ∧ t.spn.got = some (s.mtime - x.ago - s.spn.caught) ∧ t.spn.predSteps = 0 ∧ t.spn.goodRun = 0 ∧ t = { s with spn := t.spn }) ∧
  -- COMMUTATION: R340, R342, R341
  (∀ (s : State) (window : Nat) (demagDone : Bool), (s.spn.state = .run) → (s.spn.commDue ≤ s.mtime) →
   s.spn.got.isSome = true →
     Completes (exec (.commutation window demagDone) s) fun t =>
       t.spn.commAngle = (s.spn.commAngle + 1) % s.spn.revSteps ∧ t.spn.commCount = s.spn.commCount + 1 ∧ t.spn.got = none ∧
       t.spn.cross = (s.spn.got :: s.spn.cross).take s.spn.revSteps ∧ t.spn.skipCnt = s.spn.skipCnt ∧ t = { s with spn := t.spn, eng := t.eng }) ∧
  -- COMMUTATION (skip): R340, R342, R341
  (∀ (s : State) (window : Nat) (demagDone : Bool), (s.spn.state = .run) → (s.spn.commDue ≤ s.mtime) →
   s.spn.got = none → s.spn.makeWindow = false → (window < 4500) →
     Completes (exec (.commutation window demagDone) s) fun t =>
       t.spn.skipCnt = satAdd 32 s.spn.skipCnt 1 ∧ t.spn.skipRun = min 3 (s.spn.skipRun + 1) ∧
       t.spn.makeWindow = decide (3 ≤ s.spn.skipRun + 1) ∧ t.spn.commAngle = (s.spn.commAngle + 1) % s.spn.revSteps) ∧
  -- CROSSING_MISSED: R343, R342
  (∀ (s : State), (s.spn.state = .run) → s.spn.missDue s.mtime = true → Completes (exec .crossingMissed s) fun t =>
       t.spn.state = .predict ∧ t.spn.predCnt = inc 32 s.spn.predCnt ∧ t.spn.predSteps = 0 ∧ t.spn.ramp = 0 ∧
       t = ({ s with spn := t.spn, lpe := t.lpe } : State).afterEvent t) ∧
  -- ROTOR_LOCK_LOSS: R345
  (∀ (s : State), (s.spn.state = .predict) → (36 ≤ s.spn.predSteps) → Completes (exec .rotorLockLoss s) fun t =>
       t.spn.state = .coast ∧ t.spn.lockLossCnt = inc 32 s.spn.lockLossCnt ∧ t.spn.icmd = 0 ∧ t.spn.ramp = 0 ∧
       (∀ a : Eng, s.enginePresent a = true → s.rst.act[a].offRamp = true → t.rst.act[a].state = .pavane)) ∧
  -- COAST_TIMEOUT: R346
  (∀ (s : State), (s.spn.state = .coast) → Completes (exec .coastTimeout s) fun t =>
       t.spn.state = .brake ∧ t.spn.brakePhase = .short ∧ t.spn.tries = 0 ∧ t.spn.icmd = 0 ∧ t.spn.ramp = 0) ∧
  -- DETECT_TIMEOUT: R350
  (∀ (s : State) (r : Rotation), (s.spn.state = .detect) → s.spn.stopping = false → (r.crossings < 3) →
     Completes (exec (.detectTimeout r) s) fun t =>
       t.spn.state = .align ∧ t.spn.start = s.spn.startStored ∧ t.spn.startCnt = satAdd 32 s.spn.startCnt 1 ∧ t = { s with spn := t.spn }) ∧
  -- DETECT_TIMEOUT (catch): R350
  (∀ (s : State) (r : Rotation), (s.spn.state = .detect) → s.spn.stopping = false → (3 ≤ r.crossings) →
   r.reverse = false → (3600 < r.rpm) →
     Completes (exec (.detectTimeout r) s) fun t => t.spn.state = .catch_ ∧ t.spn.reverse = false ∧ t = { s with spn := t.spn }) ∧
  -- BRAKE_SHORT_END: R351
  (∀ (s : State), (s.spn.state = .brake) → (s.spn.brakePhase = .short) →
     Completes (exec .brakeShortEnd s) fun t => t = { s with spn := { s.spn with brakePhase := .observe } }) ∧
  -- BRAKE_OBSERVE_END: R351, R353
  (∀ (s : State) (n : Nat), (s.spn.state = .brake) → (s.spn.brakePhase = .observe) →
     Completes (exec (.brakeObserveEnd n) s) fun t =>
       t = { s with spn := { s.spn with brakePhase := if n < 3 then .extended else .short } }) ∧
  -- BRAKE_OBSERVE_END (still): R351, R353
  (∀ (s : State) (n : Nat), (s.spn.state = .brake) → (s.spn.brakePhase = .extended) → (n < 3) →
     (s.spn.afterBrake = .start) →
     Completes (exec (.brakeObserveEnd n) s) fun t =>
       t = { s with spn := { s.spn with brakePhase := .settle, speed := 0, nRef := 0, nRefFrac := 0 } }) ∧
  -- BRAKE_SETTLE_END: R351
  (∀ (s : State), (s.spn.state = .brake) → (s.spn.brakePhase = .settle) → Completes (exec .brakeSettleEnd s) fun t =>
       t.spn.state = .align ∧ t.spn.start = s.spn.startStored ∧ t.spn.startCnt = satAdd 32 s.spn.startCnt 1 ∧ t = { s with spn := t.spn }) ∧
  -- ALIGN_END: R352
  (∀ (s : State), (s.spn.state = .align) → Completes (exec .alignEnd s) fun t =>
       t = { s with spn := { s.spn with state := .open_, openSteps := 0, goodRun := 0, steps := [], reverse := false } }) ∧
  -- OPEN_LOOP_STEP: R352
  (∀ (s : State), (s.spn.state = .open_) → (({ s.spn with openSteps := s.spn.openSteps + 1 } : Spindle).openRate < 600) →
     Completes (exec (.openLoopStep false) s) fun t =>
       t = { s with spn := { s.spn with openSteps := s.spn.openSteps + 1, commAngle := (s.spn.commAngle + 1) % s.spn.revSteps } }) ∧
  -- START_ATTEMPT_TIMEOUT: R352
  (∀ (s : State), (s.spn.state = .open_) → (s.spn.tries + 1 < fld s.spn.start 7 4) →
     Completes (exec .startAttemptTimeout s) fun t =>
       t.spn.state = .brake ∧ t.spn.tries = s.spn.tries + 1 ∧ t.spn.phasePair = (s.spn.phasePair + 1) % 3 ∧ t.spn.brakePhase = .short) ∧
  -- START_ATTEMPT_TIMEOUT (last): R352
  (∀ (s : State), (s.spn.state = .open_) → (fld s.spn.start 7 4 ≤ s.spn.tries + 1) →
     Completes (exec .startAttemptTimeout s) fun t =>
       t.spn.state = .fault ∧ t.spn.startFailCnt = inc 32 s.spn.startFailCnt ∧ t.spn.icmd = 0 ∧
       t = ({ s with spn := t.spn } : State).afterEvent t)

/-- The spindle in operation: samples, the reference, the rail and the chopper: SPINDLE_SAMPLE, NREF_UPDATE, CHOPPER_SWITCH,
CHOPPER_BUCKET_THRESHOLD, CHOPPER_FAULT and RAIL_OVERVOLTAGE complete on the states their clauses name, each with the
next state its clause gives. The rules each clause rests on stand before it. -/
def Obligations.SpindleRunning : Prop :=
  -- SPINDLE_SAMPLE: R354, R355, R366
  (∀ (s : State), (s.spn.state = .run) → (6 ≤ s.spn.commCount) → s.spn.brkStop = false →
     (4 * s.spn.polePairs ≤ (s.spn.cross.filterMap id).length) →
     Completes (exec .spindleSample s) fun t =>
       (let n := s.spn.speedOf (s.spn.cross.filterMap id).length (s.spn.cross.filterMap id).sum
        t.spn.speed = n ∧ t.spn.commCount = 0 ∧ t.spn.nRef = s.spn.nRef ∧ t.spn.lastSpeeds = (s.spn.lastSpeeds.2, n) ∧
        t.spn.lastSampleAt = s.mtime ∧ t.spn.settleRun = (if within n s.spn.nRef then s.spn.settleRun + 1 else 0)) ∧
       t = { s with eng := t.eng, spn := t.spn, lpe := t.lpe }) ∧
  -- NREF_UPDATE: R344, R352, R356, R357, R359, R360, R366
  (∀ (s : State), (s.spn.state = .run) → (s.eng[s.refEngine].reel.state ≠ .stopped) → s.spn.stopping = false →
     s.spn.swapWait = true →
     Completes (exec .nrefUpdate s) fun t =>
       t.spn.nRef * 2 ^ 32 + t.spn.nRefFrac = s.nextRef.1 ∧ t.spn.limPwr = s.nextRef.2 ∧ t.spn.band = s.spn.band ∧
       t = { s with spn := t.spn }) ∧
  -- NREF_UPDATE (idle): R344, R352, R356, R357, R359, R360, R366
  (∀ (s : State), (s.spn.state ≠ .run) →
     Completes (exec .nrefUpdate s) fun t => t = { s with spn := { s.spn with ramp := 0 } }) ∧
  -- CHOPPER_SWITCH: R364
  (∀ (s : State) (mv : Nat), (mv ≤ 16000) → Completes (exec (.chopperSwitch mv) s) fun t =>
       t.spn.vbus = mv ∧
       t.spn.chopOn = (!s.spn.chopHot && !s.spn.chopFault && (decide (13200 ≤ mv) || (s.spn.chopOn && decide (13000 < mv))))) ∧
  -- CHOPPER_BUCKET_THRESHOLD: R364
  (∀ (s : State), s.spn.chopHot = false → Completes (exec (.chopperBucketThreshold 200) s) fun t =>
       t.spn.chopHot = true ∧ t.spn.chopOn = false ∧ t.spn.bucket = 200 ∧ t.spn.chopHotCnt = inc 16 s.spn.chopHotCnt ∧
       t = ({ s with spn := t.spn } : State).afterEvent t) ∧
  -- CHOPPER_BUCKET_THRESHOLD (fall): R364
  (∀ (s : State), Completes (exec (.chopperBucketThreshold 100) s) fun t =>
       t.spn.chopHot = false ∧ t.spn.bucket = 100 ∧ t.spn.chopHotCnt = s.spn.chopHotCnt ∧ t = { s with spn := t.spn }) ∧
  -- CHOPPER_FAULT: R365
  (∀ (s : State) (ma : Nat), s.spn.chopFault = false → s.spn.shuntBad ma = true →
     Completes (exec (.chopperFault ma) s) fun t =>
       t.spn.chopFault = true ∧ t.spn.chopOn = false ∧ t.spn.chopI = ma ∧ t.spn.chopFaultCnt = inc 16 s.spn.chopFaultCnt ∧
       t = ({ s with spn := t.spn } : State).afterEvent t) ∧
  -- RAIL_OVERVOLTAGE: R366, R673
  (∀ (s : State) (mv : Nat), (mv ≤ 16000) → Completes (exec (.railOvervoltage mv) s) fun t =>
       t.spn.vbus = mv ∧ t.spn.ov = (decide (14000 ≤ mv) || (s.spn.ov && decide (13600 ≤ mv))) ∧
       t.spn.brkStop = (decide (14400 ≤ mv) || (s.spn.brkStop && decide (13200 ≤ mv))) ∧
       t.spn.ovCnt = (if 14000 ≤ mv ∧ s.spn.ov = false then inc 16 s.spn.ovCnt else s.spn.ovCnt) ∧
       t.spn.ovStopCnt = (if 14400 ≤ mv ∧ s.spn.brkStop = false then inc 16 s.spn.ovStopCnt else s.spn.ovStopCnt))

/-- The packets of the spindle: SPINDLE_STATUS, SPINDLE_TARGET, SPINDLE_BOLERO, SPINDLE_CONFIG, SPINDLE_RUN_STOP,
SPINDLE_RUN_START, SPINDLE_CHOPPER_TEST and SPINDLE_CLEAR complete on the states their clauses name, each with the next
state its clause gives. The rules each clause rests on stand before it. -/
def Obligations.SpindlePackets : Prop :=
  -- SPINDLE_STATUS: R521
  (∀ (s : State) (p : Packet), ready ⟨0x01B0, [5], .read⟩ p s = true →
     Completes (exec (.spindleStatus p) s) fun t => Answered s t 0x01B0 p (stSpn s) ∧ t = s.afterReply t) ∧
  -- SPINDLE_TARGET: R362, R370
  (∀ (s : State) (p : Packet), ready ⟨0x01B1, [5], .config⟩ p s = true → Completes (exec (.spindleTarget p) s) fun t =>
       (let b := limitSpeeds s.spn.nPav { s.spn.set with tgt := (p.w 0).toNat, bolEn := (p.w 1).getLsbD 0 }
        t.spn.set = b ∧ (s.bolOn = false → t.spn.eff = b) ∧ (s.bolOn = true → t.spn.eff = s.spn.eff ∧ t.spn.nCmd = s.spn.nCmd)) ∧
       t.spn.state = s.spn.state ∧ t = ({ s with spn := t.spn } : State).afterReply t) ∧
  -- SPINDLE_BOLERO: R362, R370
  (∀ (s : State) (p : Packet), ready ⟨0x01B2, [5], .config⟩ p s = true → Completes (exec (.spindleBolero p) s) fun t =>
       t.spn.set.kr = fld (p.w 2) 31 16 ∧ t.spn.set.kw = fld (p.w 2) 15 0 ∧
       t.spn.set.accLim = fld (clampWord [fIn 31 22 10 400, fIn 21 12 10 600, fAny 11 4, fIn 3 0 1 15] 0 (p.w 1)) 31 22 ∧
       t.spn.set.bolMin ≤ t.spn.set.bolMax ∧ t.spn.set.bolMin ≤ t.spn.set.tgt ∧ t.spn.set.tgt ≤ t.spn.set.bolMax ∧
       4800 ≤ t.spn.set.bolMin ∧ t.spn.set.bolMax ≤ 9600 ∧ t.spn.set.bolEn = s.spn.set.bolEn ∧
       t = ({ s with spn := t.spn } : State).afterReply t) ∧
  -- SPINDLE_CONFIG: R370
  (∀ (s : State) (p : Packet), ready ⟨0x01B3, [5], .config⟩ p s = true → Completes (exec (.spindleConfig p) s) fun t =>
       t.spn.cfgStored = clampWord [fIn 31 28 2 8, fIn 27 20 25 100, fIn 19 16 1 15, fIn 15 12 2 15, fIn 11 8 2 8, fAny 7 4] 0 (p.w 0) ∧
       t.spn.startStored = clampWord [fIn 31 24 5 100, fIn 23 16 20 250, fIn 15 8 10 150, fIn 7 4 1 8] 0 (p.w 1) ∧
       t.spn.nPav = pavaneSpeed t.spn.inertia t.spn.pDrag t.spn.pavE ∧ t.spn.pavLim = decide (9600 < t.spn.nPav) ∧
       t.spn.cfg = s.spn.cfg ∧ t.spn.start = s.spn.start ∧ t = ({ s with spn := t.spn, nor := t.nor } : State).afterReply t) ∧
  -- SPINDLE_RUN_STOP: R371
  (∀ (s : State) (p : Packet), ready ⟨0x01B4, [5], .action⟩ p s = true → (p.w 0).getLsbD 0 = false →
   ((fins 4).all (fun (a : Eng) => s.rst.act[a].state == .unloaded) = true) → (s.spn.state = .run) →
     Completes (exec (.spindleRunStop p) s) fun t => t.spn.stopping = true ∧ t.spn.startRamp = .none ∧ t.spn.state = .run) ∧
  -- SPINDLE_RUN_START: R371
  (∀ (s : State) (p : Packet), ready ⟨0x01B4, [5], .action⟩ p s = true → (p.w 0).getLsbD 0 = true →
     (s.spn.state = .stopped) →
     Completes (exec (.spindleRunStart p) s) fun t =>
       t.spn.state = .detect ∧ t.spn.cfg = s.spn.cfgStored ∧ t.spn.tries = 0 ∧ t.spn.stopping = false ∧
       t = ({ s with spn := t.spn } : State).afterReply t) ∧
  -- SPINDLE_CHOPPER_TEST: R372
  (∀ (s : State) (p : Packet), ready ⟨0x01B5, [5], .action⟩ p s = true → (s.spn.brkMode = .none) → (s.spn.vbus < 13000) →
     s.spn.chopFault = false →
     Completes (exec (.spindleChopperTest p) s) fun t =>
       (let ma := (Config.freeValue s.free).toNat % 65536
        let bad := ({ s.spn with chopOn := true } : Spindle).shuntBad ma
        t.spn.chopFault = bad ∧ t.spn.chopI = ma ∧ t.spn.chopFaultCnt = (if bad then inc 16 s.spn.chopFaultCnt else s.spn.chopFaultCnt)) ∧
       t = ({ s with spn := t.spn, free := t.free } : State).afterReply t) ∧
  -- SPINDLE_CLEAR: R17
  (∀ (s : State) (p : Packet), ready ⟨0x01B6, [5], .action⟩ p s = true → Completes (exec (.spindleClear p) s) fun t =>
       t.spn = { s.spn with
         skipCnt := clr (fld (p.w 0) 12 0) 0 s.spn.skipCnt, forceCnt := clr (fld (p.w 0) 12 0) 1 s.spn.forceCnt
         predCnt := clr (fld (p.w 0) 12 0) 2 s.spn.predCnt, lockLossCnt := clr (fld (p.w 0) 12 0) 3 s.spn.lockLossCnt
         catchCnt := clr (fld (p.w 0) 12 0) 4 s.spn.catchCnt, startCnt := clr (fld (p.w 0) 12 0) 5 s.spn.startCnt
         startFailCnt := clr (fld (p.w 0) 12 0) 6 s.spn.startFailCnt, chopFaultCnt := clr (fld (p.w 0) 12 0) 7 s.spn.chopFaultCnt
         chopHotCnt := clr (fld (p.w 0) 12 0) 8 s.spn.chopHotCnt, ovCnt := clr (fld (p.w 0) 12 0) 9 s.spn.ovCnt
         ovStopCnt := clr (fld (p.w 0) 12 0) 10 s.spn.ovStopCnt, bandSwCnt := clr (fld (p.w 0) 12 0) 11 s.spn.bandSwCnt
         lockLosses := if (fld (p.w 0) 12 0).testBit 12 then [] else s.spn.lockLosses } ∧
       t = ({ s with spn := t.spn } : State).afterReply t)

/-- The power arbiter, the thermal samples and the budget packets: THERMAL_SAMPLE, BOLERO_EVALUATION, POWER_EPOCH,
EST_OFS_UPDATE, ISLAND_CLOCK_CHANGE, BUDGET_SET, BUDGET_STATUS, BUDGET_CONSUMER and BUDGET_CLEAR complete on the states
their clauses name, each with the next state its clause gives. The rules each clause rests on stand before it. -/
def Obligations.PowerAndThermal : Prop :=
  -- THERMAL_SAMPLE: R299, R552, R554
  (∀ (s : State) (l : List Int), ((fins 8).all (fun (z : Fin 8) => decide ((l[z.val]?).getD 0 < 1680)) = true) →
     ((fins 8).all (fun (i : Fin 8) => !(s.throttle l i).2.2) = true) →
     Completes (exec (.thermalSample l) s) fun t =>
       (∀ z : Fin 8, t.lpe.temps[z] = (l[z.val]?).getD 0) ∧
       t.pwr.hot = (s.pwr.hot && !(fins 8).all fun (z : Fin 8) => decide ((l[z.val]?).getD 0 < 1600)) ∧
       (∀ i : Fin 8, t.pwr.thrStep[i] = (s.throttle l i).1) ∧ t.pwr.thrCnt = s.pwr.thrCnt) ∧
  -- THERMAL_SAMPLE (hot): R299, R552, R554
  (∀ (s : State) (l : List Int), ((fins 8).any (fun (z : Fin 8) => decide (1680 ≤ (l[z.val]?).getD 0)) = true) →
     Completes (exec (.thermalSample l) s) fun t =>
       (∀ z : Fin 8, t.lpe.temps[z] = (l[z.val]?).getD 0) ∧ t.pwr.hot = true ∧ (∀ i : Fin 8, t.pwr.thrStep[i] = (s.throttle l i).1)) ∧
  -- BOLERO_EVALUATION: R358, R361, R370, R550
  (∀ (s : State), (s.spn.state = .run) → s.spn.set.bolEn = true → s.anyLocked = true →
     (2 * s.pwr.revRefused ≤ s.pwr.revEpochs) →
     Completes (exec (.boleroEvaluation s.refEngine) s) fun t =>
       t.pwr = { s.pwr with
         nCap := if s.pwr.nLift ≤ (if s.pwr.revRefused = 0 then s.pwr.cleanRevs + 1 else 0) then s.spn.set.bolMax else s.pwr.nCap
         cleanRevs := if s.pwr.revRefused = 0 then s.pwr.cleanRevs + 1 else 0, revEpochs := 0, revRefused := 0, accDraw := 0 } ∧
       t.spn = s.spn.apply.evaluate s.readStaged s.writeWaiting t.pwr.nCap ∧ t = { s with pwr := t.pwr, spn := t.spn }) ∧
  -- BOLERO_EVALUATION (off): R358, R361
  (∀ (s : State), s.spn.set.bolEn = false →
     Completes (exec (.boleroEvaluation s.refEngine) s) fun t => t = { s with spn := { s.spn with sums := {} } }) ∧
  -- POWER_EPOCH: R70, R539, R549, R552, R555, R556, R544
  (∀ (s : State) (e : EpochIn), s.epochBegins = true → Completes (exec (.powerEpoch e) s) fun t =>
       t.pwr.epoch = (s.pwr.epoch + 1) % 2 ^ 64 ∧ t.pwr.meas12 = e.p12.toNat ∧ t.pwr.meas3 = e.p3.toNat ∧
       t.pwr.arbLateCnt = (if e.ready then s.pwr.arbLateCnt else inc 32 s.pwr.arbLateCnt) ∧
       t.pwr.late.isSome = !e.ready ∧ t.pwr.revEpochs = (if e.ready then s.pwr.revEpochs + 1 else s.pwr.revEpochs)) ∧
  -- POWER_EPOCH (late): R541
  (∀ (s : State) (e : EpochIn) (l : List PowerReq), s.epochBegins = false → (s.pwr.late = some l) → e.ready = true →
     Completes (exec (.powerEpoch e) s) fun t =>
       t.pwr.late = none ∧ t.pwr.epoch = s.pwr.epoch ∧ t.pwr.arbLateCnt = s.pwr.arbLateCnt ∧ t.pwr.revEpochs = s.pwr.revEpochs + 1) ∧
  -- EST_OFS_UPDATE: R539
  (∀ (s : State), (64 ≤ s.pwr.sumN) → (102 * s.pwr.ceilNow < 100 * (s.pwr.sumMeas / 64) → s.pwr.overSet = true) →
     Completes (exec .estOfsUpdate s) fun t =>
       t.pwr = { s.pwr with
         estOfs := clampInt (-500) 2000 (s.pwr.estOfs + ((s.pwr.sumMeas : Int) - s.pwr.sumEst) / 64 / 8)
         sumMeas := 0, sumEst := 0, sumN := 0
         overSet := decide (102 * s.pwr.ceilNow < 100 * (s.pwr.sumMeas / 64)) ||
           (s.pwr.overSet && decide (s.pwr.ceilNow < s.pwr.sumMeas / 64)) } ∧
       t = { s with pwr := t.pwr }) ∧
  -- EST_OFS_UPDATE (over): R539
  (∀ (s : State), (64 ≤ s.pwr.sumN) → (102 * s.pwr.ceilNow < 100 * (s.pwr.sumMeas / 64)) → s.pwr.overSet = false →
     Completes (exec .estOfsUpdate s) fun t =>
       t.pwr.overSet = true ∧ t.pwr.overCnt = inc 32 s.pwr.overCnt ∧ t = ({ s with pwr := t.pwr } : State).afterEvent t) ∧
  -- ISLAND_CLOCK_CHANGE: R551
  (∀ (s : State) (a : Eng), s.enginePresent a = true → (s.pwr.eng[a].k ≠ s.pwr.eng[a].kWant) → s.eng[a].seq.jobPend = 0 →
     Completes (exec (.islandClockChange a) s) fun t =>
       t.pwr.eng[a].k = s.pwr.eng[a].kWant ∧ t.pwr.eng[a].vsup = s.vsupOf s.pwr.eng[a].kWant ∧
       (∀ b, a ≠ b → t.pwr.eng[b] = s.pwr.eng[b]) ∧ t = { s with pwr := t.pwr }) ∧
  -- BUDGET_SET: R557
  (∀ (s : State) (p : Packet), ready ⟨0x0200, [5], .config⟩ p s = true → Completes (exec (.budgetSet p) s) fun t =>
       t.pwr.budget = (clampWord [fIn 31 0 10000 35000] (nw s.pwr.budget) (p.w 0)).toNat ∧
       t.pwr.cfg = clampWord [fIn 31 24 0 200, fIn 23 16 8 255, fIn 15 12 0 8, fIn 11 8 1 15] s.pwr.cfg (p.w 1) ∧
       t.pwr.cost1 = clampWord [fIn 31 24 10 100, fIn 23 16 5 100, fIn 15 8 10 150, fIn 7 0 20 250] s.pwr.cost1 (p.w 2) ∧
       t.pwr.cost2 = clampWord [fAny 31 16, fIn 15 8 10 255, fIn 7 0 5 60] s.pwr.cost2 (p.w 3) ∧
       t.pwr.galopMw = clampWord [fIn 31 24 1 255, fIn 23 16 1 255, fIn 15 8 1 255, fIn 7 0 1 255] s.pwr.galopMw (p.w 4) ∧
       t.pwr.rCoil = (clampWord [fIn 15 0 1000 20000] (nw s.pwr.rCoil) (p.w 5)).toNat ∧
       t.pwr.committed = s.pwr.committed ∧ t.pwr.granted = s.pwr.granted ∧
       Answered s t 0x0200 p [nw t.pwr.budget, t.pwr.cfg, t.pwr.cost1, t.pwr.cost2, t.pwr.galopMw, nw t.pwr.rCoil] ∧
       t = ({ s with pwr := t.pwr, nor := t.nor } : State).afterReply t) ∧
  -- BUDGET_STATUS: R521
  (∀ (s : State) (p : Packet), ready ⟨0x0201, [5], .read⟩ p s = true →
     Completes (exec (.budgetStatus p) s) fun t => Answered s t 0x0201 p (stPwr s) ∧ t = s.afterReply t) ∧
  -- BUDGET_CONSUMER: R558
  (∀ (s : State) (p : Packet), ready ⟨0x0202, [3, 4, 5], .read⟩ p s = true → p.lvl = 3 → s.head[p.hd].map.depop = false →
     (p.idx < 24) →
     Completes (exec (.budgetConsumer p) s) fun t =>
       Answered s t 0x0202 p [rHdPwr s.pwr.head[p.hd], rHdReq s.pwr.head[p.hd], nw s.pwr.head[p.hd].refCnt] ∧ t = s.afterReply t) ∧
  -- BUDGET_CONSUMER (engine): R558
  (∀ (s : State) (p : Packet) (a : Eng), ready ⟨0x0202, [3, 4, 5], .read⟩ p s = true → p.lvl = 4 → (p.idx = a.val) →
     Completes (exec (.budgetConsumer p) s) fun t =>
       Answered s t 0x0202 p [rEngPwr s.pwr.eng[a], if s.engineFailed a then 0 else rEngReq s.pwr.eng[a], rZoneAllow s.pwr ⟨a.val, by omega⟩] ∧
       t = s.afterReply t) ∧
  -- BUDGET_CONSUMER (module): R558
  (∀ (s : State) (p : Packet), ready ⟨0x0202, [3, 4, 5], .read⟩ p s = true → p.lvl = 5 →
     Completes (exec (.budgetConsumer p) s) fun t =>
       Answered s t 0x0202 p
         [rZoneAllow s.pwr 4, rZoneAllow s.pwr 5, rZoneAllow s.pwr 6, rZoneAllow s.pwr 7, rEstOfs s.pwr, nw s.pwr.arbLateCnt] ∧
       t = s.afterReply t) ∧
  -- BUDGET_CLEAR: R17
  (∀ (s : State) (p : Packet) (g : Head), ready ⟨0x0203, [5], .action⟩ p s = true → ((p.w 1).toNat = g.val) →
     (g.val < s.layout.total) →
     Completes (exec (.budgetClear p) s) fun t =>
       t.pwr.accRefCnt = clr (fld (p.w 0) 7 0) 0 s.pwr.accRefCnt ∧ t.pwr.headRefCnt = clr (fld (p.w 0) 7 0) 1 s.pwr.headRefCnt ∧
       t.pwr.seekDegCnt = clr (fld (p.w 0) 7 0) 2 s.pwr.seekDegCnt ∧ t.pwr.yield3Cnt = clr (fld (p.w 0) 7 0) 3 s.pwr.yield3Cnt ∧
       t.pwr.overCnt = clr (fld (p.w 0) 7 0) 4 s.pwr.overCnt ∧ t.pwr.thrCnt = clr (fld (p.w 0) 7 0) 5 s.pwr.thrCnt ∧
       t.pwr.arbLateCnt = clr (fld (p.w 0) 7 0) 6 s.pwr.arbLateCnt ∧
       t.pwr.head[g] = { s.pwr.head[g] with refCnt := clr (fld (p.w 0) 7 0) 7 s.pwr.head[g].refCnt } ∧
       (∀ k, g ≠ k → t.pwr.head[k] = s.pwr.head[k]) ∧ t = ({ s with pwr := t.pwr } : State).afterReply t)

/-- The microwords that steer a program, and the fragments given to it: FRAGMENT_ENQUEUE, INC, BR, LOOP, CALL, RET, WAIT,
WAIT_COMPLETE and RTT complete on the states their clauses name, each with the next state its clause gives. The rules
each clause rests on stand before it. -/
def Obligations.SequencerControl : Prop :=
  -- FRAGMENT_ENQUEUE: R374, R385
  (∀ (s : State) (a : Eng) (e : BitVec 128) (f : Fragment), s.enginePresent a = true → (fragmentOf e = some f) →
     (s.eng[a].seq.fq.length < 512) →
     Completes (exec (.fragmentEnqueue a e) s) fun t =>
       t.eng[a].seq = { s.eng[a].seq with
         fq := insertFragment f s.eng[a].seq.fq, aborted := s.eng[a].seq.aborted.filter fun x => x != f.ctx } ∧
       (∀ b, a ≠ b → t.eng[b] = s.eng[b]) ∧ t = { s with eng := t.eng }) ∧
  -- INC: R388
  (∀ (s : State) (a : Eng), s.seqReady a = true → s.eng[a].seq.waitDone = false → s.eng[a].seq.fetchCheck = none →
   mfld s.eng[a].seq.current 127 125 = 0 → mfld s.eng[a].seq.current 104 101 = 0 → mfld s.eng[a].seq.current 94 92 = 0 →
     mfld s.eng[a].seq.current 76 65 = 0 →
     Completes (exec (.inc a) s) fun t =>
       t.eng[a].seq = { s.eng[a].seq with upc := (s.eng[a].seq.upc + 1) % 8192 } ∧
       (∀ b, a ≠ b → t.eng[b] = s.eng[b]) ∧ t = { s with eng := t.eng }) ∧
  -- BR: R388
  (∀ (s : State) (a : Eng), s.seqReady a = true → s.eng[a].seq.waitDone = false → s.eng[a].seq.fetchCheck = none →
   mfld s.eng[a].seq.current 127 125 = 1 → mfld s.eng[a].seq.current 104 101 = 0 → mfld s.eng[a].seq.current 94 92 = 0 →
     mfld s.eng[a].seq.current 76 65 = 0 →
     Completes (exec (.br a) s) fun t =>
       t.eng[a].seq = { s.eng[a].seq with
         upc := if microHolds s.eng[a].seq.current (s.seqConds a s.eng[a].seq.current) then mfld s.eng[a].seq.current 119 107
           else (s.eng[a].seq.upc + 1) % 8192 } ∧
       (∀ b, a ≠ b → t.eng[b] = s.eng[b]) ∧ t = { s with eng := t.eng }) ∧
  -- LOOP: R388
  (∀ (s : State) (a : Eng), s.seqReady a = true → s.eng[a].seq.waitDone = false → s.eng[a].seq.fetchCheck = none →
   mfld s.eng[a].seq.current 127 125 = 2 → mfld s.eng[a].seq.current 104 101 = 0 → mfld s.eng[a].seq.current 94 92 = 0 →
     mfld s.eng[a].seq.current 76 65 = 0 →
     Completes (exec (.loop a) s) fun t =>
       (let i : Fin 4 := finMod 4 (by decide) (mfld s.eng[a].seq.current 106 105)
        t.eng[a].seq = { s.eng[a].seq with
          lc := vset s.eng[a].seq.lc i (s.eng[a].seq.lc[i] - 1)
          upc := if s.eng[a].seq.lc[i] - 1 = 0 then (s.eng[a].seq.upc + 1) % 8192 else mfld s.eng[a].seq.current 119 107 }) ∧
       (∀ b, a ≠ b → t.eng[b] = s.eng[b]) ∧ t = { s with eng := t.eng }) ∧
  -- CALL: R388
  (∀ (s : State) (a : Eng), s.seqReady a = true → s.eng[a].seq.waitDone = false → s.eng[a].seq.fetchCheck = none →
   mfld s.eng[a].seq.current 127 125 = 3 → mfld s.eng[a].seq.current 104 101 = 0 → mfld s.eng[a].seq.current 94 92 = 0 →
   mfld s.eng[a].seq.current 76 65 = 0 → (s.eng[a].seq.regs.stack.length < 4) →
     Completes (exec (.call a) s) fun t =>
       t.eng[a].seq.upc = mfld s.eng[a].seq.current 119 107 ∧
       t.eng[a].seq.regs = { s.eng[a].seq.regs with stack := (s.eng[a].seq.upc + 1) % 8192 :: s.eng[a].seq.regs.stack } ∧
       t.eng[a].seq = { s.eng[a].seq with upc := t.eng[a].seq.upc, banks := t.eng[a].seq.banks } ∧
       (∀ b, a ≠ b → t.eng[b] = s.eng[b]) ∧ t = { s with eng := t.eng }) ∧
  -- RET: R388
  (∀ (s : State) (a : Eng) (r : Nat) (l : List Nat), s.seqReady a = true → s.eng[a].seq.waitDone = false →
   s.eng[a].seq.fetchCheck = none → mfld s.eng[a].seq.current 127 125 = 4 → mfld s.eng[a].seq.current 104 101 = 0 →
   mfld s.eng[a].seq.current 94 92 = 0 → mfld s.eng[a].seq.current 76 65 = 0 → (s.eng[a].seq.regs.stack = r :: l) →
     Completes (exec (.ret a) s) fun t =>
       t.eng[a].seq.upc = r ∧ t.eng[a].seq.regs = { s.eng[a].seq.regs with stack := l } ∧
       t.eng[a].seq = { s.eng[a].seq with upc := t.eng[a].seq.upc, banks := t.eng[a].seq.banks } ∧
       (∀ b, a ≠ b → t.eng[b] = s.eng[b]) ∧ t = { s with eng := t.eng }) ∧
  -- WAIT: R388
  (∀ (s : State) (a : Eng), s.seqReady a = true → s.eng[a].seq.waitDone = false → s.eng[a].seq.fetchCheck = none →
   mfld s.eng[a].seq.current 127 125 = 5 → mfld s.eng[a].seq.current 104 101 = 0 → mfld s.eng[a].seq.current 94 92 = 0 →
   mfld s.eng[a].seq.current 76 65 = 0 → (waitsOn s.eng[a].seq.current ≠ some 0) →
     microHolds s.eng[a].seq.current (s.seqConds a s.eng[a].seq.current) = false →
     Completes (exec (.wait a) s) fun t =>
       t.eng[a].seq = { s.eng[a].seq with waitDone := true, waitSince := s.angle a } ∧
       (∀ b, a ≠ b → t.eng[b] = s.eng[b]) ∧ t = { s with eng := t.eng }) ∧
  -- WAIT (atOnce): R388
  (∀ (s : State) (a : Eng), s.seqReady a = true → s.eng[a].seq.waitDone = false → s.eng[a].seq.fetchCheck = none →
   mfld s.eng[a].seq.current 127 125 = 5 → mfld s.eng[a].seq.current 104 101 = 0 → mfld s.eng[a].seq.current 94 92 = 0 →
   mfld s.eng[a].seq.current 76 65 = 0 → waitsOn s.eng[a].seq.current = none →
     microHolds s.eng[a].seq.current (s.seqConds a s.eng[a].seq.current) = true →
     Completes (exec (.wait a) s) fun t =>
       t.eng[a].seq = { s.eng[a].seq with upc := (s.eng[a].seq.upc + 1) % 8192, waitDone := false } ∧
       (∀ b, a ≠ b → t.eng[b] = s.eng[b]) ∧ t = { s with eng := t.eng }) ∧
  -- WAIT_COMPLETE: R376, R388
  (∀ (s : State) (a : Eng) (c : Fin 32), s.seqReady a = true → s.eng[a].seq.waitDone = true →
   (waitsOn s.eng[a].seq.current = some c) → (c ≠ 0) → s.eng[a].seq.tags[c].fired = true →
     Completes (exec (.waitComplete a) s) fun t =>
       t.eng[a].seq = { s.eng[a].seq with
         upc := (s.eng[a].seq.upc + 1) % 8192, waitDone := false
         tags := vmod s.eng[a].seq.tags c fun t => { t with fired := false } } ∧
       (∀ b, a ≠ b → t.eng[b] = s.eng[b]) ∧ t = { s with eng := t.eng }) ∧
  -- WAIT_COMPLETE (job): R376, R388
  (∀ (s : State) (a : Eng), s.seqReady a = true → s.eng[a].seq.waitDone = true →
   (waitsOn s.eng[a].seq.current = some 0) → (0 < s.eng[a].seq.jobPend) → mfld s.eng[a].seq.current 91 87 = 0 →
     Completes (exec (.waitComplete a) s) fun t =>
       t.eng[a].seq = { s.eng[a].seq with
         upc := (s.eng[a].seq.upc + 1) % 8192, waitDone := false, jobPend := s.eng[a].seq.jobPend - 1
         jobwin := Stamp.ofLinear ((s.eng[a].seq.jobwin.linear + 65536) % angleModulus), inJob := true, eNow := s.eng[a].seq.jobE } ∧
       (∀ b, a ≠ b → t.eng[b] = s.eng[b]) ∧ t = { s with eng := t.eng }) ∧
  -- RTT: R393
  (∀ (s : State) (a : Eng), s.seqReady a = true → s.eng[a].seq.waitDone = false → s.eng[a].seq.fetchCheck = none →
   mfld s.eng[a].seq.current 127 125 = 6 → mfld s.eng[a].seq.current 104 101 = 0 → mfld s.eng[a].seq.current 94 92 = 0 →
   mfld s.eng[a].seq.current 76 65 = 0 → (s.eng[a].seq.state = .trap) → s.eng[a].seq.nextTrap = none →
     s.eng[a].seq.tsv[5].getLsbD 31 = false →
     Completes (exec (.rtt a) s) fun t =>
       t.eng[a].seq.state = .run ∧ t.eng[a].seq.bank = 0 ∧ t.eng[a].seq.upc = fld s.eng[a].seq.tsv[0] 12 0 ∧
       t.eng[a].seq.waitDone = s.eng[a].seq.savedWait ∧ t.eng[a].seq.trapHeads = 0 ∧ t.eng[a].wrg.trapMask = 0 ∧
       (∀ b, a ≠ b → t.eng[b] = s.eng[b]) ∧ t = { s with eng := t.eng })

/-- The microwords that move and compute data: LDS, ADD, LDF, LDE, LEAD, WIN, MOV, LDW, POP, ARMED, SKIP, NOTE, CLRF, SET,
DEC and FCNT complete on the states their clauses name, each with the next state its clause gives. The rules each clause
rests on stand before it. -/
def Obligations.SequencerData : Prop :=
  -- LDS: R388
  (∀ (s : State) (a : Eng) (dst : Fin 8), s.seqRuns a = true → Completes (exec (.lds a dst) s) fun t =>
       t.eng[a].seq.a dst = Stamp.ofLinear ((s.angle a) % angleModulus) ∧
       t.eng[a].seq = { s.eng[a].seq with banks := t.eng[a].seq.banks } ∧ (∀ i, dst ≠ i → t.eng[a].seq.a i = s.eng[a].seq.a i) ∧
       (∀ b, a ≠ b → t.eng[b] = s.eng[b]) ∧ t = { s with eng := t.eng }) ∧
  -- ADD: R388
  (∀ (s : State) (a : Eng) (dst src : Fin 8) (imm : Word), s.seqRuns a = true →
     Completes (exec (.add a dst src imm) s) fun t =>
       t.eng[a].seq.a dst = Stamp.ofLinear ((angleAdd (s.eng[a].seq.a src).linear imm.toInt) % angleModulus) ∧
       t.eng[a].seq = { s.eng[a].seq with banks := t.eng[a].seq.banks } ∧ (∀ i, dst ≠ i → t.eng[a].seq.a i = s.eng[a].seq.a i) ∧
       (∀ b, a ≠ b → t.eng[b] = s.eng[b]) ∧ t = { s with eng := t.eng }) ∧
  -- LDF: R388
  (∀ (s : State) (a : Eng) (dst : Fin 8), s.seqRuns a = true → Completes (exec (.ldf a dst) s) fun t =>
       t.eng[a].seq.a dst = Stamp.ofLinear ((s.eng[a].seq.frag.start.linear) % angleModulus) ∧
       t.eng[a].seq = { s.eng[a].seq with banks := t.eng[a].seq.banks } ∧ (∀ i, dst ≠ i → t.eng[a].seq.a i = s.eng[a].seq.a i) ∧
       (∀ b, a ≠ b → t.eng[b] = s.eng[b]) ∧ t = { s with eng := t.eng }) ∧
  -- LDE: R388
  (∀ (s : State) (a : Eng) (dst : Fin 8), s.seqRuns a = true → Completes (exec (.lde a dst) s) fun t =>
       t.eng[a].seq.a dst = Stamp.ofLinear ((angleAdd s.eng[a].seq.frag.start.linear s.eng[a].seq.frag.len) % angleModulus) ∧
       t.eng[a].seq = { s.eng[a].seq with banks := t.eng[a].seq.banks } ∧ (∀ i, dst ≠ i → t.eng[a].seq.a i = s.eng[a].seq.a i) ∧
       (∀ b, a ≠ b → t.eng[b] = s.eng[b]) ∧ t = { s with eng := t.eng }) ∧
  -- LEAD: R388
  (∀ (s : State) (a : Eng) (dst src : Fin 8) (imm : BitVec 16), s.seqRuns a = true →
     Completes (exec (.lead a dst src imm) s) fun t =>
       t.eng[a].seq.a dst = Stamp.ofLinear ((angleAdd (s.eng[a].seq.a src).linear (-(s.leadAngle a (if imm = 0 then s.eng[a].seq.wenLead else imm.toNat) : Int))) % angleModulus) ∧
       t.eng[a].seq = { s.eng[a].seq with banks := t.eng[a].seq.banks } ∧ (∀ i, dst ≠ i → t.eng[a].seq.a i = s.eng[a].seq.a i) ∧
       (∀ b, a ≠ b → t.eng[b] = s.eng[b]) ∧ t = { s with eng := t.eng }) ∧
  -- WIN: R388
  (∀ (s : State) (a : Eng) (dst src : Fin 8), s.seqRuns a = true → Completes (exec (.win a dst src) s) fun t =>
       t.eng[a].seq.a dst = Stamp.ofLinear (((((s.eng[a].seq.a src).linear / 65536 + 1) * 65536)) % angleModulus) ∧
       t.eng[a].seq = { s.eng[a].seq with banks := t.eng[a].seq.banks } ∧ (∀ i, dst ≠ i → t.eng[a].seq.a i = s.eng[a].seq.a i) ∧
       (∀ b, a ≠ b → t.eng[b] = s.eng[b]) ∧ t = { s with eng := t.eng }) ∧
  -- MOV: R388
  (∀ (s : State) (a : Eng) (dst src : Fin 8), s.seqRuns a = true → Completes (exec (.mov a dst src) s) fun t =>
       t.eng[a].seq.a dst = Stamp.ofLinear (((s.eng[a].seq.a src).linear) % angleModulus) ∧
       t.eng[a].seq = { s.eng[a].seq with banks := t.eng[a].seq.banks } ∧ (∀ i, dst ≠ i → t.eng[a].seq.a i = s.eng[a].seq.a i) ∧
       (∀ b, a ≠ b → t.eng[b] = s.eng[b]) ∧ t = { s with eng := t.eng }) ∧
  -- LDW: R388
  (∀ (s : State) (a : Eng) (dst : Fin 8), s.seqRuns a = true → Completes (exec (.ldw a dst) s) fun t =>
       t.eng[a].seq.a dst = Stamp.ofLinear ((s.eng[a].seq.jobwin.linear) % angleModulus) ∧
       t.eng[a].seq = { s.eng[a].seq with banks := t.eng[a].seq.banks } ∧ (∀ i, dst ≠ i → t.eng[a].seq.a i = s.eng[a].seq.a i) ∧
       (∀ b, a ≠ b → t.eng[b] = s.eng[b]) ∧ t = { s with eng := t.eng }) ∧
  -- POP: R388
  (∀ (s : State) (a : Eng), s.seqRuns a = true → Completes (exec (.pop a) s) fun t =>
       t.eng[a].seq = (match s.eng[a].seq.fq with
         | f :: l => { s.eng[a].seq with fq := l, banks := vmod s.eng[a].seq.banks s.eng[a].seq.bank fun b => { b with frag := f } }
         | [] => s.eng[a].seq) ∧
       (∀ b, a ≠ b → t.eng[b] = s.eng[b]) ∧ t = { s with eng := t.eng }) ∧
  -- ARMED: R388
  (∀ (s : State) (a : Eng), s.seqRuns a = true → Completes (exec (.armed a) s) fun t =>
       t.eng[a].seq = { s.eng[a].seq with armed := s.eng[a].seq.frag :: s.eng[a].seq.armed } ∧
       (∀ b, a ≠ b → t.eng[b] = s.eng[b]) ∧ t = { s with eng := t.eng }) ∧
  -- SKIP: R388
  (∀ (s : State) (a : Eng), s.seqRuns a = true → Completes (exec (.skip a) s) fun t =>
       t.eng[a].seq = { s.eng[a].seq with skipped := s.eng[a].seq.frag :: s.eng[a].seq.skipped } ∧
       (∀ b, a ≠ b → t.eng[b] = s.eng[b]) ∧ t = { s with eng := t.eng }) ∧
  -- NOTE: R388
  (∀ (s : State) (a : Eng) (imm : BitVec 16), s.seqRuns a = true → Completes (exec (.note a imm) s) fun t =>
       t.eng[a].seq = { s.eng[a].seq with mailbox := imm :: s.eng[a].seq.mailbox, coreFlag := false } ∧
       (∀ b, a ≠ b → t.eng[b] = s.eng[b]) ∧ t = { s with eng := t.eng }) ∧
  -- CLRF: R388
  (∀ (s : State) (a : Eng) (imm : BitVec 16), s.seqRuns a = true → Completes (exec (.clrf a imm) s) fun t =>
       t.eng[a].seq = { s.eng[a].seq with
         late := s.eng[a].seq.late && !imm.getLsbD 0, runEnd := s.eng[a].seq.runEnd && !imm.getLsbD 1 } ∧
       (∀ b, a ≠ b → t.eng[b] = s.eng[b]) ∧ t = { s with eng := t.eng }) ∧
  -- SET: R388
  (∀ (s : State) (a : Eng) (lc : Fin 4) (imm : BitVec 16), s.seqRuns a = true →
     Completes (exec (.set a lc imm) s) fun t =>
       t.eng[a].seq = { s.eng[a].seq with lc := vset s.eng[a].seq.lc lc imm } ∧
       (∀ b, a ≠ b → t.eng[b] = s.eng[b]) ∧ t = { s with eng := t.eng }) ∧
  -- DEC: R388
  (∀ (s : State) (a : Eng) (lc : Fin 4), s.seqRuns a = true → Completes (exec (.dec a lc) s) fun t =>
       t.eng[a].seq = { s.eng[a].seq with lc := vset s.eng[a].seq.lc lc (if s.eng[a].seq.lc[lc] = 0 then 0 else s.eng[a].seq.lc[lc] - 1) } ∧
       (∀ b, a ≠ b → t.eng[b] = s.eng[b]) ∧ t = { s with eng := t.eng }) ∧
  -- FCNT: R388
  (∀ (s : State) (a : Eng) (lc : Fin 4), s.seqRuns a = true → Completes (exec (.fcnt a lc) s) fun t =>
       t.eng[a].seq = { s.eng[a].seq with lc := vset s.eng[a].seq.lc lc (BitVec.ofNat 16 s.eng[a].seq.fq.length) } ∧
       (∀ b, a ≠ b → t.eng[b] = s.eng[b]) ∧ t = { s with eng := t.eng })

/-- The microwords that use comparators, and traps, holds and restarts: ARM, ARMR, ARMF, ARMF_STALL_END, DIS, DISM, DROP,
CORE_TRAP_REQUEST, WAIT_TIMEOUT, TRAP_ENTRY, SEQUENCER_RESTART, SEQ_HOLD_ENTRY and SEQ_HOLD_RESUME complete on the
states their clauses name, each with the next state its clause gives. The rules each clause rests on stand before it. -/
def Obligations.SequencerComparators : Prop :=
  -- ARM: R387, R380
  (∀ (s : State) (a : Eng) (x : ArmOp), s.seqRuns a = true → (x.cact.val ≤ 4) →
     (((s.eng[a].seq.arm x).refusable && reached (s.angle a) (s.eng[a].seq.a x.careg).linear) = false) →
     Completes (exec (.arm a x) s) fun t =>
       t.eng[a].reel.cmp[seqCmp x.csel] = { s.eng[a].reel.cmp[seqCmp x.csel] with
         armed := true, action := x.cact.val, headMask := s.eng[a].seq.mask x.hsrc x.hmask, repeat_ := 0
         target := s.eng[a].seq.a x.careg, loWritten := false, hiWritten := false, armedAt := some s.mtime } ∧
       t.eng[a].seq.tags[x.csel] = { fired := false, stb := x.stb, final := x.cfin && s.eng[a].seq.frag.final, sstart := x.csst, frag := s.eng[a].seq.frag } ∧
       (∀ c, seqCmp x.csel ≠ c → t.eng[a].reel.cmp[c] = s.eng[a].reel.cmp[c]) ∧
       (∀ b, a ≠ b → t.eng[b] = s.eng[b]) ∧ t = { s with eng := t.eng }) ∧
  -- ARM (late): R387, R380
  (∀ (s : State) (a : Eng) (x : ArmOp), s.seqRuns a = true → x.cact.val = 1 →
     reached (s.angle a) (s.eng[a].seq.a x.careg).linear = true →
     Completes (exec (.arm a x) s) fun t =>
       t.eng[a].seq = { s.eng[a].seq with late := true, lateArmCnt := inc 32 s.eng[a].seq.lateArmCnt } ∧
       t.eng[a].reel.cmp = s.eng[a].reel.cmp ∧ t = ({ s with eng := t.eng } : State).afterEvent t) ∧
  -- ARMR: R380
  (∀ (s : State) (a : Eng) (x : ArmOp) (rep : BitVec 16), s.seqRuns a = true → (x.cact.val ≤ 4) →
     (((s.eng[a].seq.arm x).refusable && reached (s.angle a) (s.eng[a].seq.a x.careg).linear) = false) →
     Completes (exec (.armr a x rep) s) fun t =>
       t.eng[a].reel.cmp[seqCmp x.csel] = { s.eng[a].reel.cmp[seqCmp x.csel] with
         armed := true, action := x.cact.val, headMask := s.eng[a].seq.mask x.hsrc x.hmask, repeat_ := rep
         target := s.eng[a].seq.a x.careg, loWritten := false, hiWritten := false, armedAt := some s.mtime } ∧
       t.eng[a].seq.tags[x.csel] = { fired := false, stb := x.stb, final := x.cfin && s.eng[a].seq.frag.final, sstart := x.csst, frag := s.eng[a].seq.frag } ∧
       (∀ b, a ≠ b → t.eng[b] = s.eng[b]) ∧ t = { s with eng := t.eng }) ∧
  -- ARMF: R381
  (∀ (s : State) (a : Eng) (x : ArmOp) (c : Fin 32), s.seqRuns a = true → (x.cact.val ≤ 4) →
     (((s.eng[a].seq.arm x).refusable && reached (s.angle a) (s.eng[a].seq.a x.careg).linear) = false) →
     (s.freeCmp a = some c) →
     Completes (exec (.armf a x) s) fun t =>
       t.eng[a].reel.cmp[seqCmp c] = { s.eng[a].reel.cmp[seqCmp c] with
         armed := true, action := x.cact.val, headMask := s.eng[a].seq.mask x.hsrc x.hmask, repeat_ := 0
         target := s.eng[a].seq.a x.careg, loWritten := false, hiWritten := false, armedAt := some s.mtime } ∧
       t.eng[a].seq.tags[c].fired = false ∧ (∀ b, a ≠ b → t.eng[b] = s.eng[b]) ∧ t = { s with eng := t.eng }) ∧
  -- ARMF (stall): R381
  (∀ (s : State) (a : Eng) (x : ArmOp), s.seqRuns a = true → (x.cact.val ≤ 4) → s.freeCmp a = none →
     Completes (exec (.armf a x) s) fun t =>
       t.eng[a].seq = { s.eng[a].seq with
         stall := some (s.eng[a].seq.arm x, none), stallCnt := satAdd 32 s.eng[a].seq.stallCnt 1 } ∧
       (∀ b, a ≠ b → t.eng[b] = s.eng[b]) ∧ t = { s with eng := t.eng }) ∧
  -- ARMF_STALL_END: R381
  (∀ (s : State) (a : Eng) (x : SeqArm) (c : Fin 32), (s.eng[a].seq.stall = some (x, none)) → (s.freeCmp a = some c) →
     ((x.refusable && reached (s.angle a) x.target.linear) = false) →
     Completes (exec (.armfStallEnd a) s) fun t =>
       t.eng[a].seq.stall = none ∧
       t.eng[a].reel.cmp[seqCmp c] = { s.eng[a].reel.cmp[seqCmp c] with
         armed := true, action := x.action, headMask := x.mask, repeat_ := 0, target := x.target, loWritten := false, hiWritten := false, armedAt := some s.mtime } ∧
       (∀ b, a ≠ b → t.eng[b] = s.eng[b]) ∧ t = { s with eng := t.eng }) ∧
  -- DIS: R388
  (∀ (s : State) (a : Eng) (c : Fin 32), s.seqRuns a = true → Completes (exec (.dis a c) s) fun t =>
       t.eng[a].reel.cmp[seqCmp c] = s.eng[a].reel.cmp[seqCmp c].disarm ∧ t.eng[a].reel.cmp[seqCmp c].armed = false ∧
       (∀ d, seqCmp c ≠ d → t.eng[a].reel.cmp[d] = s.eng[a].reel.cmp[d]) ∧ (∀ b, a ≠ b → t.eng[b] = s.eng[b]) ∧ t = { s with eng := t.eng }) ∧
  -- DISM: R388
  (∀ (s : State) (a : Eng) (f : Bool) (m : BitVec 12), s.seqRuns a = true → Completes (exec (.dism a f m) s) fun t =>
       (∀ c : CmpIx, 17 ≤ c.val → c.val ≤ 47 → s.eng[a].reel.cmp[c].headMask &&& s.eng[a].seq.mask f m ≠ 0 → t.eng[a].reel.cmp[c].armed = false) ∧
       (∀ c : CmpIx, c.val < 17 ∨ 47 < c.val ∨ s.eng[a].reel.cmp[c].headMask &&& s.eng[a].seq.mask f m = 0 → t.eng[a].reel.cmp[c] = s.eng[a].reel.cmp[c]) ∧
       (∀ b, a ≠ b → t.eng[b] = s.eng[b]) ∧ t = { s with eng := t.eng }) ∧
  -- DROP: R388
  (∀ (s : State) (a : Eng) (f : Bool) (m : BitVec 12), s.seqRuns a = true →
     Completes (exec (.drop a f m) s) fun t => t = (s.headsIn a (s.eng[a].seq.mask f m)).foldl State.dropHead s) ∧
  -- CORE_TRAP_REQUEST: R389
  (∀ (s : State) (a : Eng), s.enginePresent a = true → (s.eng[a].seq.state = .run) →
     Completes (exec (.coreTrapRequest a) s) fun t =>
       t.eng[a].seq.trapPend.getLsbD 3 = true ∧ (∀ b, a ≠ b → t.eng[b] = s.eng[b]) ∧ t = { s with eng := t.eng }) ∧
  -- WAIT_TIMEOUT: R389
  (∀ (s : State) (a : Eng), s.seqRuns a = true → (s.eng[a].seq.state = .run) → s.eng[a].seq.waitDone = true →
     (waitsOn s.eng[a].seq.current ≠ some 0) →
     ((s.eng[a].seq.waitMax * 65536 : Nat) < angleDiff (s.angle a) s.eng[a].seq.waitSince) →
     Completes (exec (.waitTimeout a) s) fun t =>
       t.eng[a].seq.trapPend.getLsbD 2 = true ∧ (∀ b, a ≠ b → t.eng[b] = s.eng[b]) ∧ t = { s with eng := t.eng }) ∧
  -- TRAP_ENTRY: R389, R391, R390
  (∀ (s : State) (a : Eng) (i : Fin 4), s.enginePresent a = true → (s.eng[a].seq.state = .run) →
   s.eng[a].seq.stall = none → (s.eng[a].seq.nextTrap = some i) →
     Completes (exec (.trapEntry a) s) fun t =>
       t.eng[a].seq.state = .trap ∧ t.eng[a].seq.bank = 1 ∧ t.eng[a].seq.upc = 0x10 + 4 * (i.val + 1) ∧
       t.eng[a].seq.tsv = s.savedTrap a (i.val + 1) ∧ t.eng[a].seq.savedWait = s.eng[a].seq.waitDone ∧
       t.eng[a].seq.waitDone = false ∧ t.eng[a].seq.trapPend.getLsbD i.val = false ∧ t.eng[a].seq.trapHeads = s.trapHeads a ∧
       t.eng[a].wrg.trapMask = s.trapHeads a) ∧
  -- SEQUENCER_RESTART: R395
  (∀ (s : State) (a : Eng), s.enginePresent a = true → (s.eng[a].seq.state = .mchk) →
     Completes (exec (.sequencerRestart a) s) fun t =>
       t.eng[a].seq.state = .run ∧ t.eng[a].seq.upc = 4 ∧ t.eng[a].seq.bank = 0 ∧ t.eng[a].seq.store = s.storeCopy ∧
       t.eng[a].seq.fq = [] ∧ t.eng[a].seq.jobPend = 0) ∧
  -- SEQ_HOLD_ENTRY: R398
  (∀ (s : State) (a : Eng), s.enginePresent a = true → s.eng[a].seq.holdReq = true → (s.eng[a].seq.state = .run) →
   s.eng[a].seq.waitDone = true → (waitsOn s.eng[a].seq.current = some 0) → s.eng[a].seq.jobPend = 0 →
   s.eng[a].seq.trapPend = 0 → s.holdFits a = true →
     Completes (exec (.seqHoldEntry a) s) fun t =>
       t.eng[a].seq = { s.eng[a].seq with state := .hold } ∧ (∀ b, a ≠ b → t.eng[b] = s.eng[b]) ∧ t = { s with eng := t.eng }) ∧
  -- SEQ_HOLD_RESUME: R398
  (∀ (s : State) (a : Eng), s.enginePresent a = true → (s.eng[a].seq.state = .hold) → s.eng[a].seq.holdImage = none →
     Completes (exec (.seqHoldResume a) s) fun t =>
       t.eng[a].seq = { s.eng[a].seq with state := .run, upc := 8, waitDone := false, holdReq := false } ∧
       (∀ b, a ≠ b → t.eng[b] = s.eng[b]))

/-- The packets of the track sequencer: SEQ_STATUS, SEQ_CONFIG, SEQ_TRAPSAVE, SEQ_WORD and SEQ_CLEAR complete on the states
their clauses name, each with the next state its clause gives. The rules each clause rests on stand before it. -/
def Obligations.SequencerPackets : Prop :=
  -- SEQ_STATUS: R521
  (∀ (s : State) (p : Packet), ready ⟨0x01C0, [4], .read⟩ p s = true →
     Completes (exec (.seqStatus p) s) fun t => Answered s t 0x01C0 p (stSeq s p.eng) ∧ t = s.afterReply t) ∧
  -- SEQ_CONFIG: R399, R400
  (∀ (s : State) (p : Packet), ready ⟨0x01C1, [4], .config⟩ p s = true → Completes (exec (.seqConfig p) s) fun t =>
       (let j := seqJobWord (rSeqJob s.eng[p.eng].seq) (p.w 0)
        let c := clampWord [fIn 31 24 1 255, fIn 23 19 8 24, fIn 11 0 150 3000] (rSeqCfg s.eng[p.eng].seq) (p.w 1)
        t.eng[p.eng].seq = { s.eng[p.eng].seq with
          jobE := fld j 31 16, jobS := fld j 15 0, waitMax := fld c 31 24, rdTail := fld c 23 19, wenLead := fld c 11 0 } ∧
        Answered s t 0x01C1 p [j, c]) ∧
       (∀ b, p.eng ≠ b → t.eng[b] = s.eng[b]) ∧ t = ({ s with eng := t.eng, nor := t.nor } : State).afterReply t) ∧
  -- SEQ_TRAPSAVE: R391
  (∀ (s : State) (p : Packet), ready ⟨0x01C2, [4], .read⟩ p s = true →
     Completes (exec (.seqTrapsave p) s) fun t => Answered s t 0x01C2 p (s.eng[p.eng].seq.tsv.toList.take 6) ∧ t = s.afterReply t) ∧
  -- SEQ_WORD: R400
  (∀ (s : State) (p : Packet), ready ⟨0x01C3, [4], .read⟩ p s = true → ((p.w 0).toNat < 8192) →
     Completes (exec (.seqWord p) s) fun t =>
       (let x := s.eng[p.eng].seq.wordAt (clampWord [fIn 31 0 0 8191] 0 (p.w 0)).toNat
        Answered s t 0x01C3 p [nw (mfld x.word 31 0), nw (mfld x.word 63 32), nw (mfld x.word 95 64), nw (mfld x.word 127 96), x.parity.setWidth 32]) ∧
       t = s.afterReply t) ∧
  -- SEQ_CLEAR: R17
  (∀ (s : State) (p : Packet), ready ⟨0x01C4, [4], .action⟩ p s = true → Completes (exec (.seqClear p) s) fun t =>
       t.eng[p.eng].seq = { s.eng[p.eng].seq with
         mcCnt := clr (fld (p.w 0) 4 0) 0 s.eng[p.eng].seq.mcCnt
         trapCnt := if (fld (p.w 0) 4 0).testBit 1 then Vector.replicate 4 0 else s.eng[p.eng].seq.trapCnt
         lateArmCnt := clr (fld (p.w 0) 4 0) 2 s.eng[p.eng].seq.lateArmCnt, notrdyCnt := clr (fld (p.w 0) 4 0) 3 s.eng[p.eng].seq.notrdyCnt
         stallCnt := clr (fld (p.w 0) 4 0) 4 s.eng[p.eng].seq.stallCnt } ∧
       (∀ b, p.eng ≠ b → t.eng[b] = s.eng[b]) ∧ t = ({ s with eng := t.eng } : State).afterReply t)

/-- The log groups, the indirection, compaction and the zone descriptor cache: LOG_GROUP_CLOSE, INDIRECTION_UPDATE,
COMPACTION, ZDC_ACCESS, ZDC_FILL_DONE, ZDC_WRITEBACK_DONE, ZDC_PIN, HEAD_DEPOPULATE and ZONE_FINISH_RECOMMENDED complete
on the states their clauses name, each with the next state its clause gives. The rules each clause rests on stand before
it. -/
def Obligations.ZonesAndCache : Prop :=
  -- LOG_GROUP_CLOSE: R417
  (∀ (s : State) (a : Eng) (g : LogGroup), (s.openGroup a = some g) → s.groupDue a g = true →
     Completes (exec (.logGroupClose a) s) fun t =>
       (∀ y ∈ t.media.groups[a], y.seq = g.seq → y.closed = true) ∧ (∀ b, a ≠ b → t.media.groups[b] = s.media.groups[b]) ∧
       t.q.buffered = s.q.buffered ++ [{ ctx := 0, fn := 0, nsid := 0, startNo := 2 ^ 64 + s.free, slba := 0, zone := some g.zone
                                         zofs := (s.zoneDesc g.zone).wp, blocks := [{ here := true, data := g.summaryBlock }], credits := 0 }]) ∧
  -- INDIRECTION_UPDATE: R417, R418, R485
  (∀ (s : State) (a : Eng) (g : LogGroup), (s.media.groups[a].find? (fun g => g.closed && !g.summary) = some g) →
   s.groupSafe a g = true → (s.media.compacting = Vector.replicate 4 none) →
     Completes (exec (.indirectionUpdate a) s) fun t =>
       t.media.indir = (s.media.updateIndir a g).indir ∧
       t.media.groups[a] = s.media.groups[a].map (fun y => if y.seq = g.seq then { y with summary := true } else y)) ∧
  -- COMPACTION: R418
  (∀ (s : State) (a : Eng) (z : ZoneNo) (m : Nat), s.enginePresent a = true → s.engineFailed a = false →
   s.media.compacting[a] = none → (((s.logZones a).filter fun p => p.2.wp == 0).length < 2) →
     (((s.logZones a).filter fun p => decide (0 < p.2.wp) && !s.media.groups[a].any fun g => g.zone == p.1 && !g.summary).foldl (fun (b : Option (ZoneNo × Nat)) p => match b with | some (_, m) => if (s.liveIn p.1).length < m then some (p.1, (s.liveIn p.1).length) else b | none => some (p.1, (s.liveIn p.1).length)) none = some (z, m)) →
     (0 < m) →
     Completes (exec (.compaction a) s) fun t => t.media.compacting[a] = some z ∧ t.media.indir = s.media.indir) ∧
  -- ZDC_ACCESS: R410, R420, R421, R423, R427
  (∀ (s : State) (a : Eng) (z : ZoneNo) (i : Fin 48), s.enginePresent a = true → s.zoneOf a z = true →
   s.eng[a].zdc.invalidating z = false → (s.eng[a].zdc.missWait = []) → s.eng[a].zdc.fillOf z = none →
   (s.eng[a].zdc.lineOf z = some i) → s.eng[a].zdc.lines[i].bad = false →
     Completes (exec (.zdcAccess a z .read) s) fun t =>
       t.eng[a].zdc = { s.eng[a].zdc with
         hitCnt := inc 32 s.eng[a].zdc.hitCnt, clock := s.eng[a].zdc.clock + 1
         lines := vset s.eng[a].zdc.lines i { s.eng[a].zdc.lines[i] with used := s.eng[a].zdc.clock } } ∧
       (∀ b, a ≠ b → t.eng[b] = s.eng[b]) ∧ t = { s with eng := t.eng }) ∧
  -- ZDC_ACCESS (miss): R410, R420, R421, R423, R427
  (∀ (s : State) (a : Eng) (z : ZoneNo) (i : Fin 48), s.enginePresent a = true → s.zoneOf a z = true →
   s.eng[a].zdc.invalidating z = false → (s.eng[a].zdc.missWait = []) → s.eng[a].zdc.fillOf z = none →
   s.eng[a].zdc.lineOf z = none → s.eng[a].zdc.victimOf z = none → (s.eng[a].zdc.policy z ≠ .na) →
   (s.eng[a].zdc.pick = some i) → (s.eng[a].zdc.lines[i].state = .invalid) →
     Completes (exec (.zdcAccess a z .read) s) fun t =>
       t.eng[a].zdc.missCnt = inc 32 s.eng[a].zdc.missCnt ∧ t.eng[a].zdc.lines[i].state = .fill ∧ t.eng[a].zdc.lines[i].zone = z ∧
       t.eng[a].zdc.lines[i].waiters = [.read] ∧ (∀ b, a ≠ b → t.eng[b] = s.eng[b]) ∧ t = { s with eng := t.eng }) ∧
  -- ZDC_FILL_DONE: R421, R425, R427
  (∀ (s : State) (a : Eng) (z : ZoneNo) (i : Fin 48), (s.eng[a].zdc.fillOf z = some i) →
   (s.eng[a].zdc.lines[i].waiters = []) → (s.eng[a].zdc.missWait = []) → (s.eng[a].zdc.pinWait = []) →
   (s.eng[a].zdc.invVictims = []) → (s.eng[a].zdc.lines.toList.all (fun l => !l.flushWait && !l.invWait) = true) →
     Completes (exec (.zdcFillDone a z false) s) fun t =>
       t.eng[a].zdc.lines[i] = { s.eng[a].zdc.lines[i] with
         state := .clean, desc := (alookup s.media.zones z).getD {}, waiters := [] } ∧
       (∀ j, i ≠ j → t.eng[a].zdc.lines[j] = s.eng[a].zdc.lines[j]) ∧ t.media = s.media) ∧
  -- ZDC_WRITEBACK_DONE: R422, R423
  (∀ (s : State) (a : Eng) (v : Fin 4), (s.eng[a].zdc.victims[v].state = .begun) → (s.eng[a].zdc.missWait = []) →
   (s.eng[a].zdc.pinWait = []) → (s.eng[a].zdc.invVictims = []) →
     (s.eng[a].zdc.lines.toList.all (fun l => !l.flushWait && !l.invWait) = true) →
     Completes (exec (.zdcWritebackDone a v) s) fun t =>
       alookup t.media.zones s.eng[a].zdc.victims[v].zone = some s.eng[a].zdc.victims[v].desc ∧
       t.eng[a].zdc.wbCnt = inc 32 s.eng[a].zdc.wbCnt ∧ t.eng[a].zdc.victims[v].state = .free) ∧
  -- ZDC_PIN: R419
  (∀ (s : State) (a : Eng) (z : ZoneNo) (i : Fin 48), s.enginePresent a = true → s.zoneOf a z = true →
   (s.eng[a].zdc.lineOf z = some i) → (s.eng[a].zdc.pinWait = []) →
     (0 < s.eng[a].zdc.lines[i].pins ∨ s.eng[a].zdc.pinned < s.eng[a].zdc.pinMax) →
     Completes (exec (.zdcPin a z) s) fun t =>
       t.eng[a].zdc = { s.eng[a].zdc with lines := vmod s.eng[a].zdc.lines i fun l => { l with pins := inc 5 l.pins } } ∧
       (∀ b, a ≠ b → t.eng[b] = s.eng[b]) ∧ t = { s with eng := t.eng }) ∧
  -- HEAD_DEPOPULATE: R428, R436
  (∀ (s : State) (p : Packet), ready ⟨0x01D9, [3], .action⟩ p s = true → p.w 0 = 0x4445504F →
     s.head[p.hd].map.depop = false →
     Completes (exec (.headDepopulate p) s) fun t => t.head[p.hd].map.depop = true ∧ t.nor.heads[p.hd].depop = true) ∧
  -- ZONE_FINISH_RECOMMENDED: R455, R456
  (∀ (s : State) (z : ZoneNo) (x : MTime), (alookup s.host.zoneTimes z = some x) →
   (s.zoneDesc z).zs.openOrClosed = true → (s.zoneDesc z).zfr = false →
     (0 < s.host.zfrl ∧ x + s.host.zfrl * 3600 * 3000000000 ≤ s.mtime) →
     Completes (exec (.zoneFinishRecommended z) s) fun t => t = (s.setZone z fun d => { d with zfr := true }).zoneNotice z)

/-- The packets of the zones, of their cache and of the media map: ZONE_STATUS, ZONE_CACHE_STATUS, ZONE_CACHE_CONFIG,
ZONE_CACHE_FLUSH, ZONE_CACHE_INVALIDATE, ZONE_CACHE_CLEAR, MAP_BAND, MAP_REGION and MAP_CONV complete on the states
their clauses name, each with the next state its clause gives. The rules each clause rests on stand before it. -/
def Obligations.ZoneAndMapPackets : Prop :=
  -- ZONE_STATUS: R521
  (∀ (s : State) (p : Packet), ready ⟨0x01D0, [4], .read⟩ p s = true → s.zoneOf p.eng p.zone = true →
     Completes (exec (.zoneStatus p) s) fun t => Answered s t 0x01D0 p ((s.zoneDesc p.zone).words.take 6) ∧ t = s.afterReply t) ∧
  -- ZONE_CACHE_STATUS: R521
  (∀ (s : State) (p : Packet), ready ⟨0x01D1, [4], .read⟩ p s = true →
     Completes (exec (.zoneCacheStatus p) s) fun t => Answered s t 0x01D1 p (stZdc s p.eng) ∧ t = s.afterReply t) ∧
  -- ZONE_CACHE_CONFIG: R426, R434
  (∀ (s : State) (p : Packet), ready ⟨0x01D2, [4], .config⟩ p s = true → Completes (exec (.zoneCacheConfig p) s) fun t =>
       (let cfg := clampWord [fIn 31 26 8 44, fAny 0 0] (rZdcCfg s.eng[p.eng].zdc) (p.w 0)
        t.eng[p.eng].zdc.pinMax = fld cfg 31 26 ∧ t.eng[p.eng].zdc.depKeep = cfg.getLsbD 0) ∧
       (∀ i : Fin 6, ∀ n : Fin 8, n.val = fld (p.w 13) 2 0 + i.val → t.eng[p.eng].zdc.rbase[n] = rbaseWord (p.w (1 + 2 * i.val))) ∧
       (∀ n : Fin 8, n.val < fld (p.w 13) 2 0 ∨ fld (p.w 13) 2 0 + 6 ≤ n.val →
         t.eng[p.eng].zdc.rbase[n] = s.eng[p.eng].zdc.rbase[n] ∧ t.eng[p.eng].zdc.rlim[n] = s.eng[p.eng].zdc.rlim[n])) ∧
  -- ZONE_CACHE_FLUSH: R424
  (∀ (s : State) (p : Packet), ready ⟨0x01D3, [4], .action⟩ p s = true →
     (((p.w 0).getLsbD 31 || s.zoneOf p.eng p.zone) = true) →
     (s.eng[p.eng].zdc.lines.toList.all (fun l => l.state != .fill && !l.flushWait && !l.invWait) = true) →
     (s.eng[p.eng].zdc.missWait = []) →
     Completes (exec (.zoneCacheFlush p) s) fun t =>
       (∀ i : Fin 48, ((p.w 0).getLsbD 31 = true ∨ s.eng[p.eng].zdc.lines[i].zone = p.zone) → t.eng[p.eng].zdc.lines[i].state ≠ .dirty) ∧
       Answered s t 0x01D3 p [rZdcStatus t.eng[p.eng].zdc]) ∧
  -- ZONE_CACHE_INVALIDATE: R425
  (∀ (s : State) (p : Packet), ready ⟨0x01D4, [4], .action⟩ p s = true →
     (((p.w 0).getLsbD 31 || s.zoneOf p.eng p.zone) = true) →
     (s.eng[p.eng].zdc.lines.toList.all (fun l => l.state != .fill && l.pins == 0 && !l.flushWait && !l.invWait) = true) →
   (s.eng[p.eng].zdc.victims.toList.all (fun v => v.state == .free) = true) → (s.eng[p.eng].zdc.missWait = []) →
     (s.eng[p.eng].zdc.invVictims = []) →
     Completes (exec (.zoneCacheInvalidate p) s) fun t =>
       (∀ i : Fin 48, ((p.w 0).getLsbD 31 = true ∨ s.eng[p.eng].zdc.lines[i].zone = p.zone) → t.eng[p.eng].zdc.lines[i].state = .invalid) ∧
       Answered s t 0x01D4 p [rZdcStatus t.eng[p.eng].zdc]) ∧
  -- ZONE_CACHE_CLEAR: R17
  (∀ (s : State) (p : Packet), ready ⟨0x01D5, [4], .action⟩ p s = true → Completes (exec (.zoneCacheClear p) s) fun t =>
       t.eng[p.eng].zdc = { s.eng[p.eng].zdc with
         hitCnt := clr (fld (p.w 0) 7 0) 0 s.eng[p.eng].zdc.hitCnt, missCnt := clr (fld (p.w 0) 7 0) 1 s.eng[p.eng].zdc.missCnt
         evictCnt := clr (fld (p.w 0) 7 0) 2 s.eng[p.eng].zdc.evictCnt, wbCnt := clr (fld (p.w 0) 7 0) 3 s.eng[p.eng].zdc.wbCnt
         declineCnt := clr (fld (p.w 0) 7 0) 4 s.eng[p.eng].zdc.declineCnt, vhitCnt := clr (fld (p.w 0) 7 0) 5 s.eng[p.eng].zdc.vhitCnt
         mwaitCnt := clr (fld (p.w 0) 7 0) 6 s.eng[p.eng].zdc.mwaitCnt, lerrCnt := clr (fld (p.w 0) 7 0) 7 s.eng[p.eng].zdc.lerrCnt } ∧
       (∀ b, p.eng ≠ b → t.eng[b] = s.eng[b]) ∧ t = ({ s with eng := t.eng } : State).afterReply t) ∧
  -- MAP_BAND: R403, R404, R435
  (∀ (s : State) (p : Packet), ready ⟨0x01D6, [3], .config⟩ p s = true → s.head[p.hd].map.depop = false →
     Completes (exec (.mapBand p) s) fun t =>
       (alookup t.nor.bandsPending (p.hd, p.band)).map (·.firstTrk) =
         some (if p.band = 0 then 0 else (clampWord [fAny 21 0] 0 (p.w 1)).toNat) ∧
       (∀ g : Head, ∀ b : Fin 64, t.bandEntry g b = s.bandEntry g b) ∧ t = ({ s with nor := t.nor } : State).afterReply t) ∧
  -- MAP_REGION: R401, R435
  (∀ (s : State) (p : Packet), ready ⟨0x01D7, [4], .config⟩ p s = true → Completes (exec (.mapRegion p) s) fun t =>
       (alookup t.nor.engs[p.eng].regionsPending (finMod 8 (by decide) (fld (p.w 0) 2 0))).map (fun r => (r.firstTrk, r.lastTrk)) =
         some (fld (p.w 1) 21 0, fld (p.w 2) 21 0) ∧
       t.media = s.media ∧ t = ({ s with nor := t.nor } : State).afterReply t) ∧
  -- MAP_CONV: R415
  (∀ (s : State) (p : Packet), ready ⟨0x01D8, [5], .config⟩ p s = true → Completes (exec (.mapConv p) s) fun t =>
       (let w := clampWord [fIn 31 0 0 20] 0 (p.w 0)
        t.nor.convPct = w.toNat ∧ t.media = { s.media with convNext := w.toNat } ∧ Answered s t 0x01D8 p [w]) ∧
       t = ({ s with nor := t.nor, media := t.media } : State).afterReply t)

/-- The I/O commands once their context starts: COMMAND_START, WRITE, READ, VERIFY, WRITE_ZEROES, DATASET_MANAGEMENT,
ZONE_APPEND and FLUSH complete on the states their clauses name, each with the next state its clause gives. The rules
each clause rests on stand before it. -/
def Obligations.IoCommands : Prop :=
  -- COMMAND_START: R480, R481
  (∀ (s : State) (x : CtxIx) (c : Ctx), (s.ctx x = some c) → s.mayStartCmd c = true →
     Completes (exec (.commandStart x) s) fun t =>
       t.q.startNo = (s.q.startNo + 1) % 2 ^ 64 ∧
       ∀ e, (s.begun x).startStatus c = some e → t = (s.begun x).modCtx x fun c => c.finish e) ∧
  -- COMMAND_START (checked): R480, R481
  (∀ (s : State) (x : CtxIx) (c : Ctx) (e : NvStatus), (s.ctx x = some c) → s.mayStartCmd c = true →
     ((s.begun x).startStatus c = some e) →
     Completes (exec (.commandStart x) s) fun t => t = (s.begun x).modCtx x fun c => c.finish e) ∧
  -- WRITE: R482
  (∀ (s : State) (x : CtxIx) (c : Ctx) (n : Namespace) (z : ZoneNo) (o : Nat), (s.ctx x = some c) → c.sqe.opcode = 0x01 →
   s.mayStartCmd c = true → (s.nsOf c.fn c.sqe.nsid.toNat = some n) → (s.begun x).startStatus c = none → n.zoned = true →
     (n.place c.sqe.slba = some (z, o)) →
     Completes (exec (.write x) s) fun t =>
       t = ((s.begun x).modCtx x fun c =>
         { c with zone := some z, zofs := o, blocks := c.newBlocks n false 0, result := [] }).advanceZone z c.sqe.nlb) ∧
  -- WRITE (conventional): R482
  (∀ (s : State) (x : CtxIx) (c : Ctx) (n : Namespace), (s.ctx x = some c) → c.sqe.opcode = 0x01 →
   s.mayStartCmd c = true → (s.nsOf c.fn c.sqe.nsid.toNat = some n) → (s.begun x).startStatus c = none →
   n.zoned = false → n.place c.sqe.slba = none →
     Completes (exec (.write x) s) fun t =>
       t = (s.begun x).modCtx x fun c => { c with zone := none, zofs := 0, blocks := c.newBlocks n false 0, result := [] }) ∧
  -- READ: R484
  (∀ (s : State) (x : CtxIx) (c : Ctx) (n : Namespace), (s.ctx x = some c) → c.sqe.opcode = 0x02 →
   s.mayStartCmd c = true → (s.nsOf c.fn c.sqe.nsid.toNat = some n) → (s.begun x).startStatus c = none →
     Completes (exec (.read x) s) fun t =>
       t = (s.begun x).modCtx x fun c =>
         ({ c with blocks := (List.range c.sqe.nlb).map fun k => (s.begun x).readSource n (c.sqe.slba + k) } : Ctx).settleRead) ∧
  -- VERIFY: R447
  (∀ (s : State) (x : CtxIx) (c : Ctx) (n : Namespace), (s.ctx x = some c) → c.sqe.opcode = 0x0C →
   s.mayStartCmd c = true → (s.nsOf c.fn c.sqe.nsid.toNat = some n) → (s.begun x).startStatus c = none →
     Completes (exec (.verify x) s) fun t =>
       t = (s.begun x).modCtx x fun c =>
         ({ c with blocks := ((List.range c.sqe.nlb).map fun k => (s.begun x).readSource n (c.sqe.slba + k)).map fun b =>
           if b.here then { b with sent := true } else b } : Ctx).settleRead) ∧
  -- WRITE_ZEROES: R447
  (∀ (s : State) (x : CtxIx) (c : Ctx) (n : Namespace) (z : ZoneNo) (o : Nat), (s.ctx x = some c) → c.sqe.opcode = 0x08 →
   s.mayStartCmd c = true → (s.nsOf c.fn c.sqe.nsid.toNat = some n) → (s.begun x).startStatus c = none → n.zoned = true →
   (n.place c.sqe.slba = some (z, o)) → s.durableFirst c = false →
     Completes (exec (.writeZeroes x) s) fun t =>
       t = (((s.begun x).modCtx x fun c =>
         { c with zone := some z, zofs := o, blocks := c.newBlocks n true 0, result := [] }).modCtx x fun c => c.finish stOk).advanceZone z c.sqe.nlb) ∧
  -- DATASET_MANAGEMENT: R447
  (∀ (s : State) (x : CtxIx) (c : Ctx) (n : Namespace), (s.ctx x = some c) → c.sqe.opcode = 0x09 →
   s.mayStartCmd c = true → (s.nsOf c.fn c.sqe.nsid.toNat = some n) → (s.begun x).startStatus c = none →
     c.sqe.deac = true →
     Completes (exec (.datasetManagement x) s) fun t =>
       t = ((s.begun x).deallocate n.nsid ((s.q.startNo + 1) % 2 ^ 64) c.sqe.ranges).modCtx x fun c => c.finish stOk) ∧
  -- ZONE_APPEND: R482
  (∀ (s : State) (x : CtxIx) (c : Ctx) (n : Namespace) (z : ZoneNo) (o : Nat), (s.ctx x = some c) → c.sqe.opcode = 0x7D →
   s.mayStartCmd c = true → (s.nsOf c.fn c.sqe.nsid.toNat = some n) → (s.begun x).startStatus c = none → n.zoned = true →
   (n.place c.sqe.slba = some (z, o)) → c.sqe.piremap = false →
     Completes (exec (.zoneAppend x) s) fun t =>
       t = ((s.begun x).modCtx x fun c =>
         { c with
           sqe := { c.sqe with slba := c.sqe.slba + ((s.begun x).zoneDesc z).wp }, zone := some z, zofs := ((s.begun x).zoneDesc z).wp
           blocks := c.newBlocks n false 0, result := lohi (c.sqe.slba + ((s.begun x).zoneDesc z).wp) }).advanceZone z c.sqe.nlb) ∧
  -- FLUSH: R501
  (∀ (s : State) (x : CtxIx) (c : Ctx), (s.q.ctxs = [(x.val, c)]) → c.admin = false → c.sqe.opcode = 0x00 →
   c.finished = none → (c.ends = []) → (s.q.buffered.any (fun b => c.covers.contains b.startNo) = false) →
     Completes (exec (.flush x) s) fun t => t.q.ctxs = [(x.val, c.finish stOk)])

/-- The zone management commands: ZONE_RESET, ZONE_OPEN, ZONE_CLOSE, ZONE_FINISH, ZONE_OFFLINE and REPORT_ZONES complete on
the states their clauses name, each with the next state its clause gives. The rules each clause rests on stand before
it. -/
def Obligations.ZoneCommands : Prop :=
  -- ZONE_RESET: R411, R453
  (∀ (s : State) (x : CtxIx) (c : Ctx) (n : Namespace) (z : ZoneNo) (o : Nat), (s.ctx x = some c) → c.sqe.opcode = 0x79 →
   s.mayStartCmd c = true → (s.nsOf c.fn c.sqe.nsid.toNat = some n) → (s.begun x).startStatus c = none →
   (c.sqe.act = .reset) → c.sqe.selectAll = false → (n.place c.sqe.slba = some (z, o)) →
     Completes (exec (.zoneReset x) s) fun t =>
       t = ((s.begun x).resetZone z).modCtx x fun c => c.finish stOk) ∧
  -- ZONE_RESET (held): R411, R453
  (∀ (s : State) (x : CtxIx) (c : Ctx) (n : Namespace) (z : ZoneNo) (o : Nat) (i : Fin 48), (s.ctx x = some c) →
   c.sqe.opcode = 0x79 → s.mayStartCmd c = true → (s.nsOf c.fn c.sqe.nsid.toNat = some n) → (s.begun x).startStatus c = none →
   (c.sqe.act = .reset) → c.sqe.selectAll = false → (n.place c.sqe.slba = some (z, o)) →
   s.lineHeld z i = true → ((s.zoneDesc z).zs ≠ .log) → (s.q.ctxs = [(x.val, c)]) → (s.q.buffered = []) →
   s.eng[(s.zoneDesc z).engine].recv.jobs = Vector.replicate 16 none → (s.eng[(s.zoneDesc z).engine].recv.reallocs = []) →
     (s.media.remaps[(s.zoneDesc z).engine] = []) → (s.media.defects[(s.zoneDesc z).engine] = []) →
     Completes (exec (.zoneReset x) s) fun t => (t.ctx x).bind (·.finished) = some stOk ∧ (t.zoneDesc z).wp = 0 ∧
       (t.zoneDesc z).zgen = (s.zoneDesc z).zgen + 1 ∧ (t.zoneDesc z).zs = .empty) ∧
  -- ZONE_OPEN: R453
  (∀ (s : State) (x : CtxIx) (c : Ctx) (n : Namespace) (z : ZoneNo) (o : Nat), (s.ctx x = some c) → c.sqe.opcode = 0x79 →
   s.mayStartCmd c = true → (s.nsOf c.fn c.sqe.nsid.toNat = some n) → (s.begun x).startStatus c = none →
   (c.sqe.act = .open_) → c.sqe.selectAll = false → (n.place c.sqe.slba = some (z, o)) →
     (s.begun x).openLimit n ((s.begun x).zoneDesc z).zs = none →
     Completes (exec (.zoneOpen x) s) fun t =>
       t = ((s.begun x).enterZState z .expOpen).modCtx x fun c => c.finish stOk) ∧
  -- ZONE_OPEN (held): R453
  (∀ (s : State) (x : CtxIx) (c : Ctx) (n : Namespace) (z : ZoneNo) (o : Nat) (i : Fin 48), (s.ctx x = some c) →
   c.sqe.opcode = 0x79 → s.mayStartCmd c = true → (s.nsOf c.fn c.sqe.nsid.toNat = some n) → (s.begun x).startStatus c = none →
   (c.sqe.act = .open_) → c.sqe.selectAll = false → (n.place c.sqe.slba = some (z, o)) →
     (s.begun x).openLimit n ((s.begun x).zoneDesc z).zs = none → s.lineHeld z i = true →
     Completes (exec (.zoneOpen x) s) fun t => (t.ctx x).bind (·.finished) = some stOk ∧ (t.zoneDesc z).zs = .expOpen) ∧
  -- ZONE_CLOSE: R453
  (∀ (s : State) (x : CtxIx) (c : Ctx) (n : Namespace) (z : ZoneNo) (o : Nat), (s.ctx x = some c) → c.sqe.opcode = 0x79 →
   s.mayStartCmd c = true → (s.nsOf c.fn c.sqe.nsid.toNat = some n) → (s.begun x).startStatus c = none →
   (c.sqe.act = .close) → c.sqe.selectAll = false → (n.place c.sqe.slba = some (z, o)) →
     (((s.begun x).zoneDesc z).zs ≠ .closed) →
     Completes (exec (.zoneClose x) s) fun t =>
       t = ((s.begun x).enterZState z .closed).modCtx x fun c => c.finish stOk) ∧
  -- ZONE_CLOSE (held): R453
  (∀ (s : State) (x : CtxIx) (c : Ctx) (n : Namespace) (z : ZoneNo) (o : Nat) (i : Fin 48), (s.ctx x = some c) →
   c.sqe.opcode = 0x79 → s.mayStartCmd c = true → (s.nsOf c.fn c.sqe.nsid.toNat = some n) → (s.begun x).startStatus c = none →
   (c.sqe.act = .close) → c.sqe.selectAll = false → (n.place c.sqe.slba = some (z, o)) →
     s.lineHeld z i = true →
     Completes (exec (.zoneClose x) s) fun t => (t.ctx x).bind (·.finished) = some stOk ∧ (t.zoneDesc z).zs = .closed) ∧
  -- ZONE_FINISH: R453, R455
  (∀ (s : State) (x : CtxIx) (c : Ctx) (n : Namespace) (z : ZoneNo) (o : Nat), (s.ctx x = some c) → c.sqe.opcode = 0x79 →
   s.mayStartCmd c = true → (s.nsOf c.fn c.sqe.nsid.toNat = some n) → (s.begun x).startStatus c = none →
   (c.sqe.act = .finish) → c.sqe.selectAll = false → (n.place c.sqe.slba = some (z, o)) →
     (((s.begun x).zoneDesc z).zs ≠ .full) →
     Completes (exec (.zoneFinish x) s) fun t =>
       t = ((s.begun x).enterZState z .full).modCtx x fun c => c.finish stOk) ∧
  -- ZONE_FINISH (held): R453, R455
  (∀ (s : State) (x : CtxIx) (c : Ctx) (n : Namespace) (z : ZoneNo) (o : Nat) (i : Fin 48), (s.ctx x = some c) →
   c.sqe.opcode = 0x79 → s.mayStartCmd c = true → (s.nsOf c.fn c.sqe.nsid.toNat = some n) → (s.begun x).startStatus c = none →
   (c.sqe.act = .finish) → c.sqe.selectAll = false → (n.place c.sqe.slba = some (z, o)) →
     s.lineHeld z i = true →
     Completes (exec (.zoneFinish x) s) fun t => (t.ctx x).bind (·.finished) = some stOk ∧ (t.zoneDesc z).zs = .full) ∧
  -- ZONE_OFFLINE: R453
  (∀ (s : State) (x : CtxIx) (c : Ctx) (n : Namespace) (z : ZoneNo) (o : Nat), (s.ctx x = some c) → c.sqe.opcode = 0x79 →
   s.mayStartCmd c = true → (s.nsOf c.fn c.sqe.nsid.toNat = some n) → (s.begun x).startStatus c = none →
   (c.sqe.act = .offline) → c.sqe.selectAll = false → (n.place c.sqe.slba = some (z, o)) →
     Completes (exec (.zoneOffline x) s) fun t =>
       t = ((s.begun x).enterZState z .offline).modCtx x fun c => c.finish stOk) ∧
  -- ZONE_OFFLINE (held): R453
  (∀ (s : State) (x : CtxIx) (c : Ctx) (n : Namespace) (z : ZoneNo) (o : Nat) (i : Fin 48), (s.ctx x = some c) →
   c.sqe.opcode = 0x79 → s.mayStartCmd c = true → (s.nsOf c.fn c.sqe.nsid.toNat = some n) → (s.begun x).startStatus c = none →
   (c.sqe.act = .offline) → c.sqe.selectAll = false → (n.place c.sqe.slba = some (z, o)) →
     s.lineHeld z i = true →
     Completes (exec (.zoneOffline x) s) fun t => (t.ctx x).bind (·.finished) = some stOk ∧ (t.zoneDesc z).zs = .offline) ∧
  -- REPORT_ZONES: R453, R642
  (∀ (s : State) (x : CtxIx) (c : Ctx) (n : Namespace), (s.ctx x = some c) → c.admin = false → c.sqe.opcode = 0x7A →
   c.finished = none → s.nsStatus c = none → (s.nsOf c.fn c.sqe.nsid.toNat = some n) → c.sqe.reservedSet = false →
   (c.sqe.slba < n.size) → (n.zones.any (fun z => s.rst.rdfwdPend.contains z) = false) →
     Completes (exec (.reportZones x) s) fun t =>
       (let all := (n.zones.zipIdx.drop (c.sqe.slba / zoneSize)).filter fun p => zrasfTakes c.sqe.zrasf (s.zoneDesc p.1).zs
        let shown := all.take c.sqe.maxDescs
        (t.ctx x).bind (·.finished) = some stOk ∧ t = s.modCtx x fun c => { c.finish stOk with
          result := lohi (if c.sqe.partialReport then shown.length else all.length) ++ List.replicate 14 0 ++
            shown.flatMap fun p => (s.zoneDesc p.1).reported (p.2 * zoneSize) }))

/-- Fetching, credits, transfers, durable writes and completions: COMMAND_FETCH, CREDIT_GRANT, HOST_TRANSFER_DONE,
WRITE_DURABLE and COMPLETION_POST complete on the states their clauses name, each with the next state its clause gives.
The rules each clause rests on stand before it. -/
def Obligations.QueueEvents : Prop :=
  -- COMMAND_FETCH: R474, R477, R462, R476
  (∀ (s : State) (f : Fn) (sq : BitVec 16) (e : Sqe) (n : Nat) (w : Vector Nat 3) (q : SubQueue) (x : CtxIx),
   (s.nextFetch = some (f, sq.toNat, n, w)) → (s.host.fns[f].sqs.find? (fun q => q.id == sq.toNat) = some q) →
   e.badEntry = false → (s.freeCtx = some x) →
     Completes (exec (.commandFetch f sq e) s) fun t =>
       (t.ctx x).map (fun c => (c.fn, c.sq, c.sqe, c.needCredits, c.started)) = some (f, q.id, e, e.credits, false) ∧
       t.q.fetchNo = s.q.fetchNo + 1 ∧ t.q.turn = some (f, sq.toNat, n) ∧ t.q.lastFn = f ∧
       t.host.fns[f].sqs = s.host.fns[f].sqs.map (fun y =>
         if y.id = sq.toNat then { y with head := if y.head + 1 < y.size then y.head + 1 else 0 } else y) ∧
       (∀ g, f ≠ g → t.host.fns[g] = s.host.fns[g]) ∧ t = { s with host := t.host, q := t.q }) ∧
  -- CREDIT_GRANT: R479
  (∀ (s : State) (x : CtxIx) (c e : Ctx), (s.ctx x = some c) → (s.firstWaiting = some e) → c.wantsCredits = true →
   (c.fetchNo = e.fetchNo) → (c.needCredits ≤ s.q.creditsFree) →
     Completes (exec (.creditGrant x) s) fun t =>
       t = (s.modCtx x fun c => { c with credits := c.needCredits }).modQ fun q => { q with creditsFree := q.creditsFree - c.needCredits }) ∧
  -- HOST_TRANSFER_DONE: R30, R31, R484
  (∀ (s : State) (x : CtxIx) (c : Ctx), (s.ctx x = some c) → c.started = true → c.finished = none → c.writes = true →
   (c.blocks.all (·.here) = false) → c.sqe.badData = false → s.durableFirst c = false →
     Completes (exec (.hostTransferDone x) s) fun t =>
       (t.ctx x).map (fun c => (c.transferred, c.finished, c.blocks)) =
         some (true, some stOk, c.blocks.map fun b => { b with here := true }) ∧
       t.spn.sums.wh = s.spn.sums.wh + 4096 * c.blocks.length ∧ t = { s with q := t.q, spn := t.spn }) ∧
  -- HOST_TRANSFER_DONE (read): R30, R31, R484
  (∀ (s : State) (x : CtxIx) (c : Ctx), (s.ctx x = some c) → c.started = true → c.finished = none → c.writes = false →
     c.sqe.badData = false →
     Completes (exec (.hostTransferDone x) s) fun t =>
       (t.ctx x).map (·.blocks) =
         some (c.blocks.map fun b => if b.here && !b.sent && b.failed.isNone then { b with sent := true } else b) ∧
       t.q.staging = s.q.staging - c.staged ∧
       t.spn.sums.rh = s.spn.sums.rh + (if c.verify then 0
         else 4096 * (c.blocks.filter fun b => b.here && !b.sent && b.failed.isNone).length) ∧
       t = { s with q := t.q, spn := t.spn }) ∧
  -- HOST_TRANSFER_DONE (failed): R31, R447
  (∀ (s : State) (x : CtxIx) (c : Ctx), (s.ctx x = some c) → c.started = true → c.finished = none → c.writes = false →
     c.sqe.badData = true →
     Completes (exec (.hostTransferDone x) s) fun t => t = s.transferFailed x) ∧
  -- WRITE_DURABLE: R32, R33, R500, R638
  (∀ (s : State) (x : CtxIx) (b : BufferedWrite), s.ctx x = none →
     (s.q.buffered.find? (fun b => b.ctx == x && b.nsid != 0 && 0 < b.blocks.length && s.viewSafe b.view) = some b) →
     b.fault = false → b.lost = false →
     Completes (exec (.writeDurable x) s) fun t =>
       (∀ y ∈ t.q.buffered, y.startNo ≠ b.startNo) ∧ s.q.creditsFree + b.credits ≤ t.q.creditsFree) ∧
  -- COMPLETION_POST: R483
  (∀ (s : State) (x : CtxIx) (c : Ctx) (e : NvStatus) (q : SubQueue) (y : CompQueue), (s.ctx x = some c) →
     (c.finished = some e) → (c.writes = false → c.media = true → ∀ b ∈ c.blocks, b.sent = true ∨ b.failed.isSome = true) →
     ((c.media && c.started && s.q.ctxs.any fun p => p.2.media && p.2.fn == c.fn && p.2.sq == c.sq && decide (p.2.fetchNo < c.fetchNo)) = false) →
     (s.host.fns[c.fn].sqs.find? (fun q => q.id == c.sq) = some q) →
   (s.host.fns[c.fn].cqs.find? (fun y => y.id == q.cq) = some y) → y.full = false →
     Completes (exec (.completionPost x) s) fun t => t = s.postCtx x c e)

/-- The scheduler, the service contracts and the queue and QoS packets: SCHEDULER_DECISION, CONTRACT_DUE,
LATENCY_DEADLINE_MISS, FLOOR_WINDOW_END, QUEUE_STATUS, QUEUE_CONFIG, QUEUE_FUNCTION, QOS_ADMIT, QOS_REVOKE, QOS_STATUS
and QUEUE_CLEAR complete on the states their clauses name, each with the next state its clause gives. The rules each
clause rests on stand before it. -/
def Obligations.Scheduling : Prop :=
  -- SCHEDULER_DECISION: R274, R417, R487, R490
  (∀ (s : State) (a : Eng), s.enginePresent a = true → s.engineFailed a = false →
     Completes (exec (.schedulerDecision a) s) fun t =>
       ((t.q.chosen[a]).map (·.2)).Nodup ∧ (∀ b, a ≠ b → t.q.chosen[b] = s.q.chosen[b]) ∧
       (∀ b : Eng, t.eng[b].seq = s.eng[b].seq ∧ t.eng[b].reel = s.eng[b].reel) ∧ t.pwr = s.pwr ∧ t.wsl = s.wsl) ∧
  -- SCHEDULER_DECISION (one): R274, R417, R487, R490
  (∀ (s : State) (a : Eng) (i : Item), s.enginePresent a = true → s.engineFailed a = false → (s.q.ctxs = []) →
   (s.q.buffered = []) → (s.itemsOf a = [i]) → s.itemPermitted a i = true →
     (s.activationFits i.head (i.at_.track * 256) = true) →
     Completes (exec (.schedulerDecision a) s) fun t =>
       t.q.chosen[a] = [((i.ctx.map fun x => x.val).getD 4096, i.head.val)] ∧ t.head[i.head].srv.active = true ∧
       t.head[i.head].srv.tgt = i.at_.track * 256 ∧ t.q.agedCnt = satAdd 32 s.q.agedCnt (if i.tier = 3 then 1 else 0)) ∧
  -- CONTRACT_DUE: R490, R496
  (∀ (s : State) (x : CtxIx) (c : Ctx), (s.ctx x = some c) → (s.latencyOf c).isSome = true → c.finished = none →
     (s.deadlineOf c ≤ s.mtime + s.q.latGuard * 3000000) →
     Completes (exec (.contractDue x) s) fun t =>
       t.ctx x = some { c with due := true } ∧ t = { s with q := { s.q with ctxs := t.q.ctxs } }) ∧
  -- LATENCY_DEADLINE_MISS: R497
  (∀ (s : State) (x : CtxIx) (c : Ctx) (n : Nat) (k : Contract), (s.ctx x = some c) → (s.latencyOf c = some (n, k)) →
   c.missed = false → (s.deadlineOf c < s.mtime) → (c.overRate = false ∧ c.ladder = false ∧ c.activation = false) →
     Completes (exec (.latencyDeadlineMiss x) s) fun t =>
       t.ctx x = some { c with missed := true } ∧ (n, { k with yieldCnt := inc 32 k.yieldCnt, yielding := true }) ∈ t.q.contracts ∧
       t = ({ s with q := { s.q with ctxs := t.q.ctxs, contracts := t.q.contracts }, host := t.host, out := t.out } : State).afterEvent t) ∧
  -- LATENCY_DEADLINE_MISS (classed): R497
  (∀ (s : State) (x : CtxIx) (c : Ctx) (n : Nat) (k : Contract), (s.ctx x = some c) → (s.latencyOf c = some (n, k)) →
   c.missed = false → (s.deadlineOf c < s.mtime) → (c.overRate = true ∨ c.ladder = true ∨ c.activation = true) →
     Completes (exec (.latencyDeadlineMiss x) s) fun t =>
       t.ctx x = some { c with missed := true } ∧
       (n, if c.overRate then { k with overCnt := satAdd 16 k.overCnt 1 }
         else if c.ladder then { k with recCnt := satAdd 16 k.recCnt 1 }
         else { k with actCnt := satAdd 16 k.actCnt 1 }) ∈ t.q.contracts ∧
       t = { s with q := { s.q with ctxs := t.q.ctxs, contracts := t.q.contracts } }) ∧
  -- FLOOR_WINDOW_END: R496, R497
  (∀ (s : State) (n : ContractIx) (k : Contract), (alookup s.q.contracts n.val = some k) → k.floor = true →
   (k.winAt + s.q.floorWin * 30000000 ≤ s.mtime) → (k.waiting = true → k.rate * s.q.floorWin * 10000 ≤ k.winBytes) →
     Completes (exec (.floorWindowEnd n) s) fun t =>
       alookup t.q.contracts n.val = some { k with
         winAt := s.mtime, winBytes := 0, waiting := s.q.ctxs.any fun p => k.covers p.2
         worst := if k.waiting then (if k.worst = 0 then k.winBytes / (s.q.floorWin * 10000) else min k.worst (k.winBytes / (s.q.floorWin * 10000))) else k.worst } ∧
       t = { s with q := { s.q with contracts := t.q.contracts } }) ∧
  -- FLOOR_WINDOW_END (miss): R496, R497
  (∀ (s : State) (n : ContractIx) (k : Contract), (alookup s.q.contracts n.val = some k) → k.floor = true →
   (k.winAt + s.q.floorWin * 30000000 ≤ s.mtime) → k.waiting = true → (k.winBytes < k.rate * s.q.floorWin * 10000) →
     Completes (exec (.floorWindowEnd n) s) fun t =>
       alookup t.q.contracts n.val = some { k with
         winAt := s.mtime, winBytes := 0, waiting := s.q.ctxs.any fun p => k.covers p.2
         worst := if k.worst = 0 then k.winBytes / (s.q.floorWin * 10000) else min k.worst (k.winBytes / (s.q.floorWin * 10000))
         yieldCnt := inc 32 k.yieldCnt, yielding := true } ∧
       t = ({ s with q := { s.q with contracts := t.q.contracts }, host := t.host, out := t.out } : State).afterEvent t) ∧
  -- QUEUE_STATUS: R521
  (∀ (s : State) (p : Packet), ready ⟨0x01F0, [5], .read⟩ p s = true →
     Completes (exec (.queueStatus p) s) fun t => Answered s t 0x01F0 p (stQpl s) ∧ t = s.afterReply t) ∧
  -- QUEUE_CONFIG: R507, R508
  (∀ (s : State) (p : Packet) (w0 w1 w2 : Word), ready ⟨0x01F1, [5], .config⟩ p s = true →
     (p.words[(0 : Fin 14)] = w0 ∧ fld w0 31 24 ≤ fld w0 23 12 ∧ fld w0 31 24 ≤ 254 ∧ 64 ≤ fld w0 23 12 ∧ fld w0 23 12 ≤ 4064 ∧ fld w0 11 0 = 0) →
     (w1 = clampWord [fIn 31 24 2 64, fIn 23 16 2 255, fIn 15 8 50 95, fIn 7 0 5 100] 0 p.words[(1 : Fin 14)]) →
     (w2 = clampWord [fIn 31 24 10 90, fIn 23 12 20 400] 0 p.words[(2 : Fin 14)]) →
     Completes (exec (.queueConfig p) s) fun t =>
       t.q = { s.q with
         ctxMin := fld w0 31 24, ctxMax := fld w0 23 12, ageMax := fld w1 31 24, latGuard := fld w1 23 16, wbHigh := fld w1 15 8
         floorWin := fld w1 7 0, admBwPct := fld w2 31 24, admIops := fld w2 23 12 } ∧
       t.nor = { s.nor with queue := vset (vset (vset s.nor.queue 0 w0) 1 w1) 2 w2 } ∧ Answered s t 0x01F1 p [w0, w1, w2] ∧
       t = ({ s with q := t.q, nor := t.nor } : State).afterReply t) ∧
  -- QUEUE_FUNCTION: R521
  (∀ (s : State) (p : Packet), ready ⟨0x01F2, [7], .read⟩ p s = true →
     Completes (exec (.queueFunction p) s) fun t => Answered s t 0x01F2 p (stQfn s p.fnOf) ∧ t = s.afterReply t) ∧
  -- QOS_ADMIT: R491, R494, R508, R493
  (∀ (s : State) (p : Packet) (f : Fn) (sq n : Nat), ready ⟨0x01F3, [7], .action⟩ p s = true →
     (p.idx = f.val ∧ p.words[(0 : Fin 14)] = 0x10 ∧ (p.words[(1 : Fin 14)]).toNat = sq ∧ sq < 65536) →
     (sq ≠ 0 ∧ s.host.fns[f].sqs.any (fun q => q.id == sq) = true) →
     (s.q.contracts.any (fun c => c.2.fn == f && c.2.sq == sq && c.2.floor == false) = false) →
     ((List.range 256).find? (fun n => !s.q.contracts.any fun c => c.1 == n) = some n) →
     (s.lMin ≤ (p.words[(2 : Fin 14)]).toNat ∧ (p.words[(2 : Fin 14)]).toNat ≤ 10000 ∧ 1 ≤ (p.words[(3 : Fin 14)]).toNat ∧ (p.words[(3 : Fin 14)]).toNat ≤ 4000) →
     (s.admits { floor := false, dir := 1, fn := f, sq := sq, latMs := (p.words[(2 : Fin 14)]).toNat, rate := (p.words[(3 : Fin 14)]).toNat, adm := s.rst.poh, shares := s.queueShares f, winAt := s.mtime } = true) →
     Completes (exec (.qosAdmit p) s) fun t =>
       alookup t.q.contracts n = some { floor := false, dir := 1, fn := f, sq := sq, latMs := (p.words[(2 : Fin 14)]).toNat, rate := (p.words[(3 : Fin 14)]).toNat, adm := s.rst.poh, shares := s.queueShares f, winAt := s.mtime } ∧
       (∀ m, n ≠ m → alookup t.q.contracts m = alookup s.q.contracts m) ∧ t.q.ctRefuseCnt = s.q.ctRefuseCnt ∧
       t = ({ s with q := { s.q with contracts := t.q.contracts } } : State).afterReply t) ∧
  -- QOS_ADMIT (refused): R491, R494, R508, R493
  (∀ (s : State) (p : Packet) (f : Fn) (sq : Nat), ready ⟨0x01F3, [7], .action⟩ p s = true →
     (p.idx = f.val ∧ p.words[(0 : Fin 14)] = 0x10 ∧ (p.words[(1 : Fin 14)]).toNat = sq ∧ sq < 65536) →
     (sq ≠ 0 ∧ s.host.fns[f].sqs.any (fun q => q.id == sq) = true) →
     (s.q.contracts.any (fun c => c.2.fn == f && c.2.sq == sq && c.2.floor == false) = false) →
     (s.lMin ≤ (p.words[(2 : Fin 14)]).toNat ∧ (p.words[(2 : Fin 14)]).toNat ≤ 10000 ∧ 1 ≤ (p.words[(3 : Fin 14)]).toNat ∧ (p.words[(3 : Fin 14)]).toNat ≤ 4000) →
     (s.admits { floor := false, dir := 1, fn := f, sq := sq, latMs := (p.words[(2 : Fin 14)]).toNat, rate := (p.words[(3 : Fin 14)]).toNat, adm := s.rst.poh, shares := s.queueShares f, winAt := s.mtime } = false) →
     Completes (exec (.qosAdmit p) s) fun t =>
       t.q = { s.q with ctRefuseCnt := satAdd 32 s.q.ctRefuseCnt 1 } ∧ Replied s t 0x01F3 p 0x0301 0 [] ∧ t = ({ s with q := t.q } : State).afterReply t) ∧
  -- QOS_REVOKE: R495, R508
  (∀ (s : State) (p : Packet) (n : Nat) (k : Contract), ready ⟨0x01F4, [7], .action⟩ p s = true → fld (p.w 0) 7 0 = n →
   (alookup s.q.contracts n = some k) → (k.fn = p.fnOf) →
     Completes (exec (.qosRevoke p) s) fun t =>
       alookup t.q.contracts n = none ∧ (∀ c ∈ s.q.contracts, (∀ d ∈ s.q.contracts, d.2 = k → d.1 ≠ c.1) → c ∈ t.q.contracts) ∧
       Answered s t 0x01F4 p [nw k.done, nw k.yieldCnt, rCtExc k, rCtMisc k, nw k.worst] ∧
       t = ({ s with q := { s.q with contracts := t.q.contracts } } : State).afterReply t) ∧
  -- QOS_STATUS: R508
  (∀ (s : State) (p : Packet), ready ⟨0x01F5, [5], .read⟩ p s = true →
     (p.src = .smbus ∨ p.src = .vdm ∨ p.src = .nvme 0) →
     Completes (exec (.qosStatus p) s) fun t => Answered s t 0x01F5 p (stQos s (fld (p.w 0) 7 0)) ∧ t = s.afterReply t) ∧
  -- QUEUE_CLEAR: R17
  (∀ (s : State) (p : Packet) (n : Nat) (k : Contract), ready ⟨0x01F6, [5], .action⟩ p s = true → fld (p.w 2) 7 0 = n →
     (alookup s.q.contracts n = some k) →
     Completes (exec (.queueClear p) s) fun t =>
       t.q.holdCnt = clr (fld (p.w 0) 3 0) 0 s.q.holdCnt ∧ t.q.agedCnt = clr (fld (p.w 0) 3 0) 1 s.q.agedCnt ∧
       t.q.creditWaitCnt = clr (fld (p.w 0) 3 0) 2 s.q.creditWaitCnt ∧ t.q.ctRefuseCnt = clr (fld (p.w 0) 3 0) 3 s.q.ctRefuseCnt ∧
       alookup t.q.contracts n = some { k with
         done := clr (fld (p.w 1) 5 0) 0 k.done, yieldCnt := clr (fld (p.w 1) 5 0) 1 k.yieldCnt, overCnt := clr (fld (p.w 1) 5 0) 2 k.overCnt
         recCnt := clr (fld (p.w 1) 5 0) 3 k.recCnt, actCnt := clr (fld (p.w 1) 5 0) 4 k.actCnt, exclCnt := clr (fld (p.w 1) 5 0) 5 k.exclCnt } ∧
       (∀ m, n ≠ m → alookup t.q.contracts m = alookup s.q.contracts m) ∧ t = ({ s with q := t.q } : State).afterReply t)

/-- Host resets, virtual functions, controller enable and shutdown: LINK_RESET, FUNCTION_LEVEL_RESET, VF_DISABLE, VF_ENABLE,
CONTROLLER_RESET, CONTROLLER_ENABLE, SHUTDOWN_NORMAL, SHUTDOWN_ABRUPT, PERST_DEASSERTION, DATA_LINK_UP and
ASPM_L1_CHANGE complete on the states their clauses name, each with the next state its clause gives. The rules each
clause rests on stand before it. -/
def Obligations.HostResets : Prop :=
  -- LINK_RESET: R439, R654
  (∀ (s : State) (k : LinkResetKind), Completes (exec (.linkReset k) s) fun t =>
       t.host.numVf = 0 ∧ t.host.ari = false ∧ t.host.dlUp = false ∧ t.host.l1 = false ∧ t.host.gen = 0 ∧ t.host.width = 0 ∧
       t.host.perst = (s.host.perst || k == .perst) ∧
       t.host.linkDownCnt = (if k = .linkDown then inc 32 s.host.linkDownCnt else s.host.linkDownCnt) ∧
       (∀ f : Fn, s.host.fns[f].present = true →
         t.host.fns[f].present = decide (f = 0) ∧ t.host.fns[f].en = false ∧ t.host.fns[f].rdy = false ∧ t.host.fns[f].sqs = [] ∧
         t.host.fns[f].cqs = [] ∧ t.host.fns[f].cmbmsc = 0 ∧ t.host.fns[f].flrCnt = satAdd 32 s.host.fns[f].flrCnt 1) ∧
       (∀ p ∈ t.q.ctxs, s.host.fns[p.2.fn].present = false) ∧ t.eng.map (·.core) = s.eng.map (·.core)) ∧
  -- FUNCTION_LEVEL_RESET: R504
  (∀ (s : State) (f : Fn), s.host.fns[f].present = true → Completes (exec (.functionLevelReset f) s) fun t =>
       t.host.fns[f].en = false ∧ t.host.fns[f].rdy = false ∧ t.host.fns[f].sqs = [] ∧ t.host.fns[f].cqs = [] ∧
       t.host.fns[f].flrCnt = satAdd 32 s.host.fns[f].flrCnt 1 ∧ t.host.fns[f].present = true ∧ t.host.fns[f].cmbmsc = 0 ∧
       t.host.fns[f].discCnt = satAdd 32 s.host.fns[f].discCnt ((s.q.ctxs.filter fun p => p.2.fn == f).length + s.pendingAdmin f) ∧
       (∀ p ∈ t.q.ctxs, p.2.fn ≠ f)) ∧
  -- VF_DISABLE: R463, R654
  (∀ (s : State) (f : Fn), (f ≠ 0) → s.host.fns[f].present = true → Completes (exec (.vfDisable f) s) fun t =>
       t.host.fns[f].present = false ∧ t.host.fns[f].en = false ∧ t.host.fns[f].sqs = [] ∧
       t.host.numVf = ((fins 16).filter fun (g : Fn) => g.val != 0 && g != f && s.host.fns[g].present).length ∧
       (∀ p ∈ t.q.ctxs, p.2.fn ≠ f)) ∧
  -- VF_ENABLE: R440
  (∀ (s : State) (n : Fin 16), (s.host.fns[(0 : Fn)].present = true) → s.rst.recovery = false → s.host.numVf = 0 →
     Completes (exec (.vfEnable n) s) fun t =>
       t.host.numVf = (if s.host.ari then n.val else min n.val 7) ∧
       (∀ f : Fn, t.host.fns[f] = { s.host.fns[f] with present := s.host.fns[f].present || decide (0 < f.val ∧ f.val ≤ t.host.numVf) }) ∧
       t = { s with host := { s.host with numVf := t.host.numVf, fns := t.host.fns } }) ∧
  -- CONTROLLER_RESET: R504, R654
  (∀ (s : State) (f : Fn), s.host.fns[f].en = true → Completes (exec (.controllerReset f) s) fun t =>
       t.host.fns[f].en = false ∧ t.host.fns[f].rdy = false ∧ t.host.fns[f].sqs = [] ∧ t.host.fns[f].cqs = [] ∧
       t.host.fns[f].flrCnt = s.host.fns[f].flrCnt ∧ t.host.fns[f].present = s.host.fns[f].present ∧
       t.host.fns[f].discCnt = satAdd 32 s.host.fns[f].discCnt ((s.q.ctxs.filter fun p => p.2.fn == f).length + s.pendingAdmin f) ∧
       (∀ p ∈ t.q.ctxs, p.2.fn ≠ f)) ∧
  -- CONTROLLER_ENABLE: R636
  (∀ (s : State) (f : Fn) (c : ControllerSetup), s.host.fns[f].present = true → s.host.fns[f].online = true →
     s.host.fns[f].en = false →
     Completes (exec (.controllerEnable f c) s) fun t =>
       t.host.fns[f] = { s.host.fns[f] with
         en := true, rdy := s.rst.tblReady || s.rst.recovery, wrr := c.wrr, kaLast := s.mtime, cmbmsc := c.cmbmsc
         sqs := [{ id := 0, cq := 0, size := 4096 }], cqs := [{ id := 0, size := 4096, irqEn := true }] } ∧
       (∀ g : Fn, f ≠ g → t.host.fns[g] = s.host.fns[g]) ∧ t.host.healthFlags = s.host.healthFlags ||| 0x20 ∧
       t = { s with host := { s.host with fns := t.host.fns, healthFlags := t.host.healthFlags }, spn := t.spn } ∧
       (s.spn.shutStop = false → t.spn = s.spn)) ∧
  -- SHUTDOWN_NORMAL: R506
  (∀ (s : State) (f : Fn), s.host.fns[f].en = true → s.host.fns[f].shst = 0 →
     (s.q.ctxs.any (fun p => p.2.fn == f && p.2.started) = true) →
     Completes (exec (.shutdownNormal f) s) fun t =>
       t.host.fns[f] = { s.host.fns[f] with shst := 1, abrupt := false } ∧ (∀ g : Fn, f ≠ g → t.host.fns[g] = s.host.fns[g]) ∧
       t = { s with host := { s.host with fns := t.host.fns } }) ∧
  -- SHUTDOWN_NORMAL (done): R506
  (∀ (s : State) (f : Fn), s.host.fns[f].en = true → s.host.fns[f].shst = 0 →
   (s.q.ctxs.any (fun p => p.2.fn == f && p.2.started) = false) → (s.q.buffered = []) →
     Completes (exec (.shutdownNormal f) s) fun t => t.host.fns[f].shst = 2 ∧ t.host.fns[f].abrupt = false ∧ t.host.fns[f].en = true) ∧
  -- SHUTDOWN_ABRUPT: R506
  (∀ (s : State) (f : Fn), s.host.fns[f].en = true → (s.host.fns[f].shst ≠ 2) →
     Completes (exec (.shutdownAbrupt f) s) fun t =>
       t.host.fns[f].abrupt = true ∧ (t.host.fns[f].shst = 1 ∨ t.host.fns[f].shst = 2) ∧ (∀ p ∈ t.q.ctxs, p.2.fn ≠ f) ∧
       t.host.fns[f].discCnt = s.host.fns[f].discCnt) ∧
  -- PERST_DEASSERTION: R634
  (∀ (s : State), Completes (exec .perstDeassertion s) fun t => t = { s with host := { s.host with perst := false } }) ∧
  -- DATA_LINK_UP: R437, R634
  (∀ (s : State) (gen : Fin 6) (lanes : Fin 5) (ari : Bool), s.host.perst = false → (s.rst.phase ≠ .bootRom) →
   (gen ≠ 0) → (lanes = 1 ∨ lanes = 2 ∨ lanes = 4) →
     Completes (exec (.dataLinkUp gen lanes ari) s) fun t =>
       t = { s with host := { s.host with dlUp := true, gen := gen.val, width := lanes.val, ari := ari, l1 := false } }) ∧
  -- ASPM_L1_CHANGE: R438
  (∀ (s : State) (enter : Bool), s.host.dlUp = true →
     Completes (exec (.aspmL1Change enter) s) fun t => t = { s with host := { s.host with l1 := enter } })

/-- Doorbells and the violations of the host link and of its side channels: DOORBELL_WRITE, TLP_MALFORMED,
UNSUPPORTED_REQUEST, COMPLETION_TIMEOUT, POISONED_COMPLETION, SMBUS_PEC_ERROR, SMBUS_CLOCK_TIMEOUT, MCTP_MALFORMED and
VIOLATION_HOUR_SUMMARY complete on the states their clauses name, each with the next state its clause gives. The rules
each clause rests on stand before it. -/
def Obligations.HostViolations : Prop :=
  -- DOORBELL_WRITE (sq): R467
  (∀ (s : State) (f : Fn) (d : Doorbell) (q : SubQueue), s.host.fns[f].present = true → d.cq = false →
   (s.host.fns[f].sqs.find? (fun q => q.id == d.q) = some q) → (d.v.toNat < q.size) →
     Completes (exec (.doorbellWrite f d) s) fun t =>
       t.host.fns[f] = { s.host.fns[f] with sqs := s.host.fns[f].sqs.map fun x => if x.id = d.q then { x with tail := d.v.toNat } else x } ∧
       (∀ g : Fn, f ≠ g → t.host.fns[g] = s.host.fns[g]) ∧ t = { s with host := { s.host with fns := t.host.fns } }) ∧
  -- DOORBELL_WRITE (cq): R467
  (∀ (s : State) (f : Fn) (d : Doorbell) (q : CompQueue), s.host.fns[f].present = true → d.cq = true →
   (s.host.fns[f].cqs.find? (fun q => q.id == d.q) = some q) → (d.v.toNat < q.size) →
     ((d.v.toNat + q.size - q.head) % q.size ≤ (q.tail + q.size - q.head) % q.size) →
     Completes (exec (.doorbellWrite f d) s) fun t =>
       t.host.fns[f] = { s.host.fns[f] with cqs := s.host.fns[f].cqs.map fun x => if x.id = d.q then { x with head := d.v.toNat } else x } ∧
       (∀ g : Fn, f ≠ g → t.host.fns[g] = s.host.fns[g]) ∧ t = { s with host := { s.host with fns := t.host.fns } }) ∧
  -- DOORBELL_WRITE (value): R467
  (∀ (s : State) (f : Fn) (d : Doorbell) (q : SubQueue), s.host.fns[f].present = true → d.cq = false →
   (s.host.fns[f].sqs.find? (fun q => q.id == d.q) = some q) → (q.size ≤ d.v.toNat) →
     Completes (exec (.doorbellWrite f d) s) fun t =>
       t.host.fns[f].dbValCnt = inc 16 s.host.fns[f].dbValCnt ∧ t.host.fns[f].dbRegCnt = s.host.fns[f].dbRegCnt ∧
       t.host.fns[f].sqs = s.host.fns[f].sqs ∧ t = ({ s with host := t.host, out := t.out } : State).afterEvent t) ∧
  -- DOORBELL_WRITE (register): R467
  (∀ (s : State) (f : Fn) (d : Doorbell), s.host.fns[f].present = true → d.cq = false →
     (s.host.fns[f].sqs.find? (fun q => q.id == d.q) = none) →
     Completes (exec (.doorbellWrite f d) s) fun t =>
       t.host.fns[f].dbRegCnt = inc 16 s.host.fns[f].dbRegCnt ∧ t.host.fns[f].dbValCnt = s.host.fns[f].dbValCnt ∧
       t.host.fns[f].sqs = s.host.fns[f].sqs ∧ t = ({ s with host := t.host, out := t.out } : State).afterEvent t) ∧
  -- TLP_MALFORMED: R467
  (∀ (s : State) (f : Fn) (hdr : BitVec 128), Completes (exec (.tlpMalformed f hdr) s) fun t =>
       t.host.fns[f] = { s.host.fns[f] with malCnt := inc 16 s.host.fns[f].malCnt } ∧ (∀ g : Fn, f ≠ g → t.host.fns[g] = s.host.fns[g]) ∧
       t.out = { s.out with tlps := (f, 3, []) :: s.out.tlps } ∧ t = ({ s with host := t.host, out := t.out } : State).afterEvent t) ∧
  -- UNSUPPORTED_REQUEST: R467
  (∀ (s : State) (f : Fn) (hdr : BitVec 128), Completes (exec (.unsupportedRequest f hdr) s) fun t =>
       t.host.fns[f] = { s.host.fns[f] with urCnt := inc 16 s.host.fns[f].urCnt } ∧ (∀ g : Fn, f ≠ g → t.host.fns[g] = s.host.fns[g]) ∧
       t.out = { s.out with tlps := (f, 0, []) :: s.out.tlps } ∧ t = ({ s with host := t.host, out := t.out } : State).afterEvent t) ∧
  -- COMPLETION_TIMEOUT: R467
  (∀ (s : State) (x : CtxIx) (hdr : BitVec 128) (c : Ctx), (s.ctx x = some c) →
     (c.writes = true ∨ c.started = false ∨ c.admin = true ∨ c.blocks = []) →
     Completes (exec (.completionTimeout x hdr) s) fun t =>
       t.ctx x = some (c.finish (stGen 0x04 false)) ∧ t.q = { s.q with ctxs := t.q.ctxs, staging := s.q.staging - c.staged } ∧
       t.host.fns[c.fn] = { s.host.fns[c.fn] with ctoCnt := inc 16 s.host.fns[c.fn].ctoCnt } ∧
       (∀ g : Fn, c.fn ≠ g → t.host.fns[g] = s.host.fns[g]) ∧ t = ({ s with host := t.host, q := t.q } : State).afterEvent t) ∧
  -- COMPLETION_TIMEOUT (read): R31, R467
  (∀ (s : State) (x : CtxIx) (hdr : BitVec 128) (c : Ctx), (s.ctx x = some c) → c.writes = false →
     Completes (exec (.completionTimeout x hdr) s) fun t =>
       t.q = (s.transferFailed x).q ∧
       t.host.fns[c.fn] = { s.host.fns[c.fn] with ctoCnt := inc 16 s.host.fns[c.fn].ctoCnt } ∧
       (∀ g : Fn, c.fn ≠ g → t.host.fns[g] = s.host.fns[g]) ∧ t = ({ s with host := t.host, q := t.q } : State).afterEvent t) ∧
  -- POISONED_COMPLETION: R467
  (∀ (s : State) (x : CtxIx) (hdr : BitVec 128) (c : Ctx), (s.ctx x = some c) →
     (c.writes = true ∨ c.started = false ∨ c.admin = true ∨ c.blocks = []) →
     Completes (exec (.poisonedCompletion x hdr) s) fun t =>
       t.ctx x = some (c.finish (stGen 0x04 false)) ∧ t.q = { s.q with ctxs := t.q.ctxs, staging := s.q.staging - c.staged } ∧
       t.host.fns[c.fn] = { s.host.fns[c.fn] with poisCnt := inc 16 s.host.fns[c.fn].poisCnt } ∧
       (∀ g : Fn, c.fn ≠ g → t.host.fns[g] = s.host.fns[g]) ∧ t = ({ s with host := t.host, q := t.q } : State).afterEvent t) ∧
  -- POISONED_COMPLETION (read): R31, R467
  (∀ (s : State) (x : CtxIx) (hdr : BitVec 128) (c : Ctx), (s.ctx x = some c) → c.writes = false →
     Completes (exec (.poisonedCompletion x hdr) s) fun t =>
       t.q = (s.transferFailed x).q ∧
       t.host.fns[c.fn] = { s.host.fns[c.fn] with poisCnt := inc 16 s.host.fns[c.fn].poisCnt } ∧
       (∀ g : Fn, c.fn ≠ g → t.host.fns[g] = s.host.fns[g]) ∧ t = ({ s with host := t.host, q := t.q } : State).afterEvent t) ∧
  -- SMBUS_PEC_ERROR: R467
  (∀ (s : State) (hdr : BitVec 128), Completes (exec (.smbusPecError hdr) s) fun t =>
       t.host.pecErrCnt = inc 16 s.host.pecErrCnt ∧
       t = ({ s with host := { s.host with pecErrCnt := t.host.pecErrCnt, violations := t.host.violations } } : State).afterEvent t) ∧
  -- SMBUS_CLOCK_TIMEOUT: R467
  (∀ (s : State), Completes (exec .smbusClockTimeout s) fun t =>
       t.host.smbTmoCnt = inc 16 s.host.smbTmoCnt ∧
       t = ({ s with host := { s.host with smbTmoCnt := t.host.smbTmoCnt, violations := t.host.violations } } : State).afterEvent t) ∧
  -- MCTP_MALFORMED: R467
  (∀ (s : State) (hdr : BitVec 128), Completes (exec (.mctpMalformed hdr) s) fun t =>
       t.host.mctpMalCnt = inc 16 s.host.mctpMalCnt ∧
       t = ({ s with host := { s.host with mctpMalCnt := t.host.mctpMalCnt, violations := t.host.violations } } : State).afterEvent t) ∧
  -- VIOLATION_HOUR_SUMMARY: R468
  (∀ (s : State), Completes (exec .violationHourSummary s) fun t =>
       t = ({ s with host := { s.host with violations := [] } } : State).afterEvent t ∧
       (s.host.violations.all (fun v => v.2.2 == 0) = true → t.trc = s.trc ∧ t.evr = s.evr))

/-- The packets of the host link, the endpoint id and the keep-alive timer: HOST_STATUS, HOST_CONFIG, HOST_PERMIT,
HOST_FUNCTION, HOST_CLEAR, MCTP_SET_ENDPOINT_ID and KEEP_ALIVE_TIMEOUT complete on the states their clauses name, each
with the next state its clause gives. The rules each clause rests on stand before it. -/
def Obligations.HostPackets : Prop :=
  -- HOST_STATUS: R521
  (∀ (s : State) (p : Packet), ready ⟨0x01E0, [5], .read⟩ p s = true →
     Completes (exec (.hostStatus p) s) fun t => Answered s t 0x01E0 p (stHif s) ∧ t = s.afterReply t) ∧
  -- HOST_CONFIG: R469
  (∀ (s : State) (p : Packet), ready ⟨0x01E1, [5], .config⟩ p s = true → Completes (exec (.hostConfig p) s) fun t =>
       t.nor = { s.nor with hif := clampWord [fAny 31 31, fIn 30 24 0x08 0x77, fAny 23 16] 0 (p.w 0) } ∧
       t.host.vfCmbNext = t.nor.hif.getLsbD 31 ∧ t.host.miAddr = fld t.nor.hif 30 24 ∧ t.host.zfrl = fld t.nor.hif 23 16 ∧
       t.host.vfCmb = s.host.vfCmb ∧ Answered s t 0x01E1 p [t.nor.hif] ∧ t = ({ s with nor := t.nor } : State).afterReply t) ∧
  -- HOST_PERMIT: R469
  (∀ (s : State) (p : Packet), ready ⟨0x01E2, [5], .config⟩ p s = true → Completes (exec (.hostPermit p) s) fun t =>
       t.host.vfRead = BitVec.ofNat 15 (fld (p.w 0) 15 1) ∧ Answered s t 0x01E2 p [rHperm t.host] ∧ t = s.afterReply t) ∧
  -- HOST_FUNCTION: R521
  (∀ (s : State) (p : Packet), ready ⟨0x01E3, [7], .read⟩ p s = true →
     Completes (exec (.hostFunction p) s) fun t => Answered s t 0x01E3 p (stFn s p.fnOf) ∧ t = s.afterReply t) ∧
  -- HOST_CLEAR: R17
  (∀ (s : State) (p : Packet), ready ⟨0x01E4, [5, 7], .action⟩ p s = true → p.lvl = 5 →
     Completes (exec (.hostClear p) s) fun t =>
       t.host.linkRecovCnt = clr (fld (p.w 0) 5 0) 0 s.host.linkRecovCnt ∧ t.host.linkCerrCnt = clr (fld (p.w 0) 5 0) 1 s.host.linkCerrCnt ∧
       t.host.linkDownCnt = clr (fld (p.w 0) 5 0) 2 s.host.linkDownCnt ∧ t.host.pecErrCnt = clr (fld (p.w 0) 5 0) 3 s.host.pecErrCnt ∧
       t.host.smbTmoCnt = clr (fld (p.w 0) 5 0) 4 s.host.smbTmoCnt ∧ t.host.mctpMalCnt = clr (fld (p.w 0) 5 0) 5 s.host.mctpMalCnt ∧
       Answered s t 0x01E4 p (selected (fld (p.w 0) 5 0) [[nw s.host.linkRecovCnt], [nw s.host.linkCerrCnt], [nw s.host.linkDownCnt],
         [nw s.host.pecErrCnt], [nw s.host.smbTmoCnt], [nw s.host.mctpMalCnt]]) ∧ t = s.afterReply t) ∧
  -- HOST_CLEAR (function): R17
  (∀ (s : State) (p : Packet), ready ⟨0x01E4, [5, 7], .action⟩ p s = true → p.lvl = 7 →
     Completes (exec (.hostClear p) s) fun t =>
       t.host.fns[p.fnOf].dbRegCnt = clr (fld (p.w 0) 10 0) 0 s.host.fns[p.fnOf].dbRegCnt ∧
       t.host.fns[p.fnOf].dbValCnt = clr (fld (p.w 0) 10 0) 1 s.host.fns[p.fnOf].dbValCnt ∧
       t.host.fns[p.fnOf].urCnt = clr (fld (p.w 0) 10 0) 2 s.host.fns[p.fnOf].urCnt ∧
       t.host.fns[p.fnOf].malCnt = clr (fld (p.w 0) 10 0) 3 s.host.fns[p.fnOf].malCnt ∧
       t.host.fns[p.fnOf].ctoCnt = clr (fld (p.w 0) 10 0) 4 s.host.fns[p.fnOf].ctoCnt ∧
       t.host.fns[p.fnOf].poisCnt = clr (fld (p.w 0) 10 0) 5 s.host.fns[p.fnOf].poisCnt ∧
       t.host.fns[p.fnOf].roWrCnt = clr (fld (p.w 0) 10 0) 6 s.host.fns[p.fnOf].roWrCnt ∧
       t.host.fns[p.fnOf].unasgCnt = clr (fld (p.w 0) 10 0) 7 s.host.fns[p.fnOf].unasgCnt ∧
       t.host.fns[p.fnOf].cmbPoisCnt = clr (fld (p.w 0) 10 0) 9 s.host.fns[p.fnOf].cmbPoisCnt ∧
       t.host.fns[p.fnOf].flrCnt = clr (fld (p.w 0) 10 0) 10 s.host.fns[p.fnOf].flrCnt ∧ t = s.afterReply t) ∧
  -- MCTP_SET_ENDPOINT_ID: R465
  (∀ (s : State) (eid : BitVec 8), (eid ≠ 0) → (eid ≠ 0xFF) →
     Completes (exec (.mctpSetEndpointId eid) s) fun t => t = { s with host := { s.host with eid := eid } }) ∧
  -- KEEP_ALIVE_TIMEOUT: R70, R443
  (∀ (s : State) (f : Fn), s.host.fns[f].en = true → (0 < s.host.fns[f].kato) →
     (s.host.fns[f].kaLast + s.host.fns[f].kato * 300000000 ≤ s.mtime) →
     Completes (exec (.keepAliveTimeout f) s) fun t =>
       t.host.fns[f].cfs = true ∧ t.host.fns[f].rdy = false ∧ t.host.fns[f].kato = 0 ∧
       (∀ g : Fn, f ≠ g → t.host.fns[g] = s.host.fns[g]) ∧ t = { s with host := { s.host with fns := t.host.fns } })

/-- The admin commands that manage queues and report: DELETE_IO_SQ, CREATE_IO_SQ, DELETE_IO_CQ, CREATE_IO_CQ, GET_LOG_PAGE,
IDENTIFY, ABORT, GET_FEATURES, ASYNCHRONOUS_EVENT_REQUEST, KEEP_ALIVE and DEVICE_SELF_TEST complete on the states their
clauses name, each with the next state its clause gives. The rules each clause rests on stand before it. -/
def Obligations.AdminQueuesAndLogs : Prop :=
  -- DELETE_IO_SQ: R495, R503
  (∀ (s : State) (q : AdmReq) (id : BitVec 16) (sq : SubQueue), adminReady q false false s = true → (id ≠ 0) →
   (s.host.fns[q.fn].sqs.find? (fun c => c.id == id.toNat) = some sq) → sq.deleting = none →
     (s.q.ctxs.any (fun p => p.2.fn == q.fn && p.2.sq == sq.id && !p.2.admin) = false) →
     Completes (exec (.deleteIoSq q id) s) fun t =>
       (t.host.fns[q.fn].sqs.any fun c => c.id == id.toNat) = false ∧ Concluded s t q stOk 0 [] ∧
       (∀ c ∈ t.q.contracts, ¬ (c.2.fn = q.fn ∧ c.2.sq = sq.id)) ∧ t.q.ctxs = s.q.ctxs ∧
       t = ({ s with q := t.q } : State).afterAdmin t) ∧
  -- DELETE_IO_SQ (wait): R495, R503
  (∀ (s : State) (q : AdmReq) (id : BitVec 16) (sq : SubQueue), adminReady q false false s = true → (id ≠ 0) →
   (s.host.fns[q.fn].sqs.find? (fun c => c.id == id.toNat) = some sq) → sq.deleting = none →
     (s.q.ctxs.any (fun p => p.2.fn == q.fn && p.2.sq == sq.id && !p.2.admin) = true) →
     (s.host.fns[q.fn].sqs.all (fun c => c.id == id.toNat || c.deleting.isNone) = true) →
     (s.q.ctxs.all (fun p => decide (p.1 < 4096)) = true) →
     Completes (exec (.deleteIoSq q id) s) fun t =>
       (∀ c ∈ t.host.fns[q.fn].sqs, c.id = id.toNat → c.deleting = some q.cid) ∧
       (∀ p ∈ t.q.ctxs, p.2.fn = q.fn → p.2.sq = sq.id → p.2.admin = false → p.2.started = false → p.2.finished.isSome = true) ∧
       t.out.completions = s.out.completions ∧ t = ({ s with q := { s.q with ctxs := t.q.ctxs } } : State).afterAdmin t) ∧
  -- CREATE_IO_SQ: R443, R470, R473
  (∀ (s : State) (q : AdmReq) (n : NewSq), adminReady q false false s = true →
     (n.id ≠ 0 ∧ n.id.toNat < s.host.fns[q.fn].pairs) →
     (s.host.fns[q.fn].sqs.any (fun c => c.id == n.id.toNat) = false) →
     (n.cq ≠ 0 ∧ s.host.fns[q.fn].cqs.any (fun c => c.id == n.cq.toNat) = true) →
     (1 ≤ n.size.toNat ∧ n.size.toNat ≤ 0x3FFF) →
     Completes (exec (.createIoSq q n) s) fun t =>
       ({ id := n.id.toNat, cq := n.cq.toNat, size := n.size.toNat + 1, prio := n.prio.toNat } : SubQueue) ∈ t.host.fns[q.fn].sqs ∧
       t.host.fns[q.fn].sqs.length = s.host.fns[q.fn].sqs.length + 1 ∧ (∀ g : Fn, q.fn ≠ g → t.host.fns[g] = s.host.fns[g]) ∧
       Concluded s t q stOk 0 [] ∧ t = s.afterAdmin t) ∧
  -- CREATE_IO_SQ (tunnelled): R446, R466
  (∀ (s : State) (q : AdmReq) (tag : Nat) (n : NewSq), (q.mi = some tag) →
     Completes (exec (.createIoSq q n) s) fun t => t = { s with out := { s.out with mi := (tag, 3, []) :: s.out.mi } }) ∧
  -- DELETE_IO_CQ: R446
  (∀ (s : State) (q : AdmReq) (id : BitVec 16), adminReady q false false s = true →
     (id ≠ 0 ∧ s.host.fns[q.fn].cqs.any (fun c => c.id == id.toNat) = true) →
     (s.host.fns[q.fn].sqs.any (fun c => c.cq == id.toNat) = false) →
     Completes (exec (.deleteIoCq q id) s) fun t =>
       (t.host.fns[q.fn].cqs.any fun c => c.id == id.toNat) = false ∧ (∀ g : Fn, q.fn ≠ g → t.host.fns[g] = s.host.fns[g]) ∧
       Concluded s t q stOk 0 [] ∧ t = s.afterAdmin t) ∧
  -- CREATE_IO_CQ: R443, R473
  (∀ (s : State) (q : AdmReq) (n : NewCq), adminReady q false false s = true →
     (n.id ≠ 0 ∧ n.id.toNat < s.host.fns[q.fn].pairs) →
   (s.host.fns[q.fn].cqs.any (fun c => c.id == n.id.toNat) = false) → (1 ≤ n.size.toNat ∧ n.size.toNat ≤ 0x3FFF) →
     (n.vector.toNat < s.host.fns[q.fn].vectors) →
     Completes (exec (.createIoCq q n) s) fun t =>
       ({ id := n.id.toNat, size := n.size.toNat + 1, vector := n.vector.toNat, irqEn := n.irqEn } : CompQueue) ∈ t.host.fns[q.fn].cqs ∧
       t.host.fns[q.fn].cqs.length = s.host.fns[q.fn].cqs.length + 1 ∧ (∀ g : Fn, q.fn ≠ g → t.host.fns[g] = s.host.fns[g]) ∧
       Concluded s t q stOk 0 [] ∧ t = s.afterAdmin t) ∧
  -- GET_LOG_PAGE: R446, R457, R460, R466, R609, R629, R637
  (∀ (s : State) (q : AdmReq) (g : LogReq) (l : List Word), adminReady q false false s = true →
   (g.off % 4 = 0 ∧ g.len % 4 = 0) → (g.lid ≠ 0xC1) → (s.logPage q.fn g = some l) → (g.off ≤ 4 * l.length) →
     g.rae = true →
     Completes (exec (.getLogPage q g) s) fun t =>
       Concluded s t q stOk 0 ((l.drop (g.off / 4)).take (g.len / 4)) ∧ t.host.fns[q.fn].masked = s.host.fns[q.fn].masked ∧
       t.host.fns[q.fn].changedZones = s.host.fns[q.fn].changedZones ∧ t = s.afterAdmin t) ∧
  -- GET_LOG_PAGE (read): R446, R457, R460, R466, R609, R629, R637
  (∀ (s : State) (q : AdmReq) (g : LogReq) (l : List Word), adminReady q false false s = true →
   (g.off % 4 = 0 ∧ g.len % 4 = 0) → (g.lid ≠ 0xC1) → (s.logPage q.fn g = some l) → (g.off ≤ 4 * l.length) →
   g.rae = false → (s.host.fns[q.fn].aers = []) →
     Completes (exec (.getLogPage q g) s) fun t =>
       Concluded s t q stOk 0 ((l.drop (g.off / 4)).take (g.len / 4)) ∧
       t.host.fns[q.fn].masked = s.host.fns[q.fn].masked.filter (fun m => m.2 != g.lid.toNat) ∧
       t.host.fns[q.fn].changedNs = (if g.lid = 0x04 then [] else s.host.fns[q.fn].changedNs) ∧
       t.host.fns[q.fn].changedZones = (if g.lid = 0xBF then s.host.fns[q.fn].changedZones.filter (fun p => p.1 != g.nsid.toNat) else s.host.fns[q.fn].changedZones) ∧
       t = s.afterAdmin t) ∧
  -- GET_LOG_PAGE (recorder): R446, R457, R460, R466, R609, R629, R637
  (∀ (s : State) (q : AdmReq) (g : LogReq), adminReady q false true s = true → (g.off % 4 = 0 ∧ g.len % 4 = 0) →
   g.lid = 0xC1 → (g.off ≤ 25165824) →
     Completes (exec (.getLogPage q g) s) fun t =>
       Concluded s t q stOk 0 ((List.range (g.len / 4)).map fun i => s.regionWord (g.off + 4 * i)) ∧ t = s.afterAdmin t) ∧
  -- IDENTIFY: R443, R448, R453, R471
  (∀ (s : State) (q : AdmReq) (i : IdentifyReq), adminReady q false false s = true → i.cns = 0x01 →
     Completes (exec (.identify q i) s) fun t => Concluded s t q stOk 0 (s.idController q.fn) ∧ t = s.afterAdmin t) ∧
  -- IDENTIFY (namespace): R443, R448, R453, R471
  (∀ (s : State) (q : AdmReq) (i : IdentifyReq) (n : Namespace), adminReady q false false s = true → i.cns = 0x00 →
   (1 ≤ i.nsid.toNat ∧ i.nsid.toNat ≤ 16) → (s.host.namespaces.find? (fun n => n.nsid == i.nsid.toNat) = some n) →
     n.attached.getLsbD q.fn.val = true →
     Completes (exec (.identify q i) s) fun t => Concluded s t q stOk 0 n.identify ∧ t = s.afterAdmin t) ∧
  -- IDENTIFY (active): R443, R448, R453, R471
  (∀ (s : State) (q : AdmReq) (i : IdentifyReq), adminReady q false false s = true → i.cns = 0x02 →
     Completes (exec (.identify q i) s) fun t =>
       Concluded s t q stOk 0 (nsList ((s.nsAttached q.fn).map (·.nsid)) i.nsid.toNat) ∧ t = s.afterAdmin t) ∧
  -- IDENTIFY (virtualisation): R443, R448, R453, R471
  (∀ (s : State) (q : AdmReq) (i : IdentifyReq), adminReady q false false s = true → (i.cns = 0x14 ∨ i.cns = 0x15) →
     Completes (exec (.identify q i) s) fun t =>
       Concluded s t q stOk 0 (if i.cns = 0x14 then s.identifyPrimary else s.identifySecondary i.cntid.toNat) ∧ t = s.afterAdmin t) ∧
  -- IDENTIFY (tunnelled): R446, R466
  (∀ (s : State) (q : AdmReq) (tag : Nat) (i : IdentifyReq), (q.mi = some tag) → s.host.fns[q.fn].present = true →
   s.host.fns[q.fn].en = true → s.host.fns[q.fn].rdy = true → s.host.fns[q.fn].shst = 0 → (s.adminCtxs q.fn < 2) → i.cns = 0x01 →
     Completes (exec (.identify q i) s) fun t =>
       t = { s with out := { s.out with mi := (tag, 0, [0, 0, stOk.word] ++ s.idController q.fn) :: s.out.mi } }) ∧
  -- IDENTIFY (absent): R465, R466
  (∀ (s : State) (q : AdmReq) (tag : Nat) (i : IdentifyReq), (q.mi = some tag) → s.host.fns[q.fn].present = false →
     Completes (exec (.identify q i) s) fun t => t = { s with out := { s.out with mi := (tag, 4, []) :: s.out.mi } }) ∧
  -- ABORT: R502
  (∀ (s : State) (q : AdmReq) (sq cid : BitVec 16) (x : Nat) (c : Ctx), adminReady q false false s = true →
   (sq ≠ 0 ∨ s.host.fns[q.fn].aers.contains cid = false) → (x < 4096) →
     (s.q.ctxs.find? (fun p => p.2.fn == q.fn && p.2.sq == sq.toNat && p.2.sqe.cid == cid && !p.2.started && p.2.finished.isNone) = some (x, c)) →
     Completes (exec (.abort q sq cid) s) fun t =>
       (x, { c with finished := some (stGen 0x07 true) }) ∈ t.q.ctxs ∧ t.host.fns[q.fn].abortCnt = satAdd 16 s.host.fns[q.fn].abortCnt 1 ∧
       Concluded s t q stOk 0 [] ∧ t = ({ s with q := { s.q with ctxs := t.q.ctxs } } : State).afterAdmin t) ∧
  -- ABORT (none): R502
  (∀ (s : State) (q : AdmReq) (sq cid : BitVec 16), adminReady q false false s = true →
     (sq ≠ 0 ∨ s.host.fns[q.fn].aers.contains cid = false) →
     (s.q.ctxs.any (fun p => p.2.fn == q.fn && p.2.sq == sq.toNat && p.2.sqe.cid == cid && !p.2.started && p.2.finished.isNone) = false) →
     Completes (exec (.abort q sq cid) s) fun t =>
       Concluded s t q stOk 1 [] ∧ t.host.fns[q.fn].abortCnt = s.host.fns[q.fn].abortCnt ∧ t = s.afterAdmin t) ∧
  -- ABORT (event): R502
  (∀ (s : State) (q : AdmReq) (cid : BitVec 16), adminReady q false false s = true →
     s.host.fns[q.fn].aers.contains cid = true →
     Completes (exec (.abort q 0 cid) s) fun t =>
       Concluded s t { fn := q.fn, cid := cid } (stGen 0x07 true) 0 [] ∧ Concluded s t q stOk 0 [] ∧
       t.host.fns[q.fn].aers = s.host.fns[q.fn].aers.erase cid ∧ t.host.fns[q.fn].abortCnt = satAdd 16 s.host.fns[q.fn].abortCnt 1 ∧
       t = s.afterAdmin t) ∧
  -- GET_FEATURES: R473
  (∀ (s : State) (q : AdmReq) (fid : BitVec 8), adminReady q false false s = true →
     keptFeatures.contains fid.toNat = true →
     Completes (exec (.getFeatures q fid) s) fun t => Concluded s t q stOk (s.host.fns[q.fn].feature fid.toNat) [] ∧ t = s.afterAdmin t) ∧
  -- ASYNCHRONOUS_EVENT_REQUEST: R443, R460
  (∀ (s : State) (q : AdmReq), adminReady q true false s = true → (s.host.fns[q.fn].aers.length < 8) →
     (s.host.fns[q.fn].events = []) →
     Completes (exec (.asynchronousEventRequest q) s) fun t =>
       t.host.fns[q.fn].aers = s.host.fns[q.fn].aers ++ [q.cid] ∧ t.out = s.out ∧ (∀ g : Fn, q.fn ≠ g → t.host.fns[g] = s.host.fns[g]) ∧
       t = { s with host := { s.host with fns := t.host.fns } }) ∧
  -- ASYNCHRONOUS_EVENT_REQUEST (event): R443, R460
  (∀ (s : State) (q : AdmReq) (e : AsyncEvent), adminReady q true false s = true → (s.host.fns[q.fn].aers = []) →
     (s.host.fns[q.fn].events.find? (fun e => !s.host.fns[q.fn].masked.contains (e.type, e.logPage)) = some e) →
     Completes (exec (.asynchronousEventRequest q) s) fun t =>
       Concluded s t q stOk e.dword [] ∧ t.host.fns[q.fn].aers = [] ∧ t.host.fns[q.fn].events = s.host.fns[q.fn].events.erase e ∧
       t.host.fns[q.fn].masked = (e.type, e.logPage) :: s.host.fns[q.fn].masked ∧ t = s.afterAdmin t) ∧
  -- KEEP_ALIVE: R443
  (∀ (s : State) (q : AdmReq), adminReady q true false s = true → Completes (exec (.keepAlive q) s) fun t =>
       t.host.fns[q.fn].kaLast = s.mtime ∧ Concluded s t q stOk 0 [] ∧ (∀ g : Fn, q.fn ≠ g → t.host.fns[g] = s.host.fns[g]) ∧
       t = s.afterAdmin t) ∧
  -- DEVICE_SELF_TEST: R446
  (∀ (s : State) (q : AdmReq) (stc : Fin 16), adminReady q false true s = true → (stc = 1 ∨ stc = 2) →
     Completes (exec (.deviceSelfTest q 0 stc) s) fun t =>
       t.host.selfTestLog = ((stc.val, 0, s.rst.poh / 1024) :: s.host.selfTestLog).take 20 ∧ Concluded s t q stOk 0 [] ∧
       t = ({ s with host := { s.host with selfTestLog := t.host.selfTestLog } } : State).afterAdmin t)

/-- The admin commands that change features, namespaces, functions and data: SET_FEATURES, FORMAT_NVM, NAMESPACE_CREATE,
NAMESPACE_DELETE, NAMESPACE_ATTACH, NAMESPACE_DETACH, VIRTUALIZATION_MANAGEMENT, SANITIZE_CRYPTO_ERASE,
SANITIZE_BLOCK_ERASE, SANITIZE_EXIT_FAILURE_MODE, SANITIZE_OVERWRITE, INVALID_OPCODE, SANITIZE_COMPLETE and
FORMAT_COMPLETE complete on the states their clauses name, each with the next state its clause gives. The rules each
clause rests on stand before it. -/
def Obligations.AdminNamespaces : Prop :=
  -- SET_FEATURES: R443, R445, R473
  (∀ (s : State) (q : AdmReq) (fid : BitVec 8) (v : Word), adminReady q false false s = true →
     (fid = 0x01 ∨ fid = 0x04 ∨ fid = 0x05 ∨ fid = 0x08 ∨ fid = 0x09 ∨ fid = 0x0A ∨ fid = 0x0B ∨ fid = 0x16 ∨ fid = 0x17 ∨ fid = 0x19) →
     Completes (exec (.setFeatures q fid false v) s) fun t =>
       t.host.fns[q.fn].features = aset s.host.fns[q.fn].features fid.toNat v ∧ t.host.fns[q.fn].saved = s.host.fns[q.fn].saved ∧
       t.host.fns[q.fn].ps = s.host.fns[q.fn].ps ∧ t.host.fns[q.fn].vwcOn = s.host.fns[q.fn].vwcOn ∧
       (∀ g : Fn, q.fn ≠ g → t.host.fns[g] = s.host.fns[g]) ∧ Concluded s t q stOk 0 [] ∧ t = s.afterAdmin t) ∧
  -- SET_FEATURES (saved): R443, R445, R473
  (∀ (s : State) (q : AdmReq) (fid : BitVec 8) (v : Word), adminReady q false false s = true →
     (fid = 0x01 ∨ fid = 0x04 ∨ fid = 0x05 ∨ fid = 0x08 ∨ fid = 0x09 ∨ fid = 0x0A ∨ fid = 0x0B ∨ fid = 0x16 ∨ fid = 0x17 ∨ fid = 0x19) →
     Completes (exec (.setFeatures q fid true v) s) fun t =>
       t.host.fns[q.fn].features = aset s.host.fns[q.fn].features fid.toNat v ∧ t.host.fns[q.fn].saved = aset s.host.fns[q.fn].saved fid.toNat v ∧
       t.nor = { s.nor with saved := aset s.nor.saved (q.fn, fid.toNat) v } ∧ Concluded s t q stOk 0 [] ∧
       t = ({ s with nor := t.nor } : State).afterAdmin t) ∧
  -- SET_FEATURES (power): R443, R445, R473
  (∀ (s : State) (q : AdmReq) (v : Word), adminReady q false true s = true → (fld v 4 0 ≤ 2) →
     Completes (exec (.setFeatures q 0x02 false v) s) fun t =>
       t.host.fns[(0 : Fn)].ps = fld v 4 0 ∧ Concluded s t q stOk 0 [] ∧ t = s.afterAdmin t) ∧
  -- SET_FEATURES (writeCache): R443, R445, R473
  (∀ (s : State) (q : AdmReq) (v : Word), adminReady q false false s = true →
     Completes (exec (.setFeatures q 0x06 false v) s) fun t =>
       t.host.fns[q.fn].vwcOn = v.getLsbD 0 ∧ Concluded s t q stOk 0 [] ∧ t = s.afterAdmin t) ∧
  -- SET_FEATURES (queues): R443, R445, R473
  (∀ (s : State) (q : AdmReq) (v : Word), adminReady q false false s = true →
     (s.host.fns[q.fn].sqs.length ≤ 1 ∧ s.host.fns[q.fn].cqs.length ≤ 1) →
     Completes (exec (.setFeatures q 0x07 false v) s) fun t =>
       Concluded s t q stOk (mkw [bf 31 16 (s.host.fns[q.fn].pairs - 2), bf 15 0 (s.host.fns[q.fn].pairs - 2)]) [] ∧ t = s.afterAdmin t) ∧
  -- FORMAT_NVM: R446, R451, R607, R609, R608
  (∀ (s : State) (q : AdmReq) (n : FormatReq) (m : Namespace), adminReady q false false s = true → s.sanBlocks = none →
   (s.formatTargets q.fn n.nsid = [m]) → s.aloneOk q.fn [m] = true → formatOk n.lbaf n.pi = true → (n.ses.toNat ≤ 2) →
     m.format = none →
     Completes (exec (.formatNvm q n) s) fun t =>
       t.sec.fmtCmds = s.sec.fmtCmds ++ [(q.fn, q.cid, none, [m.nsid])] ∧ t.sec.fmtProg = 65535 ∧
       (∀ y ∈ t.host.namespaces, y.nsid = m.nsid → y.lbaf = n.lbaf.toNat ∧ y.piType = n.pi.toNat ∧ y.extended = n.extended ∧ y.format = some 0) ∧
       alookup t.nor.formats m.nsid = some (m.zones.length / 64 * 64) ∧
       (n.ses = 0 → t.sec.mediaKeys = s.sec.mediaKeys ∧ t.sec.drbg = s.sec.drbg) ∧
       (n.ses ≠ 0 → alookup t.sec.mediaKeys m.nsid = some (Config.drbg s.sec.drbg))) ∧
  -- NAMESPACE_CREATE: R448, R452, R603, R450
  (∀ (s : State) (q : AdmReq) (n : NsCreate) (i : Nat), adminReady q false true s = true → s.sanBlocks = none →
     ((List.range 16).find? (fun i => !(s.host.namespaces.any fun m => m.nsid == i + 1)) = some i) →
   (n.csi = 0 ∧ n.size ≠ 0 ∧ n.size ≤ s.convFree) → formatOk n.lbaf n.pi = true →
     Completes (exec (.namespaceCreate q n) s) fun t =>
       t.host.namespaces = s.host.namespaces ++ [{ nsid := i + 1, zoned := false, nvmset := 0, size := n.size, lbaf := n.lbaf.toNat, piType := n.pi.toNat, piFirst := n.piFirst, extended := n.extended, shared := n.shared, zones := [] }] ∧
       t.nor.namespaces = t.host.namespaces ∧ alookup t.sec.mediaKeys (i + 1) = some (Config.drbg s.sec.drbg) ∧
       Concluded s t q stOk (nw (i + 1)) [] ∧ t = { s with host := t.host, nor := t.nor, sec := t.sec, out := t.out }) ∧
  -- NAMESPACE_CREATE (zoned): R448, R452, R603, R450
  (∀ (s : State) (q : AdmReq) (n : NsCreate) (i : Nat) (zs : List ZoneNo), adminReady q false true s = true →
   s.sanBlocks = none → ((List.range 16).find? (fun i => !(s.host.namespaces.any fun m => m.nsid == i + 1)) = some i) →
   (n.csi = 2 ∧ n.size ≠ 0 ∧ n.nvmset.toNat ≤ 4 ∧ n.nvmset.toNat ≤ s.layout.engines) → formatOk n.lbaf n.pi = true →
     (s.takeZones n.nvmset.toNat ((n.size + zoneSize - 1) / zoneSize) = some zs) →
     Completes (exec (.namespaceCreate q n) s) fun t =>
       t.host.namespaces = s.host.namespaces ++ [{ nsid := i + 1, zoned := true, nvmset := n.nvmset.toNat, size := (n.size + zoneSize - 1) / zoneSize * zoneSize, lbaf := n.lbaf.toNat, piType := n.pi.toNat, piFirst := n.piFirst, extended := n.extended, shared := n.shared, zones := zs }] ∧
       Concluded s t q stOk (nw (i + 1)) [] ∧ t = { s with host := t.host, nor := t.nor, sec := t.sec, out := t.out }) ∧
  -- NAMESPACE_DELETE: R452, R680
  (∀ (s : State) (q : AdmReq) (nsid : Word) (n : Namespace), adminReady q false true s = true → s.sanBlocks = none →
   (nsid ≠ 0xFFFFFFFF) → (s.host.namespaces.find? (fun n => n.nsid == nsid.toNat) = some n) → n.format = none →
     Completes (exec (.namespaceDelete q nsid) s) fun t =>
       t.host.namespaces = s.host.namespaces.filter (fun m => m.nsid != n.nsid) ∧ t.nor.namespaces = t.host.namespaces ∧
       alookup t.sec.mediaKeys n.nsid = none ∧ alookup t.nor.mediaKeys n.nsid = none ∧ alookup t.nor.keyCopy n.nsid = none ∧ Concluded s t q stOk 0 [] ∧
       (∀ c ∈ t.q.contracts, n.attached.getLsbD c.2.fn.val = false)) ∧
  -- NAMESPACE_ATTACH: R448, R588
  (∀ (s : State) (q : AdmReq) (nsid : Word) (fns : BitVec 16) (n : Namespace), adminReady q false true s = true →
   (s.host.namespaces.find? (fun n => n.nsid == nsid.toNat) = some n) → s.controllersOk fns = true →
   (n.attached &&& fns = 0) → n.shared = true →
     Completes (exec (.namespaceAttach q nsid fns) s) fun t =>
       t.host.namespaces = s.host.namespaces.map (fun m => if m.nsid = n.nsid then { m with attached := m.attached ||| fns } else m) ∧
       t.nor.namespaces = t.host.namespaces ∧ Concluded s t q stOk 0 [] ∧ t.q = s.q ∧ t.media = s.media) ∧
  -- NAMESPACE_DETACH: R448, R495
  (∀ (s : State) (q : AdmReq) (nsid : Word) (fns : BitVec 16) (n : Namespace), adminReady q false true s = true →
   (s.host.namespaces.find? (fun n => n.nsid == nsid.toNat) = some n) → s.controllersOk fns = true →
     (n.attached &&& fns = fns) →
     Completes (exec (.namespaceDetach q nsid fns) s) fun t =>
       t.host.namespaces = s.host.namespaces.map (fun m => if m.nsid = n.nsid then { m with attached := m.attached &&& ~~~fns } else m) ∧
       t.nor.namespaces = t.host.namespaces ∧ Concluded s t q stOk 0 [] ∧ (∀ c ∈ t.q.contracts, fns.getLsbD c.2.fn.val = false) ∧
       t.media = s.media) ∧
  -- VIRTUALIZATION_MANAGEMENT: R471, R472
  (∀ (s : State) (q : AdmReq) (n : BitVec 16), adminReady q false true s = true → (n.toNat ≤ s.pairsLeft 0) →
     Completes (exec (.virtualizationManagement q ⟨1, false, 1, n⟩) s) fun t =>
       t.nor = { s.nor with pairs := vset s.nor.pairs 0 n.toNat } ∧ t.host.fns[(0 : Fn)].pairs = s.host.fns[(0 : Fn)].pairs ∧
       Concluded s t q stOk (nw n.toNat) [] ∧ t = ({ s with nor := t.nor } : State).afterAdmin t) ∧
  -- VIRTUALIZATION_MANAGEMENT (assign): R471, R472
  (∀ (s : State) (q : AdmReq) (f : Fn) (c n : BitVec 16), adminReady q false true s = true →
   (f ≠ 0 ∧ c.toNat = f.val + 1) → s.host.fns[f].online = false → (n.toNat ≤ 32768 ∧ n.toNat ≤ s.pairsLeft f) →
     Completes (exec (.virtualizationManagement q ⟨8, false, c, n⟩) s) fun t =>
       t.nor = { s.nor with pairs := vset s.nor.pairs f n.toNat } ∧ t.host.fns[f].pairs = n.toNat ∧
       Concluded s t q stOk (nw n.toNat) [] ∧ t = ({ s with nor := t.nor } : State).afterAdmin t) ∧
  -- VIRTUALIZATION_MANAGEMENT (online): R471, R472
  (∀ (s : State) (q : AdmReq) (f : Fn) (c n : BitVec 16), adminReady q false true s = true →
   (f ≠ 0 ∧ c.toNat = f.val + 1) → (2 ≤ s.host.fns[f].pairs) →
     Completes (exec (.virtualizationManagement q ⟨9, false, c, n⟩) s) fun t =>
       t.host.fns[f] = { s.host.fns[f] with online := true } ∧ Concluded s t q stOk 0 [] ∧ t = s.afterAdmin t) ∧
  -- VIRTUALIZATION_MANAGEMENT (offline): R471, R472
  (∀ (s : State) (q : AdmReq) (f : Fn) (c n : BitVec 16), adminReady q false true s = true →
     (f ≠ 0 ∧ c.toNat = f.val + 1) →
     Completes (exec (.virtualizationManagement q ⟨7, false, c, n⟩) s) fun t =>
       t.host.fns[f].online = false ∧ (s.host.fns[f].present = true → t.host.fns[f].en = false ∧ ∀ p ∈ t.q.ctxs, p.2.fn ≠ f) ∧
       Concluded s t q stOk 0 []) ∧
  -- SANITIZE_CRYPTO_ERASE: R606
  (∀ (s : State) (q : AdmReq) (ause : Bool), adminReady q false true s = true →
   (s.sec.sanitise = none ∧ s.formatting = 0 ∧ s.sec.commit = none) → s.sec.sanFail = false →
     Completes (exec (.sanitizeCryptoErase q ause) s) fun t =>
       t.sec.sanitise = some { block := false, ause := ause, zonesTotal := s.media.zones.length, zonesDone := s.media.zones.length } ∧ t.nor.sanitise = t.sec.sanitise ∧
       t.sec.sanFail = false ∧ t.sec.sanUnrestricted = ause ∧ t.sec.drbg = s.sec.drbg + s.host.namespaces.length ∧ t.media.indir = [] ∧
       (∀ a : Eng, t.media.remaps[a] = []) ∧ t.trc.captures = [] ∧
       (∀ b ∈ t.q.buffered, ∀ x ∈ b.blocks, x.data = {}) ∧ Concluded s t q stOk 0 []) ∧
  -- SANITIZE_BLOCK_ERASE: R606
  (∀ (s : State) (q : AdmReq) (ause : Bool), adminReady q false true s = true →
   (s.sec.sanitise = none ∧ s.formatting = 0 ∧ s.sec.commit = none) → s.sec.sanFail = false →
     Completes (exec (.sanitizeBlockErase q ause) s) fun t =>
       t.sec.sanitise = some { block := true, ause := ause, zonesTotal := s.media.zones.length, next := s.eraseStart } ∧ t.nor.sanitise = t.sec.sanitise ∧
       t.sec.sanFail = false ∧ t.sec.sanUnrestricted = ause ∧ t.sec.drbg = s.sec.drbg + s.host.namespaces.length ∧ t.media.indir = [] ∧
       (∀ a : Eng, t.media.remaps[a] = []) ∧ t.trc.captures = [] ∧
       (∀ b ∈ t.q.buffered, ∀ x ∈ b.blocks, x.data = {}) ∧ Concluded s t q stOk 0 []) ∧
  -- SANITIZE_EXIT_FAILURE_MODE: R610
  (∀ (s : State) (q : AdmReq), adminReady q false true s = true → s.sec.sanitise = none →
     (s.sec.sanFail = true → s.sec.sanUnrestricted = true) →
     Completes (exec (.sanitizeExitFailureMode q) s) fun t =>
       t.sec = { s.sec with sanFail := false } ∧ Concluded s t q stOk 0 [] ∧ t = ({ s with sec := t.sec } : State).afterAdmin t) ∧
  -- SANITIZE_OVERWRITE: R606
  (∀ (s : State) (q : AdmReq), adminReady q false true s = true →
     Completes (exec (.sanitizeOverwrite q) s) fun t => Concluded s t q stInvalidField 0 [] ∧ t.sec = s.sec ∧ t = s.afterAdmin t) ∧
  -- INVALID_OPCODE: R446
  (∀ (s : State) (q : AdmReq) (opc : BitVec 8), adminReady q false false s = true →
     Completes (exec (.invalidOpcode q opc) s) fun t => Concluded s t q stInvalidOpcode 0 [] ∧ t = s.afterAdmin t) ∧
  -- SANITIZE_COMPLETE: R609, R610
  (∀ (s : State) (ok : Bool) (x : Sanitise), (s.sec.sanitise = some x) →
     (x.block = true → ok = true → x.next = Vector.replicate 24 none) →
     Completes (exec (.sanitizeComplete ok) s) fun t =>
       t.sec = { s.sec with sanitise := none, sanFail := !ok && x.block, sanProg := 0, sanStatus := if ok || !x.block then 1 else 3 } ∧
       t.nor = { s.nor with sanitise := none } ∧ t = ({ s with sec := t.sec, nor := t.nor } : State).afterAdmin t) ∧
  -- FORMAT_COMPLETE: R608, R609
  (∀ (s : State) (f : Fn) (cid : BitVec 16) (ids : List Nat) (rest : List (Fn × BitVec 16 × Option Nat × List Nat)),
     (s.sec.fmtCmds = (f, cid, none, ids) :: rest) → (s.pendingChanges = []) →
     s.oldPending (fun z => s.host.namespaces.any fun n => ids.contains n.nsid && n.zones.contains z) = false →
     Completes (exec .formatComplete s) fun t =>
       t.sec = { s.sec with fmtCmds := rest, fmtProg := 0 } ∧
       t.host.namespaces = s.host.namespaces.map (fun m => if ids.contains m.nsid then { m with format := none } else m) ∧
       t.nor = { s.nor with namespaces := t.host.namespaces, formats := s.nor.formats.filter fun p => !ids.contains p.1 } ∧
       Concluded s t { fn := f, cid := cid } stOk 0 [] ∧ t = { s with sec := t.sec, nor := t.nor, host := t.host, out := t.out })

/-- Hetos exchanges over NVMe and MCTP, and the packets of the module: HETOS_EXCHANGE, HETOS_MCTP_REQUEST, EXCHANGE_START,
MOD_IDENTIFY, MOD_ECHO, MOD_LAYOUT, HETOS_STATUS and HETOS_CLEAR complete on the states their clauses name, each with
the next state its clause gives. The rules each clause rests on stand before it. -/
def Obligations.Exchanges : Prop :=
  -- HETOS_EXCHANGE: R526, R527
  (∀ (s : State) (q : AdmReq) (h : HetosCmd), adminReady q false false s = true →
     (s.het.exchanges.any (fun x => x.xid == h.xid) = false) →
     (1 ≤ h.nump.toNat ∧ h.nump.toNat ≤ 64 ∧ h.cdw12.toNat % 32 = 0 ∧ h.cdw12.toNat % 4096 + 32 * h.nump.toNat ≤ 4096) →
   h.readOk = true → (s.het.active < 8) →
     assignedOps.contains (((packetsOf h.xid (.nvme q.fn) 1 (h.buffer.map (·.toNat))).map (·.1.toNat)).headD 0) = true →
     Completes (exec (.hetosExchange q h) s) fun t =>
       t.het.exchanges = s.het.exchanges ++ [{
         xid := h.xid, src := .nvme q.fn, cid := q.cid, buf := h.cdw12.toNat + 2 ^ 32 * h.cdw13.toNat
         todo := packetsOf h.xid (.nvme q.fn) h.nump.toNat (h.buffer.map (·.toNat)), writeFails := !h.writeOk, running := true }] ∧
       t.out = s.out ∧ (∀ g : Fn, q.fn ≠ g → t.host.fns[g] = s.host.fns[g]) ∧
       t = { s with het := { s.het with exchanges := t.het.exchanges }, host := { s.host with fns := t.host.fns } }) ∧
  -- HETOS_EXCHANGE (wait): R526, R527
  (∀ (s : State) (q : AdmReq) (h : HetosCmd), adminReady q false false s = true →
     (s.het.exchanges.any (fun x => x.xid == h.xid) = false) →
     (1 ≤ h.nump.toNat ∧ h.nump.toNat ≤ 64 ∧ h.cdw12.toNat % 32 = 0 ∧ h.cdw12.toNat % 4096 + 32 * h.nump.toNat ≤ 4096) →
   h.readOk = true → (8 ≤ s.het.active) →
     Completes (exec (.hetosExchange q h) s) fun t =>
       t.het.exchanges = s.het.exchanges ++ [{
         xid := h.xid, src := .nvme q.fn, cid := q.cid, buf := h.cdw12.toNat + 2 ^ 32 * h.cdw13.toNat
         todo := packetsOf h.xid (.nvme q.fn) h.nump.toNat (h.buffer.map (·.toNat)), writeFails := !h.writeOk, running := false }] ∧
       t.out = s.out ∧ (∀ g : Fn, q.fn ≠ g → t.host.fns[g] = s.host.fns[g]) ∧
       t = { s with het := { s.het with exchanges := t.het.exchanges }, host := { s.host with fns := t.host.fns } }) ∧
  -- HETOS_EXCHANGE (refused): R526, R527
  (∀ (s : State) (q : AdmReq) (h : HetosCmd), adminReady q false false s = true →
     (s.het.exchanges.any (fun x => x.xid == h.xid) = false) →
     (h.nump.toNat = 0 ∨ 64 < h.nump.toNat ∨ h.cdw12.toNat % 32 ≠ 0 ∨ 4096 < h.cdw12.toNat % 4096 + 32 * h.nump.toNat) →
     Completes (exec (.hetosExchange q h) s) fun t => Concluded s t q stInvalidField 0 [] ∧ t.het = s.het ∧ t = s.afterAdmin t) ∧
  -- HETOS_MCTP_REQUEST: R528, R529
  (∀ (s : State) (m : MctpReq), (s.het.exchanges.any (fun x => x.xid == m.xid) = false) →
     s.rst.rail12 = true → requestSound m = true → requestTaken m s = false →
   (s.het.active < 8) →
     assignedOps.contains (((packetsOf m.xid (requestSrc m) 1 ((requestBytes m).drop 8)).map (·.1.toNat)).headD 0) = true →
     Completes (exec (.hetosMctpRequest m) s) fun t =>
       t = { s with het := { s.het with exchanges := s.het.exchanges ++
         [{
           xid := m.xid, src := requestSrc m, eid := m.eid, mtag := m.mtag.val
           todo := packetsOf m.xid (requestSrc m) (requestCount m) ((requestBytes m).drop 8), running := true }] } }) ∧
  -- HETOS_MCTP_REQUEST (wait): R528, R529
  (∀ (s : State) (m : MctpReq), (s.het.exchanges.any (fun x => x.xid == m.xid) = false) →
     s.rst.rail12 = true → requestSound m = true → requestTaken m s = false →
     (8 ≤ s.het.active) →
     Completes (exec (.hetosMctpRequest m) s) fun t =>
       t = { s with het := { s.het with exchanges := s.het.exchanges ++
         [{
           xid := m.xid, src := requestSrc m, eid := m.eid, mtag := m.mtag.val
           todo := packetsOf m.xid (requestSrc m) (requestCount m) ((requestBytes m).drop 8), running := false }] } }) ∧
  -- HETOS_MCTP_REQUEST (malformed): R528, R529
  (∀ (s : State) (m : MctpReq), (s.het.exchanges.any (fun x => x.xid == m.xid) = false) →
     s.rst.rail12 = true → (requestSound m = false ∨ requestTaken m s = true) →
     Completes (exec (.hetosMctpRequest m) s) fun t =>
       t.host.mctpMalCnt = inc 16 s.host.mctpMalCnt ∧
       t = ({ s with host := { s.host with mctpMalCnt := t.host.mctpMalCnt, violations := t.host.violations } } : State).afterEvent t) ∧
  -- EXCHANGE_START: R520
  (∀ (s : State) (x : Exchange), (s.het.exchanges = [x]) → (x.running = false ∧ x.dropped = false ∧ x.stopped = false) →
     assignedOps.contains ((x.todo.map (·.1.toNat)).headD 0) = true → (s.het.waiting = []) →
     Completes (exec .exchangeStart s) fun t =>
       t.het.exchanges = [{ x with running := true }] ∧ t = { s with het := { s.het with exchanges := t.het.exchanges } }) ∧
  -- MOD_IDENTIFY: R532
  (∀ (s : State) (p : Packet), ready ⟨0x0100, [5], .read⟩ p s = true → Completes (exec (.modIdentify p) s) fun t =>
       Answered s t 0x0100 p [0x00004824, rModStep s, rLayout s.layout, s.sec.running.version, nw s.fuse.serial.toNat, nw (s.fuse.serial.toNat / 2 ^ 32)] ∧
       t = s.afterReply t) ∧
  -- MOD_ECHO: R533
  (∀ (s : State) (p : Packet), ready ⟨0x0101, [5], .read⟩ p s = true →
     Completes (exec (.modEcho p) s) fun t => Answered s t 0x0101 p [p.w 0, p.w 1, p.w 2, p.w 3, p.w 4, p.w 5] ∧ t = s.afterReply t) ∧
  -- MOD_LAYOUT: R534, R535
  (∀ (s : State) (p : Packet) (n : Nat), ready ⟨0x0102, [5], .config⟩ p s = true → p.w 5 = 0x4C41594F →
     ((p.w 0).toNat = n ∧ n ≤ 2) →
     ((List.range 4).all (fun a => decide (n + 2 ≤ a) || decide (1 ≤ (p.w (a + 1)).toNat ∧ (p.w (a + 1)).toNat ≤ headLimit (n + 2))) = true) →
     Completes (exec (.modLayout p) s) fun t =>
       t.nor.layout.engines = n + 2 ∧ (∀ a : Eng, t.nor.layout.heads[a] = if a.val < n + 2 then (p.w (a.val + 1)).toNat else 0) ∧
       t.layout = s.layout ∧ t = ({ s with nor := { s.nor with layout := t.nor.layout } } : State).afterReply t) ∧
  -- HETOS_STATUS: R536
  (∀ (s : State) (p : Packet) (x : Fin 3), ready ⟨0x0103, [5], .read⟩ p s = true → ((p.w 0).toNat = x.val) →
     Completes (exec (.hetosStatus p) s) fun t => Answered s t 0x0103 p (stHts { s with het := { s.het with lastOp := 0x0103 } } x) ∧ t = s.afterReply t) ∧
  -- HETOS_CLEAR: R536
  (∀ (s : State) (p : Packet) (x : Fin 3), ready ⟨0x0104, [5], .action⟩ p s = true → ((p.w 0).toNat = x.val) →
     Completes (exec (.hetosClear p) s) fun t =>
       Answered s t 0x0104 p (selected (fld (p.w 1) 3 0) [[nw s.het.cnt[x].pkt], [nw s.het.cnt[x].fail], [nw s.het.cnt[x].deny], [nw s.het.cnt[x].clamp]]) ∧
       t = s.afterReply t)

/-- The NVMe management interface: READ_NVME_MI_DATA_STRUCTURE, NVM_SUBSYSTEM_HEALTH_STATUS_POLL,
CONTROLLER_HEALTH_STATUS_POLL, CONFIGURATION_SET, CONFIGURATION_GET, VPD_READ and VPD_WRITE complete on the states their
clauses name, each with the next state its clause gives. The rules each clause rests on stand before it. -/
def Obligations.ManagementInterface : Prop :=
  -- READ_NVME_MI_DATA_STRUCTURE: R465
  (∀ (s : State) (m : MiReq),
     s.rst.rail12 = true →
     (m.inBand = false ∨ s.host.fns[(0 : Fn)].present = true ∧ s.host.fns[(0 : Fn)].en = true ∧ s.host.fns[(0 : Fn)].rdy = true) →
     s.host.fns[m.ctlr].present = true →
     Completes (exec (.readNvmeMiDataStructure m 2) s) fun t =>
       t = { s with out := { s.out with mi := (m.mtag, 0,
         nw ((fins 16).filter fun (f : Fn) => s.host.fns[f].present).length :: (((fins 16).filter fun (f : Fn) => s.host.fns[f].present).map (·.val + 1)).map nw) :: s.out.mi } }) ∧
  -- READ_NVME_MI_DATA_STRUCTURE (reserved): R465
  (∀ (s : State) (m : MiReq) (d : BitVec 8),
     s.rst.rail12 = true →
     (m.inBand = false ∨ s.host.fns[(0 : Fn)].present = true ∧ s.host.fns[(0 : Fn)].en = true ∧ s.host.fns[(0 : Fn)].rdy = true) →
     (4 < d.toNat) →
     Completes (exec (.readNvmeMiDataStructure m d) s) fun t => t = { s with out := { s.out with mi := (m.mtag, 4, []) :: s.out.mi } }) ∧
  -- READ_NVME_MI_DATA_STRUCTURE (dark): R465
  (∀ (s : State) (m : MiReq) (d : BitVec 8), s.rst.rail12 = false →
     Completes (exec (.readNvmeMiDataStructure m d) s) fun t => t = s) ∧
  -- NVM_SUBSYSTEM_HEALTH_STATUS_POLL: R465
  (∀ (s : State) (m : MiReq) (clear : Bool),
     s.rst.rail12 = true →
     (m.inBand = false ∨ s.host.fns[(0 : Fn)].present = true ∧ s.host.fns[(0 : Fn)].en = true ∧ s.host.fns[(0 : Fn)].rdy = true) →
     s.host.fns[m.ctlr].present = true →
     Completes (exec (.nvmSubsystemHealthStatusPoll m clear) s) fun t =>
       t.host = { s.host with healthFlags := if clear then 0 else s.host.healthFlags } ∧
       (t.out.mi.head?.map fun x => (x.1, x.2.1, x.2.2.length)) = some (m.mtag, 0, 2) ∧ t = { s with host := t.host, out := { s.out with mi := t.out.mi } }) ∧
  -- CONTROLLER_HEALTH_STATUS_POLL: R465
  (∀ (s : State) (m : MiReq) (clear : Bool),
     s.rst.rail12 = true →
     (m.inBand = false ∨ s.host.fns[(0 : Fn)].present = true ∧ s.host.fns[(0 : Fn)].en = true ∧ s.host.fns[(0 : Fn)].rdy = true) →
     s.host.fns[m.ctlr].present = true →
     Completes (exec (.controllerHealthStatusPoll m clear) s) fun t =>
       t.host = { s.host with healthFlags := if clear then 0 else s.host.healthFlags } ∧
       t.out.mi = (m.mtag, 0, nw ((fins 16).filter fun (f : Fn) => s.host.fns[f].present && decide (m.ctlr ≤ f)).length ::
         ((fins 16).filter fun (f : Fn) => s.host.fns[f].present && decide (m.ctlr ≤ f)).flatMap fun (f : Fn) =>
           [mkw [bf 15 0 (f.val + 1), bf 31 16 s.host.fns[f].csts], mkw [bf 15 0 s.compositeK, bf 31 24 s.availableSpare],
             mkw [bf 7 0 (s.criticalWarning f)]]) :: s.out.mi ∧ t = { s with host := t.host, out := { s.out with mi := t.out.mi } }) ∧
  -- CONFIGURATION_SET: R465
  (∀ (s : State) (m : MiReq) (v : Word),
     s.rst.rail12 = true →
     (m.inBand = false ∨ s.host.fns[(0 : Fn)].present = true ∧ s.host.fns[(0 : Fn)].en = true ∧ s.host.fns[(0 : Fn)].rdy = true) →
   s.host.fns[m.ctlr].present = true → (1 ≤ v.toNat ∧ v.toNat ≤ 3) →
     Completes (exec (.configurationSet m 1 v) s) fun t =>
       t.host = { s.host with miConfig := aset s.host.miConfig 0x01 v } ∧ t = { s with host := t.host, out := { s.out with mi := (m.mtag, 0, []) :: s.out.mi } }) ∧
  -- CONFIGURATION_SET (health): R465
  (∀ (s : State) (m : MiReq) (v : Word),
     s.rst.rail12 = true →
     (m.inBand = false ∨ s.host.fns[(0 : Fn)].present = true ∧ s.host.fns[(0 : Fn)].en = true ∧ s.host.fns[(0 : Fn)].rdy = true) →
     s.host.fns[m.ctlr].present = true →
     Completes (exec (.configurationSet m 2 v) s) fun t =>
       t.host = { s.host with healthFlags := s.host.healthFlags &&& ~~~(v.setWidth 16) } ∧
       t = { s with host := t.host, out := { s.out with mi := (m.mtag, 0, []) :: s.out.mi } }) ∧
  -- CONFIGURATION_GET: R465
  (∀ (s : State) (m : MiReq) (id : BitVec 8),
     s.rst.rail12 = true →
     (m.inBand = false ∨ s.host.fns[(0 : Fn)].present = true ∧ s.host.fns[(0 : Fn)].en = true ∧ s.host.fns[(0 : Fn)].rdy = true) →
   s.host.fns[m.ctlr].present = true → (id = 1 ∨ id = 3) →
     Completes (exec (.configurationGet m id) s) fun t =>
       t = { s with out := { s.out with mi := (m.mtag, 0, [(alookup s.host.miConfig id.toNat).getD (if id = 1 then 1 else 64)]) :: s.out.mi } }) ∧
  -- VPD_READ: R465
  (∀ (s : State) (m : MiReq) (off len : Nat),
     s.rst.rail12 = true →
     (m.inBand = false ∨ s.host.fns[(0 : Fn)].present = true ∧ s.host.fns[(0 : Fn)].en = true ∧ s.host.fns[(0 : Fn)].rdy = true) →
   s.host.fns[m.ctlr].present = true → (off + len ≤ 256) →
     Completes (exec (.vpdRead m off len) s) fun t =>
       t = { s with out := { s.out with mi := (m.mtag, 0, packWords ((List.range len).map fun i => s.vpdByte (off + i))) :: s.out.mi } }) ∧
  -- VPD_WRITE: R465
  (∀ (s : State) (m : MiReq) (off : Nat) (b : Byte),
     s.rst.rail12 = true →
     (m.inBand = false ∨ s.host.fns[(0 : Fn)].present = true ∧ s.host.fns[(0 : Fn)].en = true ∧ s.host.fns[(0 : Fn)].rdy = true) →
   s.host.fns[m.ctlr].present = true → (off < 256) →
     Completes (exec (.vpdWrite m off [b]) s) fun t =>
       t.vpdByte off = b.toNat ∧ (∀ i, i ≠ off → t.vpdByte i = s.vpdByte i) ∧
       t = { s with nor := { s.nor with vpd := t.nor.vpd }, out := { s.out with mi := (m.mtag, 0, []) :: s.out.mi } })

/-- Memory: the controller memory buffer, arbitration, write-backs, scrubbing and repair: CMB_WRITE, CMB_READ,
CMB_REFILL_DONE, DRAM_ARBITRATION, ECC_WRITEBACK, DRAM_REFRESH, BUCKET_LEAK, SCRUB_BURST, SRAM_SCRUB_PASS and
DRAM_ROW_REPAIR complete on the states their clauses name, each with the next state its clause gives. The rules each
clause rests on stand before it. -/
def Obligations.MemoryEvents : Prop :=
  -- CMB_WRITE (word): R462, R567, R570
  (∀ (s : State) (f : Fn) (off : Nat) (bytes : List Byte) (b n : Nat), (s.cmbOf f = some (b, n)) →
   s.host.fns[f].present = true → s.cmbOn f = true → (off + bytes.length ≤ n) → s.mem.refill.contains f = false → (off % 8 = 0) →
   bytes.length = 8 → Memory.wf s.mem.dram = true →
     Completes (exec (.cmbWrite f off bytes) s) fun t =>
       Memory.read t.mem.dram ((b + off) / 8) = EccWord.fresh (mergeBytes 0 0 bytes) ∧
       (∀ w, w ≠ (b + off) / 8 → Memory.read t.mem.dram w = Memory.read s.mem.dram w) ∧
       Memory.wf t.mem.dram = true ∧ t = { s with mem := t.mem }) ∧
  -- CMB_WRITE (deferred): R462, R567, R570
  (∀ (s : State) (f : Fn) (off : Nat) (bytes : List Byte) (b n : Nat), (s.cmbOf f = some (b, n)) →
   s.host.fns[f].present = true → s.cmbOn f = true → (off + bytes.length ≤ n) → s.mem.refill.contains f = true →
     Completes (exec (.cmbWrite f off bytes) s) fun t =>
       t = { s with mem := { s.mem with deferred := s.mem.deferred ++ [(f, off, bytes)] } }) ∧
  -- CMB_READ: R462, R566, R570
  (∀ (s : State) (f : Fn) (off len b n : Nat), (s.cmbOf f = some (b, n)) → s.host.fns[f].present = true → s.cmbOn f = true →
   (0 < len ∧ off + len ≤ n) → s.mem.refill.contains f = false →
     ((List.range ((b + off + len - 1) / 8 + 1 - (b + off) / 8)).all (fun i => (Memory.read s.mem.dram ((b + off) / 8 + i)).kind == .none) = true) →
     Completes (exec (.cmbRead f off len) s) fun t =>
       t.out = { s.out with tlps := (f, 2, (List.range ((b + off + len - 1) / 8 + 1 - (b + off) / 8)).flatMap fun i =>
         lohi (Memory.read s.mem.dram ((b + off) / 8 + i)).data.toNat) :: s.out.tlps } ∧
       t.mem.dram = s.mem.dram ∧ t = { s with mem := { s.mem with chan := t.mem.chan }, out := t.out }) ∧
  -- CMB_READ (poison): R462, R566, R570
  (∀ (s : State) (f : Fn) (off len b n : Nat), (s.cmbOf f = some (b, n)) → s.host.fns[f].present = true → s.cmbOn f = true →
   (0 < len ∧ off + len ≤ n) → s.mem.refill.contains f = true →
     Completes (exec (.cmbRead f off len) s) fun t =>
       t.out = { s.out with tlps := (f, 3, []) :: (f, 1, []) :: s.out.tlps } ∧
       t.host.fns[f].cmbPoisCnt = inc 16 s.host.fns[f].cmbPoisCnt ∧ t.mem.dram = s.mem.dram ∧
       t = ({ s with mem := t.mem, host := t.host, out := t.out } : State).afterEvent t) ∧
  -- CMB_REFILL_DONE: R570
  (∀ (s : State) (f : Fn), s.mem.refill.contains f = true → Completes (exec (.cmbRefillDone f) s) fun t =>
       t.mem.refill = s.mem.refill.filter (· ≠ f) ∧ t.mem.deferred = s.mem.deferred.filter (fun d => d.1 ≠ f) ∧
       ((s.mem.deferred.all fun d => d.1 != f) = true → t.mem.dram = s.mem.dram) ∧ t = ({ s with mem := t.mem } : State).afterEvent t) ∧
  -- DRAM_ARBITRATION: R194, R561, R563, R573
  (∀ (s : State) (c : Fin 2) (asks : List DramAsk) (errs : List BitErrors) (q : DramReq), ((s.askDram c asks).mem.best c = some q) →
   q.data = none →
   ((List.range 8).all (fun i => !(Memory.read (errs.foldl (fun u e => u.disturb (q.addr / 8 + e.word.val) e) s).mem.dram
       (q.addr / 8 + i)).kind.bad) = true) →
     Completes (exec (.dramArbitration ⟨c, asks, errs⟩) s) fun t =>
       t.mem.chan[c].pending = (s.askDram c asks).mem.chan[c].pending.erase q ∧ t.mem.chan[c].owner = q.who ∧
       t.mem.chan[c].busy = wrapAdd 32 s.mem.chan[c].busy 1 ∧
       t.mem.dram = (errs.foldl (fun u e => u.disturb (q.addr / 8 + e.word.val) e) s).mem.dram ∧
       (∀ r : Fin 10, t.mem.chan[c].loss[r] =
         if r.val = q.who then 0
         else if ((s.askDram c asks).mem.chan[c].pending.erase q).any (fun y => y.who == r.val) then satAdd 8 s.mem.chan[c].loss[r] 1
         else s.mem.chan[c].loss[r]) ∧
       t = ({ s with mem := t.mem } : State).afterEvent t) ∧
  -- DRAM_ARBITRATION (write): R194, R561, R567
  (∀ (s : State) (c : Fin 2) (asks : List DramAsk) (q : DramReq) (off : Nat) (bytes : List Byte),
   ((s.askDram c asks).mem.best c = some q) → (q.data = some (off, bytes)) → ((q.addr + off) % 8 = 0) → bytes.length = 8 →
   Memory.wf s.mem.dram = true →
     Completes (exec (.dramArbitration ⟨c, asks, []⟩) s) fun t =>
       t.mem.chan[c].pending = (s.askDram c asks).mem.chan[c].pending.erase q ∧ t.mem.chan[c].owner = q.who ∧
       t.mem.chan[c].busy = wrapAdd 32 s.mem.chan[c].busy 1 ∧
       Memory.read t.mem.dram ((q.addr + off) / 8) = EccWord.fresh (mergeBytes 0 0 bytes) ∧
       (∀ w, w ≠ (q.addr + off) / 8 → Memory.read t.mem.dram w = Memory.read s.mem.dram w) ∧
       Memory.wf t.mem.dram = true ∧ t = { s with mem := t.mem }) ∧
  -- DRAM_ARBITRATION (idle): R561
  (∀ (s : State) (c : Fin 2) (errs : List BitErrors), s.mem.best c = none →
     Completes (exec (.dramArbitration ⟨c, [], errs⟩) s) fun t => t = s) ∧
  -- ECC_WRITEBACK: R565
  (∀ (s : State) (c : Fin 2) (w : Nat) (v : EccWord), (s.mem.chan[c].writebacks.head? = some (w, v)) →
     Memory.wf s.mem.dram = true →
     Completes (exec (.eccWriteback c) s) fun t =>
       Memory.read t.mem.dram w = v ∧ (∀ i, i ≠ w → Memory.read t.mem.dram i = Memory.read s.mem.dram i) ∧
       Memory.wf t.mem.dram = true ∧ t = { s with mem := t.mem }) ∧
  -- DRAM_REFRESH: R560
  (∀ (s : State) (c : Fin 2), Completes (exec (.dramRefresh c) s) fun t =>
       t.mem.chan[c] = { s.mem.chan[c] with
         refreshes := s.mem.chan[c].refreshes + 1
         refresh2x := decide (1360 < s.lpe.temps[(7 : Fin 8)]) || (s.mem.chan[c].refresh2x && decide (1312 ≤ s.lpe.temps[(7 : Fin 8)])) } ∧
       (∀ d : Fin 2, c ≠ d → t.mem.chan[d] = s.mem.chan[d]) ∧ t = { s with mem := { s.mem with chan := t.mem.chan } }) ∧
  -- BUCKET_LEAK: R571
  (∀ (s : State) (r : MemRegion), Completes (exec (.bucketLeak r) s) fun t =>
       t.mem.bkt[r] = { s.mem.bkt[r] with
         level := s.mem.bkt[r].level - 1, ovf := s.mem.bkt[r].ovf && decide (s.mem.bkt[r].depth / 2 < s.mem.bkt[r].level - 1) } ∧
       (t.mem.bkt[r].ovf = false → t.mem.irq.getLsbD r.val = false) ∧ (∀ x, r ≠ x → t.mem.bkt[x] = s.mem.bkt[x]) ∧
       t = { s with mem := { s.mem with bkt := t.mem.bkt, irq := t.mem.irq } }) ∧
  -- SCRUB_BURST: R572
  (∀ (s : State) (c : Fin 2), (s.mem.scrubPos < dramWindow) → Completes (exec (.scrubBurst c) s) fun t =>
       t.mem.chan[c] = { s.mem.chan[c] with
         pending := s.mem.chan[c].pending ++ [{ who := 9, at_ := s.mtime, addr := burstAddr c s.mem.scrubPos }] } ∧
       (∀ d : Fin 2, c ≠ d → t.mem.chan[d] = s.mem.chan[d]) ∧
       t = { s with mem := { s.mem with chan := t.mem.chan, scrubPos := if c = 0 then s.mem.scrubPos else s.mem.scrubPos + 8 } }) ∧
  -- SCRUB_BURST (wrap): R572
  (∀ (s : State), (s.mem.scrubPos = chanWords - 8) →
     Completes (exec (.scrubBurst 1) s) fun t => t.mem.scrubPos = 0 ∧ t.mem.scrubPass = satAdd 32 s.mem.scrubPass 1 ∧ t = { s with mem := t.mem }) ∧
  -- SRAM_SCRUB_PASS: R572
  (∀ (s : State) (r : MemRegion) (found : List ScrubFind), (8 ≤ r.val) →
     (found.all (fun x => x.word.kind == .none) = true) →
     Completes (exec (.sramScrubPass r found) s) fun t => t = s) ∧
  -- SRAM_SCRUB_PASS (corrected): R572
  (∀ (s : State) (r : MemRegion) (x : ScrubFind), (8 ≤ r.val) → (x.word.kind = .ce) →
     Completes (exec (.sramScrubPass r [x]) s) fun t =>
       t.mem.bkt[r].ceCnt = satAdd 32 s.mem.bkt[r].ceCnt 1 ∧ t.mem.bkt[r].ueCnt = s.mem.bkt[r].ueCnt ∧
       t.mem.bkt[r].level = min (s.mem.bkt[r].level + 1) s.mem.bkt[r].depth ∧
       t.mem.lastCe = { memid := 2, region := r.val, synd := x.word.syndrome, kind := .ce, waddr := x.waddr } ∧
       t = ({ s with mem := t.mem, nor := t.nor } : State).afterEvent t) ∧
  -- SRAM_SCRUB_PASS (uncorrectable): R572
  (∀ (s : State) (x : ScrubFind), x.word.kind.bad = true → Completes (exec (.sramScrubPass 9 [x]) s) fun t =>
       t.mem.bkt[(9 : MemRegion)].ueCnt = inc 32 s.mem.bkt[(9 : MemRegion)].ueCnt ∧ t.mem.ueHead = (s.mem.ueHead + 1) % 16) ∧
  -- DRAM_ROW_REPAIR: R574
  (∀ (s : State) (c : Fin 2) (d row : Nat) (rest : List (Nat × Nat)), (s.mem.chan[c].marked = (d, row) :: rest) →
   s.repairLeft c d row = true → Memory.wf s.mem.dram = true →
     Completes (exec (.dramRowRepair c) s) fun t =>
       t.nor = { s.nor with repairs := s.nor.repairs ++ [(c.val, d, row)] } ∧ t.mem.repairCnt = inc 32 s.mem.repairCnt ∧
       t.mem.chan[c].marked = rest ∧ t.mem.chan[c].pprUsed = s.mem.chan[c].pprUsed + 1 ∧ Memory.wf t.mem.dram = true ∧
       (∀ w, (wordChan w ≠ c ∨ rowOf (chanWord w) ≠ row) → Memory.read t.mem.dram w = Memory.read s.mem.dram w) ∧
       (∀ w, wordChan w = c → rowOf (chanWord w) = row → (Memory.read t.mem.dram w).kind = if (Memory.read s.mem.dram w).kind.bad then .poison else .none) ∧
       t = ({ s with mem := t.mem, nor := t.nor } : State).afterReply t) ∧
  -- DRAM_ROW_REPAIR (none): R574
  (∀ (s : State) (c : Fin 2) (d row : Nat) (rest : List (Nat × Nat)), (s.mem.chan[c].marked = (d, row) :: rest) →
     s.repairLeft c d row = false →
     Completes (exec (.dramRowRepair c) s) fun t =>
       t.mem.repairFull = true ∧ t.mem.chan[c].marked = rest ∧ t.mem.dram = s.mem.dram ∧ t.mem.repairCnt = s.mem.repairCnt ∧
       t.nor = s.nor ∧ t = ({ s with mem := t.mem } : State).afterReply t)

/-- The packets of the memory block: MEM_STATUS, MEM_CONFIG, MEM_SCRUB_RESTART, MEM_SCRUB_SRAM, MEM_REPAIR, MEM_DIAG_READ,
MEM_DIAG_WRITE and MEM_CLEAR complete on the states their clauses name, each with the next state its clause gives. The
rules each clause rests on stand before it. -/
def Obligations.MemoryPackets : Prop :=
  -- MEM_STATUS: R521
  (∀ (s : State) (p : Packet), ready ⟨0x0210, [5], .read⟩ p s = true →
     Completes (exec (.memStatus p) s) fun t => Answered s t 0x0210 p (stMem s) ∧ t = s.afterReply t) ∧
  -- MEM_CONFIG: R578
  (∀ (s : State) (p : Packet), ready ⟨0x0211, [5], .config⟩ p s = true → (p.w 3).getLsbD 31 = false →
     Completes (exec (.memConfig p) s) fun t =>
       t.mem = { s.mem with
         cfg := clampWord [fIn 31 24 1 168, fIn 23 16 1 255, fIn 15 12 2 15] 0 (p.w 0), starve := dramStarveWord (p.w 1)
         prio := clampWord [fAny 19 0] 0 (p.w 2) } ∧
       t.nor = { s.nor with mem := vset (vset (vset s.nor.mem 0 t.mem.cfg) 1 t.mem.starve) 2 t.mem.prio } ∧
       Answered s t 0x0211 p [t.mem.cfg, t.mem.starve, t.mem.prio, clampWord [fAny 31 31, fIn 3 0 0 14] 0 (p.w 3), p.w 4] ∧
       t = ({ s with mem := t.mem, nor := t.nor } : State).afterReply t) ∧
  -- MEM_CONFIG (bucket): R578
  (∀ (s : State) (p : Packet) (r : MemRegion), ready ⟨0x0211, [5], .config⟩ p s = true → (p.w 3).getLsbD 31 = true →
   (fld (p.w 3) 3 0 = r.val) → (s.mem.bkt[r].level < 2) →
     Completes (exec (.memConfig p) s) fun t =>
       t.mem.bkt[r] = { s.mem.bkt[r] with
         depth := fld (clampWord [fIn 31 24 2 255, fIn 15 0 1 65535] 0 (p.w 4)) 31 24
         leakMin := fld (clampWord [fIn 31 24 2 255, fIn 15 0 1 65535] 0 (p.w 4)) 15 0 } ∧
       t.mem.cfg = clampWord [fIn 31 24 1 168, fIn 23 16 1 255, fIn 15 12 2 15] 0 (p.w 0) ∧
       (∀ x, r ≠ x → t.mem.bkt[x] = s.mem.bkt[x]) ∧ t.nor.bktCfg[r] = clampWord [fIn 31 24 2 255, fIn 15 0 1 65535] 0 (p.w 4) ∧
       t = ({ s with mem := t.mem, nor := t.nor } : State).afterReply t) ∧
  -- MEM_SCRUB_RESTART: R572
  (∀ (s : State) (p : Packet), ready ⟨0x0212, [5], .action⟩ p s = true → (p.w 0).getLsbD 0 = true →
     Completes (exec (.memScrubRestart p) s) fun t =>
       t.mem = { s.mem with scrubPos := 0 } ∧ Answered s t 0x0212 p [0, nw s.mem.scrubPass] ∧ t = ({ s with mem := t.mem } : State).afterReply t) ∧
  -- MEM_SCRUB_SRAM: R572
  (∀ (s : State) (p : Packet), ready ⟨0x0212, [5], .action⟩ p s = true → (p.w 0).getLsbD 0 = false →
     Completes (exec (.memScrubSram p) s) fun t => Answered s t 0x0212 p [nw s.mem.scrubPos, nw s.mem.scrubPass] ∧ t = s.afterReply t) ∧
  -- MEM_REPAIR: R579
  (∀ (s : State) (p : Packet) (c : Fin 2), ready ⟨0x0213, [5], .action⟩ p s = true → p.w 2 = 0x52455052 →
   ((p.w 0).toNat = c.val) → ((p.w 1).toNat < chanWords) → s.mem.repairBusy = false →
     Completes (exec (.memRepair p) s) fun t =>
       t.mem.repairBusy = true ∧ (∀ d : Fin 5, (d.val, rowOf (p.w 1).toNat) ∈ t.mem.chan[c].marked) ∧ (0x0213, p) ∈ t.het.waiting ∧
       t.mem.dram = s.mem.dram ∧ t = ({ s with mem := t.mem } : State).afterReply t) ∧
  -- MEM_REPAIR (sram): R579
  (∀ (s : State) (p : Packet), ready ⟨0x0213, [5], .action⟩ p s = true → p.w 2 = 0x52455052 → (p.w 0).toNat = 2 →
   ((p.w 1).toNat < 6291456) → s.mem.repairBusy = false →
     Completes (exec (.memRepair p) s) fun t =>
       Config.sramRow (p.w 1).toNat ∈ t.mem.sramMarked ++ t.nor.sramRepairs ∧ t.mem.dram = s.mem.dram ∧
       Answered s t 0x0213 p [rMemStatus s.mem, 0, nw s.mem.repairCnt] ∧ t = ({ s with mem := t.mem, nor := t.nor } : State).afterReply t) ∧
  -- MEM_DIAG_READ: R577
  (∀ (s : State) (p : Packet) (c : Fin 2), ready ⟨0x0214, [5], .action⟩ p s = true → (fld (p.w 0) 9 8 = c.val) →
   (p.w 0).getLsbD 0 = false → (dramWindow ≤ (p.w 1).toNat ∧ (p.w 1).toNat < dramWindow + 131072) →
     Completes (exec (.memDiagRead p) s) fun t =>
       Answered s t 0x0214 p (lohi (Memory.read s.mem.dram (moduleWord c (p.w 1).toNat)).data.toNat ++
         [nw (Memory.read s.mem.dram (moduleWord c (p.w 1).toNat)).check.toNat,
           nw (Memory.read s.mem.dram (moduleWord c (p.w 1).toNat)).syndrome.toNat,
           nw (Memory.read s.mem.dram (moduleWord c (p.w 1).toNat)).kind.code]) ∧ t = s.afterReply t) ∧
  -- MEM_DIAG_WRITE: R577
  (∀ (s : State) (p : Packet) (c : Fin 2), ready ⟨0x0214, [5], .action⟩ p s = true → (fld (p.w 0) 9 8 = c.val) →
   (p.w 0).getLsbD 0 = true → (dramWindow ≤ (p.w 1).toNat ∧ (p.w 1).toNat < dramWindow + 131072) →
   (p.w 5).getLsbD 0 = true → Memory.wf s.mem.dram = true →
     Completes (exec (.memDiagWrite p) s) fun t =>
       Memory.read t.mem.dram (moduleWord c (p.w 1).toNat) =
         { data := BitVec.ofNat 64 ((p.w 2).toNat + 2 ^ 32 * (p.w 3).toNat), check := BitVec.ofNat 8 (p.w 4).toNat } ∧
       (∀ w, w ≠ moduleWord c (p.w 1).toNat → Memory.read t.mem.dram w = Memory.read s.mem.dram w) ∧
       t = ({ s with mem := t.mem } : State).afterReply t) ∧
  -- MEM_DIAG_WRITE (computed): R577
  (∀ (s : State) (p : Packet), ready ⟨0x0214, [5], .action⟩ p s = true → fld (p.w 0) 9 8 = 2 → (p.w 0).getLsbD 0 = true →
   (sramWindow ≤ (p.w 1).toNat ∧ (p.w 1).toNat < sramWindow + 512) → (p.w 5).getLsbD 0 = false →
     Memory.localWf s.mem.local_ = true →
     Completes (exec (.memDiagWrite p) s) fun t =>
       (alookup t.mem.local_ ((p.w 1).toNat - sramWindow)).getD (EccWord.fresh 0) =
         EccWord.fresh (BitVec.ofNat 64 ((p.w 2).toNat + 2 ^ 32 * (p.w 3).toNat)) ∧
       t.mem.dram = s.mem.dram ∧ t = ({ s with mem := t.mem } : State).afterReply t) ∧
  -- MEM_CLEAR: R17
  (∀ (s : State) (p : Packet) (r : MemRegion), ready ⟨0x0215, [5], .action⟩ p s = true → ((p.w 1).toNat = r.val) →
     Completes (exec (.memClear p) s) fun t =>
       t.mem.bkt[r] = { s.mem.bkt[r] with
         ceCnt := clr (fld (p.w 0) 4 0) 0 s.mem.bkt[r].ceCnt, ueCnt := clr (fld (p.w 0) 4 0) 1 s.mem.bkt[r].ueCnt } ∧
       (∀ x, r ≠ x → t.mem.bkt[x] = s.mem.bkt[x]) ∧ t.mem.poisonCnt = clr (fld (p.w 0) 4 0) 2 s.mem.poisonCnt ∧
       t.mem.repairCnt = clr (fld (p.w 0) 4 0) 3 s.mem.repairCnt ∧ t.mem.scrubPass = clr (fld (p.w 0) 4 0) 4 s.mem.scrubPass ∧
       Answered s t 0x0215 p (selected (fld (p.w 0) 4 0) [[nw s.mem.bkt[r].ceCnt], [nw s.mem.bkt[r].ueCnt], [nw s.mem.poisonCnt],
         [nw s.mem.repairCnt], [nw s.mem.scrubPass]]) ∧ t = ({ s with mem := t.mem } : State).afterReply t)

/-- Firmware download, commit, activation and retirement, and the security packets: SECURITY_RECEIVE,
FIRMWARE_IMAGE_DOWNLOAD, FW_COMMIT_WRITE_SLOT, FW_COMMIT_WRITE_ACTIVATE_NEXT, FW_COMMIT_ACTIVATE_SLOT,
FW_COMMIT_ACTIVATE_NOW, FIRMWARE_SLOT_PROGRAMMED, FW_ACTIVATION_PAUSE_END, IMAGE_RETIRE, DEBUG_UNLOCK_EXPIRY,
SEC_STATUS, SEC_CERT, SEC_LOCK, SEC_UNLOCK and SEC_ROLLBACK complete on the states their clauses name, each with the
next state its clause gives. The rules each clause rests on stand before it. -/
def Obligations.FirmwareAndSecurity : Prop :=
  -- SECURITY_RECEIVE: R446, R604
  (∀ (s : State) (q : AdmReq) (nsid : Word), adminReady q false false s = true →
     (s.aloneOk q.fn (if nsid = 0 ∨ nsid = 0xFFFFFFFF then s.nsAttached q.fn else s.host.namespaces.filter fun n => n.nsid == nsid.toNat) = true) →
     Completes (exec (.securityReceive q nsid 1 1) s) fun t => Concluded s t q stOk 0 (packWords s.discovery) ∧ t = s.afterAdmin t) ∧
  -- SECURITY_RECEIVE (list): R446, R604
  (∀ (s : State) (q : AdmReq) (nsid : Word) (comId : BitVec 16), adminReady q false false s = true →
     (s.aloneOk q.fn (if nsid = 0 ∨ nsid = 0xFFFFFFFF then s.nsAttached q.fn else s.host.namespaces.filter fun n => n.nsid == nsid.toNat) = true) →
     Completes (exec (.securityReceive q nsid 0 comId) s) fun t =>
       Concluded s t q stOk 0 (packWords [0, 0, 0, 0, 0, 0, 0, 3, 0, 1, 2]) ∧ t = s.afterAdmin t) ∧
  -- FIRMWARE_IMAGE_DOWNLOAD: R597
  (∀ (s : State) (q : AdmReq) (d : Download), adminReady q false true s = true → s.sec.commit = none →
     (d.off % 4096 = 0 ∧ d.len % 4096 = 0 ∧ d.off + d.len ≤ 16777216) →
     Completes (exec (.firmwareImageDownload q d) s) fun t =>
       t.sec = { s.sec with staged := some d.obj, stagedLen := max s.sec.stagedLen (d.off + d.len) } ∧ Concluded s t q stOk 0 [] ∧
       t = ({ s with sec := t.sec } : State).afterAdmin t) ∧
  -- FW_COMMIT_WRITE_SLOT: R598
  (∀ (s : State) (q : AdmReq) (slot : Fin 8) (n : Nat) (o : SignedObj), adminReady q false true s = true →
   s.sec.commit = none → (s.namedSlot slot = some n) → (n ≠ s.sec.runSlot) → (s.sec.staged = some o) →
     Completes (exec (.fwCommitWriteSlot q slot) s) fun t =>
       (s.objCheck o .image s.sec.stagedLen = none →
         t.sec = { s.sec with commit := some { obj := o, slot := n, action := 0, fn := q.fn, cid := q.cid }, actState := .programming } ∧
         vget t.nor.slots n none = none ∧ t.out = s.out) ∧
       (∀ st, s.objCheck o .image s.sec.stagedLen = some st → Concluded s t q (commitStatus st) 0 [] ∧ t.nor = s.nor ∧ t.sec.commit = none) ∧
       t = ({ s with sec := t.sec, nor := t.nor } : State).afterAdmin t) ∧
  -- FW_COMMIT_WRITE_ACTIVATE_NEXT: R598
  (∀ (s : State) (q : AdmReq) (slot : Fin 8) (n : Nat) (o : SignedObj), adminReady q false true s = true →
   s.sec.commit = none → (s.namedSlot slot = some n) → (n ≠ s.sec.runSlot) → (s.sec.staged = some o) →
     Completes (exec (.fwCommitWriteActivateNext q slot) s) fun t =>
       (s.objCheck o .image s.sec.stagedLen = none →
         t.sec = { s.sec with commit := some { obj := o, slot := n, action := 1, fn := q.fn, cid := q.cid }, actState := .programming } ∧
         vget t.nor.slots n none = none ∧ t.out = s.out) ∧
       (∀ st, s.objCheck o .image s.sec.stagedLen = some st → Concluded s t q (commitStatus st) 0 [] ∧ t.nor = s.nor ∧ t.sec.commit = none) ∧
       t = ({ s with sec := t.sec, nor := t.nor } : State).afterAdmin t) ∧
  -- FW_COMMIT_ACTIVATE_SLOT: R598
  (∀ (s : State) (q : AdmReq) (slot : Fin 8) (n : Nat) (o : SignedObj), adminReady q false true s = true →
   s.sec.commit = none → (s.namedSlot slot = some n) → (vget s.nor.slots n none = some o) →
     Completes (exec (.fwCommitActivateSlot q slot) s) fun t =>
       (s.objCheck o .image 16777216 = none → t.nor = { s.nor with actSlot := n } ∧ Concluded s t q stOk 0 [] ∧ t.sec = s.sec) ∧
       (∀ st, s.objCheck o .image 16777216 = some st → Concluded s t q (commitStatus st) 0 [] ∧ t.nor = s.nor) ∧
       t = ({ s with sec := t.sec, nor := t.nor } : State).afterAdmin t) ∧
  -- FW_COMMIT_ACTIVATE_NOW: R598, R599, R398
  (∀ (s : State) (q : AdmReq) (slot : Fin 8) (n : Nat) (o : SignedObj), adminReady q false true s = true →
   (s.sec.commit = none ∧ s.sec.sanitise = none ∧ s.formatting = 0) → (s.namedSlot slot = some n) → (n ≠ s.sec.runSlot) →
   (s.sec.staged = some o) → o.otype = 1 →
     Completes (exec (.fwCommitActivateNow q slot) s) fun t =>
       (s.objCheck o .image s.sec.stagedLen = none →
         t.sec = { s.sec with commit := some { obj := o, slot := n, action := 3, fn := q.fn, cid := q.cid }, actState := .programming } ∧
         vget t.nor.slots n none = none ∧ t.out = s.out) ∧
       (∀ st, s.objCheck o .image s.sec.stagedLen = some st → Concluded s t q (commitStatus st) 0 [] ∧ t.nor = s.nor ∧ t.sec.commit = none) ∧
       t = ({ s with sec := t.sec, nor := t.nor } : State).afterAdmin t) ∧
  -- FW_COMMIT_ACTIVATE_NOW (patch): R598, R599, R398
  (∀ (s : State) (q : AdmReq) (slot : Fin 8) (o : SignedObj), adminReady q false true s = true →
   (s.sec.commit = none ∧ s.sec.sanitise = none ∧ s.formatting = 0) → (s.sec.staged = some o) → o.otype = 2 →
     Completes (exec (.fwCommitActivateNow q slot) s) fun t =>
       (s.objCheck o .patch s.sec.stagedLen = none →
         t.nor = { s.nor with patches := s.nor.patches ++ [o] } ∧
         (∀ a : Eng, s.enginePresent a = true → s.eng[a].seq.state = .run → t.eng[a].seq.holdReq = true)) ∧
       (∀ st, s.objCheck o .patch s.sec.stagedLen = some st → Concluded s t q (commitStatus st) 0 [] ∧ t.nor = s.nor ∧ t.eng = s.eng)) ∧
  -- FIRMWARE_SLOT_PROGRAMMED: R598, R599
  (∀ (s : State) (c : Commit) (selfTestOk : Bool), (s.sec.commit = some c) →
   (c.obj.otype = 1 ∧ s.sec.actState = .programming ∧ c.orphan = false) → c.mi = none → (c.action = 0 ∨ c.action = 1) →
     s.rst.recovery = false →
     Completes (exec (.firmwareSlotProgrammed true selfTestOk) s) fun t =>
       t.sec = { s.sec with commit := none, actState := if s.sec.retiring.isSome then .pause else .idle } ∧
       (∀ i : Fin 2, t.nor.slots[i] = if i.val = c.slot then some c.obj else s.nor.slots[i]) ∧
       t.nor.actSlot = (if c.action = 1 then c.slot else s.nor.actSlot) ∧ Concluded s t { fn := c.fn, cid := c.cid } stOk 0 [] ∧
       t = ({ s with sec := t.sec, nor := { s.nor with slots := t.nor.slots, actSlot := t.nor.actSlot } } : State).afterAdmin t) ∧
  -- FIRMWARE_SLOT_PROGRAMMED (activation): R598, R599
  (∀ (s : State) (c : Commit), (s.sec.commit = some c) → (c.obj.otype = 1 ∧ s.sec.actState = .programming) →
     c.action = 3 →
     Completes (exec (.firmwareSlotProgrammed true true) s) fun t =>
       t.sec.running = c.obj ∧ t.sec.runSlot = c.slot ∧ t.sec.pausing = true ∧ t.sec.actState = .pause ∧ t.nor.actSlot = c.slot ∧
       t.sec.commit = some c ∧ (∀ p ∈ t.q.ctxs, p.2.activation = true) ∧ (∀ r : SpdmIx, t.sec.spdm[r].resynch = true) ∧
       t.fuse = s.fuse ∧ t.media = s.media) ∧
  -- FIRMWARE_SLOT_PROGRAMMED (failure): R598, R599
  (∀ (s : State) (c : Commit) (selfTestOk : Bool), (s.sec.commit = some c) →
     (c.obj.otype = 1 ∧ s.sec.actState = .programming ∧ c.orphan = false) → c.mi = none →
     Completes (exec (.firmwareSlotProgrammed false selfTestOk) s) fun t =>
       t.sec.commit = none ∧ t.nor = s.nor ∧ t.sec.running = s.sec.running ∧ Concluded s t { fn := c.fn, cid := c.cid } (stCmd 0x07) 0 []) ∧
  -- FW_ACTIVATION_PAUSE_END: R599
  (∀ (s : State) (c : Commit), s.sec.pausing = true → (s.sec.commit = some c) →
     (c.action = 3 ∧ c.obj.otype = 1 ∧ c.orphan = false) → c.mi = none →
     Completes (exec .fwActivationPauseEnd s) fun t =>
       t.sec = { s.sec with pausing := false, commit := none } ∧ Concluded s t { fn := c.fn, cid := c.cid } stOk 0 [] ∧
       t.host.healthFlags = s.host.healthFlags ||| 0x80) ∧
  -- IMAGE_RETIRE: R599
  (∀ (s : State) (n k : Nat), (s.sec.retiring = some (n, k)) → s.sec.pausing = false →
     (s.q.ctxs.any (fun p => p.2.started && decide (p.2.startNo ≤ n)) = false) →
     Completes (exec .imageRetire s) fun t =>
       t.sec.retiring = none ∧ t.sec.aliasGen = (s.sec.aliasGen + 1) % 256 ∧ t.fuse.revoked = s.fuse.revoked ||| s.sec.running.revokes ∧
       t.fuse.rollCtr = (if s.sec.running.raiseSvn ∧ s.fuse.rollCtr < s.sec.running.svn ∧ s.sec.running.svn ≤ 128 ∧ s.sec.running.svn ≤ s.slotSvn s.nor.actSlot
         then s.sec.running.svn else s.fuse.rollCtr) ∧
       (∀ r : SpdmIx, t.sec.spdm[r].resynch = true ∧ t.sec.spdm[r].sessions = []) ∧ t = { s with sec := t.sec, nor := t.nor, fuse := t.fuse }) ∧
  -- DEBUG_UNLOCK_EXPIRY: R611
  (∀ (s : State), s.sec.dbgUnlock = true → (s.sec.dbgExp < s.rst.poh / 1024) →
     Completes (exec .debugUnlockExpiry s) fun t =>
       t.sec.dbgUnlock = false ∧ t.sec.dbgScope = 0 ∧ t.sec.dbgExp = 0 ∧ (∀ r : SpdmIx, t.sec.spdm[r].resynch = true) ∧ t = { s with sec := t.sec }) ∧
  -- SEC_STATUS: R521
  (∀ (s : State) (p : Packet), ready ⟨0x0220, [5], .read⟩ p s = true →
     Completes (exec (.secStatus p) s) fun t => Answered s t 0x0220 p (stSec s) ∧ t = s.afterReply t) ∧
  -- SEC_CERT: R587, R612
  (∀ (s : State) (p : Packet) (which : Nat) (m : BitVec 384), ready ⟨0x0221, [4, 5], .read⟩ p s = true →
     (s.certOf p (fld (p.w 0) 2 0) (fld (p.w 0) 18 16) = some (which, m)) →
     Completes (exec (.secCert p) s) fun t =>
       Answered s t 0x0221 p (nw (Config.certLen which ((p.w 0).getLsbD 8) m) :: (List.range 5).map fun j =>
         nw (bytesNat ((List.range 4).map fun k =>
           if 20 * (p.w 1).toNat + 4 * j + k < Config.certLen which ((p.w 0).getLsbD 8) m
           then (Config.certByte which ((p.w 0).getLsbD 8) m (20 * (p.w 1).toNat + 4 * j + k)).toNat else 0))) ∧ t = s.afterReply t) ∧
  -- SEC_LOCK: R611
  (∀ (s : State) (p : Packet), ready ⟨0x0222, [5], .action⟩ p s = true → p.w 0 = 0 →
     Completes (exec (.secLock p) s) fun t =>
       t.sec.dbgUnlock = false ∧ t.sec.nonce = (Config.drbg s.sec.drbg).setWidth 128 ∧ t.sec.drbg = s.sec.drbg + 1 ∧
       t = ({ s with sec := t.sec } : State).afterReply t) ∧
  -- SEC_UNLOCK: R611, R612
  (∀ (s : State) (p : Packet) (o : SignedObj), ready ⟨0x0222, [5], .action⟩ p s = true → p.w 0 = 1 →
   (s.sec.staged = some o) → o.otype = 3 →
     Completes (exec (.secUnlock p) s) fun t =>
       (s.objCheck o .token s.sec.stagedLen = none →
         t.sec.dbgUnlock = true ∧ t.sec.dbgScope = o.scope ∧ t.sec.dbgExp = o.expiry ∧ t.sec.unlockCnt = inc 32 s.sec.unlockCnt) ∧
       (∀ st, s.objCheck o .token s.sec.stagedLen = some st → Replied s t 0x0222 p st 0 [] ∧ t.sec.dbgUnlock = s.sec.dbgUnlock) ∧
       t.sec.nonce = (Config.drbg s.sec.drbg).setWidth 128 ∧ t = ({ s with sec := t.sec } : State).afterReply t) ∧
  -- SEC_ROLLBACK: R596, R612
  (∀ (s : State) (p : Packet) (o : SignedObj), ready ⟨0x0223, [5], .action⟩ p s = true → p.w 0 = 0x524F4C4C →
   (s.sec.staged = some o) → o.otype = 4 →
     Completes (exec (.secRollback p) s) fun t =>
       (s.objCheck o .rollback s.sec.stagedLen = none → s.raiseAllowed o.svn = true → s.fuse.rollCtr < o.svn → o.svn ≤ 128 →
         t.fuse = { s.fuse with rollCtr := o.svn } ∧ Answered s t 0x0223 p [nw s.fuse.rollCtr, nw o.svn]) ∧
       (s.objCheck o .rollback s.sec.stagedLen = none → s.raiseAllowed o.svn = false → t.fuse = s.fuse ∧ Replied s t 0x0223 p 0x0404 0 []) ∧
       (∀ st, s.objCheck o .rollback s.sec.stagedLen = some st → t.fuse = s.fuse ∧ Replied s t 0x0223 p st 0 []) ∧
       t = ({ s with sec := t.sec, nor := t.nor, fuse := t.fuse } : State).afterReply t)

/-- The SPDM responders: GET_VERSION, GET_CAPABILITIES, NEGOTIATE_ALGORITHMS, GET_DIGESTS, GET_CERTIFICATE, CHALLENGE,
GET_MEASUREMENTS, KEY_EXCHANGE, FINISH, HEARTBEAT, KEY_UPDATE, END_SESSION, GET_PQ_CHAIN and GET_PQ_SIG complete on the
states their clauses name, each with the next state its clause gives. The rules each clause rests on stand before it. -/
def Obligations.SpdmResponders : Prop :=
  -- GET_VERSION: R589
  (∀ (s : State) (r : SpdmIx), s.responder r = true → s.sec.spdm[r].resynch = false →
     Completes (exec (.getVersion r) s) fun t =>
       Responded s t r { code := 0x04, payload := 0x1200 } ∧ t.sec.spdm[r].phase = .version ∧ t.sec.spdm[r].sessions = [] ∧
       t.sec.spdm[r].lastSigned = none ∧ t.sec.drbg = s.sec.drbg) ∧
  -- GET_VERSION (resynchronise): R589
  (∀ (s : State) (r : SpdmIx), s.responder r = true → s.sec.spdm[r].resynch = true → (s.sec.spdm[r].phase ≠ .start) →
     Completes (exec (.getVersion r) s) fun t =>
       Responded s t r { code := 0x7F, param1 := 0x43 } ∧ t.sec.spdm[r].phase = .start ∧ t.sec.spdm[r].sessions = [] ∧
       t.sec.spdm[r].resynch = false) ∧
  -- GET_CAPABILITIES: R589
  (∀ (s : State) (r : SpdmIx), spdmReady r .version s = true → Completes (exec (.getCapabilities r) s) fun t =>
       Responded s t r { code := 0x61, payload := 0x62F6 } ∧ t.sec.spdm[r].phase = .capabilities ∧ t.sec.spdm[r].sessions = s.sec.spdm[r].sessions) ∧
  -- NEGOTIATE_ALGORITHMS: R589
  (∀ (s : State) (r : SpdmIx), spdmReady r .capabilities s = true →
     Completes (exec (.negotiateAlgorithms r ⟨true, true, true, true⟩) s) fun t =>
       Responded s t r { code := 0x63 } ∧ t.sec.spdm[r].phase = .negotiated) ∧
  -- NEGOTIATE_ALGORITHMS (refused): R589
  (∀ (s : State) (r : SpdmIx) (n : SpdmAlgs), spdmReady r .capabilities s = true →
     (n.ed25519 = false ∨ n.sha384 = false ∨ n.secp384r1 = false ∨ n.aes256gcm = false) →
     Completes (exec (.negotiateAlgorithms r n) s) fun t =>
       Responded s t r { code := 0x7F, param1 := 0x01 } ∧ t.sec.spdm[r].phase = .capabilities) ∧
  -- GET_DIGESTS: R589
  (∀ (s : State) (r : SpdmIx) (i : Identity), spdmReady r .negotiated s = true → (s.slotIdentity r 0 = some i) →
     s.slotIdentity r 1 = none →
     Completes (exec (.getDigests r) s) fun t =>
       Responded s t r { code := 0x01, param2 := 1, payload := bytesNat (leBytes 48 (Config.sha384 (s.chainBytes i false)).toNat) } ∧
       t.sec.spdm[r].phase = .negotiated ∧ t.sec.drbg = s.sec.drbg) ∧
  -- GET_CERTIFICATE: R589
  (∀ (s : State) (r : SpdmIx) (slot : Fin 8) (off len : BitVec 16) (i : Identity), spdmReady r .negotiated s = true →
     (s.slotIdentity r slot.val = some i) →
     Completes (exec (.getCertificate r slot off len) s) fun t =>
       (off.toNat < (s.chainBytes i false).length →
         Responded s t r { code := 0x02, param1 := slot.val, payload := bytesNat (
           leBytes 2 (((s.chainBytes i false).drop off.toNat).take len.toNat).length ++
           leBytes 2 ((s.chainBytes i false).length - (off.toNat + len.toNat)) ++ ((s.chainBytes i false).drop off.toNat).take len.toNat) }) ∧
       ((s.chainBytes i false).length ≤ off.toNat → Responded s t r { code := 0x7F, param1 := 0x01 })) ∧
  -- CHALLENGE: R589
  (∀ (s : State) (r : SpdmIx) (slot : Fin 8) (meas : BitVec 8) (nonce : BitVec 256) (i : Identity) (m : List Nat),
   spdmReady r .negotiated s = true → (s.slotIdentity r slot.val = some i) → (s.measureSummary r meas.toNat = some m) →
     Completes (exec (.challenge r slot meas nonce) s) fun t =>
       Responded s t r (s.signedResponse r slot.val i 0x03 nonce.toNat (leBytes 48 (Config.sha384 (s.chainBytes i false)).toNat ++ m)).2.1 ∧
       t.sec.drbg = s.sec.drbg + 1 ∧ t.sec.spdm[r].lastSigned.isSome = true ∧ t.sec.measCnt = s.sec.measCnt) ∧
  -- GET_MEASUREMENTS: R591
  (∀ (s : State) (r : SpdmIx) (op : BitVec 8) (slot : Fin 8) (nonce : BitVec 256), spdmReady r .negotiated s = true →
     (1 ≤ op.toNat ∧ op.toNat ≤ 9) →
     Completes (exec (.getMeasurements r op false slot nonce) s) fun t =>
       Responded s t r { code := 0x60, payload := bytesNat ([1] ++ leBytes 3 (s.measureBlock r op.toNat).length ++ s.measureBlock r op.toNat) } ∧
       t.sec.measCnt = s.sec.measCnt ∧ t.sec.spdm[r].lastSigned = none) ∧
  -- GET_MEASUREMENTS (number): R591
  (∀ (s : State) (r : SpdmIx) (slot : Fin 8) (nonce : BitVec 256), spdmReady r .negotiated s = true →
     Completes (exec (.getMeasurements r 0 false slot nonce) s) fun t =>
       Responded s t r { code := 0x60, param1 := 9, payload := bytesNat [0, 0, 0, 0] }) ∧
  -- GET_MEASUREMENTS (signed): R591
  (∀ (s : State) (r : SpdmIx) (op : BitVec 8) (slot : Fin 8) (nonce : BitVec 256) (i : Identity),
   spdmReady r .negotiated s = true → (op.toNat ≤ 9 ∨ op.toNat = 255) → (s.slotIdentity r slot.val = some i) →
     Completes (exec (.getMeasurements r op true slot nonce) s) fun t =>
       t.sec.measCnt = satAdd 32 s.sec.measCnt 1 ∧ t.sec.drbg = s.sec.drbg + 1 ∧ t.sec.spdm[r].lastSigned.isSome = true ∧
       (t.out.spdm.head?.map fun x => (x.1, x.2.code, x.2.param2)) = some (r, 0x60, slot.val)) ∧
  -- KEY_EXCHANGE: R589
  (∀ (s : State) (r : SpdmIx) (slot : Fin 8) (x : SpdmKex) (i : Identity) (m : List Nat),
   spdmReady r .negotiated s = true → (s.slotIdentity r slot.val = some i) → (s.measureSummary r x.meas.toNat = some m) →
     Completes (exec (.keyExchange r slot x) s) fun t =>
       t.sec.spdm[r].sessions = s.sec.spdm[r].sessions ++
         [{ id := BitVec.ofNat 16 s.sec.spdm[r].nextSession, finished := false, secret := Config.dheShared (Config.drbg s.sec.drbg).toNat x.exchange }] ∧
       t.sec.spdm[r].nextSession = s.sec.spdm[r].nextSession + 1 ∧ t.sec.drbg = s.sec.drbg + 2 ∧
       (t.out.spdm.head?.map fun y => (y.1, y.2.code, y.2.param1)) = some (r, 0x64, slot.val)) ∧
  -- FINISH: R589
  (∀ (s : State) (r : SpdmIx) (sid : BitVec 16) (hmac : BitVec 384) (x : SpdmSession), spdmReady r .negotiated s = true →
     (s.inSession r sid false = some x) →
     Completes (exec (.finish r sid hmac) s) fun t =>
       (Config.hmac x.secret s.sec.spdm[r].transcript = hmac →
         Responded s t r { code := 0x65 } ∧ ∀ y ∈ t.sec.spdm[r].sessions, y.id = sid → y.finished = true) ∧
       (Config.hmac x.secret s.sec.spdm[r].transcript ≠ hmac →
         Responded s t r { code := 0x7F, param1 := 0x06 } ∧ ∀ y ∈ t.sec.spdm[r].sessions, y.id ≠ sid)) ∧
  -- HEARTBEAT: R589
  (∀ (s : State) (r : SpdmIx) (sid : BitVec 16), spdmReady r .negotiated s = true →
     (s.inSession r sid true).isSome = true →
     Completes (exec (.heartbeat r sid) s) fun t => Responded s t r { code := 0x68 } ∧ t.sec.spdm[r].sessions = s.sec.spdm[r].sessions) ∧
  -- KEY_UPDATE: R589
  (∀ (s : State) (r : SpdmIx) (sid : BitVec 16) (op : BitVec 8), spdmReady r .negotiated s = true →
   (s.inSession r sid true).isSome = true → (op = 1 ∨ op = 2) →
     Completes (exec (.keyUpdate r sid op) s) fun t =>
       Responded s t r { code := 0x69, param1 := op.toNat } ∧
       t.sec.spdm[r].sessions = s.sec.spdm[r].sessions.map fun x => if x.id = sid then { x with keyGen := x.keyGen + 1 } else x) ∧
  -- END_SESSION: R589
  (∀ (s : State) (r : SpdmIx) (sid : BitVec 16), spdmReady r .negotiated s = true →
     (s.inSession r sid true).isSome = true →
     Completes (exec (.endSession r sid) s) fun t =>
       Responded s t r { code := 0x6C } ∧ t.sec.spdm[r].sessions = s.sec.spdm[r].sessions.filter fun x => x.id ≠ sid) ∧
  -- GET_PQ_CHAIN: R590
  (∀ (s : State) (r : SpdmIx) (slot : Fin 8) (off len : BitVec 16) (i : Identity), spdmReady r .negotiated s = true →
   (len.toNat ≤ 1024) → (s.slotIdentity r slot.val = some i) →
     Completes (exec (.getPqChain r slot off len) s) fun t =>
       (off.toNat < (s.chainBytes i true).length →
         Responded s t r { code := 0x7E, payload := bytesNat (((s.chainBytes i true).drop off.toNat).take len.toNat) }) ∧
       ((s.chainBytes i true).length ≤ off.toNat → Responded s t r { code := 0x7F, param1 := 0x01 })) ∧
  -- GET_PQ_SIG: R590, R585
  (∀ (s : State) (r : SpdmIx) (slot msg : Nat) (i : Identity), spdmReady r .negotiated s = true →
   (s.sec.spdm[r].lastSigned = some (slot, msg)) → (s.slotIdentity r slot = some i) →
     Completes (exec (.getPqSig r) s) fun t =>
       Responded s t r { code := 0x7E, payload := Config.mlSign (s.keySeed i true) msg (Config.drbg s.sec.drbg).toNat } ∧
       t.sec.drbg = s.sec.drbg + 1 ∧ t.sec.spdm[r].lastSigned = none) ∧
  -- GET_PQ_SIG (misplaced): R590, R585
  (∀ (s : State) (r : SpdmIx), spdmReady r .negotiated s = true → s.sec.spdm[r].lastSigned = none →
     Completes (exec (.getPqSig r) s) fun t => Responded s t r { code := 0x7F, param1 := 0x04 } ∧ t.sec.drbg = s.sec.drbg)

/-- The methods of Opal: START_SESSION, PROPERTIES, OPAL_GET, OPAL_SET, AUTHENTICATE, GENKEY, ACTIVATE, REVERT, REVERT_SP
and RANDOM complete on the states their clauses name, each with the next state its clause gives. The rules each clause
rests on stand before it. -/
def Obligations.OpalMethods : Prop :=
  -- START_SESSION: R604
  (∀ (s : State) (o : OpalReq) (sp : OpalSp) (auth : OpalAuth) (pin : Nat), opalReady o s = true →
   s.opalSession o = none → auth.inSp sp = true → (sp = .locking → s.sec.opal.activated = true) →
     (auth = .anybody ∨ s.opalPin auth = some pin) →
     Completes (exec (.startSession o sp auth pin) s) fun t =>
       t.sec.opal.sessions = s.sec.opal.sessions ++ [{ fn := o.fn, sp := sp, auths := if auth = .anybody then [] else [auth] }] ∧
       OpalAnswered s t o 0 [] ∧ t = { s with sec := { s.sec with opal := { s.sec.opal with sessions := t.sec.opal.sessions } }, out := t.out }) ∧
  -- START_SESSION (refused): R604
  (∀ (s : State) (o : OpalReq) (sp : OpalSp) (auth : OpalAuth) (pin : Nat), opalReady o s = true →
   s.opalSession o = none → auth.inSp sp = true → (sp = .locking → s.sec.opal.activated = true) →
     (auth ≠ .anybody ∧ s.opalPin auth ≠ some pin) →
     Completes (exec (.startSession o sp auth pin) s) fun t => OpalAnswered s t o 1 [] ∧ t = { s with out := t.out }) ∧
  -- PROPERTIES: R604
  (∀ (s : State) (o : OpalReq), opalReady o s = true → Completes (exec (.properties o) s) fun t =>
       OpalAnswered s t o 0 ((List.range 8).map fun i => (Config.logWord 0x101 i).toNat) ∧ t = { s with out := t.out }) ∧
  -- OPAL_GET: R604
  (∀ (s : State) (o : OpalReq) (n : Fin 17) (x : OpalSession), opalReady o s = true → (s.opalSession o = some x) →
     (x.sp = .locking ∧ x.auths ≠ []) →
     Completes (exec (.opalGet o (.rdLocked n)) s) fun t =>
       OpalAnswered s t o 0 [if s.sec.opal.ranges[n].rdLocked then 1 else 0] ∧ t = { s with out := t.out }) ∧
  -- OPAL_GET (pin): R604
  (∀ (s : State) (o : OpalReq) (a : OpalAuth), opalReady o s = true →
     Completes (exec (.opalGet o (.pin a)) s) fun t => OpalAnswered s t o 1 [] ∧ t = { s with out := t.out }) ∧
  -- OPAL_SET: R604, R605
  (∀ (s : State) (o : OpalReq) (n : Fin 17) (x : OpalSession), opalReady o s = true → (s.opalSession o = some x) →
     x.isAdmin = true →
     Completes (exec (.opalSet o (.rdLocked n) 0) s) fun t =>
       t.sec.opal.ranges[n] = { s.sec.opal.ranges[n] with rdLocked := false } ∧ (∀ m, n ≠ m → t.sec.opal.ranges[m] = s.sec.opal.ranges[m]) ∧
       t.nor.opal = { t.sec.opal with sessions := [] } ∧ OpalAnswered s t o 0 [] ∧ t = { s with sec := t.sec, nor := t.nor, out := t.out }) ∧
  -- OPAL_SET (lock): R604, R605
  (∀ (s : State) (o : OpalReq) (n : Fin 17) (x : OpalSession), opalReady o s = true → (s.opalSession o = some x) →
     x.isAdmin = true →
     (s.sec.opal.activated = true ∧ s.sec.opal.ranges[n].wrLockEn = true ∧ s.sec.opal.ranges[n].wrLocked = false) →
   ((s.q.buffered.any fun b => b.nsid == n.val && b.nsid != 0 && !b.fault) = true) → (s.sec.opalWait = []) →
     Completes (exec (.opalSet o (.wrLocked n) 1) s) fun t =>
       t.sec.opal.ranges[n] = { s.sec.opal.ranges[n] with wrLocked := true } ∧ t.locked n.val true = true ∧
       (t.sec.opalWait.map fun y => (y.1, y.2.1)) = [(o.fn, 0)] ∧ t.out = s.out) ∧
  -- AUTHENTICATE: R604
  (∀ (s : State) (o : OpalReq) (auth : OpalAuth) (pin : Nat) (x : OpalSession), opalReady o s = true →
   (s.opalSession o = some x) → auth.inSp x.sp = true → (auth ≠ .anybody ∧ s.opalPin auth = some pin) →
     Completes (exec (.authenticate o auth pin) s) fun t =>
       OpalAnswered s t o 0 [1] ∧ (∀ y ∈ t.sec.opal.sessions, y.fn = o.fn → y.auths.contains auth = true) ∧ t = { s with sec := t.sec, out := t.out }) ∧
  -- AUTHENTICATE (wrong): R604
  (∀ (s : State) (o : OpalReq) (auth : OpalAuth) (pin : Nat) (x : OpalSession), opalReady o s = true →
   (s.opalSession o = some x) → auth.inSp x.sp = true → (auth ≠ .anybody ∧ s.opalPin auth ≠ some pin) →
     Completes (exec (.authenticate o auth pin) s) fun t => OpalAnswered s t o 0 [0] ∧ t = { s with out := t.out }) ∧
  -- GENKEY: R605, R607
  (∀ (s : State) (o : OpalReq) (n : Fin 17) (x : OpalSession) (m : Namespace), opalReady o s = true →
   (s.opalSession o = some x) → x.isAdmin = true → (s.host.namespaces.find? (fun m => m.nsid == n.val) = some m) →
     Completes (exec (.genkey o n) s) fun t =>
       alookup t.sec.mediaKeys m.nsid = some (Config.drbg s.sec.drbg) ∧ alookup t.nor.mediaKeys m.nsid = some (Config.drbg s.sec.drbg) ∧
       alookup t.nor.keyCopy m.nsid = some (Config.drbg s.sec.drbg) ∧
       t.sec.drbg = s.sec.drbg + 1 ∧ (m.zoned = false → ∀ p ∈ t.media.indir, p.1 / 2 ^ 40 ≠ m.nsid) ∧
       t.out.opal = (o.fn, 0, []) :: s.out.opal) ∧
  -- ACTIVATE: R604
  (∀ (s : State) (o : OpalReq) (x : OpalSession) (pin : Nat), opalReady o s = true → (s.opalSession o = some x) →
   (x.sp = .admin ∧ x.auths.contains .sid = true) → s.sec.opal.activated = false → (s.opalPin .sid = some pin) →
     Completes (exec (.activate o) s) fun t =>
       t.sec.opal = { s.sec.opal with activated := true, pins := aset s.sec.opal.pins (.admin 0) pin } ∧
       t.nor.opal = { t.sec.opal with sessions := [] } ∧ OpalAnswered s t o 0 [] ∧ t = { s with sec := t.sec, nor := t.nor, out := t.out }) ∧
  -- REVERT: R605
  (∀ (s : State) (o : OpalReq) (x : OpalSession), opalReady o s = true → (s.opalSession o = some x) →
     (x.sp = .admin ∧ (x.auths.contains .sid = true ∨ x.auths.contains .psid = true)) →
     Completes (exec (.revert o .admin) s) fun t =>
       t.sec.opal = {} ∧ t.nor.opal = {} ∧ t.sec.drbg = s.sec.drbg + s.host.namespaces.length ∧ t.out.opal = (o.fn, 0, []) :: s.out.opal) ∧
  -- REVERT_SP: R604
  (∀ (s : State) (o : OpalReq) (x : OpalSession), opalReady o s = true → (s.opalSession o = some x) →
     (x.sp = .locking ∧ x.auths.contains (.admin 0) = true) →
     Completes (exec (.revertSp o .locking) s) fun t =>
       t.sec.opal = { pins := s.sec.opal.pins.filter fun p => p.1 == .sid } ∧ t.sec.drbg = s.sec.drbg + s.host.namespaces.length ∧
       t.out.opal = (o.fn, 0, []) :: s.out.opal) ∧
  -- RANDOM: R601, R604
  (∀ (s : State) (o : OpalReq) (len : Nat), opalReady o s = true → (s.opalSession o).isSome = true → (len ≤ 32) →
     Completes (exec (.random o len) s) fun t =>
       OpalAnswered s t o 0 (leBytes len (Config.drbg s.sec.drbg).toNat) ∧ t.sec = { s.sec with drbg := s.sec.drbg + 1 } ∧
       t = { s with sec := t.sec, out := t.out })

/-- The event recorder: programming, sealing, erasing, freezing, and its packets: RECORD_PROGRAM, SEAL_TIMEOUT,
SEGMENT_ERASE, SEGMENT_ERASE_DONE, FREEZE_TIMEOUT, RECORDER_STATUS, RECORDER_FREEZE, RECORDER_THAW, RECORDER_READ and
RECORDER_NOTE complete on the states their clauses name, each with the next state its clause gives. The rules each
clause rests on stand before it. -/
def Obligations.EventRecorder : Prop :=
  -- RECORD_PROGRAM: R616, R623, R628, R622
  (∀ (s : State) (e : Event) (rest : List Event) (b : OpenBlock), (s.evr.queue = e :: rest) →
   (s.evr.frzDepth = 0 ∧ s.rst.phase.early = false ∧ s.rst.recovery = false) → (s.evr.open_[s.streamOf e] = some b) →
   (b.used + e.len ≤ 4096) →
     Completes (exec (.recordProgram true) s) fun t =>
       t.evr.queue = rest ∧ t.evr.recCnt = satAdd 32 s.evr.recCnt 1 ∧
       t.evr.open_[s.streamOf e] = some { b with
         used := b.used + e.len, events := b.events ++ [e], rseqLast := e.rseq, rseqFirst := if b.events.isEmpty then e.rseq else b.rseqFirst } ∧
       (∀ u, s.streamOf e ≠ u → t.evr.open_[u] = s.evr.open_[u]) ∧ t = { s with evr := t.evr }) ∧
  -- RECORD_PROGRAM (failure): R616, R623, R628, R622
  (∀ (s : State) (e : Event) (rest : List Event) (b : OpenBlock), (s.evr.queue = e :: rest) →
   (s.evr.frzDepth = 0 ∧ s.rst.phase.early = false ∧ s.rst.recovery = false) → (s.evr.open_[s.streamOf e] = some b) →
     (b.used + e.len ≤ 4096) → (b.pair < 3072) →
     Completes (exec (.recordProgram false) s) fun t =>
       t.evr.queue.head? = some e ∧ t.evr.open_[s.streamOf e] = none ∧ t.evr.recCnt = s.evr.recCnt ∧
       t.evr.sealCnt = satAdd 32 s.evr.sealCnt 1 ∧ (vget t.nor.segs (b.pair / 8) {}).retired = true) ∧
  -- SEAL_TIMEOUT: R620
  (∀ (s : State) (u : StreamIx) (b : OpenBlock), s.evr.frzDepth = 0 → (s.evr.open_[u] = some b) → (b.sealAt ≤ s.mtime) →
     Completes (exec (.sealTimeout u) s) fun t =>
       t.evr = { s.evr with open_ := vset s.evr.open_ u none, sealCnt := satAdd 32 s.evr.sealCnt 1 } ∧
       (∃ x, t.nor = { s.nor with blocks := s.nor.blocks ++ [x] } ∧ x.pair = b.pair ∧ x.bseq = b.bseq ∧ x.stream = u ∧ x.flags = 2 ∧
         x.events = b.events ∧ x.used = b.used ∧ x.digest = Config.sha384 (b.bytes u)) ∧
       t.sec = { s.sec with drbg := s.sec.drbg + 1 } ∧ t = { s with evr := t.evr, nor := t.nor, sec := t.sec }) ∧
  -- SEGMENT_ERASE: R627
  (∀ (s : State) (p : Nat), (s.evr.frzDepth = 0 ∧ s.evr.erasing = none) →
   ((s.nor.segs.toList.filter fun g => g.erased && !g.retired).length < 2) → (s.oldestPair = some p) → (p < 3072) →
     Completes (exec .segmentErase s) fun t =>
       (t.evr.erasing.map (·.val)) = some (p / 8) ∧
       (∀ u : StreamIx, t.evr.open_[u] = s.evr.open_[u].filter fun b => b.pair / 8 != p / 8) ∧ t.evr.queue = s.evr.queue ∧
       t = { s with evr := t.evr, nor := t.nor, sec := t.sec }) ∧
  -- SEGMENT_ERASE_DONE: R627, R628, R625
  (∀ (s : State) (k : Fin 384), (s.evr.erasing = some k) → (s.nor.segs[k].erases + 1 < 100000) →
     Completes (exec (.segmentEraseDone true) s) fun t =>
       t.evr.erasing = none ∧ t.nor.blocks = s.nor.blocks.filter (fun b => b.pair / 8 != k.val) ∧
       t.nor.segs[k] = { s.nor.segs[k] with erased := true, erases := s.nor.segs[k].erases + 1 } ∧
       (∀ j, k ≠ j → t.nor.segs[j] = s.nor.segs[j]) ∧ t = ({ s with nor := t.nor } : State).afterReply t) ∧
  -- SEGMENT_ERASE_DONE (failure): R627, R628, R625
  (∀ (s : State) (k : Fin 384), (s.evr.erasing = some k) → Completes (exec (.segmentEraseDone false) s) fun t =>
       t.evr.erasing = none ∧ t.nor.segs[k].retired = true ∧ t.nor.blocks = s.nor.blocks.filter (fun b => b.pair / 8 != k.val) ∧
       t = ({ s with nor := t.nor } : State).afterReply t) ∧
  -- FREEZE_TIMEOUT: R626
  (∀ (s : State), (0 < s.evr.frzDepth) → (s.evr.frzEnd ≤ s.mtime) → s.evr.qFull = false →
     Completes (exec .freezeTimeout s) fun t =>
       t.evr.frzDepth = 0 ∧ (t.evr.queue.length = s.evr.queue.length + 1) ∧
       (t.evr.queue.getLast?.map fun e => (e.type, e.words, e.rseq)) = some (0x0004, [0, 1, nw s.evr.level, 0], s.evr.nextRseq) ∧
       t.evr.nextRseq = wrapAdd 32 s.evr.nextRseq 1 ∧ t = { s with evr := t.evr }) ∧
  -- RECORDER_STATUS: R521
  (∀ (s : State) (p : Packet), ready ⟨0x0230, [5], .read⟩ p s = true →
     Completes (exec (.recorderStatus p) s) fun t => Answered s t 0x0230 p (stEvr s) ∧ t = s.afterReply t) ∧
  -- RECORDER_FREEZE: R625, R630
  (∀ (s : State) (p : Packet), ready ⟨0x0231, [5], .action⟩ p s = true → (0 < s.evr.frzDepth ∧ s.evr.frzDepth < 7) →
   s.evr.erasing = none → (p.w 0).getLsbD 0 = true →
     Completes (exec (.recorderFreeze p) s) fun t =>
       t.evr.frzDepth = s.evr.frzDepth + 1 ∧ t.evr.frzEnd = s.mtime + s.evr.frzMax * secClocks ∧ t.evr.sealT = fld (clampWord [fIn 31 16 10 65535, fIn 15 0 10 3600] 0 (p.w 1)) 31 16 ∧
       t.evr.frzMax = fld (clampWord [fIn 31 16 10 65535, fIn 15 0 10 3600] 0 (p.w 1)) 15 0 ∧
       t.nor = { s.nor with evrCfg := clampWord [fIn 31 16 10 65535, fIn 15 0 10 3600] 0 (p.w 1) } ∧ t.evr.open_ = s.evr.open_ ∧
       t = ({ s with nor := t.nor } : State).afterReply t) ∧
  -- RECORDER_FREEZE (first): R625, R630
  (∀ (s : State) (p : Packet), ready ⟨0x0231, [5], .action⟩ p s = true → s.evr.frzDepth = 0 → s.evr.erasing = none →
     Completes (exec (.recorderFreeze p) s) fun t =>
       t.evr.frzDepth = 1 ∧ (∀ u : StreamIx, t.evr.open_[u] = none) ∧ t = ({ s with nor := t.nor, sec := t.sec } : State).afterReply t) ∧
  -- RECORDER_THAW: R626, R630
  (∀ (s : State) (p : Packet), ready ⟨0x0232, [5], .action⟩ p s = true → (1 < s.evr.frzDepth) →
     Completes (exec (.recorderThaw p) s) fun t =>
       t.evr.frzDepth = s.evr.frzDepth - 1 ∧ t.evr.recCnt = clr (fld (p.w 0) 2 0) 0 s.evr.recCnt ∧
       t.evr.lostCnt = clr (fld (p.w 0) 2 0) 1 s.evr.lostCnt ∧ t.evr.sealCnt = clr (fld (p.w 0) 2 0) 2 s.evr.sealCnt ∧ t = s.afterReply t) ∧
  -- RECORDER_READ: R629
  (∀ (s : State) (p : Packet), ready ⟨0x0233, [5], .read⟩ p s = true → ((p.w 0).toNat ≤ 0x2FFFFD) →
     Completes (exec (.recorderRead p) s) fun t =>
       Answered s t 0x0233 p ((List.range 6).map fun i => s.regionWord (8 * (p.w 0).toNat + 4 * i)) ∧ t = s.afterReply t) ∧
  -- RECORDER_NOTE: R630
  (∀ (s : State) (p : Packet), ready ⟨0x0234, [5], .action⟩ p s = true →
     Completes (exec (.recorderNote p) s) fun t => t.evr.nextRseq ≠ s.evr.nextRseq ∧
       Answered s t 0x0234 p [nw ((t.evr.nextRseq + 2 ^ 32 - 1) % 2 ^ 32)] ∧ t.evr.open_ = s.evr.open_ ∧ t = s.afterReply t)

end
end

