-- ==== Sys2Proof/Laws/State.lean ====
section
/-! SUPPORT. What each modifier of the state does to each of its fields: one equation per field and modifier, all by rfl, so that no
proof unfolds a record update. -/

namespace Sys2Proof.Machine
open Sys2Proof
set_option Elab.async false

/-- An element of a vector of which one was changed. -/
@[simp] theorem vmod_get {α : Type} {n : Nat} (v : Vector α n) (i : Fin n) (f : α → α) (k : Nat) (h : k < n) :
    (vmod v i f)[k] = if i.val = k then f v[k] else v[k] := by
  simp only [vmod, Vector.getElem_set]
  split
  · rename_i e; subst e; rfl
  · rfl
/-- An element of a vector of which one was replaced. -/
@[simp] theorem vset_get {α : Type} {n : Nat} (v : Vector α n) (i : Fin n) (x : α) (k : Nat) (h : k < n) :
    (vset v i x)[k] = if i.val = k then x else v[k] := by
  simp only [vset, Vector.getElem_set]
/-- A projection each step keeps is kept by the fold. -/
theorem foldl_keeps {α β : Type} (g : State → β) (f : State → α → State) (l : List α) (s : State) (h : ∀ s x, g (f s x) = g s) :
    g (l.foldl f s) = g s := by
  induction l generalizing s with
  | nil => rfl
  | cons a l ih => exact (ih _).trans (h s a)

/-! `State.modEng` -/
@[simp] theorem State.modEng_pending (s : State) (a : Eng) (f : Engine → Engine) : (s.modEng a f).pending = s.pending := rfl
@[simp] theorem State.modEng_free (s : State) (a : Eng) (f : Engine → Engine) : (s.modEng a f).free = s.free := rfl
@[simp] theorem State.modEng_mtime (s : State) (a : Eng) (f : Engine → Engine) : (s.modEng a f).mtime = s.mtime := rfl
@[simp] theorem State.modEng_layout (s : State) (a : Eng) (f : Engine → Engine) : (s.modEng a f).layout = s.layout := rfl
@[simp] theorem State.modEng_eng (s : State) (a : Eng) (f : Engine → Engine) : (s.modEng a f).eng = vmod s.eng a f := rfl
@[simp] theorem State.modEng_head (s : State) (a : Eng) (f : Engine → Engine) : (s.modEng a f).head = s.head := rfl
@[simp] theorem State.modEng_slice (s : State) (a : Eng) (f : Engine → Engine) : (s.modEng a f).slice = s.slice := rfl
@[simp] theorem State.modEng_lane (s : State) (a : Eng) (f : Engine → Engine) : (s.modEng a f).lane = s.lane := rfl
@[simp] theorem State.modEng_pool (s : State) (a : Eng) (f : Engine → Engine) : (s.modEng a f).pool = s.pool := rfl
@[simp] theorem State.modEng_mems (s : State) (a : Eng) (f : Engine → Engine) : (s.modEng a f).mems = s.mems := rfl
@[simp] theorem State.modEng_wsl (s : State) (a : Eng) (f : Engine → Engine) : (s.modEng a f).wsl = s.wsl := rfl
@[simp] theorem State.modEng_lpe (s : State) (a : Eng) (f : Engine → Engine) : (s.modEng a f).lpe = s.lpe := rfl
@[simp] theorem State.modEng_trc (s : State) (a : Eng) (f : Engine → Engine) : (s.modEng a f).trc = s.trc := rfl
@[simp] theorem State.modEng_spn (s : State) (a : Eng) (f : Engine → Engine) : (s.modEng a f).spn = s.spn := rfl
@[simp] theorem State.modEng_media (s : State) (a : Eng) (f : Engine → Engine) : (s.modEng a f).media = s.media := rfl
@[simp] theorem State.modEng_host (s : State) (a : Eng) (f : Engine → Engine) : (s.modEng a f).host = s.host := rfl
@[simp] theorem State.modEng_q (s : State) (a : Eng) (f : Engine → Engine) : (s.modEng a f).q = s.q := rfl
@[simp] theorem State.modEng_het (s : State) (a : Eng) (f : Engine → Engine) : (s.modEng a f).het = s.het := rfl
@[simp] theorem State.modEng_pwr (s : State) (a : Eng) (f : Engine → Engine) : (s.modEng a f).pwr = s.pwr := rfl
@[simp] theorem State.modEng_mem (s : State) (a : Eng) (f : Engine → Engine) : (s.modEng a f).mem = s.mem := rfl
@[simp] theorem State.modEng_sec (s : State) (a : Eng) (f : Engine → Engine) : (s.modEng a f).sec = s.sec := rfl
@[simp] theorem State.modEng_evr (s : State) (a : Eng) (f : Engine → Engine) : (s.modEng a f).evr = s.evr := rfl
@[simp] theorem State.modEng_nor (s : State) (a : Eng) (f : Engine → Engine) : (s.modEng a f).nor = s.nor := rfl
@[simp] theorem State.modEng_fuse (s : State) (a : Eng) (f : Engine → Engine) : (s.modEng a f).fuse = s.fuse := rfl
@[simp] theorem State.modEng_rst (s : State) (a : Eng) (f : Engine → Engine) : (s.modEng a f).rst = s.rst := rfl
@[simp] theorem State.modEng_out (s : State) (a : Eng) (f : Engine → Engine) : (s.modEng a f).out = s.out := rfl
@[simp] theorem State.modEng_snaps (s : State) (a : Eng) (f : Engine → Engine) : (s.modEng a f).snaps = s.snaps := rfl
/-! `State.modReel` -/
@[simp] theorem State.modReel_pending (s : State) (a : Eng) (f : Reel → Reel) : (s.modReel a f).pending = s.pending := rfl
@[simp] theorem State.modReel_free (s : State) (a : Eng) (f : Reel → Reel) : (s.modReel a f).free = s.free := rfl
@[simp] theorem State.modReel_mtime (s : State) (a : Eng) (f : Reel → Reel) : (s.modReel a f).mtime = s.mtime := rfl
@[simp] theorem State.modReel_layout (s : State) (a : Eng) (f : Reel → Reel) : (s.modReel a f).layout = s.layout := rfl
@[simp] theorem State.modReel_eng (s : State) (a : Eng) (f : Reel → Reel) : (s.modReel a f).eng = vmod s.eng a fun e => { e with reel := f e.reel } := rfl
@[simp] theorem State.modReel_head (s : State) (a : Eng) (f : Reel → Reel) : (s.modReel a f).head = s.head := rfl
@[simp] theorem State.modReel_slice (s : State) (a : Eng) (f : Reel → Reel) : (s.modReel a f).slice = s.slice := rfl
@[simp] theorem State.modReel_lane (s : State) (a : Eng) (f : Reel → Reel) : (s.modReel a f).lane = s.lane := rfl
@[simp] theorem State.modReel_pool (s : State) (a : Eng) (f : Reel → Reel) : (s.modReel a f).pool = s.pool := rfl
@[simp] theorem State.modReel_mems (s : State) (a : Eng) (f : Reel → Reel) : (s.modReel a f).mems = s.mems := rfl
@[simp] theorem State.modReel_wsl (s : State) (a : Eng) (f : Reel → Reel) : (s.modReel a f).wsl = s.wsl := rfl
@[simp] theorem State.modReel_lpe (s : State) (a : Eng) (f : Reel → Reel) : (s.modReel a f).lpe = s.lpe := rfl
@[simp] theorem State.modReel_trc (s : State) (a : Eng) (f : Reel → Reel) : (s.modReel a f).trc = s.trc := rfl
@[simp] theorem State.modReel_spn (s : State) (a : Eng) (f : Reel → Reel) : (s.modReel a f).spn = s.spn := rfl
@[simp] theorem State.modReel_media (s : State) (a : Eng) (f : Reel → Reel) : (s.modReel a f).media = s.media := rfl
@[simp] theorem State.modReel_host (s : State) (a : Eng) (f : Reel → Reel) : (s.modReel a f).host = s.host := rfl
@[simp] theorem State.modReel_q (s : State) (a : Eng) (f : Reel → Reel) : (s.modReel a f).q = s.q := rfl
@[simp] theorem State.modReel_het (s : State) (a : Eng) (f : Reel → Reel) : (s.modReel a f).het = s.het := rfl
@[simp] theorem State.modReel_pwr (s : State) (a : Eng) (f : Reel → Reel) : (s.modReel a f).pwr = s.pwr := rfl
@[simp] theorem State.modReel_mem (s : State) (a : Eng) (f : Reel → Reel) : (s.modReel a f).mem = s.mem := rfl
@[simp] theorem State.modReel_sec (s : State) (a : Eng) (f : Reel → Reel) : (s.modReel a f).sec = s.sec := rfl
@[simp] theorem State.modReel_evr (s : State) (a : Eng) (f : Reel → Reel) : (s.modReel a f).evr = s.evr := rfl
@[simp] theorem State.modReel_nor (s : State) (a : Eng) (f : Reel → Reel) : (s.modReel a f).nor = s.nor := rfl
@[simp] theorem State.modReel_fuse (s : State) (a : Eng) (f : Reel → Reel) : (s.modReel a f).fuse = s.fuse := rfl
@[simp] theorem State.modReel_rst (s : State) (a : Eng) (f : Reel → Reel) : (s.modReel a f).rst = s.rst := rfl
@[simp] theorem State.modReel_out (s : State) (a : Eng) (f : Reel → Reel) : (s.modReel a f).out = s.out := rfl
@[simp] theorem State.modReel_snaps (s : State) (a : Eng) (f : Reel → Reel) : (s.modReel a f).snaps = s.snaps := rfl
/-! `State.modCmp` -/
@[simp] theorem State.modCmp_pending (s : State) (a : Eng) (c : CmpIx) (f : Comparator → Comparator) : (s.modCmp a c f).pending = s.pending := rfl
@[simp] theorem State.modCmp_free (s : State) (a : Eng) (c : CmpIx) (f : Comparator → Comparator) : (s.modCmp a c f).free = s.free := rfl
@[simp] theorem State.modCmp_mtime (s : State) (a : Eng) (c : CmpIx) (f : Comparator → Comparator) : (s.modCmp a c f).mtime = s.mtime := rfl
@[simp] theorem State.modCmp_layout (s : State) (a : Eng) (c : CmpIx) (f : Comparator → Comparator) : (s.modCmp a c f).layout = s.layout := rfl
@[simp] theorem State.modCmp_eng (s : State) (a : Eng) (c : CmpIx) (f : Comparator → Comparator) : (s.modCmp a c f).eng = vmod s.eng a fun e => { e with reel := { e.reel with cmp := vmod e.reel.cmp c f } } := rfl
@[simp] theorem State.modCmp_head (s : State) (a : Eng) (c : CmpIx) (f : Comparator → Comparator) : (s.modCmp a c f).head = s.head := rfl
@[simp] theorem State.modCmp_slice (s : State) (a : Eng) (c : CmpIx) (f : Comparator → Comparator) : (s.modCmp a c f).slice = s.slice := rfl
@[simp] theorem State.modCmp_lane (s : State) (a : Eng) (c : CmpIx) (f : Comparator → Comparator) : (s.modCmp a c f).lane = s.lane := rfl
@[simp] theorem State.modCmp_pool (s : State) (a : Eng) (c : CmpIx) (f : Comparator → Comparator) : (s.modCmp a c f).pool = s.pool := rfl
@[simp] theorem State.modCmp_mems (s : State) (a : Eng) (c : CmpIx) (f : Comparator → Comparator) : (s.modCmp a c f).mems = s.mems := rfl
@[simp] theorem State.modCmp_wsl (s : State) (a : Eng) (c : CmpIx) (f : Comparator → Comparator) : (s.modCmp a c f).wsl = s.wsl := rfl
@[simp] theorem State.modCmp_lpe (s : State) (a : Eng) (c : CmpIx) (f : Comparator → Comparator) : (s.modCmp a c f).lpe = s.lpe := rfl
@[simp] theorem State.modCmp_trc (s : State) (a : Eng) (c : CmpIx) (f : Comparator → Comparator) : (s.modCmp a c f).trc = s.trc := rfl
@[simp] theorem State.modCmp_spn (s : State) (a : Eng) (c : CmpIx) (f : Comparator → Comparator) : (s.modCmp a c f).spn = s.spn := rfl
@[simp] theorem State.modCmp_media (s : State) (a : Eng) (c : CmpIx) (f : Comparator → Comparator) : (s.modCmp a c f).media = s.media := rfl
@[simp] theorem State.modCmp_host (s : State) (a : Eng) (c : CmpIx) (f : Comparator → Comparator) : (s.modCmp a c f).host = s.host := rfl
@[simp] theorem State.modCmp_q (s : State) (a : Eng) (c : CmpIx) (f : Comparator → Comparator) : (s.modCmp a c f).q = s.q := rfl
@[simp] theorem State.modCmp_het (s : State) (a : Eng) (c : CmpIx) (f : Comparator → Comparator) : (s.modCmp a c f).het = s.het := rfl
@[simp] theorem State.modCmp_pwr (s : State) (a : Eng) (c : CmpIx) (f : Comparator → Comparator) : (s.modCmp a c f).pwr = s.pwr := rfl
@[simp] theorem State.modCmp_mem (s : State) (a : Eng) (c : CmpIx) (f : Comparator → Comparator) : (s.modCmp a c f).mem = s.mem := rfl
@[simp] theorem State.modCmp_sec (s : State) (a : Eng) (c : CmpIx) (f : Comparator → Comparator) : (s.modCmp a c f).sec = s.sec := rfl
@[simp] theorem State.modCmp_evr (s : State) (a : Eng) (c : CmpIx) (f : Comparator → Comparator) : (s.modCmp a c f).evr = s.evr := rfl
@[simp] theorem State.modCmp_nor (s : State) (a : Eng) (c : CmpIx) (f : Comparator → Comparator) : (s.modCmp a c f).nor = s.nor := rfl
@[simp] theorem State.modCmp_fuse (s : State) (a : Eng) (c : CmpIx) (f : Comparator → Comparator) : (s.modCmp a c f).fuse = s.fuse := rfl
@[simp] theorem State.modCmp_rst (s : State) (a : Eng) (c : CmpIx) (f : Comparator → Comparator) : (s.modCmp a c f).rst = s.rst := rfl
@[simp] theorem State.modCmp_out (s : State) (a : Eng) (c : CmpIx) (f : Comparator → Comparator) : (s.modCmp a c f).out = s.out := rfl
@[simp] theorem State.modCmp_snaps (s : State) (a : Eng) (c : CmpIx) (f : Comparator → Comparator) : (s.modCmp a c f).snaps = s.snaps := rfl
/-! `State.modLink` -/
@[simp] theorem State.modLink_pending (s : State) (a : Eng) (l : LinkIx) (f : ArmLink → ArmLink) : (s.modLink a l f).pending = s.pending := rfl
@[simp] theorem State.modLink_free (s : State) (a : Eng) (l : LinkIx) (f : ArmLink → ArmLink) : (s.modLink a l f).free = s.free := rfl
@[simp] theorem State.modLink_mtime (s : State) (a : Eng) (l : LinkIx) (f : ArmLink → ArmLink) : (s.modLink a l f).mtime = s.mtime := rfl
@[simp] theorem State.modLink_layout (s : State) (a : Eng) (l : LinkIx) (f : ArmLink → ArmLink) : (s.modLink a l f).layout = s.layout := rfl
@[simp] theorem State.modLink_eng (s : State) (a : Eng) (l : LinkIx) (f : ArmLink → ArmLink) : (s.modLink a l f).eng = vmod s.eng a fun e => { e with links := vmod e.links l f } := rfl
@[simp] theorem State.modLink_head (s : State) (a : Eng) (l : LinkIx) (f : ArmLink → ArmLink) : (s.modLink a l f).head = s.head := rfl
@[simp] theorem State.modLink_slice (s : State) (a : Eng) (l : LinkIx) (f : ArmLink → ArmLink) : (s.modLink a l f).slice = s.slice := rfl
@[simp] theorem State.modLink_lane (s : State) (a : Eng) (l : LinkIx) (f : ArmLink → ArmLink) : (s.modLink a l f).lane = s.lane := rfl
@[simp] theorem State.modLink_pool (s : State) (a : Eng) (l : LinkIx) (f : ArmLink → ArmLink) : (s.modLink a l f).pool = s.pool := rfl
@[simp] theorem State.modLink_mems (s : State) (a : Eng) (l : LinkIx) (f : ArmLink → ArmLink) : (s.modLink a l f).mems = s.mems := rfl
@[simp] theorem State.modLink_wsl (s : State) (a : Eng) (l : LinkIx) (f : ArmLink → ArmLink) : (s.modLink a l f).wsl = s.wsl := rfl
@[simp] theorem State.modLink_lpe (s : State) (a : Eng) (l : LinkIx) (f : ArmLink → ArmLink) : (s.modLink a l f).lpe = s.lpe := rfl
@[simp] theorem State.modLink_trc (s : State) (a : Eng) (l : LinkIx) (f : ArmLink → ArmLink) : (s.modLink a l f).trc = s.trc := rfl
@[simp] theorem State.modLink_spn (s : State) (a : Eng) (l : LinkIx) (f : ArmLink → ArmLink) : (s.modLink a l f).spn = s.spn := rfl
@[simp] theorem State.modLink_media (s : State) (a : Eng) (l : LinkIx) (f : ArmLink → ArmLink) : (s.modLink a l f).media = s.media := rfl
@[simp] theorem State.modLink_host (s : State) (a : Eng) (l : LinkIx) (f : ArmLink → ArmLink) : (s.modLink a l f).host = s.host := rfl
@[simp] theorem State.modLink_q (s : State) (a : Eng) (l : LinkIx) (f : ArmLink → ArmLink) : (s.modLink a l f).q = s.q := rfl
@[simp] theorem State.modLink_het (s : State) (a : Eng) (l : LinkIx) (f : ArmLink → ArmLink) : (s.modLink a l f).het = s.het := rfl
@[simp] theorem State.modLink_pwr (s : State) (a : Eng) (l : LinkIx) (f : ArmLink → ArmLink) : (s.modLink a l f).pwr = s.pwr := rfl
@[simp] theorem State.modLink_mem (s : State) (a : Eng) (l : LinkIx) (f : ArmLink → ArmLink) : (s.modLink a l f).mem = s.mem := rfl
@[simp] theorem State.modLink_sec (s : State) (a : Eng) (l : LinkIx) (f : ArmLink → ArmLink) : (s.modLink a l f).sec = s.sec := rfl
@[simp] theorem State.modLink_evr (s : State) (a : Eng) (l : LinkIx) (f : ArmLink → ArmLink) : (s.modLink a l f).evr = s.evr := rfl
@[simp] theorem State.modLink_nor (s : State) (a : Eng) (l : LinkIx) (f : ArmLink → ArmLink) : (s.modLink a l f).nor = s.nor := rfl
@[simp] theorem State.modLink_fuse (s : State) (a : Eng) (l : LinkIx) (f : ArmLink → ArmLink) : (s.modLink a l f).fuse = s.fuse := rfl
@[simp] theorem State.modLink_rst (s : State) (a : Eng) (l : LinkIx) (f : ArmLink → ArmLink) : (s.modLink a l f).rst = s.rst := rfl
@[simp] theorem State.modLink_out (s : State) (a : Eng) (l : LinkIx) (f : ArmLink → ArmLink) : (s.modLink a l f).out = s.out := rfl
@[simp] theorem State.modLink_snaps (s : State) (a : Eng) (l : LinkIx) (f : ArmLink → ArmLink) : (s.modLink a l f).snaps = s.snaps := rfl
/-! `State.modRec` -/
@[simp] theorem State.modRec_pending (s : State) (a : Eng) (f : Recovery → Recovery) : (s.modRec a f).pending = s.pending := rfl
@[simp] theorem State.modRec_free (s : State) (a : Eng) (f : Recovery → Recovery) : (s.modRec a f).free = s.free := rfl
@[simp] theorem State.modRec_mtime (s : State) (a : Eng) (f : Recovery → Recovery) : (s.modRec a f).mtime = s.mtime := rfl
@[simp] theorem State.modRec_layout (s : State) (a : Eng) (f : Recovery → Recovery) : (s.modRec a f).layout = s.layout := rfl
@[simp] theorem State.modRec_eng (s : State) (a : Eng) (f : Recovery → Recovery) : (s.modRec a f).eng = vmod s.eng a fun e => { e with recv := f e.recv } := rfl
@[simp] theorem State.modRec_head (s : State) (a : Eng) (f : Recovery → Recovery) : (s.modRec a f).head = s.head := rfl
@[simp] theorem State.modRec_slice (s : State) (a : Eng) (f : Recovery → Recovery) : (s.modRec a f).slice = s.slice := rfl
@[simp] theorem State.modRec_lane (s : State) (a : Eng) (f : Recovery → Recovery) : (s.modRec a f).lane = s.lane := rfl
@[simp] theorem State.modRec_pool (s : State) (a : Eng) (f : Recovery → Recovery) : (s.modRec a f).pool = s.pool := rfl
@[simp] theorem State.modRec_mems (s : State) (a : Eng) (f : Recovery → Recovery) : (s.modRec a f).mems = s.mems := rfl
@[simp] theorem State.modRec_wsl (s : State) (a : Eng) (f : Recovery → Recovery) : (s.modRec a f).wsl = s.wsl := rfl
@[simp] theorem State.modRec_lpe (s : State) (a : Eng) (f : Recovery → Recovery) : (s.modRec a f).lpe = s.lpe := rfl
@[simp] theorem State.modRec_trc (s : State) (a : Eng) (f : Recovery → Recovery) : (s.modRec a f).trc = s.trc := rfl
@[simp] theorem State.modRec_spn (s : State) (a : Eng) (f : Recovery → Recovery) : (s.modRec a f).spn = s.spn := rfl
@[simp] theorem State.modRec_media (s : State) (a : Eng) (f : Recovery → Recovery) : (s.modRec a f).media = s.media := rfl
@[simp] theorem State.modRec_host (s : State) (a : Eng) (f : Recovery → Recovery) : (s.modRec a f).host = s.host := rfl
@[simp] theorem State.modRec_q (s : State) (a : Eng) (f : Recovery → Recovery) : (s.modRec a f).q = s.q := rfl
@[simp] theorem State.modRec_het (s : State) (a : Eng) (f : Recovery → Recovery) : (s.modRec a f).het = s.het := rfl
@[simp] theorem State.modRec_pwr (s : State) (a : Eng) (f : Recovery → Recovery) : (s.modRec a f).pwr = s.pwr := rfl
@[simp] theorem State.modRec_mem (s : State) (a : Eng) (f : Recovery → Recovery) : (s.modRec a f).mem = s.mem := rfl
@[simp] theorem State.modRec_sec (s : State) (a : Eng) (f : Recovery → Recovery) : (s.modRec a f).sec = s.sec := rfl
@[simp] theorem State.modRec_evr (s : State) (a : Eng) (f : Recovery → Recovery) : (s.modRec a f).evr = s.evr := rfl
@[simp] theorem State.modRec_nor (s : State) (a : Eng) (f : Recovery → Recovery) : (s.modRec a f).nor = s.nor := rfl
@[simp] theorem State.modRec_fuse (s : State) (a : Eng) (f : Recovery → Recovery) : (s.modRec a f).fuse = s.fuse := rfl
@[simp] theorem State.modRec_rst (s : State) (a : Eng) (f : Recovery → Recovery) : (s.modRec a f).rst = s.rst := rfl
@[simp] theorem State.modRec_out (s : State) (a : Eng) (f : Recovery → Recovery) : (s.modRec a f).out = s.out := rfl
@[simp] theorem State.modRec_snaps (s : State) (a : Eng) (f : Recovery → Recovery) : (s.modRec a f).snaps = s.snaps := rfl
/-! `State.modWrg` -/
@[simp] theorem State.modWrg_pending (s : State) (a : Eng) (f : WriteGuard → WriteGuard) : (s.modWrg a f).pending = s.pending := rfl
@[simp] theorem State.modWrg_free (s : State) (a : Eng) (f : WriteGuard → WriteGuard) : (s.modWrg a f).free = s.free := rfl
@[simp] theorem State.modWrg_mtime (s : State) (a : Eng) (f : WriteGuard → WriteGuard) : (s.modWrg a f).mtime = s.mtime := rfl
@[simp] theorem State.modWrg_layout (s : State) (a : Eng) (f : WriteGuard → WriteGuard) : (s.modWrg a f).layout = s.layout := rfl
@[simp] theorem State.modWrg_eng (s : State) (a : Eng) (f : WriteGuard → WriteGuard) : (s.modWrg a f).eng = vmod s.eng a fun e => { e with wrg := f e.wrg } := rfl
@[simp] theorem State.modWrg_head (s : State) (a : Eng) (f : WriteGuard → WriteGuard) : (s.modWrg a f).head = s.head := rfl
@[simp] theorem State.modWrg_slice (s : State) (a : Eng) (f : WriteGuard → WriteGuard) : (s.modWrg a f).slice = s.slice := rfl
@[simp] theorem State.modWrg_lane (s : State) (a : Eng) (f : WriteGuard → WriteGuard) : (s.modWrg a f).lane = s.lane := rfl
@[simp] theorem State.modWrg_pool (s : State) (a : Eng) (f : WriteGuard → WriteGuard) : (s.modWrg a f).pool = s.pool := rfl
@[simp] theorem State.modWrg_mems (s : State) (a : Eng) (f : WriteGuard → WriteGuard) : (s.modWrg a f).mems = s.mems := rfl
@[simp] theorem State.modWrg_wsl (s : State) (a : Eng) (f : WriteGuard → WriteGuard) : (s.modWrg a f).wsl = s.wsl := rfl
@[simp] theorem State.modWrg_lpe (s : State) (a : Eng) (f : WriteGuard → WriteGuard) : (s.modWrg a f).lpe = s.lpe := rfl
@[simp] theorem State.modWrg_trc (s : State) (a : Eng) (f : WriteGuard → WriteGuard) : (s.modWrg a f).trc = s.trc := rfl
@[simp] theorem State.modWrg_spn (s : State) (a : Eng) (f : WriteGuard → WriteGuard) : (s.modWrg a f).spn = s.spn := rfl
@[simp] theorem State.modWrg_media (s : State) (a : Eng) (f : WriteGuard → WriteGuard) : (s.modWrg a f).media = s.media := rfl
@[simp] theorem State.modWrg_host (s : State) (a : Eng) (f : WriteGuard → WriteGuard) : (s.modWrg a f).host = s.host := rfl
@[simp] theorem State.modWrg_q (s : State) (a : Eng) (f : WriteGuard → WriteGuard) : (s.modWrg a f).q = s.q := rfl
@[simp] theorem State.modWrg_het (s : State) (a : Eng) (f : WriteGuard → WriteGuard) : (s.modWrg a f).het = s.het := rfl
@[simp] theorem State.modWrg_pwr (s : State) (a : Eng) (f : WriteGuard → WriteGuard) : (s.modWrg a f).pwr = s.pwr := rfl
@[simp] theorem State.modWrg_mem (s : State) (a : Eng) (f : WriteGuard → WriteGuard) : (s.modWrg a f).mem = s.mem := rfl
@[simp] theorem State.modWrg_sec (s : State) (a : Eng) (f : WriteGuard → WriteGuard) : (s.modWrg a f).sec = s.sec := rfl
@[simp] theorem State.modWrg_evr (s : State) (a : Eng) (f : WriteGuard → WriteGuard) : (s.modWrg a f).evr = s.evr := rfl
@[simp] theorem State.modWrg_nor (s : State) (a : Eng) (f : WriteGuard → WriteGuard) : (s.modWrg a f).nor = s.nor := rfl
@[simp] theorem State.modWrg_fuse (s : State) (a : Eng) (f : WriteGuard → WriteGuard) : (s.modWrg a f).fuse = s.fuse := rfl
@[simp] theorem State.modWrg_rst (s : State) (a : Eng) (f : WriteGuard → WriteGuard) : (s.modWrg a f).rst = s.rst := rfl
@[simp] theorem State.modWrg_out (s : State) (a : Eng) (f : WriteGuard → WriteGuard) : (s.modWrg a f).out = s.out := rfl
@[simp] theorem State.modWrg_snaps (s : State) (a : Eng) (f : WriteGuard → WriteGuard) : (s.modWrg a f).snaps = s.snaps := rfl
/-! `State.modSrv` -/
@[simp] theorem State.modSrv_pending (s : State) (a : Eng) (f : Servo → Servo) : (s.modSrv a f).pending = s.pending := rfl
@[simp] theorem State.modSrv_free (s : State) (a : Eng) (f : Servo → Servo) : (s.modSrv a f).free = s.free := rfl
@[simp] theorem State.modSrv_mtime (s : State) (a : Eng) (f : Servo → Servo) : (s.modSrv a f).mtime = s.mtime := rfl
@[simp] theorem State.modSrv_layout (s : State) (a : Eng) (f : Servo → Servo) : (s.modSrv a f).layout = s.layout := rfl
@[simp] theorem State.modSrv_eng (s : State) (a : Eng) (f : Servo → Servo) : (s.modSrv a f).eng = vmod s.eng a fun e => { e with srv := f e.srv } := rfl
@[simp] theorem State.modSrv_head (s : State) (a : Eng) (f : Servo → Servo) : (s.modSrv a f).head = s.head := rfl
@[simp] theorem State.modSrv_slice (s : State) (a : Eng) (f : Servo → Servo) : (s.modSrv a f).slice = s.slice := rfl
@[simp] theorem State.modSrv_lane (s : State) (a : Eng) (f : Servo → Servo) : (s.modSrv a f).lane = s.lane := rfl
@[simp] theorem State.modSrv_pool (s : State) (a : Eng) (f : Servo → Servo) : (s.modSrv a f).pool = s.pool := rfl
@[simp] theorem State.modSrv_mems (s : State) (a : Eng) (f : Servo → Servo) : (s.modSrv a f).mems = s.mems := rfl
@[simp] theorem State.modSrv_wsl (s : State) (a : Eng) (f : Servo → Servo) : (s.modSrv a f).wsl = s.wsl := rfl
@[simp] theorem State.modSrv_lpe (s : State) (a : Eng) (f : Servo → Servo) : (s.modSrv a f).lpe = s.lpe := rfl
@[simp] theorem State.modSrv_trc (s : State) (a : Eng) (f : Servo → Servo) : (s.modSrv a f).trc = s.trc := rfl
@[simp] theorem State.modSrv_spn (s : State) (a : Eng) (f : Servo → Servo) : (s.modSrv a f).spn = s.spn := rfl
@[simp] theorem State.modSrv_media (s : State) (a : Eng) (f : Servo → Servo) : (s.modSrv a f).media = s.media := rfl
@[simp] theorem State.modSrv_host (s : State) (a : Eng) (f : Servo → Servo) : (s.modSrv a f).host = s.host := rfl
@[simp] theorem State.modSrv_q (s : State) (a : Eng) (f : Servo → Servo) : (s.modSrv a f).q = s.q := rfl
@[simp] theorem State.modSrv_het (s : State) (a : Eng) (f : Servo → Servo) : (s.modSrv a f).het = s.het := rfl
@[simp] theorem State.modSrv_pwr (s : State) (a : Eng) (f : Servo → Servo) : (s.modSrv a f).pwr = s.pwr := rfl
@[simp] theorem State.modSrv_mem (s : State) (a : Eng) (f : Servo → Servo) : (s.modSrv a f).mem = s.mem := rfl
@[simp] theorem State.modSrv_sec (s : State) (a : Eng) (f : Servo → Servo) : (s.modSrv a f).sec = s.sec := rfl
@[simp] theorem State.modSrv_evr (s : State) (a : Eng) (f : Servo → Servo) : (s.modSrv a f).evr = s.evr := rfl
@[simp] theorem State.modSrv_nor (s : State) (a : Eng) (f : Servo → Servo) : (s.modSrv a f).nor = s.nor := rfl
@[simp] theorem State.modSrv_fuse (s : State) (a : Eng) (f : Servo → Servo) : (s.modSrv a f).fuse = s.fuse := rfl
@[simp] theorem State.modSrv_rst (s : State) (a : Eng) (f : Servo → Servo) : (s.modSrv a f).rst = s.rst := rfl
@[simp] theorem State.modSrv_out (s : State) (a : Eng) (f : Servo → Servo) : (s.modSrv a f).out = s.out := rfl
@[simp] theorem State.modSrv_snaps (s : State) (a : Eng) (f : Servo → Servo) : (s.modSrv a f).snaps = s.snaps := rfl
/-! `State.modSeq` -/
@[simp] theorem State.modSeq_pending (s : State) (a : Eng) (f : Sequencer → Sequencer) : (s.modSeq a f).pending = s.pending := rfl
@[simp] theorem State.modSeq_free (s : State) (a : Eng) (f : Sequencer → Sequencer) : (s.modSeq a f).free = s.free := rfl
@[simp] theorem State.modSeq_mtime (s : State) (a : Eng) (f : Sequencer → Sequencer) : (s.modSeq a f).mtime = s.mtime := rfl
@[simp] theorem State.modSeq_layout (s : State) (a : Eng) (f : Sequencer → Sequencer) : (s.modSeq a f).layout = s.layout := rfl
@[simp] theorem State.modSeq_eng (s : State) (a : Eng) (f : Sequencer → Sequencer) : (s.modSeq a f).eng = vmod s.eng a fun e => { e with seq := f e.seq } := rfl
@[simp] theorem State.modSeq_head (s : State) (a : Eng) (f : Sequencer → Sequencer) : (s.modSeq a f).head = s.head := rfl
@[simp] theorem State.modSeq_slice (s : State) (a : Eng) (f : Sequencer → Sequencer) : (s.modSeq a f).slice = s.slice := rfl
@[simp] theorem State.modSeq_lane (s : State) (a : Eng) (f : Sequencer → Sequencer) : (s.modSeq a f).lane = s.lane := rfl
@[simp] theorem State.modSeq_pool (s : State) (a : Eng) (f : Sequencer → Sequencer) : (s.modSeq a f).pool = s.pool := rfl
@[simp] theorem State.modSeq_mems (s : State) (a : Eng) (f : Sequencer → Sequencer) : (s.modSeq a f).mems = s.mems := rfl
@[simp] theorem State.modSeq_wsl (s : State) (a : Eng) (f : Sequencer → Sequencer) : (s.modSeq a f).wsl = s.wsl := rfl
@[simp] theorem State.modSeq_lpe (s : State) (a : Eng) (f : Sequencer → Sequencer) : (s.modSeq a f).lpe = s.lpe := rfl
@[simp] theorem State.modSeq_trc (s : State) (a : Eng) (f : Sequencer → Sequencer) : (s.modSeq a f).trc = s.trc := rfl
@[simp] theorem State.modSeq_spn (s : State) (a : Eng) (f : Sequencer → Sequencer) : (s.modSeq a f).spn = s.spn := rfl
@[simp] theorem State.modSeq_media (s : State) (a : Eng) (f : Sequencer → Sequencer) : (s.modSeq a f).media = s.media := rfl
@[simp] theorem State.modSeq_host (s : State) (a : Eng) (f : Sequencer → Sequencer) : (s.modSeq a f).host = s.host := rfl
@[simp] theorem State.modSeq_q (s : State) (a : Eng) (f : Sequencer → Sequencer) : (s.modSeq a f).q = s.q := rfl
@[simp] theorem State.modSeq_het (s : State) (a : Eng) (f : Sequencer → Sequencer) : (s.modSeq a f).het = s.het := rfl
@[simp] theorem State.modSeq_pwr (s : State) (a : Eng) (f : Sequencer → Sequencer) : (s.modSeq a f).pwr = s.pwr := rfl
@[simp] theorem State.modSeq_mem (s : State) (a : Eng) (f : Sequencer → Sequencer) : (s.modSeq a f).mem = s.mem := rfl
@[simp] theorem State.modSeq_sec (s : State) (a : Eng) (f : Sequencer → Sequencer) : (s.modSeq a f).sec = s.sec := rfl
@[simp] theorem State.modSeq_evr (s : State) (a : Eng) (f : Sequencer → Sequencer) : (s.modSeq a f).evr = s.evr := rfl
@[simp] theorem State.modSeq_nor (s : State) (a : Eng) (f : Sequencer → Sequencer) : (s.modSeq a f).nor = s.nor := rfl
@[simp] theorem State.modSeq_fuse (s : State) (a : Eng) (f : Sequencer → Sequencer) : (s.modSeq a f).fuse = s.fuse := rfl
@[simp] theorem State.modSeq_rst (s : State) (a : Eng) (f : Sequencer → Sequencer) : (s.modSeq a f).rst = s.rst := rfl
@[simp] theorem State.modSeq_out (s : State) (a : Eng) (f : Sequencer → Sequencer) : (s.modSeq a f).out = s.out := rfl
@[simp] theorem State.modSeq_snaps (s : State) (a : Eng) (f : Sequencer → Sequencer) : (s.modSeq a f).snaps = s.snaps := rfl
/-! `State.modZdc` -/
@[simp] theorem State.modZdc_pending (s : State) (a : Eng) (f : Zdc → Zdc) : (s.modZdc a f).pending = s.pending := rfl
@[simp] theorem State.modZdc_free (s : State) (a : Eng) (f : Zdc → Zdc) : (s.modZdc a f).free = s.free := rfl
@[simp] theorem State.modZdc_mtime (s : State) (a : Eng) (f : Zdc → Zdc) : (s.modZdc a f).mtime = s.mtime := rfl
@[simp] theorem State.modZdc_layout (s : State) (a : Eng) (f : Zdc → Zdc) : (s.modZdc a f).layout = s.layout := rfl
@[simp] theorem State.modZdc_eng (s : State) (a : Eng) (f : Zdc → Zdc) : (s.modZdc a f).eng = vmod s.eng a fun e => { e with zdc := f e.zdc } := rfl
@[simp] theorem State.modZdc_head (s : State) (a : Eng) (f : Zdc → Zdc) : (s.modZdc a f).head = s.head := rfl
@[simp] theorem State.modZdc_slice (s : State) (a : Eng) (f : Zdc → Zdc) : (s.modZdc a f).slice = s.slice := rfl
@[simp] theorem State.modZdc_lane (s : State) (a : Eng) (f : Zdc → Zdc) : (s.modZdc a f).lane = s.lane := rfl
@[simp] theorem State.modZdc_pool (s : State) (a : Eng) (f : Zdc → Zdc) : (s.modZdc a f).pool = s.pool := rfl
@[simp] theorem State.modZdc_mems (s : State) (a : Eng) (f : Zdc → Zdc) : (s.modZdc a f).mems = s.mems := rfl
@[simp] theorem State.modZdc_wsl (s : State) (a : Eng) (f : Zdc → Zdc) : (s.modZdc a f).wsl = s.wsl := rfl
@[simp] theorem State.modZdc_lpe (s : State) (a : Eng) (f : Zdc → Zdc) : (s.modZdc a f).lpe = s.lpe := rfl
@[simp] theorem State.modZdc_trc (s : State) (a : Eng) (f : Zdc → Zdc) : (s.modZdc a f).trc = s.trc := rfl
@[simp] theorem State.modZdc_spn (s : State) (a : Eng) (f : Zdc → Zdc) : (s.modZdc a f).spn = s.spn := rfl
@[simp] theorem State.modZdc_media (s : State) (a : Eng) (f : Zdc → Zdc) : (s.modZdc a f).media = s.media := rfl
@[simp] theorem State.modZdc_host (s : State) (a : Eng) (f : Zdc → Zdc) : (s.modZdc a f).host = s.host := rfl
@[simp] theorem State.modZdc_q (s : State) (a : Eng) (f : Zdc → Zdc) : (s.modZdc a f).q = s.q := rfl
@[simp] theorem State.modZdc_het (s : State) (a : Eng) (f : Zdc → Zdc) : (s.modZdc a f).het = s.het := rfl
@[simp] theorem State.modZdc_pwr (s : State) (a : Eng) (f : Zdc → Zdc) : (s.modZdc a f).pwr = s.pwr := rfl
@[simp] theorem State.modZdc_mem (s : State) (a : Eng) (f : Zdc → Zdc) : (s.modZdc a f).mem = s.mem := rfl
@[simp] theorem State.modZdc_sec (s : State) (a : Eng) (f : Zdc → Zdc) : (s.modZdc a f).sec = s.sec := rfl
@[simp] theorem State.modZdc_evr (s : State) (a : Eng) (f : Zdc → Zdc) : (s.modZdc a f).evr = s.evr := rfl
@[simp] theorem State.modZdc_nor (s : State) (a : Eng) (f : Zdc → Zdc) : (s.modZdc a f).nor = s.nor := rfl
@[simp] theorem State.modZdc_fuse (s : State) (a : Eng) (f : Zdc → Zdc) : (s.modZdc a f).fuse = s.fuse := rfl
@[simp] theorem State.modZdc_rst (s : State) (a : Eng) (f : Zdc → Zdc) : (s.modZdc a f).rst = s.rst := rfl
@[simp] theorem State.modZdc_out (s : State) (a : Eng) (f : Zdc → Zdc) : (s.modZdc a f).out = s.out := rfl
@[simp] theorem State.modZdc_snaps (s : State) (a : Eng) (f : Zdc → Zdc) : (s.modZdc a f).snaps = s.snaps := rfl
/-! `State.modCore` -/
@[simp] theorem State.modCore_pending (s : State) (a : Eng) (f : ActCore → ActCore) : (s.modCore a f).pending = s.pending := rfl
@[simp] theorem State.modCore_free (s : State) (a : Eng) (f : ActCore → ActCore) : (s.modCore a f).free = s.free := rfl
@[simp] theorem State.modCore_mtime (s : State) (a : Eng) (f : ActCore → ActCore) : (s.modCore a f).mtime = s.mtime := rfl
@[simp] theorem State.modCore_layout (s : State) (a : Eng) (f : ActCore → ActCore) : (s.modCore a f).layout = s.layout := rfl
@[simp] theorem State.modCore_eng (s : State) (a : Eng) (f : ActCore → ActCore) : (s.modCore a f).eng = vmod s.eng a fun e => { e with core := f e.core } := rfl
@[simp] theorem State.modCore_head (s : State) (a : Eng) (f : ActCore → ActCore) : (s.modCore a f).head = s.head := rfl
@[simp] theorem State.modCore_slice (s : State) (a : Eng) (f : ActCore → ActCore) : (s.modCore a f).slice = s.slice := rfl
@[simp] theorem State.modCore_lane (s : State) (a : Eng) (f : ActCore → ActCore) : (s.modCore a f).lane = s.lane := rfl
@[simp] theorem State.modCore_pool (s : State) (a : Eng) (f : ActCore → ActCore) : (s.modCore a f).pool = s.pool := rfl
@[simp] theorem State.modCore_mems (s : State) (a : Eng) (f : ActCore → ActCore) : (s.modCore a f).mems = s.mems := rfl
@[simp] theorem State.modCore_wsl (s : State) (a : Eng) (f : ActCore → ActCore) : (s.modCore a f).wsl = s.wsl := rfl
@[simp] theorem State.modCore_lpe (s : State) (a : Eng) (f : ActCore → ActCore) : (s.modCore a f).lpe = s.lpe := rfl
@[simp] theorem State.modCore_trc (s : State) (a : Eng) (f : ActCore → ActCore) : (s.modCore a f).trc = s.trc := rfl
@[simp] theorem State.modCore_spn (s : State) (a : Eng) (f : ActCore → ActCore) : (s.modCore a f).spn = s.spn := rfl
@[simp] theorem State.modCore_media (s : State) (a : Eng) (f : ActCore → ActCore) : (s.modCore a f).media = s.media := rfl
@[simp] theorem State.modCore_host (s : State) (a : Eng) (f : ActCore → ActCore) : (s.modCore a f).host = s.host := rfl
@[simp] theorem State.modCore_q (s : State) (a : Eng) (f : ActCore → ActCore) : (s.modCore a f).q = s.q := rfl
@[simp] theorem State.modCore_het (s : State) (a : Eng) (f : ActCore → ActCore) : (s.modCore a f).het = s.het := rfl
@[simp] theorem State.modCore_pwr (s : State) (a : Eng) (f : ActCore → ActCore) : (s.modCore a f).pwr = s.pwr := rfl
@[simp] theorem State.modCore_mem (s : State) (a : Eng) (f : ActCore → ActCore) : (s.modCore a f).mem = s.mem := rfl
@[simp] theorem State.modCore_sec (s : State) (a : Eng) (f : ActCore → ActCore) : (s.modCore a f).sec = s.sec := rfl
@[simp] theorem State.modCore_evr (s : State) (a : Eng) (f : ActCore → ActCore) : (s.modCore a f).evr = s.evr := rfl
@[simp] theorem State.modCore_nor (s : State) (a : Eng) (f : ActCore → ActCore) : (s.modCore a f).nor = s.nor := rfl
@[simp] theorem State.modCore_fuse (s : State) (a : Eng) (f : ActCore → ActCore) : (s.modCore a f).fuse = s.fuse := rfl
@[simp] theorem State.modCore_rst (s : State) (a : Eng) (f : ActCore → ActCore) : (s.modCore a f).rst = s.rst := rfl
@[simp] theorem State.modCore_out (s : State) (a : Eng) (f : ActCore → ActCore) : (s.modCore a f).out = s.out := rfl
@[simp] theorem State.modCore_snaps (s : State) (a : Eng) (f : ActCore → ActCore) : (s.modCore a f).snaps = s.snaps := rfl
/-! `State.modHead` -/
@[simp] theorem State.modHead_pending (s : State) (g : Head) (f : HeadUnit → HeadUnit) : (s.modHead g f).pending = s.pending := rfl
@[simp] theorem State.modHead_free (s : State) (g : Head) (f : HeadUnit → HeadUnit) : (s.modHead g f).free = s.free := rfl
@[simp] theorem State.modHead_mtime (s : State) (g : Head) (f : HeadUnit → HeadUnit) : (s.modHead g f).mtime = s.mtime := rfl
@[simp] theorem State.modHead_layout (s : State) (g : Head) (f : HeadUnit → HeadUnit) : (s.modHead g f).layout = s.layout := rfl
@[simp] theorem State.modHead_eng (s : State) (g : Head) (f : HeadUnit → HeadUnit) : (s.modHead g f).eng = s.eng := rfl
@[simp] theorem State.modHead_head (s : State) (g : Head) (f : HeadUnit → HeadUnit) : (s.modHead g f).head = vmod s.head g f := rfl
@[simp] theorem State.modHead_slice (s : State) (g : Head) (f : HeadUnit → HeadUnit) : (s.modHead g f).slice = s.slice := rfl
@[simp] theorem State.modHead_lane (s : State) (g : Head) (f : HeadUnit → HeadUnit) : (s.modHead g f).lane = s.lane := rfl
@[simp] theorem State.modHead_pool (s : State) (g : Head) (f : HeadUnit → HeadUnit) : (s.modHead g f).pool = s.pool := rfl
@[simp] theorem State.modHead_mems (s : State) (g : Head) (f : HeadUnit → HeadUnit) : (s.modHead g f).mems = s.mems := rfl
@[simp] theorem State.modHead_wsl (s : State) (g : Head) (f : HeadUnit → HeadUnit) : (s.modHead g f).wsl = s.wsl := rfl
@[simp] theorem State.modHead_lpe (s : State) (g : Head) (f : HeadUnit → HeadUnit) : (s.modHead g f).lpe = s.lpe := rfl
@[simp] theorem State.modHead_trc (s : State) (g : Head) (f : HeadUnit → HeadUnit) : (s.modHead g f).trc = s.trc := rfl
@[simp] theorem State.modHead_spn (s : State) (g : Head) (f : HeadUnit → HeadUnit) : (s.modHead g f).spn = s.spn := rfl
@[simp] theorem State.modHead_media (s : State) (g : Head) (f : HeadUnit → HeadUnit) : (s.modHead g f).media = s.media := rfl
@[simp] theorem State.modHead_host (s : State) (g : Head) (f : HeadUnit → HeadUnit) : (s.modHead g f).host = s.host := rfl
@[simp] theorem State.modHead_q (s : State) (g : Head) (f : HeadUnit → HeadUnit) : (s.modHead g f).q = s.q := rfl
@[simp] theorem State.modHead_het (s : State) (g : Head) (f : HeadUnit → HeadUnit) : (s.modHead g f).het = s.het := rfl
@[simp] theorem State.modHead_pwr (s : State) (g : Head) (f : HeadUnit → HeadUnit) : (s.modHead g f).pwr = s.pwr := rfl
@[simp] theorem State.modHead_mem (s : State) (g : Head) (f : HeadUnit → HeadUnit) : (s.modHead g f).mem = s.mem := rfl
@[simp] theorem State.modHead_sec (s : State) (g : Head) (f : HeadUnit → HeadUnit) : (s.modHead g f).sec = s.sec := rfl
@[simp] theorem State.modHead_evr (s : State) (g : Head) (f : HeadUnit → HeadUnit) : (s.modHead g f).evr = s.evr := rfl
@[simp] theorem State.modHead_nor (s : State) (g : Head) (f : HeadUnit → HeadUnit) : (s.modHead g f).nor = s.nor := rfl
@[simp] theorem State.modHead_fuse (s : State) (g : Head) (f : HeadUnit → HeadUnit) : (s.modHead g f).fuse = s.fuse := rfl
@[simp] theorem State.modHead_rst (s : State) (g : Head) (f : HeadUnit → HeadUnit) : (s.modHead g f).rst = s.rst := rfl
@[simp] theorem State.modHead_out (s : State) (g : Head) (f : HeadUnit → HeadUnit) : (s.modHead g f).out = s.out := rfl
@[simp] theorem State.modHead_snaps (s : State) (g : Head) (f : HeadUnit → HeadUnit) : (s.modHead g f).snaps = s.snaps := rfl
/-! `State.modWr` -/
@[simp] theorem State.modWr_pending (s : State) (g : Head) (f : HeadWrite → HeadWrite) : (s.modWr g f).pending = s.pending := rfl
@[simp] theorem State.modWr_free (s : State) (g : Head) (f : HeadWrite → HeadWrite) : (s.modWr g f).free = s.free := rfl
@[simp] theorem State.modWr_mtime (s : State) (g : Head) (f : HeadWrite → HeadWrite) : (s.modWr g f).mtime = s.mtime := rfl
@[simp] theorem State.modWr_layout (s : State) (g : Head) (f : HeadWrite → HeadWrite) : (s.modWr g f).layout = s.layout := rfl
@[simp] theorem State.modWr_eng (s : State) (g : Head) (f : HeadWrite → HeadWrite) : (s.modWr g f).eng = s.eng := rfl
@[simp] theorem State.modWr_head (s : State) (g : Head) (f : HeadWrite → HeadWrite) : (s.modWr g f).head = vmod s.head g fun h => { h with wr := f h.wr } := rfl
@[simp] theorem State.modWr_slice (s : State) (g : Head) (f : HeadWrite → HeadWrite) : (s.modWr g f).slice = s.slice := rfl
@[simp] theorem State.modWr_lane (s : State) (g : Head) (f : HeadWrite → HeadWrite) : (s.modWr g f).lane = s.lane := rfl
@[simp] theorem State.modWr_pool (s : State) (g : Head) (f : HeadWrite → HeadWrite) : (s.modWr g f).pool = s.pool := rfl
@[simp] theorem State.modWr_mems (s : State) (g : Head) (f : HeadWrite → HeadWrite) : (s.modWr g f).mems = s.mems := rfl
@[simp] theorem State.modWr_wsl (s : State) (g : Head) (f : HeadWrite → HeadWrite) : (s.modWr g f).wsl = s.wsl := rfl
@[simp] theorem State.modWr_lpe (s : State) (g : Head) (f : HeadWrite → HeadWrite) : (s.modWr g f).lpe = s.lpe := rfl
@[simp] theorem State.modWr_trc (s : State) (g : Head) (f : HeadWrite → HeadWrite) : (s.modWr g f).trc = s.trc := rfl
@[simp] theorem State.modWr_spn (s : State) (g : Head) (f : HeadWrite → HeadWrite) : (s.modWr g f).spn = s.spn := rfl
@[simp] theorem State.modWr_media (s : State) (g : Head) (f : HeadWrite → HeadWrite) : (s.modWr g f).media = s.media := rfl
@[simp] theorem State.modWr_host (s : State) (g : Head) (f : HeadWrite → HeadWrite) : (s.modWr g f).host = s.host := rfl
@[simp] theorem State.modWr_q (s : State) (g : Head) (f : HeadWrite → HeadWrite) : (s.modWr g f).q = s.q := rfl
@[simp] theorem State.modWr_het (s : State) (g : Head) (f : HeadWrite → HeadWrite) : (s.modWr g f).het = s.het := rfl
@[simp] theorem State.modWr_pwr (s : State) (g : Head) (f : HeadWrite → HeadWrite) : (s.modWr g f).pwr = s.pwr := rfl
@[simp] theorem State.modWr_mem (s : State) (g : Head) (f : HeadWrite → HeadWrite) : (s.modWr g f).mem = s.mem := rfl
@[simp] theorem State.modWr_sec (s : State) (g : Head) (f : HeadWrite → HeadWrite) : (s.modWr g f).sec = s.sec := rfl
@[simp] theorem State.modWr_evr (s : State) (g : Head) (f : HeadWrite → HeadWrite) : (s.modWr g f).evr = s.evr := rfl
@[simp] theorem State.modWr_nor (s : State) (g : Head) (f : HeadWrite → HeadWrite) : (s.modWr g f).nor = s.nor := rfl
@[simp] theorem State.modWr_fuse (s : State) (g : Head) (f : HeadWrite → HeadWrite) : (s.modWr g f).fuse = s.fuse := rfl
@[simp] theorem State.modWr_rst (s : State) (g : Head) (f : HeadWrite → HeadWrite) : (s.modWr g f).rst = s.rst := rfl
@[simp] theorem State.modWr_out (s : State) (g : Head) (f : HeadWrite → HeadWrite) : (s.modWr g f).out = s.out := rfl
@[simp] theorem State.modWr_snaps (s : State) (g : Head) (f : HeadWrite → HeadWrite) : (s.modWr g f).snaps = s.snaps := rfl
/-! `State.modHs` -/
@[simp] theorem State.modHs_pending (s : State) (g : Head) (f : HeadServo → HeadServo) : (s.modHs g f).pending = s.pending := rfl
@[simp] theorem State.modHs_free (s : State) (g : Head) (f : HeadServo → HeadServo) : (s.modHs g f).free = s.free := rfl
@[simp] theorem State.modHs_mtime (s : State) (g : Head) (f : HeadServo → HeadServo) : (s.modHs g f).mtime = s.mtime := rfl
@[simp] theorem State.modHs_layout (s : State) (g : Head) (f : HeadServo → HeadServo) : (s.modHs g f).layout = s.layout := rfl
@[simp] theorem State.modHs_eng (s : State) (g : Head) (f : HeadServo → HeadServo) : (s.modHs g f).eng = s.eng := rfl
@[simp] theorem State.modHs_head (s : State) (g : Head) (f : HeadServo → HeadServo) : (s.modHs g f).head = vmod s.head g fun h => { h with srv := f h.srv } := rfl
@[simp] theorem State.modHs_slice (s : State) (g : Head) (f : HeadServo → HeadServo) : (s.modHs g f).slice = s.slice := rfl
@[simp] theorem State.modHs_lane (s : State) (g : Head) (f : HeadServo → HeadServo) : (s.modHs g f).lane = s.lane := rfl
@[simp] theorem State.modHs_pool (s : State) (g : Head) (f : HeadServo → HeadServo) : (s.modHs g f).pool = s.pool := rfl
@[simp] theorem State.modHs_mems (s : State) (g : Head) (f : HeadServo → HeadServo) : (s.modHs g f).mems = s.mems := rfl
@[simp] theorem State.modHs_wsl (s : State) (g : Head) (f : HeadServo → HeadServo) : (s.modHs g f).wsl = s.wsl := rfl
@[simp] theorem State.modHs_lpe (s : State) (g : Head) (f : HeadServo → HeadServo) : (s.modHs g f).lpe = s.lpe := rfl
@[simp] theorem State.modHs_trc (s : State) (g : Head) (f : HeadServo → HeadServo) : (s.modHs g f).trc = s.trc := rfl
@[simp] theorem State.modHs_spn (s : State) (g : Head) (f : HeadServo → HeadServo) : (s.modHs g f).spn = s.spn := rfl
@[simp] theorem State.modHs_media (s : State) (g : Head) (f : HeadServo → HeadServo) : (s.modHs g f).media = s.media := rfl
@[simp] theorem State.modHs_host (s : State) (g : Head) (f : HeadServo → HeadServo) : (s.modHs g f).host = s.host := rfl
@[simp] theorem State.modHs_q (s : State) (g : Head) (f : HeadServo → HeadServo) : (s.modHs g f).q = s.q := rfl
@[simp] theorem State.modHs_het (s : State) (g : Head) (f : HeadServo → HeadServo) : (s.modHs g f).het = s.het := rfl
@[simp] theorem State.modHs_pwr (s : State) (g : Head) (f : HeadServo → HeadServo) : (s.modHs g f).pwr = s.pwr := rfl
@[simp] theorem State.modHs_mem (s : State) (g : Head) (f : HeadServo → HeadServo) : (s.modHs g f).mem = s.mem := rfl
@[simp] theorem State.modHs_sec (s : State) (g : Head) (f : HeadServo → HeadServo) : (s.modHs g f).sec = s.sec := rfl
@[simp] theorem State.modHs_evr (s : State) (g : Head) (f : HeadServo → HeadServo) : (s.modHs g f).evr = s.evr := rfl
@[simp] theorem State.modHs_nor (s : State) (g : Head) (f : HeadServo → HeadServo) : (s.modHs g f).nor = s.nor := rfl
@[simp] theorem State.modHs_fuse (s : State) (g : Head) (f : HeadServo → HeadServo) : (s.modHs g f).fuse = s.fuse := rfl
@[simp] theorem State.modHs_rst (s : State) (g : Head) (f : HeadServo → HeadServo) : (s.modHs g f).rst = s.rst := rfl
@[simp] theorem State.modHs_out (s : State) (g : Head) (f : HeadServo → HeadServo) : (s.modHs g f).out = s.out := rfl
@[simp] theorem State.modHs_snaps (s : State) (g : Head) (f : HeadServo → HeadServo) : (s.modHs g f).snaps = s.snaps := rfl
/-! `State.modDet` -/
@[simp] theorem State.modDet_pending (s : State) (g : Head) (f : DetRegs → DetRegs) : (s.modDet g f).pending = s.pending := rfl
@[simp] theorem State.modDet_free (s : State) (g : Head) (f : DetRegs → DetRegs) : (s.modDet g f).free = s.free := rfl
@[simp] theorem State.modDet_mtime (s : State) (g : Head) (f : DetRegs → DetRegs) : (s.modDet g f).mtime = s.mtime := rfl
@[simp] theorem State.modDet_layout (s : State) (g : Head) (f : DetRegs → DetRegs) : (s.modDet g f).layout = s.layout := rfl
@[simp] theorem State.modDet_eng (s : State) (g : Head) (f : DetRegs → DetRegs) : (s.modDet g f).eng = s.eng := rfl
@[simp] theorem State.modDet_head (s : State) (g : Head) (f : DetRegs → DetRegs) : (s.modDet g f).head = vmod s.head g fun h => { h with det := f h.det } := rfl
@[simp] theorem State.modDet_slice (s : State) (g : Head) (f : DetRegs → DetRegs) : (s.modDet g f).slice = s.slice := rfl
@[simp] theorem State.modDet_lane (s : State) (g : Head) (f : DetRegs → DetRegs) : (s.modDet g f).lane = s.lane := rfl
@[simp] theorem State.modDet_pool (s : State) (g : Head) (f : DetRegs → DetRegs) : (s.modDet g f).pool = s.pool := rfl
@[simp] theorem State.modDet_mems (s : State) (g : Head) (f : DetRegs → DetRegs) : (s.modDet g f).mems = s.mems := rfl
@[simp] theorem State.modDet_wsl (s : State) (g : Head) (f : DetRegs → DetRegs) : (s.modDet g f).wsl = s.wsl := rfl
@[simp] theorem State.modDet_lpe (s : State) (g : Head) (f : DetRegs → DetRegs) : (s.modDet g f).lpe = s.lpe := rfl
@[simp] theorem State.modDet_trc (s : State) (g : Head) (f : DetRegs → DetRegs) : (s.modDet g f).trc = s.trc := rfl
@[simp] theorem State.modDet_spn (s : State) (g : Head) (f : DetRegs → DetRegs) : (s.modDet g f).spn = s.spn := rfl
@[simp] theorem State.modDet_media (s : State) (g : Head) (f : DetRegs → DetRegs) : (s.modDet g f).media = s.media := rfl
@[simp] theorem State.modDet_host (s : State) (g : Head) (f : DetRegs → DetRegs) : (s.modDet g f).host = s.host := rfl
@[simp] theorem State.modDet_q (s : State) (g : Head) (f : DetRegs → DetRegs) : (s.modDet g f).q = s.q := rfl
@[simp] theorem State.modDet_het (s : State) (g : Head) (f : DetRegs → DetRegs) : (s.modDet g f).het = s.het := rfl
@[simp] theorem State.modDet_pwr (s : State) (g : Head) (f : DetRegs → DetRegs) : (s.modDet g f).pwr = s.pwr := rfl
@[simp] theorem State.modDet_mem (s : State) (g : Head) (f : DetRegs → DetRegs) : (s.modDet g f).mem = s.mem := rfl
@[simp] theorem State.modDet_sec (s : State) (g : Head) (f : DetRegs → DetRegs) : (s.modDet g f).sec = s.sec := rfl
@[simp] theorem State.modDet_evr (s : State) (g : Head) (f : DetRegs → DetRegs) : (s.modDet g f).evr = s.evr := rfl
@[simp] theorem State.modDet_nor (s : State) (g : Head) (f : DetRegs → DetRegs) : (s.modDet g f).nor = s.nor := rfl
@[simp] theorem State.modDet_fuse (s : State) (g : Head) (f : DetRegs → DetRegs) : (s.modDet g f).fuse = s.fuse := rfl
@[simp] theorem State.modDet_rst (s : State) (g : Head) (f : DetRegs → DetRegs) : (s.modDet g f).rst = s.rst := rfl
@[simp] theorem State.modDet_out (s : State) (g : Head) (f : DetRegs → DetRegs) : (s.modDet g f).out = s.out := rfl
@[simp] theorem State.modDet_snaps (s : State) (g : Head) (f : DetRegs → DetRegs) : (s.modDet g f).snaps = s.snaps := rfl
/-! `State.modMap` -/
@[simp] theorem State.modMap_pending (s : State) (g : Head) (f : HeadMap → HeadMap) : (s.modMap g f).pending = s.pending := rfl
@[simp] theorem State.modMap_free (s : State) (g : Head) (f : HeadMap → HeadMap) : (s.modMap g f).free = s.free := rfl
@[simp] theorem State.modMap_mtime (s : State) (g : Head) (f : HeadMap → HeadMap) : (s.modMap g f).mtime = s.mtime := rfl
@[simp] theorem State.modMap_layout (s : State) (g : Head) (f : HeadMap → HeadMap) : (s.modMap g f).layout = s.layout := rfl
@[simp] theorem State.modMap_eng (s : State) (g : Head) (f : HeadMap → HeadMap) : (s.modMap g f).eng = s.eng := rfl
@[simp] theorem State.modMap_head (s : State) (g : Head) (f : HeadMap → HeadMap) : (s.modMap g f).head = vmod s.head g fun h => { h with map := f h.map } := rfl
@[simp] theorem State.modMap_slice (s : State) (g : Head) (f : HeadMap → HeadMap) : (s.modMap g f).slice = s.slice := rfl
@[simp] theorem State.modMap_lane (s : State) (g : Head) (f : HeadMap → HeadMap) : (s.modMap g f).lane = s.lane := rfl
@[simp] theorem State.modMap_pool (s : State) (g : Head) (f : HeadMap → HeadMap) : (s.modMap g f).pool = s.pool := rfl
@[simp] theorem State.modMap_mems (s : State) (g : Head) (f : HeadMap → HeadMap) : (s.modMap g f).mems = s.mems := rfl
@[simp] theorem State.modMap_wsl (s : State) (g : Head) (f : HeadMap → HeadMap) : (s.modMap g f).wsl = s.wsl := rfl
@[simp] theorem State.modMap_lpe (s : State) (g : Head) (f : HeadMap → HeadMap) : (s.modMap g f).lpe = s.lpe := rfl
@[simp] theorem State.modMap_trc (s : State) (g : Head) (f : HeadMap → HeadMap) : (s.modMap g f).trc = s.trc := rfl
@[simp] theorem State.modMap_spn (s : State) (g : Head) (f : HeadMap → HeadMap) : (s.modMap g f).spn = s.spn := rfl
@[simp] theorem State.modMap_media (s : State) (g : Head) (f : HeadMap → HeadMap) : (s.modMap g f).media = s.media := rfl
@[simp] theorem State.modMap_host (s : State) (g : Head) (f : HeadMap → HeadMap) : (s.modMap g f).host = s.host := rfl
@[simp] theorem State.modMap_q (s : State) (g : Head) (f : HeadMap → HeadMap) : (s.modMap g f).q = s.q := rfl
@[simp] theorem State.modMap_het (s : State) (g : Head) (f : HeadMap → HeadMap) : (s.modMap g f).het = s.het := rfl
@[simp] theorem State.modMap_pwr (s : State) (g : Head) (f : HeadMap → HeadMap) : (s.modMap g f).pwr = s.pwr := rfl
@[simp] theorem State.modMap_mem (s : State) (g : Head) (f : HeadMap → HeadMap) : (s.modMap g f).mem = s.mem := rfl
@[simp] theorem State.modMap_sec (s : State) (g : Head) (f : HeadMap → HeadMap) : (s.modMap g f).sec = s.sec := rfl
@[simp] theorem State.modMap_evr (s : State) (g : Head) (f : HeadMap → HeadMap) : (s.modMap g f).evr = s.evr := rfl
@[simp] theorem State.modMap_nor (s : State) (g : Head) (f : HeadMap → HeadMap) : (s.modMap g f).nor = s.nor := rfl
@[simp] theorem State.modMap_fuse (s : State) (g : Head) (f : HeadMap → HeadMap) : (s.modMap g f).fuse = s.fuse := rfl
@[simp] theorem State.modMap_rst (s : State) (g : Head) (f : HeadMap → HeadMap) : (s.modMap g f).rst = s.rst := rfl
@[simp] theorem State.modMap_out (s : State) (g : Head) (f : HeadMap → HeadMap) : (s.modMap g f).out = s.out := rfl
@[simp] theorem State.modMap_snaps (s : State) (g : Head) (f : HeadMap → HeadMap) : (s.modMap g f).snaps = s.snaps := rfl
/-! `State.modSlice` -/
@[simp] theorem State.modSlice_pending (s : State) (n : SliceIx) (f : Slice → Slice) : (s.modSlice n f).pending = s.pending := rfl
@[simp] theorem State.modSlice_free (s : State) (n : SliceIx) (f : Slice → Slice) : (s.modSlice n f).free = s.free := rfl
@[simp] theorem State.modSlice_mtime (s : State) (n : SliceIx) (f : Slice → Slice) : (s.modSlice n f).mtime = s.mtime := rfl
@[simp] theorem State.modSlice_layout (s : State) (n : SliceIx) (f : Slice → Slice) : (s.modSlice n f).layout = s.layout := rfl
@[simp] theorem State.modSlice_eng (s : State) (n : SliceIx) (f : Slice → Slice) : (s.modSlice n f).eng = s.eng := rfl
@[simp] theorem State.modSlice_head (s : State) (n : SliceIx) (f : Slice → Slice) : (s.modSlice n f).head = s.head := rfl
@[simp] theorem State.modSlice_slice (s : State) (n : SliceIx) (f : Slice → Slice) : (s.modSlice n f).slice = vmod s.slice n f := rfl
@[simp] theorem State.modSlice_lane (s : State) (n : SliceIx) (f : Slice → Slice) : (s.modSlice n f).lane = s.lane := rfl
@[simp] theorem State.modSlice_pool (s : State) (n : SliceIx) (f : Slice → Slice) : (s.modSlice n f).pool = s.pool := rfl
@[simp] theorem State.modSlice_mems (s : State) (n : SliceIx) (f : Slice → Slice) : (s.modSlice n f).mems = s.mems := rfl
@[simp] theorem State.modSlice_wsl (s : State) (n : SliceIx) (f : Slice → Slice) : (s.modSlice n f).wsl = s.wsl := rfl
@[simp] theorem State.modSlice_lpe (s : State) (n : SliceIx) (f : Slice → Slice) : (s.modSlice n f).lpe = s.lpe := rfl
@[simp] theorem State.modSlice_trc (s : State) (n : SliceIx) (f : Slice → Slice) : (s.modSlice n f).trc = s.trc := rfl
@[simp] theorem State.modSlice_spn (s : State) (n : SliceIx) (f : Slice → Slice) : (s.modSlice n f).spn = s.spn := rfl
@[simp] theorem State.modSlice_media (s : State) (n : SliceIx) (f : Slice → Slice) : (s.modSlice n f).media = s.media := rfl
@[simp] theorem State.modSlice_host (s : State) (n : SliceIx) (f : Slice → Slice) : (s.modSlice n f).host = s.host := rfl
@[simp] theorem State.modSlice_q (s : State) (n : SliceIx) (f : Slice → Slice) : (s.modSlice n f).q = s.q := rfl
@[simp] theorem State.modSlice_het (s : State) (n : SliceIx) (f : Slice → Slice) : (s.modSlice n f).het = s.het := rfl
@[simp] theorem State.modSlice_pwr (s : State) (n : SliceIx) (f : Slice → Slice) : (s.modSlice n f).pwr = s.pwr := rfl
@[simp] theorem State.modSlice_mem (s : State) (n : SliceIx) (f : Slice → Slice) : (s.modSlice n f).mem = s.mem := rfl
@[simp] theorem State.modSlice_sec (s : State) (n : SliceIx) (f : Slice → Slice) : (s.modSlice n f).sec = s.sec := rfl
@[simp] theorem State.modSlice_evr (s : State) (n : SliceIx) (f : Slice → Slice) : (s.modSlice n f).evr = s.evr := rfl
@[simp] theorem State.modSlice_nor (s : State) (n : SliceIx) (f : Slice → Slice) : (s.modSlice n f).nor = s.nor := rfl
@[simp] theorem State.modSlice_fuse (s : State) (n : SliceIx) (f : Slice → Slice) : (s.modSlice n f).fuse = s.fuse := rfl
@[simp] theorem State.modSlice_rst (s : State) (n : SliceIx) (f : Slice → Slice) : (s.modSlice n f).rst = s.rst := rfl
@[simp] theorem State.modSlice_out (s : State) (n : SliceIx) (f : Slice → Slice) : (s.modSlice n f).out = s.out := rfl
@[simp] theorem State.modSlice_snaps (s : State) (n : SliceIx) (f : Slice → Slice) : (s.modSlice n f).snaps = s.snaps := rfl
/-! `State.modLane` -/
@[simp] theorem State.modLane_pending (s : State) (l : LaneIx) (f : Lane → Lane) : (s.modLane l f).pending = s.pending := rfl
@[simp] theorem State.modLane_free (s : State) (l : LaneIx) (f : Lane → Lane) : (s.modLane l f).free = s.free := rfl
@[simp] theorem State.modLane_mtime (s : State) (l : LaneIx) (f : Lane → Lane) : (s.modLane l f).mtime = s.mtime := rfl
@[simp] theorem State.modLane_layout (s : State) (l : LaneIx) (f : Lane → Lane) : (s.modLane l f).layout = s.layout := rfl
@[simp] theorem State.modLane_eng (s : State) (l : LaneIx) (f : Lane → Lane) : (s.modLane l f).eng = s.eng := rfl
@[simp] theorem State.modLane_head (s : State) (l : LaneIx) (f : Lane → Lane) : (s.modLane l f).head = s.head := rfl
@[simp] theorem State.modLane_slice (s : State) (l : LaneIx) (f : Lane → Lane) : (s.modLane l f).slice = s.slice := rfl
@[simp] theorem State.modLane_lane (s : State) (l : LaneIx) (f : Lane → Lane) : (s.modLane l f).lane = vmod s.lane l f := rfl
@[simp] theorem State.modLane_pool (s : State) (l : LaneIx) (f : Lane → Lane) : (s.modLane l f).pool = s.pool := rfl
@[simp] theorem State.modLane_mems (s : State) (l : LaneIx) (f : Lane → Lane) : (s.modLane l f).mems = s.mems := rfl
@[simp] theorem State.modLane_wsl (s : State) (l : LaneIx) (f : Lane → Lane) : (s.modLane l f).wsl = s.wsl := rfl
@[simp] theorem State.modLane_lpe (s : State) (l : LaneIx) (f : Lane → Lane) : (s.modLane l f).lpe = s.lpe := rfl
@[simp] theorem State.modLane_trc (s : State) (l : LaneIx) (f : Lane → Lane) : (s.modLane l f).trc = s.trc := rfl
@[simp] theorem State.modLane_spn (s : State) (l : LaneIx) (f : Lane → Lane) : (s.modLane l f).spn = s.spn := rfl
@[simp] theorem State.modLane_media (s : State) (l : LaneIx) (f : Lane → Lane) : (s.modLane l f).media = s.media := rfl
@[simp] theorem State.modLane_host (s : State) (l : LaneIx) (f : Lane → Lane) : (s.modLane l f).host = s.host := rfl
@[simp] theorem State.modLane_q (s : State) (l : LaneIx) (f : Lane → Lane) : (s.modLane l f).q = s.q := rfl
@[simp] theorem State.modLane_het (s : State) (l : LaneIx) (f : Lane → Lane) : (s.modLane l f).het = s.het := rfl
@[simp] theorem State.modLane_pwr (s : State) (l : LaneIx) (f : Lane → Lane) : (s.modLane l f).pwr = s.pwr := rfl
@[simp] theorem State.modLane_mem (s : State) (l : LaneIx) (f : Lane → Lane) : (s.modLane l f).mem = s.mem := rfl
@[simp] theorem State.modLane_sec (s : State) (l : LaneIx) (f : Lane → Lane) : (s.modLane l f).sec = s.sec := rfl
@[simp] theorem State.modLane_evr (s : State) (l : LaneIx) (f : Lane → Lane) : (s.modLane l f).evr = s.evr := rfl
@[simp] theorem State.modLane_nor (s : State) (l : LaneIx) (f : Lane → Lane) : (s.modLane l f).nor = s.nor := rfl
@[simp] theorem State.modLane_fuse (s : State) (l : LaneIx) (f : Lane → Lane) : (s.modLane l f).fuse = s.fuse := rfl
@[simp] theorem State.modLane_rst (s : State) (l : LaneIx) (f : Lane → Lane) : (s.modLane l f).rst = s.rst := rfl
@[simp] theorem State.modLane_out (s : State) (l : LaneIx) (f : Lane → Lane) : (s.modLane l f).out = s.out := rfl
@[simp] theorem State.modLane_snaps (s : State) (l : LaneIx) (f : Lane → Lane) : (s.modLane l f).snaps = s.snaps := rfl
/-! `State.modSlot` -/
@[simp] theorem State.modSlot_pending (s : State) (l : LaneIx) (k : SlotIx) (f : Slot → Slot) : (s.modSlot l k f).pending = s.pending := rfl
@[simp] theorem State.modSlot_free (s : State) (l : LaneIx) (k : SlotIx) (f : Slot → Slot) : (s.modSlot l k f).free = s.free := rfl
@[simp] theorem State.modSlot_mtime (s : State) (l : LaneIx) (k : SlotIx) (f : Slot → Slot) : (s.modSlot l k f).mtime = s.mtime := rfl
@[simp] theorem State.modSlot_layout (s : State) (l : LaneIx) (k : SlotIx) (f : Slot → Slot) : (s.modSlot l k f).layout = s.layout := rfl
@[simp] theorem State.modSlot_eng (s : State) (l : LaneIx) (k : SlotIx) (f : Slot → Slot) : (s.modSlot l k f).eng = s.eng := rfl
@[simp] theorem State.modSlot_head (s : State) (l : LaneIx) (k : SlotIx) (f : Slot → Slot) : (s.modSlot l k f).head = s.head := rfl
@[simp] theorem State.modSlot_slice (s : State) (l : LaneIx) (k : SlotIx) (f : Slot → Slot) : (s.modSlot l k f).slice = s.slice := rfl
@[simp] theorem State.modSlot_lane (s : State) (l : LaneIx) (k : SlotIx) (f : Slot → Slot) : (s.modSlot l k f).lane = vmod s.lane l fun x => { x with slots := vmod x.slots k f } := rfl
@[simp] theorem State.modSlot_pool (s : State) (l : LaneIx) (k : SlotIx) (f : Slot → Slot) : (s.modSlot l k f).pool = s.pool := rfl
@[simp] theorem State.modSlot_mems (s : State) (l : LaneIx) (k : SlotIx) (f : Slot → Slot) : (s.modSlot l k f).mems = s.mems := rfl
@[simp] theorem State.modSlot_wsl (s : State) (l : LaneIx) (k : SlotIx) (f : Slot → Slot) : (s.modSlot l k f).wsl = s.wsl := rfl
@[simp] theorem State.modSlot_lpe (s : State) (l : LaneIx) (k : SlotIx) (f : Slot → Slot) : (s.modSlot l k f).lpe = s.lpe := rfl
@[simp] theorem State.modSlot_trc (s : State) (l : LaneIx) (k : SlotIx) (f : Slot → Slot) : (s.modSlot l k f).trc = s.trc := rfl
@[simp] theorem State.modSlot_spn (s : State) (l : LaneIx) (k : SlotIx) (f : Slot → Slot) : (s.modSlot l k f).spn = s.spn := rfl
@[simp] theorem State.modSlot_media (s : State) (l : LaneIx) (k : SlotIx) (f : Slot → Slot) : (s.modSlot l k f).media = s.media := rfl
@[simp] theorem State.modSlot_host (s : State) (l : LaneIx) (k : SlotIx) (f : Slot → Slot) : (s.modSlot l k f).host = s.host := rfl
@[simp] theorem State.modSlot_q (s : State) (l : LaneIx) (k : SlotIx) (f : Slot → Slot) : (s.modSlot l k f).q = s.q := rfl
@[simp] theorem State.modSlot_het (s : State) (l : LaneIx) (k : SlotIx) (f : Slot → Slot) : (s.modSlot l k f).het = s.het := rfl
@[simp] theorem State.modSlot_pwr (s : State) (l : LaneIx) (k : SlotIx) (f : Slot → Slot) : (s.modSlot l k f).pwr = s.pwr := rfl
@[simp] theorem State.modSlot_mem (s : State) (l : LaneIx) (k : SlotIx) (f : Slot → Slot) : (s.modSlot l k f).mem = s.mem := rfl
@[simp] theorem State.modSlot_sec (s : State) (l : LaneIx) (k : SlotIx) (f : Slot → Slot) : (s.modSlot l k f).sec = s.sec := rfl
@[simp] theorem State.modSlot_evr (s : State) (l : LaneIx) (k : SlotIx) (f : Slot → Slot) : (s.modSlot l k f).evr = s.evr := rfl
@[simp] theorem State.modSlot_nor (s : State) (l : LaneIx) (k : SlotIx) (f : Slot → Slot) : (s.modSlot l k f).nor = s.nor := rfl
@[simp] theorem State.modSlot_fuse (s : State) (l : LaneIx) (k : SlotIx) (f : Slot → Slot) : (s.modSlot l k f).fuse = s.fuse := rfl
@[simp] theorem State.modSlot_rst (s : State) (l : LaneIx) (k : SlotIx) (f : Slot → Slot) : (s.modSlot l k f).rst = s.rst := rfl
@[simp] theorem State.modSlot_out (s : State) (l : LaneIx) (k : SlotIx) (f : Slot → Slot) : (s.modSlot l k f).out = s.out := rfl
@[simp] theorem State.modSlot_snaps (s : State) (l : LaneIx) (k : SlotIx) (f : Slot → Slot) : (s.modSlot l k f).snaps = s.snaps := rfl
/-! `State.modPool` -/
@[simp] theorem State.modPool_pending (s : State) (f : Pool → Pool) : (s.modPool f).pending = s.pending := rfl
@[simp] theorem State.modPool_free (s : State) (f : Pool → Pool) : (s.modPool f).free = s.free := rfl
@[simp] theorem State.modPool_mtime (s : State) (f : Pool → Pool) : (s.modPool f).mtime = s.mtime := rfl
@[simp] theorem State.modPool_layout (s : State) (f : Pool → Pool) : (s.modPool f).layout = s.layout := rfl
@[simp] theorem State.modPool_eng (s : State) (f : Pool → Pool) : (s.modPool f).eng = s.eng := rfl
@[simp] theorem State.modPool_head (s : State) (f : Pool → Pool) : (s.modPool f).head = s.head := rfl
@[simp] theorem State.modPool_slice (s : State) (f : Pool → Pool) : (s.modPool f).slice = s.slice := rfl
@[simp] theorem State.modPool_lane (s : State) (f : Pool → Pool) : (s.modPool f).lane = s.lane := rfl
@[simp] theorem State.modPool_pool (s : State) (f : Pool → Pool) : (s.modPool f).pool = f s.pool := rfl
@[simp] theorem State.modPool_mems (s : State) (f : Pool → Pool) : (s.modPool f).mems = s.mems := rfl
@[simp] theorem State.modPool_wsl (s : State) (f : Pool → Pool) : (s.modPool f).wsl = s.wsl := rfl
@[simp] theorem State.modPool_lpe (s : State) (f : Pool → Pool) : (s.modPool f).lpe = s.lpe := rfl
@[simp] theorem State.modPool_trc (s : State) (f : Pool → Pool) : (s.modPool f).trc = s.trc := rfl
@[simp] theorem State.modPool_spn (s : State) (f : Pool → Pool) : (s.modPool f).spn = s.spn := rfl
@[simp] theorem State.modPool_media (s : State) (f : Pool → Pool) : (s.modPool f).media = s.media := rfl
@[simp] theorem State.modPool_host (s : State) (f : Pool → Pool) : (s.modPool f).host = s.host := rfl
@[simp] theorem State.modPool_q (s : State) (f : Pool → Pool) : (s.modPool f).q = s.q := rfl
@[simp] theorem State.modPool_het (s : State) (f : Pool → Pool) : (s.modPool f).het = s.het := rfl
@[simp] theorem State.modPool_pwr (s : State) (f : Pool → Pool) : (s.modPool f).pwr = s.pwr := rfl
@[simp] theorem State.modPool_mem (s : State) (f : Pool → Pool) : (s.modPool f).mem = s.mem := rfl
@[simp] theorem State.modPool_sec (s : State) (f : Pool → Pool) : (s.modPool f).sec = s.sec := rfl
@[simp] theorem State.modPool_evr (s : State) (f : Pool → Pool) : (s.modPool f).evr = s.evr := rfl
@[simp] theorem State.modPool_nor (s : State) (f : Pool → Pool) : (s.modPool f).nor = s.nor := rfl
@[simp] theorem State.modPool_fuse (s : State) (f : Pool → Pool) : (s.modPool f).fuse = s.fuse := rfl
@[simp] theorem State.modPool_rst (s : State) (f : Pool → Pool) : (s.modPool f).rst = s.rst := rfl
@[simp] theorem State.modPool_out (s : State) (f : Pool → Pool) : (s.modPool f).out = s.out := rfl
@[simp] theorem State.modPool_snaps (s : State) (f : Pool → Pool) : (s.modPool f).snaps = s.snaps := rfl
/-! `State.modWsl` -/
@[simp] theorem State.modWsl_pending (s : State) (f : WriterSlots → WriterSlots) : (s.modWsl f).pending = s.pending := rfl
@[simp] theorem State.modWsl_free (s : State) (f : WriterSlots → WriterSlots) : (s.modWsl f).free = s.free := rfl
@[simp] theorem State.modWsl_mtime (s : State) (f : WriterSlots → WriterSlots) : (s.modWsl f).mtime = s.mtime := rfl
@[simp] theorem State.modWsl_layout (s : State) (f : WriterSlots → WriterSlots) : (s.modWsl f).layout = s.layout := rfl
@[simp] theorem State.modWsl_eng (s : State) (f : WriterSlots → WriterSlots) : (s.modWsl f).eng = s.eng := rfl
@[simp] theorem State.modWsl_head (s : State) (f : WriterSlots → WriterSlots) : (s.modWsl f).head = s.head := rfl
@[simp] theorem State.modWsl_slice (s : State) (f : WriterSlots → WriterSlots) : (s.modWsl f).slice = s.slice := rfl
@[simp] theorem State.modWsl_lane (s : State) (f : WriterSlots → WriterSlots) : (s.modWsl f).lane = s.lane := rfl
@[simp] theorem State.modWsl_pool (s : State) (f : WriterSlots → WriterSlots) : (s.modWsl f).pool = s.pool := rfl
@[simp] theorem State.modWsl_mems (s : State) (f : WriterSlots → WriterSlots) : (s.modWsl f).mems = s.mems := rfl
@[simp] theorem State.modWsl_wsl (s : State) (f : WriterSlots → WriterSlots) : (s.modWsl f).wsl = f s.wsl := rfl
@[simp] theorem State.modWsl_lpe (s : State) (f : WriterSlots → WriterSlots) : (s.modWsl f).lpe = s.lpe := rfl
@[simp] theorem State.modWsl_trc (s : State) (f : WriterSlots → WriterSlots) : (s.modWsl f).trc = s.trc := rfl
@[simp] theorem State.modWsl_spn (s : State) (f : WriterSlots → WriterSlots) : (s.modWsl f).spn = s.spn := rfl
@[simp] theorem State.modWsl_media (s : State) (f : WriterSlots → WriterSlots) : (s.modWsl f).media = s.media := rfl
@[simp] theorem State.modWsl_host (s : State) (f : WriterSlots → WriterSlots) : (s.modWsl f).host = s.host := rfl
@[simp] theorem State.modWsl_q (s : State) (f : WriterSlots → WriterSlots) : (s.modWsl f).q = s.q := rfl
@[simp] theorem State.modWsl_het (s : State) (f : WriterSlots → WriterSlots) : (s.modWsl f).het = s.het := rfl
@[simp] theorem State.modWsl_pwr (s : State) (f : WriterSlots → WriterSlots) : (s.modWsl f).pwr = s.pwr := rfl
@[simp] theorem State.modWsl_mem (s : State) (f : WriterSlots → WriterSlots) : (s.modWsl f).mem = s.mem := rfl
@[simp] theorem State.modWsl_sec (s : State) (f : WriterSlots → WriterSlots) : (s.modWsl f).sec = s.sec := rfl
@[simp] theorem State.modWsl_evr (s : State) (f : WriterSlots → WriterSlots) : (s.modWsl f).evr = s.evr := rfl
@[simp] theorem State.modWsl_nor (s : State) (f : WriterSlots → WriterSlots) : (s.modWsl f).nor = s.nor := rfl
@[simp] theorem State.modWsl_fuse (s : State) (f : WriterSlots → WriterSlots) : (s.modWsl f).fuse = s.fuse := rfl
@[simp] theorem State.modWsl_rst (s : State) (f : WriterSlots → WriterSlots) : (s.modWsl f).rst = s.rst := rfl
@[simp] theorem State.modWsl_out (s : State) (f : WriterSlots → WriterSlots) : (s.modWsl f).out = s.out := rfl
@[simp] theorem State.modWsl_snaps (s : State) (f : WriterSlots → WriterSlots) : (s.modWsl f).snaps = s.snaps := rfl
/-! `State.modLpe` -/
@[simp] theorem State.modLpe_pending (s : State) (f : LoopArray → LoopArray) : (s.modLpe f).pending = s.pending := rfl
@[simp] theorem State.modLpe_free (s : State) (f : LoopArray → LoopArray) : (s.modLpe f).free = s.free := rfl
@[simp] theorem State.modLpe_mtime (s : State) (f : LoopArray → LoopArray) : (s.modLpe f).mtime = s.mtime := rfl
@[simp] theorem State.modLpe_layout (s : State) (f : LoopArray → LoopArray) : (s.modLpe f).layout = s.layout := rfl
@[simp] theorem State.modLpe_eng (s : State) (f : LoopArray → LoopArray) : (s.modLpe f).eng = s.eng := rfl
@[simp] theorem State.modLpe_head (s : State) (f : LoopArray → LoopArray) : (s.modLpe f).head = s.head := rfl
@[simp] theorem State.modLpe_slice (s : State) (f : LoopArray → LoopArray) : (s.modLpe f).slice = s.slice := rfl
@[simp] theorem State.modLpe_lane (s : State) (f : LoopArray → LoopArray) : (s.modLpe f).lane = s.lane := rfl
@[simp] theorem State.modLpe_pool (s : State) (f : LoopArray → LoopArray) : (s.modLpe f).pool = s.pool := rfl
@[simp] theorem State.modLpe_mems (s : State) (f : LoopArray → LoopArray) : (s.modLpe f).mems = s.mems := rfl
@[simp] theorem State.modLpe_wsl (s : State) (f : LoopArray → LoopArray) : (s.modLpe f).wsl = s.wsl := rfl
@[simp] theorem State.modLpe_lpe (s : State) (f : LoopArray → LoopArray) : (s.modLpe f).lpe = f s.lpe := rfl
@[simp] theorem State.modLpe_trc (s : State) (f : LoopArray → LoopArray) : (s.modLpe f).trc = s.trc := rfl
@[simp] theorem State.modLpe_spn (s : State) (f : LoopArray → LoopArray) : (s.modLpe f).spn = s.spn := rfl
@[simp] theorem State.modLpe_media (s : State) (f : LoopArray → LoopArray) : (s.modLpe f).media = s.media := rfl
@[simp] theorem State.modLpe_host (s : State) (f : LoopArray → LoopArray) : (s.modLpe f).host = s.host := rfl
@[simp] theorem State.modLpe_q (s : State) (f : LoopArray → LoopArray) : (s.modLpe f).q = s.q := rfl
@[simp] theorem State.modLpe_het (s : State) (f : LoopArray → LoopArray) : (s.modLpe f).het = s.het := rfl
@[simp] theorem State.modLpe_pwr (s : State) (f : LoopArray → LoopArray) : (s.modLpe f).pwr = s.pwr := rfl
@[simp] theorem State.modLpe_mem (s : State) (f : LoopArray → LoopArray) : (s.modLpe f).mem = s.mem := rfl
@[simp] theorem State.modLpe_sec (s : State) (f : LoopArray → LoopArray) : (s.modLpe f).sec = s.sec := rfl
@[simp] theorem State.modLpe_evr (s : State) (f : LoopArray → LoopArray) : (s.modLpe f).evr = s.evr := rfl
@[simp] theorem State.modLpe_nor (s : State) (f : LoopArray → LoopArray) : (s.modLpe f).nor = s.nor := rfl
@[simp] theorem State.modLpe_fuse (s : State) (f : LoopArray → LoopArray) : (s.modLpe f).fuse = s.fuse := rfl
@[simp] theorem State.modLpe_rst (s : State) (f : LoopArray → LoopArray) : (s.modLpe f).rst = s.rst := rfl
@[simp] theorem State.modLpe_out (s : State) (f : LoopArray → LoopArray) : (s.modLpe f).out = s.out := rfl
@[simp] theorem State.modLpe_snaps (s : State) (f : LoopArray → LoopArray) : (s.modLpe f).snaps = s.snaps := rfl
/-! `State.modLoop` -/
@[simp] theorem State.modLoop_pending (s : State) (n : LoopIx) (f : LoopSlot → LoopSlot) : (s.modLoop n f).pending = s.pending := rfl
@[simp] theorem State.modLoop_free (s : State) (n : LoopIx) (f : LoopSlot → LoopSlot) : (s.modLoop n f).free = s.free := rfl
@[simp] theorem State.modLoop_mtime (s : State) (n : LoopIx) (f : LoopSlot → LoopSlot) : (s.modLoop n f).mtime = s.mtime := rfl
@[simp] theorem State.modLoop_layout (s : State) (n : LoopIx) (f : LoopSlot → LoopSlot) : (s.modLoop n f).layout = s.layout := rfl
@[simp] theorem State.modLoop_eng (s : State) (n : LoopIx) (f : LoopSlot → LoopSlot) : (s.modLoop n f).eng = s.eng := rfl
@[simp] theorem State.modLoop_head (s : State) (n : LoopIx) (f : LoopSlot → LoopSlot) : (s.modLoop n f).head = s.head := rfl
@[simp] theorem State.modLoop_slice (s : State) (n : LoopIx) (f : LoopSlot → LoopSlot) : (s.modLoop n f).slice = s.slice := rfl
@[simp] theorem State.modLoop_lane (s : State) (n : LoopIx) (f : LoopSlot → LoopSlot) : (s.modLoop n f).lane = s.lane := rfl
@[simp] theorem State.modLoop_pool (s : State) (n : LoopIx) (f : LoopSlot → LoopSlot) : (s.modLoop n f).pool = s.pool := rfl
@[simp] theorem State.modLoop_mems (s : State) (n : LoopIx) (f : LoopSlot → LoopSlot) : (s.modLoop n f).mems = s.mems := rfl
@[simp] theorem State.modLoop_wsl (s : State) (n : LoopIx) (f : LoopSlot → LoopSlot) : (s.modLoop n f).wsl = s.wsl := rfl
@[simp] theorem State.modLoop_lpe (s : State) (n : LoopIx) (f : LoopSlot → LoopSlot) : (s.modLoop n f).lpe = { s.lpe with slots := vmod s.lpe.slots n f } := rfl
@[simp] theorem State.modLoop_trc (s : State) (n : LoopIx) (f : LoopSlot → LoopSlot) : (s.modLoop n f).trc = s.trc := rfl
@[simp] theorem State.modLoop_spn (s : State) (n : LoopIx) (f : LoopSlot → LoopSlot) : (s.modLoop n f).spn = s.spn := rfl
@[simp] theorem State.modLoop_media (s : State) (n : LoopIx) (f : LoopSlot → LoopSlot) : (s.modLoop n f).media = s.media := rfl
@[simp] theorem State.modLoop_host (s : State) (n : LoopIx) (f : LoopSlot → LoopSlot) : (s.modLoop n f).host = s.host := rfl
@[simp] theorem State.modLoop_q (s : State) (n : LoopIx) (f : LoopSlot → LoopSlot) : (s.modLoop n f).q = s.q := rfl
@[simp] theorem State.modLoop_het (s : State) (n : LoopIx) (f : LoopSlot → LoopSlot) : (s.modLoop n f).het = s.het := rfl
@[simp] theorem State.modLoop_pwr (s : State) (n : LoopIx) (f : LoopSlot → LoopSlot) : (s.modLoop n f).pwr = s.pwr := rfl
@[simp] theorem State.modLoop_mem (s : State) (n : LoopIx) (f : LoopSlot → LoopSlot) : (s.modLoop n f).mem = s.mem := rfl
@[simp] theorem State.modLoop_sec (s : State) (n : LoopIx) (f : LoopSlot → LoopSlot) : (s.modLoop n f).sec = s.sec := rfl
@[simp] theorem State.modLoop_evr (s : State) (n : LoopIx) (f : LoopSlot → LoopSlot) : (s.modLoop n f).evr = s.evr := rfl
@[simp] theorem State.modLoop_nor (s : State) (n : LoopIx) (f : LoopSlot → LoopSlot) : (s.modLoop n f).nor = s.nor := rfl
@[simp] theorem State.modLoop_fuse (s : State) (n : LoopIx) (f : LoopSlot → LoopSlot) : (s.modLoop n f).fuse = s.fuse := rfl
@[simp] theorem State.modLoop_rst (s : State) (n : LoopIx) (f : LoopSlot → LoopSlot) : (s.modLoop n f).rst = s.rst := rfl
@[simp] theorem State.modLoop_out (s : State) (n : LoopIx) (f : LoopSlot → LoopSlot) : (s.modLoop n f).out = s.out := rfl
@[simp] theorem State.modLoop_snaps (s : State) (n : LoopIx) (f : LoopSlot → LoopSlot) : (s.modLoop n f).snaps = s.snaps := rfl
/-! `State.modTrc` -/
@[simp] theorem State.modTrc_pending (s : State) (f : Trace → Trace) : (s.modTrc f).pending = s.pending := rfl
@[simp] theorem State.modTrc_free (s : State) (f : Trace → Trace) : (s.modTrc f).free = s.free := rfl
@[simp] theorem State.modTrc_mtime (s : State) (f : Trace → Trace) : (s.modTrc f).mtime = s.mtime := rfl
@[simp] theorem State.modTrc_layout (s : State) (f : Trace → Trace) : (s.modTrc f).layout = s.layout := rfl
@[simp] theorem State.modTrc_eng (s : State) (f : Trace → Trace) : (s.modTrc f).eng = s.eng := rfl
@[simp] theorem State.modTrc_head (s : State) (f : Trace → Trace) : (s.modTrc f).head = s.head := rfl
@[simp] theorem State.modTrc_slice (s : State) (f : Trace → Trace) : (s.modTrc f).slice = s.slice := rfl
@[simp] theorem State.modTrc_lane (s : State) (f : Trace → Trace) : (s.modTrc f).lane = s.lane := rfl
@[simp] theorem State.modTrc_pool (s : State) (f : Trace → Trace) : (s.modTrc f).pool = s.pool := rfl
@[simp] theorem State.modTrc_mems (s : State) (f : Trace → Trace) : (s.modTrc f).mems = s.mems := rfl
@[simp] theorem State.modTrc_wsl (s : State) (f : Trace → Trace) : (s.modTrc f).wsl = s.wsl := rfl
@[simp] theorem State.modTrc_lpe (s : State) (f : Trace → Trace) : (s.modTrc f).lpe = s.lpe := rfl
@[simp] theorem State.modTrc_trc (s : State) (f : Trace → Trace) : (s.modTrc f).trc = f s.trc := rfl
@[simp] theorem State.modTrc_spn (s : State) (f : Trace → Trace) : (s.modTrc f).spn = s.spn := rfl
@[simp] theorem State.modTrc_media (s : State) (f : Trace → Trace) : (s.modTrc f).media = s.media := rfl
@[simp] theorem State.modTrc_host (s : State) (f : Trace → Trace) : (s.modTrc f).host = s.host := rfl
@[simp] theorem State.modTrc_q (s : State) (f : Trace → Trace) : (s.modTrc f).q = s.q := rfl
@[simp] theorem State.modTrc_het (s : State) (f : Trace → Trace) : (s.modTrc f).het = s.het := rfl
@[simp] theorem State.modTrc_pwr (s : State) (f : Trace → Trace) : (s.modTrc f).pwr = s.pwr := rfl
@[simp] theorem State.modTrc_mem (s : State) (f : Trace → Trace) : (s.modTrc f).mem = s.mem := rfl
@[simp] theorem State.modTrc_sec (s : State) (f : Trace → Trace) : (s.modTrc f).sec = s.sec := rfl
@[simp] theorem State.modTrc_evr (s : State) (f : Trace → Trace) : (s.modTrc f).evr = s.evr := rfl
@[simp] theorem State.modTrc_nor (s : State) (f : Trace → Trace) : (s.modTrc f).nor = s.nor := rfl
@[simp] theorem State.modTrc_fuse (s : State) (f : Trace → Trace) : (s.modTrc f).fuse = s.fuse := rfl
@[simp] theorem State.modTrc_rst (s : State) (f : Trace → Trace) : (s.modTrc f).rst = s.rst := rfl
@[simp] theorem State.modTrc_out (s : State) (f : Trace → Trace) : (s.modTrc f).out = s.out := rfl
@[simp] theorem State.modTrc_snaps (s : State) (f : Trace → Trace) : (s.modTrc f).snaps = s.snaps := rfl
/-! `State.modSpn` -/
@[simp] theorem State.modSpn_pending (s : State) (f : Spindle → Spindle) : (s.modSpn f).pending = s.pending := rfl
@[simp] theorem State.modSpn_free (s : State) (f : Spindle → Spindle) : (s.modSpn f).free = s.free := rfl
@[simp] theorem State.modSpn_mtime (s : State) (f : Spindle → Spindle) : (s.modSpn f).mtime = s.mtime := rfl
@[simp] theorem State.modSpn_layout (s : State) (f : Spindle → Spindle) : (s.modSpn f).layout = s.layout := rfl
@[simp] theorem State.modSpn_eng (s : State) (f : Spindle → Spindle) : (s.modSpn f).eng = s.eng := rfl
@[simp] theorem State.modSpn_head (s : State) (f : Spindle → Spindle) : (s.modSpn f).head = s.head := rfl
@[simp] theorem State.modSpn_slice (s : State) (f : Spindle → Spindle) : (s.modSpn f).slice = s.slice := rfl
@[simp] theorem State.modSpn_lane (s : State) (f : Spindle → Spindle) : (s.modSpn f).lane = s.lane := rfl
@[simp] theorem State.modSpn_pool (s : State) (f : Spindle → Spindle) : (s.modSpn f).pool = s.pool := rfl
@[simp] theorem State.modSpn_mems (s : State) (f : Spindle → Spindle) : (s.modSpn f).mems = s.mems := rfl
@[simp] theorem State.modSpn_wsl (s : State) (f : Spindle → Spindle) : (s.modSpn f).wsl = s.wsl := rfl
@[simp] theorem State.modSpn_lpe (s : State) (f : Spindle → Spindle) : (s.modSpn f).lpe = s.lpe := rfl
@[simp] theorem State.modSpn_trc (s : State) (f : Spindle → Spindle) : (s.modSpn f).trc = s.trc := rfl
@[simp] theorem State.modSpn_spn (s : State) (f : Spindle → Spindle) : (s.modSpn f).spn = f s.spn := rfl
@[simp] theorem State.modSpn_media (s : State) (f : Spindle → Spindle) : (s.modSpn f).media = s.media := rfl
@[simp] theorem State.modSpn_host (s : State) (f : Spindle → Spindle) : (s.modSpn f).host = s.host := rfl
@[simp] theorem State.modSpn_q (s : State) (f : Spindle → Spindle) : (s.modSpn f).q = s.q := rfl
@[simp] theorem State.modSpn_het (s : State) (f : Spindle → Spindle) : (s.modSpn f).het = s.het := rfl
@[simp] theorem State.modSpn_pwr (s : State) (f : Spindle → Spindle) : (s.modSpn f).pwr = s.pwr := rfl
@[simp] theorem State.modSpn_mem (s : State) (f : Spindle → Spindle) : (s.modSpn f).mem = s.mem := rfl
@[simp] theorem State.modSpn_sec (s : State) (f : Spindle → Spindle) : (s.modSpn f).sec = s.sec := rfl
@[simp] theorem State.modSpn_evr (s : State) (f : Spindle → Spindle) : (s.modSpn f).evr = s.evr := rfl
@[simp] theorem State.modSpn_nor (s : State) (f : Spindle → Spindle) : (s.modSpn f).nor = s.nor := rfl
@[simp] theorem State.modSpn_fuse (s : State) (f : Spindle → Spindle) : (s.modSpn f).fuse = s.fuse := rfl
@[simp] theorem State.modSpn_rst (s : State) (f : Spindle → Spindle) : (s.modSpn f).rst = s.rst := rfl
@[simp] theorem State.modSpn_out (s : State) (f : Spindle → Spindle) : (s.modSpn f).out = s.out := rfl
@[simp] theorem State.modSpn_snaps (s : State) (f : Spindle → Spindle) : (s.modSpn f).snaps = s.snaps := rfl
/-! `State.modMedia` -/
@[simp] theorem State.modMedia_pending (s : State) (f : MediaMap → MediaMap) : (s.modMedia f).pending = s.pending := rfl
@[simp] theorem State.modMedia_free (s : State) (f : MediaMap → MediaMap) : (s.modMedia f).free = s.free := rfl
@[simp] theorem State.modMedia_mtime (s : State) (f : MediaMap → MediaMap) : (s.modMedia f).mtime = s.mtime := rfl
@[simp] theorem State.modMedia_layout (s : State) (f : MediaMap → MediaMap) : (s.modMedia f).layout = s.layout := rfl
@[simp] theorem State.modMedia_eng (s : State) (f : MediaMap → MediaMap) : (s.modMedia f).eng = s.eng := rfl
@[simp] theorem State.modMedia_head (s : State) (f : MediaMap → MediaMap) : (s.modMedia f).head = s.head := rfl
@[simp] theorem State.modMedia_slice (s : State) (f : MediaMap → MediaMap) : (s.modMedia f).slice = s.slice := rfl
@[simp] theorem State.modMedia_lane (s : State) (f : MediaMap → MediaMap) : (s.modMedia f).lane = s.lane := rfl
@[simp] theorem State.modMedia_pool (s : State) (f : MediaMap → MediaMap) : (s.modMedia f).pool = s.pool := rfl
@[simp] theorem State.modMedia_mems (s : State) (f : MediaMap → MediaMap) : (s.modMedia f).mems = s.mems := rfl
@[simp] theorem State.modMedia_wsl (s : State) (f : MediaMap → MediaMap) : (s.modMedia f).wsl = s.wsl := rfl
@[simp] theorem State.modMedia_lpe (s : State) (f : MediaMap → MediaMap) : (s.modMedia f).lpe = s.lpe := rfl
@[simp] theorem State.modMedia_trc (s : State) (f : MediaMap → MediaMap) : (s.modMedia f).trc = s.trc := rfl
@[simp] theorem State.modMedia_spn (s : State) (f : MediaMap → MediaMap) : (s.modMedia f).spn = s.spn := rfl
@[simp] theorem State.modMedia_media (s : State) (f : MediaMap → MediaMap) : (s.modMedia f).media = f s.media := rfl
@[simp] theorem State.modMedia_host (s : State) (f : MediaMap → MediaMap) : (s.modMedia f).host = s.host := rfl
@[simp] theorem State.modMedia_q (s : State) (f : MediaMap → MediaMap) : (s.modMedia f).q = s.q := rfl
@[simp] theorem State.modMedia_het (s : State) (f : MediaMap → MediaMap) : (s.modMedia f).het = s.het := rfl
@[simp] theorem State.modMedia_pwr (s : State) (f : MediaMap → MediaMap) : (s.modMedia f).pwr = s.pwr := rfl
@[simp] theorem State.modMedia_mem (s : State) (f : MediaMap → MediaMap) : (s.modMedia f).mem = s.mem := rfl
@[simp] theorem State.modMedia_sec (s : State) (f : MediaMap → MediaMap) : (s.modMedia f).sec = s.sec := rfl
@[simp] theorem State.modMedia_evr (s : State) (f : MediaMap → MediaMap) : (s.modMedia f).evr = s.evr := rfl
@[simp] theorem State.modMedia_nor (s : State) (f : MediaMap → MediaMap) : (s.modMedia f).nor = s.nor := rfl
@[simp] theorem State.modMedia_fuse (s : State) (f : MediaMap → MediaMap) : (s.modMedia f).fuse = s.fuse := rfl
@[simp] theorem State.modMedia_rst (s : State) (f : MediaMap → MediaMap) : (s.modMedia f).rst = s.rst := rfl
@[simp] theorem State.modMedia_out (s : State) (f : MediaMap → MediaMap) : (s.modMedia f).out = s.out := rfl
@[simp] theorem State.modMedia_snaps (s : State) (f : MediaMap → MediaMap) : (s.modMedia f).snaps = s.snaps := rfl
/-! `State.modHost` -/
@[simp] theorem State.modHost_pending (s : State) (f : HostLink → HostLink) : (s.modHost f).pending = s.pending := rfl
@[simp] theorem State.modHost_free (s : State) (f : HostLink → HostLink) : (s.modHost f).free = s.free := rfl
@[simp] theorem State.modHost_mtime (s : State) (f : HostLink → HostLink) : (s.modHost f).mtime = s.mtime := rfl
@[simp] theorem State.modHost_layout (s : State) (f : HostLink → HostLink) : (s.modHost f).layout = s.layout := rfl
@[simp] theorem State.modHost_eng (s : State) (f : HostLink → HostLink) : (s.modHost f).eng = s.eng := rfl
@[simp] theorem State.modHost_head (s : State) (f : HostLink → HostLink) : (s.modHost f).head = s.head := rfl
@[simp] theorem State.modHost_slice (s : State) (f : HostLink → HostLink) : (s.modHost f).slice = s.slice := rfl
@[simp] theorem State.modHost_lane (s : State) (f : HostLink → HostLink) : (s.modHost f).lane = s.lane := rfl
@[simp] theorem State.modHost_pool (s : State) (f : HostLink → HostLink) : (s.modHost f).pool = s.pool := rfl
@[simp] theorem State.modHost_mems (s : State) (f : HostLink → HostLink) : (s.modHost f).mems = s.mems := rfl
@[simp] theorem State.modHost_wsl (s : State) (f : HostLink → HostLink) : (s.modHost f).wsl = s.wsl := rfl
@[simp] theorem State.modHost_lpe (s : State) (f : HostLink → HostLink) : (s.modHost f).lpe = s.lpe := rfl
@[simp] theorem State.modHost_trc (s : State) (f : HostLink → HostLink) : (s.modHost f).trc = s.trc := rfl
@[simp] theorem State.modHost_spn (s : State) (f : HostLink → HostLink) : (s.modHost f).spn = s.spn := rfl
@[simp] theorem State.modHost_media (s : State) (f : HostLink → HostLink) : (s.modHost f).media = s.media := rfl
@[simp] theorem State.modHost_host (s : State) (f : HostLink → HostLink) : (s.modHost f).host = f s.host := rfl
@[simp] theorem State.modHost_q (s : State) (f : HostLink → HostLink) : (s.modHost f).q = s.q := rfl
@[simp] theorem State.modHost_het (s : State) (f : HostLink → HostLink) : (s.modHost f).het = s.het := rfl
@[simp] theorem State.modHost_pwr (s : State) (f : HostLink → HostLink) : (s.modHost f).pwr = s.pwr := rfl
@[simp] theorem State.modHost_mem (s : State) (f : HostLink → HostLink) : (s.modHost f).mem = s.mem := rfl
@[simp] theorem State.modHost_sec (s : State) (f : HostLink → HostLink) : (s.modHost f).sec = s.sec := rfl
@[simp] theorem State.modHost_evr (s : State) (f : HostLink → HostLink) : (s.modHost f).evr = s.evr := rfl
@[simp] theorem State.modHost_nor (s : State) (f : HostLink → HostLink) : (s.modHost f).nor = s.nor := rfl
@[simp] theorem State.modHost_fuse (s : State) (f : HostLink → HostLink) : (s.modHost f).fuse = s.fuse := rfl
@[simp] theorem State.modHost_rst (s : State) (f : HostLink → HostLink) : (s.modHost f).rst = s.rst := rfl
@[simp] theorem State.modHost_out (s : State) (f : HostLink → HostLink) : (s.modHost f).out = s.out := rfl
@[simp] theorem State.modHost_snaps (s : State) (f : HostLink → HostLink) : (s.modHost f).snaps = s.snaps := rfl
/-! `State.modFn` -/
@[simp] theorem State.modFn_pending (s : State) (n : Fn) (f : FnState → FnState) : (s.modFn n f).pending = s.pending := rfl
@[simp] theorem State.modFn_free (s : State) (n : Fn) (f : FnState → FnState) : (s.modFn n f).free = s.free := rfl
@[simp] theorem State.modFn_mtime (s : State) (n : Fn) (f : FnState → FnState) : (s.modFn n f).mtime = s.mtime := rfl
@[simp] theorem State.modFn_layout (s : State) (n : Fn) (f : FnState → FnState) : (s.modFn n f).layout = s.layout := rfl
@[simp] theorem State.modFn_eng (s : State) (n : Fn) (f : FnState → FnState) : (s.modFn n f).eng = s.eng := rfl
@[simp] theorem State.modFn_head (s : State) (n : Fn) (f : FnState → FnState) : (s.modFn n f).head = s.head := rfl
@[simp] theorem State.modFn_slice (s : State) (n : Fn) (f : FnState → FnState) : (s.modFn n f).slice = s.slice := rfl
@[simp] theorem State.modFn_lane (s : State) (n : Fn) (f : FnState → FnState) : (s.modFn n f).lane = s.lane := rfl
@[simp] theorem State.modFn_pool (s : State) (n : Fn) (f : FnState → FnState) : (s.modFn n f).pool = s.pool := rfl
@[simp] theorem State.modFn_mems (s : State) (n : Fn) (f : FnState → FnState) : (s.modFn n f).mems = s.mems := rfl
@[simp] theorem State.modFn_wsl (s : State) (n : Fn) (f : FnState → FnState) : (s.modFn n f).wsl = s.wsl := rfl
@[simp] theorem State.modFn_lpe (s : State) (n : Fn) (f : FnState → FnState) : (s.modFn n f).lpe = s.lpe := rfl
@[simp] theorem State.modFn_trc (s : State) (n : Fn) (f : FnState → FnState) : (s.modFn n f).trc = s.trc := rfl
@[simp] theorem State.modFn_spn (s : State) (n : Fn) (f : FnState → FnState) : (s.modFn n f).spn = s.spn := rfl
@[simp] theorem State.modFn_media (s : State) (n : Fn) (f : FnState → FnState) : (s.modFn n f).media = s.media := rfl
@[simp] theorem State.modFn_host (s : State) (n : Fn) (f : FnState → FnState) : (s.modFn n f).host = { s.host with fns := vmod s.host.fns n f } := rfl
@[simp] theorem State.modFn_q (s : State) (n : Fn) (f : FnState → FnState) : (s.modFn n f).q = s.q := rfl
@[simp] theorem State.modFn_het (s : State) (n : Fn) (f : FnState → FnState) : (s.modFn n f).het = s.het := rfl
@[simp] theorem State.modFn_pwr (s : State) (n : Fn) (f : FnState → FnState) : (s.modFn n f).pwr = s.pwr := rfl
@[simp] theorem State.modFn_mem (s : State) (n : Fn) (f : FnState → FnState) : (s.modFn n f).mem = s.mem := rfl
@[simp] theorem State.modFn_sec (s : State) (n : Fn) (f : FnState → FnState) : (s.modFn n f).sec = s.sec := rfl
@[simp] theorem State.modFn_evr (s : State) (n : Fn) (f : FnState → FnState) : (s.modFn n f).evr = s.evr := rfl
@[simp] theorem State.modFn_nor (s : State) (n : Fn) (f : FnState → FnState) : (s.modFn n f).nor = s.nor := rfl
@[simp] theorem State.modFn_fuse (s : State) (n : Fn) (f : FnState → FnState) : (s.modFn n f).fuse = s.fuse := rfl
@[simp] theorem State.modFn_rst (s : State) (n : Fn) (f : FnState → FnState) : (s.modFn n f).rst = s.rst := rfl
@[simp] theorem State.modFn_out (s : State) (n : Fn) (f : FnState → FnState) : (s.modFn n f).out = s.out := rfl
@[simp] theorem State.modFn_snaps (s : State) (n : Fn) (f : FnState → FnState) : (s.modFn n f).snaps = s.snaps := rfl
/-! `State.modQ` -/
@[simp] theorem State.modQ_pending (s : State) (f : Queues → Queues) : (s.modQ f).pending = s.pending := rfl
@[simp] theorem State.modQ_free (s : State) (f : Queues → Queues) : (s.modQ f).free = s.free := rfl
@[simp] theorem State.modQ_mtime (s : State) (f : Queues → Queues) : (s.modQ f).mtime = s.mtime := rfl
@[simp] theorem State.modQ_layout (s : State) (f : Queues → Queues) : (s.modQ f).layout = s.layout := rfl
@[simp] theorem State.modQ_eng (s : State) (f : Queues → Queues) : (s.modQ f).eng = s.eng := rfl
@[simp] theorem State.modQ_head (s : State) (f : Queues → Queues) : (s.modQ f).head = s.head := rfl
@[simp] theorem State.modQ_slice (s : State) (f : Queues → Queues) : (s.modQ f).slice = s.slice := rfl
@[simp] theorem State.modQ_lane (s : State) (f : Queues → Queues) : (s.modQ f).lane = s.lane := rfl
@[simp] theorem State.modQ_pool (s : State) (f : Queues → Queues) : (s.modQ f).pool = s.pool := rfl
@[simp] theorem State.modQ_mems (s : State) (f : Queues → Queues) : (s.modQ f).mems = s.mems := rfl
@[simp] theorem State.modQ_wsl (s : State) (f : Queues → Queues) : (s.modQ f).wsl = s.wsl := rfl
@[simp] theorem State.modQ_lpe (s : State) (f : Queues → Queues) : (s.modQ f).lpe = s.lpe := rfl
@[simp] theorem State.modQ_trc (s : State) (f : Queues → Queues) : (s.modQ f).trc = s.trc := rfl
@[simp] theorem State.modQ_spn (s : State) (f : Queues → Queues) : (s.modQ f).spn = s.spn := rfl
@[simp] theorem State.modQ_media (s : State) (f : Queues → Queues) : (s.modQ f).media = s.media := rfl
@[simp] theorem State.modQ_host (s : State) (f : Queues → Queues) : (s.modQ f).host = s.host := rfl
@[simp] theorem State.modQ_q (s : State) (f : Queues → Queues) : (s.modQ f).q = f s.q := rfl
@[simp] theorem State.modQ_het (s : State) (f : Queues → Queues) : (s.modQ f).het = s.het := rfl
@[simp] theorem State.modQ_pwr (s : State) (f : Queues → Queues) : (s.modQ f).pwr = s.pwr := rfl
@[simp] theorem State.modQ_mem (s : State) (f : Queues → Queues) : (s.modQ f).mem = s.mem := rfl
@[simp] theorem State.modQ_sec (s : State) (f : Queues → Queues) : (s.modQ f).sec = s.sec := rfl
@[simp] theorem State.modQ_evr (s : State) (f : Queues → Queues) : (s.modQ f).evr = s.evr := rfl
@[simp] theorem State.modQ_nor (s : State) (f : Queues → Queues) : (s.modQ f).nor = s.nor := rfl
@[simp] theorem State.modQ_fuse (s : State) (f : Queues → Queues) : (s.modQ f).fuse = s.fuse := rfl
@[simp] theorem State.modQ_rst (s : State) (f : Queues → Queues) : (s.modQ f).rst = s.rst := rfl
@[simp] theorem State.modQ_out (s : State) (f : Queues → Queues) : (s.modQ f).out = s.out := rfl
@[simp] theorem State.modQ_snaps (s : State) (f : Queues → Queues) : (s.modQ f).snaps = s.snaps := rfl
/-! `State.modHet` -/
@[simp] theorem State.modHet_pending (s : State) (f : Hetos → Hetos) : (s.modHet f).pending = s.pending := rfl
@[simp] theorem State.modHet_free (s : State) (f : Hetos → Hetos) : (s.modHet f).free = s.free := rfl
@[simp] theorem State.modHet_mtime (s : State) (f : Hetos → Hetos) : (s.modHet f).mtime = s.mtime := rfl
@[simp] theorem State.modHet_layout (s : State) (f : Hetos → Hetos) : (s.modHet f).layout = s.layout := rfl
@[simp] theorem State.modHet_eng (s : State) (f : Hetos → Hetos) : (s.modHet f).eng = s.eng := rfl
@[simp] theorem State.modHet_head (s : State) (f : Hetos → Hetos) : (s.modHet f).head = s.head := rfl
@[simp] theorem State.modHet_slice (s : State) (f : Hetos → Hetos) : (s.modHet f).slice = s.slice := rfl
@[simp] theorem State.modHet_lane (s : State) (f : Hetos → Hetos) : (s.modHet f).lane = s.lane := rfl
@[simp] theorem State.modHet_pool (s : State) (f : Hetos → Hetos) : (s.modHet f).pool = s.pool := rfl
@[simp] theorem State.modHet_mems (s : State) (f : Hetos → Hetos) : (s.modHet f).mems = s.mems := rfl
@[simp] theorem State.modHet_wsl (s : State) (f : Hetos → Hetos) : (s.modHet f).wsl = s.wsl := rfl
@[simp] theorem State.modHet_lpe (s : State) (f : Hetos → Hetos) : (s.modHet f).lpe = s.lpe := rfl
@[simp] theorem State.modHet_trc (s : State) (f : Hetos → Hetos) : (s.modHet f).trc = s.trc := rfl
@[simp] theorem State.modHet_spn (s : State) (f : Hetos → Hetos) : (s.modHet f).spn = s.spn := rfl
@[simp] theorem State.modHet_media (s : State) (f : Hetos → Hetos) : (s.modHet f).media = s.media := rfl
@[simp] theorem State.modHet_host (s : State) (f : Hetos → Hetos) : (s.modHet f).host = s.host := rfl
@[simp] theorem State.modHet_q (s : State) (f : Hetos → Hetos) : (s.modHet f).q = s.q := rfl
@[simp] theorem State.modHet_het (s : State) (f : Hetos → Hetos) : (s.modHet f).het = f s.het := rfl
@[simp] theorem State.modHet_pwr (s : State) (f : Hetos → Hetos) : (s.modHet f).pwr = s.pwr := rfl
@[simp] theorem State.modHet_mem (s : State) (f : Hetos → Hetos) : (s.modHet f).mem = s.mem := rfl
@[simp] theorem State.modHet_sec (s : State) (f : Hetos → Hetos) : (s.modHet f).sec = s.sec := rfl
@[simp] theorem State.modHet_evr (s : State) (f : Hetos → Hetos) : (s.modHet f).evr = s.evr := rfl
@[simp] theorem State.modHet_nor (s : State) (f : Hetos → Hetos) : (s.modHet f).nor = s.nor := rfl
@[simp] theorem State.modHet_fuse (s : State) (f : Hetos → Hetos) : (s.modHet f).fuse = s.fuse := rfl
@[simp] theorem State.modHet_rst (s : State) (f : Hetos → Hetos) : (s.modHet f).rst = s.rst := rfl
@[simp] theorem State.modHet_out (s : State) (f : Hetos → Hetos) : (s.modHet f).out = s.out := rfl
@[simp] theorem State.modHet_snaps (s : State) (f : Hetos → Hetos) : (s.modHet f).snaps = s.snaps := rfl
/-! `State.modPwr` -/
@[simp] theorem State.modPwr_pending (s : State) (f : Power → Power) : (s.modPwr f).pending = s.pending := rfl
@[simp] theorem State.modPwr_free (s : State) (f : Power → Power) : (s.modPwr f).free = s.free := rfl
@[simp] theorem State.modPwr_mtime (s : State) (f : Power → Power) : (s.modPwr f).mtime = s.mtime := rfl
@[simp] theorem State.modPwr_layout (s : State) (f : Power → Power) : (s.modPwr f).layout = s.layout := rfl
@[simp] theorem State.modPwr_eng (s : State) (f : Power → Power) : (s.modPwr f).eng = s.eng := rfl
@[simp] theorem State.modPwr_head (s : State) (f : Power → Power) : (s.modPwr f).head = s.head := rfl
@[simp] theorem State.modPwr_slice (s : State) (f : Power → Power) : (s.modPwr f).slice = s.slice := rfl
@[simp] theorem State.modPwr_lane (s : State) (f : Power → Power) : (s.modPwr f).lane = s.lane := rfl
@[simp] theorem State.modPwr_pool (s : State) (f : Power → Power) : (s.modPwr f).pool = s.pool := rfl
@[simp] theorem State.modPwr_mems (s : State) (f : Power → Power) : (s.modPwr f).mems = s.mems := rfl
@[simp] theorem State.modPwr_wsl (s : State) (f : Power → Power) : (s.modPwr f).wsl = s.wsl := rfl
@[simp] theorem State.modPwr_lpe (s : State) (f : Power → Power) : (s.modPwr f).lpe = s.lpe := rfl
@[simp] theorem State.modPwr_trc (s : State) (f : Power → Power) : (s.modPwr f).trc = s.trc := rfl
@[simp] theorem State.modPwr_spn (s : State) (f : Power → Power) : (s.modPwr f).spn = s.spn := rfl
@[simp] theorem State.modPwr_media (s : State) (f : Power → Power) : (s.modPwr f).media = s.media := rfl
@[simp] theorem State.modPwr_host (s : State) (f : Power → Power) : (s.modPwr f).host = s.host := rfl
@[simp] theorem State.modPwr_q (s : State) (f : Power → Power) : (s.modPwr f).q = s.q := rfl
@[simp] theorem State.modPwr_het (s : State) (f : Power → Power) : (s.modPwr f).het = s.het := rfl
@[simp] theorem State.modPwr_pwr (s : State) (f : Power → Power) : (s.modPwr f).pwr = f s.pwr := rfl
@[simp] theorem State.modPwr_mem (s : State) (f : Power → Power) : (s.modPwr f).mem = s.mem := rfl
@[simp] theorem State.modPwr_sec (s : State) (f : Power → Power) : (s.modPwr f).sec = s.sec := rfl
@[simp] theorem State.modPwr_evr (s : State) (f : Power → Power) : (s.modPwr f).evr = s.evr := rfl
@[simp] theorem State.modPwr_nor (s : State) (f : Power → Power) : (s.modPwr f).nor = s.nor := rfl
@[simp] theorem State.modPwr_fuse (s : State) (f : Power → Power) : (s.modPwr f).fuse = s.fuse := rfl
@[simp] theorem State.modPwr_rst (s : State) (f : Power → Power) : (s.modPwr f).rst = s.rst := rfl
@[simp] theorem State.modPwr_out (s : State) (f : Power → Power) : (s.modPwr f).out = s.out := rfl
@[simp] theorem State.modPwr_snaps (s : State) (f : Power → Power) : (s.modPwr f).snaps = s.snaps := rfl
/-! `State.modMem` -/
@[simp] theorem State.modMem_pending (s : State) (f : MemBlock → MemBlock) : (s.modMem f).pending = s.pending := rfl
@[simp] theorem State.modMem_free (s : State) (f : MemBlock → MemBlock) : (s.modMem f).free = s.free := rfl
@[simp] theorem State.modMem_mtime (s : State) (f : MemBlock → MemBlock) : (s.modMem f).mtime = s.mtime := rfl
@[simp] theorem State.modMem_layout (s : State) (f : MemBlock → MemBlock) : (s.modMem f).layout = s.layout := rfl
@[simp] theorem State.modMem_eng (s : State) (f : MemBlock → MemBlock) : (s.modMem f).eng = s.eng := rfl
@[simp] theorem State.modMem_head (s : State) (f : MemBlock → MemBlock) : (s.modMem f).head = s.head := rfl
@[simp] theorem State.modMem_slice (s : State) (f : MemBlock → MemBlock) : (s.modMem f).slice = s.slice := rfl
@[simp] theorem State.modMem_lane (s : State) (f : MemBlock → MemBlock) : (s.modMem f).lane = s.lane := rfl
@[simp] theorem State.modMem_pool (s : State) (f : MemBlock → MemBlock) : (s.modMem f).pool = s.pool := rfl
@[simp] theorem State.modMem_mems (s : State) (f : MemBlock → MemBlock) : (s.modMem f).mems = s.mems := rfl
@[simp] theorem State.modMem_wsl (s : State) (f : MemBlock → MemBlock) : (s.modMem f).wsl = s.wsl := rfl
@[simp] theorem State.modMem_lpe (s : State) (f : MemBlock → MemBlock) : (s.modMem f).lpe = s.lpe := rfl
@[simp] theorem State.modMem_trc (s : State) (f : MemBlock → MemBlock) : (s.modMem f).trc = s.trc := rfl
@[simp] theorem State.modMem_spn (s : State) (f : MemBlock → MemBlock) : (s.modMem f).spn = s.spn := rfl
@[simp] theorem State.modMem_media (s : State) (f : MemBlock → MemBlock) : (s.modMem f).media = s.media := rfl
@[simp] theorem State.modMem_host (s : State) (f : MemBlock → MemBlock) : (s.modMem f).host = s.host := rfl
@[simp] theorem State.modMem_q (s : State) (f : MemBlock → MemBlock) : (s.modMem f).q = s.q := rfl
@[simp] theorem State.modMem_het (s : State) (f : MemBlock → MemBlock) : (s.modMem f).het = s.het := rfl
@[simp] theorem State.modMem_pwr (s : State) (f : MemBlock → MemBlock) : (s.modMem f).pwr = s.pwr := rfl
@[simp] theorem State.modMem_mem (s : State) (f : MemBlock → MemBlock) : (s.modMem f).mem = f s.mem := rfl
@[simp] theorem State.modMem_sec (s : State) (f : MemBlock → MemBlock) : (s.modMem f).sec = s.sec := rfl
@[simp] theorem State.modMem_evr (s : State) (f : MemBlock → MemBlock) : (s.modMem f).evr = s.evr := rfl
@[simp] theorem State.modMem_nor (s : State) (f : MemBlock → MemBlock) : (s.modMem f).nor = s.nor := rfl
@[simp] theorem State.modMem_fuse (s : State) (f : MemBlock → MemBlock) : (s.modMem f).fuse = s.fuse := rfl
@[simp] theorem State.modMem_rst (s : State) (f : MemBlock → MemBlock) : (s.modMem f).rst = s.rst := rfl
@[simp] theorem State.modMem_out (s : State) (f : MemBlock → MemBlock) : (s.modMem f).out = s.out := rfl
@[simp] theorem State.modMem_snaps (s : State) (f : MemBlock → MemBlock) : (s.modMem f).snaps = s.snaps := rfl
/-! `State.modSec` -/
@[simp] theorem State.modSec_pending (s : State) (f : Security → Security) : (s.modSec f).pending = s.pending := rfl
@[simp] theorem State.modSec_free (s : State) (f : Security → Security) : (s.modSec f).free = s.free := rfl
@[simp] theorem State.modSec_mtime (s : State) (f : Security → Security) : (s.modSec f).mtime = s.mtime := rfl
@[simp] theorem State.modSec_layout (s : State) (f : Security → Security) : (s.modSec f).layout = s.layout := rfl
@[simp] theorem State.modSec_eng (s : State) (f : Security → Security) : (s.modSec f).eng = s.eng := rfl
@[simp] theorem State.modSec_head (s : State) (f : Security → Security) : (s.modSec f).head = s.head := rfl
@[simp] theorem State.modSec_slice (s : State) (f : Security → Security) : (s.modSec f).slice = s.slice := rfl
@[simp] theorem State.modSec_lane (s : State) (f : Security → Security) : (s.modSec f).lane = s.lane := rfl
@[simp] theorem State.modSec_pool (s : State) (f : Security → Security) : (s.modSec f).pool = s.pool := rfl
@[simp] theorem State.modSec_mems (s : State) (f : Security → Security) : (s.modSec f).mems = s.mems := rfl
@[simp] theorem State.modSec_wsl (s : State) (f : Security → Security) : (s.modSec f).wsl = s.wsl := rfl
@[simp] theorem State.modSec_lpe (s : State) (f : Security → Security) : (s.modSec f).lpe = s.lpe := rfl
@[simp] theorem State.modSec_trc (s : State) (f : Security → Security) : (s.modSec f).trc = s.trc := rfl
@[simp] theorem State.modSec_spn (s : State) (f : Security → Security) : (s.modSec f).spn = s.spn := rfl
@[simp] theorem State.modSec_media (s : State) (f : Security → Security) : (s.modSec f).media = s.media := rfl
@[simp] theorem State.modSec_host (s : State) (f : Security → Security) : (s.modSec f).host = s.host := rfl
@[simp] theorem State.modSec_q (s : State) (f : Security → Security) : (s.modSec f).q = s.q := rfl
@[simp] theorem State.modSec_het (s : State) (f : Security → Security) : (s.modSec f).het = s.het := rfl
@[simp] theorem State.modSec_pwr (s : State) (f : Security → Security) : (s.modSec f).pwr = s.pwr := rfl
@[simp] theorem State.modSec_mem (s : State) (f : Security → Security) : (s.modSec f).mem = s.mem := rfl
@[simp] theorem State.modSec_sec (s : State) (f : Security → Security) : (s.modSec f).sec = f s.sec := rfl
@[simp] theorem State.modSec_evr (s : State) (f : Security → Security) : (s.modSec f).evr = s.evr := rfl
@[simp] theorem State.modSec_nor (s : State) (f : Security → Security) : (s.modSec f).nor = s.nor := rfl
@[simp] theorem State.modSec_fuse (s : State) (f : Security → Security) : (s.modSec f).fuse = s.fuse := rfl
@[simp] theorem State.modSec_rst (s : State) (f : Security → Security) : (s.modSec f).rst = s.rst := rfl
@[simp] theorem State.modSec_out (s : State) (f : Security → Security) : (s.modSec f).out = s.out := rfl
@[simp] theorem State.modSec_snaps (s : State) (f : Security → Security) : (s.modSec f).snaps = s.snaps := rfl
/-! `State.modEvr` -/
@[simp] theorem State.modEvr_pending (s : State) (f : Recorder → Recorder) : (s.modEvr f).pending = s.pending := rfl
@[simp] theorem State.modEvr_free (s : State) (f : Recorder → Recorder) : (s.modEvr f).free = s.free := rfl
@[simp] theorem State.modEvr_mtime (s : State) (f : Recorder → Recorder) : (s.modEvr f).mtime = s.mtime := rfl
@[simp] theorem State.modEvr_layout (s : State) (f : Recorder → Recorder) : (s.modEvr f).layout = s.layout := rfl
@[simp] theorem State.modEvr_eng (s : State) (f : Recorder → Recorder) : (s.modEvr f).eng = s.eng := rfl
@[simp] theorem State.modEvr_head (s : State) (f : Recorder → Recorder) : (s.modEvr f).head = s.head := rfl
@[simp] theorem State.modEvr_slice (s : State) (f : Recorder → Recorder) : (s.modEvr f).slice = s.slice := rfl
@[simp] theorem State.modEvr_lane (s : State) (f : Recorder → Recorder) : (s.modEvr f).lane = s.lane := rfl
@[simp] theorem State.modEvr_pool (s : State) (f : Recorder → Recorder) : (s.modEvr f).pool = s.pool := rfl
@[simp] theorem State.modEvr_mems (s : State) (f : Recorder → Recorder) : (s.modEvr f).mems = s.mems := rfl
@[simp] theorem State.modEvr_wsl (s : State) (f : Recorder → Recorder) : (s.modEvr f).wsl = s.wsl := rfl
@[simp] theorem State.modEvr_lpe (s : State) (f : Recorder → Recorder) : (s.modEvr f).lpe = s.lpe := rfl
@[simp] theorem State.modEvr_trc (s : State) (f : Recorder → Recorder) : (s.modEvr f).trc = s.trc := rfl
@[simp] theorem State.modEvr_spn (s : State) (f : Recorder → Recorder) : (s.modEvr f).spn = s.spn := rfl
@[simp] theorem State.modEvr_media (s : State) (f : Recorder → Recorder) : (s.modEvr f).media = s.media := rfl
@[simp] theorem State.modEvr_host (s : State) (f : Recorder → Recorder) : (s.modEvr f).host = s.host := rfl
@[simp] theorem State.modEvr_q (s : State) (f : Recorder → Recorder) : (s.modEvr f).q = s.q := rfl
@[simp] theorem State.modEvr_het (s : State) (f : Recorder → Recorder) : (s.modEvr f).het = s.het := rfl
@[simp] theorem State.modEvr_pwr (s : State) (f : Recorder → Recorder) : (s.modEvr f).pwr = s.pwr := rfl
@[simp] theorem State.modEvr_mem (s : State) (f : Recorder → Recorder) : (s.modEvr f).mem = s.mem := rfl
@[simp] theorem State.modEvr_sec (s : State) (f : Recorder → Recorder) : (s.modEvr f).sec = s.sec := rfl
@[simp] theorem State.modEvr_evr (s : State) (f : Recorder → Recorder) : (s.modEvr f).evr = f s.evr := rfl
@[simp] theorem State.modEvr_nor (s : State) (f : Recorder → Recorder) : (s.modEvr f).nor = s.nor := rfl
@[simp] theorem State.modEvr_fuse (s : State) (f : Recorder → Recorder) : (s.modEvr f).fuse = s.fuse := rfl
@[simp] theorem State.modEvr_rst (s : State) (f : Recorder → Recorder) : (s.modEvr f).rst = s.rst := rfl
@[simp] theorem State.modEvr_out (s : State) (f : Recorder → Recorder) : (s.modEvr f).out = s.out := rfl
@[simp] theorem State.modEvr_snaps (s : State) (f : Recorder → Recorder) : (s.modEvr f).snaps = s.snaps := rfl
/-! `State.modNor` -/
@[simp] theorem State.modNor_pending (s : State) (f : Nor → Nor) : (s.modNor f).pending = s.pending := rfl
@[simp] theorem State.modNor_free (s : State) (f : Nor → Nor) : (s.modNor f).free = s.free := rfl
@[simp] theorem State.modNor_mtime (s : State) (f : Nor → Nor) : (s.modNor f).mtime = s.mtime := rfl
@[simp] theorem State.modNor_layout (s : State) (f : Nor → Nor) : (s.modNor f).layout = s.layout := rfl
@[simp] theorem State.modNor_eng (s : State) (f : Nor → Nor) : (s.modNor f).eng = s.eng := rfl
@[simp] theorem State.modNor_head (s : State) (f : Nor → Nor) : (s.modNor f).head = s.head := rfl
@[simp] theorem State.modNor_slice (s : State) (f : Nor → Nor) : (s.modNor f).slice = s.slice := rfl
@[simp] theorem State.modNor_lane (s : State) (f : Nor → Nor) : (s.modNor f).lane = s.lane := rfl
@[simp] theorem State.modNor_pool (s : State) (f : Nor → Nor) : (s.modNor f).pool = s.pool := rfl
@[simp] theorem State.modNor_mems (s : State) (f : Nor → Nor) : (s.modNor f).mems = s.mems := rfl
@[simp] theorem State.modNor_wsl (s : State) (f : Nor → Nor) : (s.modNor f).wsl = s.wsl := rfl
@[simp] theorem State.modNor_lpe (s : State) (f : Nor → Nor) : (s.modNor f).lpe = s.lpe := rfl
@[simp] theorem State.modNor_trc (s : State) (f : Nor → Nor) : (s.modNor f).trc = s.trc := rfl
@[simp] theorem State.modNor_spn (s : State) (f : Nor → Nor) : (s.modNor f).spn = s.spn := rfl
@[simp] theorem State.modNor_media (s : State) (f : Nor → Nor) : (s.modNor f).media = s.media := rfl
@[simp] theorem State.modNor_host (s : State) (f : Nor → Nor) : (s.modNor f).host = s.host := rfl
@[simp] theorem State.modNor_q (s : State) (f : Nor → Nor) : (s.modNor f).q = s.q := rfl
@[simp] theorem State.modNor_het (s : State) (f : Nor → Nor) : (s.modNor f).het = s.het := rfl
@[simp] theorem State.modNor_pwr (s : State) (f : Nor → Nor) : (s.modNor f).pwr = s.pwr := rfl
@[simp] theorem State.modNor_mem (s : State) (f : Nor → Nor) : (s.modNor f).mem = s.mem := rfl
@[simp] theorem State.modNor_sec (s : State) (f : Nor → Nor) : (s.modNor f).sec = s.sec := rfl
@[simp] theorem State.modNor_evr (s : State) (f : Nor → Nor) : (s.modNor f).evr = s.evr := rfl
@[simp] theorem State.modNor_nor (s : State) (f : Nor → Nor) : (s.modNor f).nor = f s.nor := rfl
@[simp] theorem State.modNor_fuse (s : State) (f : Nor → Nor) : (s.modNor f).fuse = s.fuse := rfl
@[simp] theorem State.modNor_rst (s : State) (f : Nor → Nor) : (s.modNor f).rst = s.rst := rfl
@[simp] theorem State.modNor_out (s : State) (f : Nor → Nor) : (s.modNor f).out = s.out := rfl
@[simp] theorem State.modNor_snaps (s : State) (f : Nor → Nor) : (s.modNor f).snaps = s.snaps := rfl
/-! `State.modRst` -/
@[simp] theorem State.modRst_pending (s : State) (f : ResetBlock → ResetBlock) : (s.modRst f).pending = s.pending := rfl
@[simp] theorem State.modRst_free (s : State) (f : ResetBlock → ResetBlock) : (s.modRst f).free = s.free := rfl
@[simp] theorem State.modRst_mtime (s : State) (f : ResetBlock → ResetBlock) : (s.modRst f).mtime = s.mtime := rfl
@[simp] theorem State.modRst_layout (s : State) (f : ResetBlock → ResetBlock) : (s.modRst f).layout = s.layout := rfl
@[simp] theorem State.modRst_eng (s : State) (f : ResetBlock → ResetBlock) : (s.modRst f).eng = s.eng := rfl
@[simp] theorem State.modRst_head (s : State) (f : ResetBlock → ResetBlock) : (s.modRst f).head = s.head := rfl
@[simp] theorem State.modRst_slice (s : State) (f : ResetBlock → ResetBlock) : (s.modRst f).slice = s.slice := rfl
@[simp] theorem State.modRst_lane (s : State) (f : ResetBlock → ResetBlock) : (s.modRst f).lane = s.lane := rfl
@[simp] theorem State.modRst_pool (s : State) (f : ResetBlock → ResetBlock) : (s.modRst f).pool = s.pool := rfl
@[simp] theorem State.modRst_mems (s : State) (f : ResetBlock → ResetBlock) : (s.modRst f).mems = s.mems := rfl
@[simp] theorem State.modRst_wsl (s : State) (f : ResetBlock → ResetBlock) : (s.modRst f).wsl = s.wsl := rfl
@[simp] theorem State.modRst_lpe (s : State) (f : ResetBlock → ResetBlock) : (s.modRst f).lpe = s.lpe := rfl
@[simp] theorem State.modRst_trc (s : State) (f : ResetBlock → ResetBlock) : (s.modRst f).trc = s.trc := rfl
@[simp] theorem State.modRst_spn (s : State) (f : ResetBlock → ResetBlock) : (s.modRst f).spn = s.spn := rfl
@[simp] theorem State.modRst_media (s : State) (f : ResetBlock → ResetBlock) : (s.modRst f).media = s.media := rfl
@[simp] theorem State.modRst_host (s : State) (f : ResetBlock → ResetBlock) : (s.modRst f).host = s.host := rfl
@[simp] theorem State.modRst_q (s : State) (f : ResetBlock → ResetBlock) : (s.modRst f).q = s.q := rfl
@[simp] theorem State.modRst_het (s : State) (f : ResetBlock → ResetBlock) : (s.modRst f).het = s.het := rfl
@[simp] theorem State.modRst_pwr (s : State) (f : ResetBlock → ResetBlock) : (s.modRst f).pwr = s.pwr := rfl
@[simp] theorem State.modRst_mem (s : State) (f : ResetBlock → ResetBlock) : (s.modRst f).mem = s.mem := rfl
@[simp] theorem State.modRst_sec (s : State) (f : ResetBlock → ResetBlock) : (s.modRst f).sec = s.sec := rfl
@[simp] theorem State.modRst_evr (s : State) (f : ResetBlock → ResetBlock) : (s.modRst f).evr = s.evr := rfl
@[simp] theorem State.modRst_nor (s : State) (f : ResetBlock → ResetBlock) : (s.modRst f).nor = s.nor := rfl
@[simp] theorem State.modRst_fuse (s : State) (f : ResetBlock → ResetBlock) : (s.modRst f).fuse = s.fuse := rfl
@[simp] theorem State.modRst_rst (s : State) (f : ResetBlock → ResetBlock) : (s.modRst f).rst = f s.rst := rfl
@[simp] theorem State.modRst_out (s : State) (f : ResetBlock → ResetBlock) : (s.modRst f).out = s.out := rfl
@[simp] theorem State.modRst_snaps (s : State) (f : ResetBlock → ResetBlock) : (s.modRst f).snaps = s.snaps := rfl
/-! `State.modAct` -/
@[simp] theorem State.modAct_pending (s : State) (a : Eng) (f : Actuator → Actuator) : (s.modAct a f).pending = s.pending := rfl
@[simp] theorem State.modAct_free (s : State) (a : Eng) (f : Actuator → Actuator) : (s.modAct a f).free = s.free := rfl
@[simp] theorem State.modAct_mtime (s : State) (a : Eng) (f : Actuator → Actuator) : (s.modAct a f).mtime = s.mtime := rfl
@[simp] theorem State.modAct_layout (s : State) (a : Eng) (f : Actuator → Actuator) : (s.modAct a f).layout = s.layout := rfl
@[simp] theorem State.modAct_eng (s : State) (a : Eng) (f : Actuator → Actuator) : (s.modAct a f).eng = s.eng := rfl
@[simp] theorem State.modAct_head (s : State) (a : Eng) (f : Actuator → Actuator) : (s.modAct a f).head = s.head := rfl
@[simp] theorem State.modAct_slice (s : State) (a : Eng) (f : Actuator → Actuator) : (s.modAct a f).slice = s.slice := rfl
@[simp] theorem State.modAct_lane (s : State) (a : Eng) (f : Actuator → Actuator) : (s.modAct a f).lane = s.lane := rfl
@[simp] theorem State.modAct_pool (s : State) (a : Eng) (f : Actuator → Actuator) : (s.modAct a f).pool = s.pool := rfl
@[simp] theorem State.modAct_mems (s : State) (a : Eng) (f : Actuator → Actuator) : (s.modAct a f).mems = s.mems := rfl
@[simp] theorem State.modAct_wsl (s : State) (a : Eng) (f : Actuator → Actuator) : (s.modAct a f).wsl = s.wsl := rfl
@[simp] theorem State.modAct_lpe (s : State) (a : Eng) (f : Actuator → Actuator) : (s.modAct a f).lpe = s.lpe := rfl
@[simp] theorem State.modAct_trc (s : State) (a : Eng) (f : Actuator → Actuator) : (s.modAct a f).trc = s.trc := rfl
@[simp] theorem State.modAct_spn (s : State) (a : Eng) (f : Actuator → Actuator) : (s.modAct a f).spn = s.spn := rfl
@[simp] theorem State.modAct_media (s : State) (a : Eng) (f : Actuator → Actuator) : (s.modAct a f).media = s.media := rfl
@[simp] theorem State.modAct_host (s : State) (a : Eng) (f : Actuator → Actuator) : (s.modAct a f).host = s.host := rfl
@[simp] theorem State.modAct_q (s : State) (a : Eng) (f : Actuator → Actuator) : (s.modAct a f).q = s.q := rfl
@[simp] theorem State.modAct_het (s : State) (a : Eng) (f : Actuator → Actuator) : (s.modAct a f).het = s.het := rfl
@[simp] theorem State.modAct_pwr (s : State) (a : Eng) (f : Actuator → Actuator) : (s.modAct a f).pwr = s.pwr := rfl
@[simp] theorem State.modAct_mem (s : State) (a : Eng) (f : Actuator → Actuator) : (s.modAct a f).mem = s.mem := rfl
@[simp] theorem State.modAct_sec (s : State) (a : Eng) (f : Actuator → Actuator) : (s.modAct a f).sec = s.sec := rfl
@[simp] theorem State.modAct_evr (s : State) (a : Eng) (f : Actuator → Actuator) : (s.modAct a f).evr = s.evr := rfl
@[simp] theorem State.modAct_nor (s : State) (a : Eng) (f : Actuator → Actuator) : (s.modAct a f).nor = s.nor := rfl
@[simp] theorem State.modAct_fuse (s : State) (a : Eng) (f : Actuator → Actuator) : (s.modAct a f).fuse = s.fuse := rfl
@[simp] theorem State.modAct_rst (s : State) (a : Eng) (f : Actuator → Actuator) : (s.modAct a f).rst = { s.rst with act := vmod s.rst.act a f } := rfl
@[simp] theorem State.modAct_out (s : State) (a : Eng) (f : Actuator → Actuator) : (s.modAct a f).out = s.out := rfl
@[simp] theorem State.modAct_snaps (s : State) (a : Eng) (f : Actuator → Actuator) : (s.modAct a f).snaps = s.snaps := rfl
/-! `State.modEpw` -/
@[simp] theorem State.modEpw_pending (s : State) (a : Eng) (f : EngPower → EngPower) : (s.modEpw a f).pending = s.pending := rfl
@[simp] theorem State.modEpw_free (s : State) (a : Eng) (f : EngPower → EngPower) : (s.modEpw a f).free = s.free := rfl
@[simp] theorem State.modEpw_mtime (s : State) (a : Eng) (f : EngPower → EngPower) : (s.modEpw a f).mtime = s.mtime := rfl
@[simp] theorem State.modEpw_layout (s : State) (a : Eng) (f : EngPower → EngPower) : (s.modEpw a f).layout = s.layout := rfl
@[simp] theorem State.modEpw_eng (s : State) (a : Eng) (f : EngPower → EngPower) : (s.modEpw a f).eng = s.eng := rfl
@[simp] theorem State.modEpw_head (s : State) (a : Eng) (f : EngPower → EngPower) : (s.modEpw a f).head = s.head := rfl
@[simp] theorem State.modEpw_slice (s : State) (a : Eng) (f : EngPower → EngPower) : (s.modEpw a f).slice = s.slice := rfl
@[simp] theorem State.modEpw_lane (s : State) (a : Eng) (f : EngPower → EngPower) : (s.modEpw a f).lane = s.lane := rfl
@[simp] theorem State.modEpw_pool (s : State) (a : Eng) (f : EngPower → EngPower) : (s.modEpw a f).pool = s.pool := rfl
@[simp] theorem State.modEpw_mems (s : State) (a : Eng) (f : EngPower → EngPower) : (s.modEpw a f).mems = s.mems := rfl
@[simp] theorem State.modEpw_wsl (s : State) (a : Eng) (f : EngPower → EngPower) : (s.modEpw a f).wsl = s.wsl := rfl
@[simp] theorem State.modEpw_lpe (s : State) (a : Eng) (f : EngPower → EngPower) : (s.modEpw a f).lpe = s.lpe := rfl
@[simp] theorem State.modEpw_trc (s : State) (a : Eng) (f : EngPower → EngPower) : (s.modEpw a f).trc = s.trc := rfl
@[simp] theorem State.modEpw_spn (s : State) (a : Eng) (f : EngPower → EngPower) : (s.modEpw a f).spn = s.spn := rfl
@[simp] theorem State.modEpw_media (s : State) (a : Eng) (f : EngPower → EngPower) : (s.modEpw a f).media = s.media := rfl
@[simp] theorem State.modEpw_host (s : State) (a : Eng) (f : EngPower → EngPower) : (s.modEpw a f).host = s.host := rfl
@[simp] theorem State.modEpw_q (s : State) (a : Eng) (f : EngPower → EngPower) : (s.modEpw a f).q = s.q := rfl
@[simp] theorem State.modEpw_het (s : State) (a : Eng) (f : EngPower → EngPower) : (s.modEpw a f).het = s.het := rfl
@[simp] theorem State.modEpw_pwr (s : State) (a : Eng) (f : EngPower → EngPower) : (s.modEpw a f).pwr = { s.pwr with eng := vmod s.pwr.eng a f } := rfl
@[simp] theorem State.modEpw_mem (s : State) (a : Eng) (f : EngPower → EngPower) : (s.modEpw a f).mem = s.mem := rfl
@[simp] theorem State.modEpw_sec (s : State) (a : Eng) (f : EngPower → EngPower) : (s.modEpw a f).sec = s.sec := rfl
@[simp] theorem State.modEpw_evr (s : State) (a : Eng) (f : EngPower → EngPower) : (s.modEpw a f).evr = s.evr := rfl
@[simp] theorem State.modEpw_nor (s : State) (a : Eng) (f : EngPower → EngPower) : (s.modEpw a f).nor = s.nor := rfl
@[simp] theorem State.modEpw_fuse (s : State) (a : Eng) (f : EngPower → EngPower) : (s.modEpw a f).fuse = s.fuse := rfl
@[simp] theorem State.modEpw_rst (s : State) (a : Eng) (f : EngPower → EngPower) : (s.modEpw a f).rst = s.rst := rfl
@[simp] theorem State.modEpw_out (s : State) (a : Eng) (f : EngPower → EngPower) : (s.modEpw a f).out = s.out := rfl
@[simp] theorem State.modEpw_snaps (s : State) (a : Eng) (f : EngPower → EngPower) : (s.modEpw a f).snaps = s.snaps := rfl
/-! `State.modHpw` -/
@[simp] theorem State.modHpw_pending (s : State) (g : Head) (f : HeadPower → HeadPower) : (s.modHpw g f).pending = s.pending := rfl
@[simp] theorem State.modHpw_free (s : State) (g : Head) (f : HeadPower → HeadPower) : (s.modHpw g f).free = s.free := rfl
@[simp] theorem State.modHpw_mtime (s : State) (g : Head) (f : HeadPower → HeadPower) : (s.modHpw g f).mtime = s.mtime := rfl
@[simp] theorem State.modHpw_layout (s : State) (g : Head) (f : HeadPower → HeadPower) : (s.modHpw g f).layout = s.layout := rfl
@[simp] theorem State.modHpw_eng (s : State) (g : Head) (f : HeadPower → HeadPower) : (s.modHpw g f).eng = s.eng := rfl
@[simp] theorem State.modHpw_head (s : State) (g : Head) (f : HeadPower → HeadPower) : (s.modHpw g f).head = s.head := rfl
@[simp] theorem State.modHpw_slice (s : State) (g : Head) (f : HeadPower → HeadPower) : (s.modHpw g f).slice = s.slice := rfl
@[simp] theorem State.modHpw_lane (s : State) (g : Head) (f : HeadPower → HeadPower) : (s.modHpw g f).lane = s.lane := rfl
@[simp] theorem State.modHpw_pool (s : State) (g : Head) (f : HeadPower → HeadPower) : (s.modHpw g f).pool = s.pool := rfl
@[simp] theorem State.modHpw_mems (s : State) (g : Head) (f : HeadPower → HeadPower) : (s.modHpw g f).mems = s.mems := rfl
@[simp] theorem State.modHpw_wsl (s : State) (g : Head) (f : HeadPower → HeadPower) : (s.modHpw g f).wsl = s.wsl := rfl
@[simp] theorem State.modHpw_lpe (s : State) (g : Head) (f : HeadPower → HeadPower) : (s.modHpw g f).lpe = s.lpe := rfl
@[simp] theorem State.modHpw_trc (s : State) (g : Head) (f : HeadPower → HeadPower) : (s.modHpw g f).trc = s.trc := rfl
@[simp] theorem State.modHpw_spn (s : State) (g : Head) (f : HeadPower → HeadPower) : (s.modHpw g f).spn = s.spn := rfl
@[simp] theorem State.modHpw_media (s : State) (g : Head) (f : HeadPower → HeadPower) : (s.modHpw g f).media = s.media := rfl
@[simp] theorem State.modHpw_host (s : State) (g : Head) (f : HeadPower → HeadPower) : (s.modHpw g f).host = s.host := rfl
@[simp] theorem State.modHpw_q (s : State) (g : Head) (f : HeadPower → HeadPower) : (s.modHpw g f).q = s.q := rfl
@[simp] theorem State.modHpw_het (s : State) (g : Head) (f : HeadPower → HeadPower) : (s.modHpw g f).het = s.het := rfl
@[simp] theorem State.modHpw_pwr (s : State) (g : Head) (f : HeadPower → HeadPower) : (s.modHpw g f).pwr = { s.pwr with head := vmod s.pwr.head g f } := rfl
@[simp] theorem State.modHpw_mem (s : State) (g : Head) (f : HeadPower → HeadPower) : (s.modHpw g f).mem = s.mem := rfl
@[simp] theorem State.modHpw_sec (s : State) (g : Head) (f : HeadPower → HeadPower) : (s.modHpw g f).sec = s.sec := rfl
@[simp] theorem State.modHpw_evr (s : State) (g : Head) (f : HeadPower → HeadPower) : (s.modHpw g f).evr = s.evr := rfl
@[simp] theorem State.modHpw_nor (s : State) (g : Head) (f : HeadPower → HeadPower) : (s.modHpw g f).nor = s.nor := rfl
@[simp] theorem State.modHpw_fuse (s : State) (g : Head) (f : HeadPower → HeadPower) : (s.modHpw g f).fuse = s.fuse := rfl
@[simp] theorem State.modHpw_rst (s : State) (g : Head) (f : HeadPower → HeadPower) : (s.modHpw g f).rst = s.rst := rfl
@[simp] theorem State.modHpw_out (s : State) (g : Head) (f : HeadPower → HeadPower) : (s.modHpw g f).out = s.out := rfl
@[simp] theorem State.modHpw_snaps (s : State) (g : Head) (f : HeadPower → HeadPower) : (s.modHpw g f).snaps = s.snaps := rfl
/-! `State.modOut` -/
@[simp] theorem State.modOut_pending (s : State) (f : Outputs → Outputs) : (s.modOut f).pending = s.pending := rfl
@[simp] theorem State.modOut_free (s : State) (f : Outputs → Outputs) : (s.modOut f).free = s.free := rfl
@[simp] theorem State.modOut_mtime (s : State) (f : Outputs → Outputs) : (s.modOut f).mtime = s.mtime := rfl
@[simp] theorem State.modOut_layout (s : State) (f : Outputs → Outputs) : (s.modOut f).layout = s.layout := rfl
@[simp] theorem State.modOut_eng (s : State) (f : Outputs → Outputs) : (s.modOut f).eng = s.eng := rfl
@[simp] theorem State.modOut_head (s : State) (f : Outputs → Outputs) : (s.modOut f).head = s.head := rfl
@[simp] theorem State.modOut_slice (s : State) (f : Outputs → Outputs) : (s.modOut f).slice = s.slice := rfl
@[simp] theorem State.modOut_lane (s : State) (f : Outputs → Outputs) : (s.modOut f).lane = s.lane := rfl
@[simp] theorem State.modOut_pool (s : State) (f : Outputs → Outputs) : (s.modOut f).pool = s.pool := rfl
@[simp] theorem State.modOut_mems (s : State) (f : Outputs → Outputs) : (s.modOut f).mems = s.mems := rfl
@[simp] theorem State.modOut_wsl (s : State) (f : Outputs → Outputs) : (s.modOut f).wsl = s.wsl := rfl
@[simp] theorem State.modOut_lpe (s : State) (f : Outputs → Outputs) : (s.modOut f).lpe = s.lpe := rfl
@[simp] theorem State.modOut_trc (s : State) (f : Outputs → Outputs) : (s.modOut f).trc = s.trc := rfl
@[simp] theorem State.modOut_spn (s : State) (f : Outputs → Outputs) : (s.modOut f).spn = s.spn := rfl
@[simp] theorem State.modOut_media (s : State) (f : Outputs → Outputs) : (s.modOut f).media = s.media := rfl
@[simp] theorem State.modOut_host (s : State) (f : Outputs → Outputs) : (s.modOut f).host = s.host := rfl
@[simp] theorem State.modOut_q (s : State) (f : Outputs → Outputs) : (s.modOut f).q = s.q := rfl
@[simp] theorem State.modOut_het (s : State) (f : Outputs → Outputs) : (s.modOut f).het = s.het := rfl
@[simp] theorem State.modOut_pwr (s : State) (f : Outputs → Outputs) : (s.modOut f).pwr = s.pwr := rfl
@[simp] theorem State.modOut_mem (s : State) (f : Outputs → Outputs) : (s.modOut f).mem = s.mem := rfl
@[simp] theorem State.modOut_sec (s : State) (f : Outputs → Outputs) : (s.modOut f).sec = s.sec := rfl
@[simp] theorem State.modOut_evr (s : State) (f : Outputs → Outputs) : (s.modOut f).evr = s.evr := rfl
@[simp] theorem State.modOut_nor (s : State) (f : Outputs → Outputs) : (s.modOut f).nor = s.nor := rfl
@[simp] theorem State.modOut_fuse (s : State) (f : Outputs → Outputs) : (s.modOut f).fuse = s.fuse := rfl
@[simp] theorem State.modOut_rst (s : State) (f : Outputs → Outputs) : (s.modOut f).rst = s.rst := rfl
@[simp] theorem State.modOut_out (s : State) (f : Outputs → Outputs) : (s.modOut f).out = f s.out := rfl
@[simp] theorem State.modOut_snaps (s : State) (f : Outputs → Outputs) : (s.modOut f).snaps = s.snaps := rfl

end Sys2Proof.Machine
end

