-- ==== Sys2Proof/Laws/Moves.lean ====
section
/-! SUPPORT. What an operation can do, said once for each (in the Moves files): `Moves m s t` says that t differs from s at most in the
parts m names, that the command queue is kept, that the memories stay canonical and the layouts legal, and that fuses are only ever
blown. The relation composes, so a bound for an operation follows from those of the operations it calls. -/

namespace Sys2Proof.Machine
open Sys2Proof
set_option Elab.async false

/-- The first list lies within the second. -/
def covers (m n : List Part) : Bool := m.all n.contains

/-- t follows s by operations that touch at most the parts m names: see the head of this file. -/
structure Moves (m : List Part) (s t : State) : Prop where
  same : ∀ x : Part, m.contains x = false → x.same s t
  queue : t.pending = s.pending
  dram : Memory.wf s.mem.dram = true → Memory.wf t.mem.dram = true
  window : Memory.localWf s.mem.local_ = true → Memory.localWf t.mem.local_ = true
  stored : s.nor.layout.legal = true → t.nor.layout.legal = true
  inEffect : s.nor.layout.legal = true → s.layout.legal = true → t.layout.legal = true
  raised : s.fuse.rollCtr ≤ t.fuse.rollCtr
  top : s.fuse.rollCtr ≤ 128 → t.fuse.rollCtr ≤ 128
  revoked : s.fuse.revoked &&& ~~~t.fuse.revoked = 0
  ident : (t.fuse.serial, t.fuse.stepping, t.fuse.keyHash, t.fuse.uds) = (s.fuse.serial, s.fuse.stepping, s.fuse.keyHash, s.fuse.uds)

/-- A part is the same in a state and itself. -/
theorem Part.same_refl (x : Part) (s : State) : x.same s s := by
  cases x <;> first | rfl | exact fun _ => rfl
/-- Sameness composes. -/
theorem Part.same_trans {x : Part} {s t u : State} (a : x.same s t) (b : x.same t u) : x.same s u := by
  cases x <;> first | exact Eq.trans (b : _ = _) (a : _ = _) | exact fun i => (b i).trans (a i)

/-- Nothing moves. -/
theorem Moves.refl (m : List Part) (s : State) : Moves m s s :=
  ⟨fun x _ => x.same_refl s, rfl, id, id, id, fun _ h => h, Nat.le_refl _, id, by simp, rfl⟩

/-- Moves compose. -/
theorem Moves.trans {m : List Part} {s t u : State} (a : Moves m s t) (b : Moves m t u) : Moves m s u where
  same := fun x h => Part.same_trans (a.same x h) (b.same x h)
  queue := b.queue.trans a.queue
  dram := fun h => b.dram (a.dram h)
  window := fun h => b.window (a.window h)
  stored := fun h => b.stored (a.stored h)
  inEffect := fun h g => b.inEffect (a.stored h) (a.inEffect h g)
  raised := Nat.le_trans a.raised b.raised
  top := fun h => b.top (a.top h)
  revoked := by
    have h1 := a.revoked; have h2 := b.revoked
    revert h1 h2; generalize s.fuse.revoked = x; generalize t.fuse.revoked = y; generalize u.fuse.revoked = z
    revert x y z; decide
  ident := b.ident.trans a.ident

/-- A move within more parts. -/
theorem Moves.widen {m n : List Part} {s t : State} (a : Moves m s t) (h : covers m n = true) : Moves n s t :=
  { a with same := fun x hx => a.same x (by
      by_contra hc
      have h1 := List.all_eq_true.mp h x (by simpa using hc)
      rw [h1] at hx; cases hx) }

/-- A move after a move, with its own parts. -/
theorem Moves.after {m n : List Part} {s t u : State} (b : Moves m t u) (h : covers m n = true) (a : Moves n s t) : Moves n s u :=
  a.trans (b.widen h)

/-- A move after a move within the same parts. -/
theorem Moves.behind {m : List Part} {s t u : State} (b : Moves m t u) (a : Moves m s t) : Moves m s u := a.trans b

/-- A state that differs from another in none of memory, stored layouts and fuses moves by the parts in which it differs. -/
theorem Moves.plain {m : List Part} {s t : State} (hs : ∀ x : Part, m.contains x = false → x.same s t) (hq : t.pending = s.pending)
    (hl : t.layout = s.layout) (hn : t.nor.layout = s.nor.layout) (hd : t.mem.dram = s.mem.dram) (hm : t.mem.local_ = s.mem.local_)
    (hf : t.fuse = s.fuse) : Moves m s t :=
  ⟨hs, hq, by rw [hd]; exact id, by rw [hm]; exact id, by rw [hn]; exact id, by rw [hl]; exact fun _ h => h, by rw [hf],
   by rw [hf]; exact id, by rw [hf]; simp, by rw [hf]⟩

/-- Either branch. -/
theorem Moves.ite {m : List Part} {c : Prop} {_ : Decidable c} {s a b : State} (h1 : Moves m s a) (h2 : Moves m s b) :
    Moves m s (if c then a else b) := by split <;> assumption
/-- Either branch of a packet's rule. -/
theorem Moves.itePkt {m : List Part} {c : Prop} {_ : Decidable c} {s : State} {a b : PktRes} (h1 : Moves m s a.state)
    (h2 : Moves m s b.state) : Moves m s (if c then a else b).state := by split <;> assumption
/-- Either branch of an admin command. -/
theorem Moves.iteAdm {m : List Part} {c : Prop} {_ : Decidable c} {s : State} {a b : AdmRes} (h1 : Moves m s a.state)
    (h2 : Moves m s b.state) : Moves m s (if c then a else b).state := by split <;> assumption
/-- A move for each element of a list. -/
theorem Moves.fold {m : List Part} {α : Type} (f : State → α → State) (l : List α) (s : State) (h : ∀ s a, Moves m s (f s a)) :
    Moves m s (l.foldl f s) := by
  induction l generalizing s with
  | nil => exact .refl m s
  | cons a l ih => exact (h s a).trans (ih _)
/-- The state of a pair. -/
theorem Moves.pair1 {m : List Part} {α : Type} {p : State × α} {s a : State} {b : α} (h : p = (a, b)) (hp : Moves m s p.1) :
    Moves m s a := by subst h; exact hp
/-- See `Moves.pair1`. -/
theorem Moves.pair2 {m : List Part} {α : Type} {p : α × State} {s a : State} {b : α} (h : p = (b, a)) (hp : Moves m s p.2) :
    Moves m s a := by subst h; exact hp
/-- See `Moves.pair1`. -/
theorem Moves.pair3 {m : List Part} {α β : Type} {p : α × β × State} {s a : State} {b : α} {c : β} (h : p = (b, c, a))
    (hp : Moves m s p.2.2) : Moves m s a := by subst h; exact hp

/-! ### Fields replaced -/

/-- One field replaced. -/
theorem Moves.set_free (s : State) (x : Nat) : Moves [.free] s { s with free := x } :=
  .plain (fun y h => by cases y <;> first | rfl | exact fun _ => rfl | exact absurd h (by decide)) rfl rfl rfl rfl rfl rfl
/-- One field replaced. -/
theorem Moves.set_mtime (s : State) (x : MTime) : Moves [.mtime] s { s with mtime := x } :=
  .plain (fun y h => by cases y <;> first | rfl | exact fun _ => rfl | exact absurd h (by decide)) rfl rfl rfl rfl rfl rfl
/-- One field replaced. -/
theorem Moves.set_slice (s : State) (x : Vector Slice 48) : Moves [.slice] s { s with slice := x } :=
  .plain (fun y h => by cases y <;> first | rfl | exact fun _ => rfl | exact absurd h (by decide)) rfl rfl rfl rfl rfl rfl
/-- One field replaced. -/
theorem Moves.set_lane (s : State) (x : Vector Lane 24) : Moves [.lane] s { s with lane := x } :=
  .plain (fun y h => by cases y <;> first | rfl | exact fun _ => rfl | exact absurd h (by decide)) rfl rfl rfl rfl rfl rfl
/-- One field replaced. -/
theorem Moves.set_pool (s : State) (x : Pool) : Moves [.pool] s { s with pool := x } :=
  .plain (fun y h => by cases y <;> first | rfl | exact fun _ => rfl | exact absurd h (by decide)) rfl rfl rfl rfl rfl rfl
/-- One field replaced. -/
theorem Moves.set_mems (s : State) (x : Mems) : Moves [.mems] s { s with mems := x } :=
  .plain (fun y h => by cases y <;> first | rfl | exact fun _ => rfl | exact absurd h (by decide)) rfl rfl rfl rfl rfl rfl
/-- One field replaced. -/
theorem Moves.set_wsl (s : State) (x : WriterSlots) : Moves [.wsl] s { s with wsl := x } :=
  .plain (fun y h => by cases y <;> first | rfl | exact fun _ => rfl | exact absurd h (by decide)) rfl rfl rfl rfl rfl rfl
/-- One field replaced. -/
theorem Moves.set_lpe (s : State) (x : LoopArray) : Moves [.lpe] s { s with lpe := x } :=
  .plain (fun y h => by cases y <;> first | rfl | exact fun _ => rfl | exact absurd h (by decide)) rfl rfl rfl rfl rfl rfl
/-- One field replaced. -/
theorem Moves.set_trc (s : State) (x : Trace) : Moves [.trc] s { s with trc := x } :=
  .plain (fun y h => by cases y <;> first | rfl | exact fun _ => rfl | exact absurd h (by decide)) rfl rfl rfl rfl rfl rfl
/-- One field replaced. -/
theorem Moves.set_spn (s : State) (x : Spindle) : Moves [.spn] s { s with spn := x } :=
  .plain (fun y h => by cases y <;> first | rfl | exact fun _ => rfl | exact absurd h (by decide)) rfl rfl rfl rfl rfl rfl
/-- One field replaced. -/
theorem Moves.set_media (s : State) (x : MediaMap) : Moves [.media] s { s with media := x } :=
  .plain (fun y h => by cases y <;> first | rfl | exact fun _ => rfl | exact absurd h (by decide)) rfl rfl rfl rfl rfl rfl
/-- One field replaced. -/
theorem Moves.set_host (s : State) (x : HostLink) : Moves [.host] s { s with host := x } :=
  .plain (fun y h => by cases y <;> first | rfl | exact fun _ => rfl | exact absurd h (by decide)) rfl rfl rfl rfl rfl rfl
/-- One field replaced. -/
theorem Moves.set_q (s : State) (x : Queues) : Moves [.q] s { s with q := x } :=
  .plain (fun y h => by cases y <;> first | rfl | exact fun _ => rfl | exact absurd h (by decide)) rfl rfl rfl rfl rfl rfl
/-- One field replaced. -/
theorem Moves.set_het (s : State) (x : Hetos) : Moves [.het] s { s with het := x } :=
  .plain (fun y h => by cases y <;> first | rfl | exact fun _ => rfl | exact absurd h (by decide)) rfl rfl rfl rfl rfl rfl
/-- One field replaced. -/
theorem Moves.set_pwr (s : State) (x : Power) : Moves [.pwr] s { s with pwr := x } :=
  .plain (fun y h => by cases y <;> first | rfl | exact fun _ => rfl | exact absurd h (by decide)) rfl rfl rfl rfl rfl rfl
/-- One field replaced. -/
theorem Moves.set_sec (s : State) (x : Security) : Moves [.sec] s { s with sec := x } :=
  .plain (fun y h => by cases y <;> first | rfl | exact fun _ => rfl | exact absurd h (by decide)) rfl rfl rfl rfl rfl rfl
/-- One field replaced. -/
theorem Moves.set_evr (s : State) (x : Recorder) : Moves [.evr] s { s with evr := x } :=
  .plain (fun y h => by cases y <;> first | rfl | exact fun _ => rfl | exact absurd h (by decide)) rfl rfl rfl rfl rfl rfl
/-- One field replaced. -/
theorem Moves.set_rst (s : State) (x : ResetBlock) : Moves [.rst] s { s with rst := x } :=
  .plain (fun y h => by cases y <;> first | rfl | exact fun _ => rfl | exact absurd h (by decide)) rfl rfl rfl rfl rfl rfl
/-- One field replaced. -/
theorem Moves.set_out (s : State) (x : Outputs) : Moves [.out] s { s with out := x } :=
  .plain (fun y h => by cases y <;> first | rfl | exact fun _ => rfl | exact absurd h (by decide)) rfl rfl rfl rfl rfl rfl
/-- One field replaced. -/
theorem Moves.set_snaps (s : State) (x : List (Nat × Word)) : Moves [.snaps] s { s with snaps := x } :=
  .plain (fun y h => by cases y <;> first | rfl | exact fun _ => rfl | exact absurd h (by decide)) rfl rfl rfl rfl rfl rfl

/-! ### Modifiers -/

/-- It touches what it names. -/
theorem State.modReel_moves (s : State) (a : Eng) (f : Reel → Reel) : Moves [.reel] s (s.modReel a f) :=
  .plain (fun y h => by cases y <;> first | rfl | exact absurd h (by decide) | (intro i; simp; split <;> rfl) | exact fun _ => rfl) rfl rfl rfl rfl rfl rfl
/-- It touches what it names. -/
theorem State.modCmp_moves (s : State) (a : Eng) (c : CmpIx) (f : Comparator → Comparator) : Moves [.reel] s (s.modCmp a c f) :=
  .plain (fun y h => by cases y <;> first | rfl | exact absurd h (by decide) | (intro i; simp; split <;> rfl) | exact fun _ => rfl) rfl rfl rfl rfl rfl rfl
/-- It touches what it names. -/
theorem State.modLink_moves (s : State) (a : Eng) (l : LinkIx) (f : ArmLink → ArmLink) : Moves [.links] s (s.modLink a l f) :=
  .plain (fun y h => by cases y <;> first | rfl | exact absurd h (by decide) | (intro i; simp; split <;> rfl) | exact fun _ => rfl) rfl rfl rfl rfl rfl rfl
/-- It touches what it names. -/
theorem State.modRec_moves (s : State) (a : Eng) (f : Recovery → Recovery) : Moves [.recv] s (s.modRec a f) :=
  .plain (fun y h => by cases y <;> first | rfl | exact absurd h (by decide) | (intro i; simp; split <;> rfl) | exact fun _ => rfl) rfl rfl rfl rfl rfl rfl
/-- It touches what it names. -/
theorem State.modWrg_moves (s : State) (a : Eng) (f : WriteGuard → WriteGuard) : Moves [.wrg] s (s.modWrg a f) :=
  .plain (fun y h => by cases y <;> first | rfl | exact absurd h (by decide) | (intro i; simp; split <;> rfl) | exact fun _ => rfl) rfl rfl rfl rfl rfl rfl
/-- It touches what it names. -/
theorem State.modSrv_moves (s : State) (a : Eng) (f : Servo → Servo) : Moves [.engSrv] s (s.modSrv a f) :=
  .plain (fun y h => by cases y <;> first | rfl | exact absurd h (by decide) | (intro i; simp; split <;> rfl) | exact fun _ => rfl) rfl rfl rfl rfl rfl rfl
/-- It touches what it names. -/
theorem State.modSeq_moves (s : State) (a : Eng) (f : Sequencer → Sequencer) : Moves [.seq] s (s.modSeq a f) :=
  .plain (fun y h => by cases y <;> first | rfl | exact absurd h (by decide) | (intro i; simp; split <;> rfl) | exact fun _ => rfl) rfl rfl rfl rfl rfl rfl
/-- It touches what it names. -/
theorem State.modZdc_moves (s : State) (a : Eng) (f : Zdc → Zdc) : Moves [.zdc] s (s.modZdc a f) :=
  .plain (fun y h => by cases y <;> first | rfl | exact absurd h (by decide) | (intro i; simp; split <;> rfl) | exact fun _ => rfl) rfl rfl rfl rfl rfl rfl
/-- It touches what it names. -/
theorem State.modCore_moves (s : State) (a : Eng) (f : ActCore → ActCore) : Moves [.core] s (s.modCore a f) :=
  .plain (fun y h => by cases y <;> first | rfl | exact absurd h (by decide) | (intro i; simp; split <;> rfl) | exact fun _ => rfl) rfl rfl rfl rfl rfl rfl
/-- It touches what it names. -/
theorem State.modWr_moves (s : State) (g : Head) (f : HeadWrite → HeadWrite) : Moves [.wr] s (s.modWr g f) :=
  .plain (fun y h => by cases y <;> first | rfl | exact absurd h (by decide) | (intro i; simp; split <;> rfl) | exact fun _ => rfl) rfl rfl rfl rfl rfl rfl
/-- It touches what it names. -/
theorem State.modHs_moves (s : State) (g : Head) (f : HeadServo → HeadServo) : Moves [.headSrv] s (s.modHs g f) :=
  .plain (fun y h => by cases y <;> first | rfl | exact absurd h (by decide) | (intro i; simp; split <;> rfl) | exact fun _ => rfl) rfl rfl rfl rfl rfl rfl
/-- It touches what it names. -/
theorem State.modDet_moves (s : State) (g : Head) (f : DetRegs → DetRegs) : Moves [.det] s (s.modDet g f) :=
  .plain (fun y h => by cases y <;> first | rfl | exact absurd h (by decide) | (intro i; simp; split <;> rfl) | exact fun _ => rfl) rfl rfl rfl rfl rfl rfl
/-- It touches what it names. -/
theorem State.modMap_moves (s : State) (g : Head) (f : HeadMap → HeadMap) : Moves [.map] s (s.modMap g f) :=
  .plain (fun y h => by cases y <;> first | rfl | exact absurd h (by decide) | (intro i; simp; split <;> rfl) | exact fun _ => rfl) rfl rfl rfl rfl rfl rfl
/-- It touches what it names. -/
theorem State.modSlice_moves (s : State) (n : SliceIx) (f : Slice → Slice) : Moves [.slice] s (s.modSlice n f) :=
  .plain (fun y h => by cases y <;> first | rfl | exact absurd h (by decide) | exact fun _ => rfl) rfl rfl rfl rfl rfl rfl
/-- It touches what it names. -/
theorem State.modLane_moves (s : State) (l : LaneIx) (f : Lane → Lane) : Moves [.lane] s (s.modLane l f) :=
  .plain (fun y h => by cases y <;> first | rfl | exact absurd h (by decide) | exact fun _ => rfl) rfl rfl rfl rfl rfl rfl
/-- It touches what it names. -/
theorem State.modSlot_moves (s : State) (l : LaneIx) (k : SlotIx) (f : Slot → Slot) : Moves [.lane] s (s.modSlot l k f) :=
  .plain (fun y h => by cases y <;> first | rfl | exact absurd h (by decide) | exact fun _ => rfl) rfl rfl rfl rfl rfl rfl
/-- It touches what it names. -/
theorem State.modWsl_moves (s : State) (f : WriterSlots → WriterSlots) : Moves [.wsl] s (s.modWsl f) :=
  Moves.set_wsl ..
/-- It touches what it names. -/
theorem State.modPool_moves (s : State) (f : Pool → Pool) : Moves [.pool] s (s.modPool f) :=
  .plain (fun y h => by cases y <;> first | rfl | exact absurd h (by decide) | exact fun _ => rfl) rfl rfl rfl rfl rfl rfl
/-- It touches what it names. -/
theorem State.modLpe_moves (s : State) (f : LoopArray → LoopArray) : Moves [.lpe] s (s.modLpe f) :=
  .plain (fun y h => by cases y <;> first | rfl | exact absurd h (by decide) | exact fun _ => rfl) rfl rfl rfl rfl rfl rfl
/-- It touches what it names. -/
theorem State.modLoop_moves (s : State) (n : LoopIx) (f : LoopSlot → LoopSlot) : Moves [.lpe] s (s.modLoop n f) :=
  .plain (fun y h => by cases y <;> first | rfl | exact absurd h (by decide) | exact fun _ => rfl) rfl rfl rfl rfl rfl rfl
/-- It touches what it names. -/
theorem State.modTrc_moves (s : State) (f : Trace → Trace) : Moves [.trc] s (s.modTrc f) :=
  .plain (fun y h => by cases y <;> first | rfl | exact absurd h (by decide) | exact fun _ => rfl) rfl rfl rfl rfl rfl rfl
/-- It touches what it names. -/
theorem State.modSpn_moves (s : State) (f : Spindle → Spindle) : Moves [.spn] s (s.modSpn f) :=
  .plain (fun y h => by cases y <;> first | rfl | exact absurd h (by decide) | exact fun _ => rfl) rfl rfl rfl rfl rfl rfl
/-- It touches what it names. -/
theorem State.modMedia_moves (s : State) (f : MediaMap → MediaMap) : Moves [.media] s (s.modMedia f) :=
  .plain (fun y h => by cases y <;> first | rfl | exact absurd h (by decide) | exact fun _ => rfl) rfl rfl rfl rfl rfl rfl
/-- It touches what it names. -/
theorem State.modHost_moves (s : State) (f : HostLink → HostLink) : Moves [.host] s (s.modHost f) :=
  .plain (fun y h => by cases y <;> first | rfl | exact absurd h (by decide) | exact fun _ => rfl) rfl rfl rfl rfl rfl rfl
/-- It touches what it names. -/
theorem State.modFn_moves (s : State) (n : Fn) (f : FnState → FnState) : Moves [.host] s (s.modFn n f) :=
  .plain (fun y h => by cases y <;> first | rfl | exact absurd h (by decide) | exact fun _ => rfl) rfl rfl rfl rfl rfl rfl
/-- It touches what it names. -/
theorem State.modQ_moves (s : State) (f : Queues → Queues) : Moves [.q] s (s.modQ f) :=
  .plain (fun y h => by cases y <;> first | rfl | exact absurd h (by decide) | exact fun _ => rfl) rfl rfl rfl rfl rfl rfl
/-- It touches what it names. -/
theorem State.modHet_moves (s : State) (f : Hetos → Hetos) : Moves [.het] s (s.modHet f) :=
  .plain (fun y h => by cases y <;> first | rfl | exact absurd h (by decide) | exact fun _ => rfl) rfl rfl rfl rfl rfl rfl
/-- It touches what it names. -/
theorem State.modPwr_moves (s : State) (f : Power → Power) : Moves [.pwr] s (s.modPwr f) :=
  .plain (fun y h => by cases y <;> first | rfl | exact absurd h (by decide) | exact fun _ => rfl) rfl rfl rfl rfl rfl rfl
/-- It touches what it names. -/
theorem State.modSec_moves (s : State) (f : Security → Security) : Moves [.sec] s (s.modSec f) :=
  .plain (fun y h => by cases y <;> first | rfl | exact absurd h (by decide) | exact fun _ => rfl) rfl rfl rfl rfl rfl rfl
/-- It touches what it names. -/
theorem State.modEvr_moves (s : State) (f : Recorder → Recorder) : Moves [.evr] s (s.modEvr f) :=
  .plain (fun y h => by cases y <;> first | rfl | exact absurd h (by decide) | exact fun _ => rfl) rfl rfl rfl rfl rfl rfl
/-- It touches what it names. -/
theorem State.modRst_moves (s : State) (f : ResetBlock → ResetBlock) : Moves [.rst] s (s.modRst f) :=
  .plain (fun y h => by cases y <;> first | rfl | exact absurd h (by decide) | exact fun _ => rfl) rfl rfl rfl rfl rfl rfl
/-- It touches what it names. -/
theorem State.modAct_moves (s : State) (a : Eng) (f : Actuator → Actuator) : Moves [.rst] s (s.modAct a f) :=
  .plain (fun y h => by cases y <;> first | rfl | exact absurd h (by decide) | exact fun _ => rfl) rfl rfl rfl rfl rfl rfl
/-- It touches what it names. -/
theorem State.modEpw_moves (s : State) (a : Eng) (f : EngPower → EngPower) : Moves [.pwr] s (s.modEpw a f) :=
  .plain (fun y h => by cases y <;> first | rfl | exact absurd h (by decide) | exact fun _ => rfl) rfl rfl rfl rfl rfl rfl
/-- It touches what it names. -/
theorem State.modHpw_moves (s : State) (g : Head) (f : HeadPower → HeadPower) : Moves [.pwr] s (s.modHpw g f) :=
  .plain (fun y h => by cases y <;> first | rfl | exact absurd h (by decide) | exact fun _ => rfl) rfl rfl rfl rfl rfl rfl
/-- It touches what it names. -/
theorem State.modOut_moves (s : State) (f : Outputs → Outputs) : Moves [.out] s (s.modOut f) :=
  .plain (fun y h => by cases y <;> first | rfl | exact absurd h (by decide) | exact fun _ => rfl) rfl rfl rfl rfl rfl rfl
/-- A head changed: the blocks the change leaves alone are the same. -/
theorem State.modHead_moves (m : List Part) (s : State) (g : Head) (f : HeadUnit → HeadUnit)
    (h1 : m.contains .rd = true ∨ ∀ u, (f u).rd = u.rd) (h2 : m.contains .det = true ∨ ∀ u, (f u).det = u.det)
    (h3 : m.contains .wr = true ∨ ∀ u, (f u).wr = u.wr) (h4 : m.contains .headSrv = true ∨ ∀ u, (f u).srv = u.srv)
    (h5 : m.contains .map = true ∨ ∀ u, (f u).map = u.map) (h6 : m.contains .freq = true ∨ ∀ u, (f u).freq = u.freq) :
    Moves m s (s.modHead g f) := by
  have k : ∀ {α : Type} (q : HeadUnit → α), (∀ u, q (f u) = q u) → ∀ i : Head, q ((s.modHead g f).head[i]) = q s.head[i] := by
    intro α q hq i
    simp only [State.modHead_head, Fin.getElem_fin, vmod_get]
    split
    · exact hq _
    · rfl
  refine .plain (fun y h => ?_) rfl rfl rfl rfl rfl rfl
  cases y
  case rd => exact h1.elim (fun hc => by rw [hc] at h; cases h) (fun hc => k (·.rd) hc)
  case det => exact h2.elim (fun hc => by rw [hc] at h; cases h) (fun hc => k (·.det) hc)
  case wr => exact h3.elim (fun hc => by rw [hc] at h; cases h) (fun hc => k (·.wr) hc)
  case headSrv => exact h4.elim (fun hc => by rw [hc] at h; cases h) (fun hc => k (·.srv) hc)
  case map => exact h5.elim (fun hc => by rw [hc] at h; cases h) (fun hc => k (·.map) hc)
  case freq => exact h6.elim (fun hc => by rw [hc] at h; cases h) (fun hc => k (·.freq) hc)
  all_goals first | rfl | exact fun _ => rfl
/-- The configuration area and medium records changed, the stored layout not. -/
theorem State.modNor_moves (s : State) (f : Nor → Nor) (h : ∀ n, (f n).layout = n.layout) : Moves [.nor] s (s.modNor f) :=
  .plain (fun y h => by cases y <;> first | rfl | exact absurd h (by decide) | exact fun _ => rfl) rfl rfl (h s.nor) rfl rfl rfl
/-- The memory block changed, the words it stores not. -/
theorem State.modMem_moves (s : State) (f : MemBlock → MemBlock) (h : ∀ m, (f m).dram = m.dram) (h' : ∀ m, (f m).local_ = m.local_) :
    Moves [.mem] s (s.modMem f) :=
  .plain (fun y h => by cases y <;> first | rfl | exact absurd h (by decide) | exact fun _ => rfl) rfl rfl rfl (h s.mem) (h' s.mem) rfl
/-- A free value taken. -/
theorem State.fresh_moves (s : State) : Moves [.free] s s.fresh.2 := Moves.set_free ..

end Sys2Proof.Machine
end

