-- ==== Sys2Proof/Laws/Memory.lean ====
section
/-! SUPPORT. The stored words of DDR4 and of the diagnostic window: every operation on them keeps the canonical form, a read after a write
to the same word gives the word written, and a write leaves every other word alone. -/

namespace Sys2Proof.Machine
open Sys2Proof

/-! ### Lists with rising keys -/

/-- A key set is the key looked for, or one of the list. -/
theorem mem_oset {β : Type} (l : List (Nat × β)) (k : Nat) (v : β) (x : Nat × β) (h : x ∈ oset l k v) : x = (k, v) ∨ x ∈ l := by
  induction l with
  | nil => simpa [oset] using h
  | cons y t ih =>
    obtain ⟨j, w⟩ := y
    unfold oset at h
    split at h
    · simpa using h
    · split at h
      · simp only [List.mem_cons] at h ⊢; tauto
      · simp only [List.mem_cons] at h ⊢
        rcases h with h | h
        · exact .inr (.inl h)
        · rcases ih h with h | h
          · exact .inl h
          · exact .inr (.inr h)

/-- Setting a key keeps the keys rising. -/
theorem oset_rising {β : Type} (l : List (Nat × β)) (k : Nat) (v : β) (h : l.Pairwise fun x y => x.1 < y.1) :
    (oset l k v).Pairwise fun x y => x.1 < y.1 := by
  induction l with
  | nil => simp [oset]
  | cons y t ih =>
    obtain ⟨j, w⟩ := y
    have h1 := List.pairwise_cons.mp h
    unfold oset
    split
    · rename_i hk
      refine List.pairwise_cons.mpr ⟨?_, h⟩
      intro x hx
      rcases List.mem_cons.mp hx with rfl | hx
      · exact hk
      · exact Nat.lt_trans hk (h1.1 x hx)
    · split
      · rename_i hk; subst hk; exact List.pairwise_cons.mpr ⟨h1.1, h1.2⟩
      · rename_i hk hk2
        refine List.pairwise_cons.mpr ⟨?_, ih h1.2⟩
        intro x hx
        rcases mem_oset _ _ _ _ hx with rfl | hx
        · exact Nat.lt_of_le_of_ne (Nat.le_of_not_lt hk) (Ne.symm hk2)
        · exact h1.1 x hx

/-- The key set reads as the value set. -/
theorem alookup_oset_self {β : Type} (l : List (Nat × β)) (k : Nat) (v : β) (h : l.Pairwise fun x y => x.1 < y.1) :
    alookup (oset l k v) k = some v := by
  induction l with
  | nil => simp [oset, alookup]
  | cons y t ih =>
    obtain ⟨j, w⟩ := y
    unfold oset
    split
    · simp [alookup]
    · split
      · simp [alookup]
      · rename_i hk2
        have := ih (List.pairwise_cons.mp h).2
        simp only [alookup, List.find?_cons] at this ⊢
        simpa [Ne.symm hk2] using this

/-- Any other key reads as before. -/
theorem alookup_oset_other {β : Type} (l : List (Nat × β)) (k i : Nat) (v : β) (h : i ≠ k) : alookup (oset l k v) i = alookup l i := by
  induction l with
  | nil => simp [oset, alookup, Ne.symm h]
  | cons y t ih =>
    obtain ⟨j, w⟩ := y
    unfold oset
    split
    · simp [alookup, List.find?_cons, Ne.symm h]
    · split
      · rename_i hk; subst hk; simp [alookup, List.find?_cons, Ne.symm h]
      · simp only [alookup, List.find?_cons] at ih ⊢
        split
        · rfl
        · exact ih

/-- A key removed is not listed. -/
theorem alookup_oerase_self {β : Type} (l : List (Nat × β)) (k : Nat) : alookup (oerase l k) k = none := by
  simp [alookup, oerase, List.find?_eq_none]

/-- Any other key reads as before. -/
theorem alookup_oerase_other {β : Type} (l : List (Nat × β)) (k i : Nat) (h : i ≠ k) : alookup (oerase l k) i = alookup l i := by
  induction l with
  | nil => rfl
  | cons y t ih =>
    simp only [alookup, oerase, List.filter_cons, List.find?_cons] at ih ⊢
    by_cases hy : y.1 = k
    · have : ¬ y.1 = i := fun e => h (e.symm.trans hy)
      simp [hy, Ne.symm h] at ih ⊢
      exact ih
    · simp only [hy, ne_eq, not_false_eq_true, decide_true, if_true, List.find?_cons]
      split
      · rfl
      · exact ih

/-! ### The words of DDR4 -/

/-- A write keeps the canonical form. -/
theorem Memory.wf_write (m : List (Nat × EccWord)) (w : Nat) (v : EccWord) (h : Memory.wf m = true) :
    Memory.wf (Memory.write m w v) = true := by
  simp only [Memory.wf, Bool.and_eq_true, decide_eq_true_eq, List.all_eq_true] at h ⊢
  unfold Memory.write
  split
  · exact ⟨h.1.filter _, fun x hx => h.2 x (List.mem_of_mem_filter hx)⟩
  · rename_i hv
    refine ⟨oset_rising _ _ _ h.1, fun x hx => ?_⟩
    rcases mem_oset _ _ _ _ hx with rfl | hx
    · simpa using hv
    · exact h.2 x hx

/-- Words dropped keep it. -/
theorem Memory.wf_filter (m : List (Nat × EccWord)) (q : Nat × EccWord → Bool) (h : Memory.wf m = true) :
    Memory.wf (m.filter q) = true := by
  simp only [Memory.wf, Bool.and_eq_true, decide_eq_true_eq, List.all_eq_true] at h ⊢
  exact ⟨h.1.filter _, fun x hx => h.2 x (List.mem_of_mem_filter hx)⟩

/-- The word written is read. -/
theorem Memory.read_write_self (m : List (Nat × EccWord)) (w : Nat) (v : EccWord) (h : Memory.wf m = true) :
    Memory.read (Memory.write m w v) w = v := by
  simp only [Memory.wf, Bool.and_eq_true, decide_eq_true_eq] at h
  unfold Memory.read Memory.write
  split
  · rename_i hv; rw [alookup_oerase_self, hv]; rfl
  · rw [alookup_oset_self _ _ _ h.1]; rfl

/-- Every other word reads as before. -/
theorem Memory.read_write_other (m : List (Nat × EccWord)) (w i : Nat) (v : EccWord) (h : i ≠ w) :
    Memory.read (Memory.write m w v) i = Memory.read m i := by
  unfold Memory.read Memory.write
  split
  · rw [alookup_oerase_other _ _ _ h]
  · rw [alookup_oset_other _ _ _ _ h]

/-- A write to the diagnostic window of processor local memory keeps its canonical form. -/
theorem Memory.localWf_write (m : List (Nat × EccWord)) (w : Nat) (v : EccWord) (h : Memory.localWf m = true) :
    Memory.localWf (if v = EccWord.fresh 0 then oerase m w else oset m w v) = true := by
  simp only [Memory.localWf, Bool.and_eq_true, decide_eq_true_eq, List.all_eq_true] at h ⊢
  split
  · exact ⟨h.1.filter _, fun x hx => h.2 x (List.mem_of_mem_filter hx)⟩
  · rename_i hv
    refine ⟨oset_rising _ _ _ h.1, fun x hx => ?_⟩
    rcases mem_oset _ _ _ _ hx with rfl | hx
    · simpa using hv
    · exact h.2 x hx

/-- A change of the memory block that keeps the canonical forms. -/
theorem State.modMem_wf (s : State) (f : MemBlock → MemBlock) (h : ∀ m, Memory.wf m.dram = true → Memory.wf (f m).dram = true)
    (h' : ∀ m, Memory.localWf m.local_ = true → Memory.localWf (f m).local_ = true) : Moves [.mem] s (s.modMem f) where
  same := fun y hy => by cases y <;> first | rfl | exact absurd hy (by decide) | exact fun _ => rfl
  queue := rfl
  dram := h s.mem
  window := h' s.mem
  stored := id
  inEffect := fun _ g => g
  raised := Nat.le_refl _
  top := id
  revoked := by simp
  ident := rfl

end Sys2Proof.Machine
end

