-- ==== Sys2Proof/Laws/Operands.lean ====
section
/-! SUPPORT. What clamping does to a parameter word of one field (R515). -/

namespace Sys2Proof.Machine
open Sys2Proof

/-- The low bits of a word as a field. -/
theorem fld_whole (w : Word) : fld w 31 0 = w.toNat := by
  simp only [fld, Nat.pow_zero, Nat.div_one]
  exact Nat.mod_eq_of_lt w.isLt

/-- A word whose one field takes all its bits is clamped to the range as a number. -/
theorem clampWord_whole (a b : Nat) (old sent : Word) :
    clampWord [fIn 31 0 (a : Int) (b : Int)] old sent = nw (max a (min sent.toNat b)) := by
  have h1 : (Field.stored (fIn 31 0 (a : Int) (b : Int)) old sent) = ((max a (min sent.toNat b) : Nat) : Int) := by
    simp only [Field.stored, fIn, Field.value, clampInt, fld_whole]
    push_cast
    rfl
  have h2 : bfi 31 0 ((max a (min sent.toNat b) : Nat) : Int) = max a (min sent.toNat b) % 2 ^ 32 := by
    simp only [bfi, Nat.pow_zero, Nat.mul_one]
    exact_mod_cast rfl
  simp only [clampWord, List.map_cons, List.map_nil, h1, mkw, List.sum_cons, List.sum_nil, nw]
  show BitVec.ofNat 32 (bfi 31 0 _ + 0) = _
  rw [h2]
  apply BitVec.eq_of_toNat_eq
  simp

/-- It lies in the range. -/
theorem clampWord_range (a b : Nat) (old sent : Word) (hab : a ≤ b) (hb : b < 2 ^ 32) :
    a ≤ (clampWord [fIn 31 0 (a : Int) (b : Int)] old sent).toNat ∧ (clampWord [fIn 31 0 (a : Int) (b : Int)] old sent).toNat ≤ b := by
  rw [clampWord_whole a b old sent]
  have : max a (min sent.toNat b) ≤ b := by omega
  simp only [nw, BitVec.toNat_ofNat]
  rw [Nat.mod_eq_of_lt (by omega)]
  omega

/-- A two-bit field placed and read back. -/
theorem fld_bfi2 (v : Nat) (h : v < 4) : fld (mkw [bfi 1 0 (v : Int)]) 1 0 = v := by
  interval_cases v <;> rfl

end Sys2Proof.Machine
end

