-- ==== Sys2Proof/Laws/Record.lean ====
section
/-! SUPPORT. What raising an event does to the state: it changes the trace buffers and the recorder, and nothing else. -/

namespace Sys2Proof.Machine
open Sys2Proof
set_option Elab.async false

/-- A trigger changes the trace buffers only. -/
theorem State.traceTrigger_shape (s : State) (src : BitVec 3) : ∃ x, s.traceTrigger src = { s with trc := x } := ⟨_, rfl⟩

/-- A record pushed changes the recorder only. -/
theorem State.pushRecord_shape (s : State) (e : Event) : ∃ x, s.pushRecord e = { s with evr := x } := by
  unfold State.pushRecord
  dsimp only
  split
  · split
    · exact ⟨_, rfl⟩
    · exact ⟨_, rfl⟩
  · exact ⟨_, rfl⟩

/-- An event changes the trace buffers and the recorder only. -/
theorem State.record_shape (s : State) (type level index reg : Nat) (value : Word) (words : List Word) :
    ∃ x y, s.record type level index reg value words = { s with trc := x, evr := y } := by
  unfold State.record
  extract_lets hit trace e
  split
  · obtain ⟨x, hx⟩ := s.traceTrigger_shape 0b010
    obtain ⟨y, hy⟩ := (s.traceTrigger 0b010).pushRecord_shape e
    rw [hy, hx]
    exact ⟨x, y, rfl⟩
  · obtain ⟨y, hy⟩ := s.pushRecord_shape e
    rw [hy]
    exact ⟨s.trc, y, rfl⟩

/-- So does a CONDITION event. -/
theorem State.condition_shape (s : State) (subsys level index reg : Nat) (value : Word) (words : List Word) :
    ∃ x y, s.condition subsys level index reg value words = { s with trc := x, evr := y } := s.record_shape ..

/-- So does a VIOLATION event. -/
theorem State.violation_shape (s : State) (subsys level index reg : Nat) (value : Word) (words : List Word) :
    ∃ x y, s.violation subsys level index reg value words = { s with trc := x, evr := y } := s.record_shape ..

/-- So does the event of a full counter, where there is one. -/
theorem State.saturated_shape (s : State) (reached : Bool) (subsys level index reg : Nat) (value : Word) :
    ∃ x y, s.saturated reached subsys level index reg value = { s with trc := x, evr := y } := by
  unfold State.saturated
  split
  · exact s.record_shape ..
  · exact ⟨s.trc, s.evr, rfl⟩

/-! `State.record` -/
@[simp] theorem State.record_pending (s : State) (type level index reg : Nat) (value : Word) (words : List Word) : (s.record type level index reg value words).pending = s.pending := by
  obtain ⟨x, y, h⟩ := s.record_shape type level index reg value words; rw [h]
@[simp] theorem State.record_free (s : State) (type level index reg : Nat) (value : Word) (words : List Word) : (s.record type level index reg value words).free = s.free := by
  obtain ⟨x, y, h⟩ := s.record_shape type level index reg value words; rw [h]
@[simp] theorem State.record_mtime (s : State) (type level index reg : Nat) (value : Word) (words : List Word) : (s.record type level index reg value words).mtime = s.mtime := by
  obtain ⟨x, y, h⟩ := s.record_shape type level index reg value words; rw [h]
@[simp] theorem State.record_layout (s : State) (type level index reg : Nat) (value : Word) (words : List Word) : (s.record type level index reg value words).layout = s.layout := by
  obtain ⟨x, y, h⟩ := s.record_shape type level index reg value words; rw [h]
@[simp] theorem State.record_eng (s : State) (type level index reg : Nat) (value : Word) (words : List Word) : (s.record type level index reg value words).eng = s.eng := by
  obtain ⟨x, y, h⟩ := s.record_shape type level index reg value words; rw [h]
@[simp] theorem State.record_head (s : State) (type level index reg : Nat) (value : Word) (words : List Word) : (s.record type level index reg value words).head = s.head := by
  obtain ⟨x, y, h⟩ := s.record_shape type level index reg value words; rw [h]
@[simp] theorem State.record_slice (s : State) (type level index reg : Nat) (value : Word) (words : List Word) : (s.record type level index reg value words).slice = s.slice := by
  obtain ⟨x, y, h⟩ := s.record_shape type level index reg value words; rw [h]
@[simp] theorem State.record_lane (s : State) (type level index reg : Nat) (value : Word) (words : List Word) : (s.record type level index reg value words).lane = s.lane := by
  obtain ⟨x, y, h⟩ := s.record_shape type level index reg value words; rw [h]
@[simp] theorem State.record_pool (s : State) (type level index reg : Nat) (value : Word) (words : List Word) : (s.record type level index reg value words).pool = s.pool := by
  obtain ⟨x, y, h⟩ := s.record_shape type level index reg value words; rw [h]
@[simp] theorem State.record_mems (s : State) (type level index reg : Nat) (value : Word) (words : List Word) : (s.record type level index reg value words).mems = s.mems := by
  obtain ⟨x, y, h⟩ := s.record_shape type level index reg value words; rw [h]
@[simp] theorem State.record_wsl (s : State) (type level index reg : Nat) (value : Word) (words : List Word) : (s.record type level index reg value words).wsl = s.wsl := by
  obtain ⟨x, y, h⟩ := s.record_shape type level index reg value words; rw [h]
@[simp] theorem State.record_lpe (s : State) (type level index reg : Nat) (value : Word) (words : List Word) : (s.record type level index reg value words).lpe = s.lpe := by
  obtain ⟨x, y, h⟩ := s.record_shape type level index reg value words; rw [h]
@[simp] theorem State.record_spn (s : State) (type level index reg : Nat) (value : Word) (words : List Word) : (s.record type level index reg value words).spn = s.spn := by
  obtain ⟨x, y, h⟩ := s.record_shape type level index reg value words; rw [h]
@[simp] theorem State.record_media (s : State) (type level index reg : Nat) (value : Word) (words : List Word) : (s.record type level index reg value words).media = s.media := by
  obtain ⟨x, y, h⟩ := s.record_shape type level index reg value words; rw [h]
@[simp] theorem State.record_host (s : State) (type level index reg : Nat) (value : Word) (words : List Word) : (s.record type level index reg value words).host = s.host := by
  obtain ⟨x, y, h⟩ := s.record_shape type level index reg value words; rw [h]
@[simp] theorem State.record_q (s : State) (type level index reg : Nat) (value : Word) (words : List Word) : (s.record type level index reg value words).q = s.q := by
  obtain ⟨x, y, h⟩ := s.record_shape type level index reg value words; rw [h]
@[simp] theorem State.record_het (s : State) (type level index reg : Nat) (value : Word) (words : List Word) : (s.record type level index reg value words).het = s.het := by
  obtain ⟨x, y, h⟩ := s.record_shape type level index reg value words; rw [h]
@[simp] theorem State.record_pwr (s : State) (type level index reg : Nat) (value : Word) (words : List Word) : (s.record type level index reg value words).pwr = s.pwr := by
  obtain ⟨x, y, h⟩ := s.record_shape type level index reg value words; rw [h]
@[simp] theorem State.record_mem (s : State) (type level index reg : Nat) (value : Word) (words : List Word) : (s.record type level index reg value words).mem = s.mem := by
  obtain ⟨x, y, h⟩ := s.record_shape type level index reg value words; rw [h]
@[simp] theorem State.record_sec (s : State) (type level index reg : Nat) (value : Word) (words : List Word) : (s.record type level index reg value words).sec = s.sec := by
  obtain ⟨x, y, h⟩ := s.record_shape type level index reg value words; rw [h]
@[simp] theorem State.record_nor (s : State) (type level index reg : Nat) (value : Word) (words : List Word) : (s.record type level index reg value words).nor = s.nor := by
  obtain ⟨x, y, h⟩ := s.record_shape type level index reg value words; rw [h]
@[simp] theorem State.record_fuse (s : State) (type level index reg : Nat) (value : Word) (words : List Word) : (s.record type level index reg value words).fuse = s.fuse := by
  obtain ⟨x, y, h⟩ := s.record_shape type level index reg value words; rw [h]
@[simp] theorem State.record_rst (s : State) (type level index reg : Nat) (value : Word) (words : List Word) : (s.record type level index reg value words).rst = s.rst := by
  obtain ⟨x, y, h⟩ := s.record_shape type level index reg value words; rw [h]
@[simp] theorem State.record_out (s : State) (type level index reg : Nat) (value : Word) (words : List Word) : (s.record type level index reg value words).out = s.out := by
  obtain ⟨x, y, h⟩ := s.record_shape type level index reg value words; rw [h]
@[simp] theorem State.record_snaps (s : State) (type level index reg : Nat) (value : Word) (words : List Word) : (s.record type level index reg value words).snaps = s.snaps := by
  obtain ⟨x, y, h⟩ := s.record_shape type level index reg value words; rw [h]
/-! `State.condition` -/
@[simp] theorem State.condition_pending (s : State) (subsys level index reg : Nat) (value : Word) (words : List Word) : (s.condition subsys level index reg value words).pending = s.pending := by
  obtain ⟨x, y, h⟩ := s.condition_shape subsys level index reg value words; rw [h]
@[simp] theorem State.condition_free (s : State) (subsys level index reg : Nat) (value : Word) (words : List Word) : (s.condition subsys level index reg value words).free = s.free := by
  obtain ⟨x, y, h⟩ := s.condition_shape subsys level index reg value words; rw [h]
@[simp] theorem State.condition_mtime (s : State) (subsys level index reg : Nat) (value : Word) (words : List Word) : (s.condition subsys level index reg value words).mtime = s.mtime := by
  obtain ⟨x, y, h⟩ := s.condition_shape subsys level index reg value words; rw [h]
@[simp] theorem State.condition_layout (s : State) (subsys level index reg : Nat) (value : Word) (words : List Word) : (s.condition subsys level index reg value words).layout = s.layout := by
  obtain ⟨x, y, h⟩ := s.condition_shape subsys level index reg value words; rw [h]
@[simp] theorem State.condition_eng (s : State) (subsys level index reg : Nat) (value : Word) (words : List Word) : (s.condition subsys level index reg value words).eng = s.eng := by
  obtain ⟨x, y, h⟩ := s.condition_shape subsys level index reg value words; rw [h]
@[simp] theorem State.condition_head (s : State) (subsys level index reg : Nat) (value : Word) (words : List Word) : (s.condition subsys level index reg value words).head = s.head := by
  obtain ⟨x, y, h⟩ := s.condition_shape subsys level index reg value words; rw [h]
@[simp] theorem State.condition_slice (s : State) (subsys level index reg : Nat) (value : Word) (words : List Word) : (s.condition subsys level index reg value words).slice = s.slice := by
  obtain ⟨x, y, h⟩ := s.condition_shape subsys level index reg value words; rw [h]
@[simp] theorem State.condition_lane (s : State) (subsys level index reg : Nat) (value : Word) (words : List Word) : (s.condition subsys level index reg value words).lane = s.lane := by
  obtain ⟨x, y, h⟩ := s.condition_shape subsys level index reg value words; rw [h]
@[simp] theorem State.condition_pool (s : State) (subsys level index reg : Nat) (value : Word) (words : List Word) : (s.condition subsys level index reg value words).pool = s.pool := by
  obtain ⟨x, y, h⟩ := s.condition_shape subsys level index reg value words; rw [h]
@[simp] theorem State.condition_mems (s : State) (subsys level index reg : Nat) (value : Word) (words : List Word) : (s.condition subsys level index reg value words).mems = s.mems := by
  obtain ⟨x, y, h⟩ := s.condition_shape subsys level index reg value words; rw [h]
@[simp] theorem State.condition_wsl (s : State) (subsys level index reg : Nat) (value : Word) (words : List Word) : (s.condition subsys level index reg value words).wsl = s.wsl := by
  obtain ⟨x, y, h⟩ := s.condition_shape subsys level index reg value words; rw [h]
@[simp] theorem State.condition_lpe (s : State) (subsys level index reg : Nat) (value : Word) (words : List Word) : (s.condition subsys level index reg value words).lpe = s.lpe := by
  obtain ⟨x, y, h⟩ := s.condition_shape subsys level index reg value words; rw [h]
@[simp] theorem State.condition_spn (s : State) (subsys level index reg : Nat) (value : Word) (words : List Word) : (s.condition subsys level index reg value words).spn = s.spn := by
  obtain ⟨x, y, h⟩ := s.condition_shape subsys level index reg value words; rw [h]
@[simp] theorem State.condition_media (s : State) (subsys level index reg : Nat) (value : Word) (words : List Word) : (s.condition subsys level index reg value words).media = s.media := by
  obtain ⟨x, y, h⟩ := s.condition_shape subsys level index reg value words; rw [h]
@[simp] theorem State.condition_host (s : State) (subsys level index reg : Nat) (value : Word) (words : List Word) : (s.condition subsys level index reg value words).host = s.host := by
  obtain ⟨x, y, h⟩ := s.condition_shape subsys level index reg value words; rw [h]
@[simp] theorem State.condition_q (s : State) (subsys level index reg : Nat) (value : Word) (words : List Word) : (s.condition subsys level index reg value words).q = s.q := by
  obtain ⟨x, y, h⟩ := s.condition_shape subsys level index reg value words; rw [h]
@[simp] theorem State.condition_het (s : State) (subsys level index reg : Nat) (value : Word) (words : List Word) : (s.condition subsys level index reg value words).het = s.het := by
  obtain ⟨x, y, h⟩ := s.condition_shape subsys level index reg value words; rw [h]
@[simp] theorem State.condition_pwr (s : State) (subsys level index reg : Nat) (value : Word) (words : List Word) : (s.condition subsys level index reg value words).pwr = s.pwr := by
  obtain ⟨x, y, h⟩ := s.condition_shape subsys level index reg value words; rw [h]
@[simp] theorem State.condition_mem (s : State) (subsys level index reg : Nat) (value : Word) (words : List Word) : (s.condition subsys level index reg value words).mem = s.mem := by
  obtain ⟨x, y, h⟩ := s.condition_shape subsys level index reg value words; rw [h]
@[simp] theorem State.condition_sec (s : State) (subsys level index reg : Nat) (value : Word) (words : List Word) : (s.condition subsys level index reg value words).sec = s.sec := by
  obtain ⟨x, y, h⟩ := s.condition_shape subsys level index reg value words; rw [h]
@[simp] theorem State.condition_nor (s : State) (subsys level index reg : Nat) (value : Word) (words : List Word) : (s.condition subsys level index reg value words).nor = s.nor := by
  obtain ⟨x, y, h⟩ := s.condition_shape subsys level index reg value words; rw [h]
@[simp] theorem State.condition_fuse (s : State) (subsys level index reg : Nat) (value : Word) (words : List Word) : (s.condition subsys level index reg value words).fuse = s.fuse := by
  obtain ⟨x, y, h⟩ := s.condition_shape subsys level index reg value words; rw [h]
@[simp] theorem State.condition_rst (s : State) (subsys level index reg : Nat) (value : Word) (words : List Word) : (s.condition subsys level index reg value words).rst = s.rst := by
  obtain ⟨x, y, h⟩ := s.condition_shape subsys level index reg value words; rw [h]
@[simp] theorem State.condition_out (s : State) (subsys level index reg : Nat) (value : Word) (words : List Word) : (s.condition subsys level index reg value words).out = s.out := by
  obtain ⟨x, y, h⟩ := s.condition_shape subsys level index reg value words; rw [h]
@[simp] theorem State.condition_snaps (s : State) (subsys level index reg : Nat) (value : Word) (words : List Word) : (s.condition subsys level index reg value words).snaps = s.snaps := by
  obtain ⟨x, y, h⟩ := s.condition_shape subsys level index reg value words; rw [h]
/-! `State.violation` -/
@[simp] theorem State.violation_pending (s : State) (subsys level index reg : Nat) (value : Word) (words : List Word) : (s.violation subsys level index reg value words).pending = s.pending := by
  obtain ⟨x, y, h⟩ := s.violation_shape subsys level index reg value words; rw [h]
@[simp] theorem State.violation_free (s : State) (subsys level index reg : Nat) (value : Word) (words : List Word) : (s.violation subsys level index reg value words).free = s.free := by
  obtain ⟨x, y, h⟩ := s.violation_shape subsys level index reg value words; rw [h]
@[simp] theorem State.violation_mtime (s : State) (subsys level index reg : Nat) (value : Word) (words : List Word) : (s.violation subsys level index reg value words).mtime = s.mtime := by
  obtain ⟨x, y, h⟩ := s.violation_shape subsys level index reg value words; rw [h]
@[simp] theorem State.violation_layout (s : State) (subsys level index reg : Nat) (value : Word) (words : List Word) : (s.violation subsys level index reg value words).layout = s.layout := by
  obtain ⟨x, y, h⟩ := s.violation_shape subsys level index reg value words; rw [h]
@[simp] theorem State.violation_eng (s : State) (subsys level index reg : Nat) (value : Word) (words : List Word) : (s.violation subsys level index reg value words).eng = s.eng := by
  obtain ⟨x, y, h⟩ := s.violation_shape subsys level index reg value words; rw [h]
@[simp] theorem State.violation_head (s : State) (subsys level index reg : Nat) (value : Word) (words : List Word) : (s.violation subsys level index reg value words).head = s.head := by
  obtain ⟨x, y, h⟩ := s.violation_shape subsys level index reg value words; rw [h]
@[simp] theorem State.violation_slice (s : State) (subsys level index reg : Nat) (value : Word) (words : List Word) : (s.violation subsys level index reg value words).slice = s.slice := by
  obtain ⟨x, y, h⟩ := s.violation_shape subsys level index reg value words; rw [h]
@[simp] theorem State.violation_lane (s : State) (subsys level index reg : Nat) (value : Word) (words : List Word) : (s.violation subsys level index reg value words).lane = s.lane := by
  obtain ⟨x, y, h⟩ := s.violation_shape subsys level index reg value words; rw [h]
@[simp] theorem State.violation_pool (s : State) (subsys level index reg : Nat) (value : Word) (words : List Word) : (s.violation subsys level index reg value words).pool = s.pool := by
  obtain ⟨x, y, h⟩ := s.violation_shape subsys level index reg value words; rw [h]
@[simp] theorem State.violation_mems (s : State) (subsys level index reg : Nat) (value : Word) (words : List Word) : (s.violation subsys level index reg value words).mems = s.mems := by
  obtain ⟨x, y, h⟩ := s.violation_shape subsys level index reg value words; rw [h]
@[simp] theorem State.violation_wsl (s : State) (subsys level index reg : Nat) (value : Word) (words : List Word) : (s.violation subsys level index reg value words).wsl = s.wsl := by
  obtain ⟨x, y, h⟩ := s.violation_shape subsys level index reg value words; rw [h]
@[simp] theorem State.violation_lpe (s : State) (subsys level index reg : Nat) (value : Word) (words : List Word) : (s.violation subsys level index reg value words).lpe = s.lpe := by
  obtain ⟨x, y, h⟩ := s.violation_shape subsys level index reg value words; rw [h]
@[simp] theorem State.violation_spn (s : State) (subsys level index reg : Nat) (value : Word) (words : List Word) : (s.violation subsys level index reg value words).spn = s.spn := by
  obtain ⟨x, y, h⟩ := s.violation_shape subsys level index reg value words; rw [h]
@[simp] theorem State.violation_media (s : State) (subsys level index reg : Nat) (value : Word) (words : List Word) : (s.violation subsys level index reg value words).media = s.media := by
  obtain ⟨x, y, h⟩ := s.violation_shape subsys level index reg value words; rw [h]
@[simp] theorem State.violation_host (s : State) (subsys level index reg : Nat) (value : Word) (words : List Word) : (s.violation subsys level index reg value words).host = s.host := by
  obtain ⟨x, y, h⟩ := s.violation_shape subsys level index reg value words; rw [h]
@[simp] theorem State.violation_q (s : State) (subsys level index reg : Nat) (value : Word) (words : List Word) : (s.violation subsys level index reg value words).q = s.q := by
  obtain ⟨x, y, h⟩ := s.violation_shape subsys level index reg value words; rw [h]
@[simp] theorem State.violation_het (s : State) (subsys level index reg : Nat) (value : Word) (words : List Word) : (s.violation subsys level index reg value words).het = s.het := by
  obtain ⟨x, y, h⟩ := s.violation_shape subsys level index reg value words; rw [h]
@[simp] theorem State.violation_pwr (s : State) (subsys level index reg : Nat) (value : Word) (words : List Word) : (s.violation subsys level index reg value words).pwr = s.pwr := by
  obtain ⟨x, y, h⟩ := s.violation_shape subsys level index reg value words; rw [h]
@[simp] theorem State.violation_mem (s : State) (subsys level index reg : Nat) (value : Word) (words : List Word) : (s.violation subsys level index reg value words).mem = s.mem := by
  obtain ⟨x, y, h⟩ := s.violation_shape subsys level index reg value words; rw [h]
@[simp] theorem State.violation_sec (s : State) (subsys level index reg : Nat) (value : Word) (words : List Word) : (s.violation subsys level index reg value words).sec = s.sec := by
  obtain ⟨x, y, h⟩ := s.violation_shape subsys level index reg value words; rw [h]
@[simp] theorem State.violation_nor (s : State) (subsys level index reg : Nat) (value : Word) (words : List Word) : (s.violation subsys level index reg value words).nor = s.nor := by
  obtain ⟨x, y, h⟩ := s.violation_shape subsys level index reg value words; rw [h]
@[simp] theorem State.violation_fuse (s : State) (subsys level index reg : Nat) (value : Word) (words : List Word) : (s.violation subsys level index reg value words).fuse = s.fuse := by
  obtain ⟨x, y, h⟩ := s.violation_shape subsys level index reg value words; rw [h]
@[simp] theorem State.violation_rst (s : State) (subsys level index reg : Nat) (value : Word) (words : List Word) : (s.violation subsys level index reg value words).rst = s.rst := by
  obtain ⟨x, y, h⟩ := s.violation_shape subsys level index reg value words; rw [h]
@[simp] theorem State.violation_out (s : State) (subsys level index reg : Nat) (value : Word) (words : List Word) : (s.violation subsys level index reg value words).out = s.out := by
  obtain ⟨x, y, h⟩ := s.violation_shape subsys level index reg value words; rw [h]
@[simp] theorem State.violation_snaps (s : State) (subsys level index reg : Nat) (value : Word) (words : List Word) : (s.violation subsys level index reg value words).snaps = s.snaps := by
  obtain ⟨x, y, h⟩ := s.violation_shape subsys level index reg value words; rw [h]
/-! `State.saturated` -/
@[simp] theorem State.saturated_pending (s : State) (reached : Bool) (subsys level index reg : Nat) (value : Word) : (s.saturated reached subsys level index reg value).pending = s.pending := by
  obtain ⟨x, y, h⟩ := s.saturated_shape reached subsys level index reg value; rw [h]
@[simp] theorem State.saturated_free (s : State) (reached : Bool) (subsys level index reg : Nat) (value : Word) : (s.saturated reached subsys level index reg value).free = s.free := by
  obtain ⟨x, y, h⟩ := s.saturated_shape reached subsys level index reg value; rw [h]
@[simp] theorem State.saturated_mtime (s : State) (reached : Bool) (subsys level index reg : Nat) (value : Word) : (s.saturated reached subsys level index reg value).mtime = s.mtime := by
  obtain ⟨x, y, h⟩ := s.saturated_shape reached subsys level index reg value; rw [h]
@[simp] theorem State.saturated_layout (s : State) (reached : Bool) (subsys level index reg : Nat) (value : Word) : (s.saturated reached subsys level index reg value).layout = s.layout := by
  obtain ⟨x, y, h⟩ := s.saturated_shape reached subsys level index reg value; rw [h]
@[simp] theorem State.saturated_eng (s : State) (reached : Bool) (subsys level index reg : Nat) (value : Word) : (s.saturated reached subsys level index reg value).eng = s.eng := by
  obtain ⟨x, y, h⟩ := s.saturated_shape reached subsys level index reg value; rw [h]
@[simp] theorem State.saturated_head (s : State) (reached : Bool) (subsys level index reg : Nat) (value : Word) : (s.saturated reached subsys level index reg value).head = s.head := by
  obtain ⟨x, y, h⟩ := s.saturated_shape reached subsys level index reg value; rw [h]
@[simp] theorem State.saturated_slice (s : State) (reached : Bool) (subsys level index reg : Nat) (value : Word) : (s.saturated reached subsys level index reg value).slice = s.slice := by
  obtain ⟨x, y, h⟩ := s.saturated_shape reached subsys level index reg value; rw [h]
@[simp] theorem State.saturated_lane (s : State) (reached : Bool) (subsys level index reg : Nat) (value : Word) : (s.saturated reached subsys level index reg value).lane = s.lane := by
  obtain ⟨x, y, h⟩ := s.saturated_shape reached subsys level index reg value; rw [h]
@[simp] theorem State.saturated_pool (s : State) (reached : Bool) (subsys level index reg : Nat) (value : Word) : (s.saturated reached subsys level index reg value).pool = s.pool := by
  obtain ⟨x, y, h⟩ := s.saturated_shape reached subsys level index reg value; rw [h]
@[simp] theorem State.saturated_mems (s : State) (reached : Bool) (subsys level index reg : Nat) (value : Word) : (s.saturated reached subsys level index reg value).mems = s.mems := by
  obtain ⟨x, y, h⟩ := s.saturated_shape reached subsys level index reg value; rw [h]
@[simp] theorem State.saturated_wsl (s : State) (reached : Bool) (subsys level index reg : Nat) (value : Word) : (s.saturated reached subsys level index reg value).wsl = s.wsl := by
  obtain ⟨x, y, h⟩ := s.saturated_shape reached subsys level index reg value; rw [h]
@[simp] theorem State.saturated_lpe (s : State) (reached : Bool) (subsys level index reg : Nat) (value : Word) : (s.saturated reached subsys level index reg value).lpe = s.lpe := by
  obtain ⟨x, y, h⟩ := s.saturated_shape reached subsys level index reg value; rw [h]
@[simp] theorem State.saturated_spn (s : State) (reached : Bool) (subsys level index reg : Nat) (value : Word) : (s.saturated reached subsys level index reg value).spn = s.spn := by
  obtain ⟨x, y, h⟩ := s.saturated_shape reached subsys level index reg value; rw [h]
@[simp] theorem State.saturated_media (s : State) (reached : Bool) (subsys level index reg : Nat) (value : Word) : (s.saturated reached subsys level index reg value).media = s.media := by
  obtain ⟨x, y, h⟩ := s.saturated_shape reached subsys level index reg value; rw [h]
@[simp] theorem State.saturated_host (s : State) (reached : Bool) (subsys level index reg : Nat) (value : Word) : (s.saturated reached subsys level index reg value).host = s.host := by
  obtain ⟨x, y, h⟩ := s.saturated_shape reached subsys level index reg value; rw [h]
@[simp] theorem State.saturated_q (s : State) (reached : Bool) (subsys level index reg : Nat) (value : Word) : (s.saturated reached subsys level index reg value).q = s.q := by
  obtain ⟨x, y, h⟩ := s.saturated_shape reached subsys level index reg value; rw [h]
@[simp] theorem State.saturated_het (s : State) (reached : Bool) (subsys level index reg : Nat) (value : Word) : (s.saturated reached subsys level index reg value).het = s.het := by
  obtain ⟨x, y, h⟩ := s.saturated_shape reached subsys level index reg value; rw [h]
@[simp] theorem State.saturated_pwr (s : State) (reached : Bool) (subsys level index reg : Nat) (value : Word) : (s.saturated reached subsys level index reg value).pwr = s.pwr := by
  obtain ⟨x, y, h⟩ := s.saturated_shape reached subsys level index reg value; rw [h]
@[simp] theorem State.saturated_mem (s : State) (reached : Bool) (subsys level index reg : Nat) (value : Word) : (s.saturated reached subsys level index reg value).mem = s.mem := by
  obtain ⟨x, y, h⟩ := s.saturated_shape reached subsys level index reg value; rw [h]
@[simp] theorem State.saturated_sec (s : State) (reached : Bool) (subsys level index reg : Nat) (value : Word) : (s.saturated reached subsys level index reg value).sec = s.sec := by
  obtain ⟨x, y, h⟩ := s.saturated_shape reached subsys level index reg value; rw [h]
@[simp] theorem State.saturated_nor (s : State) (reached : Bool) (subsys level index reg : Nat) (value : Word) : (s.saturated reached subsys level index reg value).nor = s.nor := by
  obtain ⟨x, y, h⟩ := s.saturated_shape reached subsys level index reg value; rw [h]
@[simp] theorem State.saturated_fuse (s : State) (reached : Bool) (subsys level index reg : Nat) (value : Word) : (s.saturated reached subsys level index reg value).fuse = s.fuse := by
  obtain ⟨x, y, h⟩ := s.saturated_shape reached subsys level index reg value; rw [h]
@[simp] theorem State.saturated_rst (s : State) (reached : Bool) (subsys level index reg : Nat) (value : Word) : (s.saturated reached subsys level index reg value).rst = s.rst := by
  obtain ⟨x, y, h⟩ := s.saturated_shape reached subsys level index reg value; rw [h]
@[simp] theorem State.saturated_out (s : State) (reached : Bool) (subsys level index reg : Nat) (value : Word) : (s.saturated reached subsys level index reg value).out = s.out := by
  obtain ⟨x, y, h⟩ := s.saturated_shape reached subsys level index reg value; rw [h]
@[simp] theorem State.saturated_snaps (s : State) (reached : Bool) (subsys level index reg : Nat) (value : Word) : (s.saturated reached subsys level index reg value).snaps = s.snaps := by
  obtain ⟨x, y, h⟩ := s.saturated_shape reached subsys level index reg value; rw [h]
/-! `State.condReel` -/
@[simp] theorem State.condReel_pending (s : State) (a : Eng) : (s.condReel a).pending = s.pending := State.condition_pending ..
@[simp] theorem State.condReel_free (s : State) (a : Eng) : (s.condReel a).free = s.free := State.condition_free ..
@[simp] theorem State.condReel_mtime (s : State) (a : Eng) : (s.condReel a).mtime = s.mtime := State.condition_mtime ..
@[simp] theorem State.condReel_layout (s : State) (a : Eng) : (s.condReel a).layout = s.layout := State.condition_layout ..
@[simp] theorem State.condReel_eng (s : State) (a : Eng) : (s.condReel a).eng = s.eng := State.condition_eng ..
@[simp] theorem State.condReel_head (s : State) (a : Eng) : (s.condReel a).head = s.head := State.condition_head ..
@[simp] theorem State.condReel_slice (s : State) (a : Eng) : (s.condReel a).slice = s.slice := State.condition_slice ..
@[simp] theorem State.condReel_lane (s : State) (a : Eng) : (s.condReel a).lane = s.lane := State.condition_lane ..
@[simp] theorem State.condReel_pool (s : State) (a : Eng) : (s.condReel a).pool = s.pool := State.condition_pool ..
@[simp] theorem State.condReel_mems (s : State) (a : Eng) : (s.condReel a).mems = s.mems := State.condition_mems ..
@[simp] theorem State.condReel_wsl (s : State) (a : Eng) : (s.condReel a).wsl = s.wsl := State.condition_wsl ..
@[simp] theorem State.condReel_lpe (s : State) (a : Eng) : (s.condReel a).lpe = s.lpe := State.condition_lpe ..
@[simp] theorem State.condReel_spn (s : State) (a : Eng) : (s.condReel a).spn = s.spn := State.condition_spn ..
@[simp] theorem State.condReel_media (s : State) (a : Eng) : (s.condReel a).media = s.media := State.condition_media ..
@[simp] theorem State.condReel_host (s : State) (a : Eng) : (s.condReel a).host = s.host := State.condition_host ..
@[simp] theorem State.condReel_q (s : State) (a : Eng) : (s.condReel a).q = s.q := State.condition_q ..
@[simp] theorem State.condReel_het (s : State) (a : Eng) : (s.condReel a).het = s.het := State.condition_het ..
@[simp] theorem State.condReel_pwr (s : State) (a : Eng) : (s.condReel a).pwr = s.pwr := State.condition_pwr ..
@[simp] theorem State.condReel_mem (s : State) (a : Eng) : (s.condReel a).mem = s.mem := State.condition_mem ..
@[simp] theorem State.condReel_sec (s : State) (a : Eng) : (s.condReel a).sec = s.sec := State.condition_sec ..
@[simp] theorem State.condReel_nor (s : State) (a : Eng) : (s.condReel a).nor = s.nor := State.condition_nor ..
@[simp] theorem State.condReel_fuse (s : State) (a : Eng) : (s.condReel a).fuse = s.fuse := State.condition_fuse ..
@[simp] theorem State.condReel_rst (s : State) (a : Eng) : (s.condReel a).rst = s.rst := State.condition_rst ..
@[simp] theorem State.condReel_out (s : State) (a : Eng) : (s.condReel a).out = s.out := State.condition_out ..
@[simp] theorem State.condReel_snaps (s : State) (a : Eng) : (s.condReel a).snaps = s.snaps := State.condition_snaps ..
/-! `State.condLink` -/
@[simp] theorem State.condLink_pending (s : State) (a : Eng) (l : LinkIx) : (s.condLink a l).pending = s.pending := State.condition_pending ..
@[simp] theorem State.condLink_free (s : State) (a : Eng) (l : LinkIx) : (s.condLink a l).free = s.free := State.condition_free ..
@[simp] theorem State.condLink_mtime (s : State) (a : Eng) (l : LinkIx) : (s.condLink a l).mtime = s.mtime := State.condition_mtime ..
@[simp] theorem State.condLink_layout (s : State) (a : Eng) (l : LinkIx) : (s.condLink a l).layout = s.layout := State.condition_layout ..
@[simp] theorem State.condLink_eng (s : State) (a : Eng) (l : LinkIx) : (s.condLink a l).eng = s.eng := State.condition_eng ..
@[simp] theorem State.condLink_head (s : State) (a : Eng) (l : LinkIx) : (s.condLink a l).head = s.head := State.condition_head ..
@[simp] theorem State.condLink_slice (s : State) (a : Eng) (l : LinkIx) : (s.condLink a l).slice = s.slice := State.condition_slice ..
@[simp] theorem State.condLink_lane (s : State) (a : Eng) (l : LinkIx) : (s.condLink a l).lane = s.lane := State.condition_lane ..
@[simp] theorem State.condLink_pool (s : State) (a : Eng) (l : LinkIx) : (s.condLink a l).pool = s.pool := State.condition_pool ..
@[simp] theorem State.condLink_mems (s : State) (a : Eng) (l : LinkIx) : (s.condLink a l).mems = s.mems := State.condition_mems ..
@[simp] theorem State.condLink_wsl (s : State) (a : Eng) (l : LinkIx) : (s.condLink a l).wsl = s.wsl := State.condition_wsl ..
@[simp] theorem State.condLink_lpe (s : State) (a : Eng) (l : LinkIx) : (s.condLink a l).lpe = s.lpe := State.condition_lpe ..
@[simp] theorem State.condLink_spn (s : State) (a : Eng) (l : LinkIx) : (s.condLink a l).spn = s.spn := State.condition_spn ..
@[simp] theorem State.condLink_media (s : State) (a : Eng) (l : LinkIx) : (s.condLink a l).media = s.media := State.condition_media ..
@[simp] theorem State.condLink_host (s : State) (a : Eng) (l : LinkIx) : (s.condLink a l).host = s.host := State.condition_host ..
@[simp] theorem State.condLink_q (s : State) (a : Eng) (l : LinkIx) : (s.condLink a l).q = s.q := State.condition_q ..
@[simp] theorem State.condLink_het (s : State) (a : Eng) (l : LinkIx) : (s.condLink a l).het = s.het := State.condition_het ..
@[simp] theorem State.condLink_pwr (s : State) (a : Eng) (l : LinkIx) : (s.condLink a l).pwr = s.pwr := State.condition_pwr ..
@[simp] theorem State.condLink_mem (s : State) (a : Eng) (l : LinkIx) : (s.condLink a l).mem = s.mem := State.condition_mem ..
@[simp] theorem State.condLink_sec (s : State) (a : Eng) (l : LinkIx) : (s.condLink a l).sec = s.sec := State.condition_sec ..
@[simp] theorem State.condLink_nor (s : State) (a : Eng) (l : LinkIx) : (s.condLink a l).nor = s.nor := State.condition_nor ..
@[simp] theorem State.condLink_fuse (s : State) (a : Eng) (l : LinkIx) : (s.condLink a l).fuse = s.fuse := State.condition_fuse ..
@[simp] theorem State.condLink_rst (s : State) (a : Eng) (l : LinkIx) : (s.condLink a l).rst = s.rst := State.condition_rst ..
@[simp] theorem State.condLink_out (s : State) (a : Eng) (l : LinkIx) : (s.condLink a l).out = s.out := State.condition_out ..
@[simp] theorem State.condLink_snaps (s : State) (a : Eng) (l : LinkIx) : (s.condLink a l).snaps = s.snaps := State.condition_snaps ..
/-! `State.condSlice` -/
@[simp] theorem State.condSlice_pending (s : State) (n : SliceIx) : (s.condSlice n).pending = s.pending := State.condition_pending ..
@[simp] theorem State.condSlice_free (s : State) (n : SliceIx) : (s.condSlice n).free = s.free := State.condition_free ..
@[simp] theorem State.condSlice_mtime (s : State) (n : SliceIx) : (s.condSlice n).mtime = s.mtime := State.condition_mtime ..
@[simp] theorem State.condSlice_layout (s : State) (n : SliceIx) : (s.condSlice n).layout = s.layout := State.condition_layout ..
@[simp] theorem State.condSlice_eng (s : State) (n : SliceIx) : (s.condSlice n).eng = s.eng := State.condition_eng ..
@[simp] theorem State.condSlice_head (s : State) (n : SliceIx) : (s.condSlice n).head = s.head := State.condition_head ..
@[simp] theorem State.condSlice_slice (s : State) (n : SliceIx) : (s.condSlice n).slice = s.slice := State.condition_slice ..
@[simp] theorem State.condSlice_lane (s : State) (n : SliceIx) : (s.condSlice n).lane = s.lane := State.condition_lane ..
@[simp] theorem State.condSlice_pool (s : State) (n : SliceIx) : (s.condSlice n).pool = s.pool := State.condition_pool ..
@[simp] theorem State.condSlice_mems (s : State) (n : SliceIx) : (s.condSlice n).mems = s.mems := State.condition_mems ..
@[simp] theorem State.condSlice_wsl (s : State) (n : SliceIx) : (s.condSlice n).wsl = s.wsl := State.condition_wsl ..
@[simp] theorem State.condSlice_lpe (s : State) (n : SliceIx) : (s.condSlice n).lpe = s.lpe := State.condition_lpe ..
@[simp] theorem State.condSlice_spn (s : State) (n : SliceIx) : (s.condSlice n).spn = s.spn := State.condition_spn ..
@[simp] theorem State.condSlice_media (s : State) (n : SliceIx) : (s.condSlice n).media = s.media := State.condition_media ..
@[simp] theorem State.condSlice_host (s : State) (n : SliceIx) : (s.condSlice n).host = s.host := State.condition_host ..
@[simp] theorem State.condSlice_q (s : State) (n : SliceIx) : (s.condSlice n).q = s.q := State.condition_q ..
@[simp] theorem State.condSlice_het (s : State) (n : SliceIx) : (s.condSlice n).het = s.het := State.condition_het ..
@[simp] theorem State.condSlice_pwr (s : State) (n : SliceIx) : (s.condSlice n).pwr = s.pwr := State.condition_pwr ..
@[simp] theorem State.condSlice_mem (s : State) (n : SliceIx) : (s.condSlice n).mem = s.mem := State.condition_mem ..
@[simp] theorem State.condSlice_sec (s : State) (n : SliceIx) : (s.condSlice n).sec = s.sec := State.condition_sec ..
@[simp] theorem State.condSlice_nor (s : State) (n : SliceIx) : (s.condSlice n).nor = s.nor := State.condition_nor ..
@[simp] theorem State.condSlice_fuse (s : State) (n : SliceIx) : (s.condSlice n).fuse = s.fuse := State.condition_fuse ..
@[simp] theorem State.condSlice_rst (s : State) (n : SliceIx) : (s.condSlice n).rst = s.rst := State.condition_rst ..
@[simp] theorem State.condSlice_out (s : State) (n : SliceIx) : (s.condSlice n).out = s.out := State.condition_out ..
@[simp] theorem State.condSlice_snaps (s : State) (n : SliceIx) : (s.condSlice n).snaps = s.snaps := State.condition_snaps ..
/-! `State.condDet` -/
@[simp] theorem State.condDet_pending (s : State) (g : Head) : (s.condDet g).pending = s.pending := State.condition_pending ..
@[simp] theorem State.condDet_free (s : State) (g : Head) : (s.condDet g).free = s.free := State.condition_free ..
@[simp] theorem State.condDet_mtime (s : State) (g : Head) : (s.condDet g).mtime = s.mtime := State.condition_mtime ..
@[simp] theorem State.condDet_layout (s : State) (g : Head) : (s.condDet g).layout = s.layout := State.condition_layout ..
@[simp] theorem State.condDet_eng (s : State) (g : Head) : (s.condDet g).eng = s.eng := State.condition_eng ..
@[simp] theorem State.condDet_head (s : State) (g : Head) : (s.condDet g).head = s.head := State.condition_head ..
@[simp] theorem State.condDet_slice (s : State) (g : Head) : (s.condDet g).slice = s.slice := State.condition_slice ..
@[simp] theorem State.condDet_lane (s : State) (g : Head) : (s.condDet g).lane = s.lane := State.condition_lane ..
@[simp] theorem State.condDet_pool (s : State) (g : Head) : (s.condDet g).pool = s.pool := State.condition_pool ..
@[simp] theorem State.condDet_mems (s : State) (g : Head) : (s.condDet g).mems = s.mems := State.condition_mems ..
@[simp] theorem State.condDet_wsl (s : State) (g : Head) : (s.condDet g).wsl = s.wsl := State.condition_wsl ..
@[simp] theorem State.condDet_lpe (s : State) (g : Head) : (s.condDet g).lpe = s.lpe := State.condition_lpe ..
@[simp] theorem State.condDet_spn (s : State) (g : Head) : (s.condDet g).spn = s.spn := State.condition_spn ..
@[simp] theorem State.condDet_media (s : State) (g : Head) : (s.condDet g).media = s.media := State.condition_media ..
@[simp] theorem State.condDet_host (s : State) (g : Head) : (s.condDet g).host = s.host := State.condition_host ..
@[simp] theorem State.condDet_q (s : State) (g : Head) : (s.condDet g).q = s.q := State.condition_q ..
@[simp] theorem State.condDet_het (s : State) (g : Head) : (s.condDet g).het = s.het := State.condition_het ..
@[simp] theorem State.condDet_pwr (s : State) (g : Head) : (s.condDet g).pwr = s.pwr := State.condition_pwr ..
@[simp] theorem State.condDet_mem (s : State) (g : Head) : (s.condDet g).mem = s.mem := State.condition_mem ..
@[simp] theorem State.condDet_sec (s : State) (g : Head) : (s.condDet g).sec = s.sec := State.condition_sec ..
@[simp] theorem State.condDet_nor (s : State) (g : Head) : (s.condDet g).nor = s.nor := State.condition_nor ..
@[simp] theorem State.condDet_fuse (s : State) (g : Head) : (s.condDet g).fuse = s.fuse := State.condition_fuse ..
@[simp] theorem State.condDet_rst (s : State) (g : Head) : (s.condDet g).rst = s.rst := State.condition_rst ..
@[simp] theorem State.condDet_out (s : State) (g : Head) : (s.condDet g).out = s.out := State.condition_out ..
@[simp] theorem State.condDet_snaps (s : State) (g : Head) : (s.condDet g).snaps = s.snaps := State.condition_snaps ..
/-! `State.condPool` -/
@[simp] theorem State.condPool_pending (s : State)  : (s.condPool ).pending = s.pending := State.condition_pending ..
@[simp] theorem State.condPool_free (s : State)  : (s.condPool ).free = s.free := State.condition_free ..
@[simp] theorem State.condPool_mtime (s : State)  : (s.condPool ).mtime = s.mtime := State.condition_mtime ..
@[simp] theorem State.condPool_layout (s : State)  : (s.condPool ).layout = s.layout := State.condition_layout ..
@[simp] theorem State.condPool_eng (s : State)  : (s.condPool ).eng = s.eng := State.condition_eng ..
@[simp] theorem State.condPool_head (s : State)  : (s.condPool ).head = s.head := State.condition_head ..
@[simp] theorem State.condPool_slice (s : State)  : (s.condPool ).slice = s.slice := State.condition_slice ..
@[simp] theorem State.condPool_lane (s : State)  : (s.condPool ).lane = s.lane := State.condition_lane ..
@[simp] theorem State.condPool_pool (s : State)  : (s.condPool ).pool = s.pool := State.condition_pool ..
@[simp] theorem State.condPool_mems (s : State)  : (s.condPool ).mems = s.mems := State.condition_mems ..
@[simp] theorem State.condPool_wsl (s : State)  : (s.condPool ).wsl = s.wsl := State.condition_wsl ..
@[simp] theorem State.condPool_lpe (s : State)  : (s.condPool ).lpe = s.lpe := State.condition_lpe ..
@[simp] theorem State.condPool_spn (s : State)  : (s.condPool ).spn = s.spn := State.condition_spn ..
@[simp] theorem State.condPool_media (s : State)  : (s.condPool ).media = s.media := State.condition_media ..
@[simp] theorem State.condPool_host (s : State)  : (s.condPool ).host = s.host := State.condition_host ..
@[simp] theorem State.condPool_q (s : State)  : (s.condPool ).q = s.q := State.condition_q ..
@[simp] theorem State.condPool_het (s : State)  : (s.condPool ).het = s.het := State.condition_het ..
@[simp] theorem State.condPool_pwr (s : State)  : (s.condPool ).pwr = s.pwr := State.condition_pwr ..
@[simp] theorem State.condPool_mem (s : State)  : (s.condPool ).mem = s.mem := State.condition_mem ..
@[simp] theorem State.condPool_sec (s : State)  : (s.condPool ).sec = s.sec := State.condition_sec ..
@[simp] theorem State.condPool_nor (s : State)  : (s.condPool ).nor = s.nor := State.condition_nor ..
@[simp] theorem State.condPool_fuse (s : State)  : (s.condPool ).fuse = s.fuse := State.condition_fuse ..
@[simp] theorem State.condPool_rst (s : State)  : (s.condPool ).rst = s.rst := State.condition_rst ..
@[simp] theorem State.condPool_out (s : State)  : (s.condPool ).out = s.out := State.condition_out ..
@[simp] theorem State.condPool_snaps (s : State)  : (s.condPool ).snaps = s.snaps := State.condition_snaps ..
/-! `State.condRec` -/
@[simp] theorem State.condRec_pending (s : State) (a : Eng) : (s.condRec a).pending = s.pending := State.condition_pending ..
@[simp] theorem State.condRec_free (s : State) (a : Eng) : (s.condRec a).free = s.free := State.condition_free ..
@[simp] theorem State.condRec_mtime (s : State) (a : Eng) : (s.condRec a).mtime = s.mtime := State.condition_mtime ..
@[simp] theorem State.condRec_layout (s : State) (a : Eng) : (s.condRec a).layout = s.layout := State.condition_layout ..
@[simp] theorem State.condRec_eng (s : State) (a : Eng) : (s.condRec a).eng = s.eng := State.condition_eng ..
@[simp] theorem State.condRec_head (s : State) (a : Eng) : (s.condRec a).head = s.head := State.condition_head ..
@[simp] theorem State.condRec_slice (s : State) (a : Eng) : (s.condRec a).slice = s.slice := State.condition_slice ..
@[simp] theorem State.condRec_lane (s : State) (a : Eng) : (s.condRec a).lane = s.lane := State.condition_lane ..
@[simp] theorem State.condRec_pool (s : State) (a : Eng) : (s.condRec a).pool = s.pool := State.condition_pool ..
@[simp] theorem State.condRec_mems (s : State) (a : Eng) : (s.condRec a).mems = s.mems := State.condition_mems ..
@[simp] theorem State.condRec_wsl (s : State) (a : Eng) : (s.condRec a).wsl = s.wsl := State.condition_wsl ..
@[simp] theorem State.condRec_lpe (s : State) (a : Eng) : (s.condRec a).lpe = s.lpe := State.condition_lpe ..
@[simp] theorem State.condRec_spn (s : State) (a : Eng) : (s.condRec a).spn = s.spn := State.condition_spn ..
@[simp] theorem State.condRec_media (s : State) (a : Eng) : (s.condRec a).media = s.media := State.condition_media ..
@[simp] theorem State.condRec_host (s : State) (a : Eng) : (s.condRec a).host = s.host := State.condition_host ..
@[simp] theorem State.condRec_q (s : State) (a : Eng) : (s.condRec a).q = s.q := State.condition_q ..
@[simp] theorem State.condRec_het (s : State) (a : Eng) : (s.condRec a).het = s.het := State.condition_het ..
@[simp] theorem State.condRec_pwr (s : State) (a : Eng) : (s.condRec a).pwr = s.pwr := State.condition_pwr ..
@[simp] theorem State.condRec_mem (s : State) (a : Eng) : (s.condRec a).mem = s.mem := State.condition_mem ..
@[simp] theorem State.condRec_sec (s : State) (a : Eng) : (s.condRec a).sec = s.sec := State.condition_sec ..
@[simp] theorem State.condRec_nor (s : State) (a : Eng) : (s.condRec a).nor = s.nor := State.condition_nor ..
@[simp] theorem State.condRec_fuse (s : State) (a : Eng) : (s.condRec a).fuse = s.fuse := State.condition_fuse ..
@[simp] theorem State.condRec_rst (s : State) (a : Eng) : (s.condRec a).rst = s.rst := State.condition_rst ..
@[simp] theorem State.condRec_out (s : State) (a : Eng) : (s.condRec a).out = s.out := State.condition_out ..
@[simp] theorem State.condRec_snaps (s : State) (a : Eng) : (s.condRec a).snaps = s.snaps := State.condition_snaps ..
/-! `State.condWrg` -/
@[simp] theorem State.condWrg_pending (s : State) (a : Eng) (h : Nat) : (s.condWrg a h).pending = s.pending := State.condition_pending ..
@[simp] theorem State.condWrg_free (s : State) (a : Eng) (h : Nat) : (s.condWrg a h).free = s.free := State.condition_free ..
@[simp] theorem State.condWrg_mtime (s : State) (a : Eng) (h : Nat) : (s.condWrg a h).mtime = s.mtime := State.condition_mtime ..
@[simp] theorem State.condWrg_layout (s : State) (a : Eng) (h : Nat) : (s.condWrg a h).layout = s.layout := State.condition_layout ..
@[simp] theorem State.condWrg_eng (s : State) (a : Eng) (h : Nat) : (s.condWrg a h).eng = s.eng := State.condition_eng ..
@[simp] theorem State.condWrg_head (s : State) (a : Eng) (h : Nat) : (s.condWrg a h).head = s.head := State.condition_head ..
@[simp] theorem State.condWrg_slice (s : State) (a : Eng) (h : Nat) : (s.condWrg a h).slice = s.slice := State.condition_slice ..
@[simp] theorem State.condWrg_lane (s : State) (a : Eng) (h : Nat) : (s.condWrg a h).lane = s.lane := State.condition_lane ..
@[simp] theorem State.condWrg_pool (s : State) (a : Eng) (h : Nat) : (s.condWrg a h).pool = s.pool := State.condition_pool ..
@[simp] theorem State.condWrg_mems (s : State) (a : Eng) (h : Nat) : (s.condWrg a h).mems = s.mems := State.condition_mems ..
@[simp] theorem State.condWrg_wsl (s : State) (a : Eng) (h : Nat) : (s.condWrg a h).wsl = s.wsl := State.condition_wsl ..
@[simp] theorem State.condWrg_lpe (s : State) (a : Eng) (h : Nat) : (s.condWrg a h).lpe = s.lpe := State.condition_lpe ..
@[simp] theorem State.condWrg_spn (s : State) (a : Eng) (h : Nat) : (s.condWrg a h).spn = s.spn := State.condition_spn ..
@[simp] theorem State.condWrg_media (s : State) (a : Eng) (h : Nat) : (s.condWrg a h).media = s.media := State.condition_media ..
@[simp] theorem State.condWrg_host (s : State) (a : Eng) (h : Nat) : (s.condWrg a h).host = s.host := State.condition_host ..
@[simp] theorem State.condWrg_q (s : State) (a : Eng) (h : Nat) : (s.condWrg a h).q = s.q := State.condition_q ..
@[simp] theorem State.condWrg_het (s : State) (a : Eng) (h : Nat) : (s.condWrg a h).het = s.het := State.condition_het ..
@[simp] theorem State.condWrg_pwr (s : State) (a : Eng) (h : Nat) : (s.condWrg a h).pwr = s.pwr := State.condition_pwr ..
@[simp] theorem State.condWrg_mem (s : State) (a : Eng) (h : Nat) : (s.condWrg a h).mem = s.mem := State.condition_mem ..
@[simp] theorem State.condWrg_sec (s : State) (a : Eng) (h : Nat) : (s.condWrg a h).sec = s.sec := State.condition_sec ..
@[simp] theorem State.condWrg_nor (s : State) (a : Eng) (h : Nat) : (s.condWrg a h).nor = s.nor := State.condition_nor ..
@[simp] theorem State.condWrg_fuse (s : State) (a : Eng) (h : Nat) : (s.condWrg a h).fuse = s.fuse := State.condition_fuse ..
@[simp] theorem State.condWrg_rst (s : State) (a : Eng) (h : Nat) : (s.condWrg a h).rst = s.rst := State.condition_rst ..
@[simp] theorem State.condWrg_out (s : State) (a : Eng) (h : Nat) : (s.condWrg a h).out = s.out := State.condition_out ..
@[simp] theorem State.condWrg_snaps (s : State) (a : Eng) (h : Nat) : (s.condWrg a h).snaps = s.snaps := State.condition_snaps ..
/-! `State.condWr` -/
@[simp] theorem State.condWr_pending (s : State) (g : Head) : (s.condWr g).pending = s.pending := State.condition_pending ..
@[simp] theorem State.condWr_free (s : State) (g : Head) : (s.condWr g).free = s.free := State.condition_free ..
@[simp] theorem State.condWr_mtime (s : State) (g : Head) : (s.condWr g).mtime = s.mtime := State.condition_mtime ..
@[simp] theorem State.condWr_layout (s : State) (g : Head) : (s.condWr g).layout = s.layout := State.condition_layout ..
@[simp] theorem State.condWr_eng (s : State) (g : Head) : (s.condWr g).eng = s.eng := State.condition_eng ..
@[simp] theorem State.condWr_head (s : State) (g : Head) : (s.condWr g).head = s.head := State.condition_head ..
@[simp] theorem State.condWr_slice (s : State) (g : Head) : (s.condWr g).slice = s.slice := State.condition_slice ..
@[simp] theorem State.condWr_lane (s : State) (g : Head) : (s.condWr g).lane = s.lane := State.condition_lane ..
@[simp] theorem State.condWr_pool (s : State) (g : Head) : (s.condWr g).pool = s.pool := State.condition_pool ..
@[simp] theorem State.condWr_mems (s : State) (g : Head) : (s.condWr g).mems = s.mems := State.condition_mems ..
@[simp] theorem State.condWr_wsl (s : State) (g : Head) : (s.condWr g).wsl = s.wsl := State.condition_wsl ..
@[simp] theorem State.condWr_lpe (s : State) (g : Head) : (s.condWr g).lpe = s.lpe := State.condition_lpe ..
@[simp] theorem State.condWr_spn (s : State) (g : Head) : (s.condWr g).spn = s.spn := State.condition_spn ..
@[simp] theorem State.condWr_media (s : State) (g : Head) : (s.condWr g).media = s.media := State.condition_media ..
@[simp] theorem State.condWr_host (s : State) (g : Head) : (s.condWr g).host = s.host := State.condition_host ..
@[simp] theorem State.condWr_q (s : State) (g : Head) : (s.condWr g).q = s.q := State.condition_q ..
@[simp] theorem State.condWr_het (s : State) (g : Head) : (s.condWr g).het = s.het := State.condition_het ..
@[simp] theorem State.condWr_pwr (s : State) (g : Head) : (s.condWr g).pwr = s.pwr := State.condition_pwr ..
@[simp] theorem State.condWr_mem (s : State) (g : Head) : (s.condWr g).mem = s.mem := State.condition_mem ..
@[simp] theorem State.condWr_sec (s : State) (g : Head) : (s.condWr g).sec = s.sec := State.condition_sec ..
@[simp] theorem State.condWr_nor (s : State) (g : Head) : (s.condWr g).nor = s.nor := State.condition_nor ..
@[simp] theorem State.condWr_fuse (s : State) (g : Head) : (s.condWr g).fuse = s.fuse := State.condition_fuse ..
@[simp] theorem State.condWr_rst (s : State) (g : Head) : (s.condWr g).rst = s.rst := State.condition_rst ..
@[simp] theorem State.condWr_out (s : State) (g : Head) : (s.condWr g).out = s.out := State.condition_out ..
@[simp] theorem State.condWr_snaps (s : State) (g : Head) : (s.condWr g).snaps = s.snaps := State.condition_snaps ..
/-! `State.condSrv` -/
@[simp] theorem State.condSrv_pending (s : State) (a : Eng) : (s.condSrv a).pending = s.pending := State.condition_pending ..
@[simp] theorem State.condSrv_free (s : State) (a : Eng) : (s.condSrv a).free = s.free := State.condition_free ..
@[simp] theorem State.condSrv_mtime (s : State) (a : Eng) : (s.condSrv a).mtime = s.mtime := State.condition_mtime ..
@[simp] theorem State.condSrv_layout (s : State) (a : Eng) : (s.condSrv a).layout = s.layout := State.condition_layout ..
@[simp] theorem State.condSrv_eng (s : State) (a : Eng) : (s.condSrv a).eng = s.eng := State.condition_eng ..
@[simp] theorem State.condSrv_head (s : State) (a : Eng) : (s.condSrv a).head = s.head := State.condition_head ..
@[simp] theorem State.condSrv_slice (s : State) (a : Eng) : (s.condSrv a).slice = s.slice := State.condition_slice ..
@[simp] theorem State.condSrv_lane (s : State) (a : Eng) : (s.condSrv a).lane = s.lane := State.condition_lane ..
@[simp] theorem State.condSrv_pool (s : State) (a : Eng) : (s.condSrv a).pool = s.pool := State.condition_pool ..
@[simp] theorem State.condSrv_mems (s : State) (a : Eng) : (s.condSrv a).mems = s.mems := State.condition_mems ..
@[simp] theorem State.condSrv_wsl (s : State) (a : Eng) : (s.condSrv a).wsl = s.wsl := State.condition_wsl ..
@[simp] theorem State.condSrv_lpe (s : State) (a : Eng) : (s.condSrv a).lpe = s.lpe := State.condition_lpe ..
@[simp] theorem State.condSrv_spn (s : State) (a : Eng) : (s.condSrv a).spn = s.spn := State.condition_spn ..
@[simp] theorem State.condSrv_media (s : State) (a : Eng) : (s.condSrv a).media = s.media := State.condition_media ..
@[simp] theorem State.condSrv_host (s : State) (a : Eng) : (s.condSrv a).host = s.host := State.condition_host ..
@[simp] theorem State.condSrv_q (s : State) (a : Eng) : (s.condSrv a).q = s.q := State.condition_q ..
@[simp] theorem State.condSrv_het (s : State) (a : Eng) : (s.condSrv a).het = s.het := State.condition_het ..
@[simp] theorem State.condSrv_pwr (s : State) (a : Eng) : (s.condSrv a).pwr = s.pwr := State.condition_pwr ..
@[simp] theorem State.condSrv_mem (s : State) (a : Eng) : (s.condSrv a).mem = s.mem := State.condition_mem ..
@[simp] theorem State.condSrv_sec (s : State) (a : Eng) : (s.condSrv a).sec = s.sec := State.condition_sec ..
@[simp] theorem State.condSrv_nor (s : State) (a : Eng) : (s.condSrv a).nor = s.nor := State.condition_nor ..
@[simp] theorem State.condSrv_fuse (s : State) (a : Eng) : (s.condSrv a).fuse = s.fuse := State.condition_fuse ..
@[simp] theorem State.condSrv_rst (s : State) (a : Eng) : (s.condSrv a).rst = s.rst := State.condition_rst ..
@[simp] theorem State.condSrv_out (s : State) (a : Eng) : (s.condSrv a).out = s.out := State.condition_out ..
@[simp] theorem State.condSrv_snaps (s : State) (a : Eng) : (s.condSrv a).snaps = s.snaps := State.condition_snaps ..
/-! `State.condSrvH` -/
@[simp] theorem State.condSrvH_pending (s : State) (g : Head) : (s.condSrvH g).pending = s.pending := State.condition_pending ..
@[simp] theorem State.condSrvH_free (s : State) (g : Head) : (s.condSrvH g).free = s.free := State.condition_free ..
@[simp] theorem State.condSrvH_mtime (s : State) (g : Head) : (s.condSrvH g).mtime = s.mtime := State.condition_mtime ..
@[simp] theorem State.condSrvH_layout (s : State) (g : Head) : (s.condSrvH g).layout = s.layout := State.condition_layout ..
@[simp] theorem State.condSrvH_eng (s : State) (g : Head) : (s.condSrvH g).eng = s.eng := State.condition_eng ..
@[simp] theorem State.condSrvH_head (s : State) (g : Head) : (s.condSrvH g).head = s.head := State.condition_head ..
@[simp] theorem State.condSrvH_slice (s : State) (g : Head) : (s.condSrvH g).slice = s.slice := State.condition_slice ..
@[simp] theorem State.condSrvH_lane (s : State) (g : Head) : (s.condSrvH g).lane = s.lane := State.condition_lane ..
@[simp] theorem State.condSrvH_pool (s : State) (g : Head) : (s.condSrvH g).pool = s.pool := State.condition_pool ..
@[simp] theorem State.condSrvH_mems (s : State) (g : Head) : (s.condSrvH g).mems = s.mems := State.condition_mems ..
@[simp] theorem State.condSrvH_wsl (s : State) (g : Head) : (s.condSrvH g).wsl = s.wsl := State.condition_wsl ..
@[simp] theorem State.condSrvH_lpe (s : State) (g : Head) : (s.condSrvH g).lpe = s.lpe := State.condition_lpe ..
@[simp] theorem State.condSrvH_spn (s : State) (g : Head) : (s.condSrvH g).spn = s.spn := State.condition_spn ..
@[simp] theorem State.condSrvH_media (s : State) (g : Head) : (s.condSrvH g).media = s.media := State.condition_media ..
@[simp] theorem State.condSrvH_host (s : State) (g : Head) : (s.condSrvH g).host = s.host := State.condition_host ..
@[simp] theorem State.condSrvH_q (s : State) (g : Head) : (s.condSrvH g).q = s.q := State.condition_q ..
@[simp] theorem State.condSrvH_het (s : State) (g : Head) : (s.condSrvH g).het = s.het := State.condition_het ..
@[simp] theorem State.condSrvH_pwr (s : State) (g : Head) : (s.condSrvH g).pwr = s.pwr := State.condition_pwr ..
@[simp] theorem State.condSrvH_mem (s : State) (g : Head) : (s.condSrvH g).mem = s.mem := State.condition_mem ..
@[simp] theorem State.condSrvH_sec (s : State) (g : Head) : (s.condSrvH g).sec = s.sec := State.condition_sec ..
@[simp] theorem State.condSrvH_nor (s : State) (g : Head) : (s.condSrvH g).nor = s.nor := State.condition_nor ..
@[simp] theorem State.condSrvH_fuse (s : State) (g : Head) : (s.condSrvH g).fuse = s.fuse := State.condition_fuse ..
@[simp] theorem State.condSrvH_rst (s : State) (g : Head) : (s.condSrvH g).rst = s.rst := State.condition_rst ..
@[simp] theorem State.condSrvH_out (s : State) (g : Head) : (s.condSrvH g).out = s.out := State.condition_out ..
@[simp] theorem State.condSrvH_snaps (s : State) (g : Head) : (s.condSrvH g).snaps = s.snaps := State.condition_snaps ..
/-! `State.condLoop` -/
@[simp] theorem State.condLoop_pending (s : State) (n : LoopIx) : (s.condLoop n).pending = s.pending := State.condition_pending ..
@[simp] theorem State.condLoop_free (s : State) (n : LoopIx) : (s.condLoop n).free = s.free := State.condition_free ..
@[simp] theorem State.condLoop_mtime (s : State) (n : LoopIx) : (s.condLoop n).mtime = s.mtime := State.condition_mtime ..
@[simp] theorem State.condLoop_layout (s : State) (n : LoopIx) : (s.condLoop n).layout = s.layout := State.condition_layout ..
@[simp] theorem State.condLoop_eng (s : State) (n : LoopIx) : (s.condLoop n).eng = s.eng := State.condition_eng ..
@[simp] theorem State.condLoop_head (s : State) (n : LoopIx) : (s.condLoop n).head = s.head := State.condition_head ..
@[simp] theorem State.condLoop_slice (s : State) (n : LoopIx) : (s.condLoop n).slice = s.slice := State.condition_slice ..
@[simp] theorem State.condLoop_lane (s : State) (n : LoopIx) : (s.condLoop n).lane = s.lane := State.condition_lane ..
@[simp] theorem State.condLoop_pool (s : State) (n : LoopIx) : (s.condLoop n).pool = s.pool := State.condition_pool ..
@[simp] theorem State.condLoop_mems (s : State) (n : LoopIx) : (s.condLoop n).mems = s.mems := State.condition_mems ..
@[simp] theorem State.condLoop_wsl (s : State) (n : LoopIx) : (s.condLoop n).wsl = s.wsl := State.condition_wsl ..
@[simp] theorem State.condLoop_lpe (s : State) (n : LoopIx) : (s.condLoop n).lpe = s.lpe := State.condition_lpe ..
@[simp] theorem State.condLoop_spn (s : State) (n : LoopIx) : (s.condLoop n).spn = s.spn := State.condition_spn ..
@[simp] theorem State.condLoop_media (s : State) (n : LoopIx) : (s.condLoop n).media = s.media := State.condition_media ..
@[simp] theorem State.condLoop_host (s : State) (n : LoopIx) : (s.condLoop n).host = s.host := State.condition_host ..
@[simp] theorem State.condLoop_q (s : State) (n : LoopIx) : (s.condLoop n).q = s.q := State.condition_q ..
@[simp] theorem State.condLoop_het (s : State) (n : LoopIx) : (s.condLoop n).het = s.het := State.condition_het ..
@[simp] theorem State.condLoop_pwr (s : State) (n : LoopIx) : (s.condLoop n).pwr = s.pwr := State.condition_pwr ..
@[simp] theorem State.condLoop_mem (s : State) (n : LoopIx) : (s.condLoop n).mem = s.mem := State.condition_mem ..
@[simp] theorem State.condLoop_sec (s : State) (n : LoopIx) : (s.condLoop n).sec = s.sec := State.condition_sec ..
@[simp] theorem State.condLoop_nor (s : State) (n : LoopIx) : (s.condLoop n).nor = s.nor := State.condition_nor ..
@[simp] theorem State.condLoop_fuse (s : State) (n : LoopIx) : (s.condLoop n).fuse = s.fuse := State.condition_fuse ..
@[simp] theorem State.condLoop_rst (s : State) (n : LoopIx) : (s.condLoop n).rst = s.rst := State.condition_rst ..
@[simp] theorem State.condLoop_out (s : State) (n : LoopIx) : (s.condLoop n).out = s.out := State.condition_out ..
@[simp] theorem State.condLoop_snaps (s : State) (n : LoopIx) : (s.condLoop n).snaps = s.snaps := State.condition_snaps ..
/-! `State.condSpn` -/
@[simp] theorem State.condSpn_pending (s : State)  : (s.condSpn ).pending = s.pending := State.condition_pending ..
@[simp] theorem State.condSpn_free (s : State)  : (s.condSpn ).free = s.free := State.condition_free ..
@[simp] theorem State.condSpn_mtime (s : State)  : (s.condSpn ).mtime = s.mtime := State.condition_mtime ..
@[simp] theorem State.condSpn_layout (s : State)  : (s.condSpn ).layout = s.layout := State.condition_layout ..
@[simp] theorem State.condSpn_eng (s : State)  : (s.condSpn ).eng = s.eng := State.condition_eng ..
@[simp] theorem State.condSpn_head (s : State)  : (s.condSpn ).head = s.head := State.condition_head ..
@[simp] theorem State.condSpn_slice (s : State)  : (s.condSpn ).slice = s.slice := State.condition_slice ..
@[simp] theorem State.condSpn_lane (s : State)  : (s.condSpn ).lane = s.lane := State.condition_lane ..
@[simp] theorem State.condSpn_pool (s : State)  : (s.condSpn ).pool = s.pool := State.condition_pool ..
@[simp] theorem State.condSpn_mems (s : State)  : (s.condSpn ).mems = s.mems := State.condition_mems ..
@[simp] theorem State.condSpn_wsl (s : State)  : (s.condSpn ).wsl = s.wsl := State.condition_wsl ..
@[simp] theorem State.condSpn_lpe (s : State)  : (s.condSpn ).lpe = s.lpe := State.condition_lpe ..
@[simp] theorem State.condSpn_spn (s : State)  : (s.condSpn ).spn = s.spn := State.condition_spn ..
@[simp] theorem State.condSpn_media (s : State)  : (s.condSpn ).media = s.media := State.condition_media ..
@[simp] theorem State.condSpn_host (s : State)  : (s.condSpn ).host = s.host := State.condition_host ..
@[simp] theorem State.condSpn_q (s : State)  : (s.condSpn ).q = s.q := State.condition_q ..
@[simp] theorem State.condSpn_het (s : State)  : (s.condSpn ).het = s.het := State.condition_het ..
@[simp] theorem State.condSpn_pwr (s : State)  : (s.condSpn ).pwr = s.pwr := State.condition_pwr ..
@[simp] theorem State.condSpn_mem (s : State)  : (s.condSpn ).mem = s.mem := State.condition_mem ..
@[simp] theorem State.condSpn_sec (s : State)  : (s.condSpn ).sec = s.sec := State.condition_sec ..
@[simp] theorem State.condSpn_nor (s : State)  : (s.condSpn ).nor = s.nor := State.condition_nor ..
@[simp] theorem State.condSpn_fuse (s : State)  : (s.condSpn ).fuse = s.fuse := State.condition_fuse ..
@[simp] theorem State.condSpn_rst (s : State)  : (s.condSpn ).rst = s.rst := State.condition_rst ..
@[simp] theorem State.condSpn_out (s : State)  : (s.condSpn ).out = s.out := State.condition_out ..
@[simp] theorem State.condSpn_snaps (s : State)  : (s.condSpn ).snaps = s.snaps := State.condition_snaps ..
/-! `State.condSeq` -/
@[simp] theorem State.condSeq_pending (s : State) (a : Eng) : (s.condSeq a).pending = s.pending := State.condition_pending ..
@[simp] theorem State.condSeq_free (s : State) (a : Eng) : (s.condSeq a).free = s.free := State.condition_free ..
@[simp] theorem State.condSeq_mtime (s : State) (a : Eng) : (s.condSeq a).mtime = s.mtime := State.condition_mtime ..
@[simp] theorem State.condSeq_layout (s : State) (a : Eng) : (s.condSeq a).layout = s.layout := State.condition_layout ..
@[simp] theorem State.condSeq_eng (s : State) (a : Eng) : (s.condSeq a).eng = s.eng := State.condition_eng ..
@[simp] theorem State.condSeq_head (s : State) (a : Eng) : (s.condSeq a).head = s.head := State.condition_head ..
@[simp] theorem State.condSeq_slice (s : State) (a : Eng) : (s.condSeq a).slice = s.slice := State.condition_slice ..
@[simp] theorem State.condSeq_lane (s : State) (a : Eng) : (s.condSeq a).lane = s.lane := State.condition_lane ..
@[simp] theorem State.condSeq_pool (s : State) (a : Eng) : (s.condSeq a).pool = s.pool := State.condition_pool ..
@[simp] theorem State.condSeq_mems (s : State) (a : Eng) : (s.condSeq a).mems = s.mems := State.condition_mems ..
@[simp] theorem State.condSeq_wsl (s : State) (a : Eng) : (s.condSeq a).wsl = s.wsl := State.condition_wsl ..
@[simp] theorem State.condSeq_lpe (s : State) (a : Eng) : (s.condSeq a).lpe = s.lpe := State.condition_lpe ..
@[simp] theorem State.condSeq_spn (s : State) (a : Eng) : (s.condSeq a).spn = s.spn := State.condition_spn ..
@[simp] theorem State.condSeq_media (s : State) (a : Eng) : (s.condSeq a).media = s.media := State.condition_media ..
@[simp] theorem State.condSeq_host (s : State) (a : Eng) : (s.condSeq a).host = s.host := State.condition_host ..
@[simp] theorem State.condSeq_q (s : State) (a : Eng) : (s.condSeq a).q = s.q := State.condition_q ..
@[simp] theorem State.condSeq_het (s : State) (a : Eng) : (s.condSeq a).het = s.het := State.condition_het ..
@[simp] theorem State.condSeq_pwr (s : State) (a : Eng) : (s.condSeq a).pwr = s.pwr := State.condition_pwr ..
@[simp] theorem State.condSeq_mem (s : State) (a : Eng) : (s.condSeq a).mem = s.mem := State.condition_mem ..
@[simp] theorem State.condSeq_sec (s : State) (a : Eng) : (s.condSeq a).sec = s.sec := State.condition_sec ..
@[simp] theorem State.condSeq_nor (s : State) (a : Eng) : (s.condSeq a).nor = s.nor := State.condition_nor ..
@[simp] theorem State.condSeq_fuse (s : State) (a : Eng) : (s.condSeq a).fuse = s.fuse := State.condition_fuse ..
@[simp] theorem State.condSeq_rst (s : State) (a : Eng) : (s.condSeq a).rst = s.rst := State.condition_rst ..
@[simp] theorem State.condSeq_out (s : State) (a : Eng) : (s.condSeq a).out = s.out := State.condition_out ..
@[simp] theorem State.condSeq_snaps (s : State) (a : Eng) : (s.condSeq a).snaps = s.snaps := State.condition_snaps ..
/-! `State.condZdc` -/
@[simp] theorem State.condZdc_pending (s : State) (a : Eng) : (s.condZdc a).pending = s.pending := State.condition_pending ..
@[simp] theorem State.condZdc_free (s : State) (a : Eng) : (s.condZdc a).free = s.free := State.condition_free ..
@[simp] theorem State.condZdc_mtime (s : State) (a : Eng) : (s.condZdc a).mtime = s.mtime := State.condition_mtime ..
@[simp] theorem State.condZdc_layout (s : State) (a : Eng) : (s.condZdc a).layout = s.layout := State.condition_layout ..
@[simp] theorem State.condZdc_eng (s : State) (a : Eng) : (s.condZdc a).eng = s.eng := State.condition_eng ..
@[simp] theorem State.condZdc_head (s : State) (a : Eng) : (s.condZdc a).head = s.head := State.condition_head ..
@[simp] theorem State.condZdc_slice (s : State) (a : Eng) : (s.condZdc a).slice = s.slice := State.condition_slice ..
@[simp] theorem State.condZdc_lane (s : State) (a : Eng) : (s.condZdc a).lane = s.lane := State.condition_lane ..
@[simp] theorem State.condZdc_pool (s : State) (a : Eng) : (s.condZdc a).pool = s.pool := State.condition_pool ..
@[simp] theorem State.condZdc_mems (s : State) (a : Eng) : (s.condZdc a).mems = s.mems := State.condition_mems ..
@[simp] theorem State.condZdc_wsl (s : State) (a : Eng) : (s.condZdc a).wsl = s.wsl := State.condition_wsl ..
@[simp] theorem State.condZdc_lpe (s : State) (a : Eng) : (s.condZdc a).lpe = s.lpe := State.condition_lpe ..
@[simp] theorem State.condZdc_spn (s : State) (a : Eng) : (s.condZdc a).spn = s.spn := State.condition_spn ..
@[simp] theorem State.condZdc_media (s : State) (a : Eng) : (s.condZdc a).media = s.media := State.condition_media ..
@[simp] theorem State.condZdc_host (s : State) (a : Eng) : (s.condZdc a).host = s.host := State.condition_host ..
@[simp] theorem State.condZdc_q (s : State) (a : Eng) : (s.condZdc a).q = s.q := State.condition_q ..
@[simp] theorem State.condZdc_het (s : State) (a : Eng) : (s.condZdc a).het = s.het := State.condition_het ..
@[simp] theorem State.condZdc_pwr (s : State) (a : Eng) : (s.condZdc a).pwr = s.pwr := State.condition_pwr ..
@[simp] theorem State.condZdc_mem (s : State) (a : Eng) : (s.condZdc a).mem = s.mem := State.condition_mem ..
@[simp] theorem State.condZdc_sec (s : State) (a : Eng) : (s.condZdc a).sec = s.sec := State.condition_sec ..
@[simp] theorem State.condZdc_nor (s : State) (a : Eng) : (s.condZdc a).nor = s.nor := State.condition_nor ..
@[simp] theorem State.condZdc_fuse (s : State) (a : Eng) : (s.condZdc a).fuse = s.fuse := State.condition_fuse ..
@[simp] theorem State.condZdc_rst (s : State) (a : Eng) : (s.condZdc a).rst = s.rst := State.condition_rst ..
@[simp] theorem State.condZdc_out (s : State) (a : Eng) : (s.condZdc a).out = s.out := State.condition_out ..
@[simp] theorem State.condZdc_snaps (s : State) (a : Eng) : (s.condZdc a).snaps = s.snaps := State.condition_snaps ..
/-! `State.condMap` -/
@[simp] theorem State.condMap_pending (s : State) (g : Head) : (s.condMap g).pending = s.pending := State.condition_pending ..
@[simp] theorem State.condMap_free (s : State) (g : Head) : (s.condMap g).free = s.free := State.condition_free ..
@[simp] theorem State.condMap_mtime (s : State) (g : Head) : (s.condMap g).mtime = s.mtime := State.condition_mtime ..
@[simp] theorem State.condMap_layout (s : State) (g : Head) : (s.condMap g).layout = s.layout := State.condition_layout ..
@[simp] theorem State.condMap_eng (s : State) (g : Head) : (s.condMap g).eng = s.eng := State.condition_eng ..
@[simp] theorem State.condMap_head (s : State) (g : Head) : (s.condMap g).head = s.head := State.condition_head ..
@[simp] theorem State.condMap_slice (s : State) (g : Head) : (s.condMap g).slice = s.slice := State.condition_slice ..
@[simp] theorem State.condMap_lane (s : State) (g : Head) : (s.condMap g).lane = s.lane := State.condition_lane ..
@[simp] theorem State.condMap_pool (s : State) (g : Head) : (s.condMap g).pool = s.pool := State.condition_pool ..
@[simp] theorem State.condMap_mems (s : State) (g : Head) : (s.condMap g).mems = s.mems := State.condition_mems ..
@[simp] theorem State.condMap_wsl (s : State) (g : Head) : (s.condMap g).wsl = s.wsl := State.condition_wsl ..
@[simp] theorem State.condMap_lpe (s : State) (g : Head) : (s.condMap g).lpe = s.lpe := State.condition_lpe ..
@[simp] theorem State.condMap_spn (s : State) (g : Head) : (s.condMap g).spn = s.spn := State.condition_spn ..
@[simp] theorem State.condMap_media (s : State) (g : Head) : (s.condMap g).media = s.media := State.condition_media ..
@[simp] theorem State.condMap_host (s : State) (g : Head) : (s.condMap g).host = s.host := State.condition_host ..
@[simp] theorem State.condMap_q (s : State) (g : Head) : (s.condMap g).q = s.q := State.condition_q ..
@[simp] theorem State.condMap_het (s : State) (g : Head) : (s.condMap g).het = s.het := State.condition_het ..
@[simp] theorem State.condMap_pwr (s : State) (g : Head) : (s.condMap g).pwr = s.pwr := State.condition_pwr ..
@[simp] theorem State.condMap_mem (s : State) (g : Head) : (s.condMap g).mem = s.mem := State.condition_mem ..
@[simp] theorem State.condMap_sec (s : State) (g : Head) : (s.condMap g).sec = s.sec := State.condition_sec ..
@[simp] theorem State.condMap_nor (s : State) (g : Head) : (s.condMap g).nor = s.nor := State.condition_nor ..
@[simp] theorem State.condMap_fuse (s : State) (g : Head) : (s.condMap g).fuse = s.fuse := State.condition_fuse ..
@[simp] theorem State.condMap_rst (s : State) (g : Head) : (s.condMap g).rst = s.rst := State.condition_rst ..
@[simp] theorem State.condMap_out (s : State) (g : Head) : (s.condMap g).out = s.out := State.condition_out ..
@[simp] theorem State.condMap_snaps (s : State) (g : Head) : (s.condMap g).snaps = s.snaps := State.condition_snaps ..
/-! `State.condHif` -/
@[simp] theorem State.condHif_pending (s : State)  : (s.condHif ).pending = s.pending := State.condition_pending ..
@[simp] theorem State.condHif_free (s : State)  : (s.condHif ).free = s.free := State.condition_free ..
@[simp] theorem State.condHif_mtime (s : State)  : (s.condHif ).mtime = s.mtime := State.condition_mtime ..
@[simp] theorem State.condHif_layout (s : State)  : (s.condHif ).layout = s.layout := State.condition_layout ..
@[simp] theorem State.condHif_eng (s : State)  : (s.condHif ).eng = s.eng := State.condition_eng ..
@[simp] theorem State.condHif_head (s : State)  : (s.condHif ).head = s.head := State.condition_head ..
@[simp] theorem State.condHif_slice (s : State)  : (s.condHif ).slice = s.slice := State.condition_slice ..
@[simp] theorem State.condHif_lane (s : State)  : (s.condHif ).lane = s.lane := State.condition_lane ..
@[simp] theorem State.condHif_pool (s : State)  : (s.condHif ).pool = s.pool := State.condition_pool ..
@[simp] theorem State.condHif_mems (s : State)  : (s.condHif ).mems = s.mems := State.condition_mems ..
@[simp] theorem State.condHif_wsl (s : State)  : (s.condHif ).wsl = s.wsl := State.condition_wsl ..
@[simp] theorem State.condHif_lpe (s : State)  : (s.condHif ).lpe = s.lpe := State.condition_lpe ..
@[simp] theorem State.condHif_spn (s : State)  : (s.condHif ).spn = s.spn := State.condition_spn ..
@[simp] theorem State.condHif_media (s : State)  : (s.condHif ).media = s.media := State.condition_media ..
@[simp] theorem State.condHif_host (s : State)  : (s.condHif ).host = s.host := State.condition_host ..
@[simp] theorem State.condHif_q (s : State)  : (s.condHif ).q = s.q := State.condition_q ..
@[simp] theorem State.condHif_het (s : State)  : (s.condHif ).het = s.het := State.condition_het ..
@[simp] theorem State.condHif_pwr (s : State)  : (s.condHif ).pwr = s.pwr := State.condition_pwr ..
@[simp] theorem State.condHif_mem (s : State)  : (s.condHif ).mem = s.mem := State.condition_mem ..
@[simp] theorem State.condHif_sec (s : State)  : (s.condHif ).sec = s.sec := State.condition_sec ..
@[simp] theorem State.condHif_nor (s : State)  : (s.condHif ).nor = s.nor := State.condition_nor ..
@[simp] theorem State.condHif_fuse (s : State)  : (s.condHif ).fuse = s.fuse := State.condition_fuse ..
@[simp] theorem State.condHif_rst (s : State)  : (s.condHif ).rst = s.rst := State.condition_rst ..
@[simp] theorem State.condHif_out (s : State)  : (s.condHif ).out = s.out := State.condition_out ..
@[simp] theorem State.condHif_snaps (s : State)  : (s.condHif ).snaps = s.snaps := State.condition_snaps ..
/-! `State.condQpl` -/
@[simp] theorem State.condQpl_pending (s : State)  : (s.condQpl ).pending = s.pending := State.condition_pending ..
@[simp] theorem State.condQpl_free (s : State)  : (s.condQpl ).free = s.free := State.condition_free ..
@[simp] theorem State.condQpl_mtime (s : State)  : (s.condQpl ).mtime = s.mtime := State.condition_mtime ..
@[simp] theorem State.condQpl_layout (s : State)  : (s.condQpl ).layout = s.layout := State.condition_layout ..
@[simp] theorem State.condQpl_eng (s : State)  : (s.condQpl ).eng = s.eng := State.condition_eng ..
@[simp] theorem State.condQpl_head (s : State)  : (s.condQpl ).head = s.head := State.condition_head ..
@[simp] theorem State.condQpl_slice (s : State)  : (s.condQpl ).slice = s.slice := State.condition_slice ..
@[simp] theorem State.condQpl_lane (s : State)  : (s.condQpl ).lane = s.lane := State.condition_lane ..
@[simp] theorem State.condQpl_pool (s : State)  : (s.condQpl ).pool = s.pool := State.condition_pool ..
@[simp] theorem State.condQpl_mems (s : State)  : (s.condQpl ).mems = s.mems := State.condition_mems ..
@[simp] theorem State.condQpl_wsl (s : State)  : (s.condQpl ).wsl = s.wsl := State.condition_wsl ..
@[simp] theorem State.condQpl_lpe (s : State)  : (s.condQpl ).lpe = s.lpe := State.condition_lpe ..
@[simp] theorem State.condQpl_spn (s : State)  : (s.condQpl ).spn = s.spn := State.condition_spn ..
@[simp] theorem State.condQpl_media (s : State)  : (s.condQpl ).media = s.media := State.condition_media ..
@[simp] theorem State.condQpl_host (s : State)  : (s.condQpl ).host = s.host := State.condition_host ..
@[simp] theorem State.condQpl_q (s : State)  : (s.condQpl ).q = s.q := State.condition_q ..
@[simp] theorem State.condQpl_het (s : State)  : (s.condQpl ).het = s.het := State.condition_het ..
@[simp] theorem State.condQpl_pwr (s : State)  : (s.condQpl ).pwr = s.pwr := State.condition_pwr ..
@[simp] theorem State.condQpl_mem (s : State)  : (s.condQpl ).mem = s.mem := State.condition_mem ..
@[simp] theorem State.condQpl_sec (s : State)  : (s.condQpl ).sec = s.sec := State.condition_sec ..
@[simp] theorem State.condQpl_nor (s : State)  : (s.condQpl ).nor = s.nor := State.condition_nor ..
@[simp] theorem State.condQpl_fuse (s : State)  : (s.condQpl ).fuse = s.fuse := State.condition_fuse ..
@[simp] theorem State.condQpl_rst (s : State)  : (s.condQpl ).rst = s.rst := State.condition_rst ..
@[simp] theorem State.condQpl_out (s : State)  : (s.condQpl ).out = s.out := State.condition_out ..
@[simp] theorem State.condQpl_snaps (s : State)  : (s.condQpl ).snaps = s.snaps := State.condition_snaps ..
/-! `State.condPwr` -/
@[simp] theorem State.condPwr_pending (s : State)  : (s.condPwr ).pending = s.pending := State.condition_pending ..
@[simp] theorem State.condPwr_free (s : State)  : (s.condPwr ).free = s.free := State.condition_free ..
@[simp] theorem State.condPwr_mtime (s : State)  : (s.condPwr ).mtime = s.mtime := State.condition_mtime ..
@[simp] theorem State.condPwr_layout (s : State)  : (s.condPwr ).layout = s.layout := State.condition_layout ..
@[simp] theorem State.condPwr_eng (s : State)  : (s.condPwr ).eng = s.eng := State.condition_eng ..
@[simp] theorem State.condPwr_head (s : State)  : (s.condPwr ).head = s.head := State.condition_head ..
@[simp] theorem State.condPwr_slice (s : State)  : (s.condPwr ).slice = s.slice := State.condition_slice ..
@[simp] theorem State.condPwr_lane (s : State)  : (s.condPwr ).lane = s.lane := State.condition_lane ..
@[simp] theorem State.condPwr_pool (s : State)  : (s.condPwr ).pool = s.pool := State.condition_pool ..
@[simp] theorem State.condPwr_mems (s : State)  : (s.condPwr ).mems = s.mems := State.condition_mems ..
@[simp] theorem State.condPwr_wsl (s : State)  : (s.condPwr ).wsl = s.wsl := State.condition_wsl ..
@[simp] theorem State.condPwr_lpe (s : State)  : (s.condPwr ).lpe = s.lpe := State.condition_lpe ..
@[simp] theorem State.condPwr_spn (s : State)  : (s.condPwr ).spn = s.spn := State.condition_spn ..
@[simp] theorem State.condPwr_media (s : State)  : (s.condPwr ).media = s.media := State.condition_media ..
@[simp] theorem State.condPwr_host (s : State)  : (s.condPwr ).host = s.host := State.condition_host ..
@[simp] theorem State.condPwr_q (s : State)  : (s.condPwr ).q = s.q := State.condition_q ..
@[simp] theorem State.condPwr_het (s : State)  : (s.condPwr ).het = s.het := State.condition_het ..
@[simp] theorem State.condPwr_pwr (s : State)  : (s.condPwr ).pwr = s.pwr := State.condition_pwr ..
@[simp] theorem State.condPwr_mem (s : State)  : (s.condPwr ).mem = s.mem := State.condition_mem ..
@[simp] theorem State.condPwr_sec (s : State)  : (s.condPwr ).sec = s.sec := State.condition_sec ..
@[simp] theorem State.condPwr_nor (s : State)  : (s.condPwr ).nor = s.nor := State.condition_nor ..
@[simp] theorem State.condPwr_fuse (s : State)  : (s.condPwr ).fuse = s.fuse := State.condition_fuse ..
@[simp] theorem State.condPwr_rst (s : State)  : (s.condPwr ).rst = s.rst := State.condition_rst ..
@[simp] theorem State.condPwr_out (s : State)  : (s.condPwr ).out = s.out := State.condition_out ..
@[simp] theorem State.condPwr_snaps (s : State)  : (s.condPwr ).snaps = s.snaps := State.condition_snaps ..
/-! `State.condPwrEng` -/
@[simp] theorem State.condPwrEng_pending (s : State) (a : Eng) : (s.condPwrEng a).pending = s.pending := State.condition_pending ..
@[simp] theorem State.condPwrEng_free (s : State) (a : Eng) : (s.condPwrEng a).free = s.free := State.condition_free ..
@[simp] theorem State.condPwrEng_mtime (s : State) (a : Eng) : (s.condPwrEng a).mtime = s.mtime := State.condition_mtime ..
@[simp] theorem State.condPwrEng_layout (s : State) (a : Eng) : (s.condPwrEng a).layout = s.layout := State.condition_layout ..
@[simp] theorem State.condPwrEng_eng (s : State) (a : Eng) : (s.condPwrEng a).eng = s.eng := State.condition_eng ..
@[simp] theorem State.condPwrEng_head (s : State) (a : Eng) : (s.condPwrEng a).head = s.head := State.condition_head ..
@[simp] theorem State.condPwrEng_slice (s : State) (a : Eng) : (s.condPwrEng a).slice = s.slice := State.condition_slice ..
@[simp] theorem State.condPwrEng_lane (s : State) (a : Eng) : (s.condPwrEng a).lane = s.lane := State.condition_lane ..
@[simp] theorem State.condPwrEng_pool (s : State) (a : Eng) : (s.condPwrEng a).pool = s.pool := State.condition_pool ..
@[simp] theorem State.condPwrEng_mems (s : State) (a : Eng) : (s.condPwrEng a).mems = s.mems := State.condition_mems ..
@[simp] theorem State.condPwrEng_wsl (s : State) (a : Eng) : (s.condPwrEng a).wsl = s.wsl := State.condition_wsl ..
@[simp] theorem State.condPwrEng_lpe (s : State) (a : Eng) : (s.condPwrEng a).lpe = s.lpe := State.condition_lpe ..
@[simp] theorem State.condPwrEng_spn (s : State) (a : Eng) : (s.condPwrEng a).spn = s.spn := State.condition_spn ..
@[simp] theorem State.condPwrEng_media (s : State) (a : Eng) : (s.condPwrEng a).media = s.media := State.condition_media ..
@[simp] theorem State.condPwrEng_host (s : State) (a : Eng) : (s.condPwrEng a).host = s.host := State.condition_host ..
@[simp] theorem State.condPwrEng_q (s : State) (a : Eng) : (s.condPwrEng a).q = s.q := State.condition_q ..
@[simp] theorem State.condPwrEng_het (s : State) (a : Eng) : (s.condPwrEng a).het = s.het := State.condition_het ..
@[simp] theorem State.condPwrEng_pwr (s : State) (a : Eng) : (s.condPwrEng a).pwr = s.pwr := State.condition_pwr ..
@[simp] theorem State.condPwrEng_mem (s : State) (a : Eng) : (s.condPwrEng a).mem = s.mem := State.condition_mem ..
@[simp] theorem State.condPwrEng_sec (s : State) (a : Eng) : (s.condPwrEng a).sec = s.sec := State.condition_sec ..
@[simp] theorem State.condPwrEng_nor (s : State) (a : Eng) : (s.condPwrEng a).nor = s.nor := State.condition_nor ..
@[simp] theorem State.condPwrEng_fuse (s : State) (a : Eng) : (s.condPwrEng a).fuse = s.fuse := State.condition_fuse ..
@[simp] theorem State.condPwrEng_rst (s : State) (a : Eng) : (s.condPwrEng a).rst = s.rst := State.condition_rst ..
@[simp] theorem State.condPwrEng_out (s : State) (a : Eng) : (s.condPwrEng a).out = s.out := State.condition_out ..
@[simp] theorem State.condPwrEng_snaps (s : State) (a : Eng) : (s.condPwrEng a).snaps = s.snaps := State.condition_snaps ..
/-! `State.condMem` -/
@[simp] theorem State.condMem_pending (s : State)  : (s.condMem ).pending = s.pending := State.condition_pending ..
@[simp] theorem State.condMem_free (s : State)  : (s.condMem ).free = s.free := State.condition_free ..
@[simp] theorem State.condMem_mtime (s : State)  : (s.condMem ).mtime = s.mtime := State.condition_mtime ..
@[simp] theorem State.condMem_layout (s : State)  : (s.condMem ).layout = s.layout := State.condition_layout ..
@[simp] theorem State.condMem_eng (s : State)  : (s.condMem ).eng = s.eng := State.condition_eng ..
@[simp] theorem State.condMem_head (s : State)  : (s.condMem ).head = s.head := State.condition_head ..
@[simp] theorem State.condMem_slice (s : State)  : (s.condMem ).slice = s.slice := State.condition_slice ..
@[simp] theorem State.condMem_lane (s : State)  : (s.condMem ).lane = s.lane := State.condition_lane ..
@[simp] theorem State.condMem_pool (s : State)  : (s.condMem ).pool = s.pool := State.condition_pool ..
@[simp] theorem State.condMem_mems (s : State)  : (s.condMem ).mems = s.mems := State.condition_mems ..
@[simp] theorem State.condMem_wsl (s : State)  : (s.condMem ).wsl = s.wsl := State.condition_wsl ..
@[simp] theorem State.condMem_lpe (s : State)  : (s.condMem ).lpe = s.lpe := State.condition_lpe ..
@[simp] theorem State.condMem_spn (s : State)  : (s.condMem ).spn = s.spn := State.condition_spn ..
@[simp] theorem State.condMem_media (s : State)  : (s.condMem ).media = s.media := State.condition_media ..
@[simp] theorem State.condMem_host (s : State)  : (s.condMem ).host = s.host := State.condition_host ..
@[simp] theorem State.condMem_q (s : State)  : (s.condMem ).q = s.q := State.condition_q ..
@[simp] theorem State.condMem_het (s : State)  : (s.condMem ).het = s.het := State.condition_het ..
@[simp] theorem State.condMem_pwr (s : State)  : (s.condMem ).pwr = s.pwr := State.condition_pwr ..
@[simp] theorem State.condMem_mem (s : State)  : (s.condMem ).mem = s.mem := State.condition_mem ..
@[simp] theorem State.condMem_sec (s : State)  : (s.condMem ).sec = s.sec := State.condition_sec ..
@[simp] theorem State.condMem_nor (s : State)  : (s.condMem ).nor = s.nor := State.condition_nor ..
@[simp] theorem State.condMem_fuse (s : State)  : (s.condMem ).fuse = s.fuse := State.condition_fuse ..
@[simp] theorem State.condMem_rst (s : State)  : (s.condMem ).rst = s.rst := State.condition_rst ..
@[simp] theorem State.condMem_out (s : State)  : (s.condMem ).out = s.out := State.condition_out ..
@[simp] theorem State.condMem_snaps (s : State)  : (s.condMem ).snaps = s.snaps := State.condition_snaps ..
/-! `State.condSec` -/
@[simp] theorem State.condSec_pending (s : State)  : (s.condSec ).pending = s.pending := State.condition_pending ..
@[simp] theorem State.condSec_free (s : State)  : (s.condSec ).free = s.free := State.condition_free ..
@[simp] theorem State.condSec_mtime (s : State)  : (s.condSec ).mtime = s.mtime := State.condition_mtime ..
@[simp] theorem State.condSec_layout (s : State)  : (s.condSec ).layout = s.layout := State.condition_layout ..
@[simp] theorem State.condSec_eng (s : State)  : (s.condSec ).eng = s.eng := State.condition_eng ..
@[simp] theorem State.condSec_head (s : State)  : (s.condSec ).head = s.head := State.condition_head ..
@[simp] theorem State.condSec_slice (s : State)  : (s.condSec ).slice = s.slice := State.condition_slice ..
@[simp] theorem State.condSec_lane (s : State)  : (s.condSec ).lane = s.lane := State.condition_lane ..
@[simp] theorem State.condSec_pool (s : State)  : (s.condSec ).pool = s.pool := State.condition_pool ..
@[simp] theorem State.condSec_mems (s : State)  : (s.condSec ).mems = s.mems := State.condition_mems ..
@[simp] theorem State.condSec_wsl (s : State)  : (s.condSec ).wsl = s.wsl := State.condition_wsl ..
@[simp] theorem State.condSec_lpe (s : State)  : (s.condSec ).lpe = s.lpe := State.condition_lpe ..
@[simp] theorem State.condSec_spn (s : State)  : (s.condSec ).spn = s.spn := State.condition_spn ..
@[simp] theorem State.condSec_media (s : State)  : (s.condSec ).media = s.media := State.condition_media ..
@[simp] theorem State.condSec_host (s : State)  : (s.condSec ).host = s.host := State.condition_host ..
@[simp] theorem State.condSec_q (s : State)  : (s.condSec ).q = s.q := State.condition_q ..
@[simp] theorem State.condSec_het (s : State)  : (s.condSec ).het = s.het := State.condition_het ..
@[simp] theorem State.condSec_pwr (s : State)  : (s.condSec ).pwr = s.pwr := State.condition_pwr ..
@[simp] theorem State.condSec_mem (s : State)  : (s.condSec ).mem = s.mem := State.condition_mem ..
@[simp] theorem State.condSec_sec (s : State)  : (s.condSec ).sec = s.sec := State.condition_sec ..
@[simp] theorem State.condSec_nor (s : State)  : (s.condSec ).nor = s.nor := State.condition_nor ..
@[simp] theorem State.condSec_fuse (s : State)  : (s.condSec ).fuse = s.fuse := State.condition_fuse ..
@[simp] theorem State.condSec_rst (s : State)  : (s.condSec ).rst = s.rst := State.condition_rst ..
@[simp] theorem State.condSec_out (s : State)  : (s.condSec ).out = s.out := State.condition_out ..
@[simp] theorem State.condSec_snaps (s : State)  : (s.condSec ).snaps = s.snaps := State.condition_snaps ..
/-! `State.condRst` -/
@[simp] theorem State.condRst_pending (s : State)  : (s.condRst ).pending = s.pending := State.condition_pending ..
@[simp] theorem State.condRst_free (s : State)  : (s.condRst ).free = s.free := State.condition_free ..
@[simp] theorem State.condRst_mtime (s : State)  : (s.condRst ).mtime = s.mtime := State.condition_mtime ..
@[simp] theorem State.condRst_layout (s : State)  : (s.condRst ).layout = s.layout := State.condition_layout ..
@[simp] theorem State.condRst_eng (s : State)  : (s.condRst ).eng = s.eng := State.condition_eng ..
@[simp] theorem State.condRst_head (s : State)  : (s.condRst ).head = s.head := State.condition_head ..
@[simp] theorem State.condRst_slice (s : State)  : (s.condRst ).slice = s.slice := State.condition_slice ..
@[simp] theorem State.condRst_lane (s : State)  : (s.condRst ).lane = s.lane := State.condition_lane ..
@[simp] theorem State.condRst_pool (s : State)  : (s.condRst ).pool = s.pool := State.condition_pool ..
@[simp] theorem State.condRst_mems (s : State)  : (s.condRst ).mems = s.mems := State.condition_mems ..
@[simp] theorem State.condRst_wsl (s : State)  : (s.condRst ).wsl = s.wsl := State.condition_wsl ..
@[simp] theorem State.condRst_lpe (s : State)  : (s.condRst ).lpe = s.lpe := State.condition_lpe ..
@[simp] theorem State.condRst_spn (s : State)  : (s.condRst ).spn = s.spn := State.condition_spn ..
@[simp] theorem State.condRst_media (s : State)  : (s.condRst ).media = s.media := State.condition_media ..
@[simp] theorem State.condRst_host (s : State)  : (s.condRst ).host = s.host := State.condition_host ..
@[simp] theorem State.condRst_q (s : State)  : (s.condRst ).q = s.q := State.condition_q ..
@[simp] theorem State.condRst_het (s : State)  : (s.condRst ).het = s.het := State.condition_het ..
@[simp] theorem State.condRst_pwr (s : State)  : (s.condRst ).pwr = s.pwr := State.condition_pwr ..
@[simp] theorem State.condRst_mem (s : State)  : (s.condRst ).mem = s.mem := State.condition_mem ..
@[simp] theorem State.condRst_sec (s : State)  : (s.condRst ).sec = s.sec := State.condition_sec ..
@[simp] theorem State.condRst_nor (s : State)  : (s.condRst ).nor = s.nor := State.condition_nor ..
@[simp] theorem State.condRst_fuse (s : State)  : (s.condRst ).fuse = s.fuse := State.condition_fuse ..
@[simp] theorem State.condRst_rst (s : State)  : (s.condRst ).rst = s.rst := State.condition_rst ..
@[simp] theorem State.condRst_out (s : State)  : (s.condRst ).out = s.out := State.condition_out ..
@[simp] theorem State.condRst_snaps (s : State)  : (s.condRst ).snaps = s.snaps := State.condition_snaps ..
/-! `State.condAct` -/
@[simp] theorem State.condAct_pending (s : State) (a : Eng) : (s.condAct a).pending = s.pending := State.condition_pending ..
@[simp] theorem State.condAct_free (s : State) (a : Eng) : (s.condAct a).free = s.free := State.condition_free ..
@[simp] theorem State.condAct_mtime (s : State) (a : Eng) : (s.condAct a).mtime = s.mtime := State.condition_mtime ..
@[simp] theorem State.condAct_layout (s : State) (a : Eng) : (s.condAct a).layout = s.layout := State.condition_layout ..
@[simp] theorem State.condAct_eng (s : State) (a : Eng) : (s.condAct a).eng = s.eng := State.condition_eng ..
@[simp] theorem State.condAct_head (s : State) (a : Eng) : (s.condAct a).head = s.head := State.condition_head ..
@[simp] theorem State.condAct_slice (s : State) (a : Eng) : (s.condAct a).slice = s.slice := State.condition_slice ..
@[simp] theorem State.condAct_lane (s : State) (a : Eng) : (s.condAct a).lane = s.lane := State.condition_lane ..
@[simp] theorem State.condAct_pool (s : State) (a : Eng) : (s.condAct a).pool = s.pool := State.condition_pool ..
@[simp] theorem State.condAct_mems (s : State) (a : Eng) : (s.condAct a).mems = s.mems := State.condition_mems ..
@[simp] theorem State.condAct_wsl (s : State) (a : Eng) : (s.condAct a).wsl = s.wsl := State.condition_wsl ..
@[simp] theorem State.condAct_lpe (s : State) (a : Eng) : (s.condAct a).lpe = s.lpe := State.condition_lpe ..
@[simp] theorem State.condAct_spn (s : State) (a : Eng) : (s.condAct a).spn = s.spn := State.condition_spn ..
@[simp] theorem State.condAct_media (s : State) (a : Eng) : (s.condAct a).media = s.media := State.condition_media ..
@[simp] theorem State.condAct_host (s : State) (a : Eng) : (s.condAct a).host = s.host := State.condition_host ..
@[simp] theorem State.condAct_q (s : State) (a : Eng) : (s.condAct a).q = s.q := State.condition_q ..
@[simp] theorem State.condAct_het (s : State) (a : Eng) : (s.condAct a).het = s.het := State.condition_het ..
@[simp] theorem State.condAct_pwr (s : State) (a : Eng) : (s.condAct a).pwr = s.pwr := State.condition_pwr ..
@[simp] theorem State.condAct_mem (s : State) (a : Eng) : (s.condAct a).mem = s.mem := State.condition_mem ..
@[simp] theorem State.condAct_sec (s : State) (a : Eng) : (s.condAct a).sec = s.sec := State.condition_sec ..
@[simp] theorem State.condAct_nor (s : State) (a : Eng) : (s.condAct a).nor = s.nor := State.condition_nor ..
@[simp] theorem State.condAct_fuse (s : State) (a : Eng) : (s.condAct a).fuse = s.fuse := State.condition_fuse ..
@[simp] theorem State.condAct_rst (s : State) (a : Eng) : (s.condAct a).rst = s.rst := State.condition_rst ..
@[simp] theorem State.condAct_out (s : State) (a : Eng) : (s.condAct a).out = s.out := State.condition_out ..
@[simp] theorem State.condAct_snaps (s : State) (a : Eng) : (s.condAct a).snaps = s.snaps := State.condition_snaps ..
/-! `State.condMod` -/
@[simp] theorem State.condMod_pending (s : State) (level index : Nat) : (s.condMod level index).pending = s.pending := State.condition_pending ..
@[simp] theorem State.condMod_free (s : State) (level index : Nat) : (s.condMod level index).free = s.free := State.condition_free ..
@[simp] theorem State.condMod_mtime (s : State) (level index : Nat) : (s.condMod level index).mtime = s.mtime := State.condition_mtime ..
@[simp] theorem State.condMod_layout (s : State) (level index : Nat) : (s.condMod level index).layout = s.layout := State.condition_layout ..
@[simp] theorem State.condMod_eng (s : State) (level index : Nat) : (s.condMod level index).eng = s.eng := State.condition_eng ..
@[simp] theorem State.condMod_head (s : State) (level index : Nat) : (s.condMod level index).head = s.head := State.condition_head ..
@[simp] theorem State.condMod_slice (s : State) (level index : Nat) : (s.condMod level index).slice = s.slice := State.condition_slice ..
@[simp] theorem State.condMod_lane (s : State) (level index : Nat) : (s.condMod level index).lane = s.lane := State.condition_lane ..
@[simp] theorem State.condMod_pool (s : State) (level index : Nat) : (s.condMod level index).pool = s.pool := State.condition_pool ..
@[simp] theorem State.condMod_mems (s : State) (level index : Nat) : (s.condMod level index).mems = s.mems := State.condition_mems ..
@[simp] theorem State.condMod_wsl (s : State) (level index : Nat) : (s.condMod level index).wsl = s.wsl := State.condition_wsl ..
@[simp] theorem State.condMod_lpe (s : State) (level index : Nat) : (s.condMod level index).lpe = s.lpe := State.condition_lpe ..
@[simp] theorem State.condMod_spn (s : State) (level index : Nat) : (s.condMod level index).spn = s.spn := State.condition_spn ..
@[simp] theorem State.condMod_media (s : State) (level index : Nat) : (s.condMod level index).media = s.media := State.condition_media ..
@[simp] theorem State.condMod_host (s : State) (level index : Nat) : (s.condMod level index).host = s.host := State.condition_host ..
@[simp] theorem State.condMod_q (s : State) (level index : Nat) : (s.condMod level index).q = s.q := State.condition_q ..
@[simp] theorem State.condMod_het (s : State) (level index : Nat) : (s.condMod level index).het = s.het := State.condition_het ..
@[simp] theorem State.condMod_pwr (s : State) (level index : Nat) : (s.condMod level index).pwr = s.pwr := State.condition_pwr ..
@[simp] theorem State.condMod_mem (s : State) (level index : Nat) : (s.condMod level index).mem = s.mem := State.condition_mem ..
@[simp] theorem State.condMod_sec (s : State) (level index : Nat) : (s.condMod level index).sec = s.sec := State.condition_sec ..
@[simp] theorem State.condMod_nor (s : State) (level index : Nat) : (s.condMod level index).nor = s.nor := State.condition_nor ..
@[simp] theorem State.condMod_fuse (s : State) (level index : Nat) : (s.condMod level index).fuse = s.fuse := State.condition_fuse ..
@[simp] theorem State.condMod_rst (s : State) (level index : Nat) : (s.condMod level index).rst = s.rst := State.condition_rst ..
@[simp] theorem State.condMod_out (s : State) (level index : Nat) : (s.condMod level index).out = s.out := State.condition_out ..
@[simp] theorem State.condMod_snaps (s : State) (level index : Nat) : (s.condMod level index).snaps = s.snaps := State.condition_snaps ..

end Sys2Proof.Machine
end

