-- ==== Sys2Proof/Laws/Packet.lean ====
section
/-! SUPPORT. What a Hetos packet does around its own rule: starting it changes the packet block only, its reply changes the packet
block, the outputs, the host link, the trace buffers and the recorder only, and a ready packet replies at once. -/

namespace Sys2Proof.Machine
open Sys2Proof
set_option Elab.async false

/-- t differs from s only in what a reply touches: the packet block, the outputs, the host link, trace buffers and recorder. -/
def ReplyShape (s t : State) : Prop :=
  ∃ het out host trc evr, t = { s with het := het, out := out, host := host, trc := trc, evr := evr }

/-- A state has the shape of itself. -/
theorem ReplyShape.refl (s : State) : ReplyShape s s := ⟨s.het, s.out, s.host, s.trc, s.evr, rfl⟩
/-- The shape composes. -/
theorem ReplyShape.trans {s t u : State} (a : ReplyShape s t) (b : ReplyShape t u) : ReplyShape s u := by
  obtain ⟨_, _, _, _, _, rfl⟩ := a
  obtain ⟨_, _, _, _, _, rfl⟩ := b
  exact ⟨_, _, _, _, _, rfl⟩
/-- Either branch. -/
theorem ReplyShape.ite {c : Prop} {_ : Decidable c} {s a b : State} (h1 : ReplyShape s a) (h2 : ReplyShape s b) :
    ReplyShape s (if c then a else b) := by split <;> assumption

/-- An event has the shape. -/
theorem ReplyShape.record (s : State) (type level index reg : Nat) (value : Word) (words : List Word) :
    ReplyShape s (s.record type level index reg value words) := by
  obtain ⟨x, y, h⟩ := s.record_shape type level index reg value words
  exact ⟨s.het, s.out, s.host, x, y, h⟩
/-- The event of a full counter has it. -/
theorem ReplyShape.saturated (s : State) (r : Bool) (subsys level index reg : Nat) (value : Word) :
    ReplyShape s (s.saturated r subsys level index reg value) :=
  .ite (.record ..) (.refl s)
/-- A change of the outputs has it. -/
theorem ReplyShape.modOut (s : State) (f : Outputs → Outputs) : ReplyShape s (s.modOut f) := ⟨s.het, f s.out, s.host, s.trc, s.evr, rfl⟩
/-- A change of the packet block has it. -/
theorem ReplyShape.modHet (s : State) (f : Hetos → Hetos) : ReplyShape s (s.modHet f) := ⟨f s.het, s.out, s.host, s.trc, s.evr, rfl⟩
/-- A change of the host link has it. -/
theorem ReplyShape.modHost (s : State) (f : HostLink → HostLink) : ReplyShape s (s.modHost f) :=
  ⟨s.het, s.out, f s.host, s.trc, s.evr, rfl⟩
/-- A change of a function has it. -/
theorem ReplyShape.modFn (s : State) (n : Fn) (f : FnState → FnState) : ReplyShape s (s.modFn n f) := .modHost ..
/-- A partner's violation has it. -/
theorem ReplyShape.violated (s : State) (v : Violation) (f level index reg : Nat) (value : Word) (words : List Word) :
    ReplyShape s (s.violated v f level index reg value words) := by
  unfold State.violated
  exact .ite (.modHost ..) ((ReplyShape.modHost ..).trans (.record ..))
/-- A completion has it. -/
theorem ReplyShape.post (s : State) (c : Completion) : ReplyShape s (s.post c) := by
  unfold State.post
  extract_lets f irq s1 s2 s3
  have h1 : ReplyShape s s1 := .modFn ..
  refine ReplyShape.trans ?_ (.modOut ..)
  exact .ite ((h1.trans (.modFn ..)).trans (.violated ..)) h1
/-- A partner's violation changes no output. -/
@[simp] theorem State.violated_out (s : State) (v : Violation) (f level index reg : Nat) (value : Word) (words : List Word) :
    (s.violated v f level index reg value words).out = s.out := by
  unfold State.violated
  dsimp only
  split <;> simp
/-- A completion adds no reply. -/
theorem post_replies (s : State) (c : Completion) : (s.post c).out.replies = s.out.replies := by
  unfold State.post
  dsimp only
  split <;> simp only [State.modOut_out, State.violated_out, State.modFn_out]
/-- The counters of a packet have it. -/
theorem ReplyShape.countPacket (s : State) (src : Sender) (status clamp : Nat) : ReplyShape s (s.countPacket src status clamp) :=
  (ReplyShape.modHet ..).trans (.saturated ..)

/-- Answers without a command have it, and only add replies. -/
theorem answerIdle_shape (s : State) (ex : Exchange) (l : List (BitVec 16 × Packet)) :
    ReplyShape s (answerIdle s ex l).1 ∧ ∃ later, (answerIdle s ex l).1.out.replies = later ++ s.out.replies := by
  induction l generalizing s ex with
  | nil => exact ⟨.refl s, [], rfl⟩
  | cons x l ih =>
    obtain ⟨op, p⟩ := x
    unfold answerIdle
    split
    · obtain ⟨a, later, h⟩ := ih (s.modOut _) { ex with replies := ex.replies ++ [mkReply op.toNat p.tag 0x0205 0 []] }
      exact ⟨(ReplyShape.modOut ..).trans a, later ++ [_], by rw [h]; simp only [State.modOut_out]; rw [List.append_assoc]; rfl⟩
    · split
      · exact ⟨.refl s, [], rfl⟩
      · extract_lets st r s1
        obtain ⟨a, later, h⟩ := ih ((s1.countPacket ex.src st 0).modOut fun o => { o with replies := (ex.src, r) :: o.replies })
          { ex with replies := ex.replies ++ [r], stopped := p.stop }
        refine ⟨(((ReplyShape.modHet s _).trans (.countPacket s1 ex.src st 0)).trans (.modOut ..)).trans a, later ++ [(ex.src, r)], ?_⟩
        rw [h]
        simp only [State.modOut_out, State.countPacket, State.saturated_out, State.modHet_out, List.append_assoc, s1]
        rfl

/-- The end of an exchange has the shape and adds no reply. -/
theorem endExchange_shape (s : State) (ex : Exchange) :
    ReplyShape s (s.endExchange ex) ∧ (s.endExchange ex).out.replies = s.out.replies := by
  unfold State.endExchange
  extract_lets s1 s2
  have h1 : ReplyShape s s1 := .modHet ..
  have h2 : ReplyShape s s2 := h1.trans (.modOut ..)
  split
  · exact ⟨h1, rfl⟩
  · split
    · dsimp only
      split
      · exact ⟨h2.trans (.post ..), post_replies ..⟩
      · exact ⟨(h2.trans (.modOut ..)).trans (.post ..), post_replies ..⟩
    · exact ⟨h2.trans (.modOut ..), rfl⟩

/-- What follows in an exchange has the shape and only adds replies. -/
theorem advanceExchange_shape (s : State) (ex : Exchange) :
    ReplyShape s (s.advanceExchange ex) ∧ ∃ later, (s.advanceExchange ex).out.replies = later ++ s.out.replies := by
  obtain ⟨h1, later, h2⟩ := answerIdle_shape s ex ex.todo
  unfold State.advanceExchange
  generalize answerIdle s ex ex.todo = r at h1 h2 ⊢
  obtain ⟨s1, e1⟩ := r
  dsimp only at h1 h2 ⊢
  split
  · obtain ⟨a, b⟩ := endExchange_shape s1 e1
    exact ⟨h1.trans a, later, b.trans h2⟩
  · exact ⟨h1.trans (.modHet ..), later, h2⟩

/-- A reply has the shape. -/
theorem reply_shape (s : State) (code : Nat) (p : Packet) (status clamp : Nat) (words : List Word) :
    ReplyShape s (s.reply code p status clamp words) := by
  unfold State.reply
  extract_lets r s1
  have h1 : ReplyShape s s1 := .countPacket ..
  split
  · exact h1.trans (.modOut ..)
  · exact (ReplyShape.ite h1 (h1.trans (.modOut ..))).trans (advanceExchange_shape _ _).1

/-- A reply of an exchange no function reset has dropped stands among the replies. -/
theorem reply_replied (s : State) (code : Nat) (p : Packet) (status clamp : Nat) (words : List Word)
    (h : (s.het.exchanges.all fun x => x.xid != p.xid || !x.dropped) = true) :
    Replied s (s.reply code p status clamp words) code p status clamp words := by
  unfold Replied State.reply
  extract_lets r s1
  have hr : s1.out.replies = s.out.replies := by simp [s1, State.countPacket]
  have hx : s1.het.exchanges = s.het.exchanges := by simp [s1, State.countPacket]
  split
  · exact ⟨[], by simp [hr, r]⟩
  · rename_i ex he
    have hd : ex.dropped = false := by
      have h1 := List.find?_some he
      have h2 := List.mem_of_find?_eq_some he
      rw [hx] at h2
      have h3 := List.all_eq_true.mp h ex h2
      simp only [decide_eq_true_eq] at h1
      simpa [h1] using h3
    obtain ⟨-, later, h4⟩ := advanceExchange_shape (if ex.dropped = true then s1 else s1.modOut fun o =>
      { o with replies := (p.src, r) :: o.replies }) { ex with replies := ex.replies ++ [r], stopped := p.stop && status != 0 }
    refine ⟨later, ?_⟩
    rw [h4]
    simp [hd, hr, r]

/-- A ready packet whose rule does not wait is its rule's state with its reply. -/
theorem runPacket_ready (o : OpInfo) (p : Packet) (s : State) (body : State → PktRes) (h : ready o p s = true)
    (hw : (body (s.startPacket o p)).wait = false) :
    runPacket o p s body = (body (s.startPacket o p)).state.reply o.code p (body (s.startPacket o p)).status
      (body (s.startPacket o p)).clamp (body (s.startPacket o p)).result := by
  simp only [ready, Bool.and_eq_true, Bool.not_eq_true', beq_iff_eq] at h
  obtain ⟨⟨⟨⟨h1, h2⟩, h3⟩, h4⟩, -⟩ := h
  have h5 : headerCheck o p (s.startPacket o p) = 0 := h3
  have h6 : (s.startPacket o p).rst.recovery = false := h2
  simp [runPacket, h1, h5, h6, h4, hw]

/-- Starting a packet drops no exchange. -/
theorem startPacket_exchanges (o : OpInfo) (p : Packet) (s : State) (h : ready o p s = true) :
    ((s.startPacket o p).het.exchanges.all fun x => x.xid != p.xid || !x.dropped) = true := by
  simp only [ready, Bool.and_eq_true] at h
  have h1 := List.all_eq_true.mp h.2
  rw [List.all_eq_true]
  intro x hx
  simp only [State.startPacket, State.modHet_het, List.mem_map] at hx
  obtain ⟨y, hy, rfl⟩ := hx
  have := h1 y hy
  split <;> exact this

/-- A ready packet whose rule neither waits nor touches the list of exchanges or the replies: it completes, its reply stands among the
replies, and the state is its rule's but for what a reply touches. -/
theorem completes_packet {o : OpInfo} {p : Packet} {s : State} {body : State → PktRes} {P : State → Prop} (h : ready o p s = true)
    (hw : (body (s.startPacket o p)).wait = false)
    (hx : (body (s.startPacket o p)).state.het.exchanges = (s.startPacket o p).het.exchanges)
    (ho : (body (s.startPacket o p)).state.out.replies = s.out.replies)
    (hP : ∀ t, ReplyShape (body (s.startPacket o p)).state t →
      Replied s t o.code p (body (s.startPacket o p)).status (body (s.startPacket o p)).clamp (body (s.startPacket o p)).result → P t) :
    Completes (.next (runPacket o p s body)) P := by
  refine ⟨_, rfl, ?_⟩
  rw [runPacket_ready o p s body h hw]
  refine hP _ (reply_shape ..) ?_
  have h1 := reply_replied (body (s.startPacket o p)).state o.code p (body (s.startPacket o p)).status
    (body (s.startPacket o p)).clamp (body (s.startPacket o p)).result (by rw [hx]; exact startPacket_exchanges o p s h)
  unfold Replied at h1 ⊢
  rwa [ho] at h1

end Sys2Proof.Machine
end

