-- ==== Sys2Proof/Laws/MovesRecord.lean ====
section
/-! SUPPORT. What each operation and each command of Machine/Record.lean can touch. -/

namespace Sys2Proof.Machine
open Sys2Proof
set_option linter.all false
set_option Elab.async false

theorem State.traceTrigger_moves (s : State) (x1 : BitVec 3) :
    Moves [.trc] s (State.traceTrigger s x1) := by
  unfold State.traceTrigger
  repeat' (first
    | with_reducible exact Moves.refl _ _
    | with_reducible assumption
    | extract_lets
    | with_reducible refine Moves.ite ?_ ?_
    | with_reducible refine (State.modTrc_moves ..).after (by decide) ?_
    | with_reducible refine (Moves.fold _ _ _ ?_).behind ?_
    | intro _
    | split
    | ((conv => arg 3; with_reducible whnf); split))

theorem State.pushLost_moves (s : State) :
    Moves [.evr] s (State.pushLost s) := by
  unfold State.pushLost
  repeat' (first
    | with_reducible exact Moves.refl _ _
    | with_reducible assumption
    | extract_lets
    | with_reducible refine Moves.ite ?_ ?_
    | with_reducible refine (State.modEvr_moves ..).after (by decide) ?_
    | with_reducible refine (Moves.fold _ _ _ ?_).behind ?_
    | intro _
    | split
    | ((conv => arg 3; with_reducible whnf); split))

theorem State.loseRecord_moves (s : State) :
    Moves [.evr] s (State.loseRecord s) := by
  unfold State.loseRecord
  repeat' (first
    | with_reducible exact Moves.refl _ _
    | with_reducible assumption
    | extract_lets
    | with_reducible refine Moves.ite ?_ ?_
    | with_reducible refine (State.modEvr_moves ..).after (by decide) ?_
    | with_reducible refine (Moves.fold _ _ _ ?_).behind ?_
    | intro _
    | split
    | ((conv => arg 3; with_reducible whnf); split))

theorem State.pushRecord_moves (s : State) (x1 : Event) :
    Moves [.evr] s (State.pushRecord s x1) := by
  unfold State.pushRecord
  repeat' (first
    | with_reducible exact Moves.refl _ _
    | with_reducible assumption
    | extract_lets
    | with_reducible refine Moves.ite ?_ ?_
    | with_reducible refine (State.loseRecord_moves ..).after (by decide) ?_
    | with_reducible refine (State.pushLost_moves ..).after (by decide) ?_
    | with_reducible refine (State.modEvr_moves ..).after (by decide) ?_
    | with_reducible refine (Moves.fold _ _ _ ?_).behind ?_
    | intro _
    | split
    | ((conv => arg 3; with_reducible whnf); split))

theorem State.record_moves (s : State) (x1 : ℕ) (x2 : ℕ) (x3 : ℕ) (x4 : ℕ) (x5 : Word) (x6 : List Word) :
    Moves [.trc, .evr] s (State.record s x1 x2 x3 x4 x5 x6) := by
  unfold State.record
  repeat' (first
    | with_reducible exact Moves.refl _ _
    | with_reducible assumption
    | extract_lets
    | with_reducible refine Moves.ite ?_ ?_
    | with_reducible refine (State.traceTrigger_moves ..).after (by decide) ?_
    | with_reducible refine (State.pushRecord_moves ..).after (by decide) ?_
    | with_reducible refine (Moves.fold _ _ _ ?_).behind ?_
    | intro _
    | split
    | ((conv => arg 3; with_reducible whnf); split))

theorem State.condition_moves (s : State) (x1 : ℕ) (x2 : ℕ) (x3 : ℕ) (x4 : ℕ) (x5 : Word) (x6 : List Word) :
    Moves [.trc, .evr] s (State.condition s x1 x2 x3 x4 x5 x6) := by
  unfold State.condition
  repeat' (first
    | with_reducible exact Moves.refl _ _
    | with_reducible assumption
    | extract_lets
    | with_reducible refine Moves.ite ?_ ?_
    | with_reducible refine (State.record_moves ..).after (by decide) ?_
    | with_reducible refine (Moves.fold _ _ _ ?_).behind ?_
    | intro _
    | split
    | ((conv => arg 3; with_reducible whnf); split))

theorem State.violation_moves (s : State) (x1 : ℕ) (x2 : ℕ) (x3 : ℕ) (x4 : ℕ) (x5 : Word) (x6 : List Word) :
    Moves [.trc, .evr] s (State.violation s x1 x2 x3 x4 x5 x6) := by
  unfold State.violation
  repeat' (first
    | with_reducible exact Moves.refl _ _
    | with_reducible assumption
    | extract_lets
    | with_reducible refine Moves.ite ?_ ?_
    | with_reducible refine (State.record_moves ..).after (by decide) ?_
    | with_reducible refine (Moves.fold _ _ _ ?_).behind ?_
    | intro _
    | split
    | ((conv => arg 3; with_reducible whnf); split))

theorem State.saturated_moves (s : State) (x1 : Bool) (x2 : ℕ) (x3 : ℕ) (x4 : ℕ) (x5 : ℕ) (x6 : Word) :
    Moves [.trc, .evr] s (State.saturated s x1 x2 x3 x4 x5 x6) := by
  unfold State.saturated
  repeat' (first
    | with_reducible exact Moves.refl _ _
    | with_reducible assumption
    | extract_lets
    | with_reducible refine Moves.ite ?_ ?_
    | with_reducible refine (State.record_moves ..).after (by decide) ?_
    | with_reducible refine (Moves.fold _ _ _ ?_).behind ?_
    | intro _
    | split
    | ((conv => arg 3; with_reducible whnf); split))

theorem State.condReel_moves (s : State) (x1 : Eng) :
    Moves [.trc, .evr] s (State.condReel s x1) := by
  unfold State.condReel
  repeat' (first
    | with_reducible exact Moves.refl _ _
    | with_reducible assumption
    | extract_lets
    | with_reducible refine Moves.ite ?_ ?_
    | with_reducible refine (State.condition_moves ..).after (by decide) ?_
    | with_reducible refine (Moves.fold _ _ _ ?_).behind ?_
    | intro _
    | split
    | ((conv => arg 3; with_reducible whnf); split))

theorem State.condLink_moves (s : State) (x1 : Eng) (x2 : LinkIx) :
    Moves [.trc, .evr] s (State.condLink s x1 x2) := by
  unfold State.condLink
  repeat' (first
    | with_reducible exact Moves.refl _ _
    | with_reducible assumption
    | extract_lets
    | with_reducible refine Moves.ite ?_ ?_
    | with_reducible refine (State.condition_moves ..).after (by decide) ?_
    | with_reducible refine (Moves.fold _ _ _ ?_).behind ?_
    | intro _
    | split
    | ((conv => arg 3; with_reducible whnf); split))

theorem State.condSlice_moves (s : State) (x1 : SliceIx) :
    Moves [.trc, .evr] s (State.condSlice s x1) := by
  unfold State.condSlice
  repeat' (first
    | with_reducible exact Moves.refl _ _
    | with_reducible assumption
    | extract_lets
    | with_reducible refine Moves.ite ?_ ?_
    | with_reducible refine (State.condition_moves ..).after (by decide) ?_
    | with_reducible refine (Moves.fold _ _ _ ?_).behind ?_
    | intro _
    | split
    | ((conv => arg 3; with_reducible whnf); split))

theorem State.condDet_moves (s : State) (x1 : Head) :
    Moves [.trc, .evr] s (State.condDet s x1) := by
  unfold State.condDet
  repeat' (first
    | with_reducible exact Moves.refl _ _
    | with_reducible assumption
    | extract_lets
    | with_reducible refine Moves.ite ?_ ?_
    | with_reducible refine (State.condition_moves ..).after (by decide) ?_
    | with_reducible refine (Moves.fold _ _ _ ?_).behind ?_
    | intro _
    | split
    | ((conv => arg 3; with_reducible whnf); split))

theorem State.condPool_moves (s : State) :
    Moves [.trc, .evr] s (State.condPool s) := by
  unfold State.condPool
  repeat' (first
    | with_reducible exact Moves.refl _ _
    | with_reducible assumption
    | extract_lets
    | with_reducible refine Moves.ite ?_ ?_
    | with_reducible refine (State.condition_moves ..).after (by decide) ?_
    | with_reducible refine (Moves.fold _ _ _ ?_).behind ?_
    | intro _
    | split
    | ((conv => arg 3; with_reducible whnf); split))

theorem State.condRec_moves (s : State) (x1 : Eng) :
    Moves [.trc, .evr] s (State.condRec s x1) := by
  unfold State.condRec
  repeat' (first
    | with_reducible exact Moves.refl _ _
    | with_reducible assumption
    | extract_lets
    | with_reducible refine Moves.ite ?_ ?_
    | with_reducible refine (State.condition_moves ..).after (by decide) ?_
    | with_reducible refine (Moves.fold _ _ _ ?_).behind ?_
    | intro _
    | split
    | ((conv => arg 3; with_reducible whnf); split))

theorem State.condWrg_moves (s : State) (x1 : Eng) (x2 : ℕ) :
    Moves [.trc, .evr] s (State.condWrg s x1 x2) := by
  unfold State.condWrg
  repeat' (first
    | with_reducible exact Moves.refl _ _
    | with_reducible assumption
    | extract_lets
    | with_reducible refine Moves.ite ?_ ?_
    | with_reducible refine (State.condition_moves ..).after (by decide) ?_
    | with_reducible refine (Moves.fold _ _ _ ?_).behind ?_
    | intro _
    | split
    | ((conv => arg 3; with_reducible whnf); split))

theorem State.condWr_moves (s : State) (x1 : Head) :
    Moves [.trc, .evr] s (State.condWr s x1) := by
  unfold State.condWr
  repeat' (first
    | with_reducible exact Moves.refl _ _
    | with_reducible assumption
    | extract_lets
    | with_reducible refine Moves.ite ?_ ?_
    | with_reducible refine (State.condition_moves ..).after (by decide) ?_
    | with_reducible refine (Moves.fold _ _ _ ?_).behind ?_
    | intro _
    | split
    | ((conv => arg 3; with_reducible whnf); split))

theorem State.condSrv_moves (s : State) (x1 : Eng) :
    Moves [.trc, .evr] s (State.condSrv s x1) := by
  unfold State.condSrv
  repeat' (first
    | with_reducible exact Moves.refl _ _
    | with_reducible assumption
    | extract_lets
    | with_reducible refine Moves.ite ?_ ?_
    | with_reducible refine (State.condition_moves ..).after (by decide) ?_
    | with_reducible refine (Moves.fold _ _ _ ?_).behind ?_
    | intro _
    | split
    | ((conv => arg 3; with_reducible whnf); split))

theorem State.condSrvH_moves (s : State) (x1 : Head) :
    Moves [.trc, .evr] s (State.condSrvH s x1) := by
  unfold State.condSrvH
  repeat' (first
    | with_reducible exact Moves.refl _ _
    | with_reducible assumption
    | extract_lets
    | with_reducible refine Moves.ite ?_ ?_
    | with_reducible refine (State.condition_moves ..).after (by decide) ?_
    | with_reducible refine (Moves.fold _ _ _ ?_).behind ?_
    | intro _
    | split
    | ((conv => arg 3; with_reducible whnf); split))

theorem State.condLoop_moves (s : State) (x1 : LoopIx) :
    Moves [.trc, .evr] s (State.condLoop s x1) := by
  unfold State.condLoop
  repeat' (first
    | with_reducible exact Moves.refl _ _
    | with_reducible assumption
    | extract_lets
    | with_reducible refine Moves.ite ?_ ?_
    | with_reducible refine (State.condition_moves ..).after (by decide) ?_
    | with_reducible refine (Moves.fold _ _ _ ?_).behind ?_
    | intro _
    | split
    | ((conv => arg 3; with_reducible whnf); split))

theorem State.condSpn_moves (s : State) :
    Moves [.trc, .evr] s (State.condSpn s) := by
  unfold State.condSpn
  repeat' (first
    | with_reducible exact Moves.refl _ _
    | with_reducible assumption
    | extract_lets
    | with_reducible refine Moves.ite ?_ ?_
    | with_reducible refine (State.condition_moves ..).after (by decide) ?_
    | with_reducible refine (Moves.fold _ _ _ ?_).behind ?_
    | intro _
    | split
    | ((conv => arg 3; with_reducible whnf); split))

theorem State.condSeq_moves (s : State) (x1 : Eng) :
    Moves [.trc, .evr] s (State.condSeq s x1) := by
  unfold State.condSeq
  repeat' (first
    | with_reducible exact Moves.refl _ _
    | with_reducible assumption
    | extract_lets
    | with_reducible refine Moves.ite ?_ ?_
    | with_reducible refine (State.condition_moves ..).after (by decide) ?_
    | with_reducible refine (Moves.fold _ _ _ ?_).behind ?_
    | intro _
    | split
    | ((conv => arg 3; with_reducible whnf); split))

theorem State.condZdc_moves (s : State) (x1 : Eng) :
    Moves [.trc, .evr] s (State.condZdc s x1) := by
  unfold State.condZdc
  repeat' (first
    | with_reducible exact Moves.refl _ _
    | with_reducible assumption
    | extract_lets
    | with_reducible refine Moves.ite ?_ ?_
    | with_reducible refine (State.condition_moves ..).after (by decide) ?_
    | with_reducible refine (Moves.fold _ _ _ ?_).behind ?_
    | intro _
    | split
    | ((conv => arg 3; with_reducible whnf); split))

theorem State.condMap_moves (s : State) (x1 : Head) :
    Moves [.trc, .evr] s (State.condMap s x1) := by
  unfold State.condMap
  repeat' (first
    | with_reducible exact Moves.refl _ _
    | with_reducible assumption
    | extract_lets
    | with_reducible refine Moves.ite ?_ ?_
    | with_reducible refine (State.condition_moves ..).after (by decide) ?_
    | with_reducible refine (Moves.fold _ _ _ ?_).behind ?_
    | intro _
    | split
    | ((conv => arg 3; with_reducible whnf); split))

theorem State.condHif_moves (s : State) :
    Moves [.trc, .evr] s (State.condHif s) := by
  unfold State.condHif
  repeat' (first
    | with_reducible exact Moves.refl _ _
    | with_reducible assumption
    | extract_lets
    | with_reducible refine Moves.ite ?_ ?_
    | with_reducible refine (State.condition_moves ..).after (by decide) ?_
    | with_reducible refine (Moves.fold _ _ _ ?_).behind ?_
    | intro _
    | split
    | ((conv => arg 3; with_reducible whnf); split))

theorem State.condQpl_moves (s : State) :
    Moves [.trc, .evr] s (State.condQpl s) := by
  unfold State.condQpl
  repeat' (first
    | with_reducible exact Moves.refl _ _
    | with_reducible assumption
    | extract_lets
    | with_reducible refine Moves.ite ?_ ?_
    | with_reducible refine (State.condition_moves ..).after (by decide) ?_
    | with_reducible refine (Moves.fold _ _ _ ?_).behind ?_
    | intro _
    | split
    | ((conv => arg 3; with_reducible whnf); split))

theorem State.condPwr_moves (s : State) :
    Moves [.trc, .evr] s (State.condPwr s) := by
  unfold State.condPwr
  repeat' (first
    | with_reducible exact Moves.refl _ _
    | with_reducible assumption
    | extract_lets
    | with_reducible refine Moves.ite ?_ ?_
    | with_reducible refine (State.condition_moves ..).after (by decide) ?_
    | with_reducible refine (Moves.fold _ _ _ ?_).behind ?_
    | intro _
    | split
    | ((conv => arg 3; with_reducible whnf); split))

theorem State.condPwrEng_moves (s : State) (x1 : Eng) :
    Moves [.trc, .evr] s (State.condPwrEng s x1) := by
  unfold State.condPwrEng
  repeat' (first
    | with_reducible exact Moves.refl _ _
    | with_reducible assumption
    | extract_lets
    | with_reducible refine Moves.ite ?_ ?_
    | with_reducible refine (State.condition_moves ..).after (by decide) ?_
    | with_reducible refine (Moves.fold _ _ _ ?_).behind ?_
    | intro _
    | split
    | ((conv => arg 3; with_reducible whnf); split))

theorem State.condMem_moves (s : State) :
    Moves [.trc, .evr] s (State.condMem s) := by
  unfold State.condMem
  repeat' (first
    | with_reducible exact Moves.refl _ _
    | with_reducible assumption
    | extract_lets
    | with_reducible refine Moves.ite ?_ ?_
    | with_reducible refine (State.condition_moves ..).after (by decide) ?_
    | with_reducible refine (Moves.fold _ _ _ ?_).behind ?_
    | intro _
    | split
    | ((conv => arg 3; with_reducible whnf); split))

theorem State.condSec_moves (s : State) :
    Moves [.trc, .evr] s (State.condSec s) := by
  unfold State.condSec
  repeat' (first
    | with_reducible exact Moves.refl _ _
    | with_reducible assumption
    | extract_lets
    | with_reducible refine Moves.ite ?_ ?_
    | with_reducible refine (State.condition_moves ..).after (by decide) ?_
    | with_reducible refine (Moves.fold _ _ _ ?_).behind ?_
    | intro _
    | split
    | ((conv => arg 3; with_reducible whnf); split))

theorem State.condRst_moves (s : State) :
    Moves [.trc, .evr] s (State.condRst s) := by
  unfold State.condRst
  repeat' (first
    | with_reducible exact Moves.refl _ _
    | with_reducible assumption
    | extract_lets
    | with_reducible refine Moves.ite ?_ ?_
    | with_reducible refine (State.condition_moves ..).after (by decide) ?_
    | with_reducible refine (Moves.fold _ _ _ ?_).behind ?_
    | intro _
    | split
    | ((conv => arg 3; with_reducible whnf); split))

theorem State.condAct_moves (s : State) (x1 : Eng) :
    Moves [.trc, .evr] s (State.condAct s x1) := by
  unfold State.condAct
  repeat' (first
    | with_reducible exact Moves.refl _ _
    | with_reducible assumption
    | extract_lets
    | with_reducible refine Moves.ite ?_ ?_
    | with_reducible refine (State.condition_moves ..).after (by decide) ?_
    | with_reducible refine (Moves.fold _ _ _ ?_).behind ?_
    | intro _
    | split
    | ((conv => arg 3; with_reducible whnf); split))

theorem State.condMod_moves (s : State) (x1 : ℕ) (x2 : ℕ) :
    Moves [.trc, .evr] s (State.condMod s x1 x2) := by
  unfold State.condMod
  repeat' (first
    | with_reducible exact Moves.refl _ _
    | with_reducible assumption
    | extract_lets
    | with_reducible refine Moves.ite ?_ ?_
    | with_reducible refine (State.condition_moves ..).after (by decide) ?_
    | with_reducible refine (Moves.fold _ _ _ ?_).behind ?_
    | intro _
    | split
    | ((conv => arg 3; with_reducible whnf); split))

end Sys2Proof.Machine
end

