-- ==== Sys2Proof/Laws/MovesHetos.lean ====
section
/-! SUPPORT. What each operation and each command of Machine/Hetos.lean can touch. -/

namespace Sys2Proof.Machine
open Sys2Proof
set_option linter.all false
set_option Elab.async false

theorem State.violated_moves (s : State) (x1 : Violation) (x2 : ℕ) (x3 : ℕ) (x4 : ℕ) (x5 : ℕ) (x6 : Word) (x7 : List Word) :
    Moves [.trc, .host, .evr] s (State.violated s x1 x2 x3 x4 x5 x6 x7) := by
  unfold State.violated
  repeat' (first
    | with_reducible exact Moves.refl _ _
    | with_reducible assumption
    | extract_lets
    | with_reducible refine Moves.ite ?_ ?_
    | with_reducible refine (State.violation_moves ..).after (by decide) ?_
    | with_reducible refine (State.modHost_moves ..).after (by decide) ?_
    | with_reducible refine (Moves.fold _ _ _ ?_).behind ?_
    | intro _
    | split
    | ((conv => arg 3; with_reducible whnf); split))

theorem State.post_moves (s : State) (x1 : Completion) :
    Moves [.trc, .host, .evr, .out] s (State.post s x1) := by
  unfold State.post
  repeat' (first
    | with_reducible exact Moves.refl _ _
    | with_reducible assumption
    | extract_lets
    | with_reducible refine Moves.ite ?_ ?_
    | with_reducible refine (State.violated_moves ..).after (by decide) ?_
    | with_reducible refine (State.modOut_moves ..).after (by decide) ?_
    | with_reducible refine (State.modFn_moves ..).after (by decide) ?_
    | with_reducible refine (Moves.fold _ _ _ ?_).behind ?_
    | intro _
    | split
    | ((conv => arg 3; with_reducible whnf); split))

theorem State.postAdmin_moves (s : State) (x1 : Fn) (x2 : BitVec 16) (x3 : NvStatus) (x4 : Word) (x5 : List Word) :
    Moves [.trc, .host, .evr, .out] s (State.postAdmin s x1 x2 x3 x4 x5) := by
  unfold State.postAdmin
  repeat' (first
    | with_reducible exact Moves.refl _ _
    | with_reducible assumption
    | extract_lets
    | with_reducible refine Moves.ite ?_ ?_
    | with_reducible refine (State.post_moves ..).after (by decide) ?_
    | with_reducible refine (Moves.fold _ _ _ ?_).behind ?_
    | intro _
    | split
    | ((conv => arg 3; with_reducible whnf); split))

theorem State.answerAdmin_moves (s : State) (x1 : AdmReq) (x2 : NvStatus) (x3 : Word) (x4 : List Word) :
    Moves [.trc, .host, .evr, .out] s (State.answerAdmin s x1 x2 x3 x4) := by
  unfold State.answerAdmin
  repeat' (first
    | with_reducible exact Moves.refl _ _
    | with_reducible assumption
    | extract_lets
    | with_reducible refine Moves.ite ?_ ?_
    | with_reducible refine (State.postAdmin_moves ..).after (by decide) ?_
    | with_reducible refine (State.modOut_moves ..).after (by decide) ?_
    | with_reducible refine (Moves.fold _ _ _ ?_).behind ?_
    | intro _
    | split
    | ((conv => arg 3; with_reducible whnf); split))

theorem State.refuseMi_moves (s : State) (x1 : AdmReq) (x2 : Nat) :
    Moves [.out] s (State.refuseMi s x1 x2) := by
  unfold State.refuseMi
  repeat' (first
    | with_reducible exact Moves.refl _ _
    | with_reducible assumption
    | extract_lets
    | with_reducible refine Moves.ite ?_ ?_
    | with_reducible refine (State.modOut_moves ..).after (by decide) ?_
    | with_reducible refine (Moves.fold _ _ _ ?_).behind ?_
    | intro _
    | split
    | ((conv => arg 3; with_reducible whnf); split))

theorem PktRes.fail_moves (s : State) (x1 : ℕ) :
    Moves [] s (PktRes.fail s x1).state := by
  unfold PktRes.fail
  repeat' (first
    | with_reducible exact Moves.refl _ _
    | with_reducible assumption
    | extract_lets
    | with_reducible refine Moves.ite ?_ ?_
    | with_reducible refine Moves.itePkt ?_ ?_
    | with_reducible refine (Moves.fold _ _ _ ?_).behind ?_
    | intro _
    | split
    | ((conv => arg 3; with_reducible whnf); split))

theorem PktRes.report_moves (s : State) (x1 : List Word) :
    Moves [] s (PktRes.report s x1).state := by
  unfold PktRes.report
  repeat' (first
    | with_reducible exact Moves.refl _ _
    | with_reducible assumption
    | extract_lets
    | with_reducible refine Moves.ite ?_ ?_
    | with_reducible refine Moves.itePkt ?_ ?_
    | with_reducible refine (Moves.fold _ _ _ ?_).behind ?_
    | intro _
    | split
    | ((conv => arg 3; with_reducible whnf); split))

theorem State.countPacket_moves (s : State) (x1 : Sender) (x2 : ℕ) (x3 : ℕ) :
    Moves [.trc, .het, .evr] s (State.countPacket s x1 x2 x3) := by
  unfold State.countPacket
  repeat' (first
    | with_reducible exact Moves.refl _ _
    | with_reducible assumption
    | extract_lets
    | with_reducible refine Moves.ite ?_ ?_
    | with_reducible refine (State.saturated_moves ..).after (by decide) ?_
    | with_reducible refine (State.modHet_moves ..).after (by decide) ?_
    | with_reducible refine (Moves.fold _ _ _ ?_).behind ?_
    | intro _
    | split
    | ((conv => arg 3; with_reducible whnf); split))

theorem answerIdle_moves (s : State) (ex : Exchange) (l : List (BitVec 16 × Packet)) :
    Moves [.trc, .het, .evr, .out] s (answerIdle s ex l).1 := by
  induction l generalizing s ex with
  | nil => exact .refl _ s
  | cons x l ih =>
    obtain ⟨op, tag, flags⟩ := x
    unfold answerIdle
    split
    · exact ((State.modOut_moves ..).widen (by decide)).trans (ih ..)
    · split
      · exact .refl _ s
      · exact (((State.modHet_moves ..).widen (by decide)).trans (((State.countPacket_moves ..).widen (by decide)).trans
          ((State.modOut_moves ..).widen (by decide)))).trans (ih ..)

theorem State.endExchange_moves (s : State) (x1 : Exchange) :
    Moves [.trc, .host, .het, .evr, .out] s (State.endExchange s x1) := by
  unfold State.endExchange
  repeat' (first
    | with_reducible exact Moves.refl _ _
    | with_reducible assumption
    | extract_lets
    | with_reducible refine Moves.ite ?_ ?_
    | with_reducible refine (State.modHet_moves ..).after (by decide) ?_
    | with_reducible refine (State.modOut_moves ..).after (by decide) ?_
    | with_reducible refine (State.postAdmin_moves ..).after (by decide) ?_
    | with_reducible refine (Moves.fold _ _ _ ?_).behind ?_
    | intro _
    | split
    | ((conv => arg 3; with_reducible whnf); split))

theorem State.advanceExchange_moves (s : State) (ex : Exchange) :
    Moves [.trc, .host, .het, .evr, .out] s (State.advanceExchange s ex) := by
  have h := answerIdle_moves s ex ex.todo
  unfold State.advanceExchange
  generalize answerIdle s ex ex.todo = r at h ⊢
  obtain ⟨s1, e1⟩ := r
  exact Moves.ite ((h.widen (by decide)).trans ((State.endExchange_moves ..).widen (by decide)))
    ((h.widen (by decide)).trans ((State.modHet_moves ..).widen (by decide)))

theorem State.reply_moves (s : State) (x1 : ℕ) (x2 : Packet) (x3 : ℕ) (x4 : ℕ) (x5 : List Word) :
    Moves [.trc, .host, .het, .evr, .out] s (State.reply s x1 x2 x3 x4 x5) := by
  unfold State.reply
  repeat' (first
    | with_reducible exact Moves.refl _ _
    | with_reducible assumption
    | extract_lets
    | with_reducible refine Moves.ite ?_ ?_
    | with_reducible refine (State.advanceExchange_moves ..).after (by decide) ?_
    | with_reducible refine (State.countPacket_moves ..).after (by decide) ?_
    | with_reducible refine (State.modOut_moves ..).after (by decide) ?_
    | with_reducible refine (Moves.fold _ _ _ ?_).behind ?_
    | intro _
    | split
    | ((conv => arg 3; with_reducible whnf); split))

theorem State.startPacket_moves (s : State) (x1 : OpInfo) (x2 : Packet) :
    Moves [.het] s (State.startPacket s x1 x2) := by
  unfold State.startPacket
  repeat' (first
    | with_reducible exact Moves.refl _ _
    | with_reducible assumption
    | extract_lets
    | with_reducible refine Moves.ite ?_ ?_
    | with_reducible refine (State.modHet_moves ..).after (by decide) ?_
    | with_reducible refine (Moves.fold _ _ _ ?_).behind ?_
    | intro _
    | split
    | ((conv => arg 3; with_reducible whnf); split))

theorem runPacket_moves {m : List Part} {o : OpInfo} {p : Packet} {s : State} {body : State → PktRes}
    (hc : covers [.trc, .host, .het, .evr, .out] m = true) (h : ∀ s, Moves m s (body s).state) : Moves m s (runPacket o p s body) := by
  have hr : ∀ s code p status clamp words, Moves m s (State.reply s code p status clamp words) := fun s code p status clamp words =>
    ((State.reply_moves ..).widen (by decide : _ = true) : Moves [.trc, .host, .het, .evr, .out] s _).widen hc
  have hh : ∀ s f, Moves m s (State.modHet s f) := fun s f => ((State.modHet_moves ..).widen (by decide : _ = true) : Moves [.trc, .host, .het, .evr, .out] s _).widen hc
  unfold runPacket
  split
  · extract_lets s1 _ r s'
    have h1 : Moves m s s1 := hh ..
    refine Moves.ite ?_ (Moves.ite ?_ ?_)
    · exact h1.trans (hr ..)
    · exact (h1.trans (h _)).trans (hh ..)
    · exact (Moves.ite h1 (h1.trans (h _))).trans (hr ..)
  · exact .refl m s

theorem State.replyWaiting_moves (s : State) (code : Nat) (sel : Packet → Bool) (status : Nat) (result : State → Packet → List Word)
    (clamp : Packet → Nat) :
    Moves [.trc, .host, .het, .evr, .out] s (s.replyWaiting code sel status result clamp) := by
  unfold State.replyWaiting
  extract_lets
  exact ((State.modHet_moves ..).widen (by decide)).trans
    (Moves.fold _ _ _ fun s a => (State.reply_moves ..).widen (by decide))

end Sys2Proof.Machine
end

