-- ==== Sys2Proof/Laws/MovesPool.lean ====
section
/-! SUPPORT. What each operation and each command of Machine/Pool.lean can touch. -/

namespace Sys2Proof.Machine
open Sys2Proof
set_option linter.all false
set_option Elab.async false

theorem State.dropRequest_moves (s : State) (x1 : ReqIx) (x2 : ReqFor) :
    Moves [.pool] s (State.dropRequest s x1 x2) := by
  unfold State.dropRequest
  repeat' (first
    | with_reducible exact Moves.refl _ _
    | with_reducible assumption
    | extract_lets
    | with_reducible refine Moves.ite ?_ ?_
    | with_reducible refine (State.modPool_moves ..).after (by decide) ?_
    | with_reducible refine (Moves.fold _ _ _ ?_).behind ?_
    | intro _
    | split
    | ((conv => arg 3; with_reducible whnf); split))

theorem State.lose_moves (s : State) (x1 : ReqIx) :
    Moves [.pool, .trc, .evr] s (State.lose s x1) := by
  unfold State.lose
  repeat' (first
    | with_reducible exact Moves.refl _ _
    | with_reducible assumption
    | extract_lets
    | with_reducible refine Moves.ite ?_ ?_
    | with_reducible refine (State.saturated_moves ..).after (by decide) ?_
    | with_reducible refine (State.modPool_moves ..).after (by decide) ?_
    | with_reducible refine (Moves.fold _ _ _ ?_).behind ?_
    | intro _
    | split
    | ((conv => arg 3; with_reducible whnf); split))

theorem State.chosen_moves (s : State) (x1 : ReqIx) (x2 : PoolReq) :
    Moves [.pool] s (State.chosen s x1 x2) := by
  unfold State.chosen
  repeat' (first
    | with_reducible exact Moves.refl _ _
    | with_reducible assumption
    | extract_lets
    | with_reducible refine Moves.ite ?_ ?_
    | with_reducible refine (State.modPool_moves ..).after (by decide) ?_
    | with_reducible refine (Moves.fold _ _ _ ?_).behind ?_
    | intro _
    | split
    | ((conv => arg 3; with_reducible whnf); split))

theorem State.award_moves (s : State) (x1 : Bool) (x2 : ReqIx) (x3 : PoolReq) :
    Moves [.pool, .trc, .evr] s (State.award s x1 x2 x3) := by
  unfold State.award
  repeat' (first
    | with_reducible exact Moves.refl _ _
    | with_reducible assumption
    | extract_lets
    | with_reducible refine Moves.ite ?_ ?_
    | with_reducible refine (State.lose_moves ..).after (by decide) ?_
    | with_reducible refine (State.chosen_moves ..).after (by decide) ?_
    | with_reducible refine (Moves.fold _ _ _ ?_).behind ?_
    | intro _
    | split
    | ((conv => arg 3; with_reducible whnf); split))

theorem State.decide__moves (s : State) (x1 : Bool) :
    Moves [.pool, .trc, .evr] s (State.decide_ s x1).1 := by
  unfold State.decide_
  repeat' (first
    | with_reducible exact Moves.refl _ _
    | with_reducible assumption
    | extract_lets
    | with_reducible refine Moves.ite ?_ ?_
    | with_reducible refine (State.award_moves ..).after (by decide) ?_
    | with_reducible refine (Moves.fold _ _ _ ?_).behind ?_
    | intro _
    | split
    | ((conv => arg 3; with_reducible whnf); split))

theorem State.bindEngine_moves (s : State) (x1 : DecIx) (x2 : ReqIx) (x3 : PoolReq) (x4 : Nat) :
    Moves [.lane, .pool, .pwr, .recv] s (State.bindEngine s x1 x2 x3 x4) := by
  unfold State.bindEngine
  repeat' (first
    | with_reducible exact Moves.refl _ _
    | with_reducible assumption
    | extract_lets
    | with_reducible refine Moves.ite ?_ ?_
    | with_reducible refine (State.modPwr_moves ..).after (by decide) ?_
    | with_reducible refine (State.modPool_moves ..).after (by decide) ?_
    | with_reducible refine (State.modSlot_moves ..).after (by decide) ?_
    | with_reducible refine (State.modRec_moves ..).after (by decide) ?_
    | with_reducible refine (Moves.fold _ _ _ ?_).behind ?_
    | intro _
    | split
    | ((conv => arg 3; with_reducible whnf); split))

theorem State.decideFree_moves (s : State) (x1 : DecIx) :
    Moves [.lane, .pool, .trc, .pwr, .evr, .recv] s (State.decideFree s x1) := by
  unfold State.decideFree
  repeat' (first
    | with_reducible exact Moves.refl _ _
    | with_reducible assumption
    | extract_lets
    | with_reducible refine Moves.ite ?_ ?_
    | with_reducible refine (State.modPool_moves ..).after (by decide) ?_
    | with_reducible refine (State.decide__moves ..).after (by decide) ?_
    | with_reducible refine (State.bindEngine_moves ..).after (by decide) ?_
    | with_reducible refine Moves.pair1 (by assumption) ?_
    | with_reducible refine Moves.pair2 (by assumption) ?_
    | with_reducible refine (Moves.fold _ _ _ ?_).behind ?_
    | intro _
    | split
    | ((conv => arg 3; with_reducible whnf); split))

theorem State.releaseEngine_moves (s : State) (x1 : DecIx) :
    Moves [.lane, .pool, .trc, .pwr, .evr, .recv] s (State.releaseEngine s x1) := by
  unfold State.releaseEngine
  repeat' (first
    | with_reducible exact Moves.refl _ _
    | with_reducible assumption
    | extract_lets
    | with_reducible refine Moves.ite ?_ ?_
    | with_reducible refine (State.modPool_moves ..).after (by decide) ?_
    | with_reducible refine (State.bindEngine_moves ..).after (by decide) ?_
    | with_reducible refine (State.decideFree_moves ..).after (by decide) ?_
    | with_reducible refine (Moves.fold _ _ _ ?_).behind ?_
    | intro _
    | split
    | ((conv => arg 3; with_reducible whnf); split))

theorem State.serveIdle_moves (s : State) (x1 : Bool) (n : Nat) :
    Moves [.lane, .pool, .trc, .pwr, .evr, .recv] s (State.serveIdle s x1 n) := by
  induction n generalizing s with
  | zero => exact .refl _ s
  | succ n ih =>
    unfold State.serveIdle
    split
    · exact .refl _ s
    · split
      · exact .refl _ s
      · exact (((State.award_moves ..).widen (by decide)).trans ((State.bindEngine_moves ..).widen (by decide))).trans (ih _)

theorem State.servePool_moves (s : State) :
    Moves [.lane, .pool, .trc, .pwr, .evr, .recv] s (State.servePool s) := by
  unfold State.servePool
  repeat' (first
    | with_reducible exact Moves.refl _ _
    | with_reducible assumption
    | extract_lets
    | with_reducible refine Moves.ite ?_ ?_
    | with_reducible refine (State.serveIdle_moves ..).after (by decide) ?_
    | with_reducible refine (Moves.fold _ _ _ ?_).behind ?_
    | intro _
    | split
    | ((conv => arg 3; with_reducible whnf); split))

theorem State.request_moves (s : State) (x1 : ReqIx) (x2 : PoolReq) :
    Moves [.lane, .pool, .pwr, .recv] s (State.request s x1 x2) := by
  unfold State.request
  repeat' (first
    | with_reducible exact Moves.refl _ _
    | with_reducible assumption
    | extract_lets
    | with_reducible refine Moves.ite ?_ ?_
    | with_reducible refine (State.modPool_moves ..).after (by decide) ?_
    | with_reducible refine (State.chosen_moves ..).after (by decide) ?_
    | with_reducible refine (State.bindEngine_moves ..).after (by decide) ?_
    | with_reducible refine (Moves.fold _ _ _ ?_).behind ?_
    | intro _
    | split
    | ((conv => arg 3; with_reducible whnf); split))

end Sys2Proof.Machine
end

