-- ==== Sys2Proof/Laws/MovesGates.lean ====
section
/-! SUPPORT. What each operation and each command of Machine/Gates.lean can touch. -/

namespace Sys2Proof.Machine
open Sys2Proof
set_option linter.all false
set_option Elab.async false

theorem State.retarget_moves (s : State) (x1 : Eng) :
    Moves [.engSrv] s (State.retarget s x1) := by
  unfold State.retarget
  repeat' (first
    | with_reducible exact Moves.refl _ _
    | with_reducible assumption
    | extract_lets
    | with_reducible refine Moves.ite ?_ ?_
    | with_reducible refine (State.modSrv_moves ..).after (by decide) ?_
    | with_reducible refine (Moves.fold _ _ _ ?_).behind ?_
    | intro _
    | split
    | ((conv => arg 3; with_reducible whnf); split))

theorem State.deactivate_moves (s : State) (x1 : Head) :
    Moves [.engSrv, .headSrv] s (State.deactivate s x1) := by
  unfold State.deactivate
  repeat' (first
    | with_reducible exact Moves.refl _ _
    | with_reducible assumption
    | extract_lets
    | with_reducible refine Moves.ite ?_ ?_
    | with_reducible refine (State.modHs_moves ..).after (by decide) ?_
    | with_reducible refine (State.retarget_moves ..).after (by decide) ?_
    | with_reducible refine (Moves.fold _ _ _ ?_).behind ?_
    | intro _
    | split
    | ((conv => arg 3; with_reducible whnf); split))

theorem State.strobe_moves (s : State) (x1 : Eng) (x2 : ArmSym) (x3 : BitVec 12) :
    Moves [.links] s (State.strobe s x1 x2 x3) := by
  unfold State.strobe
  repeat' (first
    | with_reducible exact Moves.refl _ _
    | with_reducible assumption
    | extract_lets
    | with_reducible refine Moves.ite ?_ ?_
    | with_reducible refine (State.modLink_moves ..).after (by decide) ?_
    | with_reducible refine (Moves.fold _ _ _ ?_).behind ?_
    | intro _
    | split
    | ((conv => arg 3; with_reducible whnf); split))

theorem State.strobeHead_moves (s : State) (x1 : Head) (x2 : ArmSym) :
    Moves [.links] s (State.strobeHead s x1 x2) := by
  unfold State.strobeHead
  repeat' (first
    | with_reducible exact Moves.refl _ _
    | with_reducible assumption
    | extract_lets
    | with_reducible refine Moves.ite ?_ ?_
    | with_reducible refine (State.strobe_moves ..).after (by decide) ?_
    | with_reducible refine (Moves.fold _ _ _ ?_).behind ?_
    | intro _
    | split
    | ((conv => arg 3; with_reducible whnf); split))

theorem State.suspect_moves (s : State) (x1 : Head) (x2 : List (SectorAt × Option (CtxIx × Nat))) :
    Moves [.trc, .evr, .wr] s (State.suspect s x1 x2) := by
  unfold State.suspect
  repeat' (first
    | with_reducible exact Moves.refl _ _
    | with_reducible assumption
    | extract_lets
    | with_reducible refine Moves.ite ?_ ?_
    | with_reducible refine (State.modWr_moves ..).after (by decide) ?_
    | with_reducible refine (State.saturated_moves ..).after (by decide) ?_
    | with_reducible refine (Moves.fold _ _ _ ?_).behind ?_
    | intro _
    | split
    | ((conv => arg 3; with_reducible whnf); split))

theorem State.runEnded_moves (s : State) (x1 : Head) :
    Moves [.seq] s (State.runEnded s x1) := by
  unfold State.runEnded
  repeat' (first
    | with_reducible exact Moves.refl _ _
    | with_reducible assumption
    | extract_lets
    | with_reducible refine Moves.ite ?_ ?_
    | with_reducible refine (State.modSeq_moves ..).after (by decide) ?_
    | with_reducible refine (Moves.fold _ _ _ ?_).behind ?_
    | intro _
    | split
    | ((conv => arg 3; with_reducible whnf); split))

theorem State.forceWriteOff_moves (s : State) (x1 : Head) (x2 : Angle) (x3 : Bool) (x4 : Bool) :
    Moves [.trc, .evr, .links, .engSrv, .seq, .wr, .headSrv] s (State.forceWriteOff s x1 x2 x3 x4) := by
  unfold State.forceWriteOff
  repeat' (first
    | with_reducible exact Moves.refl _ _
    | with_reducible assumption
    | extract_lets
    | with_reducible refine Moves.ite ?_ ?_
    | with_reducible refine (State.strobeHead_moves ..).after (by decide) ?_
    | with_reducible refine (State.modWr_moves ..).after (by decide) ?_
    | with_reducible refine (State.suspect_moves ..).after (by decide) ?_
    | with_reducible refine (State.runEnded_moves ..).after (by decide) ?_
    | with_reducible refine (State.deactivate_moves ..).after (by decide) ?_
    | with_reducible refine (Moves.fold _ _ _ ?_).behind ?_
    | intro _
    | split
    | ((conv => arg 3; with_reducible whnf); split))

theorem State.forceWritesOff_moves (s : State) (x1 : Eng) (x2 : List Head) (x3 : Bool) (x4 : Bool) :
    Moves [.trc, .evr, .links, .engSrv, .seq, .wr, .headSrv] s (State.forceWritesOff s x1 x2 x3 x4) := by
  unfold State.forceWritesOff
  repeat' (first
    | with_reducible exact Moves.refl _ _
    | with_reducible assumption
    | extract_lets
    | with_reducible refine Moves.ite ?_ ?_
    | with_reducible refine (State.forceWriteOff_moves ..).after (by decide) ?_
    | with_reducible refine (Moves.fold _ _ _ ?_).behind ?_
    | intro _
    | split
    | ((conv => arg 3; with_reducible whnf); split))

theorem State.countCodeword_moves (s : State) (x1 : LaneIx) (x2 : CwOutcome) (x3 : Slot) :
    Moves [.lane, .trc, .evr] s (State.countCodeword s x1 x2 x3) := by
  unfold State.countCodeword
  repeat' (first
    | with_reducible exact Moves.refl _ _
    | with_reducible assumption
    | extract_lets
    | with_reducible refine Moves.ite ?_ ?_
    | with_reducible refine (State.saturated_moves ..).after (by decide) ?_
    | with_reducible refine (State.modLane_moves ..).after (by decide) ?_
    | with_reducible refine (Moves.fold _ _ _ ?_).behind ?_
    | intro _
    | split
    | ((conv => arg 3; with_reducible whnf); split))

theorem State.settleBind_moves (s : State) (x1 : LaneIx) :
    Moves [.lane] s (State.settleBind s x1) := by
  unfold State.settleBind
  repeat' (first
    | with_reducible exact Moves.refl _ _
    | with_reducible assumption
    | extract_lets
    | with_reducible refine Moves.ite ?_ ?_
    | with_reducible refine (State.modLane_moves ..).after (by decide) ?_
    | with_reducible refine (Moves.fold _ _ _ ?_).behind ?_
    | intro _
    | split
    | ((conv => arg 3; with_reducible whnf); split))

theorem State.settleLane_moves (s : State) (x1 : LaneIx) :
    Moves [.lane] s (State.settleLane s x1) := by
  unfold State.settleLane
  repeat' (first
    | with_reducible exact Moves.refl _ _
    | with_reducible assumption
    | extract_lets
    | with_reducible refine Moves.ite ?_ ?_
    | with_reducible refine (State.modLane_moves ..).after (by decide) ?_
    | with_reducible refine (Moves.fold _ _ _ ?_).behind ?_
    | intro _
    | split
    | ((conv => arg 3; with_reducible whnf); split))

theorem State.freeSlot_moves (s : State) (x1 : LaneIx) (x2 : SlotIx) (x3 : Slot) :
    Moves [.lane] s (State.freeSlot s x1 x2 x3) := by
  unfold State.freeSlot
  repeat' (first
    | with_reducible exact Moves.refl _ _
    | with_reducible assumption
    | extract_lets
    | with_reducible refine Moves.ite ?_ ?_
    | with_reducible refine (State.settleLane_moves ..).after (by decide) ?_
    | with_reducible refine (State.settleBind_moves ..).after (by decide) ?_
    | with_reducible refine (State.modSlot_moves ..).after (by decide) ?_
    | with_reducible refine (Moves.fold _ _ _ ?_).behind ?_
    | intro _
    | split
    | ((conv => arg 3; with_reducible whnf); split))

theorem State.retryJob_moves (s : State) (x1 : Eng) (x2 : JobIx) :
    Moves [.recv] s (State.retryJob s x1 x2) := by
  unfold State.retryJob
  repeat' (first
    | with_reducible exact Moves.refl _ _
    | with_reducible assumption
    | extract_lets
    | with_reducible refine Moves.ite ?_ ?_
    | with_reducible refine (State.modRec_moves ..).after (by decide) ?_
    | with_reducible refine (Moves.fold _ _ _ ?_).behind ?_
    | intro _
    | split
    | ((conv => arg 3; with_reducible whnf); split))

theorem State.endCodeword_moves (s : State) (x1 : LaneIx) (x2 : SlotIx) (x3 : CwOutcome) :
    Moves [.lane, .pool, .trc, .pwr, .evr, .recv] s (State.endCodeword s x1 x2 x3) := by
  unfold State.endCodeword
  repeat' (first
    | with_reducible exact Moves.refl _ _
    | with_reducible assumption
    | extract_lets
    | with_reducible refine Moves.ite ?_ ?_
    | with_reducible refine (State.retryJob_moves ..).after (by decide) ?_
    | with_reducible refine (State.freeSlot_moves ..).after (by decide) ?_
    | with_reducible refine (State.countCodeword_moves ..).after (by decide) ?_
    | with_reducible refine (State.releaseEngine_moves ..).after (by decide) ?_
    | with_reducible refine (State.dropRequest_moves ..).after (by decide) ?_
    | with_reducible refine (State.modLane_moves ..).after (by decide) ?_
    | with_reducible refine (Moves.fold _ _ _ ?_).behind ?_
    | intro _
    | split
    | ((conv => arg 3; with_reducible whnf); split))

theorem State.dropStream_moves (s : State) (x1 : LaneIx) :
    Moves [.lane, .pool, .trc, .pwr, .evr, .recv] s (State.dropStream s x1) := by
  unfold State.dropStream
  repeat' (first
    | with_reducible exact Moves.refl _ _
    | with_reducible assumption
    | extract_lets
    | with_reducible refine Moves.ite ?_ ?_
    | with_reducible refine (State.endCodeword_moves ..).after (by decide) ?_
    | with_reducible refine (State.retryJob_moves ..).after (by decide) ?_
    | with_reducible refine (State.countCodeword_moves ..).after (by decide) ?_
    | with_reducible refine (State.modLane_moves ..).after (by decide) ?_
    | with_reducible refine (Moves.fold _ _ _ ?_).behind ?_
    | intro _
    | split
    | ((conv => arg 3; with_reducible whnf); split))

theorem State.putChannelReg_moves (s : State) (x1 : Head) (x2 : Nat) (x3 : Word) :
    Moves [.rd, .det] s (State.putChannelReg s x1 x2 x3) := by
  unfold State.putChannelReg
  repeat' (first
    | with_reducible exact Moves.refl _ _
    | with_reducible assumption
    | extract_lets
    | with_reducible refine Moves.ite ?_ ?_
    | with_reducible refine (State.modHead_moves _ _ _ _ (by first | exact .inl (by decide) | exact .inr fun _ => rfl) (by first | exact .inl (by decide) | exact .inr fun _ => rfl) (by first | exact .inl (by decide) | exact .inr fun _ => rfl) (by first | exact .inl (by decide) | exact .inr fun _ => rfl) (by first | exact .inl (by decide) | exact .inr fun _ => rfl) (by first | exact .inl (by decide) | exact .inr fun _ => rfl)).behind ?_
    | with_reducible refine (State.modDet_moves ..).after (by decide) ?_
    | with_reducible refine (Moves.fold _ _ _ ?_).behind ?_
    | intro _
    | split
    | ((conv => arg 3; with_reducible whnf); split))

theorem State.writeChannelReg_moves (s : State) (x1 : Head) (x2 : Nat) (x3 : Word) :
    Moves [.rd, .det, .map] s (State.writeChannelReg s x1 x2 x3) := by
  unfold State.writeChannelReg
  repeat' (first
    | with_reducible exact Moves.refl _ _
    | with_reducible assumption
    | extract_lets
    | with_reducible refine Moves.ite ?_ ?_
    | with_reducible refine (State.modMap_moves ..).after (by decide) ?_
    | with_reducible refine (State.putChannelReg_moves ..).after (by decide) ?_
    | with_reducible refine (Moves.fold _ _ _ ?_).behind ?_
    | intro _
    | split
    | ((conv => arg 3; with_reducible whnf); split))

theorem State.loadEntry_moves (s : State) (x1 : Head) (x2 : Fin 64) (x3 : Nat) :
    Moves [.slice, .rd, .det, .wr, .map, .freq] s (State.loadEntry s x1 x2 x3) := by
  unfold State.loadEntry
  repeat' (first
    | with_reducible exact Moves.refl _ _
    | with_reducible assumption
    | extract_lets
    | with_reducible refine Moves.ite ?_ ?_
    | with_reducible refine (State.modHead_moves _ _ _ _ (by first | exact .inl (by decide) | exact .inr fun _ => rfl) (by first | exact .inl (by decide) | exact .inr fun _ => rfl) (by first | exact .inl (by decide) | exact .inr fun _ => rfl) (by first | exact .inl (by decide) | exact .inr fun _ => rfl) (by first | exact .inl (by decide) | exact .inr fun _ => rfl) (by first | exact .inl (by decide) | exact .inr fun _ => rfl)).behind ?_
    | with_reducible refine (State.modSlice_moves ..).after (by decide) ?_
    | with_reducible refine (Moves.fold _ _ _ ?_).behind ?_
    | intro _
    | split
    | ((conv => arg 3; with_reducible whnf); split))

theorem State.loadBand_moves (s : State) (x1 : Head) (x2 : Nat) :
    Moves [.slice, .rd, .det, .wr, .map, .freq] s (State.loadBand s x1 x2) := by
  unfold State.loadBand
  repeat' (first
    | with_reducible exact Moves.refl _ _
    | with_reducible assumption
    | extract_lets
    | with_reducible refine Moves.ite ?_ ?_
    | with_reducible refine (State.loadEntry_moves ..).after (by decide) ?_
    | with_reducible refine (Moves.fold _ _ _ ?_).behind ?_
    | intro _
    | split
    | ((conv => arg 3; with_reducible whnf); split))

theorem State.packetSettled_moves (s : State) (x1 : Head) :
    Moves [.slice, .rd, .det, .wr, .map, .freq] s (State.packetSettled s x1) := by
  unfold State.packetSettled
  repeat' (first
    | with_reducible exact Moves.refl _ _
    | with_reducible assumption
    | extract_lets
    | with_reducible refine Moves.ite ?_ ?_
    | with_reducible refine (State.loadBand_moves ..).after (by decide) ?_
    | with_reducible refine (State.putChannelReg_moves ..).after (by decide) ?_
    | with_reducible refine (State.modMap_moves ..).after (by decide) ?_
    | with_reducible refine (State.modSlice_moves ..).after (by decide) ?_
    | with_reducible refine (Moves.fold _ _ _ ?_).behind ?_
    | intro _
    | split
    | ((conv => arg 3; with_reducible whnf); split))

theorem State.dropHead_moves (s : State) (x1 : Head) :
    Moves [.slice, .lane, .pool, .trc, .pwr, .evr, .recv, .rd, .det, .wr, .map, .freq] s (State.dropHead s x1) := by
  unfold State.dropHead
  repeat' (first
    | with_reducible exact Moves.refl _ _
    | with_reducible assumption
    | extract_lets
    | with_reducible refine Moves.ite ?_ ?_
    | with_reducible refine (State.modSlice_moves ..).after (by decide) ?_
    | with_reducible refine (State.dropStream_moves ..).after (by decide) ?_
    | with_reducible refine (State.packetSettled_moves ..).after (by decide) ?_
    | with_reducible refine (Moves.fold _ _ _ ?_).behind ?_
    | intro _
    | split
    | ((conv => arg 3; with_reducible whnf); split))

theorem State.dropReads_moves (s : State) (x1 : List Head) :
    Moves [.slice, .lane, .pool, .trc, .pwr, .evr, .recv, .rd, .det, .wr, .map, .freq] s (State.dropReads s x1) := by
  unfold State.dropReads
  repeat' (first
    | with_reducible exact Moves.refl _ _
    | with_reducible assumption
    | extract_lets
    | with_reducible refine Moves.ite ?_ ?_
    | with_reducible refine (State.dropHead_moves ..).after (by decide) ?_
    | with_reducible refine (State.modWr_moves ..).after (by decide) ?_
    | with_reducible refine (State.modSlice_moves ..).after (by decide) ?_
    | with_reducible refine (State.settleBind_moves ..).after (by decide) ?_
    | with_reducible refine (Moves.fold _ _ _ ?_).behind ?_
    | intro _
    | split
    | ((conv => arg 3; with_reducible whnf); split))

theorem State.disarmWhere_moves (s : State) (x1 : Eng) (x2 : CmpIx → Bool) :
    Moves [.reel] s (State.disarmWhere s x1 x2) := by
  unfold State.disarmWhere
  repeat' (first
    | with_reducible exact Moves.refl _ _
    | with_reducible assumption
    | extract_lets
    | with_reducible refine Moves.ite ?_ ?_
    | with_reducible refine (State.modReel_moves ..).after (by decide) ?_
    | with_reducible refine (Moves.fold _ _ _ ?_).behind ?_
    | intro _
    | split
    | ((conv => arg 3; with_reducible whnf); split))

theorem State.armFixed_moves (s : State) (x1 : Eng) (x2 : CmpIx) (x3 : Angle) (x4 : Nat) :
    Moves [.reel] s (State.armFixed s x1 x2 x3 x4) := by
  unfold State.armFixed
  repeat' (first
    | with_reducible exact Moves.refl _ _
    | with_reducible assumption
    | extract_lets
    | with_reducible refine Moves.ite ?_ ?_
    | with_reducible refine (State.modCmp_moves ..).after (by decide) ?_
    | with_reducible refine (Moves.fold _ _ _ ?_).behind ?_
    | intro _
    | split
    | ((conv => arg 3; with_reducible whnf); split))

theorem State.trapCause_moves (s : State) (x1 : Eng) (x2 : ℕ) :
    Moves [.seq] s (State.trapCause s x1 x2) := by
  unfold State.trapCause
  repeat' (first
    | with_reducible exact Moves.refl _ _
    | with_reducible assumption
    | extract_lets
    | with_reducible refine Moves.ite ?_ ?_
    | with_reducible refine (State.modSeq_moves ..).after (by decide) ?_
    | with_reducible refine (Moves.fold _ _ _ ?_).behind ?_
    | intro _
    | split
    | ((conv => arg 3; with_reducible whnf); split))

theorem State.allGatesOff_moves (s : State) (x1 : Eng) :
    Moves [.slice, .lane, .pool, .trc, .pwr, .evr, .links, .recv, .engSrv, .seq, .rd, .det, .wr, .headSrv, .map, .freq] s (State.allGatesOff s x1) := by
  unfold State.allGatesOff
  repeat' (first
    | with_reducible exact Moves.refl _ _
    | with_reducible assumption
    | extract_lets
    | with_reducible refine Moves.ite ?_ ?_
    | with_reducible refine (State.forceWritesOff_moves ..).after (by decide) ?_
    | with_reducible refine (State.dropReads_moves ..).after (by decide) ?_
    | with_reducible refine (Moves.fold _ _ _ ?_).behind ?_
    | intro _
    | split
    | ((conv => arg 3; with_reducible whnf); split))

theorem State.servoGates_moves (s : State) (x1 : Eng) (x2 : Bool) :
    Moves [.wr] s (State.servoGates s x1 x2) := by
  unfold State.servoGates
  repeat' (first
    | with_reducible exact Moves.refl _ _
    | with_reducible assumption
    | extract_lets
    | with_reducible refine Moves.ite ?_ ?_
    | with_reducible refine (State.modWr_moves ..).after (by decide) ?_
    | with_reducible refine (Moves.fold _ _ _ ?_).behind ?_
    | intro _
    | split
    | ((conv => arg 3; with_reducible whnf); split))

theorem State.beginSearch_moves (s : State) (x1 : Eng) :
    Moves [.reel, .wr] s (State.beginSearch s x1) := by
  unfold State.beginSearch
  repeat' (first
    | with_reducible exact Moves.refl _ _
    | with_reducible assumption
    | extract_lets
    | with_reducible refine Moves.ite ?_ ?_
    | with_reducible refine (State.servoGates_moves ..).after (by decide) ?_
    | with_reducible refine (State.armFixed_moves ..).after (by decide) ?_
    | with_reducible refine (State.modCmp_moves ..).after (by decide) ?_
    | with_reducible refine (State.modReel_moves ..).after (by decide) ?_
    | with_reducible refine (Moves.fold _ _ _ ?_).behind ?_
    | intro _
    | split
    | ((conv => arg 3; with_reducible whnf); split))

theorem State.enterAcquire_moves (s : State) (x1 : Eng) :
    Moves [.slice, .lane, .pool, .trc, .pwr, .evr, .reel, .links, .recv, .engSrv, .seq, .rd, .det, .wr, .headSrv, .map, .freq] s (State.enterAcquire s x1) := by
  unfold State.enterAcquire
  repeat' (first
    | with_reducible exact Moves.refl _ _
    | with_reducible assumption
    | extract_lets
    | with_reducible refine Moves.ite ?_ ?_
    | with_reducible refine (State.allGatesOff_moves ..).after (by decide) ?_
    | with_reducible refine (State.modReel_moves ..).after (by decide) ?_
    | with_reducible refine (State.beginSearch_moves ..).after (by decide) ?_
    | with_reducible refine (State.trapCause_moves ..).after (by decide) ?_
    | with_reducible refine (Moves.fold _ _ _ ?_).behind ?_
    | intro _
    | split
    | ((conv => arg 3; with_reducible whnf); split))

theorem State.enterIdle_moves (s : State) (x1 : Eng) (x2 : TState) :
    Moves [.slice, .lane, .pool, .trc, .pwr, .evr, .reel, .links, .recv, .engSrv, .seq, .rd, .det, .wr, .headSrv, .map, .freq] s (State.enterIdle s x1 x2) := by
  unfold State.enterIdle
  repeat' (first
    | with_reducible exact Moves.refl _ _
    | with_reducible assumption
    | extract_lets
    | with_reducible refine Moves.ite ?_ ?_
    | with_reducible refine (State.allGatesOff_moves ..).after (by decide) ?_
    | with_reducible refine (State.modReel_moves ..).after (by decide) ?_
    | with_reducible refine (State.disarmWhere_moves ..).after (by decide) ?_
    | with_reducible refine (State.servoGates_moves ..).after (by decide) ?_
    | with_reducible refine (State.trapCause_moves ..).after (by decide) ?_
    | with_reducible refine (Moves.fold _ _ _ ?_).behind ?_
    | intro _
    | split
    | ((conv => arg 3; with_reducible whnf); split))

end Sys2Proof.Machine
end

