-- ==== Sys2Proof/Laws/MovesCache.lean ====
section
/-! SUPPORT. What each operation and each command of Machine/Cache.lean can touch. -/

namespace Sys2Proof.Machine
open Sys2Proof
set_option linter.all false
set_option Elab.async false

theorem State.deliverAsync_moves (s : State) (x1 : Fn) :
    Moves [.trc, .host, .evr, .out] s (State.deliverAsync s x1) := by
  unfold State.deliverAsync
  repeat' (first
    | with_reducible exact Moves.refl _ _
    | with_reducible assumption
    | extract_lets
    | with_reducible refine Moves.ite ?_ ?_
    | with_reducible refine (State.modFn_moves ..).after (by decide) ?_
    | with_reducible refine (State.postAdmin_moves ..).after (by decide) ?_
    | with_reducible refine (Moves.fold _ _ _ ?_).behind ?_
    | intro _
    | split
    | ((conv => arg 3; with_reducible whnf); split))

theorem State.raiseAsync_moves (s : State) (x1 : Fn) (x2 : AsyncEvent) :
    Moves [.trc, .host, .evr, .out] s (State.raiseAsync s x1 x2) := by
  unfold State.raiseAsync
  repeat' (first
    | with_reducible exact Moves.refl _ _
    | with_reducible assumption
    | extract_lets
    | with_reducible refine Moves.ite ?_ ?_
    | with_reducible refine (State.modFn_moves ..).after (by decide) ?_
    | with_reducible refine (State.deliverAsync_moves ..).after (by decide) ?_
    | with_reducible refine (Moves.fold _ _ _ ?_).behind ?_
    | intro _
    | split
    | ((conv => arg 3; with_reducible whnf); split))

theorem State.vendorEvent_moves (s : State) (x1 : List Fn) (x2 : Nat) (x3 : Nat) (x4 : Nat) (x5 : Fn) (x6 : Nat) :
    Moves [.trc, .host, .evr, .out] s (State.vendorEvent s x1 x2 x3 x4 x5 x6) := by
  unfold State.vendorEvent
  repeat' (first
    | with_reducible exact Moves.refl _ _
    | with_reducible assumption
    | extract_lets
    | with_reducible refine Moves.ite ?_ ?_
    | with_reducible refine (State.modFn_moves ..).after (by decide) ?_
    | with_reducible refine (State.raiseAsync_moves ..).after (by decide) ?_
    | with_reducible refine (Moves.fold _ _ _ ?_).behind ?_
    | intro _
    | split
    | ((conv => arg 3; with_reducible whnf); split))

theorem State.zoneNotice_moves (s : State) (x1 : ZoneNo) :
    Moves [.trc, .host, .evr, .out] s (State.zoneNotice s x1) := by
  unfold State.zoneNotice
  repeat' (first
    | with_reducible exact Moves.refl _ _
    | with_reducible assumption
    | extract_lets
    | with_reducible refine Moves.ite ?_ ?_
    | with_reducible refine (State.modFn_moves ..).after (by decide) ?_
    | with_reducible refine (State.raiseAsync_moves ..).after (by decide) ?_
    | with_reducible refine (Moves.fold _ _ _ ?_).behind ?_
    | intro _
    | split
    | ((conv => arg 3; with_reducible whnf); split))

theorem State.tableWrite_moves (s : State) (x1 : ZoneNo) (x2 : ZoneDesc) :
    Moves [.media] s (State.tableWrite s x1 x2) := by
  unfold State.tableWrite
  repeat' (first
    | with_reducible exact Moves.refl _ _
    | with_reducible assumption
    | extract_lets
    | with_reducible refine Moves.ite ?_ ?_
    | with_reducible refine (State.modMedia_moves ..).after (by decide) ?_
    | with_reducible refine (Moves.fold _ _ _ ?_).behind ?_
    | intro _
    | split
    | ((conv => arg 3; with_reducible whnf); split))

theorem State.lineAccess_moves (s : State) (x1 : Eng) (x2 : Fin 48) (x3 : DescAccess) :
    Moves [.media, .zdc] s (State.lineAccess s x1 x2 x3) := by
  unfold State.lineAccess
  repeat' (first
    | with_reducible exact Moves.refl _ _
    | with_reducible assumption
    | extract_lets
    | with_reducible refine Moves.ite ?_ ?_
    | with_reducible refine (State.tableWrite_moves ..).after (by decide) ?_
    | with_reducible refine (State.modZdc_moves ..).after (by decide) ?_
    | with_reducible refine (Moves.fold _ _ _ ?_).behind ?_
    | intro _
    | split
    | ((conv => arg 3; with_reducible whnf); split))

theorem State.putRecord_moves (s : State) (x1 : ZoneNo) (x2 : ZoneRecord) :
    Moves [.nor] s (State.putRecord s x1 x2) := by
  unfold State.putRecord
  repeat' (first
    | with_reducible exact Moves.refl _ _
    | with_reducible assumption
    | extract_lets
    | with_reducible refine Moves.ite ?_ ?_
    | with_reducible refine (State.modNor_moves _ _ (by intro n; repeat' (first | rfl | extract_lets | split))).after (by decide) ?_
    | with_reducible refine (Moves.fold _ _ _ ?_).behind ?_
    | intro _
    | split
    | ((conv => arg 3; with_reducible whnf); split))

theorem State.readForwardWp_moves (s : State) (z : ZoneNo) (n : Nat) : Moves [.free] s (s.readForwardWp z n).2 := Moves.set_free ..

theorem State.lineError_moves (s : State) (x1 : Eng) (x2 : Fin 48) :
    Moves [.free, .trc, .host, .evr, .nor, .out, .zdc] s (State.lineError s x1 x2) := by
  unfold State.lineError
  repeat' (first
    | with_reducible exact Moves.refl _ _
    | with_reducible assumption
    | extract_lets
    | with_reducible refine Moves.ite ?_ ?_
    | with_reducible refine (State.readForwardWp_moves ..).after (by decide) ?_
    | with_reducible refine (State.putRecord_moves ..).after (by decide) ?_
    | with_reducible refine (State.zoneNotice_moves ..).after (by decide) ?_
    | with_reducible refine (State.modZdc_moves ..).after (by decide) ?_
    | with_reducible refine (State.condZdc_moves ..).after (by decide) ?_
    | with_reducible refine (State.saturated_moves ..).after (by decide) ?_
    | with_reducible refine Moves.pair1 (by assumption) ?_
    | with_reducible refine Moves.pair2 (by assumption) ?_
    | with_reducible refine (Moves.fold _ _ _ ?_).behind ?_
    | intro _
    | split
    | ((conv => arg 3; with_reducible whnf); split))

theorem State.missAccess_moves (s : State) (a : Eng) (z : ZoneNo) (acc : DescAccess) {t : State} (h : s.missAccess a z acc = some t) :
    Moves [.media, .zdc] s t := by
  unfold State.missAccess at h
  dsimp only at h
  split at h
  · repeat' (first | contradiction | split at h)
    all_goals (injection h with h; subst h; exact ((State.modZdc_moves ..).widen (by decide)).trans ((State.lineAccess_moves ..).widen (by decide)))
  · split at h
    · split at h
      · injection h with h; subst h; exact (State.modZdc_moves ..).widen (by decide)
      · injection h with h; subst h
        exact ((State.modZdc_moves ..).widen (by decide)).trans ((State.tableWrite_moves ..).widen (by decide))
    · repeat' (first | contradiction | split at h)
      all_goals (injection h with h; subst h; exact (State.modZdc_moves ..).widen (by decide))

theorem State.zdcAccess_moves (s : State) (a : Eng) (z : ZoneNo) (acc : DescAccess) :
    Moves [.free, .trc, .media, .host, .evr, .nor, .out, .zdc] s (s.zdcAccess a z acc) := by
  have hz : ∀ (s : State) f, Moves [.free, .trc, .media, .host, .evr, .nor, .out, .zdc] s (s.modZdc a f) := fun s f => (State.modZdc_moves ..).widen (by decide)
  have hl : ∀ (s : State) i, Moves [.free, .trc, .media, .host, .evr, .nor, .out, .zdc] s (s.lineAccess a i acc) := fun s i => (State.lineAccess_moves ..).widen (by decide)
  unfold State.zdcAccess
  extract_lets c wait
  refine Moves.ite (hz ..) ?_
  split
  · exact hz ..
  · split
    · split
      · extract_lets s1
        have h1 : Moves [.free, .trc, .media, .host, .evr, .nor, .out, .zdc] s s1 := (State.lineError_moves ..).widen (by decide)
        split
        · exact h1.trans (hz ..)
        · exact h1.trans (hl ..)
      · exact (hz ..).trans (hl ..)
    · cases hm : s.missAccess a z acc with
      | none => exact (hz s _ : Moves _ s wait)
      | some t => exact (State.missAccess_moves _ _ _ _ hm).widen (by decide)

theorem State.retryMisses_moves (s : State) (x1 : Eng) :
    Moves [.free, .trc, .media, .host, .evr, .nor, .out, .zdc] s (State.retryMisses s x1) := by
  unfold State.retryMisses
  repeat' (first
    | with_reducible exact Moves.refl _ _
    | with_reducible assumption
    | extract_lets
    | with_reducible refine Moves.ite ?_ ?_
    | with_reducible refine (State.zdcAccess_moves ..).after (by decide) ?_
    | with_reducible refine (State.modZdc_moves ..).after (by decide) ?_
    | with_reducible refine (Moves.fold _ _ _ ?_).behind ?_
    | intro _
    | split
    | ((conv => arg 3; with_reducible whnf); split))

theorem State.retryPins_moves (s : State) (x1 : Eng) :
    Moves [.zdc] s (State.retryPins s x1) := by
  unfold State.retryPins
  repeat' (first
    | with_reducible exact Moves.refl _ _
    | with_reducible assumption
    | extract_lets
    | with_reducible refine Moves.ite ?_ ?_
    | with_reducible refine (State.modZdc_moves ..).after (by decide) ?_
    | with_reducible refine (Moves.fold _ _ _ ?_).behind ?_
    | intro _
    | split
    | ((conv => arg 3; with_reducible whnf); split))

theorem State.flushLine_moves (s : State) (x1 : Eng) (x2 : Fin 48) :
    Moves [.media, .zdc] s (State.flushLine s x1 x2) := by
  unfold State.flushLine
  repeat' (first
    | with_reducible exact Moves.refl _ _
    | with_reducible assumption
    | extract_lets
    | with_reducible refine Moves.ite ?_ ?_
    | with_reducible refine (State.tableWrite_moves ..).after (by decide) ?_
    | with_reducible refine (State.modZdc_moves ..).after (by decide) ?_
    | with_reducible refine (Moves.fold _ _ _ ?_).behind ?_
    | intro _
    | split
    | ((conv => arg 3; with_reducible whnf); split))

theorem State.maintain_moves (s : State) (x1 : Eng) :
    Moves [.media, .zdc] s (State.maintain s x1) := by
  unfold State.maintain
  repeat' (first
    | with_reducible exact Moves.refl _ _
    | with_reducible assumption
    | extract_lets
    | with_reducible refine Moves.ite ?_ ?_
    | with_reducible refine (State.flushLine_moves ..).after (by decide) ?_
    | with_reducible refine (State.modZdc_moves ..).after (by decide) ?_
    | with_reducible refine (Moves.fold _ _ _ ?_).behind ?_
    | intro _
    | split
    | ((conv => arg 3; with_reducible whnf); split))

theorem State.answerMaintenance_moves (s : State) (x1 : Eng) :
    Moves [.trc, .host, .het, .evr, .out] s (State.answerMaintenance s x1) := by
  unfold State.answerMaintenance
  repeat' (first
    | with_reducible exact Moves.refl _ _
    | with_reducible assumption
    | extract_lets
    | with_reducible refine Moves.ite ?_ ?_
    | with_reducible refine (State.replyWaiting_moves ..).after (by decide) ?_
    | with_reducible refine (Moves.fold _ _ _ ?_).behind ?_
    | intro _
    | split
    | ((conv => arg 3; with_reducible whnf); split))

theorem State.zdcSettle_moves (s : State) (x1 : Eng) :
    Moves [.free, .trc, .media, .host, .het, .evr, .nor, .out, .zdc] s (State.zdcSettle s x1) := by
  unfold State.zdcSettle
  repeat' (first
    | with_reducible exact Moves.refl _ _
    | with_reducible assumption
    | extract_lets
    | with_reducible refine Moves.ite ?_ ?_
    | with_reducible refine (State.maintain_moves ..).after (by decide) ?_
    | with_reducible refine (State.retryMisses_moves ..).after (by decide) ?_
    | with_reducible refine (State.retryPins_moves ..).after (by decide) ?_
    | with_reducible refine (State.answerMaintenance_moves ..).after (by decide) ?_
    | with_reducible refine (Moves.fold _ _ _ ?_).behind ?_
    | intro _
    | split
    | ((conv => arg 3; with_reducible whnf); split))

theorem State.setZone_moves (s : State) (x1 : ZoneNo) (x2 : ZoneDesc → ZoneDesc) :
    Moves [.free, .trc, .media, .host, .evr, .nor, .out, .zdc] s (State.setZone s x1 x2) := by
  unfold State.setZone
  repeat' (first
    | with_reducible exact Moves.refl _ _
    | with_reducible assumption
    | extract_lets
    | with_reducible refine Moves.ite ?_ ?_
    | with_reducible refine (State.record_moves ..).after (by decide) ?_
    | with_reducible refine (State.putRecord_moves ..).after (by decide) ?_
    | with_reducible refine (State.modNor_moves _ _ (by intro n; repeat' (first | rfl | extract_lets | split))).after (by decide) ?_
    | with_reducible refine (State.zdcAccess_moves ..).after (by decide) ?_
    | with_reducible refine (Moves.fold _ _ _ ?_).behind ?_
    | intro _
    | split
    | ((conv => arg 3; with_reducible whnf); split))

end Sys2Proof.Machine
end

