-- ==== Sys2Proof/Laws/MovesFail.lean ====
section
/-! SUPPORT. What each operation and each command of Machine/Fail.lean can touch. -/

namespace Sys2Proof.Machine
open Sys2Proof
set_option linter.all false
set_option Elab.async false

theorem State.modCtx_moves (s : State) (x1 : CtxIx) (x2 : Ctx → Ctx) :
    Moves [.q] s (State.modCtx s x1 x2) := by
  unfold State.modCtx
  repeat' (first
    | with_reducible exact Moves.refl _ _
    | with_reducible assumption
    | extract_lets
    | with_reducible refine Moves.ite ?_ ?_
    | with_reducible refine (State.modQ_moves ..).after (by decide) ?_
    | with_reducible refine (Moves.fold _ _ _ ?_).behind ?_
    | intro _
    | split
    | ((conv => arg 3; with_reducible whnf); split))

theorem State.failWrites_moves (s : State) (x1 : ZoneNo) (x2 : NvStatus) :
    Moves [.q, .seq] s (State.failWrites s x1 x2) := by
  unfold State.failWrites
  repeat' (first
    | with_reducible exact Moves.refl _ _
    | with_reducible assumption
    | extract_lets
    | with_reducible refine Moves.ite ?_ ?_
    | with_reducible refine (State.modSeq_moves ..).after (by decide) ?_
    | with_reducible refine (State.modQ_moves ..).after (by decide) ?_
    | with_reducible refine (Moves.fold _ _ _ ?_).behind ?_
    | intro _
    | split
    | ((conv => arg 3; with_reducible whnf); split))

theorem State.releaseJobEngines_moves (s : State) (x1 : Eng) (x2 : JobIx) :
    Moves [.pool] s (State.releaseJobEngines s x1 x2) := by
  unfold State.releaseJobEngines
  repeat' (first
    | with_reducible exact Moves.refl _ _
    | with_reducible assumption
    | extract_lets
    | with_reducible refine Moves.ite ?_ ?_
    | with_reducible refine (State.modPool_moves ..).after (by decide) ?_
    | with_reducible refine (Moves.fold _ _ _ ?_).behind ?_
    | intro _
    | split
    | ((conv => arg 3; with_reducible whnf); split))

theorem State.voidReads_moves (s : State) (x1 : Eng) (x2 : JobIx) : Moves [.slice, .lane] s (State.voidReads s x1 x2) := by
  unfold State.voidReads
  exact Moves.plain (fun y h => by cases y <;> first | exact absurd h (by decide) | rfl | exact fun _ => rfl) rfl rfl rfl rfl rfl rfl

theorem State.releaseJob_moves (s : State) (x1 : Eng) (x2 : JobIx) :
    Moves [.pool, .q, .recv] s (State.releaseJob s x1 x2) := by
  unfold State.releaseJob
  repeat' (first
    | with_reducible exact Moves.refl _ _
    | with_reducible assumption
    | extract_lets
    | with_reducible refine Moves.ite ?_ ?_
    | with_reducible refine (State.releaseJobEngines_moves ..).after (by decide) ?_
    | with_reducible refine (State.dropRequest_moves ..).after (by decide) ?_
    | with_reducible refine (State.modQ_moves ..).after (by decide) ?_
    | with_reducible refine (State.modRec_moves ..).after (by decide) ?_
    | with_reducible refine (Moves.fold _ _ _ ?_).behind ?_
    | intro _
    | split
    | ((conv => arg 3; with_reducible whnf); split))

theorem State.restoreHead_moves (s : State) (x1 : Eng) (x2 : RecJob) :
    Moves [.det, .headSrv] s (State.restoreHead s x1 x2) := by
  unfold State.restoreHead
  repeat' (first
    | with_reducible exact Moves.refl _ _
    | with_reducible assumption
    | extract_lets
    | with_reducible refine Moves.ite ?_ ?_
    | with_reducible refine (State.modHead_moves _ _ _ _ (by first | exact .inl (by decide) | exact .inr fun _ => rfl) (by first | exact .inl (by decide) | exact .inr fun _ => rfl) (by first | exact .inl (by decide) | exact .inr fun _ => rfl) (by first | exact .inl (by decide) | exact .inr fun _ => rfl) (by first | exact .inl (by decide) | exact .inr fun _ => rfl) (by first | exact .inl (by decide) | exact .inr fun _ => rfl)).behind ?_
    | with_reducible refine (Moves.fold _ _ _ ?_).behind ?_
    | intro _
    | split
    | ((conv => arg 3; with_reducible whnf); split))

theorem State.closeJob_moves (s : State) (x1 : Eng) (x2 : JobIx) :
    Moves [.slice, .lane, .pool, .q, .recv, .det, .headSrv] s (State.closeJob s x1 x2) := by
  unfold State.closeJob
  repeat' (first
    | with_reducible exact Moves.refl _ _
    | with_reducible assumption
    | extract_lets
    | with_reducible refine Moves.ite ?_ ?_
    | with_reducible refine (State.releaseJob_moves ..).after (by decide) ?_
    | with_reducible refine (State.restoreHead_moves ..).after (by decide) ?_
    | with_reducible refine (State.voidReads_moves ..).after (by decide) ?_
    | with_reducible refine (State.modQ_moves ..).after (by decide) ?_
    | with_reducible refine (State.modRec_moves ..).after (by decide) ?_
    | with_reducible refine (Moves.fold _ _ _ ?_).behind ?_
    | intro _
    | split
    | ((conv => arg 3; with_reducible whnf); split))

theorem State.closeJobs_moves (s : State) (x1 : Eng) (x2 : RecJob → Bool) :
    Moves [.slice, .lane, .pool, .q, .recv, .det, .headSrv] s (State.closeJobs s x1 x2) := by
  unfold State.closeJobs
  repeat' (first
    | with_reducible exact Moves.refl _ _
    | with_reducible assumption
    | extract_lets
    | with_reducible refine Moves.ite ?_ ?_
    | with_reducible refine (State.closeJob_moves ..).after (by decide) ?_
    | with_reducible refine (Moves.fold _ _ _ ?_).behind ?_
    | intro _
    | split
    | ((conv => arg 3; with_reducible whnf); split))

theorem State.disableSlot_moves (s : State) (x1 : LoopIx) :
    Moves [.lpe] s (State.disableSlot s x1) := by
  unfold State.disableSlot
  repeat' (first
    | with_reducible exact Moves.refl _ _
    | with_reducible assumption
    | extract_lets
    | with_reducible refine Moves.ite ?_ ?_
    | with_reducible refine (State.modLoop_moves ..).after (by decide) ?_
    | with_reducible refine (State.modLpe_moves ..).after (by decide) ?_
    | with_reducible refine (Moves.fold _ _ _ ?_).behind ?_
    | intro _
    | split
    | ((conv => arg 3; with_reducible whnf); split))

theorem State.disableHeadLoops_moves (s : State) (x1 : Head) :
    Moves [.lpe] s (State.disableHeadLoops s x1) := by
  unfold State.disableHeadLoops
  repeat' (first
    | with_reducible exact Moves.refl _ _
    | with_reducible assumption
    | extract_lets
    | with_reducible refine Moves.ite ?_ ?_
    | with_reducible refine (State.disableSlot_moves ..).after (by decide) ?_
    | with_reducible refine (Moves.fold _ _ _ ?_).behind ?_
    | intro _
    | split
    | ((conv => arg 3; with_reducible whnf); split))

theorem State.disableEngineLoops_moves (s : State) (x1 : Eng) :
    Moves [.lpe] s (State.disableEngineLoops s x1) := by
  unfold State.disableEngineLoops
  repeat' (first
    | with_reducible exact Moves.refl _ _
    | with_reducible assumption
    | extract_lets
    | with_reducible refine Moves.ite ?_ ?_
    | with_reducible refine (State.disableHeadLoops_moves ..).after (by decide) ?_
    | with_reducible refine (State.disableSlot_moves ..).after (by decide) ?_
    | with_reducible refine (Moves.fold _ _ _ ?_).behind ?_
    | intro _
    | split
    | ((conv => arg 3; with_reducible whnf); split))

theorem State.applyZoneRule_moves (s : State) (x1 : Eng) (x2 : ZoneCond) (x3 : Option LHead) :
    Moves [.free, .trc, .media, .host, .q, .evr, .nor, .out, .seq, .zdc] s (State.applyZoneRule s x1 x2 x3) := by
  unfold State.applyZoneRule
  repeat' (first
    | with_reducible exact Moves.refl _ _
    | with_reducible assumption
    | extract_lets
    | with_reducible refine Moves.ite ?_ ?_
    | with_reducible refine (State.setZone_moves ..).after (by decide) ?_
    | with_reducible refine (State.failWrites_moves ..).after (by decide) ?_
    | with_reducible refine (State.zoneNotice_moves ..).after (by decide) ?_
    | with_reducible refine (Moves.fold _ _ _ ?_).behind ?_
    | intro _
    | split
    | ((conv => arg 3; with_reducible whnf); split))

theorem State.writeEnabled_moves (s : State) (x1 : Head) :
    Moves [.free, .trc, .media, .host, .evr, .nor, .out, .zdc] s (State.writeEnabled s x1) := by
  unfold State.writeEnabled
  repeat' (first
    | with_reducible exact Moves.refl _ _
    | with_reducible assumption
    | extract_lets
    | with_reducible refine Moves.ite ?_ ?_
    | with_reducible refine (State.setZone_moves ..).after (by decide) ?_
    | with_reducible refine (State.zoneNotice_moves ..).after (by decide) ?_
    | with_reducible refine (Moves.fold _ _ _ ?_).behind ?_
    | intro _
    | split
    | ((conv => arg 3; with_reducible whnf); split))

theorem State.markLost_moves (s : State) (x1 : Eng) (x2 : LHead) :
    Moves [.media] s (State.markLost s x1 x2) := by
  unfold State.markLost
  repeat' (first
    | with_reducible exact Moves.refl _ _
    | with_reducible assumption
    | extract_lets
    | with_reducible refine Moves.ite ?_ ?_
    | with_reducible refine (State.modMedia_moves ..).after (by decide) ?_
    | with_reducible refine (Moves.fold _ _ _ ?_).behind ?_
    | intro _
    | split
    | ((conv => arg 3; with_reducible whnf); split))

theorem State.resynch_moves (s : State) (x1 : SpdmIx → Bool) :
    Moves [.sec] s (State.resynch s x1) := by
  unfold State.resynch
  repeat' (first
    | with_reducible exact Moves.refl _ _
    | with_reducible assumption
    | extract_lets
    | with_reducible refine Moves.ite ?_ ?_
    | with_reducible refine (State.modSec_moves ..).after (by decide) ?_
    | with_reducible refine (Moves.fold _ _ _ ?_).behind ?_
    | intro _
    | split
    | ((conv => arg 3; with_reducible whnf); split))

theorem State.headFail_moves (s : State) (x1 : Head) :
    Moves [.free, .slice, .lane, .pool, .wsl, .lpe, .trc, .media, .host, .q, .pwr, .sec, .evr, .nor, .out, .links, .recv, .engSrv, .seq, .zdc, .rd, .det, .wr, .headSrv, .map, .freq] s (State.headFail s x1) := by
  unfold State.headFail
  repeat' (first
    | with_reducible exact Moves.refl _ _
    | with_reducible assumption
    | extract_lets
    | with_reducible refine Moves.ite ?_ ?_
    | with_reducible refine (State.forceWriteOff_moves ..).after (by decide) ?_
    | with_reducible refine (State.closeJobs_moves ..).after (by decide) ?_
    | with_reducible refine (State.modMap_moves ..).after (by decide) ?_
    | with_reducible refine (State.modNor_moves _ _ (by intro n; repeat' (first | rfl | extract_lets | split))).after (by decide) ?_
    | with_reducible refine (State.dropReads_moves ..).after (by decide) ?_
    | with_reducible refine (State.packetSettled_moves ..).after (by decide) ?_
    | with_reducible refine (State.disableHeadLoops_moves ..).after (by decide) ?_
    | with_reducible refine (State.modHs_moves ..).after (by decide) ?_
    | with_reducible refine (State.modWr_moves ..).after (by decide) ?_
    | with_reducible refine (State.modWsl_moves ..).after (by decide) ?_
    | with_reducible refine (State.modLane_moves ..).after (by decide) ?_
    | with_reducible refine (State.settleBind_moves ..).after (by decide) ?_
    | with_reducible refine (State.applyZoneRule_moves ..).after (by decide) ?_
    | with_reducible refine (State.markLost_moves ..).after (by decide) ?_
    | with_reducible refine (State.condMap_moves ..).after (by decide) ?_
    | with_reducible refine (State.resynch_moves ..).after (by decide) ?_
    | with_reducible refine (State.vendorEvent_moves ..).after (by decide) ?_
    | with_reducible refine (Moves.fold _ _ _ ?_).behind ?_
    | intro _
    | split
    | ((conv => arg 3; with_reducible whnf); split))

theorem State.beginPark_moves (s : State) (x1 : Eng) (x2 : LoadState) :
    Moves [.trc, .evr, .rst, .links, .engSrv, .seq, .wr, .headSrv] s (State.beginPark s x1 x2) := by
  unfold State.beginPark
  repeat' (first
    | with_reducible exact Moves.refl _ _
    | with_reducible assumption
    | extract_lets
    | with_reducible refine Moves.ite ?_ ?_
    | with_reducible refine (State.forceWritesOff_moves ..).after (by decide) ?_
    | with_reducible refine (State.strobe_moves ..).after (by decide) ?_
    | with_reducible refine (State.modSrv_moves ..).after (by decide) ?_
    | with_reducible refine (State.modHs_moves ..).after (by decide) ?_
    | with_reducible refine (State.modAct_moves ..).after (by decide) ?_
    | with_reducible refine (Moves.fold _ _ _ ?_).behind ?_
    | intro _
    | split
    | ((conv => arg 3; with_reducible whnf); split))

theorem State.pavane_moves (s : State) (x1 : Eng) :
    Moves [.trc, .evr, .rst, .links, .engSrv, .seq, .wr, .headSrv] s (State.pavane s x1) := by
  unfold State.pavane
  repeat' (first
    | with_reducible exact Moves.refl _ _
    | with_reducible assumption
    | extract_lets
    | with_reducible refine Moves.ite ?_ ?_
    | with_reducible refine (State.beginPark_moves ..).after (by decide) ?_
    | with_reducible refine (State.modAct_moves ..).after (by decide) ?_
    | with_reducible refine (Moves.fold _ _ _ ?_).behind ?_
    | intro _
    | split
    | ((conv => arg 3; with_reducible whnf); split))

theorem State.checkpoint_moves (s : State) (x1 : ZoneDesc → Bool) :
    Moves [.nor] s (State.checkpoint s x1) := by
  unfold State.checkpoint
  repeat' (first
    | with_reducible exact Moves.refl _ _
    | with_reducible assumption
    | extract_lets
    | with_reducible refine Moves.ite ?_ ?_
    | with_reducible refine (State.putRecord_moves ..).after (by decide) ?_
    | with_reducible refine (Moves.fold _ _ _ ?_).behind ?_
    | intro _
    | split
    | ((conv => arg 3; with_reducible whnf); split))

theorem State.endRuns_moves (s : State) (x1 : Eng) :
    Moves [.reel, .seq, .wr] s (State.endRuns s x1) := by
  unfold State.endRuns
  repeat' (first
    | with_reducible exact Moves.refl _ _
    | with_reducible assumption
    | extract_lets
    | with_reducible refine Moves.ite ?_ ?_
    | with_reducible refine (State.modWr_moves ..).after (by decide) ?_
    | with_reducible refine (State.runEnded_moves ..).after (by decide) ?_
    | with_reducible refine (State.modReel_moves ..).after (by decide) ?_
    | with_reducible refine (State.modSeq_moves ..).after (by decide) ?_
    | with_reducible refine (Moves.fold _ _ _ ?_).behind ?_
    | intro _
    | split
    | ((conv => arg 3; with_reducible whnf); split))

theorem State.settlePark_moves (s : State) (x1 : Eng) :
    Moves [.trc, .evr, .nor, .rst, .reel, .links, .engSrv, .seq, .wr, .headSrv] s (State.settlePark s x1) := by
  unfold State.settlePark
  repeat' (first
    | with_reducible exact Moves.refl _ _
    | with_reducible assumption
    | extract_lets
    | with_reducible refine Moves.ite ?_ ?_
    | with_reducible refine (State.disarmWhere_moves ..).after (by decide) ?_
    | with_reducible refine (State.checkpoint_moves ..).after (by decide) ?_
    | with_reducible refine (State.beginPark_moves ..).after (by decide) ?_
    | with_reducible refine (Moves.fold _ _ _ ?_).behind ?_
    | intro _
    | split
    | ((conv => arg 3; with_reducible whnf); split))

theorem State.controlledUnload_moves (s : State) (x1 : Eng) :
    Moves [.trc, .evr, .nor, .rst, .reel, .links, .engSrv, .seq, .wr, .headSrv] s (State.controlledUnload s x1) := by
  unfold State.controlledUnload
  repeat' (first
    | with_reducible exact Moves.refl _ _
    | with_reducible assumption
    | extract_lets
    | with_reducible refine Moves.ite ?_ ?_
    | with_reducible refine (State.endRuns_moves ..).after (by decide) ?_
    | with_reducible refine (State.modAct_moves ..).after (by decide) ?_
    | with_reducible refine (State.settlePark_moves ..).after (by decide) ?_
    | with_reducible refine (Moves.fold _ _ _ ?_).behind ?_
    | intro _
    | split
    | ((conv => arg 3; with_reducible whnf); split))

theorem State.patchApplied_moves (s : State) :
    Moves [.trc, .host, .sec, .evr, .out] s (State.patchApplied s) := by
  unfold State.patchApplied
  repeat' (first
    | with_reducible exact Moves.refl _ _
    | with_reducible assumption
    | extract_lets
    | with_reducible refine Moves.ite ?_ ?_
    | with_reducible refine (State.modSec_moves ..).after (by decide) ?_
    | with_reducible refine (State.resynch_moves ..).after (by decide) ?_
    | with_reducible refine (State.answerAdmin_moves ..).after (by decide) ?_
    | with_reducible refine (Moves.fold _ _ _ ?_).behind ?_
    | intro _
    | split
    | ((conv => arg 3; with_reducible whnf); split))

theorem State.engineFail_moves (s : State) (x1 : Eng) :
    Moves [.free, .slice, .lane, .pool, .trc, .media, .host, .q, .het, .sec, .evr, .nor, .rst, .out, .links, .recv, .engSrv, .seq, .zdc, .core, .det, .wr, .headSrv] s (State.engineFail s x1) := by
  unfold State.engineFail
  repeat' (first
    | with_reducible exact Moves.refl _ _
    | with_reducible assumption
    | extract_lets
    | with_reducible refine Moves.ite ?_ ?_
    | with_reducible refine (State.pavane_moves ..).after (by decide) ?_
    | with_reducible refine (State.modCore_moves ..).after (by decide) ?_
    | with_reducible refine (State.modSeq_moves ..).after (by decide) ?_
    | with_reducible refine (State.modAct_moves ..).after (by decide) ?_
    | with_reducible refine (State.closeJobs_moves ..).after (by decide) ?_
    | with_reducible refine (State.applyZoneRule_moves ..).after (by decide) ?_
    | with_reducible refine (State.condAct_moves ..).after (by decide) ?_
    | with_reducible refine (State.resynch_moves ..).after (by decide) ?_
    | with_reducible refine (State.replyWaiting_moves ..).after (by decide) ?_
    | with_reducible refine (State.vendorEvent_moves ..).after (by decide) ?_
    | with_reducible refine (State.patchApplied_moves ..).after (by decide) ?_
    | with_reducible refine (Moves.fold _ _ _ ?_).behind ?_
    | intro _
    | split
    | ((conv => arg 3; with_reducible whnf); split))

theorem State.writeDisable_moves (s : State) (x1 : Head) :
    Moves [.free, .trc, .media, .host, .q, .evr, .nor, .out, .links, .engSrv, .seq, .zdc, .wr, .headSrv] s (State.writeDisable s x1) := by
  unfold State.writeDisable
  repeat' (first
    | with_reducible exact Moves.refl _ _
    | with_reducible assumption
    | extract_lets
    | with_reducible refine Moves.ite ?_ ?_
    | with_reducible refine (State.modWr_moves ..).after (by decide) ?_
    | with_reducible refine (State.condWr_moves ..).after (by decide) ?_
    | with_reducible refine (State.forceWriteOff_moves ..).after (by decide) ?_
    | with_reducible refine (State.applyZoneRule_moves ..).after (by decide) ?_
    | with_reducible refine (Moves.fold _ _ _ ?_).behind ?_
    | intro _
    | split
    | ((conv => arg 3; with_reducible whnf); split))

end Sys2Proof.Machine
end

