-- ==== Sys2Proof/Laws/MovesReel.lean ====
section
/-! SUPPORT. What each operation and each command of Machine/Reel.lean can touch. -/

namespace Sys2Proof.Machine
open Sys2Proof
set_option linter.all false
set_option Elab.async false

theorem execComparatorArm_moves (x0 : Eng) (x1 : CmpIx) (x2 : Word) (s : State) {t : State} (h : (execComparatorArm x0 x1 x2 s) = .next t) :
    Moves [.reel] s t := by
  unfold execComparatorArm at h
  repeat' (first | contradiction | (injection h with h; subst h) | split at h)
  all_goals (repeat' (first
    | with_reducible exact Moves.refl _ _
    | with_reducible assumption
    | extract_lets
    | with_reducible refine Moves.ite ?_ ?_
    | with_reducible refine (State.modCmp_moves ..).after (by decide) ?_
    | with_reducible refine (Moves.fold _ _ _ ?_).behind ?_
    | intro _
    | split
    | ((conv => arg 3; with_reducible whnf); split)))

theorem State.measure_moves (s : State) (x1 : Eng) :
    Moves [.reel] s (State.measure s x1) := by
  unfold State.measure
  repeat' (first
    | with_reducible exact Moves.refl _ _
    | with_reducible assumption
    | extract_lets
    | with_reducible refine Moves.ite ?_ ?_
    | with_reducible refine (State.modReel_moves ..).after (by decide) ?_
    | with_reducible refine (Moves.fold _ _ _ ?_).behind ?_
    | intro _
    | split
    | ((conv => arg 3; with_reducible whnf); split))

theorem State.latchSkew_moves (s : State) (x1 : Eng) :
    Moves [.reel] s (State.latchSkew s x1) := by
  unfold State.latchSkew
  repeat' (first
    | with_reducible exact Moves.refl _ _
    | with_reducible assumption
    | extract_lets
    | with_reducible refine Moves.ite ?_ ?_
    | with_reducible refine (State.modReel_moves ..).after (by decide) ?_
    | with_reducible refine (Moves.fold _ _ _ ?_).behind ?_
    | intro _
    | split
    | ((conv => arg 3; with_reducible whnf); split))

theorem State.reseed_moves (s : State) (x1 : Eng) :
    Moves [.slice, .wr] s (State.reseed s x1) := by
  unfold State.reseed
  repeat' (first
    | with_reducible exact Moves.refl _ _
    | with_reducible assumption
    | extract_lets
    | with_reducible refine Moves.ite ?_ ?_
    | with_reducible refine (State.modWr_moves ..).after (by decide) ?_
    | with_reducible refine (State.modSlice_moves ..).after (by decide) ?_
    | with_reducible refine (Moves.fold _ _ _ ?_).behind ?_
    | intro _
    | split
    | ((conv => arg 3; with_reducible whnf); split))

theorem State.lock_moves (s : State) (x1 : Eng) :
    Moves [.reel, .seq] s (State.lock s x1) := by
  unfold State.lock
  repeat' (first
    | with_reducible exact Moves.refl _ _
    | with_reducible assumption
    | extract_lets
    | with_reducible refine Moves.ite ?_ ?_
    | with_reducible refine (State.modReel_moves ..).after (by decide) ?_
    | with_reducible refine (State.modSeq_moves ..).after (by decide) ?_
    | with_reducible refine (Moves.fold _ _ _ ?_).behind ?_
    | intro _
    | split
    | ((conv => arg 3; with_reducible whnf); split))

theorem State.slip_moves (s : State) (x1 : Eng) (x2 : Int) :
    Moves [.slice, .lane, .pool, .trc, .pwr, .evr, .reel, .links, .recv, .engSrv, .seq, .rd, .det, .wr, .headSrv, .map, .freq] s (State.slip s x1 x2) := by
  unfold State.slip
  repeat' (first
    | with_reducible exact Moves.refl _ _
    | with_reducible assumption
    | extract_lets
    | with_reducible refine Moves.ite ?_ ?_
    | with_reducible refine (State.forceWritesOff_moves ..).after (by decide) ?_
    | with_reducible refine (State.dropReads_moves ..).after (by decide) ?_
    | with_reducible refine (State.disarmWhere_moves ..).after (by decide) ?_
    | with_reducible refine (State.modReel_moves ..).after (by decide) ?_
    | with_reducible refine (State.trapCause_moves ..).after (by decide) ?_
    | with_reducible refine (State.condReel_moves ..).after (by decide) ?_
    | with_reducible refine (State.saturated_moves ..).after (by decide) ?_
    | with_reducible refine (Moves.fold _ _ _ ?_).behind ?_
    | intro _
    | split
    | ((conv => arg 3; with_reducible whnf); split))

theorem State.checkIndex_moves (s : State) (x1 : Eng) (x2 : Option (Fin 720)) (x3 : Nat) :
    Moves [.slice, .lane, .pool, .trc, .pwr, .evr, .reel, .links, .recv, .engSrv, .seq, .rd, .det, .wr, .headSrv, .map, .freq] s (State.checkIndex s x1 x2 x3) := by
  unfold State.checkIndex
  repeat' (first
    | with_reducible exact Moves.refl _ _
    | with_reducible assumption
    | extract_lets
    | with_reducible refine Moves.ite ?_ ?_
    | with_reducible refine (State.modSrv_moves ..).after (by decide) ?_
    | with_reducible refine (State.modReel_moves ..).after (by decide) ?_
    | with_reducible refine (State.saturated_moves ..).after (by decide) ?_
    | with_reducible refine (State.slip_moves ..).after (by decide) ?_
    | with_reducible refine (State.enterAcquire_moves ..).after (by decide) ?_
    | with_reducible refine (Moves.fold _ _ _ ?_).behind ?_
    | intro _
    | split
    | ((conv => arg 3; with_reducible whnf); split))

theorem State.acceptLocked_moves (s : State) (x1 : Eng) (x2 : MarkInfo) :
    Moves [.slice, .lane, .pool, .trc, .pwr, .evr, .reel, .links, .recv, .engSrv, .seq, .rd, .det, .wr, .headSrv, .map, .freq] s (State.acceptLocked s x1 x2) := by
  unfold State.acceptLocked
  repeat' (first
    | with_reducible exact Moves.refl _ _
    | with_reducible assumption
    | extract_lets
    | with_reducible refine Moves.ite ?_ ?_
    | with_reducible refine (State.modReel_moves ..).after (by decide) ?_
    | with_reducible refine (State.measure_moves ..).after (by decide) ?_
    | with_reducible refine (State.latchSkew_moves ..).after (by decide) ?_
    | with_reducible refine (State.reseed_moves ..).after (by decide) ?_
    | with_reducible refine (State.checkIndex_moves ..).after (by decide) ?_
    | with_reducible refine (Moves.fold _ _ _ ?_).behind ?_
    | intro _
    | split
    | ((conv => arg 3; with_reducible whnf); split))

theorem State.bringTo_moves (s : State) (x1 : Eng) (x2 : Int) :
    Moves [.reel] s (State.bringTo s x1 x2) := by
  unfold State.bringTo
  repeat' (first
    | with_reducible exact Moves.refl _ _
    | with_reducible assumption
    | extract_lets
    | with_reducible refine Moves.ite ?_ ?_
    | with_reducible refine (State.modReel_moves ..).after (by decide) ?_
    | with_reducible refine (Moves.fold _ _ _ ?_).behind ?_
    | intro _
    | split
    | ((conv => arg 3; with_reducible whnf); split))

theorem State.beginWindow_moves (s : State) (x1 : Eng) :
    Moves [.reel, .wr] s (State.beginWindow s x1) := by
  unfold State.beginWindow
  repeat' (first
    | with_reducible exact Moves.refl _ _
    | with_reducible assumption
    | extract_lets
    | with_reducible refine Moves.ite ?_ ?_
    | with_reducible refine (State.servoGates_moves ..).after (by decide) ?_
    | with_reducible refine (State.armFixed_moves ..).after (by decide) ?_
    | with_reducible refine (State.modCmp_moves ..).after (by decide) ?_
    | with_reducible refine (State.modReel_moves ..).after (by decide) ?_
    | with_reducible refine (Moves.fold _ _ _ ?_).behind ?_
    | intro _
    | split
    | ((conv => arg 3; with_reducible whnf); split))

theorem State.noteWedge_moves (s : State) (x1 : Eng) (x2 : Nat) :
    Moves [.reel] s (State.noteWedge s x1 x2) := by
  unfold State.noteWedge
  repeat' (first
    | with_reducible exact Moves.refl _ _
    | with_reducible assumption
    | extract_lets
    | with_reducible refine Moves.ite ?_ ?_
    | with_reducible refine (State.modReel_moves ..).after (by decide) ?_
    | with_reducible refine (Moves.fold _ _ _ ?_).behind ?_
    | intro _
    | split
    | ((conv => arg 3; with_reducible whnf); split))

theorem State.acceptFirst_moves (s : State) (x1 : Eng) (x2 : MarkInfo) :
    Moves [.slice, .reel, .engSrv, .wr] s (State.acceptFirst s x1 x2) := by
  unfold State.acceptFirst
  repeat' (first
    | with_reducible exact Moves.refl _ _
    | with_reducible assumption
    | extract_lets
    | with_reducible refine Moves.ite ?_ ?_
    | with_reducible refine (State.modSrv_moves ..).after (by decide) ?_
    | with_reducible refine (State.bringTo_moves ..).after (by decide) ?_
    | with_reducible refine (State.modReel_moves ..).after (by decide) ?_
    | with_reducible refine (State.measure_moves ..).after (by decide) ?_
    | with_reducible refine (State.latchSkew_moves ..).after (by decide) ?_
    | with_reducible refine (State.reseed_moves ..).after (by decide) ?_
    | with_reducible refine (State.beginWindow_moves ..).after (by decide) ?_
    | with_reducible refine (Moves.fold _ _ _ ?_).behind ?_
    | intro _
    | split
    | ((conv => arg 3; with_reducible whnf); split))

theorem State.acceptWindow_moves (s : State) (x1 : Eng) (x2 : MarkInfo) (x3 : Int) :
    Moves [.slice, .lane, .pool, .trc, .pwr, .evr, .reel, .links, .recv, .engSrv, .seq, .rd, .det, .wr, .headSrv, .map, .freq] s (State.acceptWindow s x1 x2 x3) := by
  unfold State.acceptWindow
  repeat' (first
    | with_reducible exact Moves.refl _ _
    | with_reducible assumption
    | extract_lets
    | with_reducible refine Moves.ite ?_ ?_
    | with_reducible refine (State.noteWedge_moves ..).after (by decide) ?_
    | with_reducible refine (State.bringTo_moves ..).after (by decide) ?_
    | with_reducible refine (State.modReel_moves ..).after (by decide) ?_
    | with_reducible refine (State.measure_moves ..).after (by decide) ?_
    | with_reducible refine (State.latchSkew_moves ..).after (by decide) ?_
    | with_reducible refine (State.reseed_moves ..).after (by decide) ?_
    | with_reducible refine (State.checkIndex_moves ..).after (by decide) ?_
    | with_reducible refine (State.modCmp_moves ..).after (by decide) ?_
    | with_reducible refine (State.servoGates_moves ..).after (by decide) ?_
    | with_reducible refine (State.lock_moves ..).after (by decide) ?_
    | with_reducible refine (Moves.fold _ _ _ ?_).behind ?_
    | intro _
    | split
    | ((conv => arg 3; with_reducible whnf); split))

theorem State.noteTimingHead_moves (s : State) (x1 : Eng) (x2 : MarkInfo) :
    Moves [.engSrv] s (State.noteTimingHead s x1 x2) := by
  unfold State.noteTimingHead
  repeat' (first
    | with_reducible exact Moves.refl _ _
    | with_reducible assumption
    | extract_lets
    | with_reducible refine Moves.ite ?_ ?_
    | with_reducible refine (State.modSrv_moves ..).after (by decide) ?_
    | with_reducible refine (Moves.fold _ _ _ ?_).behind ?_
    | intro _
    | split
    | ((conv => arg 3; with_reducible whnf); split))

theorem State.mark_moves (s : State) (x1 : Eng) (x2 : MarkInfo) :
    Moves [.slice, .lane, .pool, .trc, .pwr, .evr, .reel, .links, .recv, .engSrv, .seq, .rd, .det, .wr, .headSrv, .map, .freq] s (State.mark s x1 x2) := by
  unfold State.mark
  repeat' (first
    | with_reducible exact Moves.refl _ _
    | with_reducible assumption
    | extract_lets
    | with_reducible refine Moves.ite ?_ ?_
    | with_reducible refine (State.modReel_moves ..).after (by decide) ?_
    | with_reducible refine (State.noteTimingHead_moves ..).after (by decide) ?_
    | with_reducible refine (State.acceptLocked_moves ..).after (by decide) ?_
    | with_reducible refine (State.acceptFirst_moves ..).after (by decide) ?_
    | with_reducible refine (State.acceptWindow_moves ..).after (by decide) ?_
    | with_reducible refine (Moves.fold _ _ _ ?_).behind ?_
    | intro _
    | split
    | ((conv => arg 3; with_reducible whnf); split))

theorem execServoMarkAccept_moves (x0 : Eng) (x1 : MarkInfo) (s : State) {t : State} (h : (execServoMarkAccept x0 x1 s) = .next t) :
    Moves [.slice, .lane, .pool, .trc, .pwr, .evr, .reel, .links, .recv, .engSrv, .seq, .rd, .det, .wr, .headSrv, .map, .freq] s t := by
  unfold execServoMarkAccept at h
  repeat' (first | contradiction | (injection h with h; subst h) | split at h)
  all_goals (repeat' (first
    | with_reducible exact Moves.refl _ _
    | with_reducible assumption
    | extract_lets
    | with_reducible refine Moves.ite ?_ ?_
    | with_reducible refine (State.mark_moves ..).after (by decide) ?_
    | with_reducible refine (Moves.fold _ _ _ ?_).behind ?_
    | intro _
    | split
    | ((conv => arg 3; with_reducible whnf); split)))

theorem execMarkHoldExpiry_moves (x0 : Eng) (s : State) {t : State} (h : (execMarkHoldExpiry x0 s) = .next t) :
    Moves [.trc, .evr, .reel, .links, .engSrv, .seq, .wr, .headSrv] s t := by
  unfold execMarkHoldExpiry at h
  repeat' (first | contradiction | (injection h with h; subst h) | split at h)
  all_goals (repeat' (first
    | with_reducible exact Moves.refl _ _
    | with_reducible assumption
    | extract_lets
    | with_reducible refine Moves.ite ?_ ?_
    | with_reducible refine (State.forceWritesOff_moves ..).after (by decide) ?_
    | with_reducible refine (State.modReel_moves ..).after (by decide) ?_
    | with_reducible refine (State.saturated_moves ..).after (by decide) ?_
    | with_reducible refine (Moves.fold _ _ _ ?_).behind ?_
    | intro _
    | split
    | ((conv => arg 3; with_reducible whnf); split)))

theorem execReelStatus_moves (x0 : Packet) (s : State) {t : State} (h : (execReelStatus x0 s) = .next t) :
    Moves [.trc, .host, .het, .evr, .out] s t := by
  unfold execReelStatus at h
  repeat' (first | contradiction | (injection h with h; subst h) | split at h)
  all_goals (repeat' (first
    | with_reducible exact Moves.refl _ _
    | with_reducible assumption
    | extract_lets
    | with_reducible refine Moves.ite ?_ ?_
    | with_reducible refine Moves.itePkt ?_ ?_
    | with_reducible refine runPacket_moves (by decide) (fun s => ?_)
    | with_reducible refine (PktRes.report_moves ..).after (by decide) ?_
    | with_reducible refine (Moves.fold _ _ _ ?_).behind ?_
    | intro _
    | split
    | ((conv => arg 3; with_reducible whnf); split)))

theorem opReelMarker_moves (x0 : Packet) (s : State) :
    Moves [.reel] s (opReelMarker x0 s).state := by
  unfold opReelMarker
  repeat' (first
    | with_reducible exact Moves.refl _ _
    | with_reducible assumption
    | extract_lets
    | with_reducible refine Moves.ite ?_ ?_
    | with_reducible refine Moves.itePkt ?_ ?_
    | with_reducible refine (State.modReel_moves ..).after (by decide) ?_
    | with_reducible refine (State.modCmp_moves ..).after (by decide) ?_
    | with_reducible refine (Moves.fold _ _ _ ?_).behind ?_
    | intro _
    | split
    | ((conv => arg 3; with_reducible whnf); split))

theorem execReelMarker_moves (x0 : Packet) (s : State) {t : State} (h : (execReelMarker x0 s) = .next t) :
    Moves [.trc, .host, .het, .evr, .out, .reel] s t := by
  unfold execReelMarker at h
  repeat' (first | contradiction | (injection h with h; subst h) | split at h)
  all_goals (repeat' (first
    | with_reducible exact Moves.refl _ _
    | with_reducible assumption
    | extract_lets
    | with_reducible refine Moves.ite ?_ ?_
    | with_reducible refine Moves.itePkt ?_ ?_
    | with_reducible refine (opReelMarker_moves ..).after (by decide) ?_
    | with_reducible refine runPacket_moves (by decide) (fun s => ?_)
    | with_reducible refine (Moves.fold _ _ _ ?_).behind ?_
    | intro _
    | split
    | ((conv => arg 3; with_reducible whnf); split)))

theorem opReelConfig_moves (x0 : Packet) (s : State) :
    Moves [.reel] s (opReelConfig x0 s).state := by
  unfold opReelConfig
  repeat' (first
    | with_reducible exact Moves.refl _ _
    | with_reducible assumption
    | extract_lets
    | with_reducible refine Moves.ite ?_ ?_
    | with_reducible refine Moves.itePkt ?_ ?_
    | with_reducible refine (State.modReel_moves ..).after (by decide) ?_
    | with_reducible refine (Moves.fold _ _ _ ?_).behind ?_
    | intro _
    | split
    | ((conv => arg 3; with_reducible whnf); split))

theorem execReelConfig_moves (x0 : Packet) (s : State) {t : State} (h : (execReelConfig x0 s) = .next t) :
    Moves [.trc, .host, .het, .evr, .out, .reel] s t := by
  unfold execReelConfig at h
  repeat' (first | contradiction | (injection h with h; subst h) | split at h)
  all_goals (repeat' (first
    | with_reducible exact Moves.refl _ _
    | with_reducible assumption
    | extract_lets
    | with_reducible refine Moves.ite ?_ ?_
    | with_reducible refine Moves.itePkt ?_ ?_
    | with_reducible refine (opReelConfig_moves ..).after (by decide) ?_
    | with_reducible refine runPacket_moves (by decide) (fun s => ?_)
    | with_reducible refine (Moves.fold _ _ _ ?_).behind ?_
    | intro _
    | split
    | ((conv => arg 3; with_reducible whnf); split)))

theorem opReelClear_moves (x0 : Packet) (s : State) :
    Moves [.reel] s (opReelClear x0 s).state := by
  unfold opReelClear
  repeat' (first
    | with_reducible exact Moves.refl _ _
    | with_reducible assumption
    | extract_lets
    | with_reducible refine Moves.ite ?_ ?_
    | with_reducible refine Moves.itePkt ?_ ?_
    | with_reducible refine (State.modReel_moves ..).after (by decide) ?_
    | with_reducible refine (Moves.fold _ _ _ ?_).behind ?_
    | intro _
    | split
    | ((conv => arg 3; with_reducible whnf); split))

theorem execReelClear_moves (x0 : Packet) (s : State) {t : State} (h : (execReelClear x0 s) = .next t) :
    Moves [.trc, .host, .het, .evr, .out, .reel] s t := by
  unfold execReelClear at h
  repeat' (first | contradiction | (injection h with h; subst h) | split at h)
  all_goals (repeat' (first
    | with_reducible exact Moves.refl _ _
    | with_reducible assumption
    | extract_lets
    | with_reducible refine Moves.ite ?_ ?_
    | with_reducible refine Moves.itePkt ?_ ?_
    | with_reducible refine (opReelClear_moves ..).after (by decide) ?_
    | with_reducible refine runPacket_moves (by decide) (fun s => ?_)
    | with_reducible refine (Moves.fold _ _ _ ?_).behind ?_
    | intro _
    | split
    | ((conv => arg 3; with_reducible whnf); split)))

end Sys2Proof.Machine
end

