-- ==== Sys2Proof/Laws/MovesFrames.lean ====
section
/-! SUPPORT. What each operation and each command of Machine/Frames.lean can touch. -/

namespace Sys2Proof.Machine
open Sys2Proof
set_option linter.all false
set_option Elab.async false

theorem State.postponeRuns_moves (s : State) :
    Moves [.wsl] s (State.postponeRuns s) := by
  unfold State.postponeRuns
  repeat' (first
    | with_reducible exact Moves.refl _ _
    | with_reducible assumption
    | extract_lets
    | with_reducible refine Moves.ite ?_ ?_
    | with_reducible refine (State.modWsl_moves ..).after (by decide) ?_
    | with_reducible refine (Moves.fold _ _ _ ?_).behind ?_
    | intro _
    | split
    | ((conv => arg 3; with_reducible whnf); split))

theorem State.grantRuns_moves (s : State) (n : Nat) :
    Moves [.wsl, .wr] s (s.grantRuns n) := by
  induction n generalizing s with
  | zero => exact .refl _ s
  | succ n ih =>
    unfold State.grantRuns
    split
    · exact .refl _ s
    · split
      · extract_lets s1 s2
        exact (((Moves.set_wsl ..).widen (by decide)).trans ((State.modWr_moves ..).widen (by decide))).trans (ih _)
      · exact .refl _ s

theorem State.grantSlots_moves (s : State) :
    Moves [.wsl, .wr] s (State.grantSlots s) := by
  unfold State.grantSlots
  repeat' (first
    | with_reducible exact Moves.refl _ _
    | with_reducible assumption
    | extract_lets
    | with_reducible refine Moves.ite ?_ ?_
    | with_reducible refine (State.postponeRuns_moves ..).after (by decide) ?_
    | with_reducible refine (State.grantRuns_moves ..).after (by decide) ?_
    | with_reducible refine (Moves.fold _ _ _ ?_).behind ?_
    | intro _
    | split
    | ((conv => arg 3; with_reducible whnf); split))

theorem State.releaseSlot_moves (s : State) (x1 : Head) :
    Moves [.wsl, .wr] s (State.releaseSlot s x1) := by
  unfold State.releaseSlot
  repeat' (first
    | with_reducible exact Moves.refl _ _
    | with_reducible assumption
    | extract_lets
    | with_reducible refine Moves.ite ?_ ?_
    | with_reducible refine (State.modWsl_moves ..).after (by decide) ?_
    | with_reducible refine (State.modWr_moves ..).after (by decide) ?_
    | with_reducible refine (State.grantSlots_moves ..).after (by decide) ?_
    | with_reducible refine (Moves.fold _ _ _ ?_).behind ?_
    | intro _
    | split
    | ((conv => arg 3; with_reducible whnf); split))

theorem State.decideMode_moves (s : State) (x1 : Head) (x2 : Angle) :
    Moves [.wsl, .lpe, .wr] s (State.decideMode s x1 x2) := by
  unfold State.decideMode
  repeat' (first
    | with_reducible exact Moves.refl _ _
    | with_reducible assumption
    | extract_lets
    | with_reducible refine Moves.ite ?_ ?_
    | with_reducible refine (State.modWr_moves ..).after (by decide) ?_
    | with_reducible refine (State.modLoop_moves ..).after (by decide) ?_
    | with_reducible refine (State.modWsl_moves ..).after (by decide) ?_
    | with_reducible refine (Moves.fold _ _ _ ?_).behind ?_
    | intro _
    | split
    | ((conv => arg 3; with_reducible whnf); split))

theorem State.putFrame_moves (s : State) (x1 : Eng) (x2 : LinkIx) (x3 : Byte) (x4 : FrameBody) :
    Moves [.out, .links] s (State.putFrame s x1 x2 x3 x4) := by
  unfold State.putFrame
  repeat' (first
    | with_reducible exact Moves.refl _ _
    | with_reducible assumption
    | extract_lets
    | with_reducible refine Moves.ite ?_ ?_
    | with_reducible refine (State.modLink_moves ..).after (by decide) ?_
    | with_reducible refine (State.modOut_moves ..).after (by decide) ?_
    | with_reducible refine (Moves.fold _ _ _ ?_).behind ?_
    | intro _
    | split
    | ((conv => arg 3; with_reducible whnf); split))

theorem State.sendFrame_moves (s : State) (x1 : Eng) (x2 : LinkIx) (x3 : FrameBody) :
    Moves [.out, .links] s (State.sendFrame s x1 x2 x3) := by
  unfold State.sendFrame
  repeat' (first
    | with_reducible exact Moves.refl _ _
    | with_reducible assumption
    | extract_lets
    | with_reducible refine Moves.ite ?_ ?_
    | with_reducible refine (State.modLink_moves ..).after (by decide) ?_
    | with_reducible refine (State.putFrame_moves ..).after (by decide) ?_
    | with_reducible refine (Moves.fold _ _ _ ?_).behind ?_
    | intro _
    | split
    | ((conv => arg 3; with_reducible whnf); split))

theorem State.launch_moves (s : State) (x1 : Eng) (x2 : LinkIx) :
    Moves [.wsl, .lpe, .out, .links, .wr] s (State.launch s x1 x2) := by
  unfold State.launch
  repeat' (first
    | with_reducible exact Moves.refl _ _
    | with_reducible assumption
    | extract_lets
    | with_reducible refine Moves.ite ?_ ?_
    | with_reducible refine (State.decideMode_moves ..).after (by decide) ?_
    | with_reducible refine (State.modLink_moves ..).after (by decide) ?_
    | with_reducible refine (State.sendFrame_moves ..).after (by decide) ?_
    | with_reducible refine (Moves.fold _ _ _ ?_).behind ?_
    | intro _
    | split
    | ((conv => arg 3; with_reducible whnf); split))

theorem State.launchOrWait_moves (s : State) (x1 : Eng) (x2 : LinkIx) :
    Moves [.wsl, .lpe, .out, .links, .wr] s (State.launchOrWait s x1 x2) := by
  unfold State.launchOrWait
  repeat' (first
    | with_reducible exact Moves.refl _ _
    | with_reducible assumption
    | extract_lets
    | with_reducible refine Moves.ite ?_ ?_
    | with_reducible refine (State.launch_moves ..).after (by decide) ?_
    | with_reducible refine (State.modLink_moves ..).after (by decide) ?_
    | with_reducible refine (Moves.fold _ _ _ ?_).behind ?_
    | intro _
    | split
    | ((conv => arg 3; with_reducible whnf); split))

theorem State.nextFrame_moves (s : State) (x1 : Eng) (x2 : LinkIx) :
    Moves [.wsl, .lpe, .out, .links, .wr] s (State.nextFrame s x1 x2) := by
  unfold State.nextFrame
  repeat' (first
    | with_reducible exact Moves.refl _ _
    | with_reducible assumption
    | extract_lets
    | with_reducible refine Moves.ite ?_ ?_
    | with_reducible refine (State.launch_moves ..).after (by decide) ?_
    | with_reducible refine (State.modLink_moves ..).after (by decide) ?_
    | with_reducible refine (State.putFrame_moves ..).after (by decide) ?_
    | with_reducible refine (State.sendFrame_moves ..).after (by decide) ?_
    | with_reducible refine (Moves.fold _ _ _ ?_).behind ?_
    | intro _
    | split
    | ((conv => arg 3; with_reducible whnf); split))

theorem State.queueConfig_moves (s : State) (x1 : Eng) (x2 : LinkIx) (x3 : CfgFrame) :
    Moves [.wsl, .lpe, .out, .links, .wr] s (State.queueConfig s x1 x2 x3) := by
  unfold State.queueConfig
  repeat' (first
    | with_reducible exact Moves.refl _ _
    | with_reducible assumption
    | extract_lets
    | with_reducible refine Moves.ite ?_ ?_
    | with_reducible refine (State.nextFrame_moves ..).after (by decide) ?_
    | with_reducible refine (State.modLink_moves ..).after (by decide) ?_
    | with_reducible refine (Moves.fold _ _ _ ?_).behind ?_
    | intro _
    | split
    | ((conv => arg 3; with_reducible whnf); split))

theorem State.symbol_moves (s : State) (x1 : Eng) (x2 : LinkIx) :
    Moves [.wsl, .lpe, .out, .links, .wr] s (State.symbol s x1 x2) := by
  unfold State.symbol
  repeat' (first
    | with_reducible exact Moves.refl _ _
    | with_reducible assumption
    | extract_lets
    | with_reducible refine Moves.ite ?_ ?_
    | with_reducible refine (State.modOut_moves ..).after (by decide) ?_
    | with_reducible refine (State.modLink_moves ..).after (by decide) ?_
    | with_reducible refine (State.nextFrame_moves ..).after (by decide) ?_
    | with_reducible refine (Moves.fold _ _ _ ?_).behind ?_
    | intro _
    | split
    | ((conv => arg 3; with_reducible whnf); split))

theorem State.symbols_moves (s : State) :
    Moves [.wsl, .lpe, .out, .links, .wr] s (State.symbols s) := by
  unfold State.symbols
  repeat' (first
    | with_reducible exact Moves.refl _ _
    | with_reducible assumption
    | extract_lets
    | with_reducible refine Moves.ite ?_ ?_
    | with_reducible refine (State.symbol_moves ..).after (by decide) ?_
    | with_reducible refine (Moves.fold _ _ _ ?_).behind ?_
    | intro _
    | split
    | ((conv => arg 3; with_reducible whnf); split))

end Sys2Proof.Machine
end

