-- ==== Sys2Proof/Laws/MovesArm.lean ====
section
/-! SUPPORT. What each operation and each command of Machine/Arm.lean can touch. -/

namespace Sys2Proof.Machine
open Sys2Proof
set_option linter.all false
set_option Elab.async false

theorem State.alkFull_moves (s : State) (x1 : Eng) (x2 : LinkIx) (x3 : ℕ) (x4 : ℕ) :
    Moves [.trc, .evr] s (State.alkFull s x1 x2 x3 x4) := by
  unfold State.alkFull
  repeat' (first
    | with_reducible exact Moves.refl _ _
    | with_reducible assumption
    | extract_lets
    | with_reducible refine Moves.ite ?_ ?_
    | with_reducible refine (State.saturated_moves ..).after (by decide) ?_
    | with_reducible refine (Moves.fold _ _ _ ?_).behind ?_
    | intro _
    | split
    | ((conv => arg 3; with_reducible whnf); split))

theorem State.alkViolation_moves (s : State) (x1 : Eng) (x2 : LinkIx) (x3 : ℕ) (x4 : List Word) :
    Moves [.trc, .evr] s (State.alkViolation s x1 x2 x3 x4) := by
  unfold State.alkViolation
  repeat' (first
    | with_reducible exact Moves.refl _ _
    | with_reducible assumption
    | extract_lets
    | with_reducible refine Moves.ite ?_ ?_
    | with_reducible refine (State.violation_moves ..).after (by decide) ?_
    | with_reducible refine (Moves.fold _ _ _ ?_).behind ?_
    | intro _
    | split
    | ((conv => arg 3; with_reducible whnf); split))

theorem State.stale_moves (s : State) (x1 : Eng) (x2 : LinkIx) :
    Moves [.trc, .evr, .links, .engSrv, .seq, .wr, .headSrv] s (State.stale s x1 x2) := by
  unfold State.stale
  repeat' (first
    | with_reducible exact Moves.refl _ _
    | with_reducible assumption
    | extract_lets
    | with_reducible refine Moves.ite ?_ ?_
    | with_reducible refine (State.forceWritesOff_moves ..).after (by decide) ?_
    | with_reducible refine (State.modLink_moves ..).after (by decide) ?_
    | with_reducible refine (State.condLink_moves ..).after (by decide) ?_
    | with_reducible refine (State.alkFull_moves ..).after (by decide) ?_
    | with_reducible refine (Moves.fold _ _ _ ?_).behind ?_
    | intro _
    | split
    | ((conv => arg 3; with_reducible whnf); split))

theorem State.configFailed_moves (s : State) (x1 : Eng) (x2 : LinkIx) (x3 : Frame) :
    Moves [.wsl, .lpe, .trc, .evr, .out, .links, .wr] s (State.configFailed s x1 x2 x3) := by
  unfold State.configFailed
  repeat' (first
    | with_reducible exact Moves.refl _ _
    | with_reducible assumption
    | extract_lets
    | with_reducible refine Moves.ite ?_ ?_
    | with_reducible refine (State.modLink_moves ..).after (by decide) ?_
    | with_reducible refine (State.putFrame_moves ..).after (by decide) ?_
    | with_reducible refine (State.condLink_moves ..).after (by decide) ?_
    | with_reducible refine (State.nextFrame_moves ..).after (by decide) ?_
    | with_reducible refine (Moves.fold _ _ _ ?_).behind ?_
    | intro _
    | split
    | ((conv => arg 3; with_reducible whnf); split))

theorem State.attemptFailed_moves (s : State) (x1 : Eng) (x2 : LinkIx) :
    Moves [.wsl, .lpe, .trc, .evr, .out, .links, .engSrv, .seq, .wr, .headSrv] s (State.attemptFailed s x1 x2) := by
  unfold State.attemptFailed
  repeat' (first
    | with_reducible exact Moves.refl _ _
    | with_reducible assumption
    | extract_lets
    | with_reducible refine Moves.ite ?_ ?_
    | with_reducible refine (State.configFailed_moves ..).after (by decide) ?_
    | with_reducible refine (State.modLink_moves ..).after (by decide) ?_
    | with_reducible refine (State.putFrame_moves ..).after (by decide) ?_
    | with_reducible refine (State.stale_moves ..).after (by decide) ?_
    | with_reducible refine (State.nextFrame_moves ..).after (by decide) ?_
    | with_reducible refine (Moves.fold _ _ _ ?_).behind ?_
    | intro _
    | split
    | ((conv => arg 3; with_reducible whnf); split))

theorem State.wrongSeq_moves (s : State) (x1 : Eng) (x2 : LinkIx) (x3 : Byte) :
    Moves [.wsl, .lpe, .trc, .evr, .out, .links, .engSrv, .seq, .wr, .headSrv] s (State.wrongSeq s x1 x2 x3) := by
  unfold State.wrongSeq
  repeat' (first
    | with_reducible exact Moves.refl _ _
    | with_reducible assumption
    | extract_lets
    | with_reducible refine Moves.ite ?_ ?_
    | with_reducible refine (State.modLink_moves ..).after (by decide) ?_
    | with_reducible refine (State.alkViolation_moves ..).after (by decide) ?_
    | with_reducible refine (State.alkFull_moves ..).after (by decide) ?_
    | with_reducible refine (State.attemptFailed_moves ..).after (by decide) ?_
    | with_reducible refine (Moves.fold _ _ _ ?_).behind ?_
    | intro _
    | split
    | ((conv => arg 3; with_reducible whnf); split))

theorem State.trainPhase_moves (s : State) (x1 : Eng) (x2 : LinkIx) (x3 : TrainPhase) :
    Moves [.out, .links] s (State.trainPhase s x1 x2 x3) := by
  unfold State.trainPhase
  repeat' (first
    | with_reducible exact Moves.refl _ _
    | with_reducible assumption
    | extract_lets
    | with_reducible refine Moves.ite ?_ ?_
    | with_reducible refine (State.sendFrame_moves ..).after (by decide) ?_
    | with_reducible refine (State.modLink_moves ..).after (by decide) ?_
    | with_reducible refine (Moves.fold _ _ _ ?_).behind ?_
    | intro _
    | split
    | ((conv => arg 3; with_reducible whnf); split))

theorem State.retrained_moves (s : State) (x1 : Eng) (x2 : LinkIx) :
    Moves [.trc, .host, .het, .evr, .out] s (State.retrained s x1 x2) := by
  unfold State.retrained
  repeat' (first
    | with_reducible exact Moves.refl _ _
    | with_reducible assumption
    | extract_lets
    | with_reducible refine Moves.ite ?_ ?_
    | with_reducible refine (State.replyWaiting_moves ..).after (by decide) ?_
    | with_reducible refine (Moves.fold _ _ _ ?_).behind ?_
    | intro _
    | split
    | ((conv => arg 3; with_reducible whnf); split))

theorem State.linkUp_moves (s : State) (x1 : Eng) (x2 : LinkIx) :
    Moves [.wsl, .lpe, .trc, .host, .het, .evr, .out, .links, .wr] s (State.linkUp s x1 x2) := by
  unfold State.linkUp
  repeat' (first
    | with_reducible exact Moves.refl _ _
    | with_reducible assumption
    | extract_lets
    | with_reducible refine Moves.ite ?_ ?_
    | with_reducible refine (State.retrained_moves ..).after (by decide) ?_
    | with_reducible refine (State.nextFrame_moves ..).after (by decide) ?_
    | with_reducible refine (State.modLink_moves ..).after (by decide) ?_
    | with_reducible refine (Moves.fold _ _ _ ?_).behind ?_
    | intro _
    | split
    | ((conv => arg 3; with_reducible whnf); split))

theorem State.configAcked_moves (s : State) (x1 : Eng) (x2 : LinkIx) (x3 : Frame) :
    Moves [.wsl, .lpe, .trc, .host, .het, .evr, .out, .links, .wr] s (State.configAcked s x1 x2 x3) := by
  unfold State.configAcked
  repeat' (first
    | with_reducible exact Moves.refl _ _
    | with_reducible assumption
    | extract_lets
    | with_reducible refine Moves.ite ?_ ?_
    | with_reducible refine (State.modLink_moves ..).after (by decide) ?_
    | with_reducible refine (State.trainPhase_moves ..).after (by decide) ?_
    | with_reducible refine (State.linkUp_moves ..).after (by decide) ?_
    | with_reducible refine (State.nextFrame_moves ..).after (by decide) ?_
    | with_reducible refine (Moves.fold _ _ _ ?_).behind ?_
    | intro _
    | split
    | ((conv => arg 3; with_reducible whnf); split))

theorem State.modeAck_moves (s : State) (x1 : Head) (x2 : HeadBlock) :
    Moves [.wsl, .wr] s (State.modeAck s x1 x2) := by
  unfold State.modeAck
  repeat' (first
    | with_reducible exact Moves.refl _ _
    | with_reducible assumption
    | extract_lets
    | with_reducible refine Moves.ite ?_ ?_
    | with_reducible refine (State.releaseSlot_moves ..).after (by decide) ?_
    | with_reducible refine (State.modWr_moves ..).after (by decide) ?_
    | with_reducible refine (Moves.fold _ _ _ ?_).behind ?_
    | intro _
    | split
    | ((conv => arg 3; with_reducible whnf); split))

theorem State.acked_moves (s : State) (x1 : Eng) (x2 : LinkIx) (x3 : Frame) :
    Moves [.wsl, .lpe, .trc, .host, .het, .evr, .out, .links, .wr] s (State.acked s x1 x2 x3) := by
  unfold State.acked
  repeat' (first
    | with_reducible exact Moves.refl _ _
    | with_reducible assumption
    | extract_lets
    | with_reducible refine Moves.ite ?_ ?_
    | with_reducible refine (State.configAcked_moves ..).after (by decide) ?_
    | with_reducible refine (State.modLink_moves ..).after (by decide) ?_
    | with_reducible refine (State.modeAck_moves ..).after (by decide) ?_
    | with_reducible refine (State.nextFrame_moves ..).after (by decide) ?_
    | with_reducible refine (Moves.fold _ _ _ ?_).behind ?_
    | intro _
    | split
    | ((conv => arg 3; with_reducible whnf); split))

theorem execArmAckReceive_moves (x0 : Eng) (x1 : LinkIx) (x2 : BitVec 8) (s : State) {t : State} (h : (execArmAckReceive x0 x1 x2 s) = .next t) :
    Moves [.wsl, .lpe, .trc, .host, .het, .evr, .out, .links, .engSrv, .seq, .wr, .headSrv] s t := by
  unfold execArmAckReceive at h
  repeat' (first | contradiction | (injection h with h; subst h) | split at h)
  all_goals (repeat' (first
    | with_reducible exact Moves.refl _ _
    | with_reducible assumption
    | extract_lets
    | with_reducible refine Moves.ite ?_ ?_
    | with_reducible refine (State.acked_moves ..).after (by decide) ?_
    | with_reducible refine (State.modLink_moves ..).after (by decide) ?_
    | with_reducible refine (State.wrongSeq_moves ..).after (by decide) ?_
    | with_reducible refine (Moves.fold _ _ _ ?_).behind ?_
    | intro _
    | split
    | ((conv => arg 3; with_reducible whnf); split)))

theorem execArmNakReceive_moves (x0 : Eng) (x1 : LinkIx) (x2 : Bool) (x3 : BitVec 8) (s : State) {t : State} (h : (execArmNakReceive x0 x1 x2 x3 s) = .next t) :
    Moves [.wsl, .lpe, .trc, .evr, .out, .links, .engSrv, .seq, .wr, .headSrv] s t := by
  unfold execArmNakReceive at h
  repeat' (first | contradiction | (injection h with h; subst h) | split at h)
  all_goals (repeat' (first
    | with_reducible exact Moves.refl _ _
    | with_reducible assumption
    | extract_lets
    | with_reducible refine Moves.ite ?_ ?_
    | with_reducible refine (State.modLink_moves ..).after (by decide) ?_
    | with_reducible refine (State.wrongSeq_moves ..).after (by decide) ?_
    | with_reducible refine (State.alkFull_moves ..).after (by decide) ?_
    | with_reducible refine (State.attemptFailed_moves ..).after (by decide) ?_
    | with_reducible refine (State.configFailed_moves ..).after (by decide) ?_
    | with_reducible refine (Moves.fold _ _ _ ?_).behind ?_
    | intro _
    | split
    | ((conv => arg 3; with_reducible whnf); split)))

theorem execArmAckTimeout_moves (x0 : Eng) (x1 : LinkIx) (s : State) {t : State} (h : (execArmAckTimeout x0 x1 s) = .next t) :
    Moves [.wsl, .lpe, .trc, .evr, .out, .links, .engSrv, .seq, .wr, .headSrv] s t := by
  unfold execArmAckTimeout at h
  repeat' (first | contradiction | (injection h with h; subst h) | split at h)
  all_goals (repeat' (first
    | with_reducible exact Moves.refl _ _
    | with_reducible assumption
    | extract_lets
    | with_reducible refine Moves.ite ?_ ?_
    | with_reducible refine (State.modLink_moves ..).after (by decide) ?_
    | with_reducible refine (State.alkViolation_moves ..).after (by decide) ?_
    | with_reducible refine (State.alkFull_moves ..).after (by decide) ?_
    | with_reducible refine (State.attemptFailed_moves ..).after (by decide) ?_
    | with_reducible refine (Moves.fold _ _ _ ?_).behind ?_
    | intro _
    | split
    | ((conv => arg 3; with_reducible whnf); split)))

theorem State.assistTrip_moves (s : State) (x1 : Head) :
    Moves [.free, .trc, .media, .host, .q, .evr, .nor, .out, .links, .engSrv, .seq, .zdc, .wr, .headSrv] s (State.assistTrip s x1) := by
  unfold State.assistTrip
  repeat' (first
    | with_reducible exact Moves.refl _ _
    | with_reducible assumption
    | extract_lets
    | with_reducible refine Moves.ite ?_ ?_
    | with_reducible refine (State.forceWriteOff_moves ..).after (by decide) ?_
    | with_reducible refine (State.modWr_moves ..).after (by decide) ?_
    | with_reducible refine (State.saturated_moves ..).after (by decide) ?_
    | with_reducible refine (State.writeDisable_moves ..).after (by decide) ?_
    | with_reducible refine (Moves.fold _ _ _ ?_).behind ?_
    | intro _
    | split
    | ((conv => arg 3; with_reducible whnf); split))

theorem State.assistGuard_moves (s : State) (x1 : Head) (x2 : Byte) (x3 : Nat) :
    Moves [.free, .trc, .media, .host, .q, .evr, .nor, .out, .links, .engSrv, .seq, .zdc, .wr, .headSrv] s (State.assistGuard s x1 x2 x3) := by
  unfold State.assistGuard
  repeat' (first
    | with_reducible exact Moves.refl _ _
    | with_reducible assumption
    | extract_lets
    | with_reducible refine Moves.ite ?_ ?_
    | with_reducible refine (State.modWr_moves ..).after (by decide) ?_
    | with_reducible refine (State.assistTrip_moves ..).after (by decide) ?_
    | with_reducible refine (Moves.fold _ _ _ ?_).behind ?_
    | intro _
    | split
    | ((conv => arg 3; with_reducible whnf); split))

theorem State.assistLost_moves (s : State) (x1 : Head) :
    Moves [.free, .trc, .media, .host, .q, .evr, .nor, .out, .links, .engSrv, .seq, .zdc, .wr, .headSrv] s (State.assistLost s x1) := by
  unfold State.assistLost
  repeat' (first
    | with_reducible exact Moves.refl _ _
    | with_reducible assumption
    | extract_lets
    | with_reducible refine Moves.ite ?_ ?_
    | with_reducible refine (State.assistTrip_moves ..).after (by decide) ?_
    | with_reducible refine (State.modWr_moves ..).after (by decide) ?_
    | with_reducible refine (Moves.fold _ _ _ ?_).behind ?_
    | intro _
    | split
    | ((conv => arg 3; with_reducible whnf); split))

theorem State.statusGood_moves (s : State) (x1 : Eng) (x2 : LinkIx) (x3 : StatusFrame) :
    Moves [.free, .trc, .media, .host, .q, .evr, .nor, .out, .links, .engSrv, .seq, .zdc, .wr, .headSrv] s (State.statusGood s x1 x2 x3) := by
  unfold State.statusGood
  repeat' (first
    | with_reducible exact Moves.refl _ _
    | with_reducible assumption
    | extract_lets
    | with_reducible refine Moves.ite ?_ ?_
    | with_reducible refine (State.modLink_moves ..).after (by decide) ?_
    | with_reducible refine (State.assistGuard_moves ..).after (by decide) ?_
    | with_reducible refine (Moves.fold _ _ _ ?_).behind ?_
    | intro _
    | split
    | ((conv => arg 3; with_reducible whnf); split))

theorem State.symErrors_moves (s : State) (x1 : Eng) (x2 : LinkIx) (x3 : Nat) :
    Moves [.trc, .evr, .links] s (State.symErrors s x1 x2 x3) := by
  unfold State.symErrors
  repeat' (first
    | with_reducible exact Moves.refl _ _
    | with_reducible assumption
    | extract_lets
    | with_reducible refine Moves.ite ?_ ?_
    | with_reducible refine (State.modLink_moves ..).after (by decide) ?_
    | with_reducible refine (State.alkViolation_moves ..).after (by decide) ?_
    | with_reducible refine (State.saturated_moves ..).after (by decide) ?_
    | with_reducible refine (Moves.fold _ _ _ ?_).behind ?_
    | intro _
    | split
    | ((conv => arg 3; with_reducible whnf); split))

theorem State.crcBad_moves (s : State) (x1 : Eng) (x2 : LinkIx) (x3 : List Word) :
    Moves [.trc, .evr, .links] s (State.crcBad s x1 x2 x3) := by
  unfold State.crcBad
  repeat' (first
    | with_reducible exact Moves.refl _ _
    | with_reducible assumption
    | extract_lets
    | with_reducible refine Moves.ite ?_ ?_
    | with_reducible refine (State.alkViolation_moves ..).after (by decide) ?_
    | with_reducible refine (State.alkFull_moves ..).after (by decide) ?_
    | with_reducible refine (State.modLink_moves ..).after (by decide) ?_
    | with_reducible refine (Moves.fold _ _ _ ?_).behind ?_
    | intro _
    | split
    | ((conv => arg 3; with_reducible whnf); split))

theorem execArmStatusFrame_moves (x0 : Eng) (x1 : LinkIx) (x2 : StatusFrame) (s : State) {t : State} (h : (execArmStatusFrame x0 x1 x2 s) = .next t) :
    Moves [.free, .trc, .media, .host, .q, .evr, .nor, .out, .links, .engSrv, .seq, .zdc, .wr, .headSrv] s t := by
  unfold execArmStatusFrame at h
  repeat' (first | contradiction | (injection h with h; subst h) | split at h)
  all_goals (repeat' (first
    | with_reducible exact Moves.refl _ _
    | with_reducible assumption
    | extract_lets
    | with_reducible refine Moves.ite ?_ ?_
    | with_reducible refine (State.symErrors_moves ..).after (by decide) ?_
    | with_reducible refine (State.statusGood_moves ..).after (by decide) ?_
    | with_reducible refine (State.assistLost_moves ..).after (by decide) ?_
    | with_reducible refine (State.crcBad_moves ..).after (by decide) ?_
    | with_reducible refine (Moves.fold _ _ _ ?_).behind ?_
    | intro _
    | split
    | ((conv => arg 3; with_reducible whnf); split)))

theorem execAfeFaultStrobe_moves (x0 : Eng) (x1 : LinkIx) (x2 : BitVec 6) (s : State) {t : State} (h : (execAfeFaultStrobe x0 x1 x2 s) = .next t) :
    Moves [.trc, .evr, .links, .engSrv, .seq, .wr, .headSrv] s t := by
  unfold execAfeFaultStrobe at h
  repeat' (first | contradiction | (injection h with h; subst h) | split at h)
  all_goals (repeat' (first
    | with_reducible exact Moves.refl _ _
    | with_reducible assumption
    | extract_lets
    | with_reducible refine Moves.ite ?_ ?_
    | with_reducible refine (State.forceWritesOff_moves ..).after (by decide) ?_
    | with_reducible refine (State.modLink_moves ..).after (by decide) ?_
    | with_reducible refine (State.alkFull_moves ..).after (by decide) ?_
    | with_reducible refine (Moves.fold _ _ _ ?_).behind ?_
    | intro _
    | split
    | ((conv => arg 3; with_reducible whnf); split)))

theorem execAuxSlotRequest_moves (x0 : Eng) (x1 : LinkIx) (x2 : AuxReq) (s : State) {t : State} (h : (execAuxSlotRequest x0 x1 x2 s) = .next t) :
    Moves [.links] s t := by
  unfold execAuxSlotRequest at h
  repeat' (first | contradiction | (injection h with h; subst h) | split at h)
  all_goals (repeat' (first
    | with_reducible exact Moves.refl _ _
    | with_reducible assumption
    | extract_lets
    | with_reducible refine Moves.ite ?_ ?_
    | with_reducible refine (State.modLink_moves ..).after (by decide) ?_
    | with_reducible refine (Moves.fold _ _ _ ?_).behind ?_
    | intro _
    | split
    | ((conv => arg 3; with_reducible whnf); split)))

theorem execConfigFrameSend_moves (x0 : Eng) (x1 : LinkIx) (x2 : CfgFrame) (s : State) {t : State} (h : (execConfigFrameSend x0 x1 x2 s) = .next t) :
    Moves [.wsl, .lpe, .out, .links, .wr] s t := by
  unfold execConfigFrameSend at h
  repeat' (first | contradiction | (injection h with h; subst h) | split at h)
  all_goals (repeat' (first
    | with_reducible exact Moves.refl _ _
    | with_reducible assumption
    | extract_lets
    | with_reducible refine Moves.ite ?_ ?_
    | with_reducible refine (State.queueConfig_moves ..).after (by decide) ?_
    | with_reducible refine (Moves.fold _ _ _ ?_).behind ?_
    | intro _
    | split
    | ((conv => arg 3; with_reducible whnf); split)))

theorem execArmConfigReply_moves (x0 : Eng) (x1 : LinkIx) (x2 : ConfigReply) (x3 : BitVec 16) (s : State) {t : State} (h : (execArmConfigReply x0 x1 x2 x3 s) = .next t) :
    Moves [.trc, .evr, .links] s t := by
  unfold execArmConfigReply at h
  repeat' (first | contradiction | (injection h with h; subst h) | split at h)
  all_goals (repeat' (first
    | with_reducible exact Moves.refl _ _
    | with_reducible assumption
    | extract_lets
    | with_reducible refine Moves.ite ?_ ?_
    | with_reducible refine (State.modLink_moves ..).after (by decide) ?_
    | with_reducible refine (State.crcBad_moves ..).after (by decide) ?_
    | with_reducible refine (Moves.fold _ _ _ ?_).behind ?_
    | intro _
    | split
    | ((conv => arg 3; with_reducible whnf); split)))

theorem State.trainFailed_moves (s : State) (x1 : Eng) (x2 : LinkIx) (x3 : LinkState) :
    Moves [.free, .slice, .lane, .pool, .wsl, .lpe, .trc, .media, .host, .q, .het, .pwr, .sec, .evr, .nor, .out, .links, .recv, .engSrv, .seq, .zdc, .rd, .det, .wr, .headSrv, .map, .freq] s (State.trainFailed s x1 x2 x3) := by
  unfold State.trainFailed
  repeat' (first
    | with_reducible exact Moves.refl _ _
    | with_reducible assumption
    | extract_lets
    | with_reducible refine Moves.ite ?_ ?_
    | with_reducible refine (State.modLink_moves ..).after (by decide) ?_
    | with_reducible refine (State.headFail_moves ..).after (by decide) ?_
    | with_reducible refine (State.retrained_moves ..).after (by decide) ?_
    | with_reducible refine (Moves.fold _ _ _ ?_).behind ?_
    | intro _
    | split
    | ((conv => arg 3; with_reducible whnf); split))

theorem execArmLinkDown_moves (x0 : Eng) (x1 : LinkIx) (x2 : LinkDownCause) (s : State) {t : State} (h : (execArmLinkDown x0 x1 x2 s) = .next t) :
    Moves [.free, .slice, .lane, .pool, .wsl, .lpe, .trc, .media, .host, .q, .het, .pwr, .sec, .evr, .nor, .out, .links, .recv, .engSrv, .seq, .zdc, .rd, .det, .wr, .headSrv, .map, .freq] s t := by
  unfold execArmLinkDown at h
  repeat' (first | contradiction | (injection h with h; subst h) | split at h)
  all_goals (repeat' (first
    | with_reducible exact Moves.refl _ _
    | with_reducible assumption
    | extract_lets
    | with_reducible refine Moves.ite ?_ ?_
    | with_reducible refine (State.forceWritesOff_moves ..).after (by decide) ?_
    | with_reducible refine (State.modLink_moves ..).after (by decide) ?_
    | with_reducible refine (State.symErrors_moves ..).after (by decide) ?_
    | with_reducible refine (State.condLink_moves ..).after (by decide) ?_
    | with_reducible refine (State.deactivate_moves ..).after (by decide) ?_
    | with_reducible refine (State.modWr_moves ..).after (by decide) ?_
    | with_reducible refine (State.releaseSlot_moves ..).after (by decide) ?_
    | with_reducible refine (State.trainFailed_moves ..).after (by decide) ?_
    | with_reducible refine (Moves.fold _ _ _ ?_).behind ?_
    | intro _
    | split
    | ((conv => arg 3; with_reducible whnf); split)))

theorem execArmTrainAttempt_moves (x0 : Eng) (x1 : LinkIx) (s : State) {t : State} (h : (execArmTrainAttempt x0 x1 s) = .next t) :
    Moves [.trc, .evr, .links] s t := by
  unfold execArmTrainAttempt at h
  repeat' (first | contradiction | (injection h with h; subst h) | split at h)
  all_goals (repeat' (first
    | with_reducible exact Moves.refl _ _
    | with_reducible assumption
    | extract_lets
    | with_reducible refine Moves.ite ?_ ?_
    | with_reducible refine (State.modLink_moves ..).after (by decide) ?_
    | with_reducible refine (State.alkFull_moves ..).after (by decide) ?_
    | with_reducible refine (Moves.fold _ _ _ ?_).behind ?_
    | intro _
    | split
    | ((conv => arg 3; with_reducible whnf); split)))

theorem execAfeCommaAlignment_moves (x0 : Eng) (x1 : LinkIx) (s : State) {t : State} (h : (execAfeCommaAlignment x0 x1 s) = .next t) :
    Moves [.out, .links] s t := by
  unfold execAfeCommaAlignment at h
  repeat' (first | contradiction | (injection h with h; subst h) | split at h)
  all_goals (repeat' (first
    | with_reducible exact Moves.refl _ _
    | with_reducible assumption
    | extract_lets
    | with_reducible refine Moves.ite ?_ ?_
    | with_reducible refine (State.trainPhase_moves ..).after (by decide) ?_
    | with_reducible refine (State.modLink_moves ..).after (by decide) ?_
    | with_reducible refine (Moves.fold _ _ _ ?_).behind ?_
    | intro _
    | split
    | ((conv => arg 3; with_reducible whnf); split)))

theorem execArmTrainTimeout_moves (x0 : Eng) (x1 : LinkIx) (s : State) {t : State} (h : (execArmTrainTimeout x0 x1 s) = .next t) :
    Moves [.free, .slice, .lane, .pool, .wsl, .lpe, .trc, .media, .host, .q, .het, .pwr, .sec, .evr, .nor, .out, .links, .recv, .engSrv, .seq, .zdc, .rd, .det, .wr, .headSrv, .map, .freq] s t := by
  unfold execArmTrainTimeout at h
  repeat' (first | contradiction | (injection h with h; subst h) | split at h)
  all_goals (repeat' (first
    | with_reducible exact Moves.refl _ _
    | with_reducible assumption
    | extract_lets
    | with_reducible refine Moves.ite ?_ ?_
    | with_reducible refine (State.trainFailed_moves ..).after (by decide) ?_
    | with_reducible refine (Moves.fold _ _ _ ?_).behind ?_
    | intro _
    | split
    | ((conv => arg 3; with_reducible whnf); split)))

theorem execArmStatus_moves (x0 : Packet) (s : State) {t : State} (h : (execArmStatus x0 s) = .next t) :
    Moves [.trc, .host, .het, .evr, .out] s t := by
  unfold execArmStatus at h
  repeat' (first | contradiction | (injection h with h; subst h) | split at h)
  all_goals (repeat' (first
    | with_reducible exact Moves.refl _ _
    | with_reducible assumption
    | extract_lets
    | with_reducible refine Moves.ite ?_ ?_
    | with_reducible refine Moves.itePkt ?_ ?_
    | with_reducible refine runPacket_moves (by decide) (fun s => ?_)
    | with_reducible refine (Moves.fold _ _ _ ?_).behind ?_
    | intro _
    | split
    | ((conv => arg 3; with_reducible whnf); split)))

theorem opArmClear_moves (x0 : Packet) (s : State) :
    Moves [.links] s (opArmClear x0 s).state := by
  unfold opArmClear
  repeat' (first
    | with_reducible exact Moves.refl _ _
    | with_reducible assumption
    | extract_lets
    | with_reducible refine Moves.ite ?_ ?_
    | with_reducible refine Moves.itePkt ?_ ?_
    | with_reducible refine (State.modLink_moves ..).after (by decide) ?_
    | with_reducible refine (Moves.fold _ _ _ ?_).behind ?_
    | intro _
    | split
    | ((conv => arg 3; with_reducible whnf); split))

theorem execArmClear_moves (x0 : Packet) (s : State) {t : State} (h : (execArmClear x0 s) = .next t) :
    Moves [.trc, .host, .het, .evr, .out, .links] s t := by
  unfold execArmClear at h
  repeat' (first | contradiction | (injection h with h; subst h) | split at h)
  all_goals (repeat' (first
    | with_reducible exact Moves.refl _ _
    | with_reducible assumption
    | extract_lets
    | with_reducible refine Moves.ite ?_ ?_
    | with_reducible refine Moves.itePkt ?_ ?_
    | with_reducible refine (opArmClear_moves ..).after (by decide) ?_
    | with_reducible refine runPacket_moves (by decide) (fun s => ?_)
    | with_reducible refine (Moves.fold _ _ _ ?_).behind ?_
    | intro _
    | split
    | ((conv => arg 3; with_reducible whnf); split)))

theorem opArmConfig_moves (x0 : Packet) (s : State) :
    Moves [.wsl, .lpe, .nor, .out, .links, .wr] s (opArmConfig x0 s).state := by
  unfold opArmConfig
  repeat' (first
    | with_reducible exact Moves.refl _ _
    | with_reducible assumption
    | extract_lets
    | with_reducible refine Moves.ite ?_ ?_
    | with_reducible refine Moves.itePkt ?_ ?_
    | with_reducible refine (State.queueConfig_moves ..).after (by decide) ?_
    | with_reducible refine (State.modNor_moves _ _ (by intro n; repeat' (first | rfl | extract_lets | split))).after (by decide) ?_
    | with_reducible refine (State.modLink_moves ..).after (by decide) ?_
    | with_reducible refine (Moves.fold _ _ _ ?_).behind ?_
    | intro _
    | split
    | ((conv => arg 3; with_reducible whnf); split))

theorem execArmConfig_moves (x0 : Packet) (s : State) {t : State} (h : (execArmConfig x0 s) = .next t) :
    Moves [.wsl, .lpe, .trc, .host, .het, .evr, .nor, .out, .links, .wr] s t := by
  unfold execArmConfig at h
  repeat' (first | contradiction | (injection h with h; subst h) | split at h)
  all_goals (repeat' (first
    | with_reducible exact Moves.refl _ _
    | with_reducible assumption
    | extract_lets
    | with_reducible refine Moves.ite ?_ ?_
    | with_reducible refine Moves.itePkt ?_ ?_
    | with_reducible refine (opArmConfig_moves ..).after (by decide) ?_
    | with_reducible refine runPacket_moves (by decide) (fun s => ?_)
    | with_reducible refine (Moves.fold _ _ _ ?_).behind ?_
    | intro _
    | split
    | ((conv => arg 3; with_reducible whnf); split)))

theorem opArmRetrain_moves (x0 : Packet) (s : State) :
    Moves [.links] s (opArmRetrain x0 s).state := by
  unfold opArmRetrain
  repeat' (first
    | with_reducible exact Moves.refl _ _
    | with_reducible assumption
    | extract_lets
    | with_reducible refine Moves.ite ?_ ?_
    | with_reducible refine Moves.itePkt ?_ ?_
    | with_reducible refine (State.modLink_moves ..).after (by decide) ?_
    | with_reducible refine (Moves.fold _ _ _ ?_).behind ?_
    | intro _
    | split
    | ((conv => arg 3; with_reducible whnf); split))

theorem execArmRetrain_moves (x0 : Packet) (s : State) {t : State} (h : (execArmRetrain x0 s) = .next t) :
    Moves [.trc, .host, .het, .evr, .out, .links] s t := by
  unfold execArmRetrain at h
  repeat' (first | contradiction | (injection h with h; subst h) | split at h)
  all_goals (repeat' (first
    | with_reducible exact Moves.refl _ _
    | with_reducible assumption
    | extract_lets
    | with_reducible refine Moves.ite ?_ ?_
    | with_reducible refine Moves.itePkt ?_ ?_
    | with_reducible refine (opArmRetrain_moves ..).after (by decide) ?_
    | with_reducible refine runPacket_moves (by decide) (fun s => ?_)
    | with_reducible refine (Moves.fold _ _ _ ?_).behind ?_
    | intro _
    | split
    | ((conv => arg 3; with_reducible whnf); split)))

end Sys2Proof.Machine
end

