-- ==== Sys2Proof/Laws/MovesStream.lean ====
section
/-! SUPPORT. What each operation of Machine/Stream.lean can touch. -/

namespace Sys2Proof.Machine
open Sys2Proof

set_option linter.all false
set_option Elab.async false

theorem State.modCodeword_moves (s : State) (x1 : Head) (x2 : Slot → Slot) :
    Moves [.lane] s (State.modCodeword s x1 x2) := by
  unfold State.modCodeword
  repeat' (first
    | with_reducible exact Moves.refl _ _
    | with_reducible assumption
    | extract_lets
    | with_reducible refine Moves.ite ?_ ?_
    | with_reducible refine (State.modLane_moves ..).after (by decide) ?_
    | with_reducible refine (Moves.fold _ _ _ ?_).behind ?_
    | intro _
    | split
    | ((conv => arg 3; with_reducible whnf); split))

theorem State.decideSync_moves (s : State) (x1 : LaneIx) :
    Moves [.lane, .trc, .evr] s (State.decideSync s x1) := by
  unfold State.decideSync
  repeat' (first
    | with_reducible exact Moves.refl _ _
    | with_reducible assumption
    | extract_lets
    | with_reducible refine Moves.ite ?_ ?_
    | with_reducible refine (State.modLane_moves ..).after (by decide) ?_
    | with_reducible refine (State.saturated_moves ..).after (by decide) ?_
    | with_reducible refine (Moves.fold _ _ _ ?_).behind ?_
    | intro _
    | split
    | ((conv => arg 3; with_reducible whnf); split))

theorem State.laneBit_moves (s : State) (x1 : Head) (x2 : LaneIx) :
    Moves [.lane, .trc, .evr, .det] s (State.laneBit s x1 x2) := by
  unfold State.laneBit
  repeat' (first
    | with_reducible exact Moves.refl _ _
    | with_reducible assumption
    | extract_lets
    | with_reducible refine Moves.ite ?_ ?_
    | with_reducible refine (State.decideSync_moves ..).after (by decide) ?_
    | with_reducible refine (State.modLane_moves ..).after (by decide) ?_
    | with_reducible refine (State.modDet_moves ..).after (by decide) ?_
    | with_reducible refine (Moves.fold _ _ _ ?_).behind ?_
    | intro _
    | split
    | ((conv => arg 3; with_reducible whnf); split))

theorem State.laneBits_moves (s : State) (x1 : Head) (x2 : LaneIx) (x3 : Nat) (n : Nat) :
    Moves [.lane, .trc, .evr, .det] s (State.laneBits s x1 x2 x3 n) := by
  induction n generalizing s with
  | zero => exact .refl _ s
  | succ n ih =>
    unfold State.laneBits
    split
    · exact .refl _ s
    · split
      · exact (State.laneBit_moves ..).trans (ih _)
      · exact .refl _ s

theorem State.captureWord_moves (s : State) (x1 : SliceIx) (x2 : Nat) (x3 : List Byte) :
    Moves [.recv] s (State.captureWord s x1 x2 x3) := by
  unfold State.captureWord
  repeat' (first
    | with_reducible exact Moves.refl _ _
    | with_reducible assumption
    | extract_lets
    | with_reducible refine Moves.ite ?_ ?_
    | with_reducible refine (State.modRec_moves ..).after (by decide) ?_
    | with_reducible refine (Moves.fold _ _ _ ?_).behind ?_
    | intro _
    | split
    | ((conv => arg 3; with_reducible whnf); split))

theorem State.demodWord_moves (s : State) (x1 : SliceIx) :
    Moves [.slice] s (State.demodWord s x1) := by
  unfold State.demodWord
  repeat' (first
    | with_reducible exact Moves.refl _ _
    | with_reducible assumption
    | extract_lets
    | with_reducible refine Moves.ite ?_ ?_
    | with_reducible refine (State.modSlice_moves ..).after (by decide) ?_
    | with_reducible refine (Moves.fold _ _ _ ?_).behind ?_
    | intro _
    | split
    | ((conv => arg 3; with_reducible whnf); split))

theorem State.popSlice_moves (s : State) (x1 : SliceIx) :
    Moves [.slice, .trc, .evr, .recv] s (State.popSlice s x1) := by
  unfold State.popSlice
  repeat' (first
    | with_reducible exact Moves.refl _ _
    | with_reducible assumption
    | extract_lets
    | with_reducible refine Moves.ite ?_ ?_
    | with_reducible refine (State.modSlice_moves ..).after (by decide) ?_
    | with_reducible refine (State.demodWord_moves ..).after (by decide) ?_
    | with_reducible refine (State.captureWord_moves ..).after (by decide) ?_
    | with_reducible refine (State.saturated_moves ..).after (by decide) ?_
    | with_reducible refine (Moves.fold _ _ _ ?_).behind ?_
    | intro _
    | split
    | ((conv => arg 3; with_reducible whnf); split))

theorem State.pullWord_moves (s : State) (x1 : SliceIx) :
    Moves [.slice, .trc, .evr, .recv] s (State.pullWord s x1) := by
  unfold State.pullWord
  repeat' (first
    | with_reducible exact Moves.refl _ _
    | with_reducible assumption
    | extract_lets
    | with_reducible refine Moves.ite ?_ ?_
    | with_reducible refine (State.modSlice_moves ..).after (by decide) ?_
    | with_reducible refine (State.popSlice_moves ..).after (by decide) ?_
    | with_reducible refine (Moves.fold _ _ _ ?_).behind ?_
    | intro _
    | split
    | ((conv => arg 3; with_reducible whnf); split))

theorem State.sliceBit_moves (s : State) (x1 : SliceIx) :
    Moves [.slice, .lane, .trc, .evr, .det, .freq] s (State.sliceBit s x1) := by
  unfold State.sliceBit
  repeat' (first
    | with_reducible exact Moves.refl _ _
    | with_reducible assumption
    | extract_lets
    | with_reducible refine Moves.ite ?_ ?_
    | with_reducible refine (State.modSlice_moves ..).after (by decide) ?_
    | with_reducible refine (State.modHead_moves _ _ _ _ (by first | exact .inl (by decide) | exact .inr fun _ => rfl) (by first | exact .inl (by decide) | exact .inr fun _ => rfl) (by first | exact .inl (by decide) | exact .inr fun _ => rfl) (by first | exact .inl (by decide) | exact .inr fun _ => rfl) (by first | exact .inl (by decide) | exact .inr fun _ => rfl) (by first | exact .inl (by decide) | exact .inr fun _ => rfl)).behind ?_
    | with_reducible refine (State.saturated_moves ..).after (by decide) ?_
    | with_reducible refine (State.modLane_moves ..).after (by decide) ?_
    | with_reducible refine (State.laneBits_moves ..).after (by decide) ?_
    | with_reducible refine (Moves.fold _ _ _ ?_).behind ?_
    | intro _
    | split
    | ((conv => arg 3; with_reducible whnf); split))

theorem State.bitsTo_moves (s : State) (x1 : SliceIx) (x2 : Int) (x3 : Bool) (n : Nat) :
    Moves [.slice, .lane, .trc, .evr, .recv, .det, .freq] s (State.bitsTo s x1 x2 x3 n) := by
  induction n generalizing s with
  | zero => exact .refl _ s
  | succ n ih =>
    unfold State.bitsTo
    extract_lets x
    split
    · split
      · exact ((State.sliceBit_moves ..).widen (by decide)).trans (ih _)
      · split
        · exact ((State.pullWord_moves ..).widen (by decide)).trans (ih _)
        · exact .refl _ s
    · exact .refl _ s

theorem State.catchUp_moves (s : State) (x1 : SliceIx) :
    Moves [.slice, .lane, .trc, .evr, .recv, .det, .freq] s (State.catchUp s x1) := by
  unfold State.catchUp
  repeat' (first
    | with_reducible exact Moves.refl _ _
    | with_reducible assumption
    | extract_lets
    | with_reducible refine Moves.ite ?_ ?_
    | with_reducible refine (State.modSlice_moves ..).after (by decide) ?_
    | with_reducible refine (State.bitsTo_moves ..).after (by decide) ?_
    | with_reducible refine (Moves.fold _ _ _ ?_).behind ?_
    | intro _
    | split
    | ((conv => arg 3; with_reducible whnf); split))

theorem State.writeSide_moves (s : State) (x1 : SliceIx) :
    Moves [.slice, .trc, .evr] s (State.writeSide s x1) := by
  unfold State.writeSide
  repeat' (first
    | with_reducible exact Moves.refl _ _
    | with_reducible assumption
    | extract_lets
    | with_reducible refine Moves.ite ?_ ?_
    | with_reducible refine (State.modSlice_moves ..).after (by decide) ?_
    | with_reducible refine (State.saturated_moves ..).after (by decide) ?_
    | with_reducible refine (Moves.fold _ _ _ ?_).behind ?_
    | intro _
    | split
    | ((conv => arg 3; with_reducible whnf); split))

theorem State.popClock_moves (s : State) (x1 : SliceIx) :
    Moves [.slice, .trc, .evr, .recv] s (State.popClock s x1) := by
  unfold State.popClock
  repeat' (first
    | with_reducible exact Moves.refl _ _
    | with_reducible assumption
    | extract_lets
    | with_reducible refine Moves.ite ?_ ?_
    | with_reducible refine (State.modSlice_moves ..).after (by decide) ?_
    | with_reducible refine (State.popSlice_moves ..).after (by decide) ?_
    | with_reducible refine (Moves.fold _ _ _ ?_).behind ?_
    | intro _
    | split
    | ((conv => arg 3; with_reducible whnf); split))

theorem State.sliceClock_moves (s : State) (x1 : SliceIx) :
    Moves [.slice, .lane, .trc, .evr, .recv, .det, .freq] s (State.sliceClock s x1) := by
  unfold State.sliceClock
  repeat' (first
    | with_reducible exact Moves.refl _ _
    | with_reducible assumption
    | extract_lets
    | with_reducible refine Moves.ite ?_ ?_
    | with_reducible refine (State.modSlice_moves ..).after (by decide) ?_
    | with_reducible refine (State.writeSide_moves ..).after (by decide) ?_
    | with_reducible refine (State.popClock_moves ..).after (by decide) ?_
    | with_reducible refine (State.bitsTo_moves ..).after (by decide) ?_
    | with_reducible refine (Moves.fold _ _ _ ?_).behind ?_
    | intro _
    | split
    | ((conv => arg 3; with_reducible whnf); split))

end Sys2Proof.Machine
end

