-- ==== Sys2Proof/Laws/MovesSlice.lean ====
section
/-! SUPPORT. What each operation and each command of Machine/Slice.lean can touch. -/

namespace Sys2Proof.Machine
open Sys2Proof
set_option linter.all false
set_option Elab.async false

theorem State.stopSlot_moves (s : State) (x1 : LaneIx) (x2 : SlotIx) (x3 : CwOutcome) :
    Moves [.lane] s (State.stopSlot s x1 x2 x3) := by
  unfold State.stopSlot
  repeat' (first
    | with_reducible exact Moves.refl _ _
    | with_reducible assumption
    | extract_lets
    | with_reducible refine Moves.ite ?_ ?_
    | with_reducible refine (State.modSlot_moves ..).after (by decide) ?_
    | with_reducible refine (Moves.fold _ _ _ ?_).behind ?_
    | intro _
    | split
    | ((conv => arg 3; with_reducible whnf); split))

theorem State.reclaimSlot_moves (s : State) (x1 : LaneIx) (x2 : SlotIx) :
    Moves [.lane, .pool, .trc, .pwr, .evr, .recv] s (State.reclaimSlot s x1 x2) := by
  unfold State.reclaimSlot
  repeat' (first
    | with_reducible exact Moves.refl _ _
    | with_reducible assumption
    | extract_lets
    | with_reducible refine Moves.ite ?_ ?_
    | with_reducible refine (State.modSlot_moves ..).after (by decide) ?_
    | with_reducible refine (State.endCodeword_moves ..).after (by decide) ?_
    | with_reducible refine (State.stopSlot_moves ..).after (by decide) ?_
    | with_reducible refine (Moves.fold _ _ _ ?_).behind ?_
    | intro _
    | split
    | ((conv => arg 3; with_reducible whnf); split))

theorem State.noSlot_moves (s : State) (x1 : LaneIx) (x2 : Slot) :
    Moves [.lane, .trc, .evr] s (State.noSlot s x1 x2) := by
  unfold State.noSlot
  repeat' (first
    | with_reducible exact Moves.refl _ _
    | with_reducible assumption
    | extract_lets
    | with_reducible refine Moves.ite ?_ ?_
    | with_reducible refine (State.modLane_moves ..).after (by decide) ?_
    | with_reducible refine (State.countCodeword_moves ..).after (by decide) ?_
    | with_reducible refine (Moves.fold _ _ _ ?_).behind ?_
    | intro _
    | split
    | ((conv => arg 3; with_reducible whnf); split))

theorem State.takeSlot_moves (s : State) (x1 : Head) (x2 : LaneIx) (x3 : Slot) :
    Moves [.slice, .lane, .pool, .trc, .pwr, .evr, .recv] s (State.takeSlot s x1 x2 x3) := by
  unfold State.takeSlot
  repeat' (first
    | with_reducible exact Moves.refl _ _
    | with_reducible assumption
    | extract_lets
    | with_reducible refine Moves.ite ?_ ?_
    | with_reducible refine (State.modSlot_moves ..).after (by decide) ?_
    | with_reducible refine (State.modLane_moves ..).after (by decide) ?_
    | with_reducible refine (State.reclaimSlot_moves ..).after (by decide) ?_
    | with_reducible refine (State.noSlot_moves ..).after (by decide) ?_
    | with_reducible refine (State.modSlice_moves ..).after (by decide) ?_
    | with_reducible refine (Moves.fold _ _ _ ?_).behind ?_
    | intro _
    | split
    | ((conv => arg 3; with_reducible whnf); split))

theorem State.openPacket_moves (s : State) (x1 : SliceIx) (x2 : Int) (x3 : Nat) :
    Moves [.slice, .freq] s (State.openPacket s x1 x2 x3) := by
  unfold State.openPacket
  repeat' (first
    | with_reducible exact Moves.refl _ _
    | with_reducible assumption
    | extract_lets
    | with_reducible refine Moves.ite ?_ ?_
    | with_reducible refine (State.modSlice_moves ..).after (by decide) ?_
    | with_reducible refine (State.modHead_moves _ _ _ _ (by first | exact .inl (by decide) | exact .inr fun _ => rfl) (by first | exact .inl (by decide) | exact .inr fun _ => rfl) (by first | exact .inl (by decide) | exact .inr fun _ => rfl) (by first | exact .inl (by decide) | exact .inr fun _ => rfl) (by first | exact .inl (by decide) | exact .inr fun _ => rfl) (by first | exact .inl (by decide) | exact .inr fun _ => rfl)).behind ?_
    | with_reducible refine (Moves.fold _ _ _ ?_).behind ?_
    | intro _
    | split
    | ((conv => arg 3; with_reducible whnf); split))

theorem State.padPacket_moves (s : State) (x1 : SliceIx) (x2 : Nat) :
    Moves [.lane] s (State.padPacket s x1 x2) := by
  unfold State.padPacket
  repeat' (first
    | with_reducible exact Moves.refl _ _
    | with_reducible assumption
    | extract_lets
    | with_reducible refine Moves.ite ?_ ?_
    | with_reducible refine (State.modCodeword_moves ..).after (by decide) ?_
    | with_reducible refine (Moves.fold _ _ _ ?_).behind ?_
    | intro _
    | split
    | ((conv => arg 3; with_reducible whnf); split))

theorem State.resume_moves (s : State) (x1 : SliceIx) :
    Moves [.slice, .lane, .trc, .evr, .recv, .det, .freq] s (State.resume s x1) := by
  unfold State.resume
  repeat' (first
    | with_reducible exact Moves.refl _ _
    | with_reducible assumption
    | extract_lets
    | with_reducible refine Moves.ite ?_ ?_
    | with_reducible refine (State.catchUp_moves ..).after (by decide) ?_
    | with_reducible refine (State.modCodeword_moves ..).after (by decide) ?_
    | with_reducible refine (State.modSlice_moves ..).after (by decide) ?_
    | with_reducible refine (Moves.fold _ _ _ ?_).behind ?_
    | intro _
    | split
    | ((conv => arg 3; with_reducible whnf); split))

theorem execSliceEnable_moves (x0 : SliceIx) (s : State) {t : State} (h : (execSliceEnable x0 s) = .next t) :
    Moves [.slice, .pwr] s t := by
  unfold execSliceEnable at h
  repeat' (first | contradiction | (injection h with h; subst h) | split at h)
  all_goals (repeat' (first
    | with_reducible exact Moves.refl _ _
    | with_reducible assumption
    | extract_lets
    | with_reducible refine Moves.ite ?_ ?_
    | with_reducible refine (State.modSlice_moves ..).after (by decide) ?_
    | with_reducible refine (State.modHpw_moves ..).after (by decide) ?_
    | with_reducible refine (Moves.fold _ _ _ ?_).behind ?_
    | intro _
    | split
    | ((conv => arg 3; with_reducible whnf); split)))

theorem State.sliceRestarted_moves (s : State) (x1 : SliceIx) :
    Moves [.trc, .host, .het, .evr, .out] s (State.sliceRestarted s x1) := by
  unfold State.sliceRestarted
  repeat' (first
    | with_reducible exact Moves.refl _ _
    | with_reducible assumption
    | extract_lets
    | with_reducible refine Moves.ite ?_ ?_
    | with_reducible refine (State.replyWaiting_moves ..).after (by decide) ?_
    | with_reducible refine (Moves.fold _ _ _ ?_).behind ?_
    | intro _
    | split
    | ((conv => arg 3; with_reducible whnf); split))

theorem State.openLate_moves (s : State) (x1 : SliceIx) (x2 : WakeOpen) :
    Moves [.slice, .lane, .pool, .trc, .pwr, .evr, .recv, .det, .freq] s (State.openLate s x1 x2) := by
  unfold State.openLate
  repeat' (first
    | with_reducible exact Moves.refl _ _
    | with_reducible assumption
    | extract_lets
    | with_reducible refine Moves.ite ?_ ?_
    | with_reducible refine (State.modSlice_moves ..).after (by decide) ?_
    | with_reducible refine (State.openPacket_moves ..).after (by decide) ?_
    | with_reducible refine (State.takeSlot_moves ..).after (by decide) ?_
    | with_reducible refine (State.padPacket_moves ..).after (by decide) ?_
    | with_reducible refine (State.bitsTo_moves ..).after (by decide) ?_
    | with_reducible refine (Moves.fold _ _ _ ?_).behind ?_
    | intro _
    | split
    | ((conv => arg 3; with_reducible whnf); split))

theorem execSliceStreamStart_moves (x0 : SliceIx) (x1 : Nat) (x2 : Nat) (s : State) {t : State} (h : (execSliceStreamStart x0 x1 x2 s) = .next t) :
    Moves [.slice, .lane, .pool, .trc, .host, .het, .pwr, .evr, .out, .recv, .det, .freq] s t := by
  unfold execSliceStreamStart at h
  repeat' (first | contradiction | (injection h with h; subst h) | split at h)
  all_goals (repeat' (first
    | with_reducible exact Moves.refl _ _
    | with_reducible assumption
    | extract_lets
    | with_reducible refine Moves.ite ?_ ?_
    | with_reducible refine (State.modSlice_moves ..).after (by decide) ?_
    | with_reducible refine (State.openLate_moves ..).after (by decide) ?_
    | with_reducible refine (State.sliceRestarted_moves ..).after (by decide) ?_
    | with_reducible refine (Moves.fold _ _ _ ?_).behind ?_
    | intro _
    | split
    | ((conv => arg 3; with_reducible whnf); split)))

theorem execSliceUnderrun_moves (x0 : SliceIx) (s : State) {t : State} (h : (execSliceUnderrun x0 s) = .next t) :
    Moves [.slice, .trc, .evr] s t := by
  unfold execSliceUnderrun at h
  repeat' (first | contradiction | (injection h with h; subst h) | split at h)
  all_goals (repeat' (first
    | with_reducible exact Moves.refl _ _
    | with_reducible assumption
    | extract_lets
    | with_reducible refine Moves.ite ?_ ?_
    | with_reducible refine (State.modSlice_moves ..).after (by decide) ?_
    | with_reducible refine (State.demodWord_moves ..).after (by decide) ?_
    | with_reducible refine (State.saturated_moves ..).after (by decide) ?_
    | with_reducible refine (Moves.fold _ _ _ ?_).behind ?_
    | intro _
    | split
    | ((conv => arg 3; with_reducible whnf); split)))

theorem execSliceLateWordDiscard_moves (x0 : SliceIx) (x1 : BitVec 2) (s : State) {t : State} (h : (execSliceLateWordDiscard x0 x1 s) = .next t) :
    Moves [.slice] s t := by
  unfold execSliceLateWordDiscard at h
  repeat' (first | contradiction | (injection h with h; subst h) | split at h)
  all_goals (repeat' (first
    | with_reducible exact Moves.refl _ _
    | with_reducible assumption
    | extract_lets
    | with_reducible refine Moves.ite ?_ ?_
    | with_reducible refine (State.modSlice_moves ..).after (by decide) ?_
    | with_reducible refine (Moves.fold _ _ _ ?_).behind ?_
    | intro _
    | split
    | ((conv => arg 3; with_reducible whnf); split)))

theorem State.streamError_moves (s : State) (x1 : Head) :
    Moves [.slice, .lane, .pool, .trc, .pwr, .evr, .recv, .rd, .det, .wr, .map, .freq] s (State.streamError s x1) := by
  unfold State.streamError
  repeat' (first
    | with_reducible exact Moves.refl _ _
    | with_reducible assumption
    | extract_lets
    | with_reducible refine Moves.ite ?_ ?_
    | with_reducible refine (State.packetSettled_moves ..).after (by decide) ?_
    | with_reducible refine (State.endCodeword_moves ..).after (by decide) ?_
    | with_reducible refine (State.countCodeword_moves ..).after (by decide) ?_
    | with_reducible refine (State.modLane_moves ..).after (by decide) ?_
    | with_reducible refine (Moves.fold _ _ _ ?_).behind ?_
    | intro _
    | split
    | ((conv => arg 3; with_reducible whnf); split))

theorem State.readersFailed_moves (s : State) (x1 : Head) :
    Moves [.free, .slice, .lane, .pool, .wsl, .lpe, .trc, .media, .host, .q, .pwr, .sec, .evr, .nor, .out, .links, .recv, .engSrv, .seq, .zdc, .rd, .det, .wr, .headSrv, .map, .freq] s (State.readersFailed s x1) := by
  unfold State.readersFailed
  repeat' (first
    | with_reducible exact Moves.refl _ _
    | with_reducible assumption
    | extract_lets
    | with_reducible refine Moves.ite ?_ ?_
    | with_reducible refine (State.headFail_moves ..).after (by decide) ?_
    | with_reducible refine (Moves.fold _ _ _ ?_).behind ?_
    | intro _
    | split
    | ((conv => arg 3; with_reducible whnf); split))

theorem execSliceFifoTimeout_moves (x0 : SliceIx) (s : State) {t : State} (h : (execSliceFifoTimeout x0 s) = .next t) :
    Moves [.free, .slice, .lane, .pool, .wsl, .lpe, .trc, .media, .host, .q, .het, .pwr, .sec, .evr, .nor, .out, .links, .recv, .engSrv, .seq, .zdc, .rd, .det, .wr, .headSrv, .map, .freq] s t := by
  unfold execSliceFifoTimeout at h
  repeat' (first | contradiction | (injection h with h; subst h) | split at h)
  all_goals (repeat' (first
    | with_reducible exact Moves.refl _ _
    | with_reducible assumption
    | extract_lets
    | with_reducible refine Moves.ite ?_ ?_
    | with_reducible refine (State.modSlice_moves ..).after (by decide) ?_
    | with_reducible refine (State.condSlice_moves ..).after (by decide) ?_
    | with_reducible refine (State.saturated_moves ..).after (by decide) ?_
    | with_reducible refine (State.streamError_moves ..).after (by decide) ?_
    | with_reducible refine (State.sliceRestarted_moves ..).after (by decide) ?_
    | with_reducible refine (State.readersFailed_moves ..).after (by decide) ?_
    | with_reducible refine (Moves.fold _ _ _ ?_).behind ?_
    | intro _
    | split
    | ((conv => arg 3; with_reducible whnf); split)))

theorem execSliceOverrun_moves (x0 : SliceIx) (s : State) {t : State} (h : (execSliceOverrun x0 s) = .next t) :
    Moves [.slice, .trc, .evr] s t := by
  unfold execSliceOverrun at h
  repeat' (first | contradiction | (injection h with h; subst h) | split at h)
  all_goals (repeat' (first
    | with_reducible exact Moves.refl _ _
    | with_reducible assumption
    | extract_lets
    | with_reducible refine Moves.ite ?_ ?_
    | with_reducible refine (State.modSlice_moves ..).after (by decide) ?_
    | with_reducible refine (State.saturated_moves ..).after (by decide) ?_
    | with_reducible refine (Moves.fold _ _ _ ?_).behind ?_
    | intro _
    | split
    | ((conv => arg 3; with_reducible whnf); split)))

theorem execDropCommand_moves (x0 : SliceIx) (s : State) {t : State} (h : (execDropCommand x0 s) = .next t) :
    Moves [.slice, .lane, .pool, .trc, .pwr, .evr, .recv, .rd, .det, .wr, .map, .freq] s t := by
  unfold execDropCommand at h
  repeat' (first | contradiction | (injection h with h; subst h) | split at h)
  all_goals (repeat' (first
    | with_reducible exact Moves.refl _ _
    | with_reducible assumption
    | extract_lets
    | with_reducible refine Moves.ite ?_ ?_
    | with_reducible refine (State.modSlice_moves ..).after (by decide) ?_
    | with_reducible refine (State.dropStream_moves ..).after (by decide) ?_
    | with_reducible refine (State.packetSettled_moves ..).after (by decide) ?_
    | with_reducible refine (Moves.fold _ _ _ ?_).behind ?_
    | intro _
    | split
    | ((conv => arg 3; with_reducible whnf); split)))

theorem execZeroPhaseStart_moves (x0 : Head) (x1 : Fin 2) (s : State) {t : State} (h : (execZeroPhaseStart x0 x1 s) = .next t) :
    Moves [.slice] s t := by
  unfold execZeroPhaseStart at h
  repeat' (first | contradiction | (injection h with h; subst h) | split at h)
  all_goals (repeat' (first
    | with_reducible exact Moves.refl _ _
    | with_reducible assumption
    | extract_lets
    | with_reducible refine Moves.ite ?_ ?_
    | with_reducible refine (State.modSlice_moves ..).after (by decide) ?_
    | with_reducible refine (Moves.fold _ _ _ ?_).behind ?_
    | intro _
    | split
    | ((conv => arg 3; with_reducible whnf); split)))

theorem execSliceAcqToTrack_moves (x0 : Head) (x1 : Fin 2) (s : State) {t : State} (h : (execSliceAcqToTrack x0 x1 s) = .next t) :
    Moves [.slice] s t := by
  unfold execSliceAcqToTrack at h
  repeat' (first | contradiction | (injection h with h; subst h) | split at h)
  all_goals (repeat' (first
    | with_reducible exact Moves.refl _ _
    | with_reducible assumption
    | extract_lets
    | with_reducible refine Moves.ite ?_ ?_
    | with_reducible refine (State.modSlice_moves ..).after (by decide) ?_
    | with_reducible refine (Moves.fold _ _ _ ?_).behind ?_
    | intro _
    | split
    | ((conv => arg 3; with_reducible whnf); split)))

theorem State.serveTrack_moves (s : State) (x1 : Head) (x2 : Nat) :
    Moves [.slice, .rd, .det, .wr, .map, .freq] s (State.serveTrack s x1 x2) := by
  unfold State.serveTrack
  repeat' (first
    | with_reducible exact Moves.refl _ _
    | with_reducible assumption
    | extract_lets
    | with_reducible refine Moves.ite ?_ ?_
    | with_reducible refine (State.modMap_moves ..).after (by decide) ?_
    | with_reducible refine (State.loadBand_moves ..).after (by decide) ?_
    | with_reducible refine (Moves.fold _ _ _ ?_).behind ?_
    | intro _
    | split
    | ((conv => arg 3; with_reducible whnf); split))

theorem execBandLoad_moves (x0 : Head) (x1 : BitVec 22) (s : State) {t : State} (h : (execBandLoad x0 x1 s) = .next t) :
    Moves [.slice, .rd, .det, .wr, .map, .freq] s t := by
  unfold execBandLoad at h
  repeat' (first | contradiction | (injection h with h; subst h) | split at h)
  all_goals (repeat' (first
    | with_reducible exact Moves.refl _ _
    | with_reducible assumption
    | extract_lets
    | with_reducible refine Moves.ite ?_ ?_
    | with_reducible refine (State.serveTrack_moves ..).after (by decide) ?_
    | with_reducible refine (Moves.fold _ _ _ ?_).behind ?_
    | intro _
    | split
    | ((conv => arg 3; with_reducible whnf); split)))

theorem State.putBand_moves (s : State) (x1 : Head) (x2 : Fin 64) (x3 : BandEntry → BandEntry) :
    Moves [.nor, .map] s (State.putBand s x1 x2 x3) := by
  unfold State.putBand
  repeat' (first
    | with_reducible exact Moves.refl _ _
    | with_reducible assumption
    | extract_lets
    | with_reducible refine Moves.ite ?_ ?_
    | with_reducible refine (State.modNor_moves _ _ (by intro n; repeat' (first | rfl | extract_lets | split))).after (by decide) ?_
    | with_reducible refine (State.modMap_moves ..).after (by decide) ?_
    | with_reducible refine (Moves.fold _ _ _ ?_).behind ?_
    | intro _
    | split
    | ((conv => arg 3; with_reducible whnf); split))

theorem opSliceConfig_moves (x0 : Packet) (s : State) :
    Moves [.nor, .map] s (opSliceConfig x0 s).state := by
  unfold opSliceConfig
  repeat' (first
    | with_reducible exact Moves.refl _ _
    | with_reducible assumption
    | extract_lets
    | with_reducible refine Moves.ite ?_ ?_
    | with_reducible refine Moves.itePkt ?_ ?_
    | with_reducible refine (State.putBand_moves ..).after (by decide) ?_
    | with_reducible refine (Moves.fold _ _ _ ?_).behind ?_
    | intro _
    | split
    | ((conv => arg 3; with_reducible whnf); split))

theorem execSliceConfig_moves (x0 : Packet) (s : State) {t : State} (h : (execSliceConfig x0 s) = .next t) :
    Moves [.trc, .host, .het, .evr, .nor, .out, .map] s t := by
  unfold execSliceConfig at h
  repeat' (first | contradiction | (injection h with h; subst h) | split at h)
  all_goals (repeat' (first
    | with_reducible exact Moves.refl _ _
    | with_reducible assumption
    | extract_lets
    | with_reducible refine Moves.ite ?_ ?_
    | with_reducible refine Moves.itePkt ?_ ?_
    | with_reducible refine (opSliceConfig_moves ..).after (by decide) ?_
    | with_reducible refine runPacket_moves (by decide) (fun s => ?_)
    | with_reducible refine (Moves.fold _ _ _ ?_).behind ?_
    | intro _
    | split
    | ((conv => arg 3; with_reducible whnf); split)))

theorem execSliceStatus_moves (x0 : Packet) (s : State) {t : State} (h : (execSliceStatus x0 s) = .next t) :
    Moves [.trc, .host, .het, .evr, .out] s t := by
  unfold execSliceStatus at h
  repeat' (first | contradiction | (injection h with h; subst h) | split at h)
  all_goals (repeat' (first
    | with_reducible exact Moves.refl _ _
    | with_reducible assumption
    | extract_lets
    | with_reducible refine Moves.ite ?_ ?_
    | with_reducible refine Moves.itePkt ?_ ?_
    | with_reducible refine runPacket_moves (by decide) (fun s => ?_)
    | with_reducible refine (Moves.fold _ _ _ ?_).behind ?_
    | intro _
    | split
    | ((conv => arg 3; with_reducible whnf); split)))

theorem opSliceClear_moves (x0 : Packet) (s : State) :
    Moves [.slice] s (opSliceClear x0 s).state := by
  unfold opSliceClear
  repeat' (first
    | with_reducible exact Moves.refl _ _
    | with_reducible assumption
    | extract_lets
    | with_reducible refine Moves.ite ?_ ?_
    | with_reducible refine Moves.itePkt ?_ ?_
    | with_reducible refine (State.modSlice_moves ..).after (by decide) ?_
    | with_reducible refine (Moves.fold _ _ _ ?_).behind ?_
    | intro _
    | split
    | ((conv => arg 3; with_reducible whnf); split))

theorem execSliceClear_moves (x0 : Packet) (s : State) {t : State} (h : (execSliceClear x0 s) = .next t) :
    Moves [.slice, .trc, .host, .het, .evr, .out] s t := by
  unfold execSliceClear at h
  repeat' (first | contradiction | (injection h with h; subst h) | split at h)
  all_goals (repeat' (first
    | with_reducible exact Moves.refl _ _
    | with_reducible assumption
    | extract_lets
    | with_reducible refine Moves.ite ?_ ?_
    | with_reducible refine Moves.itePkt ?_ ?_
    | with_reducible refine (opSliceClear_moves ..).after (by decide) ?_
    | with_reducible refine runPacket_moves (by decide) (fun s => ?_)
    | with_reducible refine (Moves.fold _ _ _ ?_).behind ?_
    | intro _
    | split
    | ((conv => arg 3; with_reducible whnf); split)))

theorem opSliceRestart_moves (x0 : Packet) (s : State) :
    Moves [.slice] s (opSliceRestart x0 s).state := by
  unfold opSliceRestart
  repeat' (first
    | with_reducible exact Moves.refl _ _
    | with_reducible assumption
    | extract_lets
    | with_reducible refine Moves.ite ?_ ?_
    | with_reducible refine Moves.itePkt ?_ ?_
    | with_reducible refine (PktRes.fail_moves ..).after (by decide) ?_
    | with_reducible refine (State.modSlice_moves ..).after (by decide) ?_
    | with_reducible refine (Moves.fold _ _ _ ?_).behind ?_
    | intro _
    | split
    | ((conv => arg 3; with_reducible whnf); split))

theorem execSliceRestart_moves (x0 : Packet) (s : State) {t : State} (h : (execSliceRestart x0 s) = .next t) :
    Moves [.slice, .trc, .host, .het, .evr, .out] s t := by
  unfold execSliceRestart at h
  repeat' (first | contradiction | (injection h with h; subst h) | split at h)
  all_goals (repeat' (first
    | with_reducible exact Moves.refl _ _
    | with_reducible assumption
    | extract_lets
    | with_reducible refine Moves.ite ?_ ?_
    | with_reducible refine Moves.itePkt ?_ ?_
    | with_reducible refine (opSliceRestart_moves ..).after (by decide) ?_
    | with_reducible refine runPacket_moves (by decide) (fun s => ?_)
    | with_reducible refine (Moves.fold _ _ _ ?_).behind ?_
    | intro _
    | split
    | ((conv => arg 3; with_reducible whnf); split)))

end Sys2Proof.Machine
end

