-- ==== Sys2Proof/Laws/MovesDeliver.lean ====
section
/-! SUPPORT. What each operation and each command of Machine/Deliver.lean can touch. -/

namespace Sys2Proof.Machine
open Sys2Proof
set_option linter.all false
set_option Elab.async false

theorem State.sumBolero_moves (s : State) (x1 : BoleroSums) :
    Moves [.spn] s (State.sumBolero s x1) := by
  unfold State.sumBolero
  repeat' (first
    | with_reducible exact Moves.refl _ _
    | with_reducible assumption
    | extract_lets
    | with_reducible refine Moves.ite ?_ ?_
    | with_reducible refine (State.modSpn_moves ..).after (by decide) ?_
    | with_reducible refine (Moves.fold _ _ _ ?_).behind ?_
    | intro _
    | split
    | ((conv => arg 3; with_reducible whnf); split))

theorem State.deliver_moves (s : State) (x1 : CtxIx) (x2 : Nat) (x3 : BitVec 32928) :
    Moves [.spn, .q] s (State.deliver s x1 x2 x3) := by
  unfold State.deliver
  dsimp only
  repeat' (first
    | with_reducible exact Moves.refl _ _
    | with_reducible assumption
    | extract_lets
    | with_reducible refine Moves.ite ?_ ?_
    | with_reducible refine (State.modCtx_moves ..).after (by decide) ?_
    | with_reducible refine (State.sumBolero_moves ..).after (by decide) ?_
    | with_reducible refine (State.modQ_moves ..).after (by decide) ?_
    | with_reducible refine (Moves.fold _ _ _ ?_).behind ?_
    | intro _
    | split
    | ((conv => arg 3; with_reducible whnf); split))

theorem State.transferFailed_moves (s : State) (x1 : CtxIx) :
    Moves [.q] s (State.transferFailed s x1) := by
  unfold State.transferFailed
  repeat' (first
    | with_reducible exact Moves.refl _ _
    | with_reducible assumption
    | extract_lets
    | with_reducible refine Moves.ite ?_ ?_
    | with_reducible refine (State.modQ_moves ..).after (by decide) ?_
    | with_reducible refine (State.modCtx_moves ..).after (by decide) ?_
    | with_reducible refine (Moves.fold _ _ _ ?_).behind ?_
    | intro _
    | split
    | ((conv => arg 3; with_reducible whnf); split))

theorem State.addDefect_moves (s : State) (x1 : Eng) (x2 : ℕ) (x3 : SectorAt) :
    Moves [.trc, .media, .evr, .nor, .map] s (State.addDefect s x1 x2 x3) := by
  unfold State.addDefect
  repeat' (first
    | with_reducible exact Moves.refl _ _
    | with_reducible assumption
    | extract_lets
    | with_reducible refine Moves.ite ?_ ?_
    | with_reducible refine (State.saturated_moves ..).after (by decide) ?_
    | with_reducible refine (State.modNor_moves _ _ (by intro n; repeat' (first | rfl | extract_lets | split))).after (by decide) ?_
    | with_reducible refine (State.modMedia_moves ..).after (by decide) ?_
    | with_reducible refine (State.modMap_moves ..).after (by decide) ?_
    | with_reducible refine (Moves.fold _ _ _ ?_).behind ?_
    | intro _
    | split
    | ((conv => arg 3; with_reducible whnf); split))

end Sys2Proof.Machine
end

