-- ==== Sys2Proof/Laws/MovesBuffers.lean ====
section
/-! SUPPORT. What each operation and each command of Machine/Buffers.lean can touch. -/

namespace Sys2Proof.Machine
open Sys2Proof
set_option linter.all false
set_option Elab.async false

theorem State.modView_moves (s : State) (x1 : ℕ) (x2 : List BlockState → List BlockState) :
    Moves [.q] s (State.modView s x1 x2) := by
  unfold State.modView
  repeat' (first
    | with_reducible exact Moves.refl _ _
    | with_reducible assumption
    | extract_lets
    | with_reducible refine Moves.ite ?_ ?_
    | with_reducible refine (State.modQ_moves ..).after (by decide) ?_
    | with_reducible refine (Moves.fold _ _ _ ?_).behind ?_
    | intro _
    | split
    | ((conv => arg 3; with_reducible whnf); split))

theorem State.modBlockAt_moves (s : State) (x1 : Eng) (x2 : SectorAt) (x3 : BlockState → BlockState) :
    Moves [.q] s (State.modBlockAt s x1 x2 x3) := by
  unfold State.modBlockAt
  repeat' (first
    | with_reducible exact Moves.refl _ _
    | with_reducible assumption
    | extract_lets
    | with_reducible refine Moves.ite ?_ ?_
    | with_reducible refine (State.modView_moves ..).after (by decide) ?_
    | with_reducible refine (Moves.fold _ _ _ ?_).behind ?_
    | intro _
    | split
    | ((conv => arg 3; with_reducible whnf); split))

theorem State.encodeBlock_moves (s : State) (x1 : WriteView) (x2 : Nat) :
    Moves [.q] s (State.encodeBlock s x1 x2) := by
  unfold State.encodeBlock
  repeat' (first
    | with_reducible exact Moves.refl _ _
    | with_reducible assumption
    | extract_lets
    | with_reducible refine Moves.ite ?_ ?_
    | with_reducible refine (State.modView_moves ..).after (by decide) ?_
    | with_reducible refine (State.modQ_moves ..).after (by decide) ?_
    | with_reducible refine (Moves.fold _ _ _ ?_).behind ?_
    | intro _
    | split
    | ((conv => arg 3; with_reducible whnf); split))

theorem State.writeFault_moves (s : State) (x1 : Eng) (x2 : SectorAt) :
    Moves [.free, .trc, .media, .host, .q, .evr, .nor, .out, .zdc, .map] s (State.writeFault s x1 x2) := by
  unfold State.writeFault
  repeat' (first
    | with_reducible exact Moves.refl _ _
    | with_reducible assumption
    | extract_lets
    | with_reducible refine Moves.ite ?_ ?_
    | with_reducible refine (State.modView_moves ..).after (by decide) ?_
    | with_reducible refine (State.modQ_moves ..).after (by decide) ?_
    | with_reducible refine (State.setZone_moves ..).after (by decide) ?_
    | with_reducible refine (State.zoneNotice_moves ..).after (by decide) ?_
    | with_reducible refine (State.addDefect_moves ..).after (by decide) ?_
    | with_reducible refine (Moves.fold _ _ _ ?_).behind ?_
    | intro _
    | split
    | ((conv => arg 3; with_reducible whnf); split))

end Sys2Proof.Machine
end

