-- ==== Sys2Proof/Laws/MovesLadder.lean ====
section
/-! SUPPORT. What each operation and each command of Machine/Ladder.lean can touch. -/

namespace Sys2Proof.Machine
open Sys2Proof
set_option linter.all false
set_option Elab.async false

theorem State.modJob_moves (s : State) (x1 : Eng) (x2 : JobIx) (x3 : RecJob → RecJob) :
    Moves [.recv] s (State.modJob s x1 x2 x3) := by
  unfold State.modJob
  repeat' (first
    | with_reducible exact Moves.refl _ _
    | with_reducible assumption
    | extract_lets
    | with_reducible refine Moves.ite ?_ ?_
    | with_reducible refine (State.modRec_moves ..).after (by decide) ?_
    | with_reducible refine (Moves.fold _ _ _ ?_).behind ?_
    | intro _
    | split
    | ((conv => arg 3; with_reducible whnf); split))

theorem State.unbias_moves (s : State) (x1 : Eng) (x2 : JobIx) :
    Moves [.recv, .det, .headSrv] s (State.unbias s x1 x2) := by
  unfold State.unbias
  repeat' (first
    | with_reducible exact Moves.refl _ _
    | with_reducible assumption
    | extract_lets
    | with_reducible refine Moves.ite ?_ ?_
    | with_reducible refine (State.restoreHead_moves ..).after (by decide) ?_
    | with_reducible refine (State.modJob_moves ..).after (by decide) ?_
    | with_reducible refine (Moves.fold _ _ _ ?_).behind ?_
    | intro _
    | split
    | ((conv => arg 3; with_reducible whnf); split))

theorem State.failBlocks_moves (s : State) (x1 : List (CtxIx × ℕ × Bool)) (x2 : NvStatus) :
    Moves [.q] s (State.failBlocks s x1 x2) := by
  unfold State.failBlocks
  repeat' (first
    | with_reducible exact Moves.refl _ _
    | with_reducible assumption
    | extract_lets
    | with_reducible refine Moves.ite ?_ ?_
    | with_reducible refine (State.modCtx_moves ..).after (by decide) ?_
    | with_reducible refine (Moves.fold _ _ _ ?_).behind ?_
    | intro _
    | split
    | ((conv => arg 3; with_reducible whnf); split))

theorem State.unrecovered_moves (s : State) (x1 : Eng) (x2 : JobIx) :
    Moves [.slice, .lane, .pool, .trc, .media, .q, .evr, .nor, .recv, .det, .headSrv, .map] s (State.unrecovered s x1 x2) := by
  unfold State.unrecovered
  repeat' (first
    | with_reducible exact Moves.refl _ _
    | with_reducible assumption
    | extract_lets
    | with_reducible refine Moves.ite ?_ ?_
    | with_reducible refine (State.failBlocks_moves ..).after (by decide) ?_
    | with_reducible refine (State.addDefect_moves ..).after (by decide) ?_
    | with_reducible refine (State.modRec_moves ..).after (by decide) ?_
    | with_reducible refine (State.condRec_moves ..).after (by decide) ?_
    | with_reducible refine (State.saturated_moves ..).after (by decide) ?_
    | with_reducible refine (State.closeJob_moves ..).after (by decide) ?_
    | with_reducible refine (Moves.fold _ _ _ ?_).behind ?_
    | intro _
    | split
    | ((conv => arg 3; with_reducible whnf); split))

theorem State.queueRealloc_moves (s : State) (x1 : Eng) (x2 : SectorAt) (x3 : ZoneNo) (x4 : BitVec 32928) (x5 : Bool) :
    Moves [.recv] s (State.queueRealloc s x1 x2 x3 x4 x5) := by
  unfold State.queueRealloc
  repeat' (first
    | with_reducible exact Moves.refl _ _
    | with_reducible assumption
    | extract_lets
    | with_reducible refine Moves.ite ?_ ?_
    | with_reducible refine (State.modRec_moves ..).after (by decide) ?_
    | with_reducible refine (Moves.fold _ _ _ ?_).behind ?_
    | intro _
    | split
    | ((conv => arg 3; with_reducible whnf); split))

theorem State.recovered_moves (s : State) (x1 : Eng) (x2 : JobIx) (x3 : BitVec 32928) :
    Moves [.slice, .lane, .pool, .trc, .spn, .media, .q, .evr, .nor, .recv, .det, .headSrv, .map] s (State.recovered s x1 x2 x3) := by
  unfold State.recovered
  repeat' (first
    | with_reducible exact Moves.refl _ _
    | with_reducible assumption
    | extract_lets
    | with_reducible refine Moves.ite ?_ ?_
    | with_reducible refine (State.modRec_moves ..).after (by decide) ?_
    | with_reducible refine (State.addDefect_moves ..).after (by decide) ?_
    | with_reducible refine (State.queueRealloc_moves ..).after (by decide) ?_
    | with_reducible refine (State.deliver_moves ..).after (by decide) ?_
    | with_reducible refine (State.closeJob_moves ..).after (by decide) ?_
    | with_reducible refine (Moves.fold _ _ _ ?_).behind ?_
    | intro _
    | split
    | ((conv => arg 3; with_reducible whnf); split))

theorem State.limitRetry_moves (s : State) (x1 : Eng) (x2 : JobIx) :
    Moves [.slice, .lane, .pool, .q, .recv, .det, .headSrv] s (State.limitRetry s x1 x2) := by
  unfold State.limitRetry
  repeat' (first
    | with_reducible exact Moves.refl _ _
    | with_reducible assumption
    | extract_lets
    | with_reducible refine Moves.ite ?_ ?_
    | with_reducible refine (State.failBlocks_moves ..).after (by decide) ?_
    | with_reducible refine (State.modJob_moves ..).after (by decide) ?_
    | with_reducible refine (State.closeJob_moves ..).after (by decide) ?_
    | with_reducible refine (Moves.fold _ _ _ ?_).behind ?_
    | intro _
    | split
    | ((conv => arg 3; with_reducible whnf); split))

theorem State.prepare_moves (s : State) (x1 : Eng) (x2 : JobIx) :
    Moves [.recv] s (State.prepare s x1 x2) := by
  unfold State.prepare
  repeat' (first
    | with_reducible exact Moves.refl _ _
    | with_reducible assumption
    | extract_lets
    | with_reducible refine Moves.ite ?_ ?_
    | with_reducible refine (State.modJob_moves ..).after (by decide) ?_
    | with_reducible refine (Moves.fold _ _ _ ?_).behind ?_
    | intro _
    | split
    | ((conv => arg 3; with_reducible whnf); split))

theorem State.askStandard_moves (s : State) (x1 : Eng) (x2 : JobIx) :
    Moves [.lane, .pool, .pwr, .recv] s (State.askStandard s x1 x2) := by
  unfold State.askStandard
  repeat' (first
    | with_reducible exact Moves.refl _ _
    | with_reducible assumption
    | extract_lets
    | with_reducible refine Moves.ite ?_ ?_
    | with_reducible refine (State.prepare_moves ..).after (by decide) ?_
    | with_reducible refine (State.modJob_moves ..).after (by decide) ?_
    | with_reducible refine (State.request_moves ..).after (by decide) ?_
    | with_reducible refine (Moves.fold _ _ _ ?_).behind ?_
    | intro _
    | split
    | ((conv => arg 3; with_reducible whnf); split))

theorem State.tryFailed_moves (s : State) (x1 : Eng) (x2 : JobIx) :
    Moves [.slice, .lane, .pool, .trc, .media, .q, .pwr, .evr, .nor, .recv, .det, .headSrv, .map] s (State.tryFailed s x1 x2) := by
  unfold State.tryFailed
  repeat' (first
    | with_reducible exact Moves.refl _ _
    | with_reducible assumption
    | extract_lets
    | with_reducible refine Moves.ite ?_ ?_
    | with_reducible refine (State.modJob_moves ..).after (by decide) ?_
    | with_reducible refine (State.askStandard_moves ..).after (by decide) ?_
    | with_reducible refine (State.unbias_moves ..).after (by decide) ?_
    | with_reducible refine (State.unrecovered_moves ..).after (by decide) ?_
    | with_reducible refine (State.limitRetry_moves ..).after (by decide) ?_
    | with_reducible refine (Moves.fold _ _ _ ?_).behind ?_
    | intro _
    | split
    | ((conv => arg 3; with_reducible whnf); split))

theorem State.stopJobs_moves (s : State) (x1 : Eng) :
    Moves [.pool, .q, .recv, .det, .headSrv] s (State.stopJobs s x1) := by
  unfold State.stopJobs
  repeat' (first
    | with_reducible exact Moves.refl _ _
    | with_reducible assumption
    | extract_lets
    | with_reducible refine Moves.ite ?_ ?_
    | with_reducible refine (State.unbias_moves ..).after (by decide) ?_
    | with_reducible refine (State.releaseJob_moves ..).after (by decide) ?_
    | with_reducible refine (State.modJob_moves ..).after (by decide) ?_
    | with_reducible refine (Moves.fold _ _ _ ?_).behind ?_
    | intro _
    | split
    | ((conv => arg 3; with_reducible whnf); split))

theorem State.stopTimeline_moves (s : State) (x1 : Eng) :
    Moves [.slice, .lane, .pool, .trc, .q, .pwr, .evr, .reel, .links, .recv, .engSrv, .seq, .rd, .det, .wr, .headSrv, .map, .freq] s (State.stopTimeline s x1) := by
  unfold State.stopTimeline
  repeat' (first
    | with_reducible exact Moves.refl _ _
    | with_reducible assumption
    | extract_lets
    | with_reducible refine Moves.ite ?_ ?_
    | with_reducible refine (State.enterIdle_moves ..).after (by decide) ?_
    | with_reducible refine (State.stopJobs_moves ..).after (by decide) ?_
    | with_reducible refine (Moves.fold _ _ _ ?_).behind ?_
    | intro _
    | split
    | ((conv => arg 3; with_reducible whnf); split))

theorem State.ladderReadFailed_moves (s : State) (x1 : Eng) (x2 : JobIx) (x3 : Slot) :
    Moves [.slice, .lane, .pool, .trc, .media, .q, .pwr, .evr, .nor, .recv, .det, .headSrv, .map] s (State.ladderReadFailed s x1 x2 x3) := by
  unfold State.ladderReadFailed
  repeat' (first
    | with_reducible exact Moves.refl _ _
    | with_reducible assumption
    | extract_lets
    | with_reducible refine Moves.ite ?_ ?_
    | with_reducible refine (State.closeJob_moves ..).after (by decide) ?_
    | with_reducible refine (State.unbias_moves ..).after (by decide) ?_
    | with_reducible refine (State.modJob_moves ..).after (by decide) ?_
    | with_reducible refine (State.askStandard_moves ..).after (by decide) ?_
    | with_reducible refine (State.tryFailed_moves ..).after (by decide) ?_
    | with_reducible refine (Moves.fold _ _ _ ?_).behind ?_
    | intro _
    | split
    | ((conv => arg 3; with_reducible whnf); split))

theorem State.takeRecord_moves (s : State) (x1 : LaneIx) (x2 : SlotIx) (x3 : Bool) :
    Moves [.lane] s (State.takeRecord s x1 x2 x3) := by
  unfold State.takeRecord
  repeat' (first
    | with_reducible exact Moves.refl _ _
    | with_reducible assumption
    | extract_lets
    | with_reducible refine Moves.ite ?_ ?_
    | with_reducible refine (State.freeSlot_moves ..).after (by decide) ?_
    | with_reducible refine (State.modLane_moves ..).after (by decide) ?_
    | with_reducible refine (Moves.fold _ _ _ ?_).behind ?_
    | intro _
    | split
    | ((conv => arg 3; with_reducible whnf); split))

theorem execRecoveryJobOpen_moves (x0 : LaneIx) (x1 : SlotIx) (s : State) {t : State} (h : (execRecoveryJobOpen x0 x1 s) = .next t) :
    Moves [.slice, .lane, .pool, .trc, .media, .q, .pwr, .evr, .nor, .recv, .det, .headSrv, .map] s t := by
  unfold execRecoveryJobOpen at h
  repeat' (first | contradiction | (injection h with h; subst h) | split at h)
  all_goals (repeat' (first
    | with_reducible exact Moves.refl _ _
    | with_reducible assumption
    | extract_lets
    | with_reducible refine Moves.ite ?_ ?_
    | with_reducible refine (State.takeRecord_moves ..).after (by decide) ?_
    | with_reducible refine (State.ladderReadFailed_moves ..).after (by decide) ?_
    | with_reducible refine (State.modCtx_moves ..).after (by decide) ?_
    | with_reducible refine (State.modJob_moves ..).after (by decide) ?_
    | with_reducible refine (State.modQ_moves ..).after (by decide) ?_
    | with_reducible refine (State.modRec_moves ..).after (by decide) ?_
    | with_reducible refine (Moves.fold _ _ _ ?_).behind ?_
    | intro _
    | split
    | ((conv => arg 3; with_reducible whnf); split)))

theorem execRetainedStreamCopyDone_moves (x0 : Eng) (x1 : JobIx) (s : State) {t : State} (h : (execRetainedStreamCopyDone x0 x1 s) = .next t) :
    Moves [.lane, .recv] s t := by
  unfold execRetainedStreamCopyDone at h
  repeat' (first | contradiction | (injection h with h; subst h) | split at h)
  all_goals (repeat' (first
    | with_reducible exact Moves.refl _ _
    | with_reducible assumption
    | extract_lets
    | with_reducible refine Moves.ite ?_ ?_
    | with_reducible refine (State.modJob_moves ..).after (by decide) ?_
    | with_reducible refine (State.freeSlot_moves ..).after (by decide) ?_
    | with_reducible refine (Moves.fold _ _ _ ?_).behind ?_
    | intro _
    | split
    | ((conv => arg 3; with_reducible whnf); split)))

theorem State.guardWait_moves (s : State) (x1 : Eng) (x2 : JobIx) (x3 : JobWait) :
    Moves [.recv] s (State.guardWait s x1 x2 x3) := by
  unfold State.guardWait
  repeat' (first
    | with_reducible exact Moves.refl _ _
    | with_reducible assumption
    | extract_lets
    | with_reducible refine Moves.ite ?_ ?_
    | with_reducible refine (State.modJob_moves ..).after (by decide) ?_
    | with_reducible refine (Moves.fold _ _ _ ?_).behind ?_
    | intro _
    | split
    | ((conv => arg 3; with_reducible whnf); split))

theorem State.takeCapture_moves (s : State) (x1 : Eng) (x2 : JobIx) :
    Moves [.q, .recv] s (State.takeCapture s x1 x2) := by
  unfold State.takeCapture
  repeat' (first
    | with_reducible exact Moves.refl _ _
    | with_reducible assumption
    | extract_lets
    | with_reducible refine Moves.ite ?_ ?_
    | with_reducible refine (State.modQ_moves ..).after (by decide) ?_
    | with_reducible refine (State.modJob_moves ..).after (by decide) ?_
    | with_reducible refine (State.guardWait_moves ..).after (by decide) ?_
    | with_reducible refine (Moves.fold _ _ _ ?_).behind ?_
    | intro _
    | split
    | ((conv => arg 3; with_reducible whnf); split))

theorem State.askDeep_moves (s : State) (x1 : Eng) (x2 : JobIx) :
    Moves [.lane, .pool, .pwr, .recv] s (State.askDeep s x1 x2) := by
  unfold State.askDeep
  repeat' (first
    | with_reducible exact Moves.refl _ _
    | with_reducible assumption
    | extract_lets
    | with_reducible refine Moves.ite ?_ ?_
    | with_reducible refine (State.guardWait_moves ..).after (by decide) ?_
    | with_reducible refine (State.request_moves ..).after (by decide) ?_
    | with_reducible refine (Moves.fold _ _ _ ?_).behind ?_
    | intro _
    | split
    | ((conv => arg 3; with_reducible whnf); split))

theorem State.biasHead_moves (s : State) (x1 : Eng) (x2 : RecJob) :
    Moves [.det] s (State.biasHead s x1 x2) := by
  unfold State.biasHead
  repeat' (first
    | with_reducible exact Moves.refl _ _
    | with_reducible assumption
    | extract_lets
    | with_reducible refine Moves.ite ?_ ?_
    | with_reducible refine (State.modHead_moves _ _ _ _ (by first | exact .inl (by decide) | exact .inr fun _ => rfl) (by first | exact .inl (by decide) | exact .inr fun _ => rfl) (by first | exact .inl (by decide) | exact .inr fun _ => rfl) (by first | exact .inl (by decide) | exact .inr fun _ => rfl) (by first | exact .inl (by decide) | exact .inr fun _ => rfl) (by first | exact .inl (by decide) | exact .inr fun _ => rfl)).behind ?_
    | with_reducible refine (Moves.fold _ _ _ ?_).behind ?_
    | intro _
    | split
    | ((conv => arg 3; with_reducible whnf); split))

theorem State.startTry_moves (s : State) (x1 : Eng) (x2 : JobIx) (x3 : RecJob) :
    Moves [.lane, .pool, .q, .pwr, .recv, .det] s (State.startTry s x1 x2 x3) := by
  unfold State.startTry
  repeat' (first
    | with_reducible exact Moves.refl _ _
    | with_reducible assumption
    | extract_lets
    | with_reducible refine Moves.ite ?_ ?_
    | with_reducible refine (State.askStandard_moves ..).after (by decide) ?_
    | with_reducible refine (State.modJob_moves ..).after (by decide) ?_
    | with_reducible refine (State.biasHead_moves ..).after (by decide) ?_
    | with_reducible refine (State.takeCapture_moves ..).after (by decide) ?_
    | with_reducible refine (State.askDeep_moves ..).after (by decide) ?_
    | with_reducible refine (Moves.fold _ _ _ ?_).behind ?_
    | intro _
    | split
    | ((conv => arg 3; with_reducible whnf); split))

theorem execLadderTry_moves (x0 : Eng) (x1 : JobIx) (s : State) {t : State} (h : (execLadderTry x0 x1 s) = .next t) :
    Moves [.slice, .lane, .pool, .trc, .media, .q, .pwr, .evr, .nor, .recv, .det, .headSrv, .map] s t := by
  unfold execLadderTry at h
  repeat' (first | contradiction | (injection h with h; subst h) | split at h)
  all_goals (repeat' (first
    | with_reducible exact Moves.refl _ _
    | with_reducible assumption
    | extract_lets
    | with_reducible refine Moves.ite ?_ ?_
    | with_reducible refine (State.unrecovered_moves ..).after (by decide) ?_
    | with_reducible refine (State.modJob_moves ..).after (by decide) ?_
    | with_reducible refine (State.limitRetry_moves ..).after (by decide) ?_
    | with_reducible refine (State.startTry_moves ..).after (by decide) ?_
    | with_reducible refine (Moves.fold _ _ _ ?_).behind ?_
    | intro _
    | split
    | ((conv => arg 3; with_reducible whnf); split)))

theorem execCaptureComplete_moves (x0 : Eng) (x1 : JobIx) (s : State) {t : State} (h : (execCaptureComplete x0 x1 s) = .next t) :
    Moves [.lane, .pool, .pwr, .recv] s t := by
  unfold execCaptureComplete at h
  repeat' (first | contradiction | (injection h with h; subst h) | split at h)
  all_goals (repeat' (first
    | with_reducible exact Moves.refl _ _
    | with_reducible assumption
    | extract_lets
    | with_reducible refine Moves.ite ?_ ?_
    | with_reducible refine (State.modJob_moves ..).after (by decide) ?_
    | with_reducible refine (State.askDeep_moves ..).after (by decide) ?_
    | with_reducible refine (Moves.fold _ _ _ ?_).behind ?_
    | intro _
    | split
    | ((conv => arg 3; with_reducible whnf); split)))

theorem execDeepDecodeDone_moves (x0 : DecIx) (x1 : Eng) (x2 : JobIx) (x3 : SectorAt) (s : State) {t : State} (h : (execDeepDecodeDone x0 x1 x2 x3 s) = .next t) :
    Moves [.slice, .lane, .pool, .trc, .spn, .media, .q, .evr, .nor, .recv, .det, .headSrv, .map] s t := by
  unfold execDeepDecodeDone at h
  repeat' (first | contradiction | (injection h with h; subst h) | split at h)
  all_goals (repeat' (first
    | with_reducible exact Moves.refl _ _
    | with_reducible assumption
    | extract_lets
    | with_reducible refine Moves.ite ?_ ?_
    | with_reducible refine (State.recovered_moves ..).after (by decide) ?_
    | with_reducible refine (State.modJob_moves ..).after (by decide) ?_
    | with_reducible refine (State.unrecovered_moves ..).after (by decide) ?_
    | with_reducible refine (Moves.fold _ _ _ ?_).behind ?_
    | intro _
    | split
    | ((conv => arg 3; with_reducible whnf); split)))

theorem State.offlineEnded_moves (s : State) (x1 : DecIx) (x2 : Eng) (x3 : JobIx) (x4 : CwOutcome) (x5 : BitVec 32928) :
    Moves [.slice, .lane, .pool, .trc, .spn, .media, .q, .pwr, .evr, .nor, .recv, .det, .headSrv, .map] s (State.offlineEnded s x1 x2 x3 x4 x5) := by
  unfold State.offlineEnded
  repeat' (first
    | with_reducible exact Moves.refl _ _
    | with_reducible assumption
    | extract_lets
    | with_reducible refine Moves.ite ?_ ?_
    | with_reducible refine (State.releaseEngine_moves ..).after (by decide) ?_
    | with_reducible refine (State.recovered_moves ..).after (by decide) ?_
    | with_reducible refine (State.modJob_moves ..).after (by decide) ?_
    | with_reducible refine (State.tryFailed_moves ..).after (by decide) ?_
    | with_reducible refine (Moves.fold _ _ _ ?_).behind ?_
    | intro _
    | split
    | ((conv => arg 3; with_reducible whnf); split))

theorem State.reserveDeep_moves (s : State) (x1 : DecIx) (x2 : Eng) (x3 : JobIx) :
    Moves [.pool, .trc, .evr] s (State.reserveDeep s x1 x2 x3) := by
  unfold State.reserveDeep
  repeat' (first
    | with_reducible exact Moves.refl _ _
    | with_reducible assumption
    | extract_lets
    | with_reducible refine Moves.ite ?_ ?_
    | with_reducible refine (State.award_moves ..).after (by decide) ?_
    | with_reducible refine (State.modPool_moves ..).after (by decide) ?_
    | with_reducible refine (Moves.fold _ _ _ ?_).behind ?_
    | intro _
    | split
    | ((conv => arg 3; with_reducible whnf); split))

theorem State.requeueStep_moves (s : State) (x1 : Eng) (x2 : JobIx) :
    Moves [.pool, .q, .recv] s (State.requeueStep s x1 x2) := by
  unfold State.requeueStep
  repeat' (first
    | with_reducible exact Moves.refl _ _
    | with_reducible assumption
    | extract_lets
    | with_reducible refine Moves.ite ?_ ?_
    | with_reducible refine (State.releaseJob_moves ..).after (by decide) ?_
    | with_reducible refine (State.modJob_moves ..).after (by decide) ?_
    | with_reducible refine (Moves.fold _ _ _ ?_).behind ?_
    | intro _
    | split
    | ((conv => arg 3; with_reducible whnf); split))

theorem execGuardTimerExpiry_moves (x0 : Eng) (x1 : JobIx) (s : State) {t : State} (h : (execGuardTimerExpiry x0 x1 s) = .next t) :
    Moves [.pool, .trc, .q, .evr, .recv] s t := by
  unfold execGuardTimerExpiry at h
  repeat' (first | contradiction | (injection h with h; subst h) | split at h)
  all_goals (repeat' (first
    | with_reducible exact Moves.refl _ _
    | with_reducible assumption
    | extract_lets
    | with_reducible refine Moves.ite ?_ ?_
    | with_reducible refine (State.reserveDeep_moves ..).after (by decide) ?_
    | with_reducible refine (State.requeueStep_moves ..).after (by decide) ?_
    | with_reducible refine (State.takeCapture_moves ..).after (by decide) ?_
    | with_reducible refine (State.modPool_moves ..).after (by decide) ?_
    | with_reducible refine (State.condition_moves ..).after (by decide) ?_
    | with_reducible refine (State.saturated_moves ..).after (by decide) ?_
    | with_reducible refine (Moves.fold _ _ _ ?_).behind ?_
    | intro _
    | split
    | ((conv => arg 3; with_reducible whnf); split)))

theorem execDecoderRequest_moves (x0 : ReqIx) (x1 : DecoderAsk) (s : State) {t : State} (h : (execDecoderRequest x0 x1 s) = .next t) :
    Moves [.lane, .pool, .pwr, .recv] s t := by
  unfold execDecoderRequest at h
  repeat' (first | contradiction | (injection h with h; subst h) | split at h)
  all_goals (repeat' (first
    | with_reducible exact Moves.refl _ _
    | with_reducible assumption
    | extract_lets
    | with_reducible refine Moves.ite ?_ ?_
    | with_reducible refine (State.request_moves ..).after (by decide) ?_
    | with_reducible refine (Moves.fold _ _ _ ?_).behind ?_
    | intro _
    | split
    | ((conv => arg 3; with_reducible whnf); split)))

theorem execDecoderArbitration_moves (x0 : DecIx) (s : State) {t : State} (h : (execDecoderArbitration x0 s) = .next t) :
    Moves [.pool, .trc, .evr] s t := by
  unfold execDecoderArbitration at h
  repeat' (first | contradiction | (injection h with h; subst h) | split at h)
  all_goals (repeat' (first
    | with_reducible exact Moves.refl _ _
    | with_reducible assumption
    | extract_lets
    | with_reducible refine Moves.ite ?_ ?_
    | with_reducible refine (State.modPool_moves ..).after (by decide) ?_
    | with_reducible refine (State.decide__moves ..).after (by decide) ?_
    | with_reducible refine Moves.pair1 (by assumption) ?_
    | with_reducible refine Moves.pair2 (by assumption) ?_
    | with_reducible refine (Moves.fold _ _ _ ?_).behind ?_
    | intro _
    | split
    | ((conv => arg 3; with_reducible whnf); split)))

theorem State.returnSlot_moves (s : State) (x1 : LaneIx) (x2 : SlotIx) :
    Moves [.lane, .pool, .trc, .pwr, .evr, .recv] s (State.returnSlot s x1 x2) := by
  unfold State.returnSlot
  repeat' (first
    | with_reducible exact Moves.refl _ _
    | with_reducible assumption
    | extract_lets
    | with_reducible refine Moves.ite ?_ ?_
    | with_reducible refine (State.modSlot_moves ..).after (by decide) ?_
    | with_reducible refine (State.endCodeword_moves ..).after (by decide) ?_
    | with_reducible refine (Moves.fold _ _ _ ?_).behind ?_
    | intro _
    | split
    | ((conv => arg 3; with_reducible whnf); split))

theorem State.failDecoder_moves (s : State) (x1 : DecIx) :
    Moves [.lane, .pool, .trc, .pwr, .evr, .recv] s (State.failDecoder s x1) := by
  unfold State.failDecoder
  repeat' (first
    | with_reducible exact Moves.refl _ _
    | with_reducible assumption
    | extract_lets
    | with_reducible refine Moves.ite ?_ ?_
    | with_reducible refine (State.modPool_moves ..).after (by decide) ?_
    | with_reducible refine (State.condition_moves ..).after (by decide) ?_
    | with_reducible refine (State.returnSlot_moves ..).after (by decide) ?_
    | with_reducible refine (State.modJob_moves ..).after (by decide) ?_
    | with_reducible refine (State.guardWait_moves ..).after (by decide) ?_
    | with_reducible refine (State.prepare_moves ..).after (by decide) ?_
    | with_reducible refine (State.servePool_moves ..).after (by decide) ?_
    | with_reducible refine (Moves.fold _ _ _ ?_).behind ?_
    | intro _
    | split
    | ((conv => arg 3; with_reducible whnf); split))

theorem execDecoderEngineFail_moves (x0 : DecIx) (s : State) {t : State} (h : (execDecoderEngineFail x0 s) = .next t) :
    Moves [.lane, .pool, .trc, .pwr, .evr, .recv] s t := by
  unfold execDecoderEngineFail at h
  repeat' (first | contradiction | (injection h with h; subst h) | split at h)
  all_goals (repeat' (first
    | with_reducible exact Moves.refl _ _
    | with_reducible assumption
    | extract_lets
    | with_reducible refine Moves.ite ?_ ?_
    | with_reducible refine (State.failDecoder_moves ..).after (by decide) ?_
    | with_reducible refine (Moves.fold _ _ _ ?_).behind ?_
    | intro _
    | split
    | ((conv => arg 3; with_reducible whnf); split)))

theorem State.spareState_moves (s : State) (x1 : Eng) :
    Moves [.trc, .evr, .recv] s (State.spareState s x1) := by
  unfold State.spareState
  repeat' (first
    | with_reducible exact Moves.refl _ _
    | with_reducible assumption
    | extract_lets
    | with_reducible refine Moves.ite ?_ ?_
    | with_reducible refine (State.condRec_moves ..).after (by decide) ?_
    | with_reducible refine (State.modRec_moves ..).after (by decide) ?_
    | with_reducible refine (Moves.fold _ _ _ ?_).behind ?_
    | intro _
    | split
    | ((conv => arg 3; with_reducible whnf); split))

theorem State.emitSpare_moves (s : State) (x1 : Eng) (x2 : SectorAt) (x3 : BitVec 36864) :
    Moves [.out] s (State.emitSpare s x1 x2 x3) := by
  unfold State.emitSpare
  repeat' (first
    | with_reducible exact Moves.refl _ _
    | with_reducible assumption
    | extract_lets
    | with_reducible refine Moves.ite ?_ ?_
    | with_reducible refine (State.modOut_moves ..).after (by decide) ?_
    | with_reducible refine (Moves.fold _ _ _ ?_).behind ?_
    | intro _
    | split
    | ((conv => arg 3; with_reducible whnf); split))

theorem execReallocate_moves (x0 : Eng) (s : State) {t : State} (h : (execReallocate x0 s) = .next t) :
    Moves [.trc, .media, .evr, .nor, .out, .recv, .wr, .map] s t := by
  unfold execReallocate at h
  repeat' (first | contradiction | (injection h with h; subst h) | split at h)
  all_goals try dsimp only
  all_goals (repeat' (first
    | with_reducible exact Moves.refl _ _
    | with_reducible assumption
    | extract_lets
    | with_reducible refine Moves.ite ?_ ?_
    | with_reducible refine (State.modRec_moves ..).after (by decide) ?_
    | with_reducible refine (State.addDefect_moves ..).after (by decide) ?_
    | with_reducible refine (State.emitSpare_moves ..).after (by decide) ?_
    | with_reducible refine (State.suspect_moves ..).after (by decide) ?_
    | with_reducible refine (State.modWr_moves ..).after (by decide) ?_
    | with_reducible refine (State.saturated_moves ..).after (by decide) ?_
    | with_reducible refine (State.modMedia_moves ..).after (by decide) ?_
    | with_reducible refine (State.modNor_moves _ _ (by intro n; repeat' (first | rfl | extract_lets | split))).after (by decide) ?_
    | with_reducible refine (State.spareState_moves ..).after (by decide) ?_
    | with_reducible refine (Moves.fold _ _ _ ?_).behind ?_
    | intro _
    | split
    | ((conv => arg 3; with_reducible whnf); split)))

theorem execRemapActivate_moves (x0 : Eng) (x1 : Nat) (s : State) {t : State} (h : (execRemapActivate x0 x1 s) = .next t) :
    Moves [.free, .trc, .media, .host, .evr, .nor, .out, .recv, .zdc, .map] s t := by
  unfold execRemapActivate at h
  repeat' (first | contradiction | (injection h with h; subst h) | split at h)
  all_goals (repeat' (first
    | with_reducible exact Moves.refl _ _
    | with_reducible assumption
    | extract_lets
    | with_reducible refine Moves.ite ?_ ?_
    | with_reducible refine (State.modRec_moves ..).after (by decide) ?_
    | with_reducible refine (State.modMedia_moves ..).after (by decide) ?_
    | with_reducible refine (State.modNor_moves _ _ (by intro n; repeat' (first | rfl | extract_lets | split))).after (by decide) ?_
    | with_reducible refine (State.setZone_moves ..).after (by decide) ?_
    | with_reducible refine (State.addDefect_moves ..).after (by decide) ?_
    | with_reducible refine (Moves.fold _ _ _ ?_).behind ?_
    | intro _
    | split
    | ((conv => arg 3; with_reducible whnf); split)))

theorem execPoolStatus_moves (x0 : Packet) (s : State) {t : State} (h : (execPoolStatus x0 s) = .next t) :
    Moves [.trc, .host, .het, .evr, .out] s t := by
  unfold execPoolStatus at h
  repeat' (first | contradiction | (injection h with h; subst h) | split at h)
  all_goals (repeat' (first
    | with_reducible exact Moves.refl _ _
    | with_reducible assumption
    | extract_lets
    | with_reducible refine Moves.ite ?_ ?_
    | with_reducible refine Moves.itePkt ?_ ?_
    | with_reducible refine runPacket_moves (by decide) (fun s => ?_)
    | with_reducible refine (PktRes.report_moves ..).after (by decide) ?_
    | with_reducible refine (Moves.fold _ _ _ ?_).behind ?_
    | intro _
    | split
    | ((conv => arg 3; with_reducible whnf); split)))

theorem opPoolConfig_moves (x0 : Packet) (s : State) :
    Moves [.pool] s (opPoolConfig x0 s).state := by
  unfold opPoolConfig
  repeat' (first
    | with_reducible exact Moves.refl _ _
    | with_reducible assumption
    | extract_lets
    | with_reducible refine Moves.ite ?_ ?_
    | with_reducible refine Moves.itePkt ?_ ?_
    | with_reducible refine (State.modPool_moves ..).after (by decide) ?_
    | with_reducible refine (Moves.fold _ _ _ ?_).behind ?_
    | intro _
    | split
    | ((conv => arg 3; with_reducible whnf); split))

theorem execPoolConfig_moves (x0 : Packet) (s : State) {t : State} (h : (execPoolConfig x0 s) = .next t) :
    Moves [.pool, .trc, .host, .het, .evr, .out] s t := by
  unfold execPoolConfig at h
  repeat' (first | contradiction | (injection h with h; subst h) | split at h)
  all_goals (repeat' (first
    | with_reducible exact Moves.refl _ _
    | with_reducible assumption
    | extract_lets
    | with_reducible refine Moves.ite ?_ ?_
    | with_reducible refine Moves.itePkt ?_ ?_
    | with_reducible refine (opPoolConfig_moves ..).after (by decide) ?_
    | with_reducible refine runPacket_moves (by decide) (fun s => ?_)
    | with_reducible refine (Moves.fold _ _ _ ?_).behind ?_
    | intro _
    | split
    | ((conv => arg 3; with_reducible whnf); split)))

theorem execPoolEngine_moves (x0 : Packet) (s : State) {t : State} (h : (execPoolEngine x0 s) = .next t) :
    Moves [.trc, .host, .het, .evr, .out] s t := by
  unfold execPoolEngine at h
  repeat' (first | contradiction | (injection h with h; subst h) | split at h)
  all_goals (repeat' (first
    | with_reducible exact Moves.refl _ _
    | with_reducible assumption
    | extract_lets
    | with_reducible refine Moves.ite ?_ ?_
    | with_reducible refine Moves.itePkt ?_ ?_
    | with_reducible refine runPacket_moves (by decide) (fun s => ?_)
    | with_reducible refine (Moves.fold _ _ _ ?_).behind ?_
    | intro _
    | split
    | ((conv => arg 3; with_reducible whnf); split)))

theorem execPoolRequester_moves (x0 : Packet) (s : State) {t : State} (h : (execPoolRequester x0 s) = .next t) :
    Moves [.trc, .host, .het, .evr, .out] s t := by
  unfold execPoolRequester at h
  repeat' (first | contradiction | (injection h with h; subst h) | split at h)
  all_goals (repeat' (first
    | with_reducible exact Moves.refl _ _
    | with_reducible assumption
    | extract_lets
    | with_reducible refine Moves.ite ?_ ?_
    | with_reducible refine Moves.itePkt ?_ ?_
    | with_reducible refine runPacket_moves (by decide) (fun s => ?_)
    | with_reducible refine (Moves.fold _ _ _ ?_).behind ?_
    | intro _
    | split
    | ((conv => arg 3; with_reducible whnf); split)))

theorem opPoolClear_moves (x0 : Packet) (s : State) :
    Moves [.pool] s (opPoolClear x0 s).state := by
  unfold opPoolClear
  repeat' (first
    | with_reducible exact Moves.refl _ _
    | with_reducible assumption
    | extract_lets
    | with_reducible refine Moves.ite ?_ ?_
    | with_reducible refine Moves.itePkt ?_ ?_
    | with_reducible refine (State.modPool_moves ..).after (by decide) ?_
    | with_reducible refine (Moves.fold _ _ _ ?_).behind ?_
    | intro _
    | split
    | ((conv => arg 3; with_reducible whnf); split))

theorem execPoolClear_moves (x0 : Packet) (s : State) {t : State} (h : (execPoolClear x0 s) = .next t) :
    Moves [.pool, .trc, .host, .het, .evr, .out] s t := by
  unfold execPoolClear at h
  repeat' (first | contradiction | (injection h with h; subst h) | split at h)
  all_goals (repeat' (first
    | with_reducible exact Moves.refl _ _
    | with_reducible assumption
    | extract_lets
    | with_reducible refine Moves.ite ?_ ?_
    | with_reducible refine Moves.itePkt ?_ ?_
    | with_reducible refine (opPoolClear_moves ..).after (by decide) ?_
    | with_reducible refine runPacket_moves (by decide) (fun s => ?_)
    | with_reducible refine (Moves.fold _ _ _ ?_).behind ?_
    | intro _
    | split
    | ((conv => arg 3; with_reducible whnf); split)))

theorem opRecConfig_moves (x0 : Packet) (s : State) :
    Moves [.recv] s (opRecConfig x0 s).state := by
  unfold opRecConfig
  repeat' (first
    | with_reducible exact Moves.refl _ _
    | with_reducible assumption
    | extract_lets
    | with_reducible refine Moves.ite ?_ ?_
    | with_reducible refine Moves.itePkt ?_ ?_
    | with_reducible refine (State.modRec_moves ..).after (by decide) ?_
    | with_reducible refine (Moves.fold _ _ _ ?_).behind ?_
    | intro _
    | split
    | ((conv => arg 3; with_reducible whnf); split))

theorem execRecConfig_moves (x0 : Packet) (s : State) {t : State} (h : (execRecConfig x0 s) = .next t) :
    Moves [.trc, .host, .het, .evr, .out, .recv] s t := by
  unfold execRecConfig at h
  repeat' (first | contradiction | (injection h with h; subst h) | split at h)
  all_goals (repeat' (first
    | with_reducible exact Moves.refl _ _
    | with_reducible assumption
    | extract_lets
    | with_reducible refine Moves.ite ?_ ?_
    | with_reducible refine Moves.itePkt ?_ ?_
    | with_reducible refine (opRecConfig_moves ..).after (by decide) ?_
    | with_reducible refine runPacket_moves (by decide) (fun s => ?_)
    | with_reducible refine (Moves.fold _ _ _ ?_).behind ?_
    | intro _
    | split
    | ((conv => arg 3; with_reducible whnf); split)))

theorem execRecStatus_moves (x0 : Packet) (s : State) {t : State} (h : (execRecStatus x0 s) = .next t) :
    Moves [.trc, .host, .het, .evr, .out] s t := by
  unfold execRecStatus at h
  repeat' (first | contradiction | (injection h with h; subst h) | split at h)
  all_goals (repeat' (first
    | with_reducible exact Moves.refl _ _
    | with_reducible assumption
    | extract_lets
    | with_reducible refine Moves.ite ?_ ?_
    | with_reducible refine Moves.itePkt ?_ ?_
    | with_reducible refine runPacket_moves (by decide) (fun s => ?_)
    | with_reducible refine (PktRes.report_moves ..).after (by decide) ?_
    | with_reducible refine (Moves.fold _ _ _ ?_).behind ?_
    | intro _
    | split
    | ((conv => arg 3; with_reducible whnf); split)))

theorem opRecClear_moves (x0 : Packet) (s : State) :
    Moves [.recv] s (opRecClear x0 s).state := by
  unfold opRecClear
  repeat' (first
    | with_reducible exact Moves.refl _ _
    | with_reducible assumption
    | extract_lets
    | with_reducible refine Moves.ite ?_ ?_
    | with_reducible refine Moves.itePkt ?_ ?_
    | with_reducible refine (State.modRec_moves ..).after (by decide) ?_
    | with_reducible refine (Moves.fold _ _ _ ?_).behind ?_
    | intro _
    | split
    | ((conv => arg 3; with_reducible whnf); split))

theorem execRecClear_moves (x0 : Packet) (s : State) {t : State} (h : (execRecClear x0 s) = .next t) :
    Moves [.trc, .host, .het, .evr, .out, .recv] s t := by
  unfold execRecClear at h
  repeat' (first | contradiction | (injection h with h; subst h) | split at h)
  all_goals (repeat' (first
    | with_reducible exact Moves.refl _ _
    | with_reducible assumption
    | extract_lets
    | with_reducible refine Moves.ite ?_ ?_
    | with_reducible refine Moves.itePkt ?_ ?_
    | with_reducible refine (opRecClear_moves ..).after (by decide) ?_
    | with_reducible refine runPacket_moves (by decide) (fun s => ?_)
    | with_reducible refine (Moves.fold _ _ _ ?_).behind ?_
    | intro _
    | split
    | ((conv => arg 3; with_reducible whnf); split)))

end Sys2Proof.Machine
end

