-- ==== Sys2Proof/Laws/MovesLane.lean ====
section
/-! SUPPORT. What each operation and each command of Machine/Lane.lean can touch. -/

namespace Sys2Proof.Machine
open Sys2Proof
set_option linter.all false
set_option Elab.async false

theorem execSyncDecision_moves (x0 : Head) (x1 : LaneIx) (x2 : SlotIx) (s : State) {t : State} (h : (execSyncDecision x0 x1 x2 s) = .next t) :
    Moves [.lane, .trc, .evr] s t := by
  unfold execSyncDecision at h
  repeat' (first | contradiction | (injection h with h; subst h) | split at h)
  all_goals (repeat' (first
    | with_reducible exact Moves.refl _ _
    | with_reducible assumption
    | extract_lets
    | with_reducible refine Moves.ite ?_ ?_
    | with_reducible refine (State.decideSync_moves ..).after (by decide) ?_
    | with_reducible refine (Moves.fold _ _ _ ?_).behind ?_
    | intro _
    | split
    | ((conv => arg 3; with_reducible whnf); split)))

theorem execFirstPassDone_moves (x0 : LaneIx) (x1 : SlotIx) (s : State) {t : State} (h : (execFirstPassDone x0 x1 s) = .next t) :
    Moves [.lane, .pool, .pwr, .recv] s t := by
  unfold execFirstPassDone at h
  repeat' (first | contradiction | (injection h with h; subst h) | split at h)
  all_goals (repeat' (first
    | with_reducible exact Moves.refl _ _
    | with_reducible assumption
    | extract_lets
    | with_reducible refine Moves.ite ?_ ?_
    | with_reducible refine (State.modSlot_moves ..).after (by decide) ?_
    | with_reducible refine (State.request_moves ..).after (by decide) ?_
    | with_reducible refine (Moves.fold _ _ _ ?_).behind ?_
    | intro _
    | split
    | ((conv => arg 3; with_reducible whnf); split)))

theorem execIterationDetectorPassDone_moves (x0 : LaneIx) (x1 : SlotIx) (s : State) {t : State} (h : (execIterationDetectorPassDone x0 x1 s) = .next t) :
    Moves [.lane] s t := by
  unfold execIterationDetectorPassDone at h
  repeat' (first | contradiction | (injection h with h; subst h) | split at h)
  all_goals (repeat' (first
    | with_reducible exact Moves.refl _ _
    | with_reducible assumption
    | extract_lets
    | with_reducible refine Moves.ite ?_ ?_
    | with_reducible refine (State.modSlot_moves ..).after (by decide) ?_
    | with_reducible refine (Moves.fold _ _ _ ?_).behind ?_
    | intro _
    | split
    | ((conv => arg 3; with_reducible whnf); split)))

theorem State.showGlob_moves (s : State) (x1 : DecIx) (x2 : Nat) :
    Moves [.pool] s (State.showGlob s x1 x2) := by
  unfold State.showGlob
  repeat' (first
    | with_reducible exact Moves.refl _ _
    | with_reducible assumption
    | extract_lets
    | with_reducible refine Moves.ite ?_ ?_
    | with_reducible refine (State.modPool_moves ..).after (by decide) ?_
    | with_reducible refine (Moves.fold _ _ _ ?_).behind ?_
    | intro _
    | split
    | ((conv => arg 3; with_reducible whnf); split))

theorem State.slotIteration_moves (s : State) (x1 : DecIx) (x2 : LaneIx) (x3 : SlotIx) (x4 : Slot) :
    Moves [.lane, .pool, .trc, .pwr, .evr, .recv] s (State.slotIteration s x1 x2 x3 x4) := by
  unfold State.slotIteration
  repeat' (first
    | with_reducible exact Moves.refl _ _
    | with_reducible assumption
    | extract_lets
    | with_reducible refine Moves.ite ?_ ?_
    | with_reducible refine (State.modSlot_moves ..).after (by decide) ?_
    | with_reducible refine (State.showGlob_moves ..).after (by decide) ?_
    | with_reducible refine (State.endCodeword_moves ..).after (by decide) ?_
    | with_reducible refine (Moves.fold _ _ _ ?_).behind ?_
    | intro _
    | split
    | ((conv => arg 3; with_reducible whnf); split))

theorem State.endCut_moves (s : State) (x1 : DecIx) (x2 : LaneIx) (x3 : SlotIx) :
    Moves [.lane, .pool, .trc, .pwr, .evr, .recv] s (State.endCut s x1 x2 x3) := by
  unfold State.endCut
  repeat' (first
    | with_reducible exact Moves.refl _ _
    | with_reducible assumption
    | extract_lets
    | with_reducible refine Moves.ite ?_ ?_
    | with_reducible refine (State.endCodeword_moves ..).after (by decide) ?_
    | with_reducible refine (State.slotIteration_moves ..).after (by decide) ?_
    | with_reducible refine (State.modSlot_moves ..).after (by decide) ?_
    | with_reducible refine (Moves.fold _ _ _ ?_).behind ?_
    | intro _
    | split
    | ((conv => arg 3; with_reducible whnf); split))

theorem execLocalIterationEnd_moves (x0 : DecIx) (x1 : ReqFor) (s : State) {t : State} (h : (execLocalIterationEnd x0 x1 s) = .next t) :
    Moves [.slice, .lane, .pool, .trc, .spn, .media, .q, .pwr, .evr, .nor, .recv, .det, .headSrv, .map] s t := by
  unfold execLocalIterationEnd at h
  repeat' (first | contradiction | (injection h with h; subst h) | split at h)
  all_goals (repeat' (first
    | with_reducible exact Moves.refl _ _
    | with_reducible assumption
    | extract_lets
    | with_reducible refine Moves.ite ?_ ?_
    | with_reducible refine (State.endCut_moves ..).after (by decide) ?_
    | with_reducible refine (State.slotIteration_moves ..).after (by decide) ?_
    | with_reducible refine (State.modJob_moves ..).after (by decide) ?_
    | with_reducible refine (State.showGlob_moves ..).after (by decide) ?_
    | with_reducible refine (State.offlineEnded_moves ..).after (by decide) ?_
    | with_reducible refine (Moves.fold _ _ _ ?_).behind ?_
    | intro _
    | split
    | ((conv => arg 3; with_reducible whnf); split)))

theorem State.engineClock_moves (s : State) (x1 : DecIx) :
    Moves [.lane, .pool, .trc, .pwr, .evr, .recv] s (State.engineClock s x1) := by
  unfold State.engineClock
  repeat' (first
    | with_reducible exact Moves.refl _ _
    | with_reducible assumption
    | extract_lets
    | with_reducible refine Moves.ite ?_ ?_
    | with_reducible refine (State.releaseEngine_moves ..).after (by decide) ?_
    | with_reducible refine (State.endCut_moves ..).after (by decide) ?_
    | with_reducible refine (Moves.fold _ _ _ ?_).behind ?_
    | intro _
    | split
    | ((conv => arg 3; with_reducible whnf); split))

theorem execCodewordCheckDone_moves (x0 : DecIx) (x1 : ReqFor) (s : State) {t : State} (h : (execCodewordCheckDone x0 x1 s) = .next t) :
    Moves [.slice, .lane, .pool, .trc, .spn, .media, .q, .pwr, .evr, .nor, .recv, .det, .headSrv, .map] s t := by
  unfold execCodewordCheckDone at h
  repeat' (first | contradiction | (injection h with h; subst h) | split at h)
  all_goals (repeat' (first
    | with_reducible exact Moves.refl _ _
    | with_reducible assumption
    | extract_lets
    | with_reducible refine Moves.ite ?_ ?_
    | with_reducible refine (State.modSlot_moves ..).after (by decide) ?_
    | with_reducible refine (State.endCodeword_moves ..).after (by decide) ?_
    | with_reducible refine (State.offlineEnded_moves ..).after (by decide) ?_
    | with_reducible refine (Moves.fold _ _ _ ?_).behind ?_
    | intro _
    | split
    | ((conv => arg 3; with_reducible whnf); split)))

theorem execStagingAccept_moves (x0 : LaneIx) (x1 : SlotIx) (s : State) {t : State} (h : (execStagingAccept x0 x1 s) = .next t) :
    Moves [.slice, .lane, .pool, .trc, .spn, .media, .q, .evr, .nor, .recv, .det, .headSrv, .map] s t := by
  unfold execStagingAccept at h
  repeat' (first | contradiction | (injection h with h; subst h) | split at h)
  all_goals (repeat' (first
    | with_reducible exact Moves.refl _ _
    | with_reducible assumption
    | extract_lets
    | with_reducible refine Moves.ite ?_ ?_
    | with_reducible refine (State.freeSlot_moves ..).after (by decide) ?_
    | with_reducible refine (State.recovered_moves ..).after (by decide) ?_
    | with_reducible refine (State.modCtx_moves ..).after (by decide) ?_
    | with_reducible refine (State.deliver_moves ..).after (by decide) ?_
    | with_reducible refine (Moves.fold _ _ _ ?_).behind ?_
    | intro _
    | split
    | ((conv => arg 3; with_reducible whnf); split)))

theorem opDetConfig_moves (x0 : Packet) (s : State) :
    Moves [.nor, .map] s (opDetConfig x0 s).state := by
  unfold opDetConfig
  repeat' (first
    | with_reducible exact Moves.refl _ _
    | with_reducible assumption
    | extract_lets
    | with_reducible refine Moves.ite ?_ ?_
    | with_reducible refine Moves.itePkt ?_ ?_
    | with_reducible refine (State.putBand_moves ..).after (by decide) ?_
    | with_reducible refine (PktRes.fail_moves ..).after (by decide) ?_
    | with_reducible refine (Moves.fold _ _ _ ?_).behind ?_
    | intro _
    | split
    | ((conv => arg 3; with_reducible whnf); split))

theorem execDetConfig_moves (x0 : Packet) (s : State) {t : State} (h : (execDetConfig x0 s) = .next t) :
    Moves [.trc, .host, .het, .evr, .nor, .out, .map] s t := by
  unfold execDetConfig at h
  repeat' (first | contradiction | (injection h with h; subst h) | split at h)
  all_goals (repeat' (first
    | with_reducible exact Moves.refl _ _
    | with_reducible assumption
    | extract_lets
    | with_reducible refine Moves.ite ?_ ?_
    | with_reducible refine Moves.itePkt ?_ ?_
    | with_reducible refine (opDetConfig_moves ..).after (by decide) ?_
    | with_reducible refine runPacket_moves (by decide) (fun s => ?_)
    | with_reducible refine (Moves.fold _ _ _ ?_).behind ?_
    | intro _
    | split
    | ((conv => arg 3; with_reducible whnf); split)))

theorem opDetTaps_moves (x0 : Packet) (s : State) :
    Moves [.nor, .map] s (opDetTaps x0 s).state := by
  unfold opDetTaps
  repeat' (first
    | with_reducible exact Moves.refl _ _
    | with_reducible assumption
    | extract_lets
    | with_reducible refine Moves.ite ?_ ?_
    | with_reducible refine Moves.itePkt ?_ ?_
    | with_reducible refine (State.putBand_moves ..).after (by decide) ?_
    | with_reducible refine (PktRes.fail_moves ..).after (by decide) ?_
    | with_reducible refine (Moves.fold _ _ _ ?_).behind ?_
    | intro _
    | split
    | ((conv => arg 3; with_reducible whnf); split))

theorem execDetTaps_moves (x0 : Packet) (s : State) {t : State} (h : (execDetTaps x0 s) = .next t) :
    Moves [.trc, .host, .het, .evr, .nor, .out, .map] s t := by
  unfold execDetTaps at h
  repeat' (first | contradiction | (injection h with h; subst h) | split at h)
  all_goals (repeat' (first
    | with_reducible exact Moves.refl _ _
    | with_reducible assumption
    | extract_lets
    | with_reducible refine Moves.ite ?_ ?_
    | with_reducible refine Moves.itePkt ?_ ?_
    | with_reducible refine (opDetTaps_moves ..).after (by decide) ?_
    | with_reducible refine runPacket_moves (by decide) (fun s => ?_)
    | with_reducible refine (Moves.fold _ _ _ ?_).behind ?_
    | intro _
    | split
    | ((conv => arg 3; with_reducible whnf); split)))

theorem opDetNp_moves (x0 : Packet) (s : State) :
    Moves [.nor, .map] s (opDetNp x0 s).state := by
  unfold opDetNp
  repeat' (first
    | with_reducible exact Moves.refl _ _
    | with_reducible assumption
    | extract_lets
    | with_reducible refine Moves.ite ?_ ?_
    | with_reducible refine Moves.itePkt ?_ ?_
    | with_reducible refine (State.putBand_moves ..).after (by decide) ?_
    | with_reducible refine (PktRes.fail_moves ..).after (by decide) ?_
    | with_reducible refine (Moves.fold _ _ _ ?_).behind ?_
    | intro _
    | split
    | ((conv => arg 3; with_reducible whnf); split))

theorem execDetNp_moves (x0 : Packet) (s : State) {t : State} (h : (execDetNp x0 s) = .next t) :
    Moves [.trc, .host, .het, .evr, .nor, .out, .map] s t := by
  unfold execDetNp at h
  repeat' (first | contradiction | (injection h with h; subst h) | split at h)
  all_goals (repeat' (first
    | with_reducible exact Moves.refl _ _
    | with_reducible assumption
    | extract_lets
    | with_reducible refine Moves.ite ?_ ?_
    | with_reducible refine Moves.itePkt ?_ ?_
    | with_reducible refine (opDetNp_moves ..).after (by decide) ?_
    | with_reducible refine runPacket_moves (by decide) (fun s => ?_)
    | with_reducible refine (Moves.fold _ _ _ ?_).behind ?_
    | intro _
    | split
    | ((conv => arg 3; with_reducible whnf); split)))

theorem execDetStatus_moves (x0 : Packet) (s : State) {t : State} (h : (execDetStatus x0 s) = .next t) :
    Moves [.trc, .host, .het, .evr, .out] s t := by
  unfold execDetStatus at h
  repeat' (first | contradiction | (injection h with h; subst h) | split at h)
  all_goals (repeat' (first
    | with_reducible exact Moves.refl _ _
    | with_reducible assumption
    | extract_lets
    | with_reducible refine Moves.ite ?_ ?_
    | with_reducible refine Moves.itePkt ?_ ?_
    | with_reducible refine runPacket_moves (by decide) (fun s => ?_)
    | with_reducible refine (PktRes.report_moves ..).after (by decide) ?_
    | with_reducible refine (Moves.fold _ _ _ ?_).behind ?_
    | intro _
    | split
    | ((conv => arg 3; with_reducible whnf); split)))

theorem opDetClear_moves (x0 : Packet) (s : State) :
    Moves [.lane] s (opDetClear x0 s).state := by
  unfold opDetClear
  repeat' (first
    | with_reducible exact Moves.refl _ _
    | with_reducible assumption
    | extract_lets
    | with_reducible refine Moves.ite ?_ ?_
    | with_reducible refine Moves.itePkt ?_ ?_
    | with_reducible refine (State.modLane_moves ..).after (by decide) ?_
    | with_reducible refine (Moves.fold _ _ _ ?_).behind ?_
    | intro _
    | split
    | ((conv => arg 3; with_reducible whnf); split))

theorem execDetClear_moves (x0 : Packet) (s : State) {t : State} (h : (execDetClear x0 s) = .next t) :
    Moves [.lane, .trc, .host, .het, .evr, .out] s t := by
  unfold execDetClear at h
  repeat' (first | contradiction | (injection h with h; subst h) | split at h)
  all_goals (repeat' (first
    | with_reducible exact Moves.refl _ _
    | with_reducible assumption
    | extract_lets
    | with_reducible refine Moves.ite ?_ ?_
    | with_reducible refine Moves.itePkt ?_ ?_
    | with_reducible refine (opDetClear_moves ..).after (by decide) ?_
    | with_reducible refine runPacket_moves (by decide) (fun s => ?_)
    | with_reducible refine (Moves.fold _ _ _ ?_).behind ?_
    | intro _
    | split
    | ((conv => arg 3; with_reducible whnf); split)))

end Sys2Proof.Machine
end

