-- ==== Sys2Proof/Laws/MovesWrite.lean ====
section
/-! SUPPORT. What each operation and each command of Machine/Write.lean can touch. -/

namespace Sys2Proof.Machine
open Sys2Proof
set_option linter.all false
set_option Elab.async false

theorem execWriteEncode_moves (x0 : CtxIx) (x1 : ℕ) (s : State) {t : State} (h : (execWriteEncode x0 x1 s) = .next t) :
    Moves [.q] s t := by
  unfold execWriteEncode at h
  repeat' (first | contradiction | (injection h with h; subst h) | split at h)
  all_goals (repeat' (first
    | with_reducible exact Moves.refl _ _
    | with_reducible assumption
    | extract_lets
    | with_reducible refine Moves.ite ?_ ?_
    | with_reducible refine (State.encodeBlock_moves ..).after (by decide) ?_
    | with_reducible refine (Moves.fold _ _ _ ?_).behind ?_
    | intro _
    | split
    | ((conv => arg 3; with_reducible whnf); split)))

theorem execWriterSlotRequest_moves (x0 : Head) (x1 : AngleStamp) (s : State) {t : State} (h : (execWriterSlotRequest x0 x1 s) = .next t) :
    Moves [.wsl, .wr] s t := by
  unfold execWriterSlotRequest at h
  repeat' (first | contradiction | (injection h with h; subst h) | split at h)
  all_goals (repeat' (first
    | with_reducible exact Moves.refl _ _
    | with_reducible assumption
    | extract_lets
    | with_reducible refine Moves.ite ?_ ?_
    | with_reducible refine (State.modWsl_moves ..).after (by decide) ?_
    | with_reducible refine (State.grantSlots_moves ..).after (by decide) ?_
    | with_reducible refine (Moves.fold _ _ _ ?_).behind ?_
    | intro _
    | split
    | ((conv => arg 3; with_reducible whnf); split)))

theorem State.shockGuard_moves (s : State) (x1 : Eng) (x2 : MemsSample) :
    Moves [.trc, .evr, .links, .wrg, .engSrv, .seq, .wr, .headSrv] s (State.shockGuard s x1 x2) := by
  unfold State.shockGuard
  repeat' (first
    | with_reducible exact Moves.refl _ _
    | with_reducible assumption
    | extract_lets
    | with_reducible refine Moves.ite ?_ ?_
    | with_reducible refine (State.modWrg_moves ..).after (by decide) ?_
    | with_reducible refine (State.saturated_moves ..).after (by decide) ?_
    | with_reducible refine (State.forceWriteOff_moves ..).after (by decide) ?_
    | with_reducible refine (Moves.fold _ _ _ ?_).behind ?_
    | intro _
    | split
    | ((conv => arg 3; with_reducible whnf); split))

theorem State.sensorFrozen_moves (s : State) :
    Moves [.mems, .trc, .evr, .wrg, .engSrv] s (State.sensorFrozen s) := by
  unfold State.sensorFrozen
  repeat' (first
    | with_reducible exact Moves.refl _ _
    | with_reducible assumption
    | extract_lets
    | with_reducible refine Moves.ite ?_ ?_
    | with_reducible refine (State.saturated_moves ..).after (by decide) ?_
    | with_reducible refine (State.condWrg_moves ..).after (by decide) ?_
    | with_reducible refine (State.modWrg_moves ..).after (by decide) ?_
    | with_reducible refine (State.modSrv_moves ..).after (by decide) ?_
    | with_reducible refine (Moves.fold _ _ _ ?_).behind ?_
    | intro _
    | split
    | ((conv => arg 3; with_reducible whnf); split)
    | with_reducible refine (Moves.set_mems _ _).after (by decide) ?_)

theorem execMemsSample_moves (x0 : MemsSample) (s : State) {t : State} (h : (execMemsSample x0 s) = .next t) :
    Moves [.mems, .trc, .evr, .links, .wrg, .engSrv, .seq, .wr, .headSrv] s t := by
  unfold execMemsSample at h
  repeat' (first | contradiction | (injection h with h; subst h) | split at h)
  all_goals (repeat' (first
    | with_reducible exact Moves.refl _ _
    | with_reducible assumption
    | extract_lets
    | with_reducible refine Moves.ite ?_ ?_
    | with_reducible refine (State.sensorFrozen_moves ..).after (by decide) ?_
    | with_reducible refine (State.modSrv_moves ..).after (by decide) ?_
    | with_reducible refine (State.shockGuard_moves ..).after (by decide) ?_
    | with_reducible refine (Moves.fold _ _ _ ?_).behind ?_
    | intro _
    | split
    | ((conv => arg 3; with_reducible whnf); split)
    | with_reducible refine (Moves.set_mems _ _).after (by decide) ?_))

theorem execMemsSampleTimeout_moves (s : State) {t : State} (h : (execMemsSampleTimeout s) = .next t) :
    Moves [.mems, .trc, .evr, .wrg, .engSrv] s t := by
  unfold execMemsSampleTimeout at h
  repeat' (first | contradiction | (injection h with h; subst h) | split at h)
  all_goals (repeat' (first
    | with_reducible exact Moves.refl _ _
    | with_reducible assumption
    | extract_lets
    | with_reducible refine Moves.ite ?_ ?_
    | with_reducible refine (State.sensorFrozen_moves ..).after (by decide) ?_
    | with_reducible refine (Moves.fold _ _ _ ?_).behind ?_
    | intro _
    | split
    | ((conv => arg 3; with_reducible whnf); split)))

theorem execSuspectRewrite_moves (x0 : Head) (s : State) {t : State} (h : (execSuspectRewrite x0 s) = .next t) :
    Moves [.wr] s t := by
  unfold execSuspectRewrite at h
  repeat' (first | contradiction | (injection h with h; subst h) | split at h)
  all_goals (repeat' (first
    | with_reducible exact Moves.refl _ _
    | with_reducible assumption
    | extract_lets
    | with_reducible refine Moves.ite ?_ ?_
    | with_reducible refine (State.modWr_moves ..).after (by decide) ?_
    | with_reducible refine (Moves.fold _ _ _ ?_).behind ?_
    | intro _
    | split
    | ((conv => arg 3; with_reducible whnf); split)))

theorem execSuspectSpareWrite_moves (x0 : Head) (s : State) {t : State} (h : (execSuspectSpareWrite x0 s) = .next t) :
    Moves [.free, .trc, .media, .host, .q, .evr, .nor, .out, .recv, .zdc, .wr, .map] s t := by
  unfold execSuspectSpareWrite at h
  repeat' (first | contradiction | (injection h with h; subst h) | split at h)
  all_goals (repeat' (first
    | with_reducible exact Moves.refl _ _
    | with_reducible assumption
    | extract_lets
    | with_reducible refine Moves.ite ?_ ?_
    | with_reducible refine (State.modWr_moves ..).after (by decide) ?_
    | with_reducible refine (State.writeFault_moves ..).after (by decide) ?_
    | with_reducible refine (State.queueRealloc_moves ..).after (by decide) ?_
    | with_reducible refine (Moves.fold _ _ _ ?_).behind ?_
    | intro _
    | split
    | ((conv => arg 3; with_reducible whnf); split)))

theorem opWrtConfig_moves (x0 : Packet) (s : State) :
    Moves [.nor, .wr, .map] s (opWrtConfig x0 s).state := by
  unfold opWrtConfig
  repeat' (first
    | with_reducible exact Moves.refl _ _
    | with_reducible assumption
    | extract_lets
    | with_reducible refine Moves.ite ?_ ?_
    | with_reducible refine Moves.itePkt ?_ ?_
    | with_reducible refine (PktRes.fail_moves ..).after (by decide) ?_
    | with_reducible refine (State.modNor_moves _ _ (by intro n; repeat' (first | rfl | extract_lets | split))).after (by decide) ?_
    | with_reducible refine (State.modWr_moves ..).after (by decide) ?_
    | with_reducible refine (State.modMap_moves ..).after (by decide) ?_
    | with_reducible refine (Moves.fold _ _ _ ?_).behind ?_
    | intro _
    | split
    | ((conv => arg 3; with_reducible whnf); split))

theorem execWrtConfig_moves (x0 : Packet) (s : State) {t : State} (h : (execWrtConfig x0 s) = .next t) :
    Moves [.trc, .host, .het, .evr, .nor, .out, .wr, .map] s t := by
  unfold execWrtConfig at h
  repeat' (first | contradiction | (injection h with h; subst h) | split at h)
  all_goals (repeat' (first
    | with_reducible exact Moves.refl _ _
    | with_reducible assumption
    | extract_lets
    | with_reducible refine Moves.ite ?_ ?_
    | with_reducible refine Moves.itePkt ?_ ?_
    | with_reducible refine runPacket_moves (by decide) (fun s => ?_)
    | with_reducible refine (opWrtConfig_moves ..).after (by decide) ?_
    | with_reducible refine (Moves.fold _ _ _ ?_).behind ?_
    | intro _
    | split
    | ((conv => arg 3; with_reducible whnf); split)))

theorem opWrtHead_moves (x0 : Packet) (s : State) :
    Moves [.free, .trc, .media, .host, .evr, .nor, .out, .zdc, .wr] s (opWrtHead x0 s).state := by
  unfold opWrtHead
  repeat' (first
    | with_reducible exact Moves.refl _ _
    | with_reducible assumption
    | extract_lets
    | with_reducible refine Moves.ite ?_ ?_
    | with_reducible refine Moves.itePkt ?_ ?_
    | with_reducible refine (PktRes.fail_moves ..).after (by decide) ?_
    | with_reducible refine (State.modWr_moves ..).after (by decide) ?_
    | with_reducible refine (State.writeEnabled_moves ..).after (by decide) ?_
    | with_reducible refine (State.modNor_moves _ _ (by intro n; repeat' (first | rfl | extract_lets | split))).after (by decide) ?_
    | with_reducible refine (Moves.fold _ _ _ ?_).behind ?_
    | intro _
    | split
    | ((conv => arg 3; with_reducible whnf); split))

theorem execWrtHead_moves (x0 : Packet) (s : State) {t : State} (h : (execWrtHead x0 s) = .next t) :
    Moves [.free, .trc, .media, .host, .het, .evr, .nor, .out, .zdc, .wr] s t := by
  unfold execWrtHead at h
  repeat' (first | contradiction | (injection h with h; subst h) | split at h)
  all_goals (repeat' (first
    | with_reducible exact Moves.refl _ _
    | with_reducible assumption
    | extract_lets
    | with_reducible refine Moves.ite ?_ ?_
    | with_reducible refine Moves.itePkt ?_ ?_
    | with_reducible refine runPacket_moves (by decide) (fun s => ?_)
    | with_reducible refine (opWrtHead_moves ..).after (by decide) ?_
    | with_reducible refine (Moves.fold _ _ _ ?_).behind ?_
    | intro _
    | split
    | ((conv => arg 3; with_reducible whnf); split)))

theorem opWrtGuard_moves (x0 : Packet) (s : State) :
    Moves [.wrg] s (opWrtGuard x0 s).state := by
  unfold opWrtGuard
  repeat' (first
    | with_reducible exact Moves.refl _ _
    | with_reducible assumption
    | extract_lets
    | with_reducible refine Moves.ite ?_ ?_
    | with_reducible refine Moves.itePkt ?_ ?_
    | with_reducible refine (State.modWrg_moves ..).after (by decide) ?_
    | with_reducible refine (Moves.fold _ _ _ ?_).behind ?_
    | intro _
    | split
    | ((conv => arg 3; with_reducible whnf); split))

theorem execWrtGuard_moves (x0 : Packet) (s : State) {t : State} (h : (execWrtGuard x0 s) = .next t) :
    Moves [.trc, .host, .het, .evr, .out, .wrg] s t := by
  unfold execWrtGuard at h
  repeat' (first | contradiction | (injection h with h; subst h) | split at h)
  all_goals (repeat' (first
    | with_reducible exact Moves.refl _ _
    | with_reducible assumption
    | extract_lets
    | with_reducible refine Moves.ite ?_ ?_
    | with_reducible refine Moves.itePkt ?_ ?_
    | with_reducible refine (opWrtGuard_moves ..).after (by decide) ?_
    | with_reducible refine runPacket_moves (by decide) (fun s => ?_)
    | with_reducible refine (Moves.fold _ _ _ ?_).behind ?_
    | intro _
    | split
    | ((conv => arg 3; with_reducible whnf); split)))

theorem execWrtStatus_moves (x0 : Packet) (s : State) {t : State} (h : (execWrtStatus x0 s) = .next t) :
    Moves [.trc, .host, .het, .evr, .out] s t := by
  unfold execWrtStatus at h
  repeat' (first | contradiction | (injection h with h; subst h) | split at h)
  all_goals (repeat' (first
    | with_reducible exact Moves.refl _ _
    | with_reducible assumption
    | extract_lets
    | with_reducible refine Moves.ite ?_ ?_
    | with_reducible refine Moves.itePkt ?_ ?_
    | with_reducible refine runPacket_moves (by decide) (fun s => ?_)
    | with_reducible refine (Moves.fold _ _ _ ?_).behind ?_
    | intro _
    | split
    | ((conv => arg 3; with_reducible whnf); split)))

theorem opWrtClear_moves (x0 : Packet) (s : State) :
    Moves [.wrg, .wr] s (opWrtClear x0 s).state := by
  unfold opWrtClear
  dsimp only
  repeat' (first
    | with_reducible exact Moves.refl _ _
    | with_reducible assumption
    | extract_lets
    | with_reducible refine Moves.ite ?_ ?_
    | with_reducible refine Moves.itePkt ?_ ?_
    | with_reducible refine (State.modWrg_moves ..).after (by decide) ?_
    | with_reducible refine (State.modWr_moves ..).after (by decide) ?_
    | with_reducible refine (Moves.fold _ _ _ ?_).behind ?_
    | intro _
    | split
    | ((conv => arg 3; with_reducible whnf); split))

theorem execWrtClear_moves (x0 : Packet) (s : State) {t : State} (h : (execWrtClear x0 s) = .next t) :
    Moves [.trc, .host, .het, .evr, .out, .wrg, .wr] s t := by
  unfold execWrtClear at h
  repeat' (first | contradiction | (injection h with h; subst h) | split at h)
  all_goals (repeat' (first
    | with_reducible exact Moves.refl _ _
    | with_reducible assumption
    | extract_lets
    | with_reducible refine Moves.ite ?_ ?_
    | with_reducible refine Moves.itePkt ?_ ?_
    | with_reducible refine (opWrtClear_moves ..).after (by decide) ?_
    | with_reducible refine runPacket_moves (by decide) (fun s => ?_)
    | with_reducible refine (Moves.fold _ _ _ ?_).behind ?_
    | intro _
    | split
    | ((conv => arg 3; with_reducible whnf); split)))

theorem opWrtSlots_moves (x0 : Packet) (s : State) :
    Moves [.wsl, .wr] s (opWrtSlots x0 s).state := by
  unfold opWrtSlots
  repeat' (first
    | with_reducible exact Moves.refl _ _
    | with_reducible assumption
    | extract_lets
    | with_reducible refine Moves.ite ?_ ?_
    | with_reducible refine Moves.itePkt ?_ ?_
    | with_reducible refine (State.modWsl_moves ..).after (by decide) ?_
    | with_reducible refine (State.grantSlots_moves ..).after (by decide) ?_
    | with_reducible refine (Moves.fold _ _ _ ?_).behind ?_
    | intro _
    | split
    | ((conv => arg 3; with_reducible whnf); split))

theorem execWrtSlots_moves (x0 : Packet) (s : State) {t : State} (h : (execWrtSlots x0 s) = .next t) :
    Moves [.wsl, .trc, .host, .het, .evr, .out, .wr] s t := by
  unfold execWrtSlots at h
  repeat' (first | contradiction | (injection h with h; subst h) | split at h)
  all_goals (repeat' (first
    | with_reducible exact Moves.refl _ _
    | with_reducible assumption
    | extract_lets
    | with_reducible refine Moves.ite ?_ ?_
    | with_reducible refine Moves.itePkt ?_ ?_
    | with_reducible refine (opWrtSlots_moves ..).after (by decide) ?_
    | with_reducible refine runPacket_moves (by decide) (fun s => ?_)
    | with_reducible refine (Moves.fold _ _ _ ?_).behind ?_
    | intro _
    | split
    | ((conv => arg 3; with_reducible whnf); split)))

end Sys2Proof.Machine
end

