-- ==== Sys2Proof/Laws/MovesLoop.lean ====
section
/-! SUPPORT. What each operation and each command of Machine/Loop.lean can touch. -/

namespace Sys2Proof.Machine
open Sys2Proof
set_option linter.all false
set_option Elab.async false

theorem State.loadShadow_moves (s : State) (x1 : LoopIx) (x2 : Fin 8) :
    Moves [.lpe] s (State.loadShadow s x1 x2) := by
  unfold State.loadShadow
  repeat' (first
    | with_reducible exact Moves.refl _ _
    | with_reducible assumption
    | extract_lets
    | with_reducible refine Moves.ite ?_ ?_
    | with_reducible refine (State.modLoop_moves ..).after (by decide) ?_
    | with_reducible refine (Moves.fold _ _ _ ?_).behind ?_
    | intro _
    | split
    | ((conv => arg 3; with_reducible whnf); split))

theorem State.swapReplies_moves (s : State) (x1 : LoopIx) :
    Moves [.trc, .host, .het, .evr, .out] s (State.swapReplies s x1) := by
  unfold State.swapReplies
  repeat' (first
    | with_reducible exact Moves.refl _ _
    | with_reducible assumption
    | extract_lets
    | with_reducible refine Moves.ite ?_ ?_
    | with_reducible refine (State.replyWaiting_moves ..).after (by decide) ?_
    | with_reducible refine (Moves.fold _ _ _ ?_).behind ?_
    | intro _
    | split
    | ((conv => arg 3; with_reducible whnf); split))

theorem State.noteNotches_moves (s : State) (x1 : LoopIx) (x2 : ℕ) :
    Moves [.engSrv, .headSrv] s (State.noteNotches s x1 x2) := by
  unfold State.noteNotches
  repeat' (first
    | with_reducible exact Moves.refl _ _
    | with_reducible assumption
    | extract_lets
    | with_reducible refine Moves.ite ?_ ?_
    | with_reducible refine (State.modSrv_moves ..).after (by decide) ?_
    | with_reducible refine (State.modHs_moves ..).after (by decide) ?_
    | with_reducible refine (Moves.fold _ _ _ ?_).behind ?_
    | intro _
    | split
    | ((conv => arg 3; with_reducible whnf); split))

theorem State.settleSwapWait_moves (s : State) :
    Moves [.spn] s (State.settleSwapWait s) := by
  unfold State.settleSwapWait
  repeat' (first
    | with_reducible exact Moves.refl _ _
    | with_reducible assumption
    | extract_lets
    | with_reducible refine Moves.ite ?_ ?_
    | with_reducible refine (State.modSpn_moves ..).after (by decide) ?_
    | with_reducible refine (Moves.fold _ _ _ ?_).behind ?_
    | intro _
    | split
    | ((conv => arg 3; with_reducible whnf); split))

theorem State.swapBank_moves (s : State) (x1 : LoopIx) :
    Moves [.lpe, .trc, .spn, .host, .het, .evr, .out, .engSrv, .headSrv] s (State.swapBank s x1) := by
  unfold State.swapBank
  repeat' (first
    | with_reducible exact Moves.refl _ _
    | with_reducible assumption
    | extract_lets
    | with_reducible refine Moves.ite ?_ ?_
    | with_reducible refine (State.swapReplies_moves ..).after (by decide) ?_
    | with_reducible refine (State.settleSwapWait_moves ..).after (by decide) ?_
    | with_reducible refine (State.noteNotches_moves ..).after (by decide) ?_
    | with_reducible refine (State.condLoop_moves ..).after (by decide) ?_
    | with_reducible refine (State.modLoop_moves ..).after (by decide) ?_
    | with_reducible refine (Moves.fold _ _ _ ?_).behind ?_
    | intro _
    | split
    | ((conv => arg 3; with_reducible whnf); split))

theorem State.requestSwap_moves (s : State) (x1 : LoopIx) (x2 : Fin 8) (x3 : Option Angle) :
    Moves [.lpe] s (State.requestSwap s x1 x2 x3) := by
  unfold State.requestSwap
  repeat' (first
    | with_reducible exact Moves.refl _ _
    | with_reducible assumption
    | extract_lets
    | with_reducible refine Moves.ite ?_ ?_
    | with_reducible refine (State.loadShadow_moves ..).after (by decide) ?_
    | with_reducible refine (State.modLoop_moves ..).after (by decide) ?_
    | with_reducible refine (Moves.fold _ _ _ ?_).behind ?_
    | intro _
    | split
    | ((conv => arg 3; with_reducible whnf); split))

theorem State.latch_moves (s : State) (x1 : LoopIx) (x2 : Nat) (x3 : Int) (x4 : Bool) (x5 : Bool) :
    Moves [.mems, .lpe] s (State.latch s x1 x2 x3 x4 x5) := by
  unfold State.latch
  repeat' (first
    | with_reducible exact Moves.refl _ _
    | with_reducible assumption
    | extract_lets
    | with_reducible refine Moves.ite ?_ ?_
    | with_reducible refine (State.modLoop_moves ..).after (by decide) ?_
    | with_reducible refine (Moves.fold _ _ _ ?_).behind ?_
    | intro _
    | split
    | ((conv => arg 3; with_reducible whnf); split)
    | with_reducible refine (Moves.set_mems _ _).after (by decide) ?_)

theorem State.tableError_moves (s : State) (x1 : LoopIx) :
    Moves [.lpe, .trc, .evr, .engSrv] s (State.tableError s x1) := by
  unfold State.tableError
  repeat' (first
    | with_reducible exact Moves.refl _ _
    | with_reducible assumption
    | extract_lets
    | with_reducible refine Moves.ite ?_ ?_
    | with_reducible refine (State.modLoop_moves ..).after (by decide) ?_
    | with_reducible refine (State.condLoop_moves ..).after (by decide) ?_
    | with_reducible refine (State.modSrv_moves ..).after (by decide) ?_
    | with_reducible refine (Moves.fold _ _ _ ?_).behind ?_
    | intro _
    | split
    | ((conv => arg 3; with_reducible whnf); split))

theorem execLoopComputeStart_moves (x0 : PipeIx) (s : State) {t : State} (h : (execLoopComputeStart x0 s) = .next t) :
    Moves [.lpe, .trc, .spn, .host, .het, .evr, .out, .engSrv, .headSrv] s t := by
  unfold execLoopComputeStart at h
  repeat' (first | contradiction | (injection h with h; subst h) | split at h)
  all_goals (repeat' (first
    | with_reducible exact Moves.refl _ _
    | with_reducible assumption
    | extract_lets
    | with_reducible refine Moves.ite ?_ ?_
    | with_reducible refine (State.swapBank_moves ..).after (by decide) ?_
    | with_reducible refine (State.modLoop_moves ..).after (by decide) ?_
    | with_reducible refine (State.tableError_moves ..).after (by decide) ?_
    | with_reducible refine (State.modLpe_moves ..).after (by decide) ?_
    | with_reducible refine (Moves.fold _ _ _ ?_).behind ?_
    | intro _
    | split
    | ((conv => arg 3; with_reducible whnf); split)))

theorem State.enterFallback_moves (s : State) (x1 : LoopIx) :
    Moves [.lpe, .trc, .evr] s (State.enterFallback s x1) := by
  unfold State.enterFallback
  repeat' (first
    | with_reducible exact Moves.refl _ _
    | with_reducible assumption
    | extract_lets
    | with_reducible refine Moves.ite ?_ ?_
    | with_reducible refine (State.saturated_moves ..).after (by decide) ?_
    | with_reducible refine (State.condLoop_moves ..).after (by decide) ?_
    | with_reducible refine (State.modLoop_moves ..).after (by decide) ?_
    | with_reducible refine (Moves.fold _ _ _ ?_).behind ?_
    | intro _
    | split
    | ((conv => arg 3; with_reducible whnf); split))

theorem State.runLaw_moves (s : State) (x1 : LoopIx) (x2 : LoopSample) :
    Moves [.lpe, .trc, .evr, .engSrv] s (State.runLaw s x1 x2).1 := by
  unfold State.runLaw
  repeat' (first
    | with_reducible exact Moves.refl _ _
    | with_reducible assumption
    | extract_lets
    | with_reducible refine Moves.ite ?_ ?_
    | with_reducible refine (State.enterFallback_moves ..).after (by decide) ?_
    | with_reducible refine (State.requestSwap_moves ..).after (by decide) ?_
    | with_reducible refine (State.modSrv_moves ..).after (by decide) ?_
    | with_reducible refine (State.modLoop_moves ..).after (by decide) ?_
    | with_reducible refine (Moves.fold _ _ _ ?_).behind ?_
    | intro _
    | split
    | ((conv => arg 3; with_reducible whnf); split))

theorem State.traceSlot_moves (s : State) (x1 : LoopIx) (x2 : ℤ) :
    Moves [.trc] s (State.traceSlot s x1 x2) := by
  unfold State.traceSlot
  repeat' (first
    | with_reducible exact Moves.refl _ _
    | with_reducible assumption
    | extract_lets
    | with_reducible refine Moves.ite ?_ ?_
    | with_reducible refine (State.modTrc_moves ..).after (by decide) ?_
    | with_reducible refine (Moves.fold _ _ _ ?_).behind ?_
    | intro _
    | split
    | ((conv => arg 3; with_reducible whnf); split))

theorem State.applyOutput_moves (s : State) (x1 : LoopIx) (x2 : ℤ) :
    Moves [.lpe, .spn, .pwr, .engSrv, .headSrv] s (State.applyOutput s x1 x2) := by
  unfold State.applyOutput
  repeat' (first
    | with_reducible exact Moves.refl _ _
    | with_reducible assumption
    | extract_lets
    | with_reducible refine Moves.ite ?_ ?_
    | with_reducible refine (State.modSrv_moves ..).after (by decide) ?_
    | with_reducible refine (State.modSpn_moves ..).after (by decide) ?_
    | with_reducible refine (State.modLoop_moves ..).after (by decide) ?_
    | with_reducible refine (State.modHs_moves ..).after (by decide) ?_
    | with_reducible refine (State.modPwr_moves ..).after (by decide) ?_
    | with_reducible refine (Moves.fold _ _ _ ?_).behind ?_
    | intro _
    | split
    | ((conv => arg 3; with_reducible whnf); split))

theorem State.loopDebt_moves (s : State) (x1 : LoopIx) (x2 : ℕ) (x3 : ℕ) :
    Moves [.lpe, .trc, .evr] s (State.loopDebt s x1 x2 x3) := by
  unfold State.loopDebt
  repeat' (first
    | with_reducible exact Moves.refl _ _
    | with_reducible assumption
    | extract_lets
    | with_reducible refine Moves.ite ?_ ?_
    | with_reducible refine (State.condLoop_moves ..).after (by decide) ?_
    | with_reducible refine (State.modLoop_moves ..).after (by decide) ?_
    | with_reducible refine (Moves.fold _ _ _ ?_).behind ?_
    | intro _
    | split
    | ((conv => arg 3; with_reducible whnf); split))

theorem execLoopComputeDone_moves (x0 : PipeIx) (s : State) {t : State} (h : (execLoopComputeDone x0 s) = .next t) :
    Moves [.lpe, .trc, .spn, .pwr, .evr, .engSrv, .headSrv] s t := by
  unfold execLoopComputeDone at h
  repeat' (first | contradiction | (injection h with h; subst h) | split at h)
  all_goals (repeat' (first
    | with_reducible exact Moves.refl _ _
    | with_reducible assumption
    | extract_lets
    | with_reducible refine Moves.ite ?_ ?_
    | with_reducible refine (State.runLaw_moves ..).after (by decide) ?_
    | with_reducible refine (State.modLoop_moves ..).after (by decide) ?_
    | with_reducible refine (State.modLpe_moves ..).after (by decide) ?_
    | with_reducible refine (State.loopDebt_moves ..).after (by decide) ?_
    | with_reducible refine (State.traceSlot_moves ..).after (by decide) ?_
    | with_reducible refine (State.applyOutput_moves ..).after (by decide) ?_
    | with_reducible refine (State.saturated_moves ..).after (by decide) ?_
    | with_reducible refine Moves.pair1 (by assumption) ?_
    | with_reducible refine Moves.pair2 (by assumption) ?_
    | with_reducible refine (Moves.fold _ _ _ ?_).behind ?_
    | intro _
    | split
    | ((conv => arg 3; with_reducible whnf); split)))

theorem execLoopOutputRelease_moves (x0 : LoopIx) (s : State) {t : State} (h : (execLoopOutputRelease x0 s) = .next t) :
    Moves [.lpe, .spn, .pwr, .engSrv, .headSrv] s t := by
  unfold execLoopOutputRelease at h
  repeat' (first | contradiction | (injection h with h; subst h) | split at h)
  all_goals (repeat' (first
    | with_reducible exact Moves.refl _ _
    | with_reducible assumption
    | extract_lets
    | with_reducible refine Moves.ite ?_ ?_
    | with_reducible refine (State.applyOutput_moves ..).after (by decide) ?_
    | with_reducible refine (Moves.fold _ _ _ ?_).behind ?_
    | intro _
    | split
    | ((conv => arg 3; with_reducible whnf); split)))

theorem State.enableSlot_moves (s : State) (x1 : LoopIx) (x2 : LMode) :
    Moves [.lpe, .engSrv, .headSrv] s (State.enableSlot s x1 x2) := by
  unfold State.enableSlot
  repeat' (first
    | with_reducible exact Moves.refl _ _
    | with_reducible assumption
    | extract_lets
    | with_reducible refine Moves.ite ?_ ?_
    | with_reducible refine (State.noteNotches_moves ..).after (by decide) ?_
    | with_reducible refine (State.loadShadow_moves ..).after (by decide) ?_
    | with_reducible refine (State.modLoop_moves ..).after (by decide) ?_
    | with_reducible refine (Moves.fold _ _ _ ?_).behind ?_
    | intro _
    | split
    | ((conv => arg 3; with_reducible whnf); split))

theorem execTraceTimeout_moves (s : State) {t : State} (h : (execTraceTimeout s) = .next t) :
    Moves [.trc] s t := by
  unfold execTraceTimeout at h
  repeat' (first | contradiction | (injection h with h; subst h) | split at h)
  all_goals (repeat' (first
    | with_reducible exact Moves.refl _ _
    | with_reducible assumption
    | extract_lets
    | with_reducible refine Moves.ite ?_ ?_
    | with_reducible refine (State.modTrc_moves ..).after (by decide) ?_
    | with_reducible refine (Moves.fold _ _ _ ?_).behind ?_
    | intro _
    | split
    | ((conv => arg 3; with_reducible whnf); split)))

theorem execTraceCopyDone_moves (s : State) {t : State} (h : (execTraceCopyDone s) = .next t) :
    Moves [.trc] s t := by
  unfold execTraceCopyDone at h
  repeat' (first | contradiction | (injection h with h; subst h) | split at h)
  all_goals (repeat' (first
    | with_reducible exact Moves.refl _ _
    | with_reducible assumption
    | extract_lets
    | with_reducible refine Moves.ite ?_ ?_
    | with_reducible refine (State.modTrc_moves ..).after (by decide) ?_
    | with_reducible refine (Moves.fold _ _ _ ?_).behind ?_
    | intro _
    | split
    | ((conv => arg 3; with_reducible whnf); split)))

theorem onLoop_moves {m : List Part} {p : Packet} {s : State} {body : State → PktRes} (h : ∀ s, Moves m s (body s).state) :
    Moves m s (onLoop p s body).state := by
  unfold onLoop
  split
  · exact .refl m s
  · exact h s

theorem execLoopStatus_moves (x0 : Packet) (s : State) {t : State} (h : (execLoopStatus x0 s) = .next t) :
    Moves [.trc, .host, .het, .evr, .out] s t := by
  unfold execLoopStatus at h
  repeat' (first | contradiction | (injection h with h; subst h) | split at h)
  all_goals (repeat' (first
    | with_reducible exact Moves.refl _ _
    | with_reducible assumption
    | extract_lets
    | with_reducible refine Moves.ite ?_ ?_
    | with_reducible refine Moves.itePkt ?_ ?_
    | with_reducible refine onLoop_moves (fun s => ?_)
    | with_reducible refine runPacket_moves (by decide) (fun s => ?_)
    | with_reducible refine (PktRes.report_moves ..).after (by decide) ?_
    | with_reducible refine (Moves.fold _ _ _ ?_).behind ?_
    | intro _
    | split
    | ((conv => arg 3; with_reducible whnf); split)))

theorem State.storeCoefs_moves (s : State) (x1 : Packet) :
    Moves [.nor] s (State.storeCoefs s x1) := by
  unfold State.storeCoefs
  repeat' (first
    | with_reducible exact Moves.refl _ _
    | with_reducible assumption
    | extract_lets
    | with_reducible refine Moves.ite ?_ ?_
    | with_reducible refine (State.modNor_moves _ _ (by intro n; repeat' (first | rfl | extract_lets | split))).after (by decide) ?_
    | with_reducible refine (Moves.fold _ _ _ ?_).behind ?_
    | intro _
    | split
    | ((conv => arg 3; with_reducible whnf); split))

theorem State.commitCoefs_moves (s : State) (x1 : Packet) :
    Moves [.lpe] s (State.commitCoefs s x1).state := by
  unfold State.commitCoefs
  repeat' (first
    | with_reducible exact Moves.refl _ _
    | with_reducible assumption
    | extract_lets
    | with_reducible refine Moves.ite ?_ ?_
    | with_reducible refine Moves.itePkt ?_ ?_
    | with_reducible refine (State.requestSwap_moves ..).after (by decide) ?_
    | with_reducible refine (Moves.fold _ _ _ ?_).behind ?_
    | intro _
    | split
    | ((conv => arg 3; with_reducible whnf); split))

theorem coefBody_moves (x0 : Packet) (s : State) :
    Moves [.lpe, .nor] s (coefBody x0 s).state := by
  unfold coefBody
  repeat' (first
    | with_reducible exact Moves.refl _ _
    | with_reducible assumption
    | extract_lets
    | with_reducible refine Moves.ite ?_ ?_
    | with_reducible refine Moves.itePkt ?_ ?_
    | with_reducible refine (State.storeCoefs_moves ..).after (by decide) ?_
    | with_reducible refine (State.commitCoefs_moves ..).after (by decide) ?_
    | with_reducible refine (PktRes.fail_moves ..).after (by decide) ?_
    | with_reducible refine (Moves.fold _ _ _ ?_).behind ?_
    | intro _
    | split
    | ((conv => arg 3; with_reducible whnf); split))

theorem opLoopCoef_moves (x0 : Packet) (s : State) :
    Moves [.lpe, .nor] s (opLoopCoef x0 s).state := by
  unfold opLoopCoef
  repeat' (first
    | with_reducible exact Moves.refl _ _
    | with_reducible assumption
    | extract_lets
    | with_reducible refine Moves.ite ?_ ?_
    | with_reducible refine Moves.itePkt ?_ ?_
    | with_reducible refine onLoop_moves (fun s => ?_)
    | with_reducible refine (coefBody_moves ..).after (by decide) ?_
    | with_reducible refine (Moves.fold _ _ _ ?_).behind ?_
    | intro _
    | split
    | ((conv => arg 3; with_reducible whnf); split))

theorem execLoopCoef_moves (x0 : Packet) (s : State) {t : State} (h : (execLoopCoef x0 s) = .next t) :
    Moves [.lpe, .trc, .host, .het, .evr, .nor, .out] s t := by
  unfold execLoopCoef at h
  repeat' (first | contradiction | (injection h with h; subst h) | split at h)
  all_goals (repeat' (first
    | with_reducible exact Moves.refl _ _
    | with_reducible assumption
    | extract_lets
    | with_reducible refine Moves.ite ?_ ?_
    | with_reducible refine Moves.itePkt ?_ ?_
    | with_reducible refine (opLoopCoef_moves ..).after (by decide) ?_
    | with_reducible refine runPacket_moves (by decide) (fun s => ?_)
    | with_reducible refine (Moves.fold _ _ _ ?_).behind ?_
    | intro _
    | split
    | ((conv => arg 3; with_reducible whnf); split)))

theorem opLoopBankSwap_moves (x0 : Packet) (s : State) :
    Moves [.lpe, .trc, .spn, .host, .het, .evr, .out, .engSrv, .headSrv] s (opLoopBankSwap x0 s).state := by
  unfold opLoopBankSwap
  repeat' (first
    | with_reducible exact Moves.refl _ _
    | with_reducible assumption
    | extract_lets
    | with_reducible refine Moves.ite ?_ ?_
    | with_reducible refine Moves.itePkt ?_ ?_
    | with_reducible refine onLoop_moves (fun s => ?_)
    | with_reducible refine (State.swapBank_moves ..).after (by decide) ?_
    | with_reducible refine (State.requestSwap_moves ..).after (by decide) ?_
    | with_reducible refine (PktRes.report_moves ..).after (by decide) ?_
    | with_reducible refine (Moves.fold _ _ _ ?_).behind ?_
    | intro _
    | split
    | ((conv => arg 3; with_reducible whnf); split))

theorem execLoopBankSwap_moves (x0 : Packet) (s : State) {t : State} (h : (execLoopBankSwap x0 s) = .next t) :
    Moves [.lpe, .trc, .spn, .host, .het, .evr, .out, .engSrv, .headSrv] s t := by
  unfold execLoopBankSwap at h
  repeat' (first | contradiction | (injection h with h; subst h) | split at h)
  all_goals (repeat' (first
    | with_reducible exact Moves.refl _ _
    | with_reducible assumption
    | extract_lets
    | with_reducible refine Moves.ite ?_ ?_
    | with_reducible refine Moves.itePkt ?_ ?_
    | with_reducible refine (opLoopBankSwap_moves ..).after (by decide) ?_
    | with_reducible refine runPacket_moves (by decide) (fun s => ?_)
    | with_reducible refine (Moves.fold _ _ _ ?_).behind ?_
    | intro _
    | split
    | ((conv => arg 3; with_reducible whnf); split)))

theorem opLoopConfig_moves (x0 : Packet) (s : State) :
    Moves [.lpe, .nor] s (opLoopConfig x0 s).state := by
  unfold opLoopConfig
  repeat' (first
    | with_reducible exact Moves.refl _ _
    | with_reducible assumption
    | extract_lets
    | with_reducible refine Moves.ite ?_ ?_
    | with_reducible refine Moves.itePkt ?_ ?_
    | with_reducible refine onLoop_moves (fun s => ?_)
    | with_reducible refine (State.modNor_moves _ _ (by intro n; repeat' (first | rfl | extract_lets | split))).after (by decide) ?_
    | with_reducible refine (State.modLoop_moves ..).after (by decide) ?_
    | with_reducible refine (Moves.fold _ _ _ ?_).behind ?_
    | intro _
    | split
    | ((conv => arg 3; with_reducible whnf); split))

theorem execLoopConfig_moves (x0 : Packet) (s : State) {t : State} (h : (execLoopConfig x0 s) = .next t) :
    Moves [.lpe, .trc, .host, .het, .evr, .nor, .out] s t := by
  unfold execLoopConfig at h
  repeat' (first | contradiction | (injection h with h; subst h) | split at h)
  all_goals (repeat' (first
    | with_reducible exact Moves.refl _ _
    | with_reducible assumption
    | extract_lets
    | with_reducible refine Moves.ite ?_ ?_
    | with_reducible refine Moves.itePkt ?_ ?_
    | with_reducible refine (opLoopConfig_moves ..).after (by decide) ?_
    | with_reducible refine runPacket_moves (by decide) (fun s => ?_)
    | with_reducible refine (Moves.fold _ _ _ ?_).behind ?_
    | intro _
    | split
    | ((conv => arg 3; with_reducible whnf); split)))

theorem opLoopClear_moves (x0 : Packet) (s : State) :
    Moves [.lpe] s (opLoopClear x0 s).state := by
  unfold opLoopClear
  repeat' (first
    | with_reducible exact Moves.refl _ _
    | with_reducible assumption
    | extract_lets
    | with_reducible refine Moves.ite ?_ ?_
    | with_reducible refine Moves.itePkt ?_ ?_
    | with_reducible refine onLoop_moves (fun s => ?_)
    | with_reducible refine (State.modLoop_moves ..).after (by decide) ?_
    | with_reducible refine (Moves.fold _ _ _ ?_).behind ?_
    | intro _
    | split
    | ((conv => arg 3; with_reducible whnf); split))

theorem execLoopClear_moves (x0 : Packet) (s : State) {t : State} (h : (execLoopClear x0 s) = .next t) :
    Moves [.lpe, .trc, .host, .het, .evr, .out] s t := by
  unfold execLoopClear at h
  repeat' (first | contradiction | (injection h with h; subst h) | split at h)
  all_goals (repeat' (first
    | with_reducible exact Moves.refl _ _
    | with_reducible assumption
    | extract_lets
    | with_reducible refine Moves.ite ?_ ?_
    | with_reducible refine Moves.itePkt ?_ ?_
    | with_reducible refine (opLoopClear_moves ..).after (by decide) ?_
    | with_reducible refine runPacket_moves (by decide) (fun s => ?_)
    | with_reducible refine (Moves.fold _ _ _ ?_).behind ?_
    | intro _
    | split
    | ((conv => arg 3; with_reducible whnf); split)))

theorem opTraceConfig_moves (x0 : Packet) (s : State) :
    Moves [.trc] s (opTraceConfig x0 s).state := by
  unfold opTraceConfig
  repeat' (first
    | with_reducible exact Moves.refl _ _
    | with_reducible assumption
    | extract_lets
    | with_reducible refine Moves.ite ?_ ?_
    | with_reducible refine Moves.itePkt ?_ ?_
    | with_reducible refine (PktRes.fail_moves ..).after (by decide) ?_
    | with_reducible refine (State.modTrc_moves ..).after (by decide) ?_
    | with_reducible refine (Moves.fold _ _ _ ?_).behind ?_
    | intro _
    | split
    | ((conv => arg 3; with_reducible whnf); split))

theorem execTraceConfig_moves (x0 : Packet) (s : State) {t : State} (h : (execTraceConfig x0 s) = .next t) :
    Moves [.trc, .host, .het, .evr, .out] s t := by
  unfold execTraceConfig at h
  repeat' (first | contradiction | (injection h with h; subst h) | split at h)
  all_goals (repeat' (first
    | with_reducible exact Moves.refl _ _
    | with_reducible assumption
    | extract_lets
    | with_reducible refine Moves.ite ?_ ?_
    | with_reducible refine Moves.itePkt ?_ ?_
    | with_reducible refine (opTraceConfig_moves ..).after (by decide) ?_
    | with_reducible refine runPacket_moves (by decide) (fun s => ?_)
    | with_reducible refine (Moves.fold _ _ _ ?_).behind ?_
    | intro _
    | split
    | ((conv => arg 3; with_reducible whnf); split)))

theorem opTraceArm_moves (x0 : Packet) (s : State) :
    Moves [.trc] s (opTraceArm x0 s).state := by
  unfold opTraceArm
  repeat' (first
    | with_reducible exact Moves.refl _ _
    | with_reducible assumption
    | extract_lets
    | with_reducible refine Moves.ite ?_ ?_
    | with_reducible refine Moves.itePkt ?_ ?_
    | with_reducible refine (State.modTrc_moves ..).after (by decide) ?_
    | with_reducible refine (Moves.fold _ _ _ ?_).behind ?_
    | intro _
    | split
    | ((conv => arg 3; with_reducible whnf); split))

theorem execTraceArm_moves (x0 : Packet) (s : State) {t : State} (h : (execTraceArm x0 s) = .next t) :
    Moves [.trc, .host, .het, .evr, .out] s t := by
  unfold execTraceArm at h
  repeat' (first | contradiction | (injection h with h; subst h) | split at h)
  all_goals (repeat' (first
    | with_reducible exact Moves.refl _ _
    | with_reducible assumption
    | extract_lets
    | with_reducible refine Moves.ite ?_ ?_
    | with_reducible refine Moves.itePkt ?_ ?_
    | with_reducible refine (opTraceArm_moves ..).after (by decide) ?_
    | with_reducible refine runPacket_moves (by decide) (fun s => ?_)
    | with_reducible refine (Moves.fold _ _ _ ?_).behind ?_
    | intro _
    | split
    | ((conv => arg 3; with_reducible whnf); split)))

theorem opTraceTrigger_moves (x0 : Packet) (s : State) :
    Moves [.trc] s (opTraceTrigger x0 s).state := by
  unfold opTraceTrigger
  repeat' (first
    | with_reducible exact Moves.refl _ _
    | with_reducible assumption
    | extract_lets
    | with_reducible refine Moves.ite ?_ ?_
    | with_reducible refine Moves.itePkt ?_ ?_
    | with_reducible refine (State.traceTrigger_moves ..).after (by decide) ?_
    | with_reducible refine (PktRes.report_moves ..).after (by decide) ?_
    | with_reducible refine (Moves.fold _ _ _ ?_).behind ?_
    | intro _
    | split
    | ((conv => arg 3; with_reducible whnf); split))

theorem execTraceTrigger_moves (x0 : Packet) (s : State) {t : State} (h : (execTraceTrigger x0 s) = .next t) :
    Moves [.trc, .host, .het, .evr, .out] s t := by
  unfold execTraceTrigger at h
  repeat' (first | contradiction | (injection h with h; subst h) | split at h)
  all_goals (repeat' (first
    | with_reducible exact Moves.refl _ _
    | with_reducible assumption
    | extract_lets
    | with_reducible refine Moves.ite ?_ ?_
    | with_reducible refine Moves.itePkt ?_ ?_
    | with_reducible refine (opTraceTrigger_moves ..).after (by decide) ?_
    | with_reducible refine runPacket_moves (by decide) (fun s => ?_)
    | with_reducible refine (Moves.fold _ _ _ ?_).behind ?_
    | intro _
    | split
    | ((conv => arg 3; with_reducible whnf); split)))

theorem execTraceStatus_moves (x0 : Packet) (s : State) {t : State} (h : (execTraceStatus x0 s) = .next t) :
    Moves [.trc, .host, .het, .evr, .out] s t := by
  unfold execTraceStatus at h
  repeat' (first | contradiction | (injection h with h; subst h) | split at h)
  all_goals (repeat' (first
    | with_reducible exact Moves.refl _ _
    | with_reducible assumption
    | extract_lets
    | with_reducible refine Moves.ite ?_ ?_
    | with_reducible refine Moves.itePkt ?_ ?_
    | with_reducible refine runPacket_moves (by decide) (fun s => ?_)
    | with_reducible refine (PktRes.report_moves ..).after (by decide) ?_
    | with_reducible refine (Moves.fold _ _ _ ?_).behind ?_
    | intro _
    | split
    | ((conv => arg 3; with_reducible whnf); split)))

end Sys2Proof.Machine
end

