-- ==== Sys2Proof/Laws/MovesServo.lean ====
section
/-! SUPPORT. What each operation and each command of Machine/Servo.lean can touch. -/

namespace Sys2Proof.Machine
open Sys2Proof
set_option linter.all false
set_option Elab.async false

theorem State.activate_moves (s : State) (x1 : Head) (x2 : ℕ) :
    Moves [.engSrv, .headSrv] s (State.activate s x1 x2) := by
  unfold State.activate
  repeat' (first
    | with_reducible exact Moves.refl _ _
    | with_reducible assumption
    | extract_lets
    | with_reducible refine Moves.ite ?_ ?_
    | with_reducible refine (State.retarget_moves ..).after (by decide) ?_
    | with_reducible refine (State.modHs_moves ..).after (by decide) ?_
    | with_reducible refine (Moves.fold _ _ _ ?_).behind ?_
    | intro _
    | split
    | ((conv => arg 3; with_reducible whnf); split))

theorem State.headSample_moves (s : State) (x1 : Eng) (x2 : Head) (x3 : Int) (x4 : Int) (x5 : Option HeadField) :
    Moves [.free, .slice, .lane, .pool, .wsl, .lpe, .trc, .media, .host, .q, .pwr, .sec, .evr, .nor, .out, .links, .recv, .engSrv, .seq, .zdc, .rd, .det, .wr, .headSrv, .map, .freq] s (State.headSample s x1 x2 x3 x4 x5) := by
  unfold State.headSample
  repeat' (first
    | with_reducible exact Moves.refl _ _
    | with_reducible assumption
    | extract_lets
    | with_reducible refine Moves.ite ?_ ?_
    | with_reducible refine (State.modHs_moves ..).after (by decide) ?_
    | with_reducible refine (State.saturated_moves ..).after (by decide) ?_
    | with_reducible refine (State.modWr_moves ..).after (by decide) ?_
    | with_reducible refine (State.headFail_moves ..).after (by decide) ?_
    | with_reducible refine (Moves.fold _ _ _ ?_).behind ?_
    | intro _
    | split
    | ((conv => arg 3; with_reducible whnf); split))

theorem State.offTrack_moves (s : State) (x1 : Eng) (x2 : Head) :
    Moves [.trc, .evr, .links, .engSrv, .seq, .wr, .headSrv] s (State.offTrack s x1 x2) := by
  unfold State.offTrack
  repeat' (first
    | with_reducible exact Moves.refl _ _
    | with_reducible assumption
    | extract_lets
    | with_reducible refine Moves.ite ?_ ?_
    | with_reducible refine (State.modWr_moves ..).after (by decide) ?_
    | with_reducible refine (State.saturated_moves ..).after (by decide) ?_
    | with_reducible refine (State.forceWriteOff_moves ..).after (by decide) ?_
    | with_reducible refine (Moves.fold _ _ _ ?_).behind ?_
    | intro _
    | split
    | ((conv => arg 3; with_reducible whnf); split))

theorem State.loadDone_moves (s : State) (x1 : Eng) :
    Moves [.trc, .host, .het, .evr, .rst, .out] s (State.loadDone s x1) := by
  unfold State.loadDone
  repeat' (first
    | with_reducible exact Moves.refl _ _
    | with_reducible assumption
    | extract_lets
    | with_reducible refine Moves.ite ?_ ?_
    | with_reducible refine (State.replyWaiting_moves ..).after (by decide) ?_
    | with_reducible refine (State.modAct_moves ..).after (by decide) ?_
    | with_reducible refine (Moves.fold _ _ _ ?_).behind ?_
    | intro _
    | split
    | ((conv => arg 3; with_reducible whnf); split))

theorem State.maSample_moves (s : State) (x1 : Eng) (x2 : Head) (x3 : Angle) (x4 : Int) :
    Moves [.mems, .lpe] s (State.maSample s x1 x2 x3 x4) := by
  unfold State.maSample
  repeat' (first
    | with_reducible exact Moves.refl _ _
    | with_reducible assumption
    | extract_lets
    | with_reducible refine Moves.ite ?_ ?_
    | with_reducible refine (State.modLoop_moves ..).after (by decide) ?_
    | with_reducible refine (State.requestSwap_moves ..).after (by decide) ?_
    | with_reducible refine (State.latch_moves ..).after (by decide) ?_
    | with_reducible refine (Moves.fold _ _ _ ?_).behind ?_
    | intro _
    | split
    | ((conv => arg 3; with_reducible whnf); split))

theorem State.armLost_moves (s : State) (x1 : Eng) :
    Moves [.lpe, .trc, .evr, .rst, .links, .wrg, .engSrv, .seq, .wr, .headSrv] s (State.armLost s x1) := by
  unfold State.armLost
  repeat' (first
    | with_reducible exact Moves.refl _ _
    | with_reducible assumption
    | extract_lets
    | with_reducible refine Moves.ite ?_ ?_
    | with_reducible refine (State.forceWriteOff_moves ..).after (by decide) ?_
    | with_reducible refine (State.modWrg_moves ..).after (by decide) ?_
    | with_reducible refine (State.modSrv_moves ..).after (by decide) ?_
    | with_reducible refine (State.modLoop_moves ..).after (by decide) ?_
    | with_reducible refine (State.saturated_moves ..).after (by decide) ?_
    | with_reducible refine (State.pavane_moves ..).after (by decide) ?_
    | with_reducible refine (Moves.fold _ _ _ ?_).behind ?_
    | intro _
    | split
    | ((conv => arg 3; with_reducible whnf); split))

theorem State.servoSample_moves (s : State) (x1 : Eng) (x2 : List HeadField) (x3 : Angle) :
    Moves [.free, .slice, .lane, .pool, .mems, .wsl, .lpe, .trc, .media, .host, .q, .het, .pwr, .sec, .evr, .nor, .rst, .out, .reel, .links, .recv, .wrg, .engSrv, .seq, .zdc, .rd, .det, .wr, .headSrv, .map, .freq] s (State.servoSample s x1 x2 x3) := by
  unfold State.servoSample
  repeat' (first
    | with_reducible exact Moves.refl _ _
    | with_reducible assumption
    | extract_lets
    | with_reducible refine Moves.ite ?_ ?_
    | with_reducible refine (State.modHs_moves ..).after (by decide) ?_
    | with_reducible refine (State.headSample_moves ..).after (by decide) ?_
    | with_reducible refine (State.retarget_moves ..).after (by decide) ?_
    | with_reducible refine (State.modSrv_moves ..).after (by decide) ?_
    | with_reducible refine (State.modWrg_moves ..).after (by decide) ?_
    | with_reducible refine (State.requestSwap_moves ..).after (by decide) ?_
    | with_reducible refine (State.modLoop_moves ..).after (by decide) ?_
    | with_reducible refine (State.latch_moves ..).after (by decide) ?_
    | with_reducible refine (State.armLost_moves ..).after (by decide) ?_
    | with_reducible refine (State.fresh_moves ..).after (by decide) ?_
    | with_reducible refine (State.offTrack_moves ..).after (by decide) ?_
    | with_reducible refine (State.maSample_moves ..).after (by decide) ?_
    | with_reducible refine (State.loadDone_moves ..).after (by decide) ?_
    | with_reducible refine (State.settlePark_moves ..).after (by decide) ?_
    | with_reducible refine Moves.pair1 (by assumption) ?_
    | with_reducible refine Moves.pair2 (by assumption) ?_
    | with_reducible refine (Moves.fold _ _ _ ?_).behind ?_
    | intro _
    | split
    | ((conv => arg 3; with_reducible whnf); split))

theorem State.heaterSample_moves (s : State) (x1 : Eng) (x2 : Head) (x3 : Angle) :
    Moves [.mems, .lpe] s (State.heaterSample s x1 x2 x3) := by
  unfold State.heaterSample
  repeat' (first
    | with_reducible exact Moves.refl _ _
    | with_reducible assumption
    | extract_lets
    | with_reducible refine Moves.ite ?_ ?_
    | with_reducible refine (State.modLoop_moves ..).after (by decide) ?_
    | with_reducible refine (State.latch_moves ..).after (by decide) ?_
    | with_reducible refine (Moves.fold _ _ _ ?_).behind ?_
    | intro _
    | split
    | ((conv => arg 3; with_reducible whnf); split))

theorem State.assistSample_moves (s : State) (x1 : Eng) (x2 : Head) (x3 : Angle) :
    Moves [.mems, .lpe] s (State.assistSample s x1 x2 x3) := by
  unfold State.assistSample
  repeat' (first
    | with_reducible exact Moves.refl _ _
    | with_reducible assumption
    | extract_lets
    | with_reducible refine Moves.ite ?_ ?_
    | with_reducible refine (State.modLoop_moves ..).after (by decide) ?_
    | with_reducible refine (State.latch_moves ..).after (by decide) ?_
    | with_reducible refine (Moves.fold _ _ _ ?_).behind ?_
    | intro _
    | split
    | ((conv => arg 3; with_reducible whnf); split))

theorem State.heatSamples_moves (s : State) (x1 : Eng) (x2 : Angle) :
    Moves [.mems, .lpe, .links] s (State.heatSamples s x1 x2) := by
  unfold State.heatSamples
  repeat' (first
    | with_reducible exact Moves.refl _ _
    | with_reducible assumption
    | extract_lets
    | with_reducible refine Moves.ite ?_ ?_
    | with_reducible refine (State.heaterSample_moves ..).after (by decide) ?_
    | with_reducible refine (State.assistSample_moves ..).after (by decide) ?_
    | with_reducible refine (State.modLink_moves ..).after (by decide) ?_
    | with_reducible refine (Moves.fold _ _ _ ?_).behind ?_
    | intro _
    | split
    | ((conv => arg 3; with_reducible whnf); split))

theorem execSeekRequest_moves (x0 : Eng) (x1 : LHead) (x2 : BitVec 30) (s : State) {t : State} (h : (execSeekRequest x0 x1 x2 s) = .next t) :
    Moves [.engSrv, .headSrv] s t := by
  unfold execSeekRequest at h
  repeat' (first | contradiction | (injection h with h; subst h) | split at h)
  all_goals (repeat' (first
    | with_reducible exact Moves.refl _ _
    | with_reducible assumption
    | extract_lets
    | with_reducible refine Moves.ite ?_ ?_
    | with_reducible refine (State.modHs_moves ..).after (by decide) ?_
    | with_reducible refine (State.retarget_moves ..).after (by decide) ?_
    | with_reducible refine (State.modSrv_moves ..).after (by decide) ?_
    | with_reducible refine (Moves.fold _ _ _ ?_).behind ?_
    | intro _
    | split
    | ((conv => arg 3; with_reducible whnf); split)))

theorem execSrvStatus_moves (x0 : Packet) (s : State) {t : State} (h : (execSrvStatus x0 s) = .next t) :
    Moves [.trc, .host, .het, .evr, .out] s t := by
  unfold execSrvStatus at h
  repeat' (first | contradiction | (injection h with h; subst h) | split at h)
  all_goals (repeat' (first
    | with_reducible exact Moves.refl _ _
    | with_reducible assumption
    | extract_lets
    | with_reducible refine Moves.ite ?_ ?_
    | with_reducible refine Moves.itePkt ?_ ?_
    | with_reducible refine runPacket_moves (by decide) (fun s => ?_)
    | with_reducible refine (PktRes.report_moves ..).after (by decide) ?_
    | with_reducible refine (Moves.fold _ _ _ ?_).behind ?_
    | intro _
    | split
    | ((conv => arg 3; with_reducible whnf); split)))

theorem opSrvConfig_moves (x0 : Packet) (s : State) :
    Moves [.engSrv] s (opSrvConfig x0 s).state := by
  unfold opSrvConfig
  repeat' (first
    | with_reducible exact Moves.refl _ _
    | with_reducible assumption
    | extract_lets
    | with_reducible refine Moves.ite ?_ ?_
    | with_reducible refine Moves.itePkt ?_ ?_
    | with_reducible refine (State.modSrv_moves ..).after (by decide) ?_
    | with_reducible refine (Moves.fold _ _ _ ?_).behind ?_
    | intro _
    | split
    | ((conv => arg 3; with_reducible whnf); split))

theorem execSrvConfig_moves (x0 : Packet) (s : State) {t : State} (h : (execSrvConfig x0 s) = .next t) :
    Moves [.trc, .host, .het, .evr, .out, .engSrv] s t := by
  unfold execSrvConfig at h
  repeat' (first | contradiction | (injection h with h; subst h) | split at h)
  all_goals (repeat' (first
    | with_reducible exact Moves.refl _ _
    | with_reducible assumption
    | extract_lets
    | with_reducible refine Moves.ite ?_ ?_
    | with_reducible refine Moves.itePkt ?_ ?_
    | with_reducible refine (opSrvConfig_moves ..).after (by decide) ?_
    | with_reducible refine runPacket_moves (by decide) (fun s => ?_)
    | with_reducible refine (Moves.fold _ _ _ ?_).behind ?_
    | intro _
    | split
    | ((conv => arg 3; with_reducible whnf); split)))

theorem opSrvQuadrille_moves (x0 : Packet) (s : State) :
    Moves [.engSrv] s (opSrvQuadrille x0 s).state := by
  unfold opSrvQuadrille
  repeat' (first
    | with_reducible exact Moves.refl _ _
    | with_reducible assumption
    | extract_lets
    | with_reducible refine Moves.ite ?_ ?_
    | with_reducible refine Moves.itePkt ?_ ?_
    | with_reducible refine (State.modSrv_moves ..).after (by decide) ?_
    | with_reducible refine (Moves.fold _ _ _ ?_).behind ?_
    | intro _
    | split
    | ((conv => arg 3; with_reducible whnf); split))

theorem execSrvQuadrille_moves (x0 : Packet) (s : State) {t : State} (h : (execSrvQuadrille x0 s) = .next t) :
    Moves [.trc, .host, .het, .evr, .out, .engSrv] s t := by
  unfold execSrvQuadrille at h
  repeat' (first | contradiction | (injection h with h; subst h) | split at h)
  all_goals (repeat' (first
    | with_reducible exact Moves.refl _ _
    | with_reducible assumption
    | extract_lets
    | with_reducible refine Moves.ite ?_ ?_
    | with_reducible refine Moves.itePkt ?_ ?_
    | with_reducible refine (opSrvQuadrille_moves ..).after (by decide) ?_
    | with_reducible refine runPacket_moves (by decide) (fun s => ?_)
    | with_reducible refine (Moves.fold _ _ _ ?_).behind ?_
    | intro _
    | split
    | ((conv => arg 3; with_reducible whnf); split)))

theorem opSrvNotch_moves (x0 : Packet) (s : State) :
    Moves [.nor, .engSrv, .headSrv] s (opSrvNotch x0 s).state := by
  unfold opSrvNotch
  repeat' (first
    | with_reducible exact Moves.refl _ _
    | with_reducible assumption
    | extract_lets
    | with_reducible refine Moves.ite ?_ ?_
    | with_reducible refine Moves.itePkt ?_ ?_
    | with_reducible refine (PktRes.fail_moves ..).after (by decide) ?_
    | with_reducible refine (State.modSrv_moves ..).after (by decide) ?_
    | with_reducible refine (State.modNor_moves _ _ (by intro n; repeat' (first | rfl | extract_lets | split))).after (by decide) ?_
    | with_reducible refine (State.modHs_moves ..).after (by decide) ?_
    | with_reducible refine (Moves.fold _ _ _ ?_).behind ?_
    | intro _
    | split
    | ((conv => arg 3; with_reducible whnf); split))

theorem execSrvNotch_moves (x0 : Packet) (s : State) {t : State} (h : (execSrvNotch x0 s) = .next t) :
    Moves [.trc, .host, .het, .evr, .nor, .out, .engSrv, .headSrv] s t := by
  unfold execSrvNotch at h
  repeat' (first | contradiction | (injection h with h; subst h) | split at h)
  all_goals (repeat' (first
    | with_reducible exact Moves.refl _ _
    | with_reducible assumption
    | extract_lets
    | with_reducible refine Moves.ite ?_ ?_
    | with_reducible refine Moves.itePkt ?_ ?_
    | with_reducible refine (opSrvNotch_moves ..).after (by decide) ?_
    | with_reducible refine runPacket_moves (by decide) (fun s => ?_)
    | with_reducible refine (Moves.fold _ _ _ ?_).behind ?_
    | intro _
    | split
    | ((conv => arg 3; with_reducible whnf); split)))

theorem opSrvHead_moves (x0 : Packet) (s : State) :
    Moves [.nor, .headSrv] s (opSrvHead x0 s).state := by
  unfold opSrvHead
  repeat' (first
    | with_reducible exact Moves.refl _ _
    | with_reducible assumption
    | extract_lets
    | with_reducible refine Moves.ite ?_ ?_
    | with_reducible refine Moves.itePkt ?_ ?_
    | with_reducible refine (PktRes.fail_moves ..).after (by decide) ?_
    | with_reducible refine (State.modNor_moves _ _ (by intro n; repeat' (first | rfl | extract_lets | split))).after (by decide) ?_
    | with_reducible refine (State.modHs_moves ..).after (by decide) ?_
    | with_reducible refine (Moves.fold _ _ _ ?_).behind ?_
    | intro _
    | split
    | ((conv => arg 3; with_reducible whnf); split))

theorem execSrvHead_moves (x0 : Packet) (s : State) {t : State} (h : (execSrvHead x0 s) = .next t) :
    Moves [.trc, .host, .het, .evr, .nor, .out, .headSrv] s t := by
  unfold execSrvHead at h
  repeat' (first | contradiction | (injection h with h; subst h) | split at h)
  all_goals (repeat' (first
    | with_reducible exact Moves.refl _ _
    | with_reducible assumption
    | extract_lets
    | with_reducible refine Moves.ite ?_ ?_
    | with_reducible refine Moves.itePkt ?_ ?_
    | with_reducible refine (opSrvHead_moves ..).after (by decide) ?_
    | with_reducible refine runPacket_moves (by decide) (fun s => ?_)
    | with_reducible refine (Moves.fold _ _ _ ?_).behind ?_
    | intro _
    | split
    | ((conv => arg 3; with_reducible whnf); split)))

theorem execSrvHstatus_moves (x0 : Packet) (s : State) {t : State} (h : (execSrvHstatus x0 s) = .next t) :
    Moves [.trc, .host, .het, .evr, .out] s t := by
  unfold execSrvHstatus at h
  repeat' (first | contradiction | (injection h with h; subst h) | split at h)
  all_goals (repeat' (first
    | with_reducible exact Moves.refl _ _
    | with_reducible assumption
    | extract_lets
    | with_reducible refine Moves.ite ?_ ?_
    | with_reducible refine Moves.itePkt ?_ ?_
    | with_reducible refine runPacket_moves (by decide) (fun s => ?_)
    | with_reducible refine (PktRes.report_moves ..).after (by decide) ?_
    | with_reducible refine (Moves.fold _ _ _ ?_).behind ?_
    | intro _
    | split
    | ((conv => arg 3; with_reducible whnf); split)))

theorem opSrvClear_moves (x0 : Packet) (s : State) :
    Moves [.engSrv, .headSrv] s (opSrvClear x0 s).state := by
  unfold opSrvClear
  dsimp only
  repeat' (first
    | with_reducible exact Moves.refl _ _
    | with_reducible assumption
    | extract_lets
    | with_reducible refine Moves.ite ?_ ?_
    | with_reducible refine Moves.itePkt ?_ ?_
    | with_reducible refine (State.modSrv_moves ..).after (by decide) ?_
    | with_reducible refine (State.modHs_moves ..).after (by decide) ?_
    | with_reducible refine (Moves.fold _ _ _ ?_).behind ?_
    | intro _
    | split
    | ((conv => arg 3; with_reducible whnf); split))

theorem execSrvClear_moves (x0 : Packet) (s : State) {t : State} (h : (execSrvClear x0 s) = .next t) :
    Moves [.trc, .host, .het, .evr, .out, .engSrv, .headSrv] s t := by
  unfold execSrvClear at h
  repeat' (first | contradiction | (injection h with h; subst h) | split at h)
  all_goals (repeat' (first
    | with_reducible exact Moves.refl _ _
    | with_reducible assumption
    | extract_lets
    | with_reducible refine Moves.ite ?_ ?_
    | with_reducible refine Moves.itePkt ?_ ?_
    | with_reducible refine (opSrvClear_moves ..).after (by decide) ?_
    | with_reducible refine runPacket_moves (by decide) (fun s => ?_)
    | with_reducible refine (Moves.fold _ _ _ ?_).behind ?_
    | intro _
    | split
    | ((conv => arg 3; with_reducible whnf); split)))

end Sys2Proof.Machine
end

