-- ==== Sys2Proof/Laws/MovesSpindle.lean ====
section
/-! SUPPORT. What each operation and each command of Machine/Spindle.lean can touch. -/

namespace Sys2Proof.Machine
open Sys2Proof
set_option linter.all false
set_option Elab.async false

theorem State.armRepeating_moves (s : State) (x1 : Eng) :
    Moves [.reel] s (State.armRepeating s x1) := by
  unfold State.armRepeating
  repeat' (first
    | with_reducible exact Moves.refl _ _
    | with_reducible assumption
    | extract_lets
    | with_reducible refine Moves.ite ?_ ?_
    | with_reducible refine (State.armFixed_moves ..).after (by decide) ?_
    | with_reducible refine (Moves.fold _ _ _ ?_).behind ?_
    | intro _
    | split
    | ((conv => arg 3; with_reducible whnf); split))

theorem State.reportCommutation_moves (s : State) :
    Moves [.slice, .lane, .pool, .trc, .pwr, .evr, .reel, .links, .recv, .engSrv, .seq, .rd, .det, .wr, .headSrv, .map, .freq] s (State.reportCommutation s) := by
  unfold State.reportCommutation
  repeat' (first
    | with_reducible exact Moves.refl _ _
    | with_reducible assumption
    | extract_lets
    | with_reducible refine Moves.ite ?_ ?_
    | with_reducible refine (State.enterIdle_moves ..).after (by decide) ?_
    | with_reducible refine (State.modReel_moves ..).after (by decide) ?_
    | with_reducible refine (State.armRepeating_moves ..).after (by decide) ?_
    | with_reducible refine (Moves.fold _ _ _ ?_).behind ?_
    | intro _
    | split
    | ((conv => arg 3; with_reducible whnf); split))

theorem State.reportStandstill_moves (s : State) :
    Moves [.slice, .lane, .pool, .trc, .q, .pwr, .evr, .reel, .links, .recv, .engSrv, .seq, .rd, .det, .wr, .headSrv, .map, .freq] s (State.reportStandstill s) := by
  unfold State.reportStandstill
  repeat' (first
    | with_reducible exact Moves.refl _ _
    | with_reducible assumption
    | extract_lets
    | with_reducible refine Moves.ite ?_ ?_
    | with_reducible refine (State.stopTimeline_moves ..).after (by decide) ?_
    | with_reducible refine (State.modReel_moves ..).after (by decide) ?_
    | with_reducible refine (Moves.fold _ _ _ ?_).behind ?_
    | intro _
    | split
    | ((conv => arg 3; with_reducible whnf); split))

theorem State.enterStopped_moves (s : State) :
    Moves [.slice, .lane, .pool, .lpe, .trc, .spn, .q, .pwr, .evr, .reel, .links, .recv, .engSrv, .seq, .rd, .det, .wr, .headSrv, .map, .freq] s (State.enterStopped s) := by
  unfold State.enterStopped
  repeat' (first
    | with_reducible exact Moves.refl _ _
    | with_reducible assumption
    | extract_lets
    | with_reducible refine Moves.ite ?_ ?_
    | with_reducible refine (State.modSpn_moves ..).after (by decide) ?_
    | with_reducible refine (State.disableSlot_moves ..).after (by decide) ?_
    | with_reducible refine (State.reportStandstill_moves ..).after (by decide) ?_
    | with_reducible refine (Moves.fold _ _ _ ?_).behind ?_
    | intro _
    | split
    | ((conv => arg 3; with_reducible whnf); split))

theorem State.pavaneAll_moves (s : State) :
    Moves [.trc, .evr, .rst, .links, .engSrv, .seq, .wr, .headSrv] s (State.pavaneAll s) := by
  unfold State.pavaneAll
  repeat' (first
    | with_reducible exact Moves.refl _ _
    | with_reducible assumption
    | extract_lets
    | with_reducible refine Moves.ite ?_ ?_
    | with_reducible refine (State.pavane_moves ..).after (by decide) ?_
    | with_reducible refine (Moves.fold _ _ _ ?_).behind ?_
    | intro _
    | split
    | ((conv => arg 3; with_reducible whnf); split))

theorem State.enterBrake_moves (s : State) (x1 : AfterBrake) :
    Moves [.trc, .spn, .evr, .rst, .links, .engSrv, .seq, .wr, .headSrv] s (State.enterBrake s x1) := by
  unfold State.enterBrake
  repeat' (first
    | with_reducible exact Moves.refl _ _
    | with_reducible assumption
    | extract_lets
    | with_reducible refine Moves.ite ?_ ?_
    | with_reducible refine (State.pavaneAll_moves ..).after (by decide) ?_
    | with_reducible refine (State.modSpn_moves ..).after (by decide) ?_
    | with_reducible refine (Moves.fold _ _ _ ?_).behind ?_
    | intro _
    | split
    | ((conv => arg 3; with_reducible whnf); split))

theorem State.enterAlign_moves (s : State) :
    Moves [.spn] s (State.enterAlign s) := by
  unfold State.enterAlign
  repeat' (first
    | with_reducible exact Moves.refl _ _
    | with_reducible assumption
    | extract_lets
    | with_reducible refine Moves.ite ?_ ?_
    | with_reducible refine (State.modSpn_moves ..).after (by decide) ?_
    | with_reducible refine (Moves.fold _ _ _ ?_).behind ?_
    | intro _
    | split
    | ((conv => arg 3; with_reducible whnf); split))

theorem State.spindleStart_moves (s : State) :
    Moves [.spn] s (State.spindleStart s) := by
  unfold State.spindleStart
  repeat' (first
    | with_reducible exact Moves.refl _ _
    | with_reducible assumption
    | extract_lets
    | with_reducible refine Moves.ite ?_ ?_
    | with_reducible refine (State.modSpn_moves ..).after (by decide) ?_
    | with_reducible refine (Moves.fold _ _ _ ?_).behind ?_
    | intro _
    | split
    | ((conv => arg 3; with_reducible whnf); split))

theorem State.keepPhase_moves (s : State) :
    Moves [.reel] s (State.keepPhase s) := by
  unfold State.keepPhase
  repeat' (first
    | with_reducible exact Moves.refl _ _
    | with_reducible assumption
    | extract_lets
    | with_reducible refine Moves.ite ?_ ?_
    | with_reducible refine (State.modReel_moves ..).after (by decide) ?_
    | with_reducible refine (Moves.fold _ _ _ ?_).behind ?_
    | intro _
    | split
    | ((conv => arg 3; with_reducible whnf); split))

theorem State.enterRun_moves (s : State) (x1 : Nat) :
    Moves [.slice, .lane, .pool, .lpe, .trc, .spn, .pwr, .evr, .reel, .links, .recv, .engSrv, .seq, .rd, .det, .wr, .headSrv, .map, .freq] s (State.enterRun s x1) := by
  unfold State.enterRun
  repeat' (first
    | with_reducible exact Moves.refl _ _
    | with_reducible assumption
    | extract_lets
    | with_reducible refine Moves.ite ?_ ?_
    | with_reducible refine (State.modSpn_moves ..).after (by decide) ?_
    | with_reducible refine (State.enableSlot_moves ..).after (by decide) ?_
    | with_reducible refine (State.keepPhase_moves ..).after (by decide) ?_
    | with_reducible refine (State.reportCommutation_moves ..).after (by decide) ?_
    | with_reducible refine (Moves.fold _ _ _ ?_).behind ?_
    | intro _
    | split
    | ((conv => arg 3; with_reducible whnf); split))

theorem State.startFailed_moves (s : State) :
    Moves [.trc, .spn, .evr, .rst, .links, .engSrv, .seq, .wr, .headSrv] s (State.startFailed s) := by
  unfold State.startFailed
  repeat' (first
    | with_reducible exact Moves.refl _ _
    | with_reducible assumption
    | extract_lets
    | with_reducible refine Moves.ite ?_ ?_
    | with_reducible refine (State.modSpn_moves ..).after (by decide) ?_
    | with_reducible refine (State.condSpn_moves ..).after (by decide) ?_
    | with_reducible refine (State.saturated_moves ..).after (by decide) ?_
    | with_reducible refine (State.enterBrake_moves ..).after (by decide) ?_
    | with_reducible refine (Moves.fold _ _ _ ?_).behind ?_
    | intro _
    | split
    | ((conv => arg 3; with_reducible whnf); split))

theorem State.resync_moves (s : State) :
    Moves [.slice, .lane, .pool, .lpe, .trc, .spn, .pwr, .evr, .rst, .reel, .links, .recv, .engSrv, .seq, .rd, .det, .wr, .headSrv, .map, .freq] s (State.resync s) := by
  unfold State.resync
  repeat' (first
    | with_reducible exact Moves.refl _ _
    | with_reducible assumption
    | extract_lets
    | with_reducible refine Moves.ite ?_ ?_
    | with_reducible refine (State.enterRun_moves ..).after (by decide) ?_
    | with_reducible refine (State.modSpn_moves ..).after (by decide) ?_
    | with_reducible refine (State.saturated_moves ..).after (by decide) ?_
    | with_reducible refine (State.enterBrake_moves ..).after (by decide) ?_
    | with_reducible refine (Moves.fold _ _ _ ?_).behind ?_
    | intro _
    | split
    | ((conv => arg 3; with_reducible whnf); split))

theorem State.detected_moves (s : State) (x1 : Nat) (x2 : Bool) (x3 : Nat) :
    Moves [.slice, .lane, .pool, .lpe, .trc, .spn, .q, .pwr, .evr, .rst, .reel, .links, .recv, .engSrv, .seq, .rd, .det, .wr, .headSrv, .map, .freq] s (State.detected s x1 x2 x3) := by
  unfold State.detected
  repeat' (first
    | with_reducible exact Moves.refl _ _
    | with_reducible assumption
    | extract_lets
    | with_reducible refine Moves.ite ?_ ?_
    | with_reducible refine (State.enterStopped_moves ..).after (by decide) ?_
    | with_reducible refine (State.enterBrake_moves ..).after (by decide) ?_
    | with_reducible refine (State.enterAlign_moves ..).after (by decide) ?_
    | with_reducible refine (State.modSpn_moves ..).after (by decide) ?_
    | with_reducible refine (Moves.fold _ _ _ ?_).behind ?_
    | intro _
    | split
    | ((conv => arg 3; with_reducible whnf); split))

theorem execZeroCrossing_moves (x0 : Crossing) (s : State) {t : State} (h : (execZeroCrossing x0 s) = .next t) :
    Moves [.slice, .lane, .pool, .lpe, .trc, .spn, .q, .pwr, .evr, .rst, .reel, .links, .recv, .engSrv, .seq, .rd, .det, .wr, .headSrv, .map, .freq] s t := by
  unfold execZeroCrossing at h
  repeat' (first | contradiction | (injection h with h; subst h) | split at h)
  all_goals (repeat' (first
    | with_reducible exact Moves.refl _ _
    | with_reducible assumption
    | extract_lets
    | with_reducible refine Moves.ite ?_ ?_
    | with_reducible refine (State.modSpn_moves ..).after (by decide) ?_
    | with_reducible refine (State.resync_moves ..).after (by decide) ?_
    | with_reducible refine (State.detected_moves ..).after (by decide) ?_
    | with_reducible refine (State.startFailed_moves ..).after (by decide) ?_
    | with_reducible refine (State.enterRun_moves ..).after (by decide) ?_
    | with_reducible refine (Moves.fold _ _ _ ?_).behind ?_
    | intro _
    | split
    | ((conv => arg 3; with_reducible whnf); split)))

theorem State.enterPredict_moves (s : State) :
    Moves [.lpe, .trc, .spn, .evr] s (State.enterPredict s) := by
  unfold State.enterPredict
  repeat' (first
    | with_reducible exact Moves.refl _ _
    | with_reducible assumption
    | extract_lets
    | with_reducible refine Moves.ite ?_ ?_
    | with_reducible refine (State.saturated_moves ..).after (by decide) ?_
    | with_reducible refine (State.modSpn_moves ..).after (by decide) ?_
    | with_reducible refine (State.modLoop_moves ..).after (by decide) ?_
    | with_reducible refine (Moves.fold _ _ _ ?_).behind ?_
    | intro _
    | split
    | ((conv => arg 3; with_reducible whnf); split))

theorem State.missCrossing_moves (s : State) :
    Moves [.lpe, .trc, .spn, .evr] s (State.missCrossing s) := by
  unfold State.missCrossing
  repeat' (first
    | with_reducible exact Moves.refl _ _
    | with_reducible assumption
    | extract_lets
    | with_reducible refine Moves.ite ?_ ?_
    | with_reducible refine (State.enterPredict_moves ..).after (by decide) ?_
    | with_reducible refine (State.modSpn_moves ..).after (by decide) ?_
    | with_reducible refine (Moves.fold _ _ _ ?_).behind ?_
    | intro _
    | split
    | ((conv => arg 3; with_reducible whnf); split))

theorem execCrossingMissed_moves (s : State) {t : State} (h : (execCrossingMissed s) = .next t) :
    Moves [.lpe, .trc, .spn, .evr] s t := by
  unfold execCrossingMissed at h
  repeat' (first | contradiction | (injection h with h; subst h) | split at h)
  all_goals (repeat' (first
    | with_reducible exact Moves.refl _ _
    | with_reducible assumption
    | extract_lets
    | with_reducible refine Moves.ite ?_ ?_
    | with_reducible refine (State.modSpn_moves ..).after (by decide) ?_
    | with_reducible refine (State.missCrossing_moves ..).after (by decide) ?_
    | with_reducible refine (Moves.fold _ _ _ ?_).behind ?_
    | intro _
    | split
    | ((conv => arg 3; with_reducible whnf); split)))

theorem State.followCommutation_moves (s : State) :
    Moves [.reel] s (State.followCommutation s) := by
  unfold State.followCommutation
  repeat' (first
    | with_reducible exact Moves.refl _ _
    | with_reducible assumption
    | extract_lets
    | with_reducible refine Moves.ite ?_ ?_
    | with_reducible refine (State.modReel_moves ..).after (by decide) ?_
    | with_reducible refine (Moves.fold _ _ _ ?_).behind ?_
    | intro _
    | split
    | ((conv => arg 3; with_reducible whnf); split))

theorem execCommutation_moves (x0 : Nat) (x1 : Bool) (s : State) {t : State} (h : (execCommutation x0 x1 s) = .next t) :
    Moves [.lpe, .trc, .spn, .evr, .reel] s t := by
  unfold execCommutation at h
  repeat' (first | contradiction | (injection h with h; subst h) | split at h)
  all_goals (repeat' (first
    | with_reducible exact Moves.refl _ _
    | with_reducible assumption
    | extract_lets
    | with_reducible refine Moves.ite ?_ ?_
    | with_reducible refine (State.modSpn_moves ..).after (by decide) ?_
    | with_reducible refine (State.missCrossing_moves ..).after (by decide) ?_
    | with_reducible refine (State.followCommutation_moves ..).after (by decide) ?_
    | with_reducible refine (Moves.fold _ _ _ ?_).behind ?_
    | intro _
    | split
    | ((conv => arg 3; with_reducible whnf); split)))

theorem execRotorLockLoss_moves (s : State) {t : State} (h : (execRotorLockLoss s) = .next t) :
    Moves [.trc, .spn, .evr, .rst, .links, .engSrv, .seq, .wr, .headSrv] s t := by
  unfold execRotorLockLoss at h
  repeat' (first | contradiction | (injection h with h; subst h) | split at h)
  all_goals (repeat' (first
    | with_reducible exact Moves.refl _ _
    | with_reducible assumption
    | extract_lets
    | with_reducible refine Moves.ite ?_ ?_
    | with_reducible refine (State.pavaneAll_moves ..).after (by decide) ?_
    | with_reducible refine (State.modSpn_moves ..).after (by decide) ?_
    | with_reducible refine (State.condSpn_moves ..).after (by decide) ?_
    | with_reducible refine (State.saturated_moves ..).after (by decide) ?_
    | with_reducible refine (Moves.fold _ _ _ ?_).behind ?_
    | intro _
    | split
    | ((conv => arg 3; with_reducible whnf); split)))

theorem execCoastTimeout_moves (s : State) {t : State} (h : (execCoastTimeout s) = .next t) :
    Moves [.trc, .spn, .evr, .rst, .links, .engSrv, .seq, .wr, .headSrv] s t := by
  unfold execCoastTimeout at h
  repeat' (first | contradiction | (injection h with h; subst h) | split at h)
  all_goals (repeat' (first
    | with_reducible exact Moves.refl _ _
    | with_reducible assumption
    | extract_lets
    | with_reducible refine Moves.ite ?_ ?_
    | with_reducible refine (State.modSpn_moves ..).after (by decide) ?_
    | with_reducible refine (State.enterBrake_moves ..).after (by decide) ?_
    | with_reducible refine (Moves.fold _ _ _ ?_).behind ?_
    | intro _
    | split
    | ((conv => arg 3; with_reducible whnf); split)))

theorem execDetectTimeout_moves (x0 : Rotation) (s : State) {t : State} (h : (execDetectTimeout x0 s) = .next t) :
    Moves [.slice, .lane, .pool, .lpe, .trc, .spn, .q, .pwr, .evr, .rst, .reel, .links, .recv, .engSrv, .seq, .rd, .det, .wr, .headSrv, .map, .freq] s t := by
  unfold execDetectTimeout at h
  repeat' (first | contradiction | (injection h with h; subst h) | split at h)
  all_goals (repeat' (first
    | with_reducible exact Moves.refl _ _
    | with_reducible assumption
    | extract_lets
    | with_reducible refine Moves.ite ?_ ?_
    | with_reducible refine (State.modSpn_moves ..).after (by decide) ?_
    | with_reducible refine (State.detected_moves ..).after (by decide) ?_
    | with_reducible refine (Moves.fold _ _ _ ?_).behind ?_
    | intro _
    | split
    | ((conv => arg 3; with_reducible whnf); split)))

theorem execBrakeShortEnd_moves (s : State) {t : State} (h : (execBrakeShortEnd s) = .next t) :
    Moves [.spn] s t := by
  unfold execBrakeShortEnd at h
  repeat' (first | contradiction | (injection h with h; subst h) | split at h)
  all_goals (repeat' (first
    | with_reducible exact Moves.refl _ _
    | with_reducible assumption
    | extract_lets
    | with_reducible refine Moves.ite ?_ ?_
    | with_reducible refine (State.modSpn_moves ..).after (by decide) ?_
    | with_reducible refine (Moves.fold _ _ _ ?_).behind ?_
    | intro _
    | split
    | ((conv => arg 3; with_reducible whnf); split)))

theorem execBrakeObserveEnd_moves (x0 : Nat) (s : State) {t : State} (h : (execBrakeObserveEnd x0 s) = .next t) :
    Moves [.slice, .lane, .pool, .lpe, .trc, .spn, .q, .pwr, .evr, .reel, .links, .recv, .engSrv, .seq, .rd, .det, .wr, .headSrv, .map, .freq] s t := by
  unfold execBrakeObserveEnd at h
  repeat' (first | contradiction | (injection h with h; subst h) | split at h)
  all_goals (repeat' (first
    | with_reducible exact Moves.refl _ _
    | with_reducible assumption
    | extract_lets
    | with_reducible refine Moves.ite ?_ ?_
    | with_reducible refine (State.modSpn_moves ..).after (by decide) ?_
    | with_reducible refine (State.enterStopped_moves ..).after (by decide) ?_
    | with_reducible refine (Moves.fold _ _ _ ?_).behind ?_
    | intro _
    | split
    | ((conv => arg 3; with_reducible whnf); split)))

theorem execBrakeSettleEnd_moves (s : State) {t : State} (h : (execBrakeSettleEnd s) = .next t) :
    Moves [.spn] s t := by
  unfold execBrakeSettleEnd at h
  repeat' (first | contradiction | (injection h with h; subst h) | split at h)
  all_goals (repeat' (first
    | with_reducible exact Moves.refl _ _
    | with_reducible assumption
    | extract_lets
    | with_reducible refine Moves.ite ?_ ?_
    | with_reducible refine (State.enterAlign_moves ..).after (by decide) ?_
    | with_reducible refine (Moves.fold _ _ _ ?_).behind ?_
    | intro _
    | split
    | ((conv => arg 3; with_reducible whnf); split)))

theorem execAlignEnd_moves (s : State) {t : State} (h : (execAlignEnd s) = .next t) :
    Moves [.spn] s t := by
  unfold execAlignEnd at h
  repeat' (first | contradiction | (injection h with h; subst h) | split at h)
  all_goals (repeat' (first
    | with_reducible exact Moves.refl _ _
    | with_reducible assumption
    | extract_lets
    | with_reducible refine Moves.ite ?_ ?_
    | with_reducible refine (State.modSpn_moves ..).after (by decide) ?_
    | with_reducible refine (Moves.fold _ _ _ ?_).behind ?_
    | intro _
    | split
    | ((conv => arg 3; with_reducible whnf); split)))

theorem execOpenLoopStep_moves (x0 : Bool) (s : State) {t : State} (h : (execOpenLoopStep x0 s) = .next t) :
    Moves [.trc, .spn, .evr, .rst, .links, .engSrv, .seq, .wr, .headSrv] s t := by
  unfold execOpenLoopStep at h
  repeat' (first | contradiction | (injection h with h; subst h) | split at h)
  all_goals (repeat' (first
    | with_reducible exact Moves.refl _ _
    | with_reducible assumption
    | extract_lets
    | with_reducible refine Moves.ite ?_ ?_
    | with_reducible refine (State.startFailed_moves ..).after (by decide) ?_
    | with_reducible refine (State.modSpn_moves ..).after (by decide) ?_
    | with_reducible refine (Moves.fold _ _ _ ?_).behind ?_
    | intro _
    | split
    | ((conv => arg 3; with_reducible whnf); split)))

theorem execStartAttemptTimeout_moves (s : State) {t : State} (h : (execStartAttemptTimeout s) = .next t) :
    Moves [.trc, .spn, .evr, .rst, .links, .engSrv, .seq, .wr, .headSrv] s t := by
  unfold execStartAttemptTimeout at h
  repeat' (first | contradiction | (injection h with h; subst h) | split at h)
  all_goals (repeat' (first
    | with_reducible exact Moves.refl _ _
    | with_reducible assumption
    | extract_lets
    | with_reducible refine Moves.ite ?_ ?_
    | with_reducible refine (State.startFailed_moves ..).after (by decide) ?_
    | with_reducible refine (Moves.fold _ _ _ ?_).behind ?_
    | intro _
    | split
    | ((conv => arg 3; with_reducible whnf); split)))

theorem State.speedInc_moves (s : State) :
    Moves [.reel] s (State.speedInc s) := by
  unfold State.speedInc
  repeat' (first
    | with_reducible exact Moves.refl _ _
    | with_reducible assumption
    | extract_lets
    | with_reducible refine Moves.ite ?_ ?_
    | with_reducible refine (State.modReel_moves ..).after (by decide) ?_
    | with_reducible refine (Moves.fold _ _ _ ?_).behind ?_
    | intro _
    | split
    | ((conv => arg 3; with_reducible whnf); split))

theorem execSpindleSample_moves (s : State) {t : State} (h : (execSpindleSample s) = .next t) :
    Moves [.mems, .lpe, .spn, .reel] s t := by
  unfold execSpindleSample at h
  repeat' (first | contradiction | (injection h with h; subst h) | split at h)
  all_goals (repeat' (first
    | with_reducible exact Moves.refl _ _
    | with_reducible assumption
    | extract_lets
    | with_reducible refine Moves.ite ?_ ?_
    | with_reducible refine (State.modSpn_moves ..).after (by decide) ?_
    | with_reducible refine (State.speedInc_moves ..).after (by decide) ?_
    | with_reducible refine (State.modLoop_moves ..).after (by decide) ?_
    | with_reducible refine (State.latch_moves ..).after (by decide) ?_
    | with_reducible refine (Moves.fold _ _ _ ?_).behind ?_
    | intro _
    | split
    | ((conv => arg 3; with_reducible whnf); split)))

theorem State.changeBand_moves (s : State) (x1 : ℕ) :
    Moves [.lpe, .spn] s (State.changeBand s x1) := by
  unfold State.changeBand
  repeat' (first
    | with_reducible exact Moves.refl _ _
    | with_reducible assumption
    | extract_lets
    | with_reducible refine Moves.ite ?_ ?_
    | with_reducible refine (State.settleSwapWait_moves ..).after (by decide) ?_
    | with_reducible refine (State.requestSwap_moves ..).after (by decide) ?_
    | with_reducible refine (State.modSpn_moves ..).after (by decide) ?_
    | with_reducible refine (Moves.fold _ _ _ ?_).behind ?_
    | intro _
    | split
    | ((conv => arg 3; with_reducible whnf); split))

theorem execNrefUpdate_moves (s : State) {t : State} (h : (execNrefUpdate s) = .next t) :
    Moves [.lpe, .trc, .spn, .evr, .rst, .links, .engSrv, .seq, .wr, .headSrv] s t := by
  unfold execNrefUpdate at h
  repeat' (first | contradiction | (injection h with h; subst h) | split at h)
  all_goals (repeat' (first
    | with_reducible exact Moves.refl _ _
    | with_reducible assumption
    | extract_lets
    | with_reducible refine Moves.ite ?_ ?_
    | with_reducible refine (State.modSpn_moves ..).after (by decide) ?_
    | with_reducible refine (State.changeBand_moves ..).after (by decide) ?_
    | with_reducible refine (State.disableSlot_moves ..).after (by decide) ?_
    | with_reducible refine (State.enterBrake_moves ..).after (by decide) ?_
    | with_reducible refine (Moves.fold _ _ _ ?_).behind ?_
    | intro _
    | split
    | ((conv => arg 3; with_reducible whnf); split)))

theorem State.setRail_moves (s : State) (x1 : ℕ) :
    Moves [.free, .trc, .spn, .evr] s (State.setRail s x1) := by
  unfold State.setRail
  repeat' (first
    | with_reducible exact Moves.refl _ _
    | with_reducible assumption
    | extract_lets
    | with_reducible refine Moves.ite ?_ ?_
    | with_reducible refine (State.saturated_moves ..).after (by decide) ?_
    | with_reducible refine (State.condSpn_moves ..).after (by decide) ?_
    | with_reducible refine (State.modSpn_moves ..).after (by decide) ?_
    | with_reducible refine (State.fresh_moves ..).after (by decide) ?_
    | with_reducible refine (Moves.fold _ _ _ ?_).behind ?_
    | intro _
    | split
    | ((conv => arg 3; with_reducible whnf); split)
    | with_reducible refine Moves.pair2 (by assumption) ?_)

theorem execChopperSwitch_moves (x0 : ℕ) (s : State) {t : State} (h : (execChopperSwitch x0 s) = .next t) :
    Moves [.free, .trc, .spn, .evr] s t := by
  unfold execChopperSwitch at h
  repeat' (first | contradiction | (injection h with h; subst h) | split at h)
  all_goals (repeat' (first
    | with_reducible exact Moves.refl _ _
    | with_reducible assumption
    | extract_lets
    | with_reducible refine Moves.ite ?_ ?_
    | with_reducible refine (State.setRail_moves ..).after (by decide) ?_
    | with_reducible refine (Moves.fold _ _ _ ?_).behind ?_
    | intro _
    | split
    | ((conv => arg 3; with_reducible whnf); split)))

theorem execRailOvervoltage_moves (x0 : ℕ) (s : State) {t : State} (h : (execRailOvervoltage x0 s) = .next t) :
    Moves [.free, .trc, .spn, .evr] s t := by
  unfold execRailOvervoltage at h
  repeat' (first | contradiction | (injection h with h; subst h) | split at h)
  all_goals (repeat' (first
    | with_reducible exact Moves.refl _ _
    | with_reducible assumption
    | extract_lets
    | with_reducible refine Moves.ite ?_ ?_
    | with_reducible refine (State.setRail_moves ..).after (by decide) ?_
    | with_reducible refine (Moves.fold _ _ _ ?_).behind ?_
    | intro _
    | split
    | ((conv => arg 3; with_reducible whnf); split)))

theorem execChopperBucketThreshold_moves (x0 : ℕ) (s : State) {t : State} (h : (execChopperBucketThreshold x0 s) = .next t) :
    Moves [.trc, .spn, .evr] s t := by
  unfold execChopperBucketThreshold at h
  repeat' (first | contradiction | (injection h with h; subst h) | split at h)
  all_goals (repeat' (first
    | with_reducible exact Moves.refl _ _
    | with_reducible assumption
    | extract_lets
    | with_reducible refine Moves.ite ?_ ?_
    | with_reducible refine (State.saturated_moves ..).after (by decide) ?_
    | with_reducible refine (State.modSpn_moves ..).after (by decide) ?_
    | with_reducible refine (Moves.fold _ _ _ ?_).behind ?_
    | intro _
    | split
    | ((conv => arg 3; with_reducible whnf); split)))

theorem State.chopperFault_moves (s : State) (x1 : ℕ) :
    Moves [.trc, .spn, .evr] s (State.chopperFault s x1) := by
  unfold State.chopperFault
  repeat' (first
    | with_reducible exact Moves.refl _ _
    | with_reducible assumption
    | extract_lets
    | with_reducible refine Moves.ite ?_ ?_
    | with_reducible refine (State.saturated_moves ..).after (by decide) ?_
    | with_reducible refine (State.condSpn_moves ..).after (by decide) ?_
    | with_reducible refine (State.modSpn_moves ..).after (by decide) ?_
    | with_reducible refine (Moves.fold _ _ _ ?_).behind ?_
    | intro _
    | split
    | ((conv => arg 3; with_reducible whnf); split))

theorem execChopperFault_moves (x0 : ℕ) (s : State) {t : State} (h : (execChopperFault x0 s) = .next t) :
    Moves [.trc, .spn, .evr] s t := by
  unfold execChopperFault at h
  repeat' (first | contradiction | (injection h with h; subst h) | split at h)
  all_goals (repeat' (first
    | with_reducible exact Moves.refl _ _
    | with_reducible assumption
    | extract_lets
    | with_reducible refine Moves.ite ?_ ?_
    | with_reducible refine (State.chopperFault_moves ..).after (by decide) ?_
    | with_reducible refine (Moves.fold _ _ _ ?_).behind ?_
    | intro _
    | split
    | ((conv => arg 3; with_reducible whnf); split)))

theorem State.storeBolero_moves (s : State) (x1 : BoleroSet) :
    Moves [.spn] s (State.storeBolero s x1) := by
  unfold State.storeBolero
  repeat' (first
    | with_reducible exact Moves.refl _ _
    | with_reducible assumption
    | extract_lets
    | with_reducible refine Moves.ite ?_ ?_
    | with_reducible refine (State.modSpn_moves ..).after (by decide) ?_
    | with_reducible refine (Moves.fold _ _ _ ?_).behind ?_
    | intro _
    | split
    | ((conv => arg 3; with_reducible whnf); split))

theorem execSpindleStatus_moves (x0 : Packet) (s : State) {t : State} (h : (execSpindleStatus x0 s) = .next t) :
    Moves [.trc, .host, .het, .evr, .out] s t := by
  unfold execSpindleStatus at h
  repeat' (first | contradiction | (injection h with h; subst h) | split at h)
  all_goals (repeat' (first
    | with_reducible exact Moves.refl _ _
    | with_reducible assumption
    | extract_lets
    | with_reducible refine Moves.ite ?_ ?_
    | with_reducible refine Moves.itePkt ?_ ?_
    | with_reducible refine runPacket_moves (by decide) (fun s => ?_)
    | with_reducible refine (PktRes.report_moves ..).after (by decide) ?_
    | with_reducible refine (Moves.fold _ _ _ ?_).behind ?_
    | intro _
    | split
    | ((conv => arg 3; with_reducible whnf); split)))

theorem opSpindleTarget_moves (x0 : Packet) (s : State) :
    Moves [.spn] s (opSpindleTarget x0 s).state := by
  unfold opSpindleTarget
  repeat' (first
    | with_reducible exact Moves.refl _ _
    | with_reducible assumption
    | extract_lets
    | with_reducible refine Moves.ite ?_ ?_
    | with_reducible refine Moves.itePkt ?_ ?_
    | with_reducible refine (State.storeBolero_moves ..).after (by decide) ?_
    | with_reducible refine (Moves.fold _ _ _ ?_).behind ?_
    | intro _
    | split
    | ((conv => arg 3; with_reducible whnf); split))

theorem execSpindleTarget_moves (x0 : Packet) (s : State) {t : State} (h : (execSpindleTarget x0 s) = .next t) :
    Moves [.trc, .spn, .host, .het, .evr, .out] s t := by
  unfold execSpindleTarget at h
  repeat' (first | contradiction | (injection h with h; subst h) | split at h)
  all_goals (repeat' (first
    | with_reducible exact Moves.refl _ _
    | with_reducible assumption
    | extract_lets
    | with_reducible refine Moves.ite ?_ ?_
    | with_reducible refine Moves.itePkt ?_ ?_
    | with_reducible refine (opSpindleTarget_moves ..).after (by decide) ?_
    | with_reducible refine runPacket_moves (by decide) (fun s => ?_)
    | with_reducible refine (Moves.fold _ _ _ ?_).behind ?_
    | intro _
    | split
    | ((conv => arg 3; with_reducible whnf); split)))

theorem opSpindleBolero_moves (x0 : Packet) (s : State) :
    Moves [.spn] s (opSpindleBolero x0 s).state := by
  unfold opSpindleBolero
  repeat' (first
    | with_reducible exact Moves.refl _ _
    | with_reducible assumption
    | extract_lets
    | with_reducible refine Moves.ite ?_ ?_
    | with_reducible refine Moves.itePkt ?_ ?_
    | with_reducible refine (State.storeBolero_moves ..).after (by decide) ?_
    | with_reducible refine (Moves.fold _ _ _ ?_).behind ?_
    | intro _
    | split
    | ((conv => arg 3; with_reducible whnf); split))

theorem execSpindleBolero_moves (x0 : Packet) (s : State) {t : State} (h : (execSpindleBolero x0 s) = .next t) :
    Moves [.trc, .spn, .host, .het, .evr, .out] s t := by
  unfold execSpindleBolero at h
  repeat' (first | contradiction | (injection h with h; subst h) | split at h)
  all_goals (repeat' (first
    | with_reducible exact Moves.refl _ _
    | with_reducible assumption
    | extract_lets
    | with_reducible refine Moves.ite ?_ ?_
    | with_reducible refine Moves.itePkt ?_ ?_
    | with_reducible refine (opSpindleBolero_moves ..).after (by decide) ?_
    | with_reducible refine runPacket_moves (by decide) (fun s => ?_)
    | with_reducible refine (Moves.fold _ _ _ ?_).behind ?_
    | intro _
    | split
    | ((conv => arg 3; with_reducible whnf); split)))

theorem State.setPavane_moves (s : State) (x1 : ℕ) (x2 : ℕ) (x3 : ℕ) :
    Moves [.trc, .spn, .evr] s (State.setPavane s x1 x2 x3) := by
  unfold State.setPavane
  repeat' (first
    | with_reducible exact Moves.refl _ _
    | with_reducible assumption
    | extract_lets
    | with_reducible refine Moves.ite ?_ ?_
    | with_reducible refine (State.condSpn_moves ..).after (by decide) ?_
    | with_reducible refine (State.modSpn_moves ..).after (by decide) ?_
    | with_reducible refine (Moves.fold _ _ _ ?_).behind ?_
    | intro _
    | split
    | ((conv => arg 3; with_reducible whnf); split))

theorem opSpindleConfig_moves (x0 : Packet) (s : State) :
    Moves [.trc, .spn, .evr, .nor] s (opSpindleConfig x0 s).state := by
  unfold opSpindleConfig
  repeat' (first
    | with_reducible exact Moves.refl _ _
    | with_reducible assumption
    | extract_lets
    | with_reducible refine Moves.ite ?_ ?_
    | with_reducible refine Moves.itePkt ?_ ?_
    | with_reducible refine (State.setPavane_moves ..).after (by decide) ?_
    | with_reducible refine (State.modSpn_moves ..).after (by decide) ?_
    | with_reducible refine (State.modNor_moves _ _ (by intro n; repeat' (first | rfl | extract_lets | split))).after (by decide) ?_
    | with_reducible refine (Moves.fold _ _ _ ?_).behind ?_
    | intro _
    | split
    | ((conv => arg 3; with_reducible whnf); split))

theorem execSpindleConfig_moves (x0 : Packet) (s : State) {t : State} (h : (execSpindleConfig x0 s) = .next t) :
    Moves [.trc, .spn, .host, .het, .evr, .nor, .out] s t := by
  unfold execSpindleConfig at h
  repeat' (first | contradiction | (injection h with h; subst h) | split at h)
  all_goals (repeat' (first
    | with_reducible exact Moves.refl _ _
    | with_reducible assumption
    | extract_lets
    | with_reducible refine Moves.ite ?_ ?_
    | with_reducible refine Moves.itePkt ?_ ?_
    | with_reducible refine (opSpindleConfig_moves ..).after (by decide) ?_
    | with_reducible refine runPacket_moves (by decide) (fun s => ?_)
    | with_reducible refine (Moves.fold _ _ _ ?_).behind ?_
    | intro _
    | split
    | ((conv => arg 3; with_reducible whnf); split)))

theorem State.spindleStop_moves (s : State) :
    Moves [.slice, .lane, .pool, .lpe, .trc, .spn, .q, .pwr, .evr, .nor, .rst, .reel, .links, .recv, .engSrv, .seq, .rd, .det, .wr, .headSrv, .map, .freq] s (State.spindleStop s) := by
  unfold State.spindleStop
  repeat' (first
    | with_reducible exact Moves.refl _ _
    | with_reducible assumption
    | extract_lets
    | with_reducible refine Moves.ite ?_ ?_
    | with_reducible refine (State.controlledUnload_moves ..).after (by decide) ?_
    | with_reducible refine (State.modSpn_moves ..).after (by decide) ?_
    | with_reducible refine (State.enterStopped_moves ..).after (by decide) ?_
    | with_reducible refine (State.enterBrake_moves ..).after (by decide) ?_
    | with_reducible refine (Moves.fold _ _ _ ?_).behind ?_
    | intro _
    | split
    | ((conv => arg 3; with_reducible whnf); split))

theorem opSpindleRun_moves (x0 : Packet) (s : State) :
    Moves [.slice, .lane, .pool, .lpe, .trc, .spn, .q, .pwr, .evr, .nor, .rst, .reel, .links, .recv, .engSrv, .seq, .rd, .det, .wr, .headSrv, .map, .freq] s (opSpindleRun x0 s).state := by
  unfold opSpindleRun
  repeat' (first
    | with_reducible exact Moves.refl _ _
    | with_reducible assumption
    | extract_lets
    | with_reducible refine Moves.ite ?_ ?_
    | with_reducible refine Moves.itePkt ?_ ?_
    | with_reducible refine (PktRes.fail_moves ..).after (by decide) ?_
    | with_reducible refine (State.spindleStop_moves ..).after (by decide) ?_
    | with_reducible refine (State.spindleStart_moves ..).after (by decide) ?_
    | with_reducible refine (Moves.fold _ _ _ ?_).behind ?_
    | intro _
    | split
    | ((conv => arg 3; with_reducible whnf); split))

theorem execSpindleRunStop_moves (x0 : Packet) (s : State) {t : State} (h : (execSpindleRunStop x0 s) = .next t) :
    Moves [.slice, .lane, .pool, .lpe, .trc, .spn, .host, .q, .het, .pwr, .evr, .nor, .rst, .out, .reel, .links, .recv, .engSrv, .seq, .rd, .det, .wr, .headSrv, .map, .freq] s t := by
  unfold execSpindleRunStop at h
  repeat' (first | contradiction | (injection h with h; subst h) | split at h)
  all_goals (repeat' (first
    | with_reducible exact Moves.refl _ _
    | with_reducible assumption
    | extract_lets
    | with_reducible refine Moves.ite ?_ ?_
    | with_reducible refine Moves.itePkt ?_ ?_
    | with_reducible refine runPacket_moves (by decide) (fun s => ?_)
    | with_reducible refine (opSpindleRun_moves ..).after (by decide) ?_
    | with_reducible refine (Moves.fold _ _ _ ?_).behind ?_
    | intro _
    | split
    | ((conv => arg 3; with_reducible whnf); split)))

theorem execSpindleRunStart_moves (x0 : Packet) (s : State) {t : State} (h : (execSpindleRunStart x0 s) = .next t) :
    Moves [.slice, .lane, .pool, .lpe, .trc, .spn, .host, .q, .het, .pwr, .evr, .nor, .rst, .out, .reel, .links, .recv, .engSrv, .seq, .rd, .det, .wr, .headSrv, .map, .freq] s t := by
  unfold execSpindleRunStart at h
  repeat' (first | contradiction | (injection h with h; subst h) | split at h)
  all_goals (repeat' (first
    | with_reducible exact Moves.refl _ _
    | with_reducible assumption
    | extract_lets
    | with_reducible refine Moves.ite ?_ ?_
    | with_reducible refine Moves.itePkt ?_ ?_
    | with_reducible refine runPacket_moves (by decide) (fun s => ?_)
    | with_reducible refine (opSpindleRun_moves ..).after (by decide) ?_
    | with_reducible refine (Moves.fold _ _ _ ?_).behind ?_
    | intro _
    | split
    | ((conv => arg 3; with_reducible whnf); split)))

theorem opSpindleChopperTest_moves (s : State) :
    Moves [.free, .trc, .spn, .evr] s (opSpindleChopperTest s).state := by
  unfold opSpindleChopperTest
  repeat' (first
    | with_reducible exact Moves.refl _ _
    | with_reducible assumption
    | extract_lets
    | with_reducible refine Moves.ite ?_ ?_
    | with_reducible refine Moves.itePkt ?_ ?_
    | with_reducible refine (State.chopperFault_moves ..).after (by decide) ?_
    | with_reducible refine (PktRes.report_moves ..).after (by decide) ?_
    | with_reducible refine (PktRes.fail_moves ..).after (by decide) ?_
    | with_reducible refine (State.modSpn_moves ..).after (by decide) ?_
    | with_reducible refine (State.fresh_moves ..).after (by decide) ?_
    | with_reducible refine (Moves.fold _ _ _ ?_).behind ?_
    | intro _
    | split
    | ((conv => arg 3; with_reducible whnf); split)
    | with_reducible refine Moves.pair2 (by assumption) ?_)

theorem execSpindleChopperTest_moves (x0 : Packet) (s : State) {t : State} (h : (execSpindleChopperTest x0 s) = .next t) :
    Moves [.free, .trc, .spn, .host, .het, .evr, .out] s t := by
  unfold execSpindleChopperTest at h
  repeat' (first | contradiction | (injection h with h; subst h) | split at h)
  all_goals (repeat' (first
    | with_reducible exact Moves.refl _ _
    | with_reducible assumption
    | extract_lets
    | with_reducible refine Moves.ite ?_ ?_
    | with_reducible refine Moves.itePkt ?_ ?_
    | with_reducible refine (opSpindleChopperTest_moves ..).after (by decide) ?_
    | with_reducible refine runPacket_moves (by decide) (fun s => ?_)
    | with_reducible refine (Moves.fold _ _ _ ?_).behind ?_
    | intro _
    | split
    | ((conv => arg 3; with_reducible whnf); split)))

theorem opSpindleClear_moves (x0 : Packet) (s : State) :
    Moves [.spn] s (opSpindleClear x0 s).state := by
  unfold opSpindleClear
  repeat' (first
    | with_reducible exact Moves.refl _ _
    | with_reducible assumption
    | extract_lets
    | with_reducible refine Moves.ite ?_ ?_
    | with_reducible refine Moves.itePkt ?_ ?_
    | with_reducible refine (State.modSpn_moves ..).after (by decide) ?_
    | with_reducible refine (Moves.fold _ _ _ ?_).behind ?_
    | intro _
    | split
    | ((conv => arg 3; with_reducible whnf); split))

theorem execSpindleClear_moves (x0 : Packet) (s : State) {t : State} (h : (execSpindleClear x0 s) = .next t) :
    Moves [.trc, .spn, .host, .het, .evr, .out] s t := by
  unfold execSpindleClear at h
  repeat' (first | contradiction | (injection h with h; subst h) | split at h)
  all_goals (repeat' (first
    | with_reducible exact Moves.refl _ _
    | with_reducible assumption
    | extract_lets
    | with_reducible refine Moves.ite ?_ ?_
    | with_reducible refine Moves.itePkt ?_ ?_
    | with_reducible refine (opSpindleClear_moves ..).after (by decide) ?_
    | with_reducible refine runPacket_moves (by decide) (fun s => ?_)
    | with_reducible refine (Moves.fold _ _ _ ?_).behind ?_
    | intro _
    | split
    | ((conv => arg 3; with_reducible whnf); split)))

end Sys2Proof.Machine
end

