-- ==== Sys2Proof/Laws/MovesEdges.lean ====
section
/-! SUPPORT. What each operation and each command of Machine/Edges.lean can touch. -/

namespace Sys2Proof.Machine
open Sys2Proof
set_option linter.all false
set_option Elab.async false

theorem State.chooseTaps_moves (s : State) (x1 : Head) :
    Moves [.det] s (State.chooseTaps s x1) := by
  unfold State.chooseTaps
  repeat' (first
    | with_reducible exact Moves.refl _ _
    | with_reducible assumption
    | extract_lets
    | with_reducible refine Moves.ite ?_ ?_
    | with_reducible refine (State.modDet_moves ..).after (by decide) ?_
    | with_reducible refine (Moves.fold _ _ _ ?_).behind ?_
    | intro _
    | split
    | ((conv => arg 3; with_reducible whnf); split))

theorem State.sliceGateOn_moves (s : State) (x1 : SliceIx) (x2 : Bool) (x3 : Slot) (x4 : Nat) :
    Moves [.slice, .lane, .trc, .evr, .recv, .det, .freq] s (State.sliceGateOn s x1 x2 x3 x4) := by
  unfold State.sliceGateOn
  repeat' (first
    | with_reducible exact Moves.refl _ _
    | with_reducible assumption
    | extract_lets
    | with_reducible refine Moves.ite ?_ ?_
    | with_reducible refine (State.openPacket_moves ..).after (by decide) ?_
    | with_reducible refine (State.padPacket_moves ..).after (by decide) ?_
    | with_reducible refine (State.modSlice_moves ..).after (by decide) ?_
    | with_reducible refine (State.resume_moves ..).after (by decide) ?_
    | with_reducible refine (Moves.fold _ _ _ ?_).behind ?_
    | intro _
    | split
    | ((conv => arg 3; with_reducible whnf); split))

theorem State.passOver_moves (s : State) (x1 : Eng) (x2 : Fragment) (x3 : BitVec 12) :
    Moves [.seq] s (State.passOver s x1 x2 x3) := by
  unfold State.passOver
  repeat' (first
    | with_reducible exact Moves.refl _ _
    | with_reducible assumption
    | extract_lets
    | with_reducible refine Moves.ite ?_ ?_
    | with_reducible refine (State.modSeq_moves ..).after (by decide) ?_
    | with_reducible refine (Moves.fold _ _ _ ?_).behind ?_
    | intro _
    | split
    | ((conv => arg 3; with_reducible whnf); split))

theorem State.readOn_moves (s : State) (x1 : Eng) (x2 : Head) (x3 : Fragment) (x4 : Angle) :
    Moves [.slice, .lane, .pool, .trc, .pwr, .evr, .recv, .seq, .det, .wr, .freq] s (State.readOn s x1 x2 x3 x4) := by
  unfold State.readOn
  repeat' (first
    | with_reducible exact Moves.refl _ _
    | with_reducible assumption
    | extract_lets
    | with_reducible refine Moves.ite ?_ ?_
    | with_reducible refine (State.modSeq_moves ..).after (by decide) ?_
    | with_reducible refine (State.passOver_moves ..).after (by decide) ?_
    | with_reducible refine (State.modHpw_moves ..).after (by decide) ?_
    | with_reducible refine (State.modWr_moves ..).after (by decide) ?_
    | with_reducible refine (State.chooseTaps_moves ..).after (by decide) ?_
    | with_reducible refine (State.sliceGateOn_moves ..).after (by decide) ?_
    | with_reducible refine (State.takeSlot_moves ..).after (by decide) ?_
    | with_reducible refine (Moves.fold _ _ _ ?_).behind ?_
    | intro _
    | split
    | ((conv => arg 3; with_reducible whnf); split))

theorem State.endStream_moves (s : State) (x1 : Head) (x2 : LaneIx) :
    Moves [.lane, .trc, .evr, .det] s (State.endStream s x1 x2) := by
  unfold State.endStream
  repeat' (first
    | with_reducible exact Moves.refl _ _
    | with_reducible assumption
    | extract_lets
    | with_reducible refine Moves.ite ?_ ?_
    | with_reducible refine (State.laneBits_moves ..).after (by decide) ?_
    | with_reducible refine (State.decideSync_moves ..).after (by decide) ?_
    | with_reducible refine (State.modSlot_moves ..).after (by decide) ?_
    | with_reducible refine (State.modLane_moves ..).after (by decide) ?_
    | with_reducible refine (State.noSlot_moves ..).after (by decide) ?_
    | with_reducible refine (Moves.fold _ _ _ ?_).behind ?_
    | intro _
    | split
    | ((conv => arg 3; with_reducible whnf); split))

theorem State.settleReads_moves (s : State) (x1 : Head) :
    Moves [.engSrv, .headSrv] s (State.settleReads s x1) := by
  unfold State.settleReads
  repeat' (first
    | with_reducible exact Moves.refl _ _
    | with_reducible assumption
    | extract_lets
    | with_reducible refine Moves.ite ?_ ?_
    | with_reducible refine (State.deactivate_moves ..).after (by decide) ?_
    | with_reducible refine (Moves.fold _ _ _ ?_).behind ?_
    | intro _
    | split
    | ((conv => arg 3; with_reducible whnf); split))

theorem State.readOff_moves (s : State) (x1 : Head) (x2 : Bool) :
    Moves [.slice, .lane, .trc, .evr, .recv, .engSrv, .rd, .det, .wr, .headSrv, .map, .freq] s (State.readOff s x1 x2) := by
  unfold State.readOff
  repeat' (first
    | with_reducible exact Moves.refl _ _
    | with_reducible assumption
    | extract_lets
    | with_reducible refine Moves.ite ?_ ?_
    | with_reducible refine (State.catchUp_moves ..).after (by decide) ?_
    | with_reducible refine (State.endStream_moves ..).after (by decide) ?_
    | with_reducible refine (State.modSlice_moves ..).after (by decide) ?_
    | with_reducible refine (State.modWr_moves ..).after (by decide) ?_
    | with_reducible refine (State.settleReads_moves ..).after (by decide) ?_
    | with_reducible refine (State.packetSettled_moves ..).after (by decide) ?_
    | with_reducible refine (State.settleBind_moves ..).after (by decide) ?_
    | with_reducible refine (Moves.fold _ _ _ ?_).behind ?_
    | intro _
    | split
    | ((conv => arg 3; with_reducible whnf); split))

theorem State.servoGate_moves (s : State) (x1 : Head) (x2 : Bool) :
    Moves [.slice, .lane, .trc, .evr, .recv, .det, .wr, .freq] s (State.servoGate s x1 x2) := by
  unfold State.servoGate
  repeat' (first
    | with_reducible exact Moves.refl _ _
    | with_reducible assumption
    | extract_lets
    | with_reducible refine Moves.ite ?_ ?_
    | with_reducible refine (State.modWr_moves ..).after (by decide) ?_
    | with_reducible refine (State.catchUp_moves ..).after (by decide) ?_
    | with_reducible refine (State.modSlice_moves ..).after (by decide) ?_
    | with_reducible refine (State.resume_moves ..).after (by decide) ?_
    | with_reducible refine (Moves.fold _ _ _ ?_).behind ?_
    | intro _
    | split
    | ((conv => arg 3; with_reducible whnf); split))

theorem State.endRunOf_moves (s : State) (x1 : Head) :
    Moves [.engSrv, .seq, .wr, .headSrv] s (State.endRunOf s x1) := by
  unfold State.endRunOf
  repeat' (first
    | with_reducible exact Moves.refl _ _
    | with_reducible assumption
    | extract_lets
    | with_reducible refine Moves.ite ?_ ?_
    | with_reducible refine (State.modWr_moves ..).after (by decide) ?_
    | with_reducible refine (State.runEnded_moves ..).after (by decide) ?_
    | with_reducible refine (State.deactivate_moves ..).after (by decide) ?_
    | with_reducible refine (Moves.fold _ _ _ ?_).behind ?_
    | intro _
    | split
    | ((conv => arg 3; with_reducible whnf); split))

theorem State.writeOn_moves (s : State) (x1 : Eng) (x2 : Head) (x3 : Fragment) (x4 : Angle) :
    Moves [.trc, .pwr, .evr, .engSrv, .seq, .wr, .headSrv] s (State.writeOn s x1 x2 x3 x4) := by
  unfold State.writeOn
  repeat' (first
    | with_reducible exact Moves.refl _ _
    | with_reducible assumption
    | extract_lets
    | with_reducible refine Moves.ite ?_ ?_
    | with_reducible refine (State.suspect_moves ..).after (by decide) ?_
    | with_reducible refine (State.endRunOf_moves ..).after (by decide) ?_
    | with_reducible refine (State.modWr_moves ..).after (by decide) ?_
    | with_reducible refine (State.modHpw_moves ..).after (by decide) ?_
    | with_reducible refine (Moves.fold _ _ _ ?_).behind ?_
    | intro _
    | split
    | ((conv => arg 3; with_reducible whnf); split))

theorem State.eraseWritten_moves (s : State) (x1 : Eng) (x2 : Head) :
    Moves [.sec, .nor] s (State.eraseWritten s x1 x2) := by
  unfold State.eraseWritten
  repeat' (first
    | with_reducible exact Moves.refl _ _
    | with_reducible assumption
    | extract_lets
    | with_reducible refine Moves.ite ?_ ?_
    | with_reducible refine (State.modSec_moves ..).after (by decide) ?_
    | with_reducible refine (State.modNor_moves _ _ (by intro n; repeat' (first | rfl | extract_lets | split))).after (by decide) ?_
    | with_reducible refine (Moves.fold _ _ _ ?_).behind ?_
    | intro _
    | split
    | ((conv => arg 3; with_reducible whnf); split))

theorem State.putSector_moves (s : State) (x1 : Eng) (x2 : Head) (x3 : SectorAt) (x4 : List Int) :
    Moves [.sec, .nor, .out] s (State.putSector s x1 x2 x3 x4) := by
  unfold State.putSector
  repeat' (first
    | with_reducible exact Moves.refl _ _
    | with_reducible assumption
    | extract_lets
    | with_reducible refine Moves.ite ?_ ?_
    | with_reducible refine (State.modOut_moves ..).after (by decide) ?_
    | with_reducible refine (State.eraseWritten_moves ..).after (by decide) ?_
    | with_reducible refine (Moves.fold _ _ _ ?_).behind ?_
    | intro _
    | split
    | ((conv => arg 3; with_reducible whnf); split))

theorem State.sectorWritten_moves (s : State) (x1 : Eng) (x2 : Head) :
    Moves [.spn, .q, .sec, .nor, .out, .wr] s (State.sectorWritten s x1 x2) := by
  unfold State.sectorWritten
  repeat' (first
    | with_reducible exact Moves.refl _ _
    | with_reducible assumption
    | extract_lets
    | with_reducible refine Moves.ite ?_ ?_
    | with_reducible refine (State.sumBolero_moves ..).after (by decide) ?_
    | with_reducible refine (State.putSector_moves ..).after (by decide) ?_
    | with_reducible refine (State.modBlockAt_moves ..).after (by decide) ?_
    | with_reducible refine (State.modWr_moves ..).after (by decide) ?_
    | with_reducible refine (Moves.fold _ _ _ ?_).behind ?_
    | intro _
    | split
    | ((conv => arg 3; with_reducible whnf); split))

theorem State.reapCredits_moves (s : State) :
    Moves [.q] s (State.reapCredits s) := by
  unfold State.reapCredits
  repeat' (first
    | with_reducible exact Moves.refl _ _
    | with_reducible assumption
    | extract_lets
    | with_reducible refine Moves.ite ?_ ?_
    | with_reducible refine (State.modQ_moves ..).after (by decide) ?_
    | with_reducible refine (Moves.fold _ _ _ ?_).behind ?_
    | intro _
    | split
    | ((conv => arg 3; with_reducible whnf); split))

theorem State.closeGate_moves (s : State) (x1 : Head) :
    Moves [.wr] s (State.closeGate s x1) := by
  unfold State.closeGate
  repeat' (first
    | with_reducible exact Moves.refl _ _
    | with_reducible assumption
    | extract_lets
    | with_reducible refine Moves.ite ?_ ?_
    | with_reducible refine (State.modWr_moves ..).after (by decide) ?_
    | with_reducible refine (Moves.fold _ _ _ ?_).behind ?_
    | intro _
    | split
    | ((conv => arg 3; with_reducible whnf); split))

theorem State.writeOff_moves (s : State) (x1 : Eng) (x2 : Head) (x3 : Bool) :
    Moves [.trc, .spn, .q, .sec, .evr, .nor, .rst, .out, .reel, .links, .engSrv, .seq, .wr, .headSrv] s (State.writeOff s x1 x2 x3) := by
  unfold State.writeOff
  repeat' (first
    | with_reducible exact Moves.refl _ _
    | with_reducible assumption
    | extract_lets
    | with_reducible refine Moves.ite ?_ ?_
    | with_reducible refine (State.sectorWritten_moves ..).after (by decide) ?_
    | with_reducible refine (State.closeGate_moves ..).after (by decide) ?_
    | with_reducible refine (State.suspect_moves ..).after (by decide) ?_
    | with_reducible refine (State.endRunOf_moves ..).after (by decide) ?_
    | with_reducible refine (State.settlePark_moves ..).after (by decide) ?_
    | with_reducible refine (Moves.fold _ _ _ ?_).behind ?_
    | intro _
    | split
    | ((conv => arg 3; with_reducible whnf); split))

theorem State.settleRun_moves (s : State) (x1 : Eng) (x2 : Head) :
    Moves [.engSrv, .seq, .wr, .headSrv] s (State.settleRun s x1 x2) := by
  unfold State.settleRun
  repeat' (first
    | with_reducible exact Moves.refl _ _
    | with_reducible assumption
    | extract_lets
    | with_reducible refine Moves.ite ?_ ?_
    | with_reducible refine (State.endRunOf_moves ..).after (by decide) ?_
    | with_reducible refine (Moves.fold _ _ _ ?_).behind ?_
    | intro _
    | split
    | ((conv => arg 3; with_reducible whnf); split))

theorem State.sectorStart_moves (s : State) (x1 : Eng) (x2 : Head) (x3 : Fragment) (x4 : Angle) :
    Moves [.trc, .spn, .q, .pwr, .sec, .evr, .nor, .rst, .out, .reel, .links, .engSrv, .seq, .wr, .headSrv] s (State.sectorStart s x1 x2 x3 x4) := by
  unfold State.sectorStart
  repeat' (first
    | with_reducible exact Moves.refl _ _
    | with_reducible assumption
    | extract_lets
    | with_reducible refine Moves.ite ?_ ?_
    | with_reducible refine (State.sectorWritten_moves ..).after (by decide) ?_
    | with_reducible refine (State.writeOff_moves ..).after (by decide) ?_
    | with_reducible refine (State.settleRun_moves ..).after (by decide) ?_
    | with_reducible refine (State.modWr_moves ..).after (by decide) ?_
    | with_reducible refine (State.strobeHead_moves ..).after (by decide) ?_
    | with_reducible refine (State.endRunOf_moves ..).after (by decide) ?_
    | with_reducible refine (State.settlePark_moves ..).after (by decide) ?_
    | with_reducible refine (State.writeOn_moves ..).after (by decide) ?_
    | with_reducible refine (Moves.fold _ _ _ ?_).behind ?_
    | intro _
    | split
    | ((conv => arg 3; with_reducible whnf); split))

theorem State.writeEnable_moves (s : State) (x1 : Eng) (x2 : BitVec 12) (x3 : Bool) :
    Moves [.trc, .spn, .q, .pwr, .sec, .evr, .nor, .rst, .out, .reel, .links, .engSrv, .seq, .wr, .headSrv] s (State.writeEnable s x1 x2 x3) := by
  unfold State.writeEnable
  repeat' (first
    | with_reducible exact Moves.refl _ _
    | with_reducible assumption
    | extract_lets
    | with_reducible refine Moves.ite ?_ ?_
    | with_reducible refine (State.modWr_moves ..).after (by decide) ?_
    | with_reducible refine (State.strobe_moves ..).after (by decide) ?_
    | with_reducible refine (State.writeOn_moves ..).after (by decide) ?_
    | with_reducible refine (State.writeOff_moves ..).after (by decide) ?_
    | with_reducible refine (Moves.fold _ _ _ ?_).behind ?_
    | intro _
    | split
    | ((conv => arg 3; with_reducible whnf); split))

end Sys2Proof.Machine
end

