-- ==== Sys2Proof/Laws/MovesSequencer.lean ====
section
/-! SUPPORT. What each operation and each command of Machine/Sequencer.lean can touch. -/

namespace Sys2Proof.Machine
open Sys2Proof
set_option linter.all false
set_option Elab.async false

theorem execFragmentEnqueue_moves (x0 : Eng) (x1 : BitVec 128) (s : State) {t : State} (h : (execFragmentEnqueue x0 x1 s) = .next t) :
    Moves [.seq] s t := by
  unfold execFragmentEnqueue at h
  repeat' (first | contradiction | (injection h with h; subst h) | split at h)
  all_goals (repeat' (first
    | with_reducible exact Moves.refl _ _
    | with_reducible assumption
    | extract_lets
    | with_reducible refine Moves.ite ?_ ?_
    | with_reducible refine (State.modSeq_moves ..).after (by decide) ?_
    | with_reducible refine (Moves.fold _ _ _ ?_).behind ?_
    | intro _
    | split
    | ((conv => arg 3; with_reducible whnf); split)))

theorem State.machineCheck_moves (s : State) (x1 : Eng) (x2 : Nat) (x3 : Nat) :
    Moves [.free, .slice, .lane, .pool, .trc, .media, .host, .q, .het, .sec, .evr, .nor, .rst, .out, .reel, .links, .recv, .wrg, .engSrv, .seq, .zdc, .core, .rd, .det, .wr, .headSrv, .map, .freq] s (State.machineCheck s x1 x2 x3) := by
  unfold State.machineCheck
  repeat' (first
    | with_reducible exact Moves.refl _ _
    | with_reducible assumption
    | extract_lets
    | with_reducible refine Moves.ite ?_ ?_
    | with_reducible refine (State.forceWritesOff_moves ..).after (by decide) ?_
    | with_reducible refine (State.readOff_moves ..).after (by decide) ?_
    | with_reducible refine (State.disarmWhere_moves ..).after (by decide) ?_
    | with_reducible refine (State.modSeq_moves ..).after (by decide) ?_
    | with_reducible refine (State.modWrg_moves ..).after (by decide) ?_
    | with_reducible refine (State.condSeq_moves ..).after (by decide) ?_
    | with_reducible refine (State.saturated_moves ..).after (by decide) ?_
    | with_reducible refine (State.engineFail_moves ..).after (by decide) ?_
    | with_reducible refine (Moves.fold _ _ _ ?_).behind ?_
    | intro _
    | split
    | ((conv => arg 3; with_reducible whnf); split))

theorem State.seqOp_moves {m : List Part} {s : State} {a : Eng} {f : State → State} (h : ∀ s, Moves m s (f s)) :
    Moves m s (s.seqOp a f) := by
  unfold State.seqOp
  exact Moves.ite (h s) (.refl m s)

theorem State.putAngle_moves (s : State) (x1 : Eng) (x2 : Fin 8) (x3 : Angle) :
    Moves [.seq] s (State.putAngle s x1 x2 x3) := by
  unfold State.putAngle
  repeat' (first
    | with_reducible exact Moves.refl _ _
    | with_reducible assumption
    | extract_lets
    | with_reducible refine Moves.ite ?_ ?_
    | with_reducible refine (State.modSeq_moves ..).after (by decide) ?_
    | with_reducible refine (Moves.fold _ _ _ ?_).behind ?_
    | intro _
    | split
    | ((conv => arg 3; with_reducible whnf); split))

theorem State.aopLds_moves (s : State) (x1 : Eng) (x2 : Fin 8) :
    Moves [.seq] s (State.aopLds s x1 x2) := by
  unfold State.aopLds
  repeat' (first
    | with_reducible exact Moves.refl _ _
    | with_reducible assumption
    | extract_lets
    | with_reducible refine Moves.ite ?_ ?_
    | with_reducible refine (State.putAngle_moves ..).after (by decide) ?_
    | with_reducible refine (Moves.fold _ _ _ ?_).behind ?_
    | intro _
    | split
    | ((conv => arg 3; with_reducible whnf); split))

theorem State.aopAdd_moves (s : State) (x1 : Eng) (x2 : Fin 8) (x3 : Fin 8) (x4 : Word) :
    Moves [.seq] s (State.aopAdd s x1 x2 x3 x4) := by
  unfold State.aopAdd
  repeat' (first
    | with_reducible exact Moves.refl _ _
    | with_reducible assumption
    | extract_lets
    | with_reducible refine Moves.ite ?_ ?_
    | with_reducible refine (State.putAngle_moves ..).after (by decide) ?_
    | with_reducible refine (Moves.fold _ _ _ ?_).behind ?_
    | intro _
    | split
    | ((conv => arg 3; with_reducible whnf); split))

theorem State.aopLdf_moves (s : State) (x1 : Eng) (x2 : Fin 8) :
    Moves [.seq] s (State.aopLdf s x1 x2) := by
  unfold State.aopLdf
  repeat' (first
    | with_reducible exact Moves.refl _ _
    | with_reducible assumption
    | extract_lets
    | with_reducible refine Moves.ite ?_ ?_
    | with_reducible refine (State.putAngle_moves ..).after (by decide) ?_
    | with_reducible refine (Moves.fold _ _ _ ?_).behind ?_
    | intro _
    | split
    | ((conv => arg 3; with_reducible whnf); split))

theorem State.aopLde_moves (s : State) (x1 : Eng) (x2 : Fin 8) :
    Moves [.seq] s (State.aopLde s x1 x2) := by
  unfold State.aopLde
  repeat' (first
    | with_reducible exact Moves.refl _ _
    | with_reducible assumption
    | extract_lets
    | with_reducible refine Moves.ite ?_ ?_
    | with_reducible refine (State.putAngle_moves ..).after (by decide) ?_
    | with_reducible refine (Moves.fold _ _ _ ?_).behind ?_
    | intro _
    | split
    | ((conv => arg 3; with_reducible whnf); split))

theorem State.aopLead_moves (s : State) (x1 : Eng) (x2 : Fin 8) (x3 : Fin 8) (x4 : BitVec 16) :
    Moves [.seq] s (State.aopLead s x1 x2 x3 x4) := by
  unfold State.aopLead
  repeat' (first
    | with_reducible exact Moves.refl _ _
    | with_reducible assumption
    | extract_lets
    | with_reducible refine Moves.ite ?_ ?_
    | with_reducible refine (State.putAngle_moves ..).after (by decide) ?_
    | with_reducible refine (Moves.fold _ _ _ ?_).behind ?_
    | intro _
    | split
    | ((conv => arg 3; with_reducible whnf); split))

theorem State.aopWin_moves (s : State) (x1 : Eng) (x2 : Fin 8) (x3 : Fin 8) :
    Moves [.seq] s (State.aopWin s x1 x2 x3) := by
  unfold State.aopWin
  repeat' (first
    | with_reducible exact Moves.refl _ _
    | with_reducible assumption
    | extract_lets
    | with_reducible refine Moves.ite ?_ ?_
    | with_reducible refine (State.putAngle_moves ..).after (by decide) ?_
    | with_reducible refine (Moves.fold _ _ _ ?_).behind ?_
    | intro _
    | split
    | ((conv => arg 3; with_reducible whnf); split))

theorem State.aopMov_moves (s : State) (x1 : Eng) (x2 : Fin 8) (x3 : Fin 8) :
    Moves [.seq] s (State.aopMov s x1 x2 x3) := by
  unfold State.aopMov
  repeat' (first
    | with_reducible exact Moves.refl _ _
    | with_reducible assumption
    | extract_lets
    | with_reducible refine Moves.ite ?_ ?_
    | with_reducible refine (State.putAngle_moves ..).after (by decide) ?_
    | with_reducible refine (Moves.fold _ _ _ ?_).behind ?_
    | intro _
    | split
    | ((conv => arg 3; with_reducible whnf); split))

theorem State.aopLdw_moves (s : State) (x1 : Eng) (x2 : Fin 8) :
    Moves [.seq] s (State.aopLdw s x1 x2) := by
  unfold State.aopLdw
  repeat' (first
    | with_reducible exact Moves.refl _ _
    | with_reducible assumption
    | extract_lets
    | with_reducible refine Moves.ite ?_ ?_
    | with_reducible refine (State.putAngle_moves ..).after (by decide) ?_
    | with_reducible refine (Moves.fold _ _ _ ?_).behind ?_
    | intro _
    | split
    | ((conv => arg 3; with_reducible whnf); split))

theorem execLds_moves (x0 : Eng) (x1 : Fin 8) (s : State) {t : State} (h : (execLds x0 x1 s) = .next t) :
    Moves [.seq] s t := by
  unfold execLds at h
  repeat' (first | contradiction | (injection h with h; subst h) | split at h)
  all_goals (repeat' (first
    | with_reducible exact Moves.refl _ _
    | with_reducible assumption
    | extract_lets
    | with_reducible refine Moves.ite ?_ ?_
    | with_reducible refine (State.seqOp_moves (fun s => ?_)).behind ?_
    | with_reducible refine (State.aopLds_moves ..).after (by decide) ?_
    | with_reducible refine (Moves.fold _ _ _ ?_).behind ?_
    | intro _
    | split
    | ((conv => arg 3; with_reducible whnf); split)))

theorem execAdd_moves (x0 : Eng) (x1 : Fin 8) (x2 : Fin 8) (x3 : Word) (s : State) {t : State} (h : (execAdd x0 x1 x2 x3 s) = .next t) :
    Moves [.seq] s t := by
  unfold execAdd at h
  repeat' (first | contradiction | (injection h with h; subst h) | split at h)
  all_goals (repeat' (first
    | with_reducible exact Moves.refl _ _
    | with_reducible assumption
    | extract_lets
    | with_reducible refine Moves.ite ?_ ?_
    | with_reducible refine (State.seqOp_moves (fun s => ?_)).behind ?_
    | with_reducible refine (State.aopAdd_moves ..).after (by decide) ?_
    | with_reducible refine (Moves.fold _ _ _ ?_).behind ?_
    | intro _
    | split
    | ((conv => arg 3; with_reducible whnf); split)))

theorem execLdf_moves (x0 : Eng) (x1 : Fin 8) (s : State) {t : State} (h : (execLdf x0 x1 s) = .next t) :
    Moves [.seq] s t := by
  unfold execLdf at h
  repeat' (first | contradiction | (injection h with h; subst h) | split at h)
  all_goals (repeat' (first
    | with_reducible exact Moves.refl _ _
    | with_reducible assumption
    | extract_lets
    | with_reducible refine Moves.ite ?_ ?_
    | with_reducible refine (State.seqOp_moves (fun s => ?_)).behind ?_
    | with_reducible refine (State.aopLdf_moves ..).after (by decide) ?_
    | with_reducible refine (Moves.fold _ _ _ ?_).behind ?_
    | intro _
    | split
    | ((conv => arg 3; with_reducible whnf); split)))

theorem execLde_moves (x0 : Eng) (x1 : Fin 8) (s : State) {t : State} (h : (execLde x0 x1 s) = .next t) :
    Moves [.seq] s t := by
  unfold execLde at h
  repeat' (first | contradiction | (injection h with h; subst h) | split at h)
  all_goals (repeat' (first
    | with_reducible exact Moves.refl _ _
    | with_reducible assumption
    | extract_lets
    | with_reducible refine Moves.ite ?_ ?_
    | with_reducible refine (State.seqOp_moves (fun s => ?_)).behind ?_
    | with_reducible refine (State.aopLde_moves ..).after (by decide) ?_
    | with_reducible refine (Moves.fold _ _ _ ?_).behind ?_
    | intro _
    | split
    | ((conv => arg 3; with_reducible whnf); split)))

theorem execLead_moves (x0 : Eng) (x1 : Fin 8) (x2 : Fin 8) (x3 : BitVec 16) (s : State) {t : State} (h : (execLead x0 x1 x2 x3 s) = .next t) :
    Moves [.seq] s t := by
  unfold execLead at h
  repeat' (first | contradiction | (injection h with h; subst h) | split at h)
  all_goals (repeat' (first
    | with_reducible exact Moves.refl _ _
    | with_reducible assumption
    | extract_lets
    | with_reducible refine Moves.ite ?_ ?_
    | with_reducible refine (State.seqOp_moves (fun s => ?_)).behind ?_
    | with_reducible refine (State.aopLead_moves ..).after (by decide) ?_
    | with_reducible refine (Moves.fold _ _ _ ?_).behind ?_
    | intro _
    | split
    | ((conv => arg 3; with_reducible whnf); split)))

theorem execWin_moves (x0 : Eng) (x1 : Fin 8) (x2 : Fin 8) (s : State) {t : State} (h : (execWin x0 x1 x2 s) = .next t) :
    Moves [.seq] s t := by
  unfold execWin at h
  repeat' (first | contradiction | (injection h with h; subst h) | split at h)
  all_goals (repeat' (first
    | with_reducible exact Moves.refl _ _
    | with_reducible assumption
    | extract_lets
    | with_reducible refine Moves.ite ?_ ?_
    | with_reducible refine (State.seqOp_moves (fun s => ?_)).behind ?_
    | with_reducible refine (State.aopWin_moves ..).after (by decide) ?_
    | with_reducible refine (Moves.fold _ _ _ ?_).behind ?_
    | intro _
    | split
    | ((conv => arg 3; with_reducible whnf); split)))

theorem execMov_moves (x0 : Eng) (x1 : Fin 8) (x2 : Fin 8) (s : State) {t : State} (h : (execMov x0 x1 x2 s) = .next t) :
    Moves [.seq] s t := by
  unfold execMov at h
  repeat' (first | contradiction | (injection h with h; subst h) | split at h)
  all_goals (repeat' (first
    | with_reducible exact Moves.refl _ _
    | with_reducible assumption
    | extract_lets
    | with_reducible refine Moves.ite ?_ ?_
    | with_reducible refine (State.seqOp_moves (fun s => ?_)).behind ?_
    | with_reducible refine (State.aopMov_moves ..).after (by decide) ?_
    | with_reducible refine (Moves.fold _ _ _ ?_).behind ?_
    | intro _
    | split
    | ((conv => arg 3; with_reducible whnf); split)))

theorem execLdw_moves (x0 : Eng) (x1 : Fin 8) (s : State) {t : State} (h : (execLdw x0 x1 s) = .next t) :
    Moves [.seq] s t := by
  unfold execLdw at h
  repeat' (first | contradiction | (injection h with h; subst h) | split at h)
  all_goals (repeat' (first
    | with_reducible exact Moves.refl _ _
    | with_reducible assumption
    | extract_lets
    | with_reducible refine Moves.ite ?_ ?_
    | with_reducible refine (State.seqOp_moves (fun s => ?_)).behind ?_
    | with_reducible refine (State.aopLdw_moves ..).after (by decide) ?_
    | with_reducible refine (Moves.fold _ _ _ ?_).behind ?_
    | intro _
    | split
    | ((conv => arg 3; with_reducible whnf); split)))

theorem State.microAop_moves (s : State) (x1 : Eng) (x2 : BitVec 128) :
    Moves [.seq] s (State.microAop s x1 x2) := by
  unfold State.microAop
  repeat' (first
    | with_reducible exact Moves.refl _ _
    | with_reducible assumption
    | extract_lets
    | with_reducible refine Moves.ite ?_ ?_
    | with_reducible refine (State.aopWin_moves ..).after (by decide) ?_
    | with_reducible refine (State.aopMov_moves ..).after (by decide) ?_
    | with_reducible refine (State.aopLead_moves ..).after (by decide) ?_
    | with_reducible refine (State.aopLdw_moves ..).after (by decide) ?_
    | with_reducible refine (State.aopLds_moves ..).after (by decide) ?_
    | with_reducible refine (State.aopLdf_moves ..).after (by decide) ?_
    | with_reducible refine (State.aopLde_moves ..).after (by decide) ?_
    | with_reducible refine (State.aopAdd_moves ..).after (by decide) ?_
    | with_reducible refine (Moves.fold _ _ _ ?_).behind ?_
    | intro _
    | split
    | ((conv => arg 3; with_reducible whnf); split))

theorem State.refuseWrite_moves (s : State) (x1 : Eng) (x2 : SeqArm) :
    Moves [.trc, .spn, .q, .pwr, .sec, .evr, .nor, .rst, .out, .reel, .links, .engSrv, .seq, .wr, .headSrv] s (State.refuseWrite s x1 x2) := by
  unfold State.refuseWrite
  repeat' (first
    | with_reducible exact Moves.refl _ _
    | with_reducible assumption
    | extract_lets
    | with_reducible refine Moves.ite ?_ ?_
    | with_reducible refine (State.sectorWritten_moves ..).after (by decide) ?_
    | with_reducible refine (State.closeGate_moves ..).after (by decide) ?_
    | with_reducible refine (State.writeEnable_moves ..).after (by decide) ?_
    | with_reducible refine (State.suspect_moves ..).after (by decide) ?_
    | with_reducible refine (State.endRunOf_moves ..).after (by decide) ?_
    | with_reducible refine (State.modWr_moves ..).after (by decide) ?_
    | with_reducible refine (Moves.fold _ _ _ ?_).behind ?_
    | intro _
    | split
    | ((conv => arg 3; with_reducible whnf); split))

theorem State.armSeq_moves (s : State) (x1 : Eng) (x2 : Fin 32) (x3 : SeqArm) (x4 : BitVec 16) :
    Moves [.trc, .spn, .q, .pwr, .sec, .evr, .nor, .rst, .out, .reel, .links, .engSrv, .seq, .wr, .headSrv] s (State.armSeq s x1 x2 x3 x4) := by
  unfold State.armSeq
  repeat' (first
    | with_reducible exact Moves.refl _ _
    | with_reducible assumption
    | extract_lets
    | with_reducible refine Moves.ite ?_ ?_
    | with_reducible refine (State.modSeq_moves ..).after (by decide) ?_
    | with_reducible refine (State.saturated_moves ..).after (by decide) ?_
    | with_reducible refine (State.refuseWrite_moves ..).after (by decide) ?_
    | with_reducible refine (State.modCmp_moves ..).after (by decide) ?_
    | with_reducible refine (Moves.fold _ _ _ ?_).behind ?_
    | intro _
    | split
    | ((conv => arg 3; with_reducible whnf); split))

theorem State.armFree_moves (s : State) (x1 : Eng) (x2 : SeqArm) (x3 : Option (BitVec 16)) :
    Moves [.trc, .spn, .q, .pwr, .sec, .evr, .nor, .rst, .out, .reel, .links, .engSrv, .seq, .wr, .headSrv] s (State.armFree s x1 x2 x3) := by
  unfold State.armFree
  repeat' (first
    | with_reducible exact Moves.refl _ _
    | with_reducible assumption
    | extract_lets
    | with_reducible refine Moves.ite ?_ ?_
    | with_reducible refine (State.armSeq_moves ..).after (by decide) ?_
    | with_reducible refine (State.modSeq_moves ..).after (by decide) ?_
    | with_reducible refine (Moves.fold _ _ _ ?_).behind ?_
    | intro _
    | split
    | ((conv => arg 3; with_reducible whnf); split))

theorem State.disarmSeq_moves (s : State) (x1 : Eng) (x2 : Fin 32) :
    Moves [.reel] s (State.disarmSeq s x1 x2) := by
  unfold State.disarmSeq
  repeat' (first
    | with_reducible exact Moves.refl _ _
    | with_reducible assumption
    | extract_lets
    | with_reducible refine Moves.ite ?_ ?_
    | with_reducible refine (State.modCmp_moves ..).after (by decide) ?_
    | with_reducible refine (Moves.fold _ _ _ ?_).behind ?_
    | intro _
    | split
    | ((conv => arg 3; with_reducible whnf); split))

theorem State.disarmMask_moves (s : State) (x1 : Eng) (x2 : BitVec 12) :
    Moves [.reel] s (State.disarmMask s x1 x2) := by
  unfold State.disarmMask
  repeat' (first
    | with_reducible exact Moves.refl _ _
    | with_reducible assumption
    | extract_lets
    | with_reducible refine Moves.ite ?_ ?_
    | with_reducible refine (State.disarmWhere_moves ..).after (by decide) ?_
    | with_reducible refine (Moves.fold _ _ _ ?_).behind ?_
    | intro _
    | split
    | ((conv => arg 3; with_reducible whnf); split))

theorem execArm_moves (x0 : Eng) (x1 : ArmOp) (s : State) {t : State} (h : (execArm x0 x1 s) = .next t) :
    Moves [.free, .slice, .lane, .pool, .trc, .spn, .media, .host, .q, .het, .pwr, .sec, .evr, .nor, .rst, .out, .reel, .links, .recv, .wrg, .engSrv, .seq, .zdc, .core, .rd, .det, .wr, .headSrv, .map, .freq] s t := by
  unfold execArm at h
  repeat' (first | contradiction | (injection h with h; subst h) | split at h)
  all_goals (repeat' (first
    | with_reducible exact Moves.refl _ _
    | with_reducible assumption
    | extract_lets
    | with_reducible refine Moves.ite ?_ ?_
    | with_reducible refine (State.seqOp_moves (fun s => ?_)).behind ?_
    | with_reducible refine (State.machineCheck_moves ..).after (by decide) ?_
    | with_reducible refine (State.armSeq_moves ..).after (by decide) ?_
    | with_reducible refine (Moves.fold _ _ _ ?_).behind ?_
    | intro _
    | split
    | ((conv => arg 3; with_reducible whnf); split)))

theorem execArmr_moves (x0 : Eng) (x1 : ArmOp) (x2 : BitVec 16) (s : State) {t : State} (h : (execArmr x0 x1 x2 s) = .next t) :
    Moves [.free, .slice, .lane, .pool, .trc, .spn, .media, .host, .q, .het, .pwr, .sec, .evr, .nor, .rst, .out, .reel, .links, .recv, .wrg, .engSrv, .seq, .zdc, .core, .rd, .det, .wr, .headSrv, .map, .freq] s t := by
  unfold execArmr at h
  repeat' (first | contradiction | (injection h with h; subst h) | split at h)
  all_goals (repeat' (first
    | with_reducible exact Moves.refl _ _
    | with_reducible assumption
    | extract_lets
    | with_reducible refine Moves.ite ?_ ?_
    | with_reducible refine (State.seqOp_moves (fun s => ?_)).behind ?_
    | with_reducible refine (State.machineCheck_moves ..).after (by decide) ?_
    | with_reducible refine (State.armSeq_moves ..).after (by decide) ?_
    | with_reducible refine (Moves.fold _ _ _ ?_).behind ?_
    | intro _
    | split
    | ((conv => arg 3; with_reducible whnf); split)))

theorem execArmf_moves (x0 : Eng) (x1 : ArmOp) (s : State) {t : State} (h : (execArmf x0 x1 s) = .next t) :
    Moves [.free, .slice, .lane, .pool, .trc, .spn, .media, .host, .q, .het, .pwr, .sec, .evr, .nor, .rst, .out, .reel, .links, .recv, .wrg, .engSrv, .seq, .zdc, .core, .rd, .det, .wr, .headSrv, .map, .freq] s t := by
  unfold execArmf at h
  repeat' (first | contradiction | (injection h with h; subst h) | split at h)
  all_goals (repeat' (first
    | with_reducible exact Moves.refl _ _
    | with_reducible assumption
    | extract_lets
    | with_reducible refine Moves.ite ?_ ?_
    | with_reducible refine (State.seqOp_moves (fun s => ?_)).behind ?_
    | with_reducible refine (State.machineCheck_moves ..).after (by decide) ?_
    | with_reducible refine (State.armFree_moves ..).after (by decide) ?_
    | with_reducible refine (Moves.fold _ _ _ ?_).behind ?_
    | intro _
    | split
    | ((conv => arg 3; with_reducible whnf); split)))

theorem execDis_moves (x0 : Eng) (x1 : Fin 32) (s : State) {t : State} (h : (execDis x0 x1 s) = .next t) :
    Moves [.reel] s t := by
  unfold execDis at h
  repeat' (first | contradiction | (injection h with h; subst h) | split at h)
  all_goals (repeat' (first
    | with_reducible exact Moves.refl _ _
    | with_reducible assumption
    | extract_lets
    | with_reducible refine Moves.ite ?_ ?_
    | with_reducible refine (State.seqOp_moves (fun s => ?_)).behind ?_
    | with_reducible refine (State.disarmSeq_moves ..).after (by decide) ?_
    | with_reducible refine (Moves.fold _ _ _ ?_).behind ?_
    | intro _
    | split
    | ((conv => arg 3; with_reducible whnf); split)))

theorem execDism_moves (x0 : Eng) (x1 : Bool) (x2 : BitVec 12) (s : State) {t : State} (h : (execDism x0 x1 x2 s) = .next t) :
    Moves [.reel] s t := by
  unfold execDism at h
  repeat' (first | contradiction | (injection h with h; subst h) | split at h)
  all_goals (repeat' (first
    | with_reducible exact Moves.refl _ _
    | with_reducible assumption
    | extract_lets
    | with_reducible refine Moves.ite ?_ ?_
    | with_reducible refine (State.seqOp_moves (fun s => ?_)).behind ?_
    | with_reducible refine (State.disarmMask_moves ..).after (by decide) ?_
    | with_reducible refine (Moves.fold _ _ _ ?_).behind ?_
    | intro _
    | split
    | ((conv => arg 3; with_reducible whnf); split)))

theorem State.microCmp_moves (s : State) (x1 : Eng) (x2 : BitVec 128) (x3 : BitVec 16) :
    Moves [.trc, .spn, .q, .pwr, .sec, .evr, .nor, .rst, .out, .reel, .links, .engSrv, .seq, .wr, .headSrv] s (State.microCmp s x1 x2 x3) := by
  unfold State.microCmp
  repeat' (first
    | with_reducible exact Moves.refl _ _
    | with_reducible assumption
    | extract_lets
    | with_reducible refine Moves.ite ?_ ?_
    | with_reducible refine (State.armSeq_moves ..).after (by decide) ?_
    | with_reducible refine (State.armFree_moves ..).after (by decide) ?_
    | with_reducible refine (State.disarmSeq_moves ..).after (by decide) ?_
    | with_reducible refine (State.disarmMask_moves ..).after (by decide) ?_
    | with_reducible refine (Moves.fold _ _ _ ?_).behind ?_
    | intro _
    | split
    | ((conv => arg 3; with_reducible whnf); split))

theorem State.dropMask_moves (s : State) (x1 : Eng) (x2 : BitVec 12) :
    Moves [.slice, .lane, .pool, .trc, .pwr, .evr, .recv, .rd, .det, .wr, .map, .freq] s (State.dropMask s x1 x2) := by
  unfold State.dropMask
  repeat' (first
    | with_reducible exact Moves.refl _ _
    | with_reducible assumption
    | extract_lets
    | with_reducible refine Moves.ite ?_ ?_
    | with_reducible refine (State.dropHead_moves ..).after (by decide) ?_
    | with_reducible refine (Moves.fold _ _ _ ?_).behind ?_
    | intro _
    | split
    | ((conv => arg 3; with_reducible whnf); split))

theorem execPop_moves (x0 : Eng) (s : State) {t : State} (h : (execPop x0 s) = .next t) :
    Moves [.seq] s t := by
  unfold execPop at h
  repeat' (first | contradiction | (injection h with h; subst h) | split at h)
  all_goals (repeat' (first
    | with_reducible exact Moves.refl _ _
    | with_reducible assumption
    | extract_lets
    | with_reducible refine Moves.ite ?_ ?_
    | with_reducible refine (State.seqOp_moves (fun s => ?_)).behind ?_
    | with_reducible refine (State.modSeq_moves ..).after (by decide) ?_
    | with_reducible refine (Moves.fold _ _ _ ?_).behind ?_
    | intro _
    | split
    | ((conv => arg 3; with_reducible whnf); split)))

theorem execArmed_moves (x0 : Eng) (s : State) {t : State} (h : (execArmed x0 s) = .next t) :
    Moves [.seq] s t := by
  unfold execArmed at h
  repeat' (first | contradiction | (injection h with h; subst h) | split at h)
  all_goals (repeat' (first
    | with_reducible exact Moves.refl _ _
    | with_reducible assumption
    | extract_lets
    | with_reducible refine Moves.ite ?_ ?_
    | with_reducible refine (State.seqOp_moves (fun s => ?_)).behind ?_
    | with_reducible refine (State.modSeq_moves ..).after (by decide) ?_
    | with_reducible refine (Moves.fold _ _ _ ?_).behind ?_
    | intro _
    | split
    | ((conv => arg 3; with_reducible whnf); split)))

theorem execSkip_moves (x0 : Eng) (s : State) {t : State} (h : (execSkip x0 s) = .next t) :
    Moves [.seq] s t := by
  unfold execSkip at h
  repeat' (first | contradiction | (injection h with h; subst h) | split at h)
  all_goals (repeat' (first
    | with_reducible exact Moves.refl _ _
    | with_reducible assumption
    | extract_lets
    | with_reducible refine Moves.ite ?_ ?_
    | with_reducible refine (State.seqOp_moves (fun s => ?_)).behind ?_
    | with_reducible refine (State.modSeq_moves ..).after (by decide) ?_
    | with_reducible refine (Moves.fold _ _ _ ?_).behind ?_
    | intro _
    | split
    | ((conv => arg 3; with_reducible whnf); split)))

theorem execNote_moves (x0 : Eng) (x1 : BitVec 16) (s : State) {t : State} (h : (execNote x0 x1 s) = .next t) :
    Moves [.seq] s t := by
  unfold execNote at h
  repeat' (first | contradiction | (injection h with h; subst h) | split at h)
  all_goals (repeat' (first
    | with_reducible exact Moves.refl _ _
    | with_reducible assumption
    | extract_lets
    | with_reducible refine Moves.ite ?_ ?_
    | with_reducible refine (State.seqOp_moves (fun s => ?_)).behind ?_
    | with_reducible refine (State.modSeq_moves ..).after (by decide) ?_
    | with_reducible refine (Moves.fold _ _ _ ?_).behind ?_
    | intro _
    | split
    | ((conv => arg 3; with_reducible whnf); split)))

theorem execDrop_moves (x0 : Eng) (x1 : Bool) (x2 : BitVec 12) (s : State) {t : State} (h : (execDrop x0 x1 x2 s) = .next t) :
    Moves [.slice, .lane, .pool, .trc, .pwr, .evr, .recv, .rd, .det, .wr, .map, .freq] s t := by
  unfold execDrop at h
  repeat' (first | contradiction | (injection h with h; subst h) | split at h)
  all_goals (repeat' (first
    | with_reducible exact Moves.refl _ _
    | with_reducible assumption
    | extract_lets
    | with_reducible refine Moves.ite ?_ ?_
    | with_reducible refine (State.seqOp_moves (fun s => ?_)).behind ?_
    | with_reducible refine (State.dropMask_moves ..).after (by decide) ?_
    | with_reducible refine (Moves.fold _ _ _ ?_).behind ?_
    | intro _
    | split
    | ((conv => arg 3; with_reducible whnf); split)))

theorem execClrf_moves (x0 : Eng) (x1 : BitVec 16) (s : State) {t : State} (h : (execClrf x0 x1 s) = .next t) :
    Moves [.seq] s t := by
  unfold execClrf at h
  repeat' (first | contradiction | (injection h with h; subst h) | split at h)
  all_goals (repeat' (first
    | with_reducible exact Moves.refl _ _
    | with_reducible assumption
    | extract_lets
    | with_reducible refine Moves.ite ?_ ?_
    | with_reducible refine (State.seqOp_moves (fun s => ?_)).behind ?_
    | with_reducible refine (State.modSeq_moves ..).after (by decide) ?_
    | with_reducible refine (Moves.fold _ _ _ ?_).behind ?_
    | intro _
    | split
    | ((conv => arg 3; with_reducible whnf); split)))

theorem execSet_moves (x0 : Eng) (x1 : Fin 4) (x2 : BitVec 16) (s : State) {t : State} (h : (execSet x0 x1 x2 s) = .next t) :
    Moves [.seq] s t := by
  unfold execSet at h
  repeat' (first | contradiction | (injection h with h; subst h) | split at h)
  all_goals (repeat' (first
    | with_reducible exact Moves.refl _ _
    | with_reducible assumption
    | extract_lets
    | with_reducible refine Moves.ite ?_ ?_
    | with_reducible refine (State.seqOp_moves (fun s => ?_)).behind ?_
    | with_reducible refine (State.modSeq_moves ..).after (by decide) ?_
    | with_reducible refine (Moves.fold _ _ _ ?_).behind ?_
    | intro _
    | split
    | ((conv => arg 3; with_reducible whnf); split)))

theorem execDec_moves (x0 : Eng) (x1 : Fin 4) (s : State) {t : State} (h : (execDec x0 x1 s) = .next t) :
    Moves [.seq] s t := by
  unfold execDec at h
  repeat' (first | contradiction | (injection h with h; subst h) | split at h)
  all_goals (repeat' (first
    | with_reducible exact Moves.refl _ _
    | with_reducible assumption
    | extract_lets
    | with_reducible refine Moves.ite ?_ ?_
    | with_reducible refine (State.seqOp_moves (fun s => ?_)).behind ?_
    | with_reducible refine (State.modSeq_moves ..).after (by decide) ?_
    | with_reducible refine (Moves.fold _ _ _ ?_).behind ?_
    | intro _
    | split
    | ((conv => arg 3; with_reducible whnf); split)))

theorem execFcnt_moves (x0 : Eng) (x1 : Fin 4) (s : State) {t : State} (h : (execFcnt x0 x1 s) = .next t) :
    Moves [.seq] s t := by
  unfold execFcnt at h
  repeat' (first | contradiction | (injection h with h; subst h) | split at h)
  all_goals (repeat' (first
    | with_reducible exact Moves.refl _ _
    | with_reducible assumption
    | extract_lets
    | with_reducible refine Moves.ite ?_ ?_
    | with_reducible refine (State.seqOp_moves (fun s => ?_)).behind ?_
    | with_reducible refine (State.modSeq_moves ..).after (by decide) ?_
    | with_reducible refine (Moves.fold _ _ _ ?_).behind ?_
    | intro _
    | split
    | ((conv => arg 3; with_reducible whnf); split)))

theorem State.microOps_moves (s : State) (x1 : Eng) (x2 : BitVec 128) :
    Moves [.slice, .lane, .pool, .trc, .pwr, .evr, .recv, .seq, .rd, .det, .wr, .map, .freq] s (State.microOps s x1 x2) := by
  unfold State.microOps
  repeat' (first
    | with_reducible exact Moves.refl _ _
    | with_reducible assumption
    | extract_lets
    | with_reducible refine Moves.ite ?_ ?_
    | with_reducible refine (State.modSeq_moves ..).after (by decide) ?_
    | with_reducible refine (State.dropMask_moves ..).after (by decide) ?_
    | with_reducible refine (Moves.fold _ _ _ ?_).behind ?_
    | intro _
    | split
    | ((conv => arg 3; with_reducible whnf); split))

theorem State.jobDone_moves (s : State) (x1 : Eng) :
    Moves [.trc, .evr, .reel, .seq] s (State.jobDone s x1) := by
  unfold State.jobDone
  repeat' (first
    | with_reducible exact Moves.refl _ _
    | with_reducible assumption
    | extract_lets
    | with_reducible refine Moves.ite ?_ ?_
    | with_reducible refine (State.condReel_moves ..).after (by decide) ?_
    | with_reducible refine (State.modSeq_moves ..).after (by decide) ?_
    | with_reducible refine (State.modReel_moves ..).after (by decide) ?_
    | with_reducible refine (Moves.fold _ _ _ ?_).behind ?_
    | intro _
    | split
    | ((conv => arg 3; with_reducible whnf); split))

theorem State.startJobs_moves (s : State) (x1 : Eng) :
    Moves [.reel, .seq] s (State.startJobs s x1) := by
  unfold State.startJobs
  repeat' (first
    | with_reducible exact Moves.refl _ _
    | with_reducible assumption
    | extract_lets
    | with_reducible refine Moves.ite ?_ ?_
    | with_reducible refine (State.armFixed_moves ..).after (by decide) ?_
    | with_reducible refine (State.modSeq_moves ..).after (by decide) ?_
    | with_reducible refine (Moves.fold _ _ _ ?_).behind ?_
    | intro _
    | split
    | ((conv => arg 3; with_reducible whnf); split))

theorem State.enterTrap_moves (s : State) (x1 : Eng) (x2 : Fin 4) (x3 : Bool) :
    Moves [.trc, .evr, .reel, .links, .wrg, .engSrv, .seq, .wr, .headSrv] s (State.enterTrap s x1 x2 x3) := by
  unfold State.enterTrap
  repeat' (first
    | with_reducible exact Moves.refl _ _
    | with_reducible assumption
    | extract_lets
    | with_reducible refine Moves.ite ?_ ?_
    | with_reducible refine (State.modSeq_moves ..).after (by decide) ?_
    | with_reducible refine (State.forceWriteOff_moves ..).after (by decide) ?_
    | with_reducible refine (State.disarmSeq_moves ..).after (by decide) ?_
    | with_reducible refine (State.modWrg_moves ..).after (by decide) ?_
    | with_reducible refine (Moves.fold _ _ _ ?_).behind ?_
    | intro _
    | split
    | ((conv => arg 3; with_reducible whnf); split))

theorem State.returnTrap_moves (s : State) (x1 : Eng) :
    Moves [.trc, .spn, .q, .pwr, .sec, .evr, .nor, .rst, .out, .reel, .links, .wrg, .engSrv, .seq, .wr, .headSrv] s (State.returnTrap s x1) := by
  unfold State.returnTrap
  repeat' (first
    | with_reducible exact Moves.refl _ _
    | with_reducible assumption
    | extract_lets
    | with_reducible refine Moves.ite ?_ ?_
    | with_reducible refine (State.modWrg_moves ..).after (by decide) ?_
    | with_reducible refine (State.enterTrap_moves ..).after (by decide) ?_
    | with_reducible refine (State.modSeq_moves ..).after (by decide) ?_
    | with_reducible refine (State.armSeq_moves ..).after (by decide) ?_
    | with_reducible refine (Moves.fold _ _ _ ?_).behind ?_
    | intro _
    | split
    | ((conv => arg 3; with_reducible whnf); split))

theorem execTrapEntry_moves (x0 : Eng) (s : State) {t : State} (h : (execTrapEntry x0 s) = .next t) :
    Moves [.trc, .evr, .reel, .links, .wrg, .engSrv, .seq, .wr, .headSrv] s t := by
  unfold execTrapEntry at h
  repeat' (first | contradiction | (injection h with h; subst h) | split at h)
  all_goals (repeat' (first
    | with_reducible exact Moves.refl _ _
    | with_reducible assumption
    | extract_lets
    | with_reducible refine Moves.ite ?_ ?_
    | with_reducible refine (State.enterTrap_moves ..).after (by decide) ?_
    | with_reducible refine (Moves.fold _ _ _ ?_).behind ?_
    | intro _
    | split
    | ((conv => arg 3; with_reducible whnf); split)))

theorem execCoreTrapRequest_moves (x0 : Eng) (s : State) {t : State} (h : (execCoreTrapRequest x0 s) = .next t) :
    Moves [.seq] s t := by
  unfold execCoreTrapRequest at h
  repeat' (first | contradiction | (injection h with h; subst h) | split at h)
  all_goals (repeat' (first
    | with_reducible exact Moves.refl _ _
    | with_reducible assumption
    | extract_lets
    | with_reducible refine Moves.ite ?_ ?_
    | with_reducible refine (State.trapCause_moves ..).after (by decide) ?_
    | with_reducible refine (Moves.fold _ _ _ ?_).behind ?_
    | intro _
    | split
    | ((conv => arg 3; with_reducible whnf); split)))

theorem execWaitTimeout_moves (x0 : Eng) (s : State) {t : State} (h : (execWaitTimeout x0 s) = .next t) :
    Moves [.seq] s t := by
  unfold execWaitTimeout at h
  repeat' (first | contradiction | (injection h with h; subst h) | split at h)
  all_goals (repeat' (first
    | with_reducible exact Moves.refl _ _
    | with_reducible assumption
    | extract_lets
    | with_reducible refine Moves.ite ?_ ?_
    | with_reducible refine (State.trapCause_moves ..).after (by decide) ?_
    | with_reducible refine (Moves.fold _ _ _ ?_).behind ?_
    | intro _
    | split
    | ((conv => arg 3; with_reducible whnf); split)))

theorem State.microNext_moves (s : State) (x1 : Eng) (x2 : BitVec 128) (x3 : BitVec 16) :
    Moves [.free, .slice, .lane, .pool, .trc, .spn, .media, .host, .q, .het, .pwr, .sec, .evr, .nor, .rst, .out, .reel, .links, .recv, .wrg, .engSrv, .seq, .zdc, .core, .rd, .det, .wr, .headSrv, .map, .freq] s (State.microNext s x1 x2 x3) := by
  unfold State.microNext
  repeat' (first
    | with_reducible exact Moves.refl _ _
    | with_reducible assumption
    | extract_lets
    | with_reducible refine Moves.ite ?_ ?_
    | with_reducible refine (State.modSeq_moves ..).after (by decide) ?_
    | with_reducible refine (State.machineCheck_moves ..).after (by decide) ?_
    | with_reducible refine (State.jobDone_moves ..).after (by decide) ?_
    | with_reducible refine (State.returnTrap_moves ..).after (by decide) ?_
    | with_reducible refine (Moves.fold _ _ _ ?_).behind ?_
    | intro _
    | split
    | ((conv => arg 3; with_reducible whnf); split))

theorem State.execWord_moves (s : State) (x1 : Eng) :
    Moves [.free, .slice, .lane, .pool, .trc, .spn, .media, .host, .q, .het, .pwr, .sec, .evr, .nor, .rst, .out, .reel, .links, .recv, .wrg, .engSrv, .seq, .zdc, .core, .rd, .det, .wr, .headSrv, .map, .freq] s (State.execWord s x1) := by
  unfold State.execWord
  repeat' (first
    | with_reducible exact Moves.refl _ _
    | with_reducible assumption
    | extract_lets
    | with_reducible refine Moves.ite ?_ ?_
    | with_reducible refine (State.microAop_moves ..).after (by decide) ?_
    | with_reducible refine (State.microCmp_moves ..).after (by decide) ?_
    | with_reducible refine (State.microOps_moves ..).after (by decide) ?_
    | with_reducible refine (State.microNext_moves ..).after (by decide) ?_
    | with_reducible refine (Moves.fold _ _ _ ?_).behind ?_
    | intro _
    | split
    | ((conv => arg 3; with_reducible whnf); split))

theorem State.wordOf_moves (s : State) (x1 : Eng) (x2 : Nat) :
    Moves [.free, .slice, .lane, .pool, .trc, .spn, .media, .host, .q, .het, .pwr, .sec, .evr, .nor, .rst, .out, .reel, .links, .recv, .wrg, .engSrv, .seq, .zdc, .core, .rd, .det, .wr, .headSrv, .map, .freq] s (State.wordOf s x1 x2) := by
  unfold State.wordOf
  repeat' (first
    | with_reducible exact Moves.refl _ _
    | with_reducible assumption
    | extract_lets
    | with_reducible refine Moves.ite ?_ ?_
    | with_reducible refine (State.machineCheck_moves ..).after (by decide) ?_
    | with_reducible refine (State.execWord_moves ..).after (by decide) ?_
    | with_reducible refine (Moves.fold _ _ _ ?_).behind ?_
    | intro _
    | split
    | ((conv => arg 3; with_reducible whnf); split))

theorem execInc_moves (x0 : Eng) (s : State) {t : State} (h : (execInc x0 s) = .next t) :
    Moves [.free, .slice, .lane, .pool, .trc, .spn, .media, .host, .q, .het, .pwr, .sec, .evr, .nor, .rst, .out, .reel, .links, .recv, .wrg, .engSrv, .seq, .zdc, .core, .rd, .det, .wr, .headSrv, .map, .freq] s t := by
  unfold execInc at h
  repeat' (first | contradiction | (injection h with h; subst h) | split at h)
  all_goals (repeat' (first
    | with_reducible exact Moves.refl _ _
    | with_reducible assumption
    | extract_lets
    | with_reducible refine Moves.ite ?_ ?_
    | with_reducible refine (State.wordOf_moves ..).after (by decide) ?_
    | with_reducible refine (Moves.fold _ _ _ ?_).behind ?_
    | intro _
    | split
    | ((conv => arg 3; with_reducible whnf); split)))

theorem execBr_moves (x0 : Eng) (s : State) {t : State} (h : (execBr x0 s) = .next t) :
    Moves [.free, .slice, .lane, .pool, .trc, .spn, .media, .host, .q, .het, .pwr, .sec, .evr, .nor, .rst, .out, .reel, .links, .recv, .wrg, .engSrv, .seq, .zdc, .core, .rd, .det, .wr, .headSrv, .map, .freq] s t := by
  unfold execBr at h
  repeat' (first | contradiction | (injection h with h; subst h) | split at h)
  all_goals (repeat' (first
    | with_reducible exact Moves.refl _ _
    | with_reducible assumption
    | extract_lets
    | with_reducible refine Moves.ite ?_ ?_
    | with_reducible refine (State.wordOf_moves ..).after (by decide) ?_
    | with_reducible refine (Moves.fold _ _ _ ?_).behind ?_
    | intro _
    | split
    | ((conv => arg 3; with_reducible whnf); split)))

theorem execLoop_moves (x0 : Eng) (s : State) {t : State} (h : (execLoop x0 s) = .next t) :
    Moves [.free, .slice, .lane, .pool, .trc, .spn, .media, .host, .q, .het, .pwr, .sec, .evr, .nor, .rst, .out, .reel, .links, .recv, .wrg, .engSrv, .seq, .zdc, .core, .rd, .det, .wr, .headSrv, .map, .freq] s t := by
  unfold execLoop at h
  repeat' (first | contradiction | (injection h with h; subst h) | split at h)
  all_goals (repeat' (first
    | with_reducible exact Moves.refl _ _
    | with_reducible assumption
    | extract_lets
    | with_reducible refine Moves.ite ?_ ?_
    | with_reducible refine (State.wordOf_moves ..).after (by decide) ?_
    | with_reducible refine (Moves.fold _ _ _ ?_).behind ?_
    | intro _
    | split
    | ((conv => arg 3; with_reducible whnf); split)))

theorem execCall_moves (x0 : Eng) (s : State) {t : State} (h : (execCall x0 s) = .next t) :
    Moves [.free, .slice, .lane, .pool, .trc, .spn, .media, .host, .q, .het, .pwr, .sec, .evr, .nor, .rst, .out, .reel, .links, .recv, .wrg, .engSrv, .seq, .zdc, .core, .rd, .det, .wr, .headSrv, .map, .freq] s t := by
  unfold execCall at h
  repeat' (first | contradiction | (injection h with h; subst h) | split at h)
  all_goals (repeat' (first
    | with_reducible exact Moves.refl _ _
    | with_reducible assumption
    | extract_lets
    | with_reducible refine Moves.ite ?_ ?_
    | with_reducible refine (State.wordOf_moves ..).after (by decide) ?_
    | with_reducible refine (Moves.fold _ _ _ ?_).behind ?_
    | intro _
    | split
    | ((conv => arg 3; with_reducible whnf); split)))

theorem execRet_moves (x0 : Eng) (s : State) {t : State} (h : (execRet x0 s) = .next t) :
    Moves [.free, .slice, .lane, .pool, .trc, .spn, .media, .host, .q, .het, .pwr, .sec, .evr, .nor, .rst, .out, .reel, .links, .recv, .wrg, .engSrv, .seq, .zdc, .core, .rd, .det, .wr, .headSrv, .map, .freq] s t := by
  unfold execRet at h
  repeat' (first | contradiction | (injection h with h; subst h) | split at h)
  all_goals (repeat' (first
    | with_reducible exact Moves.refl _ _
    | with_reducible assumption
    | extract_lets
    | with_reducible refine Moves.ite ?_ ?_
    | with_reducible refine (State.wordOf_moves ..).after (by decide) ?_
    | with_reducible refine (Moves.fold _ _ _ ?_).behind ?_
    | intro _
    | split
    | ((conv => arg 3; with_reducible whnf); split)))

theorem execWait_moves (x0 : Eng) (s : State) {t : State} (h : (execWait x0 s) = .next t) :
    Moves [.free, .slice, .lane, .pool, .trc, .spn, .media, .host, .q, .het, .pwr, .sec, .evr, .nor, .rst, .out, .reel, .links, .recv, .wrg, .engSrv, .seq, .zdc, .core, .rd, .det, .wr, .headSrv, .map, .freq] s t := by
  unfold execWait at h
  repeat' (first | contradiction | (injection h with h; subst h) | split at h)
  all_goals (repeat' (first
    | with_reducible exact Moves.refl _ _
    | with_reducible assumption
    | extract_lets
    | with_reducible refine Moves.ite ?_ ?_
    | with_reducible refine (State.wordOf_moves ..).after (by decide) ?_
    | with_reducible refine (Moves.fold _ _ _ ?_).behind ?_
    | intro _
    | split
    | ((conv => arg 3; with_reducible whnf); split)))

theorem execRtt_moves (x0 : Eng) (s : State) {t : State} (h : (execRtt x0 s) = .next t) :
    Moves [.free, .slice, .lane, .pool, .trc, .spn, .media, .host, .q, .het, .pwr, .sec, .evr, .nor, .rst, .out, .reel, .links, .recv, .wrg, .engSrv, .seq, .zdc, .core, .rd, .det, .wr, .headSrv, .map, .freq] s t := by
  unfold execRtt at h
  repeat' (first | contradiction | (injection h with h; subst h) | split at h)
  all_goals (repeat' (first
    | with_reducible exact Moves.refl _ _
    | with_reducible assumption
    | extract_lets
    | with_reducible refine Moves.ite ?_ ?_
    | with_reducible refine (State.wordOf_moves ..).after (by decide) ?_
    | with_reducible refine (Moves.fold _ _ _ ?_).behind ?_
    | intro _
    | split
    | ((conv => arg 3; with_reducible whnf); split)))

theorem execWaitComplete_moves (x0 : Eng) (s : State) {t : State} (h : (execWaitComplete x0 s) = .next t) :
    Moves [.seq] s t := by
  unfold execWaitComplete at h
  repeat' (first | contradiction | (injection h with h; subst h) | split at h)
  all_goals (repeat' (first
    | with_reducible exact Moves.refl _ _
    | with_reducible assumption
    | extract_lets
    | with_reducible refine Moves.ite ?_ ?_
    | with_reducible refine (State.modSeq_moves ..).after (by decide) ?_
    | with_reducible refine (Moves.fold _ _ _ ?_).behind ?_
    | intro _
    | split
    | ((conv => arg 3; with_reducible whnf); split)))

theorem execArmfStallEnd_moves (x0 : Eng) (s : State) {t : State} (h : (execArmfStallEnd x0 s) = .next t) :
    Moves [.free, .slice, .lane, .pool, .trc, .spn, .media, .host, .q, .het, .pwr, .sec, .evr, .nor, .rst, .out, .reel, .links, .recv, .wrg, .engSrv, .seq, .zdc, .core, .rd, .det, .wr, .headSrv, .map, .freq] s t := by
  unfold execArmfStallEnd at h
  repeat' (first | contradiction | (injection h with h; subst h) | split at h)
  all_goals (repeat' (first
    | with_reducible exact Moves.refl _ _
    | with_reducible assumption
    | extract_lets
    | with_reducible refine Moves.ite ?_ ?_
    | with_reducible refine (State.modSeq_moves ..).after (by decide) ?_
    | with_reducible refine (State.armSeq_moves ..).after (by decide) ?_
    | with_reducible refine (State.microOps_moves ..).after (by decide) ?_
    | with_reducible refine (State.microNext_moves ..).after (by decide) ?_
    | with_reducible refine (Moves.fold _ _ _ ?_).behind ?_
    | intro _
    | split
    | ((conv => arg 3; with_reducible whnf); split)))

theorem State.loadStore_moves (s : State) (x1 : Eng) :
    Moves [.seq] s (State.loadStore s x1) := by
  unfold State.loadStore
  repeat' (first
    | with_reducible exact Moves.refl _ _
    | with_reducible assumption
    | extract_lets
    | with_reducible refine Moves.ite ?_ ?_
    | with_reducible refine (State.modSeq_moves ..).after (by decide) ?_
    | with_reducible refine (Moves.fold _ _ _ ?_).behind ?_
    | intro _
    | split
    | ((conv => arg 3; with_reducible whnf); split))

theorem State.startSeq_moves (s : State) (x1 : Eng) (x2 : ℕ) :
    Moves [.reel, .seq] s (State.startSeq s x1 x2) := by
  unfold State.startSeq
  repeat' (first
    | with_reducible exact Moves.refl _ _
    | with_reducible assumption
    | extract_lets
    | with_reducible refine Moves.ite ?_ ?_
    | with_reducible refine (State.startJobs_moves ..).after (by decide) ?_
    | with_reducible refine (State.modSeq_moves ..).after (by decide) ?_
    | with_reducible refine (Moves.fold _ _ _ ?_).behind ?_
    | intro _
    | split
    | ((conv => arg 3; with_reducible whnf); split))

theorem execSequencerRestart_moves (x0 : Eng) (s : State) {t : State} (h : (execSequencerRestart x0 s) = .next t) :
    Moves [.slice, .lane, .pool, .trc, .host, .pwr, .sec, .evr, .out, .reel, .recv, .seq, .rd, .det, .wr, .map, .freq] s t := by
  unfold execSequencerRestart at h
  repeat' (first | contradiction | (injection h with h; subst h) | split at h)
  all_goals (repeat' (first
    | with_reducible exact Moves.refl _ _
    | with_reducible assumption
    | extract_lets
    | with_reducible refine Moves.ite ?_ ?_
    | with_reducible refine (State.loadStore_moves ..).after (by decide) ?_
    | with_reducible refine (State.modSeq_moves ..).after (by decide) ?_
    | with_reducible refine (State.dropHead_moves ..).after (by decide) ?_
    | with_reducible refine (State.startSeq_moves ..).after (by decide) ?_
    | with_reducible refine (State.patchApplied_moves ..).after (by decide) ?_
    | with_reducible refine (Moves.fold _ _ _ ?_).behind ?_
    | intro _
    | split
    | ((conv => arg 3; with_reducible whnf); split)))

theorem execSeqHoldEntry_moves (x0 : Eng) (s : State) {t : State} (h : (execSeqHoldEntry x0 s) = .next t) :
    Moves [.seq] s t := by
  unfold execSeqHoldEntry at h
  repeat' (first | contradiction | (injection h with h; subst h) | split at h)
  all_goals (repeat' (first
    | with_reducible exact Moves.refl _ _
    | with_reducible assumption
    | extract_lets
    | with_reducible refine Moves.ite ?_ ?_
    | with_reducible refine (State.modSeq_moves ..).after (by decide) ?_
    | with_reducible refine (Moves.fold _ _ _ ?_).behind ?_
    | intro _
    | split
    | ((conv => arg 3; with_reducible whnf); split)))

theorem execSeqHoldResume_moves (x0 : Eng) (s : State) {t : State} (h : (execSeqHoldResume x0 s) = .next t) :
    Moves [.trc, .host, .sec, .evr, .out, .seq] s t := by
  unfold execSeqHoldResume at h
  repeat' (first | contradiction | (injection h with h; subst h) | split at h)
  all_goals (repeat' (first
    | with_reducible exact Moves.refl _ _
    | with_reducible assumption
    | extract_lets
    | with_reducible refine Moves.ite ?_ ?_
    | with_reducible refine (State.patchApplied_moves ..).after (by decide) ?_
    | with_reducible refine (State.modSeq_moves ..).after (by decide) ?_
    | with_reducible refine (Moves.fold _ _ _ ?_).behind ?_
    | intro _
    | split
    | ((conv => arg 3; with_reducible whnf); split)))

theorem execSeqStatus_moves (x0 : Packet) (s : State) {t : State} (h : (execSeqStatus x0 s) = .next t) :
    Moves [.trc, .host, .het, .evr, .out] s t := by
  unfold execSeqStatus at h
  repeat' (first | contradiction | (injection h with h; subst h) | split at h)
  all_goals (repeat' (first
    | with_reducible exact Moves.refl _ _
    | with_reducible assumption
    | extract_lets
    | with_reducible refine Moves.ite ?_ ?_
    | with_reducible refine Moves.itePkt ?_ ?_
    | with_reducible refine runPacket_moves (by decide) (fun s => ?_)
    | with_reducible refine (PktRes.report_moves ..).after (by decide) ?_
    | with_reducible refine (Moves.fold _ _ _ ?_).behind ?_
    | intro _
    | split
    | ((conv => arg 3; with_reducible whnf); split)))

theorem opSeqConfig_moves (x0 : Packet) (s : State) :
    Moves [.nor, .seq] s (opSeqConfig x0 s).state := by
  unfold opSeqConfig
  repeat' (first
    | with_reducible exact Moves.refl _ _
    | with_reducible assumption
    | extract_lets
    | with_reducible refine Moves.ite ?_ ?_
    | with_reducible refine Moves.itePkt ?_ ?_
    | with_reducible refine (State.modSeq_moves ..).after (by decide) ?_
    | with_reducible refine (State.modNor_moves _ _ (by intro n; repeat' (first | rfl | extract_lets | split))).after (by decide) ?_
    | with_reducible refine (Moves.fold _ _ _ ?_).behind ?_
    | intro _
    | split
    | ((conv => arg 3; with_reducible whnf); split))

theorem execSeqConfig_moves (x0 : Packet) (s : State) {t : State} (h : (execSeqConfig x0 s) = .next t) :
    Moves [.trc, .host, .het, .evr, .nor, .out, .seq] s t := by
  unfold execSeqConfig at h
  repeat' (first | contradiction | (injection h with h; subst h) | split at h)
  all_goals (repeat' (first
    | with_reducible exact Moves.refl _ _
    | with_reducible assumption
    | extract_lets
    | with_reducible refine Moves.ite ?_ ?_
    | with_reducible refine Moves.itePkt ?_ ?_
    | with_reducible refine (opSeqConfig_moves ..).after (by decide) ?_
    | with_reducible refine runPacket_moves (by decide) (fun s => ?_)
    | with_reducible refine (Moves.fold _ _ _ ?_).behind ?_
    | intro _
    | split
    | ((conv => arg 3; with_reducible whnf); split)))

theorem execSeqTrapsave_moves (x0 : Packet) (s : State) {t : State} (h : (execSeqTrapsave x0 s) = .next t) :
    Moves [.trc, .host, .het, .evr, .out] s t := by
  unfold execSeqTrapsave at h
  repeat' (first | contradiction | (injection h with h; subst h) | split at h)
  all_goals (repeat' (first
    | with_reducible exact Moves.refl _ _
    | with_reducible assumption
    | extract_lets
    | with_reducible refine Moves.ite ?_ ?_
    | with_reducible refine Moves.itePkt ?_ ?_
    | with_reducible refine runPacket_moves (by decide) (fun s => ?_)
    | with_reducible refine (PktRes.report_moves ..).after (by decide) ?_
    | with_reducible refine (Moves.fold _ _ _ ?_).behind ?_
    | intro _
    | split
    | ((conv => arg 3; with_reducible whnf); split)))

theorem opSeqWord_moves (x0 : Packet) (s : State) :
    Moves [] s (opSeqWord x0 s).state := by
  unfold opSeqWord
  repeat' (first
    | with_reducible exact Moves.refl _ _
    | with_reducible assumption
    | extract_lets
    | with_reducible refine Moves.ite ?_ ?_
    | with_reducible refine Moves.itePkt ?_ ?_
    | with_reducible refine (Moves.fold _ _ _ ?_).behind ?_
    | intro _
    | split
    | ((conv => arg 3; with_reducible whnf); split))

theorem execSeqWord_moves (x0 : Packet) (s : State) {t : State} (h : (execSeqWord x0 s) = .next t) :
    Moves [.trc, .host, .het, .evr, .out] s t := by
  unfold execSeqWord at h
  repeat' (first | contradiction | (injection h with h; subst h) | split at h)
  all_goals (repeat' (first
    | with_reducible exact Moves.refl _ _
    | with_reducible assumption
    | extract_lets
    | with_reducible refine Moves.ite ?_ ?_
    | with_reducible refine Moves.itePkt ?_ ?_
    | with_reducible refine (opSeqWord_moves ..).after (by decide) ?_
    | with_reducible refine runPacket_moves (by decide) (fun s => ?_)
    | with_reducible refine (Moves.fold _ _ _ ?_).behind ?_
    | intro _
    | split
    | ((conv => arg 3; with_reducible whnf); split)))

theorem opSeqClear_moves (x0 : Packet) (s : State) :
    Moves [.seq] s (opSeqClear x0 s).state := by
  unfold opSeqClear
  repeat' (first
    | with_reducible exact Moves.refl _ _
    | with_reducible assumption
    | extract_lets
    | with_reducible refine Moves.ite ?_ ?_
    | with_reducible refine Moves.itePkt ?_ ?_
    | with_reducible refine (State.modSeq_moves ..).after (by decide) ?_
    | with_reducible refine (Moves.fold _ _ _ ?_).behind ?_
    | intro _
    | split
    | ((conv => arg 3; with_reducible whnf); split))

theorem execSeqClear_moves (x0 : Packet) (s : State) {t : State} (h : (execSeqClear x0 s) = .next t) :
    Moves [.trc, .host, .het, .evr, .out, .seq] s t := by
  unfold execSeqClear at h
  repeat' (first | contradiction | (injection h with h; subst h) | split at h)
  all_goals (repeat' (first
    | with_reducible exact Moves.refl _ _
    | with_reducible assumption
    | extract_lets
    | with_reducible refine Moves.ite ?_ ?_
    | with_reducible refine Moves.itePkt ?_ ?_
    | with_reducible refine (opSeqClear_moves ..).after (by decide) ?_
    | with_reducible refine runPacket_moves (by decide) (fun s => ?_)
    | with_reducible refine (Moves.fold _ _ _ ?_).behind ?_
    | intro _
    | split
    | ((conv => arg 3; with_reducible whnf); split)))

end Sys2Proof.Machine
end

