-- ==== Sys2Proof/Laws/MovesFire.lean ====
section
/-! SUPPORT. What each operation and each command of Machine/Fire.lean can touch. -/

namespace Sys2Proof.Machine
open Sys2Proof
set_option linter.all false
set_option Elab.async false

theorem State.noteLate_moves (s : State) (x1 : Eng) (x2 : CmpIx) (x3 : Nat) :
    Moves [.trc, .evr, .reel] s (State.noteLate s x1 x2 x3) := by
  unfold State.noteLate
  repeat' (first
    | with_reducible exact Moves.refl _ _
    | with_reducible assumption
    | extract_lets
    | with_reducible refine Moves.ite ?_ ?_
    | with_reducible refine (State.modReel_moves ..).after (by decide) ?_
    | with_reducible refine (State.modCmp_moves ..).after (by decide) ?_
    | with_reducible refine (State.saturated_moves ..).after (by decide) ?_
    | with_reducible refine (Moves.fold _ _ _ ?_).behind ?_
    | intro _
    | split
    | ((conv => arg 3; with_reducible whnf); split))

theorem State.rearm_moves (s : State) (x1 : Eng) (x2 : CmpIx) :
    Moves [.reel, .seq] s (State.rearm s x1 x2) := by
  unfold State.rearm
  repeat' (first
    | with_reducible exact Moves.refl _ _
    | with_reducible assumption
    | extract_lets
    | with_reducible refine Moves.ite ?_ ?_
    | with_reducible refine (State.modCmp_moves ..).after (by decide) ?_
    | with_reducible refine (State.modSeq_moves ..).after (by decide) ?_
    | with_reducible refine (Moves.fold _ _ _ ?_).behind ?_
    | intro _
    | split
    | ((conv => arg 3; with_reducible whnf); split))

theorem State.eachHead_moves {m : List Part} {s : State} {a : Eng} {f : State → Head → State} (h : ∀ s g, Moves m s (f s g)) :
    Moves m s (s.eachHead a f) := Moves.fold _ _ _ h

theorem State.fireServo_moves (s : State) (x1 : Eng) (x2 : CmpIx) :
    Moves [.slice, .lane, .trc, .evr, .reel, .recv, .det, .wr, .freq] s (State.fireServo s x1 x2) := by
  unfold State.fireServo
  repeat' (first
    | with_reducible exact Moves.refl _ _
    | with_reducible assumption
    | extract_lets
    | with_reducible refine Moves.ite ?_ ?_
    | with_reducible refine (State.eachHead_moves (fun s g => ?_)).behind ?_
    | with_reducible refine (State.servoGate_moves ..).after (by decide) ?_
    | with_reducible refine (State.modReel_moves ..).after (by decide) ?_
    | with_reducible refine (State.beginSearch_moves ..).after (by decide) ?_
    | with_reducible refine (Moves.fold _ _ _ ?_).behind ?_
    | intro _
    | split
    | ((conv => arg 3; with_reducible whnf); split))

theorem State.firePreheat_moves (s : State) (x1 : Eng) (x2 : LHead) :
    Moves [.lpe, .links, .wr] s (State.firePreheat s x1 x2) := by
  unfold State.firePreheat
  repeat' (first
    | with_reducible exact Moves.refl _ _
    | with_reducible assumption
    | extract_lets
    | with_reducible refine Moves.ite ?_ ?_
    | with_reducible refine (State.strobeHead_moves ..).after (by decide) ?_
    | with_reducible refine (State.modWr_moves ..).after (by decide) ?_
    | with_reducible refine (State.modLoop_moves ..).after (by decide) ?_
    | with_reducible refine (Moves.fold _ _ _ ?_).behind ?_
    | intro _
    | split
    | ((conv => arg 3; with_reducible whnf); split))

theorem State.unpinIdle_moves (s : State) (x1 : Eng) :
    Moves [.free, .trc, .media, .host, .het, .evr, .nor, .out, .zdc] s (State.unpinIdle s x1) := by
  unfold State.unpinIdle
  repeat' (first
    | with_reducible exact Moves.refl _ _
    | with_reducible assumption
    | extract_lets
    | with_reducible refine Moves.ite ?_ ?_
    | with_reducible refine (State.modZdc_moves ..).after (by decide) ?_
    | with_reducible refine (State.zdcSettle_moves ..).after (by decide) ?_
    | with_reducible refine (Moves.fold _ _ _ ?_).behind ?_
    | intro _
    | split
    | ((conv => arg 3; with_reducible whnf); split))

theorem State.ladderSet_moves (s : State) (x1 : Eng) (x2 : Head) (x3 : Angle) :
    Moves [.headSrv] s (State.ladderSet s x1 x2 x3) := by
  unfold State.ladderSet
  repeat' (first
    | with_reducible exact Moves.refl _ _
    | with_reducible assumption
    | extract_lets
    | with_reducible refine Moves.ite ?_ ?_
    | with_reducible refine (State.modHs_moves ..).after (by decide) ?_
    | with_reducible refine (Moves.fold _ _ _ ?_).behind ?_
    | intro _
    | split
    | ((conv => arg 3; with_reducible whnf); split))

theorem State.ladderContact_moves (s : State) (x1 : Eng) (x2 : Head) (x3 : Angle) :
    Moves [.slice, .lane, .pool, .trc, .media, .q, .pwr, .evr, .nor, .recv, .det, .headSrv, .map] s (State.ladderContact s x1 x2 x3) := by
  unfold State.ladderContact
  repeat' (first
    | with_reducible exact Moves.refl _ _
    | with_reducible assumption
    | extract_lets
    | with_reducible refine Moves.ite ?_ ?_
    | with_reducible refine (State.voidReads_moves ..).after (by decide) ?_
    | with_reducible refine (State.modJob_moves ..).after (by decide) ?_
    | with_reducible refine (State.tryFailed_moves ..).after (by decide) ?_
    | with_reducible refine (Moves.fold _ _ _ ?_).behind ?_
    | intro _
    | split
    | ((conv => arg 3; with_reducible whnf); split))

theorem State.servoFire_moves (s : State) (x1 : Eng) (x2 : List HeadField) (x3 : Angle) :
    Moves [.free, .slice, .lane, .pool, .mems, .wsl, .lpe, .trc, .media, .host, .q, .het, .pwr, .sec, .evr, .nor, .rst, .out, .reel, .links, .recv, .wrg, .engSrv, .seq, .zdc, .rd, .det, .wr, .headSrv, .map, .freq] s (State.servoFire s x1 x2 x3) := by
  unfold State.servoFire
  repeat' (first
    | with_reducible exact Moves.refl _ _
    | with_reducible assumption
    | extract_lets
    | with_reducible refine Moves.ite ?_ ?_
    | with_reducible refine (State.ladderSet_moves ..).after (by decide) ?_
    | with_reducible refine (State.servoSample_moves ..).after (by decide) ?_
    | with_reducible refine (Moves.fold _ _ _ ?_).behind ?_
    | intro _
    | split
    | ((conv => arg 3; with_reducible whnf); split))

theorem State.heatFire_moves (s : State) (x1 : Eng) (x2 : Angle) :
    Moves [.slice, .lane, .pool, .mems, .lpe, .trc, .media, .q, .pwr, .evr, .nor, .links, .recv, .det, .headSrv, .map] s (State.heatFire s x1 x2) := by
  unfold State.heatFire
  repeat' (first
    | with_reducible exact Moves.refl _ _
    | with_reducible assumption
    | extract_lets
    | with_reducible refine Moves.ite ?_ ?_
    | with_reducible refine (State.ladderSet_moves ..).after (by decide) ?_
    | with_reducible refine (State.ladderContact_moves ..).after (by decide) ?_
    | with_reducible refine (State.heatSamples_moves ..).after (by decide) ?_
    | with_reducible refine (Moves.fold _ _ _ ?_).behind ?_
    | intro _
    | split
    | ((conv => arg 3; with_reducible whnf); split))

theorem State.fireSeq_moves (s : State) (x1 : Eng) (x2 : CmpIx) (x3 : Angle) :
    Moves [.free, .slice, .lane, .pool, .trc, .spn, .media, .host, .q, .het, .pwr, .sec, .evr, .nor, .rst, .out, .reel, .links, .recv, .engSrv, .seq, .zdc, .rd, .det, .wr, .headSrv, .map, .freq] s (State.fireSeq s x1 x2 x3) := by
  unfold State.fireSeq
  repeat' (first
    | with_reducible exact Moves.refl _ _
    | with_reducible assumption
    | extract_lets
    | with_reducible refine Moves.ite ?_ ?_
    | with_reducible refine (State.modSeq_moves ..).after (by decide) ?_
    | with_reducible refine (State.writeEnable_moves ..).after (by decide) ?_
    | with_reducible refine (State.sectorStart_moves ..).after (by decide) ?_
    | with_reducible refine (State.readOn_moves ..).after (by decide) ?_
    | with_reducible refine (State.readOff_moves ..).after (by decide) ?_
    | with_reducible refine (State.unpinIdle_moves ..).after (by decide) ?_
    | with_reducible refine (State.writeOn_moves ..).after (by decide) ?_
    | with_reducible refine (State.writeOff_moves ..).after (by decide) ?_
    | with_reducible refine (State.settleRun_moves ..).after (by decide) ?_
    | with_reducible refine (Moves.fold _ _ _ ?_).behind ?_
    | intro _
    | split
    | ((conv => arg 3; with_reducible whnf); split))

theorem State.fireAction_moves (s : State) (x1 : Eng) (x2 : CmpIx) (x3 : FireData) (x4 : Angle) :
    Moves [.free, .slice, .lane, .pool, .mems, .wsl, .lpe, .trc, .spn, .media, .host, .q, .het, .pwr, .sec, .evr, .nor, .rst, .out, .reel, .links, .recv, .wrg, .engSrv, .seq, .zdc, .rd, .det, .wr, .headSrv, .map, .freq] s (State.fireAction s x1 x2 x3 x4) := by
  unfold State.fireAction
  repeat' (first
    | with_reducible exact Moves.refl _ _
    | with_reducible assumption
    | extract_lets
    | with_reducible refine Moves.ite ?_ ?_
    | with_reducible refine (State.fireServo_moves ..).after (by decide) ?_
    | with_reducible refine (State.servoFire_moves ..).after (by decide) ?_
    | with_reducible refine (State.heatFire_moves ..).after (by decide) ?_
    | with_reducible refine (State.launchOrWait_moves ..).after (by decide) ?_
    | with_reducible refine (State.fireSeq_moves ..).after (by decide) ?_
    | with_reducible refine (State.firePreheat_moves ..).after (by decide) ?_
    | with_reducible refine (State.modPwr_moves ..).after (by decide) ?_
    | with_reducible refine (State.traceTrigger_moves ..).after (by decide) ?_
    | with_reducible refine (State.condReel_moves ..).after (by decide) ?_
    | with_reducible refine (Moves.fold _ _ _ ?_).behind ?_
    | intro _
    | split
    | ((conv => arg 3; with_reducible whnf); split))

theorem execComparatorFire_moves (x0 : Eng) (x1 : CmpIx) (x2 : FireData) (s : State) {t : State} (h : (execComparatorFire x0 x1 x2 s) = .next t) :
    Moves [.free, .slice, .lane, .pool, .mems, .wsl, .lpe, .trc, .spn, .media, .host, .q, .het, .pwr, .sec, .evr, .nor, .rst, .out, .reel, .links, .recv, .wrg, .engSrv, .seq, .zdc, .rd, .det, .wr, .headSrv, .map, .freq] s t := by
  unfold execComparatorFire at h
  repeat' (first | contradiction | (injection h with h; subst h) | split at h)
  all_goals (repeat' (first
    | with_reducible exact Moves.refl _ _
    | with_reducible assumption
    | extract_lets
    | with_reducible refine Moves.ite ?_ ?_
    | with_reducible refine (State.rearm_moves ..).after (by decide) ?_
    | with_reducible refine (State.noteLate_moves ..).after (by decide) ?_
    | with_reducible refine (State.modReel_moves ..).after (by decide) ?_
    | with_reducible refine (State.fireAction_moves ..).after (by decide) ?_
    | with_reducible refine (State.reapCredits_moves ..).after (by decide) ?_
    | with_reducible refine (Moves.fold _ _ _ ?_).behind ?_
    | intro _
    | split
    | ((conv => arg 3; with_reducible whnf); split)))

end Sys2Proof.Machine
end

