-- ==== Sys2Proof/Laws/MovesZones.lean ====
section
/-! SUPPORT. What each operation and each command of Machine/Zones.lean can touch. -/

namespace Sys2Proof.Machine
open Sys2Proof
set_option linter.all false
set_option Elab.async false

theorem State.enterZState_moves (s : State) (x1 : ZoneNo) (x2 : ZState) :
    Moves [.free, .trc, .media, .host, .evr, .nor, .out, .zdc] s (State.enterZState s x1 x2) := by
  unfold State.enterZState
  repeat' (first
    | with_reducible exact Moves.refl _ _
    | with_reducible assumption
    | extract_lets
    | with_reducible refine Moves.ite ?_ ?_
    | with_reducible refine (State.setZone_moves ..).after (by decide) ?_
    | with_reducible refine (State.modHost_moves ..).after (by decide) ?_
    | with_reducible refine (Moves.fold _ _ _ ?_).behind ?_
    | intro _
    | split
    | ((conv => arg 3; with_reducible whnf); split))

theorem State.reuseSpares_moves (s : State) (x1 : Eng) :
    Moves [.recv] s (State.reuseSpares s x1) := by
  unfold State.reuseSpares
  repeat' (first
    | with_reducible exact Moves.refl _ _
    | with_reducible assumption
    | extract_lets
    | with_reducible refine Moves.ite ?_ ?_
    | with_reducible refine (State.modRec_moves ..).after (by decide) ?_
    | with_reducible refine (Moves.fold _ _ _ ?_).behind ?_
    | intro _
    | split
    | ((conv => arg 3; with_reducible whnf); split))

theorem State.clearRemaps_moves (s : State) (x1 : Eng) (x2 : ZoneNo) :
    Moves [.trc, .media, .evr, .nor, .recv, .map] s (State.clearRemaps s x1 x2) := by
  unfold State.clearRemaps
  repeat' (first
    | with_reducible exact Moves.refl _ _
    | with_reducible assumption
    | extract_lets
    | with_reducible refine Moves.ite ?_ ?_
    | with_reducible refine (State.reuseSpares_moves ..).after (by decide) ?_
    | with_reducible refine (State.addDefect_moves ..).after (by decide) ?_
    | with_reducible refine (State.modRec_moves ..).after (by decide) ?_
    | with_reducible refine (State.modNor_moves _ _ (by intro n; repeat' (first | rfl | extract_lets | split))).after (by decide) ?_
    | with_reducible refine (State.modMedia_moves ..).after (by decide) ?_
    | with_reducible refine (Moves.fold _ _ _ ?_).behind ?_
    | intro _
    | split
    | ((conv => arg 3; with_reducible whnf); split))

theorem State.growDefects_moves (s : State) (x1 : Eng) (x2 : ZoneDesc) :
    Moves [.trc, .media, .evr, .nor, .map] s (State.growDefects s x1 x2) := by
  unfold State.growDefects
  repeat' (first
    | with_reducible exact Moves.refl _ _
    | with_reducible assumption
    | extract_lets
    | with_reducible refine Moves.ite ?_ ?_
    | with_reducible refine (State.addDefect_moves ..).after (by decide) ?_
    | with_reducible refine (Moves.fold _ _ _ ?_).behind ?_
    | intro _
    | split
    | ((conv => arg 3; with_reducible whnf); split))

theorem State.keepZoneWrites_moves (s : State) (x1 : ZoneNo) :
    Moves [.q] s (State.keepZoneWrites s x1) := by
  unfold State.keepZoneWrites
  repeat' (first
    | with_reducible exact Moves.refl _ _
    | with_reducible assumption
    | extract_lets
    | with_reducible refine Moves.ite ?_ ?_
    | with_reducible refine (State.modView_moves ..).after (by decide) ?_
    | with_reducible refine (Moves.fold _ _ _ ?_).behind ?_
    | intro _
    | split
    | ((conv => arg 3; with_reducible whnf); split))

theorem State.zeroBlocks_moves (s : State) (x1 : List (CtxIx × Nat × Bool)) :
    Moves [.q] s (State.zeroBlocks s x1) := by
  unfold State.zeroBlocks
  repeat' (first
    | with_reducible exact Moves.refl _ _
    | with_reducible assumption
    | extract_lets
    | with_reducible refine Moves.ite ?_ ?_
    | with_reducible refine (State.modCtx_moves ..).after (by decide) ?_
    | with_reducible refine (Moves.fold _ _ _ ?_).behind ?_
    | intro _
    | split
    | ((conv => arg 3; with_reducible whnf); split))

theorem State.resetZone_moves (s : State) (x1 : ZoneNo) :
    Moves [.free, .slice, .lane, .pool, .trc, .media, .host, .q, .evr, .nor, .out, .recv, .zdc, .det, .wr, .headSrv, .map] s (State.resetZone s x1) := by
  unfold State.resetZone
  repeat' (first
    | with_reducible exact Moves.refl _ _
    | with_reducible assumption
    | extract_lets
    | with_reducible refine Moves.ite ?_ ?_
    | with_reducible refine (State.keepZoneWrites_moves ..).after (by decide) ?_
    | with_reducible refine (State.closeJobs_moves ..).after (by decide) ?_
    | with_reducible refine (State.zeroBlocks_moves ..).after (by decide) ?_
    | with_reducible refine (State.modWr_moves ..).after (by decide) ?_
    | with_reducible refine (State.clearRemaps_moves ..).after (by decide) ?_
    | with_reducible refine (State.growDefects_moves ..).after (by decide) ?_
    | with_reducible refine (State.setZone_moves ..).after (by decide) ?_
    | with_reducible refine (State.modMedia_moves ..).after (by decide) ?_
    | with_reducible refine (State.modHost_moves ..).after (by decide) ?_
    | with_reducible refine (Moves.fold _ _ _ ?_).behind ?_
    | intro _
    | split
    | ((conv => arg 3; with_reducible whnf); split))

theorem State.zoneAct_moves (s : State) (x1 : ZoneAct) (x2 : ZoneNo) :
    Moves [.free, .slice, .lane, .pool, .trc, .media, .host, .q, .evr, .nor, .out, .recv, .zdc, .det, .wr, .headSrv, .map] s (State.zoneAct s x1 x2) := by
  unfold State.zoneAct
  repeat' (first
    | with_reducible exact Moves.refl _ _
    | with_reducible assumption
    | extract_lets
    | with_reducible refine Moves.ite ?_ ?_
    | with_reducible refine (State.enterZState_moves ..).after (by decide) ?_
    | with_reducible refine (State.resetZone_moves ..).after (by decide) ?_
    | with_reducible refine (Moves.fold _ _ _ ?_).behind ?_
    | intro _
    | split
    | ((conv => arg 3; with_reducible whnf); split))

theorem State.modGroup_moves (s : State) (x1 : Eng) (x2 : Word) (x3 : LogGroup → LogGroup) :
    Moves [.media] s (State.modGroup s x1 x2 x3) := by
  unfold State.modGroup
  repeat' (first
    | with_reducible exact Moves.refl _ _
    | with_reducible assumption
    | extract_lets
    | with_reducible refine Moves.ite ?_ ?_
    | with_reducible refine (State.modMedia_moves ..).after (by decide) ?_
    | with_reducible refine (Moves.fold _ _ _ ?_).behind ?_
    | intro _
    | split
    | ((conv => arg 3; with_reducible whnf); split))

theorem State.ownWrite_moves (s : State) (x1 : ZoneNo) (x2 : ℕ) (x3 : Block) :
    Moves [.free, .q] s (State.ownWrite s x1 x2 x3) := by
  unfold State.ownWrite
  repeat' (first
    | with_reducible exact Moves.refl _ _
    | with_reducible assumption
    | extract_lets
    | with_reducible refine Moves.ite ?_ ?_
    | with_reducible refine (State.modQ_moves ..).after (by decide) ?_
    | with_reducible refine (Moves.fold _ _ _ ?_).behind ?_
    | intro _
    | split
    | ((conv => arg 3; with_reducible whnf); split)
    | with_reducible refine (Moves.set_free _ _).after (by decide) ?_)

theorem State.closeGroup_moves (s : State) (x1 : Eng) :
    Moves [.free, .trc, .media, .host, .q, .evr, .nor, .out, .zdc] s (State.closeGroup s x1) := by
  unfold State.closeGroup
  repeat' (first
    | with_reducible exact Moves.refl _ _
    | with_reducible assumption
    | extract_lets
    | with_reducible refine Moves.ite ?_ ?_
    | with_reducible refine (State.modGroup_moves ..).after (by decide) ?_
    | with_reducible refine (State.ownWrite_moves ..).after (by decide) ?_
    | with_reducible refine (State.setZone_moves ..).after (by decide) ?_
    | with_reducible refine (Moves.fold _ _ _ ?_).behind ?_
    | intro _
    | split
    | ((conv => arg 3; with_reducible whnf); split))

theorem State.appendBlock_moves (s : State) (x1 : Eng) (x2 : ℕ) (x3 : ℕ) (x4 : Option (ZoneNo × ℕ)) {t : State × _} (h : (State.appendBlock s x1 x2 x3 x4) = some t) :
    Moves [.free, .trc, .media, .host, .q, .evr, .nor, .out, .zdc] s t.1 := by
  unfold State.appendBlock at h
  extract_lets s0 target at h
  have h0 : Moves [.free, .trc, .media, .host, .q, .evr, .nor, .out, .zdc] s s0 := by
    simp only [s0]
    split
    · split
      · exact .refl _ s
      · exact (State.closeGroup_moves ..).widen (by decide)
    · exact .refl _ s
  clear_value s0
  clear_value target
  cases target with
  | none => cases h
  | some z =>
    dsimp only at h
    split at h
    · cases h
    · injection h with h; subst h
      dsimp only
      split
      · with_reducible refine (State.closeGroup_moves ..).after (by decide) ?_
        with_reducible refine (State.setZone_moves ..).after (by decide) ?_
        with_reducible refine (State.modGroup_moves ..).after (by decide) ?_
        all_goals (split
                   · exact h0
                   · with_reducible refine (State.modMedia_moves ..).after (by decide) ?_
                     exact h0)
      · with_reducible refine (State.setZone_moves ..).after (by decide) ?_
        with_reducible refine (State.modGroup_moves ..).after (by decide) ?_
        all_goals (split
                   · exact h0
                   · with_reducible refine (State.modMedia_moves ..).after (by decide) ?_
                     exact h0)

theorem execLogGroupClose_moves (x0 : Eng) (s : State) {t : State} (h : (execLogGroupClose x0 s) = .next t) :
    Moves [.free, .trc, .media, .host, .q, .evr, .nor, .out, .zdc] s t := by
  unfold execLogGroupClose at h
  repeat' (first | contradiction | (injection h with h; subst h) | split at h)
  all_goals (repeat' (first
    | with_reducible exact Moves.refl _ _
    | with_reducible assumption
    | extract_lets
    | with_reducible refine Moves.ite ?_ ?_
    | with_reducible refine (State.closeGroup_moves ..).after (by decide) ?_
    | with_reducible refine (Moves.fold _ _ _ ?_).behind ?_
    | intro _
    | split
    | ((conv => arg 3; with_reducible whnf); split)))

theorem State.endCompaction_moves (s : State) :
    Moves [.free, .slice, .lane, .pool, .trc, .media, .host, .q, .evr, .nor, .out, .recv, .zdc, .det, .wr, .headSrv, .map] s (State.endCompaction s) := by
  unfold State.endCompaction
  repeat' (first
    | with_reducible exact Moves.refl _ _
    | with_reducible assumption
    | extract_lets
    | with_reducible refine Moves.ite ?_ ?_
    | with_reducible refine (State.resetZone_moves ..).after (by decide) ?_
    | with_reducible refine (State.modMedia_moves ..).after (by decide) ?_
    | with_reducible refine (Moves.fold _ _ _ ?_).behind ?_
    | intro _
    | split
    | ((conv => arg 3; with_reducible whnf); split))

theorem execIndirectionUpdate_moves (x0 : Eng) (s : State) {t : State} (h : (execIndirectionUpdate x0 s) = .next t) :
    Moves [.free, .slice, .lane, .pool, .trc, .media, .host, .q, .evr, .nor, .out, .recv, .zdc, .det, .wr, .headSrv, .map] s t := by
  unfold execIndirectionUpdate at h
  repeat' (first | contradiction | (injection h with h; subst h) | split at h)
  all_goals (repeat' (first
    | with_reducible exact Moves.refl _ _
    | with_reducible assumption
    | extract_lets
    | with_reducible refine Moves.ite ?_ ?_
    | with_reducible refine (State.modMedia_moves ..).after (by decide) ?_
    | with_reducible refine (State.modGroup_moves ..).after (by decide) ?_
    | with_reducible refine (State.modQ_moves ..).after (by decide) ?_
    | with_reducible refine (State.modView_moves ..).after (by decide) ?_
    | with_reducible refine (State.endCompaction_moves ..).after (by decide) ?_
    | with_reducible refine (Moves.fold _ _ _ ?_).behind ?_
    | intro _
    | split
    | ((conv => arg 3; with_reducible whnf); split)))

theorem State.storedBytes_moves (s : State) :
    Moves [.free] s (State.storedBytes s).2 := by
  unfold State.storedBytes
  repeat' (first
    | with_reducible exact Moves.refl _ _
    | with_reducible assumption
    | extract_lets
    | with_reducible refine Moves.ite ?_ ?_
    | with_reducible refine (Moves.fold _ _ _ ?_).behind ?_
    | intro _
    | split
    | ((conv => arg 3; with_reducible whnf); split)
    | with_reducible refine (Moves.set_free _ _).after (by decide) ?_)

theorem State.appendCopy_moves (s : State) (x1 : Eng) (x2 : ZoneNo) (x3 : ℕ) (x4 : Indir) :
    Moves [.free, .trc, .media, .host, .q, .evr, .nor, .out, .zdc] s (State.appendCopy s x1 x2 x3 x4) := by
  unfold State.appendCopy
  split
  · exact .refl _ s
  · rename_i s1 z ofs h
    obtain ⟨b, -, hb⟩ := List.exists_of_findSome?_eq_some h
    split at hb
    · have h1 : Moves [.free, .trc, .media, .host, .q, .evr, .nor, .out, .zdc] s s1 := (State.appendBlock_moves _ _ _ _ _ hb).widen (by decide)
      have h2 : Moves [.free, .trc, .media, .host, .q, .evr, .nor, .out, .zdc] s1 s1.storedBytes.2 := (State.storedBytes_moves ..).widen (by decide)
      revert h2
      generalize s1.storedBytes = r
      obtain ⟨b, s2⟩ := r
      intro h2
      dsimp only
      with_reducible refine (State.ownWrite_moves ..).after (by decide) ?_
      exact h1.trans h2
    · cases hb

theorem execCompaction_moves (x0 : Eng) (s : State) {t : State} (h : (execCompaction x0 s) = .next t) :
    Moves [.free, .slice, .lane, .pool, .trc, .media, .host, .q, .evr, .nor, .out, .recv, .zdc, .det, .wr, .headSrv, .map] s t := by
  unfold execCompaction at h
  repeat' (first | contradiction | (injection h with h; subst h) | split at h)
  all_goals try dsimp only
  all_goals (repeat' (first
    | with_reducible exact Moves.refl _ _
    | with_reducible assumption
    | extract_lets
    | with_reducible refine Moves.ite ?_ ?_
    | with_reducible refine (State.modMedia_moves ..).after (by decide) ?_
    | with_reducible refine (State.appendCopy_moves ..).after (by decide) ?_
    | with_reducible refine (State.endCompaction_moves ..).after (by decide) ?_
    | with_reducible refine (Moves.fold _ _ _ ?_).behind ?_
    | intro _
    | split
    | ((conv => arg 3; with_reducible whnf); split)))

theorem execZdcAccess_moves (x0 : Eng) (x1 : ZoneNo) (x2 : DescAccess) (s : State) {t : State} (h : (execZdcAccess x0 x1 x2 s) = .next t) :
    Moves [.free, .trc, .media, .host, .evr, .nor, .out, .zdc] s t := by
  unfold execZdcAccess at h
  repeat' (first | contradiction | (injection h with h; subst h) | split at h)
  all_goals (repeat' (first
    | with_reducible exact Moves.refl _ _
    | with_reducible assumption
    | extract_lets
    | with_reducible refine Moves.ite ?_ ?_
    | with_reducible refine (State.zdcAccess_moves ..).after (by decide) ?_
    | with_reducible refine (State.setZone_moves ..).after (by decide) ?_
    | with_reducible refine (Moves.fold _ _ _ ?_).behind ?_
    | intro _
    | split
    | ((conv => arg 3; with_reducible whnf); split)))

theorem execZdcFillDone_moves (x0 : Eng) (x1 : ZoneNo) (x2 : Bool) (s : State) {t : State} (h : (execZdcFillDone x0 x1 x2 s) = .next t) :
    Moves [.free, .trc, .media, .host, .het, .evr, .nor, .out, .zdc] s t := by
  unfold execZdcFillDone at h
  repeat' (first | contradiction | (injection h with h; subst h) | split at h)
  all_goals (repeat' (first
    | with_reducible exact Moves.refl _ _
    | with_reducible assumption
    | extract_lets
    | with_reducible refine Moves.ite ?_ ?_
    | with_reducible refine (State.tableWrite_moves ..).after (by decide) ?_
    | with_reducible refine (State.modZdc_moves ..).after (by decide) ?_
    | with_reducible refine (State.condZdc_moves ..).after (by decide) ?_
    | with_reducible refine (State.saturated_moves ..).after (by decide) ?_
    | with_reducible refine (State.lineAccess_moves ..).after (by decide) ?_
    | with_reducible refine (State.zdcSettle_moves ..).after (by decide) ?_
    | with_reducible refine (Moves.fold _ _ _ ?_).behind ?_
    | intro _
    | split
    | ((conv => arg 3; with_reducible whnf); split)))

theorem execZdcWritebackDone_moves (x0 : Eng) (x1 : Fin 4) (s : State) {t : State} (h : (execZdcWritebackDone x0 x1 s) = .next t) :
    Moves [.free, .trc, .media, .host, .het, .evr, .nor, .out, .zdc] s t := by
  unfold execZdcWritebackDone at h
  repeat' (first | contradiction | (injection h with h; subst h) | split at h)
  all_goals (repeat' (first
    | with_reducible exact Moves.refl _ _
    | with_reducible assumption
    | extract_lets
    | with_reducible refine Moves.ite ?_ ?_
    | with_reducible refine (State.tableWrite_moves ..).after (by decide) ?_
    | with_reducible refine (State.modZdc_moves ..).after (by decide) ?_
    | with_reducible refine (State.zdcSettle_moves ..).after (by decide) ?_
    | with_reducible refine (Moves.fold _ _ _ ?_).behind ?_
    | intro _
    | split
    | ((conv => arg 3; with_reducible whnf); split)))

theorem execZdcPin_moves (x0 : Eng) (x1 : ZoneNo) (s : State) {t : State} (h : (execZdcPin x0 x1 s) = .next t) :
    Moves [.free, .trc, .media, .host, .evr, .nor, .out, .zdc] s t := by
  unfold execZdcPin at h
  repeat' (first | contradiction | (injection h with h; subst h) | split at h)
  all_goals (repeat' (first
    | with_reducible exact Moves.refl _ _
    | with_reducible assumption
    | extract_lets
    | with_reducible refine Moves.ite ?_ ?_
    | with_reducible refine (State.zdcAccess_moves ..).after (by decide) ?_
    | with_reducible refine (State.modZdc_moves ..).after (by decide) ?_
    | with_reducible refine (State.retryPins_moves ..).after (by decide) ?_
    | with_reducible refine (Moves.fold _ _ _ ?_).behind ?_
    | intro _
    | split
    | ((conv => arg 3; with_reducible whnf); split)))

theorem execZoneStatus_moves (x0 : Packet) (s : State) {t : State} (h : (execZoneStatus x0 s) = .next t) :
    Moves [.trc, .host, .het, .evr, .out] s t := by
  unfold execZoneStatus at h
  repeat' (first | contradiction | (injection h with h; subst h) | split at h)
  all_goals (repeat' (first
    | with_reducible exact Moves.refl _ _
    | with_reducible assumption
    | extract_lets
    | with_reducible refine Moves.ite ?_ ?_
    | with_reducible refine Moves.itePkt ?_ ?_
    | with_reducible refine runPacket_moves (by decide) (fun s => ?_)
    | with_reducible refine (PktRes.fail_moves ..).after (by decide) ?_
    | with_reducible refine (Moves.fold _ _ _ ?_).behind ?_
    | intro _
    | split
    | ((conv => arg 3; with_reducible whnf); split)))

theorem execZoneCacheStatus_moves (x0 : Packet) (s : State) {t : State} (h : (execZoneCacheStatus x0 s) = .next t) :
    Moves [.trc, .host, .het, .evr, .out] s t := by
  unfold execZoneCacheStatus at h
  repeat' (first | contradiction | (injection h with h; subst h) | split at h)
  all_goals (repeat' (first
    | with_reducible exact Moves.refl _ _
    | with_reducible assumption
    | extract_lets
    | with_reducible refine Moves.ite ?_ ?_
    | with_reducible refine Moves.itePkt ?_ ?_
    | with_reducible refine runPacket_moves (by decide) (fun s => ?_)
    | with_reducible refine (PktRes.report_moves ..).after (by decide) ?_
    | with_reducible refine (Moves.fold _ _ _ ?_).behind ?_
    | intro _
    | split
    | ((conv => arg 3; with_reducible whnf); split)))

theorem State.flushRegions_moves (s : State) (x1 : Eng) (x2 : List (Fin 8)) :
    Moves [.media, .zdc] s (State.flushRegions s x1 x2) := by
  unfold State.flushRegions
  repeat' (first
    | with_reducible exact Moves.refl _ _
    | with_reducible assumption
    | extract_lets
    | with_reducible refine Moves.ite ?_ ?_
    | with_reducible refine (State.flushLine_moves ..).after (by decide) ?_
    | with_reducible refine (Moves.fold _ _ _ ?_).behind ?_
    | intro _
    | split
    | ((conv => arg 3; with_reducible whnf); split))

theorem opZoneCacheConfig_moves (x0 : Packet) (s : State) :
    Moves [.media, .zdc] s (opZoneCacheConfig x0 s).state := by
  unfold opZoneCacheConfig
  repeat' (first
    | with_reducible exact Moves.refl _ _
    | with_reducible assumption
    | extract_lets
    | with_reducible refine Moves.ite ?_ ?_
    | with_reducible refine Moves.itePkt ?_ ?_
    | with_reducible refine (State.flushRegions_moves ..).after (by decide) ?_
    | with_reducible refine (State.retryPins_moves ..).after (by decide) ?_
    | with_reducible refine (State.modZdc_moves ..).after (by decide) ?_
    | with_reducible refine (Moves.fold _ _ _ ?_).behind ?_
    | intro _
    | split
    | ((conv => arg 3; with_reducible whnf); split))

theorem execZoneCacheConfig_moves (x0 : Packet) (s : State) {t : State} (h : (execZoneCacheConfig x0 s) = .next t) :
    Moves [.trc, .media, .host, .het, .evr, .out, .zdc] s t := by
  unfold execZoneCacheConfig at h
  repeat' (first | contradiction | (injection h with h; subst h) | split at h)
  all_goals (repeat' (first
    | with_reducible exact Moves.refl _ _
    | with_reducible assumption
    | extract_lets
    | with_reducible refine Moves.ite ?_ ?_
    | with_reducible refine Moves.itePkt ?_ ?_
    | with_reducible refine (opZoneCacheConfig_moves ..).after (by decide) ?_
    | with_reducible refine runPacket_moves (by decide) (fun s => ?_)
    | with_reducible refine (Moves.fold _ _ _ ?_).behind ?_
    | intro _
    | split
    | ((conv => arg 3; with_reducible whnf); split)))

theorem opMaintain_moves (x0 : Bool) (x1 : Packet) (s : State) :
    Moves [.free, .trc, .media, .host, .het, .evr, .nor, .out, .zdc] s (opMaintain x0 x1 s).state := by
  unfold opMaintain
  repeat' (first
    | with_reducible exact Moves.refl _ _
    | with_reducible assumption
    | extract_lets
    | with_reducible refine Moves.ite ?_ ?_
    | with_reducible refine Moves.itePkt ?_ ?_
    | with_reducible refine (PktRes.fail_moves ..).after (by decide) ?_
    | with_reducible refine (State.modZdc_moves ..).after (by decide) ?_
    | with_reducible refine (State.maintain_moves ..).after (by decide) ?_
    | with_reducible refine (State.zdcSettle_moves ..).after (by decide) ?_
    | with_reducible refine (Moves.fold _ _ _ ?_).behind ?_
    | intro _
    | split
    | ((conv => arg 3; with_reducible whnf); split))

theorem execZoneCacheFlush_moves (x0 : Packet) (s : State) {t : State} (h : (execZoneCacheFlush x0 s) = .next t) :
    Moves [.free, .trc, .media, .host, .het, .evr, .nor, .out, .zdc] s t := by
  unfold execZoneCacheFlush at h
  repeat' (first | contradiction | (injection h with h; subst h) | split at h)
  all_goals (repeat' (first
    | with_reducible exact Moves.refl _ _
    | with_reducible assumption
    | extract_lets
    | with_reducible refine Moves.ite ?_ ?_
    | with_reducible refine Moves.itePkt ?_ ?_
    | with_reducible refine runPacket_moves (by decide) (fun s => ?_)
    | with_reducible refine (opMaintain_moves ..).after (by decide) ?_
    | with_reducible refine (Moves.fold _ _ _ ?_).behind ?_
    | intro _
    | split
    | ((conv => arg 3; with_reducible whnf); split)))

theorem execZoneCacheInvalidate_moves (x0 : Packet) (s : State) {t : State} (h : (execZoneCacheInvalidate x0 s) = .next t) :
    Moves [.free, .trc, .media, .host, .het, .evr, .nor, .out, .zdc] s t := by
  unfold execZoneCacheInvalidate at h
  repeat' (first | contradiction | (injection h with h; subst h) | split at h)
  all_goals (repeat' (first
    | with_reducible exact Moves.refl _ _
    | with_reducible assumption
    | extract_lets
    | with_reducible refine Moves.ite ?_ ?_
    | with_reducible refine Moves.itePkt ?_ ?_
    | with_reducible refine runPacket_moves (by decide) (fun s => ?_)
    | with_reducible refine (opMaintain_moves ..).after (by decide) ?_
    | with_reducible refine (Moves.fold _ _ _ ?_).behind ?_
    | intro _
    | split
    | ((conv => arg 3; with_reducible whnf); split)))

theorem opZoneCacheClear_moves (x0 : Packet) (s : State) :
    Moves [.zdc] s (opZoneCacheClear x0 s).state := by
  unfold opZoneCacheClear
  repeat' (first
    | with_reducible exact Moves.refl _ _
    | with_reducible assumption
    | extract_lets
    | with_reducible refine Moves.ite ?_ ?_
    | with_reducible refine Moves.itePkt ?_ ?_
    | with_reducible refine (State.modZdc_moves ..).after (by decide) ?_
    | with_reducible refine (Moves.fold _ _ _ ?_).behind ?_
    | intro _
    | split
    | ((conv => arg 3; with_reducible whnf); split))

theorem execZoneCacheClear_moves (x0 : Packet) (s : State) {t : State} (h : (execZoneCacheClear x0 s) = .next t) :
    Moves [.trc, .host, .het, .evr, .out, .zdc] s t := by
  unfold execZoneCacheClear at h
  repeat' (first | contradiction | (injection h with h; subst h) | split at h)
  all_goals (repeat' (first
    | with_reducible exact Moves.refl _ _
    | with_reducible assumption
    | extract_lets
    | with_reducible refine Moves.ite ?_ ?_
    | with_reducible refine Moves.itePkt ?_ ?_
    | with_reducible refine (opZoneCacheClear_moves ..).after (by decide) ?_
    | with_reducible refine runPacket_moves (by decide) (fun s => ?_)
    | with_reducible refine (Moves.fold _ _ _ ?_).behind ?_
    | intro _
    | split
    | ((conv => arg 3; with_reducible whnf); split)))

theorem opMapBand_moves (x0 : Packet) (s : State) :
    Moves [.nor] s (opMapBand x0 s).state := by
  unfold opMapBand
  repeat' (first
    | with_reducible exact Moves.refl _ _
    | with_reducible assumption
    | extract_lets
    | with_reducible refine Moves.ite ?_ ?_
    | with_reducible refine Moves.itePkt ?_ ?_
    | with_reducible refine (PktRes.fail_moves ..).after (by decide) ?_
    | with_reducible refine (State.modNor_moves _ _ (by intro n; repeat' (first | rfl | extract_lets | split))).after (by decide) ?_
    | with_reducible refine (Moves.fold _ _ _ ?_).behind ?_
    | intro _
    | split
    | ((conv => arg 3; with_reducible whnf); split))

theorem execMapBand_moves (x0 : Packet) (s : State) {t : State} (h : (execMapBand x0 s) = .next t) :
    Moves [.trc, .host, .het, .evr, .nor, .out] s t := by
  unfold execMapBand at h
  repeat' (first | contradiction | (injection h with h; subst h) | split at h)
  all_goals (repeat' (first
    | with_reducible exact Moves.refl _ _
    | with_reducible assumption
    | extract_lets
    | with_reducible refine Moves.ite ?_ ?_
    | with_reducible refine Moves.itePkt ?_ ?_
    | with_reducible refine (opMapBand_moves ..).after (by decide) ?_
    | with_reducible refine runPacket_moves (by decide) (fun s => ?_)
    | with_reducible refine (Moves.fold _ _ _ ?_).behind ?_
    | intro _
    | split
    | ((conv => arg 3; with_reducible whnf); split)))

theorem opMapRegion_moves (x0 : Packet) (s : State) :
    Moves [.nor] s (opMapRegion x0 s).state := by
  unfold opMapRegion
  repeat' (first
    | with_reducible exact Moves.refl _ _
    | with_reducible assumption
    | extract_lets
    | with_reducible refine Moves.ite ?_ ?_
    | with_reducible refine Moves.itePkt ?_ ?_
    | with_reducible refine (State.modNor_moves _ _ (by intro n; repeat' (first | rfl | extract_lets | split))).after (by decide) ?_
    | with_reducible refine (Moves.fold _ _ _ ?_).behind ?_
    | intro _
    | split
    | ((conv => arg 3; with_reducible whnf); split))

theorem execMapRegion_moves (x0 : Packet) (s : State) {t : State} (h : (execMapRegion x0 s) = .next t) :
    Moves [.trc, .host, .het, .evr, .nor, .out] s t := by
  unfold execMapRegion at h
  repeat' (first | contradiction | (injection h with h; subst h) | split at h)
  all_goals (repeat' (first
    | with_reducible exact Moves.refl _ _
    | with_reducible assumption
    | extract_lets
    | with_reducible refine Moves.ite ?_ ?_
    | with_reducible refine Moves.itePkt ?_ ?_
    | with_reducible refine (opMapRegion_moves ..).after (by decide) ?_
    | with_reducible refine runPacket_moves (by decide) (fun s => ?_)
    | with_reducible refine (Moves.fold _ _ _ ?_).behind ?_
    | intro _
    | split
    | ((conv => arg 3; with_reducible whnf); split)))

theorem opMapConv_moves (x0 : Packet) (s : State) :
    Moves [.media, .nor] s (opMapConv x0 s).state := by
  unfold opMapConv
  repeat' (first
    | with_reducible exact Moves.refl _ _
    | with_reducible assumption
    | extract_lets
    | with_reducible refine Moves.ite ?_ ?_
    | with_reducible refine Moves.itePkt ?_ ?_
    | with_reducible refine (State.modNor_moves _ _ (by intro n; repeat' (first | rfl | extract_lets | split))).after (by decide) ?_
    | with_reducible refine (State.modMedia_moves ..).after (by decide) ?_
    | with_reducible refine (Moves.fold _ _ _ ?_).behind ?_
    | intro _
    | split
    | ((conv => arg 3; with_reducible whnf); split))

theorem execMapConv_moves (x0 : Packet) (s : State) {t : State} (h : (execMapConv x0 s) = .next t) :
    Moves [.trc, .media, .host, .het, .evr, .nor, .out] s t := by
  unfold execMapConv at h
  repeat' (first | contradiction | (injection h with h; subst h) | split at h)
  all_goals (repeat' (first
    | with_reducible exact Moves.refl _ _
    | with_reducible assumption
    | extract_lets
    | with_reducible refine Moves.ite ?_ ?_
    | with_reducible refine Moves.itePkt ?_ ?_
    | with_reducible refine (opMapConv_moves ..).after (by decide) ?_
    | with_reducible refine runPacket_moves (by decide) (fun s => ?_)
    | with_reducible refine (Moves.fold _ _ _ ?_).behind ?_
    | intro _
    | split
    | ((conv => arg 3; with_reducible whnf); split)))

theorem opHeadDepopulate_moves (x0 : Packet) (s : State) :
    Moves [.free, .slice, .lane, .pool, .wsl, .lpe, .trc, .media, .host, .q, .pwr, .sec, .evr, .nor, .out, .links, .recv, .engSrv, .seq, .zdc, .rd, .det, .wr, .headSrv, .map, .freq] s (opHeadDepopulate x0 s).state := by
  unfold opHeadDepopulate
  repeat' (first
    | with_reducible exact Moves.refl _ _
    | with_reducible assumption
    | extract_lets
    | with_reducible refine Moves.ite ?_ ?_
    | with_reducible refine Moves.itePkt ?_ ?_
    | with_reducible refine (PktRes.fail_moves ..).after (by decide) ?_
    | with_reducible refine (State.headFail_moves ..).after (by decide) ?_
    | with_reducible refine (Moves.fold _ _ _ ?_).behind ?_
    | intro _
    | split
    | ((conv => arg 3; with_reducible whnf); split))

theorem execHeadDepopulate_moves (x0 : Packet) (s : State) {t : State} (h : (execHeadDepopulate x0 s) = .next t) :
    Moves [.free, .slice, .lane, .pool, .wsl, .lpe, .trc, .media, .host, .q, .het, .pwr, .sec, .evr, .nor, .out, .links, .recv, .engSrv, .seq, .zdc, .rd, .det, .wr, .headSrv, .map, .freq] s t := by
  unfold execHeadDepopulate at h
  repeat' (first | contradiction | (injection h with h; subst h) | split at h)
  all_goals (repeat' (first
    | with_reducible exact Moves.refl _ _
    | with_reducible assumption
    | extract_lets
    | with_reducible refine Moves.ite ?_ ?_
    | with_reducible refine Moves.itePkt ?_ ?_
    | with_reducible refine runPacket_moves (by decide) (fun s => ?_)
    | with_reducible refine (opHeadDepopulate_moves ..).after (by decide) ?_
    | with_reducible refine (Moves.fold _ _ _ ?_).behind ?_
    | intro _
    | split
    | ((conv => arg 3; with_reducible whnf); split)))

theorem execZoneFinishRecommended_moves (x0 : ZoneNo) (s : State) {t : State} (h : (execZoneFinishRecommended x0 s) = .next t) :
    Moves [.free, .trc, .media, .host, .evr, .nor, .out, .zdc] s t := by
  unfold execZoneFinishRecommended at h
  repeat' (first | contradiction | (injection h with h; subst h) | split at h)
  all_goals (repeat' (first
    | with_reducible exact Moves.refl _ _
    | with_reducible assumption
    | extract_lets
    | with_reducible refine Moves.ite ?_ ?_
    | with_reducible refine (State.setZone_moves ..).after (by decide) ?_
    | with_reducible refine (State.zoneNotice_moves ..).after (by decide) ?_
    | with_reducible refine (Moves.fold _ _ _ ?_).behind ?_
    | intro _
    | split
    | ((conv => arg 3; with_reducible whnf); split)))

end Sys2Proof.Machine
end

