-- ==== Sys2Proof/Laws/MovesQueues.lean ====
section
/-! SUPPORT. What each operation and each command of Machine/Queues.lean can touch. -/

namespace Sys2Proof.Machine
open Sys2Proof
set_option linter.all false
set_option Elab.async false

theorem State.logError_moves (s : State) (x1 : Fn) (x2 : ℕ) (x3 : ℕ) (x4 : NvStatus) (x5 : ℕ) (x6 : ℕ) :
    Moves [.host] s (State.logError s x1 x2 x3 x4 x5 x6) := by
  unfold State.logError
  repeat' (first
    | with_reducible exact Moves.refl _ _
    | with_reducible assumption
    | extract_lets
    | with_reducible refine Moves.ite ?_ ?_
    | with_reducible refine (State.modFn_moves ..).after (by decide) ?_
    | with_reducible refine (Moves.fold _ _ _ ?_).behind ?_
    | intro _
    | split
    | ((conv => arg 3; with_reducible whnf); split))

theorem State.enterCtx_moves (s : State) (x1 : CtxIx) (x2 : Fn) (x3 : SubQueue) (x4 : Sqe) :
    Moves [.q] s (State.enterCtx s x1 x2 x3 x4) := by
  unfold State.enterCtx
  repeat' (first
    | with_reducible exact Moves.refl _ _
    | with_reducible assumption
    | extract_lets
    | with_reducible refine Moves.ite ?_ ?_
    | with_reducible refine (State.modQ_moves ..).after (by decide) ?_
    | with_reducible refine (Moves.fold _ _ _ ?_).behind ?_
    | intro _
    | split
    | ((conv => arg 3; with_reducible whnf); split))

theorem execCommandFetch_moves (x0 : Fn) (x1 : BitVec 16) (x2 : Sqe) (s : State) {t : State} (h : (execCommandFetch x0 x1 x2 s) = .next t) :
    Moves [.host, .q] s t := by
  unfold execCommandFetch at h
  repeat' (first | contradiction | (injection h with h; subst h) | split at h)
  all_goals (repeat' (first
    | with_reducible exact Moves.refl _ _
    | with_reducible assumption
    | extract_lets
    | with_reducible refine Moves.ite ?_ ?_
    | with_reducible refine (State.logError_moves ..).after (by decide) ?_
    | with_reducible refine (State.enterCtx_moves ..).after (by decide) ?_
    | with_reducible refine (State.modQ_moves ..).after (by decide) ?_
    | with_reducible refine (State.modFn_moves ..).after (by decide) ?_
    | with_reducible refine (Moves.fold _ _ _ ?_).behind ?_
    | intro _
    | split
    | ((conv => arg 3; with_reducible whnf); split)))

theorem execCreditGrant_moves (x0 : CtxIx) (s : State) {t : State} (h : (execCreditGrant x0 s) = .next t) :
    Moves [.q] s t := by
  unfold execCreditGrant at h
  repeat' (first | contradiction | (injection h with h; subst h) | split at h)
  all_goals (repeat' (first
    | with_reducible exact Moves.refl _ _
    | with_reducible assumption
    | extract_lets
    | with_reducible refine Moves.ite ?_ ?_
    | with_reducible refine (State.modCtx_moves ..).after (by decide) ?_
    | with_reducible refine (State.modQ_moves ..).after (by decide) ?_
    | with_reducible refine (Moves.fold _ _ _ ?_).behind ?_
    | intro _
    | split
    | ((conv => arg 3; with_reducible whnf); split)))

theorem State.advanceZone_moves (s : State) (x1 : ZoneNo) (x2 : Nat) :
    Moves [.free, .trc, .media, .host, .evr, .nor, .out, .zdc] s (State.advanceZone s x1 x2) := by
  unfold State.advanceZone
  repeat' (first
    | with_reducible exact Moves.refl _ _
    | with_reducible assumption
    | extract_lets
    | with_reducible refine Moves.ite ?_ ?_
    | with_reducible refine (State.enterZState_moves ..).after (by decide) ?_
    | with_reducible refine (State.setZone_moves ..).after (by decide) ?_
    | with_reducible refine (State.modHost_moves ..).after (by decide) ?_
    | with_reducible refine (Moves.fold _ _ _ ?_).behind ?_
    | intro _
    | split
    | ((conv => arg 3; with_reducible whnf); split))

theorem State.deallocate_moves (s : State) (x1 : Nat) (x2 : Nat) (x3 : List (Nat × Nat)) :
    Moves [.media] s (State.deallocate s x1 x2 x3) := by
  unfold State.deallocate
  repeat' (first
    | with_reducible exact Moves.refl _ _
    | with_reducible assumption
    | extract_lets
    | with_reducible refine Moves.ite ?_ ?_
    | with_reducible refine (State.modMedia_moves ..).after (by decide) ?_
    | with_reducible refine (Moves.fold _ _ _ ?_).behind ?_
    | intro _
    | split
    | ((conv => arg 3; with_reducible whnf); split))

theorem State.beginCmd_moves (s : State) (x1 : CtxIx) (x2 : Ctx) (x3 : Namespace) (x4 : Nat) :
    Moves [.free, .slice, .lane, .pool, .trc, .media, .host, .q, .evr, .nor, .out, .recv, .zdc, .det, .wr, .headSrv, .map] s (State.beginCmd s x1 x2 x3 x4) := by
  unfold State.beginCmd
  dsimp only
  repeat' (first
    | with_reducible exact Moves.refl _ _
    | with_reducible assumption
    | extract_lets
    | with_reducible refine Moves.ite ?_ ?_
    | with_reducible refine (State.modCtx_moves ..).after (by decide) ?_
    | with_reducible refine (State.zoneAct_moves ..).after (by decide) ?_
    | with_reducible refine (State.deallocate_moves ..).after (by decide) ?_
    | with_reducible refine (State.advanceZone_moves ..).after (by decide) ?_
    | with_reducible refine (Moves.fold _ _ _ ?_).behind ?_
    | intro _
    | split
    | ((conv => arg 3; with_reducible whnf); split))

theorem State.startCmd_moves (s : State) (x1 : CtxIx) :
    Moves [.free, .slice, .lane, .pool, .trc, .media, .host, .q, .evr, .nor, .out, .recv, .zdc, .det, .wr, .headSrv, .map] s (State.startCmd s x1) := by
  unfold State.startCmd
  repeat' (first
    | with_reducible exact Moves.refl _ _
    | with_reducible assumption
    | extract_lets
    | with_reducible refine Moves.ite ?_ ?_
    | with_reducible refine (State.modQ_moves ..).after (by decide) ?_
    | with_reducible refine (State.modCtx_moves ..).after (by decide) ?_
    | with_reducible refine (State.beginCmd_moves ..).after (by decide) ?_
    | with_reducible refine (Moves.fold _ _ _ ?_).behind ?_
    | intro _
    | split
    | ((conv => arg 3; with_reducible whnf); split))

theorem State.startOp_moves (s : State) (x1 : CtxIx) (x2 : Sqe → Bool) :
    Moves [.free, .slice, .lane, .pool, .trc, .media, .host, .q, .evr, .nor, .out, .recv, .zdc, .det, .wr, .headSrv, .map] s (State.startOp s x1 x2) := by
  unfold State.startOp
  repeat' (first
    | with_reducible exact Moves.refl _ _
    | with_reducible assumption
    | extract_lets
    | with_reducible refine Moves.ite ?_ ?_
    | with_reducible refine (State.startCmd_moves ..).after (by decide) ?_
    | with_reducible refine (Moves.fold _ _ _ ?_).behind ?_
    | intro _
    | split
    | ((conv => arg 3; with_reducible whnf); split))

theorem execCommandStart_moves (x0 : CtxIx) (s : State) {t : State} (h : (execCommandStart x0 s) = .next t) :
    Moves [.free, .slice, .lane, .pool, .trc, .media, .host, .q, .evr, .nor, .out, .recv, .zdc, .det, .wr, .headSrv, .map] s t := by
  unfold execCommandStart at h
  repeat' (first | contradiction | (injection h with h; subst h) | split at h)
  all_goals (repeat' (first
    | with_reducible exact Moves.refl _ _
    | with_reducible assumption
    | extract_lets
    | with_reducible refine Moves.ite ?_ ?_
    | with_reducible refine (State.startCmd_moves ..).after (by decide) ?_
    | with_reducible refine (Moves.fold _ _ _ ?_).behind ?_
    | intro _
    | split
    | ((conv => arg 3; with_reducible whnf); split)))

theorem execWrite_moves (x0 : CtxIx) (s : State) {t : State} (h : (execWrite x0 s) = .next t) :
    Moves [.free, .slice, .lane, .pool, .trc, .media, .host, .q, .evr, .nor, .out, .recv, .zdc, .det, .wr, .headSrv, .map] s t := by
  unfold execWrite at h
  repeat' (first | contradiction | (injection h with h; subst h) | split at h)
  all_goals (repeat' (first
    | with_reducible exact Moves.refl _ _
    | with_reducible assumption
    | extract_lets
    | with_reducible refine Moves.ite ?_ ?_
    | with_reducible refine (State.startOp_moves ..).after (by decide) ?_
    | with_reducible refine (Moves.fold _ _ _ ?_).behind ?_
    | intro _
    | split
    | ((conv => arg 3; with_reducible whnf); split)))

theorem execRead_moves (x0 : CtxIx) (s : State) {t : State} (h : (execRead x0 s) = .next t) :
    Moves [.free, .slice, .lane, .pool, .trc, .media, .host, .q, .evr, .nor, .out, .recv, .zdc, .det, .wr, .headSrv, .map] s t := by
  unfold execRead at h
  repeat' (first | contradiction | (injection h with h; subst h) | split at h)
  all_goals (repeat' (first
    | with_reducible exact Moves.refl _ _
    | with_reducible assumption
    | extract_lets
    | with_reducible refine Moves.ite ?_ ?_
    | with_reducible refine (State.startOp_moves ..).after (by decide) ?_
    | with_reducible refine (Moves.fold _ _ _ ?_).behind ?_
    | intro _
    | split
    | ((conv => arg 3; with_reducible whnf); split)))

theorem execWriteZeroes_moves (x0 : CtxIx) (s : State) {t : State} (h : (execWriteZeroes x0 s) = .next t) :
    Moves [.free, .slice, .lane, .pool, .trc, .media, .host, .q, .evr, .nor, .out, .recv, .zdc, .det, .wr, .headSrv, .map] s t := by
  unfold execWriteZeroes at h
  repeat' (first | contradiction | (injection h with h; subst h) | split at h)
  all_goals (repeat' (first
    | with_reducible exact Moves.refl _ _
    | with_reducible assumption
    | extract_lets
    | with_reducible refine Moves.ite ?_ ?_
    | with_reducible refine (State.startOp_moves ..).after (by decide) ?_
    | with_reducible refine (Moves.fold _ _ _ ?_).behind ?_
    | intro _
    | split
    | ((conv => arg 3; with_reducible whnf); split)))

theorem execDatasetManagement_moves (x0 : CtxIx) (s : State) {t : State} (h : (execDatasetManagement x0 s) = .next t) :
    Moves [.free, .slice, .lane, .pool, .trc, .media, .host, .q, .evr, .nor, .out, .recv, .zdc, .det, .wr, .headSrv, .map] s t := by
  unfold execDatasetManagement at h
  repeat' (first | contradiction | (injection h with h; subst h) | split at h)
  all_goals (repeat' (first
    | with_reducible exact Moves.refl _ _
    | with_reducible assumption
    | extract_lets
    | with_reducible refine Moves.ite ?_ ?_
    | with_reducible refine (State.startOp_moves ..).after (by decide) ?_
    | with_reducible refine (Moves.fold _ _ _ ?_).behind ?_
    | intro _
    | split
    | ((conv => arg 3; with_reducible whnf); split)))

theorem execVerify_moves (x0 : CtxIx) (s : State) {t : State} (h : (execVerify x0 s) = .next t) :
    Moves [.free, .slice, .lane, .pool, .trc, .media, .host, .q, .evr, .nor, .out, .recv, .zdc, .det, .wr, .headSrv, .map] s t := by
  unfold execVerify at h
  repeat' (first | contradiction | (injection h with h; subst h) | split at h)
  all_goals (repeat' (first
    | with_reducible exact Moves.refl _ _
    | with_reducible assumption
    | extract_lets
    | with_reducible refine Moves.ite ?_ ?_
    | with_reducible refine (State.startOp_moves ..).after (by decide) ?_
    | with_reducible refine (Moves.fold _ _ _ ?_).behind ?_
    | intro _
    | split
    | ((conv => arg 3; with_reducible whnf); split)))

theorem execZoneAppend_moves (x0 : CtxIx) (s : State) {t : State} (h : (execZoneAppend x0 s) = .next t) :
    Moves [.free, .slice, .lane, .pool, .trc, .media, .host, .q, .evr, .nor, .out, .recv, .zdc, .det, .wr, .headSrv, .map] s t := by
  unfold execZoneAppend at h
  repeat' (first | contradiction | (injection h with h; subst h) | split at h)
  all_goals (repeat' (first
    | with_reducible exact Moves.refl _ _
    | with_reducible assumption
    | extract_lets
    | with_reducible refine Moves.ite ?_ ?_
    | with_reducible refine (State.startOp_moves ..).after (by decide) ?_
    | with_reducible refine (Moves.fold _ _ _ ?_).behind ?_
    | intro _
    | split
    | ((conv => arg 3; with_reducible whnf); split)))

theorem execZoneReset_moves (x0 : CtxIx) (s : State) {t : State} (h : (execZoneReset x0 s) = .next t) :
    Moves [.free, .slice, .lane, .pool, .trc, .media, .host, .q, .evr, .nor, .out, .recv, .zdc, .det, .wr, .headSrv, .map] s t := by
  unfold execZoneReset at h
  repeat' (first | contradiction | (injection h with h; subst h) | split at h)
  all_goals (repeat' (first
    | with_reducible exact Moves.refl _ _
    | with_reducible assumption
    | extract_lets
    | with_reducible refine Moves.ite ?_ ?_
    | with_reducible refine (State.startOp_moves ..).after (by decide) ?_
    | with_reducible refine (Moves.fold _ _ _ ?_).behind ?_
    | intro _
    | split
    | ((conv => arg 3; with_reducible whnf); split)))

theorem execZoneOpen_moves (x0 : CtxIx) (s : State) {t : State} (h : (execZoneOpen x0 s) = .next t) :
    Moves [.free, .slice, .lane, .pool, .trc, .media, .host, .q, .evr, .nor, .out, .recv, .zdc, .det, .wr, .headSrv, .map] s t := by
  unfold execZoneOpen at h
  repeat' (first | contradiction | (injection h with h; subst h) | split at h)
  all_goals (repeat' (first
    | with_reducible exact Moves.refl _ _
    | with_reducible assumption
    | extract_lets
    | with_reducible refine Moves.ite ?_ ?_
    | with_reducible refine (State.startOp_moves ..).after (by decide) ?_
    | with_reducible refine (Moves.fold _ _ _ ?_).behind ?_
    | intro _
    | split
    | ((conv => arg 3; with_reducible whnf); split)))

theorem execZoneClose_moves (x0 : CtxIx) (s : State) {t : State} (h : (execZoneClose x0 s) = .next t) :
    Moves [.free, .slice, .lane, .pool, .trc, .media, .host, .q, .evr, .nor, .out, .recv, .zdc, .det, .wr, .headSrv, .map] s t := by
  unfold execZoneClose at h
  repeat' (first | contradiction | (injection h with h; subst h) | split at h)
  all_goals (repeat' (first
    | with_reducible exact Moves.refl _ _
    | with_reducible assumption
    | extract_lets
    | with_reducible refine Moves.ite ?_ ?_
    | with_reducible refine (State.startOp_moves ..).after (by decide) ?_
    | with_reducible refine (Moves.fold _ _ _ ?_).behind ?_
    | intro _
    | split
    | ((conv => arg 3; with_reducible whnf); split)))

theorem execZoneFinish_moves (x0 : CtxIx) (s : State) {t : State} (h : (execZoneFinish x0 s) = .next t) :
    Moves [.free, .slice, .lane, .pool, .trc, .media, .host, .q, .evr, .nor, .out, .recv, .zdc, .det, .wr, .headSrv, .map] s t := by
  unfold execZoneFinish at h
  repeat' (first | contradiction | (injection h with h; subst h) | split at h)
  all_goals (repeat' (first
    | with_reducible exact Moves.refl _ _
    | with_reducible assumption
    | extract_lets
    | with_reducible refine Moves.ite ?_ ?_
    | with_reducible refine (State.startOp_moves ..).after (by decide) ?_
    | with_reducible refine (Moves.fold _ _ _ ?_).behind ?_
    | intro _
    | split
    | ((conv => arg 3; with_reducible whnf); split)))

theorem execZoneOffline_moves (x0 : CtxIx) (s : State) {t : State} (h : (execZoneOffline x0 s) = .next t) :
    Moves [.free, .slice, .lane, .pool, .trc, .media, .host, .q, .evr, .nor, .out, .recv, .zdc, .det, .wr, .headSrv, .map] s t := by
  unfold execZoneOffline at h
  repeat' (first | contradiction | (injection h with h; subst h) | split at h)
  all_goals (repeat' (first
    | with_reducible exact Moves.refl _ _
    | with_reducible assumption
    | extract_lets
    | with_reducible refine Moves.ite ?_ ?_
    | with_reducible refine (State.startOp_moves ..).after (by decide) ?_
    | with_reducible refine (Moves.fold _ _ _ ?_).behind ?_
    | intro _
    | split
    | ((conv => arg 3; with_reducible whnf); split)))

theorem execReportZones_moves (x0 : CtxIx) (s : State) {t : State} (h : (execReportZones x0 s) = .next t) :
    Moves [.q] s t := by
  unfold execReportZones at h
  repeat' (first | contradiction | (injection h with h; subst h) | split at h)
  all_goals (repeat' (first
    | with_reducible exact Moves.refl _ _
    | with_reducible assumption
    | extract_lets
    | with_reducible refine Moves.ite ?_ ?_
    | with_reducible refine (State.modCtx_moves ..).after (by decide) ?_
    | with_reducible refine (Moves.fold _ _ _ ?_).behind ?_
    | intro _
    | split
    | ((conv => arg 3; with_reducible whnf); split)))

theorem State.feedReads_moves (s : State) (x1 : WriteView) :
    Moves [.q] s (State.feedReads s x1) := by
  unfold State.feedReads
  repeat' (first
    | with_reducible exact Moves.refl _ _
    | with_reducible assumption
    | extract_lets
    | with_reducible refine Moves.ite ?_ ?_
    | with_reducible refine (State.modQ_moves ..).after (by decide) ?_
    | with_reducible refine (Moves.fold _ _ _ ?_).behind ?_
    | intro _
    | split
    | ((conv => arg 3; with_reducible whnf); split))

theorem State.countBytes_moves (s : State) (x1 : Ctx) (x2 : ℕ) :
    Moves [.q] s (State.countBytes s x1 x2) := by
  unfold State.countBytes
  repeat' (first
    | with_reducible exact Moves.refl _ _
    | with_reducible assumption
    | extract_lets
    | with_reducible refine Moves.ite ?_ ?_
    | with_reducible refine (State.modQ_moves ..).after (by decide) ?_
    | with_reducible refine (Moves.fold _ _ _ ?_).behind ?_
    | intro _
    | split
    | ((conv => arg 3; with_reducible whnf); split))

theorem execHostTransferDone_moves (x0 : CtxIx) (s : State) {t : State} (h : (execHostTransferDone x0 s) = .next t) :
    Moves [.spn, .q] s t := by
  unfold execHostTransferDone at h
  repeat' (first | contradiction | (injection h with h; subst h) | split at h)
  all_goals (repeat' (first
    | with_reducible exact Moves.refl _ _
    | with_reducible assumption
    | extract_lets
    | with_reducible refine Moves.ite ?_ ?_
    | with_reducible refine (State.modCtx_moves ..).after (by decide) ?_
    | with_reducible refine (State.countBytes_moves ..).after (by decide) ?_
    | with_reducible refine (State.sumBolero_moves ..).after (by decide) ?_
    | with_reducible refine (State.feedReads_moves ..).after (by decide) ?_
    | with_reducible refine (State.transferFailed_moves ..).after (by decide) ?_
    | with_reducible refine (State.modQ_moves ..).after (by decide) ?_
    | with_reducible refine (Moves.fold _ _ _ ?_).behind ?_
    | intro _
    | split
    | ((conv => arg 3; with_reducible whnf); split)))

theorem State.settleFlushes_moves (s : State) :
    Moves [.q] s (State.settleFlushes s) := by
  unfold State.settleFlushes
  repeat' (first
    | with_reducible exact Moves.refl _ _
    | with_reducible assumption
    | extract_lets
    | with_reducible refine Moves.ite ?_ ?_
    | with_reducible refine (State.modQ_moves ..).after (by decide) ?_
    | with_reducible refine (State.modCtx_moves ..).after (by decide) ?_
    | with_reducible refine (Moves.fold _ _ _ ?_).behind ?_
    | intro _
    | split
    | ((conv => arg 3; with_reducible whnf); split))

theorem State.shutdownUnload_moves (s : State) :
    Moves [.slice, .lane, .pool, .lpe, .trc, .spn, .q, .pwr, .evr, .nor, .rst, .reel, .links, .recv, .engSrv, .seq, .rd, .det, .wr, .headSrv, .map, .freq] s (State.shutdownUnload s) := by
  unfold State.shutdownUnload
  repeat' (first
    | with_reducible exact Moves.refl _ _
    | with_reducible assumption
    | extract_lets
    | with_reducible refine Moves.ite ?_ ?_
    | with_reducible refine (State.controlledUnload_moves ..).after (by decide) ?_
    | with_reducible refine (State.spindleStop_moves ..).after (by decide) ?_
    | with_reducible refine (State.modSpn_moves ..).after (by decide) ?_
    | with_reducible refine (Moves.fold _ _ _ ?_).behind ?_
    | intro _
    | split
    | ((conv => arg 3; with_reducible whnf); split))

theorem State.settleShutdown_moves (s : State) (x1 : Fn) :
    Moves [.slice, .lane, .pool, .lpe, .trc, .spn, .host, .q, .pwr, .evr, .nor, .rst, .reel, .links, .recv, .engSrv, .seq, .rd, .det, .wr, .headSrv, .map, .freq] s (State.settleShutdown s x1) := by
  unfold State.settleShutdown
  repeat' (first
    | with_reducible exact Moves.refl _ _
    | with_reducible assumption
    | extract_lets
    | with_reducible refine Moves.ite ?_ ?_
    | with_reducible refine (State.modFn_moves ..).after (by decide) ?_
    | with_reducible refine (State.shutdownUnload_moves ..).after (by decide) ?_
    | with_reducible refine (Moves.fold _ _ _ ?_).behind ?_
    | intro _
    | split
    | ((conv => arg 3; with_reducible whnf); split))

theorem State.settleReset_moves (s : State) :
    Moves [.trc, .evr, .nor, .rst, .reel, .links, .engSrv, .seq, .wr, .headSrv] s (State.settleReset s) := by
  unfold State.settleReset
  repeat' (first
    | with_reducible exact Moves.refl _ _
    | with_reducible assumption
    | extract_lets
    | with_reducible refine Moves.ite ?_ ?_
    | with_reducible refine (State.controlledUnload_moves ..).after (by decide) ?_
    | with_reducible refine (Moves.fold _ _ _ ?_).behind ?_
    | intro _
    | split
    | ((conv => arg 3; with_reducible whnf); split))

theorem State.settleOpal_moves (s : State) :
    Moves [.sec, .out] s (State.settleOpal s) := by
  unfold State.settleOpal
  repeat' (first
    | with_reducible exact Moves.refl _ _
    | with_reducible assumption
    | extract_lets
    | with_reducible refine Moves.ite ?_ ?_
    | with_reducible refine (State.modSec_moves ..).after (by decide) ?_
    | with_reducible refine (State.modOut_moves ..).after (by decide) ?_
    | with_reducible refine (Moves.fold _ _ _ ?_).behind ?_
    | intro _
    | split
    | ((conv => arg 3; with_reducible whnf); split))

theorem State.settleWrites_moves (s : State) :
    Moves [.slice, .lane, .pool, .lpe, .trc, .spn, .host, .q, .pwr, .sec, .evr, .nor, .rst, .out, .reel, .links, .recv, .engSrv, .seq, .rd, .det, .wr, .headSrv, .map, .freq] s (State.settleWrites s) := by
  unfold State.settleWrites
  repeat' (first
    | with_reducible exact Moves.refl _ _
    | with_reducible assumption
    | extract_lets
    | with_reducible refine Moves.ite ?_ ?_
    | with_reducible refine (State.settleShutdown_moves ..).after (by decide) ?_
    | with_reducible refine (State.settleFlushes_moves ..).after (by decide) ?_
    | with_reducible refine (State.settleReset_moves ..).after (by decide) ?_
    | with_reducible refine (State.settleOpal_moves ..).after (by decide) ?_
    | with_reducible refine (Moves.fold _ _ _ ?_).behind ?_
    | intro _
    | split
    | ((conv => arg 3; with_reducible whnf); split))

theorem State.unstage_moves (s : State) (x1 : WriteView) :
    Moves [.q] s (State.unstage s x1) := by
  unfold State.unstage
  repeat' (first
    | with_reducible exact Moves.refl _ _
    | with_reducible assumption
    | extract_lets
    | with_reducible refine Moves.ite ?_ ?_
    | with_reducible refine (State.modView_moves ..).after (by decide) ?_
    | with_reducible refine (State.modQ_moves ..).after (by decide) ?_
    | with_reducible refine (Moves.fold _ _ _ ?_).behind ?_
    | intro _
    | split
    | ((conv => arg 3; with_reducible whnf); split))

theorem execWriteDurable_moves (x0 : CtxIx) (s : State) {t : State} (h : (execWriteDurable x0 s) = .next t) :
    Moves [.slice, .lane, .pool, .lpe, .trc, .spn, .host, .q, .pwr, .sec, .evr, .nor, .rst, .out, .reel, .links, .recv, .engSrv, .seq, .rd, .det, .wr, .headSrv, .map, .freq] s t := by
  unfold execWriteDurable at h
  repeat' (first | contradiction | (injection h with h; subst h) | split at h)
  all_goals (repeat' (first
    | with_reducible exact Moves.refl _ _
    | with_reducible assumption
    | extract_lets
    | with_reducible refine Moves.ite ?_ ?_
    | with_reducible refine (State.unstage_moves ..).after (by decide) ?_
    | with_reducible refine (State.modCtx_moves ..).after (by decide) ?_
    | with_reducible refine (State.settleWrites_moves ..).after (by decide) ?_
    | with_reducible refine (State.modQ_moves ..).after (by decide) ?_
    | with_reducible refine (Moves.fold _ _ _ ?_).behind ?_
    | intro _
    | split
    | ((conv => arg 3; with_reducible whnf); split)))

theorem execFlush_moves (x0 : CtxIx) (s : State) {t : State} (h : (execFlush x0 s) = .next t) :
    Moves [.q] s t := by
  unfold execFlush at h
  repeat' (first | contradiction | (injection h with h; subst h) | split at h)
  all_goals (repeat' (first
    | with_reducible exact Moves.refl _ _
    | with_reducible assumption
    | extract_lets
    | with_reducible refine Moves.ite ?_ ?_
    | with_reducible refine (State.settleFlushes_moves ..).after (by decide) ?_
    | with_reducible refine (Moves.fold _ _ _ ?_).behind ?_
    | intro _
    | split
    | ((conv => arg 3; with_reducible whnf); split)))

theorem State.endContracts_moves (s : State) (x1 : Contract → Bool) :
    Moves [.trc, .q, .evr] s (State.endContracts s x1) := by
  unfold State.endContracts
  repeat' (first
    | with_reducible exact Moves.refl _ _
    | with_reducible assumption
    | extract_lets
    | with_reducible refine Moves.ite ?_ ?_
    | with_reducible refine (State.condition_moves ..).after (by decide) ?_
    | with_reducible refine (State.modQ_moves ..).after (by decide) ?_
    | with_reducible refine (Moves.fold _ _ _ ?_).behind ?_
    | intro _
    | split
    | ((conv => arg 3; with_reducible whnf); split))

theorem State.settleDeletes_moves (s : State) (x1 : Fn) :
    Moves [.trc, .host, .q, .evr, .out] s (State.settleDeletes s x1) := by
  unfold State.settleDeletes
  repeat' (first
    | with_reducible exact Moves.refl _ _
    | with_reducible assumption
    | extract_lets
    | with_reducible refine Moves.ite ?_ ?_
    | with_reducible refine (State.endContracts_moves ..).after (by decide) ?_
    | with_reducible refine (State.postAdmin_moves ..).after (by decide) ?_
    | with_reducible refine (State.modFn_moves ..).after (by decide) ?_
    | with_reducible refine (Moves.fold _ _ _ ?_).behind ?_
    | intro _
    | split
    | ((conv => arg 3; with_reducible whnf); split))

theorem State.postCtx_moves (s : State) (x1 : CtxIx) (x2 : Ctx) (x3 : NvStatus) :
    Moves [.slice, .lane, .pool, .lpe, .trc, .spn, .host, .q, .pwr, .evr, .nor, .rst, .out, .reel, .links, .recv, .engSrv, .seq, .rd, .det, .wr, .headSrv, .map, .freq] s (State.postCtx s x1 x2 x3) := by
  unfold State.postCtx
  repeat' (first
    | with_reducible exact Moves.refl _ _
    | with_reducible assumption
    | extract_lets
    | with_reducible refine Moves.ite ?_ ?_
    | with_reducible refine (State.logError_moves ..).after (by decide) ?_
    | with_reducible refine (State.post_moves ..).after (by decide) ?_
    | with_reducible refine (State.modQ_moves ..).after (by decide) ?_
    | with_reducible refine (State.settleDeletes_moves ..).after (by decide) ?_
    | with_reducible refine (State.settleShutdown_moves ..).after (by decide) ?_
    | with_reducible refine (State.settleReset_moves ..).after (by decide) ?_
    | with_reducible refine (Moves.fold _ _ _ ?_).behind ?_
    | intro _
    | split
    | ((conv => arg 3; with_reducible whnf); split))

theorem execCompletionPost_moves (x0 : CtxIx) (s : State) {t : State} (h : (execCompletionPost x0 s) = .next t) :
    Moves [.slice, .lane, .pool, .lpe, .trc, .spn, .host, .q, .pwr, .evr, .nor, .rst, .out, .reel, .links, .recv, .engSrv, .seq, .rd, .det, .wr, .headSrv, .map, .freq] s t := by
  unfold execCompletionPost at h
  repeat' (first | contradiction | (injection h with h; subst h) | split at h)
  all_goals (repeat' (first
    | with_reducible exact Moves.refl _ _
    | with_reducible assumption
    | extract_lets
    | with_reducible refine Moves.ite ?_ ?_
    | with_reducible refine (State.modCtx_moves ..).after (by decide) ?_
    | with_reducible refine (State.modQ_moves ..).after (by decide) ?_
    | with_reducible refine (State.postCtx_moves ..).after (by decide) ?_
    | with_reducible refine (Moves.fold _ _ _ ?_).behind ?_
    | intro _
    | split
    | ((conv => arg 3; with_reducible whnf); split)))

end Sys2Proof.Machine
end

