-- ==== Sys2Proof/Laws/MovesSched.lean ====
section
/-! SUPPORT. What each operation and each command of Machine/Sched.lean can touch. -/

namespace Sys2Proof.Machine
open Sys2Proof
set_option linter.all false
set_option Elab.async false

theorem State.placeConv_moves (s : State) (x1 : Eng) :
    Moves [.free, .trc, .media, .host, .q, .evr, .nor, .out, .zdc] s (State.placeConv s x1) := by
  unfold State.placeConv
  refine Moves.fold _ _ _ fun s b => ?_
  extract_lets c
  refine Moves.ite (Moves.fold _ _ _ fun s k => ?_) (.refl _ s)
  refine Moves.ite (.refl _ s) ?_
  split
  · rename_i h; exact State.appendBlock_moves _ _ _ _ _ h
  · exact .refl _ s

theorem State.placeBuffered_moves (s : State) (x1 : Eng) :
    Moves [.free, .trc, .media, .host, .q, .evr, .nor, .out, .zdc] s (State.placeBuffered s x1) := by
  unfold State.placeBuffered
  refine Moves.fold _ _ _ fun s b => ?_
  refine Moves.ite (Moves.fold _ _ _ fun s k => ?_) (.refl _ s)
  refine Moves.ite (.refl _ s) ?_
  split
  · rename_i h; exact State.appendBlock_moves _ _ _ _ _ h
  · exact .refl _ s

theorem State.deferCmd_moves (s : State) (x1 : CtxIx) (x2 : ℕ) :
    Moves [.q] s (State.deferCmd s x1 x2) := by
  unfold State.deferCmd
  repeat' (first
    | with_reducible exact Moves.refl _ _
    | with_reducible assumption
    | extract_lets
    | with_reducible refine Moves.ite ?_ ?_
    | with_reducible refine (State.modCtx_moves ..).after (by decide) ?_
    | with_reducible refine (State.modQ_moves ..).after (by decide) ?_
    | with_reducible refine (Moves.fold _ _ _ ?_).behind ?_
    | intro _
    | split
    | ((conv => arg 3; with_reducible whnf); split))

theorem State.noteDeferral_moves (s : State) (x1 : List Item) (x2 : List Item) :
    Moves [.q] s (State.noteDeferral s x1 x2) := by
  unfold State.noteDeferral
  repeat' (first
    | with_reducible exact Moves.refl _ _
    | with_reducible assumption
    | extract_lets
    | with_reducible refine Moves.ite ?_ ?_
    | with_reducible refine (State.deferCmd_moves ..).after (by decide) ?_
    | with_reducible refine (Moves.fold _ _ _ ?_).behind ?_
    | intro _
    | split
    | ((conv => arg 3; with_reducible whnf); split))

theorem execSchedulerDecision_moves (x0 : Eng) (s : State) {t : State} (h : (execSchedulerDecision x0 s) = .next t) :
    Moves [.free, .pool, .trc, .media, .host, .q, .evr, .nor, .out, .engSrv, .zdc, .headSrv] s t := by
  unfold execSchedulerDecision at h
  injection h with h; subst h
  refine Moves.ite ?_ (.refl _ s)
  extract_lets s1 all ok
  have h1 : Moves [.free, .pool, .trc, .media, .host, .q, .evr, .nor, .out, .engSrv, .zdc, .headSrv] s s1 := by
    with_reducible refine (State.placeBuffered_moves ..).after (by decide) ?_
    exact (State.placeConv_moves ..).widen (by decide)
  have h2 : ∀ (l : List Item) (acc : State × List Item), Moves [.free, .pool, .trc, .media, .host, .q, .evr, .nor, .out, .engSrv, .zdc, .headSrv] s acc.1 → Moves [.free, .pool, .trc, .media, .host, .q, .evr, .nor, .out, .engSrv, .zdc, .headSrv] s (l.foldl (fun (acc : State × List Item) i =>
        let (s, l) := acc
        if l.any fun t => t.head == i.head then acc
        else if s.activationFits i.head (i.at_.track * 256) then (s.activate i.head (i.at_.track * 256), l ++ [i])
        else acc) acc).1 := by
    intro l
    induction l with
    | nil => exact fun _ h => h
    | cons i l ih =>
      intro acc h
      refine ih _ ?_
      obtain ⟨s2, l2⟩ := acc
      dsimp only
      split
      · exact h
      · split
        · with_reducible refine (State.activate_moves ..).after (by decide) ?_
          exact h
        · exact h
  have h3 := h2 ok (s1, []) h1
  revert h3
  generalize List.foldl _ (s1, ([] : List Item)) ok = r
  obtain ⟨s2, taken⟩ := r
  intro h3
  dsimp only
  with_reducible refine (State.noteDeferral_moves ..).after (by decide) ?_
  with_reducible refine (State.modQ_moves ..).after (by decide) ?_
  exact h3

theorem execContractDue_moves (x0 : CtxIx) (s : State) {t : State} (h : (execContractDue x0 s) = .next t) :
    Moves [.q] s t := by
  unfold execContractDue at h
  repeat' (first | contradiction | (injection h with h; subst h) | split at h)
  all_goals (repeat' (first
    | with_reducible exact Moves.refl _ _
    | with_reducible assumption
    | extract_lets
    | with_reducible refine Moves.ite ?_ ?_
    | with_reducible refine (State.modCtx_moves ..).after (by decide) ?_
    | with_reducible refine (Moves.fold _ _ _ ?_).behind ?_
    | intro _
    | split
    | ((conv => arg 3; with_reducible whnf); split)))

theorem State.contractYields_moves (s : State) (x1 : ℕ) (x2 : Contract) (x3 : Option ℕ) :
    Moves [.trc, .host, .q, .evr, .out] s (State.contractYields s x1 x2 x3) := by
  unfold State.contractYields
  repeat' (first
    | with_reducible exact Moves.refl _ _
    | with_reducible assumption
    | extract_lets
    | with_reducible refine Moves.ite ?_ ?_
    | with_reducible refine (State.vendorEvent_moves ..).after (by decide) ?_
    | with_reducible refine (State.saturated_moves ..).after (by decide) ?_
    | with_reducible refine (State.record_moves ..).after (by decide) ?_
    | with_reducible refine (State.modQ_moves ..).after (by decide) ?_
    | with_reducible refine (Moves.fold _ _ _ ?_).behind ?_
    | intro _
    | split
    | ((conv => arg 3; with_reducible whnf); split))

theorem State.modContract_moves (s : State) (x1 : ℕ) (x2 : Contract → Contract) :
    Moves [.q] s (State.modContract s x1 x2) := by
  unfold State.modContract
  repeat' (first
    | with_reducible exact Moves.refl _ _
    | with_reducible assumption
    | extract_lets
    | with_reducible refine Moves.ite ?_ ?_
    | with_reducible refine (State.modQ_moves ..).after (by decide) ?_
    | with_reducible refine (Moves.fold _ _ _ ?_).behind ?_
    | intro _
    | split
    | ((conv => arg 3; with_reducible whnf); split))

theorem execLatencyDeadlineMiss_moves (x0 : CtxIx) (s : State) {t : State} (h : (execLatencyDeadlineMiss x0 s) = .next t) :
    Moves [.trc, .host, .q, .evr, .out] s t := by
  unfold execLatencyDeadlineMiss at h
  repeat' (first | contradiction | (injection h with h; subst h) | split at h)
  all_goals (repeat' (first
    | with_reducible exact Moves.refl _ _
    | with_reducible assumption
    | extract_lets
    | with_reducible refine Moves.ite ?_ ?_
    | with_reducible refine (State.modContract_moves ..).after (by decide) ?_
    | with_reducible refine (State.contractYields_moves ..).after (by decide) ?_
    | with_reducible refine (State.modCtx_moves ..).after (by decide) ?_
    | with_reducible refine (Moves.fold _ _ _ ?_).behind ?_
    | intro _
    | split
    | ((conv => arg 3; with_reducible whnf); split)))

theorem execFloorWindowEnd_moves (x0 : ContractIx) (s : State) {t : State} (h : (execFloorWindowEnd x0 s) = .next t) :
    Moves [.trc, .host, .q, .evr, .out] s t := by
  unfold execFloorWindowEnd at h
  repeat' (first | contradiction | (injection h with h; subst h) | split at h)
  all_goals (repeat' (first
    | with_reducible exact Moves.refl _ _
    | with_reducible assumption
    | extract_lets
    | with_reducible refine Moves.ite ?_ ?_
    | with_reducible refine (State.modContract_moves ..).after (by decide) ?_
    | with_reducible refine (State.contractYields_moves ..).after (by decide) ?_
    | with_reducible refine (Moves.fold _ _ _ ?_).behind ?_
    | intro _
    | split
    | ((conv => arg 3; with_reducible whnf); split)))

theorem execQueueStatus_moves (x0 : Packet) (s : State) {t : State} (h : (execQueueStatus x0 s) = .next t) :
    Moves [.trc, .host, .het, .evr, .out] s t := by
  unfold execQueueStatus at h
  repeat' (first | contradiction | (injection h with h; subst h) | split at h)
  all_goals (repeat' (first
    | with_reducible exact Moves.refl _ _
    | with_reducible assumption
    | extract_lets
    | with_reducible refine Moves.ite ?_ ?_
    | with_reducible refine Moves.itePkt ?_ ?_
    | with_reducible refine runPacket_moves (by decide) (fun s => ?_)
    | with_reducible refine (PktRes.report_moves ..).after (by decide) ?_
    | with_reducible refine (Moves.fold _ _ _ ?_).behind ?_
    | intro _
    | split
    | ((conv => arg 3; with_reducible whnf); split)))

theorem opQueueConfig_moves (x0 : Packet) (s : State) :
    Moves [.q, .nor] s (opQueueConfig x0 s).state := by
  unfold opQueueConfig
  repeat' (first
    | with_reducible exact Moves.refl _ _
    | with_reducible assumption
    | extract_lets
    | with_reducible refine Moves.ite ?_ ?_
    | with_reducible refine Moves.itePkt ?_ ?_
    | with_reducible refine (State.modQ_moves ..).after (by decide) ?_
    | with_reducible refine (State.modNor_moves _ _ (by intro n; repeat' (first | rfl | extract_lets | split))).after (by decide) ?_
    | with_reducible refine (Moves.fold _ _ _ ?_).behind ?_
    | intro _
    | split
    | ((conv => arg 3; with_reducible whnf); split))

theorem execQueueConfig_moves (x0 : Packet) (s : State) {t : State} (h : (execQueueConfig x0 s) = .next t) :
    Moves [.trc, .host, .q, .het, .evr, .nor, .out] s t := by
  unfold execQueueConfig at h
  repeat' (first | contradiction | (injection h with h; subst h) | split at h)
  all_goals (repeat' (first
    | with_reducible exact Moves.refl _ _
    | with_reducible assumption
    | extract_lets
    | with_reducible refine Moves.ite ?_ ?_
    | with_reducible refine Moves.itePkt ?_ ?_
    | with_reducible refine (opQueueConfig_moves ..).after (by decide) ?_
    | with_reducible refine runPacket_moves (by decide) (fun s => ?_)
    | with_reducible refine (Moves.fold _ _ _ ?_).behind ?_
    | intro _
    | split
    | ((conv => arg 3; with_reducible whnf); split)))

theorem execQueueFunction_moves (x0 : Packet) (s : State) {t : State} (h : (execQueueFunction x0 s) = .next t) :
    Moves [.trc, .host, .het, .evr, .out] s t := by
  unfold execQueueFunction at h
  repeat' (first | contradiction | (injection h with h; subst h) | split at h)
  all_goals (repeat' (first
    | with_reducible exact Moves.refl _ _
    | with_reducible assumption
    | extract_lets
    | with_reducible refine Moves.ite ?_ ?_
    | with_reducible refine Moves.itePkt ?_ ?_
    | with_reducible refine runPacket_moves (by decide) (fun s => ?_)
    | with_reducible refine (PktRes.report_moves ..).after (by decide) ?_
    | with_reducible refine (Moves.fold _ _ _ ?_).behind ?_
    | intro _
    | split
    | ((conv => arg 3; with_reducible whnf); split)))

theorem opQosAdmit_moves (x0 : Packet) (s : State) :
    Moves [.q] s (opQosAdmit x0 s).state := by
  unfold opQosAdmit
  repeat' (first
    | with_reducible exact Moves.refl _ _
    | with_reducible assumption
    | extract_lets
    | with_reducible refine Moves.ite ?_ ?_
    | with_reducible refine Moves.itePkt ?_ ?_
    | with_reducible refine (PktRes.fail_moves ..).after (by decide) ?_
    | with_reducible refine (State.modQ_moves ..).after (by decide) ?_
    | with_reducible refine (Moves.fold _ _ _ ?_).behind ?_
    | intro _
    | split
    | ((conv => arg 3; with_reducible whnf); split))

theorem execQosAdmit_moves (x0 : Packet) (s : State) {t : State} (h : (execQosAdmit x0 s) = .next t) :
    Moves [.trc, .host, .q, .het, .evr, .out] s t := by
  unfold execQosAdmit at h
  repeat' (first | contradiction | (injection h with h; subst h) | split at h)
  all_goals (repeat' (first
    | with_reducible exact Moves.refl _ _
    | with_reducible assumption
    | extract_lets
    | with_reducible refine Moves.ite ?_ ?_
    | with_reducible refine Moves.itePkt ?_ ?_
    | with_reducible refine (opQosAdmit_moves ..).after (by decide) ?_
    | with_reducible refine runPacket_moves (by decide) (fun s => ?_)
    | with_reducible refine (Moves.fold _ _ _ ?_).behind ?_
    | intro _
    | split
    | ((conv => arg 3; with_reducible whnf); split)))

theorem opQosRevoke_moves (x0 : Packet) (s : State) :
    Moves [.trc, .q, .evr] s (opQosRevoke x0 s).state := by
  unfold opQosRevoke
  repeat' (first
    | with_reducible exact Moves.refl _ _
    | with_reducible assumption
    | extract_lets
    | with_reducible refine Moves.ite ?_ ?_
    | with_reducible refine Moves.itePkt ?_ ?_
    | with_reducible refine (State.endContracts_moves ..).after (by decide) ?_
    | with_reducible refine (PktRes.fail_moves ..).after (by decide) ?_
    | with_reducible refine (Moves.fold _ _ _ ?_).behind ?_
    | intro _
    | split
    | ((conv => arg 3; with_reducible whnf); split))

theorem execQosRevoke_moves (x0 : Packet) (s : State) {t : State} (h : (execQosRevoke x0 s) = .next t) :
    Moves [.trc, .host, .q, .het, .evr, .out] s t := by
  unfold execQosRevoke at h
  repeat' (first | contradiction | (injection h with h; subst h) | split at h)
  all_goals (repeat' (first
    | with_reducible exact Moves.refl _ _
    | with_reducible assumption
    | extract_lets
    | with_reducible refine Moves.ite ?_ ?_
    | with_reducible refine Moves.itePkt ?_ ?_
    | with_reducible refine (opQosRevoke_moves ..).after (by decide) ?_
    | with_reducible refine runPacket_moves (by decide) (fun s => ?_)
    | with_reducible refine (Moves.fold _ _ _ ?_).behind ?_
    | intro _
    | split
    | ((conv => arg 3; with_reducible whnf); split)))

theorem opQosStatus_moves (x0 : Packet) (s : State) :
    Moves [] s (opQosStatus x0 s).state := by
  unfold opQosStatus
  repeat' (first
    | with_reducible exact Moves.refl _ _
    | with_reducible assumption
    | extract_lets
    | with_reducible refine Moves.ite ?_ ?_
    | with_reducible refine Moves.itePkt ?_ ?_
    | with_reducible refine (PktRes.fail_moves ..).after (by decide) ?_
    | with_reducible refine (Moves.fold _ _ _ ?_).behind ?_
    | intro _
    | split
    | ((conv => arg 3; with_reducible whnf); split))

theorem execQosStatus_moves (x0 : Packet) (s : State) {t : State} (h : (execQosStatus x0 s) = .next t) :
    Moves [.trc, .host, .het, .evr, .out] s t := by
  unfold execQosStatus at h
  repeat' (first | contradiction | (injection h with h; subst h) | split at h)
  all_goals (repeat' (first
    | with_reducible exact Moves.refl _ _
    | with_reducible assumption
    | extract_lets
    | with_reducible refine Moves.ite ?_ ?_
    | with_reducible refine Moves.itePkt ?_ ?_
    | with_reducible refine (opQosStatus_moves ..).after (by decide) ?_
    | with_reducible refine runPacket_moves (by decide) (fun s => ?_)
    | with_reducible refine (Moves.fold _ _ _ ?_).behind ?_
    | intro _
    | split
    | ((conv => arg 3; with_reducible whnf); split)))

theorem opQueueClear_moves (x0 : Packet) (s : State) :
    Moves [.q] s (opQueueClear x0 s).state := by
  unfold opQueueClear
  repeat' (first
    | with_reducible exact Moves.refl _ _
    | with_reducible assumption
    | extract_lets
    | with_reducible refine Moves.ite ?_ ?_
    | with_reducible refine Moves.itePkt ?_ ?_
    | with_reducible refine (State.modContract_moves ..).after (by decide) ?_
    | with_reducible refine (State.modQ_moves ..).after (by decide) ?_
    | with_reducible refine (Moves.fold _ _ _ ?_).behind ?_
    | intro _
    | split
    | ((conv => arg 3; with_reducible whnf); split))

theorem execQueueClear_moves (x0 : Packet) (s : State) {t : State} (h : (execQueueClear x0 s) = .next t) :
    Moves [.trc, .host, .q, .het, .evr, .out] s t := by
  unfold execQueueClear at h
  repeat' (first | contradiction | (injection h with h; subst h) | split at h)
  all_goals (repeat' (first
    | with_reducible exact Moves.refl _ _
    | with_reducible assumption
    | extract_lets
    | with_reducible refine Moves.ite ?_ ?_
    | with_reducible refine Moves.itePkt ?_ ?_
    | with_reducible refine (opQueueClear_moves ..).after (by decide) ?_
    | with_reducible refine runPacket_moves (by decide) (fun s => ?_)
    | with_reducible refine (Moves.fold _ _ _ ?_).behind ?_
    | intro _
    | split
    | ((conv => arg 3; with_reducible whnf); split)))

end Sys2Proof.Machine
end

