-- ==== Sys2Proof/Laws/MovesCores.lean ====
section
/-! SUPPORT. What each operation and each command of Machine/Cores.lean can touch. -/

namespace Sys2Proof.Machine
open Sys2Proof
set_option linter.all false
set_option Elab.async false

theorem State.lockstep_moves (s : State) (x1 : Eng) :
    Moves [.free, .slice, .lane, .pool, .trc, .media, .host, .q, .het, .sec, .evr, .nor, .rst, .out, .links, .recv, .engSrv, .seq, .zdc, .core, .det, .wr, .headSrv] s (State.lockstep s x1) := by
  unfold State.lockstep
  repeat' (first
    | with_reducible exact Moves.refl _ _
    | with_reducible assumption
    | extract_lets
    | with_reducible refine Moves.ite ?_ ?_
    | with_reducible refine (State.forceWritesOff_moves ..).after (by decide) ?_
    | with_reducible refine (State.modCore_moves ..).after (by decide) ?_
    | with_reducible refine (State.engineFail_moves ..).after (by decide) ?_
    | with_reducible refine (Moves.fold _ _ _ ?_).behind ?_
    | intro _
    | split
    | ((conv => arg 3; with_reducible whnf); split))

theorem execLockstepMismatch_moves (x0 : Eng) (s : State) {t : State} (h : (execLockstepMismatch x0 s) = .next t) :
    Moves [.free, .slice, .lane, .pool, .trc, .media, .host, .q, .het, .sec, .evr, .nor, .rst, .out, .links, .recv, .engSrv, .seq, .zdc, .core, .det, .wr, .headSrv] s t := by
  unfold execLockstepMismatch at h
  repeat' (first | contradiction | (injection h with h; subst h) | split at h)
  all_goals (repeat' (first
    | with_reducible exact Moves.refl _ _
    | with_reducible assumption
    | extract_lets
    | with_reducible refine Moves.ite ?_ ?_
    | with_reducible refine (State.lockstep_moves ..).after (by decide) ?_
    | with_reducible refine (Moves.fold _ _ _ ?_).behind ?_
    | intro _
    | split
    | ((conv => arg 3; with_reducible whnf); split)))

theorem State.mgmtReset_moves (s : State) (x1 : Fin 4) :
    Moves [.trc, .evr] s (State.mgmtReset s x1) := by
  unfold State.mgmtReset
  repeat' (first
    | with_reducible exact Moves.refl _ _
    | with_reducible assumption
    | extract_lets
    | with_reducible refine Moves.ite ?_ ?_
    | with_reducible refine (State.condMod_moves ..).after (by decide) ?_
    | with_reducible refine (Moves.fold _ _ _ ?_).behind ?_
    | intro _
    | split
    | ((conv => arg 3; with_reducible whnf); split))

theorem execMgmtWatchdogExpiry_moves (x0 : Fin 4) (s : State) {t : State} (h : (execMgmtWatchdogExpiry x0 s) = .next t) :
    Moves [.trc, .evr] s t := by
  unfold execMgmtWatchdogExpiry at h
  repeat' (first | contradiction | (injection h with h; subst h) | split at h)
  all_goals (repeat' (first
    | with_reducible exact Moves.refl _ _
    | with_reducible assumption
    | extract_lets
    | with_reducible refine Moves.ite ?_ ?_
    | with_reducible refine (State.mgmtReset_moves ..).after (by decide) ?_
    | with_reducible refine (Moves.fold _ _ _ ?_).behind ?_
    | intro _
    | split
    | ((conv => arg 3; with_reducible whnf); split)))

end Sys2Proof.Machine
end

