-- ==== Sys2Proof/Laws/MovesMemory.lean ====
section
/-! SUPPORT. What each operation and each command of Machine/Memory.lean can touch. -/

namespace Sys2Proof.Machine
open Sys2Proof
set_option linter.all false
set_option Elab.async false

theorem State.modChan_moves (s : State) (x1 : Fin 2) (x2 : Channel → Channel) :
    Moves [.mem] s (State.modChan s x1 x2) := by
  unfold State.modChan
  repeat' (first
    | with_reducible exact Moves.refl _ _
    | with_reducible assumption
    | extract_lets
    | with_reducible refine Moves.ite ?_ ?_
    | with_reducible refine (State.modMem_moves _ _ (by intro n; repeat' (first | rfl | extract_lets | split)) (by intro n; repeat' (first | rfl | extract_lets | split))).after (by decide) ?_
    | with_reducible refine (Moves.fold _ _ _ ?_).behind ?_
    | intro _
    | split
    | ((conv => arg 3; with_reducible whnf); split))

theorem State.putWord_moves (s : State) (w : Nat) (v : EccWord) (full : Bool) :
    Moves [.mem] s (s.putWord w v full) := by
  unfold State.putWord
  extract_lets key s1
  have h1 : Moves [.mem] s s1 := by
    refine Moves.widen (m := [.mem]) (State.modMem_wf _ _ (fun m h => ?_) (fun m h => h)) (by decide)
    exact Memory.wf_write _ _ _ h
  exact h1.trans (Moves.widen (m := [.mem]) (State.modChan_moves ..) (by decide))

theorem State.modBkt_moves (s : State) (x1 : MemRegion) (x2 : Bucket → Bucket) :
    Moves [.mem] s (State.modBkt s x1 x2) := by
  unfold State.modBkt
  repeat' (first
    | with_reducible exact Moves.refl _ _
    | with_reducible assumption
    | extract_lets
    | with_reducible refine Moves.ite ?_ ?_
    | with_reducible refine (State.modMem_moves _ _ (by intro n; repeat' (first | rfl | extract_lets | split)) (by intro n; repeat' (first | rfl | extract_lets | split))).after (by decide) ?_
    | with_reducible refine (Moves.fold _ _ _ ?_).behind ?_
    | intro _
    | split
    | ((conv => arg 3; with_reducible whnf); split))

theorem State.fillBucket_moves (s : State) (x1 : MemRegion) (x2 : ℕ) :
    Moves [.trc, .mem, .evr] s (State.fillBucket s x1 x2) := by
  unfold State.fillBucket
  repeat' (first
    | with_reducible exact Moves.refl _ _
    | with_reducible assumption
    | extract_lets
    | with_reducible refine Moves.ite ?_ ?_
    | with_reducible refine (State.modBkt_moves ..).after (by decide) ?_
    | with_reducible refine (State.condMem_moves ..).after (by decide) ?_
    | with_reducible refine (State.modMem_moves _ _ (by intro n; repeat' (first | rfl | extract_lets | split)) (by intro n; repeat' (first | rfl | extract_lets | split))).after (by decide) ?_
    | with_reducible refine (Moves.fold _ _ _ ?_).behind ?_
    | intro _
    | split
    | ((conv => arg 3; with_reducible whnf); split))

theorem State.countCe_moves (s : State) (x1 : MemRegion) (x2 : EccLog) :
    Moves [.trc, .mem, .evr] s (State.countCe s x1 x2) := by
  unfold State.countCe
  repeat' (first
    | with_reducible exact Moves.refl _ _
    | with_reducible assumption
    | extract_lets
    | with_reducible refine Moves.ite ?_ ?_
    | with_reducible refine (State.fillBucket_moves ..).after (by decide) ?_
    | with_reducible refine (State.modBkt_moves ..).after (by decide) ?_
    | with_reducible refine (State.modMem_moves _ _ (by intro n; repeat' (first | rfl | extract_lets | split)) (by intro n; repeat' (first | rfl | extract_lets | split))).after (by decide) ?_
    | with_reducible refine (Moves.fold _ _ _ ?_).behind ?_
    | intro _
    | split
    | ((conv => arg 3; with_reducible whnf); split))

theorem State.countUe_moves (s : State) (x1 : MemRegion) (x2 : EccLog) (x3 : Bool) :
    Moves [.trc, .mem, .evr] s (State.countUe s x1 x2 x3) := by
  unfold State.countUe
  repeat' (first
    | with_reducible exact Moves.refl _ _
    | with_reducible assumption
    | extract_lets
    | with_reducible refine Moves.ite ?_ ?_
    | with_reducible refine (State.modBkt_moves ..).after (by decide) ?_
    | with_reducible refine (State.saturated_moves ..).after (by decide) ?_
    | with_reducible refine (State.condMem_moves ..).after (by decide) ?_
    | with_reducible refine (State.modMem_moves _ _ (by intro n; repeat' (first | rfl | extract_lets | split)) (by intro n; repeat' (first | rfl | extract_lets | split))).after (by decide) ?_
    | with_reducible refine (Moves.fold _ _ _ ?_).behind ?_
    | intro _
    | split
    | ((conv => arg 3; with_reducible whnf); split))

theorem State.markRow_moves (s : State) (x1 : Fin 2) (x2 : ℕ) (x3 : List ℕ) :
    Moves [.mem] s (State.markRow s x1 x2 x3) := by
  unfold State.markRow
  repeat' (first
    | with_reducible exact Moves.refl _ _
    | with_reducible assumption
    | extract_lets
    | with_reducible refine Moves.ite ?_ ?_
    | with_reducible refine (State.modChan_moves ..).after (by decide) ?_
    | with_reducible refine (State.modMem_moves _ _ (by intro n; repeat' (first | rfl | extract_lets | split)) (by intro n; repeat' (first | rfl | extract_lets | split))).after (by decide) ?_
    | with_reducible refine (Moves.fold _ _ _ ?_).behind ?_
    | intro _
    | split
    | ((conv => arg 3; with_reducible whnf); split))

theorem State.markSram_moves (s : State) (x1 : ℕ) :
    Moves [.trc, .mem, .evr, .nor] s (State.markSram s x1) := by
  unfold State.markSram
  repeat' (first
    | with_reducible exact Moves.refl _ _
    | with_reducible assumption
    | extract_lets
    | with_reducible refine Moves.ite ?_ ?_
    | with_reducible refine (State.condMem_moves ..).after (by decide) ?_
    | with_reducible refine (State.modNor_moves _ _ (by intro n; repeat' (first | rfl | extract_lets | split))).after (by decide) ?_
    | with_reducible refine (State.modMem_moves _ _ (by intro n; repeat' (first | rfl | extract_lets | split)) (by intro n; repeat' (first | rfl | extract_lets | split))).after (by decide) ?_
    | with_reducible refine (Moves.fold _ _ _ ?_).behind ?_
    | intro _
    | split
    | ((conv => arg 3; with_reducible whnf); split))

theorem State.hardCe_moves (s : State) (x1 : ℕ × ℕ) (x2 : Byte) :
    Moves [.trc, .mem, .evr, .nor] s (State.hardCe s x1 x2) := by
  unfold State.hardCe
  repeat' (first
    | with_reducible exact Moves.refl _ _
    | with_reducible assumption
    | extract_lets
    | with_reducible refine Moves.ite ?_ ?_
    | with_reducible refine (State.markSram_moves ..).after (by decide) ?_
    | with_reducible refine (State.markRow_moves ..).after (by decide) ?_
    | with_reducible refine (State.modMem_moves _ _ (by intro n; repeat' (first | rfl | extract_lets | split)) (by intro n; repeat' (first | rfl | extract_lets | split))).after (by decide) ?_
    | with_reducible refine (Moves.fold _ _ _ ?_).behind ?_
    | intro _
    | split
    | ((conv => arg 3; with_reducible whnf); split))

theorem State.hardUe_moves (s : State) (x1 : ℕ × ℕ) :
    Moves [.trc, .mem, .evr, .nor] s (State.hardUe s x1) := by
  unfold State.hardUe
  repeat' (first
    | with_reducible exact Moves.refl _ _
    | with_reducible assumption
    | extract_lets
    | with_reducible refine Moves.ite ?_ ?_
    | with_reducible refine (State.markSram_moves ..).after (by decide) ?_
    | with_reducible refine (State.markRow_moves ..).after (by decide) ?_
    | with_reducible refine (State.modMem_moves _ _ (by intro n; repeat' (first | rfl | extract_lets | split)) (by intro n; repeat' (first | rfl | extract_lets | split))).after (by decide) ?_
    | with_reducible refine (Moves.fold _ _ _ ?_).behind ?_
    | intro _
    | split
    | ((conv => arg 3; with_reducible whnf); split))

theorem State.notedBack_moves (s : State) (x1 : ℕ × ℕ) :
    Moves [.mem] s (State.notedBack s x1) := by
  unfold State.notedBack
  repeat' (first
    | with_reducible exact Moves.refl _ _
    | with_reducible assumption
    | extract_lets
    | with_reducible refine Moves.ite ?_ ?_
    | with_reducible refine (State.modMem_moves _ _ (by intro n; repeat' (first | rfl | extract_lets | split)) (by intro n; repeat' (first | rfl | extract_lets | split))).after (by decide) ?_
    | with_reducible refine (Moves.fold _ _ _ ?_).behind ?_
    | intro _
    | split
    | ((conv => arg 3; with_reducible whnf); split))

theorem State.readWord_moves (s : State) (x1 : ℕ) (x2 : Bool) :
    Moves [.trc, .mem, .evr, .nor] s (State.readWord s x1 x2).2 := by
  unfold State.readWord
  repeat' (first
    | with_reducible exact Moves.refl _ _
    | with_reducible assumption
    | extract_lets
    | with_reducible refine Moves.ite ?_ ?_
    | with_reducible refine (State.hardUe_moves ..).after (by decide) ?_
    | with_reducible refine (State.hardCe_moves ..).after (by decide) ?_
    | with_reducible refine (State.countUe_moves ..).after (by decide) ?_
    | with_reducible refine (State.countCe_moves ..).after (by decide) ?_
    | with_reducible refine (State.modChan_moves ..).after (by decide) ?_
    | with_reducible refine (Moves.fold _ _ _ ?_).behind ?_
    | intro _
    | split
    | ((conv => arg 3; with_reducible whnf); split))

theorem State.writeBytes_moves (s : State) (x1 : ℕ) (x2 : ℕ) (x3 : List Byte) :
    Moves [.trc, .mem, .evr, .nor] s (State.writeBytes s x1 x2 x3) := by
  unfold State.writeBytes
  repeat' (first
    | with_reducible exact Moves.refl _ _
    | with_reducible assumption
    | extract_lets
    | with_reducible refine Moves.ite ?_ ?_
    | with_reducible refine (State.putWord_moves ..).after (by decide) ?_
    | with_reducible refine (State.modMem_moves _ _ (by intro n; repeat' (first | rfl | extract_lets | split)) (by intro n; repeat' (first | rfl | extract_lets | split))).after (by decide) ?_
    | with_reducible refine (State.readWord_moves ..).after (by decide) ?_
    | with_reducible refine (Moves.fold _ _ _ ?_).behind ?_
    | intro _
    | split
    | ((conv => arg 3; with_reducible whnf); split)
    | with_reducible refine Moves.pair2 (by assumption) ?_)

theorem State.writeRange_moves (s : State) (addr : Nat) (l : List Byte) (n : Nat) :
    Moves [.trc, .mem, .evr, .nor] s (s.writeRange addr l n) := by
  induction n generalizing s addr l with
  | zero => unfold State.writeRange; exact .refl _ s
  | succ n ih =>
    unfold State.writeRange
    split
    · exact .refl _ s
    · extract_lets off now
      exact ((State.writeBytes_moves ..).widen (by decide)).trans (ih ..)

theorem State.refillCmb_moves (s : State) (f : Fn) :
    Moves [.mem] s (s.refillCmb f) := by
  unfold State.refillCmb
  split
  · exact .refl _ s
  · refine Moves.widen (m := [.mem]) (State.modMem_wf _ _ (fun m h => ?_) (fun m h => h)) (by decide)
    exact Memory.wf_filter _ _ h

theorem State.burst_moves (s : State) (x1 : Fin 2) :
    Moves [.mem] s (State.burst s x1) := by
  unfold State.burst
  repeat' (first
    | with_reducible exact Moves.refl _ _
    | with_reducible assumption
    | extract_lets
    | with_reducible refine Moves.ite ?_ ?_
    | with_reducible refine (State.modChan_moves ..).after (by decide) ?_
    | with_reducible refine (Moves.fold _ _ _ ?_).behind ?_
    | intro _
    | split
    | ((conv => arg 3; with_reducible whnf); split))

theorem execCmbWrite_moves (x0 : Fn) (x1 : Nat) (x2 : List Byte) (s : State) {t : State} (h : (execCmbWrite x0 x1 x2 s) = .next t) :
    Moves [.trc, .mem, .evr, .nor] s t := by
  unfold execCmbWrite at h
  repeat' (first | contradiction | (injection h with h; subst h) | split at h)
  all_goals (repeat' (first
    | with_reducible exact Moves.refl _ _
    | with_reducible assumption
    | extract_lets
    | with_reducible refine Moves.ite ?_ ?_
    | with_reducible refine (State.modMem_moves _ _ (by intro n; repeat' (first | rfl | extract_lets | split)) (by intro n; repeat' (first | rfl | extract_lets | split))).after (by decide) ?_
    | with_reducible refine (State.writeRange_moves ..).after (by decide) ?_
    | with_reducible refine (State.burst_moves ..).after (by decide) ?_
    | with_reducible refine (Moves.fold _ _ _ ?_).behind ?_
    | intro _
    | split
    | ((conv => arg 3; with_reducible whnf); split)))

theorem execCmbRead_moves (f : Fn) (off len : Nat) (s : State) {t : State} (h : execCmbRead f off len s = .next t) :
    Moves [.trc, .host, .mem, .evr, .nor, .out] s t := by
  unfold execCmbRead at h
  injection h with h; subst h
  split
  · exact .refl _ s
  · split
    · exact .refl _ s
    · extract_lets first words
      have hb : Moves [.trc, .host, .mem, .evr, .nor, .out] s (s.burst (wordChan first)) := (State.burst_moves ..).widen (by decide)
      have hw : ∀ (ws : List Nat) (x : State × Bool × List Word), Moves [.trc, .host, .mem, .evr, .nor, .out] s x.1 →
          Moves [.trc, .host, .mem, .evr, .nor, .out] s (ws.foldl (fun (x : State × Bool × List Word) w =>
            let (v, s') := x.1.readWord w false
            (s', x.2.1 || v.kind.bad, x.2.2 ++ lohi v.value.toNat)) x).1 := by
        intro ws
        induction ws with
        | nil => exact fun x hx => hx
        | cons w ws ih => exact fun x hx => ih _ (hx.trans ((State.readWord_moves ..).widen (by decide)))
      have h1 := hw words (s.burst (wordChan first), s.mem.refill.contains f, []) hb
      generalize words.foldl (fun (x : State × Bool × List Word) w =>
            let (v, s') := x.1.readWord w false
            (s', x.2.1 || v.kind.bad, x.2.2 ++ lohi v.value.toNat)) (s.burst (wordChan first), s.mem.refill.contains f, []) = r at h1 ⊢
      obtain ⟨s1, bad, l⟩ := r
      show Moves _ s (if _ then _ else _ : State)
      refine Moves.ite ?_ ?_
      · exact (((h1.trans ((State.modFn_moves ..).widen (by decide))).trans ((State.saturated_moves ..).widen (by decide))).trans
          ((State.violated_moves ..).widen (by decide))).trans ((State.modOut_moves ..).widen (by decide))
      · exact h1.trans ((State.modOut_moves ..).widen (by decide))

theorem execCmbRefillDone_moves (x0 : Fn) (s : State) {t : State} (h : (execCmbRefillDone x0 s) = .next t) :
    Moves [.trc, .mem, .evr, .nor] s t := by
  unfold execCmbRefillDone at h
  repeat' (first | contradiction | (injection h with h; subst h) | split at h)
  all_goals (repeat' (first
    | with_reducible exact Moves.refl _ _
    | with_reducible assumption
    | extract_lets
    | with_reducible refine Moves.ite ?_ ?_
    | with_reducible refine (State.writeRange_moves ..).after (by decide) ?_
    | with_reducible refine (State.modMem_moves _ _ (by intro n; repeat' (first | rfl | extract_lets | split)) (by intro n; repeat' (first | rfl | extract_lets | split))).after (by decide) ?_
    | with_reducible refine (Moves.fold _ _ _ ?_).behind ?_
    | intro _
    | split
    | ((conv => arg 3; with_reducible whnf); split)))

theorem State.rereadStaged_moves (s : State) (x1 : Nat) :
    Moves [.q] s (State.rereadStaged s x1) := by
  unfold State.rereadStaged
  repeat' (first
    | with_reducible exact Moves.refl _ _
    | with_reducible assumption
    | extract_lets
    | with_reducible refine Moves.ite ?_ ?_
    | with_reducible refine (State.modCtx_moves ..).after (by decide) ?_
    | with_reducible refine (State.modQ_moves ..).after (by decide) ?_
    | with_reducible refine (Moves.fold _ _ _ ?_).behind ?_
    | intro _
    | split
    | ((conv => arg 3; with_reducible whnf); split))

theorem State.loseQueued_moves (s : State) (x1 : Nat) :
    Moves [.evr] s (State.loseQueued s x1) := by
  unfold State.loseQueued
  repeat' (first
    | with_reducible exact Moves.refl _ _
    | with_reducible assumption
    | extract_lets
    | with_reducible refine Moves.ite ?_ ?_
    | with_reducible refine (State.modEvr_moves ..).after (by decide) ?_
    | with_reducible refine (Moves.fold _ _ _ ?_).behind ?_
    | intro _
    | split
    | ((conv => arg 3; with_reducible whnf); split))

theorem State.resetCore_moves (s : State) (x1 : Nat) :
    Moves [.free, .slice, .lane, .pool, .trc, .media, .host, .q, .het, .sec, .evr, .nor, .rst, .out, .links, .recv, .engSrv, .seq, .zdc, .core, .det, .wr, .headSrv] s (State.resetCore s x1) := by
  unfold State.resetCore
  repeat' (first
    | with_reducible exact Moves.refl _ _
    | with_reducible assumption
    | extract_lets
    | with_reducible refine Moves.ite ?_ ?_
    | with_reducible refine (State.mgmtReset_moves ..).after (by decide) ?_
    | with_reducible refine (State.lockstep_moves ..).after (by decide) ?_
    | with_reducible refine (Moves.fold _ _ _ ?_).behind ?_
    | intro _
    | split
    | ((conv => arg 3; with_reducible whnf); split))

theorem State.loseStaged_moves (s : State) (x1 : Nat) :
    Moves [.trc, .evr] s (State.loseStaged s x1) := by
  unfold State.loseStaged
  repeat' (first
    | with_reducible exact Moves.refl _ _
    | with_reducible assumption
    | extract_lets
    | with_reducible refine Moves.ite ?_ ?_
    | with_reducible refine (State.loseQueued_moves ..).after (by decide) ?_
    | with_reducible refine (State.modTrc_moves ..).after (by decide) ?_
    | with_reducible refine (State.modEvr_moves ..).after (by decide) ?_
    | with_reducible refine (Moves.fold _ _ _ ?_).behind ?_
    | intro _
    | split
    | ((conv => arg 3; with_reducible whnf); split))

theorem State.failFed_moves (s : State) (x1 : Nat) (x2 : Nat) :
    Moves [.q] s (State.failFed s x1 x2) := by
  unfold State.failFed
  repeat' (first
    | with_reducible exact Moves.refl _ _
    | with_reducible assumption
    | extract_lets
    | with_reducible refine Moves.ite ?_ ?_
    | with_reducible refine (State.modQ_moves ..).after (by decide) ?_
    | with_reducible refine (Moves.fold _ _ _ ?_).behind ?_
    | intro _
    | split
    | ((conv => arg 3; with_reducible whnf); split))

theorem State.loseWriteData_moves (s : State) (x1 : Nat) :
    Moves [.q] s (State.loseWriteData s x1) := by
  unfold State.loseWriteData
  repeat' (first
    | with_reducible exact Moves.refl _ _
    | with_reducible assumption
    | extract_lets
    | with_reducible refine Moves.ite ?_ ?_
    | with_reducible refine (State.modCtx_moves ..).after (by decide) ?_
    | with_reducible refine (State.failFed_moves ..).after (by decide) ?_
    | with_reducible refine (State.modQ_moves ..).after (by decide) ?_
    | with_reducible refine (Moves.fold _ _ _ ?_).behind ?_
    | intro _
    | split
    | ((conv => arg 3; with_reducible whnf); split))

theorem State.dramLost_moves (s : State) (x1 : Nat) :
    Moves [.free, .slice, .lane, .pool, .trc, .media, .host, .q, .het, .mem, .sec, .evr, .nor, .rst, .out, .links, .recv, .engSrv, .seq, .zdc, .core, .det, .wr, .headSrv] s (State.dramLost s x1) := by
  unfold State.dramLost
  repeat' (first
    | with_reducible exact Moves.refl _ _
    | with_reducible assumption
    | extract_lets
    | with_reducible refine Moves.ite ?_ ?_
    | with_reducible refine (State.putWord_moves ..).after (by decide) ?_
    | with_reducible refine (State.resetCore_moves ..).after (by decide) ?_
    | with_reducible refine (State.requeueStep_moves ..).after (by decide) ?_
    | with_reducible refine (State.loseStaged_moves ..).after (by decide) ?_
    | with_reducible refine (State.rereadStaged_moves ..).after (by decide) ?_
    | with_reducible refine (State.loseWriteData_moves ..).after (by decide) ?_
    | with_reducible refine (Moves.fold _ _ _ ?_).behind ?_
    | intro _
    | split
    | ((conv => arg 3; with_reducible whnf); split))

theorem State.disturb_moves (s : State) (x1 : Nat) (x2 : BitErrors) : Moves [.mem] s (State.disturb s x1 x2) := by
  unfold State.disturb
  extract_lets v
  exact State.modMem_wf _ _ (fun _ h => Memory.wf_write _ _ _ h) (fun _ h => h)

theorem State.serveBurst_moves (s : State) (x1 : DramReq) (x2 : List BitErrors) :
    Moves [.free, .slice, .lane, .pool, .trc, .media, .host, .q, .het, .mem, .sec, .evr, .nor, .rst, .out, .links, .recv, .engSrv, .seq, .zdc, .core, .det, .wr, .headSrv] s (State.serveBurst s x1 x2) := by
  unfold State.serveBurst
  repeat' (first
    | with_reducible exact Moves.refl _ _
    | with_reducible assumption
    | extract_lets
    | with_reducible refine Moves.ite ?_ ?_
    | with_reducible refine (State.disturb_moves ..).after (by decide) ?_
    | with_reducible refine (State.writeRange_moves ..).after (by decide) ?_
    | with_reducible refine (State.readWord_moves ..).after (by decide) ?_
    | with_reducible refine (State.dramLost_moves ..).after (by decide) ?_
    | with_reducible refine Moves.pair1 (by assumption) ?_
    | with_reducible refine Moves.pair2 (by assumption) ?_
    | with_reducible refine (Moves.fold _ _ _ ?_).behind ?_
    | intro _
    | split
    | ((conv => arg 3; with_reducible whnf); split))

theorem State.askDram_moves (s : State) (x1 : Fin 2) (x2 : List DramAsk) :
    Moves [.mem] s (State.askDram s x1 x2) := by
  unfold State.askDram
  repeat' (first
    | with_reducible exact Moves.refl _ _
    | with_reducible assumption
    | extract_lets
    | with_reducible refine Moves.ite ?_ ?_
    | with_reducible refine (State.modChan_moves ..).after (by decide) ?_
    | with_reducible refine (Moves.fold _ _ _ ?_).behind ?_
    | intro _
    | split
    | ((conv => arg 3; with_reducible whnf); split))

theorem execDramArbitration_moves (x0 : DramTurn) (s : State) {t : State} (h : (execDramArbitration x0 s) = .next t) :
    Moves [.free, .slice, .lane, .pool, .trc, .media, .host, .q, .het, .mem, .sec, .evr, .nor, .rst, .out, .links, .recv, .engSrv, .seq, .zdc, .core, .det, .wr, .headSrv] s t := by
  unfold execDramArbitration at h
  repeat' (first | contradiction | (injection h with h; subst h) | split at h)
  all_goals (repeat' (first
    | with_reducible exact Moves.refl _ _
    | with_reducible assumption
    | extract_lets
    | with_reducible refine Moves.ite ?_ ?_
    | with_reducible refine (State.askDram_moves ..).after (by decide) ?_
    | with_reducible refine (State.modChan_moves ..).after (by decide) ?_
    | with_reducible refine (State.serveBurst_moves ..).after (by decide) ?_
    | with_reducible refine (Moves.fold _ _ _ ?_).behind ?_
    | intro _
    | split
    | ((conv => arg 3; with_reducible whnf); split)))

theorem execEccWriteback_moves (x0 : Fin 2) (s : State) {t : State} (h : (execEccWriteback x0 s) = .next t) :
    Moves [.mem] s t := by
  unfold execEccWriteback at h
  repeat' (first | contradiction | (injection h with h; subst h) | split at h)
  all_goals (repeat' (first
    | with_reducible exact Moves.refl _ _
    | with_reducible assumption
    | extract_lets
    | with_reducible refine Moves.ite ?_ ?_
    | with_reducible refine (State.putWord_moves ..).after (by decide) ?_
    | with_reducible refine (State.notedBack_moves ..).after (by decide) ?_
    | with_reducible refine (State.burst_moves ..).after (by decide) ?_
    | with_reducible refine (Moves.fold _ _ _ ?_).behind ?_
    | intro _
    | split
    | ((conv => arg 3; with_reducible whnf); split)))

theorem execDramRefresh_moves (x0 : Fin 2) (s : State) {t : State} (h : (execDramRefresh x0 s) = .next t) :
    Moves [.mem] s t := by
  unfold execDramRefresh at h
  repeat' (first | contradiction | (injection h with h; subst h) | split at h)
  all_goals (repeat' (first
    | with_reducible exact Moves.refl _ _
    | with_reducible assumption
    | extract_lets
    | with_reducible refine Moves.ite ?_ ?_
    | with_reducible refine (State.modChan_moves ..).after (by decide) ?_
    | with_reducible refine (Moves.fold _ _ _ ?_).behind ?_
    | intro _
    | split
    | ((conv => arg 3; with_reducible whnf); split)))

theorem execBucketLeak_moves (x0 : MemRegion) (s : State) {t : State} (h : (execBucketLeak x0 s) = .next t) :
    Moves [.mem] s t := by
  unfold execBucketLeak at h
  repeat' (first | contradiction | (injection h with h; subst h) | split at h)
  all_goals (repeat' (first
    | with_reducible exact Moves.refl _ _
    | with_reducible assumption
    | extract_lets
    | with_reducible refine Moves.ite ?_ ?_
    | with_reducible refine (State.modBkt_moves ..).after (by decide) ?_
    | with_reducible refine (State.modMem_moves _ _ (by intro n; repeat' (first | rfl | extract_lets | split)) (by intro n; repeat' (first | rfl | extract_lets | split))).after (by decide) ?_
    | with_reducible refine (Moves.fold _ _ _ ?_).behind ?_
    | intro _
    | split
    | ((conv => arg 3; with_reducible whnf); split)))

theorem execScrubBurst_moves (x0 : Fin 2) (s : State) {t : State} (h : (execScrubBurst x0 s) = .next t) :
    Moves [.mem] s t := by
  unfold execScrubBurst at h
  repeat' (first | contradiction | (injection h with h; subst h) | split at h)
  all_goals (repeat' (first
    | with_reducible exact Moves.refl _ _
    | with_reducible assumption
    | extract_lets
    | with_reducible refine Moves.ite ?_ ?_
    | with_reducible refine (State.modChan_moves ..).after (by decide) ?_
    | with_reducible refine (State.modMem_moves _ _ (by intro n; repeat' (first | rfl | extract_lets | split)) (by intro n; repeat' (first | rfl | extract_lets | split))).after (by decide) ?_
    | with_reducible refine (Moves.fold _ _ _ ?_).behind ?_
    | intro _
    | split
    | ((conv => arg 3; with_reducible whnf); split)))

theorem State.sramLost_moves (s : State) (x1 : MemRegion) (x2 : Nat) :
    Moves [.free, .slice, .lane, .pool, .lpe, .trc, .media, .host, .q, .het, .pwr, .sec, .evr, .nor, .rst, .out, .links, .recv, .engSrv, .seq, .zdc, .core, .det, .wr, .headSrv] s (State.sramLost s x1 x2) := by
  unfold State.sramLost
  repeat' (first
    | with_reducible exact Moves.refl _ _
    | with_reducible assumption
    | extract_lets
    | with_reducible refine Moves.ite ?_ ?_
    | with_reducible refine (State.rereadStaged_moves ..).after (by decide) ?_
    | with_reducible refine (State.failDecoder_moves ..).after (by decide) ?_
    | with_reducible refine (State.modFn_moves ..).after (by decide) ?_
    | with_reducible refine (State.resetCore_moves ..).after (by decide) ?_
    | with_reducible refine (State.modLoop_moves ..).after (by decide) ?_
    | with_reducible refine (State.modZdc_moves ..).after (by decide) ?_
    | with_reducible refine (State.loseQueued_moves ..).after (by decide) ?_
    | with_reducible refine (Moves.fold _ _ _ ?_).behind ?_
    | intro _
    | split
    | ((conv => arg 3; with_reducible whnf); split))

theorem State.sramWord_moves (s : State) (x1 : MemRegion) (x2 : ScrubFind) :
    Moves [.free, .slice, .lane, .pool, .lpe, .trc, .media, .host, .q, .het, .pwr, .mem, .sec, .evr, .nor, .rst, .out, .links, .recv, .engSrv, .seq, .zdc, .core, .det, .wr, .headSrv] s (State.sramWord s x1 x2) := by
  unfold State.sramWord
  repeat' (first
    | with_reducible exact Moves.refl _ _
    | with_reducible assumption
    | extract_lets
    | with_reducible refine Moves.ite ?_ ?_
    | with_reducible refine (State.countCe_moves ..).after (by decide) ?_
    | with_reducible refine (State.hardCe_moves ..).after (by decide) ?_
    | with_reducible refine (State.notedBack_moves ..).after (by decide) ?_
    | with_reducible refine (State.countUe_moves ..).after (by decide) ?_
    | with_reducible refine (State.hardUe_moves ..).after (by decide) ?_
    | with_reducible refine (State.sramLost_moves ..).after (by decide) ?_
    | with_reducible refine (Moves.fold _ _ _ ?_).behind ?_
    | intro _
    | split
    | ((conv => arg 3; with_reducible whnf); split))

theorem execSramScrubPass_moves (x0 : MemRegion) (x1 : List ScrubFind) (s : State) {t : State} (h : (execSramScrubPass x0 x1 s) = .next t) :
    Moves [.free, .slice, .lane, .pool, .lpe, .trc, .media, .host, .q, .het, .pwr, .mem, .sec, .evr, .nor, .rst, .out, .links, .recv, .engSrv, .seq, .zdc, .core, .det, .wr, .headSrv] s t := by
  unfold execSramScrubPass at h
  repeat' (first | contradiction | (injection h with h; subst h) | split at h)
  all_goals (repeat' (first
    | with_reducible exact Moves.refl _ _
    | with_reducible assumption
    | extract_lets
    | with_reducible refine Moves.ite ?_ ?_
    | with_reducible refine (State.sramWord_moves ..).after (by decide) ?_
    | with_reducible refine (Moves.fold _ _ _ ?_).behind ?_
    | intro _
    | split
    | ((conv => arg 3; with_reducible whnf); split)))

theorem execDramRowRepair_moves (x0 : Fin 2) (s : State) {t : State} (h : (execDramRowRepair x0 s) = .next t) :
    Moves [.trc, .host, .het, .mem, .evr, .nor, .out] s t := by
  unfold execDramRowRepair at h
  repeat' (first | contradiction | (injection h with h; subst h) | split at h)
  all_goals (repeat' (first
    | with_reducible exact Moves.refl _ _
    | with_reducible assumption
    | extract_lets
    | with_reducible refine Moves.ite ?_ ?_
    | with_reducible refine (State.putWord_moves ..).after (by decide) ?_
    | with_reducible refine (State.modChan_moves ..).after (by decide) ?_
    | with_reducible refine (State.replyWaiting_moves ..).after (by decide) ?_
    | with_reducible refine (State.saturated_moves ..).after (by decide) ?_
    | with_reducible refine (State.condMem_moves ..).after (by decide) ?_
    | with_reducible refine (State.modNor_moves _ _ (by intro n; repeat' (first | rfl | extract_lets | split))).after (by decide) ?_
    | with_reducible refine (State.modMem_moves _ _ (by intro n; repeat' (first | rfl | extract_lets | split)) (by intro n; repeat' (first | rfl | extract_lets | split))).after (by decide) ?_
    | with_reducible refine (Moves.fold _ _ _ ?_).behind ?_
    | intro _
    | split
    | ((conv => arg 3; with_reducible whnf); split)))

theorem execMemStatus_moves (x0 : Packet) (s : State) {t : State} (h : (execMemStatus x0 s) = .next t) :
    Moves [.trc, .host, .het, .evr, .out] s t := by
  unfold execMemStatus at h
  repeat' (first | contradiction | (injection h with h; subst h) | split at h)
  all_goals (repeat' (first
    | with_reducible exact Moves.refl _ _
    | with_reducible assumption
    | extract_lets
    | with_reducible refine Moves.ite ?_ ?_
    | with_reducible refine Moves.itePkt ?_ ?_
    | with_reducible refine runPacket_moves (by decide) (fun s => ?_)
    | with_reducible refine (PktRes.report_moves ..).after (by decide) ?_
    | with_reducible refine (Moves.fold _ _ _ ?_).behind ?_
    | intro _
    | split
    | ((conv => arg 3; with_reducible whnf); split)))

theorem opMemConfig_moves (x0 : Packet) (s : State) :
    Moves [.trc, .mem, .evr, .nor] s (opMemConfig x0 s).state := by
  unfold opMemConfig
  repeat' (first
    | with_reducible exact Moves.refl _ _
    | with_reducible assumption
    | extract_lets
    | with_reducible refine Moves.ite ?_ ?_
    | with_reducible refine Moves.itePkt ?_ ?_
    | with_reducible refine (State.fillBucket_moves ..).after (by decide) ?_
    | with_reducible refine (State.modBkt_moves ..).after (by decide) ?_
    | with_reducible refine (State.modNor_moves _ _ (by intro n; repeat' (first | rfl | extract_lets | split))).after (by decide) ?_
    | with_reducible refine (State.modMem_moves _ _ (by intro n; repeat' (first | rfl | extract_lets | split)) (by intro n; repeat' (first | rfl | extract_lets | split))).after (by decide) ?_
    | with_reducible refine (Moves.fold _ _ _ ?_).behind ?_
    | intro _
    | split
    | ((conv => arg 3; with_reducible whnf); split))

theorem execMemConfig_moves (x0 : Packet) (s : State) {t : State} (h : (execMemConfig x0 s) = .next t) :
    Moves [.trc, .host, .het, .mem, .evr, .nor, .out] s t := by
  unfold execMemConfig at h
  repeat' (first | contradiction | (injection h with h; subst h) | split at h)
  all_goals (repeat' (first
    | with_reducible exact Moves.refl _ _
    | with_reducible assumption
    | extract_lets
    | with_reducible refine Moves.ite ?_ ?_
    | with_reducible refine Moves.itePkt ?_ ?_
    | with_reducible refine (opMemConfig_moves ..).after (by decide) ?_
    | with_reducible refine runPacket_moves (by decide) (fun s => ?_)
    | with_reducible refine (Moves.fold _ _ _ ?_).behind ?_
    | intro _
    | split
    | ((conv => arg 3; with_reducible whnf); split)))

theorem opMemScrub_moves (x0 : Packet) (s : State) :
    Moves [.mem] s (opMemScrub x0 s).state := by
  unfold opMemScrub
  repeat' (first
    | with_reducible exact Moves.refl _ _
    | with_reducible assumption
    | extract_lets
    | with_reducible refine Moves.ite ?_ ?_
    | with_reducible refine Moves.itePkt ?_ ?_
    | with_reducible refine (State.modMem_moves _ _ (by intro n; repeat' (first | rfl | extract_lets | split)) (by intro n; repeat' (first | rfl | extract_lets | split))).after (by decide) ?_
    | with_reducible refine (Moves.fold _ _ _ ?_).behind ?_
    | intro _
    | split
    | ((conv => arg 3; with_reducible whnf); split))

theorem execMemScrubRestart_moves (x0 : Packet) (s : State) {t : State} (h : (execMemScrubRestart x0 s) = .next t) :
    Moves [.trc, .host, .het, .mem, .evr, .out] s t := by
  unfold execMemScrubRestart at h
  repeat' (first | contradiction | (injection h with h; subst h) | split at h)
  all_goals (repeat' (first
    | with_reducible exact Moves.refl _ _
    | with_reducible assumption
    | extract_lets
    | with_reducible refine Moves.ite ?_ ?_
    | with_reducible refine Moves.itePkt ?_ ?_
    | with_reducible refine (opMemScrub_moves ..).after (by decide) ?_
    | with_reducible refine runPacket_moves (by decide) (fun s => ?_)
    | with_reducible refine (Moves.fold _ _ _ ?_).behind ?_
    | intro _
    | split
    | ((conv => arg 3; with_reducible whnf); split)))

theorem execMemScrubSram_moves (x0 : Packet) (s : State) {t : State} (h : (execMemScrubSram x0 s) = .next t) :
    Moves [.trc, .host, .het, .mem, .evr, .out] s t := by
  unfold execMemScrubSram at h
  repeat' (first | contradiction | (injection h with h; subst h) | split at h)
  all_goals (repeat' (first
    | with_reducible exact Moves.refl _ _
    | with_reducible assumption
    | extract_lets
    | with_reducible refine Moves.ite ?_ ?_
    | with_reducible refine Moves.itePkt ?_ ?_
    | with_reducible refine (opMemScrub_moves ..).after (by decide) ?_
    | with_reducible refine runPacket_moves (by decide) (fun s => ?_)
    | with_reducible refine (Moves.fold _ _ _ ?_).behind ?_
    | intro _
    | split
    | ((conv => arg 3; with_reducible whnf); split)))

theorem opMemRepair_moves (x0 : Packet) (s : State) :
    Moves [.trc, .mem, .evr, .nor] s (opMemRepair x0 s).state := by
  unfold opMemRepair
  repeat' (first
    | with_reducible exact Moves.refl _ _
    | with_reducible assumption
    | extract_lets
    | with_reducible refine Moves.ite ?_ ?_
    | with_reducible refine Moves.itePkt ?_ ?_
    | with_reducible refine (State.markSram_moves ..).after (by decide) ?_
    | with_reducible refine (State.markRow_moves ..).after (by decide) ?_
    | with_reducible refine (PktRes.fail_moves ..).after (by decide) ?_
    | with_reducible refine (Moves.fold _ _ _ ?_).behind ?_
    | intro _
    | split
    | ((conv => arg 3; with_reducible whnf); split))

theorem execMemRepair_moves (x0 : Packet) (s : State) {t : State} (h : (execMemRepair x0 s) = .next t) :
    Moves [.trc, .host, .het, .mem, .evr, .nor, .out] s t := by
  unfold execMemRepair at h
  repeat' (first | contradiction | (injection h with h; subst h) | split at h)
  all_goals (repeat' (first
    | with_reducible exact Moves.refl _ _
    | with_reducible assumption
    | extract_lets
    | with_reducible refine Moves.ite ?_ ?_
    | with_reducible refine Moves.itePkt ?_ ?_
    | with_reducible refine (opMemRepair_moves ..).after (by decide) ?_
    | with_reducible refine runPacket_moves (by decide) (fun s => ?_)
    | with_reducible refine (Moves.fold _ _ _ ?_).behind ?_
    | intro _
    | split
    | ((conv => arg 3; with_reducible whnf); split)))

theorem opMemDiag_moves (p : Packet) (s : State) :
    Moves [.mem] s (opMemDiag p s).state := by
  unfold opMemDiag
  extract_lets w0 id a given d v out
  have ho : ∀ s x, (out s x).state = s := fun s x => rfl
  split
  · split
    · (try extract_lets w)
      split
      · rw [ho]; exact State.putWord_moves ..
      · rw [ho]; exact .refl _ s
    · exact .refl _ s
  · split
    · (try extract_lets i)
      split
      · rw [ho]
        refine Moves.widen (m := [.mem]) (State.modMem_wf _ _ (fun m h => h) (fun m h => ?_)) (by decide)
        exact Memory.localWf_write _ _ _ h
      · rw [ho]; exact .refl _ s
    · exact .refl _ s

theorem execMemDiagRead_moves (x0 : Packet) (s : State) {t : State} (h : (execMemDiagRead x0 s) = .next t) :
    Moves [.trc, .host, .het, .mem, .evr, .out] s t := by
  unfold execMemDiagRead at h
  repeat' (first | contradiction | (injection h with h; subst h) | split at h)
  all_goals (repeat' (first
    | with_reducible exact Moves.refl _ _
    | with_reducible assumption
    | extract_lets
    | with_reducible refine Moves.ite ?_ ?_
    | with_reducible refine Moves.itePkt ?_ ?_
    | with_reducible refine (opMemDiag_moves ..).after (by decide) ?_
    | with_reducible refine runPacket_moves (by decide) (fun s => ?_)
    | with_reducible refine (Moves.fold _ _ _ ?_).behind ?_
    | intro _
    | split
    | ((conv => arg 3; with_reducible whnf); split)))

theorem execMemDiagWrite_moves (x0 : Packet) (s : State) {t : State} (h : (execMemDiagWrite x0 s) = .next t) :
    Moves [.trc, .host, .het, .mem, .evr, .out] s t := by
  unfold execMemDiagWrite at h
  repeat' (first | contradiction | (injection h with h; subst h) | split at h)
  all_goals (repeat' (first
    | with_reducible exact Moves.refl _ _
    | with_reducible assumption
    | extract_lets
    | with_reducible refine Moves.ite ?_ ?_
    | with_reducible refine Moves.itePkt ?_ ?_
    | with_reducible refine (opMemDiag_moves ..).after (by decide) ?_
    | with_reducible refine runPacket_moves (by decide) (fun s => ?_)
    | with_reducible refine (Moves.fold _ _ _ ?_).behind ?_
    | intro _
    | split
    | ((conv => arg 3; with_reducible whnf); split)))

theorem opMemClear_moves (x0 : Packet) (s : State) :
    Moves [.mem] s (opMemClear x0 s).state := by
  unfold opMemClear
  repeat' (first
    | with_reducible exact Moves.refl _ _
    | with_reducible assumption
    | extract_lets
    | with_reducible refine Moves.ite ?_ ?_
    | with_reducible refine Moves.itePkt ?_ ?_
    | with_reducible refine (State.modBkt_moves ..).after (by decide) ?_
    | with_reducible refine (State.modMem_moves _ _ (by intro n; repeat' (first | rfl | extract_lets | split)) (by intro n; repeat' (first | rfl | extract_lets | split))).after (by decide) ?_
    | with_reducible refine (Moves.fold _ _ _ ?_).behind ?_
    | intro _
    | split
    | ((conv => arg 3; with_reducible whnf); split))

theorem execMemClear_moves (x0 : Packet) (s : State) {t : State} (h : (execMemClear x0 s) = .next t) :
    Moves [.trc, .host, .het, .mem, .evr, .out] s t := by
  unfold execMemClear at h
  repeat' (first | contradiction | (injection h with h; subst h) | split at h)
  all_goals (repeat' (first
    | with_reducible exact Moves.refl _ _
    | with_reducible assumption
    | extract_lets
    | with_reducible refine Moves.ite ?_ ?_
    | with_reducible refine Moves.itePkt ?_ ?_
    | with_reducible refine (opMemClear_moves ..).after (by decide) ?_
    | with_reducible refine runPacket_moves (by decide) (fun s => ?_)
    | with_reducible refine (Moves.fold _ _ _ ?_).behind ?_
    | intro _
    | split
    | ((conv => arg 3; with_reducible whnf); split)))

end Sys2Proof.Machine
end

