-- ==== Sys2Proof/Laws/MovesHost.lean ====
section
/-! SUPPORT. What each operation and each command of Machine/Host.lean can touch. -/

namespace Sys2Proof.Machine
open Sys2Proof
set_option linter.all false
set_option Elab.async false

theorem State.abandonSlots_moves (s : State) (x1 : CtxIx → Bool) :
    Moves [.slice, .lane, .pool, .trc, .pwr, .evr, .recv, .rd, .det, .wr, .map, .freq] s (State.abandonSlots s x1) := by
  unfold State.abandonSlots
  repeat' (first
    | with_reducible exact Moves.refl _ _
    | with_reducible assumption
    | extract_lets
    | with_reducible refine Moves.ite ?_ ?_
    | with_reducible refine (State.modLane_moves ..).after (by decide) ?_
    | with_reducible refine (State.dropHead_moves ..).after (by decide) ?_
    | with_reducible refine (State.endCodeword_moves ..).after (by decide) ?_
    | with_reducible refine (State.stopSlot_moves ..).after (by decide) ?_
    | with_reducible refine (State.freeSlot_moves ..).after (by decide) ?_
    | with_reducible refine (Moves.fold _ _ _ ?_).behind ?_
    | intro _
    | split
    | ((conv => arg 3; with_reducible whnf); split)
    | with_reducible refine (Moves.set_slice _ _).after (by decide) ?_)

theorem State.abandonJobs_moves (s : State) (x1 : CtxIx → Bool) :
    Moves [.slice, .lane, .pool, .q, .recv, .det, .headSrv] s (State.abandonJobs s x1) := by
  unfold State.abandonJobs
  repeat' (first
    | with_reducible exact Moves.refl _ _
    | with_reducible assumption
    | extract_lets
    | with_reducible refine Moves.ite ?_ ?_
    | with_reducible refine (State.closeJobs_moves ..).after (by decide) ?_
    | with_reducible refine (State.modRec_moves ..).after (by decide) ?_
    | with_reducible refine (Moves.fold _ _ _ ?_).behind ?_
    | intro _
    | split
    | ((conv => arg 3; with_reducible whnf); split))

theorem State.orphanSectors_moves (s : State) (x1 : List (Head × SectorAt)) :
    Moves [.wr] s (State.orphanSectors s x1) := by
  unfold State.orphanSectors
  repeat' (first
    | with_reducible exact Moves.refl _ _
    | with_reducible assumption
    | extract_lets
    | with_reducible refine Moves.ite ?_ ?_
    | with_reducible refine (State.modWr_moves ..).after (by decide) ?_
    | with_reducible refine (Moves.fold _ _ _ ?_).behind ?_
    | intro _
    | split
    | ((conv => arg 3; with_reducible whnf); split))

theorem State.drawBack_moves (s : State) (x1 : ZoneNo) (x2 : Nat) :
    Moves [.free, .trc, .media, .host, .evr, .nor, .out, .zdc] s (State.drawBack s x1 x2) := by
  unfold State.drawBack
  repeat' (first
    | with_reducible exact Moves.refl _ _
    | with_reducible assumption
    | extract_lets
    | with_reducible refine Moves.ite ?_ ?_
    | with_reducible refine (State.setZone_moves ..).after (by decide) ?_
    | with_reducible refine (Moves.fold _ _ _ ?_).behind ?_
    | intro _
    | split
    | ((conv => arg 3; with_reducible whnf); split))

theorem State.resource_moves (s : State) (x1 : List ℕ) :
    Moves [.q] s (State.resource s x1) := by
  unfold State.resource
  repeat' (first
    | with_reducible exact Moves.refl _ _
    | with_reducible assumption
    | extract_lets
    | with_reducible refine Moves.ite ?_ ?_
    | with_reducible refine (State.modCtx_moves ..).after (by decide) ?_
    | with_reducible refine (Moves.fold _ _ _ ?_).behind ?_
    | intro _
    | split
    | ((conv => arg 3; with_reducible whnf); split))

theorem State.discard_moves (s : State) (x1 : Ctx → Bool) :
    Moves [.free, .slice, .lane, .pool, .trc, .media, .host, .q, .pwr, .evr, .nor, .out, .recv, .seq, .zdc, .rd, .det, .wr, .headSrv, .map, .freq] s (State.discard s x1) := by
  unfold State.discard
  repeat' (first
    | with_reducible exact Moves.refl _ _
    | with_reducible assumption
    | extract_lets
    | with_reducible refine Moves.ite ?_ ?_
    | with_reducible refine (State.abandonSlots_moves ..).after (by decide) ?_
    | with_reducible refine (State.abandonJobs_moves ..).after (by decide) ?_
    | with_reducible refine (State.orphanSectors_moves ..).after (by decide) ?_
    | with_reducible refine (State.modSeq_moves ..).after (by decide) ?_
    | with_reducible refine (State.modQ_moves ..).after (by decide) ?_
    | with_reducible refine (State.chosen_moves ..).after (by decide) ?_
    | with_reducible refine (State.modMedia_moves ..).after (by decide) ?_
    | with_reducible refine (State.drawBack_moves ..).after (by decide) ?_
    | with_reducible refine (State.resource_moves ..).after (by decide) ?_
    | with_reducible refine (Moves.fold _ _ _ ?_).behind ?_
    | intro _
    | split
    | ((conv => arg 3; with_reducible whnf); split))

theorem State.dropExchanges_moves (s : State) (x1 : Fn) :
    Moves [.het] s (State.dropExchanges s x1) := by
  unfold State.dropExchanges
  repeat' (first
    | with_reducible exact Moves.refl _ _
    | with_reducible assumption
    | extract_lets
    | with_reducible refine Moves.ite ?_ ?_
    | with_reducible refine (State.modHet_moves ..).after (by decide) ?_
    | with_reducible refine (Moves.fold _ _ _ ?_).behind ?_
    | intro _
    | split
    | ((conv => arg 3; with_reducible whnf); split))

theorem State.closeOpenZones_moves (s : State) (x1 : Fn) :
    Moves [.free, .trc, .media, .host, .evr, .nor, .out, .zdc] s (State.closeOpenZones s x1) := by
  unfold State.closeOpenZones
  repeat' (first
    | with_reducible exact Moves.refl _ _
    | with_reducible assumption
    | extract_lets
    | with_reducible refine Moves.ite ?_ ?_
    | with_reducible refine (State.enterZState_moves ..).after (by decide) ?_
    | with_reducible refine (Moves.fold _ _ _ ?_).behind ?_
    | intro _
    | split
    | ((conv => arg 3; with_reducible whnf); split))

theorem State.healthChange_moves (s : State) (x1 : ℕ) :
    Moves [.host] s (State.healthChange s x1) := by
  unfold State.healthChange
  repeat' (first
    | with_reducible exact Moves.refl _ _
    | with_reducible assumption
    | extract_lets
    | with_reducible refine Moves.ite ?_ ?_
    | with_reducible refine (State.modHost_moves ..).after (by decide) ?_
    | with_reducible refine (Moves.fold _ _ _ ?_).behind ?_
    | intro _
    | split
    | ((conv => arg 3; with_reducible whnf); split))

theorem State.resetFn_moves (s : State) (x1 : Fn) :
    Moves [.free, .slice, .lane, .pool, .lpe, .trc, .spn, .media, .host, .q, .het, .pwr, .sec, .evr, .nor, .rst, .out, .reel, .links, .recv, .engSrv, .seq, .zdc, .rd, .det, .wr, .headSrv, .map, .freq] s (State.resetFn s x1) := by
  unfold State.resetFn
  repeat' (first
    | with_reducible exact Moves.refl _ _
    | with_reducible assumption
    | extract_lets
    | with_reducible refine Moves.ite ?_ ?_
    | with_reducible refine (State.discard_moves ..).after (by decide) ?_
    | with_reducible refine (State.modFn_moves ..).after (by decide) ?_
    | with_reducible refine (State.endContracts_moves ..).after (by decide) ?_
    | with_reducible refine (State.dropExchanges_moves ..).after (by decide) ?_
    | with_reducible refine (State.modSec_moves ..).after (by decide) ?_
    | with_reducible refine (State.closeOpenZones_moves ..).after (by decide) ?_
    | with_reducible refine (State.modQ_moves ..).after (by decide) ?_
    | with_reducible refine (State.healthChange_moves ..).after (by decide) ?_
    | with_reducible refine (State.settleWrites_moves ..).after (by decide) ?_
    | with_reducible refine (Moves.fold _ _ _ ?_).behind ?_
    | intro _
    | split
    | ((conv => arg 3; with_reducible whnf); split))

theorem State.flr_moves (s : State) (x1 : Fn) :
    Moves [.free, .slice, .lane, .pool, .lpe, .trc, .spn, .media, .host, .q, .het, .pwr, .mem, .sec, .evr, .nor, .rst, .out, .reel, .links, .recv, .engSrv, .seq, .zdc, .rd, .det, .wr, .headSrv, .map, .freq] s (State.flr s x1) := by
  unfold State.flr
  repeat' (first
    | with_reducible exact Moves.refl _ _
    | with_reducible assumption
    | extract_lets
    | with_reducible refine Moves.ite ?_ ?_
    | with_reducible refine (State.resetFn_moves ..).after (by decide) ?_
    | with_reducible refine (State.refillCmb_moves ..).after (by decide) ?_
    | with_reducible refine (State.modFn_moves ..).after (by decide) ?_
    | with_reducible refine (Moves.fold _ _ _ ?_).behind ?_
    | intro _
    | split
    | ((conv => arg 3; with_reducible whnf); split))

theorem execFunctionLevelReset_moves (x0 : Fn) (s : State) {t : State} (h : (execFunctionLevelReset x0 s) = .next t) :
    Moves [.free, .slice, .lane, .pool, .lpe, .trc, .spn, .media, .host, .q, .het, .pwr, .mem, .sec, .evr, .nor, .rst, .out, .reel, .links, .recv, .engSrv, .seq, .zdc, .rd, .det, .wr, .headSrv, .map, .freq] s t := by
  unfold execFunctionLevelReset at h
  repeat' (first | contradiction | (injection h with h; subst h) | split at h)
  all_goals (repeat' (first
    | with_reducible exact Moves.refl _ _
    | with_reducible assumption
    | extract_lets
    | with_reducible refine Moves.ite ?_ ?_
    | with_reducible refine (State.flr_moves ..).after (by decide) ?_
    | with_reducible refine (Moves.fold _ _ _ ?_).behind ?_
    | intro _
    | split
    | ((conv => arg 3; with_reducible whnf); split)))

theorem execVfDisable_moves (x0 : Fn) (s : State) {t : State} (h : (execVfDisable x0 s) = .next t) :
    Moves [.free, .slice, .lane, .pool, .lpe, .trc, .spn, .media, .host, .q, .het, .pwr, .mem, .sec, .evr, .nor, .rst, .out, .reel, .links, .recv, .engSrv, .seq, .zdc, .rd, .det, .wr, .headSrv, .map, .freq] s t := by
  unfold execVfDisable at h
  repeat' (first | contradiction | (injection h with h; subst h) | split at h)
  all_goals (repeat' (first
    | with_reducible exact Moves.refl _ _
    | with_reducible assumption
    | extract_lets
    | with_reducible refine Moves.ite ?_ ?_
    | with_reducible refine (State.flr_moves ..).after (by decide) ?_
    | with_reducible refine (State.modFn_moves ..).after (by decide) ?_
    | with_reducible refine (State.modHost_moves ..).after (by decide) ?_
    | with_reducible refine (Moves.fold _ _ _ ?_).behind ?_
    | intro _
    | split
    | ((conv => arg 3; with_reducible whnf); split)))

theorem execVfEnable_moves (x0 : Fin 16) (s : State) {t : State} (h : (execVfEnable x0 s) = .next t) :
    Moves [.host] s t := by
  unfold execVfEnable at h
  repeat' (first | contradiction | (injection h with h; subst h) | split at h)
  all_goals (repeat' (first
    | with_reducible exact Moves.refl _ _
    | with_reducible assumption
    | extract_lets
    | with_reducible refine Moves.ite ?_ ?_
    | with_reducible refine (State.modFn_moves ..).after (by decide) ?_
    | with_reducible refine (State.modHost_moves ..).after (by decide) ?_
    | with_reducible refine (Moves.fold _ _ _ ?_).behind ?_
    | intro _
    | split
    | ((conv => arg 3; with_reducible whnf); split)))

theorem execControllerReset_moves (x0 : Fn) (s : State) {t : State} (h : (execControllerReset x0 s) = .next t) :
    Moves [.free, .slice, .lane, .pool, .lpe, .trc, .spn, .media, .host, .q, .het, .pwr, .sec, .evr, .nor, .rst, .out, .reel, .links, .recv, .engSrv, .seq, .zdc, .rd, .det, .wr, .headSrv, .map, .freq] s t := by
  unfold execControllerReset at h
  repeat' (first | contradiction | (injection h with h; subst h) | split at h)
  all_goals (repeat' (first
    | with_reducible exact Moves.refl _ _
    | with_reducible assumption
    | extract_lets
    | with_reducible refine Moves.ite ?_ ?_
    | with_reducible refine (State.resetFn_moves ..).after (by decide) ?_
    | with_reducible refine (Moves.fold _ _ _ ?_).behind ?_
    | intro _
    | split
    | ((conv => arg 3; with_reducible whnf); split)))

theorem State.wakeSpindle_moves (s : State) :
    Moves [.spn] s (State.wakeSpindle s) := by
  unfold State.wakeSpindle
  repeat' (first
    | with_reducible exact Moves.refl _ _
    | with_reducible assumption
    | extract_lets
    | with_reducible refine Moves.ite ?_ ?_
    | with_reducible refine (State.spindleStart_moves ..).after (by decide) ?_
    | with_reducible refine (State.modSpn_moves ..).after (by decide) ?_
    | with_reducible refine (Moves.fold _ _ _ ?_).behind ?_
    | intro _
    | split
    | ((conv => arg 3; with_reducible whnf); split))

theorem execControllerEnable_moves (x0 : Fn) (x1 : ControllerSetup) (s : State) {t : State} (h : (execControllerEnable x0 x1 s) = .next t) :
    Moves [.spn, .host] s t := by
  unfold execControllerEnable at h
  repeat' (first | contradiction | (injection h with h; subst h) | split at h)
  all_goals (repeat' (first
    | with_reducible exact Moves.refl _ _
    | with_reducible assumption
    | extract_lets
    | with_reducible refine Moves.ite ?_ ?_
    | with_reducible refine (State.modFn_moves ..).after (by decide) ?_
    | with_reducible refine (State.wakeSpindle_moves ..).after (by decide) ?_
    | with_reducible refine (State.healthChange_moves ..).after (by decide) ?_
    | with_reducible refine (Moves.fold _ _ _ ?_).behind ?_
    | intro _
    | split
    | ((conv => arg 3; with_reducible whnf); split)))

theorem execShutdownNormal_moves (x0 : Fn) (s : State) {t : State} (h : (execShutdownNormal x0 s) = .next t) :
    Moves [.slice, .lane, .pool, .lpe, .trc, .spn, .host, .q, .pwr, .evr, .nor, .rst, .reel, .links, .recv, .engSrv, .seq, .rd, .det, .wr, .headSrv, .map, .freq] s t := by
  unfold execShutdownNormal at h
  repeat' (first | contradiction | (injection h with h; subst h) | split at h)
  all_goals (repeat' (first
    | with_reducible exact Moves.refl _ _
    | with_reducible assumption
    | extract_lets
    | with_reducible refine Moves.ite ?_ ?_
    | with_reducible refine (State.modFn_moves ..).after (by decide) ?_
    | with_reducible refine (State.settleShutdown_moves ..).after (by decide) ?_
    | with_reducible refine (Moves.fold _ _ _ ?_).behind ?_
    | intro _
    | split
    | ((conv => arg 3; with_reducible whnf); split)))

theorem execShutdownAbrupt_moves (x0 : Fn) (s : State) {t : State} (h : (execShutdownAbrupt x0 s) = .next t) :
    Moves [.free, .slice, .lane, .pool, .lpe, .trc, .spn, .media, .host, .q, .pwr, .evr, .nor, .rst, .out, .reel, .links, .recv, .engSrv, .seq, .zdc, .rd, .det, .wr, .headSrv, .map, .freq] s t := by
  unfold execShutdownAbrupt at h
  repeat' (first | contradiction | (injection h with h; subst h) | split at h)
  all_goals (repeat' (first
    | with_reducible exact Moves.refl _ _
    | with_reducible assumption
    | extract_lets
    | with_reducible refine Moves.ite ?_ ?_
    | with_reducible refine (State.discard_moves ..).after (by decide) ?_
    | with_reducible refine (State.modFn_moves ..).after (by decide) ?_
    | with_reducible refine (State.settleShutdown_moves ..).after (by decide) ?_
    | with_reducible refine (Moves.fold _ _ _ ?_).behind ?_
    | intro _
    | split
    | ((conv => arg 3; with_reducible whnf); split)))

theorem execLinkReset_moves (x0 : LinkResetKind) (s : State) {t : State} (h : (execLinkReset x0 s) = .next t) :
    Moves [.free, .slice, .lane, .pool, .lpe, .trc, .spn, .media, .host, .q, .het, .pwr, .mem, .sec, .evr, .nor, .rst, .out, .reel, .links, .recv, .engSrv, .seq, .zdc, .rd, .det, .wr, .headSrv, .map, .freq] s t := by
  unfold execLinkReset at h
  repeat' (first | contradiction | (injection h with h; subst h) | split at h)
  all_goals (repeat' (first
    | with_reducible exact Moves.refl _ _
    | with_reducible assumption
    | extract_lets
    | with_reducible refine Moves.ite ?_ ?_
    | with_reducible refine (State.flr_moves ..).after (by decide) ?_
    | with_reducible refine (State.modFn_moves ..).after (by decide) ?_
    | with_reducible refine (State.modHost_moves ..).after (by decide) ?_
    | with_reducible refine (State.saturated_moves ..).after (by decide) ?_
    | with_reducible refine (Moves.fold _ _ _ ?_).behind ?_
    | intro _
    | split
    | ((conv => arg 3; with_reducible whnf); split)))

theorem execPerstDeassertion_moves (s : State) {t : State} (h : (execPerstDeassertion s) = .next t) :
    Moves [.host] s t := by
  unfold execPerstDeassertion at h
  repeat' (first | contradiction | (injection h with h; subst h) | split at h)
  all_goals (repeat' (first
    | with_reducible exact Moves.refl _ _
    | with_reducible assumption
    | extract_lets
    | with_reducible refine Moves.ite ?_ ?_
    | with_reducible refine (State.modHost_moves ..).after (by decide) ?_
    | with_reducible refine (Moves.fold _ _ _ ?_).behind ?_
    | intro _
    | split
    | ((conv => arg 3; with_reducible whnf); split)))

theorem execDataLinkUp_moves (x0 : Fin 6) (x1 : Fin 5) (x2 : Bool) (s : State) {t : State} (h : (execDataLinkUp x0 x1 x2 s) = .next t) :
    Moves [.host] s t := by
  unfold execDataLinkUp at h
  repeat' (first | contradiction | (injection h with h; subst h) | split at h)
  all_goals (repeat' (first
    | with_reducible exact Moves.refl _ _
    | with_reducible assumption
    | extract_lets
    | with_reducible refine Moves.ite ?_ ?_
    | with_reducible refine (State.modHost_moves ..).after (by decide) ?_
    | with_reducible refine (Moves.fold _ _ _ ?_).behind ?_
    | intro _
    | split
    | ((conv => arg 3; with_reducible whnf); split)))

theorem execAspmL1Change_moves (x0 : Bool) (s : State) {t : State} (h : (execAspmL1Change x0 s) = .next t) :
    Moves [.host] s t := by
  unfold execAspmL1Change at h
  repeat' (first | contradiction | (injection h with h; subst h) | split at h)
  all_goals (repeat' (first
    | with_reducible exact Moves.refl _ _
    | with_reducible assumption
    | extract_lets
    | with_reducible refine Moves.ite ?_ ?_
    | with_reducible refine (State.modHost_moves ..).after (by decide) ?_
    | with_reducible refine (Moves.fold _ _ _ ?_).behind ?_
    | intro _
    | split
    | ((conv => arg 3; with_reducible whnf); split)))

theorem execMctpSetEndpointId_moves (x0 : BitVec 8) (s : State) {t : State} (h : (execMctpSetEndpointId x0 s) = .next t) :
    Moves [.host] s t := by
  unfold execMctpSetEndpointId at h
  repeat' (first | contradiction | (injection h with h; subst h) | split at h)
  all_goals (repeat' (first
    | with_reducible exact Moves.refl _ _
    | with_reducible assumption
    | extract_lets
    | with_reducible refine Moves.ite ?_ ?_
    | with_reducible refine (State.modHost_moves ..).after (by decide) ?_
    | with_reducible refine (Moves.fold _ _ _ ?_).behind ?_
    | intro _
    | split
    | ((conv => arg 3; with_reducible whnf); split)))

theorem execKeepAliveTimeout_moves (x0 : Fn) (s : State) {t : State} (h : (execKeepAliveTimeout x0 s) = .next t) :
    Moves [.host] s t := by
  unfold execKeepAliveTimeout at h
  repeat' (first | contradiction | (injection h with h; subst h) | split at h)
  all_goals (repeat' (first
    | with_reducible exact Moves.refl _ _
    | with_reducible assumption
    | extract_lets
    | with_reducible refine Moves.ite ?_ ?_
    | with_reducible refine (State.logError_moves ..).after (by decide) ?_
    | with_reducible refine (State.modFn_moves ..).after (by decide) ?_
    | with_reducible refine (Moves.fold _ _ _ ?_).behind ?_
    | intro _
    | split
    | ((conv => arg 3; with_reducible whnf); split)))

theorem State.fnViolated_moves (s : State) (x1 : Violation) (x2 : Fn) (x3 : ℕ) (x4 : Bool) (x5 : List Word) :
    Moves [.trc, .host, .evr] s (State.fnViolated s x1 x2 x3 x4 x5) := by
  unfold State.fnViolated
  repeat' (first
    | with_reducible exact Moves.refl _ _
    | with_reducible assumption
    | extract_lets
    | with_reducible refine Moves.ite ?_ ?_
    | with_reducible refine (State.violated_moves ..).after (by decide) ?_
    | with_reducible refine (State.saturated_moves ..).after (by decide) ?_
    | with_reducible refine (Moves.fold _ _ _ ?_).behind ?_
    | intro _
    | split
    | ((conv => arg 3; with_reducible whnf); split))

theorem execDoorbellWrite_moves (x0 : Fn) (x1 : Doorbell) (s : State) {t : State} (h : (execDoorbellWrite x0 x1 s) = .next t) :
    Moves [.trc, .host, .evr, .out] s t := by
  unfold execDoorbellWrite at h
  repeat' (first | contradiction | (injection h with h; subst h) | split at h)
  all_goals (repeat' (first
    | with_reducible exact Moves.refl _ _
    | with_reducible assumption
    | extract_lets
    | with_reducible refine Moves.ite ?_ ?_
    | with_reducible refine (State.fnViolated_moves ..).after (by decide) ?_
    | with_reducible refine (State.raiseAsync_moves ..).after (by decide) ?_
    | with_reducible refine (State.modFn_moves ..).after (by decide) ?_
    | with_reducible refine (Moves.fold _ _ _ ?_).behind ?_
    | intro _
    | split
    | ((conv => arg 3; with_reducible whnf); split)))

theorem execTlpMalformed_moves (x0 : Fn) (x1 : BitVec 128) (s : State) {t : State} (h : (execTlpMalformed x0 x1 s) = .next t) :
    Moves [.trc, .host, .evr, .out] s t := by
  unfold execTlpMalformed at h
  repeat' (first | contradiction | (injection h with h; subst h) | split at h)
  all_goals (repeat' (first
    | with_reducible exact Moves.refl _ _
    | with_reducible assumption
    | extract_lets
    | with_reducible refine Moves.ite ?_ ?_
    | with_reducible refine (State.fnViolated_moves ..).after (by decide) ?_
    | with_reducible refine (State.modOut_moves ..).after (by decide) ?_
    | with_reducible refine (State.modFn_moves ..).after (by decide) ?_
    | with_reducible refine (Moves.fold _ _ _ ?_).behind ?_
    | intro _
    | split
    | ((conv => arg 3; with_reducible whnf); split)))

theorem execUnsupportedRequest_moves (x0 : Fn) (x1 : BitVec 128) (s : State) {t : State} (h : (execUnsupportedRequest x0 x1 s) = .next t) :
    Moves [.trc, .host, .evr, .out] s t := by
  unfold execUnsupportedRequest at h
  repeat' (first | contradiction | (injection h with h; subst h) | split at h)
  all_goals (repeat' (first
    | with_reducible exact Moves.refl _ _
    | with_reducible assumption
    | extract_lets
    | with_reducible refine Moves.ite ?_ ?_
    | with_reducible refine (State.modFn_moves ..).after (by decide) ?_
    | with_reducible refine (State.modOut_moves ..).after (by decide) ?_
    | with_reducible refine (State.fnViolated_moves ..).after (by decide) ?_
    | with_reducible refine (Moves.fold _ _ _ ?_).behind ?_
    | intro _
    | split
    | ((conv => arg 3; with_reducible whnf); split)))

theorem execCompletionTimeout_moves (x0 : CtxIx) (x1 : BitVec 128) (s : State) {t : State} (h : (execCompletionTimeout x0 x1 s) = .next t) :
    Moves [.trc, .host, .q, .evr] s t := by
  unfold execCompletionTimeout at h
  repeat' (first | contradiction | (injection h with h; subst h) | split at h)
  all_goals (repeat' (first
    | with_reducible exact Moves.refl _ _
    | with_reducible assumption
    | extract_lets
    | with_reducible refine Moves.ite ?_ ?_
    | with_reducible refine (State.transferFailed_moves ..).after (by decide) ?_
    | with_reducible refine (State.fnViolated_moves ..).after (by decide) ?_
    | with_reducible refine (State.modFn_moves ..).after (by decide) ?_
    | with_reducible refine (Moves.fold _ _ _ ?_).behind ?_
    | intro _
    | split
    | ((conv => arg 3; with_reducible whnf); split)))

theorem execPoisonedCompletion_moves (x0 : CtxIx) (x1 : BitVec 128) (s : State) {t : State} (h : (execPoisonedCompletion x0 x1 s) = .next t) :
    Moves [.trc, .host, .q, .evr] s t := by
  unfold execPoisonedCompletion at h
  repeat' (first | contradiction | (injection h with h; subst h) | split at h)
  all_goals (repeat' (first
    | with_reducible exact Moves.refl _ _
    | with_reducible assumption
    | extract_lets
    | with_reducible refine Moves.ite ?_ ?_
    | with_reducible refine (State.transferFailed_moves ..).after (by decide) ?_
    | with_reducible refine (State.fnViolated_moves ..).after (by decide) ?_
    | with_reducible refine (State.modFn_moves ..).after (by decide) ?_
    | with_reducible refine (Moves.fold _ _ _ ?_).behind ?_
    | intro _
    | split
    | ((conv => arg 3; with_reducible whnf); split)))

theorem execSmbusPecError_moves (x0 : BitVec 128) (s : State) {t : State} (h : (execSmbusPecError x0 s) = .next t) :
    Moves [.trc, .host, .evr] s t := by
  unfold execSmbusPecError at h
  repeat' (first | contradiction | (injection h with h; subst h) | split at h)
  all_goals (repeat' (first
    | with_reducible exact Moves.refl _ _
    | with_reducible assumption
    | extract_lets
    | with_reducible refine Moves.ite ?_ ?_
    | with_reducible refine (State.violated_moves ..).after (by decide) ?_
    | with_reducible refine (State.saturated_moves ..).after (by decide) ?_
    | with_reducible refine (State.modHost_moves ..).after (by decide) ?_
    | with_reducible refine (Moves.fold _ _ _ ?_).behind ?_
    | intro _
    | split
    | ((conv => arg 3; with_reducible whnf); split)))

theorem execSmbusClockTimeout_moves (s : State) {t : State} (h : (execSmbusClockTimeout s) = .next t) :
    Moves [.trc, .host, .evr] s t := by
  unfold execSmbusClockTimeout at h
  repeat' (first | contradiction | (injection h with h; subst h) | split at h)
  all_goals (repeat' (first
    | with_reducible exact Moves.refl _ _
    | with_reducible assumption
    | extract_lets
    | with_reducible refine Moves.ite ?_ ?_
    | with_reducible refine (State.violated_moves ..).after (by decide) ?_
    | with_reducible refine (State.saturated_moves ..).after (by decide) ?_
    | with_reducible refine (State.modHost_moves ..).after (by decide) ?_
    | with_reducible refine (Moves.fold _ _ _ ?_).behind ?_
    | intro _
    | split
    | ((conv => arg 3; with_reducible whnf); split)))

theorem State.mctpBad_moves (s : State) (x1 : List Word) :
    Moves [.trc, .host, .evr] s (State.mctpBad s x1) := by
  unfold State.mctpBad
  repeat' (first
    | with_reducible exact Moves.refl _ _
    | with_reducible assumption
    | extract_lets
    | with_reducible refine Moves.ite ?_ ?_
    | with_reducible refine (State.violated_moves ..).after (by decide) ?_
    | with_reducible refine (State.saturated_moves ..).after (by decide) ?_
    | with_reducible refine (State.modHost_moves ..).after (by decide) ?_
    | with_reducible refine (Moves.fold _ _ _ ?_).behind ?_
    | intro _
    | split
    | ((conv => arg 3; with_reducible whnf); split))

theorem execMctpMalformed_moves (x0 : BitVec 128) (s : State) {t : State} (h : (execMctpMalformed x0 s) = .next t) :
    Moves [.trc, .host, .evr] s t := by
  unfold execMctpMalformed at h
  repeat' (first | contradiction | (injection h with h; subst h) | split at h)
  all_goals (repeat' (first
    | with_reducible exact Moves.refl _ _
    | with_reducible assumption
    | extract_lets
    | with_reducible refine Moves.ite ?_ ?_
    | with_reducible refine (State.mctpBad_moves ..).after (by decide) ?_
    | with_reducible refine (Moves.fold _ _ _ ?_).behind ?_
    | intro _
    | split
    | ((conv => arg 3; with_reducible whnf); split)))

theorem execViolationHourSummary_moves (s : State) {t : State} (h : (execViolationHourSummary s) = .next t) :
    Moves [.trc, .host, .evr] s t := by
  unfold execViolationHourSummary at h
  repeat' (first | contradiction | (injection h with h; subst h) | split at h)
  all_goals (repeat' (first
    | with_reducible exact Moves.refl _ _
    | with_reducible assumption
    | extract_lets
    | with_reducible refine Moves.ite ?_ ?_
    | with_reducible refine (State.record_moves ..).after (by decide) ?_
    | with_reducible refine (State.modHost_moves ..).after (by decide) ?_
    | with_reducible refine (Moves.fold _ _ _ ?_).behind ?_
    | intro _
    | split
    | ((conv => arg 3; with_reducible whnf); split)))

theorem execHostStatus_moves (x0 : Packet) (s : State) {t : State} (h : (execHostStatus x0 s) = .next t) :
    Moves [.trc, .host, .het, .evr, .out] s t := by
  unfold execHostStatus at h
  repeat' (first | contradiction | (injection h with h; subst h) | split at h)
  all_goals (repeat' (first
    | with_reducible exact Moves.refl _ _
    | with_reducible assumption
    | extract_lets
    | with_reducible refine Moves.ite ?_ ?_
    | with_reducible refine Moves.itePkt ?_ ?_
    | with_reducible refine runPacket_moves (by decide) (fun s => ?_)
    | with_reducible refine (PktRes.report_moves ..).after (by decide) ?_
    | with_reducible refine (Moves.fold _ _ _ ?_).behind ?_
    | intro _
    | split
    | ((conv => arg 3; with_reducible whnf); split)))

theorem opHostConfig_moves (x0 : Packet) (s : State) :
    Moves [.host, .nor] s (opHostConfig x0 s).state := by
  unfold opHostConfig
  repeat' (first
    | with_reducible exact Moves.refl _ _
    | with_reducible assumption
    | extract_lets
    | with_reducible refine Moves.ite ?_ ?_
    | with_reducible refine Moves.itePkt ?_ ?_
    | with_reducible refine (State.modNor_moves _ _ (by intro n; repeat' (first | rfl | extract_lets | split))).after (by decide) ?_
    | with_reducible refine (State.modHost_moves ..).after (by decide) ?_
    | with_reducible refine (Moves.fold _ _ _ ?_).behind ?_
    | intro _
    | split
    | ((conv => arg 3; with_reducible whnf); split))

theorem execHostConfig_moves (x0 : Packet) (s : State) {t : State} (h : (execHostConfig x0 s) = .next t) :
    Moves [.trc, .host, .het, .evr, .nor, .out] s t := by
  unfold execHostConfig at h
  repeat' (first | contradiction | (injection h with h; subst h) | split at h)
  all_goals (repeat' (first
    | with_reducible exact Moves.refl _ _
    | with_reducible assumption
    | extract_lets
    | with_reducible refine Moves.ite ?_ ?_
    | with_reducible refine Moves.itePkt ?_ ?_
    | with_reducible refine (opHostConfig_moves ..).after (by decide) ?_
    | with_reducible refine runPacket_moves (by decide) (fun s => ?_)
    | with_reducible refine (Moves.fold _ _ _ ?_).behind ?_
    | intro _
    | split
    | ((conv => arg 3; with_reducible whnf); split)))

theorem opHostPermit_moves (x0 : Packet) (s : State) :
    Moves [.host] s (opHostPermit x0 s).state := by
  unfold opHostPermit
  repeat' (first
    | with_reducible exact Moves.refl _ _
    | with_reducible assumption
    | extract_lets
    | with_reducible refine Moves.ite ?_ ?_
    | with_reducible refine Moves.itePkt ?_ ?_
    | with_reducible refine (State.modHost_moves ..).after (by decide) ?_
    | with_reducible refine (Moves.fold _ _ _ ?_).behind ?_
    | intro _
    | split
    | ((conv => arg 3; with_reducible whnf); split))

theorem execHostPermit_moves (x0 : Packet) (s : State) {t : State} (h : (execHostPermit x0 s) = .next t) :
    Moves [.trc, .host, .het, .evr, .out] s t := by
  unfold execHostPermit at h
  repeat' (first | contradiction | (injection h with h; subst h) | split at h)
  all_goals (repeat' (first
    | with_reducible exact Moves.refl _ _
    | with_reducible assumption
    | extract_lets
    | with_reducible refine Moves.ite ?_ ?_
    | with_reducible refine Moves.itePkt ?_ ?_
    | with_reducible refine (opHostPermit_moves ..).after (by decide) ?_
    | with_reducible refine runPacket_moves (by decide) (fun s => ?_)
    | with_reducible refine (Moves.fold _ _ _ ?_).behind ?_
    | intro _
    | split
    | ((conv => arg 3; with_reducible whnf); split)))

theorem execHostFunction_moves (x0 : Packet) (s : State) {t : State} (h : (execHostFunction x0 s) = .next t) :
    Moves [.trc, .host, .het, .evr, .out] s t := by
  unfold execHostFunction at h
  repeat' (first | contradiction | (injection h with h; subst h) | split at h)
  all_goals (repeat' (first
    | with_reducible exact Moves.refl _ _
    | with_reducible assumption
    | extract_lets
    | with_reducible refine Moves.ite ?_ ?_
    | with_reducible refine Moves.itePkt ?_ ?_
    | with_reducible refine runPacket_moves (by decide) (fun s => ?_)
    | with_reducible refine (PktRes.report_moves ..).after (by decide) ?_
    | with_reducible refine (Moves.fold _ _ _ ?_).behind ?_
    | intro _
    | split
    | ((conv => arg 3; with_reducible whnf); split)))

theorem opHostClear_moves (x0 : Packet) (s : State) :
    Moves [.host] s (opHostClear x0 s).state := by
  unfold opHostClear
  repeat' (first
    | with_reducible exact Moves.refl _ _
    | with_reducible assumption
    | extract_lets
    | with_reducible refine Moves.ite ?_ ?_
    | with_reducible refine Moves.itePkt ?_ ?_
    | with_reducible refine (State.modFn_moves ..).after (by decide) ?_
    | with_reducible refine (State.modHost_moves ..).after (by decide) ?_
    | with_reducible refine (Moves.fold _ _ _ ?_).behind ?_
    | intro _
    | split
    | ((conv => arg 3; with_reducible whnf); split))

theorem execHostClear_moves (x0 : Packet) (s : State) {t : State} (h : (execHostClear x0 s) = .next t) :
    Moves [.trc, .host, .het, .evr, .out] s t := by
  unfold execHostClear at h
  repeat' (first | contradiction | (injection h with h; subst h) | split at h)
  all_goals (repeat' (first
    | with_reducible exact Moves.refl _ _
    | with_reducible assumption
    | extract_lets
    | with_reducible refine Moves.ite ?_ ?_
    | with_reducible refine Moves.itePkt ?_ ?_
    | with_reducible refine (opHostClear_moves ..).after (by decide) ?_
    | with_reducible refine runPacket_moves (by decide) (fun s => ?_)
    | with_reducible refine (Moves.fold _ _ _ ?_).behind ?_
    | intro _
    | split
    | ((conv => arg 3; with_reducible whnf); split)))

end Sys2Proof.Machine
end

