-- ==== Sys2Proof/Laws/MovesBar2.lean ====
section
/-! SUPPORT. What each operation and each command of Machine/Bar2.lean can touch. -/

namespace Sys2Proof.Machine
open Sys2Proof
set_option linter.all false
set_option Elab.async false

theorem State.snapshot_moves (s : State) (x1 : ℕ) :
    Moves [.snaps] s (State.snapshot s x1) := by
  unfold State.snapshot
  repeat' (first
    | with_reducible exact Moves.refl _ _
    | with_reducible assumption
    | extract_lets
    | with_reducible refine Moves.ite ?_ ?_
    | with_reducible refine (Moves.fold _ _ _ ?_).behind ?_
    | intro _
    | split
    | ((conv => arg 3; with_reducible whnf); split)
    | with_reducible refine (Moves.set_snaps _ _).after (by decide) ?_)

theorem execSnapshotWrite_moves (x0 : BitVec 24) (s : State) {t : State} (h : (execSnapshotWrite x0 s) = .next t) :
    Moves [.snaps] s t := by
  unfold execSnapshotWrite at h
  repeat' (first | contradiction | (injection h with h; subst h) | split at h)
  all_goals (repeat' (first
    | with_reducible exact Moves.refl _ _
    | with_reducible assumption
    | extract_lets
    | with_reducible refine Moves.ite ?_ ?_
    | with_reducible refine (State.snapshot_moves ..).after (by decide) ?_
    | with_reducible refine (Moves.fold _ _ _ ?_).behind ?_
    | intro _
    | split
    | ((conv => arg 3; with_reducible whnf); split)))

theorem State.unassigned_moves (s : State) (x1 : Fn) (x2 : ℕ) (x3 : ℕ) (x4 : Bool) :
    Moves [.trc, .host, .evr] s (State.unassigned s x1 x2 x3 x4) := by
  unfold State.unassigned
  repeat' (first
    | with_reducible exact Moves.refl _ _
    | with_reducible assumption
    | extract_lets
    | with_reducible refine Moves.ite ?_ ?_
    | with_reducible refine (State.fnViolated_moves ..).after (by decide) ?_
    | with_reducible refine (State.modFn_moves ..).after (by decide) ?_
    | with_reducible refine (Moves.fold _ _ _ ?_).behind ?_
    | intro _
    | split
    | ((conv => arg 3; with_reducible whnf); split))

theorem State.readWords_moves (s : State) (x1 : Fn) (x2 : List Word) :
    Moves [.out] s (State.readWords s x1 x2) := by
  unfold State.readWords
  repeat' (first
    | with_reducible exact Moves.refl _ _
    | with_reducible assumption
    | extract_lets
    | with_reducible refine Moves.ite ?_ ?_
    | with_reducible refine (State.modOut_moves ..).after (by decide) ?_
    | with_reducible refine (Moves.fold _ _ _ ?_).behind ?_
    | intro _
    | split
    | ((conv => arg 3; with_reducible whnf); split))

theorem execInvalidRegisterAccess_moves (x0 : Fn) (x1 : Bar2Access) (s : State) {t : State} (h : (execInvalidRegisterAccess x0 x1 s) = .next t) :
    Moves [.trc, .host, .evr, .out] s t := by
  unfold execInvalidRegisterAccess at h
  repeat' (first | contradiction | (injection h with h; subst h) | split at h)
  all_goals (repeat' (first
    | with_reducible exact Moves.refl _ _
    | with_reducible assumption
    | extract_lets
    | with_reducible refine Moves.ite ?_ ?_
    | with_reducible refine (State.readWords_moves ..).after (by decide) ?_
    | with_reducible refine (State.unassigned_moves ..).after (by decide) ?_
    | with_reducible refine (Moves.fold _ _ _ ?_).behind ?_
    | intro _
    | split
    | ((conv => arg 3; with_reducible whnf); split)))

theorem State.coreWriteAng_moves (s : State) (x1 : Eng) (x2 : Nat) (x3 : Word) :
    Moves [.reel] s (State.coreWriteAng s x1 x2 x3) := by
  unfold State.coreWriteAng
  repeat' (first
    | with_reducible exact Moves.refl _ _
    | with_reducible assumption
    | extract_lets
    | with_reducible refine Moves.ite ?_ ?_
    | with_reducible refine (State.modReel_moves ..).after (by decide) ?_
    | with_reducible refine (State.modCmp_moves ..).after (by decide) ?_
    | with_reducible refine (Moves.fold _ _ _ ?_).behind ?_
    | intro _
    | split
    | ((conv => arg 3; with_reducible whnf); split))

theorem State.coreWriteHead_moves (s : State) (x1 : Head) (x2 : Nat) (x3 : Word) :
    Moves [.rd, .det, .wr, .headSrv, .map] s (State.coreWriteHead s x1 x2 x3) := by
  unfold State.coreWriteHead
  repeat' (first
    | with_reducible exact Moves.refl _ _
    | with_reducible assumption
    | extract_lets
    | with_reducible refine Moves.ite ?_ ?_
    | with_reducible refine (State.writeChannelReg_moves ..).after (by decide) ?_
    | with_reducible refine (State.modWr_moves ..).after (by decide) ?_
    | with_reducible refine (State.modHs_moves ..).after (by decide) ?_
    | with_reducible refine (Moves.fold _ _ _ ?_).behind ?_
    | intro _
    | split
    | ((conv => arg 3; with_reducible whnf); split))

theorem State.coreWriteEng_moves (s : State) (x1 : Eng) (x2 : ℕ) (x3 : Word) :
    Moves [.wsl, .lpe, .out, .links, .recv, .engSrv, .seq, .zdc, .wr] s (State.coreWriteEng s x1 x2 x3) := by
  unfold State.coreWriteEng
  repeat' (first
    | with_reducible exact Moves.refl _ _
    | with_reducible assumption
    | extract_lets
    | with_reducible refine Moves.ite ?_ ?_
    | with_reducible refine (State.queueConfig_moves ..).after (by decide) ?_
    | with_reducible refine (State.modZdc_moves ..).after (by decide) ?_
    | with_reducible refine (State.modSrv_moves ..).after (by decide) ?_
    | with_reducible refine (State.modSeq_moves ..).after (by decide) ?_
    | with_reducible refine (State.modRec_moves ..).after (by decide) ?_
    | with_reducible refine (State.modLink_moves ..).after (by decide) ?_
    | with_reducible refine (Moves.fold _ _ _ ?_).behind ?_
    | intro _
    | split
    | ((conv => arg 3; with_reducible whnf); split))

theorem State.coreWrite_moves (s : State) (x1 : Eng) (x2 : Nat) (x3 : Word) :
    Moves [.wsl, .lpe, .out, .reel, .links, .recv, .engSrv, .seq, .zdc, .rd, .det, .wr, .headSrv, .map] s (State.coreWrite s x1 x2 x3) := by
  unfold State.coreWrite
  repeat' (first
    | with_reducible exact Moves.refl _ _
    | with_reducible assumption
    | extract_lets
    | with_reducible refine Moves.ite ?_ ?_
    | with_reducible refine (State.coreWriteAng_moves ..).after (by decide) ?_
    | with_reducible refine (State.coreWriteEng_moves ..).after (by decide) ?_
    | with_reducible refine (State.coreWriteHead_moves ..).after (by decide) ?_
    | with_reducible refine (Moves.fold _ _ _ ?_).behind ?_
    | intro _
    | split
    | ((conv => arg 3; with_reducible whnf); split))

theorem execRegisterWrite_moves (x0 : Writer) (x1 : BitVec 24) (x2 : Word) (s : State) {t : State} (h : (execRegisterWrite x0 x1 x2 s) = .next t) :
    Moves [.wsl, .lpe, .trc, .host, .evr, .out, .snaps, .reel, .links, .recv, .engSrv, .seq, .zdc, .rd, .det, .wr, .headSrv, .map] s t := by
  unfold execRegisterWrite at h
  repeat' (first | contradiction | (injection h with h; subst h) | split at h)
  all_goals (repeat' (first
    | with_reducible exact Moves.refl _ _
    | with_reducible assumption
    | extract_lets
    | with_reducible refine Moves.ite ?_ ?_
    | with_reducible refine (State.coreWrite_moves ..).after (by decide) ?_
    | with_reducible refine (State.unassigned_moves ..).after (by decide) ?_
    | with_reducible refine (State.snapshot_moves ..).after (by decide) ?_
    | with_reducible refine (State.modCmp_moves ..).after (by decide) ?_
    | with_reducible refine (State.modFn_moves ..).after (by decide) ?_
    | with_reducible refine (State.fnViolated_moves ..).after (by decide) ?_
    | with_reducible refine (Moves.fold _ _ _ ?_).behind ?_
    | intro _
    | split
    | ((conv => arg 3; with_reducible whnf); split)))

end Sys2Proof.Machine
end

