-- ==== Sys2Proof/Laws/MovesRecorder.lean ====
section
/-! SUPPORT. What each operation and each command of Machine/Recorder.lean can touch. -/

namespace Sys2Proof.Machine
open Sys2Proof
set_option linter.all false
set_option Elab.async false

theorem State.drbgNext_moves (s : State) :
    Moves [.sec] s (State.drbgNext s).2 := by
  unfold State.drbgNext
  repeat' (first
    | with_reducible exact Moves.refl _ _
    | with_reducible assumption
    | extract_lets
    | with_reducible refine Moves.ite ?_ ?_
    | with_reducible refine (State.modSec_moves ..).after (by decide) ?_
    | with_reducible refine (Moves.fold _ _ _ ?_).behind ?_
    | intro _
    | split
    | ((conv => arg 3; with_reducible whnf); split))

theorem State.signPair_moves (s : State) (x1 : Identity) (x2 : ℕ) :
    Moves [.sec] s (State.signPair s x1 x2).2.2 := by
  unfold State.signPair
  repeat' (first
    | with_reducible exact Moves.refl _ _
    | with_reducible assumption
    | extract_lets
    | with_reducible refine Moves.ite ?_ ?_
    | with_reducible refine (State.drbgNext_moves ..).after (by decide) ?_
    | with_reducible refine (Moves.fold _ _ _ ?_).behind ?_
    | intro _
    | split
    | ((conv => arg 3; with_reducible whnf); split)
    | with_reducible refine Moves.pair2 (by assumption) ?_)

theorem State.sealBlock_moves (s : State) (x1 : StreamIx) (x2 : OpenBlock) (x3 : ℕ) :
    Moves [.sec, .evr, .nor] s (State.sealBlock s x1 x2 x3) := by
  unfold State.sealBlock
  repeat' (first
    | with_reducible exact Moves.refl _ _
    | with_reducible assumption
    | extract_lets
    | with_reducible refine Moves.ite ?_ ?_
    | with_reducible refine (State.modNor_moves _ _ (by intro n; repeat' (first | rfl | extract_lets | split))).after (by decide) ?_
    | with_reducible refine (State.modEvr_moves ..).after (by decide) ?_
    | with_reducible refine (State.signPair_moves ..).after (by decide) ?_
    | with_reducible refine (Moves.fold _ _ _ ?_).behind ?_
    | intro _
    | split
    | ((conv => arg 3; with_reducible whnf); split)
    | with_reducible refine Moves.pair3 (by assumption) ?_)

theorem State.closeStream_moves (s : State) (x1 : StreamIx) (x2 : ℕ) :
    Moves [.sec, .evr, .nor] s (State.closeStream s x1 x2) := by
  unfold State.closeStream
  repeat' (first
    | with_reducible exact Moves.refl _ _
    | with_reducible assumption
    | extract_lets
    | with_reducible refine Moves.ite ?_ ?_
    | with_reducible refine (State.sealBlock_moves ..).after (by decide) ?_
    | with_reducible refine (State.modEvr_moves ..).after (by decide) ?_
    | with_reducible refine (Moves.fold _ _ _ ?_).behind ?_
    | intro _
    | split
    | ((conv => arg 3; with_reducible whnf); split))

theorem State.openStream_moves (s : State) (x1 : StreamIx) {t : State} (h : (State.openStream s x1) = some t) :
    Moves [.evr, .nor] s t := by
  unfold State.openStream at h
  rw [Option.map_eq_some_iff] at h
  obtain ⟨p, -, rfl⟩ := h
  extract_lets s1
  with_reducible refine (State.modEvr_moves ..).after (by decide) ?_
  with_reducible refine (State.modNor_moves _ _ ?_).widen (by decide)
  exact fun _ => rfl

theorem State.retireSegment_moves (s : State) (x1 : Fin 384) (x2 : ℕ) :
    Moves [.trc, .evr, .nor] s (State.retireSegment s x1 x2) := by
  unfold State.retireSegment
  repeat' (first
    | with_reducible exact Moves.refl _ _
    | with_reducible assumption
    | extract_lets
    | with_reducible refine Moves.ite ?_ ?_
    | with_reducible refine (State.condition_moves ..).after (by decide) ?_
    | with_reducible refine (State.record_moves ..).after (by decide) ?_
    | with_reducible refine (State.modNor_moves _ _ (by intro n; repeat' (first | rfl | extract_lets | split))).after (by decide) ?_
    | with_reducible refine (State.modEvr_moves ..).after (by decide) ?_
    | with_reducible refine (Moves.fold _ _ _ ?_).behind ?_
    | intro _
    | split
    | ((conv => arg 3; with_reducible whnf); split))

theorem State.readyBlock_moves (s : State) (x1 : Event) {t : State} (h : (State.readyBlock s x1) = some t) :
    Moves [.sec, .evr, .nor] s t := by
  unfold State.readyBlock at h
  extract_lets k at h
  split at h
  · split at h
    · injection h with h; subst h; exact .refl _ s
    · exact ((State.openStream_moves _ _ h).widen (by decide)).behind ((State.closeStream_moves ..).widen (by decide))
  · exact (State.openStream_moves _ _ h).widen (by decide)

theorem State.programInto_moves (s : State) (x1 : Event) :
    Moves [.evr] s (State.programInto s x1) := by
  unfold State.programInto
  repeat' (first
    | with_reducible exact Moves.refl _ _
    | with_reducible assumption
    | extract_lets
    | with_reducible refine Moves.ite ?_ ?_
    | with_reducible refine (State.modEvr_moves ..).after (by decide) ?_
    | with_reducible refine (Moves.fold _ _ _ ?_).behind ?_
    | intro _
    | split
    | ((conv => arg 3; with_reducible whnf); split))

theorem State.programAll_moves (s : State) (x1 : ℕ) :
    Moves [.sec, .evr, .nor] s (State.programAll s x1) := by
  induction x1 generalizing s with
  | zero => exact .refl _ s
  | succ n ih =>
    unfold State.programAll
    split
    · exact .refl _ s
    · split
      · exact .refl _ s
      · rename_i s1 h1
        refine (ih _).behind ?_
        with_reducible refine (State.programInto_moves ..).after (by decide) ?_
        exact (State.readyBlock_moves _ _ h1).widen (by decide)

theorem execRecordProgram_moves (x0 : Bool) (s : State) {t : State} (h : (execRecordProgram x0 s) = .next t) :
    Moves [.trc, .sec, .evr, .nor] s t := by
  unfold execRecordProgram at h
  repeat' (first | contradiction | (injection h with h; subst h) | split at h)
  all_goals (repeat' (first
    | with_reducible exact Moves.refl _ _
    | with_reducible assumption
    | extract_lets
    | with_reducible refine Moves.ite ?_ ?_
    | with_reducible refine (State.retireSegment_moves ..).after (by decide) ?_
    | with_reducible refine (State.programInto_moves ..).after (by decide) ?_
    | with_reducible refine (State.closeStream_moves ..).after (by decide) ?_
    | with_reducible refine (Moves.fold _ _ _ ?_).behind ?_
    | intro _
    | split
    | ((conv => arg 3; with_reducible whnf); split)
    | with_reducible refine (State.readyBlock_moves _ _ (by assumption)).after (by decide) ?_))

theorem execSealTimeout_moves (x0 : StreamIx) (s : State) {t : State} (h : (execSealTimeout x0 s) = .next t) :
    Moves [.sec, .evr, .nor] s t := by
  unfold execSealTimeout at h
  repeat' (first | contradiction | (injection h with h; subst h) | split at h)
  all_goals (repeat' (first
    | with_reducible exact Moves.refl _ _
    | with_reducible assumption
    | extract_lets
    | with_reducible refine Moves.ite ?_ ?_
    | with_reducible refine (State.closeStream_moves ..).after (by decide) ?_
    | with_reducible refine (Moves.fold _ _ _ ?_).behind ?_
    | intro _
    | split
    | ((conv => arg 3; with_reducible whnf); split)))

theorem execSegmentErase_moves (s : State) {t : State} (h : (execSegmentErase s) = .next t) :
    Moves [.sec, .evr, .nor] s t := by
  unfold execSegmentErase at h
  repeat' (first | contradiction | (injection h with h; subst h) | split at h)
  all_goals (repeat' (first
    | with_reducible exact Moves.refl _ _
    | with_reducible assumption
    | extract_lets
    | with_reducible refine Moves.ite ?_ ?_
    | with_reducible refine (State.closeStream_moves ..).after (by decide) ?_
    | with_reducible refine (State.modEvr_moves ..).after (by decide) ?_
    | with_reducible refine (Moves.fold _ _ _ ?_).behind ?_
    | intro _
    | split
    | ((conv => arg 3; with_reducible whnf); split)))

theorem execSegmentEraseDone_moves (x0 : Bool) (s : State) {t : State} (h : (execSegmentEraseDone x0 s) = .next t) :
    Moves [.trc, .host, .het, .evr, .nor, .out] s t := by
  unfold execSegmentEraseDone at h
  repeat' (first | contradiction | (injection h with h; subst h) | split at h)
  all_goals (repeat' (first
    | with_reducible exact Moves.refl _ _
    | with_reducible assumption
    | extract_lets
    | with_reducible refine Moves.ite ?_ ?_
    | with_reducible refine (State.retireSegment_moves ..).after (by decide) ?_
    | with_reducible refine (State.replyWaiting_moves ..).after (by decide) ?_
    | with_reducible refine (State.modNor_moves _ _ (by intro n; repeat' (first | rfl | extract_lets | split))).after (by decide) ?_
    | with_reducible refine (State.modEvr_moves ..).after (by decide) ?_
    | with_reducible refine (Moves.fold _ _ _ ?_).behind ?_
    | intro _
    | split
    | ((conv => arg 3; with_reducible whnf); split)))

theorem State.pushOwn_moves (s : State) (x1 : BitVec 16) (x2 : List Word) :
    Moves [.evr] s (State.pushOwn s x1 x2) := by
  unfold State.pushOwn
  repeat' (first
    | with_reducible exact Moves.refl _ _
    | with_reducible assumption
    | extract_lets
    | with_reducible refine Moves.ite ?_ ?_
    | with_reducible refine (State.modEvr_moves ..).after (by decide) ?_
    | with_reducible refine (Moves.fold _ _ _ ?_).behind ?_
    | intro _
    | split
    | ((conv => arg 3; with_reducible whnf); split))

theorem State.thawed_moves (s : State) (x1 : ℕ) :
    Moves [.evr] s (State.thawed s x1) := by
  unfold State.thawed
  repeat' (first
    | with_reducible exact Moves.refl _ _
    | with_reducible assumption
    | extract_lets
    | with_reducible refine Moves.ite ?_ ?_
    | with_reducible refine (State.pushOwn_moves ..).after (by decide) ?_
    | with_reducible refine (State.pushLost_moves ..).after (by decide) ?_
    | with_reducible refine (State.modEvr_moves ..).after (by decide) ?_
    | with_reducible refine (Moves.fold _ _ _ ?_).behind ?_
    | intro _
    | split
    | ((conv => arg 3; with_reducible whnf); split))

theorem execFreezeTimeout_moves (s : State) {t : State} (h : (execFreezeTimeout s) = .next t) :
    Moves [.evr] s t := by
  unfold execFreezeTimeout at h
  repeat' (first | contradiction | (injection h with h; subst h) | split at h)
  all_goals (repeat' (first
    | with_reducible exact Moves.refl _ _
    | with_reducible assumption
    | extract_lets
    | with_reducible refine Moves.ite ?_ ?_
    | with_reducible refine (State.thawed_moves ..).after (by decide) ?_
    | with_reducible refine (Moves.fold _ _ _ ?_).behind ?_
    | intro _
    | split
    | ((conv => arg 3; with_reducible whnf); split)))

theorem execRecorderStatus_moves (x0 : Packet) (s : State) {t : State} (h : (execRecorderStatus x0 s) = .next t) :
    Moves [.trc, .host, .het, .evr, .out] s t := by
  unfold execRecorderStatus at h
  repeat' (first | contradiction | (injection h with h; subst h) | split at h)
  all_goals (repeat' (first
    | with_reducible exact Moves.refl _ _
    | with_reducible assumption
    | extract_lets
    | with_reducible refine Moves.ite ?_ ?_
    | with_reducible refine Moves.itePkt ?_ ?_
    | with_reducible refine runPacket_moves (by decide) (fun s => ?_)
    | with_reducible refine (PktRes.report_moves ..).after (by decide) ?_
    | with_reducible refine (Moves.fold _ _ _ ?_).behind ?_
    | intro _
    | split
    | ((conv => arg 3; with_reducible whnf); split)))

theorem opRecorderFreeze_moves (x0 : Packet) (s : State) :
    Moves [.sec, .evr, .nor] s (opRecorderFreeze x0 s).state := by
  unfold opRecorderFreeze
  repeat' (first
    | with_reducible exact Moves.refl _ _
    | with_reducible assumption
    | extract_lets
    | with_reducible refine Moves.ite ?_ ?_
    | with_reducible refine Moves.itePkt ?_ ?_
    | with_reducible refine (PktRes.fail_moves ..).after (by decide) ?_
    | with_reducible refine (State.modEvr_moves ..).after (by decide) ?_
    | with_reducible refine (State.pushOwn_moves ..).after (by decide) ?_
    | with_reducible refine (State.programAll_moves ..).after (by decide) ?_
    | with_reducible refine (State.closeStream_moves ..).after (by decide) ?_
    | with_reducible refine (State.modNor_moves _ _ (by intro n; repeat' (first | rfl | extract_lets | split))).after (by decide) ?_
    | with_reducible refine (Moves.fold _ _ _ ?_).behind ?_
    | intro _
    | split
    | ((conv => arg 3; with_reducible whnf); split))

theorem execRecorderFreeze_moves (x0 : Packet) (s : State) {t : State} (h : (execRecorderFreeze x0 s) = .next t) :
    Moves [.trc, .host, .het, .sec, .evr, .nor, .out] s t := by
  unfold execRecorderFreeze at h
  repeat' (first | contradiction | (injection h with h; subst h) | split at h)
  all_goals (repeat' (first
    | with_reducible exact Moves.refl _ _
    | with_reducible assumption
    | extract_lets
    | with_reducible refine Moves.ite ?_ ?_
    | with_reducible refine Moves.itePkt ?_ ?_
    | with_reducible refine (opRecorderFreeze_moves ..).after (by decide) ?_
    | with_reducible refine runPacket_moves (by decide) (fun s => ?_)
    | with_reducible refine (Moves.fold _ _ _ ?_).behind ?_
    | intro _
    | split
    | ((conv => arg 3; with_reducible whnf); split)))

theorem opRecorderThaw_moves (x0 : Packet) (s : State) :
    Moves [.evr] s (opRecorderThaw x0 s).state := by
  unfold opRecorderThaw
  repeat' (first
    | with_reducible exact Moves.refl _ _
    | with_reducible assumption
    | extract_lets
    | with_reducible refine Moves.ite ?_ ?_
    | with_reducible refine Moves.itePkt ?_ ?_
    | with_reducible refine (State.thawed_moves ..).after (by decide) ?_
    | with_reducible refine (State.modEvr_moves ..).after (by decide) ?_
    | with_reducible refine (Moves.fold _ _ _ ?_).behind ?_
    | intro _
    | split
    | ((conv => arg 3; with_reducible whnf); split))

theorem execRecorderThaw_moves (x0 : Packet) (s : State) {t : State} (h : (execRecorderThaw x0 s) = .next t) :
    Moves [.trc, .host, .het, .evr, .out] s t := by
  unfold execRecorderThaw at h
  repeat' (first | contradiction | (injection h with h; subst h) | split at h)
  all_goals (repeat' (first
    | with_reducible exact Moves.refl _ _
    | with_reducible assumption
    | extract_lets
    | with_reducible refine Moves.ite ?_ ?_
    | with_reducible refine Moves.itePkt ?_ ?_
    | with_reducible refine (opRecorderThaw_moves ..).after (by decide) ?_
    | with_reducible refine runPacket_moves (by decide) (fun s => ?_)
    | with_reducible refine (Moves.fold _ _ _ ?_).behind ?_
    | intro _
    | split
    | ((conv => arg 3; with_reducible whnf); split)))

theorem opRecorderRead_moves (x0 : Packet) (s : State) :
    Moves [] s (opRecorderRead x0 s).state := by
  unfold opRecorderRead
  repeat' (first
    | with_reducible exact Moves.refl _ _
    | with_reducible assumption
    | extract_lets
    | with_reducible refine Moves.ite ?_ ?_
    | with_reducible refine Moves.itePkt ?_ ?_
    | with_reducible refine (Moves.fold _ _ _ ?_).behind ?_
    | intro _
    | split
    | ((conv => arg 3; with_reducible whnf); split))

theorem execRecorderRead_moves (x0 : Packet) (s : State) {t : State} (h : (execRecorderRead x0 s) = .next t) :
    Moves [.trc, .host, .het, .evr, .out] s t := by
  unfold execRecorderRead at h
  repeat' (first | contradiction | (injection h with h; subst h) | split at h)
  all_goals (repeat' (first
    | with_reducible exact Moves.refl _ _
    | with_reducible assumption
    | extract_lets
    | with_reducible refine Moves.ite ?_ ?_
    | with_reducible refine Moves.itePkt ?_ ?_
    | with_reducible refine (opRecorderRead_moves ..).after (by decide) ?_
    | with_reducible refine runPacket_moves (by decide) (fun s => ?_)
    | with_reducible refine (Moves.fold _ _ _ ?_).behind ?_
    | intro _
    | split
    | ((conv => arg 3; with_reducible whnf); split)))

theorem opRecorderNote_moves (x0 : Packet) (s : State) :
    Moves [.trc, .evr] s (opRecorderNote x0 s).state := by
  unfold opRecorderNote
  repeat' (first
    | with_reducible exact Moves.refl _ _
    | with_reducible assumption
    | extract_lets
    | with_reducible refine Moves.ite ?_ ?_
    | with_reducible refine Moves.itePkt ?_ ?_
    | with_reducible refine (State.record_moves ..).after (by decide) ?_
    | with_reducible refine (Moves.fold _ _ _ ?_).behind ?_
    | intro _
    | split
    | ((conv => arg 3; with_reducible whnf); split))

theorem execRecorderNote_moves (x0 : Packet) (s : State) {t : State} (h : (execRecorderNote x0 s) = .next t) :
    Moves [.trc, .host, .het, .evr, .out] s t := by
  unfold execRecorderNote at h
  repeat' (first | contradiction | (injection h with h; subst h) | split at h)
  all_goals (repeat' (first
    | with_reducible exact Moves.refl _ _
    | with_reducible assumption
    | extract_lets
    | with_reducible refine Moves.ite ?_ ?_
    | with_reducible refine Moves.itePkt ?_ ?_
    | with_reducible refine (opRecorderNote_moves ..).after (by decide) ?_
    | with_reducible refine runPacket_moves (by decide) (fun s => ?_)
    | with_reducible refine (Moves.fold _ _ _ ?_).behind ?_
    | intro _
    | split
    | ((conv => arg 3; with_reducible whnf); split)))

end Sys2Proof.Machine
end

