-- ==== Sys2Proof/Laws/MovesAdmin.lean ====
section
/-! SUPPORT. What each operation and each command of Machine/Admin.lean can touch. -/

namespace Sys2Proof.Machine
open Sys2Proof
set_option linter.all false
set_option Elab.async false

theorem AdmRes.fail_moves (s : State) (x1 : NvStatus) :
    Moves [] s (AdmRes.fail s x1).state := by
  unfold AdmRes.fail
  repeat' (first
    | with_reducible exact Moves.refl _ _
    | with_reducible assumption
    | extract_lets
    | with_reducible refine Moves.ite ?_ ?_
    | with_reducible refine Moves.iteAdm ?_ ?_
    | with_reducible refine (Moves.fold _ _ _ ?_).behind ?_
    | intro _
    | split
    | ((conv => arg 3; with_reducible whnf); split))

theorem State.takeAdmin_moves (s : State) (x1 : Fn) :
    Moves [.host] s (State.takeAdmin s x1) := by
  unfold State.takeAdmin
  repeat' (first
    | with_reducible exact Moves.refl _ _
    | with_reducible assumption
    | extract_lets
    | with_reducible refine Moves.ite ?_ ?_
    | with_reducible refine (State.modFn_moves ..).after (by decide) ?_
    | with_reducible refine (Moves.fold _ _ _ ?_).behind ?_
    | intro _
    | split
    | ((conv => arg 3; with_reducible whnf); split))

theorem State.finishAdmin_moves (s : State) (x1 : AdmReq) (x2 : NvStatus) (x3 : Word) (x4 : List Word) :
    Moves [.trc, .host, .evr, .out] s (State.finishAdmin s x1 x2 x3 x4) := by
  unfold State.finishAdmin
  repeat' (first
    | with_reducible exact Moves.refl _ _
    | with_reducible assumption
    | extract_lets
    | with_reducible refine Moves.ite ?_ ?_
    | with_reducible refine (State.logError_moves ..).after (by decide) ?_
    | with_reducible refine (State.answerAdmin_moves ..).after (by decide) ?_
    | with_reducible refine (Moves.fold _ _ _ ?_).behind ?_
    | intro _
    | split
    | ((conv => arg 3; with_reducible whnf); split))

theorem State.admin_moves {m : List Part} {s : State} {q : AdmReq} {x1 x2 x3 : Bool} {body : State → AdmRes}
    (hc : covers [.trc, .host, .evr, .out] m = true) (hb : ∀ s, Moves m s (body s).state) {t : State} (h : s.admin q x1 x2 x3 body = .next t) :
    Moves m s t := by
  have hf : ∀ s q st d w, Moves m s (State.finishAdmin s q st d w) := fun s q st d w =>
    ((State.finishAdmin_moves ..).widen (by decide : _ = true) : Moves [.trc, .host, .evr, .out] s _).widen hc
  have h1 : Moves m s (s.takeAdmin q.fn) := ((State.takeAdmin_moves ..).widen (by decide : _ = true) : Moves [.trc, .host, .evr, .out] s _).widen hc
  have hr : Moves m s (s.refuseMi q 0x04) := ((State.refuseMi_moves ..).widen (by decide : _ = true) : Moves [.trc, .host, .evr, .out] s _).widen hc
  unfold State.admin at h
  extract_lets x s1 r at h
  have h2 : Moves m s s1 := Moves.ite (.refl m s) h1
  split at h
  · injection h with h; subst h; exact hr
  · split at h
    · injection h with h; subst h; exact .refl m s
    · split at h
      · injection h with h; subst h; exact h2.trans (hf ..)
      · injection h with h; subst h
        split
        · exact (h2.trans (hb _)).trans (hf ..)
        · exact h2.trans (hb _)

/-- A command of queues alone: refused over NVMe-MI, else as `State.admin_moves`. -/
theorem State.adminOwn_moves {m : List Part} {s : State} {q : AdmReq} {x1 x2 x3 : Bool} {body : State → AdmRes}
    (hc : covers [.trc, .host, .evr, .out] m = true) (hb : ∀ s, Moves m s (body s).state) {t : State}
    (h : s.adminOwn q x1 x2 x3 body = .next t) : Moves m s t := by
  unfold State.adminOwn at h
  split at h
  · injection h with h; subst h
    exact ((State.refuseMi_moves ..).widen (by decide : _ = true) : Moves [.trc, .host, .evr, .out] s _).widen hc
  · exact State.admin_moves hc hb h

theorem execInvalidOpcode_moves (x0 : AdmReq) (x1 : BitVec 8) (s : State) {t : State} (h : (execInvalidOpcode x0 x1 s) = .next t) :
    Moves [.trc, .host, .evr, .out] s t := by
  unfold execInvalidOpcode at h
  first
  | refine State.admin_moves (by decide) (fun s => ?_) h
  | refine State.adminOwn_moves (by decide) (fun s => ?_) h
  | (split at h
     (injection h with h; subst h; exact Moves.refl _ _)
     first | refine State.admin_moves (by decide) (fun s => ?_) h | refine State.adminOwn_moves (by decide) (fun s => ?_) h)
  all_goals (repeat' (first
    | with_reducible exact Moves.refl _ _
    | with_reducible assumption
    | extract_lets
    | with_reducible refine Moves.ite ?_ ?_
    | with_reducible refine Moves.iteAdm ?_ ?_
    | with_reducible refine (AdmRes.fail_moves ..).after (by decide) ?_
    | with_reducible refine (Moves.fold _ _ _ ?_).behind ?_
    | intro _
    | split
    | ((conv => arg 3; with_reducible whnf); split)))

theorem execCreateIoCq_moves (x0 : AdmReq) (x1 : NewCq) (s : State) {t : State} (h : (execCreateIoCq x0 x1 s) = .next t) :
    Moves [.trc, .host, .evr, .out] s t := by
  unfold execCreateIoCq at h
  first
  | refine State.admin_moves (by decide) (fun s => ?_) h
  | refine State.adminOwn_moves (by decide) (fun s => ?_) h
  | (split at h
     (injection h with h; subst h; exact Moves.refl _ _)
     first | refine State.admin_moves (by decide) (fun s => ?_) h | refine State.adminOwn_moves (by decide) (fun s => ?_) h)
  all_goals (repeat' (first
    | with_reducible exact Moves.refl _ _
    | with_reducible assumption
    | extract_lets
    | with_reducible refine Moves.ite ?_ ?_
    | with_reducible refine Moves.iteAdm ?_ ?_
    | with_reducible refine (AdmRes.fail_moves ..).after (by decide) ?_
    | with_reducible refine (State.modFn_moves ..).after (by decide) ?_
    | with_reducible refine (Moves.fold _ _ _ ?_).behind ?_
    | intro _
    | split
    | ((conv => arg 3; with_reducible whnf); split)))

theorem execCreateIoSq_moves (x0 : AdmReq) (x1 : NewSq) (s : State) {t : State} (h : (execCreateIoSq x0 x1 s) = .next t) :
    Moves [.trc, .host, .evr, .out] s t := by
  unfold execCreateIoSq at h
  first
  | refine State.admin_moves (by decide) (fun s => ?_) h
  | refine State.adminOwn_moves (by decide) (fun s => ?_) h
  | (split at h
     (injection h with h; subst h; exact Moves.refl _ _)
     first | refine State.admin_moves (by decide) (fun s => ?_) h | refine State.adminOwn_moves (by decide) (fun s => ?_) h)
  all_goals (repeat' (first
    | with_reducible exact Moves.refl _ _
    | with_reducible assumption
    | extract_lets
    | with_reducible refine Moves.ite ?_ ?_
    | with_reducible refine Moves.iteAdm ?_ ?_
    | with_reducible refine (AdmRes.fail_moves ..).after (by decide) ?_
    | with_reducible refine (State.modFn_moves ..).after (by decide) ?_
    | with_reducible refine (Moves.fold _ _ _ ?_).behind ?_
    | intro _
    | split
    | ((conv => arg 3; with_reducible whnf); split)))

theorem execDeleteIoCq_moves (x0 : AdmReq) (x1 : BitVec 16) (s : State) {t : State} (h : (execDeleteIoCq x0 x1 s) = .next t) :
    Moves [.trc, .host, .evr, .out] s t := by
  unfold execDeleteIoCq at h
  first
  | refine State.admin_moves (by decide) (fun s => ?_) h
  | refine State.adminOwn_moves (by decide) (fun s => ?_) h
  | (split at h
     (injection h with h; subst h; exact Moves.refl _ _)
     first | refine State.admin_moves (by decide) (fun s => ?_) h | refine State.adminOwn_moves (by decide) (fun s => ?_) h)
  all_goals (repeat' (first
    | with_reducible exact Moves.refl _ _
    | with_reducible assumption
    | extract_lets
    | with_reducible refine Moves.ite ?_ ?_
    | with_reducible refine Moves.iteAdm ?_ ?_
    | with_reducible refine (AdmRes.fail_moves ..).after (by decide) ?_
    | with_reducible refine (State.modFn_moves ..).after (by decide) ?_
    | with_reducible refine (Moves.fold _ _ _ ?_).behind ?_
    | intro _
    | split
    | ((conv => arg 3; with_reducible whnf); split)))

theorem State.abortCtx_moves (s : State) (x1 : ℕ) (x2 : NvStatus) :
    Moves [.q] s (State.abortCtx s x1 x2) := by
  unfold State.abortCtx
  repeat' (first
    | with_reducible exact Moves.refl _ _
    | with_reducible assumption
    | extract_lets
    | with_reducible refine Moves.ite ?_ ?_
    | with_reducible refine (State.modCtx_moves ..).after (by decide) ?_
    | with_reducible refine (Moves.fold _ _ _ ?_).behind ?_
    | intro _
    | split
    | ((conv => arg 3; with_reducible whnf); split))

theorem execDeleteIoSq_moves (x0 : AdmReq) (x1 : BitVec 16) (s : State) {t : State} (h : (execDeleteIoSq x0 x1 s) = .next t) :
    Moves [.trc, .host, .q, .evr, .out] s t := by
  unfold execDeleteIoSq at h
  first
  | refine State.admin_moves (by decide) (fun s => ?_) h
  | refine State.adminOwn_moves (by decide) (fun s => ?_) h
  | (split at h
     (injection h with h; subst h; exact Moves.refl _ _)
     first | refine State.admin_moves (by decide) (fun s => ?_) h | refine State.adminOwn_moves (by decide) (fun s => ?_) h)
  all_goals (repeat' (first
    | with_reducible exact Moves.refl _ _
    | with_reducible assumption
    | extract_lets
    | with_reducible refine Moves.ite ?_ ?_
    | with_reducible refine Moves.iteAdm ?_ ?_
    | with_reducible refine (State.abortCtx_moves ..).after (by decide) ?_
    | with_reducible refine (AdmRes.fail_moves ..).after (by decide) ?_
    | with_reducible refine (State.settleDeletes_moves ..).after (by decide) ?_
    | with_reducible refine (State.modFn_moves ..).after (by decide) ?_
    | with_reducible refine (Moves.fold _ _ _ ?_).behind ?_
    | intro _
    | split
    | ((conv => arg 3; with_reducible whnf); split)))

theorem execAbort_moves (x0 : AdmReq) (x1 : BitVec 16) (x2 : BitVec 16) (s : State) {t : State} (h : (execAbort x0 x1 x2 s) = .next t) :
    Moves [.trc, .host, .q, .evr, .out] s t := by
  unfold execAbort at h
  first
  | refine State.admin_moves (by decide) (fun s => ?_) h
  | refine State.adminOwn_moves (by decide) (fun s => ?_) h
  | (split at h
     (injection h with h; subst h; exact Moves.refl _ _)
     first | refine State.admin_moves (by decide) (fun s => ?_) h | refine State.adminOwn_moves (by decide) (fun s => ?_) h)
  all_goals (repeat' (first
    | with_reducible exact Moves.refl _ _
    | with_reducible assumption
    | extract_lets
    | with_reducible refine Moves.ite ?_ ?_
    | with_reducible refine Moves.iteAdm ?_ ?_
    | with_reducible refine (State.abortCtx_moves ..).after (by decide) ?_
    | with_reducible refine (State.postAdmin_moves ..).after (by decide) ?_
    | with_reducible refine (State.modFn_moves ..).after (by decide) ?_
    | with_reducible refine (Moves.fold _ _ _ ?_).behind ?_
    | intro _
    | split
    | ((conv => arg 3; with_reducible whnf); split)))

theorem execAsynchronousEventRequest_moves (x0 : AdmReq) (s : State) {t : State} (h : (execAsynchronousEventRequest x0 s) = .next t) :
    Moves [.trc, .host, .evr, .out] s t := by
  unfold execAsynchronousEventRequest at h
  first
  | refine State.admin_moves (by decide) (fun s => ?_) h
  | refine State.adminOwn_moves (by decide) (fun s => ?_) h
  | (split at h
     (injection h with h; subst h; exact Moves.refl _ _)
     first | refine State.admin_moves (by decide) (fun s => ?_) h | refine State.adminOwn_moves (by decide) (fun s => ?_) h)
  all_goals (repeat' (first
    | with_reducible exact Moves.refl _ _
    | with_reducible assumption
    | extract_lets
    | with_reducible refine Moves.ite ?_ ?_
    | with_reducible refine Moves.iteAdm ?_ ?_
    | with_reducible refine (AdmRes.fail_moves ..).after (by decide) ?_
    | with_reducible refine (State.deliverAsync_moves ..).after (by decide) ?_
    | with_reducible refine (State.modFn_moves ..).after (by decide) ?_
    | with_reducible refine (Moves.fold _ _ _ ?_).behind ?_
    | intro _
    | split
    | ((conv => arg 3; with_reducible whnf); split)))

theorem execKeepAlive_moves (x0 : AdmReq) (s : State) {t : State} (h : (execKeepAlive x0 s) = .next t) :
    Moves [.trc, .host, .evr, .out] s t := by
  unfold execKeepAlive at h
  first
  | refine State.admin_moves (by decide) (fun s => ?_) h
  | refine State.adminOwn_moves (by decide) (fun s => ?_) h
  | (split at h
     (injection h with h; subst h; exact Moves.refl _ _)
     first | refine State.admin_moves (by decide) (fun s => ?_) h | refine State.adminOwn_moves (by decide) (fun s => ?_) h)
  all_goals (repeat' (first
    | with_reducible exact Moves.refl _ _
    | with_reducible assumption
    | extract_lets
    | with_reducible refine Moves.ite ?_ ?_
    | with_reducible refine Moves.iteAdm ?_ ?_
    | with_reducible refine (State.modFn_moves ..).after (by decide) ?_
    | with_reducible refine (Moves.fold _ _ _ ?_).behind ?_
    | intro _
    | split
    | ((conv => arg 3; with_reducible whnf); split)))

theorem execSetFeatures_moves (x0 : AdmReq) (x1 : BitVec 8) (x2 : Bool) (x3 : Word) (s : State) {t : State} (h : (execSetFeatures x0 x1 x2 x3 s) = .next t) :
    Moves [.trc, .host, .evr, .nor, .out] s t := by
  unfold execSetFeatures at h
  first
  | refine State.admin_moves (by decide) (fun s => ?_) h
  | refine State.adminOwn_moves (by decide) (fun s => ?_) h
  | (split at h
     (injection h with h; subst h; exact Moves.refl _ _)
     first | refine State.admin_moves (by decide) (fun s => ?_) h | refine State.adminOwn_moves (by decide) (fun s => ?_) h)
  all_goals (repeat' (first
    | with_reducible exact Moves.refl _ _
    | with_reducible assumption
    | extract_lets
    | with_reducible refine Moves.ite ?_ ?_
    | with_reducible refine Moves.iteAdm ?_ ?_
    | with_reducible refine (AdmRes.fail_moves ..).after (by decide) ?_
    | with_reducible refine (State.modNor_moves _ _ (by intro n; repeat' (first | rfl | extract_lets | split))).after (by decide) ?_
    | with_reducible refine (State.modFn_moves ..).after (by decide) ?_
    | with_reducible refine (Moves.fold _ _ _ ?_).behind ?_
    | intro _
    | split
    | ((conv => arg 3; with_reducible whnf); split)))

theorem execGetFeatures_moves (x0 : AdmReq) (x1 : BitVec 8) (s : State) {t : State} (h : (execGetFeatures x0 x1 s) = .next t) :
    Moves [.trc, .host, .evr, .out] s t := by
  unfold execGetFeatures at h
  first
  | refine State.admin_moves (by decide) (fun s => ?_) h
  | refine State.adminOwn_moves (by decide) (fun s => ?_) h
  | (split at h
     (injection h with h; subst h; exact Moves.refl _ _)
     first | refine State.admin_moves (by decide) (fun s => ?_) h | refine State.adminOwn_moves (by decide) (fun s => ?_) h)
  all_goals (repeat' (first
    | with_reducible exact Moves.refl _ _
    | with_reducible assumption
    | extract_lets
    | with_reducible refine Moves.ite ?_ ?_
    | with_reducible refine Moves.iteAdm ?_ ?_
    | with_reducible refine (AdmRes.fail_moves ..).after (by decide) ?_
    | with_reducible refine (Moves.fold _ _ _ ?_).behind ?_
    | intro _
    | split
    | ((conv => arg 3; with_reducible whnf); split)))

theorem execIdentify_moves (x0 : AdmReq) (x1 : IdentifyReq) (s : State) {t : State} (h : (execIdentify x0 x1 s) = .next t) :
    Moves [.trc, .host, .evr, .out] s t := by
  unfold execIdentify at h
  refine State.admin_moves (by decide) (fun s => ?_) h
  extract_lets nsid mine all ns attached nsPage
  have hn : ∀ o f, (nsPage o f).state = s := by
    intro o f
    simp only [nsPage]
    split
    · rfl
    · split <;> rfl
  split <;> first | exact .refl _ s | (rw [hn]; exact .refl _ s)

theorem State.logRead_moves (s : State) (x1 : Fn) (x2 : ℕ) (x3 : ℕ) :
    Moves [.trc, .host, .evr, .out] s (State.logRead s x1 x2 x3) := by
  unfold State.logRead
  repeat' (first
    | with_reducible exact Moves.refl _ _
    | with_reducible assumption
    | extract_lets
    | with_reducible refine Moves.ite ?_ ?_
    | with_reducible refine (State.deliverAsync_moves ..).after (by decide) ?_
    | with_reducible refine (State.modFn_moves ..).after (by decide) ?_
    | with_reducible refine (Moves.fold _ _ _ ?_).behind ?_
    | intro _
    | split
    | ((conv => arg 3; with_reducible whnf); split))

theorem execGetLogPage_moves (x0 : AdmReq) (x1 : LogReq) (s : State) {t : State} (h : (execGetLogPage x0 x1 s) = .next t) :
    Moves [.trc, .host, .evr, .out] s t := by
  unfold execGetLogPage at h
  first
  | refine State.admin_moves (by decide) (fun s => ?_) h
  | refine State.adminOwn_moves (by decide) (fun s => ?_) h
  | (split at h
     (injection h with h; subst h; exact Moves.refl _ _)
     first | refine State.admin_moves (by decide) (fun s => ?_) h | refine State.adminOwn_moves (by decide) (fun s => ?_) h)
  all_goals (repeat' (first
    | with_reducible exact Moves.refl _ _
    | with_reducible assumption
    | extract_lets
    | with_reducible refine Moves.ite ?_ ?_
    | with_reducible refine Moves.iteAdm ?_ ?_
    | with_reducible refine (State.logRead_moves ..).after (by decide) ?_
    | with_reducible refine (AdmRes.fail_moves ..).after (by decide) ?_
    | with_reducible refine (Moves.fold _ _ _ ?_).behind ?_
    | intro _
    | split
    | ((conv => arg 3; with_reducible whnf); split)))

theorem State.setNamespaces_moves (s : State) (x1 : List Namespace → List Namespace) :
    Moves [.host, .nor] s (State.setNamespaces s x1) := by
  unfold State.setNamespaces
  repeat' (first
    | with_reducible exact Moves.refl _ _
    | with_reducible assumption
    | extract_lets
    | with_reducible refine Moves.ite ?_ ?_
    | with_reducible refine (State.modNor_moves _ _ (by intro n; repeat' (first | rfl | extract_lets | split))).after (by decide) ?_
    | with_reducible refine (State.modHost_moves ..).after (by decide) ?_
    | with_reducible refine (Moves.fold _ _ _ ?_).behind ?_
    | intro _
    | split
    | ((conv => arg 3; with_reducible whnf); split))

theorem State.setKey_moves (s : State) (x1 : Nat) (x2 : Option (BitVec 512)) :
    Moves [.sec, .nor] s (State.setKey s x1 x2) := by
  unfold State.setKey
  repeat' (first
    | with_reducible exact Moves.refl _ _
    | with_reducible assumption
    | extract_lets
    | with_reducible refine Moves.ite ?_ ?_
    | with_reducible refine (State.modSec_moves ..).after (by decide) ?_
    | with_reducible refine (State.modNor_moves _ _ (by intro n; repeat' (first | rfl | extract_lets | split))).after (by decide) ?_
    | with_reducible refine (Moves.fold _ _ _ ?_).behind ?_
    | intro _
    | split
    | ((conv => arg 3; with_reducible whnf); split))

theorem State.newKey_moves (s : State) (x1 : ℕ) :
    Moves [.host, .sec, .nor] s (State.newKey s x1) := by
  unfold State.newKey
  repeat' (first
    | with_reducible exact Moves.refl _ _
    | with_reducible assumption
    | extract_lets
    | with_reducible refine Moves.ite ?_ ?_
    | with_reducible refine (State.setKey_moves ..).after (by decide) ?_
    | with_reducible refine (State.setNamespaces_moves ..).after (by decide) ?_
    | with_reducible refine (State.drbgNext_moves ..).after (by decide) ?_
    | with_reducible refine (Moves.fold _ _ _ ?_).behind ?_
    | intro _
    | split
    | ((conv => arg 3; with_reducible whnf); split)
    | with_reducible refine Moves.pair2 (by assumption) ?_)

theorem State.nsChanged_moves (s : State) (x1 : BitVec 16) (x2 : ℕ) :
    Moves [.trc, .host, .sec, .evr, .out] s (State.nsChanged s x1 x2) := by
  unfold State.nsChanged
  repeat' (first
    | with_reducible exact Moves.refl _ _
    | with_reducible assumption
    | extract_lets
    | with_reducible refine Moves.ite ?_ ?_
    | with_reducible refine (State.healthChange_moves ..).after (by decide) ?_
    | with_reducible refine (State.resynch_moves ..).after (by decide) ?_
    | with_reducible refine (State.raiseAsync_moves ..).after (by decide) ?_
    | with_reducible refine (State.modFn_moves ..).after (by decide) ?_
    | with_reducible refine (Moves.fold _ _ _ ?_).behind ?_
    | intro _
    | split
    | ((conv => arg 3; with_reducible whnf); split))

theorem State.endReaching_moves (s : State) (x1 : BitVec 16) :
    Moves [.trc, .q, .evr] s (State.endReaching s x1) := by
  unfold State.endReaching
  repeat' (first
    | with_reducible exact Moves.refl _ _
    | with_reducible assumption
    | extract_lets
    | with_reducible refine Moves.ite ?_ ?_
    | with_reducible refine (State.endContracts_moves ..).after (by decide) ?_
    | with_reducible refine (Moves.fold _ _ _ ?_).behind ?_
    | intro _
    | split
    | ((conv => arg 3; with_reducible whnf); split))

theorem execNamespaceCreate_moves (x0 : AdmReq) (x1 : NsCreate) (s : State) {t : State} (h : (execNamespaceCreate x0 x1 s) = .next t) :
    Moves [.trc, .host, .sec, .evr, .nor, .out] s t := by
  unfold execNamespaceCreate at h
  refine State.adminOwn_moves (by decide) (fun s => ?_) h
  extract_lets zoned count set_
  split
  · exact .refl _ s
  · exact .refl _ s
  · with_reducible refine Moves.iteAdm (.refl _ s) ?_
    with_reducible refine Moves.iteAdm (.refl _ s) ?_
    with_reducible refine Moves.iteAdm (.refl _ s) ?_
    extract_lets base made
    clear_value made
    cases made with
    | none => exact .refl _ s
    | some m =>
      have hd : Moves [.trc, .host, .sec, .evr, .nor, .out] s s.drbgNext.2 := (State.drbgNext_moves ..).widen (by decide)
      revert hd
      generalize s.drbgNext = r
      obtain ⟨k, s1⟩ := r
      intro hd
      dsimp only
      with_reducible refine (State.setKey_moves ..).after (by decide) ?_
      with_reducible refine (State.setNamespaces_moves ..).after (by decide) ?_
      exact hd

theorem State.clearIndir_moves (s : State) (x1 : Nat) :
    Moves [.media] s (State.clearIndir s x1) := by
  unfold State.clearIndir
  repeat' (first
    | with_reducible exact Moves.refl _ _
    | with_reducible assumption
    | extract_lets
    | with_reducible refine Moves.ite ?_ ?_
    | with_reducible refine (State.modMedia_moves ..).after (by decide) ?_
    | with_reducible refine (Moves.fold _ _ _ ?_).behind ?_
    | intro _
    | split
    | ((conv => arg 3; with_reducible whnf); split))

theorem State.dropWrites_moves (s : State) (x1 : Nat) :
    Moves [.q] s (State.dropWrites s x1) := by
  unfold State.dropWrites
  repeat' (first
    | with_reducible exact Moves.refl _ _
    | with_reducible assumption
    | extract_lets
    | with_reducible refine Moves.ite ?_ ?_
    | with_reducible refine (State.modQ_moves ..).after (by decide) ?_
    | with_reducible refine (State.modView_moves ..).after (by decide) ?_
    | with_reducible refine (Moves.fold _ _ _ ?_).behind ?_
    | intro _
    | split
    | ((conv => arg 3; with_reducible whnf); split))

theorem State.emptyNamespace_moves (s : State) (x1 : Namespace) :
    Moves [.free, .slice, .lane, .pool, .trc, .media, .host, .q, .evr, .nor, .out, .recv, .zdc, .det, .wr, .headSrv, .map] s (State.emptyNamespace s x1) := by
  unfold State.emptyNamespace
  repeat' (first
    | with_reducible exact Moves.refl _ _
    | with_reducible assumption
    | extract_lets
    | with_reducible refine Moves.ite ?_ ?_
    | with_reducible refine (State.resetZone_moves ..).after (by decide) ?_
    | with_reducible refine (State.clearIndir_moves ..).after (by decide) ?_
    | with_reducible refine (Moves.fold _ _ _ ?_).behind ?_
    | intro _
    | split
    | ((conv => arg 3; with_reducible whnf); split))

theorem State.deleteNamespace_moves (s : State) (x1 : Namespace) :
    Moves [.free, .slice, .lane, .pool, .trc, .media, .host, .q, .sec, .evr, .nor, .out, .recv, .zdc, .det, .wr, .headSrv, .map] s (State.deleteNamespace s x1) := by
  unfold State.deleteNamespace
  repeat' (first
    | with_reducible exact Moves.refl _ _
    | with_reducible assumption
    | extract_lets
    | with_reducible refine Moves.ite ?_ ?_
    | with_reducible refine (State.endReaching_moves ..).after (by decide) ?_
    | with_reducible refine (State.emptyNamespace_moves ..).after (by decide) ?_
    | with_reducible refine (State.setKey_moves ..).after (by decide) ?_
    | with_reducible refine (State.setNamespaces_moves ..).after (by decide) ?_
    | with_reducible refine (State.nsChanged_moves ..).after (by decide) ?_
    | with_reducible refine (Moves.fold _ _ _ ?_).behind ?_
    | intro _
    | split
    | ((conv => arg 3; with_reducible whnf); split))

theorem execNamespaceDelete_moves (x0 : AdmReq) (x1 : Word) (s : State) {t : State} (h : (execNamespaceDelete x0 x1 s) = .next t) :
    Moves [.free, .slice, .lane, .pool, .trc, .media, .host, .q, .pwr, .sec, .evr, .nor, .out, .recv, .zdc, .det, .wr, .headSrv, .map] s t := by
  unfold execNamespaceDelete at h
  first
  | refine State.admin_moves (by decide) (fun s => ?_) h
  | refine State.adminOwn_moves (by decide) (fun s => ?_) h
  | (split at h
     (injection h with h; subst h; exact Moves.refl _ _)
     first | refine State.admin_moves (by decide) (fun s => ?_) h | refine State.adminOwn_moves (by decide) (fun s => ?_) h)
  all_goals (repeat' (first
    | with_reducible exact Moves.refl _ _
    | with_reducible assumption
    | extract_lets
    | with_reducible refine Moves.ite ?_ ?_
    | with_reducible refine Moves.iteAdm ?_ ?_
    | with_reducible refine (State.deleteNamespace_moves ..).after (by decide) ?_
    | with_reducible refine (AdmRes.fail_moves ..).after (by decide) ?_
    | with_reducible refine (Moves.fold _ _ _ ?_).behind ?_
    | intro _
    | split
    | ((conv => arg 3; with_reducible whnf); split)))

theorem execNamespaceAttach_moves (x0 : AdmReq) (x1 : Word) (x2 : BitVec 16) (s : State) {t : State} (h : (execNamespaceAttach x0 x1 x2 s) = .next t) :
    Moves [.trc, .host, .sec, .evr, .nor, .out] s t := by
  unfold execNamespaceAttach at h
  first
  | refine State.admin_moves (by decide) (fun s => ?_) h
  | refine State.adminOwn_moves (by decide) (fun s => ?_) h
  | (split at h
     (injection h with h; subst h; exact Moves.refl _ _)
     first | refine State.admin_moves (by decide) (fun s => ?_) h | refine State.adminOwn_moves (by decide) (fun s => ?_) h)
  all_goals (repeat' (first
    | with_reducible exact Moves.refl _ _
    | with_reducible assumption
    | extract_lets
    | with_reducible refine Moves.ite ?_ ?_
    | with_reducible refine Moves.iteAdm ?_ ?_
    | with_reducible refine (State.nsChanged_moves ..).after (by decide) ?_
    | with_reducible refine (State.setNamespaces_moves ..).after (by decide) ?_
    | with_reducible refine (AdmRes.fail_moves ..).after (by decide) ?_
    | with_reducible refine (Moves.fold _ _ _ ?_).behind ?_
    | intro _
    | split
    | ((conv => arg 3; with_reducible whnf); split)))

theorem execNamespaceDetach_moves (x0 : AdmReq) (x1 : Word) (x2 : BitVec 16) (s : State) {t : State} (h : (execNamespaceDetach x0 x1 x2 s) = .next t) :
    Moves [.trc, .host, .q, .sec, .evr, .nor, .out] s t := by
  unfold execNamespaceDetach at h
  first
  | refine State.admin_moves (by decide) (fun s => ?_) h
  | refine State.adminOwn_moves (by decide) (fun s => ?_) h
  | (split at h
     (injection h with h; subst h; exact Moves.refl _ _)
     first | refine State.admin_moves (by decide) (fun s => ?_) h | refine State.adminOwn_moves (by decide) (fun s => ?_) h)
  all_goals (repeat' (first
    | with_reducible exact Moves.refl _ _
    | with_reducible assumption
    | extract_lets
    | with_reducible refine Moves.ite ?_ ?_
    | with_reducible refine Moves.iteAdm ?_ ?_
    | with_reducible refine (State.nsChanged_moves ..).after (by decide) ?_
    | with_reducible refine (State.endReaching_moves ..).after (by decide) ?_
    | with_reducible refine (State.setNamespaces_moves ..).after (by decide) ?_
    | with_reducible refine (AdmRes.fail_moves ..).after (by decide) ?_
    | with_reducible refine (Moves.fold _ _ _ ?_).behind ?_
    | intro _
    | split
    | ((conv => arg 3; with_reducible whnf); split)))

theorem State.formatOne_moves (s : State) (x1 : FormatReq) (x2 : Namespace) :
    Moves [.free, .slice, .lane, .pool, .trc, .media, .host, .q, .sec, .evr, .nor, .out, .recv, .zdc, .det, .wr, .headSrv, .map] s (State.formatOne s x1 x2) := by
  unfold State.formatOne
  repeat' (first
    | with_reducible exact Moves.refl _ _
    | with_reducible assumption
    | extract_lets
    | with_reducible refine Moves.ite ?_ ?_
    | with_reducible refine (State.newKey_moves ..).after (by decide) ?_
    | with_reducible refine (State.emptyNamespace_moves ..).after (by decide) ?_
    | with_reducible refine (State.setNamespaces_moves ..).after (by decide) ?_
    | with_reducible refine (Moves.fold _ _ _ ?_).behind ?_
    | intro _
    | split
    | ((conv => arg 3; with_reducible whnf); split))

theorem execFormatNvm_moves (x0 : AdmReq) (x1 : FormatReq) (s : State) {t : State} (h : (execFormatNvm x0 x1 s) = .next t) :
    Moves [.free, .slice, .lane, .pool, .trc, .media, .host, .q, .pwr, .sec, .evr, .nor, .out, .recv, .zdc, .det, .wr, .headSrv, .map] s t := by
  unfold execFormatNvm at h
  first
  | refine State.admin_moves (by decide) (fun s => ?_) h
  | refine State.adminOwn_moves (by decide) (fun s => ?_) h
  | (split at h
     (injection h with h; subst h; exact Moves.refl _ _)
     first | refine State.admin_moves (by decide) (fun s => ?_) h | refine State.adminOwn_moves (by decide) (fun s => ?_) h)
  all_goals (repeat' (first
    | with_reducible exact Moves.refl _ _
    | with_reducible assumption
    | extract_lets
    | with_reducible refine Moves.ite ?_ ?_
    | with_reducible refine Moves.iteAdm ?_ ?_
    | with_reducible refine (State.formatOne_moves ..).after (by decide) ?_
    | with_reducible refine (AdmRes.fail_moves ..).after (by decide) ?_
    | with_reducible refine (State.applyChanges_moves ..).after (by decide) ?_
    | with_reducible refine (State.modSec_moves ..).after (by decide) ?_
    | with_reducible refine (State.modNor_moves _ _ (by intro n; repeat' (first | rfl | extract_lets | split))).after (by decide) ?_
    | with_reducible refine (Moves.fold _ _ _ ?_).behind ?_
    | intro _
    | split
    | ((conv => arg 3; with_reducible whnf); split)))

theorem State.endFormat_moves (s : State) (x1 : List ℕ) :
    Moves [.host, .sec, .nor] s (State.endFormat s x1) := by
  unfold State.endFormat
  repeat' (first
    | with_reducible exact Moves.refl _ _
    | with_reducible assumption
    | extract_lets
    | with_reducible refine Moves.ite ?_ ?_
    | with_reducible refine (State.setNamespaces_moves ..).after (by decide) ?_
    | with_reducible refine (State.modSec_moves ..).after (by decide) ?_
    | with_reducible refine (State.modNor_moves _ _ (by intro n; repeat' (first | rfl | extract_lets | split))).after (by decide) ?_
    | with_reducible refine (Moves.fold _ _ _ ?_).behind ?_
    | intro _
    | split
    | ((conv => arg 3; with_reducible whnf); split))

theorem execFormatComplete_moves (s : State) {t : State} (h : (execFormatComplete s) = .next t) :
    Moves [.trc, .media, .host, .sec, .evr, .nor, .out, .recv, .zdc, .map] s t := by
  unfold execFormatComplete at h
  repeat' (first | contradiction | (injection h with h; subst h) | split at h)
  all_goals (repeat' (first
    | with_reducible exact Moves.refl _ _
    | with_reducible assumption
    | extract_lets
    | with_reducible refine Moves.ite ?_ ?_
    | with_reducible refine (State.modSec_moves ..).after (by decide) ?_
    | with_reducible refine (State.applyChanges_moves ..).after (by decide) ?_
    | with_reducible refine (State.endFormat_moves ..).after (by decide) ?_
    | with_reducible refine (State.answerAdmin_moves ..).after (by decide) ?_
    | with_reducible refine (Moves.fold _ _ _ ?_).behind ?_
    | intro _
    | split
    | ((conv => arg 3; with_reducible whnf); split)))

theorem State.cryptoErase_moves (s : State) :
    Moves [.free, .slice, .lane, .pool, .trc, .media, .host, .q, .sec, .evr, .nor, .out, .recv, .zdc, .det, .wr, .headSrv, .map] s (State.cryptoErase s) := by
  unfold State.cryptoErase
  repeat' (first
    | with_reducible exact Moves.refl _ _
    | with_reducible assumption
    | extract_lets
    | with_reducible refine Moves.ite ?_ ?_
    | with_reducible refine (State.newKey_moves ..).after (by decide) ?_
    | with_reducible refine (State.dropWrites_moves ..).after (by decide) ?_
    | with_reducible refine (State.resetZone_moves ..).after (by decide) ?_
    | with_reducible refine (State.modMedia_moves ..).after (by decide) ?_
    | with_reducible refine (State.modNor_moves _ _ (by intro n; repeat' (first | rfl | extract_lets | split))).after (by decide) ?_
    | with_reducible refine (State.modRec_moves ..).after (by decide) ?_
    | with_reducible refine (State.modTrc_moves ..).after (by decide) ?_
    | with_reducible refine (State.modQ_moves ..).after (by decide) ?_
    | with_reducible refine (Moves.fold _ _ _ ?_).behind ?_
    | intro _
    | split
    | ((conv => arg 3; with_reducible whnf); split))

theorem State.startSanitise_moves (s : State) (x1 : Bool) (x2 : Bool) :
    Moves [.free, .slice, .lane, .pool, .trc, .media, .host, .q, .sec, .evr, .nor, .out, .recv, .zdc, .det, .wr, .headSrv, .map] s (State.startSanitise s x1 x2) := by
  unfold State.startSanitise
  repeat' (first
    | with_reducible exact Moves.refl _ _
    | with_reducible assumption
    | extract_lets
    | with_reducible refine Moves.ite ?_ ?_
    | with_reducible refine (State.cryptoErase_moves ..).after (by decide) ?_
    | with_reducible refine (State.modSec_moves ..).after (by decide) ?_
    | with_reducible refine (State.modNor_moves _ _ (by intro n; repeat' (first | rfl | extract_lets | split))).after (by decide) ?_
    | with_reducible refine (Moves.fold _ _ _ ?_).behind ?_
    | intro _
    | split
    | ((conv => arg 3; with_reducible whnf); split))

theorem State.sanitize_moves (s : State) (x1 : AdmReq) (x2 : Bool) (x3 : Bool) {t : State} (h : (State.sanitize s x1 x2 x3) = .next t) :
    Moves [.free, .slice, .lane, .pool, .trc, .media, .host, .q, .pwr, .sec, .evr, .nor, .out, .recv, .zdc, .det, .wr, .headSrv, .map] s t := by
  unfold State.sanitize at h
  first
  | refine State.admin_moves (by decide) (fun s => ?_) h
  | refine State.adminOwn_moves (by decide) (fun s => ?_) h
  | (split at h
     (injection h with h; subst h; exact Moves.refl _ _)
     first | refine State.admin_moves (by decide) (fun s => ?_) h | refine State.adminOwn_moves (by decide) (fun s => ?_) h)
  all_goals (repeat' (first
    | with_reducible exact Moves.refl _ _
    | with_reducible assumption
    | extract_lets
    | with_reducible refine Moves.ite ?_ ?_
    | with_reducible refine Moves.iteAdm ?_ ?_
    | with_reducible refine (State.startSanitise_moves ..).after (by decide) ?_
    | with_reducible refine (AdmRes.fail_moves ..).after (by decide) ?_
    | with_reducible refine (Moves.fold _ _ _ ?_).behind ?_
    | intro _
    | split
    | ((conv => arg 3; with_reducible whnf); split)))

theorem execSanitizeCryptoErase_moves (x0 : AdmReq) (x1 : Bool) (s : State) {t : State} (h : (execSanitizeCryptoErase x0 x1 s) = .next t) :
    Moves [.free, .slice, .lane, .pool, .trc, .media, .host, .q, .pwr, .sec, .evr, .nor, .out, .recv, .zdc, .det, .wr, .headSrv, .map] s t := by
  unfold execSanitizeCryptoErase at h
  first
  | exact State.sanitize_moves _ _ _ _ h
  | (split at h
     (injection h with h; subst h; exact Moves.refl _ _)
     exact State.sanitize_moves _ _ _ _ h)

theorem execSanitizeBlockErase_moves (x0 : AdmReq) (x1 : Bool) (s : State) {t : State} (h : (execSanitizeBlockErase x0 x1 s) = .next t) :
    Moves [.free, .slice, .lane, .pool, .trc, .media, .host, .q, .pwr, .sec, .evr, .nor, .out, .recv, .zdc, .det, .wr, .headSrv, .map] s t := by
  unfold execSanitizeBlockErase at h
  first
  | exact State.sanitize_moves _ _ _ _ h
  | (split at h
     (injection h with h; subst h; exact Moves.refl _ _)
     exact State.sanitize_moves _ _ _ _ h)

theorem execSanitizeExitFailureMode_moves (x0 : AdmReq) (s : State) {t : State} (h : (execSanitizeExitFailureMode x0 s) = .next t) :
    Moves [.trc, .host, .sec, .evr, .out] s t := by
  unfold execSanitizeExitFailureMode at h
  first
  | refine State.admin_moves (by decide) (fun s => ?_) h
  | refine State.adminOwn_moves (by decide) (fun s => ?_) h
  | (split at h
     (injection h with h; subst h; exact Moves.refl _ _)
     first | refine State.admin_moves (by decide) (fun s => ?_) h | refine State.adminOwn_moves (by decide) (fun s => ?_) h)
  all_goals (repeat' (first
    | with_reducible exact Moves.refl _ _
    | with_reducible assumption
    | extract_lets
    | with_reducible refine Moves.ite ?_ ?_
    | with_reducible refine Moves.iteAdm ?_ ?_
    | with_reducible refine (AdmRes.fail_moves ..).after (by decide) ?_
    | with_reducible refine (State.modSec_moves ..).after (by decide) ?_
    | with_reducible refine (Moves.fold _ _ _ ?_).behind ?_
    | intro _
    | split
    | ((conv => arg 3; with_reducible whnf); split)))

theorem execSanitizeOverwrite_moves (x0 : AdmReq) (s : State) {t : State} (h : (execSanitizeOverwrite x0 s) = .next t) :
    Moves [.trc, .host, .evr, .out] s t := by
  unfold execSanitizeOverwrite at h
  first
  | refine State.admin_moves (by decide) (fun s => ?_) h
  | refine State.adminOwn_moves (by decide) (fun s => ?_) h
  | (split at h
     (injection h with h; subst h; exact Moves.refl _ _)
     first | refine State.admin_moves (by decide) (fun s => ?_) h | refine State.adminOwn_moves (by decide) (fun s => ?_) h)
  all_goals (repeat' (first
    | with_reducible exact Moves.refl _ _
    | with_reducible assumption
    | extract_lets
    | with_reducible refine Moves.ite ?_ ?_
    | with_reducible refine Moves.iteAdm ?_ ?_
    | with_reducible refine (AdmRes.fail_moves ..).after (by decide) ?_
    | with_reducible refine (Moves.fold _ _ _ ?_).behind ?_
    | intro _
    | split
    | ((conv => arg 3; with_reducible whnf); split)))

theorem execSanitizeComplete_moves (x0 : Bool) (s : State) {t : State} (h : (execSanitizeComplete x0 s) = .next t) :
    Moves [.trc, .host, .sec, .evr, .nor, .out] s t := by
  unfold execSanitizeComplete at h
  repeat' (first | contradiction | (injection h with h; subst h) | split at h)
  all_goals (repeat' (first
    | with_reducible exact Moves.refl _ _
    | with_reducible assumption
    | extract_lets
    | with_reducible refine Moves.ite ?_ ?_
    | with_reducible refine (State.modSec_moves ..).after (by decide) ?_
    | with_reducible refine (State.modNor_moves _ _ (by intro n; repeat' (first | rfl | extract_lets | split))).after (by decide) ?_
    | with_reducible refine (State.raiseAsync_moves ..).after (by decide) ?_
    | with_reducible refine (Moves.fold _ _ _ ?_).behind ?_
    | intro _
    | split
    | ((conv => arg 3; with_reducible whnf); split)))

theorem execDeviceSelfTest_moves (x0 : AdmReq) (x1 : Word) (x2 : Fin 16) (s : State) {t : State} (h : (execDeviceSelfTest x0 x1 x2 s) = .next t) :
    Moves [.trc, .host, .evr, .out] s t := by
  unfold execDeviceSelfTest at h
  first
  | refine State.admin_moves (by decide) (fun s => ?_) h
  | refine State.adminOwn_moves (by decide) (fun s => ?_) h
  | (split at h
     (injection h with h; subst h; exact Moves.refl _ _)
     first | refine State.admin_moves (by decide) (fun s => ?_) h | refine State.adminOwn_moves (by decide) (fun s => ?_) h)
  all_goals (repeat' (first
    | with_reducible exact Moves.refl _ _
    | with_reducible assumption
    | extract_lets
    | with_reducible refine Moves.ite ?_ ?_
    | with_reducible refine Moves.iteAdm ?_ ?_
    | with_reducible refine (AdmRes.fail_moves ..).after (by decide) ?_
    | with_reducible refine (State.modHost_moves ..).after (by decide) ?_
    | with_reducible refine (Moves.fold _ _ _ ?_).behind ?_
    | intro _
    | split
    | ((conv => arg 3; with_reducible whnf); split)))

theorem execVirtualizationManagement_moves (x0 : AdmReq) (x1 : VirtReq) (s : State) {t : State} (h : (execVirtualizationManagement x0 x1 s) = .next t) :
    Moves [.free, .slice, .lane, .pool, .lpe, .trc, .spn, .media, .host, .q, .het, .pwr, .sec, .evr, .nor, .rst, .out, .reel, .links, .recv, .engSrv, .seq, .zdc, .rd, .det, .wr, .headSrv, .map, .freq] s t := by
  unfold execVirtualizationManagement at h
  first
  | refine State.admin_moves (by decide) (fun s => ?_) h
  | refine State.adminOwn_moves (by decide) (fun s => ?_) h
  | (split at h
     (injection h with h; subst h; exact Moves.refl _ _)
     first | refine State.admin_moves (by decide) (fun s => ?_) h | refine State.adminOwn_moves (by decide) (fun s => ?_) h)
  all_goals (repeat' (first
    | with_reducible exact Moves.refl _ _
    | with_reducible assumption
    | extract_lets
    | with_reducible refine Moves.ite ?_ ?_
    | with_reducible refine Moves.iteAdm ?_ ?_
    | with_reducible refine (AdmRes.fail_moves ..).after (by decide) ?_
    | with_reducible refine (State.resetFn_moves ..).after (by decide) ?_
    | with_reducible refine (State.modNor_moves _ _ (by intro n; repeat' (first | rfl | extract_lets | split))).after (by decide) ?_
    | with_reducible refine (State.modFn_moves ..).after (by decide) ?_
    | with_reducible refine (Moves.fold _ _ _ ?_).behind ?_
    | intro _
    | split
    | ((conv => arg 3; with_reducible whnf); split)))

end Sys2Proof.Machine
end

