-- ==== Sys2Proof/Laws/MovesSecurity.lean ====
section
/-! SUPPORT. What each operation and each command of Machine/Security.lean can touch. -/

namespace Sys2Proof.Machine
open Sys2Proof
set_option linter.all false
set_option Elab.async false

theorem State.objFailed_moves (s : State) (x1 : ℕ) :
    Moves [.trc, .sec, .evr] s (State.objFailed s x1) := by
  unfold State.objFailed
  repeat' (first
    | with_reducible exact Moves.refl _ _
    | with_reducible assumption
    | extract_lets
    | with_reducible refine Moves.ite ?_ ?_
    | with_reducible refine (State.saturated_moves ..).after (by decide) ?_
    | with_reducible refine (State.condSec_moves ..).after (by decide) ?_
    | with_reducible refine (State.modSec_moves ..).after (by decide) ?_
    | with_reducible refine (Moves.fold _ _ _ ?_).behind ?_
    | intro _
    | split
    | ((conv => arg 3; with_reducible whnf); split))

theorem State.raiseRoll_moves (s : State) (target : Nat) :
    Moves [.sec, .nor, .fuse] s (s.raiseRoll target) := by
  unfold State.raiseRoll
  split
  · rename_i h
    extract_lets f s1
    have h1 : Moves [.sec, .nor, .fuse] s s1 := {
      same := fun y hy => by cases y <;> first | rfl | exact absurd hy (by decide) | exact fun _ => rfl
      queue := rfl, dram := id, window := id, stored := id, inEffect := fun _ g => g
      raised := Nat.le_of_lt h.1, top := fun _ => h.2
      revoked := by show s.fuse.revoked &&& ~~~s.fuse.revoked = 0; simp
      ident := rfl }
    with_reducible refine (State.modSec_moves ..).after (by decide) ?_
    with_reducible refine (State.modNor_moves _ _ ?_).after (by decide) ?_
    · exact fun _ => rfl
    · exact h1
  · exact .refl _ s

theorem State.advanceAlias_moves (s : State) :
    Moves [.sec, .nor] s (State.advanceAlias s) := by
  unfold State.advanceAlias
  repeat' (first
    | with_reducible exact Moves.refl _ _
    | with_reducible assumption
    | extract_lets
    | with_reducible refine Moves.ite ?_ ?_
    | with_reducible refine (State.modSec_moves ..).after (by decide) ?_
    | with_reducible refine (State.modNor_moves _ _ (by intro n; repeat' (first | rfl | extract_lets | split))).after (by decide) ?_
    | with_reducible refine (Moves.fold _ _ _ ?_).behind ?_
    | intro _
    | split
    | ((conv => arg 3; with_reducible whnf); split))

theorem execFirmwareImageDownload_moves (x0 : AdmReq) (x1 : Download) (s : State) {t : State} (h : (execFirmwareImageDownload x0 x1 s) = .next t) :
    Moves [.trc, .host, .sec, .evr, .out] s t := by
  unfold execFirmwareImageDownload at h
  first
  | refine State.admin_moves (by decide) (fun s => ?_) h
  | (split at h
     (injection h with h; subst h; exact Moves.refl _ _)
     refine State.admin_moves (by decide) (fun s => ?_) h)
  all_goals (repeat' (first
    | with_reducible exact Moves.refl _ _
    | with_reducible assumption
    | extract_lets
    | with_reducible refine Moves.ite ?_ ?_
    | with_reducible refine Moves.iteAdm ?_ ?_
    | with_reducible refine (AdmRes.fail_moves ..).after (by decide) ?_
    | with_reducible refine (State.modSec_moves ..).after (by decide) ?_
    | with_reducible refine (Moves.fold _ _ _ ?_).behind ?_
    | intro _
    | split
    | ((conv => arg 3; with_reducible whnf); split)))

theorem State.startCommit_moves (s : State) (x1 : AdmReq) (x2 : Nat) (x3 : Nat) (x4 : SignedObj) :
    Moves [.sec, .nor] s (State.startCommit s x1 x2 x3 x4) := by
  unfold State.startCommit
  repeat' (first
    | with_reducible exact Moves.refl _ _
    | with_reducible assumption
    | extract_lets
    | with_reducible refine Moves.ite ?_ ?_
    | with_reducible refine (State.modSec_moves ..).after (by decide) ?_
    | with_reducible refine (State.modNor_moves _ _ (by intro n; repeat' (first | rfl | extract_lets | split))).after (by decide) ?_
    | with_reducible refine (Moves.fold _ _ _ ?_).behind ?_
    | intro _
    | split
    | ((conv => arg 3; with_reducible whnf); split))

theorem State.commitImage_moves (s : State) (x1 : AdmReq) (x2 : Fin 8) (x3 : Nat) :
    Moves [.trc, .sec, .evr, .nor] s (State.commitImage s x1 x2 x3).state := by
  unfold State.commitImage
  repeat' (first
    | with_reducible exact Moves.refl _ _
    | with_reducible assumption
    | extract_lets
    | with_reducible refine Moves.ite ?_ ?_
    | with_reducible refine Moves.iteAdm ?_ ?_
    | with_reducible refine (PktRes.fail_moves ..).after (by decide) ?_
    | with_reducible refine (AdmRes.fail_moves ..).after (by decide) ?_
    | with_reducible refine (State.startCommit_moves ..).after (by decide) ?_
    | with_reducible refine (State.objFailed_moves ..).after (by decide) ?_
    | with_reducible refine (Moves.fold _ _ _ ?_).behind ?_
    | intro _
    | split
    | ((conv => arg 3; with_reducible whnf); split))

theorem State.commitPatch_moves (s : State) (x1 : AdmReq) (x2 : SignedObj) :
    Moves [.trc, .host, .sec, .evr, .nor, .out, .seq] s (State.commitPatch s x1 x2) := by
  unfold State.commitPatch
  repeat' (first
    | with_reducible exact Moves.refl _ _
    | with_reducible assumption
    | extract_lets
    | with_reducible refine Moves.ite ?_ ?_
    | with_reducible refine (State.modNor_moves _ _ (by intro n; repeat' (first | rfl | extract_lets | split))).after (by decide) ?_
    | with_reducible refine (State.modSeq_moves ..).after (by decide) ?_
    | with_reducible refine (State.modSec_moves ..).after (by decide) ?_
    | with_reducible refine (State.patchApplied_moves ..).after (by decide) ?_
    | with_reducible refine (Moves.fold _ _ _ ?_).behind ?_
    | intro _
    | split
    | ((conv => arg 3; with_reducible whnf); split))

theorem execFwCommitWriteSlot_moves (x0 : AdmReq) (x1 : Fin 8) (s : State) {t : State} (h : (execFwCommitWriteSlot x0 x1 s) = .next t) :
    Moves [.trc, .host, .sec, .evr, .nor, .out] s t := by
  unfold execFwCommitWriteSlot at h
  first
  | refine State.admin_moves (by decide) (fun s => ?_) h
  | (split at h
     (injection h with h; subst h; exact Moves.refl _ _)
     refine State.admin_moves (by decide) (fun s => ?_) h)
  all_goals (repeat' (first
    | with_reducible exact Moves.refl _ _
    | with_reducible assumption
    | extract_lets
    | with_reducible refine Moves.ite ?_ ?_
    | with_reducible refine Moves.iteAdm ?_ ?_
    | with_reducible refine (State.commitImage_moves ..).after (by decide) ?_
    | with_reducible refine (Moves.fold _ _ _ ?_).behind ?_
    | intro _
    | split
    | ((conv => arg 3; with_reducible whnf); split)))

theorem execFwCommitWriteActivateNext_moves (x0 : AdmReq) (x1 : Fin 8) (s : State) {t : State} (h : (execFwCommitWriteActivateNext x0 x1 s) = .next t) :
    Moves [.trc, .host, .sec, .evr, .nor, .out] s t := by
  unfold execFwCommitWriteActivateNext at h
  first
  | refine State.admin_moves (by decide) (fun s => ?_) h
  | (split at h
     (injection h with h; subst h; exact Moves.refl _ _)
     refine State.admin_moves (by decide) (fun s => ?_) h)
  all_goals (repeat' (first
    | with_reducible exact Moves.refl _ _
    | with_reducible assumption
    | extract_lets
    | with_reducible refine Moves.ite ?_ ?_
    | with_reducible refine Moves.iteAdm ?_ ?_
    | with_reducible refine (State.commitImage_moves ..).after (by decide) ?_
    | with_reducible refine (Moves.fold _ _ _ ?_).behind ?_
    | intro _
    | split
    | ((conv => arg 3; with_reducible whnf); split)))

theorem State.afterCommit_moves (s : State) :
    Moves [.rst] s (State.afterCommit s) := by
  unfold State.afterCommit
  repeat' (first
    | with_reducible exact Moves.refl _ _
    | with_reducible assumption
    | extract_lets
    | with_reducible refine Moves.ite ?_ ?_
    | with_reducible refine (State.modRst_moves ..).after (by decide) ?_
    | with_reducible refine (Moves.fold _ _ _ ?_).behind ?_
    | intro _
    | split
    | ((conv => arg 3; with_reducible whnf); split))

theorem execFwCommitActivateSlot_moves (x0 : AdmReq) (x1 : Fin 8) (s : State) {t : State} (h : (execFwCommitActivateSlot x0 x1 s) = .next t) :
    Moves [.trc, .host, .sec, .evr, .nor, .rst, .out] s t := by
  unfold execFwCommitActivateSlot at h
  split at h
  · injection h with h; subst h; exact Moves.refl _ _
  · refine State.admin_moves (by decide) (fun s => ?_) h
    split
    · exact .refl _ s
    · extract_lets bad
      clear_value bad
      cases bad with
      | none =>
        with_reducible refine (State.afterCommit_moves ..).after (by decide) ?_
        with_reducible refine (State.modNor_moves _ _ ?_).widen (by decide)
        exact fun _ => rfl
      | some st => exact (State.objFailed_moves ..).widen (by decide)

theorem execFwCommitActivateNow_moves (x0 : AdmReq) (x1 : Fin 8) (s : State) {t : State} (h : (execFwCommitActivateNow x0 x1 s) = .next t) :
    Moves [.trc, .host, .sec, .evr, .nor, .out, .seq] s t := by
  unfold execFwCommitActivateNow at h
  first
  | refine State.admin_moves (by decide) (fun s => ?_) h
  | (split at h
     (injection h with h; subst h; exact Moves.refl _ _)
     refine State.admin_moves (by decide) (fun s => ?_) h)
  all_goals (repeat' (first
    | with_reducible exact Moves.refl _ _
    | with_reducible assumption
    | extract_lets
    | with_reducible refine Moves.ite ?_ ?_
    | with_reducible refine Moves.iteAdm ?_ ?_
    | with_reducible refine (State.commitPatch_moves ..).after (by decide) ?_
    | with_reducible refine (State.commitImage_moves ..).after (by decide) ?_
    | with_reducible refine (State.objFailed_moves ..).after (by decide) ?_
    | with_reducible refine (AdmRes.fail_moves ..).after (by decide) ?_
    | with_reducible refine (Moves.fold _ _ _ ?_).behind ?_
    | intro _
    | split
    | ((conv => arg 3; with_reducible whnf); split)))

theorem State.endCommit_moves (s : State) (x1 : Commit) (x2 : NvStatus) :
    Moves [.trc, .host, .sec, .evr, .rst, .out] s (State.endCommit s x1 x2) := by
  unfold State.endCommit
  repeat' (first
    | with_reducible exact Moves.refl _ _
    | with_reducible assumption
    | extract_lets
    | with_reducible refine Moves.ite ?_ ?_
    | with_reducible refine (State.modSec_moves ..).after (by decide) ?_
    | with_reducible refine (State.finishAdmin_moves ..).after (by decide) ?_
    | with_reducible refine (State.afterCommit_moves ..).after (by decide) ?_
    | with_reducible refine (Moves.fold _ _ _ ?_).behind ?_
    | intro _
    | split
    | ((conv => arg 3; with_reducible whnf); split))

theorem State.switchImage_moves (s : State) (x1 : Commit) :
    Moves [.trc, .host, .q, .sec, .evr, .nor, .out, .seq] s (State.switchImage s x1) := by
  unfold State.switchImage
  repeat' (first
    | with_reducible exact Moves.refl _ _
    | with_reducible assumption
    | extract_lets
    | with_reducible refine Moves.ite ?_ ?_
    | with_reducible refine (State.resynch_moves ..).after (by decide) ?_
    | with_reducible refine (State.raiseAsync_moves ..).after (by decide) ?_
    | with_reducible refine (State.modSeq_moves ..).after (by decide) ?_
    | with_reducible refine (State.modSec_moves ..).after (by decide) ?_
    | with_reducible refine (State.modQ_moves ..).after (by decide) ?_
    | with_reducible refine (State.modNor_moves _ _ (by intro n; repeat' (first | rfl | extract_lets | split))).after (by decide) ?_
    | with_reducible refine (Moves.fold _ _ _ ?_).behind ?_
    | intro _
    | split
    | ((conv => arg 3; with_reducible whnf); split))

theorem execFirmwareSlotProgrammed_moves (x0 : Bool) (x1 : Bool) (s : State) {t : State} (h : (execFirmwareSlotProgrammed x0 x1 s) = .next t) :
    Moves [.trc, .host, .q, .sec, .evr, .nor, .rst, .out, .seq] s t := by
  unfold execFirmwareSlotProgrammed at h
  repeat' (first | contradiction | (injection h with h; subst h) | split at h)
  all_goals (repeat' (first
    | with_reducible exact Moves.refl _ _
    | with_reducible assumption
    | extract_lets
    | with_reducible refine Moves.ite ?_ ?_
    | with_reducible refine (State.switchImage_moves ..).after (by decide) ?_
    | with_reducible refine (State.endCommit_moves ..).after (by decide) ?_
    | with_reducible refine (State.modSec_moves ..).after (by decide) ?_
    | with_reducible refine (State.modNor_moves _ _ (by intro n; repeat' (first | rfl | extract_lets | split))).after (by decide) ?_
    | with_reducible refine (Moves.fold _ _ _ ?_).behind ?_
    | intro _
    | split
    | ((conv => arg 3; with_reducible whnf); split)))

theorem execFwActivationPauseEnd_moves (s : State) {t : State} (h : (execFwActivationPauseEnd s) = .next t) :
    Moves [.trc, .host, .sec, .evr, .rst, .out] s t := by
  unfold execFwActivationPauseEnd at h
  repeat' (first | contradiction | (injection h with h; subst h) | split at h)
  all_goals (repeat' (first
    | with_reducible exact Moves.refl _ _
    | with_reducible assumption
    | extract_lets
    | with_reducible refine Moves.ite ?_ ?_
    | with_reducible refine (State.endCommit_moves ..).after (by decide) ?_
    | with_reducible refine (State.healthChange_moves ..).after (by decide) ?_
    | with_reducible refine (State.modSec_moves ..).after (by decide) ?_
    | with_reducible refine (Moves.fold _ _ _ ?_).behind ?_
    | intro _
    | split
    | ((conv => arg 3; with_reducible whnf); split)))

theorem execImageRetire_moves (s : State) {t : State} (h : execImageRetire s = .next t) :
    Moves [.sec, .nor, .fuse] s t := by
  unfold execImageRetire at h
  injection h with h; subst h
  split
  · exact .refl _ s
  · split
    · exact .refl _ s
    · extract_lets s1 s2 o f s3
      have h1 : Moves [.sec, .nor, .fuse] s s1 :=
        ((State.modSec_moves ..).widen (by decide)).trans ((State.advanceAlias_moves ..).widen (by decide))
      have h2 : Moves [.sec, .nor, .fuse] s s2 := h1.trans ((State.resynch_moves ..).widen (by decide))
      have h3 : Moves [.sec, .nor, .fuse] s2 s3 := {
        same := fun y hy => by cases y <;> first | rfl | exact absurd hy (by decide) | exact fun _ => rfl
        queue := rfl, dram := id, window := id, stored := id, inEffect := fun _ g => g, raised := Nat.le_refl _, top := id
        revoked := by
          show s2.fuse.revoked &&& ~~~(s2.fuse.revoked ||| o.revokes) = 0
          generalize s2.fuse.revoked = x
          generalize o.revokes = y
          revert x y; decide
        ident := rfl }
      exact Moves.ite ((h2.trans h3).trans ((State.raiseRoll_moves ..).widen (by decide))) (h2.trans h3)

theorem State.spdm_moves {m : List Part} {s : State} {r : SpdmIx} {code : Nat} {place : SpdmPhase → Bool}
    {body : State → State × SpdmResponse × Option (Nat × Nat)} (hc : covers [.sec, .out] m = true) (hb : ∀ s, Moves m s (body s).1) {t : State}
    (h : s.spdm r code place body = .next t) : Moves m s t := by
  unfold State.spdm at h
  have hm : ∀ (s : State) (f : SpdmResp → SpdmResp), Moves m s (s.modSec fun x => { x with spdm := vmod x.spdm r f }) := fun s f =>
    ((State.modSec_moves ..).widen (by decide : _ = true) : Moves [.sec, .out] s _).widen hc
  extract_lets md x an at h
  have ha : ∀ s p, Moves m s (an s p) := fun s p => ((State.modOut_moves ..).widen (by decide : _ = true) : Moves [.sec, .out] s _).widen hc
  split at h
  · injection h with h; subst h; exact .refl m s
  · split at h
    · injection h with h; subst h; exact (hm _ _).trans (ha _ _)
    · split at h
      · injection h with h; subst h; exact (hm _ _).trans (ha _ _)
      · injection h with h; subst h
        exact ((((hm _ _).trans (hb _)).trans (hm _ _)).trans (ha _ _))

theorem State.modSpdm_moves (s : State) (x1 : SpdmIx) (x2 : SpdmResp → SpdmResp) :
    Moves [.sec] s (State.modSpdm s x1 x2) := by
  unfold State.modSpdm
  repeat' (first
    | with_reducible exact Moves.refl _ _
    | with_reducible assumption
    | extract_lets
    | with_reducible refine Moves.ite ?_ ?_
    | with_reducible refine (State.modSec_moves ..).after (by decide) ?_
    | with_reducible refine (Moves.fold _ _ _ ?_).behind ?_
    | intro _
    | split
    | ((conv => arg 3; with_reducible whnf); split))

theorem execGetVersion_moves (x0 : SpdmIx) (s : State) {t : State} (h : (execGetVersion x0 s) = .next t) :
    Moves [.sec, .out] s t := by
  unfold execGetVersion at h
  first
  | refine State.spdm_moves (by decide) (fun s => ?_) h
  | (split at h
     (injection h with h; subst h; exact Moves.refl _ _)
     refine State.spdm_moves (by decide) (fun s => ?_) h)
  all_goals (repeat' (first
    | with_reducible exact Moves.refl _ _
    | with_reducible assumption
    | extract_lets
    | with_reducible refine Moves.ite ?_ ?_
    | with_reducible refine (State.modSpdm_moves ..).after (by decide) ?_
    | with_reducible refine (Moves.fold _ _ _ ?_).behind ?_
    | intro _
    | split
    | ((conv => arg 3; with_reducible whnf); split)))

theorem execGetCapabilities_moves (x0 : SpdmIx) (s : State) {t : State} (h : (execGetCapabilities x0 s) = .next t) :
    Moves [.sec, .out] s t := by
  unfold execGetCapabilities at h
  first
  | refine State.spdm_moves (by decide) (fun s => ?_) h
  | (split at h
     (injection h with h; subst h; exact Moves.refl _ _)
     refine State.spdm_moves (by decide) (fun s => ?_) h)
  all_goals (repeat' (first
    | with_reducible exact Moves.refl _ _
    | with_reducible assumption
    | extract_lets
    | with_reducible refine Moves.ite ?_ ?_
    | with_reducible refine (State.modSpdm_moves ..).after (by decide) ?_
    | with_reducible refine (Moves.fold _ _ _ ?_).behind ?_
    | intro _
    | split
    | ((conv => arg 3; with_reducible whnf); split)))

theorem execNegotiateAlgorithms_moves (x0 : SpdmIx) (x1 : SpdmAlgs) (s : State) {t : State} (h : (execNegotiateAlgorithms x0 x1 s) = .next t) :
    Moves [.sec, .out] s t := by
  unfold execNegotiateAlgorithms at h
  first
  | refine State.spdm_moves (by decide) (fun s => ?_) h
  | (split at h
     (injection h with h; subst h; exact Moves.refl _ _)
     refine State.spdm_moves (by decide) (fun s => ?_) h)
  all_goals (repeat' (first
    | with_reducible exact Moves.refl _ _
    | with_reducible assumption
    | extract_lets
    | with_reducible refine Moves.ite ?_ ?_
    | with_reducible refine (State.modSpdm_moves ..).after (by decide) ?_
    | with_reducible refine (Moves.fold _ _ _ ?_).behind ?_
    | intro _
    | split
    | ((conv => arg 3; with_reducible whnf); split)))

theorem execGetDigests_moves (x0 : SpdmIx) (s : State) {t : State} (h : (execGetDigests x0 s) = .next t) :
    Moves [.sec, .out] s t := by
  unfold execGetDigests at h
  first
  | refine State.spdm_moves (by decide) (fun s => ?_) h
  | (split at h
     (injection h with h; subst h; exact Moves.refl _ _)
     refine State.spdm_moves (by decide) (fun s => ?_) h)
  all_goals (repeat' (first
    | with_reducible exact Moves.refl _ _
    | with_reducible assumption
    | extract_lets
    | with_reducible refine Moves.ite ?_ ?_
    | with_reducible refine (Moves.fold _ _ _ ?_).behind ?_
    | intro _
    | split
    | ((conv => arg 3; with_reducible whnf); split)))

theorem execGetCertificate_moves (x0 : SpdmIx) (x1 : Fin 8) (x2 : BitVec 16) (x3 : BitVec 16) (s : State) {t : State} (h : (execGetCertificate x0 x1 x2 x3 s) = .next t) :
    Moves [.sec, .out] s t := by
  unfold execGetCertificate at h
  first
  | refine State.spdm_moves (by decide) (fun s => ?_) h
  | (split at h
     (injection h with h; subst h; exact Moves.refl _ _)
     refine State.spdm_moves (by decide) (fun s => ?_) h)
  all_goals (repeat' (first
    | with_reducible exact Moves.refl _ _
    | with_reducible assumption
    | extract_lets
    | with_reducible refine Moves.ite ?_ ?_
    | with_reducible refine (Moves.fold _ _ _ ?_).behind ?_
    | intro _
    | split
    | ((conv => arg 3; with_reducible whnf); split)))

theorem State.signedResponse_moves (s : State) (x1 : SpdmIx) (x2 : Nat) (x3 : Identity) (x4 : Nat) (x5 : Nat) (x6 : List Nat) :
    Moves [.sec, .out] s (State.signedResponse s x1 x2 x3 x4 x5 x6).1 := by
  unfold State.signedResponse
  repeat' (first
    | with_reducible exact Moves.refl _ _
    | with_reducible assumption
    | extract_lets
    | with_reducible refine Moves.ite ?_ ?_
    | with_reducible refine (State.drbgNext_moves ..).after (by decide) ?_
    | with_reducible refine (State.spdm_moves ..).after (by decide) ?_
    | with_reducible refine Moves.pair1 (by assumption) ?_
    | with_reducible refine Moves.pair2 (by assumption) ?_
    | with_reducible refine (Moves.fold _ _ _ ?_).behind ?_
    | intro _
    | split
    | ((conv => arg 3; with_reducible whnf); split))

theorem execChallenge_moves (x0 : SpdmIx) (x1 : Fin 8) (x2 : BitVec 8) (x3 : BitVec 256) (s : State) {t : State} (h : (execChallenge x0 x1 x2 x3 s) = .next t) :
    Moves [.sec, .out] s t := by
  unfold execChallenge at h
  first
  | refine State.spdm_moves (by decide) (fun s => ?_) h
  | (split at h
     (injection h with h; subst h; exact Moves.refl _ _)
     refine State.spdm_moves (by decide) (fun s => ?_) h)
  all_goals (repeat' (first
    | with_reducible exact Moves.refl _ _
    | with_reducible assumption
    | extract_lets
    | with_reducible refine Moves.ite ?_ ?_
    | with_reducible refine (State.signedResponse_moves ..).after (by decide) ?_
    | with_reducible refine (Moves.fold _ _ _ ?_).behind ?_
    | intro _
    | split
    | ((conv => arg 3; with_reducible whnf); split)
    | with_reducible refine Moves.pair1 (by assumption) ?_))

theorem execGetMeasurements_moves (x0 : SpdmIx) (x1 : BitVec 8) (x2 : Bool) (x3 : Fin 8) (x4 : BitVec 256) (s : State) {t : State} (h : (execGetMeasurements x0 x1 x2 x3 x4 s) = .next t) :
    Moves [.sec, .out] s t := by
  unfold execGetMeasurements at h
  first
  | refine State.spdm_moves (by decide) (fun s => ?_) h
  | (split at h
     (injection h with h; subst h; exact Moves.refl _ _)
     refine State.spdm_moves (by decide) (fun s => ?_) h)
  all_goals (repeat' (first
    | with_reducible exact Moves.refl _ _
    | with_reducible assumption
    | extract_lets
    | with_reducible refine Moves.ite ?_ ?_
    | with_reducible refine (State.modSec_moves ..).after (by decide) ?_
    | with_reducible refine (State.signedResponse_moves ..).after (by decide) ?_
    | with_reducible refine (Moves.fold _ _ _ ?_).behind ?_
    | intro _
    | split
    | ((conv => arg 3; with_reducible whnf); split)
    | with_reducible refine Moves.pair1 (by assumption) ?_))

theorem execKeyExchange_moves (x0 : SpdmIx) (x1 : Fin 8) (x2 : SpdmKex) (s : State) {t : State} (h : (execKeyExchange x0 x1 x2 s) = .next t) :
    Moves [.sec, .out] s t := by
  unfold execKeyExchange at h
  first
  | refine State.spdm_moves (by decide) (fun s => ?_) h
  | (split at h
     (injection h with h; subst h; exact Moves.refl _ _)
     refine State.spdm_moves (by decide) (fun s => ?_) h)
  all_goals (repeat' (first
    | with_reducible exact Moves.refl _ _
    | with_reducible assumption
    | extract_lets
    | with_reducible refine Moves.ite ?_ ?_
    | with_reducible refine (State.modSpdm_moves ..).after (by decide) ?_
    | with_reducible refine (State.signedResponse_moves ..).after (by decide) ?_
    | with_reducible refine (State.drbgNext_moves ..).after (by decide) ?_
    | with_reducible refine Moves.pair1 (by assumption) ?_
    | with_reducible refine Moves.pair2 (by assumption) ?_
    | with_reducible refine (Moves.fold _ _ _ ?_).behind ?_
    | intro _
    | split
    | ((conv => arg 3; with_reducible whnf); split)))

theorem State.modSession_moves (s : State) (x1 : SpdmIx) (x2 : BitVec 16) (x3 : SpdmSession → SpdmSession) :
    Moves [.sec] s (State.modSession s x1 x2 x3) := by
  unfold State.modSession
  repeat' (first
    | with_reducible exact Moves.refl _ _
    | with_reducible assumption
    | extract_lets
    | with_reducible refine Moves.ite ?_ ?_
    | with_reducible refine (State.modSpdm_moves ..).after (by decide) ?_
    | with_reducible refine (Moves.fold _ _ _ ?_).behind ?_
    | intro _
    | split
    | ((conv => arg 3; with_reducible whnf); split))

theorem execFinish_moves (x0 : SpdmIx) (x1 : BitVec 16) (x2 : BitVec 384) (s : State) {t : State} (h : (execFinish x0 x1 x2 s) = .next t) :
    Moves [.sec, .out] s t := by
  unfold execFinish at h
  first
  | refine State.spdm_moves (by decide) (fun s => ?_) h
  | (split at h
     (injection h with h; subst h; exact Moves.refl _ _)
     refine State.spdm_moves (by decide) (fun s => ?_) h)
  all_goals (repeat' (first
    | with_reducible exact Moves.refl _ _
    | with_reducible assumption
    | extract_lets
    | with_reducible refine Moves.ite ?_ ?_
    | with_reducible refine (State.modSession_moves ..).after (by decide) ?_
    | with_reducible refine (State.modSpdm_moves ..).after (by decide) ?_
    | with_reducible refine (Moves.fold _ _ _ ?_).behind ?_
    | intro _
    | split
    | ((conv => arg 3; with_reducible whnf); split)))

theorem execHeartbeat_moves (x0 : SpdmIx) (x1 : BitVec 16) (s : State) {t : State} (h : (execHeartbeat x0 x1 s) = .next t) :
    Moves [.sec, .out] s t := by
  unfold execHeartbeat at h
  first
  | refine State.spdm_moves (by decide) (fun s => ?_) h
  | (split at h
     (injection h with h; subst h; exact Moves.refl _ _)
     refine State.spdm_moves (by decide) (fun s => ?_) h)
  all_goals (repeat' (first
    | with_reducible exact Moves.refl _ _
    | with_reducible assumption
    | extract_lets
    | with_reducible refine Moves.ite ?_ ?_
    | with_reducible refine (Moves.fold _ _ _ ?_).behind ?_
    | intro _
    | split
    | ((conv => arg 3; with_reducible whnf); split)))

theorem execKeyUpdate_moves (x0 : SpdmIx) (x1 : BitVec 16) (x2 : BitVec 8) (s : State) {t : State} (h : (execKeyUpdate x0 x1 x2 s) = .next t) :
    Moves [.sec, .out] s t := by
  unfold execKeyUpdate at h
  first
  | refine State.spdm_moves (by decide) (fun s => ?_) h
  | (split at h
     (injection h with h; subst h; exact Moves.refl _ _)
     refine State.spdm_moves (by decide) (fun s => ?_) h)
  all_goals (repeat' (first
    | with_reducible exact Moves.refl _ _
    | with_reducible assumption
    | extract_lets
    | with_reducible refine Moves.ite ?_ ?_
    | with_reducible refine (State.modSession_moves ..).after (by decide) ?_
    | with_reducible refine (Moves.fold _ _ _ ?_).behind ?_
    | intro _
    | split
    | ((conv => arg 3; with_reducible whnf); split)))

theorem execEndSession_moves (x0 : SpdmIx) (x1 : BitVec 16) (s : State) {t : State} (h : (execEndSession x0 x1 s) = .next t) :
    Moves [.sec, .out] s t := by
  unfold execEndSession at h
  first
  | refine State.spdm_moves (by decide) (fun s => ?_) h
  | (split at h
     (injection h with h; subst h; exact Moves.refl _ _)
     refine State.spdm_moves (by decide) (fun s => ?_) h)
  all_goals (repeat' (first
    | with_reducible exact Moves.refl _ _
    | with_reducible assumption
    | extract_lets
    | with_reducible refine Moves.ite ?_ ?_
    | with_reducible refine (State.modSpdm_moves ..).after (by decide) ?_
    | with_reducible refine (Moves.fold _ _ _ ?_).behind ?_
    | intro _
    | split
    | ((conv => arg 3; with_reducible whnf); split)))

theorem execGetPqChain_moves (x0 : SpdmIx) (x1 : Fin 8) (x2 : BitVec 16) (x3 : BitVec 16) (s : State) {t : State} (h : (execGetPqChain x0 x1 x2 x3 s) = .next t) :
    Moves [.sec, .out] s t := by
  unfold execGetPqChain at h
  first
  | refine State.spdm_moves (by decide) (fun s => ?_) h
  | (split at h
     (injection h with h; subst h; exact Moves.refl _ _)
     refine State.spdm_moves (by decide) (fun s => ?_) h)
  all_goals (repeat' (first
    | with_reducible exact Moves.refl _ _
    | with_reducible assumption
    | extract_lets
    | with_reducible refine Moves.ite ?_ ?_
    | with_reducible refine (Moves.fold _ _ _ ?_).behind ?_
    | intro _
    | split
    | ((conv => arg 3; with_reducible whnf); split)))

theorem execGetPqSig_moves (x0 : SpdmIx) (s : State) {t : State} (h : (execGetPqSig x0 s) = .next t) :
    Moves [.sec, .out] s t := by
  unfold execGetPqSig at h
  first
  | refine State.spdm_moves (by decide) (fun s => ?_) h
  | (split at h
     (injection h with h; subst h; exact Moves.refl _ _)
     refine State.spdm_moves (by decide) (fun s => ?_) h)
  all_goals (repeat' (first
    | with_reducible exact Moves.refl _ _
    | with_reducible assumption
    | extract_lets
    | with_reducible refine Moves.ite ?_ ?_
    | with_reducible refine (State.drbgNext_moves ..).after (by decide) ?_
    | with_reducible refine (Moves.fold _ _ _ ?_).behind ?_
    | intro _
    | split
    | ((conv => arg 3; with_reducible whnf); split)
    | with_reducible refine Moves.pair2 (by assumption) ?_))

theorem State.opal_moves (s : State) (x1 : OpalReq) (x2 : ℕ) (x3 : List ℕ) :
    Moves [.out] s (State.opal s x1 x2 x3) := by
  unfold State.opal
  repeat' (first
    | with_reducible exact Moves.refl _ _
    | with_reducible assumption
    | extract_lets
    | with_reducible refine Moves.ite ?_ ?_
    | with_reducible refine (State.modOut_moves ..).after (by decide) ?_
    | with_reducible refine (Moves.fold _ _ _ ?_).behind ?_
    | intro _
    | split
    | ((conv => arg 3; with_reducible whnf); split))

theorem State.method_moves {m : List Part} {s : State} {o : OpalReq} {body : State → State} (hb : ∀ s, Moves m s (body s)) {t : State}
    (h : s.method o body = .next t) : Moves m s t := by
  unfold State.method at h
  injection h with h; subst h
  exact Moves.ite (hb s) (.refl m s)

theorem State.setOpal_moves (s : State) (x1 : Opal → Opal) :
    Moves [.sec, .nor] s (State.setOpal s x1) := by
  unfold State.setOpal
  repeat' (first
    | with_reducible exact Moves.refl _ _
    | with_reducible assumption
    | extract_lets
    | with_reducible refine Moves.ite ?_ ?_
    | with_reducible refine (State.modSec_moves ..).after (by decide) ?_
    | with_reducible refine (State.modNor_moves _ _ (by intro n; repeat' (first | rfl | extract_lets | split))).after (by decide) ?_
    | with_reducible refine (Moves.fold _ _ _ ?_).behind ?_
    | intro _
    | split
    | ((conv => arg 3; with_reducible whnf); split))

theorem execStartSession_moves (x0 : OpalReq) (x1 : OpalSp) (x2 : OpalAuth) (x3 : ℕ) (s : State) {t : State} (h : (execStartSession x0 x1 x2 x3 s) = .next t) :
    Moves [.sec, .out] s t := by
  unfold execStartSession at h
  first
  | refine State.method_moves (fun s => ?_) h
  | (split at h
     (injection h with h; subst h; exact Moves.refl _ _)
     refine State.method_moves (fun s => ?_) h)
  all_goals (repeat' (first
    | with_reducible exact Moves.refl _ _
    | with_reducible assumption
    | extract_lets
    | with_reducible refine Moves.ite ?_ ?_
    | with_reducible refine (State.opal_moves ..).after (by decide) ?_
    | with_reducible refine (State.modSec_moves ..).after (by decide) ?_
    | with_reducible refine (Moves.fold _ _ _ ?_).behind ?_
    | intro _
    | split
    | ((conv => arg 3; with_reducible whnf); split)))

theorem execProperties_moves (x0 : OpalReq) (s : State) {t : State} (h : (execProperties x0 s) = .next t) :
    Moves [.out] s t := by
  unfold execProperties at h
  first
  | refine State.method_moves (fun s => ?_) h
  | (split at h
     (injection h with h; subst h; exact Moves.refl _ _)
     refine State.method_moves (fun s => ?_) h)
  all_goals (repeat' (first
    | with_reducible exact Moves.refl _ _
    | with_reducible assumption
    | extract_lets
    | with_reducible refine Moves.ite ?_ ?_
    | with_reducible refine (State.opal_moves ..).after (by decide) ?_
    | with_reducible refine (Moves.fold _ _ _ ?_).behind ?_
    | intro _
    | split
    | ((conv => arg 3; with_reducible whnf); split)))

theorem execAuthenticate_moves (x0 : OpalReq) (x1 : OpalAuth) (x2 : ℕ) (s : State) {t : State} (h : (execAuthenticate x0 x1 x2 s) = .next t) :
    Moves [.sec, .out] s t := by
  unfold execAuthenticate at h
  first
  | refine State.method_moves (fun s => ?_) h
  | (split at h
     (injection h with h; subst h; exact Moves.refl _ _)
     refine State.method_moves (fun s => ?_) h)
  all_goals (repeat' (first
    | with_reducible exact Moves.refl _ _
    | with_reducible assumption
    | extract_lets
    | with_reducible refine Moves.ite ?_ ?_
    | with_reducible refine (State.opal_moves ..).after (by decide) ?_
    | with_reducible refine (State.modSec_moves ..).after (by decide) ?_
    | with_reducible refine (Moves.fold _ _ _ ?_).behind ?_
    | intro _
    | split
    | ((conv => arg 3; with_reducible whnf); split)))

theorem execOpalGet_moves (x0 : OpalReq) (x1 : OpalObj) (s : State) {t : State} (h : (execOpalGet x0 x1 s) = .next t) :
    Moves [.out] s t := by
  unfold execOpalGet at h
  first
  | refine State.method_moves (fun s => ?_) h
  | (split at h
     (injection h with h; subst h; exact Moves.refl _ _)
     refine State.method_moves (fun s => ?_) h)
  all_goals (repeat' (first
    | with_reducible exact Moves.refl _ _
    | with_reducible assumption
    | extract_lets
    | with_reducible refine Moves.ite ?_ ?_
    | with_reducible refine (State.opal_moves ..).after (by decide) ?_
    | with_reducible refine (Moves.fold _ _ _ ?_).behind ?_
    | intro _
    | split
    | ((conv => arg 3; with_reducible whnf); split)))

theorem State.setRange_moves (s : State) (x1 : OpalReq) (x2 : Fin 17) (x3 : OpalRange → OpalRange) :
    Moves [.sec, .nor, .out] s (State.setRange s x1 x2 x3) := by
  unfold State.setRange
  repeat' (first
    | with_reducible exact Moves.refl _ _
    | with_reducible assumption
    | extract_lets
    | with_reducible refine Moves.ite ?_ ?_
    | with_reducible refine (State.setOpal_moves ..).after (by decide) ?_
    | with_reducible refine (State.opal_moves ..).after (by decide) ?_
    | with_reducible refine (State.settleOpal_moves ..).after (by decide) ?_
    | with_reducible refine (State.resynch_moves ..).after (by decide) ?_
    | with_reducible refine (State.modSec_moves ..).after (by decide) ?_
    | with_reducible refine (Moves.fold _ _ _ ?_).behind ?_
    | intro _
    | split
    | ((conv => arg 3; with_reducible whnf); split))

theorem execOpalSet_moves (x0 : OpalReq) (x1 : OpalObj) (x2 : ℕ) (s : State) {t : State} (h : (execOpalSet x0 x1 x2 s) = .next t) :
    Moves [.sec, .nor, .out] s t := by
  unfold execOpalSet at h
  first
  | refine State.method_moves (fun s => ?_) h
  | (split at h
     (injection h with h; subst h; exact Moves.refl _ _)
     refine State.method_moves (fun s => ?_) h)
  all_goals (repeat' (first
    | with_reducible exact Moves.refl _ _
    | with_reducible assumption
    | extract_lets
    | with_reducible refine Moves.ite ?_ ?_
    | with_reducible refine (State.setRange_moves ..).after (by decide) ?_
    | with_reducible refine (State.setOpal_moves ..).after (by decide) ?_
    | with_reducible refine (State.opal_moves ..).after (by decide) ?_
    | with_reducible refine (Moves.fold _ _ _ ?_).behind ?_
    | intro _
    | split
    | ((conv => arg 3; with_reducible whnf); split)))

theorem execGenkey_moves (x0 : OpalReq) (x1 : Fin 17) (s : State) {t : State} (h : (execGenkey x0 x1 s) = .next t) :
    Moves [.free, .slice, .lane, .pool, .trc, .media, .host, .q, .pwr, .sec, .evr, .nor, .out, .recv, .zdc, .det, .wr, .headSrv, .map] s t := by
  unfold execGenkey at h
  first
  | refine State.method_moves (fun s => ?_) h
  | (split at h
     (injection h with h; subst h; exact Moves.refl _ _)
     refine State.method_moves (fun s => ?_) h)
  all_goals (repeat' (first
    | with_reducible exact Moves.refl _ _
    | with_reducible assumption
    | extract_lets
    | with_reducible refine Moves.ite ?_ ?_
    | with_reducible refine (State.opal_moves ..).after (by decide) ?_
    | with_reducible refine (State.emptyNamespace_moves ..).after (by decide) ?_
    | with_reducible refine (State.newKey_moves ..).after (by decide) ?_
    | with_reducible refine (Moves.fold _ _ _ ?_).behind ?_
    | intro _
    | split
    | ((conv => arg 3; with_reducible whnf); split)))

theorem execActivate_moves (x0 : OpalReq) (s : State) {t : State} (h : (execActivate x0 s) = .next t) :
    Moves [.trc, .host, .sec, .evr, .nor, .out] s t := by
  unfold execActivate at h
  first
  | refine State.method_moves (fun s => ?_) h
  | (split at h
     (injection h with h; subst h; exact Moves.refl _ _)
     refine State.method_moves (fun s => ?_) h)
  all_goals (repeat' (first
    | with_reducible exact Moves.refl _ _
    | with_reducible assumption
    | extract_lets
    | with_reducible refine Moves.ite ?_ ?_
    | with_reducible refine (State.setOpal_moves ..).after (by decide) ?_
    | with_reducible refine (State.opal_moves ..).after (by decide) ?_
    | with_reducible refine (Moves.fold _ _ _ ?_).behind ?_
    | intro _
    | split
    | ((conv => arg 3; with_reducible whnf); split)))

theorem State.revertOpal_moves (s : State) (x1 : Bool) :
    Moves [.free, .slice, .lane, .pool, .trc, .media, .host, .q, .sec, .evr, .nor, .out, .recv, .zdc, .det, .wr, .headSrv, .map] s (State.revertOpal s x1) := by
  unfold State.revertOpal
  repeat' (first
    | with_reducible exact Moves.refl _ _
    | with_reducible assumption
    | extract_lets
    | with_reducible refine Moves.ite ?_ ?_
    | with_reducible refine (State.newKey_moves ..).after (by decide) ?_
    | with_reducible refine (State.emptyNamespace_moves ..).after (by decide) ?_
    | with_reducible refine (State.setOpal_moves ..).after (by decide) ?_
    | with_reducible refine (State.resynch_moves ..).after (by decide) ?_
    | with_reducible refine (Moves.fold _ _ _ ?_).behind ?_
    | intro _
    | split
    | ((conv => arg 3; with_reducible whnf); split))

theorem execRevert_moves (x0 : OpalReq) (x1 : OpalSp) (s : State) {t : State} (h : (execRevert x0 x1 s) = .next t) :
    Moves [.free, .slice, .lane, .pool, .trc, .media, .host, .q, .pwr, .sec, .evr, .nor, .out, .recv, .zdc, .det, .wr, .headSrv, .map] s t := by
  unfold execRevert at h
  first
  | refine State.method_moves (fun s => ?_) h
  | (split at h
     (injection h with h; subst h; exact Moves.refl _ _)
     refine State.method_moves (fun s => ?_) h)
  all_goals (repeat' (first
    | with_reducible exact Moves.refl _ _
    | with_reducible assumption
    | extract_lets
    | with_reducible refine Moves.ite ?_ ?_
    | with_reducible refine (State.revertOpal_moves ..).after (by decide) ?_
    | with_reducible refine (State.opal_moves ..).after (by decide) ?_
    | with_reducible refine (Moves.fold _ _ _ ?_).behind ?_
    | intro _
    | split
    | ((conv => arg 3; with_reducible whnf); split)))

theorem execRevertSp_moves (x0 : OpalReq) (x1 : OpalSp) (s : State) {t : State} (h : (execRevertSp x0 x1 s) = .next t) :
    Moves [.free, .slice, .lane, .pool, .trc, .media, .host, .q, .pwr, .sec, .evr, .nor, .out, .recv, .zdc, .det, .wr, .headSrv, .map] s t := by
  unfold execRevertSp at h
  first
  | refine State.method_moves (fun s => ?_) h
  | (split at h
     (injection h with h; subst h; exact Moves.refl _ _)
     refine State.method_moves (fun s => ?_) h)
  all_goals (repeat' (first
    | with_reducible exact Moves.refl _ _
    | with_reducible assumption
    | extract_lets
    | with_reducible refine Moves.ite ?_ ?_
    | with_reducible refine (State.revertOpal_moves ..).after (by decide) ?_
    | with_reducible refine (State.opal_moves ..).after (by decide) ?_
    | with_reducible refine (Moves.fold _ _ _ ?_).behind ?_
    | intro _
    | split
    | ((conv => arg 3; with_reducible whnf); split)))

theorem execRandom_moves (x0 : OpalReq) (x1 : ℕ) (s : State) {t : State} (h : (execRandom x0 x1 s) = .next t) :
    Moves [.sec, .out] s t := by
  unfold execRandom at h
  first
  | refine State.method_moves (fun s => ?_) h
  | (split at h
     (injection h with h; subst h; exact Moves.refl _ _)
     refine State.method_moves (fun s => ?_) h)
  all_goals (repeat' (first
    | with_reducible exact Moves.refl _ _
    | with_reducible assumption
    | extract_lets
    | with_reducible refine Moves.ite ?_ ?_
    | with_reducible refine (State.opal_moves ..).after (by decide) ?_
    | with_reducible refine (State.drbgNext_moves ..).after (by decide) ?_
    | with_reducible refine (Moves.fold _ _ _ ?_).behind ?_
    | intro _
    | split
    | ((conv => arg 3; with_reducible whnf); split)
    | with_reducible refine Moves.pair2 (by assumption) ?_))

theorem execSecurityReceive_moves (x0 : AdmReq) (x1 : Word) (x2 : BitVec 8) (x3 : BitVec 16) (s : State) {t : State} (h : (execSecurityReceive x0 x1 x2 x3 s) = .next t) :
    Moves [.trc, .host, .evr, .out] s t := by
  unfold execSecurityReceive at h
  first
  | refine State.admin_moves (by decide) (fun s => ?_) h
  | (split at h
     (injection h with h; subst h; exact Moves.refl _ _)
     refine State.admin_moves (by decide) (fun s => ?_) h)
  all_goals (repeat' (first
    | with_reducible exact Moves.refl _ _
    | with_reducible assumption
    | extract_lets
    | with_reducible refine Moves.ite ?_ ?_
    | with_reducible refine Moves.iteAdm ?_ ?_
    | with_reducible refine (AdmRes.fail_moves ..).after (by decide) ?_
    | with_reducible refine (Moves.fold _ _ _ ?_).behind ?_
    | intro _
    | split
    | ((conv => arg 3; with_reducible whnf); split)))

theorem State.newNonce_moves (s : State) :
    Moves [.sec] s (State.newNonce s) := by
  unfold State.newNonce
  repeat' (first
    | with_reducible exact Moves.refl _ _
    | with_reducible assumption
    | extract_lets
    | with_reducible refine Moves.ite ?_ ?_
    | with_reducible refine (State.modSec_moves ..).after (by decide) ?_
    | with_reducible refine (State.drbgNext_moves ..).after (by decide) ?_
    | with_reducible refine (Moves.fold _ _ _ ?_).behind ?_
    | intro _
    | split
    | ((conv => arg 3; with_reducible whnf); split)
    | with_reducible refine Moves.pair2 (by assumption) ?_)

theorem State.lockDebug_moves (s : State) :
    Moves [.sec] s (State.lockDebug s) := by
  unfold State.lockDebug
  repeat' (first
    | with_reducible exact Moves.refl _ _
    | with_reducible assumption
    | extract_lets
    | with_reducible refine Moves.ite ?_ ?_
    | with_reducible refine (State.resynch_moves ..).after (by decide) ?_
    | with_reducible refine (State.modSec_moves ..).after (by decide) ?_
    | with_reducible refine (Moves.fold _ _ _ ?_).behind ?_
    | intro _
    | split
    | ((conv => arg 3; with_reducible whnf); split))

theorem execDebugUnlockExpiry_moves (s : State) {t : State} (h : (execDebugUnlockExpiry s) = .next t) :
    Moves [.sec] s t := by
  unfold execDebugUnlockExpiry at h
  repeat' (first | contradiction | (injection h with h; subst h) | split at h)
  all_goals (repeat' (first
    | with_reducible exact Moves.refl _ _
    | with_reducible assumption
    | extract_lets
    | with_reducible refine Moves.ite ?_ ?_
    | with_reducible refine (State.lockDebug_moves ..).after (by decide) ?_
    | with_reducible refine (Moves.fold _ _ _ ?_).behind ?_
    | intro _
    | split
    | ((conv => arg 3; with_reducible whnf); split)))

theorem execSecStatus_moves (x0 : Packet) (s : State) {t : State} (h : (execSecStatus x0 s) = .next t) :
    Moves [.trc, .host, .het, .evr, .out] s t := by
  unfold execSecStatus at h
  repeat' (first | contradiction | (injection h with h; subst h) | split at h)
  all_goals (repeat' (first
    | with_reducible exact Moves.refl _ _
    | with_reducible assumption
    | extract_lets
    | with_reducible refine Moves.ite ?_ ?_
    | with_reducible refine Moves.itePkt ?_ ?_
    | with_reducible refine runPacket_moves (by decide) (fun s => ?_)
    | with_reducible refine (PktRes.report_moves ..).after (by decide) ?_
    | with_reducible refine (Moves.fold _ _ _ ?_).behind ?_
    | intro _
    | split
    | ((conv => arg 3; with_reducible whnf); split)))

theorem opSecCert_moves (x0 : Packet) (s : State) :
    Moves [] s (opSecCert x0 s).state := by
  unfold opSecCert
  repeat' (first
    | with_reducible exact Moves.refl _ _
    | with_reducible assumption
    | extract_lets
    | with_reducible refine Moves.ite ?_ ?_
    | with_reducible refine Moves.itePkt ?_ ?_
    | with_reducible refine (PktRes.fail_moves ..).after (by decide) ?_
    | with_reducible refine (AdmRes.fail_moves ..).after (by decide) ?_
    | with_reducible refine (Moves.fold _ _ _ ?_).behind ?_
    | intro _
    | split
    | ((conv => arg 3; with_reducible whnf); split))

theorem execSecCert_moves (x0 : Packet) (s : State) {t : State} (h : (execSecCert x0 s) = .next t) :
    Moves [.trc, .host, .het, .evr, .out] s t := by
  unfold execSecCert at h
  repeat' (first | contradiction | (injection h with h; subst h) | split at h)
  all_goals (repeat' (first
    | with_reducible exact Moves.refl _ _
    | with_reducible assumption
    | extract_lets
    | with_reducible refine Moves.ite ?_ ?_
    | with_reducible refine Moves.itePkt ?_ ?_
    | with_reducible refine (opSecCert_moves ..).after (by decide) ?_
    | with_reducible refine runPacket_moves (by decide) (fun s => ?_)
    | with_reducible refine (Moves.fold _ _ _ ?_).behind ?_
    | intro _
    | split
    | ((conv => arg 3; with_reducible whnf); split)))

theorem opSecUnlock_moves (x0 : Packet) (s : State) :
    Moves [.trc, .sec, .evr] s (opSecUnlock x0 s).state := by
  unfold opSecUnlock
  repeat' (first
    | with_reducible exact Moves.refl _ _
    | with_reducible assumption
    | extract_lets
    | with_reducible refine Moves.ite ?_ ?_
    | with_reducible refine Moves.itePkt ?_ ?_
    | with_reducible refine (State.lockDebug_moves ..).after (by decide) ?_
    | with_reducible refine (State.newNonce_moves ..).after (by decide) ?_
    | with_reducible refine (PktRes.fail_moves ..).after (by decide) ?_
    | with_reducible refine (AdmRes.fail_moves ..).after (by decide) ?_
    | with_reducible refine (State.objFailed_moves ..).after (by decide) ?_
    | with_reducible refine (State.modSec_moves ..).after (by decide) ?_
    | with_reducible refine (State.saturated_moves ..).after (by decide) ?_
    | with_reducible refine (State.condSec_moves ..).after (by decide) ?_
    | with_reducible refine (State.resynch_moves ..).after (by decide) ?_
    | with_reducible refine (Moves.fold _ _ _ ?_).behind ?_
    | intro _
    | split
    | ((conv => arg 3; with_reducible whnf); split))

theorem execSecLock_moves (x0 : Packet) (s : State) {t : State} (h : (execSecLock x0 s) = .next t) :
    Moves [.trc, .host, .het, .sec, .evr, .out] s t := by
  unfold execSecLock at h
  repeat' (first | contradiction | (injection h with h; subst h) | split at h)
  all_goals (repeat' (first
    | with_reducible exact Moves.refl _ _
    | with_reducible assumption
    | extract_lets
    | with_reducible refine Moves.ite ?_ ?_
    | with_reducible refine Moves.itePkt ?_ ?_
    | with_reducible refine (opSecUnlock_moves ..).after (by decide) ?_
    | with_reducible refine runPacket_moves (by decide) (fun s => ?_)
    | with_reducible refine (Moves.fold _ _ _ ?_).behind ?_
    | intro _
    | split
    | ((conv => arg 3; with_reducible whnf); split)))

theorem execSecUnlock_moves (x0 : Packet) (s : State) {t : State} (h : (execSecUnlock x0 s) = .next t) :
    Moves [.trc, .host, .het, .sec, .evr, .out] s t := by
  unfold execSecUnlock at h
  repeat' (first | contradiction | (injection h with h; subst h) | split at h)
  all_goals (repeat' (first
    | with_reducible exact Moves.refl _ _
    | with_reducible assumption
    | extract_lets
    | with_reducible refine Moves.ite ?_ ?_
    | with_reducible refine Moves.itePkt ?_ ?_
    | with_reducible refine (opSecUnlock_moves ..).after (by decide) ?_
    | with_reducible refine runPacket_moves (by decide) (fun s => ?_)
    | with_reducible refine (Moves.fold _ _ _ ?_).behind ?_
    | intro _
    | split
    | ((conv => arg 3; with_reducible whnf); split)))

theorem opSecRollback_moves (x0 : Packet) (s : State) :
    Moves [.trc, .sec, .evr, .nor, .fuse] s (opSecRollback x0 s).state := by
  unfold opSecRollback
  repeat' (first
    | with_reducible exact Moves.refl _ _
    | with_reducible assumption
    | extract_lets
    | with_reducible refine Moves.ite ?_ ?_
    | with_reducible refine Moves.itePkt ?_ ?_
    | with_reducible refine (PktRes.fail_moves ..).after (by decide) ?_
    | with_reducible refine (AdmRes.fail_moves ..).after (by decide) ?_
    | with_reducible refine (State.objFailed_moves ..).after (by decide) ?_
    | with_reducible refine (State.raiseRoll_moves ..).after (by decide) ?_
    | with_reducible refine (State.resynch_moves ..).after (by decide) ?_
    | with_reducible refine (Moves.fold _ _ _ ?_).behind ?_
    | intro _
    | split
    | ((conv => arg 3; with_reducible whnf); split))

theorem execSecRollback_moves (x0 : Packet) (s : State) {t : State} (h : (execSecRollback x0 s) = .next t) :
    Moves [.trc, .host, .het, .sec, .evr, .nor, .fuse, .out] s t := by
  unfold execSecRollback at h
  repeat' (first | contradiction | (injection h with h; subst h) | split at h)
  all_goals (repeat' (first
    | with_reducible exact Moves.refl _ _
    | with_reducible assumption
    | extract_lets
    | with_reducible refine Moves.ite ?_ ?_
    | with_reducible refine Moves.itePkt ?_ ?_
    | with_reducible refine (opSecRollback_moves ..).after (by decide) ?_
    | with_reducible refine runPacket_moves (by decide) (fun s => ?_)
    | with_reducible refine (Moves.fold _ _ _ ?_).behind ?_
    | intro _
    | split
    | ((conv => arg 3; with_reducible whnf); split)))

end Sys2Proof.Machine
end

