-- ==== Sys2Proof/Laws/MovesMod.lean ====
section
/-! SUPPORT. What each operation and each command of Machine/Mod.lean can touch. -/

namespace Sys2Proof.Machine
open Sys2Proof
set_option linter.all false
set_option Elab.async false

theorem execModIdentify_moves (x0 : Packet) (s : State) {t : State} (h : (execModIdentify x0 s) = .next t) :
    Moves [.trc, .host, .het, .evr, .out] s t := by
  unfold execModIdentify at h
  repeat' (first | contradiction | (injection h with h; subst h) | split at h)
  all_goals (repeat' (first
    | with_reducible exact Moves.refl _ _
    | with_reducible assumption
    | extract_lets
    | with_reducible refine Moves.ite ?_ ?_
    | with_reducible refine Moves.itePkt ?_ ?_
    | with_reducible refine runPacket_moves (by decide) (fun s => ?_)
    | with_reducible refine (PktRes.report_moves ..).after (by decide) ?_
    | with_reducible refine (Moves.fold _ _ _ ?_).behind ?_
    | intro _
    | split
    | ((conv => arg 3; with_reducible whnf); split)))

theorem execModEcho_moves (x0 : Packet) (s : State) {t : State} (h : (execModEcho x0 s) = .next t) :
    Moves [.trc, .host, .het, .evr, .out] s t := by
  unfold execModEcho at h
  repeat' (first | contradiction | (injection h with h; subst h) | split at h)
  all_goals (repeat' (first
    | with_reducible exact Moves.refl _ _
    | with_reducible assumption
    | extract_lets
    | with_reducible refine Moves.ite ?_ ?_
    | with_reducible refine Moves.itePkt ?_ ?_
    | with_reducible refine runPacket_moves (by decide) (fun s => ?_)
    | with_reducible refine (PktRes.report_moves ..).after (by decide) ?_
    | with_reducible refine (Moves.fold _ _ _ ?_).behind ?_
    | intro _
    | split
    | ((conv => arg 3; with_reducible whnf); split)))

theorem opModLayout_moves (p : Packet) (s : State) :
    Moves [.nor] s (opModLayout p s).state := by
  unfold opModLayout
  split
  · exact .refl _ s
  · extract_lets l c n count heads new
    have key : s.nor.layout.legal = true → new.legal = true := by
      intro hl
      have hl2 : 2 ≤ l.engines ∧ l.engines ≤ 4 := by
        simp only [Layout.legal, Bool.and_eq_true, decide_eq_true_eq] at hl; exact hl.1
      have hn : 2 ≤ n ∧ n ≤ 4 := by
        have hc : ∃ v : Nat, v < 3 ∧ c = mkw [bfi 1 0 (v : Int)] := by
          simp only [c, clampWord, List.map_cons, List.map_nil, fEnum, Field.stored, Field.value, Bool.false_eq_true, if_false]
          split
          · rename_i hm
            have h3 : fld (p.w 0) 1 0 < 4 := Nat.mod_lt _ (by decide)
            generalize fld (p.w 0) 1 0 = q at hm h3
            exact ⟨q, by interval_cases q <;> revert hm <;> decide, rfl⟩
          · have h4 : fld (nw (l.engines - 2)) 1 0 < 3 := by
              obtain ⟨a, b⟩ := hl2
              generalize l.engines = e at a b ⊢
              interval_cases e <;> decide
            exact ⟨_, h4, rfl⟩
        obtain ⟨v, hv, he⟩ := hc
        have : fld c 1 0 = v := by rw [he]; exact fld_bfi2 v (by omega)
        simp only [n, this]; omega
      have hlim : 1 ≤ headLimit n ∧ headLimit n ≤ 12 := by
        unfold headLimit; split <;> (try split) <;> decide
      have hcount : ∀ a, a < n → 1 ≤ (count a).toNat ∧ (count a).toNat ≤ headLimit n := by
        intro a ha
        simp only [count, ha, if_true]
        exact clampWord_range 1 (headLimit n) 0 _ hlim.1 (by omega)
      have hzero : ∀ a, ¬ a < n → (count a).toNat = 0 := by
        intro a ha; simp [count, ha]
      simp only [Layout.legal, Bool.and_eq_true, decide_eq_true_eq, List.all_eq_true, new]
      refine ⟨hn, fun a _ => ?_⟩
      simp only [Fin.getElem_fin, Vector.getElem_ofFn]
      split
      · rename_i ha; simpa using hcount a ha
      · rename_i ha; simpa using hzero a ha
    exact {
      same := fun y hy => by cases y <;> first | rfl | exact absurd hy (by decide) | exact fun _ => rfl
      queue := rfl, dram := id, window := id, stored := key, inEffect := fun _ g => g, raised := Nat.le_refl _, top := id
      revoked := by simp
      ident := rfl }

theorem execModLayout_moves (x0 : Packet) (s : State) {t : State} (h : (execModLayout x0 s) = .next t) :
    Moves [.trc, .host, .het, .evr, .nor, .out] s t := by
  unfold execModLayout at h
  repeat' (first | contradiction | (injection h with h; subst h) | split at h)
  all_goals (repeat' (first
    | with_reducible exact Moves.refl _ _
    | with_reducible assumption
    | extract_lets
    | with_reducible refine Moves.ite ?_ ?_
    | with_reducible refine Moves.itePkt ?_ ?_
    | with_reducible refine (opModLayout_moves ..).after (by decide) ?_
    | with_reducible refine runPacket_moves (by decide) (fun s => ?_)
    | with_reducible refine (Moves.fold _ _ _ ?_).behind ?_
    | intro _
    | split
    | ((conv => arg 3; with_reducible whnf); split)))

theorem execHetosStatus_moves (x0 : Packet) (s : State) {t : State} (h : (execHetosStatus x0 s) = .next t) :
    Moves [.trc, .host, .het, .evr, .out] s t := by
  unfold execHetosStatus at h
  repeat' (first | contradiction | (injection h with h; subst h) | split at h)
  all_goals (repeat' (first
    | with_reducible exact Moves.refl _ _
    | with_reducible assumption
    | extract_lets
    | with_reducible refine Moves.ite ?_ ?_
    | with_reducible refine Moves.itePkt ?_ ?_
    | with_reducible refine runPacket_moves (by decide) (fun s => ?_)
    | with_reducible refine (PktRes.report_moves ..).after (by decide) ?_
    | with_reducible refine (PktRes.fail_moves ..).after (by decide) ?_
    | with_reducible refine (AdmRes.fail_moves ..).after (by decide) ?_
    | with_reducible refine (Moves.fold _ _ _ ?_).behind ?_
    | intro _
    | split
    | ((conv => arg 3; with_reducible whnf); split)))

theorem opHetosClear_moves (x0 : Packet) (s : State) :
    Moves [.het] s (opHetosClear x0 s).state := by
  unfold opHetosClear
  repeat' (first
    | with_reducible exact Moves.refl _ _
    | with_reducible assumption
    | extract_lets
    | with_reducible refine Moves.ite ?_ ?_
    | with_reducible refine Moves.itePkt ?_ ?_
    | with_reducible refine (PktRes.fail_moves ..).after (by decide) ?_
    | with_reducible refine (AdmRes.fail_moves ..).after (by decide) ?_
    | with_reducible refine (State.modHet_moves ..).after (by decide) ?_
    | with_reducible refine (Moves.fold _ _ _ ?_).behind ?_
    | intro _
    | split
    | ((conv => arg 3; with_reducible whnf); split))

theorem execHetosClear_moves (x0 : Packet) (s : State) {t : State} (h : (execHetosClear x0 s) = .next t) :
    Moves [.trc, .host, .het, .evr, .out] s t := by
  unfold execHetosClear at h
  repeat' (first | contradiction | (injection h with h; subst h) | split at h)
  all_goals (repeat' (first
    | with_reducible exact Moves.refl _ _
    | with_reducible assumption
    | extract_lets
    | with_reducible refine Moves.ite ?_ ?_
    | with_reducible refine Moves.itePkt ?_ ?_
    | with_reducible refine (opHetosClear_moves ..).after (by decide) ?_
    | with_reducible refine runPacket_moves (by decide) (fun s => ?_)
    | with_reducible refine (Moves.fold _ _ _ ?_).behind ?_
    | intro _
    | split
    | ((conv => arg 3; with_reducible whnf); split)))

theorem State.newExchange_moves (s : State) (x1 : Exchange) :
    Moves [.trc, .host, .het, .evr, .out] s (State.newExchange s x1) := by
  unfold State.newExchange
  repeat' (first
    | with_reducible exact Moves.refl _ _
    | with_reducible assumption
    | extract_lets
    | with_reducible refine Moves.ite ?_ ?_
    | with_reducible refine (State.modHet_moves ..).after (by decide) ?_
    | with_reducible refine (State.advanceExchange_moves ..).after (by decide) ?_
    | with_reducible refine (Moves.fold _ _ _ ?_).behind ?_
    | intro _
    | split
    | ((conv => arg 3; with_reducible whnf); split))

theorem execHetosExchange_moves (x0 : AdmReq) (x1 : HetosCmd) (s : State) {t : State} (h : (execHetosExchange x0 x1 s) = .next t) :
    Moves [.trc, .host, .het, .evr, .out] s t := by
  unfold execHetosExchange at h
  first
  | refine State.adminOwn_moves (by decide) (fun s => ?_) h
  | (split at h
     (injection h with h; subst h; exact Moves.refl _ _)
     refine State.adminOwn_moves (by decide) (fun s => ?_) h)
  all_goals (repeat' (first
    | with_reducible exact Moves.refl _ _
    | with_reducible assumption
    | extract_lets
    | with_reducible refine Moves.ite ?_ ?_
    | with_reducible refine Moves.iteAdm ?_ ?_
    | with_reducible refine (State.newExchange_moves ..).after (by decide) ?_
    | with_reducible refine (AdmRes.fail_moves ..).after (by decide) ?_
    | with_reducible refine (Moves.fold _ _ _ ?_).behind ?_
    | intro _
    | split
    | ((conv => arg 3; with_reducible whnf); split)))

theorem execHetosMctpRequest_moves (x0 : MctpReq) (s : State) {t : State} (h : (execHetosMctpRequest x0 s) = .next t) :
    Moves [.trc, .host, .het, .evr, .out] s t := by
  unfold execHetosMctpRequest at h
  repeat' (first | contradiction | (injection h with h; subst h) | split at h)
  all_goals (repeat' (first
    | with_reducible exact Moves.refl _ _
    | with_reducible assumption
    | extract_lets
    | with_reducible refine Moves.ite ?_ ?_
    | with_reducible refine (State.mctpBad_moves ..).after (by decide) ?_
    | with_reducible refine (State.newExchange_moves ..).after (by decide) ?_
    | with_reducible refine (Moves.fold _ _ _ ?_).behind ?_
    | intro _
    | split
    | ((conv => arg 3; with_reducible whnf); split)))

theorem execExchangeStart_moves (s : State) {t : State} (h : (execExchangeStart s) = .next t) :
    Moves [.trc, .host, .het, .evr, .out] s t := by
  unfold execExchangeStart at h
  repeat' (first | contradiction | (injection h with h; subst h) | split at h)
  all_goals (repeat' (first
    | with_reducible exact Moves.refl _ _
    | with_reducible assumption
    | extract_lets
    | with_reducible refine Moves.ite ?_ ?_
    | with_reducible refine (State.modHet_moves ..).after (by decide) ?_
    | with_reducible refine (State.advanceExchange_moves ..).after (by decide) ?_
    | with_reducible refine (Moves.fold _ _ _ ?_).behind ?_
    | intro _
    | split
    | ((conv => arg 3; with_reducible whnf); split)))

theorem State.mi_moves {m : List Part} {s : State} {q : MiReq} {body : State → State × Nat × List Word} (hc : covers [.out] m = true)
    (hb : ∀ s, Moves m s (body s).1) {t : State} (h : s.mi q body = .next t) : Moves m s t := by
  unfold State.mi at h
  extract_lets pf at h
  split at h
  · injection h with h; subst h; exact .refl m s
  · injection h with h; subst h
    refine Moves.trans ?_ (((State.modOut_moves ..).widen (by decide : _ = true) : Moves [.out] _ _).widen hc)
    cases instDecidableEqBool s.host.fns[q.ctlr].present true with
    | isTrue _ => exact hb s
    | isFalse _ => exact .refl m s

theorem execReadNvmeMiDataStructure_moves (x0 : MiReq) (x1 : BitVec 8) (s : State) {t : State} (h : (execReadNvmeMiDataStructure x0 x1 s) = .next t) :
    Moves [.out] s t := by
  unfold execReadNvmeMiDataStructure at h
  first
  | refine State.mi_moves (by decide) (fun s => ?_) h
  | (split at h
     (injection h with h; subst h; exact Moves.refl _ _)
     refine State.mi_moves (by decide) (fun s => ?_) h)
  all_goals (repeat' (first
    | with_reducible exact Moves.refl _ _
    | with_reducible assumption
    | extract_lets
    | with_reducible refine Moves.ite ?_ ?_
    | with_reducible refine (Moves.fold _ _ _ ?_).behind ?_
    | intro _
    | split
    | ((conv => arg 3; with_reducible whnf); split)))

theorem execNvmSubsystemHealthStatusPoll_moves (x0 : MiReq) (x1 : Bool) (s : State) {t : State} (h : (execNvmSubsystemHealthStatusPoll x0 x1 s) = .next t) :
    Moves [.host, .out] s t := by
  unfold execNvmSubsystemHealthStatusPoll at h
  first
  | refine State.mi_moves (by decide) (fun s => ?_) h
  | (split at h
     (injection h with h; subst h; exact Moves.refl _ _)
     refine State.mi_moves (by decide) (fun s => ?_) h)
  all_goals (repeat' (first
    | with_reducible exact Moves.refl _ _
    | with_reducible assumption
    | extract_lets
    | with_reducible refine Moves.ite ?_ ?_
    | with_reducible refine (State.modHost_moves ..).after (by decide) ?_
    | with_reducible refine (Moves.fold _ _ _ ?_).behind ?_
    | intro _
    | split
    | ((conv => arg 3; with_reducible whnf); split)))

theorem execControllerHealthStatusPoll_moves (x0 : MiReq) (x1 : Bool) (s : State) {t : State} (h : (execControllerHealthStatusPoll x0 x1 s) = .next t) :
    Moves [.host, .out] s t := by
  unfold execControllerHealthStatusPoll at h
  first
  | refine State.mi_moves (by decide) (fun s => ?_) h
  | (split at h
     (injection h with h; subst h; exact Moves.refl _ _)
     refine State.mi_moves (by decide) (fun s => ?_) h)
  all_goals (repeat' (first
    | with_reducible exact Moves.refl _ _
    | with_reducible assumption
    | extract_lets
    | with_reducible refine Moves.ite ?_ ?_
    | with_reducible refine (State.modHost_moves ..).after (by decide) ?_
    | with_reducible refine (Moves.fold _ _ _ ?_).behind ?_
    | intro _
    | split
    | ((conv => arg 3; with_reducible whnf); split)))

theorem execConfigurationSet_moves (x0 : MiReq) (x1 : BitVec 8) (x2 : Word) (s : State) {t : State} (h : (execConfigurationSet x0 x1 x2 s) = .next t) :
    Moves [.host, .out] s t := by
  unfold execConfigurationSet at h
  first
  | refine State.mi_moves (by decide) (fun s => ?_) h
  | (split at h
     (injection h with h; subst h; exact Moves.refl _ _)
     refine State.mi_moves (by decide) (fun s => ?_) h)
  all_goals (repeat' (first
    | with_reducible exact Moves.refl _ _
    | with_reducible assumption
    | extract_lets
    | with_reducible refine Moves.ite ?_ ?_
    | with_reducible refine (State.modHost_moves ..).after (by decide) ?_
    | with_reducible refine (Moves.fold _ _ _ ?_).behind ?_
    | intro _
    | split
    | ((conv => arg 3; with_reducible whnf); split)))

theorem execConfigurationGet_moves (x0 : MiReq) (x1 : BitVec 8) (s : State) {t : State} (h : (execConfigurationGet x0 x1 s) = .next t) :
    Moves [.out] s t := by
  unfold execConfigurationGet at h
  first
  | refine State.mi_moves (by decide) (fun s => ?_) h
  | (split at h
     (injection h with h; subst h; exact Moves.refl _ _)
     refine State.mi_moves (by decide) (fun s => ?_) h)
  all_goals (repeat' (first
    | with_reducible exact Moves.refl _ _
    | with_reducible assumption
    | extract_lets
    | with_reducible refine Moves.ite ?_ ?_
    | with_reducible refine (Moves.fold _ _ _ ?_).behind ?_
    | intro _
    | split
    | ((conv => arg 3; with_reducible whnf); split)))

theorem execVpdRead_moves (x0 : MiReq) (x1 : ℕ) (x2 : ℕ) (s : State) {t : State} (h : (execVpdRead x0 x1 x2 s) = .next t) :
    Moves [.out] s t := by
  unfold execVpdRead at h
  first
  | refine State.mi_moves (by decide) (fun s => ?_) h
  | (split at h
     (injection h with h; subst h; exact Moves.refl _ _)
     refine State.mi_moves (by decide) (fun s => ?_) h)
  all_goals (repeat' (first
    | with_reducible exact Moves.refl _ _
    | with_reducible assumption
    | extract_lets
    | with_reducible refine Moves.ite ?_ ?_
    | with_reducible refine (Moves.fold _ _ _ ?_).behind ?_
    | intro _
    | split
    | ((conv => arg 3; with_reducible whnf); split)))

theorem execVpdWrite_moves (x0 : MiReq) (x1 : ℕ) (x2 : List Byte) (s : State) {t : State} (h : (execVpdWrite x0 x1 x2 s) = .next t) :
    Moves [.nor, .out] s t := by
  unfold execVpdWrite at h
  first
  | refine State.mi_moves (by decide) (fun s => ?_) h
  | (split at h
     (injection h with h; subst h; exact Moves.refl _ _)
     refine State.mi_moves (by decide) (fun s => ?_) h)
  all_goals (repeat' (first
    | with_reducible exact Moves.refl _ _
    | with_reducible assumption
    | extract_lets
    | with_reducible refine Moves.ite ?_ ?_
    | with_reducible refine (State.modNor_moves _ _ (by intro n; repeat' (first | rfl | extract_lets | split))).after (by decide) ?_
    | with_reducible refine (Moves.fold _ _ _ ?_).behind ?_
    | intro _
    | split
    | ((conv => arg 3; with_reducible whnf); split)))

end Sys2Proof.Machine
end

