-- ==== Sys2Proof/Laws/MovesPower.lean ====
section
/-! SUPPORT. What each operation and each command of Machine/Power.lean can touch. -/

namespace Sys2Proof.Machine
open Sys2Proof
set_option linter.all false
set_option Elab.async false

theorem State.endCommits_moves (s : State) :
    Moves [.pwr] s (State.endCommits s) := by
  unfold State.endCommits
  repeat' (first
    | with_reducible exact Moves.refl _ _
    | with_reducible assumption
    | extract_lets
    | with_reducible refine Moves.ite ?_ ?_
    | with_reducible refine (State.modHpw_moves ..).after (by decide) ?_
    | with_reducible refine (State.modEpw_moves ..).after (by decide) ?_
    | with_reducible refine (State.modPwr_moves ..).after (by decide) ?_
    | with_reducible refine (Moves.fold _ _ _ ?_).behind ?_
    | intro _
    | split
    | ((conv => arg 3; with_reducible whnf); split))

theorem State.checkYield_moves (s : State) :
    Moves [.trc, .host, .pwr, .evr, .out] s (State.checkYield s) := by
  unfold State.checkYield
  repeat' (first
    | with_reducible exact Moves.refl _ _
    | with_reducible assumption
    | extract_lets
    | with_reducible refine Moves.ite ?_ ?_
    | with_reducible refine (State.modPwr_moves ..).after (by decide) ?_
    | with_reducible refine (State.record_moves ..).after (by decide) ?_
    | with_reducible refine (State.saturated_moves ..).after (by decide) ?_
    | with_reducible refine (State.vendorEvent_moves ..).after (by decide) ?_
    | with_reducible refine (Moves.fold _ _ _ ?_).behind ?_
    | intro _
    | split
    | ((conv => arg 3; with_reducible whnf); split))

theorem State.dutySlices_moves (s : State) (x1 : Head) :
    Moves [.slice, .pwr] s (State.dutySlices s x1) := by
  unfold State.dutySlices
  repeat' (first
    | with_reducible exact Moves.refl _ _
    | with_reducible assumption
    | extract_lets
    | with_reducible refine Moves.ite ?_ ?_
    | with_reducible refine (State.modSlice_moves ..).after (by decide) ?_
    | with_reducible refine (State.modHpw_moves ..).after (by decide) ?_
    | with_reducible refine (Moves.fold _ _ _ ?_).behind ?_
    | intro _
    | split
    | ((conv => arg 3; with_reducible whnf); split))

theorem State.gateEngines_moves (s : State) (x1 : ℕ) :
    Moves [.pool, .pwr] s (State.gateEngines s x1) := by
  unfold State.gateEngines
  repeat' (first
    | with_reducible exact Moves.refl _ _
    | with_reducible assumption
    | extract_lets
    | with_reducible refine Moves.ite ?_ ?_
    | with_reducible refine (State.modPool_moves ..).after (by decide) ?_
    | with_reducible refine (State.modPwr_moves ..).after (by decide) ?_
    | with_reducible refine (Moves.fold _ _ _ ?_).behind ?_
    | intro _
    | split
    | ((conv => arg 3; with_reducible whnf); split))

theorem State.noteRefusals_moves (s : State) (x1 : Grants) :
    Moves [.q] s (State.noteRefusals s x1) := by
  unfold State.noteRefusals
  repeat' (first
    | with_reducible exact Moves.refl _ _
    | with_reducible assumption
    | extract_lets
    | with_reducible refine Moves.ite ?_ ?_
    | with_reducible refine (State.deferCmd_moves ..).after (by decide) ?_
    | with_reducible refine (State.modQ_moves ..).after (by decide) ?_
    | with_reducible refine (Moves.fold _ _ _ ?_).behind ?_
    | intro _
    | split
    | ((conv => arg 3; with_reducible whnf); split))

theorem State.deliverGrants_moves (s : State) (x1 : List PowerReq) :
    Moves [.slice, .lane, .pool, .trc, .q, .pwr, .evr, .rst, .recv, .engSrv] s (State.deliverGrants s x1) := by
  unfold State.deliverGrants
  repeat' (first
    | with_reducible exact Moves.refl _ _
    | with_reducible assumption
    | extract_lets
    | with_reducible refine Moves.ite ?_ ?_
    | with_reducible refine (State.modHpw_moves ..).after (by decide) ?_
    | with_reducible refine (State.modAct_moves ..).after (by decide) ?_
    | with_reducible refine (State.modEpw_moves ..).after (by decide) ?_
    | with_reducible refine (State.modSrv_moves ..).after (by decide) ?_
    | with_reducible refine (State.modPwr_moves ..).after (by decide) ?_
    | with_reducible refine (State.gateEngines_moves ..).after (by decide) ?_
    | with_reducible refine (State.servePool_moves ..).after (by decide) ?_
    | with_reducible refine (State.dutySlices_moves ..).after (by decide) ?_
    | with_reducible refine (State.noteRefusals_moves ..).after (by decide) ?_
    | with_reducible refine (Moves.fold _ _ _ ?_).behind ?_
    | intro _
    | split
    | ((conv => arg 3; with_reducible whnf); split))

theorem State.answerEpoch_moves (s : State) (x1 : List PowerReq) (x2 : Bool) :
    Moves [.slice, .lane, .pool, .trc, .q, .pwr, .evr, .rst, .recv, .engSrv] s (State.answerEpoch s x1 x2) := by
  unfold State.answerEpoch
  repeat' (first
    | with_reducible exact Moves.refl _ _
    | with_reducible assumption
    | extract_lets
    | with_reducible refine Moves.ite ?_ ?_
    | with_reducible refine (State.deliverGrants_moves ..).after (by decide) ?_
    | with_reducible refine (State.modPwr_moves ..).after (by decide) ?_
    | with_reducible refine (State.saturated_moves ..).after (by decide) ?_
    | with_reducible refine (Moves.fold _ _ _ ?_).behind ?_
    | intro _
    | split
    | ((conv => arg 3; with_reducible whnf); split))

theorem execPowerEpoch_moves (x0 : EpochIn) (s : State) {t : State} (h : (execPowerEpoch x0 s) = .next t) :
    Moves [.slice, .lane, .pool, .trc, .host, .q, .pwr, .evr, .rst, .out, .recv, .engSrv] s t := by
  unfold execPowerEpoch at h
  repeat' (first | contradiction | (injection h with h; subst h) | split at h)
  all_goals (repeat' (first
    | with_reducible exact Moves.refl _ _
    | with_reducible assumption
    | extract_lets
    | with_reducible refine Moves.ite ?_ ?_
    | with_reducible refine (State.deliverGrants_moves ..).after (by decide) ?_
    | with_reducible refine (State.modPwr_moves ..).after (by decide) ?_
    | with_reducible refine (State.endCommits_moves ..).after (by decide) ?_
    | with_reducible refine (State.checkYield_moves ..).after (by decide) ?_
    | with_reducible refine (State.answerEpoch_moves ..).after (by decide) ?_
    | with_reducible refine (Moves.fold _ _ _ ?_).behind ?_
    | intro _
    | split
    | ((conv => arg 3; with_reducible whnf); split)))

theorem execEstOfsUpdate_moves (s : State) {t : State} (h : (execEstOfsUpdate s) = .next t) :
    Moves [.trc, .pwr, .evr] s t := by
  unfold execEstOfsUpdate at h
  repeat' (first | contradiction | (injection h with h; subst h) | split at h)
  all_goals (repeat' (first
    | with_reducible exact Moves.refl _ _
    | with_reducible assumption
    | extract_lets
    | with_reducible refine Moves.ite ?_ ?_
    | with_reducible refine (State.modPwr_moves ..).after (by decide) ?_
    | with_reducible refine (State.saturated_moves ..).after (by decide) ?_
    | with_reducible refine (State.condPwr_moves ..).after (by decide) ?_
    | with_reducible refine (Moves.fold _ _ _ ?_).behind ?_
    | intro _
    | split
    | ((conv => arg 3; with_reducible whnf); split)))

theorem State.askClock_moves (s : State) (x1 : Eng) :
    Moves [.pwr] s (State.askClock s x1) := by
  unfold State.askClock
  repeat' (first
    | with_reducible exact Moves.refl _ _
    | with_reducible assumption
    | extract_lets
    | with_reducible refine Moves.ite ?_ ?_
    | with_reducible refine (State.modEpw_moves ..).after (by decide) ?_
    | with_reducible refine (Moves.fold _ _ _ ?_).behind ?_
    | intro _
    | split
    | ((conv => arg 3; with_reducible whnf); split))

theorem State.setClock_moves (s : State) (x1 : Eng) (x2 : ℕ) :
    Moves [.pwr] s (State.setClock s x1 x2) := by
  unfold State.setClock
  repeat' (first
    | with_reducible exact Moves.refl _ _
    | with_reducible assumption
    | extract_lets
    | with_reducible refine Moves.ite ?_ ?_
    | with_reducible refine (State.modEpw_moves ..).after (by decide) ?_
    | with_reducible refine (Moves.fold _ _ _ ?_).behind ?_
    | intro _
    | split
    | ((conv => arg 3; with_reducible whnf); split))

theorem execIslandClockChange_moves (x0 : Eng) (s : State) {t : State} (h : (execIslandClockChange x0 s) = .next t) :
    Moves [.pwr] s t := by
  unfold execIslandClockChange at h
  repeat' (first | contradiction | (injection h with h; subst h) | split at h)
  all_goals (repeat' (first
    | with_reducible exact Moves.refl _ _
    | with_reducible assumption
    | extract_lets
    | with_reducible refine Moves.ite ?_ ?_
    | with_reducible refine (State.setClock_moves ..).after (by decide) ?_
    | with_reducible refine (Moves.fold _ _ _ ?_).behind ?_
    | intro _
    | split
    | ((conv => arg 3; with_reducible whnf); split)))

theorem execThermalSample_moves (x0 : List Int) (s : State) {t : State} (h : (execThermalSample x0 s) = .next t) :
    Moves [.mems, .lpe, .trc, .pwr, .evr] s t := by
  unfold execThermalSample at h
  repeat' (first | contradiction | (injection h with h; subst h) | split at h)
  all_goals (repeat' (first
    | with_reducible exact Moves.refl _ _
    | with_reducible assumption
    | extract_lets
    | with_reducible refine Moves.ite ?_ ?_
    | with_reducible refine (State.modLpe_moves ..).after (by decide) ?_
    | with_reducible refine (State.latch_moves ..).after (by decide) ?_
    | with_reducible refine (State.modPwr_moves ..).after (by decide) ?_
    | with_reducible refine (State.condPwr_moves ..).after (by decide) ?_
    | with_reducible refine (State.modEpw_moves ..).after (by decide) ?_
    | with_reducible refine (State.askClock_moves ..).after (by decide) ?_
    | with_reducible refine (State.saturated_moves ..).after (by decide) ?_
    | with_reducible refine (State.condPwrEng_moves ..).after (by decide) ?_
    | with_reducible refine (Moves.fold _ _ _ ?_).behind ?_
    | intro _
    | split
    | ((conv => arg 3; with_reducible whnf); split)))

theorem execBoleroEvaluation_moves (x0 : Eng) (s : State) {t : State} (h : (execBoleroEvaluation x0 s) = .next t) :
    Moves [.spn, .pwr] s t := by
  unfold execBoleroEvaluation at h
  repeat' (first | contradiction | (injection h with h; subst h) | split at h)
  all_goals (repeat' (first
    | with_reducible exact Moves.refl _ _
    | with_reducible assumption
    | extract_lets
    | with_reducible refine Moves.ite ?_ ?_
    | with_reducible refine (State.modSpn_moves ..).after (by decide) ?_
    | with_reducible refine (State.modPwr_moves ..).after (by decide) ?_
    | with_reducible refine (Moves.fold _ _ _ ?_).behind ?_
    | intro _
    | split
    | ((conv => arg 3; with_reducible whnf); split)))

theorem opBudgetSet_moves (x0 : Packet) (s : State) :
    Moves [.pwr, .nor] s (opBudgetSet x0 s).state := by
  unfold opBudgetSet
  repeat' (first
    | with_reducible exact Moves.refl _ _
    | with_reducible assumption
    | extract_lets
    | with_reducible refine Moves.ite ?_ ?_
    | with_reducible refine Moves.itePkt ?_ ?_
    | with_reducible refine (State.modNor_moves _ _ (by intro n; repeat' (first | rfl | extract_lets | split))).after (by decide) ?_
    | with_reducible refine (State.modPwr_moves ..).after (by decide) ?_
    | with_reducible refine (Moves.fold _ _ _ ?_).behind ?_
    | intro _
    | split
    | ((conv => arg 3; with_reducible whnf); split))

theorem execBudgetSet_moves (x0 : Packet) (s : State) {t : State} (h : (execBudgetSet x0 s) = .next t) :
    Moves [.trc, .host, .het, .pwr, .evr, .nor, .out] s t := by
  unfold execBudgetSet at h
  repeat' (first | contradiction | (injection h with h; subst h) | split at h)
  all_goals (repeat' (first
    | with_reducible exact Moves.refl _ _
    | with_reducible assumption
    | extract_lets
    | with_reducible refine Moves.ite ?_ ?_
    | with_reducible refine Moves.itePkt ?_ ?_
    | with_reducible refine (opBudgetSet_moves ..).after (by decide) ?_
    | with_reducible refine runPacket_moves (by decide) (fun s => ?_)
    | with_reducible refine (Moves.fold _ _ _ ?_).behind ?_
    | intro _
    | split
    | ((conv => arg 3; with_reducible whnf); split)))

theorem execBudgetStatus_moves (x0 : Packet) (s : State) {t : State} (h : (execBudgetStatus x0 s) = .next t) :
    Moves [.trc, .host, .het, .evr, .out] s t := by
  unfold execBudgetStatus at h
  repeat' (first | contradiction | (injection h with h; subst h) | split at h)
  all_goals (repeat' (first
    | with_reducible exact Moves.refl _ _
    | with_reducible assumption
    | extract_lets
    | with_reducible refine Moves.ite ?_ ?_
    | with_reducible refine Moves.itePkt ?_ ?_
    | with_reducible refine runPacket_moves (by decide) (fun s => ?_)
    | with_reducible refine (PktRes.report_moves ..).after (by decide) ?_
    | with_reducible refine (Moves.fold _ _ _ ?_).behind ?_
    | intro _
    | split
    | ((conv => arg 3; with_reducible whnf); split)))

theorem opBudgetConsumer_moves (x0 : Packet) (s : State) :
    Moves [] s (opBudgetConsumer x0 s).state := by
  unfold opBudgetConsumer
  repeat' (first
    | with_reducible exact Moves.refl _ _
    | with_reducible assumption
    | extract_lets
    | with_reducible refine Moves.ite ?_ ?_
    | with_reducible refine Moves.itePkt ?_ ?_
    | with_reducible refine (PktRes.report_moves ..).after (by decide) ?_
    | with_reducible refine (Moves.fold _ _ _ ?_).behind ?_
    | intro _
    | split
    | ((conv => arg 3; with_reducible whnf); split))

theorem execBudgetConsumer_moves (x0 : Packet) (s : State) {t : State} (h : (execBudgetConsumer x0 s) = .next t) :
    Moves [.trc, .host, .het, .evr, .out] s t := by
  unfold execBudgetConsumer at h
  repeat' (first | contradiction | (injection h with h; subst h) | split at h)
  all_goals (repeat' (first
    | with_reducible exact Moves.refl _ _
    | with_reducible assumption
    | extract_lets
    | with_reducible refine Moves.ite ?_ ?_
    | with_reducible refine Moves.itePkt ?_ ?_
    | with_reducible refine (opBudgetConsumer_moves ..).after (by decide) ?_
    | with_reducible refine runPacket_moves (by decide) (fun s => ?_)
    | with_reducible refine (Moves.fold _ _ _ ?_).behind ?_
    | intro _
    | split
    | ((conv => arg 3; with_reducible whnf); split)))

theorem opBudgetClear_moves (x0 : Packet) (s : State) :
    Moves [.pwr] s (opBudgetClear x0 s).state := by
  unfold opBudgetClear
  dsimp only
  repeat' (first
    | with_reducible exact Moves.refl _ _
    | with_reducible assumption
    | extract_lets
    | with_reducible refine Moves.ite ?_ ?_
    | with_reducible refine Moves.itePkt ?_ ?_
    | with_reducible refine (PktRes.fail_moves ..).after (by decide) ?_
    | with_reducible refine (AdmRes.fail_moves ..).after (by decide) ?_
    | with_reducible refine (State.modPwr_moves ..).after (by decide) ?_
    | with_reducible refine (State.modHpw_moves ..).after (by decide) ?_
    | with_reducible refine (Moves.fold _ _ _ ?_).behind ?_
    | intro _
    | split
    | ((conv => arg 3; with_reducible whnf); split))

theorem execBudgetClear_moves (x0 : Packet) (s : State) {t : State} (h : (execBudgetClear x0 s) = .next t) :
    Moves [.trc, .host, .het, .pwr, .evr, .out] s t := by
  unfold execBudgetClear at h
  repeat' (first | contradiction | (injection h with h; subst h) | split at h)
  all_goals (repeat' (first
    | with_reducible exact Moves.refl _ _
    | with_reducible assumption
    | extract_lets
    | with_reducible refine Moves.ite ?_ ?_
    | with_reducible refine Moves.itePkt ?_ ?_
    | with_reducible refine (opBudgetClear_moves ..).after (by decide) ?_
    | with_reducible refine runPacket_moves (by decide) (fun s => ?_)
    | with_reducible refine (Moves.fold _ _ _ ?_).behind ?_
    | intro _
    | split
    | ((conv => arg 3; with_reducible whnf); split)))

end Sys2Proof.Machine
end

