-- ==== Sys2Proof/Laws/MovesStart.lean ====
section
/-! SUPPORT. What each operation and each command of Machine/Start.lean can touch. -/

namespace Sys2Proof.Machine
open Sys2Proof
set_option linter.all false
set_option Elab.async false

theorem State.powerOn_moves (s : State) (cause : Nat) :
    Moves [.free, .mtime, .layout, .slice, .lane, .pool, .mems, .wsl, .lpe, .trc, .spn, .media, .host, .q, .het, .pwr, .mem, .sec, .evr, .nor, .fuse, .rst, .out, .snaps, .reel, .links, .recv, .wrg, .engSrv, .seq, .zdc, .core, .rd, .det, .wr, .headSrv, .map, .freq] s (s.powerOn cause) := by
  unfold State.powerOn
  extract_lets nor
  refine Moves.trans ?_ ((State.newNonce_moves ..).widen (by decide))
  exact {
    same := fun y hy => by cases y <;> first | exact absurd hy (by decide)
    queue := rfl, dram := fun _ => (by decide : Memory.wf State.reset.mem.dram = true)
    window := fun _ => (by decide : Memory.localWf State.reset.mem.local_ = true), stored := id, inEffect := fun _ g => g, raised := Nat.le_refl _
    top := id
    revoked := by simp
    ident := rfl }

theorem execPowerOnReset_moves (s : State) {t : State} (h : (execPowerOnReset s) = .next t) :
    Moves [.free, .mtime, .layout, .slice, .lane, .pool, .mems, .wsl, .lpe, .trc, .spn, .media, .host, .q, .het, .pwr, .mem, .sec, .evr, .nor, .fuse, .rst, .out, .snaps, .reel, .links, .recv, .wrg, .engSrv, .seq, .zdc, .core, .rd, .det, .wr, .headSrv, .map, .freq] s t := by
  unfold execPowerOnReset at h
  repeat' (first | contradiction | (injection h with h; subst h) | split at h)
  all_goals (repeat' (first
    | with_reducible exact Moves.refl _ _
    | with_reducible assumption
    | extract_lets
    | with_reducible refine Moves.ite ?_ ?_
    | with_reducible refine (State.powerOn_moves ..).after (by decide) ?_
    | with_reducible refine (State.modRst_moves ..).after (by decide) ?_
    | with_reducible refine (Moves.fold _ _ _ ?_).behind ?_
    | intro _
    | split
    | ((conv => arg 3; with_reducible whnf); split)))

theorem execRailFault_moves (s : State) {t : State} (h : (execRailFault s) = .next t) :
    Moves [.free, .mtime, .layout, .slice, .lane, .pool, .mems, .wsl, .lpe, .trc, .spn, .media, .host, .q, .het, .pwr, .mem, .sec, .evr, .nor, .fuse, .rst, .out, .snaps, .reel, .links, .recv, .wrg, .engSrv, .seq, .zdc, .core, .rd, .det, .wr, .headSrv, .map, .freq] s t := by
  unfold execRailFault at h
  repeat' (first | contradiction | (injection h with h; subst h) | split at h)
  all_goals (repeat' (first
    | with_reducible exact Moves.refl _ _
    | with_reducible assumption
    | extract_lets
    | with_reducible refine Moves.ite ?_ ?_
    | with_reducible refine (State.powerOn_moves ..).after (by decide) ?_
    | with_reducible refine (Moves.fold _ _ _ ?_).behind ?_
    | intro _
    | split
    | ((conv => arg 3; with_reducible whnf); split)))

theorem State.startImage_moves (s : State) (x1 : ℕ) :
    Moves [.sec, .rst] s (State.startImage s x1) := by
  unfold State.startImage
  repeat' (first
    | with_reducible exact Moves.refl _ _
    | with_reducible assumption
    | extract_lets
    | with_reducible refine Moves.ite ?_ ?_
    | with_reducible refine (State.modSec_moves ..).after (by decide) ?_
    | with_reducible refine (State.modRst_moves ..).after (by decide) ?_
    | with_reducible refine (Moves.fold _ _ _ ?_).behind ?_
    | intro _
    | split
    | ((conv => arg 3; with_reducible whnf); split))

theorem State.presentFn_moves (s : State) (x1 : Fn) :
    Moves [.host] s (State.presentFn s x1) := by
  unfold State.presentFn
  repeat' (first
    | with_reducible exact Moves.refl _ _
    | with_reducible assumption
    | extract_lets
    | with_reducible refine Moves.ite ?_ ?_
    | with_reducible refine (State.modFn_moves ..).after (by decide) ?_
    | with_reducible refine (Moves.fold _ _ _ ?_).behind ?_
    | intro _
    | split
    | ((conv => arg 3; with_reducible whnf); split))

theorem execBootRomDone_moves (s : State) {t : State} (h : (execBootRomDone s) = .next t) :
    Moves [.trc, .host, .sec, .evr, .rst] s t := by
  unfold execBootRomDone at h
  repeat' (first | contradiction | (injection h with h; subst h) | split at h)
  all_goals (repeat' (first
    | with_reducible exact Moves.refl _ _
    | with_reducible assumption
    | extract_lets
    | with_reducible refine Moves.ite ?_ ?_
    | with_reducible refine (State.startImage_moves ..).after (by decide) ?_
    | with_reducible refine (State.presentFn_moves ..).after (by decide) ?_
    | with_reducible refine (State.condSec_moves ..).after (by decide) ?_
    | with_reducible refine (State.modSec_moves ..).after (by decide) ?_
    | with_reducible refine (State.modRst_moves ..).after (by decide) ?_
    | with_reducible refine (Moves.fold _ _ _ ?_).behind ?_
    | intro _
    | split
    | ((conv => arg 3; with_reducible whnf); split)))

theorem execFirstStageLoaderDone_moves (x0 : Bool) (x1 : Bool) (s : State) {t : State} (h : (execFirstStageLoaderDone x0 x1 s) = .next t) :
    Moves [.mem, .sec, .nor, .fuse, .rst] s t := by
  unfold execFirstStageLoaderDone at h
  repeat' (first | contradiction | (injection h with h; subst h) | split at h)
  all_goals (repeat' (first
    | with_reducible exact Moves.refl _ _
    | with_reducible assumption
    | extract_lets
    | with_reducible refine Moves.ite ?_ ?_
    | with_reducible refine (State.raiseRoll_moves ..).after (by decide) ?_
    | with_reducible refine (State.advanceAlias_moves ..).after (by decide) ?_
    | with_reducible refine (State.modSec_moves ..).after (by decide) ?_
    | with_reducible refine (State.modMem_moves _ _ (by intro n; repeat' (first | rfl | extract_lets | split)) (by intro n; repeat' (first | rfl | extract_lets | split))).after (by decide) ?_
    | with_reducible refine (State.modRst_moves ..).after (by decide) ?_
    | with_reducible refine (Moves.fold _ _ _ ?_).behind ?_
    | intro _
    | split
    | ((conv => arg 3; with_reducible whnf); split)))

theorem State.applyLayout_moves (s : State) :
    Moves [.layout, .media, .nor] s s.applyLayout := by
  unfold State.applyLayout
  split
  · exact .refl _ s
  · extract_lets s1 none4
    have h1 : Moves [.layout, .media, .nor] s s1 := {
      same := fun y hy => by cases y <;> first | rfl | exact absurd hy (by decide) | exact fun _ => rfl
      queue := rfl, dram := id, window := id, stored := id, inEffect := fun h _ => h, raised := Nat.le_refl _, top := id
      revoked := by simp [s1]
      ident := rfl }
    with_reducible refine (State.modMedia_moves ..).after (by decide) ?_
    with_reducible refine (State.modNor_moves _ _ ?_).after (by decide) ?_
    · exact fun _ => rfl
    · exact h1

theorem State.loadEngine_moves (s : State) (x1 : Eng) :
    Moves [.rst, .links, .engSrv, .seq] s (State.loadEngine s x1) := by
  unfold State.loadEngine
  repeat' (first
    | with_reducible exact Moves.refl _ _
    | with_reducible assumption
    | extract_lets
    | with_reducible refine Moves.ite ?_ ?_
    | with_reducible refine (State.modSrv_moves ..).after (by decide) ?_
    | with_reducible refine (State.modSeq_moves ..).after (by decide) ?_
    | with_reducible refine (State.modLink_moves ..).after (by decide) ?_
    | with_reducible refine (State.modAct_moves ..).after (by decide) ?_
    | with_reducible refine (Moves.fold _ _ _ ?_).behind ?_
    | intro _
    | split
    | ((conv => arg 3; with_reducible whnf); split))

theorem State.loadHead_moves (s : State) (x1 : Head) :
    Moves [.slice, .rd, .det, .wr, .headSrv, .map, .freq] s (State.loadHead s x1) := by
  unfold State.loadHead
  repeat' (first
    | with_reducible exact Moves.refl _ _
    | with_reducible assumption
    | extract_lets
    | with_reducible refine Moves.ite ?_ ?_
    | with_reducible refine (State.modWr_moves ..).after (by decide) ?_
    | with_reducible refine (State.modHs_moves ..).after (by decide) ?_
    | with_reducible refine (State.modMap_moves ..).after (by decide) ?_
    | with_reducible refine (State.loadEntry_moves ..).after (by decide) ?_
    | with_reducible refine (Moves.fold _ _ _ ?_).behind ?_
    | intro _
    | split
    | ((conv => arg 3; with_reducible whnf); split))

theorem State.loadSpindle_moves (s : State) :
    Moves [.trc, .spn, .evr] s (State.loadSpindle s) := by
  unfold State.loadSpindle
  repeat' (first
    | with_reducible exact Moves.refl _ _
    | with_reducible assumption
    | extract_lets
    | with_reducible refine Moves.ite ?_ ?_
    | with_reducible refine (State.setPavane_moves ..).after (by decide) ?_
    | with_reducible refine (State.modSpn_moves ..).after (by decide) ?_
    | with_reducible refine (Moves.fold _ _ _ ?_).behind ?_
    | intro _
    | split
    | ((conv => arg 3; with_reducible whnf); split))

theorem State.loadModule_moves (s : State) :
    Moves [.media, .host, .q, .pwr, .mem, .sec, .evr, .rst] s (State.loadModule s) := by
  unfold State.loadModule
  repeat' (first
    | with_reducible exact Moves.refl _ _
    | with_reducible assumption
    | extract_lets
    | with_reducible refine Moves.ite ?_ ?_
    | with_reducible refine (State.modHost_moves ..).after (by decide) ?_
    | with_reducible refine (State.modQ_moves ..).after (by decide) ?_
    | with_reducible refine (State.modPwr_moves ..).after (by decide) ?_
    | with_reducible refine (State.modMem_moves _ _ (by intro n; repeat' (first | rfl | extract_lets | split)) (by intro n; repeat' (first | rfl | extract_lets | split))).after (by decide) ?_
    | with_reducible refine (State.modEvr_moves ..).after (by decide) ?_
    | with_reducible refine (State.modRst_moves ..).after (by decide) ?_
    | with_reducible refine (State.modMedia_moves ..).after (by decide) ?_
    | with_reducible refine (State.modSec_moves ..).after (by decide) ?_
    | with_reducible refine (Moves.fold _ _ _ ?_).behind ?_
    | intro _
    | split
    | ((conv => arg 3; with_reducible whnf); split))

theorem State.loadLoops_moves (s : State) :
    Moves [.lpe, .engSrv, .headSrv] s (State.loadLoops s) := by
  unfold State.loadLoops
  repeat' (first
    | with_reducible exact Moves.refl _ _
    | with_reducible assumption
    | extract_lets
    | with_reducible refine Moves.ite ?_ ?_
    | with_reducible refine (State.enableSlot_moves ..).after (by decide) ?_
    | with_reducible refine (State.modLpe_moves ..).after (by decide) ?_
    | with_reducible refine (Moves.fold _ _ _ ?_).behind ?_
    | intro _
    | split
    | ((conv => arg 3; with_reducible whnf); split))

theorem State.bindLanes_moves (s : State) (x1 : BitVec 24) :
    Moves [.lane] s (State.bindLanes s x1) := by
  unfold State.bindLanes
  repeat' (first
    | with_reducible exact Moves.refl _ _
    | with_reducible assumption
    | extract_lets
    | with_reducible refine Moves.ite ?_ ?_
    | with_reducible refine (State.modLane_moves ..).after (by decide) ?_
    | with_reducible refine (Moves.fold _ _ _ ?_).behind ?_
    | intro _
    | split
    | ((conv => arg 3; with_reducible whnf); split))

theorem State.sealLate_moves (s : State) :
    Moves [.sec, .evr, .nor] s (State.sealLate s) := by
  unfold State.sealLate
  repeat' (first
    | with_reducible exact Moves.refl _ _
    | with_reducible assumption
    | extract_lets
    | with_reducible refine Moves.ite ?_ ?_
    | with_reducible refine (State.sealBlock_moves ..).after (by decide) ?_
    | with_reducible refine (State.modNor_moves _ _ (by intro n; repeat' (first | rfl | extract_lets | split))).after (by decide) ?_
    | with_reducible refine (Moves.fold _ _ _ ?_).behind ?_
    | intro _
    | split
    | ((conv => arg 3; with_reducible whnf); split))

theorem execMainFirmwareDone_moves (x0 : BitVec 24) (s : State) {t : State} (h : (execMainFirmwareDone x0 s) = .next t) :
    Moves [.layout, .slice, .lane, .lpe, .trc, .spn, .media, .host, .q, .pwr, .mem, .sec, .evr, .nor, .rst, .reel, .links, .engSrv, .seq, .rd, .det, .wr, .headSrv, .map, .freq] s t := by
  unfold execMainFirmwareDone at h
  repeat' (first | contradiction | (injection h with h; subst h) | split at h)
  all_goals (repeat' (first
    | with_reducible exact Moves.refl _ _
    | with_reducible assumption
    | extract_lets
    | with_reducible refine Moves.ite ?_ ?_
    | with_reducible refine (State.sealLate_moves ..).after (by decide) ?_
    | with_reducible refine (State.presentFn_moves ..).after (by decide) ?_
    | with_reducible refine (State.loadSpindle_moves ..).after (by decide) ?_
    | with_reducible refine (State.loadModule_moves ..).after (by decide) ?_
    | with_reducible refine (State.loadLoops_moves ..).after (by decide) ?_
    | with_reducible refine (State.loadHead_moves ..).after (by decide) ?_
    | with_reducible refine (State.loadEngine_moves ..).after (by decide) ?_
    | with_reducible refine (State.bindLanes_moves ..).after (by decide) ?_
    | with_reducible refine (State.applyLayout_moves ..).after (by decide) ?_
    | with_reducible refine (State.startSeq_moves ..).after (by decide) ?_
    | with_reducible refine (State.loadStore_moves ..).after (by decide) ?_
    | with_reducible refine (State.spindleStart_moves ..).after (by decide) ?_
    | with_reducible refine (State.record_moves ..).after (by decide) ?_
    | with_reducible refine (State.modNor_moves _ _ (by intro n; repeat' (first | rfl | extract_lets | split))).after (by decide) ?_
    | with_reducible refine (State.modRst_moves ..).after (by decide) ?_
    | with_reducible refine (Moves.fold _ _ _ ?_).behind ?_
    | intro _
    | split
    | ((conv => arg 3; with_reducible whnf); split)))

theorem State.startZones_moves (s : State) :
    Moves [.media, .host, .nor, .rst] s (State.startZones s) := by
  unfold State.startZones
  repeat' (first
    | with_reducible exact Moves.refl _ _
    | with_reducible assumption
    | extract_lets
    | with_reducible refine Moves.ite ?_ ?_
    | with_reducible refine (State.putRecord_moves ..).after (by decide) ?_
    | with_reducible refine (State.modNor_moves _ _ (by intro n; repeat' (first | rfl | extract_lets | split))).after (by decide) ?_
    | with_reducible refine (State.modMedia_moves ..).after (by decide) ?_
    | with_reducible refine (State.modHost_moves ..).after (by decide) ?_
    | with_reducible refine (State.modRst_moves ..).after (by decide) ?_
    | with_reducible refine (Moves.fold _ _ _ ?_).behind ?_
    | intro _
    | split
    | ((conv => arg 3; with_reducible whnf); split))

theorem State.noteLoss_moves (s : State) (x1 : Bool) :
    Moves [.trc, .evr, .nor, .rst] s (State.noteLoss s x1) := by
  unfold State.noteLoss
  repeat' (first
    | with_reducible exact Moves.refl _ _
    | with_reducible assumption
    | extract_lets
    | with_reducible refine Moves.ite ?_ ?_
    | with_reducible refine (State.saturated_moves ..).after (by decide) ?_
    | with_reducible refine (State.modNor_moves _ _ (by intro n; repeat' (first | rfl | extract_lets | split))).after (by decide) ?_
    | with_reducible refine (State.modRst_moves ..).after (by decide) ?_
    | with_reducible refine (Moves.fold _ _ _ ?_).behind ?_
    | intro _
    | split
    | ((conv => arg 3; with_reducible whnf); split))

theorem State.startSpares_moves (s : State) (x1 : Eng) :
    Moves [.trc, .evr, .recv] s (State.startSpares s x1) := by
  unfold State.startSpares
  repeat' (first
    | with_reducible exact Moves.refl _ _
    | with_reducible assumption
    | extract_lets
    | with_reducible refine Moves.ite ?_ ?_
    | with_reducible refine (State.measureSpares_moves ..).after (by decide) ?_
    | with_reducible refine (State.spareState_moves ..).after (by decide) ?_
    | with_reducible refine (State.modRec_moves ..).after (by decide) ?_
    | with_reducible refine (Moves.fold _ _ _ ?_).behind ?_
    | intro _
    | split
    | ((conv => arg 3; with_reducible whnf); split))

theorem State.applyConv_moves (s : State) :
    Moves [.free, .trc, .media, .host, .evr, .nor, .out, .zdc] s (State.applyConv s) := by
  unfold State.applyConv
  repeat' (first
    | with_reducible exact Moves.refl _ _
    | with_reducible assumption
    | extract_lets
    | with_reducible refine Moves.ite ?_ ?_
    | with_reducible refine (State.setZone_moves ..).after (by decide) ?_
    | with_reducible refine (State.modMedia_moves ..).after (by decide) ?_
    | with_reducible refine (State.modNor_moves _ _ (by intro n; repeat' (first | rfl | extract_lets | split))).after (by decide) ?_
    | with_reducible refine (Moves.fold _ _ _ ?_).behind ?_
    | intro _
    | split
    | ((conv => arg 3; with_reducible whnf); split))

theorem State.reserveLog_moves (s : State) (x1 : Eng) (x2 : ℕ) (x3 : ℕ) :
    Moves [.free, .trc, .media, .host, .evr, .nor, .out, .zdc] s (State.reserveLog s x1 x2 x3) := by
  induction x3 generalizing s with
  | zero => exact .refl _ s
  | succ n ih =>
    unfold State.reserveLog
    refine Moves.ite (.refl _ s) ?_
    split
    · exact (ih _).behind ((State.setZone_moves ..).widen (by decide))
    · exact .refl _ s

theorem State.reserveImages_moves (s : State) (x1 : Eng) :
    Moves [.free, .trc, .media, .host, .evr, .nor, .out, .zdc] s (State.reserveImages s x1) := by
  unfold State.reserveImages
  repeat' (first
    | with_reducible exact Moves.refl _ _
    | with_reducible assumption
    | extract_lets
    | with_reducible refine Moves.ite ?_ ?_
    | with_reducible refine (State.setZone_moves ..).after (by decide) ?_
    | with_reducible refine (State.modNor_moves _ _ (by intro n; repeat' (first | rfl | extract_lets | split))).after (by decide) ?_
    | with_reducible refine (Moves.fold _ _ _ ?_).behind ?_
    | intro _
    | split
    | ((conv => arg 3; with_reducible whnf); split))

theorem State.reserveConv_moves (s : State) :
    Moves [.free, .trc, .media, .host, .evr, .nor, .out, .zdc] s (State.reserveConv s) := by
  unfold State.reserveConv
  repeat' (first
    | with_reducible exact Moves.refl _ _
    | with_reducible assumption
    | extract_lets
    | with_reducible refine Moves.ite ?_ ?_
    | with_reducible refine (State.reserveLog_moves ..).after (by decide) ?_
    | with_reducible refine (State.reserveImages_moves ..).after (by decide) ?_
    | with_reducible refine (Moves.fold _ _ _ ?_).behind ?_
    | intro _
    | split
    | ((conv => arg 3; with_reducible whnf); split))

theorem execTablesDone_moves (s : State) {t : State} (h : (execTablesDone s) = .next t) :
    Moves [.free, .slice, .lane, .pool, .wsl, .lpe, .trc, .media, .host, .q, .pwr, .sec, .evr, .nor, .rst, .out, .links, .recv, .engSrv, .seq, .zdc, .rd, .det, .wr, .headSrv, .map, .freq] s t := by
  unfold execTablesDone at h
  repeat' (first | contradiction | (injection h with h; subst h) | split at h)
  all_goals (repeat' (first
    | with_reducible exact Moves.refl _ _
    | with_reducible assumption
    | extract_lets
    | with_reducible refine Moves.ite ?_ ?_
    | with_reducible refine (State.noteLoss_moves ..).after (by decide) ?_
    | with_reducible refine (State.startZones_moves ..).after (by decide) ?_
    | with_reducible refine (State.startSpares_moves ..).after (by decide) ?_
    | with_reducible refine (State.applyConv_moves ..).after (by decide) ?_
    | with_reducible refine (State.reserveConv_moves ..).after (by decide) ?_
    | with_reducible refine (State.modRst_moves ..).after (by decide) ?_
    | with_reducible refine (State.modHost_moves ..).after (by decide) ?_
    | with_reducible refine (State.headFail_moves ..).after (by decide) ?_
    | with_reducible refine (Moves.fold _ _ _ ?_).behind ?_
    | intro _
    | split
    | ((conv => arg 3; with_reducible whnf); split)))

theorem execReadForward_moves (x0 : ZoneNo) (x1 : List RdFwd) (s : State) {t : State} (h : (execReadForward x0 x1 s) = .next t) :
    Moves [.free, .trc, .media, .host, .evr, .nor, .rst, .out, .zdc, .map] s t := by
  unfold execReadForward at h
  repeat' (first | contradiction | (injection h with h; subst h) | split at h)
  all_goals (repeat' (first
    | with_reducible exact Moves.refl _ _
    | with_reducible assumption
    | extract_lets
    | with_reducible refine Moves.ite ?_ ?_
    | with_reducible refine (State.addDefect_moves ..).after (by decide) ?_
    | with_reducible refine (State.setZone_moves ..).after (by decide) ?_
    | with_reducible refine (State.modRst_moves ..).after (by decide) ?_
    | with_reducible refine (Moves.fold _ _ _ ?_).behind ?_
    | intro _
    | split
    | ((conv => arg 3; with_reducible whnf); split)))

theorem execIndirectionReplay_moves (x0 : Bool) (s : State) {t : State} (h : (execIndirectionReplay x0 s) = .next t) :
    Moves [.media, .q, .rst] s t := by
  unfold execIndirectionReplay at h
  repeat' (first | contradiction | (injection h with h; subst h) | split at h)
  all_goals (repeat' (first
    | with_reducible exact Moves.refl _ _
    | with_reducible assumption
    | extract_lets
    | with_reducible refine Moves.ite ?_ ?_
    | with_reducible refine (State.markLost_moves ..).after (by decide) ?_
    | with_reducible refine (State.modQ_moves ..).after (by decide) ?_
    | with_reducible refine (State.modMedia_moves ..).after (by decide) ?_
    | with_reducible refine (State.modRst_moves ..).after (by decide) ?_
    | with_reducible refine (Moves.fold _ _ _ ?_).behind ?_
    | intro _
    | split
    | ((conv => arg 3; with_reducible whnf); split)))

theorem execPohStore_moves (s : State) {t : State} (h : (execPohStore s) = .next t) :
    Moves [.nor] s t := by
  unfold execPohStore at h
  repeat' (first | contradiction | (injection h with h; subst h) | split at h)
  all_goals (repeat' (first
    | with_reducible exact Moves.refl _ _
    | with_reducible assumption
    | extract_lets
    | with_reducible refine Moves.ite ?_ ?_
    | with_reducible refine (State.modNor_moves _ _ (by intro n; repeat' (first | rfl | extract_lets | split))).after (by decide) ?_
    | with_reducible refine (Moves.fold _ _ _ ?_).behind ?_
    | intro _
    | split
    | ((conv => arg 3; with_reducible whnf); split)))

theorem execMpCheckpoint_moves (s : State) {t : State} (h : (execMpCheckpoint s) = .next t) :
    Moves [.nor, .rst] s t := by
  unfold execMpCheckpoint at h
  repeat' (first | contradiction | (injection h with h; subst h) | split at h)
  all_goals (repeat' (first
    | with_reducible exact Moves.refl _ _
    | with_reducible assumption
    | extract_lets
    | with_reducible refine Moves.ite ?_ ?_
    | with_reducible refine (State.checkpoint_moves ..).after (by decide) ?_
    | with_reducible refine (State.modRst_moves ..).after (by decide) ?_
    | with_reducible refine (Moves.fold _ _ _ ?_).behind ?_
    | intro _
    | split
    | ((conv => arg 3; with_reducible whnf); split)))

theorem State.endModuleReset_moves (s : State) :
    Moves [.trc, .host, .het, .evr, .rst, .out] s (State.endModuleReset s) := by
  unfold State.endModuleReset
  repeat' (first
    | with_reducible exact Moves.refl _ _
    | with_reducible assumption
    | extract_lets
    | with_reducible refine Moves.ite ?_ ?_
    | with_reducible refine (State.admin_moves ..).after (by decide) ?_
    | with_reducible refine (State.replyWaiting_moves ..).after (by decide) ?_
    | with_reducible refine (State.modRst_moves ..).after (by decide) ?_
    | with_reducible refine (Moves.fold _ _ _ ?_).behind ?_
    | intro _
    | split
    | ((conv => arg 3; with_reducible whnf); split))

theorem execIndirectionImage_moves (s : State) {t : State} (h : (execIndirectionImage s) = .next t) :
    Moves [.trc, .host, .het, .evr, .nor, .rst, .out] s t := by
  unfold execIndirectionImage at h
  repeat' (first | contradiction | (injection h with h; subst h) | split at h)
  all_goals (repeat' (first
    | with_reducible exact Moves.refl _ _
    | with_reducible assumption
    | extract_lets
    | with_reducible refine Moves.ite ?_ ?_
    | with_reducible refine (State.modNor_moves _ _ (by intro n; repeat' (first | rfl | extract_lets | split))).after (by decide) ?_
    | with_reducible refine (State.modRst_moves ..).after (by decide) ?_
    | with_reducible refine (State.endModuleReset_moves ..).after (by decide) ?_
    | with_reducible refine (Moves.fold _ _ _ ?_).behind ?_
    | intro _
    | split
    | ((conv => arg 3; with_reducible whnf); split)))

theorem execHeadLoad_moves (x0 : Eng) (s : State) {t : State} (h : (execHeadLoad x0 s) = .next t) :
    Moves [.slice, .lane, .pool, .lpe, .trc, .pwr, .evr, .rst, .reel, .links, .recv, .engSrv, .seq, .rd, .det, .wr, .headSrv, .map, .freq] s t := by
  unfold execHeadLoad at h
  repeat' (first | contradiction | (injection h with h; subst h) | split at h)
  all_goals (repeat' (first
    | with_reducible exact Moves.refl _ _
    | with_reducible assumption
    | extract_lets
    | with_reducible refine Moves.ite ?_ ?_
    | with_reducible refine (State.setClock_moves ..).after (by decide) ?_
    | with_reducible refine (State.modEpw_moves ..).after (by decide) ?_
    | with_reducible refine (State.modSlice_moves ..).after (by decide) ?_
    | with_reducible refine (State.modHpw_moves ..).after (by decide) ?_
    | with_reducible refine (State.enableSlot_moves ..).after (by decide) ?_
    | with_reducible refine (State.modLoop_moves ..).after (by decide) ?_
    | with_reducible refine (State.modSrv_moves ..).after (by decide) ?_
    | with_reducible refine (State.modAct_moves ..).after (by decide) ?_
    | with_reducible refine (State.enterAcquire_moves ..).after (by decide) ?_
    | with_reducible refine (Moves.fold _ _ _ ?_).behind ?_
    | intro _
    | split
    | ((conv => arg 3; with_reducible whnf); split)))

theorem execLoadTimeout_moves (x0 : Eng) (s : State) {t : State} (h : (execLoadTimeout x0 s) = .next t) :
    Moves [.free, .slice, .lane, .pool, .trc, .media, .host, .q, .het, .sec, .evr, .nor, .rst, .out, .reel, .links, .recv, .engSrv, .seq, .zdc, .core, .det, .wr, .headSrv] s t := by
  unfold execLoadTimeout at h
  repeat' (first | contradiction | (injection h with h; subst h) | split at h)
  all_goals (repeat' (first
    | with_reducible exact Moves.refl _ _
    | with_reducible assumption
    | extract_lets
    | with_reducible refine Moves.ite ?_ ?_
    | with_reducible refine (State.modAct_moves ..).after (by decide) ?_
    | with_reducible refine (State.saturated_moves ..).after (by decide) ?_
    | with_reducible refine (State.condAct_moves ..).after (by decide) ?_
    | with_reducible refine (State.controlledUnload_moves ..).after (by decide) ?_
    | with_reducible refine (State.engineFail_moves ..).after (by decide) ?_
    | with_reducible refine (Moves.fold _ _ _ ?_).behind ?_
    | intro _
    | split
    | ((conv => arg 3; with_reducible whnf); split)))

theorem execParkDone_moves (x0 : Eng) (s : State) {t : State} (h : (execParkDone x0 s) = .next t) :
    Moves [.free, .trc, .host, .het, .evr, .nor, .rst, .out, .links, .engSrv, .seq, .wr, .headSrv] s t := by
  unfold execParkDone at h
  repeat' (first | contradiction | (injection h with h; subst h) | split at h)
  all_goals (repeat' (first
    | with_reducible exact Moves.refl _ _
    | with_reducible assumption
    | extract_lets
    | with_reducible refine Moves.ite ?_ ?_
    | with_reducible refine (State.pavane_moves ..).after (by decide) ?_
    | with_reducible refine (State.fresh_moves ..).after (by decide) ?_
    | with_reducible refine (State.modSrv_moves ..).after (by decide) ?_
    | with_reducible refine (State.modAct_moves ..).after (by decide) ?_
    | with_reducible refine (State.modNor_moves _ _ (by intro n; repeat' (first | rfl | extract_lets | split))).after (by decide) ?_
    | with_reducible refine (State.replyWaiting_moves ..).after (by decide) ?_
    | with_reducible refine Moves.pair1 (by assumption) ?_
    | with_reducible refine Moves.pair2 (by assumption) ?_
    | with_reducible refine (Moves.fold _ _ _ ?_).behind ?_
    | intro _
    | split
    | ((conv => arg 3; with_reducible whnf); split)))

theorem State.restartEngine_moves (s : State) (x1 : Eng) :
    Moves [.free, .slice, .lane, .pool, .trc, .media, .host, .q, .het, .pwr, .sec, .evr, .nor, .rst, .out, .reel, .recv, .seq, .zdc, .rd, .det, .wr, .headSrv, .map, .freq] s (State.restartEngine s x1) := by
  unfold State.restartEngine
  repeat' (first
    | with_reducible exact Moves.refl _ _
    | with_reducible assumption
    | extract_lets
    | with_reducible refine Moves.ite ?_ ?_
    | with_reducible refine (State.modZdc_moves ..).after (by decide) ?_
    | with_reducible refine (State.zdcSettle_moves ..).after (by decide) ?_
    | with_reducible refine (State.unbias_moves ..).after (by decide) ?_
    | with_reducible refine (State.releaseJob_moves ..).after (by decide) ?_
    | with_reducible refine (State.modJob_moves ..).after (by decide) ?_
    | with_reducible refine (State.loadStore_moves ..).after (by decide) ?_
    | with_reducible refine (State.modSeq_moves ..).after (by decide) ?_
    | with_reducible refine (State.dropHead_moves ..).after (by decide) ?_
    | with_reducible refine (State.startSeq_moves ..).after (by decide) ?_
    | with_reducible refine (State.patchApplied_moves ..).after (by decide) ?_
    | with_reducible refine (State.modAct_moves ..).after (by decide) ?_
    | with_reducible refine (State.replyWaiting_moves ..).after (by decide) ?_
    | with_reducible refine (Moves.fold _ _ _ ?_).behind ?_
    | intro _
    | split
    | ((conv => arg 3; with_reducible whnf); split))

theorem execRetractBiasEnd_moves (x0 : Eng) (s : State) {t : State} (h : (execRetractBiasEnd x0 s) = .next t) :
    Moves [.free, .slice, .lane, .pool, .lpe, .trc, .spn, .media, .host, .q, .het, .pwr, .sec, .evr, .nor, .rst, .out, .reel, .links, .recv, .engSrv, .seq, .zdc, .rd, .det, .wr, .headSrv, .map, .freq] s t := by
  unfold execRetractBiasEnd at h
  repeat' (first | contradiction | (injection h with h; subst h) | split at h)
  all_goals (repeat' (first
    | with_reducible exact Moves.refl _ _
    | with_reducible assumption
    | extract_lets
    | with_reducible refine Moves.ite ?_ ?_
    | with_reducible refine (State.modAct_moves ..).after (by decide) ?_
    | with_reducible refine (State.modSrv_moves ..).after (by decide) ?_
    | with_reducible refine (State.disableEngineLoops_moves ..).after (by decide) ?_
    | with_reducible refine (State.modSlice_moves ..).after (by decide) ?_
    | with_reducible refine (State.modHpw_moves ..).after (by decide) ?_
    | with_reducible refine (State.setClock_moves ..).after (by decide) ?_
    | with_reducible refine (State.enterIdle_moves ..).after (by decide) ?_
    | with_reducible refine (State.restartEngine_moves ..).after (by decide) ?_
    | with_reducible refine (State.spindleStop_moves ..).after (by decide) ?_
    | with_reducible refine (State.modSpn_moves ..).after (by decide) ?_
    | with_reducible refine (Moves.fold _ _ _ ?_).behind ?_
    | intro _
    | split
    | ((conv => arg 3; with_reducible whnf); split)))

theorem execUnloadTimeout_moves (x0 : Eng) (s : State) {t : State} (h : (execUnloadTimeout x0 s) = .next t) :
    Moves [.free, .slice, .lane, .pool, .trc, .media, .host, .q, .het, .sec, .evr, .nor, .rst, .out, .links, .recv, .engSrv, .seq, .zdc, .core, .det, .wr, .headSrv] s t := by
  unfold execUnloadTimeout at h
  repeat' (first | contradiction | (injection h with h; subst h) | split at h)
  all_goals (repeat' (first
    | with_reducible exact Moves.refl _ _
    | with_reducible assumption
    | extract_lets
    | with_reducible refine Moves.ite ?_ ?_
    | with_reducible refine (State.pavane_moves ..).after (by decide) ?_
    | with_reducible refine (State.modNor_moves _ _ (by intro n; repeat' (first | rfl | extract_lets | split))).after (by decide) ?_
    | with_reducible refine (State.modRst_moves ..).after (by decide) ?_
    | with_reducible refine (State.condAct_moves ..).after (by decide) ?_
    | with_reducible refine (State.engineFail_moves ..).after (by decide) ?_
    | with_reducible refine (Moves.fold _ _ _ ?_).behind ?_
    | intro _
    | split
    | ((conv => arg 3; with_reducible whnf); split)))

theorem State.gateIslands_moves (s : State) :
    Moves [.slice, .lane, .pool, .host, .mem] s (State.gateIslands s) := by
  unfold State.gateIslands
  extract_lets s1
  have h1 : Moves [.slice, .lane, .pool, .host, .mem] s s1 := (State.modHost_moves ..).widen (by decide)
  refine h1.trans ⟨fun y hy => by cases y <;> first | exact absurd hy (by decide) | rfl | exact fun _ => rfl, rfl, fun _ => rfl, id, id,
    fun _ h => h, Nat.le_refl _, id, by simp, rfl⟩

theorem execPowerFail_moves (s : State) {t : State} (h : (execPowerFail s) = .next t) :
    Moves [.slice, .lane, .pool, .trc, .host, .mem, .evr, .nor, .rst, .links, .engSrv, .seq, .wr, .headSrv] s t := by
  unfold execPowerFail at h
  repeat' (first | contradiction | (injection h with h; subst h) | split at h)
  all_goals (repeat' (first
    | with_reducible exact Moves.refl _ _
    | with_reducible assumption
    | extract_lets
    | with_reducible refine Moves.ite ?_ ?_
    | with_reducible refine (State.modRst_moves ..).after (by decide) ?_
    | with_reducible refine (State.saturated_moves ..).after (by decide) ?_
    | with_reducible refine (State.modNor_moves _ _ (by intro n; repeat' (first | rfl | extract_lets | split))).after (by decide) ?_
    | with_reducible refine (State.forceWritesOff_moves ..).after (by decide) ?_
    | with_reducible refine (State.pavaneAll_moves ..).after (by decide) ?_
    | with_reducible refine (State.gateIslands_moves ..).after (by decide) ?_
    | with_reducible refine (Moves.fold _ _ _ ?_).behind ?_
    | intro _
    | split
    | ((conv => arg 3; with_reducible whnf); split)))

theorem execJournalProgram_moves (s : State) {t : State} (h : (execJournalProgram s) = .next t) :
    Moves [.nor, .rst] s t := by
  unfold execJournalProgram at h
  repeat' (first | contradiction | (injection h with h; subst h) | split at h)
  all_goals (repeat' (first
    | with_reducible exact Moves.refl _ _
    | with_reducible assumption
    | extract_lets
    | with_reducible refine Moves.ite ?_ ?_
    | with_reducible refine (State.modNor_moves _ _ (by intro n; repeat' (first | rfl | extract_lets | split))).after (by decide) ?_
    | with_reducible refine (State.modRst_moves ..).after (by decide) ?_
    | with_reducible refine (Moves.fold _ _ _ ?_).behind ?_
    | intro _
    | split
    | ((conv => arg 3; with_reducible whnf); split)))

theorem execPowerLossEnd_moves (s : State) {t : State} (h : (execPowerLossEnd s) = .next t) :
    Moves [.spn, .nor, .rst] s t := by
  unfold execPowerLossEnd at h
  repeat' (first | contradiction | (injection h with h; subst h) | split at h)
  all_goals (repeat' (first
    | with_reducible exact Moves.refl _ _
    | with_reducible assumption
    | extract_lets
    | with_reducible refine Moves.ite ?_ ?_
    | with_reducible refine (State.modSpn_moves ..).after (by decide) ?_
    | with_reducible refine (State.modNor_moves _ _ (by intro n; repeat' (first | rfl | extract_lets | split))).after (by decide) ?_
    | with_reducible refine (State.modRst_moves ..).after (by decide) ?_
    | with_reducible refine (Moves.fold _ _ _ ?_).behind ?_
    | intro _
    | split
    | ((conv => arg 3; with_reducible whnf); split)))

theorem execResetStatus_moves (x0 : Packet) (s : State) {t : State} (h : (execResetStatus x0 s) = .next t) :
    Moves [.trc, .host, .het, .evr, .out] s t := by
  unfold execResetStatus at h
  repeat' (first | contradiction | (injection h with h; subst h) | split at h)
  all_goals (repeat' (first
    | with_reducible exact Moves.refl _ _
    | with_reducible assumption
    | extract_lets
    | with_reducible refine Moves.ite ?_ ?_
    | with_reducible refine Moves.itePkt ?_ ?_
    | with_reducible refine runPacket_moves (by decide) (fun s => ?_)
    | with_reducible refine (PktRes.report_moves ..).after (by decide) ?_
    | with_reducible refine (Moves.fold _ _ _ ?_).behind ?_
    | intro _
    | split
    | ((conv => arg 3; with_reducible whnf); split)))

theorem State.beginModuleReset_moves (s : State) :
    Moves [.trc, .evr, .nor, .rst, .reel, .links, .engSrv, .seq, .wr, .headSrv] s (State.beginModuleReset s) := by
  unfold State.beginModuleReset
  repeat' (first
    | with_reducible exact Moves.refl _ _
    | with_reducible assumption
    | extract_lets
    | with_reducible refine Moves.ite ?_ ?_
    | with_reducible refine (State.modRst_moves ..).after (by decide) ?_
    | with_reducible refine (State.settleReset_moves ..).after (by decide) ?_
    | with_reducible refine (Moves.fold _ _ _ ?_).behind ?_
    | intro _
    | split
    | ((conv => arg 3; with_reducible whnf); split))

theorem State.resetClear_moves (s : State) (x1 : Packet) :
    Moves [.rst] s (State.resetClear s x1).state := by
  unfold State.resetClear
  repeat' (first
    | with_reducible exact Moves.refl _ _
    | with_reducible assumption
    | extract_lets
    | with_reducible refine Moves.ite ?_ ?_
    | with_reducible refine Moves.itePkt ?_ ?_
    | with_reducible refine (PktRes.fail_moves ..).after (by decide) ?_
    | with_reducible refine (AdmRes.fail_moves ..).after (by decide) ?_
    | with_reducible refine (State.modRst_moves ..).after (by decide) ?_
    | with_reducible refine (State.modAct_moves ..).after (by decide) ?_
    | with_reducible refine (Moves.fold _ _ _ ?_).behind ?_
    | intro _
    | split
    | ((conv => arg 3; with_reducible whnf); split))

theorem State.resetModule_moves (s : State) (x1 : Packet) :
    Moves [.trc, .evr, .nor, .rst, .reel, .links, .engSrv, .seq, .wr, .headSrv] s (State.resetModule s x1).state := by
  unfold State.resetModule
  repeat' (first
    | with_reducible exact Moves.refl _ _
    | with_reducible assumption
    | extract_lets
    | with_reducible refine Moves.ite ?_ ?_
    | with_reducible refine Moves.itePkt ?_ ?_
    | with_reducible refine (PktRes.fail_moves ..).after (by decide) ?_
    | with_reducible refine (AdmRes.fail_moves ..).after (by decide) ?_
    | with_reducible refine (State.beginModuleReset_moves ..).after (by decide) ?_
    | with_reducible refine (Moves.fold _ _ _ ?_).behind ?_
    | intro _
    | split
    | ((conv => arg 3; with_reducible whnf); split))

theorem State.resetEngine_moves (s : State) (x1 : Packet) :
    Moves [.free, .slice, .lane, .pool, .trc, .media, .host, .q, .het, .pwr, .sec, .evr, .nor, .rst, .out, .reel, .links, .recv, .engSrv, .seq, .zdc, .rd, .det, .wr, .headSrv, .map, .freq] s (State.resetEngine s x1).state := by
  unfold State.resetEngine
  repeat' (first
    | with_reducible exact Moves.refl _ _
    | with_reducible assumption
    | extract_lets
    | with_reducible refine Moves.ite ?_ ?_
    | with_reducible refine Moves.itePkt ?_ ?_
    | with_reducible refine (PktRes.fail_moves ..).after (by decide) ?_
    | with_reducible refine (AdmRes.fail_moves ..).after (by decide) ?_
    | with_reducible refine (State.controlledUnload_moves ..).after (by decide) ?_
    | with_reducible refine (State.modAct_moves ..).after (by decide) ?_
    | with_reducible refine (State.restartEngine_moves ..).after (by decide) ?_
    | with_reducible refine (Moves.fold _ _ _ ?_).behind ?_
    | intro _
    | split
    | ((conv => arg 3; with_reducible whnf); split))

theorem State.resetConfigure_moves (s : State) (x1 : Packet) :
    Moves [.nor, .rst] s (State.resetConfigure s x1).state := by
  unfold State.resetConfigure
  repeat' (first
    | with_reducible exact Moves.refl _ _
    | with_reducible assumption
    | extract_lets
    | with_reducible refine Moves.ite ?_ ?_
    | with_reducible refine Moves.itePkt ?_ ?_
    | with_reducible refine (State.modNor_moves _ _ (by intro n; repeat' (first | rfl | extract_lets | split))).after (by decide) ?_
    | with_reducible refine (State.modRst_moves ..).after (by decide) ?_
    | with_reducible refine (Moves.fold _ _ _ ?_).behind ?_
    | intro _
    | split
    | ((conv => arg 3; with_reducible whnf); split))

theorem opResetRequest_moves (x0 : Packet) (s : State) :
    Moves [.free, .slice, .lane, .pool, .trc, .media, .host, .q, .het, .pwr, .sec, .evr, .nor, .rst, .out, .reel, .links, .recv, .engSrv, .seq, .zdc, .rd, .det, .wr, .headSrv, .map, .freq] s (opResetRequest x0 s).state := by
  unfold opResetRequest
  repeat' (first
    | with_reducible exact Moves.refl _ _
    | with_reducible assumption
    | extract_lets
    | with_reducible refine Moves.ite ?_ ?_
    | with_reducible refine Moves.itePkt ?_ ?_
    | with_reducible refine (State.resetClear_moves ..).after (by decide) ?_
    | with_reducible refine (State.resetModule_moves ..).after (by decide) ?_
    | with_reducible refine (State.resetEngine_moves ..).after (by decide) ?_
    | with_reducible refine (State.resetConfigure_moves ..).after (by decide) ?_
    | with_reducible refine (PktRes.fail_moves ..).after (by decide) ?_
    | with_reducible refine (AdmRes.fail_moves ..).after (by decide) ?_
    | with_reducible refine (Moves.fold _ _ _ ?_).behind ?_
    | intro _
    | split
    | ((conv => arg 3; with_reducible whnf); split))

theorem execResetClear_moves (x0 : Packet) (s : State) {t : State} (h : (execResetClear x0 s) = .next t) :
    Moves [.free, .slice, .lane, .pool, .trc, .media, .host, .q, .het, .pwr, .sec, .evr, .nor, .rst, .out, .reel, .links, .recv, .engSrv, .seq, .zdc, .rd, .det, .wr, .headSrv, .map, .freq] s t := by
  unfold execResetClear at h
  repeat' (first | contradiction | (injection h with h; subst h) | split at h)
  all_goals (repeat' (first
    | with_reducible exact Moves.refl _ _
    | with_reducible assumption
    | extract_lets
    | with_reducible refine Moves.ite ?_ ?_
    | with_reducible refine Moves.itePkt ?_ ?_
    | with_reducible refine runPacket_moves (by decide) (fun s => ?_)
    | with_reducible refine (opResetRequest_moves ..).after (by decide) ?_
    | with_reducible refine (Moves.fold _ _ _ ?_).behind ?_
    | intro _
    | split
    | ((conv => arg 3; with_reducible whnf); split)))

theorem execResetModule_moves (x0 : Packet) (s : State) {t : State} (h : (execResetModule x0 s) = .next t) :
    Moves [.free, .slice, .lane, .pool, .trc, .media, .host, .q, .het, .pwr, .sec, .evr, .nor, .rst, .out, .reel, .links, .recv, .engSrv, .seq, .zdc, .rd, .det, .wr, .headSrv, .map, .freq] s t := by
  unfold execResetModule at h
  repeat' (first | contradiction | (injection h with h; subst h) | split at h)
  all_goals (repeat' (first
    | with_reducible exact Moves.refl _ _
    | with_reducible assumption
    | extract_lets
    | with_reducible refine Moves.ite ?_ ?_
    | with_reducible refine Moves.itePkt ?_ ?_
    | with_reducible refine runPacket_moves (by decide) (fun s => ?_)
    | with_reducible refine (opResetRequest_moves ..).after (by decide) ?_
    | with_reducible refine (Moves.fold _ _ _ ?_).behind ?_
    | intro _
    | split
    | ((conv => arg 3; with_reducible whnf); split)))

theorem execResetEngine_moves (x0 : Packet) (s : State) {t : State} (h : (execResetEngine x0 s) = .next t) :
    Moves [.free, .slice, .lane, .pool, .trc, .media, .host, .q, .het, .pwr, .sec, .evr, .nor, .rst, .out, .reel, .links, .recv, .engSrv, .seq, .zdc, .rd, .det, .wr, .headSrv, .map, .freq] s t := by
  unfold execResetEngine at h
  repeat' (first | contradiction | (injection h with h; subst h) | split at h)
  all_goals (repeat' (first
    | with_reducible exact Moves.refl _ _
    | with_reducible assumption
    | extract_lets
    | with_reducible refine Moves.ite ?_ ?_
    | with_reducible refine Moves.itePkt ?_ ?_
    | with_reducible refine runPacket_moves (by decide) (fun s => ?_)
    | with_reducible refine (opResetRequest_moves ..).after (by decide) ?_
    | with_reducible refine (Moves.fold _ _ _ ?_).behind ?_
    | intro _
    | split
    | ((conv => arg 3; with_reducible whnf); split)))

theorem execResetConfigure_moves (x0 : Packet) (s : State) {t : State} (h : (execResetConfigure x0 s) = .next t) :
    Moves [.free, .slice, .lane, .pool, .trc, .media, .host, .q, .het, .pwr, .sec, .evr, .nor, .rst, .out, .reel, .links, .recv, .engSrv, .seq, .zdc, .rd, .det, .wr, .headSrv, .map, .freq] s t := by
  unfold execResetConfigure at h
  repeat' (first | contradiction | (injection h with h; subst h) | split at h)
  all_goals (repeat' (first
    | with_reducible exact Moves.refl _ _
    | with_reducible assumption
    | extract_lets
    | with_reducible refine Moves.ite ?_ ?_
    | with_reducible refine Moves.itePkt ?_ ?_
    | with_reducible refine runPacket_moves (by decide) (fun s => ?_)
    | with_reducible refine (opResetRequest_moves ..).after (by decide) ?_
    | with_reducible refine (Moves.fold _ _ _ ?_).behind ?_
    | intro _
    | split
    | ((conv => arg 3; with_reducible whnf); split)))

theorem opActuatorLoad_moves (x0 : Packet) (s : State) :
    Moves [.nor, .rst] s (opActuatorLoad x0 s).state := by
  unfold opActuatorLoad
  repeat' (first
    | with_reducible exact Moves.refl _ _
    | with_reducible assumption
    | extract_lets
    | with_reducible refine Moves.ite ?_ ?_
    | with_reducible refine Moves.itePkt ?_ ?_
    | with_reducible refine (PktRes.fail_moves ..).after (by decide) ?_
    | with_reducible refine (AdmRes.fail_moves ..).after (by decide) ?_
    | with_reducible refine (State.modAct_moves ..).after (by decide) ?_
    | with_reducible refine (State.modNor_moves _ _ (by intro n; repeat' (first | rfl | extract_lets | split))).after (by decide) ?_
    | with_reducible refine (Moves.fold _ _ _ ?_).behind ?_
    | intro _
    | split
    | ((conv => arg 3; with_reducible whnf); split))

theorem execActuatorLoad_moves (x0 : Packet) (s : State) {t : State} (h : (execActuatorLoad x0 s) = .next t) :
    Moves [.trc, .host, .het, .evr, .nor, .rst, .out] s t := by
  unfold execActuatorLoad at h
  repeat' (first | contradiction | (injection h with h; subst h) | split at h)
  all_goals (repeat' (first
    | with_reducible exact Moves.refl _ _
    | with_reducible assumption
    | extract_lets
    | with_reducible refine Moves.ite ?_ ?_
    | with_reducible refine Moves.itePkt ?_ ?_
    | with_reducible refine (opActuatorLoad_moves ..).after (by decide) ?_
    | with_reducible refine runPacket_moves (by decide) (fun s => ?_)
    | with_reducible refine (Moves.fold _ _ _ ?_).behind ?_
    | intro _
    | split
    | ((conv => arg 3; with_reducible whnf); split)))

theorem opActuatorUnload_moves (x0 : Packet) (s : State) :
    Moves [.trc, .evr, .nor, .rst, .reel, .links, .engSrv, .seq, .wr, .headSrv] s (opActuatorUnload x0 s).state := by
  unfold opActuatorUnload
  repeat' (first
    | with_reducible exact Moves.refl _ _
    | with_reducible assumption
    | extract_lets
    | with_reducible refine Moves.ite ?_ ?_
    | with_reducible refine Moves.itePkt ?_ ?_
    | with_reducible refine (State.controlledUnload_moves ..).after (by decide) ?_
    | with_reducible refine (State.modAct_moves ..).after (by decide) ?_
    | with_reducible refine (Moves.fold _ _ _ ?_).behind ?_
    | intro _
    | split
    | ((conv => arg 3; with_reducible whnf); split))

theorem execActuatorUnload_moves (x0 : Packet) (s : State) {t : State} (h : (execActuatorUnload x0 s) = .next t) :
    Moves [.trc, .host, .het, .evr, .nor, .rst, .out, .reel, .links, .engSrv, .seq, .wr, .headSrv] s t := by
  unfold execActuatorUnload at h
  repeat' (first | contradiction | (injection h with h; subst h) | split at h)
  all_goals (repeat' (first
    | with_reducible exact Moves.refl _ _
    | with_reducible assumption
    | extract_lets
    | with_reducible refine Moves.ite ?_ ?_
    | with_reducible refine Moves.itePkt ?_ ?_
    | with_reducible refine runPacket_moves (by decide) (fun s => ?_)
    | with_reducible refine (opActuatorUnload_moves ..).after (by decide) ?_
    | with_reducible refine (Moves.fold _ _ _ ?_).behind ?_
    | intro _
    | split
    | ((conv => arg 3; with_reducible whnf); split)))

theorem execSrstAssert_moves (s : State) {t : State} (h : (execSrstAssert s) = .next t) :
    Moves [.trc, .evr, .nor, .rst, .reel, .links, .engSrv, .seq, .wr, .headSrv] s t := by
  unfold execSrstAssert at h
  repeat' (first | contradiction | (injection h with h; subst h) | split at h)
  all_goals (repeat' (first
    | with_reducible exact Moves.refl _ _
    | with_reducible assumption
    | extract_lets
    | with_reducible refine Moves.ite ?_ ?_
    | with_reducible refine (State.beginModuleReset_moves ..).after (by decide) ?_
    | with_reducible refine (Moves.fold _ _ _ ?_).behind ?_
    | intro _
    | split
    | ((conv => arg 3; with_reducible whnf); split)))

theorem execTapIdcode_moves (s : State) {t : State} (h : (execTapIdcode s) = .next t) :
    Moves [.out] s t := by
  unfold execTapIdcode at h
  repeat' (first | contradiction | (injection h with h; subst h) | split at h)
  all_goals (repeat' (first
    | with_reducible exact Moves.refl _ _
    | with_reducible assumption
    | extract_lets
    | with_reducible refine Moves.ite ?_ ?_
    | with_reducible refine (State.modOut_moves ..).after (by decide) ?_
    | with_reducible refine (Moves.fold _ _ _ ?_).behind ?_
    | intro _
    | split
    | ((conv => arg 3; with_reducible whnf); split)))

theorem execTapBypass_moves (s : State) {t : State} (h : (execTapBypass s) = .next t) :
    Moves [.out] s t := by
  unfold execTapBypass at h
  repeat' (first | contradiction | (injection h with h; subst h) | split at h)
  all_goals (repeat' (first
    | with_reducible exact Moves.refl _ _
    | with_reducible assumption
    | extract_lets
    | with_reducible refine Moves.ite ?_ ?_
    | with_reducible refine (State.modOut_moves ..).after (by decide) ?_
    | with_reducible refine (Moves.fold _ _ _ ?_).behind ?_
    | intro _
    | split
    | ((conv => arg 3; with_reducible whnf); split)))

end Sys2Proof.Machine
end

