-- ==== Sys2Proof/Laws/MovesTick.lean ====
section
/-! SUPPORT. What each operation and each command of Machine/Tick.lean can touch. -/

namespace Sys2Proof.Machine
open Sys2Proof
set_option linter.all false
set_option Elab.async false

/-- The parts that time alone can change. -/
abbrev clockParts : List Part :=
  [.mtime, .slice, .lane, .pool, .wsl, .lpe, .trc, .pwr, .evr, .rst, .out, .reel, .links, .recv, .det, .wr, .freq]

theorem State.timeline_moves (s : State) (t : MTime) :
    Moves [.mtime, .reel] s { s with mtime := t, eng := s.eng.map fun e => { e with reel := e.reel.tick } } :=
  .plain (fun y hy => by cases y <;> first | rfl | exact absurd hy (by decide) | exact fun _ => rfl | (intro a; simp)) rfl rfl rfl rfl rfl rfl

theorem State.clock_moves (s : State) :
    Moves [.mtime, .slice, .lane, .pool, .wsl, .lpe, .trc, .pwr, .evr, .rst, .out, .reel, .links, .recv, .det, .wr, .freq] s s.clock := by
  unfold State.clock
  extract_lets t s1 s2
  have h1 : Moves clockParts s s1 := (State.timeline_moves s t).widen (by decide)
  have h2 : Moves clockParts s s2 :=
    (Moves.fold State.engineClock (fins 40) _ fun s a => (State.engineClock_moves s a).widen (by decide)).behind
      ((Moves.fold State.sliceClock (fins 48) _ fun s a => (State.sliceClock_moves s a).widen (by decide)).behind
        ((State.symbols_moves s1).after (by decide) h1))
  exact Moves.ite ((State.modRst_moves ..).after (by decide) h2) h2

theorem tick_moves (s : State) :
    Moves [.mtime, .slice, .lane, .pool, .wsl, .lpe, .trc, .spn, .q, .pwr, .evr, .rst, .out, .reel, .links, .recv, .det, .wr, .freq] s (tick s) := by
  unfold tick
  repeat' (first
    | with_reducible exact Moves.refl _ _
    | with_reducible assumption
    | extract_lets
    | with_reducible refine Moves.ite ?_ ?_
    | with_reducible refine (State.clock_moves ..).after (by decide) ?_
    | with_reducible refine (State.reapCredits_moves ..).after (by decide) ?_
    | with_reducible refine (State.wakeSpindle_moves ..).after (by decide) ?_
    | with_reducible refine (Moves.fold _ _ _ ?_).behind ?_
    | intro _
    | split
    | ((conv => arg 3; with_reducible whnf); split))

end Sys2Proof.Machine
end

