-- ==== Sys2Proof/Machine/Pins.lean ====
section
/-! DEFINITION. The contacts that carry the module's logic (spec/21_signals_electrical.md): P-HOST's Activity, the pins and tabs of
P-ACT0 to P-ACT3, P-SPIN and P-DBG, and what each drives. Levels, timing of the pairs and mechanical data are no part of the model
(log 13). -/

namespace Sys2Proof.Machine
open Sys2Proof

/-! ### P-HOST (R659) -/

/-- Activity is pulled low: a media command is in flight. -/
def State.activityLow (s : State) : Bool := s.q.ctxs.any fun p => p.2.media && p.2.finished.isNone

/-! ### P-ACT0 to P-ACT3 (R662 to R664) -/

/-- The signals of P-ACTa: a reader pair or the write-data pair of a local head, a lane of an arm link. -/
inductive ActSignal where
  | readerA (h : LHead)
  | readerB (h : LHead)
  | writeData (h : LHead)
  | down (l : LinkIx)
  | up (l : LinkIx)
  deriving DecidableEq, Repr

/-- The pair of pins of a signal, the positive leg first (R662). -/
def ActSignal.pins : ActSignal → Nat × Nat
  | .readerA h => (4 * h.val + 1, 4 * h.val + 2)
  | .readerB h => (4 * h.val + 3, 4 * h.val + 4)
  | .writeData h => (49 + 2 * h.val, 50 + 2 * h.val)
  | .down l => (73 + 4 * l.val, 74 + 4 * l.val)
  | .up l => (75 + 4 * l.val, 76 + 4 * l.val)

/-- The tabs of P-ACTa. -/
inductive ActTab where
  | vcmP | vcmN
  | ma (h : LHead)
  | maCom | afeVh | afeVl | afeGnd
  deriving DecidableEq, Repr

/-- The tabs of a supply or drive, by their numbers (R663). -/
def ActTab.tabs : ActTab → List Nat
  | .vcmP => [1, 2]
  | .vcmN => [3, 4]
  | .ma h => [5 + h.val]
  | .maCom => [17]
  | .afeVh => [18]
  | .afeVl => [19]
  | .afeGnd => [20]

/-- The local head is configured and not depopulated: its pins and its tab are driven (R664). -/
def State.headWired (s : State) (a : Eng) (h : LHead) : Bool :=
  match s.globalHead a h.val with
  | some g => !s.head[g].map.depop
  | none => false

/-- What MA_h carries, in codes of R274; 0 V where it is left undriven (R664). -/
def State.maDrive (s : State) (a : Eng) (h : LHead) : Int :=
  match s.globalHead a h.val with
  | some g => if s.headWired a h then s.head[g].srv.maOut else 0
  | none => 0

/-- The write-data pair of a local head carries data: it is wired and its write gate is on, else the pair idles (R234, R664). -/
def State.writeDriven (s : State) (a : Eng) (h : LHead) : Bool :=
  match s.globalHead a h.val with
  | some g => s.headWired a h && s.head[g].wr.writeGate
  | none => false

/-- AFE_VH and AFE_VL of a connector are on: its engine is present (R664). -/
def State.afeRails (s : State) (a : Eng) : Bool := s.enginePresent a

/-! ### P-SPIN and P-DBG (R668, R669) -/

/-- The contacts of P-SPIN: phases U, V, W, and a key. -/
def spinContact : Nat → Option (Fin 3)
  | 1 => some 0
  | 2 => some 1
  | 3 => some 2
  | _ => none

/-- The signals of P-DBG. -/
inductive DbgSignal where
  | vref | tms | gnd | tck | tdo | tdi | trst | srst
  deriving DecidableEq, Repr

/-- The contacts of P-DBG (R669). -/
def dbgContacts : List DbgSignal := [.vref, .tms, .gnd, .tck, .gnd, .tdo, .tdi, .trst, .gnd, .srst]

end Sys2Proof.Machine
end

