-- ==== Sys2Proof/WellFormed.lean ====
section
/-! DEFINITION. Which commands are well formed: operands that the event or packet could carry. A command whose operand
lies outside is not one the outside can send; exec still answers on it. -/

namespace Sys2Proof

/-- The operands of a command lie where the manual lets them lie. -/
def Instr.wf : Instr → Bool
  | .powerOnReset => true
  | .bootRomDone => true
  | .firstStageLoaderDone _ _ => true
  | .mainFirmwareDone _ => true
  | .tablesDone => true
  | .readForward z _ => decide (z < 131072)
  | .indirectionReplay _ => true
  | .powerFail => true
  | .journalProgram => true
  | .powerLossEnd => true
  | .railFault => true
  | .pohStore => true
  | .mpCheckpoint => true
  | .indirectionImage => true
  | .headLoad _ => true
  | .loadTimeout _ => true
  | .parkDone _ => true
  | .retractBiasEnd _ => true
  | .unloadTimeout _ => true
  | .lockstepMismatch _ => true
  | .mgmtWatchdogExpiry _ => true
  | .srstAssert => true
  | .tapIdcode => true
  | .tapBypass => true
  | .registerWrite _ _ _ => true
  | .invalidRegisterAccess _ acc => decide (0 < acc.words)
  | .snapshotWrite _ => true
  | .comparatorArm _ _ _ => true
  | .comparatorFire _ _ d => decide ((d.fields.map (·.head)).Nodup)
  | .servoMarkAccept _ _ => true
  | .markHoldExpiry _ => true
  | .reelStatus _ => true
  | .reelMarker _ => true
  | .reelConfig _ => true
  | .reelClear _ => true
  | .armAckReceive _ _ _ => true
  | .armNakReceive _ _ _ _ => true
  | .armAckTimeout _ _ => true
  | .armStatusFrame _ _ _ => true
  | .afeFaultStrobe _ _ _ => true
  | .auxSlotRequest _ _ _ => true
  | .configFrameSend _ _ _ => true
  | .armConfigReply _ _ _ _ => true
  | .armLinkDown _ _ _ => true
  | .armTrainAttempt _ _ => true
  | .armTrainTimeout _ _ => true
  | .armStatus _ => true
  | .armClear _ => true
  | .armConfig _ => true
  | .armRetrain _ => true
  | .sliceEnable _ => true
  | .sliceStreamStart _ level _ => decide (4 ≤ level ∧ level ≤ 32)
  | .sliceUnderrun _ => true
  | .sliceLateWordDiscard _ _ => true
  | .sliceFifoTimeout _ => true
  | .sliceOverrun _ => true
  | .dropCommand _ => true
  | .zeroPhaseStart _ _ => true
  | .sliceAcqToTrack _ _ => true
  | .bandLoad _ _ => true
  | .sliceConfig _ => true
  | .sliceStatus _ => true
  | .sliceClear _ => true
  | .sliceRestart _ => true
  | .syncDecision _ _ _ => true
  | .firstPassDone _ _ => true
  | .iterationDetectorPassDone _ _ => true
  | .localIterationEnd _ _ => true
  | .codewordCheckDone _ _ => true
  | .stagingAccept _ _ => true
  | .detConfig _ => true
  | .detTaps _ => true
  | .detNp _ => true
  | .detStatus _ => true
  | .detClear _ => true
  | .decoderRequest _ _ => true
  | .decoderArbitration _ => true
  | .decoderEngineFail _ => true
  | .recoveryJobOpen _ _ => true
  | .retainedStreamCopyDone _ _ => true
  | .ladderTry _ _ => true
  | .captureComplete _ _ => true
  | .deepDecodeDone _ _ _ _ => true
  | .guardTimerExpiry _ _ => true
  | .reallocate _ => true
  | .remapActivate _ _ => true
  | .poolStatus _ => true
  | .poolConfig _ => true
  | .poolEngine _ => true
  | .poolRequester _ => true
  | .poolClear _ => true
  | .recConfig _ => true
  | .recStatus _ => true
  | .recClear _ => true
  | .writeEncode _ k => decide (k < 512)
  | .writerSlotRequest _ _ => true
  | .memsSample _ => true
  | .memsSampleTimeout => true
  | .suspectRewrite _ => true
  | .suspectSpareWrite _ => true
  | .wrtConfig _ => true
  | .wrtHead _ => true
  | .wrtGuard _ => true
  | .wrtStatus _ => true
  | .wrtClear _ => true
  | .wrtSlots _ => true
  | .seekRequest _ _ _ => true
  | .srvStatus _ => true
  | .srvConfig _ => true
  | .srvQuadrille _ => true
  | .srvNotch _ => true
  | .srvHead _ => true
  | .srvHstatus _ => true
  | .srvClear _ => true
  | .loopComputeStart _ => true
  | .loopComputeDone _ => true
  | .loopOutputRelease _ => true
  | .thermalSample t => decide (t.length = 10)
  | .traceTimeout => true
  | .traceCopyDone => true
  | .loopStatus _ => true
  | .loopCoef _ => true
  | .loopBankSwap _ => true
  | .loopConfig _ => true
  | .loopClear _ => true
  | .traceConfig _ => true
  | .traceArm _ => true
  | .traceTrigger _ => true
  | .traceStatus _ => true
  | .zeroCrossing _ => true
  | .commutation _ _ => true
  | .crossingMissed => true
  | .rotorLockLoss => true
  | .coastTimeout => true
  | .detectTimeout _ => true
  | .brakeShortEnd => true
  | .brakeObserveEnd _ => true
  | .brakeSettleEnd => true
  | .alignEnd => true
  | .openLoopStep _ => true
  | .startAttemptTimeout => true
  | .spindleSample => true
  | .boleroEvaluation _ => true
  | .nrefUpdate => true
  | .chopperSwitch _ => true
  | .chopperBucketThreshold _ => true
  | .chopperFault _ => true
  | .railOvervoltage _ => true
  | .spindleStatus _ => true
  | .spindleTarget _ => true
  | .spindleBolero _ => true
  | .spindleConfig _ => true
  | .spindleRunStop _ => true
  | .spindleRunStart _ => true
  | .spindleChopperTest _ => true
  | .spindleClear _ => true
  | .fragmentEnqueue _ _ => true
  | .inc _ => true
  | .br _ => true
  | .loop _ => true
  | .call _ => true
  | .ret _ => true
  | .wait _ => true
  | .waitComplete _ => true
  | .rtt _ => true
  | .lds _ _ => true
  | .add _ _ _ _ => true
  | .ldf _ _ => true
  | .lde _ _ => true
  | .lead _ _ _ _ => true
  | .win _ _ _ => true
  | .mov _ _ _ => true
  | .ldw _ _ => true
  | .arm _ _ => true
  | .armr _ _ _ => true
  | .armf _ _ => true
  | .armfStallEnd _ => true
  | .dis _ _ => true
  | .dism _ _ _ => true
  | .pop _ => true
  | .armed _ => true
  | .skip _ => true
  | .note _ _ => true
  | .drop _ _ _ => true
  | .clrf _ _ => true
  | .set _ _ _ => true
  | .dec _ _ => true
  | .fcnt _ _ => true
  | .coreTrapRequest _ => true
  | .waitTimeout _ => true
  | .trapEntry _ => true
  | .sequencerRestart _ => true
  | .seqHoldEntry _ => true
  | .seqHoldResume _ => true
  | .seqStatus _ => true
  | .seqConfig _ => true
  | .seqTrapsave _ => true
  | .seqWord _ => true
  | .seqClear _ => true
  | .zoneReset _ => true
  | .zoneOpen _ => true
  | .zoneClose _ => true
  | .zoneFinish _ => true
  | .zoneOffline _ => true
  | .reportZones _ => true
  | .logGroupClose _ => true
  | .indirectionUpdate _ => true
  | .compaction _ => true
  | .zdcAccess _ z _ => decide (z < 131072)
  | .zdcFillDone _ z _ => decide (z < 131072)
  | .zdcWritebackDone _ _ => true
  | .zdcPin _ z => decide (z < 131072)
  | .zoneStatus _ => true
  | .zoneCacheStatus _ => true
  | .zoneCacheConfig _ => true
  | .zoneCacheFlush _ => true
  | .zoneCacheInvalidate _ => true
  | .zoneCacheClear _ => true
  | .mapBand _ => true
  | .mapRegion _ => true
  | .mapConv _ => true
  | .headDepopulate _ => true
  | .linkReset _ => true
  | .functionLevelReset _ => true
  | .vfDisable _ => true
  | .controllerReset _ => true
  | .controllerEnable _ _ => true
  | .shutdownNormal _ => true
  | .shutdownAbrupt _ => true
  | .doorbellWrite _ _ => true
  | .cmbWrite _ _ bytes => decide (0 < bytes.length)
  | .cmbRead _ _ len => decide (0 < len)
  | .tlpMalformed _ _ => true
  | .unsupportedRequest _ _ => true
  | .completionTimeout _ _ => true
  | .poisonedCompletion _ _ => true
  | .smbusPecError _ => true
  | .smbusClockTimeout => true
  | .mctpMalformed _ => true
  | .violationHourSummary => true
  | .commandFetch _ _ c => decide (c.data.length ≤ c.nlb)
  | .creditGrant _ => true
  | .commandStart _ => true
  | .hostTransferDone _ => true
  | .writeDurable _ => true
  | .completionPost _ => true
  | .schedulerDecision _ => true
  | .contractDue _ => true
  | .latencyDeadlineMiss _ => true
  | .floorWindowEnd _ => true
  | .zoneFinishRecommended z => decide (z < 131072)
  | .deleteIoSq _ _ => true
  | .createIoSq _ _ => true
  | .deleteIoCq _ _ => true
  | .createIoCq _ _ => true
  | .getLogPage _ _ => true
  | .identify _ _ => true
  | .abort _ _ _ => true
  | .setFeatures _ _ _ _ => true
  | .getFeatures _ _ => true
  | .asynchronousEventRequest _ => true
  | .keepAlive _ => true
  | .formatNvm _ _ => true
  | .securityReceive _ _ _ _ => true
  | .namespaceCreate _ _ => true
  | .namespaceDelete _ _ => true
  | .namespaceAttach _ _ _ => true
  | .namespaceDetach _ _ _ => true
  | .firmwareImageDownload _ d => decide (0 < d.len)
  | .fwCommitWriteSlot _ _ => true
  | .fwCommitWriteActivateNext _ _ => true
  | .fwCommitActivateSlot _ _ => true
  | .fwCommitActivateNow _ _ => true
  | .fwActivationPauseEnd => true
  | .imageRetire => true
  | .deviceSelfTest _ _ _ => true
  | .virtualizationManagement _ _ => true
  | .sanitizeCryptoErase _ _ => true
  | .sanitizeBlockErase _ _ => true
  | .sanitizeExitFailureMode _ => true
  | .sanitizeOverwrite _ => true
  | .invalidOpcode _ _ => true
  | .hetosExchange _ h => decide (h.buffer.length = 64 * h.nump.toNat)
  | .hetosMctpRequest m => decide (0 < m.msg.length)
  | .exchangeStart => true
  | .flush _ => true
  | .write _ => true
  | .read _ => true
  | .writeZeroes _ => true
  | .datasetManagement _ => true
  | .verify _ => true
  | .zoneAppend _ => true
  | .readNvmeMiDataStructure _ _ => true
  | .nvmSubsystemHealthStatusPoll _ _ => true
  | .controllerHealthStatusPoll _ _ => true
  | .configurationSet _ _ _ => true
  | .configurationGet _ _ => true
  | .vpdRead _ off len => decide (off + len ≤ 256)
  | .vpdWrite _ off bytes => decide (off + bytes.length ≤ 256)
  | .hostStatus _ => true
  | .hostConfig _ => true
  | .hostPermit _ => true
  | .hostFunction _ => true
  | .hostClear _ => true
  | .queueStatus _ => true
  | .queueConfig _ => true
  | .queueFunction _ => true
  | .qosAdmit _ => true
  | .qosRevoke _ => true
  | .qosStatus _ => true
  | .queueClear _ => true
  | .modIdentify _ => true
  | .modEcho _ => true
  | .modLayout _ => true
  | .hetosStatus _ => true
  | .hetosClear _ => true
  | .powerEpoch _ => true
  | .estOfsUpdate => true
  | .islandClockChange _ => true
  | .budgetSet _ => true
  | .budgetStatus _ => true
  | .budgetConsumer _ => true
  | .budgetClear _ => true
  | .dramArbitration x => x.asks.all fun q =>
    decide (q.addr % 64 = 0 ∧ q.addr < 2 ^ 34 ∧ ∀ d, q.data = some d → d.1.val + d.2.length ≤ 64)
  | .eccWriteback _ => true
  | .dramRefresh _ => true
  | .bucketLeak _ => true
  | .scrubBurst _ => true
  | .sramScrubPass r _ => decide (8 ≤ r.1)
  | .dramRowRepair _ => true
  | .memStatus _ => true
  | .memConfig _ => true
  | .memScrubRestart _ => true
  | .memScrubSram _ => true
  | .memRepair _ => true
  | .memDiagRead _ => true
  | .memDiagWrite _ => true
  | .memClear _ => true
  | .getVersion _ => true
  | .getCapabilities _ => true
  | .negotiateAlgorithms _ _ => true
  | .getDigests _ => true
  | .getCertificate _ _ _ _ => true
  | .challenge _ _ _ _ => true
  | .getMeasurements _ _ _ _ _ => true
  | .keyExchange _ _ _ => true
  | .finish _ _ _ => true
  | .heartbeat _ _ => true
  | .keyUpdate _ _ _ => true
  | .endSession _ _ => true
  | .getPqChain _ _ _ _ => true
  | .getPqSig _ => true
  | .startSession _ _ _ _ => true
  | .properties _ => true
  | .opalGet _ _ => true
  | .opalSet _ _ _ => true
  | .authenticate _ _ _ => true
  | .genkey _ _ => true
  | .activate _ => true
  | .revert _ _ => true
  | .revertSp _ _ => true
  | .random _ _ => true
  | .debugUnlockExpiry => true
  | .secStatus _ => true
  | .secCert _ => true
  | .secLock _ => true
  | .secUnlock _ => true
  | .secRollback _ => true
  | .recordProgram _ => true
  | .sealTimeout _ => true
  | .segmentErase => true
  | .segmentEraseDone _ => true
  | .freezeTimeout => true
  | .recorderStatus _ => true
  | .recorderFreeze _ => true
  | .recorderThaw _ => true
  | .recorderRead _ => true
  | .recorderNote _ => true
  | .resetStatus _ => true
  | .resetClear _ => true
  | .resetModule _ => true
  | .resetEngine _ => true
  | .resetConfigure _ => true
  | .actuatorLoad _ => true
  | .actuatorUnload _ => true
  | .afeCommaAlignment _ _ => true
  | .perstDeassertion => true
  | .dataLinkUp _ _ _ => true
  | .aspmL1Change _ => true
  | .vfEnable _ => true
  | .mctpSetEndpointId _ => true
  | .keepAliveTimeout _ => true
  | .cmbRefillDone _ => true
  | .firmwareSlotProgrammed _ _ => true
  | .sanitizeComplete _ => true
  | .formatComplete => true

end Sys2Proof
end

