-- ==== Sys2Proof/Tests/Slice0.lean ====
section
/-! SUPPORT. Tests: an ill-formed command for each check of WellFormed, small facts from the manual's worked examples, and a witness for
the hypotheses of every statement that has some. -/

namespace Sys2Proof.Tests
open Sys2Proof Sys2Proof.Machine
set_option linter.all false
set_option Elab.async false

/-! ### WellFormed refuses -/

/-- A reader's servo field without signal. -/
def quietReader : ReaderField := ⟨0, Vector.replicate 44 0, Vector.replicate 4 []⟩

theorem test_wf_accepts : (Instr.writeEncode 3 511).wf = true := by decide
theorem test_wf_read_forward : (Instr.readForward 131072 []).wf = false := by decide
theorem test_wf_register_access : (Instr.invalidRegisterAccess 0 ⟨true, 0, 0, true⟩).wf = false := by decide
theorem test_wf_comparator_fire : (Instr.comparatorFire 0 48 ⟨[⟨1, quietReader, quietReader⟩, ⟨1, quietReader, quietReader⟩]⟩).wf = false := by
  decide
theorem test_wf_stream_start : (Instr.sliceStreamStart 0 33 0).wf = false := by decide
theorem test_wf_dram_arbitration : (Instr.dramArbitration ⟨0, [⟨3, 32, none⟩], []⟩).wf = false := by decide
theorem test_wf_write_encode : (Instr.writeEncode 0 512).wf = false := by decide
theorem test_wf_thermal_sample : (Instr.thermalSample [0]).wf = false := by decide
theorem test_wf_zdc_access : (Instr.zdcAccess 0 131072 .read).wf = false := by decide
theorem test_wf_zdc_fill : (Instr.zdcFillDone 0 131072 false).wf = false := by decide
theorem test_wf_zdc_pin : (Instr.zdcPin 0 131072).wf = false := by decide
theorem test_wf_cmb_write : (Instr.cmbWrite 0 0 []).wf = false := by decide
theorem test_wf_cmb_read : (Instr.cmbRead 0 0 0).wf = false := by decide
theorem test_wf_zone_finish : (Instr.zoneFinishRecommended 131072).wf = false := by decide
theorem test_wf_download : (Instr.firmwareImageDownload { fn := 0, cid := 0 } ⟨0, 0, { otype := 1 }⟩).wf = false := by decide
theorem test_wf_exchange : (Instr.hetosExchange { fn := 0, cid := 0 } ⟨0, 2, 0, 0, true, true, []⟩).wf = false := by decide
theorem test_wf_vpd_read : (Instr.vpdRead ⟨true, 0, 0⟩ 250 7).wf = false := by decide
theorem test_wf_vpd_write : (Instr.vpdWrite ⟨true, 0, 0⟩ 256 [1]).wf = false := by decide
theorem test_wf_scrub : (Instr.sramScrubPass 7 []).wf = false := by decide

/-! ### The manual's worked examples -/

/-- A build with an actuator layout. -/
def built (l : Layout) : State := { State.reset with layout := l }
/-- R7's example: head 2.3 of a build of three actuators of eight heads is global head 19. -/
theorem test_head_2_3 : (built { engines := 3, heads := #v[8, 8, 8, 0] }).globalHead 2 3 = some 19 := by decide
/-- R7's example: its readers are sampled by slices 38 and 39. -/
theorem test_slices_of_19 : sliceA 19 = 38 ∧ sliceB 19 = 39 := by decide
/-- R25's example: head 3.4 of a build of four actuators of six heads is global head 22. -/
theorem test_head_3_4 : (built { engines := 4, heads := #v[6, 6, 6, 6] }).globalHead 3 4 = some 22 := by decide
/-- The example of a build of two actuators of twelve heads: head 1.7 is global head 19. -/
theorem test_head_1_7 : (built { engines := 2, heads := #v[12, 12, 0, 0] }).globalHead 1 7 = some 19 := by decide
/-- R562: the columns begin 0x07, 0x0B, 0x0D, 0x0E, 0x13, that of bit 55 is 0xE0, and that of data bit 8 is 0x1A (R567's example). -/
theorem test_ecc_columns : eccColumns.take 5 = [0x07, 0x0B, 0x0D, 0x0E, 0x13] ∧ eccColumns[55]? = some 0xE0 ∧ eccColumns[8]? = some 0x1A := by
  decide +kernel
/-- R567's example: four bytes written into a word whose data bit 8 is in error; the correction is counted once in region 1. -/
theorem test_partial_write :
    (match execCmbWrite 0 0x200004 [1, 2, 3, 4] { State.reset with
        host := { State.reset.host with fns := vmod State.reset.host.fns 0 fun x => { x with present := true, cmbmsc := 3 } }
        mem := { State.reset.mem with dram := [(cmbBase + 0x40000, (EccWord.fresh 0).flipped 8)] } } with
      | .next t => t.mem.dram == [(cmbBase + 0x40000, EccWord.fresh 0x0403020100000000)] && t.mem.bkt[(1 : MemRegion)].ceCnt == 1 &&
          t.mem.bkt[(1 : MemRegion)].level == 1
      | _ => false) = true := by decide +kernel
/-- A word of a reply. -/
def answer (t : State) (k : Fin 6) : Word := ((t.out.replies.head?).map fun r => r.2.result[k]).getD 0
/-- R536's example, packet 0: TARGET 10 000 is stored as 9 600, and CLAMP is 0x0001. -/
theorem test_spindle_target :
    (match execSpindleTarget { xid := 0, src := .smbus, tag := 0x11, flags := 0, level := 5, index := 0
                               words := #v[10000, 1, 0, 0, 0, 0, 0, 0, 0, 0, 0, 0, 0, 0] }
        { built { engines := 3, heads := #v[8, 8, 8, 0] } with rst := { State.reset.rst with rail12 := true } } with
      | .next t => answer t 0 == 9600 && answer t 1 == 1 && (t.out.replies.head?).map (·.2.clamp) == some 1
      | _ => false) = true := by decide +kernel
/-- The bytes of the example's packet 0, and of its reply after the header. -/
theorem test_packet_bytes :
    (Packet.bytes 0x01B1 { xid := 0, src := .nvme 0, tag := 0x11, flags := 0, level := 5, index := 0
                           words := #v[10000, 1, 0, 0, 0, 0, 0, 0, 0, 0, 0, 0, 0, 0] }).take 16 =
        [0xB1, 0x01, 0x11, 0x00, 0x00, 0x05, 0x00, 0x00, 0x10, 0x27, 0x00, 0x00, 0x01, 0x00, 0x00, 0x00] ∧
      ((mkReply 0x01B1 0x11 0 1 [9600, 1, 4022]).bytes.drop 6).take 14 =
        [0x01, 0x00, 0x80, 0x25, 0x00, 0x00, 0x01, 0x00, 0x00, 0x00, 0xB6, 0x0F, 0x00, 0x00] := by decide +kernel
/-- `Obligations.PacketBytesRoundTrip`: packets of one exchange and one sender. -/
theorem witness_packets_of_one : ∀ x ∈ [((0x0100 : BitVec 16), ({ xid := 4, src := .smbus, tag := 5, flags := 0, level := 5, index := 0, words := Vector.replicate 14 0 } : Packet))],
    x.2.xid = 4 ∧ x.2.src = .smbus := by decide
/-- R536's example, packet 1: engine 3 is absent from a build of three actuators. -/
theorem test_absent_engine :
    (match execSrvStatus { xid := 0, src := .smbus, tag := 0, flags := 0, level := 4, index := 3, words := Vector.replicate 14 0 }
        { built { engines := 3, heads := #v[8, 8, 8, 0] } with rst := { State.reset.rst with rail12 := true } } with
      | .next t => (t.out.replies.head?).map (·.2.status) == some 0x0201
      | _ => false) = true := by decide +kernel

/-- R84: a set-point frame has 64 symbols; R93: a configuration frame has 11. -/
theorem test_frame_symbols :
    ((FrameBody.setPoint 3 (Vector.replicate 6 {}) (Vector.replicate 2 none)).symbols 1).length = 64 ∧
      ((FrameBody.config ⟨true, 7, 0x30, 1⟩).symbols 1).length = 11 := by decide +kernel

/-- R260's table: 448 servo bits, the address mark 0xE4B1 at bits 240 to 255 and 22 bits of INDEX, of wedge 3, from bit 300. -/
theorem test_servo_field :
    (servoFieldBits 3 0).length = 448 ∧
      ((servoFieldBits 3 0).drop 240).take 16 = ([1, 1, 1, 0, 0, 1, 0, 0, 1, 0, 1, 1, 0, 0, 0, 1].map fun b => some (b == 1)) ∧
      ((servoFieldBits 3 0).drop 316).take 6 = ([1, 0, 1, 0, 0, 1].map fun b => some (b == 1)) := by decide +kernel

/-! ### States the witnesses use -/

/-- A state or operand of the witnesses. -/
def upS : State := { State.reset with rst := { State.reset.rst with rail12 := true, phase := .ready } }
/-- A state or operand of the witnesses. -/
def pkt (lvl idx : Nat) (w0 : Word := 0) (w1 : Word := 0) (w2 : Word := 0) (w3 : Word := 0) (w4 : Word := 0) (w5 : Word := 0) : Packet :=
  { xid := 0, src := .nvme 0, tag := 1, flags := 0, level := BitVec.ofNat 8 lvl, index := BitVec.ofNat 16 idx
    words := #v[w0, w1, w2, w3, w4, w5, 0, 0, 0, 0, 0, 0, 0, 0] }
/-- A state or operand of the witnesses. -/
def onEng (s : State) (a : Eng) (f : Engine → Engine) : State := { s with eng := vmod s.eng a f }
/-- A state or operand of the witnesses. -/
def onHead (s : State) (a : Head) (f : HeadUnit → HeadUnit) : State := { s with head := vmod s.head a f }
/-- A state or operand of the witnesses. -/
def onLink (s : State) (a : Eng) (l : LinkIx) (f : ArmLink → ArmLink) : State := onEng s a fun e => { e with links := vmod e.links l f }
/-- A state or operand of the witnesses. -/
def onSlice (s : State) (n : SliceIx) (f : Slice → Slice) : State := { s with slice := vmod s.slice n f }
/-- A state or operand of the witnesses. -/
def linkedS : State := onLink upS 0 0 fun k => { k with state := .up, seq := 0 }
/-- A state or operand of the witnesses. -/
def sentS : State := onLink upS 0 0 fun k => { k with state := .up, seq := 7, frame := some { seq := 7, body := .setPoint 3 (Vector.replicate 6 {}) (Vector.replicate 2 none), attempts := 1 } }
/-- A state or operand of the witnesses. -/
def lateS : State := onLink upS 0 0 fun k => { k with state := .up, seq := 7, last := some { seq := 7, body := .setPoint 3 (Vector.replicate 6 {}) (Vector.replicate 2 none), attempts := 4 } }
/-- A state or operand of the witnesses. -/
def frS : StatusFrame :=
  let fr : StatusFrame := { seq := 3, recs := Vector.replicate 6 0x00100201, temp := 5, flags := 0, crc := 0 }
  { fr with crc := BitVec.ofNat 16 (crc16 (statusBytes fr)) }
/-- A state or operand of the witnesses. -/
def replyS : ConfigReply := { seq := 7, head := 1, addr := 0x30, value := 1 }
/-- A state or operand of the witnesses. -/
def trainS : State := onLink upS 0 0 fun k => { k with state := .training, phase := .commas }
/-- A state or operand of the witnesses. -/
def failedS : State := onLink upS 0 0 fun k => { k with state := .failed }
/-- A state or operand of the witnesses. -/
def wakeS : State := onSlice upS 3 fun x => { x with state := .wake }
/-- A state or operand of the witnesses. -/
def idleS : State := onSlice upS 3 fun x => { x with state := .idle }
/-- A state or operand of the witnesses. -/
def acqS : State := onSlice upS 3 fun x => { x with state := .acq, packet := true }
/-- A state or operand of the witnesses. -/
def acqS2 : State := onSlice upS 3 fun x => { x with state := .acq, packet := true, bits := 8 * fld upS.head[sliceHead 3].rd[sliceReader 3].tl 7 4 }
/-- A state or operand of the witnesses. -/
def failS : State := onSlice upS 3 fun x => { x with state := .failed }
/-- A state or operand of the witnesses. -/
def openS : State := { onSlice upS 2 fun x => { x with packet := true, state := .acq } with nor := { upS.nor with bands := [((1, 2), { geom := { firstTrk := 0 } })] } }
/-- A state or operand of the witnesses. -/
def bandS : State := { upS with nor := { upS.nor with bands := [((1, 2), { geom := { firstTrk := 0 } })] } }
/-- A state or operand of the witnesses. -/
def onSlot (s : State) (l : LaneIx) (k : SlotIx) (f : Slot → Slot) : State := s.modSlot l k f
/-- A state or operand of the witnesses. -/
def streamS : State := onSlot upS 0 0 fun c => { c with state := .stream }
/-- Decisions of 240 packet bits, newest first, with the sync mark at bits 128 to 175. -/
def syncDec : List Bool := ((List.range 240).map fun n => decide (128 ≤ n) && decide (n < 176) && syncBit (n - 128)).reverse
/-- A state or operand of the witnesses. -/
def syncS : State := onSlot upS 0 0 fun c => { c with state := .stream, dec := syncDec, za := List.replicate 240 {}, zb := List.replicate 240 {} }
/-- A state with lane 0 bound to head 3. -/
def boundTo (s : State) : State := { s with lane := vmod s.lane 0 fun x => { x with bind := { x.bind with head := some 3 } } }
/-- A state or operand of the witnesses. -/
def endedS : State := onSlot upS 0 0 fun c => { c with state := .stream, ended := true }
/-- A state or operand of the witnesses. -/
def decodeS : State := onSlot upS 0 0 fun c => { c with state := .decode }
/-- A state or operand of the witnesses. -/
def iterS : State := let s := onSlot upS 0 0 fun c => { c with state := .decode, passed := true }
  { s with pool := { s.pool with engines := vset s.pool.engines 0 { state := .held, job := some { at_ := 0, cls := 4, deep := false, for_ := .slot 0 }, owner := 0 } } }
/-- A codeword without a bit leaves no check unsatisfied. -/
theorem unsat_nothing : ((onSlot iterS 0 0 fun c => { c with layer := 41 }).lane[(0 : LaneIx)].slots[(0 : SlotIx)].layersTo 41).unsat = 0 := by
  have h : ∀ l : List Nat, l.foldl (fun b k => xor b ((#[] : Array Bool).getD k false)) false = false := by
    intro l; induction l <;> simp_all
  have e : ((onSlot iterS 0 0 fun c => { c with layer := 41 }).lane[(0 : LaneIx)].slots[(0 : SlotIx)].layersTo 41).hardBits = #[] := by decide
  rw [Slot.unsat, e]
  simp only [unsatisfied, h]
  decide
/-- A state or operand of the witnesses. -/
def checkS : State := let s := onSlot upS 0 0 fun c => { c with state := .decode, checking := true }
  { s with pool := { s.pool with engines := vset s.pool.engines 0 { state := .held, job := some { at_ := 0, cls := 4, deep := false, for_ := .slot 0 }, owner := 0 } } }
/-- A state or operand of the witnesses. -/
def doneS : State := onSlot upS 0 0 fun c => { c with state := .done, outcome := some .converged, ctx := some 5 }
/-- A state or operand of the witnesses. -/
def boundS : State := { upS with lane := vmod upS.lane 2 fun x => { x with bind := { x.bind with head := some 2 } } }
/-- A state or operand of the witnesses. -/
def onRst (s : State) (f : ResetBlock → ResetBlock) : State := { s with rst := f s.rst }
/-- A state or operand of the witnesses. -/
def onAct (s : State) (a : Eng) (f : Actuator → Actuator) : State := onRst s fun r => { r with act := vmod r.act a f }
/-- A state or operand of the witnesses. -/
def loadS : State := onRst upS fun r => { r with phase := .loader }
/-- A state or operand of the witnesses. -/
def fwS : State := onRst upS fun r => { r with phase := .firmware }
/-- A state or operand of the witnesses. -/
def tabS : State := onRst upS fun r => { r with phase := .tables }
/-- A state or operand of the witnesses. -/
def allS : State := onRst upS fun r => { r with act := Vector.replicate 4 { state := LoadState.loaded } }
/-- A state or operand of the witnesses. -/
def fwdS : State := onRst allS fun r => { r with rdfwdPend := [0], tblReady := true }
/-- A state or operand of the witnesses. -/
def repS : State := onRst allS fun r => { r with tblReady := true }
/-- A state or operand of the witnesses. -/
def convS : State := onRst allS fun r => { r with tblReady := true, convReady := true }
/-- A state or operand of the witnesses. -/
def wantS : State := { upS with spn := { upS.spn with state := .run, settleRun := 9, speed := 200000, nRef := 200000 }, pwr := { upS.pwr with eng := vmod upS.pwr.eng 0 fun e => { e with loadGnt := true } } }
/-- A state or operand of the witnesses. -/
def ldS : State := onEng (onAct upS 0 fun x => { x with state := .loading, tries := 3 }) 0 fun e => { e with srv := { e.srv with mode := .loading } }
/-- A state or operand of the witnesses. -/
def unlS : State := onAct upS 0 fun x => { x with state := .unloading }
/-- A state or operand of the witnesses. -/
def biasS : State := onAct upS 0 fun x => { x with biasing := true }
/-- A state or operand of the witnesses. -/
def lossS : State := onRst upS fun r => { r with powerLoss := true, tblReady := true }
/-- A state or operand of the witnesses. -/
def loadedS : State := onAct upS 0 fun x => { x with state := .loaded }
/-- A state or operand of the witnesses. -/
def dbgS : State := { upS with sec := { upS.sec with dbgUnlock := true } }
/-- A state or operand of the witnesses. -/
def misS : State := onEng upS 0 fun e => { e with core := { e.core with mismatches := [5, 6] } }
/-- A state or operand of the witnesses. -/
def hostS : State := { upS with host := { upS.host with fns := vmod upS.host.fns 0 fun x => { x with present := true } } }
/-- A state or operand of the witnesses. -/
def lockedAt (s : State) (a : Eng) : State := onEng s a fun e => { e with reel := { e.reel with state := .locked, stamp := ⟨3, 5, 9⟩ } }
/-- A state or operand of the witnesses. -/
def cmpAt (s : State) (a : Eng) (c : CmpIx) : State := onEng s a fun e => { e with reel := { e.reel with cmp := vmod e.reel.cmp c fun k => { k with armed := true, target := ⟨3, 5, 8⟩, headMask := 0xFFF } } }
/-- A state or operand of the witnesses. -/
def preS : State := onHead (cmpAt (lockedAt upS 0) 0 48) 0 fun h => { h with wr := { h.wr with writeReady := true } }
/-- A state or operand of the witnesses. -/
def markS : State := onEng (cmpAt (lockedAt upS 0) 0 63) 0 fun e => { e with reel := { e.reel with lateTol := 0 } }
/-- A state or operand of the witnesses. -/
def waitS : State := { (boundS.modSlot 2 0 fun c => { c with state := .wait }) with pool := { upS.pool with engines := vmod upS.pool.engines 0 fun x => { x with gated := false, parked := false } } }
/-- A state or operand of the witnesses. -/
def onPool (s : State) (f : Pool → Pool) : State := { s with pool := f s.pool }
/-- A state or operand of the witnesses. -/
def heldS : State := onPool upS fun p => { p with engines := vmod p.engines 0 fun x => { x with state := .held } }
/-- A state or operand of the witnesses. -/
def arbS : State := onPool heldS fun p => { p with reqs := vmod p.reqs 2 fun x => { x with pending := [{ at_ := 0, cls := 4, deep := false, for_ := .slot 0 }] } }
/-- A state or operand of the witnesses. -/
def cutS : State := { upS with lane := vmod upS.lane 0 fun x => { x with cut := [{ outcome := some .noConv }] } }
/-- A state or operand of the witnesses. -/
def job0 (w : JobWait) (st : Nat) : RecJob := { at_ := {}, cmds := [], outcome := .noConv, fly := false, syncQ := 0, stream := true, lane := 0, slot := 0, tag := 0, zgen := 0, step := st, wait := w, revOpen := 3 }
/-- A state or operand of the witnesses. -/
def withJob (s : State) (x : RecJob) : State := onEng s 0 fun e => { e with recv := { e.recv with jobs := vset e.recv.jobs 0 (some x) } }
/-- A state or operand of the witnesses. -/
def jobS (w : JobWait) (st : Nat) : State := withJob (lockedAt upS 0) (job0 w st)
/-- A state or operand of the witnesses. -/
def capJob : RecJob := { job0 .capturing 7 with deepEng := some 36, capsHeld := List.replicate 9 [] }
/-- A state or operand of the witnesses. -/
def capS : State := withJob (lockedAt upS 0) capJob
/-- A state or operand of the witnesses. -/
def timS : State := withJob (lockedAt upS 0) { job0 .capture 6 with timer := some 0 }
/-- A state or operand of the witnesses. -/
def reaS : State := let s := onEng upS 0 fun e => { e with recv := { e.recv with reallocs := [{ orig := { track := 5 }, dest := {}, zone := 0, info := 0, suspect := false }], spareSize := vmod e.recv.spareSize 0 fun v => vset v 0 5 } }
  { s with media := { s.media with regions := vmod s.media.regions 0 fun v => vmod v 0 fun r => { r with firstTrk := 0, lastTrk := 100, guard_ := 2, spb := 3 } } }
/-- A state or operand of the witnesses. -/
def actS : State := onEng upS 0 fun e => { e with recv := { e.recv with reallocs := [{ orig := { track := 5 }, dest := {}, zone := 0, info := 0, suspect := false, placed := true }] } }
/-- A state or operand of the witnesses. -/
def geoS : State := { upS with
  nor := { upS.nor with bands := [((0, 0), { geom := { firstTrk := 0, trkGap := 13080000 } })] }
  media := { upS.media with zones := [(0, { zs := .impOpen, zcap := 5, rows := 5, hmask := 1 })] } }
/-- A state or operand of the witnesses. -/
def gd : ZoneDesc :=  { zs := .impOpen, zcap := 5, rows := 5, hmask := 1 }
/-- A state or operand of the witnesses. -/
def wb : BufferedWrite := { ctx := 5, fn := 0, nsid := 0, startNo := 3, slba := 0, zone := some 0, zofs := 0, blocks := [{ here := true }], credits := 0 }
/-- A state or operand of the witnesses. -/
def encS : State :=
  let s : State := onHead { geoS with q := { geoS.q with buffered := [wb] } } 0 fun h => { h with wr := { h.wr with suspects := [{ at_ := {}, ctx := none, block := 0, tries := 99 }] } }
  let s := onEng s 0 fun e => { e with recv := { e.recv with spareSize := vmod e.recv.spareSize 0 fun v => vset v 0 5 } }
  { s with media := { s.media with regions := vmod s.media.regions 0 fun v => vmod v 0 fun r => { r with firstTrk := 0, lastTrk := 100, guard_ := 2, spb := 3 } } }
set_option maxRecDepth 100000 in
theorem geo_sector : encS.blockSector gd 0 = some {} := by
  have h : ((maskHeads gd.hmask).flatMap fun h =>
    (encS.goodSlots gd.engine h (gd.firstTrk + 0)).map fun k => (encS.slotFrac gd.engine ⟨h, gd.firstTrk + 0, k⟩, (⟨h, gd.firstTrk + 0, k⟩ : SectorAt))) = [(3072, {})] := by decide +kernel
  have e1 : encS.rowOfBlock gd gd.rows 0 0 = some (0, 0) := by decide +kernel
  have e2 : encS.rowList gd 0 = [{}] := by
    unfold State.rowList
    dsimp only
    rw [h, List.mergeSort_singleton]; rfl
  unfold State.blockSector
  rw [if_neg (by decide), e1]
  simp only [Option.bind_some, e2]; rfl
theorem enc_desc : encS.zoneDesc 0 = gd := by decide +kernel
theorem enc_view : encS.viewSector wb.view 0 = some (0, gd, {}) := by
  simp only [State.viewSector, State.viewPlace, wb, BufferedWrite.view, Option.bind_some, Nat.add_zero, enc_desc, geo_sector, Option.map_some]
  rfl
theorem enc_block : encS.blockAt 0 {} = some (wb.view, 0) := by
  have h : encS.views = [wb.view] := rfl
  have hb : wb.view.blocks = [{ here := true }] := rfl
  simp only [State.blockAt, h, hb, List.findSome?_cons, List.zipIdx_cons, enc_view, List.filterMap_cons]
  rfl
/-- A state or operand of the witnesses: a codeword of before a reset of its zone waits for its old sector. -/
def oldW : State :=
  { geoS with q := { geoS.q with buffered := [{ wb with blocks := [{ here := true, codeword := some 0, old := some ({}, 0) }] }] } }
/-- A state or operand of the witnesses. -/
def suspS : State := onHead upS 0 fun h => { h with wr := { h.wr with slot := some 0, run := some { sectors := [] }, suspects := [{ at_ := { track := 5 }, ctx := none, block := 0 }] } }
/-- A state or operand of the witnesses. -/
def spareS : State := let s := onHead reaS 0 fun h => { h with wr := { h.wr with wrDis := true, suspects := [{ at_ := { track := 5 }, ctx := none, block := 0, tries := 99 }] } }
  onEng s 0 fun e => { e with recv := { e.recv with spareSize := vmod e.recv.spareSize 1 fun v => vset v 0 5 } }
/-- A state or operand of the witnesses. -/
def faultS : State := onHead upS 0 fun h => { h with wr := { h.wr with suspects := [{ at_ := { track := 5 }, ctx := none, block := 0, tries := 99 }] } }
/-- A state or operand of the witnesses. -/
def trackS : State := let s := onEng upS 0 fun e => { e with srv := { e.srv with mode := .minuet } }
  { s with pwr := { s.pwr with eng := vmod s.pwr.eng 0 fun e => { e with seekDraw := 2000 } } }
/-- A state or operand of the witnesses. -/
def onSlotL (s : State) (n : LoopIx) (f : LoopSlot → LoopSlot) : State := { s with lpe := { s.lpe with slots := vmod s.lpe.slots n f } }
/-- A state or operand of the witnesses. -/
def smp0 : LoopSample := { value := 100, at_ := 50, due := 100, period := 3000 }
/-- A state or operand of the witnesses. -/
def readyS : State := onSlotL upS 77 fun x => { x with en := true, lmode := .closed, latched := [smp0] }
/-- A state or operand of the witnesses. -/
def compS : State := let s := onSlotL upS 77 fun x => { x with en := true, lmode := .closed, latched := [smp0], pipe := some 2 }
  { s with lpe := { s.lpe with pipes := vset s.lpe.pipes 2 (some 77) } }
/-- A state or operand of the witnesses. -/
def outS : State := onSlotL upS 1 fun x => { x with en := true, pendingOut := some (32768000, 0) }
/-- A state or operand of the witnesses. -/
def outT : State := onSlotL upS 80 fun x => { x with en := true, pendingOut := some (32768000, 0) }
/-- A state or operand of the witnesses. -/
def trigS : State := { upS with trc := { upS.trc with state := .triggered, chans := vmod upS.trc.chans 0 fun c => { c with src := 0x80000000 } } }
/-- A state or operand of the witnesses. -/
def doneT : State := { upS with trc := { upS.trc with state := .done, trigAt := 5 } }
/-- A state or operand of the witnesses. -/
def enS : State := onSlotL upS 77 fun x => { x with en := true }
/-- A state or operand of the witnesses. -/
def onSpn (s : State) (f : Spindle → Spindle) : State := { s with spn := f s.spn }
/-- A state or operand of the witnesses. -/
def spnS (st : SpnState) : State := onSpn upS fun p => { p with state := st }
/-- A state or operand of the witnesses. -/
def onPwr (s : State) (f : Power → Power) : State := { s with pwr := f s.pwr }
/-- A state or operand of the witnesses. -/
def runB : State := onEng (spnS .run) 0 fun e => { e with reel := { e.reel with state := .locked } }
/-- A state or operand of the witnesses. -/
def onSeq (s : State) (f : Sequencer → Sequencer) : State := onEng s 0 fun e => { e with seq := f e.seq }
/-- A state or operand of the witnesses. -/
def seqS : State := onSeq upS fun q => { q with state := .run }
/-- A state or operand of the witnesses. -/
def mw (na cond cpol tgt : Nat) : BitVec 128 := BitVec.ofNat 128 (na * 2 ^ 125 + cond * 2 ^ 121 + cpol * 2 ^ 120 + tgt * 2 ^ 107)
/-- A state or operand of the witnesses. -/
def wordS (w : BitVec 128) : State := onSeq seqS fun q => { q with upc := 9, store := [(9, { word := w, parity := microParity w })] }
/-- A state or operand of the witnesses. -/
def trapS (w : BitVec 128) : State := onSeq (wordS w) fun q => { q with state := .trap, bank := 1, tsv := vset q.tsv 0 0x81000123 }
/-- A state or operand of the witnesses. -/
def armOp0 : ArmOp := { csel := 2, cact := 1, careg := 3, stb := .none, cfin := false, csst := false, hsrc := false, hmask := 1 }
/-- A state or operand of the witnesses. -/
def seqAt : State := onSeq (lockedAt seqS 0) fun q => q.setA 3 (angleAdd 500000000 0)
/-- A state or operand of the witnesses. -/
def mchkS : State := onSeq upS fun q => { q with state := .mchk }
/-- A state or operand of the witnesses. -/
def ns0 : Namespace := { nsid := 1, zoned := true, nvmset := 1, size := 262144, lbaf := 0, piType := 0, piFirst := false, extended := false, shared := false, zones := [0], attached := 1 }
/-- A state or operand of the witnesses. -/
def ns1 : Namespace := { nsid := 2, zoned := false, nvmset := 1, size := 1000, lbaf := 0, piType := 0, piFirst := false, extended := false, shared := false, zones := [], attached := 1 }
/-- A state or operand of the witnesses. -/
def fnS : State := { geoS with
  host := { geoS.host with
    fns := vmod geoS.host.fns 0 fun x => { x with present := true, en := true, rdy := true, sqs := [{ id := 0, cq := 0, size := 8 }, { id := 1, cq := 1, size := 8, tail := 1 }], cqs := [{ id := 0, size := 8 }, { id := 1, size := 8 }] }
    namespaces := [ns0, ns1] }
  rst := { geoS.rst with convReady := true } }
/-- A state or operand of the witnesses. -/
def sqe0 (op : Byte) (nsid : Word) (slba nlb : Nat) : Sqe :=
  { opcode := op, cid := 7, nsid := nsid, slba := slba, nlb := nlb, fua := false, limitedRetry := false, pract := false, prchk := 0, piremap := false, refTag := 0, appTag := 0, appMask := 0
    act := .close, selectAll := false, zrasf := 0, partialReport := false, maxDescs := 4, deac := false, ranges := [], reservedSet := false, badEntry := false, badData := false, data := [] }
/-- A state or operand of the witnesses. -/
def ctx0 (e : Sqe) : Ctx := { fn := 0, sq := 1, sqe := e, needCredits := e.credits, credits := e.credits }
/-- A state or operand of the witnesses. -/
def ctxS (c : Ctx) : State := { fnS with q := { fnS.q with ctxs := [(5, c)] } }
/-- A state or operand of the witnesses. -/
def sendSqe (a : ZoneAct) : Sqe := { sqe0 0x79 1 0 0 with act := a }
/-- A state or operand of the witnesses. -/
def credC : Ctx := { ctx0 (sqe0 0x01 1 0 2) with credits := 0 }
/-- A state or operand of the witnesses. -/
def dmSqe : Sqe := { sqe0 0x09 2 0 0 with deac := true, ranges := [(3, 2)] }
/-- A state or operand of the witnesses. -/
def movC : Ctx := { ctx0 (sqe0 0x01 1 0 1) with started := true, startNo := 1, zone := some 0, blocks := [{}] }
/-- A state or operand of the witnesses. -/
def rdC : Ctx := { ctx0 (sqe0 0x02 1 0 1) with started := true, startNo := 1, blocks := [{ here := true }] }
/-- A state or operand of the witnesses. -/
def finC : Ctx := { ctx0 (sqe0 0x02 1 0 1) with started := true, finished := some {} }
/-- A state or operand of the witnesses. -/
def durB : BufferedWrite := { ctx := 5, fn := 0, nsid := 1, startNo := 3, slba := 0, zone := some 0, zofs := 0, blocks := [{ here := true, durable := true }], credits := 2 }
/-- A state or operand of the witnesses. -/
def failC : Ctx := { ctx0 { sqe0 0x02 1 0 1 with badData := true } with started := true, startNo := 1, blocks := [{ here := true }] }
/-- A state or operand of the witnesses: the descriptor of zone 0 held by line 2 of its engine's cache. -/
def heldZ (a : ZoneAct) (z : ZState) : State :=
  let d : ZoneDesc := { gd with zs := z }
  let s := ctxS (ctx0 (sendSqe a))
  onEng { s with media := { s.media with zones := [(0, d)] } } 0 fun e =>
    { e with zdc := { e.zdc with lines := vset e.zdc.lines 2 { state := .clean, zone := 0, desc := d } } }
/-- A state or operand of the witnesses. -/
def durS : State := { fnS with q := { fnS.q with buffered := [durB] } }
/-- A state or operand of the witnesses. -/
def grp0 : LogGroup := { seq := 4, zone := 0, blocks := [(7, 0, 3, none)] }
/-- A state or operand of the witnesses. -/
def logD : ZoneDesc := { gd with zs := .log, wp := 1 }
/-- A state or operand of the witnesses. -/
def logS : State := { upS with media := { upS.media with zones := [(0, logD)], groups := vset upS.media.groups 0 [{ grp0 with openedAt := angleModulus - 2 * revUnits }] } }
/-- A state or operand of the witnesses. -/
def logC : State := { upS with media := { upS.media with zones := [(0, logD)], groups := vset upS.media.groups 0 [{ grp0 with closed := true }] } }
/-- A state or operand of the witnesses. -/
def cmpS : State := { upS with media := { upS.media with zones := [(0, logD)], indir := [(7, { valid := true, zone := 0, ofs := 0 })] } }
/-- A state or operand of the witnesses. -/
def onZdc (s : State) (f : Zdc → Zdc) : State := onEng s 0 fun e => { e with zdc := f e.zdc }
/-- A state or operand of the witnesses. -/
def zonS : State := { upS with media := { upS.media with zones := [(0, gd)] } }
/-- A state or operand of the witnesses. -/
def hitS : State := onZdc zonS fun c => { c with lines := vset c.lines 2 { state := .clean, zone := 0, desc := gd } }
/-- A state or operand of the witnesses. -/
def filS : State := onZdc zonS fun c => { c with lines := vset c.lines 2 { state := .fill, zone := 0 } }
/-- A state or operand of the witnesses. -/
def vicS : State := onZdc zonS fun c => { c with victims := vset c.victims 1 { state := .begun, dirty := true, zone := 0, desc := { gd with wp := 3 } } }
/-- A state or operand of the witnesses. -/
def frlS : State := { zonS with host := { zonS.host with zfrl := 1, zoneTimes := [(0, 0)] }, mtime := 3600 * 3000000000 }
/-- A state or operand of the witnesses. -/
def onMem (s : State) (f : MemBlock → MemBlock) : State := { s with mem := f s.mem }
/-- A state or operand of the witnesses. -/
def badW : EccWord := EccWord.poison 7
/-- A state or operand of the witnesses. -/
def ceW : EccWord := { data := 7, check := eccCheck 7 ^^^ 1 }
/-- A state or operand of the witnesses. -/
def brstS : State := onMem upS fun m => { m with dram := [(8, EccWord.fresh 7), (9, ceW)], chan := vmod m.chan 0 fun c => { c with pending := [{ who := 3, at_ := 5, addr := 64 }, { who := 9, at_ := 4, addr := 128 }] } }
/-- A state or operand of the witnesses. -/
def cmbS : State := onMem { hostS with host := { hostS.host with fns := vmod hostS.host.fns 0 fun x => { x with cmbmsc := 3 } } } fun m => { m with dram := [(cmbBase, EccWord.fresh 7), (cmbBase + 1, EccWord.fresh 9)] }
/-- A state or operand of the witnesses. -/
def markedS : State := onMem upS fun m => { m with repairBusy := true, dram := [(1024, badW), (1026, ceW), (5000, ceW)], chan := vmod m.chan 0 fun c => { c with marked := [(4, 0)] } }
/-- A state or operand of the witnesses. -/
def ctr0 : Contract := { floor := false, dir := 1, fn := 0, sq := 1, latMs := 20, rate := 100, adm := 0, shares := Vector.replicate 4 (0, 1) }
/-- A state or operand of the witnesses. -/
def ctrF : Contract := { ctr0 with floor := true, rate := 100, waiting := false }
/-- A state or operand of the witnesses. -/
def latC : Ctx := { ctx0 (sqe0 0x02 1 0 1) with started := true }
/-- A state or operand of the witnesses. -/
def ctrS (c : Ctx) (k : Contract) (now : Nat) : State := { fnS with mtime := now, q := { fnS.q with ctxs := [(5, c)], contracts := [(9, k)] } }
/-- A state or operand of the witnesses. -/
def schS : State := onHead { upS with pwr := { upS.pwr with head := vmod upS.pwr.head 0 fun p => { p with wrGnt := true } } } 0 fun h => { h with
  srv := { h.srv with wrReady := true, pos := 1280, tgt := 1280}, wr := { h.wr with slot := some 0, suspects := [{ at_ := { track := 5 }, ctx := none, block := 0 }] } }
/-- A state or operand of the witnesses. -/
def onFn (s : State) (f : FnState → FnState) : State := { s with host := { s.host with fns := vmod s.host.fns 0 f } }
/-- A state or operand of the witnesses. -/
def admS : State := { fnS with host := { fnS.host with fns := vmod fnS.host.fns 0 fun x => { x with pairs := 8 } } }
/-- A state or operand of the witnesses. -/
def nsS : State := { admS with media := { admS.media with convPct := 5 } }
/-- A state or operand of the witnesses. -/
def fmtS : State := { nsS with sec := { nsS.sec with fmtCmds := [(0, 7, none, [2])], fmtProg := 9 }, nor := { nsS.nor with formats := [(2, 5)] }, host := { nsS.host with namespaces := [ns0, { ns1 with format := some 5 }] } }
/-- A state or operand of the witnesses. -/
def nsWant : NsCreate := { csi := 0, size := 1000, lbaf := 1, pi := 1, piFirst := false, extended := false, nvmset := 0, shared := true }
/-- A state or operand of the witnesses. -/
def onSec (s : State) (f : Security → Security) : State := { s with sec := f s.sec }
/-- A state or operand of the witnesses. -/
def stgS (o : SignedObj) : State := onSec { admS with nor := { admS.nor with slots := Vector.replicate 2 (some o) } } fun x => { x with staged := some o, stagedLen := 8192, runSlot := 1 }
/-- A state or operand of the witnesses. -/
def imgO : SignedObj := { otype := 1, version := 7, svn := 3 }
/-- A state or operand of the witnesses. -/
def patO : SignedObj := { otype := 2, patchLvl := 4 }
/-- A state or operand of the witnesses. -/
def comS (a : Nat) : State := onSec (stgS imgO) fun x => { x with actState := .programming, commit := some { obj := imgO, slot := 0, action := a, fn := 0, cid := 9 } }
/-- A state or operand of the witnesses. -/
def retS : State := onSec (stgS imgO) fun x => { x with retiring := some (5, 6), running := { imgO with revokes := 2 } }
/-- A state or operand of the witnesses. -/
def spdS (ph : SpdmPhase) : State := onSec admS fun x => { x with spdm := vmod x.spdm 0 fun y => { y with phase := ph, sessions := [{ id := 5, finished := true }, { id := 6, finished := false }], lastSigned := some (0, 77) } }
/-- A state or operand of the witnesses. -/
def opsS (sp : OpalSp) (l : List OpalAuth) : State := onSec nsS fun x => { x with opal := { x.opal with activated := true, sessions := [{ fn := 0, sp := sp, auths := l }], pins := [(.sid, 44), (.admin 0, 55), (.user 3, 66)] } }
/-- A state or operand of the witnesses. -/
def spdM : State := onSec admS fun x => { x with spdm := vmod x.spdm 16 fun y => { y with phase := .negotiated } }
/-- A state or operand of the witnesses. -/
def miR : MiReq := ⟨false, 0, 3⟩
/-- A message of R528: one packet, the opcode 0x0100, the CRC-32C of the bytes before it at the end. -/
def mctpR : MctpReq :=
  let body : List Nat := [0xFE, 0x4C, 0x1F, 1, 1, 0, 0, 0, 0x00, 0x01] ++ List.replicate 62 0
  { xid := 20, vdm := true, eid := 7, mtag := 2, msg := (body ++ leBytes 4 (crc32c body)).map (BitVec.ofNat 8 ·) }
/-- A state or operand of the witnesses. -/
def exc (n : Nat) : Exchange := { xid := n, src := .smbus, todo := [(0x0100, { xid := n, src := .smbus, tag := 5, flags := 0, level := 0, index := 0, words := Vector.replicate 14 0 })] }
/-- A state or operand of the witnesses. -/
def xS (l : List Exchange) : State := { admS with het := { admS.het with exchanges := l } }
/-- A state or operand of the witnesses. -/
def onEvr (s : State) (f : Recorder → Recorder) : State := { s with evr := f s.evr }
/-- A state or operand of the witnesses. -/
def evt : Event := { type := 5, level := 5, index := 0, poh := 0, pcyc := 0, rseq := 3, mtime := 0, words := [7], len := 32 }
/-- A state or operand of the witnesses. -/
def blk (p : Nat) : OpenBlock := { pair := p, bseq := 2, used := 32, aliasGen := 0, pcyc := 0, poh := 0 }
/-- A state or operand of the witnesses. -/
def recS : State := onEvr upS fun e => { e with queue := [evt], open_ := vset e.open_ 4 (some (blk 0)) }
/-- A state or operand of the witnesses. -/
def eraS : State := onEvr upS fun e => { e with erasing := some 3, open_ := vset e.open_ 4 (some (blk 8)) }
/-- A state or operand of the witnesses. -/
def frzS : State := onEvr upS fun e => { e with frzDepth := 1 }

/-! ### Witnesses of the statements about every command -/

/-- A module without its supply. -/
def darkS : State := onRst upS fun r => { r with rail12 := false }
/-- `Obligations.IdleTick`, with its supply and without. -/
theorem witness_idle_tick : (darkS.pending = [] ∧ darkS.rst.rail12 = false ∧ darkS.rst.powerLoss = false) ∧
    (upS.pending = [] ∧ upS.rst.rail12 = true) ∧ (lossS.pending = [] ∧ lossS.rst.powerLoss = true) := by decide
/-- `Obligations.EveryCommandWithinItsParts`: a command that is no rail above 16 V, a rail of 16 V, and one above it. -/
theorem witness_within : (∀ mv : Nat, 16000 < mv → Instr.chopperSwitch 16000 ≠ .chopperSwitch mv ∧ Instr.chopperSwitch 16000 ≠ .railOvervoltage mv) ∧
    ∃ mv : Nat, 16000 < mv := by
  refine ⟨fun mv h => ⟨?_, by simp⟩, 16001, by decide⟩
  intro e; injection e with e; omega
set_option maxRecDepth 100000 in
/-- The state after reset is sound. -/
theorem sound_reset : State.reset.Sound :=
  ⟨by decide +kernel, by decide +kernel, by decide +kernel, by decide +kernel, by decide +kernel⟩
/-- `Obligations.StepKeepsSound` and `Obligations.FusesOnlyBlown`. -/
theorem witness_step_sound : ∃ s t : State, s.Sound ∧ step s = .next t := ⟨State.reset, _, sound_reset, rfl⟩
/-- A start in its firmware phase, with another layout stored. -/
def relaid : State :=
  { fwS with pending := [.mainFirmwareDone 0], nor := { fwS.nor with layout := { engines := 2, heads := #v[4, 4, 0, 0] } } }
set_option maxRecDepth 100000 in
/-- `Obligations.LayoutOnlyAtStart`. -/
theorem witness_layout : ∃ s t : State, step s = .next t ∧ t.layout ≠ s.layout := ⟨relaid, _, rfl, by decide +kernel⟩
/-- `Obligations.PacketRefused`: a level the opcode does not accept, and an index out of its range. -/
theorem witness_packet_refused : ∃ (c : Instr) (o : OpInfo) (p : Packet) (s : State), packetRow c = some (o, p) ∧ mayStart o p s = true ∧
    s.rst.recovery = false ∧ headerCheck o p s ≠ 0 ∧ (s.het.exchanges.all fun x => x.xid != p.xid || !x.dropped) = true :=
  ⟨.srvStatus (pkt 5 0), ⟨0x0180, [4], .read⟩, pkt 5 0, upS, by decide, by decide, by decide, by decide, by decide⟩
/-- `Obligations.PacketWaitsTurn`: no supply. -/
theorem witness_packet_waits : ∃ (c : Instr) (o : OpInfo) (p : Packet) (s : State), packetRow c = some (o, p) ∧ mayStart o p s = false :=
  ⟨.srvStatus (pkt 4 0), ⟨0x0180, [4], .read⟩, pkt 4 0, darkS, by decide, by decide⟩
/-- `Obligations.DryPacketChangesNothing`. -/
theorem witness_packet_dry : ∃ (c : Instr) (o : OpInfo) (p : Packet), packetRow c = some (o, p) ∧ p.dry = true :=
  ⟨.reelConfig { pkt 4 0 with flags := 2 }, ⟨0x0122, [4], .config⟩, { pkt 4 0 with flags := 2 }, by decide, by decide⟩
/-- `Obligations.ReplyZeros`: both of its cases. -/
theorem witness_reply_zeros : (BitVec.ofNat 16 0x0105 : BitVec 16) ≠ 0 ∧ ∃ i : Fin 6, ([] : List Word).length ≤ i.val := ⟨by decide, 0, by decide⟩
/-- `Obligations.HeadNumbers`: the largest layout, its first and last heads. -/
theorem witness_head_numbers : ∃ s : State, s.layout.legal = true ∧ s.globalHead 0 0 = some 0 ∧ s.globalHead 1 11 = some 23 ∧ s.layout.total = 24 :=
  ⟨built { engines := 2, heads := #v[12, 12, 0, 0] }, by decide, by decide, by decide, by decide⟩
/-- `Obligations.EccSyndrome`: a word for each row of the table of R563. -/
theorem witness_syndromes : (EccWord.fresh 5).syndrome = 0 ∧ (EccWord.poison 5).syndrome = 0xFF ∧
    ((EccWord.fresh 5).flipped 0).syndrome = BitVec.ofNat 8 (eccColumns.getD 0 0) ∧
    ((EccWord.fresh 5).flipped 63).syndrome = BitVec.ofNat 8 (eccColumns.getD 63 0) ∧
    ((EccWord.fresh 5).flipped 64).syndrome = BitVec.ofNat 8 (2 ^ 0) ∧ ((EccWord.fresh 5).flipped 71).syndrome = BitVec.ofNat 8 (2 ^ 7) ∧
    (((EccWord.fresh 5).flipped 0).flipped 1).kind = .ue := by decide +kernel
/-- `Obligations.EccCorrects`: two different bits. -/
theorem witness_two_bits : ∃ x y : Fin 72, x ≠ y := ⟨0, 71, by decide⟩
set_option maxRecDepth 100000 in
/-- `Obligations.BufferWriteReadsBack`: the last byte of the PF's buffer, and the addresses and words beside the write. -/
theorem witness_buffer_write : ∃ (f : Fn) (off : Nat) (bytes : List Byte) (s : State) (base size : Nat), s.cmbOf f = some (base, size) ∧
    s.host.fns[f].present = true ∧ off + bytes.length ≤ size ∧ s.mem.refill.contains f = false ∧ Memory.wf s.mem.dram = true ∧
    (∃ addr : Nat, base + off ≤ addr ∧ addr < base + off + bytes.length) ∧ ∃ w : Nat, 8 * w + 8 ≤ base + off :=
  ⟨0, 268435455, [1], hostS, 8 * cmbBase, 268435456, rfl, by decide, by decide, by decide, by decide, ⟨8 * cmbBase + 268435455, by decide, by decide⟩,
    cmbBase, by decide⟩


/-! ### Witnesses: for each clause with hypotheses, a state and operands that meet all of them -/

/-! Clauses of `Obligations.StartPhases`. -/

set_option maxRecDepth 100000 in
theorem witness_power_on_reset :
    ∃ (s : State), (s.rst.powerLoss = false) :=
  ⟨upS, by decide⟩

set_option maxRecDepth 100000 in
theorem witness_rail_fault :
    ∃ (s : State), (s.rst.powerLoss = false) :=
  ⟨upS, by decide⟩

set_option maxRecDepth 100000 in
theorem witness_boot_rom_done :
    ∃ (s : State), (s.rst.phase = .bootRom) :=
  ⟨State.reset, by decide⟩

set_option maxRecDepth 100000 in
theorem witness_first_stage_loader_done :
    ∃ (s : State) (ch0 ch1 : Bool), (s.rst.phase = .loader) :=
  ⟨loadS, true, false, by decide⟩

set_option maxRecDepth 100000 in
theorem witness_main_firmware_done :
    ∃ (s : State) (laneFail : BitVec 24), (s.rst.phase = .firmware) :=
  ⟨fwS, 0, by decide⟩

set_option maxRecDepth 100000 in
theorem witness_tables_done :
    ∃ (s : State), (s.rst.phase = .tables) :=
  ⟨tabS, by decide⟩

set_option maxRecDepth 100000 in
theorem witness_read_forward :
    ∃ (s : State) (z : ZoneNo) (r : List RdFwd), (s.rst.rdfwdPend.contains z = true) ∧ (s.rst.tblReady = true) ∧ (s.engineLoaded (s.zoneDesc z).engine = true) :=
  ⟨fwdS, 0, [], by decide⟩

set_option maxRecDepth 100000 in
theorem witness_indirection_replay :
    ∃ (s : State) (imageOk : Bool), (s.rst.tblReady = true) ∧ (s.rst.convReady = false) ∧ (s.allLoaded = true) :=
  ⟨repS, true, by decide⟩

/-! Clauses of `Obligations.PowerLossAndStores`. -/

set_option maxRecDepth 100000 in
theorem witness_power_fail :
    ∃ (s : State), (s.rst.powerLoss = false) :=
  ⟨upS, by decide⟩

set_option maxRecDepth 100000 in
theorem witness_journal_program :
    ∃ (s : State), (s.rst.powerLoss = true) ∧ (s.rst.journalDone = false) ∧ (s.rst.tblReady = true) :=
  ⟨lossS, by decide⟩

set_option maxRecDepth 100000 in
theorem witness_power_loss_end :
    ∃ (s : State), (s.rst.powerLoss = true) :=
  ⟨lossS, by decide⟩

set_option maxRecDepth 100000 in
theorem witness_mp_checkpoint :
    ∃ (s : State), (s.rst.tblReady = true) ∧ (s.rst.ckptAt ≤ s.mtime) :=
  ⟨repS, by decide⟩

set_option maxRecDepth 100000 in
theorem witness_indirection_image :
    ∃ (s : State), (s.rst.convReady = true) ∧ (s.imageDue = true) :=
  ⟨convS, by decide⟩

set_option maxRecDepth 100000 in
theorem witness_srst_assert :
    ∃ (s : State), (s.sec.dbgUnlock = true) :=
  ⟨dbgS, by decide⟩

set_option maxRecDepth 100000 in
theorem witness_srst_assert_locked :
    ∃ (s : State), (s.sec.dbgUnlock = false) :=
  ⟨upS, by decide⟩

/-! Clauses of `Obligations.LoadUnloadAndResets`. -/

set_option maxRecDepth 100000 in
theorem witness_head_load :
    ∃ (s : State) (a : Eng), (s.wantsLoad a = true) ∧ (s.pwr.eng[a].loadGnt = true) ∧ (s.pwr.late = none) :=
  ⟨wantS, 0, by decide⟩

set_option maxRecDepth 100000 in
theorem witness_load_timeout :
    ∃ (s : State) (a : Eng), (s.rst.act[a].state = .loading) ∧ (s.eng[a].srv.mode = .loading) ∧ (s.rst.act[a].loadTries ≤ s.rst.act[a].tries) ∧ (s.rst.act[a].loadEnd ≤ s.mtime) :=
  ⟨ldS, 0, by decide⟩

set_option maxRecDepth 100000 in
theorem witness_park_done :
    ∃ (s : State) (a : Eng), (s.rst.act[a].state = .unloading) ∧ (s.engineFailed a = false) :=
  ⟨unlS, 0, by decide⟩

set_option maxRecDepth 100000 in
theorem witness_retract_bias_end :
    ∃ (s : State) (a : Eng), (s.rst.act[a].biasing = true) ∧ (s.rst.act[a].biasEnd ≤ s.mtime) :=
  ⟨biasS, 0, by decide⟩

set_option maxRecDepth 100000 in
theorem witness_unload_timeout :
    ∃ (s : State) (a : Eng), (s.rst.act[a].state = .unloading) ∧ (s.rst.act[a].unloadAt + 300 * msClocks ≤ s.mtime) :=
  ⟨{ unlS with mtime := 300 * msClocks }, 0, by decide⟩

set_option maxRecDepth 100000 in
theorem witness_poh_store :
    ∃ (s : State), (s.nor.poh / 64 < s.rst.poh / 64) :=
  ⟨onRst upS fun r => { r with poh := 64 }, by decide⟩

set_option maxRecDepth 100000 in
theorem witness_poh_store_early :
    ∃ (s : State), (s.rst.poh / 64 ≤ s.nor.poh / 64) :=
  ⟨upS, by decide⟩

set_option maxRecDepth 100000 in
theorem witness_reset_status :
    ∃ (s : State) (p : Packet), (ready ⟨0x0240, [5], .read⟩ p s = true) :=
  ⟨upS, pkt 5 0, by decide⟩

set_option maxRecDepth 100000 in
theorem witness_reset_clear :
    ∃ (s : State) (p : Packet), (ready ⟨0x0241, [5], .action⟩ p s = true) ∧ (p.w 0 = 0) ∧ (fld (p.w 1) 4 0 < 8) :=
  ⟨upS, pkt 5 0 0 7, by decide⟩

set_option maxRecDepth 100000 in
theorem witness_reset_module :
    ∃ (s : State) (p : Packet), (ready ⟨0x0241, [5], .action⟩ p s = true) ∧ (p.w 0 = 1) ∧ (p.w 3 = 0x52455354) :=
  ⟨upS, pkt 5 0 1 0 0 0x52455354, by decide⟩

set_option maxRecDepth 100000 in
theorem witness_reset_engine :
    ∃ (s : State) (p : Packet) (a : Eng), (ready ⟨0x0241, [5], .action⟩ p s = true) ∧ (p.w 0 = 2) ∧ (p.w 3 = 0x52455354) ∧ (fin? 4 (p.w 1).toNat = some a) ∧ (s.enginePresent a = true) ∧ (s.engineFailed a = false) ∧ (s.rst.act[a].state = .loaded) :=
  ⟨loadedS, pkt 5 0 2 0 0 0x52455354, 0, by
    refine ⟨?_, ?_, ?_, ?_, ?_, ?_, ?_⟩
    · decide
    · decide
    · decide
    · first | rfl | decide
    · decide
    · decide
    · decide⟩

set_option maxRecDepth 100000 in
theorem witness_reset_configure :
    ∃ (s : State) (p : Packet), (ready ⟨0x0241, [5], .action⟩ p s = true) ∧ (p.w 0 = 3) :=
  ⟨upS, pkt 5 0 3 0x000A0000, by decide⟩

set_option maxRecDepth 100000 in
theorem witness_actuator_load :
    ∃ (s : State) (p : Packet), (ready ⟨0x0242, [4], .action⟩ p s = true) ∧ (s.rst.act[p.eng].reloadAfter = false) ∧ (s.rst.act[p.eng].state = .unloaded) :=
  ⟨upS, pkt 4 0 1 0x64640F20, by decide⟩

set_option maxRecDepth 100000 in
theorem witness_actuator_unload :
    ∃ (s : State) (p : Packet), (ready ⟨0x0243, [4], .action⟩ p s = true) ∧ (s.rst.act[p.eng].state = .loaded) :=
  ⟨loadedS, pkt 4 0, by decide⟩

set_option maxRecDepth 100000 in
theorem witness_actuator_unload_idle :
    ∃ (s : State) (p : Packet), (ready ⟨0x0243, [4], .action⟩ p s = true) ∧ (s.rst.act[p.eng].state = .unloaded) ∧ (s.rst.act[p.eng].loadReq = false) :=
  ⟨upS, pkt 4 0, by decide⟩

/-! Clauses of `Obligations.AngleTimeline`. -/

set_option maxRecDepth 100000 in
theorem witness_comparator_arm :
    ∃ (s : State) (a : Eng) (c : CmpIx) (ctl : Word), (s.enginePresent a = true) :=
  ⟨upS, 0, 8, 0xC0000000, by decide⟩

set_option maxRecDepth 100000 in
theorem witness_comparator_fire :
    ∃ (s : State) (a : Eng) (h : LHead) (g : Head) (d : FireData), (s.enginePresent a = true) ∧ (s.eng[a].reel.state = .locked) ∧ (s.eng[a].reel.cmp[(⟨48 + h.val, by omega⟩ : CmpIx)].armed = true) ∧ (s.eng[a].reel.cmp[(⟨48 + h.val, by omega⟩ : CmpIx)].headMask.getLsbD h.val = true) ∧ (s.eng[a].reel.cmp[(⟨48 + h.val, by omega⟩ : CmpIx)].armedAt ≠ some s.mtime) ∧ (reached (s.angle a) (s.fireTarget a ⟨48 + h.val, by omega⟩) = true) ∧ (s.globalHead a h.val = some g) ∧ (s.head[g].wr.writeReady = true) :=
  ⟨preS, 0, 0, 0, { fields := [] }, by
    refine ⟨?_, ?_, ?_, ?_, ?_, ?_, ?_, ?_⟩ <;> first | decide | rfl⟩

set_option maxRecDepth 100000 in
theorem witness_comparator_fire_late :
    ∃ (s : State) (a : Eng) (d : FireData), (s.enginePresent a = true) ∧ (s.eng[a].reel.state = .locked) ∧ (s.eng[a].reel.cmp[(63 : CmpIx)].armed = true) ∧ (s.eng[a].reel.cmp[(63 : CmpIx)].armedAt ≠ some s.mtime) ∧ (reached (s.angle a) (s.fireTarget a 63) = true) ∧ (s.eng[a].reel.cmp[(63 : CmpIx)].repeat_ = 0) ∧ (s.eng[a].reel.lateTol.toNat < s.fireLateness a 63) ∧ (s.eng[a].reel.markerTrace = false) :=
  ⟨markS, 0, { fields := [] }, by decide⟩

set_option maxRecDepth 100000 in
theorem witness_servo_mark_accept :
    ∃ (s : State) (a : Eng) (m : MarkInfo) (g : Head) (i : Fin 720), (s.enginePresent a = true) ∧ (s.globalHead a m.head.val = some g) ∧ (s.head[g].map.depop = false) ∧ (s.head[g].srv.lost = false) ∧ (s.eng[a].reel.state = .locked) ∧ (s.eng[a].reel.slipFix = .none) ∧ (65536 - s.eng[a].reel.markWin.toNat ≤ s.eng[a].reel.stamp.frac) ∧ (markIndex m = some i) ∧ (i.val = (s.eng[a].reel.stamp.rev * 720 + s.eng[a].reel.stamp.wedge + 1) % 720) :=
  ⟨{ upS with eng := vset upS.eng 0 { upS.eng[0] with reel := { upS.eng[0].reel with state := .locked, stamp := ⟨3, 5, 65535⟩ } } }, 0,
    { head := 0, means := #v[0, 1, 0, 1, 0, 1, 0, 1, 0, 1, 0, 1, 0, 1, 1, 0, 1, 0, 0, 1, 0, 1] }, 0, 6, by
    refine ⟨?_, ?_, ?_, ?_, ?_, ?_, ?_, ?_, ?_⟩ <;> first | decide | rfl⟩

set_option maxRecDepth 100000 in
theorem witness_mark_hold_expiry :
    ∃ (s : State) (a : Eng), (s.enginePresent a = true) ∧ (s.eng[a].reel.state = .locked ∨ s.eng[a].reel.state = .flywheel) ∧ (s.eng[a].reel.hold = some 0) :=
  ⟨{ upS with eng := vset upS.eng 0 { upS.eng[0] with reel := { upS.eng[0].reel with state := .locked, stamp := ⟨3, 5, 65535⟩, hold := some 0 } } }, 0, by
    refine ⟨?_, ?_, ?_⟩
    · decide
    · decide
    · first | rfl | decide⟩

set_option maxRecDepth 100000 in
theorem witness_reel_status :
    ∃ (s : State) (p : Packet), (ready ⟨0x0120, [4], .read⟩ p s = true) :=
  ⟨upS, pkt 4 0, by decide⟩

set_option maxRecDepth 100000 in
theorem witness_reel_marker :
    ∃ (s : State) (p : Packet), (ready ⟨0x0121, [4], .action⟩ p s = true) ∧ (fld (p.w 0) 31 16 ≤ 719) ∧ ((p.w 1).toNat ≤ 65535) :=
  ⟨upS, pkt 4 1 0x00050007 3 1, by decide⟩

set_option maxRecDepth 100000 in
theorem witness_reel_config :
    ∃ (s : State) (p : Packet), (ready ⟨0x0122, [4], .config⟩ p s = true) :=
  ⟨upS, pkt 4 1 0x200 0xFFFF, by decide⟩

set_option maxRecDepth 100000 in
theorem witness_reel_clear :
    ∃ (s : State) (p : Packet), (ready ⟨0x0123, [4], .action⟩ p s = true) :=
  ⟨upS, pkt 4 1 0x3F, by decide⟩

/-! Clauses of `Obligations.RegistersAndCores`. -/

set_option maxRecDepth 100000 in
theorem witness_lockstep_mismatch :
    ∃ (s : State) (a : Eng), (s.enginePresent a = true) ∧ (s.eng[a].core.mismatches = []) :=
  ⟨upS, 0, by decide⟩

set_option maxRecDepth 100000 in
theorem witness_lockstep_mismatch_third :
    ∃ (s : State) (a : Eng) (m1 m2 : Nat), (s.enginePresent a = true) ∧ (s.eng[a].core.mismatches = [m1, m2]) ∧ (s.rst.poh < m1 + 1024) ∧ (s.rst.poh < m2 + 1024) :=
  ⟨misS, 0, 5, 6, by decide⟩

set_option maxRecDepth 100000 in
theorem witness_register_write :
    ∃ (s : State) (f : Fn) (addr : BitVec 24) (v : Word) (r : Reg), (s.host.fns[f].present = true) ∧ (findReg s addr.toNat = some r) ∧ (r.kind = .rw) :=
  ⟨hostS, 0, 0x100024, 5, ⟨0x100024, .rw, rAngCfg hostS.eng[(0 : Eng)].reel⟩, ⟨by decide, by decide +kernel, by decide⟩⟩

set_option maxRecDepth 100000 in
theorem witness_register_write_core :
    ∃ (s : State) (a : Eng) (v : Word), (s.enginePresent a = true) :=
  ⟨upS, 1, 0x1234, by decide⟩

set_option maxRecDepth 100000 in
theorem witness_invalid_register_access :
    ∃ (s : State) (f : Fn) (acc : Bar2Access), (s.host.fns[f].present = true) ∧ (acc.addr.toNat % 4 ≠ 0) ∧ (acc.write = false) :=
  ⟨hostS, 0, { addr := 1, words := 1, full := true, write := false }, by decide⟩

set_option maxRecDepth 100000 in
theorem witness_snapshot_write :
    ∃ (s : State) (addr : BitVec 24) (r : Reg), (findReg s addr.toNat = some r) ∧ (r.kind = .wo) :=
  ⟨upS, 0x600008, ⟨0x600008, .wo, 0⟩, by
    refine ⟨?_, ?_⟩
    · first | rfl | decide
    · decide⟩

/-! Clauses of `Obligations.ArmLinkFrames`. -/

set_option maxRecDepth 100000 in
theorem witness_arm_ack_receive :
    ∃ (s : State) (a : Eng) (l : LinkIx) (seq : BitVec 8), (s.eng[a].links[l].state = .up) ∧ (s.eng[a].links[l].frame = none) ∧ (s.eng[a].links[l].cfg = none) ∧ (s.eng[a].links[l].last = none) ∧ (seq = s.eng[a].links[l].seq) :=
  ⟨linkedS, 0, 0, 0, by decide⟩

set_option maxRecDepth 100000 in
theorem witness_arm_ack_receive_set_point :
    ∃ (s : State) (a : Eng) (l : LinkIx) (seq : BitVec 8) (f : Frame), (s.eng[a].links[l].state = .up) ∧ (s.eng[a].links[l].frame = some f) ∧ (f.seq = seq) :=
  ⟨sentS, 0, 0, 7, { seq := 7, body := .setPoint 3 (Vector.replicate 6 {}) (Vector.replicate 2 none), attempts := 1 }, by
    refine ⟨?_, ?_, ?_⟩
    · decide
    · first | rfl | decide
    · decide⟩

set_option maxRecDepth 100000 in
theorem witness_arm_ack_receive_late :
    ∃ (s : State) (a : Eng) (l : LinkIx) (f : Frame) (w : Nat) (h : Vector HeadBlock 6) (x : Vector (Option AuxSlot) 2), (s.eng[a].links[l].state = .up) ∧ (s.eng[a].links[l].frame = none) ∧ (s.eng[a].links[l].cfg = none) ∧ (s.eng[a].links[l].last = some f) ∧ (f.body = .setPoint w h x) :=
  ⟨lateS, 0, 0, { seq := 7, body := .setPoint 3 (Vector.replicate 6 {}) (Vector.replicate 2 none), attempts := 4 }, 3, Vector.replicate 6 {}, Vector.replicate 2 none, by
    refine ⟨?_, ?_, ?_, ?_, ?_⟩ <;> first | decide | rfl⟩

set_option maxRecDepth 100000 in
theorem witness_arm_nak_receive :
    ∃ (s : State) (a : Eng) (l : LinkIx) (seq : BitVec 8) (f : Frame), (s.eng[a].links[l].state = .up) ∧ (s.eng[a].links[l].frame = some f) ∧ (f.seq = seq) ∧ (f.attempts < 4) :=
  ⟨sentS, 0, 0, 7, { seq := 7, body := .setPoint 3 (Vector.replicate 6 {}) (Vector.replicate 2 none), attempts := 1 }, by
    refine ⟨?_, ?_, ?_, ?_⟩
    · decide
    · first | rfl | decide
    · decide
    · decide⟩

set_option maxRecDepth 100000 in
theorem witness_arm_ack_timeout :
    ∃ (s : State) (a : Eng) (l : LinkIx) (f : Frame), (s.eng[a].links[l].frame = some f) ∧ (f.attempts < 4) :=
  ⟨sentS, 0, 0, { seq := 7, body := .setPoint 3 (Vector.replicate 6 {}) (Vector.replicate 2 none), attempts := 1 }, by
    refine ⟨?_, ?_⟩
    · first | rfl | decide
    · decide⟩

set_option maxRecDepth 100000 in
theorem witness_arm_status_frame :
    ∃ (s : State) (a : Eng) (l : LinkIx) (fr : StatusFrame), (s.eng[a].links[l].state = .up) ∧ (statusOk fr = true) :=
  ⟨linkedS, 0, 0, frS, by decide +kernel⟩

set_option maxRecDepth 100000 in
theorem witness_afe_fault_strobe :
    ∃ (s : State) (a : Eng) (l : LinkIx) (mask : BitVec 6), (s.eng[a].links[l].state = .up ∨ s.eng[a].links[l].state = .training) :=
  ⟨linkedS, 0, 0, 1, by decide⟩

set_option maxRecDepth 100000 in
theorem witness_config_frame_send :
    ∃ (s : State) (a : Eng) (l : LinkIx) (c : CfgFrame), (s.eng[a].links[l].state = .up) ∧ (s.eng[a].links[l].frame = none) ∧ (s.eng[a].links[l].cfg = none) ∧ (s.eng[a].links[l].launchDue = false) ∧ (s.eng[a].links[l].tx = []) ∧ (s.eng[a].links[l].cfgQueue = []) :=
  ⟨linkedS, 0, 0, ⟨true, 7, 0x30, 1⟩, by decide⟩

set_option maxRecDepth 100000 in
theorem witness_arm_config_reply :
    ∃ (s : State) (a : Eng) (l : LinkIx) (r : ConfigReply) (crc : BitVec 16), (s.eng[a].links[l].state = .up ∨ s.eng[a].links[l].state = .training) ∧ (replyOk r crc = true) :=
  ⟨linkedS, 0, 0, replyS, BitVec.ofNat 16 (crc16 (replyBytes replyS)), by decide +kernel⟩

set_option maxRecDepth 100000 in
theorem witness_arm_link_down :
    ∃ (s : State) (a : Eng) (l : LinkIx), (s.eng[a].links[l].state = .up) :=
  ⟨linkedS, 0, 0, by decide⟩

set_option maxRecDepth 100000 in
theorem witness_arm_link_down_training :
    ∃ (s : State) (a : Eng) (l : LinkIx), (s.eng[a].links[l].state = .training) ∧ (s.eng[a].links[l].trainAtt + 1 < 8) :=
  ⟨trainS, 0, 0, by decide⟩

set_option maxRecDepth 100000 in
theorem witness_arm_train_attempt :
    ∃ (s : State) (a : Eng) (l : LinkIx), (s.linkPresent a l = true) ∧ (s.eng[a].links[l].state = .down) :=
  ⟨upS, 0, 0, by decide⟩

set_option maxRecDepth 100000 in
theorem witness_arm_train_timeout :
    ∃ (s : State) (a : Eng) (l : LinkIx), (s.eng[a].links[l].state = .training) ∧ (s.eng[a].links[l].trainAtt + 1 < 8) :=
  ⟨trainS, 0, 0, by decide⟩

set_option maxRecDepth 100000 in
theorem witness_afe_comma_alignment :
    ∃ (s : State) (a : Eng) (l : LinkIx), (s.eng[a].links[l].state = .training) ∧ (s.eng[a].links[l].phase = .commas) :=
  ⟨trainS, 0, 0, by decide⟩

/-! Clauses of `Obligations.ArmAndSlicePackets`. -/

set_option maxRecDepth 100000 in
theorem witness_arm_status :
    ∃ (s : State) (p : Packet), (ready ⟨0x0130, [4], .read⟩ p s = true) :=
  ⟨upS, pkt 4 0, by decide⟩

set_option maxRecDepth 100000 in
theorem witness_arm_clear :
    ∃ (s : State) (p : Packet), (ready ⟨0x0131, [4], .action⟩ p s = true) :=
  ⟨upS, pkt 4 1 1 0xFF, by decide⟩

set_option maxRecDepth 100000 in
theorem witness_arm_config :
    ∃ (s : State) (p : Packet), (ready ⟨0x0132, [4], .config⟩ p s = true) ∧ (s.eng[p.eng].links[p.link].state = .down) :=
  ⟨upS, pkt 4 1 1 50 30 9, by decide⟩

set_option maxRecDepth 100000 in
theorem witness_arm_retrain :
    ∃ (s : State) (p : Packet), (ready ⟨0x0133, [4], .action⟩ p s = true) ∧ (s.eng[p.eng].links[p.link].state = .failed) :=
  ⟨failedS, pkt 4 0, by decide⟩

set_option maxRecDepth 100000 in
theorem witness_arm_retrain_up :
    ∃ (s : State) (p : Packet), (ready ⟨0x0133, [4], .action⟩ p s = true) ∧ (s.eng[p.eng].links[p.link].state = .up) :=
  ⟨linkedS, pkt 4 0, by decide⟩

set_option maxRecDepth 100000 in
theorem witness_slice_config :
    ∃ (s : State) (p : Packet), (ready ⟨0x0140, [3], .config⟩ p s = true) :=
  ⟨upS, pkt 3 2 0x100 1 2 3, by decide⟩

set_option maxRecDepth 100000 in
theorem witness_slice_status :
    ∃ (s : State) (p : Packet), (ready ⟨0x0141, [3], .read⟩ p s = true) :=
  ⟨upS, pkt 3 2 1, by decide⟩

set_option maxRecDepth 100000 in
theorem witness_slice_clear :
    ∃ (s : State) (p : Packet), (ready ⟨0x0142, [3], .action⟩ p s = true) :=
  ⟨upS, pkt 3 2 1 0x1FF, by decide⟩

set_option maxRecDepth 100000 in
theorem witness_slice_restart :
    ∃ (s : State) (p : Packet), (ready ⟨0x0143, [3], .action⟩ p s = true) ∧ (s.head[p.hd].map.depop = false) ∧ (s.slice[p.slice].state = .failed) :=
  ⟨failS, pkt 3 1 1, by decide⟩

/-! Clauses of `Obligations.SliceEvents`. -/

set_option maxRecDepth 100000 in
theorem witness_slice_enable :
    ∃ (s : State) (n : SliceIx), (s.slice[n].state = .off) ∧ (s.headPresent (sliceHead n) = true) ∧ (s.head[sliceHead n].map.depop = false) :=
  ⟨upS, 3, by decide⟩

set_option maxRecDepth 100000 in
theorem witness_slice_stream_start :
    ∃ (s : State) (n : SliceIx) (level epoch : Nat), (s.slice[n].state = .wake ∨ s.slice[n].state = .fault) ∧ (s.slice[n].wake = none) ∧ (fld s.head[sliceHead n].rd[sliceReader n].fifo 4 0 ≤ level) ∧ (level ≤ 32) :=
  ⟨wakeS, 3, 32, 1, by decide⟩

set_option maxRecDepth 100000 in
theorem witness_slice_underrun :
    ∃ (s : State) (n : SliceIx), (s.slice[n].state.streaming = true) :=
  ⟨idleS, 3, by decide⟩

set_option maxRecDepth 100000 in
theorem witness_slice_late_word_discard :
    ∃ (s : State) (n : SliceIx) (wseq : BitVec 2), (s.slice[n].missing.contains wseq = true) ∧ (s.slice[n].fifo.head?.map (·.wseq) = some wseq) :=
  ⟨onSlice idleS 3 fun x => { x with missing := [2], fifo := [⟨2, 5⟩] }, 3, 2, by decide⟩

set_option maxRecDepth 100000 in
theorem witness_slice_late_word_discard_other :
    ∃ (s : State) (n : SliceIx) (wseq : BitVec 2), (s.slice[n].missing.contains wseq = false) :=
  ⟨idleS, 3, 2, by decide⟩

set_option maxRecDepth 100000 in
theorem witness_slice_fifo_timeout :
    ∃ (s : State) (n : SliceIx), (s.slice[n].state = .idle ∨ s.slice[n].state = .wake) ∧ (s.slice[n].packet = false) ∧ (s.slice[n].faultRun < 2) :=
  ⟨idleS, 3, by decide⟩

set_option maxRecDepth 100000 in
theorem witness_slice_overrun :
    ∃ (s : State) (n : SliceIx), (s.slice[n].state.streaming = true) :=
  ⟨idleS, 3, by decide⟩

set_option maxRecDepth 100000 in
theorem witness_drop_command :
    ∃ (s : State) (n : SliceIx), (s.slice[n].state = .acq) ∧ (s.slice[n].packet = true) :=
  ⟨acqS, 3, by decide⟩

set_option maxRecDepth 100000 in
theorem witness_zero_phase_start :
    ∃ (s : State) (g : Head) (r : Fin 2) (n : SliceIx), (n = sliceOf g r) ∧ (s.slice[n].state = .acq) ∧ (s.slice[n].packet = true) ∧ (s.slice[n].bits = 16) ∧ (s.slice[n].zeroDone = false) :=
  ⟨onSlice acqS 3 fun x => { x with bits := 16 }, 1, 1, 3, by decide⟩

set_option maxRecDepth 100000 in
theorem witness_slice_acq_to_track :
    ∃ (s : State) (g : Head) (r : Fin 2) (n : SliceIx), (n = sliceOf g r) ∧ (s.slice[n].state = .acq) ∧ (s.slice[n].packet = true) ∧ (s.slice[n].bits = 8 * fld s.head[g].rd[r].tl 7 4) :=
  ⟨acqS2, 1, 1, 3, by decide⟩

set_option maxRecDepth 100000 in
theorem witness_band_load :
    ∃ (s : State) (g : Head) (track : BitVec 22), (s.headPresent g = true) ∧ (s.head[g].map.depop = false) ∧ (s.packetOpen g = true) ∧ ((s.bandOf g track.toNat).val ≠ s.head[g].map.band) :=
  ⟨openS, 1, 1, by decide⟩

set_option maxRecDepth 100000 in
theorem witness_band_load_load :
    ∃ (s : State) (g : Head) (track : BitVec 22), (s.headPresent g = true) ∧ (s.head[g].map.depop = false) ∧ (s.packetOpen g = false) ∧ ((s.bandOf g track.toNat).val ≠ s.head[g].map.band) :=
  ⟨bandS, 1, 1, by decide⟩

/-! Clauses of `Obligations.LaneCommands`. -/

set_option maxRecDepth 100000 in
theorem witness_sync_decision :
    ∃ (s : State) (g : Head) (l : LaneIx) (k : SlotIx), (s.laneOf g = some l) ∧ (s.lane[l].streaming = some k) ∧ (s.lane[l].slots[k].syncDue = true) ∧ ((bestCandidate (syncDistance s.lane[l].slots[k])).2 ≤ 6) :=
  ⟨boundTo syncS, 3, 0, 0, by decide +kernel⟩

set_option maxRecDepth 100000 in
theorem witness_sync_decision_fly :
    ∃ (s : State) (g : Head) (l : LaneIx) (k : SlotIx), (s.laneOf g = some l) ∧ (s.lane[l].streaming = some k) ∧ (s.lane[l].slots[k].syncDue = true) ∧ (6 < (bestCandidate (syncDistance s.lane[l].slots[k])).2) :=
  ⟨boundTo (onSlot upS 0 0 fun c => { c with state := .stream, dec := List.replicate 240 false }), 3, 0, 0, by decide +kernel⟩

set_option maxRecDepth 100000 in
theorem witness_first_pass_done :
    ∃ (s : State) (l : LaneIx) (k : SlotIx), (s.lane[l].slots[k].state = .stream) ∧ (s.lane[l].slots[k].ended = true) :=
  ⟨endedS, 0, 0, by decide⟩

set_option maxRecDepth 100000 in
theorem witness_iteration_detector_pass_done :
    ∃ (s : State) (l : LaneIx) (k : SlotIx), (s.lane[l].passDue = some k) :=
  ⟨decodeS, 0, 0, by decide⟩

set_option maxRecDepth 100000 in
theorem witness_local_iteration_end :
    ∃ (s : State) (e : DecIx) (l : LaneIx) (k : SlotIx), (s.decoding e = some (.inl (l, k))) ∧ (s.lane[l].slots[k].state = .decode) ∧ (s.lane[l].slots[k].passed = true) ∧ (s.lane[l].slots[k].checking = false) ∧ (s.lane[l].slots[k].reclaim = none) ∧ ((s.lane[l].slots[k].layersTo 41).unsat = 0) :=
  ⟨onSlot iterS 0 0 fun c => { c with layer := 41 }, 0, 0, 0, by decide, by decide, by decide, by decide, by decide, unsat_nothing⟩

set_option maxRecDepth 100000 in
theorem witness_codeword_check_done :
    ∃ (s : State) (e : DecIx) (l : LaneIx) (k : SlotIx), (s.decoding e = some (.inl (l, k))) ∧ (s.lane[l].slots[k].state = .decode) ∧ (s.lane[l].slots[k].checking = true) ∧ (s.lane[l].slots[k].reclaim = none) :=
  ⟨checkS, 0, 0, 0, by
    refine ⟨?_, ?_, ?_, ?_⟩ <;> first | decide | rfl⟩

set_option maxRecDepth 100000 in
theorem witness_staging_accept :
    ∃ (s : State) (l : LaneIx) (k : SlotIx) (x : CtxIx), (s.lane[l].slots[k].state = .done) ∧ (s.lane[l].slots[k].outcome = some .converged) ∧ (s.q.staging < stagingUnits) ∧ (s.lane[l].slots[k].job = none) ∧ (s.lane[l].slots[k].void = false) ∧ (s.lane[l].slots[k].discard = false) ∧ (s.lane[l].slots[k].ctx = some x) :=
  ⟨doneS, 0, 0, 5, by
    refine ⟨?_, ?_, ?_, ?_, ?_, ?_, ?_⟩ <;> first | decide | rfl⟩

set_option maxRecDepth 100000 in
theorem witness_det_config :
    ∃ (s : State) (p : Packet), (ready ⟨0x0150, [3], .config⟩ p s = true) ∧ (s.head[p.hd].map.depop = false) :=
  ⟨upS, pkt 3 2 0x100 0x44190000 2 3, by decide⟩

set_option maxRecDepth 100000 in
theorem witness_det_taps :
    ∃ (s : State) (p : Packet), (ready ⟨0x0151, [3], .config⟩ p s = true) ∧ (s.head[p.hd].map.depop = false) :=
  ⟨upS, pkt 3 2 0x100 5, by decide⟩

set_option maxRecDepth 100000 in
theorem witness_det_np :
    ∃ (s : State) (p : Packet), (ready ⟨0x0152, [3], .config⟩ p s = true) ∧ (s.head[p.hd].map.depop = false) :=
  ⟨upS, pkt 3 2 3 5 6, by decide⟩

set_option maxRecDepth 100000 in
theorem witness_det_status :
    ∃ (s : State) (p : Packet), (ready ⟨0x0153, [3], .read⟩ p s = true) :=
  ⟨upS, pkt 3 2, by decide⟩

set_option maxRecDepth 100000 in
theorem witness_det_clear :
    ∃ (s : State) (p : Packet) (l : LaneIx), (ready ⟨0x0154, [3], .action⟩ p s = true) ∧ (s.laneOf p.hd = some l) :=
  ⟨boundS, pkt 3 2 0xFFF, 2, by
    refine ⟨?_, ?_⟩
    · decide
    · first | rfl | decide⟩

/-! Clauses of `Obligations.PoolAndLadder`. -/

set_option maxRecDepth 100000 in
theorem witness_decoder_request :
    ∃ (s : State) (r : ReqIx) (l : LaneIx) (k : SlotIx) (c : Fin 5) (u : Fin 4) (e : DecIx), (reqLane r = some l) ∧ (s.lane[l].slots[k].state = .wait) ∧ (s.lane[l].bind.head.isSome = true) ∧ (s.pool.reqs[r].pending = []) ∧ (s.idleEngine r false = some e) :=
  ⟨waitS, 2, 2, 0, 4, 0, 0, by
    refine ⟨?_, ?_, ?_, ?_, ?_⟩ <;> first | decide | rfl⟩

set_option maxRecDepth 100000 in
theorem witness_decoder_arbitration :
    ∃ (s : State) (e : DecIx) (r : ReqIx) (q : PoolReq), (s.pool.engines[e].state = .held) ∧ (s.pool.engines[e].next = none) ∧ (s.bestRequest (deepEngine e) = some (r, q)) :=
  ⟨arbS, 0, 2, { at_ := 0, cls := 4, deep := false, for_ := .slot 0 }, by
    refine ⟨?_, ?_, ?_⟩ <;> first | decide | rfl⟩

set_option maxRecDepth 100000 in
theorem witness_decoder_arbitration_reserved :
    ∃ (s : State) (e : DecIx), (s.pool.engines[e].state = .held) ∧ (s.pool.engines[e].next.isSome = true) :=
  ⟨onPool heldS fun p => { p with engines := vmod p.engines 0 fun x => { x with next := some (2, { at_ := 0, cls := 4, deep := false, for_ := .slot 0 }) } }, 0, by decide⟩

set_option maxRecDepth 100000 in
theorem witness_decoder_arbitration_none :
    ∃ (s : State) (e : DecIx), (s.pool.engines[e].state = .held) ∧ (s.bestRequest (deepEngine e) = none) :=
  ⟨heldS, 0, by decide⟩

set_option maxRecDepth 100000 in
theorem witness_decoder_engine_fail :
    ∃ (s : State) (e : DecIx), (s.pool.engines[e].state ≠ .failed) :=
  ⟨upS, 3, by decide⟩

set_option maxRecDepth 100000 in
theorem witness_recovery_job_open :
    ∃ (s : State) (l : LaneIx) (k : SlotIx) (c : Slot) (j : JobIx), (s.failedRecord l k = some (c, false)) ∧ (c.void = false) ∧ (c.job = none) ∧ (c.ctx = none) ∧ (s.jobAt (s.laneEngine l) c.at_ = none) ∧ ((fins 16).find? (fun (i : JobIx) => s.eng[s.laneEngine l].recv.jobs[i].isNone) = some j) ∧ (s.eng[s.laneEngine l].recv.open_ < fld s.eng[s.laneEngine l].recv.cfg 9 5) ∧ (s.q.staging + 40 ≤ stagingUnits) :=
  ⟨cutS, 0, 0, { outcome := some .noConv }, 0, by
    refine ⟨?_, ?_, ?_, ?_, ?_, ?_, ?_, ?_⟩ <;> first | decide | rfl⟩

set_option maxRecDepth 100000 in
theorem witness_retained_stream_copy_done :
    ∃ (s : State) (a : Eng) (j : JobIx) (x : RecJob), (s.eng[a].recv.jobs[j] = some x) ∧ (x.wait = .copy) ∧ (s.eng[a].reel.state ≠ .stopped) :=
  ⟨jobS .copy 1, 0, 0, job0 .copy 1, by
    refine ⟨?_, ?_, ?_⟩
    · first | rfl | decide
    · decide
    · decide⟩

set_option maxRecDepth 100000 in
theorem witness_ladder_try :
    ∃ (s : State) (a : Eng) (j : JobIx) (x : RecJob), (s.eng[a].recv.jobs[j] = some x) ∧ (x.wait = .ready) ∧ ((s.eng[a].reel.stamp.rev + 2 ^ 32 - x.revOpen) % 2 ^ 32 < fld x.cfg 31 24) ∧ (x.step = 2) ∧ (x.offs = []) ∧ (x.possible s.eng[a].recv (s.jobMargin a x) = true) :=
  ⟨jobS .ready 2, 0, 0, job0 .ready 2, by
    refine ⟨?_, ?_, ?_, ?_, ?_, ?_⟩ <;> first | decide | rfl⟩

set_option maxRecDepth 100000 in
theorem witness_capture_complete :
    ∃ (s : State) (a : Eng) (j : JobIx) (x : RecJob), (s.eng[a].recv.jobs[j] = some x) ∧ (x.wait = .capturing) ∧ (x.step = 7) ∧ (x.deepEng.isSome = true) ∧ ((x.under s.eng[a].recv).avgRevs ≤ x.capsHeld.length + 1) :=
  ⟨capS, 0, 0, capJob, by
    refine ⟨?_, ?_, ?_, ?_, ?_⟩ <;> first | decide | rfl⟩

set_option maxRecDepth 100000 in
theorem witness_deep_decode_done :
    ∃ (s : State) (e : DecIx) (a : Eng) (j : JobIx) (x : RecJob), (s.eng[a].recv.jobs[j] = some x) ∧ (x.wait = .decoding) ∧ (x.deepEng = some e) ∧ (x.step = 6) :=
  ⟨withJob (lockedAt upS 0) { job0 .decoding 6 with deepEng := some 36 }, 36, 0, 0, { job0 .decoding 6 with deepEng := some 36 }, by
    refine ⟨?_, ?_, ?_, ?_⟩ <;> first | decide | rfl⟩

set_option maxRecDepth 100000 in
theorem witness_guard_timer_expiry :
    ∃ (s : State) (a : Eng) (j : JobIx) (x : RecJob) (d : Bool) (g : Angle), (s.eng[a].recv.jobs[j] = some x) ∧ (x.waitsFor = some d) ∧ (x.timer = some g) ∧ (reached (s.angle a) g = true) :=
  ⟨timS, 0, 0, { job0 .capture 6 with timer := some 0 }, false, 0, by
    refine ⟨?_, ?_, ?_, ?_⟩
    · first | rfl | decide
    · first | rfl | decide
    · first | rfl | decide
    · decide⟩

set_option maxRecDepth 100000 in
theorem witness_reallocate :
    ∃ (s : State) (a : Eng) (x : Realloc) (f n : Fin 8) (h : LHead) (dest : SectorAt), (s.eng[a].recv.reallocs.find? (fun y => !y.placed) = some x) ∧ (s.regionOf a x.orig.track = some f) ∧ (s.spareBand a x.orig.head f = some (h, n)) ∧ (s.spareSector a h n s.eng[a].recv.spareNext[h][n] = some dest) ∧ (x.suspect = false) :=
  ⟨reaS, 0, { orig := { track := 5 }, dest := {}, zone := 0, info := 0, suspect := false }, 0, 0, 0, { track := 96 }, by
    refine ⟨?_, ?_, ?_, ?_, ?_⟩
    · first | rfl | decide
    · first | rfl | decide
    · first | rfl | decide
    · first | rfl | decide
    · decide⟩

set_option maxRecDepth 100000 in
theorem witness_remap_activate :
    ∃ (s : State) (a : Eng) (n : Nat) (x : Realloc), ((s.eng[a].recv.reallocs.filter (·.placed))[n]? = some x) :=
  ⟨actS, 0, 0, { orig := { track := 5 }, dest := {}, zone := 0, info := 0, suspect := false, placed := true }, by
    skip
    · first | rfl | decide⟩

/-! Clauses of `Obligations.PoolAndRecoveryPackets`. -/

set_option maxRecDepth 100000 in
theorem witness_pool_status :
    ∃ (s : State) (p : Packet), (ready ⟨0x0160, [5], .read⟩ p s = true) :=
  ⟨upS, pkt 5 0, by decide⟩

set_option maxRecDepth 100000 in
theorem witness_pool_config :
    ∃ (s : State) (p : Packet), (ready ⟨0x0161, [5], .config⟩ p s = true) :=
  ⟨upS, pkt 5 0 0x12345678 9, by decide⟩

set_option maxRecDepth 100000 in
theorem witness_pool_engine :
    ∃ (s : State) (p : Packet), (ready ⟨0x0162, [5], .read⟩ p s = true) ∧ ((p.w 0).toNat < 40) :=
  ⟨upS, pkt 5 0 7, by decide⟩

set_option maxRecDepth 100000 in
theorem witness_pool_requester :
    ∃ (s : State) (p : Packet), (ready ⟨0x0163, [5], .read⟩ p s = true) :=
  ⟨upS, pkt 5 0 7, by decide⟩

set_option maxRecDepth 100000 in
theorem witness_pool_clear :
    ∃ (s : State) (p : Packet), (ready ⟨0x0164, [5], .action⟩ p s = true) :=
  ⟨upS, pkt 5 0 0x3F 7 3, by decide⟩

set_option maxRecDepth 100000 in
theorem witness_rec_config :
    ∃ (s : State) (p : Packet), (ready ⟨0x0165, [4], .config⟩ p s = true) :=
  ⟨upS, pkt 4 1 0xFFFFFFFF 0, by decide⟩

set_option maxRecDepth 100000 in
theorem witness_rec_status :
    ∃ (s : State) (p : Packet), (ready ⟨0x0166, [4], .read⟩ p s = true) :=
  ⟨upS, pkt 4 0, by decide⟩

set_option maxRecDepth 100000 in
theorem witness_rec_clear :
    ∃ (s : State) (p : Packet), (ready ⟨0x0167, [4], .action⟩ p s = true) :=
  ⟨upS, pkt 4 1 0x3FF, by decide⟩

/-! Clauses of `Obligations.WritePath`. -/

set_option maxRecDepth 100000 in
theorem witness_write_encode :
    ∃ (s : State) (x : CtxIx) (k : Nat) (v : WriteView) (b : BlockState) (z : ZoneNo) (d : ZoneDesc) (p : SectorAt), ((s.viewsOf x).find? (fun v => (v.blocks[k]?.map fun b => b.here && b.codeword.isNone && !b.durable) == some true) = some v) ∧ (v.blocks[k]? = some b) ∧ (b.failed = none) ∧ (s.viewSector v k = some (z, d, p)) ∧ (s.q.staging < stagingUnits) :=
  ⟨encS, 5, 0, wb.view, { here := true }, 0, gd, {}, ⟨by rfl, by rfl, by rfl, enc_view, by decide⟩⟩

set_option maxRecDepth 100000 in
theorem witness_writer_slot_request :
    ∃ (s : State) (g : Head) (preBias : AngleStamp), (s.headPresent g = true) ∧ (s.head[g].map.depop = false) ∧ (s.head[g].wr.wrDis = false) ∧ (s.runStaged g = true) ∧ (s.wsl.pending.any (fun p => p.1 == g) = false) :=
  ⟨oldW, 0, ⟨3, 4, 5⟩, by decide +kernel⟩

set_option maxRecDepth 100000 in
theorem witness_mems_sample :
    ∃ (s : State) (m : MemsSample), (s.mems.frozen = false) ∧ (s.mems.last ≠ axes m) ∧ (s.mems.last ≠ []) :=
  ⟨{ upS with mems := { upS.mems with last := [0, 0, 0, 0, 0] } }, ⟨1, 2, 3, 4, 5⟩, by decide⟩

set_option maxRecDepth 100000 in
theorem witness_mems_sample_timeout :
    ∃ (s : State), (s.mems.frozen = false) :=
  ⟨upS, by decide⟩

set_option maxRecDepth 100000 in
theorem witness_suspect_rewrite :
    ∃ (s : State) (g : Head) (f : Suspect), (s.head[g].wr.suspects.find? (fun x => x.written.isNone && decide (x.tries < s.eng[s.engineOf g].wrg.tries)) = some f) ∧ (s.head[g].wr.run.isSome = true) ∧ (s.head[g].wr.slot.isSome = true) ∧ (s.head[g].wr.wrDis = false) ∧ (s.head[g].map.depop = false) :=
  ⟨suspS, 0, { at_ := { track := 5 }, ctx := none, block := 0 }, by
    refine ⟨?_, ?_, ?_, ?_, ?_⟩
    · first | rfl | decide
    · decide
    · decide
    · decide
    · decide⟩

set_option maxRecDepth 100000 in
theorem witness_suspect_spare_write :
    ∃ (s : State) (g : Head) (a : Eng) (h : LHead) (x : Suspect) (v : WriteView) (k : Nat) (b : BlockState) (z : ZoneNo) (r : Fin 8) (y : LHead × Fin 8), (s.localHead g = some (a, h)) ∧ (s.head[g].wr.suspects.find? (fun x => x.written.isNone && (decide (s.eng[a].wrg.tries ≤ x.tries) || s.head[g].wr.wrDis || s.head[g].map.depop)) = some x) ∧ (s.regionOf a x.at_.track = some r) ∧ (s.spareBand a h r = some y) ∧ (s.blockAt a x.at_ = some (v, k)) ∧ (v.blocks[k]? = some b) ∧ (v.zone = some z) :=
  ⟨encS, 0, 0, 0, { at_ := {}, ctx := none, block := 0, tries := 99 }, wb.view, 0, { here := true }, 0, 0, (0, 0), ⟨by decide, by decide, by decide, by decide, enc_block, by rfl, by rfl⟩⟩

set_option maxRecDepth 100000 in
theorem witness_suspect_spare_write_fail :
    ∃ (s : State) (g : Head) (a : Eng) (h : LHead) (x : Suspect), (s.localHead g = some (a, h)) ∧ (s.head[g].wr.suspects.find? (fun x => x.written.isNone && (decide (s.eng[a].wrg.tries ≤ x.tries) || s.head[g].wr.wrDis || s.head[g].map.depop)) = some x) ∧ ((s.regionOf a x.at_.track).bind (fun r => s.spareBand a h r) = none) :=
  ⟨faultS, 0, 0, 0, { at_ := { track := 5 }, ctx := none, block := 0, tries := 99 }, by
    refine ⟨?_, ?_, ?_⟩
    · first | rfl | decide
    · first | rfl | decide
    · decide⟩

set_option maxRecDepth 100000 in
theorem witness_wrt_config :
    ∃ (s : State) (p : Packet), (ready ⟨0x0170, [3], .config⟩ p s = true) ∧ (s.head[p.hd].map.depop = false) :=
  ⟨upS, pkt 3 2 0x100 1 2 3, by decide⟩

set_option maxRecDepth 100000 in
theorem witness_wrt_head :
    ∃ (s : State) (p : Packet), (ready ⟨0x0171, [3], .config⟩ p s = true) ∧ (s.head[p.hd].map.depop = false) :=
  ⟨upS, pkt 3 2 0 0x00400020 0 1, by decide⟩

set_option maxRecDepth 100000 in
theorem witness_wrt_head_enable :
    ∃ (s : State) (p : Packet), (ready ⟨0x0171, [3], .config⟩ p s = true) ∧ (s.head[p.hd].map.depop = false) ∧
      ((s.head[p.hd].wr.wrDis && (p.w 3).getLsbD 0) = true) :=
  ⟨onHead upS 2 fun h => { h with wr := { h.wr with wrDis := true } }, pkt 3 2 0 0x00400020 0 1, by decide⟩

set_option maxRecDepth 100000 in
theorem witness_wrt_guard :
    ∃ (s : State) (p : Packet), (ready ⟨0x0172, [4], .config⟩ p s = true) :=
  ⟨upS, pkt 4 1 0x08101010 5, by decide⟩

set_option maxRecDepth 100000 in
theorem witness_wrt_status :
    ∃ (s : State) (p : Packet), (ready ⟨0x0173, [4], .read⟩ p s = true) :=
  ⟨upS, pkt 4 1 2, by decide⟩

set_option maxRecDepth 100000 in
theorem witness_wrt_clear :
    ∃ (s : State) (p : Packet) (g : Head), (ready ⟨0x0174, [4], .action⟩ p s = true) ∧ (s.globalHead p.eng (p.lhWord 0).toNat = some g) :=
  ⟨upS, pkt 4 0 2 0xFF, 2, by
    refine ⟨?_, ?_⟩
    · decide
    · first | rfl | decide⟩

set_option maxRecDepth 100000 in
theorem witness_wrt_slots :
    ∃ (s : State) (p : Packet), (ready ⟨0x0175, [5], .config⟩ p s = true) :=
  ⟨upS, pkt 5 0 5, by decide⟩

/-! Clauses of `Obligations.ServoCommands`. -/

set_option maxRecDepth 100000 in
theorem witness_seek_request :
    ∃ (s : State) (a : Eng) (h : LHead) (tgt : BitVec 30) (g : Head), (s.globalHead a h.val = some g) ∧ (s.eng[a].srv.mode = .minuet) ∧ (s.head[g].map.depop = false) ∧ (s.pwr.eng[a].seekDraw ≠ 0) ∧ (s.pwr.late = none) :=
  ⟨trackS, 0, 1, 77, 1, by
    refine ⟨?_, ?_, ?_, ?_, ?_⟩ <;> first | decide | rfl⟩

set_option maxRecDepth 100000 in
theorem witness_srv_status :
    ∃ (s : State) (p : Packet), (ready ⟨0x0180, [4], .read⟩ p s = true) :=
  ⟨upS, pkt 4 1, by decide⟩

set_option maxRecDepth 100000 in
theorem witness_srv_config :
    ∃ (s : State) (p : Packet), (ready ⟨0x0181, [4], .config⟩ p s = true) :=
  ⟨upS, pkt 4 1 0x40301005 7 9, by decide⟩

set_option maxRecDepth 100000 in
theorem witness_srv_quadrille :
    ∃ (s : State) (p : Packet), (ready ⟨0x0182, [4], .config⟩ p s = true) :=
  ⟨upS, pkt 4 1 1 2 3 4 5, by decide⟩

set_option maxRecDepth 100000 in
theorem witness_srv_notch :
    ∃ (s : State) (p : Packet), (ready ⟨0x0183, [3, 4], .config⟩ p s = true) ∧ (p.lvl = 4) :=
  ⟨upS, pkt 4 1 0x10002010, by decide⟩

set_option maxRecDepth 100000 in
theorem witness_srv_notch_head :
    ∃ (s : State) (p : Packet), (ready ⟨0x0183, [3, 4], .config⟩ p s = true) ∧ (p.lvl = 3) ∧ (s.head[p.hd].map.depop = false) :=
  ⟨upS, pkt 3 1 0x10002010, by decide⟩

set_option maxRecDepth 100000 in
theorem witness_srv_head :
    ∃ (s : State) (p : Packet), (ready ⟨0x0184, [3], .config⟩ p s = true) ∧ (s.head[p.hd].map.depop = false) :=
  ⟨upS, pkt 3 1 1 2 3 4, by decide⟩

set_option maxRecDepth 100000 in
theorem witness_srv_hstatus :
    ∃ (s : State) (p : Packet), (ready ⟨0x0185, [3], .read⟩ p s = true) :=
  ⟨upS, pkt 3 1, by decide⟩

set_option maxRecDepth 100000 in
theorem witness_srv_clear :
    ∃ (s : State) (p : Packet) (g : Head), (ready ⟨0x0186, [4], .action⟩ p s = true) ∧ (s.globalHead p.eng (clampWord [fIn 3 0 0 11] 0 (p.w 1)).toNat = some g) :=
  ⟨upS, pkt 4 0 0x3F 2 0x7F, 2, by
    refine ⟨?_, ?_⟩
    · decide
    · first | rfl | decide⟩

/-! Clauses of `Obligations.LoopEngines`. -/

set_option maxRecDepth 100000 in
theorem witness_loop_compute_start :
    ∃ (s : State) (n : PipeIx) (k : LoopIx) (x : LoopSample) (l : List LoopSample), (s.lpe.pipes[n] = none) ∧ (s.nextCompute = some k) ∧ (s.lpe.slots[k].latched = x :: l) ∧ (s.lpe.slots[k].swapPend = false) ∧ (s.lpe.slots[k].bad = none) :=
  ⟨readyS, 3, 77, smp0, [], by
    refine ⟨?_, ?_, ?_, ?_, ?_⟩
    · decide
    · first | rfl | decide
    · decide
    · decide
    · decide⟩

set_option maxRecDepth 100000 in
theorem witness_loop_compute_done :
    ∃ (s : State) (n : PipeIx) (k : LoopIx) (x : LoopSample) (l : List LoopSample), (s.lpe.pipes[n] = some k) ∧ (s.lpe.slots[k].latched = x :: l) ∧ (s.lpe.slots[k].slow = true → s.lateness k x.due ≠ 0) :=
  ⟨compS, 2, 77, smp0, [], by
    refine ⟨?_, ?_, ?_⟩ <;> first | decide | rfl⟩

set_option maxRecDepth 100000 in
theorem witness_loop_output_release :
    ∃ (s : State) (a : Eng) (u : Int) (e : Nat), (s.lpe.slots[vcmSlot a].pendingOut = some (u, e)) ∧ (reached (s.angle a) e = true) :=
  ⟨outS, 1, 32768000, 0, by
    refine ⟨?_, ?_⟩
    · first | rfl | decide
    · decide⟩

set_option maxRecDepth 100000 in
theorem witness_loop_output_release_clock :
    ∃ (s : State) (n : LoopIx) (u : Int) (e : Nat), (s.loopEngine n = none) ∧ (s.lpe.slots[n].pendingOut = some (u, e)) ∧ (e ≤ s.mtime) :=
  ⟨outT, 80, 32768000, 0, by
    refine ⟨?_, ?_, ?_⟩
    · decide
    · first | rfl | decide
    · decide⟩

set_option maxRecDepth 100000 in
theorem witness_trace_timeout :
    ∃ (s : State), (s.trc.state = .triggered) :=
  ⟨trigS, by decide⟩

set_option maxRecDepth 100000 in
theorem witness_trace_copy_done :
    ∃ (s : State), (s.trc.state = .done) ∧ (s.trc.captures.head?.map (·.2.1) ≠ some s.trc.trigAt) :=
  ⟨doneT, by decide⟩

/-! Clauses of `Obligations.LoopAndTracePackets`. -/

set_option maxRecDepth 100000 in
theorem witness_loop_status :
    ∃ (s : State) (p : Packet), (ready ⟨0x0190, [6], .read⟩ p s = true) ∧ (s.loopRefused p.slot = none) :=
  ⟨upS, pkt 6 77, by decide⟩

set_option maxRecDepth 100000 in
theorem witness_loop_coef :
    ∃ (s : State) (p : Packet), (ready ⟨0x0191, [6], .config⟩ p s = true) ∧ (s.loopRefused p.slot = none) ∧ ((coefIndices p).any (fun i => decide (20 ≤ coefFirst p + i ∧ coefFirst p + i < 40)) = false) ∧ ((coefWord0 p).getLsbD 31 = false) :=
  ⟨upS, pkt 6 77 0 1 2 3 4, by decide⟩

set_option maxRecDepth 100000 in
theorem witness_loop_bank_swap :
    ∃ (s : State) (p : Packet), (ready ⟨0x0192, [6], .action⟩ p s = true) ∧ (s.loopRefused p.slot = none) ∧ (s.lpe.slots[p.slot].en = true) :=
  ⟨enS, pkt 6 77, by decide⟩

set_option maxRecDepth 100000 in
theorem witness_loop_config :
    ∃ (s : State) (p : Packet), (ready ⟨0x0193, [6], .config⟩ p s = true) ∧ (s.loopRefused p.slot = none) :=
  ⟨upS, pkt 6 77 0x0530, by decide⟩

set_option maxRecDepth 100000 in
theorem witness_loop_clear :
    ∃ (s : State) (p : Packet), (ready ⟨0x0194, [6], .action⟩ p s = true) ∧ (s.loopRefused p.slot = none) :=
  ⟨upS, pkt 6 77 0x1F, by decide⟩

set_option maxRecDepth 100000 in
theorem witness_trace_config :
    ∃ (s : State) (p : Packet), (ready ⟨0x01A0, [5], .config⟩ p s = true) ∧ (s.trc.state ≠ .armed) ∧ (s.trc.state ≠ .triggered) :=
  ⟨upS, pkt 5 0 0x01000000 0x84D00000, by decide⟩

set_option maxRecDepth 100000 in
theorem witness_trace_arm :
    ∃ (s : State) (p : Packet), (ready ⟨0x01A1, [5], .action⟩ p s = true) :=
  ⟨upS, pkt 5 0 7 0x1234, by decide⟩

set_option maxRecDepth 100000 in
theorem witness_trace_trigger :
    ∃ (s : State) (p : Packet), (ready ⟨0x01A2, [5], .action⟩ p s = true) ∧ (s.trc.tPkt = false) :=
  ⟨{ upS with trc := { upS.trc with tPkt := false } }, pkt 5 0, by decide⟩

set_option maxRecDepth 100000 in
theorem witness_trace_trigger_armed :
    ∃ (s : State) (p : Packet), (ready ⟨0x01A2, [5], .action⟩ p s = true) ∧ (s.trc.tPkt = true) ∧ (s.trc.state = .armed) :=
  ⟨{ upS with trc := { upS.trc with state := .armed } }, pkt 5 0, by decide⟩

set_option maxRecDepth 100000 in
theorem witness_trace_status :
    ∃ (s : State) (p : Packet), (ready ⟨0x01A3, [5], .read⟩ p s = true) :=
  ⟨upS, pkt 5 0, by decide⟩

/-! Clauses of `Obligations.SpindleStarting`. -/

set_option maxRecDepth 100000 in
theorem witness_zero_crossing :
    ∃ (s : State) (x : Crossing), (s.spn.state = .run) ∧ (x.reverse = false) ∧ (s.spn.accepts (s.mtime - x.ago) = true) :=
  ⟨spnS .run, ⟨0, false⟩, by decide⟩

set_option maxRecDepth 100000 in
theorem witness_zero_crossing_predict :
    ∃ (s : State) (x : Crossing), (s.spn.state = .predict) ∧ (x.reverse = false) ∧ (s.spn.accepts (s.mtime - x.ago) = true) ∧ (1 ≤ s.spn.goodRun) :=
  ⟨onSpn (spnS .predict) (fun p => { p with goodRun := 1 }), ⟨0, false⟩, by decide⟩

set_option maxRecDepth 100000 in
theorem witness_commutation :
    ∃ (s : State) (window : Nat) (demagDone : Bool), (s.spn.state = .run) ∧ (s.spn.commDue ≤ s.mtime) ∧ (s.spn.got.isSome = true) :=
  ⟨onSpn (spnS .run) (fun p => { p with got := some 5 }), 5000, true, by decide⟩

set_option maxRecDepth 100000 in
theorem witness_commutation_skip :
    ∃ (s : State) (window : Nat) (demagDone : Bool), (s.spn.state = .run) ∧ (s.spn.commDue ≤ s.mtime) ∧ (s.spn.got = none) ∧ (s.spn.makeWindow = false) ∧ (window < 4500) :=
  ⟨spnS .run, 4000, true, by decide⟩

set_option maxRecDepth 100000 in
theorem witness_crossing_missed :
    ∃ (s : State), (s.spn.state = .run) ∧ (s.spn.missDue s.mtime = true) :=
  ⟨{ spnS .run with mtime := 1 }, by decide⟩

set_option maxRecDepth 100000 in
theorem witness_rotor_lock_loss :
    ∃ (s : State), (s.spn.state = .predict) ∧ (36 ≤ s.spn.predSteps) :=
  ⟨onSpn (spnS .predict) (fun p => { p with predSteps := 36 }), by decide⟩

set_option maxRecDepth 100000 in
theorem witness_coast_timeout :
    ∃ (s : State), (s.spn.state = .coast) :=
  ⟨spnS .coast, by decide⟩

set_option maxRecDepth 100000 in
theorem witness_detect_timeout :
    ∃ (s : State) (r : Rotation), (s.spn.state = .detect) ∧ (s.spn.stopping = false) ∧ (r.crossings < 3) :=
  ⟨spnS .detect, ⟨2, false, 0⟩, by decide⟩

set_option maxRecDepth 100000 in
theorem witness_detect_timeout_catch :
    ∃ (s : State) (r : Rotation), (s.spn.state = .detect) ∧ (s.spn.stopping = false) ∧ (3 ≤ r.crossings) ∧ (r.reverse = false) ∧ (3600 < r.rpm) :=
  ⟨spnS .detect, ⟨12, false, 7000⟩, by decide⟩

set_option maxRecDepth 100000 in
theorem witness_brake_short_end :
    ∃ (s : State), (s.spn.state = .brake) ∧ (s.spn.brakePhase = .short) :=
  ⟨onSpn (spnS .brake) fun p => { p with brakePhase := .short }, by decide⟩

set_option maxRecDepth 100000 in
theorem witness_brake_observe_end :
    ∃ (s : State) (n : Nat), (s.spn.state = .brake) ∧ (s.spn.brakePhase = .observe) :=
  ⟨onSpn (spnS .brake) (fun p => { p with brakePhase := .observe }), 5, by decide⟩

set_option maxRecDepth 100000 in
theorem witness_brake_observe_end_still :
    ∃ (s : State) (n : Nat), (s.spn.state = .brake) ∧ (s.spn.brakePhase = .extended) ∧ (n < 3) ∧ (s.spn.afterBrake = .start) :=
  ⟨onSpn (spnS .brake) (fun p => { p with brakePhase := .extended, afterBrake := .start }), 1, by decide⟩

set_option maxRecDepth 100000 in
theorem witness_brake_settle_end :
    ∃ (s : State), (s.spn.state = .brake) ∧ (s.spn.brakePhase = .settle) :=
  ⟨onSpn (spnS .brake) fun p => { p with brakePhase := .settle }, by decide⟩

set_option maxRecDepth 100000 in
theorem witness_align_end :
    ∃ (s : State), (s.spn.state = .align) :=
  ⟨spnS .align, by decide⟩

set_option maxRecDepth 100000 in
theorem witness_open_loop_step :
    ∃ (s : State), (s.spn.state = .open_) ∧ (({ s.spn with openSteps := s.spn.openSteps + 1 } : Spindle).openRate < 600) :=
  ⟨spnS .open_, by decide⟩

set_option maxRecDepth 100000 in
theorem witness_start_attempt_timeout :
    ∃ (s : State), (s.spn.state = .open_) ∧ (s.spn.tries + 1 < fld s.spn.start 7 4) :=
  ⟨spnS .open_, by decide⟩

set_option maxRecDepth 100000 in
theorem witness_start_attempt_timeout_last :
    ∃ (s : State), (s.spn.state = .open_) ∧ (fld s.spn.start 7 4 ≤ s.spn.tries + 1) :=
  ⟨onSpn (spnS .open_) fun p => { p with tries := 2 }, by decide⟩

/-! Clauses of `Obligations.SpindleRunning`. -/

set_option maxRecDepth 100000 in
theorem witness_spindle_sample :
    ∃ (s : State), (s.spn.state = .run) ∧ (6 ≤ s.spn.commCount) ∧ (s.spn.brkStop = false) ∧ (4 * s.spn.polePairs ≤ (s.spn.cross.filterMap id).length) :=
  ⟨onSpn (spnS .run) fun p => { p with commCount := 6, cross := List.replicate 12 (some 1000000) }, by decide⟩

set_option maxRecDepth 100000 in
theorem witness_nref_update :
    ∃ (s : State), (s.spn.state = .run) ∧ (s.eng[s.refEngine].reel.state ≠ .stopped) ∧ (s.spn.stopping = false) ∧ (s.spn.swapWait = true) :=
  ⟨onSpn runB fun p => { p with swapWait := true }, by decide⟩

set_option maxRecDepth 100000 in
theorem witness_nref_update_idle :
    ∃ (s : State), (s.spn.state ≠ .run) :=
  ⟨upS, by decide⟩

set_option maxRecDepth 100000 in
theorem witness_chopper_switch :
    ∃ (s : State) (mv : Nat), (mv ≤ 16000) :=
  ⟨upS, 13200, by decide⟩

set_option maxRecDepth 100000 in
theorem witness_chopper_bucket_threshold :
    ∃ (s : State), (s.spn.chopHot = false) :=
  ⟨upS, by decide⟩

set_option maxRecDepth 100000 in
theorem witness_chopper_fault :
    ∃ (s : State) (ma : Nat), (s.spn.chopFault = false) ∧ (s.spn.shuntBad ma = true) :=
  ⟨onSpn upS (fun p => { p with chopOn := true, vbus := 13500 }), 10, by decide⟩

set_option maxRecDepth 100000 in
theorem witness_rail_overvoltage :
    ∃ (s : State) (mv : Nat), (mv ≤ 16000) :=
  ⟨upS, 14400, by decide⟩

/-! Clauses of `Obligations.SpindlePackets`. -/

set_option maxRecDepth 100000 in
theorem witness_spindle_status :
    ∃ (s : State) (p : Packet), (ready ⟨0x01B0, [5], .read⟩ p s = true) :=
  ⟨upS, pkt 5 0, by decide⟩

set_option maxRecDepth 100000 in
theorem witness_spindle_target :
    ∃ (s : State) (p : Packet), (ready ⟨0x01B1, [5], .config⟩ p s = true) :=
  ⟨upS, pkt 5 0 7000 1, by decide⟩

set_option maxRecDepth 100000 in
theorem witness_spindle_bolero :
    ∃ (s : State) (p : Packet), (ready ⟨0x01B2, [5], .config⟩ p s = true) :=
  ⟨upS, pkt 5 0 0x25801000 0x19064044 0x01000200 0x00200040, by decide⟩

set_option maxRecDepth 100000 in
theorem witness_spindle_config :
    ∃ (s : State) (p : Packet), (ready ⟨0x01B3, [5], .config⟩ p s = true) :=
  ⟨upS, pkt 5 0 0x23046400 0x19146430 0x00640028, by decide⟩

set_option maxRecDepth 100000 in
theorem witness_spindle_run_stop :
    ∃ (s : State) (p : Packet), (ready ⟨0x01B4, [5], .action⟩ p s = true) ∧ ((p.w 0).getLsbD 0 = false) ∧ ((fins 4).all (fun (a : Eng) => s.rst.act[a].state == .unloaded) = true) ∧ (s.spn.state = .run) :=
  ⟨spnS .run, pkt 5 0 0, by decide⟩

set_option maxRecDepth 100000 in
theorem witness_spindle_run_start :
    ∃ (s : State) (p : Packet), (ready ⟨0x01B4, [5], .action⟩ p s = true) ∧ ((p.w 0).getLsbD 0 = true) ∧ (s.spn.state = .stopped) :=
  ⟨upS, pkt 5 0 1, by decide⟩

set_option maxRecDepth 100000 in
theorem witness_spindle_chopper_test :
    ∃ (s : State) (p : Packet), (ready ⟨0x01B5, [5], .action⟩ p s = true) ∧ (s.spn.brkMode = .none) ∧ (s.spn.vbus < 13000) ∧ (s.spn.chopFault = false) :=
  ⟨upS, pkt 5 0, by decide⟩

set_option maxRecDepth 100000 in
theorem witness_spindle_clear :
    ∃ (s : State) (p : Packet), (ready ⟨0x01B6, [5], .action⟩ p s = true) :=
  ⟨upS, pkt 5 0 0x1FFF, by decide⟩

/-! Clauses of `Obligations.PowerAndThermal`. -/

set_option maxRecDepth 100000 in
theorem witness_thermal_sample :
    ∃ (s : State) (l : List Int), ((fins 8).all (fun (z : Fin 8) => decide ((l[z.val]?).getD 0 < 1680)) = true) ∧ ((fins 8).all (fun (i : Fin 8) => !(s.throttle l i).2.2) = true) :=
  ⟨upS, [400, 410, 420, 430, 440, 450, 460, 470, 480, 490], by decide⟩

set_option maxRecDepth 100000 in
theorem witness_thermal_sample_hot :
    ∃ (s : State) (l : List Int), ((fins 8).any (fun (z : Fin 8) => decide (1680 ≤ (l[z.val]?).getD 0)) = true) :=
  ⟨upS, [1690], by decide⟩

set_option maxRecDepth 100000 in
theorem witness_bolero_evaluation :
    ∃ (s : State), (s.spn.state = .run) ∧ (s.spn.set.bolEn = true) ∧ (s.anyLocked = true) ∧ (2 * s.pwr.revRefused ≤ s.pwr.revEpochs) :=
  ⟨runB, by decide⟩

set_option maxRecDepth 100000 in
theorem witness_bolero_evaluation_off :
    ∃ (s : State), (s.spn.set.bolEn = false) :=
  ⟨onSpn upS fun p => { p with set := { p.set with bolEn := false } }, by decide⟩

set_option maxRecDepth 100000 in
theorem witness_est_ofs_update :
    ∃ (s : State), (64 ≤ s.pwr.sumN) ∧ (102 * s.pwr.ceilNow < 100 * (s.pwr.sumMeas / 64) → s.pwr.overSet = true) :=
  ⟨onPwr upS fun p => { p with sumN := 64, sumMeas := 64000, sumEst := 32000 }, ⟨by decide, by decide⟩⟩

set_option maxRecDepth 100000 in
theorem witness_est_ofs_update_over :
    ∃ (s : State), (64 ≤ s.pwr.sumN) ∧ (102 * s.pwr.ceilNow < 100 * (s.pwr.sumMeas / 64)) ∧ (s.pwr.overSet = false) :=
  ⟨onPwr upS fun p => { p with sumN := 64, sumMeas := 64000000, sumEst := 32000 }, by decide⟩

theorem witness_power_epoch :
    ∃ (s : State) (e : EpochIn), (s.epochBegins = true) :=
  ⟨{ upS with pwr := { upS.pwr with epochDue := true } }, { p12 := 0, p3 := 0, ready := true }, by decide⟩

set_option maxRecDepth 100000 in
theorem witness_power_epoch_late :
    ∃ (s : State) (e : EpochIn) (l : List PowerReq), (s.epochBegins = false) ∧ (s.pwr.late = some l) ∧ (e.ready = true) :=
  ⟨onPwr upS fun p => { p with late := some [] }, { p12 := 0, p3 := 0, ready := true }, [], by decide⟩

set_option maxRecDepth 100000 in
theorem witness_invalid_register_access_valid_read :
    ∃ (s : State) (f : Fn) (acc : Bar2Access) (r : Reg), (s.host.fns[f].present = true) ∧ (acc.addr.toNat % 4 = 0) ∧ (acc.words = 1) ∧ (acc.full = true) ∧ (acc.write = false) ∧ (findReg s acc.addr.toNat = some r) :=
  ⟨{ upS with host := { upS.host with fns := vmod upS.host.fns 0 fun x => { x with present := true } } }, 0, ⟨false, 0, 1, true⟩, (findReg upS 0).getD ⟨0, .ro, 0⟩, by
    refine ⟨?_, ?_, ?_, ?_, ?_, ?_⟩ <;> first | decide | rfl⟩

set_option maxRecDepth 100000 in
theorem witness_island_clock_change :
    ∃ (s : State) (a : Eng), (s.enginePresent a = true) ∧ (s.pwr.eng[a].k ≠ s.pwr.eng[a].kWant) ∧ (s.eng[a].seq.jobPend = 0) :=
  ⟨onPwr upS fun p => { p with eng := vmod p.eng 1 fun e => { e with kWant := 3 } }, 1, by decide⟩

set_option maxRecDepth 100000 in
theorem witness_budget_set :
    ∃ (s : State) (p : Packet), (ready ⟨0x0200, [5], .config⟩ p s = true) :=
  ⟨upS, pkt 5 0 20000 0x14402400 0x14141414 0x00100A06 0x01010101 5000, by decide⟩

set_option maxRecDepth 100000 in
theorem witness_budget_status :
    ∃ (s : State) (p : Packet), (ready ⟨0x0201, [5], .read⟩ p s = true) :=
  ⟨upS, pkt 5 0, by decide⟩

set_option maxRecDepth 100000 in
theorem witness_budget_consumer :
    ∃ (s : State) (p : Packet), (ready ⟨0x0202, [3, 4, 5], .read⟩ p s = true) ∧ (p.lvl = 3) ∧ (s.head[p.hd].map.depop = false) ∧ (p.idx < 24) :=
  ⟨upS, pkt 3 2, by decide⟩

set_option maxRecDepth 100000 in
theorem witness_budget_consumer_engine :
    ∃ (s : State) (p : Packet) (a : Eng), (ready ⟨0x0202, [3, 4, 5], .read⟩ p s = true) ∧ (p.lvl = 4) ∧ (p.idx = a.val) :=
  ⟨upS, pkt 4 1, 1, by decide⟩

set_option maxRecDepth 100000 in
theorem witness_budget_consumer_module :
    ∃ (s : State) (p : Packet), (ready ⟨0x0202, [3, 4, 5], .read⟩ p s = true) ∧ (p.lvl = 5) :=
  ⟨upS, pkt 5 0, by decide⟩

set_option maxRecDepth 100000 in
theorem witness_budget_clear :
    ∃ (s : State) (p : Packet) (g : Head), (ready ⟨0x0203, [5], .action⟩ p s = true) ∧ ((p.w 1).toNat = g.val) ∧ (g.val < s.layout.total) :=
  ⟨upS, pkt 5 0 0xFF 3, 3, by decide⟩

/-! Clauses of `Obligations.SequencerControl`. -/

set_option maxRecDepth 100000 in
theorem witness_fragment_enqueue :
    ∃ (s : State) (a : Eng) (e : BitVec 128) (f : Fragment), (s.enginePresent a = true) ∧ (fragmentOf e = some f) ∧ (s.eng[a].seq.fq.length < 512) :=
  ⟨upS, 0, 0x00000003000500070090001180000000, { start := ⟨3, 5, 7⟩, len := 0x90, hmask := 1, write := false, first := true }, by
    refine ⟨?_, ?_, ?_⟩
    · decide
    · first | rfl | decide
    · decide⟩

set_option maxRecDepth 100000 in
theorem witness_inc :
    ∃ (s : State) (a : Eng), (s.seqReady a = true) ∧ (s.eng[a].seq.waitDone = false) ∧ (s.eng[a].seq.fetchCheck = none) ∧ (mfld s.eng[a].seq.current 127 125 = 0) ∧ (mfld s.eng[a].seq.current 104 101 = 0) ∧ (mfld s.eng[a].seq.current 94 92 = 0) ∧ (mfld s.eng[a].seq.current 76 65 = 0) :=
  ⟨wordS (mw 0 0 0 0), 0, by decide⟩

set_option maxRecDepth 100000 in
theorem witness_br :
    ∃ (s : State) (a : Eng), (s.seqReady a = true) ∧ (s.eng[a].seq.waitDone = false) ∧ (s.eng[a].seq.fetchCheck = none) ∧ (mfld s.eng[a].seq.current 127 125 = 1) ∧ (mfld s.eng[a].seq.current 104 101 = 0) ∧ (mfld s.eng[a].seq.current 94 92 = 0) ∧ (mfld s.eng[a].seq.current 76 65 = 0) :=
  ⟨wordS (mw 1 0 0 77), 0, by decide⟩

set_option maxRecDepth 100000 in
theorem witness_loop :
    ∃ (s : State) (a : Eng), (s.seqReady a = true) ∧ (s.eng[a].seq.waitDone = false) ∧ (s.eng[a].seq.fetchCheck = none) ∧ (mfld s.eng[a].seq.current 127 125 = 2) ∧ (mfld s.eng[a].seq.current 104 101 = 0) ∧ (mfld s.eng[a].seq.current 94 92 = 0) ∧ (mfld s.eng[a].seq.current 76 65 = 0) :=
  ⟨wordS (mw 2 0 0 77), 0, by decide⟩

set_option maxRecDepth 100000 in
theorem witness_call :
    ∃ (s : State) (a : Eng), (s.seqReady a = true) ∧ (s.eng[a].seq.waitDone = false) ∧ (s.eng[a].seq.fetchCheck = none) ∧ (mfld s.eng[a].seq.current 127 125 = 3) ∧ (mfld s.eng[a].seq.current 104 101 = 0) ∧ (mfld s.eng[a].seq.current 94 92 = 0) ∧ (mfld s.eng[a].seq.current 76 65 = 0) ∧ (s.eng[a].seq.regs.stack.length < 4) :=
  ⟨wordS (mw 3 0 0 77), 0, by decide⟩

set_option maxRecDepth 100000 in
theorem witness_ret :
    ∃ (s : State) (a : Eng) (r : Nat) (l : List Nat), (s.seqReady a = true) ∧ (s.eng[a].seq.waitDone = false) ∧ (s.eng[a].seq.fetchCheck = none) ∧ (mfld s.eng[a].seq.current 127 125 = 4) ∧ (mfld s.eng[a].seq.current 104 101 = 0) ∧ (mfld s.eng[a].seq.current 94 92 = 0) ∧ (mfld s.eng[a].seq.current 76 65 = 0) ∧ (s.eng[a].seq.regs.stack = r :: l) :=
  ⟨onSeq (wordS (mw 4 0 0 0)) (fun q => q.modRegs fun b => { b with stack := [5, 6] }), 0, 5, [6], by decide⟩

set_option maxRecDepth 100000 in
theorem witness_wait :
    ∃ (s : State) (a : Eng), (s.seqReady a = true) ∧ (s.eng[a].seq.waitDone = false) ∧ (s.eng[a].seq.fetchCheck = none) ∧ (mfld s.eng[a].seq.current 127 125 = 5) ∧ (mfld s.eng[a].seq.current 104 101 = 0) ∧ (mfld s.eng[a].seq.current 94 92 = 0) ∧ (mfld s.eng[a].seq.current 76 65 = 0) ∧ (waitsOn s.eng[a].seq.current ≠ some 0) ∧ (microHolds s.eng[a].seq.current (s.seqConds a s.eng[a].seq.current) = false) :=
  ⟨wordS (mw 5 15 0 0), 0, by decide⟩

set_option maxRecDepth 100000 in
theorem witness_wait_at_once :
    ∃ (s : State) (a : Eng), (s.seqReady a = true) ∧ (s.eng[a].seq.waitDone = false) ∧ (s.eng[a].seq.fetchCheck = none) ∧ (mfld s.eng[a].seq.current 127 125 = 5) ∧ (mfld s.eng[a].seq.current 104 101 = 0) ∧ (mfld s.eng[a].seq.current 94 92 = 0) ∧ (mfld s.eng[a].seq.current 76 65 = 0) ∧ (waitsOn s.eng[a].seq.current = none) ∧ (microHolds s.eng[a].seq.current (s.seqConds a s.eng[a].seq.current) = true) :=
  ⟨wordS (mw 5 0 0 0), 0, by decide⟩

set_option maxRecDepth 100000 in
theorem witness_wait_complete :
    ∃ (s : State) (a : Eng) (c : Fin 32), (s.seqReady a = true) ∧ (s.eng[a].seq.waitDone = true) ∧ (waitsOn s.eng[a].seq.current = some c) ∧ (c ≠ 0) ∧ (s.eng[a].seq.tags[c].fired = true) :=
  ⟨onSeq (wordS (mw 5 2 0 0 + 3 * 2 ^ 87)) (fun q => { q with waitDone := true, tags := vmod q.tags 3 fun t => { t with fired := true } }), 0, 3, by
    refine ⟨?_, ?_, ?_, ?_, ?_⟩
    · decide
    · decide
    · first | rfl | decide
    · decide
    · decide⟩

set_option maxRecDepth 100000 in
theorem witness_wait_complete_job :
    ∃ (s : State) (a : Eng), (s.seqReady a = true) ∧ (s.eng[a].seq.waitDone = true) ∧ (waitsOn s.eng[a].seq.current = some 0) ∧ (0 < s.eng[a].seq.jobPend) ∧ (mfld s.eng[a].seq.current 91 87 = 0) :=
  ⟨onSeq (wordS (mw 5 2 0 0)) (fun q => { q with waitDone := true, jobPend := 2 }), 0, by
    refine ⟨?_, ?_, ?_, ?_, ?_⟩
    · decide
    · decide
    · first | rfl | decide
    · decide
    · decide⟩

set_option maxRecDepth 100000 in
theorem witness_rtt :
    ∃ (s : State) (a : Eng), (s.seqReady a = true) ∧ (s.eng[a].seq.waitDone = false) ∧ (s.eng[a].seq.fetchCheck = none) ∧ (mfld s.eng[a].seq.current 127 125 = 6) ∧ (mfld s.eng[a].seq.current 104 101 = 0) ∧ (mfld s.eng[a].seq.current 94 92 = 0) ∧ (mfld s.eng[a].seq.current 76 65 = 0) ∧ (s.eng[a].seq.state = .trap) ∧ (s.eng[a].seq.nextTrap = none) ∧ (s.eng[a].seq.tsv[5].getLsbD 31 = false) :=
  ⟨trapS (mw 6 0 0 0), 0, by decide⟩

/-! Clauses of `Obligations.SequencerData`. -/

set_option maxRecDepth 100000 in
theorem witness_lds :
    ∃ (s : State) (a : Eng) (dst : Fin 8), (s.seqRuns a = true) :=
  ⟨seqS, 0, 1, by decide⟩

set_option maxRecDepth 100000 in
theorem witness_add :
    ∃ (s : State) (a : Eng) (dst src : Fin 8) (imm : Word), (s.seqRuns a = true) :=
  ⟨seqS, 0, 1, 2, 0xFFFF0000, by decide⟩

set_option maxRecDepth 100000 in
theorem witness_ldf :
    ∃ (s : State) (a : Eng) (dst : Fin 8), (s.seqRuns a = true) :=
  ⟨seqS, 0, 1, by decide⟩

set_option maxRecDepth 100000 in
theorem witness_lde :
    ∃ (s : State) (a : Eng) (dst : Fin 8), (s.seqRuns a = true) :=
  ⟨seqS, 0, 1, by decide⟩

set_option maxRecDepth 100000 in
theorem witness_lead :
    ∃ (s : State) (a : Eng) (dst src : Fin 8) (imm : BitVec 16), (s.seqRuns a = true) :=
  ⟨seqS, 0, 1, 2, 0, by decide⟩

set_option maxRecDepth 100000 in
theorem witness_win :
    ∃ (s : State) (a : Eng) (dst src : Fin 8), (s.seqRuns a = true) :=
  ⟨seqS, 0, 1, 2, by decide⟩

set_option maxRecDepth 100000 in
theorem witness_mov :
    ∃ (s : State) (a : Eng) (dst src : Fin 8), (s.seqRuns a = true) :=
  ⟨seqS, 0, 1, 2, by decide⟩

set_option maxRecDepth 100000 in
theorem witness_ldw :
    ∃ (s : State) (a : Eng) (dst : Fin 8), (s.seqRuns a = true) :=
  ⟨seqS, 0, 1, by decide⟩

set_option maxRecDepth 100000 in
theorem witness_pop :
    ∃ (s : State) (a : Eng), (s.seqRuns a = true) :=
  ⟨seqS, 0, by decide⟩

set_option maxRecDepth 100000 in
theorem witness_armed :
    ∃ (s : State) (a : Eng), (s.seqRuns a = true) :=
  ⟨seqS, 0, by decide⟩

set_option maxRecDepth 100000 in
theorem witness_skip :
    ∃ (s : State) (a : Eng), (s.seqRuns a = true) :=
  ⟨seqS, 0, by decide⟩

set_option maxRecDepth 100000 in
theorem witness_note :
    ∃ (s : State) (a : Eng) (imm : BitVec 16), (s.seqRuns a = true) :=
  ⟨seqS, 0, 7, by decide⟩

set_option maxRecDepth 100000 in
theorem witness_clrf :
    ∃ (s : State) (a : Eng) (imm : BitVec 16), (s.seqRuns a = true) :=
  ⟨seqS, 0, 3, by decide⟩

set_option maxRecDepth 100000 in
theorem witness_set :
    ∃ (s : State) (a : Eng) (lc : Fin 4) (imm : BitVec 16), (s.seqRuns a = true) :=
  ⟨seqS, 0, 1, 9, by decide⟩

set_option maxRecDepth 100000 in
theorem witness_dec :
    ∃ (s : State) (a : Eng) (lc : Fin 4), (s.seqRuns a = true) :=
  ⟨seqS, 0, 1, by decide⟩

set_option maxRecDepth 100000 in
theorem witness_fcnt :
    ∃ (s : State) (a : Eng) (lc : Fin 4), (s.seqRuns a = true) :=
  ⟨seqS, 0, 1, by decide⟩

/-! Clauses of `Obligations.SequencerComparators`. -/

set_option maxRecDepth 100000 in
theorem witness_arm :
    ∃ (s : State) (a : Eng) (x : ArmOp), (s.seqRuns a = true) ∧ (x.cact.val ≤ 4) ∧ (((s.eng[a].seq.arm x).refusable && reached (s.angle a) (s.eng[a].seq.a x.careg).linear) = false) :=
  ⟨seqAt, 0, armOp0, by decide⟩

set_option maxRecDepth 100000 in
theorem witness_arm_late :
    ∃ (s : State) (a : Eng) (x : ArmOp), (s.seqRuns a = true) ∧ (x.cact.val = 1) ∧ (reached (s.angle a) (s.eng[a].seq.a x.careg).linear = true) :=
  ⟨lockedAt seqS 0, 0, armOp0, by decide⟩

set_option maxRecDepth 100000 in
theorem witness_armr :
    ∃ (s : State) (a : Eng) (x : ArmOp) (rep : BitVec 16), (s.seqRuns a = true) ∧ (x.cact.val ≤ 4) ∧ (((s.eng[a].seq.arm x).refusable && reached (s.angle a) (s.eng[a].seq.a x.careg).linear) = false) :=
  ⟨seqAt, 0, armOp0, 256, by decide⟩

set_option maxRecDepth 100000 in
theorem witness_armf :
    ∃ (s : State) (a : Eng) (x : ArmOp) (c : Fin 32), (s.seqRuns a = true) ∧ (x.cact.val ≤ 4) ∧ (((s.eng[a].seq.arm x).refusable && reached (s.angle a) (s.eng[a].seq.a x.careg).linear) = false) ∧ (s.freeCmp a = some c) :=
  ⟨seqAt, 0, armOp0, 1, by
    refine ⟨?_, ?_, ?_, ?_⟩
    · decide
    · decide
    · decide
    · first | rfl | decide⟩

set_option maxRecDepth 100000 in
theorem witness_armf_stall :
    ∃ (s : State) (a : Eng) (x : ArmOp), (s.seqRuns a = true) ∧ (x.cact.val ≤ 4) ∧ (s.freeCmp a = none) :=
  ⟨onEng seqS 0 (fun e => { e with reel := { e.reel with cmp := Vector.replicate 64 { armed := true } } }), 0, armOp0, by decide⟩

set_option maxRecDepth 100000 in
theorem witness_armf_stall_end :
    ∃ (s : State) (a : Eng) (x : SeqArm) (c : Fin 32), (s.eng[a].seq.stall = some (x, none)) ∧ (s.freeCmp a = some c) ∧ ((x.refusable && reached (s.angle a) x.target.linear) = false) :=
  ⟨onSeq seqS (fun q => { q with stall := some ({}, none) }), 0, {}, 1, by
    refine ⟨?_, ?_, ?_⟩
    · first | rfl | decide
    · first | rfl | decide
    · decide⟩

set_option maxRecDepth 100000 in
theorem witness_dis :
    ∃ (s : State) (a : Eng) (c : Fin 32), (s.seqRuns a = true) :=
  ⟨seqS, 0, 4, by decide⟩

set_option maxRecDepth 100000 in
theorem witness_dism :
    ∃ (s : State) (a : Eng) (f : Bool) (m : BitVec 12), (s.seqRuns a = true) :=
  ⟨seqS, 0, true, 4, by decide⟩

set_option maxRecDepth 100000 in
theorem witness_drop :
    ∃ (s : State) (a : Eng) (f : Bool) (m : BitVec 12), (s.seqRuns a = true) :=
  ⟨seqS, 0, false, 4, by decide⟩

set_option maxRecDepth 100000 in
theorem witness_core_trap_request :
    ∃ (s : State) (a : Eng), (s.enginePresent a = true) ∧ (s.eng[a].seq.state = .run) :=
  ⟨seqS, 0, by decide⟩

set_option maxRecDepth 100000 in
theorem witness_wait_timeout :
    ∃ (s : State) (a : Eng), (s.seqRuns a = true) ∧ (s.eng[a].seq.state = .run) ∧ (s.eng[a].seq.waitDone = true) ∧ (waitsOn s.eng[a].seq.current ≠ some 0) ∧ ((s.eng[a].seq.waitMax * 65536 : Nat) < angleDiff (s.angle a) s.eng[a].seq.waitSince) :=
  ⟨onEng (onSeq seqS fun q => { q with waitDone := true }) 0 (fun e => { e with reel := { e.reel with stamp := ⟨3, 0, 0⟩ } }), 0, by decide⟩

set_option maxRecDepth 100000 in
theorem witness_trap_entry :
    ∃ (s : State) (a : Eng) (i : Fin 4), (s.enginePresent a = true) ∧ (s.eng[a].seq.state = .run) ∧ (s.eng[a].seq.stall = none) ∧ (s.eng[a].seq.nextTrap = some i) :=
  ⟨onSeq seqS (fun q => { q with trapPend := 0b1010 }), 0, 1, by
    refine ⟨?_, ?_, ?_, ?_⟩
    · decide
    · decide
    · decide
    · first | rfl | decide⟩

set_option maxRecDepth 100000 in
theorem witness_sequencer_restart :
    ∃ (s : State) (a : Eng), (s.enginePresent a = true) ∧ (s.eng[a].seq.state = .mchk) :=
  ⟨mchkS, 0, by decide⟩

set_option maxRecDepth 100000 in
theorem witness_seq_hold_entry :
    ∃ (s : State) (a : Eng), (s.enginePresent a = true) ∧ (s.eng[a].seq.holdReq = true) ∧ (s.eng[a].seq.state = .run) ∧ (s.eng[a].seq.waitDone = true) ∧ (waitsOn s.eng[a].seq.current = some 0) ∧ (s.eng[a].seq.jobPend = 0) ∧ (s.eng[a].seq.trapPend = 0) ∧ (s.holdFits a = true) :=
  ⟨onSeq (wordS (mw 5 2 0 0)) (fun q => { q with waitDone := true, holdReq := true }), 0, by
    refine ⟨?_, ?_, ?_, ?_, ?_, ?_, ?_, ?_⟩
    · decide
    · decide
    · decide
    · decide
    · first | rfl | decide
    · decide
    · decide
    · decide⟩

set_option maxRecDepth 100000 in
theorem witness_seq_hold_resume :
    ∃ (s : State) (a : Eng), (s.enginePresent a = true) ∧ (s.eng[a].seq.state = .hold) ∧ (s.eng[a].seq.holdImage = none) :=
  ⟨onSeq seqS (fun q => { q with state := .hold }), 0, by decide⟩

/-! Clauses of `Obligations.SequencerPackets`. -/

set_option maxRecDepth 100000 in
theorem witness_seq_status :
    ∃ (s : State) (p : Packet), (ready ⟨0x01C0, [4], .read⟩ p s = true) :=
  ⟨upS, pkt 4 1, by decide⟩

set_option maxRecDepth 100000 in
theorem witness_seq_config :
    ∃ (s : State) (p : Packet), (ready ⟨0x01C1, [4], .config⟩ p s = true) :=
  ⟨upS, pkt 4 1 0x80001000 0x10800300, by decide⟩

set_option maxRecDepth 100000 in
theorem witness_seq_trapsave :
    ∃ (s : State) (p : Packet), (ready ⟨0x01C2, [4], .read⟩ p s = true) :=
  ⟨upS, pkt 4 1, by decide⟩

set_option maxRecDepth 100000 in
theorem witness_seq_word :
    ∃ (s : State) (p : Packet), (ready ⟨0x01C3, [4], .read⟩ p s = true) ∧ ((p.w 0).toNat < 8192) :=
  ⟨upS, pkt 4 1 9, by decide⟩

set_option maxRecDepth 100000 in
theorem witness_seq_clear :
    ∃ (s : State) (p : Packet), (ready ⟨0x01C4, [4], .action⟩ p s = true) :=
  ⟨upS, pkt 4 1 0x1F, by decide⟩

/-! Clauses of `Obligations.ZonesAndCache`. -/

set_option maxRecDepth 100000 in
theorem witness_log_group_close :
    ∃ (s : State) (a : Eng) (g : LogGroup), (s.openGroup a = some g) ∧ (s.groupDue a g = true) :=
  ⟨logS, 0, { grp0 with openedAt := angleModulus - 2 * revUnits }, by
    refine ⟨?_, ?_⟩
    · first | rfl | decide
    · decide⟩

set_option maxRecDepth 100000 in
theorem witness_indirection_update :
    ∃ (s : State) (a : Eng) (g : LogGroup), (s.media.groups[a].find? (fun g => g.closed && !g.summary) = some g) ∧ (s.groupSafe a g = true) ∧ (s.media.compacting = Vector.replicate 4 none) :=
  ⟨logC, 0, { grp0 with closed := true }, by
    refine ⟨?_, ?_, ?_⟩
    · first | rfl | decide
    · decide
    · decide⟩

set_option maxRecDepth 100000 in
theorem witness_compaction :
    ∃ (s : State) (a : Eng) (z : ZoneNo) (m : Nat), (s.enginePresent a = true) ∧ (s.engineFailed a = false) ∧ (s.media.compacting[a] = none) ∧ (((s.logZones a).filter fun p => p.2.wp == 0).length < 2) ∧ (((s.logZones a).filter fun p => decide (0 < p.2.wp) && !s.media.groups[a].any fun g => g.zone == p.1 && !g.summary).foldl (fun (b : Option (ZoneNo × Nat)) p => match b with | some (_, m) => if (s.liveIn p.1).length < m then some (p.1, (s.liveIn p.1).length) else b | none => some (p.1, (s.liveIn p.1).length)) none = some (z, m)) ∧ (0 < m) :=
  ⟨cmpS, 0, 0, 1, by
    refine ⟨?_, ?_, ?_, ?_, ?_, ?_⟩
    · decide
    · decide
    · decide
    · decide
    · first | rfl | decide
    · decide⟩

set_option maxRecDepth 100000 in
theorem witness_zdc_access :
    ∃ (s : State) (a : Eng) (z : ZoneNo) (i : Fin 48), (s.enginePresent a = true) ∧ (s.zoneOf a z = true) ∧ (s.eng[a].zdc.invalidating z = false) ∧ (s.eng[a].zdc.missWait = []) ∧ (s.eng[a].zdc.fillOf z = none) ∧ (s.eng[a].zdc.lineOf z = some i) ∧ (s.eng[a].zdc.lines[i].bad = false) :=
  ⟨hitS, 0, 0, 2, by
    refine ⟨?_, ?_, ?_, ?_, ?_, ?_, ?_⟩
    · decide
    · decide
    · decide
    · decide
    · decide
    · first | rfl | decide
    · decide⟩

set_option maxRecDepth 100000 in
theorem witness_zdc_access_miss :
    ∃ (s : State) (a : Eng) (z : ZoneNo) (i : Fin 48), (s.enginePresent a = true) ∧ (s.zoneOf a z = true) ∧ (s.eng[a].zdc.invalidating z = false) ∧ (s.eng[a].zdc.missWait = []) ∧ (s.eng[a].zdc.fillOf z = none) ∧ (s.eng[a].zdc.lineOf z = none) ∧ (s.eng[a].zdc.victimOf z = none) ∧ (s.eng[a].zdc.policy z ≠ .na) ∧ (s.eng[a].zdc.pick = some i) ∧ (s.eng[a].zdc.lines[i].state = .invalid) :=
  ⟨zonS, 0, 0, 0, by
    refine ⟨?_, ?_, ?_, ?_, ?_, ?_, ?_, ?_, ?_, ?_⟩
    · decide
    · decide
    · decide
    · decide
    · decide
    · decide
    · decide
    · decide
    · first | rfl | decide
    · decide⟩

set_option maxRecDepth 100000 in
theorem witness_zdc_fill_done :
    ∃ (s : State) (a : Eng) (z : ZoneNo) (i : Fin 48), (s.eng[a].zdc.fillOf z = some i) ∧ (s.eng[a].zdc.lines[i].waiters = []) ∧ (s.eng[a].zdc.missWait = []) ∧ (s.eng[a].zdc.pinWait = []) ∧ (s.eng[a].zdc.invVictims = []) ∧ (s.eng[a].zdc.lines.toList.all (fun l => !l.flushWait && !l.invWait) = true) :=
  ⟨filS, 0, 0, 2, by
    refine ⟨?_, ?_, ?_, ?_, ?_, ?_⟩
    · first | rfl | decide
    · decide
    · decide
    · decide
    · decide
    · decide⟩

set_option maxRecDepth 100000 in
theorem witness_zdc_writeback_done :
    ∃ (s : State) (a : Eng) (v : Fin 4), (s.eng[a].zdc.victims[v].state = .begun) ∧ (s.eng[a].zdc.missWait = []) ∧ (s.eng[a].zdc.pinWait = []) ∧ (s.eng[a].zdc.invVictims = []) ∧ (s.eng[a].zdc.lines.toList.all (fun l => !l.flushWait && !l.invWait) = true) :=
  ⟨vicS, 0, 1, by decide⟩

set_option maxRecDepth 100000 in
theorem witness_zdc_pin :
    ∃ (s : State) (a : Eng) (z : ZoneNo) (i : Fin 48), (s.enginePresent a = true) ∧ (s.zoneOf a z = true) ∧ (s.eng[a].zdc.lineOf z = some i) ∧ (s.eng[a].zdc.pinWait = []) ∧ (0 < s.eng[a].zdc.lines[i].pins ∨ s.eng[a].zdc.pinned < s.eng[a].zdc.pinMax) :=
  ⟨hitS, 0, 0, 2, by
    refine ⟨?_, ?_, ?_, ?_, ?_⟩
    · decide
    · decide
    · first | rfl | decide
    · decide
    · decide⟩

set_option maxRecDepth 100000 in
theorem witness_head_depopulate :
    ∃ (s : State) (p : Packet), (ready ⟨0x01D9, [3], .action⟩ p s = true) ∧ (p.w 0 = 0x4445504F) ∧ (s.head[p.hd].map.depop = false) :=
  ⟨upS, pkt 3 2 0x4445504F, by decide⟩

set_option maxRecDepth 100000 in
theorem witness_zone_finish_recommended :
    ∃ (s : State) (z : ZoneNo) (x : MTime), (alookup s.host.zoneTimes z = some x) ∧ ((s.zoneDesc z).zs.openOrClosed = true) ∧ ((s.zoneDesc z).zfr = false) ∧ (0 < s.host.zfrl ∧ x + s.host.zfrl * 3600 * 3000000000 ≤ s.mtime) :=
  ⟨frlS, 0, 0, by
    refine ⟨?_, ?_, ?_, ?_⟩
    · first | rfl | decide
    · decide
    · decide
    · decide⟩

/-! Clauses of `Obligations.ZoneAndMapPackets`. -/

set_option maxRecDepth 100000 in
theorem witness_zone_status :
    ∃ (s : State) (p : Packet), (ready ⟨0x01D0, [4], .read⟩ p s = true) ∧ (s.zoneOf p.eng p.zone = true) :=
  ⟨zonS, pkt 4 0 0, by decide⟩

set_option maxRecDepth 100000 in
theorem witness_zone_cache_status :
    ∃ (s : State) (p : Packet), (ready ⟨0x01D1, [4], .read⟩ p s = true) :=
  ⟨upS, pkt 4 0, by decide⟩

set_option maxRecDepth 100000 in
theorem witness_zone_cache_config :
    ∃ (s : State) (p : Packet), (ready ⟨0x01D2, [4], .config⟩ p s = true) :=
  ⟨upS, pkt 4 0 0x80000001 0xE0000005 9, by decide⟩

set_option maxRecDepth 100000 in
theorem witness_zone_cache_flush :
    ∃ (s : State) (p : Packet), (ready ⟨0x01D3, [4], .action⟩ p s = true) ∧ (((p.w 0).getLsbD 31 || s.zoneOf p.eng p.zone) = true) ∧ (s.eng[p.eng].zdc.lines.toList.all (fun l => l.state != .fill && !l.flushWait && !l.invWait) = true) ∧ (s.eng[p.eng].zdc.missWait = []) :=
  ⟨hitS, pkt 4 0 0x80000000, by decide⟩

set_option maxRecDepth 100000 in
theorem witness_zone_cache_invalidate :
    ∃ (s : State) (p : Packet), (ready ⟨0x01D4, [4], .action⟩ p s = true) ∧ (((p.w 0).getLsbD 31 || s.zoneOf p.eng p.zone) = true) ∧ (s.eng[p.eng].zdc.lines.toList.all (fun l => l.state != .fill && l.pins == 0 && !l.flushWait && !l.invWait) = true) ∧ (s.eng[p.eng].zdc.victims.toList.all (fun v => v.state == .free) = true) ∧ (s.eng[p.eng].zdc.missWait = []) ∧ (s.eng[p.eng].zdc.invVictims = []) :=
  ⟨hitS, pkt 4 0 0x80000000, by decide⟩

set_option maxRecDepth 100000 in
theorem witness_zone_cache_clear :
    ∃ (s : State) (p : Packet), (ready ⟨0x01D5, [4], .action⟩ p s = true) :=
  ⟨upS, pkt 4 0 0xFF, by decide⟩

set_option maxRecDepth 100000 in
theorem witness_map_band :
    ∃ (s : State) (p : Packet), (ready ⟨0x01D6, [3], .config⟩ p s = true) ∧ (s.head[p.hd].map.depop = false) :=
  ⟨upS, pkt 3 1 0x200 5000 0xD00 0xE800 1000 5, by decide⟩

set_option maxRecDepth 100000 in
theorem witness_map_region :
    ∃ (s : State) (p : Packet), (ready ⟨0x01D7, [4], .config⟩ p s = true) :=
  ⟨upS, pkt 4 1 3 100 5000 0x28200000, by decide⟩

set_option maxRecDepth 100000 in
theorem witness_map_conv :
    ∃ (s : State) (p : Packet), (ready ⟨0x01D8, [5], .config⟩ p s = true) :=
  ⟨upS, pkt 5 0 7, by decide⟩

/-! Clauses of `Obligations.IoCommands`. -/

set_option maxRecDepth 100000 in
theorem witness_command_start :
    ∃ (s : State) (x : CtxIx) (c : Ctx), (s.ctx x = some c) ∧ (s.mayStartCmd c = true) :=
  ⟨ctxS (ctx0 (sqe0 0x02 1 0 2)), 5, ctx0 (sqe0 0x02 1 0 2), by
    refine ⟨?_, ?_⟩
    · first | rfl | decide
    · decide⟩

set_option maxRecDepth 100000 in
theorem witness_command_start_checked :
    ∃ (s : State) (x : CtxIx) (c : Ctx) (e : NvStatus), (s.ctx x = some c) ∧ (s.mayStartCmd c = true) ∧ ((s.begun x).startStatus c = some e) :=
  ⟨ctxS (ctx0 (sqe0 0x02 2 999 2)), 5, ctx0 (sqe0 0x02 2 999 2), stGen 0x80 true, by
    refine ⟨?_, ?_, ?_⟩
    · first | rfl | decide
    · decide
    · first | rfl | decide⟩

set_option maxRecDepth 100000 in
theorem witness_write :
    ∃ (s : State) (x : CtxIx) (c : Ctx) (n : Namespace) (z : ZoneNo) (o : Nat), (s.ctx x = some c) ∧ (c.sqe.opcode = 0x01) ∧ (s.mayStartCmd c = true) ∧ (s.nsOf c.fn c.sqe.nsid.toNat = some n) ∧ ((s.begun x).startStatus c = none) ∧ (n.zoned = true) ∧ (n.place c.sqe.slba = some (z, o)) :=
  ⟨ctxS (ctx0 (sqe0 0x01 1 0 2)), 5, ctx0 (sqe0 0x01 1 0 2), ns0, 0, 0, by
    refine ⟨?_, ?_, ?_, ?_, ?_, ?_, ?_⟩
    · first | rfl | decide
    · decide
    · decide
    · first | rfl | decide
    · decide
    · decide
    · first | rfl | decide⟩

set_option maxRecDepth 100000 in
theorem witness_write_conventional :
    ∃ (s : State) (x : CtxIx) (c : Ctx) (n : Namespace), (s.ctx x = some c) ∧ (c.sqe.opcode = 0x01) ∧ (s.mayStartCmd c = true) ∧ (s.nsOf c.fn c.sqe.nsid.toNat = some n) ∧ ((s.begun x).startStatus c = none) ∧ (n.zoned = false) ∧ (n.place c.sqe.slba = none) :=
  ⟨ctxS (ctx0 (sqe0 0x01 2 0 2)), 5, ctx0 (sqe0 0x01 2 0 2), ns1, by
    refine ⟨?_, ?_, ?_, ?_, ?_, ?_, ?_⟩
    · first | rfl | decide
    · decide
    · decide
    · first | rfl | decide
    · decide
    · decide
    · decide⟩

set_option maxRecDepth 100000 in
theorem witness_read :
    ∃ (s : State) (x : CtxIx) (c : Ctx) (n : Namespace), (s.ctx x = some c) ∧ (c.sqe.opcode = 0x02) ∧ (s.mayStartCmd c = true) ∧ (s.nsOf c.fn c.sqe.nsid.toNat = some n) ∧ ((s.begun x).startStatus c = none) :=
  ⟨ctxS (ctx0 (sqe0 0x02 1 0 2)), 5, ctx0 (sqe0 0x02 1 0 2), ns0, by
    refine ⟨?_, ?_, ?_, ?_, ?_⟩
    · first | rfl | decide
    · decide
    · decide
    · first | rfl | decide
    · decide⟩

set_option maxRecDepth 100000 in
theorem witness_verify :
    ∃ (s : State) (x : CtxIx) (c : Ctx) (n : Namespace), (s.ctx x = some c) ∧ (c.sqe.opcode = 0x0C) ∧ (s.mayStartCmd c = true) ∧ (s.nsOf c.fn c.sqe.nsid.toNat = some n) ∧ ((s.begun x).startStatus c = none) :=
  ⟨ctxS (ctx0 (sqe0 0x0C 1 0 2)), 5, ctx0 (sqe0 0x0C 1 0 2), ns0, by
    refine ⟨?_, ?_, ?_, ?_, ?_⟩
    · first | rfl | decide
    · decide
    · decide
    · first | rfl | decide
    · decide⟩

set_option maxRecDepth 100000 in
theorem witness_write_zeroes :
    ∃ (s : State) (x : CtxIx) (c : Ctx) (n : Namespace) (z : ZoneNo) (o : Nat), (s.ctx x = some c) ∧ (c.sqe.opcode = 0x08) ∧ (s.mayStartCmd c = true) ∧ (s.nsOf c.fn c.sqe.nsid.toNat = some n) ∧ ((s.begun x).startStatus c = none) ∧ (n.zoned = true) ∧ (n.place c.sqe.slba = some (z, o)) ∧ (s.durableFirst c = false) :=
  ⟨ctxS (ctx0 (sqe0 0x08 1 0 2)), 5, ctx0 (sqe0 0x08 1 0 2), ns0, 0, 0, by
    refine ⟨?_, ?_, ?_, ?_, ?_, ?_, ?_, ?_⟩
    · first | rfl | decide
    · decide
    · decide
    · first | rfl | decide
    · decide
    · decide
    · first | rfl | decide
    · decide⟩

set_option maxRecDepth 100000 in
theorem witness_dataset_management :
    ∃ (s : State) (x : CtxIx) (c : Ctx) (n : Namespace), (s.ctx x = some c) ∧ (c.sqe.opcode = 0x09) ∧ (s.mayStartCmd c = true) ∧ (s.nsOf c.fn c.sqe.nsid.toNat = some n) ∧ ((s.begun x).startStatus c = none) ∧ (c.sqe.deac = true) :=
  ⟨ctxS (ctx0 dmSqe), 5, ctx0 dmSqe, ns1, by
    refine ⟨?_, ?_, ?_, ?_, ?_, ?_⟩
    · first | rfl | decide
    · decide
    · decide
    · first | rfl | decide
    · decide
    · decide⟩

set_option maxRecDepth 100000 in
theorem witness_zone_append :
    ∃ (s : State) (x : CtxIx) (c : Ctx) (n : Namespace) (z : ZoneNo) (o : Nat), (s.ctx x = some c) ∧ (c.sqe.opcode = 0x7D) ∧ (s.mayStartCmd c = true) ∧ (s.nsOf c.fn c.sqe.nsid.toNat = some n) ∧ ((s.begun x).startStatus c = none) ∧ (n.zoned = true) ∧ (n.place c.sqe.slba = some (z, o)) ∧ (c.sqe.piremap = false) :=
  ⟨ctxS (ctx0 (sqe0 0x7D 1 0 2)), 5, ctx0 (sqe0 0x7D 1 0 2), ns0, 0, 0, by
    refine ⟨?_, ?_, ?_, ?_, ?_, ?_, ?_, ?_⟩
    · first | rfl | decide
    · decide
    · decide
    · first | rfl | decide
    · decide
    · decide
    · first | rfl | decide
    · decide⟩

set_option maxRecDepth 100000 in
theorem witness_flush :
    ∃ (s : State) (x : CtxIx) (c : Ctx), (s.q.ctxs = [(x.val, c)]) ∧ (c.admin = false) ∧ (c.sqe.opcode = 0x00) ∧ (c.finished = none) ∧ (c.ends = []) ∧ (s.q.buffered.any (fun b => c.covers.contains b.startNo) = false) :=
  ⟨ctxS (ctx0 (sqe0 0x00 1 0 0)), 5, ctx0 (sqe0 0x00 1 0 0), ⟨by rfl, by decide, by decide, by decide, by rfl, by decide⟩⟩

/-! Clauses of `Obligations.ZoneCommands`. -/

set_option maxRecDepth 100000 in
theorem witness_zone_reset :
    ∃ (s : State) (x : CtxIx) (c : Ctx) (n : Namespace) (z : ZoneNo) (o : Nat), (s.ctx x = some c) ∧ (c.sqe.opcode = 0x79) ∧ (s.mayStartCmd c = true) ∧ (s.nsOf c.fn c.sqe.nsid.toNat = some n) ∧ ((s.begun x).startStatus c = none) ∧ (c.sqe.act = .reset) ∧ (c.sqe.selectAll = false) ∧ (n.place c.sqe.slba = some (z, o)) :=
  ⟨ctxS (ctx0 (sendSqe .reset)), 5, ctx0 (sendSqe .reset), ns0, 0, 0, by
    refine ⟨?_, ?_, ?_, ?_, ?_, ?_, ?_, ?_⟩
    · first | rfl | decide
    · decide
    · decide
    · first | rfl | decide
    · decide
    · decide
    · decide
    · first | rfl | decide⟩

set_option maxRecDepth 100000 in
theorem witness_zone_reset_held :
    ∃ (s : State) (x : CtxIx) (c : Ctx) (n : Namespace) (z : ZoneNo) (o : Nat) (i : Fin 48), (s.ctx x = some c) ∧ (c.sqe.opcode = 0x79) ∧ (s.mayStartCmd c = true) ∧ (s.nsOf c.fn c.sqe.nsid.toNat = some n) ∧ ((s.begun x).startStatus c = none) ∧ (c.sqe.act = .reset) ∧ (c.sqe.selectAll = false) ∧ (n.place c.sqe.slba = some (z, o)) ∧ (s.lineHeld z i = true) ∧ ((s.zoneDesc z).zs ≠ .log) ∧ (s.q.ctxs = [(x.val, c)]) ∧ (s.q.buffered = []) ∧ (s.eng[(s.zoneDesc z).engine].recv.jobs = Vector.replicate 16 none) ∧ (s.eng[(s.zoneDesc z).engine].recv.reallocs = []) ∧ (s.media.remaps[(s.zoneDesc z).engine] = []) ∧ (s.media.defects[(s.zoneDesc z).engine] = []) :=
  ⟨heldZ .reset .closed, 5, ctx0 (sendSqe .reset), ns0, 0, 0, 2, by
    refine ⟨?_, ?_, ?_, ?_, ?_, ?_, ?_, ?_, ?_, ?_, ?_, ?_, ?_, ?_, ?_, ?_⟩ <;> first | rfl | decide⟩

set_option maxRecDepth 100000 in
theorem witness_zone_open :
    ∃ (s : State) (x : CtxIx) (c : Ctx) (n : Namespace) (z : ZoneNo) (o : Nat), (s.ctx x = some c) ∧ (c.sqe.opcode = 0x79) ∧ (s.mayStartCmd c = true) ∧ (s.nsOf c.fn c.sqe.nsid.toNat = some n) ∧ ((s.begun x).startStatus c = none) ∧ (c.sqe.act = .open_) ∧ (c.sqe.selectAll = false) ∧ (n.place c.sqe.slba = some (z, o)) ∧ ((s.begun x).openLimit n ((s.begun x).zoneDesc z).zs = none) :=
  ⟨ctxS (ctx0 (sendSqe .open_)), 5, ctx0 (sendSqe .open_), ns0, 0, 0, by
    refine ⟨?_, ?_, ?_, ?_, ?_, ?_, ?_, ?_, ?_⟩
    · first | rfl | decide
    · decide
    · decide
    · first | rfl | decide
    · decide
    · decide
    · decide
    · first | rfl | decide
    · decide⟩

set_option maxRecDepth 100000 in
theorem witness_zone_open_held :
    ∃ (s : State) (x : CtxIx) (c : Ctx) (n : Namespace) (z : ZoneNo) (o : Nat) (i : Fin 48), (s.ctx x = some c) ∧ (c.sqe.opcode = 0x79) ∧ (s.mayStartCmd c = true) ∧ (s.nsOf c.fn c.sqe.nsid.toNat = some n) ∧ ((s.begun x).startStatus c = none) ∧ (c.sqe.act = .open_) ∧ (c.sqe.selectAll = false) ∧ (n.place c.sqe.slba = some (z, o)) ∧ ((s.begun x).openLimit n ((s.begun x).zoneDesc z).zs = none) ∧ (s.lineHeld z i = true) :=
  ⟨heldZ .open_ .closed, 5, ctx0 (sendSqe .open_), ns0, 0, 0, 2, by
    refine ⟨?_, ?_, ?_, ?_, ?_, ?_, ?_, ?_, ?_, ?_⟩ <;> first | rfl | decide⟩

set_option maxRecDepth 100000 in
theorem witness_zone_close :
    ∃ (s : State) (x : CtxIx) (c : Ctx) (n : Namespace) (z : ZoneNo) (o : Nat), (s.ctx x = some c) ∧ (c.sqe.opcode = 0x79) ∧ (s.mayStartCmd c = true) ∧ (s.nsOf c.fn c.sqe.nsid.toNat = some n) ∧ ((s.begun x).startStatus c = none) ∧ (c.sqe.act = .close) ∧ (c.sqe.selectAll = false) ∧ (n.place c.sqe.slba = some (z, o)) ∧ (((s.begun x).zoneDesc z).zs ≠ .closed) :=
  ⟨ctxS (ctx0 (sendSqe .close)), 5, ctx0 (sendSqe .close), ns0, 0, 0, by
    refine ⟨?_, ?_, ?_, ?_, ?_, ?_, ?_, ?_, ?_⟩
    · first | rfl | decide
    · decide
    · decide
    · first | rfl | decide
    · decide
    · decide
    · decide
    · first | rfl | decide
    · decide⟩

set_option maxRecDepth 100000 in
theorem witness_zone_close_held :
    ∃ (s : State) (x : CtxIx) (c : Ctx) (n : Namespace) (z : ZoneNo) (o : Nat) (i : Fin 48), (s.ctx x = some c) ∧ (c.sqe.opcode = 0x79) ∧ (s.mayStartCmd c = true) ∧ (s.nsOf c.fn c.sqe.nsid.toNat = some n) ∧ ((s.begun x).startStatus c = none) ∧ (c.sqe.act = .close) ∧ (c.sqe.selectAll = false) ∧ (n.place c.sqe.slba = some (z, o)) ∧ (s.lineHeld z i = true) :=
  ⟨heldZ .close .expOpen, 5, ctx0 (sendSqe .close), ns0, 0, 0, 2, by
    refine ⟨?_, ?_, ?_, ?_, ?_, ?_, ?_, ?_, ?_⟩ <;> first | rfl | decide⟩

set_option maxRecDepth 100000 in
theorem witness_zone_finish :
    ∃ (s : State) (x : CtxIx) (c : Ctx) (n : Namespace) (z : ZoneNo) (o : Nat), (s.ctx x = some c) ∧ (c.sqe.opcode = 0x79) ∧ (s.mayStartCmd c = true) ∧ (s.nsOf c.fn c.sqe.nsid.toNat = some n) ∧ ((s.begun x).startStatus c = none) ∧ (c.sqe.act = .finish) ∧ (c.sqe.selectAll = false) ∧ (n.place c.sqe.slba = some (z, o)) ∧ (((s.begun x).zoneDesc z).zs ≠ .full) :=
  ⟨ctxS (ctx0 (sendSqe .finish)), 5, ctx0 (sendSqe .finish), ns0, 0, 0, by
    refine ⟨?_, ?_, ?_, ?_, ?_, ?_, ?_, ?_, ?_⟩
    · first | rfl | decide
    · decide
    · decide
    · first | rfl | decide
    · decide
    · decide
    · decide
    · first | rfl | decide
    · decide⟩

set_option maxRecDepth 100000 in
theorem witness_zone_finish_held :
    ∃ (s : State) (x : CtxIx) (c : Ctx) (n : Namespace) (z : ZoneNo) (o : Nat) (i : Fin 48), (s.ctx x = some c) ∧ (c.sqe.opcode = 0x79) ∧ (s.mayStartCmd c = true) ∧ (s.nsOf c.fn c.sqe.nsid.toNat = some n) ∧ ((s.begun x).startStatus c = none) ∧ (c.sqe.act = .finish) ∧ (c.sqe.selectAll = false) ∧ (n.place c.sqe.slba = some (z, o)) ∧ (s.lineHeld z i = true) :=
  ⟨heldZ .finish .closed, 5, ctx0 (sendSqe .finish), ns0, 0, 0, 2, by
    refine ⟨?_, ?_, ?_, ?_, ?_, ?_, ?_, ?_, ?_⟩ <;> first | rfl | decide⟩

set_option maxRecDepth 100000 in
theorem witness_zone_offline :
    ∃ (s : State) (x : CtxIx) (c : Ctx) (n : Namespace) (z : ZoneNo) (o : Nat), (s.ctx x = some c) ∧ (c.sqe.opcode = 0x79) ∧ (s.mayStartCmd c = true) ∧ (s.nsOf c.fn c.sqe.nsid.toNat = some n) ∧ ((s.begun x).startStatus c = none) ∧ (c.sqe.act = .offline) ∧ (c.sqe.selectAll = false) ∧ (n.place c.sqe.slba = some (z, o)) :=
  ⟨{ ctxS (ctx0 (sendSqe .offline)) with media := { fnS.media with zones := [(0, { gd with zs := .readOnly })] } }, 5, ctx0 (sendSqe .offline), ns0, 0, 0, by
    refine ⟨?_, ?_, ?_, ?_, ?_, ?_, ?_, ?_⟩
    · first | rfl | decide
    · decide
    · decide
    · first | rfl | decide
    · decide
    · decide
    · decide
    · first | rfl | decide⟩

set_option maxRecDepth 100000 in
theorem witness_zone_offline_held :
    ∃ (s : State) (x : CtxIx) (c : Ctx) (n : Namespace) (z : ZoneNo) (o : Nat) (i : Fin 48), (s.ctx x = some c) ∧ (c.sqe.opcode = 0x79) ∧ (s.mayStartCmd c = true) ∧ (s.nsOf c.fn c.sqe.nsid.toNat = some n) ∧ ((s.begun x).startStatus c = none) ∧ (c.sqe.act = .offline) ∧ (c.sqe.selectAll = false) ∧ (n.place c.sqe.slba = some (z, o)) ∧ (s.lineHeld z i = true) :=
  ⟨heldZ .offline .readOnly, 5, ctx0 (sendSqe .offline), ns0, 0, 0, 2, by
    refine ⟨?_, ?_, ?_, ?_, ?_, ?_, ?_, ?_, ?_⟩ <;> first | rfl | decide⟩

set_option maxRecDepth 100000 in
theorem witness_report_zones :
    ∃ (s : State) (x : CtxIx) (c : Ctx) (n : Namespace), (s.ctx x = some c) ∧ (c.admin = false) ∧ (c.sqe.opcode = 0x7A) ∧ (c.finished = none) ∧ (s.nsStatus c = none) ∧ (s.nsOf c.fn c.sqe.nsid.toNat = some n) ∧ (c.sqe.reservedSet = false) ∧ (c.sqe.slba < n.size) ∧ (n.zones.any (fun z => s.rst.rdfwdPend.contains z) = false) :=
  ⟨ctxS (ctx0 (sqe0 0x7A 1 0 0)), 5, ctx0 (sqe0 0x7A 1 0 0), ns0, by
    refine ⟨?_, ?_, ?_, ?_, ?_, ?_, ?_, ?_, ?_⟩
    · first | rfl | decide
    · decide
    · decide
    · decide
    · decide
    · first | rfl | decide
    · decide
    · decide
    · decide⟩

/-! Clauses of `Obligations.QueueEvents`. -/

set_option maxRecDepth 100000 in
theorem witness_command_fetch :
    ∃ (s : State) (f : Fn) (sq : BitVec 16) (e : Sqe) (n : Nat) (w : Vector Nat 3) (q : SubQueue) (x : CtxIx), (s.nextFetch = some (f, sq.toNat, n, w)) ∧ (s.host.fns[f].sqs.find? (fun q => q.id == sq.toNat) = some q) ∧ (e.badEntry = false) ∧ (s.freeCtx = some x) :=
  ⟨fnS, 0, 1, sqe0 0x02 1 0 2, 0, Vector.replicate 3 0, { id := 1, cq := 1, size := 8, tail := 1 }, 0, by
    refine ⟨?_, ?_, ?_, ?_⟩
    · first | rfl | decide
    · first | rfl | decide
    · decide
    · first | rfl | decide⟩

set_option maxRecDepth 100000 in
theorem witness_credit_grant :
    ∃ (s : State) (x : CtxIx) (c e : Ctx), (s.ctx x = some c) ∧ (s.firstWaiting = some e) ∧ (c.wantsCredits = true) ∧ (c.fetchNo = e.fetchNo) ∧ (c.needCredits ≤ s.q.creditsFree) :=
  ⟨ctxS credC, 5, credC, credC, by
    refine ⟨?_, ?_, ?_, ?_, ?_⟩
    · first | rfl | decide
    · first | rfl | decide
    · decide
    · decide
    · decide⟩

set_option maxRecDepth 100000 in
theorem witness_host_transfer_done :
    ∃ (s : State) (x : CtxIx) (c : Ctx), (s.ctx x = some c) ∧ (c.started = true) ∧ (c.finished = none) ∧ (c.writes = true) ∧ (c.blocks.all (·.here) = false) ∧ (c.sqe.badData = false) ∧ (s.durableFirst c = false) :=
  ⟨ctxS movC, 5, movC, by
    refine ⟨?_, ?_, ?_, ?_, ?_, ?_, ?_⟩
    · first | rfl | decide
    · decide
    · decide
    · decide
    · decide
    · decide
    · decide⟩

set_option maxRecDepth 100000 in
theorem witness_host_transfer_done_failed :
    ∃ (s : State) (x : CtxIx) (c : Ctx), (s.ctx x = some c) ∧ (c.started = true) ∧ (c.finished = none) ∧ (c.writes = false) ∧ (c.sqe.badData = true) :=
  ⟨ctxS failC, 5, failC, by
    refine ⟨?_, ?_, ?_, ?_, ?_⟩ <;> first | rfl | decide⟩

set_option maxRecDepth 100000 in
theorem witness_host_transfer_done_read :
    ∃ (s : State) (x : CtxIx) (c : Ctx), (s.ctx x = some c) ∧ (c.started = true) ∧ (c.finished = none) ∧ (c.writes = false) ∧ (c.sqe.badData = false) :=
  ⟨ctxS rdC, 5, rdC, by
    refine ⟨?_, ?_, ?_, ?_, ?_⟩
    · first | rfl | decide
    · decide
    · decide
    · decide
    · decide⟩

set_option maxRecDepth 100000 in
theorem witness_write_durable :
    ∃ (s : State) (x : CtxIx) (b : BufferedWrite), (s.ctx x = none) ∧ (s.q.buffered.find? (fun b => b.ctx == x && b.nsid != 0 && 0 < b.blocks.length && s.viewSafe b.view) = some b) ∧ (b.fault = false) ∧ (b.lost = false) :=
  ⟨durS, 5, durB, ⟨by rfl, by rfl, by rfl, by rfl⟩⟩

set_option maxRecDepth 100000 in
theorem witness_completion_post :
    ∃ (s : State) (x : CtxIx) (c : Ctx) (e : NvStatus) (q : SubQueue) (y : CompQueue), (s.ctx x = some c) ∧ (c.finished = some e) ∧ (c.writes = false → c.media = true → ∀ b ∈ c.blocks, b.sent = true ∨ b.failed.isSome = true) ∧ ((c.media && c.started && s.q.ctxs.any fun p => p.2.media && p.2.fn == c.fn && p.2.sq == c.sq && decide (p.2.fetchNo < c.fetchNo)) = false) ∧ (s.host.fns[c.fn].sqs.find? (fun q => q.id == c.sq) = some q) ∧ (s.host.fns[c.fn].cqs.find? (fun y => y.id == q.cq) = some y) ∧ (y.full = false) :=
  ⟨ctxS finC, 5, finC, {}, { id := 1, cq := 1, size := 8, tail := 1 }, { id := 1, size := 8 }, by
    refine ⟨?_, ?_, ?_, ?_, ?_, ?_, ?_⟩ <;> first | decide | rfl⟩

/-! Clauses of `Obligations.Scheduling`. -/

set_option maxRecDepth 100000 in
theorem witness_scheduler_decision :
    ∃ (s : State) (a : Eng), (s.enginePresent a = true) ∧ (s.engineFailed a = false) :=
  ⟨upS, 0, by decide⟩

set_option maxRecDepth 100000 in
theorem witness_scheduler_decision_one :
    ∃ (s : State) (a : Eng) (i : Item), (s.enginePresent a = true) ∧ (s.engineFailed a = false) ∧ (s.q.ctxs = []) ∧ (s.q.buffered = []) ∧ (s.itemsOf a = [i]) ∧ (s.itemPermitted a i = true) ∧ (s.activationFits i.head (i.at_.track * 256) = true) :=
  ⟨schS, 0, { ctx := none, head := 0, write := true, at_ := { track := 5 }, startNo := 0, cls := 4, tier := 5, deadline := 0, reach := schS.reachOf 0 0 { track := 5 } }, by refine ⟨by decide, by decide, rfl, rfl, ?_, by decide, by decide⟩; decide +kernel⟩

set_option maxRecDepth 100000 in
theorem witness_contract_due :
    ∃ (s : State) (x : CtxIx) (c : Ctx), (s.ctx x = some c) ∧ ((s.latencyOf c).isSome = true) ∧ (c.finished = none) ∧ (s.deadlineOf c ≤ s.mtime + s.q.latGuard * 3000000) :=
  ⟨ctrS latC ctr0 5, 5, latC, by refine ⟨rfl, ?_⟩; decide⟩

set_option maxRecDepth 100000 in
theorem witness_latency_deadline_miss :
    ∃ (s : State) (x : CtxIx) (c : Ctx) (n : Nat) (k : Contract), (s.ctx x = some c) ∧ (s.latencyOf c = some (n, k)) ∧ (c.missed = false) ∧ (s.deadlineOf c < s.mtime) ∧ (c.overRate = false ∧ c.ladder = false ∧ c.activation = false) :=
  ⟨ctrS latC ctr0 500000000000, 5, latC, 9, ctr0, by refine ⟨rfl, rfl, ?_⟩; decide⟩

set_option maxRecDepth 100000 in
theorem witness_latency_deadline_miss_classed :
    ∃ (s : State) (x : CtxIx) (c : Ctx) (n : Nat) (k : Contract), (s.ctx x = some c) ∧ (s.latencyOf c = some (n, k)) ∧ (c.missed = false) ∧ (s.deadlineOf c < s.mtime) ∧ (c.overRate = true ∨ c.ladder = true ∨ c.activation = true) :=
  ⟨ctrS { latC with ladder := true } ctr0 500000000000, 5, { latC with ladder := true }, 9, ctr0, by refine ⟨rfl, rfl, ?_⟩; decide⟩

set_option maxRecDepth 100000 in
theorem witness_floor_window_end :
    ∃ (s : State) (n : ContractIx) (k : Contract), (alookup s.q.contracts n.val = some k) ∧ (k.floor = true) ∧ (k.winAt + s.q.floorWin * 30000000 ≤ s.mtime) ∧ (k.waiting = true → k.rate * s.q.floorWin * 10000 ≤ k.winBytes) :=
  ⟨ctrS latC ctrF 500000000000, 9, ctrF, by refine ⟨rfl, ?_⟩; decide⟩

set_option maxRecDepth 100000 in
theorem witness_floor_window_end_miss :
    ∃ (s : State) (n : ContractIx) (k : Contract), (alookup s.q.contracts n.val = some k) ∧ (k.floor = true) ∧ (k.winAt + s.q.floorWin * 30000000 ≤ s.mtime) ∧ (k.waiting = true) ∧ (k.winBytes < k.rate * s.q.floorWin * 10000) :=
  ⟨ctrS latC { ctrF with waiting := true } 500000000000, 9, { ctrF with waiting := true }, by refine ⟨rfl, ?_⟩; decide⟩

set_option maxRecDepth 100000 in
theorem witness_queue_status :
    ∃ (s : State) (p : Packet), (ready ⟨0x01F0, [5], .read⟩ p s = true) :=
  ⟨upS, pkt 5 0, by decide⟩

set_option maxRecDepth 100000 in
theorem witness_queue_config :
    ∃ (s : State) (p : Packet) (w0 w1 w2 : Word), (ready ⟨0x01F1, [5], .config⟩ p s = true) ∧ (p.words[(0 : Fin 14)] = w0 ∧ fld w0 31 24 ≤ fld w0 23 12 ∧ fld w0 31 24 ≤ 254 ∧ 64 ≤ fld w0 23 12 ∧ fld w0 23 12 ≤ 4064 ∧ fld w0 11 0 = 0) ∧ (w1 = clampWord [fIn 31 24 2 64, fIn 23 16 2 255, fIn 15 8 50 95, fIn 7 0 5 100] 0 p.words[(1 : Fin 14)]) ∧ (w2 = clampWord [fIn 31 24 10 90, fIn 23 12 20 400] 0 p.words[(2 : Fin 14)]) :=
  ⟨upS, pkt 5 0 0x10400000 0x08204B0A 0x46078000, 0x10400000, 0x08204B0A, 0x46078000, by decide⟩

set_option maxRecDepth 100000 in
theorem witness_queue_function :
    ∃ (s : State) (p : Packet), (ready ⟨0x01F2, [7], .read⟩ p s = true) :=
  ⟨hostS, pkt 7 0, by decide⟩

set_option maxRecDepth 100000 in
theorem witness_qos_admit :
    ∃ (s : State) (p : Packet) (f : Fn) (sq n : Nat), (ready ⟨0x01F3, [7], .action⟩ p s = true) ∧ (p.idx = f.val ∧ p.words[(0 : Fin 14)] = 0x10 ∧ (p.words[(1 : Fin 14)]).toNat = sq ∧ sq < 65536) ∧ (sq ≠ 0 ∧ s.host.fns[f].sqs.any (fun q => q.id == sq) = true) ∧ (s.q.contracts.any (fun c => c.2.fn == f && c.2.sq == sq && c.2.floor == false) = false) ∧ ((List.range 256).find? (fun n => !s.q.contracts.any fun c => c.1 == n) = some n) ∧ (s.lMin ≤ (p.words[(2 : Fin 14)]).toNat ∧ (p.words[(2 : Fin 14)]).toNat ≤ 10000 ∧ 1 ≤ (p.words[(3 : Fin 14)]).toNat ∧ (p.words[(3 : Fin 14)]).toNat ≤ 4000) ∧ (s.admits { floor := false, dir := 1, fn := f, sq := sq, latMs := (p.words[(2 : Fin 14)]).toNat, rate := (p.words[(3 : Fin 14)]).toNat, adm := s.rst.poh, shares := s.queueShares f, winAt := s.mtime } = true) :=
  ⟨fnS, pkt 7 0 0x10 1 100 5, 0, 1, 0, by refine ⟨by decide, by decide, by decide, by decide, rfl, by decide, by decide⟩⟩

set_option maxRecDepth 100000 in
theorem witness_qos_admit_refused :
    ∃ (s : State) (p : Packet) (f : Fn) (sq : Nat), (ready ⟨0x01F3, [7], .action⟩ p s = true) ∧ (p.idx = f.val ∧ p.words[(0 : Fin 14)] = 0x10 ∧ (p.words[(1 : Fin 14)]).toNat = sq ∧ sq < 65536) ∧ (sq ≠ 0 ∧ s.host.fns[f].sqs.any (fun q => q.id == sq) = true) ∧ (s.q.contracts.any (fun c => c.2.fn == f && c.2.sq == sq && c.2.floor == false) = false) ∧ (s.lMin ≤ (p.words[(2 : Fin 14)]).toNat ∧ (p.words[(2 : Fin 14)]).toNat ≤ 10000 ∧ 1 ≤ (p.words[(3 : Fin 14)]).toNat ∧ (p.words[(3 : Fin 14)]).toNat ≤ 4000) ∧ (s.admits { floor := false, dir := 1, fn := f, sq := sq, latMs := (p.words[(2 : Fin 14)]).toNat, rate := (p.words[(3 : Fin 14)]).toNat, adm := s.rst.poh, shares := s.queueShares f, winAt := s.mtime } = false) :=
  ⟨fnS, pkt 7 0 0x10 1 100 4000, 0, 1, by decide⟩

set_option maxRecDepth 100000 in
theorem witness_qos_revoke :
    ∃ (s : State) (p : Packet) (n : Nat) (k : Contract), (ready ⟨0x01F4, [7], .action⟩ p s = true) ∧ (fld (p.w 0) 7 0 = n) ∧ (alookup s.q.contracts n = some k) ∧ (k.fn = p.fnOf) :=
  ⟨ctrS latC ctr0 5, pkt 7 0 9, 9, ctr0, by refine ⟨by decide, by decide, rfl, by decide⟩⟩

set_option maxRecDepth 100000 in
theorem witness_qos_status :
    ∃ (s : State) (p : Packet), (ready ⟨0x01F5, [5], .read⟩ p s = true) ∧ (p.src = .smbus ∨ p.src = .vdm ∨ p.src = .nvme 0) :=
  ⟨ctrS latC ctr0 5, pkt 5 0 9, by decide⟩

set_option maxRecDepth 100000 in
theorem witness_queue_clear :
    ∃ (s : State) (p : Packet) (n : Nat) (k : Contract), (ready ⟨0x01F6, [5], .action⟩ p s = true) ∧ (fld (p.w 2) 7 0 = n) ∧ (alookup s.q.contracts n = some k) :=
  ⟨ctrS latC ctr0 5, pkt 5 0 0xF 0x3F 9, 9, ctr0, by refine ⟨by decide, by decide, rfl⟩⟩

/-! Clauses of `Obligations.HostResets`. -/

set_option maxRecDepth 100000 in
theorem witness_function_level_reset :
    ∃ (s : State) (f : Fn), (s.host.fns[f].present = true) :=
  ⟨ctxS credC, 0, by decide⟩

set_option maxRecDepth 100000 in
theorem witness_vf_disable :
    ∃ (s : State) (f : Fn), (f ≠ 0) ∧ (s.host.fns[f].present = true) :=
  ⟨{ hostS with host := { hostS.host with fns := vmod hostS.host.fns 3 fun x => { x with present := true, en := true } } }, 3, by decide⟩

set_option maxRecDepth 100000 in
theorem witness_vf_enable :
    ∃ (s : State) (n : Fin 16), (s.host.fns[(0 : Fn)].present = true) ∧ (s.rst.recovery = false) ∧ (s.host.numVf = 0) :=
  ⟨hostS, 12, by decide⟩

set_option maxRecDepth 100000 in
theorem witness_controller_reset :
    ∃ (s : State) (f : Fn), (s.host.fns[f].en = true) :=
  ⟨ctxS credC, 0, by decide⟩

set_option maxRecDepth 100000 in
theorem witness_controller_enable :
    ∃ (s : State) (f : Fn) (c : ControllerSetup), (s.host.fns[f].present = true) ∧ (s.host.fns[f].online = true) ∧ (s.host.fns[f].en = false) :=
  ⟨hostS, 0, { wrr := true, cmbmsc := 3 }, by decide⟩

set_option maxRecDepth 100000 in
theorem witness_shutdown_normal :
    ∃ (s : State) (f : Fn), (s.host.fns[f].en = true) ∧ (s.host.fns[f].shst = 0) ∧ (s.q.ctxs.any (fun p => p.2.fn == f && p.2.started) = true) :=
  ⟨ctxS movC, 0, by decide⟩

set_option maxRecDepth 100000 in
theorem witness_shutdown_normal_done :
    ∃ (s : State) (f : Fn), (s.host.fns[f].en = true) ∧ (s.host.fns[f].shst = 0) ∧ (s.q.ctxs.any (fun p => p.2.fn == f && p.2.started) = false) ∧ (s.q.buffered = []) :=
  ⟨ctxS credC, 0, by decide⟩

set_option maxRecDepth 100000 in
theorem witness_shutdown_abrupt :
    ∃ (s : State) (f : Fn), (s.host.fns[f].en = true) ∧ (s.host.fns[f].shst ≠ 2) :=
  ⟨ctxS movC, 0, by decide⟩

set_option maxRecDepth 100000 in
theorem witness_data_link_up :
    ∃ (s : State) (gen : Fin 6) (lanes : Fin 5) (ari : Bool), (s.host.perst = false) ∧ (s.rst.phase ≠ .bootRom) ∧ (gen ≠ 0) ∧ (lanes = 1 ∨ lanes = 2 ∨ lanes = 4) :=
  ⟨{ upS with host := { upS.host with perst := false } }, 4, 4, true, by decide⟩

set_option maxRecDepth 100000 in
theorem witness_aspm_l1_change :
    ∃ (s : State) (enter : Bool), (s.host.dlUp = true) :=
  ⟨{ upS with host := { upS.host with dlUp := true } }, true, by decide⟩

/-! Clauses of `Obligations.HostViolations`. -/

set_option maxRecDepth 100000 in
theorem witness_doorbell_write_sq :
    ∃ (s : State) (f : Fn) (d : Doorbell) (q : SubQueue), (s.host.fns[f].present = true) ∧ (d.cq = false) ∧ (s.host.fns[f].sqs.find? (fun q => q.id == d.q) = some q) ∧ (d.v.toNat < q.size) :=
  ⟨fnS, 0, ⟨false, 1, 3⟩, { id := 1, cq := 1, size := 8, tail := 1 }, by
    refine ⟨?_, ?_, ?_, ?_⟩
    · decide
    · decide
    · first | rfl | decide
    · decide⟩

set_option maxRecDepth 100000 in
theorem witness_doorbell_write_cq :
    ∃ (s : State) (f : Fn) (d : Doorbell) (q : CompQueue), (s.host.fns[f].present = true) ∧ (d.cq = true) ∧ (s.host.fns[f].cqs.find? (fun q => q.id == d.q) = some q) ∧ (d.v.toNat < q.size) ∧ ((d.v.toNat + q.size - q.head) % q.size ≤ (q.tail + q.size - q.head) % q.size) :=
  ⟨fnS, 0, ⟨true, 1, 0⟩, { id := 1, size := 8 }, by
    refine ⟨?_, ?_, ?_, ?_, ?_⟩
    · decide
    · decide
    · first | rfl | decide
    · decide
    · decide⟩

set_option maxRecDepth 100000 in
theorem witness_doorbell_write_value :
    ∃ (s : State) (f : Fn) (d : Doorbell) (q : SubQueue), (s.host.fns[f].present = true) ∧ (d.cq = false) ∧ (s.host.fns[f].sqs.find? (fun q => q.id == d.q) = some q) ∧ (q.size ≤ d.v.toNat) :=
  ⟨fnS, 0, ⟨false, 1, 9⟩, { id := 1, cq := 1, size := 8, tail := 1 }, by
    refine ⟨?_, ?_, ?_, ?_⟩
    · decide
    · decide
    · first | rfl | decide
    · decide⟩

set_option maxRecDepth 100000 in
theorem witness_doorbell_write_register :
    ∃ (s : State) (f : Fn) (d : Doorbell), (s.host.fns[f].present = true) ∧ (d.cq = false) ∧ (s.host.fns[f].sqs.find? (fun q => q.id == d.q) = none) :=
  ⟨fnS, 0, ⟨false, 9, 3⟩, by decide⟩

set_option maxRecDepth 100000 in
theorem witness_completion_timeout :
    ∃ (s : State) (x : CtxIx) (hdr : BitVec 128) (c : Ctx), (s.ctx x = some c) ∧ (c.writes = true ∨ c.started = false ∨ c.admin = true ∨ c.blocks = []) :=
  ⟨ctxS movC, 5, 0, movC, by
    skip
    · first | rfl | decide⟩

set_option maxRecDepth 100000 in
theorem witness_completion_timeout_read :
    ∃ (s : State) (x : CtxIx) (hdr : BitVec 128) (c : Ctx), (s.ctx x = some c) ∧ (c.writes = false) :=
  ⟨ctxS rdC, 5, 0, rdC, by
    refine ⟨?_, ?_⟩ <;> first | rfl | decide⟩

set_option maxRecDepth 100000 in
theorem witness_poisoned_completion :
    ∃ (s : State) (x : CtxIx) (hdr : BitVec 128) (c : Ctx), (s.ctx x = some c) ∧ (c.writes = true ∨ c.started = false ∨ c.admin = true ∨ c.blocks = []) :=
  ⟨ctxS movC, 5, 0, movC, by
    skip
    · first | rfl | decide⟩

set_option maxRecDepth 100000 in
theorem witness_poisoned_completion_read :
    ∃ (s : State) (x : CtxIx) (hdr : BitVec 128) (c : Ctx), (s.ctx x = some c) ∧ (c.writes = false) :=
  ⟨ctxS rdC, 5, 0, rdC, by
    refine ⟨?_, ?_⟩ <;> first | rfl | decide⟩

/-! Clauses of `Obligations.HostPackets`. -/

set_option maxRecDepth 100000 in
theorem witness_host_status :
    ∃ (s : State) (p : Packet), (ready ⟨0x01E0, [5], .read⟩ p s = true) :=
  ⟨upS, pkt 5 0, by decide⟩

set_option maxRecDepth 100000 in
theorem witness_host_config :
    ∃ (s : State) (p : Packet), (ready ⟨0x01E1, [5], .config⟩ p s = true) :=
  ⟨upS, pkt 5 0 0xA0070000, by decide⟩

set_option maxRecDepth 100000 in
theorem witness_host_permit :
    ∃ (s : State) (p : Packet), (ready ⟨0x01E2, [5], .config⟩ p s = true) :=
  ⟨upS, pkt 5 0 0x6, by decide⟩

set_option maxRecDepth 100000 in
theorem witness_host_function :
    ∃ (s : State) (p : Packet), (ready ⟨0x01E3, [7], .read⟩ p s = true) :=
  ⟨hostS, pkt 7 0, by decide⟩

set_option maxRecDepth 100000 in
theorem witness_host_clear :
    ∃ (s : State) (p : Packet), (ready ⟨0x01E4, [5, 7], .action⟩ p s = true) ∧ (p.lvl = 5) :=
  ⟨upS, pkt 5 0 0x3F, by decide⟩

set_option maxRecDepth 100000 in
theorem witness_host_clear_function :
    ∃ (s : State) (p : Packet), (ready ⟨0x01E4, [5, 7], .action⟩ p s = true) ∧ (p.lvl = 7) :=
  ⟨hostS, pkt 7 0 0x7FF, by decide⟩

set_option maxRecDepth 100000 in
theorem witness_mctp_set_endpoint_id :
    ∃ (s : State) (eid : BitVec 8), (eid ≠ 0) ∧ (eid ≠ 0xFF) :=
  ⟨upS, 9, by decide⟩

set_option maxRecDepth 100000 in
theorem witness_keep_alive_timeout :
    ∃ (s : State) (f : Fn), (s.host.fns[f].en = true) ∧ (0 < s.host.fns[f].kato) ∧ (s.host.fns[f].kaLast + s.host.fns[f].kato * 300000000 ≤ s.mtime) :=
  ⟨{ fnS with mtime := 900000000, host := { fnS.host with fns := vmod fnS.host.fns 0 fun x => { x with kato := 2 } } }, 0, by decide⟩

/-! Clauses of `Obligations.AdminQueuesAndLogs`. -/

set_option maxRecDepth 100000 in
theorem witness_delete_io_sq :
    ∃ (s : State) (q : AdmReq) (id : BitVec 16) (sq : SubQueue), (adminReady q false false s = true) ∧ (id ≠ 0) ∧ (s.host.fns[q.fn].sqs.find? (fun c => c.id == id.toNat) = some sq) ∧ (sq.deleting = none) ∧ (s.q.ctxs.any (fun p => p.2.fn == q.fn && p.2.sq == sq.id && !p.2.admin) = false) :=
  ⟨admS, ⟨0, 9, none⟩, 1, { id := 1, cq := 1, size := 8, tail := 1 }, by refine ⟨by decide, by decide, rfl, by decide, by decide⟩⟩

set_option maxRecDepth 100000 in
theorem witness_delete_io_sq_wait :
    ∃ (s : State) (q : AdmReq) (id : BitVec 16) (sq : SubQueue), (adminReady q false false s = true) ∧ (id ≠ 0) ∧ (s.host.fns[q.fn].sqs.find? (fun c => c.id == id.toNat) = some sq) ∧ (sq.deleting = none) ∧ (s.q.ctxs.any (fun p => p.2.fn == q.fn && p.2.sq == sq.id && !p.2.admin) = true) ∧ (s.host.fns[q.fn].sqs.all (fun c => c.id == id.toNat || c.deleting.isNone) = true) ∧ (s.q.ctxs.all (fun p => decide (p.1 < 4096)) = true) :=
  ⟨{ admS with q := { admS.q with ctxs := [(5, credC), (6, movC)] } }, ⟨0, 9, none⟩, 1, { id := 1, cq := 1, size := 8, tail := 1 }, by refine ⟨by decide, by decide, rfl, by decide, by decide, by decide, by decide⟩⟩

set_option maxRecDepth 100000 in
theorem witness_create_io_sq :
    ∃ (s : State) (q : AdmReq) (n : NewSq), (adminReady q false false s = true) ∧ (n.id ≠ 0 ∧ n.id.toNat < s.host.fns[q.fn].pairs) ∧ (s.host.fns[q.fn].sqs.any (fun c => c.id == n.id.toNat) = false) ∧ (n.cq ≠ 0 ∧ s.host.fns[q.fn].cqs.any (fun c => c.id == n.cq.toNat) = true) ∧ (1 ≤ n.size.toNat ∧ n.size.toNat ≤ 0x3FFF) :=
  ⟨admS, ⟨0, 9, none⟩, ⟨3, 1, 15, 1⟩, by decide⟩

set_option maxRecDepth 100000 in
theorem witness_create_io_sq_tunnelled :
    ∃ (s : State) (q : AdmReq) (tag : Nat) (n : NewSq), (q.mi = some tag) :=
  ⟨admS, ⟨0, 9, some 3⟩, 3, ⟨3, 1, 15, 1⟩, by decide⟩

set_option maxRecDepth 100000 in
theorem witness_delete_io_cq :
    ∃ (s : State) (q : AdmReq) (id : BitVec 16), (adminReady q false false s = true) ∧ (id ≠ 0 ∧ s.host.fns[q.fn].cqs.any (fun c => c.id == id.toNat) = true) ∧ (s.host.fns[q.fn].sqs.any (fun c => c.cq == id.toNat) = false) :=
  ⟨onFn admS fun x => { x with cqs := x.cqs ++ [{ id := 4, size := 8 }] }, ⟨0, 9, none⟩, 4, by decide⟩

set_option maxRecDepth 100000 in
theorem witness_create_io_cq :
    ∃ (s : State) (q : AdmReq) (n : NewCq), (adminReady q false false s = true) ∧ (n.id ≠ 0 ∧ n.id.toNat < s.host.fns[q.fn].pairs) ∧ (s.host.fns[q.fn].cqs.any (fun c => c.id == n.id.toNat) = false) ∧ (1 ≤ n.size.toNat ∧ n.size.toNat ≤ 0x3FFF) ∧ (n.vector.toNat < s.host.fns[q.fn].vectors) :=
  ⟨admS, ⟨0, 9, none⟩, ⟨3, 15, 2, true⟩, by decide⟩

set_option maxRecDepth 100000 in
theorem witness_get_log_page :
    ∃ (s : State) (q : AdmReq) (g : LogReq) (l : List Word), (adminReady q false false s = true) ∧ (g.off % 4 = 0 ∧ g.len % 4 = 0) ∧ (g.lid ≠ 0xC1) ∧ (s.logPage q.fn g = some l) ∧ (g.off ≤ 4 * l.length) ∧ (g.rae = true) :=
  ⟨admS, ⟨0, 9, none⟩, ⟨0x04, 0, 0, 0, 64, true⟩, List.replicate 1024 0, by refine ⟨by decide, by decide, by decide, rfl, by decide, by decide⟩⟩

set_option maxRecDepth 100000 in
theorem witness_get_log_page_read :
    ∃ (s : State) (q : AdmReq) (g : LogReq) (l : List Word), (adminReady q false false s = true) ∧ (g.off % 4 = 0 ∧ g.len % 4 = 0) ∧ (g.lid ≠ 0xC1) ∧ (s.logPage q.fn g = some l) ∧ (g.off ≤ 4 * l.length) ∧ (g.rae = false) ∧ (s.host.fns[q.fn].aers = []) :=
  ⟨admS, ⟨0, 9, none⟩, ⟨0x04, 0, 0, 0, 64, false⟩, List.replicate 1024 0, by refine ⟨by decide, by decide, by decide, rfl, by decide, by decide, by decide⟩⟩

set_option maxRecDepth 100000 in
theorem witness_get_log_page_recorder :
    ∃ (s : State) (q : AdmReq) (g : LogReq), (adminReady q false true s = true) ∧ (g.off % 4 = 0 ∧ g.len % 4 = 0) ∧ (g.lid = 0xC1) ∧ (g.off ≤ 25165824) :=
  ⟨admS, ⟨0, 9, none⟩, ⟨0xC1, 0, 0, 0, 64, true⟩, by decide⟩

set_option maxRecDepth 100000 in
theorem witness_identify :
    ∃ (s : State) (q : AdmReq) (i : IdentifyReq), (adminReady q false false s = true) ∧ (i.cns = 0x01) :=
  ⟨admS, ⟨0, 9, none⟩, ⟨1, 0, 0, 0⟩, by decide⟩

set_option maxRecDepth 100000 in
theorem witness_identify_absent :
    ∃ (s : State) (q : AdmReq) (tag : Nat) (i : IdentifyReq), (q.mi = some tag) ∧ (s.host.fns[q.fn].present = false) :=
  ⟨upS, ⟨5, 9, some 3⟩, 3, ⟨1, 0, 0, 0⟩, by decide⟩

set_option maxRecDepth 100000 in
theorem witness_identify_tunnelled :
    ∃ (s : State) (q : AdmReq) (tag : Nat) (i : IdentifyReq), (q.mi = some tag) ∧ (s.host.fns[q.fn].present = true) ∧ (s.host.fns[q.fn].en = true) ∧ (s.host.fns[q.fn].rdy = true) ∧ (s.host.fns[q.fn].shst = 0) ∧ (s.adminCtxs q.fn < 2) ∧ (i.cns = 0x01) :=
  ⟨admS, ⟨0, 9, some 3⟩, 3, ⟨1, 0, 0, 0⟩, by decide⟩

set_option maxRecDepth 100000 in
theorem witness_identify_namespace :
    ∃ (s : State) (q : AdmReq) (i : IdentifyReq) (n : Namespace), (adminReady q false false s = true) ∧ (i.cns = 0x00) ∧ (1 ≤ i.nsid.toNat ∧ i.nsid.toNat ≤ 16) ∧ (s.host.namespaces.find? (fun n => n.nsid == i.nsid.toNat) = some n) ∧ (n.attached.getLsbD q.fn.val = true) :=
  ⟨admS, ⟨0, 9, none⟩, ⟨0, 2, 0, 0⟩, ns1, by refine ⟨by decide, by decide, by decide, rfl, by decide⟩⟩

set_option maxRecDepth 100000 in
theorem witness_identify_active :
    ∃ (s : State) (q : AdmReq) (i : IdentifyReq), (adminReady q false false s = true) ∧ (i.cns = 0x02) :=
  ⟨admS, ⟨0, 9, none⟩, ⟨2, 0, 0, 0⟩, by decide⟩

set_option maxRecDepth 100000 in
theorem witness_identify_virtualisation :
    ∃ (s : State) (q : AdmReq) (i : IdentifyReq), (adminReady q false false s = true) ∧ (i.cns = 0x14 ∨ i.cns = 0x15) :=
  ⟨admS, ⟨0, 9, none⟩, ⟨0x15, 0, 0, 0⟩, by decide⟩

set_option maxRecDepth 100000 in
theorem witness_abort :
    ∃ (s : State) (q : AdmReq) (sq cid : BitVec 16) (x : Nat) (c : Ctx), (adminReady q false false s = true) ∧ (sq ≠ 0 ∨ s.host.fns[q.fn].aers.contains cid = false) ∧ (x < 4096) ∧ (s.q.ctxs.find? (fun p => p.2.fn == q.fn && p.2.sq == sq.toNat && p.2.sqe.cid == cid && !p.2.started && p.2.finished.isNone) = some (x, c)) :=
  ⟨{ admS with q := { admS.q with ctxs := [(5, credC), (6, movC)] } }, ⟨0, 9, none⟩, 1, 7, 5, credC, by refine ⟨by decide, by decide, by decide, rfl⟩⟩

set_option maxRecDepth 100000 in
theorem witness_abort_none :
    ∃ (s : State) (q : AdmReq) (sq cid : BitVec 16), (adminReady q false false s = true) ∧ (sq ≠ 0 ∨ s.host.fns[q.fn].aers.contains cid = false) ∧ (s.q.ctxs.any (fun p => p.2.fn == q.fn && p.2.sq == sq.toNat && p.2.sqe.cid == cid && !p.2.started && p.2.finished.isNone) = false) :=
  ⟨admS, ⟨0, 9, none⟩, 1, 7, by decide⟩

set_option maxRecDepth 100000 in
theorem witness_abort_event :
    ∃ (s : State) (q : AdmReq) (cid : BitVec 16), (adminReady q false false s = true) ∧ (s.host.fns[q.fn].aers.contains cid = true) :=
  ⟨onFn admS fun x => { x with aers := [3, 4] }, ⟨0, 9, none⟩, 4, by decide⟩

set_option maxRecDepth 100000 in
theorem witness_get_features :
    ∃ (s : State) (q : AdmReq) (fid : BitVec 8), (adminReady q false false s = true) ∧ (keptFeatures.contains fid.toNat = true) :=
  ⟨admS, ⟨0, 9, none⟩, 6, by decide⟩

set_option maxRecDepth 100000 in
theorem witness_asynchronous_event_request :
    ∃ (s : State) (q : AdmReq), (adminReady q true false s = true) ∧ (s.host.fns[q.fn].aers.length < 8) ∧ (s.host.fns[q.fn].events = []) :=
  ⟨admS, ⟨0, 9, none⟩, by decide⟩

set_option maxRecDepth 100000 in
theorem witness_asynchronous_event_request_event :
    ∃ (s : State) (q : AdmReq) (e : AsyncEvent), (adminReady q true false s = true) ∧ (s.host.fns[q.fn].aers = []) ∧ (s.host.fns[q.fn].events.find? (fun e => !s.host.fns[q.fn].masked.contains (e.type, e.logPage)) = some e) :=
  ⟨onFn admS fun x => { x with events := [⟨0, 1, 1⟩] }, ⟨0, 9, none⟩, ⟨0, 1, 1⟩, by refine ⟨by decide, by decide, rfl⟩⟩

set_option maxRecDepth 100000 in
theorem witness_keep_alive :
    ∃ (s : State) (q : AdmReq), (adminReady q true false s = true) :=
  ⟨admS, ⟨0, 9, none⟩, by decide⟩

set_option maxRecDepth 100000 in
theorem witness_device_self_test :
    ∃ (s : State) (q : AdmReq) (stc : Fin 16), (adminReady q false true s = true) ∧ (stc = 1 ∨ stc = 2) :=
  ⟨admS, ⟨0, 9, none⟩, 2, by decide⟩

/-! Clauses of `Obligations.AdminNamespaces`. -/

set_option maxRecDepth 100000 in
theorem witness_set_features :
    ∃ (s : State) (q : AdmReq) (fid : BitVec 8) (v : Word), (adminReady q false false s = true) ∧ (fid = 0x01 ∨ fid = 0x04 ∨ fid = 0x05 ∨ fid = 0x08 ∨ fid = 0x09 ∨ fid = 0x0A ∨ fid = 0x0B ∨ fid = 0x16 ∨ fid = 0x17 ∨ fid = 0x19) :=
  ⟨admS, ⟨0, 9, none⟩, 0x0B, 0x100, by decide⟩

set_option maxRecDepth 100000 in
theorem witness_set_features_saved :
    ∃ (s : State) (q : AdmReq) (fid : BitVec 8) (v : Word), (adminReady q false false s = true) ∧ (fid = 0x01 ∨ fid = 0x04 ∨ fid = 0x05 ∨ fid = 0x08 ∨ fid = 0x09 ∨ fid = 0x0A ∨ fid = 0x0B ∨ fid = 0x16 ∨ fid = 0x17 ∨ fid = 0x19) :=
  ⟨admS, ⟨0, 9, none⟩, 0x0B, 0x100, by decide⟩

set_option maxRecDepth 100000 in
theorem witness_set_features_power :
    ∃ (s : State) (q : AdmReq) (v : Word), (adminReady q false true s = true) ∧ (fld v 4 0 ≤ 2) :=
  ⟨admS, ⟨0, 9, none⟩, 2, by decide⟩

set_option maxRecDepth 100000 in
theorem witness_set_features_write_cache :
    ∃ (s : State) (q : AdmReq) (v : Word), (adminReady q false false s = true) :=
  ⟨admS, ⟨0, 9, none⟩, 0, by decide⟩

set_option maxRecDepth 100000 in
theorem witness_set_features_queues :
    ∃ (s : State) (q : AdmReq) (v : Word), (adminReady q false false s = true) ∧ (s.host.fns[q.fn].sqs.length ≤ 1 ∧ s.host.fns[q.fn].cqs.length ≤ 1) :=
  ⟨onFn admS fun x => { x with sqs := x.sqs.take 1, cqs := x.cqs.take 1 }, ⟨0, 9, none⟩, 0, by decide⟩

set_option maxRecDepth 100000 in
theorem witness_format_nvm :
    ∃ (s : State) (q : AdmReq) (n : FormatReq) (m : Namespace), (adminReady q false false s = true) ∧ (s.sanBlocks = none) ∧ (s.formatTargets q.fn n.nsid = [m]) ∧ (s.aloneOk q.fn [m] = true) ∧ (formatOk n.lbaf n.pi = true) ∧ (n.ses.toNat ≤ 2) ∧ (m.format = none) :=
  ⟨nsS, ⟨0, 9, none⟩, ⟨2, 1, 1, false, true, 2⟩, ns1, by decide⟩

set_option maxRecDepth 100000 in
theorem witness_namespace_create :
    ∃ (s : State) (q : AdmReq) (n : NsCreate) (i : Nat), (adminReady q false true s = true) ∧ (s.sanBlocks = none) ∧ ((List.range 16).find? (fun i => !(s.host.namespaces.any fun m => m.nsid == i + 1)) = some i) ∧ (n.csi = 0 ∧ n.size ≠ 0 ∧ n.size ≤ s.convFree) ∧ (formatOk n.lbaf n.pi = true) :=
  ⟨nsS, ⟨0, 9, none⟩, nsWant, 2, by refine ⟨by decide, by decide, rfl, by decide, by decide⟩⟩

set_option maxRecDepth 100000 in
theorem witness_namespace_create_zoned :
    ∃ (s : State) (q : AdmReq) (n : NsCreate) (i : Nat) (zs : List ZoneNo), (adminReady q false true s = true) ∧ (s.sanBlocks = none) ∧ ((List.range 16).find? (fun i => !(s.host.namespaces.any fun m => m.nsid == i + 1)) = some i) ∧ (n.csi = 2 ∧ n.size ≠ 0 ∧ n.nvmset.toNat ≤ 4 ∧ n.nvmset.toNat ≤ s.layout.engines) ∧ (formatOk n.lbaf n.pi = true) ∧ (s.takeZones n.nvmset.toNat ((n.size + zoneSize - 1) / zoneSize) = some zs) :=
  ⟨{ nsS with media := { nsS.media with zones := [(3, { zs := .empty })] }, host := { nsS.host with namespaces := [] } }, ⟨0, 9, none⟩, { nsWant with csi := 2, nvmset := 1 }, 0, [3], by refine ⟨by decide, by decide, rfl, by decide, by decide, ?_⟩; decide +kernel⟩

set_option maxRecDepth 100000 in
theorem witness_namespace_delete :
    ∃ (s : State) (q : AdmReq) (nsid : Word) (n : Namespace), (adminReady q false true s = true) ∧ (s.sanBlocks = none) ∧ (nsid ≠ 0xFFFFFFFF) ∧ (s.host.namespaces.find? (fun n => n.nsid == nsid.toNat) = some n) ∧ (n.format = none) :=
  ⟨nsS, ⟨0, 9, none⟩, 2, ns1, by refine ⟨by decide, by decide, by decide, rfl, by decide⟩⟩

set_option maxRecDepth 100000 in
theorem witness_namespace_attach :
    ∃ (s : State) (q : AdmReq) (nsid : Word) (fns : BitVec 16) (n : Namespace), (adminReady q false true s = true) ∧ (s.host.namespaces.find? (fun n => n.nsid == nsid.toNat) = some n) ∧ (s.controllersOk fns = true) ∧ (n.attached &&& fns = 0) ∧ (n.shared = true) :=
  ⟨{ nsS with host := { nsS.host with namespaces := [{ ns1 with attached := 0, shared := true }] } }, ⟨0, 9, none⟩, 2, 1, { ns1 with attached := 0, shared := true }, by refine ⟨by decide, rfl, by decide, by decide, by decide⟩⟩

set_option maxRecDepth 100000 in
theorem witness_namespace_detach :
    ∃ (s : State) (q : AdmReq) (nsid : Word) (fns : BitVec 16) (n : Namespace), (adminReady q false true s = true) ∧ (s.host.namespaces.find? (fun n => n.nsid == nsid.toNat) = some n) ∧ (s.controllersOk fns = true) ∧ (n.attached &&& fns = fns) :=
  ⟨nsS, ⟨0, 9, none⟩, 2, 1, ns1, by refine ⟨by decide, rfl, by decide, by decide⟩⟩

set_option maxRecDepth 100000 in
theorem witness_virtualization_management :
    ∃ (s : State) (q : AdmReq) (n : BitVec 16), (adminReady q false true s = true) ∧ (n.toNat ≤ s.pairsLeft 0) :=
  ⟨admS, ⟨0, 9, none⟩, 20, by decide⟩

set_option maxRecDepth 100000 in
theorem witness_virtualization_management_assign :
    ∃ (s : State) (q : AdmReq) (f : Fn) (c n : BitVec 16), (adminReady q false true s = true) ∧ (f ≠ 0 ∧ c.toNat = f.val + 1) ∧ (s.host.fns[f].online = false) ∧ (n.toNat ≤ 32768 ∧ n.toNat ≤ s.pairsLeft f) :=
  ⟨{ admS with host := { admS.host with fns := vmod admS.host.fns 3 fun x => { x with online := false } } }, ⟨0, 9, none⟩, 3, 4, 20, by decide⟩

set_option maxRecDepth 100000 in
theorem witness_virtualization_management_online :
    ∃ (s : State) (q : AdmReq) (f : Fn) (c n : BitVec 16), (adminReady q false true s = true) ∧ (f ≠ 0 ∧ c.toNat = f.val + 1) ∧ (2 ≤ s.host.fns[f].pairs) :=
  ⟨{ admS with host := { admS.host with fns := vmod admS.host.fns 3 fun x => { x with online := false, pairs := 4 } } }, ⟨0, 9, none⟩, 3, 4, 0, by decide⟩

set_option maxRecDepth 100000 in
theorem witness_virtualization_management_offline :
    ∃ (s : State) (q : AdmReq) (f : Fn) (c n : BitVec 16), (adminReady q false true s = true) ∧ (f ≠ 0 ∧ c.toNat = f.val + 1) :=
  ⟨{ admS with host := { admS.host with fns := vmod admS.host.fns 3 fun x => { x with present := true, en := true } } }, ⟨0, 9, none⟩, 3, 4, 0, by decide⟩

set_option maxRecDepth 100000 in
theorem witness_sanitize_crypto_erase :
    ∃ (s : State) (q : AdmReq) (ause : Bool), (adminReady q false true s = true) ∧ (s.sec.sanitise = none ∧ s.formatting = 0 ∧ s.sec.commit = none) ∧ (s.sec.sanFail = false) :=
  ⟨nsS, ⟨0, 9, none⟩, true, by decide⟩

set_option maxRecDepth 100000 in
theorem witness_sanitize_block_erase :
    ∃ (s : State) (q : AdmReq) (ause : Bool), (adminReady q false true s = true) ∧ (s.sec.sanitise = none ∧ s.formatting = 0 ∧ s.sec.commit = none) ∧ (s.sec.sanFail = false) :=
  ⟨nsS, ⟨0, 9, none⟩, false, by decide⟩

set_option maxRecDepth 100000 in
theorem witness_sanitize_exit_failure_mode :
    ∃ (s : State) (q : AdmReq), (adminReady q false true s = true) ∧ (s.sec.sanitise = none) ∧ (s.sec.sanFail = true → s.sec.sanUnrestricted = true) :=
  ⟨{ admS with sec := { admS.sec with sanFail := true, sanUnrestricted := true } }, ⟨0, 9, none⟩, by decide⟩

set_option maxRecDepth 100000 in
theorem witness_sanitize_overwrite :
    ∃ (s : State) (q : AdmReq), (adminReady q false true s = true) :=
  ⟨admS, ⟨0, 9, none⟩, by decide⟩

set_option maxRecDepth 100000 in
theorem witness_invalid_opcode :
    ∃ (s : State) (q : AdmReq) (opc : BitVec 8), (adminReady q false false s = true) :=
  ⟨admS, ⟨0, 9, none⟩, 0xEE, by decide⟩

set_option maxRecDepth 100000 in
theorem witness_sanitize_complete :
    ∃ (s : State) (ok : Bool) (x : Sanitise), (s.sec.sanitise = some x) ∧ (x.block = true → ok = true → x.next = Vector.replicate 24 none) :=
  ⟨{ admS with sec := { admS.sec with sanitise := some { block := true, ause := true } } }, false, { block := true, ause := true }, by
    skip
    · first | rfl | decide⟩

set_option maxRecDepth 100000 in
theorem witness_format_complete :
    ∃ (s : State) (f : Fn) (cid : BitVec 16) (ids : List Nat) (rest : List (Fn × BitVec 16 × Option Nat × List Nat)), (s.sec.fmtCmds = (f, cid, none, ids) :: rest) ∧ (s.pendingChanges = []) ∧ (s.oldPending (fun z => s.host.namespaces.any fun n => ids.contains n.nsid && n.zones.contains z) = false) :=
  ⟨fmtS, 0, 7, [2], [], by decide⟩

/-! Clauses of `Obligations.Exchanges`. -/

set_option maxRecDepth 100000 in
theorem witness_hetos_exchange :
    ∃ (s : State) (q : AdmReq) (h : HetosCmd), (adminReady q false false s = true) ∧ (s.het.exchanges.any (fun x => x.xid == h.xid) = false) ∧ (1 ≤ h.nump.toNat ∧ h.nump.toNat ≤ 64 ∧ h.cdw12.toNat % 32 = 0 ∧ h.cdw12.toNat % 4096 + 32 * h.nump.toNat ≤ 4096) ∧ (h.readOk = true) ∧ (s.het.active < 8) ∧ (assignedOps.contains (((packetsOf h.xid (.nvme q.fn) 1 (h.buffer.map (·.toNat))).map (·.1.toNat)).headD 0) = true) :=
  ⟨admS, ⟨0, 9, none⟩, ⟨20, 1, 0, 0, true, true, [0x00, 0x01]⟩, by decide +kernel⟩

set_option maxRecDepth 100000 in
theorem witness_hetos_exchange_wait :
    ∃ (s : State) (q : AdmReq) (h : HetosCmd), (adminReady q false false s = true) ∧ (s.het.exchanges.any (fun x => x.xid == h.xid) = false) ∧ (1 ≤ h.nump.toNat ∧ h.nump.toNat ≤ 64 ∧ h.cdw12.toNat % 32 = 0 ∧ h.cdw12.toNat % 4096 + 32 * h.nump.toNat ≤ 4096) ∧ (h.readOk = true) ∧ (8 ≤ s.het.active) :=
  ⟨xS ((List.range 8).map fun n => { exc n with running := true }), ⟨0, 9, none⟩, ⟨20, 1, 0, 0, true, true, [0x00, 0x01]⟩, by decide +kernel⟩

set_option maxRecDepth 100000 in
theorem witness_hetos_exchange_refused :
    ∃ (s : State) (q : AdmReq) (h : HetosCmd), (adminReady q false false s = true) ∧ (s.het.exchanges.any (fun x => x.xid == h.xid) = false) ∧ (h.nump.toNat = 0 ∨ 64 < h.nump.toNat ∨ h.cdw12.toNat % 32 ≠ 0 ∨ 4096 < h.cdw12.toNat % 4096 + 32 * h.nump.toNat) :=
  ⟨admS, ⟨0, 9, none⟩, ⟨20, 0, 0, 0, true, true, []⟩, by decide⟩

set_option maxRecDepth 100000 in
theorem witness_hetos_mctp_request :
    ∃ (s : State) (m : MctpReq), (s.het.exchanges.any (fun x => x.xid == m.xid) = false) ∧ (s.rst.rail12 = true) ∧ (requestSound m = true) ∧ (requestTaken m s = false) ∧ (s.het.active < 8) ∧ (assignedOps.contains (((packetsOf m.xid (requestSrc m) 1 ((requestBytes m).drop 8)).map (·.1.toNat)).headD 0) = true) :=
  ⟨admS, mctpR, by decide +kernel⟩

set_option maxRecDepth 100000 in
theorem witness_hetos_mctp_request_wait :
    ∃ (s : State) (m : MctpReq), (s.het.exchanges.any (fun x => x.xid == m.xid) = false) ∧ (s.rst.rail12 = true) ∧ (requestSound m = true) ∧ (requestTaken m s = false) ∧ (8 ≤ s.het.active) :=
  ⟨xS ((List.range 8).map fun n => { exc n with running := true }), mctpR, by decide +kernel⟩

set_option maxRecDepth 100000 in
theorem witness_hetos_mctp_request_malformed :
    ∃ (s : State) (m : MctpReq), (s.het.exchanges.any (fun x => x.xid == m.xid) = false) ∧ (s.rst.rail12 = true) ∧ (requestSound m = false ∨ requestTaken m s = true) :=
  ⟨admS, { mctpR with msg := mctpR.msg.set 4 9 }, by decide +kernel⟩

set_option maxRecDepth 100000 in
theorem witness_exchange_start :
    ∃ (s : State) (x : Exchange), (s.het.exchanges = [x]) ∧ (x.running = false ∧ x.dropped = false ∧ x.stopped = false) ∧ (assignedOps.contains ((x.todo.map (·.1.toNat)).headD 0) = true) ∧ (s.het.waiting = []) :=
  ⟨xS [exc 4], exc 4, by decide⟩

set_option maxRecDepth 100000 in
theorem witness_mod_identify :
    ∃ (s : State) (p : Packet), (ready ⟨0x0100, [5], .read⟩ p s = true) :=
  ⟨upS, pkt 5 0, by decide⟩

set_option maxRecDepth 100000 in
theorem witness_mod_echo :
    ∃ (s : State) (p : Packet), (ready ⟨0x0101, [5], .read⟩ p s = true) :=
  ⟨upS, pkt 5 0 1 2 3 4 5 6, by decide⟩

set_option maxRecDepth 100000 in
theorem witness_mod_layout :
    ∃ (s : State) (p : Packet) (n : Nat), (ready ⟨0x0102, [5], .config⟩ p s = true) ∧ (p.w 5 = 0x4C41594F) ∧ ((p.w 0).toNat = n ∧ n ≤ 2) ∧ ((List.range 4).all (fun a => decide (n + 2 ≤ a) || decide (1 ≤ (p.w (a + 1)).toNat ∧ (p.w (a + 1)).toNat ≤ headLimit (n + 2))) = true) :=
  ⟨upS, pkt 5 0 1 8 7 6 0 0x4C41594F, 1, by decide⟩

set_option maxRecDepth 100000 in
theorem witness_hetos_status :
    ∃ (s : State) (p : Packet) (x : Fin 3), (ready ⟨0x0103, [5], .read⟩ p s = true) ∧ ((p.w 0).toNat = x.val) :=
  ⟨upS, pkt 5 0 2, 2, by decide⟩

set_option maxRecDepth 100000 in
theorem witness_hetos_clear :
    ∃ (s : State) (p : Packet) (x : Fin 3), (ready ⟨0x0104, [5], .action⟩ p s = true) ∧ ((p.w 0).toNat = x.val) :=
  ⟨upS, pkt 5 0 2 0xF, 2, by decide⟩

/-! Clauses of `Obligations.ManagementInterface`. -/

set_option maxRecDepth 100000 in
theorem witness_read_nvme_mi_data_structure :
    ∃ (s : State) (m : MiReq), (s.rst.rail12 = true) ∧ (m.inBand = false ∨ s.host.fns[(0 : Fn)].present = true ∧ s.host.fns[(0 : Fn)].en = true ∧ s.host.fns[(0 : Fn)].rdy = true) ∧ (s.host.fns[m.ctlr].present = true) :=
  ⟨admS, miR, by decide⟩

set_option maxRecDepth 100000 in
theorem witness_read_nvme_mi_data_structure_dark :
    ∃ (s : State) (m : MiReq) (d : BitVec 8), (s.rst.rail12 = false) :=
  ⟨darkS, miR, 0, by decide⟩

set_option maxRecDepth 100000 in
theorem witness_read_nvme_mi_data_structure_reserved :
    ∃ (s : State) (m : MiReq) (d : BitVec 8), (s.rst.rail12 = true) ∧ (m.inBand = false ∨ s.host.fns[(0 : Fn)].present = true ∧ s.host.fns[(0 : Fn)].en = true ∧ s.host.fns[(0 : Fn)].rdy = true) ∧ (4 < d.toNat) :=
  ⟨admS, miR, 9, by decide⟩

set_option maxRecDepth 100000 in
theorem witness_nvm_subsystem_health_status_poll :
    ∃ (s : State) (m : MiReq) (clear : Bool), (s.rst.rail12 = true) ∧ (m.inBand = false ∨ s.host.fns[(0 : Fn)].present = true ∧ s.host.fns[(0 : Fn)].en = true ∧ s.host.fns[(0 : Fn)].rdy = true) ∧ (s.host.fns[m.ctlr].present = true) :=
  ⟨admS, miR, true, by decide⟩

set_option maxRecDepth 100000 in
theorem witness_controller_health_status_poll :
    ∃ (s : State) (m : MiReq) (clear : Bool), (s.rst.rail12 = true) ∧ (m.inBand = false ∨ s.host.fns[(0 : Fn)].present = true ∧ s.host.fns[(0 : Fn)].en = true ∧ s.host.fns[(0 : Fn)].rdy = true) ∧ (s.host.fns[m.ctlr].present = true) :=
  ⟨admS, miR, true, by decide⟩

set_option maxRecDepth 100000 in
theorem witness_configuration_set :
    ∃ (s : State) (m : MiReq) (v : Word), (s.rst.rail12 = true) ∧ (m.inBand = false ∨ s.host.fns[(0 : Fn)].present = true ∧ s.host.fns[(0 : Fn)].en = true ∧ s.host.fns[(0 : Fn)].rdy = true) ∧ (s.host.fns[m.ctlr].present = true) ∧ (1 ≤ v.toNat ∧ v.toNat ≤ 3) :=
  ⟨admS, miR, 2, by decide⟩

set_option maxRecDepth 100000 in
theorem witness_configuration_set_health :
    ∃ (s : State) (m : MiReq) (v : Word), (s.rst.rail12 = true) ∧ (m.inBand = false ∨ s.host.fns[(0 : Fn)].present = true ∧ s.host.fns[(0 : Fn)].en = true ∧ s.host.fns[(0 : Fn)].rdy = true) ∧ (s.host.fns[m.ctlr].present = true) :=
  ⟨admS, miR, 0x20, by decide⟩

set_option maxRecDepth 100000 in
theorem witness_configuration_get :
    ∃ (s : State) (m : MiReq) (id : BitVec 8), (s.rst.rail12 = true) ∧ (m.inBand = false ∨ s.host.fns[(0 : Fn)].present = true ∧ s.host.fns[(0 : Fn)].en = true ∧ s.host.fns[(0 : Fn)].rdy = true) ∧ (s.host.fns[m.ctlr].present = true) ∧ (id = 1 ∨ id = 3) :=
  ⟨admS, miR, 3, by decide⟩

set_option maxRecDepth 100000 in
theorem witness_vpd_read :
    ∃ (s : State) (m : MiReq) (off len : Nat), (s.rst.rail12 = true) ∧ (m.inBand = false ∨ s.host.fns[(0 : Fn)].present = true ∧ s.host.fns[(0 : Fn)].en = true ∧ s.host.fns[(0 : Fn)].rdy = true) ∧ (s.host.fns[m.ctlr].present = true) ∧ (off + len ≤ 256) :=
  ⟨admS, miR, 4, 8, by decide⟩

set_option maxRecDepth 100000 in
theorem witness_vpd_write :
    ∃ (s : State) (m : MiReq) (off : Nat) (b : Byte), (s.rst.rail12 = true) ∧ (m.inBand = false ∨ s.host.fns[(0 : Fn)].present = true ∧ s.host.fns[(0 : Fn)].en = true ∧ s.host.fns[(0 : Fn)].rdy = true) ∧ (s.host.fns[m.ctlr].present = true) ∧ (off < 256) :=
  ⟨admS, miR, 4, 8, by decide⟩

/-! Clauses of `Obligations.MemoryEvents`. -/

set_option maxRecDepth 100000 in
theorem witness_cmb_write_word :
    ∃ (s : State) (f : Fn) (off : Nat) (bytes : List Byte) (b n : Nat), (s.cmbOf f = some (b, n)) ∧ (s.host.fns[f].present = true) ∧ (s.cmbOn f = true) ∧ (off + bytes.length ≤ n) ∧ (s.mem.refill.contains f = false) ∧ (off % 8 = 0) ∧ (bytes.length = 8) ∧ (Memory.wf s.mem.dram = true) :=
  ⟨cmbS, 0, 8, [1, 2, 3, 4, 5, 6, 7, 8], 536870912, 268435456, by refine ⟨rfl, ?_⟩; decide⟩

set_option maxRecDepth 100000 in
theorem witness_cmb_write_deferred :
    ∃ (s : State) (f : Fn) (off : Nat) (bytes : List Byte) (b n : Nat), (s.cmbOf f = some (b, n)) ∧ (s.host.fns[f].present = true) ∧ (s.cmbOn f = true) ∧ (off + bytes.length ≤ n) ∧ (s.mem.refill.contains f = true) :=
  ⟨onMem cmbS fun m => { m with refill := [0] }, 0, 8, [1, 2], 536870912, 268435456, by refine ⟨rfl, ?_⟩; decide⟩

set_option maxRecDepth 100000 in
theorem witness_cmb_read :
    ∃ (s : State) (f : Fn) (off len b n : Nat), (s.cmbOf f = some (b, n)) ∧ (s.host.fns[f].present = true) ∧ (s.cmbOn f = true) ∧ (0 < len ∧ off + len ≤ n) ∧ (s.mem.refill.contains f = false) ∧ ((List.range ((b + off + len - 1) / 8 + 1 - (b + off) / 8)).all (fun i => (Memory.read s.mem.dram ((b + off) / 8 + i)).kind == .none) = true) :=
  ⟨cmbS, 0, 0, 16, 536870912, 268435456, by refine ⟨rfl, ?_⟩; decide⟩

set_option maxRecDepth 100000 in
theorem witness_cmb_read_poison :
    ∃ (s : State) (f : Fn) (off len b n : Nat), (s.cmbOf f = some (b, n)) ∧ (s.host.fns[f].present = true) ∧ (s.cmbOn f = true) ∧ (0 < len ∧ off + len ≤ n) ∧ (s.mem.refill.contains f = true) :=
  ⟨onMem cmbS fun m => { m with refill := [0] }, 0, 0, 16, 536870912, 268435456, by refine ⟨rfl, ?_⟩; decide⟩

set_option maxRecDepth 100000 in
theorem witness_cmb_refill_done :
    ∃ (s : State) (f : Fn), (s.mem.refill.contains f = true) :=
  ⟨onMem cmbS fun m => { m with refill := [0, 2] }, 0, by decide⟩

set_option maxRecDepth 100000 in
theorem witness_dram_arbitration :
    ∃ (s : State) (c : Fin 2) (asks : List DramAsk) (errs : List BitErrors) (q : DramReq), ((s.askDram c asks).mem.best c = some q) ∧ (q.data = none) ∧ ((List.range 8).all (fun i => !(Memory.read (errs.foldl (fun u e => u.disturb (q.addr / 8 + e.word.val) e) s).mem.dram (q.addr / 8 + i)).kind.bad) = true) :=
  ⟨brstS, 0, [], [], { who := 3, at_ := 5, addr := 64 }, by
    skip
    · first | rfl | decide⟩

set_option maxRecDepth 100000 in
theorem witness_dram_arbitration_idle :
    ∃ (s : State) (c : Fin 2) (errs : List BitErrors), (s.mem.best c = none) :=
  ⟨upS, 0, [], by decide⟩

set_option maxRecDepth 100000 in
theorem witness_dram_arbitration_write :
    ∃ (s : State) (c : Fin 2) (asks : List DramAsk) (q : DramReq) (off : Nat) (bytes : List Byte), ((s.askDram c asks).mem.best c = some q) ∧ (q.data = some (off, bytes)) ∧ ((q.addr + off) % 8 = 0) ∧ (bytes.length = 8) ∧ (Memory.wf s.mem.dram = true) :=
  ⟨upS, 0, [{ who := 3, addr := 64, data := some (8, [1, 2, 3, 4, 5, 6, 7, 8]) }],
    { who := 3, at_ := 0, addr := 64, data := some (8, [1, 2, 3, 4, 5, 6, 7, 8]) }, 8, [1, 2, 3, 4, 5, 6, 7, 8], by
    refine ⟨?_, ?_, ?_, ?_, ?_⟩ <;> first | rfl | decide⟩

set_option maxRecDepth 100000 in
theorem witness_ecc_writeback :
    ∃ (s : State) (c : Fin 2) (w : Nat) (v : EccWord), (s.mem.chan[c].writebacks.head? = some (w, v)) ∧ (Memory.wf s.mem.dram = true) :=
  ⟨onMem upS fun m => { m with dram := [(9, ceW)], chan := vmod m.chan 0 fun c => { c with writebacks := [(9, EccWord.fresh 7)] } }, 0, 9, EccWord.fresh 7, by refine ⟨rfl, ?_⟩; decide⟩

set_option maxRecDepth 100000 in
theorem witness_scrub_burst :
    ∃ (s : State) (c : Fin 2), (s.mem.scrubPos < dramWindow) :=
  ⟨upS, 1, by decide⟩

set_option maxRecDepth 100000 in
theorem witness_scrub_burst_wrap :
    ∃ (s : State), (s.mem.scrubPos = chanWords - 8) :=
  ⟨onMem upS fun m => { m with scrubPos := 1073741816 }, by decide⟩

set_option maxRecDepth 100000 in
theorem witness_sram_scrub_pass :
    ∃ (s : State) (r : MemRegion) (found : List ScrubFind), (8 ≤ r.val) ∧ (found.all (fun x => x.word.kind == .none) = true) :=
  ⟨upS, 9, [⟨5, EccWord.fresh 3⟩], by decide⟩

set_option maxRecDepth 100000 in
theorem witness_sram_scrub_pass_corrected :
    ∃ (s : State) (r : MemRegion) (x : ScrubFind), (8 ≤ r.val) ∧ (x.word.kind = .ce) :=
  ⟨upS, 9, ⟨5, ceW⟩, by decide⟩

set_option maxRecDepth 100000 in
theorem witness_sram_scrub_pass_uncorrectable :
    ∃ (s : State) (x : ScrubFind), (x.word.kind.bad = true) :=
  ⟨upS, ⟨5, badW⟩, by decide⟩

set_option maxRecDepth 100000 in
theorem witness_dram_row_repair :
    ∃ (s : State) (c : Fin 2) (d row : Nat) (rest : List (Nat × Nat)), (s.mem.chan[c].marked = (d, row) :: rest) ∧ (s.repairLeft c d row = true) ∧ (Memory.wf s.mem.dram = true) :=
  ⟨markedS, 0, 4, 0, [], by decide⟩

set_option maxRecDepth 100000 in
theorem witness_dram_row_repair_none :
    ∃ (s : State) (c : Fin 2) (d row : Nat) (rest : List (Nat × Nat)), (s.mem.chan[c].marked = (d, row) :: rest) ∧ (s.repairLeft c d row = false) :=
  ⟨{ markedS with nor := { markedS.nor with repairs := [(0, 4, 0)] } }, 0, 4, 0, [], by refine ⟨rfl, ?_⟩; unfold State.repairLeft; simp [markedS, onMem]⟩

/-! Clauses of `Obligations.MemoryPackets`. -/

set_option maxRecDepth 100000 in
theorem witness_mem_status :
    ∃ (s : State) (p : Packet), (ready ⟨0x0210, [5], .read⟩ p s = true) :=
  ⟨upS, pkt 5 0, by decide⟩

set_option maxRecDepth 100000 in
theorem witness_mem_config :
    ∃ (s : State) (p : Packet), (ready ⟨0x0211, [5], .config⟩ p s = true) ∧ ((p.w 3).getLsbD 31 = false) :=
  ⟨upS, pkt 5 0 0x180A3000 0x30180C00 0x000167BA 0x3 0x40010000, by decide⟩

set_option maxRecDepth 100000 in
theorem witness_mem_config_bucket :
    ∃ (s : State) (p : Packet) (r : MemRegion), (ready ⟨0x0211, [5], .config⟩ p s = true) ∧ ((p.w 3).getLsbD 31 = true) ∧ (fld (p.w 3) 3 0 = r.val) ∧ (s.mem.bkt[r].level < 2) :=
  ⟨upS, pkt 5 0 0x180A3000 0x30180C00 0x000167BA 0x80000003 0x40000010, 3, by decide⟩

set_option maxRecDepth 100000 in
theorem witness_mem_scrub_restart :
    ∃ (s : State) (p : Packet), (ready ⟨0x0212, [5], .action⟩ p s = true) ∧ ((p.w 0).getLsbD 0 = true) :=
  ⟨onMem upS fun m => { m with scrubPos := 64 }, pkt 5 0 1, by decide⟩

set_option maxRecDepth 100000 in
theorem witness_mem_scrub_sram :
    ∃ (s : State) (p : Packet), (ready ⟨0x0212, [5], .action⟩ p s = true) ∧ ((p.w 0).getLsbD 0 = false) :=
  ⟨upS, pkt 5 0 2, by decide⟩

set_option maxRecDepth 100000 in
theorem witness_mem_repair :
    ∃ (s : State) (p : Packet) (c : Fin 2), (ready ⟨0x0213, [5], .action⟩ p s = true) ∧ (p.w 2 = 0x52455052) ∧ ((p.w 0).toNat = c.val) ∧ ((p.w 1).toNat < chanWords) ∧ (s.mem.repairBusy = false) :=
  ⟨upS, pkt 5 0 1 77 0x52455052, 1, by decide⟩

set_option maxRecDepth 100000 in
theorem witness_mem_repair_sram :
    ∃ (s : State) (p : Packet), (ready ⟨0x0213, [5], .action⟩ p s = true) ∧ (p.w 2 = 0x52455052) ∧ ((p.w 0).toNat = 2) ∧ ((p.w 1).toNat < 6291456) ∧ (s.mem.repairBusy = false) :=
  ⟨upS, pkt 5 0 2 77 0x52455052, by decide⟩

set_option maxRecDepth 100000 in
theorem witness_mem_diag_read :
    ∃ (s : State) (p : Packet) (c : Fin 2), (ready ⟨0x0214, [5], .action⟩ p s = true) ∧ (fld (p.w 0) 9 8 = c.val) ∧ ((p.w 0).getLsbD 0 = false) ∧ (dramWindow ≤ (p.w 1).toNat ∧ (p.w 1).toNat < dramWindow + 131072) :=
  ⟨upS, pkt 5 0 0x100 352190465, 1, by decide⟩

set_option maxRecDepth 100000 in
theorem witness_mem_diag_write :
    ∃ (s : State) (p : Packet) (c : Fin 2), (ready ⟨0x0214, [5], .action⟩ p s = true) ∧ (fld (p.w 0) 9 8 = c.val) ∧ ((p.w 0).getLsbD 0 = true) ∧ (dramWindow ≤ (p.w 1).toNat ∧ (p.w 1).toNat < dramWindow + 131072) ∧ ((p.w 5).getLsbD 0 = true) ∧ (Memory.wf s.mem.dram = true) :=
  ⟨upS, pkt 5 0 0x101 352190465 7 0 9 1, 1, by decide⟩

set_option maxRecDepth 100000 in
theorem witness_mem_diag_write_computed :
    ∃ (s : State) (p : Packet), (ready ⟨0x0214, [5], .action⟩ p s = true) ∧ (fld (p.w 0) 9 8 = 2) ∧ ((p.w 0).getLsbD 0 = true) ∧ (sramWindow ≤ (p.w 1).toNat ∧ (p.w 1).toNat < sramWindow + 512) ∧ ((p.w 5).getLsbD 0 = false) ∧ (Memory.localWf s.mem.local_ = true) :=
  ⟨upS, pkt 5 0 0x201 6176257 7 0 9 0, by decide⟩

set_option maxRecDepth 100000 in
theorem witness_mem_clear :
    ∃ (s : State) (p : Packet) (r : MemRegion), (ready ⟨0x0215, [5], .action⟩ p s = true) ∧ ((p.w 1).toNat = r.val) :=
  ⟨upS, pkt 5 0 0x1F 3, 3, by decide⟩

/-! Clauses of `Obligations.FirmwareAndSecurity`. -/

set_option maxRecDepth 100000 in
theorem witness_security_receive :
    ∃ (s : State) (q : AdmReq) (nsid : Word), (adminReady q false false s = true) ∧ (s.aloneOk q.fn (if nsid = 0 ∨ nsid = 0xFFFFFFFF then s.nsAttached q.fn else s.host.namespaces.filter fun n => n.nsid == nsid.toNat) = true) :=
  ⟨admS, ⟨0, 9, none⟩, 0, by decide⟩

set_option maxRecDepth 100000 in
theorem witness_security_receive_list :
    ∃ (s : State) (q : AdmReq) (nsid : Word) (comId : BitVec 16), (adminReady q false false s = true) ∧ (s.aloneOk q.fn (if nsid = 0 ∨ nsid = 0xFFFFFFFF then s.nsAttached q.fn else s.host.namespaces.filter fun n => n.nsid == nsid.toNat) = true) :=
  ⟨admS, ⟨0, 9, none⟩, 0, 0, by decide⟩

set_option maxRecDepth 100000 in
theorem witness_firmware_image_download :
    ∃ (s : State) (q : AdmReq) (d : Download), (adminReady q false true s = true) ∧ (s.sec.commit = none) ∧ (d.off % 4096 = 0 ∧ d.len % 4096 = 0 ∧ d.off + d.len ≤ 16777216) :=
  ⟨admS, ⟨0, 9, none⟩, ⟨4096, 8192, imgO⟩, by decide⟩

set_option maxRecDepth 100000 in
theorem witness_fw_commit_write_slot :
    ∃ (s : State) (q : AdmReq) (slot : Fin 8) (n : Nat) (o : SignedObj), (adminReady q false true s = true) ∧ (s.sec.commit = none) ∧ (s.namedSlot slot = some n) ∧ (n ≠ s.sec.runSlot) ∧ (s.sec.staged = some o) :=
  ⟨stgS imgO, ⟨0, 9, none⟩, 0, 0, imgO, by refine ⟨by decide, by decide, rfl, by decide, rfl⟩⟩

set_option maxRecDepth 100000 in
theorem witness_fw_commit_write_activate_next :
    ∃ (s : State) (q : AdmReq) (slot : Fin 8) (n : Nat) (o : SignedObj), (adminReady q false true s = true) ∧ (s.sec.commit = none) ∧ (s.namedSlot slot = some n) ∧ (n ≠ s.sec.runSlot) ∧ (s.sec.staged = some o) :=
  ⟨stgS imgO, ⟨0, 9, none⟩, 1, 0, imgO, by refine ⟨by decide, by decide, rfl, by decide, rfl⟩⟩

set_option maxRecDepth 100000 in
theorem witness_fw_commit_activate_slot :
    ∃ (s : State) (q : AdmReq) (slot : Fin 8) (n : Nat) (o : SignedObj), (adminReady q false true s = true) ∧ (s.sec.commit = none) ∧ (s.namedSlot slot = some n) ∧ (vget s.nor.slots n none = some o) :=
  ⟨stgS imgO, ⟨0, 9, none⟩, 1, 0, imgO, by refine ⟨by decide, by decide, rfl, rfl⟩⟩

set_option maxRecDepth 100000 in
theorem witness_fw_commit_activate_now :
    ∃ (s : State) (q : AdmReq) (slot : Fin 8) (n : Nat) (o : SignedObj), (adminReady q false true s = true) ∧ (s.sec.commit = none ∧ s.sec.sanitise = none ∧ s.formatting = 0) ∧ (s.namedSlot slot = some n) ∧ (n ≠ s.sec.runSlot) ∧ (s.sec.staged = some o) ∧ (o.otype = 1) :=
  ⟨stgS imgO, ⟨0, 9, none⟩, 1, 0, imgO, by refine ⟨by decide, by decide, rfl, by decide, rfl, by decide⟩⟩

set_option maxRecDepth 100000 in
theorem witness_fw_commit_activate_now_patch :
    ∃ (s : State) (q : AdmReq) (slot : Fin 8) (o : SignedObj), (adminReady q false true s = true) ∧ (s.sec.commit = none ∧ s.sec.sanitise = none ∧ s.formatting = 0) ∧ (s.sec.staged = some o) ∧ (o.otype = 2) :=
  ⟨stgS patO, ⟨0, 9, none⟩, 0, patO, by
    refine ⟨?_, ?_, ?_, ?_⟩
    · decide
    · decide
    · first | rfl | decide
    · decide⟩

set_option maxRecDepth 100000 in
theorem witness_firmware_slot_programmed :
    ∃ (s : State) (c : Commit) (selfTestOk : Bool), (s.sec.commit = some c) ∧ (c.obj.otype = 1 ∧ s.sec.actState = .programming ∧ c.orphan = false) ∧ (c.mi = none) ∧ (c.action = 0 ∨ c.action = 1) ∧ (s.rst.recovery = false) :=
  ⟨comS 1, { obj := imgO, slot := 0, action := 1, fn := 0, cid := 9 }, false, by refine ⟨rfl, by decide, by decide, by decide⟩⟩

set_option maxRecDepth 100000 in
theorem witness_firmware_slot_programmed_activation :
    ∃ (s : State) (c : Commit), (s.sec.commit = some c) ∧ (c.obj.otype = 1 ∧ s.sec.actState = .programming) ∧ (c.action = 3) :=
  ⟨comS 3, { obj := imgO, slot := 0, action := 3, fn := 0, cid := 9 }, by refine ⟨rfl, by decide, by decide⟩⟩

set_option maxRecDepth 100000 in
theorem witness_firmware_slot_programmed_failure :
    ∃ (s : State) (c : Commit) (selfTestOk : Bool), (s.sec.commit = some c) ∧ (c.obj.otype = 1 ∧ s.sec.actState = .programming ∧ c.orphan = false) ∧ (c.mi = none) :=
  ⟨comS 3, { obj := imgO, slot := 0, action := 3, fn := 0, cid := 9 }, false, by refine ⟨rfl, by decide⟩⟩

set_option maxRecDepth 100000 in
theorem witness_fw_activation_pause_end :
    ∃ (s : State) (c : Commit), (s.sec.pausing = true) ∧ (s.sec.commit = some c) ∧ (c.action = 3 ∧ c.obj.otype = 1 ∧ c.orphan = false) ∧ (c.mi = none) :=
  ⟨onSec (comS 3) fun x => { x with pausing := true }, { obj := imgO, slot := 0, action := 3, fn := 0, cid := 9 }, by refine ⟨by decide, rfl, by decide⟩⟩

set_option maxRecDepth 100000 in
theorem witness_image_retire :
    ∃ (s : State) (n k : Nat), (s.sec.retiring = some (n, k)) ∧ (s.sec.pausing = false) ∧ (s.q.ctxs.any (fun p => p.2.started && decide (p.2.startNo ≤ n)) = false) :=
  ⟨retS, 5, 6, by refine ⟨rfl, by decide, by decide⟩⟩

set_option maxRecDepth 100000 in
theorem witness_debug_unlock_expiry :
    ∃ (s : State), (s.sec.dbgUnlock = true) ∧ (s.sec.dbgExp < s.rst.poh / 1024) :=
  ⟨onRst dbgS fun r => { r with poh := 1024 }, by decide⟩

set_option maxRecDepth 100000 in
theorem witness_sec_status :
    ∃ (s : State) (p : Packet), (ready ⟨0x0220, [5], .read⟩ p s = true) :=
  ⟨upS, pkt 5 0, by decide⟩

set_option maxRecDepth 100000 in
theorem witness_sec_cert :
    ∃ (s : State) (p : Packet) (which : Nat) (m : BitVec 384), (ready ⟨0x0221, [4, 5], .read⟩ p s = true) ∧ (s.certOf p (fld (p.w 0) 2 0) (fld (p.w 0) 18 16) = some (which, m)) :=
  ⟨onSec upS fun x => { x with aliasGens := [(1, 5)] }, pkt 5 0 2 3, 2, 5, by refine ⟨by decide, rfl⟩⟩

set_option maxRecDepth 100000 in
theorem witness_sec_lock :
    ∃ (s : State) (p : Packet), (ready ⟨0x0222, [5], .action⟩ p s = true) ∧ (p.w 0 = 0) :=
  ⟨dbgS, pkt 5 0 0, by decide⟩

set_option maxRecDepth 100000 in
theorem witness_sec_unlock :
    ∃ (s : State) (p : Packet) (o : SignedObj), (ready ⟨0x0222, [5], .action⟩ p s = true) ∧ (p.w 0 = 1) ∧ (s.sec.staged = some o) ∧ (o.otype = 3) :=
  ⟨onSec upS fun x => { x with staged := some { otype := 3 } }, pkt 5 0 1, { otype := 3 }, by refine ⟨by decide, by decide, rfl, by decide⟩⟩

set_option maxRecDepth 100000 in
theorem witness_sec_rollback :
    ∃ (s : State) (p : Packet) (o : SignedObj), (ready ⟨0x0223, [5], .action⟩ p s = true) ∧ (p.w 0 = 0x524F4C4C) ∧ (s.sec.staged = some o) ∧ (o.otype = 4) :=
  ⟨onSec upS fun x => { x with staged := some { otype := 4 } }, pkt 5 0 0x524F4C4C, { otype := 4 }, by refine ⟨by decide, by decide, rfl, by decide⟩⟩

/-! Clauses of `Obligations.SpdmResponders`. -/

set_option maxRecDepth 100000 in
theorem witness_get_version :
    ∃ (s : State) (r : SpdmIx), (s.responder r = true) ∧ (s.sec.spdm[r].resynch = false) :=
  ⟨spdS .negotiated, 0, by decide⟩

set_option maxRecDepth 100000 in
theorem witness_get_version_resynchronise :
    ∃ (s : State) (r : SpdmIx), (s.responder r = true) ∧ (s.sec.spdm[r].resynch = true) ∧ (s.sec.spdm[r].phase ≠ .start) :=
  ⟨onSec (spdS .negotiated) fun x => { x with spdm := vmod x.spdm 0 fun y => { y with resynch := true } }, 0, by decide⟩

set_option maxRecDepth 100000 in
theorem witness_get_capabilities :
    ∃ (s : State) (r : SpdmIx), (spdmReady r .version s = true) :=
  ⟨spdS .version, 0, by decide⟩

set_option maxRecDepth 100000 in
theorem witness_negotiate_algorithms :
    ∃ (s : State) (r : SpdmIx), (spdmReady r .capabilities s = true) :=
  ⟨spdS .capabilities, 0, by decide⟩

set_option maxRecDepth 100000 in
theorem witness_negotiate_algorithms_refused :
    ∃ (s : State) (r : SpdmIx) (n : SpdmAlgs), (spdmReady r .capabilities s = true) ∧ (n.ed25519 = false ∨ n.sha384 = false ∨ n.secp384r1 = false ∨ n.aes256gcm = false) :=
  ⟨spdS .capabilities, 0, ⟨true, false, true, true⟩, by decide⟩

set_option maxRecDepth 100000 in
theorem witness_get_digests :
    ∃ (s : State) (r : SpdmIx) (i : Identity), (spdmReady r .negotiated s = true) ∧ (s.slotIdentity r 0 = some i) ∧ (s.slotIdentity r 1 = none) :=
  ⟨spdM, 16, .module, by refine ⟨by decide, rfl, rfl⟩⟩

set_option maxRecDepth 100000 in
theorem witness_get_certificate :
    ∃ (s : State) (r : SpdmIx) (slot : Fin 8) (off len : BitVec 16) (i : Identity), (spdmReady r .negotiated s = true) ∧ (s.slotIdentity r slot.val = some i) :=
  ⟨spdS .negotiated, 0, 0, 0, 40, .engine 0, by refine ⟨by decide, rfl⟩⟩

set_option maxRecDepth 100000 in
theorem witness_challenge :
    ∃ (s : State) (r : SpdmIx) (slot : Fin 8) (meas : BitVec 8) (nonce : BitVec 256) (i : Identity) (m : List Nat), (spdmReady r .negotiated s = true) ∧ (s.slotIdentity r slot.val = some i) ∧ (s.measureSummary r meas.toNat = some m) :=
  ⟨spdS .negotiated, 0, 0, 0, 5, .engine 0, [], by refine ⟨by decide, rfl, rfl⟩⟩

set_option maxRecDepth 100000 in
theorem witness_get_measurements :
    ∃ (s : State) (r : SpdmIx) (op : BitVec 8) (slot : Fin 8) (nonce : BitVec 256), (spdmReady r .negotiated s = true) ∧ (1 ≤ op.toNat ∧ op.toNat ≤ 9) :=
  ⟨spdS .negotiated, 0, 4, 0, 5, by decide⟩

set_option maxRecDepth 100000 in
theorem witness_get_measurements_number :
    ∃ (s : State) (r : SpdmIx) (slot : Fin 8) (nonce : BitVec 256), (spdmReady r .negotiated s = true) :=
  ⟨spdS .negotiated, 0, 0, 5, by decide⟩

set_option maxRecDepth 100000 in
theorem witness_get_measurements_signed :
    ∃ (s : State) (r : SpdmIx) (op : BitVec 8) (slot : Fin 8) (nonce : BitVec 256) (i : Identity), (spdmReady r .negotiated s = true) ∧ (op.toNat ≤ 9 ∨ op.toNat = 255) ∧ (s.slotIdentity r slot.val = some i) :=
  ⟨spdS .negotiated, 0, 255, 0, 5, .engine 0, by refine ⟨by decide, by decide, rfl⟩⟩

set_option maxRecDepth 100000 in
theorem witness_key_exchange :
    ∃ (s : State) (r : SpdmIx) (slot : Fin 8) (x : SpdmKex) (i : Identity) (m : List Nat), (spdmReady r .negotiated s = true) ∧ (s.slotIdentity r slot.val = some i) ∧ (s.measureSummary r x.meas.toNat = some m) :=
  ⟨spdS .negotiated, 0, 0, ⟨1, 2, 0, 3⟩, .engine 0, [], by refine ⟨by decide, rfl, rfl⟩⟩

set_option maxRecDepth 100000 in
theorem witness_finish :
    ∃ (s : State) (r : SpdmIx) (sid : BitVec 16) (hmac : BitVec 384) (x : SpdmSession), (spdmReady r .negotiated s = true) ∧ (s.inSession r sid false = some x) :=
  ⟨spdS .negotiated, 0, 6, 0, { id := 6, finished := false }, by refine ⟨by decide, rfl⟩⟩

set_option maxRecDepth 100000 in
theorem witness_heartbeat :
    ∃ (s : State) (r : SpdmIx) (sid : BitVec 16), (spdmReady r .negotiated s = true) ∧ ((s.inSession r sid true).isSome = true) :=
  ⟨spdS .negotiated, 0, 5, by decide⟩

set_option maxRecDepth 100000 in
theorem witness_key_update :
    ∃ (s : State) (r : SpdmIx) (sid : BitVec 16) (op : BitVec 8), (spdmReady r .negotiated s = true) ∧ ((s.inSession r sid true).isSome = true) ∧ (op = 1 ∨ op = 2) :=
  ⟨spdS .negotiated, 0, 5, 2, by decide⟩

set_option maxRecDepth 100000 in
theorem witness_end_session :
    ∃ (s : State) (r : SpdmIx) (sid : BitVec 16), (spdmReady r .negotiated s = true) ∧ ((s.inSession r sid true).isSome = true) :=
  ⟨spdS .negotiated, 0, 5, by decide⟩

set_option maxRecDepth 100000 in
theorem witness_get_pq_chain :
    ∃ (s : State) (r : SpdmIx) (slot : Fin 8) (off len : BitVec 16) (i : Identity), (spdmReady r .negotiated s = true) ∧ (len.toNat ≤ 1024) ∧ (s.slotIdentity r slot.val = some i) :=
  ⟨spdS .negotiated, 0, 0, 0, 1024, .engine 0, by refine ⟨by decide, by decide, rfl⟩⟩

set_option maxRecDepth 100000 in
theorem witness_get_pq_sig :
    ∃ (s : State) (r : SpdmIx) (slot msg : Nat) (i : Identity), (spdmReady r .negotiated s = true) ∧ (s.sec.spdm[r].lastSigned = some (slot, msg)) ∧ (s.slotIdentity r slot = some i) :=
  ⟨spdS .negotiated, 0, 0, 77, .engine 0, by refine ⟨by decide, rfl, rfl⟩⟩

set_option maxRecDepth 100000 in
theorem witness_get_pq_sig_misplaced :
    ∃ (s : State) (r : SpdmIx), (spdmReady r .negotiated s = true) ∧ (s.sec.spdm[r].lastSigned = none) :=
  ⟨onSec (spdS .negotiated) fun x => { x with spdm := vmod x.spdm 0 fun y => { y with lastSigned := none } }, 0, by decide⟩

/-! Clauses of `Obligations.OpalMethods`. -/

set_option maxRecDepth 100000 in
theorem witness_start_session :
    ∃ (s : State) (o : OpalReq) (sp : OpalSp) (auth : OpalAuth) (pin : Nat), (opalReady o s = true) ∧ (s.opalSession o = none) ∧ (auth.inSp sp = true) ∧ (sp = .locking → s.sec.opal.activated = true) ∧ (auth = .anybody ∨ s.opalPin auth = some pin) :=
  ⟨onSec (opsS .admin []) fun x => { x with opal := { x.opal with sessions := [] } }, ⟨0⟩, .locking, .admin 0, 55, by
    refine ⟨?_, ?_, ?_, ?_, ?_⟩
    · decide
    · decide
    · decide
    · decide
    · first | rfl | decide⟩

set_option maxRecDepth 100000 in
theorem witness_start_session_refused :
    ∃ (s : State) (o : OpalReq) (sp : OpalSp) (auth : OpalAuth) (pin : Nat), (opalReady o s = true) ∧ (s.opalSession o = none) ∧ (auth.inSp sp = true) ∧ (sp = .locking → s.sec.opal.activated = true) ∧ (auth ≠ .anybody ∧ s.opalPin auth ≠ some pin) :=
  ⟨onSec (opsS .admin []) fun x => { x with opal := { x.opal with sessions := [] } }, ⟨0⟩, .locking, .admin 0, 56, by decide⟩

set_option maxRecDepth 100000 in
theorem witness_properties :
    ∃ (s : State) (o : OpalReq), (opalReady o s = true) :=
  ⟨nsS, ⟨0⟩, by decide⟩

set_option maxRecDepth 100000 in
theorem witness_opal_get :
    ∃ (s : State) (o : OpalReq) (n : Fin 17) (x : OpalSession), (opalReady o s = true) ∧ (s.opalSession o = some x) ∧ (x.sp = .locking ∧ x.auths ≠ []) :=
  ⟨opsS .locking [.user 3], ⟨0⟩, 2, { fn := 0, sp := .locking, auths := [.user 3] }, by refine ⟨by decide, rfl, by decide⟩⟩

set_option maxRecDepth 100000 in
theorem witness_opal_get_pin :
    ∃ (s : State) (o : OpalReq) (a : OpalAuth), (opalReady o s = true) :=
  ⟨opsS .locking [.admin 0], ⟨0⟩, .sid, by decide⟩

set_option maxRecDepth 100000 in
theorem witness_opal_set :
    ∃ (s : State) (o : OpalReq) (n : Fin 17) (x : OpalSession), (opalReady o s = true) ∧ (s.opalSession o = some x) ∧ (x.isAdmin = true) :=
  ⟨opsS .locking [.admin 0], ⟨0⟩, 2, { fn := 0, sp := .locking, auths := [.admin 0] }, by refine ⟨by decide, rfl, by decide⟩⟩

set_option maxRecDepth 100000 in
theorem witness_opal_set_lock :
    ∃ (s : State) (o : OpalReq) (n : Fin 17) (x : OpalSession), (opalReady o s = true) ∧ (s.opalSession o = some x) ∧ (x.isAdmin = true) ∧ (s.sec.opal.activated = true ∧ s.sec.opal.ranges[n].wrLockEn = true ∧ s.sec.opal.ranges[n].wrLocked = false) ∧ ((s.q.buffered.any fun b => b.nsid == n.val && b.nsid != 0 && !b.fault) = true) ∧ (s.sec.opalWait = []) :=
  ⟨{ (onSec (opsS .locking [.admin 0]) fun x => { x with opal := { x.opal with ranges := vmod x.opal.ranges 1 fun r => { r with wrLockEn := true } } }) with q := durS.q }, ⟨0⟩, 1, { fn := 0, sp := .locking, auths := [.admin 0] }, by refine ⟨by decide, rfl, ?_⟩; decide⟩

set_option maxRecDepth 100000 in
theorem witness_authenticate :
    ∃ (s : State) (o : OpalReq) (auth : OpalAuth) (pin : Nat) (x : OpalSession), (opalReady o s = true) ∧ (s.opalSession o = some x) ∧ (auth.inSp x.sp = true) ∧ (auth ≠ .anybody ∧ s.opalPin auth = some pin) :=
  ⟨opsS .locking [], ⟨0⟩, .user 3, 66, { fn := 0, sp := .locking, auths := [] }, by refine ⟨by decide, rfl, by decide, by decide⟩⟩

set_option maxRecDepth 100000 in
theorem witness_authenticate_wrong :
    ∃ (s : State) (o : OpalReq) (auth : OpalAuth) (pin : Nat) (x : OpalSession), (opalReady o s = true) ∧ (s.opalSession o = some x) ∧ (auth.inSp x.sp = true) ∧ (auth ≠ .anybody ∧ s.opalPin auth ≠ some pin) :=
  ⟨opsS .locking [], ⟨0⟩, .user 3, 67, { fn := 0, sp := .locking, auths := [] }, by refine ⟨by decide, rfl, by decide, by decide⟩⟩

set_option maxRecDepth 100000 in
theorem witness_genkey :
    ∃ (s : State) (o : OpalReq) (n : Fin 17) (x : OpalSession) (m : Namespace), (opalReady o s = true) ∧ (s.opalSession o = some x) ∧ (x.isAdmin = true) ∧ (s.host.namespaces.find? (fun m => m.nsid == n.val) = some m) :=
  ⟨opsS .locking [.admin 0], ⟨0⟩, 2, { fn := 0, sp := .locking, auths := [.admin 0] }, ns1, by refine ⟨by decide, rfl, by decide, rfl⟩⟩

set_option maxRecDepth 100000 in
theorem witness_activate :
    ∃ (s : State) (o : OpalReq) (x : OpalSession) (pin : Nat), (opalReady o s = true) ∧ (s.opalSession o = some x) ∧ (x.sp = .admin ∧ x.auths.contains .sid = true) ∧ (s.sec.opal.activated = false) ∧ (s.opalPin .sid = some pin) :=
  ⟨onSec (opsS .admin [.sid]) fun x => { x with opal := { x.opal with activated := false } }, ⟨0⟩, { fn := 0, sp := .admin, auths := [.sid] }, 44, by refine ⟨by decide, rfl, by decide, by decide, rfl⟩⟩

set_option maxRecDepth 100000 in
theorem witness_revert :
    ∃ (s : State) (o : OpalReq) (x : OpalSession), (opalReady o s = true) ∧ (s.opalSession o = some x) ∧ (x.sp = .admin ∧ (x.auths.contains .sid = true ∨ x.auths.contains .psid = true)) :=
  ⟨opsS .admin [.sid], ⟨0⟩, { fn := 0, sp := .admin, auths := [.sid] }, by refine ⟨by decide, rfl, by decide⟩⟩

set_option maxRecDepth 100000 in
theorem witness_revert_sp :
    ∃ (s : State) (o : OpalReq) (x : OpalSession), (opalReady o s = true) ∧ (s.opalSession o = some x) ∧ (x.sp = .locking ∧ x.auths.contains (.admin 0) = true) :=
  ⟨opsS .locking [.admin 0], ⟨0⟩, { fn := 0, sp := .locking, auths := [.admin 0] }, by refine ⟨by decide, rfl, by decide⟩⟩

set_option maxRecDepth 100000 in
theorem witness_random :
    ∃ (s : State) (o : OpalReq) (len : Nat), (opalReady o s = true) ∧ ((s.opalSession o).isSome = true) ∧ (len ≤ 32) :=
  ⟨opsS .locking [.admin 0], ⟨0⟩, 16, by decide⟩

/-! Clauses of `Obligations.EventRecorder`. -/

set_option maxRecDepth 100000 in
theorem witness_record_program :
    ∃ (s : State) (e : Event) (rest : List Event) (b : OpenBlock), (s.evr.queue = e :: rest) ∧ (s.evr.frzDepth = 0 ∧ s.rst.phase.early = false ∧ s.rst.recovery = false) ∧ (s.evr.open_[s.streamOf e] = some b) ∧ (b.used + e.len ≤ 4096) :=
  ⟨recS, evt, [], blk 0, by refine ⟨rfl, by decide, rfl, by decide⟩⟩

set_option maxRecDepth 100000 in
theorem witness_record_program_failure :
    ∃ (s : State) (e : Event) (rest : List Event) (b : OpenBlock), (s.evr.queue = e :: rest) ∧ (s.evr.frzDepth = 0 ∧ s.rst.phase.early = false ∧ s.rst.recovery = false) ∧ (s.evr.open_[s.streamOf e] = some b) ∧ (b.used + e.len ≤ 4096) ∧ (b.pair < 3072) :=
  ⟨recS, evt, [], blk 0, by refine ⟨rfl, by decide, rfl, by decide, by decide⟩⟩

set_option maxRecDepth 100000 in
theorem witness_seal_timeout :
    ∃ (s : State) (u : StreamIx) (b : OpenBlock), (s.evr.frzDepth = 0) ∧ (s.evr.open_[u] = some b) ∧ (b.sealAt ≤ s.mtime) :=
  ⟨recS, 4, blk 0, by refine ⟨by decide, rfl, by decide⟩⟩

set_option maxRecDepth 100000 in
theorem witness_segment_erase :
    ∃ (s : State) (p : Nat), (s.evr.frzDepth = 0 ∧ s.evr.erasing = none) ∧ ((s.nor.segs.toList.filter fun g => g.erased && !g.retired).length < 2) ∧ (s.oldestPair = some p) ∧ (p < 3072) :=
  ⟨{ recS with nor := { recS.nor with segs := Vector.replicate 384 { erased := false } }, evr := { recS.evr with open_ := vset recS.evr.open_ 4 (some { blk 16 with bseq := recS.tailBseq }) } }, 16, by
    refine ⟨?_, ?_, ?_, ?_⟩
    · decide
    · decide
    · first | rfl | decide
    · decide⟩

set_option maxRecDepth 100000 in
theorem witness_segment_erase_done :
    ∃ (s : State) (k : Fin 384), (s.evr.erasing = some k) ∧ (s.nor.segs[k].erases + 1 < 100000) :=
  ⟨eraS, 3, by refine ⟨rfl, by decide⟩⟩

set_option maxRecDepth 100000 in
theorem witness_segment_erase_done_failure :
    ∃ (s : State) (k : Fin 384), (s.evr.erasing = some k) :=
  ⟨eraS, 3, rfl⟩

set_option maxRecDepth 100000 in
theorem witness_freeze_timeout :
    ∃ (s : State), (0 < s.evr.frzDepth) ∧ (s.evr.frzEnd ≤ s.mtime) ∧ (s.evr.qFull = false) :=
  ⟨frzS, by decide⟩

set_option maxRecDepth 100000 in
theorem witness_recorder_status :
    ∃ (s : State) (p : Packet), (ready ⟨0x0230, [5], .read⟩ p s = true) :=
  ⟨upS, pkt 5 0, by decide⟩

set_option maxRecDepth 100000 in
theorem witness_recorder_freeze :
    ∃ (s : State) (p : Packet), (ready ⟨0x0231, [5], .action⟩ p s = true) ∧ (0 < s.evr.frzDepth ∧ s.evr.frzDepth < 7) ∧ (s.evr.erasing = none) ∧ ((p.w 0).getLsbD 0 = true) :=
  ⟨frzS, pkt 5 0 1 0x00640064, by decide⟩

set_option maxRecDepth 100000 in
theorem witness_recorder_freeze_first :
    ∃ (s : State) (p : Packet), (ready ⟨0x0231, [5], .action⟩ p s = true) ∧ (s.evr.frzDepth = 0) ∧ (s.evr.erasing = none) :=
  ⟨recS, pkt 5 0 0, by decide⟩

set_option maxRecDepth 100000 in
theorem witness_recorder_thaw :
    ∃ (s : State) (p : Packet), (ready ⟨0x0232, [5], .action⟩ p s = true) ∧ (1 < s.evr.frzDepth) :=
  ⟨onEvr upS fun e => { e with frzDepth := 2 }, pkt 5 0 7, by decide⟩

set_option maxRecDepth 100000 in
theorem witness_recorder_read :
    ∃ (s : State) (p : Packet), (ready ⟨0x0233, [5], .read⟩ p s = true) ∧ ((p.w 0).toNat ≤ 0x2FFFFD) :=
  ⟨upS, pkt 5 0 5, by decide⟩

set_option maxRecDepth 100000 in
theorem witness_recorder_note :
    ∃ (s : State) (p : Packet), (ready ⟨0x0234, [5], .action⟩ p s = true) :=
  ⟨upS, pkt 5 0 0x41424344 0 0 0 0 0, by decide⟩

end Sys2Proof.Tests
end

section
/-! SUPPORT. The numbering of heads (R3). The global number of head a.h is its engine's first number, `Layout.base`, plus h; the blocks of
numbers of the engines follow one another from 0, and those of a legal layout end at 24 or before. -/

namespace Sys2Proof.Machine
open Sys2Proof

/-! ### Head counts and the blocks of global numbers -/

/-- The block of an engine ends where the block of the next one begins. -/
theorem Layout.base_succ (l : Layout) (a : Nat) : l.base (a + 1) = l.base a + l.count a := by
  simp [Layout.base, List.range_succ]

theorem Layout.total_eq_base (l : Layout) : l.total = l.base 4 := rfl

theorem Layout.base_mono (l : Layout) : Monotone l.base :=
  monotone_nat_of_le_succ fun a => (l.base_succ a).symm ▸ Nat.le_add_right _ _

/-- The block of an engine ends no later than the block of any higher engine begins. -/
theorem Layout.base_add_count_le (l : Layout) {a b : Nat} (h : a < b) : l.base a + l.count a ≤ l.base b :=
  l.base_succ a ▸ l.base_mono h

/-- The blocks cover every number below the end of the last one. -/
theorem Layout.exists_block_of_lt_base (l : Layout) (g n : Nat) (h : g < l.base n) :
    ∃ a < n, l.base a ≤ g ∧ g < l.base a + l.count a := by
  induction n with
  | zero => exact absurd h (Nat.not_lt_zero g)
  | succ n ih =>
    by_cases hn : g < l.base n
    · obtain ⟨a, ha, hg⟩ := ih hn
      exact ⟨a, by omega, hg⟩
    · exact ⟨n, by omega, Nat.le_of_not_lt hn, l.base_succ n ▸ h⟩

/-- The number of engines of a legal layout (R22). -/
theorem Layout.engines_of_legal {l : Layout} (hl : l.legal = true) : 2 ≤ l.engines ∧ l.engines ≤ 4 := by
  simp only [Layout.legal, Bool.and_eq_true, decide_eq_true_eq] at hl
  exact hl.1

/-- The heads of an engine of a legal layout are at most those its table allows (R22). -/
theorem Layout.count_le_headLimit {l : Layout} (hl : l.legal = true) (a : Eng) : l.count a ≤ headLimit l.engines := by
  simp only [Layout.legal, Bool.and_eq_true, List.all_eq_true] at hl
  have ha := hl.2 a (List.mem_finRange a)
  by_cases hp : a.val < l.engines
  · simp only [hp, if_true, decide_eq_true_eq] at ha
    simpa [Layout.count, vget, hp] using ha.2
  · simp [Layout.count, hp]

theorem Layout.count_le_twelve {l : Layout} (hl : l.legal = true) (a : Eng) : l.count a ≤ 12 :=
  (Layout.count_le_headLimit hl a).trans (by unfold headLimit; split_ifs <;> decide)

/-- Every layout of R22 has up to 24 heads: its engines times the most heads of one. -/
theorem Layout.total_le_24 {l : Layout} (hl : l.legal = true) : l.total ≤ 24 := by
  have h0 := Layout.count_le_headLimit hl 0
  have h1 := Layout.count_le_headLimit hl 1
  have h2 := Layout.count_le_headLimit hl 2
  have h3 := Layout.count_le_headLimit hl 3
  have absent : ∀ a, l.engines ≤ a → l.count a = 0 := fun a ha => if_neg (Nat.not_lt.mpr ha)
  have sum4 : l.total = l.count 0 + l.count 1 + l.count 2 + l.count 3 := by
    simp [Layout.total_eq_base, Layout.base_succ, show l.base 0 = 0 from rfl]
  obtain ⟨lo, hi⟩ := Layout.engines_of_legal hl
  -- One case for each row of the table of R22.
  obtain he | he | he : l.engines = 2 ∨ l.engines = 3 ∨ l.engines = 4 := by omega
  · have a2 := absent 2 (by omega)
    have a3 := absent 3 (by omega)
    simp [he, headLimit] at h0 h1; omega
  · have a3 := absent 3 (by omega)
    simp [he, headLimit] at h0 h1 h2; omega
  · simp [he, headLimit] at h0 h1 h2 h3; omega

/-! ### From a head to its global number and back -/

/-- The head is configured, and its global number is that of R3. -/
theorem State.globalHead_eq_some_iff (s : State) (a : Eng) (h : Nat) (g : Head) :
    s.globalHead a h = some g ↔ h < s.layout.count a ∧ g.val = s.layout.base a + h := by
  unfold State.globalHead fin?
  split_ifs with hc hb
  · simp [hc, Fin.ext_iff, eq_comm]
  · simp only [false_iff]
    have := g.isLt
    omega
  · simp [hc]

/-- The global number of every configured head of a legal layout is one of the 24. -/
theorem State.exists_globalHead {s : State} (hl : s.layout.legal = true) {a : Eng} {h : Nat} (hc : h < s.layout.count a) :
    ∃ g : Head, s.globalHead a h = some g := by
  have hend : s.layout.base a + s.layout.count a ≤ 24 :=
    (s.layout.base_add_count_le a.isLt).trans (Layout.total_le_24 hl)
  exact ⟨⟨s.layout.base a + h, by omega⟩, (s.globalHead_eq_some_iff ..).mpr ⟨hc, rfl⟩⟩

/-- Global numbers rise by engine, and by local number within an engine (R3). -/
theorem State.globalHead_lt {s : State} {a b : Eng} {h k : Nat} {g i : Head} (hg : s.globalHead a h = some g)
    (hi : s.globalHead b k = some i) (lt : a < b ∨ a = b ∧ h < k) : g < i := by
  obtain ⟨hc, hg⟩ := (s.globalHead_eq_some_iff ..).mp hg
  obtain ⟨-, hi⟩ := (s.globalHead_eq_some_iff ..).mp hi
  rw [Fin.lt_def, hg, hi]
  obtain hab | ⟨rfl, hhk⟩ := lt
  · have := s.layout.base_add_count_le hab
    omega
  · omega

/-- Two heads with one global number are the same head. -/
theorem State.globalHead_inj {s : State} {a b : Eng} {h k : Nat} {g : Head} (hg : s.globalHead a h = some g)
    (hi : s.globalHead b k = some g) : a = b ∧ h = k := by
  obtain hab | hab | hab := lt_trichotomy a b
  · exact absurd (State.globalHead_lt hg hi (.inl hab)) (lt_irrefl g)
  · obtain hhk | hhk | hhk := lt_trichotomy h k
    · exact absurd (State.globalHead_lt hg hi (.inr ⟨hab, hhk⟩)) (lt_irrefl g)
    · exact ⟨hab, hhk⟩
    · exact absurd (State.globalHead_lt hi hg (.inr ⟨hab.symm, hhk⟩)) (lt_irrefl g)
  · exact absurd (State.globalHead_lt hi hg (.inl hab)) (lt_irrefl g)

/-- Every number below the total is the global number of a head: the blocks leave no gap. -/
theorem State.exists_globalHead_eq {s : State} (hl : s.layout.legal = true) {g : Head} (hg : g.val < s.layout.total) :
    ∃ (a : Eng) (h : LHead), s.globalHead a h.val = some g := by
  obtain ⟨a, ha, lo, hi⟩ := s.layout.exists_block_of_lt_base g.val 4 hg
  have hc : s.layout.count a ≤ 12 := Layout.count_le_twelve hl ⟨a, ha⟩
  exact ⟨⟨a, ha⟩, ⟨g.val - s.layout.base a, by omega⟩,
    (s.globalHead_eq_some_iff ..).mpr ⟨by simp only; omega, by simp only; omega⟩⟩

/-- The head a global number is led back to has that number. -/
theorem State.globalHead_of_localHead {s : State} {g : Head} {a : Eng} {h : LHead} (hs : s.localHead g = some (a, h)) :
    s.globalHead a h.val = some g := by
  obtain ⟨b, -, hb⟩ := List.exists_of_findSome?_eq_some hs
  simp only [fin?] at hb
  split_ifs at hb with hin hlt
  · simp only [Option.map_some, Option.some.injEq, Prod.mk.injEq] at hb
    obtain ⟨rfl, rfl⟩ := hb
    exact (s.globalHead_eq_some_iff ..).mpr ⟨by simp only; omega, by simp only; omega⟩
  · simp at hb

/-- The global number of a head leads back to it. The search among the engines ends at the head's own one or before, and any head it
ends with has the number asked for, which no second head has. -/
theorem State.localHead_of_globalHead {s : State} {g : Head} {a : Eng} {h : LHead} (hg : s.globalHead a h.val = some g) :
    s.localHead g = some (a, h) := by
  obtain ⟨hc, hval⟩ := (s.globalHead_eq_some_iff ..).mp hg
  have hfound : (s.localHead g).isSome := by
    refine List.findSome?_isSome_iff.mpr ⟨a, List.mem_finRange a, ?_⟩
    simp [hval, hc, fin?]
  obtain ⟨⟨b, k⟩, hbk⟩ := Option.isSome_iff_exists.mp hfound
  obtain ⟨rfl, hkh⟩ := State.globalHead_inj (State.globalHead_of_localHead hbk) hg
  rw [hbk, Fin.ext hkh]

/-- Settles O12: the blocks of numbers of the engines follow one another from 0 and end within the 24 numbers, so that numbering a head
and finding the head of a number undo each other. -/
theorem headNumbers : Obligations.HeadNumbers := by
  intro s hl
  refine ⟨fun a h hc => ?_, fun a b h k g i => State.globalHead_lt, fun g => State.exists_globalHead_eq hl⟩
  obtain ⟨g, hg⟩ := State.exists_globalHead hl hc
  exact ⟨g, hg, ((s.globalHead_eq_some_iff ..).mp hg).2, State.localHead_of_globalHead hg⟩

end Sys2Proof.Machine
end

section
/-! SUPPORT. What a micro-trap leaves alone (R121): the parts that `execTrapEntry_moves` names for TRAP_ENTRY hold neither the slices nor
the heads' read blocks. -/

namespace Sys2Proof.Machine
open Sys2Proof

/-- A move that does not name the slices keeps every one. -/
theorem Moves.slice_eq {m : List Part} {s t : State} (h : Moves m s t) (hm : m.contains .slice = false) : t.slice = s.slice :=
  h.same .slice hm

/-- A move that does not name the heads' read blocks keeps every one. -/
theorem Moves.rd_eq {m : List Part} {s t : State} (h : Moves m s t) (hm : m.contains .rd = false) (g : Head) :
    t.head[g].rd = s.head[g].rd :=
  h.same .rd hm g

/-- TRAP_ENTRY completes in every state, whether or not a cause is pending, and moves within the parts of `State.enterTrap`. -/
theorem exec_trapEntry_completes (a : Eng) (s : State) :
    Completes (exec (.trapEntry a) s) (Moves [.trc, .evr, .reel, .links, .wrg, .engSrv, .seq, .wr, .headSrv] s) :=
  ⟨_, rfl, execTrapEntry_moves a s rfl⟩

/-- Settles O13: entering a trap forces write gates off, disarms comparators and changes the sequencer, and none of these touches a
slice or the read block that holds a head's read gate. -/
theorem microTrapKeepsSlices : Obligations.MicroTrapKeepsSlices := by
  intro a s
  obtain ⟨t, ht, moves⟩ := exec_trapEntry_completes a s
  exact ⟨t, ht, moves.slice_eq (by decide), moves.rd_eq (by decide)⟩

end Sys2Proof.Machine
end

section
/-! SUPPORT. The two reply words that STATUS decides (R511): what `mkReply` puts in CLAMP and in each RESULT word. -/

namespace Sys2Proof.Machine
open Sys2Proof

/-- CLAMP is carried only under STATUS 0x0000 (R511). -/
theorem mkReply_clamp (code status clamp : Nat) (tag : BitVec 16) (words : List Word) :
    (mkReply code tag status clamp words).clamp = if status = 0 then BitVec.ofNat 16 clamp else 0 :=
  rfl

/-- A RESULT word is carried only under STATUS 0x0000, and is zero past the words its opcode defines (R511). -/
theorem mkReply_result (code status clamp : Nat) (tag : BitVec 16) (words : List Word) (i : Fin 6) :
    (mkReply code tag status clamp words).result[i] = if status = 0 then words[i.val]?.getD 0 else 0 :=
  Vector.getElem_ofFn ..

/-- Settles O11: a STATUS word that is not 0x0000 comes from a status that is not 0, for which `mkReply` takes neither CLAMP nor the
result words; under STATUS 0x0000 an index past the end of the result words reads as zero. -/
theorem replyZeros : Obligations.ReplyZeros := by
  intro code status clamp tag words
  constructor
  · intro hword
    have hstatus : status ≠ 0 := by
      rintro rfl
      exact hword rfl
    exact ⟨by rw [mkReply_clamp, if_neg hstatus], fun i => by rw [mkReply_result, if_neg hstatus]⟩
  · intro hstatus i hi
    rw [mkReply_result, if_pos hstatus, List.getElem?_eq_none hi, Option.getD_none]

end Sys2Proof.Machine
end

section
/-! SUPPORT. The syndromes of the (72,64) code (R562, R563): which of the 256 bytes is a column, and the kind and the value a read takes
from each. -/

namespace Sys2Proof.Machine
open Sys2Proof

/-! ### The columns (R562) -/

theorem eccColumns_length : eccColumns.length = 64 := by decide +kernel

theorem eccColumns_nodup : eccColumns.Nodup := by decide +kernel

/-- No data bit's column is the syndrome of a word without error, that of poison, or the column of a check bit. -/
theorem eccColumns_mem_bounds :
    ∀ c ∈ eccColumns, c < 256 ∧ c ≠ 0 ∧ c ≠ 0xFF ∧ popcount 8 c ≠ 1 := by decide +kernel

/-- The columns of the check bits are the bytes with one set bit. -/
theorem popcount_eq_one_iff (x : Byte) : popcount 8 x.toNat = 1 ↔ ∃ i : Fin 8, x = BitVec.ofNat 8 (2 ^ i.val) := by
  revert x
  decide +kernel

/-- Every column fits a byte, so a byte equal to data bit j's column has entry j of the list as its value. -/
theorem eccColumns_get_of_eq_ofNat {x : Byte} {j : Fin 64} (h : x = BitVec.ofNat 8 (eccColumns.getD j.val 0)) :
    ∃ hj : j.val < eccColumns.length, x.toNat = eccColumns[j.val] := by
  have hj : j.val < eccColumns.length := by rw [eccColumns_length]; exact j.isLt
  obtain ⟨hlt, -⟩ := eccColumns_mem_bounds _ (List.getElem_mem hj)
  refine ⟨hj, ?_⟩
  rw [h, BitVec.toNat_ofNat, List.getD_eq_getElem _ _ hj, Nat.mod_eq_of_lt hlt]

theorem mem_eccColumns_iff (x : Byte) :
    x.toNat ∈ eccColumns ↔ ∃ j : Fin 64, x = BitVec.ofNat 8 (eccColumns.getD j.val 0) := by
  constructor
  · intro hmem
    obtain ⟨j, hj, hget⟩ := List.getElem_of_mem hmem
    refine ⟨⟨j, eccColumns_length ▸ hj⟩, ?_⟩
    rw [List.getD_eq_getElem _ _ hj, hget, BitVec.ofNat_toNat, BitVec.setWidth_eq]
  · rintro ⟨j, h⟩
    obtain ⟨hj, hget⟩ := eccColumns_get_of_eq_ofNat h
    exact hget ▸ List.getElem_mem hj

/-! ### The kind of a syndrome (R563) -/

theorem eccKind_zero : eccKind 0 = .none := rfl

theorem eccKind_poison : eccKind 0xFF = .poison := rfl

theorem eccKind_of_mem {x : Byte} (h : x.toNat ∈ eccColumns) : eccKind x = .ce := by
  obtain ⟨-, hzero, hpoison, -⟩ := eccColumns_mem_bounds _ h
  have hx0 : x ≠ 0 := by
    rintro rfl
    exact hzero rfl
  have hxF : x ≠ 0xFF := by
    rintro rfl
    exact hpoison rfl
  rw [eccKind, if_neg hx0, if_neg hxF, if_pos (Or.inr (List.contains_iff_mem.mpr h))]

theorem eccKind_of_popcount_one {x : Byte} (h : popcount 8 x.toNat = 1) : eccKind x = .ce := by
  have hx0 : x ≠ 0 := by
    rintro rfl
    exact absurd h (by decide)
  have hxF : x ≠ 0xFF := by
    rintro rfl
    exact absurd h (by decide)
  rw [eccKind, if_neg hx0, if_neg hxF, if_pos (Or.inl h)]

theorem eccKind_of_no_column {x : Byte} (hzero : x ≠ 0) (hpoison : x ≠ 0xFF) (hdata : x.toNat ∉ eccColumns)
    (hcheck : popcount 8 x.toNat ≠ 1) : eccKind x = .ue := by
  rw [eccKind, if_neg hzero, if_neg hpoison, if_neg]
  rintro (h | h)
  · exact hcheck h
  · exact hdata (List.contains_iff_mem.mp h)

/-! ### The data a read returns (R563) -/

theorem EccWord.value_of_not_mem {w : EccWord} (h : w.syndrome.toNat ∉ eccColumns) : w.value = w.data := by
  have hfind : eccColumns.findIdx? (fun c => c == w.syndrome.toNat) = none := by
    rw [List.findIdx?_eq_none_iff]
    intro c hc
    exact beq_false_of_ne fun heq => h (heq ▸ hc)
  rw [EccWord.value, hfind]
  split
  · contradiction
  · rfl

theorem EccWord.value_of_column {w : EccWord} {j : Nat} (hj : j < eccColumns.length) (h : w.syndrome.toNat = eccColumns[j]) :
    w.value = w.data ^^^ BitVec.ofNat 64 (2 ^ j) := by
  have hkind : w.kind = .ce := eccKind_of_mem (h ▸ List.getElem_mem hj)
  have hfind : eccColumns.findIdx? (fun c => c == w.syndrome.toNat) = some j := by
    rw [List.findIdx?_eq_some_iff_getElem]
    refine ⟨hj, beq_iff_eq.mpr h.symm, fun i hi heq => ?_⟩
    exact hi.ne (eccColumns_nodup.getElem_inj_iff.mp ((beq_iff_eq.mp heq).trans h))
  rw [EccWord.value, hkind, hfind]

/-! ### The table of R563 over every stored word -/

theorem EccWord.syndrome_zero {w : EccWord} (h : w.syndrome = 0) : w.kind = .none ∧ w.value = w.data := by
  refine ⟨by rw [EccWord.kind, h, eccKind_zero], EccWord.value_of_not_mem fun hmem => ?_⟩
  obtain ⟨-, hzero, -⟩ := eccColumns_mem_bounds _ hmem
  exact hzero (congrArg BitVec.toNat h)

theorem EccWord.syndrome_data_column {w : EccWord} {j : Fin 64} (h : w.syndrome = BitVec.ofNat 8 (eccColumns.getD j.val 0)) :
    w.kind = .ce ∧ w.value = w.data ^^^ BitVec.ofNat 64 (2 ^ j.val) := by
  obtain ⟨hj, hget⟩ := eccColumns_get_of_eq_ofNat h
  exact ⟨eccKind_of_mem ((mem_eccColumns_iff _).mpr ⟨j, h⟩), EccWord.value_of_column hj hget⟩

theorem EccWord.syndrome_check_column {w : EccWord} {i : Fin 8} (h : w.syndrome = BitVec.ofNat 8 (2 ^ i.val)) :
    w.kind = .ce ∧ w.value = w.data := by
  have hone : popcount 8 w.syndrome.toNat = 1 := (popcount_eq_one_iff _).mpr ⟨i, h⟩
  refine ⟨eccKind_of_popcount_one hone, EccWord.value_of_not_mem fun hmem => ?_⟩
  obtain ⟨-, -, -, hmany⟩ := eccColumns_mem_bounds _ hmem
  exact hmany hone

theorem EccWord.syndrome_no_column {w : EccWord} (hzero : w.syndrome ≠ 0) (hpoison : w.syndrome ≠ 0xFF)
    (hdata : ∀ j : Fin 64, w.syndrome ≠ BitVec.ofNat 8 (eccColumns.getD j.val 0))
    (hcheck : ∀ i : Fin 8, w.syndrome ≠ BitVec.ofNat 8 (2 ^ i.val)) : w.kind = .ue := by
  apply eccKind_of_no_column hzero hpoison
  · rw [mem_eccColumns_iff]
    exact not_exists.mpr hdata
  · rw [Ne, popcount_eq_one_iff]
    exact not_exists.mpr hcheck

theorem EccKind.bad_iff (k : EccKind) : k.bad = true ↔ k = .ue ∨ k = .poison := by
  simp only [EccKind.bad, Bool.or_eq_true, beq_iff_eq]

/-- Settles O14: the rows of R563's table exclude one another because no data bit's column is 0, 0xFF or a byte with one set bit, and the
bit a column names is the only one because the columns differ. -/
theorem eccSyndrome : Obligations.EccSyndrome := by
  refine ⟨fun w => ⟨rfl, EccWord.syndrome_zero, fun hpoison => ?_, fun _ => EccWord.syndrome_data_column,
    fun _ => EccWord.syndrome_check_column, EccWord.syndrome_no_column⟩, EccKind.bad_iff⟩
  rw [EccWord.kind, hpoison, eccKind_poison]

end Sys2Proof.Machine
end

section
/-! SUPPORT. Every command, said once: it completes but for a rail above 16 V, and what it touches is on its list. The statements about all
commands follow from these and from the Moves lemmas. -/

namespace Sys2Proof.Machine
open Sys2Proof
set_option Elab.async false

/-- Each command moves within the parts of its list. -/
theorem exec_moves {c : Instr} {s t : State} (h : exec c s = .next t) : Moves (touches c) s t :=
  match c with
  | .powerOnReset => execPowerOnReset_moves _ h
  | .bootRomDone => execBootRomDone_moves _ h
  | .firstStageLoaderDone _ _ => execFirstStageLoaderDone_moves _ _ _ h
  | .mainFirmwareDone _ => execMainFirmwareDone_moves _ _ h
  | .tablesDone => execTablesDone_moves _ h
  | .readForward _ _ => execReadForward_moves _ _ _ h
  | .indirectionReplay _ => execIndirectionReplay_moves _ _ h
  | .powerFail => execPowerFail_moves _ h
  | .journalProgram => execJournalProgram_moves _ h
  | .powerLossEnd => execPowerLossEnd_moves _ h
  | .railFault => execRailFault_moves _ h
  | .pohStore => execPohStore_moves _ h
  | .mpCheckpoint => execMpCheckpoint_moves _ h
  | .indirectionImage => execIndirectionImage_moves _ h
  | .headLoad _ => execHeadLoad_moves _ _ h
  | .loadTimeout _ => execLoadTimeout_moves _ _ h
  | .parkDone _ => execParkDone_moves _ _ h
  | .retractBiasEnd _ => execRetractBiasEnd_moves _ _ h
  | .unloadTimeout _ => execUnloadTimeout_moves _ _ h
  | .lockstepMismatch _ => execLockstepMismatch_moves _ _ h
  | .mgmtWatchdogExpiry _ => execMgmtWatchdogExpiry_moves _ _ h
  | .srstAssert => execSrstAssert_moves _ h
  | .tapIdcode => execTapIdcode_moves _ h
  | .tapBypass => execTapBypass_moves _ h
  | .registerWrite _ _ _ => execRegisterWrite_moves _ _ _ _ h
  | .invalidRegisterAccess _ _ => execInvalidRegisterAccess_moves _ _ _ h
  | .snapshotWrite _ => execSnapshotWrite_moves _ _ h
  | .comparatorArm _ _ _ => execComparatorArm_moves _ _ _ _ h
  | .comparatorFire _ _ _ => execComparatorFire_moves _ _ _ _ h
  | .servoMarkAccept _ _ => execServoMarkAccept_moves _ _ _ h
  | .markHoldExpiry _ => execMarkHoldExpiry_moves _ _ h
  | .reelStatus _ => execReelStatus_moves _ _ h
  | .reelMarker _ => execReelMarker_moves _ _ h
  | .reelConfig _ => execReelConfig_moves _ _ h
  | .reelClear _ => execReelClear_moves _ _ h
  | .armAckReceive _ _ _ => execArmAckReceive_moves _ _ _ _ h
  | .armNakReceive _ _ _ _ => execArmNakReceive_moves _ _ _ _ _ h
  | .armAckTimeout _ _ => execArmAckTimeout_moves _ _ _ h
  | .armStatusFrame _ _ _ => execArmStatusFrame_moves _ _ _ _ h
  | .afeFaultStrobe _ _ _ => execAfeFaultStrobe_moves _ _ _ _ h
  | .auxSlotRequest _ _ _ => execAuxSlotRequest_moves _ _ _ _ h
  | .configFrameSend _ _ _ => execConfigFrameSend_moves _ _ _ _ h
  | .armConfigReply _ _ _ _ => execArmConfigReply_moves _ _ _ _ _ h
  | .armLinkDown _ _ _ => execArmLinkDown_moves _ _ _ _ h
  | .armTrainAttempt _ _ => execArmTrainAttempt_moves _ _ _ h
  | .armTrainTimeout _ _ => execArmTrainTimeout_moves _ _ _ h
  | .armStatus _ => execArmStatus_moves _ _ h
  | .armClear _ => execArmClear_moves _ _ h
  | .armConfig _ => execArmConfig_moves _ _ h
  | .armRetrain _ => execArmRetrain_moves _ _ h
  | .sliceEnable _ => execSliceEnable_moves _ _ h
  | .sliceStreamStart _ _ _ => execSliceStreamStart_moves _ _ _ _ h
  | .sliceUnderrun _ => execSliceUnderrun_moves _ _ h
  | .sliceLateWordDiscard _ _ => execSliceLateWordDiscard_moves _ _ _ h
  | .sliceFifoTimeout _ => execSliceFifoTimeout_moves _ _ h
  | .sliceOverrun _ => execSliceOverrun_moves _ _ h
  | .dropCommand _ => execDropCommand_moves _ _ h
  | .zeroPhaseStart _ _ => execZeroPhaseStart_moves _ _ _ h
  | .sliceAcqToTrack _ _ => execSliceAcqToTrack_moves _ _ _ h
  | .bandLoad _ _ => execBandLoad_moves _ _ _ h
  | .sliceConfig _ => execSliceConfig_moves _ _ h
  | .sliceStatus _ => execSliceStatus_moves _ _ h
  | .sliceClear _ => execSliceClear_moves _ _ h
  | .sliceRestart _ => execSliceRestart_moves _ _ h
  | .syncDecision _ _ _ => execSyncDecision_moves _ _ _ _ h
  | .firstPassDone _ _ => execFirstPassDone_moves _ _ _ h
  | .iterationDetectorPassDone _ _ => execIterationDetectorPassDone_moves _ _ _ h
  | .localIterationEnd _ _ => execLocalIterationEnd_moves _ _ _ h
  | .codewordCheckDone _ _ => execCodewordCheckDone_moves _ _ _ h
  | .stagingAccept _ _ => execStagingAccept_moves _ _ _ h
  | .detConfig _ => execDetConfig_moves _ _ h
  | .detTaps _ => execDetTaps_moves _ _ h
  | .detNp _ => execDetNp_moves _ _ h
  | .detStatus _ => execDetStatus_moves _ _ h
  | .detClear _ => execDetClear_moves _ _ h
  | .decoderRequest _ _ => execDecoderRequest_moves _ _ _ h
  | .decoderArbitration _ => execDecoderArbitration_moves _ _ h
  | .decoderEngineFail _ => execDecoderEngineFail_moves _ _ h
  | .recoveryJobOpen _ _ => execRecoveryJobOpen_moves _ _ _ h
  | .retainedStreamCopyDone _ _ => execRetainedStreamCopyDone_moves _ _ _ h
  | .ladderTry _ _ => execLadderTry_moves _ _ _ h
  | .captureComplete _ _ => execCaptureComplete_moves _ _ _ h
  | .deepDecodeDone _ _ _ _ => execDeepDecodeDone_moves _ _ _ _ _ h
  | .guardTimerExpiry _ _ => execGuardTimerExpiry_moves _ _ _ h
  | .reallocate _ => execReallocate_moves _ _ h
  | .remapActivate _ _ => execRemapActivate_moves _ _ _ h
  | .poolStatus _ => execPoolStatus_moves _ _ h
  | .poolConfig _ => execPoolConfig_moves _ _ h
  | .poolEngine _ => execPoolEngine_moves _ _ h
  | .poolRequester _ => execPoolRequester_moves _ _ h
  | .poolClear _ => execPoolClear_moves _ _ h
  | .recConfig _ => execRecConfig_moves _ _ h
  | .recStatus _ => execRecStatus_moves _ _ h
  | .recClear _ => execRecClear_moves _ _ h
  | .writeEncode _ _ => execWriteEncode_moves _ _ _ h
  | .writerSlotRequest _ _ => execWriterSlotRequest_moves _ _ _ h
  | .memsSample _ => execMemsSample_moves _ _ h
  | .memsSampleTimeout => execMemsSampleTimeout_moves _ h
  | .suspectRewrite _ => execSuspectRewrite_moves _ _ h
  | .suspectSpareWrite _ => execSuspectSpareWrite_moves _ _ h
  | .wrtConfig _ => execWrtConfig_moves _ _ h
  | .wrtHead _ => execWrtHead_moves _ _ h
  | .wrtGuard _ => execWrtGuard_moves _ _ h
  | .wrtStatus _ => execWrtStatus_moves _ _ h
  | .wrtClear _ => execWrtClear_moves _ _ h
  | .wrtSlots _ => execWrtSlots_moves _ _ h
  | .seekRequest _ _ _ => execSeekRequest_moves _ _ _ _ h
  | .srvStatus _ => execSrvStatus_moves _ _ h
  | .srvConfig _ => execSrvConfig_moves _ _ h
  | .srvQuadrille _ => execSrvQuadrille_moves _ _ h
  | .srvNotch _ => execSrvNotch_moves _ _ h
  | .srvHead _ => execSrvHead_moves _ _ h
  | .srvHstatus _ => execSrvHstatus_moves _ _ h
  | .srvClear _ => execSrvClear_moves _ _ h
  | .loopComputeStart _ => execLoopComputeStart_moves _ _ h
  | .loopComputeDone _ => execLoopComputeDone_moves _ _ h
  | .loopOutputRelease _ => execLoopOutputRelease_moves _ _ h
  | .thermalSample _ => execThermalSample_moves _ _ h
  | .traceTimeout => execTraceTimeout_moves _ h
  | .traceCopyDone => execTraceCopyDone_moves _ h
  | .loopStatus _ => execLoopStatus_moves _ _ h
  | .loopCoef _ => execLoopCoef_moves _ _ h
  | .loopBankSwap _ => execLoopBankSwap_moves _ _ h
  | .loopConfig _ => execLoopConfig_moves _ _ h
  | .loopClear _ => execLoopClear_moves _ _ h
  | .traceConfig _ => execTraceConfig_moves _ _ h
  | .traceArm _ => execTraceArm_moves _ _ h
  | .traceTrigger _ => execTraceTrigger_moves _ _ h
  | .traceStatus _ => execTraceStatus_moves _ _ h
  | .zeroCrossing _ => execZeroCrossing_moves _ _ h
  | .commutation _ _ => execCommutation_moves _ _ _ h
  | .crossingMissed => execCrossingMissed_moves _ h
  | .rotorLockLoss => execRotorLockLoss_moves _ h
  | .coastTimeout => execCoastTimeout_moves _ h
  | .detectTimeout _ => execDetectTimeout_moves _ _ h
  | .brakeShortEnd => execBrakeShortEnd_moves _ h
  | .brakeObserveEnd _ => execBrakeObserveEnd_moves _ _ h
  | .brakeSettleEnd => execBrakeSettleEnd_moves _ h
  | .alignEnd => execAlignEnd_moves _ h
  | .openLoopStep _ => execOpenLoopStep_moves _ _ h
  | .startAttemptTimeout => execStartAttemptTimeout_moves _ h
  | .spindleSample => execSpindleSample_moves _ h
  | .boleroEvaluation _ => execBoleroEvaluation_moves _ _ h
  | .nrefUpdate => execNrefUpdate_moves _ h
  | .chopperSwitch _ => execChopperSwitch_moves _ _ h
  | .chopperBucketThreshold _ => execChopperBucketThreshold_moves _ _ h
  | .chopperFault _ => execChopperFault_moves _ _ h
  | .railOvervoltage _ => execRailOvervoltage_moves _ _ h
  | .spindleStatus _ => execSpindleStatus_moves _ _ h
  | .spindleTarget _ => execSpindleTarget_moves _ _ h
  | .spindleBolero _ => execSpindleBolero_moves _ _ h
  | .spindleConfig _ => execSpindleConfig_moves _ _ h
  | .spindleRunStop _ => execSpindleRunStop_moves _ _ h
  | .spindleRunStart _ => execSpindleRunStart_moves _ _ h
  | .spindleChopperTest _ => execSpindleChopperTest_moves _ _ h
  | .spindleClear _ => execSpindleClear_moves _ _ h
  | .fragmentEnqueue _ _ => execFragmentEnqueue_moves _ _ _ h
  | .inc _ => execInc_moves _ _ h
  | .br _ => execBr_moves _ _ h
  | .loop _ => execLoop_moves _ _ h
  | .call _ => execCall_moves _ _ h
  | .ret _ => execRet_moves _ _ h
  | .wait _ => execWait_moves _ _ h
  | .waitComplete _ => execWaitComplete_moves _ _ h
  | .rtt _ => execRtt_moves _ _ h
  | .lds _ _ => execLds_moves _ _ _ h
  | .add _ _ _ _ => execAdd_moves _ _ _ _ _ h
  | .ldf _ _ => execLdf_moves _ _ _ h
  | .lde _ _ => execLde_moves _ _ _ h
  | .lead _ _ _ _ => execLead_moves _ _ _ _ _ h
  | .win _ _ _ => execWin_moves _ _ _ _ h
  | .mov _ _ _ => execMov_moves _ _ _ _ h
  | .ldw _ _ => execLdw_moves _ _ _ h
  | .arm _ _ => execArm_moves _ _ _ h
  | .armr _ _ _ => execArmr_moves _ _ _ _ h
  | .armf _ _ => execArmf_moves _ _ _ h
  | .armfStallEnd _ => execArmfStallEnd_moves _ _ h
  | .dis _ _ => execDis_moves _ _ _ h
  | .dism _ _ _ => execDism_moves _ _ _ _ h
  | .pop _ => execPop_moves _ _ h
  | .armed _ => execArmed_moves _ _ h
  | .skip _ => execSkip_moves _ _ h
  | .note _ _ => execNote_moves _ _ _ h
  | .drop _ _ _ => execDrop_moves _ _ _ _ h
  | .clrf _ _ => execClrf_moves _ _ _ h
  | .set _ _ _ => execSet_moves _ _ _ _ h
  | .dec _ _ => execDec_moves _ _ _ h
  | .fcnt _ _ => execFcnt_moves _ _ _ h
  | .coreTrapRequest _ => execCoreTrapRequest_moves _ _ h
  | .waitTimeout _ => execWaitTimeout_moves _ _ h
  | .trapEntry _ => execTrapEntry_moves _ _ h
  | .sequencerRestart _ => execSequencerRestart_moves _ _ h
  | .seqHoldEntry _ => execSeqHoldEntry_moves _ _ h
  | .seqHoldResume _ => execSeqHoldResume_moves _ _ h
  | .seqStatus _ => execSeqStatus_moves _ _ h
  | .seqConfig _ => execSeqConfig_moves _ _ h
  | .seqTrapsave _ => execSeqTrapsave_moves _ _ h
  | .seqWord _ => execSeqWord_moves _ _ h
  | .seqClear _ => execSeqClear_moves _ _ h
  | .zoneReset _ => execZoneReset_moves _ _ h
  | .zoneOpen _ => execZoneOpen_moves _ _ h
  | .zoneClose _ => execZoneClose_moves _ _ h
  | .zoneFinish _ => execZoneFinish_moves _ _ h
  | .zoneOffline _ => execZoneOffline_moves _ _ h
  | .reportZones _ => execReportZones_moves _ _ h
  | .logGroupClose _ => execLogGroupClose_moves _ _ h
  | .indirectionUpdate _ => execIndirectionUpdate_moves _ _ h
  | .compaction _ => execCompaction_moves _ _ h
  | .zdcAccess _ _ _ => execZdcAccess_moves _ _ _ _ h
  | .zdcFillDone _ _ _ => execZdcFillDone_moves _ _ _ _ h
  | .zdcWritebackDone _ _ => execZdcWritebackDone_moves _ _ _ h
  | .zdcPin _ _ => execZdcPin_moves _ _ _ h
  | .zoneStatus _ => execZoneStatus_moves _ _ h
  | .zoneCacheStatus _ => execZoneCacheStatus_moves _ _ h
  | .zoneCacheConfig _ => execZoneCacheConfig_moves _ _ h
  | .zoneCacheFlush _ => execZoneCacheFlush_moves _ _ h
  | .zoneCacheInvalidate _ => execZoneCacheInvalidate_moves _ _ h
  | .zoneCacheClear _ => execZoneCacheClear_moves _ _ h
  | .mapBand _ => execMapBand_moves _ _ h
  | .mapRegion _ => execMapRegion_moves _ _ h
  | .mapConv _ => execMapConv_moves _ _ h
  | .headDepopulate _ => execHeadDepopulate_moves _ _ h
  | .linkReset _ => execLinkReset_moves _ _ h
  | .functionLevelReset _ => execFunctionLevelReset_moves _ _ h
  | .vfDisable _ => execVfDisable_moves _ _ h
  | .controllerReset _ => execControllerReset_moves _ _ h
  | .controllerEnable _ _ => execControllerEnable_moves _ _ _ h
  | .shutdownNormal _ => execShutdownNormal_moves _ _ h
  | .shutdownAbrupt _ => execShutdownAbrupt_moves _ _ h
  | .doorbellWrite _ _ => execDoorbellWrite_moves _ _ _ h
  | .cmbWrite _ _ _ => execCmbWrite_moves _ _ _ _ h
  | .cmbRead _ _ _ => execCmbRead_moves _ _ _ _ h
  | .tlpMalformed _ _ => execTlpMalformed_moves _ _ _ h
  | .unsupportedRequest _ _ => execUnsupportedRequest_moves _ _ _ h
  | .completionTimeout _ _ => execCompletionTimeout_moves _ _ _ h
  | .poisonedCompletion _ _ => execPoisonedCompletion_moves _ _ _ h
  | .smbusPecError _ => execSmbusPecError_moves _ _ h
  | .smbusClockTimeout => execSmbusClockTimeout_moves _ h
  | .mctpMalformed _ => execMctpMalformed_moves _ _ h
  | .violationHourSummary => execViolationHourSummary_moves _ h
  | .commandFetch f qid e => execCommandFetch_moves f qid e s h
  | .creditGrant _ => execCreditGrant_moves _ _ h
  | .commandStart _ => execCommandStart_moves _ _ h
  | .hostTransferDone _ => execHostTransferDone_moves _ _ h
  | .writeDurable _ => execWriteDurable_moves _ _ h
  | .completionPost _ => execCompletionPost_moves _ _ h
  | .schedulerDecision _ => execSchedulerDecision_moves _ _ h
  | .contractDue _ => execContractDue_moves _ _ h
  | .latencyDeadlineMiss _ => execLatencyDeadlineMiss_moves _ _ h
  | .floorWindowEnd _ => execFloorWindowEnd_moves _ _ h
  | .zoneFinishRecommended _ => execZoneFinishRecommended_moves _ _ h
  | .deleteIoSq _ _ => execDeleteIoSq_moves _ _ _ h
  | .createIoSq _ _ => execCreateIoSq_moves _ _ _ h
  | .deleteIoCq _ _ => execDeleteIoCq_moves _ _ _ h
  | .createIoCq _ _ => execCreateIoCq_moves _ _ _ h
  | .getLogPage _ _ => execGetLogPage_moves _ _ _ h
  | .identify _ _ => execIdentify_moves _ _ _ h
  | .abort _ _ _ => execAbort_moves _ _ _ _ h
  | .setFeatures _ _ _ _ => execSetFeatures_moves _ _ _ _ _ h
  | .getFeatures _ _ => execGetFeatures_moves _ _ _ h
  | .asynchronousEventRequest _ => execAsynchronousEventRequest_moves _ _ h
  | .keepAlive _ => execKeepAlive_moves _ _ h
  | .formatNvm _ _ => execFormatNvm_moves _ _ _ h
  | .securityReceive _ _ _ _ => execSecurityReceive_moves _ _ _ _ _ h
  | .namespaceCreate _ _ => execNamespaceCreate_moves _ _ _ h
  | .namespaceDelete _ _ => execNamespaceDelete_moves _ _ _ h
  | .namespaceAttach _ _ _ => execNamespaceAttach_moves _ _ _ _ h
  | .namespaceDetach _ _ _ => execNamespaceDetach_moves _ _ _ _ h
  | .firmwareImageDownload _ _ => execFirmwareImageDownload_moves _ _ _ h
  | .fwCommitWriteSlot _ _ => execFwCommitWriteSlot_moves _ _ _ h
  | .fwCommitWriteActivateNext _ _ => execFwCommitWriteActivateNext_moves _ _ _ h
  | .fwCommitActivateSlot _ _ => execFwCommitActivateSlot_moves _ _ _ h
  | .fwCommitActivateNow _ _ => execFwCommitActivateNow_moves _ _ _ h
  | .fwActivationPauseEnd => execFwActivationPauseEnd_moves _ h
  | .imageRetire => execImageRetire_moves _ h
  | .deviceSelfTest _ _ _ => execDeviceSelfTest_moves _ _ _ _ h
  | .virtualizationManagement _ _ => execVirtualizationManagement_moves _ _ _ h
  | .sanitizeCryptoErase _ _ => execSanitizeCryptoErase_moves _ _ _ h
  | .sanitizeBlockErase _ _ => execSanitizeBlockErase_moves _ _ _ h
  | .sanitizeExitFailureMode _ => execSanitizeExitFailureMode_moves _ _ h
  | .sanitizeOverwrite _ => execSanitizeOverwrite_moves _ _ h
  | .invalidOpcode q opc => execInvalidOpcode_moves q opc s h
  | .hetosExchange _ _ => execHetosExchange_moves _ _ _ h
  | .hetosMctpRequest _ => execHetosMctpRequest_moves _ _ h
  | .exchangeStart => execExchangeStart_moves _ h
  | .flush _ => execFlush_moves _ _ h
  | .write _ => execWrite_moves _ _ h
  | .read _ => execRead_moves _ _ h
  | .writeZeroes _ => execWriteZeroes_moves _ _ h
  | .datasetManagement _ => execDatasetManagement_moves _ _ h
  | .verify _ => execVerify_moves _ _ h
  | .zoneAppend _ => execZoneAppend_moves _ _ h
  | .readNvmeMiDataStructure _ _ => execReadNvmeMiDataStructure_moves _ _ _ h
  | .nvmSubsystemHealthStatusPoll _ _ => execNvmSubsystemHealthStatusPoll_moves _ _ _ h
  | .controllerHealthStatusPoll _ _ => execControllerHealthStatusPoll_moves _ _ _ h
  | .configurationSet _ _ _ => execConfigurationSet_moves _ _ _ _ h
  | .configurationGet _ _ => execConfigurationGet_moves _ _ _ h
  | .vpdRead _ _ _ => execVpdRead_moves _ _ _ _ h
  | .vpdWrite _ _ _ => execVpdWrite_moves _ _ _ _ h
  | .hostStatus _ => execHostStatus_moves _ _ h
  | .hostConfig _ => execHostConfig_moves _ _ h
  | .hostPermit _ => execHostPermit_moves _ _ h
  | .hostFunction _ => execHostFunction_moves _ _ h
  | .hostClear _ => execHostClear_moves _ _ h
  | .queueStatus _ => execQueueStatus_moves _ _ h
  | .queueConfig _ => execQueueConfig_moves _ _ h
  | .queueFunction _ => execQueueFunction_moves _ _ h
  | .qosAdmit _ => execQosAdmit_moves _ _ h
  | .qosRevoke _ => execQosRevoke_moves _ _ h
  | .qosStatus _ => execQosStatus_moves _ _ h
  | .queueClear _ => execQueueClear_moves _ _ h
  | .modIdentify _ => execModIdentify_moves _ _ h
  | .modEcho _ => execModEcho_moves _ _ h
  | .modLayout _ => execModLayout_moves _ _ h
  | .hetosStatus _ => execHetosStatus_moves _ _ h
  | .hetosClear _ => execHetosClear_moves _ _ h
  | .powerEpoch _ => execPowerEpoch_moves _ _ h
  | .estOfsUpdate => execEstOfsUpdate_moves _ h
  | .islandClockChange _ => execIslandClockChange_moves _ _ h
  | .budgetSet _ => execBudgetSet_moves _ _ h
  | .budgetStatus _ => execBudgetStatus_moves _ _ h
  | .budgetConsumer _ => execBudgetConsumer_moves _ _ h
  | .budgetClear _ => execBudgetClear_moves _ _ h
  | .dramArbitration _ => execDramArbitration_moves _ _ h
  | .eccWriteback _ => execEccWriteback_moves _ _ h
  | .dramRefresh _ => execDramRefresh_moves _ _ h
  | .bucketLeak _ => execBucketLeak_moves _ _ h
  | .scrubBurst _ => execScrubBurst_moves _ _ h
  | .sramScrubPass _ _ => execSramScrubPass_moves _ _ _ h
  | .dramRowRepair _ => execDramRowRepair_moves _ _ h
  | .memStatus _ => execMemStatus_moves _ _ h
  | .memConfig _ => execMemConfig_moves _ _ h
  | .memScrubRestart _ => execMemScrubRestart_moves _ _ h
  | .memScrubSram _ => execMemScrubSram_moves _ _ h
  | .memRepair _ => execMemRepair_moves _ _ h
  | .memDiagRead _ => execMemDiagRead_moves _ _ h
  | .memDiagWrite _ => execMemDiagWrite_moves _ _ h
  | .memClear _ => execMemClear_moves _ _ h
  | .getVersion _ => execGetVersion_moves _ _ h
  | .getCapabilities _ => execGetCapabilities_moves _ _ h
  | .negotiateAlgorithms _ _ => execNegotiateAlgorithms_moves _ _ _ h
  | .getDigests _ => execGetDigests_moves _ _ h
  | .getCertificate _ _ _ _ => execGetCertificate_moves _ _ _ _ _ h
  | .challenge _ _ _ _ => execChallenge_moves _ _ _ _ _ h
  | .getMeasurements _ _ _ _ _ => execGetMeasurements_moves _ _ _ _ _ _ h
  | .keyExchange _ _ _ => execKeyExchange_moves _ _ _ _ h
  | .finish _ _ _ => execFinish_moves _ _ _ _ h
  | .heartbeat _ _ => execHeartbeat_moves _ _ _ h
  | .keyUpdate _ _ _ => execKeyUpdate_moves _ _ _ _ h
  | .endSession _ _ => execEndSession_moves _ _ _ h
  | .getPqChain _ _ _ _ => execGetPqChain_moves _ _ _ _ _ h
  | .getPqSig _ => execGetPqSig_moves _ _ h
  | .startSession _ _ _ _ => execStartSession_moves _ _ _ _ _ h
  | .properties _ => execProperties_moves _ _ h
  | .opalGet _ _ => execOpalGet_moves _ _ _ h
  | .opalSet _ _ _ => execOpalSet_moves _ _ _ _ h
  | .authenticate _ _ _ => execAuthenticate_moves _ _ _ _ h
  | .genkey _ _ => execGenkey_moves _ _ _ h
  | .activate _ => execActivate_moves _ _ h
  | .revert _ _ => execRevert_moves _ _ _ h
  | .revertSp _ _ => execRevertSp_moves _ _ _ h
  | .random _ _ => execRandom_moves _ _ _ h
  | .debugUnlockExpiry => execDebugUnlockExpiry_moves _ h
  | .secStatus _ => execSecStatus_moves _ _ h
  | .secCert _ => execSecCert_moves _ _ h
  | .secLock _ => execSecLock_moves _ _ h
  | .secUnlock _ => execSecUnlock_moves _ _ h
  | .secRollback _ => execSecRollback_moves _ _ h
  | .recordProgram _ => execRecordProgram_moves _ _ h
  | .sealTimeout _ => execSealTimeout_moves _ _ h
  | .segmentErase => execSegmentErase_moves _ h
  | .segmentEraseDone _ => execSegmentEraseDone_moves _ _ h
  | .freezeTimeout => execFreezeTimeout_moves _ h
  | .recorderStatus _ => execRecorderStatus_moves _ _ h
  | .recorderFreeze _ => execRecorderFreeze_moves _ _ h
  | .recorderThaw _ => execRecorderThaw_moves _ _ h
  | .recorderRead _ => execRecorderRead_moves _ _ h
  | .recorderNote _ => execRecorderNote_moves _ _ h
  | .resetStatus _ => execResetStatus_moves _ _ h
  | .resetClear _ => execResetClear_moves _ _ h
  | .resetModule _ => execResetModule_moves _ _ h
  | .resetEngine _ => execResetEngine_moves _ _ h
  | .resetConfigure _ => execResetConfigure_moves _ _ h
  | .actuatorLoad _ => execActuatorLoad_moves _ _ h
  | .actuatorUnload _ => execActuatorUnload_moves _ _ h
  | .afeCommaAlignment _ _ => execAfeCommaAlignment_moves _ _ _ h
  | .perstDeassertion => execPerstDeassertion_moves _ h
  | .dataLinkUp _ _ _ => execDataLinkUp_moves _ _ _ _ h
  | .aspmL1Change _ => execAspmL1Change_moves _ _ h
  | .vfEnable _ => execVfEnable_moves _ _ h
  | .mctpSetEndpointId _ => execMctpSetEndpointId_moves _ _ h
  | .keepAliveTimeout _ => execKeepAliveTimeout_moves _ _ h
  | .cmbRefillDone _ => execCmbRefillDone_moves _ _ h
  | .firmwareSlotProgrammed _ _ => execFirmwareSlotProgrammed_moves _ _ _ h
  | .sanitizeComplete _ => execSanitizeComplete_moves _ _ h
  | .formatComplete => execFormatComplete_moves _ h

/-! ### Every command but two completes -/

/-- The outcome is a next state. -/
def Goes (o : Out) : Prop := ∃ t, o = .next t

theorem Goes.ite {c : Prop} {_ : Decidable c} {a b : Out} (ha : Goes a) (hb : Goes b) : Goes (if c then a else b) := by
  split <;> assumption

theorem Goes.next (t : State) : Goes (.next t) := ⟨t, rfl⟩

theorem State.admin_goes (s : State) (q : AdmReq) (noCtx pfOnly recOk : Bool) (body : State → AdmRes) :
    Goes (s.admin q noCtx pfOnly recOk body) :=
  .ite (.next _) (.ite (.next _) (.ite (.next _) (.next _)))

theorem State.adminOwn_goes (s : State) (q : AdmReq) (noCtx pfOnly recOk : Bool) (body : State → AdmRes) :
    Goes (s.adminOwn q noCtx pfOnly recOk body) :=
  .ite (.next _) (s.admin_goes ..)

theorem State.sanitize_goes (s : State) (q : AdmReq) (block ause : Bool) : Goes (s.sanitize q block ause) := s.admin_goes ..

theorem State.spdm_goes (s : State) (r : SpdmIx) (code : Nat) (place : SpdmPhase → Bool)
    (body : State → State × SpdmResponse × Option (Nat × Nat)) : Goes (s.spdm r code place body) :=
  .ite (.next _) (.ite (.next _) (.ite (.next _) (.next _)))

theorem State.mi_goes (s : State) (m : MiReq) (body : State → State × Nat × List Word) : Goes (s.mi m body) :=
  .ite (.next _) (.next _)

theorem State.setRail_goes (s : State) {mv : Nat} (h : ¬ 16000 < mv) : Goes (if 16000 < mv then .fault .overstress else .next (s.setRail mv)) := by
  rw [if_neg h]
  exact .next _

/-- Every command answers a next state, but for a rail above 16 V. -/
theorem exec_goes (c : Instr) (s : State) (h : ∀ mv : Nat, 16000 < mv → c ≠ .chopperSwitch mv ∧ c ≠ .railOvervoltage mv) :
    Goes (exec c s) := by
  cases c with
  | chopperSwitch mv => exact s.setRail_goes fun hmv => (h mv hmv).1 rfl
  | railOvervoltage mv => exact s.setRail_goes fun hmv => (h mv hmv).2 rfl
  | invalidOpcode | createIoCq | createIoSq | deleteIoCq | deleteIoSq | abort | asynchronousEventRequest | keepAlive | namespaceCreate
  | namespaceDelete | namespaceAttach | namespaceDetach | deviceSelfTest | virtualizationManagement => dsimp only [exec]; exact s.adminOwn_goes ..
  | setFeatures | getFeatures | identify | getLogPage | formatNvm | sanitizeExitFailureMode
  | sanitizeOverwrite | securityReceive => dsimp only [exec]; exact s.admin_goes ..
  | firmwareImageDownload | fwCommitWriteSlot | fwCommitWriteActivateNext | fwCommitActivateSlot | fwCommitActivateNow =>
    dsimp only [exec]; exact .ite (.next _) (s.admin_goes ..)
  | sanitizeCryptoErase | sanitizeBlockErase => dsimp only [exec]; exact s.sanitize_goes ..
  | hetosExchange => dsimp only [exec]; exact .ite (.next _) (s.adminOwn_goes ..)
  | getVersion | getCapabilities | negotiateAlgorithms | getDigests | getCertificate | challenge | getMeasurements | keyExchange | finish
  | heartbeat | keyUpdate | endSession | getPqChain | getPqSig => dsimp only [exec]; exact s.spdm_goes ..
  | readNvmeMiDataStructure | nvmSubsystemHealthStatusPoll | controllerHealthStatusPoll | configurationSet | configurationGet | vpdRead
  | vpdWrite => dsimp only [exec]; exact s.mi_goes ..
  | _ => exact .next _

/-- Settles O3: every command goes on to a next state, and its moves lie within its list. -/
theorem everyCommandWithinItsParts : Obligations.EveryCommandWithinItsParts := by
  refine ⟨fun c s h => ?_, fun mv s hmv => ⟨if_pos hmv, if_pos hmv⟩⟩
  obtain ⟨t, ht⟩ := exec_goes c s h
  exact ⟨t, ht, (exec_moves ht).queue, (exec_moves ht).same⟩

/-! ### A step -/

theorem step_of_pending_nil {s : State} (h : s.pending = []) : step s = .next (tick s) := by rw [step, h]

theorem step_of_pending_cons {s : State} {c : Instr} {rest : List Instr} (h : s.pending = c :: rest) :
    step s = exec c { s with pending := rest } := by rw [step, h]

/-- Settles O1. -/
theorem stepRunsFront : Obligations.StepRunsFront := fun _ _ => rfl

/-- A step moves from the state with the command at the front taken: within the command's list, or within what a clock can change. -/
theorem step_moves {s t : State} (h : step s = .next t) :
    (s.pending = [] ∧ t = tick s) ∨ ∃ c rest, s.pending = c :: rest ∧ Moves (touches c) { s with pending := rest } t := by
  cases hp : s.pending with
  | nil => exact .inl ⟨rfl, Host.Outcome.next.inj ((step_of_pending_nil hp).symm.trans h).symm⟩
  | cons c rest => exact .inr ⟨c, rest, rfl, exec_moves ((step_of_pending_cons hp).symm.trans h)⟩

/-- Whatever a move from a state with a shorter queue keeps, a step keeps. -/
theorem step_elim {P : State → State → Prop} (hq : ∀ s t q, P { s with pending := q } t → P s t)
    (hm : ∀ m s t, Moves m s t → P s t) {s t : State} (h : step s = .next t) : P s t := by
  obtain ⟨-, rfl⟩ | ⟨c, rest, -, hmoves⟩ := step_moves h
  · exact hm _ _ _ (tick_moves s)
  · exact hq _ _ rest (hm _ _ _ hmoves)

theorem Moves.sound {m : List Part} {s t : State} (h : Moves m s t) (hs : s.Sound) : t.Sound := by
  obtain ⟨hlayout, hstored, hdram, hlocal, hroll⟩ := hs
  exact ⟨h.inEffect hstored hlayout, h.stored hstored, h.dram hdram, h.window hlocal, h.top hroll⟩

/-- Settles O4: a step is a move, and every move keeps layouts legal, memories canonical and the counter within its fuses. -/
theorem stepKeepsSound : Obligations.StepKeepsSound := fun _ _ hs h =>
  step_elim (P := fun s t => s.Sound → t.Sound) (fun _ _ _ => id) (fun _ _ _ => Moves.sound) h hs

/-- Settles O6: a move raises the rollback counter at most, and keeps what is blown. -/
theorem fusesOnlyBlown : Obligations.FusesOnlyBlown := fun _ _ h =>
  step_elim (P := fun s t => s.fuse.rollCtr ≤ t.fuse.rollCtr ∧ s.fuse.revoked &&& ~~~t.fuse.revoked = 0 ∧ t.fuse.serial = s.fuse.serial ∧
      t.fuse.stepping = s.fuse.stepping ∧ t.fuse.keyHash = s.fuse.keyHash ∧ t.fuse.uds = s.fuse.uds)
    (fun _ _ _ => id) (fun _ _ _ hm => ⟨hm.raised, hm.revoked, by simpa using hm.ident⟩) h

/-! ### The layout in effect -/

/-- The commands whose list names the layout. -/
theorem touches_layout (c : Instr) : (touches c).contains .layout = true →
    c = .powerOnReset ∨ c = .railFault ∨ ∃ laneFail, c = .mainFirmwareDone laneFail := by
  cases c with
  | powerOnReset => exact fun _ => .inl rfl
  | railFault => exact fun _ => .inr (.inl rfl)
  | mainFirmwareDone laneFail => exact fun _ => .inr (.inr ⟨laneFail, rfl⟩)
  | _ => exact fun h => absurd (show false = true from h) Bool.false_ne_true

theorem Moves.layout_eq {m : List Part} {s t : State} (h : Moves m s t) (hm : m.contains .layout = false) : t.layout = s.layout :=
  h.same .layout hm

theorem State.powerOn_layout (s : State) (cause : Nat) : (s.powerOn cause).layout = s.layout := rfl

theorem execPowerOnReset_layout {s t : State} (h : execPowerOnReset s = .next t) : t.layout = s.layout := by
  cases h
  split
  · rfl
  · exact s.powerOn_layout _

theorem execRailFault_layout {s t : State} (h : execRailFault s = .next t) : t.layout = s.layout := by
  cases h
  split
  · rfl
  · exact s.powerOn_layout _

theorem State.applyLayout_layout (s : State) : s.applyLayout.layout = s.nor.layout := by
  unfold State.applyLayout
  split
  · assumption
  · rfl

/-- The parts that the firmware phase of a start touches once the stored layout is in effect. -/
abbrev firmwareParts : List Part :=
  [.slice, .lane, .lpe, .trc, .spn, .media, .host, .q, .pwr, .mem, .sec, .evr, .nor, .rst, .reel, .links, .engSrv, .seq, .rd, .det, .wr,
    .headSrv, .map, .freq]

theorem execMainFirmwareDone_after_layout {laneFail : BitVec 24} {s t : State} (hphase : s.rst.phase = .firmware)
    (h : execMainFirmwareDone laneFail s = .next t) : Moves firmwareParts s.applyLayout t := by
  unfold execMainFirmwareDone at h
  injection h with h
  subst h
  rw [if_neg (not_not.mpr hphase)]
  extract_lets s1 s2 s3 s4 s5 s6 s7 s8 s9
  have h1 : Moves firmwareParts s.applyLayout s1 := (State.loadModule_moves _).widen (by decide)
  have h2 : Moves firmwareParts s1 s2 := .fold _ _ _ fun s a => (s.loadEngine_moves a).widen (by decide)
  have h3 : Moves firmwareParts s2 s3 := .fold _ _ _ fun s g => (s.loadHead_moves g).widen (by decide)
  have h4 : Moves firmwareParts s3 s4 := (State.bindLanes_moves ..).after (by decide) <| (State.loadLoops_moves ..).after (by decide) <|
    (State.loadSpindle_moves ..).widen (by decide)
  have h5 : Moves firmwareParts s4 s5 := .fold _ _ _ fun s f => (s.presentFn_moves f).widen (by decide)
  have h6 : Moves firmwareParts s5 s6 := (State.modNor_moves _ _ (by intro n; rfl)).widen (by decide)
  have h7 : Moves firmwareParts s6 s7 := (State.sealLate_moves ..).after (by decide) <| (State.modRst_moves ..).widen (by decide)
  have h8 : Moves firmwareParts s7 s8 := (State.record_moves ..).widen (by decide)
  have h9 : Moves firmwareParts s8 s9 := .fold _ _ _ fun s a =>
    .ite ((State.startSeq_moves ..).after (by decide) ((s.loadStore_moves a).widen (by decide))) (.refl ..)
  exact (State.spindleStart_moves ..).after (by decide) <|
    h1.trans <| h2.trans <| h3.trans <| h4.trans <| h5.trans <| h6.trans <| h7.trans <| h8.trans h9

/-- MAIN_FIRMWARE_DONE acts in the firmware phase only, where it first puts the stored layout into effect (R24). -/
theorem execMainFirmwareDone_layout {laneFail : BitVec 24} {s t : State} (h : execMainFirmwareDone laneFail s = .next t) :
    t.layout = s.layout ∨ s.rst.phase = .firmware ∧ t.layout = s.nor.layout := by
  by_cases hphase : s.rst.phase = .firmware
  · exact .inr ⟨hphase, ((execMainFirmwareDone_after_layout hphase h).layout_eq rfl).trans s.applyLayout_layout⟩
  · rw [execMainFirmwareDone, if_pos hphase] at h
    exact .inl (Host.Outcome.next.inj h ▸ rfl)

/-- Settles O7: of the three commands whose list names the layout, the two resets keep it. -/
theorem layoutOnlyAtStart : Obligations.LayoutOnlyAtStart := by
  intro s t h hne
  obtain ⟨-, rfl⟩ | ⟨c, rest, hp, hmoves⟩ := step_moves h
  · exact absurd ((tick_moves s).layout_eq rfl) hne
  · rw [step_of_pending_cons hp] at h
    cases hl : (touches c).contains .layout
    · exact absurd (hmoves.layout_eq hl) hne
    · obtain rfl | rfl | ⟨laneFail, rfl⟩ := touches_layout c hl
      · exact absurd (execPowerOnReset_layout h) hne
      · exact absurd (execRailFault_layout h) hne
      · exact ⟨⟨laneFail, rest, hp⟩, (execMainFirmwareDone_layout h).resolve_left hne⟩

/-! ### A clock -/

theorem tick_of_unpowered {s : State} (h12 : s.rst.rail12 = false) (hloss : s.rst.powerLoss = false) : tick s = s := by
  simp [tick, h12, hloss]

/-- Of what a clock does, only the clock itself writes module time. -/
theorem State.clock_mtime (s : State) : s.clock.mtime = (s.mtime + 1) % 2 ^ 64 := by
  unfold State.clock
  extract_lets t s1 s2
  have hsym : s1.symbols.mtime = s1.mtime := (State.symbols_moves s1).same .mtime rfl
  have hslices : ((fins 48).foldl State.sliceClock s1.symbols).mtime = s1.symbols.mtime :=
    foldl_keeps State.mtime _ _ _ fun s n => (State.sliceClock_moves s n).same .mtime rfl
  have h2 : s2.mtime = ((fins 48).foldl State.sliceClock s1.symbols).mtime :=
    foldl_keeps State.mtime _ _ _ fun s n => (State.engineClock_moves s n).same .mtime rfl
  have hend : s2.mtime = t := h2.trans (hslices.trans hsym)
  clear_value s2
  split
  · exact hend
  · exact hend

theorem tick_mtime {s : State} (h : s.rst.rail12 = true ∨ s.rst.powerLoss = true) : (tick s).mtime = (s.mtime + 1) % 2 ^ 64 := by
  unfold tick
  rw [if_neg (by obtain h | h := h <;> simp [h])]
  extract_lets s1
  have h1 : s1.mtime = (s.mtime + 1) % 2 ^ 64 := ((State.reapCredits_moves _).same .mtime rfl).trans s.clock_mtime
  split
  · exact ((State.wakeSpindle_moves s1).same .mtime rfl).trans h1
  · exact h1

/-- Settles O2. -/
theorem idleTick : Obligations.IdleTick := fun s hp =>
  ⟨tick s, step_of_pending_nil hp, ⟨(tick_moves s).queue, (tick_moves s).same⟩, tick_mtime, tick_of_unpowered⟩

/-- Settles O5. -/
theorem resetSound : Obligations.ResetSound := by
  unfold Obligations.ResetSound State.Sound
  decide +kernel

end Sys2Proof.Machine
end

section
/-! SUPPORT. The bytes of packets and replies (R10, R509, R510): a little-endian field is read back from where it stands, and entries of one
length are found again in a buffer of several. -/

namespace Sys2Proof.Machine
open Sys2Proof
set_option Elab.async false

@[simp] theorem leBytes_length (k n : Nat) : (leBytes k n).length = k := by
  induction k generalizing n with
  | zero => rfl
  | succ k ih => simp [leBytes, ih]

/-- Bytes of a number, read as a little-endian number, are the number's low bytes. -/
theorem leNat_leBytes (k n : Nat) : leNat (leBytes k n) = n % 256 ^ k := by
  induction k generalizing n with
  | zero => simp [leBytes, leNat, Nat.mod_one]
  | succ k ih =>
    have hcons : leNat (leBytes (k + 1) n) = n % 256 % 256 + 256 * leNat (leBytes k (n / 256)) := rfl
    rw [hcons, ih, Nat.mod_mod, Nat.pow_succ', Nat.mod_mul]

/-- A field that stands behind a beginning of known length is read back. -/
theorem bytesAt_leBytes (pre post : List Nat) (k n : Nat) :
    bytesAt (pre ++ (leBytes k n ++ post)) pre.length k = n % 256 ^ k := by
  rw [bytesAt, List.drop_left, List.take_left' (leBytes_length k n), leNat_leBytes]

/-- Entries of one length: behind the first i of them stands entry i, then the others. -/
theorem drop_flatMap_const {α β : Type} {f : α → List β} {k : Nat} (hk : ∀ x, (f x).length = k) (l : List α) (i : Nat) (hi : i < l.length) :
    (l.flatMap f).drop (k * i) = f l[i] ++ (l.drop (i + 1)).flatMap f := by
  induction l generalizing i with
  | nil => exact absurd hi (Nat.not_lt_zero i)
  | cons x l ih =>
    cases i with
    | zero => simp
    | succ i =>
      have hsplit : k * (i + 1) = (f x).length + k * i := by rw [hk, Nat.mul_succ, Nat.add_comm]
      rw [List.flatMap_cons, hsplit, List.drop_append, List.drop_eq_nil_of_le (by omega), Nat.add_sub_cancel_left,
        ih i (Nat.lt_of_succ_lt_succ hi)]
      rfl

/-- The bytes of entries of one length. -/
theorem length_flatMap_const {α β : Type} {f : α → List β} {k : Nat} (hk : ∀ x, (f x).length = k) (l : List α) :
    (l.flatMap f).length = k * l.length := by
  induction l with
  | nil => rfl
  | cons x l ih => rw [List.flatMap_cons, List.length_append, hk, ih, List.length_cons, Nat.mul_succ, Nat.add_comm]

@[simp] theorem wordBytes_length (l : List Word) : (wordBytes l).length = 4 * l.length :=
  length_flatMap_const (f := fun w : Word => leBytes 4 w.toNat) (fun _ => leBytes_length ..) l

/-- Word i of words written out as bytes. -/
theorem bytesAt_wordBytes (pre post : List Nat) (l : List Word) (i : Nat) (hi : i < l.length) :
    nw (bytesAt (pre ++ (wordBytes l ++ post)) (pre.length + 4 * i) 4) = l[i] := by
  have hword : ((wordBytes l).drop (4 * i)) = leBytes 4 l[i].toNat ++ (l.drop (i + 1)).flatMap fun w => leBytes 4 w.toNat :=
    drop_flatMap_const (f := fun w : Word => leBytes 4 w.toNat) (fun _ => leBytes_length ..) l i hi
  have hlen : 4 * i ≤ (wordBytes l).length := by rw [wordBytes_length]; omega
  rw [bytesAt, ← List.drop_drop, List.drop_left, List.drop_append_of_le_length hlen, hword, List.append_assoc, List.take_left' (leBytes_length ..),
    leNat_leBytes, nw, Nat.mod_eq_of_lt (show l[i].toNat < 256 ^ 4 from l[i].isLt), BitVec.ofNat_toNat, BitVec.setWidth_eq]

theorem Packet.bytes_length (op : BitVec 16) (p : Packet) : (p.bytes op).length = 64 := by
  simp [Packet.bytes]

theorem Reply.bytes_length (r : Reply) : r.bytes.length = 32 := by
  simp [Reply.bytes]

/-- A packet is read back from its bytes, whatever stands behind them. -/
theorem packetOf_bytes (op : BitVec 16) (p : Packet) (post : List Nat) : packetOf p.xid p.src (p.bytes op ++ post) = (op, p) := by
  have field (x : BitVec 16) : BitVec.ofNat 16 (x.toNat % 256 ^ 2) = x := by
    rw [Nat.mod_eq_of_lt (show x.toNat < 256 ^ 2 from x.isLt), BitVec.ofNat_toNat, BitVec.setWidth_eq]
  have byte (x : Byte) : BitVec.ofNat 8 (leNat [x.toNat]) = x := by simp [leNat, Nat.mod_eq_of_lt (show x.toNat < 256 from x.isLt)]
  have hop : bytesAt (p.bytes op ++ post) 0 2 = op.toNat % 256 ^ 2 := by
    simpa [Packet.bytes] using bytesAt_leBytes [] _ 2 op.toNat
  have htag : bytesAt (p.bytes op ++ post) 2 2 = p.tag.toNat % 256 ^ 2 := by
    simpa [Packet.bytes] using bytesAt_leBytes (leBytes 2 op.toNat) _ 2 p.tag.toNat
  have hindex : bytesAt (p.bytes op ++ post) 6 2 = p.index.toNat % 256 ^ 2 := by
    simpa [Packet.bytes] using bytesAt_leBytes (leBytes 2 op.toNat ++ leBytes 2 p.tag.toNat ++ [p.flags.toNat, p.level.toNat]) _ 2 p.index.toNat
  have hflags : bytesAt (p.bytes op ++ post) 4 1 = leNat [p.flags.toNat] := rfl
  have hlevel : bytesAt (p.bytes op ++ post) 5 1 = leNat [p.level.toNat] := rfl
  have hword (i : Fin 14) : nw (bytesAt (p.bytes op ++ post) (8 + 4 * i.val) 4) = p.words[i] := by
    have h := bytesAt_wordBytes (leBytes 2 op.toNat ++ leBytes 2 p.tag.toNat ++ [p.flags.toNat, p.level.toNat] ++ leBytes 2 p.index.toNat) post
      p.words.toList i.val (by simp)
    simpa [Packet.bytes] using h
  simp only [packetOf, hop, htag, hindex, hflags, hlevel, hword, field, byte]
  congr
  exact Vector.ofFn_getElem ..

/-- Settles O60: every field is read back from where R509 places it, and packets in a buffer stand 64 bytes apart. -/
theorem packetBytesRoundTrip : Obligations.PacketBytesRoundTrip := by
  refine ⟨fun op p => ⟨p.bytes_length op, ?_⟩, fun xid src l hl => ?_, Reply.bytes_length⟩
  · simpa using packetOf_bytes op p []
  · refine List.ext_getElem (by simp [packetsOf]) fun i _ hi => ?_
    obtain ⟨hxid, hsrc⟩ := hl l[i] (List.getElem_mem hi)
    have hdrop := drop_flatMap_const (fun x : BitVec 16 × Packet => x.2.bytes_length x.1) l i hi
    simp only [packetsOf, List.getElem_map, List.getElem_range, hdrop]
    rw [← hxid, ← hsrc, packetOf_bytes]

end Sys2Proof.Machine
end

section
/-! SUPPORT. What becomes of a packet before its own rule: it is refused by a header check, has to wait for its turn, or is a dry run
(R514, R517, R519). -/

namespace Sys2Proof.Machine
open Sys2Proof
set_option Elab.async false

/-- Every packet command is run by `runPacket`, with the code, levels and class of its row in the opcode table. -/
theorem exec_of_packetRow {c : Instr} {o : OpInfo} {p : Packet} (h : packetRow c = some (o, p)) (s : State) :
    ∃ body, exec c s = .next (runPacket o p s body) := by
  cases c <;> cases h <;> exact ⟨_, rfl⟩

theorem ReplyShape.afterReply {s t : State} (h : ReplyShape s t) : t = s.afterReply t := by
  obtain ⟨_, _, _, _, _, rfl⟩ := h
  rfl

theorem runPacket_not_mayStart {o : OpInfo} {p : Packet} {s : State} (h : mayStart o p s = false) (body : State → PktRes) :
    runPacket o p s body = s := by
  simp [runPacket, h]

/-- Starting a packet touches the packet block only, so the header checks answer as before. -/
theorem headerCheck_startPacket (o : OpInfo) (p : Packet) (s : State) : headerCheck o p (s.startPacket o p) = headerCheck o p s := rfl

theorem State.startPacket_shape (s : State) (o : OpInfo) (p : Packet) : ReplyShape s (s.startPacket o p) := .modHet ..

theorem State.startPacket_dropped (s : State) (o : OpInfo) (p : Packet)
    (h : (s.het.exchanges.all fun x => x.xid != p.xid || !x.dropped) = true) :
    ((s.startPacket o p).het.exchanges.all fun x => x.xid != p.xid || !x.dropped) = true := by
  rw [List.all_eq_true] at h ⊢
  intro x hx
  simp only [State.startPacket, State.modHet_het, List.mem_map] at hx
  obtain ⟨y, hy, rfl⟩ := hx
  have hkept := h y hy
  split <;> exact hkept

/-- The replies given since a state are those given since another with the same replies. -/
theorem Replied.of_replies_eq {s s' t : State} {code : Nat} {p : Packet} {status clamp : Nat} {words : List Word}
    (h : Replied s' t code p status clamp words) (heq : s'.out.replies = s.out.replies) : Replied s t code p status clamp words := by
  obtain ⟨later, hl⟩ := h
  exact ⟨later, heq ▸ hl⟩

/-- A packet that fails a header check is answered with the status of that check. -/
theorem runPacket_refused {o : OpInfo} {p : Packet} {s : State} (hstart : mayStart o p s = true) (hrec : s.rst.recovery = false)
    (hcheck : headerCheck o p s ≠ 0) (body : State → PktRes) :
    runPacket o p s body = (s.startPacket o p).reply o.code p (headerCheck o p s) 0 [] := by
  have hrec' : (s.startPacket o p).rst.recovery = false := hrec
  simp [runPacket, hstart, hrec', headerCheck_startPacket, hcheck]

/-- A dry run leaves but a reply. -/
theorem runPacket_dry (o : OpInfo) {p : Packet} (s : State) (hdry : p.dry = true) (body : State → PktRes) :
    ReplyShape s (runPacket o p s body) := by
  unfold runPacket
  refine .ite ((s.startPacket_shape o p).trans ?_) (.refl s)
  refine .ite (reply_shape ..) ?_
  simp only [hdry, Bool.not_true, Bool.and_false, if_true]
  exact reply_shape ..

/-- Settles O9. -/
theorem packetWaitsTurn : Obligations.PacketWaitsTurn := by
  intro c o p s hrow hwait
  obtain ⟨body, hexec⟩ := exec_of_packetRow hrow s
  rw [hexec, runPacket_not_mayStart hwait]

/-- Settles O10. -/
theorem dryPacketChangesNothing : Obligations.DryPacketChangesNothing := by
  intro c o p s hrow hdry
  obtain ⟨body, hexec⟩ := exec_of_packetRow hrow s
  exact ⟨_, hexec, (runPacket_dry o s hdry body).afterReply⟩

/-- Settles O8: the reply of the failed check is formed from the state in which the packet has started. -/
theorem packetRefused : Obligations.PacketRefused := by
  intro c o p s hrow hstart hrec hcheck hlive
  obtain ⟨body, hexec⟩ := exec_of_packetRow hrow s
  rw [hexec, runPacket_refused hstart hrec hcheck]
  have hshape := (s.startPacket_shape o p).trans (reply_shape (s.startPacket o p) o.code p (headerCheck o p s) 0 [])
  have hreply := reply_replied (s.startPacket o p) o.code p (headerCheck o p s) 0 [] (s.startPacket_dropped o p hlive)
  exact ⟨_, rfl, hshape.afterReply, hreply.of_replies_eq rfl⟩

end Sys2Proof.Machine
end

section
/-! SUPPORT. What the (72,64) code makes of turned bits (R562 to R564): its check bits are linear in the data, so the syndrome of a word
with bits turned over is the sum of their columns. -/

namespace Sys2Proof.Machine
open Sys2Proof
set_option Elab.async false

/-- The column of each of the 72 bits of a stored word: those of the data bits, then those of the check bits. -/
def eccColumn (x : Fin 72) : Byte :=
  if x.val < 64 then BitVec.ofNat 8 (eccColumns.getD x.val 0) else BitVec.ofNat 8 (2 ^ (x.val - 64))

/-- The sum of the columns that a word selects from a list. -/
def eccSum (d : BitVec 64) (a : Nat) (l : List (Nat × Nat)) : Nat := l.foldl (fun a (c, j) => if d.getLsbD j then a ^^^ c else a) a

theorem eccCheck_eq_eccSum (d : BitVec 64) : eccCheck d = BitVec.ofNat 8 (eccSum d 0 eccColumns.zipIdx) := rfl

theorem eccSum_xor (d e : BitVec 64) (l : List (Nat × Nat)) (a b : Nat) : eccSum (d ^^^ e) (a ^^^ b) l = eccSum d a l ^^^ eccSum e b l := by
  induction l generalizing a b with
  | nil => rfl
  | cons x l ih =>
    obtain ⟨c, j⟩ := x
    have hstep : (if (d ^^^ e).getLsbD j then a ^^^ b ^^^ c else a ^^^ b) =
        (if d.getLsbD j then a ^^^ c else a) ^^^ (if e.getLsbD j then b ^^^ c else b) := by
      rw [BitVec.getLsbD_xor]
      cases d.getLsbD j <;> cases e.getLsbD j <;> simp [Nat.xor_comm, Nat.xor_left_comm]
    simp only [eccSum, List.foldl_cons, hstep]
    exact ih _ _

theorem eccCheck_xor (d e : BitVec 64) : eccCheck (d ^^^ e) = eccCheck d ^^^ eccCheck e := by
  rw [eccCheck_eq_eccSum, eccCheck_eq_eccSum, eccCheck_eq_eccSum, show (0 : Nat) = 0 ^^^ 0 from rfl, eccSum_xor]
  apply BitVec.eq_of_getLsbD_eq
  simp

theorem eccCheck_single : ∀ j : Fin 64, eccCheck (BitVec.ofNat 64 (2 ^ j.val)) = BitVec.ofNat 8 (eccColumns.getD j.val 0) := by
  decide +kernel

/-- A bit turned over adds its column to the syndrome. -/
theorem EccWord.syndrome_flipped (w : EccWord) (x : Fin 72) : (w.flipped x).syndrome = w.syndrome ^^^ eccColumn x := by
  unfold EccWord.flipped eccColumn EccWord.syndrome
  by_cases hx : x.val < 64
  · simp only [if_pos hx, eccCheck_xor, eccCheck_single ⟨x.val, hx⟩, BitVec.xor_assoc]
  · simp only [if_neg hx]
    rw [BitVec.xor_assoc, BitVec.xor_assoc, BitVec.xor_comm (BitVec.ofNat 8 _)]

@[simp] theorem EccWord.syndrome_fresh (d : BitVec 64) : (EccWord.fresh d).syndrome = 0 := BitVec.xor_self

@[simp] theorem EccWord.syndrome_poison (d : BitVec 64) : (EccWord.poison d).syndrome = 0xFF := by
  rw [EccWord.syndrome, EccWord.poison, BitVec.xor_comm, ← BitVec.xor_assoc, BitVec.xor_self, BitVec.zero_xor]

/-- One bit of a word without error turned over: its column is the syndrome, so the table of R563 turns the bit back. -/
theorem EccWord.flipped_fresh (d : BitVec 64) (x : Fin 72) :
    ((EccWord.fresh d).flipped x).kind = .ce ∧ ((EccWord.fresh d).flipped x).value = d := by
  have hsyn : ((EccWord.fresh d).flipped x).syndrome = eccColumn x := by simp [EccWord.syndrome_flipped]
  by_cases hx : x.val < 64
  · obtain ⟨hkind, hvalue⟩ := EccWord.syndrome_data_column (j := ⟨x.val, hx⟩) (hsyn.trans (if_pos hx))
    refine ⟨hkind, hvalue.trans ?_⟩
    rw [EccWord.flipped, if_pos hx, EccWord.fresh, BitVec.xor_assoc, BitVec.xor_self, BitVec.xor_zero]
  · obtain ⟨hkind, hvalue⟩ := EccWord.syndrome_check_column (i := ⟨x.val - 64, by omega⟩) (hsyn.trans (if_neg hx))
    exact ⟨hkind, hvalue.trans (by rw [EccWord.flipped, if_neg hx, EccWord.fresh])⟩

/-- The number of set bits of a sum is even or odd as the numbers of its parts are together. -/
theorem popcount_xor_mod_two (k a b : Nat) : popcount k (a ^^^ b) % 2 = (popcount k a + popcount k b) % 2 := by
  induction k generalizing a b with
  | zero => rfl
  | succ k ih =>
    have hbit : (a ^^^ b) % 2 = (a % 2 + b % 2) % 2 := by rw [← Nat.add_mod, Nat.xor_mod_two_eq]
    have hrest := ih (a / 2) (b / 2)
    rw [← Nat.xor_div_two] at hrest
    simp only [popcount]
    omega

theorem eccColumn_odd : ∀ x : Fin 72, popcount 8 (eccColumn x).toNat % 2 = 1 := by decide +kernel

theorem eccColumns_odd : ∀ c ∈ eccColumns, popcount 8 c % 2 = 1 := by decide +kernel

theorem eccColumn_nodup : ((List.finRange 72).map eccColumn).Nodup := by decide +kernel

theorem eccColumn_injective : Function.Injective eccColumn := fun x y h =>
  List.inj_on_of_nodup_map eccColumn_nodup (List.mem_finRange x) (List.mem_finRange y) h

/-- Every column has an odd number of set bits, and no two are equal: two never add up to zero or to a third. -/
theorem eccKind_of_two_columns {x y : Fin 72} (hxy : x ≠ y) : (eccKind (eccColumn x ^^^ eccColumn y)).bad = true := by
  have heven : popcount 8 (eccColumn x ^^^ eccColumn y).toNat % 2 = 0 := by
    have hx := eccColumn_odd x
    have hy := eccColumn_odd y
    rw [BitVec.toNat_xor, popcount_xor_mod_two]
    omega
  have hzero : eccColumn x ^^^ eccColumn y ≠ 0 := fun h => hxy (eccColumn_injective (BitVec.xor_eq_zero_iff.mp h))
  by_cases hpoison : eccColumn x ^^^ eccColumn y = 0xFF
  · rw [hpoison, eccKind_poison]
    rfl
  · rw [eccKind_of_no_column hzero hpoison (fun hmem => by have := eccColumns_odd _ hmem; omega) (by omega)]
    rfl

/-- Poison leaves the data as they were written. -/
theorem EccWord.value_poison (d : BitVec 64) : (EccWord.poison d).value = d :=
  EccWord.value_of_not_mem (w := EccWord.poison d) fun hmem => by
    obtain ⟨-, -, hpoison, -⟩ := eccColumns_mem_bounds _ hmem
    exact hpoison (by rw [EccWord.syndrome_poison]; rfl)

/-- Settles O15: a turned bit adds its column to the syndrome; one column is met by the table of R563, and two different ones never add up
to a column. -/
theorem eccCorrects : Obligations.EccCorrects := by
  refine ⟨fun d => EccWord.syndrome_zero (EccWord.syndrome_fresh d), EccWord.flipped_fresh, fun d x y hxy => ?_,
    fun d => ⟨?_, EccWord.value_poison d⟩⟩
  · rw [EccWord.kind, EccWord.syndrome_flipped, EccWord.syndrome_flipped, EccWord.syndrome_fresh, show (0 : Byte) ^^^ eccColumn x = eccColumn x from BitVec.zero_xor]
    exact eccKind_of_two_columns hxy
  · rw [EccWord.kind, EccWord.syndrome_poison, eccKind_poison]

end Sys2Proof.Machine
end

section
/-! SUPPORT. The bytes of DDR4 behind the code (R563, R567): reading through the code stores nothing, a write of some bytes of a word changes
those bytes alone, and a write over several words is such a write word by word. -/

namespace Sys2Proof.Machine
open Sys2Proof
set_option Elab.async false

/-! ### What counting and repairing errors leaves stored -/

@[simp] theorem State.modChan_dram (s : State) (c : Fin 2) (f : Channel → Channel) : (s.modChan c f).mem.dram = s.mem.dram := rfl

@[simp] theorem State.modBkt_dram (s : State) (r : MemRegion) (f : Bucket → Bucket) : (s.modBkt r f).mem.dram = s.mem.dram := rfl

@[simp] theorem State.fillBucket_dram (s : State) (r : MemRegion) (n : Nat) : (s.fillBucket r n).mem.dram = s.mem.dram := by
  unfold State.fillBucket
  dsimp only
  split <;> simp

@[simp] theorem State.countCe_dram (s : State) (r : MemRegion) (log : EccLog) : (s.countCe r log).mem.dram = s.mem.dram := by
  simp [State.countCe]

@[simp] theorem State.countUe_dram (s : State) (r : MemRegion) (log : EccLog) (event : Bool) :
    (s.countUe r log event).mem.dram = s.mem.dram := by
  unfold State.countUe
  dsimp only
  split <;> simp

@[simp] theorem State.markRow_dram (s : State) (c : Fin 2) (w : Nat) (dies : List Nat) : (s.markRow c w dies).mem.dram = s.mem.dram := rfl

@[simp] theorem State.markSram_dram (s : State) (w : Nat) : (s.markSram w).mem.dram = s.mem.dram := by
  unfold State.markSram
  dsimp only
  split
  · rfl
  · split <;> simp

@[simp] theorem State.hardCe_dram (s : State) (key : Nat × Nat) (synd : Byte) : (s.hardCe key synd).mem.dram = s.mem.dram := by
  unfold State.hardCe
  dsimp only
  split
  · split <;> simp
  · rfl

@[simp] theorem State.hardUe_dram (s : State) (key : Nat × Nat) : (s.hardUe key).mem.dram = s.mem.dram := by
  unfold State.hardUe
  split
  · dsimp only
    split <;> simp
  · rfl

theorem State.readWord_fst (s : State) (w : Nat) (part : Bool) : (s.readWord w part).1 = Memory.read s.mem.dram w := by
  unfold State.readWord
  dsimp only
  split
  · rfl
  · split <;> rfl

theorem State.readWord_dram (s : State) (w : Nat) (part : Bool) : (s.readWord w part).2.mem.dram = s.mem.dram := by
  unfold State.readWord
  dsimp only
  split
  · rfl
  · split
    · rfl
    · dsimp only
      split <;> simp
    · simp
    · simp

@[simp] theorem State.putWord_dram (s : State) (w : Nat) (v : EccWord) (full : Bool) :
    (s.putWord w v full).mem.dram = Memory.write s.mem.dram w v := rfl

@[simp] theorem State.burst_dram (s : State) (c : Fin 2) : (s.burst c).mem.dram = s.mem.dram := rfl

/-! ### The bytes of a word -/

/-- Byte k of a word. -/
def wordByte (d : BitVec 64) (k : Nat) : Byte := BitVec.ofNat 8 (d.toNat / 2 ^ (8 * k))

theorem State.dramByte_eq_wordByte (s : State) (addr : Nat) :
    s.dramByte addr = wordByte (Memory.read s.mem.dram (addr / 8)).value (addr % 8) := rfl

theorem wordByte_getLsbD (d : BitVec 64) (k i : Nat) (hi : i < 8) : (wordByte d k).getLsbD i = d.getLsbD (8 * k + i) := by
  rw [wordByte, BitVec.getLsbD_ofNat, Nat.testBit_div_two_pow, decide_eq_true hi, Bool.true_and, Nat.add_comm, BitVec.testBit_toNat]

/-- A word with byte m replaced. -/
def putByte (d : BitVec 64) (m : Nat) (b : Byte) : BitVec 64 :=
  (d &&& ~~~(BitVec.ofNat 64 (255 * 2 ^ (8 * m)))) ||| BitVec.ofNat 64 (b.toNat * 2 ^ (8 * m))

theorem wordByte_putByte (d : BitVec 64) (b : Byte) {m k : Nat} (hk : k < 8) :
    wordByte (putByte d m b) k = if k = m then b else wordByte d k := by
  apply BitVec.eq_of_getLsbD_eq
  intro i hi
  have hmask : (255 * 2 ^ (8 * m)).testBit (8 * k + i) = (decide (8 * m ≤ 8 * k + i) && decide (8 * k + i - 8 * m < 8)) := by
    rw [Nat.testBit_mul_two_pow, show 255 = 2 ^ 8 - 1 from rfl, Nat.testBit_two_pow_sub_one]
  have hbyte : (b.toNat * 2 ^ (8 * m)).testBit (8 * k + i) = (decide (8 * m ≤ 8 * k + i) && b.getLsbD (8 * k + i - 8 * m)) := by
    rw [Nat.testBit_mul_two_pow, BitVec.testBit_toNat]
  have hlt : 8 * k + i < 64 := by omega
  rw [wordByte_getLsbD _ _ _ hi, putByte, BitVec.getLsbD_or, BitVec.getLsbD_and, BitVec.getLsbD_not, BitVec.getLsbD_ofNat,
    BitVec.getLsbD_ofNat, hmask, hbyte]
  by_cases hkm : k = m
  · subst hkm
    simp [hlt, hi]
  · rw [if_neg hkm, wordByte_getLsbD _ _ _ hi]
    obtain hbelow | habove : k < m ∨ m < k := by omega
    · have : ¬ 8 * m ≤ 8 * k + i := by omega
      simp [hlt, this]
    · have hoff : ¬ 8 * k + i - 8 * m < 8 := by omega
      have hnone : b.getLsbD (8 * k + i - 8 * m) = false := BitVec.getLsbD_of_ge _ _ (by omega)
      simp [hlt, hoff, hnone]

theorem mergeBytes_eq_foldl (d : BitVec 64) (off : Nat) (bytes : List Byte) :
    mergeBytes d off bytes = bytes.zipIdx.foldl (fun d x => putByte d (off + x.2) x.1) d := rfl

theorem wordByte_foldl_putByte (off : Nat) (bytes : List Byte) (d : BitVec 64) (n : Nat) {k : Nat} (hk : k < 8) :
    wordByte ((bytes.zipIdx n).foldl (fun d x => putByte d (off + x.2) x.1) d) k =
      if off + n ≤ k ∧ k < off + n + bytes.length then bytes.getD (k - (off + n)) 0 else wordByte d k := by
  induction bytes generalizing d n with
  | nil =>
    rw [if_neg]
    · rfl
    · simp
  | cons b bytes ih =>
    rw [List.zipIdx_cons, List.foldl_cons, ih, wordByte_putByte _ _ hk, List.length_cons]
    obtain hbelow | rfl | habove := lt_trichotomy k (off + n)
    · rw [if_neg (by omega), if_neg (by omega), if_neg (by omega)]
    · simp
    · have hidx : k - (off + n) = k - (off + (n + 1)) + 1 := by omega
      rw [hidx, List.getD_cons_succ]
      by_cases hin : k < off + n + (bytes.length + 1)
      · rw [if_pos (by omega), if_pos (by omega)]
      · rw [if_neg (by omega), if_neg (by omega), if_neg (by omega)]

/-- Bytes merged into a word are its bytes from their offset on; the others stay. -/
theorem wordByte_mergeBytes (d : BitVec 64) (off : Nat) (bytes : List Byte) {k : Nat} (hk : k < 8) :
    wordByte (mergeBytes d off bytes) k =
      if off ≤ k ∧ k < off + bytes.length then bytes.getD (k - off) 0 else wordByte d k := by
  simpa [mergeBytes_eq_foldl] using wordByte_foldl_putByte off bytes d 0 hk

/-! ### Writes -/

theorem EccWord.value_fresh (d : BitVec 64) : (EccWord.fresh d).value = d := (EccWord.syndrome_zero (EccWord.syndrome_fresh d)).2

/-- A write of some bytes of a word stores a word with these bytes, the others as they read before. -/
theorem State.writeBytes_dram (s : State) (w off : Nat) (bytes : List Byte) (hfit : off + bytes.length ≤ 8) :
    ∃ v, (s.writeBytes w off bytes).mem.dram = Memory.write s.mem.dram w v ∧ ∀ k, k < 8 → wordByte v.value k =
      if off ≤ k ∧ k < off + bytes.length then bytes.getD (k - off) 0 else wordByte (Memory.read s.mem.dram w).value k := by
  unfold State.writeBytes
  split
  case isTrue hfull =>
    obtain rfl : off = 0 := by omega
    refine ⟨_, rfl, fun k hk => ?_⟩
    rw [EccWord.value_fresh, wordByte_mergeBytes _ _ _ hk, if_pos (by omega), if_pos (by omega)]
  case isFalse =>
    dsimp only
    rw [s.readWord_fst]
    split
    · refine ⟨_, by rw [State.modMem_mem, State.putWord_dram, s.readWord_dram], fun k hk => ?_⟩
      rw [EccWord.value_poison, wordByte_mergeBytes _ _ _ hk]
    · refine ⟨_, by rw [State.putWord_dram, s.readWord_dram], fun k hk => ?_⟩
      rw [EccWord.value_fresh, wordByte_mergeBytes _ _ _ hk]

/-- Every word a write of bytes does not reach is stored as before. -/
theorem State.writeBytes_read_other (s : State) (w off : Nat) (bytes : List Byte) (hfit : off + bytes.length ≤ 8) {i : Nat} (hi : i ≠ w) :
    Memory.read (s.writeBytes w off bytes).mem.dram i = Memory.read s.mem.dram i := by
  obtain ⟨v, hv, -⟩ := s.writeBytes_dram w off bytes hfit
  rw [hv, Memory.read_write_other _ _ _ _ hi]

theorem State.dramByte_writeBytes (s : State) (w off : Nat) (bytes : List Byte) (hfit : off + bytes.length ≤ 8)
    (hwf : Memory.wf s.mem.dram = true) (addr : Nat) :
    (s.writeBytes w off bytes).dramByte addr =
      if 8 * w + off ≤ addr ∧ addr < 8 * w + off + bytes.length then bytes.getD (addr - (8 * w + off)) 0 else s.dramByte addr := by
  rw [State.dramByte_eq_wordByte, State.dramByte_eq_wordByte]
  by_cases hw : addr / 8 = w
  · obtain ⟨v, hv, hbytes⟩ := s.writeBytes_dram w off bytes hfit
    rw [hv, hw, Memory.read_write_self _ _ _ hwf, hbytes _ (Nat.mod_lt _ (by decide))]
    have hsub : addr - (8 * w + off) = addr % 8 - off := by omega
    rw [hsub]
    exact if_congr (by omega) rfl rfl
  · rw [s.writeBytes_read_other w off bytes hfit hw, if_neg (by omega)]

/-- A write over several words writes every byte once, and leaves each word it does not reach as it is stored. -/
theorem State.writeRange_dram (n : Nat) (s : State) (addr : Nat) (bytes : List Byte) (hfuel : bytes.length < n)
    (hwf : Memory.wf s.mem.dram = true) :
    (∀ x, (s.writeRange addr bytes n).dramByte x =
      if addr ≤ x ∧ x < addr + bytes.length then bytes.getD (x - addr) 0 else s.dramByte x) ∧
    (∀ w, 8 * w + 8 ≤ addr ∨ addr + bytes.length ≤ 8 * w →
      Memory.read (s.writeRange addr bytes n).mem.dram w = Memory.read s.mem.dram w) := by
  induction n generalizing s addr bytes with
  | zero => exact absurd hfuel (Nat.not_lt_zero _)
  | succ n ih =>
    unfold State.writeRange
    by_cases hempty : bytes.isEmpty = true
    · obtain rfl := List.isEmpty_iff.mp hempty
      simp
    rw [if_neg hempty]
    have hpos : 0 < bytes.length := List.length_pos_iff.mpr fun h => hempty (List.isEmpty_iff.mpr h)
    extract_lets off now
    have hoff : off < 8 := Nat.mod_lt _ (by decide)
    have hnow : now.length = min (8 - off) bytes.length := List.length_take ..
    have hfit : off + now.length ≤ 8 := by omega
    have haddr : addr = 8 * (addr / 8) + off := (Nat.div_add_mod addr 8).symm
    have hrest : (bytes.drop (8 - off)).length = bytes.length - (8 - off) := List.length_drop ..
    obtain ⟨hbytes, hwords⟩ := ih (s.writeBytes (addr / 8) off now) (addr + now.length) (bytes.drop (8 - off)) (by omega)
      ((State.writeBytes_moves ..).dram hwf)
    constructor
    · intro x
      rw [hbytes, s.dramByte_writeBytes _ _ _ hfit hwf, ← haddr]
      by_cases hlow : x < addr + now.length
      · rw [if_neg (by omega)]
        by_cases hin : addr ≤ x
        · rw [if_pos ⟨hin, hlow⟩, if_pos (by omega)]
          simp only [now, List.getD_eq_getElem?_getD, List.getElem?_take]
          rw [if_pos (by omega)]
        · rw [if_neg (by omega), if_neg (by omega)]
      · by_cases hin : x < addr + bytes.length
        · rw [if_pos (by omega), if_pos (by omega), List.getD_eq_getElem?_getD, List.getD_eq_getElem?_getD, List.getElem?_drop]
          congr 2
          omega
        · rw [if_neg (by omega), if_neg (by omega), if_neg (by omega)]
    · intro w hw
      rw [hwords w (by omega), s.writeBytes_read_other _ _ _ hfit (by omega)]

/-- Settles O16: the write runs over the words it reaches, each of which is read, merged and stored with its check bits. -/
theorem bufferWriteReadsBack : Obligations.BufferWriteReadsBack := by
  intro f off bytes s base size hcmb hpresent hon hfit hrefill hwf
  refine ⟨_, rfl, ?_⟩
  obtain ⟨hbytes, hwords⟩ := s.writeRange_dram (bytes.length + 1) (base + off) bytes (Nat.lt_succ_self _) hwf
  simp only [hcmb, hpresent, hon, hrefill, Bool.not_true, Bool.or_self, Bool.false_or, decide_eq_true_eq, Nat.not_lt.mpr hfit, if_false,
    Bool.false_eq_true]
  exact ⟨hbytes, hwords⟩

end Sys2Proof.Machine
end

section
/-! SUPPORT. The state after reset (the Reset column of the register tables, R569): each of its finitely many registers by evaluation, and
DDR4, of which nothing is stored, by what an unlisted word reads as. -/

namespace Sys2Proof.Machine
open Sys2Proof
set_option Elab.async false

theorem State.reset_dram (w : Nat) : Memory.read State.reset.mem.dram w = if inCmb w then EccWord.poison 0 else EccWord.fresh 0 := rfl

/-- What reset leaves in each actuator engine. -/
theorem State.reset_engines (a : Eng) : State.reset.eng[a].reel.state = .stopped ∧
    (∀ c : CmpIx, State.reset.eng[a].reel.cmp[c].armed = false) ∧ (∀ l : LinkIx, State.reset.eng[a].links[l].state = .down) ∧
    State.reset.eng[a].seq.state = .off ∧ State.reset.rst.act[a].state = .unloaded ∧ rAngCfg State.reset.eng[a].reel = 0x08000010 := by
  revert a
  decide +kernel

/-- Settles O17. -/
theorem resetValues : Obligations.ResetValues := by
  refine ⟨rfl, rfl, rfl, rfl, rfl, rfl, rfl, rfl, State.reset_engines, by decide +kernel, by decide +kernel, by decide +kernel,
    by decide +kernel, by decide +kernel, by decide +kernel, by decide +kernel, by decide +kernel, by decide +kernel, by decide +kernel,
    State.reset_dram⟩

end Sys2Proof.Machine
end

section
/-! SUPPORT. What a move leaves alone, part by part, in the form a proof rewrites with; and the whole state of a move, where the parts it
names are whole fields. -/

namespace Sys2Proof.Machine
open Sys2Proof
set_option Elab.async false

section
variable {m : List Part} {s t : State} (h : Moves m s t)
include h

theorem Moves.free_eq (hm : m.contains .free = false) : t.free = s.free := h.same .free hm
theorem Moves.mtime_eq (hm : m.contains .mtime = false) : t.mtime = s.mtime := h.same .mtime hm
theorem Moves.lane_eq (hm : m.contains .lane = false) : t.lane = s.lane := h.same .lane hm
theorem Moves.pool_eq (hm : m.contains .pool = false) : t.pool = s.pool := h.same .pool hm
theorem Moves.mems_eq (hm : m.contains .mems = false) : t.mems = s.mems := h.same .mems hm
theorem Moves.wsl_eq (hm : m.contains .wsl = false) : t.wsl = s.wsl := h.same .wsl hm
theorem Moves.lpe_eq (hm : m.contains .lpe = false) : t.lpe = s.lpe := h.same .lpe hm
theorem Moves.trc_eq (hm : m.contains .trc = false) : t.trc = s.trc := h.same .trc hm
theorem Moves.spn_eq (hm : m.contains .spn = false) : t.spn = s.spn := h.same .spn hm
theorem Moves.media_eq (hm : m.contains .media = false) : t.media = s.media := h.same .media hm
theorem Moves.host_eq (hm : m.contains .host = false) : t.host = s.host := h.same .host hm
theorem Moves.q_eq (hm : m.contains .q = false) : t.q = s.q := h.same .q hm
theorem Moves.het_eq (hm : m.contains .het = false) : t.het = s.het := h.same .het hm
theorem Moves.pwr_eq (hm : m.contains .pwr = false) : t.pwr = s.pwr := h.same .pwr hm
theorem Moves.mem_eq (hm : m.contains .mem = false) : t.mem = s.mem := h.same .mem hm
theorem Moves.sec_eq (hm : m.contains .sec = false) : t.sec = s.sec := h.same .sec hm
theorem Moves.evr_eq (hm : m.contains .evr = false) : t.evr = s.evr := h.same .evr hm
theorem Moves.nor_eq (hm : m.contains .nor = false) : t.nor = s.nor := h.same .nor hm
theorem Moves.fuse_eq (hm : m.contains .fuse = false) : t.fuse = s.fuse := h.same .fuse hm
theorem Moves.rst_eq (hm : m.contains .rst = false) : t.rst = s.rst := h.same .rst hm
theorem Moves.out_eq (hm : m.contains .out = false) : t.out = s.out := h.same .out hm
theorem Moves.snaps_eq (hm : m.contains .snaps = false) : t.snaps = s.snaps := h.same .snaps hm
theorem Moves.reel_eq (hm : m.contains .reel = false) (a : Eng) : t.eng[a].reel = s.eng[a].reel := h.same .reel hm a
theorem Moves.links_eq (hm : m.contains .links = false) (a : Eng) : t.eng[a].links = s.eng[a].links := h.same .links hm a
theorem Moves.recv_eq (hm : m.contains .recv = false) (a : Eng) : t.eng[a].recv = s.eng[a].recv := h.same .recv hm a
theorem Moves.wrg_eq (hm : m.contains .wrg = false) (a : Eng) : t.eng[a].wrg = s.eng[a].wrg := h.same .wrg hm a
theorem Moves.engSrv_eq (hm : m.contains .engSrv = false) (a : Eng) : t.eng[a].srv = s.eng[a].srv := h.same .engSrv hm a
theorem Moves.seq_eq (hm : m.contains .seq = false) (a : Eng) : t.eng[a].seq = s.eng[a].seq := h.same .seq hm a
theorem Moves.zdc_eq (hm : m.contains .zdc = false) (a : Eng) : t.eng[a].zdc = s.eng[a].zdc := h.same .zdc hm a
theorem Moves.core_eq (hm : m.contains .core = false) (a : Eng) : t.eng[a].core = s.eng[a].core := h.same .core hm a
theorem Moves.det_eq (hm : m.contains .det = false) (g : Head) : t.head[g].det = s.head[g].det := h.same .det hm g
theorem Moves.wr_eq (hm : m.contains .wr = false) (g : Head) : t.head[g].wr = s.head[g].wr := h.same .wr hm g
theorem Moves.headSrv_eq (hm : m.contains .headSrv = false) (g : Head) : t.head[g].srv = s.head[g].srv := h.same .headSrv hm g
theorem Moves.map_eq (hm : m.contains .map = false) (g : Head) : t.head[g].map = s.head[g].map := h.same .map hm g
theorem Moves.freq_eq (hm : m.contains .freq = false) (g : Head) : t.head[g].freq = s.head[g].freq := h.same .freq hm g

end

/-! ### States equal part by part -/

theorem Engine.eq_of_blocks {x y : Engine} (h1 : x.reel = y.reel) (h2 : x.links = y.links) (h3 : x.recv = y.recv) (h4 : x.wrg = y.wrg)
    (h5 : x.srv = y.srv) (h6 : x.seq = y.seq) (h7 : x.zdc = y.zdc) (h8 : x.core = y.core) : x = y := by
  cases x
  cases y
  simp_all

theorem HeadUnit.eq_of_blocks {x y : HeadUnit} (h1 : x.rd = y.rd) (h2 : x.det = y.det) (h3 : x.wr = y.wr) (h4 : x.srv = y.srv)
    (h5 : x.map = y.map) (h6 : x.freq = y.freq) : x = y := by
  cases x
  cases y
  simp_all

/-- States with the same queue and the same parts are the same. -/
theorem State.eq_of_same {s t : State} (hq : t.pending = s.pending) (h : ∀ x : Part, x.same s t) : t = s := by
  have heng : t.eng = s.eng := Vector.ext fun i hi => Engine.eq_of_blocks (h .reel ⟨i, hi⟩) (h .links ⟨i, hi⟩) (h .recv ⟨i, hi⟩)
    (h .wrg ⟨i, hi⟩) (h .engSrv ⟨i, hi⟩) (h .seq ⟨i, hi⟩) (h .zdc ⟨i, hi⟩) (h .core ⟨i, hi⟩)
  have hhead : t.head = s.head := Vector.ext fun i hi => HeadUnit.eq_of_blocks (h .rd ⟨i, hi⟩) (h .det ⟨i, hi⟩) (h .wr ⟨i, hi⟩)
    (h .headSrv ⟨i, hi⟩) (h .map ⟨i, hi⟩) (h .freq ⟨i, hi⟩)
  cases s
  cases t
  simp only [State.mk.injEq]
  exact ⟨hq, h .free, h .mtime, h .layout, heng, hhead, h .slice, h .lane, h .pool, h .mems, h .wsl, h .lpe, h .trc, h .spn, h .media,
    h .host, h .q, h .het, h .pwr, h .mem, h .sec, h .evr, h .nor, h .fuse, h .rst, h .out, h .snaps⟩

/-- A move within some parts leads to any state that has these parts of its end and the others of its start. -/
theorem Moves.eq_of_parts {m : List Part} {s t u : State} (h : Moves m s t) (hq : u.pending = s.pending)
    (hu : ∀ x : Part, if m.contains x then x.same u t else x.same s u) : t = u := by
  refine State.eq_of_same (h.queue.trans hq.symm) fun x => ?_
  have hx := hu x
  split at hx
  · exact hx
  · have hback : x.same u s := by
      cases x <;> first | exact Eq.symm hx | exact fun i => (hx i).symm
    exact Part.same_trans hback (h.same x (Bool.eq_false_iff.mpr ‹_›))

/-! ### What operations keep of a part -/

/-- What g shows of a state is the same in another. -/
def Kept {α : Type} (g : State → α) (s t : State) : Prop := g t = g s

section
variable {α β : Type} {g : State → α} {s t u : State}

theorem Kept.refl : Kept g s s := rfl

theorem Kept.trans (h1 : Kept g s t) (h2 : Kept g t u) : Kept g s u := Eq.trans h2 h1

theorem Kept.ite {c : Prop} {_ : Decidable c} (hs : Kept g s t) (ht : Kept g s u) : Kept g s (if c then t else u) := by
  split <;> assumption

theorem Kept.fold (f : State → β → State) (l : List β) (s : State) (h : ∀ s x, Kept g s (f s x)) : Kept g s (l.foldl f s) :=
  foldl_keeps g f l s h

end

end Sys2Proof.Machine
end

section
/-! SUPPORT. What a change of a zone's descriptor leaves of the NOR region: everything but the durable zone records (R410, R639). -/

namespace Sys2Proof.Machine
open Sys2Proof
set_option Elab.async false

/-- A view of the NOR region that shows none of the durable zone records. -/
structure ZoneFree {α : Type} (g : Nor → α) : Prop where
  zones : ∀ n z, g { n with zones := z } = g n
  zoneDescs : ∀ n z, g { n with zoneDescs := z } = g n

/-- A move that does not name the NOR region keeps every view of it. -/
theorem Moves.keptNor {α : Type} {m : List Part} {s t : State} (h : Moves m s t) (hm : m.contains .nor = false) (g : Nor → α) :
    Kept (fun s => g s.nor) s t := congrArg g (h.nor_eq hm)

/-- A change of the NOR region that a view does not show. -/
theorem State.modNor_keptNor {α : Type} {g : Nor → α} (s : State) (f : Nor → Nor) (h : ∀ n, g (f n) = g n) :
    Kept (fun s => g s.nor) s (s.modNor f) := h s.nor

section
variable {α : Type} {g : Nor → α} (hg : ZoneFree g)
include hg

theorem State.putRecord_keptNor (s : State) (z : ZoneNo) (r : ZoneRecord) : Kept (fun s => g s.nor) s (s.putRecord z r) := hg.zones ..

theorem State.lineError_keptNor (s : State) (a : Eng) (i : Fin 48) : Kept (fun s => g s.nor) s (s.lineError a i) := by
  unfold State.lineError
  extract_lets l full table lost
  split
  next wp s1 hread =>
    have h1 : Kept (fun s => g s.nor) s s1 := by
      obtain h | h := em (lost = true)
      · rw [if_pos h] at hread
        exact (Moves.pair2 hread (s.readForwardWp_moves l.zone table.wp)).keptNor rfl g
      · rw [if_neg h] at hread
        cases hread
        exact .refl
    extract_lets found s2 s3
    have h2 : Kept (fun s => g s.nor) s1 s2 :=
      .ite ((s1.putRecord_keptNor hg _ _).trans ((State.zoneNotice_moves ..).keptNor rfl g)) .refl
    have h3 : Moves [.trc, .evr, .zdc] s2 s3 := (State.modZdc_moves ..).widen (by decide)
    exact h1.trans <| h2.trans <| Moves.keptNor
      ((State.saturated_moves ..).after (by decide) <| (State.condZdc_moves ..).after (by decide) h3) rfl g

theorem State.zdcAccess_keptNor (s : State) (a : Eng) (z : ZoneNo) (acc : DescAccess) :
    Kept (fun s => g s.nor) s (s.zdcAccess a z acc) := by
  unfold State.zdcAccess
  extract_lets c wait
  have hwait : Kept (fun s => g s.nor) s wait := rfl
  refine .ite hwait ?_
  split
  · rfl
  · split
    · refine .ite ?_ (((State.lineAccess_moves ..).behind ((State.modZdc_moves ..).widen (by decide))).keptNor rfl g)
      extract_lets s1
      have h1 : Kept (fun s => g s.nor) s s1 := s.lineError_keptNor hg a _
      split
      · exact h1.trans ((State.modZdc_moves ..).keptNor rfl g)
      · exact h1.trans ((State.lineAccess_moves ..).keptNor rfl g)
    · cases hmiss : s.missAccess a z acc with
      | none => exact hwait
      | some t => exact (State.missAccess_moves _ _ _ _ hmiss).keptNor rfl g

theorem State.setZone_keptNor (s : State) (z : ZoneNo) (f : ZoneDesc → ZoneDesc) : Kept (fun s => g s.nor) s (s.setZone z f) := by
  unfold State.setZone
  extract_lets d e e' r r' s1 s2
  have h1 : Kept (fun s => g s.nor) s s1 := .ite .refl (s.putRecord_keptNor hg z r')
  have h2 : Kept (fun s => g s.nor) s1 s2 := .ite .refl (hg.zoneDescs ..)
  exact .ite .refl (h1.trans (h2.trans (s2.zdcAccess_keptNor hg ..)))

theorem State.applyZoneRule_keptNor (s : State) (a : Eng) (c : ZoneCond) (h : Option LHead) :
    Kept (fun s => g s.nor) s (s.applyZoneRule a c h) := by
  unfold State.applyZoneRule
  refine .fold _ _ _ fun s x => ?_
  obtain ⟨z, d⟩ := x
  dsimp only
  have hset : Kept (fun s => g s.nor) s (s.setZone z fun _ => s.zoneAfter a c d) := s.setZone_keptNor hg z _
  have hfail (st : NvStatus) := hset.trans ((State.failWrites_moves _ z st).keptNor rfl g)
  have hnotice {c : Prop} {_ : Decidable c} {t : State} (ht : Kept (fun s => g s.nor) s t) :
      Kept (fun s => g s.nor) s (if c then t.zoneNotice z else t) := .ite (ht.trans ((State.zoneNotice_moves ..).keptNor rfl g)) ht
  exact .ite (hnotice (.ite (hfail _) (.ite (hfail _) hset))) .refl

theorem State.reserveLog_keptNor (s : State) (a : Eng) (least fuel : Nat) : Kept (fun s => g s.nor) s (s.reserveLog a least fuel) := by
  induction fuel generalizing s with
  | zero => rfl
  | succ fuel ih =>
    unfold State.reserveLog
    refine .ite .refl ?_
    split
    · exact (s.setZone_keptNor hg _ _).trans (ih _)
    · rfl

end

/-- The journal is none of the zone records. -/
theorem ZoneFree.journal : ZoneFree Nor.journal := ⟨fun _ _ => rfl, fun _ _ => rfl⟩

end Sys2Proof.Machine
end

section
/-! SUPPORT. Power-on reset, the start phases, power loss and the stores (20_start_reset_powerloss.md). What parks an actuator leaves the
reset block but for its actuators; what else a start keeps follows from the moves of its operations. -/

namespace Sys2Proof.Machine
open Sys2Proof
set_option Elab.async false

/-! ### Parks and the reset block -/

/-- The reset block but for its actuators. -/
def ResetBlock.sansActs (r : ResetBlock) : ResetBlock := { r with act := Vector.replicate 4 {} }

theorem Moves.keptRst {α : Type} {m : List Part} {s t : State} (h : Moves m s t) (hm : m.contains .rst = false) (g : ResetBlock → α) :
    Kept (fun s => g s.rst) s t := congrArg g (h.rst_eq hm)

theorem State.modAct_sansActs (s : State) (a : Eng) (f : Actuator → Actuator) : Kept (fun s => s.rst.sansActs) s (s.modAct a f) := rfl

theorem State.beginPark_sansActs (s : State) (a : Eng) (st : LoadState) : Kept (fun s => s.rst.sansActs) s (s.beginPark a st) := by
  unfold State.beginPark
  extract_lets s1 s2 s3 s4
  have h4 : Moves [.trc, .evr, .links, .engSrv, .seq, .wr, .headSrv] s s4 :=
    .behind (.fold _ _ _ fun s g => (State.modHs_moves ..).widen (by decide)) <| (State.modSrv_moves ..).after (by decide) <|
      (State.strobe_moves ..).after (by decide) (State.forceWritesOff_moves ..)
  exact (h4.keptRst rfl _).trans (s4.modAct_sansActs ..)

theorem State.pavane_sansActs (s : State) (a : Eng) : Kept (fun s => s.rst.sansActs) s (s.pavane a) :=
  .ite ((s.beginPark_sansActs a _).trans (State.modAct_sansActs ..)) (.ite (s.modAct_sansActs ..) .refl)

theorem State.pavaneAll_sansActs (s : State) : Kept (fun s => s.rst.sansActs) s s.pavaneAll :=
  .fold _ _ _ fun s a => .ite (s.pavane_sansActs a) .refl

theorem State.settlePark_sansActs (s : State) (a : Eng) : Kept (fun s => s.rst.sansActs) s (s.settlePark a) := by
  refine .ite (Kept.trans ?_ (State.beginPark_sansActs ..)) .refl
  exact ((State.disarmWhere_moves ..).keptRst rfl _).trans ((State.checkpoint_moves ..).keptRst rfl _)

theorem State.controlledUnload_sansActs (s : State) (a : Eng) : Kept (fun s => s.rst.sansActs) s (s.controlledUnload a) :=
  .ite (((s.endRuns_moves a).keptRst rfl _).trans ((State.modAct_sansActs ..).trans (State.settlePark_sansActs ..)))
    (.ite (s.modAct_sansActs ..) .refl)

theorem State.settleReset_sansActs (s : State) : Kept (fun s => s.rst.sansActs) s s.settleReset :=
  .ite (.fold _ _ _ fun s a => .ite (s.controlledUnload_sansActs a) .refl) .refl

/-! ### Power-on reset and the boot ROM (R595, R631) -/

theorem execPowerOnReset_of_running {s : State} (h : s.rst.powerLoss = false) :
    execPowerOnReset s = .next (s.powerOn (s.rst.resetDue.getD 0)) := by
  simp [execPowerOnReset, h]

theorem execRailFault_of_running {s : State} (h : s.rst.powerLoss = false) : execRailFault s = .next (s.powerOn 0) := by
  simp [execRailFault, h]

theorem State.slotOk_image {s : State} {n : Nat} (h : s.slotOk n = true) : ∃ o, vget s.nor.slots n none = some o := by
  unfold State.slotOk at h
  split at h
  · exact absurd h Bool.false_ne_true
  · exact ⟨_, by assumption⟩

/-- The image of a slot that holds one starts. -/
theorem State.startImage_of_slot {s : State} {n : Nat} {o : SignedObj} (h : vget s.nor.slots n none = some o) :
    s.startImage n = (s.modSec fun x => { x with running := o, runSlot := n, loader := o.content }).modRst fun r => { r with phase := .loader } := by
  rw [State.startImage, h]

/-- The active slot's image may not start: FALLBACK is set and its event raised. -/
def State.fellBack (s : State) : State := (s.modSec fun x => { x with fallback := true }).condSec

theorem State.fellBack_nor (s : State) : s.fellBack.nor = s.nor := by
  rw [State.fellBack, State.condSec_nor, State.modSec_nor]

theorem State.fellBack_rst (s : State) : s.fellBack.rst = s.rst := by
  rw [State.fellBack, State.condSec_rst, State.modSec_rst]

theorem State.fellBack_fallback (s : State) : s.fellBack.sec.fallback = true := by
  obtain ⟨x, y, hcond⟩ := (s.modSec fun x => { x with fallback := true }).condition_shape 0x11 5 0 0x40000 _ _
  rw [State.fellBack, State.condSec, hcond]
  rfl

/-- Whether a slot's image may start depends on fuses, slots and the nonce, which FALLBACK and its event leave alone. -/
theorem State.fellBack_slotOk (s : State) (n : Nat) : s.fellBack.slotOk n = s.slotOk n := by
  obtain ⟨x, y, hcond⟩ := (s.modSec fun x => { x with fallback := true }).condition_shape 0x11 5 0 0x40000 _ _
  rw [State.fellBack, State.condSec, hcond]
  rfl

theorem State.startImage_fallback (s : State) (n : Nat) : (s.startImage n).sec.fallback = s.sec.fallback := by
  unfold State.startImage
  split <;> rfl

theorem execBootRomDone_of_slotOk {s : State} (h : s.rst.phase = .bootRom) (hok : s.slotOk s.nor.actSlot = true) :
    execBootRomDone s = .next (s.startImage s.nor.actSlot) := by
  rw [execBootRomDone, if_neg (not_not.mpr h), if_pos hok]

theorem execBootRomDone_of_not_slotOk {s : State} (h : s.rst.phase = .bootRom) (hok : s.slotOk s.nor.actSlot = false) :
    execBootRomDone s = .next (if s.slotOk (1 - s.nor.actSlot) then s.fellBack.startImage (1 - s.nor.actSlot)
      else (s.fellBack.modRst fun r => { r with recovery := true, phase := .ready }).presentFn 0) := by
  rw [execBootRomDone, if_neg (not_not.mpr h), if_neg (by simp [hok]), ← s.fellBack_slotOk, ← s.fellBack_nor]
  rfl

theorem State.sealBlock_pcyc (s : State) (t : StreamIx) (b : OpenBlock) (flags : Nat) : Kept (fun s => s.nor.pcyc) s (s.sealBlock t b flags) := rfl

theorem State.sealLate_pcyc (s : State) : Kept (fun s => s.nor.pcyc) s s.sealLate :=
  (Kept.fold (g := fun s => s.nor.pcyc) _ s.nor.unsealed s fun s b => s.sealBlock_pcyc b.1 b.2 1).trans rfl

theorem State.sealLate_unsealed (s : State) : s.sealLate.nor.unsealed = [] := rfl


/-! ### Main firmware, tables and replay -/

/-- The parts that the registers loaded from the configuration area belong to. -/
abbrev loadParts : List Part :=
  [.slice, .lane, .lpe, .trc, .spn, .media, .host, .q, .pwr, .mem, .sec, .evr, .rst, .links, .engSrv, .seq, .rd, .det, .wr, .headSrv, .map, .freq]

theorem State.applyLayout_pcyc (s : State) : Kept (fun s => s.nor.pcyc) s s.applyLayout := .ite .refl rfl

theorem execMainFirmwareDone_effect {laneFail : BitVec 24} {s t : State} (hphase : s.rst.phase = .firmware)
    (h : execMainFirmwareDone laneFail s = .next t) :
    t.rst.phase = .tables ∧ t.rst.pcyc = t.nor.pcyc ∧ t.nor.pcyc = satAdd 32 s.nor.pcyc 1 ∧ t.nor.unsealed = [] := by
  unfold execMainFirmwareDone at h
  injection h with h
  subst h
  rw [if_neg (not_not.mpr hphase)]
  extract_lets s1 s2 s3 s4 s5 s6 s7 s8 s9
  have h5 : s5.nor.pcyc = s.nor.pcyc := by
    have hload : Moves loadParts s.applyLayout s5 := .behind (.fold _ _ _ fun s f => (s.presentFn_moves f).widen (by decide)) <|
      (State.bindLanes_moves ..).after (by decide) <| (State.loadLoops_moves ..).after (by decide) <|
      (State.loadSpindle_moves ..).after (by decide) <| .behind (.fold _ _ _ fun s g => (s.loadHead_moves g).widen (by decide)) <|
      .behind (.fold _ _ _ fun s a => (s.loadEngine_moves a).widen (by decide)) <| (State.loadModule_moves _).widen (by decide)
    exact (Kept.trans s.applyLayout_pcyc (hload.keptNor rfl Nor.pcyc) : _)
  clear_value s5
  have h9 : Moves [.reel, .seq, .trc, .evr, .spn] s7 s9.spindleStart :=
    (State.spindleStart_moves ..).after (by decide) <| .behind
      (.fold _ _ _ fun s a => .ite ((State.startSeq_moves ..).after (by decide) ((s.loadStore_moves a).widen (by decide))) (.refl ..))
      ((State.record_moves ..).widen (by decide))
  have hrst : s9.spindleStart.rst = { s6.rst with pcyc := s6.nor.pcyc, phase := .tables } :=
    (h9.rst_eq rfl).trans ((State.sealLate_moves ..).rst_eq rfl)
  have hnor : s9.spindleStart.nor = s7.nor := h9.nor_eq rfl
  have hpcyc : s7.nor.pcyc = s6.nor.pcyc := State.sealLate_pcyc ..
  rw [hrst, hnor]
  exact ⟨rfl, hpcyc.symm, hpcyc.trans (congrArg (satAdd 32 · 1) h5), State.sealLate_unsealed _⟩

/-- What is done with the tables at a start leaves the journal discarded (R640). -/
theorem State.startZones_journal (s : State) : s.startZones.nor.journal = none := rfl

theorem State.applyConv_journal (s : State) : Kept (fun s => s.nor.journal) s s.applyConv := by
  refine .ite .refl (Kept.trans ?_ (State.modNor_keptNor _ _ fun _ => rfl))
  refine Kept.trans ?_ ((State.modMedia_moves ..).keptNor rfl Nor.journal)
  exact .fold _ _ _ fun s p => s.setZone_keptNor .journal p.1 _

theorem State.reserveImages_journal (s : State) (a : Eng) : Kept (fun s => s.nor.journal) s (s.reserveImages a) :=
  .fold _ _ _ fun s z => Kept.trans (s.setZone_keptNor .journal z _) (State.modNor_keptNor _ _ fun _ => rfl)

theorem State.reserveConv_journal (s : State) : Kept (fun s => s.nor.journal) s s.reserveConv :=
  .ite .refl <| .fold _ _ _ fun s _ => .ite ((s.reserveLog_keptNor .journal ..).trans (State.reserveImages_journal ..)) .refl

/-- The parts of a failing head's reads, loops and writes, up to the rule for its zones. -/
abbrev headParts : List Part :=
  [.slice, .lane, .pool, .wsl, .lpe, .trc, .q, .pwr, .evr, .links, .recv, .engSrv, .seq, .rd, .det, .wr, .headSrv, .map, .freq]

theorem State.headFail_journal (s : State) (g : Head) : Kept (fun s => s.nor.journal) s (s.headFail g) := by
  unfold State.headFail
  split
  · rfl
  next a h _ =>
    refine .ite .refl ?_
    extract_lets s1 s2 s3 s4 s5 s6 s7 s8 s9 s10 s11 s12 s13
    have h3 : Moves headParts s s3 := (State.modMap_moves ..).after (by decide) <| (State.closeJobs_moves ..).after (by decide) <|
      (State.forceWriteOff_moves ..).widen (by decide)
    have h4 : Kept (fun s => s.nor.journal) s3 s4 := State.modNor_keptNor _ _ fun _ => rfl
    have h9 : Moves headParts s4 s9 := (State.modWsl_moves ..).after (by decide) <| (State.modWr_moves ..).after (by decide) <|
      (State.modHs_moves ..).after (by decide) <| (State.disableHeadLoops_moves ..).after (by decide) <|
      (State.packetSettled_moves ..).after (by decide) <| (State.dropReads_moves ..).widen (by decide)
    have h10 : Moves [.lane] s9 s10 := by
      dsimp only [s10]
      split
      · exact (State.settleBind_moves ..).behind (State.modLane_moves ..)
      · exact .refl ..
    have h11 : Kept (fun s => s.nor.journal) s10 s11 := s10.applyZoneRule_keptNor .journal ..
    have h13 : Moves [.media, .trc, .evr, .sec] s11 s13 := (State.resynch_moves ..).after (by decide) <|
      (State.condMap_moves ..).after (by decide) <| (State.markLost_moves ..).widen (by decide)
    exact (h3.keptNor rfl _).trans <| h4.trans <| (h9.keptNor rfl _).trans <| (h10.keptNor rfl _).trans <| h11.trans <|
      (h13.keptNor rfl _).trans ((State.vendorEvent_moves ..).keptNor rfl _)

theorem State.raiseRoll_rst (s : State) (n : Nat) : (s.raiseRoll n).rst = s.rst := (s.raiseRoll_moves n).rst_eq rfl

theorem State.headFails_rst (s : State) (l : List Head) : (l.foldl (fun s g => s.headFail g) s).rst = s.rst :=
  foldl_keeps State.rst _ l s fun s g => (s.headFail_moves g).rst_eq rfl

theorem State.headFails_journal (s : State) (l : List Head) : (l.foldl (fun s g => s.headFail g) s).nor.journal = s.nor.journal :=
  foldl_keeps (fun s => s.nor.journal) _ l s fun s g => s.headFail_journal g

/-- The engines present take up the spare tracks again. -/
def State.sparesStarted (s : State) : State :=
  (fins 4).foldl (fun s (a : Eng) => if s.enginePresent a then s.startSpares a else s) s

theorem State.sparesStarted_journal (s : State) : Kept (fun s => s.nor.journal) s s.sparesStarted :=
  .fold _ _ _ fun s a => .ite ((s.startSpares_moves a).keptNor rfl Nor.journal) .refl

/-- The tables stand: what TABLES_DONE does before it fails the heads that have no lane. -/
def State.tablesReady (s : State) : State :=
  ((s.noteLoss s.journalOk).startZones.sparesStarted.applyConv.reserveConv.modRst fun r => { r with tblReady := true, phase := .ready }).modHost
    fun h => { h with fns := h.fns.map fun x => if x.en then { x with rdy := true } else x }

theorem execTablesDone_of_phase {s : State} (h : s.rst.phase = .tables) :
    execTablesDone s = .next (((fins 24).filter fun (g : Head) =>
      s.tablesReady.headPresent g && (s.tablesReady.laneOf g).isNone).foldl (fun s g => s.headFail g) s.tablesReady) := by
  rw [execTablesDone, if_neg (not_not.mpr h)]
  rfl

theorem State.tablesReady_rst (s : State) : s.tablesReady.rst.tblReady = true ∧ s.tablesReady.rst.phase = .ready := ⟨rfl, rfl⟩

theorem State.tablesReady_journal (s : State) : s.tablesReady.nor.journal = none := by
  have hspares : s.tablesReady.nor = (s.noteLoss s.journalOk).startZones.sparesStarted.applyConv.reserveConv.nor := by
    rw [State.tablesReady, State.modHost_nor, State.modRst_nor]
  rw [hspares]
  calc (s.noteLoss s.journalOk).startZones.sparesStarted.applyConv.reserveConv.nor.journal
    _ = (s.noteLoss s.journalOk).startZones.sparesStarted.applyConv.nor.journal := State.reserveConv_journal _
    _ = (s.noteLoss s.journalOk).startZones.sparesStarted.nor.journal := State.applyConv_journal _
    _ = (s.noteLoss s.journalOk).startZones.nor.journal := State.sparesStarted_journal _
    _ = none := State.startZones_journal _

/-! ### Read-forward and replay -/

theorem execReadForward_rst {s t : State} {z : ZoneNo} {r : List RdFwd} (hpend : s.rst.rdfwdPend.contains z = true)
    (htbl : s.rst.tblReady = true) (hload : s.engineLoaded (s.zoneDesc z).engine = true) (h : execReadForward z r s = .next t) :
    t.rst = { s.rst with rdfwdPend := s.rst.rdfwdPend.filter fun y => y != z } := by
  simp only [execReadForward, hpend, htbl, hload, Bool.and_self, if_true, Host.Outcome.next.injEq] at h
  rw [← h, State.modRst_rst, (State.setZone_moves ..).rst_eq rfl,
    foldl_keeps State.rst _ _ s fun s p => (State.addDefect_moves s _ 2 p).rst_eq rfl]

theorem execIndirectionReplay_rst {s t : State} {imageOk : Bool} (htbl : s.rst.tblReady = true) (hconv : s.rst.convReady = false)
    (hload : s.allLoaded = true) (h : execIndirectionReplay imageOk s = .next t) : t.rst = { s.rst with convReady := true } := by
  simp only [execIndirectionReplay, htbl, hconv, hload, Bool.not_true, Bool.or_self, Bool.false_eq_true, if_false,
    Host.Outcome.next.injEq] at h
  rw [← h, State.modRst_rst, foldl_keeps State.rst _ _ _ fun s g => (State.markLost_moves s _ _).rst_eq rfl]
  rfl

/-! ### The first-stage loader -/

theorem execFirstStageLoaderDone_effect {ch0 ch1 : Bool} {s t : State} (hphase : s.rst.phase = .loader)
    (h : execFirstStageLoaderDone ch0 ch1 s = .next t) :
    t.rst = { s.rst with phase := .firmware } ∧ t.mem.initDone = true ∧ t.mem.chan[(0 : Fin 2)].trained = ch0 ∧
      t.mem.chan[(1 : Fin 2)].trained = ch1 := by
  rw [execFirstStageLoaderDone, if_neg (not_not.mpr hphase), Host.Outcome.next.injEq] at h
  extract_lets s1 s2 s3 newest s4 at h
  have h2 : Moves [.sec, .nor, .fuse] s1 s2 := by
    dsimp only [s2]
    split
    · exact s1.raiseRoll_moves _
    · exact .ite (s1.raiseRoll_moves _) (.refl ..)
  have h4 : Moves [.sec, .nor, .fuse] s1 s4 := .behind (.ite (.refl ..) ((State.advanceAlias_moves ..).widen (by decide))) <|
    (State.modSec_moves ..).after (by decide) h2
  have hrst : s4.rst = s.rst := h4.rst_eq rfl
  have hmem : s4.mem = s1.mem := h4.mem_eq rfl
  subst h
  rw [State.modRst_rst, State.modRst_mem, hrst, hmem]
  exact ⟨rfl, rfl, by simp [s1], by simp [s1]⟩

/-- Settles O18: each clause is the equation of its command in the phase it names. -/
theorem startPhases : Obligations.StartPhases := by
  refine ⟨fun s hloss => ?_, fun s hloss => ?_, fun s hphase => ?_, fun s ch0 ch1 hphase => ?_, fun s laneFail hphase => ?_,
    fun s hphase => ?_, fun s z r hpend htbl hload => ?_, fun s imageOk htbl hconv hload => ?_⟩
  · -- POWER_ON_RESET
    exact ⟨_, execPowerOnReset_of_running hloss, rfl, rfl, rfl, rfl, rfl, rfl, rfl, rfl, rfl, rfl, rfl, rfl, rfl, rfl, rfl⟩
  · -- RAIL_FAULT
    exact ⟨_, execRailFault_of_running hloss, rfl, rfl, rfl, rfl, rfl, rfl, rfl⟩
  · -- BOOT_ROM_DONE
    cases hok : s.slotOk s.nor.actSlot with
    | true =>
      obtain ⟨o, ho⟩ := State.slotOk_image hok
      refine ⟨_, execBootRomDone_of_slotOk hphase hok, fun _ => ?_, nofun, nofun, nofun⟩
      rw [State.startImage_of_slot ho]
      exact ⟨rfl, rfl, ho⟩
    | false =>
      refine ⟨_, execBootRomDone_of_not_slotOk hphase hok, nofun, fun _ => ?_, fun _ hother => ?_, fun _ hother => ?_⟩
      · split
        · rw [State.startImage_fallback, State.fellBack_fallback]
        · exact s.fellBack_fallback
      · obtain ⟨o, ho⟩ := State.slotOk_image hother
        rw [if_pos hother, State.startImage_of_slot (o := o) (by rwa [s.fellBack_nor]), State.modRst_rst, State.modSec_rst, State.fellBack_rst]
        exact ⟨rfl, rfl⟩
      · rw [if_neg (by simp [hother])]
        exact ⟨congrArg (fun r : ResetBlock => { r with recovery := true, phase := .ready }) s.fellBack_rst, by simp [State.presentFn]⟩
  · -- FIRST_STAGE_LOADER_DONE
    exact ⟨_, rfl, execFirstStageLoaderDone_effect hphase rfl⟩
  · -- MAIN_FIRMWARE_DONE
    obtain ⟨hph, hcyc, hnor, huns⟩ := execMainFirmwareDone_effect hphase (laneFail := laneFail) rfl
    refine ⟨_, rfl, hph, hcyc, hnor, huns, ?_⟩
    exact ((execMainFirmwareDone_after_layout hphase rfl).layout_eq rfl).trans s.applyLayout_layout
  · -- TABLES_DONE
    refine ⟨_, execTablesDone_of_phase hphase, ?_, ?_, ?_⟩
    · rw [State.headFails_rst, s.tablesReady_rst.1]
    · rw [State.headFails_rst, s.tablesReady_rst.2]
    · rw [State.headFails_journal, s.tablesReady_journal]
  · -- READ_FORWARD
    exact ⟨_, rfl, execReadForward_rst hpend htbl hload rfl⟩
  · -- INDIRECTION_REPLAY
    exact ⟨_, rfl, execIndirectionReplay_rst htbl hconv hload rfl⟩

end Sys2Proof.Machine
end

section
/-! SUPPORT. Power loss, its journal and the periodic stores, SRST# and the test access port (20_start_reset_powerloss.md,
21_signals_electrical.md). -/

namespace Sys2Proof.Machine
open Sys2Proof
set_option Elab.async false

/-- The supply is lost: what the power loss logic records of it (R632), before it ends the writes and retracts the actuators. -/
def State.supplyLost (s : State) : State :=
  ((s.modRst fun r => { r with rail12 := false, powerLoss := true, journalDone := false, plCnt := inc 32 s.rst.plCnt }).saturated
    (reaches 32 s.rst.plCnt) 0x12 5 0 0x31C (nw (inc 32 s.rst.plCnt))).modNor fun x => { x with lossPend := true, unlOk := true, unlMs := 0 }

/-- Every write ends where it is (R632). -/
def State.allWritesOff (s : State) : State :=
  (fins 4).foldl (fun s (a : Eng) => if s.enginePresent a then s.forceWritesOff a (s.headsOf a) true true else s) s

theorem State.allWritesOff_moves (s : State) : Moves [.trc, .evr, .links, .engSrv, .seq, .wr, .headSrv] s s.allWritesOff :=
  .fold _ _ _ fun s a => .ite (s.forceWritesOff_moves a _ _ _) (.refl ..)

theorem execPowerFail_of_running {s : State} (h : s.rst.powerLoss = false) :
    execPowerFail s = .next s.supplyLost.allWritesOff.pavaneAll.gateIslands := by
  rw [execPowerFail, if_neg (by simp [h])]
  rfl

theorem State.supplyLost_rst (s : State) : s.supplyLost.rst =
    { s.rst with rail12 := false, powerLoss := true, journalDone := false, plCnt := inc 32 s.rst.plCnt } := by
  rw [State.supplyLost, State.modNor_rst, State.saturated_rst, State.modRst_rst]

/-- From the loss of the supply on, the reset block changes in its actuators only. -/
theorem State.supplyLost_sansActs (s : State) :
    s.supplyLost.allWritesOff.pavaneAll.gateIslands.rst.sansActs = s.supplyLost.rst.sansActs :=
  calc s.supplyLost.allWritesOff.pavaneAll.gateIslands.rst.sansActs
    _ = s.supplyLost.allWritesOff.pavaneAll.rst.sansActs := congrArg ResetBlock.sansActs ((State.gateIslands_moves _).rst_eq rfl)
    _ = s.supplyLost.allWritesOff.rst.sansActs := State.pavaneAll_sansActs _
    _ = s.supplyLost.rst.sansActs := (State.allWritesOff_moves _).keptRst rfl _

theorem State.supplyLost_lossPend (s : State) : s.supplyLost.allWritesOff.pavaneAll.gateIslands.nor.lossPend = true := by
  have hnor : s.supplyLost.allWritesOff.pavaneAll.gateIslands.nor = s.supplyLost.nor :=
    ((State.gateIslands_moves _).after (by decide) <| (State.pavaneAll_moves _).after (by decide) <|
      (s.supplyLost.allWritesOff_moves).widen (n := [.slice, .lane, .pool, .host, .mem, .trc, .evr, .rst, .links, .engSrv, .seq, .wr, .headSrv])
        (by decide)).nor_eq rfl
  rw [hnor]
  rfl

theorem execJournalProgram_effect {s t : State} (hloss : s.rst.powerLoss = true) (hdone : s.rst.journalDone = false)
    (htbl : s.rst.tblReady = true) (h : execJournalProgram s = .next t) :
    ∃ e : List (ZoneNo × Nat × BitVec 28), e.length ≤ 8188 ∧ t = { s with
      rst := { s.rst with journalDone := true }
      nor := { s.nor with poh := s.rst.poh, journal := some { pcyc := s.nor.pcyc, poh := s.rst.poh, entries := e, valid := true } } } := by
  simp only [execJournalProgram, hloss, hdone, Bool.not_false, Bool.and_self, if_true, State.modRst_rst, htbl,
    Host.Outcome.next.injEq] at h
  exact ⟨_, List.length_take_le .., h.symm⟩

theorem execPowerLossEnd_of_loss {s : State} (h : s.rst.powerLoss = true) :
    ∃ n, execPowerLossEnd s = .next { s with
      rst := { s.rst with powerLoss := false, resetDue := if s.rst.rail12 then some 2 else none }
      nor := n
      spn := if s.spn.state = .stopped then s.spn else { s.spn with state := .coast, icmd := 0, goodRun := 0, steps := [] } } := by
  rw [execPowerLossEnd, if_pos h]
  dsimp only
  split
  · exact ⟨s.nor, rfl⟩
  · exact ⟨{ s.nor with unlOk := false }, rfl⟩

/-- Reset blocks equal but for their actuators are equal in every other field that a clause names. -/
theorem ResetBlock.fields_of_sansActs {r q : ResetBlock} (h : r.sansActs = q.sansActs) : r.rail12 = q.rail12 ∧
    r.powerLoss = q.powerLoss ∧ r.journalDone = q.journalDone ∧ r.plCnt = q.plCnt ∧ r.moduleReset = q.moduleReset :=
  ⟨congrArg (·.rail12) h, congrArg (·.powerLoss) h, congrArg (·.journalDone) h, congrArg (·.plCnt) h, congrArg (·.moduleReset) h⟩

theorem execIndirectionImage_image {s t : State} (hconv : s.rst.convReady = true) (hdue : s.imageDue = true)
    (h : execIndirectionImage s = .next t) : ∃ mps, t.nor.image = some { entries := s.media.indir, mps := mps } := by
  simp only [execIndirectionImage, hconv, hdue, Bool.and_self, if_true, Host.Outcome.next.injEq] at h
  rw [← h, (State.endModuleReset_moves _).nor_eq rfl, State.modRst_nor, State.modNor_nor]
  exact ⟨_, rfl⟩

theorem State.beginModuleReset_moduleReset (s : State) : s.beginModuleReset.rst.moduleReset = true := by
  obtain ⟨_, _, _, _, hreset⟩ := ResetBlock.fields_of_sansActs (State.settleReset_sansActs (s.modRst fun r => { r with moduleReset := true }))
  rw [State.beginModuleReset, hreset]
  rfl

/-- Settles O19: each clause is the equation of its command on the states it names. -/
theorem powerLossAndStores : Obligations.PowerLossAndStores := by
  refine ⟨fun s hloss => ?_, fun s hloss hdone htbl => ?_, fun s hloss => ?_, fun s hlt => ?_, fun s hle => ?_, fun s htbl hdue => ?_,
    fun s hconv hdue => ?_, fun s hunl => ?_, fun s hunl => ?_, fun s => ⟨_, rfl, rfl⟩, fun s => ⟨_, rfl, rfl⟩⟩
  · -- POWER_FAIL
    obtain ⟨hrail, hpl, hdone, hcnt, _⟩ := ResetBlock.fields_of_sansActs s.supplyLost_sansActs
    rw [s.supplyLost_rst] at hrail hpl hdone hcnt
    exact ⟨_, execPowerFail_of_running hloss, hrail, hpl, hdone, hcnt, s.supplyLost_lossPend, rfl,
      fun n => by simp [State.gateIslands], rfl, rfl⟩
  · -- JOURNAL_PROGRAM
    obtain ⟨e, hlen, ht⟩ := execJournalProgram_effect hloss hdone htbl rfl
    refine ⟨_, rfl, ?_⟩
    rw [ht]
    exact ⟨rfl, rfl, ⟨e, rfl, hlen⟩, rfl⟩
  · -- POWER_LOSS_END
    obtain ⟨n, hn⟩ := execPowerLossEnd_of_loss hloss
    refine ⟨_, hn, rfl, fun hrun => ?_, rfl⟩
    rw [if_neg hrun]
    exact ⟨rfl, rfl⟩
  · -- POH_STORE at its time
    exact ⟨_, congrArg Host.Outcome.next (if_pos hlt), rfl⟩
  · -- POH_STORE early
    exact ⟨_, congrArg Host.Outcome.next (if_neg hle.not_gt), rfl⟩
  · -- MP_CHECKPOINT
    exact ⟨_, congrArg Host.Outcome.next (if_pos ⟨htbl, hdue⟩), rfl⟩
  · -- INDIRECTION_IMAGE
    exact ⟨_, rfl, execIndirectionImage_image hconv hdue rfl⟩
  · -- SRST_ASSERT unlocked
    exact ⟨_, congrArg Host.Outcome.next (if_pos hunl), s.beginModuleReset_moduleReset⟩
  · -- SRST_ASSERT locked
    exact ⟨_, congrArg Host.Outcome.next (if_neg (by simp [hunl])), rfl⟩

end Sys2Proof.Machine
end

section
/-! SUPPORT. Packets that are ready to run: those that only report, those that only count, and those whose rule changes registers
(R514, R517, R519). -/

namespace Sys2Proof.Machine
open Sys2Proof
set_option Elab.async false

/-! ### A packet that starts -/

@[simp] theorem State.startPacket_pending (s : State) (o : OpInfo) (p : Packet) : (s.startPacket o p).pending = s.pending := rfl
@[simp] theorem State.startPacket_free (s : State) (o : OpInfo) (p : Packet) : (s.startPacket o p).free = s.free := rfl
@[simp] theorem State.startPacket_mtime (s : State) (o : OpInfo) (p : Packet) : (s.startPacket o p).mtime = s.mtime := rfl
@[simp] theorem State.startPacket_layout (s : State) (o : OpInfo) (p : Packet) : (s.startPacket o p).layout = s.layout := rfl
@[simp] theorem State.startPacket_eng (s : State) (o : OpInfo) (p : Packet) : (s.startPacket o p).eng = s.eng := rfl
@[simp] theorem State.startPacket_head (s : State) (o : OpInfo) (p : Packet) : (s.startPacket o p).head = s.head := rfl
@[simp] theorem State.startPacket_slice (s : State) (o : OpInfo) (p : Packet) : (s.startPacket o p).slice = s.slice := rfl
@[simp] theorem State.startPacket_lane (s : State) (o : OpInfo) (p : Packet) : (s.startPacket o p).lane = s.lane := rfl
@[simp] theorem State.startPacket_pool (s : State) (o : OpInfo) (p : Packet) : (s.startPacket o p).pool = s.pool := rfl
@[simp] theorem State.startPacket_mems (s : State) (o : OpInfo) (p : Packet) : (s.startPacket o p).mems = s.mems := rfl
@[simp] theorem State.startPacket_wsl (s : State) (o : OpInfo) (p : Packet) : (s.startPacket o p).wsl = s.wsl := rfl
@[simp] theorem State.startPacket_lpe (s : State) (o : OpInfo) (p : Packet) : (s.startPacket o p).lpe = s.lpe := rfl
@[simp] theorem State.startPacket_trc (s : State) (o : OpInfo) (p : Packet) : (s.startPacket o p).trc = s.trc := rfl
@[simp] theorem State.startPacket_spn (s : State) (o : OpInfo) (p : Packet) : (s.startPacket o p).spn = s.spn := rfl
@[simp] theorem State.startPacket_media (s : State) (o : OpInfo) (p : Packet) : (s.startPacket o p).media = s.media := rfl
@[simp] theorem State.startPacket_host (s : State) (o : OpInfo) (p : Packet) : (s.startPacket o p).host = s.host := rfl
@[simp] theorem State.startPacket_q (s : State) (o : OpInfo) (p : Packet) : (s.startPacket o p).q = s.q := rfl
@[simp] theorem State.startPacket_pwr (s : State) (o : OpInfo) (p : Packet) : (s.startPacket o p).pwr = s.pwr := rfl
@[simp] theorem State.startPacket_mem (s : State) (o : OpInfo) (p : Packet) : (s.startPacket o p).mem = s.mem := rfl
@[simp] theorem State.startPacket_sec (s : State) (o : OpInfo) (p : Packet) : (s.startPacket o p).sec = s.sec := rfl
@[simp] theorem State.startPacket_evr (s : State) (o : OpInfo) (p : Packet) : (s.startPacket o p).evr = s.evr := rfl
@[simp] theorem State.startPacket_nor (s : State) (o : OpInfo) (p : Packet) : (s.startPacket o p).nor = s.nor := rfl
@[simp] theorem State.startPacket_fuse (s : State) (o : OpInfo) (p : Packet) : (s.startPacket o p).fuse = s.fuse := rfl
@[simp] theorem State.startPacket_rst (s : State) (o : OpInfo) (p : Packet) : (s.startPacket o p).rst = s.rst := rfl
@[simp] theorem State.startPacket_out (s : State) (o : OpInfo) (p : Packet) : (s.startPacket o p).out = s.out := rfl
@[simp] theorem State.startPacket_snaps (s : State) (o : OpInfo) (p : Packet) : (s.startPacket o p).snaps = s.snaps := rfl

/-! ### Elements of changed vectors -/

theorem vmod_same {α : Type} {n : Nat} (v : Vector α n) (i : Fin n) (f : α → α) : (vmod v i f)[i] = f v[i] := by simp

theorem vmod_other {α : Type} {n : Nat} (v : Vector α n) (f : α → α) {i j : Fin n} (h : i ≠ j) : (vmod v i f)[j] = v[j] := by
  simp [Fin.val_inj, h]

theorem vset_same {α : Type} {n : Nat} (v : Vector α n) (i : Fin n) (x : α) : (vset v i x)[i] = x := by simp

theorem vset_other {α : Type} {n : Nat} (v : Vector α n) (x : α) {i j : Fin n} (h : i ≠ j) : (vset v i x)[j] = v[j] := by
  simp [Fin.val_inj, h]

theorem vmod_id {α : Type} {n : Nat} (v : Vector α n) (i : Fin n) {f : α → α} (h : f v[i] = v[i]) : vmod v i f = v := by
  ext k hk
  rw [vmod_get]
  split
  · subst k
    exact h
  · rfl

theorem vmod_vmod {α : Type} {n : Nat} (v : Vector α n) (i : Fin n) (f g : α → α) :
    vmod (vmod v i f) i g = vmod v i fun x => g (f x) := by
  ext k hk
  rw [vmod_get, vmod_get, vmod_get]
  split <;> rfl

theorem vmod_congr {α : Type} {n : Nat} (v : Vector α n) (i : Fin n) {f g : α → α} (h : f v[i] = g v[i]) : vmod v i f = vmod v i g := by
  ext k hk
  rw [vmod_get, vmod_get]
  split
  · subst k
    exact h
  · rfl

theorem State.modEng_modEng (s : State) (a : Eng) (f g : Engine → Engine) : (s.modEng a f).modEng a g = s.modEng a fun e => g (f e) := by
  simp only [State.modEng, vmod_vmod]

theorem State.modEng_congr (s : State) (a : Eng) {f g : Engine → Engine} (h : f s.eng[a] = g s.eng[a]) : s.modEng a f = s.modEng a g := by
  simp only [State.modEng, vmod_congr _ _ h]

/-! ### Ready packets -/

/-- A ready packet whose rule reports words of the state completes with these words and leaves but its reply. -/
theorem completes_report {o : OpInfo} {p : Packet} {s : State} {body : State → PktRes} {clamp : Nat} {words : List Word}
    (h : ready o p s = true)
    (hbody : body (s.startPacket o p) = { state := s.startPacket o p, clamp := clamp, result := words }) :
    Completes (.next (runPacket o p s body)) fun t => Answered s t o.code p words ∧ t = s.afterReply t :=
  completes_packet h (by rw [hbody]) (by rw [hbody]) (by rw [hbody]; rfl) fun t hshape hreplied => by
    rw [hbody] at hshape hreplied
    exact ⟨⟨clamp, hreplied⟩, ((s.startPacket_shape o p).trans hshape).afterReply⟩

theorem Replied.answered {s t : State} {code : Nat} {p : Packet} {status clamp : Nat} {words : List Word}
    (h : Replied s t code p status clamp words) (hstatus : status = 0) : Answered s t code p words := ⟨clamp, hstatus ▸ h⟩

/-- A ready packet whose rule comes to the result r, succeeds and neither waits nor touches the packet block or the outputs completes with
the words of r as its answer, and with the state of r but for what a reply touches. -/
theorem completes_result {o : OpInfo} {p : Packet} {s : State} {body : State → PktRes} {r : PktRes} {P : State → Prop} {m : List Part}
    (h : ready o p s = true) (hbody : body (s.startPacket o p) = r) (hmoves : Moves m (s.startPacket o p) (body (s.startPacket o p)).state)
    (hhet : m.contains .het = false) (hout : m.contains .out = false) (hwait : r.wait = false) (hstatus : r.status = 0)
    (hP : ∀ t, ReplyShape r.state t → Answered s t o.code p r.result → P t) : Completes (.next (runPacket o p s body)) P := by
  subst hbody
  exact completes_packet h hwait (congrArg Hetos.exchanges (hmoves.het_eq hhet)) (congrArg Outputs.replies (hmoves.out_eq hout))
    fun t hshape hreplied => hP t hshape (hreplied.answered hstatus)

/-- A ready packet whose rule succeeds and neither waits nor touches the packet block or the outputs completes with the words of its rule
as its answer, and with its rule's state but for what a reply touches. -/
theorem completes_op {o : OpInfo} {p : Packet} {s : State} {body : State → PktRes} {P : State → Prop} {m : List Part}
    (h : ready o p s = true) (hmoves : Moves m (s.startPacket o p) (body (s.startPacket o p)).state) (hhet : m.contains .het = false)
    (hout : m.contains .out = false) (hwait : (body (s.startPacket o p)).wait = false) (hstatus : (body (s.startPacket o p)).status = 0)
    (hP : ∀ t, ReplyShape (body (s.startPacket o p)).state t → Answered s t o.code p (body (s.startPacket o p)).result → P t) :
    Completes (.next (runPacket o p s body)) P :=
  completes_result h rfl hmoves hhet hout hwait hstatus hP

/-- A ready packet whose rule asks to wait joins the waiting packets; its reply comes later. -/
theorem completes_wait {o : OpInfo} {p : Packet} {s : State} {body : State → PktRes} {r : PktRes} {P : State → Prop}
    (h : ready o p s = true) (hbody : body (s.startPacket o p) = r) (hwait : r.wait = true)
    (hP : P (r.state.modHet fun x => { x with waiting := x.waiting ++ [(BitVec.ofNat 16 o.code, p)] })) :
    Completes (.next (runPacket o p s body)) P := by
  refine ⟨_, rfl, ?_⟩
  simp only [ready, Bool.and_eq_true, Bool.not_eq_true', beq_iff_eq] at h
  obtain ⟨⟨⟨⟨hstart, hrec⟩, hcheck⟩, hdry⟩, -⟩ := h
  have hcheck' : headerCheck o p (s.startPacket o p) = 0 := hcheck
  subst hbody
  simpa [runPacket, hstart, hcheck', hrec, hdry, hwait] using hP

end Sys2Proof.Machine
end

section
/-! SUPPORT. What an event, and a reply with the events it may give rise to, do to the trace buffers: nothing, or triggers by an event
(R329, R330); and what of the host link it leaves alone. -/

namespace Sys2Proof.Machine
open Sys2Proof
set_option Elab.async false

/-- What a reply and the completion it may post are made of: changes of the packet block and of the outputs, events, the list of partners'
violations, and completion queues with the count of errors completed. -/
inductive ReplyStep : State → State → Prop
  | het (s : State) (f : Hetos → Hetos) : ReplyStep s (s.modHet f)
  | out (s : State) (f : Outputs → Outputs) : ReplyStep s (s.modOut f)
  | record (s : State) (type level index reg : Nat) (value : Word) (words : List Word) :
      ReplyStep s (s.record type level index reg value words)
  | violations (s : State) (f : HostLink → List (Violation × Nat × Nat)) : ReplyStep s (s.modHost fun h => { h with violations := f h })
  | completed (s : State) (n : Fn) (f : FnState → List CompQueue) (g : FnState → Nat) :
      ReplyStep s (s.modFn n fun x => { x with cqs := f x, cmdErrCnt := g x })

/-- Any number of these. -/
abbrev ReplySteps : State → State → Prop := Relation.ReflTransGen ReplyStep

namespace ReplySteps

theorem one {s t : State} (h : ReplyStep s t) : ReplySteps s t := .single h

theorem ite {c : Prop} {_ : Decidable c} {s t u : State} (h1 : ReplySteps s t) (h2 : ReplySteps s u) :
    ReplySteps s (if c then t else u) := by
  split <;> assumption

theorem saturated (s : State) (reached : Bool) (subsys level index reg : Nat) (value : Word) :
    ReplySteps s (s.saturated reached subsys level index reg value) := ReplySteps.ite (.one (.record ..)) .refl

theorem violated (s : State) (v : Violation) (f level index reg : Nat) (value : Word) (words : List Word) :
    ReplySteps s (s.violated v f level index reg value words) := by
  unfold State.violated
  exact ReplySteps.ite (.one (.violations ..)) ((one (.violations ..)).tail (.record ..))

theorem post (s : State) (c : Completion) : ReplySteps s (s.post c) := by
  unfold State.post
  extract_lets f irq s1 s2 s3
  have h1 : ReplySteps s s1 := .one (.completed s c.fn (fun x => x.cqs.map fun q => if q.id = c.cq then q.post else q) (·.cmdErrCnt))
  have h2 : ReplySteps s1 s2 := .one (.completed s1 c.fn (·.cqs) fun x => satAdd 16 x.cmdErrCnt 1)
  exact .tail (ReplySteps.ite ((h1.trans h2).trans (violated ..)) h1) (.out ..)

theorem countPacket (s : State) (src : Sender) (status clamp : Nat) : ReplySteps s (s.countPacket src status clamp) :=
  (one (.het ..)).trans (saturated ..)

theorem answerIdle (s : State) (ex : Exchange) (l : List (BitVec 16 × Packet)) : ReplySteps s (answerIdle s ex l).1 := by
  induction l generalizing s ex with
  | nil => exact .refl
  | cons x l ih =>
    obtain ⟨op, p⟩ := x
    unfold Machine.answerIdle
    split
    · exact (one (.out ..)).trans (ih ..)
    · split
      · exact .refl
      · exact (((one (.het ..)).trans (countPacket ..)).tail (.out ..)).trans (ih ..)

theorem endExchange (s : State) (ex : Exchange) : ReplySteps s (s.endExchange ex) := by
  unfold State.endExchange
  extract_lets s1 s2
  have h1 : ReplySteps s s1 := .one (.het ..)
  have h2 : ReplySteps s s2 := h1.tail (.out ..)
  split
  · exact h1
  · split
    · exact .trans (ReplySteps.ite h2 (h2.tail (.out ..))) (post ..)
    · exact h2.tail (.out ..)

theorem advanceExchange (s : State) (ex : Exchange) : ReplySteps s (s.advanceExchange ex) := by
  have h1 := answerIdle s ex ex.todo
  unfold State.advanceExchange
  generalize Machine.answerIdle s ex ex.todo = r at h1 ⊢
  obtain ⟨s1, e1⟩ := r
  exact ReplySteps.ite (h1.trans (endExchange ..)) (h1.tail (.het ..))

theorem reply (s : State) (code : Nat) (p : Packet) (status clamp : Nat) (words : List Word) :
    ReplySteps s (s.reply code p status clamp words) := by
  unfold State.reply
  extract_lets r s1
  have h1 : ReplySteps s s1 := countPacket ..
  split
  · exact h1.tail (.out ..)
  · exact .trans (ReplySteps.ite h1 (h1.tail (.out ..))) (advanceExchange ..)

end ReplySteps

/-! ### The trace buffers -/

theorem State.traceTrigger_of_record (s : State) (type level index reg : Nat) (value : Word) (words : List Word) :
    (s.record type level index reg value words).trc = s.trc ∨
      s.trc.tEvt = true ∧ (s.record type level index reg value words).trc = (s.traceTrigger 0b010).trc := by
  unfold State.record
  extract_lets hit trace e
  obtain ⟨y, hy⟩ := (if hit = true then s.traceTrigger 0b010 else s).pushRecord_shape e
  rw [hy]
  split
  next hhit =>
    simp only [hit, Trace.wants, Bool.and_eq_true] at hhit
    exact .inr ⟨hhit.1, rfl⟩
  · exact .inl rfl

/-- Whatever of the trace buffers a trigger by an event keeps, a reply keeps. -/
theorem ReplySteps.trc {s t : State} (h : ReplySteps s t) (P : Trace → Prop)
    (hstep : ∀ x : State, x.mtime = s.mtime → x.trc.tEvt = true → P x.trc → P (x.traceTrigger 0b010).trc) (hs : P s.trc) :
    t.mtime = s.mtime ∧ P t.trc := by
  induction h with
  | refl => exact ⟨rfl, hs⟩
  | tail _ hlast ih =>
    obtain ⟨hm, hP⟩ := ih
    cases hlast with
    | record =>
      refine ⟨(State.record_mtime ..).trans hm, ?_⟩
      rcases State.traceTrigger_of_record _ _ _ _ _ _ _ with hsame | ⟨hevt, htrig⟩
      · rw [hsame]
        exact hP
      · rw [htrig]
        exact hstep _ hm hevt hP
    | _ => exact ⟨hm, hP⟩

/-! ### The host link -/

/-- A reply changes no register of the host link but those of its completion queues. -/
theorem ReplySteps.host {s t : State} (h : ReplySteps s t) : ∃ fns violations, t.host = { s.host with fns := fns, violations := violations } ∧
    ∀ n : Fn, ∃ cqs cnt, fns[n] = { s.host.fns[n] with cqs := cqs, cmdErrCnt := cnt } := by
  induction h with
  | refl => exact ⟨_, _, rfl, fun n => ⟨_, _, rfl⟩⟩
  | @tail u v _ hlast ih =>
    obtain ⟨fns, violations, hhost, hfns⟩ := ih
    cases hlast with
    | het => exact ⟨fns, violations, hhost, hfns⟩
    | out => exact ⟨fns, violations, hhost, hfns⟩
    | record => exact ⟨fns, violations, (State.record_host ..).trans hhost, hfns⟩
    | violations f =>
      refine ⟨fns, f u.host, ?_, hfns⟩
      rw [State.modHost_host, hhost]
    | completed n f g =>
      refine ⟨vmod fns n fun x => { x with cqs := f x, cmdErrCnt := g x }, violations, ?_, fun k => ?_⟩
      · rw [State.modFn_host, hhost]
      · obtain ⟨cqs, cnt, hk⟩ := hfns k
        by_cases hnk : n = k
        · subst hnk
          rw [vmod_same, hk]
          exact ⟨_, _, rfl⟩
        · rw [vmod_other _ _ hnk, hk]
          exact ⟨_, _, rfl⟩

/-! ### Ready packets -/

/-- As `completes_result`, with the steps of the reply. -/
theorem completes_steps {o : OpInfo} {p : Packet} {s : State} {body : State → PktRes} {r : PktRes} {P : State → Prop} {m : List Part}
    (h : ready o p s = true) (hbody : body (s.startPacket o p) = r) (hmoves : Moves m (s.startPacket o p) (body (s.startPacket o p)).state)
    (hhet : m.contains .het = false) (hout : m.contains .out = false) (hwait : r.wait = false) (hstatus : r.status = 0)
    (hP : ∀ t, ReplyShape r.state t → ReplySteps r.state t → Answered s t o.code p r.result → P t) :
    Completes (.next (runPacket o p s body)) P := by
  subst hbody
  refine ⟨_, rfl, ?_⟩
  have hrun := runPacket_ready o p s body h hwait
  have hreplied := reply_replied (body (s.startPacket o p)).state o.code p (body (s.startPacket o p)).status
    (body (s.startPacket o p)).clamp (body (s.startPacket o p)).result
    ((congrArg Hetos.exchanges (hmoves.het_eq hhet)).symm ▸ startPacket_exchanges o p s h)
  rw [hrun]
  have hans := (hreplied.of_replies_eq (s := s) (congrArg Outputs.replies (hmoves.out_eq hout))).answered hstatus
  exact hP _ (reply_shape ..) (ReplySteps.reply ..) hans

end Sys2Proof.Machine
end

section
/-! SUPPORT. Words made of fields: what a stored word holds of what was sent (the clamps of 15_hetos_packets.md). -/

namespace Sys2Proof.Machine
open Sys2Proof
set_option Elab.async false

theorem bfi_natCast (hi lo n : Nat) : bfi hi lo (n : Int) = n % 2 ^ (hi + 1 - lo) * 2 ^ lo := by
  rw [bfi, ← Int.natCast_mod, Int.toNat_natCast]

theorem fld_lt (w : Word) (hi lo : Nat) : fld w hi lo < 2 ^ (hi + 1 - lo) := Nat.mod_lt _ (Nat.two_pow_pos _)

theorem stored_any (hi lo : Nat) (old sent : Word) : (fAny hi lo).stored old sent = (fld sent hi lo : Int) := rfl

theorem stored_in (hi lo a b : Nat) (old sent : Word) :
    (fIn hi lo (a : Int) (b : Int)).stored old sent = ((max a (min (fld sent hi lo) b) : Nat) : Int) := by
  simp only [Field.stored, fIn, Field.value, clampInt]
  push_cast
  rfl

theorem getLsbD_eq_div (w : Word) (i : Nat) : w.getLsbD i = decide (w.toNat / 2 ^ i % 2 = 1) := Nat.testBit_eq_decide_div_mod_eq

/-- A word of one field, as a number. -/
theorem clampWord_one_toNat {f : Field} {old sent : Word} {m : Nat} (hm : f.stored old sent = (m : Int)) :
    (clampWord [f] old sent).toNat = m % 2 ^ (f.hi + 1 - f.lo) * 2 ^ f.lo % 2 ^ 32 := by
  simp [clampWord, mkw, hm, bfi_natCast]

/-- A word of two fields, as a number. -/
theorem clampWord_pair_toNat {f g : Field} {old sent : Word} {m n : Nat} (hm : f.stored old sent = (m : Int))
    (hn : g.stored old sent = (n : Int)) : (clampWord [f, g] old sent).toNat =
      (m % 2 ^ (f.hi + 1 - f.lo) * 2 ^ f.lo + n % 2 ^ (g.hi + 1 - g.lo) * 2 ^ g.lo) % 2 ^ 32 := by
  simp [clampWord, mkw, hm, hn, bfi_natCast]

/-- A number clamped to its greatest value, where it does not exceed it. -/
theorem clampWord_of_le {b : Nat} {w : Word} (old : Word) (h : w.toNat ≤ b) : clampWord [fIn 31 0 0 (b : Int)] old w = w := by
  rw [show (0 : Int) = ((0 : Nat) : Int) from rfl, clampWord_whole, min_eq_left h]
  simp [nw]

end Sys2Proof.Machine
end

section
/-! SUPPORT. The packets of the track sequencer (11_track_sequencer.md). -/

namespace Sys2Proof.Machine
open Sys2Proof
set_option Elab.async false

/-- Settles O40. -/
theorem sequencerPackets : Obligations.SequencerPackets := by
  refine ⟨fun s p h => completes_report h rfl, fun s p h => ?_, fun s p h => completes_report h rfl, fun s p h _ => completes_report h rfl,
    fun s p h => ?_⟩
  · -- SEQ_CONFIG
    refine completes_op h (opSeqConfig_moves ..) rfl rfl rfl rfl fun t hshape hans => ?_
    obtain ⟨_, _, _, _, _, rfl⟩ := hshape
    exact ⟨⟨congrArg Engine.seq (vmod_same ..), hans⟩, fun b hb => vmod_other _ _ hb, rfl⟩
  · -- SEQ_CLEAR
    refine completes_op h (opSeqClear_moves ..) rfl rfl rfl rfl fun t hshape _ => ?_
    obtain ⟨_, _, _, _, _, rfl⟩ := hshape
    exact ⟨congrArg Engine.seq (vmod_same ..), fun b hb => vmod_other _ _ hb, rfl⟩

end Sys2Proof.Machine
end

section
/-! SUPPORT. The packets of the decoder pool and of recovery (06_decoder_pool_recovery.md). -/

namespace Sys2Proof.Machine
open Sys2Proof
set_option Elab.async false

/-- Settles O28. -/
theorem poolAndRecoveryPackets : Obligations.PoolAndRecoveryPackets := by
  refine ⟨fun s p h => completes_report h rfl, fun s p h => ?_, fun s p h _ => completes_report h rfl, fun s p h => completes_report h rfl,
    fun s p h => ?_, fun s p h => ?_, fun s p h => completes_report h rfl, fun s p h => ?_⟩
  · -- POOL_CONFIG
    refine completes_op h (opPoolConfig_moves ..) rfl rfl rfl rfl fun t hshape hans => ?_
    obtain ⟨_, _, _, _, _, rfl⟩ := hshape
    exact ⟨rfl, hans, rfl⟩
  · -- POOL_CLEAR
    refine completes_op h (opPoolClear_moves ..) rfl rfl rfl rfl fun t hshape _ => ?_
    obtain ⟨_, _, _, _, _, rfl⟩ := hshape
    exact ⟨⟨rfl, vmod_same .., vmod_same ..⟩, rfl⟩
  · -- REC_CONFIG
    refine completes_op h (opRecConfig_moves ..) rfl rfl rfl rfl fun t hshape hans => ?_
    obtain ⟨_, _, _, _, _, rfl⟩ := hshape
    exact ⟨⟨congrArg Engine.recv (vmod_same ..), hans⟩, fun b hb => vmod_other _ _ hb, rfl⟩
  · -- REC_CLEAR
    refine completes_op h (opRecClear_moves ..) rfl rfl rfl rfl fun t hshape _ => ?_
    obtain ⟨_, _, _, _, _, rfl⟩ := hshape
    have hrecv : (opRecClear p (s.startPacket ⟨0x0167, [4], .action⟩ p)).state.eng[p.eng].recv = { s.eng[p.eng].recv with
        stepOk := Vector.ofFn fun (i : Fin 7) => clr (fld (p.w 0) 9 0) i.val s.eng[p.eng].recv.stepOk[i]
        unrecCnt := clr (fld (p.w 0) 9 0) 7 s.eng[p.eng].recv.unrecCnt
        reallocCnt := clr (fld (p.w 0) 9 0) 8 s.eng[p.eng].recv.reallocCnt
        revsCnt := clr (fld (p.w 0) 9 0) 9 s.eng[p.eng].recv.revsCnt } := congrArg Engine.recv (vmod_same ..)
    refine ⟨?_, ?_, ?_, fun i => ?_, fun b hb => vmod_other _ _ hb, rfl⟩
    all_goals dsimp only; rw [hrecv]
    simp

end Sys2Proof.Machine
end

section
/-! SUPPORT. Seeks and the packets of the servo (08_servo_positioning.md). -/

namespace Sys2Proof.Machine
open Sys2Proof
set_option Elab.async false

/-- Retargeting sets the arm's target, if anything. -/
theorem State.retarget_shape (s : State) (a : Eng) : ∃ x, s.retarget a = s.modSrv a fun v => { v with armTgt := x } := by
  unfold State.retarget
  split
  · exact ⟨_, rfl⟩
  · exact ⟨s.eng[a].srv.armTgt, by rw [State.modSrv, State.modEng, vmod_id _ _ rfl]⟩

/-- A seek asked for in Minuet, with power granted for it, sets the target of its head and waits for its start. -/
theorem execSeekRequest_minuet {s : State} {a : Eng} {h : LHead} (tgt : BitVec 30) {g : Head} (hg : s.globalHead a h.val = some g)
    (hmode : s.eng[a].srv.mode = .minuet) (hdepop : s.head[g].map.depop = false) (hdraw : s.pwr.eng[a].seekDraw ≠ 0)
    (hlate : s.pwr.late = none) : ∃ x, execSeekRequest a h tgt s =
      .next ((s.modHs g fun y => { y with tgt := tgt.toNat }).modSrv a fun v =>
        { v with armTgt := x, seekCnt := satAdd 32 v.seekCnt 1, galopSet := s.pwr.eng[a].galop, seekDue := true }) := by
  obtain ⟨x, hx⟩ := (s.modHs g fun y => { y with tgt := tgt.toNat }).retarget_shape a
  have hok : (s.eng[a].srv.mode.tracking && !s.head[g].map.depop && s.pwr.eng[a].seekDraw != 0 && s.pwr.late.isNone) = true := by
    simp only [hmode, hdepop, hlate, bne_iff_ne.mpr hdraw]
    rfl
  rw [execSeekRequest, hg]
  dsimp only
  rw [if_pos hok, hx]
  refine ⟨x, congrArg Host.Outcome.next ((State.modEng_modEng ..).trans (State.modEng_congr _ _ ?_))⟩
  simp only [State.modHs_eng, State.modSrv_pwr, State.modHs_pwr, hmode]

/-- Settles O30. -/
theorem servoCommands : Obligations.ServoCommands := by
  refine ⟨fun s a h tgt g hg hmode hdepop hdraw hlate => ?_, fun s p h => completes_report h rfl, fun s p h => ?_, fun s p h => ?_,
    fun s p h hlvl => ?_, fun s p h hlvl hdepop => ?_, fun s p h hdepop => ?_, fun s p h => completes_report h rfl, fun s p g h hg => ?_⟩
  · -- SEEK_REQUEST
    obtain ⟨x, hx⟩ := execSeekRequest_minuet tgt hg hmode hdepop hdraw hlate
    refine ⟨_, hx, ?_, ?_, ?_, ?_, ?_, fun b hb => vmod_other _ _ hb, fun k hk => vmod_other _ _ hk, rfl⟩
    · simp
    · simp
    · simp
    · simp
    · simpa using hmode
  · -- SRV_CONFIG
    refine completes_op h (opSrvConfig_moves ..) rfl rfl rfl rfl fun t hshape hans => ?_
    obtain ⟨_, _, _, _, _, rfl⟩ := hshape
    exact ⟨⟨congrArg Engine.srv (vmod_same ..), hans⟩, fun b hb => vmod_other _ _ hb, rfl⟩
  · -- SRV_QUADRILLE
    refine completes_op h (opSrvQuadrille_moves ..) rfl rfl rfl rfl fun t hshape hans => ?_
    obtain ⟨_, _, _, _, _, rfl⟩ := hshape
    have hsrv : (opSrvQuadrille p (s.startPacket ⟨0x0182, [4], .config⟩ p)).state.eng[p.eng].srv = { s.eng[p.eng].srv with
        qdK := Vector.ofFn fun (b : Fin 4) => if b = p.eng then 0 else p.w b.val, qdRv := p.w 4 } := congrArg Engine.srv (vmod_same ..)
    refine ⟨?_, fun b hb => ?_, ?_, ?_, fun b hb => vmod_other _ _ hb, rfl⟩
    all_goals dsimp only; rw [hsrv]
    · simp
    · simp [Ne.symm hb]
  · -- SRV_NOTCH of an engine
    refine completes_result h (if_pos hlvl) (opSrvNotch_moves ..) rfl rfl rfl rfl fun t hshape _ => ?_
    obtain ⟨_, _, _, _, _, rfl⟩ := hshape
    refine ⟨fun i => ?_, ?_, fun b hb => vmod_other _ _ hb, rfl⟩
    · simp
    · simp
  · -- SRV_NOTCH of a head
    refine completes_result h ((if_neg (by simp [hlvl])).trans (if_neg (ne_true_of_eq_false hdepop))) (opSrvNotch_moves ..) rfl rfl rfl rfl fun t hshape _ => ?_
    obtain ⟨_, _, _, _, _, rfl⟩ := hshape
    refine ⟨fun i => ?_, ?_, fun b hb => vmod_other _ _ hb, rfl⟩
    · simp
    · simp
  · -- SRV_HEAD
    refine completes_result h (if_neg (ne_true_of_eq_false hdepop)) (opSrvHead_moves ..) rfl rfl rfl rfl fun t hshape hans => ?_
    obtain ⟨_, _, _, _, _, rfl⟩ := hshape
    exact ⟨⟨congrArg HeadUnit.srv (vmod_same ..), hans⟩, fun b hb => vmod_other _ _ hb, rfl⟩
  · -- SRV_CLEAR
    have hg' : (s.startPacket ⟨0x0186, [4], .action⟩ p).globalHead p.eng (clampWord [fIn 3 0 0 11] 0 (p.w 1)).toNat = some g := hg
    refine completes_result h (by rw [opSrvClear, hg']) (opSrvClear_moves ..) rfl rfl rfl rfl fun t hshape hans => ?_
    obtain ⟨_, _, _, _, _, rfl⟩ := hshape
    exact ⟨congrArg Engine.srv (vmod_same ..), congrArg HeadUnit.srv (vmod_same ..), fun b hb => vmod_other _ _ hb, fun b hb => vmod_other _ _ hb, rfl⟩

end Sys2Proof.Machine
end

section
/-! SUPPORT. The packets of the loop engines and of the trace buffers (09_loop_engines.md). -/

namespace Sys2Proof.Machine
open Sys2Proof
set_option Elab.async false

theorem onLoop_startPacket {s : State} {p : Packet} (hok : s.loopRefused p.slot = none) (o : OpInfo) (body : State → PktRes) :
    onLoop p (s.startPacket o p) body = body (s.startPacket o p) := by
  have hok' : (s.startPacket o p).loopRefused p.slot = none := hok
  rw [onLoop, hok']

theorem alookup_aset_self {α β : Type} [DecidableEq α] (l : List (α × β)) (k : α) (v : β) : alookup (aset l k v) k = some v := by
  simp [alookup, aset]

theorem clampWord_low (n : Nat) (hn : n < 32) (old sent : Word) :
    clampWord [fAny n 0] old sent = BitVec.ofNat 32 (sent.toNat % 2 ^ (n + 1)) := by
  have hpow : (2 : Nat) ^ (n + 1) ≤ 2 ^ 32 := Nat.pow_le_pow_right (by decide) hn
  have hmod : ((sent.toNat % 2 ^ (n + 1) : Nat) : Int) % ((2 ^ (n + 1) : Nat) : Int) = ((sent.toNat % 2 ^ (n + 1) : Nat) : Int) := by
    rw [← Int.natCast_mod, Nat.mod_mod]
  simp only [clampWord, mkw, List.map_cons, List.map_nil, List.sum_cons, List.sum_nil, fAny, Field.stored, Field.value, bfi, fld,
    Bool.false_eq_true, if_false, Nat.pow_zero, Nat.div_one, Nat.mul_one, Nat.add_zero, Nat.sub_zero, hmod, Int.toNat_natCast]

/-- The low bits of a word are those sent. -/
theorem clampWord_low_bit {n i : Nat} (hn : n < 32) (hi : i ≤ n) (old sent : Word) :
    (clampWord [fAny n 0] old sent).getLsbD i = sent.getLsbD i := by
  rw [clampWord_low n hn, BitVec.getLsbD_ofNat, Nat.testBit_mod_two_pow]
  simp [show i < 32 by omega, show i < n + 1 by omega, BitVec.getLsbD]

theorem clampWord_low_half (old sent : Word) : BitVec.ofNat 16 (fld (clampWord [fAny 15 0] old sent) 15 0) = sent.setWidth 16 := by
  rw [clampWord_low 15 (by decide)]
  apply BitVec.eq_of_toNat_eq
  simp only [fld, BitVec.toNat_ofNat, BitVec.toNat_setWidth]
  omega

theorem filter_add_lt_range (n c m : Nat) : ((List.range n).filter fun i => decide (c + i < m)) = List.range (min n (m - c)) := by
  induction n with
  | zero => simp
  | succ n ih =>
    rw [List.range_succ, List.filter_append, ih]
    by_cases h : c + n < m
    · rw [show min (n + 1) (m - c) = min n (m - c) + 1 by omega, List.range_succ, show min n (m - c) = n by omega]
      simp [h]
    · rw [show min (n + 1) (m - c) = min n (m - c) by omega]
      simp [h]

theorem State.commitCoefs_of_store (s : State) {p : Packet} (h : (coefWord0 p).getLsbD 31 = false) : s.commitCoefs p =
    { state := s, clamp := s.coefClamp p.slot p, result := ((s.coefStored p.slot p).map (·.2)).take 6 } :=
  if_neg (by rw [h, Bool.false_and, Bool.false_and]; exact Bool.false_ne_true)

/-- Coefficients stored without COMMIT replace the words of their set and keep its version. -/
theorem State.storeCoefs_coefSet (s : State) {p : Packet} (h : (coefWord0 p).getLsbD 31 = false) :
    (s.storeCoefs p).coefSet p.slot (coefBand p) = { s.coefSet p.slot (coefBand p) with
      words := coefWords (loopKind s p.slot) (s.coefSet p.slot (coefBand p)).words p } := by
  simp only [State.coefSet, State.storeCoefs, State.modNor_nor, alookup_aset_self, h]
  rfl

/-! ### Triggers of the trace buffers -/

theorem State.traceTrigger_of_idle {s : State} (src : BitVec 3) (harm : s.trc.state ≠ .armed) (htrig : s.trc.state ≠ .triggered) :
    (s.traceTrigger src).trc = { s.trc with missCnt := inc 32 s.trc.missCnt } := by
  simp [State.traceTrigger, harm, htrig]

/-- Settling ends a capture at most. -/
theorem Trace.settle_shape (t : Trace) : ∃ st, t.settle = { t with state := st } ∧ (t.state = .triggered → st = .triggered ∨ st = .done) := by
  unfold Trace.settle
  split
  · exact ⟨.done, rfl, fun _ => .inr rfl⟩
  · exact ⟨t.state, rfl, .inl⟩

/-- A capture that starts at module time m from these sources. -/
def Trace.started (t : Trace) (m : MTime) (src : BitVec 3) : Trace :=
  { t with
    state := .triggered, src := src, trigAt := m
    chans := t.chans.map fun c =>
      { c with trigIdx := c.count % 8192, firstIdx := (c.count - min c.count t.pre) % 8192, left := 8192 - t.pre, stopped := false } }

theorem State.traceTrigger_of_armed {s : State} (src : BitVec 3) (h : s.trc.state = .armed) :
    (s.traceTrigger src).trc = (s.trc.started s.mtime src).settle := by
  rw [State.traceTrigger, State.modTrc_trc, if_pos h]
  rfl

/-- What a trigger never changes: the reason a capture was short, the sources that may trigger, and the event that does. -/
theorem State.traceTrigger_sources (s : State) (src : BitVec 3) : (s.traceTrigger src).trc.short = s.trc.short ∧
    (s.traceTrigger src).trc.tPkt = s.trc.tPkt ∧ (s.traceTrigger src).trc.tEvt = s.trc.tEvt ∧
    (s.traceTrigger src).trc.tAng = s.trc.tAng ∧ (s.traceTrigger src).trc.trigType = s.trc.trigType := by
  by_cases harm : s.trc.state = .armed
  · obtain ⟨st, hst, -⟩ := (s.trc.started s.mtime src).settle_shape
    rw [State.traceTrigger_of_armed src harm, hst]
    exact ⟨rfl, rfl, rfl, rfl, rfl⟩
  · rw [State.traceTrigger, State.modTrc_trc, if_neg harm]
    split <;> exact ⟨rfl, rfl, rfl, rfl, rfl⟩

/-- A capture triggered at module time m, a packet among its sources, that runs or is complete. -/
def Trace.TriggeredAt (m : MTime) (t : Trace) : Prop :=
  t.trigAt = m ∧ t.src.getLsbD 2 = true ∧ (t.state = .triggered ∨ t.state = .done)

theorem State.traceTrigger_triggeredAt_of_armed {s : State} (h : s.trc.state = .armed) :
    (s.traceTrigger 0b100).trc.TriggeredAt s.mtime := by
  obtain ⟨st, hst, hstate⟩ := (s.trc.started s.mtime 0b100).settle_shape
  rw [State.traceTrigger_of_armed _ h, hst]
  exact ⟨rfl, by simp [Trace.started], hstate rfl⟩

theorem State.traceTrigger_triggeredAt {s : State} (h : s.trc.TriggeredAt s.mtime) (src : BitVec 3) :
    (s.traceTrigger src).trc.TriggeredAt s.mtime := by
  obtain ⟨hat, hsrc, hstate⟩ := h
  have harm : s.trc.state ≠ .armed := by rcases hstate with h | h <;> simp [h]
  simp only [State.traceTrigger, State.modTrc_trc, harm, if_false]
  split
  · exact ⟨hat, by simp [hsrc], hstate⟩
  · exact ⟨hat, hsrc, hstate⟩

/-! ### The packets -/

/-- Settles O32. -/
theorem loopAndTracePackets : Obligations.LoopAndTracePackets := by
  refine ⟨fun s p h hok => completes_report h (onLoop_startPacket hok ..), fun s p h hok hlow hcommit => ?_, fun s p h hok hen => ?_,
    fun s p h hok => ?_, fun s p h hok => ?_, fun s p h harm htrig => ?_, fun s p h => ?_, fun s p h hpkt => ?_,
    fun s p h hpkt harm => ?_, fun s p h => completes_report h rfl⟩
  · -- LOOP_COEF
    have hbody : opLoopCoef p (s.startPacket ⟨0x0191, [6], .config⟩ p) =
        (((s.startPacket ⟨0x0191, [6], .config⟩ p)).storeCoefs p).commitCoefs p := by
      rw [opLoopCoef, onLoop_startPacket hok, coefBody, if_neg (ne_true_of_eq_false hlow)]
    rw [State.commitCoefs_of_store _ hcommit] at hbody
    refine completes_result h hbody (opLoopCoef_moves ..) rfl rfl rfl rfl fun t hshape _ => ?_
    obtain ⟨_, _, _, _, _, rfl⟩ := hshape
    exact ⟨State.storeCoefs_coefSet _ hcommit, rfl⟩
  · -- LOOP_BANK_SWAP
    have hbody : opLoopBankSwap p (s.startPacket ⟨0x0192, [6], .action⟩ p) =
        { state := (s.startPacket ⟨0x0192, [6], .action⟩ p).requestSwap p.slot s.bandInUse none, wait := true } := by
      rw [opLoopBankSwap, onLoop_startPacket hok]
      exact if_pos (by simpa [State.requestSwap, State.loadShadow] using hen)
    refine completes_wait h hbody rfl ⟨?_, by simp, fun j hj => ?_⟩
    · simp [State.requestSwap]
    · simp [State.requestSwap, State.loadShadow, Fin.val_inj, hj]
  · -- LOOP_CONFIG
    refine completes_result h (onLoop_startPacket hok ..) (opLoopConfig_moves ..) rfl rfl rfl rfl fun t hshape hans => ?_
    obtain ⟨_, _, _, _, _, rfl⟩ := hshape
    exact ⟨⟨vmod_same .., hans⟩, fun j hj => vmod_other _ _ hj, rfl⟩
  · -- LOOP_CLEAR
    refine completes_result h (onLoop_startPacket hok ..) (opLoopClear_moves ..) rfl rfl rfl rfl fun t hshape _ => ?_
    obtain ⟨_, _, _, _, _, rfl⟩ := hshape
    exact ⟨vmod_same .., fun j hj => vmod_other _ _ hj, rfl⟩
  · -- TRACE_CONFIG
    refine completes_steps h (if_neg (not_or.mpr ⟨harm, htrig⟩)) (opTraceConfig_moves ..) rfl rfl rfl rfl fun t hshape hsteps _ => ?_
    have hkeep := hsteps.trc
    have hset := hkeep (fun x => x.pre = fld (clampWord [fIn 28 16 0 8191, fAny 3 0] 0 (p.w 0)) 28 16 ∧ x.state = s.trc.state ∧
      ∀ i : Fin 12, fld (clampWord [fIn 28 16 0 8191, fAny 3 0] 0 (p.w 0)) 3 0 + i.val < 16 → ∀ j : Fin 16,
        j.val = fld (clampWord [fIn 28 16 0 8191, fAny 3 0] 0 (p.w 0)) 3 0 + i.val →
          x.chans[j].src = clampWord [fAny 31 31, fAny 30 24, fAny 23 20] 0 (p.w (i.val + 1))) ?_ ?_
    · obtain ⟨-, hpre, hstate, hchans⟩ := hset
      obtain ⟨_, _, _, _, _, rfl⟩ := hshape
      exact ⟨⟨hpre, hchans⟩, hstate, rfl⟩
    · rintro x - - ⟨hpre, hstate, hchans⟩
      rw [State.traceTrigger_of_idle _ (hstate ▸ harm) (hstate ▸ htrig)]
      exact ⟨hpre, hstate, hchans⟩
    · refine ⟨rfl, rfl, fun i hi j hj => ?_⟩
      have hroom : i.val < 16 - fld (clampWord [fIn 28 16 0 8191, fAny 3 0] 0#32 (p.w 0)) 3 0 := Nat.lt_sub_iff_add_lt'.mpr hi
      simp [filter_add_lt_range, hj, hroom]
  · -- TRACE_ARM
    refine completes_steps h rfl (opTraceArm_moves ..) rfl rfl rfl rfl fun t hshape hsteps _ => ?_
    have hkeep := hsteps.trc
    have hset := hkeep (fun x => x.short = 0 ∧ x.tPkt = (p.w 0).getLsbD 2 ∧ x.tEvt = (p.w 0).getLsbD 1 ∧ x.tAng = (p.w 0).getLsbD 0 ∧
      x.trigType = (p.w 1).setWidth 16 ∧ ((p.w 0).getLsbD 1 = false → x.state = .armed ∧ x.src = 0 ∧
        ∀ i : Fin 16, x.chans[i] = { s.trc.chans[i] with
          samples := [], count := 0, trigIdx := 0, firstIdx := 0, left := 0, stopped := false })) ?_ ?_
    · obtain ⟨-, hshort, hpkt, hevt, hang, htype, harmed⟩ := hset
      obtain ⟨_, _, _, _, _, rfl⟩ := hshape
      exact ⟨hshort, hpkt, hevt, hang, htype, harmed, rfl⟩
    · rintro x - hevtOn ⟨hshort, hpkt, hevt, hang, htype, -⟩
      obtain ⟨h1, h2, h3, h4, h5⟩ := x.traceTrigger_sources 0b010
      refine ⟨h1.trans hshort, h2.trans hpkt, h3.trans hevt, h4.trans hang, h5.trans htype, fun hoff => ?_⟩
      rw [← hevt, hevtOn] at hoff
      exact absurd hoff (by decide)
    · refine ⟨rfl, ?_, ?_, ?_, ?_, fun _ => ⟨rfl, rfl, fun i => ?_⟩⟩
      · exact clampWord_low_bit (by decide) (by decide) ..
      · exact clampWord_low_bit (by decide) (by decide) ..
      · exact clampWord_low_bit (by decide) (by decide) ..
      · exact clampWord_low_half ..
      · simp [opTraceArm]
  · -- TRACE_TRIGGER by no packet
    exact completes_report (clamp := 0) h (by simp [opTraceTrigger, hpkt, PktRes.report])
  · -- TRACE_TRIGGER, armed
    refine completes_steps h rfl (opTraceTrigger_moves ..) rfl rfl rfl rfl fun t hshape hsteps _ => ?_
    have hkeep := hsteps.trc
    have hstate : (opTraceTrigger p (s.startPacket ⟨0x01A2, [5], .action⟩ p)).state =
        (s.startPacket ⟨0x01A2, [5], .action⟩ p).traceTrigger 0b100 := if_pos hpkt
    rw [hstate] at hshape hkeep
    have hset := hkeep (Trace.TriggeredAt s.mtime) (fun x hx _ hat => ?_) (State.traceTrigger_triggeredAt_of_armed harm)
    · obtain ⟨-, hat, hsrc, hrun⟩ := hset
      obtain ⟨_, _, _, _, _, rfl⟩ := hshape
      exact ⟨hat, hsrc, hrun, rfl⟩
    · have hx' : x.mtime = s.mtime := hx
      exact hx' ▸ State.traceTrigger_triggeredAt (hx'.symm ▸ hat) _

end Sys2Proof.Machine
end

section
/-! SUPPORT. The packets of the arm link (03_arm_link.md) and of the sample slices (04_sample_slices.md). -/

namespace Sys2Proof.Machine
open Sys2Proof
set_option Elab.async false

/-- On a link that is down ARM_CONFIG sets its registers and stores them; no frame is queued (R97). -/
theorem opArmConfig_of_down {s : State} {p : Packet} (hdown : s.eng[p.eng].links[p.link].state = .down) :
    ∃ c w, opArmConfig p s = { clamp := c, result := w, state :=
      (s.modLink p.eng p.link fun k => { k with
        afeWdt := (clampWord [fIn 31 0 24 100] 0 (p.w 1)).setWidth 8
        ackTmo := (clampWord [fIn 31 0 8 64] 0 (p.w 2)).setWidth 8
        safeHtr := (clampWord [fIn 31 0 0 4095] 0 (p.w 3)).setWidth 12 }).modNor fun n => { n with engs := vmod n.engs p.eng fun e =>
          { e with
            afeWdt := vset e.afeWdt p.link ((clampWord [fIn 31 0 24 100] 0 (p.w 1)).setWidth 8)
            ackTmo := vset e.ackTmo p.link ((clampWord [fIn 31 0 8 64] 0 (p.w 2)).setWidth 8)
            safeHtr := vset e.safeHtr p.link ((clampWord [fIn 31 0 0 4095] 0 (p.w 3)).setWidth 12) } } } := by
  have hup : ∀ q : Prop, ¬(s.eng[p.eng].links[p.link].state = .up ∧ q) := by simp only [hdown]; simp
  unfold opArmConfig
  dsimp only
  rw [if_neg (hup _), if_neg (hup _)]
  exact ⟨_, _, rfl⟩

theorem State.putBand_bandEntry (s : State) (g : Head) (b : Fin 64) (f : BandEntry → BandEntry) :
    (s.putBand g b f).bandEntry g b = f (s.bandEntry g b) := by
  unfold State.putBand
  extract_lets e s1
  have h1 : s1.bandEntry g b = e := by simp [s1, State.bandEntry, alookup_aset_self]
  split
  · exact h1
  · exact h1

theorem State.putBand_shape (s : State) (g : Head) (b : Fin 64) (f : BandEntry → BandEntry) :
    ∃ hd nor, s.putBand g b f = { s with head := hd, nor := nor } := by
  unfold State.putBand
  dsimp only
  split
  · exact ⟨_, _, rfl⟩
  · exact ⟨s.head, _, rfl⟩

theorem opSliceConfig_shape (p : Packet) (s : State) : ∃ hd nor, (opSliceConfig p s).state = { s with head := hd, nor := nor } := by
  unfold opSliceConfig
  dsimp only
  exact s.putBand_shape p.hd p.band _

/-- Settles O24. -/
theorem armAndSlicePackets : Obligations.ArmAndSlicePackets := by
  refine ⟨fun s p h => completes_report h rfl, fun s p h => ?_, fun s p h hdown => ?_, fun s p h hfail => ?_, fun s p h hup => ?_,
    fun s p h => ?_, fun s p h => completes_report h rfl, fun s p h => ?_, fun s p h hdepop hfail => ?_⟩
  · -- ARM_CLEAR
    refine completes_op h (opArmClear_moves ..) rfl rfl rfl rfl fun t hshape hans => ?_
    obtain ⟨_, _, _, _, _, rfl⟩ := hshape
    exact ⟨(congrArg (fun e : Engine => e.links[p.link]) (vmod_same ..)).trans (vmod_same ..), hans, fun b hb => vmod_other _ _ hb, rfl⟩
  · -- ARM_CONFIG
    obtain ⟨c, w, hbody⟩ := opArmConfig_of_down (s := s.startPacket ⟨0x0132, [4], .config⟩ p) hdown
    refine completes_result (m := [.links, .nor]) h hbody ?_ rfl rfl rfl rfl fun t hshape _ => ?_
    · rw [hbody]
      dsimp only
      exact (State.modNor_moves _ _ (by intro n; rfl)).after (by decide) ((State.modLink_moves ..).widen (by decide))
    · obtain ⟨_, _, _, _, _, rfl⟩ := hshape
      refine ⟨?_, ?_, fun b hb => vmod_other _ _ hb, rfl⟩
      · exact (congrArg (fun e : Engine => e.links[p.link]) (vmod_same ..)).trans (vmod_same ..)
      · simp
  · -- ARM_RETRAIN of a failed link
    exact completes_wait h (if_pos hfail) rfl ⟨by simp, by simp, by simp, by simp, fun b hb => vmod_other _ _ hb, rfl⟩
  · -- ARM_RETRAIN of a link that is up
    have hne : s.eng[p.eng].links[p.link].state ≠ .failed := by rw [hup]; decide
    exact completes_report h ((if_neg hne).trans (if_pos hup))
  · -- SLICE_CONFIG
    refine completes_op h (opSliceConfig_moves ..) rfl rfl rfl rfl fun t hshape hans => ?_
    obtain ⟨hd, nor, hput⟩ := opSliceConfig_shape p (s.startPacket ⟨0x0140, [3], .config⟩ p)
    obtain ⟨_, _, _, _, _, rfl⟩ := hshape
    refine ⟨⟨hans, ?_⟩, ?_⟩
    · exact State.putBand_bandEntry ..
    · rw [hput]
      rfl
  · -- SLICE_CLEAR
    refine completes_op h (opSliceClear_moves ..) rfl rfl rfl rfl fun t hshape _ => ?_
    obtain ⟨_, _, _, _, _, rfl⟩ := hshape
    exact ⟨congrArg Slice.underrunCnt (vmod_same ..), congrArg Slice.clipCnt (vmod_same ..), congrArg Slice.satCnt (vmod_same ..),
      congrArg Slice.dropCnt (vmod_same ..), congrArg Slice.tmoCnt (vmod_same ..), congrArg Slice.overrunCnt (vmod_same ..),
      congrArg Slice.underrun (vmod_same ..), (congrArg Slice.state (vmod_same ..)).trans rfl, fun m hm => vmod_other _ _ hm, rfl⟩
  · -- SLICE_RESTART
    exact completes_wait h ((if_neg (ne_true_of_eq_false hdepop)).trans (if_pos hfail)) rfl
      ⟨vmod_same .., by simp, fun m hm => vmod_other _ _ hm, rfl⟩

end Sys2Proof.Machine
end

section
/-! SUPPORT. The packets of the spindle (10_spindle.md). -/

namespace Sys2Proof.Machine
open Sys2Proof
set_option Elab.async false

/-- Stored speeds lie between the least and the greatest, and these within what the spindle may turn at (R362). -/
theorem limitSpeeds_bounds (nPav : Nat) (b : BoleroSet) : (limitSpeeds nPav b).bolMin ≤ (limitSpeeds nPav b).bolMax ∧
    (limitSpeeds nPav b).bolMin ≤ (limitSpeeds nPav b).tgt ∧ (limitSpeeds nPav b).tgt ≤ (limitSpeeds nPav b).bolMax ∧
    4800 ≤ (limitSpeeds nPav b).bolMin ∧ (limitSpeeds nPav b).bolMax ≤ 9600 := by
  simp only [limitSpeeds, clampNat]
  omega

theorem State.storeBolero_set (s : State) (b : BoleroSet) : (s.storeBolero b).spn.set = b := by
  unfold State.storeBolero
  dsimp only [State.modSpn_spn]
  split <;> rfl

theorem State.storeBolero_state (s : State) (b : BoleroSet) : (s.storeBolero b).spn.state = s.spn.state := by
  unfold State.storeBolero
  dsimp only [State.modSpn_spn]
  split <;> rfl

theorem State.storeBolero_off {s : State} (h : s.bolOn = false) (b : BoleroSet) : (s.storeBolero b).spn.eff = b := by
  simp [State.storeBolero, h, Spindle.apply]

theorem State.storeBolero_on {s : State} (h : s.bolOn = true) (b : BoleroSet) :
    (s.storeBolero b).spn.eff = s.spn.eff ∧ (s.storeBolero b).spn.nCmd = s.spn.nCmd := by
  simp [State.storeBolero, h]

/-- A stop in RUN, no actuator loaded, marks the spindle to slow down (R371). -/
theorem State.spindleStop_run {s : State} (h : s.spn.state = .run) : s.spindleStop.spn.stopping = true ∧
    s.spindleStop.spn.startRamp = .none ∧ s.spindleStop.spn.state = .run := by
  unfold State.spindleStop
  extract_lets s1 mark
  have h1 : s1.spn = s.spn := foldl_keeps State.spn _ _ _ fun s a =>
    (Moves.ite (s.controlledUnload_moves a) (.refl ..)).spn_eq rfl
  have hrun : s1.spn.state = .run := by rw [h1, h]
  rw [hrun]
  exact ⟨rfl, rfl, hrun⟩

/-- A change of the spindle with or without an event for it. -/
theorem State.modSpn_condSpn_spn (s : State) (f : Spindle → Spindle) (c : Bool) :
    (if c then (s.modSpn f).condSpn else s.modSpn f).spn = f s.spn := by
  split
  · rw [State.condSpn_spn, State.modSpn_spn]
  · rw [State.modSpn_spn]

theorem State.modSpn_condSpn_shape (s : State) (f : Spindle → Spindle) (c : Bool) :
    ∃ spn trc evr, (if c then (s.modSpn f).condSpn else s.modSpn f) = { s with spn := spn, trc := trc, evr := evr } := by
  split
  · obtain ⟨x, y, hcond⟩ := (s.modSpn f).condition_shape 0x0A 5 0 0x20000 (rSpnStatus (s.modSpn f)) (stSpn (s.modSpn f))
    exact ⟨_, x, y, hcond⟩
  · exact ⟨_, s.trc, s.evr, rfl⟩

theorem State.setPavane_spn (s : State) (j pDrag pavE : Nat) : (s.setPavane j pDrag pavE).spn =
    { s.spn with
      inertia := j, pDrag := pDrag, pavE := pavE, nPav := pavaneSpeed j pDrag pavE, pavLim := decide (9600 < pavaneSpeed j pDrag pavE)
      set := limitSpeeds (pavaneSpeed j pDrag pavE) s.spn.set
      eff := { s.spn.eff with
        tgt := (limitSpeeds (pavaneSpeed j pDrag pavE) s.spn.set).tgt
        bolMin := (limitSpeeds (pavaneSpeed j pDrag pavE) s.spn.set).bolMin
        bolMax := (limitSpeeds (pavaneSpeed j pDrag pavE) s.spn.set).bolMax }
      nCmd := max s.spn.nCmd (min (pavaneSpeed j pDrag pavE) 9600) } :=
  State.modSpn_condSpn_spn s _ _

theorem State.setPavane_shape (s : State) (j pDrag pavE : Nat) :
    ∃ spn trc evr, s.setPavane j pDrag pavE = { s with spn := spn, trc := trc, evr := evr } :=
  State.modSpn_condSpn_shape s _ _

/-- What SPINDLE_CONFIG stores of its words: registers of the next start, and the model of the spindle, in use at once (R370). -/
theorem State.setPavane_stored (s : State) (w0 w1 w2 : Word) : ∃ spn trc evr nor,
    (let s := s.modSpn fun q => { q with cfgStored := w0, startStored := w1 }
     let s := s.setPavane (fld w2 31 16) (fld w2 15 8) (fld w2 7 0)
     let b := s.spn.set
     s.modNor fun n => { n with spn := spindleWords w0 b w1 w2 }) = { s with spn := spn, trc := trc, evr := evr, nor := nor } ∧
    spn.cfgStored = w0 ∧ spn.startStored = w1 ∧ spn.nPav = pavaneSpeed spn.inertia spn.pDrag spn.pavE ∧
    spn.pavLim = decide (9600 < spn.nPav) ∧ spn.cfg = s.spn.cfg ∧ spn.start = s.spn.start := by
  obtain ⟨spn, trc, evr, hpav⟩ := State.setPavane_shape (s.modSpn fun q => { q with cfgStored := w0, startStored := w1 })
    (fld w2 31 16) (fld w2 15 8) (fld w2 7 0)
  have hspn : spn = _ := (congrArg State.spn hpav).symm.trans (State.setPavane_spn ..)
  dsimp only
  rw [hpav]
  refine ⟨spn, trc, evr, _, rfl, ?_, ?_, ?_, ?_, ?_, ?_⟩
  all_goals rw [hspn]
  · rw [State.modSpn_spn]
  · rw [State.modSpn_spn]
  · rw [State.modSpn_spn]
  · rw [State.modSpn_spn]

theorem opSpindleConfig_stored (p : Packet) (s : State) : ∃ spn trc evr nor,
    (opSpindleConfig p s).state = { s with spn := spn, trc := trc, evr := evr, nor := nor } ∧
    spn.cfgStored = clampWord [fIn 31 28 2 8, fIn 27 20 25 100, fIn 19 16 1 15, fIn 15 12 2 15, fIn 11 8 2 8, fAny 7 4] 0 (p.w 0) ∧
    spn.startStored = clampWord [fIn 31 24 5 100, fIn 23 16 20 250, fIn 15 8 10 150, fIn 7 4 1 8] 0 (p.w 1) ∧
    spn.nPav = pavaneSpeed spn.inertia spn.pDrag spn.pavE ∧ spn.pavLim = decide (9600 < spn.nPav) ∧ spn.cfg = s.spn.cfg ∧
    spn.start = s.spn.start :=
  s.setPavane_stored _ _ _

/-- SPINDLE_TARGET stores the speed and BOL_EN it sends, in bounds. -/
theorem opSpindleTarget_shape (p : Packet) (s : State) : ∃ b, (opSpindleTarget p s).state = s.storeBolero b ∧
    b = limitSpeeds s.spn.nPav { s.spn.set with tgt := (p.w 0).toNat, bolEn := (p.w 1).getLsbD 0 } := by
  rw [opSpindleTarget, clampWord_low_bit (by decide) (by decide)]
  exact ⟨_, rfl, rfl⟩

theorem State.chopperFault_spn (s : State) (ma : Nat) : (s.chopperFault ma).spn =
    { s.spn with chopFault := true, chopOn := false, chopI := ma, chopFaultCnt := inc 16 s.spn.chopFaultCnt } := by
  rw [State.chopperFault, State.saturated_spn, State.condSpn_spn, State.modSpn_spn]

theorem State.chopperFault_shape (s : State) (ma : Nat) : ∃ trc evr, s.chopperFault ma = { s with
    spn := { s.spn with chopFault := true, chopOn := false, chopI := ma, chopFaultCnt := inc 16 s.spn.chopFaultCnt }
    trc := trc, evr := evr } := by
  unfold State.chopperFault
  extract_lets full s1
  obtain ⟨x, y, hcond⟩ := s1.condition_shape 0x0A 5 0 0x20000 (rSpnStatus s1) (stSpn s1)
  obtain ⟨z, w, hsat⟩ := s1.condSpn.saturated_shape full 0x0A 5 0 0x2005C (mkw [bf 31 16 s1.spn.chopFaultCnt, bf 15 0 s1.spn.chopHotCnt])
  refine ⟨z, w, hsat.trans ?_⟩
  rw [State.condSpn, hcond]
  rfl

/-- SPINDLE_BOLERO stores Bolero settings whose speeds are in bounds. -/
theorem opSpindleBolero_shape (p : Packet) (s : State) : ∃ b, (opSpindleBolero p s).state = s.storeBolero b ∧
    b.kr = fld (p.w 2) 31 16 ∧ b.kw = fld (p.w 2) 15 0 ∧
    b.accLim = fld (clampWord [fIn 31 22 10 400, fIn 21 12 10 600, fAny 11 4, fIn 3 0 1 15] 0 (p.w 1)) 31 22 ∧
    b.bolMin ≤ b.bolMax ∧ b.bolMin ≤ b.tgt ∧ b.tgt ≤ b.bolMax ∧ 4800 ≤ b.bolMin ∧ b.bolMax ≤ 9600 ∧ b.bolEn = s.spn.set.bolEn := by
  obtain ⟨h1, h2, h3, h4, h5⟩ := limitSpeeds_bounds s.spn.nPav
    { s.spn.set with
      bolMax := fld (p.w 0) 31 16, bolMin := fld (p.w 0) 15 0
      accLim := fld (clampWord [fIn 31 22 10 400, fIn 21 12 10 600, fAny 11 4, fIn 3 0 1 15] 0 (p.w 1)) 31 22
      decLim := fld (clampWord [fIn 31 22 10 400, fIn 21 12 10 600, fAny 11 4, fIn 3 0 1 15] 0 (p.w 1)) 21 12
      dead := fld (clampWord [fIn 31 22 10 400, fIn 21 12 10 600, fAny 11 4, fIn 3 0 1 15] 0 (p.w 1)) 11 4
      idleLim := fld (clampWord [fIn 31 22 10 400, fIn 21 12 10 600, fAny 11 4, fIn 3 0 1 15] 0 (p.w 1)) 3 0
      kr := fld (p.w 2) 31 16, kw := fld (p.w 2) 15 0
      frSet := fld (clampWord [fIn 31 16 16 2048, fIn 15 0 16 4096] 0 (p.w 3)) 31 16
      fwSet := fld (clampWord [fIn 31 16 16 2048, fIn 15 0 16 4096] 0 (p.w 3)) 15 0 }
  exact ⟨_, rfl, rfl, rfl, rfl, h1, h2, h3, h4, h5, rfl⟩

theorem State.storeBolero_shape (s : State) (b : BoleroSet) : ∃ spn, s.storeBolero b = { s with spn := spn } := ⟨_, rfl⟩

/-- The spindle after a shunt test that measured ma milliamperes. -/
def Spindle.tested (x : Spindle) (ma : Nat) (bad : Bool) : Spindle :=
  if bad then { x with chopFault := true, chopOn := false, chopI := ma, chopFaultCnt := inc 16 x.chopFaultCnt }
  else { x with chopFault := false, chopI := ma }

theorem Spindle.tested_fields (x : Spindle) (ma : Nat) (bad : Bool) : (x.tested ma bad).chopFault = bad ∧ (x.tested ma bad).chopI = ma ∧
    (x.tested ma bad).chopFaultCnt = if bad then inc 16 x.chopFaultCnt else x.chopFaultCnt := by
  cases bad <;> exact ⟨rfl, rfl, rfl⟩

theorem State.chopperTested_shape (s : State) (ma : Nat) (bad : Bool) : ∃ trc evr,
    (if bad then s.chopperFault ma else s.modSpn fun p => { p with chopFault := false, chopI := ma }) =
      { s with spn := s.spn.tested ma bad, trc := trc, evr := evr } := by
  cases bad with
  | true => exact s.chopperFault_shape ma
  | false => exact ⟨s.trc, s.evr, rfl⟩

/-- The shunt test in a state that lets it run (R372): the current it measures decides the fault. -/
theorem opSpindleChopperTest_shape {s : State} (hbrk : s.spn.brkMode = .none) (hbus : s.spn.vbus < 13000)
    (hfault : s.spn.chopFault = false) : ∃ w trc evr, opSpindleChopperTest s = .report { s with
      free := s.free + 1, trc := trc, evr := evr
      spn := s.spn.tested ((Config.freeValue s.free).toNat % 65536)
        (({ s.spn with chopOn := true } : Spindle).shuntBad ((Config.freeValue s.free).toNat % 65536)) } w := by
  have hidle : ¬((s.spn.brkMode ≠ .none ∧ s.spn.brkMode ≠ .float) ∨ 13000 ≤ s.spn.vbus) :=
    not_or.mpr ⟨fun h => h.1 hbrk, hbus.not_ge⟩
  obtain ⟨trc, evr, htested⟩ := ({ s with free := s.free + 1 } : State).chopperTested_shape ((Config.freeValue s.free).toNat % 65536)
    (({ s.spn with chopOn := true } : Spindle).shuntBad ((Config.freeValue s.free).toNat % 65536))
  rw [opSpindleChopperTest, if_neg hidle]
  dsimp only [State.fresh]
  rw [if_neg (ne_true_of_eq_false hfault)]
  exact ⟨_, trc, evr, congrArg (fun u => PktRes.report u _) htested⟩

theorem clampWord_bit_zero {w : Word} (h : w.getLsbD 0 = false) : clampWord [fAny 0 0] 0 w = 0 := by
  have hmod : w.toNat % 2 = 0 := by
    rw [BitVec.getLsbD, Nat.testBit_zero, decide_eq_false_iff_not] at h
    omega
  rw [clampWord_low 0 (by decide), Nat.pow_one, hmod]
  rfl

theorem clampWord_bit_one {w : Word} (h : w.getLsbD 0 = true) : clampWord [fAny 0 0] 0 w ≠ 0 := by
  intro hzero
  rw [← clampWord_low_bit (n := 0) (by decide) (by decide) 0, hzero] at h
  exact absurd h (by decide)

/-- Settles O35. -/
theorem spindlePackets : Obligations.SpindlePackets := by
  refine ⟨fun s p h => completes_report h rfl, fun s p h => ?_, fun s p h => ?_, fun s p h => ?_, fun s p h hstop hparked hrun => ?_,
    fun s p h hstart hstopped => ?_, fun s p h hbrk hbus hfault => ?_, fun s p h => ?_⟩
  · -- SPINDLE_TARGET
    refine completes_op h (opSpindleTarget_moves ..) rfl rfl rfl rfl fun t hshape _ => ?_
    obtain ⟨b, hstate, hset⟩ := opSpindleTarget_shape p (s.startPacket ⟨0x01B1, [5], .config⟩ p)
    rw [hstate] at hshape
    obtain ⟨_, _, _, _, _, rfl⟩ := hshape
    exact ⟨⟨(State.storeBolero_set ..).trans hset, fun hoff => (State.storeBolero_off hoff _).trans hset, fun hon => State.storeBolero_on hon _⟩,
      State.storeBolero_state .., rfl⟩
  · -- SPINDLE_BOLERO
    refine completes_op h (opSpindleBolero_moves ..) rfl rfl rfl rfl fun t hshape _ => ?_
    obtain ⟨b, hstate, hset⟩ := opSpindleBolero_shape p (s.startPacket ⟨0x01B2, [5], .config⟩ p)
    rw [hstate] at hshape
    obtain ⟨_, _, _, _, _, rfl⟩ := hshape
    dsimp only
    rw [State.storeBolero_set]
    obtain ⟨hkr, hkw, hacc, h1, h2, h3, h4, h5, hen⟩ := hset
    exact ⟨hkr, hkw, hacc, h1, h2, h3, h4, h5, hen, rfl⟩
  · -- SPINDLE_CONFIG
    refine completes_op h (opSpindleConfig_moves ..) rfl rfl rfl rfl fun t hshape _ => ?_
    obtain ⟨spn, trc, evr, nor, hstate, hcfg, hstart, hpav, hlim, hkept⟩ :=
      opSpindleConfig_stored p (s.startPacket ⟨0x01B3, [5], .config⟩ p)
    rw [hstate] at hshape
    obtain ⟨_, _, _, _, _, rfl⟩ := hshape
    exact ⟨hcfg, hstart, hpav, hlim, hkept.1, hkept.2, rfl⟩
  · -- SPINDLE_RUN_STOP
    have hnone : ¬((fins 4).any fun (a : Eng) => s.enginePresent a && s.engineLoaded a) = true := by
      simp only [List.any_eq_true, List.all_eq_true, Bool.and_eq_true, beq_iff_eq, State.engineLoaded] at hparked ⊢
      rintro ⟨a, ha, -, hloaded⟩
      rw [hparked a ha] at hloaded
      exact absurd hloaded (by decide)
    refine completes_result h ((if_pos (clampWord_bit_zero hstop)).trans (if_neg hnone)) (opSpindleRun_moves ..) rfl rfl rfl rfl
      fun t hshape _ => ?_
    obtain ⟨_, _, _, _, _, rfl⟩ := hshape
    exact State.spindleStop_run hrun
  · -- SPINDLE_RUN_START
    have hidle : (s.startPacket ⟨0x01B4, [5], .action⟩ p).spn.state = .stopped := hstopped
    have hbody : opSpindleRun p (s.startPacket ⟨0x01B4, [5], .action⟩ p) =
        { state := (s.startPacket ⟨0x01B4, [5], .action⟩ p).spindleStart, clamp := clampBits [(0, p.w 0, clampWord [fAny 0 0] 0 (p.w 0))]
          result := [rSpnStatus (s.startPacket ⟨0x01B4, [5], .action⟩ p).spindleStart] } := by
      rw [opSpindleRun, if_neg (clampWord_bit_one hstart), if_pos (Or.inl hidle)]
    refine completes_result h hbody (opSpindleRun_moves ..) rfl rfl rfl rfl fun t hshape _ => ?_
    obtain ⟨_, _, _, _, _, rfl⟩ := hshape
    exact ⟨rfl, rfl, rfl, rfl, rfl⟩
  · -- SPINDLE_CHOPPER_TEST
    obtain ⟨w, trc, evr, hbody⟩ := opSpindleChopperTest_shape (s := s.startPacket ⟨0x01B5, [5], .action⟩ p) hbrk hbus hfault
    refine completes_result h hbody (opSpindleChopperTest_moves ..) rfl rfl rfl rfl fun t hshape _ => ?_
    obtain ⟨_, _, _, _, _, rfl⟩ := hshape
    exact ⟨s.spn.tested_fields _ _, rfl⟩
  · -- SPINDLE_CLEAR
    refine completes_op h (opSpindleClear_moves ..) rfl rfl rfl rfl fun t hshape _ => ?_
    obtain ⟨_, _, _, _, _, rfl⟩ := hshape
    exact ⟨rfl, rfl⟩

end Sys2Proof.Machine
end

section
/-! SUPPORT. The packets of the memory block (17_memory_ecc.md). -/

namespace Sys2Proof.Machine
open Sys2Proof
set_option Elab.async false

/-- The number of a channel or of processor local memory, and the write bit, of a diagnostic command. -/
theorem clampWord_diag_toNat (w : Word) : (clampWord [fIn 9 8 0 2, fAny 0 0] 0 w).toNat = min (fld w 9 8) 2 * 256 + fld w 0 0 := by
  refine (clampWord_pair_toNat (stored_in 9 8 0 2 ..) (stored_any ..)).trans ?_
  have := fld_lt w 0 0
  simp only [fIn, fAny]
  omega

theorem clampWord_diag_number {w : Word} {c : Nat} (h : fld w 9 8 = c) (hc : c ≤ 2) :
    fld (clampWord [fIn 9 8 0 2, fAny 0 0] 0 w) 9 8 = c := by
  have := fld_lt w 0 0
  rw [fld, clampWord_diag_toNat, h]
  omega

theorem clampWord_diag_write (w : Word) : (clampWord [fIn 9 8 0 2, fAny 0 0] 0 w).getLsbD 0 = w.getLsbD 0 := by
  rw [getLsbD_eq_div, getLsbD_eq_div, clampWord_diag_toNat]
  have hbit : fld w 0 0 = w.toNat / 2 ^ 0 % 2 := rfl
  rw [hbit]
  exact decide_eq_decide.mpr (by omega)

/-- The APPLY bit and the region of a bucket's configuration. -/
theorem clampWord_bucket_toNat (w : Word) : (clampWord [fAny 31 31, fIn 3 0 0 14] 0 w).toNat = fld w 31 31 * 2 ^ 31 + min (fld w 3 0) 14 := by
  refine (clampWord_pair_toNat (stored_any ..) (stored_in 3 0 0 14 ..)).trans ?_
  have := fld_lt w 31 31
  simp only [fIn, fAny]
  omega

theorem clampWord_bucket_apply (w : Word) : (clampWord [fAny 31 31, fIn 3 0 0 14] 0 w).getLsbD 31 = w.getLsbD 31 := by
  rw [getLsbD_eq_div, getLsbD_eq_div, clampWord_bucket_toNat]
  have hbit : fld w 31 31 = w.toNat / 2 ^ 31 % 2 := rfl
  rw [hbit]
  exact decide_eq_decide.mpr (by omega)

theorem clampWord_bucket_region {w : Word} {r : MemRegion} (h : fld w 3 0 = r.val) :
    finMod 15 (by decide) (fld (clampWord [fAny 31 31, fIn 3 0 0 14] 0 w) 3 0) = r := by
  apply Fin.ext
  have := r.isLt
  have := fld_lt w 31 31
  rw [finMod, fld, clampWord_bucket_toNat, h]
  dsimp only
  omega

/-- The depth of a bucket is 2 at least. -/
theorem clampWord_depth (w : Word) : 2 ≤ fld (clampWord [fIn 31 24 2 255, fIn 15 0 1 65535] 0 w) 31 24 := by
  have hhi := fld_lt w 31 24
  have hlo := fld_lt w 15 0
  have hword : (clampWord [fIn 31 24 2 255, fIn 15 0 1 65535] 0 w).toNat = max 2 (fld w 31 24) * 2 ^ 24 + max 1 (fld w 15 0) := by
    refine (clampWord_pair_toNat (stored_in 31 24 2 255 ..) (stored_in 15 0 1 65535 ..)).trans ?_
    simp only [fIn]
    omega
  rw [fld, hword]
  omega

theorem fin?_of_lt {n i : Nat} {c : Fin n} (h : i = c.val) : fin? n i = some c := by
  subst h
  simp [fin?]

theorem State.putWord_read {s : State} (h : Memory.wf s.mem.dram = true) (w : Nat) (v : EccWord) (full : Bool) :
    Memory.read (s.putWord w v full).mem.dram w = v ∧
      ∀ i, i ≠ w → Memory.read (s.putWord w v full).mem.dram i = Memory.read s.mem.dram i :=
  ⟨Memory.read_write_self _ _ _ h, fun _ hi => Memory.read_write_other _ _ _ _ hi⟩

theorem State.modMem_modNor (s : State) (f : MemBlock → MemBlock) (g : Nor → Nor) :
    (s.modMem f).modNor g = { s with mem := f s.mem, nor := g s.nor } := rfl

theorem State.modMem_modNor_modBkt_modNor (s : State) (f : MemBlock → MemBlock) (g k : Nor → Nor) (r : MemRegion) (b : Bucket → Bucket) :
    (((s.modMem f).modNor g).modBkt r b).modNor k =
      { s with mem := { f s.mem with bkt := vmod (f s.mem).bkt r b }, nor := k (g s.nor) } := rfl

theorem State.bucket_level_of_modBkt {s : State} {f : MemBlock → MemBlock} {g k : Nor → Nor} {b : Bucket → Bucket} (r : MemRegion)
    (hf : (f s.mem).bkt = s.mem.bkt) (hb : ∀ x, (b x).level = x.level) :
    ((((s.modMem f).modNor g).modBkt r b).modNor k).mem.bkt[r].level = s.mem.bkt[r].level := by
  rw [State.modMem_modNor_modBkt_modNor, vmod_same, hb, hf]

/-- MEM_CONFIG without APPLY sets the registers of the block, leaves every bucket and echoes the bucket's word. -/
theorem opMemConfig_of_not_apply {p : Packet} (h : (p.w 3).getLsbD 31 = false) (s : State) : ∃ c mem nor, opMemConfig p s = {
    clamp := c, state := { s with mem := mem, nor := nor }
    result := [mem.cfg, mem.starve, mem.prio, clampWord [fAny 31 31, fIn 3 0 0 14] 0 (p.w 3), p.w 4] } ∧
    mem = { s.mem with
      cfg := clampWord [fIn 31 24 1 168, fIn 23 16 1 255, fIn 15 12 2 15] 0 (p.w 0), starve := dramStarveWord (p.w 1)
      prio := clampWord [fAny 19 0] 0 (p.w 2) } ∧
    nor = { s.nor with mem := vset (vset (vset s.nor.mem 0 mem.cfg) 1 mem.starve) 2 mem.prio } := by
  unfold opMemConfig
  dsimp only
  rw [clampWord_bucket_apply, h, State.modMem_modNor]
  exact ⟨_, _, _, rfl, rfl, rfl⟩

/-- MEM_CONFIG with APPLY sets the depth and the leak of a bucket no fuller than the least depth there is. -/
theorem opMemConfig_of_apply {p : Packet} {r : MemRegion} {s : State} (h : (p.w 3).getLsbD 31 = true) (hr : fld (p.w 3) 3 0 = r.val)
    (hlevel : s.mem.bkt[r].level < 2) : ∃ c w mem nor, opMemConfig p s = {
    clamp := c, state := { s with mem := mem, nor := nor }, result := w } ∧
    mem.cfg = clampWord [fIn 31 24 1 168, fIn 23 16 1 255, fIn 15 12 2 15] 0 (p.w 0) ∧
    mem.bkt = vmod s.mem.bkt r (fun b => { b with
      depth := fld (clampWord [fIn 31 24 2 255, fIn 15 0 1 65535] 0 (p.w 4)) 31 24
      leakMin := fld (clampWord [fIn 31 24 2 255, fIn 15 0 1 65535] 0 (p.w 4)) 15 0 }) ∧
    nor.bktCfg = vset s.nor.bktCfg r (clampWord [fIn 31 24 2 255, fIn 15 0 1 65535] 0 (p.w 4)) := by
  have hdepth := clampWord_depth (p.w 4)
  have hreg := clampWord_bucket_region hr
  simp only [opMemConfig, clampWord_bucket_apply, h, hreg, if_true]
  generalize clampWord [fIn 31 24 2 255, fIn 15 0 1 65535] 0 (p.w 4) = w4 at hdepth ⊢
  generalize clampWord [fIn 31 24 1 168, fIn 23 16 1 255, fIn 15 12 2 15] 0 (p.w 0) = w0
  rw [if_neg]
  · rw [State.modMem_modNor_modBkt_modNor]
    exact ⟨_, _, _, _, rfl, rfl, rfl, rfl⟩
  · rw [State.bucket_level_of_modBkt _ (by rfl) (by intro x; rfl)]
    exact not_lt.mpr ((Nat.le_of_lt hlevel).trans hdepth)

/-- A row of DDR4 to repair is marked on every die; the packet waits (R579). -/
theorem opMemRepair_row {p : Packet} {c : Fin 2} {s : State} (hkey : p.w 2 = 0x52455052) (hc : (p.w 0).toNat = c.val)
    (hw : (p.w 1).toNat < chanWords) (hbusy : s.mem.repairBusy = false) :
    opMemRepair p s = { state := s.markRow c (p.w 1).toNat [0, 1, 2, 3, 4], wait := true } := by
  have hid : clampWord [fIn 31 0 0 2] 0 (p.w 0) = p.w 0 := clampWord_of_le (b := 2) 0 (by omega)
  have hok : ¬(p.w 2 ≠ 0x52455052 ∨ (p.w 1).toNat ≥ (if (p.w 0).toNat = 2 then 6291456 else chanWords)) := by
    rw [if_neg (by omega)]
    exact not_or.mpr ⟨not_not.mpr hkey, not_le.mpr hw⟩
  unfold opMemRepair
  dsimp only
  rw [hid, if_neg hok, if_neg (ne_true_of_eq_false hbusy), fin?_of_lt hc]

theorem opMemRepair_sram {p : Packet} {s : State} (hkey : p.w 2 = 0x52455052) (hid : (p.w 0).toNat = 2) (hw : (p.w 1).toNat < 6291456)
    (hbusy : s.mem.repairBusy = false) : opMemRepair p s = {
      state := s.markSram (p.w 1).toNat, clamp := clampBits [(0, p.w 0, nw 2)]
      result := [rMemStatus (s.markSram (p.w 1).toNat).mem, 0, nw (s.markSram (p.w 1).toNat).mem.repairCnt] } := by
  have hword : clampWord [fIn 31 0 0 2] 0 (p.w 0) = p.w 0 := clampWord_of_le (b := 2) 0 (by omega)
  have hok : ¬(p.w 2 ≠ 0x52455052 ∨ (p.w 1).toNat ≥ (if 2 = 2 then 6291456 else chanWords)) := by
    rw [if_pos rfl]
    exact not_or.mpr ⟨not_not.mpr hkey, not_le.mpr hw⟩
  unfold opMemRepair
  dsimp only
  rw [hword, hid, if_neg hok, if_neg (ne_true_of_eq_false hbusy)]
  rfl

theorem State.markRow_marked (s : State) (c : Fin 2) (w : Nat) (dies : List Nat) {d : Nat} (hd : d ∈ dies) :
    (d, rowOf w) ∈ (s.markRow c w dies).mem.chan[c].marked := by
  by_cases hin : (d, rowOf w) ∈ s.mem.chan[c.val].marked
  · simp [State.markRow, State.modChan, hin]
  · simp [State.markRow, State.modChan, hin, hd]

/-- A row of processor memory marked is marked, there or in NOR; the status and the counter of repairs stay. -/
theorem State.markSram_shape (s : State) (w : Nat) : ∃ mem nor trc evr, s.markSram w = { s with mem := mem, nor := nor, trc := trc, evr := evr } ∧
    Config.sramRow w ∈ mem.sramMarked ++ nor.sramRepairs ∧ mem.dram = s.mem.dram ∧ rMemStatus mem = rMemStatus s.mem ∧
    mem.repairCnt = s.mem.repairCnt := by
  unfold State.markSram
  dsimp only
  split
  next hmarked =>
    exact ⟨s.mem, s.nor, s.trc, s.evr, rfl, by simpa using hmarked, rfl, rfl, rfl⟩
  · split
    · obtain ⟨x, y, hcond⟩ := State.condition_shape (s.modMem fun m => { m with sramMarked := Config.sramRow w :: m.sramMarked }) _ _ _ _ _ _
      exact ⟨_, s.nor, x, y, hcond, by simp, rfl, rfl, rfl⟩
    · exact ⟨_, _, s.trc, s.evr, rfl, by simp, rfl, rfl, rfl⟩

/-- A diagnostic access to a word of DDR4 (R577). -/
theorem opMemDiag_dram {p : Packet} {c : Fin 2} {s : State} (hc : fld (p.w 0) 9 8 = c.val)
    (ha : dramWindow ≤ (p.w 1).toNat ∧ (p.w 1).toNat < dramWindow + 131072) :
    opMemDiag p s =
      let v : EccWord := if (p.w 5).getLsbD 0 then { data := BitVec.ofNat 64 ((p.w 2).toNat + 2 ^ 32 * (p.w 3).toNat), check := BitVec.ofNat 8 (p.w 4).toNat }
        else EccWord.fresh (BitVec.ofNat 64 ((p.w 2).toNat + 2 ^ 32 * (p.w 3).toNat))
      let x := if (p.w 0).getLsbD 0 then v else Memory.read s.mem.dram (moduleWord c (p.w 1).toNat)
      { state := if (p.w 0).getLsbD 0 then s.putWord (moduleWord c (p.w 1).toNat) v false else s
        result := lohi x.data.toNat ++ [nw x.check.toNat, nw x.syndrome.toNat, nw x.kind.code]
        clamp := clampBits [(0, p.w 0, clampWord [fIn 9 8 0 2, fAny 0 0] 0 (p.w 0)),
          (4, p.w 4, nw (fld (p.w 4) 7 0)), (5, p.w 5, nw (fld (p.w 5) 0 0))] } := by
  unfold opMemDiag
  dsimp only
  rw [clampWord_diag_number hc (by omega), clampWord_diag_write, fin?_of_lt (c := c) rfl]
  dsimp only
  rw [if_pos ha]
  cases (p.w 0).getLsbD 0 <;> rfl

/-- A diagnostic write to processor local memory, its check bits computed (R577). -/
theorem opMemDiag_local {p : Packet} {s : State} (hid : fld (p.w 0) 9 8 = 2) (hwrite : (p.w 0).getLsbD 0 = true)
    (ha : sramWindow ≤ (p.w 1).toNat ∧ (p.w 1).toNat < sramWindow + 512) (hgiven : (p.w 5).getLsbD 0 = false) :
    ∃ c w, opMemDiag p s = { clamp := c, result := w, state := s.modMem fun m => { m with
      local_ := if EccWord.fresh (BitVec.ofNat 64 ((p.w 2).toNat + 2 ^ 32 * (p.w 3).toNat)) = EccWord.fresh 0 then
          oerase m.local_ ((p.w 1).toNat - sramWindow)
        else oset m.local_ ((p.w 1).toNat - sramWindow) (EccWord.fresh (BitVec.ofNat 64 ((p.w 2).toNat + 2 ^ 32 * (p.w 3).toNat))) } } := by
  unfold opMemDiag
  dsimp only
  rw [clampWord_diag_number hid (by omega), clampWord_diag_write, hwrite, hgiven, if_pos ha]
  exact ⟨_, _, rfl⟩

theorem alookup_local_write {l : List (Nat × EccWord)} (h : Memory.localWf l = true) (i : Nat) (v : EccWord) :
    (alookup (if v = EccWord.fresh 0 then oerase l i else oset l i v) i).getD (EccWord.fresh 0) = v := by
  simp only [Memory.localWf, Bool.and_eq_true, decide_eq_true_eq] at h
  split
  next hv => rw [alookup_oerase_self, hv]; rfl
  · rw [alookup_oset_self _ _ _ h.1]; rfl

/-- Settles O55. -/
theorem memoryPackets : Obligations.MemoryPackets := by
  refine ⟨fun s p h => completes_report h rfl, fun s p h happly => ?_, fun s p r h happly hr hlevel => ?_, fun s p h hrestart => ?_,
    fun s p h hrestart => ?_, fun s p c h hkey hc hw hbusy => ?_, fun s p h hkey hid hw hbusy => ?_, fun s p c h hc hread ha => ?_,
    fun s p c h hc hwrite ha hgiven hwf => ?_, fun s p h hid hwrite ha hgiven hwf => ?_, fun s p r h hr => ?_⟩
  · -- MEM_CONFIG without a bucket
    obtain ⟨c, mem, nor, hbody, hmem, hnor⟩ := opMemConfig_of_not_apply happly (s.startPacket ⟨0x0211, [5], .config⟩ p)
    refine completes_result h hbody (opMemConfig_moves ..) rfl rfl rfl rfl fun t hshape hans => ?_
    obtain ⟨_, _, _, _, _, rfl⟩ := hshape
    exact ⟨hmem, hnor, hans, rfl⟩
  · -- MEM_CONFIG of a bucket
    obtain ⟨c, w, mem, nor, hbody, hcfg, hbkt, hnor⟩ := opMemConfig_of_apply (s := s.startPacket ⟨0x0211, [5], .config⟩ p) happly hr hlevel
    refine completes_result h hbody (opMemConfig_moves ..) rfl rfl rfl rfl fun t hshape hans => ?_
    obtain ⟨_, _, _, _, _, rfl⟩ := hshape
    refine ⟨?_, hcfg, fun x hx => ?_, ?_, rfl⟩
    · exact hbkt ▸ vmod_same ..
    · exact hbkt ▸ vmod_other _ _ hx
    · exact hnor ▸ vset_same ..
  · -- MEM_SCRUB_RESTART
    have hbody : opMemScrub p (s.startPacket ⟨0x0212, [5], .action⟩ p) =
        { state := (s.startPacket ⟨0x0212, [5], .action⟩ p).modMem fun m => { m with scrubPos := 0 }, result := [0, nw s.mem.scrubPass]
          clamp := clampBits [(0, p.w 0, nw (fld (p.w 0) 1 0))] } := by
      rw [opMemScrub, if_pos hrestart]
      rfl
    refine completes_result h hbody (opMemScrub_moves ..) rfl rfl rfl rfl fun t hshape hans => ?_
    obtain ⟨_, _, _, _, _, rfl⟩ := hshape
    exact ⟨rfl, hans, rfl⟩
  · -- MEM_SCRUB_SRAM
    exact completes_report h (by rw [opMemScrub, if_neg (ne_true_of_eq_false hrestart)]; rfl)
  · -- MEM_REPAIR of a row of DDR4
    refine completes_wait h (opMemRepair_row hkey hc hw hbusy) rfl ⟨rfl, fun d => ?_, by simp, rfl, rfl⟩
    exact State.markRow_marked _ _ _ _ (by fin_cases d <;> simp)
  · -- MEM_REPAIR of a row of processor memory
    obtain ⟨mem, nor, trc, evr, hmark, hrow, hdram, hstatus, hcnt⟩ :=
      (s.startPacket ⟨0x0213, [5], .action⟩ p).markSram_shape (p.w 1).toNat
    have hbody := opMemRepair_sram (s := s.startPacket ⟨0x0213, [5], .action⟩ p) hkey hid hw hbusy
    refine completes_result h hbody (opMemRepair_moves ..) rfl rfl rfl rfl fun t hshape hans => ?_
    rw [hmark] at hshape hans
    obtain ⟨_, _, _, _, _, rfl⟩ := hshape
    refine ⟨hrow, hdram, ?_, rfl⟩
    rw [hstatus, hcnt] at hans
    exact hans
  · -- MEM_DIAG_READ
    refine completes_report (clamp := clampBits [(0, p.w 0, clampWord [fIn 9 8 0 2, fAny 0 0] 0 (p.w 0)),
      (4, p.w 4, nw (fld (p.w 4) 7 0)), (5, p.w 5, nw (fld (p.w 5) 0 0))]) h ?_
    rw [opMemDiag_dram hc ha, hread]
    rfl
  · -- MEM_DIAG_WRITE to DDR4
    have hbody := opMemDiag_dram (s := s.startPacket ⟨0x0214, [5], .action⟩ p) hc ha
    simp only [hwrite, hgiven, if_true] at hbody
    refine completes_result h hbody (opMemDiag_moves ..) rfl rfl rfl rfl fun t hshape _ => ?_
    obtain ⟨_, _, _, _, _, rfl⟩ := hshape
    obtain ⟨hself, hother⟩ := State.putWord_read hwf (moduleWord c (p.w 1).toNat) _ false
    exact ⟨hself, hother, rfl⟩
  · -- MEM_DIAG_WRITE to processor local memory
    obtain ⟨c, w, hbody⟩ := opMemDiag_local (s := s.startPacket ⟨0x0214, [5], .action⟩ p) hid hwrite ha hgiven
    refine completes_result h hbody (opMemDiag_moves ..) rfl rfl rfl rfl fun t hshape _ => ?_
    obtain ⟨_, _, _, _, _, rfl⟩ := hshape
    exact ⟨alookup_local_write hwf _ _, rfl, rfl⟩
  · -- MEM_CLEAR
    have hword : clampWord [fIn 31 0 0 14] 0 (p.w 1) = p.w 1 := clampWord_of_le (b := 14) 0 (by have := r.isLt; omega)
    have hreg : finMod 15 (by decide) (p.w 1).toNat = r := Fin.ext (by rw [finMod, hr]; exact Nat.mod_eq_of_lt r.isLt)
    have hbody : ∃ c, opMemClear p (s.startPacket ⟨0x0215, [5], .action⟩ p) = {
        clamp := c
        state := ((s.startPacket ⟨0x0215, [5], .action⟩ p).modBkt r fun b => { b with
          ceCnt := clr (fld (p.w 0) 4 0) 0 b.ceCnt, ueCnt := clr (fld (p.w 0) 4 0) 1 b.ueCnt }).modMem fun y => { y with
            poisonCnt := clr (fld (p.w 0) 4 0) 2 y.poisonCnt, repairCnt := clr (fld (p.w 0) 4 0) 3 y.repairCnt
            scrubPass := clr (fld (p.w 0) 4 0) 4 y.scrubPass }
        result := selected (fld (p.w 0) 4 0) [[nw s.mem.bkt[r].ceCnt], [nw s.mem.bkt[r].ueCnt], [nw s.mem.poisonCnt],
          [nw s.mem.repairCnt], [nw s.mem.scrubPass]] } := by
      simp only [opMemClear, hword, hreg]
      exact ⟨_, rfl⟩
    obtain ⟨c, hbody⟩ := hbody
    refine completes_result h hbody (opMemClear_moves ..) rfl rfl rfl rfl fun t hshape hans => ?_
    obtain ⟨_, _, _, _, _, rfl⟩ := hshape
    exact ⟨vmod_same .., fun x hx => vmod_other _ _ hx, rfl, rfl, rfl, hans, rfl⟩

end Sys2Proof.Machine
end

section
/-! SUPPORT. The packets of the zone descriptor cache (12_zones_media_map.md): a flush that ends may first answer maintenance that waits, so
its own reply need not come next after those of the state before. -/

namespace Sys2Proof.Machine
open Sys2Proof
set_option Elab.async false

/-- An invalidate of engine 0 that waits although nothing it waits for is left; its level byte has a reserved bit set, so that it is not
taken for an earlier packet to the target of the next. -/
def waitingInvalidate : Packet :=
  { xid := 1, src := .smbus, tag := 2, flags := 0, level := 12, index := 0, words := Vector.replicate 14 0 }

/-- A flush of the whole cache of engine 0. -/
def wholeFlush : Packet :=
  { xid := 0, src := .smbus, tag := 1, flags := 0, level := 4, index := 0, words := #v[0x80000000, 0, 0, 0, 0, 0, 0, 0, 0, 0, 0, 0, 0, 0] }

/-- The module up, its caches empty, with that invalidate waiting. -/
def waitingInvalidateState : State :=
  { State.reset with
    rst := { State.reset.rst with rail12 := true, phase := .ready }
    het := { State.reset.het with waiting := [(0x01D4, waitingInvalidate)] } }

theorem waitingInvalidateState_ready : ready ⟨0x01D3, [4], .action⟩ wholeFlush waitingInvalidateState = true ∧
    (waitingInvalidateState.eng[wholeFlush.eng].zdc.lines.toList.all fun l => l.state != .fill && !l.flushWait && !l.invWait) = true := by
  decide +kernel

/-- The flush answers the invalidate before it answers itself. -/
theorem wholeFlush_first_reply :
    ((runPacket ⟨0x01D3, [4], .action⟩ wholeFlush waitingInvalidateState (opMaintain false wholeFlush)).out.replies.getLast?.map
      fun r => r.2.opcode) = some 0x01D4 := by
  decide +kernel

/-- Refutes O42: ZONE_CACHE_FLUSH, where an invalidate waits. -/
theorem not_zoneAndMapPackets : ¬ Obligations.ZoneAndMapPackets := by
  rintro ⟨-, -, -, hflush, -⟩
  obtain ⟨hready, hlines⟩ := waitingInvalidateState_ready
  obtain ⟨t, ht, -, clamp, later, hreplies⟩ := hflush waitingInvalidateState wholeFlush hready rfl hlines rfl
  have hrun : t = runPacket ⟨0x01D3, [4], .action⟩ wholeFlush waitingInvalidateState (opMaintain false wholeFlush) :=
    (Host.Outcome.next.inj ht).symm
  have hnone : waitingInvalidateState.out.replies = [] := rfl
  have hfirst := wholeFlush_first_reply
  rw [← hrun, hreplies, hnone, List.getLast?_concat] at hfirst
  have hcode : (0x01D3 : BitVec 16) = 0x01D4 := Option.some.inj hfirst
  exact absurd hcode (by decide)

end Sys2Proof.Machine
end

section
/-! SUPPORT. The packets of the host link, the endpoint id and the keep-alive timer (13_host_link_nvme.md). -/

namespace Sys2Proof.Machine
open Sys2Proof
set_option Elab.async false

/-- The state after HOST_CONFIG stored the word w. -/
def State.hostConfigured (s : State) (w : Word) : State :=
  (s.modHost fun h => { h with vfCmbNext := w.getLsbD 31, miAddr := fld w 30 24, zfrl := fld w 23 16 }).modNor fun n => { n with hif := w }

theorem State.hostConfigured_eq (s : State) (w : Word) : s.hostConfigured w = { s with
    host := { s.host with vfCmbNext := w.getLsbD 31, miAddr := fld w 30 24, zfrl := fld w 23 16 }, nor := { s.nor with hif := w } } := rfl

theorem opHostConfig_eq (p : Packet) (s : State) : ∃ w, w = clampWord [fAny 31 31, fIn 30 24 0x08 0x77, fAny 23 16] 0 (p.w 0) ∧
    opHostConfig p s = { state := s.hostConfigured w, result := [w], clamp := clampBits [(0, p.w 0, w)] } := ⟨_, rfl, rfl⟩

/-- Settles O49. -/
theorem hostPackets : Obligations.HostPackets := by
  refine ⟨fun s p h => completes_report h rfl, fun s p h => ?_, fun s p h => ?_, fun s p h => completes_report h rfl,
    fun s p h hlvl => ?_, fun s p h hlvl => ?_, fun s eid hzero hall => ?_, fun s f hen hkato hdue => ?_⟩
  · -- HOST_CONFIG
    obtain ⟨w, hw, heq⟩ := opHostConfig_eq p (s.startPacket ⟨0x01E1, [5], .config⟩ p)
    rw [State.hostConfigured_eq] at heq
    refine completes_steps h heq (opHostConfig_moves ..) rfl rfl rfl rfl fun t hshape hsteps hans => ?_
    obtain ⟨fns, violations, hhost, -⟩ := hsteps.host
    obtain ⟨het, out, host, trc, evr, rfl⟩ := hshape
    dsimp only at hhost hans ⊢
    rw [← hw]
    subst hhost
    exact ⟨rfl, rfl, rfl, rfl, rfl, hans, rfl⟩
  · -- HOST_PERMIT
    refine completes_steps h rfl (opHostPermit_moves ..) rfl rfl rfl rfl fun t hshape hsteps hans => ?_
    obtain ⟨fns, violations, hhost, -⟩ := hsteps.host
    obtain ⟨het, out, host, trc, evr, rfl⟩ := hshape
    dsimp only at hhost ⊢
    subst hhost
    exact ⟨rfl, hans, rfl⟩
  · -- HOST_CLEAR of the link
    refine completes_steps h (if_pos hlvl) (opHostClear_moves ..) rfl rfl rfl rfl fun t hshape hsteps hans => ?_
    obtain ⟨fns, violations, hhost, -⟩ := hsteps.host
    obtain ⟨het, out, host, trc, evr, rfl⟩ := hshape
    dsimp only at hhost ⊢
    subst hhost
    exact ⟨rfl, rfl, rfl, rfl, rfl, rfl, hans, rfl⟩
  · -- HOST_CLEAR of a function
    refine completes_steps h (if_neg (by simp [hlvl])) (opHostClear_moves ..) rfl rfl rfl rfl fun t hshape hsteps hans => ?_
    obtain ⟨fns, violations, hhost, hfns⟩ := hsteps.host
    obtain ⟨cqs, cnt, hfn⟩ := hfns p.fnOf
    obtain ⟨het, out, host, trc, evr, rfl⟩ := hshape
    dsimp only at hhost ⊢
    subst hhost
    rw [hfn]
    exact ⟨congrArg FnState.dbRegCnt (vmod_same ..), congrArg FnState.dbValCnt (vmod_same ..), congrArg FnState.urCnt (vmod_same ..),
      congrArg FnState.malCnt (vmod_same ..), congrArg FnState.ctoCnt (vmod_same ..), congrArg FnState.poisCnt (vmod_same ..),
      congrArg FnState.roWrCnt (vmod_same ..), congrArg FnState.unasgCnt (vmod_same ..), congrArg FnState.cmbPoisCnt (vmod_same ..),
      congrArg FnState.flrCnt (vmod_same ..), rfl⟩
  · -- MCTP_SET_ENDPOINT_ID
    exact ⟨_, congrArg Host.Outcome.next (if_neg (not_or.mpr ⟨hzero, hall⟩)), rfl⟩
  · -- KEEP_ALIVE_TIMEOUT
    have hfire : (s.host.fns[f].en && decide (0 < s.host.fns[f].kato ∧ s.host.fns[f].kaLast + s.host.fns[f].kato * 300000000 ≤ s.mtime)) = true := by
      rw [hen, Bool.true_and, decide_eq_true_eq]
      exact ⟨hkato, hdue⟩
    refine ⟨_, congrArg Host.Outcome.next (if_pos hfire), ?_, ?_, ?_, fun g hg => ?_, rfl⟩
    · exact congrArg FnState.cfs (vmod_same ..)
    · exact congrArg FnState.rdy (vmod_same ..)
    · exact congrArg FnState.kato (vmod_same ..)
    · exact (vmod_other _ _ hg).trans (vmod_other _ _ hg)

end Sys2Proof.Machine
end

section
/-! SUPPORT. What a move leads to, whole, where the parts it names are whole fields or belong to an event. -/

namespace Sys2Proof.Machine
open Sys2Proof
set_option Elab.async false

/-- A move within the trace buffers and the recorder is an event's. -/
theorem Moves.afterEvent {s t : State} (h : Moves [.trc, .evr] s t) : t = s.afterEvent t :=
  h.eq_of_parts rfl fun x => by cases x <;> first | rfl | exact fun _ => rfl

theorem Moves.afterEvent_pwr {s t : State} {pwr : Power} (h : Moves [.trc, .evr] ({ s with pwr := pwr } : State) t) :
    t.pwr = pwr ∧ t = ({ s with pwr := t.pwr } : State).afterEvent t := by
  have hpwr : t.pwr = pwr := h.pwr_eq rfl
  exact ⟨hpwr, by rw [hpwr]; exact h.afterEvent⟩

end Sys2Proof.Machine
end

section
/-! SUPPORT. The power arbiter, the thermal samples and the budget packets (16_power_arbiter.md, 10_spindle.md). -/

namespace Sys2Proof.Machine
open Sys2Proof
set_option Elab.async false

/-! ### Thermal samples -/

/-- The thermal words latched, and handed to the loops of the thermal array (R299). -/
def State.temperaturesLatched (s : State) (t : List Int) : State :=
  (fins 8).foldl (fun s (z : Fin 8) => s.latch (thermSlot z) s.mtime s.lpe.temps[z] false false)
    (s.modLpe fun l => { l with temps := Vector.ofFn fun (z : Fin 8) => (t[z.val]?).getD 0 })

/-- What the thermal samples make of HOT (R554). -/
def State.hotSet (s : State) : State :=
  if ((fins 8).any fun (z : Fin 8) => decide (1680 ≤ s.lpe.temps[z])) && !s.pwr.hot then (s.modPwr fun p => { p with hot := true }).condPwr
  else if (fins 8).all fun (z : Fin 8) => decide (s.lpe.temps[z] < 1600) then s.modPwr fun p => { p with hot := false } else s

/-- A throttle step taken by an island (R552). -/
def State.takeThrottle (s : State) (i : Fin 8) (n : Nat) (e first : Bool) : State :=
  let s := s.modPwr fun p => { p with thrStep := vset p.thrStep i n, thrExc := vset p.thrExc i e }
  let s := match fin? 4 i.val with
    | some a => (s.modEpw a fun x => { x with thr := n }).askClock a
    | none => s
  if first then
    let c := s.pwr.thrCnt
    let s := s.modPwr fun p => { p with thrCnt := inc 32 c }
    let s := s.saturated (reaches 32 c) 0x0F 5 0 0x10050 (nw (inc 32 c))
    match fin? 4 i.val with
    | some a => s.condPwrEng a
    | none => s.condPwr
  else s

/-- The throttle steps of the islands of a list, as the samples t give them in the state s. -/
def State.takeThrottles (u s : State) (t : List Int) (l : List (Fin 8)) : State :=
  l.foldl (fun u i => u.takeThrottle i (s.throttle t i).1 (s.throttle t i).2.1 (s.throttle t i).2.2) u

theorem execThermalSample_eq (t : List Int) (s : State) : execThermalSample t s = .next
    ((s.temperaturesLatched t).hotSet.takeThrottles (s.temperaturesLatched t).hotSet t (fins 8)) := by
  unfold execThermalSample State.takeThrottles
  extract_lets s1 s2 b1 b2 s3 r s4
  have h2 : s.temperaturesLatched t = s2 := rfl
  have h3 : s2.hotSet = s3 := rfl
  rw [h2, h3]
  unfold s4 r
  rw [List.foldl_map]
  rfl

theorem State.latch_temps (s : State) (n : LoopIx) (x : Nat) (v : Int) (lost hand : Bool) :
    Kept (fun s => s.lpe.temps) s (s.latch n x v lost hand) := by
  unfold State.latch
  split
  · dsimp only
    split <;> rfl
  · rfl

theorem State.temperaturesLatched_temps (s : State) (t : List Int) (z : Fin 8) :
    (s.temperaturesLatched t).lpe.temps[z] = (t[z.val]?).getD 0 := by
  unfold State.temperaturesLatched
  have h := foldl_keeps (fun s : State => s.lpe.temps) (fun s (z : Fin 8) => s.latch (thermSlot z) s.mtime s.lpe.temps[z] false false)
    (fins 8) (s.modLpe fun l => { l with temps := Vector.ofFn fun (z : Fin 8) => (t[z.val]?).getD 0 }) fun s z => s.latch_temps ..
  rw [h]
  simp

theorem State.temperaturesLatched_moves (s : State) (t : List Int) : Moves [.mems, .lpe] s (s.temperaturesLatched t) :=
  ((State.modLpe_moves ..).widen (by decide)).trans (.fold _ _ _ fun s z => s.latch_moves ..)

theorem State.hotSet_moves (s : State) : Moves [.trc, .pwr, .evr] s s.hotSet :=
  .ite (((State.modPwr_moves ..).widen (by decide)).trans ((State.condPwr_moves _).widen (by decide)))
    (.ite ((State.modPwr_moves ..).widen (by decide)) (.refl ..))

/-- HOT is all that the thermal samples themselves change of the arbiter. -/
theorem State.hotSet_pwr (s : State) : s.hotSet.pwr = { s.pwr with
    hot := ((fins 8).any fun (z : Fin 8) => decide (1680 ≤ s.lpe.temps[z])) ||
      (s.pwr.hot && !(fins 8).all fun (z : Fin 8) => decide (s.lpe.temps[z] < 1600)) } := by
  have hcool : (fins 8).all (fun (z : Fin 8) => decide (s.lpe.temps[z] < 1600)) = true →
      (fins 8).any (fun (z : Fin 8) => decide (1680 ≤ s.lpe.temps[z])) = false := by
    intro h
    rw [List.all_eq_true] at h
    rw [List.any_eq_false]
    intro z hz
    have := h z hz
    simp only [decide_eq_true_eq] at this ⊢
    omega
  unfold State.hotSet
  generalize (fins 8).any (fun (z : Fin 8) => decide (1680 ≤ s.lpe.temps[z])) = anyHot at hcool ⊢
  generalize (fins 8).all (fun (z : Fin 8) => decide (s.lpe.temps[z] < 1600)) = cool at hcool ⊢
  by_cases hnew : (anyHot && !s.pwr.hot) = true
  · rw [if_pos hnew, State.condPwr_pwr, State.modPwr_pwr, (Bool.and_eq_true_iff.mp hnew).1, Bool.true_or]
  · rw [if_neg hnew]
    cases anyHot
    · cases cool <;> simp
    · rw [Bool.eq_false_iff.mpr fun h => Bool.noConfusion (hcool h)]
      have hhot : s.pwr.hot = true := by simpa using hnew
      rw [if_neg Bool.false_ne_true, Bool.true_or, ← hhot]

theorem State.throttle_congr {s u : State} (t : List Int) (i : Fin 8) (hlayout : u.layout = s.layout)
    (hstep : u.pwr.thrStep = s.pwr.thrStep) (hexc : u.pwr.thrExc = s.pwr.thrExc) : u.throttle t i = s.throttle t i := by
  simp only [State.throttle, State.neighbours, hlayout, hstep, hexc]

theorem State.takeThrottle_moves (s : State) (i : Fin 8) (n : Nat) (e first : Bool) :
    Moves [.trc, .pwr, .evr] s (s.takeThrottle i n e first) := by
  unfold State.takeThrottle
  extract_lets s1 s2 c s3 s4
  have h1 : Moves [.trc, .pwr, .evr] s s1 := (State.modPwr_moves ..).widen (by decide)
  have h2 : Moves [.trc, .pwr, .evr] s s2 := by
    unfold s2
    split
    · exact h1.trans (((State.modEpw_moves ..).widen (by decide)).trans ((State.askClock_moves ..).widen (by decide)))
    · exact h1
  have h4 : Moves [.trc, .pwr, .evr] s s4 :=
    h2.trans (((State.modPwr_moves ..).widen (by decide)).trans ((State.saturated_moves ..).widen (by decide)))
  refine .ite ?_ h2
  split
  · exact h4.trans ((State.condPwrEng_moves ..).widen (by decide))
  · exact h4.trans ((State.condPwr_moves ..).widen (by decide))

theorem State.takeThrottle_pwr (s : State) (i : Fin 8) (n : Nat) (e first : Bool) : ∃ eng cnt, (s.takeThrottle i n e first).pwr =
    { s.pwr with thrStep := vset s.pwr.thrStep i n, thrExc := vset s.pwr.thrExc i e, eng := eng, thrCnt := cnt } ∧
    (first = false → cnt = s.pwr.thrCnt) := by
  unfold State.takeThrottle
  dsimp only
  cases fin? 4 i.val <;> cases first
  · exact ⟨_, _, rfl, fun _ => rfl⟩
  · exact ⟨s.pwr.eng, inc 32 s.pwr.thrCnt, by simp, nofun⟩
  · exact ⟨_, _, rfl, fun _ => rfl⟩
  · simp only [if_true, State.condPwrEng_pwr, State.saturated_pwr, State.modPwr_pwr]
    exact ⟨_, _, rfl, nofun⟩

theorem State.takeThrottles_moves (u s : State) (t : List Int) (l : List (Fin 8)) :
    Moves [.trc, .pwr, .evr] u (u.takeThrottles s t l) := by
  unfold State.takeThrottles
  exact .fold _ _ _ fun u i => u.takeThrottle_moves ..

theorem State.takeThrottles_thrStep (u s : State) (t : List Int) (l : List (Fin 8)) (k : Fin 8) :
    (u.takeThrottles s t l).pwr.thrStep[k] = if k ∈ l then (s.throttle t k).1 else u.pwr.thrStep[k] := by
  unfold State.takeThrottles
  induction l generalizing u with
  | nil => simp
  | cons i l ih =>
    obtain ⟨eng, cnt, hpwr, -⟩ := u.takeThrottle_pwr i (s.throttle t i).1 (s.throttle t i).2.1 (s.throttle t i).2.2
    rw [List.foldl_cons, ih, hpwr]
    by_cases hk : i = k
    · subst hk
      simp
    · simp [hk, Ne.symm hk, Fin.val_inj]

theorem State.takeThrottles_hot (u s : State) (t : List Int) (l : List (Fin 8)) : (u.takeThrottles s t l).pwr.hot = u.pwr.hot := by
  unfold State.takeThrottles
  refine foldl_keeps (fun s : State => s.pwr.hot) _ l u fun u i => ?_
  obtain ⟨eng, cnt, hpwr, -⟩ := u.takeThrottle_pwr i (s.throttle t i).1 (s.throttle t i).2.1 (s.throttle t i).2.2
  exact (congrArg Power.hot hpwr).trans rfl

theorem State.takeThrottles_thrCnt (u s : State) (t : List Int) (l : List (Fin 8)) (h : ∀ i ∈ l, (s.throttle t i).2.2 = false) :
    (u.takeThrottles s t l).pwr.thrCnt = u.pwr.thrCnt := by
  unfold State.takeThrottles
  induction l generalizing u with
  | nil => rfl
  | cons i l ih =>
    obtain ⟨eng, cnt, hpwr, hcnt⟩ := u.takeThrottle_pwr i (s.throttle t i).1 (s.throttle t i).2.1 (s.throttle t i).2.2
    rw [List.foldl_cons, ih _ fun j hj => h j (by simp [hj])]
    exact (congrArg Power.thrCnt hpwr).trans (hcnt (h i (by simp)))

/-- The state that thermal samples lead to: the temperatures, HOT, the throttle steps, and their count where no excursion is new. -/
theorem execThermalSample_effect (t : List Int) (s : State) : ∃ u, execThermalSample t s = .next u ∧
    (∀ z : Fin 8, u.lpe.temps[z] = (t[z.val]?).getD 0) ∧
    u.pwr.hot = (((fins 8).any fun (z : Fin 8) => decide (1680 ≤ (t[z.val]?).getD 0)) ||
      (s.pwr.hot && !(fins 8).all fun (z : Fin 8) => decide ((t[z.val]?).getD 0 < 1600))) ∧
    (∀ i : Fin 8, u.pwr.thrStep[i] = (s.throttle t i).1) ∧
    ((fins 8).all (fun (i : Fin 8) => !(s.throttle t i).2.2) = true → u.pwr.thrCnt = s.pwr.thrCnt) := by
  refine ⟨_, execThermalSample_eq t s, ?_⟩
  have hlatch := s.temperaturesLatched_moves t
  have htemps := s.temperaturesLatched_temps t
  generalize s.temperaturesLatched t = s1 at hlatch htemps ⊢
  have hmoves := s1.hotSet_moves
  have hpwr := s1.hotSet_pwr
  simp only [hlatch.pwr_eq rfl, htemps] at hpwr
  generalize s1.hotSet = s2 at hmoves hpwr ⊢
  have hthr (i : Fin 8) : s2.throttle t i = s.throttle t i :=
    State.throttle_congr t i ((hmoves.layout_eq rfl).trans (hlatch.layout_eq rfl)) ((congrArg Power.thrStep hpwr).trans rfl)
      ((congrArg Power.thrExc hpwr).trans rfl)
  refine ⟨fun z => ?_, ?_, fun i => ?_, fun h => ?_⟩
  · rw [(s2.takeThrottles_moves s2 t _).lpe_eq rfl, hmoves.lpe_eq rfl, htemps]
  · rw [State.takeThrottles_hot, hpwr]
  · rw [State.takeThrottles_thrStep, if_pos (by simp [fins]), hthr]
  · rw [State.takeThrottles_thrCnt _ _ _ _ fun i hi => by simpa [hthr] using List.all_eq_true.mp h i hi, hpwr]

/-! ### Epochs -/

/-- The registers of the arbiter that count its epochs and hold what an epoch measured. -/
def Power.clockwork (p : Power) : Nat × Nat × Nat × Nat × Option (List PowerReq) × Nat :=
  (p.epoch, p.meas12, p.meas3, p.arbLateCnt, p.late, p.revEpochs)

theorem Moves.clockwork {m : List Part} {s t : State} (h : Moves m s t) (hm : m.contains .pwr = false) :
    Kept (fun s => s.pwr.clockwork) s t := congrArg Power.clockwork (h.pwr_eq hm)

theorem State.modPwr_clockwork (s : State) {f : Power → Power} (h : ∀ p, (f p).clockwork = p.clockwork) :
    Kept (fun s => s.pwr.clockwork) s (s.modPwr f) := h s.pwr

theorem State.modHpw_clockwork (s : State) (g : Head) (f : HeadPower → HeadPower) :
    Kept (fun s => s.pwr.clockwork) s (s.modHpw g f) := State.modPwr_clockwork _ fun _ => rfl

theorem State.modEpw_clockwork (s : State) (a : Eng) (f : EngPower → EngPower) :
    Kept (fun s => s.pwr.clockwork) s (s.modEpw a f) := State.modPwr_clockwork _ fun _ => rfl

theorem State.bindEngine_clockwork (s : State) (e : DecIx) (r : ReqIx) (q : PoolReq) (lvl : Nat) :
    Kept (fun s => s.pwr.clockwork) s (s.bindEngine e r q lvl) := by
  unfold State.bindEngine
  extract_lets s1 s2 start
  have h1 : Kept (fun s => s.pwr.clockwork) s s1 := .ite (s.modPwr_clockwork fun _ => rfl) .refl
  have h2 : Kept (fun s => s.pwr.clockwork) s s2 := h1
  split
  · split <;> exact h2
  · exact h2

theorem State.serveIdle_clockwork (s : State) (deep : Bool) (n : Nat) : Kept (fun s => s.pwr.clockwork) s (s.serveIdle deep n) := by
  induction n generalizing s with
  | zero => exact .refl
  | succ n ih =>
    unfold State.serveIdle
    split
    · exact .refl
    · split
      · exact .refl
      · exact .trans ((s.award_moves ..).clockwork rfl) (.trans (State.bindEngine_clockwork ..) (ih _))

theorem State.servePool_clockwork (s : State) : Kept (fun s => s.pwr.clockwork) s s.servePool :=
  .trans (s.serveIdle_clockwork ..) (State.serveIdle_clockwork ..)

theorem State.gateEngines_clockwork (s : State) (n : Nat) : Kept (fun s => s.pwr.clockwork) s (s.gateEngines n) := by
  unfold State.gateEngines
  extract_lets std on set s'
  have hset (l : List DecIx) (b : Bool) : Kept (fun s => s.pwr.clockwork) s (set l b) := .fold _ _ _ fun s e => rfl
  exact .trans (.ite (hset ..) (hset ..)) rfl

theorem State.dutySlices_clockwork (s : State) (g : Head) : Kept (fun s => s.pwr.clockwork) s (s.dutySlices g) := by
  unfold State.dutySlices
  extract_lets h set
  exact .ite (.ite rfl .refl) (.ite rfl .refl)

theorem State.endCommits_clockwork (s : State) : Kept (fun s => s.pwr.clockwork) s s.endCommits := by
  unfold State.endCommits
  extract_lets s1 s2
  have h1 : Kept (fun s => s.pwr.clockwork) s s1 := .fold _ _ _ fun s a => .ite .refl (s.modEpw_clockwork ..)
  have h2 : Kept (fun s => s.pwr.clockwork) s1 s2 := .fold _ _ _ fun s g => .ite .refl (s.modHpw_clockwork ..)
  exact .trans h1 (.trans h2 (.ite (State.modPwr_clockwork _ fun _ => rfl) .refl))

theorem State.checkYield_clockwork (s : State) : Kept (fun s => s.pwr.clockwork) s s.checkYield := by
  unfold State.checkYield
  extract_lets t above n s1 s2
  have h1 : Kept (fun s => s.pwr.clockwork) s s1 := s.modPwr_clockwork fun _ => rfl
  have h2 : Kept (fun s => s.pwr.clockwork) s s2 := .trans h1 ((State.record_moves ..).clockwork rfl)
  exact .ite (.trans h2 (.trans ((State.saturated_moves ..).clockwork rfl) ((State.vendorEvent_moves ..).clockwork rfl)))
    (s.modPwr_clockwork fun _ => rfl)

/-- Grants delivered end a lateness and count the epoch for the revolution. -/
theorem State.deliverGrants_clockwork (s : State) (reqs : List PowerReq) : (s.deliverGrants reqs).pwr.clockwork =
    (s.pwr.epoch, s.pwr.meas12, s.pwr.meas3, s.pwr.arbLateCnt, none, s.pwr.revEpochs + 1) := by
  unfold State.deliverGrants
  extract_lets g p s1 s2 heads all raw s3 s4
  have h1 : Kept (fun s => s.pwr.clockwork) s s1 := .fold _ _ _ fun s h => s.modHpw_clockwork ..
  have h2 : Kept (fun s => s.pwr.clockwork) s1 s2 := .fold _ _ _ fun s a => by
    extract_lets want x1 x2
    have hx : Kept (fun s => s.pwr.clockwork) s x2 := State.modEpw_clockwork ..
    split
    · extract_lets x3 x4
      have hx4 : Kept (fun s => s.pwr.clockwork) s x4 := hx.trans (State.modEpw_clockwork ..)
      exact .ite (hx4.trans (State.modPwr_clockwork _ fun _ => rfl)) hx4
    · exact .ite (hx.trans (State.modEpw_clockwork ..)) (.ite (hx.trans (State.modEpw_clockwork ..)) hx)
  have h3 : s3.pwr.clockwork = (s2.pwr.epoch, s2.pwr.meas12, s2.pwr.meas3, s2.pwr.arbLateCnt, none, s2.pwr.revEpochs + 1) := rfl
  have h4 : Kept (fun s => s.pwr.clockwork) s3 s4 := .trans (State.gateEngines_clockwork ..) (State.servePool_clockwork ..)
  have h12 : s2.pwr.clockwork = s.pwr.clockwork := h1.trans h2
  simp only [Power.clockwork, Prod.mk.injEq] at h12
  obtain ⟨hepoch, h12', h3', hcnt, -, hrev⟩ := h12
  rw [hepoch, h12', h3', hcnt, hrev] at h3
  have h5 : Kept (fun s => s.pwr.clockwork) s4 (((fins 24).foldl State.dutySlices s4).noteRefusals g) :=
    .trans (.fold _ _ _ State.dutySlices_clockwork) ((State.noteRefusals_moves ..).clockwork rfl)
  exact Eq.trans (h4.trans h5) h3

theorem State.answerEpoch_clockwork (s : State) (reqs : List PowerReq) (ready : Bool) : (s.answerEpoch reqs ready).pwr.clockwork =
    (s.pwr.epoch, s.pwr.meas12, s.pwr.meas3, if ready then s.pwr.arbLateCnt else inc 32 s.pwr.arbLateCnt,
      if ready then none else some reqs, if ready then s.pwr.revEpochs + 1 else s.pwr.revEpochs) := by
  cases ready with
  | true => exact s.deliverGrants_clockwork reqs
  | false =>
    rw [State.answerEpoch, if_neg Bool.false_ne_true]
    dsimp only
    rw [State.saturated_pwr]
    rfl

theorem execPowerEpoch_clockwork {s : State} {e : EpochIn} (h : s.epochBegins = true) : ∃ t, execPowerEpoch e s = .next t ∧
    t.pwr.epoch = (s.pwr.epoch + 1) % 2 ^ 64 ∧ t.pwr.meas12 = e.p12.toNat ∧ t.pwr.meas3 = e.p3.toNat ∧
    t.pwr.arbLateCnt = (if e.ready then s.pwr.arbLateCnt else inc 32 s.pwr.arbLateCnt) ∧
    t.pwr.late.isSome = !e.ready ∧ t.pwr.revEpochs = (if e.ready then s.pwr.revEpochs + 1 else s.pwr.revEpochs) := by
  unfold execPowerEpoch
  rw [if_neg (by simp [h])]
  extract_lets m12 m3 s1 s2
  have h1 : s1.pwr.epoch = (s.pwr.epoch + 1) % 2 ^ 64 ∧ s1.pwr.meas12 = e.p12.toNat ∧ s1.pwr.meas3 = e.p3.toNat ∧
      s1.pwr.arbLateCnt = s.pwr.arbLateCnt ∧ s1.pwr.revEpochs = s.pwr.revEpochs := by
    simp only [s1, State.modPwr_pwr, and_self, m12, m3]
  clear_value s1
  have h2 : s2.pwr.clockwork = s1.pwr.clockwork := Eq.trans s1.endCommits.checkYield_clockwork s1.endCommits_clockwork
  have h3 := s2.answerEpoch_clockwork s2.powerRequests e.ready
  refine ⟨_, rfl, ?_⟩
  generalize s2.powerRequests = reqs at h3 ⊢
  clear_value s2
  simp only [Power.clockwork, Prod.mk.injEq] at h2 h3
  obtain ⟨hepoch, hm12, hm3, hcnt, -, hrev⟩ := h2
  obtain ⟨hepoch', hm12', hm3', hcnt', hlate', hrev'⟩ := h3
  obtain ⟨h1e, h1a, h1b, h1c, h1r⟩ := h1
  rw [hepoch', hm12', hm3', hcnt', hlate', hrev', hepoch, hm12, hm3, hcnt, hrev, h1e, h1a, h1b, h1c, h1r]
  exact ⟨rfl, rfl, rfl, rfl, by cases e.ready <;> rfl, rfl⟩

theorem execPowerEpoch_late {s : State} {e : EpochIn} {l : List PowerReq} (h : s.epochBegins = false) (hlate : s.pwr.late = some l)
    (hready : e.ready = true) : execPowerEpoch e s = .next (s.deliverGrants l) := by
  simp [execPowerEpoch, h, hlate, hready]

/-! ### The evaluation and the offset -/

theorem execBoleroEvaluation_of_run {s : State} (hrun : s.spn.state = .run) (hbol : s.spn.set.bolEn = true) (hlock : s.anyLocked = true)
    (hfew : 2 * s.pwr.revRefused ≤ s.pwr.revEpochs) : ∃ pwr, pwr = { s.pwr with
        nCap := if s.pwr.nLift ≤ (if s.pwr.revRefused = 0 then s.pwr.cleanRevs + 1 else 0) then s.spn.set.bolMax else s.pwr.nCap
        cleanRevs := if s.pwr.revRefused = 0 then s.pwr.cleanRevs + 1 else 0, revEpochs := 0, revRefused := 0, accDraw := 0 } ∧
      execBoleroEvaluation s.refEngine s =
        .next { s with pwr := pwr, spn := s.spn.apply.evaluate s.readStaged s.writeWaiting pwr.nCap } := by
  refine ⟨_, rfl, ?_⟩
  rw [execBoleroEvaluation, if_neg (by simp), if_pos ⟨hrun, hbol, hlock⟩]
  extract_lets s1 p many clean n s2 s3
  have hmany : many = false := decide_eq_false (by show ¬s.pwr.revEpochs < 2 * s.pwr.revRefused; omega)
  unfold s3 s2
  rw [hmany, if_neg Bool.false_ne_true]
  by_cases hlift : p.nLift ≤ clean
  · rw [if_pos hlift]
    simp only [if_pos (show s.pwr.nLift ≤ (if s.pwr.revRefused = 0 then s.pwr.cleanRevs + 1 else 0) from hlift)]
    rfl
  · rw [if_neg hlift]
    simp only [if_neg (show ¬s.pwr.nLift ≤ (if s.pwr.revRefused = 0 then s.pwr.cleanRevs + 1 else 0) from hlift)]
    rfl

/-- The arbiter after 64 epochs whose measured mean is 102% above CEIL or not. -/
theorem execEstOfsUpdate_of_full {s : State} (hfull : 64 ≤ s.pwr.sumN) (above : Bool)
    (habove : decide (102 * s.pwr.ceilNow < 100 * (s.pwr.sumMeas / 64)) = above) : ∃ pwr, pwr = { s.pwr with
        estOfs := clampInt (-500) 2000 (s.pwr.estOfs + ((s.pwr.sumMeas : Int) - s.pwr.sumEst) / 64 / 8)
        sumMeas := 0, sumEst := 0, sumN := 0
        overSet := above || (s.pwr.overSet && decide (s.pwr.ceilNow < s.pwr.sumMeas / 64))
        overCnt := if above && !s.pwr.overSet then inc 32 s.pwr.overCnt else s.pwr.overCnt } ∧
      execEstOfsUpdate s = .next (if above && !s.pwr.overSet then
        (({ s with pwr := pwr } : State).saturated (reaches 32 s.pwr.overCnt) 0x0F 5 0 0x1004C (nw (inc 32 s.pwr.overCnt))).condPwr
        else { s with pwr := pwr }) := by
  refine ⟨_, rfl, ?_⟩
  rw [execEstOfsUpdate, if_neg (by omega), ← habove]
  rfl

theorem execIslandClockChange_of_asked {s : State} {a : Eng} (hpres : s.enginePresent a = true)
    (hk : s.pwr.eng[a].k ≠ s.pwr.eng[a].kWant) (hidle : s.eng[a].seq.jobPend = 0) :
    execIslandClockChange a s = .next (s.setClock a s.pwr.eng[a].kWant) := by
  have hbne : (s.pwr.eng[a].k != s.pwr.eng[a].kWant) = true := bne_iff_ne.mpr hk
  rw [execIslandClockChange]
  dsimp only
  rw [hpres, hbne, hidle, if_pos (by rfl)]

/-! ### Packets -/

/-- The state after BUDGET_SET stored the words v. -/
def State.budgetStored (s : State) (v : Nat → Word) : State :=
  (s.modPwr fun y => { y with budget := (v 0).toNat, cfg := v 1, cost1 := v 2, cost2 := v 3, galopMw := v 4, rCoil := (v 5).toNat }).modNor
    fun n => { n with power := Vector.ofFn fun (i : Fin 6) => v i.val }

theorem opBudgetSet_eq (p : Packet) (s : State) : ∃ w0 w1 w2 w3 w4 w5,
    w0 = clampWord [fIn 31 0 10000 35000] (nw s.pwr.budget) (p.w 0) ∧
    w1 = clampWord [fIn 31 24 0 200, fIn 23 16 8 255, fIn 15 12 0 8, fIn 11 8 1 15] s.pwr.cfg (p.w 1) ∧
    w2 = clampWord [fIn 31 24 10 100, fIn 23 16 5 100, fIn 15 8 10 150, fIn 7 0 20 250] s.pwr.cost1 (p.w 2) ∧
    w3 = clampWord [fAny 31 16, fIn 15 8 10 255, fIn 7 0 5 60] s.pwr.cost2 (p.w 3) ∧
    w4 = clampWord [fIn 31 24 1 255, fIn 23 16 1 255, fIn 15 8 1 255, fIn 7 0 1 255] s.pwr.galopMw (p.w 4) ∧
    w5 = clampWord [fIn 15 0 1000 20000] (nw s.pwr.rCoil) (p.w 5) ∧
    opBudgetSet p s = { state := s.budgetStored fun i => ([w0, w1, w2, w3, w4, w5][i]?).getD 0
                        clamp := clampBits ((List.range 6).map fun i => (i, p.w i, ([w0, w1, w2, w3, w4, w5][i]?).getD 0))
                        result := [w0, w1, w2, w3, w4, w5] } :=
  ⟨_, _, _, _, _, _, rfl, rfl, rfl, rfl, rfl, rfl, rfl⟩

theorem fin?_hd {p : Packet} (h : p.idx < 24) : fin? 24 p.idx = some p.hd :=
  fin?_of_lt (Nat.mod_eq_of_lt h).symm

theorem opBudgetConsumer_head {p : Packet} {s : State} (hlvl : p.lvl = 3) (hdepop : s.head[p.hd].map.depop = false) (hidx : p.idx < 24) :
    opBudgetConsumer p s = .report s [rHdPwr s.pwr.head[p.hd], rHdReq s.pwr.head[p.hd], nw s.pwr.head[p.hd].refCnt] := by
  rw [opBudgetConsumer, if_pos hlvl, fin?_hd hidx]
  dsimp only
  rw [if_neg (ne_true_of_eq_false hdepop)]

theorem opBudgetConsumer_engine {p : Packet} {s : State} {a : Eng} (hlvl : p.lvl = 4) (hidx : p.idx = a.val) :
    opBudgetConsumer p s = .report s
      [rEngPwr s.pwr.eng[a], if s.engineFailed a then 0 else rEngReq s.pwr.eng[a], rZoneAllow s.pwr ⟨a.val, by omega⟩] := by
  rw [opBudgetConsumer, if_neg (by simp [hlvl]), if_pos hlvl, fin?_of_lt hidx]

theorem opBudgetConsumer_module {p : Packet} {s : State} (hlvl : p.lvl = 5) : opBudgetConsumer p s = .report s
    [rZoneAllow s.pwr 4, rZoneAllow s.pwr 5, rZoneAllow s.pwr 6, rZoneAllow s.pwr 7, rEstOfs s.pwr, nw s.pwr.arbLateCnt] := by
  rw [opBudgetConsumer, if_neg (by simp [hlvl]), if_neg (by simp [hlvl])]

/-- The arbiter after BUDGET_CLEAR of the counters m and the head g. -/
def Power.cleared (y : Power) (m : Nat) (g : Head) : Power :=
  { y with
    accRefCnt := clr m 0 y.accRefCnt, headRefCnt := clr m 1 y.headRefCnt, seekDegCnt := clr m 2 y.seekDegCnt
    yield3Cnt := clr m 3 y.yield3Cnt, overCnt := clr m 4 y.overCnt, thrCnt := clr m 5 y.thrCnt, arbLateCnt := clr m 6 y.arbLateCnt
    head := vmod y.head g fun x => { x with refCnt := clr m 7 x.refCnt } }

theorem opBudgetClear_of_head {p : Packet} {s : State} {g : Head} (hg : (p.w 1).toNat = g.val) (hlt : g.val < s.layout.total) :
    ∃ r, opBudgetClear p s =
      { state := s.modPwr fun y => y.cleared (fld (p.w 0) 7 0) g, clamp := clampBits [(0, p.w 0, nw (fld (p.w 0) 7 0))], result := r } := by
  have hhead : (if (p.w 1).toNat < s.layout.total then fin? 24 (p.w 1).toNat else none) = some g := by
    rw [hg, if_pos hlt, fin?_of_lt rfl]
  simp only [opBudgetClear, hhead, Option.isNone_some, Bool.and_false, Bool.false_eq_true, if_false]
  exact ⟨_, rfl⟩

theorem nw_toNat (w : Word) : nw w.toNat = w := by simp [nw]

/-- Settles O36. -/
theorem powerAndThermal : Obligations.PowerAndThermal := by
  refine ⟨fun s l hcold hthr => ?_, fun s l hhot => ?_, fun s hrun hbol hlock hfew => ?_, fun s hbol => ?_, fun s e h => ?_,
    fun s e l h hlate hready => ?_, fun s hfull hover => ?_, fun s hfull habove hset => ?_, fun s a hpres hk hidle => ?_, fun s p h => ?_,
    fun s p h => completes_report h rfl, fun s p h hlvl hdepop hidx => ?_, fun s p a h hlvl hidx => ?_, fun s p h hlvl => ?_,
    fun s p g h hg hlt => ?_⟩
  · -- THERMAL_SAMPLE
    obtain ⟨t, ht, htemps, hhot, hstep, hcnt⟩ := execThermalSample_effect l s
    have hno : (fins 8).any (fun (z : Fin 8) => decide (1680 ≤ (l[z.val]?).getD 0)) = false := by
      rw [List.any_eq_false]
      intro z hz
      have := List.all_eq_true.mp hcold z hz
      simp only [decide_eq_true_eq] at this ⊢
      omega
    rw [hno, Bool.false_or] at hhot
    exact ⟨t, ht, htemps, hhot, hstep, hcnt hthr⟩
  · -- THERMAL_SAMPLE of a hot place
    obtain ⟨t, ht, htemps, hhot', hstep, -⟩ := execThermalSample_effect l s
    rw [hhot, Bool.true_or] at hhot'
    exact ⟨t, ht, htemps, hhot', hstep⟩
  · -- BOLERO_EVALUATION
    obtain ⟨pwr, hpwr, ht⟩ := execBoleroEvaluation_of_run hrun hbol hlock hfew
    exact ⟨_, ht, hpwr, rfl, rfl⟩
  · -- BOLERO_EVALUATION with Bolero off
    refine ⟨_, ?_, rfl⟩
    show execBoleroEvaluation s.refEngine s = _
    rw [execBoleroEvaluation, if_neg (by simp), if_neg (by simp [hbol])]
    rfl
  · -- POWER_EPOCH
    exact execPowerEpoch_clockwork h
  · -- POWER_EPOCH of late grants
    have hclock := s.deliverGrants_clockwork l
    simp only [Power.clockwork, Prod.mk.injEq] at hclock
    obtain ⟨hepoch, -, -, hcnt, hnone, hrev⟩ := hclock
    exact ⟨_, execPowerEpoch_late h hlate hready, hnone, hepoch, hcnt, hrev⟩
  · -- EST_OFS_UPDATE
    obtain ⟨pwr, hpwr, ht⟩ := execEstOfsUpdate_of_full hfull _ rfl
    have hnot : (decide (102 * s.pwr.ceilNow < 100 * (s.pwr.sumMeas / 64)) && !s.pwr.overSet) = false := by
      rw [Bool.and_eq_false_iff, decide_eq_false_iff_not, Bool.not_eq_false', ← imp_iff_not_or]
      exact hover
    rw [hnot, if_neg Bool.false_ne_true] at hpwr ht
    exact ⟨_, ht, hpwr, rfl⟩
  · -- EST_OFS_UPDATE above CEIL
    obtain ⟨pwr, hpwr, ht⟩ := execEstOfsUpdate_of_full hfull true (decide_eq_true habove)
    rw [hset, Bool.not_false, Bool.and_self, if_pos rfl] at hpwr ht
    have hmoves := ((State.saturated_moves ({ s with pwr := pwr } : State) (reaches 32 s.pwr.overCnt) 0x0F 5 0 0x1004C
      (nw (inc 32 s.pwr.overCnt))).widen (n := [.trc, .evr]) (by decide)).trans ((State.condPwr_moves _).widen (by decide))
    obtain ⟨hsame, hevent⟩ := hmoves.afterEvent_pwr
    refine ⟨_, ht, ?_, ?_, hevent⟩
    · exact (congrArg Power.overSet (hsame.trans hpwr)).trans rfl
    · exact (congrArg Power.overCnt (hsame.trans hpwr)).trans rfl
  · -- ISLAND_CLOCK_CHANGE
    exact ⟨_, execIslandClockChange_of_asked hpres hk hidle, congrArg EngPower.k (vmod_same ..), congrArg EngPower.vsup (vmod_same ..),
      fun b hb => vmod_other _ _ hb, rfl⟩
  · -- BUDGET_SET
    obtain ⟨w0, w1, w2, w3, w4, w5, h0, h1, h2, h3, h4, h5, heq⟩ := opBudgetSet_eq p (s.startPacket ⟨0x0200, [5], .config⟩ p)
    refine completes_result h heq (opBudgetSet_moves ..) rfl rfl rfl rfl fun t hshape hans => ?_
    obtain ⟨_, _, _, _, _, rfl⟩ := hshape
    rw [State.startPacket_pwr] at h0 h1 h2 h3 h4 h5
    rw [← h0, ← h1, ← h2, ← h3, ← h4, ← h5]
    refine ⟨rfl, rfl, rfl, rfl, rfl, rfl, rfl, rfl, ?_, rfl⟩
    rw [← nw_toNat w0, ← nw_toNat w5] at hans
    exact hans
  · -- BUDGET_CONSUMER of a head
    exact completes_report h (opBudgetConsumer_head hlvl hdepop hidx)
  · -- BUDGET_CONSUMER of an engine
    exact completes_report h (opBudgetConsumer_engine hlvl hidx)
  · -- BUDGET_CONSUMER of the module
    exact completes_report h (opBudgetConsumer_module hlvl)
  · -- BUDGET_CLEAR
    obtain ⟨r, hbody⟩ := opBudgetClear_of_head (s := s.startPacket ⟨0x0203, [5], .action⟩ p) hg hlt
    refine completes_result h hbody (opBudgetClear_moves ..) rfl rfl rfl rfl fun t hshape _ => ?_
    obtain ⟨_, _, _, _, _, rfl⟩ := hshape
    exact ⟨rfl, rfl, rfl, rfl, rfl, rfl, rfl, vmod_same .., fun k hk => vmod_other _ _ hk, rfl⟩

end Sys2Proof.Machine
end

section
/-! SUPPORT. The microwords that move and compute data (11_track_sequencer.md, R388). -/

namespace Sys2Proof.Machine
open Sys2Proof
set_option Elab.async false

/-- What a change of one sequencer is: its sequencer as changed, every other engine and every other part of the state as before. -/
theorem State.modSeq_effect (s : State) (a : Eng) (f : Sequencer → Sequencer) : (s.modSeq a f).eng[a].seq = f s.eng[a].seq ∧
    (∀ b, a ≠ b → (s.modSeq a f).eng[b] = s.eng[b]) ∧ s.modSeq a f = { s with eng := (s.modSeq a f).eng } :=
  ⟨congrArg Engine.seq (vmod_same ..), fun _ hb => vmod_other _ _ hb, rfl⟩

theorem Sequencer.setA_a (q : Sequencer) (i : Fin 8) (x : Angle) : (q.setA i x).a i = Stamp.ofLinear (x % angleModulus) := by
  simp [Sequencer.a, Sequencer.regs, Sequencer.setA, Sequencer.modRegs]

theorem Sequencer.setA_other (q : Sequencer) {i j : Fin 8} (x : Angle) (h : i ≠ j) : (q.setA i x).a j = q.a j := by
  have hregs : (q.setA i x).regs.a = vset q.regs.a i (Stamp.ofLinear (x % angleModulus)) := by
    simp [Sequencer.regs, Sequencer.setA, Sequencer.modRegs]
  rw [Sequencer.a, hregs, vset_other _ _ h, Sequencer.a]

/-- An angle put into a register of the engine's sequencer, which changes no other register. -/
theorem State.putAngle_effect (s : State) (a : Eng) (d : Fin 8) (x : Angle) :
    (s.putAngle a d x).eng[a].seq.a d = Stamp.ofLinear (x % angleModulus) ∧
    (s.putAngle a d x).eng[a].seq = { s.eng[a].seq with banks := (s.putAngle a d x).eng[a].seq.banks } ∧
    (∀ i, d ≠ i → (s.putAngle a d x).eng[a].seq.a i = s.eng[a].seq.a i) ∧
    (∀ b, a ≠ b → (s.putAngle a d x).eng[b] = s.eng[b]) ∧ s.putAngle a d x = { s with eng := (s.putAngle a d x).eng } := by
  obtain ⟨hseq, hother, hrest⟩ := s.modSeq_effect a fun q => q.setA d x
  rw [State.putAngle]
  refine ⟨?_, ?_, fun i hi => ?_, hother, hrest⟩
  · rw [hseq]
    exact Sequencer.setA_a ..
  · rw [hseq]
    rfl
  · rw [hseq]
    exact Sequencer.setA_other _ _ hi

/-- A row's operation runs where the sequencer does. -/
theorem completes_seqOp {s : State} {a : Eng} {f : State → State} {P : State → Prop} (h : s.seqRuns a = true) (hP : P (f s)) :
    Completes (.next (s.seqOp a f)) P := ⟨f s, by rw [State.seqOp, if_pos h], hP⟩

/-- Settles O38: every row's operation puts an angle into a register or changes the sequencer by its own rule. -/
theorem sequencerData : Obligations.SequencerData := by
  refine ⟨fun s a dst h => completes_seqOp h (s.putAngle_effect ..), fun s a dst src imm h => completes_seqOp h (s.putAngle_effect ..),
    fun s a dst h => completes_seqOp h (s.putAngle_effect ..), fun s a dst h => completes_seqOp h (s.putAngle_effect ..),
    fun s a dst src imm h => completes_seqOp h (s.putAngle_effect ..), fun s a dst src h => completes_seqOp h (s.putAngle_effect ..),
    fun s a dst src h => completes_seqOp h (s.putAngle_effect ..), fun s a dst h => completes_seqOp h (s.putAngle_effect ..),
    fun s a h => completes_seqOp h ?_, fun s a h => completes_seqOp h (s.modSeq_effect a Sequencer.reportArmed),
    fun s a h => completes_seqOp h (s.modSeq_effect a Sequencer.reportSkip),
    fun s a imm h => completes_seqOp h (s.modSeq_effect a fun q => q.note imm),
    fun s a imm h => completes_seqOp h (s.modSeq_effect a fun q => q.clrf imm),
    fun s a lc imm h => completes_seqOp h (s.modSeq_effect a fun q => q.setLc lc imm),
    fun s a lc h => completes_seqOp h (s.modSeq_effect a fun q => q.dec lc),
    fun s a lc h => completes_seqOp h (s.modSeq_effect a fun q => q.fcnt lc)⟩
  -- POP
  obtain ⟨hseq, hrest⟩ := s.modSeq_effect a Sequencer.pop
  refine ⟨hseq.trans ?_, hrest⟩
  rw [Sequencer.pop]
  cases hq : s.eng[a].seq.fq <;> rfl

end Sys2Proof.Machine
end

section
/-! SUPPORT. The microwords that steer a program, and the fragments given to it (11_track_sequencer.md, R374, R376, R385, R388, R393). -/

namespace Sys2Proof.Machine
open Sys2Proof
set_option Elab.async false

/-- Of a field that is zero, every field within is zero. -/
theorem mfld_zero_of_within {w : BitVec 128} {hi lo : Nat} (h : mfld w hi lo = 0) {a b : Nat} (hab : b ≤ a) (ha : a ≤ hi) (hb : lo ≤ b) :
    mfld w a b = 0 := by
  unfold mfld at h ⊢
  have hbits (i : Nat) (hlo : lo ≤ i) (hhi : i ≤ hi) : w.toNat.testBit i = false := by
    have hbit : (w.toNat / 2 ^ lo % 2 ^ (hi + 1 - lo)).testBit (i - lo) = false := by rw [h, Nat.zero_testBit]
    rw [Nat.testBit_mod_two_pow, Nat.testBit_div_two_pow, Nat.sub_add_cancel hlo] at hbit
    simpa [show i - lo < hi + 1 - lo by omega] using hbit
  refine Nat.eq_of_testBit_eq fun i => ?_
  rw [Nat.testBit_mod_two_pow, Nat.testBit_div_two_pow, Nat.zero_testBit]
  by_cases hi' : i < a + 1 - b
  · rw [hbits (i + b) (by omega) (by omega), Bool.and_false]
  · simp [hi']

/-- A ready sequencer that is not waiting and whose word is sound and names no operation but its next address performs that address. -/
theorem State.wordOf_of_plain {s : State} {a : Eng} {na : Nat} (hready : s.seqReady a = true) (hwait : s.eng[a].seq.waitDone = false)
    (hcheck : s.eng[a].seq.fetchCheck = none) (hna : mfld s.eng[a].seq.current 127 125 = na) (haop : mfld s.eng[a].seq.current 104 101 = 0)
    (hcmp : mfld s.eng[a].seq.current 94 92 = 0) (hops : mfld s.eng[a].seq.current 76 65 = 0) :
    s.wordOf a na = s.microNext a s.eng[a].seq.current (s.seqConds a s.eng[a].seq.current) := by
  have hstall : s.eng[a].seq.stall.isSome = false := by
    simp only [State.seqReady, State.seqRuns, Bool.and_eq_true] at hready
    obtain ⟨⟨-, hnone⟩, -⟩ := hready
    rw [Option.isNone_iff_eq_none.mp hnone]
    rfl
  have hfop : mfld s.eng[a].seq.current 76 73 = 0 := mfld_zero_of_within hops (by decide) (by decide) (by decide)
  have hdop : mfld s.eng[a].seq.current 72 69 = 0 := mfld_zero_of_within hops (by decide) (by decide) (by decide)
  have hlop : mfld s.eng[a].seq.current 68 65 = 0 := mfld_zero_of_within hops (by decide) (by decide) (by decide)
  have haop' : s.microAop a s.eng[a].seq.current = s := by
    rw [State.microAop, haop]
    rfl
  have hcmp' (cs : BitVec 16) : s.microCmp a s.eng[a].seq.current cs = s := by
    rw [State.microCmp, hcmp]
    rfl
  have hops' : s.microOps a s.eng[a].seq.current = s := by
    rw [State.microOps, hfop, hdop, hlop]
    rfl
  rw [State.wordOf, hready, hwait, if_pos (by rfl), hcheck]
  dsimp only
  rw [if_pos hna, State.execWord, haop', hcmp', hstall, if_neg Bool.false_ne_true, hops']

section
variable {s : State} {a : Eng} {w : BitVec 128} (cs : BitVec 16)

theorem State.microNext_inc (h : mfld w 127 125 = 0) :
    s.microNext a w cs = s.modSeq a fun q => { q with upc := (s.eng[a].seq.upc + 1) % 8192 } := by
  rw [State.microNext, h]
  rfl

theorem State.microNext_br (h : mfld w 127 125 = 1) : s.microNext a w cs = s.modSeq a fun q =>
    { q with upc := if microHolds w cs then mfld w 119 107 else (s.eng[a].seq.upc + 1) % 8192 } := by
  rw [State.microNext, h]
  rfl

theorem State.microNext_loop (h : mfld w 127 125 = 2) {i : Fin 4} (hi : finMod 4 (by decide) (mfld w 106 105) = i) :
    s.microNext a w cs = s.modSeq a fun q => { q with
      lc := vset q.lc i (s.eng[a].seq.lc[i] - 1)
      upc := if s.eng[a].seq.lc[i] - 1 = 0 then (s.eng[a].seq.upc + 1) % 8192 else mfld w 119 107 } := by
  subst hi
  rw [State.microNext, h]
  rfl

theorem State.microNext_call (h : mfld w 127 125 = 3) (hstack : s.eng[a].seq.regs.stack.length < 4) :
    s.microNext a w cs = s.modSeq a fun q =>
      { q.modRegs fun b => { b with stack := (s.eng[a].seq.upc + 1) % 8192 :: b.stack } with upc := mfld w 119 107 } := by
  rw [State.microNext, h]
  exact if_neg (by omega)

theorem State.microNext_ret (h : mfld w 127 125 = 4) {r : Nat} {l : List Nat} (hstack : s.eng[a].seq.regs.stack = r :: l) :
    s.microNext a w cs = s.modSeq a fun q => { q.modRegs fun b => { b with stack := l } with upc := r } := by
  rw [State.microNext, h]
  dsimp only
  rw [hstack]
  rfl

theorem State.microNext_wait (h : mfld w 127 125 = 5) (hjob : waitsOn w ≠ some 0) : s.microNext a w cs =
    if microHolds w cs then s.modSeq a fun q => q.endWait w else s.modSeq a fun q => { q with waitDone := true, waitSince := s.angle a } := by
  rw [State.microNext, h]
  dsimp only
  rw [if_neg hjob]
  rfl

theorem State.microNext_rtt (h : mfld w 127 125 = 6) (htrap : s.eng[a].seq.state = .trap) : s.microNext a w cs = s.returnTrap a := by
  rw [State.microNext, h]
  exact if_pos htrap

end

theorem Sequencer.modRegs_regs (q : Sequencer) (f : SeqBank → SeqBank) : (q.modRegs f).regs = f q.regs := by
  simp [Sequencer.modRegs, Sequencer.regs]

theorem State.modSeq_const (s : State) (a : Eng) (f : Sequencer → Sequencer) : s.modSeq a f = s.modSeq a fun _ => f s.eng[a].seq :=
  State.modEng_congr _ _ rfl

/-- A return from a trap, where none is pending and comparator 16 was not armed before the trap (R393). -/
theorem State.returnTrap_of_last {s : State} {a : Eng} (hnext : s.eng[a].seq.nextTrap = none) (harm : s.eng[a].seq.tsv[5].getLsbD 31 = false) :
    ∃ q : Sequencer, s.returnTrap a = (s.modWrg a fun w => { w with trapMask := 0 }).modSeq a (fun _ => q) ∧ q.state = .run ∧ q.bank = 0 ∧
      q.upc = fld s.eng[a].seq.tsv[0] 12 0 ∧ q.waitDone = s.eng[a].seq.savedWait ∧ q.trapHeads = 0 := by
  have hseq : (s.modWrg a fun w => { w with trapMask := 0 }).eng[a].seq = s.eng[a].seq :=
    (congrArg Engine.seq (vmod_same ..)).trans rfl
  simp only [State.returnTrap, hseq, hnext, harm, Bool.false_and, Bool.false_eq_true, if_false]
  exact ⟨_, State.modSeq_const .., rfl, rfl, rfl, congrArg Sequencer.savedWait hseq, rfl⟩

/-- A sum of the powers of two below n, each taken or not, has as its bits which ones are taken. -/
theorem sum_powers (f : Nat → Bool) (n : Nat) : ((List.range n).map fun (c : Nat) => if f c then 2 ^ c else 0).sum < 2 ^ n ∧
    ∀ k < n, ((List.range n).map fun (c : Nat) => if f c then 2 ^ c else 0).sum.testBit k = f k := by
  induction n with
  | zero => simp
  | succ n ih =>
    obtain ⟨hlt, hbits⟩ := ih
    rw [List.range_succ, List.map_append, List.sum_append, List.map_singleton, List.sum_singleton]
    generalize ((List.range n).map fun (c : Nat) => if f c then 2 ^ c else 0).sum = m at hlt hbits ⊢
    refine ⟨by rw [pow_succ]; split <;> omega, fun k hk => ?_⟩
    rcases Nat.lt_or_eq_of_le (Nat.lt_succ_iff.mp hk) with hlow | rfl
    · rw [← hbits k hlow]
      split
      · rw [Nat.add_comm, Nat.testBit_two_pow_add_gt hlow]
      · rfl
    · cases hf : f k with
      | true => rw [if_pos rfl, Nat.add_comm, Nat.testBit_two_pow_add_eq, Nat.testBit_lt_two_pow hlt, Bool.not_false]
      | false => rw [if_neg Bool.false_ne_true, Nat.add_zero, Nat.testBit_lt_two_pow hlt]

/-- A sum of powers of two below 2^16, each taken or not, has as its bit 2 whether the third is taken. -/
theorem conds_bit_two (f : Nat → Bool) :
    (BitVec.ofNat 16 ((List.range 16).map fun (c : Nat) => if f c then 2 ^ c else 0).sum).getLsbD 2 = f 2 := by
  rw [BitVec.getLsbD_ofNat, (sum_powers f 16).2 2 (by decide)]
  rfl

theorem State.seqConds_fired (s : State) (a : Eng) (w : BitVec 128) : (s.seqConds a w).getLsbD 2 =
    if finMod 32 (by decide) (mfld w 91 87) = (0 : Fin 32) then decide (0 < s.eng[a].seq.jobPend)
    else s.eng[a].seq.tags[(finMod 32 (by decide) (mfld w 91 87) : Fin 32)].fired := conds_bit_two _

/-- A word that waits on comparator c does so by the condition of its FIRED latch. -/
theorem microHolds_of_waitsOn {s : State} {a : Eng} {w : BitVec 128} {c : Fin 32} (h : waitsOn w = some c) :
    microHolds w (s.seqConds a w) = if c = 0 then decide (0 < s.eng[a].seq.jobPend) else s.eng[a].seq.tags[c].fired := by
  unfold waitsOn at h
  split at h
  next hw =>
    obtain ⟨-, hcond, hpos⟩ := hw
    injection h with h
    subst h
    rw [microHolds, hcond, hpos, s.seqConds_fired a w, Bool.bne_false]
  next => nomatch h

theorem execWaitComplete_of_ended {s : State} {a : Eng} (hready : s.seqReady a = true) (hwait : s.eng[a].seq.waitDone = true)
    (hholds : microHolds s.eng[a].seq.current (s.seqConds a s.eng[a].seq.current) = true) :
    execWaitComplete a s = .next (s.modSeq a fun q => q.endWait s.eng[a].seq.current) := by
  rw [execWaitComplete]
  dsimp only
  rw [hready, hwait, hholds, if_pos (by rfl)]

/-- Settles O37. -/
theorem sequencerControl : Obligations.SequencerControl := by
  refine ⟨fun s a e f hpres hf hroom => ?_, fun s a hready hwait hcheck hna haop hcmp hops => ?_,
    fun s a hready hwait hcheck hna haop hcmp hops => ?_, fun s a hready hwait hcheck hna haop hcmp hops => ?_,
    fun s a hready hwait hcheck hna haop hcmp hops hstack => ?_, fun s a r l hready hwait hcheck hna haop hcmp hops hstack => ?_,
    fun s a hready hwait hcheck hna haop hcmp hops hjob hholds => ?_, fun s a hready hwait hcheck hna haop hcmp hops hnone hholds => ?_,
    fun s a c hready hwait hc hne hfired => ?_, fun s a hready hwait hc hpend _ => ?_,
    fun s a hready hwait hcheck hna haop hcmp hops htrap hnext harm => ?_⟩
  · -- FRAGMENT_ENQUEUE
    refine ⟨_, ?_, s.modSeq_effect a fun q =>
      { q with fq := insertFragment f q.fq, aborted := q.aborted.filter fun x => x != f.ctx }⟩
    show execFragmentEnqueue a e s = _
    rw [execFragmentEnqueue, hf]
    dsimp only
    rw [if_pos ⟨hpres, hroom⟩]
  · -- INC
    exact ⟨_, congrArg Host.Outcome.next ((State.wordOf_of_plain hready hwait hcheck hna haop hcmp hops).trans (State.microNext_inc _ hna)),
      s.modSeq_effect a _⟩
  · -- BR
    exact ⟨_, congrArg Host.Outcome.next ((State.wordOf_of_plain hready hwait hcheck hna haop hcmp hops).trans (State.microNext_br _ hna)),
      s.modSeq_effect a _⟩
  · -- LOOP
    exact ⟨_, congrArg Host.Outcome.next ((State.wordOf_of_plain hready hwait hcheck hna haop hcmp hops).trans (State.microNext_loop _ hna rfl)),
      s.modSeq_effect a _⟩
  · -- CALL
    obtain ⟨hseq, hrest⟩ := s.modSeq_effect a fun q =>
      { q.modRegs fun b => { b with stack := (s.eng[a].seq.upc + 1) % 8192 :: b.stack } with upc := mfld s.eng[a].seq.current 119 107 }
    refine ⟨_, congrArg Host.Outcome.next
      ((State.wordOf_of_plain hready hwait hcheck hna haop hcmp hops).trans (State.microNext_call _ hna hstack)), ?_, ?_, ?_, hrest⟩
    all_goals rw [hseq]
    · exact Sequencer.modRegs_regs ..
    · rfl
  · -- RET
    obtain ⟨hseq, hrest⟩ := s.modSeq_effect a fun q => { q.modRegs fun b => { b with stack := l } with upc := r }
    refine ⟨_, congrArg Host.Outcome.next
      ((State.wordOf_of_plain hready hwait hcheck hna haop hcmp hops).trans (State.microNext_ret _ hna hstack)), ?_, ?_, ?_, hrest⟩
    all_goals rw [hseq]
    · exact Sequencer.modRegs_regs ..
    · rfl
  · -- WAIT
    refine ⟨_, congrArg Host.Outcome.next ((State.wordOf_of_plain hready hwait hcheck hna haop hcmp hops).trans
      ((State.microNext_wait _ hna hjob).trans (if_neg (ne_true_of_eq_false hholds)))), s.modSeq_effect a _⟩
  · -- WAIT whose condition holds
    refine ⟨_, congrArg Host.Outcome.next ((State.wordOf_of_plain hready hwait hcheck hna haop hcmp hops).trans
      ((State.microNext_wait _ hna (by rw [hnone]; exact nofun)).trans (if_pos hholds))), ?_⟩
    obtain ⟨hseq, hrest⟩ := s.modSeq_effect a fun q => q.endWait s.eng[a].seq.current
    refine ⟨hseq.trans ?_, hrest⟩
    rw [Sequencer.endWait, hnone]
  · -- WAIT_COMPLETE of a comparator
    obtain ⟨hseq, hrest⟩ := s.modSeq_effect a fun q => q.endWait s.eng[a].seq.current
    refine ⟨_, execWaitComplete_of_ended hready hwait ?_, hseq.trans ?_, hrest⟩
    · rw [microHolds_of_waitsOn hc, if_neg hne, hfired]
    · rw [Sequencer.endWait, hc]
      exact if_neg hne
  · -- WAIT_COMPLETE of a job
    obtain ⟨hseq, hrest⟩ := s.modSeq_effect a fun q => q.endWait s.eng[a].seq.current
    refine ⟨_, execWaitComplete_of_ended hready hwait ?_, hseq.trans ?_, hrest⟩
    · rw [microHolds_of_waitsOn hc, if_pos rfl, decide_eq_true hpend]
    · rw [Sequencer.endWait, hc]
      exact if_pos rfl
  · -- RTT
    obtain ⟨q, hq, hstate, hbank, hupc, hwaitDone, hheads⟩ := State.returnTrap_of_last hnext harm
    refine ⟨_, congrArg Host.Outcome.next ((State.wordOf_of_plain hready hwait hcheck hna haop hcmp hops).trans
      ((State.microNext_rtt _ hna htrap).trans hq)), ?_⟩
    obtain ⟨hseq, hother, hrest⟩ := (s.modWrg a fun w => { w with trapMask := 0 }).modSeq_effect a fun _ => q
    rw [hseq]
    refine ⟨hstate, hbank, hupc, hwaitDone, hheads, ?_, fun b hb => (hother b hb).trans (vmod_other _ _ hb), hrest⟩
    rw [(State.modSeq_moves _ a fun _ => q).wrg_eq rfl a]
    exact congrArg (fun e : Engine => e.wrg.trapMask) (vmod_same s.eng a fun e => { e with wrg := { e.wrg with trapMask := 0 } })

end Sys2Proof.Machine
end

section
/-! SUPPORT. The loop engines: computation, release and the trace buffers (09_loop_engines.md). -/

namespace Sys2Proof.Machine
open Sys2Proof
set_option Elab.async false

/-! ### What the laws leave alone -/

/-- What of a loop a law never changes: the output last given, and its lateness account. -/
abbrev LoopSlot.book (x : LoopSlot) : Int × Nat × Nat := (x.lastU, x.debt, x.advance)

theorem LoopSlot.pid_book (x : LoopSlot) (e : Int) : (x.pid e).1.book = x.book := rfl

theorem LoopSlot.ramp_book (x : LoopSlot) : x.ramp.book = x.book := rfl

theorem LoopSlot.preload_book (x : LoopSlot) (e u : Int) : (x.preload e u).1.book = x.book := rfl

theorem LoopSlot.handOver_book (x : LoopSlot) (e u : Int) (den : Nat) (old : OldLaw) : (x.handOver e u den old).1.book = x.book := by
  simp only [LoopSlot.handOver]
  split <;> exact x.preload_book e u

theorem LoopSlot.blend_book (x : LoopSlot) (e u : Int) (len : Nat) : (x.blend e u len).1.book = x.book := by
  simp only [LoopSlot.blend]
  split
  · rfl
  · split <;> rfl

theorem LoopSlot.sense_book (x : LoopSlot) (raw : Int) (lost : Bool) : (x.sense raw lost).1.book = x.book := by
  unfold LoopSlot.sense
  split <;> rfl

theorem vcmLaw_book (v : Servo) (x : LoopSlot) (smp : LoopSample) : (vcmLaw v x smp).1.book = x.book := by
  simp only [vcmLaw]
  split
  case h_6 => split <;> simp only [LoopSlot.handOver_book]
  case h_7 => simp only [LoopSlot.blend_book]
  case h_8 =>
    split
    · simp only [LoopSlot.handOver_book]
    · rfl
  all_goals rfl

theorem maLaw_book (v : Servo) (loss : Nat) (x : LoopSlot) (smp : LoopSample) : (maLaw v loss x smp).1.book = x.book := by
  simp only [maLaw]
  split
  · rfl
  · split
    · rfl
    · split
      · simp only [LoopSlot.blend_book]
      · rfl
      · rfl
      · split
        · simp only [LoopSlot.handOver_book]
        · rfl

theorem spindleLaw_book (p : Spindle) (x : LoopSlot) (smp : LoopSample) : (spindleLaw p x smp).1.book = x.book := by
  simp only [spindleLaw]
  split
  · split <;> rfl
  · split <;> rfl

theorem heatLaw_book (fb : Int) (x : LoopSlot) (smp : LoopSample) (good : Bool) : (heatLaw fb x smp good).1.book = x.book := by
  simp only [heatLaw]
  obtain ⟨y, hy, hbook⟩ : ∃ y, (if good = true then { x with meas := normal smp.value x.eSh } else x) = y ∧ y.book = x.book :=
    ⟨_, rfl, by split <;> rfl⟩
  rw [hy, ← hbook]
  clear hy hbook
  split
  · rfl
  · split
    · rfl
    · split
      · rfl
      · split
        · simp only [LoopSlot.handOver_book]
        · rfl
      · simp only [LoopSlot.blend_book]
        rfl
      · split
        · simp only [LoopSlot.handOver_book]
        · rfl
      · split
        · simp only [LoopSlot.handOver_book]
        · split
          · simp only [LoopSlot.blend_book]
          · rfl

theorem LoopSlot.notches_book (x : LoopSlot) (count : Nat) (w : Int) : (x.notches count w).1.book = x.book := by
  unfold LoopSlot.notches
  generalize List.range count = l
  induction l generalizing x w with
  | nil => rfl
  | cons n l ih => exact (ih _ _).trans rfl

theorem LoopSlot.form_book (x : LoopSlot) (w uff : Int) (limited : Bool) : (x.form w uff limited).1.book = x.book := rfl

/-! ### A compute -/

theorem State.modLoop_slot (s : State) (n : LoopIx) (f : LoopSlot → LoopSlot) : (s.modLoop n f).lpe.slots[n] = f s.lpe.slots[n] :=
  vmod_same ..

theorem State.requestSwap_book (s : State) (n : LoopIx) (band : Fin 8) (at_ : Option Angle) :
    (s.requestSwap n band at_).lpe.slots[n].book = s.lpe.slots[n].book := by
  rw [State.requestSwap, State.modLoop_slot, State.loadShadow, State.modLoop_slot]

theorem State.enterFallback_book (s : State) (n : LoopIx) : (s.enterFallback n).lpe.slots[n].book = s.lpe.slots[n].book := by
  rw [State.enterFallback, State.saturated_lpe, State.condLoop_lpe, State.modLoop_slot]

theorem book_ite {c : Prop} {_ : Decidable c} {s t : State} {n : LoopIx} {b : Int × Nat × Nat} (hs : s.lpe.slots[n].book = b)
    (ht : t.lpe.slots[n].book = b) : (if c then s else t).lpe.slots[n].book = b := by
  split <;> assumption

/-- A law's run leaves the account of its loop as it is. -/
theorem State.runLaw_book (s : State) (n : LoopIx) (smp : LoopSample) : (s.runLaw n smp).1.lpe.slots[n].book = s.lpe.slots[n].book := by
  unfold State.runLaw
  dsimp only
  split
  next h =>
    have hy : ((s.modLoop n fun _ => (vcmLaw s.eng[(⟨n.val, h⟩ : Eng)].srv s.lpe.slots[n] smp).1).modSrv ⟨n.val, h⟩ fun _ =>
        (vcmLaw s.eng[(⟨n.val, h⟩ : Eng)].srv s.lpe.slots[n] smp).2.1).lpe.slots[n].book = s.lpe.slots[n].book := by
      rw [State.modSrv_lpe, State.modLoop_slot, vcmLaw_book]
    exact book_ite ((State.requestSwap_book ..).trans hy) hy
  next =>
    split
    · refine book_ite ((State.requestSwap_book ..).trans ?_) ?_ <;> rw [State.modLoop_slot, maLaw_book]
    · split
      · rw [State.modLoop_slot, spindleLaw_book]
      · refine book_ite ((State.enterFallback_book ..).trans ?_) ?_ <;> rw [State.modLoop_slot, heatLaw_book, LoopSlot.sense_book]

/-- The lateness of an output depends on the angles and the module time alone. -/
theorem State.lateness_congr {s t : State} (n : LoopIx) (due : Nat) (hlayout : t.layout = s.layout) (hmtime : t.mtime = s.mtime)
    (hreel : ∀ a : Eng, t.eng[a].reel = s.eng[a].reel) : t.lateness n due = s.lateness n due := by
  have hengine : t.loopEngine n = s.loopEngine n := by
    have hof : t.engineOf = s.engineOf := funext fun g => by simp only [State.engineOf, State.localHead, hlayout]
    simp only [State.loopEngine, hof]
  simp only [State.lateness, hengine, State.angle, hreel, hmtime]

theorem State.loopDebt_slot (s : State) (n : LoopIx) (late period : Nat) : ∃ m e, (s.loopDebt n late period).lpe.slots[n] = {
    s.lpe.slots[n] with
    debt := min (s.lpe.slots[n].debt - s.lpe.slots[n].advance + late) (2 ^ 32 - 1), debtMax := m, debtEvt := e, advance := 0 } := by
  unfold State.loopDebt
  extract_lets x d fire s1
  have hlpe : (if fire = true then s1.condLoop n else s1).lpe = s1.lpe := by
    split
    · exact s1.condLoop_lpe n
    · rfl
  exact ⟨_, _, (congrArg (fun l : LoopArray => l.slots[n]) hlpe).trans (State.modLoop_slot ..)⟩

theorem State.applyOutput_slot (s : State) (n : LoopIx) (u : Int) :
    (s.applyOutput n u).lpe.slots[n] = { s.lpe.slots[n] with out := u, pendingOut := none } := by
  unfold State.applyOutput
  extract_lets s1
  have h : s1.lpe.slots[n] = { s.lpe.slots[n] with out := u, pendingOut := none } := State.modLoop_slot ..
  split
  · exact h
  · split
    · exact h
    · split
      · exact h
      · split
        · exact h
        · split <;> exact h

theorem State.loopDebt_pipes (s : State) (n : LoopIx) (late period : Nat) : (s.loopDebt n late period).lpe.pipes = s.lpe.pipes := by
  unfold State.loopDebt
  extract_lets x d fire s1
  split
  · rw [State.condLoop_lpe]
    rfl
  · rfl

theorem State.applyOutput_pipes (s : State) (n : LoopIx) (u : Int) : (s.applyOutput n u).lpe.pipes = s.lpe.pipes := by
  unfold State.applyOutput
  dsimp only
  split
  · rfl
  · split
    · rfl
    · split
      · rfl
      · split
        · rfl
        · split <;> rfl

/-- A late output is applied at once and counted (R304). -/
def State.lateOutput (s : State) (k : LoopIx) (u : Int) : State :=
  let c := s.lpe.slots[k].lateCnt
  ((s.modLoop k fun x => { x with lateCnt := inc 32 x.lateCnt }).applyOutput k u).saturated (reaches 32 c) 0x09
    (loopOrigin k).1 (loopOrigin k).2 (lpBase k + 0x28) (nw (c + 1))

theorem State.lateOutput_lpe (s : State) (k : LoopIx) (u : Int) : (s.lateOutput k u).lpe.pipes = s.lpe.pipes ∧
    ∃ c, (s.lateOutput k u).lpe.slots[k] = { s.lpe.slots[k] with pendingOut := none, out := u, lateCnt := c } := by
  have hlpe : (s.lateOutput k u).lpe = ((s.modLoop k fun x => { x with lateCnt := inc 32 x.lateCnt }).applyOutput k u).lpe :=
    State.saturated_lpe ..
  rw [hlpe]
  refine ⟨State.applyOutput_pipes .., inc 32 s.lpe.slots[k].lateCnt, (State.applyOutput_slot ..).trans ?_⟩
  rw [State.modLoop_slot]

/-- The state after a compute with its output u given: the slot as its law, notches and former left it. -/
def State.computed (s : State) (n : PipeIx) (k : LoopIx) (x : LoopSample) (rest : List LoopSample) (y : LoopSlot) (w o u : Int) : State :=
  let s := s.modLoop k fun _ => { y with
    lawW := w, notchW := o, latched := rest, pipe := none, doneAt := s.mtime, lastU := u, prevU := y.lastU }
  let s := s.modLpe fun l => { l with pipes := vset l.pipes n none }
  (s.loopDebt k (s.lateness k x.due) x.period).traceSlot k u

theorem execLoopComputeDone_eq {s s1 : State} {n : PipeIx} {k : LoopIx} {x : LoopSample} {l : List LoopSample} {w o u : Int} {lim : Bool}
    {y z : LoopSlot} (hpipe : s.lpe.pipes[n] = some k) (hlatched : s.lpe.slots[k].latched = x :: l)
    (hslow : s.lpe.slots[k].slow = true → s.lateness k x.due ≠ 0) (hlaw : s.runLaw k x = (s1, w, lim))
    (hnotch : s1.lpe.slots[k].notches (notchCount k) w = (y, o))
    (hform : (if y.lmode = .off then (y, y.out) else y.form o (s1.feedForward k x) lim) = (z, u)) :
    execLoopComputeDone n s = .next (
      if s.lpe.slots[k].lmode = .off ∧ z.lmode = .off then s1.computed n k x l z w o u
      else if ((s1.modLoop k fun _ => { z with
          lawW := w, notchW := o, latched := l, pipe := none, doneAt := s1.mtime, lastU := u, prevU := z.lastU }).modLpe
            fun a => { a with pipes := vset a.pipes n none }).lateness k x.due = 0 then
        (s1.computed n k x l z w o u).modLoop k fun x' => { x' with pendingOut := some (u, x.due) }
      else (s1.computed n k x l z w o u).lateOutput k u) := by
  have hnot : ¬(s.lpe.slots[k].slow && s.lateness k x.due == 0) = true := by
    simp only [Bool.and_eq_true, beq_iff_eq, not_and]
    exact hslow
  simp only [execLoopComputeDone, hpipe, hlatched, if_neg hnot, hlaw, hnotch, hform]
  rfl

/-- A loop whose compute has ended: the account it had, and what its law and its notches gave. -/
structure LoopSlot.Ended (z : LoopSlot) (at_ : MTime) (rest : List LoopSample) (prevU w o : Int) (debt : Nat) : Prop where
  pipe : z.pipe = none
  latched : z.latched = rest
  doneAt : z.doneAt = at_
  prevU : z.prevU = prevU
  lawW : z.lawW = w
  notchW : z.notchW = o
  debt : z.debt = debt

theorem State.computed_lpe (s : State) (n : PipeIx) (k : LoopIx) (x : LoopSample) (rest : List LoopSample) (y : LoopSlot) (w o u : Int) :
    (s.computed n k x rest y w o u).lpe.pipes[n] = none ∧ (s.computed n k x rest y w o u).lpe.slots[k].Ended s.mtime rest y.lastU w o
      (min (y.debt - y.advance + s.lateness k x.due) (2 ^ 32 - 1)) := by
  unfold State.computed
  extract_lets s1 s2
  have hlate : s2.lateness k x.due = s.lateness k x.due := State.lateness_congr k x.due rfl rfl fun _ => rfl
  have hslot : s2.lpe.slots[k] = { y with
      lawW := w, notchW := o, latched := rest, pipe := none, doneAt := s.mtime, lastU := u, prevU := y.lastU } := State.modLoop_slot ..
  have hpipe : s2.lpe.pipes[n] = none := vset_same ..
  clear_value s2
  rw [((s2.loopDebt k _ x.period).traceSlot_moves k u).lpe_eq rfl]
  obtain ⟨m, e, hdebt⟩ := s2.loopDebt_slot k (s2.lateness k x.due) x.period
  rw [hslot, hlate] at hdebt
  rw [hlate]
  refine ⟨(congrArg (·[n]) (State.loopDebt_pipes ..)).trans hpipe, ?_⟩
  rw [hdebt]
  exact ⟨rfl, rfl, rfl, rfl, rfl, rfl, rfl⟩

/-- An ended loop stays one when its output is given, held, or counted as late. -/
theorem LoopSlot.Ended.given {z : LoopSlot} {at_ : MTime} {rest : List LoopSample} {prevU w o : Int} {debt : Nat}
    (h : z.Ended at_ rest prevU w o debt) (p : Option (Int × Nat)) (out : Int) (c : Nat) :
    ({ z with pendingOut := p, out := out, lateCnt := c } : LoopSlot).Ended at_ rest prevU w o debt := by
  obtain ⟨h1, h2, h3, h4, h5, h6, h7⟩ := h
  exact ⟨h1, h2, h3, h4, h5, h6, h7⟩

/-- The state that the end of a compute leads to. -/
theorem execLoopComputeDone_effect {s : State} {n : PipeIx} {k : LoopIx} {x : LoopSample} {l : List LoopSample}
    (hpipe : s.lpe.pipes[n] = some k) (hlatched : s.lpe.slots[k].latched = x :: l)
    (hslow : s.lpe.slots[k].slow = true → s.lateness k x.due ≠ 0) : ∃ t, execLoopComputeDone n s = .next t ∧ t.lpe.pipes[n] = none ∧
      t.lpe.slots[k].Ended s.mtime l s.lpe.slots[k].lastU (s.runLaw k x).2.1
        ((s.runLaw k x).1.lpe.slots[k].notches (notchCount k) (s.runLaw k x).2.1).2
        (min (s.lpe.slots[k].debt - s.lpe.slots[k].advance + s.lateness k x.due) (2 ^ 32 - 1)) := by
  obtain ⟨s1, w, lim, hlaw⟩ : ∃ s1 w lim, s.runLaw k x = (s1, w, lim) := ⟨_, _, _, rfl⟩
  obtain ⟨y, o, hnotch⟩ : ∃ y o, s1.lpe.slots[k].notches (notchCount k) w = (y, o) := ⟨_, _, rfl⟩
  obtain ⟨z, u, hform⟩ : ∃ z u, (if y.lmode = .off then (y, y.out) else y.form o (s1.feedForward k x) lim) = (z, u) := ⟨_, _, rfl⟩
  have hmoves := s.runLaw_moves k x
  have hbook := s.runLaw_book k x
  rw [hlaw] at hmoves hbook
  have hy : y.book = s.lpe.slots[k].book := ((congrArg (fun r => LoopSlot.book r.1) hnotch).symm.trans (LoopSlot.notches_book ..)).trans hbook
  have hz : z.book = s.lpe.slots[k].book := by
    refine (congrArg (fun r : LoopSlot × Int => r.1.book) hform).symm.trans (Eq.trans ?_ hy)
    split <;> rfl
  simp only [LoopSlot.book, Prod.mk.injEq] at hz
  obtain ⟨hlast, hdebt, hadvance⟩ := hz
  have hlate : s1.lateness k x.due = s.lateness k x.due :=
    State.lateness_congr k x.due (hmoves.layout_eq rfl) (hmoves.mtime_eq rfl) (hmoves.reel_eq rfl)
  have hended := s1.computed_lpe n k x l z w o u
  rw [hlast, hdebt, hadvance, hlate, hmoves.mtime_eq rfl] at hended
  obtain ⟨hpipes, hslot⟩ := hended
  refine ⟨_, execLoopComputeDone_eq hpipe hlatched hslow hlaw hnotch hform, ?_⟩
  rw [hlaw, hnotch]
  split
  · exact ⟨hpipes, hslot⟩
  · split
    · refine ⟨hpipes, ?_⟩
      rw [State.modLoop_slot]
      exact hslot.given ..
    · obtain ⟨hlpe, c, hlateSlot⟩ := (s1.computed n k x l z w o u).lateOutput_lpe k u
      refine ⟨(congrArg (·[n]) hlpe).trans hpipes, ?_⟩
      rw [hlateSlot]
      exact hslot.given ..

/-! ### The start of a compute, and the release of an output -/

theorem execLoopComputeStart_of_ready {s : State} {n : PipeIx} {k : LoopIx} {x : LoopSample} {l : List LoopSample}
    (hfree : s.lpe.pipes[n] = none) (hnext : s.nextCompute = some k) (hlatched : s.lpe.slots[k].latched = x :: l)
    (hswap : s.lpe.slots[k].swapPend = false) (hbad : s.lpe.slots[k].bad = none) : execLoopComputeStart n s =
      .next (((s.modLoop k fun y => { y with slow := false }).modLoop k fun y =>
        { y with pipe := some n, advance := min y.debt (x.period / 4), startAt := s.mtime }).modLpe fun a =>
          { a with pipes := vset a.pipes n (some k) }) := by
  have hready (len : Nat) (smp : Option LoopSample) (angle : Angle) : s.lpe.slots[k].swapReady len smp angle = false := by
    rw [LoopSlot.swapReady, hswap, Bool.false_and, Bool.false_and, Bool.false_and]
  have herr : (s.modLoop k fun y => { y with slow := false }).tableError k = s.modLoop k fun y => { y with slow := false } := by
    have hslot : (s.modLoop k fun y => { y with slow := false }).lpe.slots[k].bad = none := by
      rw [State.modLoop_slot]
      exact hbad
    rw [State.tableError, hslot]
  simp only [execLoopComputeStart, hfree, hnext, hready, hlatched, Bool.false_eq_true, if_false, herr, Option.isSome_none]
  rfl

theorem State.loopEngine_vcmSlot (s : State) (a : Eng) : s.loopEngine (vcmSlot a) = some a := by
  rw [State.loopEngine, if_pos (show (vcmSlot a).val < 4 from a.isLt)]
  exact fin?_of_lt rfl

theorem execLoopOutputRelease_of_due {s : State} {n : LoopIx} {u : Int} {e : Nat} (hpend : s.lpe.slots[n].pendingOut = some (u, e))
    (hdue : (match s.loopEngine n with
      | some a => reached (s.angle a) e
      | none => decide (e ≤ s.mtime)) = true) : execLoopOutputRelease n s = .next (s.applyOutput n u) := by
  simp only [execLoopOutputRelease, hpend]
  exact congrArg Host.Outcome.next (if_pos hdue)

/-! ### The trace buffers -/

/-- A flag a channel, as the bits of a word. -/
theorem zipIdx_bits {α : Type} (v : Vector α 16) (p : α → Bool) (i : Fin 16) :
    (BitVec.ofNat 16 ((v.toList.zipIdx.map fun (c, i) => bb i (p c)).sum)).getLsbD i.val = p v[i] := by
  have hlist : (v.toList.zipIdx.map fun (c, i) => bb i (p c)) =
      (List.range 16).map fun j => if (if h : j < 16 then p v[j] else false) then 2 ^ j else 0 := by
    refine List.ext_getElem (by simp) fun j hj _ => ?_
    have hj' : j < 16 := by simpa using hj
    simp [bb, hj']
  rw [hlist, BitVec.getLsbD_ofNat, (sum_powers _ 16).2 i.val i.isLt]
  simp

/-- Settles O31. -/
theorem loopEngines : Obligations.LoopEngines := by
  refine ⟨fun s n k x l hfree hnext hlatched hswap hbad => ?_, fun s n k x l hpipe hlatched hslow => ?_,
    fun s a u e hpend hreached => ?_, fun s n u e hnone hpend hle => ?_, fun s h => ?_, fun s h hnew => ?_⟩
  · -- LOOP_COMPUTE_START
    refine ⟨_, execLoopComputeStart_of_ready hfree hnext hlatched hswap hbad, vset_same .., ?_, fun j hj => ?_, fun m hm => vset_other _ _ hm, rfl⟩
    · exact (State.modLoop_slot ..).trans (by rw [State.modLoop_slot])
    · exact (vmod_other _ _ hj).trans (vmod_other _ _ hj)
  · -- LOOP_COMPUTE_DONE
    obtain ⟨t, ht, hpipes, hended⟩ := execLoopComputeDone_effect hpipe hlatched hslow
    exact ⟨t, ht, hpipes, hended.pipe, hended.latched, hended.doneAt, hended.prevU, hended.lawW, hended.notchW, hended.debt⟩
  · -- LOOP_OUTPUT_RELEASE of an engine's VCM
    have hdue : execLoopOutputRelease (vcmSlot a) s = .next (s.applyOutput (vcmSlot a) u) :=
      execLoopOutputRelease_of_due hpend (by rw [s.loopEngine_vcmSlot]; exact hreached)
    have happly : s.applyOutput (vcmSlot a) u = (s.modLoop (vcmSlot a) fun x => { x with out := u, pendingOut := none }).modSrv a fun v =>
        { v with out := clampInt (-32768) 32767 (qshr u 15) } := by
      rw [State.applyOutput, dif_pos (show (vcmSlot a).val < 4 from a.isLt)]
      rfl
    rw [happly] at hdue
    refine ⟨_, hdue, ?_, ?_, ?_, fun b hb => vmod_other _ _ hb, rfl⟩
    · exact congrArg (fun e : Engine => e.srv.out) (vmod_same ..)
    · exact congrArg LoopSlot.out (State.modLoop_slot ..)
    · exact congrArg LoopSlot.pendingOut (State.modLoop_slot ..)
  · -- LOOP_OUTPUT_RELEASE by the clock
    exact ⟨_, execLoopOutputRelease_of_due hpend (by rw [hnone]; exact decide_eq_true hle), rfl⟩
  · -- TRACE_TIMEOUT
    exact ⟨_, congrArg Host.Outcome.next (if_pos h), rfl, rfl, rfl,
      zipIdx_bits s.trc.chans fun c => c.src.getLsbD 31 && !c.stopped, rfl⟩
  · -- TRACE_COPY_DONE
    exact ⟨_, congrArg Host.Outcome.next (if_pos ⟨h, hnew⟩), rfl, rfl⟩

end Sys2Proof.Machine
end

section
/-! SUPPORT. Fetching, credits, transfers, durable writes and completions (14_queues_ordering.md). -/

namespace Sys2Proof.Machine
open Sys2Proof
set_option Elab.async false

/-! ### Contexts -/

theorem alookup_oset {β : Type} (l : List (Nat × β)) (k : Nat) (v : β) : alookup (oset l k v) k = some v := by
  induction l with
  | nil => simp [oset, alookup]
  | cons p l ih =>
    obtain ⟨j, w⟩ := p
    rw [oset]
    split
    · simp [alookup]
    · split
      · simp [alookup]
      next hlt hne =>
        rw [alookup, List.find?_cons_of_neg (by simpa using Ne.symm hne)]
        exact ih

/-- A context changed in its list. -/
theorem alookup_map {β : Type} (l : List (Nat × β)) (k : Nat) (f : β → β) :
    alookup (l.map fun p => if p.1 = k then (p.1, f p.2) else p) k = (alookup l k).map f := by
  induction l with
  | nil => rfl
  | cons p l ih =>
    rw [List.map_cons]
    by_cases hp : p.1 = k
    · simp [alookup, hp]
    · rw [if_neg hp, alookup, alookup, List.find?_cons_of_neg (by simpa using hp), List.find?_cons_of_neg (by simpa using hp)]
      exact ih

theorem State.ctx_modCtx (s : State) (x : CtxIx) (f : Ctx → Ctx) : (s.modCtx x f).ctx x = (s.ctx x).map f :=
  alookup_map s.q.ctxs x.val f

/-- A change of the contexts one by one keeps a context that it leaves as it is. -/
theorem alookup_map_of_fixed {β : Type} (l : List (Nat × β)) (k : Nat) (c : β) (f : Nat × β → Nat × β) (hkey : ∀ p, (f p).1 = p.1)
    (hc : alookup l k = some c) (hfix : f (k, c) = (k, c)) : alookup (l.map f) k = some c := by
  induction l with
  | nil => nomatch hc
  | cons p l ih =>
    rw [List.map_cons]
    by_cases hp : p.1 = k
    · rw [alookup, List.find?_cons_of_pos (by simpa using hp)] at hc
      have hp' : p = (k, c) := Prod.ext hp (Option.some.inj hc)
      rw [alookup, List.find?_cons_of_pos (by rw [hkey, decide_eq_true_eq]; exact hp), hp', hfix]
      rfl
    · rw [alookup, List.find?_cons_of_neg (by simpa using hp)] at hc
      rw [alookup, List.find?_cons_of_neg (by rw [hkey]; simpa using hp)]
      exact ih hc

theorem State.feedReads_ctx {s : State} {x : CtxIx} {c : Ctx} (v : WriteView) (hc : s.ctx x = some c) (hw : c.writes = true) :
    (s.feedReads v).ctx x = some c := by
  refine alookup_map_of_fixed _ _ _ _ (fun p => ?_) hc (if_pos (by rw [hw, Bool.true_or]))
  split <;> rfl

/-! ### Buffered writes -/

/-- The queues but for the captures that recovery jobs hold. -/
def State.account (s : State) : Queues := { s.q with captures := 0 }

theorem Moves.account {m : List Part} {s t : State} (h : Moves m s t) (hm : m.contains .q = false) : Kept State.account s t := by
  rw [Kept, State.account, State.account, h.q_eq hm]

theorem State.modCaptures_account (s : State) (f : Queues → Nat) : Kept State.account s (s.modQ fun q => { q with captures := f q }) := rfl

theorem State.releaseJob_account (s : State) (a : Eng) (j : JobIx) : Kept State.account s (s.releaseJob a j) := by
  unfold State.releaseJob
  split
  · exact .refl
  · extract_lets s1 s2
    have h1 : Kept State.account s s1 :=
      .trans ((State.releaseJobEngines_moves ..).account rfl) ((State.dropRequest_moves ..).account rfl)
    have h2 : Kept State.account s1 s2 := s1.modCaptures_account _
    exact h1.trans (h2.trans ((State.modRec_moves ..).account rfl))

theorem State.stopJobs_account (s : State) (a : Eng) : Kept State.account s (s.stopJobs a) := by
  unfold State.stopJobs
  refine .fold _ _ _ fun s j => ?_
  split
  · exact .refl
  · exact .ite .refl (.trans ((State.unbias_moves ..).account rfl)
      (.trans (State.releaseJob_account ..) ((State.modJob_moves ..).account rfl)))

theorem State.stopTimeline_account (s : State) (a : Eng) : Kept State.account s (s.stopTimeline a) :=
  .trans ((State.enterIdle_moves ..).account rfl) (State.stopJobs_account ..)

theorem State.reportStandstill_account (s : State) : Kept State.account s s.reportStandstill := by
  unfold State.reportStandstill
  exact .fold _ _ _ fun s a => .ite (.trans (s.stopTimeline_account a) ((State.modReel_moves ..).account rfl)) .refl

theorem State.enterStopped_account (s : State) : Kept State.account s s.enterStopped :=
  .trans ((s.modSpn_moves _).account rfl) (.trans ((State.disableSlot_moves ..).account rfl) (State.reportStandstill_account _))

theorem State.allUnload_account (s : State) :
    Kept State.account s ((fins 4).foldl (fun s (a : Eng) => if s.enginePresent a then s.controlledUnload a else s) s) :=
  .fold _ _ _ fun s a => .ite ((s.controlledUnload_moves a).account rfl) .refl

theorem State.spindleStop_account (s : State) : Kept State.account s s.spindleStop := by
  unfold State.spindleStop
  extract_lets s1 mark
  have h1 : Kept State.account s s1 := s.allUnload_account
  have hmark : Kept State.account s mark := h1.trans ((State.modSpn_moves ..).account rfl)
  split
  · exact h1
  · exact h1.trans s1.enterStopped_account
  · exact hmark
  · exact hmark
  · exact h1.trans ((State.modSpn_moves ..).account rfl)
  · exact hmark
  all_goals exact hmark.trans ((mark.enterBrake_moves _).account rfl)

theorem State.shutdownUnload_account (s : State) : Kept State.account s s.shutdownUnload := by
  unfold State.shutdownUnload
  extract_lets s1
  exact .trans s.allUnload_account (.ite (.trans (State.spindleStop_account _) ((State.modSpn_moves ..).account rfl))
    ((State.modSpn_moves ..).account rfl))

theorem State.settleShutdown_account (s : State) (f : Fn) : Kept State.account s (s.settleShutdown f) := by
  unfold State.settleShutdown
  extract_lets x busy dirty s1
  have h1 : Kept State.account s s1 := (State.modFn_moves ..).account rfl
  exact .ite (.ite (h1.trans s1.shutdownUnload_account) h1) .refl

/-- The writes in the buffers of one state are among those of another, and the free credits are the same. -/
def State.WritesWithin (s t : State) : Prop := (∀ y ∈ t.q.buffered, y ∈ s.q.buffered) ∧ t.q.creditsFree = s.q.creditsFree

theorem State.WritesWithin.trans {s t u : State} (h1 : s.WritesWithin t) (h2 : t.WritesWithin u) : s.WritesWithin u :=
  ⟨fun y hy => h1.1 y (h2.1 y hy), h2.2.trans h1.2⟩

theorem Kept.writesWithin {s t : State} (h : Kept State.account s t) : s.WritesWithin t := by
  have hbuffered : t.q.buffered = s.q.buffered := (congrArg Queues.buffered h :)
  exact ⟨fun y hy => hbuffered ▸ hy, (congrArg Queues.creditsFree h :)⟩

theorem State.WritesWithin.foldl {β : Type} (f : State → β → State) (l : List β) (s : State) (h : ∀ (s : State) b, s.WritesWithin (f s b)) :
    s.WritesWithin (l.foldl f s) := by
  induction l generalizing s with
  | nil => exact Kept.refl.writesWithin
  | cons b l ih => exact (h s b).trans (ih _)

theorem State.settleFlushes_within (s : State) : s.WritesWithin s.settleFlushes := by
  unfold State.settleFlushes
  refine .foldl _ _ _ fun s p => ?_
  extract_lets c mine passed st
  split
  · split
    · exact ⟨fun y hy => List.mem_of_mem_filter hy, rfl⟩
    · exact Kept.refl.writesWithin
  · exact Kept.refl.writesWithin

/-- What settles writes takes none of the credits and puts nothing in the buffers. -/
theorem State.settleWrites_within (s : State) : s.WritesWithin s.settleWrites :=
  s.settleFlushes_within.trans <| (State.WritesWithin.foldl _ _ _ fun s f => (s.settleShutdown_account f).writesWithin).trans <|
    (((State.settleReset_moves _).account rfl).writesWithin).trans (((State.settleOpal_moves _).account rfl).writesWithin)

/-! ### Commands -/

theorem execWriteDurable_of_buffered {s : State} {x : CtxIx} {b : BufferedWrite} (hnone : s.ctx x = none)
    (hb : s.q.buffered.find? (fun b => b.ctx == x && b.nsid != 0 && 0 < b.blocks.length && s.viewSafe b.view) = some b)
    (hfault : b.fault = false) (hlost : b.lost = false) : ∃ u : State, execWriteDurable x s = .next u.settleWrites ∧
      (∀ y ∈ u.q.buffered, y.startNo ≠ b.startNo) ∧ u.q.creditsFree = s.q.creditsFree + b.credits := by
  unfold execWriteDurable
  rw [hnone, Option.filter_none]
  dsimp only
  rw [hb]
  dsimp only
  have hcredits : (s.unstage b.view).q.creditsFree = s.q.creditsFree := by
    unfold State.unstage
    rfl
  refine ⟨_, rfl, fun y hy => ?_, by rw [State.modQ_q, hcredits]⟩
  rw [State.modQ_q, List.mem_filterMap] at hy
  obtain ⟨z, -, hz⟩ := hy
  rw [hfault, hlost] at hz
  split at hz
  · nomatch hz
  · injection hz with hz
    subst hz
    assumption

theorem execCommandFetch_of_entry {s : State} {f : Fn} {sq : BitVec 16} {e : Sqe} {n : Nat} {w : Vector Nat 3} {q : SubQueue} {x : CtxIx}
    (hnext : s.nextFetch = some (f, sq.toNat, n, w)) (hq : s.host.fns[f].sqs.find? (fun q => q.id == sq.toNat) = some q)
    (hbad : e.badEntry = false) (hfree : s.freeCtx = some x) : execCommandFetch f sq e s =
      .next (((s.modFn f fun x => { x with
        lastSq := sq.toNat, weights := w
        sqs := x.sqs.map fun y => if y.id = sq.toNat then { y with head := if y.head + 1 < y.size then y.head + 1 else 0 } else y }).modQ
          fun q => { q with turn := some (f, sq.toNat, n), lastFn := f }).enterCtx x f q e) := by
  simp only [execCommandFetch, hnext, hq, hbad, and_self, if_true, Bool.false_eq_true, if_false]
  generalize hs : (State.modQ _ _ : State) = s'
  have hfree' : s'.freeCtx = some x := by
    rw [← hs]
    exact hfree
  rw [hfree']

/-- A fetched command in its context. -/
theorem State.enterCtx_effect (s : State) (x : CtxIx) (f : Fn) (q : SubQueue) (e : Sqe) :
    ((s.enterCtx x f q e).ctx x).map (fun c => (c.fn, c.sq, c.sqe, c.needCredits, c.started)) = some (f, q.id, e, e.credits, false) ∧
    (s.enterCtx x f q e).q.fetchNo = s.q.fetchNo + 1 ∧ (s.enterCtx x f q e).q.turn = s.q.turn ∧
    (s.enterCtx x f q e).q.lastFn = s.q.lastFn ∧ s.enterCtx x f q e = { s with q := (s.enterCtx x f q e).q } := by
  unfold State.enterCtx
  extract_lets ns cov known c c' since fast
  refine ⟨?_, rfl, rfl, rfl, rfl⟩
  have hc : (c'.fn, c'.sq, c'.sqe, c'.needCredits, c'.started) = (f, q.id, e, e.credits, false) := by
    unfold c'
    split <;> rfl
  rw [State.ctx, State.modQ_q, alookup_oset, Option.map_some]
  exact congrArg some hc

/-- A write's data in the module: its blocks are here. -/
def Ctx.arrived (c : Ctx) : Ctx := { c with blocks := c.blocks.map fun b => { b with here := true }, transferred := true }

theorem Ctx.arrived_writes (c : Ctx) : c.arrived.writes = c.writes := rfl

/-- The state after n bytes of a write's data have moved, its command not yet finished. -/
def State.writeArrived (s : State) (x : CtxIx) (c : Ctx) (n : Nat) : State :=
  (((s.modCtx x Ctx.arrived).countBytes c n).sumBolero { wh := n }).feedReads c.arrived.view

theorem State.writeArrived_ctx {s : State} {x : CtxIx} {c : Ctx} (n : Nat) (hc : s.ctx x = some c) (hw : c.writes = true) :
    (s.writeArrived x c n).ctx x = some c.arrived := by
  refine State.feedReads_ctx _ ?_ hw
  exact Eq.trans rfl ((s.ctx_modCtx x Ctx.arrived).trans (by rw [hc]; rfl))

theorem State.writeArrived_rest (s : State) (x : CtxIx) (c : Ctx) (n : Nat) : (s.writeArrived x c n).spn.sums.wh = s.spn.sums.wh + n ∧
    s.writeArrived x c n = { s with q := (s.writeArrived x c n).q, spn := (s.writeArrived x c n).spn } := by
  unfold State.writeArrived
  exact ⟨rfl, rfl⟩

theorem execHostTransferDone_of_write {s : State} {x : CtxIx} {c : Ctx} (hc : s.ctx x = some c) (hstarted : c.started = true)
    (hfin : c.finished = none) (hwrites : c.writes = true) (hhere : c.blocks.all (·.here) = false) (hgood : c.sqe.badData = false)
    (hfirst : s.durableFirst c = false) :
    execHostTransferDone x s = .next ((s.writeArrived x c (4096 * c.blocks.length)).modCtx x fun c => c.finish stOk) := by
  unfold execHostTransferDone State.writeArrived
  rw [hc]
  dsimp only
  generalize 4096 * c.blocks.length = n
  have hctx : (((s.modCtx x Ctx.arrived).countBytes c n).sumBolero { wh := n }).ctx x = some c.arrived :=
    (s.ctx_modCtx x Ctx.arrived).trans (by rw [hc]; rfl)
  rw [if_neg (by rw [hstarted, hfin]; exact Bool.false_ne_true), if_pos hwrites, if_neg (ne_true_of_eq_false hhere),
    if_neg (ne_true_of_eq_false hgood)]
  unfold Ctx.arrived at hctx
  rw [hctx]
  exact congrArg Host.Outcome.next (if_neg (ne_true_of_eq_false hfirst))

/-- Whether a block of a read goes to host memory in this transfer. -/
def BlockState.goes (b : BlockState) : Bool := b.here && !b.sent && b.failed.isNone

/-- A read some of whose blocks have gone to host memory. -/
def Ctx.moved (c : Ctx) : Ctx :=
  ({ c with blocks := c.blocks.map fun b => if b.goes then { b with sent := true } else b } : Ctx).settleRead

/-- The state after n bytes of a read's data have moved. -/
def State.readMoved (s : State) (x : CtxIx) (c : Ctx) (n m : Nat) : State :=
  (((s.modQ fun q => { q with staging := q.staging - c.staged }).countBytes c n).sumBolero { rh := m }).modCtx x Ctx.moved

theorem Ctx.settleRead_blocks (c : Ctx) : c.settleRead.blocks = c.blocks := by
  unfold Ctx.settleRead
  split <;> rfl

theorem State.readMoved_effect {s : State} {x : CtxIx} {c : Ctx} (n m : Nat) (hc : s.ctx x = some c) :
    ((s.readMoved x c n m).ctx x).map (·.blocks) = some (c.blocks.map fun b => if b.goes then { b with sent := true } else b) ∧
    (s.readMoved x c n m).q.staging = s.q.staging - c.staged ∧ (s.readMoved x c n m).spn.sums.rh = s.spn.sums.rh + m ∧
    s.readMoved x c n m = { s with q := (s.readMoved x c n m).q, spn := (s.readMoved x c n m).spn } := by
  have hrest : (((s.modQ fun q => { q with staging := q.staging - c.staged }).countBytes c n).sumBolero { rh := m }) =
      { s with
        q := (((s.modQ fun q => { q with staging := q.staging - c.staged }).countBytes c n).sumBolero { rh := m }).q
        spn := (((s.modQ fun q => { q with staging := q.staging - c.staged }).countBytes c n).sumBolero { rh := m }).spn } := rfl
  have hctx : (((s.modQ fun q => { q with staging := q.staging - c.staged }).countBytes c n).sumBolero { rh := m }).ctx x = some c := hc
  have hstaging : (((s.modQ fun q => { q with staging := q.staging - c.staged }).countBytes c n).sumBolero { rh := m }).q.staging =
      s.q.staging - c.staged := rfl
  have hsum : (((s.modQ fun q => { q with staging := q.staging - c.staged }).countBytes c n).sumBolero { rh := m }).spn.sums.rh =
      s.spn.sums.rh + m := rfl
  unfold State.readMoved
  generalize ((s.modQ fun q => { q with staging := q.staging - c.staged }).countBytes c n).sumBolero { rh := m } = u at hrest hctx hstaging hsum ⊢
  refine ⟨?_, hstaging, hsum, ?_⟩
  · rw [State.ctx_modCtx, hctx, Option.map_some, Option.map_some, Ctx.moved, Ctx.settleRead_blocks]
  · rw [State.modCtx, State.modQ, hrest]

theorem execHostTransferDone_of_read {s : State} {x : CtxIx} {c : Ctx} (hc : s.ctx x = some c) (hstarted : c.started = true)
    (hfin : c.finished = none) (hwrites : c.writes = false) (hgood : c.sqe.badData = false) : execHostTransferDone x s =
      .next (s.readMoved x c (4096 * (c.blocks.filter BlockState.goes).length)
        (if c.verify then 0 else 4096 * (c.blocks.filter BlockState.goes).length)) := by
  unfold execHostTransferDone
  rw [hc]
  dsimp only
  rw [if_neg (by rw [hstarted, hfin]; exact Bool.false_ne_true), if_neg (ne_true_of_eq_false hwrites),
    if_neg (ne_true_of_eq_false hgood)]
  rfl

theorem execCompletionPost_of_done {s : State} {x : CtxIx} {c : Ctx} {e : NvStatus} {q : SubQueue} {y : CompQueue} (hc : s.ctx x = some c)
    (hfin : c.finished = some e)
    (hopen : c.writes = false → c.media = true → ∀ b ∈ c.blocks, b.sent = true ∨ b.failed.isSome = true)
    (hearlier : (c.media && c.started && s.q.ctxs.any fun p =>
      p.2.media && p.2.fn == c.fn && p.2.sq == c.sq && decide (p.2.fetchNo < c.fetchNo)) = false)
    (hq : s.host.fns[c.fn].sqs.find? (fun q => q.id == c.sq) = some q)
    (hy : s.host.fns[c.fn].cqs.find? (fun y => y.id == q.cq) = some y) (hfull : y.full = false) :
    execCompletionPost x s = .next (s.postCtx x c e) := by
  have hopen' : (!c.writes && c.media && !c.blocks.all fun b => b.sent || b.failed.isSome) = false := by
    rw [Bool.and_eq_false_imp, Bool.and_eq_true, Bool.not_eq_true']
    rintro ⟨hw, hm⟩
    rw [Bool.not_eq_false', List.all_eq_true]
    exact fun b hb => Bool.or_eq_true_iff.mpr (hopen hw hm b hb)
  unfold execCompletionPost
  rw [hc]
  dsimp only
  rw [hfin]
  dsimp only
  rw [hopen', if_neg Bool.false_ne_true, hearlier, if_neg Bool.false_ne_true, hq, Option.bind_some, hy]
  exact congrArg Host.Outcome.next (if_neg (ne_true_of_eq_false hfull))

/-- Settles O45. -/
theorem queueEvents : Obligations.QueueEvents := by
  refine ⟨fun s f sq e n w q x hnext hq hbad hfree => ?_, fun s x c e hc he hwants hno hle => ?_,
    fun s x c hc hstarted hfin hwrites hhere hgood hfirst => ?_, fun s x c hc hstarted hfin hwrites hgood => ?_,
    fun s x c hc hstarted hfin hwrites hbad => ?_, fun s x b hnone hb hfault hlost => ?_,
    fun s x c e q y hc hfin hopen hearlier hq hy hfull => ?_⟩
  · -- COMMAND_FETCH
    have ht := execCommandFetch_of_entry hnext hq hbad hfree
    generalize hs : (State.modQ _ _ : State) = s' at ht
    refine ⟨_, ht, ?_⟩
    obtain ⟨hctx, hno, hturn, hlast, hrest⟩ := s'.enterCtx_effect x f q e
    generalize s'.enterCtx x f q e = t at hctx hno hturn hlast hrest
    have hhost : t.host = s'.host := (congrArg State.host hrest).trans rfl
    subst hs
    refine ⟨hctx, hno, hturn, hlast, ?_, fun g hg => ?_, ?_⟩
    · rw [hhost]
      exact congrArg FnState.sqs (vmod_same ..)
    · rw [hhost]
      exact vmod_other _ _ hg
    · rw [hrest]
      rfl
  · -- CREDIT_GRANT
    have hspare : ¬(c.fetchNo ≠ e.fetchNo) := fun h => h hno
    refine ⟨_, ?_, rfl⟩
    show execCreditGrant x s = _
    simp only [execCreditGrant, hc, he, hwants, hno, if_true, Nat.add_zero, hle]
  · -- HOST_TRANSFER_DONE of a write
    obtain ⟨hsum, hrest⟩ := s.writeArrived_rest x c (4096 * c.blocks.length)
    have hctx := State.writeArrived_ctx (4096 * c.blocks.length) hc hwrites
    refine ⟨_, execHostTransferDone_of_write hc hstarted hfin hwrites hhere hgood hfirst, ?_⟩
    generalize s.writeArrived x c (4096 * c.blocks.length) = t at hsum hrest hctx ⊢
    refine ⟨?_, hsum, ?_⟩
    · rw [State.ctx_modCtx, hctx]
      simp only [Option.map_some, Ctx.finish, Ctx.arrived, hfin, Option.getD_none]
    · rw [State.modCtx, State.modQ, hrest]
  · -- HOST_TRANSFER_DONE of a read
    exact ⟨_, execHostTransferDone_of_read hc hstarted hfin hwrites hgood, State.readMoved_effect _ _ hc⟩
  · -- HOST_TRANSFER_DONE that failed
    refine ⟨_, ?_, rfl⟩
    show execHostTransferDone x s = _
    simp [execHostTransferDone, hc, hstarted, hfin, hwrites, hbad]
  · -- WRITE_DURABLE
    obtain ⟨u, hu, hnot, hcredits⟩ := execWriteDurable_of_buffered hnone hb hfault hlost
    obtain ⟨hin, hfree⟩ := u.settleWrites_within
    exact ⟨_, hu, fun y hy => hnot y (hin y hy), (hfree.trans hcredits).ge⟩
  · -- COMPLETION_POST
    exact ⟨_, execCompletionPost_of_done hc hfin hopen hearlier hq hy hfull, rfl⟩

end Sys2Proof.Machine
end

section
/-! SUPPORT. Register accesses, snapshots, lockstep mismatches and watchdogs (01_architecture.md). -/

namespace Sys2Proof.Machine
open Sys2Proof
set_option Elab.async false

/-! ### Violations -/

/-- A partner's violation changes none of the functions. -/
theorem State.violated_fns (s : State) (v : Violation) (f level index reg : Nat) (value : Word) (words : List Word) :
    (s.violated v f level index reg value words).host.fns = s.host.fns := by
  unfold State.violated
  extract_lets same
  split
  · rfl
  · rw [State.violation_host]
    rfl

theorem State.fnViolated_fns (s : State) (v : Violation) (f : Fn) (cell : Nat) (full : Bool) (words : List Word) :
    (s.fnViolated v f cell full words).host.fns = s.host.fns := by
  rw [State.fnViolated, State.violated_fns, State.saturated_host]

/-- A move within the host link and an event. -/
theorem Moves.afterEvent_host {s t : State} (h : Moves [.trc, .host, .evr] s t) : t = ({ s with host := t.host } : State).afterEvent t :=
  h.eq_of_parts rfl fun x => by cases x <;> first | rfl | exact fun _ => rfl

/-! ### Lockstep -/

theorem Moves.core {m : List Part} {s t : State} (h : Moves m s t) (hm : m.contains .core = false) (a : Eng) :
    Kept (fun s => s.eng[a].core) s t := h.core_eq hm a

/-- An engine that fails is a failed one (R26). -/
theorem State.engineFail_failed (s : State) (a : Eng) : (s.engineFail a).eng[a].core.failed = true := by
  unfold State.engineFail
  split
  · assumption
  · extract_lets s1 s2 s3 s4 s5 s6 s7 s8 s9 s10
    have h2 : s2.eng[a].core.failed = true := congrArg (fun e : Engine => e.core.failed) (vmod_same ..)
    have h3 : Kept (fun s => s.eng[a].core) s2 s3 := (State.modSeq_moves ..).core rfl a
    have h4 : Kept (fun s => s.eng[a].core) s3 s4 := (State.modAct_moves ..).core rfl a
    have h5 : Kept (fun s => s.eng[a].core) s4 s5 := (State.closeJobs_moves ..).core rfl a
    have h6 : Kept (fun s => s.eng[a].core) s5 s6 := (State.applyZoneRule_moves ..).core rfl a
    have h7 : Kept (fun s => s.eng[a].core) s6 s7 := .trans ((State.condAct_moves ..).core rfl a) ((State.resynch_moves ..).core rfl a)
    have h8 : Kept (fun s => s.eng[a].core) s7 s8 := (State.replyWaiting_moves ..).core rfl a
    have h9 : Kept (fun s => s.eng[a].core) s8 s9 := (State.modAct_moves ..).core rfl a
    have h10 : Kept (fun s => s.eng[a].core) s9 s10 := (State.replyWaiting_moves ..).core rfl a
    have hend : (s10.vendorEvent (s10.fnsOnEngine a) 0x03 4 a.val 0 0).patchApplied.eng[a].core = s2.eng[a].core :=
      h3.trans <| h4.trans <| h5.trans <| h6.trans <| h7.trans <| h8.trans <| h9.trans <| h10.trans <|
        .trans ((State.vendorEvent_moves ..).core rfl a) ((State.patchApplied_moves _).core rfl a)
    rw [hend]
    exact h2

/-- The mismatches of an engine that the next one counts with (R26). -/
def State.recentMismatches (s : State) (a : Eng) : List Nat := s.eng[a].core.mismatches.filter fun t => decide (s.rst.poh < t + 1024)

/-- An engine's core after a lockstep mismatch: one that fails, where it is the third in 1024 hours. -/
theorem State.lockstep_core (s : State) (a : Eng) : ∃ u : State,
    u.eng[a].core = { s.eng[a].core with mismatches := s.rst.poh :: s.recentMismatches a } ∧
    s.lockstep a = if 2 ≤ (s.recentMismatches a).length then u.engineFail a else u := by
  unfold State.lockstep
  extract_lets _ s1 s2
  have hmoves : Moves _ s s1 := s.forceWritesOff_moves a _ _ _
  have hcore : s2.eng[a].core = { s.eng[a].core with mismatches := s.rst.poh :: s.recentMismatches a } := by
    refine (congrArg Engine.core (vmod_same ..)).trans ?_
    dsimp only
    rw [hmoves.core_eq rfl a, hmoves.rst_eq rfl]
    rfl
  refine ⟨s2, hcore, ?_⟩
  rw [hcore, List.length_cons]
  exact if_congr (by omega) rfl rfl

/-! ### Register accesses -/

theorem engBase_toNat (a : Eng) : (BitVec.ofNat 24 (engBase a.val + 0x104)).toNat = engBase a.val + 0x104 := by
  rw [BitVec.toNat_ofNat, engBase]
  omega

/-- A core's write of the repeat of comparator 0. -/
theorem State.coreWrite_repeat {s : State} {a : Eng} (v : Word) (hpres : s.enginePresent a = true) :
    s.coreWrite a (engBase a.val + 0x104) v = s.modCmp a 0 fun x => { x with repeat_ := BitVec.ofNat 16 (fld v 15 0) } := by
  have hoff : engBase a.val + 0x104 - engBase a.val = 0x104 := Nat.add_sub_cancel_left ..
  have hbase : engBase a.val = 0x100000 + a.val * 0x100000 := rfl
  have hvalid : ¬(!true || decide (engBase a.val + 0x104 < engBase a.val) || decide (0x100000 ≤ 0x104) ||
      decide ((engBase a.val + 0x104) % 4 ≠ 0)) = true := by
    simp only [Bool.or_eq_true, decide_eq_true_eq, Bool.not_true, Bool.false_eq_true, false_or]
    omega
  rw [State.coreWrite, hoff, hpres, if_neg hvalid, if_pos (by decide)]
  rfl

theorem execRegisterWrite_of_rw {s : State} {f : Fn} {addr : BitVec 24} {v : Word} {r : Reg} (hpres : s.host.fns[f].present = true)
    (hreg : findReg s addr.toNat = some r) (hkind : r.kind = .rw) : execRegisterWrite (.host f) addr v s =
      .next ((s.modFn f fun x => { x with roWrCnt := satAdd 16 x.roWrCnt 1 }).fnViolated .roWr f 3 false [nw addr.toNat, v, 0, 0]) := by
  simp only [execRegisterWrite, hpres, hreg, hkind]
  simp

/-- Settles O22. -/
theorem registersAndCores : Obligations.RegistersAndCores := by
  refine ⟨fun s a hpres hnone => ?_, fun s a m1 m2 hpres htwo h1 h2 => ?_, fun s c => ?_, fun s f addr v r hpres hreg hkind => ?_,
    fun s a v hpres => ?_, fun s f acc hpres haddr hread => ?_, fun s f acc r hpres haddr hone hfull hread hreg => ?_,
    fun s addr r hreg hkind => ?_⟩
  · -- LOCKSTEP_MISMATCH, the first
    obtain ⟨u, hcore, hlock⟩ := s.lockstep_core a
    have hrecent : s.recentMismatches a = [] := by rw [State.recentMismatches, hnone, List.filter_nil]
    rw [hrecent] at hcore hlock
    rw [if_neg (by decide)] at hlock
    exact ⟨_, congrArg Host.Outcome.next ((if_pos hpres).trans hlock), hcore⟩
  · -- LOCKSTEP_MISMATCH, the third in 1024 hours
    obtain ⟨u, -, hlock⟩ := s.lockstep_core a
    have hrecent : s.recentMismatches a = [m1, m2] := by
      rw [State.recentMismatches, htwo, List.filter_cons_of_pos (by simpa using h1), List.filter_cons_of_pos (by simpa using h2), List.filter_nil]
    rw [hrecent, if_pos (show 2 ≤ [m1, m2].length from Nat.le_refl 2)] at hlock
    exact ⟨_, congrArg Host.Outcome.next ((if_pos hpres).trans hlock), u.engineFail_failed a⟩
  · -- MGMT_WATCHDOG_EXPIRY
    exact ⟨_, rfl, rfl, ((s.condMod_moves 5 0).widen (by decide)).afterEvent⟩
  · -- REGISTER_WRITE by a host
    have hmoves := ((s.modFn_moves f fun x => { x with roWrCnt := satAdd 16 x.roWrCnt 1 }).widen (n := [.trc, .host, .evr]) (by decide)).trans
      (State.fnViolated_moves _ .roWr f 3 false [nw addr.toNat, v, 0, 0])
    refine ⟨_, execRegisterWrite_of_rw hpres hreg hkind, ?_, hmoves.afterEvent_host⟩
    rw [State.fnViolated_fns]
    exact congrArg FnState.roWrCnt (vmod_same ..)
  · -- REGISTER_WRITE by a core
    refine ⟨s.coreWrite a (engBase a.val + 0x104) v, ?_, ?_⟩
    · show Host.Outcome.next (s.coreWrite a _ v) = _
      rw [engBase_toNat]
    · rw [State.coreWrite_repeat v hpres]
      have hreel : (s.modCmp a 0 fun x => { x with repeat_ := BitVec.ofNat 16 (fld v 15 0) }).eng[a].reel.cmp =
          vmod s.eng[a].reel.cmp 0 fun x => { x with repeat_ := BitVec.ofNat 16 (fld v 15 0) } :=
        (congrArg (fun e : Engine => e.reel.cmp) (vmod_same ..)).trans rfl
      refine ⟨?_, rfl⟩
      rw [hreel, vmod_same]
      apply BitVec.eq_of_toNat_eq
      simp [fld, BitVec.toNat_setWidth]
  · -- INVALID_REGISTER_ACCESS
    have hvalid : (acc.addr.toNat % 4 == 0 && acc.words == 1 && acc.full && (findReg s acc.addr.toNat).isSome) = false := by
      rw [beq_eq_false_iff_ne.mpr haddr, Bool.false_and, Bool.false_and, Bool.false_and]
    refine ⟨(s.unassigned f acc.addr.toNat acc.words acc.write).readWords f (List.replicate acc.words 0), ?_, ?_, ?_⟩
    · show execInvalidRegisterAccess f acc s = _
      simp only [execInvalidRegisterAccess, hpres, hvalid, hread, Bool.not_true, Bool.false_eq_true, if_false]
    · rw [State.readWords, State.modOut_host, State.unassigned, State.fnViolated_fns]
      exact congrArg FnState.unasgCnt (vmod_same ..)
    · rw [State.readWords, State.modOut_out, State.unassigned, (State.fnViolated_moves ..).out_eq rfl]
      rfl
  · -- INVALID_REGISTER_ACCESS that is a valid read
    refine ⟨s.readWords f [s.regRead r], ?_, rfl, rfl⟩
    show execInvalidRegisterAccess f acc s = _
    simp only [execInvalidRegisterAccess, hpres, haddr, hone, hfull, hread, hreg, Bool.not_true, Bool.false_eq_true, if_false,
      beq_self_eq_true, Bool.and_self, Option.isSome_some, if_true]
  · -- SNAPSHOT_WRITE
    refine ⟨_, ?_, rfl⟩
    show execSnapshotWrite addr s = _
    simp only [execSnapshotWrite, hreg, hkind, if_true]
    rfl

end Sys2Proof.Machine
end

section
/-! SUPPORT. The NVMe management interface (13_host_link_nvme.md, R465). -/

namespace Sys2Proof.Machine
open Sys2Proof
set_option Elab.async false

/-- The management interface answers: the rail stands, and a request in band finds its function ready. -/
theorem State.mi_of_open {s : State} {m : MiReq} (body : State → State × Nat × List Word) (hrail : s.rst.rail12 = true)
    (hband : m.inBand = false ∨ s.host.fns[(0 : Fn)].present = true ∧ s.host.fns[(0 : Fn)].en = true ∧ s.host.fns[(0 : Fn)].rdy = true) :
    s.mi m body = .next ((if s.host.fns[m.ctlr].present then body s else (s, 0x04, [])).1.modOut fun o =>
      { o with mi := (m.mtag, (if s.host.fns[m.ctlr].present then body s else (s, 0x04, [])).2.1,
          if (if s.host.fns[m.ctlr].present then body s else (s, 0x04, [])).2.1 = 0 then
            (if s.host.fns[m.ctlr].present then body s else (s, 0x04, [])).2.2 else []) :: o.mi }) := by
  have hopen : ¬(!s.rst.rail12 || (m.inBand && !(s.host.fns[(0 : Fn)].present && s.host.fns[(0 : Fn)].en && s.host.fns[(0 : Fn)].rdy))) =
      true := by
    rcases hband with h | ⟨h1, h2, h3⟩
    · rw [hrail, h]
      exact Bool.false_ne_true
    · rw [hrail, h1, h2, h3]
      simp
  rw [State.mi]
  exact if_neg hopen

section
variable {s u : State} {m : MiReq} {body : State → State × Nat × List Word} {words : List Word} {P : State → Prop}
  (hrail : s.rst.rail12 = true)
  (hband : m.inBand = false ∨ s.host.fns[(0 : Fn)].present = true ∧ s.host.fns[(0 : Fn)].en = true ∧ s.host.fns[(0 : Fn)].rdy = true)
include hrail hband

/-- A request to a controller that is present, and that succeeds. -/
theorem completes_mi (hpres : s.host.fns[m.ctlr].present = true) (hbody : body s = (u, 0, words))
    (hP : P (u.modOut fun o => { o with mi := (m.mtag, 0, words) :: o.mi })) : Completes (s.mi m body) P := by
  rw [State.mi_of_open body hrail hband, if_pos hpres, hbody]
  exact ⟨_, rfl, hP⟩

/-- A request refused as it stands. -/
theorem completes_mi_refused (hbody : body s = (s, 0x04, [])) (hP : P (s.modOut fun o => { o with mi := (m.mtag, 4, []) :: o.mi })) :
    Completes (s.mi m body) P := by
  rw [State.mi_of_open body hrail hband, hbody, ite_self]
  exact ⟨_, rfl, hP⟩

end

theorem State.vpdByte_oset_self (s : State) (off : Nat) (b : Byte) :
    (s.modNor fun n => { n with vpd := oset n.vpd off b }).vpdByte off = b.toNat := by
  rw [State.vpdByte, State.modNor_nor, alookup_oset]
  rfl

theorem State.vpdByte_oset_other (s : State) {off i : Nat} (b : Byte) (h : i ≠ off) :
    (s.modNor fun n => { n with vpd := oset n.vpd off b }).vpdByte i = s.vpdByte i := by
  rw [State.vpdByte, State.modNor_nor, alookup_oset_other _ _ _ _ h, State.vpdByte]

/-- Settles O53. -/
theorem managementInterface : Obligations.ManagementInterface := by
  refine ⟨fun s m hrail hband hpres => ?_, fun s m d hrail hband hd => ?_, fun s m d hrail => ?_, fun s m clear hrail hband hpres => ?_,
    fun s m clear hrail hband hpres => ?_, fun s m v hrail hband hpres hv => ?_, fun s m v hrail hband hpres => ?_,
    fun s m id hrail hband hpres hid => ?_, fun s m off len hrail hband hpres hlen => ?_, fun s m off b hrail hband hpres hoff => ?_⟩
  · -- READ_NVME_MI_DATA_STRUCTURE: the controllers
    show Completes (execReadNvmeMiDataStructure m 2 s) _
    unfold execReadNvmeMiDataStructure
    refine completes_mi hrail hband hpres rfl ?_
    rw [List.length_map]
    rfl
  · -- READ_NVME_MI_DATA_STRUCTURE of a reserved type
    show Completes (execReadNvmeMiDataStructure m d s) _
    unfold execReadNvmeMiDataStructure
    refine completes_mi_refused hrail hband ?_ rfl
    split
    all_goals first | rfl | omega
  · -- READ_NVME_MI_DATA_STRUCTURE without the rail
    show Completes (execReadNvmeMiDataStructure m d s) _
    unfold execReadNvmeMiDataStructure
    exact ⟨s, if_pos (by rw [hrail]; rfl), rfl⟩
  · -- NVM_SUBSYSTEM_HEALTH_STATUS_POLL
    show Completes (execNvmSubsystemHealthStatusPoll m clear s) _
    unfold execNvmSubsystemHealthStatusPoll
    refine completes_mi hrail hband hpres rfl ?_
    cases clear <;> exact ⟨rfl, rfl, rfl⟩
  · -- CONTROLLER_HEALTH_STATUS_POLL
    show Completes (execControllerHealthStatusPoll m clear s) _
    unfold execControllerHealthStatusPoll
    refine completes_mi hrail hband hpres rfl ?_
    cases clear <;> exact ⟨rfl, rfl, rfl⟩
  · -- CONFIGURATION_SET of the SMBus frequency
    show Completes (execConfigurationSet m 1 v s) _
    unfold execConfigurationSet
    have hnot : ¬(v = 0 ∨ 3 < v.toNat) := by
      rintro (rfl | h)
      · exact absurd hv.1 (by decide)
      · omega
    exact completes_mi hrail hband hpres (if_neg hnot) ⟨rfl, rfl⟩
  · -- CONFIGURATION_SET of the health flags
    show Completes (execConfigurationSet m 2 v s) _
    unfold execConfigurationSet
    exact completes_mi hrail hband hpres rfl ⟨rfl, rfl⟩
  · -- CONFIGURATION_GET
    show Completes (execConfigurationGet m id s) _
    unfold execConfigurationGet
    rcases hid with rfl | rfl
    · exact completes_mi hrail hband hpres rfl rfl
    · exact completes_mi hrail hband hpres rfl rfl
  · -- VPD_READ
    show Completes (execVpdRead m off len s) _
    unfold execVpdRead
    exact completes_mi hrail hband hpres (if_neg (by omega)) rfl
  · -- VPD_WRITE
    show Completes (execVpdWrite m off [b] s) _
    unfold execVpdWrite
    exact completes_mi hrail hband hpres (if_neg (show ¬256 < off + 1 by omega))
      ⟨s.vpdByte_oset_self off b, fun i hi => s.vpdByte_oset_other b hi, rfl⟩

end Sys2Proof.Machine
end

section
/-! SUPPORT. The spindle in operation: samples, the reference, the rail and the chopper (10_spindle.md). -/

namespace Sys2Proof.Machine
open Sys2Proof
set_option Elab.async false

/-! ### The rail and the chopper -/

theorem spn_ite {c : Prop} {_ : Decidable c} {s t : State} (h : t.spn = s.spn) : (if c then t else s).spn = s.spn := by
  split
  · exact h
  · rfl

/-- The spindle's registers after the rail is sampled, its current sense apart. -/
theorem State.setRail_spn (s : State) (mv : Nat) : ∃ i, (s.setRail mv).spn = { ({ s.spn with
      vbus := mv
      ov := decide (14000 ≤ mv) || (s.spn.ov && decide (13600 ≤ mv))
      ovCnt := if decide (14000 ≤ mv) && !s.spn.ov then inc 16 s.spn.ovCnt else s.spn.ovCnt
      brkStop := decide (14400 ≤ mv) || (s.spn.brkStop && decide (13200 ≤ mv))
      ovStopCnt := if decide (14400 ≤ mv) && !s.spn.brkStop then inc 16 s.spn.ovStopCnt else s.spn.ovStopCnt } : Spindle).chopper with
      chopI := i } := by
  unfold State.setRail
  generalize decide (14000 ≤ mv) = above
  generalize decide (14400 ≤ mv) = stop
  generalize decide (13600 ≤ mv) = still
  generalize decide (13200 ≤ mv) = high
  dsimp only
  rw [spn_ite (State.saturated_spn ..), spn_ite ((State.saturated_spn ..).trans (State.condSpn_spn _)), State.modSpn_spn]
  exact ⟨_, rfl⟩

theorem execChopperBucketThreshold_of_full {s : State} (h : s.spn.chopHot = false) : ∃ spn reg value, spn = ({ s.spn with
      bucket := 200, chopHot := true, chopHotCnt := inc 16 s.spn.chopHotCnt } : Spindle).chopper ∧
      execChopperBucketThreshold 200 s =
        .next (({ s with spn := spn } : State).saturated (reaches 16 s.spn.chopHotCnt) 0x0A 5 0 reg value) := by
  refine ⟨_, 0x2005C, mkw [bf 31 16 s.spn.chopFaultCnt, bf 15 0 (inc 16 s.spn.chopHotCnt)], rfl, ?_⟩
  simp only [execChopperBucketThreshold, h, Bool.not_false, Bool.and_true]
  rfl

theorem execChopperBucketThreshold_of_low (s : State) : execChopperBucketThreshold 100 s =
    .next (s.modSpn fun p => ({ p with bucket := 100, chopHot := false } : Spindle).chopper) := by
  have hhot : (decide (200 ≤ 100) || (s.spn.chopHot && decide (100 < 100))) = false := by simp
  simp only [execChopperBucketThreshold, hhot, Bool.false_and, Bool.false_eq_true, if_false]
  rfl

/-- A move within the spindle and an event. -/
theorem Moves.afterEvent_spn {s t : State} {spn : Spindle} (h : Moves [.trc, .evr] ({ s with spn := spn } : State) t) :
    t.spn = spn ∧ t = ({ s with spn := t.spn } : State).afterEvent t := by
  have hspn : t.spn = spn := h.spn_eq rfl
  exact ⟨hspn, by rw [hspn]; exact h.afterEvent⟩

/-! ### Samples and the reference -/

theorem execNrefUpdate_of_waiting {s : State} (hrun : s.spn.state = .run) (hreel : s.eng[s.refEngine].reel.state ≠ .stopped)
    (hstop : s.spn.stopping = false) (hswap : s.spn.swapWait = true) : ∃ spn, execNrefUpdate s = .next { s with spn := spn } ∧
      spn.nRef = s.nextRef.1 / 2 ^ 32 ∧ spn.nRefFrac = s.nextRef.1 % 2 ^ 32 ∧ spn.limPwr = s.nextRef.2 ∧ spn.band = s.spn.band := by
  unfold execNrefUpdate
  rw [if_neg (by rw [hrun]; exact not_or.mpr ⟨fun h => h rfl, hreel⟩)]
  obtain ⟨r, refused⟩ := s.nextRef
  dsimp -zeta only
  extract_lets s1 s2 s3
  have h1 : s1.spn.stopping = false := hstop
  have h2 : s2 = s1 := if_neg (by rw [show s1.spn.swapWait = true from hswap]; simp)
  have h3 : ¬(s3.spn.stopping = true ∧ s3.spn.refUnits = 0) := by
    rw [show s3.spn.stopping = s2.spn.stopping from rfl, h2, h1]
    simp
  rw [if_neg h3]
  unfold s3
  rw [h2]
  exact ⟨_, rfl, rfl, rfl, rfl, rfl⟩

theorem State.speedInc_eng (s : State) : ∃ eng, s.speedInc = { s with eng := eng } := by
  unfold State.speedInc
  generalize fins 4 = l
  induction l generalizing s with
  | nil => exact ⟨s.eng, rfl⟩
  | cons a l ih =>
    rw [List.foldl_cons]
    obtain ⟨eng, heng⟩ := ih (if (s.eng[a].reel.periods.isEmpty && s.eng[a].reel.state != .stopped) = true then
      s.modReel a fun r => { r with fracInc := s.newInc a } else s)
    rw [heng]
    refine ⟨eng, ?_⟩
    split <;> rfl

/-- A sample latched for a loop that is no VCM's touches the loops alone. -/
theorem State.latch_of_high (s : State) {n : LoopIx} (hn : 4 ≤ n.val) (x : Nat) (v : Int) (lost hand : Bool) :
    ∃ lpe, s.latch n x v lost hand = { s with lpe := lpe } := by
  unfold State.latch
  split
  · dsimp only
    rw [if_neg (by simpa using hn)]
    exact ⟨_, rfl⟩
  · exact ⟨s.lpe, rfl⟩

theorem execSpindleSample_of_turn {s : State} (hrun : s.spn.state = .run) (hcount : 6 ≤ s.spn.commCount) (hstop : s.spn.brkStop = false)
    (hok : 4 * s.spn.polePairs ≤ (s.spn.cross.filterMap id).length) : ∃ (eng : Vector Engine 4) (spn : Spindle) (lpe : LoopArray),
      execSpindleSample s = .next { s with eng := eng, spn := spn, lpe := lpe } ∧
      spn.speed = s.spn.speedOf (s.spn.cross.filterMap id).length (s.spn.cross.filterMap id).sum ∧ spn.commCount = 0 ∧
      spn.nRef = s.spn.nRef ∧
      spn.lastSpeeds = (s.spn.lastSpeeds.2, s.spn.speedOf (s.spn.cross.filterMap id).length (s.spn.cross.filterMap id).sum) ∧
      spn.lastSampleAt = s.mtime ∧
      spn.settleRun = (if within (s.spn.speedOf (s.spn.cross.filterMap id).length (s.spn.cross.filterMap id).sum) s.spn.nRef then
        s.spn.settleRun + 1 else 0) := by
  unfold execSpindleSample
  rw [if_pos ⟨.inl hrun, hcount⟩]
  extract_lets ok lost n s0 s1 s2 s3
  have hlost : lost = false := decide_eq_false (Nat.not_lt.mpr hok)
  have h2 : s2 = s1.speedInc := if_neg (ne_true_of_eq_false hlost)
  obtain ⟨eng, heng⟩ := s1.speedInc_eng
  have h1 : s1.spn = { s.spn with
      commCount := 0, speed := n, lastSpeeds := (s.spn.lastSpeeds.2, n), lastInterval := s.mtime - s.spn.lastSampleAt
      lastSampleAt := s.mtime, settleRun := if within n s.spn.nRef then s.spn.settleRun + 1 else 0
      tgtRun := if within n (16 * s.spn.set.tgt) then s.spn.tgtRun + 1 else 0 } := by
    simp only [s1, s0, State.modSpn_spn, hstop, Bool.false_eq_true, false_and, if_false]
    rfl
  obtain ⟨lpe, hlatch⟩ := s3.latch_of_high (n := spnSlot) (by decide) s3.mtime s3.spn.speed lost false
  have h3 : s3 = { s with eng := eng, spn := s1.spn, lpe := s3.lpe } := by
    unfold s3
    rw [h2, heng]
    rfl
  refine ⟨eng, s1.spn, lpe, ?_, ?_⟩
  · rw [hlatch, h3]
  · rw [h1]
    exact ⟨rfl, rfl, rfl, rfl, rfl, rfl⟩

/-- Settles O34. -/
theorem spindleRunning : Obligations.SpindleRunning := by
  refine ⟨fun s hrun hcount hstop hok => ?_, fun s hrun hreel hstop hswap => ?_, fun s hrun => ⟨_, congrArg Host.Outcome.next (if_pos (.inl hrun)), rfl⟩,
    fun s mv hle => ?_, fun s h => ?_, fun s => ?_, fun s ma hfault hbad => ?_, fun s mv hle => ?_⟩
  · -- SPINDLE_SAMPLE
    obtain ⟨eng, spn, lpe, ht, hspeed, hcomm, href, hlast, hat, hsettle⟩ := execSpindleSample_of_turn hrun hcount hstop hok
    exact ⟨_, ht, ⟨hspeed, hcomm, href, hlast, hat, hsettle⟩, rfl⟩
  · -- NREF_UPDATE while a swap waits
    obtain ⟨spn, ht, href, hfrac, hlim, hband⟩ := execNrefUpdate_of_waiting hrun hreel hstop hswap
    refine ⟨_, ht, ?_, hlim, hband, rfl⟩
    dsimp only
    rw [href, hfrac]
    exact Nat.div_add_mod' ..
  · -- CHOPPER_SWITCH
    obtain ⟨i, hspn⟩ := s.setRail_spn mv
    refine ⟨_, if_neg (by omega), ?_, ?_⟩
    · rw [hspn]
      rfl
    · rw [hspn]
      rfl
  · -- CHOPPER_BUCKET_THRESHOLD, full
    obtain ⟨spn, reg, value, hspn, ht⟩ := execChopperBucketThreshold_of_full h
    obtain ⟨hsame, hevent⟩ := Moves.afterEvent_spn (State.saturated_moves ({ s with spn := spn } : State) _ _ _ _ _ _)
    refine ⟨_, ht, ?_, ?_, ?_, ?_, hevent⟩
    all_goals rw [hsame, hspn]
    · rfl
    · rfl
    · rfl
    · rfl
  · -- CHOPPER_BUCKET_THRESHOLD, low
    exact ⟨_, execChopperBucketThreshold_of_low s, rfl, rfl, rfl, rfl⟩
  · -- CHOPPER_FAULT
    obtain ⟨trc, evr, ht⟩ := s.chopperFault_shape ma
    have hexec : execChopperFault ma s = .next (s.chopperFault ma) := by
      rw [execChopperFault, hfault, hbad]
      rfl
    rw [ht] at hexec
    exact ⟨_, hexec, rfl, rfl, rfl, rfl, rfl⟩
  · -- RAIL_OVERVOLTAGE
    obtain ⟨i, hspn⟩ := s.setRail_spn mv
    refine ⟨_, if_neg (by omega), ?_, ?_, ?_, ?_, ?_⟩
    all_goals rw [hspn]
    · rfl
    · rfl
    · rfl
    · simp [Spindle.chopper]
    · simp [Spindle.chopper]

end Sys2Proof.Machine
end

section
/-! SUPPORT. The spindle on its way to RUN: crossings, commutation, catching, braking and starting (10_spindle.md). -/

namespace Sys2Proof.Machine
open Sys2Proof
set_option Elab.async false

/-! ### Pavane of the actuators (R345, R650) -/

theorem State.beginPark_act (s : State) (a : Eng) (st : LoadState) :
    ∃ m, (s.beginPark a st).rst.act = vmod s.rst.act a fun x =>
      { x with state := st, unloadAt := m, biasing := false, loadReq := false, parkDue := false } := by
  unfold State.beginPark
  extract_lets s1 s2 s3 s4
  have h4 : Moves [.trc, .evr, .links, .engSrv, .seq, .wr, .headSrv] s s4 :=
    .behind (.fold _ _ _ fun s g => (State.modHs_moves ..).widen (by decide)) <| (State.modSrv_moves ..).after (by decide) <|
      (State.strobe_moves ..).after (by decide) (State.forceWritesOff_moves ..)
  have hrst : s4.rst = s.rst := h4.rst_eq rfl
  rw [← hrst]
  exact ⟨s4.mtime, rfl⟩

theorem State.modAct_same (s : State) (a : Eng) (f : Actuator → Actuator) : (s.modAct a f).rst.act[a] = f s.rst.act[a] :=
  vmod_same s.rst.act a f

theorem State.pavane_other (s : State) {a b : Eng} (h : b ≠ a) : (s.pavane b).rst.act[a] = s.rst.act[a] := by
  unfold State.pavane
  split
  · obtain ⟨m, hm⟩ := s.beginPark_act b .pavane
    exact (vmod_other _ _ h).trans ((congrArg (fun v : Vector Actuator 4 => v[a]) hm).trans (vmod_other _ _ h))
  · split
    · exact vmod_other _ _ h
    · rfl

theorem State.pavane_offRamp {s : State} {a : Eng} (h : s.rst.act[a].offRamp = true) : (s.pavane a).rst.act[a].state = .pavane := by
  obtain ⟨m, hm⟩ := s.beginPark_act a .pavane
  unfold State.pavane
  rw [if_pos h, State.modAct_same, hm, vmod_same]

theorem State.pavane_twice {s : State} {a : Eng} (h : s.rst.act[a].state = .pavane) : (s.pavane a).rst.act[a].state = .pavane := by
  have hoff : ¬ s.rst.act[a].offRamp = true := by
    unfold Actuator.offRamp
    rw [h]
    decide
  unfold State.pavane
  rw [if_neg hoff]
  split
  · rw [State.modAct_same]
    exact h
  · exact h

theorem State.pavaneFold_kept {a : Eng} (l : List Eng) (s : State) (h : s.rst.act[a].state = .pavane) :
    (l.foldl (fun s (b : Eng) => if s.enginePresent b then s.pavane b else s) s).rst.act[a].state = .pavane := by
  induction l generalizing s with
  | nil => exact h
  | cons b l ih =>
    rw [List.foldl_cons]
    refine ih _ ?_
    split
    · by_cases hb : b = a
      · subst hb
        exact State.pavane_twice h
      · rw [s.pavane_other hb]
        exact h
    · exact h

theorem State.pavaneFold_offRamp {a : Eng} {l : List Eng} (ha : a ∈ l) (s : State) (hp : s.enginePresent a = true)
    (h : s.rst.act[a].offRamp = true) :
    (l.foldl (fun s (b : Eng) => if s.enginePresent b then s.pavane b else s) s).rst.act[a].state = .pavane := by
  induction l generalizing s with
  | nil => exact absurd ha List.not_mem_nil
  | cons b l ih =>
    rw [List.foldl_cons]
    by_cases hb : b = a
    · subst hb
      refine State.pavaneFold_kept l _ ?_
      rw [if_pos hp]
      exact State.pavane_offRamp h
    · refine ih ((List.mem_cons.mp ha).resolve_left (Ne.symm hb)) _ ?_ ?_
      · split
        · exact (congrArg (fun l : Layout => decide (a.val < l.engines)) ((s.pavane_moves b).layout_eq rfl)).trans hp
        · exact hp
      · split
        · rw [s.pavane_other hb]
          exact h
        · exact h

theorem State.pavaneAll_offRamp {s : State} {a : Eng} (hp : s.enginePresent a = true) (h : s.rst.act[a].offRamp = true) :
    s.pavaneAll.rst.act[a].state = .pavane :=
  State.pavaneFold_offRamp (List.mem_finRange a) s hp h

theorem State.pavaneAll_spn (s : State) : s.pavaneAll.spn = s.spn := s.pavaneAll_moves.spn_eq rfl

theorem State.enterBrake_effect (s : State) (after : AfterBrake) :
    (s.enterBrake after).spn.state = .brake ∧ (s.enterBrake after).spn.brakePhase = .short ∧ (s.enterBrake after).spn.tries = s.spn.tries ∧
      (s.enterBrake after).spn.icmd = 0 ∧ (s.enterBrake after).spn.ramp = 0 ∧ (s.enterBrake after).spn.phasePair = s.spn.phasePair :=
  ⟨rfl, rfl, by simp only [State.enterBrake, State.modSpn_spn, s.pavaneAll_spn], rfl, rfl,
    by simp only [State.enterBrake, State.modSpn_spn, s.pavaneAll_spn]⟩

/-! ### Commutation (R60, R340 to R343) -/

theorem State.followCommutation_eng (s : State) : ∃ eng, s.followCommutation = { s with eng := eng } := by
  unfold State.followCommutation
  dsimp only
  generalize s.spn.commAngle * revUnits / s.spn.revSteps = comm
  generalize fins 4 = l
  induction l generalizing s with
  | nil => exact ⟨s.eng, rfl⟩
  | cons a l ih =>
    rw [List.foldl_cons]
    obtain ⟨eng, heng⟩ := ih (match s.eng[a].reel.state with
      | .locked => s.modReel a fun r => { r with
          phase := some ((s.eng[a].reel.stamp.linear % revUnits + revUnits - comm % revUnits) % revUnits) }
      | .spindle =>
        match s.eng[a].reel.phase with
        | none => s.modReel a fun r => { r with
            phase := some ((s.eng[a].reel.stamp.linear % revUnits + revUnits - comm % revUnits) % revUnits) }
        | some ph =>
          let d := ((comm + ph) % revUnits + revUnits - s.eng[a].reel.stamp.linear % revUnits) % revUnits
          let before := s.angle a
          s.modReel a fun r =>
            if d ≤ revUnits / 2 then
              (if d = 0 then r else { r.setAngle (angleAdd before d) with step := some (before, s.mtime), behind := 0 })
            else { r with behind := (revUnits - d) * 65536 + r.accLow }
      | _ => s)
    refine ⟨eng, ?_⟩
    refine Eq.trans ?_ (heng.trans ?_)
    · rfl
    · split
      · rfl
      · split <;> rfl
      · rfl

theorem Spindle.useWindow_steps (p : Spindle) : p.useWindow.steps = p.steps := by
  unfold Spindle.useWindow
  split <;> rfl

theorem Spindle.useWindow_makeWindow (p : Spindle) : p.useWindow.makeWindow = false := by
  unfold Spindle.useWindow
  split
  · rfl
  · exact Bool.eq_false_of_not_eq_true ‹_›

theorem Spindle.useWindow_state (p : Spindle) : p.useWindow.state = p.state := by
  unfold Spindle.useWindow
  split <;> rfl

theorem Spindle.useWindow_predCnt (p : Spindle) : p.useWindow.predCnt = p.predCnt := by
  unfold Spindle.useWindow
  split <;> rfl

/-- The steps of the drive that a commutation within the due time takes. -/
theorem execCommutation_of_due {s : State} (window : Nat) (demagDone : Bool) (hrun : s.spn.state = .run) (hdue : s.spn.commDue ≤ s.mtime)
    {u : State} (hu : (if s.spn.got.isSome then s
        else if s.spn.makeWindow then
          (s.modSpn fun p => if demagDone then p.useWindow else { p with makeWindow := false }).missCrossing
        else if window < 4500 then s.modSpn Spindle.skip else s.missCrossing) = u) :
    ∃ eng, execCommutation window demagDone s = .next { u with spn := u.spn.commutate, eng := eng } := by
  obtain ⟨eng, heng⟩ := (u.modSpn Spindle.commutate).followCommutation_eng
  refine ⟨eng, ?_⟩
  subst hu
  unfold execCommutation
  dsimp only
  rw [if_pos ⟨.inl hrun, hdue⟩, heng]
  rfl

theorem State.missCrossing_run {s : State} (h : s.spn.state = .run) : s.missCrossing = s.enterPredict := by
  unfold State.missCrossing
  rw [h]

theorem execCrossingMissed_of_due {s : State} (hrun : s.spn.state = .run) (hdue : s.spn.missDue s.mtime = true) :
    execCrossingMissed s = .next (s.modSpn Spindle.useWindow).enterPredict := by
  unfold execCrossingMissed
  rw [if_pos (.inl hrun), if_pos hdue, State.missCrossing_run ((Spindle.useWindow_state _).trans hrun)]

theorem State.enterPredict_effect (s : State) : s.enterPredict.spn.state = .predict ∧ s.enterPredict.spn.predCnt = inc 32 s.spn.predCnt ∧
    s.enterPredict.spn.predSteps = 0 ∧ s.enterPredict.spn.ramp = 0 ∧
    s.enterPredict = ({ s with spn := s.enterPredict.spn, lpe := s.enterPredict.lpe } : State).afterEvent s.enterPredict := by
  unfold State.enterPredict
  extract_lets full s1 s2
  have hm : Moves [.trc, .evr] s2 (s2.saturated full 0x0A 5 0 0x20048 (nw s2.spn.predCnt)) := State.saturated_moves ..
  refine ⟨congrArg Spindle.state (hm.spn_eq rfl), congrArg Spindle.predCnt (hm.spn_eq rfl), congrArg Spindle.predSteps (hm.spn_eq rfl),
    congrArg Spindle.ramp (hm.spn_eq rfl), ?_⟩
  rw [hm.spn_eq rfl, hm.lpe_eq rfl]
  exact hm.afterEvent

/-! ### Loss of lock and failed attempts (R345, R352) -/

theorem execRotorLockLoss_of_due {s : State} (hstate : s.spn.state = .predict) (hsteps : 36 ≤ s.spn.predSteps) :
    ∃ t u, execRotorLockLoss s = .next t ∧ Moves [.trc, .evr] u t ∧ u.rst = s.pavaneAll.rst ∧ u.spn.state = .coast ∧
      u.spn.lockLossCnt = inc 32 s.spn.lockLossCnt ∧ u.spn.icmd = 0 ∧ u.spn.ramp = 0 := by
  unfold execRotorLockLoss
  rw [if_pos ⟨hstate, hsteps⟩]
  extract_lets full s1 s2 s3
  refine ⟨_, s2, rfl, (State.saturated_moves ..).after (by decide) s2.condSpn_moves, rfl, rfl, ?_, rfl, rfl⟩
  exact congrArg (fun p : Spindle => inc 32 p.lockLossCnt) s.pavaneAll_spn

theorem State.startFailed_retry {s : State} (h : s.spn.tries + 1 < fld s.spn.start 7 4) : s.startFailed.spn.state = .brake ∧
    s.startFailed.spn.tries = s.spn.tries + 1 ∧ s.startFailed.spn.phasePair = (s.spn.phasePair + 1) % 3 ∧
    s.startFailed.spn.brakePhase = .short := by
  unfold State.startFailed
  extract_lets s1 full s2 s3
  rw [if_neg (show ¬ fld s1.spn.start 7 4 ≤ s1.spn.tries from Nat.not_le.mpr h)]
  obtain ⟨hstate, hphase, htries, -, -, hpair⟩ := s1.enterBrake_effect .start
  exact ⟨hstate, htries, hpair, hphase⟩

theorem State.startFailed_last {s : State} (h : fld s.spn.start 7 4 ≤ s.spn.tries + 1) : s.startFailed.spn.state = .fault ∧
    s.startFailed.spn.startFailCnt = inc 32 s.spn.startFailCnt ∧ s.startFailed.spn.icmd = 0 ∧
    s.startFailed = ({ s with spn := s.startFailed.spn } : State).afterEvent s.startFailed := by
  unfold State.startFailed
  extract_lets s1 full s2 s3
  rw [if_pos (show fld s1.spn.start 7 4 ≤ s1.spn.tries from h)]
  have hm : Moves [.trc, .evr] s2 (s3.saturated full 0x0A 5 0 0x20058 (nw s3.spn.startFailCnt)) :=
    (State.saturated_moves ..).after (by decide) s2.condSpn_moves
  refine ⟨congrArg Spindle.state (hm.spn_eq rfl), congrArg Spindle.startFailCnt (hm.spn_eq rfl), congrArg Spindle.icmd (hm.spn_eq rfl), ?_⟩
  rw [hm.spn_eq rfl]
  exact hm.afterEvent

/-! ### The obligation -/

/-- Settles O33. -/
theorem spindleStarting : Obligations.SpindleStarting := by
  refine ⟨fun s x hrun hrev hacc => ?_, fun s x hpred hrev hacc hgood => ?_, fun s window demagDone hrun hdue hgot => ?_,
    fun s window demagDone hrun hdue hgot hmake hwin => ?_, fun s hrun hdue => ?_, fun s hpred hsteps => ?_, fun s hcoast => ?_,
    fun s r hdet hstop hfew => ?_, fun s r hdet hstop hmany hrev hrpm => ?_,
    fun s hb hp => ⟨_, congrArg Host.Outcome.next (if_pos ⟨hb, hp⟩), rfl⟩, fun s n hb hp => ?_, fun s n hb hp hn hafter => ?_,
    fun s hb hp => ⟨_, congrArg Host.Outcome.next (if_pos ⟨hb, hp⟩), rfl, rfl, rfl, rfl⟩,
    fun s ha => ⟨_, congrArg Host.Outcome.next (if_pos ha), rfl⟩, fun s ho hrate => ?_, fun s ho htries => ?_, fun s ho htries => ?_⟩
  · -- ZERO_CROSSING in RUN
    refine ⟨s.modSpn fun p => p.runCrossing (s.mtime - x.ago), ?_, ?_, rfl, rfl, rfl, s.spn.useWindow_makeWindow,
      s.spn.useWindow_state.trans hrun, rfl⟩
    · show execZeroCrossing x s = _
      unfold execZeroCrossing
      rw [hrun]
      simp only [hrev, hacc, Bool.not_false, Bool.and_self, if_true]
    · exact congrArg (fun l => ((s.mtime - x.ago - s.spn.lastCross) :: l).take 6) s.spn.useWindow_steps
  · -- ZERO_CROSSING in PREDICT
    have hcross : s.spn.predictCrossing (s.mtime - x.ago) = { s.spn.useWindow.note 6 (s.mtime - x.ago - s.spn.caught) with
        got := some (s.mtime - x.ago - s.spn.caught), lastCross := s.mtime - x.ago, skipRun := 0, state := .run, predSteps := 0
        goodRun := 0 } := if_neg (by omega)
    refine ⟨{ s with spn := s.spn.predictCrossing (s.mtime - x.ago) }, ?_, ?_⟩
    · show execZeroCrossing x s = _
      unfold execZeroCrossing
      rw [hpred]
      simp only [hrev, hacc, Bool.not_false, Bool.and_self, if_true]
      rfl
    · rw [hcross]
      exact ⟨rfl, rfl, rfl, rfl, rfl, rfl⟩
  · -- COMMUTATION on an accepted crossing
    obtain ⟨eng, ht⟩ := execCommutation_of_due window demagDone hrun hdue (if_pos hgot)
    exact ⟨_, ht, rfl, rfl, rfl, rfl, rfl, rfl⟩
  · -- COMMUTATION with the crossing skipped
    obtain ⟨eng, ht⟩ := execCommutation_of_due (u := s.modSpn Spindle.skip) window demagDone hrun hdue (by
      rw [if_neg (by rw [hgot]; decide), if_neg (by rw [hmake]; decide), if_pos hwin])
    exact ⟨_, ht, rfl, rfl, rfl, rfl⟩
  · -- CROSSING_MISSED
    obtain ⟨hstate, hcnt, hsteps, hramp, hshape⟩ := (s.modSpn Spindle.useWindow).enterPredict_effect
    exact ⟨_, execCrossingMissed_of_due hrun hdue, hstate, hcnt.trans (congrArg (inc 32) s.spn.useWindow_predCnt), hsteps, hramp, hshape⟩
  · -- ROTOR_LOCK_LOSS
    obtain ⟨t, u, ht, hm, hrst, hstate, hcnt, hicmd, hramp⟩ := execRotorLockLoss_of_due hpred hsteps
    have hspn : t.spn = u.spn := hm.spn_eq rfl
    refine ⟨t, ht, ?_, ?_, ?_, ?_, fun a hp hoff => ?_⟩
    · rw [hspn, hstate]
    · rw [hspn, hcnt]
    · rw [hspn, hicmd]
    · rw [hspn, hramp]
    · rw [hm.rst_eq rfl, hrst]
      exact State.pavaneAll_offRamp hp hoff
  · -- COAST_TIMEOUT
    obtain ⟨hstate, hphase, htries, hicmd, hramp, -⟩ :=
      (s.modSpn fun p => { p with tries := 0, phasePair := 0, startRamp := .target }).enterBrake_effect .start
    exact ⟨_, congrArg Host.Outcome.next (if_pos hcoast), hstate, hphase, htries, hicmd, hramp⟩
  · -- DETECT_TIMEOUT at rest
    refine ⟨_, congrArg Host.Outcome.next ((if_pos hdet).trans
      ((if_neg (ne_true_of_eq_false hstop)).trans (if_pos hfew))), rfl, rfl, rfl, rfl⟩
  · -- DETECT_TIMEOUT with the disks turning
    refine ⟨_, congrArg Host.Outcome.next ((if_pos hdet).trans
      ((if_neg (ne_true_of_eq_false hstop)).trans ((if_neg (Nat.not_lt.mpr hmany)).trans
        (if_pos ⟨by rw [hrev]; rfl, by omega⟩)))), rfl, rfl, rfl⟩
  · -- BRAKE_OBSERVE_END
    refine ⟨_, ?_, rfl⟩
    show execBrakeObserveEnd n s = _
    unfold execBrakeObserveEnd
    rw [if_neg (not_not.mpr hb), hp]
    rfl
  · -- BRAKE_OBSERVE_END at standstill
    refine ⟨_, ?_, rfl⟩
    show execBrakeObserveEnd n s = _
    unfold execBrakeObserveEnd
    rw [if_neg (not_not.mpr hb), hp]
    dsimp only
    rw [if_neg (by omega), if_neg (by rw [hafter]; decide)]
    rfl
  · -- OPEN_LOOP_STEP
    refine ⟨_, ?_, rfl⟩
    show execOpenLoopStep false s = _
    unfold execOpenLoopStep
    rw [if_neg (not_not.mpr ho), if_neg Bool.false_ne_true]
    exact congrArg Host.Outcome.next (if_neg (Nat.not_le.mpr hrate))
  · -- START_ATTEMPT_TIMEOUT
    exact ⟨_, congrArg Host.Outcome.next (if_pos ho), State.startFailed_retry htries⟩
  · -- START_ATTEMPT_TIMEOUT, the last try
    exact ⟨_, congrArg Host.Outcome.next (if_pos ho), State.startFailed_last htries⟩

end Sys2Proof.Machine
end

section
/-! SUPPORT. The SPDM responders (18_security_firmware.md). -/

namespace Sys2Proof.Machine
open Sys2Proof
set_option Elab.async false

/-- The state once a request has been answered: what the message was, and the transcript with it. -/
def State.spdmAnswered (s : State) (r : SpdmIx) (code : Nat) (p : SpdmResponse) (signed : Option (Nat × Nat)) : State :=
  (s.modSpdm r fun y =>
    { y with lastSigned := signed, transcript := messageOf [y.transcript, code, p.code, p.param1, p.param2, p.payload] }).modOut fun o =>
      { o with spdm := (r, p) :: o.spdm }

theorem State.modSpdm_same (s : State) (r : SpdmIx) (f : SpdmResp → SpdmResp) : (s.modSpdm r f).sec.spdm[r] = f s.sec.spdm[r] :=
  vmod_same s.sec.spdm r f

theorem State.modSpdm_other (s : State) (f : SpdmResp → SpdmResp) {r x : SpdmIx} (h : r ≠ x) :
    (s.modSpdm r f).sec.spdm[x] = s.sec.spdm[x] :=
  vmod_other s.sec.spdm f h

/-- What changes nothing of the responder changes nothing. -/
theorem State.modSpdm_id {s : State} {r : SpdmIx} {f : SpdmResp → SpdmResp} (h : f s.sec.spdm[r] = s.sec.spdm[r]) : s.modSpdm r f = s := by
  have hv : vmod s.sec.spdm r f = s.sec.spdm := vmod_id _ r h
  show ({ s with sec := { s.sec with spdm := vmod s.sec.spdm r f } } : State) = s
  rw [hv]

theorem State.spdmAnswered_same (s : State) (r : SpdmIx) (code : Nat) (p : SpdmResponse) (g : Option (Nat × Nat)) :
    (s.spdmAnswered r code p g).sec.spdm[r] = { s.sec.spdm[r] with
      lastSigned := g, transcript := messageOf [s.sec.spdm[r].transcript, code, p.code, p.param1, p.param2, p.payload] } :=
  s.modSpdm_same r _

theorem State.spdmAnswered_phase (s : State) (r : SpdmIx) (code : Nat) (p : SpdmResponse) (g : Option (Nat × Nat)) :
    (s.spdmAnswered r code p g).sec.spdm[r].phase = s.sec.spdm[r].phase := by
  rw [s.spdmAnswered_same]

theorem State.spdmAnswered_sessions (s : State) (r : SpdmIx) (code : Nat) (p : SpdmResponse) (g : Option (Nat × Nat)) :
    (s.spdmAnswered r code p g).sec.spdm[r].sessions = s.sec.spdm[r].sessions := by
  rw [s.spdmAnswered_same]

theorem State.spdmAnswered_signed (s : State) (r : SpdmIx) (code : Nat) (p : SpdmResponse) (g : Option (Nat × Nat)) :
    (s.spdmAnswered r code p g).sec.spdm[r].lastSigned = g := by
  rw [s.spdmAnswered_same]

theorem State.spdmAnswered_next (s : State) (r : SpdmIx) (code : Nat) (p : SpdmResponse) (g : Option (Nat × Nat)) :
    (s.spdmAnswered r code p g).sec.spdm[r].nextSession = s.sec.spdm[r].nextSession := by
  rw [s.spdmAnswered_same]

/-- A body that touched the responder of its request alone answers it. -/
theorem State.spdmAnswered_responded {s u : State} {r : SpdmIx} (hu : u = { s with sec := u.sec })
    (hother : ∀ x : SpdmIx, r ≠ x → u.sec.spdm[x] = s.sec.spdm[x]) (code : Nat) (p : SpdmResponse) (g : Option (Nat × Nat)) :
    Responded s (u.spdmAnswered r code p g) r p := by
  obtain ⟨sec, hsec⟩ : ∃ sec, u = { s with sec := sec } := ⟨_, hu⟩
  refine ⟨?_, ?_, fun x hx => (u.modSpdm_other _ hx).trans (hother x hx)⟩
  · rw [hsec]
    rfl
  · rw [hsec]
    rfl

theorem State.spdmAnswered_responded_same (s : State) (r : SpdmIx) (code : Nat) (p : SpdmResponse) (g : Option (Nat × Nat)) :
    Responded s (s.spdmAnswered r code p g) r p := State.spdmAnswered_responded rfl (fun _ _ => rfl) code p g

theorem State.spdmAnswered_responded_mod (s : State) (r : SpdmIx) (f : SpdmResp → SpdmResp) (code : Nat) (p : SpdmResponse)
    (g : Option (Nat × Nat)) : Responded s ((s.modSpdm r f).spdmAnswered r code p g) r p :=
  State.spdmAnswered_responded rfl (fun _ hx => s.modSpdm_other f hx) code p g

/-! ### The frame of a request (R589, R593) -/

/-- A request in its place, no resynchronisation due, is the body's on the state as it is. -/
theorem State.spdm_of_placed {s : State} {r : SpdmIx} {code : Nat} {place : SpdmPhase → Bool}
    {body : State → State × SpdmResponse × Option (Nat × Nat)} {u : State} {p : SpdmResponse} {g : Option (Nat × Nat)}
    (hresp : s.responder r = true) (hsync : s.sec.spdm[r].resynch = false) (hplace : place s.sec.spdm[r].phase = true)
    (hbody : body s = (u, p, g)) : s.spdm r code place body = .next (u.spdmAnswered r code p g) := by
  have hid : (s.modSpdm r fun y => { y with resynch := false }) = s := State.modSpdm_id (by rw [← hsync])
  unfold State.spdm
  rw [hresp, if_neg (by decide)]
  extract_lets md x answer
  have hx : x.resynch = false := hsync
  have hp : place x.phase = true := hplace
  rw [if_neg (by simp [hx]), if_neg (by simp [hp]), show (md s fun y => { y with resynch := false }) = s from hid, hbody]
  rfl

theorem State.spdm_of_ready {s : State} {r : SpdmIx} {ph : SpdmPhase} {code : Nat} {place : SpdmPhase → Bool}
    {body : State → State × SpdmResponse × Option (Nat × Nat)} {u : State} {p : SpdmResponse} {g : Option (Nat × Nat)}
    (hready : spdmReady r ph s = true) (hplace : place ph = true) (hbody : body s = (u, p, g)) :
    s.spdm r code place body = .next (u.spdmAnswered r code p g) := by
  unfold spdmReady at hready
  simp only [Bool.and_eq_true, Bool.not_eq_true', beq_iff_eq] at hready
  obtain ⟨⟨hresp, hsync⟩, hphase⟩ := hready
  exact State.spdm_of_placed hresp hsync (hphase ▸ hplace) hbody

theorem spdmReady_phase {s : State} {r : SpdmIx} {ph : SpdmPhase} (h : spdmReady r ph s = true) : s.sec.spdm[r].phase = ph := by
  unfold spdmReady at h
  simp only [Bool.and_eq_true, beq_iff_eq] at h
  exact h.2

theorem State.spdm_of_resynch {s : State} {r : SpdmIx} {code : Nat} {place : SpdmPhase → Bool}
    {body : State → State × SpdmResponse × Option (Nat × Nat)} (hresp : s.responder r = true) (hsync : s.sec.spdm[r].resynch = true)
    (hphase : s.sec.spdm[r].phase ≠ .start) : s.spdm r code place body =
      .next ((s.modSpdm r fun y => { y with phase := .start, resynch := false, sessions := [], lastSigned := none }).modOut fun o =>
        { o with spdm := (r, .error 0x43) :: o.spdm }) := by
  unfold State.spdm
  rw [hresp, if_neg (by decide)]
  exact if_pos (by rw [hsync, Bool.true_and]; exact bne_iff_ne.mpr hphase)

theorem chainPart_of_within {l : List Nat} {off len : Nat} (h : off < l.length) :
    chainPart l off len = some (l.length - (off + len), (l.drop off).take len) := if_neg (Nat.not_le.mpr h)

theorem chainPart_of_past {l : List Nat} {off len : Nat} (h : l.length ≤ off) : chainPart l off len = none := if_pos h

/-- A signed response draws once and keeps what was signed. -/
theorem State.signedResponse_effect (s : State) (r : SpdmIx) (slot : Nat) (i : Identity) (code nonce : Nat) (content : List Nat) :
    ∃ p msg, s.signedResponse r slot i code nonce content = (s.drbgNext.2, p, some (slot, msg)) ∧ p.code = code ∧ p.param1 = slot :=
  ⟨_, _, rfl, rfl, rfl⟩

theorem State.inSession_id {s : State} {r : SpdmIx} {sid : BitVec 16} {b : Bool} {x : SpdmSession} (h : s.inSession r sid b = some x) :
    x.id = sid := by
  have := List.find?_some h
  simp only [Bool.and_eq_true, beq_iff_eq] at this
  exact this.1

/-- GET_MEASUREMENTS, signed (R591). -/
theorem execGetMeasurements_signed {s : State} {r : SpdmIx} {op : BitVec 8} {slot : Fin 8} (nonce : BitVec 256) {i : Identity}
    (hready : spdmReady r .negotiated s = true) (hop : op.toNat ≤ 9 ∨ op.toNat = 255) (hi : s.slotIdentity r slot.val = some i) :
    ∃ p msg, execGetMeasurements r op true slot nonce s = .next
      ((s.drbgNext.2.modSec fun x => { x with measCnt := satAdd 32 x.measCnt 1 }).spdmAnswered r 0xE0 p (some (slot.val, msg))) ∧
      p.code = 0x60 ∧ p.param2 = slot.val := by
  unfold execGetMeasurements
  generalize hbody : (fun s : State => _) = body
  obtain ⟨p, msg, hs⟩ : ∃ p msg, body s =
      (s.drbgNext.2.modSec fun x => { x with measCnt := satAdd 32 x.measCnt 1 }, p, some (slot.val, msg)) ∧
        p.code = 0x60 ∧ p.param2 = slot.val := by
    rw [← hbody]
    dsimp only
    rw [if_neg (by omega), if_neg (by decide), hi]
    exact ⟨_, _, rfl, rfl, rfl⟩
  exact ⟨p, msg, State.spdm_of_ready hready rfl hs.1, hs.2⟩

/-- The session a KEY_EXCHANGE opens (R589). -/
def State.kexSession (s : State) (r : SpdmIx) (x : SpdmKex) : SpdmSession :=
  { id := BitVec.ofNat 16 s.sec.spdm[r].nextSession, finished := false
    secret := Config.dheShared (Config.drbg s.sec.drbg).toNat x.exchange }

/-- KEY_EXCHANGE (R589). -/
theorem execKeyExchange_of_slot {s : State} {r : SpdmIx} {slot : Fin 8} {x : SpdmKex} {i : Identity} {m : List Nat}
    (hready : spdmReady r .negotiated s = true) (hi : s.slotIdentity r slot.val = some i) (hm : s.measureSummary r x.meas.toNat = some m) :
    ∃ p msg, execKeyExchange r slot x s = .next
      (((s.drbgNext.2.modSpdm r fun y =>
        { y with
          nextSession := y.nextSession + 1
          sessions := y.sessions ++ [s.kexSession r x] }).drbgNext.2).spdmAnswered r 0xE4 p (some (slot.val, msg))) ∧
      p.code = 0x64 ∧ p.param1 = slot.val := by
  unfold execKeyExchange
  generalize hbody : (fun s : State => _) = body
  obtain ⟨p, msg, hs⟩ : ∃ p msg, body s = ((s.drbgNext.2.modSpdm r fun y =>
        { y with
          nextSession := y.nextSession + 1
          sessions := y.sessions ++ [s.kexSession r x] }).drbgNext.2, p, some (slot.val, msg)) ∧
        p.code = 0x64 ∧ p.param1 = slot.val := by
    rw [← hbody]
    dsimp only
    rw [hi, hm]
    exact ⟨_, _, rfl, rfl, rfl⟩
  exact ⟨p, msg, State.spdm_of_ready hready rfl hs.1, hs.2⟩

/-- Settles O57. -/
theorem spdmResponders : Obligations.SpdmResponders := by
  refine ⟨fun s r hresp hsync => ?_, fun s r hresp hsync hphase => ?_, fun s r h => ?_, fun s r h => ?_, fun s r n h hn => ?_,
    fun s r i h h0 h1 => ?_, fun s r slot off len i h hi => ?_, fun s r slot meas nonce i m h hi hm => ?_,
    fun s r op slot nonce h hop => ?_, fun s r slot nonce h => ?_, fun s r op slot nonce i h hop hi => ?_,
    fun s r slot x i m h hi hm => ?_, fun s r sid hmac x h hx => ?_, fun s r sid h hx => ?_, fun s r sid op h hx hop => ?_,
    fun s r sid h hx => ?_, fun s r slot off len i h hlen hi => ?_, fun s r slot msg i h hlast hi => ?_, fun s r h hlast => ?_⟩
  · -- GET_VERSION
    show Completes (execGetVersion r s) _
    unfold execGetVersion
    refine ⟨_, State.spdm_of_placed hresp hsync rfl rfl, State.spdmAnswered_responded_mod .., ?_, ?_, State.spdmAnswered_signed .., rfl⟩
    · rw [State.spdmAnswered_phase, State.modSpdm_same]
    · rw [State.spdmAnswered_sessions, State.modSpdm_same]
  · -- GET_VERSION, to resynchronise
    show Completes (execGetVersion r s) _
    unfold execGetVersion
    have hsame := s.modSpdm_same r fun y => { y with phase := .start, resynch := false, sessions := [], lastSigned := none }
    exact ⟨_, State.spdm_of_resynch hresp hsync hphase, ⟨rfl, rfl, fun x hx => s.modSpdm_other _ hx⟩, congrArg SpdmResp.phase hsame,
      congrArg SpdmResp.sessions hsame, congrArg SpdmResp.resynch hsame⟩
  · -- GET_CAPABILITIES
    show Completes (execGetCapabilities r s) _
    unfold execGetCapabilities
    refine ⟨_, State.spdm_of_ready h rfl rfl, State.spdmAnswered_responded_mod .., ?_, ?_⟩
    · rw [State.spdmAnswered_phase, State.modSpdm_same]
    · rw [State.spdmAnswered_sessions, State.modSpdm_same]
  · -- NEGOTIATE_ALGORITHMS
    show Completes (execNegotiateAlgorithms r ⟨true, true, true, true⟩ s) _
    unfold execNegotiateAlgorithms
    refine ⟨_, State.spdm_of_ready h rfl rfl, State.spdmAnswered_responded_mod .., ?_⟩
    rw [State.spdmAnswered_phase, State.modSpdm_same]
  · -- NEGOTIATE_ALGORITHMS, none of them shared
    show Completes (execNegotiateAlgorithms r n s) _
    unfold execNegotiateAlgorithms
    have hall : (n.ed25519 && n.sha384 && n.secp384r1 && n.aes256gcm) = false := by
      rcases hn with hn | hn | hn | hn <;> simp [hn]
    refine ⟨_, State.spdm_of_ready h rfl (if_neg (ne_true_of_eq_false hall)), State.spdmAnswered_responded_same .., ?_⟩
    rw [State.spdmAnswered_phase, spdmReady_phase h]
  · -- GET_DIGESTS
    show Completes (execGetDigests r s) _
    unfold execGetDigests
    have hids : [0, 1].filterMap (fun n => s.slotIdentity r n) = [i] := by simp [h0, h1]
    refine ⟨_, State.spdm_of_ready h rfl rfl, ?_, ?_, rfl⟩
    · rw [hids, List.map_singleton, List.flatMap_singleton]
      exact State.spdmAnswered_responded_same ..
    · rw [State.spdmAnswered_phase, spdmReady_phase h]
  · -- GET_CERTIFICATE
    show Completes (execGetCertificate r slot off len s) _
    unfold execGetCertificate
    rcases Nat.lt_or_ge off.toNat (s.chainBytes i false).length with hoff | hoff
    · refine ⟨_, State.spdm_of_ready h rfl (by rw [hi, Option.bind_some, chainPart_of_within hoff]), fun _ => ?_,
        fun hpast => absurd hoff (Nat.not_lt.mpr hpast)⟩
      exact State.spdmAnswered_responded_same ..
    · refine ⟨_, State.spdm_of_ready h rfl (by rw [hi, Option.bind_some, chainPart_of_past hoff]),
        fun hlt => absurd hlt (Nat.not_lt.mpr hoff), fun _ => ?_⟩
      exact State.spdmAnswered_responded_same ..
  · -- CHALLENGE
    show Completes (execChallenge r slot meas nonce s) _
    unfold execChallenge
    obtain ⟨p, msg, hp, -⟩ := s.signedResponse_effect r slot.val i 0x03 nonce.toNat
      (leBytes 48 (Config.sha384 (s.chainBytes i false)).toNat ++ m)
    refine ⟨_, State.spdm_of_ready (u := s.drbgNext.2) h rfl (by rw [hi, hm]; exact hp), ?_, rfl, ?_, rfl⟩
    · rw [hp]
      exact State.spdmAnswered_responded rfl (fun _ _ => rfl) ..
    · rw [State.spdmAnswered_signed]
      rfl
  · -- GET_MEASUREMENTS of one
    show Completes (execGetMeasurements r op false slot nonce s) _
    obtain ⟨h1, h9⟩ := hop
    unfold execGetMeasurements
    refine ⟨_, State.spdm_of_ready (u := s) h rfl (by
        dsimp only
        rw [if_neg (show ¬(9 < op.toNat ∧ op.toNat ≠ 255) by omega), if_neg (show ¬op.toNat = 0 by omega),
          if_neg (show ¬op.toNat = 255 by omega), if_neg (show ¬op.toNat = 0 by omega)]
        rfl), ?_, rfl, State.spdmAnswered_signed ..⟩
    rw [List.flatMap_singleton]
    exact State.spdmAnswered_responded_same ..
  · -- GET_MEASUREMENTS, their number
    show Completes (execGetMeasurements r 0 false slot nonce s) _
    unfold execGetMeasurements
    exact ⟨_, State.spdm_of_ready (p := { code := 0x60, param1 := 9, payload := bytesNat [0, 0, 0, 0] }) (u := s) (g := none) h rfl (by
        simp [leBytes]),
      State.spdmAnswered_responded_same ..⟩
  · -- GET_MEASUREMENTS, signed
    obtain ⟨p, msg, ht, hcode, hslot⟩ := execGetMeasurements_signed nonce h hop hi
    refine ⟨_, ht, rfl, rfl, ?_, ?_⟩
    · rw [State.spdmAnswered_signed]
      rfl
    · exact congrArg₂ (fun c q => some (r, c, q)) hcode hslot
  · -- KEY_EXCHANGE
    obtain ⟨p, msg, ht, hcode, hslot⟩ := execKeyExchange_of_slot h hi hm
    have hsame := s.drbgNext.2.modSpdm_same r fun y =>
      { y with
        nextSession := y.nextSession + 1
        sessions := y.sessions ++ [s.kexSession r x] }
    refine ⟨_, ht, ?_, ?_, rfl, congrArg₂ (fun c q => some (r, c, q)) hcode hslot⟩
    · rw [State.spdmAnswered_sessions]
      exact congrArg SpdmResp.sessions hsame
    · rw [State.spdmAnswered_next]
      exact congrArg SpdmResp.nextSession hsame
  · -- FINISH
    show Completes (execFinish r sid hmac s) _
    unfold execFinish
    by_cases hmac' : Config.hmac x.secret s.sec.spdm[r].transcript = hmac
    · refine ⟨_, State.spdm_of_ready h rfl (by rw [hx]; exact if_pos hmac'), fun _ => ⟨State.spdmAnswered_responded_mod .., ?_⟩,
        fun hne => absurd hmac' hne⟩
      rw [State.spdmAnswered_sessions, State.modSpdm_same]
      intro y hy hid
      obtain ⟨z, -, rfl⟩ := List.mem_map.mp hy
      by_cases hz : z.id = sid
      · rw [if_pos hz]
      · rw [if_neg hz] at hid
        exact absurd hid hz
    · refine ⟨_, State.spdm_of_ready h rfl (by rw [hx]; exact if_neg hmac'), fun heq => absurd heq hmac',
        fun _ => ⟨State.spdmAnswered_responded_mod .., ?_⟩⟩
      rw [State.spdmAnswered_sessions, State.modSpdm_same]
      exact fun y hy => of_decide_eq_true (List.mem_filter.mp hy).2
  · -- HEARTBEAT
    obtain ⟨x, hx⟩ := Option.isSome_iff_exists.mp hx
    show Completes (execHeartbeat r sid s) _
    unfold execHeartbeat
    exact ⟨_, State.spdm_of_ready h rfl (by rw [hx]), State.spdmAnswered_responded_same .., State.spdmAnswered_sessions ..⟩
  · -- KEY_UPDATE
    obtain ⟨x, hx⟩ := Option.isSome_iff_exists.mp hx
    have hplain : ¬(op = 0 ∨ 3 < op.toNat) := by rcases hop with rfl | rfl <;> decide
    have hthree : op ≠ 3 := by rcases hop with rfl | rfl <;> decide
    show Completes (execKeyUpdate r sid op s) _
    unfold execKeyUpdate
    refine ⟨_, State.spdm_of_ready h rfl (by rw [hx]; dsimp only; rw [if_neg hplain, if_neg hthree]; rfl), State.spdmAnswered_responded_mod .., ?_⟩
    rw [State.spdmAnswered_sessions, State.modSpdm_same]
  · -- END_SESSION
    obtain ⟨x, hx⟩ := Option.isSome_iff_exists.mp hx
    show Completes (execEndSession r sid s) _
    unfold execEndSession
    refine ⟨_, State.spdm_of_ready h rfl (by rw [hx]), State.spdmAnswered_responded_mod .., ?_⟩
    rw [State.spdmAnswered_sessions, State.modSpdm_same]
  · -- GET_PQ_CHAIN
    show Completes (execGetPqChain r slot off len s) _
    unfold execGetPqChain
    rcases Nat.lt_or_ge off.toNat (s.chainBytes i true).length with hoff | hoff
    · refine ⟨_, State.spdm_of_ready h rfl (by rw [if_neg (Nat.not_lt.mpr hlen), hi, Option.bind_some, chainPart_of_within hoff]),
        fun _ => State.spdmAnswered_responded_same .., fun hpast => absurd hoff (Nat.not_lt.mpr hpast)⟩
    · refine ⟨_, State.spdm_of_ready h rfl (by rw [if_neg (Nat.not_lt.mpr hlen), hi, Option.bind_some, chainPart_of_past hoff]; rfl),
        fun hlt => absurd hlt (Nat.not_lt.mpr hoff), fun _ => State.spdmAnswered_responded_same ..⟩
  · -- GET_PQ_SIG
    show Completes (execGetPqSig r s) _
    unfold execGetPqSig
    refine ⟨_, State.spdm_of_ready (u := s.drbgNext.2) h rfl (by rw [hlast]; dsimp only; rw [hi]; rfl), State.spdmAnswered_responded rfl (fun _ _ => rfl) .., rfl,
      State.spdmAnswered_signed ..⟩
  · -- GET_PQ_SIG, nothing signed
    show Completes (execGetPqSig r s) _
    unfold execGetPqSig
    exact ⟨_, State.spdm_of_ready h rfl (by rw [hlast]; rfl), State.spdmAnswered_responded_same .., rfl⟩

end Sys2Proof.Machine
end

section
/-! SUPPORT. The methods of Opal (18_security_firmware.md): a lock of a range waits for the writes completed before it, and a write that
was lost, none of its blocks left, is not one it waits for. -/

namespace Sys2Proof.Machine
open Sys2Proof
set_option Elab.async false

/-- A write of namespace 1 completed before, its data lost and no block of it left. -/
def lostWrite : BufferedWrite :=
  { ctx := 0, fn := 0, nsid := 1, startNo := 0, slba := 0, zone := none, zofs := 0, blocks := [], credits := 0, lost := true }

/-- A session of the Locking SP's first administrator. -/
def adminSession : OpalSession := { fn := 0, sp := .locking, auths := [.admin 0] }

/-- The Locking SP active, range 1 lockable for writes, that session open. -/
def lockableOpal : Opal :=
  { activated := true, ranges := vmod (Vector.replicate 17 {}) 1 fun r => { r with wrLockEn := true }, sessions := [adminSession] }

/-- Function 0 up, with those tables and that write. -/
def lostWriteState : State :=
  { State.reset with
    host := { State.reset.host with fns := vmod State.reset.host.fns 0 fun x => { x with present := true, en := true, rdy := true } }
    sec := { State.reset.sec with opal := lockableOpal }
    q := { State.reset.q with buffered := [lostWrite] } }

/-- The request of function 0. -/
def opalOnFn0 : OpalReq := { fn := 0 }

theorem lostWriteState_ready : opalReady opalOnFn0 lostWriteState = true ∧ lostWriteState.opalSession opalOnFn0 = some adminSession ∧
    (lostWriteState.q.buffered.any fun b => b.nsid == (1 : Fin 17).val && b.nsid != 0 && !b.fault) = true := by
  decide +kernel

/-- The lock is answered at once. -/
theorem lostWriteState_lock_answered :
    (lostWriteState.setRange opalOnFn0 1 fun r => { r with wrLocked := true }).sec.opalWait = [] := by
  decide +kernel

/-- Refutes O58: OPAL_SET of WriteLocked, where the write left was lost. -/
theorem not_opalMethods : ¬ Obligations.OpalMethods := by
  rintro ⟨-, -, -, -, -, -, hlock, -⟩
  obtain ⟨hready, hsession, hbuffered⟩ := lostWriteState_ready
  obtain ⟨t, ht, -, -, hwait, -⟩ := hlock lostWriteState opalOnFn0 1 adminSession hready hsession rfl ⟨rfl, by decide +kernel, by decide +kernel⟩
    hbuffered rfl
  have hrun : t = lostWriteState.setRange opalOnFn0 1 fun r => { r with wrLocked := true } := (Host.Outcome.next.inj ht).symm
  rw [hrun, lostWriteState_lock_answered] at hwait
  exact absurd hwait (by decide)

end Sys2Proof.Machine
end

section
/-! SUPPORT. The packets of the recorder (19_event_recorder.md): where a vendor packet follows a note in its exchange, the refusal that
is the last the counter of refusals can take is itself recorded, after the record of the note. -/

namespace Sys2Proof.Machine
open Sys2Proof
set_option Elab.async false

/-- A note of four bytes. -/
def shortNote : Packet :=
  { xid := 1, src := .nvme 0, tag := 1, flags := 0, level := 5, index := 0, words := #v[0x65746F6E, 0, 0, 0, 0, 0, 0, 0, 0, 0, 0, 0, 0, 4] }

/-- The module up, its one exchange at that note with a vendor packet after it, the counter of refusals one short of its end. -/
def notedState : State :=
  { State.reset with
    rst := { State.reset.rst with rail12 := true, phase := .ready }
    het := { State.reset.het with
      cnt := vmod State.reset.het.cnt (Sender.nvme 0).transport fun c => { c with deny := 0xFFFFFFFE }
      exchanges := [{ xid := 1, src := .nvme 0, todo := [(0x0234, shortNote), (0x8000, shortNote)], running := true }] } }

theorem notedState_ready : ready ⟨0x0234, [5], .action⟩ shortNote notedState = true := by
  decide +kernel

/-- The reply names the note's record, the first; the second is that of the counter. -/
theorem notedState_records :
    (runPacket ⟨0x0234, [5], .action⟩ shortNote notedState (opRecorderNote shortNote)).evr.nextRseq = 2 ∧
      ((runPacket ⟨0x0234, [5], .action⟩ shortNote notedState (opRecorderNote shortNote)).out.replies.getLast?.map
        fun r => r.2.result[0]) = some 0 := by
  decide +kernel

/-- Refutes O59: RECORDER_NOTE, where what follows it in the exchange is recorded too. -/
theorem not_eventRecorder : ¬ Obligations.EventRecorder := by
  rintro ⟨-, -, -, -, -, -, -, -, -, -, -, -, hnote⟩
  obtain ⟨t, ht, -, ⟨clamp, later, hreplies⟩, -, -⟩ := hnote notedState shortNote notedState_ready
  have hrun : t = runPacket ⟨0x0234, [5], .action⟩ shortNote notedState (opRecorderNote shortNote) :=
    (Host.Outcome.next.inj ht).symm
  obtain ⟨hnext, hlast⟩ := notedState_records
  have hnone : notedState.out.replies = [] := rfl
  rw [← hrun] at hnext hlast
  rw [hreplies, hnone, List.getLast?_concat, hnext] at hlast
  have hword : nw ((2 + 2 ^ 32 - 1) % 2 ^ 32) = 0 := Option.some.inj hlast
  exact absurd hword (by decide)

end Sys2Proof.Machine
end

section
/-! SUPPORT. Doorbells and the violations of the host link and of its side channels (13_host_link_nvme.md). -/

namespace Sys2Proof.Machine
open Sys2Proof
set_option Elab.async false

/-! ### Functions -/

theorem State.modFn_same (s : State) (f : Fn) (g : FnState → FnState) : (s.modFn f g).host.fns[f] = g s.host.fns[f] :=
  vmod_same s.host.fns f g

theorem State.modFn_other (s : State) (g : FnState → FnState) {f n : Fn} (h : f ≠ n) : (s.modFn f g).host.fns[n] = s.host.fns[n] :=
  vmod_other s.host.fns g h

/-- A change of functions keeps what it keeps of each. -/
theorem State.modFn_kept {α : Type} (s : State) (f n : Fn) {g : FnState → FnState} (F : FnState → α) (h : ∀ x, F (g x) = F x) :
    F (s.modFn f g).host.fns[n] = F s.host.fns[n] := by
  by_cases hn : f = n
  · subst hn
    rw [State.modFn_same]
    exact h _
  · rw [State.modFn_other _ _ hn]

/-- What the events of a function, reported or not, leave of it. -/
def FnState.sansEvents (x : FnState) : FnState := { x with aers := [], events := [], masked := [], cqs := [], cmdErrCnt := 0 }

theorem ReplySteps.sansEvents {s t : State} (h : ReplySteps s t) (n : Fn) : t.host.fns[n].sansEvents = s.host.fns[n].sansEvents := by
  obtain ⟨fns, violations, hhost, hfns⟩ := h.host
  obtain ⟨cqs, cnt, hn⟩ := hfns n
  rw [hhost, hn]
  rfl

theorem State.deliverAsync_sansEvents (s : State) (f n : Fn) : (s.deliverAsync f).host.fns[n].sansEvents = s.host.fns[n].sansEvents := by
  unfold State.deliverAsync
  dsimp only
  split
  · exact (ReplySteps.post ..).sansEvents n |>.trans (s.modFn_kept f n FnState.sansEvents fun _ => rfl)
  · rfl

theorem State.raiseAsync_sansEvents (s : State) (f n : Fn) (e : AsyncEvent) :
    (s.raiseAsync f e).host.fns[n].sansEvents = s.host.fns[n].sansEvents := by
  unfold State.raiseAsync
  split
  · exact (State.deliverAsync_sansEvents ..).trans (s.modFn_kept f n FnState.sansEvents fun _ => rfl)
  · rfl

/-! ### Doorbells (R467) -/

/-- A doorbell of a submission queue the function has. -/
theorem execDoorbellWrite_sq {s : State} {f : Fn} {d : Doorbell} {q : SubQueue} (hp : s.host.fns[f].present = true) (hcq : d.cq = false)
    (hq : s.host.fns[f].sqs.find? (fun q => q.id == d.q) = some q) (hv : d.v.toNat < q.size) :
    execDoorbellWrite f d s =
      .next (s.modFn f fun x => { x with sqs := x.sqs.map fun q => if q.id = d.q then { q with tail := d.v.toNat } else q }) := by
  unfold execDoorbellWrite
  simp only [hp, hcq, hq, Bool.not_true, Bool.false_eq_true, if_false, if_neg (Nat.not_le.mpr hv)]

theorem execDoorbellWrite_cq {s : State} {f : Fn} {d : Doorbell} {q : CompQueue} (hp : s.host.fns[f].present = true) (hcq : d.cq = true)
    (hq : s.host.fns[f].cqs.find? (fun q => q.id == d.q) = some q) (hv : d.v.toNat < q.size)
    (hroom : (d.v.toNat + q.size - q.head) % q.size ≤ (q.tail + q.size - q.head) % q.size) : execDoorbellWrite f d s =
      .next (s.modFn f fun x => { x with cqs := x.cqs.map fun q => if q.id = d.q then { q with head := d.v.toNat } else q }) := by
  have hok : ¬(q.size ≤ d.v.toNat ∨ (q.tail + q.size - q.head) % q.size < (d.v.toNat + q.size - q.head) % q.size) := by
    rintro (h | h)
    · exact Nat.not_le.mpr hv h
    · exact Nat.not_lt.mpr hroom h
  unfold execDoorbellWrite
  simp only [hp, hcq, hq, Bool.not_true, Bool.false_eq_true, if_false, if_true, if_neg hok]

theorem execDoorbellWrite_value {s : State} {f : Fn} {d : Doorbell} {q : SubQueue} (hp : s.host.fns[f].present = true) (hcq : d.cq = false)
    (hq : s.host.fns[f].sqs.find? (fun q => q.id == d.q) = some q) (hv : q.size ≤ d.v.toNat) : ∃ full words,
    execDoorbellWrite f d s = .next
      (((s.modFn f fun x => { x with dbValCnt := inc 16 x.dbValCnt }).raiseAsync f ⟨0, 1, 1⟩).fnViolated .dbVal f 0 full words) := by
  unfold execDoorbellWrite
  simp only [hp, hcq, hq, Bool.not_true, Bool.false_eq_true, if_false, if_pos hv]
  exact ⟨_, _, rfl⟩

theorem execDoorbellWrite_register {s : State} {f : Fn} {d : Doorbell} (hp : s.host.fns[f].present = true) (hcq : d.cq = false)
    (hq : s.host.fns[f].sqs.find? (fun q => q.id == d.q) = none) : ∃ full words,
    execDoorbellWrite f d s = .next
      (((s.modFn f fun x => { x with dbRegCnt := inc 16 x.dbRegCnt }).raiseAsync f ⟨0, 0, 1⟩).fnViolated .dbReg f 0 full words) := by
  unfold execDoorbellWrite
  simp only [hp, hcq, hq, Bool.not_true, Bool.false_eq_true, if_false]
  exact ⟨_, _, rfl⟩

/-- A refused doorbell counts and reports: of the function but its events, all is as the count left it. -/
theorem State.refusedDoorbell_effect (s : State) (f : Fn) (g : FnState → FnState) (e : AsyncEvent) (v : Violation) (full : Bool)
    (words : List Word) {t : State} (ht : t = ((s.modFn f g).raiseAsync f e).fnViolated v f 0 full words) :
    t.host.fns[f].sansEvents = (g s.host.fns[f]).sansEvents ∧ t = ({ s with host := t.host, out := t.out } : State).afterEvent t := by
  have hmoves : Moves [.trc, .host, .evr, .out] s t := by
    rw [ht]
    exact (State.fnViolated_moves ..).after (by decide) <| (State.raiseAsync_moves ..).after (by decide)
      ((s.modFn_moves f g).widen (by decide))
  refine ⟨?_, hmoves.eq_of_parts rfl fun x => by cases x <;> first | rfl | exact fun _ => rfl⟩
  rw [ht, State.fnViolated_fns, State.raiseAsync_sansEvents, State.modFn_same]

theorem FnState.of_sansEvents {x y : FnState} (h : x.sansEvents = y.sansEvents) :
    x.dbValCnt = y.dbValCnt ∧ x.dbRegCnt = y.dbRegCnt ∧ x.sqs = y.sqs :=
  ⟨show x.sansEvents.dbValCnt = y.sansEvents.dbValCnt by rw [h], show x.sansEvents.dbRegCnt = y.sansEvents.dbRegCnt by rw [h],
    show x.sansEvents.sqs = y.sansEvents.sqs by rw [h]⟩

/-! ### Requests a function does not take (R467) -/

/-- A request answered with an error, counted and reported. -/
theorem State.countedRequest_effect (s : State) (f : Fn) (g : FnState → FnState) (o : Outputs → Outputs) (v : Violation) (cell : Nat)
    (full : Bool) (words : List Word) {t : State} (ht : t = ((s.modFn f g).modOut o).fnViolated v f cell full words) :
    t.host.fns[f] = g s.host.fns[f] ∧ (∀ n : Fn, f ≠ n → t.host.fns[n] = s.host.fns[n]) ∧ t.out = o s.out ∧
      t = ({ s with host := t.host, out := t.out } : State).afterEvent t := by
  have hmoves : Moves [.trc, .host, .evr] ((s.modFn f g).modOut o) t := by
    rw [ht]
    exact State.fnViolated_moves ..
  have hfns : t.host.fns = (s.modFn f g).host.fns := by rw [ht, State.fnViolated_fns]; rfl
  have hout : t.out = o s.out := hmoves.out_eq rfl
  refine ⟨?_, fun n hn => ?_, hout, ?_⟩
  · rw [hfns, State.modFn_same]
  · rw [hfns, State.modFn_other _ _ hn]
  · rw [hout]
    exact hmoves.afterEvent_host

/-- A transfer that failed, counted and reported. -/
theorem State.countedTransfer_effect (s : State) (x : CtxIx) (f : Fn) (g : FnState → FnState) (v : Violation) (full : Bool)
    (words : List Word) {t : State} (ht : t = ((s.transferFailed x).modFn f g).fnViolated v f 2 full words) :
    t.q = (s.transferFailed x).q ∧ t.host.fns[f] = g s.host.fns[f] ∧ (∀ n : Fn, f ≠ n → t.host.fns[n] = s.host.fns[n]) ∧
      t = ({ s with host := t.host, q := t.q } : State).afterEvent t := by
  obtain ⟨q', hq⟩ : ∃ q', s.transferFailed x = { s with q := q' } :=
    ⟨(s.transferFailed x).q, (s.transferFailed_moves x).eq_of_parts rfl fun y => by cases y <;> first | rfl | exact fun _ => rfl⟩
  rw [hq] at ht ⊢
  have hmoves : Moves [.trc, .host, .evr] (State.modFn { s with q := q' } f g) t := by
    rw [ht]
    exact State.fnViolated_moves ..
  have hfns : t.host.fns = (State.modFn { s with q := q' } f g).host.fns := by rw [ht, State.fnViolated_fns]
  have htq : t.q = q' := hmoves.q_eq rfl
  refine ⟨htq, ?_, fun n hn => ?_, ?_⟩
  · rw [hfns, State.modFn_same]
  · rw [hfns, State.modFn_other _ _ hn]
  · rw [htq]
    exact hmoves.afterEvent_host

/-- A transfer of a context that cannot go on without it ends the command. -/
theorem State.transferFailed_ends {s : State} {x : CtxIx} {c : Ctx} (hc : s.ctx x = some c)
    (hends : c.writes = true ∨ c.started = false ∨ c.admin = true ∨ c.blocks = []) :
    (s.transferFailed x).ctx x = some (c.finish (stGen 0x04 false)) ∧
      (s.transferFailed x).q = { s.q with ctxs := (s.transferFailed x).q.ctxs, staging := s.q.staging - c.staged } := by
  have hend : (c.writes || !c.started || c.admin || c.blocks.isEmpty) = true := by
    rcases hends with h | h | h | h <;> simp [h]
  unfold State.transferFailed
  extract_lets st held
  have hheld : held = c.staged := by simp only [held, hc, Option.map_some, Option.getD_some]
  constructor
  · rw [State.ctx_modCtx, show (s.modQ fun q => { q with staging := q.staging - held }).ctx x = some c from hc, Option.map_some, if_pos hend]
  · rw [hheld]
    rfl

theorem execCompletionTimeout_of_ctx {s : State} {x : CtxIx} (hdr : BitVec 128) {c : Ctx} (hc : s.ctx x = some c) : ∃ full,
    execCompletionTimeout x hdr s = .next
      (((s.transferFailed x).modFn c.fn fun y => { y with ctoCnt := inc 16 y.ctoCnt }).fnViolated .cto c.fn 2 full (hdrWords hdr)) := by
  unfold execCompletionTimeout
  rw [hc]
  exact ⟨_, rfl⟩

theorem execPoisonedCompletion_of_ctx {s : State} {x : CtxIx} (hdr : BitVec 128) {c : Ctx} (hc : s.ctx x = some c) : ∃ full,
    execPoisonedCompletion x hdr s = .next
      (((s.transferFailed x).modFn c.fn fun y => { y with poisCnt := inc 16 y.poisCnt }).fnViolated .pois c.fn 2 full (hdrWords hdr)) := by
  unfold execPoisonedCompletion
  rw [hc]
  exact ⟨_, rfl⟩

/-! ### The side channels -/

/-- A violation reported after a count, of whatever else there is: the host link keeps all but its list of violations. -/
theorem State.violated_host (s : State) (v : Violation) (f level index reg : Nat) (value : Word) (words : List Word) :
    ∃ l, (s.violated v f level index reg value words).host = { s.host with violations := l } := by
  unfold State.violated
  extract_lets same
  split
  · exact ⟨_, rfl⟩
  · exact ⟨_, State.record_host ..⟩

theorem State.countedViolation_effect (s : State) (h : HostLink) (full : Bool) (reg : Nat) (w : Word) (v : Violation)
    (words : List Word) : ∃ t l, (({ s with host := h } : State).saturated full 0x0D 5 0 reg w).violated v 16 5 0 reg w words = t ∧
      t.host = { h with violations := l } ∧ t = ({ s with host := { h with violations := l } } : State).afterEvent t := by
  generalize ht : (({ s with host := h } : State).saturated full 0x0D 5 0 reg w).violated v 16 5 0 reg w words = t
  have hmoves : Moves [.trc, .host, .evr] ({ s with host := h } : State) t := by
    rw [← ht]
    exact (State.violated_moves ..).after (by decide) ((State.saturated_moves ..).widen (by decide))
  obtain ⟨l, hl⟩ := (({ s with host := h } : State).saturated full 0x0D 5 0 reg w).violated_host v 16 5 0 reg w words
  rw [State.saturated_host, ht] at hl
  refine ⟨t, l, rfl, hl, ?_⟩
  rw [← hl]
  exact hmoves.afterEvent_host

/-- The records of an hour's summary, one for each violation repeated. -/
def State.summarised (s : State) (l : List (Violation × Nat × Nat)) : State :=
  l.foldl (fun s v =>
    if v.2.2 = 0 then s
    else s.record 0x0D05 (if v.2.1 < 16 then 7 else 5) (if v.2.1 < 16 then v.2.1 else 0) (v.1.reg v.2.1) (nw v.2.2) []) s

theorem State.summarised_moves (s : State) (l : List (Violation × Nat × Nat)) : Moves [.trc, .evr] s (s.summarised l) :=
  .fold _ _ _ fun _ _ => .ite (.refl _ _) (State.record_moves ..)

theorem State.summarised_of_single (s : State) {l : List (Violation × Nat × Nat)} (h : l.all (fun v => v.2.2 == 0) = true) :
    s.summarised l = s := by
  induction l with
  | nil => rfl
  | cons v l ih =>
    obtain ⟨hv, hl⟩ := Bool.and_eq_true_iff.mp h
    rw [State.summarised, List.foldl_cons, if_pos (eq_of_beq hv)]
    exact ih hl

/-- Settles O48. -/
theorem hostViolations : Obligations.HostViolations := by
  refine ⟨fun s f d q hp hcq hq hv => ?_, fun s f d q hp hcq hq hv hroom => ?_, fun s f d q hp hcq hq hv => ?_, fun s f d hp hcq hq => ?_,
    fun s f hdr => ?_, fun s f hdr => ?_, fun s x hdr c hc hends => ?_, fun s x hdr c hc hread => ?_, fun s x hdr c hc hends => ?_,
    fun s x hdr c hc hread => ?_, fun s hdr => ?_, fun s => ?_, fun s hdr => ?_, fun s => ?_⟩
  · -- DOORBELL_WRITE of a submission queue
    exact ⟨_, execDoorbellWrite_sq hp hcq hq hv, State.modFn_same .., fun g hg => State.modFn_other _ _ hg, rfl⟩
  · -- DOORBELL_WRITE of a completion queue
    exact ⟨_, execDoorbellWrite_cq hp hcq hq hv hroom, State.modFn_same .., fun g hg => State.modFn_other _ _ hg, rfl⟩
  · -- DOORBELL_WRITE with a bad value
    obtain ⟨full, words, ht⟩ := execDoorbellWrite_value hp hcq hq hv
    obtain ⟨hfn, hshape⟩ := s.refusedDoorbell_effect f (fun x => { x with dbValCnt := inc 16 x.dbValCnt }) ⟨0, 1, 1⟩ .dbVal full words rfl
    obtain ⟨hval, hreg, hsqs⟩ := FnState.of_sansEvents hfn
    exact ⟨_, ht, hval, hreg, hsqs, hshape⟩
  · -- DOORBELL_WRITE of no queue
    obtain ⟨full, words, ht⟩ := execDoorbellWrite_register hp hcq hq
    obtain ⟨hfn, hshape⟩ := s.refusedDoorbell_effect f (fun x => { x with dbRegCnt := inc 16 x.dbRegCnt }) ⟨0, 0, 1⟩ .dbReg full words rfl
    obtain ⟨hval, hreg, hsqs⟩ := FnState.of_sansEvents hfn
    exact ⟨_, ht, hreg, hval, hsqs, hshape⟩
  · -- TLP_MALFORMED
    exact ⟨_, rfl, s.countedRequest_effect f _ _ .mal 1 _ _ rfl⟩
  · -- UNSUPPORTED_REQUEST
    exact ⟨_, rfl, s.countedRequest_effect f _ _ .ur 1 _ _ rfl⟩
  · -- COMPLETION_TIMEOUT
    obtain ⟨hctx, hends⟩ := State.transferFailed_ends hc hends
    obtain ⟨full, ht⟩ := execCompletionTimeout_of_ctx hdr hc
    obtain ⟨hq, hfn, hother, hshape⟩ := s.countedTransfer_effect x c.fn (fun y => { y with ctoCnt := inc 16 y.ctoCnt }) .cto full
      (hdrWords hdr) rfl
    refine ⟨_, ht, ?_, ?_, hfn, hother, hshape⟩
    · rw [State.ctx, hq]
      exact hctx
    · rw [hq]
      exact hends
  · -- COMPLETION_TIMEOUT of a read
    obtain ⟨full, ht⟩ := execCompletionTimeout_of_ctx hdr hc
    exact ⟨_, ht, s.countedTransfer_effect x c.fn (fun y => { y with ctoCnt := inc 16 y.ctoCnt }) .cto full (hdrWords hdr) rfl⟩
  · -- POISONED_COMPLETION
    obtain ⟨hctx, hends⟩ := State.transferFailed_ends hc hends
    obtain ⟨full, ht⟩ := execPoisonedCompletion_of_ctx hdr hc
    obtain ⟨hq, hfn, hother, hshape⟩ := s.countedTransfer_effect x c.fn (fun y => { y with poisCnt := inc 16 y.poisCnt }) .pois full
      (hdrWords hdr) rfl
    refine ⟨_, ht, ?_, ?_, hfn, hother, hshape⟩
    · rw [State.ctx, hq]
      exact hctx
    · rw [hq]
      exact hends
  · -- POISONED_COMPLETION of a read
    obtain ⟨full, ht⟩ := execPoisonedCompletion_of_ctx hdr hc
    exact ⟨_, ht, s.countedTransfer_effect x c.fn (fun y => { y with poisCnt := inc 16 y.poisCnt }) .pois full (hdrWords hdr) rfl⟩
  · -- SMBUS_PEC_ERROR
    obtain ⟨t, l, ht, hl, hshape⟩ := s.countedViolation_effect { s.host with pecErrCnt := inc 16 s.host.pecErrCnt }
      (reaches 16 s.host.pecErrCnt) 0x6001C _ .pec (hdrWords hdr)
    exact ⟨t, congrArg Host.Outcome.next ht, congrArg HostLink.pecErrCnt hl, by rw [hl]; exact hshape⟩
  · -- SMBUS_CLOCK_TIMEOUT
    obtain ⟨t, l, ht, hl, hshape⟩ := s.countedViolation_effect { s.host with smbTmoCnt := inc 16 s.host.smbTmoCnt }
      (reaches 16 s.host.smbTmoCnt) 0x6001C _ .smb [0, 0, 0, 0]
    exact ⟨t, congrArg Host.Outcome.next ht, congrArg HostLink.smbTmoCnt hl, by rw [hl]; exact hshape⟩
  · -- MCTP_MALFORMED
    obtain ⟨t, l, ht, hl, hshape⟩ := s.countedViolation_effect { s.host with mctpMalCnt := inc 16 s.host.mctpMalCnt }
      (reaches 16 s.host.mctpMalCnt) 0x60020 _ .mctp (hdrWords hdr)
    exact ⟨t, congrArg Host.Outcome.next ht, congrArg HostLink.mctpMalCnt hl, by rw [hl]; exact hshape⟩
  · -- VIOLATION_HOUR_SUMMARY
    refine ⟨_, rfl, (State.summarised_moves ..).afterEvent, fun h => ?_⟩
    show ((s.modHost fun h => { h with violations := [] }).summarised s.host.violations).trc = _ ∧
      ((s.modHost fun h => { h with violations := [] }).summarised s.host.violations).evr = _
    rw [State.summarised_of_single _ h]
    exact ⟨rfl, rfl⟩

end Sys2Proof.Machine
end

section
/-! SUPPORT. The microwords that use comparators, and traps, holds and restarts (11_track_sequencer.md). -/

namespace Sys2Proof.Machine
open Sys2Proof
set_option Elab.async false

/-! ### Comparators -/

theorem State.modEng_same (s : State) (a : Eng) (f : Engine → Engine) : (s.modEng a f).eng[a] = f s.eng[a] := vmod_same s.eng a f

theorem State.modEng_other (s : State) (f : Engine → Engine) {a b : Eng} (h : a ≠ b) : (s.modEng a f).eng[b] = s.eng[b] :=
  vmod_other s.eng f h

theorem State.modSeq_same (s : State) (a : Eng) (f : Sequencer → Sequencer) :
    (s.modSeq a f).eng[a] = { s.eng[a] with seq := f s.eng[a].seq } := s.modEng_same a _

/-- A move within the engines and an event. -/
theorem Moves.afterEvent_eng {s t : State} (h : Moves [.reel, .links, .recv, .wrg, .engSrv, .seq, .zdc, .core, .trc, .evr] s t) :
    t = ({ s with eng := t.eng } : State).afterEvent t :=
  h.eq_of_parts rfl fun x => by cases x <;> first | rfl | exact fun _ => rfl

theorem Moves.afterEvent_seq {s u t : State} (h1 : Moves [.seq] s u) (h2 : Moves [.trc, .evr] u t) :
    t = ({ s with eng := t.eng } : State).afterEvent t :=
  (h2.after (by decide) (h1.widen (n := [.reel, .links, .recv, .wrg, .engSrv, .seq, .zdc, .core, .trc, .evr]) (by decide))).afterEvent_eng

/-- A move that names no part of the engines keeps each of them. -/
theorem Moves.engine_eq {m : List Part} {s t : State} (h : Moves m s t)
    (hm : (m.all fun x => !([.reel, .links, .recv, .wrg, .engSrv, .seq, .zdc, .core] : List Part).contains x) = true) (a : Eng) :
    t.eng[a] = s.eng[a] := by
  have hno : ∀ x ∈ ([.reel, .links, .recv, .wrg, .engSrv, .seq, .zdc, .core] : List Part), m.contains x = false := fun x hx =>
    Bool.eq_false_iff.mpr fun hc => by
      have := List.all_eq_true.mp hm x (List.contains_iff_mem.mp hc)
      rw [List.contains_iff_mem.mpr hx] at this
      exact absurd this (by decide)
  exact Engine.eq_of_blocks (h.reel_eq (hno _ (by decide)) a) (h.links_eq (hno _ (by decide)) a) (h.recv_eq (hno _ (by decide)) a)
    (h.wrg_eq (hno _ (by decide)) a) (h.engSrv_eq (hno _ (by decide)) a) (h.seq_eq (hno _ (by decide)) a)
    (h.zdc_eq (hno _ (by decide)) a) (h.core_eq (hno _ (by decide)) a)

/-- A comparator changed: that comparator as changed, the others, the sequencer and the other engines as before. -/
theorem State.modCmp_effect (s : State) (a : Eng) (c : CmpIx) (f : Comparator → Comparator) :
    (s.modCmp a c f).eng[a].reel.cmp[c] = f s.eng[a].reel.cmp[c] ∧
    (∀ d, c ≠ d → (s.modCmp a c f).eng[a].reel.cmp[d] = s.eng[a].reel.cmp[d]) ∧ (s.modCmp a c f).eng[a].seq = s.eng[a].seq ∧
    (∀ b, a ≠ b → (s.modCmp a c f).eng[b] = s.eng[b]) ∧ s.modCmp a c f = { s with eng := (s.modCmp a c f).eng } := by
  have hsame : (s.modCmp a c f).eng[a] = { s.eng[a] with reel := { s.eng[a].reel with cmp := vmod s.eng[a].reel.cmp c f } } :=
    s.modEng_same a _
  refine ⟨?_, fun d hd => ?_, ?_, fun b hb => s.modEng_other _ hb, rfl⟩
  · rw [hsame]
    exact vmod_same ..
  · rw [hsame]
    exact vmod_other _ _ hd
  · rw [hsame]

/-- Comparator 16 + c armed, the one comparator and its tags. -/
structure ArmedBy (s t : State) (a : Eng) (c : Fin 32) (x : SeqArm) (rep : BitVec 16) : Prop where
  cmp : t.eng[a].reel.cmp[seqCmp c] = { s.eng[a].reel.cmp[seqCmp c] with
    armed := true, action := x.action, headMask := x.mask, repeat_ := rep, target := x.target, loWritten := false, hiWritten := false
    armedAt := some s.mtime }
  tags : t.eng[a].seq.tags[c] = { fired := false, stb := x.stb, final := x.final, sstart := x.sstart, frag := x.frag }
  stall : t.eng[a].seq.stall = s.eng[a].seq.stall
  others : ∀ d, seqCmp c ≠ d → t.eng[a].reel.cmp[d] = s.eng[a].reel.cmp[d]
  engines : ∀ b, a ≠ b → t.eng[b] = s.eng[b]
  rest : t = { s with eng := t.eng }

theorem State.armSeq_armedBy {s : State} (a : Eng) (c : Fin 32) {x : SeqArm} (rep : BitVec 16)
    (h : (x.refusable && reached (s.angle a) x.target.linear) = false) : ArmedBy s (s.armSeq a c x rep) a c x rep := by
  unfold State.armSeq
  rw [if_neg (ne_true_of_eq_false h)]
  extract_lets s1
  obtain ⟨hcmp, hcmps, hseq, hengs, hrest⟩ := s.modCmp_effect a (seqCmp c) fun k =>
    { k with
      armed := true, action := x.action, headMask := x.mask, repeat_ := rep, target := x.target, loWritten := false, hiWritten := false
      armedAt := some s.mtime }
  generalize hq : (fun q : Sequencer => ({ q with
    jobArmed := if c = 0 then q.jobS else q.jobArmed
    tags := vset q.tags c { fired := false, stb := x.stb, final := x.final, sstart := x.sstart, frag := x.frag } } : Sequencer)) = f
  have hsame := s1.modSeq_same a f
  exact {
    cmp := by
      rw [hsame]
      exact hcmp
    tags := by
      rw [hsame, ← hq]
      exact vset_same ..
    stall := by
      rw [hsame, ← hq]
      show s1.eng[a].seq.stall = _
      rw [show s1.eng[a].seq = s.eng[a].seq from hseq]
    others := fun d hd => by
      rw [hsame]
      exact hcmps d hd
    engines := fun b hb => (s1.modEng_other _ hb).trans (hengs b hb)
    rest := rfl }

/-- An arm past its target, where no write gate is concerned, is refused and counted. -/
theorem State.armSeq_refused {s : State} {a : Eng} (c : Fin 32) {x : SeqArm} (rep : BitVec 16) (haction : x.action = 1)
    (h : reached (s.angle a) x.target.linear = true) : Moves [.trc, .evr]
      (s.modSeq a fun q => { q with late := true, lateArmCnt := inc 32 s.eng[a].seq.lateArmCnt }) (s.armSeq a c x rep) := by
  have href : (x.refusable && reached (s.angle a) x.target.linear) = true := by
    rw [h, SeqArm.refusable, haction]
    rfl
  unfold State.armSeq
  rw [if_pos href]
  extract_lets n s1 s2
  rw [if_neg (by rw [haction]; simp)]
  have h1 : s1 = s.modSeq a fun q => { q with late := true, lateArmCnt := inc 32 s.eng[a].seq.lateArmCnt } := s.modEng_congr a rfl
  rw [← h1]
  exact State.saturated_moves ..

/-- The comparators that DISM may disarm: 17 to 47. -/
theorem cmpSeq_iff (c : CmpIx) : cmpSeq c = true ↔ 16 ≤ c.val ∧ c.val < 48 := by
  unfold cmpSeq cmpOwner
  constructor
  · intro h
    split_ifs at h <;> simp_all
  · rintro ⟨h1, h2⟩
    simp only [show ¬c.val < 2 by omega, show ¬c.val = 2 by omega, show ¬c.val < 5 by omega, show ¬c.val < 8 by omega,
      show ¬c.val = 8 by omega, show ¬c.val < 16 by omega, h2, if_true, if_false]
    rfl

theorem State.disarmWhere_effect (s : State) (a : Eng) (f : CmpIx → Bool) :
    (∀ c, f c = true → (s.disarmWhere a f).eng[a].reel.cmp[c].armed = false) ∧
    (∀ c, f c = false → (s.disarmWhere a f).eng[a].reel.cmp[c] = s.eng[a].reel.cmp[c]) ∧
    (∀ b, a ≠ b → (s.disarmWhere a f).eng[b] = s.eng[b]) ∧ s.disarmWhere a f = { s with eng := (s.disarmWhere a f).eng } := by
  have hsame : (s.disarmWhere a f).eng[a] = { s.eng[a] with
      reel := { s.eng[a].reel with cmp := Vector.ofFn fun (i : CmpIx) => if f i then s.eng[a].reel.cmp[i].disarm else s.eng[a].reel.cmp[i] } } :=
    s.modEng_same a _
  have hcmp : ∀ c : CmpIx, (s.disarmWhere a f).eng[a].reel.cmp[c] =
      if f c then s.eng[a].reel.cmp[c].disarm else s.eng[a].reel.cmp[c] := fun c => by
    rw [hsame]
    exact Vector.getElem_ofFn c.isLt
  refine ⟨fun c hc => ?_, fun c hc => ?_, fun b hb => s.modEng_other _ hb, rfl⟩
  · rw [hcmp, if_pos hc]
    rfl
  · rw [hcmp, if_neg (ne_true_of_eq_false hc)]

/-! ### Trap entry (R389 to R391) -/

/-- A sequencer but for RUN_END. -/
def Sequencer.sansEnd (q : Sequencer) : Sequencer := { q with runEnd := false }

theorem Moves.keptSeq {m : List Part} {s t : State} (h : Moves m s t) (hm : m.contains .seq = false) (a : Eng) :
    Kept (fun s => s.eng[a].seq.sansEnd) s t := congrArg Sequencer.sansEnd (h.seq_eq hm a)

theorem State.modSeq_sansEnd (s : State) (a b : Eng) {f : Sequencer → Sequencer} (h : ∀ q, (f q).sansEnd = q.sansEnd) :
    Kept (fun s => s.eng[a].seq.sansEnd) s (s.modSeq b f) := by
  by_cases hb : b = a
  · subst hb
    exact (congrArg Sequencer.sansEnd (s.modSeq_effect b f).1).trans (h _)
  · exact congrArg (fun e : Engine => e.seq.sansEnd) ((s.modSeq_effect b f).2.1 a hb)

theorem State.runEnded_sansEnd (s : State) (a : Eng) (g : Head) : Kept (fun s => s.eng[a].seq.sansEnd) s (s.runEnded g) := by
  unfold State.runEnded
  split
  · rfl
  · exact .ite (s.modSeq_sansEnd a _ fun _ => rfl) .refl

theorem State.forceWriteOff_sansEnd (s : State) (a : Eng) (g : Head) (clear : Angle) (ends safe : Bool) :
    Kept (fun s => s.eng[a].seq.sansEnd) s (s.forceWriteOff g clear ends safe) := by
  unfold State.forceWriteOff
  extract_lets w sus s1 s2 s3 s4
  have h1 : Kept (fun s => s.eng[a].seq.sansEnd) s s1 := .ite ((State.strobeHead_moves ..).keptSeq rfl a) .refl
  have h2 : Kept (fun s => s.eng[a].seq.sansEnd) s1 s2 :=
    .ite (((State.strobeHead_moves ..).keptSeq rfl a).trans ((State.modWr_moves ..).keptSeq rfl a)) .refl
  have h3 : Kept (fun s => s.eng[a].seq.sansEnd) s2 s3 := (State.modWr_moves ..).keptSeq rfl a
  have h4 : Kept (fun s => s.eng[a].seq.sansEnd) s3 s4 := (State.suspect_moves ..).keptSeq rfl a
  exact (h1.trans (h2.trans (h3.trans h4))).trans <|
    .ite (((State.modWr_moves ..).keptSeq rfl a).trans ((State.runEnded_sansEnd ..).trans ((State.deactivate_moves ..).keptSeq rfl a))) .refl

theorem State.enterTrap_effect (s : State) (a : Eng) (i : Fin 4) : (s.enterTrap a i true).eng[a].seq.state = .trap ∧
    (s.enterTrap a i true).eng[a].seq.bank = 1 ∧ (s.enterTrap a i true).eng[a].seq.upc = 0x10 + 4 * (i.val + 1) ∧
    (s.enterTrap a i true).eng[a].seq.tsv = s.savedTrap a (i.val + 1) ∧
    (s.enterTrap a i true).eng[a].seq.savedWait = s.eng[a].seq.waitDone ∧ (s.enterTrap a i true).eng[a].seq.waitDone = false ∧
    (s.enterTrap a i true).eng[a].seq.trapPend.getLsbD i.val = false ∧ (s.enterTrap a i true).eng[a].seq.trapHeads = s.trapHeads a ∧
    (s.enterTrap a i true).eng[a].wrg.trapMask = s.trapHeads a := by
  unfold State.enterTrap
  extract_lets code m out tsv s1 s2 s3 s4
  have h1 : s1.eng[a].seq = { s.eng[a].seq with tsv := tsv, savedWait := s.eng[a].seq.waitDone, trapFired := [] } :=
    (s.modSeq_effect a _).1
  have h2 : s2.eng[a].seq.sansEnd = s1.eng[a].seq.sansEnd := Kept.fold _ _ _ fun s g => s.forceWriteOff_sansEnd a g _ _ _
  have h3 : s3.eng[a].seq.sansEnd = s2.eng[a].seq.sansEnd :=
    Kept.fold (g := fun s => s.eng[a].seq.sansEnd) _ _ _ fun s c => (State.disarmSeq_moves ..).keptSeq rfl a
  have h4 : s4.eng[a].seq.sansEnd = s3.eng[a].seq.sansEnd := (State.modWrg_moves ..).keptSeq rfl a
  have hwrg : s4.eng[a].wrg.trapMask = m := congrArg (fun e : Engine => e.wrg.trapMask) (s3.modEng_same a _)
  have hold : s4.eng[a].seq.sansEnd = s1.eng[a].seq.sansEnd := h4.trans (h3.trans h2)
  have htsv : s4.eng[a].seq.tsv = tsv := (congrArg Sequencer.tsv hold).trans (congrArg Sequencer.tsv h1)
  have hwait : s4.eng[a].seq.savedWait = s.eng[a].seq.waitDone :=
    (congrArg Sequencer.savedWait hold).trans (congrArg Sequencer.savedWait h1)
  clear_value s4
  generalize hf : (fun q : Sequencer => _) = f
  have hsame := s4.modSeq_same a f
  rw [hsame, ← hf]
  refine ⟨rfl, rfl, rfl, htsv, hwait, rfl, ?_, rfl, hwrg⟩
  have hi : i.val < 4 := i.isLt
  simp [hi]

/-! ### Causes and restarts (R389, R395) -/

theorem State.trapCause_effect (s : State) (a : Eng) (code : Nat)
    (h : s.eng[a].seq.state = .run ∨ s.eng[a].seq.state = .trap ∨ s.eng[a].seq.state = .hold) :
    (s.trapCause a code).eng[a].seq = { s.eng[a].seq with trapPend := s.eng[a].seq.trapPend ||| (1 <<< (code - 1)) } ∧
    (∀ b, a ≠ b → (s.trapCause a code).eng[b] = s.eng[b]) ∧ s.trapCause a code = { s with eng := (s.trapCause a code).eng } := by
  obtain ⟨hseq, hrest⟩ := s.modSeq_effect a fun q =>
    if q.state = .run ∨ q.state = .trap ∨ q.state = .hold then { q with trapPend := q.trapPend ||| (1 <<< (code - 1)) } else q
  exact ⟨hseq.trans (if_pos h), hrest⟩

/-- A hold that brought no words: the sequencer goes on from the store it has. -/
theorem Sequencer.resumed_of_plain {q : Sequencer} (h : q.holdImage = none) :
    (let r : Sequencer := match q.holdImage with
      | some (ver, lvl, words) => { q with store := writeStore q.store words, storeVer := ver, patchLvl := lvl }
      | none => q
    { r with state := .run, upc := 8, waitDone := false, holdReq := false, holdImage := none }) =
      { q with state := .run, upc := 8, waitDone := false, holdReq := false } := by
  rw [h]

theorem State.modSeq_angle (s : State) (a b : Eng) (f : Sequencer → Sequencer) : (s.modSeq a f).angle b = s.angle b :=
  congrArg (fun r : Reel => r.stamp.linear) ((s.modSeq_moves a f).reel_eq rfl b)

theorem State.startSeq_effect (s : State) (a : Eng) (pc : Nat) : (s.startSeq a pc).eng[a].seq.state = .run ∧
    (s.startSeq a pc).eng[a].seq.upc = pc ∧ (s.startSeq a pc).eng[a].seq.bank = 0 ∧ (s.startSeq a pc).eng[a].seq.jobPend = 0 ∧
    (s.startSeq a pc).eng[a].seq.store = s.eng[a].seq.store ∧ (s.startSeq a pc).eng[a].seq.fq = s.eng[a].seq.fq := by
  unfold State.startSeq State.startJobs
  extract_lets js now w w2 s1
  have h1 : s1.eng[a].seq = { s.eng[a].seq with
      state := .run, bank := 0, upc := pc, waitDone := false, stall := none, gatesForced := false } := by
    rw [(State.armFixed_moves ..).seq_eq rfl a, State.modSeq_same]
  rw [State.modSeq_same, h1]
  exact ⟨rfl, rfl, rfl, rfl, rfl, rfl⟩

/-- Settles O39. -/
theorem sequencerComparators : Obligations.SequencerComparators := by
  refine ⟨fun s a x h hact href => ?_, fun s a x h hact hreach => ?_, fun s a x rep h hact href => ?_, fun s a x c h hact href hfree => ?_,
    fun s a x h hact hfree => ?_, fun s a x c hstall hfree href => ?_, fun s a c h => ?_, fun s a f m h => ?_,
    fun s a f m h => completes_seqOp h rfl, fun s a hp hrun => ?_, fun s a h hrun hwait hon hlong => ?_, fun s a i hp hrun hstall hnext => ?_,
    fun s a hp hmchk => ?_, fun s a hp hreq hrun hwait hon hjob htrap hfits => ?_, fun s a hp hhold himage => ?_⟩
  · -- ARM
    have hby := State.armSeq_armedBy a x.csel 0 href
    refine completes_seqOp h ?_
    rw [if_neg (Nat.not_lt.mpr hact)]
    exact ⟨hby.cmp, hby.tags, hby.others, hby.engines, hby.rest⟩
  · -- ARM past its target
    have hmoves := State.armSeq_refused x.csel (x := s.eng[a].seq.arm x) 0 hact hreach
    refine completes_seqOp h ?_
    rw [if_neg (by omega)]
    refine ⟨?_, ?_, ?_⟩
    · rw [hmoves.seq_eq rfl a]
      exact (s.modSeq_effect a _).1
    · rw [hmoves.reel_eq rfl a, State.modSeq_same]
    · exact Moves.afterEvent_seq (State.modSeq_moves ..) hmoves
  · -- ARMR
    have hby := State.armSeq_armedBy a x.csel rep href
    refine completes_seqOp h ?_
    rw [if_neg (Nat.not_lt.mpr hact)]
    exact ⟨hby.cmp, hby.tags, hby.engines, hby.rest⟩
  · -- ARMF
    have hby := State.armSeq_armedBy a c 0 href
    refine completes_seqOp h ?_
    rw [if_neg (Nat.not_lt.mpr hact), State.armFree, hfree]
    exact ⟨hby.cmp, by rw [hby.tags], hby.engines, hby.rest⟩
  · -- ARMF with no comparator free
    refine completes_seqOp h ?_
    rw [if_neg (Nat.not_lt.mpr hact), State.armFree, hfree]
    exact s.modSeq_effect a _
  · -- ARMF_STALL_END
    obtain ⟨hseq, hengs, hrest⟩ := s.modSeq_effect a fun q => { q with stall := none }
    have hby := State.armSeq_armedBy (s := s.modSeq a fun q => { q with stall := none }) a c (x := x) 0 (by rw [← href, State.modSeq_angle])
    refine ⟨_, ?_, hby.stall.trans (congrArg (fun q : Sequencer => q.stall) hseq), ?_, fun b hb => (hby.engines b hb).trans (hengs b hb), ?_⟩
    · show execArmfStallEnd a s = _
      unfold execArmfStallEnd
      rw [hstall, hfree]
    · rw [hby.cmp, State.modSeq_same]
      rfl
    · rw [hby.rest]
      rfl
  · -- DIS
    refine completes_seqOp h ?_
    obtain ⟨hcmp, hcmps, -, hengs, hrest⟩ := s.modCmp_effect a (seqCmp c) Comparator.disarm
    exact ⟨hcmp, congrArg Comparator.armed hcmp, hcmps, hengs, hrest⟩
  · -- DISM
    refine completes_seqOp h ?_
    obtain ⟨hoff, hkeep, hengs, hrest⟩ := s.disarmWhere_effect a fun c =>
      cmpSeq c && decide (c.val ≠ 16) && decide (s.eng[a].reel.cmp[c].headMask &&& s.eng[a].seq.mask f m ≠ 0)
    refine ⟨fun c h17 h47 hmask => hoff c ?_, fun c hc => hkeep c ?_, hengs, hrest⟩
    · rw [(cmpSeq_iff c).mpr ⟨by omega, by omega⟩, decide_eq_true (show c.val ≠ 16 by omega), decide_eq_true hmask]
      rfl
    · have hseq := cmpSeq_iff c
      rcases hc with hc | hc | hc
      · by_cases h16 : c.val = 16
        · simp [h16]
        · rw [Bool.eq_false_iff.mpr fun h => absurd (hseq.mp h).1 (by omega)]
          rfl
      · rw [Bool.eq_false_iff.mpr fun h => absurd (hseq.mp h).2 (by omega)]
        rfl
      · rw [decide_eq_false (not_not.mpr hc), Bool.and_false]
  · -- CORE_TRAP_REQUEST
    obtain ⟨hseq, hengs, hrest⟩ := s.trapCause_effect a 4 (.inl hrun)
    refine ⟨_, congrArg Host.Outcome.next (if_pos hp), ?_, hengs, hrest⟩
    rw [hseq]
    simp
  · -- WAIT_TIMEOUT
    obtain ⟨hseq, hengs, hrest⟩ := s.trapCause_effect a 3 (.inl hrun)
    refine ⟨_, congrArg Host.Outcome.next (if_pos ?_), ?_, hengs, hrest⟩
    · simp only [h, hwait, bne_iff_ne.mpr hon, decide_eq_true hlong, Bool.and_self]
    · rw [hseq]
      simp
  · -- TRAP_ENTRY
    refine ⟨s.enterTrap a i true, congrArg Host.Outcome.next ((if_pos ⟨hp, hrun, hstall⟩).trans ?_), s.enterTrap_effect a i⟩
    rw [hnext]
  · -- SEQUENCER_RESTART
    refine ⟨_, congrArg Host.Outcome.next (if_pos ⟨hp, hmchk⟩), ?_⟩
    extract_lets s1
    obtain ⟨s2, hs2⟩ : ∃ s2, s2 = (s1.headsOf a).foldl State.dropHead s1 := ⟨_, rfl⟩
    have h1 : s1.eng[a].seq.store = s.storeCopy ∧ s1.eng[a].seq.fq = [] := by
      rw [show s1.eng[a] = _ from State.modSeq_same .., State.loadStore, State.modSeq_same]
      exact ⟨rfl, rfl⟩
    have h2 : s2.eng[a].seq = s1.eng[a].seq := by
      rw [hs2]
      exact (Moves.fold _ _ _ fun s g => s.dropHead_moves g).seq_eq rfl a
    rw [← hs2, (State.patchApplied_moves _).seq_eq rfl a]
    obtain ⟨hstate, hupc, hbank, hpend, hstore, hfq⟩ := s2.startSeq_effect a 4
    exact ⟨hstate, hupc, hbank, by rw [hstore, h2, h1.1], by rw [hfq, h2, h1.2], hpend⟩
  · -- SEQ_HOLD_ENTRY
    refine ⟨_, congrArg Host.Outcome.next (if_pos ?_), s.modSeq_effect a _⟩
    simp only [hp, hreq, hrun, hwait, hon, hjob, htrap, hfits, beq_self_eq_true, Bool.and_self]
  · -- SEQ_HOLD_RESUME
    refine ⟨_, congrArg Host.Outcome.next (if_pos ⟨hp, hhold⟩), ?_, fun b hb => ?_⟩
    · rw [(State.patchApplied_moves _).seq_eq rfl a, State.modSeq_same]
      exact Sequencer.resumed_of_plain himage
    · exact ((State.patchApplied_moves _).engine_eq rfl b).trans ((s.modSeq_effect a _).2.1 b hb)

end Sys2Proof.Machine
end

section
/-! SUPPORT. The arm link: frames, acknowledgements, training and strobes (03_arm_link.md). -/

namespace Sys2Proof.Machine
open Sys2Proof
set_option Elab.async false

/-! ### Links -/

theorem State.modLink_same (s : State) (a : Eng) (l : LinkIx) (f : ArmLink → ArmLink) :
    (s.modLink a l f).eng[a].links[l] = f s.eng[a].links[l] :=
  (congrArg (fun e : Engine => e.links[l]) (s.modEng_same a _)).trans (vmod_same ..)

theorem State.modLink_engines (s : State) (l : LinkIx) (f : ArmLink → ArmLink) {a b : Eng} (h : a ≠ b) :
    (s.modLink a l f).eng[b] = s.eng[b] := s.modEng_other _ h

/-- A change of links keeps what it keeps of each. -/
theorem State.modLink_kept {α : Type} (s : State) (a b : Eng) (l k : LinkIx) {f : ArmLink → ArmLink} (F : ArmLink → α)
    (h : ∀ x, F (f x) = F x) : Kept (fun s => F s.eng[a].links[l]) s (s.modLink b k f) := by
  by_cases hb : b = a
  · subst hb
    have hlinks : (s.modLink b k f).eng[b].links = vmod s.eng[b].links k f := congrArg Engine.links (s.modEng_same b _)
    by_cases hk : k = l
    · subst hk
      exact (congrArg F (s.modLink_same b k f)).trans (h _)
    · exact congrArg F ((congrArg (fun v : Vector ArmLink 2 => v[l]) hlinks).trans (vmod_other _ _ hk))
  · exact congrArg (fun e : Engine => F e.links[l]) (s.modLink_engines k f hb)

theorem Moves.keptLink {α : Type} {m : List Part} {s t : State} (h : Moves m s t) (hm : m.contains .links = false) (a : Eng) (l : LinkIx)
    (F : ArmLink → α) : Kept (fun s => F s.eng[a].links[l]) s t :=
  congrArg (fun v : Vector ArmLink 2 => F v[l]) (h.links_eq hm a)

theorem Moves.link_eq {m : List Part} {s t : State} (h : Moves m s t) (hm : m.contains .links = false) (a : Eng) (l : LinkIx) :
    t.eng[a].links[l] = s.eng[a].links[l] := h.keptLink hm a l fun k => k

/-! ### Strobes -/

/-- A link but for the strobes that wait. -/
def ArmLink.sansStrobes (k : ArmLink) : ArmLink := { k with strobeQ := [] }

theorem ArmLink.eq_of_sansStrobes {x y : ArmLink} (h : x.sansStrobes = y.sansStrobes) : x = { y with strobeQ := x.strobeQ } := by
  have hx : x = { x.sansStrobes with strobeQ := x.strobeQ } := rfl
  rw [hx, h]
  rfl

theorem State.strobe_sansStrobes (s : State) (a b : Eng) (l : LinkIx) (sym : ArmSym) (m : BitVec 12) :
    Kept (fun s => s.eng[a].links[l].sansStrobes) s (s.strobe b sym m) :=
  .fold _ _ _ fun s k => .ite (s.modLink_kept a b l k ArmLink.sansStrobes fun _ => rfl) .refl

theorem State.strobeHead_sansStrobes (s : State) (a : Eng) (l : LinkIx) (g : Head) (sym : ArmSym) :
    Kept (fun s => s.eng[a].links[l].sansStrobes) s (s.strobeHead g sym) := by
  unfold State.strobeHead
  split
  · exact s.strobe_sansStrobes ..
  · rfl

theorem State.forceWriteOff_sansStrobes (s : State) (a : Eng) (l : LinkIx) (g : Head) (clear : Angle) (ends safe : Bool) :
    Kept (fun s => s.eng[a].links[l].sansStrobes) s (s.forceWriteOff g clear ends safe) := by
  unfold State.forceWriteOff
  extract_lets w sus s1 s2 s3 s4
  have h1 : Kept (fun s => s.eng[a].links[l].sansStrobes) s s1 := .ite (State.strobeHead_sansStrobes ..) .refl
  have h2 : Kept (fun s => s.eng[a].links[l].sansStrobes) s1 s2 :=
    .ite ((State.strobeHead_sansStrobes ..).trans ((State.modWr_moves ..).keptLink rfl a l _)) .refl
  have h3 : Kept (fun s => s.eng[a].links[l].sansStrobes) s2 s3 := (State.modWr_moves ..).keptLink rfl a l _
  have h4 : Kept (fun s => s.eng[a].links[l].sansStrobes) s3 s4 := (State.suspect_moves ..).keptLink rfl a l _
  exact (h1.trans (h2.trans (h3.trans h4))).trans <| .ite (((State.modWr_moves ..).keptLink rfl a l _).trans
    (((State.runEnded_moves ..).keptLink rfl a l _).trans ((State.deactivate_moves ..).keptLink rfl a l _))) .refl

theorem State.forceWritesOff_sansStrobes (s : State) (a b : Eng) (l : LinkIx) (gs : List Head) (ends safe : Bool) :
    Kept (fun s => s.eng[a].links[l].sansStrobes) s (s.forceWritesOff b gs ends safe) :=
  .fold _ _ _ fun _ _ => State.forceWriteOff_sansStrobes ..

theorem State.writeDisable_sansStrobes (s : State) (a : Eng) (l : LinkIx) (g : Head) :
    Kept (fun s => s.eng[a].links[l].sansStrobes) s (s.writeDisable g) := by
  unfold State.writeDisable
  split
  · rfl
  · exact ((State.modWr_moves ..).keptLink rfl a l _).trans <| ((State.condWr_moves ..).keptLink rfl a l _).trans <|
      (State.forceWriteOff_sansStrobes ..).trans ((State.applyZoneRule_moves ..).keptLink rfl a l _)

theorem State.assistTrip_sansStrobes (s : State) (a : Eng) (l : LinkIx) (g : Head) :
    Kept (fun s => s.eng[a].links[l].sansStrobes) s (s.assistTrip g) := by
  unfold State.assistTrip
  extract_lets b w rev strikes s1 s2 s3
  have h1 : Kept (fun s => s.eng[a].links[l].sansStrobes) s s1 := State.forceWriteOff_sansStrobes ..
  have h2 : Kept (fun s => s.eng[a].links[l].sansStrobes) s1 s2 := (State.modWr_moves ..).keptLink rfl a l _
  have h3 : Kept (fun s => s.eng[a].links[l].sansStrobes) s2 s3 := (State.saturated_moves ..).keptLink rfl a l _
  exact (h1.trans (h2.trans h3)).trans (.ite (State.writeDisable_sansStrobes ..) .refl)

theorem State.assistGuard_sansStrobes (s : State) (a : Eng) (l : LinkIx) (g : Head) (seq : Byte) (mon : Nat) :
    Kept (fun s => s.eng[a].links[l].sansStrobes) s (s.assistGuard g seq mon) := by
  unfold State.assistGuard
  extract_lets w s1
  have h1 : Kept (fun s => s.eng[a].links[l].sansStrobes) s s1 := (State.modWr_moves ..).keptLink rfl a l _
  split
  · exact h1
  · exact h1.trans (.ite (.ite (State.assistTrip_sansStrobes ..) ((State.modWr_moves ..).keptLink rfl a l _)) .refl)

/-! ### Frames sent -/

theorem State.putFrame_link (s : State) (a : Eng) (l : LinkIx) (seq : Byte) (b : FrameBody) : ∃ cfg,
    (s.putFrame a l seq b).eng[a].links[l] = { s.eng[a].links[l] with tx := b.symbols seq, txConfig := cfg } :=
  ⟨_, s.modLink_same a l _⟩

theorem State.putFrame_kept {α : Type} (s : State) (a : Eng) (l : LinkIx) (seq : Byte) (b : FrameBody) (F : ArmLink → α)
    (h : ∀ (x : ArmLink) (tx : List ArmSym) (c : Bool), F { x with tx := tx, txConfig := c } = F x) :
    Kept (fun s => F s.eng[a].links[l]) s (s.putFrame a l seq b) := by
  obtain ⟨cfg, hlink⟩ := s.putFrame_link a l seq b
  exact (congrArg F hlink).trans (h ..)

/-- What sending a frame leaves of a link: what the AFE answered, and the state of training. -/
def ArmLink.answers (k : ArmLink) : BitVec 8 × Bool × TrainPhase × Bool := (k.lastAck, k.stale, k.phase, k.aligned)

theorem State.sendFrame_answers (s : State) (a : Eng) (l : LinkIx) (b : FrameBody) :
    Kept (fun s => s.eng[a].links[l].answers) s (s.sendFrame a l b) := by
  unfold State.sendFrame
  extract_lets seq f s1
  refine Kept.trans (t := s1) (s.modLink_kept a a l l ArmLink.answers fun x => ?_) (State.putFrame_kept _ _ _ _ _ _ fun _ _ _ => rfl)
  cases b <;> rfl

theorem ArmLink.grantAux_answers (k : ArmLink) (n : Nat) : (k.grantAux n).answers = k.answers := by
  induction n generalizing k with
  | zero => rfl
  | succ n ih =>
    unfold ArmLink.grantAux
    split
    · rfl
    · split
      · exact ih _
      · rfl

theorem State.launch_answers (s : State) (a : Eng) (l : LinkIx) : Kept (fun s => s.eng[a].links[l].answers) s (s.launch a l) := by
  refine .ite ?_ .refl
  extract_lets gs s1 s2 heads
  have h1 : Kept (fun s => s.eng[a].links[l].answers) s s1 :=
    .fold _ _ _ fun s g => (State.decideMode_moves ..).keptLink rfl a l _
  have h2 : Kept (fun s => s.eng[a].links[l].answers) s1 s2 :=
    s1.modLink_kept a a l l ArmLink.answers fun x => ArmLink.grantAux_answers _ _
  exact (h1.trans h2).trans (State.sendFrame_answers ..)

theorem State.nextFrame_answers (s : State) (a : Eng) (l : LinkIx) : Kept (fun s => s.eng[a].links[l].answers) s (s.nextFrame a l) := by
  unfold State.nextFrame
  extract_lets k
  refine .ite .refl (.ite (State.launch_answers ..) (.ite .refl ?_))
  split
  · exact .ite ((s.modLink_kept a a l l (f := fun k => { k with cfgDue := false }) ArmLink.answers fun _ => rfl).trans
      (State.putFrame_kept _ _ _ _ _ ArmLink.answers fun _ _ _ => rfl)) .refl
  · split
    next c rest _ =>
      exact (s.modLink_kept a a l l (f := fun k => { k with cfgQueue := rest }) ArmLink.answers fun _ => rfl).trans
        (State.sendFrame_answers ..)
    · rfl

/-- A link whose set-point frame has been answered. -/
def ArmLink.setPointAcked (k : ArmLink) (f : Frame) (aux : Vector (Option AuxSlot) 2) : ArmLink :=
  ({ k with
    frame := none, last := none, lastAck := f.seq, stale := false
    aux := Vector.ofFn fun (i : Fin 2) => if k.aux[i] = aux[i] then none else k.aux[i] } : ArmLink).grantAux 2

theorem ArmLink.setPointAcked_answers (k : ArmLink) (f : Frame) (aux : Vector (Option AuxSlot) 2) :
    (k.setPointAcked f aux).answers = (f.seq, false, k.phase, k.aligned) := ArmLink.grantAux_answers _ _

theorem State.acked_of_setPoint (s : State) (a : Eng) (l : LinkIx) {f : Frame} {w : Nat} {h : Vector HeadBlock 6}
    {x : Vector (Option AuxSlot) 2} (hf : f.body = .setPoint w h x) : s.acked a l f =
      ((fins 6).foldl (fun s (j : Fin 6) => match s.afeGlobal a l j with
        | some g => s.modeAck g h[j]
        | none => s) (s.modLink a l fun k => k.setPointAcked f x)).nextFrame a l := by
  unfold State.acked
  rw [hf]
  rfl

/-- An answered set-point frame: its SEQ is the last acknowledged, and the set-points are no longer stale. -/
theorem State.acked_setPoint (s : State) (a : Eng) (l : LinkIx) {f : Frame} {w : Nat} {h : Vector HeadBlock 6}
    {x : Vector (Option AuxSlot) 2} (hf : f.body = .setPoint w h x) : (s.acked a l f).eng[a].links[l].lastAck = f.seq ∧
      (s.acked a l f).eng[a].links[l].stale = false := by
  rw [s.acked_of_setPoint a l hf]
  generalize hs1 : (s.modLink a l fun k => k.setPointAcked f x) = s1
  generalize hs2 : (fins 6).foldl _ s1 = s2
  have h1 : s1.eng[a].links[l].answers = (f.seq, false, s.eng[a].links[l].phase, s.eng[a].links[l].aligned) := by
    rw [← hs1, State.modLink_same]
    exact ArmLink.setPointAcked_answers ..
  have h2 : s2.eng[a].links[l].answers = s1.eng[a].links[l].answers := by
    rw [← hs2]
    refine Kept.fold (g := fun s => s.eng[a].links[l].answers) _ _ _ fun s j => ?_
    split
    · exact (State.modeAck_moves ..).keptLink rfl a l _
    · rfl
  have h3 : (s2.nextFrame a l).eng[a].links[l].answers = (f.seq, false, s.eng[a].links[l].phase, s.eng[a].links[l].aligned) :=
    Eq.trans (s2.nextFrame_answers a l) (h2.trans h1)
  exact ⟨congrArg Prod.fst h3, congrArg (fun y => y.2.1) h3⟩

theorem State.configAcked_up {s : State} {a : Eng} {l : LinkIx} (f : Frame) (hup : s.eng[a].links[l].state = .up) :
    (s.configAcked a l f).eng[a].links[l].lastAck = f.seq := by
  unfold State.configAcked
  extract_lets s1 k
  have h1 : s1.eng[a].links[l] = { s.eng[a].links[l] with cfg := none, cfgDue := false, lastAck := f.seq } := s.modLink_same a l _
  rw [if_neg (by rw [show k = s1.eng[a].links[l] from rfl, h1, hup]; decide)]
  have h2 := (s1.nextFrame_answers a l)
  exact (congrArg Prod.fst h2).trans (congrArg ArmLink.lastAck h1)

/-- An attempt failed before the fourth: the frame goes out again. -/
theorem State.attemptFailed_retry {s : State} {a : Eng} {l : LinkIx} {f : Frame} (hf : s.eng[a].links[l].frame = some f)
    (hatt : f.attempts < 4) : (∃ cfg, (s.attemptFailed a l).eng[a].links[l] = { s.eng[a].links[l] with
      frame := some { f with attempts := f.attempts + 1 }, tx := f.body.symbols f.seq, txConfig := cfg }) ∧
    (s.attemptFailed a l).out.frames = (a, l, f.seq, f.body) :: s.out.frames := by
  unfold State.attemptFailed
  rw [hf]
  dsimp only
  rw [if_pos hatt]
  obtain ⟨cfg, hlink⟩ := (s.modLink a l fun k => { k with frame := some { f with attempts := f.attempts + 1 } }).putFrame_link a l f.seq f.body
  rw [hlink, State.modLink_same]
  exact ⟨⟨cfg, rfl⟩, rfl⟩

theorem State.sendFrame_config (s : State) (a : Eng) (l : LinkIx) (c : CfgFrame) :
    (s.sendFrame a l (.config c)).eng[a].links[l].cfg = some { seq := s.eng[a].links[l].seq + 1, attempts := 1, body := .config c } ∧
    (s.sendFrame a l (.config c)).eng[a].links[l].tx = (FrameBody.config c).symbols (s.eng[a].links[l].seq + 1) ∧
    (s.sendFrame a l (.config c)).eng[a].links[l].seq = s.eng[a].links[l].seq + 1 ∧
    (s.sendFrame a l (.config c)).eng[a].links[l].cfgQueue = s.eng[a].links[l].cfgQueue := by
  unfold State.sendFrame
  extract_lets seq f s1
  obtain ⟨cfg, hlink⟩ := s1.putFrame_link a l seq (.config c)
  have h1 : s1.eng[a].links[l] = { s.eng[a].links[l] with seq := seq, cfg := some f, cfgDue := false, last := none } :=
    s.modLink_same a l _
  rw [hlink, h1]
  exact ⟨rfl, rfl, rfl, rfl⟩

/-! ### Counted answers -/

theorem State.nakCounted_link (s : State) (a : Eng) (l : LinkIx) :
    ((s.modLink a l fun k => { k with nakCnt := inc 32 k.nakCnt }).alkFull a l 0 s.eng[a].links[l].nakCnt).eng[a].links[l] =
      { s.eng[a].links[l] with nakCnt := inc 32 s.eng[a].links[l].nakCnt } ∧
    ((s.modLink a l fun k => { k with nakCnt := inc 32 k.nakCnt }).alkFull a l 0 s.eng[a].links[l].nakCnt).out = s.out :=
  ⟨((State.alkFull_moves ..).link_eq rfl a l).trans (s.modLink_same a l _), (State.alkFull_moves ..).out_eq rfl⟩

/-- An answer that did not come is counted and recorded. -/
def State.ackTimeoutCounted (s : State) (a : Eng) (l : LinkIx) (f : Frame) : State :=
  ((s.modLink a l fun k => { k with ackTmoCnt := inc 32 k.ackTmoCnt }).alkViolation a l 2 [nw f.seq.toNat]).alkFull a l 2
    s.eng[a].links[l].ackTmoCnt

theorem State.ackTimeoutCounted_link (s : State) (a : Eng) (l : LinkIx) (f : Frame) :
    (s.ackTimeoutCounted a l f).eng[a].links[l] = { s.eng[a].links[l] with ackTmoCnt := inc 32 s.eng[a].links[l].ackTmoCnt } ∧
    (s.ackTimeoutCounted a l f).out = s.out := by
  have hm := (State.alkFull_moves ((s.modLink a l fun k => { k with ackTmoCnt := inc 32 k.ackTmoCnt }).alkViolation a l 2 [nw f.seq.toNat])
    a l 2 s.eng[a].links[l].ackTmoCnt).after (by decide) (State.alkViolation_moves ..)
  exact ⟨(hm.link_eq rfl a l).trans (s.modLink_same a l _), hm.out_eq rfl⟩

theorem State.trainPhase_link (s : State) (a : Eng) (l : LinkIx) : (s.trainPhase a l .readId).eng[a].links[l].phase = .readId ∧
    (s.trainPhase a l .readId).eng[a].links[l].aligned = s.eng[a].links[l].aligned := by
  unfold State.trainPhase
  extract_lets s1
  have h1 : s1.eng[a].links[l] = { s.eng[a].links[l] with phase := .readId } := s.modLink_same a l _
  have h2 := s1.sendFrame_answers a l (.config { write := false, head := 0, addr := 0x00, value := 0 })
  have h3 : (s1.sendFrame a l (.config { write := false, head := 0, addr := 0x00, value := 0 })).eng[a].links[l].answers =
      s1.eng[a].links[l].answers := h2
  rw [h1] at h3
  exact ⟨congrArg (fun y => y.2.2.1) h3, congrArg (fun y => y.2.2.2) h3⟩

/-! ### Status frames (R94 to R99) -/

theorem State.symErrors_link (s : State) (a : Eng) (l : LinkIx) (n : Nat) : ∃ c, (n ≠ 0 → c = satAdd 32 s.eng[a].links[l].symErrCnt n) ∧
    (s.symErrors a l n).eng[a].links[l] = { s.eng[a].links[l] with symErrCnt := c } := by
  unfold State.symErrors
  split
  next hn => exact ⟨s.eng[a].links[l].symErrCnt, fun h => absurd hn h, rfl⟩
  next hn =>
    refine ⟨_, fun _ => rfl, ?_⟩
    exact (((State.saturated_moves ..).after (by decide) (State.alkViolation_moves ..)).link_eq rfl a l).trans (s.modLink_same a l _)

theorem State.statusGood_link (s : State) (a : Eng) (l : LinkIx) (fr : StatusFrame) : ∃ htr mon mask cond q,
    (s.statusGood a l fr).eng[a].links[l] = { s.eng[a].links[l] with
      flt := fr.recs.map recFlt, htrSense := htr, assistMon := mon, afeTemp := fr.temp, afeSafe := fr.flags.getLsbD 0
      sampleLost := false, statSeq := fr.seq, faultMask := mask, faultCond := cond, strobeQ := q } := by
  unfold State.statusGood
  extract_lets mask s1
  have h1 := s.modLink_same a l fun k => { k with
      flt := fr.recs.map recFlt, htrSense := fr.recs.map fun w => BitVec.ofNat 12 (fld w 19 8)
      assistMon := fr.recs.map fun w => BitVec.ofNat 12 (fld w 31 20)
      afeTemp := fr.temp, afeSafe := fr.flags.getLsbD 0, sampleLost := false, statSeq := fr.seq, faultMask := mask
      faultCond := k.faultCond &&& mask }
  generalize ht : (fins 6).foldl _ s1 = t
  have h2 : t.eng[a].links[l].sansStrobes = s1.eng[a].links[l].sansStrobes := by
    rw [← ht]
    refine Kept.fold (g := fun s => s.eng[a].links[l].sansStrobes) _ _ _ fun s j => ?_
    split
    · exact State.assistGuard_sansStrobes ..
    · rfl
  rw [ArmLink.eq_of_sansStrobes h2, h1]
  exact ⟨_, _, _, _, _, rfl⟩

/-! ### Links down (R97, R98) -/

/-- A link taken down. -/
def ArmLink.down (k : ArmLink) : ArmLink :=
  { k with
    state := .down, frame := none, last := none, cfg := none, cfgDue := false, tx := [], strobeQ := [], strobeMask := none
    launchDue := false, phase := .commas, aligned := false, trainAtt := if k.state = .up then 0 else k.trainAtt }

/-- A link whose commas are lost, before a failed attempt is counted. -/
theorem execArmLinkDown_of_comma {s : State} {a : Eng} {l : LinkIx}
    (h : s.eng[a].links[l].state = .up ∨ s.eng[a].links[l].state = .training) :
    ∃ t, execArmLinkDown a l .commaLoss s = .next (if s.eng[a].links[l].state = .training then t.trainFailed a l .down else t) ∧
      t.eng[a].links[l] = s.eng[a].links[l].down := by
  unfold execArmLinkDown
  dsimp -zeta only
  extract_lets k s1 s2 s3 s4
  rw [if_pos h]
  refine ⟨s4, rfl, ?_⟩
  have h1 : s1.eng[a].links[l].sansStrobes = s.eng[a].links[l].sansStrobes := s.forceWritesOff_sansStrobes ..
  have h2 : s2.eng[a].links[l] = s1.eng[a].links[l].down := s1.modLink_same a l _
  have h4 : Moves [.trc, .evr, .wsl, .wr, .engSrv, .headSrv] s2 s4 :=
    .behind (.fold _ _ _ fun s g => (State.releaseSlot_moves ..).after (by decide) <| (State.modWr_moves ..).after (by decide)
      (.ite ((State.deactivate_moves ..).widen (by decide)) (.refl _ _))) ((State.condLink_moves ..).widen (by decide))
  rw [h4.link_eq rfl a l, h2, ArmLink.eq_of_sansStrobes h1]
  rfl

/-! ### The obligation -/

/-- Settles O23. -/
theorem armLinkFrames : Obligations.ArmLinkFrames := by
  refine ⟨fun s a l seq hup hframe hcfg hlast hseq => ?_, fun s a l f w h x hup hframe hcfg hlast hbody => ?_,
    fun s a l seq f hup hframe hseq => ?_, fun s a l seq f hup hframe hseq hatt => ?_, fun s a l f hframe hatt => ?_,
    fun s a l fr hup hok => ?_, fun s a l mask hstate => ?_, fun s a l r => ?_, fun s a l c hup hframe hcfg hdue htx hqueue => ?_,
    fun s a l r crc hstate hok => ?_, fun s a l hup => ?_, fun s a l htrain hatt => ?_, fun s a l hp hdown => ?_,
    fun s a l htrain hatt => ?_, fun s a l htrain hphase => ?_⟩
  · -- ARM_ACK_RECEIVE, repeated
    refine ⟨s.modLink a l fun k => { k with lastAck := seq }, ?_, s.modLink_same a l _, rfl⟩
    show execArmAckReceive a l seq s = _
    unfold execArmAckReceive
    simp [-Fin.getElem_fin, hup, hframe, hcfg, hlast, hseq]
  · -- ARM_ACK_RECEIVE, late
    refine ⟨s.acked a l f, ?_, s.acked_setPoint a l hbody⟩
    show execArmAckReceive a l f.seq s = _
    unfold execArmAckReceive
    simp [-Fin.getElem_fin, hup, hframe, hcfg, hlast, Option.filter]
  · -- ARM_ACK_RECEIVE of the frame outstanding
    refine ⟨s.acked a l f, ?_, ?_⟩
    · show execArmAckReceive a l seq s = _
      unfold execArmAckReceive
      simp [-Fin.getElem_fin, hup, hframe, hseq, Option.filter]
    · subst hseq
      cases hbody : f.body with
      | setPoint w h x => exact (s.acked_setPoint a l hbody).1
      | config c =>
        rw [State.acked, hbody]
        exact State.configAcked_up f hup
  · -- ARM_NAK_RECEIVE
    obtain ⟨hlink, hout⟩ := s.nakCounted_link a l
    obtain ⟨⟨cfg, hretry⟩, hframes⟩ := State.attemptFailed_retry (s := (s.modLink a l fun k => { k with nakCnt := inc 32 k.nakCnt }).alkFull
      a l 0 s.eng[a].links[l].nakCnt) (f := f) (by rw [hlink]; exact hframe) hatt
    refine ⟨_, ?_, ?_, ?_, hframes.trans (by rw [hout])⟩
    · show execArmNakReceive a l false seq s = _
      unfold execArmNakReceive
      simp only [hup, true_or, if_true, hframe, Option.map_some, hseq, beq_self_eq_true, Bool.false_eq_true, if_false]
    · rw [hretry, hlink]
    · rw [hretry]
  · -- ARM_ACK_TIMEOUT
    obtain ⟨hlink, hout⟩ := s.ackTimeoutCounted_link a l f
    obtain ⟨⟨cfg, hretry⟩, hframes⟩ := State.attemptFailed_retry (s := s.ackTimeoutCounted a l f) (f := f) (by rw [hlink]; exact hframe) hatt
    refine ⟨_, ?_, ?_, ?_, hframes.trans (by rw [hout])⟩
    · show execArmAckTimeout a l s = _
      unfold execArmAckTimeout
      simp only [hframe, Option.orElse]
      rfl
    · rw [hretry, hlink]
    · rw [hretry]
  · -- ARM_STATUS_FRAME
    obtain ⟨c, hc, hlink1⟩ := s.symErrors_link a l fr.symErrs
    obtain ⟨htr, mon, mask, cond, q, hlink⟩ := (s.symErrors a l fr.symErrs).statusGood_link a l fr
    refine ⟨_, congrArg Host.Outcome.next ((if_pos hup).trans (if_pos hok)), ?_⟩
    dsimp only
    rw [hlink, hlink1]
    exact ⟨rfl, rfl, rfl, rfl, rfl, hc⟩
  · -- AFE_FAULT_STROBE
    refine ⟨_, congrArg Host.Outcome.next (if_pos hstate), ?_⟩
    extract_lets n s1 s2
    have h1 : s1.eng[a].links[l].sansStrobes = s.eng[a].links[l].sansStrobes := s.forceWritesOff_sansStrobes ..
    have h2 : (s2.alkFull a l 6 n).eng[a].links[l] = s2.eng[a].links[l] := (State.alkFull_moves ..).link_eq rfl a l
    have h3 : s2.eng[a].links[l] = { s1.eng[a].links[l] with
        faultCnt := inc 32 s1.eng[a].links[l].faultCnt, faultCond := s1.eng[a].links[l].faultCond ||| mask } := s1.modLink_same a l _
    dsimp only
    rw [h2, h3]
    rw [ArmLink.eq_of_sansStrobes h1]
    exact ⟨rfl, rfl⟩
  · -- AUX_SLOT_REQUEST
    exact ⟨_, rfl, s.modLink_same a l _, fun b hb => s.modLink_engines l _ hb, rfl⟩
  · -- CONFIG_FRAME_SEND
    obtain ⟨s1, hs1⟩ : ∃ s1, s1 = s.modLink a l fun k => { k with cfgQueue := k.cfgQueue ++ [c] } := ⟨_, rfl⟩
    have hlink : s1.eng[a].links[l] = { s.eng[a].links[l] with cfgQueue := [c] } := by
      rw [hs1, State.modLink_same, hqueue]
      rfl
    have hnext : s.queueConfig a l c = (s1.modLink a l fun k => { k with cfgQueue := [] }).sendFrame a l (.config c) := by
      unfold State.queueConfig State.nextFrame
      rw [← hs1, hlink]
      simp [-Fin.getElem_fin, hup, hframe, hcfg, hdue, htx]
    obtain ⟨h1, h2, h3, h4⟩ := (s1.modLink a l fun k => { k with cfgQueue := [] }).sendFrame_config a l c
    rw [State.modLink_same, hlink] at h1 h2 h3 h4
    exact ⟨_, congrArg Host.Outcome.next hnext, h1, h2, h3, h4⟩
  · -- ARM_CONFIG_REPLY
    refine ⟨_, congrArg Host.Outcome.next ((if_pos hstate).trans (if_pos hok)), s.modLink_same a l _, rfl⟩
  · -- ARM_LINK_DOWN
    obtain ⟨t, ht, hlink⟩ := execArmLinkDown_of_comma (.inl hup)
    rw [if_neg (by rw [hup]; decide)] at ht
    refine ⟨t, ht, ?_⟩
    dsimp only
    rw [hlink]
    exact ⟨rfl, rfl, rfl, if_pos hup⟩
  · -- ARM_LINK_DOWN in training
    obtain ⟨t, ht, hlink⟩ := execArmLinkDown_of_comma (.inr htrain)
    have hsame : t.eng[a].links[l].trainAtt = s.eng[a].links[l].trainAtt := by
      rw [hlink]
      exact if_neg (by rw [htrain]; decide)
    rw [if_pos htrain, State.trainFailed] at ht
    dsimp only at ht
    rw [if_pos (by rw [hsame]; exact hatt)] at ht
    refine ⟨_, ht, ?_⟩
    dsimp only
    rw [State.modLink_same, hsame]
    exact ⟨rfl, rfl⟩
  · -- ARM_TRAIN_ATTEMPT
    have hmoves := State.alkFull_moves (s.modLink a l fun k =>
        { k with
          state := .training, phase := .commas, aligned := false, frame := none, last := none, cfg := none, cfgDue := false, tx := []
          trainCnt := inc 32 k.trainCnt }) a l 7 s.eng[a].links[l].trainCnt
    have hlink := (hmoves.link_eq rfl a l).trans (s.modLink_same a l _)
    refine ⟨_, congrArg Host.Outcome.next (if_pos (by rw [hp, hdown]; rfl)), ?_, ?_, ?_, ?_,
      (hmoves.after (by decide) ((State.modLink_moves ..).widen (by decide))).afterEvent_eng⟩
    all_goals rw [hlink]
  · -- ARM_TRAIN_TIMEOUT
    refine ⟨_, congrArg Host.Outcome.next ((if_pos htrain).trans (if_pos hatt)), ?_, ?_, ?_, ?_, rfl⟩
    all_goals rw [State.modLink_same]
  · -- AFE_COMMA_ALIGNMENT
    obtain ⟨hp, ha⟩ := (s.modLink a l fun k => { k with aligned := true }).trainPhase_link a l
    refine ⟨_, congrArg Host.Outcome.next (if_pos ⟨htrain, hphase⟩), ?_, hp⟩
    rw [ha, State.modLink_same]

end Sys2Proof.Machine
end

section
/-! SUPPORT. The I/O commands (13_host_link_nvme.md): a start writes the address of the command into its context, and where the list of
contexts names one context twice, into the second entry too. -/

namespace Sys2Proof.Machine
open Sys2Proof
set_option Elab.async false

/-- A Write of no blocks at an address of namespace 1. -/
def emptyWrite (lba : Nat) : Sqe :=
  { opcode := 0x01, cid := 0, nsid := 1, slba := lba, nlb := 0, fua := false, limitedRetry := false, pract := false, prchk := 0
    piremap := false, refTag := 0, appTag := 0, appMask := 0, act := .reset, selectAll := false, zrasf := 0, partialReport := false
    maxDescs := 0, deac := false, ranges := [], reservedSet := false, badEntry := false, badData := false, data := [] }

/-- A conventional namespace, attached to function 0. -/
def convNamespace : Namespace :=
  { nsid := 1, zoned := false, nvmset := 0, size := 8, lbaf := 0, piType := 0, piFirst := false, extended := false, shared := false
    zones := [], attached := 1 }

/-- The context of such a Write. -/
def emptyWriteCtx (lba : Nat) : Ctx := { fn := 0, sq := 1, sqe := emptyWrite lba }

/-- That namespace, and two entries of context 0 with different addresses. -/
def twiceNamedState : State :=
  { State.reset with
    host := { State.reset.host with namespaces := [convNamespace] }
    rst := { State.reset.rst with convReady := true }
    q := { State.reset.q with ctxs := [(0, emptyWriteCtx 0), (0, emptyWriteCtx 1)] } }

theorem twiceNamedState_may_start : twiceNamedState.mayStartCmd (emptyWriteCtx 0) = true ∧
    (twiceNamedState.begun 0).startStatus (emptyWriteCtx 0) = none := by
  decide +kernel

/-- The second entry has the address of the first after the start. -/
theorem twiceNamedState_started : (twiceNamedState.startCmd 0).q.ctxs.map (fun p => p.2.sqe.slba) = [0, 0] := by
  decide +kernel

/-- Refutes O43: WRITE of a conventional namespace, where the list of contexts names its context twice. -/
theorem not_ioCommands : ¬ Obligations.IoCommands := by
  rintro ⟨-, -, -, hwrite, -⟩
  obtain ⟨hmay, hstatus⟩ := twiceNamedState_may_start
  obtain ⟨t, ht, hnext⟩ := hwrite twiceNamedState 0 (emptyWriteCtx 0) convNamespace rfl rfl hmay (by decide +kernel) hstatus rfl rfl
  have hrun : t = twiceNamedState.startCmd 0 := (Host.Outcome.next.inj ht).symm
  have haddr := twiceNamedState_started
  rw [← hrun, hnext] at haddr
  exact absurd haddr (by decide +kernel)

end Sys2Proof.Machine
end

section
/-! SUPPORT. The write path (07_write_path_assist.md): a block of which a word was lost in the buffers is encoded with a CRC that
fails (17_memory_ecc.md, R576), not as its data stands. -/

namespace Sys2Proof.Machine
open Sys2Proof
set_option Elab.async false

/-- The code is systematic. -/
theorem ldpcEncode_setWidth (x : BitVec 32928) : (ldpcEncode x).setWidth 32928 = x := by
  refine BitVec.eq_of_toNat_eq ?_
  rw [ldpcEncode, BitVec.toNat_setWidth, BitVec.toNat_ofNat, Nat.mod_mod_of_dvd _ (Nat.pow_dvd_pow 2 (by decide)),
    Nat.add_mul_mod_self_left, Nat.mod_eq_of_lt x.isLt]

/-- What a lost word turns over in the content of a sector. -/
def spoilMask : BitVec 32928 := BitVec.ofNat 32928 (2 ^ (8 * 4112))

theorem spoilMask_ne_zero : spoilMask ≠ 0 := by
  decide +kernel

/-- The codeword of a content and that of the content with a lost word. -/
theorem ldpcEncode_spoiled_ne (tag : Word) (x : BitVec 32928) :
    ldpcEncode (scramble tag (x ^^^ spoilMask)) ≠ ldpcEncode (scramble tag x) := by
  intro h
  have hx := congrArg (BitVec.setWidth 32928) h
  rw [ldpcEncode_setWidth, ldpcEncode_setWidth, scramble, scramble, BitVec.xor_left_inj] at hx
  refine spoilMask_ne_zero ?_
  calc spoilMask = x ^^^ (x ^^^ spoilMask) := by rw [← BitVec.xor_assoc, BitVec.xor_self, BitVec.zero_xor]
    _ = 0 := by rw [hx, BitVec.xor_self]; rfl

theorem State.encodeBlock_of_spoiled {s : State} {v : WriteView} {k : Nat} {b : BlockState} {z : ZoneNo} {d : ZoneDesc} {p : SectorAt}
    (hb : v.blocks[k]? = some b) (hp : s.viewSector v k = some (z, d, p)) (hspoiled : b.spoiled = true) (hhere : b.here = true)
    (hcode : b.codeword = none) (hdurable : b.durable = false) (hfailed : b.failed = none) (hroom : s.q.staging < stagingUnits) :
    s.encodeBlock v k = (s.modView v.startNo fun l => modAt l k fun y => { y with codeword := some (ldpcEncode (scramble
      (addrTag (s.remapped d.engine d p)) (s.encodeInfo v k b.data (s.remapped d.engine d p) d.zgen ^^^ spoilMask))) }).modQ fun q =>
        { q with staging := q.staging + 1 } := by
  rw [State.encodeBlock, hb, hp]
  dsimp only
  rw [if_pos (by simp [hhere, hcode, hdurable, hfailed, hroom]), if_pos hspoiled]
  rfl

/-- The codewords of the writes in the buffers. -/
def State.bufferedCodewords (s : State) : List (List (Option (BitVec 36864))) := s.q.buffered.map fun b => b.blocks.map (·.codeword)

/-- A block of the module's own that lost a word. -/
def spoiledBlock : BlockState := { here := true, spoiled := true, old := some ({}, 0) }

/-- Its write, of zone 0. -/
def spoiledWrite : BufferedWrite :=
  { ctx := 0, fn := 0, nsid := 0, startNo := 0, slba := 0, zone := some 0, zofs := 0, blocks := [spoiledBlock], credits := 0 }

/-- The module with that write in its buffers. -/
def spoiledState : State := { State.reset with q := { State.reset.q with buffered := [spoiledWrite] } }

theorem spoiledState_encoded (c : BitVec 36864) :
    ((spoiledState.modView 0 fun l => modAt l 0 fun y => { y with codeword := some c }).modQ fun q =>
      { q with staging := q.staging + 1 }).bufferedCodewords = [[some c]] := rfl

theorem spoiledState_sector :
    spoiledState.viewSector spoiledWrite.view 0 = some (0, { spoiledState.zoneDesc 0 with zgen := 0 }, {}) := rfl

/-- Refutes O29: WRITE_ENCODE of a block that lost a word. -/
theorem not_writePath : ¬ Obligations.WritePath := by
  rintro ⟨hencode, -⟩
  have hroom : spoiledState.q.staging < stagingUnits := by decide +kernel
  obtain ⟨t, ht, hnext⟩ := hencode spoiledState 0 0 spoiledWrite.view spoiledBlock 0 { spoiledState.zoneDesc 0 with zgen := 0 } {}
    (by decide +kernel) rfl rfl spoiledState_sector hroom
  have hrun : t = spoiledState.encodeBlock spoiledWrite.view 0 := (Host.Outcome.next.inj ht).symm
  rw [State.encodeBlock_of_spoiled rfl spoiledState_sector rfl rfl rfl rfl rfl hroom, hnext] at hrun
  have hcode := congrArg State.bufferedCodewords hrun
  rw [show spoiledWrite.view.startNo = 0 from rfl, spoiledState_encoded, spoiledState_encoded, List.cons.injEq, List.cons.injEq] at hcode
  exact ldpcEncode_spoiled_ne _ _ (Option.some.inj hcode.1.1).symm

end Sys2Proof.Machine
end

section
/-! SUPPORT. Admin commands taken from the host: what the completion of one changes, and what `State.admin` makes of a command's body
(13_host_link_nvme.md). -/

namespace Sys2Proof.Machine
open Sys2Proof
set_option Elab.async false

/-! ### Completions -/

/-- A completion posted: the function's queue, the count of errors completed, the list of partners' violations. -/
theorem State.post_host (s : State) (c : Completion) : ∃ (cnt : FnState → Nat) (v : List (Violation × Nat × Nat)), (s.post c).host =
    { s.host with
      fns := vmod s.host.fns c.fn fun x =>
        { x with cqs := x.cqs.map fun q => if q.id = c.cq then q.post else q, cmdErrCnt := cnt x }
      violations := v } := by
  unfold State.post
  extract_lets f irq s1 s2 s3
  by_cases hcheck : c.status.check = true
  · obtain ⟨v, hv⟩ := s2.violated_host .cmdErr c.fn.val 7 c.fn.val (0x60114 + 0x20 * c.fn.val)
      (mkw [bf 31 16 s2.host.fns[c.fn].cmdErrCnt, bf 15 0 s2.host.fns[c.fn].cmbPoisCnt])
      [mkw [bf 31 16 c.sq, bf 15 0 c.cid.toNat], mkw [bf 10 8 c.status.sct, bf 7 0 c.status.sc, bb 14 c.status.dnr], 0, 0]
    refine ⟨fun x => satAdd 16 x.cmdErrCnt 1, v, ?_⟩
    have hs3 : s3.host = { s2.host with violations := v } := (congrArg State.host (if_pos hcheck)).trans hv
    have hfns : s2.host.fns = vmod s.host.fns c.fn fun x =>
        { x with cqs := x.cqs.map fun q => if q.id = c.cq then q.post else q, cmdErrCnt := satAdd 16 x.cmdErrCnt 1 } :=
      vmod_vmod s.host.fns c.fn (fun x => { x with cqs := x.cqs.map fun q => if q.id = c.cq then q.post else q })
        fun x => { x with cmdErrCnt := satAdd 16 x.cmdErrCnt 1 }
    rw [← hfns]
    exact hs3
  · exact ⟨(·.cmdErrCnt), s.host.violations, congrArg State.host (if_neg hcheck)⟩

theorem State.post_completions (s : State) (c : Completion) : (s.post c).out.completions = c :: s.out.completions := by
  unfold State.post
  extract_lets f irq s1 s2 s3
  have h3 : Moves [.trc, .host, .evr] s s3 :=
    .ite ((State.violated_moves ..).after (by decide) ((State.modFn_moves ..).after (by decide) ((State.modFn_moves ..).widen (by decide))))
      ((State.modFn_moves ..).widen (by decide))
  exact congrArg (c :: ·) (congrArg Outputs.completions (h3.out_eq rfl))

/-- What the completion of an admin command changes. -/
structure AdminDone (s t : State) (f : Fn) (cid : BitVec 16) (st : NvStatus) (dw0 : Word) (words : List Word) : Prop where
  moves : Moves [.trc, .host, .evr, .out] s t
  whole : t = s.afterAdmin t
  other : ∀ n : Fn, f ≠ n → t.host.fns[n] = s.host.fns[n]
  mine : ∃ cqs cnt count log, t.host.fns[f] = { s.host.fns[f] with cqs := cqs, cmdErrCnt := cnt, errCount := count, errLog := log }
  queues : t.host.fns[f].cqs = s.host.fns[f].cqs.map fun q => if q.id = 0 then q.post else q
  done : ∃ c, t.out.completions = c :: s.out.completions ∧ c.fn = f ∧ c.sq = 0 ∧ c.cq = 0 ∧ c.cid = cid ∧ c.status = st ∧ c.dw0 = dw0 ∧
    c.words = words

/-- A move within the host link, the outputs and an event that keeps all of the host link but its functions and violations. -/
theorem Moves.afterAdmin {s t : State} (h : Moves [.trc, .host, .evr, .out] s t)
    (hhost : t.host = { s.host with fns := t.host.fns, violations := t.host.violations }) : t = s.afterAdmin t := by
  refine h.eq_of_parts rfl fun x => ?_
  cases x <;> first | rfl | exact fun _ => rfl | exact hhost

theorem State.postAdmin_done (s : State) (f : Fn) (cid : BitVec 16) (st : NvStatus) (dw0 : Word) (words : List Word) :
    AdminDone s (s.postAdmin f cid st dw0 words) f cid st dw0 words := by
  have hmoves := s.postAdmin_moves f cid st dw0 words
  unfold State.postAdmin at hmoves ⊢
  generalize hc : Completion.mk .. = c at hmoves ⊢
  obtain ⟨cnt, v, hhost⟩ := s.post_host c
  have hfns : (s.post c).host.fns = _ := congrArg HostLink.fns hhost
  obtain rfl : c.fn = f := by rw [← hc]
  refine ⟨hmoves, hmoves.afterAdmin ?_, fun n hn => ?_, ?_, ?_, c, s.post_completions c, rfl, ?_⟩
  · rw [hhost]
  · rw [hfns, vmod_other _ _ hn]
  · rw [hfns, vmod_same]
    exact ⟨_, _, _, _, rfl⟩
  · rw [hfns, vmod_same, ← hc]
  · rw [← hc]
    exact ⟨rfl, rfl, rfl, rfl, rfl, rfl⟩

theorem State.finishAdmin_done (s : State) {q : AdmReq} (st : NvStatus) (dw0 : Word) (words : List Word) (hq : q.mi = none) :
    AdminDone s (s.finishAdmin q st dw0 words) q.fn q.cid st dw0 words := by
  have hmoves := s.finishAdmin_moves q st dw0 words
  unfold State.finishAdmin State.answerAdmin at hmoves ⊢
  rw [hq] at hmoves ⊢
  by_cases hst : st = stOk
  · rw [if_pos hst]
    exact s.postAdmin_done ..
  · rw [if_neg hst] at hmoves ⊢
    have h := (s.logError q.fn 0 q.cid.toNat st 0 0).postAdmin_done q.fn q.cid st dw0 words
    obtain ⟨cqs, cnt, count, log, hmine⟩ := h.mine
    refine ⟨hmoves, hmoves.afterAdmin (congrArg State.host h.whole), fun n hn => (h.other n hn).trans (State.modFn_other _ _ hn), ?_, ?_, h.done⟩
    · rw [hmine, State.logError, State.modFn_same]
      exact ⟨_, _, _, _, rfl⟩
    · rw [h.queues, State.logError, State.modFn_same]

section
variable {s u t : State} {q : AdmReq} {f : Fn} {cid : BitVec 16} {st : NvStatus} {dw0 : Word} {words : List Word}

/-- The completion is concluded for the state the command began in. -/
theorem AdminDone.concluded (h : AdminDone u t q.fn q.cid st dw0 words) (hout : ∃ l, u.out.completions = l ++ s.out.completions) :
    Concluded s t q st dw0 words := by
  obtain ⟨l, hl⟩ := hout
  obtain ⟨c, hc, hfields⟩ := h.done
  exact ⟨c :: l, c, by rw [hc, hl]; rfl, List.mem_cons_self, hfields⟩

/-- A field of the function that a completion keeps. -/
theorem AdminDone.kept {α : Type} (h : AdminDone u t f cid st dw0 words) (g : FnState → α)
    (hg : ∀ x cqs cnt count log, g { x with cqs := cqs, cmdErrCnt := cnt, errCount := count, errLog := log } = g x) :
    g t.host.fns[f] = g u.host.fns[f] := by
  obtain ⟨_, _, _, _, hmine⟩ := h.mine
  rw [hmine, hg]

end

/-! ### Commands -/

theorem State.admin_of_ready {s : State} {q : AdmReq} {noCtx pfOnly : Bool} (recOk : Bool) (body : State → AdmRes)
    (h : adminReady q noCtx pfOnly s = true) : s.admin q noCtx pfOnly recOk body =
      .next (match (body (s.takeAdmin q.fn)).status with
        | some st => (body (s.takeAdmin q.fn)).state.finishAdmin q st (body (s.takeAdmin q.fn)).dw0
            (if st = stOk then (body (s.takeAdmin q.fn)).words else [])
        | none => (body (s.takeAdmin q.fn)).state) := by
  simp only [adminReady, Bool.and_eq_true, Bool.or_eq_true, Bool.not_eq_true', beq_iff_eq, decide_eq_true_eq, Option.isNone_iff_eq_none] at h
  obtain ⟨⟨⟨⟨⟨⟨⟨hmi, hpresent⟩, hen⟩, hrdy⟩, hshst⟩, hroom⟩, hpf⟩, hrec⟩ := h
  have hroom' : (!noCtx && decide (2 ≤ s.adminCtxs q.fn)) = false := by
    rcases hroom with h | h
    · rw [h, Bool.not_true, Bool.false_and]
    · rw [decide_eq_false (Nat.not_le.mpr h), Bool.and_false]
  have hpf' : (pfOnly && decide (q.fn ≠ 0)) = false := by
    rcases hpf with h | h
    · rw [h, Bool.false_and]
    · rw [h, decide_eq_false (not_not_intro rfl), Bool.and_false]
  have hrec' : (s.takeAdmin q.fn).rst.recovery = false := hrec
  rw [State.admin]
  dsimp only
  rw [hmi, hpresent, hen, hrdy, hshst, hroom', if_neg (by decide), if_neg (by decide), if_neg (show ¬(none : Option Nat).isSome = true by decide),
    hpf', hrec', if_neg (by simp)] <;> rfl

section
variable {s u : State} {q : AdmReq} {noCtx pfOnly recOk : Bool} {body : State → AdmRes} {dw0 : Word} {words : List Word}
  {P : State → Prop} (h : adminReady q noCtx pfOnly s = true)
include h

theorem adminReady_mi : q.mi = none := by
  simp only [adminReady, Bool.and_eq_true, Option.isNone_iff_eq_none] at h
  exact h.1.1.1.1.1.1.1

/-- A command that concludes. -/
theorem completes_admin (hbody : body (s.takeAdmin q.fn) = { state := u, dw0 := dw0, words := words })
    (hP : ∀ t, AdminDone u t q.fn q.cid stOk dw0 words → P t) : Completes (s.admin q noCtx pfOnly recOk body) P := by
  rw [State.admin_of_ready recOk body h, hbody]
  exact ⟨_, rfl, hP _ (State.finishAdmin_done u stOk dw0 words (adminReady_mi h))⟩

/-- A command that fails. -/
theorem completes_admin_fail {st : NvStatus} (hbody : body (s.takeAdmin q.fn) = .fail u st)
    (hP : ∀ t, AdminDone u t q.fn q.cid st 0 [] → P t) : Completes (s.admin q noCtx pfOnly recOk body) P := by
  rw [State.admin_of_ready recOk body h, hbody]
  refine ⟨_, rfl, hP _ ?_⟩
  show AdminDone u (u.finishAdmin q st 0 (if st = stOk then [] else [])) _ _ _ _ _
  rw [ite_self]
  exact State.finishAdmin_done u st 0 [] (adminReady_mi h)

/-- A command that concludes later. -/
theorem completes_admin_wait (hbody : body (s.takeAdmin q.fn) = { state := u, status := none, dw0 := dw0, words := words }) (hP : P u) :
    Completes (s.admin q noCtx pfOnly recOk body) P := by
  rw [State.admin_of_ready recOk body h, hbody]
  exact ⟨_, rfl, hP⟩

theorem State.adminOwn_of_ready : s.adminOwn q noCtx pfOnly recOk body = s.admin q noCtx pfOnly recOk body :=
  if_neg (by rw [adminReady_mi h]; simp)

end

/-! ### The entry taken (R473) -/

theorem State.takeAdmin_same (s : State) (f : Fn) : (s.takeAdmin f).host.fns[f] = { s.host.fns[f] with sqs := (s.takeAdmin f).host.fns[f].sqs } := by
  rw [State.takeAdmin, State.modFn_same]

theorem State.takeAdmin_other (s : State) {f n : Fn} (h : f ≠ n) : (s.takeAdmin f).host.fns[n] = s.host.fns[n] := State.modFn_other _ _ h

/-- An entry taken from the admin queue leaves the queues' identifiers. -/
theorem State.takeAdmin_sqs (s : State) (f : Fn) : (s.takeAdmin f).host.fns[f].sqs =
    s.host.fns[f].sqs.map fun q => if q.id = 0 ∧ q.waiting then { q with head := (q.head + 1) % max 1 q.size } else q := by
  rw [State.takeAdmin, State.modFn_same]

theorem State.takeAdmin_any (s : State) (f : Fn) (p : SubQueue → Bool) (hp : ∀ q n, p { q with head := n } = p q) :
    (s.takeAdmin f).host.fns[f].sqs.any p = s.host.fns[f].sqs.any p := by
  rw [State.takeAdmin_sqs, List.any_map]
  congr 1
  funext q
  rw [Function.comp_apply]
  split
  · exact hp ..
  · rfl

theorem State.takeAdmin_length (s : State) (f : Fn) : (s.takeAdmin f).host.fns[f].sqs.length = s.host.fns[f].sqs.length := by
  rw [State.takeAdmin_sqs, List.length_map]

/-- A queue of I/O commands is found as it was. -/
theorem State.takeAdmin_find {s : State} {f : Fn} {n : Nat} {q : SubQueue} (hn : n ≠ 0)
    (h : s.host.fns[f].sqs.find? (fun c => c.id == n) = some q) : (s.takeAdmin f).host.fns[f].sqs.find? (fun c => c.id == n) = some q := by
  have hid : q.id = n := by simpa using List.find?_some h
  have hkey : ((fun c : SubQueue => c.id == n) ∘ fun q => if q.id = 0 ∧ q.waiting then { q with head := (q.head + 1) % max 1 q.size } else q) =
      fun c => c.id == n := by
    funext c
    rw [Function.comp_apply]
    split <;> rfl
  rw [State.takeAdmin_sqs, List.find?_map, hkey, h, Option.map_some, if_neg (fun h0 => hn (hid ▸ h0.1))]

end Sys2Proof.Machine
end

section
/-! SUPPORT. The admin commands that manage queues and report (13_host_link_nvme.md). -/

namespace Sys2Proof.Machine
open Sys2Proof
set_option Elab.async false

/-! ### Contracts ended -/

/-- Contracts that match end; nothing but them and an event changes. -/
theorem State.endContracts_effect (s : State) (sel : Contract → Bool) :
    (s.endContracts sel).q = { s.q with contracts := (s.endContracts sel).q.contracts } ∧
      (∀ c ∈ (s.endContracts sel).q.contracts, c ∈ s.q.contracts ∧ sel c.2 = false) ∧
      s.endContracts sel = ({ s with q := (s.endContracts sel).q } : State).afterEvent (s.endContracts sel) := by
  have hfold : ∀ (l : List (Nat × Contract)) (u : State), u.q = { s.q with contracts := u.q.contracts } →
      (∀ c ∈ u.q.contracts, c ∈ s.q.contracts) → u = ({ s with q := u.q } : State).afterEvent u → ∀ t, t = l.foldl (fun s p =>
        if sel p.2 then
          (s.condition 0x0E 7 p.2.fn.val (0x62000 + p.1 * 0x20) (rCtCtl p.2) (stQos s p.1)).modQ fun q =>
            { q with contracts := oerase q.contracts p.1 }
        else s) u →
      t.q = { s.q with contracts := t.q.contracts } ∧ (∀ c ∈ t.q.contracts, c ∈ u.q.contracts ∧ (c ∈ l → sel c.2 = false)) ∧
        t = ({ s with q := t.q } : State).afterEvent t := by
    intro l
    induction l with
    | nil =>
      rintro u hq hsub hu t rfl
      exact ⟨hq, fun c hc => ⟨hc, fun h => nomatch h⟩, hu⟩
    | cons p l ih =>
      rintro u hq hsub hu t rfl
      rw [List.foldl_cons]
      split
      next hsel =>
        have hmoves : Moves [.trc, .evr] u (u.condition 0x0E 7 p.2.fn.val (0x62000 + p.1 * 0x20) (rCtCtl p.2) (stQos u p.1)) :=
          State.condition_moves ..
        generalize hv : u.condition 0x0E 7 p.2.fn.val (0x62000 + p.1 * 0x20) (rCtCtl p.2) (stQos u p.1) = v at hmoves ⊢
        have hvq : v.q = u.q := hmoves.q_eq rfl
        have hwhole : v = u.afterEvent v := hmoves.afterEvent
        have hnext := ih (v.modQ fun q => { q with contracts := oerase q.contracts p.1 }) (by rw [State.modQ_q, hvq, hq])
          (fun c hc => hsub c (by rw [State.modQ_q, hvq] at hc; exact List.mem_of_mem_filter hc))
          (by rw [hwhole, hu]; rfl) _ rfl
        obtain ⟨h1, h2, h3⟩ := hnext
        refine ⟨h1, fun c hc => ?_, h3⟩
        obtain ⟨hin, hrest⟩ := h2 c hc
        rw [State.modQ_q, hvq] at hin
        have hkey : c.1 ≠ p.1 := by simpa using (List.mem_filter.mp hin).2
        refine ⟨List.mem_of_mem_filter hin, fun hmem => ?_⟩
        rcases List.mem_cons.mp hmem with rfl | hmem
        · exact absurd rfl hkey
        · exact hrest hmem
      next hsel =>
        obtain ⟨h1, h2, h3⟩ := ih u hq hsub hu _ rfl
        refine ⟨h1, fun c hc => ⟨(h2 c hc).1, fun hmem => ?_⟩, h3⟩
        rcases List.mem_cons.mp hmem with rfl | hmem
        · exact Bool.eq_false_iff.mpr hsel
        · exact (h2 c hc).2 hmem
  obtain ⟨h1, h2, h3⟩ := hfold s.q.contracts s rfl (fun _ h => h) rfl (s.endContracts sel) rfl
  exact ⟨h1, fun c hc => ⟨(h2 c hc).1, (h2 c hc).2 (h2 c hc).1⟩, h3⟩

/-! ### Queues deleted (R503) -/

/-- What the deletion of queues leaves: contracts and queues go, completions come, nothing else changes. -/
structure State.Deleting (f : Fn) (s t : State) : Prop where
  q : t.q = { s.q with contracts := t.q.contracts }
  contracts : ∀ c ∈ t.q.contracts, c ∈ s.q.contracts
  sqs : ∀ y ∈ t.host.fns[f].sqs, y ∈ s.host.fns[f].sqs
  completions : ∃ l, t.out.completions = l ++ s.out.completions
  whole : t = ({ s with q := t.q } : State).afterAdmin t

theorem State.Deleting.refl (f : Fn) (s : State) : s.Deleting f s := ⟨rfl, fun _ h => h, fun _ h => h, ⟨[], rfl⟩, rfl⟩

theorem State.Deleting.trans {f : Fn} {s t u : State} (h1 : s.Deleting f t) (h2 : t.Deleting f u) : s.Deleting f u := by
  obtain ⟨l1, hl1⟩ := h1.completions
  obtain ⟨l2, hl2⟩ := h2.completions
  refine ⟨?_, fun c hc => h1.contracts c (h2.contracts c hc), fun y hy => h1.sqs y (h2.sqs y hy), ⟨l2 ++ l1, by rw [hl2, hl1, List.append_assoc]⟩, ?_⟩
  · rw [h2.q, h1.q]
  · rw [h2.whole, h1.whole]
    rfl

/-- A queue of a function whose deletion waits for no command is gone: its identifier, its contracts, with a completion. -/
def State.deleteQueue (s : State) (f : Fn) (id : Nat) (cid : BitVec 16) : State :=
  ((s.modFn f fun x => { x with sqs := x.sqs.filter fun y => y.id != id }).endContracts fun k => k.fn == f && k.sq == id).postAdmin f cid
    stOk 0 []

theorem State.deleteQueue_effect (s : State) (f : Fn) (id : Nat) (cid : BitVec 16) : s.Deleting f (s.deleteQueue f id cid) ∧
    (∀ y ∈ (s.deleteQueue f id cid).host.fns[f].sqs, y.id ≠ id) ∧
    (∀ c ∈ (s.deleteQueue f id cid).q.contracts, ¬(c.2.fn = f ∧ c.2.sq = id)) ∧
    Concluded s (s.deleteQueue f id cid) { fn := f, cid := cid } stOk 0 [] := by
  unfold State.deleteQueue
  obtain ⟨hq, hcontracts, hwhole⟩ :=
    (s.modFn f fun x => { x with sqs := x.sqs.filter fun y => y.id != id }).endContracts_effect fun k => k.fn == f && k.sq == id
  generalize hu : ((s.modFn f fun x => { x with sqs := x.sqs.filter fun y => y.id != id }).endContracts fun k => k.fn == f && k.sq == id) = u
    at hq hcontracts hwhole ⊢
  have hdone := u.postAdmin_done f cid stOk 0 []
  generalize u.postAdmin f cid stOk 0 [] = t at hdone ⊢
  have htq : t.q = u.q := hdone.moves.q_eq rfl
  have hsqs : t.host.fns[f].sqs = s.host.fns[f].sqs.filter fun y => y.id != id := by
    rw [hdone.kept (·.sqs) fun _ _ _ _ _ => rfl, hwhole]
    exact congrArg FnState.sqs (State.modFn_same ..)
  have hcompletions : u.out.completions = s.out.completions := by
    rw [hwhole]
    rfl
  refine ⟨⟨by rw [htq]; exact hq, fun c hc => (hcontracts c (htq ▸ hc)).1, fun y hy => List.mem_of_mem_filter (hsqs ▸ hy), ?_, ?_⟩, fun y hy => ?_,
    fun c hc hmine => ?_, ?_⟩
  · obtain ⟨c, hc, -⟩ := hdone.done
    exact ⟨[c], by rw [hc, hcompletions]; rfl⟩
  · rw [htq, hdone.whole, hwhole]
    rfl
  · rw [hsqs, List.mem_filter] at hy
    simpa using hy.2
  · have hno := (hcontracts c (htq ▸ hc)).2
    rw [hmine.1, hmine.2] at hno
    simp at hno
  · exact AdminDone.concluded (q := { fn := f, cid := cid }) hdone ⟨[], hcompletions⟩

/-- One queue's part of the deletions. -/
def State.settleQueue (f : Fn) (s : State) (q : SubQueue) : State :=
  match q.deleting with
  | none => s
  | some cid => if s.q.ctxs.any fun p => p.2.fn == f && p.2.sq == q.id && !p.2.admin then s else s.deleteQueue f q.id cid

theorem State.settleQueue_deleting (f : Fn) (s : State) (q : SubQueue) : s.Deleting f (s.settleQueue f q) := by
  unfold State.settleQueue
  split
  · exact .refl ..
  · split
    · exact .refl ..
    · exact (s.deleteQueue_effect f q.id _).1

theorem State.settleQueues_deleting (f : Fn) (l : List SubQueue) (s : State) : s.Deleting f (l.foldl (State.settleQueue f) s) := by
  induction l generalizing s with
  | nil => exact .refl ..
  | cons q l ih => exact (s.settleQueue_deleting f q).trans (ih _)

theorem State.settleDeletes_eq (s : State) (f : Fn) : s.settleDeletes f = s.host.fns[f].sqs.foldl (State.settleQueue f) s := rfl

/-- The deletion of a queue with no command left takes effect. -/
theorem State.settleDeletes_effect {s : State} {f : Fn} {q : SubQueue} {cid : BitVec 16} (hmem : q ∈ s.host.fns[f].sqs)
    (hdel : q.deleting = some cid) (hfree : (s.q.ctxs.any fun p => p.2.fn == f && p.2.sq == q.id && !p.2.admin) = false) :
    s.Deleting f (s.settleDeletes f) ∧ (∀ y ∈ (s.settleDeletes f).host.fns[f].sqs, y.id ≠ q.id) ∧
      (∀ c ∈ (s.settleDeletes f).q.contracts, ¬(c.2.fn = f ∧ c.2.sq = q.id)) ∧
      Concluded s (s.settleDeletes f) { fn := f, cid := cid } stOk 0 [] := by
  obtain ⟨before, after, hlist⟩ := List.append_of_mem hmem
  rw [State.settleDeletes_eq, hlist, List.foldl_append, List.foldl_cons]
  have h1 := State.settleQueues_deleting f before s
  generalize before.foldl (State.settleQueue f) s = u at h1 ⊢
  have hstep : u.settleQueue f q = u.deleteQueue f q.id cid := by
    rw [State.settleQueue, hdel]
    exact if_neg (by rw [h1.q]; exact Bool.eq_false_iff.mp hfree)
  obtain ⟨h2, hsqs, hcontracts, l2, c, hl2, hc⟩ := u.deleteQueue_effect f q.id cid
  rw [hstep]
  generalize u.deleteQueue f q.id cid = v at h2 hsqs hcontracts hl2 ⊢
  have h3 := State.settleQueues_deleting f after v
  generalize after.foldl (State.settleQueue f) v = t at h3 ⊢
  obtain ⟨l1, hl1⟩ := h1.completions
  obtain ⟨l3, hl3⟩ := h3.completions
  refine ⟨h1.trans (h2.trans h3), fun y hy => hsqs y (h3.sqs y hy), fun c hc => hcontracts c (h3.contracts c hc), l3 ++ l2 ++ l1, c, ?_, ?_, hc.2⟩
  · rw [hl3, hl2, hl1, List.append_assoc, List.append_assoc]
  · exact List.mem_append_left _ (List.mem_append_right _ hc.1)

/-- Deletions that all wait for commands wait on. -/
theorem State.settleDeletes_wait {s : State} {f : Fn}
    (h : ∀ q ∈ s.host.fns[f].sqs, q.deleting = none ∨ (s.q.ctxs.any fun p => p.2.fn == f && p.2.sq == q.id && !p.2.admin) = true) :
    s.settleDeletes f = s := by
  rw [State.settleDeletes_eq]
  generalize s.host.fns[f].sqs = l at h
  induction l with
  | nil => rfl
  | cons q l ih =>
    have hstep : s.settleQueue f q = s := by
      rw [State.settleQueue]
      rcases h q List.mem_cons_self with hq | hq
      · rw [hq]
      · split
        · rfl
        · exact if_pos hq
    rw [List.foldl_cons, hstep]
    exact ih fun q hq => h q (List.mem_cons_of_mem _ hq)

theorem State.afterAdmin_trans {s u t : State} (h1 : u = s.afterAdmin u) (h2 : t = u.afterAdmin t) : t = s.afterAdmin t := by
  rw [h2, h1]
  rfl

theorem completes_adminOwn {s : State} {q : AdmReq} {noCtx pfOnly recOk : Bool} {body : State → AdmRes} {P : State → Prop}
    (h : adminReady q noCtx pfOnly s = true) (hc : Completes (s.admin q noCtx pfOnly recOk body) P) :
    Completes (s.adminOwn q noCtx pfOnly recOk body) P := by
  rw [State.adminOwn_of_ready h]
  exact hc

theorem CompQueue.post_id (c : CompQueue) : c.post.id = c.id := by
  unfold CompQueue.post
  split <;> rfl

/-! ### Asynchronous events (R460) -/

/-- With no request outstanding an event waits. -/
theorem State.deliverAsync_of_idle {s : State} {f : Fn} (h : s.host.fns[f].aers = []) : s.deliverAsync f = s := by
  rw [State.deliverAsync]
  dsimp only
  rw [h]

theorem State.deliverAsync_of_quiet {s : State} {f : Fn} (h : s.host.fns[f].events = []) : s.deliverAsync f = s := by
  rw [State.deliverAsync]
  dsimp only
  rw [h, List.find?_nil]
  split
  next heq => nomatch heq
  · rfl

/-- An event reported to the oldest request. -/
theorem State.deliverAsync_of_event {s : State} {f : Fn} {cid : BitVec 16} {rest : List (BitVec 16)} {e : AsyncEvent}
    (haers : s.host.fns[f].aers = cid :: rest)
    (he : s.host.fns[f].events.find? (fun e => !s.host.fns[f].masked.contains (e.type, e.logPage)) = some e) :
    s.deliverAsync f = (s.modFn f fun x => { x with aers := rest, events := x.events.erase e, masked := (e.type, e.logPage) :: x.masked }).postAdmin
      f cid stOk e.dword [] := by
  rw [State.deliverAsync]
  dsimp only
  rw [haers, he]

/-! ### Log pages -/

/-- The entry taken shows in no log page. -/
theorem State.takeAdmin_smartPage (s : State) (f : Fn) : (s.takeAdmin f).smartPage f = s.smartPage f := by
  unfold State.smartPage State.criticalWarning
  rw [s.takeAdmin_same f]
  rfl

theorem State.takeAdmin_changedZonesPage (s : State) (f : Fn) (nsid : Nat) : (s.takeAdmin f).changedZonesPage f nsid = s.changedZonesPage f nsid := by
  unfold State.changedZonesPage
  rw [s.takeAdmin_same f]
  rfl

theorem State.takeAdmin_logPage (s : State) (f : Fn) (g : LogReq) : (s.takeAdmin f).logPage f g = s.logPage f g := by
  unfold State.logPage
  dsimp only
  rw [s.takeAdmin_same f, s.takeAdmin_smartPage f, s.takeAdmin_changedZonesPage f]
  rfl

/-- A log page that the function has, from an offset in it. -/
theorem completes_logPage {s : State} {q : AdmReq} {g : LogReq} {l : List Word} {P : State → Prop} (h : adminReady q false false s = true)
    (hal : g.off % 4 = 0 ∧ g.len % 4 = 0) (hlid : g.lid ≠ 0xC1) (hpage : s.logPage q.fn g = some l) (hoff : g.off ≤ 4 * l.length)
    (hP : ∀ t, AdminDone (if g.rae then s.takeAdmin q.fn else (s.takeAdmin q.fn).logRead q.fn g.lid.toNat g.nsid.toNat) t q.fn q.cid stOk 0
      ((l.drop (g.off / 4)).take (g.len / 4)) → P t) : Completes (execGetLogPage q g s) P := by
  have hpage' : (s.takeAdmin q.fn).logPage q.fn g = some l := (s.takeAdmin_logPage q.fn g).trans hpage
  unfold execGetLogPage
  refine completes_admin h ((if_neg (by omega)).trans ((if_neg fun h1 => hlid h1.1).trans ((if_neg ?_).trans ?_))) hP
  · rw [hpage']
    exact fun h1 => nomatch h1.2
  · rw [hpage']
    exact if_neg (Nat.not_lt.mpr hoff)

/-! ### The obligation -/

theorem Ctx.finish_finish (c : Ctx) (st : NvStatus) : (c.finish st).finish st = c.finish st := rfl

/-- The context of a number below 4096 ends. -/
theorem State.abortCtx_eq (s : State) {x : Nat} (hx : x < 4096) (st : NvStatus) : s.abortCtx x st =
    { s with q := { s.q with ctxs := s.q.ctxs.map fun p => if p.1 = x then (p.1, p.2.finish st) else p } } := by
  have hval : (finMod 4096 (by decide) x).val = x := Nat.mod_eq_of_lt hx
  unfold State.abortCtx State.modCtx State.modQ
  rw [hval]

/-- Contexts ended one after another, each counted as lost with its queue. -/
theorem State.abortCtx_fold (f : Fn) (st : NvStatus) (l : List (Nat × Ctx)) (s : State) (hl : ∀ p ∈ l, p.1 < 4096) :
    ∃ cnt : FnState → Nat, l.foldl (fun s p => (s.abortCtx p.1 st).modFn f fun x => { x with sqdelCnt := satAdd 16 x.sqdelCnt 1 }) s =
      { s with
        host := { s.host with fns := vmod s.host.fns f fun x => { x with sqdelCnt := cnt x } }
        q := { s.q with ctxs := s.q.ctxs.map fun p => if (l.any fun x => x.1 == p.1) = true then (p.1, p.2.finish st) else p } } := by
  induction l generalizing s with
  | nil =>
    refine ⟨(·.sqdelCnt), ?_⟩
    simp only [List.foldl_nil, List.any_nil, Bool.false_eq_true, if_false, List.map_id']
    rw [show (vmod s.host.fns f fun x => { x with sqdelCnt := x.sqdelCnt }) = s.host.fns from vmod_id _ _ rfl]
  | cons p l ih =>
    rw [List.foldl_cons, s.abortCtx_eq (hl p List.mem_cons_self)]
    obtain ⟨cnt, hfold⟩ := ih _ fun p hp => hl p (List.mem_cons_of_mem _ hp)
    refine ⟨fun x => cnt { x with sqdelCnt := satAdd 16 x.sqdelCnt 1 }, hfold.trans ?_⟩
    have hctxs : (s.q.ctxs.map fun c => if c.1 = p.1 then (c.1, c.2.finish st) else c).map
        (fun c => if (l.any fun x => x.1 == c.1) = true then (c.1, c.2.finish st) else c) =
        s.q.ctxs.map fun c => if ((p :: l).any fun x => x.1 == c.1) = true then (c.1, c.2.finish st) else c := by
      rw [List.map_map]
      refine List.map_congr_left fun c _ => ?_
      rw [Function.comp_apply, List.any_cons]
      by_cases hc : c.1 = p.1
      · rw [if_pos hc, hc, beq_self_eq_true, Bool.true_or, if_pos rfl]
        split
        · rw [Ctx.finish_finish]
        · rfl
      · rw [if_neg hc, beq_false_of_ne (Ne.symm hc), Bool.false_or]
    rw [← hctxs]
    unfold State.modFn State.modHost
    dsimp only
    rw [vmod_vmod]

section
variable (s : State) (f : Fn)

/-- The entry taken leaves the requests and the events of the function. -/
theorem State.takeAdmin_aers : (s.takeAdmin f).host.fns[f].aers = s.host.fns[f].aers := by rw [s.takeAdmin_same f]

theorem State.takeAdmin_events : (s.takeAdmin f).host.fns[f].events = s.host.fns[f].events := by rw [s.takeAdmin_same f]

theorem State.takeAdmin_masked : (s.takeAdmin f).host.fns[f].masked = s.host.fns[f].masked := by rw [s.takeAdmin_same f]

theorem State.takeAdmin_abortCnt : (s.takeAdmin f).host.fns[f].abortCnt = s.host.fns[f].abortCnt := by rw [s.takeAdmin_same f]

end

/-- A command of any function may be one of the physical function. -/
theorem adminReady_any {s : State} {q : AdmReq} {noCtx : Bool} (h : adminReady q noCtx true s = true) : adminReady q noCtx false s = true := by
  simp only [adminReady, Bool.and_eq_true, Bool.not_false, Bool.true_or] at h ⊢
  exact ⟨⟨h.1.1, trivial⟩, h.2⟩

theorem adminReady_pf {s : State} {q : AdmReq} {noCtx : Bool} (h : adminReady q noCtx true s = true) : q.fn = 0 := by
  simp only [adminReady, Bool.and_eq_true, Bool.or_eq_true, beq_iff_eq, Bool.not_true, Bool.false_eq_true, false_or] at h
  exact h.1.2

/-- The entry taken shows in no identification of a secondary controller. -/
theorem State.takeAdmin_identifySecondary (s : State) (f : Fn) (n : Nat) : (s.takeAdmin f).identifySecondary n = s.identifySecondary n := by
  have hfn : ∀ g : Fn, ∃ sqs, (s.takeAdmin f).host.fns[g] = { s.host.fns[g] with sqs := sqs } := fun g => by
    by_cases hg : f = g
    · subst hg
      exact ⟨_, s.takeAdmin_same f⟩
    · exact ⟨_, s.takeAdmin_other hg⟩
  have hbody : ∀ g : Fn, [mkw [bf 15 0 (g.val + 1), bf 31 16 1], mkw [bb 0 (s.takeAdmin f).host.fns[g].online],
      mkw [bf 15 0 g.val, bf 31 16 (s.takeAdmin f).host.fns[g].pairs], mkw [bf 15 0 (s.takeAdmin f).host.fns[g].vectors], 0, 0, 0, 0] =
      [mkw [bf 15 0 (g.val + 1), bf 31 16 1], mkw [bb 0 s.host.fns[g].online], mkw [bf 15 0 g.val, bf 31 16 s.host.fns[g].pairs],
        mkw [bf 15 0 s.host.fns[g].vectors], 0, 0, 0, 0] := fun g => by
    obtain ⟨sqs, hg⟩ := hfn g
    rw [hg]
  unfold State.identifySecondary
  dsimp only
  simp only [hbody]

theorem completes_identify_tunnelled : ∀ (s : State) (q : AdmReq) (tag : Nat) (i : IdentifyReq), (q.mi = some tag) → s.host.fns[q.fn].present = true →
   s.host.fns[q.fn].en = true → s.host.fns[q.fn].rdy = true → s.host.fns[q.fn].shst = 0 → (s.adminCtxs q.fn < 2) → i.cns = 0x01 →
     Completes (exec (.identify q i) s) fun t =>
       t = { s with out := { s.out with mi := (tag, 0, [0, 0, stOk.word] ++ s.idController q.fn) :: s.out.mi } } := by
  intro s q tag i hmi hpres hen hrdy hshst hroom hcns
  show Completes (execIdentify q i s) _
  unfold execIdentify State.admin
  dsimp only
  obtain ⟨cns, nsid, cntid, csi⟩ := i
  subst hcns
  rw [hpres, hen, hrdy, hshst, if_neg (by simp [hmi]), if_neg (by simp [Nat.not_le.mpr hroom]), if_neg (by simp),
    if_pos (by rw [hmi]; rfl : q.mi.isSome = true)]
  generalize s.idController q.fn = words
  refine ⟨_, rfl, ?_⟩
  show s.finishAdmin q stOk 0 (if stOk = stOk then words else []) = _
  rw [if_pos rfl, State.finishAdmin, if_pos rfl, State.answerAdmin, hmi]
  rfl

theorem completes_identify_controller : ∀ (s : State) (q : AdmReq) (i : IdentifyReq), adminReady q false false s = true → i.cns = 0x01 →
     Completes (exec (.identify q i) s) fun t => Concluded s t q stOk 0 (s.idController q.fn) ∧ t = s.afterAdmin t := by
  intro s q i h hcns
  show Completes (execIdentify q i s) _
  unfold execIdentify
  obtain ⟨cns, nsid, cntid, csi⟩ := i
  subst hcns
  exact completes_admin h rfl fun t ht => ⟨ht.concluded ⟨[], rfl⟩, ht.whole⟩

theorem completes_identify_virtualisation : ∀ (s : State) (q : AdmReq) (i : IdentifyReq), adminReady q false false s = true → (i.cns = 0x14 ∨ i.cns = 0x15) →
     Completes (exec (.identify q i) s) fun t =>
       Concluded s t q stOk 0 (if i.cns = 0x14 then s.identifyPrimary else s.identifySecondary i.cntid.toNat) ∧ t = s.afterAdmin t := by
  intro s q i h hcns
  show Completes (execIdentify q i s) _
  unfold execIdentify
  obtain ⟨cns, nsid, cntid, csi⟩ := i
  rcases hcns with hcns | hcns <;> subst hcns
  · exact completes_admin h rfl fun t ht => ⟨ht.concluded ⟨[], rfl⟩, ht.whole⟩
  · refine completes_admin h (u := s.takeAdmin q.fn) (dw0 := 0) (words := s.identifySecondary cntid.toNat) ?_
      fun t ht => ⟨ht.concluded ⟨[], rfl⟩, ht.whole⟩
    exact congrArg (fun words : List Word => ({ state := s.takeAdmin q.fn, words := words } : AdmRes)) (s.takeAdmin_identifySecondary ..)

theorem completes_abort : ∀ (s : State) (q : AdmReq) (sq cid : BitVec 16) (x : Nat) (c : Ctx), adminReady q false false s = true →
   (sq ≠ 0 ∨ s.host.fns[q.fn].aers.contains cid = false) → (x < 4096) →
     (s.q.ctxs.find? (fun p => p.2.fn == q.fn && p.2.sq == sq.toNat && p.2.sqe.cid == cid && !p.2.started && p.2.finished.isNone) = some (x, c)) →
     Completes (exec (.abort q sq cid) s) fun t =>
       (x, { c with finished := some (stGen 0x07 true) }) ∈ t.q.ctxs ∧ t.host.fns[q.fn].abortCnt = satAdd 16 s.host.fns[q.fn].abortCnt 1 ∧
       Concluded s t q stOk 0 [] ∧ t = ({ s with q := { s.q with ctxs := t.q.ctxs } } : State).afterAdmin t := by
  intro s q sq cid x c h haer hx hc
  show Completes (execAbort q sq cid s) _
  unfold execAbort
  rw [State.adminOwn_of_ready h]
  have hfn := s.takeAdmin_same q.fn
  refine completes_admin h (u := ((s.takeAdmin q.fn).abortCtx x (stGen 0x07 true)).modFn q.fn fun x => { x with abortCnt := satAdd 16 x.abortCnt 1 })
    (dw0 := 0) (words := []) ((if_neg ?_).trans ?_) fun t ht => ?_
  · rw [s.takeAdmin_aers]
    rintro ⟨h0, h1⟩
    exact haer.elim (· h0) fun h2 => Bool.false_ne_true (h2.symm.trans h1)
  · rw [show (s.takeAdmin q.fn).q.ctxs = s.q.ctxs from rfl, hc]
  · have hfin : c.finished = none := by
      have := List.find?_some hc
      simp only [Bool.and_eq_true, Option.isNone_iff_eq_none] at this
      exact this.2
    rw [State.abortCtx_eq _ hx] at ht
    refine ⟨?_, ?_, ht.concluded ⟨[], rfl⟩, ?_⟩
    · rw [ht.whole]
      refine List.mem_map.mpr ⟨(x, c), List.mem_of_find?_eq_some hc, ?_⟩
      rw [if_pos rfl, Ctx.finish, hfin]
      rfl
    · rw [ht.kept (·.abortCnt) fun _ _ _ _ _ => rfl, State.modFn_same]
      exact congrArg (satAdd 16 · 1) (s.takeAdmin_abortCnt q.fn)
    · rw [ht.whole]
      rfl

theorem completes_abort_none : ∀ (s : State) (q : AdmReq) (sq cid : BitVec 16), adminReady q false false s = true →
     (sq ≠ 0 ∨ s.host.fns[q.fn].aers.contains cid = false) →
     (s.q.ctxs.any (fun p => p.2.fn == q.fn && p.2.sq == sq.toNat && p.2.sqe.cid == cid && !p.2.started && p.2.finished.isNone) = false) →
     Completes (exec (.abort q sq cid) s) fun t =>
       Concluded s t q stOk 1 [] ∧ t.host.fns[q.fn].abortCnt = s.host.fns[q.fn].abortCnt ∧ t = s.afterAdmin t := by
  intro s q sq cid h haer hc
  show Completes (execAbort q sq cid s) _
  unfold execAbort
  rw [State.adminOwn_of_ready h]
  have hfn := s.takeAdmin_same q.fn
  refine completes_admin h (u := s.takeAdmin q.fn) (dw0 := 1) (words := []) ((if_neg ?_).trans ?_) fun t ht =>
    ⟨ht.concluded ⟨[], rfl⟩, ?_, ht.whole⟩
  · rw [s.takeAdmin_aers]
    rintro ⟨h0, h1⟩
    exact haer.elim (· h0) fun h2 => Bool.false_ne_true (h2.symm.trans h1)
  · rw [show (s.takeAdmin q.fn).q.ctxs = s.q.ctxs from rfl, List.find?_eq_none.mpr fun p hp => Bool.eq_false_iff.mp (List.any_eq_false.mp hc p hp |> Bool.eq_false_iff.mpr)]
  · rw [ht.kept (·.abortCnt) fun _ _ _ _ _ => rfl, s.takeAdmin_abortCnt]

theorem completes_abort_event : ∀ (s : State) (q : AdmReq) (cid : BitVec 16), adminReady q false false s = true →
     s.host.fns[q.fn].aers.contains cid = true →
     Completes (exec (.abort q 0 cid) s) fun t =>
       Concluded s t { fn := q.fn, cid := cid } (stGen 0x07 true) 0 [] ∧ Concluded s t q stOk 0 [] ∧
       t.host.fns[q.fn].aers = s.host.fns[q.fn].aers.erase cid ∧ t.host.fns[q.fn].abortCnt = satAdd 16 s.host.fns[q.fn].abortCnt 1 ∧
       t = s.afterAdmin t := by
  intro s q cid h haer
  show Completes (execAbort q 0 cid s) _
  unfold execAbort
  rw [State.adminOwn_of_ready h]
  have hfn := s.takeAdmin_same q.fn
  have h1 : ((0 : BitVec 16) = 0) ∧ ((s.takeAdmin q.fn).host.fns[q.fn].aers.contains cid) = true := ⟨rfl, by rw [s.takeAdmin_aers]; exact haer⟩
  refine completes_admin h (if_pos h1) fun t ht => ?_
  generalize hu : (s.takeAdmin q.fn).modFn q.fn (fun x => { x with aers := x.aers.erase cid, abortCnt := satAdd 16 x.abortCnt 1 }) = u at ht
  have hv := u.postAdmin_done q.fn cid (stGen 0x07 true) 0 []
  have huout : u.out = s.out := by rw [← hu]; rfl
  have haers : u.host.fns[q.fn].aers = s.host.fns[q.fn].aers.erase cid := by
    rw [← hu, State.modFn_same]
    exact congrArg (List.erase · cid) (s.takeAdmin_aers q.fn)
  have hcnt : u.host.fns[q.fn].abortCnt = satAdd 16 s.host.fns[q.fn].abortCnt 1 := by
    rw [← hu, State.modFn_same]
    exact congrArg (satAdd 16 · 1) (s.takeAdmin_abortCnt q.fn)
  obtain ⟨c1, hc1, hfields⟩ := hv.done
  obtain ⟨c2, hc2, hfields2⟩ := ht.done
  refine ⟨⟨[c2, c1], c1, ?_, List.mem_cons_of_mem _ List.mem_cons_self, hfields⟩, ⟨[c2, c1], c2, ?_, List.mem_cons_self, hfields2⟩, ?_, ?_, ?_⟩
  · rw [hc2, hc1, huout]
    rfl
  · rw [hc2, hc1, huout]
    rfl
  · rw [ht.kept (·.aers) fun _ _ _ _ _ => rfl, hv.kept (·.aers) fun _ _ _ _ _ => rfl, haers]
  · rw [ht.kept (·.abortCnt) fun _ _ _ _ _ => rfl, hv.kept (·.abortCnt) fun _ _ _ _ _ => rfl, hcnt]
  · exact State.afterAdmin_trans (State.afterAdmin_trans (by rw [← hu]; rfl) hv.whole) ht.whole

theorem completes_asynchronousEventRequest : ∀ (s : State) (q : AdmReq), adminReady q true false s = true → (s.host.fns[q.fn].aers.length < 8) →
     (s.host.fns[q.fn].events = []) →
     Completes (exec (.asynchronousEventRequest q) s) fun t =>
       t.host.fns[q.fn].aers = s.host.fns[q.fn].aers ++ [q.cid] ∧ t.out = s.out ∧ (∀ g : Fn, q.fn ≠ g → t.host.fns[g] = s.host.fns[g]) ∧
       t = { s with host := { s.host with fns := t.host.fns } } := by
  intro s q h hroom hev
  show Completes (execAsynchronousEventRequest q s) _
  unfold execAsynchronousEventRequest
  refine completes_adminOwn h ?_
  have hfn := s.takeAdmin_same q.fn
  have h1 : ¬8 ≤ (s.takeAdmin q.fn).host.fns[q.fn].aers.length := by
    rw [s.takeAdmin_aers]
    exact Nat.not_le.mpr hroom
  refine completes_admin_wait h ((if_neg h1).trans ?_) (dw0 := 0) (words := [])
    (u := (s.takeAdmin q.fn).modFn q.fn fun x => { x with aers := x.aers ++ [q.cid] }) ⟨?_, rfl, fun g hg => ?_, rfl⟩
  · rw [State.deliverAsync_of_quiet (by rw [State.modFn_same]; exact (s.takeAdmin_events q.fn).trans hev)]
  · rw [State.modFn_same]
    exact congrArg (· ++ [q.cid]) (s.takeAdmin_aers q.fn)
  · rw [State.modFn_other _ _ hg, s.takeAdmin_other hg]

theorem completes_asynchronousEventRequest_event : ∀ (s : State) (q : AdmReq) (e : AsyncEvent), adminReady q true false s = true → (s.host.fns[q.fn].aers = []) →
     (s.host.fns[q.fn].events.find? (fun e => !s.host.fns[q.fn].masked.contains (e.type, e.logPage)) = some e) →
     Completes (exec (.asynchronousEventRequest q) s) fun t =>
       Concluded s t q stOk e.dword [] ∧ t.host.fns[q.fn].aers = [] ∧ t.host.fns[q.fn].events = s.host.fns[q.fn].events.erase e ∧
       t.host.fns[q.fn].masked = (e.type, e.logPage) :: s.host.fns[q.fn].masked ∧ t = s.afterAdmin t := by
  intro s q e h haers he
  show Completes (execAsynchronousEventRequest q s) _
  unfold execAsynchronousEventRequest
  refine completes_adminOwn h ?_
  have hfn := s.takeAdmin_same q.fn
  have h1 : ¬8 ≤ (s.takeAdmin q.fn).host.fns[q.fn].aers.length := by
    rw [s.takeAdmin_aers, haers]
    decide
  generalize hu : (s.takeAdmin q.fn).modFn q.fn (fun x => { x with aers := x.aers ++ [q.cid] }) = u
  have huaers : u.host.fns[q.fn].aers = [q.cid] := by
    rw [← hu, State.modFn_same]
    exact congrArg (· ++ [q.cid]) ((s.takeAdmin_aers q.fn).trans haers)
  have huevents : u.host.fns[q.fn].events = s.host.fns[q.fn].events := by
    rw [← hu, State.modFn_same]
    exact s.takeAdmin_events q.fn
  have humasked : u.host.fns[q.fn].masked = s.host.fns[q.fn].masked := by
    rw [← hu, State.modFn_same]
    exact s.takeAdmin_masked q.fn
  have hdone := (u.modFn q.fn fun x => { x with aers := [], events := x.events.erase e, masked := (e.type, e.logPage) :: x.masked }).postAdmin_done
    q.fn q.cid stOk e.dword []
  rw [← State.deliverAsync_of_event huaers (by rw [huevents, humasked]; exact he)] at hdone
  refine completes_admin_wait h ((if_neg h1).trans (by rw [hu])) (dw0 := 0) (words := [])
    (u := u.deliverAsync q.fn) ⟨hdone.concluded ⟨[], by rw [← hu]; rfl⟩, ?_, ?_, ?_, ?_⟩
  · rw [hdone.kept (·.aers) fun _ _ _ _ _ => rfl, State.modFn_same]
  · rw [hdone.kept (·.events) fun _ _ _ _ _ => rfl, State.modFn_same]
    exact congrArg (List.erase · e) huevents
  · rw [hdone.kept (·.masked) fun _ _ _ _ _ => rfl, State.modFn_same]
    exact congrArg ((e.type, e.logPage) :: ·) humasked
  · exact State.afterAdmin_trans (u := u) (by rw [← hu]; rfl) hdone.whole

theorem completes_createIoSq : ∀ (s : State) (q : AdmReq) (n : NewSq), adminReady q false false s = true →
     (n.id ≠ 0 ∧ n.id.toNat < s.host.fns[q.fn].pairs) →
     (s.host.fns[q.fn].sqs.any (fun c => c.id == n.id.toNat) = false) →
     (n.cq ≠ 0 ∧ s.host.fns[q.fn].cqs.any (fun c => c.id == n.cq.toNat) = true) →
     (1 ≤ n.size.toNat ∧ n.size.toNat ≤ 0x3FFF) →
     Completes (exec (.createIoSq q n) s) fun t =>
       ({ id := n.id.toNat, cq := n.cq.toNat, size := n.size.toNat + 1, prio := n.prio.toNat } : SubQueue) ∈ t.host.fns[q.fn].sqs ∧
       t.host.fns[q.fn].sqs.length = s.host.fns[q.fn].sqs.length + 1 ∧ (∀ g : Fn, q.fn ≠ g → t.host.fns[g] = s.host.fns[g]) ∧
       Concluded s t q stOk 0 [] ∧ t = s.afterAdmin t := by
  intro s q n h hid hnew hcq hsize
  show Completes (execCreateIoSq q n s) _
  unfold execCreateIoSq
  rw [State.adminOwn_of_ready h]
  have hfn := s.takeAdmin_same q.fn
  have h1 : ¬(n.id.toNat = 0 ∨ (s.takeAdmin q.fn).host.fns[q.fn].pairs ≤ n.id.toNat ∨
      ((s.takeAdmin q.fn).host.fns[q.fn].sqs.any fun c => c.id == n.id.toNat) = true) := by
    rw [s.takeAdmin_any q.fn _ fun _ _ => rfl, hnew, hfn]
    rintro (h0 | h0 | h0)
    · exact hid.1 (BitVec.eq_of_toNat_eq h0)
    · exact Nat.not_le.mpr hid.2 h0
    · exact Bool.false_ne_true h0
  have h2 : ¬(n.cq = 0 ∨ (!((s.takeAdmin q.fn).host.fns[q.fn].cqs.any fun c => c.id == n.cq.toNat)) = true) := by
    rw [hfn, hcq.2]
    rintro (h0 | h0)
    · exact hcq.1 h0
    · exact Bool.false_ne_true h0
  have h3 : ¬(n.size.toNat = 0 ∨ 0x3FFF < n.size.toNat) := by omega
  refine completes_admin h ((if_neg h1).trans ((if_neg h2).trans (if_neg h3))) fun t ht => ⟨?_, ?_, fun g hg => ?_, ht.concluded ⟨[], rfl⟩, ht.whole⟩
  · rw [ht.kept (·.sqs) fun _ _ _ _ _ => rfl, State.modFn_same]
    exact List.mem_append_right _ List.mem_cons_self
  · rw [ht.kept (·.sqs) fun _ _ _ _ _ => rfl, State.modFn_same, List.length_append, s.takeAdmin_length]
    rfl
  · rw [ht.other g hg, State.modFn_other _ _ hg, s.takeAdmin_other hg]

theorem completes_deleteIoCq : ∀ (s : State) (q : AdmReq) (id : BitVec 16), adminReady q false false s = true →
     (id ≠ 0 ∧ s.host.fns[q.fn].cqs.any (fun c => c.id == id.toNat) = true) →
     (s.host.fns[q.fn].sqs.any (fun c => c.cq == id.toNat) = false) →
     Completes (exec (.deleteIoCq q id) s) fun t =>
       (t.host.fns[q.fn].cqs.any fun c => c.id == id.toNat) = false ∧ (∀ g : Fn, q.fn ≠ g → t.host.fns[g] = s.host.fns[g]) ∧
       Concluded s t q stOk 0 [] ∧ t = s.afterAdmin t := by
  intro s q id h hid hfree
  show Completes (execDeleteIoCq q id s) _
  unfold execDeleteIoCq
  rw [State.adminOwn_of_ready h]
  have hfn := s.takeAdmin_same q.fn
  have h1 : ¬(id = 0 ∨ (!((s.takeAdmin q.fn).host.fns[q.fn].cqs.any fun c => c.id == id.toNat)) = true) := by
    rw [hfn, hid.2]
    rintro (h0 | h0)
    · exact hid.1 h0
    · exact Bool.false_ne_true h0
  have h2 : ¬((s.takeAdmin q.fn).host.fns[q.fn].sqs.any fun c => c.cq == id.toNat) = true := by
    rw [s.takeAdmin_any q.fn _ fun _ _ => rfl, hfree]
    exact Bool.false_ne_true
  refine completes_admin h ((if_neg h1).trans (if_neg h2)) fun t ht => ⟨?_, fun g hg => ?_, ht.concluded ⟨[], rfl⟩, ht.whole⟩
  · rw [ht.queues, State.modFn_same, List.any_eq_false]
    intro c hc
    obtain ⟨y, hy, rfl⟩ := List.mem_map.mp hc
    rw [show (if y.id = 0 then y.post else y).id = y.id by rw [apply_ite CompQueue.id, y.post_id, ite_self]]
    simpa using (List.mem_filter.mp hy).2
  · rw [ht.other g hg, State.modFn_other _ _ hg, s.takeAdmin_other hg]

theorem completes_createIoCq : ∀ (s : State) (q : AdmReq) (n : NewCq), adminReady q false false s = true →
     (n.id ≠ 0 ∧ n.id.toNat < s.host.fns[q.fn].pairs) →
   (s.host.fns[q.fn].cqs.any (fun c => c.id == n.id.toNat) = false) → (1 ≤ n.size.toNat ∧ n.size.toNat ≤ 0x3FFF) →
     (n.vector.toNat < s.host.fns[q.fn].vectors) →
     Completes (exec (.createIoCq q n) s) fun t =>
       ({ id := n.id.toNat, size := n.size.toNat + 1, vector := n.vector.toNat, irqEn := n.irqEn } : CompQueue) ∈ t.host.fns[q.fn].cqs ∧
       t.host.fns[q.fn].cqs.length = s.host.fns[q.fn].cqs.length + 1 ∧ (∀ g : Fn, q.fn ≠ g → t.host.fns[g] = s.host.fns[g]) ∧
       Concluded s t q stOk 0 [] ∧ t = s.afterAdmin t := by
  intro s q n h hid hnew hsize hvec
  show Completes (execCreateIoCq q n s) _
  unfold execCreateIoCq
  rw [State.adminOwn_of_ready h]
  have hfn := s.takeAdmin_same q.fn
  have h0 : n.id.toNat ≠ 0 := fun h0 => hid.1 (BitVec.eq_of_toNat_eq h0)
  have h1 : ¬(n.id.toNat = 0 ∨ (s.takeAdmin q.fn).host.fns[q.fn].pairs ≤ n.id.toNat ∨
      ((s.takeAdmin q.fn).host.fns[q.fn].cqs.any fun c => c.id == n.id.toNat) = true) := by
    rw [hfn, hnew]
    rintro (h1 | h1 | h1)
    · exact h0 h1
    · exact Nat.not_le.mpr hid.2 h1
    · exact Bool.false_ne_true h1
  have h2 : ¬(n.size.toNat = 0 ∨ 0x3FFF < n.size.toNat) := by omega
  have h3 : ¬(s.takeAdmin q.fn).host.fns[q.fn].vectors ≤ n.vector.toNat := by
    rw [hfn]
    exact Nat.not_le.mpr hvec
  refine completes_admin h ((if_neg h1).trans ((if_neg h2).trans (if_neg h3))) fun t ht => ⟨?_, ?_, fun g hg => ?_, ht.concluded ⟨[], rfl⟩, ht.whole⟩
  · rw [ht.queues, State.modFn_same, List.map_append]
    refine List.mem_append_right _ ?_
    rw [List.map_singleton, if_neg h0]
    exact List.mem_cons_self
  · rw [ht.queues, State.modFn_same, List.length_map, List.length_append, hfn]
    rfl
  · rw [ht.other g hg, State.modFn_other _ _ hg, s.takeAdmin_other hg]

theorem completes_logPage_read : ∀ (s : State) (q : AdmReq) (g : LogReq) (l : List Word), adminReady q false false s = true →
   (g.off % 4 = 0 ∧ g.len % 4 = 0) → (g.lid ≠ 0xC1) → (s.logPage q.fn g = some l) → (g.off ≤ 4 * l.length) →
   g.rae = false → (s.host.fns[q.fn].aers = []) →
     Completes (exec (.getLogPage q g) s) fun t =>
       Concluded s t q stOk 0 ((l.drop (g.off / 4)).take (g.len / 4)) ∧
       t.host.fns[q.fn].masked = s.host.fns[q.fn].masked.filter (fun m => m.2 != g.lid.toNat) ∧
       t.host.fns[q.fn].changedNs = (if g.lid = 0x04 then [] else s.host.fns[q.fn].changedNs) ∧
       t.host.fns[q.fn].changedZones = (if g.lid = 0xBF then s.host.fns[q.fn].changedZones.filter (fun p => p.1 != g.nsid.toNat) else s.host.fns[q.fn].changedZones) ∧
       t = s.afterAdmin t := by
  intro s q g l h hal hlid hpage hoff hrae haers
  refine completes_logPage h hal hlid hpage hoff fun t ht => ?_
  rw [if_neg (by rw [hrae]; exact Bool.false_ne_true), State.logRead,
    State.deliverAsync_of_idle (by rw [State.modFn_same, s.takeAdmin_same]; exact haers)] at ht
  refine ⟨ht.concluded ⟨[], rfl⟩, ?_, ?_, ?_, ht.whole⟩
  · rw [ht.kept (·.masked) fun _ _ _ _ _ => rfl, State.modFn_same, s.takeAdmin_same]
  · rw [ht.kept (·.changedNs) fun _ _ _ _ _ => rfl, State.modFn_same, s.takeAdmin_same]
    exact if_congr (by rw [← BitVec.toNat_inj]; rfl) rfl rfl
  · rw [ht.kept (·.changedZones) fun _ _ _ _ _ => rfl, State.modFn_same, s.takeAdmin_same]
    exact if_congr (by rw [← BitVec.toNat_inj]; rfl) rfl rfl

theorem completes_identify_namespace : ∀ (s : State) (q : AdmReq) (i : IdentifyReq) (n : Namespace), adminReady q false false s = true → i.cns = 0x00 →
   (1 ≤ i.nsid.toNat ∧ i.nsid.toNat ≤ 16) → (s.host.namespaces.find? (fun n => n.nsid == i.nsid.toNat) = some n) →
     n.attached.getLsbD q.fn.val = true →
     Completes (exec (.identify q i) s) fun t => Concluded s t q stOk 0 n.identify ∧ t = s.afterAdmin t := by
  intro s q i n h hcns hnsid hn hatt
  show Completes (execIdentify q i s) _
  unfold execIdentify
  obtain ⟨cns, nsid, cntid, csi⟩ := i
  subst hcns
  refine completes_admin h (u := s.takeAdmin q.fn) (dw0 := 0) (words := n.identify) ((if_neg ?_).trans ?_)
    fun t ht => ⟨ht.concluded ⟨[], rfl⟩, ht.whole⟩
  · rintro (h0 | h0)
    · exact absurd h0 (Nat.pos_iff_ne_zero.mp hnsid.1)
    · exact Nat.not_le.mpr h0.1 hnsid.2
  · rw [show (s.takeAdmin q.fn).host.namespaces = s.host.namespaces from rfl, hn, Option.filter_some, if_pos hatt]

theorem completes_deviceSelfTest : ∀ (s : State) (q : AdmReq) (stc : Fin 16), adminReady q false true s = true → (stc = 1 ∨ stc = 2) →
     Completes (exec (.deviceSelfTest q 0 stc) s) fun t =>
       t.host.selfTestLog = ((stc.val, 0, s.rst.poh / 1024) :: s.host.selfTestLog).take 20 ∧ Concluded s t q stOk 0 [] ∧
       t = ({ s with host := { s.host with selfTestLog := t.host.selfTestLog } } : State).afterAdmin t := by
  intro s q stc h hstc
  show Completes (execDeviceSelfTest q 0 stc s) _
  unfold execDeviceSelfTest
  rw [State.adminOwn_of_ready h]
  refine completes_admin h ((if_neg (by simp)).trans ((if_neg ?_).trans (if_pos ?_))) fun t ht => ⟨?_, ht.concluded ⟨[], rfl⟩, ?_⟩
  · rcases hstc with rfl | rfl <;> decide
  · rcases hstc with rfl | rfl
    · exact .inl rfl
    · exact .inr rfl
  · rw [ht.whole]
    rfl
  · rw [show t.host.selfTestLog = ((stc.val, 0, s.rst.poh / 1024) :: s.host.selfTestLog).take 20 by rw [ht.whole]; rfl]
    exact ht.whole

/-- The submission queues of a function, one marked for deletion. -/
def markDeleting (l : List SubQueue) (id : Nat) (cid : BitVec 16) : List SubQueue :=
  l.map fun y => if y.id = id then { y with deleting := some cid } else y

/-- What DELETE_IO_SQ makes of a queue that it finds: its commands not begun end, and the queue is marked. -/
def State.deleteMarked (s : State) (q : AdmReq) (id : Nat) : State :=
  ((s.q.ctxs.filter fun p => p.2.fn == q.fn && p.2.sq == id && !p.2.admin && !p.2.started && p.2.finished.isNone).foldl
    (fun s p => (s.abortCtx p.1 (stGen 0x08 true)).modFn q.fn fun x => { x with sqdelCnt := satAdd 16 x.sqdelCnt 1 }) s).modFn q.fn fun x =>
      { x with sqs := markDeleting x.sqs id q.cid }

theorem completes_deleteIoSq_of {s : State} {q : AdmReq} {id : BitVec 16} {sq : SubQueue} {P : State → Prop} (h : adminReady q false false s = true)
    (hid : id ≠ 0) (hsq : s.host.fns[q.fn].sqs.find? (fun c => c.id == id.toNat) = some sq) (hdel : sq.deleting = none)
    (hP : P (((s.takeAdmin q.fn).deleteMarked q sq.id).settleDeletes q.fn)) : Completes (exec (.deleteIoSq q id) s) P := by
  show Completes (execDeleteIoSq q id s) _
  unfold execDeleteIoSq
  refine completes_adminOwn h ?_
  have hid0 : id.toNat ≠ 0 := fun h0 => hid (BitVec.eq_of_toNat_eq h0)
  have hfind := State.takeAdmin_find hid0 hsq
  refine completes_admin_wait h ?_ (dw0 := 0) (words := []) hP
  dsimp only
  rw [hfind]
  exact if_neg (by rw [hdel]; rintro (h0 | h0); exacts [hid h0, Bool.false_ne_true h0])

theorem State.takeAdmin_sub_mem {s : State} {f : Fn} {y : SubQueue} (h : y ∈ (s.takeAdmin f).host.fns[f].sqs) :
    ∃ z ∈ s.host.fns[f].sqs, y.id = z.id ∧ y.deleting = z.deleting := by
  rw [State.takeAdmin_sqs] at h
  obtain ⟨z, hz, rfl⟩ := List.mem_map.mp h
  refine ⟨z, hz, ?_⟩
  split <;> exact ⟨rfl, rfl⟩

theorem completes_deleteIoSq : ∀ (s : State) (q : AdmReq) (id : BitVec 16) (sq : SubQueue), adminReady q false false s = true → (id ≠ 0) →
   (s.host.fns[q.fn].sqs.find? (fun c => c.id == id.toNat) = some sq) → sq.deleting = none →
     (s.q.ctxs.any (fun p => p.2.fn == q.fn && p.2.sq == sq.id && !p.2.admin) = false) →
     Completes (exec (.deleteIoSq q id) s) fun t =>
       (t.host.fns[q.fn].sqs.any fun c => c.id == id.toNat) = false ∧ Concluded s t q stOk 0 [] ∧
       (∀ c ∈ t.q.contracts, ¬ (c.2.fn = q.fn ∧ c.2.sq = sq.id)) ∧ t.q.ctxs = s.q.ctxs ∧
       t = ({ s with q := t.q } : State).afterAdmin t := by
  intro s q id sq h hid hsq hdel hfree
  have hid0 : id.toNat ≠ 0 := fun h0 => hid (BitVec.eq_of_toNat_eq h0)
  have hsqid : sq.id = id.toNat := by simpa using List.find?_some hsq
  refine completes_deleteIoSq_of h hid hsq hdel ?_
  have hidle : ((s.takeAdmin q.fn).q.ctxs.filter fun p =>
      p.2.fn == q.fn && p.2.sq == sq.id && !p.2.admin && !p.2.started && p.2.finished.isNone) = [] := by
    refine List.filter_eq_nil_iff.mpr fun p hp hall => ?_
    have hno := List.any_eq_false.mp hfree p hp
    simp only [Bool.and_eq_true] at hall hno
    exact hno hall.1.1
  have hmarked : (s.takeAdmin q.fn).deleteMarked q sq.id =
      (s.takeAdmin q.fn).modFn q.fn fun x => { x with sqs := markDeleting x.sqs sq.id q.cid } := by
    rw [State.deleteMarked, hidle, List.foldl_nil]
  rw [hmarked]
  generalize hu : (s.takeAdmin q.fn).modFn q.fn (fun x => { x with sqs := markDeleting x.sqs sq.id q.cid }) = u
  have hsqs : u.host.fns[q.fn].sqs = markDeleting (s.takeAdmin q.fn).host.fns[q.fn].sqs sq.id q.cid := by rw [← hu, State.modFn_same]
  have hmem : { sq with deleting := some q.cid } ∈ u.host.fns[q.fn].sqs := by
    rw [hsqs]
    exact List.mem_map.mpr ⟨sq, List.mem_of_find?_eq_some (State.takeAdmin_find hid0 hsq), if_pos rfl⟩
  obtain ⟨hkept, hgone, hcontracts, hdone⟩ := State.settleDeletes_effect hmem rfl (by rw [← hu]; exact hfree)
  generalize u.settleDeletes q.fn = t at hkept hgone hcontracts hdone ⊢
  have huq : u.q = s.q := by rw [← hu]; rfl
  refine ⟨List.any_eq_false.mpr fun c hc => ?_, ?_, fun c hc => hcontracts c hc, ?_, ?_⟩
  · rw [beq_iff_eq, ← hsqid]
    exact hgone c hc
  · obtain ⟨l, c, hl, hc⟩ := hdone
    exact ⟨l, c, by rw [hl, ← hu]; rfl, hc⟩
  · rw [hkept.q, huq]
  · rw [hkept.whole, ← hu]
    rfl

theorem completes_deleteIoSq_wait : ∀ (s : State) (q : AdmReq) (id : BitVec 16) (sq : SubQueue), adminReady q false false s = true → (id ≠ 0) →
   (s.host.fns[q.fn].sqs.find? (fun c => c.id == id.toNat) = some sq) → sq.deleting = none →
     (s.q.ctxs.any (fun p => p.2.fn == q.fn && p.2.sq == sq.id && !p.2.admin) = true) →
     (s.host.fns[q.fn].sqs.all (fun c => c.id == id.toNat || c.deleting.isNone) = true) →
     (s.q.ctxs.all (fun p => decide (p.1 < 4096)) = true) →
     Completes (exec (.deleteIoSq q id) s) fun t =>
       (∀ c ∈ t.host.fns[q.fn].sqs, c.id = id.toNat → c.deleting = some q.cid) ∧
       (∀ p ∈ t.q.ctxs, p.2.fn = q.fn → p.2.sq = sq.id → p.2.admin = false → p.2.started = false → p.2.finished.isSome = true) ∧
       t.out.completions = s.out.completions ∧ t = ({ s with q := { s.q with ctxs := t.q.ctxs } } : State).afterAdmin t := by
  intro s q id sq h hid hsq hdel hbusy hothers hkeys
  have hsqid : sq.id = id.toNat := by simpa using List.find?_some hsq
  refine completes_deleteIoSq_of h hid hsq hdel ?_
  have hlow : ∀ p ∈ ((s.takeAdmin q.fn).q.ctxs.filter fun p =>
      p.2.fn == q.fn && p.2.sq == sq.id && !p.2.admin && !p.2.started && p.2.finished.isNone), p.1 < 4096 := fun p hp =>
    of_decide_eq_true (List.all_eq_true.mp hkeys p (List.mem_of_mem_filter hp))
  obtain ⟨cnt, hfold⟩ := State.abortCtx_fold q.fn (stGen 0x08 true) _ _ hlow
  have hmarked : (s.takeAdmin q.fn).deleteMarked q sq.id = _ :=
    congrArg (fun u : State => u.modFn q.fn fun x => { x with sqs := markDeleting x.sqs sq.id q.cid }) hfold
  generalize (s.takeAdmin q.fn).deleteMarked q sq.id = u at hmarked ⊢
  have hctxs : u.q.ctxs = s.q.ctxs.map fun p => if ((s.q.ctxs.filter fun p =>
      p.2.fn == q.fn && p.2.sq == sq.id && !p.2.admin && !p.2.started && p.2.finished.isNone).any fun x => x.1 == p.1) = true
        then (p.1, p.2.finish (stGen 0x08 true)) else p := by
    rw [hmarked]
    rfl
  have hsqs : u.host.fns[q.fn].sqs = markDeleting (s.takeAdmin q.fn).host.fns[q.fn].sqs sq.id q.cid := by
    rw [hmarked, State.modFn_same]
    dsimp only
    rw [vmod_same]
  have hwait : u.settleDeletes q.fn = u := by
    refine State.settleDeletes_wait fun y hy => ?_
    rw [hsqs] at hy
    obtain ⟨z, hz, rfl⟩ := List.mem_map.mp hy
    by_cases hzid : z.id = sq.id
    · right
      rw [if_pos hzid, hctxs, List.any_map, ← hbusy]
      congr 1
      funext p
      rw [Function.comp_apply, hzid]
      split <;> rfl
    · left
      rw [if_neg hzid]
      obtain ⟨z', hz', hid', hdel'⟩ := State.takeAdmin_sub_mem hz
      have := List.all_eq_true.mp hothers z' hz'
      rw [hid'] at hzid
      rw [hdel']
      simpa [hsqid ▸ hzid] using this
  rw [hwait]
  refine ⟨fun c hc hcid => ?_, fun p hp hfn hsq' hadm hst => ?_, ?_, ?_⟩
  · rw [hsqs] at hc
    obtain ⟨z, hz, rfl⟩ := List.mem_map.mp hc
    by_cases hzid : z.id = sq.id
    · rw [if_pos hzid]
    · rw [if_neg hzid] at hcid
      exact absurd (hcid.trans hsqid.symm) hzid
  · rw [hctxs] at hp
    obtain ⟨c, hc, rfl⟩ := List.mem_map.mp hp
    by_cases hno : ((s.q.ctxs.filter fun p =>
        p.2.fn == q.fn && p.2.sq == sq.id && !p.2.admin && !p.2.started && p.2.finished.isNone).any fun x => x.1 == c.1) = true
    · rw [if_pos hno]
      rfl
    · rw [if_neg hno] at hfn
      rw [if_neg hno] at hsq' hadm hst
      rw [if_neg hno]
      by_contra hfin
      refine hno (List.any_eq_true.mpr ⟨c, List.mem_filter.mpr ⟨hc, ?_⟩, beq_self_eq_true _⟩)
      simp [hfn, hsq', hadm, hst, Option.not_isSome_iff_eq_none.mp hfin]
  · rw [hmarked]
    rfl
  · rw [hmarked]
    rfl

/-- Settles O50. -/
theorem adminQueuesAndLogs : Obligations.AdminQueuesAndLogs := by
  refine ⟨fun s q id sq h hid hsq hdel hfree => ?_, fun s q id sq h hid hsq hdel hbusy hothers hkeys => ?_, fun s q n h hid hnew hcq hsize => ?_,
    fun s q tag n hmi => ?_, fun s q id h hid hfree => ?_, fun s q n h hid hnew hsize hvec => ?_, fun s q g l h hal hlid hpage hoff hrae => ?_,
    fun s q g l h hal hlid hpage hoff hrae haers => ?_, fun s q g h hal hlid hoff => ?_, fun s q i h hcns => ?_,
    fun s q i n h hcns hnsid hn hatt => ?_, fun s q i h hcns => ?_, fun s q i h hcns => ?_, fun s q tag i hmi hpres hen hrdy hshst hroom hcns => ?_,
    fun s q tag i hmi hpres => ?_, fun s q sq cid x c h haer hx hc => ?_, fun s q sq cid h haer hc => ?_, fun s q cid h haer => ?_,
    fun s q fid h hkept => ?_, fun s q h hroom hev => ?_, fun s q e h haers he => ?_, fun s q h => ?_, fun s q stc h hstc => ?_⟩
  · -- DELETE_IO_SQ
    exact completes_deleteIoSq s q id sq h hid hsq hdel hfree
  · exact completes_deleteIoSq_wait s q id sq h hid hsq hdel hbusy hothers hkeys
  · exact completes_createIoSq s q n h hid hnew hcq hsize
  · -- CREATE_IO_SQ tunnelled
    show Completes (execCreateIoSq q n s) _
    unfold execCreateIoSq
    exact ⟨_, if_pos (by rw [hmi]; rfl), by rw [State.refuseMi, hmi]; rfl⟩
  · exact completes_deleteIoCq s q id h hid hfree
  · exact completes_createIoCq s q n h hid hnew hsize hvec
  · -- GET_LOG_PAGE
    refine completes_logPage h hal hlid hpage hoff fun t ht => ?_
    rw [if_pos hrae] at ht
    refine ⟨ht.concluded ⟨[], rfl⟩, ?_, ?_, ht.whole⟩
    · rw [ht.kept (·.masked) fun _ _ _ _ _ => rfl, s.takeAdmin_same]
    · rw [ht.kept (·.changedZones) fun _ _ _ _ _ => rfl, s.takeAdmin_same]
  · exact completes_logPage_read s q g l h hal hlid hpage hoff hrae haers
  · -- GET_LOG_PAGE of the recorder
    show Completes (execGetLogPage q g s) _
    unfold execGetLogPage
    exact completes_admin (adminReady_any h) ((if_neg (by omega)).trans ((if_pos ⟨hlid, .inl (adminReady_pf h)⟩).trans
      (if_neg (Nat.not_lt.mpr hoff)))) fun t ht => ⟨ht.concluded ⟨[], rfl⟩, ht.whole⟩
  · exact completes_identify_controller s q i h hcns
  · exact completes_identify_namespace s q i n h hcns hnsid hn hatt
  · -- IDENTIFY of the namespaces attached
    show Completes (execIdentify q i s) _
    unfold execIdentify
    obtain ⟨cns, nsid, cntid, csi⟩ := i
    subst hcns
    exact completes_admin h rfl fun t ht => ⟨ht.concluded ⟨[], rfl⟩, ht.whole⟩
  · exact completes_identify_virtualisation s q i h hcns
  · exact completes_identify_tunnelled s q tag i hmi hpres hen hrdy hshst hroom hcns
  · -- IDENTIFY of a function that is not there
    show Completes (execIdentify q i s) _
    unfold execIdentify State.admin
    exact ⟨_, if_pos (by rw [hpres, hmi]; rfl), by rw [State.refuseMi, hmi]; rfl⟩
  · exact completes_abort s q sq cid x c h haer hx hc
  · exact completes_abort_none s q sq cid h haer hc
  · exact completes_abort_event s q cid h haer
  · -- GET_FEATURES
    show Completes (execGetFeatures q fid s) _
    unfold execGetFeatures
    refine completes_admin h (if_pos hkept) fun t ht => ⟨?_, ht.whole⟩
    have hfeature : (s.takeAdmin q.fn).host.fns[q.fn].feature fid.toNat = s.host.fns[q.fn].feature fid.toNat := by
      rw [s.takeAdmin_same]
      rfl
    rw [hfeature] at ht
    exact ht.concluded ⟨[], rfl⟩
  · exact completes_asynchronousEventRequest s q h hroom hev
  · exact completes_asynchronousEventRequest_event s q e h haers he
  · -- KEEP_ALIVE
    show Completes (execKeepAlive q s) _
    unfold execKeepAlive
    rw [State.adminOwn_of_ready h]
    refine completes_admin h rfl fun t ht => ⟨?_, ht.concluded ⟨[], rfl⟩, fun g hg => ?_, ht.whole⟩
    · rw [ht.kept (·.kaLast) fun _ _ _ _ _ => rfl, State.modFn_same]
      rfl
    · rw [ht.other g hg, State.modFn_other _ _ hg, s.takeAdmin_other hg]
  · exact completes_deviceSelfTest s q stc h hstc

end Sys2Proof.Machine
end

section
/-! SUPPORT. Firmware download, commit, activation and retirement, and the security packets (18_security_firmware.md). -/

namespace Sys2Proof.Machine
open Sys2Proof
set_option Elab.async false

/-! ### Signed objects that fail a check -/

/-- A move within security and an event. -/
theorem Moves.afterEvent_sec {s t : State} (h : Moves [.trc, .sec, .evr] s t) : t = ({ s with sec := t.sec } : State).afterEvent t :=
  h.eq_of_parts rfl fun x => by cases x <;> first | rfl | exact fun _ => rfl

/-- An object that fails a check counts and nothing else. -/
theorem State.objFailed_sec (s : State) (st : Nat) :
    ∃ a b, (s.objFailed st).sec = { s.sec with rollRejCnt := a, sigFailCnt := b } := by
  unfold State.objFailed
  dsimp only
  rw [State.condSec_sec, State.saturated_sec, State.modSec_sec]
  split
  · exact ⟨_, _, rfl⟩
  · exact ⟨_, _, rfl⟩

theorem State.objFailed_effect (s : State) (st : Nat) :
    s.objFailed st = ({ s with sec := (s.objFailed st).sec } : State).afterEvent (s.objFailed st) := (s.objFailed_moves st).afterEvent_sec

theorem State.objFailed_out (s : State) (st : Nat) : (s.objFailed st).out = s.out := (s.objFailed_moves st).out_eq rfl

theorem State.objFailed_nor (s : State) (st : Nat) : (s.objFailed st).nor = s.nor := (s.objFailed_moves st).nor_eq rfl

theorem State.objFailed_commit (s : State) (st : Nat) : (s.objFailed st).sec.commit = s.sec.commit := by
  obtain ⟨a, b, h⟩ := s.objFailed_sec st
  rw [h]

theorem State.objFailed_dbgUnlock (s : State) (st : Nat) : (s.objFailed st).sec.dbgUnlock = s.sec.dbgUnlock := by
  obtain ⟨a, b, h⟩ := s.objFailed_sec st
  rw [h]

theorem State.objFailed_drbg (s : State) (st : Nat) : (s.objFailed st).sec.drbg = s.sec.drbg := by
  obtain ⟨a, b, h⟩ := s.objFailed_sec st
  rw [h]

/-! ### Responders resynchronised -/

theorem State.resynch_all (s : State) (r : SpdmIx) :
    (s.resynch fun _ => true).sec.spdm[r] = { s.sec.spdm[r] with resynch := true, sessions := [] } := by
  unfold State.resynch
  rw [State.modSec_sec, Fin.getElem_fin, Vector.getElem_ofFn, if_pos rfl]

theorem State.resynch_eq (s : State) (f : SpdmIx → Bool) :
    s.resynch f = { s with sec := { s.sec with spdm := (s.resynch f).sec.spdm } } := rfl

/-! ### The completion of an admin command on a state changed in some parts -/

section
variable {s u t : State} {q : AdmReq} {f : Fn} {cid : BitVec 16} {st : NvStatus} {dw0 : Word} {words : List Word}

theorem AdminDone.sec (h : AdminDone u t f cid st dw0 words) : t.sec = u.sec := h.moves.sec_eq rfl

theorem AdminDone.nor (h : AdminDone u t f cid st dw0 words) : t.nor = u.nor := h.moves.nor_eq rfl

/-- The completion on a state that differs in security and NOR. -/
theorem AdminDone.whole_secNor (h : AdminDone u t f cid st dw0 words) (hu : u = ({ s with sec := u.sec, nor := u.nor } : State).afterAdmin u) :
    t = ({ s with sec := t.sec, nor := t.nor } : State).afterAdmin t := by
  rw [h.sec, h.nor, h.whole]
  generalize u.sec = x, u.nor = y at hu ⊢
  rw [hu]
  rfl

theorem AdminDone.concluded_of_out (h : AdminDone u t q.fn q.cid st dw0 words) (hout : u.out = s.out) : Concluded s t q st dw0 words :=
  h.concluded ⟨[], congrArg Outputs.completions hout⟩

end

section
variable {s : State} {q : AdmReq} {noCtx pfOnly recOk : Bool} {body body' : State → AdmRes} {P : State → Prop}

/-- Only what the body makes of the state with the entry taken counts. -/
theorem completes_admin_congr (h : adminReady q noCtx pfOnly s = true) (hbody : body (s.takeAdmin q.fn) = body' (s.takeAdmin q.fn))
    (hP : Completes (s.admin q noCtx pfOnly recOk body') P) : Completes (s.admin q noCtx pfOnly recOk body) P := by
  rw [State.admin_of_ready recOk body h, hbody]
  rw [State.admin_of_ready recOk body' h] at hP
  exact hP

theorem adminReady_recovery (h : adminReady q noCtx pfOnly s = true) : s.rst.recovery = false := by
  simp only [adminReady, Bool.and_eq_true, Bool.not_eq_true'] at h
  exact h.2

end

/-- An object that fails a check, in a command taken from the queue of f. -/
theorem State.objFailed_whole (s : State) (f : Fn) (st : Nat) : (s.takeAdmin f).objFailed st =
    ({ s with sec := ((s.takeAdmin f).objFailed st).sec, nor := ((s.takeAdmin f).objFailed st).nor } : State).afterAdmin ((s.takeAdmin f).objFailed st) := by
  have hwhole := (s.takeAdmin f).objFailed_effect st
  have hnor := (s.takeAdmin f).objFailed_nor st
  generalize (s.takeAdmin f).objFailed st = u at hwhole hnor ⊢
  rw [hnor]
  generalize u.sec = x at hwhole ⊢
  rw [hwhole]
  rfl

/-! ### Images committed (R598) -/

section
variable {s : State} {q : AdmReq} {slot : Fin 8} {n action : Nat} {o : SignedObj}
  (hslot : s.namedSlot slot = some n) (hrun : n ≠ s.sec.runSlot) (hstaged : s.sec.staged = some o)
include hslot hrun hstaged

theorem State.commitImage_ok (hok : s.objCheck o .image s.sec.stagedLen = none) :
    s.commitImage q slot action = { state := s.startCommit q n action o, status := none } := by
  have hcheck : s.stagedCheck .image = none := by rw [State.stagedCheck, hstaged]; exact hok
  unfold State.commitImage
  rw [hslot]
  dsimp only
  rw [if_neg (fun h => hrun h.1), hcheck, hstaged]

theorem State.commitImage_failed {st : Nat} (hbad : s.objCheck o .image s.sec.stagedLen = some st) :
    s.commitImage q slot action = .fail (s.objFailed st) (commitStatus st) := by
  have hcheck : s.stagedCheck .image = some st := by rw [State.stagedCheck, hstaged]; exact hbad
  unfold State.commitImage
  rw [hslot]
  dsimp only
  rw [if_neg (fun h => hrun h.1), hcheck]

end

theorem State.startCommit_slot (s : State) (q : AdmReq) (n action : Nat) (o : SignedObj) :
    vget (s.startCommit q n action o).nor.slots n none = none := by
  show vget (if h : n < 2 then s.nor.slots.set n none else s.nor.slots) n none = none
  by_cases h : n < 2
  · rw [dif_pos h, vget, dif_pos h]
    exact Vector.getElem_set_self ..
  · rw [dif_neg h, vget, dif_neg h]

theorem completes_commitImage {s : State} {q : AdmReq} {slot : Fin 8} {n : Nat} {o : SignedObj} {recOk : Bool} (action : Nat)
    (h : adminReady q false true s = true) (hcommit : s.sec.commit = none) (hslot : s.namedSlot slot = some n) (hrun : n ≠ s.sec.runSlot)
    (hstaged : s.sec.staged = some o) : Completes (s.admin q false true recOk fun s => s.commitImage q slot action) fun t =>
      (s.objCheck o .image s.sec.stagedLen = none →
        t.sec = { s.sec with commit := some { obj := o, slot := n, action := action, fn := q.fn, cid := q.cid }, actState := .programming } ∧
        vget t.nor.slots n none = none ∧ t.out = s.out) ∧
      (∀ st, s.objCheck o .image s.sec.stagedLen = some st → Concluded s t q (commitStatus st) 0 [] ∧ t.nor = s.nor ∧ t.sec.commit = none) ∧
      t = ({ s with sec := t.sec, nor := t.nor } : State).afterAdmin t := by
  have hmi := adminReady_mi h
  rcases hcheck : s.objCheck o .image s.sec.stagedLen with _ | st
  · refine completes_admin_wait h (dw0 := 0) (words := [])
      ((s.takeAdmin q.fn).commitImage_ok (q := q) (action := action) hslot hrun hstaged hcheck) ⟨fun _ => ⟨?_, ?_, rfl⟩, fun st hst => ?_, rfl⟩
    · show { s.sec with commit := some { obj := o, slot := n, action := action, fn := q.fn, cid := q.cid, mi := q.mi }, actState := .programming } = _
      rw [hmi]
    · exact State.startCommit_slot ..
    · exact absurd hst nofun
  · refine completes_admin_fail h ((s.takeAdmin q.fn).commitImage_failed (q := q) (action := action) hslot hrun hstaged hcheck) fun t ht =>
      ⟨fun hst => ?_, fun st' hst => ?_, ?_⟩
    · exact absurd hst nofun
    · obtain rfl : st = st' := Option.some.inj hst
      refine ⟨ht.concluded_of_out ((s.takeAdmin q.fn).objFailed_out st), ht.nor.trans ((s.takeAdmin q.fn).objFailed_nor st), ?_⟩
      rw [ht.sec, State.objFailed_commit]
      exact hcommit
    · exact ht.whole_secNor (s.objFailed_whole q.fn st)

/-! ### Patches committed (R599) -/

/-- A sequencer asked to hold for a patch. -/
def State.holdPatch (o : SignedObj) (s : State) (a : Eng) : State :=
  if s.enginePresent a && s.eng[a].seq.state != .off && s.eng[a].seq.state != .failed then
    s.modSeq a fun x =>
      let before := ((x.holdImage.map fun p => p.2.2).getD [])
      { x with holdReq := true, holdImage := some (o.storeVer, o.patchLvl, before ++ o.words) }
  else s

theorem State.holdPatch_moves (o : SignedObj) (s : State) (a : Eng) : Moves [.seq] s (s.holdPatch o a) := .ite (State.modSeq_moves ..) (.refl ..)

theorem State.holdPatch_state (o : SignedObj) (s : State) (a b : Eng) : (s.holdPatch o a).eng[b].seq.state = s.eng[b].seq.state := by
  unfold State.holdPatch
  split
  · by_cases h : a = b
    · subst h
      rw [State.modSeq_same]
    · rw [show (s.modSeq a _).eng[b] = s.eng[b] from State.modEng_other _ _ h]
  · rfl

/-- A request to hold stays. -/
theorem State.holdPatch_stays (o : SignedObj) {s : State} (a : Eng) {b : Eng} (h : s.eng[b].seq.holdReq = true) :
    (s.holdPatch o a).eng[b].seq.holdReq = true := by
  unfold State.holdPatch
  split
  · by_cases hab : a = b
    · subst hab
      rw [State.modSeq_same]
    · rw [show (s.modSeq a _).eng[b] = s.eng[b] from State.modEng_other _ _ hab]
      exact h
  · exact h

theorem State.holdPatch_self (o : SignedObj) {s : State} {a : Eng} (hpres : s.enginePresent a = true) (hrun : s.eng[a].seq.state = .run) :
    (s.holdPatch o a).eng[a].seq.holdReq = true := by
  rw [State.holdPatch, if_pos (by rw [hpres, hrun]; rfl), State.modSeq_same]

theorem State.holdPatches_hold (o : SignedObj) {a : Eng} (l : List Eng) {s : State} (hpres : s.enginePresent a = true)
    (hrun : s.eng[a].seq.state = .run) (h : a ∈ l ∨ s.eng[a].seq.holdReq = true) :
    (l.foldl (State.holdPatch o) s).eng[a].seq.holdReq = true := by
  induction l generalizing s with
  | nil => exact h.resolve_left List.not_mem_nil
  | cons b l ih =>
    rw [List.foldl_cons]
    have hpres' : (s.holdPatch o b).enginePresent a = true := by
      rw [State.enginePresent, show (s.holdPatch o b).layout = s.layout from (s.holdPatch_moves o b).same .layout rfl]
      exact hpres
    refine ih hpres' ((s.holdPatch_state o b a).trans hrun) ?_
    rcases h with h | h
    · rcases List.mem_cons.mp h with rfl | h
      · exact .inr (State.holdPatch_self o hpres hrun)
      · exact .inl h
    · exact .inr (State.holdPatch_stays o b h)

theorem State.commitPatch_eq (s : State) (q : AdmReq) (o : SignedObj) : s.commitPatch q o =
    (((fins 4).foldl (State.holdPatch o) (s.modNor fun n => { n with patches := n.patches ++ [o] })).modSec fun x =>
      { x with commit := some { obj := o, slot := 2, action := 3, fn := q.fn, cid := q.cid, mi := q.mi } }).patchApplied := rfl

/-- A patch committed is stored, and the sequencers that run hold for it. -/
theorem State.commitPatch_effect (s : State) (q : AdmReq) (o : SignedObj) :
    (s.commitPatch q o).nor = { s.nor with patches := s.nor.patches ++ [o] } ∧
      ∀ a : Eng, s.enginePresent a = true → s.eng[a].seq.state = .run → (s.commitPatch q o).eng[a].seq.holdReq = true := by
  rw [State.commitPatch_eq]
  have hfold := Moves.fold (State.holdPatch o) (fins 4) (s.modNor fun n => { n with patches := n.patches ++ [o] }) fun s a => s.holdPatch_moves o a
  have hheld := fun a hpres hrun => State.holdPatches_hold o (a := a) (fins 4) (s := s.modNor fun n => { n with patches := n.patches ++ [o] })
    hpres hrun (.inl (List.mem_finRange a))
  generalize (fins 4).foldl (State.holdPatch o) (s.modNor fun n => { n with patches := n.patches ++ [o] }) = u at hfold hheld ⊢
  have hend := (u.modSec fun x => { x with commit := some { obj := o, slot := 2, action := 3, fn := q.fn, cid := q.cid, mi := q.mi } }).patchApplied_moves
  refine ⟨(hend.nor_eq rfl).trans (hfold.nor_eq rfl), fun a hpres hrun => ?_⟩
  rw [hend.seq_eq rfl a]
  exact hheld a hpres hrun

/-! ### Images programmed (R598, R599) -/

/-- A commit that ends returns its completion. -/
theorem State.endCommit_done (s : State) {c : Commit} (horphan : c.orphan = false) (hmi : c.mi = none) (st : NvStatus) :
    ∃ u, AdminDone { s with sec := { s.sec with commit := none } } u c.fn c.cid st 0 [] ∧
      s.endCommit c st = if st = stOk then u.afterCommit else u := by
  refine ⟨_, State.finishAdmin_done (q := { fn := c.fn, cid := c.cid, mi := c.mi }) { s with sec := { s.sec with commit := none } } st 0 [] hmi, ?_⟩
  unfold State.endCommit
  rw [horphan]
  rfl

/-- Outside recovery mode nothing more follows from a commit. -/
theorem State.afterCommit_of_not_recovery {s : State} (h : s.rst.recovery = false) : s.afterCommit = s := by
  rw [State.afterCommit, h]
  rfl

theorem slots_programmed (v : Vector (Option SignedObj) 2) (n : Nat) (o : SignedObj) (i : Fin 2) :
    (if h : n < 2 then v.set n (some o) else v)[i] = if i.val = n then some o else v[i] := by
  split
  next h => rw [Fin.getElem_fin, Vector.getElem_set]; exact if_congr eq_comm rfl rfl
  next h => rw [if_neg (by omega)]

section
variable {s : State} {c : Commit} {ok test : Bool} (hc : s.sec.commit = some c) (htype : c.obj.otype = 1) (hprog : s.sec.actState = .programming)
include hc htype hprog

/-- What the end of the programming of an image leads to. -/
theorem execFirmwareSlotProgrammed_of : execFirmwareSlotProgrammed ok test s = .next (
    if !ok ∨ (c.action = 3 ∧ !test) then
      (s.modSec fun x => { x with actState := if x.retiring.isSome then .pause else .idle }).endCommit c (stCmd 0x07)
    else
      let s := s.modNor fun n => { n with slots := if h : c.slot < 2 then n.slots.set c.slot (some c.obj) else n.slots }
      if c.action = 3 then s.switchImage c
      else
        let s := if c.action = 1 then s.modNor fun n => { n with actSlot := c.slot } else s
        (s.modSec fun x => { x with actState := if x.retiring.isSome then .pause else .idle }).endCommit c stOk) := by
  unfold execFirmwareSlotProgrammed
  rw [hc]
  dsimp only
  rw [if_neg (by rintro (h | h); exacts [h htype, h hprog])]

end

/-- An image that goes on running: the slot, the pause, the contexts, and the responders. -/
theorem State.switchImage_effect (s : State) (c : Commit) :
    (s.switchImage c).sec.running = c.obj ∧ (s.switchImage c).sec.runSlot = c.slot ∧ (s.switchImage c).sec.pausing = true ∧
      (s.switchImage c).sec.actState = .pause ∧ (s.switchImage c).nor = { s.nor with actSlot := c.slot } ∧
      (s.switchImage c).sec.commit = s.sec.commit ∧ (∀ p ∈ (s.switchImage c).q.ctxs, p.2.activation = true) ∧
      ∀ r : SpdmIx, (s.switchImage c).sec.spdm[r].resynch = true := by
  unfold State.switchImage
  extract_lets old s1 s2 s3 s4 s5
  have h4 : Moves [.trc, .host, .evr, .out] s3 s4 := .fold _ _ _ fun s f => .ite (State.raiseAsync_moves ..) (.refl ..)
  have h5 : Moves [.seq] s4 s5 := .ite (.refl ..) (.fold _ _ _ fun s a => .ite (State.modSeq_moves ..) (.refl ..))
  have hsec : s5.sec = s2.sec := (h5.sec_eq rfl).trans (h4.sec_eq rfl)
  have hnor : s5.nor = s2.nor := (h5.nor_eq rfl).trans (h4.nor_eq rfl)
  have hq : s5.q = s3.q := (h5.q_eq rfl).trans (h4.q_eq rfl)
  have hres := s5.resynch_eq fun _ => true
  have hall := s5.resynch_all
  clear_value s5
  generalize s5.resynch (fun _ => true) = t at hres hall ⊢
  obtain ⟨spdm, hres⟩ : ∃ spdm, t = { s5 with sec := { s5.sec with spdm := spdm } } := ⟨_, hres⟩
  have hsec' : t.sec = { s2.sec with spdm := spdm } := by rw [hres, hsec]
  have hnor' : t.nor = s2.nor := by rw [hres, hnor]
  have hq' : t.q = s3.q := by rw [hres, hq]
  refine ⟨?_, ?_, ?_, ?_, hnor', ?_, fun p hp => ?_, fun r => ?_⟩
  · rw [hsec']
    rfl
  · rw [hsec']
    rfl
  · rw [hsec']
    rfl
  · rw [hsec']
    rfl
  · rw [hsec']
    rfl
  · rw [hq'] at hp
    obtain ⟨y, -, rfl⟩ := List.mem_map.mp hp
    rfl
  · rw [hall]

/-! ### Images retired and locks of debug -/

theorem State.advanceAlias_effect (s : State) : (s.advanceAlias).sec.aliasGen = (s.sec.aliasGen + 1) % 256 ∧
    ∃ gens, s.advanceAlias = { s with
      sec := { s.sec with aliasGen := (s.sec.aliasGen + 1) % 256, aliasGens := gens }
      nor := { s.nor with aliasGens := gens } } := ⟨rfl, _, rfl⟩

/-- The key generation of the responders' certificates advanced and the responders resynchronised, as an image retires. -/
theorem State.retireStart_effect (s : State) : ∃ gens spdm, (∀ r : SpdmIx, spdm[r] = { s.sec.spdm[r] with resynch := true, sessions := [] }) ∧
    ((s.modSec fun x => { x with retiring := none, actState := if x.commit.isSome then x.actState else .idle }).advanceAlias.resynch fun _ => true) =
      { s with
        sec := { s.sec with
          retiring := none, actState := if s.sec.commit.isSome then s.sec.actState else .idle, aliasGen := (s.sec.aliasGen + 1) % 256
          aliasGens := gens, spdm := spdm }
        nor := { s.nor with aliasGens := gens } } := by
  generalize hu : (s.modSec fun x => { x with retiring := none, actState := if x.commit.isSome then x.actState else .idle }) = u
  obtain ⟨-, gens, hgens⟩ := u.advanceAlias_effect
  generalize u.advanceAlias = v at hgens ⊢
  have hall := v.resynch_all
  have hres := v.resynch_eq fun _ => true
  generalize v.resynch (fun _ => true) = w at hall hres ⊢
  refine ⟨gens, w.sec.spdm, fun r => ?_, ?_⟩
  · rw [hall, hgens, ← hu]
    rfl
  · generalize w.sec.spdm = spdm at hres ⊢
    rw [hres, hgens, ← hu]
    rfl

theorem State.raiseRoll_effect (s : State) (n : Nat) : ∃ raisePend norPend, s.raiseRoll n = { s with
    sec := { s.sec with raisePend := raisePend }
    nor := { s.nor with raisePend := norPend }
    fuse := { s.fuse with rollCtr := if s.fuse.rollCtr < n ∧ n ≤ 128 then n else s.fuse.rollCtr } } := by
  unfold State.raiseRoll
  by_cases h : s.fuse.rollCtr < n ∧ n ≤ 128
  · rw [if_pos h, if_pos h]
    exact ⟨_, _, rfl⟩
  · rw [if_neg h, if_neg h]
    exact ⟨_, _, rfl⟩

theorem State.lockDebug_effect (s : State) : ∃ scope exp spdm, s.lockDebug = { s with
    sec := { s.sec with dbgUnlock := false, dbgScope := scope, dbgExp := exp, spdm := spdm } } := by
  unfold State.lockDebug
  by_cases h : s.sec.dbgUnlock = true
  · rw [if_pos h]
    exact ⟨_, _, _, rfl⟩
  · rw [if_neg h]
    refine ⟨s.sec.dbgScope, s.sec.dbgExp, s.sec.spdm, ?_⟩
    rw [← Bool.eq_false_iff.mpr h]

/-! ### Security packets -/

/-- A reply to a packet whose rule changed security and nothing else but an event. -/
theorem ReplyShape.afterReply_sec {s u t : State} {o : OpInfo} {p : Packet} (hu : Moves [.trc, .sec, .evr] (s.startPacket o p) u)
    (h : ReplyShape u t) : t.sec = u.sec ∧ t = ({ s with sec := t.sec } : State).afterReply t := by
  have hwhole := hu.afterEvent_sec
  obtain ⟨_, _, _, _, _, rfl⟩ := h
  refine ⟨rfl, ?_⟩
  dsimp only
  generalize u.sec = x at hwhole ⊢
  rw [hwhole]
  rfl

theorem fld_and_mask {w m : Word} {hi lo : Nat} (h : ∀ i, lo ≤ i → i ≤ hi → m.getLsbD i = true) : fld (w &&& m) hi lo = fld w hi lo := by
  refine Nat.eq_of_testBit_eq fun i => ?_
  unfold fld
  rw [Nat.testBit_mod_two_pow, Nat.testBit_mod_two_pow, Nat.testBit_div_two_pow, Nat.testBit_div_two_pow, BitVec.toNat_and, Nat.testBit_and]
  by_cases hi' : i < hi + 1 - lo
  · have := h (i + lo) (by omega) (by omega)
    rw [BitVec.getLsbD] at this
    rw [this, Bool.and_true]
  · rw [decide_eq_false hi', Bool.false_and, Bool.false_and]

/-! ### The obligation -/

theorem completes_fwCommitActivateSlot : ∀ (s : State) (q : AdmReq) (slot : Fin 8) (n : Nat) (o : SignedObj), adminReady q false true s = true →
   s.sec.commit = none → (s.namedSlot slot = some n) → (vget s.nor.slots n none = some o) →
     Completes (exec (.fwCommitActivateSlot q slot) s) fun t =>
       (s.objCheck o .image 16777216 = none → t.nor = { s.nor with actSlot := n } ∧ Concluded s t q stOk 0 [] ∧ t.sec = s.sec) ∧
       (∀ st, s.objCheck o .image 16777216 = some st → Concluded s t q (commitStatus st) 0 [] ∧ t.nor = s.nor) ∧
       t = ({ s with sec := t.sec, nor := t.nor } : State).afterAdmin t := by
  intro s q slot n o h hcommit hslot hstored
  show Completes (execFwCommitActivateSlot q slot s) _
  unfold execFwCommitActivateSlot
  rw [if_neg (by rw [hcommit]; decide)]
  rcases hcheck : s.objCheck o .image 16777216 with _ | st
  · refine completes_admin h (u := ((s.takeAdmin q.fn).modNor fun x => { x with actSlot := n })) (dw0 := 0) (words := []) ?_ fun t ht =>
      ⟨fun _ => ⟨ht.nor, ht.concluded_of_out rfl, ht.sec⟩, fun st hst => absurd hst nofun, ht.whole_secNor rfl⟩
    dsimp only
    rw [show (s.takeAdmin q.fn).namedSlot slot = some n from hslot]
    dsimp only
    rw [show vget (s.takeAdmin q.fn).nor.slots n none = some o from hstored]
    dsimp only
    rw [show (s.takeAdmin q.fn).objCheck o .image slotBytes = none from hcheck]
    have hrec := adminReady_recovery h
    exact congrArg (fun u : State => ({ state := u } : AdmRes))
      (State.afterCommit_of_not_recovery (s := (s.takeAdmin q.fn).modNor fun x => { x with actSlot := n }) hrec)
  · refine completes_admin_fail h (u := (s.takeAdmin q.fn).objFailed st) (st := commitStatus st) ?_ fun t ht =>
      ⟨fun hst => absurd hst nofun, fun st' hst => ?_, ?_⟩
    · dsimp only
      rw [show (s.takeAdmin q.fn).namedSlot slot = some n from hslot]
      dsimp only
      rw [show vget (s.takeAdmin q.fn).nor.slots n none = some o from hstored]
      dsimp only
      rw [show (s.takeAdmin q.fn).objCheck o .image slotBytes = some st from hcheck]
    · obtain rfl : st = st' := Option.some.inj hst
      exact ⟨ht.concluded_of_out ((s.takeAdmin q.fn).objFailed_out st), ht.nor.trans ((s.takeAdmin q.fn).objFailed_nor st)⟩
    · exact ht.whole_secNor (s.objFailed_whole q.fn st)

theorem completes_fwCommitActivateNow : ∀ (s : State) (q : AdmReq) (slot : Fin 8) (n : Nat) (o : SignedObj), adminReady q false true s = true →
   (s.sec.commit = none ∧ s.sec.sanitise = none ∧ s.formatting = 0) → (s.namedSlot slot = some n) → (n ≠ s.sec.runSlot) →
   (s.sec.staged = some o) → o.otype = 1 →
     Completes (exec (.fwCommitActivateNow q slot) s) fun t =>
       (s.objCheck o .image s.sec.stagedLen = none →
         t.sec = { s.sec with commit := some { obj := o, slot := n, action := 3, fn := q.fn, cid := q.cid }, actState := .programming } ∧
         vget t.nor.slots n none = none ∧ t.out = s.out) ∧
       (∀ st, s.objCheck o .image s.sec.stagedLen = some st → Concluded s t q (commitStatus st) 0 [] ∧ t.nor = s.nor ∧ t.sec.commit = none) ∧
       t = ({ s with sec := t.sec, nor := t.nor } : State).afterAdmin t := by
  intro s q slot n o h hfree hslot hrun hstaged htype
  obtain ⟨hcommit, hsan, hfmt⟩ := hfree
  show Completes (execFwCommitActivateNow q slot s) _
  unfold execFwCommitActivateNow
  rw [if_neg (by rw [hcommit]; decide)]
  refine completes_admin_congr h ?_ (completes_commitImage 3 h hcommit hslot hrun hstaged)
  have h1 : ¬((s.takeAdmin q.fn).sec.sanitise.isSome = true ∨ 0 < (s.takeAdmin q.fn).formatting) := by
    rw [show (s.takeAdmin q.fn).sec.sanitise = none from hsan, show (s.takeAdmin q.fn).formatting = 0 from hfmt]
    decide
  rw [if_neg h1, show (s.takeAdmin q.fn).sec.staged = some o from hstaged]
  exact if_neg (by rw [htype]; decide)

theorem completes_fwCommitActivateNow_patch : ∀ (s : State) (q : AdmReq) (slot : Fin 8) (o : SignedObj), adminReady q false true s = true →
   (s.sec.commit = none ∧ s.sec.sanitise = none ∧ s.formatting = 0) → (s.sec.staged = some o) → o.otype = 2 →
     Completes (exec (.fwCommitActivateNow q slot) s) fun t =>
       (s.objCheck o .patch s.sec.stagedLen = none →
         t.nor = { s.nor with patches := s.nor.patches ++ [o] } ∧
         (∀ a : Eng, s.enginePresent a = true → s.eng[a].seq.state = .run → t.eng[a].seq.holdReq = true)) ∧
       (∀ st, s.objCheck o .patch s.sec.stagedLen = some st → Concluded s t q (commitStatus st) 0 [] ∧ t.nor = s.nor ∧ t.eng = s.eng) := by
  intro s q slot o h hfree hstaged htype
  obtain ⟨hcommit, hsan, hfmt⟩ := hfree
  show Completes (execFwCommitActivateNow q slot s) _
  unfold execFwCommitActivateNow
  rw [if_neg (by rw [hcommit]; decide)]
  have h1 : ¬((s.takeAdmin q.fn).sec.sanitise.isSome = true ∨ 0 < (s.takeAdmin q.fn).formatting) := by
    rw [show (s.takeAdmin q.fn).sec.sanitise = none from hsan, show (s.takeAdmin q.fn).formatting = 0 from hfmt]
    decide
  have hpatch : o.otype = ObjType.patch.code := htype
  rcases hcheck : s.objCheck o .patch s.sec.stagedLen with _ | st
  · have hstagedCheck : (s.takeAdmin q.fn).stagedCheck .patch = none := by
      rw [State.stagedCheck, show (s.takeAdmin q.fn).sec.staged = some o from hstaged]
      exact hcheck
    obtain ⟨hnor, hheld⟩ := (s.takeAdmin q.fn).commitPatch_effect q o
    refine completes_admin_wait h (u := (s.takeAdmin q.fn).commitPatch q o) (dw0 := 0) (words := []) ?_
      ⟨fun _ => ⟨hnor, hheld⟩, fun st hst => absurd hst nofun⟩
    rw [if_neg h1, show (s.takeAdmin q.fn).sec.staged = some o from hstaged]
    dsimp only
    rw [if_pos hpatch, hstagedCheck]
  · have hstagedCheck : (s.takeAdmin q.fn).stagedCheck .patch = some st := by
      rw [State.stagedCheck, show (s.takeAdmin q.fn).sec.staged = some o from hstaged]
      exact hcheck
    refine completes_admin_fail h (u := (s.takeAdmin q.fn).objFailed st) (st := commitStatus st) ?_ fun t ht =>
      ⟨fun hst => absurd hst nofun, fun st' hst => ?_⟩
    · rw [if_neg h1, show (s.takeAdmin q.fn).sec.staged = some o from hstaged]
      dsimp only
      rw [if_pos hpatch, hstagedCheck]
    · obtain rfl : st = st' := Option.some.inj hst
      refine ⟨ht.concluded_of_out ((s.takeAdmin q.fn).objFailed_out st), ht.nor.trans ((s.takeAdmin q.fn).objFailed_nor st), ?_⟩
      rw [ht.whole, State.objFailed_effect]
      rfl

theorem completes_slotProgrammed : ∀ (s : State) (c : Commit) (selfTestOk : Bool), (s.sec.commit = some c) →
   (c.obj.otype = 1 ∧ s.sec.actState = .programming ∧ c.orphan = false) → c.mi = none → (c.action = 0 ∨ c.action = 1) →
     s.rst.recovery = false →
     Completes (exec (.firmwareSlotProgrammed true selfTestOk) s) fun t =>
       t.sec = { s.sec with commit := none, actState := if s.sec.retiring.isSome then .pause else .idle } ∧
       (∀ i : Fin 2, t.nor.slots[i] = if i.val = c.slot then some c.obj else s.nor.slots[i]) ∧
       t.nor.actSlot = (if c.action = 1 then c.slot else s.nor.actSlot) ∧ Concluded s t { fn := c.fn, cid := c.cid } stOk 0 [] ∧
       t = ({ s with sec := t.sec, nor := { s.nor with slots := t.nor.slots, actSlot := t.nor.actSlot } } : State).afterAdmin t := by
  intro s c test hc hprog hmi hact hrec
  obtain ⟨htype, hstate, horphan⟩ := hprog
  show Completes (execFirmwareSlotProgrammed true test s) _
  rw [execFirmwareSlotProgrammed_of hc htype hstate]
  have hact3 : c.action ≠ 3 := by omega
  rw [if_neg (by rintro (h | h); exacts [absurd h (by decide), hact3 h.1])]
  dsimp only
  rw [if_neg hact3]
  have hu : (State.modSec (if c.action = 1 then (s.modNor fun n => { n with
        slots := if h : c.slot < 2 then n.slots.set c.slot (some c.obj) else n.slots }).modNor fun n => { n with actSlot := c.slot }
      else s.modNor fun n => { n with slots := if h : c.slot < 2 then n.slots.set c.slot (some c.obj) else n.slots })
      fun x => { x with actState := if x.retiring.isSome then .pause else .idle }) = { s with
        sec := { s.sec with actState := if s.sec.retiring.isSome then .pause else .idle }
        nor := { s.nor with
          slots := if h : c.slot < 2 then s.nor.slots.set c.slot (some c.obj) else s.nor.slots
          actSlot := if c.action = 1 then c.slot else s.nor.actSlot } } := by
    split <;> rfl
  rw [hu]
  obtain ⟨t, ht, hend⟩ := State.endCommit_done { s with
        sec := { s.sec with actState := if s.sec.retiring.isSome then .pause else .idle }
        nor := { s.nor with
          slots := if h : c.slot < 2 then s.nor.slots.set c.slot (some c.obj) else s.nor.slots
          actSlot := if c.action = 1 then c.slot else s.nor.actSlot } } horphan hmi stOk
  rw [if_pos rfl] at hend
  have hrst : t.rst.recovery = false := by
    rw [ht.moves.rst_eq rfl]
    exact hrec
  rw [hend, State.afterCommit_of_not_recovery hrst]
  refine ⟨t, rfl, ht.sec, fun i => ?_, ?_, ht.concluded_of_out (q := { fn := c.fn, cid := c.cid }) rfl, ?_⟩
  · rw [ht.nor, ← slots_programmed]
  · rw [ht.nor]
  · rw [ht.sec, ht.nor]
    exact ht.whole

theorem completes_slotProgrammed_activation : ∀ (s : State) (c : Commit), (s.sec.commit = some c) → (c.obj.otype = 1 ∧ s.sec.actState = .programming) →
     c.action = 3 →
     Completes (exec (.firmwareSlotProgrammed true true) s) fun t =>
       t.sec.running = c.obj ∧ t.sec.runSlot = c.slot ∧ t.sec.pausing = true ∧ t.sec.actState = .pause ∧ t.nor.actSlot = c.slot ∧
       t.sec.commit = some c ∧ (∀ p ∈ t.q.ctxs, p.2.activation = true) ∧ (∀ r : SpdmIx, t.sec.spdm[r].resynch = true) ∧
       t.fuse = s.fuse ∧ t.media = s.media := by
  intro s c hc hprog hact
  show Completes (execFirmwareSlotProgrammed true true s) _
  rw [execFirmwareSlotProgrammed_of hc hprog.1 hprog.2, if_neg (by rintro (h | h); exacts [absurd h (by decide), absurd h.2 (by decide)])]
  dsimp only
  rw [if_pos hact]
  generalize hu : (State.modNor _ _ : State) = u
  obtain ⟨hrunning, hslot, hpausing, hstate, hnor, hcommit, hctxs, hspdm⟩ := u.switchImage_effect c
  have hmoves := u.switchImage_moves c
  refine ⟨_, rfl, hrunning, hslot, hpausing, hstate, ?_, ?_, hctxs, hspdm, ?_, ?_⟩
  · rw [hnor]
  · rw [hcommit, ← hu]
    exact hc
  · rw [hmoves.fuse_eq rfl, ← hu]
    rfl
  · rw [hmoves.media_eq rfl, ← hu]
    rfl

theorem completes_slotProgrammed_failure : ∀ (s : State) (c : Commit) (selfTestOk : Bool), (s.sec.commit = some c) →
     (c.obj.otype = 1 ∧ s.sec.actState = .programming ∧ c.orphan = false) → c.mi = none →
     Completes (exec (.firmwareSlotProgrammed false selfTestOk) s) fun t =>
       t.sec.commit = none ∧ t.nor = s.nor ∧ t.sec.running = s.sec.running ∧ Concluded s t { fn := c.fn, cid := c.cid } (stCmd 0x07) 0 [] := by
  intro s c test hc hprog hmi
  obtain ⟨htype, hstate, horphan⟩ := hprog
  show Completes (execFirmwareSlotProgrammed false test s) _
  rw [execFirmwareSlotProgrammed_of hc htype hstate, if_pos (.inl rfl)]
  generalize hu : (State.modSec _ _ : State) = u
  obtain ⟨t, ht, hend⟩ := u.endCommit_done horphan hmi (stCmd 0x07)
  rw [if_neg (by decide)] at hend
  rw [hend]
  refine ⟨t, rfl, ?_, ?_, ?_, ht.concluded_of_out (q := { fn := c.fn, cid := c.cid }) ?_⟩
  · rw [ht.sec]
  · rw [ht.nor, ← hu]
    rfl
  · rw [ht.sec, ← hu]
    rfl
  · rw [← hu]
    rfl

theorem completes_activationPauseEnd : ∀ (s : State) (c : Commit), s.sec.pausing = true → (s.sec.commit = some c) →
     (c.action = 3 ∧ c.obj.otype = 1 ∧ c.orphan = false) → c.mi = none →
     Completes (exec .fwActivationPauseEnd s) fun t =>
       t.sec = { s.sec with pausing := false, commit := none } ∧ Concluded s t { fn := c.fn, cid := c.cid } stOk 0 [] ∧
       t.host.healthFlags = s.host.healthFlags ||| 0x80 := by
  intro s c hpause hc hcommit hmi
  obtain ⟨hact, htype, horphan⟩ := hcommit
  show Completes (execFwActivationPauseEnd s) _
  unfold execFwActivationPauseEnd
  rw [if_pos hpause]
  generalize hu : ((s.modSec fun x => { x with pausing := false }).healthChange 7) = u
  have hsec : u.sec = { s.sec with pausing := false } := by rw [← hu]; rfl
  have hout : u.out = s.out := by rw [← hu]; rfl
  have hflags : u.host.healthFlags = s.host.healthFlags ||| 0x80 := by rw [← hu]; rfl
  dsimp only
  rw [hsec]
  dsimp only
  rw [hc]
  dsimp only
  rw [if_pos ⟨hact, htype⟩]
  obtain ⟨t, ht, hend⟩ := u.endCommit_done horphan hmi stOk
  rw [if_pos rfl] at hend
  have hafter : ∃ rst, t.afterCommit = { t with rst := rst } := by
    unfold State.afterCommit
    split
    · exact ⟨_, rfl⟩
    · exact ⟨t.rst, rfl⟩
  obtain ⟨rst, hrst⟩ := hafter
  rw [hend, hrst]
  refine ⟨_, rfl, ?_, ?_, ?_⟩
  · exact ht.sec.trans (by rw [hsec])
  · exact ht.concluded_of_out (q := { fn := c.fn, cid := c.cid }) hout
  · rw [← hflags]
    show t.host.healthFlags = _
    rw [ht.whole]
    rfl

theorem completes_imageRetire : ∀ (s : State) (n k : Nat), (s.sec.retiring = some (n, k)) → s.sec.pausing = false →
     (s.q.ctxs.any (fun p => p.2.started && decide (p.2.startNo ≤ n)) = false) →
     Completes (exec .imageRetire s) fun t =>
       t.sec.retiring = none ∧ t.sec.aliasGen = (s.sec.aliasGen + 1) % 256 ∧ t.fuse.revoked = s.fuse.revoked ||| s.sec.running.revokes ∧
       t.fuse.rollCtr = (if s.sec.running.raiseSvn ∧ s.fuse.rollCtr < s.sec.running.svn ∧ s.sec.running.svn ≤ 128 ∧ s.sec.running.svn ≤ s.slotSvn s.nor.actSlot
         then s.sec.running.svn else s.fuse.rollCtr) ∧
       (∀ r : SpdmIx, t.sec.spdm[r].resynch = true ∧ t.sec.spdm[r].sessions = []) ∧ t = { s with sec := t.sec, nor := t.nor, fuse := t.fuse } := by
  intro s n k hret hpause hdone
  show Completes (execImageRetire s) _
  unfold execImageRetire
  rw [hret]
  dsimp only
  rw [if_neg (by rw [hpause, hdone]; rintro (h | h) <;> exact Bool.false_ne_true h)]
  obtain ⟨gens, spdm, hspdm, hstart⟩ := s.retireStart_effect
  rw [hstart]
  dsimp only
  have hall : ∀ r : SpdmIx, spdm[r].resynch = true ∧ spdm[r].sessions = [] := fun r => by rw [hspdm]; exact ⟨rfl, rfl⟩
  rw [State.raiseAllowed, decide_eq_true (Nat.le_refl _), Bool.true_and]
  by_cases hraise : (s.sec.running.raiseSvn && decide (s.sec.running.svn ≤ s.slotSvn s.nor.actSlot)) = true
  · have hraise' := hraise
    rw [Bool.and_eq_true, decide_eq_true_eq] at hraise'
    refine ⟨_, congrArg Host.Outcome.next (if_pos hraise), ?_⟩
    generalize hx : State.mk .. = x
    obtain ⟨a, b, hroll⟩ := x.raiseRoll_effect s.sec.running.svn
    rw [hroll, ← hx]
    refine ⟨rfl, rfl, rfl, if_congr ?_ rfl rfl, hall, rfl⟩
    exact ⟨fun h => ⟨hraise'.1, h.1, h.2, hraise'.2⟩, fun h => ⟨h.2.1, h.2.2.1⟩⟩
  · refine ⟨_, congrArg Host.Outcome.next (if_neg hraise), rfl, rfl, rfl, ?_, hall, rfl⟩
    refine (if_neg fun h => hraise ?_).symm
    rw [h.1, decide_eq_true h.2.2.2, Bool.true_and]

/-- Debug unlocked by a token: the state before the new nonce. -/
def State.debugUnlocked (s : State) (o : SignedObj) : State :=
  (((s.modSec fun x => { x with dbgUnlock := true, dbgScope := o.scope, dbgExp := o.expiry, unlockCnt := inc 32 x.unlockCnt }).saturated
    (reaches 32 s.sec.unlockCnt) 0x11 5 0 0x4004C (nw (inc 32 s.sec.unlockCnt))).condSec).resynch fun _ => true

theorem State.debugUnlocked_sec (s : State) (o : SignedObj) : ∃ spdm, (s.debugUnlocked o).sec =
    { s.sec with dbgUnlock := true, dbgScope := o.scope, dbgExp := o.expiry, unlockCnt := inc 32 s.sec.unlockCnt, spdm := spdm } := by
  unfold State.debugUnlocked
  rw [State.resynch_eq]
  generalize (State.resynch _ _).sec.spdm = spdm
  refine ⟨spdm, ?_⟩
  dsimp only
  rw [State.condSec_sec, State.saturated_sec, State.modSec_sec]

section
variable {s : State} {p : Packet} {o : SignedObj} (hw : p.w 0 = 1) (hstaged : s.sec.staged = some o) (htype : o.otype = 3)
include hw hstaged htype

theorem opSecUnlock_ok (hok : s.objCheck o .token s.sec.stagedLen = none) : opSecUnlock p s =
    { state := (s.debugUnlocked o).newNonce
      result := [rSecStatus (s.debugUnlocked o).newNonce, nw (s.debugUnlocked o).newNonce.sec.dbgExp] } := by
  unfold opSecUnlock
  dsimp only
  rw [hw, if_neg (by decide), if_neg (by decide), hstaged, Option.filter_some, if_pos (by rw [htype]; rfl)]
  dsimp only
  rw [hok]
  rfl

theorem opSecUnlock_failed {st : Nat} (hbad : s.objCheck o .token s.sec.stagedLen = some st) :
    opSecUnlock p s = .fail (s.objFailed st).newNonce st := by
  unfold opSecUnlock
  dsimp only
  rw [hw, if_neg (by decide), if_neg (by decide), hstaged, Option.filter_some, if_pos (by rw [htype]; rfl)]
  dsimp only
  rw [hbad]

end

theorem State.newNonce_sec (s : State) :
    s.newNonce.sec = { s.sec with drbg := s.sec.drbg + 1, nonce := (Config.drbg s.sec.drbg).setWidth 128 } := rfl

/-- A packet of a rule that changed security replies with the status of the rule. -/
theorem completes_secOp {o : OpInfo} {p : Packet} {s : State} {body : State → PktRes} {r : PktRes} {P : State → Prop} (h : ready o p s = true)
    (hbody : body (s.startPacket o p) = r) (hmoves : Moves [.trc, .sec, .evr] (s.startPacket o p) (body (s.startPacket o p)).state)
    (hwait : r.wait = false)
    (hP : ∀ t, t.sec = r.state.sec → Replied s t o.code p r.status r.clamp r.result → t = ({ s with sec := t.sec } : State).afterReply t → P t) :
    Completes (.next (runPacket o p s body)) P := by
  subst hbody
  refine completes_packet h hwait (congrArg Hetos.exchanges (hmoves.het_eq rfl)) (congrArg Outputs.replies (hmoves.out_eq rfl))
    fun t hshape hreplied => ?_
  obtain ⟨hsec, hwhole⟩ := hshape.afterReply_sec hmoves
  exact hP t hsec hreplied hwhole

theorem completes_secUnlock : ∀ (s : State) (p : Packet) (o : SignedObj), ready ⟨0x0222, [5], .action⟩ p s = true → p.w 0 = 1 →
   (s.sec.staged = some o) → o.otype = 3 →
     Completes (exec (.secUnlock p) s) fun t =>
       (s.objCheck o .token s.sec.stagedLen = none →
         t.sec.dbgUnlock = true ∧ t.sec.dbgScope = o.scope ∧ t.sec.dbgExp = o.expiry ∧ t.sec.unlockCnt = inc 32 s.sec.unlockCnt) ∧
       (∀ st, s.objCheck o .token s.sec.stagedLen = some st → Replied s t 0x0222 p st 0 [] ∧ t.sec.dbgUnlock = s.sec.dbgUnlock) ∧
       t.sec.nonce = (Config.drbg s.sec.drbg).setWidth 128 ∧ t = ({ s with sec := t.sec } : State).afterReply t := by
  intro s p o h hw hstaged htype
  show Completes (.next (runPacket _ p s (opSecUnlock p))) _
  have hcheck' : (s.startPacket ⟨0x0222, [5], .action⟩ p).objCheck o .token (s.startPacket ⟨0x0222, [5], .action⟩ p).sec.stagedLen =
    s.objCheck o .token s.sec.stagedLen := rfl
  rcases hcheck : s.objCheck o .token s.sec.stagedLen with _ | st
  · have hbody := opSecUnlock_ok (s := s.startPacket ⟨0x0222, [5], .action⟩ p) hw hstaged htype (hcheck'.trans hcheck)
    refine completes_secOp h hbody (opSecUnlock_moves ..) rfl fun t hsec _ hwhole => ?_
    obtain ⟨spdm, hu⟩ := (s.startPacket ⟨0x0222, [5], .action⟩ p).debugUnlocked_sec o
    rw [State.newNonce_sec, hu, show (s.startPacket ⟨0x0222, [5], .action⟩ p).sec = s.sec from rfl] at hsec
    refine ⟨fun _ => ⟨?_, ?_, ?_, ?_⟩, fun st hst => absurd hst nofun, ?_, hwhole⟩ <;> rw [hsec]
  · have hbody := opSecUnlock_failed (s := s.startPacket ⟨0x0222, [5], .action⟩ p) hw hstaged htype (hcheck'.trans hcheck)
    refine completes_secOp h hbody (opSecUnlock_moves ..) rfl fun t hsec hreplied hwhole => ⟨fun hst => absurd hst nofun, fun st' hst => ?_, ?_, hwhole⟩
    · obtain rfl : st = st' := Option.some.inj hst
      refine ⟨hreplied, ?_⟩
      rw [hsec, PktRes.fail, State.newNonce_sec]
      exact (s.startPacket ⟨0x0222, [5], .action⟩ p).objFailed_dbgUnlock st
    · rw [hsec, PktRes.fail, State.newNonce_sec]
      dsimp only
      rw [State.objFailed_drbg]
      rfl

section
variable {s : State} {p : Packet} {o : SignedObj} (hw : p.w 0 = 0x524F4C4C) (hstaged : s.sec.staged = some o) (htype : o.otype = 4)
include hw hstaged htype

theorem opSecRollback_of : opSecRollback p s = match s.objCheck o .rollback s.sec.stagedLen with
    | some st => .fail (s.objFailed st) st
    | none => if !s.raiseAllowed o.svn then .fail s 0x0404 else
      { state := (s.raiseRoll o.svn).resynch fun _ => true, result := [nw s.fuse.rollCtr, nw (s.raiseRoll o.svn).fuse.rollCtr] } := by
  unfold opSecRollback
  dsimp only
  rw [hw, if_neg (by decide), hstaged, Option.filter_some, if_pos (by rw [htype]; rfl)] <;> rfl

end

/-- A move within security, NOR, the fuses and an event, and then a reply. -/
theorem ReplyShape.afterReply_rollback {s u t : State} {o : OpInfo} {p : Packet} (hu : Moves [.trc, .sec, .evr, .nor, .fuse] (s.startPacket o p) u)
    (h : ReplyShape u t) : t.fuse = u.fuse ∧ t = ({ s with sec := t.sec, nor := t.nor, fuse := t.fuse } : State).afterReply t := by
  have hwhole : u = ({ s.startPacket o p with sec := u.sec, nor := u.nor, fuse := u.fuse } : State).afterEvent u :=
    hu.eq_of_parts rfl fun x => by cases x <;> first | rfl | exact fun _ => rfl
  obtain ⟨_, _, _, _, _, rfl⟩ := h
  refine ⟨rfl, ?_⟩
  dsimp only
  generalize u.sec = x, u.nor = y, u.fuse = z at hwhole ⊢
  rw [hwhole]
  rfl

theorem completes_secRollback : ∀ (s : State) (p : Packet) (o : SignedObj), ready ⟨0x0223, [5], .action⟩ p s = true → p.w 0 = 0x524F4C4C →
   (s.sec.staged = some o) → o.otype = 4 →
     Completes (exec (.secRollback p) s) fun t =>
       (s.objCheck o .rollback s.sec.stagedLen = none → s.raiseAllowed o.svn = true → s.fuse.rollCtr < o.svn → o.svn ≤ 128 →
         t.fuse = { s.fuse with rollCtr := o.svn } ∧ Answered s t 0x0223 p [nw s.fuse.rollCtr, nw o.svn]) ∧
       (s.objCheck o .rollback s.sec.stagedLen = none → s.raiseAllowed o.svn = false → t.fuse = s.fuse ∧ Replied s t 0x0223 p 0x0404 0 []) ∧
       (∀ st, s.objCheck o .rollback s.sec.stagedLen = some st → t.fuse = s.fuse ∧ Replied s t 0x0223 p st 0 []) ∧
       t = ({ s with sec := t.sec, nor := t.nor, fuse := t.fuse } : State).afterReply t := by
  intro s p o h hw hstaged htype
  show Completes (.next (runPacket _ p s (opSecRollback p))) _
  have hmoves := opSecRollback_moves p (s.startPacket ⟨0x0223, [5], .action⟩ p)
  have hbody := opSecRollback_of (s := s.startPacket ⟨0x0223, [5], .action⟩ p) hw hstaged htype
  rw [show (s.startPacket ⟨0x0223, [5], .action⟩ p).sec.stagedLen = s.sec.stagedLen from rfl,
    show (s.startPacket ⟨0x0223, [5], .action⟩ p).objCheck o .rollback s.sec.stagedLen = s.objCheck o .rollback s.sec.stagedLen from rfl,
    show (s.startPacket ⟨0x0223, [5], .action⟩ p).raiseAllowed o.svn = s.raiseAllowed o.svn from rfl] at hbody
  have hwait : (opSecRollback p (s.startPacket ⟨0x0223, [5], .action⟩ p)).wait = false := by
    rw [hbody]
    split
    · rfl
    · split <;> rfl
  refine completes_packet h hwait (congrArg Hetos.exchanges (hmoves.het_eq rfl)) (congrArg Outputs.replies (hmoves.out_eq rfl))
    fun t hshape hreplied => ?_
  obtain ⟨hfuse, hwhole⟩ := hshape.afterReply_rollback hmoves
  rw [hbody] at hfuse hreplied
  refine ⟨fun hok hallowed hlow hmax => ?_, fun hok hallowed => ?_, fun st hbad => ?_, hwhole⟩
  · rw [hok] at hfuse hreplied
    dsimp only at hfuse hreplied
    rw [hallowed, if_neg (by decide)] at hfuse hreplied
    obtain ⟨a, b, hroll⟩ := (s.startPacket ⟨0x0223, [5], .action⟩ p).raiseRoll_effect o.svn
    have hctr : ((s.startPacket ⟨0x0223, [5], .action⟩ p).raiseRoll o.svn).fuse = { s.fuse with rollCtr := o.svn } := by
      rw [hroll]
      show { s.fuse with rollCtr := if s.fuse.rollCtr < o.svn ∧ o.svn ≤ 128 then o.svn else s.fuse.rollCtr } = _
      rw [if_pos ⟨hlow, hmax⟩]
    refine ⟨hfuse.trans hctr, 0, ?_⟩
    rw [hctr] at hreplied
    exact hreplied
  · rw [hok] at hfuse hreplied
    dsimp only at hfuse hreplied
    rw [hallowed, if_pos (by decide)] at hfuse hreplied
    exact ⟨hfuse, hreplied⟩
  · rw [hbad] at hfuse hreplied
    refine ⟨hfuse.trans ?_, hreplied⟩
    exact ((s.startPacket ⟨0x0223, [5], .action⟩ p).objFailed_moves st).fuse_eq rfl

/-- Settles O56. -/
theorem firmwareAndSecurity : Obligations.FirmwareAndSecurity := by
  refine ⟨fun s q nsid h halone => ?_, fun s q nsid comId h halone => ?_, fun s q d h hcommit hd => ?_,
    fun s q slot n o h hcommit hslot hrun hstaged => ?_, fun s q slot n o h hcommit hslot hrun hstaged => ?_,
    fun s q slot n o h hcommit hslot hstored => ?_, fun s q slot n o h hfree hslot hrun hstaged htype => ?_,
    fun s q slot o h hfree hstaged htype => ?_, fun s c test hc hprog hmi hact hrec => ?_, fun s c hc hprog hact => ?_,
    fun s c test hc hprog hmi => ?_, fun s c hpause hc hcommit hmi => ?_, fun s n k hret hpause hdone => ?_, fun s hunlock hexp => ?_,
    fun s p h => ?_, fun s p which m h hcert => ?_, fun s p h hw => ?_, fun s p o h hw hstaged htype => ?_, fun s p o h hw hstaged htype => ?_⟩
  · -- SECURITY_RECEIVE
    show Completes (execSecurityReceive q nsid 1 1 s) _
    unfold execSecurityReceive
    have h1 := congrArg Bool.not halone
    exact completes_admin h ((if_neg fun h0 => Bool.false_ne_true (h1.symm.trans h0)).trans ((if_neg (by decide)).trans (if_pos ⟨rfl, rfl⟩))) fun t ht => ⟨ht.concluded_of_out rfl, ht.whole⟩
  · -- SECURITY_RECEIVE of the list of protocols
    show Completes (execSecurityReceive q nsid 0 comId s) _
    unfold execSecurityReceive
    have h1 := congrArg Bool.not halone
    exact completes_admin h ((if_neg fun h0 => Bool.false_ne_true (h1.symm.trans h0)).trans (if_pos rfl)) fun t ht => ⟨ht.concluded_of_out rfl, ht.whole⟩
  · -- FIRMWARE_IMAGE_DOWNLOAD
    show Completes (execFirmwareImageDownload q d s) _
    unfold execFirmwareImageDownload
    rw [if_neg (by rw [hcommit]; decide)]
    have h1 : ¬(d.off % 4096 ≠ 0 ∨ d.len % 4096 ≠ 0 ∨ slotBytes < d.off + d.len) := by
      rw [slotBytes]
      omega
    refine completes_admin h (if_neg h1) fun t ht => ⟨ht.sec, ht.concluded_of_out rfl, ?_⟩
    rw [ht.sec]
    exact ht.whole
  · -- FW_COMMIT_WRITE_SLOT
    show Completes (execFwCommitWriteSlot q slot s) _
    unfold execFwCommitWriteSlot
    rw [if_neg (by rw [hcommit]; decide)]
    exact completes_commitImage 0 h hcommit hslot hrun hstaged
  · -- FW_COMMIT_WRITE_ACTIVATE_NEXT
    show Completes (execFwCommitWriteActivateNext q slot s) _
    unfold execFwCommitWriteActivateNext
    rw [if_neg (by rw [hcommit]; decide)]
    exact completes_commitImage 1 h hcommit hslot hrun hstaged
  · exact completes_fwCommitActivateSlot s q slot n o h hcommit hslot hstored
  · exact completes_fwCommitActivateNow s q slot n o h hfree hslot hrun hstaged htype
  · exact completes_fwCommitActivateNow_patch s q slot o h hfree hstaged htype
  · exact completes_slotProgrammed s c test hc hprog hmi hact hrec
  · exact completes_slotProgrammed_activation s c hc hprog hact
  · exact completes_slotProgrammed_failure s c test hc hprog hmi
  · exact completes_activationPauseEnd s c hpause hc hcommit hmi
  · exact completes_imageRetire s n k hret hpause hdone
  · -- DEBUG_UNLOCK_EXPIRY
    show Completes (execDebugUnlockExpiry s) _
    unfold execDebugUnlockExpiry State.lockDebug
    rw [if_pos hexp, if_pos hunlock]
    refine ⟨_, rfl, rfl, rfl, rfl, fun r => ?_, rfl⟩
    rw [State.resynch_all]
  · -- SEC_STATUS
    exact completes_report h rfl
  · -- SEC_CERT
    have h1 : fld (p.w 0 &&& 0x00070107) 2 0 = fld (p.w 0) 2 0 := fld_and_mask (by decide)
    have h2 : fld (p.w 0 &&& 0x00070107) 18 16 = fld (p.w 0) 18 16 := fld_and_mask (by decide)
    have h3 : (p.w 0 &&& 0x00070107).getLsbD 8 = (p.w 0).getLsbD 8 := by rw [BitVec.getLsbD_and, show (0x00070107 : Word).getLsbD 8 = true by decide, Bool.and_true]
    refine completes_report (clamp := clampBits [(0, p.w 0, p.w 0 &&& 0x00070107)]) h ?_
    unfold opSecCert
    dsimp only
    rw [h1, h2, h3, show (s.startPacket ⟨0x0221, [4, 5], .read⟩ p).certOf p (fld (p.w 0) 2 0) (fld (p.w 0) 18 16) = some (which, m) from hcert]
  · -- SEC_LOCK
    show Completes (.next (runPacket _ p s (opSecUnlock p))) _
    obtain ⟨scope, exp, spdm, hlock⟩ := (s.startPacket ⟨0x0222, [5], .action⟩ p).lockDebug_effect
    refine completes_result h (if_pos hw) (opSecUnlock_moves ..) rfl rfl rfl rfl fun t hshape _ => ?_
    rw [hlock] at hshape
    obtain ⟨_, _, _, _, _, rfl⟩ := hshape
    exact ⟨rfl, rfl, rfl, rfl⟩
  · exact completes_secUnlock s p o h hw hstaged htype
  · exact completes_secRollback s p o h hw hstaged htype

end Sys2Proof.Machine
end

section
/-! SUPPORT. Hetos exchanges over NVMe and MCTP, and the packets of the module (15_hetos_packets.md). -/

namespace Sys2Proof.Machine
open Sys2Proof
set_option Elab.async false

/-! ### Exchanges that stop at a packet of an assigned opcode (R520) -/

theorem answerIdle_assigned (s : State) {ex : Exchange} (hrun : ex.stopped = false)
    (hop : assignedOps.contains ((ex.todo.map (·.1.toNat)).headD 0) = true) : answerIdle s ex ex.todo = (s, ex) ∧ ex.todo ≠ [] := by
  obtain ⟨xid, src, eid, mtag, cid, buf, todo, replies, running, stopped, dropped, writeFails⟩ := ex
  subst hrun
  cases todo with
  | nil =>
    have h0 : assignedOps.contains 0 = true := hop
    exact absurd h0 (by decide)
  | cons x rest =>
    refine ⟨?_, List.cons_ne_nil _ _⟩
    rw [answerIdle, if_neg Bool.false_ne_true, if_pos (show assignedOps.contains x.1.toNat = true from hop)]

/-- An exchange whose next packet has an assigned opcode waits for it. -/
theorem State.advanceExchange_assigned (s : State) {ex : Exchange} (hrun : ex.stopped = false) (hdropped : ex.dropped = false)
    (hop : assignedOps.contains ((ex.todo.map (·.1.toNat)).headD 0) = true) : s.advanceExchange ex =
      s.modHet fun h => { h with exchanges := h.exchanges.map fun x => if x.xid = ex.xid then ex else x } := by
  obtain ⟨hidle, htodo⟩ := answerIdle_assigned s hrun hop
  rw [State.advanceExchange, hidle]
  exact if_neg (by simp [htodo, hdropped])

theorem map_replace_append {l : List Exchange} {ex : Exchange} (h : (l.any fun x => x.xid == ex.xid) = false) :
    ((l ++ [ex]).map fun x => if x.xid = ex.xid then ex else x) = l ++ [ex] := by
  rw [List.map_append, List.map_singleton, if_pos rfl]
  congr 1
  refine (List.map_congr_left fun x hx => if_neg ?_).trans (List.map_id' l)
  have := List.any_eq_false.mp h x hx
  simpa using this

/-- A new exchange, where fewer than eight run and its first packet has an assigned opcode. -/
theorem State.newExchange_running {s : State} {x : Exchange} (hnew : (s.het.exchanges.any fun y => y.xid == x.xid) = false)
    (hroom : s.het.active < 8) (hrun : x.stopped = false) (hdropped : x.dropped = false)
    (hop : assignedOps.contains ((x.todo.map (·.1.toNat)).headD 0) = true) :
    s.newExchange x = { s with het := { s.het with exchanges := s.het.exchanges ++ [{ x with running := true }] } } := by
  unfold State.newExchange
  dsimp only
  rw [decide_eq_true hroom, if_pos rfl,
    State.advanceExchange_assigned (ex := { x with running := true }) _ hrun hdropped hop]
  unfold State.modHet
  dsimp only
  rw [map_replace_append (ex := { x with running := true }) hnew]

/-- A new exchange waits where eight run. -/
theorem State.newExchange_waits {s : State} (x : Exchange) (hfull : 8 ≤ s.het.active) :
    s.newExchange x = { s with het := { s.het with exchanges := s.het.exchanges ++ [{ x with running := false }] } } := by
  unfold State.newExchange
  dsimp only
  rw [decide_eq_false (Nat.not_lt.mpr hfull), if_neg Bool.false_ne_true]
  rfl

/-- The first opcode of packets, however many. -/
theorem packetsOf_headD (xid : Nat) (src : Sender) {n : Nat} (b : List Nat) (h : 1 ≤ n) :
    ((packetsOf xid src n b).map (·.1.toNat)).headD 0 = ((packetsOf xid src 1 b).map (·.1.toNat)).headD 0 := by
  obtain ⟨k, rfl⟩ := Nat.exists_eq_add_of_le' h
  unfold packetsOf
  rw [List.range_succ_eq_map, List.range_succ_eq_map]
  rfl

/-! ### Exchanges by an admin command (R526, R527) -/

theorem completes_hetosExchange {s : State} {q : AdmReq} {h : HetosCmd} {P : State → Prop} (hready : adminReady q false false s = true)
    (hnew : (s.het.exchanges.any fun x => x.xid == h.xid) = false)
    (hn : 1 ≤ h.nump.toNat ∧ h.nump.toNat ≤ 64 ∧ h.cdw12.toNat % 32 = 0 ∧ h.cdw12.toNat % 4096 + 32 * h.nump.toNat ≤ 4096)
    (hread : h.readOk = true) (hP : P ((s.takeAdmin q.fn).newExchange {
      xid := h.xid, src := .nvme q.fn, cid := q.cid, buf := h.cdw12.toNat + 2 ^ 32 * h.cdw13.toNat
      todo := packetsOf h.xid (.nvme q.fn) h.nump.toNat (h.buffer.map (·.toNat)), writeFails := !h.writeOk })) :
    Completes (exec (.hetosExchange q h) s) P := by
  show Completes (execHetosExchange q h s) P
  unfold execHetosExchange
  rw [if_neg (by rw [hnew]; decide)]
  refine completes_adminOwn hready (completes_admin_wait hready (dw0 := 0) (words := []) ((if_neg ?_).trans (if_neg ?_)) hP)
  · omega
  · rw [hread]
    decide

/-! ### Requests by MCTP (R528, R529) -/

theorem execHetosMctpRequest_sound {s : State} {m : MctpReq} (hnew : (s.het.exchanges.any fun x => x.xid == m.xid) = false)
    (hrail : s.rst.rail12 = true) (hsound : requestSound m = true) (hfree : requestTaken m s = false) :
    execHetosMctpRequest m s = .next (s.newExchange {
      xid := m.xid, src := requestSrc m, eid := m.eid, mtag := m.mtag.val
      todo := packetsOf m.xid (requestSrc m) (requestCount m) ((requestBytes m).drop 8) }) := by
  unfold execHetosMctpRequest
  rw [hrail, hnew, hsound, hfree, if_neg (by decide), if_neg (by decide)]

theorem requestSound_count {m : MctpReq} (h : requestSound m = true) : 1 ≤ requestCount m := by
  simp only [requestSound, Bool.and_eq_true, decide_eq_true_eq] at h
  exact h.1.2.1

/-! ### The packets of the module -/

/-- Exchanges move on without a change in how many are active. -/
theorem Hetos.active_startPacket (s : State) (o : OpInfo) (p : Packet) : (s.startPacket o p).het.active = s.het.active := by
  have hrunning : ∀ l : List Exchange,
      ((l.map fun x => if x.xid = p.xid then { x with todo := x.todo.drop 1 } else x).filter (·.running)).length = (l.filter (·.running)).length := by
    intro l
    rw [List.filter_map, List.length_map]
    congr 2
    funext x
    rw [Function.comp_apply]
    split <;> rfl
  have hxid : ∀ (l : List Exchange) (n : Nat),
      ((l.map fun x => if x.xid = p.xid then { x with todo := x.todo.drop 1 } else x).any fun x => x.xid == n) = l.any fun x => x.xid == n := by
    intro l n
    rw [List.any_map]
    congr 1
    funext x
    rw [Function.comp_apply]
    split <;> rfl
  unfold State.startPacket State.modHet Hetos.active
  dsimp only
  simp only [hrunning, hxid]

theorem rHtsStatus_startPacket (s : State) (o : OpInfo) (p : Packet) :
    rHtsStatus (s.startPacket o p).het = rHtsStatus { s.het with lastOp := BitVec.ofNat 16 o.code } := by
  have hactive := Hetos.active_startPacket s o p
  have hwaiting : ((s.startPacket o p).het.exchanges.filter fun x => !x.running).length = (s.het.exchanges.filter fun x => !x.running).length := by
    unfold State.startPacket State.modHet
    dsimp only
    rw [List.filter_map, List.length_map]
    congr 2
    funext x
    rw [Function.comp_apply]
    split <;> rfl
  unfold rHtsStatus
  rw [hactive, hwaiting]
  rfl

section
variable {s : State} {p : Packet} {n : Nat} (hkey : p.w 5 = 0x4C41594F) (hn : (p.w 0).toNat = n ∧ n ≤ 2)
  (hheads : ((List.range 4).all fun a => decide (n + 2 ≤ a) ||
    decide (1 ≤ (p.w (a + 1)).toNat ∧ (p.w (a + 1)).toNat ≤ headLimit (n + 2))) = true)
include hkey hn hheads

/-- MOD_LAYOUT stores the layout it is sent. -/
theorem opModLayout_layout : ∃ c w l, opModLayout p s = { clamp := c, result := w, state := s.modNor fun x => { x with layout := l } } ∧
    l.engines = n + 2 ∧ ∀ a : Eng, l.heads[a] = if a.val < n + 2 then (p.w (a.val + 1)).toNat else 0 := by
  obtain ⟨hn, hle⟩ := hn
  have hfld : fld (p.w 0) 1 0 = n := by
    rw [fld, hn]
    omega
  have hcode : (fEnum 1 0 [0, 1, 2]).stored (nw (s.nor.layout.engines - 2)) (p.w 0) = (n : Int) := by
    have hvalue : (fEnum 1 0 [0, 1, 2]).value (p.w 0) = (n : Int) := congrArg Int.ofNat hfld
    unfold Field.stored
    dsimp only [fEnum] at hvalue ⊢
    rw [hvalue, if_pos]
    interval_cases n <;> decide
  have hword : fld (clampWord [fEnum 1 0 [0, 1, 2]] (nw (s.nor.layout.engines - 2)) (p.w 0)) 1 0 = n := by
    rw [fld, clampWord_one_toNat hcode]
    simp only [fEnum]
    omega
  unfold opModLayout
  rw [if_neg (by rw [hkey]; decide)]
  dsimp only
  rw [hword]
  refine ⟨_, _, _, rfl, rfl, fun a => ?_⟩
  rw [Fin.getElem_fin, Vector.getElem_ofFn]
  by_cases ha : a.val < n + 2
  · have hhead := List.all_eq_true.mp hheads a.val (List.mem_range.mpr a.isLt)
    rw [Bool.or_eq_true, decide_eq_true_eq, decide_eq_true_eq] at hhead
    obtain ⟨h1, h2⟩ := hhead.resolve_left (Nat.not_le.mpr ha)
    rw [if_pos ha, if_pos ha]
    rw [show (1 : Int) = ((1 : Nat) : Int) from rfl, clampWord_whole, min_eq_left h2, max_eq_right h1, nw, BitVec.toNat_ofNat]
    exact Nat.mod_eq_of_lt (p.w (a.val + 1)).isLt
  · rw [if_neg ha, if_neg ha]
    rfl

end

/-! ### The obligation -/

/-- Settles O52. -/
theorem exchanges : Obligations.Exchanges := by
  refine ⟨fun s q h hready hnew hn hread hroom hop => ?_, fun s q h hready hnew hn hread hfull => ?_, fun s q h hready hnew hbad => ?_,
    fun s m hnew hrail hsound hfree hroom hop => ?_, fun s m hnew hrail hsound hfree hfull => ?_, fun s m hnew hrail hbad => ?_,
    fun s x hx hidle hop hwaiting => ?_, fun s p h => completes_report h rfl, fun s p h => completes_report h rfl,
    fun s p n h hkey hn hheads => ?_, fun s p x h hx => ?_, fun s p x h hx => ?_⟩
  · -- HETOS_EXCHANGE
    refine completes_hetosExchange hready hnew hn hread ?_
    rw [← packetsOf_headD _ _ _ hn.1] at hop
    rw [State.newExchange_running (s := s.takeAdmin q.fn)]
    · exact ⟨rfl, rfl, fun g hg => s.takeAdmin_other hg, rfl⟩
    exacts [hnew, hroom, rfl, rfl, hop]
  · -- HETOS_EXCHANGE that waits
    refine completes_hetosExchange hready hnew hn hread ?_
    rw [State.newExchange_waits (s := s.takeAdmin q.fn) _ hfull]
    exact ⟨rfl, rfl, fun g hg => s.takeAdmin_other hg, rfl⟩
  · -- HETOS_EXCHANGE refused
    show Completes (execHetosExchange q h s) _
    unfold execHetosExchange
    rw [if_neg (by rw [hnew]; decide)]
    exact completes_adminOwn hready (completes_admin_fail hready (if_pos hbad) fun t ht =>
      ⟨ht.concluded ⟨[], rfl⟩, ht.moves.het_eq rfl, ht.whole⟩)
  · -- HETOS_MCTP_REQUEST
    refine ⟨_, execHetosMctpRequest_sound hnew hrail hsound hfree, ?_⟩
    rw [← packetsOf_headD _ _ _ (requestSound_count hsound)] at hop
    exact State.newExchange_running hnew hroom rfl rfl hop
  · -- HETOS_MCTP_REQUEST that waits
    exact ⟨_, execHetosMctpRequest_sound hnew hrail hsound hfree, State.newExchange_waits _ hfull⟩
  · -- HETOS_MCTP_REQUEST malformed
    have hbad' : (!requestSound m || requestTaken m s) = true := by
      rcases hbad with hbad | hbad
      · rw [hbad]
        rfl
      · rw [hbad, Bool.or_true]
    refine ⟨s.mctpBad (requestWords m s.host.eid), ?_, ?_⟩
    · show execHetosMctpRequest m s = _
      unfold execHetosMctpRequest
      rw [hrail, hnew, if_neg (by decide), if_pos hbad']
    · obtain ⟨t, l, ht, hhost, hwhole⟩ := s.countedViolation_effect { s.host with mctpMalCnt := inc 16 s.host.mctpMalCnt }
        (reaches 16 s.host.mctpMalCnt) 0x60020 (rMctpCnt { s.host with mctpMalCnt := inc 16 s.host.mctpMalCnt }) .mctp
        (requestWords m s.host.eid)
      have hbody : s.mctpBad (requestWords m s.host.eid) = t := ht
      rw [hbody, hhost]
      exact ⟨rfl, hwhole⟩
  · -- EXCHANGE_START
    obtain ⟨hrunning, hdropped, hstopped⟩ := hidle
    have hactive : s.het.active = 0 := by
      rw [Hetos.active, hx, hwaiting, List.filter_singleton, hrunning]
      rfl
    refine ⟨{ s with het := { s.het with exchanges := [{ x with running := true }] } }, ?_, rfl, rfl⟩
    show execExchangeStart s = _
    unfold execExchangeStart
    rw [hx, List.find?_cons_of_pos (by rw [hrunning]; rfl)]
    dsimp only
    rw [if_pos (by rw [hactive]; decide), State.advanceExchange_assigned (ex := { x with running := true }) _ hstopped hdropped hop]
    unfold State.modHet
    dsimp only
    rw [hx, List.map_singleton, List.map_singleton, if_pos rfl, if_pos rfl]
  · -- MOD_LAYOUT
    obtain ⟨c, w, l, hbody, hengines, hheads'⟩ := opModLayout_layout (s := s.startPacket ⟨0x0102, [5], .config⟩ p) hkey hn hheads
    refine completes_result h hbody (opModLayout_moves ..) rfl rfl rfl rfl fun t hshape _ => ?_
    obtain ⟨_, _, _, _, _, rfl⟩ := hshape
    exact ⟨hengines, hheads', rfl, rfl⟩
  · -- HETOS_STATUS
    have hfin : fin? 3 (p.w 0).toNat = some x := by rw [hx, fin?, dif_pos x.isLt]
    refine completes_report (clamp := 0) h ?_
    rw [hfin]
    show PktRes.report _ (stHts _ x) = _
    unfold stHts
    rw [rHtsStatus_startPacket]
    rfl
  · -- HETOS_CLEAR
    have hfin : fin? 3 (p.w 0).toNat = some x := by rw [hx, fin?, dif_pos x.isLt]
    obtain ⟨c, het, hbody, hsame⟩ : ∃ c het, opHetosClear p (s.startPacket ⟨0x0104, [5], .action⟩ p) = {
        state := (s.startPacket ⟨0x0104, [5], .action⟩ p).modHet fun _ => het, clamp := c
        result := selected (fld (p.w 1) 3 0) [[nw s.het.cnt[x].pkt], [nw s.het.cnt[x].fail], [nw s.het.cnt[x].deny], [nw s.het.cnt[x].clamp]] } ∧
        het.exchanges = (s.startPacket ⟨0x0104, [5], .action⟩ p).het.exchanges := by
      unfold opHetosClear
      rw [hfin]
      exact ⟨_, _, rfl, rfl⟩
    show Completes (.next (runPacket _ p s (opHetosClear p))) _
    refine completes_packet h (by rw [hbody]) (by rw [hbody]; exact hsame) (by rw [hbody]; rfl) fun t hshape hreplied => ?_
    rw [hbody] at hshape hreplied
    exact ⟨⟨c, hreplied⟩, (((s.startPacket_shape _ p).trans (.modHet ..)).trans hshape).afterReply⟩

end Sys2Proof.Machine
end

section
/-! SUPPORT. The angle timeline: marks, comparators, holds and the Reel packets (02_angle_timeline.md). -/

namespace Sys2Proof.Machine
open Sys2Proof
set_option Elab.async false

/-! ### The timeline and the comparators of an engine -/

theorem State.modReel_same (s : State) (a : Eng) (f : Reel → Reel) : (s.modReel a f).eng[a] = { s.eng[a] with reel := f s.eng[a].reel } :=
  s.modEng_same a _

theorem State.modReel_reel (s : State) (a : Eng) (f : Reel → Reel) : (s.modReel a f).eng[a].reel = f s.eng[a].reel := by
  rw [s.modReel_same]

theorem State.modReel_other (s : State) (f : Reel → Reel) {a b : Eng} (h : a ≠ b) : (s.modReel a f).eng[b] = s.eng[b] := State.modEng_other s _ h

theorem State.modCmp_same (s : State) (a : Eng) (c : CmpIx) (f : Comparator → Comparator) :
    (s.modCmp a c f).eng[a].reel.cmp[c] = f s.eng[a].reel.cmp[c] := by
  rw [State.modCmp, State.modReel_same]
  exact vmod_same ..

theorem State.modCmp_others (s : State) (a : Eng) (f : Comparator → Comparator) {c d : CmpIx} (h : c ≠ d) :
    (s.modCmp a c f).eng[a].reel.cmp[d] = s.eng[a].reel.cmp[d] := by
  rw [State.modCmp, State.modReel_same]
  exact vmod_other _ _ h

/-- A comparator's write of its control register. -/
theorem Comparator.writeCtl_armed (c : CmpIx) (x : Comparator) (now : MTime) (v : Word) :
    (x.writeCtl c now v).armed = (v.getLsbD 31 && (cmpOwner c != 0xF || x.armed)) := by
  unfold Comparator.writeCtl
  dsimp only
  by_cases h31 : v.getLsbD 31 = true
  · rw [if_pos h31, h31, Bool.true_and]
    by_cases hown : cmpOwner c = 0xF
    · rw [if_pos hown, hown, bne_self_eq_false, Bool.false_or]
    · rw [if_neg hown, bne_iff_ne.mpr hown, Bool.true_or]
  · rw [if_neg h31, Bool.eq_false_iff.mpr h31, Bool.false_and]
    rfl

theorem Comparator.writeCtl_late (c : CmpIx) (x : Comparator) (now : MTime) {v : Word} (h : v.getLsbD 30 = true) :
    (x.writeCtl c now v).late = false := by
  have hlate : (x.late && !v.getLsbD 30) = false := by rw [h, Bool.not_true, Bool.and_false]
  unfold Comparator.writeCtl
  dsimp only
  split
  · split <;> exact hlate
  · exact hlate

/-! ### Comparators that fire -/

/-- What a comparator that is due does. -/
theorem execComparatorFire_due {s : State} {a : Eng} {c : CmpIx} {d : FireData} (hdue : s.cmpDue a c = true) (hseq : cmpSeq c = false) (h8 : c ≠ 8) :
    execComparatorFire a c d s = .next (((((((s.noteLate a c (s.fireLateness a c)).rearm a c).modReel a fun r =>
      { r with firing := c.val }).fireAction a c d s.eng[a].reel.cmp[c].target.linear).modReel a fun r => { r with firing := 0 }).reapCredits)) := by
  have hwaits : s.triggerWaits a c = false := by
    rw [State.triggerWaits, hseq]
    rfl
  unfold execComparatorFire
  rw [hdue, hwaits, if_neg (by decide), if_neg (fun h => h8 h.1)]

theorem State.cmpDue_of_locked {s : State} {a : Eng} {c : CmpIx} (hpres : s.enginePresent a = true) (hlocked : s.eng[a].reel.state = .locked)
    (harmed : s.eng[a].reel.cmp[c].armed = true) (hat : s.eng[a].reel.cmp[c].armedAt ≠ some s.mtime) (howner : cmpOwner c ≠ 0xF)
    (hreached : reached (s.angle a) (s.fireTarget a c) = true) : s.cmpDue a c = true := by
  rw [State.cmpDue, hpres, hlocked, hreached, harmed, ownerFires, bne_iff_ne.mpr hat, bne_iff_ne.mpr howner]
  rfl

section
variable (s : State) (a : Eng) (c : CmpIx)

theorem State.noteLate_headMask (n : Nat) : (s.noteLate a c n).eng[a].reel.cmp[c].headMask = s.eng[a].reel.cmp[c].headMask := by
  unfold State.noteLate
  dsimp only
  split
  · refine Eq.trans (congrArg (fun r : Reel => r.cmp[c].headMask) ((State.saturated_moves ..).reel_eq rfl a)) ?_
    rw [State.modCmp_same, State.modReel_same]
  · rfl

/-- A comparator other than the sequencer's 16 that has fired. -/
theorem State.rearm_eq (h : c.val ≠ 16) : s.rearm a c = s.modCmp a c fun k =>
    if k.repeat_ = 0 then k.disarm
    else { k with
      target := Stamp.ofLinear (angleAdd k.target.linear ((k.repeat_.toNat * 256 : Nat) + (0 : Int)))
      loWritten := false, hiWritten := false, armedAt := some s.mtime } := by
  unfold State.rearm
  rw [if_neg h, if_neg h]

theorem State.rearm_headMask (h : c.val ≠ 16) : (s.rearm a c).eng[a].reel.cmp[c].headMask = s.eng[a].reel.cmp[c].headMask := by
  rw [s.rearm_eq a c h, State.modCmp_same]
  split <;> rfl

end

/-- A head whose comparator of preheating fires is preheated, where it is ready to write. -/
theorem State.firePreheat_preheated {s : State} {a : Eng} {h : LHead} {g : Head} (hg : s.globalHead a h.val = some g)
    (hmask : s.eng[a].reel.cmp[(⟨48 + h.val, by omega⟩ : CmpIx)].headMask.getLsbD h.val = true) (hready : s.head[g].wr.writeReady = true) :
    (s.firePreheat a h).head[g].wr.preheated = true := by
  unfold State.firePreheat
  rw [hg]
  dsimp only
  rw [if_neg (by rw [hmask]; decide), if_pos (by rw [(s.strobeHead_moves g .preheat).wr_eq rfl]; exact hready)]
  exact congrArg (fun u : HeadUnit => u.wr.preheated) (vmod_same ..)

theorem cmpOwner_preheat {c : CmpIx} {h : LHead} (hc : c.val = 48 + h.val) : cmpOwner c = 4 := by
  have hlt := h.isLt
  unfold cmpOwner
  rw [if_neg (by omega), if_neg (by omega), if_neg (by omega), if_neg (by omega), if_neg (by omega), if_neg (by omega), if_neg (by omega),
    if_pos (by omega)]

theorem State.firePreheat_fired {s : State} {a : Eng} {h : LHead} {g : Head} {c : CmpIx} (hc : c.val = 48 + h.val)
    (hmask : s.eng[a].reel.cmp[c].headMask.getLsbD h.val = true) (hg : s.globalHead a h.val = some g) (hready : s.head[g].wr.writeReady = true)
    (d : FireData) (late : Nat) (at_ : Angle) : (((((((s.noteLate a c late).rearm a c).modReel a fun r =>
      { r with firing := c.val }).fireAction a c d at_).modReel a fun r => { r with firing := 0 }).reapCredits)).head[g].wr.preheated = true := by
  have hlt := h.isLt
  have hlt48 : 48 + h.val < 64 := by omega
  have hnote := s.noteLate_moves a c late
  have hmask1 := s.noteLate_headMask a c late
  generalize s.noteLate a c late = s1 at hnote hmask1 ⊢
  have hrearm := s1.rearm_moves a c
  have hmask2 := s1.rearm_headMask a c (by omega)
  generalize s1.rearm a c = s2 at hrearm hmask2 ⊢
  have hfire := s2.modReel_moves a fun r => { r with firing := c.val }
  have hmask3 : (s2.modReel a fun r => { r with firing := c.val }).eng[a].reel.cmp[c].headMask = s2.eng[a].reel.cmp[c].headMask := by
    rw [State.modReel_same]
  generalize (s2.modReel a fun r => { r with firing := c.val }) = s3 at hfire hmask3 ⊢
  have hix : finMod 12 (by decide) (c.val - 48) = h := Fin.ext (show (c.val - 48) % 12 = h.val by omega)
  have hact : s3.fireAction a c d at_ = s3.firePreheat a h := by
    unfold State.fireAction
    rw [cmpOwner_preheat hc]
    exact congrArg (s3.firePreheat a) hix
  rw [hact]
  have hlayout : s3.layout = s.layout := (hfire.same .layout rfl).trans ((hrearm.same .layout rfl).trans (hnote.same .layout rfl))
  rw [← hmask1, ← hmask2, ← hmask3] at hmask
  obtain rfl : c = ⟨48 + h.val, hlt48⟩ := Fin.ext hc
  exact State.firePreheat_preheated (s := s3) (by rw [State.globalHead, hlayout]; exact hg) hmask
    (by rw [hfire.wr_eq rfl, hrearm.wr_eq rfl, hnote.wr_eq rfl]; exact hready)

/-- What the lateness of a firing leaves. -/
theorem State.noteLate_effect (s : State) (a : Eng) (c : CmpIx) {n : Nat} (h : s.eng[a].reel.lateTol.toNat < n) :
    (s.noteLate a c n).eng[a].reel.lateCnt = inc 32 s.eng[a].reel.lateCnt ∧
      (s.noteLate a c n).eng[a].reel.markerTrace = s.eng[a].reel.markerTrace ∧
      (s.noteLate a c n).eng[a].reel.cmp[c].repeat_ = s.eng[a].reel.cmp[c].repeat_ ∧ (s.noteLate a c n).eng[a].reel.cmp[c].late = true := by
  have hnote : ∃ x1 x2 x3 x4 x5, s.noteLate a c n = ((s.modReel a fun r => { r with lateCnt := inc 32 r.lateCnt }).modCmp a c fun k =>
      { k with late := true, lateness := min n (2 ^ 32 - 1) }).saturated x1 0x02 x2 x3 x4 x5 := ⟨_, _, _, _, _, if_pos h⟩
  obtain ⟨x1, x2, x3, x4, x5, hnote⟩ := hnote
  have hreel := (State.saturated_moves ((s.modReel a fun r => { r with lateCnt := inc 32 r.lateCnt }).modCmp a c fun k =>
      { k with late := true, lateness := min n (2 ^ 32 - 1) }) x1 0x02 x2 x3 x4 x5).reel_eq rfl a
  rw [← hnote, State.modCmp, State.modReel_reel, State.modReel_reel] at hreel
  rw [hreel]
  refine ⟨rfl, rfl, ?_, ?_⟩
  · rw [vmod_same]
  · rw [vmod_same]

/-- What comparator 63 leads to as it fires, late by so much. -/
def State.lateMarker (s : State) (a : Eng) (d : FireData) (late : Nat) (at_ : Angle) (n : Nat) : State :=
  ((((((s.noteLate a 63 late).rearm a 63).modReel a fun r => { r with firing := n }).fireAction a 63 d at_).modReel a fun r =>
    { r with firing := 0 }).reapCredits)

/-- A marker that fires late: counted, its comparator disarmed with the late mark set. -/
theorem State.lateMarker_fired {s : State} {a : Eng} (hrep : s.eng[a].reel.cmp[(63 : CmpIx)].repeat_ = 0) {late : Nat}
    (hlate : s.eng[a].reel.lateTol.toNat < late) (htrace : s.eng[a].reel.markerTrace = false) (d : FireData) (at_ : Angle) (n : Nat) :
    (s.lateMarker a d late at_ n).eng[a].reel.lateCnt = inc 32 s.eng[a].reel.lateCnt ∧
      (s.lateMarker a d late at_ n).eng[a].reel.cmp[(63 : CmpIx)].armed = false ∧
      (s.lateMarker a d late at_ n).eng[a].reel.cmp[(63 : CmpIx)].late = true := by
  obtain ⟨h1, h2, h3, h4⟩ := s.noteLate_effect a 63 hlate
  unfold State.lateMarker
  generalize s.noteLate a 63 late = s1 at h1 h2 h3 h4 ⊢
  rw [s1.rearm_eq a 63 (by decide)]
  generalize hs2 : (s1.modCmp a 63 _) = s2
  have hcnt : s2.eng[a].reel.lateCnt = inc 32 s.eng[a].reel.lateCnt := by
    rw [← hs2, State.modCmp, State.modReel_reel]
    exact h1
  have htr : s2.eng[a].reel.markerTrace = false := by
    rw [← hs2, State.modCmp, State.modReel_reel]
    exact h2.trans htrace
  have hcmp : s2.eng[a].reel.cmp[(63 : CmpIx)].armed = false ∧ s2.eng[a].reel.cmp[(63 : CmpIx)].late = true := by
    rw [← hs2, State.modCmp_same, if_pos (h3.trans hrep)]
    exact ⟨rfl, h4⟩
  have hact : (s2.modReel a fun r => { r with firing := n }).fireAction a 63 d at_ = (s2.modReel a fun r => { r with firing := n }).condReel a := by
    show (if (s2.modReel a fun r => { r with firing := n }).eng[a].reel.markerTrace = true then _ else _) = _
    rw [State.modReel_reel, if_neg (by rw [htr]; decide)]
  rw [hact]
  have hcond := ((s2.modReel a fun r => { r with firing := n }).condReel_moves a).reel_eq rfl a
  have hreel : (((s2.modReel a fun r => { r with firing := n }).condReel a).modReel a fun r => { r with firing := 0 }).eng[a].reel =
      { s2.eng[a].reel with firing := 0 } := by
    rw [State.modReel_reel, hcond, State.modReel_reel]
  show ((((s2.modReel a fun r => { r with firing := n }).condReel a).modReel a fun r => { r with firing := 0 }).eng[a].reel).lateCnt = _ ∧
    ((((s2.modReel a fun r => { r with firing := n }).condReel a).modReel a fun r => { r with firing := 0 }).eng[a].reel).cmp[(63 : CmpIx)].armed = _ ∧
    ((((s2.modReel a fun r => { r with firing := n }).condReel a).modReel a fun r => { r with firing := 0 }).eng[a].reel).cmp[(63 : CmpIx)].late = _
  rw [hreel]
  exact ⟨hcnt, hcmp⟩

/-! ### Marks -/

/-- A mark expected and in its window leaves the timeline at the wedge boundary. -/
theorem Reel.markStep_next {r : Reel} (h : r.slipFix = .none) : ∃ err, r.markStep =
    ({ r.setAngle (((r.stamp.rev * 720 + r.stamp.wedge + 1) * 65536) % angleModulus) with
      hold := none, heldFor := 0, markErr := err, flyRun := 0 }, (r.stamp.rev * 720 + r.stamp.wedge + 1) % 720) := by
  unfold Reel.markStep
  dsimp only
  rw [h]
  exact ⟨_, rfl⟩

/-- What a mark settles of a timeline: its state, its stamp, its hold and its count of missed marks. -/
def Reel.settled (r : Reel) : TState × Stamp × Option Nat × Option MTime × Nat := (r.state, r.stamp, r.hold, r.lastMark, r.flyRun)

theorem State.modReel_settled (s : State) (a b : Eng) {f : Reel → Reel} (h : ∀ r, (f r).settled = r.settled) :
    Kept (fun s => s.eng[a].reel.settled) s (s.modReel b f) := by
  by_cases hab : b = a
  · subst hab
    show ((s.modReel b f).eng[b].reel).settled = _
    rw [State.modReel_reel, h]
  · exact congrArg (fun e : Engine => e.reel.settled) (State.modReel_other s f hab)

theorem State.latchSkew_settled (s : State) (a b : Eng) : Kept (fun s => s.eng[b].reel.settled) s (s.latchSkew a) := by
  unfold State.latchSkew
  refine .ite (.fold _ _ _ fun s c => .ite ?_ .refl) .refl
  exact State.modReel_settled s b c fun _ => by simp only [Reel.settled]

theorem State.checkIndex_settled {s : State} {a : Eng} {i : Fin 720} {expect : Nat} (h : i.val = expect) :
    Kept (fun s => s.eng[a].reel.settled) s (s.checkIndex a (some i) expect) := by
  have hdiff : wedgeDiff i.val expect = 0 := by
    have hi := i.isLt
    unfold wedgeDiff
    dsimp only
    rw [← h, show (i.val + 720 - i.val % 720) % 720 = 0 by omega]
    rfl
  unfold State.checkIndex
  dsimp only
  rw [if_pos hdiff]
  exact State.modReel_settled _ _ _ fun _ => by simp only [Reel.settled]

/-- After a mark the time of the last mark is now. -/
theorem State.measure_settled (s : State) (a : Eng) : (s.measure a).eng[a].reel.settled =
    (s.eng[a].reel.state, s.eng[a].reel.stamp, s.eng[a].reel.hold, some s.mtime, s.eng[a].reel.flyRun) := by
  unfold State.measure
  extract_lets s1
  have h1 : s1.eng[a].reel.settled = (s.eng[a].reel.state, s.eng[a].reel.stamp, s.eng[a].reel.hold, some s.mtime, s.eng[a].reel.flyRun) := by
    rw [show s1.eng[a].reel = _ from State.modReel_reel ..]
    split <;> rfl
  split
  · exact h1
  · exact Eq.trans (State.modReel_settled s1 a a fun _ => by simp only [Reel.settled]) h1

theorem State.acceptLocked_settled {s : State} {a : Eng} {m : MarkInfo} {i : Fin 720} (hfix : s.eng[a].reel.slipFix = .none)
    (hindex : markIndex m = some i) (hi : i.val = (s.eng[a].reel.stamp.rev * 720 + s.eng[a].reel.stamp.wedge + 1) % 720) :
    (s.acceptLocked a m).eng[a].reel.settled = (.locked,
      Stamp.ofLinear (((s.eng[a].reel.stamp.rev * 720 + s.eng[a].reel.stamp.wedge + 1) * 65536) % angleModulus), none, some s.mtime, 0) := by
  obtain ⟨err, hstep⟩ := Reel.markStep_next hfix
  unfold State.acceptLocked
  dsimp only
  rw [hstep, hindex]
  dsimp only
  refine Eq.trans (State.checkIndex_settled hi) ?_
  refine Eq.trans (congrArg Reel.settled ((State.reseed_moves ..).reel_eq rfl a)) ?_
  refine Eq.trans (State.latchSkew_settled ..) ?_
  show (State.measure _ a).eng[a].reel.settled = _
  rw [State.measure_settled, State.modReel_reel]
  rfl

theorem State.noteTimingHead_reel (s : State) (a : Eng) (m : MarkInfo) : (s.noteTimingHead a m).eng[a].reel = s.eng[a].reel :=
  (State.noteTimingHead_moves ..).reel_eq rfl a

/-! ### The obligation -/

/-- Settles O21. -/
theorem angleTimeline : Obligations.AngleTimeline := by
  refine ⟨fun s a c ctl hpres => ?_, fun s a h g d hpres hlocked harmed hmask hat hreached hg hready => ?_,
    fun s a d hpres hlocked harmed hat hreached hrep hlate htrace => ?_,
    fun s a m g i hpres hg hdepop hlost hlocked hfix hwin hindex hi => ?_, fun s a hpres hstate hhold => ?_,
    fun s p h => ?_, fun s p h hlo hrev => ?_, fun s p h => ?_, fun s p h => ?_⟩
  · -- COMPARATOR_ARM
    refine ⟨_, congrArg Host.Outcome.next (if_pos hpres), ?_, fun h30 => ?_, fun d hd => State.modCmp_others s a _ hd,
      fun b hb => State.modReel_other s _ hb, rfl⟩
    · rw [State.modCmp_same, Comparator.writeCtl_armed]
    · rw [State.modCmp_same, Comparator.writeCtl_late _ _ _ h30]
  · -- COMPARATOR_FIRE of preheating
    have hc : (⟨48 + h.val, by omega⟩ : CmpIx).val = 48 + h.val := rfl
    have howner := cmpOwner_preheat hc
    have hdue := State.cmpDue_of_locked hpres hlocked harmed hat (by rw [howner]; decide) hreached
    exact ⟨_, execComparatorFire_due hdue (by rw [cmpSeq, howner]; rfl) (Fin.ne_of_val_ne (show 48 + h.val ≠ 8 by omega)),
      State.firePreheat_fired hc hmask hg hready d _ _⟩
  · -- COMPARATOR_FIRE that is late
    have hdue := State.cmpDue_of_locked hpres hlocked harmed hat (by decide) hreached
    refine ⟨_, execComparatorFire_due hdue (by decide) (by decide), ?_⟩
    exact State.lateMarker_fired hrep hlate htrace d _ _
  · -- SERVO_MARK_ACCEPT
    have hmark : execServoMarkAccept a m s = .next (s.mark a m) := by
      unfold execServoMarkAccept
      rw [hg]
      exact congrArg Host.Outcome.next (if_pos (by rw [hpres, hdepop, hlost]; rfl))
    have hlockedMark : s.mark a m = (s.noteTimingHead a m).acceptLocked a m := by
      unfold State.mark
      dsimp only
      rw [hlocked]
      dsimp only
      rw [if_pos (by rw [decide_eq_true hwin, Bool.or_true])]
    have hreel := s.noteTimingHead_reel a m
    have hsettled := State.acceptLocked_settled (s := s.noteTimingHead a m) (m := m) (by rw [hreel]; exact hfix) hindex (by rw [hreel]; exact hi)
    rw [hreel, ← hlockedMark] at hsettled
    simp only [Reel.settled, Prod.mk.injEq] at hsettled
    obtain ⟨h1, h2, h3, h4, h5⟩ := hsettled
    exact ⟨_, hmark, h1, h2, h3, h4.trans (congrArg some ((s.noteTimingHead_moves a m).mtime_eq rfl)), h5⟩
  · -- MARK_HOLD_EXPIRY
    refine ⟨_, congrArg Host.Outcome.next (if_pos ⟨hpres, hstate, hhold⟩), ?_⟩
    have hreel := (s.forceWritesOff_moves a (s.headsOf a) true false).reel_eq rfl a
    dsimp only
    generalize s.forceWritesOff a (s.headsOf a) true false = u at hreel ⊢
    have hsat := fun (v : State) r x1 x2 x3 x4 x5 => (v.saturated_moves r x1 x2 x3 x4 x5).reel_eq rfl a
    rw [hsat, State.modReel_reel]
    refine ⟨rfl, rfl, rfl, ?_⟩
    show Stamp.ofLinear (_ + u.eng[a].reel.markWin.toNat) = _
    rw [hreel]
  · -- REEL_STATUS
    exact completes_packet h rfl rfl rfl fun t hshape hreplied => ⟨hreplied, ((s.startPacket_shape _ p).trans hshape).afterReply⟩
  · -- REEL_MARKER
    refine completes_op h (opReelMarker_moves ..) rfl rfl rfl rfl fun t hshape _ => ?_
    obtain ⟨_, _, _, _, _, rfl⟩ := hshape
    refine ⟨?_, ?_, fun b hb => (vmod_other _ _ hb).trans (vmod_other _ _ hb), rfl⟩
    · exact (congrArg (fun e : Engine => e.reel.cmp[(63 : CmpIx)].armed) (vmod_same ..)).trans (congrArg Comparator.armed (vmod_same ..))
    · exact (congrArg (fun e : Engine => e.reel.cmp[(63 : CmpIx)].target.rev) (vmod_same ..)).trans
        (congrArg (fun c : Comparator => c.target.rev) (vmod_same ..))
  · -- REEL_CONFIG
    refine completes_op h (opReelConfig_moves ..) rfl rfl rfl rfl fun t hshape hans => ?_
    obtain ⟨_, _, _, _, _, rfl⟩ := hshape
    exact ⟨congrArg (fun e : Engine => e.reel.markWin) (vmod_same ..), congrArg (fun e : Engine => e.reel.lateTol) (vmod_same ..), hans,
      fun b hb => vmod_other _ _ hb, rfl⟩
  · -- REEL_CLEAR
    refine completes_op h (opReelClear_moves ..) rfl rfl rfl rfl fun t hshape _ => ?_
    obtain ⟨_, _, _, _, _, rfl⟩ := hshape
    exact ⟨congrArg (fun e : Engine => e.reel) (vmod_same ..), fun b hb => vmod_other _ _ hb, rfl⟩

end Sys2Proof.Machine
end

section
/-! SUPPORT. The sample slices: enabling, streaming, underrun, overrun, drops and acquisition (04_sample_slices.md). -/

namespace Sys2Proof.Machine
open Sys2Proof
set_option Elab.async false

/-! ### Slices one by one -/

theorem State.modSlice_same (s : State) (n : SliceIx) (f : Slice → Slice) : (s.modSlice n f).slice[n] = f s.slice[n] := vmod_same ..

theorem State.modSlice_other (s : State) (f : Slice → Slice) {n m : SliceIx} (h : n ≠ m) : (s.modSlice n f).slice[m] = s.slice[m] :=
  vmod_other _ _ h

/-- A slice that a change leaves as it is in what g shows. -/
theorem State.modSlice_kept {α : Type} (g : Slice → α) (s : State) (n m : SliceIx) {f : Slice → Slice} (h : ∀ x, g (f x) = g x) :
    Kept (fun s => g s.slice[m]) s (s.modSlice n f) := by
  by_cases hn : n = m
  · subst hn
    exact (congrArg g (s.modSlice_same n f)).trans (h _)
  · exact congrArg g (s.modSlice_other f hn)

/-- A slice changed, and an event. -/
theorem Moves.afterEvent_slice {s t : State} (h : Moves [.slice, .trc, .evr] s t) : t = ({ s with slice := t.slice } : State).afterEvent t :=
  h.eq_of_parts rfl fun x => by cases x <;> first | rfl | exact fun _ => rfl

/-! ### Streams that start (R105, R107, R123) -/

/-- What the words due at the start of a stream leave of a slice. -/
def Slice.opened (x : Slice) : SliceState × Nat × List (BitVec 2) × Nat := (x.state, x.popAcc, x.missing, x.lat)

theorem Slice.writeWord_opened (k : SliceIx) (x : Slice) : (x.writeWord k).opened = x.opened := by
  unfold Slice.writeWord
  split <;> rfl

theorem Slice.writeDue_opened (k : SliceIx) (taken n : Nat) (x : Slice) : (Slice.writeDue k taken n x).opened = x.opened := by
  induction n generalizing x with
  | zero => rfl
  | succ n ih =>
    rw [Slice.writeDue]
    split
    · rw [ih, Slice.writeWord_opened]
    · rfl

theorem Slice.startStream_opened (k : SliceIx) (skew : Int) (t : MTime) (epoch level : Nat) (x : Slice) :
    (x.startStream k skew t epoch level).opened = (.idle, 0, [], sampleAge skew t (samplesBy skew t / 4 * 4 - 4 * level)) := by
  unfold Slice.startStream
  dsimp only
  exact (Slice.writeDue_opened k _ level _).trans rfl

/-! ### Words repeated (R108) -/

theorem Slice.deliver_last (r : SliceRegs) (x : Slice) : ∃ v : Sample, v.flag = true ∧
    x.deliver r true x.lastCode = { x with line := (v :: x.line).take 64, lineEnd := x.lineEnd + 1 } := ⟨_, rfl, rfl⟩

theorem Slice.repeatWord_effect (r : SliceRegs) (x : Slice) : ∃ line, (line.take 4).map Sample.flag = [true, true, true, true] ∧
    x.repeatWord r = { x with
      underrun := true, underrunCnt := inc 32 x.underrunCnt, rdSeq := x.rdSeq + 1, line := line, lineEnd := x.lineEnd + 4 } := by
  obtain ⟨v1, hv1, h1⟩ := x.deliver_last r
  obtain ⟨v2, hv2, h2⟩ := Slice.deliver_last r { x with line := (v1 :: x.line).take 64, lineEnd := x.lineEnd + 1 }
  obtain ⟨v3, hv3, h3⟩ := Slice.deliver_last r { x with line := (v2 :: (v1 :: x.line).take 64).take 64, lineEnd := x.lineEnd + 1 + 1 }
  obtain ⟨v4, hv4, h4⟩ := Slice.deliver_last r
    { x with line := (v3 :: (v2 :: (v1 :: x.line).take 64).take 64).take 64, lineEnd := x.lineEnd + 1 + 1 + 1 }
  refine ⟨(v4 :: (v3 :: (v2 :: (v1 :: x.line).take 64).take 64).take 64).take 64, ?_, ?_⟩
  · simp only [List.take_succ_cons, List.take_zero, List.map_cons, List.map_nil, hv1, hv2, hv3, hv4]
  · have hfold : x.deliverWord r true (List.replicate 4 x.lastCode) =
        (((x.deliver r true x.lastCode).deliver r true x.lastCode).deliver r true x.lastCode).deliver r true x.lastCode := rfl
    rw [Slice.repeatWord, hfold, h1, h2, h3, h4]

/-- A slice whose FIFO was empty when a word was due. -/
def Slice.underran (r : SliceRegs) (x : Slice) : Slice :=
  let y := x.underrunWord r
  { y with wrSync := (y.wrSync.1, y.rdPtr), popAhead := x.popAhead + 1 }

theorem Slice.underran_effect (r : SliceRegs) (x : Slice) : ∃ line sync ahead, (line.take 4).map Sample.flag = [true, true, true, true] ∧
    x.underran r = { x with
      underrun := true, underrunCnt := inc 32 x.underrunCnt, rdSeq := x.rdSeq + 1, line := line, lineEnd := x.lineEnd + 4
      missing := x.missing ++ [x.rdSeq], wrSync := sync, popAhead := ahead } := by
  obtain ⟨line, hflags, hword⟩ := x.repeatWord_effect r
  unfold Slice.underran Slice.underrunWord
  rw [hword]
  exact ⟨line, (x.wrSync.1, x.rdPtr), x.popAhead + 1, hflags, rfl⟩

theorem execSliceUnderrun_of {s : State} {n : SliceIx} (h : s.slice[n].state.streaming = true) : execSliceUnderrun n s =
    .next (((s.modSlice n (Slice.underran s.head[sliceHead n].rd[sliceReader n])).demodWord n).saturated (reaches 32 s.slice[n].underrunCnt) 0x04 3
      (sliceHead n).val (0x700114 + n.val * 0x40) (nw (s.slice[n].underrunCnt + 1))) := congrArg Host.Outcome.next (if_pos h)

/-! ### Packets dropped (R120) -/

/-- The open packet of a slice and its count of drops. -/
def Slice.held (x : Slice) : Bool × Nat := (x.packet, x.dropCnt)

/-- What the settling of a head's packets leaves of a slice. -/
theorem State.loadEntry_packet (s : State) (g : Head) (b : Fin 64) (track : Nat) (n : SliceIx) :
    Kept (fun s => s.slice[n].held) s (s.loadEntry g b track) := by
  unfold State.loadEntry
  extract_lets e same s1
  have h1 : Kept (fun s => s.slice[n].held) s s1 := rfl
  have h2 := State.modSlice_kept Slice.held s1 (sliceA g) n (f := fun x => { x with band := b.val }) fun _ => rfl
  have h3 := State.modSlice_kept Slice.held (s1.modSlice (sliceA g) fun x => { x with band := b.val }) (sliceB g) n
    (f := fun x => { x with band := b.val }) fun _ => rfl
  exact h1.trans (h2.trans h3)

theorem State.packetSettled_packet (s : State) (g : Head) (n : SliceIx) :
    Kept (fun s => s.slice[n].held) s (s.packetSettled g) := by
  unfold State.packetSettled
  split
  · exact .refl
  · extract_lets s1 due s2
    have h1 : Kept (fun s => s.slice[n].held) s s1 := by
      show Kept _ s (match s.head[g].map.bandDue with
        | some t => s.loadBand g t
        | none => s)
      split
      · exact State.loadEntry_packet ..
      · exact .refl
    have hregs : Moves [.rd, .det] (s1.modMap g fun m => { m with regsDue := [] }) s2 := Moves.fold _ _ _ fun s p => State.putChannelReg_moves ..
    have h2 : Kept (fun s => s.slice[n].held) s1 s2 :=
      congrArg (fun v : Vector Slice 48 => v[n].held) (hregs.slice_eq rfl)
    have h3 := State.modSlice_kept Slice.held s2 (sliceA g) n (f := fun x => { x with state := .off }) fun _ => rfl
    have h4 := State.modSlice_kept Slice.held (s2.modSlice (sliceA g) fun x => { x with state := .off }) (sliceB g) n
      (f := fun x => { x with state := .off }) fun _ => rfl
    exact (h1.trans h2).trans (.ite (h3.trans h4) .refl)

/-! ### The obligation -/

theorem sliceHead_eq (n : SliceIx) : n = sliceA (sliceHead n) ∨ n = sliceB (sliceHead n) := by
  have hlt := n.isLt
  rcases Nat.mod_two_eq_zero_or_one n.val with h | h
  · exact .inl (Fin.ext (show n.val = 2 * (n.val / 2) by omega))
  · exact .inr (Fin.ext (show n.val = 2 * (n.val / 2) + 1 by omega))

theorem State.modMap_same (s : State) (g : Head) (f : HeadMap → HeadMap) : (s.modMap g f).head[g].map = f s.head[g].map :=
  congrArg HeadUnit.map (vmod_same s.head g fun h => { h with map := f h.map })

theorem State.demodWord_effect (s : State) (n : SliceIx) : (∃ d, (s.demodWord n).slice[n] = { s.slice[n] with demod := d }) ∧
    ∀ m, n ≠ m → (s.demodWord n).slice[m] = s.slice[m] := by
  unfold State.demodWord
  split
  · exact ⟨⟨_, s.modSlice_same n fun x => { x with demod := (x.line.take 4).map (·.x) ++ x.demod }⟩, fun m hm => s.modSlice_other _ hm⟩
  · exact ⟨⟨_, rfl⟩, fun m _ => rfl⟩

/-- The readers of a head have not both failed while one of its slices has not. -/
theorem State.readersFailed_of_one {s : State} {n : SliceIx} (h : s.slice[n].state ≠ .failed) : s.readersFailed (sliceHead n) = s := by
  refine if_neg fun hboth => h ?_
  rcases sliceHead_eq n with hn | hn
  · rw [hn]
    exact hboth.1
  · rw [hn]
    exact hboth.2

theorem State.saturated_slices (s : State) (reached : Bool) (subsys level index reg : Nat) (value : Word) :
    (s.saturated reached subsys level index reg value).slice = s.slice := (s.saturated_moves ..).slice_eq rfl

theorem Moves.afterEvent_modSlice {s u : State} {n : SliceIx} {f : Slice → Slice} (h : Moves [.trc, .evr] (s.modSlice n f) u) :
    u = ({ s with slice := u.slice } : State).afterEvent u :=
  (h.after (by decide) ((s.modSlice_moves n f).widen (by decide))).afterEvent_slice

theorem completes_sliceUnderrun : ∀ (s : State) (n : SliceIx), s.slice[n].state.streaming = true → Completes (exec (.sliceUnderrun n) s) fun t =>
       t.slice[n].underrun = true ∧ t.slice[n].underrunCnt = inc 32 s.slice[n].underrunCnt ∧
       t.slice[n].missing = s.slice[n].missing ++ [s.slice[n].rdSeq] ∧ t.slice[n].rdSeq = s.slice[n].rdSeq + 1 ∧
       t.slice[n].lineEnd = s.slice[n].lineEnd + 4 ∧ t.slice[n].lastCode = s.slice[n].lastCode ∧
       ((t.slice[n].line.take 4).map (·.flag) = [true, true, true, true]) ∧ (∀ m, n ≠ m → t.slice[m] = s.slice[m]) ∧
       t = ({ s with slice := t.slice } : State).afterEvent t := by
  intro s n hstream
  refine ⟨_, execSliceUnderrun_of hstream, ?_⟩
  obtain ⟨line, sync, ahead, hflags, hword⟩ := s.slice[n].underran_effect s.head[sliceHead n].rd[sliceReader n]
  have hself := s.modSlice_same n (Slice.underran s.head[sliceHead n].rd[sliceReader n])
  have hother := fun m (hm : n ≠ m) => s.modSlice_other (Slice.underran s.head[sliceHead n].rd[sliceReader n]) hm
  have hmoves := s.modSlice_moves n (Slice.underran s.head[sliceHead n].rd[sliceReader n])
  rw [hword] at hself
  generalize s.modSlice n (Slice.underran s.head[sliceHead n].rd[sliceReader n]) = u at hself hother hmoves ⊢
  obtain ⟨⟨d, hdemod⟩, hdemodOther⟩ := u.demodWord_effect n
  rw [hself] at hdemod
  have hwhole := (((u.demodWord n).saturated_moves (reaches 32 s.slice[n].underrunCnt) 0x04 3 (sliceHead n).val (0x700114 + n.val * 0x40)
    (nw (s.slice[n].underrunCnt + 1))).after (n := [.slice, .trc, .evr]) (by decide)
    ((u.demodWord_moves n).after (by decide) (hmoves.widen (by decide)))).afterEvent_slice
  refine ⟨?_, ?_, ?_, ?_, ?_, ?_, ?_, fun m hm => ?_, hwhole⟩
  all_goals rw [State.saturated_slices]
  · rw [hdemod]
  · rw [hdemod]
  · rw [hdemod]
  · rw [hdemod]
  · rw [hdemod]
  · rw [hdemod]
  · rw [hdemod]
    exact hflags
  · rw [hdemodOther m hm, hother m hm]

theorem completes_sliceFifoTimeout : ∀ (s : State) (n : SliceIx), (s.slice[n].state = .idle ∨ s.slice[n].state = .wake) → s.slice[n].packet = false →
     (s.slice[n].faultRun < 2) →
     Completes (exec (.sliceFifoTimeout n) s) fun t =>
       t.slice[n].state = .fault ∧ t.slice[n].tmo = true ∧ t.slice[n].fifo = [] ∧
       t.slice[n].tmoCnt = inc 16 s.slice[n].tmoCnt ∧ t.slice[n].faultRun = s.slice[n].faultRun + 1 := by
  intro s n hstate hpacket hrun
  have hon : (s.slice[n].state.streaming || s.slice[n].state == .wake) = true := by
    rcases hstate with hstate | hstate <;> rw [hstate] <;> rfl
  refine ⟨_, congrArg Host.Outcome.next (if_pos hon), ?_⟩
  dsimp only
  rw [hpacket, if_neg Bool.false_ne_true, if_neg (show ¬3 ≤ s.slice[n].faultRun + 1 by omega)]
  have hself := s.modSlice_same n fun x => { x.closed .fault with
    tmo := true, tmoCnt := inc 16 x.tmoCnt, faultRun := s.slice[n].faultRun + 1, fifo := [], wrPtr := 0, rdPtr := 0, wrSync := (0, 0), rdSync := (0, 0) }
  generalize (s.modSlice n _) = u at hself ⊢
  have hcond := (u.condSlice_moves n).slice_eq rfl
  generalize u.condSlice n = v at hcond ⊢
  have hsat := v.saturated_slices (reaches 16 s.slice[n].tmoCnt) 0x04 3 (sliceHead n).val (0x700124 + n.val * 0x40) (rFltCnt v.slice[n])
  generalize v.saturated (reaches 16 s.slice[n].tmoCnt) 0x04 3 (sliceHead n).val (0x700124 + n.val * 0x40) (rFltCnt v.slice[n]) = w at hsat ⊢
  have hrest := (w.sliceRestarted_moves n).slice_eq rfl
  generalize w.sliceRestarted n = x at hrest ⊢
  rw [hsat, hcond] at hrest
  have hslice : x.slice[n] = _ := (congrArg (fun v : Vector Slice 48 => v[n]) hrest).trans hself
  have hstay : x.readersFailed (sliceHead n) = x := State.readersFailed_of_one (by rw [hslice]; exact nofun)
  rw [hstay, hslice]
  exact ⟨rfl, rfl, rfl, rfl, rfl⟩

theorem completes_sliceOverrun : ∀ (s : State) (n : SliceIx), s.slice[n].state.streaming = true → Completes (exec (.sliceOverrun n) s) fun t =>
       t.slice[n].overrun = true ∧ t.slice[n].overrunCnt = inc 16 s.slice[n].overrunCnt ∧ t.slice[n].fifo = s.slice[n].fifo ∧
       t.slice[n].wrSeq = s.slice[n].wrSeq + 1 ∧ t.slice[n].wrPtr = s.slice[n].wrPtr ∧ (∀ m, n ≠ m → t.slice[m] = s.slice[m]) ∧ t = ({ s with slice := t.slice } : State).afterEvent t := by
  intro s n hstream
  refine ⟨_, congrArg Host.Outcome.next (if_pos hstream), ?_⟩
  dsimp only
  have hself := s.modSlice_same n fun x => x.loseWord n
  refine ⟨?_, ?_, ?_, ?_, ?_, fun m hm => ?_, (State.saturated_moves ..).afterEvent_modSlice⟩
  all_goals rw [State.saturated_slices]
  · rw [hself]
    rfl
  · rw [hself]
    rfl
  · rw [hself]
    rfl
  · rw [hself]
    rfl
  · rw [hself]
    rfl
  · exact s.modSlice_other _ hm

theorem completes_dropCommand : ∀ (s : State) (n : SliceIx), (s.slice[n].state = .acq) → s.slice[n].packet = true →
     Completes (exec (.dropCommand n) s) fun t => t.slice[n].packet = false ∧ t.slice[n].dropCnt = inc 32 s.slice[n].dropCnt := by
  intro s n hstate hpacket
  refine ⟨_, congrArg Host.Outcome.next (if_pos hpacket), ?_⟩
  dsimp only
  have hself : (s.modSlice n Slice.drop).slice[n].held = (false, inc 32 s.slice[n].dropCnt) := by
    rw [s.modSlice_same n, Slice.drop, if_pos hpacket]
    rfl
  generalize s.modSlice n Slice.drop = u at hself ⊢
  generalize ht : (if u.streaming (sliceHead n) = true then u else _) = t
  have hheld : t.slice[n].held = (false, inc 32 s.slice[n].dropCnt) := by
    rw [← ht]
    split
    · exact hself
    · refine Eq.trans (State.packetSettled_packet ..) ?_
      split
      · exact (congrArg (fun v : Vector Slice 48 => v[n].held) ((State.dropStream_moves ..).slice_eq rfl)).trans hself
      · exact hself
  exact Prod.mk.inj hheld

/-- Settles O25. -/
theorem sliceEvents : Obligations.SliceEvents := by
  refine ⟨fun s n hoff hpres hdepop => ?_, fun s n level epoch hstate hwake hstart hlevel => ?_, fun s n hstream => ?_,
    fun s n wseq hmissing hhead => ?_, fun s n wseq hmissing => ?_, fun s n hstate hpacket hrun => ?_, fun s n hstream => ?_,
    fun s n hstate hpacket => ?_, fun s g r n hn hstate hpacket hbits hzero => ?_, fun s g r n hn hstate hpacket hbits => ?_,
    fun s g track hpres hdepop hopen hband => ?_, fun s g track hpres hdepop hopen hband => ?_⟩
  · -- SLICE_ENABLE
    refine ⟨_, congrArg Host.Outcome.next (if_pos ⟨hoff, hpres, by rw [hdepop]; rfl⟩), State.modSlice_same .., fun m hm => State.modSlice_other _ _ hm, rfl⟩
  · -- SLICE_STREAM_START
    refine ⟨_, congrArg Host.Outcome.next (if_pos ⟨hstate, hstart, hlevel⟩), ?_⟩
    dsimp only
    rw [hwake]
    dsimp only
    have hmoves := ((s.modSlice n fun x => x.startStream n (s.skewOf n) s.mtime epoch level).sliceRestarted_moves n).slice_eq rfl
    have hopened := s.slice[n].startStream_opened n (s.skewOf n) s.mtime epoch level
    have hself : ((s.modSlice n fun x => x.startStream n (s.skewOf n) s.mtime epoch level).sliceRestarted n).slice[n] =
        s.slice[n].startStream n (s.skewOf n) s.mtime epoch level := by
      rw [hmoves]
      exact State.modSlice_same ..
    simp only [Slice.opened, Prod.mk.injEq] at hopened
    obtain ⟨h1, h2, h3, h4⟩ := hopened
    refine ⟨hself, ?_, ?_, ?_, ?_, fun m hm => ?_⟩
    · rw [hself, h1]
    · rw [hself, h2]
    · rw [hself, h3]
    · rw [hself, h4]
    · rw [hmoves]
      exact State.modSlice_other _ _ hm
  · exact completes_sliceUnderrun s n hstream
  · -- SLICE_LATE_WORD_DISCARD
    refine ⟨_, rfl, ?_, fun m hm => State.modSlice_other _ _ hm, rfl⟩
    rw [State.modSlice_same, if_pos hmissing, if_pos hhead]
    rfl
  · -- SLICE_LATE_WORD_DISCARD of a word not missing
    refine ⟨_, rfl, ?_⟩
    exact congrArg (fun v => ({ s with slice := v } : State)) (vmod_id s.slice n (if_neg (Bool.eq_false_iff.mp hmissing)))
  · exact completes_sliceFifoTimeout s n hstate hpacket hrun
  · exact completes_sliceOverrun s n hstream
  · exact completes_dropCommand s n hstate hpacket
  · -- ZERO_PHASE_START
    subst hn
    have hdue : s.slice[sliceOf g r].zeroDue = true := by rw [Slice.zeroDue, hpacket, hstate, hbits, hzero]; rfl
    exact ⟨_, congrArg Host.Outcome.next (if_pos hdue), State.modSlice_same .., fun m hm => State.modSlice_other _ _ hm, rfl⟩
  · -- SLICE_ACQ_TO_TRACK
    subst hn
    have hdue : s.slice[sliceOf g r].trackDue s.head[g].rd[r] = true := by
      rw [Slice.trackDue, hpacket, hstate, hbits]
      exact beq_self_eq_true _
    refine ⟨_, congrArg Host.Outcome.next (if_pos hdue), State.modSlice_same .., ?_, fun m hm => State.modSlice_other _ _ hm, rfl⟩
    exact congrArg Slice.state (State.modSlice_same ..)
  · -- BAND_LOAD with a packet open
    have hbody : s.serveTrack g track.toNat = s.modMap g fun m =>
        { m with bandDue := some track.toNat, regsDue := m.regsDue.filter fun p => p.1 == 0x50C } := by
      unfold State.serveTrack
      dsimp only
      rw [if_neg (by rw [hdepop]; decide), if_pos (.inl hband), if_pos hopen]
    refine ⟨_, congrArg Host.Outcome.next ((if_pos hpres).trans hbody), ?_, ?_, fun k hk => vmod_other _ _ hk, rfl⟩
    · rw [State.modMap_same]
    · rw [State.modMap_same]
  · -- BAND_LOAD
    refine ⟨_, congrArg Host.Outcome.next (if_pos hpres), ?_⟩
    unfold State.serveTrack
    dsimp only
    rw [if_neg (by rw [hdepop]; decide), if_pos (.inl hband), if_neg (by rw [hopen]; decide)]

end Sys2Proof.Machine
end

section
/-! SUPPORT. The detector lanes: sync, passes, decoding, staging and the DET packets (05_detection_sector_format.md). -/

namespace Sys2Proof.Machine
open Sys2Proof
set_option Elab.async false

theorem State.modLane_same (s : State) (l : LaneIx) (f : Lane → Lane) : (s.modLane l f).lane[l] = f s.lane[l] := vmod_same ..

theorem State.modLane_other (s : State) (f : Lane → Lane) {l m : LaneIx} (h : l ≠ m) : (s.modLane l f).lane[m] = s.lane[m] := vmod_other _ _ h

theorem State.modSlot_same (s : State) (l : LaneIx) (k : SlotIx) (f : Slot → Slot) : (s.modSlot l k f).lane[l].slots[k] = f s.lane[l].slots[k] := by
  rw [State.modSlot, State.modLane_same]
  exact vmod_same ..

theorem State.modSlot_others (s : State) (l : LaneIx) (f : Slot → Slot) {k j : SlotIx} (h : k ≠ j) :
    (s.modSlot l k f).lane[l].slots[j] = s.lane[l].slots[j] := by
  rw [State.modSlot, State.modLane_same]
  exact vmod_other _ _ h

/-! ### The codeword that streams (R178) -/

section
variable {x : Lane} {k : SlotIx} (h : x.streaming = some k)
include h

theorem Lane.current_of_streaming : x.current = some x.slots[k] := by
  unfold Lane.current
  rw [h]

theorem Lane.modCurrent_of_streaming (f : Slot → Slot) : x.modCurrent f = { x with slots := vmod x.slots k f } := by
  unfold Lane.modCurrent
  rw [h]

end

theorem Slot.synced_of_due {c : Slot} (h : c.syncDue = true) : c.synced = false := by
  simp only [Slot.syncDue, Bool.and_eq_true, Bool.not_eq_true'] at h
  exact h.1

/-- A sync mark found near enough. -/
theorem State.decideSync_near {s : State} {l : LaneIx} {k : SlotIx} (hk : s.lane[l].streaming = some k) (hdue : s.lane[l].slots[k].synced = false)
    {b : Int × Nat} (hb : bestCandidate (syncDistance s.lane[l].slots[k]) = b) (hnear : b.2 ≤ 6) :
    s.decideSync l = s.modSlot l k fun c => { c with synced := true, syncQ := b.1, syncDist := b.2, fly := false } := by
  unfold State.decideSync
  rw [Lane.current_of_streaming hk]
  dsimp only
  rw [if_neg (by rw [hdue]; decide), hb]
  refine (if_pos hnear).trans ?_
  unfold State.modSlot State.modLane
  refine congrArg (fun v => ({ s with lane := v } : State)) (vmod_congr _ _ ?_)
  exact Lane.modCurrent_of_streaming hk _

/-- A sync mark not found near enough. -/
theorem State.decideSync_fly {s : State} {l : LaneIx} {k : SlotIx} (hk : s.lane[l].streaming = some k) (hdue : s.lane[l].slots[k].synced = false)
    {b : Int × Nat} (hb : bestCandidate (syncDistance s.lane[l].slots[k]) = b) (hfar : 6 < b.2) : ∃ d r x1 x2 x3, s.decideSync l = (s.modLane l fun x => { x with
      slots := vmod x.slots k fun c => { c with synced := true, syncQ := 0, syncDist := d, fly := true }
      flysyncCnt := inc 32 x.flysyncCnt }).saturated r 0x05 3 x1 x2 x3 := by
  unfold State.decideSync
  rw [Lane.current_of_streaming hk]
  dsimp only
  rw [if_neg (by rw [hdue]; decide), hb]
  have hfar' : ¬b.2 ≤ 6 := Nat.not_le.mpr hfar
  have hlane : (s.modLane l fun x => { x.modCurrent fun c => { c with synced := true, syncQ := 0, syncDist := b.2, fly := true } with
        flysyncCnt := inc 32 s.lane[l].flysyncCnt }) = s.modLane l fun x => { x with
      slots := vmod x.slots k fun c => { c with synced := true, syncQ := 0, syncDist := b.2, fly := true }
      flysyncCnt := inc 32 x.flysyncCnt } := by
    unfold State.modLane
    refine congrArg (fun v => ({ s with lane := v } : State)) (vmod_congr _ _ ?_)
    rw [Lane.modCurrent_of_streaming hk]
  exact ⟨_, _, _, _, _, (if_neg hfar').trans (congrArg (fun u : State => u.saturated _ _ _ _ _ _) hlane)⟩

theorem State.saturated_lanes (s : State) (reached : Bool) (subsys level index reg : Nat) (value : Word) :
    (s.saturated reached subsys level index reg value).lane = s.lane := (s.saturated_moves ..).lane_eq rfl

/-- A lane changed, and an event. -/
theorem Moves.afterEvent_lane {s t : State} (h : Moves [.lane, .trc, .evr] s t) : t = ({ s with lane := t.lane } : State).afterEvent t :=
  h.eq_of_parts rfl fun x => by cases x <;> first | rfl | exact fun _ => rfl

/-! ### Iterations (R171, R174) -/

theorem Slot.layersTo_shape (c : Slot) (n : Nat) : ∃ post msgs layer, c.layersTo n = { c with post := post, msgs := msgs, layer := layer } := by
  unfold Slot.layersTo
  split
  · exact ⟨c.post, c.msgs, c.layer, rfl⟩
  · exact ⟨_, _, _, rfl⟩

theorem State.decodingOf_slot {s : State} {e : DecIx} {l : LaneIx} {k : SlotIx} (h : s.decoding e = some (.inl (l, k))) :
    s.decodingOf e (.slot k) = some (.inl (l, k)) := by
  rw [State.decodingOf, h, Option.filter_some, if_pos (beq_self_eq_true _)]

/-- An iteration that leaves no row unsatisfied goes on to the check. -/
theorem State.slotIteration_checks (s : State) (e : DecIx) (l : LaneIx) (k : SlotIx) {c : Slot} (h : c.unsat = 0) :
    ∃ u1 layerFrom, s.slotIteration e l k c = (s.modSlot l k fun _ => { c with
      loc := c.loc + 1, u1 := u1, uEnd := 0, layer := 0, layerFrom := layerFrom, checking := true }).showGlob e c.glob := by
  unfold State.slotIteration iterationEnd
  rw [h]
  exact ⟨_, _, rfl⟩

/-! ### Entries of a band -/

/-- A packet that changes the entry of a band. -/
theorem completes_putBand {o : OpInfo} {p : Packet} {s : State} {body : State → PktRes} {P : State → Prop} {m : List Part} {g : Head} {b : Fin 64}
    {f : BandEntry → BandEntry} {c : Nat} {words : List Word} (h : ready o p s = true)
    (hbody : body (s.startPacket o p) = { state := (s.startPacket o p).putBand g b f, clamp := c, result := words })
    (hmoves : Moves m (s.startPacket o p) (body (s.startPacket o p)).state) (hhet : m.contains .het = false) (hout : m.contains .out = false)
    (hP : ∀ t, Answered s t o.code p words → t.bandEntry g b = f (s.bandEntry g b) →
      t = ({ s with head := t.head, nor := t.nor } : State).afterReply t → P t) : Completes (.next (runPacket o p s body)) P := by
  refine completes_result h hbody hmoves hhet hout rfl rfl fun t hshape hans => hP t hans ?_ ?_
  · obtain ⟨_, _, _, _, _, rfl⟩ := hshape
    exact State.putBand_bandEntry ..
  · obtain ⟨hd, nor, hput⟩ := (s.startPacket o p).putBand_shape g b f
    rw [hput] at hshape
    obtain ⟨_, _, _, _, _, rfl⟩ := hshape
    rfl

/-! ### The obligation -/

/-- Settles O26. -/
theorem laneCommands : Obligations.LaneCommands := by
  refine ⟨fun s g l k hg hk hdue hnear => ?_, fun s g l k hg hk hdue hfar => ?_, fun s l k hstate hended => ?_, fun s l k hdue => ?_,
    fun s e l k hdec hstate hpassed hchecking hreclaim hunsat => ?_, fun s e l k hdec hstate hchecking hreclaim => ?_,
    fun s l k x hstate hout hroom hjob hvoid hdiscard hctx => ?_, fun s p h hdepop => ?_, fun s p h hdepop => ?_, fun s p h hdepop => ?_,
    fun s p h => ?_, fun s p l h hl => ?_⟩
  · -- SYNC_DECISION
    refine ⟨_, congrArg Host.Outcome.next ((if_pos ⟨hg, hk, hdue⟩).trans (State.decideSync_near hk (Slot.synced_of_due hdue) rfl hnear)), ?_, fun j hj => ?_, rfl⟩
    · exact s.modSlot_same ..
    · exact s.modSlot_others l _ hj
  · -- SYNC_DECISION on the fly
    obtain ⟨d, r, x1, x2, x3, hfly⟩ := State.decideSync_fly hk (Slot.synced_of_due hdue) rfl hfar
    refine ⟨_, congrArg Host.Outcome.next ((if_pos ⟨hg, hk, hdue⟩).trans hfly), ?_, ?_, ?_, ?_, ?_⟩
    · rw [State.saturated_lanes, State.modLane_same, vmod_same]
    · rw [State.saturated_lanes, State.modLane_same, vmod_same]
    · rw [State.saturated_lanes, State.modLane_same, vmod_same]
    · rw [State.saturated_lanes, State.modLane_same]
    · exact ((State.saturated_moves ..).after (by decide) ((s.modLane_moves l _).widen (by decide))).afterEvent_lane
  · -- FIRST_PASS_DONE
    exact ⟨_, congrArg Host.Outcome.next (if_pos ⟨hstate, hended⟩), rfl⟩
  · -- ITERATION_DETECTOR_PASS_DONE
    have hself := s.modSlot_same l k fun c => c.nextExchange s.mtime
    refine ⟨_, congrArg Host.Outcome.next (if_pos hdue), hself, ?_, ?_, ?_, fun j hj => s.modSlot_others l _ hj, rfl⟩
    · rw [hself]
      rfl
    · rw [hself]
      rfl
    · rw [hself]
      rfl
  · -- LOCAL_ITERATION_END
    obtain ⟨u1, layerFrom, hiter⟩ := s.slotIteration_checks e l k hunsat
    obtain ⟨post, msgs, layer, hlayers⟩ := s.lane[l].slots[k].layersTo_shape 41
    have hbody : execLocalIterationEnd e (.slot k) s = .next (s.slotIteration e l k (s.lane[l].slots[k].layersTo 41)) := by
      unfold execLocalIterationEnd
      rw [State.decodingOf_slot hdec]
      dsimp only
      rw [if_pos ⟨hstate, hpassed, by rw [hchecking]; rfl⟩, if_neg (by rw [hreclaim]; decide)]
    have hself := s.modSlot_same l k fun _ => { s.lane[l].slots[k].layersTo 41 with
      loc := (s.lane[l].slots[k].layersTo 41).loc + 1, u1 := u1, uEnd := 0, layer := 0, layerFrom := layerFrom, checking := true }
    refine ⟨_, hbody.trans (congrArg Host.Outcome.next hiter), ?_, ?_, ?_, rfl⟩
    · exact congrArg Slot.checking hself
    · exact congrArg Slot.uEnd hself
    · refine (congrArg Slot.loc hself).trans ?_
      rw [hlayers]
  · -- CODEWORD_CHECK_DONE
    refine ⟨_, ?_, rfl⟩
    show execCodewordCheckDone e (.slot k) s = _
    unfold execCodewordCheckDone
    rw [State.decodingOf_slot hdec]
    dsimp only
    rw [if_pos ⟨hstate, hchecking⟩, hreclaim]
  · -- STAGING_ACCEPT
    refine ⟨_, congrArg Host.Outcome.next (if_pos ⟨hstate, hout, .inl hroom⟩), ?_⟩
    dsimp only
    rw [hvoid, if_neg Bool.false_ne_true, hjob]
    dsimp only
    rw [hdiscard, if_neg Bool.false_ne_true, hctx]
  · -- DET_CONFIG
    refine completes_putBand h (if_neg (Bool.eq_false_iff.mp hdepop)) (opDetConfig_moves ..) rfl rfl fun t hans hband hwhole => ⟨⟨hans, ?_⟩, hwhole⟩
    rw [hband]
    rfl
  · -- DET_TAPS
    exact completes_putBand h (if_neg (Bool.eq_false_iff.mp hdepop)) (opDetTaps_moves ..) rfl rfl fun t hans _ hwhole => ⟨hans, hwhole⟩
  · -- DET_NP
    refine completes_putBand h (if_neg (Bool.eq_false_iff.mp hdepop)) (opDetNp_moves ..) rfl rfl fun t hans hband hwhole => ⟨hans, fun i => ?_, hwhole⟩
    rw [hband]
    dsimp only
    rw [Fin.getElem_fin, Vector.getElem_ofFn]
    generalize fld (clampWord [fAny 13 8, fIn 4 0 0 26] 0 (p.w 0)) 4 0 = e0
    refine ite_congr rfl (fun hin => ?_) fun _ => rfl
    have hlt : 2 * (i.val - e0) + 0 < 12 := by omega
    rw [List.getD_eq_getElem _ _ (by rw [List.length_map, List.length_range]; exact hlt), List.getElem_map, List.getElem_range]
  · -- DET_STATUS
    exact completes_packet h rfl rfl rfl fun t hshape hreplied => ⟨hreplied, ((s.startPacket_shape _ p).trans hshape).afterReply⟩
  · -- DET_CLEAR
    refine completes_op h (opDetClear_moves ..) rfl rfl rfl rfl fun t hshape _ => ?_
    have hstate : (opDetClear p (s.startPacket ⟨0x0154, [3], .action⟩ p)).state =
        (s.startPacket ⟨0x0154, [3], .action⟩ p).modLane l fun x => x.clear (fld (p.w 0) 11 0) := by
      unfold opDetClear
      rw [show (s.startPacket ⟨0x0154, [3], .action⟩ p).laneOf p.hd = some l from hl]
    rw [hstate] at hshape
    obtain ⟨_, _, _, _, _, rfl⟩ := hshape
    exact ⟨State.modLane_same .., fun j hj => State.modLane_other _ _ hj, rfl⟩

end Sys2Proof.Machine
end

section
/-! SUPPORT. Zone Management Receive (13_host_link_nvme.md): the command counts the zones as its own entry asks for, and where the list of
contexts names one context twice, the second entry holds the same count, whatever it asks for. -/

namespace Sys2Proof.Machine
open Sys2Proof
set_option Elab.async false

/-- A zoned namespace of one zone, attached to function 0. -/
def oneZoneNamespace : Namespace :=
  { convNamespace with zoned := true, size := zoneSize, zones := [5] }

/-- The context of a report of no descriptors, partial or not. -/
def reportCtx (isPartial : Bool) : Ctx :=
  { fn := 0, sq := 1, sqe := { emptyWrite 0 with opcode := 0x7A, partialReport := isPartial } }

/-- That namespace, and two entries of context 0, the first of which asks for a partial report. -/
def twiceReportingState : State :=
  { State.reset with
    host := { State.reset.host with namespaces := [oneZoneNamespace] }
    q := { State.reset.q with ctxs := [(0, reportCtx true), (0, reportCtx false)] } }

/-- Both entries hold the count of a partial report after the command. -/
theorem twiceReportingState_reported : execReportZones 0 twiceReportingState =
    .next (twiceReportingState.modCtx 0 fun c => { c.finish stOk with result := List.replicate 16 0 }) := by
  have hns : twiceReportingState.nsOf (reportCtx true).fn (reportCtx true).sqe.nsid.toNat = some oneZoneNamespace := by decide +kernel
  have hst : twiceReportingState.nsStatus (reportCtx true) = none := by decide +kernel
  have hctx : twiceReportingState.ctx 0 = some (reportCtx true) := rfl
  have hpend : twiceReportingState.rst.rdfwdPend = [] := by decide +kernel
  rw [execReportZones, hctx]
  dsimp only
  rw [hns, hst, hpend, if_neg (by decide)]
  dsimp only
  rw [if_neg (by decide), if_neg (by decide), if_neg (by simp)] <;> rfl

/-- Refutes O44: REPORT_ZONES, where the list of contexts names its context twice, the second time without a partial report. -/
theorem not_zoneCommands : ¬ Obligations.ZoneCommands := by
  rintro ⟨-, -, -, -, -, -, -, -, -, -, hreport⟩
  obtain ⟨t, ht, -, hnext⟩ := hreport twiceReportingState 0 (reportCtx true) oneZoneNamespace rfl rfl rfl rfl (by decide +kernel)
    (by decide +kernel) rfl (by decide) (by decide +kernel)
  have hrun : t = _ := (Host.Outcome.next.inj (twiceReportingState_reported.symm.trans ht)).symm
  have hcount := congrArg (fun u : State => u.q.ctxs.map fun p => p.2.result[0]?) (hrun.symm.trans hnext)
  exact absurd hcount (by decide +kernel)

end Sys2Proof.Machine
end

section
/-! SUPPORT. The scheduler and the service contracts (14_queues_ordering.md). -/

namespace Sys2Proof.Machine
open Sys2Proof
set_option Elab.async false

/-! ### Contracts changed -/

theorem State.modContract_mem {s : State} {n : Nat} {k : Contract} (f : Contract → Contract) (h : (n, k) ∈ s.q.contracts) :
    (n, f k) ∈ (s.modContract n f).q.contracts := List.mem_map.mpr ⟨(n, k), h, if_pos rfl⟩

theorem State.modContract_lookup (s : State) (n : Nat) (f : Contract → Contract) :
    alookup (s.modContract n f).q.contracts n = (alookup s.q.contracts n).map f := alookup_map ..

theorem State.modContract_lookup_other (s : State) {n m : Nat} (f : Contract → Contract) (h : n ≠ m) :
    alookup (s.modContract n f).q.contracts m = alookup s.q.contracts m := by
  show alookup (s.q.contracts.map fun p => if p.1 = n then (p.1, f p.2) else p) m = _
  induction s.q.contracts with
  | nil => rfl
  | cons p l ih =>
    have hkey : (if p.1 = n then (p.1, f p.2) else p).1 = p.1 := by split <;> rfl
    rw [List.map_cons]
    by_cases hp : p.1 = m
    · have hfix : (if p.1 = n then (p.1, f p.2) else p) = p := if_neg fun hn => h (hn.symm.trans hp)
      rw [hfix, alookup, alookup, List.find?_cons_of_pos (by simpa using hp), List.find?_cons_of_pos (by simpa using hp)]
    · rw [alookup, alookup, List.find?_cons_of_neg (by rw [hkey]; simpa using hp), List.find?_cons_of_neg (by simpa using hp)]
      exact ih

/-- A contract that yields: counted, and marked as yielding. -/
def Contract.yields (k : Contract) : Contract := { k with yieldCnt := inc 32 k.yieldCnt, yielding := true }

/-- The yield of a contract changes that contract, and an event follows. -/
theorem State.contractYields_after (s : State) (n : Nat) (k : Contract) (by_ : Option Nat) :
    Moves [.trc, .host, .evr, .out] (s.modContract n Contract.yields) (s.contractYields n k by_) := by
  unfold State.contractYields
  extract_lets reg s1 cause causeQ s2 s3
  exact (State.vendorEvent_moves ..).after (by decide) ((State.saturated_moves ..).after (by decide) ((State.record_moves ..).widen (by decide)))

/-- An event, the host link and the outputs. -/
theorem Moves.afterNotice {s t : State} (h : Moves [.trc, .host, .evr, .out] s t) :
    t = ({ s with host := t.host, out := t.out } : State).afterEvent t :=
  h.eq_of_parts rfl fun x => by cases x <;> first | rfl | exact fun _ => rfl

/-- Only contexts and contracts of the queues, and a notice. -/
theorem Moves.afterYield {s u t : State} (hu : u = { s with q := { s.q with ctxs := u.q.ctxs, contracts := u.q.contracts } })
    (h : Moves [.trc, .host, .evr, .out] u t) :
    t = ({ s with q := { s.q with ctxs := t.q.ctxs, contracts := t.q.contracts }, host := t.host, out := t.out } : State).afterEvent t := by
  rw [h.q_eq rfl]
  have := h.afterNotice
  rw [hu] at this
  exact this

theorem State.latencyOf_mem {s : State} {c : Ctx} {n : Nat} {k : Contract} (h : s.latencyOf c = some (n, k)) : (n, k) ∈ s.q.contracts :=
  List.mem_of_find?_eq_some h

/-! ### Deadlines and floors -/

section
variable {s : State} {x : CtxIx} {c : Ctx} {n : Nat} {k : Contract}

/-- A deadline missed, of a command that its class does not excuse and of one that it does. -/
theorem execLatencyDeadlineMiss_of (hc : s.ctx x = some c) (hk : s.latencyOf c = some (n, k)) (hmissed : c.missed = false)
    (hlate : s.deadlineOf c < s.mtime) : execLatencyDeadlineMiss x s = .next (
      if c.overRate then (s.modCtx x fun c => { c with missed := true }).modContract n fun k => { k with overCnt := satAdd 16 k.overCnt 1 }
      else if c.ladder then (s.modCtx x fun c => { c with missed := true }).modContract n fun k => { k with recCnt := satAdd 16 k.recCnt 1 }
      else if c.activation then (s.modCtx x fun c => { c with missed := true }).modContract n fun k => { k with actCnt := satAdd 16 k.actCnt 1 }
      else (s.modCtx x fun c => { c with missed := true }).contractYields n k c.deferredBy) := by
  rw [execLatencyDeadlineMiss, hc]
  dsimp only
  rw [hk, hmissed]
  exact congrArg Host.Outcome.next (if_neg (by simpa using hlate))

theorem State.missed_ctx (hc : s.ctx x = some c) : (s.modCtx x fun c => { c with missed := true }).ctx x = some { c with missed := true } := by
  rw [State.ctx_modCtx, hc] <;> rfl

end

theorem completes_latencyMiss (s : State) (x : CtxIx) (c : Ctx) (n : Nat) (k : Contract) (hc : s.ctx x = some c)
    (hk : s.latencyOf c = some (n, k)) (hmissed : c.missed = false) (hlate : s.deadlineOf c < s.mtime)
    (hfree : c.overRate = false ∧ c.ladder = false ∧ c.activation = false) : Completes (exec (.latencyDeadlineMiss x) s) fun t =>
      t.ctx x = some { c with missed := true } ∧ (n, { k with yieldCnt := inc 32 k.yieldCnt, yielding := true }) ∈ t.q.contracts ∧
      t = ({ s with q := { s.q with ctxs := t.q.ctxs, contracts := t.q.contracts }, host := t.host, out := t.out } : State).afterEvent t := by
  obtain ⟨hover, hladder, hact⟩ := hfree
  refine ⟨_, execLatencyDeadlineMiss_of hc hk hmissed hlate, ?_⟩
  rw [if_neg (by simp [hover]), if_neg (by simp [hladder]), if_neg (by simp [hact])]
  have hyield := (s.modCtx x fun c => { c with missed := true }).contractYields_after n k c.deferredBy
  have hq := hyield.q_eq rfl
  refine ⟨?_, ?_, hyield.afterYield rfl⟩
  · exact (congrArg (fun q : Queues => alookup q.ctxs x.val) hq).trans (State.missed_ctx hc)
  · rw [hq]
    exact State.modContract_mem (s := s.modCtx x fun c => { c with missed := true }) Contract.yields (State.latencyOf_mem hk)

theorem completes_latencyMiss_classed (s : State) (x : CtxIx) (c : Ctx) (n : Nat) (k : Contract) (hc : s.ctx x = some c)
    (hk : s.latencyOf c = some (n, k)) (hmissed : c.missed = false) (hlate : s.deadlineOf c < s.mtime)
    (hclass : c.overRate = true ∨ c.ladder = true ∨ c.activation = true) : Completes (exec (.latencyDeadlineMiss x) s) fun t =>
      t.ctx x = some { c with missed := true } ∧
      (n, if c.overRate then { k with overCnt := satAdd 16 k.overCnt 1 }
        else if c.ladder then { k with recCnt := satAdd 16 k.recCnt 1 }
        else { k with actCnt := satAdd 16 k.actCnt 1 }) ∈ t.q.contracts ∧
      t = { s with q := { s.q with ctxs := t.q.ctxs, contracts := t.q.contracts } } := by
  refine ⟨_, execLatencyDeadlineMiss_of hc hk hmissed hlate, ?_⟩
  have hmem : (n, k) ∈ (s.modCtx x fun c => { c with missed := true }).q.contracts := State.latencyOf_mem hk
  have hctx := State.missed_ctx hc
  by_cases hover : c.overRate = true
  · rw [if_pos hover, if_pos hover]
    exact ⟨hctx, State.modContract_mem _ hmem, rfl⟩
  · rw [if_neg hover, if_neg hover]
    by_cases hladder : c.ladder = true
    · rw [if_pos hladder, if_pos hladder]
      exact ⟨hctx, State.modContract_mem _ hmem, rfl⟩
    · rw [if_neg hladder, if_neg hladder, if_pos ((hclass.resolve_left hover).resolve_left hladder)]
      exact ⟨hctx, State.modContract_mem _ hmem, rfl⟩

/-- A floor contract at the end of its window. -/
def Contract.windowEnd (k : Contract) (now : MTime) (waits : Bool) (mb : Nat) : Contract :=
  { k with
    winAt := now, winBytes := 0, waiting := waits
    worst := if k.waiting then (if k.worst = 0 then mb else min k.worst mb) else k.worst }

/-- The end of a floor's window. -/
theorem execFloorWindowEnd_of {s : State} {n : ContractIx} {k : Contract} (hk : alookup s.q.contracts n.val = some k) (hfloor : k.floor = true)
    (hend : k.winAt + s.q.floorWin * 30000000 ≤ s.mtime) : execFloorWindowEnd n s = .next (
      let u := s.modContract n.val fun y => y.windowEnd s.mtime (s.q.ctxs.any fun p => k.covers p.2) (k.winBytes / (s.q.floorWin * 10000))
      if k.waiting && decide (k.winBytes < k.rate * s.q.floorWin * 10000) then u.contractYields n.val k k.deferredBy else u) := by
  have hlen : k.winAt + s.q.floorWin * 10 * msClocks ≤ s.mtime := by
    rw [Nat.mul_assoc]
    exact hend
  rw [execFloorWindowEnd, hk]
  dsimp only
  rw [if_pos (by rw [hfloor, decide_eq_true hlen] <;> rfl), show s.q.floorWin * 10 * 1000 = s.q.floorWin * 10000 by omega,
    show k.rate * s.q.floorWin * 10 * 1000 = k.rate * s.q.floorWin * 10000 by omega] <;> rfl

theorem completes_floorWindowEnd (s : State) (n : ContractIx) (k : Contract) (hk : alookup s.q.contracts n.val = some k) (hfloor : k.floor = true)
    (hend : k.winAt + s.q.floorWin * 30000000 ≤ s.mtime) (hmet : k.waiting = true → k.rate * s.q.floorWin * 10000 ≤ k.winBytes) :
    Completes (exec (.floorWindowEnd n) s) fun t =>
      alookup t.q.contracts n.val = some { k with
        winAt := s.mtime, winBytes := 0, waiting := s.q.ctxs.any fun p => k.covers p.2
        worst := if k.waiting then (if k.worst = 0 then k.winBytes / (s.q.floorWin * 10000) else min k.worst (k.winBytes / (s.q.floorWin * 10000))) else k.worst } ∧
      t = { s with q := { s.q with contracts := t.q.contracts } } := by
  have hmiss : ¬(k.waiting && decide (k.winBytes < k.rate * s.q.floorWin * 10000)) = true := by
    simp only [Bool.and_eq_true, decide_eq_true_eq, not_and, not_lt]
    exact hmet
  refine ⟨_, (execFloorWindowEnd_of hk hfloor hend).trans (congrArg Host.Outcome.next (if_neg hmiss)), ?_, rfl⟩
  rw [State.modContract_lookup, hk] <;> rfl

theorem completes_floorWindowEnd_miss (s : State) (n : ContractIx) (k : Contract) (hk : alookup s.q.contracts n.val = some k)
    (hfloor : k.floor = true) (hend : k.winAt + s.q.floorWin * 30000000 ≤ s.mtime) (hwaits : k.waiting = true)
    (hmiss : k.winBytes < k.rate * s.q.floorWin * 10000) :
    Completes (exec (.floorWindowEnd n) s) fun t =>
      alookup t.q.contracts n.val = some { k with
        winAt := s.mtime, winBytes := 0, waiting := s.q.ctxs.any fun p => k.covers p.2
        worst := if k.worst = 0 then k.winBytes / (s.q.floorWin * 10000) else min k.worst (k.winBytes / (s.q.floorWin * 10000))
        yieldCnt := inc 32 k.yieldCnt, yielding := true } ∧
      t = ({ s with q := { s.q with contracts := t.q.contracts }, host := t.host, out := t.out } : State).afterEvent t := by
  refine ⟨_, (execFloorWindowEnd_of hk hfloor hend).trans (congrArg Host.Outcome.next (if_pos (by simp [hwaits, hmiss]))), ?_⟩
  generalize hu : (s.modContract n.val fun y => y.windowEnd s.mtime (s.q.ctxs.any fun p => k.covers p.2) (k.winBytes / (s.q.floorWin * 10000))) = u
  have hyield := u.contractYields_after n.val k k.deferredBy
  have hlookup : alookup u.q.contracts n.val =
      some (k.windowEnd s.mtime (s.q.ctxs.any fun p => k.covers p.2) (k.winBytes / (s.q.floorWin * 10000))) := by
    rw [← hu, State.modContract_lookup, hk, Option.map_some]
  refine ⟨?_, ?_⟩
  · rw [hyield.q_eq rfl, State.modContract_lookup, hlookup, Option.map_some, Contract.yields, Contract.windowEnd, if_pos hwaits]
  · have hafter := hyield.afterNotice
    rw [hyield.q_eq rfl]
    subst hu
    exact hafter

/-! ### A decision of the scheduler -/

/-- What the scheduler says it chose, and how many aged items it served. -/
def State.choices (s : State) : Vector (List (Nat × Nat)) 4 × Nat := (s.q.chosen, s.q.agedCnt)

theorem Moves.choices {m : List Part} {s t : State} (h : Moves m s t) (hm : m.contains .q = false) : Kept State.choices s t := by
  rw [Kept, State.choices, h.q_eq hm] <;> rfl

theorem State.closeGroup_choices (s : State) (a : Eng) : Kept State.choices s (s.closeGroup a) := by
  unfold State.closeGroup
  split
  · exact .refl
  · extract_lets d u
    exact Kept.trans (t := u.ownWrite _ d.wp _) rfl ((State.setZone_moves ..).choices rfl)

theorem State.appendBlock_choices (s : State) (a : Eng) (lba no : Nat) (copy : Option (ZoneNo × Nat)) {r : State × ZoneNo × Nat}
    (h : s.appendBlock a lba no copy = some r) : Kept State.choices s r.1 := by
  unfold State.appendBlock at h
  extract_lets s1 target at h
  have h1 : Kept State.choices s s1 := by
    show Kept State.choices s (match s.openGroup a with
      | some g => _
      | none => _)
    split
    · exact .ite .refl (s.closeGroup_choices a)
    · exact .refl
  clear_value target s1
  split at h
  · nomatch h
  next z =>
    extract_lets ofs s2 at h
    have h2 : Kept State.choices s1 s2 := by
      show Kept State.choices s1 (match s1.openGroup a with
        | some _ => _
        | none => _)
      split <;> rfl
    clear_value s2
    split at h
    · nomatch h
    next g _ =>
      extract_lets s3 s4 at h
      have h3 : Kept State.choices s2 s3 := rfl
      have h4 : Kept State.choices s3 s4 := (State.setZone_moves ..).choices rfl
      cases h
      exact h1.trans (h2.trans (h3.trans (h4.trans (.ite (s4.closeGroup_choices a) .refl))))

theorem State.placeConv_choices (s : State) (a : Eng) : Kept State.choices s (s.placeConv a) := by
  unfold State.placeConv
  refine Kept.fold _ _ _ fun s p => ?_
  extract_lets c
  refine .ite (Kept.fold _ _ _ fun s k => .ite .refl ?_) .refl
  split
  next s' _ _ h => exact s.appendBlock_choices a _ _ _ h
  next => exact .refl

theorem State.placeBuffered_choices (s : State) (a : Eng) : Kept State.choices s (s.placeBuffered a) := by
  unfold State.placeBuffered
  refine Kept.fold _ _ _ fun s b => .ite (Kept.fold _ _ _ fun s k => .ite .refl ?_) .refl
  split
  next s' _ _ h => exact s.appendBlock_choices a _ _ _ h
  next => exact .refl

theorem State.deferCmd_choices (s : State) (x : CtxIx) (by_ : Nat) : Kept State.choices s (s.deferCmd x by_) := by
  unfold State.deferCmd
  split <;> rfl

theorem State.noteDeferral_choices (s : State) (l taken : List Item) : Kept State.choices s (s.noteDeferral l taken) := by
  unfold State.noteDeferral
  refine Kept.fold _ _ _ fun s i => ?_
  split
  · exact .refl
  · refine .ite .refl (.ite (s.deferCmd_choices ..) ?_)
    split
    · exact .ite (State.deferCmd_choices ..) .refl
    · exact .refl

/-- One more item taken: on a head without one, where its activation fits. -/
def takeItem (acc : State × List Item) (i : Item) : State × List Item :=
  if acc.2.any fun t => t.head == i.head then acc
  else if acc.1.activationFits i.head (i.at_.track * 256) then (acc.1.activate i.head (i.at_.track * 256), acc.2 ++ [i])
  else acc

theorem takeItem_choices (acc : State × List Item) (i : Item) : Kept State.choices acc.1 (takeItem acc i).1 := by
  unfold takeItem
  split
  · exact .refl
  · split
    · exact (State.activate_moves ..).choices rfl
    · exact .refl

theorem takeItem_nodup (acc : State × List Item) (i : Item) (h : (acc.2.map (·.head)).Nodup) : ((takeItem acc i).2.map (·.head)).Nodup := by
  unfold takeItem
  split
  · exact h
  next hfree =>
    split
    · have hnot : i.head ∉ acc.2.map (·.head) := by
        intro hmem
        obtain ⟨t, ht, hhead⟩ := List.mem_map.mp hmem
        exact hfree (List.any_eq_true.mpr ⟨t, ht, by rw [hhead]; exact beq_self_eq_true _⟩)
      rw [List.map_append, List.map_singleton]
      exact List.nodup_append.mpr ⟨h, List.nodup_singleton _, fun x hx y hy hxy => hnot (by rw [← List.mem_singleton.mp hy, ← hxy]; exact hx)⟩
    · exact h

theorem takeItems (l : List Item) (acc : State × List Item) (h : (acc.2.map (·.head)).Nodup) :
    ((l.foldl takeItem acc).2.map (·.head)).Nodup ∧ Kept State.choices acc.1 (l.foldl takeItem acc).1 := by
  induction l generalizing acc with
  | nil => exact ⟨h, .refl⟩
  | cons i l ih =>
    obtain ⟨hnodup, hkept⟩ := ih (takeItem acc i) (takeItem_nodup acc i h)
    exact ⟨hnodup, (takeItem_choices acc i).trans hkept⟩

/-- The state the items are chosen in. -/
def State.placed (s : State) (a : Eng) : State := (s.placeConv a).placeBuffered a

/-- The items chosen, and the state after their activations. -/
def State.taken (s : State) (a : Eng) : State × List Item := (((s.placed a).servedItems a).filter ((s.placed a).itemPermitted a)).foldl takeItem (s.placed a, [])

/-- A decision of the scheduler. -/
theorem execSchedulerDecision_of {s : State} {a : Eng} (hpresent : s.enginePresent a = true) (hworks : s.engineFailed a = false) :
    execSchedulerDecision a s = .next (((s.taken a).1.modQ fun q => { q with
      agedCnt := satAdd 32 q.agedCnt ((s.taken a).2.filter fun i => i.tier == 3).length
      chosen := vset q.chosen a ((s.taken a).2.map fun i => (((i.ctx.map fun x => x.val).getD 4096), i.head.val)) }).noteDeferral
        ((s.placed a).servedItems a) (s.taken a).2) := by
  rw [execSchedulerDecision, if_pos (by rw [hpresent, hworks]; decide)] <;> rfl

theorem completes_schedulerDecision (s : State) (a : Eng) (hpresent : s.enginePresent a = true) (hworks : s.engineFailed a = false) :
    Completes (exec (.schedulerDecision a) s) fun t =>
      ((t.q.chosen[a]).map (·.2)).Nodup ∧ (∀ b, a ≠ b → t.q.chosen[b] = s.q.chosen[b]) ∧
      (∀ b : Eng, t.eng[b].seq = s.eng[b].seq ∧ t.eng[b].reel = s.eng[b].reel) ∧ t.pwr = s.pwr ∧ t.wsl = s.wsl := by
  have hrun := execSchedulerDecision_of hpresent hworks
  refine ⟨_, hrun, ?_⟩
  have hmoves := execSchedulerDecision_moves a s hrun
  obtain ⟨hnodup, hkept⟩ := takeItems (((s.placed a).servedItems a).filter ((s.placed a).itemPermitted a)) (s.placed a, []) List.nodup_nil
  have hchoices : (s.taken a).1.q.chosen = s.q.chosen :=
    congrArg Prod.fst (((s.placeConv_choices a).trans ((s.placeConv a).placeBuffered_choices a)).trans hkept)
  have hdefer := congrArg Prod.fst (State.noteDeferral_choices ((s.taken a).1.modQ fun q => { q with
      agedCnt := satAdd 32 q.agedCnt ((s.taken a).2.filter fun i => i.tier == 3).length
      chosen := vset q.chosen a ((s.taken a).2.map fun i => (((i.ctx.map fun x => x.val).getD 4096), i.head.val)) })
        ((s.placed a).servedItems a) (s.taken a).2)
  generalize State.noteDeferral _ _ _ = t at hmoves hdefer ⊢
  have hchosen : t.q.chosen = vset s.q.chosen a ((s.taken a).2.map fun i => (((i.ctx.map fun x => x.val).getD 4096), i.head.val)) :=
    hdefer.trans (congrArg (vset · a _) hchoices)
  refine ⟨?_, fun b hb => ?_, fun b => ⟨hmoves.seq_eq rfl b, hmoves.reel_eq rfl b⟩, hmoves.pwr_eq rfl, hmoves.wsl_eq rfl⟩
  · rw [hchosen, vset_same, List.map_map]
    have hvals : ((s.taken a).2.map (·.head)).map Fin.val = (s.taken a).2.map ((·.2) ∘ fun i => (((i.ctx.map fun x => x.val).getD 4096), i.head.val)) :=
      List.map_map ..
    rw [← hvals]
    exact hnodup.map Fin.val_injective
  · rw [hchosen, vset_other _ _ hb]

/-- A target set stands in the head's servo. -/
theorem State.activate_head {s : State} {g : Head} {tgt : Nat} (h : s.activationFits g tgt = true) :
    (s.activate g tgt).head[g].srv.active = true ∧ (s.activate g tgt).head[g].srv.tgt = tgt := by
  rw [State.activate, if_pos h, (State.retarget_moves ..).headSrv_eq rfl g]
  have hsrv : (s.modHs g fun h => { h with tgt := tgt, active := true }).head[g].srv = { s.head[g].srv with tgt := tgt, active := true } :=
    congrArg HeadUnit.srv (vmod_same ..)
  rw [hsrv]
  exact ⟨rfl, rfl⟩

theorem State.noteDeferral_none {s : State} (l taken : List Item) (h : s.q.ctxs = []) : s.noteDeferral l taken = s := by
  have hctx : ∀ x, s.ctx x = none := fun x => by rw [State.ctx, h] <;> rfl
  unfold State.noteDeferral
  induction l with
  | nil => rfl
  | cons i l ih =>
    rw [List.foldl_cons]
    have hnone : (i.ctx.bind fun x => (s.ctx x).bind fun c => (s.contractOf c).map fun k => (x, k)) = none := by
      cases i.ctx with
      | none => rfl
      | some x => rw [Option.bind_some, hctx, Option.bind_none]
    rw [hnone]
    exact ih

theorem completes_schedulerDecision_one (s : State) (a : Eng) (i : Item) (hpresent : s.enginePresent a = true) (hworks : s.engineFailed a = false)
    (hctxs : s.q.ctxs = []) (hbuf : s.q.buffered = []) (hitems : s.itemsOf a = [i]) (hperm : s.itemPermitted a i = true)
    (hfits : s.activationFits i.head (i.at_.track * 256) = true) :
    Completes (exec (.schedulerDecision a) s) fun t =>
      t.q.chosen[a] = [((i.ctx.map fun x => x.val).getD 4096, i.head.val)] ∧ t.head[i.head].srv.active = true ∧
      t.head[i.head].srv.tgt = i.at_.track * 256 ∧ t.q.agedCnt = satAdd 32 s.q.agedCnt (if i.tier = 3 then 1 else 0) := by
  have hplaced : s.placed a = s := by
    rw [State.placed, State.placeConv, hctxs, List.foldl_nil, State.placeBuffered, hbuf, List.foldl_nil]
  have hserved : s.servedItems a = [i] := by
    rw [State.servedItems, hitems, List.mergeSort_singleton]
  have htaken : s.taken a = (s.activate i.head (i.at_.track * 256), [i]) := by
    rw [State.taken, hplaced, hserved, List.filter_cons_of_pos hperm, List.filter_nil, List.foldl_cons, List.foldl_nil, takeItem,
      if_neg (by simp), if_pos hfits] <;> rfl
  refine ⟨_, execSchedulerDecision_of hpresent hworks, ?_⟩
  have hq : (s.activate i.head (i.at_.track * 256)).q = s.q := (State.activate_moves ..).q_eq rfl
  rw [htaken, State.noteDeferral_none _ _ (by exact (congrArg Queues.ctxs hq).trans hctxs)]
  obtain ⟨hactive, htgt⟩ := State.activate_head hfits
  refine ⟨vset_same .., hactive, htgt, ?_⟩
  show satAdd 32 (s.activate i.head (i.at_.track * 256)).q.agedCnt ([i].filter fun i => i.tier == 3).length = _
  rw [hq]
  by_cases htier : i.tier = 3
  · rw [if_pos htier, List.filter_cons_of_pos (by rw [htier]; decide)] <;> rfl
  · rw [if_neg htier, List.filter_cons_of_neg (by simpa using htier)] <;> rfl

/-! ### The packets of the queues and of the contracts -/

/-- The contracts left once those that match have ended: the entries whose number is not that of one of these. -/
theorem State.endContracts_contracts (s : State) (sel : Contract → Bool) : (s.endContracts sel).q.contracts =
    s.q.contracts.filter fun c => !s.q.contracts.any fun d => sel d.2 && d.1 == c.1 := by
  have hfold : ∀ (l : List (Nat × Contract)) (u : State), (l.foldl (fun s p =>
      if sel p.2 then
        (s.condition 0x0E 7 p.2.fn.val (0x62000 + p.1 * 0x20) (rCtCtl p.2) (stQos s p.1)).modQ fun q =>
          { q with contracts := oerase q.contracts p.1 }
      else s) u).q.contracts = u.q.contracts.filter fun c => !l.any fun d => sel d.2 && d.1 == c.1 := by
    intro l
    induction l with
    | nil => exact fun u => (List.filter_eq_self.mpr fun _ _ => rfl).symm
    | cons p l ih =>
      intro u
      rw [List.foldl_cons, ih]
      by_cases hsel : sel p.2 = true
      · rw [if_pos hsel]
        have hq := (State.condition_moves u 0x0E 7 p.2.fn.val (0x62000 + p.1 * 0x20) (rCtCtl p.2) (stQos u p.1)).q_eq rfl
        rw [State.modQ_q, hq, oerase, List.filter_filter]
        refine List.filter_congr fun c _ => ?_
        rw [List.any_cons, hsel, Bool.true_and, Bool.not_or, Bool.and_comm]
        congr 1
        by_cases h : p.1 = c.1
        · simp [h]
        · simp [h, Ne.symm h]
      · rw [if_neg hsel]
        refine List.filter_congr fun c _ => ?_
        rw [List.any_cons, Bool.not_eq_true _ |>.mp hsel, Bool.false_and, Bool.false_or]
  exact hfold s.q.contracts s

/-- The first word of a queue configuration that is within its limits is stored as it is. -/
theorem queueWord_kept {w : Word} (h1 : fld w 31 24 ≤ fld w 23 12) (h2 : fld w 31 24 ≤ 254) (h3 : 64 ≤ fld w 23 12) (h4 : fld w 23 12 ≤ 4064)
    (h5 : fld w 11 0 = 0) : setFld (clampWord [fIn 31 24 0 254, fIn 23 12 64 4064] 0 w) 23 12
      (max (fld (clampWord [fIn 31 24 0 254, fIn 23 12 64 4064] 0 w) 23 12) (fld (clampWord [fIn 31 24 0 254, fIn 23 12 64 4064] 0 w) 31 24)) = w := by
  have hclamp : clampWord [fIn 31 24 0 254, fIn 23 12 64 4064] 0 w = w := by
    refine BitVec.eq_of_toNat_eq ?_
    have hw := w.isLt
    show (clampWord [fIn 31 24 ((0 : Nat) : Int) ((254 : Nat) : Int), fIn 23 12 ((64 : Nat) : Int) ((4064 : Nat) : Int)] 0 w).toNat = w.toNat
    rw [clampWord_pair_toNat (stored_in 31 24 0 254 0 w) (stored_in 23 12 64 4064 0 w), min_eq_left h2, Nat.zero_max, min_eq_left h4, max_eq_right h3]
    simp only [fIn, fld] at h5 ⊢
    omega
  rw [hclamp, max_eq_left h1]
  refine BitVec.eq_of_toNat_eq ?_
  have hw := w.isLt
  simp only [setFld, nw, bf, fld, BitVec.toNat_ofNat]
  omega

section
variable {u : State} {p : Packet} {f : Fn} {sq n : Nat}

/-- The latency contract that a packet asks for. -/
def latencyAsked (u : State) (p : Packet) (f : Fn) (sq : Nat) : Contract :=
  { floor := false, dir := 1, fn := f, sq := sq, latMs := (p.words[(2 : Fin 14)]).toNat, rate := (p.words[(3 : Fin 14)]).toNat, adm := u.rst.poh
    shares := u.queueShares f, winAt := u.mtime }

/-- The words of a packet that asks for a latency contract within its limits are kept as they are. -/
theorem latencyWords_kept (hp : p.idx = f.val ∧ p.words[(0 : Fin 14)] = 0x10 ∧ (p.words[(1 : Fin 14)]).toNat = sq ∧ sq < 65536)
    (hlim : u.lMin ≤ (p.words[(2 : Fin 14)]).toNat ∧ (p.words[(2 : Fin 14)]).toNat ≤ 10000 ∧ 1 ≤ (p.words[(3 : Fin 14)]).toNat ∧
      (p.words[(3 : Fin 14)]).toNat ≤ 4000) :
    p.fnOf = f ∧ clampWord [fAny 5 4, fAny 0 0] 0 (p.w 0) = 0x10 ∧ (clampWord [fAny 15 0] 0 (p.w 1)).toNat = sq ∧
      clampWord [fIn 31 0 u.lMin 10000] 0 (p.w 2) = p.words[(2 : Fin 14)] ∧ clampWord [fIn 31 0 1 4000] 0 (p.w 3) = p.words[(3 : Fin 14)] := by
  obtain ⟨hidx, hp0, hp1, hsq⟩ := hp
  obtain ⟨hlo, hhi, hrate, hmax⟩ := hlim
  refine ⟨?_, ?_, ?_, ?_, ?_⟩
  · rw [Packet.fnOf, hidx]
    exact Fin.ext (Nat.mod_eq_of_lt f.isLt)
  · rw [show p.w 0 = 0x10 from hp0]
    decide
  · rw [clampWord_one_toNat (stored_any 15 0 0 (p.w 1))]
    have hp1' : (p.w 1).toNat = sq := hp1
    simp only [fAny, fld]
    omega
  · show clampWord [fIn 31 0 (u.lMin : Int) ((10000 : Nat) : Int)] 0 p.words[(2 : Fin 14)] = _
    rw [clampWord_whole, min_eq_left hhi, max_eq_right hlo]
    simp [nw]
  · show clampWord [fIn 31 0 ((1 : Nat) : Int) ((4000 : Nat) : Int)] 0 p.words[(3 : Fin 14)] = _
    rw [clampWord_whole, min_eq_left hmax, max_eq_right hrate]
    simp [nw]

/-- The answer to a contract asked for, with the first number that is free, if any. -/
def admitAnswer (u : State) (p : Packet) (k : Contract) : Option Nat → PktRes
  | some n =>
    if u.admits k then
      let v := u.modQ fun q => { q with contracts := oset q.contracts n k }
      { state := v
        result := [nw n, rCtCtl k, rCtParam k, nw k.adm, nw v.linkBw, rEngBw v (topEngine k.shares)]
        clamp := clampBits [(0, p.w 0, 0x10), (1, p.w 1, clampWord [fAny 15 0] 0 (p.w 1)), (2, p.w 2, p.words[(2 : Fin 14)]),
          (3, p.w 3, p.words[(3 : Fin 14)])] }
    else .fail (u.modQ fun q => { q with ctRefuseCnt := satAdd 32 q.ctRefuseCnt 1 }) 0x0301
  | none => .fail (u.modQ fun q => { q with ctRefuseCnt := satAdd 32 q.ctRefuseCnt 1 }) 0x0301

theorem opQosAdmit_asked (hp : p.idx = f.val ∧ p.words[(0 : Fin 14)] = 0x10 ∧ (p.words[(1 : Fin 14)]).toNat = sq ∧ sq < 65536)
    (hsq : sq ≠ 0 ∧ u.host.fns[f].sqs.any (fun q => q.id == sq) = true)
    (hfree : u.q.contracts.any (fun c => c.2.fn == f && c.2.sq == sq && c.2.floor == false) = false)
    (hlim : u.lMin ≤ (p.words[(2 : Fin 14)]).toNat ∧ (p.words[(2 : Fin 14)]).toNat ≤ 10000 ∧ 1 ≤ (p.words[(3 : Fin 14)]).toNat ∧
      (p.words[(3 : Fin 14)]).toNat ≤ 4000) :
    opQosAdmit p u = admitAnswer u p (latencyAsked u p f sq) ((List.range 256).find? fun n => !u.q.contracts.any fun c => c.1 == n) := by
  obtain ⟨hf, h0, h1, h2, h3⟩ := latencyWords_kept hp hlim
  obtain ⟨hsq0, hqueue⟩ := hsq
  subst hf h1
  unfold opQosAdmit
  extract_lets f w0 floor w1 sq lat rate k
  have hw0 : w0 = 0x10 := h0
  have hfloor : floor = false := congrArg (·.getLsbD 0) h0
  have hlat : lat = p.words[(2 : Fin 14)] := (if_neg (by rw [hfloor]; decide)).trans h2
  have hrate : rate = p.words[(3 : Fin 14)] := (if_neg (by rw [hfloor]; decide)).trans h3
  have hk : k = latencyAsked u p f sq := by
    show Contract.mk floor (BitVec.ofNat 2 (fld w0 5 4)) f sq lat.toNat rate.toNat u.rst.poh (u.queueShares f) 0 0 0 0 0 0 0 0 u.mtime 0 true [] false none = _
    rw [hfloor, hlat, hrate, hw0] <;> rfl
  clear_value k lat rate floor w0
  subst hk hlat hrate hfloor hw0
  rw [if_neg (by rw [hqueue, hfree, decide_eq_false hsq0]; decide)]
  cases (List.range 256).find? fun n => !u.q.contracts.any fun c => c.1 == n <;> rfl

theorem latencyAsked_startPacket (s : State) (o : OpInfo) (p : Packet) (f : Fn) (sq : Nat) :
    latencyAsked (s.startPacket o p) p f sq = latencyAsked s p f sq := rfl

theorem State.startPacket_admits (s : State) (o : OpInfo) (p : Packet) (k : Contract) : (s.startPacket o p).admits k = s.admits k := rfl

theorem admitAnswer_refused {k : Contract} (h : u.admits k = false) (n : Option Nat) :
    admitAnswer u p k n = .fail (u.modQ fun q => { q with ctRefuseCnt := satAdd 32 q.ctRefuseCnt 1 }) 0x0301 := by
  cases n with
  | none => rfl
  | some n => exact if_neg (by rw [h]; decide)

end

theorem alookup_mem {β : Type} {l : List (Nat × β)} {k : Nat} {v : β} (h : alookup l k = some v) : (k, v) ∈ l := by
  obtain ⟨p, hp, hv⟩ := Option.map_eq_some_iff.mp h
  have hkey : p.1 = k := by simpa using List.find?_some hp
  rw [← hkey, ← hv]
  exact List.mem_of_find?_eq_some hp

/-- A contract's counters cleared. -/
def Contract.cleared (k : Contract) (c : Nat) : Contract :=
  { k with
    done := clr c 0 k.done, yieldCnt := clr c 1 k.yieldCnt, overCnt := clr c 2 k.overCnt, recCnt := clr c 3 k.recCnt
    actCnt := clr c 4 k.actCnt, exclCnt := clr c 5 k.exclCnt }

/-- The counters cleared: those of the queues and those of one contract. -/
theorem opQueueClear_state (p : Packet) (s : State) : (opQueueClear p s).state = (s.modQ fun q => { q with
    holdCnt := clr (fld (p.w 0) 3 0) 0 q.holdCnt, agedCnt := clr (fld (p.w 0) 3 0) 1 q.agedCnt
    creditWaitCnt := clr (fld (p.w 0) 3 0) 2 q.creditWaitCnt, ctRefuseCnt := clr (fld (p.w 0) 3 0) 3 q.ctRefuseCnt }).modContract
      (fld (p.w 2) 7 0) fun k => k.cleared (fld (p.w 1) 5 0) := rfl

/-- Settles O46: the scheduler takes at most one item a head; a deadline or a floor missed marks its contract, or its command's class
excuses it; the packets make, end, report and clear contracts. -/
theorem scheduling : Obligations.Scheduling := by
  unfold Obligations.Scheduling
  refine ⟨completes_schedulerDecision, completes_schedulerDecision_one, ?_, completes_latencyMiss, completes_latencyMiss_classed,
    completes_floorWindowEnd, completes_floorWindowEnd_miss, fun s p h => completes_report h rfl, ?_, fun s p h => completes_report h rfl,
    ?_, ?_, ?_, ?_, ?_⟩
  · -- CONTRACT_DUE
    intro s x c hc hlat hfin hdue
    have hrun : execContractDue x s = .next (s.modCtx x fun c => { c with due := true }) := by
      rw [execContractDue, hc]
      have hdue' : s.deadlineOf c ≤ s.mtime + s.q.latGuard * msClocks := hdue
      exact congrArg Host.Outcome.next (if_pos (by rw [hlat, hfin, decide_eq_true hdue'] <;> rfl))
    refine ⟨_, hrun, ?_, rfl⟩
    rw [State.ctx_modCtx, hc] <;> rfl
  · -- QUEUE_CONFIG
    intro s p w0 w1 w2 h hw0 hw1 hw2
    obtain ⟨hp0, h1, h2, h3, h4, h5⟩ := hw0
    have hbody : opQueueConfig p (s.startPacket ⟨0x01F1, [5], .config⟩ p) =
        { state := ((s.startPacket ⟨0x01F1, [5], .config⟩ p).modQ fun q => { q with
            ctxMin := fld w0 31 24, ctxMax := fld w0 23 12, ageMax := fld w1 31 24, latGuard := fld w1 23 16, wbHigh := fld w1 15 8
            floorWin := fld w1 7 0, admBwPct := fld w2 31 24, admIops := fld w2 23 12 }).modNor fun n =>
              { n with queue := vset (vset (vset n.queue 0 w0) 1 w1) 2 w2 }
          result := [w0, w1, w2], clamp := clampBits [(0, p.w 0, w0), (1, p.w 1, w1), (2, p.w 2, w2)] } := by
      have e0 : p.w 0 = w0 := hp0
      have e1 : clampWord [fIn 31 24 2 64, fIn 23 16 2 255, fIn 15 8 50 95, fIn 7 0 5 100] 0 (p.w 1) = w1 := hw1.symm
      have e2 : clampWord [fIn 31 24 10 90, fIn 23 12 20 400] 0 (p.w 2) = w2 := hw2.symm
      rw [opQueueConfig, e0, queueWord_kept h1 h2 h3 h4 h5, e1, e2]
    refine completes_result h hbody (opQueueConfig_moves ..) rfl rfl rfl rfl fun t hshape hans => ?_
    obtain ⟨_, _, _, _, _, rfl⟩ := hshape
    exact ⟨rfl, rfl, hans, rfl⟩
  · -- QOS_ADMIT
    intro s p f sq n h hp hsq hfree hn hlim hadm
    have hadm' : s.admits (latencyAsked s p f sq) = true := hadm
    have hbody := opQosAdmit_asked (u := s.startPacket ⟨0x01F3, [7], .action⟩ p) hp hsq hfree hlim
    rw [show ((List.range 256).find? fun n => !(s.startPacket ⟨0x01F3, [7], .action⟩ p).q.contracts.any fun c => c.1 == n) = some n from hn,
      latencyAsked_startPacket, admitAnswer, State.startPacket_admits, if_pos hadm'] at hbody
    refine completes_result h hbody (opQosAdmit_moves ..) rfl rfl rfl rfl fun t hshape hans => ?_
    obtain ⟨_, _, _, _, _, rfl⟩ := hshape
    exact ⟨alookup_oset _ n (latencyAsked s p f sq), fun m hm => alookup_oset_other _ _ _ _ (Ne.symm hm), rfl, rfl⟩
  · -- QOS_ADMIT (refused)
    intro s p f sq h hp hsq hfree hlim hadm
    have hadm' : s.admits (latencyAsked s p f sq) = false := hadm
    have hbody := (opQosAdmit_asked (u := s.startPacket ⟨0x01F3, [7], .action⟩ p) hp hsq hfree hlim)
    rw [latencyAsked_startPacket, admitAnswer_refused ((State.startPacket_admits ..).trans hadm')] at hbody
    refine completes_packet h (by rw [hbody] <;> rfl) (by rw [hbody] <;> rfl) (by rw [hbody] <;> rfl) fun t hshape hreplied => ?_
    rw [hbody] at hshape hreplied
    obtain ⟨_, _, _, _, _, rfl⟩ := hshape
    exact ⟨rfl, hreplied, rfl⟩
  · -- QOS_REVOKE
    intro s p n k h hn hk hfn
    have hbody : opQosRevoke p (s.startPacket ⟨0x01F4, [7], .action⟩ p) = {
        state := (s.startPacket ⟨0x01F4, [7], .action⟩ p).endContracts fun c => c == k, clamp := clampBits [(0, p.w 0, nw n)]
        result := [nw k.done, nw k.yieldCnt, rCtExc k, rCtMisc k, nw k.worst] } := by
      have hk' : alookup (s.startPacket ⟨0x01F4, [7], .action⟩ p).q.contracts n = some k := hk
      rw [opQosRevoke, hn, hk']
      exact if_neg (not_not_intro hfn)
    refine completes_result h hbody (opQosRevoke_moves ..) rfl rfl rfl rfl fun t hshape hans => ?_
    obtain ⟨hq, -, hwhole⟩ := (s.startPacket ⟨0x01F4, [7], .action⟩ p).endContracts_effect fun c => c == k
    have hcontracts := (s.startPacket ⟨0x01F4, [7], .action⟩ p).endContracts_contracts fun c => c == k
    dsimp only at hshape
    generalize (s.startPacket ⟨0x01F4, [7], .action⟩ p).endContracts (fun c => c == k) = u at hq hwhole hcontracts hshape
    obtain ⟨_, _, _, _, _, rfl⟩ := hshape
    have hmem := alookup_mem hk
    refine ⟨?_, fun c hc hother => ?_, hans, ?_⟩
    · refine (congrArg (alookup · n) hcontracts).trans ?_
      rw [alookup, Option.map_eq_none_iff, List.find?_eq_none]
      intro c hc
      obtain ⟨-, hnot⟩ := List.mem_filter.mp hc
      intro hkey
      rw [Bool.not_eq_true', List.any_eq_false] at hnot
      exact hnot (n, k) hmem (by simpa using (of_decide_eq_true hkey).symm)
    · refine hcontracts ▸ List.mem_filter.mpr ⟨hc, ?_⟩
      rw [Bool.not_eq_true', List.any_eq_false]
      intro d hd hsel
      obtain ⟨hdk, hkey⟩ := Bool.and_eq_true_iff.mp hsel
      exact hother d hd (eq_of_beq hdk) (eq_of_beq hkey)
    · rw [hwhole, hq]
      rfl
  · -- QOS_STATUS
    intro s p h hsrc
    have hbody : opQosStatus p (s.startPacket ⟨0x01F5, [5], .read⟩ p) = {
        state := s.startPacket ⟨0x01F5, [5], .read⟩ p, clamp := clampBits [(0, p.w 0, nw (fld (p.w 0) 7 0))], result := stQos s (fld (p.w 0) 7 0) } := by
      rw [opQosStatus]
      rcases hsrc with hsrc | hsrc | hsrc
      · rw [hsrc] <;> rfl
      · rw [hsrc] <;> rfl
      · rw [hsrc]
        cases hk : alookup (s.startPacket ⟨0x01F5, [5], .read⟩ p).q.contracts (fld (p.w 0) 7 0) <;> rfl
    exact completes_report h hbody
  · -- QUEUE_CLEAR
    intro s p n k h hn hk
    refine completes_op h (opQueueClear_moves ..) rfl rfl rfl rfl fun t hshape _ => ?_
    rw [opQueueClear_state] at hshape
    generalize hv : State.modQ _ _ = v at hshape
    have hlookup := v.modContract_lookup (fld (p.w 2) 7 0) fun k => k.cleared (fld (p.w 1) 5 0)
    have hother := fun m (hm : fld (p.w 2) 7 0 ≠ m) => v.modContract_lookup_other (fun k => k.cleared (fld (p.w 1) 5 0)) hm
    have hv' : alookup v.q.contracts (fld (p.w 2) 7 0) = some k := by
      rw [← hv, hn]
      exact hk
    rw [hv', Option.map_some] at hlookup
    obtain ⟨_, _, _, _, _, rfl⟩ := hshape
    subst hn hv
    exact ⟨rfl, rfl, rfl, rfl, hlookup, hother, rfl⟩

end Sys2Proof.Machine
end

section
/-! SUPPORT. The depopulation of a head (12_zones_media_map.md): a layout of the state may give an engine more heads than the twelve that an
engine has; the packet check takes such a head as present, and its failure finds no engine and changes nothing. -/

namespace Sys2Proof.Machine
open Sys2Proof
set_option Elab.async false

/-- A layout that gives all heads to the first engine, with the module's supply on. -/
def wideState : State :=
  { State.reset with
    layout := { engines := 4, heads := #v[24, 0, 0, 0] }
    rst := { State.reset.rst with rail12 := true } }

/-- Head 20 to be depopulated, with the confirmation word. -/
def depopulateWide : Packet :=
  { xid := 0, src := .smbus, tag := 1, flags := 0, level := 3, index := 20, words := Vector.replicate 14 0x4445504F }

theorem wideState_ready : ready ⟨0x01D9, [3], .action⟩ depopulateWide wideState = true := by decide +kernel

theorem wideState_localHead : wideState.localHead depopulateWide.hd = none := by decide +kernel

/-- The failure of a head that no engine has changes nothing. -/
theorem State.headFail_of_none {s : State} {g : Head} (h : s.localHead g = none) : s.headFail g = s := by
  rw [State.headFail, h]

/-- The rule of the packet leaves the state. -/
theorem wideState_unchanged (u : State) (h : u = wideState.startPacket ⟨0x01D9, [3], .action⟩ depopulateWide) :
    (opHeadDepopulate depopulateWide u).state = u ∧ (opHeadDepopulate depopulateWide u).wait = false := by
  have hlocal : u.localHead depopulateWide.hd = none := by
    rw [h]
    exact wideState_localHead
  rw [opHeadDepopulate]
  dsimp only
  split
  · exact ⟨rfl, rfl⟩
  · exact ⟨State.headFail_of_none hlocal, rfl⟩

/-- The packet completes with the head as it was. -/
theorem wideState_keeps_head : Completes (exec (.headDepopulate depopulateWide) wideState) fun t =>
    t.head[depopulateWide.hd].map.depop = false := by
  obtain ⟨hstate, hwait⟩ := wideState_unchanged _ rfl
  refine completes_packet wideState_ready hwait (by rw [hstate]) (by rw [hstate] <;> rfl) fun t hshape _ => ?_
  rw [hstate] at hshape
  obtain ⟨_, _, _, _, _, rfl⟩ := hshape
  show wideState.head[depopulateWide.hd].map.depop = false
  decide +kernel

/-- Refutes O41: HEAD_DEPOPULATE of head 20, where the layout gives the first engine all 24 heads. -/
theorem not_zonesAndCache : ¬ Obligations.ZonesAndCache := by
  rintro ⟨-, -, -, -, -, -, -, -, hdepop, -⟩
  obtain ⟨t, ht, hgone, -⟩ := hdepop wideState depopulateWide wideState_ready rfl (by decide +kernel)
  obtain ⟨t', ht', hkept⟩ := wideState_keeps_head
  obtain rfl : t = t' := Host.Outcome.next.inj (ht.symm.trans ht')
  rw [hkept] at hgone
  exact absurd hgone (by decide)

end Sys2Proof.Machine
end

section
/-! SUPPORT. Loading and unloading the actuators, and the reset and actuator packets (20_start_reset_powerloss.md). -/

namespace Sys2Proof.Machine
open Sys2Proof
set_option Elab.async false

/-! ### What an engine's servo keeps -/

/-- An engine's servo but for the target of its arm, which follows the targets of its heads. -/
def State.servoCore (s : State) (a : Eng) : Servo := { s.eng[a].srv with armTgt := 0 }

theorem Moves.servoCore {m : List Part} {s t : State} (h : Moves m s t) (hm : m.contains .engSrv = false) (a : Eng) :
    Kept (·.servoCore a) s t := by
  rw [Kept, State.servoCore, h.engSrv_eq hm] <;> rfl

theorem State.mode_of_servoCore {s t : State} {a : Eng} (h : Kept (·.servoCore a) s t) : t.eng[a].srv.mode = s.eng[a].srv.mode := by
  have hcore : t.servoCore a = s.servoCore a := h
  exact (congrArg Servo.mode hcore :)

theorem State.out_of_servoCore {s t : State} {a : Eng} (h : Kept (·.servoCore a) s t) : t.eng[a].srv.out = s.eng[a].srv.out := by
  have hcore : t.servoCore a = s.servoCore a := h
  exact (congrArg Servo.out hcore :)

theorem State.modSrv_same (s : State) (a : Eng) (f : Servo → Servo) : (s.modSrv a f).eng[a].srv = f s.eng[a].srv :=
  congrArg Engine.srv (vmod_same ..)

theorem State.modSrv_other (s : State) {a b : Eng} (f : Servo → Servo) (h : b ≠ a) : (s.modSrv b f).eng[a] = s.eng[a] := vmod_other _ _ h

theorem State.retarget_servoCore (s : State) (a b : Eng) : Kept (·.servoCore a) s (s.retarget b) := by
  obtain ⟨x, hx⟩ := s.retarget_shape b
  rw [hx]
  by_cases hab : b = a
  · subst hab
    rw [Kept, State.servoCore, State.modSrv_same] <;> rfl
  · rw [Kept, State.servoCore, State.modSrv_other _ _ hab] <;> rfl

theorem State.forceWriteOff_servoCore (s : State) (a : Eng) (g : Head) (clear : Angle) (ends safe : Bool) :
    Kept (·.servoCore a) s (s.forceWriteOff g clear ends safe) := by
  unfold State.forceWriteOff
  extract_lets w sus s1 s2 s3 s4
  have h1 : Kept (·.servoCore a) s s1 := .ite ((State.strobeHead_moves ..).servoCore rfl a) .refl
  have h2 : Kept (·.servoCore a) s1 s2 :=
    .ite (.trans ((State.strobeHead_moves ..).servoCore rfl a) ((State.modWr_moves ..).servoCore rfl a)) .refl
  have h3 : Kept (·.servoCore a) s2 s3 := (State.modWr_moves ..).servoCore rfl a
  have h4 : Kept (·.servoCore a) s3 s4 := (State.suspect_moves ..).servoCore rfl a
  refine h1.trans (h2.trans (h3.trans (h4.trans (.ite ?_ .refl))))
  exact .trans ((State.modWr_moves ..).servoCore rfl a) (.trans ((State.runEnded_moves ..).servoCore rfl a)
    (.trans ((State.modHs_moves ..).servoCore rfl a) (State.retarget_servoCore ..)))

theorem State.forceWritesOff_servoCore (s : State) (a b : Eng) (gs : List Head) (ends safe : Bool) :
    Kept (·.servoCore a) s (s.forceWritesOff b gs ends safe) :=
  .fold _ _ _ fun s g => s.forceWriteOff_servoCore a g _ ends safe

theorem State.allGatesOff_servoCore (s : State) (a b : Eng) : Kept (·.servoCore a) s (s.allGatesOff b) :=
  .trans (s.forceWritesOff_servoCore a b _ true false) ((State.dropReads_moves ..).servoCore rfl a)

theorem State.enterIdle_servoCore (s : State) (a b : Eng) (st : TState) : Kept (·.servoCore a) s (s.enterIdle b st) := by
  unfold State.enterIdle
  extract_lets s1 s2 s3
  have h1 : Kept (·.servoCore a) s s1 := s.allGatesOff_servoCore a b
  have h2 : Kept (·.servoCore a) s1 s2 := (State.modReel_moves ..).servoCore rfl a
  have h3 : Kept (·.servoCore a) s2 s3 := (State.disarmWhere_moves ..).servoCore rfl a
  exact h1.trans (h2.trans (h3.trans (.trans ((State.servoGates_moves ..).servoCore rfl a) ((State.trapCause_moves ..).servoCore rfl a))))

theorem State.enterAcquire_servoCore (s : State) (a b : Eng) : Kept (·.servoCore a) s (s.enterAcquire b) := by
  unfold State.enterAcquire
  extract_lets s1 s2
  have h1 : Kept (·.servoCore a) s s1 := s.allGatesOff_servoCore a b
  have h2 : Kept (·.servoCore a) s1 s2 := (State.modReel_moves ..).servoCore rfl a
  exact h1.trans (h2.trans (.trans ((State.beginSearch_moves ..).servoCore rfl a) ((State.trapCause_moves ..).servoCore rfl a)))

/-! ### An arm at rest -/

/-- The retract bias of an engine's arm is off, and its coil carries no current. -/
structure State.AtRest (a : Eng) (s : State) : Prop where
  bias : s.rst.act[a].biasing = false
  out : s.eng[a].srv.out = 0

section
variable {a : Eng} {s t : State}

theorem State.AtRest.of_moves {m : List Part} (h : s.AtRest a) (hm : Moves m s t) (hrst : m.contains .rst = false)
    (hsrv : m.contains .engSrv = false) : t.AtRest a := ⟨hm.rst_eq hrst ▸ h.bias, hm.engSrv_eq hsrv a ▸ h.out⟩

theorem State.AtRest.of_kept {m : List Part} (h : s.AtRest a) (hm : Moves m s t) (hrst : m.contains .rst = false)
    (hsrv : Kept (·.servoCore a) s t) : t.AtRest a := ⟨hm.rst_eq hrst ▸ h.bias, (State.out_of_servoCore hsrv).trans h.out⟩

theorem State.AtRest.fold {β : Type} (f : State → β → State) (l : List β) (h : s.AtRest a) (hf : ∀ s x, s.AtRest a → (f s x).AtRest a) :
    (l.foldl f s).AtRest a := by
  induction l generalizing s with
  | nil => exact h
  | cons x l ih => exact ih (hf s x h)

theorem State.AtRest.ite (c : Prop) [Decidable c] (hs : s.AtRest a) (ht : t.AtRest a) : (if c then s else t).AtRest a := by
  split
  · exact hs
  · exact ht

theorem State.AtRest.modAct (h : s.AtRest a) (b : Eng) (f : Actuator → Actuator) (hf : ∀ x, x.biasing = false → (f x).biasing = false) :
    (s.modAct b f).AtRest a := by
  refine ⟨?_, h.out⟩
  by_cases hb : b = a
  · subst hb
    rw [State.modAct_same]
    exact hf _ h.bias
  · exact (congrArg Actuator.biasing (vmod_other s.rst.act f hb)).trans h.bias

theorem State.AtRest.modSrv (h : s.AtRest a) (b : Eng) (f : Servo → Servo) (hf : ∀ x, (f x).out = x.out) : (s.modSrv b f).AtRest a := by
  refine ⟨h.bias, ?_⟩
  by_cases hb : b = a
  · subst hb
    rw [State.modSrv_same, hf]
    exact h.out
  · rw [State.modSrv_other _ _ hb]
    exact h.out

theorem State.AtRest.beginPark (h : s.AtRest a) (b : Eng) (st : LoadState) : (s.beginPark b st).AtRest a := by
  unfold State.beginPark
  extract_lets s1 s2 s3 s4
  have h1 : s1.AtRest a := h.of_kept (State.forceWritesOff_moves ..) rfl (s.forceWritesOff_servoCore a b _ true true)
  have h2 : s2.AtRest a := h1.of_moves (State.strobe_moves ..) rfl rfl
  have h3 : s3.AtRest a := h2.modSrv b _ fun _ => rfl
  have h4 : s4.AtRest a := h3.fold _ _ fun s g hs => hs.of_moves (State.modHs_moves ..) rfl rfl
  exact h4.modAct b _ fun _ _ => rfl

theorem State.AtRest.pavane (h : s.AtRest a) (b : Eng) : (s.pavane b).AtRest a := by
  unfold State.pavane
  split
  · exact (h.beginPark b .pavane).modAct b _ fun _ hx => hx
  · split
    · exact h.modAct b _ fun _ hx => hx
    · exact h

theorem State.AtRest.controlledUnload (h : s.AtRest a) (b : Eng) : (s.controlledUnload b).AtRest a := by
  unfold State.controlledUnload
  split
  · have h1 : ((s.endRuns b).modAct b fun x => { x with parkDue := true, tries := 0 }).AtRest a :=
      (h.of_moves (State.endRuns_moves ..) rfl rfl).modAct b _ fun _ hx => hx
    unfold State.settlePark
    split
    · exact ((h1.of_moves (State.disarmWhere_moves ..) rfl rfl).of_moves (State.checkpoint_moves ..) rfl rfl).beginPark b _
    · exact h1
  · split
    · exact h.modAct b _ fun _ hx => hx
    · exact h

theorem State.AtRest.stopJobs (h : s.AtRest a) (b : Eng) : (s.stopJobs b).AtRest a :=
  h.of_moves (State.stopJobs_moves ..) rfl rfl

theorem State.AtRest.enterIdle (h : s.AtRest a) (b : Eng) (st : TState) : (s.enterIdle b st).AtRest a :=
  h.of_kept (State.enterIdle_moves ..) rfl (s.enterIdle_servoCore a b st)

theorem State.AtRest.enterStopped (h : s.AtRest a) : s.enterStopped.AtRest a := by
  unfold State.enterStopped State.reportStandstill
  refine State.AtRest.fold _ _ ((h.of_moves (State.modSpn_moves ..) rfl rfl).of_moves (State.disableSlot_moves ..) rfl rfl) fun s b hs => ?_
  split
  · exact ((hs.enterIdle b .stopped).stopJobs b).of_moves (State.modReel_moves ..) rfl rfl
  · exact hs

theorem State.AtRest.enterBrake (h : s.AtRest a) (after : AfterBrake) : (s.enterBrake after).AtRest a := by
  have hall : s.pavaneAll.AtRest a := h.fold _ _ fun s b hs => by
    split
    · exact hs.pavane b
    · exact hs
  exact hall.of_moves (State.modSpn_moves ..) rfl rfl

theorem State.AtRest.spindleStop (h : s.AtRest a) : s.spindleStop.AtRest a := by
  unfold State.spindleStop
  extract_lets s1 mark
  have h1 : s1.AtRest a := h.fold _ _ fun s b hs => by
    split
    · exact hs.controlledUnload b
    · exact hs
  have hmark : mark.AtRest a := h1.of_moves (State.modSpn_moves ..) rfl rfl
  split
  · exact h1
  · exact h1.enterStopped
  · exact hmark
  · exact hmark
  · exact h1.of_moves (State.modSpn_moves ..) rfl rfl
  · exact hmark
  all_goals exact hmark.enterBrake _

theorem State.AtRest.restartEngine (h : s.AtRest a) (b : Eng) : (s.restartEngine b).AtRest a := by
  unfold State.restartEngine
  extract_lets s1 s2 s3 s4 s5
  have h1 : s1.AtRest a := h.of_moves (State.modZdc_moves ..) rfl rfl
  have h2 : s2.AtRest a := h1.of_moves (State.zdcSettle_moves ..) rfl rfl
  have h3 : s3.AtRest a := h2.fold _ _ fun s j hs => by
    split
    · exact hs
    · split
      · exact hs
      · exact ((hs.of_moves (State.unbias_moves ..) rfl rfl).of_moves (State.releaseJob_moves ..) rfl rfl).of_moves (State.modJob_moves ..) rfl rfl
  clear_value s3
  have h4 : s4.AtRest a := (h3.of_moves (State.loadStore_moves ..) rfl rfl).of_moves (State.modSeq_moves ..) rfl rfl
  have hseq : ((((s4.headsOf b).foldl State.dropHead s4).startSeq b 4).patchApplied).AtRest a := by
    refine State.AtRest.of_moves ?_ (State.patchApplied_moves _) rfl rfl
    refine State.AtRest.of_moves ?_ (State.startSeq_moves ..) rfl rfl
    exact State.AtRest.fold _ _ h4 fun s g hs => hs.of_moves (State.dropHead_moves ..) rfl rfl
  have h5 : s5.AtRest a := by
    by_cases hoff : s3.eng[b].seq.state = .off ∨ s3.eng[b].seq.state = .failed
    · rw [show s5 = s3 from if_pos hoff]
      exact h3
    · rw [show s5 = (((s4.headsOf b).foldl State.dropHead s4).startSeq b 4).patchApplied from if_neg hoff]
      exact hseq
  clear_value s5
  split
  · refine State.AtRest.of_moves ?_ (State.replyWaiting_moves ..) rfl rfl
    exact h5.modAct b _ fun _ hx => hx
  · exact h5

end

/-! ### Loads and unloads -/

theorem State.modAct_other (s : State) {a b : Eng} (f : Actuator → Actuator) (h : b ≠ a) : (s.modAct b f).rst.act[a] = s.rst.act[a] :=
  vmod_other s.rst.act f h

theorem State.modReel_state (s : State) (a : Eng) (f : Reel → Reel) : (s.modReel a f).eng[a].reel = f s.eng[a].reel :=
  congrArg Engine.reel (vmod_same ..)

theorem State.modCmp_reelState (s : State) (a : Eng) (c : CmpIx) (f : Comparator → Comparator) :
    Kept (fun s => s.eng[a].reel.state) s (s.modCmp a c f) := by
  rw [Kept, State.modCmp, State.modReel_state]

/-- The timeline of an engine that acquires. -/
theorem State.enterAcquire_reel (s : State) (a : Eng) : (s.enterAcquire a).eng[a].reel.state = .acquire := by
  unfold State.enterAcquire State.beginSearch
  extract_lets s1 s2 s3 s4
  have h2 : s2.eng[a].reel.state = .acquire := by rw [State.modReel_state]
  have h3 : Kept (fun s => s.eng[a].reel.state) s2 s3 := by rw [Kept, State.modReel_state]
  have h4 : Kept (fun s => s.eng[a].reel.state) s3 s4 := (s3.modCmp_reelState ..).trans (State.modCmp_reelState ..)
  have h5 : Kept (fun s => s.eng[a].reel.state) s4 (s4.armFixed a 5 (s4.angle a) 0) := s4.modCmp_reelState ..
  have hend : Kept (fun s => s.eng[a].reel.state) (s4.armFixed a 5 (s4.angle a) 0)
      (((s4.armFixed a 5 (s4.angle a) 0).servoGates a true).trapCause a 2) :=
    .trans (congrArg Reel.state ((State.servoGates_moves ..).reel_eq rfl a)) (congrArg Reel.state ((State.trapCause_moves ..).reel_eq rfl a))
  exact Eq.trans (h3.trans (h4.trans (h5.trans hend))) h2

theorem completes_headLoad (s : State) (a : Eng) (hwants : s.wantsLoad a = true) (hgrant : s.pwr.eng[a].loadGnt = true) (hlate : s.pwr.late = none) :
    Completes (exec (.headLoad a) s) fun t =>
      t.rst.act[a].state = .loading ∧ t.rst.act[a].tries = s.rst.act[a].tries + 1 ∧ t.rst.act[a].loadReq = false ∧
      t.rst.act[a].loadEnd = s.mtime + s.rst.act[a].loadTmo * msClocks ∧ t.eng[a].srv.mode = .loading ∧ t.eng[a].reel.state = .acquire := by
  show Completes (execHeadLoad a s) _
  unfold execHeadLoad
  rw [if_pos (by rw [hwants, hgrant, hlate] <;> rfl)]
  extract_lets s1 heads wake s2 s3 s4 s5 s6
  refine ⟨_, rfl, ?_⟩
  have h4 : Moves [.slice, .pwr, .lpe, .engSrv, .headSrv] s s4 := by
    have hwake : ∀ s n, Moves [.slice, .pwr, .lpe, .engSrv, .headSrv] s (wake s n) := fun s n => (State.modSlice_moves ..).widen (by decide)
    have h1 : Moves [.slice, .pwr, .lpe, .engSrv, .headSrv] s s1 := ((State.modEpw_moves ..).after (by decide) (State.setClock_moves ..)).widen (by decide)
    have h2 : Moves [.slice, .pwr, .lpe, .engSrv, .headSrv] s1 s2 := .fold _ _ _ fun s g =>
      (State.modHpw_moves ..).after (by decide) ((hwake _ _).behind (hwake _ _))
    have h3 : Moves [.slice, .pwr, .lpe, .engSrv, .headSrv] s2 s3 := (State.enableSlot_moves ..).widen (by decide)
    refine .behind (.fold _ _ _ fun s g => ?_) (h3.behind (h2.behind h1))
    extract_lets u v
    have hu : Moves [.lpe, .engSrv, .headSrv] s u :=
      .behind (State.enableSlot_moves ..) (.behind (State.enableSlot_moves ..) (State.enableSlot_moves ..))
    exact (State.modLoop_moves u ..).after (by decide) (hu.widen (by decide))
  have hact : (s6.enterAcquire a).rst = s6.rst := (State.enterAcquire_moves s6 a).rst_eq rfl
  have hrst : s5.rst = s.rst := h4.rst_eq rfl
  have hmtime : s5.mtime = s.mtime := h4.mtime_eq rfl
  have h6 : s6.rst.act[a] = { s.rst.act[a] with
      state := .loading, tries := s.rst.act[a].tries + 1, loadingAt := s.mtime, loadEnd := s.mtime + s.rst.act[a].loadTmo * msClocks, loadReq := false } := by
    rw [State.modAct_same, hrst, hmtime]
  have h5 : s5.eng[a].srv.mode = .loading := congrArg Servo.mode (s4.modSrv_same a _)
  have heng : s6.eng = s5.eng := rfl
  clear_value s6 s5
  have hmode : (s6.enterAcquire a).eng[a].srv.mode = s6.eng[a].srv.mode :=
    State.mode_of_servoCore (s6.enterAcquire_servoCore a a)
  have hload := congrArg (fun r : ResetBlock => r.act[a]) hact |>.trans h6
  exact ⟨congrArg Actuator.state hload, congrArg Actuator.tries hload, congrArg Actuator.loadReq hload, congrArg Actuator.loadEnd hload,
    by rw [hmode, heng, h5], s6.enterAcquire_reel a⟩

/-! ### Timeouts, parking and the retract bias -/

theorem State.modAct_loadFailCnt (s : State) (a : Eng) (f : Actuator → Actuator) (h : ∀ x, (f x).loadFailCnt = x.loadFailCnt) :
    Kept (fun s => s.rst.act[a].loadFailCnt) s (s.modAct a f) := by
  rw [Kept, State.modAct_same, h]

theorem State.pavane_loadFailCnt (s : State) (a : Eng) : Kept (fun s => s.rst.act[a].loadFailCnt) s (s.pavane a) := by
  obtain ⟨m, hm⟩ := s.beginPark_act a .pavane
  have hpark : Kept (fun s => s.rst.act[a].loadFailCnt) s (s.beginPark a .pavane) := by rw [Kept, hm, vmod_same]
  exact .ite (hpark.trans (State.modAct_loadFailCnt _ a _ fun _ => rfl)) (.ite (s.modAct_loadFailCnt a _ fun _ => rfl) .refl)

/-- A view of the state that the pieces of an engine's failure keep: it shows nothing of a state but its reset block and its NOR region,
of an actuator at most its count of failed loads. -/
structure FailureView {α : Type} (a : Eng) (g : State → α) : Prop where
  moves : ∀ {m : List Part} {s t : State}, Moves m s t → m.contains .rst = false → m.contains .nor = false → Kept g s t
  pavane : ∀ s, Kept g s (s.pavane a)
  modAct : ∀ s f, (∀ x, (f x).loadFailCnt = x.loadFailCnt) → Kept g s (s.modAct a f)
  zoneRule : ∀ s, Kept g s (s.applyZoneRule a .engineFailed none)

theorem FailureView.engineFail {α : Type} {a : Eng} {g : State → α} (hg : FailureView a g) (s : State) : Kept g s (s.engineFail a) := by
  unfold State.engineFail
  refine .ite .refl ?_
  extract_lets s1 s2 s3 s4 s5 s6 s7 s8 s9 s10
  have h1 : Kept g s s1 := hg.pavane s
  have h2 : Kept g s1 s2 := hg.moves (State.modCore_moves ..) rfl rfl
  have h3 : Kept g s2 s3 := hg.moves (State.modSeq_moves ..) rfl rfl
  have h4 : Kept g s3 s4 := hg.modAct s3 _ fun x => by split <;> rfl
  have h5 : Kept g s4 s5 := hg.moves (State.closeJobs_moves ..) rfl rfl
  have h6 : Kept g s5 s6 := hg.zoneRule s5
  have h7 : Kept g s6 s7 := .trans (hg.moves (s6.condAct_moves a) rfl rfl) (hg.moves (State.resynch_moves ..) rfl rfl)
  have h8 : Kept g s7 s8 := hg.moves (State.replyWaiting_moves ..) rfl rfl
  have h9 : Kept g s8 s9 := hg.modAct s8 _ fun _ => rfl
  have h10 : Kept g s9 s10 := hg.moves (State.replyWaiting_moves ..) rfl rfl
  have hend : Kept g s10 ((s10.vendorEvent (s10.fnsOnEngine a) 0x03 4 a.val 0 0).patchApplied) :=
    .trans (hg.moves (s10.vendorEvent_moves ..) rfl rfl) (hg.moves (State.patchApplied_moves _) rfl rfl)
  exact h1.trans (h2.trans (h3.trans (h4.trans (h5.trans (h6.trans (h7.trans (h8.trans (h9.trans (h10.trans hend)))))))))

theorem State.engineFail_loadFailCnt (s : State) (a : Eng) : Kept (fun s => s.rst.act[a].loadFailCnt) s (s.engineFail a) :=
  FailureView.engineFail
    { moves := fun h hrst _ => h.keptRst hrst fun r => r.act[a].loadFailCnt
      pavane := fun s => s.pavane_loadFailCnt a
      modAct := fun s f hf => s.modAct_loadFailCnt a f hf
      zoneRule := fun s => (s.applyZoneRule_moves ..).keptRst rfl fun r => r.act[a].loadFailCnt } s

theorem State.engineFail_sansActs (s : State) (a : Eng) : Kept (fun s => s.rst.sansActs) s (s.engineFail a) :=
  FailureView.engineFail
    { moves := fun h hrst _ => h.keptRst hrst _
      pavane := fun s => s.pavane_sansActs a
      modAct := fun s f _ => s.modAct_sansActs a f
      zoneRule := fun s => (s.applyZoneRule_moves ..).keptRst rfl _ } s

theorem ZoneFree.unlOk : ZoneFree Nor.unlOk := ⟨fun _ _ => rfl, fun _ _ => rfl⟩

theorem State.engineFail_unlOk (s : State) (a : Eng) : Kept (fun s => s.nor.unlOk) s (s.engineFail a) :=
  FailureView.engineFail
    { moves := fun h _ hnor => h.keptNor hnor _
      pavane := fun s => (s.pavane_moves a).keptNor rfl _
      modAct := fun _ _ _ => rfl
      zoneRule := fun s => s.applyZoneRule_keptNor ZoneFree.unlOk a _ _ } s

theorem completes_loadTimeout (s : State) (a : Eng) (hstate : s.rst.act[a].state = .loading) (hmode : s.eng[a].srv.mode = .loading)
    (htries : s.rst.act[a].loadTries ≤ s.rst.act[a].tries) (hend : s.rst.act[a].loadEnd ≤ s.mtime) :
    Completes (exec (.loadTimeout a) s) fun t =>
      t.rst.act[a].loadFailCnt = inc 32 s.rst.act[a].loadFailCnt ∧ t.eng[a].core.failed = true := by
  show Completes (execLoadTimeout a s) _
  unfold execLoadTimeout
  extract_lets x n s1 s2
  rw [if_pos ⟨hstate, hmode, hend⟩, if_neg (by exact Nat.not_lt.mpr htries)]
  refine ⟨_, rfl, ?_, s2.engineFail_failed a⟩
  have h12 : Moves [.trc, .evr] s1 s2 := .behind (State.condAct_moves ..) (State.saturated_moves ..)
  have h2 : Kept (fun s => s.rst.act[a].loadFailCnt) s1 s2 := h12.keptRst rfl fun r => r.act[a].loadFailCnt
  have h1 : s1.rst.act[a].loadFailCnt = inc 32 s.rst.act[a].loadFailCnt := congrArg Actuator.loadFailCnt (State.modAct_same ..)
  exact Eq.trans (h2.trans (s2.engineFail_loadFailCnt a)) h1

theorem completes_parkDone (s : State) (a : Eng) (hstate : s.rst.act[a].state = .unloading) (hfail : s.engineFailed a = false) :
    Completes (exec (.parkDone a) s) fun t =>
      t.rst.act[a] = { s.rst.act[a] with state := .unloaded, biasing := true, biasEnd := s.mtime + 50 * msClocks } ∧
      t.eng[a].srv.mode = .unloaded ∧ (t.eng[a].srv.out = 655 ∨ t.eng[a].srv.out = -655) := by
  show Completes (execParkDone a s) _
  unfold execParkDone
  extract_lets x
  rw [if_pos (.inl hstate)]
  dsimp -zeta only [State.fresh]
  generalize (Config.freeValue s.free).toNat = v
  extract_lets s1 s2 ms s3
  refine ⟨_, rfl, ?_⟩
  have hrep := s3.replyWaiting_moves 0x0243 (fun p => p.idx == a.val) 0 (fun s _ => [rActStatus s.rst.act[a], rSrvStatus s a]) (fun _ => 0)
  have h1 : s1.eng[a].srv = { s.eng[a].srv with mode := .unloaded, out := if v % 2 = 0 then 655 else -655 } :=
    ({ s with free := s.free + 1 } : State).modSrv_same a _
  have hfail1 : s1.engineFailed a = false := by
    have hcore : s1.eng[a].core = s.eng[a].core := (State.modSrv_moves ..).core_eq rfl a
    unfold State.engineFailed at hfail ⊢
    rw [hcore]
    exact hfail
  have h2 : s2.rst.act[a] = { s.rst.act[a] with state := .unloaded, biasing := true, biasEnd := s.mtime + 50 * msClocks } := by
    rw [State.modAct_same, if_neg (by simp [hfail1])] <;> rfl
  have h23 : Moves [.nor] s2 s3 := .ite (State.modNor_moves _ _ fun _ => rfl) (.refl ..)
  have hact := (hrep.rst_eq rfl).trans (h23.rst_eq rfl)
  have hsrv : _ = s1.eng[a].srv := (hrep.engSrv_eq rfl a).trans (h23.engSrv_eq rfl a)
  refine ⟨(congrArg (fun r : ResetBlock => r.act[a]) hact).trans h2, congrArg Servo.mode (hsrv.trans h1), ?_⟩
  rw [hsrv, h1]
  by_cases hv : v % 2 = 0
  · exact .inl (if_pos hv)
  · exact .inr (if_neg hv)

theorem completes_retractBiasEnd (s : State) (a : Eng) (hbias : s.rst.act[a].biasing = true) (hend : s.rst.act[a].biasEnd ≤ s.mtime) :
    Completes (exec (.retractBiasEnd a) s) fun t => t.rst.act[a].biasing = false ∧ t.eng[a].srv.out = 0 := by
  show Completes (execRetractBiasEnd a s) _
  unfold execRetractBiasEnd
  rw [if_pos (by rw [hbias, decide_eq_true hend] <;> rfl)]
  extract_lets s1 s2 off s3 s4 s5 s6
  have h1 : s1.AtRest a := by
    refine ⟨?_, congrArg Servo.out (State.modSrv_same ..)⟩
    exact congrArg Actuator.biasing (s.modAct_same a _)
  have h2 : s2.AtRest a := h1.of_moves (State.disableEngineLoops_moves ..) rfl rfl
  have h3 : s3.AtRest a := h2.fold _ _ fun s g hs => by
    refine State.AtRest.of_moves ?_ (State.modHpw_moves ..) rfl rfl
    exact (hs.of_moves (State.modSlice_moves ..) rfl rfl).of_moves (State.modSlice_moves ..) rfl rfl
  have h4 : s4.AtRest a := h3.of_moves (State.setClock_moves ..) rfl rfl
  clear_value s4
  have h5 : s5.AtRest a := State.AtRest.ite _ h4 (h4.enterIdle a _)
  clear_value s5
  have h6 : s6.AtRest a := State.AtRest.ite _ (h5.restartEngine a) h5
  clear_value s6
  have hend := State.AtRest.ite (s6.spn.stopAfter ∧ s6.allParked)
    (h6.spindleStop.of_moves (s6.spindleStop.modSpn_moves fun p => { p with stopAfter := false }) rfl rfl) h6
  exact ⟨_, rfl, hend.bias, hend.out⟩

theorem completes_unloadTimeout (s : State) (a : Eng) (hstate : s.rst.act[a].state = .unloading)
    (hend : s.rst.act[a].unloadAt + 300 * msClocks ≤ s.mtime) :
    Completes (exec (.unloadTimeout a) s) fun t => t.nor.unlOk = false ∧ t.rst.plLast = setFld s.rst.plLast 30 30 0 := by
  show Completes (execUnloadTimeout a s) _
  unfold execUnloadTimeout
  rw [if_pos ⟨.inl hstate, hend⟩]
  extract_lets s1 s2
  refine ⟨_, rfl, ?_⟩
  have h2 : Moves [.trc, .evr] s1 s2 := s1.condAct_moves a
  have hnor : Kept (fun s => s.nor.unlOk) s1 (if s2.rst.rail12 then s2.engineFail a else s2) :=
    (h2.keptNor rfl _).trans (.ite (s2.engineFail_unlOk a) .refl)
  have hrst : Kept (fun s => s.rst.sansActs) s1 (if s2.rst.rail12 then s2.engineFail a else s2) :=
    (h2.keptRst rfl _).trans (.ite (s2.engineFail_sansActs a) .refl)
  exact ⟨hnor, congrArg ResetBlock.plLast hrst⟩

/-! ### The reset packets -/

theorem State.resetClear_of_mask (s : State) {p : Packet} (h : fld (p.w 1) 4 0 < 8) :
    s.resetClear p =
      { state := (s.modRst fun r => { r with
            plCnt := clr (fld (p.w 1) 4 0) 0 r.plCnt, jrnlFailCnt := clr (fld (p.w 1) 4 0) 1 r.jrnlFailCnt
            rdfwdCnt := clr (fld (p.w 1) 4 0) 2 r.rdfwdCnt }).modAct ((fin? 4 (p.w 2).toNat).getD 0) fun x =>
          { x with loadCnt := clr (fld (p.w 1) 4 0) 3 x.loadCnt, loadFailCnt := clr (fld (p.w 1) 4 0) 4 x.loadFailCnt }
        result := selected (fld (p.w 1) 4 0) [[nw s.rst.plCnt], [nw s.rst.jrnlFailCnt], [nw s.rst.rdfwdCnt],
          [nw s.rst.act[(fin? 4 (p.w 2).toNat).getD 0].loadCnt], [nw s.rst.act[(fin? 4 (p.w 2).toNat).getD 0].loadFailCnt]]
        clamp := clampBits [(1, p.w 1, nw (fld (p.w 1) 4 0))] } := if_neg (by omega)

theorem completes_resetClear (s : State) (p : Packet) (hready : ready ⟨0x0241, [5], .action⟩ p s = true) (hsel : p.w 0 = 0)
    (hmask : fld (p.w 1) 4 0 < 8) :
    Completes (exec (.resetClear p) s) fun t =>
      t.rst.plCnt = clr (fld (p.w 1) 4 0) 0 s.rst.plCnt ∧ t.rst.jrnlFailCnt = clr (fld (p.w 1) 4 0) 1 s.rst.jrnlFailCnt ∧
      t.rst.rdfwdCnt = clr (fld (p.w 1) 4 0) 2 s.rst.rdfwdCnt ∧ t = ({ s with rst := t.rst } : State).afterReply t := by
  have hbody (u : State) : opResetRequest p u = u.resetClear p := by
    unfold opResetRequest
    rw [hsel] <;> rfl
  have hclear (u : State) : Moves [.rst] u (u.resetClear p).state := by
    rw [u.resetClear_of_mask hmask]
    exact .behind (State.modAct_moves ..) (State.modRst_moves ..)
  have hcleared (u : State) := u.resetClear_of_mask hmask
  refine completes_result hready (hbody _) (by rw [hbody]; exact hclear _) rfl rfl ?_ ?_ fun t hshape _ => ?_
  · rw [hcleared]
  · rw [hcleared]
  · rw [hcleared] at hshape
    obtain ⟨_, _, _, _, _, rfl⟩ := hshape
    exact ⟨rfl, rfl, rfl, rfl⟩

theorem completes_resetModule (s : State) (p : Packet) (hready : ready ⟨0x0241, [5], .action⟩ p s = true) (hsel : p.w 0 = 1)
    (hkey : p.w 3 = 0x52455354) : Completes (exec (.resetModule p) s) fun t => t.rst.moduleReset = true := by
  have hbody (u : State) : opResetRequest p u = { state := u.beginModuleReset, wait := true } := by
    unfold opResetRequest
    rw [hsel]
    show u.resetModule p = _
    exact if_neg (not_not.mpr hkey)
  refine completes_wait hready (hbody _) rfl ?_
  have hset := State.settleReset_sansActs ((s.startPacket ⟨0x0241, [5], .action⟩ p).modRst fun r => { r with moduleReset := true })
  exact (congrArg ResetBlock.moduleReset hset :)

theorem State.settlePark_cases (s : State) (a : Eng) : s.settlePark a = s ∨ ∃ u : State, s.settlePark a = u.beginPark a .unloading := by
  by_cases h : (s.rst.act[a].parkDue && s.sectorMask a == 0) = true
  · exact .inr ⟨_, if_pos h⟩
  · exact .inl (if_neg h)

theorem State.settlePark_act (s : State) (a : Eng) :
    (s.settlePark a).rst.act[a].state = s.rst.act[a].state ∨ (s.settlePark a).rst.act[a].state = .unloading := by
  obtain h | ⟨u, h⟩ := s.settlePark_cases a
  · exact .inl (by rw [h])
  · obtain ⟨m, hm⟩ := u.beginPark_act a .unloading
    exact .inr (by rw [h, hm, vmod_same])

theorem State.controlledUnload_loaded {s : State} {a : Eng} (h : s.rst.act[a].state = .loaded) :
    (s.controlledUnload a).rst.act[a].state = .loaded ∨ (s.controlledUnload a).rst.act[a].state = .unloading := by
  unfold State.controlledUnload
  rw [if_pos (.inr h)]
  have hends : (s.endRuns a).rst.act[a].state = .loaded := (congrArg (fun r : ResetBlock => r.act[a].state) ((s.endRuns_moves a).rst_eq rfl)).trans h
  refine (State.settlePark_act _ a).imp_left fun hkept => hkept.trans ?_
  rw [State.modAct_same]
  exact hends

theorem completes_resetEngine (s : State) (p : Packet) (a : Eng) (hready : ready ⟨0x0241, [5], .action⟩ p s = true) (hsel : p.w 0 = 2)
    (hkey : p.w 3 = 0x52455354) (heng : fin? 4 (p.w 1).toNat = some a) (hpres : s.enginePresent a = true) (hfail : s.engineFailed a = false)
    (hstate : s.rst.act[a].state = .loaded) :
    Completes (exec (.resetEngine p) s) fun t => t.rst.act[a].reloadAfter = true ∧ t.rst.act[a].tries = 0 := by
  let o : OpInfo := ⟨0x0241, [5], .action⟩
  let u := ((s.startPacket o p).controlledUnload a).modAct a fun x => { x with reloadAfter := true, tries := 0 }
  have hu : u.rst.act[a].state = .loaded ∨ u.rst.act[a].state = .unloading := by
    rw [show u.rst.act[a] = _ from State.modAct_same ..]
    exact State.controlledUnload_loaded (s := s.startPacket o p) hstate
  have hpresent : (s.startPacket o p).enginePresent a = true := hpres
  have hfailed : (s.startPacket o p).engineFailed a = false := hfail
  have hbody : opResetRequest p (s.startPacket o p) = { state := u, wait := true } := by
    unfold opResetRequest
    rw [hsel]
    show (s.startPacket o p).resetEngine p = _
    unfold State.resetEngine
    rw [if_neg (by simp [hkey]), heng]
    dsimp only
    rw [if_neg (by rw [hpresent] <;> decide), if_neg (by rw [hfailed] <;> decide), if_neg ?_]
    intro h
    obtain h1 | h1 := hu
    all_goals exact absurd (h1.symm.trans h.1) (by decide)
  refine completes_wait hready hbody rfl ?_
  have hact : u.rst.act[a] = _ := State.modAct_same ..
  exact ⟨congrArg Actuator.reloadAfter hact, congrArg Actuator.tries hact⟩

theorem completes_resetConfigure (s : State) (p : Packet) (hready : ready ⟨0x0241, [5], .action⟩ p s = true) (hsel : p.w 0 = 3) :
    Completes (exec (.resetConfigure p) s) fun t =>
      t.nor = { s.nor with rstCfg := clampWord [fIn 31 16 1 3600, fIn 15 8 5 240] 0 (p.w 1) } ∧
      t.rst = { s.rst with
        mpCkptS := fld (clampWord [fIn 31 16 1 3600, fIn 15 8 5 240] 0 (p.w 1)) 31 16
        imgMin := fld (clampWord [fIn 31 16 1 3600, fIn 15 8 5 240] 0 (p.w 1)) 15 8 } ∧
      Answered s t 0x0241 p [clampWord [fIn 31 16 1 3600, fIn 15 8 5 240] 0 (p.w 1)] ∧
      t = ({ s with rst := t.rst, nor := t.nor } : State).afterReply t := by
  have hbody (u : State) : opResetRequest p u = u.resetConfigure p := by
    unfold opResetRequest
    rw [hsel] <;> rfl
  have hmoves (u : State) : Moves [.rst, .nor] u (u.resetConfigure p).state := by
    have hrst (f : ResetBlock → ResetBlock) : Moves [.rst, .nor] u (u.modRst f) := (State.modRst_moves ..).widen (by decide)
    have hnor (v : State) (f : Nor → Nor) (hf : ∀ n, (f n).layout = n.layout) : Moves [.rst, .nor] v (v.modNor f) :=
      (State.modNor_moves v f hf).widen (by decide)
    exact (hrst _).trans (hnor _ (fun n => { n with rstCfg := clampWord [fIn 31 16 1 3600, fIn 15 8 5 240] 0 (p.w 1) }) fun _ => rfl)
  refine completes_result hready (hbody _) (by rw [hbody]; exact hmoves _) rfl rfl rfl rfl fun t hshape hans => ?_
  obtain ⟨_, _, _, _, _, rfl⟩ := hshape
  exact ⟨rfl, rfl, hans, rfl⟩

/-! ### The actuator packets -/

theorem completes_actuatorLoad (s : State) (p : Packet) (hready : ready ⟨0x0242, [4], .action⟩ p s = true)
    (hreload : s.rst.act[p.eng].reloadAfter = false) (hstate : s.rst.act[p.eng].state = .unloaded) :
    Completes (exec (.actuatorLoad p) s) fun t =>
      t.rst.act[p.eng].held = false ∧ t.rst.act[p.eng].tries = 0 ∧ (0x0242, p) ∈ t.het.waiting ∧
      ((p.w 0).getLsbD 0 = true → t.nor.engs[p.eng].actCfg = actCfgWord (p.w 1)) := by
  let o : OpInfo := ⟨0x0242, [4], .action⟩
  let u := s.startPacket o p
  let v := if (clampWord [fAny 0 0] 0 (p.w 0)).getLsbD 0 then
      (u.modAct p.eng fun x => { x with
        loadV := fld (actCfgWord (p.w 1)) 31 24, unloadV := fld (actCfgWord (p.w 1)) 23 16
        loadTmo := fld (actCfgWord (p.w 1)) 15 8, loadTries := fld (actCfgWord (p.w 1)) 7 4 }).modNor fun n =>
        { n with engs := vmod n.engs p.eng fun e => { e with actCfg := actCfgWord (p.w 1) } }
    else u
  have hv : v.rst.act[p.eng].state = .unloaded := by
    by_cases happly : (clampWord [fAny 0 0] 0 (p.w 0)).getLsbD 0 = true
    · rw [show v = _ from if_pos happly]
      exact (congrArg Actuator.state (u.modAct_same p.eng _)).trans hstate
    · rw [show v = _ from if_neg happly]
      exact hstate
  have hnor : (p.w 0).getLsbD 0 = true → v.nor.engs[p.eng].actCfg = actCfgWord (p.w 1) := by
    intro hbit
    have happly : (clampWord [fAny 0 0] 0 (p.w 0)).getLsbD 0 = true :=
      (clampWord_low_bit (n := 0) (by omega) (by omega) 0 (p.w 0)).trans hbit
    rw [show v = _ from if_pos happly]
    exact congrArg EngNor.actCfg (vmod_same ..)
  have hwait : (opActuatorLoad p u).wait = true ∧
      (opActuatorLoad p u).state = v.modAct p.eng fun x => { x with held := false, tries := if x.state = .loading then x.tries else 0 } := by
    unfold opActuatorLoad
    rw [if_neg (by rw [show u.rst = s.rst from rfl, hreload] <;> decide)]
    extract_lets w0 apply w1 v' loaded w
    have hloaded : loaded = false := by
      show (v.rst.act[p.eng].state == .loaded) = false
      rw [hv] <;> rfl
    rw [hloaded]
    exact ⟨rfl, if_neg (by rw [hloaded] <;> decide)⟩
  refine completes_wait hready rfl hwait.1 ?_
  have hact : (opActuatorLoad p u).state.rst.act[p.eng] = { v.rst.act[p.eng] with
      held := false, tries := if v.rst.act[p.eng].state = .loading then v.rst.act[p.eng].tries else 0 } := by
    rw [hwait.2]
    exact v.modAct_same p.eng _
  refine ⟨congrArg Actuator.held hact, (congrArg Actuator.tries hact).trans ?_, ?_, fun hbit => ?_⟩
  · exact if_neg (by rw [hv] <;> decide)
  · exact List.mem_append_right _ (List.mem_singleton.mpr rfl)
  · refine Eq.trans ?_ (hnor hbit)
    show (opActuatorLoad p u).state.nor.engs[p.eng].actCfg = _
    rw [hwait.2] <;> rfl

theorem completes_actuatorUnload (s : State) (p : Packet) (hready : ready ⟨0x0243, [4], .action⟩ p s = true)
    (hstate : s.rst.act[p.eng].state = .loaded) :
    Completes (exec (.actuatorUnload p) s) fun t => t.rst.act[p.eng].held = true ∧ t.rst.act[p.eng].tries = 0 := by
  let u := s.startPacket ⟨0x0243, [4], .action⟩ p
  let v := (u.controlledUnload p.eng).modAct p.eng fun x => { x with held := true, tries := 0 }
  have hact : v.rst.act[p.eng] = _ := State.modAct_same ..
  have hv : v.rst.act[p.eng].state ≠ .unloaded := by
    rw [hact]
    obtain h | h := State.controlledUnload_loaded (s := u) hstate
    all_goals exact fun hun => absurd (h.symm.trans hun) (by decide)
  have hidle : (u.rst.act[p.eng].state == .unloaded && !u.rst.act[p.eng].loadReq) = false := by
    rw [show u.rst.act[p.eng].state = .loaded from hstate] <;> rfl
  have hbody : opActuatorUnload p u = { state := v, wait := v.rst.act[p.eng].state != .unloaded, result := [rActStatus v.rst.act[p.eng], rSrvStatus v p.eng] } := by
    unfold opActuatorUnload
    extract_lets a idle w
    have hidle' : idle = false := hidle
    rw [show w = v from if_neg (by rw [hidle'] <;> decide), hidle'] <;> rfl
  refine completes_wait hready hbody (by simpa using hv) ?_
  exact ⟨congrArg Actuator.held hact, congrArg Actuator.tries hact⟩

theorem completes_actuatorUnload_idle (s : State) (p : Packet) (hready : ready ⟨0x0243, [4], .action⟩ p s = true)
    (hstate : s.rst.act[p.eng].state = .unloaded) (hreq : s.rst.act[p.eng].loadReq = false) :
    Completes (exec (.actuatorUnload p) s) fun t =>
      Answered s t 0x0243 p [rActStatus s.rst.act[p.eng], rSrvStatus s p.eng] ∧ t = s.afterReply t := by
  refine completes_report (clamp := 0) hready ?_
  let u := s.startPacket ⟨0x0243, [4], .action⟩ p
  have hidle : (u.rst.act[p.eng].state == .unloaded && !u.rst.act[p.eng].loadReq) = true := by
    rw [show u.rst.act[p.eng].state = .unloaded from hstate, show u.rst.act[p.eng].loadReq = false from hreq] <;> rfl
  show opActuatorUnload p u = _
  unfold opActuatorUnload
  extract_lets a idle w
  have hidle' : idle = true := hidle
  rw [show w = u from if_pos hidle', hidle'] <;> rfl

/-- Settles O20: an actuator's loads, parks and timeouts, with what their engines and arms keep through the failures, restarts and stops
they lead to, and the reset and actuator packets. -/
theorem loadUnloadAndResets : Obligations.LoadUnloadAndResets :=
  ⟨completes_headLoad, completes_loadTimeout, completes_parkDone, completes_retractBiasEnd, completes_unloadTimeout,
    fun _ _ h => completes_report h rfl, completes_resetClear, completes_resetModule, completes_resetEngine, completes_resetConfigure,
    completes_actuatorLoad, completes_actuatorUnload, completes_actuatorUnload_idle⟩

end Sys2Proof.Machine
end

section
/-! SUPPORT. The decoder pool, the recovery ladder and reallocation (06_decoder_pool_recovery.md). -/

namespace Sys2Proof.Machine
open Sys2Proof
set_option Elab.async false

/-! ### Engines of the pool (R186–R197) -/

theorem mem_foldl_option {α : Type} {P : α → Prop} (f : Option α → α → Option α) (hf : ∀ acc x y, f acc x = some y → acc = some y ∨ P y)
    (l : List α) (acc : Option α) (hacc : ∀ y, acc = some y → P y) {y : α} (h : l.foldl f acc = some y) : P y := by
  induction l generalizing acc with
  | nil => exact hacc y h
  | cons x l ih => exact ih (f acc x) (fun z hz => (hf acc x z hz).elim (hacc z) id) h

/-- The engine that answers a request is idle. -/
theorem State.idleEngine_idle {s : State} {r : ReqIx} {deep : Bool} {e : DecIx} (h : s.idleEngine r deep = some e) :
    s.pool.engines[e].state = .idle := by
  unfold State.idleEngine at h
  extract_lets idle at h
  have hidle {e : DecIx} (h : idle e = true) : s.pool.engines[e].state = .idle := by
    simp only [idle, Bool.and_eq_true, beq_iff_eq] at h
    exact h.1.1
  cases hfind : (fins 40).find? fun (e : DecIx) => idle e && s.pool.engines[e].parked && s.pool.engines[e].owner == r.val with
  | some f =>
    rw [hfind] at h
    obtain rfl : f = e := Option.some.inj h
    have hsome := List.find?_some hfind
    simp only [Bool.and_eq_true] at hsome
    exact hidle hsome.1.1
  | none =>
    rw [hfind] at h
    refine mem_foldl_option (P := fun e => s.pool.engines[e].state = .idle) _ ?_ _ none (fun _ h => by cases h) h
    intro acc x y hstep
    split at hstep
    next hx =>
      cases acc with
      | none =>
        obtain rfl : x = y := Option.some.inj hstep
        exact .inr (hidle hx)
      | some f =>
        dsimp only at hstep
        split at hstep
        · obtain rfl : x = y := Option.some.inj hstep
          exact .inr (hidle hx)
        · exact .inl hstep
    next => exact .inl hstep

theorem Moves.engines {m : List Part} {s t : State} (h : Moves m s t) (hm : m.contains .pool = false) : Kept (fun s => s.pool.engines) s t :=
  congrArg Pool.engines (h.pool_eq hm)

theorem State.chosen_engines (s : State) (r : ReqIx) (q : PoolReq) : Kept (fun s => s.pool.engines) s (s.chosen r q) := rfl

theorem State.lose_engines (s : State) (r : ReqIx) : Kept (fun s => s.pool.engines) s (s.lose r) := by
  unfold State.lose
  extract_lets x loss
  cases x.pending with
  | nil => exact .refl
  | cons q l =>
    dsimp -zeta only
    extract_lets thr promote t
    have ht : Kept (fun s => s.pool.engines) s t := rfl
    exact ht.trans ((State.saturated_moves ..).engines rfl)

theorem State.award_engines (s : State) (deep : Bool) (r : ReqIx) (q : PoolReq) : Kept (fun s => s.pool.engines) s (s.award deep r q) :=
  Kept.trans (Kept.fold _ _ s fun u y => Kept.ite (u.lose_engines y) .refl) (State.chosen_engines ..)

theorem State.dropRequest_engines (s : State) (r : ReqIx) (f : ReqFor) : Kept (fun s => s.pool.engines) s (s.dropRequest r f) := rfl

theorem State.decide_engines (s : State) (deep : Bool) : Kept (fun s => s.pool.engines) s (s.decide_ deep).1 := by
  unfold State.decide_
  split
  · rfl
  · exact s.award_engines ..

theorem State.bindEngine_engines (s : State) (e : DecIx) (r : ReqIx) (q : PoolReq) (lvl : Nat) :
    (s.bindEngine e r q lvl).pool.engines = vmod s.pool.engines e fun x =>
      { x with state := .held, parked := false, owner := r.val, ownPrio := lvl, glob := 1, job := some q, heldSince := s.mtime, next := none
               stopAt := none, cw := inc 32 x.cw } := by
  unfold State.bindEngine
  extract_lets s1 s2 start
  have h1 : Kept (fun s => s.pool.engines) s s1 := .ite rfl .refl
  have hm : s1.mtime = s.mtime := by
    dsimp only [s1]
    split <;> rfl
  have h2 : s2.pool.engines = vmod s.pool.engines e fun x =>
      { x with state := .held, parked := false, owner := r.val, ownPrio := lvl, glob := 1, job := some q, heldSince := s.mtime, next := none
               stopAt := none, cw := inc 32 x.cw } := by
    have heng : s1.pool.engines = s.pool.engines := h1
    rw [← hm, ← heng] <;> rfl
  refine Eq.trans ?_ h2
  split
  · split <;> rfl
  · rfl

/-- An engine of the pool that has failed, with no job and none to come. -/
structure State.Down (e : DecIx) (s : State) : Prop where
  state : s.pool.engines[e].state = .failed
  job : s.pool.engines[e].job = none
  next : s.pool.engines[e].next = none

section
variable {e : DecIx} {s t : State}

theorem State.Down.of_kept (h : s.Down e) (hk : Kept (fun s => s.pool.engines) s t) : t.Down e := by
  have heq : t.pool.engines = s.pool.engines := hk
  constructor
  all_goals rw [heq]
  exacts [h.state, h.job, h.next]

theorem State.Down.of_moves {m : List Part} (h : s.Down e) (hm : Moves m s t) (hpool : m.contains .pool = false) : t.Down e :=
  h.of_kept (hm.engines hpool)

theorem State.Down.bindEngine (h : s.Down e) {f : DecIx} (hf : f ≠ e) (r : ReqIx) (q : PoolReq) (lvl : Nat) : (s.bindEngine f r q lvl).Down e := by
  have heng : (s.bindEngine f r q lvl).pool.engines[e] = s.pool.engines[e] := by
    rw [s.bindEngine_engines f r q lvl]
    exact vmod_other _ _ hf
  constructor
  all_goals rw [heng]
  exacts [h.state, h.job, h.next]

theorem State.Down.ne_of_idle (h : s.Down e) {f : DecIx} (hf : s.pool.engines[f].state = .idle) : f ≠ e := by
  rintro rfl
  exact absurd (hf.symm.trans h.state) (by decide)

theorem State.Down.serveIdle (h : s.Down e) (deep : Bool) (n : Nat) : (s.serveIdle deep n).Down e := by
  induction n generalizing s with
  | zero => exact h
  | succ n ih =>
    unfold State.serveIdle
    split
    · exact h
    next r q _ =>
      split
      · exact h
      next f hidle =>
        have hne : f ≠ e := h.ne_of_idle (State.idleEngine_idle hidle)
        exact ih ((h.of_kept (s.award_engines deep r q)).bindEngine hne r q _)

theorem State.Down.decideFree (h : s.Down e) {f : DecIx} (hf : f ≠ e) : (s.decideFree f).Down e := by
  unfold State.decideFree
  extract_lets on
  split
  · exact h
  · split
    · have heng : (vmod s.pool.engines f fun x => { x with gated := true })[e] = s.pool.engines[e] := vmod_other _ _ hf
      exact ⟨(congrArg PoolEngine.state heng).trans h.state, (congrArg PoolEngine.job heng).trans h.job, (congrArg PoolEngine.next heng).trans h.next⟩
    · have hd := s.decide_engines (deepEngine f)
      split
      next u r q lvl hdec =>
        rw [hdec] at hd
        exact (h.of_kept hd).bindEngine hf r q lvl
      next u hdec =>
        rw [hdec] at hd
        exact h.of_kept hd

theorem State.Down.releaseEngine (h : s.Down e) (f : DecIx) : (s.releaseEngine f).Down e := by
  unfold State.releaseEngine
  extract_lets x s1
  by_cases hf : f = e
  · subst hf
    rw [if_pos h.state]
    have heng : (vmod s.pool.engines f fun x => { x with job := none, next := none, stopAt := none })[f] = _ := vmod_same ..
    exact ⟨(congrArg PoolEngine.state heng).trans h.state, congrArg PoolEngine.job heng, congrArg PoolEngine.next heng⟩
  · have hkeep (g : PoolEngine → PoolEngine) : (s.modPool fun p => { p with engines := vmod p.engines f g }).Down e := by
      have heng : (vmod s.pool.engines f g)[e] = s.pool.engines[e] := vmod_other _ _ hf
      exact ⟨(congrArg PoolEngine.state heng).trans h.state, (congrArg PoolEngine.job heng).trans h.job, (congrArg PoolEngine.next heng).trans h.next⟩
    have h1 : s1.Down e := hkeep _
    clear_value s1
    split
    · exact hkeep _
    · split
      · exact h
      · split
        · split
          · exact h1.bindEngine hf ..
          · exact h1.decideFree hf
        · exact h1.decideFree hf

theorem State.Down.endCodeword (h : s.Down e) (l : LaneIx) (k : SlotIx) (o : CwOutcome) : (s.endCodeword l k o).Down e := by
  unfold State.endCodeword
  extract_lets x s1 s2 y s3
  have h1 : s1.Down e := h.of_kept (s.dropRequest_engines ..)
  have h2 : s2.Down e := by
    unfold s2 State.countCodeword
    exact (h1.of_moves (State.modLane_moves ..) rfl).of_moves (State.saturated_moves ..) rfl
  clear_value s2
  have h3 : s3.Down e := by
    unfold s3
    split
    · split
      · exact (h2.of_moves (State.modRec_moves ..) rfl).of_moves (State.freeSlot_moves ..) rfl
      · exact h2.of_moves (State.freeSlot_moves ..) rfl
    · split
      · exact (h2.of_moves (State.modLane_moves ..) rfl).of_moves (State.freeSlot_moves ..) rfl
      · exact h2.of_moves (State.freeSlot_moves ..) rfl
  clear_value s3
  split
  · exact h3.releaseEngine _
  · exact h3

theorem State.Down.returnSlot (h : s.Down e) (l : LaneIx) (k : SlotIx) : (s.returnSlot l k).Down e := by
  unfold State.returnSlot
  extract_lets c s1
  have h1 : s1.Down e := h.of_moves (State.modSlot_moves ..) rfl
  split
  · exact h1.endCodeword ..
  · exact h1

end

theorem State.failDecoder_down {s : State} {e : DecIx} (h : s.pool.engines[e].state ≠ .failed) : (s.failDecoder e).Down e := by
  unfold State.failDecoder
  rw [if_neg h]
  extract_lets s1 s2 back s3 r s4
  have hback (t : State) (r : ReqIx) (q : PoolReq) (ht : t.Down e) : (back t r q).Down e := ht.of_kept rfl
  have h1 : s1.Down e := by
    have heng : s1.pool.engines[e] = _ := vmod_same ..
    exact ⟨congrArg PoolEngine.state heng, congrArg PoolEngine.job heng, congrArg PoolEngine.next heng⟩
  have h2 : s2.Down e := h1.of_moves (State.condition_moves ..) rfl
  clear_value s2 back
  have h3 : s3.Down e := by
    unfold s3
    split
    · exact hback _ _ _ h2
    · exact h2
  clear_value s3
  have h4 : s4.Down e := by
    unfold s4
    split
    · exact h3
    · next q _ =>
      have hb := hback s3 r q h3
      split
      · split
        · exact hb.returnSlot ..
        · exact hb
      · split
        · exact (hb.of_moves (State.modJob_moves ..) rfl).of_moves (State.guardWait_moves ..) rfl
        · exact hb.of_moves (State.prepare_moves ..) rfl
  clear_value s4
  exact (h4.serveIdle false 36).serveIdle true 4

theorem completes_decoderEngineFail (s : State) (e : DecIx) (h : s.pool.engines[e].state ≠ .failed) :
    Completes (exec (.decoderEngineFail e) s) fun t =>
      t.pool.engines[e].state = .failed ∧ t.pool.engines[e].job = none ∧ t.pool.engines[e].next = none := by
  obtain ⟨hstate, hjob, hnext⟩ := State.failDecoder_down h
  exact ⟨_, rfl, hstate, hjob, hnext⟩

/-! ### Requests and arbitration (R186–R194) -/

theorem State.chosen_pending (s : State) (r : ReqIx) (q : PoolReq) : (s.chosen r q).pool.reqs[r].pending = s.pool.reqs[r].pending.erase q := by
  exact congrArg PoolRequester.pending (vmod_same ..)

/-- A decoder bound to a lane's codeword. -/
theorem State.bindEngine_slot (s : State) (e : DecIx) {r : ReqIx} {q : PoolReq} (lvl : Nat) {l : LaneIx} {k : SlotIx} (hq : q.for_ = .slot k)
    (hr : reqLane r = some l) : (s.bindEngine e r q lvl).lane[l].slots[k].state = .decode ∧
      (s.bindEngine e r q lvl).lane[l].slots[k].engine = some e ∧ (s.bindEngine e r q lvl).lane[l].slots[k].glob = 1 ∧
      (s.bindEngine e r q lvl).pool.reqs = s.pool.reqs := by
  unfold State.bindEngine
  extract_lets s1 s2 start
  rw [hq, hr]
  dsimp only
  have hslot := s2.modSlot_same l k start
  have hreqs : s2.pool.reqs = s.pool.reqs := by
    dsimp only [s2, s1]
    split <;> rfl
  exact ⟨congrArg Slot.state hslot, congrArg Slot.engine hslot, congrArg Slot.glob hslot, hreqs⟩

theorem completes_decoderRequest (s : State) (r : ReqIx) (l : LaneIx) (k : SlotIx) (c : Fin 5) (u : Fin 4) (e : DecIx)
    (hr : reqLane r = some l) (hwait : s.lane[l].slots[k].state = .wait) (hhead : s.lane[l].bind.head.isSome = true)
    (hpend : s.pool.reqs[r].pending = []) (hidle : s.idleEngine r false = some e) :
    Completes (exec (.decoderRequest r { deep := false, for_ := .slot k, cls := c, raised := u }) s) fun t =>
      t.pool.engines[e].state = .held ∧ t.pool.engines[e].owner = r.val ∧ t.pool.reqs[r].pending = [] ∧
      t.lane[l].slots[k].state = .decode ∧ t.lane[l].slots[k].engine = some e ∧ t.lane[l].slots[k].glob = 1 := by
  let q : PoolReq := { at_ := s.mtime, cls := c.val, raised := u.val, deep := false, for_ := .slot k }
  let v := s.modPool fun p => { p with reqs := vmod p.reqs r fun x => { x with pending := x.pending ++ [q] } }
  have hv : v.pool.reqs[r].pending = [q] := by
    rw [show v.pool.reqs[r] = _ from vmod_same .., hpend] <;> rfl
  have hreq : s.request r q = (v.chosen r q).bindEngine e r q (v.effLevel r q) := by
    unfold State.request
    rw [if_neg (by rw [hpend]; exact Bool.false_ne_true)]
    show (match v.idleEngine r false with | some e => (v.chosen r q).bindEngine e r q (v.effLevel r q) | none => v) = _
    rw [show v.idleEngine r false = some e from hidle]
  refine ⟨s.request r q, ?_, ?_⟩
  · show execDecoderRequest r { deep := false, for_ := .slot k, cls := c, raised := u } s = _
    unfold execDecoderRequest
    dsimp only
    rw [hr]
    exact congrArg Host.Outcome.next (if_pos ⟨hwait, rfl, hhead⟩)
  · rw [hreq]
    obtain ⟨hstate, hengine, hglob, hreqs⟩ := (v.chosen r q).bindEngine_slot e (v.effLevel r q) (q := q) rfl hr
    have heng := congrArg (fun v : Vector PoolEngine 40 => v[e]) ((v.chosen r q).bindEngine_engines e r q (v.effLevel r q)) |>.trans (vmod_same ..)
    refine ⟨congrArg PoolEngine.state heng, congrArg PoolEngine.owner heng, ?_, hstate, hengine, hglob⟩
    rw [hreqs, State.chosen_pending, hv]
    exact List.erase_cons_head ..

theorem execDecoderArbitration_of_reserved {s : State} {e : DecIx} (hheld : s.pool.engines[e].state = .held)
    (hnext : s.pool.engines[e].next.isSome = true) :
    execDecoderArbitration e s = .next (s.modPool fun p => { p with engines := vmod p.engines e fun x => { x with state := .finalBeat } }) :=
  congrArg Host.Outcome.next (if_pos ⟨hheld, hnext⟩)

theorem completes_decoderArbitration (s : State) (e : DecIx) (r : ReqIx) (q : PoolReq) (hheld : s.pool.engines[e].state = .held)
    (hnext : s.pool.engines[e].next = none) (hbest : s.bestRequest (deepEngine e) = some (r, q)) :
    Completes (exec (.decoderArbitration e) s) fun t =>
      t.pool.engines[e] = { s.pool.engines[e] with state := .finalBeat, next := some (r, q), ownPrio := s.effLevel r q } := by
  refine ⟨(s.award (deepEngine e) r q).modPool fun p => { p with engines := vmod p.engines e fun x =>
    { x with state := .finalBeat, next := some (r, q), ownPrio := s.effLevel r q } }, ?_, ?_⟩
  · show execDecoderArbitration e s = _
    unfold execDecoderArbitration
    extract_lets x
    rw [if_neg (by rw [show x.next = none from hnext]; exact fun h => absurd h.2 (by decide)), if_pos hheld]
    unfold State.decide_
    rw [hbest]
  · have hkeep : (s.award (deepEngine e) r q).pool.engines = s.pool.engines := s.award_engines ..
    refine (vmod_same ..).trans ?_
    rw [hkeep]

theorem completes_decoderArbitration_none (s : State) (e : DecIx) (hheld : s.pool.engines[e].state = .held)
    (hbest : s.bestRequest (deepEngine e) = none) :
    Completes (exec (.decoderArbitration e) s) fun t => t.pool.engines[e] = { s.pool.engines[e] with state := .finalBeat } := by
  refine ⟨s.modPool fun p => { p with engines := vmod p.engines e fun x => { x with state := .finalBeat } }, ?_, vmod_same ..⟩
  by_cases hnext : s.pool.engines[e].next.isSome = true
  · exact execDecoderArbitration_of_reserved hheld hnext
  · show execDecoderArbitration e s = _
    unfold execDecoderArbitration
    extract_lets x
    rw [if_neg fun h => hnext h.2, if_pos hheld]
    unfold State.decide_
    rw [hbest]

/-! ### Jobs of the recovery ladder (R199–R226) -/

theorem State.modRec_same (s : State) (a : Eng) (f : Recovery → Recovery) : (s.modRec a f).eng[a].recv = f s.eng[a].recv :=
  congrArg Engine.recv (vmod_same ..)

theorem State.modJob_same (s : State) (a : Eng) (j : JobIx) (f : RecJob → RecJob) :
    (s.modJob a j f).eng[a].recv.jobs[j] = s.eng[a].recv.jobs[j].map f := by
  rw [State.modJob, State.modRec_same]
  exact vmod_same ..

theorem RecJob.keep_fields (x : RecJob) (c : Slot) (hstream : x.stream = false) :
    (x.keep c).at_ = x.at_ ∧ (x.keep c).outcome = c.outcome.getD .noConv ∧ (x.keep c).fly = c.fly ∧ (x.keep c).syncQ = c.syncQ ∧
    (x.keep c).syncDist = c.syncDist ∧ (x.keep c).u1 = c.u1 ∧ (x.keep c).uEnd = c.uEnd ∧ (x.keep c).stream = (c.outcome.getD .noConv).usable ∧
    (x.keep c).staging = x.staging ∧ (x.keep c).revOpen = x.revOpen := by
  unfold RecJob.keep
  extract_lets o a n y
  by_cases hu : o.usable = true
  · rw [if_pos hu]
    exact ⟨rfl, rfl, rfl, rfl, rfl, rfl, rfl, hu.symm, rfl, rfl⟩
  · rw [if_neg hu]
    exact ⟨rfl, rfl, rfl, rfl, rfl, rfl, rfl, hstream.trans (Bool.eq_false_iff.mpr hu).symm, rfl, rfl⟩

theorem completes_recoveryJobOpen (s : State) (l : LaneIx) (k : SlotIx) (c : Slot) (j : JobIx) (hrec : s.failedRecord l k = some (c, false))
    (hvoid : c.void = false) (hjob : c.job = none) (hctx : c.ctx = none) (hat : s.jobAt (s.laneEngine l) c.at_ = none)
    (hfree : (fins 16).find? (fun (i : JobIx) => s.eng[s.laneEngine l].recv.jobs[i].isNone) = some j)
    (hopen : s.eng[s.laneEngine l].recv.open_ < fld s.eng[s.laneEngine l].recv.cfg 9 5) (hroom : s.q.staging + 40 ≤ stagingUnits) :
    Completes (exec (.recoveryJobOpen l k) s) fun t =>
      (∃ x, t.eng[s.laneEngine l].recv.jobs[j] = some x ∧ x.at_ = c.at_ ∧ x.outcome = c.outcome.getD .noConv ∧ x.fly = c.fly ∧
        x.syncQ = c.syncQ ∧ x.syncDist = c.syncDist ∧ x.u1 = c.u1 ∧ x.uEnd = c.uEnd ∧
        x.stream = (c.outcome.getD .noConv).usable ∧ (x.step, x.offs) = x.entry (c.outcome.getD .noConv) ∧ x.staging = 40 ∧
        x.revOpen = s.eng[s.laneEngine l].reel.stamp.rev) ∧
      t.q.staging = s.q.staging + 40 ∧ t.lane[l].cut = s.lane[l].cut.drop 1 := by
  show Completes (execRecoveryJobOpen l k s) _
  unfold execRecoveryJobOpen
  extract_lets a
  rw [hrec]
  dsimp -zeta only
  rw [if_neg (by rw [hvoid] <;> decide), hjob]
  dsimp -zeta only
  rw [hctx]
  extract_lets cmd s0 r o job0 jobE job1 s1
  rw [if_neg (by simp)]
  rw [show s0.jobAt a c.at_ = none from hat]
  dsimp -zeta only
  rw [show (fins 16).find? (fun (i : JobIx) => r.jobs[i].isNone) = some j from hfree]
  dsimp -zeta only
  rw [if_pos ⟨hopen, hroom⟩, if_neg (by rw [show job1.inSlot = false from rfl] <;> decide)]
  obtain ⟨hat0, hout, hfly, hq, hdist, hu1, huEnd, hstream, hstaging, hrev⟩ := RecJob.keep_fields
    { at_ := c.at_, cmds := cmd, outcome := o, fly := c.fly, syncQ := c.syncQ, stream := false, lane := l, slot := k
      tag := c.tag, zgen := c.zgen, cls := c.cls, step := 1, staging := 40
      wait := if o.usable then .copy else if s0.eng[a].reel.state = .stopped then .stopped else .ready
      revOpen := s0.eng[a].reel.stamp.rev } c rfl
  refine ⟨_, rfl, ⟨job1, ?_, hat0, hout, hfly, hq, hdist, hu1, huEnd, hstream, rfl, hstaging, hrev⟩, rfl, congrArg Lane.cut (State.modLane_same ..)⟩
  have htake (u : State) : (u.takeRecord l k false).eng = u.eng := rfl
  show (State.takeRecord _ l k false).eng[a].recv.jobs[j] = _
  rw [htake, State.modRec_same]
  exact vset_same ..

theorem completes_retainedStreamCopyDone (s : State) (a : Eng) (j : JobIx) (x : RecJob) (hx : s.eng[a].recv.jobs[j] = some x) (hwait : x.wait = .copy)
    (hreel : s.eng[a].reel.state ≠ .stopped) :
    Completes (exec (.retainedStreamCopyDone a j) s) fun t =>
      t.eng[a].recv.jobs[j] = some { x with wait := .ready, inSlot := false } ∧ t = { s with eng := t.eng, lane := t.lane } := by
  let u := s.modJob a j fun y => { y with wait := if s.eng[a].reel.state = .stopped then .stopped else .ready, inSlot := false }
  have hu : u.eng[a].recv.jobs[j] = some { x with wait := .ready, inSlot := false } := by
    rw [State.modJob_same, hx, if_neg hreel] <;> rfl
  have hmoves : Moves [.lane] u (if x.inSlot then u.freeSlot x.lane x.slot {} else u) := .ite (State.freeSlot_moves ..) (.refl ..)
  have hs : Moves [.recv] s u := State.modJob_moves ..
  refine ⟨if x.inSlot then u.freeSlot x.lane x.slot {} else u, ?_, ?_, ?_⟩
  · show execRetainedStreamCopyDone a j s = _
    unfold execRetainedStreamCopyDone
    rw [hx]
    exact congrArg Host.Outcome.next (if_pos hwait)
  · rw [hmoves.recv_eq rfl, hu]
  · have hall : Moves [.reel, .links, .recv, .wrg, .engSrv, .seq, .zdc, .core, .lane] s (if x.inSlot then u.freeSlot x.lane x.slot {} else u) :=
      (hs.widen (by decide)).trans (hmoves.widen (by decide))
    generalize (if x.inSlot then u.freeSlot x.lane x.slot {} else u) = t at hall
    exact hall.eq_of_parts rfl fun x => by cases x <;> first | rfl | exact fun _ => rfl

theorem completes_ladderTry (s : State) (a : Eng) (j : JobIx) (x : RecJob) (hx : s.eng[a].recv.jobs[j] = some x) (hwait : x.wait = .ready)
    (hspent : (s.eng[a].reel.stamp.rev + 2 ^ 32 - x.revOpen) % 2 ^ 32 < fld x.cfg 31 24) (hstep : x.step = 2) (hoffs : x.offs = [])
    (hposs : x.possible s.eng[a].recv (s.jobMargin a x) = true) :
    Completes (exec (.ladderTry a j) s) fun t => t.eng[a].recv.jobs[j] = some { x with wait := .try_ } := by
  have hsettle : x.settle s.eng[a].recv (s.jobMargin a x) 64 = x := by
    unfold RecJob.settle
    exact if_pos (by rw [hposs] <;> simp)
  let u := s.modJob a j fun _ => x
  have hu : u.eng[a].recv.jobs[j] = some x := by rw [State.modJob_same, hx] <;> rfl
  have hlimit : u.limitRetry a j = u := by
    unfold State.limitRetry
    rw [hu]
    exact if_neg fun h => absurd h.1 (by omega)
  have htry : u.startTry a j x = u.modJob a j fun x => { x with wait := .try_ } := by
    unfold State.startTry
    rw [if_neg (by rw [hoffs] <;> decide)]
    rw [hstep]
    rfl
  refine ⟨u.startTry a j x, ?_, ?_⟩
  · show execLadderTry a j s = _
    unfold execLadderTry
    rw [hx]
    dsimp -zeta only
    extract_lets go spent x' y v
    have hx' : x' = x := if_neg (by rw [hwait] <;> decide)
    have hy : y = x := by
      show x'.settle s.eng[a].recv (s.jobMargin a x') 64 = x
      rw [hx', hsettle]
    have hv : v = u := by
      show (s.modJob a j fun _ => y).limitRetry a j = u
      rw [hy]
      exact hlimit
    have hgo : go = true := by
      show (x.wait == .ready || x.wait == .capture || (x.wait == .stopped && s.eng[a].reel.state == .locked)) = true
      rw [hwait] <;> rfl
    have hspent' : ¬ fld x.cfg 31 24 ≤ spent := Nat.not_le.mpr hspent
    clear_value v y x' go spent
    rw [if_pos hgo, hx', if_neg fun h => hspent' h.2, hy, if_neg (by omega), hv, if_pos (by rw [hu] <;> rfl)]
  · rw [htry]
    exact (State.modJob_same ..).trans (congrArg (Option.map _) hu)

theorem completes_captureComplete (s : State) (a : Eng) (j : JobIx) (x : RecJob) (hx : s.eng[a].recv.jobs[j] = some x)
    (hwait : x.wait = .capturing) (hstep : x.step = 7) (hdeep : x.deepEng.isSome = true)
    (hrevs : (x.under s.eng[a].recv).avgRevs ≤ x.capsHeld.length + 1) :
    Completes (exec (.captureComplete a j) s) fun t =>
      t.eng[a].recv.jobs[j] = some { x with capsHeld := x.capsHeld ++ [x.cap], cap := [], wait := .decoding } := by
  let u := s.modJob a j fun x => { x with capsHeld := x.capsHeld ++ [x.cap], cap := [], wait := .ready }
  refine ⟨u.modJob a j fun x => { x with wait := .decoding }, ?_, ?_⟩
  · show execCaptureComplete a j s = _
    unfold execCaptureComplete
    rw [hx]
    dsimp -zeta only
    rw [if_pos hwait]
    have hrevs' : (x.under u.eng[a].recv).avgRevs ≤ x.capsHeld.length + 1 := hrevs
    rw [if_neg (by omega), if_neg (by rw [Option.isNone_iff_eq_none]; rintro h; rw [h] at hdeep; cases hdeep), if_pos hrevs']
  · refine (State.modJob_same ..).trans ?_
    rw [State.modJob_same, hx] <;> rfl

theorem completes_deepDecodeDone (s : State) (e : DecIx) (a : Eng) (j : JobIx) (x : RecJob) (hx : s.eng[a].recv.jobs[j] = some x)
    (hwait : x.wait = .decoding) (hdeep : x.deepEng = some e) (hstep : x.step = 6) :
    Completes (exec (.deepDecodeDone e a j x.at_) s) fun t =>
      unsatisfied (x.deepResult (x.under s.eng[a].recv)).toArray ≠ 0 →
        t.eng[a].recv.jobs[j] = some { x.enter s.eng[a].recv 7 with wait := .ready, cw := {} } ∧ t = { s with eng := t.eng } := by
  show Completes (execDeepDecodeDone e a j x.at_ s) _
  unfold execDeepDecodeDone
  rw [hx]
  dsimp -zeta only
  rw [if_pos ⟨hwait, hdeep, rfl⟩]
  extract_lets bits plain
  refine ⟨_, rfl, fun hbits => ?_⟩
  rw [if_neg fun h => hbits h.1, if_pos hstep]
  refine ⟨?_, rfl⟩
  rw [State.modJob_same, hx] <;> rfl

/-! ### The guard timer (R224, R225) -/

section
variable (s : State)

theorem Moves.guardCnt {m : List Part} {s t : State} (h : Moves m s t) (hm : m.contains .pool = false) : Kept (fun s => s.pool.guardCnt) s t :=
  congrArg Pool.guardCnt (h.pool_eq hm)

theorem State.modPool_guardCnt {f : Pool → Pool} (h : ∀ p, (f p).guardCnt = p.guardCnt) : Kept (fun s => s.pool.guardCnt) s (s.modPool f) :=
  h s.pool

theorem State.dropRequest_guardCnt (r : ReqIx) (f : ReqFor) : Kept (fun s => s.pool.guardCnt) s (s.dropRequest r f) := by
  unfold State.dropRequest
  exact s.modPool_guardCnt fun _ => rfl

theorem State.releaseJobEngines_guardCnt (a : Eng) (j : JobIx) : Kept (fun s => s.pool.guardCnt) s (s.releaseJobEngines a j) := by
  unfold State.releaseJobEngines
  exact s.modPool_guardCnt fun _ => rfl

theorem State.lose_guardCnt (r : ReqIx) : Kept (fun s => s.pool.guardCnt) s (s.lose r) := by
  unfold State.lose
  extract_lets x loss
  cases x.pending with
  | nil => exact .refl
  | cons q l =>
    dsimp -zeta only
    extract_lets thr promote t
    have ht : Kept (fun s => s.pool.guardCnt) s t := rfl
    exact ht.trans ((State.saturated_moves ..).guardCnt rfl)

theorem State.award_guardCnt (deep : Bool) (r : ReqIx) (q : PoolReq) : Kept (fun s => s.pool.guardCnt) s (s.award deep r q) :=
  Kept.trans (Kept.fold _ _ s fun u y => Kept.ite (u.lose_guardCnt y) .refl) rfl

theorem State.reserveDeep_guardCnt (e : DecIx) (a : Eng) (j : JobIx) : Kept (fun s => s.pool.guardCnt) s (s.reserveDeep e a j) := by
  unfold State.reserveDeep
  split
  · exact .refl
  next q _ => exact .ite .refl (Kept.trans (t := s.award true (recReq a) q) (s.award_guardCnt ..) rfl)

theorem State.releaseJob_guardCnt (a : Eng) (j : JobIx) : Kept (fun s => s.pool.guardCnt) s (s.releaseJob a j) := by
  unfold State.releaseJob
  split
  · exact .refl
  · extract_lets s1 s2
    have h1 : Kept (fun s => s.pool.guardCnt) s s1 := (s.releaseJobEngines_guardCnt a j).trans (State.dropRequest_guardCnt ..)
    clear_value s1
    have h2 : Kept (fun s => s.pool.guardCnt) s1 s2 := rfl
    clear_value s2
    exact h1.trans (h2.trans ((State.modRec_moves ..).guardCnt rfl))

theorem State.requeueStep_guardCnt (a : Eng) (j : JobIx) : Kept (fun s => s.pool.guardCnt) s (s.requeueStep a j) := by
  unfold State.requeueStep
  refine (s.releaseJob_guardCnt a j).trans ?_
  have hmod (u : State) (f : RecJob → RecJob) : Kept (fun s => s.pool.guardCnt) u (u.modJob a j f) := rfl
  exact hmod _ _

end

theorem completes_guardTimerExpiry (s : State) (a : Eng) (j : JobIx) (x : RecJob) (d : Bool) (g : Angle) (hx : s.eng[a].recv.jobs[j] = some x)
    (hwaits : x.waitsFor = some d) (htimer : x.timer = some g) (hreached : reached (s.angle a) g = true) :
    Completes (exec (.guardTimerExpiry a j) s) fun t => t.pool.guardCnt = inc 32 s.pool.guardCnt := by
  show Completes (execGuardTimerExpiry a j s) _
  unfold execGuardTimerExpiry
  rw [hx]
  dsimp -zeta only
  rw [hwaits, htimer]
  dsimp -zeta only
  rw [if_pos hreached]
  extract_lets h holder vic s1 s2 s3 step full s4 s5
  have h1 : Kept (fun s => s.pool.guardCnt) s s1 := by
    unfold s1
    split
    · exact .ite (s.reserveDeep_guardCnt ..) .refl
    · exact .refl
  clear_value s1
  have h2 : Kept (fun s => s.pool.guardCnt) s1 s2 := s1.requeueStep_guardCnt ..
  clear_value s2
  have h3 : Kept (fun s => s.pool.guardCnt) s2 s3 := .ite ((State.takeCapture_moves ..).guardCnt rfl) .refl
  clear_value s3
  have h4 : s4.pool.guardCnt = inc 32 s3.pool.guardCnt := rfl
  clear_value s4
  have h5 : Moves [.trc, .evr] s4 s5 := State.condition_moves ..
  clear_value s5
  have hkept : s3.pool.guardCnt = s.pool.guardCnt := h1.trans (h2.trans h3)
  have hend : Kept (fun s => s.pool.guardCnt) s4 (s5.saturated full 0x06 5 0 0x60100C (nw s5.pool.guardCnt)) :=
    (h5.guardCnt rfl).trans ((State.saturated_moves ..).guardCnt rfl)
  exact ⟨_, rfl, Eq.trans hend (h4.trans (congrArg (inc 32) hkept))⟩

/-! ### Reallocation (R217–R220, R250) -/

/-- An engine's recovery block that its warnings about spare space change in no count and no place. -/
theorem State.spareState_effect (s : State) (a : Eng) :
    (s.spareState a).eng[a].recv.spareUsed = s.eng[a].recv.spareUsed ∧ (s.spareState a).eng[a].recv.reallocCnt = s.eng[a].recv.reallocCnt ∧
    (s.spareState a).eng[a].recv.spareNext = s.eng[a].recv.spareNext ∧ Moves [.recv, .trc, .evr] s (s.spareState a) := by
  unfold State.spareState
  extract_lets r warn full s1 s2
  have h1 : s1.eng[a].recv = { r with spareWarn := r.spareWarn || warn, spareFull := full } := State.modRec_same ..
  have hm1 : Moves [.recv, .trc, .evr] s s1 := (State.modRec_moves ..).widen (by decide)
  clear_value s1
  have hm2 : Moves [.trc, .evr] s1 s2 := .ite (State.condRec_moves ..) (.refl ..)
  clear_value s2
  have hend : Moves [.trc, .evr] s1 (if (full && !r.spareFull) = true then s2.condRec a else s2) :=
    hm2.trans (.ite (State.condRec_moves ..) (.refl ..))
  have hrecv := (hend.recv_eq rfl a).trans h1
  exact ⟨(congrArg Recovery.spareUsed hrecv :), (congrArg Recovery.reallocCnt hrecv :), (congrArg Recovery.spareNext hrecv :), hm1.trans (hend.widen (by decide))⟩

theorem completes_reallocate (s : State) (a : Eng) (x : Realloc) (f n : Fin 8) (h : LHead) (dest : SectorAt)
    (hx : s.eng[a].recv.reallocs.find? (fun y => !y.placed) = some x) (hregion : s.regionOf a x.orig.track = some f)
    (hband : s.spareBand a x.orig.head f = some (h, n)) (hdest : s.spareSector a h n s.eng[a].recv.spareNext[h][n] = some dest)
    (hsuspect : x.suspect = false) :
    Completes (exec (.reallocate a) s) fun t =>
      t.eng[a].recv.spareUsed = s.eng[a].recv.spareUsed + 1 ∧ t.eng[a].recv.reallocCnt = inc 32 s.eng[a].recv.reallocCnt ∧
      t.eng[a].recv.spareNext[h][n] = s.eng[a].recv.spareNext[h][n] + 1 ∧
      t.media.remaps[a] = s.media.remaps[a] ++ [{ orig := x.orig, spare := dest, active := false, zone := x.zone, zgen := (s.zoneDesc x.zone).zgen }] ∧
      (∃ w, t.out.written = w :: s.out.written ∧ w.eng = a ∧ w.at_ = dest ∧ w.bits = channelWord (ldpcEncode (scramble (addrTag dest)
        (makeInfo (infoUser x.info) (infoPi x.info) (addrTag dest) (infoZgen x.info))))) := by
  show Completes (execReallocate a s) _
  unfold execReallocate
  rw [hx]
  dsimp -zeta only
  extract_lets place d
  have hplace : place = some (h, n) := by
    show (s.regionOf a x.orig.track).bind _ = _
    rw [hregion]
    exact hband
  rw [hplace]
  dsimp -zeta only
  rw [hdest]
  dsimp -zeta only
  extract_lets info s1 cnt s2 s3 put s4
  have h1 : Moves [.out] s s1 := State.emitSpare_moves ..
  have hout : ∃ w, s1.out.written = w :: s.out.written ∧ w.eng = a ∧ w.at_ = dest ∧ w.bits = channelWord (ldpcEncode (scramble (addrTag dest) info)) :=
    ⟨_, rfl, rfl, rfl, rfl⟩
  have hcnt : cnt = s.eng[a].recv.reallocCnt := congrArg Recovery.reallocCnt (h1.recv_eq rfl a)
  have h2 : s2.eng[a].recv = _ := s1.modRec_same a _
  have hrecv : s1.eng[a].recv = s.eng[a].recv := h1.recv_eq rfl a
  have hused : s2.eng[a].recv.spareUsed = s.eng[a].recv.spareUsed + 1 := by rw [h2, hrecv]
  have hcnt2 : s2.eng[a].recv.reallocCnt = inc 32 s.eng[a].recv.reallocCnt := by
    rw [h2, hrecv]
    exact if_neg (by rw [hsuspect] <;> decide)
  have hnext : s2.eng[a].recv.spareNext[h][n] = s.eng[a].recv.spareNext[h][n] + 1 := by
    rw [h2, hrecv]
    exact (congrArg (fun v : Vector Nat 8 => v[n]) (vmod_same ..)).trans (vmod_same ..)
  have hm2 : Moves [.recv] s1 s2 := State.modRec_moves ..
  have h3 : Moves [.trc, .evr] s2 s3 := by
    rw [show s3 = _ from if_neg (by rw [hsuspect] <;> decide)]
    exact State.saturated_moves ..
  have hmedia : s3.media = s.media := (h3.media_eq rfl).trans ((hm2.media_eq rfl).trans (h1.media_eq rfl))
  have hput : s4.media.remaps[a] = s3.media.remaps[a] ++
      [{ orig := x.orig, spare := dest, active := false, zone := x.zone, zgen := (s.zoneDesc x.zone).zgen }] := vmod_same ..
  have heng4 : s4.eng = s3.eng := rfl
  have hout4 : s4.out = s3.out := rfl
  clear_value s4
  obtain ⟨hused', hcnt', hnext', hspare⟩ := s4.spareState_effect a
  refine ⟨_, rfl, ?_, ?_, ?_, ?_, ?_⟩
  · rw [hused', heng4, h3.recv_eq rfl, hused]
  · rw [hcnt', heng4, h3.recv_eq rfl, hcnt2]
  · rw [hnext', heng4, h3.recv_eq rfl, hnext]
  · rw [hspare.media_eq rfl, hput, hmedia]
  · rw [hspare.out_eq rfl, hout4, h3.out_eq rfl, hm2.out_eq rfl]
    exact hout

theorem State.addDefect_remaps (s : State) (a : Eng) (kind : Nat) (p : SectorAt) : (s.addDefect a kind p).nor.remaps = s.nor.remaps := by
  unfold State.addDefect
  extract_lets put s1
  have h1 : s1.nor.remaps = s.nor.remaps := rfl
  clear_value s1
  refine Eq.trans ?_ h1
  split
  · refine Kept.ite (g := fun s => s.nor.remaps) ?_ .refl
    exact (Moves.behind ((State.saturated_moves ..).widen (by decide)) ((State.modMap_moves ..).widen (by decide)) : Moves [.trc, .evr, .map] s1 _).keptNor rfl _
  · rfl

theorem completes_remapActivate (s : State) (a : Eng) (n : Nat) (x : Realloc) (hx : (s.eng[a].recv.reallocs.filter (·.placed))[n]? = some x) :
    Completes (exec (.remapActivate a n) s) fun t =>
      t.eng[a].recv.reallocs = s.eng[a].recv.reallocs.erase x ∧
      t.nor.remaps[a] = s.nor.remaps[a].map (fun m => if m.orig = x.orig ∧ m.spare = x.dest then { m with active := true } else m) := by
  show Completes (execRemapActivate a n s) _
  unfold execRemapActivate
  rw [hx]
  dsimp -zeta only
  extract_lets on s1 s2 s3
  have h1 : s1.eng[a].recv.reallocs = s.eng[a].recv.reallocs.erase x := congrArg Recovery.reallocs (State.modRec_same ..)
  have h2 : s2.eng = s1.eng := rfl
  have h2' : s2.nor.remaps[a] = s.nor.remaps[a].map (fun m => if m.orig = x.orig ∧ m.spare = x.dest then { m with active := true } else m) :=
    vmod_same ..
  clear_value s2 s1
  have h3 : Moves [.free, .trc, .media, .host, .evr, .nor, .out, .zdc] s2 s3 := State.setZone_moves ..
  have h3' : Kept (fun s => s.nor.remaps) s2 s3 := s2.setZone_keptNor ⟨fun _ _ => rfl, fun _ _ => rfl⟩ x.zone _
  clear_value s3
  have hend := s3.addDefect_moves a 1 x.orig
  have hremaps : (s3.addDefect a 1 x.orig).nor.remaps = s2.nor.remaps := (s3.addDefect_remaps a 1 x.orig).trans h3'
  refine ⟨_, rfl, ?_, (congrArg (fun v : Vector (List Remap) 4 => v[a]) hremaps).trans h2'⟩
  rw [hend.recv_eq rfl, h3.recv_eq rfl, h2, h1]

/-- Settles O27: the decoder pool's engines and requests, the jobs of the ladder with their guard timer, and reallocation. -/
theorem poolAndLadder : Obligations.PoolAndLadder :=
  ⟨completes_decoderRequest, completes_decoderArbitration, completes_decoderArbitration_none,
    fun _ _ hheld hnext => ⟨_, execDecoderArbitration_of_reserved hheld hnext, vmod_same .., rfl⟩,
    completes_decoderEngineFail, completes_recoveryJobOpen, completes_retainedStreamCopyDone, completes_ladderTry, completes_captureComplete,
    completes_deepDecodeDone, completes_guardTimerExpiry, completes_reallocate, completes_remapActivate⟩

end Sys2Proof.Machine
end

section
/-! SUPPORT. Memory at work: the controller memory buffer, arbitration, write-backs, scrubbing and repair (17_memory_ecc.md). -/

namespace Sys2Proof.Machine
open Sys2Proof
set_option Elab.async false

/-! ### Reading and writing words of DDR4 (R562–R565) -/

theorem Moves.afterEvent_mem {s t : State} (h : Moves [.trc, .mem, .evr] s t) : t = ({ s with mem := t.mem } : State).afterEvent t :=
  h.eq_of_parts rfl fun x => by cases x <;> first | rfl | exact fun _ => rfl

theorem Moves.only_mem {s t : State} (h : Moves [.mem] s t) : t = { s with mem := t.mem } :=
  h.eq_of_parts rfl fun x => by cases x <;> first | rfl | exact fun _ => rfl

section
variable (s : State)

/-- A word of DDR4 that fails again marks its row, not a row of processor memory. -/
theorem State.hardCe_dramMoves (c : Fin 2) (w : Nat) (synd : Byte) : Moves [.mem] s (s.hardCe (c.val, w) synd) := by
  unfold State.hardCe
  rw [fin?_of_lt (c := c) rfl]
  extract_lets n s1
  exact .ite ((State.markRow_moves ..).behind (State.modMem_moves _ _ (fun _ => rfl) fun _ => rfl)) (.refl ..)

theorem State.hardUe_dramMoves (c : Fin 2) (w : Nat) : Moves [.mem] s (s.hardUe (c.val, w)) := by
  unfold State.hardUe
  rw [fin?_of_lt (c := c) rfl]
  exact .ite ((State.markRow_moves ..).behind (State.modMem_moves _ _ (fun _ => rfl) fun _ => rfl)) (State.modMem_moves _ _ (fun _ => rfl) fun _ => rfl)

theorem State.readWord_dramMoves (w : Nat) (part : Bool) : Moves [.trc, .mem, .evr] s (s.readWord w part).2 := by
  have hue (t : State) (c : Fin 2) (x : Nat) (r : MemRegion) (log : EccLog) (e : Bool) :
      Moves [.trc, .mem, .evr] t ((t.countUe r log e).hardUe (c.val, x)) :=
    (t.countUe_moves r log e).trans ((State.hardUe_dramMoves _ c x).widen (by decide))
  unfold State.readWord
  extract_lets v c key r log waiting s1 s2
  have h1 : Moves [.trc, .mem, .evr] s s1 := State.countCe_moves ..
  have h2 : Moves [.mem] s1 s2 := .ite (.refl ..) ((State.modChan_moves ..).behind (s1.hardCe_dramMoves ..))
  clear_value s2 s1
  split
  · exact .refl ..
  · split
    · exact .refl ..
    · exact h1.trans (h2.widen (by decide))
    · exact hue ..
    · exact hue ..

/-- A word without error reads and changes nothing. -/
theorem State.readWord_of_none {w : Nat} (part : Bool) (h : (Memory.read s.mem.dram w).kind = .none) :
    s.readWord w part = (Memory.read s.mem.dram w, s) := by
  unfold State.readWord
  extract_lets v c key r log
  split
  · rfl
  · rw [show v.kind = .none from h]

theorem State.writeBytes_dramMoves (w off : Nat) (bytes : List Byte) : Moves [.trc, .mem, .evr] s (s.writeBytes w off bytes) := by
  have hput (t : State) (v : EccWord) (full : Bool) : Moves [.trc, .mem, .evr] t (t.putWord w v full) := (State.putWord_moves ..).widen (by decide)
  have hcount (t : State) : Moves [.trc, .mem, .evr] t (t.modMem fun m => { m with poisonCnt := satAdd 32 m.poisonCnt 1 }) :=
    Moves.widen (m := [.mem]) (State.modMem_moves _ _ (fun _ => rfl) fun _ => rfl) (by decide)
  unfold State.writeBytes
  split
  · exact hput ..
  · have hread := s.readWord_dramMoves w true
    split
    next v t hpair =>
      rw [hpair] at hread
      extract_lets d
      exact .ite (hread.trans ((hput ..).trans (hcount _))) (hread.trans (hput ..))

theorem State.writeRange_dramMoves (addr : Nat) (bytes : List Byte) (n : Nat) : Moves [.trc, .mem, .evr] s (s.writeRange addr bytes n) := by
  induction n generalizing s addr bytes with
  | zero => exact .refl ..
  | succ n ih =>
    unfold State.writeRange
    extract_lets off now
    exact .ite (.refl ..) ((s.writeBytes_dramMoves ..).trans (ih ..))

/-- Eight bytes of a whole word are one word stored anew. -/
theorem State.writeRange_word {addr : Nat} {bytes : List Byte} (haddr : addr % 8 = 0) (hlen : bytes.length = 8) :
    s.writeRange addr bytes (bytes.length + 1) = s.putWord (addr / 8) (EccWord.fresh (mergeBytes 0 0 bytes)) true := by
  have hne : ¬ bytes.isEmpty = true := fun h => by
    rw [List.isEmpty_iff.mp h] at hlen
    exact absurd hlen (by decide)
  have htake : bytes.take (8 - addr % 8) = bytes := by
    rw [haddr]
    exact List.take_of_length_le (by omega)
  have hdrop : bytes.drop (8 - addr % 8) = [] := by
    rw [haddr]
    exact List.drop_of_length_le (by omega)
  have hbytes : s.writeBytes (addr / 8) (addr % 8) bytes = s.putWord (addr / 8) (EccWord.fresh (mergeBytes 0 0 bytes)) true := if_pos hlen
  rw [State.writeRange, if_neg hne]
  dsimp only
  rw [htake, hdrop, hbytes, hlen, State.writeRange]
  exact if_pos rfl

end

/-- A channel but for the rows it marks and the write-backs it owes: its requests, their losses and the clocks it was busy. -/
def Channel.turn (x : Channel) : Channel := { x with marked := [], writebacks := [] }

/-- The memory block but for what reading and writing words of DDR4 touches. -/
def MemBlock.quiet (m : MemBlock) : MemBlock :=
  { m with
    dram := [], bkt := Vector.replicate 15 {}, irq := 0, lastCe := {}, ueHead := 0, ueLog := Vector.replicate 16 {}, history := [], ueHist := []
    repairBusy := false, poisonCnt := 0, chan := m.chan.map Channel.turn }

theorem State.modChan_same (s : State) (c : Fin 2) (f : Channel → Channel) : (s.modChan c f).mem.chan[c] = f s.mem.chan[c] := vmod_same ..

theorem State.modChan_other (s : State) {c d : Fin 2} (f : Channel → Channel) (h : c ≠ d) : (s.modChan c f).mem.chan[d] = s.mem.chan[d] := vmod_other _ _ h

theorem Moves.quiet {m : List Part} {s t : State} (h : Moves m s t) (hm : m.contains .mem = false) : Kept (fun s => s.mem.quiet) s t :=
  congrArg MemBlock.quiet (h.mem_eq hm)

theorem State.turn_of_quiet {s t : State} (h : t.mem.quiet = s.mem.quiet) (c : Fin 2) : t.mem.chan[c].turn = s.mem.chan[c].turn := by
  have hc := congrArg (fun m : MemBlock => m.chan[c]) h
  simpa [MemBlock.quiet] using hc

section
variable (s : State)

theorem State.modMem_quiet (f : MemBlock → MemBlock) (h : ∀ m, (f m).quiet = m.quiet) : Kept (fun s => s.mem.quiet) s (s.modMem f) := h s.mem

theorem State.modChan_quiet (c : Fin 2) (f : Channel → Channel) (h : ∀ x, (f x).turn = x.turn) : Kept (fun s => s.mem.quiet) s (s.modChan c f) := by
  have hchan : (vmod s.mem.chan c f).map Channel.turn = s.mem.chan.map Channel.turn := by
    ext k hk : 1
    rw [Vector.getElem_map, Vector.getElem_map, vmod_get]
    split
    · subst k
      exact h _
    · rfl
  exact congrArg (fun v => { s.mem.quiet with chan := v }) hchan

theorem State.fillBucket_quiet (r : MemRegion) (n : Nat) : Kept (fun s => s.mem.quiet) s (s.fillBucket r n) := by
  unfold State.fillBucket
  extract_lets b s1 s2
  have h1 : Kept (fun s => s.mem.quiet) s s1 := s.modMem_quiet _ fun _ => rfl
  have h2 : Kept (fun s => s.mem.quiet) s1 s2 := .trans (s1.modMem_quiet _ fun _ => rfl) (State.modMem_quiet _ _ fun _ => rfl)
  exact .ite (h1.trans (h2.trans (s2.condMem_moves.quiet rfl))) h1

theorem State.countCe_quiet (r : MemRegion) (log : EccLog) : Kept (fun s => s.mem.quiet) s (s.countCe r log) := by
  unfold State.countCe
  extract_lets s1
  have h1 : Kept (fun s => s.mem.quiet) s s1 := .trans (s.modMem_quiet _ fun _ => rfl) (State.modMem_quiet _ _ fun _ => rfl)
  exact h1.trans (s1.fillBucket_quiet ..)

theorem State.countUe_quiet (r : MemRegion) (log : EccLog) (event : Bool) : Kept (fun s => s.mem.quiet) s (s.countUe r log event) := by
  unfold State.countUe
  extract_lets n s1 s2
  have h1 : Kept (fun s => s.mem.quiet) s s1 := .trans (s.modMem_quiet _ fun _ => rfl) (State.modMem_quiet _ _ fun _ => rfl)
  have h2 : Kept (fun s => s.mem.quiet) s1 s2 := (State.saturated_moves ..).quiet rfl
  exact h1.trans (h2.trans (.ite (s2.condMem_moves.quiet rfl) .refl))

theorem State.markRow_quiet (c : Fin 2) (w : Nat) (dies : List Nat) : Kept (fun s => s.mem.quiet) s (s.markRow c w dies) := by
  unfold State.markRow
  extract_lets l
  refine Kept.trans (s.modChan_quiet c _ ?_) (State.modMem_quiet _ _ ?_)
  · exact fun _ => rfl
  · exact fun _ => rfl

theorem State.hardCe_quiet (c : Fin 2) (w : Nat) (synd : Byte) : Kept (fun s => s.mem.quiet) s (s.hardCe (c.val, w) synd) := by
  unfold State.hardCe
  rw [fin?_of_lt (c := c) rfl]
  exact .ite (.trans (State.modMem_quiet _ _ fun _ => rfl) (State.markRow_quiet ..)) .refl

theorem State.hardUe_quiet (c : Fin 2) (w : Nat) : Kept (fun s => s.mem.quiet) s (s.hardUe (c.val, w)) := by
  unfold State.hardUe
  rw [fin?_of_lt (c := c) rfl]
  exact .ite (.trans (State.modMem_quiet _ _ fun _ => rfl) (State.markRow_quiet ..)) (State.modMem_quiet _ _ fun _ => rfl)

theorem State.readWord_quiet (w : Nat) (part : Bool) : Kept (fun s => s.mem.quiet) s (s.readWord w part).2 := by
  have hue (t : State) (c : Fin 2) (x : Nat) (r : MemRegion) (log : EccLog) (e : Bool) :
      Kept (fun s => s.mem.quiet) t ((t.countUe r log e).hardUe (c.val, x)) :=
    (t.countUe_quiet r log e).trans (State.hardUe_quiet _ c x)
  unfold State.readWord
  extract_lets v c key r log waiting s1 s2
  have h1 : Kept (fun s => s.mem.quiet) s s1 := s.countCe_quiet ..
  have h2 : Kept (fun s => s.mem.quiet) s1 s2 := .ite .refl (.trans (State.hardCe_quiet ..) (State.modChan_quiet _ _ _ fun _ => rfl))
  clear_value s2 s1
  split
  · exact .refl
  · split
    · exact .refl
    · exact h1.trans h2
    · exact hue ..
    · exact hue ..

theorem State.putWord_quiet (w : Nat) (v : EccWord) (full : Bool) : Kept (fun s => s.mem.quiet) s (s.putWord w v full) := by
  unfold State.putWord
  exact .trans (State.modMem_quiet _ _ fun _ => rfl) (State.modChan_quiet _ _ _ fun _ => rfl)

theorem State.writeBytes_quiet (w off : Nat) (bytes : List Byte) : Kept (fun s => s.mem.quiet) s (s.writeBytes w off bytes) := by
  have hcount (t : State) : Kept (fun s => s.mem.quiet) t (t.modMem fun m => { m with poisonCnt := satAdd 32 m.poisonCnt 1 }) := rfl
  unfold State.writeBytes
  split
  · exact s.putWord_quiet ..
  · have hread := s.readWord_quiet w true
    split
    next v t hpair =>
      rw [hpair] at hread
      extract_lets d
      exact .ite (hread.trans ((t.putWord_quiet ..).trans (hcount _))) (hread.trans (t.putWord_quiet ..))

theorem State.writeRange_quiet (addr : Nat) (bytes : List Byte) (n : Nat) : Kept (fun s => s.mem.quiet) s (s.writeRange addr bytes n) := by
  induction n generalizing s addr bytes with
  | zero => exact .refl
  | succ n ih =>
    unfold State.writeRange
    extract_lets off now
    exact .ite .refl ((s.writeBytes_quiet ..).trans (ih ..))

end

/-! ### The controller memory buffer (R462, R566, R567, R570) -/

theorem completes_cmbWrite_word (s : State) (f : Fn) (off : Nat) (bytes : List Byte) (b n : Nat) (hcmb : s.cmbOf f = some (b, n))
    (hpres : s.host.fns[f].present = true) (hon : s.cmbOn f = true) (hfit : off + bytes.length ≤ n) (hrefill : s.mem.refill.contains f = false)
    (hoff : off % 8 = 0) (hlen : bytes.length = 8) (hwf : Memory.wf s.mem.dram = true) :
    Completes (exec (.cmbWrite f off bytes) s) fun t =>
      Memory.read t.mem.dram ((b + off) / 8) = EccWord.fresh (mergeBytes 0 0 bytes) ∧
      (∀ w, w ≠ (b + off) / 8 → Memory.read t.mem.dram w = Memory.read s.mem.dram w) ∧
      Memory.wf t.mem.dram = true ∧ t = { s with mem := t.mem } := by
  have hb : b % 8 = 0 := by
    unfold State.cmbOf at hcmb
    split at hcmb
    · cases hcmb
      omega
    · split at hcmb
      · cases hcmb
        omega
      · cases hcmb
  let u := s.putWord ((b + off) / 8) (EccWord.fresh (mergeBytes 0 0 bytes)) true
  refine ⟨u.burst (wordChan ((b + off) / 8)), ?_, ?_⟩
  · show execCmbWrite f off bytes s = _
    unfold execCmbWrite
    rw [hcmb]
    dsimp only
    rw [if_neg (by rw [hpres, hon, decide_eq_false (Nat.not_lt.mpr hfit)] <;> decide), if_neg (by rw [hrefill] <;> decide), s.writeRange_word (by omega) hlen]
  · have hm : Moves [.mem] s u := State.putWord_moves ..
    obtain ⟨hread, hother⟩ := State.putWord_read hwf ((b + off) / 8) (EccWord.fresh (mergeBytes 0 0 bytes)) true
    exact ⟨hread, hother, hm.dram hwf, rfl⟩

theorem completes_cmbWrite_deferred (s : State) (f : Fn) (off : Nat) (bytes : List Byte) (b n : Nat) (hcmb : s.cmbOf f = some (b, n))
    (hpres : s.host.fns[f].present = true) (hon : s.cmbOn f = true) (hfit : off + bytes.length ≤ n) (hrefill : s.mem.refill.contains f = true) :
    Completes (exec (.cmbWrite f off bytes) s) fun t =>
      t = { s with mem := { s.mem with deferred := s.mem.deferred ++ [(f, off, bytes)] } } := by
  refine ⟨s.modMem fun m => { m with deferred := m.deferred ++ [(f, off, bytes)] }, ?_, rfl⟩
  show execCmbWrite f off bytes s = _
  unfold execCmbWrite
  rw [hcmb]
  dsimp only
  rw [if_neg (by rw [hpres, hon, decide_eq_false (Nat.not_lt.mpr hfit)] <;> decide), if_pos hrefill]

/-- What a read of the controller memory buffer collects of one word: the state, whether a word was bad, and the words. -/
def cmbReadStep (x : State × Bool × List Word) (w : Nat) : State × Bool × List Word :=
  let (v, s') := x.1.readWord w false
  (s', x.2.1 || v.kind.bad, x.2.2 ++ lohi v.value.toNat)

theorem EccWord.value_of_none {v : EccWord} (h : v.kind = .none) : v.value = v.data := by
  unfold EccWord.value
  rw [h]

theorem cmbReadStep_foldl_clean (l : List Nat) (s : State) (acc : List Word) (h : ∀ w ∈ l, (Memory.read s.mem.dram w).kind = .none) :
    l.foldl cmbReadStep (s, false, acc) = (s, false, acc ++ l.flatMap fun w => lohi (Memory.read s.mem.dram w).data.toNat) := by
  induction l generalizing acc with
  | nil => simp
  | cons w l ih =>
    have hw := h w (List.mem_cons_self ..)
    have hstep : cmbReadStep (s, false, acc) w = (s, false, acc ++ lohi (Memory.read s.mem.dram w).data.toNat) := by
      unfold cmbReadStep
      rw [s.readWord_of_none false hw]
      dsimp only
      rw [EccWord.value_of_none hw, hw] <;> rfl
    rw [List.foldl_cons, hstep, ih _ fun x hx => h x (List.mem_cons_of_mem _ hx), List.flatMap_cons, List.append_assoc]

theorem cmbReadStep_foldl_moves (l : List Nat) (x : State × Bool × List Word) :
    Moves [.trc, .mem, .evr] x.1 (l.foldl cmbReadStep x).1 ∧ (l.foldl cmbReadStep x).1.mem.dram = x.1.mem.dram ∧
      (x.2.1 = true → (l.foldl cmbReadStep x).2.1 = true) := by
  induction l generalizing x with
  | nil => exact ⟨.refl .., rfl, id⟩
  | cons w l ih =>
    obtain ⟨hm, hd, hb⟩ := ih (cmbReadStep x w)
    refine ⟨(x.1.readWord_dramMoves w false).trans hm, hd.trans (x.1.readWord_dram w false), fun hx => hb ?_⟩
    show (x.2.1 || _) = true
    rw [hx] <;> rfl

/-- The answer to a read of the controller memory buffer, given what it collected (R462, R570). -/
def State.cmbReplied (f : Fn) (off len : Nat) (x : State × Bool × List Word) : State :=
  if x.2.1 then
    let s := x.1.modFn f fun y => { y with cmbPoisCnt := inc 16 y.cmbPoisCnt }
    let v := mkw [bf 31 16 s.host.fns[f].cmdErrCnt, bf 15 0 s.host.fns[f].cmbPoisCnt]
    let s := s.saturated (reaches 16 x.1.host.fns[f].cmbPoisCnt) 0x0D 7 f.val (0x60114 + 0x20 * f.val) v
    let s := s.violated .cmbPois f.val 7 f.val (0x60114 + 0x20 * f.val) v [nw off, nw len, 0, 0]
    s.modOut fun o => { o with tlps := (f, 3, []) :: (f, 1, []) :: o.tlps }
  else x.1.modOut fun o => { o with tlps := (f, 2, x.2.2) :: o.tlps }

/-- The words a read of the controller memory buffer reaches. -/
def cmbWords (b off len : Nat) : List Nat := (List.range ((b + off + len - 1) / 8 + 1 - (b + off) / 8)).map fun i => (b + off) / 8 + i

theorem execCmbRead_of_on {s : State} {f : Fn} {off len b n : Nat} (hcmb : s.cmbOf f = some (b, n)) (hpres : s.host.fns[f].present = true)
    (hon : s.cmbOn f = true) (hfit : 0 < len ∧ off + len ≤ n) :
    execCmbRead f off len s = .next (State.cmbReplied f off len
      ((cmbWords b off len).foldl cmbReadStep (s.burst (wordChan ((b + off) / 8)), s.mem.refill.contains f, []))) := by
  unfold execCmbRead
  rw [hcmb]
  dsimp only
  rw [if_neg (by rw [hpres, hon, decide_eq_false (Nat.not_lt.mpr hfit.2), decide_eq_false (Nat.ne_of_gt hfit.1)] <;> decide)]
  rfl

theorem completes_cmbRead (s : State) (f : Fn) (off len b n : Nat) (hcmb : s.cmbOf f = some (b, n)) (hpres : s.host.fns[f].present = true)
    (hon : s.cmbOn f = true) (hfit : 0 < len ∧ off + len ≤ n) (hrefill : s.mem.refill.contains f = false)
    (hclean : (List.range ((b + off + len - 1) / 8 + 1 - (b + off) / 8)).all
      (fun i => (Memory.read s.mem.dram ((b + off) / 8 + i)).kind == .none) = true) :
    Completes (exec (.cmbRead f off len) s) fun t =>
      t.out = { s.out with tlps := (f, 2, (List.range ((b + off + len - 1) / 8 + 1 - (b + off) / 8)).flatMap fun i =>
        lohi (Memory.read s.mem.dram ((b + off) / 8 + i)).data.toNat) :: s.out.tlps } ∧
      t.mem.dram = s.mem.dram ∧ t = { s with mem := { s.mem with chan := t.mem.chan }, out := t.out } := by
  have hwords : ∀ w ∈ cmbWords b off len, (Memory.read (s.burst (wordChan ((b + off) / 8))).mem.dram w).kind = .none := by
    intro w hw
    obtain ⟨i, hi, rfl⟩ := List.mem_map.mp hw
    exact beq_iff_eq.mp (List.all_eq_true.mp hclean i hi)
  refine ⟨_, execCmbRead_of_on hcmb hpres hon hfit, ?_⟩
  rw [hrefill, cmbReadStep_foldl_clean _ _ _ hwords]
  unfold State.cmbReplied
  rw [if_neg Bool.false_ne_true, cmbWords, List.flatMap_map, List.nil_append]
  exact ⟨rfl, rfl, rfl⟩

theorem completes_cmbRead_poison (s : State) (f : Fn) (off len b n : Nat) (hcmb : s.cmbOf f = some (b, n))
    (hpres : s.host.fns[f].present = true) (hon : s.cmbOn f = true) (hfit : 0 < len ∧ off + len ≤ n) (hrefill : s.mem.refill.contains f = true) :
    Completes (exec (.cmbRead f off len) s) fun t =>
      t.out = { s.out with tlps := (f, 3, []) :: (f, 1, []) :: s.out.tlps } ∧
      t.host.fns[f].cmbPoisCnt = inc 16 s.host.fns[f].cmbPoisCnt ∧ t.mem.dram = s.mem.dram ∧
      t = ({ s with mem := t.mem, host := t.host, out := t.out } : State).afterEvent t := by
  refine ⟨_, execCmbRead_of_on hcmb hpres hon hfit, ?_⟩
  rw [hrefill]
  obtain ⟨hmoves, hdram, hbad⟩ := cmbReadStep_foldl_moves (cmbWords b off len) (s.burst (wordChan ((b + off) / 8)), true, [])
  generalize (cmbWords b off len).foldl cmbReadStep (s.burst (wordChan ((b + off) / 8)), true, []) = x at *
  have hs : Moves [.trc, .mem, .evr] s x.1 := Moves.trans (t := s.burst (wordChan ((b + off) / 8))) ((State.modChan_moves ..).widen (by decide)) hmoves
  unfold State.cmbReplied
  rw [if_pos (hbad rfl)]
  extract_lets s1 v s2 s3
  have h1 : Moves [.trc, .host, .evr] x.1 s1 := (State.modFn_moves ..).widen (by decide)
  have h2 : Moves [.trc, .host, .evr] s1 s2 := (State.saturated_moves ..).widen (by decide)
  have h3 : Moves [.trc, .host, .evr] s2 s3 := State.violated_moves ..
  have hcnt1 : s1.host.fns[f].cmbPoisCnt = inc 16 x.1.host.fns[f].cmbPoisCnt := congrArg FnState.cmbPoisCnt (vmod_same ..)
  have hhost2 : s2.host = s1.host := (State.saturated_moves ..).host_eq rfl
  have hfns3 : s3.host.fns = s2.host.fns := State.violated_fns ..
  clear_value s3 s2 s1
  have hall : Moves [.trc, .host, .evr] x.1 s3 := h1.trans (h2.trans h3)
  have hfn : s3.host.fns[f].cmbPoisCnt = inc 16 s.host.fns[f].cmbPoisCnt := by
    rw [hfns3, hhost2, hcnt1, hs.host_eq rfl]
  have hout : s3.out = s.out := (hall.out_eq rfl).trans (hs.out_eq rfl)
  have hwhole : Moves [.trc, .mem, .evr, .host, .out] s (s3.modOut fun o => { o with tlps := (f, 3, []) :: (f, 1, []) :: o.tlps }) :=
    (hs.widen (by decide)).trans ((hall.widen (by decide)).trans ((State.modOut_moves ..).widen (by decide)))
  refine ⟨?_, hfn, ?_, hwhole.eq_of_parts rfl fun x => by cases x <;> first | rfl | exact fun _ => rfl⟩
  · rw [State.modOut_out, hout]
  · exact (congrArg MemBlock.dram (hall.mem_eq rfl)).trans hdram

theorem completes_cmbRefillDone (s : State) (f : Fn) (hrefill : s.mem.refill.contains f = true) :
    Completes (exec (.cmbRefillDone f) s) fun t =>
      t.mem.refill = s.mem.refill.filter (· ≠ f) ∧ t.mem.deferred = s.mem.deferred.filter (fun d => d.1 ≠ f) ∧
      ((s.mem.deferred.all fun d => d.1 != f) = true → t.mem.dram = s.mem.dram) ∧ t = ({ s with mem := t.mem } : State).afterEvent t := by
  show Completes (execCmbRefillDone f s) _
  unfold execCmbRefillDone
  rw [if_pos hrefill]
  extract_lets l u
  have hu : Moves [.mem] s u := State.modMem_moves _ _ (fun _ => rfl) fun _ => rfl
  have hdone (t : State) (hm : Moves [.trc, .mem, .evr] u t) (hq : Kept (fun s => s.mem.quiet) u t) (hd : l = [] → t = u) :
      t.mem.refill = s.mem.refill.filter (· ≠ f) ∧ t.mem.deferred = s.mem.deferred.filter (fun d => d.1 ≠ f) ∧
      ((s.mem.deferred.all fun d => d.1 != f) = true → t.mem.dram = s.mem.dram) ∧ t = ({ s with mem := t.mem } : State).afterEvent t := by
    refine ⟨congrArg MemBlock.refill hq, congrArg MemBlock.deferred hq, fun hnone => ?_, ((hu.widen (by decide)).trans hm).afterEvent_mem⟩
    have hl : l = [] := List.filter_eq_nil_iff.mpr fun d hd => by
      have := List.all_eq_true.mp hnone d hd
      simpa using this
    rw [hd hl] <;> rfl
  refine ⟨_, rfl, ?_⟩
  split
  · exact hdone u (.refl ..) .refl fun _ => rfl
  next b n _ =>
    refine hdone _ (.fold _ _ _ fun s d => s.writeRange_dramMoves ..) (.fold _ _ _ fun s d => s.writeRange_quiet ..) fun hl => ?_
    rw [hl] <;> rfl

/-! ### Arbitration (R194, R561) -/

theorem State.disturb_quiet (s : State) (w : Nat) (e : BitErrors) : Kept (fun s => s.mem.quiet) s (s.disturb w e) := rfl

theorem State.disturbs_dram (l : List BitErrors) (k : Nat) {s t : State} (h : t.mem.dram = s.mem.dram) :
    (l.foldl (fun u e => u.disturb (k + e.word.val) e) t).mem.dram = (l.foldl (fun u e => u.disturb (k + e.word.val) e) s).mem.dram := by
  induction l generalizing s t with
  | nil => exact h
  | cons e l ih =>
    refine ih ?_
    show Memory.write t.mem.dram _ _ = Memory.write s.mem.dram _ _
    rw [h]

/-- What a burst of a read does with one word of its eight. -/
def State.burstStep (q : DramReq) (s : State) (i : Nat) : State :=
  let w := q.addr / 8 + i
  let (v, s') := s.readWord w false
  if v.kind.bad && q.who != 9 && !inWindow w then s'.dramLost w else s'

theorem State.burstStep_of_good {s : State} {q : DramReq} {i : Nat} (h : (Memory.read s.mem.dram (q.addr / 8 + i)).kind.bad = false) :
    s.burstStep q i = (s.readWord (q.addr / 8 + i) false).2 := by
  have hfst := s.readWord_fst (q.addr / 8 + i) false
  unfold State.burstStep
  extract_lets w
  split
  next v t hpair =>
    rw [hpair] at hfst ⊢
    have hv : v.kind.bad = false := by
      rw [show v = _ from hfst]
      exact h
    exact if_neg (by rw [hv]; exact Bool.false_ne_true)

theorem State.burstStep_foldl (q : DramReq) (l : List Nat) (s : State) (h : ∀ i ∈ l, (Memory.read s.mem.dram (q.addr / 8 + i)).kind.bad = false) :
    Moves [.trc, .mem, .evr] s (l.foldl (State.burstStep q) s) ∧ (l.foldl (State.burstStep q) s).mem.dram = s.mem.dram ∧
      (l.foldl (State.burstStep q) s).mem.quiet = s.mem.quiet := by
  induction l generalizing s with
  | nil => exact ⟨.refl .., rfl, rfl⟩
  | cons i l ih =>
    have hstep := State.burstStep_of_good (h i (List.mem_cons_self ..))
    have hdram : (s.burstStep q i).mem.dram = s.mem.dram := by rw [hstep, s.readWord_dram]
    obtain ⟨hm, hd, hq⟩ := ih (s.burstStep q i) fun j hj => by
      rw [hdram]
      exact h j (List.mem_cons_of_mem _ hj)
    refine ⟨.trans ?_ hm, hd.trans hdram, hq.trans ?_⟩
    · rw [hstep]
      exact s.readWord_dramMoves ..
    · rw [hstep]
      exact s.readWord_quiet ..

/-- The channel that serves a request: its requests, the owner of the turn, its losses and their promotions (R194). -/
def State.served (s : State) (c : Fin 2) (q : DramReq) : State :=
  let y := s.mem.chan[c]
  let rest := y.pending.erase q
  let m := s.mem
  let lost := fun (r : Nat) => r != q.who && rest.any fun y => y.who == r
  let loss := fun (r : Fin 10) => if r.val = q.who then 0 else if lost r.val then satAdd 8 y.loss[r] 1 else y.loss[r]
  s.modChan c fun x =>
    { x with
      pending := rest, owner := q.who, busy := wrapAdd 32 x.busy 1
      loss := Vector.ofFn loss
      promoted := Vector.ofFn fun (r : Fin 10) =>
        if r.val = q.who then none
        else
          let thr := m.starveThr (m.level r.val)
          if x.promoted[r].isNone && lost r.val && decide (0 < thr ∧ thr ≤ loss r) then some s.mtime else x.promoted[r] }

theorem execDramArbitration_of_best {s : State} {c : Fin 2} {asks : List DramAsk} {q : DramReq} (errs : List BitErrors)
    (h : (s.askDram c asks).mem.best c = some q) :
    execDramArbitration ⟨c, asks, errs⟩ s = .next (((s.askDram c asks).served c q).serveBurst q errs) := by
  unfold execDramArbitration
  dsimp -zeta only
  extract_lets c' u
  rw [show u.mem.best c' = some q from h]
  rfl

theorem State.served_turn (s : State) (c : Fin 2) (asks : List DramAsk) (q : DramReq) {t : State}
    (h : t.mem.quiet = ((s.askDram c asks).served c q).mem.quiet) :
    t.mem.chan[c].pending = (s.askDram c asks).mem.chan[c].pending.erase q ∧ t.mem.chan[c].owner = q.who ∧
    t.mem.chan[c].busy = wrapAdd 32 s.mem.chan[c].busy 1 ∧
    (∀ r : Fin 10, t.mem.chan[c].loss[r] =
      if r.val = q.who then 0
      else if ((s.askDram c asks).mem.chan[c].pending.erase q).any (fun y => y.who == r.val) then satAdd 8 s.mem.chan[c].loss[r] 1
      else s.mem.chan[c].loss[r]) := by
  have hask : (s.askDram c asks).mem.chan[c] = _ := s.modChan_same c _
  have hserved : ((s.askDram c asks).served c q).mem.chan[c] = _ := State.modChan_same _ c _
  have hturn := State.turn_of_quiet h c
  rw [hserved] at hturn
  have hbusy : (s.askDram c asks).mem.chan[c].busy = s.mem.chan[c].busy := by rw [hask]
  have hloss : (s.askDram c asks).mem.chan[c].loss = s.mem.chan[c].loss := by rw [hask]
  refine ⟨(congrArg Channel.pending hturn :), (congrArg Channel.owner hturn :), (congrArg Channel.busy hturn :).trans (by rw [← hbusy] <;> rfl), fun r => ?_⟩
  have hl : t.mem.chan[c].loss = Vector.ofFn fun (r : Fin 10) => if r.val = q.who then 0
      else if (r.val != q.who && ((s.askDram c asks).mem.chan[c].pending.erase q).any fun y => y.who == r.val) then
        satAdd 8 s.mem.chan[c].loss[r] 1 else s.mem.chan[c].loss[r] := by
    rw [← hloss]
    exact (congrArg Channel.loss hturn :)
  rw [hl]
  refine (Vector.getElem_ofFn ..).trans ?_
  by_cases hr : r.val = q.who
  · rw [if_pos hr, if_pos hr]
  · rw [if_neg hr, if_neg hr, bne_iff_ne.mpr hr, Bool.true_and]

theorem completes_dramArbitration (s : State) (c : Fin 2) (asks : List DramAsk) (errs : List BitErrors) (q : DramReq)
    (hbest : (s.askDram c asks).mem.best c = some q) (hread : q.data = none)
    (hgood : (List.range 8).all (fun i => !(Memory.read (errs.foldl (fun u e => u.disturb (q.addr / 8 + e.word.val) e) s).mem.dram
      (q.addr / 8 + i)).kind.bad) = true) :
    Completes (exec (.dramArbitration ⟨c, asks, errs⟩) s) fun t =>
      t.mem.chan[c].pending = (s.askDram c asks).mem.chan[c].pending.erase q ∧ t.mem.chan[c].owner = q.who ∧
      t.mem.chan[c].busy = wrapAdd 32 s.mem.chan[c].busy 1 ∧
      t.mem.dram = (errs.foldl (fun u e => u.disturb (q.addr / 8 + e.word.val) e) s).mem.dram ∧
      (∀ r : Fin 10, t.mem.chan[c].loss[r] =
        if r.val = q.who then 0
        else if ((s.askDram c asks).mem.chan[c].pending.erase q).any (fun y => y.who == r.val) then satAdd 8 s.mem.chan[c].loss[r] 1
        else s.mem.chan[c].loss[r]) ∧
      t = ({ s with mem := t.mem } : State).afterEvent t := by
  let u := (s.askDram c asks).served c q
  let v := errs.foldl (fun u e => u.disturb (q.addr / 8 + e.word.val) e) u
  have hdram : v.mem.dram = (errs.foldl (fun u e => u.disturb (q.addr / 8 + e.word.val) e) s).mem.dram := State.disturbs_dram _ _ rfl
  obtain ⟨hmoves, hkept, hquiet⟩ := State.burstStep_foldl q (List.range 8) v fun i hi => by
    have := List.all_eq_true.mp hgood i hi
    rw [hdram]
    simpa using this
  have hburst : u.serveBurst q errs = (List.range 8).foldl (State.burstStep q) v := by
    unfold State.serveBurst
    rw [hread]
    rfl
  have hsu : Moves [.mem] s u := (State.askDram_moves ..).trans (State.modChan_moves ..)
  have huv : Moves [.mem] u v := .fold _ _ _ fun s e => State.disturb_moves ..
  have hquiet' : Kept (fun s => s.mem.quiet) u v := .fold _ _ _ fun s e => s.disturb_quiet ..
  obtain ⟨hpend, howner, hbusy, hloss⟩ := s.served_turn c asks q (hquiet.trans hquiet')
  refine ⟨_, execDramArbitration_of_best errs hbest, ?_⟩
  rw [show ((s.askDram c asks).served c q).serveBurst q errs = _ from hburst]
  exact ⟨hpend, howner, hbusy, hkept.trans hdram, hloss, (((hsu.trans huv).widen (by decide)).trans hmoves).afterEvent_mem⟩

theorem completes_dramArbitration_write (s : State) (c : Fin 2) (asks : List DramAsk) (q : DramReq) (off : Nat) (bytes : List Byte)
    (hbest : (s.askDram c asks).mem.best c = some q) (hdata : q.data = some (off, bytes)) (haddr : (q.addr + off) % 8 = 0) (hlen : bytes.length = 8)
    (hwf : Memory.wf s.mem.dram = true) :
    Completes (exec (.dramArbitration ⟨c, asks, []⟩) s) fun t =>
      t.mem.chan[c].pending = (s.askDram c asks).mem.chan[c].pending.erase q ∧ t.mem.chan[c].owner = q.who ∧
      t.mem.chan[c].busy = wrapAdd 32 s.mem.chan[c].busy 1 ∧
      Memory.read t.mem.dram ((q.addr + off) / 8) = EccWord.fresh (mergeBytes 0 0 bytes) ∧
      (∀ w, w ≠ (q.addr + off) / 8 → Memory.read t.mem.dram w = Memory.read s.mem.dram w) ∧
      Memory.wf t.mem.dram = true ∧ t = { s with mem := t.mem } := by
  let u := (s.askDram c asks).served c q
  let v := u.putWord ((q.addr + off) / 8) (EccWord.fresh (mergeBytes 0 0 bytes)) true
  have hburst : u.serveBurst q [] = v := by
    unfold State.serveBurst
    rw [hdata]
    exact u.writeRange_word haddr hlen
  have hsu : Moves [.mem] s u := (State.askDram_moves ..).trans (State.modChan_moves ..)
  have huv : Moves [.mem] u v := State.putWord_moves ..
  obtain ⟨hpend, howner, hbusy, -⟩ := s.served_turn c asks q (t := v) (u.putWord_quiet ..)
  obtain ⟨hread, hother⟩ := State.putWord_read (s := u) hwf ((q.addr + off) / 8) (EccWord.fresh (mergeBytes 0 0 bytes)) true
  refine ⟨_, execDramArbitration_of_best [] hbest, ?_⟩
  rw [show ((s.askDram c asks).served c q).serveBurst q [] = _ from hburst]
  exact ⟨hpend, howner, hbusy, hread, hother, huv.dram hwf, (hsu.trans huv).only_mem⟩

theorem completes_dramArbitration_idle (s : State) (c : Fin 2) (errs : List BitErrors) (hbest : s.mem.best c = none) :
    Completes (exec (.dramArbitration ⟨c, [], errs⟩) s) fun t => t = s := by
  have hask : s.askDram c [] = s := by
    have hchan : vmod s.mem.chan c (fun x => { x with pending := x.pending ++ [] }) = s.mem.chan := vmod_id _ _ (by rw [List.append_nil])
    exact congrArg (fun v => { s with mem := { s.mem with chan := v } }) hchan
  refine ⟨s, ?_, rfl⟩
  show execDramArbitration ⟨c, [], errs⟩ s = _
  unfold execDramArbitration
  dsimp -zeta only
  extract_lets c' u
  have hu : u = s := hask
  rw [show u.mem.best c' = none by rw [hu]; exact hbest]
  exact congrArg Host.Outcome.next hu

/-! ### Write-backs, refresh, buckets and scrubbing (R560, R565, R571, R572) -/

theorem completes_eccWriteback (s : State) (c : Fin 2) (w : Nat) (v : EccWord) (hhead : s.mem.chan[c].writebacks.head? = some (w, v))
    (hwf : Memory.wf s.mem.dram = true) :
    Completes (exec (.eccWriteback c) s) fun t =>
      Memory.read t.mem.dram w = v ∧ (∀ i, i ≠ w → Memory.read t.mem.dram i = Memory.read s.mem.dram i) ∧
      Memory.wf t.mem.dram = true ∧ t = { s with mem := t.mem } := by
  obtain ⟨l, hl⟩ : ∃ l, s.mem.chan[c].writebacks = (w, v) :: l := List.head?_eq_some_iff.mp hhead
  obtain ⟨hread, hother⟩ := State.putWord_read hwf w v false
  have hput : Moves [.mem] s (s.putWord w v false) := State.putWord_moves ..
  have hwf' := hput.dram hwf
  have hrun : execEccWriteback c s = .next (((s.putWord w v false).notedBack (c.val, chanWord w)).burst c) := by
    unfold execEccWriteback
    rw [hl]
  generalize s.putWord w v false = u at hread hother hput hwf' hrun
  have hall : Moves [.mem] s ((u.notedBack (c.val, chanWord w)).burst c) :=
    hput.trans (.trans (t := u.notedBack (c.val, chanWord w)) (State.modMem_moves _ _ (fun _ => rfl) fun _ => rfl) (State.modChan_moves ..))
  exact ⟨_, hrun, hread, hother, hwf', hall.only_mem⟩

/-- The refresh rate doubles above 85 °C and falls back below 82 °C. -/
theorem refresh2x_eq (d : Int) (on : Bool) :
    (if 85 * 16 < d then true else if d < 82 * 16 then false else on) = (decide (1360 < d) || (on && decide (1312 ≤ d))) := by
  norm_num only
  by_cases hhot : 1360 < d
  · rw [if_pos hhot, decide_eq_true hhot, Bool.true_or]
  · rw [if_neg hhot, decide_eq_false hhot, Bool.false_or]
    by_cases hcool : d < 1312
    · rw [if_pos hcool, decide_eq_false (Int.not_le.mpr hcool), Bool.and_false]
    · rw [if_neg hcool, decide_eq_true (Int.not_lt.mp hcool), Bool.and_true]

theorem completes_dramRefresh (s : State) (c : Fin 2) :
    Completes (exec (.dramRefresh c) s) fun t =>
      t.mem.chan[c] = { s.mem.chan[c] with
        refreshes := s.mem.chan[c].refreshes + 1
        refresh2x := decide (1360 < s.lpe.temps[(7 : Fin 8)]) || (s.mem.chan[c].refresh2x && decide (1312 ≤ s.lpe.temps[(7 : Fin 8)])) } ∧
      (∀ d : Fin 2, c ≠ d → t.mem.chan[d] = s.mem.chan[d]) ∧ t = { s with mem := { s.mem with chan := t.mem.chan } } := by
  refine ⟨_, rfl, (State.modChan_same ..).trans ?_, fun d hd => State.modChan_other _ _ hd, rfl⟩
  exact congrArg (fun b => { s.mem.chan[c] with refreshes := s.mem.chan[c].refreshes + 1, refresh2x := b }) (refresh2x_eq ..)

theorem completes_bucketLeak (s : State) (r : MemRegion) :
    Completes (exec (.bucketLeak r) s) fun t =>
      t.mem.bkt[r] = { s.mem.bkt[r] with
        level := s.mem.bkt[r].level - 1, ovf := s.mem.bkt[r].ovf && decide (s.mem.bkt[r].depth / 2 < s.mem.bkt[r].level - 1) } ∧
      (t.mem.bkt[r].ovf = false → t.mem.irq.getLsbD r.val = false) ∧ (∀ x, r ≠ x → t.mem.bkt[x] = s.mem.bkt[x]) ∧
      t = { s with mem := { s.mem with bkt := t.mem.bkt, irq := t.mem.irq } } := by
  show Completes (execBucketLeak r s) _
  unfold execBucketLeak
  extract_lets u
  have hu : u.mem.bkt[r] = _ := vmod_same ..
  have hother (x : MemRegion) (hx : r ≠ x) : u.mem.bkt[x] = s.mem.bkt[x] := vmod_other _ _ hx
  refine ⟨_, rfl, ?_⟩
  by_cases hovf : u.mem.bkt[r].ovf = true
  · rw [if_pos hovf]
    exact ⟨hu, fun h => absurd (hovf.symm.trans h) (by decide), hother, rfl⟩
  · rw [if_neg hovf]
    refine ⟨hu, fun _ => ?_, hother, rfl⟩
    show (u.mem.irq &&& ~~~((1 : BitVec 15) <<< r.val)).getLsbD r.val = false
    simp

theorem completes_scrubBurst (s : State) (c : Fin 2) (hpos : s.mem.scrubPos < dramWindow) :
    Completes (exec (.scrubBurst c) s) fun t =>
      t.mem.chan[c] = { s.mem.chan[c] with
        pending := s.mem.chan[c].pending ++ [{ who := 9, at_ := s.mtime, addr := burstAddr c s.mem.scrubPos }] } ∧
      (∀ d : Fin 2, c ≠ d → t.mem.chan[d] = s.mem.chan[d]) ∧
      t = { s with mem := { s.mem with chan := t.mem.chan, scrubPos := if c = 0 then s.mem.scrubPos else s.mem.scrubPos + 8 } } := by
  let u := s.modChan c fun x => { x with pending := x.pending ++ [{ who := 9, at_ := s.mtime, addr := burstAddr c s.mem.scrubPos }] }
  have hpos' : s.mem.scrubPos + 8 < chanWords := by
    unfold dramWindow at hpos
    unfold chanWords
    omega
  refine ⟨if c = 0 then u else u.modMem fun m => { m with scrubPos := s.mem.scrubPos + 8 }, ?_, ?_⟩
  · show execScrubBurst c s = _
    unfold execScrubBurst
    extract_lets p w u'
    have hw : w = s.mem.scrubPos := if_neg fun h => absurd h.1 (Nat.not_le.mpr hpos)
    have hu : u' = u := by
      show s.modChan c _ = s.modChan c _
      rw [hw]
    rw [hw, if_pos hpos', hu]
  · by_cases hc : c = 0
    · rw [if_pos hc, if_pos hc]
      exact ⟨State.modChan_same .., fun d hd => State.modChan_other _ _ hd, rfl⟩
    · rw [if_neg hc, if_neg hc]
      exact ⟨State.modChan_same .., fun d hd => State.modChan_other _ _ hd, rfl⟩

theorem completes_scrubBurst_wrap (s : State) (hpos : s.mem.scrubPos = chanWords - 8) :
    Completes (exec (.scrubBurst 1) s) fun t =>
      t.mem.scrubPos = 0 ∧ t.mem.scrubPass = satAdd 32 s.mem.scrubPass 1 ∧ t = { s with mem := t.mem } := by
  have hout : ¬ (dramWindow ≤ s.mem.scrubPos ∧ s.mem.scrubPos < dramWindow + 131072) := by
    rw [hpos]
    decide
  have hend : ¬ s.mem.scrubPos + 8 < chanWords := by
    rw [hpos]
    decide
  show Completes (execScrubBurst 1 s) _
  unfold execScrubBurst
  extract_lets p w u
  have hw : w = s.mem.scrubPos := if_neg hout
  rw [if_neg (by decide), if_neg (by rw [hw]; exact hend)]
  exact ⟨_, rfl, rfl, rfl, rfl⟩

/-! ### Scrubbing processor memory (R572) -/

theorem completes_sramScrubPass_clean (s : State) (r : MemRegion) (found : List ScrubFind) (hr : 8 ≤ r.val)
    (hclean : found.all (fun x => x.word.kind == .none) = true) : Completes (exec (.sramScrubPass r found) s) fun t => t = s := by
  have hfold : found.foldl (fun s x => s.sramWord r x) s = s := by
    induction found with
    | nil => rfl
    | cons x l ih =>
      obtain ⟨hx, hl⟩ := Bool.and_eq_true_iff.mp hclean
      have hstep : s.sramWord r x = s := by
        unfold State.sramWord
        rw [beq_iff_eq.mp hx]
      rw [List.foldl_cons, hstep]
      exact ih hl
  exact ⟨_, congrArg Host.Outcome.next (if_pos hr), hfold⟩

theorem State.fillBucket_bkt (s : State) (r : MemRegion) (n : Nat) :
    ∃ o, (s.fillBucket r n).mem.bkt[r] = { s.mem.bkt[r] with level := min n s.mem.bkt[r].depth, ovf := o } := by
  unfold State.fillBucket
  extract_lets b s1 s2
  have h1 : s1.mem.bkt[r] = { b with level := min n b.depth } := vmod_same ..
  have h2 : s2.mem.bkt[r] = { s1.mem.bkt[r] with ovf := true } := vmod_same ..
  clear_value s2 s1
  split
  · have hcond : s2.condMem.mem.bkt[r] = s2.mem.bkt[r] := congrArg (fun m : MemBlock => m.bkt[r]) (s2.condMem_moves.mem_eq rfl)
    exact ⟨true, hcond.trans (h2.trans (by rw [h1]))⟩
  · exact ⟨b.ovf, h1⟩

/-- A part of the memory block that marking rows of processor memory leaves: the buckets and the logs. -/
def MemBlock.logs (m : MemBlock) : Vector Bucket 15 × EccLog × Nat := (m.bkt, m.lastCe, m.ueHead)

theorem Moves.logs {m : List Part} {s t : State} (h : Moves m s t) (hm : m.contains .mem = false) : Kept (fun s => s.mem.logs) s t :=
  congrArg MemBlock.logs (h.mem_eq hm)

section
variable (s : State)

theorem State.condMem_logs : Kept (fun s => s.mem.logs) s s.condMem := s.condMem_moves.logs rfl

theorem State.markSram_logs (w : Nat) : Kept (fun s => s.mem.logs) s (s.markSram w) := by
  unfold State.markSram
  extract_lets r
  have h1 : Kept (fun s => s.mem.logs) s (s.modMem fun m => { m with sramMarked := r :: m.sramMarked }) := rfl
  exact .ite .refl (.ite (h1.trans (State.condMem_logs _)) h1)

theorem State.hardCe_logs (w : Nat) (synd : Byte) : Kept (fun s => s.mem.logs) s (s.hardCe (2, w) synd) := by
  unfold State.hardCe
  extract_lets n u
  have hu : Kept (fun s => s.mem.logs) s u := rfl
  exact .ite (hu.trans (u.markSram_logs w)) .refl

theorem State.hardUe_logs (w : Nat) : Kept (fun s => s.mem.logs) s (s.hardUe (2, w)) := by
  unfold State.hardUe
  extract_lets u
  have hu : Kept (fun s => s.mem.logs) s u := rfl
  exact .ite (hu.trans (u.markSram_logs w)) rfl

end

theorem completes_sramScrubPass_ce (s : State) (r : MemRegion) (x : ScrubFind) (hr : 8 ≤ r.val) (hkind : x.word.kind = .ce) :
    Completes (exec (.sramScrubPass r [x]) s) fun t =>
      t.mem.bkt[r].ceCnt = satAdd 32 s.mem.bkt[r].ceCnt 1 ∧ t.mem.bkt[r].ueCnt = s.mem.bkt[r].ueCnt ∧
      t.mem.bkt[r].level = min (s.mem.bkt[r].level + 1) s.mem.bkt[r].depth ∧
      t.mem.lastCe = { memid := 2, region := r.val, synd := x.word.syndrome, kind := .ce, waddr := x.waddr } ∧
      t = ({ s with mem := t.mem, nor := t.nor } : State).afterEvent t := by
  let log : EccLog := { memid := 2, region := r.val, synd := x.word.syndrome, kind := x.word.kind, waddr := x.waddr }
  let s1 := (s.modBkt r fun b => { b with ceCnt := satAdd 32 b.ceCnt 1 }).modMem fun m => { m with lastCe := log }
  let u := s.countCe r log
  let v := (u.hardCe (2, x.waddr) x.word.syndrome).notedBack (2, x.waddr)
  have hrun : exec (.sramScrubPass r [x]) s = .next v := by
    refine congrArg Host.Outcome.next ((if_pos hr).trans ?_)
    show s.sramWord r x = v
    unfold State.sramWord
    split
    next h => exact absurd (h.symm.trans hkind) (by decide)
    next => rfl
    next h => exact absurd hkind h
  have h1 : s1.mem.bkt[r] = { s.mem.bkt[r] with ceCnt := satAdd 32 s.mem.bkt[r].ceCnt 1 } := vmod_same ..
  obtain ⟨o, hbkt⟩ := s1.fillBucket_bkt r (s1.mem.bkt[r].level + 1)
  have hlevel : s1.mem.bkt[r].level = s.mem.bkt[r].level := (congrArg Bucket.level h1 :)
  have hdepth : s1.mem.bkt[r].depth = s.mem.bkt[r].depth := (congrArg Bucket.depth h1 :)
  have hce1 : s1.mem.bkt[r].ceCnt = satAdd 32 s.mem.bkt[r].ceCnt 1 := (congrArg Bucket.ceCnt h1 :)
  have hue1 : s1.mem.bkt[r].ueCnt = s.mem.bkt[r].ueCnt := (congrArg Bucket.ueCnt h1 :)
  have hce : u.mem.lastCe = log := by
    show (s1.fillBucket r _).mem.lastCe = log
    unfold State.fillBucket
    extract_lets b t1 t2
    split
    · exact congrArg MemBlock.lastCe ((t2.condMem_moves).mem_eq rfl)
    · rfl
  have hlogs : v.mem.logs = u.mem.logs := u.hardCe_logs ..
  have hm : Moves [.trc, .mem, .evr, .nor] s v := by
    refine .trans ((s.countCe_moves r log).widen (by decide)) (.trans (u.hardCe_moves (2, x.waddr) x.word.syndrome) ?_)
    exact Moves.widen (m := [.mem]) (State.modMem_moves _ _ (fun _ => rfl) fun _ => rfl) (by decide)
  have hkept : v.mem.bkt[r] = u.mem.bkt[r] := congrArg (fun m : Vector Bucket 15 × EccLog × Nat => m.1[r]) hlogs
  have hv := hkept.trans hbkt
  refine ⟨v, hrun, (congrArg Bucket.ceCnt hv).trans hce1, (congrArg Bucket.ueCnt hv).trans hue1,
    (congrArg Bucket.level hv).trans (by rw [hlevel, hdepth]), ?_, hm.eq_of_parts rfl fun x => by cases x <;> first | rfl | exact fun _ => rfl⟩
  refine (congrArg (fun m : Vector Bucket 15 × EccLog × Nat => m.2.1) hlogs).trans (hce.trans ?_)
  show { log with kind := x.word.kind } = _
  rw [hkind]

theorem completes_sramScrubPass_ue (s : State) (x : ScrubFind) (hkind : x.word.kind.bad = true) :
    Completes (exec (.sramScrubPass 9 [x]) s) fun t =>
      t.mem.bkt[(9 : MemRegion)].ueCnt = inc 32 s.mem.bkt[(9 : MemRegion)].ueCnt ∧ t.mem.ueHead = (s.mem.ueHead + 1) % 16 := by
  let log : EccLog := { memid := 2, region := 9, synd := x.word.syndrome, kind := x.word.kind, waddr := x.waddr }
  let u := s.countUe 9 log true
  let v := u.hardUe (2, x.waddr)
  have hrun : exec (.sramScrubPass 9 [x]) s = .next (v.sramLost 9 x.waddr) := by
    refine congrArg Host.Outcome.next ((if_pos (by decide)).trans ?_)
    show s.sramWord 9 x = _
    unfold State.sramWord
    split
    next h => rw [h] at hkind; cases hkind
    next h => rw [h] at hkind; cases hkind
    next => rfl
  have hu : u.mem.bkt[(9 : MemRegion)].ueCnt = inc 32 s.mem.bkt[(9 : MemRegion)].ueCnt ∧ u.mem.ueHead = (s.mem.ueHead + 1) % 16 := by
    unfold u State.countUe
    extract_lets n s1 s2
    have h1 : s1.mem.bkt[(9 : MemRegion)].ueCnt = inc 32 s.mem.bkt[(9 : MemRegion)].ueCnt := congrArg Bucket.ueCnt (vmod_same ..)
    have h1' : s1.mem.ueHead = (s.mem.ueHead + 1) % 16 := rfl
    have h2 : s2.mem = s1.mem := (State.saturated_moves ..).mem_eq rfl
    have h3 : s2.condMem.mem = s2.mem := s2.condMem_moves.mem_eq rfl
    rw [if_pos rfl, h3, h2]
    exact ⟨h1, h1'⟩
  have hlogs : v.mem.logs = u.mem.logs := u.hardUe_logs ..
  have hlost : (v.sramLost 9 x.waddr).mem = v.mem := (v.failDecoder_moves _).mem_eq rfl
  refine ⟨_, hrun, ?_, ?_⟩
  · rw [hlost]
    exact (congrArg (fun m : Vector Bucket 15 × EccLog × Nat => m.1[(9 : MemRegion)].ueCnt) hlogs).trans hu.1
  · rw [hlost]
    exact (congrArg (fun m : Vector Bucket 15 × EccLog × Nat => m.2.2) hlogs).trans hu.2

/-! ### Row repair (R574) -/

theorem alookup_none {β : Type} {l : List (Nat × β)} {k : Nat} (h : alookup l k = none) {p : Nat × β} (hp : p ∈ l) : p.1 ≠ k := by
  rw [alookup, Option.map_eq_none_iff, List.find?_eq_none] at h
  simpa using h p hp

/-- Words rewritten one after another, each once. -/
theorem State.putWords_read (g : Nat × EccWord → EccWord) (l : List (Nat × EccWord)) (hl : (l.map (·.1)).Nodup) (s : State)
    (hwf : Memory.wf s.mem.dram = true) :
    (∀ w, (∀ p ∈ l, p.1 ≠ w) → Memory.read (l.foldl (fun s p => s.putWord p.1 (g p) false) s).mem.dram w = Memory.read s.mem.dram w) ∧
    (∀ p ∈ l, Memory.read (l.foldl (fun s p => s.putWord p.1 (g p) false) s).mem.dram p.1 = g p) := by
  induction l generalizing s with
  | nil => exact ⟨fun _ _ => rfl, fun p hp => absurd hp List.not_mem_nil⟩
  | cons x l ih =>
    obtain ⟨hnot, hl'⟩ := List.nodup_cons.mp hl
    have hput : Moves [.mem] s (s.putWord x.1 (g x) false) := State.putWord_moves ..
    obtain ⟨hread, hother⟩ := State.putWord_read hwf x.1 (g x) false
    obtain ⟨hrest, hin⟩ := ih hl' (s.putWord x.1 (g x) false) (hput.dram hwf)
    refine ⟨fun w hw => ?_, fun p hp => ?_⟩
    · rw [List.foldl_cons, hrest w fun p hp => hw p (List.mem_cons_of_mem _ hp), hother w fun h => hw x (List.mem_cons_self ..) h.symm]
    · obtain rfl | hp := List.mem_cons.mp hp
      · rw [List.foldl_cons, hrest p.1 fun y hy h => hnot (List.mem_map.mpr ⟨y, hy, h⟩), hread]
      · exact hin p hp

/-- A channel but for its write-backs. -/
def Channel.sansBacks (x : Channel) : Channel := { x with writebacks := [] }

theorem State.putWord_sansBacks (s : State) (w : Nat) (v : EccWord) (full : Bool) (c : Fin 2) :
    Kept (fun s => (s.mem.chan[c].sansBacks, s.mem.repairCnt)) s (s.putWord w v full) := by
  unfold State.putWord
  extract_lets key u
  have hchan : ((u.modChan (wordChan w) fun x => { x with writebacks := x.writebacks.filter fun p => p.1 ≠ w }).mem.chan[c]).sansBacks =
      u.mem.chan[c].sansBacks := by
    by_cases hc : wordChan w = c
    · rw [← hc, State.modChan_same] <;> rfl
    · rw [State.modChan_other _ _ hc]
  exact Prod.ext hchan rfl

/-- A word of a repaired row: corrected, or poison where it was bad. -/
def rewritten (p : Nat × EccWord) : EccWord := if p.2.kind.bad then EccWord.poison p.2.data else EccWord.fresh p.2.value

theorem EccWord.kind_fresh (d : BitVec 64) : (EccWord.fresh d).kind = .none := (EccWord.syndrome_zero (EccWord.syndrome_fresh d)).1

theorem EccWord.kind_poison (d : BitVec 64) : (EccWord.poison d).kind = .poison := by
  rw [EccWord.kind, EccWord.syndrome_poison, eccKind_poison]

theorem rewritten_kind (p : Nat × EccWord) : (rewritten p).kind = if p.2.kind.bad then .poison else .none := by
  unfold rewritten
  split
  · exact EccWord.kind_poison _
  · exact EccWord.kind_fresh _

theorem Memory.default_kind (w : Nat) : (Memory.default w).kind = if (Memory.default w).kind.bad then .poison else .none := by
  unfold Memory.default
  split
  · rw [EccWord.kind_poison] <;> rfl
  · rw [EccWord.kind_fresh] <;> rfl

/-- A row repaired: its spare used and recorded, and its words written anew (R574). -/
def State.rowRepaired (s : State) (c : Fin 2) (d row : Nat) : State :=
  let n := s.mem.repairCnt
  let s := s.modMem fun m =>
    { m with
      repairCnt := inc 32 m.repairCnt
      history := m.history.filter fun h => !(h.1.1 == c.val && rowOf h.1.2 == row)
      ueHist := m.ueHist.filter fun h => !(h.1.1 == c.val && rowOf h.1.2 == row) }
  let s := s.saturated (reaches 32 n) 0x10 5 0 0x3003C (nw (n + 1))
  let s := s.modNor fun x => { x with repairs := x.repairs ++ [(c.val, d, row)] }
  let s := s.modChan c fun x => { x with pprUsed := x.pprUsed + 1 }
  (s.mem.dram.filter fun p => wordChan p.1 == c && rowOf (chanWord p.1) == row).foldl (fun s p => s.putWord p.1 (rewritten p) false) s

/-- A row without a spare left. -/
def State.rowSpent (s : State) : State := if s.mem.repairFull then s else (s.modMem fun m => { m with repairFull := true }).condMem

/-- The repair of a channel's row ends, and with the last one the packet that asked for it is answered. -/
def State.rowReplied (s : State) : State :=
  let s := s.modMem fun m => { m with repairBusy := m.chan.toList.any fun x => !x.marked.isEmpty }
  if s.mem.repairBusy then s
  else s.replyWaiting 0x0213 (fun _ => true) 0 fun s p =>
    [rMemStatus s.mem, nw (((fin? 2 (p.w 0).toNat).map fun (k : Fin 2) => s.mem.chan[k].pprUsed).getD 0), nw s.mem.repairCnt]

/-- A channel's first marked row, taken off its list. -/
def State.rowTaken (s : State) (c : Fin 2) (rest : List (Nat × Nat)) : State := s.modChan c fun x => { x with marked := rest }

section
variable {s : State} {c : Fin 2} {d row : Nat} {rest : List (Nat × Nat)} (h : s.mem.chan[c].marked = (d, row) :: rest)
include h

theorem execDramRowRepair_of_left (hleft : s.repairLeft c d row = true) :
    execDramRowRepair c s = .next ((s.rowTaken c rest).rowRepaired c d row).rowReplied := by
  unfold execDramRowRepair
  rw [h]
  dsimp -zeta only
  extract_lets u n u1 u2 u3 u4 v w
  have hv : v = u.rowRepaired c d row := if_pos (show u.repairLeft c d row = true from hleft)
  show Host.Outcome.next v.rowReplied = _
  rw [hv]
  rfl

theorem execDramRowRepair_of_spent (hleft : s.repairLeft c d row = false) :
    execDramRowRepair c s = .next (s.rowTaken c rest).rowSpent.rowReplied := by
  unfold execDramRowRepair
  rw [h]
  dsimp -zeta only
  extract_lets u n u1 u2 u3 u4 v w
  have hv : v = u.rowSpent := if_neg (show ¬ u.repairLeft c d row = true by rw [show u.repairLeft c d row = false from hleft]; exact Bool.false_ne_true)
  show Host.Outcome.next v.rowReplied = _
  rw [hv]
  rfl

end

theorem State.rowReplied_effect (u : State) : (∃ b, u.rowReplied.mem = { u.mem with repairBusy := b }) ∧
    Moves [.trc, .host, .het, .evr, .out, .mem] u u.rowReplied := by
  unfold State.rowReplied
  extract_lets v
  have hv : Moves [.trc, .host, .het, .evr, .out, .mem] u v := Moves.widen (m := [.mem]) (State.modMem_moves _ _ (fun _ => rfl) fun _ => rfl) (by decide)
  have hmem : ∃ b, v.mem = { u.mem with repairBusy := b } := ⟨_, rfl⟩
  clear_value v
  split
  · exact ⟨hmem, hv⟩
  · obtain ⟨b, hb⟩ := hmem
    have hr := v.replyWaiting_moves 0x0213 (fun _ => true) 0 (fun s p =>
      [rMemStatus s.mem, nw (((fin? 2 (p.w 0).toNat).map fun (k : Fin 2) => s.mem.chan[k].pprUsed).getD 0), nw s.mem.repairCnt]) fun _ => 0
    exact ⟨⟨b, (hr.mem_eq rfl).trans hb⟩, hv.trans (hr.widen (by decide))⟩

theorem State.rowRepaired_effect (u : State) (c : Fin 2) (d row : Nat) (hwf : Memory.wf u.mem.dram = true) :
    (u.rowRepaired c d row).nor = { u.nor with repairs := u.nor.repairs ++ [(c.val, d, row)] } ∧
    (u.rowRepaired c d row).mem.repairCnt = inc 32 u.mem.repairCnt ∧
    (u.rowRepaired c d row).mem.chan[c].marked = u.mem.chan[c].marked ∧
    (u.rowRepaired c d row).mem.chan[c].pprUsed = u.mem.chan[c].pprUsed + 1 ∧ Memory.wf (u.rowRepaired c d row).mem.dram = true ∧
    (∀ w, (wordChan w ≠ c ∨ rowOf (chanWord w) ≠ row) → Memory.read (u.rowRepaired c d row).mem.dram w = Memory.read u.mem.dram w) ∧
    (∀ w, wordChan w = c → rowOf (chanWord w) = row →
      (Memory.read (u.rowRepaired c d row).mem.dram w).kind = if (Memory.read u.mem.dram w).kind.bad then .poison else .none) ∧
    Moves [.trc, .evr, .mem, .nor] u (u.rowRepaired c d row) := by
  unfold State.rowRepaired
  extract_lets n s1 s2 s3 s4
  have hm1 : Moves [.trc, .evr, .mem, .nor] u s1 := Moves.widen (m := [.mem]) (State.modMem_moves _ _ (fun _ => rfl) fun _ => rfl) (by decide)
  have hm2 : Moves [.trc, .evr] s1 s2 := State.saturated_moves ..
  have hm3 : Moves [.nor] s2 s3 := State.modNor_moves _ _ fun _ => rfl
  have hm4 : Moves [.mem] s3 s4 := State.modChan_moves ..
  have hall : Moves [.trc, .evr, .mem, .nor] u s4 :=
    hm1.trans ((hm2.widen (by decide)).trans ((hm3.widen (by decide)).trans (hm4.widen (by decide))))
  have hmem3 : s3.mem = s1.mem := (hm3.mem_eq rfl).trans (hm2.mem_eq rfl)
  have hnor2 : s2.nor = u.nor := hm2.nor_eq rfl
  have hnor : s4.nor = { u.nor with repairs := u.nor.repairs ++ [(c.val, d, row)] } :=
    (hm4.nor_eq rfl).trans (congrArg (fun x : Nor => { x with repairs := x.repairs ++ [(c.val, d, row)] }) hnor2)
  have hdram : s4.mem.dram = u.mem.dram := (congrArg MemBlock.dram hmem3 :)
  have hcnt : s4.mem.repairCnt = inc 32 u.mem.repairCnt := (congrArg MemBlock.repairCnt hmem3 :)
  have hchan : s4.mem.chan[c] = { u.mem.chan[c] with pprUsed := u.mem.chan[c].pprUsed + 1 } :=
    (s3.modChan_same c _).trans (congrArg (fun m : MemBlock => { m.chan[c] with pprUsed := m.chan[c].pprUsed + 1 }) hmem3)
  clear_value s4
  have hwf4 : Memory.wf s4.mem.dram = true := by
    rw [hdram]
    exact hwf
  rw [hdram]
  let l := u.mem.dram.filter fun p => wordChan p.1 == c && rowOf (chanWord p.1) == row
  have hnodup : (l.map (·.1)).Nodup := by
    have hsorted : u.mem.dram.Pairwise fun x y => x.1 < y.1 := by
      simp only [Memory.wf, Bool.and_eq_true, decide_eq_true_eq] at hwf
      exact hwf.1
    exact List.pairwise_map.mpr ((hsorted.filter _).imp fun h => Nat.ne_of_lt h)
  obtain ⟨hother, hin⟩ := State.putWords_read rewritten l hnodup s4 hwf4
  have hmf : Moves [.mem] s4 (l.foldl (fun s p => s.putWord p.1 (rewritten p) false) s4) := .fold _ _ _ fun s p => State.putWord_moves ..
  have hkept : Kept (fun s => (s.mem.chan[c].sansBacks, s.mem.repairCnt)) s4 (l.foldl (fun s p => s.putWord p.1 (rewritten p) false) s4) :=
    .fold _ _ _ fun s p => s.putWord_sansBacks ..
  rw [show u.mem.dram.filter (fun p => wordChan p.1 == c && rowOf (chanWord p.1) == row) = l from rfl]
  have hmem : ∀ p ∈ l, p ∈ u.mem.dram ∧ wordChan p.1 = c ∧ rowOf (chanWord p.1) = row := fun p hp => by
    obtain ⟨hd, hcond⟩ := List.mem_filter.mp hp
    obtain ⟨hc, hr⟩ := Bool.and_eq_true_iff.mp hcond
    exact ⟨hd, beq_iff_eq.mp hc, beq_iff_eq.mp hr⟩
  generalize l.foldl (fun s p => s.putWord p.1 (rewritten p) false) s4 = t at *
  have hsans : t.mem.chan[c].sansBacks = s4.mem.chan[c].sansBacks := (congrArg Prod.fst hkept :)
  refine ⟨(hmf.nor_eq rfl).trans hnor, (congrArg Prod.snd hkept :).trans hcnt, (congrArg Channel.marked hsans :).trans (by rw [hchan] <;> rfl),
    (congrArg Channel.pprUsed hsans :).trans (by rw [hchan] <;> rfl), hmf.dram hwf4, fun w hw => ?_, fun w hc hr => ?_,
    hall.trans (hmf.widen (by decide))⟩
  · rw [hother w, hdram]
    rintro p hp rfl
    obtain ⟨-, hc, hr⟩ := hmem p hp
    exact hw.elim (absurd hc) (absurd hr)
  · cases hlook : alookup u.mem.dram w with
    | none =>
      rw [hother w fun p hp => alookup_none hlook (hmem p hp).1, hdram]
      have hdef : Memory.read u.mem.dram w = Memory.default w := by rw [Memory.read, hlook] <;> rfl
      rw [hdef]
      exact Memory.default_kind w
    | some v =>
      have hread : Memory.read u.mem.dram w = v := by rw [Memory.read, hlook] <;> rfl
      have hl : (w, v) ∈ l := List.mem_filter.mpr ⟨alookup_mem hlook, by rw [hc, hr] <;> simp⟩
      rw [show Memory.read t.mem.dram w = _ from hin (w, v) hl, rewritten_kind, hread]

theorem completes_dramRowRepair (s : State) (c : Fin 2) (d row : Nat) (rest : List (Nat × Nat)) (hmark : s.mem.chan[c].marked = (d, row) :: rest)
    (hleft : s.repairLeft c d row = true) (hwf : Memory.wf s.mem.dram = true) :
    Completes (exec (.dramRowRepair c) s) fun t =>
      t.nor = { s.nor with repairs := s.nor.repairs ++ [(c.val, d, row)] } ∧ t.mem.repairCnt = inc 32 s.mem.repairCnt ∧
      t.mem.chan[c].marked = rest ∧ t.mem.chan[c].pprUsed = s.mem.chan[c].pprUsed + 1 ∧ Memory.wf t.mem.dram = true ∧
      (∀ w, (wordChan w ≠ c ∨ rowOf (chanWord w) ≠ row) → Memory.read t.mem.dram w = Memory.read s.mem.dram w) ∧
      (∀ w, wordChan w = c → rowOf (chanWord w) = row → (Memory.read t.mem.dram w).kind = if (Memory.read s.mem.dram w).kind.bad then .poison else .none) ∧
      t = ({ s with mem := t.mem, nor := t.nor } : State).afterReply t := by
  refine ⟨_, execDramRowRepair_of_left hmark hleft, ?_⟩
  let u := s.rowTaken c rest
  have hsu : Moves [.trc, .host, .het, .evr, .out, .mem, .nor] s u := (State.modChan_moves ..).widen (by decide)
  have hchan : u.mem.chan[c] = _ := s.modChan_same c _
  obtain ⟨hnor, hcnt, hmarked, hppr, hwf', hother, hrow, hm⟩ := u.rowRepaired_effect c d row hwf
  obtain ⟨⟨b, hb⟩, hr⟩ := (u.rowRepaired c d row).rowReplied_effect
  have hall := hsu.trans ((hm.widen (by decide)).trans (hr.widen (by decide)))
  rw [show ((s.rowTaken c rest).rowRepaired c d row).rowReplied = (u.rowRepaired c d row).rowReplied from rfl]
  have hdram : (u.rowRepaired c d row).rowReplied.mem.dram = (u.rowRepaired c d row).mem.dram := (congrArg MemBlock.dram hb :)
  have hchans : (u.rowRepaired c d row).rowReplied.mem.chan = (u.rowRepaired c d row).mem.chan := (congrArg MemBlock.chan hb :)
  have hcnts : (u.rowRepaired c d row).rowReplied.mem.repairCnt = (u.rowRepaired c d row).mem.repairCnt := (congrArg MemBlock.repairCnt hb :)
  have hnor' := (hr.nor_eq rfl).trans hnor
  generalize u.rowRepaired c d row = v at *
  generalize v.rowReplied = t at *
  refine ⟨hnor', hcnts.trans hcnt, ?_, ?_, by rw [hdram]; exact hwf', fun w hw => ?_, fun w hc hrw => ?_, ?_⟩
  · rw [hchans, hmarked, hchan]
  · rw [hchans, hppr, hchan]
  · rw [hdram]
    exact hother w hw
  · rw [hdram]
    exact hrow w hc hrw
  · exact hall.eq_of_parts rfl fun x => by cases x <;> first | rfl | exact fun _ => rfl

theorem completes_dramRowRepair_spent (s : State) (c : Fin 2) (d row : Nat) (rest : List (Nat × Nat))
    (hmark : s.mem.chan[c].marked = (d, row) :: rest) (hleft : s.repairLeft c d row = false) :
    Completes (exec (.dramRowRepair c) s) fun t =>
      t.mem.repairFull = true ∧ t.mem.chan[c].marked = rest ∧ t.mem.dram = s.mem.dram ∧ t.mem.repairCnt = s.mem.repairCnt ∧
      t.nor = s.nor ∧ t = ({ s with mem := t.mem } : State).afterReply t := by
  refine ⟨_, execDramRowRepair_of_spent hmark hleft, ?_⟩
  let u := s.rowTaken c rest
  have hsu : Moves [.trc, .host, .het, .evr, .out, .mem] s u := (State.modChan_moves ..).widen (by decide)
  have hmarked : u.mem.chan[c].marked = rest := congrArg Channel.marked (State.modChan_same ..)
  have hv : u.rowSpent.mem = { u.mem with repairFull := true } ∧ Moves [.trc, .host, .het, .evr, .out, .mem] u u.rowSpent := by
    unfold State.rowSpent
    split
    next hfull => exact ⟨by rw [← hfull], .refl ..⟩
    next =>
      have hcond := State.condMem_moves (u.modMem fun m => { m with repairFull := true })
      refine ⟨hcond.mem_eq rfl, .trans ?_ (hcond.widen (by decide))⟩
      exact Moves.widen (m := [.mem]) (State.modMem_moves _ _ (fun _ => rfl) fun _ => rfl) (by decide)
  obtain ⟨hmem, hm⟩ := hv
  obtain ⟨⟨b, hb⟩, hr⟩ := u.rowSpent.rowReplied_effect
  have hall := hsu.trans (hm.trans hr)
  rw [show (s.rowTaken c rest).rowSpent.rowReplied = u.rowSpent.rowReplied from rfl]
  have hend := hb.trans (congrArg (fun m : MemBlock => { m with repairBusy := b }) hmem)
  refine ⟨(congrArg MemBlock.repairFull hend :), ?_, ?_, ?_, hall.nor_eq rfl, ?_⟩
  · exact (congrArg (fun m : MemBlock => m.chan[c].marked) hend).trans hmarked
  · exact (congrArg MemBlock.dram hend :)
  · exact (congrArg MemBlock.repairCnt hend :)
  · exact hall.eq_of_parts rfl fun x => by cases x <;> first | rfl | exact fun _ => rfl

/-- Settles O54: reads and writes of DDR4 word by word, with what they count and mark, the turns of a channel, scrubbing and repair. -/
theorem memoryEvents : Obligations.MemoryEvents :=
  ⟨completes_cmbWrite_word, completes_cmbWrite_deferred, completes_cmbRead, completes_cmbRead_poison, completes_cmbRefillDone,
    completes_dramArbitration, completes_dramArbitration_write, completes_dramArbitration_idle, completes_eccWriteback, completes_dramRefresh,
    completes_bucketLeak, completes_scrubBurst, completes_scrubBurst_wrap, completes_sramScrubPass_clean, completes_sramScrubPass_ce,
    completes_sramScrubPass_ue, completes_dramRowRepair, completes_dramRowRepair_spent⟩

end Sys2Proof.Machine
end

section
/-! SUPPORT. What the upkeep of zones, codewords, jobs and pending writes leaves of the host link, of the commands in it and of what it
answered: it posts completions and notes events, and gives no command to a function (13_host_link_nvme.md, 14_queues_ordering.md). -/

namespace Sys2Proof.Machine
open Sys2Proof
set_option Elab.async false

/-- What events, completions and a shutdown's end leave of a function. -/
def FnState.calm (x : FnState) : FnState :=
  { x with aers := [], events := [], masked := [], cqs := [], cmdErrCnt := 0, changedZones := [], changedNs := [], shst := 0 }

/-- What events, completions and zone states leave of the host link beside its functions. -/
def HostLink.calm (h : HostLink) : HostLink :=
  { h with fns := Vector.replicate 16 {}, violations := [], zoneTimes := [], healthFlags := 0 }

/-- Functions, host link and commands stand as they did, but for completions and events, commands that ended and contracts that ended. -/
structure State.Stands (s t : State) : Prop where
  fns : ∀ n : Fn, t.host.fns[n].calm = s.host.fns[n].calm
  queues : ∀ n : Fn, s.host.fns[n].cqs = [] → t.host.fns[n].cqs = []
  link : t.host.calm = s.host.calm
  posted : ∃ l, t.out.completions = l ++ s.out.completions
  owners : ∀ p ∈ t.q.ctxs, ∃ p' ∈ s.q.ctxs, p'.2.fn = p.2.fn
  contracts : ∀ c ∈ t.q.contracts, c ∈ s.q.contracts

theorem State.Stands.refl (s : State) : s.Stands s := ⟨fun _ => rfl, fun _ h => h, rfl, ⟨[], rfl⟩, fun p hp => ⟨p, hp, rfl⟩, fun _ h => h⟩

theorem State.Stands.trans {s t u : State} (h1 : s.Stands t) (h2 : t.Stands u) : s.Stands u := by
  refine ⟨fun n => (h2.fns n).trans (h1.fns n), fun n hn => h2.queues n (h1.queues n hn), h2.link.trans h1.link, ?_, fun p hp => ?_,
    fun c hc => h1.contracts c (h2.contracts c hc)⟩
  · obtain ⟨l1, hl1⟩ := h1.posted
    obtain ⟨l2, hl2⟩ := h2.posted
    exact ⟨l2 ++ l1, by rw [hl2, hl1, List.append_assoc]⟩
  · obtain ⟨p2, hp2, hfn2⟩ := h2.owners p hp
    obtain ⟨p1, hp1, hfn1⟩ := h1.owners p2 hp2
    exact ⟨p1, hp1, hfn1.trans hfn2⟩

theorem State.Stands.ite {c : Prop} [Decidable c] {s t u : State} (h1 : s.Stands t) (h2 : s.Stands u) : s.Stands (if c then t else u) := by
  split
  · exact h1
  · exact h2

theorem State.Stands.fold {β : Type} (f : State → β → State) (l : List β) (s : State) (h : ∀ (s : State) b, s.Stands (f s b)) :
    s.Stands (l.foldl f s) := by
  induction l generalizing s with
  | nil => exact .refl s
  | cons b l ih => exact (h s b).trans (ih _)

/-- The commands there are, with the functions they are of, and the contracts. -/
def State.duties (s : State) : List (Nat × Fn) × List (Nat × Contract) := (s.q.ctxs.map fun p => (p.1, p.2.fn), s.q.contracts)

theorem Kept.duties_owners {s t : State} (h : Kept State.duties s t) : ∀ p ∈ t.q.ctxs, ∃ p' ∈ s.q.ctxs, p'.2.fn = p.2.fn := by
  intro p hp
  have heq : (t.q.ctxs.map fun p => (p.1, p.2.fn)) = s.q.ctxs.map fun p => (p.1, p.2.fn) := congrArg Prod.fst h
  have hmem : (p.1, p.2.fn) ∈ s.q.ctxs.map fun p => (p.1, p.2.fn) := by
    rw [← heq]
    exact List.mem_map_of_mem hp
  obtain ⟨p', hp', heq⟩ := List.mem_map.mp hmem
  exact ⟨p', hp', congrArg Prod.snd heq⟩

theorem Kept.duties_contracts {s t : State} (h : Kept State.duties s t) : ∀ c ∈ t.q.contracts, c ∈ s.q.contracts := by
  have heq : t.q.contracts = s.q.contracts := congrArg Prod.snd h
  exact fun _ hc => heq ▸ hc

theorem Kept.duties_of_account {s t : State} (h : Kept State.account s t) : Kept State.duties s t := by
  have hq : { t.q with captures := 0 } = { s.q with captures := 0 } := h
  have hctxs : t.q.ctxs = s.q.ctxs := (congrArg Queues.ctxs hq :)
  have hcontracts : t.q.contracts = s.q.contracts := (congrArg Queues.contracts hq :)
  rw [Kept, State.duties, State.duties, hctxs, hcontracts]

theorem State.modCtx_duties (s : State) (x : CtxIx) {f : Ctx → Ctx} (h : ∀ c, (f c).fn = c.fn) : Kept State.duties s (s.modCtx x f) := by
  refine Prod.ext ?_ rfl
  refine (List.map_map).trans (List.map_congr_left fun p _ => ?_)
  rw [Function.comp_apply]
  split
  · rw [h]
  · rfl

/-- A move that leaves the host link and the outputs alone stands where the commands and the contracts do. -/
theorem Moves.stands_of_duties {m : List Part} {s t : State} (h : Moves m s t) (hm : m.contains .host = false)
    (ho : m.contains .out = false) (hd : Kept State.duties s t) : s.Stands t := by
  have hhost : t.host = s.host := h.host_eq hm
  exact ⟨fun _ => by rw [hhost], fun _ hn => hhost ▸ hn, by rw [hhost], ⟨[], by rw [h.out_eq ho]; rfl⟩, hd.duties_owners, hd.duties_contracts⟩

theorem Moves.stands {m : List Part} {s t : State} (h : Moves m s t) (hm : m.contains .host = false) (ho : m.contains .out = false)
    (hq : m.contains .q = false) : s.Stands t :=
  h.stands_of_duties hm ho (by rw [Kept, State.duties, State.duties, h.q_eq hq])

/-! ### Events (R444) -/

theorem State.modFn_stands (s : State) (f : Fn) {g : FnState → FnState} (h : ∀ x, (g x).calm = x.calm)
    (hq : ∀ x, x.cqs = [] → (g x).cqs = []) : s.Stands (s.modFn f g) := by
  refine ⟨fun n => s.modFn_kept f n FnState.calm h, fun n hn => ?_, rfl, ⟨[], rfl⟩, fun p hp => ⟨p, hp, rfl⟩, fun _ hc => hc⟩
  by_cases hfn : f = n
  · subst hfn
    rw [State.modFn_same]
    exact hq _ hn
  · rw [State.modFn_other _ _ hfn]
    exact hn

theorem State.post_stands (s : State) (c : Completion) : s.Stands (s.post c) := by
  obtain ⟨cnt, v, hhost⟩ := s.post_host c
  have hq : (s.post c).q = s.q := (s.post_moves c).q_eq rfl
  obtain ⟨hfns, hqueues, -, -, -, -⟩ := s.modFn_stands c.fn
    (g := fun x => { x with cqs := x.cqs.map fun q => if q.id = c.cq then q.post else q, cmdErrCnt := cnt x })
    (fun _ => rfl) (fun x hx => by rw [hx]; rfl)
  have hmod : (s.post c).host.fns = (s.modFn c.fn fun x =>
      { x with cqs := x.cqs.map fun q => if q.id = c.cq then q.post else q, cmdErrCnt := cnt x }).host.fns := (congrArg HostLink.fns hhost :)
  refine ⟨fun n => ?_, fun n hn => ?_, ?_, ⟨[c], s.post_completions c⟩, fun p hp => ⟨p, hq ▸ hp, rfl⟩, fun _ hc => hq ▸ hc⟩
  · rw [hmod]
    exact hfns n
  · rw [hmod]
    exact hqueues n hn
  · rw [hhost]
    rfl

theorem State.postAdmin_stands (s : State) (f : Fn) (cid : BitVec 16) (st : NvStatus) (dw0 : Word) (words : List Word) :
    s.Stands (s.postAdmin f cid st dw0 words) := s.post_stands _

theorem State.deliverAsync_stands (s : State) (f : Fn) : s.Stands (s.deliverAsync f) := by
  unfold State.deliverAsync
  extract_lets x
  split
  · extract_lets s1
    have h1 : s.Stands s1 := s.modFn_stands f (fun _ => rfl) fun _ h => h
    exact h1.trans (s1.postAdmin_stands ..)
  · exact .refl s

theorem State.raiseAsync_stands (s : State) (f : Fn) (e : AsyncEvent) : s.Stands (s.raiseAsync f e) := by
  unfold State.raiseAsync
  split
  · refine .trans ?_ (State.deliverAsync_stands _ f)
    exact s.modFn_stands f (fun _ => rfl) fun _ h => h
  · exact .refl s

theorem State.zoneNotice_stands (s : State) (z : ZoneNo) : s.Stands (s.zoneNotice z) := by
  unfold State.zoneNotice
  split
  · exact .refl s
  · refine .fold _ _ _ fun s f => ?_
    extract_lets s1
    have h1 : s.Stands s1 := s.modFn_stands f (fun _ => rfl) fun _ h => h
    exact .ite (.ite (h1.trans (State.raiseAsync_stands ..)) h1) (.refl s)

/-! ### Zones -/

theorem State.lineError_stands (s : State) (a : Eng) (i : Fin 48) : s.Stands (s.lineError a i) := by
  unfold State.lineError
  extract_lets l full table lost
  split
  next wp s1 hread =>
    have h1 : s.Stands s1 := by
      obtain h | h := em (lost = true)
      · rw [if_pos h] at hread
        exact (Moves.pair2 hread (s.readForwardWp_moves l.zone table.wp)).stands rfl rfl rfl
      · rw [if_neg h] at hread
        cases hread
        exact .refl _
    extract_lets found s2 s3
    have h2 : s1.Stands s2 := .ite (((State.putRecord_moves ..).stands rfl rfl rfl).trans (State.zoneNotice_stands ..)) (.refl _)
    have h3 : Moves [.trc, .evr, .zdc] s2 s3 := (State.modZdc_moves ..).widen (by decide)
    exact h1.trans <| h2.trans <| Moves.stands
      ((State.saturated_moves ..).after (by decide) <| (State.condZdc_moves ..).after (by decide) h3) rfl rfl rfl

theorem State.zdcAccess_stands (s : State) (a : Eng) (z : ZoneNo) (acc : DescAccess) : s.Stands (s.zdcAccess a z acc) := by
  unfold State.zdcAccess
  extract_lets c wait
  have hwait : s.Stands wait := (s.modZdc_moves a _).stands rfl rfl rfl
  refine .ite hwait ?_
  split
  · exact (s.modZdc_moves a _).stands rfl rfl rfl
  · split
    · refine .ite ?_ (((State.lineAccess_moves ..).behind ((State.modZdc_moves ..).widen (by decide))).stands rfl rfl rfl)
      extract_lets s1
      have h1 : s.Stands s1 := s.lineError_stands a _
      split
      · exact h1.trans ((State.modZdc_moves ..).stands rfl rfl rfl)
      · exact h1.trans ((State.lineAccess_moves ..).stands rfl rfl rfl)
    · cases hmiss : s.missAccess a z acc with
      | none => exact hwait
      | some t => exact (State.missAccess_moves _ _ _ _ hmiss).stands rfl rfl rfl

theorem State.setZone_stands (s : State) (z : ZoneNo) (f : ZoneDesc → ZoneDesc) : s.Stands (s.setZone z f) := by
  unfold State.setZone
  extract_lets d e e' r r' s1 s2
  have h1 : s.Stands s1 := .ite (.refl s) ((s.putRecord_moves z r').stands rfl rfl rfl)
  have h2 : s1.Stands s2 := .ite (.refl s1) (Moves.stands (s1.modNor_moves _ fun _ => rfl) rfl rfl rfl)
  exact .ite (.refl s) (h1.trans (h2.trans (s2.zdcAccess_stands ..)))

/-- A change of the host link beside its functions that the upkeep may make. -/
theorem State.modHost_stands (s : State) {g : HostLink → HostLink} (hfns : ∀ h, (g h).fns = h.fns) (hlink : ∀ h, (g h).calm = h.calm) :
    s.Stands (s.modHost g) := by
  have heq : (s.modHost g).host.fns = s.host.fns := hfns s.host
  exact ⟨fun n => by rw [heq], fun n hn => by rw [heq]; exact hn, hlink s.host, ⟨[], rfl⟩, fun p hp => ⟨p, hp, rfl⟩, fun _ hc => hc⟩

theorem State.enterZState_stands (s : State) (z : ZoneNo) (zs : ZState) : s.Stands (s.enterZState z zs) := by
  unfold State.enterZState
  extract_lets d s1
  have h1 : s.Stands s1 := s.setZone_stands z _
  exact .ite (.ite h1 (h1.trans (s1.modHost_stands (fun _ => rfl) fun _ => rfl))) (h1.trans (s1.modHost_stands (fun _ => rfl) fun _ => rfl))

theorem State.drawBack_stands (s : State) (z : ZoneNo) (mp : Nat) : s.Stands (s.drawBack z mp) := by
  unfold State.drawBack
  extract_lets ends wp
  exact .ite (s.setZone_stands z _) (.refl s)

theorem State.closeOpenZones_stands (s : State) (f : Fn) : s.Stands (s.closeOpenZones f) := by
  unfold State.closeOpenZones
  extract_lets only
  refine .fold _ _ _ fun s z => ?_
  extract_lets zs
  exact .ite (s.enterZState_stands z _) (.refl s)

/-! ### Commands that end (R504) -/

theorem State.modStaging_duties (s : State) (f : Queues → Nat) : Kept State.duties s (s.modQ fun q => { q with staging := f q }) := rfl

theorem State.closeJob_duties (s : State) (a : Eng) (j : JobIx) : Kept State.duties s (s.closeJob a j) := by
  unfold State.closeJob
  split
  · exact .refl
  · extract_lets s1 s2 revs
    have h1 : Kept State.account s s1 := .trans (s.releaseJob_account a j)
      (.trans ((State.restoreHead_moves ..).account rfl) ((State.voidReads_moves ..).account rfl))
    have h2 : Kept State.duties s1 s2 := s1.modStaging_duties _
    exact h1.duties_of_account.trans (h2.trans ((State.modRec_moves ..).account rfl).duties_of_account)

theorem State.closeJobs_duties (s : State) (a : Eng) (f : RecJob → Bool) : Kept State.duties s (s.closeJobs a f) := by
  unfold State.closeJobs
  refine .fold _ _ _ fun s j => ?_
  split
  · exact .ite (s.closeJob_duties a j) .refl
  · exact .refl

theorem State.abandonJobs_duties (s : State) (gone : CtxIx → Bool) : Kept State.duties s (s.abandonJobs gone) := by
  unfold State.abandonJobs
  refine .fold _ _ _ fun s a => ?_
  extract_lets s1
  exact (s.closeJobs_duties a _).trans ((State.modRec_moves ..).account rfl).duties_of_account

theorem State.resource_duties (s : State) (lost : List Nat) : Kept State.duties s (s.resource lost) := by
  unfold State.resource
  refine .fold _ _ _ fun s p => ?_
  extract_lets c bad
  split
  · exact .refl
  · exact .ite (s.modCtx_duties _ fun _ => rfl) .refl

theorem State.endContracts_stands (s : State) (sel : Contract → Bool) : s.Stands (s.endContracts sel) := by
  unfold State.endContracts
  refine .fold _ _ _ fun s p => ?_
  split
  · extract_lets s1
    have h1 : s.Stands s1 := (State.condition_moves ..).stands rfl rfl rfl
    clear_value s1
    refine h1.trans ⟨fun _ => rfl, fun _ h => h, rfl, ⟨[], rfl⟩, fun p hp => ⟨p, hp, rfl⟩, fun _ hc => List.mem_of_mem_filter hc⟩
  · exact .refl s

/-- The commands discarded go, and only they. -/
theorem State.discard_effect (s : State) (sel : Ctx → Bool) : s.Stands (s.discard sel) ∧
    ∃ u : State, (∀ p ∈ u.q.ctxs, sel p.2 = false) ∧ u.Stands (s.discard sel) := by
  unfold State.discard
  extract_lets gone isGone views lost mps s1 places s2 s3 moving drain free held s4 s5 s6
  have h1 : s.Stands s1 := ((s.abandonSlots_moves isGone).stands rfl rfl rfl).trans
    ((State.abandonJobs_moves ..).stands_of_duties rfl rfl (State.abandonJobs_duties ..))
  have h3 : s1.Stands s3 := ((s1.orphanSectors_moves places).stands rfl rfl rfl).trans
    (.fold _ _ _ fun s a => (s.modSeq_moves a _).stands rfl rfl rfl)
  clear_value s3
  have h4 : s3.Stands s4 := ⟨fun _ => rfl, fun _ h => h, rfl, ⟨[], rfl⟩, fun p hp => ⟨p, List.mem_of_mem_filter hp, rfl⟩, fun _ hc => hc⟩
  have hgone : ∀ p ∈ s4.q.ctxs, sel p.2 = false := fun p hp => by
    have hkept := (List.mem_filter.mp hp).2
    rwa [Bool.not_eq_true'] at hkept
  have h5 : s4.Stands s5 := (s4.modMedia_moves _).stands rfl rfl rfl
  have h6 : s5.Stands s6 := .fold _ _ _ fun s p => s.drawBack_stands p.1 p.2
  have hrest : s4.Stands (s6.resource lost) :=
    h5.trans <| h6.trans <| (s6.resource_moves lost).stands_of_duties rfl rfl (s6.resource_duties lost)
  exact ⟨h1.trans <| h3.trans <| h4.trans hrest, s4, hgone, hrest⟩

theorem State.settleShutdown_stands (s : State) (f : Fn) : s.Stands (s.settleShutdown f) := by
  unfold State.settleShutdown
  extract_lets x busy dirty s1
  have h1 : s.Stands s1 := s.modFn_stands f (fun _ => rfl) fun _ h => h
  exact .ite (.ite (h1.trans (s1.shutdownUnload_moves.stands_of_duties rfl rfl s1.shutdownUnload_account.duties_of_account)) h1) (.refl s)

theorem State.settleOpal_stands (s : State) : s.Stands s.settleOpal := by
  have hmoves := s.settleOpal_moves
  have hq : s.settleOpal.q = s.q := hmoves.q_eq rfl
  have hhost : s.settleOpal.host = s.host := hmoves.host_eq rfl
  exact ⟨fun _ => by rw [hhost], fun _ hn => hhost ▸ hn, by rw [hhost], ⟨[], rfl⟩, fun p hp => ⟨p, hq ▸ hp, rfl⟩, fun _ hc => hq ▸ hc⟩

theorem State.settleWrites_stands (s : State) : s.Stands s.settleWrites := by
  have hflush : Kept State.duties s s.settleFlushes := by
    unfold State.settleFlushes
    refine .fold _ _ _ fun s p => ?_
    extract_lets c mine passed st
    exact .ite (.ite (State.modCtx_duties (s.modQ fun q => { q with buffered := q.buffered.filter fun b => !c.covers.contains b.startNo })
      _ fun _ => rfl) .refl) .refl
  refine (s.settleFlushes_moves.stands_of_duties rfl rfl hflush).trans ?_
  refine .trans (.fold State.settleShutdown (fins 16) _ State.settleShutdown_stands) ?_
  exact ((State.settleReset_moves _).stands rfl rfl rfl).trans (State.settleOpal_stands _)

end Sys2Proof.Machine
end

section
/-! SUPPORT. Host resets, virtual functions, controller enable and shutdown (13_host_link_nvme.md). -/

namespace Sys2Proof.Machine
open Sys2Proof
set_option Elab.async false

/-! ### The reset of one function (R504) -/

/-- As `State.Stands`, but for one function. -/
structure State.StandsBut (f : Fn) (s t : State) : Prop where
  fns : ∀ n : Fn, f ≠ n → t.host.fns[n].calm = s.host.fns[n].calm
  queues : ∀ n : Fn, f ≠ n → s.host.fns[n].cqs = [] → t.host.fns[n].cqs = []
  link : t.host.calm = s.host.calm
  posted : ∃ l, t.out.completions = l ++ s.out.completions
  owners : ∀ p ∈ t.q.ctxs, ∃ p' ∈ s.q.ctxs, p'.2.fn = p.2.fn

theorem State.Stands.but {s t : State} (h : s.Stands t) (f : Fn) : s.StandsBut f t :=
  ⟨fun n _ => h.fns n, fun n _ => h.queues n, h.link, h.posted, h.owners⟩

theorem State.StandsBut.trans {f : Fn} {s t u : State} (h1 : s.StandsBut f t) (h2 : t.StandsBut f u) : s.StandsBut f u := by
  refine ⟨fun n hn => (h2.fns n hn).trans (h1.fns n hn), fun n hn hq => h2.queues n hn (h1.queues n hn hq), h2.link.trans h1.link, ?_,
    fun p hp => ?_⟩
  · obtain ⟨l1, hl1⟩ := h1.posted
    obtain ⟨l2, hl2⟩ := h2.posted
    exact ⟨l2 ++ l1, by rw [hl2, hl1, List.append_assoc]⟩
  · obtain ⟨p2, hp2, hfn2⟩ := h2.owners p hp
    obtain ⟨p1, hp1, hfn1⟩ := h1.owners p2 hp2
    exact ⟨p1, hp1, hfn1.trans hfn2⟩

theorem State.modFn_standsBut (s : State) (f : Fn) (g : FnState → FnState) : s.StandsBut f (s.modFn f g) :=
  ⟨fun n hn => by rw [State.modFn_other _ _ hn], fun n hn hq => by rw [State.modFn_other _ _ hn]; exact hq, rfl, ⟨[], rfl⟩,
    fun p hp => ⟨p, hp, rfl⟩⟩

/-- A function cleared, with the commands it had counted as discarded; it may have its pairs anew. -/
def FnState.reset (x : FnState) (n pairs : Nat) : FnState := { x.cleared with discCnt := satAdd 32 x.discCnt n, pairs := pairs }

/-- What a function has to end at a reset (R504). -/
def State.discarded (s : State) (f : Fn) : Nat := (s.q.ctxs.filter fun p => p.2.fn == f).length + s.pendingAdmin f

/-- The reset of a function: it is cleared and has no command left; the others stand. -/
structure State.FnReset (f : Fn) (s t : State) : Prop where
  but : s.StandsBut f t
  mine : ∃ pairs, t.host.fns[f].calm = (s.host.fns[f].reset (s.discarded f) pairs).calm
  queues : t.host.fns[f].cqs = []
  gone : ∀ p ∈ t.q.ctxs, p.2.fn ≠ f

theorem State.healthChange_stands (s : State) (bit : Nat) : s.Stands (s.healthChange bit) :=
  s.modHost_stands (fun _ => rfl) fun _ => rfl

theorem FnState.cleared_calm {x y : FnState} (h : x.calm = y.calm) (pairs : Nat) :
    ({ x.cleared with pairs := pairs } : FnState).calm = ({ y.cleared with pairs := pairs } : FnState).calm :=
  (congrArg (fun z : FnState => ({ z.cleared with pairs := pairs } : FnState).calm) h :)

theorem FnState.reset_calm {x y : FnState} (h : x.calm = y.calm) (n pairs : Nat) : (x.reset n pairs).calm = (y.reset n pairs).calm :=
  (congrArg (fun z : FnState => (z.reset n pairs).calm) h :)

/-- The physical function's pairs anew (R471); another function keeps its own. -/
theorem State.newPairs_effect (s : State) (f : Fn) (n : Nat) {t : State}
    (ht : t = if f = 0 then s.modFn 0 fun x => { x with pairs := n } else s) :
    (∃ pairs, t.host.fns[f] = { s.host.fns[f] with pairs := pairs }) ∧ s.StandsBut f t := by
  subst ht
  split
  next h =>
    subst h
    exact ⟨⟨n, s.modFn_same 0 _⟩, s.modFn_standsBut 0 _⟩
  next => exact ⟨⟨_, rfl⟩, (State.Stands.refl s).but f⟩

theorem State.resetFn_effect (s : State) (f : Fn) : s.FnReset f (s.resetFn f) := by
  unfold State.resetFn
  extract_lets n s1 s2 s3 s4 s5 s6 s7 s8 s9
  obtain ⟨h1, u, hgone, hu⟩ : s.Stands s1 ∧ ∃ u : State, (∀ p ∈ u.q.ctxs, (p.2.fn == f) = false) ∧ u.Stands s1 := s.discard_effect _
  clear_value s1
  have h2 : s2.host.fns[f] = { s1.host.fns[f] with discCnt := satAdd 32 s1.host.fns[f].discCnt n } := s1.modFn_same f _
  have hbut2 : s1.StandsBut f s2 := s1.modFn_standsBut f _
  clear_value s2
  have h26 : s2.Stands s6 := .trans (s2.endContracts_stands _) <| .trans ((s3.dropExchanges_moves f).stands rfl rfl rfl) <|
    .trans ((s4.modSec_moves _).stands rfl rfl rfl) (s5.closeOpenZones_stands f)
  clear_value s6
  have h27 : s2.Stands s7 := h26.trans ((s6.modQ_moves _).stands_of_duties rfl rfl rfl)
  clear_value s7
  have h8 : s8.host.fns[f] = s7.host.fns[f].cleared := s7.modFn_same f _
  have hbut8 : s7.StandsBut f s8 := s7.modFn_standsBut f _
  clear_value s8
  obtain ⟨⟨pairs, h9⟩, hbut9⟩ : (∃ pairs, s9.host.fns[f] = { s8.host.fns[f] with pairs := pairs }) ∧ s8.StandsBut f s9 := s8.newPairs_effect f _ rfl
  clear_value s9
  have h10 : s9.Stands (s9.healthChange 5).settleWrites := .trans (s9.healthChange_stands 5) (State.settleWrites_stands _)
  have hlast : s1.StandsBut f (s9.healthChange 5).settleWrites :=
    .trans hbut2 <| .trans (h27.but f) <| .trans hbut8 <| .trans hbut9 (h10.but f)
  refine ⟨.trans (h1.but f) hlast, ⟨pairs, ?_⟩, h10.queues f (by rw [h9, h8]; rfl), fun p hp => ?_⟩
  · rw [h10.fns f, h9, h8, FnState.cleared_calm (h27.fns f), h2]
    exact FnState.reset_calm (h1.fns f) n pairs
  · obtain ⟨p', hp', hfn⟩ := ((hu.but f).trans hlast).owners p hp
    exact hfn ▸ ne_of_beq_false (hgone p' hp')

/-- What a function level reset leaves of a function, but for its number of pairs. -/
def FnState.flr (x : FnState) (n pairs : Nat) : FnState := { x.reset n pairs with flrCnt := satAdd 32 x.flrCnt 1, cmbmsc := 0 }

theorem State.flr_effect (s : State) (f : Fn) : s.StandsBut f (s.flr f) ∧
    (∃ pairs, (s.flr f).host.fns[f].calm = (s.host.fns[f].flr (s.discarded f) pairs).calm) ∧ (s.flr f).host.fns[f].cqs = [] ∧
    ∀ p ∈ (s.flr f).q.ctxs, p.2.fn ≠ f := by
  obtain ⟨hbut, ⟨pairs, hmine⟩, hqueues, hgone⟩ := s.resetFn_effect f
  unfold State.flr
  have hrefill : (s.resetFn f).Stands ((s.resetFn f).refillCmb f) := (State.refillCmb_moves ..).stands rfl rfl rfl
  generalize (s.resetFn f).refillCmb f = u at hrefill ⊢
  refine ⟨hbut.trans ((hrefill.but f).trans (u.modFn_standsBut f _)), ⟨pairs, ?_⟩, ?_, fun p hp => ?_⟩
  · rw [State.modFn_same]
    have hu : u.host.fns[f].calm = (s.host.fns[f].reset (s.discarded f) pairs).calm := (hrefill.fns f).trans hmine
    exact (congrArg (fun z : FnState => ({ z with flrCnt := satAdd 32 z.flrCnt 1, cmbmsc := 0 } : FnState)) hu :)
  · rw [State.modFn_same]
    exact hrefill.queues f hqueues
  · obtain ⟨p', hp', hfn⟩ := hrefill.owners p hp
    exact hfn ▸ hgone p' hp'

/-- The fields a function level reset clears. -/
theorem FnState.flr_fields {x y : FnState} {n pairs : Nat} (h : y.calm = (x.flr n pairs).calm) :
    y.en = false ∧ y.rdy = false ∧ y.sqs = [] ∧ y.flrCnt = satAdd 32 x.flrCnt 1 ∧ y.present = x.present ∧ y.cmbmsc = 0 ∧
      y.discCnt = satAdd 32 x.discCnt n :=
  ⟨(congrArg FnState.en h :), (congrArg FnState.rdy h :), (congrArg FnState.sqs h :), (congrArg FnState.flrCnt h :),
    (congrArg FnState.present h :), (congrArg FnState.cmbmsc h :), (congrArg FnState.discCnt h :)⟩

/-- The fields a reset clears, and those it keeps. -/
theorem FnState.reset_fields {x y : FnState} {n pairs : Nat} (h : y.calm = (x.reset n pairs).calm) :
    y.en = false ∧ y.rdy = false ∧ y.sqs = [] ∧ y.flrCnt = x.flrCnt ∧ y.present = x.present ∧ y.discCnt = satAdd 32 x.discCnt n :=
  ⟨(congrArg FnState.en h :), (congrArg FnState.rdy h :), (congrArg FnState.sqs h :), (congrArg FnState.flrCnt h :),
    (congrArg FnState.present h :), (congrArg FnState.discCnt h :)⟩

theorem completes_functionLevelReset (s : State) (f : Fn) (hpresent : s.host.fns[f].present = true) :
    Completes (exec (.functionLevelReset f) s) fun t =>
       t.host.fns[f].en = false ∧ t.host.fns[f].rdy = false ∧ t.host.fns[f].sqs = [] ∧ t.host.fns[f].cqs = [] ∧
       t.host.fns[f].flrCnt = satAdd 32 s.host.fns[f].flrCnt 1 ∧ t.host.fns[f].present = true ∧ t.host.fns[f].cmbmsc = 0 ∧
       t.host.fns[f].discCnt = satAdd 32 s.host.fns[f].discCnt ((s.q.ctxs.filter fun p => p.2.fn == f).length + s.pendingAdmin f) ∧
       (∀ p ∈ t.q.ctxs, p.2.fn ≠ f) := by
  obtain ⟨-, ⟨pairs, hmine⟩, hqueues, hgone⟩ := s.flr_effect f
  obtain ⟨hen, hrdy, hsqs, hcnt, hpres, hcmb, hdisc⟩ := FnState.flr_fields hmine
  exact ⟨_, congrArg Host.Outcome.next (if_pos hpresent), hen, hrdy, hsqs, hqueues, hcnt, hpres.trans hpresent, hcmb, hdisc, hgone⟩

theorem completes_controllerReset (s : State) (f : Fn) (hen : s.host.fns[f].en = true) : Completes (exec (.controllerReset f) s) fun t =>
       t.host.fns[f].en = false ∧ t.host.fns[f].rdy = false ∧ t.host.fns[f].sqs = [] ∧ t.host.fns[f].cqs = [] ∧
       t.host.fns[f].flrCnt = s.host.fns[f].flrCnt ∧ t.host.fns[f].present = s.host.fns[f].present ∧
       t.host.fns[f].discCnt = satAdd 32 s.host.fns[f].discCnt ((s.q.ctxs.filter fun p => p.2.fn == f).length + s.pendingAdmin f) ∧
       (∀ p ∈ t.q.ctxs, p.2.fn ≠ f) := by
  obtain ⟨-, ⟨pairs, hmine⟩, hqueues, hgone⟩ := s.resetFn_effect f
  have hexec : exec (.controllerReset f) s = .next (s.resetFn f) := congrArg Host.Outcome.next (if_pos hen)
  obtain ⟨hen', hrdy, hsqs, hcnt, hpres, hdisc⟩ := FnState.reset_fields hmine
  exact ⟨s.resetFn f, hexec, hen', hrdy, hsqs, hqueues, hcnt, hpres, hdisc, hgone⟩

/-- The number of virtual functions, by the functions that are present. -/
theorem State.vfCount_eq {s t : State} {f : Fn} (hf : t.host.fns[f].present = false)
    (hother : ∀ g : Fn, f ≠ g → t.host.fns[g].present = s.host.fns[g].present) :
    t.vfCount = ((fins 16).filter fun (g : Fn) => g.val != 0 && g != f && s.host.fns[g].present).length := by
  unfold State.vfCount
  congr 1
  refine List.filter_congr fun g _ => ?_
  by_cases hg : f = g
  · subst hg
    rw [hf, bne_self_eq_false, Bool.and_false, Bool.false_and]
  · rw [hother g hg, bne_iff_ne.mpr (Ne.symm hg), Bool.and_true]

theorem completes_vfDisable (s : State) (f : Fn) (hf : f ≠ 0) (hpresent : s.host.fns[f].present = true) :
    Completes (exec (.vfDisable f) s) fun t =>
       t.host.fns[f].present = false ∧ t.host.fns[f].en = false ∧ t.host.fns[f].sqs = [] ∧
       t.host.numVf = ((fins 16).filter fun (g : Fn) => g.val != 0 && g != f && s.host.fns[g].present).length ∧
       (∀ p ∈ t.q.ctxs, p.2.fn ≠ f) := by
  obtain ⟨hbut, ⟨pairs, hmine⟩, hqueues, hgone⟩ := s.flr_effect f
  obtain ⟨hen, -, hsqs, -, -, -, -⟩ := FnState.flr_fields hmine
  have hgo : ¬(f = 0 ∨ (!s.host.fns[f].present) = true) := by
    rw [hpresent]
    exact fun h => h.elim hf Bool.false_ne_true
  refine ⟨_, congrArg Host.Outcome.next (if_neg hgo), ?_⟩
  dsimp only [State.modHost]
  generalize s.flr f = u at *
  have hfn : (u.modFn f fun x => { x with present := false }).host.fns[f] = { u.host.fns[f] with present := false } := u.modFn_same f _
  refine ⟨congrArg FnState.present hfn, (congrArg FnState.en hfn).trans hen, (congrArg FnState.sqs hfn).trans hsqs, ?_, hgone⟩
  refine State.vfCount_eq (congrArg FnState.present hfn) fun g hg => ?_
  rw [State.modFn_other _ _ hg]
  exact (congrArg FnState.present (hbut.fns g hg) :)

/-! ### The reset of the link (R439) -/

/-- The reset of one function by that of the link. -/
def State.linkResetFn (s : State) (f : Fn) : State :=
  if s.host.fns[f].present then (s.flr f).modFn f fun x => { x with present := f = 0 } else s

/-- What the reset of the link leaves of a function. -/
structure FnState.LinkReset (n : Fn) (x y : FnState) : Prop where
  fields : ∃ d pairs, y.calm = ({ x.flr d pairs with present := n = 0 } : FnState).calm
  queues : y.cqs = []

theorem FnState.LinkReset.cleared {n : Fn} {x y : FnState} (h : FnState.LinkReset n x y) :
    y.present = decide (n = 0) ∧ y.en = false ∧ y.rdy = false ∧ y.sqs = [] ∧ y.cqs = [] ∧ y.cmbmsc = 0 ∧ y.flrCnt = satAdd 32 x.flrCnt 1 := by
  obtain ⟨⟨d, pairs, hfields⟩, hqueues⟩ := h
  exact ⟨(congrArg FnState.present hfields :), (congrArg FnState.en hfields :), (congrArg FnState.rdy hfields :),
    (congrArg FnState.sqs hfields :), hqueues, (congrArg FnState.cmbmsc hfields :), (congrArg FnState.flrCnt hfields :)⟩

theorem State.linkResetFn_present {s : State} {f : Fn} (h : s.host.fns[f].present = true) : s.StandsBut f (s.linkResetFn f) ∧
    FnState.LinkReset f s.host.fns[f] (s.linkResetFn f).host.fns[f] ∧ ∀ p ∈ (s.linkResetFn f).q.ctxs, p.2.fn ≠ f := by
  obtain ⟨hbut, ⟨pairs, hmine⟩, hqueues, hgone⟩ := s.flr_effect f
  rw [State.linkResetFn, if_pos h]
  generalize s.flr f = u at *
  refine ⟨hbut.trans (u.modFn_standsBut f _), ⟨⟨s.discarded f, pairs, ?_⟩, ?_⟩, hgone⟩
  · rw [State.modFn_same]
    exact (congrArg (fun z : FnState => ({ z with present := f = 0 } : FnState)) hmine :)
  · rw [State.modFn_same]
    exact hqueues

theorem State.linkResetFn_absent {s : State} {f : Fn} (h : s.host.fns[f].present = false) : s.linkResetFn f = s :=
  if_neg (by rw [h]; exact Bool.false_ne_true)

theorem State.linkResetFn_but (s : State) (f : Fn) : s.StandsBut f (s.linkResetFn f) := by
  cases h : s.host.fns[f].present with
  | true => exact (State.linkResetFn_present h).1
  | false =>
    rw [State.linkResetFn_absent h]
    exact (State.Stands.refl s).but f

theorem FnState.LinkReset.of_calm {n : Fn} {x x' y y' : FnState} (h : FnState.LinkReset n x y) (hx : x.calm = x'.calm)
    (hy : y'.calm = y.calm) (hq : y.cqs = [] → y'.cqs = []) : FnState.LinkReset n x' y' := by
  obtain ⟨⟨d, pairs, hfields⟩, hqueues⟩ := h
  refine ⟨⟨d, pairs, hy.trans (hfields.trans ?_)⟩, hq hqueues⟩
  exact (congrArg (fun z : FnState => ({ z.flr d pairs with present := n = 0 } : FnState).calm) hx :)

/-- The functions of a list reset one after another: the others stand. -/
theorem State.linkResetFns_other (l : List Fn) (s : State) {n : Fn} (hn : n ∉ l) :
    (l.foldl State.linkResetFn s).host.fns[n].calm = s.host.fns[n].calm ∧
      (s.host.fns[n].cqs = [] → (l.foldl State.linkResetFn s).host.fns[n].cqs = []) := by
  induction l generalizing s with
  | nil => exact ⟨rfl, id⟩
  | cons f l ih =>
    obtain ⟨hfn, hl⟩ := not_or.mp (List.mem_cons.not.mp hn)
    obtain ⟨hcalm, hqueues⟩ := ih (s.linkResetFn f) hl
    have hbut := s.linkResetFn_but f
    exact ⟨hcalm.trans (hbut.fns n (Ne.symm hfn)), fun h => hqueues (hbut.queues n (Ne.symm hfn) h)⟩

theorem State.linkResetFns_owners (l : List Fn) (s : State) : ∀ p ∈ (l.foldl State.linkResetFn s).q.ctxs, ∃ p' ∈ s.q.ctxs, p'.2.fn = p.2.fn := by
  induction l generalizing s with
  | nil => exact fun p hp => ⟨p, hp, rfl⟩
  | cons f l ih =>
    intro p hp
    obtain ⟨p1, hp1, hfn1⟩ := ih (s.linkResetFn f) p hp
    obtain ⟨p2, hp2, hfn2⟩ := (s.linkResetFn_but f).owners p1 hp1
    exact ⟨p2, hp2, hfn2.trans hfn1⟩

theorem State.linkResetFns_link (l : List Fn) (s : State) : (l.foldl State.linkResetFn s).host.calm = s.host.calm := by
  induction l generalizing s with
  | nil => rfl
  | cons f l ih => exact (ih _).trans (s.linkResetFn_but f).link

/-- Each function of the list that is present is reset, and none of its commands is left. -/
theorem State.linkResetFns_present {l : List Fn} (hnd : l.Nodup) (s : State) {n : Fn} (hn : n ∈ l) (h : s.host.fns[n].present = true) :
    FnState.LinkReset n s.host.fns[n] (l.foldl State.linkResetFn s).host.fns[n] ∧
      ∀ p ∈ (l.foldl State.linkResetFn s).q.ctxs, p.2.fn ≠ n := by
  induction l generalizing s with
  | nil => exact absurd hn List.not_mem_nil
  | cons f l ih =>
    obtain ⟨hfl, hnd'⟩ := List.nodup_cons.mp hnd
    rw [List.foldl_cons]
    by_cases hfn : f = n
    · subst hfn
      obtain ⟨-, hreset, hgone⟩ := State.linkResetFn_present h
      obtain ⟨hcalm, hqueues⟩ := State.linkResetFns_other l (s.linkResetFn f) hfl
      refine ⟨hreset.of_calm rfl hcalm hqueues, fun p hp => ?_⟩
      obtain ⟨p', hp', hown⟩ := State.linkResetFns_owners l _ p hp
      exact hown ▸ hgone p' hp'
    · have hcalm := (s.linkResetFn_but f).fns n hfn
      have hpresent : (s.linkResetFn f).host.fns[n].present = true := (congrArg FnState.present hcalm :).trans h
      obtain ⟨hreset, hgone⟩ := ih hnd' (s.linkResetFn f) (List.mem_of_ne_of_mem (Ne.symm hfn) hn) hpresent
      exact ⟨hreset.of_calm hcalm rfl id, hgone⟩

theorem State.linkResetFns_core (l : List Fn) (s : State) (a : Eng) : (l.foldl State.linkResetFn s).eng[a].core = s.eng[a].core := by
  induction l generalizing s with
  | nil => rfl
  | cons f l ih =>
    refine (ih _).trans ?_
    unfold State.linkResetFn
    split
    · exact ((State.modFn_moves ..).core_eq rfl a).trans ((s.flr_moves f).core_eq rfl a)
    · rfl

/-- The host link after the reset of its link (R439). -/
def HostLink.linkReset (h : HostLink) (k : LinkResetKind) (down : Nat) : HostLink :=
  { h with
    numVf := 0, ari := false, dlUp := false, l1 := false, gen := 0, width := 0, perst := h.perst || k == .perst
    linkDownCnt := if k = .linkDown then inc 32 down else h.linkDownCnt }

theorem execLinkReset_effect (k : LinkResetKind) (s : State) : ∃ t, execLinkReset k s = .next t ∧
    t.host = ((fins 16).foldl State.linkResetFn s).host.linkReset k s.host.linkDownCnt ∧ t.q = ((fins 16).foldl State.linkResetFn s).q ∧
    ∀ a : Eng, t.eng[a].core = ((fins 16).foldl State.linkResetFn s).eng[a].core := by
  refine ⟨_, rfl, ?_⟩
  generalize hu : (fins 16).foldl (fun (s : State) (f : Fn) =>
      if s.host.fns[f].present then (s.flr f).modFn f fun x => { x with present := f = 0 } else s) s = u
  rw [show (fins 16).foldl State.linkResetFn s = u from hu]
  unfold HostLink.linkReset
  by_cases hk : k = .linkDown
  · rw [if_pos hk, if_pos hk]
    have hmoves := State.saturated_moves
      ((u.modHost fun h => { h with
          numVf := 0, ari := false, dlUp := false, l1 := false, gen := 0, width := 0, perst := h.perst || k == .perst }).modHost fun h =>
        { h with linkDownCnt := inc 32 s.host.linkDownCnt })
      (reaches 32 s.host.linkDownCnt) 0x0D 5 0 0x60018 (nw (inc 32 s.host.linkDownCnt))
    exact ⟨hmoves.host_eq rfl, hmoves.q_eq rfl, hmoves.core_eq rfl⟩
  · rw [if_neg hk, if_neg hk]
    exact ⟨rfl, rfl, fun _ => rfl⟩

theorem completes_linkReset (s : State) (k : LinkResetKind) : Completes (exec (.linkReset k) s) fun t =>
       t.host.numVf = 0 ∧ t.host.ari = false ∧ t.host.dlUp = false ∧ t.host.l1 = false ∧ t.host.gen = 0 ∧ t.host.width = 0 ∧
       t.host.perst = (s.host.perst || k == .perst) ∧
       t.host.linkDownCnt = (if k = .linkDown then inc 32 s.host.linkDownCnt else s.host.linkDownCnt) ∧
       (∀ f : Fn, s.host.fns[f].present = true →
         t.host.fns[f].present = decide (f = 0) ∧ t.host.fns[f].en = false ∧ t.host.fns[f].rdy = false ∧ t.host.fns[f].sqs = [] ∧
         t.host.fns[f].cqs = [] ∧ t.host.fns[f].cmbmsc = 0 ∧ t.host.fns[f].flrCnt = satAdd 32 s.host.fns[f].flrCnt 1) ∧
       (∀ p ∈ t.q.ctxs, s.host.fns[p.2.fn].present = false) ∧ t.eng.map (·.core) = s.eng.map (·.core) := by
  obtain ⟨t, ht, hhost, hq, heng⟩ := execLinkReset_effect k s
  have hlink := State.linkResetFns_link (fins 16) s
  have hcore := State.linkResetFns_core (fins 16) s
  have hfns (n : Fn) := State.linkResetFns_present (l := fins 16) (List.nodup_finRange 16) s (List.mem_finRange n)
  generalize (fins 16).foldl State.linkResetFn s = u at *
  refine ⟨t, ht, ?_⟩
  dsimp only
  have hsame : t.host.fns = u.host.fns := (congrArg HostLink.fns hhost :)
  rw [hsame, hhost, hq]
  have hperst : u.host.perst = s.host.perst := (congrArg HostLink.perst hlink :)
  have hdown : u.host.linkDownCnt = s.host.linkDownCnt := (congrArg HostLink.linkDownCnt hlink :)
  refine ⟨rfl, rfl, rfl, rfl, rfl, rfl, congrArg (· || k == .perst) hperst, ?_, fun f hf => ?_, fun p hp => ?_, ?_⟩
  · exact congrArg (fun n => if k = .linkDown then inc 32 s.host.linkDownCnt else n) hdown
  · exact (hfns f hf).1.cleared
  · cases hpresent : s.host.fns[p.2.fn].present with
    | true => exact absurd rfl ((hfns p.2.fn hpresent).2 p hp)
    | false => rfl
  · exact Vector.ext fun i hi => by
      rw [Vector.getElem_map, Vector.getElem_map]
      exact (heng ⟨i, hi⟩).trans (hcore ⟨i, hi⟩)

/-! ### Virtual functions enabled (R440) -/

/-- The functions of a list that a number reaches are present. -/
theorem State.presentFns_effect (k : Nat) (l : List Fn) (s : State) {t : State} (ht : t = l.foldl (fun (s : State) (f : Fn) =>
      if 0 < f.val ∧ f.val ≤ k then s.modFn f fun x => { x with present := true } else s) s) :
    t = { s with host := { s.host with fns := t.host.fns } } ∧
      ∀ n : Fn, t.host.fns[n] = { s.host.fns[n] with present := s.host.fns[n].present || decide (n ∈ l ∧ 0 < n.val ∧ n.val ≤ k) } := by
  subst ht
  induction l generalizing s with
  | nil => exact ⟨rfl, fun n => by simp⟩
  | cons f l ih =>
    rw [List.foldl_cons]
    by_cases hf : 0 < f.val ∧ f.val ≤ k
    · rw [if_pos hf]
      obtain ⟨hwhole, hfns⟩ := ih (s.modFn f fun x => { x with present := true })
      refine ⟨hwhole, fun n => (hfns n).trans ?_⟩
      by_cases hn : f = n
      · subst hn
        rw [State.modFn_same]
        simp [hf]
      · rw [State.modFn_other _ _ hn]
        simp [Ne.symm hn]
    · rw [if_neg hf]
      obtain ⟨hwhole, hfns⟩ := ih s
      refine ⟨hwhole, fun n => (hfns n).trans ?_⟩
      by_cases hn : n = f
      · subst hn
        rw [decide_eq_false fun h => hf h.2, decide_eq_false fun h => hf h.2]
      · simp [hn]

theorem completes_vfEnable (s : State) (n : Fin 16) (hpresent : s.host.fns[(0 : Fn)].present = true) (hrec : s.rst.recovery = false)
    (hvf : s.host.numVf = 0) : Completes (exec (.vfEnable n) s) fun t =>
       t.host.numVf = (if s.host.ari then n.val else min n.val 7) ∧
       (∀ f : Fn, t.host.fns[f] = { s.host.fns[f] with present := s.host.fns[f].present || decide (0 < f.val ∧ f.val ≤ t.host.numVf) }) ∧
       t = { s with host := { s.host with numVf := t.host.numVf, fns := t.host.fns } } := by
  have hgo : ¬(!s.host.fns[(0 : Fn)].present || s.rst.recovery || s.host.numVf != 0) = true := by
    rw [hpresent, hrec, hvf]
    decide
  refine ⟨_, congrArg Host.Outcome.next (if_neg hgo), ?_⟩
  generalize hk : (if s.host.ari then n.val else min n.val 7) = k
  obtain ⟨hwhole, hfns⟩ := State.presentFns_effect k (fins 16) (s.modHost fun h => { h with numVf := k }) rfl
  generalize (fins 16).foldl (fun (s : State) (f : Fn) =>
      if 0 < f.val ∧ f.val ≤ k then s.modFn f fun x => { x with present := true } else s) (s.modHost fun h => { h with numVf := k }) = u
    at hwhole hfns ⊢
  have hnum : u.host.numVf = k := by rw [hwhole]; rfl
  refine ⟨hnum, fun f => ?_, by rw [hnum]; exact hwhole⟩
  rw [hnum, hfns f]
  simp only [List.mem_finRange, fins, true_and]
  rfl

/-! ### Controller enable and shutdown (R506, R636) -/

theorem completes_controllerEnable (s : State) (f : Fn) (c : ControllerSetup) (hpresent : s.host.fns[f].present = true)
    (honline : s.host.fns[f].online = true) (hen : s.host.fns[f].en = false) : Completes (exec (.controllerEnable f c) s) fun t =>
       t.host.fns[f] = { s.host.fns[f] with
         en := true, rdy := s.rst.tblReady || s.rst.recovery, wrr := c.wrr, kaLast := s.mtime, cmbmsc := c.cmbmsc
         sqs := [{ id := 0, cq := 0, size := 4096 }], cqs := [{ id := 0, size := 4096, irqEn := true }] } ∧
       (∀ g : Fn, f ≠ g → t.host.fns[g] = s.host.fns[g]) ∧ t.host.healthFlags = s.host.healthFlags ||| 0x20 ∧
       t = { s with host := { s.host with fns := t.host.fns, healthFlags := t.host.healthFlags }, spn := t.spn } ∧
       (s.spn.shutStop = false → t.spn = s.spn) := by
  have hgo : ¬(!s.host.fns[f].present || !s.host.fns[f].online || s.host.fns[f].en) = true := by
    rw [hpresent, honline, hen]
    decide
  refine ⟨_, congrArg Host.Outcome.next (if_neg hgo), ?_⟩
  generalize hu : (s.modFn f fun x => { x with
      en := true, rdy := s.rst.tblReady || s.rst.recovery, wrr := c.wrr, cmbmsc := c.cmbmsc
      sqs := [{ id := 0, cq := 0, size := 4096 }], cqs := [{ id := 0, size := 4096, irqEn := true }], kaLast := s.mtime }) = u
  have hfns (n : Fn) : u.host.fns[n] = (s.modFn f fun x => { x with
      en := true, rdy := s.rst.tblReady || s.rst.recovery, wrr := c.wrr, cmbmsc := c.cmbmsc
      sqs := [{ id := 0, cq := 0, size := 4096 }], cqs := [{ id := 0, size := 4096, irqEn := true }]
      kaLast := s.mtime }).host.fns[n] := by rw [hu]
  have hwhole : u = { s with host := { s.host with fns := u.host.fns } } := by rw [← hu]; rfl
  have hwake : u.wakeSpindle = { u with spn := u.wakeSpindle.spn } :=
    u.wakeSpindle_moves.eq_of_parts rfl fun x => by cases x <;> first | rfl | exact fun _ => rfl
  have hasleep (h : s.spn.shutStop = false) : u.wakeSpindle = u := by
    have hu' : u.spn.shutStop = false := by rw [hwhole]; exact h
    exact if_pos (by rw [hu']; rfl)
  generalize u.wakeSpindle = v at hwake hasleep ⊢
  have hhost : v.host = { s.host with fns := u.host.fns } := by rw [hwake, hwhole]
  have hkept : (v.healthChange 5).host.fns = u.host.fns := (congrArg HostLink.fns hhost :)
  rw [hkept]
  refine ⟨?_, fun g hg => ?_, ?_, ?_, fun h => (congrArg State.spn ((hasleep h).trans hwhole) :)⟩
  · rw [hfns, State.modFn_same]
  · rw [hfns, State.modFn_other _ _ hg]
  · exact (congrArg (fun h : HostLink => h.healthFlags ||| 0x20) hhost :)
  · rw [hwake, hwhole]
    rfl

/-- A shutdown whose commands and writes are done completes (R506). -/
theorem State.settleShutdown_done {s : State} {f : Fn} (hshst : s.host.fns[f].shst = 1)
    (hbusy : (!s.host.fns[f].abrupt && s.q.ctxs.any fun p => p.2.fn == f && p.2.started) = false) (hdirty : s.q.buffered = []) :
    (s.settleShutdown f).host = (s.modFn f fun x => { x with shst := 2 }).host := by
  unfold State.settleShutdown
  extract_lets x busy dirty s1
  have hfree : dirty = false := by
    simp only [dirty, hdirty, List.any_nil]
  have hgo : (decide (x.shst = 1) && !busy && !dirty) = true := by
    rw [hfree, show busy = false from hbusy, decide_eq_true hshst]
    rfl
  refine (congrArg State.host (if_pos hgo)).trans ?_
  split
  · exact s1.shutdownUnload_moves.host_eq rfl
  · rfl

theorem State.settleShutdown_busy {s : State} {f : Fn} (hbusy : (!s.host.fns[f].abrupt && s.q.ctxs.any fun p => p.2.fn == f && p.2.started) = true) :
    s.settleShutdown f = s := by
  unfold State.settleShutdown
  extract_lets x busy dirty s1
  refine if_neg ?_
  rw [show busy = true from hbusy, Bool.not_true, Bool.and_false, Bool.false_and]
  exact Bool.false_ne_true

theorem State.settleShutdown_shst (s : State) (f : Fn) :
    (s.settleShutdown f).host.fns[f].shst = s.host.fns[f].shst ∨ (s.settleShutdown f).host.fns[f].shst = 2 := by
  unfold State.settleShutdown
  extract_lets x busy dirty s1
  have h1 : s1.host.fns[f].shst = 2 := congrArg FnState.shst (s.modFn_same f _)
  split
  · refine .inr ?_
    split
    · have hhost : s1.shutdownUnload.host = s1.host := s1.shutdownUnload_moves.host_eq rfl
      exact (congrArg (fun h : HostLink => h.fns[f].shst) hhost).trans h1
    · exact h1
  · exact .inl rfl

theorem completes_shutdownNormal_busy (s : State) (f : Fn) (hen : s.host.fns[f].en = true) (hshst : s.host.fns[f].shst = 0)
    (hbusy : s.q.ctxs.any (fun p => p.2.fn == f && p.2.started) = true) : Completes (exec (.shutdownNormal f) s) fun t =>
       t.host.fns[f] = { s.host.fns[f] with shst := 1, abrupt := false } ∧ (∀ g : Fn, f ≠ g → t.host.fns[g] = s.host.fns[g]) ∧
       t = { s with host := { s.host with fns := t.host.fns } } := by
  have hgo : ¬(!s.host.fns[f].en || s.host.fns[f].shst != 0) = true := by
    rw [hen, hshst]
    decide
  have hwait : (s.modFn f fun x => { x with shst := 1, abrupt := false }).settleShutdown f =
      s.modFn f fun x => { x with shst := 1, abrupt := false } := State.settleShutdown_busy (by
    rw [State.modFn_same]
    exact hbusy)
  refine ⟨_, (congrArg Host.Outcome.next (if_neg hgo)).trans (congrArg Host.Outcome.next hwait), s.modFn_same f _, fun g hg => ?_, rfl⟩
  exact s.modFn_other _ hg

theorem completes_shutdownNormal_done (s : State) (f : Fn) (hen : s.host.fns[f].en = true) (hshst : s.host.fns[f].shst = 0)
    (hidle : s.q.ctxs.any (fun p => p.2.fn == f && p.2.started) = false) (hbuffered : s.q.buffered = []) :
    Completes (exec (.shutdownNormal f) s) fun t => t.host.fns[f].shst = 2 ∧ t.host.fns[f].abrupt = false ∧ t.host.fns[f].en = true := by
  have hgo : ¬(!s.host.fns[f].en || s.host.fns[f].shst != 0) = true := by
    rw [hen, hshst]
    decide
  refine ⟨_, congrArg Host.Outcome.next (if_neg hgo), ?_⟩
  have hone := s.modFn_same f fun x => { x with shst := 1, abrupt := false }
  have hhost := State.settleShutdown_done (s := s.modFn f fun x => { x with shst := 1, abrupt := false }) (f := f) (by rw [hone])
    (by rw [hone]; exact hidle) hbuffered
  have htwo : ((s.modFn f fun x => { x with shst := 1, abrupt := false }).settleShutdown f).host.fns[f] =
      { s.host.fns[f] with shst := 2, abrupt := false } := by
    rw [hhost, State.modFn_same, hone]
  dsimp only
  rw [htwo]
  exact ⟨rfl, rfl, hen⟩

theorem completes_shutdownAbrupt (s : State) (f : Fn) (hen : s.host.fns[f].en = true) (hshst : s.host.fns[f].shst ≠ 2) :
    Completes (exec (.shutdownAbrupt f) s) fun t =>
       t.host.fns[f].abrupt = true ∧ (t.host.fns[f].shst = 1 ∨ t.host.fns[f].shst = 2) ∧ (∀ p ∈ t.q.ctxs, p.2.fn ≠ f) ∧
       t.host.fns[f].discCnt = s.host.fns[f].discCnt := by
  have hgo : ¬(!s.host.fns[f].en || s.host.fns[f].shst == 2) = true := by
    rw [hen, beq_false_of_ne hshst]
    decide
  refine ⟨_, congrArg Host.Outcome.next (if_neg hgo), ?_⟩
  dsimp only
  obtain ⟨h1, u, hgone, hu⟩ : s.Stands (s.discard fun c => c.fn == f) ∧
      ∃ u : State, (∀ p ∈ u.q.ctxs, (p.2.fn == f) = false) ∧ u.Stands (s.discard fun c => c.fn == f) := s.discard_effect _
  generalize (s.discard fun c => c.fn == f) = v at h1 hu ⊢
  have hone := v.modFn_same f fun x => { x with shst := 1, abrupt := true }
  have hdone := (v.modFn f fun x => { x with shst := 1, abrupt := true }).settleShutdown_stands f
  have hshst := (v.modFn f fun x => { x with shst := 1, abrupt := true }).settleShutdown_shst f
  have howners : ∀ p ∈ ((v.modFn f fun x => { x with shst := 1, abrupt := true }).settleShutdown f).q.ctxs, ∃ p' ∈ v.q.ctxs, p'.2.fn = p.2.fn :=
    hdone.owners
  have hcalm := hdone.fns f
  generalize (v.modFn f fun x => { x with shst := 1, abrupt := true }).settleShutdown f = t at *
  rw [hone] at hcalm hshst
  refine ⟨(congrArg FnState.abrupt hcalm :), hshst, fun p hp => ?_, ?_⟩
  · obtain ⟨p1, hp1, hfn1⟩ := howners p hp
    obtain ⟨p2, hp2, hfn2⟩ := hu.owners p1 hp1
    exact hfn1 ▸ hfn2 ▸ ne_of_beq_false (hgone p2 hp2)
  · exact (congrArg FnState.discCnt hcalm :).trans (congrArg FnState.discCnt (h1.fns f) :)

/-- Settles O47: a reset's clauses follow from what the reset of one function leaves of the host link, the others from the branch taken. -/
theorem hostResets : Obligations.HostResets := by
  refine ⟨completes_linkReset, completes_functionLevelReset, completes_vfDisable, completes_vfEnable, completes_controllerReset,
    completes_controllerEnable, completes_shutdownNormal_busy, completes_shutdownNormal_done, completes_shutdownAbrupt,
    fun s => ⟨_, rfl, rfl⟩, fun s gen lanes ari hperst hphase hgen hlanes => ?_, fun s enter hup => ?_⟩
  · -- DATA_LINK_UP
    have hgo : ¬(s.host.perst || s.rst.phase == .bootRom || decide (gen = 0) || decide (lanes = 0) || decide (lanes = 3)) = true := by
      rw [hperst, beq_false_of_ne hphase, decide_eq_false hgen]
      rcases hlanes with rfl | rfl | rfl <;> decide
    exact ⟨_, congrArg Host.Outcome.next (if_neg hgo), rfl⟩
  · -- ASPM_L1_CHANGE
    exact ⟨_, congrArg Host.Outcome.next (if_pos hup), rfl⟩

end Sys2Proof.Machine
end

section
/-! SUPPORT. The admin commands that change features and the resources of functions, and what ends a sanitise or a format
(13_host_link_nvme.md). -/

namespace Sys2Proof.Machine
open Sys2Proof
set_option Elab.async false

/-! ### Completions without an error -/

/-- A completion without an error is no event: nothing but the host link and the outputs changes. -/
theorem State.post_quiet (s : State) {c : Completion} (h : c.status.check = false) : Moves [.host, .out] s (s.post c) := by
  unfold State.post
  extract_lets f irq s1 s2 s3
  have h3 : Moves [.host] s s3 := by
    have heq : s3 = s1 := if_neg (by rw [h]; exact Bool.false_ne_true)
    rw [heq]
    exact s.modFn_moves c.fn _
  exact (State.modOut_moves ..).after (by decide) (h3.widen (by decide))

theorem State.finishAdmin_quiet (s : State) {q : AdmReq} (dw0 : Word) (words : List Word) (hq : q.mi = none) :
    s.finishAdmin q stOk dw0 words =
      { s with host := (s.finishAdmin q stOk dw0 words).host, out := (s.finishAdmin q stOk dw0 words).out } := by
  have hmoves : Moves [.host, .out] s (s.finishAdmin q stOk dw0 words) := by
    unfold State.finishAdmin State.answerAdmin
    rw [hq, if_pos rfl]
    exact s.post_quiet rfl
  exact hmoves.eq_of_parts rfl fun x => by cases x <;> first | rfl | exact fun _ => rfl

section
variable {s u : State} {q : AdmReq} {noCtx pfOnly recOk : Bool} {body : State → AdmRes} {dw0 : Word} {words : List Word}
  {P : State → Prop} (h : adminReady q noCtx pfOnly s = true)
include h

/-- A command that concludes, with its completion the one thing it reports. -/
theorem completes_admin_quiet (hbody : body (s.takeAdmin q.fn) = { state := u, dw0 := dw0, words := words })
    (hP : ∀ t, AdminDone u t q.fn q.cid stOk dw0 words → t = { u with host := t.host, out := t.out } → P t) :
    Completes (s.admin q noCtx pfOnly recOk body) P := by
  rw [State.admin_of_ready recOk body h, hbody]
  exact ⟨_, rfl, hP _ (State.finishAdmin_done u stOk dw0 words (adminReady_mi h)) (u.finishAdmin_quiet dw0 words (adminReady_mi h))⟩

end

/-! ### Features (R443) -/

/-- What a feature kept by its value alone makes of a function. -/
def FnState.withFeature (x : FnState) (n : Nat) (v : Word) (save : Bool) : FnState :=
  { x with features := aset x.features n v, saved := if save then aset x.saved n v else x.saved }

/-- The features kept by their value alone. -/
theorem plainFeature {fid : BitVec 8} (h : fid = 0x01 ∨ fid = 0x04 ∨ fid = 0x05 ∨ fid = 0x08 ∨ fid = 0x09 ∨ fid = 0x0A ∨ fid = 0x0B ∨
    fid = 0x16 ∨ fid = 0x17 ∨ fid = 0x19) :
    keptFeatures.contains fid.toNat = true ∧ fid.toNat ≠ 0x02 ∧ fid.toNat ≠ 0x06 ∧ fid.toNat ≠ 0x07 ∧ fid.toNat ≠ 0x0F := by
  rcases h with rfl | rfl | rfl | rfl | rfl | rfl | rfl | rfl | rfl | rfl <;> decide

theorem completes_setFeatures_plain {s : State} {q : AdmReq} {fid : BitVec 8} {v : Word} {save : Bool} {P : State → Prop}
    (h : adminReady q false false s = true) (hfid : fid = 0x01 ∨ fid = 0x04 ∨ fid = 0x05 ∨ fid = 0x08 ∨ fid = 0x09 ∨ fid = 0x0A ∨
      fid = 0x0B ∨ fid = 0x16 ∨ fid = 0x17 ∨ fid = 0x19)
    (hP : ∀ t, AdminDone (if save then ((s.takeAdmin q.fn).modFn q.fn (·.withFeature fid.toNat v save)).modNor
          fun y => { y with saved := aset y.saved (q.fn, fid.toNat) v }
        else (s.takeAdmin q.fn).modFn q.fn (·.withFeature fid.toNat v save)) t q.fn q.cid stOk 0 [] → P t) :
    Completes (exec (.setFeatures q fid save v) s) P := by
  show Completes (execSetFeatures q fid save v s) _
  unfold execSetFeatures
  obtain ⟨hkept, h2, h6, h7, hf⟩ := plainFeature hfid
  refine completes_admin h ?_ hP
  dsimp only
  rw [hkept, if_neg (by decide), if_neg (by rintro ⟨-, h | h⟩; exacts [h7 h, hf h]), if_neg (fun h => h2 h.1), if_neg (fun h => h7 h.1)]
  simp only [h2, h6, h7, hf, if_false, or_self, FnState.withFeature]

theorem completes_setFeatures (s : State) (q : AdmReq) (fid : BitVec 8) (v : Word) (h : adminReady q false false s = true)
    (hfid : fid = 0x01 ∨ fid = 0x04 ∨ fid = 0x05 ∨ fid = 0x08 ∨ fid = 0x09 ∨ fid = 0x0A ∨ fid = 0x0B ∨ fid = 0x16 ∨ fid = 0x17 ∨ fid = 0x19) :
    Completes (exec (.setFeatures q fid false v) s) fun t =>
       t.host.fns[q.fn].features = aset s.host.fns[q.fn].features fid.toNat v ∧ t.host.fns[q.fn].saved = s.host.fns[q.fn].saved ∧
       t.host.fns[q.fn].ps = s.host.fns[q.fn].ps ∧ t.host.fns[q.fn].vwcOn = s.host.fns[q.fn].vwcOn ∧
       (∀ g : Fn, q.fn ≠ g → t.host.fns[g] = s.host.fns[g]) ∧ Concluded s t q stOk 0 [] ∧ t = s.afterAdmin t := by
  refine completes_setFeatures_plain h hfid fun t ht => ?_
  rw [if_neg Bool.false_ne_true] at ht
  have hfn := s.takeAdmin_same q.fn
  have hset := (s.takeAdmin q.fn).modFn_same q.fn (·.withFeature fid.toNat v false)
  refine ⟨?_, ?_, ?_, ?_, fun g hg => ?_, ht.concluded ⟨[], rfl⟩, ht.whole⟩
  · rw [ht.kept FnState.features fun _ _ _ _ _ => rfl, hset, hfn]
    rfl
  · rw [ht.kept FnState.saved fun _ _ _ _ _ => rfl, hset, hfn]
    rfl
  · rw [ht.kept FnState.ps fun _ _ _ _ _ => rfl, hset, hfn]
    rfl
  · rw [ht.kept FnState.vwcOn fun _ _ _ _ _ => rfl, hset, hfn]
    rfl
  · rw [ht.other g hg, State.modFn_other _ _ hg, s.takeAdmin_other hg]

theorem completes_setFeatures_saved (s : State) (q : AdmReq) (fid : BitVec 8) (v : Word) (h : adminReady q false false s = true)
    (hfid : fid = 0x01 ∨ fid = 0x04 ∨ fid = 0x05 ∨ fid = 0x08 ∨ fid = 0x09 ∨ fid = 0x0A ∨ fid = 0x0B ∨ fid = 0x16 ∨ fid = 0x17 ∨ fid = 0x19) :
    Completes (exec (.setFeatures q fid true v) s) fun t =>
       t.host.fns[q.fn].features = aset s.host.fns[q.fn].features fid.toNat v ∧ t.host.fns[q.fn].saved = aset s.host.fns[q.fn].saved fid.toNat v ∧
       t.nor = { s.nor with saved := aset s.nor.saved (q.fn, fid.toNat) v } ∧ Concluded s t q stOk 0 [] ∧
       t = ({ s with nor := t.nor } : State).afterAdmin t := by
  refine completes_setFeatures_plain h hfid fun t ht => ?_
  rw [if_pos rfl] at ht
  have hfn := s.takeAdmin_same q.fn
  have hset := (s.takeAdmin q.fn).modFn_same q.fn (·.withFeature fid.toNat v true)
  have hnor : t.nor = { s.nor with saved := aset s.nor.saved (q.fn, fid.toNat) v } := ht.moves.nor_eq rfl
  refine ⟨?_, ?_, hnor, ht.concluded ⟨[], rfl⟩, ?_⟩
  · rw [ht.kept FnState.features fun _ _ _ _ _ => rfl]
    exact (congrArg FnState.features hset).trans (by rw [hfn]; rfl)
  · rw [ht.kept FnState.saved fun _ _ _ _ _ => rfl]
    exact (congrArg FnState.saved hset).trans (by rw [hfn]; rfl)
  · rw [hnor]
    exact ht.whole

theorem completes_setFeatures_power (s : State) (q : AdmReq) (v : Word) (h : adminReady q false true s = true) (hv : fld v 4 0 ≤ 2) :
    Completes (exec (.setFeatures q 0x02 false v) s) fun t =>
       t.host.fns[(0 : Fn)].ps = fld v 4 0 ∧ Concluded s t q stOk 0 [] ∧ t = s.afterAdmin t := by
  show Completes (execSetFeatures q 0x02 false v s) _
  unfold execSetFeatures
  have hpf := adminReady_pf h
  have h2 : ¬((2 : BitVec 8).toNat = 0x02 ∧ (q.fn ≠ 0 ∨ 2 < fld v 4 0)) := by
    rintro ⟨-, h | h⟩
    · exact h hpf
    · exact Nat.not_lt.mpr hv h
  refine completes_admin (adminReady_any h) ((if_neg (by decide)).trans ((if_neg (by decide)).trans ((if_neg h2).trans (if_neg (by simp)))))
    fun t ht => ⟨?_, ht.concluded ⟨[], rfl⟩, ht.whole⟩
  have hps : t.host.fns[q.fn].ps = fld v 4 0 := by
    rw [ht.kept FnState.ps fun _ _ _ _ _ => rfl]
    refine (congrArg FnState.ps (State.modFn_same ..)).trans ?_
    dsimp only
    exact if_pos rfl
  exact (congrArg (fun f : Fn => t.host.fns[f].ps) hpf).symm.trans hps

theorem completes_setFeatures_writeCache (s : State) (q : AdmReq) (v : Word) (h : adminReady q false false s = true) :
    Completes (exec (.setFeatures q 0x06 false v) s) fun t =>
       t.host.fns[q.fn].vwcOn = v.getLsbD 0 ∧ Concluded s t q stOk 0 [] ∧ t = s.afterAdmin t := by
  show Completes (execSetFeatures q 0x06 false v s) _
  unfold execSetFeatures
  refine completes_admin h ((if_neg (by decide)).trans ((if_neg (by decide)).trans ((if_neg (by simp)).trans (if_neg (by simp)))))
    fun t ht => ⟨?_, ht.concluded ⟨[], rfl⟩, ht.whole⟩
  rw [ht.kept FnState.vwcOn fun _ _ _ _ _ => rfl]
  refine (congrArg FnState.vwcOn (State.modFn_same ..)).trans ?_
  dsimp only
  exact if_pos rfl

theorem completes_setFeatures_queues (s : State) (q : AdmReq) (v : Word) (h : adminReady q false false s = true)
    (hone : s.host.fns[q.fn].sqs.length ≤ 1 ∧ s.host.fns[q.fn].cqs.length ≤ 1) : Completes (exec (.setFeatures q 0x07 false v) s) fun t =>
       Concluded s t q stOk (mkw [bf 31 16 (s.host.fns[q.fn].pairs - 2), bf 15 0 (s.host.fns[q.fn].pairs - 2)]) [] ∧ t = s.afterAdmin t := by
  show Completes (execSetFeatures q 0x07 false v s) _
  unfold execSetFeatures
  have hfn := s.takeAdmin_same q.fn
  have hlen := s.takeAdmin_length q.fn
  have h3 : ¬((7 : BitVec 8).toNat = 0x07 ∧ (1 < (s.takeAdmin q.fn).host.fns[q.fn].sqs.length ∨ 1 < (s.takeAdmin q.fn).host.fns[q.fn].cqs.length)) := by
    rw [hlen, show (s.takeAdmin q.fn).host.fns[q.fn].cqs = s.host.fns[q.fn].cqs by rw [hfn]]
    omega
  have hword : (s.takeAdmin q.fn).host.fns[q.fn].queuesWord =
      mkw [bf 31 16 (s.host.fns[q.fn].pairs - 2), bf 15 0 (s.host.fns[q.fn].pairs - 2)] := by
    rw [hfn]
    rfl
  rw [← hword]
  exact completes_admin h ((if_neg (by decide)).trans ((if_neg (by simp)).trans ((if_neg (by simp)).trans (if_neg h3))))
    fun t ht => ⟨ht.concluded ⟨[], rfl⟩, ht.whole⟩

/-! ### Virtualisation management (R471, R472) -/

/-- A secondary controller's number names its function. -/
theorem secondaryFn {f : Fn} {c : BitVec 16} (hc : c.toNat = f.val + 1) : fin? 16 (c.toNat - 1) = some f := by
  rw [hc, Nat.add_sub_cancel]
  exact dif_pos f.isLt

theorem completes_virtualisation_flexible (s : State) (q : AdmReq) (n : BitVec 16) (h : adminReady q false true s = true)
    (hn : n.toNat ≤ s.pairsLeft 0) : Completes (exec (.virtualizationManagement q ⟨1, false, 1, n⟩) s) fun t =>
       t.nor = { s.nor with pairs := vset s.nor.pairs 0 n.toNat } ∧ t.host.fns[(0 : Fn)].pairs = s.host.fns[(0 : Fn)].pairs ∧
       Concluded s t q stOk (nw n.toNat) [] ∧ t = ({ s with nor := t.nor } : State).afterAdmin t := by
  show Completes (execVirtualizationManagement q ⟨1, false, 1, n⟩ s) _
  unfold execVirtualizationManagement
  have hpf := adminReady_pf h
  have hn' : ¬(s.takeAdmin q.fn).pairsLeft 0 < n.toNat := Nat.not_lt.mpr hn
  refine completes_adminOwn h (completes_admin h
    ((if_neg (by rintro (h | h); exacts [h rfl, absurd h (show ¬(1 : BitVec 16) = 0 by decide)])).trans ((if_neg Bool.false_ne_true).trans (if_neg hn'))) fun t ht => ?_)
  have hnor : t.nor = { s.nor with pairs := vset s.nor.pairs 0 n.toNat } := ht.moves.nor_eq rfl
  refine ⟨hnor, ?_, ht.concluded ⟨[], rfl⟩, ?_⟩
  · have hpairs : t.host.fns[q.fn].pairs = s.host.fns[q.fn].pairs := by
      rw [ht.kept FnState.pairs fun _ _ _ _ _ => rfl]
      exact (congrArg FnState.pairs (s.takeAdmin_same q.fn) :)
    exact (congrArg (fun f : Fn => t.host.fns[f].pairs = s.host.fns[f].pairs) hpf).mp hpairs
  · rw [hnor]
    exact ht.whole

theorem completes_virtualisation_assign (s : State) (q : AdmReq) (f : Fn) (c n : BitVec 16) (h : adminReady q false true s = true)
    (hc : f ≠ 0 ∧ c.toNat = f.val + 1) (hoff : s.host.fns[f].online = false) (hn : n.toNat ≤ 32768 ∧ n.toNat ≤ s.pairsLeft f) :
    Completes (exec (.virtualizationManagement q ⟨8, false, c, n⟩) s) fun t =>
       t.nor = { s.nor with pairs := vset s.nor.pairs f n.toNat } ∧ t.host.fns[f].pairs = n.toNat ∧
       Concluded s t q stOk (nw n.toNat) [] ∧ t = ({ s with nor := t.nor } : State).afterAdmin t := by
  show Completes (execVirtualizationManagement q ⟨8, false, c, n⟩ s) _
  unfold execVirtualizationManagement
  have hqf : q.fn ≠ f := (adminReady_pf h).trans_ne hc.1.symm
  have hoff' : ¬(s.takeAdmin q.fn).host.fns[f].online = true := by
    rw [s.takeAdmin_other hqf, hoff]
    exact Bool.false_ne_true
  have hn' : ¬(32768 < n.toNat ∨ (s.takeAdmin q.fn).pairsLeft f < n.toNat) := by
    rintro (h | h)
    · exact Nat.not_lt.mpr hn.1 h
    · exact Nat.not_lt.mpr hn.2 h
  refine completes_adminOwn h (completes_admin h (u := ((s.takeAdmin q.fn).modNor fun x => { x with pairs := vset x.pairs f n.toNat }).modFn f
    fun x => { x with pairs := n.toNat }) (dw0 := nw n.toNat) (words := []) ?_ fun t ht => ?_)
  · dsimp only
    rw [secondaryFn hc.2]
    exact (if_neg hc.1).trans ((if_neg (by decide)).trans ((if_pos (by decide)).trans ((if_neg (by simp)).trans
      ((if_neg hoff').trans ((if_neg (by decide)).trans (if_neg hn'))))))
  · have hnor : t.nor = { s.nor with pairs := vset s.nor.pairs f n.toNat } := ht.moves.nor_eq rfl
    refine ⟨hnor, ?_, ht.concluded ⟨[], rfl⟩, ?_⟩
    · rw [ht.other f hqf, State.modFn_same]
    · rw [hnor]
      exact ht.whole

theorem completes_virtualisation_online (s : State) (q : AdmReq) (f : Fn) (c n : BitVec 16) (h : adminReady q false true s = true)
    (hc : f ≠ 0 ∧ c.toNat = f.val + 1) (hpairs : 2 ≤ s.host.fns[f].pairs) :
    Completes (exec (.virtualizationManagement q ⟨9, false, c, n⟩) s) fun t =>
       t.host.fns[f] = { s.host.fns[f] with online := true } ∧ Concluded s t q stOk 0 [] ∧ t = s.afterAdmin t := by
  show Completes (execVirtualizationManagement q ⟨9, false, c, n⟩ s) _
  unfold execVirtualizationManagement
  have hqf : q.fn ≠ f := (adminReady_pf h).trans_ne hc.1.symm
  have hpairs' : ¬(s.takeAdmin q.fn).host.fns[f].pairs < 2 := by
    rw [s.takeAdmin_other hqf]
    exact Nat.not_lt.mpr hpairs
  refine completes_adminOwn h (completes_admin h (u := (s.takeAdmin q.fn).modFn f fun x => { x with online := true }) (dw0 := 0) (words := [])
    ?_ fun t ht => ⟨?_, ht.concluded ⟨[], rfl⟩, ht.whole⟩)
  · dsimp only
    rw [secondaryFn hc.2]
    exact (if_neg hc.1).trans ((if_neg (by decide)).trans ((if_neg (by decide)).trans ((if_pos (by decide)).trans (if_neg hpairs'))))
  · rw [ht.other f hqf, State.modFn_same, s.takeAdmin_other hqf]

theorem completes_virtualisation_offline (s : State) (q : AdmReq) (f : Fn) (c n : BitVec 16) (h : adminReady q false true s = true)
    (hc : f ≠ 0 ∧ c.toNat = f.val + 1) : Completes (exec (.virtualizationManagement q ⟨7, false, c, n⟩) s) fun t =>
       t.host.fns[f].online = false ∧ (s.host.fns[f].present = true → t.host.fns[f].en = false ∧ ∀ p ∈ t.q.ctxs, p.2.fn ≠ f) ∧
       Concluded s t q stOk 0 [] := by
  show Completes (execVirtualizationManagement q ⟨7, false, c, n⟩ s) _
  unfold execVirtualizationManagement
  have hqf : q.fn ≠ f := (adminReady_pf h).trans_ne hc.1.symm
  refine completes_adminOwn h (completes_admin h
    (u := State.modFn (if (s.takeAdmin q.fn).host.fns[f].present then (s.takeAdmin q.fn).resetFn f else s.takeAdmin q.fn) f
      fun x => { x with online := false }) (dw0 := 0) (words := []) ?_ fun t ht => ?_)
  · dsimp only
    rw [secondaryFn hc.2]
    exact (if_neg hc.1).trans (if_pos (by decide))
  · obtain ⟨hbut, ⟨pairs, hmine⟩, -, hgone⟩ := (s.takeAdmin q.fn).resetFn_effect f
    have hpresent : (s.takeAdmin q.fn).host.fns[f].present = s.host.fns[f].present := by rw [s.takeAdmin_other hqf]
    rw [hpresent] at ht
    generalize (s.takeAdmin q.fn).resetFn f = v at hbut hmine hgone ht
    have hfn : t.host.fns[f] = _ := (ht.other f hqf).trans (State.modFn_same ..)
    have hq : t.q = _ := ht.moves.q_eq rfl
    cases hp : s.host.fns[f].present with
    | true =>
      rw [hp, if_pos rfl] at ht hfn hq
      refine ⟨congrArg FnState.online hfn, fun _ => ⟨?_, ?_⟩, ht.concluded hbut.posted⟩
      · exact (congrArg FnState.en hfn).trans (FnState.reset_fields hmine).1
      · rw [hq]
        exact hgone
    | false =>
      rw [hp, if_neg Bool.false_ne_true] at ht hfn
      exact ⟨congrArg FnState.online hfn, fun h => absurd h Bool.false_ne_true, ht.concluded ⟨[], rfl⟩⟩

/-! ### Sanitise and format (R606 to R610) -/

theorem State.deliverAsync_whole (s : State) (f : Fn) : s.deliverAsync f = s.afterAdmin (s.deliverAsync f) := by
  unfold State.deliverAsync
  extract_lets x
  split
  · extract_lets s1
    exact State.afterAdmin_trans (u := s1) rfl (s1.postAdmin_done ..).whole
  · rfl

/-- An event noted or reported: the functions, the violations and the outputs, with what the report of an error records. -/
theorem State.raiseAsync_whole (s : State) (f : Fn) (e : AsyncEvent) : s.raiseAsync f e = s.afterAdmin (s.raiseAsync f e) := by
  unfold State.raiseAsync
  split
  · exact State.afterAdmin_trans rfl (State.deliverAsync_whole _ f)
  · rfl

theorem completes_sanitizeExitFailureMode (s : State) (q : AdmReq) (h : adminReady q false true s = true) (hidle : s.sec.sanitise = none)
    (hfree : s.sec.sanFail = true → s.sec.sanUnrestricted = true) : Completes (exec (.sanitizeExitFailureMode q) s) fun t =>
       t.sec = { s.sec with sanFail := false } ∧ Concluded s t q stOk 0 [] ∧ t = ({ s with sec := t.sec } : State).afterAdmin t := by
  show Completes (execSanitizeExitFailureMode q s) _
  unfold execSanitizeExitFailureMode
  have h1 : ¬(s.takeAdmin q.fn).sec.sanitise.isSome = true := by
    rw [show (s.takeAdmin q.fn).sec.sanitise = none from hidle]
    decide
  have h2 : ¬((s.takeAdmin q.fn).sec.sanFail = true ∧ (!(s.takeAdmin q.fn).sec.sanUnrestricted) = true) := by
    rintro ⟨hfail, hun⟩
    rw [show (s.takeAdmin q.fn).sec.sanUnrestricted = true from hfree hfail] at hun
    exact Bool.false_ne_true hun
  refine completes_admin h ((if_neg h1).trans (if_neg h2)) fun t ht => ?_
  have hsec : t.sec = { s.sec with sanFail := false } := ht.moves.sec_eq rfl
  refine ⟨hsec, ht.concluded ⟨[], rfl⟩, ?_⟩
  rw [hsec]
  exact ht.whole

theorem completes_sanitizeOverwrite (s : State) (q : AdmReq) (h : adminReady q false true s = true) :
    Completes (exec (.sanitizeOverwrite q) s) fun t => Concluded s t q stInvalidField 0 [] ∧ t.sec = s.sec ∧ t = s.afterAdmin t :=
  completes_admin_fail h (body := fun s => .fail s stInvalidField) rfl fun _ ht => ⟨ht.concluded ⟨[], rfl⟩, ht.moves.sec_eq rfl, ht.whole⟩

theorem completes_invalidOpcode (s : State) (q : AdmReq) (opc : BitVec 8) (h : adminReady q false false s = true) :
    Completes (exec (.invalidOpcode q opc) s) fun t => Concluded s t q stInvalidOpcode 0 [] ∧ t = s.afterAdmin t :=
  completes_adminOwn h (completes_admin_fail h (body := fun s => .fail s stInvalidOpcode) rfl fun _ ht => ⟨ht.concluded ⟨[], rfl⟩, ht.whole⟩)

theorem completes_sanitizeComplete (s : State) (ok : Bool) (x : Sanitise) (hx : s.sec.sanitise = some x)
    (hdone : x.block = true → ok = true → x.next = Vector.replicate 24 none) : Completes (exec (.sanitizeComplete ok) s) fun t =>
       t.sec = { s.sec with sanitise := none, sanFail := !ok && x.block, sanProg := 0, sanStatus := if ok || !x.block then 1 else 3 } ∧
       t.nor = { s.nor with sanitise := none } ∧ t = ({ s with sec := t.sec, nor := t.nor } : State).afterAdmin t := by
  have hgo : ¬(x.block && ok && x.next.toList.any (·.isSome)) = true := by
    cases hb : x.block with
    | false => exact Bool.false_ne_true
    | true =>
      cases hok : ok with
      | false => exact Bool.false_ne_true
      | true =>
        rw [hdone hb hok]
        decide
  refine ⟨_, rfl, ?_⟩
  rw [hx]
  dsimp only
  rw [if_neg hgo, show (!ok && x.block) = !(ok || !x.block) by rw [Bool.not_or, Bool.not_not]]
  have hwhole := State.raiseAsync_whole ((s.modSec fun y =>
    { y with sanitise := none, sanFail := !(ok || !x.block), sanProg := 0, sanStatus := if ok || !x.block then 1 else 3 }).modNor fun n =>
      { n with sanitise := none }) 0 ⟨6, 1, 0x81⟩
  generalize State.raiseAsync _ 0 ⟨6, 1, 0x81⟩ = t at hwhole ⊢
  have hsec := congrArg State.sec hwhole
  have hnor := congrArg State.nor hwhole
  refine ⟨hsec, hnor, ?_⟩
  rw [hsec, hnor]
  exact hwhole

end Sys2Proof.Machine
end

section
/-! SUPPORT. The admin commands that make, delete, attach and detach namespaces, and those that format and sanitise them
(13_host_link_nvme.md). -/

namespace Sys2Proof.Machine
open Sys2Proof
set_option Elab.async false

/-! ### What emptying zones leaves (R450) -/

theorem State.modView_duties (s : State) (startNo : Nat) (f : List BlockState → List BlockState) : Kept State.duties s (s.modView startNo f) := by
  refine Prod.ext ?_ rfl
  refine (List.map_map).trans (List.map_congr_left fun p _ => ?_)
  rw [Function.comp_apply]
  split <;> rfl

theorem State.keepZoneWrites_duties (s : State) (z : ZoneNo) : Kept State.duties s (s.keepZoneWrites z) := by
  unfold State.keepZoneWrites
  extract_lets d
  exact .fold _ _ _ fun t v => .ite (t.modView_duties _ _) .refl

theorem Ctx.settleRead_fn (c : Ctx) : c.settleRead.fn = c.fn := by
  unfold Ctx.settleRead
  split <;> rfl

theorem State.zeroBlocks_duties (s : State) (l : List (CtxIx × Nat × Bool)) : Kept State.duties s (s.zeroBlocks l) := by
  unfold State.zeroBlocks
  exact .fold _ _ _ fun s x => s.modCtx_duties x.1 fun c => Ctx.settleRead_fn _

theorem State.resetZone_stands (s : State) (z : ZoneNo) : s.Stands (s.resetZone z) := by
  unfold State.resetZone
  extract_lets d a cmds s1 s2 s3 s4 s5
  have h1 : s.Stands s1 := ((s.keepZoneWrites_moves z).stands_of_duties rfl rfl (s.keepZoneWrites_duties z)).trans <|
    ((State.closeJobs_moves ..).stands_of_duties rfl rfl (State.closeJobs_duties ..)).trans
      ((State.zeroBlocks_moves ..).stands_of_duties rfl rfl (State.zeroBlocks_duties ..))
  clear_value s1
  have h2 : s1.Stands s2 := .fold _ _ _ fun s g => (s.modWr_moves g _).stands rfl rfl rfl
  clear_value s2
  have h3 : s2.Stands s3 := ((s2.clearRemaps_moves a z).stands rfl rfl rfl).trans ((State.growDefects_moves _ a d).stands rfl rfl rfl)
  clear_value s3
  have h4 : s3.Stands s4 := s3.setZone_stands z _
  clear_value s4
  have h5 : s4.Stands s5 := (s4.modMedia_moves _).stands rfl rfl rfl
  clear_value s5
  exact h1.trans <| h2.trans <| h3.trans <| h4.trans <| h5.trans <| s5.modHost_stands (fun _ => rfl) fun _ => rfl

theorem State.emptyNamespace_stands (s : State) (n : Namespace) : s.Stands (s.emptyNamespace n) := by
  unfold State.emptyNamespace
  exact .ite (.fold _ _ _ fun s z => .ite (.refl s) (s.resetZone_stands z)) ((s.clearIndir_moves n.nsid).stands rfl rfl rfl)

/-! ### Notices of namespaces (R448) -/

theorem State.nsChanged_stands (s : State) (fns : BitVec 16) (nsid : Nat) : s.Stands (s.nsChanged fns nsid) := by
  unfold State.nsChanged
  refine (s.healthChange_stands 6).trans (.fold _ _ _ fun s f => ?_)
  split
  · extract_lets s1 s2
    have h1 : s.Stands s1 := (s.resynch_moves _).stands rfl rfl rfl
    clear_value s1
    have h2 : s.Stands s2 := h1.trans (s1.modFn_stands f (fun _ => rfl) fun _ h => h)
    clear_value s2
    exact .ite (h2.trans (s2.raiseAsync_stands f _)) h2
  · exact .refl s

theorem State.resynch_mediaKeys (s : State) (f : SpdmIx → Bool) : Kept (fun s => s.sec.mediaKeys) s (s.resynch f) := by
  show (s.resynch f).sec.mediaKeys = s.sec.mediaKeys
  rw [State.resynch, State.modSec_sec]

theorem State.nsChanged_mediaKeys (s : State) (fns : BitVec 16) (nsid : Nat) : Kept (fun s => s.sec.mediaKeys) s (s.nsChanged fns nsid) := by
  unfold State.nsChanged
  refine Kept.trans (t := s.healthChange 6) (congrArg Security.mediaKeys ((s.healthChange_moves 6).sec_eq rfl)) (.fold _ _ _ fun s f => ?_)
  split
  · extract_lets s1 s2
    have h1 : Kept (fun s => s.sec.mediaKeys) s s1 := s.resynch_mediaKeys _
    clear_value s1
    have h2 : Kept (fun s => s.sec.mediaKeys) s1 s2 := congrArg Security.mediaKeys ((s1.modFn_moves f _).sec_eq rfl)
    clear_value s2
    exact .ite (h1.trans (h2.trans (congrArg Security.mediaKeys ((s2.raiseAsync_moves f _).sec_eq rfl)))) (h1.trans h2)
  · exact .refl

theorem State.Stands.namespaces {s t : State} (h : s.Stands t) : t.host.namespaces = s.host.namespaces := (congrArg HostLink.namespaces h.link :)

/-- A completion keeps the namespaces. -/
theorem AdminDone.namespaces {s t : State} {f : Fn} {cid : BitVec 16} {st : NvStatus} {dw0 : Word} {words : List Word}
    (h : AdminDone s t f cid st dw0 words) : t.host.namespaces = s.host.namespaces := (congrArg (fun u : State => u.host.namespaces) h.whole :)

/-- The contracts of the functions given end. -/
theorem State.endReaching_contracts (s : State) (fns : BitVec 16) : ∀ c ∈ (s.endReaching fns).q.contracts, fns.getLsbD c.2.fn.val = false := by
  intro c hc
  rw [State.endReaching, State.endContracts_contracts] at hc
  obtain ⟨hmem, hnone⟩ := List.mem_filter.mp hc
  cases hsel : fns.getLsbD c.2.fn.val with
  | false => rfl
  | true =>
    have hany : (s.q.contracts.any fun d => fns.getLsbD d.2.fn.val && d.1 == c.1) = true :=
      List.any_eq_true.mpr ⟨c, hmem, by rw [hsel, beq_self_eq_true]; rfl⟩
    rw [hany] at hnone
    exact absurd hnone Bool.false_ne_true

/-! ### Attached and detached (R448) -/

theorem State.takeAdmin_controllersOk (s : State) (f : Fn) (fns : BitVec 16) : (s.takeAdmin f).controllersOk fns = s.controllersOk fns := by
  unfold State.controllersOk
  congr 2
  funext g
  congr 1
  exact s.modFn_kept f g FnState.present fun _ => rfl

theorem completes_namespaceAttach (s : State) (q : AdmReq) (nsid : Word) (fns : BitVec 16) (n : Namespace)
    (h : adminReady q false true s = true) (hn : s.host.namespaces.find? (fun n => n.nsid == nsid.toNat) = some n)
    (hok : s.controllersOk fns = true) (hnew : n.attached &&& fns = 0) (hshared : n.shared = true) :
    Completes (exec (.namespaceAttach q nsid fns) s) fun t =>
       t.host.namespaces = s.host.namespaces.map (fun m => if m.nsid = n.nsid then { m with attached := m.attached ||| fns } else m) ∧
       t.nor.namespaces = t.host.namespaces ∧ Concluded s t q stOk 0 [] ∧ t.q = s.q ∧ t.media = s.media := by
  show Completes (execNamespaceAttach q nsid fns s) _
  unfold execNamespaceAttach
  have hok' : (s.takeAdmin q.fn).controllersOk fns = true := (s.takeAdmin_controllersOk q.fn fns).trans hok
  have hshared' : ¬((!n.shared) = true ∧ 1 < popcount 16 (n.attached ||| fns).toNat) := by
    rw [hshared]
    exact fun h => Bool.false_ne_true h.1
  refine completes_adminOwn h (completes_admin h
    (u := ((s.takeAdmin q.fn).setNamespaces fun l => l.map fun m => if m.nsid = n.nsid then { m with attached := m.attached ||| fns } else m).nsChanged
      fns n.nsid) (dw0 := 0) (words := []) ?_ fun t ht => ?_)
  · rw [show (s.takeAdmin q.fn).host.namespaces.find? (fun n => n.nsid == nsid.toNat) = some n from hn]
    dsimp only
    rw [hok', if_neg (by decide), if_neg (not_not_intro hnew), if_neg hshared']
  · have hst := State.nsChanged_stands ((s.takeAdmin q.fn).setNamespaces fun l =>
      l.map fun m => if m.nsid = n.nsid then { m with attached := m.attached ||| fns } else m) fns n.nsid
    have hmoves := State.nsChanged_moves ((s.takeAdmin q.fn).setNamespaces fun l =>
      l.map fun m => if m.nsid = n.nsid then { m with attached := m.attached ||| fns } else m) fns n.nsid
    have hns := ht.namespaces.trans hst.namespaces
    exact ⟨hns, (congrArg Nor.namespaces ((ht.moves.nor_eq rfl).trans (hmoves.nor_eq rfl))).trans hns.symm, ht.concluded hst.posted,
      (ht.moves.q_eq rfl).trans (hmoves.q_eq rfl), (ht.moves.media_eq rfl).trans (hmoves.media_eq rfl)⟩

theorem completes_namespaceDetach (s : State) (q : AdmReq) (nsid : Word) (fns : BitVec 16) (n : Namespace)
    (h : adminReady q false true s = true) (hn : s.host.namespaces.find? (fun n => n.nsid == nsid.toNat) = some n)
    (hok : s.controllersOk fns = true) (hall : n.attached &&& fns = fns) : Completes (exec (.namespaceDetach q nsid fns) s) fun t =>
       t.host.namespaces = s.host.namespaces.map (fun m => if m.nsid = n.nsid then { m with attached := m.attached &&& ~~~fns } else m) ∧
       t.nor.namespaces = t.host.namespaces ∧ Concluded s t q stOk 0 [] ∧ (∀ c ∈ t.q.contracts, fns.getLsbD c.2.fn.val = false) ∧
       t.media = s.media := by
  show Completes (execNamespaceDetach q nsid fns s) _
  unfold execNamespaceDetach
  have hok' : (s.takeAdmin q.fn).controllersOk fns = true := (s.takeAdmin_controllersOk q.fn fns).trans hok
  have hend := (s.takeAdmin q.fn).endReaching_contracts fns
  have hendst : (s.takeAdmin q.fn).Stands ((s.takeAdmin q.fn).endReaching fns) := State.endContracts_stands ..
  have hendmv := (s.takeAdmin q.fn).endReaching_moves fns
  refine completes_adminOwn h (completes_admin h
    (u := (((s.takeAdmin q.fn).endReaching fns).setNamespaces fun l =>
      l.map fun m => if m.nsid = n.nsid then { m with attached := m.attached &&& ~~~fns } else m).nsChanged
      fns n.nsid) (dw0 := 0) (words := []) ?_ fun t ht => ?_)
  · rw [show (s.takeAdmin q.fn).host.namespaces.find? (fun n => n.nsid == nsid.toNat) = some n from hn]
    dsimp only
    rw [hok', if_neg (by decide), if_neg (not_not_intro hall)]
  · generalize (s.takeAdmin q.fn).endReaching fns = v at *
    have hst := State.nsChanged_stands (v.setNamespaces fun l =>
      l.map fun m => if m.nsid = n.nsid then { m with attached := m.attached &&& ~~~fns } else m) fns n.nsid
    have hmoves := State.nsChanged_moves (v.setNamespaces fun l =>
      l.map fun m => if m.nsid = n.nsid then { m with attached := m.attached &&& ~~~fns } else m) fns n.nsid
    have hns := ht.namespaces.trans hst.namespaces
    have hq : t.q = v.q := (ht.moves.q_eq rfl).trans (hmoves.q_eq rfl)
    refine ⟨hns.trans (congrArg (List.map _) hendst.namespaces),
      (congrArg Nor.namespaces ((ht.moves.nor_eq rfl).trans (hmoves.nor_eq rfl))).trans hns.symm,
      ht.concluded ?_, by rw [hq]; exact hend, (ht.moves.media_eq rfl).trans ((hmoves.media_eq rfl).trans (hendmv.media_eq rfl))⟩
    obtain ⟨l1, hl1⟩ := hendst.posted
    obtain ⟨l2, hl2⟩ := hst.posted
    refine ⟨l2 ++ l1, hl2.trans ?_⟩
    rw [List.append_assoc]
    exact congrArg (l2 ++ ·) hl1

/-! ### Made and deleted (R448, R452) -/

/-- Nothing stands in the way of a command on namespaces while no sanitise runs or has failed. -/
theorem State.takeAdmin_sanBlocks {s : State} (f : Fn) (h : s.sanBlocks = none) : (s.takeAdmin f).sanBlocks = none := h

/-- A namespace made, with its key drawn. -/
def State.withNamespace (s : State) (m : Namespace) : State :=
  ((s.drbgNext.2).setNamespaces fun l => l ++ [m]).setKey m.nsid (some s.drbgNext.1)

theorem State.withNamespace_moves (s : State) (m : Namespace) : Moves [.host, .sec, .nor] s (s.withNamespace m) :=
  (State.setKey_moves ..).after (by decide) ((State.setNamespaces_moves ..).after (by decide) (s.drbgNext_moves.widen (by decide)))

theorem Completes.imp {o : Out} {P Q : State → Prop} (h : Completes o P) (hpq : ∀ t, P t → Q t) : Completes o Q := by
  obtain ⟨t, ht, hp⟩ := h
  exact ⟨t, ht, hpq t hp⟩

theorem completes_namespaceMade {s : State} {q : AdmReq} {m : Namespace} {body : State → AdmRes} (h : adminReady q false true s = true)
    (hbody : body (s.takeAdmin q.fn) = { state := (s.takeAdmin q.fn).withNamespace m, dw0 := nw m.nsid }) :
    Completes (s.adminOwn q false true false body) fun t =>
       t.host.namespaces = s.host.namespaces ++ [m] ∧ t.nor.namespaces = t.host.namespaces ∧
       alookup t.sec.mediaKeys m.nsid = some (Config.drbg s.sec.drbg) ∧
       Concluded s t q stOk (nw m.nsid) [] ∧ t = { s with host := t.host, nor := t.nor, sec := t.sec, out := t.out } := by
  refine completes_adminOwn h (completes_admin_quiet h hbody fun t ht hquiet => ?_)
  have hns : t.host.namespaces = s.host.namespaces ++ [m] := ht.namespaces
  have hnor : t.nor = ((s.takeAdmin q.fn).withNamespace m).nor := ht.moves.nor_eq rfl
  have hsec : t.sec = ((s.takeAdmin q.fn).withNamespace m).sec := ht.moves.sec_eq rfl
  refine ⟨hns, (congrArg Nor.namespaces hnor).trans hns.symm, ?_, ht.concluded ⟨[], rfl⟩, ?_⟩
  · rw [hsec]
    show alookup (oset s.sec.mediaKeys m.nsid (Config.drbg s.sec.drbg)) m.nsid = _
    exact alookup_oset s.sec.mediaKeys m.nsid (Config.drbg s.sec.drbg)
  · have hmade := (s.takeAdmin q.fn).withNamespace_moves m
    generalize (s.takeAdmin q.fn).withNamespace m = u at hquiet hnor hsec hmade
    have hmoves : Moves [.host, .sec, .nor] s u := hmade.after (by decide) ((s.takeAdmin_moves q.fn).widen (by decide))
    have hu : u = { s with host := u.host, nor := u.nor, sec := u.sec } :=
      hmoves.eq_of_parts rfl fun x => by cases x <;> first | rfl | exact fun _ => rfl
    rw [hnor, hsec]
    exact hquiet.trans (congrArg (fun v : State => { v with host := t.host, out := t.out }) hu)

theorem completes_namespaceCreate (s : State) (q : AdmReq) (n : NsCreate) (i : Nat) (h : adminReady q false true s = true)
    (hsan : s.sanBlocks = none) (hi : (List.range 16).find? (fun i => !(s.host.namespaces.any fun m => m.nsid == i + 1)) = some i)
    (hn : n.csi = 0 ∧ n.size ≠ 0 ∧ n.size ≤ s.convFree) (hfmt : formatOk n.lbaf n.pi = true) :
    Completes (exec (.namespaceCreate q n) s) fun t =>
       t.host.namespaces = s.host.namespaces ++ [{ nsid := i + 1, zoned := false, nvmset := 0, size := n.size, lbaf := n.lbaf.toNat, piType := n.pi.toNat, piFirst := n.piFirst, extended := n.extended, shared := n.shared, zones := [] }] ∧
       t.nor.namespaces = t.host.namespaces ∧ alookup t.sec.mediaKeys (i + 1) = some (Config.drbg s.sec.drbg) ∧
       Concluded s t q stOk (nw (i + 1)) [] ∧ t = { s with host := t.host, nor := t.nor, sec := t.sec, out := t.out } := by
  obtain ⟨hcsi, hsize, hfree⟩ := hn
  show Completes (execNamespaceCreate q n s) _
  unfold execNamespaceCreate
  refine completes_namespaceMade h ?_
  dsimp only
  rw [State.takeAdmin_sanBlocks q.fn hsan,
    show (List.range 16).find? (fun i => !((s.takeAdmin q.fn).host.namespaces.any fun m => m.nsid == i + 1)) = some i from hi]
  dsimp only
  rw [hcsi]
  have hsize' : ¬(n.size = 0 ∨ ((0 : BitVec 8) == 2) = true ∧ (4 < n.nvmset.toNat ∨ n.nvmset.toNat ≠ 0 ∧ (s.takeAdmin q.fn).layout.engines < n.nvmset.toNat)) := by
    rintro (h | h)
    · exact hsize h
    · exact absurd h.1 (by decide)
  have hfree' : ¬(s.takeAdmin q.fn).convFree < n.size := Nat.not_lt.mpr hfree
  rw [if_neg (by decide), hfmt, if_neg (by decide), if_neg hsize', if_neg hfree']
  rfl

theorem completes_namespaceCreate_zoned (s : State) (q : AdmReq) (n : NsCreate) (i : Nat) (zs : List ZoneNo)
    (h : adminReady q false true s = true) (hsan : s.sanBlocks = none)
    (hi : (List.range 16).find? (fun i => !(s.host.namespaces.any fun m => m.nsid == i + 1)) = some i)
    (hn : n.csi = 2 ∧ n.size ≠ 0 ∧ n.nvmset.toNat ≤ 4 ∧ n.nvmset.toNat ≤ s.layout.engines) (hfmt : formatOk n.lbaf n.pi = true)
    (hzs : s.takeZones n.nvmset.toNat ((n.size + zoneSize - 1) / zoneSize) = some zs) : Completes (exec (.namespaceCreate q n) s) fun t =>
       t.host.namespaces = s.host.namespaces ++ [{ nsid := i + 1, zoned := true, nvmset := n.nvmset.toNat, size := (n.size + zoneSize - 1) / zoneSize * zoneSize, lbaf := n.lbaf.toNat, piType := n.pi.toNat, piFirst := n.piFirst, extended := n.extended, shared := n.shared, zones := zs }] ∧
       Concluded s t q stOk (nw (i + 1)) [] ∧ t = { s with host := t.host, nor := t.nor, sec := t.sec, out := t.out } := by
  obtain ⟨hcsi, hsize, hset, heng⟩ := hn
  show Completes (execNamespaceCreate q n s) _
  unfold execNamespaceCreate
  refine (completes_namespaceMade (m := { nsid := i + 1, zoned := true, nvmset := n.nvmset.toNat, size := (n.size + zoneSize - 1) / zoneSize * zoneSize, lbaf := n.lbaf.toNat, piType := n.pi.toNat, piFirst := n.piFirst, extended := n.extended, shared := n.shared, zones := zs }) h ?_).imp
    fun t ⟨hns, _, _, hdone, hwhole⟩ => ⟨hns, hdone, hwhole⟩
  dsimp only
  rw [State.takeAdmin_sanBlocks q.fn hsan,
    show (List.range 16).find? (fun i => !((s.takeAdmin q.fn).host.namespaces.any fun m => m.nsid == i + 1)) = some i from hi]
  dsimp only
  rw [hcsi]
  have hsize' : ¬(n.size = 0 ∨ ((2 : BitVec 8) == 2) = true ∧ (4 < n.nvmset.toNat ∨ n.nvmset.toNat ≠ 0 ∧ (s.takeAdmin q.fn).layout.engines < n.nvmset.toNat)) := by
    rintro (h | ⟨-, h | ⟨-, h⟩⟩)
    · exact hsize h
    · exact Nat.not_lt.mpr hset h
    · exact Nat.not_lt.mpr heng h
  have hzs' : (s.takeAdmin q.fn).takeZones n.nvmset.toNat ((n.size + zoneSize - 1) / zoneSize) = some zs := hzs
  rw [if_neg (by decide), hfmt, if_neg (by decide), if_neg hsize', hzs']
  rfl

/-- A namespace taken from the list, with its keys. -/
theorem State.withoutNamespace_effect (s : State) (nsid : Nat) {t : State}
    (ht : t = (s.setKey nsid none).setNamespaces fun l => l.filter fun m => m.nsid != nsid) :
    t.host.namespaces = s.host.namespaces.filter (fun m => m.nsid != nsid) ∧ t.nor.namespaces = t.host.namespaces ∧
      alookup t.sec.mediaKeys nsid = none ∧ alookup t.nor.mediaKeys nsid = none ∧ alookup t.nor.keyCopy nsid = none := by
  subst ht
  exact ⟨rfl, rfl, alookup_oerase_self s.sec.mediaKeys nsid, alookup_oerase_self s.nor.mediaKeys nsid, alookup_oerase_self s.nor.keyCopy nsid⟩

theorem State.deleteNamespace_effect (s : State) (n : Namespace) {t : State} (ht : t = s.deleteNamespace n) :
    t.host.namespaces = s.host.namespaces.filter (fun m => m.nsid != n.nsid) ∧ t.nor.namespaces = t.host.namespaces ∧
      alookup t.sec.mediaKeys n.nsid = none ∧ alookup t.nor.mediaKeys n.nsid = none ∧ alookup t.nor.keyCopy n.nsid = none ∧
      (∀ c ∈ t.q.contracts, n.attached.getLsbD c.2.fn.val = false) ∧ ∃ l, t.out.completions = l ++ s.out.completions := by
  subst ht
  unfold State.deleteNamespace
  extract_lets s1 s2 s3
  have h12 : s.Stands s2 := .trans (s.endContracts_stands _) (s1.emptyNamespace_stands n)
  have hend : ∀ c ∈ s2.q.contracts, n.attached.getLsbD c.2.fn.val = false := fun c hc =>
    s.endReaching_contracts n.attached c ((s1.emptyNamespace_stands n).contracts c hc)
  clear_value s2
  obtain ⟨hns, hnor, hkey⟩ := s2.withoutNamespace_effect n.nsid (t := s3) rfl
  have hmoves3 : Moves [.host, .sec, .nor] s2 s3 := (State.setNamespaces_moves ..).after (by decide) ((s2.setKey_moves ..).widen (by decide))
  have hcontracts : s3.q.contracts = s2.q.contracts := congrArg Queues.contracts (hmoves3.q_eq rfl)
  have hout : s3.out = s2.out := hmoves3.out_eq rfl
  clear_value s3
  have h4 := s3.nsChanged_stands n.attached n.nsid
  have hmoves := s3.nsChanged_moves n.attached n.nsid
  have hnor4 : (s3.nsChanged n.attached n.nsid).nor = s3.nor := hmoves.nor_eq rfl
  have hsec4 : (s3.nsChanged n.attached n.nsid).sec.mediaKeys = s3.sec.mediaKeys := s3.nsChanged_mediaKeys n.attached n.nsid
  have hq4 : (s3.nsChanged n.attached n.nsid).q = s3.q := hmoves.q_eq rfl
  rw [hnor4, hsec4, h4.namespaces, hq4, hcontracts]
  refine ⟨hns.trans (congrArg _ h12.namespaces), hnor, hkey.1, hkey.2.1, hkey.2.2, hend, ?_⟩
  obtain ⟨l1, hl1⟩ := h12.posted
  obtain ⟨l2, hl2⟩ := h4.posted
  exact ⟨l2 ++ l1, by rw [hl2, hout, hl1, List.append_assoc]⟩

theorem completes_namespaceDelete (s : State) (q : AdmReq) (nsid : Word) (n : Namespace) (h : adminReady q false true s = true)
    (hsan : s.sanBlocks = none) (hone : nsid ≠ 0xFFFFFFFF) (hn : s.host.namespaces.find? (fun n => n.nsid == nsid.toNat) = some n)
    (hfmt : n.format = none) : Completes (exec (.namespaceDelete q nsid) s) fun t =>
       t.host.namespaces = s.host.namespaces.filter (fun m => m.nsid != n.nsid) ∧ t.nor.namespaces = t.host.namespaces ∧
       alookup t.sec.mediaKeys n.nsid = none ∧ alookup t.nor.mediaKeys n.nsid = none ∧ alookup t.nor.keyCopy n.nsid = none ∧ Concluded s t q stOk 0 [] ∧
       (∀ c ∈ t.q.contracts, n.attached.getLsbD c.2.fn.val = false) := by
  show Completes (execNamespaceDelete q nsid s) _
  unfold execNamespaceDelete
  refine completes_adminOwn h (completes_admin h (u := (s.takeAdmin q.fn).deleteNamespace n) (dw0 := 0) (words := []) ?_ fun t ht => ?_)
  · rw [State.takeAdmin_sanBlocks q.fn hsan,
      show (s.takeAdmin q.fn).host.namespaces.find? (fun n => n.nsid == nsid.toNat) = some n from hn]
    dsimp only
    rw [if_neg hone, hfmt]
    rfl
  · obtain ⟨hns, hnor, hkey, hnorKey, hcopy, hend, hposted⟩ := (s.takeAdmin q.fn).deleteNamespace_effect n rfl
    have hn' : t.nor = _ := ht.moves.nor_eq rfl
    have hs' : t.sec = _ := ht.moves.sec_eq rfl
    have hq' : t.q = _ := ht.moves.q_eq rfl
    refine ⟨ht.namespaces.trans hns, ?_, ?_, ?_, ?_, ht.concluded hposted, ?_⟩
    · rw [hn', ht.namespaces, hnor]
    · rw [hs', hkey]
    · rw [hn', hnorKey]
    · rw [hn', hcopy]
    · rw [hq']
      exact hend

theorem State.finishAdmin_ok (s : State) (q : AdmReq) (dw0 : Word) (words : List Word) :
    s.finishAdmin q stOk dw0 words = s.answerAdmin q stOk dw0 words := congrArg (fun s : State => s.answerAdmin q stOk dw0 words) (if_pos rfl)

theorem State.endFormat_eq (s : State) (ids : List Nat) : s.endFormat ids =
    { s with
      host := { s.host with namespaces := s.host.namespaces.map fun m => if ids.contains m.nsid then { m with format := none } else m }
      nor := { s.nor with
        namespaces := s.host.namespaces.map fun m => if ids.contains m.nsid then { m with format := none } else m
        formats := s.nor.formats.filter fun p => !ids.contains p.1 }
      sec := { s.sec with fmtProg := 0 } } := rfl

/-! ### Formatted (R607 to R609) -/

theorem completes_formatComplete (s : State) (f : Fn) (cid : BitVec 16) (ids : List Nat) (rest : List (Fn × BitVec 16 × Option Nat × List Nat))
    (hcmds : s.sec.fmtCmds = (f, cid, none, ids) :: rest) (hnone : s.pendingChanges = [])
    (hold : s.oldPending (fun z => s.host.namespaces.any fun n => ids.contains n.nsid && n.zones.contains z) = false) :
    Completes (exec .formatComplete s) fun t =>
       t.sec = { s.sec with fmtCmds := rest, fmtProg := 0 } ∧
       t.host.namespaces = s.host.namespaces.map (fun m => if ids.contains m.nsid then { m with format := none } else m) ∧
       t.nor = { s.nor with namespaces := t.host.namespaces, formats := s.nor.formats.filter fun p => !ids.contains p.1 } ∧
       Concluded s t { fn := f, cid := cid } stOk 0 [] ∧ t = { s with sec := t.sec, nor := t.nor, host := t.host, out := t.out } := by
  show Completes (execFormatComplete s) _
  unfold execFormatComplete
  rw [hcmds]
  dsimp only
  rw [hold, if_neg Bool.false_ne_true]
  refine ⟨_, rfl, ?_⟩
  have happly : (s.modSec fun x => { x with fmtCmds := rest }).applyChanges ids = s.modSec fun x => { x with fmtCmds := rest } := by
    rw [State.applyChanges, show (s.modSec fun x => { x with fmtCmds := rest }).pendingChanges = [] from hnone]
    rfl
  rw [happly]
  have hu := (s.modSec fun x => { x with fmtCmds := rest }).endFormat_eq ids
  generalize (s.modSec fun x => { x with fmtCmds := rest }).endFormat ids = u at hu ⊢
  have hns : u.host.namespaces = s.host.namespaces.map fun m => if ids.contains m.nsid then { m with format := none } else m :=
    (congrArg (fun v : State => v.host.namespaces) hu :)
  have hsec : u.sec = { s.sec with fmtCmds := rest, fmtProg := 0 } := (congrArg State.sec hu :)
  have hnor : u.nor = { s.nor with namespaces := u.host.namespaces, formats := s.nor.formats.filter fun p => !ids.contains p.1 } := by
    rw [hns]
    exact (congrArg State.nor hu :)
  have hout : u.out = s.out := (congrArg State.out hu :)
  have hwhole : u = { s with sec := u.sec, nor := u.nor, host := u.host } := by
    rw [hu]
    rfl
  clear hu
  have hdone := u.finishAdmin_done (q := { fn := f, cid := cid }) stOk 0 [] rfl
  have hquiet := u.finishAdmin_quiet (q := { fn := f, cid := cid }) 0 [] rfl
  rw [State.finishAdmin_ok] at hdone hquiet
  generalize u.answerAdmin { fn := f, cid := cid } stOk 0 [] = t at hdone hquiet ⊢
  have hsec' : t.sec = u.sec := hdone.moves.sec_eq rfl
  have hnor' : t.nor = u.nor := hdone.moves.nor_eq rfl
  dsimp only
  rw [hsec', hnor', hdone.namespaces]
  exact ⟨hsec, hns, hnor, hdone.concluded ⟨[], congrArg Outputs.completions hout⟩,
    hquiet.trans (congrArg (fun v : State => { v with host := t.host, out := t.out }) hwhole)⟩

/-- A format of one namespace draws a key if its data are to be erased, and marks the namespace. -/
theorem State.formatOne_effect (s : State) (n : FormatReq) (m : Namespace) {t : State} (ht : t = s.formatOne n m) :
    (∀ y ∈ t.host.namespaces, y.nsid = m.nsid → y.lbaf = n.lbaf.toNat ∧ y.piType = n.pi.toNat ∧ y.extended = n.extended ∧ y.format = some 0) ∧
      t.sec = (if n.ses = 0 then s else s.newKey m.nsid).sec := by
  subst ht
  unfold State.formatOne
  extract_lets s1 s2
  have h2 : s2.sec = s1.sec := (s1.emptyNamespace_moves m).sec_eq rfl
  clear_value s2
  refine ⟨fun y hy hid => ?_, h2⟩
  obtain ⟨y0, -, rfl⟩ := List.mem_map.mp hy
  by_cases h0 : y0.nsid = m.nsid
  · rw [if_pos h0]
    exact ⟨rfl, rfl, rfl, rfl⟩
  · rw [if_neg h0] at hid
    exact absurd hid h0

theorem completes_formatNvm (s : State) (q : AdmReq) (n : FormatReq) (m : Namespace) (h : adminReady q false false s = true)
    (hsan : s.sanBlocks = none) (hm : s.formatTargets q.fn n.nsid = [m]) (halone : s.aloneOk q.fn [m] = true)
    (hfmt : formatOk n.lbaf n.pi = true) (hses : n.ses.toNat ≤ 2) (hnone : m.format = none) : Completes (exec (.formatNvm q n) s) fun t =>
       t.sec.fmtCmds = s.sec.fmtCmds ++ [(q.fn, q.cid, none, [m.nsid])] ∧ t.sec.fmtProg = 65535 ∧
       (∀ y ∈ t.host.namespaces, y.nsid = m.nsid → y.lbaf = n.lbaf.toNat ∧ y.piType = n.pi.toNat ∧ y.extended = n.extended ∧ y.format = some 0) ∧
       alookup t.nor.formats m.nsid = some (m.zones.length / 64 * 64) ∧
       (n.ses = 0 → t.sec.mediaKeys = s.sec.mediaKeys ∧ t.sec.drbg = s.sec.drbg) ∧
       (n.ses ≠ 0 → alookup t.sec.mediaKeys m.nsid = some (Config.drbg s.sec.drbg)) := by
  show Completes (execFormatNvm q n s) _
  unfold execFormatNvm
  have hm' : (s.takeAdmin q.fn).formatTargets q.fn n.nsid = [m] := hm
  have halone' : (s.takeAdmin q.fn).aloneOk q.fn [m] = true := halone
  obtain ⟨hns, hsec⟩ := (s.takeAdmin q.fn).formatOne_effect n m rfl
  have happly := ((s.takeAdmin q.fn).formatOne n m).applyChanges_moves [m.nsid]
  have hhost' : (((s.takeAdmin q.fn).formatOne n m).applyChanges [m.nsid]).host = ((s.takeAdmin q.fn).formatOne n m).host := happly.host_eq rfl
  have hsec' := (happly.sec_eq rfl).trans hsec
  refine completes_admin_wait h (u := ((((s.takeAdmin q.fn).formatOne n m).applyChanges [m.nsid]).modNor fun x =>
      { x with formats := oset x.formats m.nsid (m.zones.length / 64 * 64) }).modSec fun x =>
        { x with fmtCmds := x.fmtCmds ++ [(q.fn, q.cid, q.mi, [m.nsid])], fmtProg := 65535 }) (dw0 := 0) (words := []) ?_ ?_
  · dsimp only
    rw [hm', State.takeAdmin_sanBlocks q.fn hsan]
    dsimp only
    rw [if_neg (fun h => Bool.false_ne_true h.2), halone', if_neg (by decide), hfmt, if_neg (by decide), if_neg (Nat.not_lt.mpr hses),
      if_neg (by rw [List.any_cons, hnone]; decide)]
    rfl
  · generalize ((s.takeAdmin q.fn).formatOne n m).applyChanges [m.nsid] = v at hhost' hsec'
    dsimp only [State.modSec, State.modNor]
    rw [hhost', adminReady_mi h, hsec']
    refine ⟨?_, rfl, hns, alookup_oset .., fun h0 => ?_, fun h0 => ?_⟩
    · split <;> rfl
    · rw [if_pos h0]
      exact ⟨rfl, rfl⟩
    · rw [if_neg h0]
      show alookup (oset s.sec.mediaKeys m.nsid (Config.drbg s.sec.drbg)) m.nsid = _
      exact alookup_oset s.sec.mediaKeys m.nsid (Config.drbg s.sec.drbg)

/-! ### Sanitised (R606) -/

/-- The keys of a list of namespaces drawn anew, and their writes dropped. -/
theorem State.newKeys_effect (l : List Namespace) (s : State) {t : State} (ht : t = l.foldl (fun s n => (s.newKey n.nsid).dropWrites n.nsid) s) :
    t.sec.drbg = s.sec.drbg + l.length ∧ t.out = s.out := by
  subst ht
  induction l generalizing s with
  | nil => exact ⟨rfl, rfl⟩
  | cons n l ih =>
    obtain ⟨hdrbg, hout⟩ := ih ((s.newKey n.nsid).dropWrites n.nsid)
    have hmoves := (s.newKey n.nsid).dropWrites_moves n.nsid
    have hsec : ((s.newKey n.nsid).dropWrites n.nsid).sec = (s.newKey n.nsid).sec := hmoves.sec_eq rfl
    have hout1 : ((s.newKey n.nsid).dropWrites n.nsid).out = s.out := (hmoves.out_eq rfl).trans ((s.newKey_moves n.nsid).out_eq rfl)
    refine ⟨hdrbg.trans ?_, hout.trans hout1⟩
    rw [hsec, List.length_cons, show (s.newKey n.nsid).sec.drbg = s.sec.drbg + 1 from rfl]
    omega

/-- The zones of a list reset, but those that hold none or are offline. -/
theorem State.resetZones_effect (l : List (ZoneNo × ZoneDesc)) (s : State) {t : State} (ht : t = l.foldl (fun s p =>
      let zs := (s.zoneDesc p.1).zs
      if zs = .none ∨ zs = .offline then s else s.resetZone p.1) s) : s.Stands t ∧ t.sec = s.sec := by
  subst ht
  constructor
  · exact .fold _ _ _ fun s p => .ite (.refl s) (s.resetZone_stands p.1)
  · refine Kept.fold (g := State.sec) _ _ _ fun s p => .ite .refl ?_
    exact (s.resetZone_moves p.1).sec_eq rfl

theorem State.cryptoErase_effect (s : State) {t : State} (ht : t = s.cryptoErase) :
    t.sec.drbg = s.sec.drbg + s.host.namespaces.length ∧ t.media.indir = [] ∧ (∀ a : Eng, t.media.remaps[a] = []) ∧ t.trc.captures = [] ∧
      (∀ b ∈ t.q.buffered, ∀ x ∈ b.blocks, x.data = {}) ∧ ∃ l, t.out.completions = l ++ s.out.completions := by
  subst ht
  unfold State.cryptoErase
  extract_lets s1 s2 none4 s3 zero s4
  obtain ⟨hdrbg, hout⟩ : s1.sec.drbg = s.sec.drbg + s.host.namespaces.length ∧ s1.out = s.out := by
    obtain ⟨hdrbg, hout⟩ := State.newKeys_effect s.host.namespaces s rfl
    have hmoves : Moves [.q] _ s1 := State.dropWrites_moves _ 0
    exact ⟨(congrArg Security.drbg (hmoves.sec_eq rfl)).trans hdrbg, (hmoves.out_eq rfl).trans hout⟩
  clear_value s1
  obtain ⟨hstands, hsec⟩ : s1.Stands s2 ∧ s2.sec = s1.sec := State.resetZones_effect s1.media.zones s1 rfl
  clear_value s2
  have h3 : s3.sec = s2.sec ∧ s3.out = s2.out ∧ s3.media.indir = [] ∧ s3.media.remaps = none4 := ⟨rfl, rfl, rfl, rfl⟩
  clear_value s3
  have h4 : Moves [.recv] s3 s4 := .fold _ _ _ fun s a => s.modRec_moves a _
  have hsec4 : s4.sec = s3.sec := h4.sec_eq rfl
  have hmedia4 : s4.media = s3.media := h4.media_eq rfl
  have hout4 : s4.out = s3.out := h4.out_eq rfl
  clear_value s4
  dsimp only [State.modTrc, State.modQ]
  rw [hsec4, hmedia4, hout4]
  obtain ⟨hsec3, hout3, hindir, hremaps⟩ := h3
  rw [hsec3, hsec, hdrbg, hout3, ← hout]
  refine ⟨rfl, hindir, fun a => ?_, rfl, fun b hb x hx => ?_, hstands.posted⟩
  · rw [hremaps, Fin.getElem_fin, Vector.getElem_replicate]
  · obtain ⟨b0, -, rfl⟩ := List.mem_map.mp hb
    obtain ⟨x0, -, rfl⟩ := List.mem_map.mp hx
    rfl

theorem State.takeAdmin_eraseTrack (s : State) (f : Fn) (a : Eng) (h : LHead) (fuel t : Nat) :
    (s.takeAdmin f).eraseTrack a h fuel t = s.eraseTrack a h fuel t := by
  induction fuel generalizing t with
  | zero => rfl
  | succ fuel ih =>
    have hregion : (s.takeAdmin f).regionOf a t = s.regionOf a t := rfl
    have hspt : (s.takeAdmin f).sptAt a h t = s.sptAt a h t := rfl
    have hmedia : (s.takeAdmin f).media = s.media := rfl
    simp only [State.eraseTrack, hregion, hspt, hmedia, ih]

theorem State.takeAdmin_eraseStart (s : State) (f : Fn) : (s.takeAdmin f).eraseStart = s.eraseStart := by
  unfold State.eraseStart State.eraseFrom
  simp only [State.takeAdmin_eraseTrack]
  rfl

/-- A sanitise as it begins: a block erase at the first track of every head, a cryptographic erase with every zone done. -/
def State.sanitiseBegun (s : State) (block ause : Bool) : Sanitise :=
  if block then { block := true, ause := ause, zonesTotal := s.media.zones.length, next := s.eraseStart }
  else { block := false, ause := ause, zonesTotal := s.media.zones.length, zonesDone := s.media.zones.length }

theorem State.takeAdmin_sanitiseBegun (s : State) (f : Fn) (block ause : Bool) :
    (s.takeAdmin f).sanitiseBegun block ause = s.sanitiseBegun block ause := by
  unfold State.sanitiseBegun
  rw [State.takeAdmin_eraseStart]
  rfl

theorem State.startSanitise_eq (s : State) (block ause : Bool) : s.startSanitise block ause =
    (s.cryptoErase.modSec fun y => { y with
      sanitise := some (s.sanitiseBegun block ause), sanProg := (s.sanitiseBegun block ause).share, sanFail := false
      sanUnrestricted := ause, sanStatus := 0 }).modNor fun n => { n with sanitise := some (s.sanitiseBegun block ause) } := rfl

theorem completes_sanitize (s : State) (q : AdmReq) (block ause : Bool) (h : adminReady q false true s = true)
    (hidle : s.sec.sanitise = none ∧ s.formatting = 0 ∧ s.sec.commit = none) (hfail : s.sec.sanFail = false) :
    Completes (s.sanitize q block ause) fun t =>
       t.sec.sanitise = some (s.sanitiseBegun block ause) ∧ t.nor.sanitise = t.sec.sanitise ∧
       t.sec.sanFail = false ∧ t.sec.sanUnrestricted = ause ∧ t.sec.drbg = s.sec.drbg + s.host.namespaces.length ∧ t.media.indir = [] ∧
       (∀ a : Eng, t.media.remaps[a] = []) ∧ t.trc.captures = [] ∧
       (∀ b ∈ t.q.buffered, ∀ x ∈ b.blocks, x.data = {}) ∧ Concluded s t q stOk 0 [] := by
  unfold State.sanitize
  obtain ⟨hsan, hform, hcommit⟩ := hidle
  have h1 : ¬(s.takeAdmin q.fn).sec.sanitise.isSome = true := by
    rw [show (s.takeAdmin q.fn).sec.sanitise = none from hsan]
    decide
  have h2 : ¬0 < (s.takeAdmin q.fn).formatting := by
    rw [show (s.takeAdmin q.fn).formatting = 0 from hform]
    decide
  have h3 : ¬(s.takeAdmin q.fn).sec.commit.isSome = true := by
    rw [show (s.takeAdmin q.fn).sec.commit = none from hcommit]
    decide
  have h4 : ¬((s.takeAdmin q.fn).sec.sanFail = true ∧ (!(s.takeAdmin q.fn).sec.sanUnrestricted) = true ∧ ause = true) := by
    rw [show (s.takeAdmin q.fn).sec.sanFail = false from hfail]
    exact fun h => Bool.false_ne_true h.1
  refine completes_admin_quiet h (((if_neg h1).trans ((if_neg h2).trans ((if_neg h3).trans (if_neg h4))))) fun t ht hquiet => ?_
  obtain ⟨hdrbg, hindir, hremaps, hcaptures, hzero, hposted⟩ := (s.takeAdmin q.fn).cryptoErase_effect rfl
  rw [State.startSanitise_eq, s.takeAdmin_sanitiseBegun] at ht hquiet
  generalize (s.takeAdmin q.fn).cryptoErase = c at *
  generalize s.sanitiseBegun block ause = x at *
  have hsec : t.sec = _ := ht.moves.sec_eq rfl
  have hnor : t.nor = _ := ht.moves.nor_eq rfl
  have hmedia : t.media = c.media := ht.moves.media_eq rfl
  have hq : t.q = c.q := ht.moves.q_eq rfl
  have htrc : t.trc = c.trc := (congrArg State.trc hquiet :)
  rw [hsec, hnor, hmedia, hq, htrc]
  exact ⟨rfl, rfl, rfl, rfl, hdrbg, hindir, hremaps, hcaptures, hzero, ht.concluded hposted⟩

/-- Settles O51: each command by its branch; what empties, resets or discards leaves the host link and the commands standing. -/
theorem adminNamespaces : Obligations.AdminNamespaces :=
  ⟨completes_setFeatures, completes_setFeatures_saved, completes_setFeatures_power, completes_setFeatures_writeCache,
    completes_setFeatures_queues, completes_formatNvm, completes_namespaceCreate, completes_namespaceCreate_zoned, completes_namespaceDelete,
    completes_namespaceAttach, completes_namespaceDetach, completes_virtualisation_flexible, completes_virtualisation_assign,
    completes_virtualisation_online, completes_virtualisation_offline,
    fun s q ause h hidle hfail => completes_sanitize s q false ause h hidle hfail,
    fun s q ause h hidle hfail => completes_sanitize s q true ause h hidle hfail,
    completes_sanitizeExitFailureMode, completes_sanitizeOverwrite, completes_invalidOpcode, completes_sanitizeComplete,
    completes_formatComplete⟩

end Sys2Proof.Machine
end
